-- ==== Sys2Proof/Word.lean ====
section
/-!
DEFINITION. Machine words and the plainest arithmetic on them: bit fields, saturation, signed readings and byte order.
The device is little-endian in memory, and bit 0 of a field is its least significant bit (R8).
-/
namespace Sys2Proof

/-- A 32-bit word of a bus, a general register or a link register. -/
abbrev Word := BitVec 32

/-- A 64-bit vector register of a signal core (R408). -/
abbrev Dword := BitVec 64

/-- A byte of memory. -/
abbrev Byte := BitVec 8

/-- Bits `hi` down to `lo` of `x`. -/
def bitsOf (x hi lo : Nat) : Nat := (x >>> lo) % 2 ^ (hi + 1 - lo)

/-- Bit `i` of `x` as a number. -/
def bitOf (x i : Nat) : Nat := (x >>> i) % 2

/-- `x` with bits `lo` up to `lo + w - 1` replaced by the low bits of `v`. -/
def putBits (x lo w v : Nat) : Nat :=
  x - ((x >>> lo) % 2 ^ w) * 2 ^ lo + (v % 2 ^ w) * 2 ^ lo

/-- A counter of `w` bits that saturates at its all-ones value (R12). -/
def satAdd (w x d : Nat) : Nat := min (2 ^ w - 1) (x + d)

/-- `x` read as a signed number of `w` bits. -/
def toSigned (w x : Nat) : Int := if x % 2 ^ w < 2 ^ (w - 1) then ((x % 2 ^ w : Nat) : Int) else ((x % 2 ^ w : Nat) : Int) - ((2 ^ w : Nat) : Int)

/-- The low `w` bits of an integer in two's complement. -/
def ofSigned (w : Nat) (x : Int) : Nat := (x % ((2 ^ w : Nat) : Int)).toNat

/-- `x` held between `lo` and `hi`. -/
def clampInt (lo hi x : Int) : Int := max lo (min hi x)

/-- A Boolean as the bit that a register shows. -/
def b2n (b : Bool) : Nat := if b then 1 else 0

/-- Little-endian bytes of a number (R8). -/
def leBytes : Nat → Nat → List Nat
  | 0, _ => []
  | n + 1, x => x % 256 :: leBytes n (x / 256)

/-- The number that little-endian bytes give (R8). -/
def ofLeBytes : List Nat → Nat
  | [] => 0
  | b :: bs => b % 256 + 256 * ofLeBytes bs

/-- Big-endian bytes, for the fields that their chapter sends in network order. -/
def beBytes (n x : Nat) : List Nat := (leBytes n x).reverse

/-- The number that big-endian bytes give. -/
def ofBeBytes (l : List Nat) : Nat := ofLeBytes l.reverse

/-- The number of bytes `n` at offset `off` of a byte list, little-endian; bytes past the end read 0. -/
def leAt (l : List Nat) (off n : Nat) : Nat := ofLeBytes ((l.drop off).take n)

/-- The list with the bytes `new` in place of those at offset `off`. -/
def setBytes (l : List Nat) (off : Nat) (new : List Nat) : List Nat :=
  l.take off ++ new ++ l.drop (off + new.length)

/-- Ceiling division. -/
def cdiv (a b : Nat) : Nat := (a + b - 1) / b

/-- The list with every element at index `i` changed by `f`; unchanged past the end. -/
def modAt {α : Type} (l : List α) (i : Nat) (f : α → α) : List α :=
  match l, i with
  | [], _ => []
  | a :: as, 0 => f a :: as
  | a :: as, i + 1 => a :: modAt as i f

/-- Association-list lookup by a number. -/
def look {α : Type} (k : Nat) : List (Nat × α) → Option α
  | [] => none
  | (k', v) :: rest => if k = k' then some v else look k rest

/-- Association-list update that keeps the keys strictly rising. -/
def put {α : Type} (k : Nat) (v : α) : List (Nat × α) → List (Nat × α)
  | [] => [(k, v)]
  | (k', v') :: rest =>
    if k < k' then (k, v) :: (k', v') :: rest
    else if k = k' then (k, v) :: rest
    else (k', v') :: put k v rest

/-- Association-list removal. -/
def del {α : Type} (k : Nat) : List (Nat × α) → List (Nat × α)
  | [] => []
  | (k', v') :: rest => if k = k' then rest else (k', v') :: del k rest

end Sys2Proof
end

