-- ==== Sys2Proof/Syntax.lean ====
section
/-!
DEFINITION. The commands the block takes: one constructor of `Instr` per row of the operation table, with the row's
operands. The types of the operands stand first.
-/
namespace Sys2Proof

/-- A transmission handed to the RFE (R137, R141). -/
structure TxReq where
  /-- Launch time T in ft (R137). -/
  t : Nat
  /-- The transmit state it is to run in (R141). -/
  state : Nat
  /-- Requested power code (R115). -/
  pcode : Nat
  /-- MODE code of the frame (R166). -/
  mode : Nat
  /-- Carrier in kHz. -/
  freq : Nat
  /-- Occupied bandwidth of the mode in kHz (R144). -/
  span : Nat
  /-- Air time in µs, ramps included (R114). -/
  air : Nat
  /-- Channels of the connection's map that lie in the sub-band; none for other frames (R147). -/
  hops : Option Nat
  deriving DecidableEq, Repr


/-- What a decoder reports of a frame (R175, R177): time of the delimiter's end in ft, MODE with the announced MCS, RSSI code,
SNR in 0.25 dB, EVM in 0.25 dB, carrier offset in Hz, FEC and 4-octet FCS used, the PSDU without its FCS, and the FCS check. -/
structure RxIn where
  ts : Nat
  mode : Nat
  rssi : Nat
  snr : Int
  evm : Nat
  cfo : Int
  fec : Bool
  fcs4 : Bool
  psdu : List Nat
  fcsOk : Bool
  deriving DecidableEq, Repr


/-- What the flash die did with one page read (R490 to R492): most bits corrected in a codeword, codewords corrected, retry set that succeeded, and
whether the page is uncorrectable. -/
structure PageOut where
  corr : Nat
  cws : Nat
  rset : Nat
  unc : Bool
  deriving DecidableEq, Repr

/-- What the flash die did with an operation (R490 to R496): its page reads in order (pages not listed read without a correction), pulses, the page or
erase that failed, spares that failed after it, and pages of a relocation that were uncorrectable. -/
structure FlashOut where
  reads : List PageOut
  pulses : Nat
  failAt : Option Nat
  spareFails : Nat
  lost : List Nat
  deriving DecidableEq, Repr

/-- A heartbeat of the other member of a pair (R670): ROLE, EPOCH, its local Firn time now in ft, whether the two configurations agree (R675), and
a planned switch asked for at the other member (R681). -/
structure HbIn where
  role : Nat
  epoch : Nat
  time : Nat
  agree : Bool
  switchAt : Option Nat
  deriving DecidableEq, Repr

/-- A bus access (R35, R776): initiator ID (R28), user mode, address, size in bytes, the data of a write, and whether the interconnect's parity fails on the
way (R442). -/
structure BusReq where
  ini : Nat
  user : Bool
  addr : Nat
  size : Nat
  val : Nat
  par : Bool
  deriving DecidableEq, Repr

/-- What a compact-form core reads ahead of an operation (R376, R378): the core's initiator ID, the prefixes in order (by their bit in emi.PFX: 0 CSB, 1 W8,
2 W16, 3 NF, 4 REP), the condition code; and what fails on the way: 0 nothing, 1 the interconnect's parity on the fetch, 2 the parity of the instruction cache on
a hit, 3 the interconnect's parity on a data access (R437, R442). -/
structure IsaHead where
  ini : Nat
  pfx : List Nat
  cond : Nat
  bad : Nat
  deriving DecidableEq, Repr

/-- The forms of an ALU instruction (R381): register, 8-bit immediate, 32-bit immediate. -/
inductive AluForm | reg | imm8 (v : Nat) | imm32 (v : Nat)
  deriving DecidableEq, Repr

/-- The operands of an ALU instruction (R381, R384). -/
structure AluArg where
  rd : Nat
  rs : Nat
  form : AluForm
  deriving DecidableEq, Repr

/-- The operands of a load or a store (R386): destination or source register, base, displacement size 0 to 3, mode 0 to 3, index register, and the displacement as
its bytes give it. -/
structure MemArg where
  rd : Nat
  base : Nat
  dsz : Nat
  mode : Nat
  idx : Nat
  disp : Nat
  deriving DecidableEq, Repr

/-- One command of the block per row of the operation table, in the table's order. A command that time brings
about carries `dt`, the number of FIRN cycles that pass before it (log entry 1). -/
inductive Instr where
  /-- REGISTER_WRITE (R9). A write to a register field that has no behaviour of its own sets the field under its access code and class rules, or is refused with CFGERR or a bus error. -/
  | registerWrite (w : BusReq) (dt : Nat)
  /-- SHADOW_COMMIT (R15). At a block's commit boundary its class S shadow values are committed together, or the commit is refused whole and CFGERR sets. -/
  | shadowCommit (b dt : Nat)
  /-- HELD_WRITE (R29). A posted write that FAB held for an island in a thaw stall is made once the island is ready. -/
  | heldWrite (dt : Nat)
  /-- POWER_ON (R47). VMAIN rising through its threshold resets everything except the backup domain and starts the boot sequence. -/
  | powerOn (resetLow : Bool) (dt : Nat)
  /-- BROWN_OUT (R755). VMAIN falling below the brown-out threshold issues a system reset with SYS_RSTCAUSE.BOR. -/
  | brownOut (dt : Nat)
  /-- BACKUP_LOSS (R755). The higher of VMAIN and VBAT falling below 1.5 V resets the backup domain. -/
  | backupLoss (dt : Nat)
  /-- RESET_N_LOW (R766). RESET_N held low for 1 µs or more asserts a system reset. -/
  | resetNLow (dt : Nat)
  /-- WATCHDOG_KICK (R684). Every 10 ms Glety kicks the AON watchdog. -/
  | watchdogKick (dt : Nat)
  /-- WATCHDOG_EXPIRY (R684). 50 ms after the last kick the AON watchdog issues a system reset and sets SYS_RSTCAUSE.WDG. -/
  | watchdogExpiry (dt : Nat)
  /-- SUPPLY (R50). Boot phase 0 ends when the reset hold expires. -/
  | supply (dt : Nat)
  /-- AON_START (R50). Boot phase 1 samples and latches the profile strap and ends when the core rails are in regulation. -/
  | aonStart (strap : Bool) (dt : Nat)
  /-- CLOCKS (R50). Boot phase 2 ends when the TCXO is detected and all PLLs are locked. -/
  | clocks (dt : Nat)
  /-- TCXO_RETRY (R51). While no TCXO is detected in phase 2 the device retries every 1 ms. -/
  | tcxoRetry (dt : Nat)
  /-- FUSES (R50). Boot phase 3 loads the fuse shadows and releases the supervisor to the boot ROM. -/
  | fuses (dt : Nat)
  /-- REPAIR (R50). Boot phase 4 applies the repair map, or fuse repairs only with RMAPLOST. -/
  | repair (a b : Bool) (dt : Nat)
  /-- SRAM_INIT (R50). Boot phase 5 writes zero with correct parity to all shared SRAM. -/
  | sramInit (dt : Nat)
  /-- IMAGE (R50). Boot phase 6 checks the Glety slots and starts one, falls back, or enters recovery. -/
  | image (okA okB : Bool) (dt : Nat)
  /-- GLETY_INIT (R50). Boot phase 7 loads tables, calibrates, trains and fills the DRAM, loads cores and ends when the mailboxes accept requests. -/
  | gletyInit (coord : Bool) (dt : Nat)
  /-- FIRN_TIME_LO_READ (R56). A read of FIRN_TIME_LO returns bits 31:0 of local time and latches bits 63:32 for the reader. -/
  | firnTimeLoRead (w : BusReq) (dt : Nat)
  /-- HOLDOVER_ENTRY (R66). After 30 s without an accepted sample STATE becomes HOLDOVER and the frequency freezes. -/
  | holdoverEntry (dt : Nat)
  /-- TCXO_LOSS (R759). XTCXO stopping for 10 µs makes FIRN coast, switches other clocks to the on-chip reference and turns the RFE off. -/
  | tcxoLoss (dt : Nat)
  /-- COAST_LAUNCH (R61). A comparator INFLIGHT at coast entry completes at the first crystal edge at or after its launch instant without firing a channel. -/
  | coastLaunch (n dt : Nat)
  /-- TCXO_RETURN (R759). When the TCXO returns the clocks change back and FIRN begins its coast exit. -/
  | tcxoReturn (dt : Nat)
  /-- COAST_RESTART (R62). Coast exit phase 1 ends when the 307.2 MHz PLL locks. -/
  | coastRestart (dt : Nat)
  /-- COAST_ALIGN (R62). At the next crystal edge FIRN resumes fine counting, sets HOLDOVER and matches overdue comparators LATE. -/
  | coastAlign (dt : Nat)
  /-- ARM (R81). A write of 1 to FIRN_CMPn_CTL.ARM requests the commit and arming of the comparator. -/
  | arm (w : BusReq) (dt : Nat)
  /-- COMPARATOR_COMMIT (R82). Four FIRN cycles after ARM the comparator commits and arms, or the commit is refused with CFGERR. -/
  | comparatorCommit (n dt : Nat)
  /-- DISARM (R87). A DISARM write to an ARMED comparator clears ARMED so it does not fire. -/
  | disarm (w : BusReq) (dt : Nat)
  /-- MATCH (R83). An armed comparator matches when local time reaches T minus 8,192 ft and goes INFLIGHT. -/
  | match (n dt : Nat)
  /-- LAUNCH (R84). At the launch instant the comparator sets FIRED, raises its event and fires its Geyser channel to the sinks. -/
  | launch (n dt : Nat)
  /-- CAPTURE_APPLY (R91). A write of 1 to FIRN_CAPk_CTL.APPLY commits EN, EDGE and SRC after 4 FIRN cycles, or refuses them. -/
  | captureApply (w : BusReq) (dt : Nat)
  /-- CAPTURE (R92). An enabled capture unit records the local Firn time of a selected edge, sets CAPF and raises its event. -/
  | capture (k : Nat) (rising : Bool) (dt : Nat)
  /-- CAPTURE_READ (R93). A read of FIRN_CAPk_TLO returns the held capture and latches its HI word. -/
  | captureRead (w : BusReq) (dt : Nat)
  /-- COARSE_OFFSET_WRITE (R78). Glety writes the Firn coarse offset within 1 s of an RTC time write and every 60 minutes while LOCKED. -/
  | coarseOffsetWrite (dt : Nat)
  /-- LEAP_SECOND (R349). At the end of a UTC month with LEAP set the root adjusts UTCOFF by one and clears the flags. -/
  | leapSecond (dt : Nat)
  /-- STATE_REQUEST (R125). A request from Glety or a link sequencer moves the radio to another state of the state table. -/
  | stateRequest (target freq vpa dt : Nat)
  /-- AUTO_RETURN (R125). A frame completing, or a transmission refused or abandoned, moves the radio to the state's AFTER_PKT. -/
  | autoReturn (vpa dt : Nat)
  /-- STATE_TIMEOUT (R125). A state's TIMEOUT elapsing moves the radio to ON_TIMEOUT, unless held by a reserved frame. -/
  | stateTimeout (vpa dt : Nat)
  /-- FULL_LOCK (R112). The transmit synthesizer completes band selection and settling and sets SYNTHLK. -/
  | fullLock (dt : Nat)
  /-- RETUNE (R112). The transmit synthesizer completes settling after a carrier change without band selection. -/
  | retune (dt : Nat)
  /-- TX_EVALUATE (R142). At the moment its ramp-up would start a transmission is sent, held, or refused with the first applicable outcome. -/
  | txEvaluate (r : TxReq) (busy lbt : Bool) (dt : Nat)
  /-- TX_HOLD_RELEASE (R139). A held launch starts its ramp-up when the transmitter becomes ready before T plus SLACK, with outcome HELD. -/
  | txHoldRelease (busy lbt : Bool) (dt : Nat)
  /-- TX_ABANDON (R140). A transmission not ready by T plus SLACK is abandoned with outcome LATE. -/
  | txAbandon (dt : Nat)
  /-- TX_FRAME_END (R114). The last symbol of a frame ends and the 2 µs ramp-down starts. -/
  | txFrameEnd (rl fwd ser shu : Nat) (low : Bool) (dt : Nat)
  /-- MISMATCH_FAULT (R123). A return loss below 1.75 dB ramps the power amplifier down, cuts the frame and marks the port faulted. -/
  | mismatchFault (rl fwd dt : Nat)
  /-- FAULT_HOLD_EXPIRY (R124). 60 s after a fault the port's next transmission runs in class LIMIT and is measured again. -/
  | faultHoldExpiry (p dt : Nat)
  /-- CALIBRATION_START (R136). Glety starts a due calibration in a gap with no armed transmit launch. -/
  | calibrationStart (kind port dt : Nat)
  /-- CALIBRATION_ABANDON (R134). An interruptible calibration is abandoned at its next step boundary for a launch or prepare request. -/
  | calibrationAbandon (dt : Nat)
  /-- CALIBRATION_COMPLETE (R133). A calibration completes and its results are used, or kept old with CALFAILCNT and EV110. -/
  | calibrationComplete (good : Bool) (dt : Nat)
  /-- CALIBRATION_OVERDUE (R136). A calibration due for 60 minutes holds untimed transmissions and runs. -/
  | calibrationOverdue (kind port dt : Nat)
  /-- DUTY_BUCKET (R145). Every 60 s the duty window of each sub-band advances by one bucket. -/
  | dutyBucket (dt : Nat)
  /-- LANE_CALIBRATION (R159). The spare converter lane completes its 5 ms calibration and reports its quality. -/
  | laneCalibration (lane quality : Nat) (converged : Bool) (dt : Nat)
  /-- LANE_EXCHANGE (R159). The calibrated spare replaces the longest-calibrated active lane at a sample boundary. -/
  | laneExchange (lane dt : Nat)
  /-- CLIP_OVERLOAD (R161). Converter clipping on more than 16 samples in 1 µs steps the stronger path down by 6 dB. -/
  | clipOverload (powerS powerW dt : Nat)
  /-- GAIN_STEP_UP (R161). A path 12 dB below clip for 10 ms with no frame running steps up by 6 dB. -/
  | gainStepUp (p dt : Nat)
  /-- PREAMBLE_DETECT (R169). A preamble detection is merged into a candidate or forms a new one, dropping the lowest when 64 wait. -/
  | preambleDetect (w bin mode energy : Nat) (again : Bool) (dt : Nat)
  /-- CANDIDATE_EXPIRY (R171). A candidate without a decoder 128 µs after its last report is dropped and counted. -/
  | candidateExpiry (i dt : Nat)
  /-- ALLOCATION (R173). Once every microsecond free decoders are given to waiting candidates in rank order. -/
  | allocation (dt : Nat)
  /-- RESERVATION_START (R172). A reservation takes a free decoder at the start of its guard window. -/
  | reservationStart (i dt : Nat)
  /-- RESERVATION_LAPSE (R172). At the end of its guard window an unused reservation lapses and its decoder becomes free. -/
  | reservationLapse (d dt : Nat)
  /-- FRAME_DECODED (R175). A decoded frame is written with its receive record to the receive ring, or dropped for FCS or RING. -/
  | frameDecoded (d : Nat) (r : RxIn) (room : Bool) (dt : Nat)
  /-- SFD_TIMEOUT (R175). A decoder finding no delimiter in time is freed and MDM_SFDTOCNT increments. -/
  | sfdTimeout (d dt : Nat)
  /-- DECODE_ABANDON (R175). A frame is abandoned for PHR, LOST, TXSUSP or MODE and its decoder freed. -/
  | decodeAbandon (d : Nat) (reason dt : Nat)
  /-- TIMESTAMP_MARK (R178). Every 2^20 window samples FIRN records the local time of a marked sample. -/
  | timestampMark (dt : Nat)
  /-- LINK_FRAME_CHECK (R210). The link controller checks a delivered frame in order and dispatches or drops it. -/
  | linkFrameCheck (ringFull : Bool) (dt : Nat)
  /-- BEACON_TX (R215). A relay or coordinator sends beacon m at its offset in the beacon interval. -/
  | beaconTx (m dt : Nat)
  /-- BEACON_MISS (R218). A tracked beacon's guard window closes without a valid beacon and misses increments. -/
  | beaconMiss (dt : Nat)
  /-- PARENT_RESELECT (R220). 4 beacon intervals after beacon-lost the node takes the cheapest candidate heard. -/
  | parentReselect (dt : Nat)
  /-- JOIN_REQ_SEND (R221). An unjoined node sends JOIN_REQ to the cheapest candidate and listens for 10 s. -/
  | joinReqSend (t dt : Nat)
  /-- JOIN_TIMEOUT (R221). No JOIN_RSP within 10 s makes the node retry after a random wait or move on. -/
  | joinTimeout (dt : Nat)
  /-- CONN_REQ_SEND (R222). A joined node without a parent connection sends CONN_REQ. -/
  | connReqSend (t dt : Nat)
  /-- CONNECT_RETRY (R222). Without a valid CONN_IND the child retries after a random wait, up to 4 times. -/
  | connectRetry (dt : Nat)
  /-- ESTABLISH_TIMEOUT (R222). No valid child frame in events 0 to 5 discards the connection as a TIMEOUT drop. -/
  | establishTimeout (c dt : Nat)
  /-- CONNECTION_EVENT (R225). At anchor k the parent opens the event and the ends exchange frames until the close condition. -/
  | connectionEvent (c phase : Nat) (lost : Bool) (dt : Nat)
  /-- SUPERVISION_TIMEOUT (R231). No contact from the peer for TIMEOUT drops the connection with TIMEOUT or DRIFT. -/
  | supervisionTimeout (c dt : Nat)
  /-- SEQUENCER_FAULT (R198). A faulted link sequencer is halted and its slot moved to the spare. -/
  | sequencerFault (p dt : Nat)
  /-- LEAF_WAKE_TIMER (R232). Glety's wake timer wakes a Leaf child 2.5 ms before its next guard window. -/
  | leafWakeTimer (dt : Nat)
  /-- DRIFT_RECOVERY_LISTEN (R237). After a TIMEOUT or DRIFT drop a Leaf child listens for its former parent on its back-off schedule. -/
  | driftRecoveryListen (dt : Nat)
  /-- CHILD_RECORD_EXPIRY (R239). A dropped child's record is discarded 10 minutes after the drop. -/
  | childRecordExpiry (i dt : Nat)
  /-- RESUME_BEACON (R239). For a dropped coasting child the parent sends a BEACON every 5 ms, up to 8 times. -/
  | resumeBeacon (i dt : Nat)
  /-- WAKE_PATTERN_SEND (R242). A parent sends a child's 48-bit OOK wake pattern. -/
  | wakePatternSend (peer t dt : Nat)
  /-- WAKE_CONN_FRAME (R245). After a wake pattern the parent sends CONN frames with TIME every 5 ms, up to 8 times. -/
  | wakeConnFrame (dt : Nat)
  /-- WAKE_MATCH (R244). The wake-up receiver matches an address, raises EV125 and starts the wake. -/
  | wakeMatch (w dt : Nat)
  /-- WAKE_RESTORE (R244). The wake restore of PD_SUP, PD_FAB and PD_LNK completes. -/
  | wakeRestore (dt : Nat)
  /-- TCXO_STABLE (R244). The TCXO becomes stable during a wake and FIRN starts its coast exit. -/
  | tcxoStable (dt : Nat)
  /-- FALSE_WAKE (R246). No addressed frame within 50 ms of a match counts the wake false and the node sleeps. -/
  | falseWake (dt : Nat)
  /-- RELAY_BACKOFF (R263). When the relay back-off expires the flood is suppressed or copies are enqueued on the flood bands. -/
  | relayBackoff (i dt : Nat)
  /-- RELAY_DEADLINE (R263). A relay copy still queued at its deadline is dropped with DEADLINE. -/
  | relayDeadline (p i dt : Nat)
  /-- SEEN_EXPIRY (R259). A seen-cache entry is removed SEENLIFE after insertion. -/
  | seenExpiry (i dt : Nat)
  /-- ROUTE_EXPIRY (R271). A route entry not refreshed for RTLIFE is removed. -/
  | routeExpiry (i dt : Nat)
  /-- FRAME_SELECT (R282). For a transmit opportunity the port scheduler chooses a conforming frame by class and discipline. -/
  | frameSelect (p t : Nat) (gap : Bool) (dt : Nat)
  /-- QUEUE_AGE_SCAN (R279). Once per second all queues are scanned and frames older than AGEMAX dropped. -/
  | queueAgeScan (dt : Nat)
  /-- NEGOTIATE (R297). A wired port's Clause 98 autonegotiation resolves the amplitude. -/
  | negotiate (p : Nat) (peerBoth : Bool) (dt : Nat)
  /-- TRAIN (R297). A wired port's training completes, LINK sets and it starts beacons and peer-delay. -/
  | train (p mse : Nat) (polinv : Bool) (dt : Nat)
  /-- WIRED_PHASE_TIMEOUT (R297). A bring-up phase passing its maximum restarts negotiation. -/
  | wiredPhaseTimeout (p dt : Nat)
  /-- LINK_LOSS (R298). Loss of lock or bad MSE clears LINK and LINKED with the effects of R299. -/
  | linkLoss (p dt : Nat)
  /-- WIRED_BEACON_SILENCE (R298). No valid BEACON for 3 s clears LINKED only. -/
  | wiredBeaconSilence (p dt : Nat)
  /-- MSE_MEASUREMENT (R300). Every 2^16 symbols the PHY measures MSE and updates the quality class. -/
  | mseMeasurement (p mse dt : Nat)
  /-- WIRED_BEACON_SEND (R304). While LINK is 1 each port sends a BEACON every 1 s. -/
  | wiredBeaconSend (p dt : Nat)
  /-- WIRED_FRAME_RECEIVE (R307). A received Ethernet frame is checked in order and passed to the link, mesh or peer-delay unit. -/
  | wiredFrameReceive (p : Nat) (fcsOk : Bool) (frame : List Nat) (ringFull : Bool) (dt : Nat)
  /-- PDELAY_REQ_SEND (R312). A port sends a Pdelay_Req every 250 ms for 2 s after LINK and every 1 s after. -/
  | pdelayReqSend (p dt : Nat)
  /-- PDELAY_REQ_RECEIVE (R312). A Pdelay_Req is answered with Pdelay_Resp and then Follow_Up. -/
  | pdelayReqReceive (p dt : Nat)
  /-- PDELAY_RESP_RECEIVE (R310). A Pdelay_Resp records t2 and t4 of an exchange. -/
  | pdelayRespReceive (p dt : Nat)
  /-- FOLLOW_UP_RECEIVE (R313). A Follow_Up completes the exchange, updates the peer delay and gives a timing sample. -/
  | followUpReceive (p dt : Nat)
  /-- PDELAY_LOST (R312). 100 ms without Follow_Up counts the exchange lost; three in a row set PDFAULT. -/
  | pdelayLost (p dt : Nat)
  /-- MB_REQ_DOORBELL (R333). A write of MBm_REQ posts request slots or is ignored with DBERR. -/
  | mbReqDoorbell (w : BusReq) (dt : Nat)
  /-- MB_RSP_WRITE (R333). A write of MBm_RSP frees response slots or is ignored with DBERR. -/
  | mbRspWrite (w : BusReq) (dt : Nat)
  /-- FLUSH (R342). A write of 1 to MBm_CTL.FLUSH resets the mailbox. -/
  | flush (w : BusReq) (dt : Nat)
  /-- FLUSH_DONE (R342). The flush completes and FLUSHING clears. -/
  | flushDone (m dt : Nat)
  /-- RECORD_POST (R336). A backlog record moves into the response ring when it has room, raising EV136 plus m. -/
  | recordPost (m dt : Nat)
  /-- PROGRESS_RECORD (R337). A long operation with PROG set sends a PROGRESS record at most once per second. -/
  | progressRecord (m tag dt : Nat)
  /-- SUSPEND_TIMEOUT (R340). An operation suspended for 3,600 s is cancelled with TIMEOUT. -/
  | suspendTimeout (m tag dt : Nat)
  /-- SUSPEND (R339). Suspends the named live operation at its next suspension point. -/
  | suspend (m dt : Nat)
  /-- RESUME (R339). Continues a suspended operation. -/
  | resume (m dt : Nat)
  /-- CANCEL (R340). Cancels the named operation before its cancel point or answers TOOLATE. -/
  | cancel (m dt : Nat)
  /-- OPS_LIST (R345). Returns the live operations of the mailbox. -/
  | opsList (m dt : Nat)
  /-- BUF_OPEN (R343). Opens a buffer of the given size and returns its handle. -/
  | bufOpen (m dt : Nat)
  /-- BUF_WRITE (R343). Writes data into an open buffer. -/
  | bufWrite (m dt : Nat)
  /-- BUF_READ (R345). Returns data from an open buffer. -/
  | bufRead (m dt : Nat)
  /-- BUF_CLOSE (R343). Closes a buffer that no live operation holds. -/
  | bufClose (m dt : Nat)
  /-- SYS_INFO (R346). Returns the Glety version, identity, variant, profile, slots and uptime. -/
  | sysInfo (m dt : Nat)
  /-- SYS_RESET (R346). Answers OK and issues a system reset after DELAY. -/
  | sysReset (m dt : Nat)
  /-- SYS_NOTIFY (R359). Replaces the mailbox's notice mask and returns the old one. -/
  | sysNotify (m dt : Nat)
  /-- SYS_PTYPE (R359). Subscribes or unsubscribes a customer PTYPE for the mailbox. -/
  | sysPtype (m dt : Nat)
  /-- NET_CFG_GET (R353). Writes the network configuration object into a buffer. -/
  | netCfgGet (m dt : Nat)
  /-- NET_CFG_SET (R354). Makes a configuration object the network's or the stored configuration, after ordered checks. -/
  | netCfgSet (m dt : Nat)
  /-- NET_CFG_INSTANT (R354). At INSTANT the new configuration applies and NET_CFG_SET ends DONE. -/
  | netCfgInstant (dt : Nat)
  /-- NET_STATUS (R348). Returns the network, address, parent, configuration and hop state. -/
  | netStatus (m dt : Nat)
  /-- NET_SEND (R347). Hands an inline or buffered payload to forwarding as a flood or unicast. -/
  | netSend (m dt : Nat)
  /-- LINK_LIST (R348). Returns the node's connections. -/
  | linkList (m dt : Nat)
  /-- LINK_DROP (R348). Drops a connection with reason LOCAL. -/
  | linkDrop (m dt : Nat)
  /-- LINK_WAKE (R348). Sends the wake pattern to a Leaf child and ends on its reply or TIMEOUT. -/
  | linkWake (m dt : Nat)
  /-- TIME_GET (R349). Returns local time, error bound, state, UTC offset, leap flags and REFACC. -/
  | timeGet (m dt : Nat)
  /-- TIME_SOURCE (R349). Selects free run or a PPS input as the root's time source. -/
  | timeSource (m dt : Nat)
  /-- TIME_SET (R349). Sets the root's time, UTC offset or leap flags by the bits of WHAT. -/
  | timeSet (m dt : Nat)
  /-- LUM_LEVEL (R350). Requests a tagged level change at T with fade. -/
  | lumLevel (m dt : Nat)
  /-- LUM_STATUS (R739). Returns the luminaire service's levels, faults and metering. -/
  | lumStatus (m dt : Nat)
  /-- LUM_SCHED (R731). Stores a schedule object from a buffer. -/
  | lumSched (m dt : Nat)
  /-- LUM_FAILSAFE (R729). Writes the failsafe light level to BKP_SET5. -/
  | lumFailsafe (m dt : Nat)
  /-- CO_GROUPCMD (R351). Floods a group command and collects status records until T plus COLLECT. -/
  | coGroupcmd (m dt : Nat)
  /-- COLLECT_END (R351). At T plus COLLECT the group command ends DONE with its counts. -/
  | collectEnd (dt : Nat)
  /-- CO_NODES (R742). Returns registry entries from START. -/
  | coNodes (m dt : Nat)
  /-- CO_NODE (R742). Returns one registry entry. -/
  | coNode (m dt : Nat)
  /-- CO_GROUPS (R742). Replaces a node's group list and sends it in a CONFIG PDU. -/
  | coGroups (m dt : Nat)
  /-- CO_ADMIT (R740). Adds or removes a long identity on the admission list. -/
  | coAdmit (m dt : Nat)
  /-- CO_DISPATCH (R744). Sends a schedule object to each member of a group by unicast. -/
  | coDispatch (m dt : Nat)
  /-- PAIR_STATUS (R682). Returns the pair role, link, epoch and lag. -/
  | pairStatus (m dt : Nat)
  /-- PAIR_CONFIG (R668). Stores the pair configuration object. -/
  | pairConfig (m dt : Nat)
  /-- PAIR_SWITCH (R681). Arms a planned exchange of pair roles at T. -/
  | pairSwitch (m dt : Nat)
  /-- STORE_INFO (R476). Returns free blocks, spares, Moraine entries, read-only state and partitions. -/
  | storeInfo (m dt : Nat)
  /-- STORE_PART (R476). Returns a partition record. -/
  | storePart (m dt : Nat)
  /-- STORE_PARTSET (R477). Redefines the user partitions, erasing changed blocks. -/
  | storePartset (m dt : Nat)
  /-- STORE_SCRUB (R502). Reads a partition and refreshes marked blocks. -/
  | storeScrub (m : Nat) (outs : List (Nat × PageOut)) (dt : Nat)
  /-- TBL_LOAD (R357). Checks a table object in a buffer and stores it in both copies. -/
  | tblLoad (m dt : Nat)
  /-- TBL_WRITE_DONE (R781). The store write of a table completes and the load or revert ends DONE or FAILED. -/
  | tblWriteDone (i : Nat) (ok : Bool) (dt : Nat)
  /-- TBL_INFO (R358). Returns a table's version, length, check value and source. -/
  | tblInfo (m dt : Nat)
  /-- TBL_READ (R782). Returns bytes of a table object. -/
  | tblRead (m dt : Nat)
  /-- TBL_REVERT (R358). Restores the shipped default of a table. -/
  | tblRevert (m dt : Nat)
  /-- HLT_SUMMARY (R664). Returns the record count, worst severity and standing alarms. -/
  | hltSummary (m dt : Nat)
  /-- HLT_READ (R662). Returns a health record by index. -/
  | hltRead (m dt : Nat)
  /-- UPD_STATUS (R715). Returns the update state and installed versions. -/
  | updStatus (m dt : Nat)
  /-- UPD_INTAKE (R701). Receives a bundle from the host or SD card into the bundle store. -/
  | updIntake (m dt : Nat)
  /-- INTAKE_VERIFY (R701). After the last byte the bundle is verified and the intake ends DONE or FAILED. -/
  | intakeVerify (m tag : Nat) (card : List Nat) (dt : Nat)
  /-- UPD_PUSH (R352). Appends a buffer to the bundle of a live host intake. -/
  | updPush (m dt : Nat)
  /-- UPD_DISTRIBUTE (R704). Floods an OFFER and distributes a bundle to the network. -/
  | updDistribute (m dt : Nat)
  /-- UPD_ACTIVATE (R709). Floods ACTIVATE for a bundle at T. -/
  | updActivate (m dt : Nat)
  /-- UPD_CONFIRM (R711). Confirms a pending trial. -/
  | updConfirm (m dt : Nat)
  /-- UDF (R379). Major opcode 0x00 raises the Undefined exception. -/
  | udf (h : IsaHead) (dt : Nat)
  /-- ADD (R384). Adds and sets N Z C V. -/
  | add (h : IsaHead) (x : AluArg) (dt : Nat)
  /-- ADC (R384). Adds with carry. -/
  | adc (h : IsaHead) (x : AluArg) (dt : Nat)
  /-- SUB (R384). Subtracts. -/
  | sub (h : IsaHead) (x : AluArg) (dt : Nat)
  /-- SBC (R384). Subtracts with borrow. -/
  | sbc (h : IsaHead) (x : AluArg) (dt : Nat)
  /-- CMP (R384). Compares by subtraction, result discarded. -/
  | cmp (h : IsaHead) (x : AluArg) (dt : Nat)
  /-- AND (R384). Bitwise and. -/
  | and (h : IsaHead) (x : AluArg) (dt : Nat)
  /-- OR (R384). Bitwise or. -/
  | or (h : IsaHead) (x : AluArg) (dt : Nat)
  /-- XOR (R384). Bitwise exclusive or. -/
  | xor (h : IsaHead) (x : AluArg) (dt : Nat)
  /-- BIC (R384). And with the complement. -/
  | bic (h : IsaHead) (x : AluArg) (dt : Nat)
  /-- TST (R384). Tests bits, result discarded. -/
  | tst (h : IsaHead) (x : AluArg) (dt : Nat)
  /-- MOV (R384). Moves the operand. -/
  | mov (h : IsaHead) (x : AluArg) (dt : Nat)
  /-- NOT (R384). Complements the operand. -/
  | not (h : IsaHead) (x : AluArg) (dt : Nat)
  /-- SHL (R385). Shifts left. -/
  | shl (h : IsaHead) (x : AluArg) (dt : Nat)
  /-- SHR (R385). Shifts right with zero fill. -/
  | shr (h : IsaHead) (x : AluArg) (dt : Nat)
  /-- SAR (R385). Shifts right with sign fill. -/
  | sar (h : IsaHead) (x : AluArg) (dt : Nat)
  /-- ROR (R385). Rotates right. -/
  | ror (h : IsaHead) (x : AluArg) (dt : Nat)
  /-- MUL (R384). Low 32 bits of the product. -/
  | mul (h : IsaHead) (x : AluArg) (dt : Nat)
  /-- MULH (R384). High 32 bits of the signed product. -/
  | mulh (h : IsaHead) (x : AluArg) (dt : Nat)
  /-- MULHU (R384). High 32 bits of the unsigned product. -/
  | mulhu (h : IsaHead) (x : AluArg) (dt : Nat)
  /-- DIV (R385). Signed division with defined corner cases. -/
  | div (h : IsaHead) (x : AluArg) (dt : Nat)
  /-- DIVU (R385). Unsigned division. -/
  | divu (h : IsaHead) (x : AluArg) (dt : Nat)
  /-- REM (R385). Signed remainder. -/
  | rem (h : IsaHead) (x : AluArg) (dt : Nat)
  /-- REMU (R385). Unsigned remainder. -/
  | remu (h : IsaHead) (x : AluArg) (dt : Nat)
  /-- MIN (R384). Signed minimum. -/
  | min (h : IsaHead) (x : AluArg) (dt : Nat)
  /-- MAX (R384). Signed maximum. -/
  | max (h : IsaHead) (x : AluArg) (dt : Nat)
  /-- MINU (R384). Unsigned minimum. -/
  | minu (h : IsaHead) (x : AluArg) (dt : Nat)
  /-- MAXU (R384). Unsigned maximum. -/
  | maxu (h : IsaHead) (x : AluArg) (dt : Nat)
  /-- MOVI16 (R381). Loads a 16-bit immediate by KIND. -/
  | movi16 (h : IsaHead) (rd kind imm dt : Nat)
  /-- MOVI32 (R381). Loads a 32-bit immediate. -/
  | movi32 (h : IsaHead) (rd imm dt : Nat)
  /-- LD (R386). Loads with zero extension under the addressing mode. -/
  | ld (h : IsaHead) (m : MemArg) (dt : Nat)
  /-- LDS (R386). Loads with sign extension. -/
  | lds (h : IsaHead) (m : MemArg) (dt : Nat)
  /-- ST (R386). Stores under the addressing mode, posted. -/
  | st (h : IsaHead) (m : MemArg) (dt : Nat)
  /-- PUSHM (R387). Stores the masked registers and lowers sp. -/
  | pushm (h : IsaHead) (mask dt : Nat)
  /-- POPM (R387). Loads the masked registers and raises sp. -/
  | popm (h : IsaHead) (mask dt : Nat)
  /-- BR8 (R388). Branches by an 8-bit displacement. -/
  | br8 (h : IsaHead) (disp dt : Nat)
  /-- BR32 (R388). Branches by a 32-bit displacement. -/
  | br32 (h : IsaHead) (disp dt : Nat)
  /-- BL32 (R388). Branches and writes lk. -/
  | bl32 (h : IsaHead) (disp dt : Nat)
  /-- JR (R388). Jumps to a register, optionally linking. -/
  | jr (h : IsaHead) (rs : Nat) (link : Bool) (dt : Nat)
  /-- MOVS (R391). Copies elements from g10 to g11, repeated under REP. -/
  | movs (h : IsaHead) (dt : Nat)
  /-- FILS (R391). Fills elements at g11 from g0. -/
  | fils (h : IsaHead) (dt : Nat)
  /-- CMPS (R391). Compares elements at g10 and g11. -/
  | cmps (h : IsaHead) (dt : Nat)
  /-- SCNS (R391). Scans elements at g10 for g0. -/
  | scns (h : IsaHead) (dt : Nat)
  /-- CRCS (R391). Runs CRC steps over elements into g1. -/
  | crcs (h : IsaHead) (dt : Nat)
  /-- LOOP (R394). Starts a supervisor hardware loop level. -/
  | loop (h : IsaHead) (lvl : Nat) (creg : Bool) (reg off count dt : Nat)
  /-- MOVC (R372). Moves between a general register and a control register. -/
  | movc (h : IsaHead) (rb : Nat) (dir : Bool) (num dt : Nat)
  /-- BAR (R404). Stalls until every posted write has arrived. -/
  | bar (h : IsaHead) (dt : Nat)
  /-- ISB (R404). Completes as BAR and discards prefetched instructions. -/
  | isb (h : IsaHead) (dt : Nat)
  /-- ICINV (R404). Completes as ISB and invalidates the instruction cache. -/
  | icinv (h : IsaHead) (dt : Nat)
  /-- SVC (R398). Raises the SVC exception. -/
  | svc (h : IsaHead) (imm dt : Nat)
  /-- SWP (R389). Atomically swaps a shared SRAM word. -/
  | swp (h : IsaHead) (rd base dt : Nat)
  /-- CAS (R389). Atomically compares and swaps a shared SRAM word. -/
  | cas (h : IsaHead) (rd base dt : Nat)
  /-- XADD (R389). Atomically adds to a shared SRAM word. -/
  | xadd (h : IsaHead) (rd base dt : Nat)
  /-- NOP (R381). Does nothing. -/
  | nop (h : IsaHead) (dt : Nat)
  /-- BRK (R398). Raises BRK or halts under debug. -/
  | brk (h : IsaHead) (imm dt : Nat)
  /-- POPC (R382). Counts one bits. -/
  | popc (h : IsaHead) (rd rs dt : Nat)
  /-- CLZ (R382). Counts leading zeros. -/
  | clz (h : IsaHead) (rd rs dt : Nat)
  /-- BREV (R382). Reverses bit order. -/
  | brev (h : IsaHead) (rd rs dt : Nat)
  /-- BSWAP (R382). Reverses byte order. -/
  | bswap (h : IsaHead) (rd rs dt : Nat)
  /-- BFXU (R382). Extracts an unsigned bit field. -/
  | bfxu (h : IsaHead) (rd rs pos width dt : Nat)
  /-- BFXS (R382). Extracts a signed bit field. -/
  | bfxs (h : IsaHead) (rd rs pos width dt : Nat)
  /-- BFI (R382). Inserts a bit field. -/
  | bfi (h : IsaHead) (rd rs pos width dt : Nat)
  /-- ERET (R383). Restores st from est and pc from epc. -/
  | eret (h : IsaHead) (dt : Nat)
  /-- WFI (R383). Stops issue until an enabled interrupt line is pending. -/
  | wfi (h : IsaHead) (dt : Nat)
  /-- DI (R383). Clears st.IE. -/
  | di (h : IsaHead) (dt : Nat)
  /-- EI (R383). Sets st.IE. -/
  | ei (h : IsaHead) (dt : Nat)
  /-- RESERVED_ENCODING (R380). A reserved encoding raises the Emulation exception and captures the encoding. -/
  | reservedEncoding (h : IsaHead) (esc : Nat) (bytes : List Nat) (dt : Nat)
  /-- INTERRUPT_ENTRY (R401). At a boundary with IE set the core takes the presented line and enters its vector. -/
  | interruptEntry (ini dt : Nat)
  /-- IMPRECISE_BUS_ERROR (R403). A failed posted write is reported as an imprecise data bus error. -/
  | impreciseBusError (ini dt : Nat)
  /-- BUNDLE (R414). A signal core issues a bundle, reading sources at its start and writing results at its end. -/
  | bundle (c : Nat) (slots : List Nat) (bad dt : Nat)
  /-- KERNEL_PERIOD (R427). At each 2^20 ft period boundary a suspended kernel receives a new BUDGET. -/
  | kernelPeriod (dt : Nat)
  /-- KERNEL_BUDGET_SUSPEND (R430). A kernel that has used BUDGET cycles is suspended until the next period. -/
  | kernelBudgetSuspend (waiting : Bool) (dt : Nat)
  /-- PATROL_READ (R441). The patrol reads the next row of each SRAM and TCM array in a free cycle. -/
  | patrolRead (arr : Nat) (upsets : List Nat) (dt : Nat)
  /-- ROW_REFETCH (R438). A backed row that failed parity on fetch is reloaded from the store and the fetch completes. -/
  | rowRefetch (i dt : Nat)
  /-- DRAM_COMMAND_ISSUE (R454). For each DRAM command slot the controller issues the request chosen by urgency, page and age. -/
  | dramCommandIssue (upset dt : Nat)
  /-- WRITE_QUEUE_DRAIN (R451). A write-queue entry is written to DRAM, by read-modify-write with poison when needed. -/
  | writeQueueDrain (i dt : Nat)
  /-- PAGE_IDLE_CLOSE (R455). A bank's page closes after PGIDLE cycles without access. -/
  | pageIdleClose (bank dt : Nat)
  /-- DRAM_REFRESH (R457). Each refresh interval a bank is refreshed for 60 ns. -/
  | dramRefresh (bank dt : Nat)
  /-- DRAM_TEMP_POLL (R457). Every 16 ms the DRAM temperature sets REFMUL. -/
  | dramTempPoll (temp dt : Nat)
  /-- DQS_MEASURE (R458). Every 100 ms the DQS delay is measured and write delays adjusted if drifted. -/
  | dqsMeasure (drift : Bool) (dt : Nat)
  /-- FULL_RETRAIN (R458). A die temperature move above 30 °C retrains the DRAM in full. -/
  | fullRetrain (dt : Nat)
  /-- FLC_DOORBELL (R480). A write of FLC_QAPP_DOORBELL posts descriptors or sets DBERR. -/
  | flcDoorbell (w : BusReq) (dt : Nat)
  /-- FLC_CACK_WRITE (R480). A write of FLC_QAPP_CACK acknowledges completion records or sets DBERR. -/
  | flcCackWrite (w : BusReq) (dt : Nat)
  /-- FLC_EN_WRITE (R488). Clearing FLC_QAPP_CTL.EN aborts taken but unstarted descriptors and stops taking. -/
  | flcEnWrite (w : BusReq) (dt : Nat)
  /-- DESCRIPTOR_TAKE (R483). The controller takes a descriptor when the completion ring has room and checks it. -/
  | descriptorTake (dt : Nat)
  /-- READ (R490). Reads pages with correction and read-retry into a buffer. -/
  | read (pl dt : Nat)
  /-- PROG (R494). Programs pages in order, relocating the block on failure. -/
  | prog (pl dt : Nat)
  /-- ERASE (R496). Erases a block with up to 8 pulses, relocating on failure. -/
  | erase (pl dt : Nat)
  /-- LOAD (R503). Copies pages into executable memory through the code-loader queue, backing each row. -/
  | load (pl dt : Nat)
  /-- FLC_NOP (R483). Completes OK with no flash operation. -/
  | flcNop (dt : Nat)
  /-- ERASE_SUSPEND (R497). An erase is suspended when a read of another block of its plane waits. -/
  | eraseSuspend (pl dt : Nat)
  /-- ERASE_RESUME (R497). A suspended erase resumes when no read waits or after 2 ms. -/
  | eraseResume (pl dt : Nat)
  /-- CODE_LOADER_READ (R498). A code-loader read takes its plane at the next step boundary. -/
  | codeLoaderRead (i : Nat) (o : PageOut) (dt : Nat)
  /-- BLOCK_REFRESH (R499). A marked block is copied to a spare, remapped and the old block erased. -/
  | blockRefresh (l : Nat) (fails : Bool) (dt : Nat)
  /-- AUTO_SCRUB (R502). Every 7 days Glety scrubs partitions 0 to 3. -/
  | autoScrub (outs : List (Nat × PageOut)) (dt : Nat)
  /-- FLC_XO_WRITE (R506). A write of FLC_XOn sets an execute-only region, refused with CFGERR when locked or invalid. -/
  | flcXoWrite (w : BusReq) (dt : Nat)
  /-- START (R527). A write of CPH_CnCTL.START checks OP, LEN and key and begins a message. -/
  | start (w : BusReq) (parity : Bool) (dt : Nat)
  /-- ABORT (R527). Ends the message with ABORTED at the next block boundary. -/
  | abort (w : BusReq) (dt : Nat)
  /-- DIN3_SUBMIT (R527). A write of DIN3 queues a block, or ends the message with OVERRUN when no place is free. -/
  | din3Submit (w : BusReq) (dt : Nat)
  /-- BLOCK_END (R526). At each block boundary the engine picks the next context and completes a message after its last block. -/
  | blockEnd (fault dt : Nat)
  /-- KEY_LOAD (R520). A write of KCTL.LOAD loads a key into a slot. -/
  | keyLoad (w : BusReq) (dt : Nat)
  /-- KEY_LOAD_DONE (R520). The key schedule and subkeys are ready and KBUSY clears. -/
  | keyLoadDone (dt : Nat)
  /-- KEY_CLEAR (R520). A write of KCTL.CLEAR invalidates a slot. -/
  | keyClear (w : BusReq) (dt : Nat)
  /-- OWNERSHIP_CHANGE (R539). A write of PROT_OWNk changes an owner, disarming comparators, ending messages or kernels. -/
  | ownershipChange (w : BusReq) (dt : Nat)
  /-- PROT_LOCK (R538). Setting PROT_CTL.LOCK freezes the protection settings until system reset. -/
  | protLock (w : BusReq) (dt : Nat)
  /-- EVENT_DELIVERY (R561). A raised event source reaches its channels and interrupt lines after its crossings. -/
  | eventDelivery (srcs : List Nat) (dt : Nat)
  /-- SOFTWARE_FIRE (R556). A write of EVT_FIRE0 or EVT_FIRE1 fires the named owned channels or raises KIND 2. -/
  | softwareFire (w : BusReq) (dt : Nat)
  /-- SETEN (R559). A write of SETEN enables the group. -/
  | seten (w : BusReq) (dt : Nat)
  /-- SETDIS (R559). A write of SETDIS disables the group. -/
  | setdis (w : BusReq) (dt : Nat)
  /-- TIMER_START (R573). START or its channel starts a timer with CNT 0, making any pending commit. -/
  | timerStart (w : BusReq) (dt : Nat)
  /-- TIMER_APPLY (R574). A write of APPLY requests the commit of TOP, PSC and DUTY at the next wrap. -/
  | timerApply (w : BusReq) (dt : Nat)
  /-- TIMER_WRAP (R572). A tick from TOP to 0 sets UPF, raises its event and commits pending values. -/
  | timerWrap (t dt : Nat)
  /-- COMPARE_MATCH (R575). A tick reaching CMP sets CCF, raises its event and applies OUTACT. -/
  | compareMatch (t c dt : Nat)
  /-- PWM_DUTY_REACHED (R576). A tick reaching DUTY drops the PWM output and sets CCF. -/
  | pwmDutyReached (t c dt : Nat)
  /-- TIMER_CAPTURE (R577). Every Nth qualifying edge copies CNT into the held capture. -/
  | timerCapture (t c : Nat) (rising : Bool) (dt : Nat)
  /-- FORCE (R575). A write of FORCE makes one match or capture. -/
  | force (w : BusReq) (dt : Nat)
  /-- CAP_READ (R577). A read of CCc_CAP returns the held capture and clears CAPF. -/
  | capRead (w : BusReq) (dt : Nat)
  /-- TIMER_BLOCK_RESET (R578). A write of TMR_GCTL.RESET stops every counter and resets TMR. -/
  | timerBlockReset (w : BusReq) (dt : Nat)
  /-- SECOND_ADVANCE (R586). A wrap of SSEC advances the calendar by one second. -/
  | secondAdvance (dt : Nat)
  /-- RTC_TIME_READ (R588). A read of RTC_TIME latches date and SSEC for the reader. -/
  | rtcTimeRead (w : BusReq) (dt : Nat)
  /-- RTC_APPLY (R589). A write of RTC_CTL.APPLY requests the set registers' commit at the next crystal edge. -/
  | rtcApply (w : BusReq) (dt : Nat)
  /-- RTC_SET_COMMIT (R589). At the next edge the clock is set or the commit refused with BADDATE, raising EV155. -/
  | rtcSetCommit (dt : Nat)
  /-- PERIODIC_WAKE (R592). Each PERIOD the RTC sets WAKEF and raises EV154. -/
  | periodicWake (dt : Nat)
  /-- WAKE_PERIOD_WRITE (R592). A write of RTC_WAKE restarts or stops the periodic wake. -/
  | wakePeriodWrite (w : BusReq) (dt : Nat)
  /-- XTAL_FAIL (R593). No crystal edge for 1 ms sets XTALFAIL and runs the RTC from the RC. -/
  | xtalFail (dt : Nat)
  /-- XTAL_RETURN (R593). After 1 ms of steady edges the RTC returns to the crystal. -/
  | xtalReturn (dt : Nat)
  /-- SPX_START (R604). A write of START in the master role begins a frame. -/
  | spxStart (w : BusReq) (dt : Nat)
  /-- MASTER_FRAME_END (R606). A master frame's hold ends, releasing the select and setting FRMEND. -/
  | masterFrameEnd (n : Nat) (data : List Nat) (dt : Nat)
  /-- SLAVE_FRAME_START (R607). SPX0_CS_N falling begins a slave frame. -/
  | slaveFrameStart (dt : Nat)
  /-- SLAVE_FRAME_END (R607). SPX0_CS_N rising commits, truncates or rejects the received frame. -/
  | slaveFrameEnd (nbits : Nat) (bytes : List Nat) (sent dt : Nat)
  /-- HOST_READ (R612). A host READ frame issues window reads as words are clocked. -/
  | hostRead (cmd idx k dt : Nat)
  /-- SPX_APPLY (R620). A write of APPLY commits the S fields at the frame end. -/
  | spxApply (w : BusReq) (dt : Nat)
  /-- TXFLUSH (R620). Empties the TX FIFO. -/
  | txflush (w : BusReq) (dt : Nat)
  /-- RXFLUSH (R620). Empties the RX FIFO and its frame records. -/
  | rxflush (w : BusReq) (dt : Nat)
  /-- DATA_PUSH (R622). A write of SPXn_DATA pushes a word to the TX FIFO. -/
  | dataPush (w : BusReq) (dt : Nat)
  /-- DATA_POP (R622). A read of SPXn_DATA pops a word from the RX FIFO. -/
  | dataPop (w : BusReq) (dt : Nat)
  /-- VOTE_WRITE (R631). A write of PWR_DOMn.CREQ changes the customer vote and the domain's target. -/
  | voteWrite (w : BusReq) (dt : Nat)
  /-- ENTRY_HANDSHAKE (R633). A falling target asks every block of the domain and enters, delays or refuses. -/
  | entryHandshake (n dt : Nat)
  /-- HANDSHAKE_RETRY (R633). While a block delays, the controller asks again every 10 µs. -/
  | handshakeRetry (n dt : Nat)
  /-- DELAY_LIMIT (R633). A delay lasting DLYLIM refuses the entry with the delay reason. -/
  | delayLimit (n dt : Nat)
  /-- ENTRY_ABANDON (R636). An access to a domain during its entry handshake abandons the entry. -/
  | entryAbandon (n dt : Nat)
  /-- THAW_STALL (R637). A first access to a domain in Retention or Off brings it up and sets both votes On. -/
  | thawStall (ini n dt : Nat)
  /-- THAW_READY (R638). The thawing domain becomes ready and the waiting access proceeds. -/
  | thawReady (n dt : Nat)
  /-- THAW_TIMEOUT (R639). A domain not ready 200 µs after the access fails it with KIND 4. -/
  | thawTimeout (ini n dt : Nat)
  /-- STOPREQ (R643). A write of 1 to PWR_CTL.STOPREQ requests Anchor Stop. -/
  | stopreq (w : BusReq) (dt : Nat)
  /-- PFAIL_LOW (R643). PFAIL_N low with PFAILEN set requests Stop. -/
  | pfailLow (dt : Nat)
  /-- PFAIL_RETRY (R643). A Stop requested by PFAIL_N is asked again every 10 ms while it stays low. -/
  | pfailRetry (dt : Nat)
  /-- STOP_ENTER (R644). After the handshake every domain enters Retention together and FIRN coasts. -/
  | stopEnter (dt : Nat)
  /-- STOP_EXIT (R644). A wake source thaws every domain from Retention. -/
  | stopExit (pfailRise : Bool) (dt : Nat)
  /-- STOP_COAST_EXIT (R644). FIRN leaves coast after Stop, STOPREQ clears and EV103 is raised. -/
  | stopCoastExit (dt : Nat)
  /-- WAKET_WRITE (R645). A write of PWR_WAKET starts or stops the wake timer. -/
  | waketWrite (w : BusReq) (dt : Nat)
  /-- WAKE_TIMER_EXPIRY (R645). The wake timer expires, waking masked domains and optionally ending Stop. -/
  | wakeTimerExpiry (dt : Nat)
  /-- RELATCH (R627). A write of RELATCH clears BKP_SET0.LATCHED. -/
  | relatch (w : BusReq) (dt : Nat)
  /-- GLETY_ASLEEP (R778). Glety with no work lowers its Leaf votes to its sleep values. -/
  | gletyAsleep (dt : Nat)
  /-- GLETY_AWAKE (R778). Glety with work raises its Leaf votes to its awake values. -/
  | gletyAwake (dt : Nat)
  /-- REPLAN (R656). Every 10 s Glety re-plans each island's rail and ceiling clock from its margin. -/
  | replan (ms : List Nat) (dt : Nat)
  /-- TEMPERATURE_POLL (R654). Every 1 s the die temperature is measured. -/
  | temperaturePoll (t dt : Nat)
  /-- WEAR_EVALUATION (R658). Hourly Glety judges flash wear per block group. -/
  | wearEvaluation (dt : Nat)
  /-- MIRROR_LANE_CHECK (R669). Every 1 ms code violations are counted and a bad lane moves to its spare. -/
  | mirrorLaneCheck (lane v dt : Nat)
  /-- HEARTBEAT_SEND (R670). Each member sends a heartbeat every 1 ms. -/
  | heartbeatSend (dt : Nat)
  /-- HEARTBEAT_RECEIVE (R670). A heartbeat disciplines the standby's time and reports role and epoch. -/
  | heartbeatReceive (h : HbIn) (dt : Nat)
  /-- MIRROR_WRITE (R671). A write to a mirrored location is sent over the link and applied on the standby. -/
  | mirrorWrite (a : Nat) (l : List Nat) (dt : Nat)
  /-- MIR_FENCE (R673). A write of MIR_FENCE.FENCE waits until prior mirrored writes are applied. -/
  | mirFence (w : BusReq) (dt : Nat)
  /-- FENCE_COMPLETE (R673). The fence completes, or fails when the link goes down. -/
  | fenceComplete (dt : Nat)
  /-- MIRROR_SILENCE (R679). 5 ms without a frame takes the mirror link down and starts the radio check. -/
  | mirrorSilence (dt : Nat)
  /-- PAIR_BEACON_SEND (R676). While the link is down an active member sends a pair beacon every 5 ms. -/
  | pairBeaconSend (dt : Nat)
  /-- PAIR_BEACON_HEARD (R678). A pair beacon heard makes the standby, or a lower-epoch active member, FENCED. -/
  | pairBeaconHeard (bseq dt : Nat)
  /-- TAKEOVER (R679). After 20 ms without a pair beacon the standby raises EPOCH and serves ALONE. -/
  | takeover (dt : Nat)
  /-- START_ALONE (R675). A member with the link down for 2 s after boot becomes ALONE or FENCED. -/
  | startAlone (dt : Nat)
  /-- SYNC_COMPLETE (R675). SYNCING finishes copying and the member becomes STANDBY. -/
  | syncComplete (dt : Nat)
  /-- SWITCH_FENCE (R681). At T minus 10 ms the old active member fences its mirrored writes. -/
  | switchFence (dt : Nat)
  /-- PLANNED_SWITCH (R681). At T the pair exchanges roles and EPOCH rises. -/
  | plannedSwitch (dt : Nat)
  /-- CHUNK_SEND (R705). A node with children sends each held chunk once as a one-hop CHUNK. -/
  | chunkSend (dt : Nat)
  /-- CHUNK_RECEIVE (R705). A received CHUNK is stored unless already held. -/
  | chunkReceive (dt : Nat)
  /-- REQ_TIMER (R705). 10 s without a chunk, or a Leaf event, sends REQ for missing chunks. -/
  | reqTimer (dt : Nat)
  /-- REQ_RECEIVE (R705). A parent answers REQ with unicast CHUNKs. -/
  | reqReceive (dt : Nat)
  /-- HAVE_RECEIVE (R706). A HAVE report updates distribution progress at the coordinator. -/
  | haveReceive (dt : Nat)
  /-- INSTALL (R707). A node holding every chunk verifies and installs or holds the bundle and reports HAVE. -/
  | install (fail : Bool) (dt : Nat)
  /-- ACTIVATE_RECEIVE (R709). An ACTIVATE arms a Glety comparator for T on a node that installed the bundle. -/
  | activateReceive (dt : Nat)
  /-- ACTIVATION (R710). At T the staged components are put in force, the application cores restart, or a system reset follows. -/
  | activation (dt : Nat)
  /-- TRIAL_CONFIRM (R711). Glety confirms the trial when joined and locked and confirmed within CONFWIN. -/
  | trialConfirm (dt : Nat)
  /-- CONFWIN_EXPIRY (R711). CONFWIN passing without confirmation falls back to the last-good slots. -/
  | confwinExpiry (dt : Nat)
  /-- CARD_TRY (R703). In recovery the boot ROM tries the SD card every 1 s. -/
  | cardTry (card : List Nat) (dt : Nat)
  /-- LMP_APPLY (R720). A write of LMP_CTL.APPLY commits the lamp S fields at the period start or the next launch. -/
  | lmpApply (dt : Nat)
  /-- DALI_SEND (R749). A write of LMP_DALI_TX.SEND queues a forward frame. -/
  | daliSend (w : BusReq) (dt : Nat)
  /-- DALI_TRANSMIT_END (R719). A DALI forward frame ends, raising EV167. -/
  | daliTransmitEnd (collision : Bool) (dt : Nat)
  /-- BACKWARD_FRAME (R719). A DALI backward frame is received. -/
  | backwardFrame (data : Nat) (err : Bool) (dt : Nat)
  /-- BACKWARD_WINDOW_EMPTY (R719). The backward window passes with no frame. -/
  | backwardWindowEmpty (dt : Nat)
  /-- BUS_LOW (R719). The DALI bus low for 500 ms sets BUSLOW. -/
  | busLow (low : Bool) (dt : Nat)
  /-- PHOTO_SAMPLE (R721). Ten times a second PHOTO is converted to VALUE. -/
  | photoSample (uv dt : Nat)
  /-- METER_BLOCK (R722). Every 64 samples the metering latch completes and EV166 is raised. -/
  | meterBlock (b : List (Nat × Nat × Nat × Nat)) (dt : Nat)
  /-- MIDNIGHT_COMPUTE (R732). Each local midnight the service computes the day's entry times. -/
  | midnightCompute (dt : Nat)
  /-- SCHEDULE_ENTRY (R728). A timed schedule entry becomes the source in force. -/
  | scheduleEntry (dt : Nat)
  /-- PHOTOCELL_ENTRY (R732). A photocell threshold held for PHHOLD applies a dark or light entry. -/
  | photocellEntry (i dt : Nat)
  /-- FADE_STEP (R726). During a fade PWM and DAC step every 10 ms and DALI every 100 ms. -/
  | fadeStep (dt : Nat)
  /-- CLO_UPDATE (R733). Hourly the burning hours are stored and the CLO factor recomputed. -/
  | cloUpdate (dt : Nat)
  /-- DALI_POLL (R737). Every DALIPOLL seconds the service sends QUERY STATUS. -/
  | daliPoll (dt : Nat)
  /-- STATUS_REPORT (R738). Every REPINT seconds the service sends a KIND 2 STATUS PDU. -/
  | statusReport (dt : Nat)
  /-- METER_REPORT (R738). Every 900 s the service sends an enciphered METER PDU. -/
  | meterReport (dt : Nat)
  /-- REGISTRY_SAVE (R740). Every 15 minutes the registry and admission list are written to partition 0. -/
  | registrySave (dt : Nat)
  /-- DISPATCH_RESEND (R744). A member not answering a schedule within 60 s is sent it again. -/
  | dispatchResend (short dt : Nat)
  /-- EXTEST (R768). Drives the scanned balls from the boundary register. -/
  | extest (sample cells dt : Nat)
  /-- SAMPLE_PRELOAD (R768). Samples and preloads the boundary register. -/
  | samplePreload (sample cells dt : Nat)
  /-- IDCODE (R768). Selects the 32-bit IDCODE register. -/
  | idcode (dt : Nat)
  /-- HIGHZ (R768). Sets every scanned output to high impedance. -/
  | highz (dt : Nat)
  /-- BYPASS (R768). Selects the 1-bit bypass register. -/
  | bypass (code dt : Nat)
  /-- DBGMEM (R770). Update-DR issues a 32-bit memory access as initiator 22. -/
  | dbgmem (op addr data dt : Nat)
  /-- DBG_HALT (R771). Halts an application core while DBGEN is 1. -/
  | dbgHalt (ini dt : Nat)
  /-- DBG_RESUME (R771). Resumes a halted application core. -/
  | dbgResume (ini dt : Nat)
  /-- DBG_STEP (R771). Steps a halted application core by one instruction. -/
  | dbgStep (ini dt : Nat)
  /-- SYSRST (R768). Update-IR issues a system reset with SYS_RSTCAUSE.JTAG. -/
  | sysrst (dt : Nat)
  /-- UNKNOWN_COMMAND (R344). Glety takes a mailbox request whose CMD is not in the command set and answers it with a RESULT record of status UNKNOWN. -/
  | unknownCommand (m dt : Nat)
  /-- FLASH_OPERATION_END (R485). A flash array operation (read, program or erase) finishes on its plane and its completion record is written with STATUS, NDONE and TIME. -/
  | flashOperationEnd (pl : Nat) (o : FlashOut) (dt : Nat)
  /-- WIRED_FRAME_SENT (R275). A wired port's MAC finishes sending a frame whole, counts it in WPT_PnTXFRMCNT and becomes idle for its next transmit opportunity. -/
  | wiredFrameSent (p dt : Nat)
  /-- FAB_CLOCK_STOP (R685). When the FAB island's clock has stopped for 1 ms, LMP releases PWM0, PWM1, DALI_TX and DAC_OUT to float. -/
  | fabClockStop (dt : Nat)
  /-- RESET_N_RELEASE (R766). RESET_N rising ends the external reset and starts the 1.0 ms phase-0 hold from that edge. -/
  | resetNRelease (dt : Nat)
  /-- TAP_RESET (R768). TRST_N low or the Test-Logic-Reset state resets the debug TAP and selects IDCODE. -/
  | tapReset (dt : Nat)
  /-- RADIO_TRANSITION_DONE (R132). A radio state transition completes after its stated time, such as bias and sampling-clock lock or the converter lanes and channelizer filling, and the state starts listening or serving. -/
  | radioTransitionDone (dt : Nat)
  /-- DOMAIN_UP (R632). A domain whose target rose, by a vote, the wake timer or an event wake, becomes ready after its restore time, and CHANGED sets. -/
  | domainUp (n dt : Nat)
  /-- PPS_PULSE_LOSS (R75). When no pulse-per-second has been accepted for 2 s, the root's REFACC starts to grow by 20 ns each second until pulses return. -/
  | ppsPulseLoss (dt : Nat)
  /-- TUNER_WRITE_BACK (R122). Glety writes the learnt tuner codes back to the tuner table, at most once every 24 hours, keeping VER and setting SOURCE 3. -/
  | tunerWriteBack (dt : Nat)
  deriving DecidableEq, Repr

end Sys2Proof
end

