-- ==== Sys2Proof/Decode.lean ====
section
/-!
DEFINITION. The decoder of table words. The block's operation table gives no row any bits: a command comes to the block as an operation of its bus, a
protocol, a pin or its own clocks, and no word spells it.
-/
namespace Sys2Proof

/-- The command that a table word spells: none, since no row of the table has bits. -/
def decodeTableWord (_nbits _w : Nat) : Option Instr := none

end Sys2Proof
end

