-- ==== Sys2Proof/Config.lean ====
section
/-!
DEFINITION. What one part fixes and the spec leaves open: free values without a body. Nothing in Lean can evaluate
them, so a statement holds for every choice of them.
-/
namespace Sys2Proof.Config

/-- The free values: draw number `n` of the device. Every value the spec leaves open or leaves to chance (a random
back-off, a start value chosen at random, an undefined register after an instruction that goes on, a running estimate
whose formula is not stated) is the value at the counter `State.freeCtr`, which then advances (log entry 4). -/
opaque freeNat : Nat → Nat

/-- The bytes of the boot ROM (R36): the spec gives the ROM and not its contents (log entry 5). -/
opaque bootRom : Nat → Nat

/-- The time in ft from the first preamble symbol to the end of the delimiter, by MODE, where the spec does not state it (log entry 21). -/
opaque modeLead : Nat → Nat

/-- The time in ft from the end of the delimiter to the last symbol, by MODE and octets of the PSDU (log entry 21). -/
opaque frameTail : Nat → Nat → Nat

/-- The power code that Glety requests for a frame, by MODE (log entry 22). -/
opaque reqPower : Nat → Nat

/-- The interval, supervision timeout and longest event that a parent grants (log entry 23). -/
opaque connInterval : Nat
opaque connTimeout : Nat
opaque connCemax : Nat

/-- The join key that a provisioning record's enciphered key stands for, by that key and the device's long identity: the spec names the inputs of the
derivation (slot 0 and SYS_UID, R698) and not the function (log entry 28). -/
opaque provKey : Nat → Nat → Nat

end Sys2Proof.Config
end

