-- ==== Sys2Proof/Machine/RegMap.lean ====
section
/-!
DEFINITION. The register map: one `Field` per field of the spec's register tables, under the manual's own names
(`Reg.<REGISTER>_<FIELD>`, or `Reg.<REGISTER>` where one field fills the register), and the table of the rows
that says which fields a word address holds (R7, R9, R14 to R18, and the rule cited at each register).
An address above 2^32 is a key, no bus address: the interrupt controller of initiator-core `core` (R564: each core
reaches its own) has its words at core * 2^32 + the address, and the host window registers that exist only in the
window (R614) at 2^40 + 4 * index.
-/
namespace Sys2Proof.Machine

/-- Access codes (R9). -/
inductive Acc | rw | ro | wo | w1c | rc
  deriving DecidableEq, Repr

/-- Configuration classes (R14, R15, R18). -/
inductive Cls | l | s | h
  deriving DecidableEq, Repr

/-- One field of a register: the word's address, the lowest bit, the width, the access code, the class and the value
it has after reset. -/
structure Field where
  addr : Nat
  lo : Nat
  width : Nat
  acc : Acc
  cls : Cls
  reset : Nat
  deriving DecidableEq, Repr

/-- The key a field's value is stored under. -/
def Field.key (f : Field) : Nat := f.addr * 32 + f.lo

/-! ### R41 (01_architecture.md) -/
def Reg.SYS_ID_PART : Field := ⟨0x40170000, 16, 16, .ro, .l, 1860⟩
def Reg.SYS_ID_REV : Field := ⟨0x40170000, 0, 8, .ro, .l, 0⟩
/-! ### R42 (01_architecture.md) -/
def Reg.SYS_PKG_PSTRAP : Field := ⟨0x40170004, 4, 1, .ro, .l, 0⟩
def Reg.SYS_PKG_VARIANT : Field := ⟨0x40170004, 0, 1, .ro, .l, 0⟩
/-! ### R43 (01_architecture.md) -/
def Reg.SYS_RSTCAUSE_BKPLOST : Field := ⟨0x40170008, 7, 1, .w1c, .l, 1⟩
def Reg.SYS_RSTCAUSE_JTAG : Field := ⟨0x40170008, 5, 1, .w1c, .l, 0⟩
def Reg.SYS_RSTCAUSE_SOFT : Field := ⟨0x40170008, 4, 1, .w1c, .l, 0⟩
def Reg.SYS_RSTCAUSE_WDG : Field := ⟨0x40170008, 3, 1, .w1c, .l, 0⟩
def Reg.SYS_RSTCAUSE_PIN : Field := ⟨0x40170008, 2, 1, .w1c, .l, 0⟩
def Reg.SYS_RSTCAUSE_BOR : Field := ⟨0x40170008, 1, 1, .w1c, .l, 0⟩
def Reg.SYS_RSTCAUSE_POR : Field := ⟨0x40170008, 0, 1, .w1c, .l, 1⟩
/-! ### R44 (01_architecture.md) -/
def Reg.SYS_BOOT_RMAPLOST : Field := ⟨0x4017000c, 15, 1, .ro, .l, 0⟩
def Reg.SYS_BOOT_RECOVERY : Field := ⟨0x4017000c, 14, 1, .ro, .l, 0⟩
def Reg.SYS_BOOT_FALLBACK : Field := ⟨0x4017000c, 13, 1, .ro, .l, 0⟩
def Reg.SYS_BOOT_GSLOT : Field := ⟨0x4017000c, 12, 1, .ro, .l, 0⟩
def Reg.SYS_BOOT_ASLOT : Field := ⟨0x4017000c, 11, 1, .ro, .l, 0⟩
def Reg.SYS_BOOT_PHASE : Field := ⟨0x4017000c, 0, 4, .ro, .l, 0⟩
/-! ### R45 (01_architecture.md) -/
def Reg.SYS_BERR_ADDR : Field := ⟨0x40170010, 0, 32, .ro, .l, 0⟩
def Reg.SYS_BERR_INFO_VALID : Field := ⟨0x40170014, 31, 1, .w1c, .l, 0⟩
def Reg.SYS_BERR_INFO_KIND : Field := ⟨0x40170014, 8, 4, .ro, .l, 0⟩
def Reg.SYS_BERR_INFO_WRITE : Field := ⟨0x40170014, 7, 1, .ro, .l, 0⟩
def Reg.SYS_BERR_INFO_INIT : Field := ⟨0x40170014, 0, 5, .ro, .l, 0⟩
/-! ### R46 (01_architecture.md) -/
def Reg.SYS_UID_LO : Field := ⟨0x40170020, 0, 32, .ro, .l, 0⟩
def Reg.SYS_UID_HI : Field := ⟨0x40170024, 0, 32, .ro, .l, 0⟩
/-! ### R461 (11_memory_dram.md) -/
def Reg.SYS_PARCNT_SRAM : Field := ⟨0x40170040, 0, 32, .rc, .l, 0⟩
def Reg.SYS_PARCNT_TCM : Field := ⟨0x40170044, 0, 32, .rc, .l, 0⟩
def Reg.SYS_PARCNT_FAB : Field := ⟨0x40170048, 0, 32, .rc, .l, 0⟩
def Reg.SYS_REFETCHCNT : Field := ⟨0x4017004c, 0, 32, .rc, .l, 0⟩
def Reg.SYS_PATROLCNT : Field := ⟨0x40170050, 0, 32, .rc, .l, 0⟩
/-! ### R462 (11_memory_dram.md) -/
def Reg.SYS_PARLAST_ADDR : Field := ⟨0x40170054, 0, 32, .ro, .l, 0⟩
/-! ### R463 (11_memory_dram.md) -/
def Reg.SYS_PARLAST_INFO_VALID : Field := ⟨0x40170058, 31, 1, .w1c, .l, 0⟩
def Reg.SYS_PARLAST_INFO_WHERE : Field := ⟨0x40170058, 8, 4, .ro, .l, 0⟩
def Reg.SYS_PARLAST_INFO_PATROL : Field := ⟨0x40170058, 7, 1, .ro, .l, 0⟩
def Reg.SYS_PARLAST_INFO_REFETCHED : Field := ⟨0x40170058, 6, 1, .ro, .l, 0⟩
def Reg.SYS_PARLAST_INFO_INIT : Field := ⟨0x40170058, 0, 5, .ro, .l, 0⟩
/-! ### R464 (11_memory_dram.md) -/
def Reg.SYS_SPARE_USED : Field := ⟨0x4017005c, 16, 8, .ro, .l, 0⟩
def Reg.SYS_SPARE_LEFT : Field := ⟨0x4017005c, 8, 8, .ro, .l, 41⟩
def Reg.SYS_SPARE_WORST : Field := ⟨0x4017005c, 0, 8, .ro, .l, 0⟩
/-! ### R94 (02_firn_time.md) -/
def Reg.FIRN_TIME_LO : Field := ⟨0x40020000, 0, 32, .ro, .l, 0⟩
/-! ### R95 (02_firn_time.md) -/
def Reg.FIRN_TIME_HI : Field := ⟨0x40020004, 0, 32, .ro, .l, 0⟩
/-! ### R96 (02_firn_time.md) -/
def Reg.FIRN_STAT_COASTED : Field := ⟨0x40020008, 9, 1, .w1c, .l, 0⟩
def Reg.FIRN_STAT_STEPPED : Field := ⟨0x40020008, 8, 1, .w1c, .l, 0⟩
def Reg.FIRN_STAT_WIRED : Field := ⟨0x40020008, 4, 1, .ro, .l, 0⟩
def Reg.FIRN_STAT_ROOT : Field := ⟨0x40020008, 3, 1, .ro, .l, 0⟩
def Reg.FIRN_STAT_STATE : Field := ⟨0x40020008, 0, 3, .ro, .l, 0⟩
/-! ### R97 (02_firn_time.md) -/
def Reg.FIRN_QUAL_HOPS : Field := ⟨0x4002000c, 16, 5, .ro, .l, 31⟩
def Reg.FIRN_QUAL_ERRBND : Field := ⟨0x4002000c, 0, 16, .ro, .l, 65535⟩
/-! ### R98 (02_firn_time.md) -/
def Reg.FIRN_STEPCNT : Field := ⟨0x40020010, 0, 32, .rc, .l, 0⟩
def Reg.FIRN_REJCNT : Field := ⟨0x40020014, 0, 32, .rc, .l, 0⟩
def Reg.FIRN_LATECNT : Field := ⟨0x40020018, 0, 32, .rc, .l, 0⟩
/-! ### R99 (02_firn_time.md) -/
def Reg.FIRN_FREQ : Field := ⟨0x4002001c, 0, 32, .ro, .l, 0⟩
/-! ### R100 (02_firn_time.md) -/
def Reg.FIRN_LASTSTEP : Field := ⟨0x40020020, 0, 32, .ro, .l, 0⟩
/-! ### R101 (02_firn_time.md) -/
def Reg.FIRN_CMP_TLO (n : Nat) : Field := ⟨0x40020100 + 0x10 * n, 0, 32, .rw, .s, 0⟩
def Reg.FIRN_CMP_THI (n : Nat) : Field := ⟨0x40020104 + 0x10 * n, 0, 32, .rw, .s, 0⟩
/-! ### R102 (02_firn_time.md) -/
def Reg.FIRN_CMP_CTL_ARM (n : Nat) : Field := ⟨0x40020108 + 0x10 * n, 31, 1, .rw, .l, 0⟩
def Reg.FIRN_CMP_CTL_DISARM (n : Nat) : Field := ⟨0x40020108 + 0x10 * n, 30, 1, .wo, .l, 0⟩
def Reg.FIRN_CMP_CTL_LATESUP (n : Nat) : Field := ⟨0x40020108 + 0x10 * n, 7, 1, .rw, .s, 0⟩
def Reg.FIRN_CMP_CTL_CHEN (n : Nat) : Field := ⟨0x40020108 + 0x10 * n, 6, 1, .rw, .s, 0⟩
def Reg.FIRN_CMP_CTL_CHAN (n : Nat) : Field := ⟨0x40020108 + 0x10 * n, 0, 6, .rw, .s, 0⟩
/-! ### R103 (02_firn_time.md) -/
def Reg.FIRN_CMP_STAT_LATEBY (n : Nat) : Field := ⟨0x4002010c + 0x10 * n, 16, 16, .ro, .l, 0⟩
def Reg.FIRN_CMP_STAT_COASTED (n : Nat) : Field := ⟨0x4002010c + 0x10 * n, 6, 1, .w1c, .l, 0⟩
def Reg.FIRN_CMP_STAT_CFGERR (n : Nat) : Field := ⟨0x4002010c + 0x10 * n, 5, 1, .w1c, .l, 0⟩
def Reg.FIRN_CMP_STAT_STEPPED (n : Nat) : Field := ⟨0x4002010c + 0x10 * n, 4, 1, .w1c, .l, 0⟩
def Reg.FIRN_CMP_STAT_LATE (n : Nat) : Field := ⟨0x4002010c + 0x10 * n, 3, 1, .w1c, .l, 0⟩
def Reg.FIRN_CMP_STAT_FIRED (n : Nat) : Field := ⟨0x4002010c + 0x10 * n, 2, 1, .w1c, .l, 0⟩
def Reg.FIRN_CMP_STAT_INFLIGHT (n : Nat) : Field := ⟨0x4002010c + 0x10 * n, 1, 1, .ro, .l, 0⟩
def Reg.FIRN_CMP_STAT_ARMED (n : Nat) : Field := ⟨0x4002010c + 0x10 * n, 0, 1, .ro, .l, 0⟩
/-! ### R104 (02_firn_time.md) -/
def Reg.FIRN_CAP_TLO (k : Nat) : Field := ⟨0x40020400 + 0x10 * k, 0, 32, .ro, .l, 0⟩
def Reg.FIRN_CAP_THI (k : Nat) : Field := ⟨0x40020404 + 0x10 * k, 0, 32, .ro, .l, 0⟩
/-! ### R105 (02_firn_time.md) -/
def Reg.FIRN_CAP_CTL_APPLY (k : Nat) : Field := ⟨0x40020408 + 0x10 * k, 31, 1, .rw, .l, 0⟩
def Reg.FIRN_CAP_CTL_EN (k : Nat) : Field := ⟨0x40020408 + 0x10 * k, 10, 1, .rw, .s, 0⟩
def Reg.FIRN_CAP_CTL_EDGE (k : Nat) : Field := ⟨0x40020408 + 0x10 * k, 8, 2, .rw, .s, 0⟩
def Reg.FIRN_CAP_CTL_SRC (k : Nat) : Field := ⟨0x40020408 + 0x10 * k, 0, 8, .rw, .s, 0⟩
/-! ### R106 (02_firn_time.md) -/
def Reg.FIRN_CAP_STAT_CFGERR (k : Nat) : Field := ⟨0x4002040c + 0x10 * k, 2, 1, .w1c, .l, 0⟩
def Reg.FIRN_CAP_STAT_OVR (k : Nat) : Field := ⟨0x4002040c + 0x10 * k, 1, 1, .w1c, .l, 0⟩
def Reg.FIRN_CAP_STAT_CAPF (k : Nat) : Field := ⟨0x4002040c + 0x10 * k, 0, 1, .w1c, .l, 0⟩
/-! ### R149 (03_radio_front_end.md) -/
def Reg.RFE_STAT_REGIME : Field := ⟨0x40060000, 28, 4, .ro, .l, 0⟩
def Reg.RFE_STAT_CAL : Field := ⟨0x40060000, 24, 4, .ro, .l, 0⟩
def Reg.RFE_STAT_CLASSW : Field := ⟨0x40060000, 22, 2, .ro, .l, 0⟩
def Reg.RFE_STAT_CLASSS : Field := ⟨0x40060000, 20, 2, .ro, .l, 0⟩
def Reg.RFE_STAT_TXON : Field := ⟨0x40060000, 18, 1, .ro, .l, 0⟩
def Reg.RFE_STAT_TXPORT : Field := ⟨0x40060000, 17, 1, .ro, .l, 0⟩
def Reg.RFE_STAT_SYNTHLK : Field := ⟨0x40060000, 16, 1, .ro, .l, 0⟩
def Reg.RFE_STAT_SYNTHON : Field := ⟨0x40060000, 15, 1, .ro, .l, 0⟩
def Reg.RFE_STAT_KIND : Field := ⟨0x40060000, 5, 3, .ro, .l, 0⟩
def Reg.RFE_STAT_STATE : Field := ⟨0x40060000, 0, 5, .ro, .l, 0⟩
/-! ### R150 (03_radio_front_end.md) -/
def Reg.RFE_TXCAP_LIMW : Field := ⟨0x40060004, 29, 3, .ro, .l, 0⟩
def Reg.RFE_TXCAP_AGEW : Field := ⟨0x40060004, 24, 5, .ro, .l, 0⟩
def Reg.RFE_TXCAP_CAPW : Field := ⟨0x40060004, 16, 8, .ro, .l, 0⟩
def Reg.RFE_TXCAP_LIMS : Field := ⟨0x40060004, 13, 3, .ro, .l, 0⟩
def Reg.RFE_TXCAP_AGES : Field := ⟨0x40060004, 8, 5, .ro, .l, 0⟩
def Reg.RFE_TXCAP_CAPS : Field := ⟨0x40060004, 0, 8, .ro, .l, 0⟩
/-! ### R151 (03_radio_front_end.md) -/
def Reg.RFE_REFL_CLASS (p : Nat) : Field := ⟨0x40060008 + 0x4 * p, 24, 2, .ro, .l, 0⟩
def Reg.RFE_REFL_FCODE (p : Nat) : Field := ⟨0x40060008 + 0x4 * p, 16, 8, .ro, .l, 0⟩
def Reg.RFE_REFL_SER (p : Nat) : Field := ⟨0x40060008 + 0x4 * p, 12, 4, .ro, .l, 8⟩
def Reg.RFE_REFL_SHU (p : Nat) : Field := ⟨0x40060008 + 0x4 * p, 8, 4, .ro, .l, 8⟩
def Reg.RFE_REFL_RL (p : Nat) : Field := ⟨0x40060008 + 0x4 * p, 0, 8, .ro, .l, 255⟩
/-! ### R152 (03_radio_front_end.md) -/
def Reg.RFE_LASTTX_OUTCOME : Field := ⟨0x40060010, 28, 4, .ro, .l, 0⟩
def Reg.RFE_LASTTX_CLIP : Field := ⟨0x40060010, 27, 1, .ro, .l, 0⟩
def Reg.RFE_LASTTX_PORT : Field := ⟨0x40060010, 26, 1, .ro, .l, 0⟩
def Reg.RFE_LASTTX_HOLD : Field := ⟨0x40060010, 16, 10, .ro, .l, 0⟩
def Reg.RFE_LASTTX_PCODE : Field := ⟨0x40060010, 8, 8, .ro, .l, 0⟩
/-! ### R153 (03_radio_front_end.md) -/
def Reg.RFE_DUTYUSE_SUBBAND : Field := ⟨0x40060014, 16, 4, .ro, .l, 0⟩
def Reg.RFE_DUTYUSE_USE : Field := ⟨0x40060014, 0, 16, .ro, .l, 0⟩
def Reg.RFE_VPA : Field := ⟨0x40060018, 0, 16, .ro, .l, 0⟩
/-! ### R154 (03_radio_front_end.md) -/
def Reg.RFE_TXCNT : Field := ⟨0x40060020, 0, 32, .rc, .l, 0⟩
def Reg.RFE_HELDCNT : Field := ⟨0x40060024, 0, 32, .rc, .l, 0⟩
def Reg.RFE_LATECNT : Field := ⟨0x40060028, 0, 32, .rc, .l, 0⟩
def Reg.RFE_CLIPCNT : Field := ⟨0x4006002c, 0, 32, .rc, .l, 0⟩
def Reg.RFE_DUTYCNT : Field := ⟨0x40060030, 0, 32, .rc, .l, 0⟩
def Reg.RFE_LBTCNT : Field := ⟨0x40060034, 0, 32, .rc, .l, 0⟩
def Reg.RFE_DWELLCNT : Field := ⟨0x40060038, 0, 32, .rc, .l, 0⟩
def Reg.RFE_MISMCNT : Field := ⟨0x4006003c, 0, 32, .rc, .l, 0⟩
def Reg.RFE_CALABNCNT : Field := ⟨0x40060040, 0, 32, .rc, .l, 0⟩
def Reg.RFE_CALFAILCNT : Field := ⟨0x40060044, 0, 32, .rc, .l, 0⟩
def Reg.RFE_BANDCALCNT : Field := ⟨0x40060048, 0, 32, .rc, .l, 0⟩
def Reg.RFE_OTHERCNT : Field := ⟨0x4006004c, 0, 32, .rc, .l, 0⟩
/-! ### R185 (04_wideband_receiver.md) -/
def Reg.RXC_STAT_MODE : Field := ⟨0x40070000, 30, 2, .ro, .l, 0⟩
def Reg.RXC_STAT_GAINW : Field := ⟨0x40070000, 26, 2, .ro, .l, 0⟩
def Reg.RXC_STAT_GAINS : Field := ⟨0x40070000, 24, 2, .ro, .l, 0⟩
def Reg.RXC_STAT_ZONE : Field := ⟨0x40070000, 20, 3, .ro, .l, 0⟩
def Reg.RXC_STAT_NWIN : Field := ⟨0x40070000, 19, 1, .ro, .l, 0⟩
def Reg.RXC_STAT_W1DET : Field := ⟨0x40070000, 17, 1, .ro, .l, 0⟩
def Reg.RXC_STAT_W0DET : Field := ⟨0x40070000, 16, 1, .ro, .l, 0⟩
/-! ### R186 (04_wideband_receiver.md) -/
def Reg.RXC_LANE_RETIRED : Field := ⟨0x40070004, 16, 9, .ro, .l, 0⟩
def Reg.RXC_LANE_SPARE : Field := ⟨0x40070004, 12, 4, .ro, .l, 15⟩
def Reg.RXC_LANE_NLANE : Field := ⟨0x40070004, 8, 4, .ro, .l, 15⟩
/-! ### R187 (04_wideband_receiver.md) -/
def Reg.RXC_WIN_EN (w : Nat) : Field := ⟨0x40070008 + 0x4 * w, 31, 1, .ro, .l, 0⟩
def Reg.RXC_WIN_WIDTH (w : Nat) : Field := ⟨0x40070008 + 0x4 * w, 27, 4, .ro, .l, 0⟩
def Reg.RXC_WIN_FC (w : Nat) : Field := ⟨0x40070008 + 0x4 * w, 0, 22, .ro, .l, 0⟩
/-! ### R188 (04_wideband_receiver.md) -/
def Reg.RXC_MSET_M3 (w : Nat) : Field := ⟨0x40070010 + 0x4 * w, 24, 8, .ro, .l, 0⟩
def Reg.RXC_MSET_M2 (w : Nat) : Field := ⟨0x40070010 + 0x4 * w, 16, 8, .ro, .l, 0⟩
def Reg.RXC_MSET_M1 (w : Nat) : Field := ⟨0x40070010 + 0x4 * w, 8, 8, .ro, .l, 0⟩
def Reg.RXC_MSET_M0 (w : Nat) : Field := ⟨0x40070010 + 0x4 * w, 0, 8, .ro, .l, 0⟩
/-! ### R189 (04_wideband_receiver.md) -/
def Reg.RXC_MPRIO_P1 : Field := ⟨0x40070018, 8, 8, .ro, .l, 0⟩
def Reg.RXC_MPRIO_P0 : Field := ⟨0x40070018, 0, 8, .ro, .l, 0⟩
/-! ### R190 (04_wideband_receiver.md) -/
def Reg.RXC_LANEQ_Q3 (i : Nat) : Field := ⟨0x40070020 + 0x4 * i, 24, 8, .ro, .l, 0⟩
def Reg.RXC_LANEQ_Q2 (i : Nat) : Field := ⟨0x40070020 + 0x4 * i, 16, 8, .ro, .l, 0⟩
def Reg.RXC_LANEQ_Q1 (i : Nat) : Field := ⟨0x40070020 + 0x4 * i, 8, 8, .ro, .l, 0⟩
def Reg.RXC_LANEQ_Q0 (i : Nat) : Field := ⟨0x40070020 + 0x4 * i, 0, 8, .ro, .l, 0⟩
/-! ### R192 (04_wideband_receiver.md) -/
def Reg.RXC_DETCNT : Field := ⟨0x40070040, 0, 32, .rc, .l, 0⟩
def Reg.RXC_NODECCNT : Field := ⟨0x40070044, 0, 32, .rc, .l, 0⟩
def Reg.RXC_BLANKCNT : Field := ⟨0x40070048, 0, 32, .rc, .l, 0⟩
def Reg.RXC_OVLCNT : Field := ⟨0x4007004c, 0, 32, .rc, .l, 0⟩
def Reg.RXC_ROTCNT : Field := ⟨0x40070050, 0, 32, .rc, .l, 0⟩
/-! ### R191 (04_wideband_receiver.md) -/
def Reg.MDM_STAT_PEAK : Field := ⟨0x40080000, 24, 6, .rc, .l, 0⟩
def Reg.MDM_STAT_WAIT : Field := ⟨0x40080000, 16, 7, .ro, .l, 0⟩
def Reg.MDM_STAT_RSV : Field := ⟨0x40080000, 8, 4, .ro, .l, 0⟩
def Reg.MDM_STAT_BUSY : Field := ⟨0x40080000, 0, 6, .ro, .l, 0⟩
/-! ### R192 (04_wideband_receiver.md) -/
def Reg.MDM_FRAMECNT : Field := ⟨0x40080020, 0, 32, .rc, .l, 0⟩
def Reg.MDM_FCSCNT : Field := ⟨0x40080024, 0, 32, .rc, .l, 0⟩
def Reg.MDM_SFDTOCNT : Field := ⟨0x40080028, 0, 32, .rc, .l, 0⟩
def Reg.MDM_ABNCNT : Field := ⟨0x4008002c, 0, 32, .rc, .l, 0⟩
def Reg.MDM_RINGCNT : Field := ⟨0x40080030, 0, 32, .rc, .l, 0⟩
/-! ### R247 (05_link_controller.md) -/
def Reg.LNK_STAT_JOINED : Field := ⟨0x400a0000, 31, 1, .ro, .l, 0⟩
def Reg.LNK_STAT_RELAY : Field := ⟨0x400a0000, 30, 1, .ro, .l, 0⟩
def Reg.LNK_STAT_BLOST : Field := ⟨0x400a0000, 29, 1, .ro, .l, 0⟩
def Reg.LNK_STAT_BMISS : Field := ⟨0x400a0000, 27, 2, .ro, .l, 0⟩
def Reg.LNK_STAT_BIEXP : Field := ⟨0x400a0000, 23, 4, .ro, .l, 0⟩
def Reg.LNK_STAT_NCONN : Field := ⟨0x400a0000, 16, 7, .ro, .l, 0⟩
def Reg.LNK_STAT_SHORT : Field := ⟨0x400a0000, 0, 16, .ro, .l, 65535⟩
/-! ### R248 (05_link_controller.md) -/
def Reg.LNK_PARENT_NETID : Field := ⟨0x400a0004, 16, 16, .ro, .l, 0⟩
def Reg.LNK_PARENT_PARENT : Field := ⟨0x400a0004, 0, 16, .ro, .l, 65535⟩
/-! ### R249 (05_link_controller.md) -/
def Reg.LNK_SEQ_FAILED : Field := ⟨0x400a0008, 16, 9, .ro, .l, 0⟩
def Reg.LNK_SEQ_SPARE : Field := ⟨0x400a0008, 8, 4, .ro, .l, 8⟩
def Reg.LNK_SEQ_SLOTS : Field := ⟨0x400a0008, 0, 8, .ro, .l, 255⟩
/-! ### R251 (05_link_controller.md) -/
def Reg.LNK_LASTDROP_REASON : Field := ⟨0x400a000c, 28, 4, .ro, .l, 0⟩
def Reg.LNK_LASTDROP_PEER : Field := ⟨0x400a000c, 0, 16, .ro, .l, 65535⟩
def Reg.LNK_GUARD : Field := ⟨0x400a0010, 0, 32, .rc, .l, 0⟩
/-! ### R250 (05_link_controller.md) -/
def Reg.LNK_SEQMAP_PHYS7 : Field := ⟨0x400a0014, 28, 4, .ro, .l, 7⟩
def Reg.LNK_SEQMAP_PHYS6 : Field := ⟨0x400a0014, 24, 4, .ro, .l, 6⟩
def Reg.LNK_SEQMAP_PHYS5 : Field := ⟨0x400a0014, 20, 4, .ro, .l, 5⟩
def Reg.LNK_SEQMAP_PHYS4 : Field := ⟨0x400a0014, 16, 4, .ro, .l, 4⟩
def Reg.LNK_SEQMAP_PHYS3 : Field := ⟨0x400a0014, 12, 4, .ro, .l, 3⟩
def Reg.LNK_SEQMAP_PHYS2 : Field := ⟨0x400a0014, 8, 4, .ro, .l, 2⟩
def Reg.LNK_SEQMAP_PHYS1 : Field := ⟨0x400a0014, 4, 4, .ro, .l, 1⟩
def Reg.LNK_SEQMAP_PHYS0 : Field := ⟨0x400a0014, 0, 4, .ro, .l, 0⟩
/-! ### R252 (05_link_controller.md) -/
def Reg.LNK_BCNTXCNT : Field := ⟨0x400a0040, 0, 32, .rc, .l, 0⟩
def Reg.LNK_BCNRXCNT : Field := ⟨0x400a0044, 0, 32, .rc, .l, 0⟩
def Reg.LNK_BCNMISSCNT : Field := ⟨0x400a0048, 0, 32, .rc, .l, 0⟩
def Reg.LNK_BLOSTCNT : Field := ⟨0x400a004c, 0, 32, .rc, .l, 0⟩
def Reg.LNK_PARCHGCNT : Field := ⟨0x400a0050, 0, 32, .rc, .l, 0⟩
def Reg.LNK_EVTCNT : Field := ⟨0x400a0054, 0, 32, .rc, .l, 0⟩
def Reg.LNK_EVTMISSCNT : Field := ⟨0x400a0058, 0, 32, .rc, .l, 0⟩
def Reg.LNK_RETXCNT : Field := ⟨0x400a005c, 0, 32, .rc, .l, 0⟩
def Reg.LNK_RETXDROPCNT : Field := ⟨0x400a0060, 0, 32, .rc, .l, 0⟩
def Reg.LNK_CONNUPCNT : Field := ⟨0x400a0064, 0, 32, .rc, .l, 0⟩
def Reg.LNK_DROPCNT : Field := ⟨0x400a0068, 0, 32, .rc, .l, 0⟩
def Reg.LNK_DRIFTCNT : Field := ⟨0x400a006c, 0, 32, .rc, .l, 0⟩
def Reg.LNK_INSTCNT : Field := ⟨0x400a0070, 0, 32, .rc, .l, 0⟩
def Reg.LNK_MICCNT : Field := ⟨0x400a0074, 0, 32, .rc, .l, 0⟩
def Reg.LNK_FMTCNT : Field := ⟨0x400a0078, 0, 32, .rc, .l, 0⟩
def Reg.LNK_NETCNT : Field := ⟨0x400a007c, 0, 32, .rc, .l, 0⟩
def Reg.LNK_TXCONFCNT : Field := ⟨0x400a0080, 0, 32, .rc, .l, 0⟩
def Reg.LNK_GUARDCAPCNT : Field := ⟨0x400a0084, 0, 32, .rc, .l, 0⟩
def Reg.LNK_SEQFLTCNT : Field := ⟨0x400a0088, 0, 32, .rc, .l, 0⟩
def Reg.LNK_RSVFULLCNT : Field := ⟨0x400a008c, 0, 32, .rc, .l, 0⟩
def Reg.LNK_WAKEFAILCNT : Field := ⟨0x400a0090, 0, 32, .rc, .l, 0⟩
/-! ### R253 (05_link_controller.md) -/
def Reg.WUR_STAT_EN : Field := ⟨0x40090000, 31, 1, .ro, .l, 0⟩
def Reg.WUR_STAT_BAND : Field := ⟨0x40090000, 30, 1, .ro, .l, 0⟩
def Reg.WUR_STAT_TOL : Field := ⟨0x40090000, 28, 2, .ro, .l, 1⟩
def Reg.WUR_STAT_LASTGRP : Field := ⟨0x40090000, 27, 1, .ro, .l, 0⟩
/-! ### R252 (05_link_controller.md) -/
def Reg.WUR_WAKECNT : Field := ⟨0x40090010, 0, 32, .rc, .l, 0⟩
def Reg.WUR_FALSECNT : Field := ⟨0x40090014, 0, 32, .rc, .l, 0⟩
/-! ### R287 (06_mesh_forwarding.md) -/
def Reg.MSH_STAT_RELAY : Field := ⟨0x400b0000, 31, 1, .ro, .l, 0⟩
def Reg.MSH_STAT_COORD : Field := ⟨0x400b0000, 30, 1, .ro, .l, 0⟩
def Reg.MSH_STAT_FLOODBAND : Field := ⟨0x400b0000, 28, 2, .ro, .l, 0⟩
def Reg.MSH_STAT_POOLLOW : Field := ⟨0x400b0000, 27, 1, .ro, .l, 0⟩
def Reg.MSH_STAT_POOLFREE : Field := ⟨0x400b0000, 0, 13, .ro, .l, 4096⟩
/-! ### R288 (06_mesh_forwarding.md) -/
def Reg.MSH_SEEN_USED : Field := ⟨0x400b0004, 0, 17, .ro, .l, 0⟩
def Reg.MSH_ROUTES_USED : Field := ⟨0x400b0008, 0, 17, .ro, .l, 0⟩
/-! ### R289 (06_mesh_forwarding.md) -/
def Reg.MSH_CFG_DISC3 : Field := ⟨0x400b000c, 29, 1, .ro, .l, 0⟩
def Reg.MSH_CFG_DISC2 : Field := ⟨0x400b000c, 28, 1, .ro, .l, 0⟩
def Reg.MSH_CFG_DISC1 : Field := ⟨0x400b000c, 27, 1, .ro, .l, 1⟩
def Reg.MSH_CFG_BOWIN : Field := ⟨0x400b000c, 16, 8, .ro, .l, 20⟩
def Reg.MSH_CFG_DUPK : Field := ⟨0x400b000c, 8, 4, .ro, .l, 3⟩
def Reg.MSH_CFG_TTL0 : Field := ⟨0x400b000c, 0, 5, .ro, .l, 20⟩
/-! ### R290 (06_mesh_forwarding.md) -/
def Reg.MSH_PORT_Q_C3 (n : Nat) : Field := ⟨0x400b0010 + 0x4 * n, 24, 8, .ro, .l, 0⟩
def Reg.MSH_PORT_Q_C2 (n : Nat) : Field := ⟨0x400b0010 + 0x4 * n, 16, 8, .ro, .l, 0⟩
def Reg.MSH_PORT_Q_C1 (n : Nat) : Field := ⟨0x400b0010 + 0x4 * n, 8, 8, .ro, .l, 0⟩
def Reg.MSH_PORT_Q_C0 (n : Nat) : Field := ⟨0x400b0010 + 0x4 * n, 0, 8, .ro, .l, 0⟩
/-! ### R291 (06_mesh_forwarding.md) -/
def Reg.MSH_FMTCNT : Field := ⟨0x400b0040, 0, 32, .rc, .l, 0⟩
def Reg.MSH_DUPCNT : Field := ⟨0x400b0044, 0, 32, .rc, .l, 0⟩
def Reg.MSH_POLDROPCNT : Field := ⟨0x400b0048, 0, 32, .rc, .l, 0⟩
def Reg.MSH_SUPPCNT : Field := ⟨0x400b004c, 0, 32, .rc, .l, 0⟩
def Reg.MSH_RELAYFULLCNT : Field := ⟨0x400b0050, 0, 32, .rc, .l, 0⟩
def Reg.MSH_DELIVCNT : Field := ⟨0x400b0054, 0, 32, .rc, .l, 0⟩
def Reg.MSH_TTLCNT : Field := ⟨0x400b0058, 0, 32, .rc, .l, 0⟩
def Reg.MSH_NOROUTECNT : Field := ⟨0x400b005c, 0, 32, .rc, .l, 0⟩
def Reg.MSH_QFULLCNT : Field := ⟨0x400b0060, 0, 32, .rc, .l, 0⟩
def Reg.MSH_POOLCNT : Field := ⟨0x400b0064, 0, 32, .rc, .l, 0⟩
def Reg.MSH_AGECNT : Field := ⟨0x400b0068, 0, 32, .rc, .l, 0⟩
def Reg.MSH_DEADLINECNT : Field := ⟨0x400b006c, 0, 32, .rc, .l, 0⟩
def Reg.MSH_LINKDOWNCNT : Field := ⟨0x400b0070, 0, 32, .rc, .l, 0⟩
def Reg.MSH_UNKCNT : Field := ⟨0x400b0074, 0, 32, .rc, .l, 0⟩
def Reg.MSH_SEENEVCNT : Field := ⟨0x400b0078, 0, 32, .rc, .l, 0⟩
def Reg.MSH_ROUTEFLDCNT : Field := ⟨0x400b007c, 0, 32, .rc, .l, 0⟩
def Reg.MSH_RXFLDCNT : Field := ⟨0x400b0080, 0, 32, .rc, .l, 0⟩
def Reg.MSH_DELIVOKCNT : Field := ⟨0x400b0084, 0, 32, .rc, .l, 0⟩
def Reg.MSH_TXCNT (n : Nat) : Field := ⟨0x400b0090 + 0x8 * n, 0, 32, .rc, .l, 0⟩
def Reg.MSH_TXOCT (n : Nat) : Field := ⟨0x400b0094 + 0x8 * n, 0, 32, .rc, .l, 0⟩
/-! ### R321 (07_wired_ports.md) -/
def Reg.WPT_PSTAT_LINK (n : Nat) : Field := ⟨0x400c0000 + 0x100 * n, 31, 1, .ro, .l, 0⟩
def Reg.WPT_PSTAT_LINKED (n : Nat) : Field := ⟨0x400c0000 + 0x100 * n, 30, 1, .ro, .l, 0⟩
def Reg.WPT_PSTAT_UPSTREAM (n : Nat) : Field := ⟨0x400c0000 + 0x100 * n, 29, 1, .ro, .l, 0⟩
def Reg.WPT_PSTAT_TPARENT (n : Nat) : Field := ⟨0x400c0000 + 0x100 * n, 28, 1, .ro, .l, 0⟩
def Reg.WPT_PSTAT_POLINV (n : Nat) : Field := ⟨0x400c0000 + 0x100 * n, 27, 1, .ro, .l, 0⟩
def Reg.WPT_PSTAT_AMP (n : Nat) : Field := ⟨0x400c0000 + 0x100 * n, 25, 2, .ro, .l, 0⟩
def Reg.WPT_PSTAT_QCLASS (n : Nat) : Field := ⟨0x400c0000 + 0x100 * n, 23, 2, .ro, .l, 2⟩
def Reg.WPT_PSTAT_PDFAULT (n : Nat) : Field := ⟨0x400c0000 + 0x100 * n, 22, 1, .ro, .l, 0⟩
def Reg.WPT_PSTAT_DVALID (n : Nat) : Field := ⟨0x400c0000 + 0x100 * n, 21, 1, .ro, .l, 0⟩
def Reg.WPT_PSTAT_PEER (n : Nat) : Field := ⟨0x400c0000 + 0x100 * n, 0, 16, .ro, .l, 65535⟩
/-! ### R322 (07_wired_ports.md) -/
def Reg.WPT_PMSE_WORST (n : Nat) : Field := ⟨0x400c0004 + 0x100 * n, 8, 8, .rc, .l, 0⟩
def Reg.WPT_PMSE_MSE (n : Nat) : Field := ⟨0x400c0004 + 0x100 * n, 0, 8, .ro, .l, 0⟩
/-! ### R323 (07_wired_ports.md) -/
def Reg.WPT_PDELAY (n : Nat) : Field := ⟨0x400c0008 + 0x100 * n, 0, 32, .ro, .l, 4294967295⟩
/-! ### R324 (07_wired_ports.md) -/
def Reg.WPT_PRXFRMCNT (n : Nat) : Field := ⟨0x400c0040 + 0x100 * n, 0, 32, .rc, .l, 0⟩
def Reg.WPT_PTXFRMCNT (n : Nat) : Field := ⟨0x400c0044 + 0x100 * n, 0, 32, .rc, .l, 0⟩
def Reg.WPT_PFCSCNT (n : Nat) : Field := ⟨0x400c0048 + 0x100 * n, 0, 32, .rc, .l, 0⟩
def Reg.WPT_PTYPECNT (n : Nat) : Field := ⟨0x400c004c + 0x100 * n, 0, 32, .rc, .l, 0⟩
def Reg.WPT_PREPLAYCNT (n : Nat) : Field := ⟨0x400c0050 + 0x100 * n, 0, 32, .rc, .l, 0⟩
def Reg.WPT_PPTPCNT (n : Nat) : Field := ⟨0x400c0054 + 0x100 * n, 0, 32, .rc, .l, 0⟩
def Reg.WPT_PPTPLOSTCNT (n : Nat) : Field := ⟨0x400c0058 + 0x100 * n, 0, 32, .rc, .l, 0⟩
def Reg.WPT_PPTPOTHERCNT (n : Nat) : Field := ⟨0x400c005c + 0x100 * n, 0, 32, .rc, .l, 0⟩
def Reg.WPT_PLINKDNCNT (n : Nat) : Field := ⟨0x400c0060 + 0x100 * n, 0, 32, .rc, .l, 0⟩
def Reg.WPT_PTXABTCNT (n : Nat) : Field := ⟨0x400c0064 + 0x100 * n, 0, 32, .rc, .l, 0⟩
/-! ### R361 (08_supervisor_mailboxes.md) -/
def Reg.MBX_CFG_SHARE3 : Field := ⟨0x400d0000, 0, 1, .rw, .h, 0⟩
/-! ### R362 (08_supervisor_mailboxes.md) -/
def Reg.MBX_GSTAT_CFGERR : Field := ⟨0x400d0004, 8, 1, .w1c, .l, 0⟩
def Reg.MBX_GSTAT_LIVE : Field := ⟨0x400d0004, 0, 4, .ro, .l, 0⟩
/-! ### R363 (08_supervisor_mailboxes.md) -/
def Reg.MB_REQ_REQRD (m : Nat) : Field := ⟨0x400d0100 + 0x40 * m, 8, 5, .ro, .l, 0⟩
def Reg.MB_REQ_REQWR (m : Nat) : Field := ⟨0x400d0100 + 0x40 * m, 0, 5, .rw, .l, 0⟩
/-! ### R364 (08_supervisor_mailboxes.md) -/
def Reg.MB_RSP_RSPWR (m : Nat) : Field := ⟨0x400d0104 + 0x40 * m, 8, 5, .ro, .l, 0⟩
def Reg.MB_RSP_RSPRD (m : Nat) : Field := ⟨0x400d0104 + 0x40 * m, 0, 5, .rw, .l, 0⟩
/-! ### R365 (08_supervisor_mailboxes.md) -/
def Reg.MB_CTL_FLUSH (m : Nat) : Field := ⟨0x400d0108 + 0x40 * m, 0, 1, .wo, .l, 0⟩
/-! ### R366 (08_supervisor_mailboxes.md) -/
def Reg.MB_STAT_FLUSHING (m : Nat) : Field := ⟨0x400d010c + 0x40 * m, 31, 1, .ro, .l, 0⟩
def Reg.MB_STAT_ACTIVE (m : Nat) : Field := ⟨0x400d010c + 0x40 * m, 30, 1, .ro, .l, 0⟩
def Reg.MB_STAT_LIVEOPS (m : Nat) : Field := ⟨0x400d010c + 0x40 * m, 24, 4, .ro, .l, 0⟩
def Reg.MB_STAT_BACKLOG (m : Nat) : Field := ⟨0x400d010c + 0x40 * m, 16, 6, .ro, .l, 0⟩
def Reg.MB_STAT_DBERR (m : Nat) : Field := ⟨0x400d010c + 0x40 * m, 8, 1, .w1c, .l, 0⟩
/-! ### R367 (08_supervisor_mailboxes.md) -/
def Reg.MB_DROPCNT_NOTDROP (m : Nat) : Field := ⟨0x400d0110 + 0x40 * m, 16, 16, .rc, .l, 0⟩
def Reg.MB_DROPCNT_PROGDROP (m : Nat) : Field := ⟨0x400d0110 + 0x40 * m, 0, 16, .rc, .l, 0⟩
/-! ### R465 (11_memory_dram.md) -/
def Reg.DRC_STAT_TRAINED : Field := ⟨0x400f0000, 31, 1, .ro, .l, 0⟩
def Reg.DRC_STAT_FILLED : Field := ⟨0x400f0000, 30, 1, .ro, .l, 0⟩
def Reg.DRC_STAT_SELFREF : Field := ⟨0x400f0000, 29, 1, .ro, .l, 0⟩
def Reg.DRC_STAT_RETRAIN : Field := ⟨0x400f0000, 28, 1, .ro, .l, 0⟩
def Reg.DRC_STAT_REFMUL : Field := ⟨0x400f0000, 26, 2, .ro, .l, 0⟩
def Reg.DRC_STAT_WQ : Field := ⟨0x400f0000, 8, 6, .ro, .l, 0⟩
def Reg.DRC_STAT_PGIDLE : Field := ⟨0x400f0000, 0, 8, .ro, .l, 64⟩
/-! ### R466 (11_memory_dram.md) -/
def Reg.DRC_CHKADDR : Field := ⟨0x400f0004, 0, 32, .ro, .l, 0⟩
def Reg.DRC_CHKINFO_POISON : Field := ⟨0x400f0008, 5, 1, .ro, .l, 0⟩
def Reg.DRC_CHKINFO_INIT : Field := ⟨0x400f0008, 0, 5, .ro, .l, 0⟩
/-! ### R467 (11_memory_dram.md) -/
def Reg.DRC_PTGT_TARGET (n : Nat) : Field := ⟨0x400f0010 + 0x4 * n, 0, 16, .ro, .l, ([400, 1000, 600, 4000, 2000, 1500].getD n 0)⟩
/-! ### R468 (11_memory_dram.md) -/
def Reg.DRC_CHKCNT : Field := ⟨0x400f0040, 0, 32, .rc, .l, 0⟩
def Reg.DRC_RETRYOKCNT : Field := ⟨0x400f0044, 0, 32, .rc, .l, 0⟩
def Reg.DRC_POISCNT : Field := ⟨0x400f0048, 0, 32, .rc, .l, 0⟩
def Reg.DRC_FWDCNT : Field := ⟨0x400f004c, 0, 32, .rc, .l, 0⟩
def Reg.DRC_PGHITCNT : Field := ⟨0x400f0050, 0, 32, .rc, .l, 0⟩
def Reg.DRC_PGMISSCNT : Field := ⟨0x400f0054, 0, 32, .rc, .l, 0⟩
def Reg.DRC_RETRAINCNT : Field := ⟨0x400f0058, 0, 32, .rc, .l, 0⟩
def Reg.DRC_PLATECNT (n : Nat) : Field := ⟨0x400f0060 + 0x4 * n, 0, 32, .rc, .l, 0⟩
/-! ### R507 (12_flash_store.md) -/
def Reg.FLC_STAT_RO : Field := ⟨0x400e0000, 31, 1, .ro, .l, 0⟩
def Reg.FLC_STAT_SUSP1 : Field := ⟨0x400e0000, 17, 1, .ro, .l, 0⟩
def Reg.FLC_STAT_SUSP0 : Field := ⟨0x400e0000, 16, 1, .ro, .l, 0⟩
def Reg.FLC_STAT_MORAINE : Field := ⟨0x400e0000, 8, 8, .ro, .l, 0⟩
def Reg.FLC_STAT_SPARES : Field := ⟨0x400e0000, 0, 8, .ro, .l, 120⟩
/-! ### R508 (12_flash_store.md) -/
def Reg.FLC_QAPP_CTL_EN : Field := ⟨0x400e0100, 0, 1, .rw, .l, 0⟩
/-! ### R509 (12_flash_store.md) -/
def Reg.FLC_QAPP_DBASE : Field := ⟨0x400e0104, 0, 32, .rw, .h, 0⟩
def Reg.FLC_QAPP_CBASE : Field := ⟨0x400e0108, 0, 32, .rw, .h, 0⟩
/-! ### R510 (12_flash_store.md) -/
def Reg.FLC_QAPP_SIZE_LOG2N : Field := ⟨0x400e010c, 0, 4, .rw, .h, 3⟩
/-! ### R511 (12_flash_store.md) -/
def Reg.FLC_QAPP_DOORBELL_TAIL : Field := ⟨0x400e0110, 0, 16, .rw, .l, 0⟩
def Reg.FLC_QAPP_HEAD_CDONE : Field := ⟨0x400e0114, 16, 16, .ro, .l, 0⟩
def Reg.FLC_QAPP_HEAD_HEAD : Field := ⟨0x400e0114, 0, 16, .ro, .l, 0⟩
def Reg.FLC_QAPP_CACK_CACK : Field := ⟨0x400e0118, 0, 16, .rw, .l, 0⟩
/-! ### R512 (12_flash_store.md) -/
def Reg.FLC_QAPP_STAT_CFGERR : Field := ⟨0x400e011c, 8, 1, .w1c, .l, 0⟩
def Reg.FLC_QAPP_STAT_DBERR : Field := ⟨0x400e011c, 2, 1, .w1c, .l, 0⟩
def Reg.FLC_QAPP_STAT_STALL : Field := ⟨0x400e011c, 1, 1, .ro, .l, 0⟩
def Reg.FLC_QAPP_STAT_IDLE : Field := ⟨0x400e011c, 0, 1, .ro, .l, 1⟩
/-! ### R513 (12_flash_store.md) -/
def Reg.FLC_XO_LOCK (n : Nat) : Field := ⟨0x400e0200 + 0x4 * n, 31, 1, .rw, .l, 0⟩
def Reg.FLC_XO_EN (n : Nat) : Field := ⟨0x400e0200 + 0x4 * n, 30, 1, .rw, .l, 0⟩
def Reg.FLC_XO_PART (n : Nat) : Field := ⟨0x400e0200 + 0x4 * n, 26, 4, .rw, .l, 0⟩
def Reg.FLC_XO_FIRST (n : Nat) : Field := ⟨0x400e0200 + 0x4 * n, 15, 11, .rw, .l, 0⟩
def Reg.FLC_XO_NBLK (n : Nat) : Field := ⟨0x400e0200 + 0x4 * n, 4, 11, .rw, .l, 0⟩
/-! ### R514 (12_flash_store.md) -/
def Reg.FLC_CORRCNT : Field := ⟨0x400e0040, 0, 32, .rc, .l, 0⟩
def Reg.FLC_RETRYCNT : Field := ⟨0x400e0044, 0, 32, .rc, .l, 0⟩
def Reg.FLC_UNCCNT : Field := ⟨0x400e0048, 0, 32, .rc, .l, 0⟩
def Reg.FLC_PFAILCNT : Field := ⟨0x400e004c, 0, 32, .rc, .l, 0⟩
def Reg.FLC_EFAILCNT : Field := ⟨0x400e0050, 0, 32, .rc, .l, 0⟩
def Reg.FLC_SUSPCNT : Field := ⟨0x400e0054, 0, 32, .rc, .l, 0⟩
def Reg.FLC_SUSPHITCNT : Field := ⟨0x400e0058, 0, 32, .rc, .l, 0⟩
def Reg.FLC_DENYCNT : Field := ⟨0x400e005c, 0, 32, .rc, .l, 0⟩
def Reg.FLC_REFRESHCNT : Field := ⟨0x400e0060, 0, 32, .rc, .l, 0⟩
/-! ### R540 (13_caldera_protection.md) -/
def Reg.CPH_CFG_TLEN (n : Nat) : Field := ⟨0x40100000 + 0x100 * n, 16, 4, .rw, .h, 0⟩
def Reg.CPH_CFG_CMPEN (n : Nat) : Field := ⟨0x40100000 + 0x100 * n, 15, 1, .rw, .h, 0⟩
def Reg.CPH_CFG_PRIO (n : Nat) : Field := ⟨0x40100000 + 0x100 * n, 14, 1, .rw, .h, 0⟩
def Reg.CPH_CFG_DUSE (n : Nat) : Field := ⟨0x40100000 + 0x100 * n, 11, 3, .rw, .h, 0⟩
def Reg.CPH_CFG_DSIZE (n : Nat) : Field := ⟨0x40100000 + 0x100 * n, 10, 1, .rw, .h, 0⟩
def Reg.CPH_CFG_DSLOT (n : Nat) : Field := ⟨0x40100000 + 0x100 * n, 7, 3, .rw, .h, 0⟩
def Reg.CPH_CFG_KSLOT (n : Nat) : Field := ⟨0x40100000 + 0x100 * n, 4, 3, .rw, .h, 0⟩
def Reg.CPH_CFG_OP (n : Nat) : Field := ⟨0x40100000 + 0x100 * n, 0, 3, .rw, .h, 0⟩
/-! ### R541 (13_caldera_protection.md) -/
def Reg.CPH_CTL_START (n : Nat) : Field := ⟨0x40100004 + 0x100 * n, 31, 1, .wo, .l, 0⟩
def Reg.CPH_CTL_ABORT (n : Nat) : Field := ⟨0x40100004 + 0x100 * n, 30, 1, .wo, .l, 0⟩
def Reg.CPH_LEN_LEN (n : Nat) : Field := ⟨0x40100008 + 0x100 * n, 0, 24, .rw, .h, 0⟩
/-! ### R542 (13_caldera_protection.md) -/
def Reg.CPH_STAT_BUSY (n : Nat) : Field := ⟨0x4010000c + 0x100 * n, 31, 1, .ro, .l, 0⟩
def Reg.CPH_STAT_DONE (n : Nat) : Field := ⟨0x4010000c + 0x100 * n, 30, 1, .w1c, .l, 0⟩
def Reg.CPH_STAT_MATCH (n : Nat) : Field := ⟨0x4010000c + 0x100 * n, 29, 1, .ro, .l, 0⟩
def Reg.CPH_STAT_CFGERR (n : Nat) : Field := ⟨0x4010000c + 0x100 * n, 28, 1, .w1c, .l, 0⟩
def Reg.CPH_STAT_ERR (n : Nat) : Field := ⟨0x4010000c + 0x100 * n, 24, 4, .ro, .l, 0⟩
def Reg.CPH_STAT_FREE (n : Nat) : Field := ⟨0x4010000c + 0x100 * n, 16, 3, .ro, .l, 4⟩
def Reg.CPH_STAT_BLOCKS (n : Nat) : Field := ⟨0x4010000c + 0x100 * n, 0, 16, .ro, .l, 0⟩
/-! ### R543 (13_caldera_protection.md) -/
def Reg.CPH_DIN (n : Nat) (k : Nat) : Field := ⟨0x40100010 + 0x100 * n + 0x4 * k, 0, 32, .rw, .l, 0⟩
def Reg.CPH_DOUT (n : Nat) (k : Nat) : Field := ⟨0x40100020 + 0x100 * n + 0x4 * k, 0, 32, .ro, .l, 0⟩
def Reg.CPH_EXP (n : Nat) (k : Nat) : Field := ⟨0x40100030 + 0x100 * n + 0x4 * k, 0, 32, .rw, .l, 0⟩
/-! ### R544 (13_caldera_protection.md) -/
def Reg.CPH_KCTL_LOAD (n : Nat) : Field := ⟨0x40100040 + 0x100 * n, 31, 1, .wo, .h, 0⟩
def Reg.CPH_KCTL_CLEAR (n : Nat) : Field := ⟨0x40100040 + 0x100 * n, 30, 1, .wo, .h, 0⟩
def Reg.CPH_KCTL_USE (n : Nat) : Field := ⟨0x40100040 + 0x100 * n, 4, 3, .rw, .h, 0⟩
def Reg.CPH_KCTL_SIZE (n : Nat) : Field := ⟨0x40100040 + 0x100 * n, 3, 1, .rw, .h, 0⟩
def Reg.CPH_KCTL_SLOT (n : Nat) : Field := ⟨0x40100040 + 0x100 * n, 0, 3, .rw, .h, 0⟩
/-! ### R545 (13_caldera_protection.md) -/
def Reg.CPH_KSTAT_KBUSY (n : Nat) : Field := ⟨0x40100044 + 0x100 * n, 31, 1, .ro, .l, 0⟩
def Reg.CPH_KSTAT_KLOST (n : Nat) : Field := ⟨0x40100044 + 0x100 * n, 16, 8, .w1c, .l, 0⟩
def Reg.CPH_KSTAT_K256 (n : Nat) : Field := ⟨0x40100044 + 0x100 * n, 8, 8, .ro, .l, 0⟩
def Reg.CPH_KSTAT_VALID (n : Nat) : Field := ⟨0x40100044 + 0x100 * n, 0, 8, .ro, .l, 0⟩
/-! ### R547 (13_caldera_protection.md) -/
def Reg.CPH_MSGCNT (n : Nat) : Field := ⟨0x40100048 + 0x100 * n, 0, 32, .rc, .l, 0⟩
/-! ### R546 (13_caldera_protection.md) -/
def Reg.CPH_KEY (n : Nat) (k : Nat) : Field := ⟨0x40100060 + 0x100 * n + 0x4 * k, 0, 32, .wo, .h, 0⟩
/-! ### R547 (13_caldera_protection.md) -/
def Reg.CPH_PARCNT : Field := ⟨0x40100400, 0, 32, .rc, .l, 0⟩
/-! ### R548 (13_caldera_protection.md) -/
def Reg.PROT_CTL_DBGEN : Field := ⟨0x40100800, 1, 1, .rw, .l, 0⟩
def Reg.PROT_CTL_LOCK : Field := ⟨0x40100800, 0, 1, .rw, .l, 0⟩
/-! ### R549 (13_caldera_protection.md) -/
def Reg.PROT_WORLD_HOST : Field := ⟨0x40100804, 4, 1, .rw, .l, 0⟩
def Reg.PROT_WORLD_APP : Field := ⟨0x40100804, 0, 4, .rw, .l, 0⟩
/-! ### R550 (13_caldera_protection.md) -/
def Reg.PROT_STAT_CFGERR : Field := ⟨0x40100808, 31, 1, .w1c, .l, 0⟩
def Reg.PROT_STAT_DENY : Field := ⟨0x40100808, 0, 16, .rc, .l, 0⟩
/-! ### R551 (13_caldera_protection.md) -/
def Reg.PROT_OWN_RDALL (k : Nat) : Field := ⟨0x40100900 + 0x4 * k, 10, 1, .rw, .l, 0⟩
def Reg.PROT_OWN_USER (k : Nat) : Field := ⟨0x40100900 + 0x4 * k, 9, 1, .rw, .l, 0⟩
def Reg.PROT_OWN_SEC (k : Nat) : Field := ⟨0x40100900 + 0x4 * k, 8, 1, .rw, .l, 0⟩
def Reg.PROT_OWN_OWNER (k : Nat) : Field := ⟨0x40100900 + 0x4 * k, 0, 5, .rw, .l, 1⟩
/-! ### R565 (14_events_timers_rtc.md) -/
def Reg.EVT_CH_CFG_GEN (n : Nat) : Field := ⟨0x40030000 + 0x4 * n, 11, 1, .rw, .l, 0⟩
def Reg.EVT_CH_CFG_GRP (n : Nat) : Field := ⟨0x40030000 + 0x4 * n, 8, 3, .rw, .l, 0⟩
def Reg.EVT_CH_CFG_SRC (n : Nat) : Field := ⟨0x40030000 + 0x4 * n, 0, 8, .rw, .l, 255⟩
/-! ### R566 (14_events_timers_rtc.md) -/
def Reg.EVT_CH_OWN_SEC (n : Nat) : Field := ⟨0x40030100 + 0x4 * n, 8, 1, .rw, .l, (if n ≤ 3 ∨ 56 ≤ n then 1 else 0)⟩
def Reg.EVT_CH_OWN_OWNER (n : Nat) : Field := ⟨0x40030100 + 0x4 * n, 0, 5, .rw, .l, (if n ≤ 3 ∨ 56 ≤ n then 0 else 1)⟩
/-! ### R567 (14_events_timers_rtc.md) -/
def Reg.EVT_FIRE0 : Field := ⟨0x40030200, 0, 32, .wo, .l, 0⟩
def Reg.EVT_FIRE1 : Field := ⟨0x40030204, 0, 32, .wo, .l, 0⟩
/-! ### R568 (14_events_timers_rtc.md) -/
def Reg.EVT_GRP_STATE (g : Nat) : Field := ⟨0x40030300 + 0x4 * g, 31, 1, .ro, .l, 1⟩
def Reg.EVT_GRP_SETEN (g : Nat) : Field := ⟨0x40030300 + 0x4 * g, 30, 1, .wo, .l, 0⟩
def Reg.EVT_GRP_SETDIS (g : Nat) : Field := ⟨0x40030300 + 0x4 * g, 29, 1, .wo, .l, 0⟩
def Reg.EVT_GRP_DISSRC (g : Nat) : Field := ⟨0x40030300 + 0x4 * g, 8, 8, .rw, .l, 255⟩
def Reg.EVT_GRP_ENSRC (g : Nat) : Field := ⟨0x40030300 + 0x4 * g, 0, 8, .rw, .l, 255⟩
/-! ### R569 (14_events_timers_rtc.md) -/
def Reg.EVT_STAT_CFGERR : Field := ⟨0x40030400, 0, 1, .w1c, .l, 0⟩
def Reg.EVT_MERGECNT : Field := ⟨0x40030410, 0, 32, .rc, .l, 0⟩
def Reg.EVT_GDROPCNT : Field := ⟨0x40030414, 0, 32, .rc, .l, 0⟩
/-! ### R570 (14_events_timers_rtc.md) -/
def Reg.INTC_LINE_EN (core : Nat) (l : Nat) : Field := ⟨0x40038000 + 0x100000000 * core + 0x4 * l, 31, 1, .rw, .l, 0⟩
def Reg.INTC_LINE_PEND (core : Nat) (l : Nat) : Field := ⟨0x40038000 + 0x100000000 * core + 0x4 * l, 30, 1, .w1c, .l, 0⟩
def Reg.INTC_LINE_OVR (core : Nat) (l : Nat) : Field := ⟨0x40038000 + 0x100000000 * core + 0x4 * l, 29, 1, .w1c, .l, 0⟩
def Reg.INTC_LINE_PRIO (core : Nat) (l : Nat) : Field := ⟨0x40038000 + 0x100000000 * core + 0x4 * l, 16, 4, .rw, .l, 0⟩
def Reg.INTC_LINE_SRC (core : Nat) (l : Nat) : Field := ⟨0x40038000 + 0x100000000 * core + 0x4 * l, 0, 8, .rw, .h, 255⟩
/-! ### R571 (14_events_timers_rtc.md) -/
def Reg.INTC_ACT_VALID (core : Nat) : Field := ⟨0x40038200 + 0x100000000 * core, 31, 1, .ro, .l, 0⟩
def Reg.INTC_ACT_LINE (core : Nat) : Field := ⟨0x40038200 + 0x100000000 * core, 0, 7, .ro, .l, 0⟩
def Reg.INTC_STAT_CFGERR (core : Nat) : Field := ⟨0x40038204 + 0x100000000 * core, 0, 1, .w1c, .l, 0⟩
/-! ### R580 (14_events_timers_rtc.md) -/
def Reg.TMR_CTL_START (t : Nat) : Field := ⟨0x40040000 + 0x100 * t, 31, 1, .wo, .l, 0⟩
def Reg.TMR_CTL_APPLY (t : Nat) : Field := ⟨0x40040000 + 0x100 * t, 30, 1, .rw, .l, 0⟩
def Reg.TMR_CTL_STSEL (t : Nat) : Field := ⟨0x40040000 + 0x100 * t, 8, 8, .rw, .h, 0⟩
def Reg.TMR_CTL_PSC (t : Nat) : Field := ⟨0x40040000 + 0x100 * t, 0, 4, .rw, .s, 0⟩
/-! ### R581 (14_events_timers_rtc.md) -/
def Reg.TMR_TOP (t : Nat) : Field := ⟨0x40040004 + 0x100 * t, 0, 32, .rw, .s, 4294967295⟩
def Reg.TMR_CNT (t : Nat) : Field := ⟨0x40040008 + 0x100 * t, 0, 32, .ro, .l, 0⟩
/-! ### R582 (14_events_timers_rtc.md) -/
def Reg.TMR_STAT_RUN (t : Nat) : Field := ⟨0x4004000c + 0x100 * t, 31, 1, .ro, .l, 0⟩
def Reg.TMR_STAT_CFGERR (t : Nat) : Field := ⟨0x4004000c + 0x100 * t, 30, 1, .w1c, .l, 0⟩
def Reg.TMR_STAT_UPF (t : Nat) : Field := ⟨0x4004000c + 0x100 * t, 29, 1, .w1c, .l, 0⟩
def Reg.TMR_STAT_OVR (t : Nat) : Field := ⟨0x4004000c + 0x100 * t, 8, 4, .w1c, .l, 0⟩
def Reg.TMR_STAT_CAPF (t : Nat) : Field := ⟨0x4004000c + 0x100 * t, 4, 4, .ro, .l, 0⟩
def Reg.TMR_STAT_CCF (t : Nat) : Field := ⟨0x4004000c + 0x100 * t, 0, 4, .w1c, .l, 0⟩
/-! ### R583 (14_events_timers_rtc.md) -/
def Reg.TMR_CC_CTL_FORCE (t : Nat) (c : Nat) : Field := ⟨0x40040020 + 0x100 * t + 0x10 * c, 31, 1, .wo, .l, 0⟩
def Reg.TMR_CC_CTL_MODE (t : Nat) (c : Nat) : Field := ⟨0x40040020 + 0x100 * t + 0x10 * c, 26, 2, .rw, .h, 0⟩
def Reg.TMR_CC_CTL_OUTACT (t : Nat) (c : Nat) : Field := ⟨0x40040020 + 0x100 * t + 0x10 * c, 24, 2, .rw, .l, 0⟩
def Reg.TMR_CC_CTL_EPSC (t : Nat) (c : Nat) : Field := ⟨0x40040020 + 0x100 * t + 0x10 * c, 16, 8, .rw, .h, 0⟩
def Reg.TMR_CC_CTL_FILT (t : Nat) (c : Nat) : Field := ⟨0x40040020 + 0x100 * t + 0x10 * c, 12, 4, .rw, .h, 0⟩
def Reg.TMR_CC_CTL_EDGE (t : Nat) (c : Nat) : Field := ⟨0x40040020 + 0x100 * t + 0x10 * c, 10, 2, .rw, .h, 0⟩
def Reg.TMR_CC_CTL_CAPSEL (t : Nat) (c : Nat) : Field := ⟨0x40040020 + 0x100 * t + 0x10 * c, 0, 8, .rw, .h, 0⟩
/-! ### R584 (14_events_timers_rtc.md) -/
def Reg.TMR_CC_CMP (t : Nat) (c : Nat) : Field := ⟨0x40040024 + 0x100 * t + 0x10 * c, 0, 32, .rw, .l, 0⟩
def Reg.TMR_CC_DUTY (t : Nat) (c : Nat) : Field := ⟨0x40040028 + 0x100 * t + 0x10 * c, 0, 32, .rw, .s, 0⟩
def Reg.TMR_CC_CAP (t : Nat) (c : Nat) : Field := ⟨0x4004002c + 0x100 * t + 0x10 * c, 0, 32, .ro, .l, 0⟩
/-! ### R585 (14_events_timers_rtc.md) -/
def Reg.TMR_GCTL_RESET : Field := ⟨0x40040800, 31, 1, .wo, .l, 0⟩
def Reg.TMR_GCTL_RUN : Field := ⟨0x40040800, 0, 8, .ro, .l, 0⟩
/-! ### R594 (14_events_timers_rtc.md) -/
def Reg.RTC_TIME_HOUR : Field := ⟨0x40050000, 16, 5, .ro, .l, 0⟩
def Reg.RTC_TIME_MIN : Field := ⟨0x40050000, 8, 6, .ro, .l, 0⟩
def Reg.RTC_TIME_SEC : Field := ⟨0x40050000, 0, 6, .ro, .l, 0⟩
def Reg.RTC_SETTIME_HOUR : Field := ⟨0x40050010, 16, 5, .rw, .s, 0⟩
def Reg.RTC_SETTIME_MIN : Field := ⟨0x40050010, 8, 6, .rw, .s, 0⟩
def Reg.RTC_SETTIME_SEC : Field := ⟨0x40050010, 0, 6, .rw, .s, 0⟩
def Reg.RTC_ALTIME_MSKHOUR : Field := ⟨0x40050020, 31, 1, .rw, .l, 0⟩
def Reg.RTC_ALTIME_MSKMIN : Field := ⟨0x40050020, 30, 1, .rw, .l, 0⟩
def Reg.RTC_ALTIME_MSKSEC : Field := ⟨0x40050020, 29, 1, .rw, .l, 0⟩
def Reg.RTC_ALTIME_HOUR : Field := ⟨0x40050020, 16, 5, .rw, .l, 0⟩
def Reg.RTC_ALTIME_MIN : Field := ⟨0x40050020, 8, 6, .rw, .l, 0⟩
def Reg.RTC_ALTIME_SEC : Field := ⟨0x40050020, 0, 6, .rw, .l, 0⟩
/-! ### R595 (14_events_timers_rtc.md) -/
def Reg.RTC_DATE_WDAY : Field := ⟨0x40050004, 28, 3, .ro, .l, 0⟩
def Reg.RTC_DATE_YEAR : Field := ⟨0x40050004, 16, 9, .ro, .l, 0⟩
def Reg.RTC_DATE_MONTH : Field := ⟨0x40050004, 8, 4, .ro, .l, 1⟩
def Reg.RTC_DATE_DAY : Field := ⟨0x40050004, 0, 5, .ro, .l, 1⟩
def Reg.RTC_SETDATE_WDAY : Field := ⟨0x40050014, 28, 3, .rw, .s, 0⟩
def Reg.RTC_SETDATE_YEAR : Field := ⟨0x40050014, 16, 9, .rw, .s, 0⟩
def Reg.RTC_SETDATE_MONTH : Field := ⟨0x40050014, 8, 4, .rw, .s, 1⟩
def Reg.RTC_SETDATE_DAY : Field := ⟨0x40050014, 0, 5, .rw, .s, 1⟩
def Reg.RTC_ALDATE_MSKYEAR : Field := ⟨0x40050024, 30, 1, .rw, .l, 0⟩
def Reg.RTC_ALDATE_MSKMON : Field := ⟨0x40050024, 29, 1, .rw, .l, 0⟩
def Reg.RTC_ALDATE_MSKDAY : Field := ⟨0x40050024, 28, 1, .rw, .l, 0⟩
def Reg.RTC_ALDATE_YEAR : Field := ⟨0x40050024, 16, 9, .rw, .l, 0⟩
def Reg.RTC_ALDATE_MONTH : Field := ⟨0x40050024, 8, 4, .rw, .l, 0⟩
def Reg.RTC_ALDATE_DAY : Field := ⟨0x40050024, 0, 5, .rw, .l, 0⟩
/-! ### R596 (14_events_timers_rtc.md) -/
def Reg.RTC_SSEC_SSEC : Field := ⟨0x40050008, 0, 15, .ro, .l, 0⟩
def Reg.RTC_SETSSEC_SSEC : Field := ⟨0x40050018, 0, 15, .rw, .s, 0⟩
def Reg.RTC_WAKE_PERIOD : Field := ⟨0x40050028, 0, 26, .rw, .l, 0⟩
/-! ### R597 (14_events_timers_rtc.md) -/
def Reg.RTC_CTL_APPLY : Field := ⟨0x40050030, 31, 1, .rw, .l, 0⟩
def Reg.RTC_CTL_ALEN : Field := ⟨0x40050030, 0, 1, .rw, .l, 0⟩
def Reg.RTC_STAT_CFGERR : Field := ⟨0x40050034, 31, 1, .w1c, .l, 0⟩
def Reg.RTC_STAT_XTALFAIL : Field := ⟨0x40050034, 7, 1, .w1c, .l, 0⟩
def Reg.RTC_STAT_RUNRC : Field := ⟨0x40050034, 6, 1, .ro, .l, 0⟩
def Reg.RTC_STAT_YWRAP : Field := ⟨0x40050034, 5, 1, .w1c, .l, 0⟩
def Reg.RTC_STAT_WAKEF : Field := ⟨0x40050034, 4, 1, .w1c, .l, 0⟩
def Reg.RTC_STAT_ALF : Field := ⟨0x40050034, 3, 1, .w1c, .l, 0⟩
def Reg.RTC_STAT_ALSKIP : Field := ⟨0x40050034, 2, 1, .w1c, .l, 0⟩
def Reg.RTC_STAT_BADDATE : Field := ⟨0x40050034, 1, 1, .w1c, .l, 0⟩
/-! ### R600 (14_events_timers_rtc.md) -/
def Reg.BKP_SET0_LATCHED : Field := ⟨0x40058000, 31, 1, .ro, .l, 0⟩
def Reg.BKP_SET0_PROFILE : Field := ⟨0x40058000, 0, 1, .ro, .l, 0⟩
/-! ### R708 (18_field_update.md) -/
def Reg.BKP_SET1_TBID : Field := ⟨0x40058004, 16, 16, .ro, .l, 0⟩
def Reg.BKP_SET1_STARTED : Field := ⟨0x40058004, 5, 1, .ro, .l, 0⟩
def Reg.BKP_SET1_TRIALA : Field := ⟨0x40058004, 4, 1, .ro, .l, 0⟩
def Reg.BKP_SET1_TRIALG : Field := ⟨0x40058004, 3, 1, .ro, .l, 0⟩
def Reg.BKP_SET1_TRIAL : Field := ⟨0x40058004, 2, 1, .ro, .l, 0⟩
def Reg.BKP_SET1_ALG : Field := ⟨0x40058004, 1, 1, .ro, .l, 0⟩
def Reg.BKP_SET1_GLG : Field := ⟨0x40058004, 0, 1, .ro, .l, 0⟩
/-! ### R600 (14_events_timers_rtc.md) -/
def Reg.BKP_SET2 : Field := ⟨0x40058008, 0, 32, .ro, .l, 0⟩
def Reg.BKP_SET3_NETID : Field := ⟨0x4005800c, 16, 16, .ro, .l, 0⟩
def Reg.BKP_SET3_SHORT : Field := ⟨0x4005800c, 0, 16, .ro, .l, 65535⟩
def Reg.BKP_SET4 : Field := ⟨0x40058010, 0, 32, .ro, .l, 0⟩
def Reg.BKP_SET5 : Field := ⟨0x40058014, 0, 32, .ro, .l, 1000⟩
def Reg.BKP_SET6 : Field := ⟨0x40058018, 0, 32, .ro, .l, 0⟩
def Reg.BKP_SET7 : Field := ⟨0x4005801c, 0, 32, .ro, .l, 0⟩
/-! ### R601 (14_events_timers_rtc.md) -/
def Reg.BKP_SETC (n : Nat) : Field := ⟨0x40058020 + 0x4 * n, 0, 32, .rw, .l, 0⟩
def Reg.BKP_RAM (w : Nat) : Field := ⟨0x40058040 + 0x4 * w, 0, 32, .rw, .l, 0⟩
/-! ### R619 (15_serial_ports.md) -/
def Reg.SPX_CFG_ROLE (n : Nat) : Field := ⟨0x40110000 + 0x10000 * n, 30, 2, .rw, .h, (if n = 0 then 0 else 2)⟩
def Reg.SPX_CFG_CPOL (n : Nat) : Field := ⟨0x40110000 + 0x10000 * n, 29, 1, .rw, .h, 0⟩
def Reg.SPX_CFG_CPHA (n : Nat) : Field := ⟨0x40110000 + 0x10000 * n, 28, 1, .rw, .h, 0⟩
def Reg.SPX_CFG_LSBF (n : Nat) : Field := ⟨0x40110000 + 0x10000 * n, 27, 1, .rw, .h, 0⟩
def Reg.SPX_CFG_DIV (n : Nat) : Field := ⟨0x40110000 + 0x10000 * n, 16, 8, .rw, .h, 0⟩
def Reg.SPX_CFG_CSSEL (n : Nat) : Field := ⟨0x40110000 + 0x10000 * n, 12, 2, .rw, .l, 0⟩
def Reg.SPX_CFG_WSIZE (n : Nat) : Field := ⟨0x40110000 + 0x10000 * n, 0, 2, .rw, .s, 2⟩
/-! ### R620 (15_serial_ports.md) -/
def Reg.SPX_CTL_APPLY (n : Nat) : Field := ⟨0x40110004 + 0x10000 * n, 31, 1, .rw, .l, 0⟩
def Reg.SPX_CTL_START (n : Nat) : Field := ⟨0x40110004 + 0x10000 * n, 30, 1, .wo, .l, 0⟩
def Reg.SPX_CTL_TXFLUSH (n : Nat) : Field := ⟨0x40110004 + 0x10000 * n, 29, 1, .wo, .l, 0⟩
def Reg.SPX_CTL_RXFLUSH (n : Nat) : Field := ⟨0x40110004 + 0x10000 * n, 28, 1, .wo, .l, 0⟩
def Reg.SPX_CTL_EN (n : Nat) : Field := ⟨0x40110004 + 0x10000 * n, 0, 1, .rw, .l, (if n = 0 then 1 else 0)⟩
/-! ### R621 (15_serial_ports.md) -/
def Reg.SPX_PCMD_EN (n : Nat) : Field := ⟨0x40110008 + 0x10000 * n, 31, 1, .rw, .s, 0⟩
def Reg.SPX_PCMD_LANES (n : Nat) : Field := ⟨0x40110008 + 0x10000 * n, 29, 2, .rw, .s, 0⟩
def Reg.SPX_PCMD_LEN (n : Nat) : Field := ⟨0x40110008 + 0x10000 * n, 0, 14, .rw, .s, 31⟩
def Reg.SPX_PADR_EN (n : Nat) : Field := ⟨0x4011000c + 0x10000 * n, 31, 1, .rw, .s, 0⟩
def Reg.SPX_PADR_LANES (n : Nat) : Field := ⟨0x4011000c + 0x10000 * n, 29, 2, .rw, .s, 0⟩
def Reg.SPX_PADR_LEN (n : Nat) : Field := ⟨0x4011000c + 0x10000 * n, 0, 14, .rw, .s, 31⟩
def Reg.SPX_PDAT_EN (n : Nat) : Field := ⟨0x40110010 + 0x10000 * n, 31, 1, .rw, .s, 1⟩
def Reg.SPX_PDAT_LANES (n : Nat) : Field := ⟨0x40110010 + 0x10000 * n, 29, 2, .rw, .s, 0⟩
def Reg.SPX_PDAT_DIR (n : Nat) : Field := ⟨0x40110010 + 0x10000 * n, 28, 1, .rw, .s, 0⟩
def Reg.SPX_PDAT_DUMMY (n : Nat) : Field := ⟨0x40110010 + 0x10000 * n, 20, 8, .rw, .s, 0⟩
def Reg.SPX_PDAT_LEN (n : Nat) : Field := ⟨0x40110010 + 0x10000 * n, 0, 14, .rw, .s, 31⟩
/-! ### R622 (15_serial_ports.md) -/
def Reg.SPX_DATA (n : Nat) : Field := ⟨0x40110014 + 0x10000 * n, 0, 32, .rw, .l, 0⟩
/-! ### R623 (15_serial_ports.md) -/
def Reg.SPX_FIFO_RXFRM (n : Nat) : Field := ⟨0x40110018 + 0x10000 * n, 28, 4, .ro, .l, 0⟩
def Reg.SPX_FIFO_RXLVL (n : Nat) : Field := ⟨0x40110018 + 0x10000 * n, 16, 12, .ro, .l, 0⟩
def Reg.SPX_FIFO_TXLVL (n : Nat) : Field := ⟨0x40110018 + 0x10000 * n, 0, 12, .ro, .l, 0⟩
def Reg.SPX_RXFRM_VALID (n : Nat) : Field := ⟨0x4011001c + 0x10000 * n, 31, 1, .ro, .l, 0⟩
def Reg.SPX_RXFRM_OVERLEN (n : Nat) : Field := ⟨0x4011001c + 0x10000 * n, 30, 1, .ro, .l, 0⟩
def Reg.SPX_RXFRM_BITS (n : Nat) : Field := ⟨0x4011001c + 0x10000 * n, 0, 15, .ro, .l, 0⟩
/-! ### R624 (15_serial_ports.md) -/
def Reg.SPX_STAT_RUN (n : Nat) : Field := ⟨0x40110020 + 0x10000 * n, 31, 1, .ro, .l, (if n = 0 then 1 else 0)⟩
def Reg.SPX_STAT_ACTIVE (n : Nat) : Field := ⟨0x40110020 + 0x10000 * n, 30, 1, .ro, .l, 0⟩
def Reg.SPX_STAT_GLETY (n : Nat) : Field := ⟨0x40110020 + 0x10000 * n, 29, 1, .ro, .l, 0⟩
def Reg.SPX_STAT_CFGERR (n : Nat) : Field := ⟨0x40110020 + 0x10000 * n, 28, 1, .w1c, .l, 0⟩
def Reg.SPX_STAT_WINOVR (n : Nat) : Field := ⟨0x40110020 + 0x10000 * n, 27, 1, .w1c, .l, 0⟩
def Reg.SPX_STAT_OVERLEN (n : Nat) : Field := ⟨0x40110020 + 0x10000 * n, 26, 1, .w1c, .l, 0⟩
def Reg.SPX_STAT_FRMEND (n : Nat) : Field := ⟨0x40110020 + 0x10000 * n, 25, 1, .w1c, .l, 0⟩
def Reg.SPX_STAT_TXEMPTY (n : Nat) : Field := ⟨0x40110020 + 0x10000 * n, 1, 1, .ro, .l, 1⟩
def Reg.SPX_STAT_RXAVAIL (n : Nat) : Field := ⟨0x40110020 + 0x10000 * n, 0, 1, .ro, .l, 0⟩
/-! ### R625 (15_serial_ports.md) -/
def Reg.SPX_IEN_ERR (n : Nat) : Field := ⟨0x40110024 + 0x10000 * n, 4, 1, .rw, .l, 1⟩
def Reg.SPX_IEN_WINOVR (n : Nat) : Field := ⟨0x40110024 + 0x10000 * n, 3, 1, .rw, .l, 0⟩
def Reg.SPX_IEN_OVERLEN (n : Nat) : Field := ⟨0x40110024 + 0x10000 * n, 2, 1, .rw, .l, 0⟩
def Reg.SPX_IEN_FRMEND (n : Nat) : Field := ⟨0x40110024 + 0x10000 * n, 1, 1, .rw, .l, 0⟩
def Reg.SPX_IEN_RXAVAIL (n : Nat) : Field := ⟨0x40110024 + 0x10000 * n, 0, 1, .rw, .l, 0⟩
/-! ### R626 (15_serial_ports.md) -/
def Reg.SPX_ERR_BADCMD (n : Nat) : Field := ⟨0x40110028 + 0x10000 * n, 24, 8, .rc, .l, 0⟩
def Reg.SPX_ERR_UNDER (n : Nat) : Field := ⟨0x40110028 + 0x10000 * n, 16, 8, .rc, .l, 0⟩
def Reg.SPX_ERR_RXOVF (n : Nat) : Field := ⟨0x40110028 + 0x10000 * n, 8, 8, .rc, .l, 0⟩
def Reg.SPX_ERR_FRAG (n : Nat) : Field := ⟨0x40110028 + 0x10000 * n, 0, 8, .rc, .l, 0⟩
/-! ### R618 (15_serial_ports.md) -/
def Reg.HW_STAT_BADCMD : Field := ⟨0x10000000008, 4, 1, .w1c, .l, 0⟩
def Reg.HW_STAT_BERR : Field := ⟨0x10000000008, 3, 1, .w1c, .l, 0⟩
def Reg.HW_STAT_FRAG : Field := ⟨0x10000000008, 2, 1, .w1c, .l, 0⟩
/-! ### R614 (15_serial_ports.md) -/
def Reg.HW_APBASE_BASE : Field := ⟨0x1000000000c, 9, 23, .rw, .l, 2098880⟩
def Reg.HW_BERRADDR : Field := ⟨0x10000000024, 0, 32, .ro, .l, 0⟩
/-! ### R647 (16_power.md) -/
def Reg.PWR_STAT_PROFILE : Field := ⟨0x40000000, 31, 1, .ro, .l, 0⟩
def Reg.PWR_STAT_MODE : Field := ⟨0x40000000, 29, 2, .ro, .l, 0⟩
def Reg.PWR_STAT_CFGERR : Field := ⟨0x40000000, 8, 1, .w1c, .l, 0⟩
def Reg.PWR_STAT_REFUSED : Field := ⟨0x40000000, 7, 1, .w1c, .l, 0⟩
def Reg.PWR_STAT_CHANGED : Field := ⟨0x40000000, 6, 1, .w1c, .l, 0⟩
def Reg.PWR_STAT_WAKEF : Field := ⟨0x40000000, 5, 1, .w1c, .l, 0⟩
/-! ### R648 (16_power.md) -/
def Reg.PWR_CTL_STOPREQ : Field := ⟨0x40000004, 31, 1, .rw, .l, 0⟩
def Reg.PWR_CTL_RELATCH : Field := ⟨0x40000004, 30, 1, .wo, .l, 0⟩
def Reg.PWR_CTL_PFAILEN : Field := ⟨0x40000004, 29, 1, .rw, .l, 0⟩
/-! ### R649 (16_power.md) -/
def Reg.PWR_WAKET : Field := ⟨0x40000010, 0, 32, .rw, .l, 0⟩
def Reg.PWR_WAKEMASK_EXITSTOP : Field := ⟨0x40000014, 15, 1, .rw, .l, 0⟩
def Reg.PWR_WAKEMASK_DOMS : Field := ⟨0x40000014, 1, 14, .rw, .l, 0⟩
/-! ### R650 (16_power.md) -/
def Reg.PWR_REFCNT : Field := ⟨0x40000020, 0, 32, .rc, .l, 0⟩
def Reg.PWR_THAWCNT : Field := ⟨0x40000024, 0, 32, .rc, .l, 0⟩
def Reg.PWR_THAWTOCNT : Field := ⟨0x40000028, 0, 32, .rc, .l, 0⟩
def Reg.PWR_EVLOSTCNT : Field := ⟨0x4000002c, 0, 32, .rc, .l, 0⟩
/-! ### R651 (16_power.md) -/
def Reg.PWR_DOM_STATE (n : Nat) : Field := ⟨0x40000100 + 0x4 * n, 30, 2, .ro, .l, 0⟩
def Reg.PWR_DOM_GREQ (n : Nat) : Field := ⟨0x40000100 + 0x4 * n, 28, 2, .ro, .l, 0⟩
def Reg.PWR_DOM_TARGET (n : Nat) : Field := ⟨0x40000100 + 0x4 * n, 26, 2, .ro, .l, 0⟩
def Reg.PWR_DOM_EVWAKE (n : Nat) : Field := ⟨0x40000100 + 0x4 * n, 25, 1, .rw, .l, 0⟩
def Reg.PWR_DOM_HELD (n : Nat) : Field := ⟨0x40000100 + 0x4 * n, 24, 1, .ro, .l, 0⟩
def Reg.PWR_DOM_DLYLIM (n : Nat) : Field := ⟨0x40000100 + 0x4 * n, 16, 8, .rw, .l, 20⟩
def Reg.PWR_DOM_CREQ (n : Nat) : Field := ⟨0x40000100 + 0x4 * n, 0, 2, .rw, .l, 0⟩
/-! ### R652 (16_power.md) -/
def Reg.PWR_LOG_VALID (k : Nat) : Field := ⟨0x40000200 + 0x4 * k, 31, 1, .w1c, .l, 0⟩
def Reg.PWR_LOG_DOMAIN (k : Nat) : Field := ⟨0x40000200 + 0x4 * k, 27, 4, .ro, .l, 0⟩
def Reg.PWR_LOG_REQ (k : Nat) : Field := ⟨0x40000200 + 0x4 * k, 25, 2, .ro, .l, 0⟩
def Reg.PWR_LOG_REASON (k : Nat) : Field := ⟨0x40000200 + 0x4 * k, 16, 8, .ro, .l, 0⟩
def Reg.PWR_LOG_TIME (k : Nat) : Field := ⟨0x40000200 + 0x4 * k, 0, 16, .ro, .l, 0⟩
def Reg.PWR_LOGIDX_NEXT : Field := ⟨0x40000240, 0, 4, .ro, .l, 0⟩
/-! ### R687 (17_ageing_repair_pairing.md) -/
def Reg.AGE_STAT_WORST : Field := ⟨0x40130000, 30, 2, .ro, .l, 0⟩
def Reg.AGE_STAT_NEXT : Field := ⟨0x40130000, 0, 16, .ro, .l, 0⟩
/-! ### R688 (17_ageing_repair_pairing.md) -/
def Reg.AGE_ALARMS_ALONE : Field := ⟨0x40130004, 11, 1, .ro, .l, 0⟩
def Reg.AGE_ALARMS_MIRDEG : Field := ⟨0x40130004, 10, 1, .ro, .l, 0⟩
def Reg.AGE_ALARMS_RMAPLOST : Field := ⟨0x40130004, 9, 1, .ro, .l, 0⟩
def Reg.AGE_ALARMS_PABO : Field := ⟨0x40130004, 8, 1, .ro, .l, 0⟩
def Reg.AGE_ALARMS_RAILMAX : Field := ⟨0x40130004, 7, 1, .ro, .l, 0⟩
def Reg.AGE_ALARMS_STORERO : Field := ⟨0x40130004, 6, 1, .ro, .l, 0⟩
def Reg.AGE_ALARMS_SPLOW : Field := ⟨0x40130004, 5, 1, .ro, .l, 0⟩
def Reg.AGE_ALARMS_FLWEAR : Field := ⟨0x40130004, 4, 1, .ro, .l, 0⟩
def Reg.AGE_ALARMS_SEQNOSP : Field := ⟨0x40130004, 3, 1, .ro, .l, 0⟩
def Reg.AGE_ALARMS_LANES : Field := ⟨0x40130004, 2, 1, .ro, .l, 0⟩
def Reg.AGE_ALARMS_SRAMNOSP : Field := ⟨0x40130004, 1, 1, .ro, .l, 0⟩
/-! ### R689 (17_ageing_repair_pairing.md) -/
def Reg.AGE_TEMP_PEAK : Field := ⟨0x40130008, 8, 8, .rc, .l, 128⟩
def Reg.AGE_TEMP_NOW : Field := ⟨0x40130008, 0, 8, .ro, .l, 0⟩
/-! ### R691 (17_ageing_repair_pairing.md) -/
def Reg.AGE_REPLANCNT : Field := ⟨0x40130010, 0, 32, .rc, .l, 0⟩
/-! ### R690 (17_ageing_repair_pairing.md) -/
def Reg.AGE_ISL_FCEIL (i : Nat) : Field := ⟨0x40130040 + 0x4 * i, 20, 12, .ro, .l, ([750, 250, 600, 500, 400, 533, 125, 100].getD i 0)⟩
def Reg.AGE_ISL_VRAIL (i : Nat) : Field := ⟨0x40130040 + 0x4 * i, 10, 10, .ro, .l, 750⟩
def Reg.AGE_ISL_MARGIN (i : Nat) : Field := ⟨0x40130040 + 0x4 * i, 0, 8, .ro, .l, 0⟩
/-! ### R692 (17_ageing_repair_pairing.md) -/
def Reg.MIR_STAT_ROLE : Field := ⟨0x40140000, 29, 3, .ro, .l, 0⟩
def Reg.MIR_STAT_LINK : Field := ⟨0x40140000, 27, 2, .ro, .l, 0⟩
def Reg.MIR_STAT_SPAREDRV : Field := ⟨0x40140000, 23, 4, .ro, .l, 0⟩
def Reg.MIR_STAT_EPOCH : Field := ⟨0x40140000, 0, 16, .ro, .l, 0⟩
/-! ### R693 (17_ageing_repair_pairing.md) -/
def Reg.MIR_LAG_MAX : Field := ⟨0x40140004, 16, 16, .rc, .l, 0⟩
def Reg.MIR_LAG_NOW : Field := ⟨0x40140004, 0, 16, .ro, .l, 0⟩
/-! ### R694 (17_ageing_repair_pairing.md) -/
def Reg.MIR_FENCE_FAIL : Field := ⟨0x40140008, 1, 1, .w1c, .l, 0⟩
def Reg.MIR_FENCE_FENCE : Field := ⟨0x40140008, 0, 1, .rw, .l, 0⟩
/-! ### R695 (17_ageing_repair_pairing.md) -/
def Reg.MIR_CVCNT : Field := ⟨0x40140040, 0, 32, .rc, .l, 0⟩
def Reg.MIR_LANESWCNT : Field := ⟨0x40140044, 0, 32, .rc, .l, 0⟩
def Reg.MIR_TAKEOVERCNT : Field := ⟨0x40140048, 0, 32, .rc, .l, 0⟩
def Reg.MIR_RESYNCCNT : Field := ⟨0x4014004c, 0, 32, .rc, .l, 0⟩
def Reg.MIR_DIRTYCNT : Field := ⟨0x40140050, 0, 32, .rc, .l, 0⟩
/-! ### R745 (19_luminaire_services.md) -/
def Reg.LMP_CTL_APPLY : Field := ⟨0x40150000, 31, 1, .rw, .l, 0⟩
def Reg.LMP_CTL_LTEN : Field := ⟨0x40150000, 15, 1, .rw, .s, 0⟩
def Reg.LMP_CTL_LCH : Field := ⟨0x40150000, 12, 3, .rw, .s, 0⟩
def Reg.LMP_CTL_PHBIAS : Field := ⟨0x40150000, 7, 1, .rw, .l, 0⟩
def Reg.LMP_CTL_MEN : Field := ⟨0x40150000, 6, 1, .rw, .l, 0⟩
def Reg.LMP_CTL_DACEN : Field := ⟨0x40150000, 5, 1, .rw, .s, 0⟩
def Reg.LMP_CTL_DALIEN : Field := ⟨0x40150000, 4, 1, .rw, .l, 0⟩
def Reg.LMP_CTL_PWM1EN : Field := ⟨0x40150000, 1, 1, .rw, .s, 0⟩
def Reg.LMP_CTL_PWM0EN : Field := ⟨0x40150000, 0, 1, .rw, .s, 0⟩
/-! ### R746 (19_luminaire_services.md) -/
def Reg.LMP_STAT_SVC : Field := ⟨0x40150004, 31, 1, .ro, .l, 0⟩
def Reg.LMP_STAT_CFGERR : Field := ⟨0x40150004, 30, 1, .w1c, .l, 0⟩
def Reg.LMP_STAT_DALIBUSY : Field := ⟨0x40150004, 29, 1, .ro, .l, 0⟩
def Reg.LMP_STAT_BUSLOW : Field := ⟨0x40150004, 28, 1, .ro, .l, 0⟩
/-! ### R747 (19_luminaire_services.md) -/
def Reg.LMP_PWM_PER_PERIOD (n : Nat) : Field := ⟨0x40150010 + 0x8 * n, 0, 16, .rw, .s, 4000⟩
def Reg.LMP_PWM_DUTY_DUTY (n : Nat) : Field := ⟨0x40150014 + 0x8 * n, 0, 16, .rw, .s, 0⟩
/-! ### R748 (19_luminaire_services.md) -/
def Reg.LMP_DAC_CODE : Field := ⟨0x40150020, 0, 12, .rw, .s, 0⟩
def Reg.LMP_PHOTO_VALUE : Field := ⟨0x40150024, 0, 10, .ro, .l, 0⟩
/-! ### R749 (19_luminaire_services.md) -/
def Reg.LMP_DALI_TX_SEND : Field := ⟨0x40150030, 31, 1, .wo, .l, 0⟩
def Reg.LMP_DALI_TX_BW : Field := ⟨0x40150030, 30, 1, .rw, .l, 0⟩
def Reg.LMP_DALI_TX_LEN : Field := ⟨0x40150030, 29, 1, .rw, .l, 0⟩
def Reg.LMP_DALI_TX_FRAME : Field := ⟨0x40150030, 0, 24, .rw, .l, 0⟩
/-! ### R750 (19_luminaire_services.md) -/
def Reg.LMP_DALI_RX_VALID : Field := ⟨0x40150034, 31, 1, .w1c, .l, 0⟩
def Reg.LMP_DALI_RX_NONE : Field := ⟨0x40150034, 30, 1, .w1c, .l, 0⟩
def Reg.LMP_DALI_RX_ERR : Field := ⟨0x40150034, 29, 1, .w1c, .l, 0⟩
def Reg.LMP_DALI_RX_DATA : Field := ⟨0x40150034, 0, 8, .ro, .l, 0⟩
/-! ### R751 (19_luminaire_services.md) -/
def Reg.LMP_MCFG_GAIN : Field := ⟨0x40150040, 0, 8, .rw, .h, 0⟩
def Reg.LMP_MET_SEQ (k : Nat) : Field := ⟨0x40150050 + 0x4 * k, 24, 8, .ro, .l, 0⟩
def Reg.LMP_MET_SAMPLE (k : Nat) : Field := ⟨0x40150050 + 0x4 * k, 0, 24, .ro, .l, 0⟩
def Reg.LMP_FAULTS : Field := ⟨0x40150060, 0, 32, .ro, .l, 0⟩

/-- A run of registers of one shape: the first word's address, the distance between two of them, how many there are,
and the fields of number `i`. -/
structure RegRow where
  base : Nat
  stride : Nat
  count : Nat
  fields : Nat → List Field

/-- The registers of SYS. -/
def regRowsSYS : List RegRow :=
  [⟨0x40170000, 4, 1, fun _ => [Reg.SYS_ID_PART, Reg.SYS_ID_REV]⟩] ++
  [⟨0x40170004, 4, 1, fun _ => [Reg.SYS_PKG_PSTRAP, Reg.SYS_PKG_VARIANT]⟩] ++
  [⟨0x40170008, 4, 1, fun _ => [Reg.SYS_RSTCAUSE_BKPLOST, Reg.SYS_RSTCAUSE_JTAG, Reg.SYS_RSTCAUSE_SOFT, Reg.SYS_RSTCAUSE_WDG, Reg.SYS_RSTCAUSE_PIN, Reg.SYS_RSTCAUSE_BOR, Reg.SYS_RSTCAUSE_POR]⟩] ++
  [⟨0x4017000c, 4, 1, fun _ => [Reg.SYS_BOOT_RMAPLOST, Reg.SYS_BOOT_RECOVERY, Reg.SYS_BOOT_FALLBACK, Reg.SYS_BOOT_GSLOT, Reg.SYS_BOOT_ASLOT, Reg.SYS_BOOT_PHASE]⟩] ++
  [⟨0x40170010, 4, 1, fun _ => [Reg.SYS_BERR_ADDR]⟩] ++
  [⟨0x40170014, 4, 1, fun _ => [Reg.SYS_BERR_INFO_VALID, Reg.SYS_BERR_INFO_KIND, Reg.SYS_BERR_INFO_WRITE, Reg.SYS_BERR_INFO_INIT]⟩] ++
  [⟨0x40170020, 4, 1, fun _ => [Reg.SYS_UID_LO]⟩] ++
  [⟨0x40170024, 4, 1, fun _ => [Reg.SYS_UID_HI]⟩] ++
  [⟨0x40170040, 4, 1, fun _ => [Reg.SYS_PARCNT_SRAM]⟩] ++
  [⟨0x40170044, 4, 1, fun _ => [Reg.SYS_PARCNT_TCM]⟩] ++
  [⟨0x40170048, 4, 1, fun _ => [Reg.SYS_PARCNT_FAB]⟩] ++
  [⟨0x4017004c, 4, 1, fun _ => [Reg.SYS_REFETCHCNT]⟩] ++
  [⟨0x40170050, 4, 1, fun _ => [Reg.SYS_PATROLCNT]⟩] ++
  [⟨0x40170054, 4, 1, fun _ => [Reg.SYS_PARLAST_ADDR]⟩] ++
  [⟨0x40170058, 4, 1, fun _ => [Reg.SYS_PARLAST_INFO_VALID, Reg.SYS_PARLAST_INFO_WHERE, Reg.SYS_PARLAST_INFO_PATROL, Reg.SYS_PARLAST_INFO_REFETCHED, Reg.SYS_PARLAST_INFO_INIT]⟩] ++
  [⟨0x4017005c, 4, 1, fun _ => [Reg.SYS_SPARE_USED, Reg.SYS_SPARE_LEFT, Reg.SYS_SPARE_WORST]⟩]

/-- The registers of FIRN. -/
def regRowsFIRN : List RegRow :=
  [⟨0x40020000, 4, 1, fun _ => [Reg.FIRN_TIME_LO]⟩] ++
  [⟨0x40020004, 4, 1, fun _ => [Reg.FIRN_TIME_HI]⟩] ++
  [⟨0x40020008, 4, 1, fun _ => [Reg.FIRN_STAT_COASTED, Reg.FIRN_STAT_STEPPED, Reg.FIRN_STAT_WIRED, Reg.FIRN_STAT_ROOT, Reg.FIRN_STAT_STATE]⟩] ++
  [⟨0x4002000c, 4, 1, fun _ => [Reg.FIRN_QUAL_HOPS, Reg.FIRN_QUAL_ERRBND]⟩] ++
  [⟨0x40020010, 4, 1, fun _ => [Reg.FIRN_STEPCNT]⟩] ++
  [⟨0x40020014, 4, 1, fun _ => [Reg.FIRN_REJCNT]⟩] ++
  [⟨0x40020018, 4, 1, fun _ => [Reg.FIRN_LATECNT]⟩] ++
  [⟨0x4002001c, 4, 1, fun _ => [Reg.FIRN_FREQ]⟩] ++
  [⟨0x40020020, 4, 1, fun _ => [Reg.FIRN_LASTSTEP]⟩] ++
  [⟨0x40020100, 0x10, 32, fun n => [Reg.FIRN_CMP_TLO n]⟩] ++
  [⟨0x40020104, 0x10, 32, fun n => [Reg.FIRN_CMP_THI n]⟩] ++
  [⟨0x40020108, 0x10, 32, fun n => [Reg.FIRN_CMP_CTL_ARM n, Reg.FIRN_CMP_CTL_DISARM n, Reg.FIRN_CMP_CTL_LATESUP n, Reg.FIRN_CMP_CTL_CHEN n, Reg.FIRN_CMP_CTL_CHAN n]⟩] ++
  [⟨0x4002010c, 0x10, 32, fun n => [Reg.FIRN_CMP_STAT_LATEBY n, Reg.FIRN_CMP_STAT_COASTED n, Reg.FIRN_CMP_STAT_CFGERR n, Reg.FIRN_CMP_STAT_STEPPED n, Reg.FIRN_CMP_STAT_LATE n, Reg.FIRN_CMP_STAT_FIRED n, Reg.FIRN_CMP_STAT_INFLIGHT n, Reg.FIRN_CMP_STAT_ARMED n]⟩] ++
  [⟨0x40020400, 0x10, 4, fun k => [Reg.FIRN_CAP_TLO k]⟩] ++
  [⟨0x40020404, 0x10, 4, fun k => [Reg.FIRN_CAP_THI k]⟩] ++
  [⟨0x40020408, 0x10, 4, fun k => [Reg.FIRN_CAP_CTL_APPLY k, Reg.FIRN_CAP_CTL_EN k, Reg.FIRN_CAP_CTL_EDGE k, Reg.FIRN_CAP_CTL_SRC k]⟩] ++
  [⟨0x4002040c, 0x10, 4, fun k => [Reg.FIRN_CAP_STAT_CFGERR k, Reg.FIRN_CAP_STAT_OVR k, Reg.FIRN_CAP_STAT_CAPF k]⟩]

/-- The registers of RFE. -/
def regRowsRFE : List RegRow :=
  [⟨0x40060000, 4, 1, fun _ => [Reg.RFE_STAT_REGIME, Reg.RFE_STAT_CAL, Reg.RFE_STAT_CLASSW, Reg.RFE_STAT_CLASSS, Reg.RFE_STAT_TXON, Reg.RFE_STAT_TXPORT, Reg.RFE_STAT_SYNTHLK, Reg.RFE_STAT_SYNTHON, Reg.RFE_STAT_KIND, Reg.RFE_STAT_STATE]⟩] ++
  [⟨0x40060004, 4, 1, fun _ => [Reg.RFE_TXCAP_LIMW, Reg.RFE_TXCAP_AGEW, Reg.RFE_TXCAP_CAPW, Reg.RFE_TXCAP_LIMS, Reg.RFE_TXCAP_AGES, Reg.RFE_TXCAP_CAPS]⟩] ++
  [⟨0x40060008, 0x4, 2, fun p => [Reg.RFE_REFL_CLASS p, Reg.RFE_REFL_FCODE p, Reg.RFE_REFL_SER p, Reg.RFE_REFL_SHU p, Reg.RFE_REFL_RL p]⟩] ++
  [⟨0x40060010, 4, 1, fun _ => [Reg.RFE_LASTTX_OUTCOME, Reg.RFE_LASTTX_CLIP, Reg.RFE_LASTTX_PORT, Reg.RFE_LASTTX_HOLD, Reg.RFE_LASTTX_PCODE]⟩] ++
  [⟨0x40060014, 4, 1, fun _ => [Reg.RFE_DUTYUSE_SUBBAND, Reg.RFE_DUTYUSE_USE]⟩] ++
  [⟨0x40060018, 4, 1, fun _ => [Reg.RFE_VPA]⟩] ++
  [⟨0x40060020, 4, 1, fun _ => [Reg.RFE_TXCNT]⟩] ++
  [⟨0x40060024, 4, 1, fun _ => [Reg.RFE_HELDCNT]⟩] ++
  [⟨0x40060028, 4, 1, fun _ => [Reg.RFE_LATECNT]⟩] ++
  [⟨0x4006002c, 4, 1, fun _ => [Reg.RFE_CLIPCNT]⟩] ++
  [⟨0x40060030, 4, 1, fun _ => [Reg.RFE_DUTYCNT]⟩] ++
  [⟨0x40060034, 4, 1, fun _ => [Reg.RFE_LBTCNT]⟩] ++
  [⟨0x40060038, 4, 1, fun _ => [Reg.RFE_DWELLCNT]⟩] ++
  [⟨0x4006003c, 4, 1, fun _ => [Reg.RFE_MISMCNT]⟩] ++
  [⟨0x40060040, 4, 1, fun _ => [Reg.RFE_CALABNCNT]⟩] ++
  [⟨0x40060044, 4, 1, fun _ => [Reg.RFE_CALFAILCNT]⟩] ++
  [⟨0x40060048, 4, 1, fun _ => [Reg.RFE_BANDCALCNT]⟩] ++
  [⟨0x4006004c, 4, 1, fun _ => [Reg.RFE_OTHERCNT]⟩]

/-- The registers of RXC. -/
def regRowsRXC : List RegRow :=
  [⟨0x40070000, 4, 1, fun _ => [Reg.RXC_STAT_MODE, Reg.RXC_STAT_GAINW, Reg.RXC_STAT_GAINS, Reg.RXC_STAT_ZONE, Reg.RXC_STAT_NWIN, Reg.RXC_STAT_W1DET, Reg.RXC_STAT_W0DET]⟩] ++
  [⟨0x40070004, 4, 1, fun _ => [Reg.RXC_LANE_RETIRED, Reg.RXC_LANE_SPARE, Reg.RXC_LANE_NLANE]⟩] ++
  [⟨0x40070008, 0x4, 2, fun w => [Reg.RXC_WIN_EN w, Reg.RXC_WIN_WIDTH w, Reg.RXC_WIN_FC w]⟩] ++
  [⟨0x40070010, 0x4, 2, fun w => [Reg.RXC_MSET_M3 w, Reg.RXC_MSET_M2 w, Reg.RXC_MSET_M1 w, Reg.RXC_MSET_M0 w]⟩] ++
  [⟨0x40070018, 4, 1, fun _ => [Reg.RXC_MPRIO_P1, Reg.RXC_MPRIO_P0]⟩] ++
  [⟨0x40070020, 0x4, 3, fun i => [Reg.RXC_LANEQ_Q3 i, Reg.RXC_LANEQ_Q2 i, Reg.RXC_LANEQ_Q1 i, Reg.RXC_LANEQ_Q0 i]⟩] ++
  [⟨0x40070040, 4, 1, fun _ => [Reg.RXC_DETCNT]⟩] ++
  [⟨0x40070044, 4, 1, fun _ => [Reg.RXC_NODECCNT]⟩] ++
  [⟨0x40070048, 4, 1, fun _ => [Reg.RXC_BLANKCNT]⟩] ++
  [⟨0x4007004c, 4, 1, fun _ => [Reg.RXC_OVLCNT]⟩] ++
  [⟨0x40070050, 4, 1, fun _ => [Reg.RXC_ROTCNT]⟩]

/-- The registers of MDM. -/
def regRowsMDM : List RegRow :=
  [⟨0x40080000, 4, 1, fun _ => [Reg.MDM_STAT_PEAK, Reg.MDM_STAT_WAIT, Reg.MDM_STAT_RSV, Reg.MDM_STAT_BUSY]⟩] ++
  [⟨0x40080020, 4, 1, fun _ => [Reg.MDM_FRAMECNT]⟩] ++
  [⟨0x40080024, 4, 1, fun _ => [Reg.MDM_FCSCNT]⟩] ++
  [⟨0x40080028, 4, 1, fun _ => [Reg.MDM_SFDTOCNT]⟩] ++
  [⟨0x4008002c, 4, 1, fun _ => [Reg.MDM_ABNCNT]⟩] ++
  [⟨0x40080030, 4, 1, fun _ => [Reg.MDM_RINGCNT]⟩]

/-- The registers of LNK. -/
def regRowsLNK : List RegRow :=
  [⟨0x400a0000, 4, 1, fun _ => [Reg.LNK_STAT_JOINED, Reg.LNK_STAT_RELAY, Reg.LNK_STAT_BLOST, Reg.LNK_STAT_BMISS, Reg.LNK_STAT_BIEXP, Reg.LNK_STAT_NCONN, Reg.LNK_STAT_SHORT]⟩] ++
  [⟨0x400a0004, 4, 1, fun _ => [Reg.LNK_PARENT_NETID, Reg.LNK_PARENT_PARENT]⟩] ++
  [⟨0x400a0008, 4, 1, fun _ => [Reg.LNK_SEQ_FAILED, Reg.LNK_SEQ_SPARE, Reg.LNK_SEQ_SLOTS]⟩] ++
  [⟨0x400a000c, 4, 1, fun _ => [Reg.LNK_LASTDROP_REASON, Reg.LNK_LASTDROP_PEER]⟩] ++
  [⟨0x400a0010, 4, 1, fun _ => [Reg.LNK_GUARD]⟩] ++
  [⟨0x400a0014, 4, 1, fun _ => [Reg.LNK_SEQMAP_PHYS7, Reg.LNK_SEQMAP_PHYS6, Reg.LNK_SEQMAP_PHYS5, Reg.LNK_SEQMAP_PHYS4, Reg.LNK_SEQMAP_PHYS3, Reg.LNK_SEQMAP_PHYS2, Reg.LNK_SEQMAP_PHYS1, Reg.LNK_SEQMAP_PHYS0]⟩] ++
  [⟨0x400a0040, 4, 1, fun _ => [Reg.LNK_BCNTXCNT]⟩] ++
  [⟨0x400a0044, 4, 1, fun _ => [Reg.LNK_BCNRXCNT]⟩] ++
  [⟨0x400a0048, 4, 1, fun _ => [Reg.LNK_BCNMISSCNT]⟩] ++
  [⟨0x400a004c, 4, 1, fun _ => [Reg.LNK_BLOSTCNT]⟩] ++
  [⟨0x400a0050, 4, 1, fun _ => [Reg.LNK_PARCHGCNT]⟩] ++
  [⟨0x400a0054, 4, 1, fun _ => [Reg.LNK_EVTCNT]⟩] ++
  [⟨0x400a0058, 4, 1, fun _ => [Reg.LNK_EVTMISSCNT]⟩] ++
  [⟨0x400a005c, 4, 1, fun _ => [Reg.LNK_RETXCNT]⟩] ++
  [⟨0x400a0060, 4, 1, fun _ => [Reg.LNK_RETXDROPCNT]⟩] ++
  [⟨0x400a0064, 4, 1, fun _ => [Reg.LNK_CONNUPCNT]⟩] ++
  [⟨0x400a0068, 4, 1, fun _ => [Reg.LNK_DROPCNT]⟩] ++
  [⟨0x400a006c, 4, 1, fun _ => [Reg.LNK_DRIFTCNT]⟩] ++
  [⟨0x400a0070, 4, 1, fun _ => [Reg.LNK_INSTCNT]⟩] ++
  [⟨0x400a0074, 4, 1, fun _ => [Reg.LNK_MICCNT]⟩] ++
  [⟨0x400a0078, 4, 1, fun _ => [Reg.LNK_FMTCNT]⟩] ++
  [⟨0x400a007c, 4, 1, fun _ => [Reg.LNK_NETCNT]⟩] ++
  [⟨0x400a0080, 4, 1, fun _ => [Reg.LNK_TXCONFCNT]⟩] ++
  [⟨0x400a0084, 4, 1, fun _ => [Reg.LNK_GUARDCAPCNT]⟩] ++
  [⟨0x400a0088, 4, 1, fun _ => [Reg.LNK_SEQFLTCNT]⟩] ++
  [⟨0x400a008c, 4, 1, fun _ => [Reg.LNK_RSVFULLCNT]⟩] ++
  [⟨0x400a0090, 4, 1, fun _ => [Reg.LNK_WAKEFAILCNT]⟩]

/-- The registers of WUR. -/
def regRowsWUR : List RegRow :=
  [⟨0x40090000, 4, 1, fun _ => [Reg.WUR_STAT_EN, Reg.WUR_STAT_BAND, Reg.WUR_STAT_TOL, Reg.WUR_STAT_LASTGRP]⟩] ++
  [⟨0x40090010, 4, 1, fun _ => [Reg.WUR_WAKECNT]⟩] ++
  [⟨0x40090014, 4, 1, fun _ => [Reg.WUR_FALSECNT]⟩]

/-- The registers of MSH. -/
def regRowsMSH : List RegRow :=
  [⟨0x400b0000, 4, 1, fun _ => [Reg.MSH_STAT_RELAY, Reg.MSH_STAT_COORD, Reg.MSH_STAT_FLOODBAND, Reg.MSH_STAT_POOLLOW, Reg.MSH_STAT_POOLFREE]⟩] ++
  [⟨0x400b0004, 4, 1, fun _ => [Reg.MSH_SEEN_USED]⟩] ++
  [⟨0x400b0008, 4, 1, fun _ => [Reg.MSH_ROUTES_USED]⟩] ++
  [⟨0x400b000c, 4, 1, fun _ => [Reg.MSH_CFG_DISC3, Reg.MSH_CFG_DISC2, Reg.MSH_CFG_DISC1, Reg.MSH_CFG_BOWIN, Reg.MSH_CFG_DUPK, Reg.MSH_CFG_TTL0]⟩] ++
  [⟨0x400b0010, 0x4, 4, fun n => [Reg.MSH_PORT_Q_C3 n, Reg.MSH_PORT_Q_C2 n, Reg.MSH_PORT_Q_C1 n, Reg.MSH_PORT_Q_C0 n]⟩] ++
  [⟨0x400b0040, 4, 1, fun _ => [Reg.MSH_FMTCNT]⟩] ++
  [⟨0x400b0044, 4, 1, fun _ => [Reg.MSH_DUPCNT]⟩] ++
  [⟨0x400b0048, 4, 1, fun _ => [Reg.MSH_POLDROPCNT]⟩] ++
  [⟨0x400b004c, 4, 1, fun _ => [Reg.MSH_SUPPCNT]⟩] ++
  [⟨0x400b0050, 4, 1, fun _ => [Reg.MSH_RELAYFULLCNT]⟩] ++
  [⟨0x400b0054, 4, 1, fun _ => [Reg.MSH_DELIVCNT]⟩] ++
  [⟨0x400b0058, 4, 1, fun _ => [Reg.MSH_TTLCNT]⟩] ++
  [⟨0x400b005c, 4, 1, fun _ => [Reg.MSH_NOROUTECNT]⟩] ++
  [⟨0x400b0060, 4, 1, fun _ => [Reg.MSH_QFULLCNT]⟩] ++
  [⟨0x400b0064, 4, 1, fun _ => [Reg.MSH_POOLCNT]⟩] ++
  [⟨0x400b0068, 4, 1, fun _ => [Reg.MSH_AGECNT]⟩] ++
  [⟨0x400b006c, 4, 1, fun _ => [Reg.MSH_DEADLINECNT]⟩] ++
  [⟨0x400b0070, 4, 1, fun _ => [Reg.MSH_LINKDOWNCNT]⟩] ++
  [⟨0x400b0074, 4, 1, fun _ => [Reg.MSH_UNKCNT]⟩] ++
  [⟨0x400b0078, 4, 1, fun _ => [Reg.MSH_SEENEVCNT]⟩] ++
  [⟨0x400b007c, 4, 1, fun _ => [Reg.MSH_ROUTEFLDCNT]⟩] ++
  [⟨0x400b0080, 4, 1, fun _ => [Reg.MSH_RXFLDCNT]⟩] ++
  [⟨0x400b0084, 4, 1, fun _ => [Reg.MSH_DELIVOKCNT]⟩] ++
  [⟨0x400b0090, 0x8, 4, fun n => [Reg.MSH_TXCNT n]⟩] ++
  [⟨0x400b0094, 0x8, 4, fun n => [Reg.MSH_TXOCT n]⟩]

/-- The registers of WPT. -/
def regRowsWPT : List RegRow :=
  [⟨0x400c0000, 0x100, 2, fun n => [Reg.WPT_PSTAT_LINK n, Reg.WPT_PSTAT_LINKED n, Reg.WPT_PSTAT_UPSTREAM n, Reg.WPT_PSTAT_TPARENT n, Reg.WPT_PSTAT_POLINV n, Reg.WPT_PSTAT_AMP n, Reg.WPT_PSTAT_QCLASS n, Reg.WPT_PSTAT_PDFAULT n, Reg.WPT_PSTAT_DVALID n, Reg.WPT_PSTAT_PEER n]⟩] ++
  [⟨0x400c0004, 0x100, 2, fun n => [Reg.WPT_PMSE_WORST n, Reg.WPT_PMSE_MSE n]⟩] ++
  [⟨0x400c0008, 0x100, 2, fun n => [Reg.WPT_PDELAY n]⟩] ++
  [⟨0x400c0040, 0x100, 2, fun n => [Reg.WPT_PRXFRMCNT n]⟩] ++
  [⟨0x400c0044, 0x100, 2, fun n => [Reg.WPT_PTXFRMCNT n]⟩] ++
  [⟨0x400c0048, 0x100, 2, fun n => [Reg.WPT_PFCSCNT n]⟩] ++
  [⟨0x400c004c, 0x100, 2, fun n => [Reg.WPT_PTYPECNT n]⟩] ++
  [⟨0x400c0050, 0x100, 2, fun n => [Reg.WPT_PREPLAYCNT n]⟩] ++
  [⟨0x400c0054, 0x100, 2, fun n => [Reg.WPT_PPTPCNT n]⟩] ++
  [⟨0x400c0058, 0x100, 2, fun n => [Reg.WPT_PPTPLOSTCNT n]⟩] ++
  [⟨0x400c005c, 0x100, 2, fun n => [Reg.WPT_PPTPOTHERCNT n]⟩] ++
  [⟨0x400c0060, 0x100, 2, fun n => [Reg.WPT_PLINKDNCNT n]⟩] ++
  [⟨0x400c0064, 0x100, 2, fun n => [Reg.WPT_PTXABTCNT n]⟩]

/-- The registers of MBX. -/
def regRowsMBX : List RegRow :=
  [⟨0x400d0000, 4, 1, fun _ => [Reg.MBX_CFG_SHARE3]⟩] ++
  [⟨0x400d0004, 4, 1, fun _ => [Reg.MBX_GSTAT_CFGERR, Reg.MBX_GSTAT_LIVE]⟩] ++
  [⟨0x400d0100, 0x40, 4, fun m => [Reg.MB_REQ_REQRD m, Reg.MB_REQ_REQWR m]⟩] ++
  [⟨0x400d0104, 0x40, 4, fun m => [Reg.MB_RSP_RSPWR m, Reg.MB_RSP_RSPRD m]⟩] ++
  [⟨0x400d0108, 0x40, 4, fun m => [Reg.MB_CTL_FLUSH m]⟩] ++
  [⟨0x400d010c, 0x40, 4, fun m => [Reg.MB_STAT_FLUSHING m, Reg.MB_STAT_ACTIVE m, Reg.MB_STAT_LIVEOPS m, Reg.MB_STAT_BACKLOG m, Reg.MB_STAT_DBERR m]⟩] ++
  [⟨0x400d0110, 0x40, 4, fun m => [Reg.MB_DROPCNT_NOTDROP m, Reg.MB_DROPCNT_PROGDROP m]⟩]

/-- The registers of DRC. -/
def regRowsDRC : List RegRow :=
  [⟨0x400f0000, 4, 1, fun _ => [Reg.DRC_STAT_TRAINED, Reg.DRC_STAT_FILLED, Reg.DRC_STAT_SELFREF, Reg.DRC_STAT_RETRAIN, Reg.DRC_STAT_REFMUL, Reg.DRC_STAT_WQ, Reg.DRC_STAT_PGIDLE]⟩] ++
  [⟨0x400f0004, 4, 1, fun _ => [Reg.DRC_CHKADDR]⟩] ++
  [⟨0x400f0008, 4, 1, fun _ => [Reg.DRC_CHKINFO_POISON, Reg.DRC_CHKINFO_INIT]⟩] ++
  [⟨0x400f0010, 0x4, 6, fun n => [Reg.DRC_PTGT_TARGET n]⟩] ++
  [⟨0x400f0040, 4, 1, fun _ => [Reg.DRC_CHKCNT]⟩] ++
  [⟨0x400f0044, 4, 1, fun _ => [Reg.DRC_RETRYOKCNT]⟩] ++
  [⟨0x400f0048, 4, 1, fun _ => [Reg.DRC_POISCNT]⟩] ++
  [⟨0x400f004c, 4, 1, fun _ => [Reg.DRC_FWDCNT]⟩] ++
  [⟨0x400f0050, 4, 1, fun _ => [Reg.DRC_PGHITCNT]⟩] ++
  [⟨0x400f0054, 4, 1, fun _ => [Reg.DRC_PGMISSCNT]⟩] ++
  [⟨0x400f0058, 4, 1, fun _ => [Reg.DRC_RETRAINCNT]⟩] ++
  [⟨0x400f0060, 0x4, 6, fun n => [Reg.DRC_PLATECNT n]⟩]

/-- The registers of FLC. -/
def regRowsFLC : List RegRow :=
  [⟨0x400e0000, 4, 1, fun _ => [Reg.FLC_STAT_RO, Reg.FLC_STAT_SUSP1, Reg.FLC_STAT_SUSP0, Reg.FLC_STAT_MORAINE, Reg.FLC_STAT_SPARES]⟩] ++
  [⟨0x400e0100, 4, 1, fun _ => [Reg.FLC_QAPP_CTL_EN]⟩] ++
  [⟨0x400e0104, 4, 1, fun _ => [Reg.FLC_QAPP_DBASE]⟩] ++
  [⟨0x400e0108, 4, 1, fun _ => [Reg.FLC_QAPP_CBASE]⟩] ++
  [⟨0x400e010c, 4, 1, fun _ => [Reg.FLC_QAPP_SIZE_LOG2N]⟩] ++
  [⟨0x400e0110, 4, 1, fun _ => [Reg.FLC_QAPP_DOORBELL_TAIL]⟩] ++
  [⟨0x400e0114, 4, 1, fun _ => [Reg.FLC_QAPP_HEAD_CDONE, Reg.FLC_QAPP_HEAD_HEAD]⟩] ++
  [⟨0x400e0118, 4, 1, fun _ => [Reg.FLC_QAPP_CACK_CACK]⟩] ++
  [⟨0x400e011c, 4, 1, fun _ => [Reg.FLC_QAPP_STAT_CFGERR, Reg.FLC_QAPP_STAT_DBERR, Reg.FLC_QAPP_STAT_STALL, Reg.FLC_QAPP_STAT_IDLE]⟩] ++
  [⟨0x400e0200, 0x4, 16, fun n => [Reg.FLC_XO_LOCK n, Reg.FLC_XO_EN n, Reg.FLC_XO_PART n, Reg.FLC_XO_FIRST n, Reg.FLC_XO_NBLK n]⟩] ++
  [⟨0x400e0040, 4, 1, fun _ => [Reg.FLC_CORRCNT]⟩] ++
  [⟨0x400e0044, 4, 1, fun _ => [Reg.FLC_RETRYCNT]⟩] ++
  [⟨0x400e0048, 4, 1, fun _ => [Reg.FLC_UNCCNT]⟩] ++
  [⟨0x400e004c, 4, 1, fun _ => [Reg.FLC_PFAILCNT]⟩] ++
  [⟨0x400e0050, 4, 1, fun _ => [Reg.FLC_EFAILCNT]⟩] ++
  [⟨0x400e0054, 4, 1, fun _ => [Reg.FLC_SUSPCNT]⟩] ++
  [⟨0x400e0058, 4, 1, fun _ => [Reg.FLC_SUSPHITCNT]⟩] ++
  [⟨0x400e005c, 4, 1, fun _ => [Reg.FLC_DENYCNT]⟩] ++
  [⟨0x400e0060, 4, 1, fun _ => [Reg.FLC_REFRESHCNT]⟩]

/-- The registers of CPH. -/
def regRowsCPH : List RegRow :=
  [⟨0x40100000, 0x100, 4, fun n => [Reg.CPH_CFG_TLEN n, Reg.CPH_CFG_CMPEN n, Reg.CPH_CFG_PRIO n, Reg.CPH_CFG_DUSE n, Reg.CPH_CFG_DSIZE n, Reg.CPH_CFG_DSLOT n, Reg.CPH_CFG_KSLOT n, Reg.CPH_CFG_OP n]⟩] ++
  [⟨0x40100004, 0x100, 4, fun n => [Reg.CPH_CTL_START n, Reg.CPH_CTL_ABORT n]⟩] ++
  [⟨0x40100008, 0x100, 4, fun n => [Reg.CPH_LEN_LEN n]⟩] ++
  [⟨0x4010000c, 0x100, 4, fun n => [Reg.CPH_STAT_BUSY n, Reg.CPH_STAT_DONE n, Reg.CPH_STAT_MATCH n, Reg.CPH_STAT_CFGERR n, Reg.CPH_STAT_ERR n, Reg.CPH_STAT_FREE n, Reg.CPH_STAT_BLOCKS n]⟩] ++
  (List.range 4).map (fun n => ⟨0x40100010 + 0x100 * n, 0x4, 4, fun k => [Reg.CPH_DIN n k]⟩) ++
  (List.range 4).map (fun n => ⟨0x40100020 + 0x100 * n, 0x4, 4, fun k => [Reg.CPH_DOUT n k]⟩) ++
  (List.range 4).map (fun n => ⟨0x40100030 + 0x100 * n, 0x4, 4, fun k => [Reg.CPH_EXP n k]⟩) ++
  [⟨0x40100040, 0x100, 4, fun n => [Reg.CPH_KCTL_LOAD n, Reg.CPH_KCTL_CLEAR n, Reg.CPH_KCTL_USE n, Reg.CPH_KCTL_SIZE n, Reg.CPH_KCTL_SLOT n]⟩] ++
  [⟨0x40100044, 0x100, 4, fun n => [Reg.CPH_KSTAT_KBUSY n, Reg.CPH_KSTAT_KLOST n, Reg.CPH_KSTAT_K256 n, Reg.CPH_KSTAT_VALID n]⟩] ++
  [⟨0x40100048, 0x100, 4, fun n => [Reg.CPH_MSGCNT n]⟩] ++
  (List.range 4).map (fun n => ⟨0x40100060 + 0x100 * n, 0x4, 8, fun k => [Reg.CPH_KEY n k]⟩) ++
  [⟨0x40100400, 4, 1, fun _ => [Reg.CPH_PARCNT]⟩] ++
  [⟨0x40100800, 4, 1, fun _ => [Reg.PROT_CTL_DBGEN, Reg.PROT_CTL_LOCK]⟩] ++
  [⟨0x40100804, 4, 1, fun _ => [Reg.PROT_WORLD_HOST, Reg.PROT_WORLD_APP]⟩] ++
  [⟨0x40100808, 4, 1, fun _ => [Reg.PROT_STAT_CFGERR, Reg.PROT_STAT_DENY]⟩] ++
  [⟨0x40100900, 0x4, 49, fun k => [Reg.PROT_OWN_RDALL k, Reg.PROT_OWN_USER k, Reg.PROT_OWN_SEC k, Reg.PROT_OWN_OWNER k]⟩]

/-- The registers of EVT. -/
def regRowsEVT : List RegRow :=
  [⟨0x40030000, 0x4, 64, fun n => [Reg.EVT_CH_CFG_GEN n, Reg.EVT_CH_CFG_GRP n, Reg.EVT_CH_CFG_SRC n]⟩] ++
  [⟨0x40030100, 0x4, 64, fun n => [Reg.EVT_CH_OWN_SEC n, Reg.EVT_CH_OWN_OWNER n]⟩] ++
  [⟨0x40030200, 4, 1, fun _ => [Reg.EVT_FIRE0]⟩] ++
  [⟨0x40030204, 4, 1, fun _ => [Reg.EVT_FIRE1]⟩] ++
  [⟨0x40030300, 0x4, 8, fun g => [Reg.EVT_GRP_STATE g, Reg.EVT_GRP_SETEN g, Reg.EVT_GRP_SETDIS g, Reg.EVT_GRP_DISSRC g, Reg.EVT_GRP_ENSRC g]⟩] ++
  [⟨0x40030400, 4, 1, fun _ => [Reg.EVT_STAT_CFGERR]⟩] ++
  [⟨0x40030410, 4, 1, fun _ => [Reg.EVT_MERGECNT]⟩] ++
  [⟨0x40030414, 4, 1, fun _ => [Reg.EVT_GDROPCNT]⟩]

/-- The registers of INTC. -/
def regRowsINTC (core : Nat) : List RegRow :=
  [⟨0x40038000, 0x4, 128, fun l => [Reg.INTC_LINE_EN core l, Reg.INTC_LINE_PEND core l, Reg.INTC_LINE_OVR core l, Reg.INTC_LINE_PRIO core l, Reg.INTC_LINE_SRC core l]⟩] ++
  [⟨0x40038200, 4, 1, fun _ => [Reg.INTC_ACT_VALID core, Reg.INTC_ACT_LINE core]⟩] ++
  [⟨0x40038204, 4, 1, fun _ => [Reg.INTC_STAT_CFGERR core]⟩]

/-- The registers of TMR. -/
def regRowsTMR : List RegRow :=
  [⟨0x40040000, 0x100, 8, fun t => [Reg.TMR_CTL_START t, Reg.TMR_CTL_APPLY t, Reg.TMR_CTL_STSEL t, Reg.TMR_CTL_PSC t]⟩] ++
  [⟨0x40040004, 0x100, 8, fun t => [Reg.TMR_TOP t]⟩] ++
  [⟨0x40040008, 0x100, 8, fun t => [Reg.TMR_CNT t]⟩] ++
  [⟨0x4004000c, 0x100, 8, fun t => [Reg.TMR_STAT_RUN t, Reg.TMR_STAT_CFGERR t, Reg.TMR_STAT_UPF t, Reg.TMR_STAT_OVR t, Reg.TMR_STAT_CAPF t, Reg.TMR_STAT_CCF t]⟩] ++
  (List.range 8).map (fun t => ⟨0x40040020 + 0x100 * t, 0x10, 4, fun c => [Reg.TMR_CC_CTL_FORCE t c, Reg.TMR_CC_CTL_MODE t c, Reg.TMR_CC_CTL_OUTACT t c, Reg.TMR_CC_CTL_EPSC t c, Reg.TMR_CC_CTL_FILT t c, Reg.TMR_CC_CTL_EDGE t c, Reg.TMR_CC_CTL_CAPSEL t c]⟩) ++
  (List.range 8).map (fun t => ⟨0x40040024 + 0x100 * t, 0x10, 4, fun c => [Reg.TMR_CC_CMP t c]⟩) ++
  (List.range 8).map (fun t => ⟨0x40040028 + 0x100 * t, 0x10, 4, fun c => [Reg.TMR_CC_DUTY t c]⟩) ++
  (List.range 8).map (fun t => ⟨0x4004002c + 0x100 * t, 0x10, 4, fun c => [Reg.TMR_CC_CAP t c]⟩) ++
  [⟨0x40040800, 4, 1, fun _ => [Reg.TMR_GCTL_RESET, Reg.TMR_GCTL_RUN]⟩]

/-- The registers of RTC. -/
def regRowsRTC : List RegRow :=
  [⟨0x40050000, 4, 1, fun _ => [Reg.RTC_TIME_HOUR, Reg.RTC_TIME_MIN, Reg.RTC_TIME_SEC]⟩] ++
  [⟨0x40050010, 4, 1, fun _ => [Reg.RTC_SETTIME_HOUR, Reg.RTC_SETTIME_MIN, Reg.RTC_SETTIME_SEC]⟩] ++
  [⟨0x40050020, 4, 1, fun _ => [Reg.RTC_ALTIME_MSKHOUR, Reg.RTC_ALTIME_MSKMIN, Reg.RTC_ALTIME_MSKSEC, Reg.RTC_ALTIME_HOUR, Reg.RTC_ALTIME_MIN, Reg.RTC_ALTIME_SEC]⟩] ++
  [⟨0x40050004, 4, 1, fun _ => [Reg.RTC_DATE_WDAY, Reg.RTC_DATE_YEAR, Reg.RTC_DATE_MONTH, Reg.RTC_DATE_DAY]⟩] ++
  [⟨0x40050014, 4, 1, fun _ => [Reg.RTC_SETDATE_WDAY, Reg.RTC_SETDATE_YEAR, Reg.RTC_SETDATE_MONTH, Reg.RTC_SETDATE_DAY]⟩] ++
  [⟨0x40050024, 4, 1, fun _ => [Reg.RTC_ALDATE_MSKYEAR, Reg.RTC_ALDATE_MSKMON, Reg.RTC_ALDATE_MSKDAY, Reg.RTC_ALDATE_YEAR, Reg.RTC_ALDATE_MONTH, Reg.RTC_ALDATE_DAY]⟩] ++
  [⟨0x40050008, 4, 1, fun _ => [Reg.RTC_SSEC_SSEC]⟩] ++
  [⟨0x40050018, 4, 1, fun _ => [Reg.RTC_SETSSEC_SSEC]⟩] ++
  [⟨0x40050028, 4, 1, fun _ => [Reg.RTC_WAKE_PERIOD]⟩] ++
  [⟨0x40050030, 4, 1, fun _ => [Reg.RTC_CTL_APPLY, Reg.RTC_CTL_ALEN]⟩] ++
  [⟨0x40050034, 4, 1, fun _ => [Reg.RTC_STAT_CFGERR, Reg.RTC_STAT_XTALFAIL, Reg.RTC_STAT_RUNRC, Reg.RTC_STAT_YWRAP, Reg.RTC_STAT_WAKEF, Reg.RTC_STAT_ALF, Reg.RTC_STAT_ALSKIP, Reg.RTC_STAT_BADDATE]⟩]

/-- The registers of BKP. -/
def regRowsBKP : List RegRow :=
  [⟨0x40058000, 4, 1, fun _ => [Reg.BKP_SET0_LATCHED, Reg.BKP_SET0_PROFILE]⟩] ++
  [⟨0x40058004, 4, 1, fun _ => [Reg.BKP_SET1_TBID, Reg.BKP_SET1_STARTED, Reg.BKP_SET1_TRIALA, Reg.BKP_SET1_TRIALG, Reg.BKP_SET1_TRIAL, Reg.BKP_SET1_ALG, Reg.BKP_SET1_GLG]⟩] ++
  [⟨0x40058008, 4, 1, fun _ => [Reg.BKP_SET2]⟩] ++
  [⟨0x4005800c, 4, 1, fun _ => [Reg.BKP_SET3_NETID, Reg.BKP_SET3_SHORT]⟩] ++
  [⟨0x40058010, 4, 1, fun _ => [Reg.BKP_SET4]⟩] ++
  [⟨0x40058014, 4, 1, fun _ => [Reg.BKP_SET5]⟩] ++
  [⟨0x40058018, 4, 1, fun _ => [Reg.BKP_SET6]⟩] ++
  [⟨0x4005801c, 4, 1, fun _ => [Reg.BKP_SET7]⟩] ++
  [⟨0x40058020, 0x4, 8, fun n => [Reg.BKP_SETC n]⟩] ++
  [⟨0x40058040, 0x4, 16, fun w => [Reg.BKP_RAM w]⟩]

/-- The registers of SPX. -/
def regRowsSPX : List RegRow :=
  [⟨0x40110000, 0x10000, 2, fun n => [Reg.SPX_CFG_ROLE n, Reg.SPX_CFG_CPOL n, Reg.SPX_CFG_CPHA n, Reg.SPX_CFG_LSBF n, Reg.SPX_CFG_DIV n, Reg.SPX_CFG_CSSEL n, Reg.SPX_CFG_WSIZE n]⟩] ++
  [⟨0x40110004, 0x10000, 2, fun n => [Reg.SPX_CTL_APPLY n, Reg.SPX_CTL_START n, Reg.SPX_CTL_TXFLUSH n, Reg.SPX_CTL_RXFLUSH n, Reg.SPX_CTL_EN n]⟩] ++
  [⟨0x40110008, 0x10000, 2, fun n => [Reg.SPX_PCMD_EN n, Reg.SPX_PCMD_LANES n, Reg.SPX_PCMD_LEN n]⟩] ++
  [⟨0x4011000c, 0x10000, 2, fun n => [Reg.SPX_PADR_EN n, Reg.SPX_PADR_LANES n, Reg.SPX_PADR_LEN n]⟩] ++
  [⟨0x40110010, 0x10000, 2, fun n => [Reg.SPX_PDAT_EN n, Reg.SPX_PDAT_LANES n, Reg.SPX_PDAT_DIR n, Reg.SPX_PDAT_DUMMY n, Reg.SPX_PDAT_LEN n]⟩] ++
  [⟨0x40110014, 0x10000, 2, fun n => [Reg.SPX_DATA n]⟩] ++
  [⟨0x40110018, 0x10000, 2, fun n => [Reg.SPX_FIFO_RXFRM n, Reg.SPX_FIFO_RXLVL n, Reg.SPX_FIFO_TXLVL n]⟩] ++
  [⟨0x4011001c, 0x10000, 2, fun n => [Reg.SPX_RXFRM_VALID n, Reg.SPX_RXFRM_OVERLEN n, Reg.SPX_RXFRM_BITS n]⟩] ++
  [⟨0x40110020, 0x10000, 2, fun n => [Reg.SPX_STAT_RUN n, Reg.SPX_STAT_ACTIVE n, Reg.SPX_STAT_GLETY n, Reg.SPX_STAT_CFGERR n, Reg.SPX_STAT_WINOVR n, Reg.SPX_STAT_OVERLEN n, Reg.SPX_STAT_FRMEND n, Reg.SPX_STAT_TXEMPTY n, Reg.SPX_STAT_RXAVAIL n]⟩] ++
  [⟨0x40110024, 0x10000, 2, fun n => [Reg.SPX_IEN_ERR n, Reg.SPX_IEN_WINOVR n, Reg.SPX_IEN_OVERLEN n, Reg.SPX_IEN_FRMEND n, Reg.SPX_IEN_RXAVAIL n]⟩] ++
  [⟨0x40110028, 0x10000, 2, fun n => [Reg.SPX_ERR_BADCMD n, Reg.SPX_ERR_UNDER n, Reg.SPX_ERR_RXOVF n, Reg.SPX_ERR_FRAG n]⟩]

/-- The registers of HW. -/
def regRowsHW : List RegRow :=
  [⟨0x10000000008, 4, 1, fun _ => [Reg.HW_STAT_BADCMD, Reg.HW_STAT_BERR, Reg.HW_STAT_FRAG]⟩] ++
  [⟨0x1000000000c, 4, 1, fun _ => [Reg.HW_APBASE_BASE]⟩] ++
  [⟨0x10000000024, 4, 1, fun _ => [Reg.HW_BERRADDR]⟩]

/-- The registers of PWR. -/
def regRowsPWR : List RegRow :=
  [⟨0x40000000, 4, 1, fun _ => [Reg.PWR_STAT_PROFILE, Reg.PWR_STAT_MODE, Reg.PWR_STAT_CFGERR, Reg.PWR_STAT_REFUSED, Reg.PWR_STAT_CHANGED, Reg.PWR_STAT_WAKEF]⟩] ++
  [⟨0x40000004, 4, 1, fun _ => [Reg.PWR_CTL_STOPREQ, Reg.PWR_CTL_RELATCH, Reg.PWR_CTL_PFAILEN]⟩] ++
  [⟨0x40000010, 4, 1, fun _ => [Reg.PWR_WAKET]⟩] ++
  [⟨0x40000014, 4, 1, fun _ => [Reg.PWR_WAKEMASK_EXITSTOP, Reg.PWR_WAKEMASK_DOMS]⟩] ++
  [⟨0x40000020, 4, 1, fun _ => [Reg.PWR_REFCNT]⟩] ++
  [⟨0x40000024, 4, 1, fun _ => [Reg.PWR_THAWCNT]⟩] ++
  [⟨0x40000028, 4, 1, fun _ => [Reg.PWR_THAWTOCNT]⟩] ++
  [⟨0x4000002c, 4, 1, fun _ => [Reg.PWR_EVLOSTCNT]⟩] ++
  [⟨0x40000100, 0x4, 15, fun n => [Reg.PWR_DOM_STATE n, Reg.PWR_DOM_GREQ n, Reg.PWR_DOM_TARGET n, Reg.PWR_DOM_EVWAKE n, Reg.PWR_DOM_HELD n, Reg.PWR_DOM_DLYLIM n, Reg.PWR_DOM_CREQ n]⟩] ++
  [⟨0x40000200, 0x4, 16, fun k => [Reg.PWR_LOG_VALID k, Reg.PWR_LOG_DOMAIN k, Reg.PWR_LOG_REQ k, Reg.PWR_LOG_REASON k, Reg.PWR_LOG_TIME k]⟩] ++
  [⟨0x40000240, 4, 1, fun _ => [Reg.PWR_LOGIDX_NEXT]⟩]

/-- The registers of AGE. -/
def regRowsAGE : List RegRow :=
  [⟨0x40130000, 4, 1, fun _ => [Reg.AGE_STAT_WORST, Reg.AGE_STAT_NEXT]⟩] ++
  [⟨0x40130004, 4, 1, fun _ => [Reg.AGE_ALARMS_ALONE, Reg.AGE_ALARMS_MIRDEG, Reg.AGE_ALARMS_RMAPLOST, Reg.AGE_ALARMS_PABO, Reg.AGE_ALARMS_RAILMAX, Reg.AGE_ALARMS_STORERO, Reg.AGE_ALARMS_SPLOW, Reg.AGE_ALARMS_FLWEAR, Reg.AGE_ALARMS_SEQNOSP, Reg.AGE_ALARMS_LANES, Reg.AGE_ALARMS_SRAMNOSP]⟩] ++
  [⟨0x40130008, 4, 1, fun _ => [Reg.AGE_TEMP_PEAK, Reg.AGE_TEMP_NOW]⟩] ++
  [⟨0x40130010, 4, 1, fun _ => [Reg.AGE_REPLANCNT]⟩] ++
  [⟨0x40130040, 0x4, 8, fun i => [Reg.AGE_ISL_FCEIL i, Reg.AGE_ISL_VRAIL i, Reg.AGE_ISL_MARGIN i]⟩]

/-- The registers of MIR. -/
def regRowsMIR : List RegRow :=
  [⟨0x40140000, 4, 1, fun _ => [Reg.MIR_STAT_ROLE, Reg.MIR_STAT_LINK, Reg.MIR_STAT_SPAREDRV, Reg.MIR_STAT_EPOCH]⟩] ++
  [⟨0x40140004, 4, 1, fun _ => [Reg.MIR_LAG_MAX, Reg.MIR_LAG_NOW]⟩] ++
  [⟨0x40140008, 4, 1, fun _ => [Reg.MIR_FENCE_FAIL, Reg.MIR_FENCE_FENCE]⟩] ++
  [⟨0x40140040, 4, 1, fun _ => [Reg.MIR_CVCNT]⟩] ++
  [⟨0x40140044, 4, 1, fun _ => [Reg.MIR_LANESWCNT]⟩] ++
  [⟨0x40140048, 4, 1, fun _ => [Reg.MIR_TAKEOVERCNT]⟩] ++
  [⟨0x4014004c, 4, 1, fun _ => [Reg.MIR_RESYNCCNT]⟩] ++
  [⟨0x40140050, 4, 1, fun _ => [Reg.MIR_DIRTYCNT]⟩]

/-- The registers of LMP. -/
def regRowsLMP : List RegRow :=
  [⟨0x40150000, 4, 1, fun _ => [Reg.LMP_CTL_APPLY, Reg.LMP_CTL_LTEN, Reg.LMP_CTL_LCH, Reg.LMP_CTL_PHBIAS, Reg.LMP_CTL_MEN, Reg.LMP_CTL_DACEN, Reg.LMP_CTL_DALIEN, Reg.LMP_CTL_PWM1EN, Reg.LMP_CTL_PWM0EN]⟩] ++
  [⟨0x40150004, 4, 1, fun _ => [Reg.LMP_STAT_SVC, Reg.LMP_STAT_CFGERR, Reg.LMP_STAT_DALIBUSY, Reg.LMP_STAT_BUSLOW]⟩] ++
  [⟨0x40150010, 0x8, 2, fun n => [Reg.LMP_PWM_PER_PERIOD n]⟩] ++
  [⟨0x40150014, 0x8, 2, fun n => [Reg.LMP_PWM_DUTY_DUTY n]⟩] ++
  [⟨0x40150020, 4, 1, fun _ => [Reg.LMP_DAC_CODE]⟩] ++
  [⟨0x40150024, 4, 1, fun _ => [Reg.LMP_PHOTO_VALUE]⟩] ++
  [⟨0x40150030, 4, 1, fun _ => [Reg.LMP_DALI_TX_SEND, Reg.LMP_DALI_TX_BW, Reg.LMP_DALI_TX_LEN, Reg.LMP_DALI_TX_FRAME]⟩] ++
  [⟨0x40150034, 4, 1, fun _ => [Reg.LMP_DALI_RX_VALID, Reg.LMP_DALI_RX_NONE, Reg.LMP_DALI_RX_ERR, Reg.LMP_DALI_RX_DATA]⟩] ++
  [⟨0x40150040, 4, 1, fun _ => [Reg.LMP_MCFG_GAIN]⟩] ++
  [⟨0x40150050, 0x4, 4, fun k => [Reg.LMP_MET_SEQ k, Reg.LMP_MET_SAMPLE k]⟩] ++
  [⟨0x40150060, 4, 1, fun _ => [Reg.LMP_FAULTS]⟩]

/-- The rows of the slot an address lies in. The bits above 2^32 of the key pick the core's controller or the host window. -/
def regRowsAt (key : Nat) : List RegRow :=
  let a := key % 0x100000000
  let core := key / 0x100000000
  if 0x10000000000 ≤ key then regRowsHW else
  match (a - 0x40000000) / 0x10000 with
  | 0 => regRowsPWR
  | 2 => regRowsFIRN
  | 3 => if 0x40038000 ≤ a then (regRowsINTC core).map (fun r => ⟨r.base + core * 0x100000000, r.stride, r.count, r.fields⟩) else regRowsEVT
  | 4 => regRowsTMR
  | 5 => regRowsRTC ++ regRowsBKP
  | 6 => regRowsRFE
  | 7 => regRowsRXC
  | 8 => regRowsMDM
  | 9 => regRowsWUR
  | 10 => regRowsLNK
  | 11 => regRowsMSH
  | 12 => regRowsWPT
  | 13 => regRowsMBX
  | 14 => regRowsFLC
  | 15 => regRowsDRC
  | 16 => regRowsCPH
  | 17 => regRowsSPX
  | 18 => regRowsSPX
  | 19 => regRowsAGE
  | 20 => regRowsMIR
  | 21 => regRowsLMP
  | 23 => regRowsSYS
  | _ => []

/-- The first row that holds the word at `key`, with its number in the row. -/
def findRow (key : Nat) : List RegRow → List Field
  | [] => []
  | r :: rest =>
    if r.base ≤ key ∧ (key - r.base) % r.stride = 0 ∧ (key - r.base) / r.stride < r.count then r.fields ((key - r.base) / r.stride)
    else findRow key rest

/-- The fields of the register at `key`; none where the slot has no register there (R7). -/
def regFields (key : Nat) : List Field :=
  if key < 0x40000000 then [] else findRow key (regRowsAt key)

end Sys2Proof.Machine
end

