-- ==== Sys2Proof/Machine/Shipped.lean ====
section
/-!
DEFINITION. The table objects that Glety 4.1 ships (R356), body by body, and how a body is read.
-/
namespace Sys2Proof.Machine

/-- One entry of the radio state table (R128): ID, KIND, AERIAL, AFTER_PKT, ON_TIMEOUT, ACTIONS, TIMEOUT, SLACK, LEAD. -/
def stateEntry (id kind aerial after ont actions timeout slack lead : Nat) : List Nat :=
  [id, kind, aerial, after, ont, 0] ++ leBytes 2 actions ++ leBytes 4 timeout ++ leBytes 2 slack ++ leBytes 2 lead

/-- The shipped radio state table (R131): HOME_ANCHOR 2, HOME_LEAF 3, eleven states. ACTIONS bits by R129. -/
def shipState : List Nat :=
  [2, 3, 11, 0] ++ stateEntry 0 0 0 0xFF 0xFF 0x800 0 0 0 ++ stateEntry 1 1 0 0xFF 0 0x003 5000 0 0 ++ stateEntry 2 2 0 2 0xFF 0x087 0 0 0 ++
  stateEntry 3 2 0 0xFE 0xFF 0x08B 0 0 0 ++ stateEntry 4 2 0 1 1 0x00B 2000 0 0 ++ stateEntry 5 3 1 0xFF 0xFE 0x1033 1000 0 60 ++
  stateEntry 6 4 1 0xFE 0xFF 0x1273 0 50 0 ++ stateEntry 7 3 2 0xFF 0xFE 0x1033 1000 0 60 ++ stateEntry 8 4 2 0xFE 0xFF 0x1273 0 50 0 ++
  stateEntry 9 4 1 4 0xFF 0x1273 0 50 0 ++ stateEntry 10 5 0 0xFE 0xFE 0x1113 1000 0 0

/-- One section of the power table (R118); the DRIVE words are the device's factory calibration, which the spec does not state
(a free value; log entry 9). -/
def powerSection (port n : Nat) : List Nat :=
  leBytes 2 n ++ [0, 0, 16, 24, 0, 0] ++ (List.range (2 * n)).map (fun i => Config.freeNat (1000000 + 1000 * port + i) % 256)

/-- The shipped power table (R118). -/
def shipPower : List Nat := powerSection 0 189 ++ powerSection 1 161

/-- One sub-band entry of the regime table (R143). -/
def subBand (flo fhi pmax pthr minHop lbtThr duty lbtTime dwell period : Nat) : List Nat :=
  leBytes 4 flo ++ leBytes 4 fhi ++ [pmax, pthr, minHop, lbtThr] ++ leBytes 2 duty ++ leBytes 2 lbtTime ++ leBytes 2 dwell ++ leBytes 2 period ++ [0, 0, 0, 0]

/-- A regime block: eight sub-band entries, the unused ones zero (R143). -/
def regimeBlock (regime n : Nat) (subs : List Nat) : List Nat := [regime, n, 0, 0] ++ subs ++ List.replicate (24 * (8 - n)) 0

/-- The shipped regime table (R148). -/
def shipRegime : List Nat :=
  [3, 0, 0, 0] ++
  regimeBlock 1 2 (subBand 902000 928000 188 176 50 0 10000 0 400 20 ++ subBand 2400000 2483500 160 0xFF 0 0 10000 0 0 0) ++
  regimeBlock 2 7 (subBand 863000 865000 136 0xFF 0 0 10 0 0 0 ++ subBand 865000 868000 136 0xFF 0 0 100 0 0 0 ++ subBand 868000 868600 136 0xFF 0 0 100 0 0 0 ++
    subBand 868700 869200 136 0xFF 0 0 10 0 0 0 ++ subBand 869400 869650 188 0xFF 0 0 1000 0 0 0 ++ subBand 869700 870000 136 0xFF 0 0 100 0 0 0 ++
    subBand 2400000 2483500 160 0xFF 0 0 10000 0 0 0) ++
  regimeBlock 3 1 (subBand 2400000 2483500 160 0xFF 0 0 10000 0 0 0)

/-- The shipped tuner table (R122): each group's lowest carrier in MHz, code 0x88. -/
def shipTuner : List Nat :=
  ([400, 470, 540, 610, 680, 750, 820, 890] ++ [2400, 2410, 2420, 2431, 2441, 2452, 2462, 2473]).flatMap (fun f => leBytes 2 f ++ [0x88, 0])

/-- A bucket of the network configuration (R353): RATE (4), BURST (2), 2 reserved octets. -/
def cfgBucket (rate burst : Nat) : List Nat := leBytes 4 rate ++ leBytes 2 burst ++ [0, 0]

/-- The factory's network configuration object (R353, R780): the forwarding defaults of R255 and zeros. -/
def factoryCfg : List Nat :=
  [0, 0, 0, 0, 0, 0, 0, 20] ++ [31, 20, 3, 8] ++ leBytes 2 100 ++ leBytes 2 120 ++
  leBytes 2 30 ++ [16, 1] ++ leBytes 4 1800 ++ leBytes 2 20 ++ leBytes 2 600 ++ leBytes 2 3000 ++ leBytes 2 9000 ++
  (List.replicate 16 (leBytes 2 256)).flatten ++ List.replicate 16 16 ++
  (List.replicate 12 (cfgBucket 0 0)).flatten ++ (List.replicate 4 (cfgBucket 1250 2048)).flatten ++ (List.replicate 4 (cfgBucket 0 0)).flatten ++
  leBytes 2 1 ++ leBytes 2 600 ++ [64, 0, 0, 0] ++ leBytes 2 2 ++ leBytes 2 600 ++ [64, 0, 0, 0] ++ List.replicate 16 0 ++ List.replicate 128 0

/-- The shipped dimming curve table (R734). -/
def shipDim : List Nat :=
  [5, 2] ++ leBytes 2 4000 ++ [60, 0, 0, 0, 0, 0] ++ List.replicate 10 0 ++ leBytes 2 1000 ++ leBytes 2 65535 ++ leBytes 2 4095 ++ leBytes 2 0 ++ [254, 0]

/-- The shipped astronomical table (R735). -/
def shipAstro : List Nat :=
  leBytes 2 2 ++ [0, 0] ++ leBytes 2 1 ++ leBytes 2 10800 ++ leBytes 2 32400 ++ [0, 0] ++ leBytes 2 366 ++ leBytes 2 10800 ++ leBytes 2 32400 ++ [0, 0]

/-- The shipped constant-light-output table (R736). -/
def shipClo : List Nat := [1, 0, 0, 0] ++ leBytes 4 0 ++ leBytes 2 1000 ++ [0, 0]

/-- The shipped frame format table (R698). -/
def shipFrame : List Nat := [0, 1, 0, 0]

/-- The shipped read-retry table (R493): shifts 0, -2, -4, +2, -6, -8, +4, -12. -/
def shipRetry : List Nat := [7, 0, 0, 0] ++ [0, 254, 252, 2, 250, 248, 4, 244].flatMap (fun x => [x, 0, 0, 0])

/-- One island of the ageing margin table (R660): ISLAND, CLKADJ, VMIN, VMAX, FSTEP, FFLOOR, FMAX; GUARDLO 10 and GUARDHI 24. -/
def ageIsland (isl clkadj vmin vmax fstep ffloor fmax : Nat) : List Nat :=
  [isl, clkadj] ++ leBytes 2 vmin ++ leBytes 2 vmax ++ [10, 24] ++ leBytes 2 fstep ++ leBytes 2 ffloor ++ leBytes 4 fmax

/-- The shipped ageing margin table (R661). -/
def shipAge : List Nat :=
  [8, 0, 0, 0] ++ ageIsland 5 1 600 800 25 600 750000 ++ ageIsland 6 0 550 800 0 0 250000 ++ ageIsland 7 1 600 800 25 400 600000 ++ ageIsland 8 1 600 800 25 400 500000 ++
  ageIsland 9 1 600 800 25 350 400000 ++ ageIsland 10 0 600 800 0 0 533000 ++ ageIsland 11 0 550 800 0 0 125000 ++ ageIsland 12 0 550 800 0 0 100000 ++
  [32, 40] ++ leBytes 2 100 ++ leBytes 2 1000 ++ [136, 105, 0, 0, 0, 0]

end Sys2Proof.Machine
end

