-- ==== Sys2Proof/Machine/State.lean ====
section
/-!
DEFINITION. The state of the block: every register, FIFO, buffer, counter, mode and pin that the spec gives the part,
as plain data, and the queue of commands that wait. A register field lives in `regs` (and, for a class S field, its
committed copy in `com`), under the key of its `Field`; what a chapter gives the part beside its registers lives in
that block's structure. Each structure's docstrings name the rule, the width and the reset value.
-/
namespace Sys2Proof.Machine

/-- Values of register fields by key, keys strictly rising; a field not listed holds its reset value. -/
abbrev RegFile := List (Nat × Nat)

/-- Why the block stops. No command of the table is given no effect by the spec, so a stop is rare; each is safe. -/
inductive Fault where
  /-- Nothing raises it: kept so that a later meaning can stop under a name. Safe. -/
  | noFault
  deriving DecidableEq, Repr

/-- Why a command is turned away. -/
inductive Refusal where
  /-- The dispatch raises it for a command that has no meaning yet. Safe: nothing is claimed of the command. -/
  | notModelled (mnemonic : String)
  deriving DecidableEq, Repr

/-- A launch on its way (R83): comparator, launch instant in ft of local time, and whether it matched late (R85). -/
structure Launch where
  cmp : Nat
  at_ : Nat
  late : Bool
  deriving DecidableEq, Repr

/-- The discipline loop's stage (R68). -/
inductive Stage | free | acquiring | locked | holdover | coast
  deriving DecidableEq, Repr

/-- A node's time parent (R76): none yet, the radio beacon parent, a wired port, or the pair mirror (R73). -/
inductive TimeParent | none | radio | wired (port : Nat) | mirror
  deriving DecidableEq, Repr

/-- The root's source of time (R74). -/
inductive RootSource | freeRun | set | pps
  deriving DecidableEq, Repr

/-- FIRN beside its registers (02_firn_time.md). -/
structure Firn where
  /-- Local Firn time in units of 2^-28 ft, 92 bits (R20, R58); reset 0 (R48). -/
  loc : Nat
  /-- The increment in 2^-28 ft per cycle, 32 bits (R58); reset 0x37EC8EC2. -/
  inc : Nat
  /-- What is left of the phase correction being slewed in, in 2^-28 ft, signed (R59); reset 0. -/
  slewLeft : Int
  /-- The slew's rate in 2^-28 ft per cycle, never above 100 ppm of the increment (R59); reset 0. -/
  slewRate : Nat
  /-- FIRN coasts (R61); reset false. -/
  coasting : Bool
  /-- The phase of coast exit: 0 not leaving, 1 restart, 2 align (R62); reset 0. -/
  exitPhase : Nat
  /-- The sub-cycle phase of the crystal edge kept at entry into coast, in FIRN cycles modulo 9,375 (R62); reset 0. -/
  edgePhase : Nat
  /-- HI words latched by a TIME_LO read, by initiator (R56); reset none. -/
  timeHi : List (Nat × Nat)
  /-- HI words latched by a CAPk_TLO read, by 32 * k + initiator (R93); reset none. -/
  capHi : List (Nat × Nat)
  /-- When each pending comparator commit was asked for, in elapsed cycles (R81); reset none. -/
  armAt : List (Nat × Nat)
  /-- When each pending capture commit was asked for (R91); reset none. -/
  applyAt : List (Nat × Nat)
  /-- Launches on their way, oldest first (R83); reset none. -/
  flight : List Launch
  /-- The held capture of each unit, 64 bits (R93); reset none. -/
  held : List (Nat × Nat)
  /-- Units whose held capture has been read through TLO (R93); reset none. -/
  heldRead : List Nat
  /-- The loop's stage (R68); reset FREE. -/
  stage : Stage
  /-- The stage a HOLDOVER returns to (R68); reset ACQUIRING. -/
  former : Stage
  /-- Elapsed cycles at the last accepted sample (R66); reset none. -/
  lastSample : Option Nat
  /-- Samples used since `sampleSec` began (R66); reset 0. -/
  samplesInSec : Nat
  /-- Start of the running second of samples, in elapsed cycles (R66); reset 0. -/
  sampleSec : Nat
  /-- Samples accepted in a row in the acquisition stage (R68); reset 0. -/
  inRow : Nat
  /-- Offsets of the rejected samples in a row, in ft, newest first (R70); reset none. -/
  rejects : List Int
  /-- The time parent (R76); reset none. -/
  parent : TimeParent
  /-- The parent's error bound in ns (R72); reset 0xFFFF. -/
  parentBound : Nat
  /-- Hops of the time parent from the root (R97); reset 31. -/
  parentHops : Nat
  /-- Path-delay exchanges completed with the radio time parent (R65); reset 0. -/
  exchanges : Nat
  /-- The averaged radio path delay in ft, signed (R65); reset 0. -/
  pathDelay : Int
  /-- The error bound in ns before holdover growth (R72); reset 0xFFFF. -/
  baseBound : Nat
  /-- The root's source (R74); reset free run. -/
  source : RootSource
  /-- The GPIO pin of the pulse per second (R349); reset 0. -/
  ppsPin : Nat
  /-- The Firn seconds of the next pulse (R74); reset 0. -/
  ppsSec : Nat
  /-- The accuracy of the source in ns (R75); reset 0. -/
  ppsAcc : Nat
  /-- Elapsed cycles at the last accepted pulse (R75); reset none. -/
  lastPulse : Option Nat
  /-- No pulse for 2 s: REFACC grows (R75); reset false. -/
  pulseLost : Bool
  /-- REFACC in ns at `refAt` (R75); reset 0xFFFFFFFF. -/
  refacc : Nat
  /-- Elapsed cycles when REFACC was set (R75); reset 0. -/
  refAt : Nat
  /-- The network's Firn-minus-UTC offset in seconds, signed (R77); reset 0. -/
  utcOff : Int
  /-- Leap flags of the network: bit 0 LEAP, bit 1 LEAPNEG (R77, R349); reset 0. -/
  leap : Nat
  /-- The UTC month, 12 * year + month from 2000-01, for which TIME_SET has set LEAP (R349); reset none. -/
  leapMonth : Option Nat
  /-- Elapsed cycles at entry into HOLDOVER, from which the error bound grows (R66); reset 0. -/
  holdAt : Nat
  /-- The FIRN clock stands still: before its PLL runs in boot phase 2, or with PD_FIRN Off (R23, R50); reset true. -/
  stopped : Bool
  /-- Elapsed cycles when XTCXO last stopped; none while it runs (R759); reset none. -/
  tcxoLost : Option Nat
  /-- Elapsed cycles of the last coarse offset write (R78); reset 0. -/
  coarseAt : Nat
  /-- Elapsed cycles of the last RTC time write not yet followed by a coarse offset write (R78); reset none. -/
  rtcSetAt : Option Nat
  /-- Elapsed cycles of the last step of local time (R59, R178); reset 0. -/
  stepAt : Nat
  deriving DecidableEq, Repr

/-- FIRN after reset. -/
def Firn.reset : Firn :=
  { loc := 0, inc := 0x37EC8EC2, slewLeft := 0, slewRate := 0, coasting := false, exitPhase := 0, edgePhase := 0, timeHi := [], capHi := [],
    armAt := [], applyAt := [], flight := [], held := [], heldRead := [], stage := .free, former := .acquiring, lastSample := none, samplesInSec := 0,
    sampleSec := 0, inRow := 0, rejects := [], parent := .none, parentBound := 0xFFFF, parentHops := 31, exchanges := 0, pathDelay := 0,
    baseBound := 0xFFFF, source := .freeRun, ppsPin := 0, ppsSec := 0, ppsAcc := 0, lastPulse := none, pulseLost := false, refacc := 0xFFFFFFFF,
    refAt := 0, utcOff := 0, leap := 0, leapMonth := none, holdAt := 0, stopped := true, tcxoLost := none, coarseAt := 0, rtcSetAt := none, stepAt := 0 }

/-- A record on its way to a mailbox owner (R332, R336): a response, a PROGRESS record or a notice. -/
structure MbRec where
  /-- Command or notice code, 16 bits. -/
  cmd : Nat
  /-- The request's tag, 16 bits; 0 in a notice. -/
  tag : Nat
  /-- FLAGS of the request, echoed; 0 in a notice. -/
  flags : Nat
  /-- RKIND: 0 RESULT, 1 ACCEPTED, 2 PROGRESS, 3 DONE, 4 FAILED, 5 CANCELLED, 6 NOTICE (R330). -/
  rkind : Nat
  /-- Status code, 16 bits (R344). -/
  status : Nat
  /-- Progress, 0 to 100 (R337). -/
  prog : Nat
  /-- Payload bytes, at most 240. -/
  payload : List Nat
  deriving DecidableEq, Repr

/-- A live long operation of a mailbox (R337, R338). -/
structure LiveOp where
  cmd : Nat
  tag : Nat
  /-- PROGRESS records are asked for (R337). -/
  prog : Bool
  /-- Progress so far, 0 to 100. -/
  done : Nat
  /-- Elapsed cycles of the last PROGRESS record (R337). -/
  lastProg : Option Nat
  /-- Elapsed cycles since which it is suspended (R339). -/
  suspended : Option Nat
  /-- Its terminal record has been queued; it lives until that record enters the ring (R338). -/
  ended : Bool
  /-- The operation's own numbers: first the buffer handle that it holds (R343), 0 for none. -/
  args : List Nat
  /-- The operation's own bytes. -/
  data : List Nat
  deriving DecidableEq, Repr

/-- An open buffer of a mailbox (R343). -/
structure MbBuf where
  /-- Handle. -/
  handle : Nat
  /-- The buffer's bytes; its length is its size. -/
  data : List Nat
  deriving DecidableEq, Repr

/-- A mailbox beside its registers and ring memory (08_supervisor_mailboxes.md). -/
structure Mbox where
  /-- Records waiting for the response ring, oldest first (R336); reset none. -/
  backlog : List MbRec
  /-- Notices discarded since the last LOST notice (R336); reset 0. -/
  lost : Nat
  /-- The notice mask, 32 bits (R359); reset all ones. -/
  mask : Nat
  /-- Live operations, oldest first, at most eight (R338); reset none. -/
  ops : List LiveOp
  /-- Open buffers, at most two (R343); reset none. -/
  bufs : List MbBuf
  /-- Customer PTYPEs the mailbox subscribes (R359); reset none. -/
  ptypes : List Nat
  deriving DecidableEq, Repr

/-- A mailbox after reset. -/
def Mbox.reset : Mbox := { backlog := [], lost := 0, mask := 0xFFFFFFFF, ops := [], bufs := [], ptypes := [] }

/-- A notice raised before boot phase 8, held for the mailboxes (R359). -/
structure HeldNotice where
  code : Nat
  maskBit : Nat
  payload : List Nat
  deriving DecidableEq, Repr

/-- A health record (R662). -/
structure HealthRec where
  index : Nat
  severity : Nat
  code : Nat
  t : Nat
  value1 : Nat
  value2 : Nat
  uptime : Nat
  boots : Nat
  deriving DecidableEq, Repr

/-- A key slot of Caldera (R518): the key's 16 or 32 bytes and its USE bits (bit 0 MAC, bit 1 BLK, bit 2 DRV). -/
structure KeySlot where
  key : List Nat
  use : Nat
  deriving DecidableEq, Repr

/-- One context of Caldera beside its registers (R525, R527). -/
structure CphCtx where
  /-- Blocks waiting, oldest first, at most four of 16 bytes (R525); reset none. -/
  queue : List (List Nat)
  /-- The chaining state, 16 bytes (R525); reset zeros. -/
  chain : List Nat
  /-- Blocks submitted of the message (R527); reset 0. -/
  submitted : Nat
  /-- The key of the message, taken at START; reset none. -/
  key : KeySlot
  /-- An ABORT waits for the block boundary (R527); reset false. -/
  abortReq : Bool
  /-- A START that arrived during a key load waits (R520); reset false. -/
  startWait : Bool
  /-- The derived key's bytes so far (R522); reset none. -/
  derived : List Nat
  deriving DecidableEq, Repr

/-- A context after reset. -/
def CphCtx.reset : CphCtx :=
  { queue := [], chain := List.replicate 16 0, submitted := 0, key := ⟨[], 0⟩, abortReq := false, startWait := false, derived := [] }

/-- The block on the engine (R526): its context, the block, and whether its message still runs. -/
structure CphBlock where
  ctx : Nat
  block : List Nat
  live : Bool
  deriving DecidableEq, Repr

/-- A key load in progress (R520): the context, the slot, the key. -/
structure CphLoad where
  ctx : Nat
  slot : Nat
  key : KeySlot
  deriving DecidableEq, Repr

/-- Caldera beside its registers (13_caldera_protection.md). -/
structure Cph where
  /-- Valid key slots, by slot 0 to 31 (R518); reset none. -/
  slots : List (Nat × KeySlot)
  /-- The key registers' contents, by 8 * context + word: written, never read (R519); reset none. -/
  keyRegs : List (Nat × Nat)
  /-- The four contexts (R525). -/
  ctxs : Vector CphCtx 4
  /-- The block on the engine (R526); reset none. -/
  engine : Option CphBlock
  /-- The context whose message ran last (R526); reset none. -/
  last : Option Nat
  /-- Contexts with a block queued, the longest waiting first (R526); reset none. -/
  waiting : List Nat
  /-- The load in progress (R520); reset none. -/
  load : Option CphLoad
  deriving DecidableEq, Repr

/-- Caldera after reset. -/
def Cph.reset : Cph :=
  { slots := [], keyRegs := [], ctxs := Vector.replicate 4 CphCtx.reset, engine := none, last := none, waiting := [], load := none }

/-- What the part is made as: fuses (R41, R42, R46), fixed for one device. -/
structure Fuses where
  /-- SYS_ID.REV, 8 bits (R41); 0x01 for the first revision. -/
  rev : Nat
  /-- SYS_PKG.VARIANT: true on LM7440-C (R42). -/
  variantC : Bool
  /-- The 64-bit long identity (R46). -/
  uid : Nat
  /-- The device key of Caldera slot 0, 32 bytes (R521). -/
  devKey : List Nat
  /-- The key digests of indices 0 to 3, 32 bytes each, and the revoke fuses blown, a bit per index (R699). -/
  digests : List (List Nat)
  revoked : Nat
  deriving DecidableEq, Repr

/-- The fuses that `State.reset` stands on: a first-revision LM7440-C (log entry 6). -/
def Fuses.reset : Fuses := { rev := 1, variantC := true, uid := 0, devKey := List.replicate 32 0, digests := List.replicate 4 (List.replicate 32 0), revoked := 0 }

/-- One channel of a timer beside its registers (R575 to R577). -/
structure TmrCh where
  /-- The channel output in compare mode, 1 bit (R575, R576); reset 0. -/
  out : Bool
  /-- Qualifying edges counted toward N (R577); reset 0. -/
  edges : Nat
  deriving DecidableEq, Repr

/-- One timer beside its registers (R572). The count is `cnt0` at elapsed time `t0` and one more for each tick since. -/
structure Tmr where
  /-- Elapsed cycles at which the count was `cnt0` (R572); reset 0. -/
  t0 : Nat
  /-- The count at `t0`, 32 bits (R572); reset 0. -/
  cnt0 : Nat
  /-- Channels whose compare value has been reached or passed in this lap (R575); reset none. -/
  seen : List Nat
  /-- The four channels. -/
  chs : List TmrCh
  deriving DecidableEq, Repr

/-- A timer after reset. -/
def Tmr.reset : Tmr := { t0 := 0, cnt0 := 0, seen := [], chs := List.replicate 4 ⟨false, 0⟩ }

/-- The real-time clock beside its registers (14_events_timers_rtc.md). -/
structure Rtc where
  /-- Elapsed cycles at which the sub-second count was `ssec0` (R586); reset 0. -/
  t0 : Nat
  /-- The sub-second count at `t0`, 15 bits (R586); reset 0. -/
  ssec0 : Nat
  /-- Date and sub-second words latched by a RTC_TIME read, by initiator (R588); reset none. -/
  latch : List (Nat × (Nat × Nat))
  /-- Elapsed cycles at the start of the running wake period (R592); reset 0. -/
  wakeT0 : Nat
  /-- The crystal gives no edges (R593); reset false. -/
  xtalGone : Bool
  /-- Elapsed cycles of the pending APPLY (R589); reset none. -/
  applyAt : Option Nat
  deriving DecidableEq, Repr

/-- The real-time clock after a backup reset. -/
def Rtc.reset : Rtc := { t0 := 0, ssec0 := 0, latch := [], wakeT0 := 0, xtalGone := false, applyAt := none }

/-- A stored table object (R355): version, source of TBL_INFO (1 mailbox, 2 bundle, 3 written back), and body. -/
structure TableObj where
  ver : Nat
  source : Nat
  body : List Nat
  deriving DecidableEq, Repr

/-- Where a transmission stands: held for the transmitter (R139), on the air, ramping down (R114), or ended. -/
inductive TxPhase | held | onAir | rampDown
  deriving DecidableEq, Repr

/-- The transmission in the transmit chain (R109). -/
structure Tx where
  req : TxReq
  phase : TxPhase
  /-- Outcome so far: 0 sent, 1 held (R142). -/
  outcome : Nat
  /-- Power code used (R117). -/
  used : Nat
  /-- Sent at the ceiling (R117). -/
  clip : Bool
  /-- Hold in µs (R139). -/
  hold : Nat
  /-- Elapsed cycles at the last phase change. -/
  since : Nat
  deriving DecidableEq, Repr

/-- An aerial port beside its registers (R119 to R124). -/
structure Port where
  /-- Elapsed cycles at which the port faulted; none when it is not faulted (R124). -/
  faultedAt : Option Nat
  /-- The next measurement sets the class (R124). -/
  remeasure : Bool
  /-- Frames in a row that measured inside a better class, and the worst class among them (R124). -/
  betterRun : Nat
  betterClass : Nat
  /-- Transmissions in a row with gain down by more than 1 dB (R119). -/
  lowRun : Nat
  /-- The port has chosen a stored tuner code since reset (R122). -/
  started : Bool
  deriving DecidableEq, Repr

/-- A port after reset. -/
def Port.reset : Port := { faultedAt := none, remeasure := false, betterRun := 0, betterClass := 0, lowRun := 0, started := false }

/-- A calibration in progress (R133, R134): kind 1 to 6, port, elapsed cycles at its start. -/
structure CalRun where
  kind : Nat
  port : Nat
  since : Nat
  /-- Steps done before this run, when it resumes (R134). -/
  step : Nat
  deriving DecidableEq, Repr

/-- What a calibration keeps (R133, R134, R136), by 2 * kind + port. -/
structure CalRec where
  /-- Elapsed cycles and die temperature when it last completed. -/
  doneAt : Option Nat
  doneTemp : Int
  /-- The step an abandoned run resumes from. -/
  resume : Nat
  /-- Elapsed cycles since which it is due (R136). -/
  dueAt : Option Nat
  deriving DecidableEq, Repr

/-- A synthesizer lock in progress (R112): full or retune. -/
structure LockRun where
  full : Bool
  since : Nat
  deriving DecidableEq, Repr

/-- Air time of a carrier in its dwell window (R147): carrier in kHz, buckets newest first, elapsed cycles of the newest bucket's start. -/
structure Dwell where
  freq : Nat
  buckets : List Nat
  at_ : Nat
  deriving DecidableEq, Repr

/-- A frame planned with the RFE (R137, R196): launch time, port, transmit state, mode, carrier in kHz, power code, PSDU. -/
structure Planned where
  t : Nat
  port : Nat
  state : Nat
  mode : Nat
  freq : Nat
  pcode : Nat
  psdu : List Nat
  deriving DecidableEq, Repr

/-- The radio front end beside its registers (03_radio_front_end.md). -/
structure Rfe where
  /-- Elapsed cycles at entry of the current state (R125); reset 0. -/
  entered : Nat
  /-- A request held while a frame is on the air (R126); reset none. -/
  heldReq : Option Nat
  /-- The transmit or listen state whose frame has completed: an auto-return is due (R125); reset none. -/
  pktDone : Option Nat
  /-- A transition still taking its time (R132): its target and when it began; reset none. -/
  moving : Option (Nat × Nat)
  /-- The planned carrier in kHz (R129); reset 0. -/
  planned : Nat
  /-- The carrier the synthesizer is tuned to, in kHz; reset 0. -/
  carrier : Nat
  /-- The carrier correction in force, FIRN_FREQ's code while LOCKED and 0 otherwise (R113); reset 0. -/
  corr : Nat
  /-- The output divider in use (R111); reset 0. -/
  divider : Nat
  /-- Oscillator frequency in kHz and die temperature at the last band selection (R112); reset none. -/
  bandSel : Option (Nat × Int)
  /-- The lock in progress (R112); reset none. -/
  lock : Option LockRun
  /-- The calibration running (R133); reset none. -/
  cal : Option CalRun
  /-- Calibration records by 2 * kind + port (R133); reset none. -/
  cals : List (Nat × CalRec)
  /-- The transmission in the chain (R109); reset none. -/
  tx : Option Tx
  /-- The two ports, ANT_S and ANT_W. -/
  ports : List Port
  /-- Air time in µs per sub-band, 60 buckets each, newest first (R145); reset empty until a regime is active. -/
  duty : List (Nat × List Nat)
  /-- Elapsed cycles at the start of the newest duty bucket (R145); reset 0. -/
  dutyAt : Nat
  /-- Dwell records (R147); reset none. -/
  dwell : List Dwell
  /-- Elapsed cycles of the last tuner write-back (R122); reset 0. -/
  tunerAt : Nat
  /-- Learnt tuner codes by 8 * port + group, series * 16 + shunt (R122); reset none. -/
  learnt : List (Nat × Nat)
  /-- A port's receive path stays isolated until these elapsed cycles after a ramp-down (R110); reset none. -/
  isoUntil : Option (Nat × Nat)
  /-- Frames planned with the RFE and not yet evaluated, oldest first (R137, R196); reset none. -/
  planned_ : List Planned
  deriving DecidableEq, Repr

/-- The radio front end after reset. -/
def Rfe.reset : Rfe :=
  { entered := 0, heldReq := none, pktDone := none, moving := none, planned := 0, carrier := 0, corr := 0, divider := 0, bandSel := none, lock := none,
    cal := none, cals := [], tx := none, ports := [Port.reset, Port.reset], duty := [], dutyAt := 0, dwell := [], tunerAt := 0, learnt := [], isoUntil := none, planned_ := [] }

/-- A preamble candidate (R170): window, bin, MODE, energy in 0.5 dB above -140 dBm, when first detected and when last reported. -/
structure Cand where
  win : Nat
  bin : Nat
  mode : Nat
  energy : Nat
  det : Nat
  last : Nat
  deriving DecidableEq, Repr

/-- A decoder reservation (R172): window, bin, mode family, and the guard window in ft of local time. -/
structure Rsv where
  win : Nat
  bin : Nat
  fam : Nat
  from_ : Nat
  until_ : Nat
  deriving DecidableEq, Repr

/-- A frame in a decoder (R175): its candidate, when it was attached, the reservation that it serves and the gain flag of R161. -/
structure Busy where
  cand : Cand
  at_ : Nat
  rsv : Option Rsv
  gainStep : Bool
  deriving DecidableEq, Repr

/-- A decoder of the pool (R172). -/
inductive Dec
  | free
  | reserved (r : Rsv)
  | busy (b : Busy)
  deriving DecidableEq, Repr

/-- A converter lane (R159, R160): when it was last calibrated, below 8.0 bits in that calibration, calibrated and not yet exchanged. -/
structure Lane where
  calAt : Option Nat
  low : Bool
  ready : Bool
  deriving DecidableEq, Repr

/-- A delivered frame in the receive ring: the record's fields (R177) and the PSDU without its FCS. -/
structure RxRec where
  ts : Nat
  mode : Nat
  flags : Nat
  bin : Nat
  dec : Nat
  rssi : Nat
  snr : Int
  evm : Nat
  lqi : Nat
  cfo : Int
  freq : Nat
  tsq : Nat
  psdu : List Nat
  deriving DecidableEq, Repr

/-- The receiver beside its registers (04_wideband_receiver.md). -/
structure Rxc where
  /-- The nine lanes (R156). -/
  lanes : List Lane
  /-- Elapsed cycles of the last lane exchange (R159); reset 0. -/
  rotAt : Nat
  /-- Candidates waiting, oldest first, at most 64 (R174); reset none. -/
  cands : List Cand
  /-- The 32 decoders (R172). -/
  decs : List Dec
  /-- Reservations whose guard window has begun with no decoder free, oldest first (R172); reset none. -/
  rsvWait : List Rsv
  /-- Reservations that a sequencer has made and whose window is to come (R196); reset none. -/
  rsvs : List Rsv
  /-- Elapsed cycles of the last EV114 (R171); reset none. -/
  ev114 : Option Nat
  /-- The last marked sample: elapsed cycles and its local Firn time (R178); reset none. -/
  mark : Option (Nat × Nat)
  /-- The receive ring, oldest first (R175, R177); reset empty. -/
  ring : List RxRec
  deriving DecidableEq, Repr

/-- The receiver after reset. -/
def Rxc.reset : Rxc :=
  { lanes := List.replicate 9 ⟨none, false, false⟩, rotAt := 0, cands := [], decs := List.replicate 32 .free, rsvWait := [], rsvs := [], ev114 := none,
    mark := none, ring := [] }

/-- Where a queued frame goes (R275): broadcast on a radio port, a connection to a child by its number, the upstream neighbour whichever it is (R273), or the wired peer of a wired port. -/
inductive Hop | bcast | conn (c : Nat) | up | wired
  deriving DecidableEq, Repr

/-- A frame in an egress queue (R275 to R284). -/
structure QFrame where
  hop : Hop
  /-- Queue 0 to 15 (R277). -/
  queue : Nat
  /-- Length of the link frame that carries it (R281). -/
  len : Nat
  /-- A FLOOD frame's PSDU, or a mesh PDU. -/
  data : List Nat
  /-- Elapsed cycles at admission (R279). -/
  at_ : Nat
  /-- Relay deadline in elapsed cycles (R263). -/
  deadline : Option Nat
  /-- Start and finish tags (R284). -/
  tagS : Nat
  tagF : Nat
  deriving DecidableEq, Repr

/-- A token bucket: tokens in 2^-16 octet or frame, and elapsed cycles of its last update (R269, R280). -/
structure Bucket where
  tokens : Nat
  last : Nat
  deriving DecidableEq, Repr

/-- An egress port (R274, R280, R283, R284). -/
structure Egress where
  /-- Frames in arrival order. -/
  frames : List QFrame
  /-- Deficits D[0..15]. -/
  deficit : List Nat
  /-- Pointers p[0..3]. -/
  ptr : List Nat
  /-- Virtual times V[0..3]. -/
  vt : List Nat
  /-- Last finish tags LASTF[0..15]. -/
  lastF : List Nat
  /-- Queue buckets; a queue not yet used since configuration is full. -/
  qb : List (Nat × Bucket)
  /-- The port's bucket; full when not used since configuration. -/
  pb : Option Bucket
  deriving DecidableEq, Repr

/-- A port after reset. -/
def Egress.reset : Egress := { frames := [], deficit := List.replicate 16 0, ptr := List.replicate 4 0, vt := List.replicate 4 0, lastF := List.replicate 16 0, qb := [], pb := none }

/-- A seen-cache entry (R259): message ID MSRC * 2^24 + MSEQ, elapsed cycles at insertion. Its check is part of the step that makes it, so
an entry between steps is LIVE (log entry 20). -/
structure Seen where
  id : Nat
  at_ : Nat
  deriving DecidableEq, Repr

/-- A relay in its back-off (R262, R263). -/
structure Relay where
  id : Nat
  /-- The accepted FLOOD frame's PSDU. -/
  psdu : List Nat
  dups : Nat
  /-- Elapsed cycles at which the back-off expires. -/
  due : Nat
  deriving DecidableEq, Repr

/-- A neighbour (R271): a connection, or the wired peer of a wired port (0 A, 1 B). -/
inductive Nb | conn (c : Nat) | wired (p : Nat)
  deriving DecidableEq, Repr

/-- A route (R271). -/
structure Route where
  dest : Nat
  nb : Nb
  at_ : Nat
  deriving DecidableEq, Repr

/-- A flood source's bucket in 2^-16 frame (R269). -/
structure Source where
  src : Nat
  bucket : Bucket
  deriving DecidableEq, Repr

/-- Mesh forwarding beside its registers (06_mesh_forwarding.md). -/
structure Msh where
  /-- The node's own MSEQ, 24 bits (R258); a fresh random value after reset: see `State.reset`. -/
  mseq : Nat
  /-- The seen cache, oldest first (R259); reset empty. -/
  seen : List Seen
  /-- Relays in back-off (R262); reset none. -/
  relays : List Relay
  /-- Routes, least recently refreshed first (R271); reset none. -/
  routes : List Route
  /-- Ingress sources, least recently seen first (R269); reset none. -/
  sources : List Source
  /-- Egress ports 0 to 3 (R274). -/
  ports : List Egress
  /-- The node's group list, at most 16 (R267); reset none. -/
  groups : List Nat
  /-- A wired peer that Glety marks upstream (R271, R308): port 0 or 1; reset none. -/
  upWired : Option Nat
  deriving DecidableEq, Repr

/-- Mesh forwarding after reset. -/
def Msh.reset : Msh := { mseq := 0, seen := [], relays := [], routes := [], sources := [], ports := List.replicate 4 Egress.reset, groups := [], upWired := none }

/-- A neighbour whose beacons the node keeps a record of (R76, R220). -/
structure Beacon where
  addr : Nat
  net : Nat
  /-- PCOST, CAPS, HOPS, ERRBND and NCFG of its last beacon (R203). -/
  pcost : Nat
  caps : Nat
  hops : Nat
  errb : Nat
  ncfg : Nat
  /-- The extension modes bit LM of its last frame (R200). -/
  lm : Bool
  /-- LQI of its last beacons, newest first, at most 8 (R220). -/
  lqis : List Nat
  /-- Carrier in kHz, mode, and ft of local time of its last beacon. -/
  freq : Nat
  mode : Nat
  at_ : Nat
  /-- Beacons in a row at which it cost at least 2 less than the parent (R220). -/
  lead : Nat
  /-- It has failed as a candidate (R221, R222). -/
  failed : Bool
  deriving DecidableEq, Repr

/-- A PDU on its way over a connection (R226): its payload, whether it is a control payload, and times sent. -/
structure OutPdu where
  data : List Nat
  ctrl : Bool
  sends : Nat
  deriving DecidableEq, Repr

/-- A connection update that waits for its INSTANT (R228): opcode 2 CHMAP, 3 PARAM, 4 BAND; the PDU's body. -/
structure Upd where
  op : Nat
  instant : Nat
  body : List Nat
  deriving DecidableEq, Repr

/-- A connection (R195, R222 to R233). -/
structure Conn where
  id : Nat
  slot : Nat
  peer : Nat
  /-- This node is the child end. -/
  child : Bool
  /-- The peer is a Leaf (R266). -/
  leaf : Bool
  /-- Anchor base in ft and the k it stands for (R224, R228). -/
  base : Nat
  k0 : Nat
  /-- The next event's k; its ECNT is k mod 2^32. -/
  k : Nat
  interval : Nat
  timeout : Nat
  cemax : Nat
  band : Nat
  mode : Nat
  seed : Nat
  mapS : Nat
  mapW : Nat
  /-- Re-anchoring: the residuals added up, in ft (R224), and the last three, newest first (R231). -/
  resid : Int
  residuals : List Int
  /-- Established (R222); events run since it was made. -/
  up : Bool
  events : Nat
  /-- Last contact in ft, the local ERRBND then, the peer's latest ERRBND and DCLS, consecutive misses (R233). -/
  contact : Nat
  localErr : Nat
  peerErr : Nat
  peerDcls : Nat
  misses : Nat
  /-- SEQ of the last PDU sent, and the SEQ expected (R226). -/
  tx : Nat
  rx : Nat
  out : Option OutPdu
  /-- An event is open; its expected frame has come; the peer's last MD and the own last MD (R227). -/
  open_ : Bool
  heard : Bool
  /-- A valid frame has come in this event (R252). -/
  got : Bool
  ownMd : Bool
  /-- Check values failed in a row (R231). -/
  micRun : Nat
  /-- Control PDUs to send (R206), and updates that wait. -/
  ctl : List (List Nat)
  upd : List Upd
  /-- t1: delimiter end of the child's last reply; RXTS: the parent's receive time of it (R229). -/
  lastReply : Nat
  rxts : Nat
  /-- Elapsed cycles and k of the last TIME PDU (R229). -/
  timeAt : Nat
  timeK : Nat
  /-- The child's group list (R266). -/
  groups : List Nat
  /-- LQI of the peer's last frame (R348). -/
  lqi : Nat
  deriving DecidableEq, Repr

/-- A dropped child's record (R239). -/
structure Dropped where
  conn : Conn
  /-- Elapsed cycles of the drop. -/
  at_ : Nat
  /-- The wake pattern is still to send; steps of the resume schedule left (one per beacon and one more, R239) and the elapsed
  cycles of the next. -/
  pattern : Bool
  beacons : Nat
  next : Nat
  deriving DecidableEq, Repr

/-- A join or connect attempt (R221, R222): the parent, tries so far, elapsed cycles sent, the nonce, and not before. -/
structure Attempt where
  target : Nat
  tries : Nat
  sentAt : Option Nat
  nonce : Nat
  notBefore : Nat
  deriving DecidableEq, Repr

/-- A join request that a parent forwards (R221): long identity, nonce, carrier and mode of the request. -/
structure JoinFwd where
  longid : Nat
  nonce : Nat
  freq : Nat
  mode : Nat
  deriving DecidableEq, Repr

/-- A network key epoch (R532, R534): epoch, FROM, key, and the ENONCE of its enciphered CONN frames (R533). -/
structure Epoch where
  epoch : Nat
  from_ : Nat
  key : List Nat
  enonce : Nat
  deriving DecidableEq, Repr

/-- A child's recovery after a drop (R237, R238): the former parent, the reason, ft of the drop, listening step, and whether the next
time stamp from it starts acquisition. -/
structure Recover where
  peer : Nat
  reason : Nat
  at_ : Nat
  step : Nat
  firstSample : Bool
  deriving DecidableEq, Repr

/-- A wake of a sleeping child on a live connection (R245): CONN frames left, elapsed cycles of the next. -/
structure WakeTry where
  conn : Nat
  left : Nat
  next : Nat
  /-- The mailbox operation it answers: mailbox and tag (R348). -/
  op : Option (Nat × Nat)
  deriving DecidableEq, Repr

/-- A configuration that waits for its instant (R217, R354): the object, the instant in ft, carried by a beacon already. -/
structure NextCfg where
  obj : List Nat
  instant : Nat
  sent : Bool
  deriving DecidableEq, Repr

/-- The link controller beside its registers (05_link_controller.md). -/
structure Lnk where
  /-- Beacon records (R220); reset none. -/
  cands : List Beacon
  /-- Connections (R195); reset none. -/
  conns : List Conn
  /-- The next connection number. -/
  nextConn : Nat
  /-- Dropped children's records (R239); reset none. -/
  dropped : List Dropped
  /-- Network key epochs held, at most three (R534); reset none. -/
  epochs : List Epoch
  /-- The provisioning record: the network join key and the networks to join (R521, R698); reset none. -/
  joinKey : Option (List Nat)
  networks : List Nat
  /-- Attempts to join and to connect; reset none. -/
  join : Option Attempt
  connect : Option Attempt
  /-- Join requests forwarded; reset none. -/
  joins : List JoinFwd
  /-- The wake address and the group wake address (R243); reset 0. -/
  waddr : Nat
  gaddr : Nat
  /-- Wake addresses of the children that joined through this node, by short address (R242). -/
  waddrs : List (Nat × Nat)
  /-- Index m of the last beacon sent plus 1 (R215); reset 0. -/
  nextM : Nat
  /-- Tracked beacon reception: index m expected next; ft of the last contact; local and peer ERRBND then (R218). -/
  trackM : Nat
  trackAt : Nat
  trackErr : Nat
  trackPeerErr : Nat
  trackDcls : Nat
  /-- Elapsed cycles at entry into beacon-lost (R219); reset none. -/
  lostAt : Option Nat
  /-- STATUS records for the parent (R230): TAG, T, LATEBY word; at most 64; reset none. -/
  status : List (Nat × Nat × Nat)
  recover : Option Recover
  wake : Option WakeTry
  /-- Elapsed cycles of the last wake match with no frame since (R246); reset none. -/
  wakeAt : Option Nat
  /-- The configuration in distribution (R354), and that a newer one is to be fetched (R217). -/
  nextCfg : Option NextCfg
  wantCfg : Bool
  deriving DecidableEq, Repr

/-- The link controller after reset. -/
def Lnk.reset : Lnk :=
  { cands := [], conns := [], nextConn := 0, dropped := [], epochs := [], joinKey := none, networks := [], join := none, connect := none, joins := [],
    waddr := 0, gaddr := 0, waddrs := [], nextM := 0, trackM := 0, trackAt := 0, trackErr := 0, trackPeerErr := 0, trackDcls := 0, lostAt := none, status := [],
    recover := none, wake := none, wakeAt := none, nextCfg := none, wantCfg := false }

/-- A peer-delay exchange in progress (R312, R313): sequence, t1, when sent in elapsed cycles, and t2 and t4 once the response has come. -/
structure PdEx where
  seq : Nat
  t1 : Nat
  at_ : Nat
  resp : Option (Nat × Nat)
  deriving DecidableEq, Repr

/-- A PTP message received (R310): messageType, sequenceId, the requester's port identity, the timestamp field in ft, the ingress time. -/
structure PtpIn where
  kind : Nat
  seq : Nat
  ident : List Nat
  stamp : Nat
  ts : Nat
  deriving DecidableEq, Repr

/-- A wired port beside its registers (07_wired_ports.md). -/
structure Wpt where
  /-- Bring-up phase (R297): 0 down, 1 negotiate, 2 train, 3 link up, 4 linked; reset 0. -/
  phase : Nat
  /-- Elapsed cycles at the start of the phase. -/
  since : Nat
  /-- The port table's entry in force since the last link start, 8 octets (R314). -/
  entry : List Nat
  /-- Elapsed cycles at which LINK set. -/
  upAt : Nat
  /-- The peer's MAC address (R302); none until learnt. -/
  mac : Option (List Nat)
  /-- The peer's last BEACON: short address, PCOST, CAPS, ERRBND, HOPS; elapsed cycles; beacons in a row ahead of the upstream (R308). -/
  peer : Nat
  pcost : Nat
  caps : Nat
  errb : Nat
  hops : Nat
  bcnAt : Nat
  lead : Nat
  /-- BSEQ of the next own beacon, elapsed cycles of the last one (R304). -/
  bseq : Nat
  sentAt : Option Nat
  /-- WSEQ of the last WDATA frame sent, and of the last accepted (R306). -/
  wseq : Nat
  wrx : Option Nat
  /-- The frame the MAC is sending, and frames of the link controller behind it (R275). -/
  tx : Option (List Nat)
  txq : List (List Nat)
  /-- Bad measurements in a row (R298), good ones in a row and the worst class among them (R301). -/
  bad : Nat
  good : Nat
  goodClass : Nat
  /-- Peer delay (R312, R313): next sequence, the exchange, elapsed cycles of the last request, exchanges done since LINK, lost and done in a
  row, the averaged delay in ft, and messages waiting. -/
  pdSeq : Nat
  pd : Option PdEx
  pdAt : Option Nat
  pdDone : Nat
  pdLost : Nat
  pdRow : Nat
  delay : Int
  ptp : List PtpIn
  deriving DecidableEq, Repr

/-- A wired port after reset. -/
def Wpt.reset : Wpt :=
  { phase := 0, since := 0, entry := [1, 0, 0, 0, 0, 0, 0, 0], upAt := 0, mac := none, peer := 0xFFFF, pcost := 255, caps := 0, errb := 0xFFFF, hops := 31, bcnAt := 0, lead := 0,
    bseq := 0, sentAt := none, wseq := 0, wrx := none, tx := none, txq := [], bad := 0, good := 0, goodClass := 0, pdSeq := 0, pd := none, pdAt := none, pdDone := 0, pdLost := 0,
    pdRow := 0, delay := 0, ptp := [] }

/-- The detections in one row of SRAM or TCM (R440): its number (address / 128), elapsed cycles of the detections of the last 24 h, newest
first, and the bytes written since the newest. -/
structure RowDet where
  row : Nat
  times : List Nat
  written : List Nat
  deriving DecidableEq, Repr

/-- Parity, repair and code marks of the SRAM and TCM arrays (R436 to R443, R505). -/
structure Par where
  /-- Bytes whose stored parity fails (R436), by address; reset none. -/
  bad : List Nat
  /-- Rows (address / 128) that hold code the loader put there and nothing else has written (R438); reset none. -/
  backed : List Nat
  /-- Rows marked execute-only (R505); reset none. -/
  xo : List Nat
  /-- Rows with detections (R440); reset none. -/
  dets : List RowDet
  /-- Spare rows in use, by array number of SYS_SPARE.WORST (R440, R464); reset none (a new part). -/
  spares : List (Nat × Nat)
  /-- Rows replaced (R440), by row number: the repair map's SRAM part; reset none. -/
  remap : List Nat
  /-- The patrol's next row in each array, by array number (R441); reset 0. -/
  patrol : List (Nat × Nat)
  /-- Elapsed cycles of the last EV156 (R437); reset none. -/
  ev156 : Option Nat
  deriving DecidableEq, Repr

/-- The arrays after reset. -/
def Par.reset : Par := { bad := [], backed := [], xo := [], dets := [], spares := [], remap := [], patrol := [], ev156 := none }

/-- A write-queue entry of the DRAM controller (R448): block number, valid bytes by offset, the first writer's initiator, elapsed cycles at arrival. -/
structure WqEntry where
  block : Nat
  bytes : List (Nat × Nat)
  src : Nat
  at_ : Nat
  deriving DecidableEq, Repr

/-- A read waiting at a DRAM port (R452 to R454): initiator, address, bytes, elapsed cycles at arrival, and urgency 3 counted. -/
structure DramReq where
  src : Nat
  addr : Nat
  len : Nat
  at_ : Nat
  late : Bool
  deriving DecidableEq, Repr

/-- A read that has been served and that its initiator has not taken yet: no data after a failed check (R447). -/
structure DramRsp where
  src : Nat
  addr : Nat
  data : Option (List Nat)
  deriving DecidableEq, Repr

/-- The DRAM controller beside its registers (11_memory_dram.md). -/
structure Drc where
  /-- The open page of each bank and elapsed cycles of its last access, by bank (R455); reset none open. -/
  pages : List (Nat × (Nat × Nat))
  /-- The write queue, oldest first, at most 32 entries (R448); reset empty. -/
  wq : List WqEntry
  /-- Reads waiting, oldest first (R453); reset none. -/
  reqs : List DramReq
  /-- Reads served and not yet taken; reset none. -/
  rsps : List DramRsp
  /-- Blocks whose stored data fails its check, and of these the ones with the poison code (R445, R449); reset none. -/
  badBlocks : List Nat
  poison : List Nat
  /-- The queue drains from 24 entries down to 8 (R451); reset false. -/
  draining : Bool
  /-- Elapsed cycles at the last refresh of each bank (R457); reset 0. -/
  refAt : List (Nat × Nat)
  /-- Elapsed cycles of the last temperature poll (R457) and of the last DQS measurement (R458); reset 0. -/
  tempAt : Nat
  dqsAt : Nat
  /-- Die temperature at the last full training (R458); reset 25. -/
  trainTemp : Int
  deriving DecidableEq, Repr

/-- The DRAM controller after reset. -/
def Drc.reset : Drc :=
  { pages := [], wq := [], reqs := [], rsps := [], badBlocks := [], poison := [], draining := false, refAt := [], tempAt := 0, dqsAt := 0, trainTemp := 25 }

/-- A failed posted write that its processor has not been told of (R403): address, KIND, and the writes posted since. -/
structure ImpErr where
  addr : Nat
  kind : Nat
  after : Nat
  deriving DecidableEq, Repr

/-- A compact-form core (R369, R371, R372). Its registers are 0 after reset but for `st`, `vbase` and `pc`. -/
structure Core where
  /-- g0 to g15, 32 bits each (R371); reset 0. -/
  g : Vector Word 16
  /-- Program counter (R371); reset the core's reset vector (R369). -/
  pc : Word
  /-- N, Z, C and V of fl (R371); reset 0. -/
  n : Bool
  z : Bool
  c : Bool
  v : Bool
  /-- st: LE, IE and PRIV (R373); reset 1, 0, 1. -/
  le : Bool
  ie : Bool
  priv : Bool
  /-- vbase, epc, est, ecause, eaddr, emb0, emb1, emi, cych (R372); reset the reset vector for vbase, else 0. -/
  vbase : Word
  epc : Word
  est : Word
  ecause : Word
  eaddr : Word
  emb0 : Word
  emb1 : Word
  emi : Word
  cych : Word
  /-- cyc: its 64-bit count at `cycAt` elapsed cycles (R372); reset 0. -/
  cyc0 : Nat
  cycAt : Nat
  /-- Loop registers of the supervisor, levels 0 to 2 (R394); reset 0. -/
  ls : Vector Word 3
  lend : Vector Word 3
  lc : Vector Word 3
  /-- The core is held in reset (R50). -/
  held : Bool
  /-- WFI has stopped its issue (R383); reset false. -/
  wfi : Bool
  /-- The debug port has halted it (R771), or Glety a faulted sequencer (R198); reset false. -/
  halted : Bool
  /-- The debug port lets it issue one instruction (R771); reset false. -/
  oneStep : Bool
  /-- Failed posted writes not yet reported, oldest first (R403); reset none. -/
  imprecise : List ImpErr
  /-- Lines of the instruction cache, by address / 32, oldest first (R370); reset none. -/
  icache : List Nat
  /-- A boundary at which an interrupt can be taken: false only while a load waits for its data (R401); reset true. -/
  boundary : Bool
  deriving DecidableEq, Repr

/-- A compact-form core in reset, with its reset vector. -/
def Core.reset (vec : Nat) : Core :=
  { g := Vector.replicate 16 0, pc := BitVec.ofNat 32 vec, n := false, z := false, c := false, v := false, le := true, ie := false, priv := true,
    vbase := BitVec.ofNat 32 vec, epc := 0, est := 0, ecause := 0, eaddr := 0, emb0 := 0, emb1 := 0, emi := 0, cych := 0, cyc0 := 0, cycAt := 0,
    ls := Vector.replicate 3 0, lend := Vector.replicate 3 0, lc := Vector.replicate 3 0, held := true, wfi := false, halted := false, oneStep := false, imprecise := [], icache := [],
    boundary := true }

/-- The registers of a signal core (R410, R411); 0 after reset but for p0, `st`, `vbase` and `pc`. -/
structure SRegs where
  /-- v0 to v31, 64 bits each. -/
  v : Vector Dword 32
  /-- a0 to a15, 32 bits each. -/
  a : Vector Word 16
  /-- p0 to p7; p0 reads 1. -/
  p : Vector Bool 8
  pc : Word
  le : Bool
  ie : Bool
  priv : Bool
  vbase : Word
  epc : Word
  est : Word
  ecause : Word
  eaddr : Word
  emb0 : Word
  emb1 : Word
  emi : Word
  emr0 : Word
  emr1 : Word
  cych : Word
  /-- Circular-buffer start and length of a0 to a3. -/
  cb : Vector Word 4
  cl : Vector Word 4
  ls : Vector Word 3
  lend : Vector Word 3
  lc : Vector Word 3
  /-- ERETX is about to run the trapped bundle again (R424): the address of the ERETX bundle and st there; reset none. -/
  xret : Option (Nat × Nat)
  deriving DecidableEq, Repr

/-- The registers of a signal core after reset. -/
def SRegs.reset (vec : Nat) : SRegs :=
  { v := Vector.replicate 32 0, a := Vector.replicate 16 0, p := (Vector.replicate 8 false).set 0 true, pc := BitVec.ofNat 32 vec, le := true, ie := false, priv := true,
    vbase := BitVec.ofNat 32 vec, epc := 0, est := 0, ecause := 0, eaddr := 0, emb0 := 0, emb1 := 0, emi := 0, emr0 := 0, emr1 := 0, cych := 0,
    cb := Vector.replicate 4 0, cl := Vector.replicate 4 0, ls := Vector.replicate 3 0, lend := Vector.replicate 3 0, lc := Vector.replicate 3 0,
    xret := none }

/-- A signal core (R406). -/
structure SigCore where
  regs : SRegs
  /-- cyc at `cycAt` elapsed cycles (R372); reset 0. -/
  cyc0 : Nat
  cycAt : Nat
  held : Bool
  wfi : Bool
  imprecise : List ImpErr
  /-- A boundary at which an interrupt can be taken (R422); reset true. -/
  boundary : Bool
  deriving DecidableEq, Repr

/-- A signal core in reset. -/
def SigCore.reset (vec : Nat) : SigCore := { regs := SRegs.reset vec, cyc0 := 0, cycAt := 0, held := true, wfi := false, imprecise := [], boundary := true }

/-- The kernel that runs on signal core 1 (R430). -/
structure KernelRun where
  k : Nat
  /-- The registers set aside: Glety's while the kernel is on the core, the kernel's while it is suspended (R430). -/
  away : SRegs
  /-- It has used its BUDGET in this period (R430). -/
  suspended : Bool
  /-- The runner's return address, in lk at the entry (R430): a free value. -/
  ret : Word
  /-- The core's cyc when the kernel last came onto the core, and when the period (or the kernel in it) began; cycles of the run before `onAt`, and of this
  period before it. -/
  onAt : Nat
  before : Nat
  used : Nat
  /-- Periods touched (R426). -/
  periods : Nat
  deriving DecidableEq, Repr

/-- The kernel runner (R425 to R432). -/
structure Runner where
  /-- Queued kernels, oldest first (R429); reset none. -/
  queue : List Nat
  /-- The running kernel; reset none. -/
  run : Option KernelRun
  /-- BUDGET in force in this period (R428); reset 0. -/
  budget : Nat
  /-- The period, local Firn time / 2^20, whose boundary has been taken (R427); reset 0. -/
  period : Nat
  deriving DecidableEq, Repr

/-- The runner after reset. -/
def Runner.reset : Runner := { queue := [], run := none, budget := 0, period := 0 }

/-- A descriptor the controller has taken and not completed (R482): queue 0 code loader, 1 supervisor, 2 mirror, 3 application. -/
structure FDesc where
  q : Nat
  idx : Nat
  op : Nat
  flags : Nat
  tag : Nat
  part : Nat
  npage : Nat
  page : Nat
  lblk : Nat
  buf : Nat
  meta_ : Nat
  /-- Elapsed cycles when it was taken. -/
  at_ : Nat
  deriving DecidableEq, Repr

/-- An operation on a plane (R484, R497): its descriptor, elapsed cycles at its start, the suspensions of its erase, and since when it is suspended. -/
structure FRun where
  d : FDesc
  since : Nat
  susps : Nat
  susp : Option Nat
  deriving DecidableEq, Repr

/-- A programmed page: 4,096 data bytes and 16 bytes of META (R471). -/
structure FPage where
  data : List Nat
  meta_ : List Nat
  deriving DecidableEq, Repr

/-- A Moraine entry (R500): physical block, the store-logical block it served, cause 1 program or 2 erase, partition. -/
structure Moraine where
  pblk : Nat
  lblk : Nat
  cause : Nat
  part : Nat
  deriving DecidableEq, Repr

/-- A partition from index 4 on (R475 to R477): first store-logical block, blocks, ACCESS. -/
structure Part where
  first : Nat
  nblk : Nat
  access : Nat
  deriving DecidableEq, Repr

/-- A fetch that waits for its row (R438): initiator, row, elapsed cycles, and the outcome of the code loader's read once it has come. -/
structure Refetch where
  ini : Nat
  row : Nat
  at_ : Nat
  done : Option Bool
  deriving DecidableEq, Repr

/-- Wear figures of a block group (R499): programs, pulses of them, reads, reads that needed a retry set. -/
structure GroupWear where
  progs : Nat
  pulses : Nat
  reads : Nat
  retries : Nat
  deriving DecidableEq, Repr

/-- The flash store and its controller beside its registers (12_flash_store.md). Physical block 1,024 * plane + block. -/
structure Flc where
  /-- Programmed pages by 64 * physical block + page; a page not listed is erased (R471); reset the factory's, none listed. -/
  pages : List (Nat × FPage)
  /-- Store-logical blocks that no longer lie at their factory block, with their physical block (R473); reset none. -/
  map : List (Nat × Nat)
  /-- The spare pool (R473): physical blocks, at most 120; reset 60 of each plane. -/
  pool : List Nat
  /-- The Moraine table, oldest first (R500); reset none. -/
  moraine : List Moraine
  /-- Erase counts by physical block (R476); reset 0. -/
  erases : List (Nat × Nat)
  /-- Next-page pointers by physical block (R494); reset 0. -/
  ptrs : List (Nat × Nat)
  /-- Descriptors taken and not completed, in order; reset none. -/
  taken : List FDesc
  /-- The operation on each plane; reset none. -/
  run : List (Nat × FRun)
  /-- Store-logical blocks marked for refresh (R499); reset none. -/
  marks : List Nat
  /-- Store-logical blocks replaced in the field (R476); reset none. -/
  replaced : List Nat
  /-- Partitions from index 4 on (R475); reset the shipped one. -/
  parts : List Part
  /-- Sources of backed rows, by row: 64 * store-logical block + page, and the offset in it (R438); reset none. -/
  sources : List (Nat × (Nat × Nat))
  /-- Fetches that wait for a reload; reset none. -/
  refetch : List Refetch
  /-- Block-group figures by group (R499); reset 0. -/
  groups : List (Nat × GroupWear)
  /-- Elapsed cycles of the last scrub of partitions 0 to 3 (R502); reset 0. -/
  scrubAt : Nat
  deriving DecidableEq, Repr

/-- The store of a new part. -/
def Flc.reset : Flc :=
  { pages := [], map := [], pool := (List.range 60).map (· + 964) ++ (List.range 60).map (· + 1988), moraine := [], erases := [], ptrs := [], taken := [], run := [], marks := [],
    replaced := [], parts := [⟨288, 1632, 7⟩], sources := [], refetch := [], groups := [], scrubAt := 0 }

/-- A frame in a receive FIFO (R607, R623): its words still to pop as (bits, value), bits kept, truncated. -/
structure SpxFrame where
  words : List (Nat × Nat)
  bits : Nat
  overlen : Bool
  deriving DecidableEq, Repr

/-- A master frame in progress (R604 to R606): words still to transmit as (bits used, time in 10 ns units), when the next word boundary is
reached in 10 ns units since power-on, the time after the last transmitted word to the end of the hold, and bits to receive. -/
structure SpxRun where
  need : List (Nat × Nat)
  at_ : Nat
  tail : Nat
  rxBits : Nat
  deriving DecidableEq, Repr

/-- A serial port beside its registers (15_serial_ports.md). -/
structure Spx where
  /-- The transmit FIFO, 2,048 bytes: words as (bits, value); reset empty. -/
  tx : List (Nat × Nat)
  /-- The receive FIFO, 2,048 bytes and 8 frames; reset empty. -/
  rx : List SpxFrame
  /-- The master frame in progress; reset none. -/
  run : Option SpxRun
  /-- Its select was low: a slave frame is open (R607); reset false. -/
  slave : Bool
  /-- End of the last gap in 10 ns units (R606); reset 0. -/
  gapEnd : Nat
  /-- The lanes' last word sent, for the pins (R603); reset none. -/
  sent : List (Nat × Nat)
  deriving DecidableEq, Repr

/-- A port after reset. -/
def Spx.reset : Spx := { tx := [], rx := [], run := none, slave := false, gapEnd := 0, sent := [] }

/-- A DALI forward frame (R719, R749): its bits, whether it has 24, whether a backward frame is expected, whether it is the service's
QUERY STATUS poll, and elapsed cycles when it was queued or launched. -/
structure DaliFrame where
  frame : Nat
  long : Bool
  bw : Bool
  poll : Bool
  at_ : Nat
  deriving DecidableEq, Repr

/-- The lamp block beside its registers (R716 to R722). -/
structure Lmp where
  /-- Elapsed cycles at which each PWM's running period train started (R717, R720); reset 0. -/
  pwmAt : Vector Nat 2
  /-- Elapsed cycles of the pending APPLY write (R720). -/
  applyAt : Nat
  /-- The DALI frame queued or on the bus (R749); reset none. -/
  dali : Option DaliFrame
  /-- The queued frame waits for a launch (R720, R749). -/
  daliWait : Bool
  /-- The backward window is open for this frame (R719); reset none. -/
  window : Option DaliFrame
  /-- Elapsed cycles of the last conversion of PHOTO (R721). -/
  photoAt : Nat
  deriving DecidableEq, Repr

/-- The lamp block after reset. -/
def Lmp.reset : Lmp := { pwmAt := Vector.replicate 2 0, applyAt := 0, dali := none, daliWait := false, window := none, photoAt := 0 }

/-- A level action (R726 to R728): where it comes from (1 schedule, 2 group command, 3 LUM_LEVEL, 4 photocell, 0 failsafe), its group, tag,
effective time in ft, level, fade in ms, order of receipt, and the comparator that carries it. -/
structure LumAct where
  src : Nat
  group : Nat
  tag : Nat
  t : Nat
  level : Nat
  fade : Nat
  order : Nat
  cmp : Option Nat
  deriving DecidableEq, Repr

/-- A fade under way (R726): its target, end in ft, elapsed cycles of the last PWM and DAC step and of the last DALI step. -/
structure LumFade where
  target : Nat
  end_ : Nat
  at_ : Nat
  daliAt : Nat
  deriving DecidableEq, Repr

/-- The luminaire service (R723 to R739). -/
structure Lum where
  /-- The stored schedule object; empty where none is stored (R731). -/
  sched : List Nat
  /-- Timed actions that wait: today's schedule entries and at most eight commands (R728, R732). -/
  acts : List LumAct
  /-- The local day whose entries are computed (R732); none until the first. -/
  day : Option Nat
  /-- The source in force (R728). -/
  force : LumAct
  /-- Group commands that have taken effect or been reported, as (GROUP, T): a repeat after T is ignored (R728). -/
  past : List (Nat × Nat)
  /-- The next order of receipt. -/
  order : Nat
  /-- The next Glety comparator of 2 to 7 (R726). -/
  nextCmp : Nat
  /-- The level L the outputs stand at, and L' (R725). -/
  level : Nat
  levelOut : Nat
  fade : Option LumFade
  /-- The CLO factor F in 0.1 % (R733). -/
  factor : Nat
  /-- Burning time in FIRN cycles, and elapsed cycles up to which it is counted (R733). -/
  burn : Nat
  burnAt : Nat
  /-- The count of minutes in partition 0, and elapsed cycles of the last hourly update. -/
  hours : Nat
  cloAt : Nat
  /-- The level byte the service still has to send over DALI (R725). -/
  arc : Option Nat
  /-- Elapsed cycles of the last poll, polls in a row without an answer, and the gear's failure bits (R737). -/
  pollAt : Nat
  misses : Nat
  gear : Bool
  /-- Photocell holds: entry index, elapsed cycles since VALUE is beyond its threshold, and whether it has been applied (R732). -/
  photo : List (Nat × Nat × Bool)
  /-- Elapsed cycles since each fault bit's condition differs from the bit (R737). -/
  fsince : List (Nat × Nat)
  /-- Power in 0.1 W, voltage in 0.1 V, current in mA of the last block (R737). -/
  power : Nat
  vrms : Nat
  irms : Nat
  /-- Energy in units of 0.1 W for 16 ms (2,250,000 are 1 Wh), and its highest power, voltage sum and blocks since the last METER PDU (R738). -/
  energy : Nat
  peak : Nat
  vsum : Nat
  vcount : Nat
  /-- Voltages of the blocks of the last 24 hours, oldest first (R737). -/
  vhist : List Nat
  /-- Elapsed cycles of the last KIND 2 report and of the last METER PDU (R738). -/
  repAt : Nat
  metAt : Nat
  /-- The last system reset found SYS_RSTCAUSE.BKPLOST set (R729). -/
  bkpLost : Bool
  /-- The failsafe level is in force (R729). -/
  failsafe : Bool
  /-- The service has started at the end of boot phase 7 (R730). -/
  started : Bool
  deriving DecidableEq, Repr

/-- No action. -/
def LumAct.none : LumAct := { src := 0, group := 0, tag := 0, t := 0, level := 0, fade := 0, order := 0, cmp := Option.none }

/-- The luminaire service of a new part. -/
def Lum.reset : Lum :=
  { sched := [], acts := [], day := none, force := LumAct.none, past := [], order := 1, nextCmp := 2, level := 0, levelOut := 0, fade := none, factor := 1000, burn := 0, burnAt := 0,
    hours := 0, cloAt := 0, arc := none, pollAt := 0, misses := 0, gear := false, photo := [], fsince := [], power := 0, vrms := 0, irms := 0, energy := 0, peak := 0, vsum := 0,
    vcount := 0, vhist := [], repAt := 0, metAt := 0, bkpLost := false, failsafe := false, started := false }

/-- A registry entry (R742): `state` 0 admitted, 1 joined, 2 reporting (3 and 4 follow from the age and FAULTS); elapsed cycles of the
last report and of the last sign of life. -/
structure CoNode where
  short : Nat
  longid : Nat
  state : Nat
  parent : Nat
  hops : Nat
  groups : List Nat
  level : Nat
  sver : Nat
  faults : Nat
  hours : Nat
  energy : Nat
  repAt : Nat
  heardAt : Nat
  deriving DecidableEq, Repr

/-- A group command that collects its records (R743): the mailbox operation, group, tag, T and end in ft, and the members that reported. -/
structure CoCmd where
  mb : Nat
  op : Nat
  group : Nat
  tag : Nat
  t : Nat
  end_ : Nat
  ontime : List Nat
  late : List Nat
  deriving DecidableEq, Repr

/-- One member of a dispatch (R744): times sent, elapsed cycles of the last send, answered with the object's SVER. -/
structure CoMember where
  short : Nat
  sends : Nat
  at_ : Nat
  served : Bool
  deriving DecidableEq, Repr

/-- A dispatch under way (R744). -/
structure CoDisp where
  mb : Nat
  op : Nat
  obj : List Nat
  members : List CoMember
  deriving DecidableEq, Repr

/-- The coordinator service (R740 to R744). -/
structure Co where
  nodes : List CoNode
  admitted : List Nat
  cmds : List CoCmd
  disps : List CoDisp
  /-- The node is its network's single coordinator (R740); the spec names no command that makes it so (log entry 27). -/
  single : Bool
  /-- The copies in partition 0 and elapsed cycles of the last timed save (R740). -/
  savedNodes : List CoNode
  savedAdmit : List Nat
  saveAt : Nat
  deriving DecidableEq, Repr

/-- The coordinator service of a new part. -/
def Co.reset : Co := { single := false, nodes := [], admitted := [], cmds := [], disps := [], savedNodes := [], savedAdmit := [], saveAt := 0 }

/-- What the Fumarole monitors and the re-planner keep (R654 to R661, R665). -/
structure Age where
  /-- Ceiling clocks of islands 5 to 12 in kHz (R656, R661). -/
  ceil : List Nat
  /-- Elapsed cycles since which an island's margin is above GUARDHI (R656), and the islands that lack margin at VMAX and FFLOOR (R663). -/
  high : List (Nat × Nat)
  lacking : List Nat
  /-- Elapsed cycles of the last re-plan, temperature measurement and wear evaluation. -/
  planAt : Nat
  tempAt : Nat
  wearAt : Nat
  /-- Seconds spent in each 10 °C bin from -55 to 125 °C, and its copy kept hourly (R654). -/
  bins : List Nat
  savedBins : List Nat
  binsAt : Nat
  /-- Seconds above THOT and the peak in °C since the last daily summary, and elapsed cycles of that summary (R663). -/
  hotSec : Nat
  peak : Int
  dayAt : Nat
  /-- Wear records written per block group: 1 WARN, 2 ALARM for the pulses (R658). -/
  wear : List (Nat × Nat)
  /-- Read threshold offset per block group, in steps of 12 mV downward (R658). -/
  thresh : List (Nat × Nat)
  /-- The version of the repair map (R665). -/
  rmapVer : Nat
  deriving DecidableEq, Repr

/-- A new part: ceilings of the shipped ageing margin table (R661); repair map version 1. -/
def Age.reset : Age :=
  { ceil := [750000, 250000, 600000, 500000, 400000, 533000, 125000, 100000], high := [], lacking := [], planAt := 0, tempAt := 0, wearAt := 0, bins := List.replicate 18 0,
    savedBins := List.replicate 18 0, binsAt := 0, hotSec := 0, peak := -128, dayAt := 0, wear := [], thresh := [], rmapVer := 1 }

/-- A write on its way to the standby (R671): its order, address, bytes and elapsed cycles. -/
structure MirWrite where
  seq : Nat
  addr : Nat
  data : List Nat
  at_ : Nat
  deriving DecidableEq, Repr

/-- A planned switch (R681): T in ft, the mailbox operation it answers, and where its fence stands: 0 not yet, 1 waiting, 2 complete. -/
structure MirSwitch where
  t : Nat
  op : Option (Nat × Nat)
  fence : Nat
  deriving DecidableEq, Repr

/-- The pair and its mirror link beside their registers (R668 to R682). -/
structure Mir where
  /-- The stored pair configuration object; empty where none is stored (R668). -/
  cfg : List Nat
  /-- Elapsed cycles of the last frame that arrived and of the last heartbeat sent. -/
  lastFrame : Option Nat
  hbAt : Nat
  /-- The last heartbeat sent: ROLE, EPOCH, local time (R670). -/
  hbOut : Nat × Nat × Nat
  /-- The other member's last ROLE and EPOCH. -/
  peerRole : Nat
  peerEpoch : Nat
  /-- Milliseconds in a row with more than 16 code violations per lane: transmit 0 and 1, receive 0 and 1 (R669); lanes dropped. -/
  badMs : List Nat
  dropped : List Nat
  /-- Elapsed cycles at which the link went down, and the last pair beacon heard or sent and the count of those sent (R676, R677). -/
  downAt : Option Nat
  beaconHeard : Option Nat
  beaconAt : Option Nat
  beaconN : Nat
  /-- Elapsed cycles since which both lanes are up (R663). -/
  bothAt : Option Nat
  /-- Mirrored writes not yet applied on the standby, oldest first, dirty 64-byte blocks with their order, and the next order (R671). -/
  out : List MirWrite
  dirty : List (Nat × Nat)
  seq : Nat
  /-- A fence waits for every write before this order (R673). -/
  fence : Option Nat
  switch : Option MirSwitch
  /-- The last role change: its reason and local time (R682), and the percentage copied. -/
  reason : Nat
  lastSw : Nat
  syncProg : Nat
  deriving DecidableEq, Repr

/-- A part without a pair. -/
def Mir.reset : Mir :=
  { cfg := [], lastFrame := none, hbAt := 0, hbOut := (0, 0, 0), peerRole := 0, peerEpoch := 0, badMs := [0, 0, 0, 0], dropped := [], downAt := some 0, beaconHeard := none, beaconAt := none, beaconN := 0,
    bothAt := none, out := [], dirty := [], seq := 0, fence := none, switch := none, reason := 0, lastSw := 0, syncProg := 0 }

/-- What an installed component needs and is (R697): VER, PATCH, MIRIF and six NEED values. -/
structure Comp where
  ver : Nat
  patch : Nat
  mirif : Nat
  need : List Nat
  deriving DecidableEq, Repr

/-- A firmware or application slot (R698): its components by CID with their bytes; empty where it is marked empty. -/
abbrev Slot := List (Nat × Comp × List Nat)

/-- A bundle in the bundle store (R701, R707): its chunks by index, the GROUP of its OFFER, and whether it has been verified. -/
structure Bundle where
  bid : Nat
  total : Nat
  chunks : List (Nat × List Nat)
  group : Option Nat
  verified : Bool
  /-- It has been installed here, is armed, or is being distributed. -/
  busy : Bool
  /-- Index of the next chunk to send on (R705). -/
  sendIdx : Nat
  /-- Elapsed cycles of the last chunk heard (R705). -/
  heardAt : Nat
  deriving DecidableEq, Repr

/-- A distribution under way (R706): its mailbox operation, bundle, group, and the members that reported STATE 4. -/
structure UpdDist where
  mb : Nat
  op : Nat
  bid : Nat
  group : Nat
  have_ : List Nat
  deriving DecidableEq, Repr

/-- A delivered BULK frame that waits for the update service (R268, R704): its source and payload. -/
structure BulkIn where
  src : Nat
  data : List Nat
  deriving DecidableEq, Repr

/-- Field update (R697 to R715). -/
structure UpdSt where
  /-- The bundle store, older first, at most two. -/
  bundles : List Bundle
  /-- STATE, the BID it speaks of, LASTERR and T (R715). -/
  state : Nat
  bid : Nat
  lastErr : Nat
  t : Nat
  /-- The installed set I by CID (R700). -/
  inst : List (Nat × Comp)
  /-- Firmware slots A and B, application slots A and B. -/
  fw : List Slot
  app : List Slot
  /-- Tables staged by an install, and the tables they replace in a trial (R698, R711). -/
  staged : List (Nat × TableObj)
  stagedOn : Bool
  replaced : List (Nat × Option TableObj)
  /-- The components that the armed bundle activates, CONFWIN in s, LATEWIN in hours, CUSTCONF, and the bundle's components. -/
  cids : List Nat
  confwin : Nat
  latewin : Nat
  custconf : Bool
  comps : List (Nat × Comp)
  /-- A provisioning record installed and not yet in force (R698): join key and networks. -/
  prov : Option (List Nat × List Nat)
  /-- The set I before the activation, to which a fall back returns; a fall back whose notice is still to post (R711). -/
  oldInst : List (Nat × Comp)
  fell : Bool
  /-- The trial runs since these elapsed cycles; UPD_CONFIRM has come (R711). -/
  trialAt : Option Nat
  confirmed : Bool
  /-- The ACTIVATE is armed (R709). -/
  armed : Bool
  dist : Option UpdDist
  inbox : List BulkIn
  /-- The parent connection's event count at the last REQ, and elapsed cycles of it (R705). -/
  reqK : Nat
  reqAt : Nat
  /-- Children that still have to be given the ACTIVATE (R709): BID and T. -/
  give : Option (Nat × Nat)
  /-- Elapsed cycles of the last card try in recovery, the status word for the host's recovery frames, and the bytes received (R703). -/
  cardAt : Nat
  recStatus : Nat
  recData : List (Nat × List Nat)
  deriving DecidableEq, Repr

/-- A component of the factory: VER 4.1 and no needs (log entry 28). -/
def Comp.factory : Comp := { ver := 0x0401, patch := 0, mirif := 0, need := [0, 0, 0, 0, 0, 0] }

/-- A new part: Glety 4.1 in firmware slot A, nothing else. -/
def UpdSt.reset : UpdSt :=
  { bundles := [], state := 0, bid := 0, lastErr := 0, t := 0, inst := [(2, Comp.factory), (3, Comp.factory), (4, Comp.factory)],
    fw := [[(2, Comp.factory, []), (3, Comp.factory, []), (4, Comp.factory, [])], []], app := [[], []], staged := [], stagedOn := false, replaced := [], cids := [], confwin := 0, latewin := 0,
    custconf := false, comps := [], prov := none, oldInst := [], fell := false, trialAt := none, confirmed := false, armed := false, dist := none, inbox := [], reqK := 0, reqAt := 0, give := none, cardAt := 0, recStatus := 0, recData := [] }

/-- A store write of a table under way (R357, R781): its ID, the object (none for a revert), and the mailbox and tag of its command. -/
structure TblJob where
  tid : Nat
  obj : Option TableObj
  mb : Nat
  tag : Nat
  deriving DecidableEq, Repr

/-- An entry handshake (R633): domain, target, elapsed cycles at its start and at the last asking, the delay reason of the last answer, and (in a Stop) that every
block has answered ACK. -/
structure Hs where
  dom : Nat
  target : Nat
  since : Nat
  asked : Option Nat
  delay : Option Nat
  acked : Bool
  deriving DecidableEq, Repr

/-- A domain on its way up (R637, R638): where it comes from, elapsed cycles at the start, and whether it is a thaw stall. -/
structure Rise where
  dom : Nat
  from_ : Nat
  at_ : Nat
  thaw : Bool
  deriving DecidableEq, Repr

/-- An access that waits for a domain (R637 to R640). -/
structure PwrWait where
  ini : Nat
  dom : Nat
  at_ : Nat
  deriving DecidableEq, Repr

/-- A posted write held for a domain in a thaw stall (R29, R640). -/
structure HeldW where
  ini : Nat
  user : Bool
  addr : Nat
  size : Nat
  val : Nat
  dom : Nat
  at_ : Nat
  deriving DecidableEq, Repr

/-- Where a Stop stands (R644). -/
inductive StopPhase | none | handshake | stopped | coastExit
  deriving DecidableEq, Repr

/-- The power controller beside its registers (16_power.md). -/
structure Pwr where
  /-- Handshakes running, and domains whose vote changed meanwhile (R632). -/
  hs : List Hs
  later : List Nat
  /-- Domains coming up. -/
  rise : List Rise
  /-- Accesses that wait, accesses whose wait has timed out (initiator, domain), and writes held. -/
  waits : List PwrWait
  expired : List (Nat × Nat)
  held : List HeldW
  /-- The Stop, and whether PFAIL_N asked for it (R643). -/
  stop : StopPhase
  byPfail : Bool
  /-- PFAIL_N is low; elapsed cycles of its last asking. -/
  pfailLow : Bool
  pfailAt : Nat
  /-- A wake source of Stop has come (R644). -/
  wake : Bool
  /-- Elapsed cycles at which PWR_WAKET expires (R645). -/
  waketAt : Option Nat
  /-- Glety is awake (R778). -/
  awake : Bool
  /-- The lamp outputs float (R55, R685). -/
  floats : Bool
  /-- The FAB island's clock has stopped (R686). -/
  fabDead : Bool
  /-- Elapsed cycles of the last watchdog kick (R684); none before the first. -/
  kickAt : Option Nat
  /-- RESET_N is held low; POWER is applied: the supply phase is over. -/
  resetLow : Bool
  /-- VMAIN is up; the backup domain has been lost since the last power-on (R47). -/
  powered : Bool
  bkpGone : Bool
  /-- Elapsed cycles from which the hold of boot phase 0 counts, and of the last try of phase 2 (R50, R51, R766). -/
  holdAt : Nat
  /-- Geyser channels that the subscribers of a domain in Off had selected when it went Off (R642), by domain. -/
  subs : List (Nat × List Nat)
  deriving DecidableEq, Repr

/-- The power controller after power-on. -/
def Pwr.reset : Pwr :=
  { hs := [], later := [], rise := [], waits := [], expired := [], held := [], stop := .none, byPfail := false, pfailLow := false, pfailAt := 0, wake := false, waketAt := none, awake := true,
    floats := true, fabDead := false, kickAt := none, resetLow := false, powered := true, bkpGone := false, holdAt := 0, subs := [] }

/-- The event fabric's FAB cycle (R553, R554, R559): the elapsed cycle it stands for, the channels that have fired in it, and the states that groups changed
in it had before. -/
structure Evt where
  cycle : Nat
  fired : List Nat
  old : List (Nat × Nat)
  deriving DecidableEq, Repr

/-- The event fabric after reset. -/
def Evt.reset : Evt := { cycle := 0, fired := [], old := [] }

/-- The debug port (R768 to R771). -/
structure Jtag where
  /-- Instruction register (R768); IDCODE 0x02 after TRST_N, Test-Logic-Reset and power-on. -/
  ir : Nat
  /-- What the last scan of a data register captured (R768 to R771); reset 0 (DESIGN CHOICE, log entry 44). -/
  scan : Nat
  /-- Update latches of the 189 boundary cells, bit 0 nearest TDI (R769); reset 0 (DESIGN CHOICE, log entry 44). -/
  cells : Nat
  /-- The DBGMEM access that is pending: OP, ADDR, DATA (R770); reset none. -/
  pend : Option (Nat × Nat × Nat)
  /-- ERR, OP, ADDR and DATA of DBGMEM (R770); reset 0 (DESIGN CHOICE, log entry 44). -/
  err : Bool
  op : Nat
  addr : Nat
  data : Nat
  /-- INIT last written to DBGCORE (R771); reset 0 (DESIGN CHOICE, log entry 44). -/
  init : Nat
  deriving DecidableEq, Repr

/-- The debug port after power-on. -/
def Jtag.reset : Jtag := { ir := 2, scan := 0, cells := 0, pend := none, err := false, op := 0, addr := 0, data := 0, init := 0 }


/-- The state of the block. -/
structure State where
  /-- Commands that wait, first in, first out (the block's own queue); reset empty. -/
  pending : List Instr
  /-- FIRN cycles of 307.2 MHz since the state right after reset, the measure of every duration (log entry 1); reset 0. -/
  elapsed : Nat
  /-- Elapsed cycles at the last power-on reset (R652); reset 0. -/
  porAt : Nat
  /-- The model's own counter of free values drawn (log entry 4); reset 0 (DESIGN CHOICE). -/
  freeCtr : Nat
  /-- Register fields by key: class L and H values and class S shadows (R14, R15); reset as each field's table says. -/
  regs : RegFile
  /-- Committed copies of class S fields by key (R15); reset as each field's table says. -/
  com : RegFile
  /-- Memory, by address, addresses strictly rising, no entry 0 (R36, R38; log entry 3); reset nothing listed. -/
  mem : List Host.Cell
  /-- The fuses (R41, R42, R46). -/
  fuses : Fuses
  /-- Event sources raised and not yet delivered, oldest first (R553, R561); reset none. -/
  flight : List Nat
  /-- FIRN beside its registers. -/
  firn : Firn
  /-- Caldera beside its registers. -/
  cph : Cph
  /-- Timers 0 to 7 beside their registers. -/
  tmrs : List Tmr
  /-- The real-time clock beside its registers. -/
  rtc : Rtc
  /-- Mailboxes 0 to 3 beside their registers and ring memory. -/
  mboxes : List Mbox
  /-- Notices raised before boot phase 8, oldest first (R359); reset none. -/
  heldNotices : List HeldNotice
  /-- Health records held, oldest first, at most 1,024 (R662); reset none (the store of a new part). -/
  health : List HealthRec
  /-- System resets since the factory, 16 bits, saturating (R662); reset 0. -/
  boots : Nat
  /-- Elapsed cycles at the last system reset (R662); reset 0. -/
  sysResetAt : Nat
  /-- Table objects loaded over the shipped ones, by table ID (R355 to R358); reset none. -/
  tables : List (Nat × TableObj)
  /-- The radio front end beside its registers. -/
  rfe : Rfe
  /-- The receiver beside its registers. -/
  rxc : Rxc
  /-- The network configuration in force or stored, 400 bytes (R353); reset the factory's (R780). -/
  netCfg : List Nat
  /-- Mesh forwarding beside its registers. -/
  msh : Msh
  /-- Elapsed cycles of the last raising of each source whose rate is limited (R278, R292); reset none. -/
  evAt : List (Nat × Nat)
  /-- The link controller beside its registers. -/
  lnk : Lnk
  /-- Wired ports A and B beside their registers. -/
  wpt : List Wpt
  /-- Parity, repair and code marks of the arrays. -/
  par : Par
  /-- The DRAM controller beside its registers. -/
  drc : Drc
  /-- Compact-form cores: supervisor, application cores 0 to 3, link sequencers 0 to 8. -/
  cores : List Core
  /-- The signal cores. -/
  sig : List SigCore
  /-- The kernel runner. -/
  runner : Runner
  /-- The flash store and its controller beside its registers. -/
  flc : Flc
  /-- Serial ports 0 and 1 beside their registers. -/
  spx : List Spx
  /-- The lamp block beside its registers. -/
  lmp : Lmp
  /-- The luminaire service. -/
  lum : Lum
  /-- The coordinator service. -/
  co : Co
  /-- Monitors and re-planning beside their registers. -/
  age : Age
  /-- The pair and its mirror link beside their registers. -/
  mir : Mir
  /-- Elapsed cycles at the last entry into boot phase 8 (R50, R675); reset 0. -/
  runAt : Nat
  /-- Field update. -/
  upd : UpdSt
  /-- The power controller beside its registers. -/
  pwr : Pwr
  /-- The event fabric beside its registers. -/
  evt : Evt
  /-- The data that the last read over the bus gave each initiator (the model's own field). -/
  rdata : List (Nat × Nat)
  /-- Mailbox whose request was taken last (R335); reset 3, so that mailbox 0 comes first (DESIGN CHOICE). -/
  mbLast : Nat
  /-- Elapsed cycles at which SYS_RESET issues its system reset (R346); reset none. -/
  resetDue : Option Nat
  /-- Store writes of tables under way (R357, R781); reset none. -/
  tblJobs : List TblJob
  /-- The debug port (R768 to R771). -/
  jtag : Jtag
  deriving DecidableEq, Repr

/-- The block right after power-on reset (R47, R50): phase 0 of the boot, every field at the value the spec states or the
assumption log names. -/
def State.reset : State :=
  { pending := [],
    elapsed := 0,
    porAt := 0,
    freeCtr := 0,
    regs := [],
    com := [],
    mem := [],
    fuses := Fuses.reset,
    flight := [],
    firn := Firn.reset,
    cph := Cph.reset,
    tmrs := List.replicate 8 Tmr.reset,
    rtc := Rtc.reset,
    mboxes := List.replicate 4 Mbox.reset,
    heldNotices := [],
    health := [],
    boots := 0,
    sysResetAt := 0,
    tables := [],
    rfe := Rfe.reset,
    rxc := Rxc.reset,
    netCfg := factoryCfg,
    msh := Msh.reset,
    evAt := [],
    lnk := Lnk.reset,
    wpt := List.replicate 2 Wpt.reset,
    par := Par.reset,
    drc := Drc.reset,
    cores := (Core.reset 0x00000000) :: List.replicate 13 (Core.reset 0x20000000),
    sig := [SigCore.reset 0x30000000, SigCore.reset 0x30100000],
    runner := Runner.reset,
    flc := Flc.reset,
    spx := [Spx.reset, Spx.reset],
    lmp := Lmp.reset,
    lum := Lum.reset,
    co := Co.reset,
    age := Age.reset,
    mir := Mir.reset,
    runAt := 0,
    upd := UpdSt.reset,
    pwr := Pwr.reset,
    evt := Evt.reset,
    rdata := [],
    mbLast := 3,
    resetDue := none,
    tblJobs := [],
    jtag := Jtag.reset }

end Sys2Proof.Machine
end

