-- ==== Sys2Proof/Machine/Ops.lean ====
section
/-!
DEFINITION. The named operations every block uses: reading and writing a register field, counting, raising an event
source, drawing a free value, and letting time pass.
-/
namespace Sys2Proof.Machine

/-! ### Register fields -/

/-- The value of a field: what was stored, or its reset value. -/
def State.rd (s : State) (f : Field) : Nat := (look f.key s.regs).getD f.reset

/-- Store a field, cut to its width. -/
def State.wr (s : State) (f : Field) (v : Nat) : State := { s with regs := put f.key (v % 2 ^ f.width) s.regs }

/-- The committed copy of a class S field (R15). -/
def State.rdC (s : State) (f : Field) : Nat := (look f.key s.com).getD f.reset

/-- Store the committed copy of a class S field. -/
def State.wrC (s : State) (f : Field) (v : Nat) : State := { s with com := put f.key (v % 2 ^ f.width) s.com }

/-- Copy the shadows of some fields to their committed copies (R15). -/
def State.commitFields (s : State) (fs : List Field) : State := fs.foldl (fun t f => t.wrC f (t.rd f)) s

/-- A one-bit field reads 1. -/
def State.on (s : State) (f : Field) : Bool := s.rd f == 1

/-- Set and clear a one-bit field. -/
def State.set1 (s : State) (f : Field) : State := s.wr f 1
def State.clr (s : State) (f : Field) : State := s.wr f 0

/-- Count up by `d` and saturate (R12). -/
def State.count (s : State) (f : Field) (d : Nat) : State := s.wr f (satAdd f.width (s.rd f) d)

/-- Count up by one (R12). -/
def State.inc (s : State) (f : Field) : State := s.count f 1

/-- Set bit `i` of a field. -/
def State.setBit (s : State) (f : Field) (i : Nat) : State := s.wr f (s.rd f ||| 2 ^ i)

/-- Clear bit `i` of a field. -/
def State.clrBit (s : State) (f : Field) (i : Nat) : State := s.wr f (putBits (s.rd f) i 1 0)

/-! ### Events and free values -/

/-- Raise an event source (R553): it is on its way to the event fabric until EVENT_DELIVERY. -/
def State.raise (s : State) (src : Nat) : State := { s with flight := s.flight ++ [src] }

/-- Raise several sources in order. -/
def State.raiseAll (s : State) (l : List Nat) : State := l.foldl State.raise s

/-- The next free value; `State.drawn` is the state that has used it (log entry 4). -/
def State.free (s : State) : Nat := Config.freeNat s.freeCtr

/-- The free value `k` draws ahead. -/
def State.freeAt (s : State) (k : Nat) : Nat := Config.freeNat (s.freeCtr + k)

/-- The state after `n` free values are used. -/
def State.drawn (s : State) (n : Nat) : State := { s with freeCtr := s.freeCtr + n }

/-! ### Time: FIRN cycles of 307.2 MHz -/

/-- Durations in FIRN cycles. -/
def cycUs (n : Nat) : Nat := n * 3072 / 10
def cycMs (n : Nat) : Nat := n * 307200
def cycS (n : Nat) : Nat := n * 307200000

/-- Cycles from one edge of the 32.768 kHz crystal to the next: 307.2 MHz / 32.768 kHz. -/
def cycXtal : Nat := 9375

/-- Firn time of a number of seconds, in ft (R20). -/
def ftS (n : Nat) : Nat := n * 1073741824

/-- Firn time of a number of microseconds in ft, rounded down. -/
def ftUs (n : Nat) : Nat := n * 1073741824 / 1000000

/-- Nanoseconds of a span in ft, rounded up. -/
def nsOfFt (n : Nat) : Nat := cdiv (n * 1000000000) 1073741824

/-- Crystal edges between two elapsed times: the crystal's edges stand at multiples of 9,375 cycles (log entry 7). -/
def xtalEdges (t0 dt : Nat) : Nat := (t0 + dt) / cycXtal - t0 / cycXtal

/-- One unit of local time: 2^28 of the counter's steps are one ft. -/
def ftUnit : Nat := 268435456

/-- FIRN over `dt` cycles from elapsed time `t0`: fine counting with the slew (R58, R59), or crystal edges in coast (R61). -/
def Firn.pass (f : Firn) (t0 dt : Nat) : Firn :=
  if f.stopped then f
  else if f.coasting then { f with loc := (f.loc + xtalEdges t0 dt * 32768 * ftUnit) % 2 ^ 92 }
  else
    let used := min (f.slewRate * dt) f.slewLeft.natAbs
    let fine := f.loc + f.inc * dt
    if f.slewLeft < 0 then { f with loc := (fine - used) % 2 ^ 92, slewLeft := f.slewLeft + (used : Int) }
    else { f with loc := (fine + used) % 2 ^ 92, slewLeft := f.slewLeft - (used : Int) }

/-- Let `dt` FIRN cycles pass (log entry 1). -/
def State.pass (s : State) (dt : Nat) : State :=
  { s with elapsed := s.elapsed + dt, firn := s.firn.pass s.elapsed dt }

/-- Local Firn time in ft, 64 bits (R20). -/
def State.now (s : State) : Nat := s.firn.loc / ftUnit

/-- The result of a command: the effect where its occasion holds, and otherwise the state as time has left it (log entry 2). -/
def onlyIf (occasion : Bool) (effect s : State) : State := if occasion then effect else s

/-- Milliseconds since the last power-on reset (R652). -/
def State.upMs (s : State) : Nat := (s.elapsed - s.porAt) / 307200

/-- The variant is LM7440-C (R3). -/
def State.isC (s : State) : Bool := s.fuses.variantC

/-- Die temperature in °C, signed (R689). -/
def dieTemp (s : State) : Int := toSigned 8 (s.rd Reg.AGE_TEMP_NOW)

/-! ### Bytes of memory (R36, R8) -/

/-- What an unlisted byte reads as (log entry 3). -/
def memDefault : Byte := 0

/-- One byte. -/
def memRd (m : List Host.Cell) (a : Nat) : Byte :=
  match m with
  | [] => memDefault
  | (k, v) :: rest => if k = a then v else memRd rest a

/-- Write one byte, keeping the canonical form: addresses rise and no entry holds the default. -/
def memWr (m : List Host.Cell) (a : Nat) (v : Byte) : List Host.Cell :=
  match m with
  | [] => if v = memDefault then [] else [(a, v)]
  | (k, w) :: rest =>
    if a < k then (if v = memDefault then (k, w) :: rest else (a, v) :: (k, w) :: rest)
    else if a = k then (if v = memDefault then rest else (a, v) :: rest)
    else (k, w) :: memWr rest a v

/-- The canonical form: addresses strictly rising from `lo`, no entry at the default. -/
def memWfFrom (lo : Nat) : List Host.Cell → Bool
  | [] => true
  | (k, v) :: rest => decide (lo ≤ k) && decide (v ≠ memDefault) && memWfFrom (k + 1) rest

/-- The memory's canonical form. -/
def memWf (m : List Host.Cell) : Bool := memWfFrom 0 m

/-- Bytes from an address up. -/
def memRdBytes (m : List Host.Cell) (a : Nat) : Nat → List Nat
  | 0 => []
  | n + 1 => (memRd m a).toNat :: memRdBytes m (a + 1) n

/-- Write bytes from an address up. -/
def memWrBytes (m : List Host.Cell) (a : Nat) : List Nat → List Host.Cell
  | [] => m
  | b :: bs => memWrBytes (memWr m a (BitVec.ofNat 8 b)) (a + 1) bs

/-- A little-endian number of `n` bytes in memory (R8). -/
def State.ld (s : State) (a n : Nat) : Nat := ofLeBytes (memRdBytes s.mem a n)

/-- Write a little-endian number of `n` bytes. -/
def State.st (s : State) (a n v : Nat) : State := { s with mem := memWrBytes s.mem a (leBytes n v) }

/-- Write a list of bytes. -/
def State.stBytes (s : State) (a : Nat) (l : List Nat) : State := { s with mem := memWrBytes s.mem a l }

/-- Drop the entries of memory in a range: those bytes read the default again. -/
def State.memClear (s : State) (lo hi : Nat) : State :=
  { s with mem := s.mem.filter (fun c => !(decide (lo ≤ c.1) && decide (c.1 ≤ hi))) }

/-- The outcome of a command that always completes. -/
def done (s : State) : Host.Outcome State Fault Refusal := .next s

end Sys2Proof.Machine
end

