-- ==== Sys2Proof/Machine/Glety.lean ====
section
/-!
DEFINITION. What every Glety service uses: records into a mailbox's backlog (R336), notices (R359), health records (R662)
and the alarms (R663, R687, R688).
-/
namespace Sys2Proof.Machine

/-! ### Status codes (R344) -/

def Rc.OK : Nat := 0x0000
def Rc.UNKNOWN : Nat := 0x0001
def Rc.BADLEN : Nat := 0x0002
def Rc.BADFLAGS : Nat := 0x0003
def Rc.BADTAG : Nat := 0x0004
def Rc.TAGBUSY : Nat := 0x0005
def Rc.BUSY : Nat := 0x0006
def Rc.BADPARAM : Nat := 0x0007
def Rc.DENIED : Nat := 0x0008
def Rc.VARIANT : Nat := 0x0009
def Rc.NOTREADY : Nat := 0x000A
def Rc.NOTLIVE : Nat := 0x000B
def Rc.NOSUSP : Nat := 0x000C
def Rc.NOTSUSP : Nat := 0x000D
def Rc.TOOLATE : Nat := 0x000E
def Rc.NOSPACE : Nat := 0x000F
def Rc.BUFHELD : Nat := 0x0010
def Rc.TIMEOUT : Nat := 0x0011
def Rc.TBL_UNKNOWN : Nat := 0x0100
def Rc.TBL_CHECK : Nat := 0x0101
def Rc.TBL_LAYOUT : Nat := 0x0102
def Rc.TBL_VERSION : Nat := 0x0103
def Rc.TBL_OLDER : Nat := 0x0104
def Rc.TBL_BUSY : Nat := 0x0105
def Rc.TBL_STORE : Nat := 0x0106
def Rc.NET_RANGE : Nat := 0x0200
def Rc.NET_RXMODE : Nat := 0x0201
def Rc.NET_TOOLONG : Nat := 0x0202
def Rc.NET_PTYPE : Nat := 0x0203
def Rc.STORE_RO : Nat := 0x0700
def Rc.STORE_READ : Nat := 0x0701
def Rc.UPD_SIG : Nat := 0x0B00
def Rc.UPD_COMPAT : Nat := 0x0B01
def Rc.UPD_MEDIA : Nat := 0x0B02

/-! ### Mailboxes -/

/-- Change mailbox `m`. -/
def mbModify (m : Nat) (f : Mbox → Mbox) (s : State) : State := { s with mboxes := modAt s.mboxes m f }

/-- Mailbox `m`. -/
def mbox (s : State) (m : Nat) : Mbox := s.mboxes.getD m Mbox.reset

/-- A terminal record: DONE, FAILED or CANCELLED (R337). -/
def rkTerminal (k : Nat) : Bool := k == 3 || k == 4 || k == 5

/-- Shared entries of the backlog in use: records that are not terminal. The reservation for an immediate response (R336) is filled in the step that makes it. -/
def mbShared (b : Mbox) : Nat := (b.backlog.filter (fun r => !rkTerminal r.rkind)).length

/-- MBX_GSTAT.LIVE (R362): bit m for a request not taken, a live operation, a backlog record or an unread response. -/
def mbLive (s : State) : Nat :=
  (List.range 4).foldl (fun n m => n + 2 ^ m * b2n (s.rd (Reg.MB_REQ_REQWR m) != s.rd (Reg.MB_REQ_REQRD m) || !(mbox s m).ops.isEmpty || !(mbox s m).backlog.isEmpty || s.rd (Reg.MB_RSP_RSPWR m) != s.rd (Reg.MB_RSP_RSPRD m))) 0

/-- A notice into one mailbox's backlog, or discarded and counted when the shared part is full (R336). -/
def noticeTo (m : Nat) (r : MbRec) (s : State) : State :=
  if mbShared (mbox s m) < 24 then mbModify m (fun b => { b with backlog := b.backlog ++ [r] }) s
  else (mbModify m (fun b => { b with lost := b.lost + 1 }) s).inc (Reg.MB_DROPCNT_NOTDROP m)

/-- The notice record (R359): RKIND 6, TAG 0. -/
def noticeRec (code : Nat) (payload : List Nat) : MbRec := { cmd := code, tag := 0, flags := 0, rkind := 6, status := 0, prog := 0, payload := payload }

/-- A mailbox's mask lets a notice through; bits 15 and 31 always count as set (R359). -/
def noticeOpen (b : Mbox) (bit : Nat) : Bool := bit == 15 || bit == 31 || bitOf b.mask bit == 1

/-- Post a notice to every mailbox whose mask lets it through (R359); before boot phase 8 it is held. -/
def notice (code bit : Nat) (payload : List Nat) (s : State) : State :=
  if s.rd Reg.SYS_BOOT_PHASE = 8 then
    (List.range 4).foldl (fun t m => if noticeOpen (mbox t m) bit then noticeTo m (noticeRec code payload) t else t) s
  else { s with heldNotices := s.heldNotices ++ [{ code := code, maskBit := bit, payload := payload }] }

/-- Post the held notices in the order they were raised (R359). -/
def noticeFlush (s : State) : State :=
  s.heldNotices.foldl (fun t h => notice h.code h.maskBit h.payload t) { s with heldNotices := [] }

/-- A live operation of a mailbox, by tag (R338). -/
def opOf (s : State) (m tag : Nat) : Option LiveOp := (mbox s m).ops.find? (fun o => o.tag == tag && !o.ended)

/-- Change a live operation. -/
def opMod (m tag : Nat) (f : LiveOp → LiveOp) (s : State) : State :=
  mbModify m (fun b => { b with ops := b.ops.map (fun o => if o.tag = tag ∧ o.ended = false then f o else o) }) s

/-- A long operation ends (R337): its terminal record joins the backlog; it lives until that record is in the ring (R338). RKIND 3 DONE,
4 FAILED, 5 CANCELLED. -/
def opEnd (m tag rkind status : Nat) (payload : List Nat) (s : State) : State :=
  match opOf s m tag with
  | none => s
  | some o =>
    mbModify m (fun b => { b with
      ops := b.ops.map (fun x => if x.tag = tag ∧ x.ended = false then { x with ended := true } else x),
      backlog := b.backlog ++ [MbRec.mk o.cmd tag (b2n o.prog) rkind status 0 payload] }) s

/-- The severity of each alarm bit of AGE_ALARMS (R663, R688). -/
def alarmSeverity (bit : Nat) : Nat := match bit with | 5 => 1 | 8 => 1 | 6 => 3 | _ => 2

/-- AGE_STAT.WORST: the highest severity among the standing alarms (R687). -/
def alarmWorst (s : State) : Nat :=
  (List.range 12).foldl (fun m b => if (s.rd Reg.AGE_ALARMS_RMAPLOST = 1 ∧ b = 9) ∨ (s.rd Reg.AGE_ALARMS_ALONE = 1 ∧ b = 11) ∨ (s.rd Reg.AGE_ALARMS_MIRDEG = 1 ∧ b = 10) ∨
    (s.rd Reg.AGE_ALARMS_PABO = 1 ∧ b = 8) ∨ (s.rd Reg.AGE_ALARMS_RAILMAX = 1 ∧ b = 7) ∨ (s.rd Reg.AGE_ALARMS_STORERO = 1 ∧ b = 6) ∨ (s.rd Reg.AGE_ALARMS_SPLOW = 1 ∧ b = 5) ∨
    (s.rd Reg.AGE_ALARMS_FLWEAR = 1 ∧ b = 4) ∨ (s.rd Reg.AGE_ALARMS_SEQNOSP = 1 ∧ b = 3) ∨ (s.rd Reg.AGE_ALARMS_LANES = 1 ∧ b = 2) ∨ (s.rd Reg.AGE_ALARMS_SRAMNOSP = 1 ∧ b = 1)
    then max m (alarmSeverity b) else m) 0

/-- Set or clear an alarm, and WORST with it (R663). -/
def alarm (f : Field) (v : Bool) (s : State) : State := (s.wr f (b2n v)).wr Reg.AGE_STAT_WORST (alarmWorst (s.wr f (b2n v)))

/-- The code word of a health record (R662). -/
def healthCode (area kind unit : Nat) : Nat := area * 2 ^ 24 + kind * 2 ^ 16 + unit % 65536

/-- Write a health record (R662): the oldest goes beyond 1,024; NEXT advances, EV144 and the HEALTH notice follow. -/
def healthPut (severity area kind unit v1 v2 : Nat) (s : State) : State :=
  let r : HealthRec := { index := s.rd Reg.AGE_STAT_NEXT, severity := severity, code := healthCode area kind unit, t := s.now, value1 := v1 % 2 ^ 32, value2 := v2 % 2 ^ 32,
                         uptime := (s.elapsed - s.sysResetAt) / cycS 1, boots := s.boots }
  let all := s.health ++ [r]
  let s1 := ({ s with health := all.drop (all.length - 1024) }.wr Reg.AGE_STAT_NEXT ((r.index + 1) % 65536)).raise 144
  notice 0xF002 0 (leBytes 2 r.index ++ [severity, 0] ++ leBytes 4 r.code) s1

/-- Each change of the repair map writes a new version of it (R665). -/
def rmapWrite (s : State) : State := { s with age := { s.age with rmapVer := (s.age.rmapVer + 1) % 2 ^ 32 } }

/-- A MARGIN notice (R659, R359) with EV145; AGE_REPLANCNT counts ceilings, threshold offsets and back-offs (R691). -/
def marginNotice (what unit old new : Nat) (s : State) : State :=
  notice 0xF003 1 ([what, unit, 0, 0] ++ leBytes 4 old ++ leBytes 4 new) (if what = 3 ∨ what = 8 then s.raise 145 else (s.raise 145).inc Reg.AGE_REPLANCNT)

end Sys2Proof.Machine
end

