-- ==== Sys2Proof/Machine/LmpOps.lean ====
section
/-!
DEFINITION. The lamp block: PWM, DAC, the DALI-2 engine, PHOTO, and the commits of its class S fields (R716 to R722, R745 to R752).
-/
namespace Sys2Proof.Machine

/-- The class S fields (R745, R747, R748). -/
def lmpSFields : List Field :=
  [Reg.LMP_CTL_LTEN, Reg.LMP_CTL_LCH, Reg.LMP_CTL_DACEN, Reg.LMP_CTL_PWM1EN, Reg.LMP_CTL_PWM0EN, Reg.LMP_PWM_PER_PERIOD 0, Reg.LMP_PWM_DUTY_DUTY 0,
   Reg.LMP_PWM_PER_PERIOD 1, Reg.LMP_PWM_DUTY_DUTY 1, Reg.LMP_DAC_CODE]

/-- LMP's owner as a subscriber (R724): the supervisor in the secure world while SVC is 1, else the owner of ownership entry 47 with its world. -/
def lmpOwner (s : State) : Nat × Nat := if s.on Reg.LMP_STAT_SVC then (0, 1) else (s.rd (Reg.PROT_OWN_OWNER 47), s.rd (Reg.PROT_OWN_SEC 47))

/-- A channel is held by an owner with a world (R557). -/
def chanHeld (s : State) (ch : Nat) (o : Nat × Nat) : Bool := s.rd (Reg.EVT_CH_OWN_OWNER ch) == o.1 && s.rd (Reg.EVT_CH_OWN_SEC ch) == o.2

/-- A commit is refused (R16): a PERIOD below 4,000 (R747), or LTEN with a channel its owner does not hold (R724). -/
def lmpRefused (s : State) : Bool :=
  decide (s.rd (Reg.LMP_PWM_PER_PERIOD 0) < 4000) || decide (s.rd (Reg.LMP_PWM_PER_PERIOD 1) < 4000) ||
  (s.on Reg.LMP_CTL_LTEN && !chanHeld s (s.rd Reg.LMP_CTL_LCH) (lmpOwner s))

/-- Both PWM counters start a period now. -/
def pwmRestart (s : State) : State := { s with lmp := { s.lmp with pwmAt := Vector.replicate 2 s.elapsed } }

/-- The commit, whole or refused whole (R16). -/
def lmpCommit (s : State) : State :=
  let s1 := s.clr Reg.LMP_CTL_APPLY
  if lmpRefused s then s1.set1 Reg.LMP_STAT_CFGERR else s1.commitFields lmpSFields

/-- A write of 1 to APPLY (R720). -/
def lmpApplyWrite (s : State) : State := { (s.set1 Reg.LMP_CTL_APPLY) with lmp := { s.lmp with applyAt := s.elapsed } }

/-- The committed enables of the PWMs. -/
def pwmOn (s : State) (n : Nat) : Bool := s.rdC (if n = 0 then Reg.LMP_CTL_PWM0EN else Reg.LMP_CTL_PWM1EN) == 1

/-- The first period start of PWM `n` at or after an elapsed time, in units of 1/3,072 of 1,000 cycles: PERI cycles of 3.072 FIRN cycles (R717). -/
def pwmNextStart (s : State) (n from_ : Nat) : Nat :=
  let p := s.rdC (Reg.LMP_PWM_PER_PERIOD n) * 3072
  let a := s.lmp.pwmAt.toList.getD n 0
  a * 1000 + cdiv ((from_ - a) * 1000) p * p

/-- The cycles that PWM `n` holds its output high in period `k` since its train started: the fraction carries from period to period (R717). -/
def pwmHigh (period duty k : Nat) : Nat := (k + 1) * (period * duty) / 65536 - k * (period * duty) / 65536

/-- LMP_APPLY (R720): with LTEN 0 the commit at the next period start of PWM0, of PWM1 when PWM0 is disabled, or at once when both are. -/
def lmpApplyOk (s : State) : Bool :=
  s.on Reg.LMP_CTL_APPLY && !s.on Reg.LMP_CTL_LTEN &&
  (if pwmOn s 0 then decide (pwmNextStart s 0 s.lmp.applyAt ≤ s.elapsed * 1000)
   else if pwmOn s 1 then decide (pwmNextStart s 1 s.lmp.applyAt ≤ s.elapsed * 1000) else true)
def execLmpApply (dt : Nat) (s : State) : Host.Outcome State Fault Refusal :=
  .next (onlyIf (lmpApplyOk (s.pass dt)) (lmpCommit (s.pass dt)) (s.pass dt))

/-- A launch on a launch channel (R720): with the commit armed on it both PWM counters restart with the new values, the DAC takes CODE and a
queued DALI frame starts; while APPLY reads 0 the periods restart with the values committed. -/
def lmpLaunch (ch : Nat) (s : State) : State :=
  let startDali := fun (t : State) => ({ t with lmp := { t.lmp with daliWait := false, dali := t.lmp.dali.map (fun d => if t.lmp.daliWait then { d with at_ := t.elapsed } else d) } } : State)
  if s.on Reg.LMP_CTL_APPLY then
    if s.on Reg.LMP_CTL_LTEN && s.rd Reg.LMP_CTL_LCH == ch then
      (if lmpRefused s then lmpCommit s else startDali (pwmRestart (lmpCommit s)))
    else s
  else if s.rdC Reg.LMP_CTL_LTEN == 1 && s.rdC Reg.LMP_CTL_LCH == ch then startDali (pwmRestart s)
  else s

/-! ### DALI (R719, R749, R750) -/

/-- Queue a forward frame; it waits for the launch when LTEN is 1. -/
def daliQueue (f : DaliFrame) (s : State) : State :=
  { (s.set1 Reg.LMP_STAT_DALIBUSY) with lmp := { s.lmp with dali := some f, daliWait := s.on Reg.LMP_CTL_LTEN } }

/-- A SEND while the engine is busy or off is ignored and sets CFGERR (R749). -/
def daliSend (s : State) : State :=
  if s.on Reg.LMP_STAT_DALIBUSY || !s.on Reg.LMP_CTL_DALIEN then s.set1 Reg.LMP_STAT_CFGERR
  else daliQueue { frame := s.rd Reg.LMP_DALI_TX_FRAME, long := s.on Reg.LMP_DALI_TX_LEN, bw := s.on Reg.LMP_DALI_TX_BW, poll := false, at_ := s.elapsed } s

/-- DALI_TRANSMIT_END (R719): the start bit and 16 or 24 bits of 833.3 µs have passed; a collision sets ERR; a backward window opens where one is expected. -/
def daliTransmitEndOk (s : State) : Bool :=
  match s.lmp.dali with | some f => !s.lmp.daliWait && decide (f.at_ + (if f.long then 25 else 17) * 256000 ≤ s.elapsed) | none => false
def daliTransmitEnd (collision : Bool) (s : State) : State :=
  let s1 : State := { (s.clr Reg.LMP_STAT_DALIBUSY) with lmp := { s.lmp with dali := none, window := s.lmp.dali.filter (fun f => f.bw && !collision) } }
  (if collision then s1.set1 Reg.LMP_DALI_RX_ERR else s1).raise 167

/-- A backward frame in the window, or a framing error or collision in it (R719, R750). -/
def daliBackward (data : Nat) (err : Bool) (s : State) : State :=
  let s1 : State := { s with lmp := { s.lmp with window := none } }
  (if err then s1.set1 Reg.LMP_DALI_RX_ERR else (s1.wr Reg.LMP_DALI_RX_DATA data).set1 Reg.LMP_DALI_RX_VALID).raise 167

/-- The window passes empty. -/
def daliEmpty (s : State) : State := (({ s with lmp := { s.lmp with window := none } }).set1 Reg.LMP_DALI_RX_NONE).raise 167

/-- PHOTO_SAMPLE (R721): the ball's voltage in µV; ten times a second. -/
def photoSampleOk (s : State) : Bool := decide (s.lmp.photoAt + cycMs 100 ≤ s.elapsed)
def photoValue (uv : Nat) : Nat := min 1023 ((uv * 1023 + 1250000) / 2500000)
def photoSample (uv : Nat) (s : State) : State := { (s.wr Reg.LMP_PHOTO_VALUE (photoValue uv)) with lmp := { s.lmp with photoAt := s.elapsed } }

/-- The metering latch of a block of 64 samples (R722): SEQ counts samples modulo 256, alike in all four registers. -/
def meterLatch (last : Nat × Nat × Nat × Nat) (s : State) : State :=
  let seq := s.rd (Reg.LMP_MET_SEQ 0) + 64
  let one := fun (k v : Nat) (t : State) => (t.wr (Reg.LMP_MET_SEQ k) seq).wr (Reg.LMP_MET_SAMPLE k) v
  (one 3 last.2.2.2 (one 2 last.2.2.1 (one 1 last.2.1 (one 0 last.1 s)))).raise 166

end Sys2Proof.Machine
end

