-- ==== Sys2Proof/Machine/Crypto.lean ====
section
/-!
DEFINITION. The arithmetic of Caldera and of the checks that Glety makes: the AES forward cipher (R516), CMAC and
CBC-MAC over it (R522), the keystream (R533), SHA-256 and ECDSA over P-256 for bundles (R699), and the CRCs of the
frame and table formats. Bytes are numbers below 256, in memory order (R524).
-/
namespace Sys2Proof.Machine

/-- The AES substitution table, byte `i` at bits 8i + 7 to 8i. -/
def aesSbox : Nat := 0x16bb54b00f2d99416842e6bf0d89a18cdf2855cee9871e9b948ed9691198f8e19e1dc186b95735610ef6034866b53e708a8bbd4b1f74dde8c6b4a61c2e2578ba08ae7a65eaf4566ca94ed58d6d37c8e779e4959162acd3c25c2406490a3a32e0db0b5ede14b8ee4688902a22dc4f816073195d643d7ea7c41744975fec130ccdd2f3ff1021dab6bcf5389d928f40a351a89f3c507f02f94585334d43fbaaefd0cf584c4a39becb6a5bb1fc20ed00d153842fe329b3d63b52a05a6e1b1a2c830975b227ebe28012079a059618c323c7041531d871f1e5a534ccf73f362693fdb7c072a49cafa2d4adf04759fa7dc982ca76abd7fe2b670130c56f6bf27b777c63

/-- Substitution of one byte. -/
def subByte (x : Nat) : Nat := (aesSbox >>> (8 * x)) % 256

/-- Multiplication by x in the field of AES. -/
def xtime (x : Nat) : Nat := if x < 128 then 2 * x else (2 * x) ^^^ 0x11B

/-- Byte `i` of a list, 0 past the end. -/
def nthB (l : List Nat) (i : Nat) : Nat := l.getD i 0

/-- Byte-wise exclusive or; the longer list's tail is dropped. -/
def xorB (a b : List Nat) : List Nat := List.zipWith (fun x y => x ^^^ y) a b

/-- SubBytes and ShiftRows together: byte r + 4c comes from column c + r. -/
def subShift (s : List Nat) : List Nat :=
  (List.range 16).map (fun k => subByte (nthB s ((k % 4) + 4 * ((k / 4 + k % 4) % 4))))

/-- MixColumns. -/
def mixCols (s : List Nat) : List Nat :=
  (List.range 16).map (fun k =>
    let c := 4 * (k / 4)
    let a := fun i => nthB s (c + (k + i) % 4)
    xtime (a 0) ^^^ (xtime (a 1) ^^^ a 1) ^^^ a 2 ^^^ a 3)

/-- The words of the key schedule, newest first; `n` more words after `ws`, `nk` words of key, round constant `rc`. -/
def expandKey (nk : Nat) : Nat → Nat → Nat → List (List Nat) → List (List Nat)
  | 0, _, _, ws => ws
  | n + 1, i, rc, ws =>
    let prev := ws.headD []
    let back := ws.getD (nk - 1) []
    let t :=
      if i % nk = 0 then
        let r := (prev.drop 1 ++ prev.take 1).map subByte
        xorB r [rc, 0, 0, 0]
      else if 6 < nk ∧ i % nk = 4 then prev.map subByte else prev
    expandKey nk n (i + 1) (if i % nk = 0 then xtime rc else rc) (xorB back t :: ws)

/-- A byte list cut into words of four. -/
def words4 : List Nat → List (List Nat)
  | a :: b :: c :: d :: rest => [a, b, c, d] :: words4 rest
  | _ => []

/-- A list cut into blocks of sixteen bytes; the last may be short. `n` bounds the blocks. -/
def blocks16 : Nat → List Nat → List (List Nat)
  | 0, _ => []
  | n + 1, l => if l.isEmpty then [] else l.take 16 :: blocks16 n (l.drop 16)

/-- The round keys of a 128-bit or 256-bit key, first to last. -/
def roundKeys (key : List Nat) : List (List Nat) :=
  let nk := key.length / 4
  let ws := (expandKey nk (4 * (nk + 7) - nk) nk 1 (words4 key).reverse).reverse
  blocks16 15 ws.flatten

/-- The rounds after the first key addition. -/
def aesRounds : List (List Nat) → List Nat → List Nat
  | [], s => s
  | [k], s => xorB (subShift s) k
  | k :: ks, s => aesRounds ks (xorB (mixCols (subShift s)) k)

/-- The forward cipher of one block (R516). -/
def aesEncrypt (key block : List Nat) : List Nat :=
  match roundKeys key with
  | [] => block
  | k :: ks => aesRounds ks (xorB block k)

/-- A block as a big-endian number, and back. -/
def blockNat (b : List Nat) : Nat := ofBeBytes b

/-- Doubling in the field of CMAC. -/
def cmacDbl (x : Nat) : Nat := if x < 2 ^ 127 then 2 * x else (2 * x) % 2 ^ 128 ^^^ 0x87

/-- Sixteen zero bytes. -/
def zero16 : List Nat := List.replicate 16 0

/-- The CMAC subkeys K1 and K2 (R518). -/
def cmacSub (key : List Nat) : List Nat × List Nat :=
  let l := blockNat (aesEncrypt key zero16)
  let k1 := cmacDbl l
  (beBytes 16 k1, beBytes 16 (cmacDbl k1))

/-- A block padded with a one bit and zeros. -/
def padBlock (b : List Nat) : List Nat := (b ++ [0x80] ++ zero16).take 16

/-- The last block of a CMAC, masked by its subkey: whole with K1, short with K2. -/
def cmacLast (key b : List Nat) : List Nat :=
  if b.length = 16 then xorB b (cmacSub key).1 else xorB (padBlock b) (cmacSub key).2

/-- One chaining step. -/
def cbcStep (key st b : List Nat) : List Nat := aesEncrypt key (xorB st b)

/-- CMAC over the blocks of a message. -/
def cmacBlocks (key : List Nat) : List Nat → List (List Nat) → List Nat
  | st, [] => cbcStep key st (cmacLast key [])
  | st, [b] => cbcStep key st (cmacLast key b)
  | st, b :: bs => cmacBlocks key (cbcStep key st b) bs

/-- CMAC of a message (R522). -/
def cmac (key msg : List Nat) : List Nat := cmacBlocks key zero16 (blocks16 (msg.length / 16 + 1) msg)

/-- The counter block of the keystream (R533): kind, NETID, source, TYPE, the sequence word, zeros and the block number. -/
def keyCounter (kind net src typ seq i : Nat) : List Nat :=
  [kind] ++ leBytes 2 net ++ leBytes 2 src ++ [typ] ++ leBytes 4 seq ++ leBytes 4 0 ++ leBytes 2 i

/-- Enciphering and deciphering by the keystream, from block number `i` (R533). -/
def keystream (key : List Nat) (kind net src typ seq : Nat) : Nat → Nat → List Nat → List Nat
  | 0, _, _ => []
  | n + 1, i, l =>
    if l.isEmpty then [] else
    xorB (l.take 16) (aesEncrypt key (keyCounter kind net src typ seq i)) ++ keystream key kind net src typ seq n (i + 1) (l.drop 16)

/-- The octets `l` under the keystream (R533). -/
def encipher (key : List Nat) (kind net src typ seq : Nat) (l : List Nat) : List Nat :=
  keystream key kind net src typ seq (l.length / 16 + 1) 1 l

/-- The two keys derived from a network key or the join key (R532): MAC and enciphering. -/
def deriveMac (k : List Nat) : List Nat := aesEncrypt k (1 :: List.replicate 15 0)
def deriveEnc (k : List Nat) : List Nat := aesEncrypt k (2 :: List.replicate 15 0)

/-- One byte of a reflected CRC of the polynomial `poly`. -/
def crcBits (poly : Nat) : Nat → Nat → Nat
  | 0, c => c
  | n + 1, c => crcBits poly n (if c % 2 = 1 then (c >>> 1) ^^^ poly else c >>> 1)

/-- A reflected CRC over bytes from the register value `c`. -/
def crcReflected (poly c : Nat) : List Nat → Nat
  | [] => c
  | b :: bs => crcReflected poly (crcBits poly 8 (c ^^^ (b % 256))) bs

/-- CRC-32 of IEEE 802.3. -/
def crc32 (l : List Nat) : Nat := crcReflected 0xEDB88320 0xFFFFFFFF l ^^^ 0xFFFFFFFF

/-- One byte of a forward CRC of width `w`. -/
def crcFwdBits (w poly : Nat) : Nat → Nat → Nat
  | 0, c => c
  | n + 1, c => crcFwdBits w poly n (if c < 2 ^ (w - 1) then 2 * c else ((2 * c) % 2 ^ w) ^^^ poly)

/-- A forward CRC over bytes from the register value `c`. -/
def crcForward (w poly c : Nat) : List Nat → Nat
  | [] => c
  | b :: bs => crcForward w poly (crcFwdBits w poly 8 (c ^^^ ((b % 256) <<< (w - 8)))) bs

/-- The round constants of SHA-256, word `i` at bits 32i + 31 to 32i. -/
def shaK : Nat := 0xc67178f2bef9a3f7a4506ceb90befffa8cc7020884c8781478a5636f748f82ee682e6ff35b9cca4f4ed8aa4a391c0cb334b0bcb52748774c1e376c0819a4c116106aa070f40e3585d6990624d192e819c76c51a3c24b8b70a81a664ba2bfe8a192722c8581c2c92e766a0abb650a735453380d134d2c6dfc2e1b213827b70a851429296706ca6351d5a79147c6e00bf3bf597fc7b00327c8a831c66d983e515276f988da5cb0a9dc4a7484aa2de92c6f240ca1cc0fc19dc6efbe4786e49b69c1c19bf1749bdc06a780deb1fe72be5d74550c7dc3243185be12835b01d807aa98ab1c5ed5923f82a459f111f13956c25be9b5dba5b5c0fbcf71374491428a2f98

/-- Rotation right of a 32-bit word. -/
def rotr32 (x n : Nat) : Nat := (x >>> n) ||| ((x <<< (32 - n)) % 2 ^ 32)

/-- The message schedule, newest word first; `n` more words. -/
def shaSchedule : Nat → List Nat → List Nat
  | 0, ws => ws
  | n + 1, ws =>
    let w2 := ws.getD 1 0
    let w7 := ws.getD 6 0
    let w15 := ws.getD 14 0
    let w16 := ws.getD 15 0
    let s0 := rotr32 w15 7 ^^^ rotr32 w15 18 ^^^ (w15 >>> 3)
    let s1 := rotr32 w2 17 ^^^ rotr32 w2 19 ^^^ (w2 >>> 10)
    shaSchedule n ((w16 + s0 + w7 + s1) % 2 ^ 32 :: ws)

/-- The compression rounds over the schedule, from round `i`. -/
def shaRounds : List Nat → Nat → List Nat → List Nat
  | [], _, v => v
  | w :: ws, i, v =>
    match v with
    | [a, b, c, d, e, f, g, h] =>
      let t1 := h + (rotr32 e 6 ^^^ rotr32 e 11 ^^^ rotr32 e 25) + ((e &&& f) ^^^ ((2 ^ 32 - 1 - e) &&& g)) + (shaK >>> (32 * i)) % 2 ^ 32 + w
      let t2 := (rotr32 a 2 ^^^ rotr32 a 13 ^^^ rotr32 a 22) + ((a &&& b) ^^^ (a &&& c) ^^^ (b &&& c))
      shaRounds ws (i + 1) [(t1 + t2) % 2 ^ 32, a, b, c, (d + t1) % 2 ^ 32, e, f, g]
    | _ => v

/-- The blocks of SHA-256: 64 bytes each. -/
def shaBlocks : Nat → List Nat → List Nat → List Nat
  | 0, h, _ => h
  | n + 1, h, l =>
    let ws := (words4 (l.take 64)).map ofBeBytes
    let v := shaRounds (shaSchedule 48 ws.reverse).reverse 0 h
    shaBlocks n (List.zipWith (fun x y => (x + y) % 2 ^ 32) h v) (l.drop 64)

/-- SHA-256 of a byte list, 32 bytes (R699). -/
def sha256 (l : List Nat) : List Nat :=
  let zeros := (119 - l.length % 64) % 64
  let m := l ++ [0x80] ++ List.replicate zeros 0 ++ beBytes 8 (8 * l.length)
  (shaBlocks (m.length / 64) [0x6a09e667, 0xbb67ae85, 0x3c6ef372, 0xa54ff53a, 0x510e527f, 0x9b05688c, 0x1f83d9ab, 0x5be0cd19] m).flatMap (beBytes 4)

/-- The curve P-256: its prime, order, coefficient b and base point. -/
def p256P : Nat := 2 ^ 256 - 2 ^ 224 + 2 ^ 192 + 2 ^ 96 - 1
def p256N : Nat := 0xFFFFFFFF00000000FFFFFFFFFFFFFFFFBCE6FAADA7179E84F3B9CAC2FC632551
def p256B : Nat := 0x5AC635D8AA3A93E7B3EBBD55769886BC651D06B0CC53B0F63BCE3C3E27D2604B
def p256G : Nat × Nat := (0x6B17D1F2E12C4247F8BCE6E563A440F277037D812DEB33A0F4A13945D898C296, 0x4FE342E2FE1A7F9B8EE7EB4A7C0F9E162BCE33576B315ECECBB6406837BF51F5)

/-- Powers modulo `m`, by the bits of the exponent; `n` bounds the bits. -/
def powMod (m : Nat) : Nat → Nat → Nat → Nat
  | 0, _, _ => 1
  | n + 1, b, e => if e = 0 then 1 else
    let r := powMod m n (b * b % m) (e / 2)
    if e % 2 = 1 then r * b % m else r

/-- The inverse modulo a prime. -/
def invMod (m a : Nat) : Nat := powMod m 256 (a % m) (m - 2)

/-- Addition on P-256; none is the point at infinity. -/
def ecAdd : Option (Nat × Nat) → Option (Nat × Nat) → Option (Nat × Nat)
  | none, q => q
  | p, none => p
  | some (x1, y1), some (x2, y2) =>
    let p := p256P
    if x1 = x2 ∧ (y1 + y2) % p = 0 then none else
    let l := if x1 = x2 then (3 * x1 * x1 + p - 3) * invMod p (2 * y1) % p else (y2 + p - y1) * invMod p (x2 + p - x1) % p
    let x3 := (l * l + 2 * p - x1 - x2) % p
    some (x3, (l * (x1 + p - x3) + p - y1) % p)

/-- Multiples of a point, by the bits of the factor; `n` bounds the bits. -/
def ecMul : Nat → Nat → Option (Nat × Nat) → Option (Nat × Nat)
  | 0, _, _ => none
  | n + 1, k, q => if k = 0 then none else
    let r := ecMul n (k / 2) (ecAdd q q)
    if k % 2 = 1 then ecAdd r q else r

/-- A point lies on P-256. -/
def onCurve (q : Nat × Nat) : Bool :=
  q.1 < p256P && q.2 < p256P && (q.2 * q.2) % p256P == (q.1 * q.1 * q.1 + (p256P - 3) * q.1 + p256B) % p256P

/-- ECDSA verification over P-256 with SHA-256 (R699): digest, signature (r, s), public point. -/
def ecdsaVerify (digest : List Nat) (r s : Nat) (q : Nat × Nat) : Bool :=
  if r = 0 ∨ p256N ≤ r ∨ s = 0 ∨ p256N ≤ s ∨ ¬ onCurve q then false else
  let w := invMod p256N s
  let e := ofBeBytes digest
  match ecAdd (ecMul 256 (e * w % p256N) (some p256G)) (ecMul 256 (r * w % p256N) (some q)) with
  | none => false
  | some (x, _) => x % p256N == r

end Sys2Proof.Machine
end

