-- ==== Sys2Proof/Machine/MshOps.lean ====
section
/-!
DEFINITION. Mesh forwarding (06_mesh_forwarding.md): parameters, egress queues with their shapers and schedulers, the seen
cache, relays, routes and policing. What sends and receives link frames stands with the link controller.
-/
namespace Sys2Proof.Machine

/-! ### Parameters (R255, R353) -/

/-- A number of the network configuration. -/
def cfgN (s : State) (off n : Nat) : Nat := leAt s.netCfg off n

/-- Raise a source at most once per `n` seconds (R278, R292). -/
def State.raiseLim (s : State) (src n : Nat) : State :=
  match look src s.evAt with
  | some e => if s.elapsed < e + cycS n then s else { s with evAt := put src s.elapsed s.evAt }.raise src
  | none => { s with evAt := put src s.elapsed s.evAt }.raise src

/-- The node is a COORD, a relay, the time root; its own short address. -/
def isCoord (s : State) : Bool := s.on Reg.MSH_STAT_COORD
def isRelay (s : State) : Bool := s.on Reg.MSH_STAT_RELAY
def ownShort (s : State) : Nat := s.rd Reg.LNK_STAT_SHORT
def isJoined (s : State) : Bool := s.on Reg.LNK_STAT_JOINED
def isRoot (s : State) : Bool := s.on Reg.FIRN_STAT_ROOT

/-- Class c runs VTFQ (R255, R282). -/
def cfgVtfq (s : State) (c : Nat) : Bool := c != 0 && bitOf (cfgN s 19 1) (c - 1) == 1

/-- A radio band carries floods (R255). -/
def floodBand (s : State) (b : Nat) : Bool := s.rd Reg.MSH_STAT_FLOODBAND == 2 || s.rd Reg.MSH_STAT_FLOODBAND == b

/-! ### Queues (R274 to R279) -/

/-- A port. -/
def egress (s : State) (p : Nat) : Egress := s.msh.ports.getD p Egress.reset
def egressMod (p : Nat) (f : Egress → Egress) (s : State) : State := { s with msh := { s.msh with ports := modAt s.msh.ports p f } }

/-- Cells of 128 octets that a frame takes, and cells free (R278). -/
def frameCells (f : QFrame) : Nat := cdiv f.len 128
def cellsUsed (s : State) : Nat := (s.msh.ports.map (fun e => (e.frames.map frameCells).sum)).sum
def cellsFree (s : State) : Nat := 4096 - cellsUsed s

/-- Frames of a class in a port. -/
def classCount (e : Egress) (c : Nat) : Nat := (e.frames.filter (fun f => f.queue / 4 == c)).length

/-- Show the pool, the queues, the seen cache and the routes (R287, R288, R290). -/
def mshShow (s : State) : State :=
  let free := cellsFree s
  let s1 := (s.wr Reg.MSH_STAT_POOLFREE free).wr Reg.MSH_STAT_POOLLOW (b2n (decide (free < 512)))
  let s2 := (List.range 4).foldl (fun t p =>
    let e := egress t p
    (((t.wr (Reg.MSH_PORT_Q_C0 p) (min 255 (classCount e 0))).wr (Reg.MSH_PORT_Q_C1 p) (min 255 (classCount e 1))).wr (Reg.MSH_PORT_Q_C2 p) (min 255 (classCount e 2))).wr (Reg.MSH_PORT_Q_C3 p) (min 255 (classCount e 3))) s1
  let s3 := (s2.wr Reg.MSH_SEEN_USED s.msh.seen.length).wr Reg.MSH_ROUTES_USED s.msh.routes.length
  if free < 512 then s3.raiseLim 129 1 else s3

/-- The queue of an originator (R277). -/
def queueOf (cls src : Nat) : Nat := 4 * cls + src % 4

/-- Signed 32-bit difference: `a` is before `b` (R284). -/
def tagBefore (a b : Nat) : Bool := decide (toSigned 32 (a + 2 ^ 32 - b) < 0)

/-- Tags of a frame that enters a queue (R284). -/
def tagEnter (s : State) (p q len : Nat) : Nat × Nat :=
  let e := egress s p
  let st := if e.frames.any (fun f => f.queue == q) then e.lastF.getD q 0 else e.vt.getD (q / 4) 0
  (st, (st + cdiv (len * 256) (cfgN s (64 + q) 1)) % 2 ^ 32)

/-- ENQUEUE (R278): take a frame into its queue, or drop it with QFULL or POOL. -/
def enqueue (p : Nat) (hop : Hop) (cls src len : Nat) (data : List Nat) (deadline : Option Nat) (s : State) : State :=
  let q := queueOf cls src
  let free := cellsFree s
  if cfgN s 18 1 ≤ ((egress s p).frames.filter (fun f => f.queue == q)).length then s.inc Reg.MSH_QFULLCNT
  else if free < cdiv len 128 + (if cls = 0 then 0 else 128) then (s.inc Reg.MSH_POOLCNT).raiseLim 129 1
  else
    let tg := tagEnter s p q len
    let f : QFrame := { hop := hop, queue := q, len := len, data := data, at_ := s.elapsed, deadline := deadline, tagS := tg.1, tagF := tg.2 }
    mshShow (egressMod p (fun e => { e with frames := e.frames ++ [f], lastF := modAt e.lastF q (fun _ => tg.2) }) s)

/-! ### Shaping (R280, R281) -/

/-- A bucket brought up to date: RATE octets per second, BURST octets. -/
def bucketNow (s : State) (rate burst : Nat) (b : Bucket) : Bucket :=
  ⟨min (burst * 65536) (b.tokens + rate * 65536 * (s.elapsed - b.last) / 307200000), s.elapsed⟩

/-- A queue's and a port's bucket now; none when RATE is 0. -/
def queueBucket (s : State) (p q : Nat) : Option Bucket :=
  let rate := cfgN s (80 + 8 * q) 4; let burst := cfgN s (84 + 8 * q) 2
  if rate = 0 then none else some (bucketNow s rate burst ((look q (egress s p).qb).getD ⟨burst * 65536, s.elapsed⟩))
def portBucket (s : State) (p : Nat) : Option Bucket :=
  let rate := cfgN s (208 + 8 * p) 4; let burst := cfgN s (212 + 8 * p) 2
  if rate = 0 then none else some (bucketNow s rate burst ((egress s p).pb.getD ⟨burst * 65536, s.elapsed⟩))

/-- A frame conforms when both buckets hold its length (R281). -/
def bucketHolds (b : Option Bucket) (len : Nat) : Bool := match b with | none => true | some x => decide (len * 65536 ≤ x.tokens)
def conforms (s : State) (p : Nat) (f : QFrame) : Bool := bucketHolds (queueBucket s p f.queue) f.len && bucketHolds (portBucket s p) f.len

/-- Take a frame's length from both buckets. -/
def bucketTake (len : Nat) (b : Bucket) : Bucket := { b with tokens := b.tokens - len * 65536 }
def takeTokens (p : Nat) (f : QFrame) (s : State) : State :=
  let qb := queueBucket s p f.queue
  let pb := portBucket s p
  egressMod p (fun e => { e with qb := match qb with | some b => put f.queue (bucketTake f.len b) e.qb | none => e.qb,
                                 pb := match pb with | some b => some (bucketTake f.len b) | none => e.pb }) s

/-! ### Selection (R279, R282 to R284) -/

/-- A frame has waited longer than its class's AGEMAX (R279). -/
def tooOld (s : State) (f : QFrame) : Bool := decide (f.at_ + cycMs (100 * cfgN s (24 + 2 * (f.queue / 4)) 2) < s.elapsed)

/-- A relay copy is past its deadline (R263). -/
def pastDeadline (s : State) (f : QFrame) : Bool := match f.deadline with | some d => decide (d < s.elapsed) | none => false

/-- Drop the frames of a port that a selection would reach too late: AGE, then DEADLINE. -/
def dropStale (p : Nat) (s : State) : State :=
  let e := egress s p
  let old := (e.frames.filter (tooOld s)).length
  let late := (e.frames.filter (fun f => !tooOld s f && pastDeadline s f)).length
  ((egressMod p (fun e => { e with frames := e.frames.filter (fun f => !tooOld s f && !pastDeadline s f) }) s).count Reg.MSH_AGECNT old).count Reg.MSH_DEADLINECNT late

/-- The oldest frame of a queue for a hop, and whether it conforms. -/
def headOf (s : State) (p q : Nat) (hop : Hop) : Option QFrame :=
  ((egress s p).frames.filter (fun f => f.queue == q && f.hop == hop)).head?
def readyHead (s : State) (p q : Nat) (hop : Hop) : Option QFrame :=
  match headOf s p q hop with | some f => if conforms s p f then some f else none | none => none

/-- Class 0: the oldest eligible conforming frame of its four queues (R282). -/
def pickOldest (s : State) (p : Nat) (hop : Hop) : Option QFrame :=
  ((egress s p).frames.filter (fun f => f.queue / 4 == 0 && f.hop == hop && conforms s p f &&
     (headOf s p f.queue hop == some f))).head?

/-- Deficit round robin (R283): turns until a queue's frame fits its deficit. -/
def pickDrr (s : State) (p c : Nat) (hop : Hop) : Nat → Egress → Option (QFrame × Egress)
  | 0, _ => none
  | n + 1, e =>
    let ptr := e.ptr.getD c 0
    let q := 4 * c + ptr
    let turn : Egress :=
      let ptr' := (ptr + 1) % 4
      let q' := 4 * c + ptr'
      let e1 := { e with ptr := modAt e.ptr c (fun _ => ptr') }
      let quant := cfgN s (32 + 2 * q') 2
      if e.frames.any (fun f => f.queue == q') then { e1 with deficit := modAt e1.deficit q' (fun d => min (d + quant) (quant + 1280)) } else e1
    match readyHead s p q hop with
    | some f =>
      if f.len ≤ e.deficit.getD q 0 then
        let left := e.frames.filter (fun g => g.queue == q)
        some (f, { e with deficit := modAt e.deficit q (fun d => if left.length ≤ 1 then 0 else d - f.len) })
      else pickDrr s p c hop n turn
    | none => pickDrr s p c hop n turn

/-- Virtual-time fair queueing (R284): the smallest finish tag among the queues' oldest frames; ties to the lower queue. -/
def pickVtfq (s : State) (p c : Nat) (hop : Hop) : Option QFrame :=
  (List.range 4).foldl (fun m i => match readyHead s p (4 * c + i) hop with
    | none => m
    | some f => match m with | none => some f | some g => if tagBefore f.tagF g.tagF then some f else some g) none

/-- One class's selection; the port's scheduler state after it. -/
def pickClass (s : State) (p c : Nat) (hop : Hop) : Option (QFrame × Egress) :=
  let e := egress s p
  if c = 0 then (pickOldest s p hop).map (fun f => (f, e))
  else if cfgVtfq s c then
    (pickVtfq s p c hop).map (fun f => (f, { e with vt := modAt e.vt c (fun v => if tagBefore v f.tagS then f.tagS else v) }))
  else if (List.range 4).any (fun i => (readyHead s p (4 * c + i) hop).isSome) then pickDrr s p c hop 100 e
  else none

/-- The scheduler looks at the classes in order (R282). -/
def pickFrame (s : State) (p : Nat) (hop : Hop) : Option (QFrame × Egress) :=
  match pickClass s p 0 hop with
  | some x => some x
  | none => match pickClass s p 1 hop with
    | some x => some x
    | none => match pickClass s p 2 hop with
      | some x => some x
      | none => pickClass s p 3 hop

/-- Select a frame for a hop: it leaves its queue, takes its tokens and is counted (R281, R291). -/
def selectFrame (p : Nat) (hop : Hop) (s : State) : Option QFrame × State :=
  let s0 := dropStale p s
  match pickFrame s0 p hop with
  | none => (none, mshShow s0)
  | some (f, e) =>
    let s1 := egressMod p (fun _ => { e with frames := e.frames.erase f }) (takeTokens p f s0)
    let s2 := egressMod p (fun x => { x with qb := (egress (takeTokens p f s0) p).qb, pb := (egress (takeTokens p f s0) p).pb }) s1
    (some f, mshShow ((s2.inc (Reg.MSH_TXCNT p)).count (Reg.MSH_TXOCT p) f.len))

/-- QUEUE_AGE_SCAN (R279): once a second every queue is scanned. -/
def queueAgeScanOk (s : State) : Bool := decide ((look 1000 s.evAt).getD 0 + cycS 1 ≤ s.elapsed)
def queueAgeScan (s : State) : State :=
  mshShow ((List.range 4).foldl (fun t p =>
    let old := ((egress t p).frames.filter (tooOld t)).length
    (egressMod p (fun e => { e with frames := e.frames.filter (fun f => !tooOld t f) }) t).count Reg.MSH_AGECNT old) { s with evAt := put 1000 s.elapsed s.evAt })
def execQueueAgeScan (dt : Nat) (s : State) : Host.Outcome State Fault Refusal :=
  .next (onlyIf (queueAgeScanOk (s.pass dt)) (queueAgeScan (s.pass dt)) (s.pass dt))

/-- A connection to a downstream neighbour has dropped: its routes go and its queued frames are dropped with LINKDOWN (R273). -/
def mshLinkDown (nb : Nb) (hop : Hop) (ports : List Nat) (s : State) : State :=
  let s1 : State := { s with msh := { s.msh with routes := s.msh.routes.filter (fun r => !(r.nb == nb)) } }
  mshShow (ports.foldl (fun t p =>
    let n := ((egress t p).frames.filter (fun f => f.hop == hop)).length
    (egressMod p (fun e => { e with frames := e.frames.filter (fun f => !(f.hop == hop)) }) t).count Reg.MSH_LINKDOWNCNT n) s1)

/-! ### The seen cache (R256, R259) -/

def seenSize (s : State) : Nat := if s.isC then 65536 else 4096
def msgId (src seq : Nat) : Nat := src * 16777216 + seq
def seenHas (s : State) (id : Nat) : Bool := s.msh.seen.any (fun e => e.id == id)

/-- Insert a message; a full cache loses its oldest entry, counted and raised when it is younger than SEENLIFE. -/
def seenInsert (id : Nat) (s : State) : State :=
  let s1 := match s.msh.seen with
    | old :: rest =>
      if s.msh.seen.length < seenSize s then s
      else
        let s' : State := { s with msh := { s.msh with seen := rest } }
        if s.elapsed < old.at_ + cycS (cfgN s 14 2) then (s'.inc Reg.MSH_SEENEVCNT).raiseLim 131 1 else s'
    | [] => s
  mshShow { s1 with msh := { s1.msh with seen := s1.msh.seen ++ [Seen.mk id s.elapsed] } }

/-- SEEN_EXPIRY (R259): an entry lives for SEENLIFE. -/
def seenExpiryOk (i : Nat) (s : State) : Bool := match s.msh.seen[i]? with | some e => decide (e.at_ + cycS (cfgN s 14 2) ≤ s.elapsed) | none => false
def seenExpiry (i : Nat) (s : State) : State := mshShow { s with msh := { s.msh with seen := s.msh.seen.eraseIdx i } }
def execSeenExpiry (i dt : Nat) (s : State) : Host.Outcome State Fault Refusal :=
  .next (onlyIf (seenExpiryOk i (s.pass dt)) (seenExpiry i (s.pass dt)) (s.pass dt))

/-! ### Routes (R271) -/

def routeSize (s : State) : Nat := if s.isC then 65536 else 2048
def routeOf (s : State) (dest : Nat) : Option Nb := (s.msh.routes.find? (fun r => r.dest == dest)).map (·.nb)

/-- Make or refresh a route; a full table loses the least recently refreshed, with EV130. -/
def routeLearn (dest : Nat) (nb : Nb) (s : State) : State :=
  let others := s.msh.routes.filter (fun r => !(r.dest == dest))
  if others.length < routeSize s then mshShow { s with msh := { s.msh with routes := others ++ [Route.mk dest nb s.elapsed] } }
  else mshShow ({ s with msh := { s.msh with routes := others.tail ++ [Route.mk dest nb s.elapsed] } }.raiseLim 130 1)
def routeDrop (dest : Nat) (s : State) : State := mshShow { s with msh := { s.msh with routes := s.msh.routes.filter (fun r => !(r.dest == dest)) } }

/-- ROUTE_EXPIRY (R271): an entry not refreshed for RTLIFE. -/
def routeExpiryOk (i : Nat) (s : State) : Bool := match s.msh.routes[i]? with | some r => decide (r.at_ + cycS (cfgN s 20 4) ≤ s.elapsed) | none => false
def routeExpiry (i : Nat) (s : State) : State := mshShow { s with msh := { s.msh with routes := s.msh.routes.eraseIdx i } }
def execRouteExpiry (i dt : Nat) (s : State) : Host.Outcome State Fault Refusal :=
  .next (onlyIf (routeExpiryOk i (s.pass dt)) (routeExpiry i (s.pass dt)) (s.pass dt))

/-! ### Storm policing (R269) -/

def sourceSize (s : State) : Nat := if s.isC then 8192 else 512

/-- The rate per minute and burst of a source: PRIVSRC's own, or FRATE and FBURST. -/
def sourceRate (s : State) (src : Nat) : Nat × Nat :=
  match (List.range 4).find? (fun i => cfgN s (240 + 8 * i) 2 == src && src != 0) with
  | some i => (cfgN s (242 + 8 * i) 2, cfgN s (244 + 8 * i) 1)
  | none => (cfgN s 16 2, cfgN s 11 1)

/-- Take a token of a source's bucket: whether the flood passes, and the state after. -/
def police (src : Nat) (s : State) : Bool × State :=
  let (rate, burst) := sourceRate s src
  let old := ((s.msh.sources.find? (fun x => x.src == src)).map (·.bucket)).getD ⟨burst * 65536, s.elapsed⟩
  let tok := min (burst * 65536) (old.tokens + rate * 65536 * (s.elapsed - old.last) / (60 * 307200000))
  let pass := decide (65536 ≤ tok)
  let others := s.msh.sources.filter (fun x => !(x.src == src))
  let kept := if others.length < sourceSize s then others else others.tail
  (pass, { s with msh := { s.msh with sources := kept ++ [Source.mk src ⟨if pass then tok - 65536 else tok, s.elapsed⟩] } })

/-! ### Relays (R262, R263) -/

def relaySize (s : State) : Nat := if s.isC then 256 else 64

/-- A back-off drawn uniformly from 0 to BOWIN in 1 µs steps (R262): a free value. -/
def backoffDraw (s : State) : Nat := cycUs (s.free % (1000 * cfgN s 9 1 + 1))

/-- A relay accepts a flood whose TTL is at least 1 (R262). -/
def relayStart (id : Nat) (psdu : List Nat) (s : State) : State :=
  if s.msh.relays.length < relaySize s then
    { s with msh := { s.msh with relays := s.msh.relays ++ [Relay.mk id psdu 0 (s.elapsed + backoffDraw s)] } }.drawn 1
  else s.inc Reg.MSH_RELAYFULLCNT

/-- The PSDU of a flood with its TTL lower by one (R263): octet 4, bits 4:0. -/
def ttlDown (psdu : List Nat) : List Nat := setBytes psdu 4 [leAt psdu 4 1 - 1]

/-- RELAY_BACKOFF (R263): suppressed at DUPK duplicates, else a copy on each flood band's port with its deadline. -/
def relayBackoffOk (i : Nat) (s : State) : Bool := match s.msh.relays[i]? with | some r => decide (r.due ≤ s.elapsed) | none => false
def relayBackoff (i : Nat) (s : State) : State :=
  match s.msh.relays[i]? with
  | none => s
  | some r =>
    let s1 : State := { s with msh := { s.msh with relays := s.msh.relays.eraseIdx i } }
    if cfgN s 10 1 ≤ r.dups then s1.inc Reg.MSH_SUPPCNT
    else
      let one := fun (b : Nat) (t : State) =>
        if floodBand t b then enqueue b .bcast (bitsOf (leAt r.psdu 4 1) 6 5) (leAt r.psdu 5 2) r.psdu.length (ttlDown r.psdu) (some (r.due + cycMs (cfgN t 12 2))) t else t
      one 1 (one 0 s1)
def execRelayBackoff (i dt : Nat) (s : State) : Host.Outcome State Fault Refusal :=
  .next (onlyIf (relayBackoffOk i (s.pass dt)) (relayBackoff i (s.pass dt)) (s.pass dt))

/-- RELAY_DEADLINE (R263): a copy still queued at its deadline is dropped. -/
def relayDeadlineOk (p i : Nat) (s : State) : Bool := match (egress s p).frames[i]? with | some f => (match f.deadline with | some d => decide (d ≤ s.elapsed) | none => false) | none => false
def relayDeadline (p i : Nat) (s : State) : State := mshShow ((egressMod p (fun e => { e with frames := e.frames.eraseIdx i }) s).inc Reg.MSH_DEADLINECNT)
def execRelayDeadline (p i dt : Nat) (s : State) : Host.Outcome State Fault Refusal :=
  .next (onlyIf (relayDeadlineOk p i (s.pass dt)) (relayDeadline p i (s.pass dt)) (s.pass dt))

/-- A new configuration of the forwarding layer (R255, R285, R289): MSH_CFG and FLOODBAND; a class whose DISC changes starts afresh with its
queued frames' tags computed again; buckets start full. -/
def mshConfig (old : List Nat) (s : State) : State :=
  let s1 := (((((s.wr Reg.MSH_STAT_FLOODBAND (cfgN s 6 1)).wr Reg.MSH_CFG_BOWIN (cfgN s 9 1)).wr Reg.MSH_CFG_DUPK (cfgN s 10 1)).wr Reg.MSH_CFG_TTL0 (cfgN s 7 1)).wr Reg.MSH_CFG_DISC1 (bitOf (cfgN s 19 1) 0)).wr Reg.MSH_CFG_DISC2 (bitOf (cfgN s 19 1) 1) |>.wr Reg.MSH_CFG_DISC3 (bitOf (cfgN s 19 1) 2)
  let fresh := fun (c : Nat) => c != 0 && bitOf (leAt old 19 1) (c - 1) != bitOf (cfgN s 19 1) (c - 1)
  let zeroQ := fun (l : List Nat) => (List.range 16).map (fun q => if fresh (q / 4) then 0 else l.getD q 0)
  let zeroC := fun (l : List Nat) => (List.range 4).map (fun c => if fresh c then 0 else l.getD c 0)
  let retag := fun (p : Nat) (t : State) =>
    let fs := (egress t p).frames
    let t1 := egressMod p (fun e => { e with frames := [], qb := [], pb := none, deficit := zeroQ e.deficit, ptr := zeroC e.ptr, vt := zeroC e.vt, lastF := zeroQ e.lastF }) t
    fs.foldl (fun u f =>
      let tg := tagEnter u p f.queue f.len
      if fresh (f.queue / 4) then egressMod p (fun e => { e with frames := e.frames ++ [{ f with tagS := tg.1, tagF := tg.2 }], lastF := modAt e.lastF f.queue (fun _ => tg.2) }) u
      else egressMod p (fun e => { e with frames := e.frames ++ [f] }) u) t1
  (List.range 4).foldl (fun t p => retag p t) s1

end Sys2Proof.Machine
end

