-- ==== Sys2Proof/Machine/FirnOps.lean ====
section
/-!
DEFINITION. FIRN: local time, coast, the discipline loop, the root's reference, comparators and capture units
(02_firn_time.md). LAUNCH and CAPTURE, which act on the event fabric and its sinks, stand with the events.
-/
namespace Sys2Proof.Machine

/-- The number FIRN_STAT.STATE shows for a stage (R68, R96). -/
def Stage.code : Stage → Nat
  | .free => 0 | .acquiring => 1 | .locked => 2 | .holdover => 3 | .coast => 4

/-- The TIMESTATE notice (R359): STATE, ERRBND and the last step. -/
def timeStateNotice (s : State) : State :=
  notice 0xF006 4 ([s.rd Reg.FIRN_STAT_STATE, 0] ++ leBytes 2 (s.rd Reg.FIRN_QUAL_ERRBND) ++ leBytes 4 (s.rd Reg.FIRN_LASTSTEP)) s

/-- Enter a stage: FIRN_STAT.STATE changes, EV97 is raised and the TIMESTATE notice posted (R68, R107, R359); nothing happens on the
stage in force. -/
def firnStage (st : Stage) (s : State) : State :=
  if s.firn.stage = st then s else
  timeStateNotice (({ s with firn := { s.firn with stage := st } }.wr Reg.FIRN_STAT_STATE st.code).raise 97)

/-- The committed compare time of comparator `n` (R83), 64 bits. -/
def cmpT (s : State) (n : Nat) : Nat := s.rdC (Reg.FIRN_CMP_TLO n) + 2 ^ 32 * s.rdC (Reg.FIRN_CMP_THI n)

/-- The shadow compare time of comparator `n` (R101). -/
def cmpShadowT (s : State) (n : Nat) : Nat := s.rd (Reg.FIRN_CMP_TLO n) + 2 ^ 32 * s.rd (Reg.FIRN_CMP_THI n)

/-- The owner and the security attribute of comparator `n` (R80): 0 to 15 are Glety's, 16 to 31 follow the ownership table. -/
def cmpOwner (s : State) (n : Nat) : Nat := if n < 16 then 0 else s.rd (Reg.PROT_OWN_OWNER (n - 16))
def cmpSec (s : State) (n : Nat) : Nat := if n < 16 then 1 else s.rd (Reg.PROT_OWN_SEC (n - 16))

/-- A comparator is on its way to its launch. -/
def cmpInflight (s : State) (n : Nat) : Bool := s.on (Reg.FIRN_CMP_STAT_INFLIGHT n)

/-- The FIRN cycle, counted from now, in which local time reaches a time given in ft (R82). -/
def cycleOf (s : State) (t : Nat) : Nat := cdiv (t * ftUnit - s.firn.loc) s.firn.inc

/-- Put a comparator in flight for a launch instant (R83, R85). -/
def cmpFly (n at_ : Nat) (late : Bool) (s : State) : State :=
  (({ s with firn := { s.firn with flight := s.firn.flight ++ [(Launch.mk n at_ late)] } }).clr (Reg.FIRN_CMP_STAT_ARMED n)).set1 (Reg.FIRN_CMP_STAT_INFLIGHT n)

/-- LATEBY: launch instant minus T in units of 1,024 ft, rounded up, saturating (R103); the launch is 8,192 ft after now. -/
def lateBy (s : State) (t : Nat) : Nat := min 0xFFFF (cdiv (s.firn.loc + 8192 * ftUnit - t * ftUnit) (1024 * ftUnit))

/-- A late match (R85): it matches at once, and the launch instant is the match plus 8,192 ft. -/
def cmpLateMatch (n : Nat) (s : State) : State :=
  cmpFly n (s.now + 8192) true
    (((s.set1 (Reg.FIRN_CMP_STAT_LATE n)).wr (Reg.FIRN_CMP_STAT_LATEBY n) (lateBy s (cmpT s n))).inc Reg.FIRN_LATECNT)

/-- An armed comparator's match time has come (R83). -/
def cmpDue (s : State) (n : Nat) : Bool :=
  s.on (Reg.FIRN_CMP_STAT_ARMED n) && decide (cmpT s n * ftUnit ≤ s.firn.loc + 8192 * ftUnit)

/-- Every armed comparator whose match time has passed matches late at once (R61, R62, R85). -/
def cmpLateAll (s : State) : State :=
  (List.range 32).foldl (fun t n => if cmpDue t n then cmpLateMatch n t else t) s

/-- FIRN_LASTSTEP for a step in ft: units of 1,024 ft toward zero, saturating (R100). -/
def lastStepCode (d : Int) : Nat := ofSigned 32 (clampInt (-0x7FFFFFFF) 0x7FFFFFFF (d.tdiv 1024))

/-- Set STAT.STEPPED of every armed or flying comparator (R86). -/
def cmpMarkStepped (s : State) : State :=
  (List.range 32).foldl (fun t n => if t.on (Reg.FIRN_CMP_STAT_ARMED n) || cmpInflight t n then t.set1 (Reg.FIRN_CMP_STAT_STEPPED n) else t) s

/-- Move the local counter by a signed number of ft, modulo 2^64 ft. -/
def moveLoc (loc : Nat) (d : Int) : Nat := (((loc : Int) + d * 268435456) % (2 ^ 92 : Nat)).toNat

/-- A step of local time by `d` ft (R59, R60): flags, count, LASTSTEP and EV96; flying launches complete 8,192 ft after their match,
counted before the step (R86); an armed comparator that the step passes matches late (R85). -/
def firnStep (d : Int) (s : State) : State :=
  let s1 := ((s.set1 Reg.FIRN_STAT_STEPPED).inc Reg.FIRN_STEPCNT).wr Reg.FIRN_LASTSTEP (lastStepCode d)
  let s2 := cmpMarkStepped s1
  let fl := s2.firn.flight.map (fun l => { l with at_ := ((l.at_ : Int) + d).toNat })
  let s3 := { s2 with firn := { s2.firn with loc := moveLoc s2.firn.loc d, flight := fl, slewLeft := 0, slewRate := 0, stepAt := s2.elapsed } }
  let s4 := timeStateNotice (s3.raise 96)
  if s4.firn.coasting then s4 else cmpLateAll s4

/-! ### Coast (R61, R62) -/

/-- Entry into coast: STATE 4, COASTED, EV97, and the phase of the crystal edge is kept. -/
def coastEnter (s : State) : State :=
  if s.firn.coasting then { s with firn := { s.firn with exitPhase := 0 } } else
  firnStage .coast { (s.set1 Reg.FIRN_STAT_COASTED) with
    firn := { s.firn with coasting := true, exitPhase := 0, edgePhase := s.elapsed % cycXtal, slewLeft := 0, slewRate := 0 } }

/-- COAST_RESTART (R62): phase 1 ends when the PLL locks; FIRN keeps coasting. -/
def coastRestartOk (s : State) : Bool := s.firn.coasting && s.firn.exitPhase == 1 && s.firn.tcxoLost.isNone
def coastRestart (s : State) : State := { s with firn := { s.firn with exitPhase := 2 } }
def execCoastRestart (dt : Nat) (s : State) : Host.Outcome State Fault Refusal :=
  .next (onlyIf (coastRestartOk (s.pass dt)) (coastRestart (s.pass dt)) (s.pass dt))

/-- COAST_ALIGN (R62): at a crystal edge fine counting resumes with the phase kept at entry; STATE becomes HOLDOVER; every armed
comparator whose match time passed matches late. -/
def coastAlignOk (s : State) : Bool := s.firn.coasting && s.firn.exitPhase == 2 && s.elapsed % cycXtal == 0
def coastAlign (s : State) : State :=
  cmpLateAll (firnStage .holdover { s with
    firn := { s.firn with coasting := false, exitPhase := 0, loc := s.firn.loc - s.firn.edgePhase * s.firn.inc, former := .acquiring, holdAt := s.elapsed } })
def execCoastAlign (dt : Nat) (s : State) : Host.Outcome State Fault Refusal :=
  .next (onlyIf (coastAlignOk (s.pass dt)) (coastAlign (s.pass dt)) (s.pass dt))

/-- The launch in flight of comparator `n`. -/
def flightOf (s : State) (n : Nat) : Option Launch := s.firn.flight.find? (fun l => l.cmp == n)

/-- Take a comparator out of flight. -/
def landCmp (n : Nat) (s : State) : State :=
  ({ s with firn := { s.firn with flight := s.firn.flight.filter (fun l => !(l.cmp == n)) } }).clr (Reg.FIRN_CMP_STAT_INFLIGHT n)

/-- COAST_LAUNCH (R61): the first crystal edge at or after the launch instant: FIRED, COASTED, the event, and no channel. -/
def coastLaunchOk (n : Nat) (s : State) : Bool :=
  s.firn.coasting && decide (n < 32) && s.elapsed % cycXtal == 0 &&
  (match flightOf s n with | some l => decide (l.at_ ≤ s.now) | none => false)
def coastLaunch (n : Nat) (s : State) : State :=
  ((((landCmp n s).clr (Reg.FIRN_CMP_STAT_ARMED n)).set1 (Reg.FIRN_CMP_STAT_FIRED n)).set1 (Reg.FIRN_CMP_STAT_COASTED n)).raise (64 + n)
def execCoastLaunch (n dt : Nat) (s : State) : Host.Outcome State Fault Refusal :=
  .next (onlyIf (coastLaunchOk n (s.pass dt)) (coastLaunch n (s.pass dt)) (s.pass dt))

/-! ### Reading the clock (R56, R93) -/

/-- Latch the HI word of local time for an initiator; the LO word is the read's value. -/
def firnTimeLo (ini : Nat) (s : State) : Nat × State :=
  (s.now % 2 ^ 32, { s with firn := { s.firn with timeHi := put ini (s.now / 2 ^ 32 % 2 ^ 32) s.firn.timeHi } })

/-- The held capture of unit `k`. -/
def heldCapture (s : State) (k : Nat) : Nat := (look k s.firn.held).getD 0

/-- A read of FIRN_CAPk_TLO: the held capture, its HI word latched for the reader, and the capture counts as read (R93). -/
def capTlo (ini k : Nat) (s : State) : Nat × State :=
  (heldCapture s k % 2 ^ 32, { s with firn := { s.firn with capHi := put (32 * k + ini) (heldCapture s k / 2 ^ 32) s.firn.capHi, heldRead := k :: s.firn.heldRead.filter (fun j => !(j == k)) } })

/-! ### Comparators (R80 to R88) -/

/-- A write of 1 to ARM asks for the commit, four FIRN cycles later (R81). -/
def cmpArm (n : Nat) (s : State) : State :=
  { (s.set1 (Reg.FIRN_CMP_CTL_ARM n)) with firn := { s.firn with armAt := put n s.elapsed s.firn.armAt } }

/-- A DISARM write (R87): an ARMED comparator is disarmed; while INFLIGHT nothing happens. -/
def cmpDisarm (n : Nat) (s : State) : State :=
  if s.on (Reg.FIRN_CMP_STAT_ARMED n) then s.clr (Reg.FIRN_CMP_STAT_ARMED n) else s

/-- The commit is refused (R82): a channel of another owner or world, a launch channel driven in the same FIRN cycle by a comparator
of another owner, or a launch in flight. -/
def cmpRefused (n : Nat) (s : State) : Bool :=
  let ch := s.rd (Reg.FIRN_CMP_CTL_CHAN n)
  cmpInflight s n ||
  (s.on (Reg.FIRN_CMP_CTL_CHEN n) &&
    (!(s.rd (Reg.EVT_CH_OWN_OWNER ch) == cmpOwner s n && s.rd (Reg.EVT_CH_OWN_SEC ch) == cmpSec s n) ||
     (decide (ch < 8) && (List.range 32).any (fun m =>
        !(m == n) && s.on (Reg.FIRN_CMP_STAT_ARMED m) && s.rdC (Reg.FIRN_CMP_CTL_CHEN m) == 1 && s.rdC (Reg.FIRN_CMP_CTL_CHAN m) == ch &&
        cycleOf s (cmpT s m) == cycleOf s (cmpShadowT s n) && !(cmpOwner s m == cmpOwner s n)))))

/-- The class S fields of comparator `n` (R101, R102). -/
def cmpSFields (n : Nat) : List Field :=
  [Reg.FIRN_CMP_TLO n, Reg.FIRN_CMP_THI n, Reg.FIRN_CMP_CTL_LATESUP n, Reg.FIRN_CMP_CTL_CHEN n, Reg.FIRN_CMP_CTL_CHAN n]

/-- A successful commit arms the comparator and clears FIRED, LATE and COASTED (R83, R103). -/
def cmpCommit (n : Nat) (s : State) : State :=
  ((((s.commitFields (cmpSFields n)).clr (Reg.FIRN_CMP_STAT_FIRED n)).clr (Reg.FIRN_CMP_STAT_LATE n)).clr (Reg.FIRN_CMP_STAT_COASTED n)).set1 (Reg.FIRN_CMP_STAT_ARMED n)

/-- The commit's end: ARM reads 0 and nothing is pending. -/
def cmpCommitEnd (n : Nat) (s : State) : State :=
  { (s.clr (Reg.FIRN_CMP_CTL_ARM n)) with firn := { s.firn with armAt := del n s.firn.armAt } }

/-- A match time that already lies before this FIRN cycle: the match is late (R85). -/
def cmpOverdue (n : Nat) (s : State) : Bool :=
  cmpDue s n && decide (cmpT s n * ftUnit + s.firn.inc ≤ s.firn.loc + 8192 * ftUnit)

/-- COMPARATOR_COMMIT (R81, R82, R85). -/
def comparatorCommitOk (n : Nat) (s : State) : Bool :=
  decide (n < 32) && s.on (Reg.FIRN_CMP_CTL_ARM n) && (match look n s.firn.armAt with | some t => decide (t + 4 ≤ s.elapsed) | none => false)
def comparatorCommit (n : Nat) (s : State) : State :=
  let s1 := cmpCommitEnd n s
  if cmpRefused n s then s1.set1 (Reg.FIRN_CMP_STAT_CFGERR n)
  else
    let s2 := cmpCommit n s1
    if !s2.firn.coasting && cmpOverdue n s2 then cmpLateMatch n s2 else s2
def execComparatorCommit (n dt : Nat) (s : State) : Host.Outcome State Fault Refusal :=
  .next (onlyIf (comparatorCommitOk n (s.pass dt)) (comparatorCommit n (s.pass dt)) (s.pass dt))

/-- MATCH (R83): local time has reached T minus 8,192 ft; the launch instant is T. -/
def matchOk (n : Nat) (s : State) : Bool := decide (n < 32) && !s.firn.coasting && cmpDue s n
def matchCmp (n : Nat) (s : State) : State := cmpFly n (cmpT s n) false s
def execMatch (n dt : Nat) (s : State) : Host.Outcome State Fault Refusal :=
  .next (onlyIf (matchOk n (s.pass dt)) (matchCmp n (s.pass dt)) (s.pass dt))

/-! ### Capture units (R91 to R93) -/

/-- A write of 1 to APPLY of capture unit `k` asks for the commit (R91). -/
def capApply (k : Nat) (s : State) : State :=
  { (s.set1 (Reg.FIRN_CAP_CTL_APPLY k)) with firn := { s.firn with applyAt := put k s.elapsed s.firn.applyAt } }

/-- The class S fields of capture unit `k` (R105). -/
def capSFields (k : Nat) : List Field := [Reg.FIRN_CAP_CTL_EN k, Reg.FIRN_CAP_CTL_EDGE k, Reg.FIRN_CAP_CTL_SRC k]

/-- The commit is refused for an unused SRC value or EDGE 0b11 (R91). -/
def capRefused (k : Nat) (s : State) : Bool :=
  let src := s.rd (Reg.FIRN_CAP_CTL_SRC k)
  s.rd (Reg.FIRN_CAP_CTL_EDGE k) == 3 || !(decide (src < 0x20) || (decide (0x40 ≤ src) && decide (src < 0x80)))

/-- CAPTURE_APPLY (R91): the request to commit, or four cycles after it the commit itself, made whole or refused whole. -/
def captureApplyOk (k : Nat) (s : State) : Bool :=
  decide (k < 4) && s.on (Reg.FIRN_CAP_CTL_APPLY k) && (match look k s.firn.applyAt with | some t => decide (t + 4 ≤ s.elapsed) | none => false)
def captureApply (k : Nat) (s : State) : State :=
  let s1 : State := { (s.clr (Reg.FIRN_CAP_CTL_APPLY k)) with firn := { s.firn with applyAt := del k s.firn.applyAt } }
  if capRefused k s then s1.set1 (Reg.FIRN_CAP_STAT_CFGERR k) else s1.commitFields (capSFields k)

/-- Record a time in capture unit `k` (R92, R93): CAPF and EV98 + k; an unread held capture is replaced with OVR, but not when the
TLO read falls in the same cycle. -/
def capRecord (k t : Nat) (readNow : Bool) (s : State) : State :=
  let full := s.on (Reg.FIRN_CAP_STAT_CAPF k) && !(s.firn.heldRead.contains k) && !readNow
  let s1 := if full then s.set1 (Reg.FIRN_CAP_STAT_OVR k) else s
  ({ (s1.set1 (Reg.FIRN_CAP_STAT_CAPF k)) with
      firn := { s1.firn with held := put k (t % 2 ^ 64) s1.firn.held, heldRead := s1.firn.heldRead.filter (fun j => !(j == k)) } }).raise (98 + k)

/-! ### The discipline loop (R63 to R76) -/

/-- The nominal increment (R58). -/
def firnNominal : Nat := 0x37EC8EC2

/-- FIRN_FREQ of an increment: the rate against nominal in ppb (R99). -/
def freqCode (inc : Nat) : Nat := ofSigned 32 ((((inc : Int) - (firnNominal : Int)) * 1000000000).tdiv firnNominal)

/-- Set the increment, kept within 200 ppm of nominal (R59), and FIRN_FREQ with it. -/
def firnRate (inc : Int) (s : State) : State :=
  let d : Int := firnNominal * 200 / 1000000
  let i := (clampInt ((firnNominal : Int) - d) ((firnNominal : Int) + d) inc).toNat
  { s with firn := { s.firn with inc := i } }.wr Reg.FIRN_FREQ (freqCode i)

/-- Slew a correction of `d` units of 2^-28 ft over `span` cycles, never faster than 100 ppm (R59, R68). -/
def firnSlew (d : Int) (span : Nat) (s : State) : State :=
  let want := if span = 0 then d.natAbs else cdiv d.natAbs span
  { s with firn := { s.firn with slewLeft := d, slewRate := min want (s.firn.inc * 100 / 1000000) } }

/-- The loop's constants kp and ki as denominators (R68). -/
def loopKp : Stage → Nat | .locked => 8 | _ => 2
def loopKi : Stage → Nat | .locked => 256 | _ => 16

/-- One accepted sample of offset `e` ft in the loop (R68): phase by slew, rate by `ki`. -/
def loopRun (e : Int) (s : State) : State :=
  let span := match s.firn.lastSample with | some t => s.elapsed - t | none => 0
  let s1 := firnSlew ((-(e * 268435456)).tdiv (loopKp s.firn.stage)) span s
  let spanFt : Int := (span : Int) * s.firn.inc / 268435456
  if spanFt = 0 then s1
  else firnRate ((s1.firn.inc : Int) - ((firnNominal : Int) * e).tdiv (spanFt * loopKi s.firn.stage)) s1

/-- An accepted sample (R68, R69, R72). The hop's running sigma is the free value: the spec gives no formula (log entry 8). -/
def sampleAccept (e : Int) (s : State) : State :=
  let was := s.firn.stage
  let st : Stage := match was with | .free => .acquiring | .holdover => s.firn.former | x => x
  let s1 := firnStage st s
  let big := decide (ftUs 100 < e.natAbs) && (was == .free || st == .acquiring)
  let s2 := if big then firnStage .acquiring (firnStep (-e) s1) else loopRun e s1
  let n := if big then 1 else s2.firn.inRow + 1
  let bound := min 0xFFFF (s2.firn.parentBound + 3 * s2.free)
  let s3 : State := { s2.drawn 1 with firn := { s2.firn with lastSample := some s2.elapsed, rejects := [], inRow := n, baseBound := bound } }
  let s4 := (s3.wr Reg.FIRN_QUAL_ERRBND bound).wr Reg.FIRN_QUAL_HOPS (min 31 (s3.firn.parentHops + 1))
  if s4.firn.stage = .acquiring ∧ 32 ≤ n then firnStage .locked { s4 with firn := { s4.firn with inRow := 0 } } else s4

/-- The mean of offsets. -/
def meanOf (l : List Int) : Int := if l.isEmpty then 0 else l.sum.tdiv (l.length : Int)

/-- Offsets agree within 1 µs. -/
def agreeUs (l : List Int) : Bool := l.all (fun a => l.all (fun b => decide ((a - b).natAbs ≤ ftUs 1)))

/-- A rejected sample (R67, R70): counted; eight in a row that agree within 1 µs return the loop to ACQUIRING, which steps when their
mean exceeds 100 µs and slews otherwise. -/
def sampleReject (e : Int) (s : State) : State :=
  let l := (e :: s.firn.rejects).take 8
  let s1 := { s.inc Reg.FIRN_REJCNT with firn := { s.firn with rejects := l, inRow := 0 } }
  if l.length = 8 ∧ agreeUs l then
    let m := meanOf l
    let s2 := firnStage .acquiring { s1 with firn := { s1.firn with rejects := [], former := .acquiring } }
    if ftUs 100 < m.natAbs then firnStep (-m) s2 else firnSlew (-(m * 268435456)) 0 s2
  else s1

/-- A sample departs from the loop's prediction by more than the larger of 100 ns and four sigma (R67). The prediction is the phase
correction not yet slewed in (log entry 8). -/
def sampleOff (e : Int) (s : State) : Bool :=
  let d := (e + s.firn.slewLeft.tdiv 268435456).natAbs
  decide (max (107 * 1) (4 * s.free) < d)

/-- A timing sample of offset `e` ft, local minus parent with the path delay removed (R63 to R70). At most four are used in a second
(R66); in LOCKED and HOLDOVER one that departs from the prediction is rejected. -/
def firnSample (e : Int) (s : State) : State :=
  if s.firn.coasting || s.firn.stopped then s else
  let fresh := decide (cycS 1 ≤ s.elapsed - s.firn.sampleSec)
  let n := if fresh then 0 else s.firn.samplesInSec
  if 4 ≤ n then s else
  let s1 := { s with firn := { s.firn with samplesInSec := n + 1, sampleSec := if fresh then s.elapsed else s.firn.sampleSec } }
  let s2 := s1.drawn 1
  if (s1.firn.stage == .locked || s1.firn.stage == .holdover) && sampleOff e s1 then sampleReject e s2 else sampleAccept e s2

/-- HOLDOVER_ENTRY (R66): 30 s without an accepted sample; the frequency stays frozen and the bound starts to grow. -/
def holdoverEntryOk (s : State) : Bool :=
  (s.firn.stage == .locked || s.firn.stage == .acquiring) && !s.firn.coasting &&
  (match s.firn.lastSample with | some t => decide (t + cycS 30 ≤ s.elapsed) | none => false)
def holdoverEntry (s : State) : State :=
  firnStage .holdover { s with firn := { s.firn with former := s.firn.stage, holdAt := s.elapsed, inRow := 0, slewLeft := 0, slewRate := 0 } }
def execHoldoverEntry (dt : Nat) (s : State) : Host.Outcome State Fault Refusal :=
  .next (onlyIf (holdoverEntryOk (s.pass dt)) (holdoverEntry (s.pass dt)) (s.pass dt))

/-- The error bound shown now (R66, R72): 0 on the root, and in HOLDOVER the last bound grown by 20 ns a second. -/
def errBound (s : State) : Nat :=
  if s.on Reg.FIRN_STAT_ROOT then 0
  else if s.firn.stage = .holdover then min 0xFFFF (s.firn.baseBound + 20 * ((s.elapsed - s.firn.holdAt) / cycS 1))
  else s.firn.baseBound

/-- REFACC now (R75): grown by 20 ns a second while pulses are lost, by 500 ns a second on the TCXO, saturating at 0xFFFFFFFE. -/
def refAcc (s : State) : Nat :=
  if !s.on Reg.FIRN_STAT_ROOT then 0xFFFFFFFF else
  let secs := (s.elapsed - s.firn.refAt) / cycS 1
  match s.firn.source with
  | .freeRun => 0xFFFFFFFF
  | .set => min 0xFFFFFFFE (s.firn.refacc + 500 * secs)
  | .pps => if s.firn.pulseLost then min 0xFFFFFFFE (s.firn.refacc + 20 * secs) else s.firn.refacc

/-- PPS_PULSE_LOSS (R75): no pulse accepted for 2 s. -/
def ppsPulseLossOk (s : State) : Bool :=
  s.on Reg.FIRN_STAT_ROOT && s.firn.source == .pps && !s.firn.pulseLost &&
  (match s.firn.lastPulse with | some t => decide (t + cycS 2 ≤ s.elapsed) | none => false)
def ppsPulseLoss (s : State) : State := { s with firn := { s.firn with pulseLost := true, refAt := s.elapsed } }
def execPpsPulseLoss (dt : Nat) (s : State) : Host.Outcome State Fault Refusal :=
  .next (onlyIf (ppsPulseLossOk (s.pass dt)) (ppsPulseLoss (s.pass dt)) (s.pass dt))

/-- A captured pulse per second on the root (R74): e is the captured time minus the pulse's Firn seconds; an accepted pulse refreshes
REFACC to ACC plus 2 ns (R75). -/
def ppsPulse (t : Nat) (s : State) : State :=
  if !(s.on Reg.FIRN_STAT_ROOT && s.firn.source == .pps) then s else
  let e : Int := (t : Int) - (ftS s.firn.ppsSec : Int)
  let s1 := firnSample e { s with firn := { s.firn with ppsSec := s.firn.ppsSec + 1 } }
  if s1.firn.lastSample = some s1.elapsed then
    { s1 with firn := { s1.firn with lastPulse := some s1.elapsed, pulseLost := false, refacc := s1.firn.ppsAcc + 2, refAt := s1.elapsed } }
  else s1

/-- Reset of FIRN (R48, R87): time cleared, every comparator disarmed; register fields return to reset with the scope's own sweep. -/
def firnReset (s : State) : State := { s with firn := Firn.reset }

end Sys2Proof.Machine
end

