-- ==== Sys2Proof/Machine/PwrVote.lean ====
section
/-!
DEFINITION. Power votes, targets and the start of handshakes and rises (R631, R632, R635, R636, R643, R652).
-/
namespace Sys2Proof.Machine

/-- Change the controller's state. -/
def pwrMod (f : Pwr → Pwr) (s : State) : State := { s with pwr := f s.pwr }

/-- The Leaf profile is in force (R627). -/
def leafMode (s : State) : Bool := s.on Reg.BKP_SET0_PROFILE

/-- A domain's state: 0 On, 1 Retention, 2 Off, 3 in transition; AON is On. -/
def domState (s : State) (n : Nat) : Nat := if n = 0 then 0 else s.rd (Reg.PWR_DOM_STATE n)
def domOn (s : State) (n : Nat) : Bool := domState s n == 0 || (n == 2 && domState s n == 1)

/-- The target by the votes (R631): the higher of the two; PD_WPT Off in Leaf; On in the Anchor profile. -/
def domTarget (s : State) (n : Nat) : Nat := if !leafMode s then 0 else if n = 13 then 2 else min (s.rd (Reg.PWR_DOM_CREQ n)) (s.rd (Reg.PWR_DOM_GREQ n))

/-- PWR_STAT.CHANGED sets, with EV103 (R647, R653). -/
def pwrChanged (s : State) : State := (s.set1 Reg.PWR_STAT_CHANGED).raise 103

/-- A log entry (R652), PWR_STAT.REFUSED and EV102. -/
def pwrLog (dom req reason : Nat) (s : State) : State :=
  let k := s.rd Reg.PWR_LOGIDX_NEXT
  let s1 := ((((s.set1 (Reg.PWR_LOG_VALID k)).wr (Reg.PWR_LOG_DOMAIN k) dom).wr (Reg.PWR_LOG_REQ k) req).wr (Reg.PWR_LOG_REASON k) reason).wr (Reg.PWR_LOG_TIME k) (s.upMs % 65536)
  ((s1.wr Reg.PWR_LOGIDX_NEXT ((k + 1) % 16)).set1 Reg.PWR_STAT_REFUSED).raise 102

/-- The handshake that runs for a domain. -/
def hsOf (s : State) (n : Nat) : Option Hs := s.pwr.hs.find? (fun h => h.dom == n)
def hsDrop (n : Nat) (s : State) : State := pwrMod (fun p => { p with hs := p.hs.filter (fun h => !(h.dom == n)) }) s

/-- A domain starts to come up (R632, R637); PD_FAB comes up first when it is not On (R635). -/
def domRise1 (n : Nat) (thaw : Bool) (s : State) : State :=
  if domState s n = 0 ∨ domState s n = 3 then s
  else (pwrMod (fun p => { p with rise := p.rise ++ [Rise.mk n (domState s n) s.elapsed thaw] }) s).wr (Reg.PWR_DOM_STATE n) 3
def domRise (n : Nat) (thaw : Bool) (s : State) : State := domRise1 n thaw (if n = 11 then s else domRise1 11 false s)

/-- An entry is abandoned (R636): the log reason ACCESS, HELD and EV102; the domain stays On. -/
def entryAbandon (n : Nat) (s : State) : State :=
  match hsOf s n with
  | none => s
  | some h => (pwrLog n h.target 0x08 (hsDrop n s)).set1 (Reg.PWR_DOM_HELD n)

/-- A vote of a domain has been written (R632). -/
def voteChanged (n : Nat) (s0 : State) : State :=
  let t := domTarget s0 n
  let s := s0.wr (Reg.PWR_DOM_TARGET n) t
  if !leafMode s then s
  else match hsOf s n with
    | some _ => if t = 0 then entryAbandon n s else pwrMod (fun p => { p with later := n :: p.later.filter (fun x => !(x == n)) }) s
    | none =>
      let st := domState s n
      if st = 3 then s
      else if st < t then pwrMod (fun p => { p with hs := p.hs ++ [Hs.mk n t s.elapsed none none false] }) s
      else if t < st then domRise n false s
      else s

/-- Glety writes its vote (R631). -/
def gVote (n v : Nat) (s : State) : State := if s.rd (Reg.PWR_DOM_GREQ n) = v then s else voteChanged n (s.wr (Reg.PWR_DOM_GREQ n) v)

/-- The customer writes CREQ (R651): 3 is ignored with CFGERR. -/
def cVote (n v : Nat) (s : State) : State := if v % 4 = 3 then s.set1 Reg.PWR_STAT_CFGERR else voteChanged n (s.wr (Reg.PWR_DOM_CREQ n) v)

/-- Both votes are set to On (R637, R641, R645). -/
def votesOn (n : Nat) (s : State) : State := voteChanged n ((s.wr (Reg.PWR_DOM_CREQ n) 0).wr (Reg.PWR_DOM_GREQ n) 0)

end Sys2Proof.Machine
end

