-- ==== Sys2Proof/Machine/RxcWin.lean ====
section
/-!
DEFINITION. The receiver's windows, bins and receive paths (R108, R157, R162, R183), read from RXC_STAT and RXC_WINn.
-/
namespace Sys2Proof.Machine

/-- A window's centre in kHz and its number of bins (R162). -/
def winFc (s : State) (w : Nat) : Nat := s.rd (Reg.RXC_WIN_FC w)
def winBins (s : State) (w : Nat) : Nat := 64 * s.rd (Reg.RXC_WIN_WIDTH w)

/-- A bin of the window (R162). -/
def winHas (s : State) (w bin : Nat) : Bool := decide (256 - winBins s w / 2 ≤ bin) && decide (bin + 1 ≤ 256 + winBins s w / 2)

/-- The centre of a bin in kHz (R162). -/
def binFreq (fc bin : Nat) : Nat := fc + 200 * bin - 51200

/-- The receive path a window lies in: 0 ANT_S up to 1.3 GHz, 1 ANT_W (R108). -/
def winPath (s : State) (w : Nat) : Nat := if winFc s w < 1300000 then 0 else 1

/-- The window detects preambles: W0DET and W1DET (R185). -/
def winDet (s : State) (w : Nat) : Bool := if w = 0 then s.on Reg.RXC_STAT_W0DET else s.on Reg.RXC_STAT_W1DET

/-- The zone that holds a span with 12.5 MHz to spare at both edges, 1 to 7; 0 when there is none (R157). -/
def winZone (fc bins : Nat) : Nat :=
  let lo := fc - 100 * (bins + 1)
  let hi := fc + 100 * (bins - 1)
  let z := lo / 375000
  if 1 ≤ z ∧ z ≤ 7 ∧ 375000 * z + 12500 ≤ lo ∧ hi + 12500 ≤ 375000 * (z + 1) then z else 0

/-- A bin lies within 2 MHz of the second or third harmonic of a carrier (R183). -/
def binBlanked (freq f : Nat) : Bool :=
  (decide (f ≤ 2 * freq + 2000) && decide (2 * freq ≤ f + 2000)) || (decide (f ≤ 3 * freq + 2000) && decide (3 * freq ≤ f + 2000))

/-- A transmission on a port blanks a bin of an active window of the other path (R183). -/
def txBlanks (s : State) (port freq w : Nat) : Bool :=
  winDet s w && winPath s w != port && (List.range (winBins s w)).any (fun i => binBlanked freq (binFreq (winFc s w) (256 - winBins s w / 2 + i)))

end Sys2Proof.Machine
end

