-- ==== Sys2Proof/Machine/RfeOps.lean ====
section
/-!
DEFINITION. The radio front end: the state table, the synthesizer, transmissions and their outcomes, mismatch, the ageing back-off,
calibrations and the regime's budgets (03_radio_front_end.md).
-/
namespace Sys2Proof.Machine

/-! ### Tables -/

/-- The body of the table in force: a loaded one, or the shipped one (R356, R358). -/
def rfeBody (s : State) (tid : Nat) (shipped : List Nat) : List Nat :=
  match look tid s.tables with | some t => t.body | none => shipped


/-- The state table's body (R128). -/
def stBody (s : State) : List Nat := rfeBody s 0x10 shipState

/-- The 16 bytes of the state with an ID, among `n` entries. -/
def stFind (id : Nat) : Nat → List Nat → Option (List Nat)
  | 0, _ => none
  | n + 1, l => if l.headD 256 = id then some (l.take 16) else stFind id n (l.drop 16)

/-- The entry of a state (R128). -/
def stEntry (s : State) (id : Nat) : Option (List Nat) := stFind id (leAt (stBody s) 2 1) ((stBody s).drop 4)

/-- A field of a state's entry; 0 for an absent state. -/
def stField (s : State) (id off n : Nat) : Nat := match stEntry s id with | some e => leAt e off n | none => 0

/-- An action bit of a state (R129). -/
def stAct (s : State) (id bit : Nat) : Bool := bitOf (stField s id 6 2) bit == 1

/-- The Leaf profile is in force (R627). -/
def isLeaf (s : State) : Bool := s.on Reg.BKP_SET0_PROFILE

/-- The HOME state of the profile in force (R128). -/
def stHome (s : State) : Nat := if isLeaf s then leAt (stBody s) 1 1 else leAt (stBody s) 0 1

/-- A target byte of the table: HOME for 0xFE, none for 0xFF (R128). -/
def stTarget (s : State) (t : Nat) : Option Nat := if t = 0xFF then none else if t = 0xFE then some (stHome s) else some t

/-- The current state's ID and its KIND. -/
def stNow (s : State) : Nat := s.rd Reg.RFE_STAT_STATE
def stKind (s : State) : Nat := s.rd Reg.RFE_STAT_KIND

/-- Regime blocks of a regime table: the block of a regime number, among `n` blocks (R143). -/
def regFind (regime : Nat) : Nat → List Nat → Option (List Nat)
  | 0, _ => none
  | n + 1, l => if l.headD 0 = regime then some (l.take 196) else regFind regime n (l.drop 196)

/-- The active regime's block (R144). -/
def regBlock (s : State) : Option (List Nat) :=
  let b := rfeBody s 0x12 shipRegime
  if s.rd Reg.RFE_STAT_REGIME = 0 then none else regFind (s.rd Reg.RFE_STAT_REGIME) (leAt b 0 1) (b.drop 4)

/-- Sub-band entry `i` of the active regime. -/
def subEntry (s : State) (i : Nat) : List Nat := match regBlock s with | some b => (b.drop (4 + 24 * i)).take 24 | none => []

/-- The number of used sub-bands of the active regime. -/
def subCount (s : State) : Nat := match regBlock s with | some b => leAt b 1 1 | none => 0

/-- The sub-band that holds the whole occupied span (R144). -/
def subOf (s : State) (freq span : Nat) : Option Nat :=
  (List.range (subCount s)).find? (fun i => decide (2 * leAt (subEntry s i) 0 4 + span ≤ 2 * freq) && decide (2 * freq + span ≤ 2 * leAt (subEntry s i) 4 4))

/-! ### Ports, ceilings -/

/-- The port of an aerial number: ANT_S 0, ANT_W 1. -/
def portOfAerial (a : Nat) : Nat := if a = 2 then 1 else 0

/-- A port beside its registers. -/
def rfePort (s : State) (p : Nat) : Port := s.rfe.ports.getD p Port.reset
def rfeModPort (p : Nat) (f : Port → Port) (s : State) : State := { s with rfe := { s.rfe with ports := modAt s.rfe.ports p f } }

/-- The registers of a port's class in RFE_STAT. -/
def classField (p : Nat) : Field := if p = 0 then Reg.RFE_STAT_CLASSS else Reg.RFE_STAT_CLASSW

/-- port_max (R116). -/
def portMax (p : Nat) : Nat := if p = 0 then 188 else 160

/-- The limit VPA sets (R116); none below 3.0 V. -/
def vpaLimit (p mv : Nat) : Option Nat :=
  if mv < 3000 then none else if p = 1 then some 160 else if mv < 3600 then some 176 else if mv < 4500 then some 184 else some 188

/-- A byte of a port's section of the power table (R118). -/
def powerByte (s : State) (p off : Nat) : Nat :=
  let b := rfeBody s 0x11 shipPower
  let n0 := leAt b 0 2
  leAt b ((if p = 0 then 0 else 8 + 2 * n0) + off) 1

/-- The modulation back-off of a MODE (R116, R118, R166). -/
def modBo (s : State) (p mode : Nat) : Nat :=
  match mode / 64 with
  | 1 => powerByte s p 2
  | 3 => powerByte s p 3
  | _ => if mode % 8 ≤ 2 then powerByte s p 4 else powerByte s p 5

/-- The ageing back-off of a port (R119). -/
def ageBo (s : State) (p : Nat) : Nat := powerByte s p 6

/-- The ceiling of R116. -/
def txCeiling (s : State) (p mode pmax : Nat) : Nat :=
  let lim := min (min (portMax p) ((vpaLimit p (s.rd Reg.RFE_VPA)).getD 0)) (min (portMax p - modBo s p mode) pmax)
  lim - ageBo s p - (if s.rd (classField p) = 2 then 24 else 0)

/-- The highest PMAX of the active regime on a port (R150). -/
def regimePmax (s : State) (p : Nat) : Nat :=
  (List.range (subCount s)).foldl (fun m i => if (p = 0 ∧ leAt (subEntry s i) 4 4 ≤ 960000) ∨ (p = 1 ∧ 2400000 ≤ leAt (subEntry s i) 0 4) then max m (leAt (subEntry s i) 8 1) else m) 0

/-- RFE_TXCAP as the settings give it (R150): 0 ceilings while there is no regime. -/
def txCapRefresh (s : State) : State :=
  let cap := fun p => if s.rd Reg.RFE_STAT_REGIME = 0 then 0 else txCeiling s p 0x40 (regimePmax s p)
  let lim := fun p => b2n (decide ((vpaLimit p (s.rd Reg.RFE_VPA)).getD 0 < portMax p)) + 2 * b2n (decide (regimePmax s p < portMax p)) + 4 * b2n (s.rd (classField p) == 2)
  (((((s.wr Reg.RFE_TXCAP_CAPS (cap 0)).wr Reg.RFE_TXCAP_CAPW (cap 1)).wr Reg.RFE_TXCAP_AGES (ageBo s 0)).wr Reg.RFE_TXCAP_AGEW (ageBo s 1)).wr Reg.RFE_TXCAP_LIMS (lim 0)).wr Reg.RFE_TXCAP_LIMW (lim 1)

/-- RFE_TXCAP after a change other than of the regime: EV108 when it changes (R155). -/
def txCapChange (s : State) : State :=
  let t := txCapRefresh s
  if t.rd Reg.RFE_TXCAP_CAPS = s.rd Reg.RFE_TXCAP_CAPS ∧ t.rd Reg.RFE_TXCAP_CAPW = s.rd Reg.RFE_TXCAP_CAPW ∧ t.rd Reg.RFE_TXCAP_AGES = s.rd Reg.RFE_TXCAP_AGES ∧
     t.rd Reg.RFE_TXCAP_AGEW = s.rd Reg.RFE_TXCAP_AGEW ∧ t.rd Reg.RFE_TXCAP_LIMS = s.rd Reg.RFE_TXCAP_LIMS ∧ t.rd Reg.RFE_TXCAP_LIMW = s.rd Reg.RFE_TXCAP_LIMW
  then t else t.raise 108

/-! ### Synthesizer (R111 to R113) -/

/-- The smallest divider that places the oscillator between 4.50 and 5.80 GHz (R111); 0 where none does. -/
def synthDivider (freq : Nat) : Nat :=
  (([2, 6, 7, 8, 10, 12] : List Nat).find? (fun d => decide (4500000 ≤ freq * d) && decide (freq * d ≤ 5800000))).getD 0

/-- The lock that a carrier needs is a full lock (R112). -/
def needFull (s : State) (freq : Nat) : Bool :=
  let d := synthDivider freq
  !s.on Reg.RFE_STAT_SYNTHON || !(s.rfe.divider == d) ||
  (match s.rfe.bandSel with
   | none => true
   | some (osc, t) => decide (15 * osc < 1000 * (if osc ≤ freq * d then freq * d - osc else osc - freq * d)) || decide (10 < (dieTemp s - t).natAbs))

/-- Tune the synthesizer to a carrier (R112, R113): nothing when it is locked there or on its way there; band selection is the
non-interruptible calibration 1. -/
def synthTune (freq : Nat) (s : State) : State :=
  if s.rfe.carrier = freq ∧ s.on Reg.RFE_STAT_SYNTHON then s else
  let full := needFull s freq
  let s1 := ((s.set1 Reg.RFE_STAT_SYNTHON).clr Reg.RFE_STAT_SYNTHLK)
  let s2 : State := { s1 with rfe := { s1.rfe with carrier := freq, divider := synthDivider freq, lock := some ⟨full, s1.elapsed⟩, corr := if s1.firn.stage = .locked then s1.rd Reg.FIRN_FREQ else 0 } }
  if full then s2.wr Reg.RFE_STAT_CAL 1 else s2

/-- Turn the synthesizer off. -/
def synthOff (s : State) : State :=
  { (s.clr Reg.RFE_STAT_SYNTHON).clr Reg.RFE_STAT_SYNTHLK with rfe := { s.rfe with carrier := 0, lock := none } }

/-- FULL_LOCK (R112): band selection and settling end; SYNTHLK, BANDCALCNT. -/
def fullLockOk (s : State) : Bool := match s.rfe.lock with | some l => l.full | none => false
def fullLock (s : State) : State :=
  let s1 := ((s.set1 Reg.RFE_STAT_SYNTHLK).inc Reg.RFE_BANDCALCNT).wr Reg.RFE_STAT_CAL 0
  { s1 with rfe := { s1.rfe with lock := none, bandSel := some (s.rfe.carrier * s.rfe.divider, dieTemp s) } }
def execFullLock (dt : Nat) (s : State) : Host.Outcome State Fault Refusal :=
  .next (onlyIf (fullLockOk (s.pass dt)) (fullLock (s.pass dt)) (s.pass dt))

/-- RETUNE (R112): settling without band selection ends; SYNTHLK. -/
def retuneOk (s : State) : Bool := match s.rfe.lock with | some l => !l.full | none => false
def retune (s : State) : State := { s.set1 Reg.RFE_STAT_SYNTHLK with rfe := { s.rfe with lock := none } }
def execRetune (dt : Nat) (s : State) : Host.Outcome State Fault Refusal :=
  .next (onlyIf (retuneOk (s.pass dt)) (retune (s.pass dt)) (s.pass dt))

/-! ### The radio state machine (R125 to R132) -/

/-- VPA is measured on entry to a prepare state (R116): RFE_VPA, and EV111 below 3.0 V. -/
def vpaMeasure (mv : Nat) (s : State) : State :=
  let s1 := txCapChange (s.wr Reg.RFE_VPA (min 0xFFFF mv))
  if mv < 3000 then s1.raise 111 else s1

/-- Enter a state (R129): its number and KIND show, its entry actions are performed and the others undone. `vpa` is the supply
measured if it is a prepare state. -/
def stEnter (id vpa : Nat) (s : State) : State :=
  match stEntry s id with
  | none => s
  | some e =>
    let act := leAt e 6 2
    let aerial := leAt e 2 1
    let s1 := (s.wr Reg.RFE_STAT_STATE id).wr Reg.RFE_STAT_KIND (leAt e 1 1)
    let s2 : State := { s1 with rfe := { s1.rfe with entered := s1.elapsed, pktDone := none, moving := some (id, s1.elapsed) } }
    let s3 := if bitOf act 4 = 1 then synthTune s2.rfe.planned (s2.wr Reg.RFE_STAT_TXPORT (if aerial = 0 then s2.rd Reg.RFE_STAT_TXPORT else portOfAerial aerial)) else synthOff s2
    let s4 := if isLeaf s3 then gVote 3 (if bitOf act 11 = 1 then 2 else if bitOf act 10 = 1 then 1 else 0) s3 else s3
    if leAt e 1 1 = 3 then vpaMeasure vpa s4 else s4

/-- A frame of the transmit chain is on the air or ramping. -/
def txBusy (s : State) : Bool := match s.rfe.tx with | some t => t.phase != .held | none => false

/-- The TCXO is gone: the RFE is off and refuses every request (R759). -/
def rfeRefuses (s : State) : Bool := s.firn.tcxoLost.isSome

/-- Ask an interruptible calibration to give way (R134): it is abandoned at its next step boundary. -/
def calAbandon (s : State) : State :=
  match s.rfe.cal with
  | none => s
  | some c =>
    let old := (look (2 * c.kind + c.port) s.rfe.cals).getD ⟨none, 0, 0, none⟩
    let step := if c.kind = 5 then 2 else 5
    let n := c.step + (s.elapsed - c.since) / cycUs step
    ({ s with rfe := { s.rfe with cal := none, cals := put (2 * c.kind + c.port) { old with resume := n } s.rfe.cals } }.wr Reg.RFE_STAT_CAL 0).inc Reg.RFE_CALABNCNT

/-- STATE_REQUEST (R125, R126): a request moves the radio to another state; while a frame is on the air it is held, one deep, a later one
replacing it. A prepare request, or one that leaves a calibrate state, abandons an interruptible calibration. -/
def stateRequestOk (target : Nat) (s : State) : Bool := (stEntry s target).isSome && !rfeRefuses s
def stateRequest (target freq vpa : Nat) (s : State) : State :=
  if txBusy s ∧ stKind s = 4 then { s with rfe := { s.rfe with heldReq := some target, planned := freq } }
  else
    let s1 := if stField s target 1 1 = 3 ∨ stKind s = 5 then calAbandon s else s
    stEnter target vpa { s1 with rfe := { s1.rfe with planned := freq } }
def execStateRequest (target freq vpa dt : Nat) (s : State) : Host.Outcome State Fault Refusal :=
  .next (onlyIf (stateRequestOk target (s.pass dt)) (stateRequest target freq vpa (s.pass dt)) (s.pass dt))

/-- Apply a held request from the state that results (R126). -/
def heldRequest (vpa : Nat) (s : State) : State :=
  match s.rfe.heldReq with
  | none => s
  | some r => stEnter r vpa { s with rfe := { s.rfe with heldReq := none } }

/-- AUTO_RETURN (R125, R141): at the end of the ramp-down, or of a received frame, or on a refusal: AFTER_PKT of the state named, then a held
request. -/
def autoReturnOk (s : State) : Bool :=
  s.rfe.pktDone.isSome && (match s.rfe.tx with | some t => t.phase == .rampDown && decide (t.since + cycUs 2 ≤ s.elapsed) | none => true)
def autoReturn (vpa : Nat) (s : State) : State :=
  let iso := match s.rfe.tx with | some t => some (portOfAerial (stField s t.req.state 2 1), s.elapsed + cycUs 3) | none => s.rfe.isoUntil
  let s1 := ({ s with rfe := { s.rfe with tx := none, isoUntil := iso } }).clr Reg.RFE_STAT_TXON
  let s2 := match s.rfe.pktDone with
    | none => s1
    | some id => match stTarget s1 (stField s1 id 3 1) with
      | some t => stEnter t vpa s1
      | none => { s1 with rfe := { s1.rfe with pktDone := none } }
  heldRequest vpa s2
def execAutoReturn (vpa dt : Nat) (s : State) : Host.Outcome State Fault Refusal :=
  .next (onlyIf (autoReturnOk (s.pass dt)) (autoReturn vpa (s.pass dt)) (s.pass dt))

/-- RADIO_TRANSITION_DONE (R132): a transition completes after its stated time. The converter mode that follows is set where the
receiver is defined. -/
def movingDone (s : State) : State := { s with rfe := { s.rfe with moving := none } }

/-! ### Calibrations (R133 to R136) -/

/-- The duration of a calibration in µs (R133). -/
def calUs (kind : Nat) : Nat := match kind with | 1 => 25 | 2 => 400 | 3 => 200 | 4 => 120 | 5 => 40 | _ => 300

/-- The record of a calibration. -/
def calRec (s : State) (kind port : Nat) : CalRec := (look (2 * kind + port) s.rfe.cals).getD ⟨none, 0, 0, none⟩

/-- A calibration is due: never done, its period has passed, or the temperature has moved (R133). -/
def calDue (s : State) (kind port : Nat) : Bool :=
  let r := calRec s kind port
  match r.doneAt with
  | none => true
  | some t =>
    let dT := (dieTemp s - r.doneTemp).natAbs
    match kind with
    | 2 => decide (t + cycS 86400 ≤ s.elapsed) || decide (20 < dT)
    | 3 => decide (t + cycS 86400 ≤ s.elapsed) || decide (20 < dT)
    | 4 => decide (20 < dT)
    | 5 => decide (t + cycS 600 ≤ s.elapsed) || decide (5 < dT)
    | _ => decide (t + cycS 3600 ≤ s.elapsed) || decide (10 < dT)

/-- CALIBRATION_START (R133, R136): a due calibration in a gap with no armed transmit launch: 2 and 3 in the CAL state, 4 to 6 where ICAL
allows them, none during a transmission. -/
def calibrationStartOk (kind port : Nat) (s : State) : Bool :=
  decide (2 ≤ kind) && decide (kind ≤ 6) && decide (port < 2) && calDue s kind port && s.rfe.tx.isNone && s.rfe.cal.isNone && s.rd Reg.RFE_STAT_CAL == 0 &&
  (if kind ≤ 3 then stKind s == 5 else stAct s (stNow s) 7)
def calibrationStart (kind port : Nat) (s : State) : State :=
  { s.wr Reg.RFE_STAT_CAL kind with rfe := { s.rfe with cal := some ⟨kind, port, s.elapsed, (calRec s kind port).resume⟩ } }
def execCalibrationStart (kind port dt : Nat) (s : State) : Host.Outcome State Fault Refusal :=
  .next (onlyIf (calibrationStartOk kind port (s.pass dt)) (calibrationStart kind port (s.pass dt)) (s.pass dt))

/-- CALIBRATION_ABANDON (R134): at a step boundary, for a launch or a prepare request; it resumes from the abandoned step. -/
def calibrationAbandonOk (s : State) : Bool := s.rfe.cal.isSome
def execCalibrationAbandon (dt : Nat) (s : State) : Host.Outcome State Fault Refusal :=
  .next (onlyIf (calibrationAbandonOk (s.pass dt)) (calAbandon (s.pass dt)) (s.pass dt))

/-- CALIBRATION_COMPLETE (R133, R136): the results are used, or with results outside their limits the old ones stay, CALFAILCNT counts, EV110 is
raised and a health record is written. -/
def calibrationCompleteOk (s : State) : Bool :=
  match s.rfe.cal with
  | none => false
  | some c => decide (c.since + cycUs (calUs c.kind) ≤ s.elapsed + cycUs ((if c.kind = 5 then 2 else 5) * c.step))
def calibrationComplete (good : Bool) (s : State) : State :=
  match s.rfe.cal with
  | none => s
  | some c =>
    let s1 := ({ s with rfe := { s.rfe with cal := none, cals := put (2 * c.kind + c.port) ⟨some s.elapsed, dieTemp s, 0, none⟩ s.rfe.cals } }).wr Reg.RFE_STAT_CAL 0
    if good then s1 else healthPut 1 6 2 c.kind c.kind 0 ((s1.inc Reg.RFE_CALFAILCNT).raise 110)
def execCalibrationComplete (good : Bool) (dt : Nat) (s : State) : Host.Outcome State Fault Refusal :=
  .next (onlyIf (calibrationCompleteOk (s.pass dt)) (calibrationComplete good (s.pass dt)) (s.pass dt))

/-- CALIBRATION_OVERDUE (R136): due for 60 minutes without completing: untimed transmissions are held off and it runs; its due time is
noted the first time this is asked. -/
def calibrationOverdueOk (kind port : Nat) (s : State) : Bool :=
  decide (2 ≤ kind) && decide (kind ≤ 6) && decide (port < 2) && calDue s kind port && s.rfe.tx.isNone && s.rfe.cal.isNone
def calibrationOverdue (kind port : Nat) (s : State) : State :=
  let r := calRec s kind port
  match r.dueAt with
  | none => { s with rfe := { s.rfe with cals := put (2 * kind + port) { r with dueAt := some s.elapsed } s.rfe.cals } }
  | some t => if t + cycS 3600 ≤ s.elapsed then calibrationStart kind port s else s
def execCalibrationOverdue (kind port dt : Nat) (s : State) : Host.Outcome State Fault Refusal :=
  .next (onlyIf (calibrationOverdueOk kind port (s.pass dt)) (calibrationOverdue kind port (s.pass dt)) (s.pass dt))

/-! ### Duty and dwell (R145, R147) -/

/-- The duty buckets of a sub-band, newest first; from reset half the budget stands in the oldest (R145). -/
def dutyBuckets (s : State) (i : Nat) : List Nat :=
  (look i s.rfe.duty).getD (List.replicate 59 0 ++ [leAt (subEntry s i) 12 2 * 180000])

/-- Air time of a sub-band in the sliding hour, in µs: a budget unit of 0.01 % of an hour is 360,000 µs. -/
def dutyUse (s : State) (i : Nat) : Nat := (dutyBuckets s i).sum

/-- RFE_DUTYUSE (R153): the most used sub-band, in 0.01 % of the hour. -/
def dutyShow (s : State) : State :=
  let best := (List.range (subCount s)).foldl (fun m i => if dutyUse s m < dutyUse s i then i else m) 0
  (s.wr Reg.RFE_DUTYUSE_SUBBAND best).wr Reg.RFE_DUTYUSE_USE (min 0xFFFF (dutyUse s best / 360000))

/-- Count air time in a sub-band. -/
def dutyAdd (i us : Nat) (s : State) : State :=
  let b := dutyBuckets s i
  dutyShow { s with rfe := { s.rfe with duty := put i ((b.headD 0 + us) :: b.tail) s.rfe.duty } }

/-- A transmission would take its sub-band over its budget (R145); 10,000 means none. -/
def dutyOver (s : State) (i us : Nat) : Bool :=
  let d := leAt (subEntry s i) 12 2
  decide (d < 10000) && decide (d * 360000 < dutyUse s i + us)

/-- DUTY_BUCKET (R145): every 60 s each sub-band's window advances by one bucket. -/
def dutyBucketOk (s : State) : Bool := decide (s.rfe.dutyAt + cycS 60 ≤ s.elapsed)
def dutyBucket (s : State) : State :=
  let bs := (List.range (subCount s)).foldl (fun l i => put i (0 :: (dutyBuckets s i).take 59) l) s.rfe.duty
  dutyShow { s with rfe := { s.rfe with duty := bs, dutyAt := s.rfe.dutyAt + cycS 60 } }
def execDutyBucket (dt : Nat) (s : State) : Host.Outcome State Fault Refusal :=
  .next (onlyIf (dutyBucketOk (s.pass dt)) (dutyBucket (s.pass dt)) (s.pass dt))

/-- Shift a dwell window by the buckets that have passed; a bucket is 1/20 of the period (R147). -/
def dwellShift (period now : Nat) (d : Dwell) : Dwell :=
  let k := (now - d.at_) / (cycS period / 20 + 1)
  { d with buckets := (List.replicate k 0 ++ d.buckets).take 20, at_ := d.at_ + k * (cycS period / 20 + 1) }

/-- The dwell record of a carrier, to within 1 kHz. -/
def dwellOf (s : State) (freq period : Nat) : Dwell :=
  match s.rfe.dwell.find? (fun d => decide (d.freq ≤ freq + 1) && decide (freq ≤ d.freq + 1)) with
  | some d => dwellShift period s.elapsed d
  | none => ⟨freq, [0], s.elapsed⟩

/-- A transmission above HOP_PTHR would take its carrier over DWELL (R147). -/
def dwellOver (s : State) (i freq used us : Nat) : Bool :=
  decide (leAt (subEntry s i) 9 1 < used) && decide (leAt (subEntry s i) 16 2 * 1000 < (dwellOf s freq (leAt (subEntry s i) 18 2)).buckets.sum + us)

/-- Count air time on a carrier when the power is above HOP_PTHR (R147). -/
def dwellAdd (i freq used us : Nat) (s : State) : State :=
  if used ≤ leAt (subEntry s i) 9 1 then s else
  let d := dwellOf s freq (leAt (subEntry s i) 18 2)
  let d1 := { d with buckets := (d.buckets.headD 0 + us) :: d.buckets.tail }
  { s with rfe := { s.rfe with dwell := d1 :: s.rfe.dwell.filter (fun x => !(x.freq == d.freq)) } }

/-! ### Transmissions (R137 to R142) -/

/-- The port of the transmit state a transmission names. -/
def txPort (s : State) (r : TxReq) : Nat := portOfAerial (stField s r.state 2 1)

/-- The power code a transmission goes out at, and whether it is clipped (R117, R147). -/
def txPower (s : State) (r : TxReq) (i : Nat) : Nat × Bool :=
  let e := subEntry s i
  let cap := txCeiling s (txPort s r) r.mode (leAt e 8 1)
  let used := min r.pcode cap
  match r.hops with
  | some n => if leAt e 9 1 < used ∧ n < leAt e 10 1 then (leAt e 9 1, true) else (used, decide (cap < r.pcode))
  | none => (used, decide (cap < r.pcode))

/-- The transmitter is ready (R138); `lbt`: the listen time has been covered. -/
def txReady (s : State) (lbt : Bool) : Bool := s.on Reg.RFE_STAT_SYNTHLK && s.rd Reg.RFE_STAT_CAL == 0 && s.rfe.cal.isNone && lbt && !rfeRefuses s

/-- The first outcome that refuses a transmission, in the order of R142; none when it may go out. `busy`: the listen found energy. -/
def txRefusal (s : State) (r : TxReq) (busy : Bool) : Option Nat :=
  match subOf s r.freq r.span with
  | none => some 7
  | some i =>
    let u := txPower s r i
    if s.rd Reg.RFE_VPA < 3000 then some 8
    else if (rfePort s (txPort s r)).faultedAt.isSome then some 6
    else if dutyOver s i r.air then some 3
    else if dwellOver s i r.freq u.1 r.air then some 5
    else if busy && decide (0 < leAt (subEntry s i) 14 2) then some 4
    else none

/-- The counter and the event of a refusal or abandonment (R142, R155). -/
def txOutcomeCount (o : Nat) (s : State) : State :=
  match o with
  | 2 => (s.inc Reg.RFE_LATECNT).raise 104
  | 3 => (s.inc Reg.RFE_DUTYCNT).raise 109
  | 4 => (s.inc Reg.RFE_LBTCNT).raise 109
  | 5 => (s.inc Reg.RFE_DWELLCNT).raise 109
  | 6 => s.inc Reg.RFE_MISMCNT
  | 7 => (s.inc Reg.RFE_OTHERCNT).raise 109
  | 8 => (s.inc Reg.RFE_OTHERCNT).raise 111
  | _ => s

/-- RFE_LASTTX (R152). -/
def lastTx (outcome : Nat) (clip : Bool) (port hold pcode : Nat) (s : State) : State :=
  ((((s.wr Reg.RFE_LASTTX_OUTCOME outcome).wr Reg.RFE_LASTTX_CLIP (b2n clip)).wr Reg.RFE_LASTTX_PORT port).wr Reg.RFE_LASTTX_HOLD hold).wr Reg.RFE_LASTTX_PCODE pcode

/-- A transmission is refused or abandoned (R140 to R142): counted, shown, and the named transmit state's auto-return is due. -/
def txRefuse (r : TxReq) (o : Nat) (s : State) : State :=
  let s1 := lastTx o false (txPort s r) 0 0 (txOutcomeCount o s)
  { s1 with rfe := { s1.rfe with tx := none, pktDone := some r.state } }

/-- A transmission's ramp-up starts (R114, R117, R139): the radio is in the named transmit state; the air time counts for duty and dwell. -/
def txSend (r : TxReq) (i outcome hold : Nat) (s : State) : State :=
  let u := txPower s r i
  let s1 := stEnter r.state 0 s
  let s2 := dwellAdd i r.freq u.1 r.air (dutyAdd i r.air (s1.set1 Reg.RFE_STAT_TXON))
  let s3 : State := { s2 with rfe := { s2.rfe with tx := some { req := r, phase := .onAir, outcome := outcome, used := u.1, clip := u.2, hold := hold, since := s2.elapsed } } }
  let s4 := if txBlanks s3 (txPort s r) r.freq 0 || txBlanks s3 (txPort s r) r.freq 1 then s3.inc Reg.RXC_BLANKCNT else s3
  if outcome = 1 then s4.raise 105 else s4

/-- The slack of the named transmit state in ft (R128). -/
def txSlack (s : State) (r : TxReq) : Nat := ftUs (stField s r.state 12 2)

/-- TX_EVALUATE (R137 to R142): at the moment the ramp-up would start the transmission is sent, held for the transmitter, or refused with the
first outcome that applies; one already more than SLACK in the past is LATE. A launch abandons an interruptible calibration. -/
def txEvaluateOk (r : TxReq) (s : State) : Bool :=
  s.rfe.tx.isNone && stField s r.state 1 1 == 4 && decide (r.t ≤ s.now + ftUs 2)
def txEvaluate (r : TxReq) (busy lbt : Bool) (s : State) : State :=
  let s1 := calAbandon s
  let s0 : State := { s1 with rfe := { s1.rfe with planned_ := s1.rfe.planned_.filter (fun q => !(q.t == r.t)) } }
  let late := decide (r.t + txSlack s0 r < s0.now)
  if late ∨ txReady s0 lbt then
    match txRefusal s0 r busy with
    | some o => txRefuse r o s0
    | none =>
      if late then txRefuse r 2 s0
      else match subOf s0 r.freq r.span with
        | some i => txSend r i 0 0 s0
        | none => txRefuse r 7 s0
  else { s0 with rfe := { s0.rfe with tx := some { req := r, phase := .held, outcome := 1, used := 0, clip := false, hold := 0, since := s0.elapsed } } }
def execTxEvaluate (r : TxReq) (busy lbt : Bool) (dt : Nat) (s : State) : Host.Outcome State Fault Refusal :=
  .next (onlyIf (txEvaluateOk r (s.pass dt)) (txEvaluate r busy lbt (s.pass dt)) (s.pass dt))

/-- The transmission that waits for the transmitter. -/
def txHeld (s : State) : Option TxReq := match s.rfe.tx with | some t => if t.phase = .held then some t.req else none | none => none

/-- TX_HOLD_RELEASE (R139): the transmitter becomes ready no later than T + SLACK; HOLD is Tr + 2 µs - T in µs. -/
def txHoldReleaseOk (lbt : Bool) (s : State) : Bool :=
  match txHeld s with | some r => txReady s lbt && decide (s.now ≤ r.t + txSlack s r) | none => false
def txHoldRelease (busy : Bool) (s : State) : State :=
  match txHeld s with
  | none => s
  | some r => match txRefusal s r busy with
    | some o => txRefuse r o s
    | none => match subOf s r.freq r.span with
      | some i => txSend r i 1 (min 1023 ((s.now + ftUs 2 - r.t) * 1000000 / 1073741824)) s
      | none => txRefuse r 7 s
def execTxHoldRelease (busy lbt : Bool) (dt : Nat) (s : State) : Host.Outcome State Fault Refusal :=
  .next (onlyIf (txHoldReleaseOk lbt (s.pass dt)) (txHoldRelease busy (s.pass dt)) (s.pass dt))

/-- TX_ABANDON (R140): not ready by T + SLACK: nothing is emitted, outcome LATE; a lock in progress carries on. -/
def txAbandonOk (s : State) : Bool := match txHeld s with | some r => decide (r.t + txSlack s r ≤ s.now) | none => false
def txAbandon (s : State) : State := match txHeld s with | some r => txRefuse r 2 s | none => s
def execTxAbandon (dt : Nat) (s : State) : Host.Outcome State Fault Refusal :=
  .next (onlyIf (txAbandonOk (s.pass dt)) (txAbandon (s.pass dt)) (s.pass dt))

/-! ### Mismatch, the tuner and ageing (R119 to R124) -/

/-- The mismatch class of a return-loss code (R123). -/
def rlClass (rl : Nat) : Nat := if 112 ≤ rl then 0 else if 48 ≤ rl then 1 else if 14 ≤ rl then 2 else 3

/-- Set a port's class: RFE_STAT, RFE_REFL, EV106 or EV107 on a change (R124), and the ceiling with it. -/
def setClass (p c : Nat) (s : State) : State :=
  if s.rd (classField p) = c then s else
  let s1 := ((s.wr (classField p) c).wr (Reg.RFE_REFL_CLASS p) c).raise (106 + p)
  let s2 := rfeModPort p (fun x => { x with betterRun := 0, betterClass := 0, faultedAt := if c = 3 then some s.elapsed else none }) s1
  txCapChange s2

/-- One measured frame (R123, R124): a worse class at once; a better one after four frames in a row at least 8 codes inside it. -/
def classMeasure (p rl : Nat) (s : State) : State :=
  let x := rfePort s p
  let c := s.rd (classField p)
  let m := rlClass rl
  let s0 := if 1 ≤ m ∧ m ≤ 2 then s.inc Reg.RFE_MISMCNT else s
  if x.remeasure then setClass p m (rfeModPort p (fun y => { y with remeasure := false }) s0)
  else if c < m then setClass p m s0
  else
    let b := rlClass (rl - 8)
    if b < c then
      let worst := if x.betterRun = 0 then b else max b x.betterClass
      if 4 ≤ x.betterRun + 1 then setClass p worst s0
      else rfeModPort p (fun y => { y with betterRun := x.betterRun + 1, betterClass := worst }) s0
    else rfeModPort p (fun y => { y with betterRun := 0 }) s0

/-- A bank code stepped by at most 2 (R121). -/
def bankStep (old new : Nat) : Nat :=
  let n := min 15 new
  if old + 2 < n then old + 2 else if n + 2 < old then old - 2 else n

/-- The tuner steps toward lower reflection (R121): `ser` and `shu` are the codes the measurement points to. -/
def tunerStep (p ser shu : Nat) (s : State) : State :=
  (s.wr (Reg.RFE_REFL_SER p) (bankStep (s.rd (Reg.RFE_REFL_SER p)) ser)).wr (Reg.RFE_REFL_SHU p) (bankStep (s.rd (Reg.RFE_REFL_SHU p)) shu)

/-- The channel group of a carrier (R122): the highest lowest carrier not above it. -/
def tunerGroup (s : State) (p freq : Nat) : Nat :=
  let b := rfeBody s 0x13 shipTuner
  (List.range 8).foldl (fun m k => if leAt b (32 * p + 4 * k) 2 * 1000 ≤ freq then k else m) 0

/-- Remember the code learnt for the carrier's group (R122). -/
def tunerLearn (p freq : Nat) (s : State) : State :=
  { s with rfe := { s.rfe with learnt := put (8 * p + tunerGroup s p freq) (16 * s.rd (Reg.RFE_REFL_SER p) + s.rd (Reg.RFE_REFL_SHU p)) s.rfe.learnt } }

/-- From reset a port starts from the stored code of its first carrier's group (R122). -/
def tunerFirst (p freq : Nat) (s : State) : State :=
  if (rfePort s p).started then s else
  let code := leAt (rfeBody s 0x13 shipTuner) (32 * p + 4 * tunerGroup s p freq + 2) 1
  rfeModPort p (fun y => { y with started := true }) ((s.wr (Reg.RFE_REFL_SER p) (code / 16)).wr (Reg.RFE_REFL_SHU p) (code % 16))

/-- The version a loaded or shipped table is at (R356). -/
def tableVer (s : State) (tid : Nat) : Nat := match look tid s.tables with | some t => t.ver | none => 0x0100
def tableSource (s : State) (tid : Nat) : Nat := match look tid s.tables with | some t => t.source | none => 0

/-- AGE_BO grows by one (R119): the power table's byte, RFE_TXCAP and EV108, the health record, the alarm PABO at 16, and the MARGIN notice. -/
def ageBoGrow (p : Nat) (s : State) : State :=
  let old := ageBo s p
  if 24 ≤ old then s else
  let b := rfeBody s 0x11 shipPower
  let off := (if p = 0 then 0 else 8 + 2 * leAt b 0 2) + 6
  let s1 : State := { s with tables := put 0x11 ⟨tableVer s 0x11, tableSource s 0x11, setBytes b off [old + 1]⟩ s.tables }
  let s2 := txCapChange s1
  let s3 := healthPut 1 6 1 p p (old + 1) s2
  marginNotice (1 + p) 2 old (old + 1) (if 16 ≤ old + 1 then alarm Reg.AGE_ALARMS_PABO true s3 else s3)

/-- The Fumarole gain comparison of one transmission (R119): 64 in a row with gain down by more than 1 dB add 1 to AGE_BO. -/
def ageMeasure (p : Nat) (low : Bool) (s : State) : State :=
  let n := if low then (rfePort s p).lowRun + 1 else 0
  let s1 := rfeModPort p (fun y => { y with lowRun := if 64 ≤ n then 0 else n }) s
  if 64 ≤ n then ageBoGrow p s1 else s1

/-- TX_FRAME_END (R114, R119 to R124, R142): the last symbol ends and the ramp-down starts; the frame is measured when it is at least 100 µs at a
code of at least 80; the outcome is counted and shown. `rl`, `fwd`: return loss and forward power codes; `ser`, `shu`: the tuner codes the
measurement points to; `low`: gain down by more than 1 dB. -/
def txFrameEndOk (s : State) : Bool := match s.rfe.tx with | some t => t.phase == .onAir | none => false
def txFrameEnd (rl fwd ser shu : Nat) (low : Bool) (s : State) : State :=
  match s.rfe.tx with
  | none => s
  | some t =>
    let p := txPort s t.req
    let s0 := tunerFirst p t.req.freq s
    let s1 := if 100 ≤ t.req.air ∧ 80 ≤ t.used then
        let a := classMeasure p rl ((s0.wr (Reg.RFE_REFL_RL p) (min 254 rl)).wr (Reg.RFE_REFL_FCODE p) fwd)
        if stAct a t.req.state 9 then tunerLearn p t.req.freq (tunerStep p ser shu a) else a
      else s0
    let s2 := if 100 ≤ t.req.air then ageMeasure p low s1 else s1
    let s3 := if t.outcome = 1 then (s2.inc Reg.RFE_TXCNT).inc Reg.RFE_HELDCNT else s2.inc Reg.RFE_TXCNT
    let s4 := lastTx t.outcome t.clip p t.hold t.used (if t.clip then s3.inc Reg.RFE_CLIPCNT else s3)
    { s4 with rfe := { s4.rfe with tx := some { t with phase := .rampDown, since := s4.elapsed }, pktDone := some t.req.state } }
def execTxFrameEnd (rl fwd ser shu : Nat) (low : Bool) (dt : Nat) (s : State) : Host.Outcome State Fault Refusal :=
  .next (onlyIf (txFrameEndOk (s.pass dt)) (txFrameEnd rl fwd ser shu low (s.pass dt)) (s.pass dt))

/-- MISMATCH_FAULT (R123): return loss below 1.75 dB: the power amplifier ramps down, the rest of the frame is not sent, and the port is
marked faulted; outcome MISMATCH. -/
def mismatchFaultOk (rl : Nat) (s : State) : Bool := txFrameEndOk s && rlClass rl == 3
def mismatchFault (rl fwd : Nat) (s : State) : State :=
  match s.rfe.tx with
  | none => s
  | some t =>
    let p := txPort s t.req
    let s1 := setClass p 3 ((s.wr (Reg.RFE_REFL_RL p) rl).wr (Reg.RFE_REFL_FCODE p) fwd)
    let s2 := rfeModPort p (fun x => { x with faultedAt := some s.elapsed, remeasure := false }) s1
    let s3 := lastTx 6 t.clip p 0 t.used ((if t.clip then s2.inc Reg.RFE_CLIPCNT else s2).inc Reg.RFE_MISMCNT)
    { s3 with rfe := { s3.rfe with tx := some { t with phase := .rampDown, since := s3.elapsed }, pktDone := some t.req.state } }
def execMismatchFault (rl fwd dt : Nat) (s : State) : Host.Outcome State Fault Refusal :=
  .next (onlyIf (mismatchFaultOk rl (s.pass dt)) (mismatchFault rl fwd (s.pass dt)) (s.pass dt))

/-- FAULT_HOLD_EXPIRY (R124): 60 s after the fault the port runs its next transmission in class LIMIT and is measured again. -/
def faultHoldExpiryOk (p : Nat) (s : State) : Bool :=
  match (rfePort s p).faultedAt with | some t => decide (p < 2) && decide (t + cycS 60 ≤ s.elapsed) | none => false
def faultHoldExpiry (p : Nat) (s : State) : State := rfeModPort p (fun x => { x with faultedAt := none, remeasure := true }) (setClass p 2 s)
def execFaultHoldExpiry (p dt : Nat) (s : State) : Host.Outcome State Fault Refusal :=
  .next (onlyIf (faultHoldExpiryOk p (s.pass dt)) (faultHoldExpiry p (s.pass dt)) (s.pass dt))

/-- TUNER_WRITE_BACK (R122, R358): Glety writes the learnt codes into the tuner table at most once every 24 hours; VER stays and the source
becomes 3. -/
def tunerWriteBackOk (s : State) : Bool := decide (s.rfe.tunerAt + cycS 86400 ≤ s.elapsed) && !s.rfe.learnt.isEmpty
def tunerWriteBack (s : State) : State :=
  let b := s.rfe.learnt.foldl (fun l p => setBytes l (4 * p.1 + 2) [p.2 % 256]) (rfeBody s 0x13 shipTuner)
  { s with tables := put 0x13 ⟨tableVer s 0x13, 3, b⟩ s.tables, rfe := { s.rfe with tunerAt := s.elapsed } }
def execTunerWriteBack (dt : Nat) (s : State) : Host.Outcome State Fault Refusal :=
  .next (onlyIf (tunerWriteBackOk (s.pass dt)) (tunerWriteBack (s.pass dt)) (s.pass dt))

/-! ### Loading the tables (R118, R122, R130, R143) -/

/-- The entries of a state table body. -/
def stEntries : Nat → List Nat → List (List Nat)
  | 0, _ => []
  | n + 1, l => l.take 16 :: stEntries n (l.drop 16)

/-- A target of the table is a loaded ID, HOME or none (R130). -/
def stTargetOk (ids : List Nat) (t : Nat) : Bool := t == 0xFE || t == 0xFF || ids.contains t

/-- One entry keeps the rules of R130. -/
def stEntryOk (ids : List Nat) (e : List Nat) : Bool :=
  let kind := leAt e 1 1
  let act := leAt e 6 2
  let bit := fun i => bitOf act i == 1
  let modes := bitOf act 2 + bitOf act 3 + bitOf act 12
  decide (leAt e 0 1 < 32) && decide (kind ≤ 5) && decide (leAt e 2 1 ≤ 2) && stTargetOk ids (leAt e 3 1) && stTargetOk ids (leAt e 4 1) &&
  (!(kind == 2 || kind == 3 || kind == 4) || modes == 1) &&
  (!(decide (0 < modes) || bit 8) || bit 1) &&
  (!(kind == 3 || kind == 4) || (!(leAt e 2 1 == 0) && bit 4)) &&
  (!(kind == 4) || (bit 6 && !(leAt e 3 1 == 0xFF) && decide (leAt e 12 2 ≤ 1000))) &&
  (!bit 8 || kind == 5) && (!(bit 10 || bit 11) || kind == 0)

/-- A state table body may be loaded (R130); the number of the first entry that fails, counted from 0, when it may not. -/
def stTableOk (b : List Nat) : Bool :=
  let n := leAt b 2 1
  let es := stEntries n (b.drop 4)
  let ids := es.map (fun e => leAt e 0 1)
  decide (1 ≤ n) && decide (n ≤ 32) && b.length == 4 + 16 * n && ids.eraseDups.length == ids.length && es.all (stEntryOk ids) &&
  es.any (fun e => leAt e 0 1 == leAt b 0 1 && leAt e 1 1 == 2) && es.any (fun e => leAt e 0 1 == leAt b 1 1 && leAt e 1 1 == 2)

/-- The body offset of the first state entry that fails, 0 when the fault lies in the head (R357). -/
def stTableOffs (b : List Nat) : Nat :=
  let n := leAt b 2 1
  let es := stEntries n (b.drop 4)
  let ids := es.map (fun e => leAt e 0 1)
  match (List.range n).find? (fun i => !stEntryOk ids (es.getD i [])) with | some i => 4 + 16 * i | none => 0

/-- A power table body keeps R118's ranges. -/
def powerTableOk (b : List Nat) : Bool :=
  let n0 := leAt b 0 2
  let n1 := leAt b (8 + 2 * n0) 2
  decide (n0 ≤ 189) && decide (n1 ≤ 161) && b.length == 16 + 2 * n0 + 2 * n1 && decide (leAt b 6 1 ≤ 24) && decide (leAt b (8 + 2 * n0 + 6) 1 ≤ 24)

/-- A sub-band entry of a regime table is in range (R143). -/
def subEntryOk (e : List Nat) : Bool := decide (leAt e 0 4 < leAt e 4 4) && decide (leAt e 12 2 ≤ 10000)

/-- A regime block is in range (R143). -/
def regBlockOk (b : List Nat) : Bool :=
  decide (1 ≤ leAt b 0 1) && decide (leAt b 0 1 ≤ 15) && decide (1 ≤ leAt b 1 1) && decide (leAt b 1 1 ≤ 8) &&
  (List.range (leAt b 1 1)).all (fun i => subEntryOk ((b.drop (4 + 24 * i)).take 24))

/-- The blocks of a regime table body. -/
def regBlocks : Nat → List Nat → List (List Nat)
  | 0, _ => []
  | n + 1, l => l.take 196 :: regBlocks n (l.drop 196)

/-- A regime table body may be loaded (R143). -/
def regTableOk (b : List Nat) : Bool :=
  let n := leAt b 0 1
  let bs := regBlocks n (b.drop 4)
  let ids := bs.map (fun x => leAt x 0 1)
  decide (1 ≤ n) && decide (n ≤ 4) && b.length == 4 + 196 * n && bs.all regBlockOk && ids.eraseDups.length == ids.length

/-- The body offset of the first regime block that fails. -/
def regTableOffs (b : List Nat) : Nat :=
  let n := leAt b 0 1
  let bs := regBlocks n (b.drop 4)
  match (List.range n).find? (fun i => !regBlockOk (bs.getD i [])) with | some i => 4 + 196 * i | none => 0

/-- A tuner table body has 16 entries (R122). -/
def tunerTableOk (b : List Nat) : Bool := b.length == 64

end Sys2Proof.Machine
end

