-- ==== Sys2Proof/Machine/RxcOps.lean ====
section
/-!
DEFINITION. The receiver (04_wideband_receiver.md): lanes and sampling modes, gain, preamble candidates, the decoder pool,
receive records and their time stamps, and the radio transitions that set the sampling mode.
-/
namespace Sys2Proof.Machine

/-! ### Modes and windows (R156 to R160, R166) -/

/-- Good lanes: not retired (R160). -/
def lanesGood (s : State) : Nat := ((List.range 9).filter (fun i => bitOf (s.rd Reg.RXC_LANE_RETIRED) i == 0)).length

/-- The mode that a FULL request gets, and a NARROW one (R160). -/
def servedFull (good : Nat) : Nat := if 8 ≤ good then 1 else if 2 ≤ good then 3 else if good = 1 then 2 else 0
def servedNarrow (good : Nat) : Nat := if 1 ≤ good then 2 else 0

/-- The sampling mode that a radio state asks for: RXFULL, RXNARROW, or RXHOME through the HOME state (R129); 0 for none. -/
def modeAsked (s : State) (st : Nat) : Nat :=
  let of := fun x => if stAct s x 2 then 1 else if stAct s x 3 then 2 else 0
  if stAct s st 12 then of (stHome s) else of st

/-- The window that narrow mode serves: NWIN of the network configuration (R353). -/
def cfgNwin (s : State) : Nat := (leAt s.netCfg 399 1) % 2

/-- The window is served in a mode (R156 to R158): configured, and in NARROW and SPLIT inside one zone. -/
def winServed (s : State) (mode w : Nat) : Bool :=
  s.on (Reg.RXC_WIN_EN w) && (match mode with
    | 1 => true
    | 2 => w == cfgNwin s && winZone (winFc s w) (winBins s w) != 0
    | 3 => winZone (winFc s w) (winBins s w) != 0 && (w == 0 || winPath s 0 != winPath s 1)
    | _ => false)

/-- The receive path of a port is isolated: its transmitter is on, or within 3 µs of the ramp-down's end (R110). -/
def pathIsolated (s : State) (p : Nat) : Bool :=
  (match s.rfe.tx with | some t => t.phase != .held && txPort s t.req == p && stAct s t.req.state 6 | none => false) ||
  (match s.rfe.isoUntil with | some (q, e) => q == p && decide (s.elapsed < e) | none => false)

/-- The decoders in the pool (R172), and the most that may be reserved. -/
def poolSize (s : State) : Nat := match s.rd Reg.RXC_STAT_MODE with | 0 => 0 | 2 => 8 | _ => 32
def rsvLimit (s : State) : Nat := if s.rd Reg.RXC_STAT_MODE = 2 then 2 else 8

/-- Adjacent bins that a mode's decoder reads (R166). -/
def modeNb (mode : Nat) : Nat :=
  match mode / 64 with
  | 1 => (match (mode / 8) % 8 with | 0 => 1 | 1 => 1 | 5 => 5 | _ => 3)
  | 2 => (match (mode / 16) % 4 with | 0 => 7 | 3 => 1 | _ => 3)
  | _ => 11

/-- The mode family (R166). -/
def modeFam (mode : Nat) : Nat := mode / 64

/-- Two MODE codes name the same mode-set entry: for SUN-OFDM every MCS of an option (R166). -/
def modeEntry (mode : Nat) : Nat := if mode / 64 = 2 then mode / 8 * 8 else mode

/-- The mode sets (R188) and priorities (R189). -/
def msetField (w k : Nat) : Field :=
  match k with | 0 => Reg.RXC_MSET_M0 w | 1 => Reg.RXC_MSET_M1 w | 2 => Reg.RXC_MSET_M2 w | _ => Reg.RXC_MSET_M3 w
def modeSlot (s : State) (w mode : Nat) : Option Nat :=
  (List.range 4).find? (fun k => s.rd (msetField w k) != 0 && s.rd (msetField w k) == modeEntry mode)
def modePrio (s : State) (w mode : Nat) : Nat :=
  match modeSlot s w mode with
  | some k => bitsOf (if w = 0 then s.rd Reg.RXC_MPRIO_P0 else s.rd Reg.RXC_MPRIO_P1) (2 * k + 1) (2 * k)
  | none => 0

/-! ### The pool -/

def Dec.isFree : Dec → Bool | .free => true | _ => false
def Dec.isBusy : Dec → Bool | .busy _ => true | _ => false
def Dec.isReserved : Dec → Bool | .reserved _ => true | _ => false
def Dec.frame : Dec → Option Busy | .busy b => some b | _ => none

/-- A decoder. -/
def dec (s : State) (d : Nat) : Dec := s.rxc.decs.getD d .free

/-- Show the pool in MDM_STAT (R191). -/
def mdmShow (s : State) : State :=
  let busy := (s.rxc.decs.filter Dec.isBusy).length
  let s1 := (s.wr Reg.MDM_STAT_BUSY busy).wr Reg.MDM_STAT_RSV (s.rxc.decs.filter Dec.isReserved).length
  (s1.wr Reg.MDM_STAT_WAIT s.rxc.cands.length).wr Reg.MDM_STAT_PEAK (max (s.rd Reg.MDM_STAT_PEAK) busy)

/-- Change a decoder, and show the pool. -/
def decSet (d : Nat) (x : Dec) (s : State) : State := mdmShow { s with rxc := { s.rxc with decs := modAt s.rxc.decs d (fun _ => x) } }

/-- A decoder becomes free: a reservation that waits takes it ahead of every candidate (R172). -/
def decFree (d : Nat) (s : State) : State :=
  match s.rxc.rsvWait with
  | r :: rest => decSet d (.reserved r) { s with rxc := { s.rxc with rsvWait := rest } }
  | [] => decSet d .free s

/-- Abandon every frame in the pool for a mode change (R175, MODE), drop the candidates' decoders with them. -/
def poolAbandon (s : State) : State :=
  let n := (s.rxc.decs.filter Dec.isBusy).length
  mdmShow ({ s with rxc := { s.rxc with decs := s.rxc.decs.map (fun x => if Dec.isBusy x then Dec.free else x) } }.count Reg.MDM_ABNCNT n)

/-- Show which windows detect (R110, R158, R185). -/
def winShow (s : State) : State :=
  let m := s.rd Reg.RXC_STAT_MODE
  let d := fun w => b2n (winServed s m w && !pathIsolated s (winPath s w))
  let z := if m = 2 then winZone (winFc s (cfgNwin s)) (winBins s (cfgNwin s)) else 0
  (((s.wr Reg.RXC_STAT_W0DET (d 0)).wr Reg.RXC_STAT_W1DET (d 1)).wr Reg.RXC_STAT_ZONE z).wr Reg.RXC_STAT_NWIN (cfgNwin s)

/-- The first good lane that is not `x`. -/
def laneOther (s : State) (x : Nat) : Nat := ((List.range 9).find? (fun i => bitOf (s.rd Reg.RXC_LANE_RETIRED) i == 0 && i != x)).getD 15

/-- Set the sampling mode (R156, R159): a change abandons the running frames; FULL with nine good lanes, and SPLIT with three or more, have a
spare. -/
def rxcMode (m : Nat) (s : State) : State :=
  let s1 := if s.rd Reg.RXC_STAT_MODE = m then s else poolAbandon (s.wr Reg.RXC_STAT_MODE m)
  let good := lanesGood s1
  let spare := if (m = 1 ∧ good = 9) ∨ (m = 3 ∧ 3 ≤ good) then (if s1.rd Reg.RXC_LANE_SPARE = 15 then laneOther s1 99 else s1.rd Reg.RXC_LANE_SPARE) else 15
  let nl := if m = 2 then (if s1.rd Reg.RXC_LANE_NLANE = 15 then laneOther s1 99 else s1.rd Reg.RXC_LANE_NLANE) else 15
  winShow ((s1.wr Reg.RXC_LANE_SPARE spare).wr Reg.RXC_LANE_NLANE nl)

/-- The sampling mode of the current radio state, as the good lanes serve it. -/
def rxcApply (s : State) : State :=
  let m := modeAsked s (stNow s)
  rxcMode (if m = 1 then servedFull (lanesGood s) else if m = 2 then servedNarrow (lanesGood s) else 0) s

/-- RADIO_TRANSITION_DONE (R132): a transition completes: the converter runs in the mode the state asks for. -/
def radioTransitionDoneOk (s : State) : Bool := s.rfe.moving.isSome
def radioTransitionDone (s : State) : State := rxcApply (movingDone s)
def execRadioTransitionDone (dt : Nat) (s : State) : Host.Outcome State Fault Refusal :=
  .next (onlyIf (radioTransitionDoneOk (s.pass dt)) (radioTransitionDone (s.pass dt)) (s.pass dt))

/-- STATE_TIMEOUT (R125, R127): TIMEOUT has elapsed since entry; an auto-return cancels it, and in a listen state a reserved frame in a decoder
holds it. -/
def stateTimeoutOk (s : State) : Bool :=
  let t := stField s (stNow s) 8 4
  decide (t ≠ 0) && decide (s.rfe.entered + cycUs t ≤ s.elapsed) && s.rfe.pktDone.isNone && !txBusy s &&
  (stTarget s (stField s (stNow s) 4 1)).isSome &&
  !(stKind s == 2 && s.rxc.decs.any (fun d => match d with | .busy b => b.rsv.isSome | _ => false))
def stateTimeout (vpa : Nat) (s : State) : State :=
  match stTarget s (stField s (stNow s) 4 1) with | some t => stEnter t vpa s | none => s
def execStateTimeout (vpa dt : Nat) (s : State) : Host.Outcome State Fault Refusal :=
  .next (onlyIf (stateTimeoutOk (s.pass dt)) (stateTimeout vpa (s.pass dt)) (s.pass dt))

/-! ### Lanes (R159, R160) -/

/-- The quality field of a lane (R190). -/
def laneQ (i : Nat) : Field :=
  match i % 4 with | 0 => Reg.RXC_LANEQ_Q0 (i / 4) | 1 => Reg.RXC_LANEQ_Q1 (i / 4) | 2 => Reg.RXC_LANEQ_Q2 (i / 4) | _ => Reg.RXC_LANEQ_Q3 (i / 4)

/-- A lane's record. -/
def lane (s : State) (i : Nat) : Lane := s.rxc.lanes.getD i ⟨none, false, false⟩
def laneSet (i : Nat) (l : Lane) (s : State) : State := { s with rxc := { s.rxc with lanes := modAt s.rxc.lanes i (fun _ => l) } }
def laneRetired (s : State) (i : Nat) : Bool := bitOf (s.rd Reg.RXC_LANE_RETIRED) i == 1

/-- Retire a lane (R160): the bit, EV112, the health record and its alarm; the served mode may change, with EV113. -/
def laneRetire (i : Nat) (s : State) : State :=
  let before := servedFull (lanesGood s)
  let s1 := rmapWrite (((s.setBit Reg.RXC_LANE_RETIRED i).wr (laneQ i) 0).raise 112)
  let s2 := alarm Reg.AGE_ALARMS_LANES true (healthPut 2 2 2 i i (lanesGood s1) s1)
  let s3 := if s2.rd Reg.RXC_LANE_SPARE = i then s2.wr Reg.RXC_LANE_SPARE 15 else s2
  let s4 := if s3.rd Reg.RXC_LANE_NLANE = i then s3.wr Reg.RXC_LANE_NLANE 15 else s3
  rxcApply (if servedFull (lanesGood s4) = before then s4 else notice 0xF004 2 [before, servedFull (lanesGood s4), lanesGood s4, 0] (s4.raise 113))

/-- A lane may be calibrated now: the spare, any lane in place where there is no spare, or in NARROW any lane not in use. -/
def laneCalOk (s : State) (i : Nat) : Bool :=
  decide (i < 9) && !laneRetired s i && (match s.rd Reg.RXC_STAT_MODE with
    | 0 => false
    | 2 => s.rd Reg.RXC_LANE_NLANE != i || lanesGood s == 1
    | _ => s.rd Reg.RXC_LANE_SPARE == i || s.rd Reg.RXC_LANE_SPARE == 15)

/-- LANE_CALIBRATION (R159, R160): the lane reports its quality in 1/16 bit; two results below 8.0 bits in a row, or none, retire it. -/
def laneCalibrationOk (i : Nat) (s : State) : Bool := laneCalOk s i
def laneCalibration (i q : Nat) (converged : Bool) (s : State) : State :=
  let low := decide (q < 128)
  let s1 := (laneSet i ⟨some s.elapsed, low, converged && !low⟩ s).wr (laneQ i) (min 255 q)
  if !converged || (low && (lane s i).low) then laneRetire i s1 else s1
def execLaneCalibration (lane quality : Nat) (converged : Bool) (dt : Nat) (s : State) : Host.Outcome State Fault Refusal :=
  .next (onlyIf (laneCalibrationOk lane (s.pass dt)) (laneCalibration lane quality converged (s.pass dt)) (s.pass dt))

/-- Seconds between exchanges (R159). -/
def laneTurn (s : State) : Nat := if s.rd Reg.RXC_STAT_MODE = 1 then 1 else 60

/-- The lane was calibrated longest ago among the active ones. -/
def laneOldest (s : State) (i : Nat) : Bool :=
  (List.range 9).all (fun j => laneRetired s j || j == s.rd Reg.RXC_LANE_SPARE || j == i || (match (lane s i).calAt, (lane s j).calAt with
    | none, _ => true
    | some _, none => false
    | some a, some b => decide (a ≤ b)))

/-- LANE_EXCHANGE (R159): once a second in FULL, once a minute in NARROW and SPLIT, the calibrated spare takes the place of the lane calibrated
longest ago; in NARROW of the lane in use. -/
def laneExchangeOk (i : Nat) (s : State) : Bool :=
  decide (s.rxc.rotAt + cycS (laneTurn s) ≤ s.elapsed) && decide (i < 9) && !laneRetired s i &&
  (if s.rd Reg.RXC_STAT_MODE = 2 then s.rd Reg.RXC_LANE_NLANE == i && (List.range 9).any (fun j => j != i && !laneRetired s j && (lane s j).ready)
   else s.rd Reg.RXC_LANE_SPARE != 15 && s.rd Reg.RXC_LANE_SPARE != i && (lane s (s.rd Reg.RXC_LANE_SPARE)).ready && laneOldest s i)
def laneExchange (i : Nat) (s : State) : State :=
  let s1 := ({ s with rxc := { s.rxc with rotAt := s.elapsed } }).inc Reg.RXC_ROTCNT
  if s.rd Reg.RXC_STAT_MODE = 2 then
    let j := ((List.range 9).find? (fun j => j != i && !laneRetired s j && (lane s j).ready)).getD i
    laneSet j { lane s j with ready := false } (s1.wr Reg.RXC_LANE_NLANE j)
  else
    let j := s.rd Reg.RXC_LANE_SPARE
    laneSet j { lane s j with ready := false } (s1.wr Reg.RXC_LANE_SPARE i)
def execLaneExchange (lane dt : Nat) (s : State) : Host.Outcome State Fault Refusal :=
  .next (onlyIf (laneExchangeOk lane (s.pass dt)) (laneExchange lane (s.pass dt)) (s.pass dt))

/-! ### Gain (R161) -/

/-- The gain state of a path. -/
def gainField (p : Nat) : Field := if p = 0 then Reg.RXC_STAT_GAINS else Reg.RXC_STAT_GAINW

/-- CLIP_OVERLOAD (R161): the path with the higher measured power steps down by 6 dB; frames in progress in it are marked. -/
def clipPath (powerS powerW : Nat) : Nat := if powerS < powerW then 1 else 0
def clipOverloadOk (powerS powerW : Nat) (s : State) : Bool := s.rd Reg.RXC_STAT_MODE != 0 && decide (s.rd (gainField (clipPath powerS powerW)) < 3)
def clipOverload (powerS powerW : Nat) (s : State) : State :=
  let p := clipPath powerS powerW
  let mark := fun d => match d with | Dec.busy b => if winPath s b.cand.win = p then Dec.busy { b with gainStep := true } else d | _ => d
  let s1 : State := { s with rxc := { s.rxc with decs := s.rxc.decs.map mark } }
  ((s1.wr (gainField p) (s.rd (gainField p) + 1)).inc Reg.RXC_OVLCNT).raise 115
def execClipOverload (powerS powerW dt : Nat) (s : State) : Host.Outcome State Fault Refusal :=
  .next (onlyIf (clipOverloadOk powerS powerW (s.pass dt)) (clipOverload powerS powerW (s.pass dt)) (s.pass dt))

/-- GAIN_STEP_UP (R161): a path 12 dB below clip for 10 ms with no frame running in it. -/
def gainStepUpOk (p : Nat) (s : State) : Bool :=
  decide (p < 2) && decide (0 < s.rd (gainField p)) && !(s.rxc.decs.any (fun d => match d with | .busy b => winPath s b.cand.win == p | _ => false))
def gainStepUp (p : Nat) (s : State) : State := s.wr (gainField p) (s.rd (gainField p) - 1)
def execGainStepUp (p dt : Nat) (s : State) : Host.Outcome State Fault Refusal :=
  .next (onlyIf (gainStepUpOk p (s.pass dt)) (gainStepUp p (s.pass dt)) (s.pass dt))

/-! ### Candidates (R169 to R174) -/

/-- Distance of two bins. -/
def binDist (a b : Nat) : Nat := (a - b) + (b - a)

/-- A candidate matches a reservation (R172). -/
def rsvFits (r : Rsv) (c : Cand) : Bool := r.win == c.win && r.fam == modeFam c.mode && decide (binDist r.bin c.bin ≤ 1)

/-- A candidate matches an active reservation whose decoder is busy (R173, step 1). -/
def rsvBusyFits (s : State) (c : Cand) : Bool :=
  s.rxc.decs.any (fun d => match d with | .busy b => (match b.rsv with | some r => rsvFits r c && decide (s.now ≤ r.until_) | none => false) | _ => false)

/-- `a` ranks before `b` (R173). -/
def candBefore (s : State) (a b : Cand) : Bool :=
  let ka := b2n (rsvBusyFits s a); let kb := b2n (rsvBusyFits s b)
  if ka ≠ kb then decide (kb < ka)
  else if modePrio s a.win a.mode ≠ modePrio s b.win b.mode then decide (modePrio s b.win b.mode < modePrio s a.win a.mode)
  else if a.energy ≠ b.energy then decide (b.energy < a.energy)
  else if a.det ≠ b.det then decide (a.det < b.det)
  else if a.win ≠ b.win then decide (a.win < b.win)
  else decide (a.bin < b.bin)

/-- The best candidate of a list, and the worst. -/
def candBest (s : State) : List Cand → Option Cand
  | [] => none
  | c :: cs => match candBest s cs with | none => some c | some d => if candBefore s d c then some d else some c
def candWorst (s : State) : List Cand → Option Cand
  | [] => none
  | c :: cs => match candWorst s cs with | none => some c | some d => if candBefore s d c then some c else some d

/-- A candidate is dropped without a decoder: RXC_NODECCNT, and EV114 at most once per millisecond (R171). -/
def candLost (s : State) : State :=
  let s1 := s.inc Reg.RXC_NODECCNT
  match s.rxc.ev114 with
  | some e => if s.elapsed < e + cycMs 1 then s1 else { s1 with rxc := { s1.rxc with ev114 := some s.elapsed } }.raise 114
  | none => { s1 with rxc := { s1.rxc with ev114 := some s.elapsed } }.raise 114

/-- The bin of W1 lies inside W0's span (R164). -/
def inOverlap (s : State) (bin : Nat) : Bool :=
  s.on (Reg.RXC_WIN_EN 0) && decide (binFreq (winFc s 0) (256 - winBins s 0 / 2) ≤ binFreq (winFc s 1) bin) &&
  decide (binFreq (winFc s 1) bin ≤ binFreq (winFc s 0) (255 + winBins s 0 / 2))

/-- The bin is blanked by the transmission on the air (R183). -/
def binIsBlanked (s : State) (w bin : Nat) : Bool :=
  match s.rfe.tx with
  | some t => t.phase != .held && txPort s t.req != winPath s w && binBlanked t.req.freq (binFreq (winFc s w) bin)
  | none => false

/-- Same mode and within NB bins and 8 µs: one candidate (R170). -/
def candMerges (s : State) (w bin mode : Nat) (c : Cand) : Bool :=
  c.win == w && modeEntry c.mode == modeEntry mode && decide (binDist c.bin bin ≤ modeNb mode) && decide (s.elapsed ≤ c.det + cycUs 8)

/-- PREAMBLE_DETECT (R169, R170, R174): a detection in a detecting window joins a candidate, keeping the bin of the highest energy, or makes a new
one; with 64 waiting the lowest ranked of the 65 is dropped. `again`: the detector still reports preamble on its candidate. -/
def preambleDetectOk (w bin mode : Nat) (s : State) : Bool :=
  decide (w < 2) && winDet s w && !pathIsolated s (winPath s w) && winHas s w bin && (modeSlot s w mode).isSome && !binIsBlanked s w bin && !(w == 1 && inOverlap s bin)
def preambleDetect (w bin mode energy : Nat) (again : Bool) (s : State) : State :=
  if again then
    mdmShow { s with rxc := { s.rxc with cands := s.rxc.cands.map (fun c => if c.win = w ∧ c.bin = bin ∧ c.mode = modeEntry mode then { c with last := s.elapsed } else c) } }
  else
    let s1 := s.inc Reg.RXC_DETCNT
    if s.rxc.cands.any (candMerges s w bin mode) then
      mdmShow { s1 with rxc := { s1.rxc with cands := s1.rxc.cands.map (fun c => if candMerges s w bin mode c then { c with last := s.elapsed, bin := if c.energy < energy then bin else c.bin, energy := max c.energy energy } else c) } }
    else
      let n : Cand := ⟨w, bin, modeEntry mode, energy, s.elapsed, s.elapsed⟩
      let all := s1.rxc.cands ++ [n]
      if all.length ≤ 64 then mdmShow { s1 with rxc := { s1.rxc with cands := all } }
      else match candWorst s1 all with
        | some x => candLost (mdmShow { s1 with rxc := { s1.rxc with cands := all.erase x } })
        | none => s1
def execPreambleDetect (w bin mode energy : Nat) (again : Bool) (dt : Nat) (s : State) : Host.Outcome State Fault Refusal :=
  .next (onlyIf (preambleDetectOk w bin mode (s.pass dt)) (preambleDetect w bin mode energy again (s.pass dt)) (s.pass dt))

/-- CANDIDATE_EXPIRY (R171): 128 µs after its last report a candidate without a decoder is dropped. -/
def candidateExpiryOk (i : Nat) (s : State) : Bool := match s.rxc.cands[i]? with | some c => decide (c.last + cycUs 128 ≤ s.elapsed) | none => false
def candidateExpiry (i : Nat) (s : State) : State := candLost (mdmShow { s with rxc := { s.rxc with cands := s.rxc.cands.eraseIdx i } })
def execCandidateExpiry (i dt : Nat) (s : State) : Host.Outcome State Fault Refusal :=
  .next (onlyIf (candidateExpiryOk i (s.pass dt)) (candidateExpiry i (s.pass dt)) (s.pass dt))

/-- Give a candidate to a decoder. -/
def attach (d : Nat) (c : Cand) (r : Option Rsv) (s : State) : State :=
  decSet d (.busy ⟨c, s.elapsed, r, false⟩) { s with rxc := { s.rxc with cands := s.rxc.cands.erase c } }

/-- A reserved decoder serves the matching candidate of highest energy (R172). -/
def serveReserved (d : Nat) (s : State) : State :=
  match dec s d with
  | .reserved r =>
    let fits := s.rxc.cands.filter (rsvFits r)
    match fits.foldl (fun m c => match m with | none => some c | some x => if x.energy < c.energy then some c else some x) none with
    | some c => attach d c (some r) s
    | none => s
  | _ => s

/-- A free decoder takes the best candidate (R173). -/
def serveFree (d : Nat) (s : State) : State :=
  if (dec s d).isFree then match candBest s s.rxc.cands with | some c => attach d c none s | none => s else s

/-- ALLOCATION (R172, R173): once a microsecond reserved decoders serve their candidates and free ones the best that wait. -/
def allocationOk (s : State) : Bool := !s.rxc.cands.isEmpty
def allocation (s : State) : State :=
  let ds := List.range (poolSize s)
  ds.foldl (fun t d => serveFree d t) (ds.foldl (fun t d => serveReserved d t) s)
def execAllocation (dt : Nat) (s : State) : Host.Outcome State Fault Refusal :=
  .next (onlyIf (allocationOk (s.pass dt)) (allocation (s.pass dt)) (s.pass dt))

/-! ### Reservations (R172, R196) -/

/-- Reservations outstanding. -/
def rsvCount (s : State) : Nat := s.rxc.rsvs.length + s.rxc.rsvWait.length + (s.rxc.decs.filter Dec.isReserved).length

/-- A sequencer makes a reservation; at the limit of R172 it is not reserved and LNK_RSVFULLCNT counts (R196). -/
def rsvMake (r : Rsv) (s : State) : State :=
  if rsvCount s < rsvLimit s then { s with rxc := { s.rxc with rsvs := s.rxc.rsvs ++ [r] } } else s.inc Reg.LNK_RSVFULLCNT

/-- RESERVATION_START (R172): at the start of its guard window a reservation takes a free decoder, or waits for the next. -/
def reservationStartOk (i : Nat) (s : State) : Bool := match s.rxc.rsvs[i]? with | some r => decide (r.from_ ≤ s.now) | none => false
def reservationStart (i : Nat) (s : State) : State :=
  match s.rxc.rsvs[i]? with
  | none => s
  | some r =>
    let s1 : State := { s with rxc := { s.rxc with rsvs := s.rxc.rsvs.eraseIdx i } }
    match (List.range (poolSize s1)).find? (fun d => (dec s1 d).isFree) with
    | some d => decSet d (.reserved r) s1
    | none => { s1 with rxc := { s1.rxc with rsvWait := s1.rxc.rsvWait ++ [r] } }
def execReservationStart (i dt : Nat) (s : State) : Host.Outcome State Fault Refusal :=
  .next (onlyIf (reservationStartOk i (s.pass dt)) (reservationStart i (s.pass dt)) (s.pass dt))

/-- RESERVATION_LAPSE (R172): an unused reservation ends with its guard window; one that still waits ends too. -/
def reservationLapseOk (d : Nat) (s : State) : Bool :=
  (match dec s d with | .reserved r => decide (r.until_ ≤ s.now) | _ => false) || s.rxc.rsvWait.any (fun r => decide (r.until_ ≤ s.now))
def reservationLapse (d : Nat) (s : State) : State :=
  let s1 : State := { s with rxc := { s.rxc with rsvWait := s.rxc.rsvWait.filter (fun r => decide (s.now < r.until_)) } }
  match dec s1 d with
  | .reserved r => if r.until_ ≤ s.now then decFree d s1 else s1
  | _ => s1
def execReservationLapse (d dt : Nat) (s : State) : Host.Outcome State Fault Refusal :=
  .next (onlyIf (reservationLapseOk d (s.pass dt)) (reservationLapse d (s.pass dt)) (s.pass dt))

/-! ### Decoding (R175 to R180) -/

/-- The time stamp's sigma in ns at 15 dB (R180). -/
def tsSigma (mode : Nat) : Nat :=
  match mode / 64 with
  | 1 => if (mode / 8) % 8 = 0 then 12 else 9
  | 2 => (match (mode / 16) % 4 with | 0 => 5 | 1 => 7 | 2 => 9 | _ => 11)
  | _ => 4

/-- The largest number of at most `n` bits whose 80th power does not pass `x`. -/
def root80 (x : Nat) : Nat → Nat → Nat
  | 0, r => r
  | n + 1, r => root80 x n (if (r + 2 ^ n) ^ 80 ≤ x then r + 2 ^ n else r)

/-- TSQ (R180): below 15 dB sigma grows as the inverse root of the SNR, 10^(k/80) for k quarter decibels; rounded down. -/
def tsqOf (mode : Nat) (snr : Int) : Nat :=
  if 60 ≤ snr then tsSigma mode else root80 (tsSigma mode ^ 80 * 10 ^ (60 - snr).toNat) 12 0

/-- The relation of samples to Firn time is not established: no marked sample since the last step (R178). -/
def markSlow (s : State) : Bool := match s.rxc.mark with | none => true | some (e, _) => decide (e < s.firn.stepAt)

/-- The receive record (R177). -/
def rxRecord (d : Nat) (b : Busy) (r : RxIn) (s : State) : RxRec :=
  { ts := r.ts, mode := r.mode, flags := b2n (decide (r.snr < 24) || markSlow s) + 2 * b2n b.rsv.isSome + 4 * b2n b.gainStep + 8 * b2n r.fec + 16 * b2n r.fcs4,
    bin := b.cand.bin % 512 + 512 * (modeNb b.cand.mode - 1) + 32768 * b.cand.win, dec := d, rssi := r.rssi, snr := r.snr,
    evm := if modeFam r.mode = 1 then 0 else r.evm, lqi := (clampInt 0 255 (2 * r.snr + 40)).toNat, cfo := r.cfo,
    freq := binFreq (winFc s b.cand.win) b.cand.bin, tsq := tsqOf r.mode r.snr, psdu := r.psdu }

/-- FRAME_DECODED (R175, R127): a frame whose FCS passes enters the receive ring where there is room, and the radio state's auto-return is due;
otherwise it is counted under FCS or RING. -/
def frameDecodedOk (d : Nat) (r : RxIn) (s : State) : Bool :=
  (dec s d).isBusy && decide (1 ≤ r.psdu.length) && decide (r.psdu.length ≤ 2047)
def frameDecoded (d : Nat) (r : RxIn) (room : Bool) (s : State) : State :=
  match (dec s d).frame with
  | none => s
  | some b =>
    let s1 := decFree d s
    if !r.fcsOk then s1.inc Reg.MDM_FCSCNT
    else if !room then (s1.inc Reg.MDM_RINGCNT).raise 116
    else
      let s2 : State := { s1 with rxc := { s1.rxc with ring := s1.rxc.ring ++ [rxRecord d b r s] } }
      let s3 : State := if stKind s = 2 then { s2 with rfe := { s2.rfe with pktDone := some (stNow s) } } else s2
      s3.inc Reg.MDM_FRAMECNT
def execFrameDecoded (d : Nat) (r : RxIn) (room : Bool) (dt : Nat) (s : State) : Host.Outcome State Fault Refusal :=
  .next (onlyIf (frameDecodedOk d r (s.pass dt)) (frameDecoded d r room (s.pass dt)) (s.pass dt))

/-- SFD_TIMEOUT (R175): no delimiter in time. -/
def sfdTimeoutOk (d : Nat) (s : State) : Bool := (dec s d).isBusy
def sfdTimeout (d : Nat) (s : State) : State := (decFree d s).inc Reg.MDM_SFDTOCNT
def execSfdTimeout (d dt : Nat) (s : State) : Host.Outcome State Fault Refusal :=
  .next (onlyIf (sfdTimeoutOk d (s.pass dt)) (sfdTimeout d (s.pass dt)) (s.pass dt))

/-- DECODE_ABANDON (R175): 0 PHR, 1 LOST, 2 TXSUSP (the window's path is isolated), 3 MODE. -/
def decodeAbandonOk (d reason : Nat) (s : State) : Bool :=
  match (dec s d).frame with
  | none => false
  | some b => decide (reason ≤ 3) && (reason != 2 || pathIsolated s (winPath s b.cand.win))
def decodeAbandon (d : Nat) (s : State) : State := (decFree d s).inc Reg.MDM_ABNCNT
def execDecodeAbandon (d reason dt : Nat) (s : State) : Host.Outcome State Fault Refusal :=
  .next (onlyIf (decodeAbandonOk d reason (s.pass dt)) (decodeAbandon d (s.pass dt)) (s.pass dt))

/-- TIMESTAMP_MARK (R178): the local Firn time of a marked sample. -/
def timestampMarkOk (s : State) : Bool := s.rd Reg.RXC_STAT_MODE != 0
def timestampMark (s : State) : State := { s with rxc := { s.rxc with mark := some (s.elapsed, s.now) } }
def execTimestampMark (dt : Nat) (s : State) : Host.Outcome State Fault Refusal :=
  .next (onlyIf (timestampMarkOk (s.pass dt)) (timestampMark (s.pass dt)) (s.pass dt))

/-- Set the windows and mode sets from the network configuration (R353, R187 to R189). -/
def rxcConfig (s : State) : State :=
  (List.range 2).foldl (fun t w =>
    let o := 360 + 16 * w
    let width := leAt t.netCfg (o + 4) 1
    let t1 := ((t.wr (Reg.RXC_WIN_EN w) (b2n (width != 0))).wr (Reg.RXC_WIN_WIDTH w) width).wr (Reg.RXC_WIN_FC w) (if width = 0 then 0 else leAt t.netCfg o 4)
    let t2 := (List.range 4).foldl (fun u k => u.wr (msetField w k) (leAt t.netCfg (o + 8 + k) 1)) t1
    t2.wr (if w = 0 then Reg.RXC_MPRIO_P0 else Reg.RXC_MPRIO_P1) (leAt t.netCfg (o + 12) 1)) s |> winShow

end Sys2Proof.Machine
end

