-- ==== Sys2Proof/Machine/LnkOps.lean ====
section
/-!
DEFINITION. The link controller (05_link_controller.md): keys and check values, frames, channels, guard windows, sequencers,
and the connections with their events, acknowledgement, control PDUs, updates and drops.
-/
namespace Sys2Proof.Machine

/-! ### Keys and check values (R202, R531 to R534) -/

/-- The epoch that senders use: the newest whose FROM has passed (R534). -/
def sendEpoch (s : State) : Option Epoch :=
  s.lnk.epochs.foldl (fun m e => if e.from_ ≤ s.now then (match m with | none => some e | some x => if x.from_ ≤ e.from_ then some e else some x) else m) none

/-- The network or join key that KEYID names (R200, R531). -/
def keyOf (s : State) (kid : Nat) : Option (List Nat) :=
  if kid = 7 then s.lnk.joinKey else (s.lnk.epochs.find? (fun e => e.epoch == kid)).map (·.key)

/-- Load a key record (R534): into its epoch's place, or in place of the epoch with the earliest FROM when three are held; one earlier than all
held is refused. -/
def epochLoad (ep fr : Nat) (key : List Nat) (s : State) : State :=
  let n : Epoch := ⟨ep, fr, key, 0⟩
  let es := s.lnk.epochs
  if es.any (fun e => e.epoch == ep) then { s with lnk := { s.lnk with epochs := es.map (fun e => if e.epoch = ep then { n with enonce := e.enonce } else e) } }
  else if es.length < 3 then { s with lnk := { s.lnk with epochs := es ++ [n] } }
  else if es.all (fun e => decide (fr < e.from_)) then s
  else
    let lo := es.foldl (fun m e => min m e.from_) fr
    { s with lnk := { s.lnk with epochs := (es.eraseIdx (es.findIdx (fun e => e.from_ == lo))) ++ [n] } }

/-- The records of a KEYMAT (R534): COUNT 1 or 2, 2 reserved octets, records of 26 octets. -/
def keymatLoad (m : List Nat) (s : State) : State :=
  let one := fun (i : Nat) (t : State) => epochLoad (leAt m (3 + 26 * i) 1) (leAt m (5 + 26 * i) 8) ((m.drop (13 + 26 * i)).take 16) t
  let s1 := if 1 ≤ leAt m 0 1 ∧ 29 ≤ m.length then one 0 s else s
  if 2 ≤ leAt m 0 1 ∧ 55 ≤ m.length then one 1 s1 else s1

/-- The check value of a PSDU without it (R202, R531): `ecnt` leads for CONN frames; the TTL bits of a FLOOD count as 0. -/
def micInput (ecnt : Option Nat) (body : List Nat) : List Nat :=
  let b := if leAt body 0 1 % 16 = 1 then setBytes body 4 [leAt body 4 1 / 32 * 32] else body
  (match ecnt with | some k => leBytes 4 k | none => []) ++ b
def micOf (netKey : List Nat) (ecnt : Option Nat) (body : List Nat) (n : Nat) : List Nat := (cmac (deriveMac netKey) (micInput ecnt body)).take n

/-- Fields of a frame (R200). -/
def fcType (f : List Nat) : Nat := leAt f 0 2 % 16
def fcVer (f : List Nat) : Nat := (leAt f 0 2 / 16) % 4
def fcMicLen (f : List Nat) : Nat := if bitOf (leAt f 0 2) 6 = 1 then 8 else 4
def fcEnc (f : List Nat) : Bool := bitOf (leAt f 0 2) 7 == 1
def fcKey (f : List Nat) : Nat := bitsOf (leAt f 0 2) 11 9
def fcDcls (f : List Nat) : Nat := bitsOf (leAt f 0 2) 13 12
def fcLm (f : List Nat) : Bool := bitOf (leAt f 0 2) 14 == 1

/-- A PSDU without its check value, and the check value's octets. -/
def frameBody (f : List Nat) : List Nat := f.take (f.length - fcMicLen f)
def frameMic (f : List Nat) : List Nat := f.drop (f.length - fcMicLen f)

/-- The check value holds (R202, R531): a frame whose key is not loaded fails. -/
def micOk (s : State) (ecnt : Option Nat) (f : List Nat) : Bool :=
  match keyOf s (fcKey f) with
  | some k => frameMic f == micOf k ecnt (frameBody f) (fcMicLen f)
  | none => false

/-- The node's short address, network and drift class (R234). -/
def ownNet (s : State) : Nat := s.rd Reg.LNK_PARENT_NETID
def ownDcls (s : State) : Nat :=
  if isLeaf s || s.firn.coasting then (if s.firn.stage = .free then 3 else 2) else if s.firn.stage = .locked then 0 else 1

/-- VER of sent frames, and the VER values accepted: the frame format table (R698). -/
def frameVer (s : State) : Nat := match look 0x15 s.tables with | some t => leAt t.body 0 1 | none => 0
def verAccepted (s : State) (v : Nat) : Bool := bitOf (match look 0x15 s.tables with | some t => leAt t.body 1 1 | none => 1) v == 1

/-- A frame control field (R200). -/
def fcWord (s : State) (type kid : Nat) (enc longsrc : Bool) : Nat :=
  type + 16 * frameVer s + 128 * b2n enc + 256 * b2n longsrc + 512 * kid + 4096 * ownDcls s + 16384

/-- Seal a frame: FC and NETID, the body, and a 32-bit check value under the key (R202). -/
def sealFrame (s : State) (type kid net : Nat) (enc longsrc : Bool) (ecnt : Option Nat) (body : List Nat) : List Nat :=
  let b := leBytes 2 (fcWord s type kid enc longsrc) ++ leBytes 2 net ++ body
  b ++ (match keyOf s kid with | some k => micOf k ecnt b 4 | none => [0, 0, 0, 0])

/-! ### Channels (R211 to R214) -/

/-- A channel plan: BASE, SPACING in kHz, COUNT, beacon and flood lists. -/
structure Plan where
  base : Nat
  spacing : Nat
  count : Nat
  beacons : Nat
  floods : Nat
  deriving DecidableEq, Repr

/-- The default plan of a regime and band (R214). -/
def planDefault (regime band : Nat) : Plan :=
  if band = 1 then (if 1 ≤ regime ∧ regime ≤ 3 then ⟨2405000, 5000, 16, if regime = 3 then 0x2108 else 0, 0xFFFF⟩ else ⟨0, 0, 0, 0, 0⟩)
  else if regime = 1 then ⟨902200, 200, 128, 1 + 2 ^ 32 + 2 ^ 64 + 2 ^ 96, 2 ^ 128 - 1⟩
  else if regime = 2 then ⟨863100, 200, 35, 2 ^ 32, 2 ^ 35 - 1⟩
  else ⟨0, 0, 0, 0, 0⟩

/-- The plan of a band in force (R214, R353). -/
def plan (s : State) (band : Nat) : Plan :=
  let o := 272 + 44 * band
  if cfgN s (o + 8) 1 = 0 then planDefault (cfgN s 4 1) band
  else ⟨cfgN s o 4, cfgN s (o + 4) 4, cfgN s (o + 8) 1, cfgN s (o + 12) 16, cfgN s (o + 28) 16⟩

/-- A mode field of the configuration, or the default of its band (R214). -/
def cfgMode (s : State) (off band : Nat) : Nat := if cfgN s (off + band) 1 = 0 then (if band = 0 then 0x48 else 0xC0) else cfgN s (off + band) 1

/-- The band of beacons (R214, R353). -/
def beaconBand (s : State) : Nat := if (plan s 0).count = 0 then 1 else cfgN s 398 1

/-- Set bits of a 128-bit map, ascending. -/
def mapBits (m : Nat) : List Nat := (List.range 128).filter (fun k => bitOf m k == 1)

/-- The hop function (R212). -/
def hop (c sd map : Nat) : Nat :=
  let x0 := (c ^^^ sd) % 2 ^ 32
  let x1 := (x0 * 0x045D9F3B) % 2 ^ 32
  let x2 := x1 ^^^ (x1 >>> 16)
  let l := mapBits map
  l.getD (x2 % l.length) 0

/-- Centre of a hop channel in kHz (R211). -/
def chanFreq (p : Plan) (k : Nat) : Nat := p.base + k * p.spacing

/-- The band of a carrier, and the ports' states for a transmission with and without a reply (R131). -/
def bandOf (freq : Nat) : Nat := if freq < 1300000 then 0 else 1
def txState (band : Nat) (ack : Bool) : Nat := if band = 1 then 8 else if ack then 9 else 6

/-- Preamble and delimiter time of a mode in ft (R216, R218): 80 symbols of SUN-FSK, 800 µs at 100 kb/s; for the others a free value. -/
def leadFt (mode : Nat) : Nat :=
  match mode / 8 with
  | 8 => ftUs 1600
  | 9 => ftUs 800
  | _ => Config.modeLead mode

/-- A member of a pair that does not transmit as PADDR (R674), or a frame that a planned switch forbids (R681). -/
def pairMute (s : State) (t e : Nat) : Bool :=
  let role := s.rd Reg.MIR_STAT_ROLE
  match s.mir.switch with
  | some w => if role = 2 then decide (t < w.t + ftUs 50) else role == 3 || role == 5 || (role == 1 && decide (w.t < e + ftUs 50))
  | none => role == 2 || role == 3 || role == 5

/-- Plan a frame with the RFE (R196): launch time, carrier, mode, state. -/
def planFrame (t freq mode : Nat) (ack : Bool) (psdu : List Nat) (s : State) : State :=
  let b := bandOf freq
  if pairMute s t (t + leadFt mode + Config.frameTail mode psdu.length) then s else
  { s with rfe := { s.rfe with planned_ := s.rfe.planned_ ++ [Planned.mk t b (txState b ack) mode freq (Config.reqPower mode) psdu] } }

/-- The window and bin that a carrier falls on (R162). -/
def binOf (s : State) (freq : Nat) : Option (Nat × Nat) :=
  (List.range 2).foldl (fun m w => match m with
    | some x => some x
    | none => let b := (freq + 51200 + 100 - winFc s w) / 200
              if s.on (Reg.RXC_WIN_EN w) ∧ winFc s w ≤ freq + 51200 ∧ winHas s w b then some (w, b) else none) none

/-- Make a reservation for a frame expected at `t` with guard `g`, both in ft (R196, R233). -/
def expectFrame (t g freq mode : Nat) (s : State) : State :=
  match binOf s freq with
  | some (w, b) => rsvMake ⟨w, b, modeFam mode, t - g, t + g + leadFt mode⟩ s
  | none => s.inc Reg.LNK_RSVFULLCNT

/-! ### Guard time (R233 to R236) -/

/-- Drift ratings in 0.1 ppm (R234). -/
def driftRating : Nat → Nat | 0 => 1 | 1 => 5 | 2 => 20 | _ => 400

/-- Nanoseconds of a span in ft. -/
def ftNs (n : Nat) : Nat := n * 1000000000 / 1073741824

/-- The half-width G in ns (R233): f is 2 from the second consecutive miss on. -/
def guardNs (el ep rl rp misses dt : Nat) : Nat :=
  16000 + el + ep + (if 2 ≤ misses then 2 else 1) * (driftRating rl + driftRating rp) * ftNs dt / 10000000

/-- G in ft, held at its cap, with LNK_GUARDCAPCNT and LNK_GUARD (R236). -/
def guardUse (g cap : Nat) (s : State) : Nat × State :=
  let ft := g * 1073741824 / 1000000000
  let s1 := if cap ≤ ft then s.inc Reg.LNK_GUARDCAPCNT else s
  let used := min ft cap
  let us := ftNs used / 1000
  (used, if s.rd Reg.LNK_GUARD < us then s1.wr Reg.LNK_GUARD us else s1)

/-- The guard of a connection's next event in ft (R235, R236). -/
def guardOf (s : State) (c : Conn) : Nat :=
  min (guardNs c.localErr c.peerErr (ownDcls s) c.peerDcls c.misses (c.base + (c.k - c.k0) * c.interval * 2 ^ 20 - c.contact) * 1073741824 / 1000000000) (c.interval * 2 ^ 18)

/-! ### Slots (R194, R195, R198) -/

/-- The physical sequencer of a slot; 15 when the slot is empty (R250). -/
def slotField (i : Nat) : Field :=
  match i with
  | 0 => Reg.LNK_SEQMAP_PHYS0 | 1 => Reg.LNK_SEQMAP_PHYS1 | 2 => Reg.LNK_SEQMAP_PHYS2 | 3 => Reg.LNK_SEQMAP_PHYS3
  | 4 => Reg.LNK_SEQMAP_PHYS4 | 5 => Reg.LNK_SEQMAP_PHYS5 | 6 => Reg.LNK_SEQMAP_PHYS6 | _ => Reg.LNK_SEQMAP_PHYS7

/-- A slot with room for a connection (R195). -/
def slotRoom (s : State) (i : Nat) : Bool := s.rd (slotField i) != 15 && decide ((s.lnk.conns.filter (fun c => c.slot == i)).length < 8)
def slotFree (s : State) : Option Nat := (List.range 8).find? (slotRoom s)

/-- The most connections the device holds (R2, R195). -/
def connMax (s : State) : Nat := if s.isC then 64 else 16

/-! ### Connections -/

/-- A connection by its number, and by its peer. -/
def connOf (s : State) (id : Nat) : Option Conn := s.lnk.conns.find? (fun c => c.id == id)
def connPeer (s : State) (peer : Nat) : Option Conn := s.lnk.conns.find? (fun c => c.peer == peer)
def connSet (c : Conn) (s : State) : State := { s with lnk := { s.lnk with conns := s.lnk.conns.map (fun x => if x.id = c.id then c else x) } }

/-- Show the live connections (R247). -/
def lnkShow (s : State) : State := s.wr Reg.LNK_STAT_NCONN (s.lnk.conns.filter (·.up)).length

/-- The connection to the parent. -/
def upConn (s : State) : Option Conn := s.lnk.conns.find? (·.child)

/-- The hop of frames for a connection's peer. -/
def connHop (c : Conn) : Hop := if c.child then .up else .conn c.id

/-- Anchor k in ft (R224), and the time at which this end expects or sends the opening frame. -/
def anchor (c : Conn) (k : Nat) : Nat := c.base + (k - c.k0) * c.interval * 2 ^ 20
def openAt (c : Conn) : Nat := ((anchor c c.k : Int) + (if c.child then c.resid else 0)).toNat

/-- The channel map of a connection's band, and its carrier at ECNT (R213). -/
def connMap (c : Conn) : Nat := if c.band = 0 then c.mapS else c.mapW
def connFreq (s : State) (c : Conn) (ecnt : Nat) : Nat := chanFreq (plan s c.band) (hop ecnt c.seed (connMap c))

/-- The node's error bound now, in ns. -/
def errNow (s : State) : Nat := errBound s

/-- The interframe space and the reply guard in ft (R225). -/
def tIfs : Nat := ftUs 150
def replyGuard : Nat := ftUs 10

/-- A CONN frame (R205, R533): enciphered with ENONCE when the payload is a METER PDU. -/
def connFrame (s : State) (c : Conn) (payload : List Nat) (ctrl md : Bool) : List Nat × State :=
  match sendEpoch s with
  | none => ([], s)
  | some e =>
    let enc := !ctrl && payload.length != 0 && bitOf (leAt payload 0 1) 7 == 0 && leAt payload 5 1 == 4
    let lhdr := c.tx + 2 * c.rx + 4 * b2n md + 8 * b2n ctrl
    let head := leBytes 2 (ownShort s) ++ leBytes 2 c.peer ++ [lhdr] ++ leBytes 2 c.k
    let body := if enc then head ++ leBytes 4 e.enonce ++ encipher (deriveEnc e.key) 1 (ownNet s) (ownShort s) 2 e.enonce payload else head ++ payload
    let s1 : State := if enc then { s with lnk := { s.lnk with epochs := s.lnk.epochs.map (fun x => if x.epoch = e.epoch then { x with enonce := (x.enonce + 1) % 2 ^ 32 } else x) } } else s
    (sealFrame s 2 e.epoch (ownNet s) enc false (some (c.k % 2 ^ 32)) body, s1)

/-- The TIME PDU of a frame launched at `t` (R206, R229). -/
def timePdu (s : State) (c : Conn) (t : Nat) : List Nat :=
  [1, 19] ++ leBytes 8 (t + leadFt c.mode) ++ leBytes 8 c.rxts ++ leBytes 2 (min 0xFFFF (errNow s)) ++ [s.rd Reg.FIRN_QUAL_HOPS % 32]

/-- A TIME PDU is due: 16 events or 1 s, whichever is longer, have passed (R229). -/
def timeDue (s : State) (c : Conn) : Bool := decide (c.timeAt + cycS 1 ≤ s.elapsed) && decide (c.timeK + 16 ≤ c.k)

/-- The STATUS PDU of the waiting records, at most 8 (R206, R230). -/
def statusPdu (l : List (Nat × Nat × Nat)) : List Nat :=
  [6, 1 + 12 * l.length, l.length] ++ (l.map (fun r => leBytes 2 r.1 ++ leBytes 8 r.2.1 ++ leBytes 2 r.2.2)).flatten

/-- A mesh frame waits for the connection. -/
def connWaits (s : State) (c : Conn) : Bool :=
  ((egress s 0).frames ++ (egress s 1).frames).any (fun f => f.hop == connHop c)

/-- Select a mesh frame for the connection: from its band's port, and toward the upstream neighbour from the other too (R273, R275). -/
def connSelect (c : Conn) (s : State) : Option QFrame × State :=
  match selectFrame c.band (connHop c) s with
  | (some f, t) => (some f, t)
  | (none, t) => if c.child then selectFrame (1 - c.band) .up t else (none, t)

/-- The opening frame of a parent carries a TIME PDU when one is due; the control PDUs of a frame launched at `t` (R206, R229, R230). -/
def timeNow (s : State) (c : Conn) (opening : Bool) : Bool := opening && !c.child && timeDue s c
def ctlNow (c : Conn) (t : Nat) (opening : Bool) (s : State) : List Nat :=
  (if timeNow s c opening then timePdu s c t else []) ++ c.ctl.flatten ++ (if c.child && !s.lnk.status.isEmpty then statusPdu (s.lnk.status.take 8) else [])

/-- The next PDU of a connection for a frame launched at `t` (R226, R229, R230, R276): an unacknowledged one again, control PDUs, a mesh
PDU, or nothing. -/
def nextPdu (c : Conn) (t : Nat) (opening : Bool) (s : State) : OutPdu × Conn × State :=
  match c.out with
  | some o =>
    if 16 ≤ o.sends then (⟨[], false, 0⟩, { c with out := none, tx := 1 - c.tx }, s.inc Reg.LNK_RETXDROPCNT)
    else
      let d := if o.ctrl && leAt o.data 0 1 == 1 then setBytes o.data 2 (leBytes 8 (t + leadFt c.mode)) else o.data
      ({ o with data := d }, c, s.inc Reg.LNK_RETXCNT)
  | none =>
    let ctl := ctlNow c t opening s
    if ctl.isEmpty then
      match connSelect c s with
      | (some f, s1) => (⟨f.data, false, 0⟩, c, s1)
      | (none, s1) => (⟨[], false, 0⟩, c, s1)
    else
      (⟨ctl, true, 0⟩, { c with ctl := [], timeAt := if timeNow s c opening then s.elapsed else c.timeAt, timeK := if timeNow s c opening then c.k else c.timeK },
       { s with lnk := { s.lnk with status := if c.child then s.lnk.status.drop 8 else s.lnk.status } })

/-- Build and plan a frame of an event at launch time `t`; the other end's reply, or nothing, is expected after it (R225). -/
def connSend (id t : Nat) (opening : Bool) (s : State) : State :=
  match connOf s id with
  | none => s
  | some c =>
    let (o, c1, s1) := nextPdu c t opening s
    let md := connWaits s1 c1 || (c1.child && !s1.lnk.status.isEmpty)
    let (psdu, s2) := connFrame s1 c1 o.data o.ctrl md
    let c2 := { c1 with out := some { o with sends := o.sends + 1 }, ownMd := md, heard := false, lastReply := if c1.child then t + leadFt c1.mode else c1.lastReply }
    let freq := connFreq s2 c2 (c2.k % 2 ^ 32)
    let s3 := connSet c2 (planFrame t freq c2.mode true psdu s2)
    let back := t + leadFt c2.mode + Config.frameTail c2.mode psdu.length + tIfs
    if c2.child && !md && !opening then s3 else expectFrame back replyGuard freq c2.mode s3

/-- Record the peer and reason of a drop, EV123, and the frames and routes that go with a downstream neighbour (R231, R273). A child's drop for
TIMEOUT or DRIFT starts its recovery; DRIFT from the time parent returns the loop to ACQUIRING (R237, R238). A parent keeps the record (R239). -/
def connDrop (id reason : Nat) (s : State) : State :=
  match connOf s id with
  | none => s
  | some c =>
    let s0 : State := { s with lnk := { s.lnk with conns := s.lnk.conns.filter (fun x => !(x.id == id)) } }
    let s1 := (((lnkShow s0).inc Reg.LNK_DROPCNT).wr Reg.LNK_LASTDROP_REASON reason |>.wr Reg.LNK_LASTDROP_PEER c.peer).raise 123
    let s2 := if reason = 2 then s1.inc Reg.LNK_DRIFTCNT else if reason = 3 then s1.inc Reg.LNK_INSTCNT else s1
    let sendTerm := reason == 3 || reason == 4 || reason == 6 || reason == 7 || reason == 8
    let s3 := if sendTerm then
        let t := if c.child then openAt c + leadFt c.mode + Config.frameTail c.mode 15 + tIfs else openAt c
        let (psdu, s') := connFrame s2 c [5, 1, reason] true false
        planFrame t (connFreq s2 c (c.k % 2 ^ 32)) c.mode false psdu s'
      else s2
    if c.child then
      let timeP := s3.firn.parent == .radio && s3.rd Reg.LNK_PARENT_PARENT == c.peer
      let s4 : State := if reason = 1 ∨ reason = 2 then { s3 with lnk := { s3.lnk with recover := some ⟨c.peer, reason, s3.now, 0, reason == 2 && timeP⟩ } } else s3
      if reason = 2 && timeP then firnStage .acquiring { s4 with firn := { s4.firn with inRow := 0, rejects := [] } } else s4
    else
      let rec' : Dropped := ⟨c, s3.elapsed, decide (2 ≤ c.peerDcls), if 2 ≤ c.peerDcls then 9 else 0, s3.elapsed⟩
      mshLinkDown (.conn id) (.conn id) [0, 1] { s3 with lnk := { s3.lnk with dropped := s3.lnk.dropped.filter (fun d => !(d.conn.peer == c.peer)) ++ (if reason = 5 then [] else [rec']) } }

/-- An update takes effect at the event whose ECNT is its INSTANT (R228). -/
def updApply (c : Conn) (u : Upd) : Conn :=
  match u.op with
  | 2 => if leAt u.body 0 1 = 0 then { c with mapS := leAt u.body 1 16 } else { c with mapW := leAt u.body 1 16 }
  | 3 => { c with base := anchor c c.k, k0 := c.k, interval := leAt u.body 0 2, timeout := leAt u.body 2 2, cemax := leAt u.body 4 1 }
  | _ => { c with band := leAt u.body 0 1, mode := leAt u.body 1 1 }
def updDue (c : Conn) : Conn :=
  (c.upd.filter (fun u => u.instant == c.k % 2 ^ 32)).foldl updApply { c with upd := c.upd.filter (fun u => !(u.instant == c.k % 2 ^ 32)) }

/-- Connection parameters are within their rules (R223). -/
def paramsOk (interval timeout cemax map : Nat) : Bool :=
  decide (8 ≤ interval) && decide (interval ≤ 65535) && decide (10 ≤ timeout) && decide (timeout ≤ 60000) &&
  decide (4 * interval * 1000 ≤ timeout * 10 * 1024) && decide (1 ≤ cemax) && decide (cemax * 1024 < interval * 1000) && decide (2 ≤ (mapBits map).length)

/-- An event ends (R224, R227): the next k; a miss counts for guard and supervision; after six events without a valid child frame the
connection has not been established. -/
def eventEnd (id : Nat) (missed : Bool) (s : State) : State :=
  match connOf s id with
  | none => s
  | some c =>
    let s1 := connSet { c with k := c.k + 1, events := c.events + 1, open_ := false, heard := false, misses := if missed then c.misses + 1 else 0 } s
    if missed then s1.inc Reg.LNK_EVTMISSCNT else s1

/-- CONNECTION_EVENT (R225, R227): phase 0, the anchor: a lost conflict skips the event (R197); updates due take effect; the parent sends the
opening frame and the child reserves its guard window. Phase 1: an expected frame has not come, or phase 2: an item of higher rank stands in the way:
the event closes, and is a miss when nothing valid was heard in it. -/
def connectionEventOk (id phase : Nat) (s : State) : Bool :=
  match connOf s id with
  | none => false
  | some c => if phase = 0 then !c.open_ && decide (openAt c ≤ s.now + ftUs 10000) else c.open_ && decide (phase ≤ 2)
def connectionEvent (id phase : Nat) (lost : Bool) (s : State) : State :=
  match connOf s id with
  | none => s
  | some c =>
    if phase = 0 then
      if lost then eventEnd id true (s.inc Reg.LNK_TXCONFCNT)
      else
        let c1 := { updDue c with open_ := true, heard := false, got := false }
        let s1 := (connSet c1 s).inc Reg.LNK_EVTCNT
        if c1.child then
          let dt := openAt c1 - c1.contact
          let (g, s2) := guardUse (guardNs c1.localErr c1.peerErr (ownDcls s1) c1.peerDcls c1.misses dt) (c1.interval * 2 ^ 18) s1
          expectFrame (openAt c1) g (connFreq s2 c1 (c1.k % 2 ^ 32)) c1.mode s2
        else connSend id (openAt c1) true s1
    else eventEnd id (!c.got) s
def execConnectionEvent (c phase : Nat) (lost : Bool) (dt : Nat) (s : State) : Host.Outcome State Fault Refusal :=
  .next (onlyIf (connectionEventOk c phase (s.pass dt)) (connectionEvent c phase lost (s.pass dt)) (s.pass dt))

/-! ### Receiving in an event (R224, R226, R228, R229) -/

/-- The radio path-delay exchange (R65, R229): averaged with weight 1/16. -/
def pathExchange (t1 t2 t3 t4 : Nat) (s : State) : State :=
  let d := ((((t4 : Int) - t1) - ((t3 : Int) - t2))).tdiv 2
  let p := s.firn.pathDelay
  { s with firn := { s.firn with pathDelay := if s.firn.exchanges = 0 then d else p + (d - p).tdiv 16, exchanges := s.firn.exchanges + 1 } }

/-- A radio timing sample (R63, R65, R216, R238): from the time parent, not of low quality, after four path-delay exchanges; the first one of a
recovery starts acquisition without a prediction. -/
def radioSample (peer ts txts : Nat) (lowQ : Bool) (s : State) : State :=
  if !(s.firn.parent == .radio) || !(s.rd Reg.LNK_PARENT_PARENT == peer) || lowQ || decide (s.firn.exchanges < 4) then s
  else
    let e := (ts : Int) - s.firn.pathDelay - txts
    match s.lnk.recover with
    | some r => if r.firstSample && r.peer == peer then firnSample e { s with lnk := { s.lnk with recover := some { r with firstSample := false } } } else firnSample e s
    | none => firnSample e s

/-- One control PDU of a frame (R206, R207, R228, R229): `ts` and `lowQ` of the frame that carries it. -/
def ctlPdu (id : Nat) (op : Nat) (body : List Nat) (ts : Nat) (lowQ : Bool) (s : State) : State :=
  match connOf s id with
  | none => s
  | some c =>
    let queueUpd := fun (inst : Nat) (ok : Bool) =>
      if !ok then connDrop id 4 s
      else if toSigned 32 (inst + 2 ^ 32 - c.k % 2 ^ 32) ≤ 0 then connDrop id 3 s
      else connSet { c with upd := c.upd ++ [Upd.mk op inst body] } s
    match op with
    | 1 =>
      let txts := leAt body 0 8; let rxts := leAt body 8 8
      let s0 := connSet { c with peerErr := leAt body 16 2 } s
      let s1 := if rxts = 0 ∨ c.lastReply = 0 ∨ lowQ then s0 else if s0.firn.parent = .radio ∧ s0.rd Reg.LNK_PARENT_PARENT = c.peer then pathExchange c.lastReply rxts txts ts s0 else s0
      let s2 : State := if s1.firn.parent = .radio ∧ s1.rd Reg.LNK_PARENT_PARENT = c.peer then { s1 with firn := { s1.firn with parentBound := leAt body 16 2, parentHops := leAt body 18 1 % 32 } } else s1
      radioSample c.peer ts txts lowQ s2
    | 2 => queueUpd (leAt body 17 4) (c.band != leAt body 0 1 || decide (2 ≤ (mapBits (leAt body 1 16)).length))
    | 3 => queueUpd (leAt body 5 4) (paramsOk (leAt body 0 2) (leAt body 2 2) (leAt body 4 1) (connMap c))
    | 4 => queueUpd (leAt body 2 4) (decide (2 ≤ (mapBits (if leAt body 0 1 = 0 then c.mapS else c.mapW)).length))
    | 5 => connDrop id 5 s
    | 6 => s
    | _ => s.inc Reg.LNK_FMTCNT

/-- Every control PDU of a payload in order (R207). -/
def ctlPdus (id ts : Nat) (lowQ : Bool) : Nat → List Nat → State → State
  | 0, _, s => s
  | n + 1, l, s =>
    if l.length < 2 then s
    else
      let len := leAt l 1 1
      ctlPdus id ts lowQ n (l.drop (2 + len)) (ctlPdu id (leAt l 0 1) ((l.drop 2).take len) ts lowQ s)

/-- The action records of the STATUS PDUs in a control payload (R206, R230). -/
def statusRecords : Nat → List Nat → List (Nat × Nat × Nat)
  | 0, _ => []
  | n + 1, l =>
    if l.length < 2 then []
    else
      let len := leAt l 1 1
      let b := (l.drop 2).take len
      (if leAt l 0 1 = 6 then (List.range (leAt b 0 1)).map (fun i => (leAt b (1 + 12 * i) 2, leAt b (3 + 12 * i) 8, leAt b (11 + 12 * i) 2)) else []) ++
      statusRecords n (l.drop (2 + len))

/-- The payload of a CONN frame, deciphered (R533). -/
def connPayload (s : State) (f : List Nat) : List Nat :=
  let p := (frameBody f).drop 11
  if fcEnc f then match keyOf s (fcKey f) with
    | some k => encipher (deriveEnc k) 1 (leAt f 2 2) (leAt f 4 2) 2 (leAt p 0 4) (p.drop 4)
    | none => []
  else p

/-- A contact: the guard and the supervision start afresh (R233, R235). -/
def connContact (c : Conn) (f : List Nat) (ts lqi : Nat) (s : State) : Conn :=
  { c with contact := ts, localErr := errNow s, peerDcls := fcDcls f, misses := 0, micRun := 0, heard := true, got := true, lqi := lqi }

/-- The connection is established by the first valid child frame of events 0 to 5, at the parent, and at the child by the parent's (R222). -/
def connUp (id : Nat) (s : State) : State :=
  match connOf s id with
  | some c => if c.up then s else
    let s1 := ((lnkShow (connSet { c with up := true } s)).inc Reg.LNK_CONNUPCNT).raise 122
    if c.child then s1 else routeLearn c.peer (.conn id) s1
  | none => s

/-- The connection after a valid frame (R224, R226): contact, re-anchoring on the opening frame, acknowledgement; and whether its PDU is new. -/
def connTake (c0 : Conn) (r : RxRec) (s : State) : Conn × Bool :=
  let f := r.psdu
  let lhdr := leAt f 8 1
  let opening := c0.child && !c0.heard
  let res : Int := (r.ts : Int) - ((openAt c0 : Int) + leadFt c0.mode)
  let c1 := connContact c0 f r.ts r.lqi s
  let c2 := if opening then { c1 with resid := c1.resid + res, residuals := (res :: c1.residuals).take 3 } else c1
  let c3 := if c2.child then c2 else { c2 with rxts := r.ts }
  let c4 := match c3.out with
    | some _ => if lhdr / 2 % 2 ≠ c3.tx then { c3 with out := none, tx := 1 - c3.tx } else c3
    | none => c3
  let fresh := decide (lhdr % 2 = c4.rx)
  (if fresh then { c4 with rx := 1 - c4.rx } else c4, fresh)

/-- The reply, or the event's end (R225, R227): the child answers always; the parent goes on while either end has more and time is left. -/
def connAnswer (c : Conn) (t : Nat) (md : Bool) (s : State) : State :=
  if c.child then
    let s1 := connSend c.id t false s
    if !md && !(match connOf s1 c.id with | some x => x.ownMd | none => false) then eventEnd c.id false s1 else s1
  else if (md || c.ownMd) && decide (t + 2 * (leadFt c.mode + Config.frameTail c.mode 15) + tIfs ≤ anchor c c.k + ftUs (1000 * c.cemax)) then connSend c.id t false s
  else eventEnd c.id false s

/-- CONN_RECEIVE (R224, R226, R227): contact, re-anchoring on the opening frame, acknowledgement, control PDUs, the reply, and the close. Answers
the mesh PDU that the frame brings, the STATUS records, and the state. -/
def connReceive (id : Nat) (r : RxRec) (s : State) : Option (List Nat) × List (Nat × Nat × Nat) × State :=
  match connOf s id with
  | none => (none, [], s)
  | some c0 =>
    let c := (connTake c0 r s).1
    let fresh := (connTake c0 r s).2
    let ctrl := leAt r.psdu 8 1 / 8 % 2 == 1
    let pl := connPayload s r.psdu
    let s1 := connUp id (connSet c s)
    let s2 := if fresh && ctrl then ctlPdus id r.ts (r.flags % 2 == 1) 128 pl s1 else s1
    (if fresh && !ctrl && !pl.isEmpty then some pl else none, if fresh && ctrl && !c.child then statusRecords 128 pl else [],
     connAnswer c (r.ts + Config.frameTail r.mode r.psdu.length + tIfs) (leAt r.psdu 8 1 / 4 % 2 == 1) s2)

/-- A check value fails on a connection: 16 in a row drop it (R231). -/
def connMicFail (id : Nat) (s : State) : State :=
  match connOf s id with
  | none => s
  | some c => if 15 ≤ c.micRun then connDrop id 7 s else connSet { c with micRun := c.micRun + 1 } s

/-- Queue a STATUS record for the parent (R230): beyond 64 the oldest goes. -/
def statusQueue (tag t lateby : Nat) (s : State) : State :=
  let l := s.lnk.status ++ [(tag, t, lateby)]
  { s with lnk := { s.lnk with status := l.drop (l.length - 64) } }

/-! ### Supervision and sequencers (R198, R222, R231) -/

/-- The residuals of the last three heard opening frames rose one after another (R231). -/
def drifting (c : Conn) : Bool :=
  match c.residuals with | [a, b, d] => decide (d.natAbs < b.natAbs) && decide (b.natAbs < a.natAbs) | _ => false

/-- SUPERVISION_TIMEOUT (R231): no contact for TIMEOUT; it waits for a frame in a reserved decoder. -/
def supervisionTimeoutOk (id : Nat) (s : State) : Bool :=
  match connOf s id with
  | none => false
  | some c => c.up && decide (c.contact + ftUs (10000 * c.timeout) ≤ s.now) &&
      !(s.rxc.decs.any (fun d => match d with | .busy b => (match b.rsv with | some r => decide (r.fam = modeFam c.mode) | none => false) | _ => false))
def supervisionTimeout (id : Nat) (s : State) : State :=
  match connOf s id with | some c => connDrop id (if drifting c then 2 else 1) s | none => s
def execSupervisionTimeout (c dt : Nat) (s : State) : Host.Outcome State Fault Refusal :=
  .next (onlyIf (supervisionTimeoutOk c (s.pass dt)) (supervisionTimeout c (s.pass dt)) (s.pass dt))

/-- ESTABLISH_TIMEOUT (R222): no valid child frame in events 0 to 5: both ends discard the connection, a drop with reason TIMEOUT. -/
def establishTimeoutOk (id : Nat) (s : State) : Bool := match connOf s id with | some c => !c.up && decide (6 ≤ c.events) | none => false
def execEstablishTimeout (c dt : Nat) (s : State) : Host.Outcome State Fault Refusal :=
  .next (onlyIf (establishTimeoutOk c (s.pass dt)) (connDrop c 1 (s.pass dt)) (s.pass dt))

/-- Move the connections of an empty slot to slots with room, or drop them with CAPACITY (R198). -/
def slotMove (i : Nat) (s : State) : State :=
  (s.lnk.conns.filter (fun c => c.slot == i)).foldl (fun t c =>
    match slotFree t with
    | some j => connSet { c with slot := j } t
    | none => connDrop c.id 8 t) s

/-- The slot that a physical sequencer serves. -/
def slotOfSeq (s : State) (p : Nat) : Option Nat := (List.range 8).find? (fun i => s.rd (slotField i) == p)

/-- SEQUENCER_FAULT (R198): a parity error or an item that overran: the slot moves to the spare and skips the items of the next 2 ms, or is left
empty; the bit in FAILED, LNK_SEQFLTCNT, EV124, a health record and, with no spare left, the alarm. -/
def sequencerFaultOk (p : Nat) (s : State) : Bool := decide (p < 9) && bitOf (s.rd Reg.LNK_SEQ_FAILED) p == 0
def sequencerFault (p : Nat) (s : State) : State :=
  let spare := s.rd Reg.LNK_SEQ_SPARE
  let slot := slotOfSeq s p
  let s0 : State := { s with cores := modAt s.cores (5 + p) (fun c => { c with halted := true }) }
  let s1 := rmapWrite (((s0.setBit Reg.LNK_SEQ_FAILED p).inc Reg.LNK_SEQFLTCNT).raise 124)
  let s2 := healthPut 2 3 1 p p (slot.getD 15) s1
  match slot with
  | none => alarm Reg.AGE_ALARMS_SEQNOSP true (s2.wr Reg.LNK_SEQ_SPARE 15)
  | some i =>
    if spare ≠ 15 then
      let skip := fun (c : Conn) => if c.slot = i ∧ openAt c < s2.now + ftUs 2000 then { c with k := c.k + 1, open_ := false, misses := c.misses + 1 } else c
      let n := (s2.lnk.conns.filter (fun c => c.slot == i && decide (openAt c < s2.now + ftUs 2000))).length
      alarm Reg.AGE_ALARMS_SEQNOSP true
        ((({ s2 with lnk := { s2.lnk with conns := s2.lnk.conns.map skip } }.count Reg.LNK_TXCONFCNT n).count Reg.LNK_EVTMISSCNT n).wr (slotField i) spare |>.wr Reg.LNK_SEQ_SPARE 15)
    else slotMove i ((s2.wr (slotField i) 15).clrBit Reg.LNK_SEQ_SLOTS i)
def execSequencerFault (p dt : Nat) (s : State) : Host.Outcome State Fault Refusal :=
  .next (onlyIf (sequencerFaultOk p (s.pass dt)) (sequencerFault p (s.pass dt)) (s.pass dt))

end Sys2Proof.Machine
end

