-- ==== Sys2Proof/Machine/JoinOps.lean ====
section
/-!
DEFINITION. The link controller's life of a node (05_link_controller.md): beacons and the beacon parent, joining, connecting,
recovery, wake patterns, and the network configuration's effect on the blocks.
-/
namespace Sys2Proof.Machine

/-! ### Beacons (R203, R215 to R218) -/

/-- The beacon interval's units and length, and a sender's offset (R215). -/
def biU (s : State) : Nat := 128 * 2 ^ s.rd Reg.LNK_STAT_BIEXP
def biFt (s : State) : Nat := biU s * 2 ^ 20
def beaconStart (s : State) (src m : Nat) : Nat := (m * biU s + (src * 40503) % biU s) * 2 ^ 20

/-- A node beacons with the RELAY or COORD role on the Anchor profile (R215). -/
def beacons (s : State) : Bool := isJoined s && !isLeaf s && (isRelay s || isCoord s)

/-- Takes children: room for a connection (R203, R215). -/
def loadFree (s : State) : Nat := min (connMax s - s.lnk.conns.length) (8 * ((List.range 8).filter (fun i => s.rd (slotField i) != 15)).length - s.lnk.conns.length)
def accepts (s : State) : Bool := beacons s && decide (0 < loadFree s)

/-- A candidate's mean LQI over its last 8 beacons, and its cost (R220). -/
def lqiAvg (b : Beacon) : Nat := if b.lqis.isEmpty then 0 else b.lqis.sum / b.lqis.length
def candCost (b : Beacon) : Nat := min 255 (b.pcost + 1 + (255 - lqiAvg b) / 32)
def candOf (s : State) (a : Nat) : Option Beacon := s.lnk.cands.find? (fun b => b.addr == a && b.net == ownNet s)

/-- A wired port, and its peer's cost (R301, R308). -/
def wport (s : State) (p : Nat) : Wpt := s.wpt.getD p Wpt.reset
def wiredCost (s : State) (p : Nat) : Nat :=
  min 255 ((wport s p).pcost + (match s.rd (Reg.WPT_PSTAT_QCLASS p) with | 0 => 1 | 1 => 3 | _ => 8))

/-- The node's own path cost: that of its upstream neighbour (R220, R308). -/
def ownCost (s : State) : Nat :=
  if isCoord s then 0 else
  match s.msh.upWired with
  | some p => wiredCost s p
  | none => match candOf s (s.rd Reg.LNK_PARENT_PARENT) with | some b => candCost b | none => 255

/-- NCFG that the node's beacons carry: the version of its configuration, or the one the coordinator is distributing (R203, R354). -/
def beaconNcfg (s : State) : Nat := match s.lnk.nextCfg with | some n => if isCoord s then leAt n.obj 2 2 else cfgN s 2 2 | none => cfgN s 2 2

/-- The body of BEACON m launched at `t` (R203, R216). -/
def beaconBody (s : State) (m t mode : Nat) : List Nat :=
  leBytes 2 (ownShort s) ++ [m % 256, s.rd Reg.LNK_STAT_BIEXP % 16 + 16 * (s.firn.leap % 4)] ++
  leBytes 8 (t + leadFt mode) ++ leBytes 2 (min 0xFFFF (errNow s)) ++ [s.rd Reg.FIRN_QUAL_HOPS % 32] ++
  [b2n (isRoot s) + 2 * b2n (isCoord s) + 4 * b2n (isRelay s) + 8 * b2n (accepts s)] ++
  leBytes 2 (ofSigned 16 s.firn.utcOff) ++ leBytes 2 (beaconNcfg s) ++ [ownCost s, loadFree s]

/-- Plan a beacon at `t` on a carrier. -/
def beaconSend (m t freq mode : Nat) (s : State) : State :=
  match sendEpoch s with
  | none => s
  | some e => (planFrame t freq mode false (sealFrame s 0 e.epoch (ownNet s) false false none (beaconBody s m t mode)) s).inc Reg.LNK_BCNTXCNT

/-- The carrier of beacon m (R213). -/
def beaconFreq (s : State) (m : Nat) : Nat :=
  let p := plan s (beaconBand s)
  chanFreq p (hop (m % 2 ^ 32) (ownShort s) p.beacons)

/-- BEACON_TX (R215, R216): beacon m at its offset in the beacon interval; the coordinator's first beacon with a new NCFG starts its
distribution (R354). -/
def beaconTxOk (m : Nat) (s : State) : Bool :=
  beacons s && (sendEpoch s).isSome && decide (s.lnk.nextM ≤ m) && decide (s.now ≤ beaconStart s (ownShort s) m) && decide (beaconStart s (ownShort s) m < s.now + biFt s)
def beaconTx (m : Nat) (s : State) : State :=
  let s1 := beaconSend m (beaconStart s (ownShort s) m) (beaconFreq s m) (cfgMode s 392 (beaconBand s)) s
  { s1 with lnk := { s1.lnk with nextM := m + 1, nextCfg := s1.lnk.nextCfg.map (fun n => { n with sent := true }) } }
def execBeaconTx (m dt : Nat) (s : State) : Host.Outcome State Fault Refusal :=
  .next (onlyIf (beaconTxOk m (s.pass dt)) (beaconTx m (s.pass dt)) (s.pass dt))

/-- The beacon parent, 0xFFFF for none. -/
def parentOf (s : State) : Nat := s.rd Reg.LNK_PARENT_PARENT

/-- The mode and carrier on which the next tracked beacon is expected. -/
def trackFreq (s : State) (m : Nat) : Nat :=
  let p := plan s (beaconBand s)
  chanFreq p (hop (m % 2 ^ 32) (parentOf s) p.beacons)

/-- The guard half-width of the tracked beacon in ft (R218, R219, R233, R236). -/
def trackGuard (s : State) : Nat × State :=
  let dt := beaconStart s (parentOf s) s.lnk.trackM - s.lnk.trackAt
  let g := guardNs s.lnk.trackErr s.lnk.trackPeerErr (ownDcls s) s.lnk.trackDcls (s.rd Reg.LNK_STAT_BMISS) dt
  if s.on Reg.LNK_STAT_BLOST then (if isLeaf s then (min (4 * (g * 1073741824 / 1000000000)) (biFt s), s) else (biFt s / 2, s))
  else guardUse g (biFt s / 4) s

/-- Reserve the next tracked beacon: every beacon on an Anchor, every eighth on a Leaf (R218). -/
def trackNext (s : State) : State :=
  if parentOf s = 0xFFFF then s else
  let step := if isLeaf s then 8 else 1
  let here := s.now / biFt s
  let m := max (s.lnk.trackM + step) here
  let s1 : State := { s with lnk := { s.lnk with trackM := m } }
  let (g, s2) := trackGuard s1
  expectFrame (beaconStart s2 (parentOf s2) m) g (trackFreq s2 m) (cfgMode s2 392 (beaconBand s2)) s2

/-- BEACON_MISS (R218): the guard window closes without a valid beacon; the third miss in a row is beacon-lost. -/
def beaconMissOk (s : State) : Bool :=
  parentOf s != 0xFFFF && decide (beaconStart s (parentOf s) s.lnk.trackM + (trackGuard s).1 + leadFt (cfgMode s 392 (beaconBand s)) ≤ s.now)
def beaconMiss (s : State) : State :=
  let m := s.rd Reg.LNK_STAT_BMISS
  let s1 := (s.wr Reg.LNK_STAT_BMISS (min 3 (m + 1))).inc Reg.LNK_BCNMISSCNT
  let s2 := if m = 2 ∧ s.on Reg.LNK_STAT_BLOST = false then
      let t := ((s1.set1 Reg.LNK_STAT_BLOST).inc Reg.LNK_BLOSTCNT).raise 120
      notice 0xF005 3 ([4, 0] ++ leBytes 2 (parentOf t) ++ leBytes 2 (cfgN t 2 2)) { t with lnk := { t.lnk with lostAt := some t.elapsed } }
    else s1
  trackNext s2
def execBeaconMiss (dt : Nat) (s : State) : Host.Outcome State Fault Refusal :=
  .next (onlyIf (beaconMissOk (s.pass dt)) (beaconMiss (s.pass dt)) (s.pass dt))

/-- Take a beacon parent (R220): the old parent's connection ends with LOCAL, and the node connects under R222. -/
def setParent (a : Nat) (s : State) : State :=
  let old := parentOf s
  let s1 := match connPeer s old with | some c => if c.child then connDrop c.id 6 s else s | none => s
  let s2 := ((s1.wr Reg.LNK_PARENT_PARENT a).clr Reg.LNK_STAT_BLOST).wr Reg.LNK_STAT_BMISS 0
  let tp : TimeParent := match s2.firn.parent with | .none => .radio | p => p
  let ex := if tp = .radio then 0 else s2.firn.exchanges
  let b := candOf s2 a
  let pb := if tp = .radio then (b.map (·.errb)).getD 0xFFFF else s2.firn.parentBound
  let ph := if tp = .radio then (b.map (·.hops)).getD 31 else s2.firn.parentHops
  let try' : Option Attempt := if isJoined s2 then some ⟨a, 0, none, 0, s2.elapsed⟩ else s2.lnk.connect
  let f3 : Firn := { s2.firn with parent := tp, exchanges := ex, parentBound := pb, parentHops := ph }
  let l3 : Lnk := { s2.lnk with lostAt := none, trackM := s2.now / biFt s2, trackAt := s2.now, trackErr := errNow s2, trackPeerErr := (b.map (·.errb)).getD 0xFFFF, connect := try' }
  let s3 : State := { s2 with firn := f3, lnk := l3 }
  trackNext s3

/-- The NETSTATE notice (R359): 1 join, 3 parent change, 4 beacon-lost, 5 configuration applied. -/
def netNotice (event : Nat) (s : State) : State := notice 0xF005 3 ([event, 0] ++ leBytes 2 (parentOf s) ++ leBytes 2 (cfgN s 2 2)) s

/-- A change of parent: counted, EV121 (R220). -/
def changeParent (a : Nat) (s : State) : State := netNotice 3 (((setParent a s).inc Reg.LNK_PARCHGCNT).raise 121)

/-- The cheapest candidate that may be chosen (R220): takes children, has not failed, passes `p`. -/
def cheapest (s : State) (p : Beacon → Bool) : Option Beacon :=
  s.lnk.cands.foldl (fun m b => if bitOf b.caps 3 == 1 && !b.failed && p b then (match m with | none => some b | some x => if candCost b < candCost x then some b else some x) else m) none

/-- PARENT_RESELECT (R220): 4 beacon intervals after beacon-lost the cheapest candidate heard since then. -/
def reselectPick (s : State) : Option Beacon :=
  match s.lnk.lostAt with
  | none => none
  | some t => if s.elapsed < t + biU s * 300000 * 4 then none else cheapest s (fun b => b.net == ownNet s && decide (s.now ≤ b.at_ + 5 * biFt s))
def parentReselectOk (s : State) : Bool := s.on Reg.LNK_STAT_BLOST && (reselectPick s).isSome
def parentReselect (s : State) : State := match reselectPick s with | some b => changeParent b.addr s | none => s
def execParentReselect (dt : Nat) (s : State) : Host.Outcome State Fault Refusal :=
  .next (onlyIf (parentReselectOk (s.pass dt)) (parentReselect (s.pass dt)) (s.pass dt))

/-- BEACON_RECEIVE (R218, R219, R220): the candidate's record; from the beacon parent the tracking, the timing sample, UTC offset and leap
flags, and a newer configuration to fetch (R217); from another a change of parent when it has cost at least 2 less for 8 beacons. -/
def beaconReceive (r : RxRec) (s : State) : State :=
  let f := r.psdu
  let src := leAt f 4 2
  let net := leAt f 2 2
  let old := s.lnk.cands.find? (fun b => b.addr == src && b.net == net)
  let b0 : Beacon := { addr := src, net := net, pcost := leAt f 24 1, caps := leAt f 19 1, hops := leAt f 18 1 % 32, errb := leAt f 16 2, ncfg := leAt f 22 2, lm := fcLm f, lqis := (r.lqi :: (old.map (·.lqis)).getD []).take 8, freq := r.freq, mode := r.mode, at_ := r.ts, lead := (old.map (·.lead)).getD 0, failed := (old.map (·.failed)).getD false }
  let better := decide (candCost b0 + 2 ≤ ownCost s) && bitOf b0.caps 3 == 1 && isJoined s && net == ownNet s && src != parentOf s && !isCoord s
  let b1 := { b0 with lead := if better then b0.lead + 1 else 0 }
  let s1 : State := { s with lnk := { s.lnk with cands := s.lnk.cands.filter (fun b => !(b.addr == src && b.net == net)) ++ [b1] } }
  if src = parentOf s ∧ net = ownNet s then
    let s2 := ((s1.wr Reg.LNK_STAT_BMISS 0).clr Reg.LNK_STAT_BLOST).inc Reg.LNK_BCNRXCNT
    let timeP := s2.firn.parent == .radio
    let bcfg := leAt f 7 1
    let leap := bitsOf bcfg 5 4
    let f3 : Firn := if timeP then { s2.firn with parentBound := b0.errb, parentHops := b0.hops, utcOff := toSigned 16 (leAt f 20 2), leap := leap } else s2.firn
    let want := s2.lnk.wantCfg || (b0.ncfg != cfgN s2 2 2)
    let l3 : Lnk := { s2.lnk with lostAt := none, trackM := max s2.lnk.trackM (r.ts / biFt s2), trackAt := r.ts, trackErr := errNow s2, trackPeerErr := b0.errb, trackDcls := fcDcls f, wantCfg := want }
    let s3 : State := { s2 with firn := f3, lnk := l3 }
    trackNext (radioSample src r.ts (leAt f 8 8) (r.flags % 2 == 1) s3)
  else if 8 ≤ b1.lead then changeParent src s1
  else s1

/-! ### Joining (R208, R221) -/

/-- JOIN_REQ_SEND (R221): an unjoined node sends JOIN_REQ to the cheapest candidate of its networks, at launch time `t`, with a fresh nonce. -/
def joinTarget (s : State) : Option Beacon :=
  match s.lnk.join with
  | some a => s.lnk.cands.find? (fun b => b.addr == a.target && s.lnk.networks.contains b.net)
  | none => cheapest s (fun b => s.lnk.networks.contains b.net)
def joinReqSendOk (t : Nat) (s : State) : Bool :=
  !isJoined s && s.lnk.joinKey.isSome && (joinTarget s).isSome && decide (s.now ≤ t) &&
  (match s.lnk.join with | some a => a.sentAt.isNone && decide (a.notBefore ≤ s.elapsed) | none => true)
def joinReqSend (t : Nat) (s : State) : State :=
  match joinTarget s with
  | none => s
  | some b =>
    let nonce := s.free % 2 ^ 32
    let psdu := sealFrame s 3 7 b.net false true none (leBytes 8 s.fuses.uid ++ [b2n (isLeaf s) + 2] ++ leBytes 4 nonce)
    let tries := match s.lnk.join with | some a => a.tries + 1 | none => 1
    planFrame t b.freq b.mode true psdu ({ s with lnk := { s.lnk with join := some ⟨b.addr, tries, some s.elapsed, nonce, 0⟩ } }.drawn 1)
def execJoinReqSend (t dt : Nat) (s : State) : Host.Outcome State Fault Refusal :=
  .next (onlyIf (joinReqSendOk t (s.pass dt)) (joinReqSend t (s.pass dt)) (s.pass dt))

/-- Mark a candidate as failed. -/
def candFail (a : Nat) (s : State) : State := { s with lnk := { s.lnk with cands := s.lnk.cands.map (fun b => if b.addr = a then { b with failed := true } else b) } }

/-- A random wait of 0 to 1 beacon interval, in elapsed cycles (R221, R222). -/
def biWait (s : State) : Nat := s.elapsed + s.free % (biU s * 300000 + 1)

/-- JOIN_TIMEOUT (R221): no JOIN_RSP within 10 s: again after a random wait, up to 4 times per candidate, and then the next candidate. -/
def joinTimeoutOk (s : State) : Bool :=
  match s.lnk.join with | some a => (match a.sentAt with | some t => decide (t + cycS 10 ≤ s.elapsed) | none => false) | none => false
def joinTimeout (s : State) : State :=
  match s.lnk.join with
  | none => s
  | some a =>
    if 4 < a.tries then candFail a.target { s with lnk := { s.lnk with join := none } }
    else { s with lnk := { s.lnk with join := some { a with sentAt := none, notBefore := biWait s } } }.drawn 1
def execJoinTimeout (dt : Nat) (s : State) : Host.Outcome State Fault Refusal :=
  .next (onlyIf (joinTimeoutOk (s.pass dt)) (joinTimeout (s.pass dt)) (s.pass dt))

/-- JOIN_RSP_RECEIVE (R221, R533, R534): addressed to this node and answering its request: on STATUS 0 the short address, the wake address and
the keys are taken, JOINED sets and the node connects; on another status the candidate has failed. -/
def joinRspReceive (r : RxRec) (s : State) : State :=
  let f := r.psdu
  match s.lnk.join with
  | none => s
  | some a =>
    if leAt f 6 8 ≠ s.fuses.uid ∨ leAt f 4 2 ≠ a.target then s
    else if leAt f 14 1 ≠ 0 then candFail a.target { s with lnk := { s.lnk with join := none } }
    else
      let km := (frameBody f).drop 23
      let clear := if fcEnc f then (match s.lnk.joinKey with | some k => encipher (deriveEnc k) 1 (leAt f 2 2) (leAt f 4 2) 4 a.nonce km | none => km) else km
      let s1 := ((s.wr Reg.LNK_STAT_SHORT (leAt f 15 2)).set1 Reg.LNK_STAT_JOINED).wr Reg.LNK_PARENT_NETID (leAt f 2 2)
      let s2 : State := { s1 with lnk := { s1.lnk with waddr := leAt f 17 4, join := none, wantCfg := s1.lnk.wantCfg || (leAt f 21 2 != cfgN s1 2 2) } }
      netNotice 1 (setParent a.target (keymatLoad clear ((s2.wr Reg.BKP_SET3_SHORT (leAt f 15 2)).wr Reg.BKP_SET3_NETID (leAt f 2 2) |>.wr Reg.BKP_SET4 (leAt f 17 4))))

/-- The JOIN_RSP of a parent (R208, R221): on the request's channel; KEYMAT enciphered under the join key. -/
def joinRspSend (longid status short waddr : Nat) (keymat : List Nat) (s : State) : State :=
  match s.lnk.joins.find? (fun j => j.longid == longid) with
  | none => s
  | some j =>
    let km := match s.lnk.joinKey with | some k => encipher (deriveEnc k) 1 (ownNet s) (ownShort s) 4 j.nonce keymat | none => keymat
    let body := leBytes 2 (ownShort s) ++ leBytes 8 longid ++ [status] ++ leBytes 2 short ++ leBytes 4 waddr ++ leBytes 2 (cfgN s 2 2) ++ km
    let s1 : State := { s with lnk := { s.lnk with joins := s.lnk.joins.filter (fun x => !(x.longid == longid)), waddrs := if status = 0 then put short waddr s.lnk.waddrs else s.lnk.waddrs } }
    planFrame (s1.now + tIfs) j.freq j.mode false (sealFrame s1 4 7 (ownNet s1) true false none body) s1

/-! ### Connecting (R209, R222, R223) -/

/-- CONN_REQ_SEND (R222, R238): a joined node without a parent connection asks its parent, at a time within one beacon interval of the parent's last
beacon; RESUME after a drop. -/
def connReqSendOk (t : Nat) (s : State) : Bool :=
  isJoined s && (upConn s).isNone && (sendEpoch s).isSome && decide (s.now ≤ t) &&
  (match s.lnk.connect with
    | some a => a.sentAt.isNone && decide (a.notBefore ≤ s.elapsed) && (match candOf s a.target with | some b => a.tries != 0 || decide (t ≤ b.at_ + biFt s) | none => false)
    | none => false)
def connReqSend (t : Nat) (s : State) : State :=
  match s.lnk.connect, sendEpoch s with
  | some a, some e => match candOf s a.target with
    | none => s
    | some b =>
      let resume := match s.lnk.recover with | some r => r.peer == a.target | none => false
      let psdu := sealFrame s 5 e.epoch (ownNet s) false false none (leBytes 2 (ownShort s) ++ leBytes 2 a.target ++ [b2n resume] ++ leBytes 2 0)
      let s1 := planFrame t b.freq b.mode true psdu { s with lnk := { s.lnk with connect := some { a with tries := a.tries + 1, sentAt := some s.elapsed } } }
      expectFrame (t + leadFt b.mode + Config.frameTail b.mode psdu.length + ftUs 1000) replyGuard b.freq b.mode s1
  | _, _ => s
def execConnReqSend (t dt : Nat) (s : State) : Host.Outcome State Fault Refusal :=
  .next (onlyIf (connReqSendOk t (s.pass dt)) (connReqSend t (s.pass dt)) (s.pass dt))

/-- An attempt has failed: again after a random wait, up to 4 times, and then the parent has failed as a candidate (R222). -/
def connectFail (s : State) : State :=
  match s.lnk.connect with
  | none => s
  | some a =>
    if 4 < a.tries then
      let s1 := candFail a.target { s with lnk := { s.lnk with connect := none } }
      match cheapest s1 (fun b => b.net == ownNet s1) with | some b => changeParent b.addr s1 | none => s1
    else { s with lnk := { s.lnk with connect := some { a with sentAt := none, notBefore := biWait s } } }.drawn 1

/-- CONNECT_RETRY (R222): ACK_WAIT has passed without a CONN_IND. -/
def connectRetryOk (s : State) : Bool :=
  match s.lnk.connect with | some a => (match a.sentAt with | some t => decide (t + cycMs 2 ≤ s.elapsed) | none => false) | none => false
def execConnectRetry (dt : Nat) (s : State) : Host.Outcome State Fault Refusal :=
  .next (onlyIf (connectRetryOk (s.pass dt)) (connectFail (s.pass dt)) (s.pass dt))

/-- A new connection. -/
def connNew (id slot peer : Nat) (child leaf : Bool) (first interval timeout cemax band mode sd ms mw dcls errb : Nat) (s : State) : Conn :=
  { id := id, slot := slot, peer := peer, child := child, leaf := leaf, base := first, k0 := 0, k := 0, interval := interval, timeout := timeout, cemax := cemax, band := band,
    mode := mode, seed := sd, mapS := ms, mapW := mw, resid := 0, residuals := [], up := false, events := 0, contact := s.now, localErr := errNow s, peerErr := errb,
    peerDcls := dcls, misses := 0, tx := 0, rx := 0, out := none, open_ := false, heard := false, got := false, ownMd := false, micRun := 0, ctl := [], upd := [], lastReply := 0, rxts := 0,
    timeAt := 0, timeK := 0, groups := [], lqi := 0 }

/-- All channels of a plan as a map. -/
def planMap (p : Plan) : Nat := 2 ^ p.count - 1

/-- The interval, timeout and longest event a parent grants, within R223 (log entry 23). -/
def grantInterval (req : Nat) : Nat := if req = 0 then 8 + Config.connInterval % 65528 else req
def grantTimeout (interval : Nat) : Nat := max (cdiv (4 * interval * 1000) 10240) (min 60000 (10 + Config.connTimeout % 59991))
def grantCemax (interval : Nat) : Nat := 1 + Config.connCemax % (min 255 ((interval * 1000 - 1) / 1024))

/-- The status of a CONN_REQ (R209, R222, R223). -/
def connStatus (s : State) (peer req : Nat) (resume : Bool) : Nat :=
  if !beacons s then 2
  else if resume && !(s.lnk.dropped.any (fun d => d.conn.peer == peer)) && (connPeer s peer).isNone then 3
  else if (slotFree s).isNone || decide (connMax s ≤ s.lnk.conns.length) then 1
  else if req ≠ 0 ∧ req < 8 then 4
  else 0

/-- CONN_REQ_RECEIVE (R222, R223, R239): the parent answers with CONN_IND 1,000 µs after the request; RESUME gets the same slot, SEED and maps. -/
def connReqReceive (r : RxRec) (s : State) : State :=
  let f := r.psdu
  let peer := leAt f 4 2
  if leAt f 6 2 ≠ ownShort s then s else
  match sendEpoch s with
  | none => s
  | some e =>
    let req := leAt f 9 2
    let resume := leAt f 8 1 % 2 == 1
    let st := connStatus s peer req resume
    let old := s.lnk.dropped.find? (fun d => d.conn.peer == peer)
    let band := bandOf r.freq
    let mode := cfgMode s 396 band
    let interval := grantInterval req
    let sd := match old with | some d => if resume then d.conn.seed else s.free % 2 ^ 32 | none => s.free % 2 ^ 32
    let ms := match old with | some d => if resume then d.conn.mapS else planMap (plan s 0) | none => planMap (plan s 0)
    let mw := match old with | some d => if resume then d.conn.mapW else planMap (plan s 1) | none => planMap (plan s 1)
    let t := r.ts + Config.frameTail r.mode f.length + ftUs 1000
    let first := t + ftUs 60000
    let slot := match old with | some d => if resume && slotRoom s d.conn.slot then d.conn.slot else (slotFree s).getD 0 | none => (slotFree s).getD 0
    let body := leBytes 2 (ownShort s) ++ leBytes 2 peer ++ [st] ++ leBytes 2 interval ++ leBytes 2 (grantTimeout interval) ++ [grantCemax interval, band, mode] ++ leBytes 4 sd ++
      leBytes 8 first ++ leBytes 16 ms ++ leBytes 16 mw
    let s1 := planFrame t r.freq r.mode false (sealFrame s 6 e.epoch (ownNet s) false false none body) s
    if st ≠ 0 then s1
    else
      let s2 : State := { s1 with lnk := { s1.lnk with conns := s1.lnk.conns.filter (fun c => !(c.peer == peer)), dropped := s1.lnk.dropped.filter (fun d => !(d.conn.peer == peer)) } }
      let leaf := match old with | some d => d.conn.leaf | none => decide (2 ≤ fcDcls f)
      let c := connNew s2.lnk.nextConn slot peer false leaf first interval (grantTimeout interval) (grantCemax interval) band mode sd ms mw (fcDcls f) 0 s2
      lnkShow ({ s2 with lnk := { s2.lnk with conns := s2.lnk.conns ++ [c], nextConn := s2.lnk.nextConn + 1 } }.drawn 1)

/-- CONN_IND_RECEIVE (R222, R223): the child takes the parameters, or terminates with PARAM; another STATUS is a failed attempt. -/
def connIndReceive (r : RxRec) (s : State) : State :=
  let f := r.psdu
  match s.lnk.connect with
  | none => s
  | some a =>
    if leAt f 6 2 ≠ ownShort s ∨ leAt f 4 2 ≠ a.target then s
    else if leAt f 8 1 ≠ 0 then connectFail s
    else
      let band := leAt f 14 1
      let ms := leAt f 28 16
      let mw := leAt f 44 16
      let errb := ((candOf s a.target).map (·.errb)).getD 0xFFFF
      let c := connNew s.lnk.nextConn ((slotFree s).getD 0) a.target true false (leAt f 20 8) (leAt f 9 2) (leAt f 11 2) (leAt f 13 1) band (leAt f 15 1) (leAt f 16 4) ms mw (fcDcls f) errb s
      let s1 : State := { s with lnk := { s.lnk with conns := s.lnk.conns ++ [c], nextConn := s.lnk.nextConn + 1, connect := none, recover := none } }
      if paramsOk (leAt f 9 2) (leAt f 11 2) (leAt f 13 1) (if band = 0 then ms else mw) then lnkShow s1 else connDrop c.id 4 s1

/-! ### Recovery and dropped children (R237 to R239) -/

/-- Times of a Leaf's listening after a drop, in minutes: at once, 1, 2, 4, 8, 16, 32 and then every 60 (R237). -/
def recoverMin (step : Nat) : Nat := if step = 0 then 0 else if step ≤ 6 then 2 ^ (step - 1) else 32 + 60 * (step - 6)

/-- DRIFT_RECOVERY_LISTEN (R237): the child listens on the whole band for its former parent: a Leaf in NARROW, for 2 beacon intervals, on its
schedule; an Anchor in FULL. -/
def driftRecoveryListenOk (s : State) : Bool :=
  match s.lnk.recover with | some r => decide (r.at_ + ftS (60 * recoverMin r.step) ≤ s.now) | none => false
def driftRecoveryListen (s : State) : State :=
  match s.lnk.recover with
  | none => s
  | some r =>
    let s1 := if txBusy s then s else stEnter (if isLeaf s then 3 else 2) 0 s
    { s1 with lnk := { s1.lnk with recover := some { r with step := r.step + 1 } } }
def execDriftRecoveryListen (dt : Nat) (s : State) : Host.Outcome State Fault Refusal :=
  .next (onlyIf (driftRecoveryListenOk (s.pass dt)) (driftRecoveryListen (s.pass dt)) (s.pass dt))

/-- A frame from the former parent ends the child's listening: it asks to resume (R238). -/
def recoverHeard (peer : Nat) (s : State) : State :=
  match s.lnk.recover with
  | some r => if r.peer = peer ∧ (upConn s).isNone ∧ s.lnk.connect.isNone then { s with lnk := { s.lnk with connect := some ⟨peer, 1, none, 0, s.elapsed⟩ } } else s
  | none => s

/-- CHILD_RECORD_EXPIRY (R239): a dropped child's record is kept for 10 minutes. -/
def childRecordExpiryOk (i : Nat) (s : State) : Bool := match s.lnk.dropped[i]? with | some d => decide (d.at_ + cycS 600 ≤ s.elapsed) | none => false
def childRecordExpiry (i : Nat) (s : State) : State := { s with lnk := { s.lnk with dropped := s.lnk.dropped.eraseIdx i } }
def execChildRecordExpiry (i dt : Nat) (s : State) : Host.Outcome State Fault Refusal :=
  .next (onlyIf (childRecordExpiryOk i (s.pass dt)) (childRecordExpiry i (s.pass dt)) (s.pass dt))

/-! ### The wake-up receiver and wake patterns (R241 to R245) -/

/-- The wake carrier of the active regime in kHz (R241). -/
def wakeCarrier (s : State) : Option Nat :=
  if (subOf s 868300 50).isSome then some 868300 else if (subOf s 915000 50).isSome then some 915000 else none

/-- Set the wake-up receiver for the regime (R241). -/
def wurConfig (s : State) : State :=
  match wakeCarrier s with
  | some f => (s.set1 Reg.WUR_STAT_EN).wr Reg.WUR_STAT_BAND (b2n (f == 915000))
  | none => s.clr Reg.WUR_STAT_EN

/-- RESUME_BEACON (R239): for a dropped coasting child, after the pattern if there is a wake carrier, a BEACON every 5 ms, up to 8 times, on the
channel of the last beacon; with no CONN_REQ after them LNK_WAKEFAILCNT counts. -/
def resumeBeaconOk (i : Nat) (s : State) : Bool :=
  match s.lnk.dropped[i]? with | some d => decide (0 < d.beacons) && decide (d.next ≤ s.elapsed) && (!d.pattern || (wakeCarrier s).isNone) | none => false
def resumeBeacon (i : Nat) (s : State) : State :=
  match s.lnk.dropped[i]? with
  | none => s
  | some d =>
    let s1 : State := { s with lnk := { s.lnk with dropped := modAt s.lnk.dropped i (fun x => { x with beacons := d.beacons - 1, next := s.elapsed + cycMs 5 }) } }
    if d.beacons = 1 then s1.inc Reg.LNK_WAKEFAILCNT
    else beaconSend (s1.lnk.nextM - 1) s1.now (beaconFreq s1 (s1.lnk.nextM - 1)) (cfgMode s1 392 (beaconBand s1)) s1
def execResumeBeacon (i dt : Nat) (s : State) : Host.Outcome State Fault Refusal :=
  .next (onlyIf (resumeBeaconOk i (s.pass dt)) (resumeBeacon i (s.pass dt)) (s.pass dt))

/-- Big-endian bits of the pattern: 16 preamble bits and the wake address (R242). -/
def wakeBytes (waddr : Nat) : List Nat := [0xAA, 0xAA] ++ beBytes 4 waddr

/-- WAKE_PATTERN_SEND (R239, R242, R245): the 48-bit pattern on the wake carrier at launch time `t`; the frames after it start 5 ms after its end. -/
def wakePatternSendOk (peer t : Nat) (s : State) : Bool :=
  (wakeCarrier s).isSome && decide (s.now ≤ t) &&
  (s.lnk.dropped.any (fun d => d.conn.peer == peer && d.pattern) || (match s.lnk.wake with | some w => (match connOf s w.conn with | some c => c.peer == peer && w.left == 9 | none => false) | none => false))
def wakePatternSend (peer t : Nat) (s : State) : State :=
  match wakeCarrier s with
  | none => s
  | some f =>
    let after := s.elapsed + (t - s.now) * 307200000 / 1073741824 + cycUs 23437 + cycMs 5
    let s1 := planFrame t f 0 false (wakeBytes ((look peer s.lnk.waddrs).getD 0)) s
    { s1 with lnk := { s1.lnk with dropped := s1.lnk.dropped.map (fun d => if d.conn.peer = peer then { d with pattern := false, next := after } else d),
                                   wake := s1.lnk.wake.map (fun w => { w with left := 8, next := after }) } }
def execWakePatternSend (peer t dt : Nat) (s : State) : Host.Outcome State Fault Refusal :=
  .next (onlyIf (wakePatternSendOk peer t (s.pass dt)) (wakePatternSend peer t (s.pass dt)) (s.pass dt))

/-- WAKE_CONN_FRAME (R245): CONN frames with a TIME PDU every 5 ms, up to 8 times, under the current ECNT; with no reply LNK_WAKEFAILCNT counts and
LINK_WAKE ends FAILED with TIMEOUT. -/
def wakeConnFrameOk (s : State) : Bool :=
  match s.lnk.wake with | some w => decide (w.next ≤ s.elapsed) && (decide (w.left ≤ 8) || (wakeCarrier s).isNone) && (connOf s w.conn).isSome | none => false
def wakeConnFrame (s : State) : State :=
  match s.lnk.wake with
  | none => s
  | some w =>
    if w.left = 0 then
      let s1 : State := { s with lnk := { s.lnk with wake := none } }.inc Reg.LNK_WAKEFAILCNT
      match w.op with | some (m, tag) => opEnd m tag 4 Rc.TIMEOUT [] s1 | none => s1
    else
      let s1 : State := { s with lnk := { s.lnk with wake := some { w with left := min 8 w.left - 1, next := s.elapsed + cycMs 5 } } }
      match connOf s1 w.conn with
      | none => s1
      | some c =>
        let (psdu, s2) := connFrame s1 c (timePdu s1 c s1.now) true false
        let s3 := planFrame s1.now (connFreq s2 c (c.k % 2 ^ 32)) c.mode true psdu s2
        expectFrame (s1.now + leadFt c.mode + Config.frameTail c.mode psdu.length + tIfs) replyGuard (connFreq s3 c (c.k % 2 ^ 32)) c.mode s3
def execWakeConnFrame (dt : Nat) (s : State) : Host.Outcome State Fault Refusal :=
  .next (onlyIf (wakeConnFrameOk (s.pass dt)) (wakeConnFrame (s.pass dt)) (s.pass dt))

/-- The child has replied to a wake: LINK_WAKE ends DONE (R348). -/
def wakeReply (id : Nat) (s : State) : State :=
  match s.lnk.wake with
  | some w => if w.conn = id then
      let s1 : State := { s with lnk := { s.lnk with wake := none } }
      match w.op with | some (m, tag) => opEnd m tag 3 0 [] s1 | none => s1
    else s
  | none => s

/-! ### The network configuration in force (R353, R354) -/

/-- A new configuration takes effect: network, beacon exponent, regime, forwarding, windows, wake carrier. -/
def cfgApply (obj : List Nat) (s : State) : State :=
  let old := s.netCfg
  let s1 : State := { s with netCfg := obj }
  let s2 := ((s1.wr Reg.LNK_PARENT_NETID (leAt obj 0 2)).wr Reg.LNK_STAT_BIEXP (leAt obj 5 1)).wr Reg.RFE_STAT_REGIME (leAt obj 4 1)
  wurConfig (rxcApply (rxcConfig (mshConfig old s2)))

/-- A flood item (R197, R213, R263): at launch time `t` on a channel drawn from the flood list. -/
def floodSend (band t : Nat) (psdu : List Nat) (s : State) : State :=
  let l := mapBits (plan s band).floods
  planFrame t (chanFreq (plan s band) (l.getD (s.free % l.length) 0)) (cfgMode s 394 band) false psdu (s.drawn 1)

end Sys2Proof.Machine
end

