-- ==== Sys2Proof/Machine/WptOps.lean ====
section
/-!
DEFINITION. The wired ports (07_wired_ports.md): bring-up, line quality, frames on the wire, upstream choice, and time over
the peer-delay exchange.
-/
namespace Sys2Proof.Machine

/-- Change a port. -/
def wptMod (p : Nat) (f : Wpt → Wpt) (s : State) : State := { s with wpt := modAt s.wpt p f }

/-- The wired port table's entry of a port (R314). -/
def wptEntry (s : State) (p : Nat) : List Nat :=
  match look 0x14 s.tables with | some t => (t.body.drop (8 * p)).take 8 | none => [1, 0, 0, 0, 0, 0, 0, 0]

/-- PD_WPT is On (R23): domain 9's state. -/
def wptPower (s : State) : Bool := s.rd (Reg.PWR_DOM_STATE 13) == 0

/-- Ingress and egress times are adjusted by the entry in force (R314). -/
def ingress (s : State) (p ts : Nat) : Nat := ((ts : Int) + toSigned 16 (leAt (wport s p).entry 4 2)).toNat
def egressTime (s : State) (p : Nat) : Nat := ((s.now : Int) + toSigned 16 (leAt (wport s p).entry 6 2)).toNat

/-- The device's own MAC address (R302). -/
def ownMac (s : State) : List Nat := 0x02 :: beBytes 5 s.fuses.uid

/-- Hand a frame to a port's MAC: sent at once when it is idle, else after the frame it sends. -/
def wptSend (p : Nat) (f : List Nat) (s : State) : State :=
  wptMod p (fun w => if w.tx.isNone then { w with tx := some f } else { w with txq := w.txq ++ [f] }) s

/-- A Lomeral item in its Ethernet frame (R302, R303): KIND 1 a whole frame, 2 WDATA; padded to 60 octets. -/
def etherFrame (s : State) (p kind : Nat) (c : List Nat) : List Nat :=
  let f := ((wport s p).mac.getD (List.replicate 6 0xFF)) ++ ownMac s ++ [0x88, 0xB5, kind] ++ beBytes 2 c.length ++ [0] ++ c
  f ++ List.replicate (60 - f.length) 0

/-! ### The time parent and the upstream neighbour (R76, R299, R308) -/

/-- A port's peer is linked; it can be a time parent (R312, R313). -/
def wptLinked (s : State) (p : Nat) : Bool := s.on (Reg.WPT_PSTAT_LINKED p)
def wptTimeOk (s : State) (p : Nat) : Bool := s.on (Reg.WPT_PSTAT_LINK p) && s.on (Reg.WPT_PSTAT_DVALID p) && s.rd (Reg.WPT_PSTAT_PDFAULT p) == 0 && (wport s p).peer != 0xFFFF

/-- The candidates for the time parent with their bounds, the hop's three sigma added (R72, R76). -/
def timeCands (s : State) : List (TimeParent × Nat) :=
  (if wptTimeOk s 0 then [(TimeParent.wired 0, (wport s 0).errb + 24)] else []) ++ (if wptTimeOk s 1 then [(TimeParent.wired 1, (wport s 1).errb + 24)] else []) ++
  (match candOf s (parentOf s) with | some b => [(TimeParent.radio, b.errb + 36)] | none => [])

/-- Choose the time parent (R76): the smallest error bound; a change does not step local time. -/
def timeParentChoose (s : State) : State :=
  if isRoot s || s.firn.parent == .mirror then s else
  let best := (timeCands s).foldl (fun m c => match m with | none => some c | some x => if c.2 < x.2 then some c else some x) none
  let tp := match best with | some c => c.1 | none => TimeParent.none
  let s1 : State := if s.firn.parent = tp then s else
    { s with firn := { s.firn with parent := tp, exchanges := 0, pathDelay := 0 } }
  (s1.wr (Reg.WPT_PSTAT_TPARENT 0) (b2n (tp == .wired 0))).wr (Reg.WPT_PSTAT_TPARENT 1) (b2n (tp == .wired 1))

/-- Show the upstream port. -/
def upShow (s : State) : State := (s.wr (Reg.WPT_PSTAT_UPSTREAM 0) (b2n (s.msh.upWired == some 0))).wr (Reg.WPT_PSTAT_UPSTREAM 1) (b2n (s.msh.upWired == some 1))

/-- The cheapest upstream neighbour among wired peers and the beacon parent; a wired peer wins a tie (R308). -/
def upBest (s : State) : Option Nat :=
  let radio := match candOf s (parentOf s) with | some b => candCost b | none => 256
  let w := (List.range 2).foldl (fun (m : Option Nat) p => if wptLinked s p && bitOf (wport s p).caps 3 == 1 then (match m with | none => some p | some q => if wiredCost s p < wiredCost s q then some p else some q) else m) none
  match w with | some p => if wiredCost s p ≤ radio then some p else none | none => none

/-- Take an upstream neighbour. -/
def upSet (u : Option Nat) (s : State) : State := upShow { s with msh := { s.msh with upWired := u } }

/-- The upstream wired peer is gone: a new neighbour is chosen, and the port's queued frames move to its port in arrival order, each admitted
again (R299). -/
def upLost (p : Nat) (s : State) : State :=
  let s1 := upSet (upBest s) s
  let fs := (egress s1 (2 + p)).frames
  let s2 := egressMod (2 + p) (fun e => { e with frames := [] }) s1
  mshShow (fs.foldl (fun t f =>
    let src := f.queue % 4
    match t.msh.upWired with
    | some q => enqueue (2 + q) .wired (f.queue / 4) src f.len f.data none t
    | none => enqueue ((upConn t).map (·.band) |>.getD 0) .up (f.queue / 4) src f.len f.data none t) s2)

/-! ### Bring-up and loss (R296 to R299) -/

/-- LINKED clears, with its effects (R299). -/
def unlink (p : Nat) (s : State) : State :=
  if !wptLinked s p then s else
  let s1 := ((s.clr (Reg.WPT_PSTAT_LINKED p)).wr (Reg.WPT_PSTAT_PEER p) 0xFFFF)
  let s2 := if (wport s p).tx.isSome then s1.inc (Reg.WPT_PTXABTCNT p) else s1
  let s3 := wptMod p (fun w => { w with tx := none, txq := [], pd := none, wrx := none, lead := 0, peer := 0xFFFF }) s2
  let s4 := if s3.msh.upWired = some p then upLost p s3 else mshLinkDown (.wired p) .wired [2 + p] s3
  timeParentChoose s4

/-- LINK clears (R298): LINKED with it, WPT_PnLINKDNCNT, EV132 or EV133; bring-up begins again (R297). -/
def linkDown (p : Nat) (s : State) : State :=
  let s1 := unlink p s
  let s2 := ((s1.clr (Reg.WPT_PSTAT_LINK p)).wr (Reg.WPT_PSTAT_AMP p) 0).wr (Reg.WPT_PSTAT_DVALID p) 0
  let s3 := ((s2.wr (Reg.WPT_PDELAY p) 0xFFFFFFFF).wr (Reg.WPT_PMSE_MSE p) 0).inc (Reg.WPT_PLINKDNCNT p)
  timeParentChoose ((wptMod p (fun w => { w with phase := 1, since := s.elapsed + cycMs 10, tx := none, txq := [], pd := none, pdDone := 0, mac := none, bad := 0, ptp := [] }) s3).raise (132 + p))

/-- NEGOTIATE (R295, R297): Clause 98 resolves: 2.4 Vpp when both ends advertise it and one requests it. `peerBoth`: the peer advertises both;
`peerReq`: it requests 2.4 Vpp. -/
def negotiateOk (p : Nat) (s : State) : Bool :=
  decide (p < 2) && !isLeaf s && wptPower s && leAt (wptEntry s p) 0 1 == 1 && decide ((wport s p).phase ≤ 1) && decide ((wport s p).since ≤ s.elapsed)
def negotiate (p : Nat) (peerBoth : Bool) (s : State) : State :=
  let e := wptEntry s p
  let amp := if leAt e 1 1 = 0 ∧ peerBoth then 2 else 1
  wptMod p (fun w => { w with phase := 2, since := s.elapsed, entry := e }) (s.wr (Reg.WPT_PSTAT_AMP p) amp)
def execNegotiate (p : Nat) (peerBoth : Bool) (dt : Nat) (s : State) : Host.Outcome State Fault Refusal :=
  .next (onlyIf (negotiateOk p (s.pass dt)) (negotiate p peerBoth (s.pass dt)) (s.pass dt))

/-- TRAIN (R297, R306): the descrambler is locked with the MSE at -18 dB or better: LINK sets, EV132 or EV133; WSEQ starts from a fresh random value. -/
def trainOk (p mse : Nat) (s : State) : Bool := decide (p < 2) && (wport s p).phase == 2 && decide (72 ≤ mse)
def train (p : Nat) (polinv : Bool) (s : State) : State :=
  let s1 := (s.set1 (Reg.WPT_PSTAT_LINK p)).wr (Reg.WPT_PSTAT_POLINV p) (b2n polinv)
  ((wptMod p (fun w => { w with phase := 3, since := s.elapsed, upAt := s.elapsed, wseq := s.free % 2 ^ 32, wrx := none, pdDone := 0, pdLost := 0, pdRow := 0, pdAt := none, sentAt := none, bseq := 0 }) s1).drawn 1).raise (132 + p)
def execTrain (p mse : Nat) (polinv : Bool) (dt : Nat) (s : State) : Host.Outcome State Fault Refusal :=
  .next (onlyIf (trainOk p mse (s.pass dt)) (train p polinv (s.pass dt)) (s.pass dt))

/-- WIRED_PHASE_TIMEOUT (R297): a phase past its maximum, 1.0, 1.5 or 1 s, restarts phase 1. -/
def wiredPhaseTimeoutOk (p : Nat) (s : State) : Bool :=
  let w := wport s p
  decide (p < 2) && (match w.phase with
    | 1 => decide (w.since + cycMs 1000 < s.elapsed)
    | 2 => decide (w.since + cycMs 1500 < s.elapsed)
    | 3 => decide (w.since + cycMs 1000 < s.elapsed)
    | _ => false)
def wiredPhaseTimeout (p : Nat) (s : State) : State :=
  if (wport s p).phase = 3 then linkDown p s
  else wptMod p (fun w => { w with phase := 1, since := s.elapsed }) (s.wr (Reg.WPT_PSTAT_AMP p) 0)
def execWiredPhaseTimeout (p dt : Nat) (s : State) : Host.Outcome State Fault Refusal :=
  .next (onlyIf (wiredPhaseTimeoutOk p (s.pass dt)) (wiredPhaseTimeout p (s.pass dt)) (s.pass dt))

/-- LINK_LOSS (R298): the PHY reports loss of lock. -/
def linkLossOk (p : Nat) (s : State) : Bool := decide (p < 2) && s.on (Reg.WPT_PSTAT_LINK p)
def execLinkLoss (p dt : Nat) (s : State) : Host.Outcome State Fault Refusal :=
  .next (onlyIf (linkLossOk p (s.pass dt)) (linkDown p (s.pass dt)) (s.pass dt))

/-- WIRED_BEACON_SILENCE (R298): no valid BEACON for 3 s: only LINKED clears. -/
def wiredBeaconSilenceOk (p : Nat) (s : State) : Bool := decide (p < 2) && wptLinked s p && decide ((wport s p).bcnAt + cycS 3 ≤ s.elapsed)
def wiredBeaconSilence (p : Nat) (s : State) : State := wptMod p (fun w => { w with phase := 3, since := s.elapsed }) (unlink p s)
def execWiredBeaconSilence (p dt : Nat) (s : State) : Host.Outcome State Fault Refusal :=
  .next (onlyIf (wiredBeaconSilenceOk p (s.pass dt)) (wiredBeaconSilence p (s.pass dt)) (s.pass dt))

/-- The port is brought down at once: EN has gone to 0, or its domain has (R296, R314). -/
def portDown (p : Nat) (s : State) : State :=
  if s.on (Reg.WPT_PSTAT_LINK p) then wptMod p (fun w => { w with phase := 0 }) (linkDown p s)
  else wptMod p (fun w => { w with phase := 0 }) (s.wr (Reg.WPT_PSTAT_AMP p) 0)

/-! ### Line quality (R300, R301) -/

/-- The class of an MSE code in 0.25 dB, and the best class that it lies 1 dB inside. -/
def mseClass (m : Nat) : Nat := if 88 ≤ m then 0 else if 72 ≤ m then 1 else 2

/-- MSE_MEASUREMENT (R298, R300, R301): the code and the lowest since last read; a worse class at once, a better one after 100 measurements 1 dB
inside it, each with EV134; 50 in a row worse than -16 dB lose the link. -/
def mseMeasurementOk (p : Nat) (s : State) : Bool := decide (p < 2) && s.on (Reg.WPT_PSTAT_LINK p)
def mseMeasurement (p m : Nat) (s : State) : State :=
  let w := wport s p
  let wst := s.rd (Reg.WPT_PMSE_WORST p)
  let s1 := (s.wr (Reg.WPT_PMSE_MSE p) (min 255 m)).wr (Reg.WPT_PMSE_WORST p) (if wst = 0 ∨ m < wst then min 255 m else wst)
  let cls := s.rd (Reg.WPT_PSTAT_QCLASS p)
  let now := mseClass m
  let inside := mseClass (m - 4)
  let good := if inside < cls then w.good + 1 else 0
  let gc := if w.good = 0 then inside else max w.goodClass inside
  let s2 := if cls < now then (s1.wr (Reg.WPT_PSTAT_QCLASS p) now).raise 134 else if 100 ≤ good then (s1.wr (Reg.WPT_PSTAT_QCLASS p) gc).raise 134 else s1
  let bad := if m < 64 then w.bad + 1 else 0
  let s3 := wptMod p (fun x => { x with good := if cls < now ∨ 100 ≤ good then 0 else good, goodClass := gc, bad := bad }) s2
  if 50 ≤ bad then linkDown p s3 else s3
def execMseMeasurement (p mse dt : Nat) (s : State) : Host.Outcome State Fault Refusal :=
  .next (onlyIf (mseMeasurementOk p (s.pass dt)) (mseMeasurement p mse (s.pass dt)) (s.pass dt))

/-! ### Frames (R304, R305, R275) -/

/-- A wired BEACON: TXTS is local time when it is built (R304). -/
def wiredBeacon (s : State) (p : Nat) : List Nat :=
  match sendEpoch s with
  | none => []
  | some e =>
    let b := setBytes (beaconBody s (wport s p).bseq s.now 0x48) 4 (leBytes 8 s.now)
    sealFrame s 0 e.epoch (ownNet s) false false none b

/-- WIRED_BEACON_SEND (R304): every 1 s while LINK is 1. -/
def wiredBeaconSendOk (p : Nat) (s : State) : Bool :=
  decide (p < 2) && s.on (Reg.WPT_PSTAT_LINK p) && (sendEpoch s).isSome && (match (wport s p).sentAt with | some t => decide (t + cycS 1 ≤ s.elapsed) | none => true)
def wiredBeaconSend (p : Nat) (s : State) : State :=
  wptSend p (etherFrame s p 1 (wiredBeacon s p)) (wptMod p (fun w => { w with bseq := (w.bseq + 1) % 256, sentAt := some s.elapsed }) s)
def execWiredBeaconSend (p dt : Nat) (s : State) : Host.Outcome State Fault Refusal :=
  .next (onlyIf (wiredBeaconSendOk p (s.pass dt)) (wiredBeaconSend p (s.pass dt)) (s.pass dt))

/-- A WDATA frame with the next WSEQ (R305, R306). -/
def wdataFrame (s : State) (p : Nat) (pdu : List Nat) : List Nat :=
  match sendEpoch s with
  | none => []
  | some e =>
    let w := wport s p
    sealFrame s 2 e.epoch (ownNet s) false false none (leBytes 2 (ownShort s) ++ leBytes 2 w.peer ++ leBytes 4 ((w.wseq + 1) % 2 ^ 32) ++ pdu)

/-- Send a selected mesh frame on the wire: a FLOOD whole, a mesh PDU in WDATA (R303, R305). -/
def wireOut (p : Nat) (f : QFrame) (flood : Bool) (s : State) : State :=
  if flood then wptSend p (etherFrame s p 1 f.data) s
  else wptSend p (etherFrame s p 2 (wdataFrame s p f.data)) (wptMod p (fun w => { w with wseq := (w.wseq + 1) % 2 ^ 32 }) s)

/-- A queued frame of a wired port is a FLOOD frame: TYPE 1 in its FC with LM set, and no mesh PDU's header (log entry 24). -/
def isFloodData (f : QFrame) : Bool := decide (13 < f.data.length) && f.len == f.data.length

/-- FRAME_SELECT (R197, R213, R275, R282): ports 0 and 1: a flood item at launch time `t` for an eligible BCAST frame; without a gap before its
deadline it is dropped as DEADLINE and the conflict is counted. Ports 2 and 3: the idle MAC of a linked port takes the next frame. -/
def frameSelectOk (p t : Nat) (s : State) : Bool :=
  if p < 2 then decide (s.now ≤ t) && (selectFrame p .bcast s).1.isSome
  else decide (p < 4) && wptLinked s (p - 2) && (wport s (p - 2)).tx.isNone &&
    ((selectFrame p .wired s).1.isSome || (s.msh.upWired == some (p - 2) && ((selectFrame 0 .up s).1.isSome || (selectFrame 1 .up s).1.isSome)))
def frameSelect (p t : Nat) (gap : Bool) (s : State) : State :=
  if p < 2 then
    match selectFrame p .bcast s with
    | (some f, s1) => if gap then floodSend p t f.data s1 else (s1.inc Reg.LNK_TXCONFCNT).inc Reg.MSH_DEADLINECNT
    | (none, s1) => s1
  else
    match selectFrame p .wired s with
    | (some f, s1) => wireOut (p - 2) f (isFloodData f) s1
    | (none, s1) => match selectFrame 0 .up s1 with
      | (some f, s2) => wireOut (p - 2) f false s2
      | (none, s2) => match selectFrame 1 .up s2 with
        | (some f, s3) => wireOut (p - 2) f false s3
        | (none, s3) => s3
def execFrameSelect (p t : Nat) (gap : Bool) (dt : Nat) (s : State) : Host.Outcome State Fault Refusal :=
  .next (onlyIf (frameSelectOk p t (s.pass dt)) (frameSelect p t gap (s.pass dt)) (s.pass dt))

/-- WIRED_FRAME_SENT (R275, R324): a frame has left whole; a frame of the link controller behind it follows, else the MAC is idle. -/
def wiredFrameSentOk (p : Nat) (s : State) : Bool := decide (p < 2) && (wport s p).tx.isSome
def wiredFrameSent (p : Nat) (s : State) : State := (wptMod p (fun w => { w with tx := w.txq.head?, txq := w.txq.tail }) s).inc (Reg.WPT_PTXFRMCNT p)
def execWiredFrameSent (p dt : Nat) (s : State) : Host.Outcome State Fault Refusal :=
  .next (onlyIf (wiredFrameSentOk p (s.pass dt)) (wiredFrameSent p (s.pass dt)) (s.pass dt))

/-! ### Peer delay (R310 to R313) -/

/-- A timestamp field, and its value in ft (R311): seconds in 48 bits, nanoseconds, both big-endian; rounded down each way. -/
def ptpStamp (t : Nat) : List Nat := beBytes 6 (t / 2 ^ 30) ++ beBytes 4 ((t % 2 ^ 30) * 1000000000 / 2 ^ 30)
def ptpTime (l : List Nat) : Nat := ofBeBytes (l.take 6) * 2 ^ 30 + ofBeBytes ((l.drop 6).take 4) * 2 ^ 30 / 1000000000

/-- A port identity: SYS_UID and the port number (R310). -/
def ptpIdent (s : State) (p : Nat) : List Nat := beBytes 8 s.fuses.uid ++ beBytes 2 (p + 1)

/-- A PTP message of 54 octets in its Ethernet frame (R310; the common header of IEEE 1588, log entry 25). -/
def ptpFrame (s : State) (p kind seq : Nat) (twoStep : Bool) (stamp tail : List Nat) : List Nat :=
  [0x01, 0x80, 0xC2, 0x00, 0x00, 0x0E] ++ ownMac s ++ [0x88, 0xF7] ++ [kind, 0x12] ++ beBytes 2 54 ++ [0, 0, 2 * b2n twoStep, 0] ++ List.replicate 8 0 ++ [0, 0, 0, 0] ++
  ptpIdent s p ++ beBytes 2 seq ++ [5, 0x7F] ++ stamp ++ tail

/-- PDELAY_REQ_SEND (R312): every 250 ms for the first 2 s after LINK, and every 1 s after that. -/
def pdelayReqSendOk (p : Nat) (s : State) : Bool :=
  let w := wport s p
  decide (p < 2) && s.on (Reg.WPT_PSTAT_LINK p) && w.tx.isNone && w.pd.isNone &&
  (match w.pdAt with | none => true | some t => decide (t + (if s.elapsed < w.upAt + cycS 2 then cycMs 250 else cycS 1) ≤ s.elapsed))
def pdelayReqSend (p : Nat) (s : State) : State :=
  let w := wport s p
  wptSend p (ptpFrame s p 2 w.pdSeq false (List.replicate 10 0) (List.replicate 10 0))
    (wptMod p (fun x => { x with pdSeq := (w.pdSeq + 1) % 65536, pdAt := some s.elapsed, pd := some ⟨w.pdSeq, egressTime s p, s.elapsed, none⟩ }) s)
def execPdelayReqSend (p dt : Nat) (s : State) : Host.Outcome State Fault Refusal :=
  .next (onlyIf (pdelayReqSendOk p (s.pass dt)) (pdelayReqSend p (s.pass dt)) (s.pass dt))

/-- The first waiting message of a kind. -/
def ptpFirst (s : State) (p kind : Nat) : Option PtpIn := (wport s p).ptp.find? (fun m => m.kind == kind)
def ptpTake (p : Nat) (m : PtpIn) (s : State) : State := wptMod p (fun w => { w with ptp := w.ptp.erase m }) s

/-- PDELAY_REQ_RECEIVE (R312): answered once the port is idle: Pdelay_Resp with t2, and the Follow_Up with t3. -/
def pdelayReqReceiveOk (p : Nat) (s : State) : Bool := decide (p < 2) && (ptpFirst s p 2).isSome && (wport s p).tx.isNone
def pdelayReqReceive (p : Nat) (s : State) : State :=
  match ptpFirst s p 2 with
  | none => s
  | some m =>
    let s1 := wptSend p (ptpFrame s p 3 m.seq true (ptpStamp m.ts) m.ident) (ptpTake p m s)
    wptSend p (ptpFrame s p 0xA m.seq false (ptpStamp (egressTime s p)) m.ident) s1
def execPdelayReqReceive (p dt : Nat) (s : State) : Host.Outcome State Fault Refusal :=
  .next (onlyIf (pdelayReqReceiveOk p (s.pass dt)) (pdelayReqReceive p (s.pass dt)) (s.pass dt))

/-- PDELAY_RESP_RECEIVE (R313): t2 and t4 of the exchange. -/
def ptpMatches (s : State) (p : Nat) (m : PtpIn) : Bool := match (wport s p).pd with | some x => x.seq == m.seq && m.ident == ptpIdent s p | none => false
def pdelayRespReceiveOk (p : Nat) (s : State) : Bool := decide (p < 2) && (ptpFirst s p 3).isSome
def pdelayRespReceive (p : Nat) (s : State) : State :=
  match ptpFirst s p 3 with
  | none => s
  | some m =>
    let s1 := ptpTake p m s
    if ptpMatches s p m then wptMod p (fun w => { w with pd := w.pd.map (fun x => { x with resp := some (m.stamp, m.ts) }) }) s1 else s1
def execPdelayRespReceive (p dt : Nat) (s : State) : Host.Outcome State Fault Refusal :=
  .next (onlyIf (pdelayRespReceiveOk p (s.pass dt)) (pdelayRespReceive p (s.pass dt)) (s.pass dt))

/-- A completed exchange (R312, R313): the averaged delay, PTPCNT, DVALID after 4, PDFAULT cleared by 4 in a row, and a timing sample when the peer
is the time parent. -/
def pdComplete (p t1 t2 t3 t4 : Nat) (s : State) : State :=
  let w := wport s p
  let d := (((t4 : Int) - t1) - ((t3 : Int) - t2)).tdiv 2
  let e := (((t1 : Int) - t2) + ((t4 : Int) - t3)).tdiv 2
  let avg := if w.pdDone = 0 then d else w.delay + (d - w.delay).tdiv 16
  let n := w.pdDone + 1
  let s1 := (wptMod p (fun x => { x with pd := none, pdDone := n, pdLost := 0, pdRow := w.pdRow + 1, delay := avg }) s).inc (Reg.WPT_PPTPCNT p)
  let s2 := if 4 ≤ n then (s1.set1 (Reg.WPT_PSTAT_DVALID p)).wr (Reg.WPT_PDELAY p) avg.toNat else s1
  let s3 := if s2.on (Reg.WPT_PSTAT_PDFAULT p) ∧ 4 ≤ w.pdRow + 1 then (s2.clr (Reg.WPT_PSTAT_PDFAULT p)).raise 135 else s2
  let s4 := timeParentChoose s3
  if s4.firn.parent = .wired p then firnSample e { s4 with firn := { s4.firn with parentBound := w.errb, parentHops := w.hops } } else s4

/-- FOLLOW_UP_RECEIVE (R313). -/
def followUpReceiveOk (p : Nat) (s : State) : Bool := decide (p < 2) && (ptpFirst s p 0xA).isSome
def followUpReceive (p : Nat) (s : State) : State :=
  match ptpFirst s p 0xA with
  | none => s
  | some m =>
    let s1 := ptpTake p m s
    match (wport s p).pd with
    | some x => match x.resp with
      | some (t2, t4) => if ptpMatches s p m then pdComplete p x.t1 t2 m.stamp t4 s1 else s1
      | none => s1
    | none => s1
def execFollowUpReceive (p dt : Nat) (s : State) : Host.Outcome State Fault Refusal :=
  .next (onlyIf (followUpReceiveOk p (s.pass dt)) (followUpReceive p (s.pass dt)) (s.pass dt))

/-- PDELAY_LOST (R312): 100 ms without the Follow_Up; three in a row set PDFAULT with EV135, and the peer is no time parent. -/
def pdelayLostOk (p : Nat) (s : State) : Bool := decide (p < 2) && (match (wport s p).pd with | some x => decide (x.at_ + cycMs 100 ≤ s.elapsed) | none => false)
def pdelayLost (p : Nat) (s : State) : State :=
  let n := (wport s p).pdLost + 1
  let s1 := (wptMod p (fun w => { w with pd := none, pdLost := n, pdRow := 0 }) s).inc (Reg.WPT_PPTPLOSTCNT p)
  if n = 3 ∧ s1.rd (Reg.WPT_PSTAT_PDFAULT p) = 0 then timeParentChoose ((s1.set1 (Reg.WPT_PSTAT_PDFAULT p)).raise 135) else s1
def execPdelayLost (p dt : Nat) (s : State) : Host.Outcome State Fault Refusal :=
  .next (onlyIf (pdelayLostOk p (s.pass dt)) (pdelayLost p (s.pass dt)) (s.pass dt))

/-- A PTP message at a port (R310): one of the three accepted kinds, two-step, domain 0, waits for its unit; every other is discarded and counted. -/
def ptpReceive (p : Nat) (f : List Nat) (ts : Nat) (s : State) : State :=
  let h := f.drop 14
  let kind := leAt h 0 1
  let ok := (kind == 2 || kind == 3 || kind == 0xA) && leAt h 1 1 % 16 == 2 && leAt h 4 1 == 0 && decide (54 ≤ h.length) && !(kind == 3 && bitOf (leAt h 6 1) 1 == 0)
  if !ok then s.inc (Reg.WPT_PPTPOTHERCNT p)
  else
    let ident := if kind = 2 then (h.drop 20).take 10 else (h.drop 44).take 10
    wptMod p (fun w => { w with ptp := w.ptp ++ [PtpIn.mk kind (ofBeBytes ((h.drop 30).take 2)) ident (ptpTime ((h.drop 34).take 10)) (ingress s p ts)] }) s

/-- A valid BEACON from a wired peer (R297, R302, R308): the peer's record and address; with this node's network the port is linked; upstream
choice with the hysteresis of R220. -/
def wiredBeaconReceive (p : Nat) (f mac : List Nat) (s : State) : State :=
  let addr := leAt f 4 2
  let s1 := wptMod p (fun w => { w with mac := some mac, peer := addr, pcost := leAt f 24 1, caps := leAt f 19 1, errb := leAt f 16 2, hops := leAt f 18 1 % 32, bcnAt := s.elapsed, phase := 4 }) s
  let s2 := (s1.set1 (Reg.WPT_PSTAT_LINKED p)).wr (Reg.WPT_PSTAT_PEER p) addr
  let s3 : State := if s2.firn.parent = .wired p then { s2 with firn := { s2.firn with utcOff := toSigned 16 (leAt f 20 2), leap := bitsOf (leAt f 7 1) 5 4 } } else s2
  let s3b : State := { s3 with lnk := { s3.lnk with wantCfg := s3.lnk.wantCfg || (leAt f 22 2 != cfgN s3 2 2 && s3.msh.upWired == some p) } }
  let haveUp := s3b.msh.upWired.isSome || parentOf s3b != 0xFFFF
  let better := bitOf (leAt f 19 1) 3 == 1 && decide (wiredCost s3b p + (if haveUp then 2 else 0) ≤ ownCost s3b) && !isCoord s3b && s3b.msh.upWired != some p
  let lead := if better then (wport s3b p).lead + 1 else 0
  let s4 := wptMod p (fun w => { w with lead := lead }) s3b
  timeParentChoose (if isCoord s4 then s4 else if (!haveUp && better) || 8 ≤ lead then upSet (some p) s4 else s4)

end Sys2Proof.Machine
end

