-- ==== Sys2Proof/Machine/MshSend.lean ====
section
/-!
DEFINITION. Originating and forwarding mesh messages (R258, R264 to R266, R270 to R272).
-/
namespace Sys2Proof.Machine

/-- Ports with a linked wired peer (R265). -/
def linkedPorts (s : State) : List Nat := (List.range 2).filter (wptLinked s)

/-- A flood's DEST covers a node with a group list (R267). -/
def covers (dest short : Nat) (groups : List Nat) : Bool := dest == 0xFFFF || dest == short || (decide (0xF000 ≤ dest) && groups.contains dest)

/-- The flood copy PDU of a FLOOD frame's body (R270): octets 4 on, with bit 7 of FLD set. -/
def floodCopy (body : List Nat) : List Nat := (leAt body 4 1 % 128 + 128) :: body.drop 5

/-- Enqueue the copies for Leaf children that a flood covers (R266). -/
def leafCopies (body : List Nat) (s : State) : State :=
  (s.lnk.conns.filter (fun c => !c.child && c.leaf && covers (leAt body 10 2) c.peer c.groups)).foldl (fun t c =>
    enqueue c.band (.conn c.id) (bitsOf (leAt body 4 1) 6 5) (leAt body 5 2) (body.length - 4 + 15) (floodCopy body) none t) s

/-- Wired copies of a flood whose PSDU has its TTL set already, to every linked port but one (R265). -/
def wiredCopies (from_ : Option Nat) (psdu : List Nat) (s : State) : State :=
  ((linkedPorts s).filter (fun p => from_ != some p)).foldl (fun t p =>
    enqueue (2 + p) .wired (bitsOf (leAt psdu 4 1) 6 5) (leAt psdu 5 2) psdu.length psdu none t) s

/-- A FLOOD frame of the node (R204, R533): METER payloads are enciphered. None without an epoch to send under. -/
def floodFrame (s : State) (dest cls ttl ptype mseq : Nat) (payload : List Nat) : Option (List Nat) :=
  (sendEpoch s).map (fun e =>
    let enc := ptype == 4
    let pl := if enc then encipher (deriveEnc e.key) 1 (ownNet s) (ownShort s) 1 mseq payload else payload
    sealFrame s 1 e.epoch (ownNet s) enc false none ([ttl % 32 + 32 * (cls % 4)] ++ leBytes 2 (ownShort s) ++ leBytes 3 mseq ++ leBytes 2 dest ++ [ptype] ++ pl))

/-- Originate a flood (R258, R265): the new MSEQ, the seen entry, and copies on every flood band and every linked wired port. The MSEQ and the state. -/
def floodOriginate (dest cls ttl ptype : Nat) (payload : List Nat) (s : State) : Nat × State :=
  let mseq := (s.msh.mseq + 1) % 2 ^ 24
  let s1 : State := { s with msh := { s.msh with mseq := mseq } }
  let s2 := seenInsert (msgId (ownShort s) mseq) s1
  match floodFrame s2 dest cls ttl ptype mseq payload with
  | none => (mseq, s2)
  | some psdu =>
    let radio := fun (b : Nat) (t : State) => if floodBand t b then enqueue b .bcast cls (ownShort t) psdu.length psdu none t else t
    (mseq, leafCopies (frameBody psdu) (wiredCopies none psdu (radio 1 (radio 0 s2))))

/-- The longest mesh link frame (R257), and the link frame length of a flood or unicast payload. -/
def meshMax : Nat := 1280
def floodLen (n : Nat) : Nat := 13 + n + 4
def unicastLen (n : Nat) : Nat := 11 + 6 + n + 4

/-- An upstream neighbour exists: a connection to the beacon parent, or a wired peer marked upstream (R271, R308). -/
def upNb (s : State) : Option Nb := match s.msh.upWired with | some p => some (.wired p) | none => (upConn s).map (fun c => .conn c.id)

/-- A downstream neighbour (R271): a child, or a wired peer that is not upstream. -/
def isDown (s : State) (nb : Nb) : Bool :=
  match nb with
  | .wired p => s.msh.upWired != some p
  | .conn id => match connOf s id with | some c => !c.child | none => true

/-- Enqueue a mesh PDU toward a neighbour (R275). -/
def toNb (nb : Nb) (u : List Nat) (s : State) : State :=
  let cls := bitsOf (leAt u 0 1) 6 5
  let src := leAt u 1 2
  match nb with
  | .wired p => enqueue (2 + p) .wired cls src (u.length + 16) u none s
  | .conn id => match connOf s id with
    | some c => enqueue c.band (connHop c) cls src (u.length + 15) u none s
    | none => s.inc Reg.MSH_NOROUTECNT

/-- Forward a unicast PDU that is not for this node (R272); `nb` is none for one it originates. -/
def unicastForward (nb : Option Nb) (u0 : List Nat) (s0 : State) : State :=
  let up := upNb s0
  let dst := leAt u0 3 2
  let s1 := match nb with | some n => if isDown s0 n then routeLearn (leAt u0 1 2) n s0 else s0 | none => s0
  if nb.isSome ∧ leAt u0 0 1 % 32 = 0 then s1.inc Reg.MSH_TTLCNT
  else
    let u := if nb.isSome then setBytes u0 0 [leAt u0 0 1 - 1] else u0
    let back := match routeOf s1 dst, nb with | some r, some n => r == n | _, _ => false
    let s := if back then routeDrop dst s1 else s1
    match routeOf s dst with
    | some r => toNb r u s
    | none =>
      match up with
      | some n => if nb = some n then (if isRoot s then ((floodOriginate dst (bitsOf (leAt u 0 1) 6 5) (cfgN s 7 1) (leAt u 5 1) (u.drop 6) s).2).inc Reg.MSH_ROUTEFLDCNT else s.inc Reg.MSH_NOROUTECNT)
                  else toNb n u s
      | none => if isRoot s then ((floodOriginate dst (bitsOf (leAt u 0 1) 6 5) (cfgN s 7 1) (leAt u 5 1) (u.drop 6) s).2).inc Reg.MSH_ROUTEFLDCNT else s.inc Reg.MSH_NOROUTECNT

/-- A unicast PDU of this node (R270): TTL 0 selects UTTL0 (R255). -/
def unicastPdu (s : State) (dst cls ttl ptype : Nat) (payload : List Nat) : List Nat :=
  [(if ttl = 0 then cfgN s 8 1 else ttl) % 32 + 32 * (cls % 4)] ++ leBytes 2 (ownShort s) ++ leBytes 2 dst ++ [ptype] ++ payload

/-- Glety sends a unicast (R272): one of its services' messages to the node itself is delivered at once; the coordinator's registry holds no entry of its
own node, so it changes nothing else. -/
def unicastSend (dst cls ttl ptype : Nat) (payload : List Nat) (s : State) : State := if dst = ownShort s then s.inc Reg.MSH_DELIVOKCNT else unicastForward none (unicastPdu s dst cls ttl ptype payload) s

/-- The coordinator's short address (R740): the time root's own node is 0x0001. -/
def coordShort : Nat := 0x0001

end Sys2Proof.Machine
end

