-- ==== Sys2Proof/Machine/LumOps.lean ====
section
/-!
DEFINITION. The luminaire service: schedules, sources of light, fades, constant light output, faults and metering (R723 to R739).
-/
namespace Sys2Proof.Machine

/-! ### Numbers and tables -/

/-- Division to the nearest value, halves up (R725). -/
def roundDiv (n : Int) (d : Nat) : Int := (2 * n + d) / (2 * d)

/-- Linear interpolation at `x` through points in ascending order; the nearest point outside them. -/
def interp (pts : List (Nat × Nat)) (x : Nat) : Nat :=
  match pts with
  | [] => 0
  | (x0, y0) :: rest =>
    if x ≤ x0 then y0 else
    match rest with
    | [] => y0
    | (x1, y1) :: _ =>
      if x < x1 then ((y0 : Int) + roundDiv (((y1 : Int) - y0) * ((x : Int) - x0)) (x1 - x0)).toNat
      else interp rest x

/-- The points of a table body: `n` entries of `w` octets from `off`, with the fields at given offsets and sizes. -/
def tblPoints (b : List Nat) (n off w xo xn yo yn : Nat) : List (Nat × Nat) :=
  (List.range n).map (fun i => (leAt b (off + w * i + xo) xn, leAt b (off + w * i + yo) yn))

/-- The dimming curve table in force and its fields (R734). -/
def dimBody (s : State) : List Nat := rfeBody s 0x30 shipDim
def dimOutputs (s : State) : Nat := leAt (dimBody s) 0 1
def dimCurve (s : State) (yo yn : Nat) : List (Nat × Nat) := tblPoints (dimBody s) (leAt (dimBody s) 1 1) 10 10 0 2 yo yn
def vScale (s : State) : Nat := leAt (dimBody s) 6 2
def iScale (s : State) : Nat := leAt (dimBody s) 8 2

/-- Sunrise and sunset in UTC seconds for a day of the year (R735). -/
def sunAt (s : State) (set : Bool) (doy : Nat) : Nat :=
  let b := rfeBody s 0x31 shipAstro
  2 * interp (tblPoints b (leAt b 0 2) 4 8 0 2 (if set then 4 else 2) 2) doy
def astroPoints (s : State) : Nat := leAt (rfeBody s 0x31 shipAstro) 0 2

/-- The CLO factor at a count of minutes (R733, R736). -/
def cloFactor (s : State) (minutes : Nat) : Nat :=
  let b := rfeBody s 0x32 shipClo
  interp ((tblPoints b (leAt b 0 1) 4 8 0 4 4 2).map (fun p => (60 * p.1, p.2))) minutes

/-! ### The calendar (R731): day 0 is 2000-01-01, a Saturday -/

/-- Monday is 0. -/
def weekday (day : Nat) : Nat := (day + 5) % 7

/-- The day of the year, from 1. -/
def dayOfYear (day : Nat) : Nat :=
  let n := day % 146097
  let four := fun (r : Nat) => if r % 1461 < 366 then r % 1461 + 1 else (r % 1461 - 366) % 365 + 1
  if n < 36525 then four n
  else
    let r := (n - 36525) % 36524
    if r < 1460 then r % 365 + 1 else four (r - 1460)

/-! ### The schedule object (R731) -/

def schedSver (o : List Nat) : Nat := leAt o 0 2
def schedNent (o : List Nat) : Nat := leAt o 24 1
def schedLen (o : List Nat) : Nat := 32 + 12 * schedNent o
def schedEntry (o : List Nat) (i : Nat) : List Nat := (o.drop (32 + 12 * i)).take 12
def entDays (e : List Nat) : Nat := leAt e 0 1
def entKind (e : List Nat) : Nat := leAt e 1 1
def entTime (e : List Nat) : Nat := leAt e 2 4
def entLevel (e : List Nat) : Nat := leAt e 6 2
def entFade (e : List Nat) : Nat := leAt e 8 2

/-- A value outside its range refuses the object. -/
def entOk (e : List Nat) : Bool :=
  decide (entDays e < 128) && decide (entKind e ≤ 4) && (entKind e != 0 || decide (entTime e < 86400)) && decide (entLevel e ≤ 1000) && leAt e 10 2 == 0
def schedOk (o : List Nat) : Bool :=
  decide (32 ≤ o.length) && decide (1 ≤ schedNent o) && decide (schedNent o ≤ 32) && decide (schedLen o ≤ o.length) && decide (60 ≤ leAt o 6 2) && decide (1 ≤ leAt o 25 1) &&
  leAt o 26 6 == 0 && (List.range (schedNent o)).all (fun i => entOk (schedEntry o i))

/-- The minutes from UTC to local time at a Firn time in ft. -/
def zoneMin (o : List Nat) (t : Nat) : Int :=
  toSigned 16 (leAt o 2 2) + (if leAt o 8 8 ≤ t ∧ t < leAt o 16 8 then toSigned 16 (leAt o 4 2) else 0)

/-- Local seconds at a Firn time (R731). -/
def localSec (s : State) (o : List Nat) (t : Nat) : Nat := ((t / ftS 1 : Int) - s.firn.utcOff + 60 * zoneMin o t).toNat

/-- The Firn seconds of a number of local seconds. -/
def firnOfLocal (s : State) (o : List Nat) (sec : Nat) : Int :=
  let std := (sec : Int) + s.firn.utcOff - 60 * toSigned 16 (leAt o 2 2)
  let dst := std - 60 * toSigned 16 (leAt o 4 2)
  if leAt o 8 8 ≤ ftS dst.toNat ∧ ftS dst.toNat < leAt o 16 8 then dst else std

/-- The Firn time of entry `i` on a local day in ft; none for another weekday or an entry that is not timed (R732). -/
def entFt (s : State) (o : List Nat) (day i : Nat) : Option Nat :=
  let e := schedEntry o i
  if bitOf (entDays e) (weekday day) = 0 ∨ 2 < entKind e then none
  else if entKind e = 0 then some (ftS (firnOfLocal s o (day * 86400 + entTime e)).toNat)
  else some (ftS ((day * 86400 + sunAt s (entKind e == 1) (dayOfYear day) : Nat) + s.firn.utcOff + toSigned 32 (entTime e)).toNat)

/-- The actions of a local day: at one time the highest index (R732). -/
def dayActs (s : State) (day : Nat) : List LumAct :=
  let o := s.lum.sched
  let l := (List.range (schedNent o)).filterMap (fun i => (entFt s o day i).map (fun t => (i, t)))
  (l.filter (fun p => !(l.any (fun q => q.2 == p.2 && decide (p.1 < q.1))))).map (fun p =>
    { src := 1, group := 0, tag := 0, t := p.2, level := entLevel (schedEntry o p.1), fade := entFade (schedEntry o p.1), order := 0, cmp := none })

/-! ### Sources and outputs -/

/-- The service runs: SVC (R723). -/
def lumOn (s : State) : Bool := s.on Reg.LMP_STAT_SVC

/-- The failsafe level is in force (R729). -/
def failsafeCase (s : State) : Bool :=
  s.lum.sched.isEmpty || (s.firn.stage == .free && s.lum.bkpLost) ||
  (decide (astroPoints s < 2) && (List.range (schedNent s.lum.sched)).any (fun i => entKind (schedEntry s.lum.sched i) == 1 || entKind (schedEntry s.lum.sched i) == 2))

/-- Change the service's state. -/
def lumMod (f : Lum → Lum) (s : State) : State := { s with lum := f s.lum }

/-- L' (R725). -/
def levelOut (s : State) (level : Nat) : Nat := min 1000 (roundDiv (level * s.lum.factor : Nat) 1000).toNat

/-- Count burning time up to now (R733): while L' is above 0 and NOLOAD is clear. -/
def burnCount (s : State) : State :=
  let on := decide (0 < s.lum.levelOut) && bitOf (s.rd Reg.LMP_FAULTS) 0 == 0
  lumMod (fun l => { l with burn := if on then l.burn + (s.elapsed - l.burnAt) else l.burn, burnAt := s.elapsed }) s

/-- Burning minutes. -/
def lumMinutes (s : State) : Nat := (s.lum.burn / cycS 60) % 2 ^ 32

/-- Hand the engine the level byte that waits (R725). -/
def arcFeed (s : State) : State :=
  match s.lum.arc with
  | none => s
  | some a =>
    if s.on Reg.LMP_STAT_DALIBUSY ∨ ¬ s.on Reg.LMP_CTL_DALIEN then s
    else lumMod (fun l => { l with arc := none })
      (daliSend ((((s.wr Reg.LMP_DALI_TX_FRAME (0xFE00 + a)).clr Reg.LMP_DALI_TX_LEN).clr Reg.LMP_DALI_TX_BW)))

/-- Write the outputs for a level L into the shadows and ask for the commit, launched on channel 2 or not (R725, R726); `dali` says that
this step sends a DALI level. -/
def lumWrite (lt dali : Bool) (level : Nat) (s0 : State) : State :=
  let s := burnCount s0
  let lv := levelOut s level
  let out := dimOutputs s
  let duty := interp (dimCurve s 2 2) lv
  let one := fun (n : Nat) (t : State) => (t.wr (Reg.LMP_PWM_PER_PERIOD n) (leAt (dimBody s) 2 2)).wr (Reg.LMP_PWM_DUTY_DUTY n) (if bitOf out n = 1 then duty else 0)
  let s1 := (((one 1 (one 0 s)).wr Reg.LMP_CTL_PWM0EN (bitOf out 0)).wr Reg.LMP_CTL_PWM1EN (bitOf out 1)).wr Reg.LMP_CTL_DACEN (bitOf out 3)
  let s2 := ((s1.wr Reg.LMP_DAC_CODE (if bitOf out 3 = 1 then interp (dimCurve s 4 2) lv else 0)).wr Reg.LMP_CTL_DALIEN (bitOf out 2)).wr Reg.LMP_CTL_LTEN (b2n lt)
  let s3 := lmpApplyWrite (if lt then s2.wr Reg.LMP_CTL_LCH 2 else s2)
  arcFeed (lumMod (fun l => { l with level := level, levelOut := lv, arc := if dali && bitOf out 2 == 1 then some (interp (dimCurve s 8 1) lv % 256) else l.arc }) s3)

/-- The level the source in force asks for: the failsafe level of BKP_SET5 where R729 says so. -/
def lumTarget (s : State) : Nat := if s.lum.failsafe then s.rd Reg.BKP_SET5 % 1024 else s.lum.force.level

/-- An action outranks the source in force (R728). -/
def outranks (a b : LumAct) : Bool :=
  decide (b.t < a.t) || (a.t == b.t && ((a.src != 1 && b.src == 1) || (a.src != 1 && b.src != 1 && decide (b.order ≤ a.order)) || (a.src == 1 && b.src == 1)))

/-- The level of the first step of a fade, between the old level and the target; the spec states no law of the steps, so it is a free value. -/
def fadeLevel (s : State) (target : Nat) : Nat :=
  let l := s.lum.level
  if l ≤ target then l + s.free % (target - l + 1) else l - s.free % (l - target + 1)

/-- An action takes effect: it becomes the source in force and moves the outputs, launched or at once (R725, R726). -/
def lumTake (lt : Bool) (a : LumAct) (s : State) : State :=
  let s1 := lumMod (fun l => { l with force := { a with cmp := none } }) s
  if s1.lum.failsafe then s1
  else if a.fade = 0 then lumWrite lt true a.level (lumMod (fun l => { l with fade := none }) s1)
  else
    let s2 := lumMod (fun l => { l with fade := some ⟨a.level, a.t + ftUs (1000 * a.fade), s1.elapsed, s1.elapsed⟩ }) s1
    (lumWrite lt true (fadeLevel s2 a.level) s2).drawn 1

/-- The LATEBY word of a STATUS record: LATE in bit 15, 15 bits that saturate (R727). -/
def lateWord (late : Bool) (by_ : Nat) : Nat := if late then 0x8000 + min 0x7FFF by_ else 0

/-- Report a tagged action (R727, R230). -/
def lumReport (a : LumAct) (late : Bool) (by_ : Nat) (s : State) : State := if a.src = 1 then s else statusQueue a.tag a.t (lateWord late by_) s

/-- LATEBY of an application now (R727): units of 1,024 ft, rounded up. -/
def lateNow (s : State) (t : Nat) : Nat := cdiv (s.now - t) 1024

/-- The comparators 2 to 7 no waiting action holds, in turn from the next one (R726). -/
def freeCmp (s : State) : Option Nat :=
  ((List.range 6).map (fun i => 2 + (s.lum.nextCmp - 2 + i) % 6)).find? (fun n => !(s.lum.acts.any (fun a => a.cmp == some n)) && !cmpInflight s n)

/-- Arm Glety comparator `n` for T on launch channel 2 with LATESUP 0 (R726). -/
def lumArmCmp (n t : Nat) (s : State) : State :=
  cmpArm n (((((s.wr (Reg.FIRN_CMP_TLO n) t).wr (Reg.FIRN_CMP_THI n) (t / 2 ^ 32)).clr (Reg.FIRN_CMP_CTL_LATESUP n)).set1 (Reg.FIRN_CMP_CTL_CHEN n)).wr (Reg.FIRN_CMP_CTL_CHAN n) 2)

/-- The earliest action that no comparator carries and whose T is to come. -/
def lumNextAct (s : State) : Option LumAct :=
  s.lum.acts.foldl (fun m a => if a.cmp.isSome ∨ a.t ≤ s.now then m else match m with | none => some a | some b => if a.t < b.t then some a else m) none

/-- Give comparators to the earliest actions (R726). -/
def lumArm : Nat → State → State
  | 0, s => s
  | k + 1, s =>
    match lumNextAct s, freeCmp s with
    | some a, some n =>
      lumArm k (lumArmCmp n a.t (lumMod (fun l => { l with nextCmp := 2 + (n - 1) % 6, acts := l.acts.map (fun x => if x = a then { x with cmp := some n } else x) }) s))
    | _, _ => s

/-- Drop a waiting action and disarm its comparator. -/
def lumDrop (a : LumAct) (s : State) : State :=
  let s1 := lumMod (fun l => { l with acts := l.acts.filter (fun x => !(x == a)) }) s
  match a.cmp with | some n => cmpDisarm n s1 | none => s1

/-- Remember that a group command took effect or was reported. -/
def lumPast (a : LumAct) (s : State) : State := if a.src = 2 then lumMod (fun l => { l with past := (a.group, a.t) :: l.past }) s else s

/-- An action whose T has passed (R727, R728): applied at once where it outranks the source in force, else reported and not applied. -/
def lumLateAct (a : LumAct) (late : Bool) (s : State) : State :=
  if outranks a s.lum.force then lumTake false a (lumReport a late (lateNow s a.t) (lumPast a s))
  else lumReport a true 0x7FFF (lumPast a s)

/-- A command with its T arrives (R727, R728). -/
def lumCommand (a0 : LumAct) (s0 : State) : State :=
  let a := { a0 with order := s0.lum.order, t := if a0.src = 3 ∧ a0.t = 0 then s0.now else a0.t }
  let s := lumMod (fun l => { l with order := l.order + 1 }) s0
  if a.src = 2 ∧ a.t ≤ s.now ∧ s.lum.past.contains (a.group, a.t) then s
  else if a.t ≤ s.now then lumLateAct a (decide (a.t < s.now)) s
  else
    match s.lum.acts.find? (fun x => a.src == 2 && x.src == 2 && x.group == a.group && x.t == a.t) with
    | some x => lumMod (fun l => { l with acts := l.acts.map (fun y => if y = x then { a with cmp := x.cmp } else y) }) s
    | none =>
      let cmds := s.lum.acts.filter (fun x => x.src != 1)
      if cmds.length < 8 then lumArm 6 (lumMod (fun l => { l with acts := l.acts ++ [a] }) s)
      else
        match cmds.foldl (fun m x => match m with | none => some x | some y => if y.t ≤ x.t then some x else m) none with
        | some x =>
          if a.t < x.t then lumArm 6 (lumMod (fun l => { l with acts := l.acts ++ [a] }) (lumReport x true 0x7FFF (lumDrop x s)))
          else lumReport a true 0x7FFF s
        | none => s

/-- A Glety comparator of the service launches (R226, R726, R727): its action's values are in the shadows and commit at this launch, and a tagged action is
reported with LATE and LATEBY of the comparator. The service writes the values in the launch's own step (DESIGN CHOICE): the spec says only that it
writes them before. -/
def lumLaunch (n : Nat) (s : State) : State :=
  match s.lum.acts.find? (fun a => a.cmp == some n) with
  | none => s
  | some a =>
    if a.src = 1 then (if outranks a s.lum.force then lumTake true a (lumMod (fun l => { l with acts := l.acts.map (fun x => if x = a then { x with cmp := none } else x) }) s) else s)
    else
      let s1 := lumMod (fun l => { l with acts := l.acts.filter (fun x => !(x == a)) }) (lumPast a s)
      let late := s.on (Reg.FIRN_CMP_STAT_LATE n)
      if outranks a s.lum.force then lumTake true a (lumReport a late (s.rd (Reg.FIRN_CMP_STAT_LATEBY n)) s1)
      else lumReport a true 0x7FFF s1

/-- The engine's LTEN shadow returns to 0 after the launch, so that a later frame or level is not held for one. -/
def lumLaunched (s : State) : State := if lumOn s then arcFeed (s.clr Reg.LMP_CTL_LTEN) else s

/-- SCHEDULE_ENTRY (R728): a waiting action's T has come and no comparator carries it on: the entry becomes the source in force (its outputs moved at its
launch where it was launched); a command whose comparator fired in coast, where no channel drives (R61), is applied and reported. -/
def lumStranded (s : State) (a : LumAct) : Bool :=
  decide (a.t ≤ s.now) && (match a.cmp with | none => true | some n => !(s.on (Reg.FIRN_CMP_STAT_ARMED n)) && !cmpInflight s n && !(s.on (Reg.FIRN_CMP_CTL_ARM n)))
def lumDue (s : State) : Option LumAct := s.lum.acts.find? (lumStranded s)
def scheduleEntryOk (s : State) : Bool := lumOn s && (lumDue s).isSome
def scheduleEntry (s : State) : State :=
  match lumDue s with
  | none => s
  | some a =>
    let s1 := lumMod (fun l => { l with acts := l.acts.filter (fun x => !(x == a)) }) s
    if a.src = 1 then
      (if { s.lum.force with cmp := none } = { a with cmp := none } then lumArm 6 s1
       else if outranks a s.lum.force then lumArm 6 (lumTake false a s1) else lumArm 6 s1)
    else lumArm 6 (lumLateAct a (match a.cmp with | some n => s.on (Reg.FIRN_CMP_STAT_LATE n) | none => true) s1)
def execScheduleEntry (dt : Nat) (s : State) : Host.Outcome State Fault Refusal :=
  .next (onlyIf (scheduleEntryOk (s.pass dt)) (scheduleEntry (s.pass dt)) (s.pass dt))

/-- The failsafe case is judged again, and the outputs follow a change at once (R729). -/
def lumJudge (s : State) : State :=
  let f := failsafeCase s
  if f = s.lum.failsafe then s
  else
    let s1 := lumMod (fun l => { l with failsafe := f, fade := none }) s
    if lumOn s1 then lumWrite false true (lumTarget s1) s1 else s1

/-! ### Midnight, photocell, fade and CLO rows -/

/-- The local day now. -/
def localDay (s : State) : Nat := localSec s s.lum.sched s.now / 86400

/-- Compute a day's entries: earlier entries of a stored schedule go, and those still to come wait. -/
def lumDay (s : State) : State :=
  let s0 := (s.lum.acts.filter (fun a => a.src == 1)).foldl (fun t a => lumDrop a t) s
  lumArm 6 (lumMod (fun l => { l with day := some (localDay s), acts := l.acts ++ (dayActs s (localDay s)).filter (fun a => decide (s.now < a.t)) }) s0)

/-- MIDNIGHT_COMPUTE (R732). -/
def midnightComputeOk (s : State) : Bool := lumOn s && !s.lum.sched.isEmpty && s.lum.day != some (localDay s)
def execMidnightCompute (dt : Nat) (s : State) : Host.Outcome State Fault Refusal :=
  .next (onlyIf (midnightComputeOk (s.pass dt)) (lumDay (s.pass dt)) (s.pass dt))

/-- The last entry before now, looking back as far as the previous day (R730); failing one, the source stays. -/
def lastEntry (s : State) : Option LumAct :=
  ((dayActs s (localDay s - 1)) ++ dayActs s (localDay s)).foldl (fun m a => if s.now < a.t then m else match m with | none => some a | some b => if b.t ≤ a.t then some a else m) none

/-- A newly stored schedule (R731): its day is computed and its last entry compared with the source in force. -/
def lumStore (o : List Nat) (s : State) : State :=
  let s1 := lumMod (fun l => { l with sched := o.take (schedLen o), photo := [] }) s
  if !lumOn s1 then lumMod (fun l => { l with failsafe := failsafeCase s1 }) s1
  else
    let s2 := lumJudge (lumDay s1)
    match lastEntry s2 with
    | some a => if outranks a s2.lum.force ∨ s2.lum.force.src = 1 then lumTake false { a with fade := 0 } s2 else s2
    | none => s2

/-- SVC follows the dimming curve table's OUTPUTS on an Anchor (R723); when it clears, LTEN is left at 0 (R724). -/
def lumSvc (s : State) : State :=
  if decide (dimOutputs s ≠ 0) && !isLeaf s && s.lum.started then (if lumOn s then s else (s.set1 Reg.LMP_STAT_SVC).set1 Reg.LMP_CTL_MEN)
  else if lumOn s then
    let s1 := s.lum.acts.foldl (fun t a => lumDrop a t) (lumMod (fun l => { l with arc := none, fade := none, day := none }) s)
    ((s1.clr Reg.LMP_STAT_SVC).clr Reg.LMP_CTL_LTEN).wrC Reg.LMP_CTL_LTEN 0
  else s

/-- A dimming, astronomical or CLO table takes effect: SVC follows, and the outputs follow the new curve at once. -/
def lumTables (s0 : State) : State :=
  let was := lumOn s0
  let s := lumSvc s0
  if !lumOn s then s
  else
    let s1 := lumJudge (lumMod (fun l => { l with factor := cloFactor s (lumMinutes s) }) (if s.lum.sched.isEmpty then s else lumDay s))
    lumWrite false true (if was then s1.lum.level else lumTarget s1) s1

/-- The start at the end of boot phase 7 (R730). -/
def lumStart (s : State) : State :=
  let s0 := lumMod (fun l => { l with started := true, acts := [], day := none, force := LumAct.none, past := [], fade := none, arc := none, photo := [], fsince := [], misses := 0, gear := false, vhist := [], burn := cycS 60 * l.hours, burnAt := s.elapsed, cloAt := s.elapsed, pollAt := s.elapsed, repAt := s.elapsed, metAt := s.elapsed, bkpLost := s.on Reg.SYS_RSTCAUSE_BKPLOST }) s
  let s1 := lumSvc s0
  let s2 := lumMod (fun l => { l with failsafe := failsafeCase s1, factor := cloFactor s1 (lumMinutes s1) }) s1
  if !lumOn s2 then s2
  else
    let s3 := if s2.lum.sched.isEmpty then s2 else lumDay s2
    let s4 := match (if s3.lum.sched.isEmpty then none else lastEntry s3) with | some a => lumMod (fun l => { l with force := { a with fade := 0 } }) s3 | none => s3
    lumWrite false true (lumTarget s4) s4

/-- PHOTO_SAMPLE (R721, R732): the value, and the holds of the photocell entries. -/
def photoBeyond (s : State) (e : List Nat) : Bool :=
  (entKind e == 3 && decide (s.rd Reg.LMP_PHOTO_VALUE < entTime e)) || (entKind e == 4 && decide (entTime e < s.rd Reg.LMP_PHOTO_VALUE))
def photoHolds (s : State) : State :=
  lumMod (fun l => { l with photo := (List.range (schedNent l.sched)).filterMap (fun i =>
    if photoBeyond s (schedEntry l.sched i) then some (i, (look i l.photo).getD (s.elapsed, false)) else none) }) s
def execPhotoSample (uv dt : Nat) (s : State) : Host.Outcome State Fault Refusal :=
  .next (onlyIf (photoSampleOk (s.pass dt)) (photoHolds (photoSample uv (s.pass dt))) (s.pass dt))

/-- PHOTOCELL_ENTRY (R732): an entry whose threshold has held for PHHOLD seconds on one of its days is applied at once, without a launch. -/
def photocellEntryOk (i : Nat) (s : State) : Bool :=
  lumOn s && bitOf (entDays (schedEntry s.lum.sched i)) (weekday (localDay s)) == 1 &&
  (match look i s.lum.photo with | some (t, done) => !done && decide (t + cycS (leAt s.lum.sched 25 1) ≤ s.elapsed) | none => false)
def photocellEntry (i : Nat) (s : State) : State :=
  let e := schedEntry s.lum.sched i
  let a : LumAct := { src := 4, group := 0, tag := 0, t := s.now, level := entLevel e, fade := entFade e, order := s.lum.order, cmp := none }
  lumTake false a (lumMod (fun l => { l with order := l.order + 1, photo := put i (((look i l.photo).getD (0, true)).1, true) l.photo }) s)
def execPhotocellEntry (i dt : Nat) (s : State) : Host.Outcome State Fault Refusal :=
  .next (onlyIf (photocellEntryOk i (s.pass dt)) (photocellEntry i (s.pass dt)) (s.pass dt))

/-- FADE_STEP (R726): PWM and DAC every 10 ms, DALI every 100 ms, until the target stands at T + FADE. -/
def fadeStepOk (s : State) : Bool :=
  lumOn s && (match s.lum.fade with | some f => decide (f.at_ + cycMs 10 ≤ s.elapsed) || decide (f.end_ ≤ s.now) | none => false)
def fadeStep (s : State) : State :=
  match s.lum.fade with
  | none => s
  | some f =>
    if f.end_ ≤ s.now then lumWrite false true f.target (lumMod (fun l => { l with fade := none }) s)
    else
      let d := decide (f.daliAt + cycMs 100 ≤ s.elapsed)
      (lumWrite false d (fadeLevel s f.target) (lumMod (fun l => { l with fade := some { f with at_ := s.elapsed, daliAt := if d then s.elapsed else f.daliAt } }) s)).drawn 1
def execFadeStep (dt : Nat) (s : State) : Host.Outcome State Fault Refusal :=
  .next (onlyIf (fadeStepOk (s.pass dt)) (fadeStep (s.pass dt)) (s.pass dt))

/-- CLO_UPDATE (R733): every hour the count is stored and F recomputed; applied at once, without a launch, when L' moves. -/
def cloUpdateOk (s : State) : Bool := lumOn s && decide (s.lum.cloAt + cycS 3600 ≤ s.elapsed)
def cloUpdate (s0 : State) : State :=
  let s := burnCount s0
  let s1 := lumMod (fun l => { l with hours := lumMinutes s, cloAt := s.elapsed, factor := cloFactor s (lumMinutes s) }) s
  if levelOut s1 s1.lum.level = s1.lum.levelOut then s1 else lumWrite false true s1.lum.level s1
def execCloUpdate (dt : Nat) (s : State) : Host.Outcome State Fault Refusal :=
  .next (onlyIf (cloUpdateOk (s.pass dt)) (cloUpdate (s.pass dt)) (s.pass dt))

/-! ### Faults and metering (R737) -/

/-- The square root of n / d to the nearest value. -/
def roundSqrt (n d : Nat) : Nat := (Nat.sqrt (4 * n / d) + 1) / 2

/-- PNOM at the level in force, in 0.1 W (R734). -/
def pnom (s : State) : Nat := interp (dimCurve s 6 2) s.lum.levelOut

/-- The middle value of a list of numbers. -/
def median (l : List Nat) : Nat :=
  (l.mergeSort).getD (l.length / 2) 0

/-- The day by the astronomical table (R737). -/
def daylight (s : State) : Bool :=
  let utc := ((s.now / ftS 1 : Int) - s.firn.utcOff).toNat
  let d := dayOfYear (utc / 86400)
  decide (sunAt s false d ≤ utc % 86400) && decide (utc % 86400 < sunAt s true d)

/-- VALUE says dark or light, by the photocell thresholds of the schedule (DEDUCED). -/
def photoSays (s : State) (kind : Nat) : Bool :=
  (List.range (schedNent s.lum.sched)).any (fun i => entKind (schedEntry s.lum.sched i) == kind && photoBeyond s (schedEntry s.lum.sched i))

/-- The condition of each fault bit and the time it must hold in seconds; none while the bit is not judged. -/
def faultCond (s : State) (bit : Nat) : Option (Bool × Nat) :=
  let load := decide (vScale s ≠ 0) && decide (iScale s ≠ 0) && decide (pnom s ≠ 0) && s.lum.fade.isNone
  match bit with
  | 0 => if load then some (decide (0 < s.lum.levelOut) && decide (10 * s.lum.power < pnom s), 10) else none
  | 1 => if load then some (decide (130 * pnom s < 100 * s.lum.power), 10) else none
  | 2 => some (decide (3 ≤ s.lum.misses), 0)
  | 3 => some (s.lum.gear, 0)
  | 4 => some (s.on Reg.LMP_STAT_BUSLOW, 0)
  | 5 => some ((photoSays s 3 && daylight s) || (photoSays s 4 && !daylight s), 3600)
  | 6 => if vScale s ≠ 0 then some (decide (100 * s.lum.vrms < 80 * median s.lum.vhist) || decide (115 * median s.lum.vhist < 100 * s.lum.vrms), 10) else none
  | _ => some (s.firn.stage == .free && s.lum.bkpLost, 0)

/-- Judge one fault bit: it sets when its condition has held for the time shown and clears when it has been absent for 60 s; each change writes LMP_FAULTS,
raises EV165 and posts the LAMP notice (R737, R359). -/
def faultBit (bit : Nat) (s0 : State) : State :=
  match faultCond s0 bit with
  | none => s0
  | some (c, hold) =>
    let cur := bitOf (s0.rd Reg.LMP_FAULTS) bit == 1
    if c = cur then lumMod (fun l => { l with fsince := del bit l.fsince }) s0
    else
      let t := (look bit s0.lum.fsince).getD s0.elapsed
      if t + cycS (if c then hold else 60) ≤ s0.elapsed then
        let s := burnCount s0
        let s1 := ((lumMod (fun l => { l with fsince := del bit l.fsince }) s).wr Reg.LMP_FAULTS (putBits (s.rd Reg.LMP_FAULTS) bit 1 (b2n c))).raise 165
        notice 0xF009 7 (leBytes 4 (s1.rd Reg.LMP_FAULTS)) s1
      else lumMod (fun l => { l with fsince := put bit t l.fsince }) s0

/-- Judge every bit (FAULT_EVAL). -/
def faultEval (s : State) : State := if lumOn s then (List.range 8).foldl (fun t b => faultBit b t) s else s

/-- A block's RMS voltage in 0.1 V, current in mA and power in 0.1 W; the result for a negative mean power is not stated, so it is a free value. -/
def blockV (s : State) (b : List (Nat × Nat × Nat × Nat)) : Nat :=
  if vScale s = 0 then 0 else roundSqrt ((b.map (fun x => (toSigned 24 x.1).natAbs ^ 2)).sum * vScale s ^ 2) (64 * 10 ^ 10)
def blockI (s : State) (b : List (Nat × Nat × Nat × Nat)) : Nat :=
  if iScale s = 0 then 0 else roundSqrt ((b.map (fun x => (toSigned 24 x.2.1).natAbs ^ 2)).sum * iScale s ^ 2) (64 * 10 ^ 12)
def blockP (s : State) (b : List (Nat × Nat × Nat × Nat)) : Nat :=
  if vScale s = 0 ∨ iScale s = 0 then 0
  else
    let p := roundDiv ((b.map (fun x => toSigned 24 x.1 * toSigned 24 x.2.1)).sum * ((vScale s * iScale s : Nat) : Int)) (64 * 10 ^ 14)
    if p < 0 then s.free % 65536 else p.toNat

/-- METER_BLOCK (R722, R737): 64 samples of the four channels, each a 24-bit word. -/
def meterBlockOk (b : List (Nat × Nat × Nat × Nat)) (s : State) : Bool := s.on Reg.LMP_CTL_MEN && b.length == 64
def meterBlock (b : List (Nat × Nat × Nat × Nat)) (s : State) : State :=
  let s1 := meterLatch (b.getLastD (0, 0, 0, 0)) s
  if !lumOn s1 then s1
  else
    let p := blockP s b
    let v := blockV s b
    let h := s.lum.vhist ++ [v]
    lumJudge (faultEval ((lumMod (fun l => { l with power := p, vrms := v, irms := blockI s b, energy := l.energy + p, peak := max l.peak p, vsum := l.vsum + v, vcount := l.vcount + 1, vhist := h.drop (h.length - 5400000) }) s1).drawn 1))
def execMeterBlock (b : List (Nat × Nat × Nat × Nat)) (dt : Nat) (s : State) : Host.Outcome State Fault Refusal :=
  .next (onlyIf (meterBlockOk b (s.pass dt)) (meterBlock b (s.pass dt)) (s.pass dt))

/-- DALI_POLL (R737): broadcast QUERY STATUS, 0xFF90, every DALIPOLL seconds. -/
def daliPollOk (s : State) : Bool :=
  lumOn s && bitOf (dimOutputs s) 2 == 1 && s.on Reg.LMP_CTL_DALIEN && !s.on Reg.LMP_STAT_DALIBUSY && s.lmp.window.isNone && decide (s.lum.pollAt + cycS (leAt (dimBody s) 4 1) ≤ s.elapsed)
def daliPoll (s : State) : State :=
  let s1 := ((s.wr Reg.LMP_DALI_TX_FRAME 0xFF90).clr Reg.LMP_DALI_TX_LEN).set1 Reg.LMP_DALI_TX_BW
  faultEval (lumMod (fun l => { l with pollAt := s.elapsed }) (daliQueue { frame := 0xFF90, long := false, bw := true, poll := true, at_ := s.elapsed } s1))
def execDaliPoll (dt : Nat) (s : State) : Host.Outcome State Fault Refusal :=
  .next (onlyIf (daliPollOk (s.pass dt)) (daliPoll (s.pass dt)) (s.pass dt))

/-- A poll is answered: bits 0 and 1 of the STATUS byte of IEC 62386 say control gear failure and lamp failure (PRESUMED); a collision counts as an answer and sets no gear bit (R737). -/
def pollAnswer (poll : Bool) (data : Option Nat) (s : State) : State :=
  if !poll || !lumOn s then s
  else faultEval (lumMod (fun l => { l with misses := 0, gear := match data with | some d => decide (d % 4 ≠ 0) | none => l.gear }) s)
def pollMiss (poll : Bool) (s : State) : State := if !poll || !lumOn s then s else faultEval (lumMod (fun l => { l with misses := l.misses + 1 }) s)

/-- DALI_TRANSMIT_END (R719). -/
def execDaliTransmitEnd (collision : Bool) (dt : Nat) (s : State) : Host.Outcome State Fault Refusal :=
  .next (onlyIf (daliTransmitEndOk (s.pass dt)) (arcFeed (daliTransmitEnd collision (s.pass dt))) (s.pass dt))

/-- BACKWARD_FRAME (R719). -/
def backwardOk (s : State) : Bool := s.lmp.window.isSome
def winPoll (s : State) : Bool := match s.lmp.window with | some f => f.poll | none => false
def backwardFrame (data : Nat) (err : Bool) (s : State) : State := arcFeed (pollAnswer (winPoll s) (if err then none else some (data % 256)) (daliBackward data err s))
def execBackwardFrame (data : Nat) (err : Bool) (dt : Nat) (s : State) : Host.Outcome State Fault Refusal :=
  .next (onlyIf (backwardOk (s.pass dt)) (backwardFrame data err (s.pass dt)) (s.pass dt))

/-- BACKWARD_WINDOW_EMPTY (R719). -/
def execBackwardWindowEmpty (dt : Nat) (s : State) : Host.Outcome State Fault Refusal :=
  .next (onlyIf (backwardOk (s.pass dt)) (arcFeed (pollMiss (winPoll (s.pass dt)) (daliEmpty (s.pass dt)))) (s.pass dt))

/-- BUS_LOW (R719): the bus has been low for 500 ms, or (low false) is no longer low. -/
def busLow (low : Bool) (s : State) : State := faultEval (s.wr Reg.LMP_STAT_BUSLOW (b2n low))
def execBusLow (low : Bool) (dt : Nat) (s : State) : Host.Outcome State Fault Refusal := .next (busLow low (s.pass dt))

/-! ### Reports (R738) -/

/-- Energy in Wh. -/
def lumWh (s : State) : Nat := (s.lum.energy / 2250000) % 2 ^ 32

/-- STATUS_REPORT: KIND 2 to the coordinator every REPINT seconds. -/
def statusReportOk (s : State) : Bool := lumOn s && isJoined s && !s.lum.sched.isEmpty && decide (s.lum.repAt + cycS (leAt s.lum.sched 6 2) ≤ s.elapsed)
def statusReport (s : State) : State :=
  let body := [2, 0] ++ leBytes 2 s.lum.levelOut ++ leBytes 2 (schedSver s.lum.sched) ++ leBytes 4 (s.rd Reg.LMP_FAULTS) ++ leBytes 4 (lumMinutes (burnCount s)) ++ leBytes 4 (lumWh s)
  unicastSend coordShort 2 0 3 body (lumMod (fun l => { l with repAt := s.elapsed }) s)
def execStatusReport (dt : Nat) (s : State) : Host.Outcome State Fault Refusal :=
  .next (onlyIf (statusReportOk (s.pass dt)) (statusReport (s.pass dt)) (s.pass dt))

/-- METER_REPORT: every 900 s; the connection that carries it enciphers it (R533). -/
def meterReportOk (s : State) : Bool := lumOn s && isJoined s && decide (s.lum.metAt + cycS 900 ≤ s.elapsed)
def meterReport (s : State) : State :=
  let mean := if s.lum.vcount = 0 then 0 else (roundDiv s.lum.vsum s.lum.vcount).toNat
  unicastSend coordShort 2 0 4 (leBytes 4 (lumWh s) ++ leBytes 2 s.lum.peak ++ leBytes 2 mean) (lumMod (fun l => { l with metAt := s.elapsed, peak := 0, vsum := 0, vcount := 0 }) s)
def execMeterReport (dt : Nat) (s : State) : Host.Outcome State Fault Refusal :=
  .next (onlyIf (meterReportOk (s.pass dt)) (meterReport (s.pass dt)) (s.pass dt))

/-- A GROUPCMD payload of this node (R743). -/
def groupCmdReceive (group mseq : Nat) (p : List Nat) (s : State) : State :=
  if !lumOn s || leAt p 0 1 != 1 || decide (p.length < 16) || decide (1000 < leAt p 2 2) then s
  else lumCommand { src := 2, group := group, tag := mseq % 65536, t := leAt p 8 8, level := leAt p 2 2, fade := leAt p 4 2, order := 0, cmp := none } s

/-- A schedule object received by dispatch (R731, R744): stored, or refused, and answered with STATUS KIND 3. -/
def scheduleReceive (o : List Nat) (s : State) : State :=
  let ok := schedOk o
  unicastSend coordShort 2 0 3 ([3, 0] ++ leBytes 2 (if ok then schedSver o else 0)) (if ok then lumStore o s else s)

/-- NEXTT of LUM_STATUS (R739): the next timed action's time; 0 where none waits. -/
def lumNextT (s : State) : Nat := (s.lum.acts.foldl (fun m a => match m with | none => some a.t | some t => some (min t a.t)) none).getD 0

/-- The result of LUM_STATUS (R739). -/
def lumStatus (s : State) : List Nat :=
  leBytes 2 s.lum.levelOut ++ leBytes 2 (lumTarget s) ++ [if s.lum.failsafe then 0 else s.lum.force.src, 0] ++ leBytes 4 (s.rd Reg.LMP_FAULTS) ++ leBytes 4 (lumMinutes (burnCount s)) ++
  leBytes 4 (lumWh s) ++ leBytes 2 s.lum.power ++ leBytes 2 s.lum.vrms ++ leBytes 2 s.lum.irms ++ leBytes 2 (s.rd Reg.LMP_PHOTO_VALUE) ++ leBytes 2 (schedSver s.lum.sched) ++ leBytes 8 (lumNextT s)

end Sys2Proof.Machine
end

