-- ==== Sys2Proof/Machine/AgeOps.lean ====
section
/-!
DEFINITION. Fumarole: temperature, re-planning of rails and ceiling clocks, flash wear (R654 to R661), and what a ceiling changes.
-/
namespace Sys2Proof.Machine

/-- Change the monitors' state. -/
def ageMod (f : Age → Age) (s : State) : State := { s with age := f s.age }

/-- The clock of an island in kHz (R656). -/
def islandKHz (s : State) (isl : Nat) : Nat := s.age.ceil.getD (isl - 5) 0

/-- The island of a compact-form core by its place in the list: supervisor 8, application cores 7, link sequencers 6 (R28, R369). -/
def coreIsland (i : Nat) : Nat := if i = 0 then 8 else if i ≤ 4 then 7 else 6

/-- Cycles of an island's clock in a span of FIRN cycles. -/
def islandCycles (s : State) (isl span : Nat) : Nat := span * islandKHz s isl / 307200

/-- Bring every core's cycle count up to now, so that it counts on at a new rate (R657). -/
def cycRebase (s : State) : State :=
  { s with
    cores := (List.range s.cores.length).zip s.cores |>.map (fun (p : Nat × Core) => if p.2.held then p.2 else { p.2 with cyc0 := p.2.cyc0 + islandCycles s (coreIsland p.1) (s.elapsed - p.2.cycAt), cycAt := s.elapsed })
    sig := s.sig.map (fun (c : SigCore) => if c.held then c else { c with cyc0 := c.cyc0 + islandCycles s 5 (s.elapsed - c.cycAt), cycAt := s.elapsed }) }

/-- BUDGET for a sampling mode and a SIG ceiling in kHz (R428): FULL and SPLIT, or NARROW and OFF. -/
def budgetOf (mode khz : Nat) : Nat :=
  if mode = 1 ∨ mode = 3 then (2 * (khz * 1000) - 1125000000) / 1024 else (khz * 1000) / 1024 - 50000

/-- BUDGET that the next period takes. -/
def kernelBudget (s : State) : Nat := budgetOf (s.rd Reg.RXC_STAT_MODE) (islandKHz s 5)

/-! ### The ageing margin table (R660) -/

def ageBody (s : State) : List Nat := rfeBody s 0x40 shipAge
def ageCount (s : State) : Nat := leAt (ageBody s) 0 1
def ageEntry (s : State) (isl : Nat) : Option (List Nat) := ((List.range (ageCount s)).map (fun i => ((ageBody s).drop (4 + 16 * i)).take 16)).find? (fun e => leAt e 0 1 == isl)
def ageWear (s : State) : List Nat := (ageBody s).drop (4 + 16 * ageCount s)

/-- RAILMAX stands while an island lacks margin (R663). -/
def railAlarm (s : State) : State := alarm Reg.AGE_ALARMS_RAILMAX (!s.age.lacking.isEmpty) s

/-- A ceiling falls (R656, R657, R659): the clock, the repair map, the MARGIN notice with EV145, and the health record; a changed BUDGET posts its own. -/
def ceilFall (isl new : Nat) (s : State) : State :=
  let old := islandKHz s isl
  let b0 := kernelBudget s
  let s1 := (ageMod (fun a => { a with ceil := modAt a.ceil (isl - 5) (fun _ => new) }) (cycRebase s)).wr (Reg.AGE_ISL_FCEIL (isl - 5)) (new / 1000)
  let s2 := healthPut 0 5 1 isl old new (marginNotice (0x10 + isl) 1 old new (rmapWrite s1))
  if kernelBudget s2 = b0 then s2 else marginNotice 0x08 0 b0 (kernelBudget s2) s2

/-- Re-plan one island for a new margin in 0.5 % units (R656). -/
def replanIsland (isl m : Nat) (s0 : State) : State :=
  let s := s0.wr (Reg.AGE_ISL_MARGIN (isl - 5)) m
  match ageEntry s isl with
  | none => s
  | some e =>
    let mi := toSigned 8 m
    let v := s.rd (Reg.AGE_ISL_VRAIL (isl - 5))
    let f := islandKHz s isl
    if mi < leAt e 6 1 then
      let s1 := ageMod (fun a => { a with high := del isl a.high }) s
      if v < leAt e 4 2 then s1.wr (Reg.AGE_ISL_VRAIL (isl - 5)) (v + 10)
      else if bitOf (leAt e 1 1) 0 = 1 ∧ leAt e 10 2 * 1000 + leAt e 8 2 * 1000 ≤ f then ceilFall isl (f - leAt e 8 2 * 1000) s1
      else if s1.age.lacking.contains isl then s1
      else railAlarm (healthPut 2 5 2 isl isl (m % 256) (ageMod (fun a => { a with lacking := isl :: a.lacking }) s1))
    else if (leAt e 7 1 : Int) < mi then
      let t := (look isl s.age.high).getD s.elapsed
      let s1 := ageMod (fun a => { a with high := put isl t a.high }) s
      if t + cycS 86400 ≤ s.elapsed then
        let s2 := if s1.age.lacking.contains isl then railAlarm (ageMod (fun a => { a with lacking := a.lacking.filter (fun x => !(x == isl)) }) s1) else s1
        if leAt e 2 2 < v then s2.wr (Reg.AGE_ISL_VRAIL (isl - 5)) (v - 10) else s2
      else s1
    else ageMod (fun a => { a with high := del isl a.high }) s

/-- REPLAN (R654 to R656): every 10 s, with the measured margins of islands 5 to 12. -/
def replanOk (ms : List Nat) (s : State) : Bool := ms.length == 8 && decide (s.age.planAt + cycS 10 ≤ s.elapsed)
def replan (ms : List Nat) (s : State) : State :=
  (List.range 8).foldl (fun t i => replanIsland (5 + i) (ms.getD i 0 % 256) t) (ageMod (fun a => { a with planAt := s.elapsed }) s)
def execReplan (ms : List Nat) (dt : Nat) (s : State) : Host.Outcome State Fault Refusal :=
  .next (onlyIf (replanOk ms (s.pass dt)) (replan ms (s.pass dt)) (s.pass dt))

/-! ### Temperature (R654, R689) -/

/-- The 10 °C bin of a temperature, from -55 to 125 °C. -/
def tempBin (t : Int) : Nat := min 17 ((t + 55).toNat / 10)

/-- TEMPERATURE_POLL: every 1 s the highest sensor reading, a signed byte of °C. -/
def temperaturePollOk (s : State) : Bool := decide (s.age.tempAt + cycS 1 ≤ s.elapsed)
def temperaturePoll (t : Nat) (s : State) : State :=
  let ti := toSigned 8 t
  let s1 := s.wr Reg.AGE_TEMP_NOW t
  let s2 := if s.rd Reg.AGE_TEMP_PEAK = 0x80 ∨ toSigned 8 (s.rd Reg.AGE_TEMP_PEAK) < ti then s1.wr Reg.AGE_TEMP_PEAK t else s1
  let s3 := ageMod (fun a => { a with tempAt := s.elapsed, bins := modAt a.bins (tempBin ti) (· + 1), hotSec := a.hotSec + b2n (decide ((leAt (ageWear s) 7 1 : Int) < ti)), peak := max a.peak ti }) s2
  let s4 := if s3.age.binsAt + cycS 3600 ≤ s3.elapsed then ageMod (fun a => { a with savedBins := a.bins, binsAt := s3.elapsed }) s3 else s3
  if s4.age.dayAt + cycS 86400 ≤ s4.elapsed then
    ageMod (fun a => { a with dayAt := s4.elapsed, hotSec := 0, peak := -128 }) (healthPut 0 7 1 0 (s4.age.hotSec / 3600) (ofSigned 32 s4.age.peak) s4)
  else s4
def execTemperaturePoll (t dt : Nat) (s : State) : Host.Outcome State Fault Refusal :=
  .next (onlyIf (temperaturePollOk (s.pass dt)) (temperaturePoll t (s.pass dt)) (s.pass dt))

/-! ### Flash wear (R658) -/

/-- FLWEAR, which never clears (R663). -/
def flWear (s : State) : State := alarm Reg.AGE_ALARMS_FLWEAR true s

/-- Judge the pulses of group `g`: a WARN record at PWARN, an ALARM record and FLWEAR at PALARM, each once. -/
def wearPulses (g : Nat) (w : GroupWear) (s : State) : State :=
  let mean := if w.progs = 0 then 0 else 4 * w.pulses / w.progs
  let lvl := (look g s.age.wear).getD 0
  if leAt (ageWear s) 1 1 ≤ mean ∧ lvl < 2 ∧ w.progs ≠ 0 then flWear (healthPut 2 4 1 g g mean (ageMod (fun a => { a with wear := put g 2 a.wear }) s))
  else if leAt (ageWear s) 0 1 ≤ mean ∧ lvl < 1 ∧ w.progs ≠ 0 then healthPut 1 4 1 g g mean (ageMod (fun a => { a with wear := put g 1 a.wear }) s)
  else s

/-- Judge the retry share of group `g`: the threshold offset moves one step of 12 mV lower, at most 4 steps. -/
def wearRetries (g : Nat) (w : GroupWear) (s : State) : State :=
  let share := if w.reads = 0 then 0 else 10000 * w.retries / w.reads
  let off := (look g s.age.thresh).getD 0
  if w.reads = 0 then s
  else if leAt (ageWear s) 2 2 ≤ share ∧ off < 4 then
    let s1 := ageMod (fun a => { a with thresh := put g (off + 1) a.thresh }) (rmapWrite s)
    let s2 := marginNotice (0x40 + g) 4 (ofSigned 32 (-(off : Int))) (ofSigned 32 (-((off : Int) + 1))) s1
    { s2 with flc := { s2.flc with groups := put g { w with reads := 0, retries := 0 } s2.flc.groups } }
  else if leAt (ageWear s) 4 2 ≤ share ∧ off = 4 then flWear (healthPut 2 4 1 g g (if w.progs = 0 then 0 else 4 * w.pulses / w.progs) s)
  else s

/-- WEAR_EVALUATION: every hour, each block group. -/
def wearEvaluationOk (s : State) : Bool := decide (s.age.wearAt + cycS 3600 ≤ s.elapsed)
def wearEvaluation (s : State) : State :=
  s.flc.groups.foldl (fun t p => wearRetries p.1 p.2 (wearPulses p.1 p.2 t)) (ageMod (fun a => { a with wearAt := s.elapsed }) s)
def execWearEvaluation (dt : Nat) (s : State) : Host.Outcome State Fault Refusal :=
  .next (onlyIf (wearEvaluationOk (s.pass dt)) (wearEvaluation (s.pass dt)) (s.pass dt))

end Sys2Proof.Machine
end

