-- ==== Sys2Proof/Machine/CphOps.lean ====
section
/-!
DEFINITION. Caldera: messages, blocks, key slots and the choice of the next block (13_caldera_protection.md).
-/
namespace Sys2Proof.Machine

/-- Context `n` of Caldera. -/
def cphCtx (s : State) (n : Nat) : CphCtx := s.cph.ctxs.toList.getD n CphCtx.reset

/-- Change context `n`. -/
def cphModCtx (n : Nat) (f : CphCtx → CphCtx) (s : State) : State :=
  if h : n < 4 then { s with cph := { s.cph with ctxs := s.cph.ctxs.set n (f (cphCtx s n)) } } else s

/-- The slot number of a context's slot `i` (R518): contexts 0 and 1 have slots 0 to 15, context 2 has 16 to 23, context 3 has 24 to 31. -/
def cphSlot (n i : Nat) : Nat := 8 * n + i

/-- Write the four data words of a register run from 16 bytes (R524). -/
def cphWords (f : Nat → Field) (b : List Nat) (s : State) : State :=
  (List.range 4).foldl (fun t k => t.wr (f k) (leAt b (4 * k) 4)) s

/-- The 16 bytes that four data words hold (R524). -/
def cphBytes (f : Nat → Field) (s : State) : List Nat := (List.range 4).flatMap (fun k => leBytes 4 (s.rd (f k)))

/-- FREE follows the input queue (R527). -/
def cphFree (n : Nat) (s : State) : State := s.wr (Reg.CPH_STAT_FREE n) (4 - (cphCtx s n).queue.length)

/-- The event of a context that sets DONE (R552); the secure contexts have none. -/
def cphEvent (n : Nat) (s : State) : State := if n = 2 then s.raise 168 else if n = 3 then s.raise 169 else s

/-- End the message of context `n` with a code (R527, R528): BUSY clears, DONE sets, the queue empties, the event is raised; on an error
DOUT reads 0 and MATCH is 0. -/
def cphEnd (n err : Nat) (result : List Nat) (hit : Bool) (s : State) : State :=
  let s1 := cphModCtx n (fun c => { c with queue := [], submitted := 0, abortReq := false, startWait := false, derived := [], key := ⟨[], 0⟩, chain := zero16 }) s
  let s2 : State := { s1 with cph := { s1.cph with waiting := s1.cph.waiting.filter (fun m => !(m == n)), engine := s1.cph.engine.map (fun b => if b.ctx = n then { b with live := false } else b) } }
  let s3 := ((s2.clr (Reg.CPH_STAT_BUSY n)).set1 (Reg.CPH_STAT_DONE n)).wr (Reg.CPH_STAT_ERR n) err
  let s4 := (cphWords (Reg.CPH_DOUT n) (if err = 0 then result else zero16) s3).wr (Reg.CPH_STAT_MATCH n) (b2n (decide (err = 0) && hit))
  cphEvent n (cphFree n (if err = 0 then s4.inc (Reg.CPH_MSGCNT n) else s4))

/-- The comparison of the first TLEN bytes with EXP (R524); TLEN 0 means 16. -/
def cphHit (n : Nat) (result : List Nat) (s : State) : Bool :=
  let t := s.rd (Reg.CPH_CFG_TLEN n)
  let k := if t = 0 then 16 else t
  s.on (Reg.CPH_CFG_CMPEN n) && result.take k == (cphBytes (Reg.CPH_EXP n) s).take k

/-- LEN is within the range of the operation (R522). -/
def cphLenOk (op len dsize : Nat) : Bool :=
  match op with
  | 1 => true
  | 2 => decide (16 ≤ len) && decide (len % 16 = 0) && decide (len ≤ 16777200)
  | 3 => len == 16
  | _ => len == (if dsize = 1 then 32 else 16)

/-- The USE bit an operation needs (R522): bit 0 MAC, bit 1 BLK, bit 2 DRV. -/
def cphUse (op : Nat) : Nat := match op with | 1 => 0 | 2 => 0 | 3 => 1 | _ => 2

/-- The slot's key permits the message: valid, USE, and the rules of DERIVE (R522, R523). -/
def cphKeyOk (n : Nat) (s : State) : Bool :=
  let op := s.rd (Reg.CPH_CFG_OP n)
  match look (cphSlot n (s.rd (Reg.CPH_CFG_KSLOT n))) s.cph.slots with
  | none => false
  | some k => bitOf k.use (cphUse op) == 1 &&
      (!(op == 4) || (!(s.rd (Reg.CPH_CFG_DSLOT n) == s.rd (Reg.CPH_CFG_KSLOT n)) && (s.rd (Reg.CPH_CFG_DUSE n) &&& k.use) == s.rd (Reg.CPH_CFG_DUSE n)))

/-- Blocks of a message of `len` bytes (R527): at least one, but for a CMAC of length 0, which takes none. -/
def cphBlocksOf (len : Nat) : Nat := cdiv len 16

/-- The first key of the slot a message names. -/
def cphKeyOf (n : Nat) (s : State) : KeySlot := (look (cphSlot n (s.rd (Reg.CPH_CFG_KSLOT n))) s.cph.slots).getD ⟨[], 0⟩

/-- A detection of parity (R529): counted, EV170. -/
def cphParity (s : State) : State := (s.inc Reg.CPH_PARCNT).raise 170

/-- The stored key failed parity (R529): the slot is invalid, and its KLOST bit sets for a customer slot. -/
def cphKeyLost (n i : Nat) (s : State) : State :=
  let s1 := { s with cph := { s.cph with slots := del (cphSlot n i) s.cph.slots } }
  let s2 := (s1.clrBit (Reg.CPH_KSTAT_VALID n) i).clrBit (Reg.CPH_KSTAT_K256 n) i
  if 2 ≤ n then s2.setBit (Reg.CPH_KSTAT_KLOST n) i else s2

/-- START of a message (R527, R528): the checks of OP, LEN and the key, in that order; a CMAC of length 0 completes at once.
`parity`: the key check meets a stored key that fails parity (R529). -/
def cphBegin (n : Nat) (parity : Bool) (s : State) : State :=
  let op := s.rd (Reg.CPH_CFG_OP n)
  let len := s.rd (Reg.CPH_LEN_LEN n)
  if op = 0 ∨ 4 < op then cphEnd n 1 [] false s
  else if !cphLenOk op len (s.rd (Reg.CPH_CFG_DSIZE n)) then cphEnd n 2 [] false s
  else if parity && (look (cphSlot n (s.rd (Reg.CPH_CFG_KSLOT n))) s.cph.slots).isSome then
    cphEnd n 4 [] false (cphKeyLost n (s.rd (Reg.CPH_CFG_KSLOT n)) (cphParity s))
  else if !cphKeyOk n s then cphEnd n 3 [] false s
  else if op = 1 ∧ len = 0 then
    let r := cmac (cphKeyOf n s).key []
    cphEnd n 0 r (cphHit n r s) ((s.wr (Reg.CPH_STAT_BLOCKS n) 0).clr (Reg.CPH_STAT_DONE n))
  else
    cphModCtx n (fun c => { c with key := cphKeyOf n s, chain := zero16, submitted := 0, derived := [], queue := [], abortReq := false, startWait := false })
      (((((s.set1 (Reg.CPH_STAT_BUSY n)).clr (Reg.CPH_STAT_DONE n)).clr (Reg.CPH_STAT_MATCH n)).wr (Reg.CPH_STAT_ERR n) 0).wr (Reg.CPH_STAT_BLOCKS n) 0)

/-- A write of START (R527, R541): ignored with CFGERR while BUSY; during a key load it begins when the load ends (R520). -/
def cphStart (n : Nat) (parity : Bool) (s : State) : State :=
  if s.on (Reg.CPH_STAT_BUSY n) then s.set1 (Reg.CPH_STAT_CFGERR n)
  else if s.on (Reg.CPH_KSTAT_KBUSY n) then cphModCtx n (fun c => { c with startWait := true }) s
  else cphBegin n parity s

/-- The priority of a context (R525). -/
def cphPrio (s : State) (n : Nat) : Nat := match n with | 0 => 3 | 1 => 2 | n => s.rd (Reg.CPH_CFG_PRIO n)

/-- Contexts that have a block queued. -/
def cphReady (s : State) : List Nat := (List.range 4).filter (fun n => !(cphCtx s n).queue.isEmpty)

/-- The context the engine takes at a block boundary (R526): the highest priority; among equals the running message, then the one that
has waited longest. -/
def cphPick (s : State) : Option Nat :=
  let r := cphReady s
  let top := r.foldl (fun m n => max m (cphPrio s n)) 0
  let best := r.filter (fun n => cphPrio s n == top)
  match s.cph.last with
  | some l => if best.contains l then some l else (s.cph.waiting.filter best.contains).head?
  | none => (s.cph.waiting.filter best.contains).head?

/-- Start the chosen context's oldest block; its place in the queue is free (R527). -/
def cphRun (s : State) : State :=
  match s.cph.engine, cphPick s with
  | none, some n =>
    match (cphCtx s n).queue with
    | b :: rest =>
      let s1 := cphModCtx n (fun c => { c with queue := rest }) s
      let w := s1.cph.waiting.filter (fun m => !(m == n))
      cphFree n { s1 with cph := { s1.cph with engine := some ⟨n, b, true⟩, last := some n, waiting := if rest.isEmpty then w else w ++ [n] } }
    | [] => s
  | _, _ => s

/-- A write of DIN3 (R527): the block is queued; discarded past the last block or while BUSY is 0; with no place free it ends the
message with OVERRUN. -/
def cphSubmit (n : Nat) (s : State) : State :=
  if !s.on (Reg.CPH_STAT_BUSY n) then s
  else if cphBlocksOf (s.rd (Reg.CPH_LEN_LEN n)) ≤ (cphCtx s n).submitted then s
  else if 4 ≤ (cphCtx s n).queue.length then cphEnd n 5 [] false s
  else
    let s1 := cphModCtx n (fun c => { c with queue := c.queue ++ [cphBytes (Reg.CPH_DIN n) s], submitted := c.submitted + 1 }) s
    let s2 := { s1 with cph := { s1.cph with waiting := if s1.cph.waiting.contains n then s1.cph.waiting else s1.cph.waiting ++ [n] } }
    cphRun (cphFree n s2)

/-- ABORT (R527): at the next block boundary when the message is on the engine, else at once; nothing on an idle context. -/
def cphAbort (n : Nat) (s : State) : State :=
  if !s.on (Reg.CPH_STAT_BUSY n) then s
  else match s.cph.engine with
    | some b => if b.ctx = n ∧ b.live then cphModCtx n (fun c => { c with abortReq := true }) s else cphEnd n 6 [] false s
    | none => cphEnd n 6 [] false s

/-- Put a key in a slot: VALID and K256 follow, KLOST of the slot stays for software to clear. -/
def cphSetKey (n i : Nat) (k : KeySlot) (s : State) : State :=
  let s1 := ({ s with cph := { s.cph with slots := put (cphSlot n i) k s.cph.slots } }).setBit (Reg.CPH_KSTAT_VALID n) i
  if k.key.length = 32 then s1.setBit (Reg.CPH_KSTAT_K256 n) i else s1.clrBit (Reg.CPH_KSTAT_K256 n) i

/-- A write of KCTL.LOAD (R519, R520): the key registers are taken and cleared, KBUSY sets. -/
def cphLoad (n : Nat) (s : State) : State :=
  let i := s.rd (Reg.CPH_KCTL_SLOT n)
  let words := if s.on (Reg.CPH_KCTL_SIZE n) then 8 else 4
  let key := (List.range words).flatMap (fun k => leBytes 4 ((look (8 * n + k) s.cph.keyRegs).getD 0))
  { (s.set1 (Reg.CPH_KSTAT_KBUSY n)) with
    cph := { s.cph with keyRegs := s.cph.keyRegs.filter (fun p => !(p.1 / 8 == n)), load := some ⟨n, i, ⟨key, s.rd (Reg.CPH_KCTL_USE n)⟩⟩ } }

/-- A write of KCTL.CLEAR (R520): the slot is invalid at once. -/
def cphClear (n i : Nat) (s : State) : State :=
  (({ s with cph := { s.cph with slots := del (cphSlot n i) s.cph.slots } }).clrBit (Reg.CPH_KSTAT_VALID n) i).clrBit (Reg.CPH_KSTAT_K256 n) i

/-- KEY_LOAD_DONE (R520): the load ends; it replaces any key in the slot, and a START that waited begins. -/
def keyLoadDoneOk (s : State) : Bool := s.cph.load.isSome
def keyLoadDone (s : State) : State :=
  match s.cph.load with
  | none => s
  | some l =>
    let s1 := cphSetKey l.ctx l.slot l.key ({ s with cph := { s.cph with load := none } }.clr (Reg.CPH_KSTAT_KBUSY l.ctx))
    if (cphCtx s1 l.ctx).startWait then cphBegin l.ctx false (cphModCtx l.ctx (fun c => { c with startWait := false }) s1) else s1
def execKeyLoadDone (dt : Nat) (s : State) : Host.Outcome State Fault Refusal :=
  .next (onlyIf (keyLoadDoneOk (s.pass dt)) (keyLoadDone (s.pass dt)) (s.pass dt))

/-- The last block's bytes beyond LEN are ignored (R527). -/
def cphTrim (len k : Nat) (b : List Nat) : List Nat := if 16 * k ≤ len then b else b.take (len - 16 * (k - 1))

/-- One block of a message through the engine (R522): the new chaining state, and the message's end when it was the last. -/
def cphBlock (n : Nat) (b : List Nat) (s : State) : State :=
  let c := cphCtx s n
  let op := s.rd (Reg.CPH_CFG_OP n)
  let len := s.rd (Reg.CPH_LEN_LEN n)
  let k := s.rd (Reg.CPH_STAT_BLOCKS n) + 1
  let s1 := s.wr (Reg.CPH_STAT_BLOCKS n) k
  let last := decide (cphBlocksOf len ≤ k)
  match op with
  | 1 =>
    if last then
      let r := cbcStep c.key.key c.chain (cmacLast c.key.key (cphTrim len k b))
      cphEnd n 0 r (cphHit n r s1) s1
    else cphModCtx n (fun c => { c with chain := cbcStep c.key.key c.chain b }) s1
  | 2 =>
    let r := cbcStep c.key.key c.chain b
    if last then cphEnd n 0 r (cphHit n r s1) s1 else cphModCtx n (fun c => { c with chain := r }) s1
  | 3 =>
    let r := aesEncrypt c.key.key b
    cphEnd n 0 r (cphHit n r s1) s1
  | _ =>
    let d := c.derived ++ aesEncrypt c.key.key b
    if last then cphEnd n 0 zero16 false (cphSetKey n (s.rd (Reg.CPH_CFG_DSLOT n)) ⟨d, s.rd (Reg.CPH_CFG_DUSE n)⟩ s1)
    else cphModCtx n (fun c => { c with derived := d }) s1

/-- BLOCK_END (R526): the block on the engine ends; the message goes on, completes, or ends with ABORTED or PARITY; then the engine
takes the next block. `fault`: 0 none, 1 the state or the schedule failed parity, 2 the stored key did (R529). -/
def blockEndOk (s : State) : Bool := s.cph.engine.isSome
def blockEnd (fault : Nat) (s : State) : State :=
  match s.cph.engine with
  | none => s
  | some b =>
    let s1 : State := { s with cph := { s.cph with engine := none } }
    let s2 :=
      if fault = 1 ∨ fault = 2 then
        let s0 := if fault = 2 then cphKeyLost b.ctx (s.rd (Reg.CPH_CFG_KSLOT b.ctx)) (cphParity s1) else cphParity s1
        if b.live then cphEnd b.ctx 4 [] false s0 else s0
      else if !b.live then s1
      else if (cphCtx s1 b.ctx).abortReq then cphEnd b.ctx 6 [] false s1
      else cphBlock b.ctx b.block s1
    cphRun s2
def execBlockEnd (fault dt : Nat) (s : State) : Host.Outcome State Fault Refusal :=
  .next (onlyIf (blockEndOk (s.pass dt)) (blockEnd fault (s.pass dt)) (s.pass dt))

/-- A change of a context's owner (R539): a busy message ends with OWNER, and every slot of the context is cleared. -/
def cphOwnerChange (n : Nat) (s : State) : State :=
  let s1 := if s.on (Reg.CPH_STAT_BUSY n) then cphEnd n 7 [] false s else s
  (List.range 8).foldl (fun t i => cphClear n i t) s1

end Sys2Proof.Machine
end

