-- ==== Sys2Proof/Machine/Prot.lean ====
section
/-!
DEFINITION. The memory map (R36 to R39), the ownership table (R535, R536) and the order of a bus access's checks (R776).
-/
namespace Sys2Proof.Machine

/-- What an address names (R36, R38, R39). TCMs and sequencer RAMs are numbered by their core's initiator ID. -/
inductive Rgn
  | none
  | rom
  | sram (bank : Nat)
  | itcm (ini : Nat)
  | dtcm (ini : Nat)
  | sigProg (c : Nat)
  | sigData (c : Nat)
  | slot (n : Nat)
  | dram
  deriving DecidableEq, Repr

/-- The global window of a core's private memories (R38): instruction base and size, data base and size. -/
def tcmOf (ini : Nat) : Option (Nat × Nat × Nat × Nat) :=
  if ini = 0 then some (0x21000000, 0x20000, 0x21020000, 0x20000)
  else if ini ≤ 4 then some (0x21040000 + 0x20000 * (ini - 1), 0x10000, 0x21050000 + 0x20000 * (ini - 1), 0x10000)
  else if 7 ≤ ini ∧ ini ≤ 15 then some (0x21100000 + 0x8000 * (ini - 7), 0x4000, 0x21104000 + 0x8000 * (ini - 7), 0x2000)
  else none

/-- The global address behind an address: the own-TCM alias leads to the initiator's windows (R37); none past their size. -/
def globalAddr (ini a : Nat) : Option Nat :=
  if a < 0x20000000 ∨ 0x20100000 ≤ a then some a
  else match tcmOf ini with
    | .none => .none
    | some (ib, isz, db, dsz) =>
      if a < 0x20080000 then (if a - 0x20000000 < isz then some (ib + (a - 0x20000000)) else .none)
      else if a - 0x20080000 < dsz then some (db + (a - 0x20080000)) else .none

/-- What a global address names. -/
def rgnOf (isC : Bool) (a : Nat) : Rgn :=
  if a < 0x40000 then .rom
  else if 0x10000000 ≤ a ∧ a < 0x10600000 then .sram ((a - 0x10000000) / 0x40000)
  else if 0x21000000 ≤ a ∧ a < 0x21040000 then (if a < 0x21020000 then .itcm 0 else .dtcm 0)
  else if 0x21040000 ≤ a ∧ a < 0x210C0000 then
    (if (a - 0x21040000) % 0x20000 < 0x10000 then .itcm ((a - 0x21040000) / 0x20000 + 1) else .dtcm ((a - 0x21040000) / 0x20000 + 1))
  else if 0x21100000 ≤ a ∧ a < 0x21148000 then
    (if (a - 0x21100000) % 0x8000 < 0x4000 then .itcm ((a - 0x21100000) / 0x8000 + 7)
     else if (a - 0x21100000) % 0x8000 < 0x6000 then .dtcm ((a - 0x21100000) / 0x8000 + 7) else .none)
  else if 0x30000000 ≤ a ∧ a < 0x30180000 then
    (let o := (a - 0x30000000) % 0x100000
     let c := (a - 0x30000000) / 0x100000
     if o < 0x10000 then .sigProg c else if 0x40000 ≤ o ∧ o < 0x80000 then .sigData c else .none)
  else if 0x40000000 ≤ a ∧ a < 0x40180000 then .slot ((a - 0x40000000) / 0x10000)
  else if 0x80000000 ≤ a ∧ a < 0x9F000000 ∧ isC then .dram
  else .none

/-- Customer initiators (R28): application cores, the host, JTAG. -/
def isCustomer (ini : Nat) : Bool := (decide (1 ≤ ini) && decide (ini ≤ 4)) || ini == 21 || ini == 22

/-- An initiator's accesses are secure (R535). -/
def isSecure (s : State) (ini : Nat) : Bool :=
  if 1 ≤ ini ∧ ini ≤ 4 then bitOf (s.rd Reg.PROT_WORLD_APP) (ini - 1) == 1
  else if ini = 21 then s.on Reg.PROT_WORLD_HOST
  else !isCustomer ini

/-- The test of R536 with an owner, a security attribute, and the two openings. -/
def ownTest (s : State) (ini : Nat) (user write : Bool) (owner sec userOk rdall : Nat) : Bool :=
  (ini == owner || (!write && rdall == 1) || (ini == 22 && s.on Reg.PROT_CTL_DBGEN)) && (sec == 0 || isSecure s ini) && (userOk == 1 || !user)

/-- Entry `k` of the ownership table lets an access through (R536); it checks customer initiators only. -/
def ownOk (s : State) (k ini : Nat) (user write : Bool) : Bool :=
  !isCustomer ini ||
    ownTest s ini user write (s.rd (Reg.PROT_OWN_OWNER k)) (s.rd (Reg.PROT_OWN_SEC k)) (s.rd (Reg.PROT_OWN_USER k)) (s.rd (Reg.PROT_OWN_RDALL k))

/-- The verdict of check 3 of R776: passed, refused by the ownership table (R536: counted in DENY), or refused by another rule (R40). -/
inductive Verdict | ok | denied | closed
  deriving DecidableEq, Repr

/-- A verdict of the table. -/
def byTable (b : Bool) : Verdict := if b then .ok else .denied

/-- A verdict of another rule. -/
def byRule (b : Bool) : Verdict := if b then .ok else .closed

/-- The initiator owns mailbox `m` (R326, R327). -/
def mbOwner (s : State) (m ini : Nat) : Bool :=
  match m with
  | 0 => ini == 21
  | 1 => ini == 1
  | 2 => ini == 2
  | _ => ini == 3 || (ini == 4 && s.on Reg.MBX_CFG_SHARE3)

/-- The host window and MBX: who may reach an offset of MBX (R326, R329, R361, R362). -/
def mbxVerdict (s : State) (ini : Nat) (write : Bool) (off : Nat) : Verdict :=
  if 0x8000 ≤ off then byRule (mbOwner s ((off - 0x8000) / 0x2000) ini && (!write || (off - 0x8000) % 0x2000 < 0x1000))
  else if 0x100 ≤ off ∧ off < 0x200 then byRule (mbOwner s ((off - 0x100) / 0x40) ini)
  else byRule (if write then ini == 1 else ini != 22)

/-- A customer's access to a peripheral slot (R39, R40, R80, R91, R326, R479, R536, R538, R555, R560, R565, R599, R694, R779). -/
def slotVerdict (s : State) (ini : Nat) (user write : Bool) (n off : Nat) : Verdict :=
  let listed := !(regFields (0x40000000 + 0x10000 * n + off / 4 * 4)).isEmpty
  match n with
  | 0 => byTable (ownOk s 48 ini user write)
  | 2 =>
    if 0x800 ≤ off then .closed
    else if 0x100 ≤ off ∧ off < 0x300 then
      (if !write then .ok else if off < 0x200 then .closed else byTable (ownOk s ((off - 0x200) / 0x10) ini user write))
    else if 0x400 ≤ off ∧ off < 0x440 then
      (if !write then .ok else if off < 0x420 then .closed else byTable (ownOk s ((off - 0x420) / 0x10 + 16) ini user write))
    else .ok
  | 3 =>
    if !write ∨ 0x8000 ≤ off then .ok
    else if off < 0x100 then byTable (ownTest s ini user true (s.rd (Reg.EVT_CH_OWN_OWNER (off / 4))) (s.rd (Reg.EVT_CH_OWN_SEC (off / 4))) 1 0)
    else if off < 0x200 then byRule (ini == 1 && !user && decide (4 ≤ (off - 0x100) / 4 ∧ (off - 0x100) / 4 < 56))
    else if 0x300 ≤ off ∧ off < 0x320 then byRule (ini == 1 && !user && decide (4 ≤ (off - 0x300) / 4))
    else .ok
  | 4 => byTable (ownOk s 42 ini user write)
  | 5 => if 0x8000 ≤ off ∧ off < 0x8020 then byRule (!write) else byTable (ownOk s 43 ini user write)
  | 13 => mbxVerdict s ini write off
  | 14 => if !write then .ok else if (0x100 ≤ off ∧ off < 0x120) ∨ (0x220 ≤ off ∧ off < 0x240) then byTable (ownOk s 39 ini user true) else .closed
  | 16 =>
    if off < 0x200 then .closed
    else if off < 0x300 then byTable (ownOk s 40 ini user write)
    else if off < 0x400 then byTable (ownOk s 41 ini user write)
    else if off < 0x800 then .ok
    else byRule (!write || (ini == 1 && !user))
  | 17 => byTable (ownOk s 44 ini user write)
  | 18 => byTable (ownOk s 45 ini user write)
  | 20 => if off = 8 then .ok else byRule (!write && listed)
  | 21 => byTable (ownOk s 47 ini user write)
  | 22 => byTable (ownOk s 46 ini user write)
  | 23 => .ok
  | _ => byRule (!write && listed)

/-- The signal-core customer areas (R406, R425): what a customer may do at a global address there. While a kernel is QUEUED or RUNNING its
code is closed to writes. -/
def areaVerdict (s : State) (ini : Nat) (user write : Bool) (a : Nat) : Verdict :=
  let busy := !s.runner.queue.isEmpty || s.runner.run.isSome
  if (0x3010C000 ≤ a ∧ a < 0x30110000) ∨ (0x30170000 ≤ a ∧ a < 0x30180000) then
    if !ownOk s 38 ini user write then .denied
    else if !write then .ok
    else if a < 0x30110000 then byRule (!busy)
    else if a < 0x30170020 then .closed
    else if a < 0x301700A0 then byRule (decide ((a - 0x30170020) % 0x20 < 12))
    else .ok
  else .closed

/-- A row of SRAM or TCM is marked execute-only (R505). -/
def isXo (s : State) (a : Nat) : Bool := s.par.xo.contains (a / 128)

/-- Check 3 of R776 for an access at a global address; `fetch` for an instruction fetch. -/
def rgnVerdict (s : State) (ini : Nat) (user write fetch : Bool) (a : Nat) : Verdict :=
  let xo := byRule (fetch || !isXo s a)
  match rgnOf s.isC a with
  | .none => .ok
  | .rom => byRule (!write)
  | .sram b =>
    if !isCustomer ini then xo
    else if b < 8 then .closed
    else if !ownOk s (b + 10) ini user write then .denied else xo
  | .itcm c => if !isCustomer ini ∨ c = ini ∧ c ≤ 4 ∨ (ini = 22 ∧ 1 ≤ c ∧ c ≤ 4 ∧ s.on Reg.PROT_CTL_DBGEN) then xo else .closed
  | .dtcm c => byRule (!isCustomer ini || (decide (c = ini) && decide (c ≤ 4)) || (ini == 22 && decide (1 ≤ c) && decide (c ≤ 4) && s.on Reg.PROT_CTL_DBGEN))
  | .sigProg _ => if isCustomer ini then areaVerdict s ini user write a else .ok
  | .sigData _ => if isCustomer ini then areaVerdict s ini user write a else .ok
  | .slot n => if isCustomer ini then slotVerdict s ini user write n (a % 0x10000) else .ok
  | .dram =>
    if !isCustomer ini then .ok
    else if 0x90000000 ≤ a then .closed
    else byTable (ownOk s (34 + (a - 0x80000000) / 0x04000000) ini user write)

/-- The checks of R776 in order: the KIND of the bus error, 0 when the access may be made, and whether the ownership table refused it. -/
def accessKind (s : State) (ini : Nat) (user write fetch : Bool) (a size : Nat) : Nat × Bool :=
  if !s.isC ∧ 0x80000000 ≤ a then (7, false)
  else match globalAddr ini a with
    | none => (1, false)
    | some g =>
      match rgnOf s.isC g with
      | .none => (1, false)
      | r =>
        match rgnVerdict s ini user write fetch g with
        | .denied => (2, true)
        | .closed => (2, false)
        | .ok => (match r with | .slot _ => (if size = 4 ∧ g % 4 = 0 then 0 else 3) | _ => 0, false)

/-- The power domain behind a global address (R630): none for AON and for what has no domain of its own. -/
def rgnDomain : Rgn → Nat
  | .none => 0
  | .rom => 6
  | .sram _ => 11
  | .itcm c => if c = 0 then 6 else if c ≤ 4 then 6 + c else 5
  | .dtcm c => if c = 0 then 6 else if c ≤ 4 then 6 + c else 5
  | .sigProg _ => 4
  | .sigData _ => 4
  | .dram => 12
  | .slot n =>
    match n with
    | 2 => 1
    | 3 => 11
    | 4 => 14
    | 6 => 4
    | 7 => 4
    | 8 => 4
    | 9 => 2
    | 10 => 5
    | 11 => 11
    | 12 => 13
    | 13 => 11
    | 14 => 12
    | 15 => 12
    | 16 => 6
    | 17 => 14
    | 18 => 14
    | 19 => 6
    | 20 => 13
    | 21 => 14
    | 22 => 14
    | 23 => 14
    | _ => 0

/-- Record a failed access (R45) and count it when the table refused it (R536). -/
def busError (ini : Nat) (write : Bool) (a kind : Nat) (denied : Bool) (s : State) : State :=
  let s1 := if denied then s.inc Reg.PROT_STAT_DENY else s
  if s1.on Reg.SYS_BERR_INFO_VALID then s1
  else ((((s1.wr Reg.SYS_BERR_ADDR a).wr Reg.SYS_BERR_INFO_KIND kind).wr Reg.SYS_BERR_INFO_WRITE (b2n write)).wr Reg.SYS_BERR_INFO_INIT ini).set1 Reg.SYS_BERR_INFO_VALID

end Sys2Proof.Machine
end

