-- ==== Sys2Proof/Machine/MemOps.lean ====
section
/-!
DEFINITION. SRAM, TCMs and the DRAM controller (11_memory_dram.md): parity and repair, the patrol, the write queue, the
check code, refresh and training.
-/
namespace Sys2Proof.Machine

/-! ### Arrays and parity (R435 to R441) -/

/-- The array number of SYS_SPARE.WORST (R464) of a global address; none for memory without spare rows. -/
def arrayOf (s : State) (a : Nat) : Option Nat :=
  match rgnOf s.isC a with
  | .sram b => some b
  | .itcm c => if c ≤ 4 then some (0x40 + 2 * c) else none
  | .dtcm c => if c ≤ 4 then some (0x41 + 2 * c) else none
  | _ => none

/-- First address and rows of an array (R435, R38). -/
def arraySpan (arr : Nat) : Option (Nat × Nat) :=
  if arr < 24 then some (0x10000000 + arr * 0x40000, 2048)
  else if arr = 0x40 then some (0x21000000, 1024)
  else if arr = 0x41 then some (0x21020000, 1024)
  else if 0x42 ≤ arr ∧ arr ≤ 0x49 then some (0x21040000 + (arr - 0x42) * 0x10000, 512)
  else none

/-- Every array that the patrol sweeps (R441). -/
def allArrays : List Nat := List.range 24 ++ (List.range 10).map (· + 0x40)

/-- Spare rows of an array (R435, log entry 31). -/
def spareRows : Nat := 41

/-- SYS_SPARE after the spares in use change (R464). -/
def spareShow (s : State) : State :=
  let used := fun a => (look a s.par.spares).getD 0
  let total := allArrays.foldl (fun n a => n + used a) 0
  let worst := allArrays.foldl (fun w a => if used w < used a then a else w) 0
  ((s.wr Reg.SYS_SPARE_USED (min 255 total)).wr Reg.SYS_SPARE_LEFT (spareRows - used worst)).wr Reg.SYS_SPARE_WORST worst

/-- A row is replaced by a spare, or its repair fails for want of one (R440, R663). -/
def spareReplace (arr row : Nat) (s : State) : State :=
  let used := (look arr s.par.spares).getD 0
  if used < spareRows then
    let s1 := spareShow { s with par := { s.par with spares := put arr (used + 1) s.par.spares, remap := s.par.remap ++ [row], dets := s.par.dets.filter (fun d => d.row != row) } }
    rmapWrite (healthPut 1 1 1 arr arr (spareRows - (used + 1)) (s1.raise 159))
  else alarm Reg.AGE_ALARMS_SRAMNOSP true (healthPut 2 1 2 arr arr row { s with par := { s.par with dets := s.par.dets.filter (fun d => d.row != row) } })

/-- Count a detection toward its row's repair (R440): replaced when the failing byte was written since the last detection there, or at the third
detection within 24 h. -/
def rowDetect (a : Nat) (s : State) : State :=
  match arrayOf s a with
  | none => s
  | some arr =>
    let row := a / 128
    match s.par.dets.find? (fun d => d.row == row) with
    | none => { s with par := { s.par with dets := s.par.dets ++ [RowDet.mk row [s.elapsed] []] } }
    | some d =>
      let times := s.elapsed :: d.times.filter (fun t => decide (s.elapsed < t + cycS 86400))
      if d.written.contains a ∨ 3 ≤ times.length then spareReplace arr row s
      else { s with par := { s.par with dets := s.par.dets.map (fun x => if x.row = row then RowDet.mk row times [] else x) } }

/-- EV156, at most once per millisecond (R437). -/
def ev156 (s : State) : State :=
  match s.par.ev156 with
  | some t => if t + cycMs 1 ≤ s.elapsed then ({ s with par := { s.par with ev156 := some s.elapsed } }).raise 156 else s
  | none => ({ s with par := { s.par with ev156 := some s.elapsed } }).raise 156

/-- SYS_PARLAST_INFO.WHERE of a global address (R463). -/
def parWhere (s : State) (a : Nat) : Nat :=
  match rgnOf s.isC a with
  | .sram _ => 1
  | .itcm c => if c ≤ 4 then 2 else 4
  | .dtcm c => if c ≤ 4 then 2 else 4
  | .sigProg _ => 5
  | .sigData _ => 5
  | _ => 6

/-- Record a detection (R437, R462, R463). -/
def parRecord (w a ini : Nat) (patrol refetched : Bool) (s : State) : State :=
  (((((s.wr Reg.SYS_PARLAST_ADDR a).set1 Reg.SYS_PARLAST_INFO_VALID).wr Reg.SYS_PARLAST_INFO_WHERE w).wr Reg.SYS_PARLAST_INFO_PATROL (b2n patrol)).wr Reg.SYS_PARLAST_INFO_REFETCHED
    (b2n refetched)).wr Reg.SYS_PARLAST_INFO_INIT ini

/-- A parity detection at a global address (R437): record, counter, EV156 and the row's repair. -/
def parDetect (a ini : Nat) (patrol : Bool) (s : State) : State :=
  let w := parWhere s a
  rowDetect a (ev156 ((parRecord w a ini patrol false s).inc (if w = 1 then Reg.SYS_PARCNT_SRAM else Reg.SYS_PARCNT_TCM)))

/-- The first byte of a span whose parity fails (R436). -/
def badIn (s : State) (a n : Nat) : Option Nat := (List.range n).findSome? (fun i => if s.par.bad.contains (a + i) then some (a + i) else none)

/-- A failure of the interconnect's parity (R442). -/
def fabParity (a ini : Nat) (s : State) : State := ev156 ((parRecord 6 a ini false false s).inc Reg.SYS_PARCNT_FAB)

/-- Write bytes of SRAM, a TCM or a signal-core memory (R436): each byte's parity is right again; a row loses its backing unless the code loader
writes it (R438). -/
def arrayWrite (a : Nat) (l : List Nat) (loader : Bool) (s : State) : State :=
  let hit := fun x => decide (a ≤ x) && decide (x < a + l.length)
  let inRow := fun r => decide (a / 128 ≤ r) && decide (r * 128 < a + l.length)
  { (s.stBytes a l) with par := { s.par with
      bad := s.par.bad.filter (fun x => !hit x)
      backed := if loader then s.par.backed else s.par.backed.filter (fun r => !inRow r)
      dets := s.par.dets.map (fun d => if inRow d.row then { d with written := d.written ++ (List.range l.length).map (· + a) } else d) } }

/-- Rows of an array. -/
def arrayRows (arr : Nat) : Nat := match arraySpan arr with | some (_, n) => n | none => 0

/-- The patrol's turn at an array has come (R441): 24 h to a pass, counted from the reset. -/
def patrolOk (arr : Nat) (s : State) : Bool :=
  let n := (look arr s.par.patrol).getD 0
  (arraySpan arr).isSome && decide (s.sysResetAt + n * cycS 86400 / max 1 (arrayRows arr) ≤ s.elapsed)

/-- PATROL_READ (R441): the upsets since the last read join the bytes whose parity fails; the next row of the array is read. -/
def patrolRead (arr : Nat) (upsets : List Nat) (s0 : State) : State :=
  let n := (look arr s0.par.patrol).getD 0
  let s := { s0 with par := { s0.par with bad := s0.par.bad ++ upsets.filter (fun a => !s0.par.bad.contains a), patrol := put arr (n + 1) s0.par.patrol } }
  match arraySpan arr with
  | none => s
  | some (base, rows) =>
    match badIn s (base + n % max 1 rows * 128) 128 with
    | none => s
    | some a => parDetect a 31 true (s.inc Reg.SYS_PATROLCNT)

/-- PATROL_READ. The upsets are bytes that a particle or a worn cell has flipped (log entry 32). -/
def execPatrolRead (arr : Nat) (upsets : List Nat) (dt : Nat) (s : State) : Host.Outcome State Fault Refusal :=
  .next (onlyIf (patrolOk arr (s.pass dt)) (patrolRead arr upsets (s.pass dt)) (s.pass dt))

/-! ### DRAM (R444 to R459) -/

/-- Change the controller's own state. -/
def State.drcW (s : State) (f : Drc → Drc) : State := { s with drc := f s.drc }

/-- Block, page and bank of a global address (R444). -/
def dramBlock (a : Nat) : Nat := (a - 0x80000000) / 64
def dramPage (b : Nat) : Nat := b / 31
def dramBank (b : Nat) : Nat := dramPage b % 8

/-- Port of an initiator (R452). -/
def dramPort (ini : Nat) : Nat :=
  if ini = 0 then 0 else if ini ≤ 4 then 1 else if ini = 19 then 2 else if ini = 16 then 3 else if ini = 17 then 4 else 5

/-- DRC_STAT.WQ follows the queue. -/
def wqShow (s : State) : State := s.wr Reg.DRC_STAT_WQ s.drc.wq.length

/-- An access to a block's page (R455). -/
def pageAccess (b : Nat) (s : State) : State :=
  let hit := match look (dramBank b) s.drc.pages with | some (p, _) => p == dramPage b | none => false
  (s.drcW (fun d => { d with pages := put (dramBank b) (dramPage b, s.elapsed) d.pages })).inc (if hit then Reg.DRC_PGHITCNT else Reg.DRC_PGMISSCNT)

/-- Write entry `e` to the DRAM (R449). -/
def wqWrite (e : WqEntry) (s : State) : State :=
  let full := e.bytes.length == 64
  let bad := s.drc.badBlocks.contains e.block
  let s1 := pageAccess e.block { s with mem := e.bytes.foldl (fun m p => memWr m (0x80000000 + e.block * 64 + p.1) (BitVec.ofNat 8 p.2)) s.mem }
  let s2 := s1.drcW (fun d => { d with wq := d.wq.filter (fun x => x.block != e.block) })
  wqShow
    (if full then s2.drcW (fun d => { d with badBlocks := d.badBlocks.filter (· != e.block), poison := d.poison.filter (· != e.block) })
     else if bad then (s2.drcW (fun d => { d with poison := if d.poison.contains e.block then d.poison else d.poison ++ [e.block] })).inc Reg.DRC_POISCNT
     else s2)

/-- A write of bytes of one block joins the queue (R448); false when the queue has no room. -/
def wqRoom (s : State) (b : Nat) : Bool := s.drc.wq.any (fun e => e.block == b) || decide (s.drc.wq.length < 32)

/-- Queue a write (R448). -/
def wqAdd (ini a : Nat) (l : List Nat) (s : State) : State :=
  let b := dramBlock a
  let add := fun (bs : List (Nat × Nat)) => (List.range l.length).foldl (fun acc i => put ((a - 0x80000000) % 64 + i) (l.getD i 0) acc) bs
  let wq := if s.drc.wq.any (fun e => e.block == b) then s.drc.wq.map (fun e => if e.block = b then { e with bytes := add e.bytes } else e)
            else s.drc.wq ++ [WqEntry.mk b (add []) ini s.elapsed]
  wqShow (s.drcW (fun d => { d with wq := wq, draining := d.draining || decide (24 ≤ wq.length) }))

/-- The byte that the queue holds for an address. -/
def wqByte (s : State) (a : Nat) : Option Nat := match s.drc.wq.find? (fun e => e.block == dramBlock a) with | some e => look ((a - 0x80000000) % 64) e.bytes | none => none

/-- Every byte of a read is queued (R450). -/
def wqCovers (s : State) (a n : Nat) : Bool := (List.range n).all (fun i => (wqByte s (a + i)).isSome)

/-- The blocks of a span. -/
def dramSpan (a n : Nat) : List Nat := (List.range (dramBlock (a + n - 1) + 1 - dramBlock a)).map (· + dramBlock a)

/-- Write every queued entry that a span overlaps (R450). -/
def wqFlushSpan (a n : Nat) (s : State) : State :=
  (dramSpan a n).foldl (fun t b => match t.drc.wq.find? (fun e => e.block == b) with | some e => wqWrite e t | none => t) s

/-- A read of a block that fails its check twice (R447): counted, recorded, EV157. -/
def dramFail (b ini : Nat) (s : State) : State :=
  ((((s.inc Reg.DRC_CHKCNT).raise 157).wr Reg.DRC_CHKADDR (0x80000000 + b * 64)).wr Reg.DRC_CHKINFO_POISON (b2n (s.drc.poison.contains b))).wr Reg.DRC_CHKINFO_INIT ini

/-- A read served by the DRAM (R447, R450): none of the data when a block fails its check. -/
def dramServe (ini a n : Nat) (s0 : State) : Option (List Nat) × State :=
  if wqCovers s0 a n then (some ((List.range n).map (fun i => (wqByte s0 (a + i)).getD 0)), s0.inc Reg.DRC_FWDCNT)
  else
    let s := (dramSpan a n).foldl (fun t b => pageAccess b t) (wqFlushSpan a n s0)
    match (dramSpan a n).find? (fun b => s.drc.badBlocks.contains b) with
    | some b => (none, dramFail b ini s)
    | none => (some (memRdBytes s.mem a n), s)

/-- A write by an engine of bytes that may span blocks: each block's part joins the queue after room is made (R451). -/
def dramPut (ini a : Nat) (l : List Nat) (s : State) : State :=
  (dramSpan a l.length).foldl (fun t b =>
    let lo := max a (0x80000000 + b * 64)
    let hi := min (a + l.length) (0x80000000 + b * 64 + 64)
    let t1 := if wqRoom t b then t else match t.drc.wq with | e :: _ => wqWrite e t | [] => t
    wqAdd ini lo ((l.drop (lo - a)).take (hi - lo)) t1) s

/-- Urgency of an age against a target in ns (R454). -/
def dramUrgency (age target : Nat) : Nat :=
  let ns := age * 10000 / 3072
  if ns * 2 < target then 0 else if ns * 4 < target * 3 then 1 else if ns < target then 2 else 3

/-- Urgency of a waiting read. -/
def reqUrgency (s : State) (r : DramReq) : Nat := dramUrgency (s.elapsed - r.at_) (s.rd (Reg.DRC_PTGT_TARGET (dramPort r.src)))

/-- A waiting read finds its page open. -/
def reqHit (s : State) (r : DramReq) : Bool := match look (dramBank (dramBlock r.addr)) s.drc.pages with | some (p, _) => p == dramPage (dramBlock r.addr) | none => false

/-- The order of R454 between two reads: higher urgency, then an open page, then the older one. -/
def reqBefore (s : State) (x y : DramReq) : Bool :=
  let ux := reqUrgency s x
  let uy := reqUrgency s y
  decide (uy < ux) || (ux == uy && ((reqHit s x && !reqHit s y) || (reqHit s x == reqHit s y && decide (x.at_ < y.at_))))

/-- The read chosen for the next command slot among the oldest of each source (R453, R454). -/
def reqChoose (s : State) : Option DramReq :=
  s.drc.reqs.foldl (fun best r =>
    if s.drc.reqs.find? (fun x => x.src == r.src) == some r then
      match best with | none => some r | some b => if reqBefore s r b then some r else best
    else best) none

/-- Count the requests that have reached urgency 3 (R454). -/
def reqLate (s : State) : State :=
  let late := s.drc.reqs.filter (fun r => !r.late && reqUrgency s r == 3)
  late.foldl (fun t r => t.inc (Reg.DRC_PLATECNT (dramPort r.src)))
    (s.drcW (fun d => { d with reqs := d.reqs.map (fun r => if reqUrgency s r = 3 then { r with late := true } else r) }))

/-- DRAM_COMMAND_ISSUE (R453, R454, R447): the chosen read is served. `upset` 1: its first read fails its check and the second passes; 2: its block's
stored data has been upset. -/
def dramIssue (upset : Nat) (s0 : State) : State :=
  let s := reqLate s0
  match reqChoose s with
  | none => s
  | some r =>
    let b := dramBlock r.addr
    let s1 := s.drcW (fun d => { d with reqs := d.reqs.erase r, badBlocks := if upset = 2 ∧ d.badBlocks.contains b = false then d.badBlocks ++ [b] else d.badBlocks })
    let (data, s2) := dramServe r.src r.addr r.len s1
    let s3 := if upset = 1 ∧ data.isSome ∧ wqCovers s1 r.addr r.len = false then s2.inc Reg.DRC_RETRYOKCNT else s2
    s3.drcW (fun d => { d with rsps := d.rsps ++ [DramRsp.mk r.src r.addr data] })

/-- DRAM traffic runs: the part has a DRAM and PD_MEM is On. -/
def dramUp (s : State) : Bool := s.isC && s.rd (Reg.PWR_DOM_STATE 12) == 0

/-- DRAM_COMMAND_ISSUE. -/
def execDramCommandIssue (upset dt : Nat) (s : State) : Host.Outcome State Fault Refusal :=
  .next (onlyIf (dramUp (s.pass dt) && !(s.pass dt).drc.reqs.isEmpty) (dramIssue upset (s.pass dt)) (s.pass dt))

/-- An entry may be written now (R451): the queue drains, no read waits, or the entry has reached urgency 3; never before an earlier read of the same
block from the same initiator. -/
def drainOk (i : Nat) (s : State) : Bool :=
  match s.drc.wq[i]? with
  | none => false
  | some e =>
    dramUp s && (s.drc.draining || s.drc.reqs.isEmpty || dramUrgency (s.elapsed - e.at_) (s.rd (Reg.DRC_PTGT_TARGET (dramPort e.src))) == 3) &&
      !s.drc.reqs.any (fun r => r.src == e.src && decide (r.at_ ≤ e.at_) && (dramSpan r.addr r.len).contains e.block)

/-- WRITE_QUEUE_DRAIN (R449, R451); draining ends at 8 entries. -/
def drain (i : Nat) (s : State) : State :=
  match s.drc.wq[i]? with
  | none => s
  | some e => (wqWrite e s).drcW (fun d => { d with draining := d.draining && decide (8 < d.wq.length) })

/-- WRITE_QUEUE_DRAIN of entry `i`. -/
def execWriteQueueDrain (i dt : Nat) (s : State) : Host.Outcome State Fault Refusal :=
  .next (onlyIf (drainOk i (s.pass dt)) (drain i (s.pass dt)) (s.pass dt))

/-- PGIDLE MEM cycles of 533 MHz in FIRN cycles (R455). -/
def pgIdle (s : State) : Nat := cdiv (s.rd Reg.DRC_STAT_PGIDLE * 307200) 533000

/-- A bank's page has stood idle for PGIDLE (R455). -/
def pageIdleOk (bank : Nat) (s : State) : Bool := match look bank s.drc.pages with | some (_, t) => decide (t + pgIdle s ≤ s.elapsed) | none => false

/-- PAGE_IDLE_CLOSE (R455, R446). -/
def execPageIdleClose (bank dt : Nat) (s : State) : Host.Outcome State Fault Refusal :=
  .next (onlyIf (pageIdleOk bank (s.pass dt)) ((s.pass dt).drcW (fun d => { d with pages := del bank d.pages })) (s.pass dt))

/-- The refresh interval in FIRN cycles (R457): 3.904 µs over the multiplier. -/
def refInterval (s : State) : Nat := 3904 * 3072 / 10000 / 2 ^ s.rd Reg.DRC_STAT_REFMUL

/-- A bank's refresh is due (R457). -/
def refreshOk (bank : Nat) (s : State) : Bool := s.isC && decide (bank < 8) && decide ((look bank s.drc.refAt).getD 0 + refInterval s ≤ s.elapsed)

/-- DRAM_REFRESH of one bank (R457). -/
def execDramRefresh (bank dt : Nat) (s : State) : Host.Outcome State Fault Refusal :=
  .next (onlyIf (refreshOk bank (s.pass dt)) ((s.pass dt).drcW (fun d => { d with refAt := put bank (s.pass dt).elapsed d.refAt })) (s.pass dt))

/-- DRAM_TEMP_POLL (R457): `temp` 0 up to 85 °C, 1 up to 105 °C, 2 above, 3 above the rated limit. The record of the rated limit has no code in R663:
its area and kind are free (log entry 33). -/
def tempPoll (temp : Nat) (s : State) : State :=
  let mul := min 2 temp
  let s1 := s.drcW (fun d => { d with tempAt := s.elapsed })
  if temp = 3 ∧ s.rd Reg.DRC_STAT_REFMUL = 2 then healthPut 2 (s.freeAt 0 % 256) (s.freeAt 1 % 256) 0 0 0 (s1.drawn 2)
  else if mul = s.rd Reg.DRC_STAT_REFMUL then s1 else (s1.wr Reg.DRC_STAT_REFMUL mul).raise 158

/-- DRAM_TEMP_POLL, every 16 ms. -/
def execDramTempPoll (temp dt : Nat) (s : State) : Host.Outcome State Fault Refusal :=
  .next (onlyIf (dramUp (s.pass dt) && decide ((s.pass dt).drc.tempAt + cycMs 16 ≤ (s.pass dt).elapsed)) (tempPoll temp (s.pass dt)) (s.pass dt))

/-- DQS_MEASURE (R458): a drift of more than 1/16 of a bit time retrains. -/
def dqsMeasure (drift : Bool) (s : State) : State :=
  let s1 := s.drcW (fun d => { d with dqsAt := s.elapsed })
  if drift then s1.inc Reg.DRC_RETRAINCNT else s1

/-- DQS_MEASURE, every 100 ms. -/
def execDqsMeasure (drift : Bool) (dt : Nat) (s : State) : Host.Outcome State Fault Refusal :=
  .next (onlyIf (dramUp (s.pass dt) && (s.pass dt).on Reg.DRC_STAT_TRAINED && decide ((s.pass dt).drc.dqsAt + cycMs 100 ≤ (s.pass dt).elapsed)) (dqsMeasure drift (s.pass dt)) (s.pass dt))


/-- A full training is due (R458): the die temperature has moved by more than 30 °C. -/
def retrainOk (s : State) : Bool := dramUp s && s.on Reg.DRC_STAT_TRAINED && decide (30 < (dieTemp s - s.drc.trainTemp).natAbs)

/-- FULL_RETRAIN (R458). -/
def fullRetrain (s : State) : State := ((s.drcW (fun d => { d with trainTemp := dieTemp s })).inc Reg.DRC_RETRAINCNT).raise 158

/-- FULL_RETRAIN. -/
def execFullRetrain (dt : Nat) (s : State) : Host.Outcome State Fault Refusal :=
  .next (onlyIf (retrainOk (s.pass dt)) (fullRetrain (s.pass dt)) (s.pass dt))

/-! ### Memory as an engine reaches it -/

/-- Bytes that an engine reads at a global address: none when parity or a check code fails (R437, R447). -/
def engineRead (ini a n : Nat) (s : State) : Option (List Nat) × State :=
  if 0x80000000 ≤ a then dramServe ini a n s
  else match badIn s a n with
    | some x => (none, parDetect x ini false s)
    | none => (some (memRdBytes s.mem a n), s)

/-- Bytes that an engine writes at a global address. -/
def engineWrite (ini a : Nat) (l : List Nat) (s : State) : State :=
  if l.isEmpty then s else if 0x80000000 ≤ a then dramPut ini a l s else arrayWrite a l false s

end Sys2Proof.Machine
end

