-- ==== Sys2Proof/Machine/FlcOps.lean ====
section
/-!
DEFINITION. The flash store and its controller (12_flash_store.md): the map, partitions, the application queue, reading,
programming, erasing, wear, retirement and the code-loader path.
-/
namespace Sys2Proof.Machine

/-- Change the controller's own state. -/
def State.flcW (s : State) (f : Flc → Flc) : State := { s with flc := f s.flc }

/-! ### The store map and partitions (R473 to R477) -/

/-- Physical block of a store-logical block (R473): its factory block, or the one that replaced it. -/
def physOf (s : State) (l : Nat) : Nat := (look l s.flc.map).getD ((l % 2) * 1024 + 4 + l / 2)

/-- Plane of a physical block. -/
def planeOf (p : Nat) : Nat := p / 1024

/-- A partition's first block, blocks and ACCESS (R475); no blocks for an undefined one. -/
def partOf (s : State) (k : Nat) : Part :=
  match k with
  | 0 => ⟨0, 64, 0⟩
  | 1 => ⟨64, 64, 0⟩
  | 2 => ⟨128, 32, 4⟩
  | 3 => ⟨160, 128, 0⟩
  | k => s.flc.parts.getD (k - 4) ⟨0, 0, 0⟩

/-- KIND of a partition (R476). -/
def partKind (s : State) (k : Nat) : Nat := if (partOf s k).nblk = 0 then 0 else if k = 2 then 2 else if k ≤ 3 then 1 else 3

/-- The partition of a store-logical block. -/
def partOfBlock (s : State) (l : Nat) : Nat :=
  ((List.range 12).find? (fun k => decide ((partOf s k).first ≤ l) && decide (l < (partOf s k).first + (partOf s k).nblk))).getD 0

/-- A programmed page of a store-logical block. -/
def pageAt (s : State) (l page : Nat) : Option FPage := look (physOf s l * 64 + page) s.flc.pages

/-- Bytes of a page as a read returns them (R490): 0xFF where it is erased. -/
def pageData (s : State) (l page : Nat) : List Nat := match pageAt s l page with | some p => p.data | none => List.replicate 4096 255
def pageMeta (s : State) (l page : Nat) : List Nat := match pageAt s l page with | some p => p.meta_ | none => List.replicate 16 255

/-- FLC_STAT's counts follow the pool and the Moraine table (R507). -/
def flcShow (s : State) : State := (s.wr Reg.FLC_STAT_SPARES s.flc.pool.length).wr Reg.FLC_STAT_MORAINE s.flc.moraine.length

/-- The store goes read-only when the pool is empty (R501). -/
def roEnter (s : State) : State :=
  if s.flc.pool.isEmpty ∧ s.on Reg.FLC_STAT_RO = false then
    alarm Reg.AGE_ALARMS_STORERO true (healthPut 3 4 3 0 s.flc.moraine.length 0 ((s.set1 Reg.FLC_STAT_RO).raise 162))
  else s

/-- A block is retired (R500): the Moraine table, EV161, a health record, and read-only mode when the pool is empty (R501). -/
def blockRetire (p l cause : Nat) (s : State) : State :=
  let s1 := (flcShow (s.flcW (fun f => { f with moraine := f.moraine ++ [Moraine.mk p l cause (partOfBlock s l)] }))).raise 161
  let s2 := rmapWrite (healthPut 1 4 2 p p s1.flc.pool.length s1)
  roEnter (if s2.flc.pool.length ≤ 8 then alarm Reg.AGE_ALARMS_SPLOW true s2 else s2)

/-- A spare of the plane when one is left, and of the other plane otherwise (R473). -/
def spareFor (s : State) (pl : Nat) : Option Nat :=
  match s.flc.pool.find? (fun p => planeOf p == pl) with
  | some p => some p
  | none => s.flc.pool.head?

/-- Take a spare from the pool after `fails` of them have failed and been retired (R496). -/
def spareTake (pl l cause fails : Nat) (s : State) : Option Nat × State :=
  match fails with
  | 0 => (match spareFor s pl with | some p => (some p, flcShow (s.flcW (fun f => { f with pool := f.pool.erase p }))) | none => (none, s))
  | n + 1 =>
    match spareFor s pl with
    | none => (none, s)
    | some p => spareTake pl l cause n (blockRetire p l cause (flcShow (s.flcW (fun f => { f with pool := f.pool.erase p }))))

/-- Erase a physical block: its pages, its pointer and its count (R494, R476). -/
def blockErase (p : Nat) (s : State) : State :=
  s.flcW (fun f => { f with pages := f.pages.filter (fun x => x.1 / 64 != p), ptrs := put p 0 f.ptrs, erases := put p ((look p f.erases).getD 0 + 1) f.erases })

/-- Program a page of a physical block. -/
def pageProgram (p page : Nat) (data mt : List Nat) (s : State) : State := s.flcW (fun f => { f with pages := put (p * 64 + page) (FPage.mk data mt) f.pages })

/-- Let a physical block serve a store-logical block, replaced in the field. -/
def blockMap (l p : Nat) (s : State) : State :=
  s.flcW (fun f => { f with map := put l p f.map, replaced := if f.replaced.contains l then f.replaced else f.replaced ++ [l] })

/-- Copy the pages below `upTo` of one physical block into another; the lost ones stay erased (R495). -/
def blockCopy (old new upTo : Nat) (lost : List Nat) (s : State) : State :=
  (List.range upTo).foldl (fun t i =>
    match look (old * 64 + i) t.flc.pages with
    | some pg => if lost.contains i then t else pageProgram new i pg.data pg.meta_ t
    | none => t) s

/-- After a reset the pointers stand behind the last programmed page of each block (R494). -/
def ptrSearch (pages : List (Nat × FPage)) : List (Nat × Nat) := pages.foldl (fun l e => put (e.1 / 64) (max ((look (e.1 / 64) l).getD 0) (e.1 % 64 + 1)) l) []

/-- The next-page pointer of a store-logical block (R494). -/
def nextPage (s : State) (l : Nat) : Nat := (look (physOf s l) s.flc.ptrs).getD 0

/-! ### Execute-only regions (R504 to R506) -/

/-- A page's block lies in an enabled execute-only region (R504). -/
def inXo (s : State) (part lblk : Nat) : Bool :=
  (List.range 16).any (fun n => s.on (Reg.FLC_XO_EN n) && s.rd (Reg.FLC_XO_PART n) == part && decide (s.rd (Reg.FLC_XO_FIRST n) ≤ lblk) &&
    decide (lblk < s.rd (Reg.FLC_XO_FIRST n) + s.rd (Reg.FLC_XO_NBLK n)))

/-- A write of FLC_XOn (R506): refused with CFGERR when locked or invalid. -/
def xoWrite (n v : Nat) (customer : Bool) (s : State) : State :=
  let part := bitsOf v 29 26
  let bad := bitOf v 30 == 1 && (decide (partKind s part ≤ 1) || decide ((partOf s part).nblk < bitsOf v 25 15 + bitsOf v 14 4) || (customer && decide (part < 2 ∨ part = 3)))
  if s.on (Reg.FLC_XO_LOCK n) ∨ bad then s.set1 Reg.FLC_QAPP_STAT_CFGERR
  else ((((s.wr (Reg.FLC_XO_LOCK n) (bitOf v 31)).wr (Reg.FLC_XO_EN n) (bitOf v 30)).wr (Reg.FLC_XO_PART n) part).wr (Reg.FLC_XO_FIRST n) (bitsOf v 25 15)).wr
    (Reg.FLC_XO_NBLK n) (bitsOf v 14 4)

/-! ### The application queue (R479 to R489) -/

/-- Ring size N (R480). -/
def qN (s : State) : Nat := 2 ^ s.rd Reg.FLC_QAPP_SIZE_LOG2N

/-- Room in the completion ring for one more descriptor (R481). -/
def qRoom (s : State) : Bool := decide ((s.rd Reg.FLC_QAPP_HEAD_HEAD + 65536 - s.rd Reg.FLC_QAPP_CACK_CACK) % 65536 < qN s)

/-- A descriptor waits in the ring. -/
def qWaits (s : State) : Bool := s.on Reg.FLC_QAPP_CTL_EN && s.rd Reg.FLC_QAPP_HEAD_HEAD != s.rd Reg.FLC_QAPP_DOORBELL_TAIL

/-- STALL and IDLE follow the queue (R481, R488); EV164 when STALL sets. -/
def qShow (s : State) : State :=
  let stall := qWaits s && !qRoom s
  let s1 := if stall && !s.on Reg.FLC_QAPP_STAT_STALL then s.raise 164 else s
  (s1.wr Reg.FLC_QAPP_STAT_STALL (b2n stall)).wr Reg.FLC_QAPP_STAT_IDLE (b2n (s.flc.taken.isEmpty && s.flc.run.isEmpty))

/-- A write of the doorbell (R480). -/
def flcDoorbell (v : Nat) (s : State) : State :=
  let head := s.rd Reg.FLC_QAPP_HEAD_HEAD
  let dNew := (v % 65536 + 65536 - head) % 65536
  let dOld := (s.rd Reg.FLC_QAPP_DOORBELL_TAIL + 65536 - head) % 65536
  if dOld ≤ dNew ∧ dNew ≤ qN s then qShow (s.wr Reg.FLC_QAPP_DOORBELL_TAIL (v % 65536)) else s.set1 Reg.FLC_QAPP_STAT_DBERR

/-- A write of CACK (R480). -/
def flcCack (v : Nat) (s : State) : State :=
  let old := s.rd Reg.FLC_QAPP_CACK_CACK
  if (v % 65536 + 65536 - old) % 65536 ≤ (s.rd Reg.FLC_QAPP_HEAD_CDONE + 65536 - old) % 65536 then qShow (s.wr Reg.FLC_QAPP_CACK_CACK (v % 65536)) else s.set1 Reg.FLC_QAPP_STAT_DBERR

/-- What a completion record says beside the descriptor (R485). -/
structure FDone where
  status : Nat
  reloc : Bool
  refresh : Bool
  susp : Bool
  blank : Bool
  maxcorr : Nat
  rset : Nat
  pulses : Nat
  ndone : Nat
  lost : Nat
  since : Nat
  deriving DecidableEq, Repr

/-- A completion without a flash operation. -/
def FDone.only (status now : Nat) : FDone := { status := status, reloc := false, refresh := false, susp := false, blank := false, maxcorr := 0, rset := 0, pulses := 0, ndone := 0, lost := 0, since := now }

/-- Write a completion record of the application queue (R485): 16 bytes at its slot, CDONE, and EV160 for IRQ or a status other than OK. -/
def flcComplete (d : FDesc) (r : FDone) (s : State) : State :=
  let i := s.rd Reg.FLC_QAPP_HEAD_CDONE
  let cf := b2n r.reloc + 2 * b2n r.refresh + 4 * b2n r.susp + 8 * b2n r.blank + 128 * bitOf i (s.rd Reg.FLC_QAPP_SIZE_LOG2N)
  let us := (s.elapsed - r.since) * 10 / 3072
  let rec_ := leBytes 2 d.tag ++ [r.status, cf] ++ leBytes 2 d.idx ++ [r.maxcorr, r.rset, r.pulses, r.ndone, r.lost, 0] ++ leBytes 4 (min 0xFFFFFFFF us)
  let s1 := engineWrite 16 (s.rd Reg.FLC_QAPP_CBASE + 16 * (i % qN s)) rec_ (s.flcW (fun f => { f with taken := f.taken.erase d }))
  let s2 := s1.wr Reg.FLC_QAPP_HEAD_CDONE ((i + 1) % 65536)
  qShow (if bitOf d.flags 0 = 1 ∨ r.status ≠ 0 then s2.raise 160 else s2)

/-- A completion of any queue: only the application queue's descriptors have records. -/
def flcDone (d : FDesc) (r : FDone) (s : State) : State := if d.q = 3 then flcComplete d r s else s.flcW (fun f => { f with taken := f.taken.erase d })

/-- A write of FLC_QAPP_CTL.EN (R488). -/
def flcEn (v : Nat) (s : State) : State :=
  let s1 := s.wr Reg.FLC_QAPP_CTL_EN (v % 2)
  if v % 2 = 1 then qShow s1
  else qShow ((s1.flc.taken.filter (fun d => d.q == 3)).foldl (fun t d => flcComplete d (FDone.only 12 t.elapsed) t) s1)

/-- The ring bases or the size have been written (R489): the indices return to 0. -/
def qReinit (s : State) : State :=
  qShow ((((s.wr Reg.FLC_QAPP_DOORBELL_TAIL 0).wr Reg.FLC_QAPP_HEAD_HEAD 0).wr Reg.FLC_QAPP_HEAD_CDONE 0).wr Reg.FLC_QAPP_CACK_CACK 0)

/-- Customer shared SRAM or customer DRAM (R479). -/
def inCustomerRam (s : State) (a n : Nat) : Bool :=
  (decide (0x10200000 ≤ a) && decide (a + n ≤ 0x10600000)) || (s.isC && decide (0x80000000 ≤ a) && decide (a + n ≤ 0x90000000))

/-- A class H write of a ring base or the size (R509, R510, R489): `f` is the field, `ok` its own range. -/
def qHWrite (f : Field) (v : Nat) (ok : Bool) (s : State) : State :=
  if s.on Reg.FLC_QAPP_CTL_EN ∨ s.on Reg.FLC_QAPP_STAT_IDLE = false ∨ ok = false then s.set1 Reg.FLC_QAPP_STAT_CFGERR else qReinit (s.wr f v)

/-- A buffer in the ranges of R479 that the queue's owner may use (R537), at every 256 KiB bank or 64 MiB entry it touches. -/
def bufOk (s : State) (a n : Nat) (write : Bool) : Bool :=
  let ini := s.rd (Reg.PROT_OWN_OWNER 39)
  inCustomerRam s a n &&
    (List.range (n / 0x40000 + 2)).all (fun i => let x := min (a + i * 0x40000) (a + n - 1); rgnVerdict s ini false write true x == .ok)

/-- An execute-only row lies in a span (R505). -/
def xoIn (s : State) (a n : Nat) : Bool := s.par.xo.any (fun r => decide (r * 128 < a + n) && decide (a < r * 128 + 128))

/-- The store-logical block of a descriptor. -/
def dBlk (s : State) (d : FDesc) : Nat := (partOf s d.part).first + d.lblk

/-- The next-page pointer as the descriptors taken before will leave it (R494, R484). -/
def ptrAfter (s : State) (l : Nat) : Nat :=
  (s.flc.run.map (fun x => x.2.d) ++ s.flc.taken).foldl (fun p d => if dBlk s d = l then (if d.op = 2 then d.page + d.npage else if d.op = 3 then 0 else p) else p) (nextPage s l)

/-- The first status of R483 that applies to a descriptor's bytes; none when it may run. -/
def descCheck (s : State) (d : FDesc) (reserved : Bool) : Option Nat :=
  let p := partOf s d.part
  let need := match d.op with | 1 => 0 | 2 => 1 | 3 => 1 | _ => 2
  let n := d.npage * 4096
  if d.op = 0 ∨ 5 < d.op ∨ reserved ∨ 4 ≤ d.flags ∨ ((d.op = 3 ∨ d.op = 5) ∧ (d.npage ≠ 0 ∨ d.page ≠ 0)) then some 6
  else if d.op = 5 then none
  else if partKind s d.part = 0 then some 4
  else if bitOf p.access need = 0 ∨ (d.op ≠ 4 ∧ inXo s d.part d.lblk) then some 8
  else if p.nblk ≤ d.lblk ∨ (d.op ≠ 3 ∧ (d.npage = 0 ∨ 64 < d.page + d.npage)) then some 5
  else if (d.op = 1 ∨ d.op = 2) ∧ (d.buf % 4 ≠ 0 ∨ bufOk s d.buf n (d.op == 1) = false ∨ (d.meta_ ≠ 0 ∧ bufOk s d.meta_ (d.npage * 16) (d.op == 1) = false)) then some 7
  else if d.op = 4 ∧ (d.buf % 128 ≠ 0 ∨
      ((bufOk s d.buf n true && decide (d.buf < 0x80000000)) = false ∧
        (List.range 4).any (fun c => decide (0x21040000 + 0x20000 * c ≤ d.buf) && decide (d.buf + n ≤ 0x21050000 + 0x20000 * c)) = false)) then some 7
  else if (d.op = 2 ∨ d.op = 3) ∧ s.on Reg.FLC_STAT_RO then some 3
  else if d.op = 2 ∧ d.page < ptrAfter s (dBlk s d) then some 9
  else none

/-- The descriptor that 32 bytes hold (R482). -/
def descOf (idx now : Nat) (b : List Nat) : FDesc :=
  { q := 3, idx := idx, op := b.getD 0 0, flags := b.getD 1 0, tag := leAt b 2 2, part := b.getD 4 0, npage := b.getD 5 0, page := b.getD 6 0, lblk := leAt b 8 4,
    buf := leAt b 16 4, meta_ := leAt b 20 4, at_ := now }

/-- DESCRIPTOR_TAKE (R480, R481, R483, R487). -/
def descTake (s0 : State) : State :=
  let idx := s0.rd Reg.FLC_QAPP_HEAD_HEAD
  if !qRoom s0 then qShow s0
  else
    let (b, s1) := engineRead 16 (s0.rd Reg.FLC_QAPP_DBASE + 32 * (idx % qN s0)) 32 s0
    let s := s1.wr Reg.FLC_QAPP_HEAD_HEAD ((idx + 1) % 65536)
    match b with
    | none => flcComplete { descOf idx s.elapsed (List.replicate 32 0) with op := 0 } (FDone.only 10 s.elapsed) s
    | some b =>
      let d := descOf idx s.elapsed b
      let reserved := b.getD 7 0 != 0 || leAt b 12 4 != 0 || leAt b 24 8 != 0
      match descCheck s d reserved with
      | some st => flcComplete d (FDone.only st s.elapsed) (if st = 8 ∧ inXo s d.part d.lblk then s.inc Reg.FLC_DENYCNT else s)
      | none =>
        if d.op = 5 ∧ (bitOf d.flags 1 = 0 ∨ (s.flc.taken.isEmpty ∧ s.flc.run.isEmpty)) then flcComplete d (FDone.only 0 s.elapsed) s
        else qShow (s.flcW (fun f => { f with taken := f.taken ++ [d] }))

/-- PD_MEM serves (R630). -/
def flcUp (s : State) : Bool := s.rd (Reg.PWR_DOM_STATE 12) == 0

/-- DESCRIPTOR_TAKE. -/
def execDescriptorTake (dt : Nat) (s : State) : Host.Outcome State Fault Refusal := .next (onlyIf (flcUp (s.pass dt) && qWaits (s.pass dt)) (descTake (s.pass dt)) (s.pass dt))

/-! ### Choosing and starting operations (R478, R484, R497) -/

/-- Priority of a waiting descriptor, low first (R478): LOAD rides the code-loader queue (R503); an application descriptor that has waited 20 ms goes
next after it. -/
def descPrio (s : State) (d : FDesc) : Nat := if d.op = 4 ∨ d.q = 0 then 0 else if d.q = 3 ∧ d.at_ + cycMs 20 ≤ s.elapsed then 1 else d.q + 1

/-- The oldest waiting descriptor of its queue (R484) that nothing earlier holds back: FENCE, an operation on its block. -/
def descReady (s : State) (d : FDesc) : Bool :=
  s.flc.taken.find? (fun x => x.q == d.q) == some d && (bitOf d.flags 1 == 0 || !s.flc.run.any (fun r => r.2.d.q == d.q)) &&
    !s.flc.run.any (fun r => r.2.d.q == d.q && dBlk s r.2.d == dBlk s d)

/-- The erase that runs or is suspended on a plane. -/
def eraseOn (s : State) (pl : Nat) : Option FRun :=
  match look pl s.flc.run with
  | some r => if r.d.op = 3 then some r else look (pl + 2) s.flc.run
  | none => look (pl + 2) s.flc.run

/-- The next descriptor for a plane (R478). -/
def descNext (s : State) (pl : Nat) : Option FDesc :=
  s.flc.taken.foldl (fun best d =>
    if d.op ≠ 5 ∧ planeOf (physOf s (dBlk s d)) = pl ∧ descReady s d = true then
      match best with | none => some d | some b => if descPrio s d < descPrio s b then some d else best
    else best) none

/-- A read waits for a plane (R497): a READ or LOAD, or a fetch's reload. -/
def readWaits (s : State) (pl : Nat) : Bool :=
  (match descNext s pl with | some d => d.op == 1 || d.op == 4 | none => false) ||
    s.flc.refetch.any (fun r => r.done.isNone && (match look r.row s.flc.sources with | some (k, _) => planeOf (physOf s (k / 64)) == pl | none => false))

/-- An operation of kind `op` can start on a plane: the plane is free, and a program or an erase waits for a suspended erase (R497). -/
def startOk (op pl : Nat) (s : State) : Bool :=
  flcUp s && (look pl s.flc.run).isNone &&
    (match descNext s pl with
     | some d => d.op == op && (op == 1 || op == 4 || (look (pl + 2) s.flc.run).isNone) &&
        (match look (pl + 2) s.flc.run with | some e => decide (e.susps < 15) || e.susp.isSome | none => true)
     | none => false)

/-- Start the plane's next operation; a read of a block under erase is refused with ERSUSP_HIT (R497). -/
def flcStart (pl : Nat) (s : State) : State :=
  match descNext s pl with
  | none => s
  | some d =>
    let hit := (d.op = 1 ∨ d.op = 4) ∧ (match eraseOn s pl with | some e => dBlk s e.d == dBlk s d | none => false) = true
    if hit then flcDone d (FDone.only 2 s.elapsed) (s.inc Reg.FLC_SUSPHITCNT)
    else qShow (s.flcW (fun f => { f with taken := f.taken.erase d, run := put pl (FRun.mk d s.elapsed 0 none) f.run }))

/-- READ (R490) starts on a plane. -/
def execRead (pl dt : Nat) (s : State) : Host.Outcome State Fault Refusal := .next (onlyIf (startOk 1 pl (s.pass dt)) (flcStart pl (s.pass dt)) (s.pass dt))

/-- PROG (R494) starts on a plane. -/
def execProg (pl dt : Nat) (s : State) : Host.Outcome State Fault Refusal := .next (onlyIf (startOk 2 pl (s.pass dt)) (flcStart pl (s.pass dt)) (s.pass dt))

/-- ERASE (R496) starts on a plane. -/
def execErase (pl dt : Nat) (s : State) : Host.Outcome State Fault Refusal := .next (onlyIf (startOk 3 pl (s.pass dt)) (flcStart pl (s.pass dt)) (s.pass dt))

/-- LOAD (R503) starts on a plane. -/
def execLoad (pl dt : Nat) (s : State) : Host.Outcome State Fault Refusal := .next (onlyIf (startOk 4 pl (s.pass dt)) (flcStart pl (s.pass dt)) (s.pass dt))

/-- The waiting NOP that may complete (R483): every earlier descriptor of its queue has. -/
def nopReady (s : State) : Option FDesc := match s.flc.taken with | d :: _ => if d.op = 5 ∧ s.flc.run.isEmpty then some d else none | [] => none

/-- FLC_NOP: a NOP with FENCE completes (R483). -/
def execFlcNop (dt : Nat) (s : State) : Host.Outcome State Fault Refusal :=
  .next (match nopReady (s.pass dt) with | some d => onlyIf (flcUp (s.pass dt)) (flcComplete d (FDone.only 0 (s.pass dt).elapsed) (s.pass dt)) (s.pass dt) | none => s.pass dt)

/-- SUSPn of a plane (R507). -/
def suspBit (pl : Nat) : Field := if pl = 0 then Reg.FLC_STAT_SUSP0 else Reg.FLC_STAT_SUSP1

/-- Suspend a plane's erase (R497). -/
def eraseSuspend (pl : Nat) (s : State) : State :=
  match look pl s.flc.run with
  | none => s
  | some r =>
    ((s.flcW (fun f => { f with run := put (pl + 2) { r with susps := r.susps + 1, susp := some s.elapsed } (del pl f.run) })).inc Reg.FLC_SUSPCNT).set1 (suspBit pl)

/-- ERASE_SUSPEND's occasion (R497). -/
def eraseSuspendOk (pl : Nat) (s : State) : Bool :=
  (match look pl s.flc.run with | some r => r.d.op == 3 && decide (r.susps < 15) | none => false) && readWaits s pl

/-- ERASE_SUSPEND. -/
def execEraseSuspend (pl dt : Nat) (s : State) : Host.Outcome State Fault Refusal := .next (onlyIf (eraseSuspendOk pl (s.pass dt)) (eraseSuspend pl (s.pass dt)) (s.pass dt))

/-- Resume a plane's erase (R497). -/
def eraseResume (pl : Nat) (s : State) : State :=
  match look (pl + 2) s.flc.run with
  | none => s
  | some r => (s.flcW (fun f => { f with run := put pl { r with susp := none } (del (pl + 2) f.run) })).clr (suspBit pl)

/-- ERASE_RESUME's occasion (R497): the array is free, and no read waits or 2 ms have passed. -/
def eraseResumeOk (pl : Nat) (s : State) : Bool :=
  (look pl s.flc.run).isNone && (match look (pl + 2) s.flc.run with | some r => !readWaits s pl || decide ((r.susp.getD 0) + cycMs 2 ≤ s.elapsed) | none => false)

/-- ERASE_RESUME. -/
def execEraseResume (pl dt : Nat) (s : State) : Host.Outcome State Fault Refusal := .next (onlyIf (eraseResumeOk pl (s.pass dt)) (eraseResume pl (s.pass dt)) (s.pass dt))

/-! ### The end of an operation (R485, R490 to R497) -/

/-- Change a block group's figures (R499). -/
def groupMod (l : Nat) (g : GroupWear → GroupWear) (s : State) : State :=
  s.flcW (fun f => { f with groups := put (l / 64) (g ((look (l / 64) f.groups).getD ⟨0, 0, 0, 0⟩)) f.groups })

/-- Count a page read (R490, R491, R499): corrections, retries, the group's figures and the refresh mark. -/
def readCount (l : Nat) (o : PageOut) (s : State) : State :=
  let s1 := s.count Reg.FLC_CORRCNT o.cws
  let s2 := if 0 < o.rset ∧ o.unc = false then s1.inc Reg.FLC_RETRYCNT else s1
  let s3 := groupMod l (fun g => { g with reads := g.reads + 1, retries := g.retries + b2n (decide (0 < o.rset)) }) s2
  if o.unc = false ∧ (16 < o.corr ∨ 0 < o.rset) then s3.flcW (fun f => { f with marks := if f.marks.contains l then f.marks else f.marks ++ [l] }) else s3

/-- A page is uncorrectable (R492): counted, EV163, a health record (R663). -/
def readUnc (l : Nat) (s : State) : State := healthPut 2 4 4 (partOfBlock s l) (partOfBlock s l) l ((s.inc Reg.FLC_UNCCNT).raise 163)

/-- A page without a correction. -/
def PageOut.clean : PageOut := ⟨0, 0, 0, false⟩

/-- What a run of page reads has come to: its status and record so far. -/
structure ReadAcc where
  st : State
  rec_ : FDone
  stop : Bool

/-- One page of a READ or LOAD: `sink` takes its data, or none when the write fails (R487, R492). -/
def readPage (l page i : Nat) (o : PageOut) (sink : Nat → State → Option State) (a : ReadAcc) : ReadAcc :=
  if a.stop then a
  else
    let blank := (pageAt a.st l page).isNone
    let o := if blank then PageOut.clean else o
    let s1 := readCount l o a.st
    if o.unc then { a with st := readUnc l s1, rec_ := { a.rec_ with status := 1, rset := max a.rec_.rset o.rset }, stop := true }
    else match sink i s1 with
      | none => { a with st := s1, rec_ := { a.rec_ with status := 10 }, stop := true }
      | some s2 =>
        { a with st := s2, rec_ := { a.rec_ with ndone := i + 1, blank := a.rec_.blank || blank, maxcorr := max a.rec_.maxcorr o.corr, rset := max a.rec_.rset o.rset,
                                                  refresh := a.rec_.refresh || decide (16 < o.corr ∨ 0 < o.rset) } }

/-- Where a READ's page goes (R482): the data buffer and, when it is named, the META buffer. -/
def readSink (d : FDesc) (l : Nat) (i : Nat) (s : State) : Option State :=
  if xoIn s (d.buf + 4096 * i) 4096 ∨ (d.meta_ ≠ 0 ∧ xoIn s (d.meta_ + 16 * i) 16) then none
  else
    let s1 := engineWrite 16 (d.buf + 4096 * i) (pageData s l (d.page + i)) s
    some (if d.meta_ = 0 then s1 else engineWrite 16 (d.meta_ + 16 * i) (pageMeta s l (d.page + i)) s1)

/-- Where a LOAD's page goes (R503, R505): 32 backed rows, execute-only when the region is. -/
def loadSink (d : FDesc) (l : Nat) (i : Nat) (s : State) : Option State :=
  let a := d.buf + 4096 * i
  let rows := (List.range 32).map (· + a / 128)
  let s1 := arrayWrite a (pageData s l (d.page + i)) true s
  some { s1 with par := { s1.par with
           backed := s1.par.backed.filter (fun r => !rows.contains r) ++ rows
           xo := s1.par.xo.filter (fun r => !rows.contains r) ++ (if inXo s d.part d.lblk then rows else []) }
                 flc := { s1.flc with sources := rows.foldl (fun m r => put r (l * 64 + d.page + i, (r - a / 128) * 128) m) s1.flc.sources } }

/-- The pages of a READ or LOAD in order. -/
def readRun (d : FDesc) (l : Nat) (o : FlashOut) (sink : Nat → State → Option State) (r : FDone) (s : State) : ReadAcc :=
  (List.range d.npage).foldl (fun a i => readPage l (d.page + i) i (o.reads.getD i PageOut.clean) sink a) ⟨s, r, false⟩

/-- The data and META of a PROG (R482, R487): none when a fetch fails. -/
def progFetch (d : FDesc) (s : State) : Option (List (List Nat × List Nat)) × State :=
  (List.range d.npage).foldl (fun (acc : Option (List (List Nat × List Nat)) × State) i =>
    match acc with
    | (none, t) => (none, t)
    | (some ps, t) =>
      if xoIn t (d.buf + 4096 * i) 4096 then (none, t)
      else
        let (b, t1) := engineRead 16 (d.buf + 4096 * i) 4096 t
        let (m, t2) := if d.meta_ = 0 then (some (List.replicate 16 255), t1) else engineRead 16 (d.meta_ + 16 * i) 16 t1
        match b, m with
        | some b, some m => (some (ps ++ [(b, m)]), t2)
        | _, _ => (none, t2)) (some [], s)

/-- Program the pages `from_` up of a PROG into a physical block. -/
def progPages (p page : Nat) (ps : List (List Nat × List Nat)) (s : State) : State :=
  ((List.range ps.length).foldl (fun t i => pageProgram p (page + i) (ps.getD i ([], [])).1 (ps.getD i ([], [])).2 t) s).flcW (fun f => { f with ptrs := put p (page + ps.length) f.ptrs })

/-- The end of a PROG (R494, R495). -/
def progEnd (d : FDesc) (o : FlashOut) (r : FDone) (s0 : State) : State :=
  let l := dBlk s0 d
  match progFetch d s0 with
  | (none, s) => flcDone d { r with status := 10 } s
  | (some ps, s1) =>
    let s := groupMod l (fun g => { g with progs := g.progs + d.npage, pulses := g.pulses + o.pulses * d.npage }) s1
    let old := physOf s l
    match o.failAt with
    | none => flcDone d { r with pulses := o.pulses, ndone := d.npage } (progPages old d.page ps s)
    | some i =>
      let i := min i (d.npage - 1)
      let s2 := (progPages old d.page (ps.take i) s).inc Reg.FLC_PFAILCNT
      match spareTake (planeOf old) l 1 o.spareFails s2 with
      | (none, s3) => flcDone d { r with status := 11, pulses := 12, ndone := i } s3
      | (some p, s3) =>
        let lost := o.lost.filter (fun x => decide (x < d.page + i) && (look (old * 64 + x) s3.flc.pages).isSome)
        let s4 := progPages p (d.page + i) (ps.drop i) (blockCopy old p (d.page + i) lost (blockErase p s3))
        let s5 := blockRetire old l 1 (blockMap l p s4)
        flcDone d { r with reloc := true, pulses := 12, ndone := d.npage, lost := lost.length } s5

/-- A page's undefined content: 4,096 data bytes and 16 bytes of META drawn free. -/
def freePage (s : State) : List Nat × List Nat := ((List.range 4096).map (fun i => s.freeAt i % 256), (List.range 16).map (fun i => s.freeAt (4096 + i) % 256))

/-- A reset or supply loss cuts off what runs on the planes (R494): of a PROG some pages are whole, the one cut off counts as programmed with undefined content; the
pages of a block whose erase is cut off have undefined content. -/
def flcCut (s0 : State) : State :=
  s0.flc.run.foldl (fun t r =>
    let d := r.2.d
    let p := physOf t (dBlk t d)
    if d.op = 2 then
      let k := t.free % max 1 d.npage
      let t1 := t.drawn 1
      let whole := match (progFetch d t1).1 with | some ps => ps.take k | none => []
      let cut := freePage t1
      (progPages p d.page (whole ++ [cut]) t1).drawn 4112
    else if d.op = 3 then
      ((t.flc.pages.filter (fun e => e.1 / 64 == p)).foldl (fun u e => (pageProgram p (e.1 % 64) (freePage u).1 (freePage u).2 u).drawn 4112) t)
    else t) s0

/-- The end of an ERASE (R496). -/
def eraseEnd (d : FDesc) (o : FlashOut) (r : FDone) (s : State) : State :=
  let l := dBlk s d
  let old := physOf s l
  match o.failAt with
  | none => flcDone d { r with pulses := o.pulses } (blockErase old s)
  | some _ =>
    let s1 := blockRetire old l 2 (s.inc Reg.FLC_EFAILCNT)
    match spareTake (planeOf old) l 2 o.spareFails s1 with
    | (none, s2) => flcDone d { r with status := 11, pulses := 8 } (roEnter s2)
    | (some p, s2) => flcDone d { r with reloc := true, pulses := o.pulses } (roEnter (blockMap l p (blockErase p s2)))

/-- FLASH_OPERATION_END (R485): the operation that runs on a plane ends as `o` says. -/
def flashEnd (pl : Nat) (o : FlashOut) (s : State) : State :=
  match look pl s.flc.run with
  | none => s
  | some run =>
    let d := run.d
    let s1 := s.flcW (fun f => { f with run := del pl f.run })
    let r := { FDone.only 0 run.since with susp := decide (0 < run.susps) }
    let l := dBlk s d
    match d.op with
    | 1 => let a := readRun d l o (readSink d l) r s1; flcDone d a.rec_ a.st
    | 4 => let a := readRun d l o (loadSink d l) r s1; flcDone d a.rec_ a.st
    | 2 => progEnd d o r s1
    | _ => eraseEnd d o r s1

/-- FLASH_OPERATION_END. -/
def execFlashOperationEnd (pl : Nat) (o : FlashOut) (dt : Nat) (s : State) : Host.Outcome State Fault Refusal :=
  .next (onlyIf (decide (pl < 2) && (look pl (s.pass dt).flc.run).isSome) (flashEnd pl o (s.pass dt)) (s.pass dt))

/-! ### The code loader's refetch (R438, R498) -/

/-- CODE_LOADER_READ (R498) for the fetch `i`: refused for a block under erase or an erase with 15 suspensions. -/
def loaderRead (i : Nat) (o : PageOut) (s : State) : State :=
  match s.flc.refetch[i]? with
  | none => s
  | some r =>
    let fin := fun (ok : Bool) (t : State) => t.flcW (fun f => { f with refetch := modAt f.refetch i (fun x => { x with done := some ok }) })
    match look r.row s.flc.sources with
    | none => fin false s
    | some (k, _) =>
      let l := k / 64
      let pl := planeOf (physOf s l)
      match eraseOn s pl with
      | some e =>
        if dBlk s e.d = l then fin false (s.inc Reg.FLC_SUSPHITCNT)
        else if 15 ≤ e.susps ∧ e.susp.isNone then fin false s
        else
          let s1 := if e.susp.isNone then eraseSuspend pl s else s
          if o.unc then fin false (readUnc l (readCount l o s1)) else fin true (readCount l o s1)
      | none => if o.unc then fin false (readUnc l (readCount l o s)) else fin true (readCount l o s)

/-- CODE_LOADER_READ. -/
def execCodeLoaderRead (i : Nat) (o : PageOut) (dt : Nat) (s : State) : Host.Outcome State Fault Refusal :=
  .next (onlyIf (flcUp (s.pass dt) && (match (s.pass dt).flc.refetch[i]? with | some r => r.done.isNone | none => false)) (loaderRead i o (s.pass dt)) (s.pass dt))

/-- ROW_REFETCH (R438): the row's bytes come from the store, and the fetch that waited goes on; a read that failed leaves the row, and the waiting fetch
then fails with KIND 5. -/
def rowRefetch (i : Nat) (s : State) : State :=
  match s.flc.refetch[i]? with
  | none => s
  | some r =>
    match r.done, look r.row s.flc.sources with
    | some true, some (k, off) =>
      let s1 := arrayWrite (r.row * 128) (((pageData s (k / 64) (k % 64)).drop off).take 128) true s
      ((s1.flcW (fun f => { f with refetch := f.refetch.eraseIdx i })).inc Reg.SYS_REFETCHCNT).set1 Reg.SYS_PARLAST_INFO_REFETCHED
    | _, _ => s

/-- ROW_REFETCH. -/
def execRowRefetch (i dt : Nat) (s : State) : Host.Outcome State Fault Refusal :=
  .next (onlyIf (match (s.pass dt).flc.refetch[i]? with | some r => r.done == some true | none => false) (rowRefetch i (s.pass dt)) (s.pass dt))

/-! ### Refresh and scrub (R499, R502) -/

/-- Refresh a block (R499): copied to a spare, remapped, and the old block erased and returned to the pool, or retired when its erase fails. -/
def blockRefresh (l : Nat) (fails : Bool) (s : State) : State :=
  let old := physOf s l
  match spareTake (planeOf old) l 2 0 s with
  | (none, t) => t
  | (some p, s1) =>
    let ptr := nextPage s1 l
    let s2 := (blockCopy old p 64 [] (blockErase p s1)).flcW (fun f => { f with map := put l p f.map, ptrs := put p ptr f.ptrs, marks := f.marks.erase l })
    let s3 := s2.inc Reg.FLC_REFRESHCNT
    if fails then roEnter (blockRetire old l 2 (s3.inc Reg.FLC_EFAILCNT)) else flcShow ((blockErase old s3).flcW (fun f => { f with pool := f.pool ++ [old] }))

/-- BLOCK_REFRESH of a marked block of partitions 0 to 3 (R499). -/
def execBlockRefresh (l : Nat) (fails : Bool) (dt : Nat) (s : State) : Host.Outcome State Fault Refusal :=
  .next (onlyIf (flcUp (s.pass dt) && decide (l < 288) && (s.pass dt).flc.marks.contains l && !(s.pass dt).flc.pool.isEmpty) (blockRefresh l fails (s.pass dt)) (s.pass dt))

/-- Read every programmed page of a run of blocks (R502); `outs` names, by 64 * block + page, the pages whose read needed a correction or failed. Blank
pages are skipped. The codewords corrected and the state. -/
def scrubRun (first nblk : Nat) (outs : List (Nat × PageOut)) (s : State) : Nat × State :=
  outs.foldl (fun (acc : Nat × State) x =>
    let l := x.1 / 64
    if first ≤ l ∧ l < first + nblk ∧ (pageAt acc.2 l (x.1 % 64)).isSome then
      (if x.2.unc then (acc.1, readUnc l (readCount l x.2 acc.2)) else (acc.1 + x.2.cws, readCount l x.2 acc.2))
    else acc) (0, s)

/-- Refresh every marked block of a run of blocks. -/
def scrubRefresh (first nblk : Nat) (s : State) : State :=
  (s.flc.marks.filter (fun l => decide (first ≤ l) && decide (l < first + nblk))).foldl (fun t l => if t.flc.pool.isEmpty then t else blockRefresh l false t) s

/-- AUTO_SCRUB (R502): every 7 days Glety scrubs partitions 0 to 3. -/
def autoScrub (outs : List (Nat × PageOut)) (s : State) : State :=
  scrubRefresh 0 288 ((scrubRun 0 288 outs s).2.flcW (fun f => { f with scrubAt := s.elapsed }))

/-- AUTO_SCRUB. -/
def execAutoScrub (outs : List (Nat × PageOut)) (dt : Nat) (s : State) : Host.Outcome State Fault Refusal :=
  .next (onlyIf (flcUp (s.pass dt) && (s.pass dt).rd Reg.SYS_BOOT_PHASE == 8 && decide ((s.pass dt).flc.scrubAt + cycS 604800 ≤ (s.pass dt).elapsed)) (autoScrub outs (s.pass dt)) (s.pass dt))

end Sys2Proof.Machine
end

