-- ==== Sys2Proof/Machine/KrnOps.lean ====
section
/-!
DEFINITION. The kernel runner of signal core 1: kernel blocks, starts, periods, budgets and ends (R425 to R433).
-/
namespace Sys2Proof.Machine

/-- Address of the runner header, and of kernel block `k` (R425). -/
def krnHead : Nat := 0x30170000
def krnAddr (k : Nat) : Nat := 0x30170020 + 0x20 * k

/-- Fields of kernel block `k` (R426). -/
def krnEntry (s : State) (k : Nat) : Nat := s.ld (krnAddr k) 4
def krnArg (s : State) (k : Nat) : Nat := s.ld (krnAddr k + 4) 4
def krnChan (s : State) (k : Nat) : Nat := s.ld (krnAddr k + 8) 1
def krnSurplus (s : State) (k : Nat) : Bool := s.ld (krnAddr k + 9) 1 % 2 == 1
def krnState (s : State) (k : Nat) : Nat := s.ld (krnAddr k + 12) 1

/-- The runner's own writes of STATE with CAUSE. -/
def krnSet (k st cause : Nat) (s : State) : State := s.stBytes (krnAddr k + 12) [st, cause]

/-- The owner of the customer areas with its world: ownership entry 38 (R406, R429). -/
def areaOwner (s : State) : Nat × Nat := (s.rd (Reg.PROT_OWN_OWNER 38), s.rd (Reg.PROT_OWN_SEC 38))

/-- Signal core `c`, and a change of it. -/
def sigOf (s : State) (c : Nat) : SigCore := s.sig.getD c (SigCore.reset 0x30100000)
def sigMod (c : Nat) (f : SigCore → SigCore) (s : State) : State := { s with sig := modAt s.sig c f }

/-- cyc of signal core `c` now (R372). -/
def sigCyc (s : State) (c : Nat) : Nat :=
  if (sigOf s c).held then (sigOf s c).cyc0 else (sigOf s c).cyc0 + islandCycles s 5 (s.elapsed - (sigOf s c).cycAt)

/-- Change the runner. -/
def krnMod (f : Runner → Runner) (s : State) : State := { s with runner := f s.runner }

/-- Cycles of the running kernel in this period, and in the whole run. -/
def krnOnNow (s : State) (r : KernelRun) : Nat := if r.suspended then 0 else sigCyc s 1 - r.onAt
def krnUsed (s : State) (r : KernelRun) : Nat := r.used + krnOnNow s r
def krnCycles (s : State) (r : KernelRun) : Nat := r.before + krnOnNow s r

/-- The registers that a kernel enters with (R430): everything the rule calls undefined is a free value. -/
def krnRegs (s : State) (k : Nat) (g : SRegs) : SRegs :=
  { g with
    v := Vector.ofFn (fun (i : Fin 32) => BitVec.ofNat 64 (s.freeAt i.val))
    a := Vector.ofFn (fun (i : Fin 16) => if i.val = 0 then BitVec.ofNat 32 (krnArg s k) else if i.val = 14 then (0x30180000#32) else BitVec.ofNat 32 (s.freeAt (32 + i.val)))
    p := Vector.ofFn (fun (i : Fin 8) => i.val == 0 || s.freeAt (48 + i.val) % 2 == 1)
    cb := Vector.ofFn (fun (i : Fin 4) => BitVec.ofNat 32 (s.freeAt (56 + i.val)))
    cl := Vector.ofFn (fun (i : Fin 4) => BitVec.ofNat 32 (s.freeAt (60 + i.val)))
    ls := Vector.ofFn (fun (i : Fin 3) => BitVec.ofNat 32 (s.freeAt (64 + i.val)))
    lend := Vector.ofFn (fun (i : Fin 3) => BitVec.ofNat 32 (s.freeAt (67 + i.val)))
    lc := Vector.replicate 3 0, le := true, ie := false, priv := false, xret := none, pc := BitVec.ofNat 32 (krnEntry s k) }

/-- The next queued kernel comes onto the core (R429, R430). -/
def krnNext (s : State) : State :=
  match s.runner.run, s.runner.queue with
  | none, k :: rest =>
    let g := (sigOf s 1).regs
    let r : KernelRun := { k := k, away := g, suspended := false, ret := BitVec.ofNat 32 (s.freeAt 47), onAt := sigCyc s 1, before := 0, used := 0, periods := 1 }
    (krnSet k 2 0 (krnMod (fun x => { x with queue := rest, run := some r }) (sigMod 1 (fun c => { c with regs := krnRegs s k g, wfi := false }) s))).drawn 70
  | _, _ => s

/-- Glety's registers are on the core again. -/
def krnLeave (r : KernelRun) (s : State) : State := if r.suspended then s else sigMod 1 (fun c => { c with regs := r.away }) s

/-- CYCLES and PERIODS of the last run. -/
def krnCounts (r : KernelRun) (s : State) : State := (s.st (krnAddr r.k + 20) 4 (krnCycles s r)).st (krnAddr r.k + 24) 2 (min 0xFFFF r.periods)

/-- KERNEL_END (R430): DONE, RESULT takes a1, RUNS counts, EV148 + k; the next queued kernel follows. -/
def krnDone (result : Nat) (s : State) : State :=
  match s.runner.run with
  | none => s
  | some r =>
    let s1 := (krnCounts r (krnSet r.k 3 0 s)).st (krnAddr r.k + 16) 4 result
    let s2 := s1.st (krnAddr r.k + 26) 2 (min 0xFFFF (s1.ld (krnAddr r.k + 26) 2 + 1))
    krnNext ((krnMod (fun x => { x with run := none }) (krnLeave r s2)).raise (148 + r.k))

/-- KERNEL_FAULT (R432) of the running kernel: RESULT takes epc, EV152 beside EV148 + k. -/
def krnFault (cause epc : Nat) (s : State) : State :=
  match s.runner.run with
  | none => s
  | some r =>
    let s1 := (krnCounts r (krnSet r.k 4 cause s)).st (krnAddr r.k + 16) 4 epc
    krnNext ((krnMod (fun x => { x with run := none }) (krnLeave r s1)).raiseAll [148 + r.k, 152])

/-- A kernel that is not on the core ends with a fault (R429, R432). -/
def krnRefuse (k cause : Nat) (s : State) : State := (krnSet k 4 cause s).raiseAll [148 + k, 152]

/-- Every kernel queued or running ends with CAUSE 8 (R432): a reset of the areas' owner, or a change of owner. -/
def krnEndAll (s : State) : State :=
  let q := s.runner.queue
  let s1 := krnMod (fun x => { x with queue := [] }) s
  let s2 := match s1.runner.run with | some r => krnFault 8 (if r.suspended then r.away.pc.toNat else (sigOf s1 1).regs.pc.toNat) s1 | none => s1
  q.foldl (fun t k => krnRefuse k 8 t) s2

/-- The runner serves kernels (R426): READY. -/
def krnReady (s : State) : Bool := s.ld (krnHead + 9) 1 == 1

/-- KERNEL_START (R429): a firing of a kernel's CHAN. -/
def krnFire1 (ch k : Nat) (s : State) : State :=
  let st := krnState s k
  let o := areaOwner s
  if st = 1 ∨ st = 2 then s.st (krnAddr k + 14) 2 (min 0xFFFF (s.ld (krnAddr k + 14) 2 + 1))
  else if !(s.rd (Reg.EVT_CH_OWN_OWNER ch) == o.1 && s.rd (Reg.EVT_CH_OWN_SEC ch) == o.2) then krnRefuse k 5 s
  else if krnEntry s k < 0x3010C000 ∨ 0x30110000 ≤ krnEntry s k then krnRefuse k 6 s
  else krnNext (krnMod (fun x => { x with queue := x.queue ++ [k] }) (krnSet k 1 0 s))

/-- A firing of channel `ch` reaches the runner. -/
def krnFire (ch : Nat) (s : State) : State :=
  if krnReady s then (List.range 4).foldl (fun t k => if 8 ≤ ch ∧ krnChan t k = ch then krnFire1 ch k t else t) s else s

/-- A kernel block names the channel. -/
def krnListens (ch : Nat) (s : State) : Bool := decide (8 ≤ ch) && krnReady s && (List.range 4).any (fun k => krnChan s k == ch)

/-- The header as the runner shows it (R426, R428). -/
def krnHeader (s : State) : State := ((s.st krnHead 4 s.runner.budget).st (krnHead + 4) 4 (islandKHz s 5)).stBytes (krnHead + 8) [s.rd Reg.RXC_STAT_MODE]

/-- KERNEL_PERIOD (R427, R428): a period begins: BUDGET in force is the one computed last, and a suspended kernel goes on. -/
def kernelPeriodOk (s : State) : Bool := krnReady s && domOn s 4 && s.runner.period != s.now / 2 ^ 20
def kernelPeriod (s : State) : State :=
  let s1 := krnHeader (krnMod (fun x => { x with period := s.now / 2 ^ 20, budget := kernelBudget s }) s)
  match s1.runner.run with
  | none => s1
  | some r =>
    let onCore := (sigOf s1 1).regs
    let r1 : KernelRun := { r with before := krnCycles s r, used := 0, onAt := sigCyc s 1, periods := r.periods + 1, suspended := false, away := if r.suspended then onCore else r.away }
    krnMod (fun x => { x with run := some r1 }) (if r.suspended then sigMod 1 (fun c => { c with regs := r.away, wfi := false }) s1 else s1)
def execKernelPeriod (dt : Nat) (s : State) : Host.Outcome State Fault Refusal :=
  .next (onlyIf (kernelPeriodOk (s.pass dt)) (kernelPeriod (s.pass dt)) (s.pass dt))

/-- The running kernel has used its BUDGET and holds no surplus: it issues nothing more in this period (R430). -/
def krnSpent (s : State) (r : KernelRun) : Bool := decide (s.runner.budget ≤ krnUsed s r)

/-- KERNEL_BUDGET_SUSPEND (R430): a kernel with SURPLUS goes on while no Glety work is waiting. -/
def kernelBudgetSuspendOk (waiting : Bool) (s : State) : Bool :=
  match s.runner.run with | some r => !r.suspended && krnSpent s r && (!krnSurplus s r.k || waiting) | none => false
def kernelBudgetSuspend (s : State) : State :=
  match s.runner.run with
  | none => s
  | some r =>
    let k := (sigOf s 1).regs
    krnMod (fun x => { x with run := some { r with away := k, suspended := true, before := krnCycles s r, used := krnUsed s r } }) (sigMod 1 (fun c => { c with regs := r.away }) s)
def execKernelBudgetSuspend (waiting : Bool) (dt : Nat) (s : State) : Host.Outcome State Fault Refusal :=
  .next (onlyIf (kernelBudgetSuspendOk waiting (s.pass dt)) (kernelBudgetSuspend (s.pass dt)) (s.pass dt))

end Sys2Proof.Machine
end

