-- ==== Sys2Proof/Machine/CoOps.lean ====
section
/-!
DEFINITION. The coordinator service: registry, admission, group commands, dispatches and reports (R740 to R744).
-/
namespace Sys2Proof.Machine

/-- The node runs the coordinator service as the active member (R740). -/
def coActive (s : State) : Bool := s.isC && !isLeaf s && isCoord s && (s.rd Reg.MIR_STAT_ROLE == 0 || s.rd Reg.MIR_STAT_ROLE == 1 || s.rd Reg.MIR_STAT_ROLE == 4)

/-- Change the service's state. -/
def coMod (f : Co → Co) (s : State) : State := { s with co := f s.co }

/-- A registry entry by short address, and by long identity. -/
def coNode (s : State) (short : Nat) : Option CoNode := s.co.nodes.find? (fun n => n.short == short)
def coLong (s : State) (longid : Nat) : Option CoNode := s.co.nodes.find? (fun n => n.longid == longid)

/-- Enter a node, short addresses rising. -/
def coInsert (n : CoNode) : List CoNode → List CoNode
  | [] => [n]
  | x :: rest => if n.short < x.short then n :: x :: rest else if n.short = x.short then n :: rest else x :: coInsert n rest

/-- Change a node. -/
def coNodeMod (short : Nat) (f : CoNode → CoNode) (s : State) : State := coMod (fun c => { c with nodes := c.nodes.map (fun n => if n.short = short then f n else n) }) s

/-- REPINT of the schedule the coordinator stores (R731). -/
def coRepint (s : State) : Option Nat := if s.lum.sched.isEmpty then none else some (leAt s.lum.sched 6 2)

/-- STATE of an entry (R742): 4 with a fault, 3 when no report has come for 3 REPINT, else as kept. -/
def coState (s : State) (n : CoNode) : Nat :=
  if n.state < 1 then 0
  else if n.faults ≠ 0 then 4
  else match coRepint s with
    | some r => if n.state = 2 ∧ n.repAt + cycS (3 * r) < s.elapsed then 3 else n.state
    | none => n.state

/-- The copies in partition 0 (R740). -/
def coSave (s : State) : State := coMod (fun c => { c with savedNodes := c.nodes, savedAdmit := c.admitted, saveAt := s.elapsed }) s

/-- REGISTRY_SAVE (R740): every 15 minutes. -/
def registrySaveOk (s : State) : Bool := coActive s && decide (s.co.saveAt + cycS 900 ≤ s.elapsed)
def execRegistrySave (dt : Nat) (s : State) : Host.Outcome State Fault Refusal :=
  .next (onlyIf (registrySaveOk (s.pass dt)) (coSave (s.pass dt)) (s.pass dt))

/-- The key material of a JOIN_RSP (R534): the newest one or two epochs. -/
def keymat (s : State) : List Nat :=
  let l := s.lnk.epochs.drop (s.lnk.epochs.length - 2)
  [l.length, 0, 0] ++ l.flatMap (fun e => [e.epoch, 0] ++ leBytes 8 e.from_ ++ (e.key ++ List.replicate 16 0).take 16)

/-- The lowest free short address from 0x0010 (R741): one above the first run of used addresses. -/
def lowestFree (used : List Nat) : Nat → Nat → Nat
  | 0, a => a
  | k + 1, a => if used.contains a then lowestFree used k (a + 1) else a

/-- A JOINFWD of a parent (R741): STATUS, SHORT and the entry in STATE 1. The wake address that Glety assigns is a free value (R243). -/
def joinDecide (longid parent : Nat) (s : State) : Nat × Nat × Nat × State :=
  if !s.co.admitted.contains longid then (1, 0xFFFF, 0, s)
  else
    match coLong s longid with
    | some n =>
      let w := (look n.short s.lnk.waddrs).getD (1 + s.free % 0xFFFFFFFE)
      (0, n.short, w, coSave ((coNodeMod n.short (fun x => { x with state := 1, parent := parent, heardAt := s.elapsed }) s).drawn 1))
    | none =>
      if 60000 ≤ s.co.nodes.length then (2, 0xFFFF, 0, s)
      else
        let short := lowestFree (s.co.nodes.map (fun n => n.short)) s.co.nodes.length 0x0010
        let hops := match coNode s parent with | some p => min 255 (p.hops + 1) | none => 1
        let n : CoNode := { short := short, longid := longid, state := 1, parent := parent, hops := hops, groups := [], level := 0, sver := 0, faults := 0, hours := 0, energy := 0, repAt := s.elapsed, heardAt := s.elapsed }
        (0, short, 1 + s.free % 0xFFFFFFFE, coSave ((coMod (fun c => { c with nodes := coInsert n c.nodes }) s).drawn 1))

/-- The JOINFWD answer's payload (the spec gives no layout: log entry 26): LONGID, STATUS, SHORT, WADDR, KEYMAT. -/
def joinFwdAnswer (longid status short waddr : Nat) (km : List Nat) : List Nat := leBytes 8 longid ++ [status] ++ leBytes 2 short ++ leBytes 4 waddr ++ km

/-- A JOINFWD arrives: at the coordinator the request, at a parent the answer (R221). -/
def joinFwdReceive (src : Nat) (p : List Nat) (s : State) : State :=
  if 15 ≤ p.length then joinRspSend (leAt p 0 8) (leAt p 8 1) (leAt p 9 2) (leAt p 11 4) (p.drop 15) s
  else if !coActive s then s
  else
    let (st, short, w, s1) := joinDecide (leAt p 0 8) src s
    unicastSend src 0 0 6 (joinFwdAnswer (leAt p 0 8) st short w (if st = 0 then keymat s1 else [])) s1

/-- A parent forwards a join request (R221): as the coordinator it answers itself. -/
def joinForward (longid : Nat) (s : State) : State :=
  if coActive s then
    let (st, short, w, s1) := joinDecide longid (ownShort s) s
    joinRspSend longid st short w (if st = 0 then keymat s1 else []) s1
  else unicastSend coordShort 0 0 6 (leBytes 8 longid) s

/-! ### Reports (R743, R738) -/

/-- The action records of a KIND 1 body: SRC, TAG, T, LATEBY. -/
def actionRecords : Nat → List Nat → List (Nat × Nat × Nat × Nat)
  | 0, _ => []
  | k + 1, b => if b.length < 14 then [] else (leAt b 0 2, leAt b 2 2, leAt b 4 8, leAt b 12 2) :: actionRecords k (b.drop 14)

/-- A member of a group (R743): STATE 1 to 4. -/
def coMember (s : State) (group short : Nat) : Bool :=
  match coNode s short with | some n => n.groups.contains group && decide (1 ≤ coState s n) | none => false

/-- Count one action record for the commands that collect. -/
def coRecord (r : Nat × Nat × Nat × Nat) (s : State) : State :=
  coMod (fun c => { c with cmds := c.cmds.map (fun g =>
    if g.tag = r.2.1 ∧ g.t = r.2.2.1 ∧ coMember s g.group r.1 ∧ ¬ g.ontime.contains r.1 ∧ ¬ g.late.contains r.1 then
      (if bitOf r.2.2.2 15 = 1 then { g with late := r.1 :: g.late } else { g with ontime := r.1 :: g.ontime })
    else g) }) s

/-- Members of a group. -/
def coMembers (s : State) (group : Nat) : List Nat := ((s.co.nodes.filter (fun n => coMember s group n.short)).map (fun n => n.short))

/-- A member's turn in a dispatch is over: served, or sent four times and its last 60 s gone. -/
def memberOver (m : CoMember) : Bool := m.served || decide (5 ≤ m.sends)
def memberOut (m : CoMember) : Bool := !memberOver m && decide (1 ≤ m.sends)

/-- Send the object of a dispatch to members that wait, 16 at a time (R744). -/
def dispFill : Nat → CoDisp → State → CoDisp × State
  | 0, d, s => (d, s)
  | k + 1, d, s =>
    if 16 ≤ (d.members.filter memberOut).length then (d, s)
    else match d.members.find? (fun m => !memberOver m && m.sends == 0) with
      | none => (d, s)
      | some m => dispFill k { d with members := d.members.map (fun x => if x.short = m.short then { x with sends := 1, at_ := s.elapsed } else x) } (unicastSend m.short 1 0 2 d.obj s)

/-- The dispatch's operation is suspended (R339). -/
def dispHeld (s : State) (d : CoDisp) : Bool := match opOf s d.mb d.op with | some o => o.suspended.isSome | none => false

/-- Settle one dispatch: fill it, and end it DONE when every member's turn is over. -/
def dispOne (s : State) (d : CoDisp) : State :=
  if dispHeld s d then s
  else
    let d1 := (dispFill 16 d s).1
    let t := (dispFill 16 d s).2
    if d1.members.all memberOver then
      opEnd d.mb d.op 3 0 (leBytes 2 d1.members.length ++ leBytes 2 (d1.members.filter (fun m => m.served)).length) (coMod (fun c => { c with disps := t.co.disps.filter (fun x => !(x.mb == d.mb && x.op == d.op)) }) t)
    else coMod (fun c => { c with disps := c.disps.map (fun x => if x.mb = d.mb ∧ x.op = d.op then d1 else x) }) t

/-- Settle every dispatch. -/
def dispSettle (s : State) : State := s.co.disps.foldl dispOne s

/-- DISPATCH_RESEND (R744): a member that has not answered for 60 s is sent the object again, up to 3 times. -/
def dispatchLate (s : State) (short : Nat) (m : CoMember) : Bool := m.short == short && memberOut m && decide (m.at_ + cycS 60 ≤ s.elapsed)
def dispatchResendOk (short : Nat) (s : State) : Bool := s.co.disps.any (fun d => d.members.any (dispatchLate s short) && !dispHeld s d)
def dispatchResend (short : Nat) (s : State) : State :=
  let again := s.co.disps.filter (fun d => d.members.any (fun m => dispatchLate s short m && decide (m.sends ≤ 3)))
  let s1 := coMod (fun c => { c with disps := c.disps.map (fun d => { d with members := d.members.map (fun m => if dispatchLate s short m then { m with sends := m.sends + 1, at_ := s.elapsed } else m) }) }) s
  dispSettle (again.foldl (fun t d => unicastSend short 1 0 2 d.obj t) s1)
def execDispatchResend (short dt : Nat) (s : State) : Host.Outcome State Fault Refusal :=
  .next (onlyIf (dispatchResendOk short (s.pass dt)) (dispatchResend short (s.pass dt)) (s.pass dt))

/-- A STATUS PDU at the coordinator (R738, R742 to R744). -/
def coStatus (src : Nat) (p : List Nat) (s0 : State) : State :=
  let s := coNodeMod src (fun n => { n with heardAt := s0.elapsed }) s0
  match leAt p 0 1 with
  | 1 => (actionRecords 16 (p.drop 2)).foldl (fun t r => coRecord r (coNodeMod r.1 (fun n => { n with heardAt := s.elapsed }) t)) s
  | 2 => coNodeMod src (fun n => { n with state := 2, level := leAt p 2 2, sver := leAt p 4 2, faults := leAt p 6 4, hours := leAt p 10 4, energy := leAt p 14 4, repAt := s.elapsed }) s
  | 3 =>
    let sv := leAt p 2 2
    dispSettle (coMod (fun c => { c with disps := c.disps.map (fun d => if schedSver d.obj = sv then { d with members := d.members.map (fun m => if m.short = src ∧ 1 ≤ m.sends then { m with served := true } else m) } else d) }) s)
  | _ => s

/-- A METER PDU at the coordinator: its energy joins the registry. -/
def coMeter (src : Nat) (p : List Nat) (s : State) : State := coNodeMod src (fun n => { n with heardAt := s.elapsed, energy := leAt p 0 4 }) s

/-- Start a group command (R351, R743): the flood, whose MSEQ gives the TAG, and the collection. -/
def coGroupStart (mb op group level fade collect t : Nat) (s : State) : State :=
  let (mseq, s1) := floodOriginate group 1 (cfgN s 7 1) 1 ([1, 0] ++ leBytes 2 level ++ leBytes 2 fade ++ [0, 0] ++ leBytes 8 t) s
  coMod (fun c => { c with cmds := c.cmds ++ [CoCmd.mk mb op group (mseq % 65536) t (t + ftS collect) [] []] }) s1

/-- COLLECT_END (R351): at T + COLLECT the group command ends DONE with the counts of that moment. -/
def collectEndOk (s : State) : Bool := s.co.cmds.any (fun g => decide (g.end_ ≤ s.now))
def collectEnd (s : State) : State :=
  match s.co.cmds.find? (fun g => decide (g.end_ ≤ s.now)) with
  | none => s
  | some g =>
    let n := (coMembers s g.group).length
    opEnd g.mb g.op 3 0 (leBytes 2 n ++ leBytes 2 g.ontime.length ++ leBytes 2 g.late.length ++ leBytes 2 (n - g.ontime.length - g.late.length)) (coMod (fun c => { c with cmds := c.cmds.filter (fun x => !(x == g)) }) s)
def execCollectEnd (dt : Nat) (s : State) : Host.Outcome State Fault Refusal :=
  .next (onlyIf (collectEndOk (s.pass dt)) (collectEnd (s.pass dt)) (s.pass dt))

/-- Start a dispatch (R744). -/
def coDispatchStart (mb op group : Nat) (obj : List Nat) (s : State) : State :=
  dispSettle (coMod (fun c => { c with disps := c.disps ++ [CoDisp.mk mb op obj ((coMembers s group).map (fun a => { short := a, sends := 0, at_ := s.elapsed, served := false }))] }) s)

/-- The result of CO_NODES (R350, R742): entries with SHORT from START on. -/
def coNodesResult (s : State) (start : Nat) : List Nat :=
  let l := (s.co.nodes.filter (fun n => decide (start ≤ n.short))).take 29
  [l.length, 0] ++ l.flatMap (fun n => leBytes 2 n.short ++ leBytes 4 ((s.elapsed - n.heardAt) / cycS 1) ++ [coState s n, 0])

/-- The result of CO_NODE (R742). -/
def coNodeResult (s : State) (n : CoNode) : List Nat :=
  leBytes 2 n.short ++ [coState s n, 0] ++ leBytes 8 n.longid ++ leBytes 2 n.parent ++ [n.hops % 256, n.groups.length] ++ leBytes 2 n.level ++ leBytes 2 n.sver ++ leBytes 4 n.faults ++
  leBytes 4 n.hours ++ leBytes 4 n.energy ++ leBytes 4 ((s.elapsed - n.heardAt) / cycS 1) ++ n.groups.flatMap (leBytes 2)

/-- CO_GROUPS (R742): the new list goes to the node in a CONFIG PDU (layout: log entry 26). -/
def coGroups (short : Nat) (groups : List Nat) (s : State) : State :=
  unicastSend short 0 0 5 ([groups.length, 0] ++ groups.flatMap (leBytes 2)) (coNodeMod short (fun n => { n with groups := groups }) s)

/-- CO_ADMIT (R740). -/
def coAdmit (longid : Nat) (allow : Bool) (s : State) : State :=
  if allow then
    coSave (coMod (fun c => { c with admitted := if c.admitted.contains longid then c.admitted else c.admitted ++ [longid] }) s)
  else coMod (fun c => { c with admitted := c.admitted.filter (fun x => !(x == longid)) }) s

end Sys2Proof.Machine
end

