-- ==== Sys2Proof/Machine/MirOps.lean ====
section
/-!
DEFINITION. The coordinator pair and its mirror link (R668 to R682, R692 to R696).
-/
namespace Sys2Proof.Machine

/-- Change the pair's state. -/
def mirMod (f : Mir → Mir) (s : State) : State := { s with mir := f s.mir }

/-- Fields of the pair configuration object (R668). -/
def pairAddr (s : State) : Nat := leAt s.mir.cfg 0 2
def pairMe (s : State) : Nat := leAt s.mir.cfg 2 2
def pairPeer (s : State) : Nat := leAt s.mir.cfg 4 2
def pairPrefer (s : State) : Bool := leAt s.mir.cfg 6 1 == 1
def pairRegions (o : List Nat) : List (Nat × Nat) := (List.range (leAt o 7 1)).map (fun i => (leAt o (16 + 8 * i) 4, leAt o (20 + 8 * i) 4))
def pairOn (s : State) : Bool := !s.mir.cfg.isEmpty
def mirRole (s : State) : Nat := s.rd Reg.MIR_STAT_ROLE
def mirLink (s : State) : Nat := s.rd Reg.MIR_STAT_LINK
def mirEpoch (s : State) : Nat := s.rd Reg.MIR_STAT_EPOCH
def serving (r : Nat) : Bool := r == 1 || r == 4

/-- A region lies in banks 8 to 23 or in the lower half of the DRAM window, in whole 64-byte blocks (R668). -/
def regionOk (r : Nat × Nat) : Bool :=
  r.1 % 64 == 0 && r.2 % 64 == 0 && decide (0 < r.2) &&
  ((decide (0x10200000 ≤ r.1) && decide (r.1 + r.2 ≤ 0x10600000)) || (decide (0x80000000 ≤ r.1) && decide (r.1 + r.2 ≤ 0x90000000)))

/-- The pair configuration object meets its rules (R668). -/
def pairCfgOk (o : List Nat) : Bool :=
  let rs := pairRegions o
  decide (80 ≤ o.length) && decide (1 ≤ leAt o 0 2) && decide (leAt o 0 2 ≤ 0xEFFF) && (leAt o 0 2 == leAt o 2 2 || leAt o 0 2 == leAt o 4 2) && leAt o 2 2 != leAt o 4 2 &&
  decide (leAt o 6 1 ≤ 1) && decide (leAt o 7 1 ≤ 8) && rs.all regionOk && decide ((rs.map (fun r => r.2)).sum ≤ 0x4000000) &&
  (List.range rs.length).all (fun i => (List.range rs.length).all (fun j => !(decide (i < j)) ||
    decide ((rs.getD i (0, 0)).1 + (rs.getD i (0, 0)).2 ≤ (rs.getD j (0, 0)).1) || decide ((rs.getD j (0, 0)).1 + (rs.getD j (0, 0)).2 ≤ (rs.getD i (0, 0)).1)))

/-- An address lies in a mirrored customer region (R671). -/
def mirrored (s : State) (a : Nat) : Bool := (pairRegions s.mir.cfg).any (fun r => decide (r.1 ≤ a) && decide (a < r.1 + r.2))

/-- The PAIR notice (R359). -/
def pairNotice (s : State) : State := notice 0xF007 5 ([mirRole s, mirLink s] ++ leBytes 2 (if mirRole s = 0 then 0xFFFF else pairPeer s)) s

/-- The ALONE and MIRDEG alarms and their records (R663). -/
def aloneRecord (s : State) : State := alarm Reg.AGE_ALARMS_ALONE true (healthPut 2 0xA 3 0 (mirRole s) (mirEpoch s) s)
def mirDeg (lanes : Nat) (s : State) : State := alarm Reg.AGE_ALARMS_MIRDEG true (healthPut 2 0xA 2 0 lanes 0 s)

/-- A change of role (R674, R682): EV146 and the PAIR notice; a serving member carries PADDR and runs the coordinator service and the time root. -/
def setRole (r reason : Nat) (s : State) : State :=
  if r = mirRole s then s else
  let s1 := (mirMod (fun m => { m with reason := reason, lastSw := s.now, syncProg := if r = 3 then 0 else m.syncProg }) (s.wr Reg.MIR_STAT_ROLE r)).raise 146
  let s2 := (((s1.wr Reg.MSH_STAT_COORD (b2n (serving r))).wr Reg.FIRN_STAT_ROOT (b2n (serving r))).wr Reg.LNK_STAT_SHORT (pairAddr s)).set1 Reg.LNK_STAT_JOINED
  let s3 : State := if r = 2 ∨ r = 3 then { s2 with firn := { s2.firn with parent := .mirror, parentHops := 0 } } else s2
  pairNotice (if r = 3 then s3.inc Reg.MIR_RESYNCCNT else s3)

/-- Lanes of the link that are up in both directions. -/
def lanesUp (s : State) : Nat := ((List.range 2).filter (fun l => !s.mir.dropped.contains l && !s.mir.dropped.contains (l + 2))).length

/-- LINK for the lanes that are up (R669). -/
def linkCode (lanes : Nat) : Nat := match lanes with | 0 => 0 | 1 => 2 | _ => 1

/-- LINK changes: EV146, the PAIR notice, the MIRDEG record and alarm on a degraded link; a link that goes down fails a pending fence (R673). -/
def setLink (l : Nat) (s : State) : State :=
  if l = mirLink s then s else
  let s1 := (s.wr Reg.MIR_STAT_LINK l).raise 146
  let s2 := mirMod (fun m => { m with downAt := if l = 0 then some s.elapsed else none, bothAt := if l = 1 then some s.elapsed else none }) s1
  let s3 := pairNotice (if l = 1 then s2 else mirDeg (if l = 0 then 0 else 1) s2)
  if l = 0 ∧ s3.mir.fence.isSome then mirMod (fun m => { m with fence := none }) ((s3.clr Reg.MIR_FENCE_FENCE).set1 Reg.MIR_FENCE_FAIL) else s3

/-- Every live operation ends FAILED with NOTREADY (R678). -/
def opsFail (s : State) : State :=
  (List.range 4).foldl (fun t m => ((mbox t m).ops.filter (fun o => !o.ended)).foldl (fun u o => opEnd m o.tag 4 Rc.NOTREADY [] u) t) s

/-- Stop every transmission, planned or under way (R678). -/
def txStop (s : State) : State := { s with rfe := { s.rfe with planned_ := [], tx := none } }

/-! ### Mirrored writes and the fence (R671, R673) -/

/-- Bytes that wait in the mirror buffer. -/
def mirBuffered (s : State) : Nat := (s.mir.out.map (fun w => w.data.length)).sum

/-- A write to a mirrored location of the active member joins the buffer of 16 MiB, or marks its blocks dirty. -/
def mirrorOut (a : Nat) (l : List Nat) (s : State) : State :=
  if !serving (mirRole s) || !mirrored s a || mirLink s == 0 then s
  else if mirBuffered s + l.length ≤ 0x1000000 then mirMod (fun m => { m with out := m.out ++ [MirWrite.mk m.seq a l s.elapsed], seq := m.seq + 1 }) s
  else if s.mir.dirty.any (fun d => d.1 == a / 64) then s
  else (mirMod (fun m => { m with dirty := m.dirty ++ [(a / 64, m.seq)], seq := m.seq + 1 }) s).inc Reg.MIR_DIRTYCNT

/-- The lag in µs of the oldest write not yet applied (R693). -/
def mirLagUs (s : State) : Nat := match s.mir.out with | [] => 0 | w :: _ => min 0xFFFF ((s.elapsed - w.at_) * 10 / 3072)
def mirLagShow (s : State) : State := (s.wr Reg.MIR_LAG_NOW (mirLagUs s)).wr Reg.MIR_LAG_MAX (max (s.rd Reg.MIR_LAG_MAX) (mirLagUs s))

/-- MIRROR_WRITE (R671): on the active member the oldest write, or failing one the oldest dirty block, has been applied on the standby; on a member that
is STANDBY or SYNCING a write arrives and is applied at its address. -/
def mirrorWriteOk (a : Nat) (l : List Nat) (s : State) : Bool :=
  pairOn s && mirLink s != 0 &&
  ((serving (mirRole s) && !(s.mir.out.isEmpty && s.mir.dirty.isEmpty)) || ((mirRole s == 2 || mirRole s == 3) && l.all (· < 256) && (List.range l.length).all (fun i => mirrored s (a + i))))
def mirrorWrite (a : Nat) (l : List Nat) (s : State) : State :=
  if serving (mirRole s) then
    let s1 := mirLagShow s
    mirLagShow (mirMod (fun m => match m.out with | _ :: r => { m with out := r } | [] => { m with dirty := m.dirty.drop 1 }) s1)
  else s.stBytes a l
def execMirrorWrite (a : Nat) (l : List Nat) (dt : Nat) (s : State) : Host.Outcome State Fault Refusal :=
  .next (onlyIf (mirrorWriteOk a l (s.pass dt)) (mirrorWrite a l (s.pass dt)) (s.pass dt))

/-- A write of 1 to MIR_FENCE.FENCE (R673, R694). -/
def mirFence (s : State) : State :=
  if !serving (mirRole s) || s.on Reg.MIR_FENCE_FENCE then s else mirMod (fun m => { m with fence := some m.seq }) (s.set1 Reg.MIR_FENCE_FENCE)

/-- Every write before an order has been applied. -/
def mirDrained (s : State) (k : Nat) : Bool := s.mir.out.all (fun w => decide (k ≤ w.seq)) && s.mir.dirty.all (fun d => decide (k ≤ d.2))

/-- FENCE_COMPLETE (R673). -/
def fenceCompleteOk (s : State) : Bool := match s.mir.fence with | some k => mirDrained s k || mirLink s == 0 | none => false
def fenceComplete (s : State) : State :=
  let s1 := mirMod (fun m => { m with fence := none }) (s.clr Reg.MIR_FENCE_FENCE)
  if mirLink s = 0 then s1.set1 Reg.MIR_FENCE_FAIL else s1
def execFenceComplete (dt : Nat) (s : State) : Host.Outcome State Fault Refusal :=
  .next (onlyIf (fenceCompleteOk (s.pass dt)) (fenceComplete (s.pass dt)) (s.pass dt))

/-! ### The link (R669, R670) -/

/-- MIRROR_LANE_CHECK (R669): the violations of a lane in the last 1 ms; after 8 bad ms the lane moves to its spare, and from its spare it is dropped. -/
def mirrorLaneCheckOk (lane : Nat) (s : State) : Bool := s.isC && decide (lane < 4) && !s.mir.dropped.contains lane
def mirrorLaneCheck (lane v : Nat) (s0 : State) : State :=
  let s := s0.count Reg.MIR_CVCNT v
  let n := if 16 < v then s.mir.badMs.getD lane 0 + 1 else 0
  let s1 := mirMod (fun m => { m with badMs := modAt m.badMs lane (fun _ => if 8 ≤ n then 0 else n) }) s
  if n < 8 then s1
  else if bitOf (s.rd Reg.MIR_STAT_SPAREDRV) lane = 0 then healthPut 1 0xA 1 lane lane 0 (((rmapWrite (s1.setBit Reg.MIR_STAT_SPAREDRV lane))).inc Reg.MIR_LANESWCNT)
  else
    let s2 := mirMod (fun m => { m with dropped := lane :: m.dropped }) s1
    if mirLink s2 = 0 then s2 else setLink (linkCode (lanesUp s2)) s2
def execMirrorLaneCheck (lane v dt : Nat) (s : State) : Host.Outcome State Fault Refusal :=
  .next (onlyIf (mirrorLaneCheckOk lane (s.pass dt)) (mirrorLaneCheck lane v (s.pass dt)) (s.pass dt))

/-- MIRDEG clears when both lanes are up for 60 s (R663). -/
def mirDegClear (s : State) : State :=
  match s.mir.bothAt with | some t => if s.on Reg.AGE_ALARMS_MIRDEG ∧ t + cycS 60 ≤ s.elapsed then alarm Reg.AGE_ALARMS_MIRDEG false s else s | none => s

/-- HEARTBEAT_SEND (R670): every 1 ms with ROLE, EPOCH and local time. -/
def heartbeatSendOk (s : State) : Bool := s.isC && pairOn s && s.rd Reg.SYS_BOOT_PHASE == 8 && decide (s.mir.hbAt + cycMs 1 ≤ s.elapsed)
def heartbeatSend (s : State) : State := mirDegClear (mirMod (fun m => { m with hbAt := s.elapsed, hbOut := (mirRole s, mirEpoch s, s.now) }) s)
def execHeartbeatSend (dt : Nat) (s : State) : Host.Outcome State Fault Refusal :=
  .next (onlyIf (heartbeatSendOk (s.pass dt)) (heartbeatSend (s.pass dt)) (s.pass dt))

/-- EPOCH `a` is newer than `b` by signed 16-bit difference (R670). -/
def epochAfter (a b : Nat) : Bool := decide (0 < toSigned 16 (a + 0x10000 - b))

/-- What a heartbeat's role and epoch make of this member (R675, R680). -/
def pairJudge (h : HbIn) (s : State) : State :=
  let r := mirRole s
  if !h.agree then (if serving r then aloneRecord (setRole 4 0 s) else if r = 5 then s else aloneRecord (setRole 5 3 s))
  else if r = 0 ∨ r = 5 then
    (if serving h.role then setRole 3 (if r = 0 then 0 else 3) (s.wr Reg.MIR_STAT_EPOCH h.epoch)
     else if r = 0 ∧ (h.role = 0 ∨ h.role = 3) then (if pairPrefer s then setRole 1 0 s else setRole 3 0 s)
     else s)
  else if serving r ∧ serving h.role ∧ epochAfter h.epoch (mirEpoch s) then setRole 3 3 (txStop (s.wr Reg.MIR_STAT_EPOCH h.epoch))
  else if r = 4 ∧ h.role = 2 then alarm Reg.AGE_ALARMS_ALONE false (setRole 1 4 s)
  else s

/-- HEARTBEAT_RECEIVE (R670, R73): the link is up; a standby takes its time from the active member; roles follow; a switch asked for at the other member is
taken over (R681). -/
def heartbeatReceiveOk (s : State) : Bool := s.isC && pairOn s && s.rd Reg.SYS_BOOT_PHASE == 8 && lanesUp s != 0
def heartbeatReceive (h : HbIn) (s : State) : State :=
  let s1 := setLink (linkCode (lanesUp s)) (mirMod (fun m => { m with lastFrame := some s.elapsed, peerRole := h.role, peerEpoch := h.epoch, beaconHeard := none }) s)
  let s2 := if (mirRole s1 = 2 ∨ mirRole s1 = 3) ∧ serving h.role then firnSample ((s1.now : Int) - h.time) (s1.wr Reg.MIR_STAT_EPOCH h.epoch) else s1
  let s3 := pairJudge h s2
  match h.switchAt, s3.mir.switch with
  | some t, none => if mirRole s3 = 1 ∨ mirRole s3 = 2 then mirMod (fun m => { m with switch := some ⟨t, none, 0⟩ }) s3 else s3
  | _, _ => s3
def execHeartbeatReceive (h : HbIn) (dt : Nat) (s : State) : Host.Outcome State Fault Refusal :=
  .next (onlyIf (heartbeatReceiveOk (s.pass dt)) (heartbeatReceive h (s.pass dt)) (s.pass dt))

/-- MIRROR_SILENCE (R669, R679): 5 ms with no frame: LINK 0; the active member serves ALONE (R686). -/
def mirrorSilenceOk (s : State) : Bool := mirLink s != 0 && (match s.mir.lastFrame with | some t => decide (t + cycMs 5 ≤ s.elapsed) | none => true)
def mirrorSilence (s : State) : State :=
  let s1 := mirMod (fun m => { m with beaconHeard := none, beaconAt := none, out := [], dirty := [] }) (setLink 0 s)
  if mirRole s1 = 1 then aloneRecord (setRole 4 0 s1) else if mirRole s1 = 3 then setRole 5 3 s1 else s1
def execMirrorSilence (dt : Nat) (s : State) : Host.Outcome State Fault Refusal :=
  .next (onlyIf (mirrorSilenceOk (s.pass dt)) (mirrorSilence (s.pass dt)) (s.pass dt))

/-! ### Pair beacons and roles (R675 to R679) -/

/-- PAIR_BEACON_SEND (R676): at once and then every 5 ms while the link is down; mode 0xC0 on the 2.4 GHz plan, hop c the count of pair beacons. -/
def pairBeaconSendOk (s : State) : Bool :=
  pairOn s && mirLink s == 0 && serving (mirRole s) && (match s.mir.beaconAt with | some t => decide (t + cycMs 5 ≤ s.elapsed) | none => true)
def pairBeaconSend (s : State) : State :=
  let p := plan s 1
  let s1 := beaconSend (mirEpoch s) (s.now + ftUs 100) (chanFreq p (hop s.mir.beaconN (pairAddr s) (planMap p))) 0xC0 s
  mirMod (fun m => { m with beaconAt := some s.elapsed, beaconN := m.beaconN + 1 }) s1
def execPairBeaconSend (dt : Nat) (s : State) : Host.Outcome State Fault Refusal :=
  .next (onlyIf (pairBeaconSendOk (s.pass dt)) (pairBeaconSend (s.pass dt)) (s.pass dt))

/-- PAIR_BEACON_HEARD (R675, R677, R678), with the beacon's BSEQ. -/
def pairBeaconHeardOk (s : State) : Bool := pairOn s
def pairBeaconHeard (bseq : Nat) (s0 : State) : State :=
  let s := mirMod (fun m => { m with beaconHeard := some s0.elapsed }) s0
  if mirRole s = 2 ∧ mirLink s = 0 then setRole 5 3 s
  else if serving (mirRole s) ∧ 0 < toSigned 8 (bseq + 256 - mirEpoch s % 256) then opsFail (setRole 5 3 (txStop s))
  else s
def execPairBeaconHeard (bseq dt : Nat) (s : State) : Host.Outcome State Fault Refusal :=
  .next (onlyIf (pairBeaconHeardOk (s.pass dt)) (pairBeaconHeard bseq (s.pass dt)) (s.pass dt))

/-- TAKEOVER (R677, R679): the standby with the link down and no pair beacon for 20 ms. EPOCH rises by 1, the MSEQ and every ENONCE by 4,096. -/
def takeoverOk (s : State) : Bool :=
  mirRole s == 2 && mirLink s == 0 && s.mir.beaconHeard.isNone && (match s.mir.downAt with | some t => decide (t + cycMs 20 ≤ s.elapsed) | none => false)
def takeover (s : State) : State :=
  let e := (mirEpoch s + 1) % 65536
  let s1 : State := { (s.wr Reg.MIR_STAT_EPOCH e) with
    msh := { s.msh with mseq := (s.msh.mseq + 4096) % 2 ^ 24 }
    lnk := { s.lnk with epochs := s.lnk.epochs.map (fun x => { x with enonce := (x.enonce + 4096) % 2 ^ 32 }) } }
  let s2 := setRole 4 1 s1
  let s3 := (healthPut 0 0xA 4 0 1 e s2).inc Reg.MIR_TAKEOVERCNT
  aloneRecord (lumArm 6 s3)
def execTakeover (dt : Nat) (s : State) : Host.Outcome State Fault Refusal :=
  .next (onlyIf (takeoverOk (s.pass dt)) (takeover (s.pass dt)) (s.pass dt))

/-- START_ALONE (R675): the link stays down for 2 s after boot phase 8. -/
def startAloneOk (s : State) : Bool :=
  s.isC && pairOn s && mirRole s == 0 && mirLink s == 0 && s.rd Reg.SYS_BOOT_PHASE == 8 && decide (s.runAt + cycS 2 ≤ s.elapsed)
def startAlone (s : State) : State := if s.mir.beaconHeard.isSome then setRole 5 3 s else aloneRecord (setRole 4 0 s)
def execStartAlone (dt : Nat) (s : State) : Host.Outcome State Fault Refusal :=
  .next (onlyIf (startAloneOk (s.pass dt)) (startAlone (s.pass dt)) (s.pass dt))

/-- SYNC_COMPLETE (R675): every mirrored region is copied; STANDBY. -/
def syncCompleteOk (s : State) : Bool := mirRole s == 3 && mirLink s != 0
def syncComplete (s : State) : State := setRole 2 4 (mirMod (fun m => { m with syncProg := 100 }) s)
def execSyncComplete (dt : Nat) (s : State) : Host.Outcome State Fault Refusal :=
  .next (onlyIf (syncCompleteOk (s.pass dt)) (syncComplete (s.pass dt)) (s.pass dt))

/-! ### Planned switch (R681) -/

/-- Arm a switch: a Glety comparator for T. -/
def switchArm (t : Nat) (op : Option (Nat × Nat)) (s : State) : State :=
  let s1 := cmpArm 8 (((s.wr (Reg.FIRN_CMP_TLO 8) t).wr (Reg.FIRN_CMP_THI 8) (t / 2 ^ 32)).clr (Reg.FIRN_CMP_CTL_CHEN 8))
  mirMod (fun m => { m with switch := some ⟨t, op, 0⟩ }) s1

/-- SWITCH_FENCE (R681): at T - 10 ms the old active member fences its mirrored writes. -/
def switchFenceOk (s : State) : Bool := match s.mir.switch with | some w => mirRole s == 1 && w.fence == 0 && decide (w.t ≤ s.now + ftUs 10000) | none => false
def switchFence (s : State) : State := mirMod (fun m => { m with switch := m.switch.map (fun w => { w with fence := 1 }), fence := some (m.fence.getD m.seq) }) s
def execSwitchFence (dt : Nat) (s : State) : Host.Outcome State Fault Refusal :=
  .next (onlyIf (switchFenceOk (s.pass dt)) (switchFence (s.pass dt)) (s.pass dt))

/-- PLANNED_SWITCH (R681): at T the roles exchange and EPOCH rises; the fence of the old active member must be complete, or the switch ends FAILED with
TIMEOUT and the roles stay. -/
def plannedSwitchOk (s : State) : Bool := match s.mir.switch with | some w => decide (w.t ≤ s.now) | none => false
def plannedSwitch (s : State) : State :=
  match s.mir.switch with
  | none => s
  | some w =>
    let s1 := mirMod (fun m => { m with switch := none }) s
    let finish := fun (ok : Bool) (t : State) => match w.op with
      | some (m, tag) => if ok then opEnd m tag 3 0 [] t else opEnd m tag 4 Rc.TIMEOUT [] t
      | none => t
    let e := (mirEpoch s + 1) % 65536
    if mirRole s = 1 ∧ w.fence = 1 ∧ s.mir.fence.isNone ∧ mirLink s ≠ 0 then finish true (healthPut 0 0xA 4 0 2 e (setRole 2 2 (s1.wr Reg.MIR_STAT_EPOCH e)))
    else if mirRole s = 2 ∧ mirLink s ≠ 0 then finish true (healthPut 0 0xA 4 0 2 e (setRole 1 2 (s1.wr Reg.MIR_STAT_EPOCH e)))
    else finish false s1
def execPlannedSwitch (dt : Nat) (s : State) : Host.Outcome State Fault Refusal :=
  .next (onlyIf (plannedSwitchOk (s.pass dt)) (plannedSwitch (s.pass dt)) (s.pass dt))

/-- The result of PAIR_STATUS (R682). -/
def pairStatus (s : State) : List Nat :=
  [mirRole s, mirLink s] ++ leBytes 2 (if mirRole s = 0 then 0xFFFF else pairPeer s) ++ leBytes 2 (pairAddr s) ++ leBytes 2 (mirEpoch s) ++ leBytes 4 (mirLagUs s) ++
  leBytes 2 (min 0xFFFF (s.rd Reg.MIR_TAKEOVERCNT)) ++ [s.mir.reason, s.mir.syncProg] ++ leBytes 8 s.mir.lastSw

end Sys2Proof.Machine
end

