-- ==== Sys2Proof/Machine/RtcOps.lean ====
section
/-!
DEFINITION. The real-time clock (R586 to R598): the calendar, setting, the alarm and the periodic wake.
-/
namespace Sys2Proof.Machine

/-- A leap year of the Gregorian rule, the year counted from 2000 (R586). -/
def rtcLeap (y : Nat) : Bool := (y % 4 == 0 && !(y % 100 == 0)) || y % 400 == 0

/-- Days of a month, 1 to 12 (R586). -/
def rtcMonthDays (y m : Nat) : Nat :=
  match m with
  | 2 => if rtcLeap y then 29 else 28
  | 4 => 30 | 6 => 30 | 9 => 30 | 11 => 30
  | _ => 31

/-- Leap years among years 0 to y - 1 from 2000. -/
def rtcLeapsBefore (y : Nat) : Nat := (y + 3) / 4 - (y + 99) / 100 + (y + 399) / 400

/-- Days of the months before month `m`. -/
def rtcMonthStart (y : Nat) : Nat → Nat
  | 0 => 0
  | m + 1 => if m = 0 then 0 else rtcMonthStart y m + rtcMonthDays y m

/-- Days from 2000-01-01 to a date. -/
def rtcDayNo (y m d : Nat) : Nat := 365 * y + rtcLeapsBefore y + rtcMonthStart y m + (d - 1)

/-- A date with its time of day. -/
def rtcSeconds (y m d h mi sec : Nat) : Nat := rtcDayNo y m d * 86400 + h * 3600 + mi * 60 + sec

/-- The next date (R586): year, month, day; the last value says that 2399 wrapped to 2000. -/
def rtcNextDay (y m d : Nat) : Nat × Nat × Nat × Bool :=
  if d < rtcMonthDays y m then (y, m, d + 1, false)
  else if m < 12 then (y, m + 1, 1, false)
  else if y < 399 then (y + 1, 1, 1, false)
  else (0, 1, 1, true)

/-- The calendar's seconds since 2000-01-01 (R78). -/
def rtcNow (s : State) : Nat :=
  rtcSeconds (s.rd Reg.RTC_DATE_YEAR) (s.rd Reg.RTC_DATE_MONTH) (s.rd Reg.RTC_DATE_DAY) (s.rd Reg.RTC_TIME_HOUR) (s.rd Reg.RTC_TIME_MIN) (s.rd Reg.RTC_TIME_SEC)

/-- The clock stands: no crystal edges and not yet counting from the RC (R593). -/
def rtcStands (s : State) : Bool := s.rtc.xtalGone && !s.on Reg.RTC_STAT_RUNRC

/-- The sub-second count without its wrap (R586). -/
def rtcSsecRaw (s : State) : Nat := s.rtc.ssec0 + (if rtcStands s then 0 else xtalEdges s.rtc.t0 (s.elapsed - s.rtc.t0))

/-- The sub-second count as a read shows it. -/
def rtcSsec (s : State) : Nat := rtcSsecRaw s % 32768

/-- An alarm field matches: masked, or equal (R590). -/
def alField (msk : Field) (fld : Field) (v : Nat) (s : State) : Bool := s.on msk || s.rd fld == v

/-- The alarm matches a date (R590). -/
def alDate (y m d : Nat) (s : State) : Bool :=
  alField Reg.RTC_ALDATE_MSKYEAR Reg.RTC_ALDATE_YEAR y s && alField Reg.RTC_ALDATE_MSKMON Reg.RTC_ALDATE_MONTH m s && alField Reg.RTC_ALDATE_MSKDAY Reg.RTC_ALDATE_DAY d s

/-- The alarm matches a time of day (R590). -/
def alTime (h mi sec : Nat) (s : State) : Bool :=
  alField Reg.RTC_ALTIME_MSKHOUR Reg.RTC_ALTIME_HOUR h s && alField Reg.RTC_ALTIME_MSKMIN Reg.RTC_ALTIME_MIN mi s && alField Reg.RTC_ALTIME_MSKSEC Reg.RTC_ALTIME_SEC sec s

/-- The alarm matches the calendar as it stands. -/
def alNow (s : State) : Bool :=
  alDate (s.rd Reg.RTC_DATE_YEAR) (s.rd Reg.RTC_DATE_MONTH) (s.rd Reg.RTC_DATE_DAY) s && alTime (s.rd Reg.RTC_TIME_HOUR) (s.rd Reg.RTC_TIME_MIN) (s.rd Reg.RTC_TIME_SEC) s

/-- Fire the alarm (R590): ALF and EV153. -/
def alFire (s : State) : State := (s.set1 Reg.RTC_STAT_ALF).raise 153

/-- A second of the day the alarm matches, among `n` seconds from `sod`. -/
def alTimeIn (s : State) : Nat → Nat → Bool
  | 0, _ => false
  | n + 1, sod => alTime (sod / 3600) (sod / 60 % 60) (sod % 60) s || alTimeIn s n (sod + 1)

/-- Whether the alarm matches a second among the `n` days from a date, `lo` the first second of the first day that counts; `last` is the
last second that counts on the last day. -/
def alDays (s : State) : Nat → Nat → Nat → Nat → Nat → Nat → Bool
  | 0, _, _, _, _, _ => false
  | n + 1, y, m, d, lo, last =>
    let hi := if n = 0 then last else 86399
    (alDate y m d s && alTimeIn s (hi + 1 - lo) lo) ||
      (match rtcNextDay y m d with | (y', m', d', _) => alDays s n y' m' d' 0 last)

/-- A matching second lies after the calendar's value and at or before a new time (R591). -/
def alSkipped (y m d sod : Nat) (s : State) : Bool :=
  let d0 := rtcDayNo (s.rd Reg.RTC_DATE_YEAR) (s.rd Reg.RTC_DATE_MONTH) (s.rd Reg.RTC_DATE_DAY)
  let d1 := rtcDayNo y m d
  let t0 := s.rd Reg.RTC_TIME_HOUR * 3600 + s.rd Reg.RTC_TIME_MIN * 60 + s.rd Reg.RTC_TIME_SEC
  if d1 * 86400 + sod ≤ d0 * 86400 + t0 then false
  else alDays s (d1 - d0 + 1) (s.rd Reg.RTC_DATE_YEAR) (s.rd Reg.RTC_DATE_MONTH) (s.rd Reg.RTC_DATE_DAY) (t0 + 1) sod

/-- Write the calendar's date. -/
def rtcPutDate (y m d : Nat) (s : State) : State := ((s.wr Reg.RTC_DATE_YEAR y).wr Reg.RTC_DATE_MONTH m).wr Reg.RTC_DATE_DAY d

/-- Write the calendar's time of day. -/
def rtcPutTime (h mi sec : Nat) (s : State) : State := ((s.wr Reg.RTC_TIME_HOUR h).wr Reg.RTC_TIME_MIN mi).wr Reg.RTC_TIME_SEC sec

/-- Midnight (R586, R587): the next date, and WDAY advances modulo 7. -/
def rtcMidnight (s : State) : State :=
  match rtcNextDay (s.rd Reg.RTC_DATE_YEAR) (s.rd Reg.RTC_DATE_MONTH) (s.rd Reg.RTC_DATE_DAY) with
  | (y, m, d, w) =>
    let s1 := (rtcPutDate y m d s).wr Reg.RTC_DATE_WDAY ((s.rd Reg.RTC_DATE_WDAY + 1) % 7)
    if w then s1.set1 Reg.RTC_STAT_YWRAP else s1

/-- One second of the calendar (R586). -/
def rtcTick (s : State) : State :=
  let h := s.rd Reg.RTC_TIME_HOUR
  let mi := s.rd Reg.RTC_TIME_MIN
  let sec := s.rd Reg.RTC_TIME_SEC
  if sec < 59 then rtcPutTime h mi (sec + 1) s
  else if mi < 59 then rtcPutTime h (mi + 1) 0 s
  else if h < 23 then rtcPutTime (h + 1) 0 0 s
  else rtcMidnight (rtcPutTime 0 0 0 s)

/-- SECOND_ADVANCE (R586, R590): a wrap of SSEC; the alarm fires on a matching second while ALEN is 1. -/
def secondAdvanceOk (s : State) : Bool := decide (32768 ≤ rtcSsecRaw s)
def secondAdvance (s : State) : State :=
  let s1 := rtcTick { s with rtc := { s.rtc with t0 := (s.rtc.t0 / cycXtal + (32768 - s.rtc.ssec0)) * cycXtal, ssec0 := 0 } }
  if s1.on Reg.RTC_CTL_ALEN && alNow s1 then alFire s1 else s1
def execSecondAdvance (dt : Nat) (s : State) : Host.Outcome State Fault Refusal :=
  .next (onlyIf (secondAdvanceOk (s.pass dt)) (secondAdvance (s.pass dt)) (s.pass dt))

/-- The RTC_DATE word of the calendar (R595). -/
def rtcDateWord (s : State) : Nat :=
  s.rd Reg.RTC_DATE_WDAY * 2 ^ 28 + s.rd Reg.RTC_DATE_YEAR * 2 ^ 16 + s.rd Reg.RTC_DATE_MONTH * 2 ^ 8 + s.rd Reg.RTC_DATE_DAY

/-- The RTC_TIME word of the calendar (R594). -/
def rtcTimeWord (s : State) : Nat := s.rd Reg.RTC_TIME_HOUR * 2 ^ 16 + s.rd Reg.RTC_TIME_MIN * 2 ^ 8 + s.rd Reg.RTC_TIME_SEC

/-- A read of RTC_TIME (R588): the time; date and SSEC are latched for the reader in the same instant. -/
def rtcReadTime (ini : Nat) (s : State) : Nat × State :=
  (rtcTimeWord s, { s with rtc := { s.rtc with latch := put ini (rtcDateWord s, rtcSsec s) s.rtc.latch } })

/-- The set registers are refused (R589). -/
def rtcBadDate (s : State) : Bool :=
  let y := s.rd Reg.RTC_SETDATE_YEAR
  let m := s.rd Reg.RTC_SETDATE_MONTH
  let d := s.rd Reg.RTC_SETDATE_DAY
  decide (399 < y) || m == 0 || decide (12 < m) || d == 0 || decide (rtcMonthDays y m < d) ||
  decide (23 < s.rd Reg.RTC_SETTIME_HOUR) || decide (59 < s.rd Reg.RTC_SETTIME_MIN) || decide (59 < s.rd Reg.RTC_SETTIME_SEC) || s.rd Reg.RTC_SETDATE_WDAY == 7

/-- The class S fields of the RTC (R589). -/
def rtcSFields : List Field :=
  [Reg.RTC_SETTIME_HOUR, Reg.RTC_SETTIME_MIN, Reg.RTC_SETTIME_SEC, Reg.RTC_SETDATE_WDAY, Reg.RTC_SETDATE_YEAR, Reg.RTC_SETDATE_MONTH, Reg.RTC_SETDATE_DAY, Reg.RTC_SETSSEC_SSEC]

/-- Set the calendar from the set registers; Glety's coarse offset write is due (R78, R589). -/
def rtcSet (s : State) : State :=
  let s1 := s.commitFields rtcSFields
  let s2 := rtcPutTime (s.rd Reg.RTC_SETTIME_HOUR) (s.rd Reg.RTC_SETTIME_MIN) (s.rd Reg.RTC_SETTIME_SEC)
    (rtcPutDate (s.rd Reg.RTC_SETDATE_YEAR) (s.rd Reg.RTC_SETDATE_MONTH) (s.rd Reg.RTC_SETDATE_DAY) (s1.wr Reg.RTC_DATE_WDAY (s.rd Reg.RTC_SETDATE_WDAY)))
  { s2 with rtc := { s2.rtc with t0 := s2.elapsed, ssec0 := s.rd Reg.RTC_SETSSEC_SSEC }, firn := { s2.firn with rtcSetAt := some s2.elapsed } }

/-- RTC_SET_COMMIT (R589, R591): at the next crystal edge the clock is set, or refused with BADDATE and CFGERR; EV155 either way. A skipped
alarm fires at the commit. -/
def rtcSetCommitOk (s : State) : Bool :=
  s.on Reg.RTC_CTL_APPLY && (match s.rtc.applyAt with | some t => decide (1 ≤ xtalEdges t (s.elapsed - t)) | none => false) && !rtcStands s
def rtcSetCommit (s : State) : State :=
  let s1 : State := { s.clr Reg.RTC_CTL_APPLY with rtc := { s.rtc with applyAt := none } }
  if rtcBadDate s then ((s1.set1 Reg.RTC_STAT_CFGERR).set1 Reg.RTC_STAT_BADDATE).raise 155
  else
    let sod := s.rd Reg.RTC_SETTIME_HOUR * 3600 + s.rd Reg.RTC_SETTIME_MIN * 60 + s.rd Reg.RTC_SETTIME_SEC
    let skipped := s.on Reg.RTC_CTL_ALEN && alSkipped (s.rd Reg.RTC_SETDATE_YEAR) (s.rd Reg.RTC_SETDATE_MONTH) (s.rd Reg.RTC_SETDATE_DAY) sod s
    let s2 := (rtcSet s1).raise 155
    if skipped then alFire (s2.set1 Reg.RTC_STAT_ALSKIP) else s2
def execRtcSetCommit (dt : Nat) (s : State) : Host.Outcome State Fault Refusal :=
  .next (onlyIf (rtcSetCommitOk (s.pass dt)) (rtcSetCommit (s.pass dt)) (s.pass dt))

/-- A write of 1 to RTC_CTL.APPLY (R589). -/
def rtcApply (s : State) : State := { s.set1 Reg.RTC_CTL_APPLY with rtc := { s.rtc with applyAt := some s.elapsed } }

/-- FIRN cycles in 1/1024 s: 307,200,000 / 1,024. -/
def cycWake : Nat := 300000

/-- A write of RTC_WAKE (R592): the period restarts from the next 1/1024 s tick; 0 stops the wake. -/
def rtcWakeWrite (v : Nat) (s : State) : State :=
  { s.wr Reg.RTC_WAKE_PERIOD v with rtc := { s.rtc with wakeT0 := cdiv (s.elapsed + 1) cycWake * cycWake } }

/-- PERIODIC_WAKE (R592): once per period WAKEF sets and EV154 is raised. -/
def periodicWakeOk (s : State) : Bool :=
  let p := s.rd Reg.RTC_WAKE_PERIOD
  decide (1 ≤ p) && decide (p ≤ 67107840) && decide (s.rtc.wakeT0 + p * cycWake ≤ s.elapsed) && !rtcStands s
def periodicWake (s : State) : State :=
  ({ s with rtc := { s.rtc with wakeT0 := s.rtc.wakeT0 + s.rd Reg.RTC_WAKE_PERIOD * cycWake } }.set1 Reg.RTC_STAT_WAKEF).raise 154

/-- XTAL_FAIL (R593): no crystal edge for 1 ms; the RTC counts from the RC while VMAIN is present. -/
def xtalFailOk (s : State) : Bool := !s.rtc.xtalGone
def xtalFail (s : State) : State :=
  ({ s with rtc := { s.rtc with ssec0 := rtcSsecRaw s, t0 := s.elapsed, xtalGone := true } }.set1 Reg.RTC_STAT_XTALFAIL).raise 155 |>.set1 Reg.RTC_STAT_RUNRC
def execXtalFail (dt : Nat) (s : State) : Host.Outcome State Fault Refusal :=
  .next (onlyIf (xtalFailOk (s.pass dt)) (xtalFail (s.pass dt)) (s.pass dt))

/-- XTAL_RETURN (R593): at the first edge after 1 ms of steady edges the RTC returns to the crystal. -/
def xtalReturnOk (s : State) : Bool := s.rtc.xtalGone
def xtalReturn (s : State) : State :=
  { s with rtc := { s.rtc with ssec0 := rtcSsecRaw s, t0 := s.elapsed, xtalGone := false } }.clr Reg.RTC_STAT_RUNRC
def execXtalReturn (dt : Nat) (s : State) : Host.Outcome State Fault Refusal :=
  .next (onlyIf (xtalReturnOk (s.pass dt)) (xtalReturn (s.pass dt)) (s.pass dt))

/-- COARSE_OFFSET_WRITE (R78): within 1 s of an RTC time write, and every 60 minutes while LOCKED: BKP_SET2 is the Firn seconds minus the
calendar's seconds, signed. -/
def coarseOffsetWriteOk (s : State) : Bool :=
  s.rd Reg.SYS_BOOT_PHASE == 8 && (s.firn.rtcSetAt.isSome || (s.firn.stage == .locked && decide (s.firn.coarseAt + cycS 3600 ≤ s.elapsed)))
def coarseOffsetWrite (s : State) : State :=
  { s.wr Reg.BKP_SET2 (ofSigned 32 ((s.now / 2 ^ 30 : Nat) - (rtcNow s : Int))) with firn := { s.firn with coarseAt := s.elapsed, rtcSetAt := none } }
def execCoarseOffsetWrite (dt : Nat) (s : State) : Host.Outcome State Fault Refusal :=
  .next (onlyIf (coarseOffsetWriteOk (s.pass dt)) (coarseOffsetWrite (s.pass dt)) (s.pass dt))

/-- Restore local time from the RTC and the coarse offset (R79): the fraction from SSEC; STATE FREE. With BKPLOST time starts from 0. -/
def firnRestore (s : State) : State :=
  let secs : Int := (rtcNow s : Int) + toSigned 32 (s.rd Reg.BKP_SET2)
  let t := if s.on Reg.SYS_RSTCAUSE_BKPLOST then 0 else (secs % (2 ^ 34 : Nat)).toNat * 2 ^ 30 + rtcSsec s * 32768
  let s1 := { s with firn := { s.firn with loc := t * ftUnit, coasting := false, stopped := false, exitPhase := 0, stage := .free, lastSample := none, rejects := [], inRow := 0 } }
  s1.wr Reg.FIRN_STAT_STATE 0

end Sys2Proof.Machine
end

