-- ==== Sys2Proof/Machine/SpxOps.lean ====
section
/-!
DEFINITION. The serial ports (15_serial_ports.md): FIFOs, master frames and the slave frame rules.
-/
namespace Sys2Proof.Machine

/-- Port `n`, and a change of it. -/
def spxOf (s : State) (n : Nat) : Spx := s.spx.getD n Spx.reset
def spxMod (n : Nat) (f : Spx → Spx) (s : State) : State := { s with spx := modAt s.spx n f }

/-- Bytes in a list of words. -/
def wordBytes (l : List (Nat × Nat)) : Nat := l.foldl (fun n w => n + w.1 / 8) 0

/-- Bytes held in the receive FIFO. -/
def rxBytes (p : Spx) : Nat := p.rx.foldl (fun n f => n + wordBytes f.words) 0

/-- FIFO, RXFRM and the level bits of STAT follow the FIFOs (R623, R624). -/
def spxShow (n : Nat) (s : State) : State :=
  let p := spxOf s n
  let s1 := (((s.wr (Reg.SPX_FIFO_RXFRM n) p.rx.length).wr (Reg.SPX_FIFO_RXLVL n) (rxBytes p)).wr (Reg.SPX_FIFO_TXLVL n) (wordBytes p.tx)).wr (Reg.SPX_STAT_TXEMPTY n) (b2n p.tx.isEmpty)
  let s2 := s1.wr (Reg.SPX_STAT_RXAVAIL n) (b2n (!p.rx.isEmpty))
  match p.rx with
  | [] => ((s2.clr (Reg.SPX_RXFRM_VALID n)).clr (Reg.SPX_RXFRM_OVERLEN n)).wr (Reg.SPX_RXFRM_BITS n) 0
  | f :: _ => ((s2.set1 (Reg.SPX_RXFRM_VALID n)).wr (Reg.SPX_RXFRM_OVERLEN n) (b2n f.overlen)).wr (Reg.SPX_RXFRM_BITS n) f.bits

/-- The port's event source (R602). -/
def spxEvent (n : Nat) (s : State) : State := s.raise (117 + n)

/-- Set a W1C flag of STAT; the event follows when its IEN bit is 1 and the flag was clear (R625). -/
def spxFlag (n : Nat) (flag ien : Field) (s : State) : State := if s.on flag then s else (if s.on ien then spxEvent n (s.set1 flag) else s.set1 flag)

/-- Count an error; the event follows when IEN.ERR is 1, and always when `always` (R607, R609, R625). -/
def spxErr (n : Nat) (cnt : Field) (always : Bool) (s : State) : State := let s1 := s.inc cnt; if always ∨ s.on (Reg.SPX_IEN_ERR n) then spxEvent n s1 else s1

/-- Committed word size in bits (R619). -/
def wsize (s : State) (n : Nat) : Nat := 8 * 2 ^ s.rdC (Reg.SPX_CFG_WSIZE n)

/-- The role (R602): SPX1 is a master. -/
def spxRole (s : State) (n : Nat) : Nat := if n = 1 then 2 else s.rd (Reg.SPX_CFG_ROLE n)

/-- Time in units of 10 ns since power-on. -/
def now10 (s : State) : Nat := s.elapsed * 1000 / 3072

/-- Reverse the low `w` bits of a value. -/
def revBits (w x : Nat) : Nat := (List.range w).foldl (fun r i => 2 * r + bitOf x i) 0

/-- Move words from the transmit FIFO onto the lanes as time allows (R604, R605). -/
def spxShift (now : Nat) : List (Nat × Nat) → Nat → List (Nat × Nat) → List (Nat × Nat) → List (Nat × Nat) × Nat × List (Nat × Nat) × List (Nat × Nat)
  | [], at_, tx, out => ([], at_, tx, out)
  | (b, d) :: need, at_, tx, out =>
    match tx with
    | [] => ((b, d) :: need, at_, [], out)
    | w :: ws => if now < at_ then ((b, d) :: need, at_, w :: ws, out) else spxShift now need (at_ + d) ws (out ++ [(b, w.2)])

/-- Bring a port's master frame up to date. -/
def spxAdvance (n : Nat) (s : State) : State :=
  match (spxOf s n).run with
  | none => s
  | some r =>
    let (need, at_, tx, out) := spxShift (now10 s) r.need r.at_ (spxOf s n).tx []
    spxShow n (spxMod n (fun p => { p with tx := tx, sent := p.sent ++ out, run := some { r with need := need, at_ := at_ } }) s)

/-- The words of a transmitted phase: full words and a last part, each with its time; the first one carries `lead` (R604, R606). -/
def phaseWords (w len lanes t lead : Nat) : List (Nat × Nat) :=
  (List.range (cdiv len w)).map (fun i => let b := min w (len - i * w); (b, cdiv b lanes * t + (if i = 0 then lead else 0)))

/-- Lanes of a LANES code (R621). -/
def lanesOf (code : Nat) : Nat := 2 ^ code

/-- Begin a master frame (R604, R606). -/
def masterStart (n : Nat) (s : State) : State :=
  let t := s.rd (Reg.SPX_CFG_DIV n) + 1
  let w := wsize s n
  let ph := fun (en lanes len : Field) => if s.rdC en = 1 then phaseWords w (s.rdC len + 1) (lanesOf (s.rdC lanes)) t 0 else []
  let dOn := s.rdC (Reg.SPX_PDAT_EN n) == 1
  let dLanes := lanesOf (s.rdC (Reg.SPX_PDAT_LANES n))
  let dLen := s.rdC (Reg.SPX_PDAT_LEN n) + 1
  let dummy := s.rdC (Reg.SPX_PDAT_DUMMY n) * t
  let dTx := dOn && (s.rdC (Reg.SPX_PDAT_DIR n) == 0 || dLanes == 1)
  let dRx := dOn && (s.rdC (Reg.SPX_PDAT_DIR n) == 1 || dLanes == 1)
  let need := ph (Reg.SPX_PCMD_EN n) (Reg.SPX_PCMD_LANES n) (Reg.SPX_PCMD_LEN n) ++ ph (Reg.SPX_PADR_EN n) (Reg.SPX_PADR_LANES n) (Reg.SPX_PADR_LEN n) ++
    (if dTx then phaseWords w dLen dLanes t dummy else [])
  let tail := t + (if dOn ∧ dTx = false then dummy + cdiv dLen dLanes * t else 0)
  let r : SpxRun := { need := need, at_ := max (now10 s) (spxOf s n).gapEnd + t, tail := tail, rxBits := if dRx then dLen else 0 }
  (spxMod n (fun p => { p with run := some r, sent := [] }) s).set1 (Reg.SPX_STAT_ACTIVE n)

/-- A write of START (R620): ignored with CFGERR in other roles or while ACTIVE. -/
def spxStart (n : Nat) (s : State) : State :=
  if spxRole s n = 2 ∧ s.on (Reg.SPX_CTL_EN n) ∧ s.on (Reg.SPX_STAT_ACTIVE n) = false then masterStart n s else s.set1 (Reg.SPX_STAT_CFGERR n)

/-- Push a word (R622). -/
def spxPush (n v : Nat) (s0 : State) : State :=
  let s := spxAdvance n s0
  let p := spxOf s n
  let w := wsize s n
  if 2048 < wordBytes p.tx + w / 8 then s.set1 (Reg.SPX_STAT_CFGERR n)
  else
    let run := match p.run with | some r => some { r with at_ := if p.tx.isEmpty ∧ !r.need.isEmpty then max r.at_ (now10 s) else r.at_ } | none => none
    spxAdvance n (spxShow n (spxMod n (fun p => { p with tx := p.tx ++ [(w, v % 2 ^ w)], run := run }) s))

/-- Pop a word: its value and the state (R622, R623). -/
def spxPop (n : Nat) (s : State) : Nat × State :=
  match (spxOf s n).rx with
  | [] => (0, s)
  | f :: fs =>
    match f.words with
    | [] => (0, spxShow n (spxMod n (fun p => { p with rx := fs }) s))
    | w :: ws => (w.2, spxShow n (spxMod n (fun p => { p with rx := if ws.isEmpty then fs else { f with words := ws } :: fs }) s))

/-- A frame joins the receive FIFO. -/
def spxKeep (n : Nat) (f : SpxFrame) (s : State) : State :=
  let s1 := spxShow n (spxMod n (fun p => { p with rx := p.rx ++ [f] }) s)
  if (spxOf s n).rx.isEmpty ∧ s.on (Reg.SPX_IEN_RXAVAIL n) then spxEvent n s1 else s1

/-- Room in the receive FIFO for a frame of `bytes` (R607). -/
def spxRoom (s : State) (n bytes : Nat) : Bool := decide ((spxOf s n).rx.length < 8) && decide (rxBytes (spxOf s n) + bytes ≤ 2048)

/-- Commit the S fields, or refuse the commit (R621): PDAT.LEN + 1 is a multiple of the word size, and WSIZE is not 3. -/
def spxCommit (n : Nat) (s : State) : State :=
  let w := s.rd (Reg.SPX_CFG_WSIZE n)
  let fs := [Reg.SPX_CFG_WSIZE n, Reg.SPX_PCMD_EN n, Reg.SPX_PCMD_LANES n, Reg.SPX_PCMD_LEN n, Reg.SPX_PADR_EN n, Reg.SPX_PADR_LANES n, Reg.SPX_PADR_LEN n, Reg.SPX_PDAT_EN n,
    Reg.SPX_PDAT_LANES n, Reg.SPX_PDAT_DIR n, Reg.SPX_PDAT_DUMMY n, Reg.SPX_PDAT_LEN n]
  (if w = 3 ∨ (s.rd (Reg.SPX_PDAT_LEN n) + 1) % (8 * 2 ^ w) ≠ 0 then s.set1 (Reg.SPX_STAT_CFGERR n) else s.commitFields fs).clr (Reg.SPX_CTL_APPLY n)

/-- The end of a frame (R606, R620): a commit that waits is made, FRMEND sets. -/
def spxFrameEnd (n : Nat) (s : State) : State :=
  let s1 := s.clr (Reg.SPX_STAT_ACTIVE n)
  let s2 := if s1.on (Reg.SPX_CTL_APPLY n) then spxCommit n s1 else s1
  spxFlag n (Reg.SPX_STAT_FRMEND n) (Reg.SPX_IEN_FRMEND n) s2

/-- A master frame's hold has ended (R605, R606): every word has gone out and the received words have room. -/
def masterEndOk (n : Nat) (s0 : State) : Bool :=
  let s := spxAdvance n s0
  match (spxOf s n).run with
  | some r => r.need.isEmpty && decide (r.at_ + r.tail ≤ now10 s) && (r.rxBits == 0 || spxRoom s n (cdiv r.rxBits (wsize s n) * (wsize s n / 8)))
  | none => false

/-- MASTER_FRAME_END (R606): the words that the slave drove join the receive FIFO. -/
def masterEnd (n : Nat) (data : List Nat) (s0 : State) : State :=
  let s := spxAdvance n s0
  match (spxOf s n).run with
  | none => s
  | some r =>
    let w := wsize s n
    let f : SpxFrame := { words := (List.range (cdiv r.rxBits w)).map (fun i => (w, data.getD i 0 % 2 ^ w)), bits := r.rxBits, overlen := false }
    let s1 := if r.rxBits = 0 then s else spxKeep n f s
    spxFrameEnd n (spxMod n (fun p => { p with run := none, gapEnd := now10 s + s.rd (Reg.SPX_CFG_DIV n) + 1 }) s1)

/-- MASTER_FRAME_END. -/
def execMasterFrameEnd (n : Nat) (data : List Nat) (dt : Nat) (s : State) : Host.Outcome State Fault Refusal :=
  .next (onlyIf (masterEndOk n (s.pass dt)) (masterEnd n data (s.pass dt)) (s.pass dt))

/-- SLAVE_FRAME_START (R607). -/
def execSlaveFrameStart (dt : Nat) (s : State) : Host.Outcome State Fault Refusal :=
  .next (onlyIf (decide (spxRole (s.pass dt) 0 < 2) && (s.pass dt).on (Reg.SPX_CTL_EN 0) && !(spxOf (s.pass dt) 0).slave)
    ((spxMod 0 (fun p => { p with slave := true }) (s.pass dt)).set1 (Reg.SPX_STAT_ACTIVE 0)) (s.pass dt))

/-- The word of `w` bits at bit `i * w` of the received bytes: the first bit received is the most significant, or the least with LSBF (R603). -/
def rxWord (lsbf : Bool) (w i : Nat) (bytes : List Nat) : Nat :=
  let v := ofBeBytes ((bytes.drop (i * w / 8)).take (w / 8))
  if lsbf then revBits w v else v

/-- A slave-role frame of `nbits` ends (R607 to R610); `sent` words left the transmit FIFO before it ran dry. -/
def slaveRx (nbits : Nat) (bytes : List Nat) (sent : Nat) (s0 : State) : State :=
  let w := wsize s0 0
  let want := cdiv nbits w
  let out := min sent (min want (spxOf s0 0).tx.length)
  let s1 := spxMod 0 (fun p => { p with tx := p.tx.drop out, sent := p.tx.take out }) s0
  let s2 := if out < want then spxErr 0 (Reg.SPX_ERR_UNDER 0) false s1 else s1
  let limit := s2.rdC (Reg.SPX_PDAT_LEN 0) + 1
  let kept := min nbits limit
  let s3 := if limit < nbits then spxFlag 0 (Reg.SPX_STAT_OVERLEN 0) (Reg.SPX_IEN_OVERLEN 0) s2 else s2
  if kept % w ≠ 0 ∨ nbits < w then spxErr 0 (Reg.SPX_ERR_FRAG 0) true s3
  else if !spxRoom s3 0 (kept / 8) then spxErr 0 (Reg.SPX_ERR_RXOVF 0) true s3
  else spxKeep 0 ⟨(List.range (kept / w)).map (fun i => (w, rxWord (s3.on (Reg.SPX_CFG_LSBF 0)) w i bytes)), kept, decide (limit < nbits)⟩ s3

/-- Empty a FIFO (R620). -/
def spxTxFlush (n : Nat) (s : State) : State := spxShow n (spxMod n (fun p => { p with tx := [] }) s)
def spxRxFlush (n : Nat) (s : State) : State := spxShow n (spxMod n (fun p => { p with rx := [] }) s)

/-- A port's registers and FIFOs at their reset values (R617), with EN = 0. -/
def spxClear (n : Nat) (s : State) : State :=
  let lo := (0x40110000 + 0x10000 * n) * 32
  let keep := fun (x : Nat × Nat) => !(decide (lo ≤ x.1) && decide (x.1 < lo + 0x10000 * 32))
  let s1 := spxMod n (fun _ => Spx.reset) { s with regs := s.regs.filter keep, com := s.com.filter keep }
  (s1.clr (Reg.SPX_CTL_EN n)).clr (Reg.SPX_STAT_RUN n)

end Sys2Proof.Machine
end

