-- ==== Sys2Proof/Machine/TmrOps.lean ====
section
/-!
DEFINITION. Timers (R572 to R585). A timer ticks every 2^PSC cycles of the 100 MHz PERI clock: 125 PERI cycles are 384 FIRN cycles.
-/
namespace Sys2Proof.Machine

/-- Timer `t` and channel `c` of it. -/
def tmrOf (s : State) (t : Nat) : Tmr := s.tmrs.getD t Tmr.reset
def tmrCh (s : State) (t c : Nat) : TmrCh := (tmrOf s t).chs.getD c ⟨false, 0⟩

/-- Change timer `t`, and channel `c` of it. -/
def tmrMod (t : Nat) (f : Tmr → Tmr) (s : State) : State := { s with tmrs := modAt s.tmrs t f }
def tmrModCh (t c : Nat) (f : TmrCh → TmrCh) (s : State) : State := tmrMod t (fun x => { x with chs := modAt x.chs c f }) s

/-- PERI cycles in a span of FIRN cycles, rounded down. -/
def periOf (cyc : Nat) : Nat := cyc * 125 / 384

/-- FIRN cycles that hold a number of PERI cycles, rounded up. -/
def cycOfPeri (n : Nat) : Nat := cdiv (n * 384) 125

/-- Ticks since `t0` under the committed prescaler (R572). -/
def tmrTicks (s : State) (t : Nat) : Nat :=
  if s.on (Reg.TMR_STAT_RUN t) then periOf (s.elapsed - (tmrOf s t).t0) / 2 ^ s.rdC (Reg.TMR_CTL_PSC t) else 0

/-- The count without its wrap. -/
def tmrRaw (s : State) (t : Nat) : Nat := (tmrOf s t).cnt0 + tmrTicks s t

/-- The committed TOP. -/
def tmrTop (s : State) (t : Nat) : Nat := s.rdC (Reg.TMR_TOP t)

/-- CNT as a read shows it (R572): the count, wrapped at TOP. -/
def tmrCnt (s : State) (t : Nat) : Nat :=
  if tmrTop s t < (tmrOf s t).cnt0 then tmrRaw s t % 2 ^ 32 else tmrRaw s t % (tmrTop s t + 1)

/-- The channel flag of channel `c` and its event (R575 to R577). -/
def tmrFlag (t c : Nat) (s : State) : State := (s.setBit (Reg.TMR_STAT_CCF t) c).raise (172 + 2 * t)

/-- The fields that APPLY commits (R574). -/
def tmrSFields (t : Nat) : List Field :=
  [Reg.TMR_TOP t, Reg.TMR_CTL_PSC t] ++ (List.range 4).map (fun c => Reg.TMR_CC_DUTY t c)

/-- A commit is refused when a PWM channel has DUTY above TOP + 1 (R574). -/
def tmrRefused (t : Nat) (s : State) : Bool :=
  (List.range 4).any (fun c => s.rd (Reg.TMR_CC_CTL_MODE t c) == 2 && decide (s.rd (Reg.TMR_TOP t) + 1 < s.rd (Reg.TMR_CC_DUTY t c)))

/-- Commit TOP, PSC and DUTY, or refuse the commit whole; APPLY reads 0 (R15, R16, R574). -/
def tmrCommit (t : Nat) (s : State) : State :=
  let s1 := s.clr (Reg.TMR_CTL_APPLY t)
  if tmrRefused t s then s1.set1 (Reg.TMR_STAT_CFGERR t) else s1.commitFields (tmrSFields t)

/-- Start timer `t` with CNT 0, at elapsed time `at_` (R573, R574): a pending commit is made first; a start while RUN is 1 is ignored.
The counter's start is no match, so a compare value of 0 counts as passed. -/
def tmrStart (t : Nat) (s : State) : State :=
  if s.on (Reg.TMR_STAT_RUN t) then s else
  let s1 := if s.on (Reg.TMR_CTL_APPLY t) then tmrCommit t s else s
  let zero := (List.range 4).filter (fun c => (s1.rd (Reg.TMR_CC_CTL_MODE t c) == 1 && s1.rd (Reg.TMR_CC_CMP t c) == 0) || (s1.rd (Reg.TMR_CC_CTL_MODE t c) == 2 && s1.rdC (Reg.TMR_CC_DUTY t c) == 0))
  (tmrMod t (fun x => { x with t0 := s1.elapsed, cnt0 := 0, seen := zero, chs := x.chs.map (fun ch => { ch with edges := 0 }) }) (s1.set1 (Reg.TMR_STAT_RUN t))).setBit Reg.TMR_GCTL_RUN t

/-- Apply OUTACT (R575): 1 set, 2 clear, 3 toggle. -/
def outAct (a : Nat) (o : Bool) : Bool := match a with | 1 => true | 2 => false | 3 => !o | _ => o

/-- One match of a compare channel (R575): CCF, EV172 + 2t and OUTACT. -/
def tmrMatch (t c : Nat) (s : State) : State :=
  tmrFlag t c (tmrModCh t c (fun ch => { ch with out := outAct (s.rd (Reg.TMR_CC_CTL_OUTACT t c)) ch.out }) s)

/-- TIMER_WRAP (R572, R574): the tick from TOP to 0: UPF, EV171 + 2t, and a pending commit. -/
def timerWrapOk (t : Nat) (s : State) : Bool :=
  decide (t < 8) && s.on (Reg.TMR_STAT_RUN t) && decide ((tmrOf s t).cnt0 ≤ tmrTop s t) && decide (tmrTop s t < tmrRaw s t)
def timerWrap (t : Nat) (s : State) : State :=
  let past := cycOfPeri ((tmrTop s t + 1 - (tmrOf s t).cnt0) * 2 ^ s.rdC (Reg.TMR_CTL_PSC t))
  let s1 := tmrMod t (fun x => { x with t0 := x.t0 + past, cnt0 := 0, seen := [] }) ((s.set1 (Reg.TMR_STAT_UPF t)).raise (171 + 2 * t))
  if s1.on (Reg.TMR_CTL_APPLY t) then tmrCommit t s1 else s1
def execTimerWrap (t dt : Nat) (s : State) : Host.Outcome State Fault Refusal :=
  .next (onlyIf (timerWrapOk t (s.pass dt)) (timerWrap t (s.pass dt)) (s.pass dt))

/-- A threshold of channel `c` has been reached in this lap and not yet acted on. -/
def tmrReached (t c v : Nat) (s : State) : Bool :=
  decide (t < 8) && decide (c < 4) && s.on (Reg.TMR_STAT_RUN t) && !((tmrOf s t).seen.contains c) && decide (v ≤ tmrTop s t) && decide (v ≤ tmrRaw s t)

/-- Note that channel `c` has acted in this lap. -/
def tmrSee (t c : Nat) (s : State) : State := tmrMod t (fun x => { x with seen := c :: x.seen.filter (fun d => !(d == c)) }) s

/-- COMPARE_MATCH (R575): a tick advances CNT to CMP. -/
def compareMatchOk (t c : Nat) (s : State) : Bool := s.rd (Reg.TMR_CC_CTL_MODE t c) == 1 && tmrReached t c (s.rd (Reg.TMR_CC_CMP t c)) s
def compareMatch (t c : Nat) (s : State) : State := tmrMatch t c (tmrSee t c s)
def execCompareMatch (t c dt : Nat) (s : State) : Host.Outcome State Fault Refusal :=
  .next (onlyIf (compareMatchOk t c (s.pass dt)) (compareMatch t c (s.pass dt)) (s.pass dt))

/-- PWM_DUTY_REACHED (R576): a tick advances CNT to the committed DUTY: the output falls, and CCF and the event follow. -/
def pwmDutyReachedOk (t c : Nat) (s : State) : Bool := s.rd (Reg.TMR_CC_CTL_MODE t c) == 2 && tmrReached t c (s.rdC (Reg.TMR_CC_DUTY t c)) s
def pwmDutyReached (t c : Nat) (s : State) : State := tmrFlag t c (tmrSee t c s)
def execPwmDutyReached (t c dt : Nat) (s : State) : Host.Outcome State Fault Refusal :=
  .next (onlyIf (pwmDutyReachedOk t c (s.pass dt)) (pwmDutyReached t c (s.pass dt)) (s.pass dt))

/-- The channel's output (R575, R576): in PWM mode 1 while CNT is below the committed DUTY. -/
def tmrOut (s : State) (t c : Nat) : Bool :=
  if s.rd (Reg.TMR_CC_CTL_MODE t c) = 2 then s.on (Reg.TMR_STAT_RUN t) && decide (tmrCnt s t < s.rdC (Reg.TMR_CC_DUTY t c)) else (tmrCh s t c).out

/-- A capture (R577): CNT is held, CAPF and CCF set, OVR when a held value goes unread, EV172 + 2t. -/
def tmrCapture (t c : Nat) (s : State) : State :=
  let s1 := if bitOf (s.rd (Reg.TMR_STAT_CAPF t)) c = 1 then s.setBit (Reg.TMR_STAT_OVR t) c else s
  tmrFlag t c ((s1.wr (Reg.TMR_CC_CAP t c) (tmrCnt s t)).setBit (Reg.TMR_STAT_CAPF t) c)

/-- A qualifying edge (R577): every Nth captures, N = EPSC + 1. -/
def tmrEdge (t c : Nat) (s : State) : State :=
  let n := (tmrCh s t c).edges + 1
  if s.rd (Reg.TMR_CC_CTL_EPSC t c) + 1 ≤ n then tmrCapture t c (tmrModCh t c (fun ch => { ch with edges := 0 }) s)
  else tmrModCh t c (fun ch => { ch with edges := n }) s

/-- TIMER_CAPTURE (R577): an edge of the filtered level of the pin that CAPSEL names; EDGE selects rising, falling or both. -/
def timerCaptureOk (t c : Nat) (rising : Bool) (s : State) : Bool :=
  let e := s.rd (Reg.TMR_CC_CTL_EDGE t c)
  decide (t < 8) && decide (c < 4) && s.rd (Reg.TMR_CC_CTL_MODE t c) == 3 && decide (s.rd (Reg.TMR_CC_CTL_CAPSEL t c) < 0x20) && (e == 2 || (e == 0 && rising) || (e == 1 && !rising))
def execTimerCapture (t c : Nat) (rising : Bool) (dt : Nat) (s : State) : Host.Outcome State Fault Refusal :=
  .next (onlyIf (timerCaptureOk t c rising (s.pass dt)) (tmrEdge t c (s.pass dt)) (s.pass dt))

/-- A FORCE write (R575 to R577): one match in compare mode, one capture in capture mode, nothing in PWM mode or off. -/
def tmrForce (t c : Nat) (s : State) : State :=
  match s.rd (Reg.TMR_CC_CTL_MODE t c) with
  | 1 => tmrMatch t c s
  | 3 => tmrCapture t c s
  | _ => s

/-- A write of CMP (R575): a value at or below the count waits for the next lap. -/
def tmrWriteCmp (t c v : Nat) (s : State) : State :=
  let s1 := s.wr (Reg.TMR_CC_CMP t c) v
  tmrMod t (fun x => { x with seen := if s.on (Reg.TMR_STAT_RUN t) && decide (v ≤ tmrRaw s t) then c :: x.seen.filter (fun d => !(d == c)) else x.seen.filter (fun d => !(d == c)) }) s1

/-- A channel input that a firing of Geyser channel `ch` reaches (R573, R577): starts and captures. -/
def tmrChannel (ch : Nat) (s : State) : State :=
  (List.range 8).foldl (fun u t =>
    let u1 := if u.rd (Reg.TMR_CTL_STSEL t) = 0x40 + ch then tmrStart t u else u
    (List.range 4).foldl (fun v c => if v.rd (Reg.TMR_CC_CTL_MODE t c) = 3 ∧ v.rd (Reg.TMR_CC_CTL_CAPSEL t c) = 0x40 + ch then tmrEdge t c v else v) u1) s

/-- Whether a firing of Geyser channel `ch` has a subscriber in TMR. -/
def tmrListens (ch : Nat) (s : State) : Bool :=
  (List.range 8).any (fun t => s.rd (Reg.TMR_CTL_STSEL t) == 0x40 + ch ||
    (List.range 4).any (fun c => s.rd (Reg.TMR_CC_CTL_MODE t c) == 3 && s.rd (Reg.TMR_CC_CTL_CAPSEL t c) == 0x40 + ch))

/-- The block reset (R578): every counter stops and every TMR register returns to its reset value. -/
def tmrBlockReset (s : State) : State :=
  { s with tmrs := List.replicate 8 Tmr.reset,
           regs := s.regs.filter (fun p => !(decide (0x40040000 * 32 ≤ p.1) && decide (p.1 < 0x40050000 * 32))),
           com := s.com.filter (fun p => !(decide (0x40040000 * 32 ≤ p.1) && decide (p.1 < 0x40050000 * 32))) }

/-- A read of CCc_CAP (R577): the held value; CAPF clears. -/
def tmrCapRead (t c : Nat) (s : State) : Nat × State := (s.rd (Reg.TMR_CC_CAP t c), s.clrBit (Reg.TMR_STAT_CAPF t) c)

end Sys2Proof.Machine
end

