-- ==== Sys2Proof/Machine/PwrOps.lean ====
section
/-!
DEFINITION. The power controller: handshakes, thaw stalls, Stop, the wake timer, the wake-up receiver's wake, and Glety's votes (R627 to R653, R778, R244 to R246, R759).
-/
namespace Sys2Proof.Machine

/-! ### The blocks' answers (R633, R634) -/

/-- What a block answers. -/
inductive Ans | ack | delay (reason : Nat) | refuse (reason : Nat)
  deriving DecidableEq, Repr

/-- One row of the table: a condition and its answer. -/
def ansIf (c : Bool) (a : Ans) : Ans := if c then a else .ack

/-- The answer of a domain: a REFUSE, else the first DELAY, else ACK. -/
def ansAll (l : List Ans) : Ans :=
  match l.find? (fun a => match a with | .refuse _ => true | _ => false) with
  | some a => a
  | none => (l.find? (fun a => match a with | .delay _ => true | _ => false)).getD .ack

/-- A domain waits for the Enter phase of a Stop (R635). -/
def hsAcked (s : State) (n : Nat) : Bool := s.pwr.hs.any (fun h => h.dom == n && h.acked)

/-- A schedule item runs (R195): a frame of the transmit chain is on the air, or a connection event is open. -/
def itemRuns (s : State) : Bool := txBusy s || s.lnk.conns.any (fun c => c.open_)

/-- The answers of the blocks of a domain to a target (R634). -/
def domAnswers (s : State) (n target : Nat) : List Ans :=
  let off := target == 2
  match n with
  | 1 => [ansIf ((List.range 32).any (cmpInflight s)) (.delay 0x83), ansIf (off && (List.range 32).any (fun c => s.on (Reg.FIRN_CMP_STAT_ARMED c))) (.refuse 0x03)]
  | 3 => [ansIf (s.on Reg.RFE_STAT_TXON) (.delay 0x84)]
  | 4 => [ansIf (s.rxc.decs.any Dec.isBusy) (.delay 0x85), ansIf (s.runner.run.isSome) (if off then .refuse 0x04 else (match s.runner.run with | some r => if r.suspended then .ack else .delay 0x89 | none => .ack)),
          ansIf (off && !s.runner.queue.isEmpty) (.refuse 0x04)]
  | 5 => [ansIf (itemRuns s) (.delay 0x86)]
  | 11 => [ansIf ([3, 4, 5, 6, 7, 8, 9, 10, 12, 13, 14].any (fun d => (domState s d == 0 || domState s d == 3) && !hsAcked s d)) (.refuse 0x05), ansIf (off && mbLive s != 0) (.refuse 0x06)]
  | 12 => [ansIf (!s.flc.run.isEmpty) (.delay 0x87), ansIf (off && s.isC) (.refuse 0x07)]
  | 14 => [ansIf ((List.range 8).any (fun t => s.on (Reg.TMR_STAT_RUN t))) (.refuse 0x01), ansIf (s.on (Reg.SPX_STAT_GLETY 1)) (.refuse 0x02),
           ansIf (s.on (Reg.SPX_STAT_ACTIVE 0) || s.on (Reg.SPX_STAT_ACTIVE 1)) (.delay 0x81), ansIf (s.lmp.dali.isSome && !s.lmp.daliWait) (.delay 0x82)]
  | _ => if 7 ≤ n ∧ n ≤ 10 then [ansIf (!((s.cores.getD (n - 6) (Core.reset 0)).wfi || (s.cores.getD (n - 6) (Core.reset 0)).held)) (.delay 0x88)] else []
def domAnswer (s : State) (n target : Nat) : Ans := ansAll (domAnswers s n target)

/-! ### Entering, losing and coming back (R630) -/

/-- The domain whose Off loses a register, by its key; none for registers that Off leaves (R630: PD_LNK loses its RAMs alone, PD_RF nothing, SYS never). -/
def keyDomain (isC : Bool) (key : Nat) : Nat :=
  let a := key / 32
  if 2 ^ 40 ≤ a then 14 else if 2 ^ 32 ≤ a then 11
  else match rgnOf isC a with
    | .slot 23 => 0
    | .slot 22 => 14
    | .slot n => let d := rgnDomain (.slot n); if d = 6 ∨ d = 11 ∨ d = 13 ∨ d = 14 ∨ (d = 12 ∧ n = 15) then d else 0
    | _ => 0

/-- The registers of a domain return to their reset values. -/
def regsLost (n : Nat) (s : State) : State :=
  { s with regs := s.regs.filter (fun r => keyDomain s.isC r.1 != n), com := s.com.filter (fun r => keyDomain s.isC r.1 != n) }

/-- The reset vector of a compact-form core (R369), by its place in the list. -/
def coreVector (i : Nat) : Nat := if i = 0 then 0x00000000 else 0x20000000

/-- Put a core into reset. -/
def coreReset (i : Nat) (s : State) : State := { s with cores := modAt s.cores i (fun _ => Core.reset (coreVector i)) }
def sigReset (i : Nat) (s : State) : State := { s with sig := modAt s.sig i (fun _ => SigCore.reset (0x30000000 + 0x100000 * i)) }

/-- Every comparator is disarmed (R630). -/
def cmpDisarmAll (s : State) : State :=
  let s1 := (List.range 32).foldl (fun t n => ((t.clr (Reg.FIRN_CMP_STAT_ARMED n)).clr (Reg.FIRN_CMP_STAT_INFLIGHT n)).clr (Reg.FIRN_CMP_CTL_ARM n)) s
  { s1 with firn := { s1.firn with flight := [], armAt := [] } }

/-- What a domain loses in Off (R630). -/
def domLose (n : Nat) (s0 : State) : State :=
  let s := regsLost n s0
  match n with
  | 1 => let s1 := cmpDisarmAll s; { s1 with firn := { s1.firn with stopped := true, coasting := false, exitPhase := 0 } }
  | 4 => let s1 := sigReset 1 (sigReset 0 (s.memClear 0x30000000 0x3017FFFF)); { s1 with runner := Runner.reset }
  | 5 => (List.range 9).foldl (fun t i => coreReset (5 + i) t) (s.memClear 0x21100000 0x21147FFF)
  | 6 => let s1 := coreReset 0 ((s.memClear 0x21000000 0x2101FFFF).memClear 0x21030000 0x2103FFFF)
         (List.range 8).foldl (fun t i => t.wr (Reg.AGE_ISL_FCEIL i) (s.age.ceil.getD i 0 / 1000)) ({ s1 with cph := Cph.reset }.wr Reg.AGE_STAT_NEXT (s0.rd Reg.AGE_STAT_NEXT))
  | 11 => { ((s.memClear 0x10000000 0x105FFFFF).memClear 0x400D8000 0x400DFFFF) with mboxes := List.replicate 4 Mbox.reset, msh := { Msh.reset with mseq := s.msh.mseq, groups := s.msh.groups }, evt := Evt.reset }
  | 12 => { s with flc := { s.flc with ptrs := ptrSearch s.flc.pages, taken := [], run := [], refetch := [] } }
  | 13 => { s with wpt := List.replicate 2 Wpt.reset }
  | 14 => { s with tmrs := List.replicate 8 Tmr.reset, spx := [Spx.reset, Spx.reset], lmp := Lmp.reset, pwr := { s.pwr with floats := true } }
  | _ => if 7 ≤ n ∧ n ≤ 10 then coreReset (n - 6) (s.memClear (0x21040000 + 0x20000 * (n - 7)) (0x21040000 + 0x20000 * (n - 7) + 0x1FFFF)) else s

/-- LMP takes a launch on a channel (R720). -/
def lmpListens (ch : Nat) (s : State) : Bool :=
  (s.on Reg.LMP_CTL_APPLY && s.on Reg.LMP_CTL_LTEN && s.rd Reg.LMP_CTL_LCH == ch) || (s.rdC Reg.LMP_CTL_LTEN == 1 && s.rdC Reg.LMP_CTL_LCH == ch)

/-- The channels that subscribers of a domain have selected (R642): timers and LMP in PD_IO, kernels in PD_SIG. -/
def domSubs (n : Nat) (s : State) : List Nat :=
  (List.range 64).filter (fun ch => if n = 14 then tmrListens ch s || (decide (ch < 8) && lmpListens ch s) else n == 4 && krnListens ch s)

/-- A domain enters Retention or Off (R630, R633): HELD clears, CHANGED sets. -/
def domEnter (n target : Nat) (s00 : State) : State :=
  let s := if target = 2 then pwrMod (fun p => { p with subs := put n (domSubs n s00) p.subs }) s00 else s00
  let s0 := pwrChanged (((cycRebase s).wr (Reg.PWR_DOM_STATE n) target).clr (Reg.PWR_DOM_HELD n))
  if target = 2 then domLose n s0
  else match n with
    | 1 => coastEnter s0
    | 13 => portDown 1 (portDown 0 s0)
    | 14 => { s0 with pwr := { s0.pwr with floats := true } }
    | _ => s0

/-- A core runs from its reset vector once its domain is back from Off. -/
def coreStart (i : Nat) (s : State) : State := { s with cores := modAt s.cores i (fun c => { c with held := false, cycAt := s.elapsed }) }

/-- Core clocks of a domain count on from now. -/
def cycResume (s : State) : State :=
  { s with cores := s.cores.map (fun c => { c with cycAt := s.elapsed }), sig := s.sig.map (fun c => { c with cycAt := s.elapsed }) }

/-- A domain is ready (R630, R637, R638): its restore is done. -/
def domReady (n from_ : Nat) (s : State) : State :=
  let s1 := pwrChanged ((cycResume (cycRebase s)).wr (Reg.PWR_DOM_STATE n) 0)
  let s2 := match n with
    | 1 => if from_ = 2 then firnRestore s1 else if s1.firn.coasting ∧ s1.firn.tcxoLost.isNone then { s1 with firn := { s1.firn with exitPhase := 1 } } else s1
    | 2 => wurConfig s1
    | 4 => if from_ = 2 then { s1 with sig := s1.sig.map (fun c => { c with held := false }) } else s1
    | 5 => if from_ = 2 then (List.range 9).foldl (fun t i => coreStart (5 + i) t) s1 else s1
    | 6 => if from_ = 2 then coreStart 0 s1 else s1
    | 11 => if from_ = 2 then mshConfig s1.netCfg s1 else s1
    | 14 => { s1 with pwr := { s1.pwr with floats := false } }
    | _ => if 7 ≤ n ∧ n ≤ 10 ∧ from_ = 2 then coreStart (n - 6) s1 else s1
  voteChanged n (pwrMod (fun p => { p with rise := p.rise.filter (fun r => !(r.dom == n)), waits := p.waits.filter (fun w => !(w.dom == n)) }) s2)

/-! ### Handshakes (R632 to R636) -/

/-- A vote that waited for the handshake's end is applied (R632). -/
def hsAfter (n : Nat) (s : State) : State :=
  if s.pwr.later.contains n then voteChanged n (pwrMod (fun p => { p with later := p.later.filter (fun x => !(x == n)) }) s) else s

/-- A Stop is refused whole (R643): every domain stays On, the log entry carries DOMAIN 15, STOPREQ clears. -/
def stopRefuse (reason : Nat) (s : State) : State :=
  let s1 := pwrMod (fun p => { p with hs := [], stop := .none }) s
  ((pwrLog 15 1 reason (s1.inc Reg.PWR_REFCNT)).clr Reg.PWR_CTL_STOPREQ).wr Reg.PWR_STAT_MODE 0

/-- An entry is refused (R633). -/
def hsRefuse (h : Hs) (reason : Nat) (s : State) : State :=
  if s.pwr.stop = .handshake then stopRefuse reason s
  else hsAfter h.dom (pwrLog h.dom h.target reason (((hsDrop h.dom s).set1 (Reg.PWR_DOM_HELD h.dom)).inc Reg.PWR_REFCNT))

/-- Ask the blocks of a domain. -/
def hsAsk (h : Hs) (s : State) : State :=
  let set := fun (f : Hs → Hs) (t : State) => pwrMod (fun p => { p with hs := p.hs.map (fun x => if x.dom = h.dom then f x else x) }) t
  match domAnswer s h.dom h.target with
  | .refuse r => hsRefuse h r s
  | .delay r => if s.rd (Reg.PWR_DOM_DLYLIM h.dom) = 0 then hsRefuse h r s else set (fun x => { x with asked := some s.elapsed, delay := some r }) s
  | .ack => if s.pwr.stop = .handshake then set (fun x => { x with asked := some s.elapsed, delay := none, acked := true }) s else hsAfter h.dom (domEnter h.dom h.target (hsDrop h.dom s))

/-- PD_FAB's handshake starts when every other pending entry is over or, in a Stop, answered ACK (R635). -/
def fabMayAsk (s : State) : Bool := s.pwr.hs.all (fun h => h.dom == 11 || h.acked)

/-- ENTRY_HANDSHAKE (R633). -/
def entryHandshakeOk (n : Nat) (s : State) : Bool := match hsOf s n with | some h => h.asked.isNone && (n != 11 || fabMayAsk s) | none => false
def entryHandshake (n : Nat) (s : State) : State := match hsOf s n with | some h => hsAsk h s | none => s
def execEntryHandshake (n dt : Nat) (s : State) : Host.Outcome State Fault Refusal :=
  .next (onlyIf (entryHandshakeOk n (s.pass dt)) (entryHandshake n (s.pass dt)) (s.pass dt))

/-- HANDSHAKE_RETRY (R633): every 10 µs while a block delays. -/
def handshakeRetryOk (n : Nat) (s : State) : Bool :=
  match hsOf s n with | some h => h.delay.isSome && (match h.asked with | some t => decide (t + cycUs 10 ≤ s.elapsed) | none => false) | none => false
def execHandshakeRetry (n dt : Nat) (s : State) : Host.Outcome State Fault Refusal :=
  .next (onlyIf (handshakeRetryOk n (s.pass dt)) (entryHandshake n (s.pass dt)) (s.pass dt))

/-- DELAY_LIMIT (R633): DLYLIM times 100 µs pass with a block still delaying. -/
def delayLimitOk (n : Nat) (s : State) : Bool := match hsOf s n with | some h => h.delay.isSome && decide (h.since + cycUs (100 * s.rd (Reg.PWR_DOM_DLYLIM n)) ≤ s.elapsed) | none => false
def delayLimit (n : Nat) (s : State) : State := match hsOf s n with | some h => hsRefuse h (h.delay.getD 0) s | none => s
def execDelayLimit (n dt : Nat) (s : State) : Host.Outcome State Fault Refusal :=
  .next (onlyIf (delayLimitOk n (s.pass dt)) (delayLimit n (s.pass dt)) (s.pass dt))

/-- ENTRY_ABANDON (R636): an access reaches a domain whose handshake runs. -/
def execEntryAbandon (n dt : Nat) (s : State) : Host.Outcome State Fault Refusal :=
  .next (onlyIf ((hsOf (s.pass dt) n).isSome && (s.pass dt).pwr.stop == .none) (hsAfter n (entryAbandon n (s.pass dt))) (s.pass dt))

/-! ### Thaw stalls (R637 to R640) -/

/-- The first access to a domain in Retention or Off (R637): both votes On, the count, and the rise. -/
def thawStart (n : Nat) (s : State) : State :=
  let s1 := ((s.wr (Reg.PWR_DOM_CREQ n) 0).wr (Reg.PWR_DOM_GREQ n) 0).wr (Reg.PWR_DOM_TARGET n) (if n = 13 ∧ leafMode s then 2 else 0)
  domRise n true (s1.inc Reg.PWR_THAWCNT)

/-- An access of an initiator meets a domain that is not On: it waits. -/
def accessWait (ini n : Nat) (s : State) : State :=
  let s1 := if domState s n = 1 ∨ domState s n = 2 then thawStart n s else s
  if s1.pwr.waits.any (fun w => w.ini == ini && w.dom == n) then s1 else pwrMod (fun p => { p with waits := p.waits ++ [PwrWait.mk ini n s.elapsed] }) s1

/-- THAW_STALL (R637): a first access of an initiator to a sleeping domain. -/
def thawStallOk (ini n : Nat) (s : State) : Bool := decide (1 ≤ n) && decide (n ≤ 14) && !domOn s n && decide (ini < 32)
def execThawStall (ini n dt : Nat) (s : State) : Host.Outcome State Fault Refusal :=
  .next (onlyIf (thawStallOk ini n (s.pass dt)) (accessWait ini n (s.pass dt)) (s.pass dt))

/-- A domain on its way up, and whether it may be ready: PD_SIG, PD_LNK, PD_SUP and PD_APPn from Off take 200 µs or more (R639), and PD_FAB is up first (R635). -/
def riseOf (s : State) (n : Nat) : Option Rise := s.pwr.rise.find? (fun r => r.dom == n)
def longRestore (n : Nat) : Bool := decide (4 ≤ n) && decide (n ≤ 10)
def readyOk (n : Nat) (thaw : Bool) (s : State) : Bool :=
  match riseOf s n with
  | some r => r.thaw == thaw && (n == 11 || domOn s 11) && (!(r.from_ == 2 && longRestore n) || decide (r.at_ + cycUs 200 ≤ s.elapsed))
  | none => false
def riseDone (n : Nat) (s : State) : State := match riseOf s n with | some r => domReady n r.from_ s | none => s

/-- THAW_READY (R638). -/
def execThawReady (n dt : Nat) (s : State) : Host.Outcome State Fault Refusal :=
  .next (onlyIf (readyOk n true (s.pass dt)) (riseDone n (s.pass dt)) (s.pass dt))

/-- DOMAIN_UP (R632): a domain raised by a vote, the wake timer or an event wake is ready. -/
def execDomainUp (n dt : Nat) (s : State) : Host.Outcome State Fault Refusal :=
  .next (onlyIf (readyOk n false (s.pass dt)) (riseDone n (s.pass dt)) (s.pass dt))

/-- A posted write of an initiator has failed at its target (R403, R614, R640): a core will be told imprecisely, the host by HW_STAT.BERR. -/
def postFail (ini a kind : Nat) (s : State) : State :=
  if ini ≤ 4 then { s with cores := modAt s.cores ini (fun c => { c with imprecise := c.imprecise ++ [ImpErr.mk a kind 0] }) }
  else if ini ≤ 6 then { s with sig := modAt s.sig (ini - 5) (fun c => { c with imprecise := c.imprecise ++ [ImpErr.mk a kind 0] }) }
  else if ini ≤ 15 then { s with cores := modAt s.cores (ini - 2) (fun c => { c with imprecise := c.imprecise ++ [ImpErr.mk a kind 0] }) }
  else if ini = 21 then (s.set1 Reg.HW_STAT_BERR).wr Reg.HW_BERRADDR a
  else s

/-- The write that FAB holds for an initiator and a domain fails with the timeout (R405, R640); the next one is taken and waits in its turn (R29). -/
def heldFail (ini n : Nat) (s : State) : State :=
  match s.pwr.held.find? (fun h => h.ini == ini && h.dom == n) with
  | none => s
  | some h =>
    let s1 := postFail ini h.addr 4 (busError ini true h.addr 4 false (pwrMod (fun p => { p with held := p.held.erase h }) s))
    if s1.pwr.held.any (fun h => h.ini == ini && h.dom == n) then pwrMod (fun p => { p with waits := p.waits ++ [PwrWait.mk ini n s.elapsed] }) s1 else s1

/-- THAW_TIMEOUT (R639): 200 µs after the access reached the controller its domain is not ready: the access fails with KIND 4 when it is made again. -/
def thawTimeoutOk (ini n : Nat) (s : State) : Bool :=
  (longRestore n || n == 11) && s.pwr.waits.any (fun w => w.ini == ini && w.dom == n && decide (w.at_ + cycUs 200 ≤ s.elapsed))
def thawTimeout (ini n : Nat) (s : State) : State :=
  let s1 := (pwrMod (fun p => { p with waits := p.waits.filter (fun w => !(w.ini == ini && w.dom == n)) }) s).inc Reg.PWR_THAWTOCNT
  if s1.pwr.held.any (fun h => h.ini == ini && h.dom == n) then heldFail ini n s1 else pwrMod (fun p => { p with expired := p.expired ++ [(ini, n)] }) s1
def execThawTimeout (ini n dt : Nat) (s : State) : Host.Outcome State Fault Refusal :=
  .next (onlyIf (thawTimeoutOk ini n (s.pass dt)) (thawTimeout ini n (s.pass dt)) (s.pass dt))

/-! ### Anchor Stop (R643, R644) -/

/-- A Stop is asked for: every domain but PD_WUR starts a handshake toward Retention; MODE 1. -/
def stopAsk (byPfail : Bool) (s : State) : State :=
  if s.pwr.stop ≠ .none then s
  else
    let l := (List.range 14).filterMap (fun i => if i + 1 = 2 then none else some (Hs.mk (i + 1) 1 s.elapsed none none false))
    (pwrMod (fun p => { p with hs := l, stop := .handshake, byPfail := byPfail, wake := false, pfailAt := s.elapsed }) s).wr Reg.PWR_STAT_MODE 1

/-- A write of STOPREQ (R648, R629). -/
def stopReqWrite (s : State) : State :=
  if leafMode s then s.set1 Reg.PWR_STAT_CFGERR else if s.on Reg.PWR_CTL_STOPREQ then s else stopAsk false (s.set1 Reg.PWR_CTL_STOPREQ)

/-- PFAIL_LOW (R643): the ball goes low. -/
def pfailLow (s : State) : State :=
  let s1 := pwrMod (fun p => { p with pfailLow := true }) s
  if s.on Reg.PWR_CTL_PFAILEN ∧ ¬ leafMode s then stopAsk true s1 else s1
def execPfailLow (dt : Nat) (s : State) : Host.Outcome State Fault Refusal := .next (pfailLow (s.pass dt))

/-- PFAIL_RETRY (R643): asked again every 10 ms while the ball stays low. -/
def pfailRetryOk (s : State) : Bool := s.pwr.pfailLow && s.on Reg.PWR_CTL_PFAILEN && !leafMode s && s.pwr.stop == .none && s.pwr.byPfail && decide (s.pwr.pfailAt + cycMs 10 ≤ s.elapsed)
def execPfailRetry (dt : Nat) (s : State) : Host.Outcome State Fault Refusal :=
  .next (onlyIf (pfailRetryOk (s.pass dt)) (stopAsk true (s.pass dt)) (s.pass dt))

/-- STOP_ENTER (R635, R644): every domain has answered ACK; all enter Retention together, the DRAM in self-refresh, FIRN in coast. -/
def stopEnterOk (s : State) : Bool := s.pwr.stop == .handshake && !s.pwr.hs.isEmpty && s.pwr.hs.all (fun h => h.acked)
def stopEnter (s : State) : State :=
  let s1 := portDown 1 (portDown 0 (coastEnter (cycRebase s)))
  let s2 := s1.pwr.hs.foldl (fun t h => t.wr (Reg.PWR_DOM_STATE h.dom) 1) s1
  pwrChanged (pwrMod (fun p => { p with hs := [], stop := .stopped, floats := true }) s2)
def execStopEnter (dt : Nat) (s : State) : Host.Outcome State Fault Refusal :=
  .next (onlyIf (stopEnterOk (s.pass dt)) (stopEnter (s.pass dt)) (s.pass dt))

/-- STOP_EXIT (R644): PFAIL_N rises, an RTC alarm or wake (EV153, EV154), a WUR match (EV125), or the wake timer: every domain is thawed. -/
def stopExitOk (pfailRise : Bool) (s : State) : Bool :=
  s.pwr.stop == .stopped && ((pfailRise && s.on Reg.PWR_CTL_PFAILEN) || s.pwr.wake || s.flight.contains 153 || s.flight.contains 154 || s.flight.contains 125)
def stopExit (pfailRise : Bool) (s : State) : State :=
  let s1 := (List.range 14).foldl (fun t i => if i + 1 = 2 then t else t.wr (Reg.PWR_DOM_STATE (i + 1)) 0) (cycResume s)
  let s2 : State := if s1.firn.tcxoLost.isNone then { s1 with firn := { s1.firn with exitPhase := 1 } } else s1
  (pwrMod (fun p => { p with stop := .coastExit, wake := false, floats := false, byPfail := p.byPfail && !pfailRise, pfailLow := p.pfailLow && !pfailRise }) s2).wr Reg.PWR_STAT_MODE 0
def execStopExit (pfailRise : Bool) (dt : Nat) (s : State) : Host.Outcome State Fault Refusal :=
  .next (onlyIf (stopExitOk pfailRise (s.pass dt)) (stopExit pfailRise (s.pass dt)) (s.pass dt))

/-- STOP_COAST_EXIT (R644): FIRN counts fine again: STOPREQ clears, CHANGED sets, EV103. -/
def stopCoastExitOk (s : State) : Bool := s.pwr.stop == .coastExit && !s.firn.coasting
def stopCoastExit (s : State) : State := pwrChanged ((pwrMod (fun p => { p with stop := .none }) s).clr Reg.PWR_CTL_STOPREQ)
def execStopCoastExit (dt : Nat) (s : State) : Host.Outcome State Fault Refusal :=
  .next (onlyIf (stopCoastExitOk (s.pass dt)) (stopCoastExit (s.pass dt)) (s.pass dt))

/-! ### The wake timer and RELATCH (R645, R627) -/

/-- A write of PWR_WAKET. -/
def waketWrite (count : Nat) (s : State) : State := pwrMod (fun p => { p with waketAt := if count = 0 then none else some (s.elapsed + count * cycXtal) }) s

/-- Periods remaining; 0 when stopped (R649). -/
def waketNow (s : State) : Nat := match s.pwr.waketAt with | some t => cdiv (t - s.elapsed) cycXtal | none => 0

/-- WAKE_TIMER_EXPIRY (R645). -/
def wakeTimerExpiryOk (s : State) : Bool := match s.pwr.waketAt with | some t => decide (t ≤ s.elapsed) | none => false
def wakeTimerExpiry (s : State) : State :=
  let s1 := (pwrMod (fun p => { p with waketAt := none }) s).set1 Reg.PWR_STAT_WAKEF
  let s2 := (List.range 14).foldl (fun t i => if bitOf (s.rd Reg.PWR_WAKEMASK_DOMS) i = 1 then votesOn (i + 1) t else t) s1
  pwrChanged (if s.on Reg.PWR_WAKEMASK_EXITSTOP then pwrMod (fun p => { p with wake := true }) s2 else s2)
def execWakeTimerExpiry (dt : Nat) (s : State) : Host.Outcome State Fault Refusal :=
  .next (onlyIf (wakeTimerExpiryOk (s.pass dt)) (wakeTimerExpiry (s.pass dt)) (s.pass dt))

/-! ### Glety's votes in Leaf (R778) -/

/-- Glety's vote for PD_WUR and PD_IO. -/
def wurVote (s : State) : Nat := if (wakeCarrier s).isSome then 0 else 2
def ioVote (s : State) : Nat := if s.on (Reg.SPX_STAT_GLETY 1) ∨ lumOn s then 0 else 2

/-- The votes while Glety is awake, and while it sleeps. -/
def awakeVotes (s : State) : List (Nat × Nat) :=
  [(11, 0), (1, 0), (2, wurVote s), (3, if stAct s (stNow s) 11 then 2 else if stAct s (stNow s) 10 then 1 else 0), (4, 0), (5, 0), (6, 0), (7, 2), (8, 2), (9, 2), (10, 2), (12, 0), (13, 2), (14, ioVote s)]
def asleepVotes (s : State) : List (Nat × Nat) :=
  [(1, 1), (2, wurVote s), (3, 2), (4, 1), (5, 2), (6, 2), (7, 2), (8, 2), (9, 2), (10, 2), (12, if s.isC then 1 else 2), (13, 2), (14, ioVote s), (11, 2)]

/-- GLETY_AWAKE (R778). -/
def gletyAwakeOk (s : State) : Bool := leafMode s && s.rd Reg.SYS_BOOT_PHASE == 8
def gletyAwake (s : State) : State := (awakeVotes s).foldl (fun t v => gVote v.1 v.2 t) (pwrMod (fun p => { p with awake := true }) s)
def execGletyAwake (dt : Nat) (s : State) : Host.Outcome State Fault Refusal :=
  .next (onlyIf (gletyAwakeOk (s.pass dt)) (gletyAwake (s.pass dt)) (s.pass dt))

/-- The radio's off state: the first of KIND 0. -/
def radioOff (s : State) : State :=
  match (stEntries (leAt (stBody s) 2 1) ((stBody s).drop 4)).find? (fun e => leAt e 1 1 == 0) with
  | some e => stEnter (leAt e 0 1) 0 { s with rfe := { s.rfe with tx := none } }
  | none => s

/-- GLETY_ASLEEP (R778): no work is left; the radio is in its OFF state. -/
def gletyIdle (s : State) : Bool :=
  s.lnk.conns.all (fun c => !c.open_) && s.mboxes.all (fun b => b.ops.isEmpty && b.backlog.isEmpty) && mbLive s == 0 && s.flc.run.isEmpty && s.rfe.cal.isNone && s.heldNotices.isEmpty
def gletyAsleepOk (s : State) : Bool := leafMode s && s.rd Reg.SYS_BOOT_PHASE == 8 && s.pwr.awake && gletyIdle s
def gletySleep (s : State) : State := let s1 := radioOff s; (asleepVotes s1).foldl (fun t v => gVote v.1 v.2 t) (pwrMod (fun p => { p with awake := false }) s1)
def execGletyAsleep (dt : Nat) (s : State) : Host.Outcome State Fault Refusal :=
  .next (onlyIf (gletyAsleepOk (s.pass dt)) (gletySleep (s.pass dt)) (s.pass dt))

/-! ### Waking a Leaf child (R232, R243 to R246) -/

/-- LEAF_WAKE_TIMER (R232): 2.5 ms before the guard window of the next event of the parent connection. -/
def leafWakeTimerOk (s : State) : Bool :=
  leafMode s && !s.pwr.awake &&
  (match upConn s with | some c => decide (anchor c c.k ≤ s.now + guardOf s c + ftUs 2500) | none => false)
def execLeafWakeTimer (dt : Nat) (s : State) : Host.Outcome State Fault Refusal :=
  .next (onlyIf (leafWakeTimerOk (s.pass dt)) (gletyAwake (s.pass dt)) (s.pass dt))

/-- Bits in which two 32-bit addresses differ. -/
def bitsDiffer (a b : Nat) : Nat := (List.range 32).foldl (fun n i => n + bitOf (a ^^^ b) i) 0

/-- WAKE_MATCH (R243, R244): the 32 bits received after a preamble match the node's address or its group address. -/
def wakeHit (s : State) (w : Nat) : Bool := decide (bitsDiffer w s.lnk.waddr ≤ s.rd Reg.WUR_STAT_TOL)
def wakeHitGrp (s : State) (w : Nat) : Bool := decide (bitsDiffer w s.lnk.gaddr ≤ s.rd Reg.WUR_STAT_TOL) && s.lnk.gaddr != 0
def wakeMatchOk (w : Nat) (s : State) : Bool := s.on Reg.WUR_STAT_EN && domOn s 2 && ((wakeHit s w && s.lnk.waddr != 0) || wakeHitGrp s w)
def wakeMatch (w : Nat) (s : State) : State :=
  let s1 := ((s.raise 125).inc Reg.WUR_WAKECNT).wr Reg.WUR_STAT_LASTGRP (b2n (!(wakeHit s w && s.lnk.waddr != 0)))
  let s2 : State := { s1 with lnk := { s1.lnk with wakeAt := some s1.elapsed } }
  if leafMode s2 then gVote 5 0 (gVote 6 0 (gVote 11 0 (pwrMod (fun p => { p with awake := true }) s2))) else s2
def execWakeMatch (w dt : Nat) (s : State) : Host.Outcome State Fault Refusal :=
  .next (onlyIf (wakeMatchOk w (s.pass dt)) (wakeMatch w (s.pass dt)) (s.pass dt))

/-- WAKE_RESTORE (R244): PD_FAB, PD_SUP and PD_LNK are ready. -/
def wakeRestoreOk (s : State) : Bool :=
  match s.lnk.wakeAt with | some t => decide (t + cycUs 200 ≤ s.elapsed) && ((riseOf s 6).isSome || (riseOf s 5).isSome || (riseOf s 11).isSome) | none => false
def execWakeRestore (dt : Nat) (s : State) : Host.Outcome State Fault Refusal :=
  .next (onlyIf (wakeRestoreOk (s.pass dt)) (riseDone 5 (riseDone 6 (riseDone 11 (s.pass dt)))) (s.pass dt))

/-- TCXO_STABLE (R244): FIRN starts its coast exit, and Glety's awake votes bring up the rest. -/
def tcxoStableOk (s : State) : Bool := s.lnk.wakeAt.isSome && s.firn.coasting
def tcxoStable (s : State) : State :=
  let s1 := gletyAwake s
  let s2 := match riseOf s1 1 with | some r => domReady 1 r.from_ s1 | none => s1
  { s2 with firn := { s2.firn with tcxoLost := none, exitPhase := if s2.firn.coasting ∧ s2.firn.exitPhase = 0 then 1 else s2.firn.exitPhase } }
def execTcxoStable (dt : Nat) (s : State) : Host.Outcome State Fault Refusal :=
  .next (onlyIf (tcxoStableOk (s.pass dt)) (tcxoStable (s.pass dt)) (s.pass dt))

/-- FALSE_WAKE (R246): 50 ms after a match with no addressed frame and no beacon of the parent. -/
def falseWakeOk (s : State) : Bool := match s.lnk.wakeAt with | some t => decide (t + cycMs 50 ≤ s.elapsed) | none => false
def falseWake (s : State) : State :=
  let s1 := (({ s with lnk := { s.lnk with wakeAt := none } }).inc Reg.WUR_FALSECNT).raise 126
  if leafMode s1 then gletySleep s1 else s1
def execFalseWake (dt : Nat) (s : State) : Host.Outcome State Fault Refusal :=
  .next (onlyIf (falseWakeOk (s.pass dt)) (falseWake (s.pass dt)) (s.pass dt))

/-! ### The TCXO (R759) and the FAB clock (R685, R686) -/

/-- TCXO_LOSS (R759): FIRN coasts, the RFE enters its OFF state, and Glety writes a health record, whose code R663 does not give: a free value. -/
def tcxoLossOk (s : State) : Bool := s.firn.tcxoLost.isNone && domState s 1 == 0 && !s.firn.stopped
def tcxoLoss (s : State) : State :=
  let s1 := coastEnter { s with firn := { s.firn with tcxoLost := some s.elapsed } }
  let s2 := radioOff s1
  (healthPut (s2.freeAt 0 % 4) (s2.freeAt 1 % 256) (s2.freeAt 2 % 256) 0 0 0 s2).drawn 3
def execTcxoLoss (dt : Nat) (s : State) : Host.Outcome State Fault Refusal :=
  .next (onlyIf (tcxoLossOk (s.pass dt)) (tcxoLoss (s.pass dt)) (s.pass dt))

/-- TCXO_RETURN (R759): FIRN begins its coast exit. -/
def tcxoReturnOk (s : State) : Bool := s.firn.tcxoLost.isSome
def tcxoReturn (s : State) : State :=
  { s with firn := { s.firn with tcxoLost := none, exitPhase := if s.firn.coasting ∧ domState s 1 = 0 ∧ s.pwr.stop ≠ .stopped then 1 else s.firn.exitPhase } }
def execTcxoReturn (dt : Nat) (s : State) : Host.Outcome State Fault Refusal :=
  .next (onlyIf (tcxoReturnOk (s.pass dt)) (tcxoReturn (s.pass dt)) (s.pass dt))

/-- FAB_CLOCK_STOP (R685, R686): every processor and all memory stop, and LMP's outputs float. -/
def fabClockStop (s : State) : State := pwrMod (fun p => { p with fabDead := true, floats := true }) s
def execFabClockStop (dt : Nat) (s : State) : Host.Outcome State Fault Refusal := .next (fabClockStop (s.pass dt))

end Sys2Proof.Machine
end

