-- ==== Sys2Proof/Machine/EvtOps.lean ====
section
/-!
DEFINITION. The Geyser event fabric: channels, groups, delivery, interrupt lines, launches and captures (R84 to R93, R553 to R571, R641, R642).
-/
namespace Sys2Proof.Machine

/-! ### The FAB cycle (R553) -/

/-- The fabric's cycle is the one of now. -/
def evtTick (s : State) : State := if s.evt.cycle = s.elapsed then s else { s with evt := { cycle := s.elapsed, fired := [], old := [] } }

/-- The state of group `g` that a firing in this cycle sees (R559). -/
def grpSees (s : State) (g : Nat) : Bool :=
  match (if s.evt.cycle = s.elapsed then look g s.evt.old else none) with | some v => v % 2 == 1 | none => s.on (Reg.EVT_GRP_STATE g)

/-- Enable or disable group `g` (R559): from the next cycle; a disable wins over an enable in the same cycle. -/
def grpSet (g : Nat) (en : Bool) (s0 : State) : State :=
  let s := evtTick s0
  let v := (look g s.evt.old).getD (s.rd (Reg.EVT_GRP_STATE g))
  let dis := decide (2 ≤ v) || !en
  ({ s with evt := { s.evt with old := put g (v % 2 + if dis then 2 else 0) s.evt.old } }).wr (Reg.EVT_GRP_STATE g) (b2n (!dis))

/-! ### Interrupt lines (R562, R563, R641) -/

/-- The power domain of a processor, by its initiator ID. -/
def iniDomain (ini : Nat) : Nat := if ini = 0 then 6 else if ini ≤ 4 then 6 + ini else if ini ≤ 6 then 4 else 5

/-- An event of line `l` of processor `c`'s controller: PEND, or OVR beside it; a core that is not On is woken under EVWAKE (R641). -/
def intcPend (c l : Nat) (s : State) : State :=
  let s1 := if s.on (Reg.INTC_LINE_PEND c l) then s.set1 (Reg.INTC_LINE_OVR c l) else s.set1 (Reg.INTC_LINE_PEND c l)
  if !domOn s1 (iniDomain c) && s1.on (Reg.PWR_DOM_EVWAKE (iniDomain c)) then votesOn (iniDomain c) s1 else s1

/-- The lines that select a source: processor and line, read off the registers that are stored (a line's SRC is 0xFF after reset). -/
def srcLines (src : Nat) (s : State) : List (Nat × Nat) :=
  s.regs.filterMap (fun p =>
    let a := p.1 / 32
    let off := a % 2 ^ 32
    if p.2 = src ∧ p.1 % 32 = 0 ∧ 0x40038000 ≤ off ∧ off < 0x40038200 ∧ off % 4 = 0 then some (a / 2 ^ 32, (off - 0x40038000) / 4) else none)

/-- INTC_PEND and GROUP_SOURCE_CHANGE (R559, R562): a source reaches the lines and the groups. -/
def srcReach (src : Nat) (s : State) : State :=
  let s1 := (srcLines src s).foldl (fun t p => intcPend p.1 p.2 t) s
  (List.range 8).foldl (fun t g =>
    let t1 := if t.rd (Reg.EVT_GRP_ENSRC g) = src then grpSet g true t else t
    if t1.rd (Reg.EVT_GRP_DISSRC g) = src then grpSet g false t1 else t1) s1

/-- The line presented to processor `c` (R563): the highest PRIO among the lines enabled and pending, the lower number on a tie. -/
def presented (s : State) (c : Nat) : Option Nat :=
  (List.range 128).foldl (fun best l =>
    if s.on (Reg.INTC_LINE_EN c l) && s.on (Reg.INTC_LINE_PEND c l) then
      match best with
      | none => some l
      | some b => if s.rd (Reg.INTC_LINE_PRIO c b) < s.rd (Reg.INTC_LINE_PRIO c l) then some l else best
    else best) none

/-! ### Channels (R554, R558, R642) -/

/-- EV127 at most once per millisecond (R553). -/
def ev127 (s : State) : State :=
  match look 127 s.evAt with
  | some e => if s.elapsed < e + cycMs 1 then s else { s with evAt := put 127 s.elapsed s.evAt }.raise 127
  | none => { s with evAt := put 127 s.elapsed s.evAt }.raise 127

/-- Capture units that take channel `ch` (R92): a launch channel captures its launch time exactly. -/
def capChannel (ch t : Nat) (s : State) : State :=
  (List.range 4).foldl (fun u k =>
    if u.rdC (Reg.FIRN_CAP_CTL_EN k) = 1 ∧ u.rdC (Reg.FIRN_CAP_CTL_SRC k) = 0x40 + ch ∧ ¬ u.firn.coasting ∧ ¬ u.firn.stopped then capRecord k t false u else u) s

/-- A subscriber of channel `ch` lies in a domain that is not On (R642). -/
def chanLost (ch : Nat) (launch : Bool) (s : State) : Bool :=
  (!domOn s 14 && (tmrListens ch s || (launch && lmpListens ch s) || (domState s 14 == 2 && ((look 14 s.pwr.subs).getD []).contains ch))) ||
  (!domOn s 4 && (krnListens ch s || (domState s 4 == 2 && ((look 4 s.pwr.subs).getD []).contains ch)))

/-- The launch wiring of a launch channel (R89): LMP; comparator `n`'s luminaire action is made ready first. -/
def launchWire (ch : Nat) (cmp : Nat) (s : State) : State :=
  if ch < 8 ∧ domOn s 14 then
    (if 2 ≤ cmp ∧ cmp < 8 then lumLaunched (lmpLaunch ch (lumLaunch cmp s)) else lmpLaunch ch s)
  else s

/-- A comparator's firing of a launch channel reaches its launch wiring once per FAB cycle (R89). -/
def fireWire (ch : Nat) (launch : Option (Nat × Nat)) (s : State) : State :=
  match launch with
  | some (n, _) => if ch < 8 ∧ ¬ (s.evt.fired.contains (64 + ch)) then launchWire ch n { s with evt := { s.evt with fired := (64 + ch) :: s.evt.fired } } else s
  | none => s

/-- The time that a capture unit records of a firing: the launch time of a launch channel, else now (R92). -/
def fireTime (ch : Nat) (launch : Option (Nat × Nat)) (s : State) : Nat :=
  match launch with | some (_, t) => if ch < 8 then t else s.now | none => s.now

/-- What a firing reaches (R554, R642): timers, kernels, the launch wiring, capture units, and the lines and groups that select the channel. -/
def fireReach (ch : Nat) (launch : Option (Nat × Nat)) (s : State) : State :=
  let s2 := if chanLost ch launch.isSome s then s.inc Reg.PWR_EVLOSTCNT else s
  let s3 := if domOn s2 14 then tmrChannel ch s2 else s2
  let s4 := if domOn s3 4 then krnFire ch s3 else s3
  srcReach ch (capChannel ch (fireTime ch launch s4) (fireWire ch launch s4))

/-- CHANNEL_FIRE (R554, R558): at most once per FAB cycle; `launch` gives the comparator and the launch time when a comparator fires it. -/
def chanFire (ch : Nat) (launch : Option (Nat × Nat)) (s0 : State) : State :=
  let s := evtTick s0
  let closed := s.on (Reg.EVT_CH_CFG_GEN ch) && !grpSees s (s.rd (Reg.EVT_CH_CFG_GRP ch))
  if s.evt.fired.contains ch then (if closed then s.inc Reg.EVT_MERGECNT else fireWire ch launch (s.inc Reg.EVT_MERGECNT))
  else
    let s1 : State := { s with evt := { s.evt with fired := ch :: s.evt.fired } }
    if closed then ev127 (s1.inc Reg.EVT_GDROPCNT) else fireReach ch launch s1

/-- One source arrives in the fabric (R554, R562). -/
def srcArrive (src : Nat) (s : State) : State :=
  (List.range 64).foldl (fun t ch => if t.rd (Reg.EVT_CH_CFG_SRC ch) = src ∧ 64 ≤ src then chanFire ch none t else t) (srcReach src s)

/-! ### Delivery (R561, R641) -/

/-- Remove one occurrence of each source from those in flight; none when one is missing. -/
def takeFlight (srcs fl : List Nat) : Option (List Nat) :=
  srcs.foldl (fun acc x => match acc with | some l => if l.contains x then some (l.erase x) else none | none => none) (some fl)

/-- Sources in AON, FIRN or WUR, which bring PD_FAB up (R641). -/
def wakesFab (src : Nat) : Bool := (decide (64 ≤ src) && decide (src ≤ 103)) || src == 125 || src == 126 || src == 153 || src == 154 || src == 155

/-- An enabled line or channel selects the source. -/
def srcSelected (src : Nat) (s : State) : Bool :=
  (srcLines src s).any (fun p => s.on (Reg.INTC_LINE_EN p.1 p.2)) || (List.range 64).any (fun ch => s.rd (Reg.EVT_CH_CFG_SRC ch) == src)

/-- The sources that PD_FAB is to be brought up for. -/
def srcHeld (src : Nat) (s : State) : Bool := wakesFab src && srcSelected src s

/-- Two raises of one source in one FAB cycle count as one (R553). -/
def dedupe (l : List Nat) : List Nat := l.foldl (fun acc x => if acc.contains x then acc else acc ++ [x]) []

/-- EVENT_DELIVERY: the sources that arrive in this FAB cycle. While PD_FAB is not On a selected source of AON, FIRN or WUR is held and starts its bring-up;
the others have nothing to reach. -/
def eventDeliveryOk (srcs : List Nat) (s : State) : Bool := !srcs.isEmpty && (takeFlight srcs s.flight).isSome && s.pwr.stop != .stopped && !s.pwr.fabDead
def eventDelivery (srcs : List Nat) (s : State) : State :=
  match takeFlight srcs s.flight with
  | none => s
  | some rest =>
    if domOn s 11 then (dedupe srcs).foldl (fun t x => srcArrive x t) { s with flight := rest }
    else
      let held := (dedupe srcs).filter (fun x => srcHeld x s)
      let s1 : State := { s with flight := rest ++ held }
      if !held.isEmpty ∧ (domState s 11 = 1 ∨ domState s 11 = 2) then thawStart 11 s1 else s1
def execEventDelivery (srcs : List Nat) (dt : Nat) (s : State) : Host.Outcome State Fault Refusal :=
  .next (onlyIf (eventDeliveryOk srcs (s.pass dt)) (eventDelivery srcs (s.pass dt)) (s.pass dt))

/-! ### Launches and captures -/

/-- LAUNCH (R84, R85, R88, R137): FIRED, ARMED and INFLIGHT clear, EV64 + n, and the channel unless LATESUP stops a late one. A launch of a comparator that drives no
launch channel still moves its luminaire action. -/
def launchOk (n : Nat) (s : State) : Bool :=
  decide (n < 32) && !s.firn.coasting && !s.firn.stopped && (match flightOf s n with | some l => decide (l.at_ ≤ s.now) | none => false)
def launch (n : Nat) (s : State) : State :=
  match flightOf s n with
  | none => s
  | some l =>
    let s1 := ((((landCmp n s).clr (Reg.FIRN_CMP_STAT_ARMED n)).set1 (Reg.FIRN_CMP_STAT_FIRED n)).raise (64 + n))
    let ch := s1.rdC (Reg.FIRN_CMP_CTL_CHAN n)
    if s1.rdC (Reg.FIRN_CMP_CTL_CHEN n) = 1 ∧ ¬ (l.late ∧ s1.rdC (Reg.FIRN_CMP_CTL_LATESUP n) = 1) ∧ domOn s1 11 then chanFire ch (some (n, l.at_)) s1 else s1
def execLaunch (n dt : Nat) (s : State) : Host.Outcome State Fault Refusal :=
  .next (onlyIf (launchOk n (s.pass dt)) (launch n (s.pass dt)) (s.pass dt))

/-- CAPTURE (R91, R92, R74): a selected edge of the pin that SRC names; on the root an edge of the time source's pin in unit 0 is a pulse. -/
def captureOk (k : Nat) (rising : Bool) (s : State) : Bool :=
  let e := s.rdC (Reg.FIRN_CAP_CTL_EDGE k)
  decide (k < 4) && !s.firn.coasting && !s.firn.stopped && s.rdC (Reg.FIRN_CAP_CTL_EN k) == 1 && decide (s.rdC (Reg.FIRN_CAP_CTL_SRC k) < 0x20) &&
    (e == 2 || (e == 0 && rising) || (e == 1 && !rising))
def capture (k : Nat) (s : State) : State :=
  let s1 := capRecord k s.now false s
  if k = 0 then ppsPulse s.now s1 else s1
def execCapture (k : Nat) (rising : Bool) (dt : Nat) (s : State) : Host.Outcome State Fault Refusal :=
  .next (onlyIf (captureOk k rising (s.pass dt)) (capture k (s.pass dt)) (s.pass dt))

/-! ### Software fires (R556) -/

/-- A channel is held by a writer with the writer's world (R536). -/
def chanOwned (s : State) (ini : Nat) (user : Bool) (ch : Nat) : Bool :=
  !isCustomer ini || ownTest s ini user true (s.rd (Reg.EVT_CH_OWN_OWNER ch)) (s.rd (Reg.EVT_CH_OWN_SEC ch)) 1 0

/-- Every channel of a fire word may be fired by the writer. -/
def fireOk (s : State) (ini : Nat) (user : Bool) (base v : Nat) : Bool := (List.range 32).all (fun i => bitOf v i == 0 || chanOwned s ini user (base + i))

/-- Fire the channels of a word. -/
def fireWord (base v : Nat) (s : State) : State := (List.range 32).foldl (fun t i => if bitOf v i = 1 then chanFire (base + i) none t else t) s

end Sys2Proof.Machine
end

