-- ==== Sys2Proof/Machine/TblOps.lean ====
section
/-!
DEFINITION. Table objects: their checks and what a loaded table changes (R355 to R358, and the rule of each table).
-/
namespace Sys2Proof.Machine

/-- The tables Glety knows, and those a mailbox may load (R356). -/
def tblKnown (tid : Nat) : Bool := [0x10, 0x11, 0x12, 0x13, 0x14, 0x15, 0x20, 0x30, 0x31, 0x32, 0x40].contains tid
def tblMailbox (tid : Nat) : Bool := [0x10, 0x11, 0x12, 0x13, 0x14, 0x30, 0x31, 0x32].contains tid

/-- The body Glety 4.1 ships (R356). -/
def tblShipped (tid : Nat) : List Nat :=
  match tid with
  | 0x10 => shipState | 0x11 => shipPower | 0x12 => shipRegime | 0x13 => shipTuner
  | 0x14 => [1, 0, 0, 0, 0, 0, 0, 0, 1, 0, 0, 0, 0, 0, 0, 0]
  | 0x15 => shipFrame | 0x20 => shipRetry | 0x30 => shipDim | 0x31 => shipAstro | 0x32 => shipClo | 0x40 => shipAge | _ => []

/-- The table in force: VER, SOURCE, body. -/
def tblNow (s : State) (tid : Nat) : TableObj := (look tid s.tables).getD ⟨0x0100, 0, tblShipped tid⟩

/-- The 16-byte header of a table (R355). -/
def tblHeader (tid : Nat) (o : TableObj) : List Nat :=
  let h := leBytes 2 tid ++ leBytes 2 o.ver ++ leBytes 4 o.body.length ++ [0, 0, 0, 0]
  h ++ leBytes 4 (crc32 (h ++ o.body))

/-- The body offset of the first entry of a list that fails, `w` octets each from `off`. -/
def firstBad (b : List Nat) (off w n : Nat) (ok : Nat → List Nat → Bool) : Option Nat :=
  ((List.range n).find? (fun i => !ok i ((b.drop (off + w * i)).take w))).map (fun i => off + w * i)

/-- A check of a body as a whole, then of its entries. -/
def wholeThen (ok : Bool) (rest : Option Nat) : Option Nat := if ok then rest else some 0

/-- Ascending first fields. -/
def rising (b : List Nat) (off w n : Nat) (i : Nat) : Bool := i == 0 || decide (leAt b (off + w * (i - 1)) n < leAt b (off + w * i) n)

/-- Whether a body keeps its table's rules (step 8 of R357): none, or the body offset of the first entry that fails. -/
def tblBad (tid : Nat) (b : List Nat) : Option Nat :=
  match tid with
  | 0x10 => if stTableOk b then none else some (stTableOffs b)
  | 0x11 => if powerTableOk b then none else some 0
  | 0x12 => if regTableOk b then none else some (regTableOffs b)
  | 0x13 => if tunerTableOk b then none else some 0
  | 0x14 => wholeThen (b.length == 16) (firstBad b 0 8 2 (fun _ e => decide (leAt e 0 1 ≤ 1) && decide (leAt e 1 1 ≤ 1)))
  | 0x15 => wholeThen (b.length == 4) none
  | 0x20 => wholeThen (b.length == 36 && decide (1 ≤ leAt b 0 1) && decide (leAt b 0 1 ≤ 7)) (firstBad b 4 4 8 (fun i e => (decide (1 ≤ i) && decide (i ≤ leAt b 0 1)) || leAt e 0 1 == 0))
  | 0x30 =>
    let n := leAt b 1 1
    wholeThen (decide (2 ≤ n) && decide (n ≤ 32) && b.length == 10 + 10 * n && decide (leAt b 0 1 < 16) && decide (4000 ≤ leAt b 2 2) && leAt b 10 2 == 0 && leAt b (10 + 10 * (n - 1)) 2 == 1000)
      (firstBad b 10 10 n (fun i e => rising b 10 10 2 i && decide (leAt e 4 2 ≤ 4095) && decide (leAt e 8 1 ≤ 254)))
  | 0x31 =>
    let n := leAt b 0 2
    wholeThen (decide (2 ≤ n) && decide (n ≤ 366) && b.length == 4 + 8 * n) (firstBad b 4 8 n (fun i e => rising b 4 8 2 i && decide (1 ≤ leAt e 0 2) && decide (leAt e 0 2 ≤ 366)))
  | 0x32 =>
    let n := leAt b 0 1
    wholeThen (decide (1 ≤ n) && decide (n ≤ 16) && b.length == 4 + 8 * n) (firstBad b 4 8 n (fun i e => rising b 4 8 4 i && decide (500 ≤ leAt e 4 2) && decide (leAt e 4 2 ≤ 1000)))
  | 0x40 =>
    let n := leAt b 0 1
    wholeThen (decide (1 ≤ n) && decide (n ≤ 8) && b.length == 4 + 16 * n + 12)
      (firstBad b 4 16 n (fun _ e => decide (5 ≤ leAt e 0 1) && decide (leAt e 0 1 ≤ 12) && decide (leAt e 1 1 < 2) && decide (550 ≤ leAt e 2 2) && decide (leAt e 4 2 ≤ 800) && decide (leAt e 6 1 < leAt e 7 1)))
  | _ => some 0

/-- Steps 1, 5, 6 and 8 of R357 on a table object: the status of the first that fails. -/
def tblObjStatus (o : List Nat) : Nat :=
  let body := (o.drop 16).take (leAt o 4 4)
  if !tblKnown (leAt o 0 2) then Rc.TBL_UNKNOWN
  else if body.length < leAt o 4 4 ∨ 16384 < 16 + leAt o 4 4 then Rc.TBL_LAYOUT
  else if crc32 (o.take 12 ++ body) ≠ leAt o 12 4 then Rc.TBL_CHECK
  else if leAt o 3 1 ≠ 1 then Rc.TBL_VERSION
  else if (tblBad (leAt o 0 2) body).isSome then Rc.TBL_LAYOUT
  else Rc.OK

/-- What a table that takes effect changes at once (R358, R119, R150, R314, R723). -/
def tblEffect (tid : Nat) (old : List Nat) (s : State) : State :=
  match tid with
  | 0x11 => txCapChange s
  | 0x12 => txCapChange s
  | 0x14 => (List.range 2).foldl (fun t p => if leAt old (8 * p) 1 = 1 ∧ leAt (tblNow t 0x14).body (8 * p) 1 = 0 then portDown p t else t) s
  | 0x30 => lumTables s
  | 0x31 => lumTables s
  | 0x32 => lumTables s
  | _ => s

/-- Put a table in force, or (none) the one Glety ships. -/
def tblForce (tid : Nat) (o : Option TableObj) (s : State) : State :=
  let old := (tblNow s tid).body
  tblEffect tid old { s with tables := match o with | some x => put tid x s.tables | none => del tid s.tables }

end Sys2Proof.Machine
end

