-- ==== Sys2Proof/Machine/UpdOps.lean ====
section
/-!
DEFINITION. Field update: bundles, verification, intake, distribution and install (R697 to R709, R715). What follows an activation stands with the boot.
-/
namespace Sys2Proof.Machine

/-- Change the update service's state. -/
def updMod (f : UpdSt → UpdSt) (s : State) : State := { s with upd := f s.upd }

/-- STATE changes raise EV147 (R707). -/
def updState (st : Nat) (s : State) : State := if s.upd.state = st then s else (updMod (fun u => { u with state := st }) s).raise 147

/-- The UPDATE notice (R359). -/
def updNotice (event bid : Nat) (s : State) : State := notice 0xF008 6 ([event, 0, 0, 0] ++ leBytes 4 bid) s

/-! ### The bundle's layout (R697) -/

def bunNcomp (b : List Nat) : Nat := leAt b 6 1
def bunFlags (b : List Nat) : Nat := leAt b 7 1
def bunBid (b : List Nat) : Nat := leAt b 8 4
def bunTotal (b : List Nat) : Nat := leAt b 12 4
def bunEntry (b : List Nat) (i : Nat) : List Nat := (b.drop (48 + 32 * i)).take 32
def bunEntries (b : List Nat) : List (List Nat) := (List.range (bunNcomp b)).map (bunEntry b)
def entCid (e : List Nat) : Nat := leAt e 0 1
def entComp (e : List Nat) : Comp := { ver := leAt e 2 2, patch := leAt e 4 2, mirif := leAt e 6 2, need := (List.range 6).map (fun i => leAt e (16 + 2 * i) 2) }
def entBody (b e : List Nat) : List Nat := (b.drop (leAt e 8 4)).take (leAt e 12 4)

/-- Step 1 of R699. -/
def bunShape (b : List Nat) : Bool :=
  let es := bunEntries b
  leAt b 0 4 == 0x58594850 && leAt b 4 2 == 1 && decide (1 ≤ bunNcomp b) && decide (bunNcomp b ≤ 6) && bunTotal b == b.length && decide (bunTotal b ≤ 0x1000000) && decide (48 + 32 * bunNcomp b + 132 ≤ b.length) &&
  es.all (fun e => decide (48 + 32 * bunNcomp b ≤ leAt e 8 4) && decide (leAt e 8 4 + leAt e 12 4 ≤ b.length - 132)) &&
  (List.range es.length).all (fun i => (List.range es.length).all (fun j => !(decide (i < j)) ||
    (let x := es.getD i []; let y := es.getD j []; entCid x != entCid y && (decide (leAt x 8 4 + leAt x 12 4 ≤ leAt y 8 4) || decide (leAt y 8 4 + leAt y 12 4 ≤ leAt x 8 4)))))

/-- The signature block (R697): KEYIDX, PUBX, PUBY, R, S. -/
def bunSig (b : List Nat) : List Nat := b.drop (b.length - 132)

/-- Steps 1 to 3 of R699. -/
def bunSigned (s : State) (b : List Nat) : Bool :=
  let g := bunSig b
  let k := leAt g 0 1
  bunShape b && decide (k ≤ 3) && sha256 ((g.drop 4).take 64) == s.fuses.digests.getD k [] && bitOf s.fuses.revoked k == 0 &&
  ecdsaVerify (sha256 (b.take (bunTotal b - 64))) (ofBeBytes ((g.drop 68).take 32)) (ofBeBytes ((g.drop 100).take 32)) (ofBeBytes ((g.drop 4).take 32), ofBeBytes ((g.drop 36).take 32))

/-- VARMASK and PROFMASK hold the device (rule 1 of R700). -/
def bunForMe (s : State) (b : List Nat) : Bool := bitOf (leAt b 16 1) (b2n s.isC) == 1 && bitOf (leAt b 17 1) (b2n (isLeaf s)) == 1

/-- VER of a CID in a set; 0 where the set has none. -/
def setVer (l : List (Nat × Comp)) (cid : Nat) : Nat := match look cid l with | some c => c.ver | none => 0

/-- The components that a bundle brings: those whose VER and PATCH differ from the installed ones (rule 2 of R700). -/
def bunNew (inst : List (Nat × Comp)) (b : List Nat) : List (List Nat) :=
  (bunEntries b).filter (fun e => match look (entCid e) inst with | some c => c.ver != (entComp e).ver || c.patch != (entComp e).patch | none => true)

/-- The set I with the bundle's components in place (rule 3 of R700). -/
def bunSet (inst : List (Nat × Comp)) (b : List Nat) : List (Nat × Comp) := (bunEntries b).foldl (fun l e => put (entCid e) (entComp e) l) inst

/-- Every need of a set is met: the same major version and a minor version not lower (rule 3 of R700). -/
def needsMet (l : List (Nat × Comp)) : Bool :=
  l.all (fun p => (List.range 6).all (fun i => p.2.need.getD i 0 == 0 ||
    (setVer l (i + 1) / 256 == p.2.need.getD i 0 / 256 && decide (p.2.need.getD i 0 % 256 ≤ setVer l (i + 1) % 256))))

/-- The table objects of a CID 1 body, one after another (R698). -/
def tableSet : Nat → List Nat → List (List Nat)
  | 0, _ => []
  | k + 1, b => if b.length < 16 then [] else b.take (16 + leAt b 4 4) :: tableSet k (b.drop (16 + leAt b 4 4))

/-- Rules 2, 3 and 4 of R700. -/
def bunCompat (s : State) (b : List Nat) : Bool :=
  (bitOf (bunFlags b) 0 == 1 || (bunEntries b).all (fun e => decide (setVer s.upd.inst (entCid e) ≤ (entComp e).ver))) &&
  needsMet (bunSet s.upd.inst b) &&
  ((bunNew s.upd.inst b).filter (fun e => entCid e == 1)).all (fun e => (tableSet 16 (entBody b e)).all (fun o => tblObjStatus o == Rc.OK))

/-- The status of a verification at intake (R699, R700). -/
def bunStatus (s : State) (b : List Nat) : Nat := if !bunSigned s b then Rc.UPD_SIG else if !(bunForMe s b && bunCompat s b) then Rc.UPD_COMPAT else Rc.OK

/-! ### The bundle store (R701) -/

/-- Chunks of a length (R704). -/
def chunkCount (total : Nat) : Nat := cdiv total 1024

/-- A bundle by BID. -/
def bundleOf (s : State) (bid : Nat) : Option Bundle := s.upd.bundles.find? (fun b => b.bid == bid)
def bundleSet (bid : Nat) (f : Bundle → Bundle) (s : State) : State := updMod (fun u => { u with bundles := u.bundles.map (fun b => if b.bid = bid then f b else b) }) s

/-- It is whole; its bytes; its first missing chunk at or after an index. -/
def bundleWhole (b : Bundle) : Bool := b.chunks.length == chunkCount b.total
def bundleBytes (b : Bundle) : List Nat := b.chunks.flatMap (fun c => c.2)
def missingFrom (b : Bundle) (i : Nat) : Option Nat := ((List.range (chunkCount b.total)).find? (fun k => decide (i ≤ k) && (look k b.chunks).isNone))

/-- The chunks of a byte string. -/
def chunksOf : Nat → Nat → List Nat → List (Nat × List Nat)
  | 0, _, _ => []
  | k + 1, i, l => if l.isEmpty then [] else (i, l.take 1024) :: chunksOf k (i + 1) (l.drop 1024)

/-- Room for a new bundle: it replaces the older one unless that one is distributed, installed or armed (R701). -/
def storeRoom (s : State) : Bool := decide (s.upd.bundles.length < 2) || (match s.upd.bundles with | b :: _ => !b.busy | [] => true)
def storeAdd (b : Bundle) (s : State) : State :=
  updMod (fun u => { u with bundles := (if 2 ≤ u.bundles.length then u.bundles.drop 1 else u.bundles) ++ [b] }) s

/-- A bundle of the store, verified and whole. -/
def bundleHeld (bytes : List Nat) (now : Nat) : Bundle :=
  { bid := bunBid bytes, total := bytes.length, chunks := chunksOf (chunkCount bytes.length) 0 bytes, group := none, verified := true, busy := false, sendIdx := 0, heardAt := now }

/-- A provisioning record blows the revoke fuses below its bundle's KEYIDX (step 2 of R699). -/
def provRevoke (b : List Nat) (s : State) : State :=
  if (bunEntries b).any (fun e => entCid e == 6) then { s with fuses := { s.fuses with revoked := s.fuses.revoked ||| (2 ^ leAt (bunSig b) 0 1 - 1) } } else s

/-- An intake's last byte has come (R701): the status, and the bundle stored where it is good; the UPDATE notice says that it is held. -/
def intakeEnd (bytes : List Nat) (s : State) : Nat × State :=
  let st := bunStatus s bytes
  if st ≠ Rc.OK then (st, s)
  else if (bundleOf s (bunBid bytes)).isSome then (Rc.OK, s)
  else if !storeRoom s then (Rc.NOSPACE, s)
  else (Rc.OK, updNotice 1 (bunBid bytes) (updState 2 (updMod (fun u => { u with bid := bunBid bytes }) (storeAdd (bundleHeld bytes s.elapsed) (provRevoke bytes s)))))

/-- The bundles of a card (R702): the directory at block 8, then each bundle's blocks. -/
def cardEntries (card : List Nat) : List (List Nat) :=
  let d := card.drop (8 * 512)
  if leAt d 0 4 ≠ 0x58594850 ∨ leAt d 4 4 < 1 ∨ 8 < leAt d 4 4 then []
  else (List.range (leAt d 4 4)).map (fun i =>
    let raw := (card.drop (512 * leAt d (8 + 8 * i) 4)).take (512 * leAt d (12 + 8 * i) 4)
    raw.take (bunTotal raw))

/-- The first bundle of a card that passes, or the status of the last failure. -/
def cardPick (ok : List Nat → Nat) : List (List Nat) → Nat → Nat × List Nat
  | [], st => (st, [])
  | b :: rest, _ => if ok b = Rc.OK then (Rc.OK, b) else cardPick ok rest (ok b)

/-! ### Distribution (R704 to R706) -/

/-- A bulk flood of this node. -/
def bulkFlood (ttl : Nat) (p : List Nat) (s : State) : State := (floodOriginate 0xFFFF 3 ttl 7 p s).2

/-- The OFFER (R704). -/
def offerPdu (b : Bundle) (group : Nat) : List Nat := [1] ++ leBytes 4 b.bid ++ leBytes 4 b.total ++ leBytes 2 (chunkCount b.total) ++ leBytes 2 group

/-- A CHUNK (R704). -/
def chunkPdu (b : Bundle) (i : Nat) : List Nat := [2] ++ leBytes 4 b.bid ++ leBytes 2 i ++ [0] ++ (look i b.chunks).getD []

/-- An OFFER makes a node collect the bundle (OFFER_RECEIVE): a node that holds it all already takes its GROUP. -/
def offerReceive (p : List Nat) (s : State) : State :=
  let bid := leAt p 1 4
  match bundleOf s bid with
  | some _ => bundleSet bid (fun b => { b with group := some (leAt p 11 2) }) s
  | none =>
    if !storeRoom s then s
    else updState 1 (updMod (fun u => { u with bid := bid }) (storeAdd { bid := bid, total := leAt p 5 4, chunks := [], group := some (leAt p 11 2), verified := false, busy := false, sendIdx := 0, heardAt := s.elapsed } s))

/-- A node with children or downstream wired peers (R705). -/
def hasDown (s : State) : Bool := s.lnk.conns.any (fun c => c.up && !c.child) || (linkedPorts s).any (fun p => s.msh.upWired != some p)

/-- CHUNK_SEND (R705): the next chunk in index order, once it is held; a suspended or cancelled distribution stops the coordinator (R706). -/
def sendsChunks (s : State) (b : Bundle) : Bool :=
  b.group.isSome && hasDown s && (look b.sendIdx b.chunks).isSome &&
  (!coActive s || (match s.upd.dist with | some d => d.bid == b.bid && (match opOf s d.mb d.op with | some o => o.suspended.isNone | none => false) | none => false))
def chunkSendOk (s : State) : Bool := s.upd.bundles.any (sendsChunks s)
def chunkSend (s : State) : State :=
  match s.upd.bundles.find? (sendsChunks s) with
  | none => s
  | some b => bulkFlood 0 (chunkPdu b b.sendIdx) (bundleSet b.bid (fun x => { x with sendIdx := x.sendIdx + 1 }) s)
def execChunkSend (dt : Nat) (s : State) : Host.Outcome State Fault Refusal :=
  .next (onlyIf (chunkSendOk (s.pass dt)) (chunkSend (s.pass dt)) (s.pass dt))

/-- The first delivered bulk frame of an operation, and the inbox without it. -/
def bulkTake (op : Nat) (s : State) : Option BulkIn := s.upd.inbox.find? (fun x => leAt x.data 0 1 == op)
def bulkDrop (x : BulkIn) (s : State) : State := updMod (fun u => { u with inbox := u.inbox.erase x }) s

/-- CHUNK_RECEIVE (R705): stored unless already held. -/
def chunkReceiveOk (s : State) : Bool := (bulkTake 2 s).isSome
def chunkReceive (s0 : State) : State :=
  match bulkTake 2 s0 with
  | none => s0
  | some x =>
    let s := bulkDrop x s0
    match bundleOf s (leAt x.data 1 4) with
    | none => s
    | some b =>
      let i := leAt x.data 5 2
      let d := x.data.drop 8
      let want := if i + 1 = chunkCount b.total then b.total - 1024 * i else 1024
      bundleSet b.bid (fun y => { y with heardAt := s.elapsed, chunks := if i < chunkCount b.total ∧ d.length = want ∧ (look i y.chunks).isNone then put i d y.chunks else y.chunks }) s
def execChunkReceive (dt : Nat) (s : State) : Host.Outcome State Fault Refusal :=
  .next (onlyIf (chunkReceiveOk (s.pass dt)) (chunkReceive (s.pass dt)) (s.pass dt))

/-- A bundle still being collected. -/
def collecting (s : State) : Option Bundle := s.upd.bundles.find? (fun b => b.group.isSome && !bundleWhole b)

/-- REQ_TIMER (R705): no chunk for 10 s, or on a Leaf a new connection event: REQ for the lowest missing chunks, up to 16 in a row. -/
def upK (s : State) : Nat := match upConn s with | some c => c.k | none => 0
def reqTimerOk (s : State) : Bool :=
  isJoined s && parentOf s != 0xFFFF &&
  (match collecting s with
   | some b => if isLeaf s then decide (upK s ≠ s.upd.reqK) else decide (b.heardAt + cycS 10 ≤ s.elapsed) && decide (s.upd.reqAt + cycS 10 ≤ s.elapsed)
   | none => false)
def missRun (b : Bundle) : Nat → Nat → Nat
  | 0, _ => 0
  | k + 1, i => if i < chunkCount b.total ∧ (look i b.chunks).isNone then 1 + missRun b k (i + 1) else 0
def reqTimer (s : State) : State :=
  match collecting s with
  | none => s
  | some b =>
    let first := (missingFrom b 0).getD 0
    unicastSend (parentOf s) 3 0 7 ([3] ++ leBytes 4 b.bid ++ leBytes 2 first ++ [missRun b 16 first]) (updMod (fun u => { u with reqK := upK s, reqAt := s.elapsed }) s)
def execReqTimer (dt : Nat) (s : State) : Host.Outcome State Fault Refusal :=
  .next (onlyIf (reqTimerOk (s.pass dt)) (reqTimer (s.pass dt)) (s.pass dt))

/-- REQ_RECEIVE (R705): unicast CHUNKs for those held. -/
def reqReceiveOk (s : State) : Bool := (bulkTake 3 s).isSome
def reqReceive (s0 : State) : State :=
  match bulkTake 3 s0 with
  | none => s0
  | some x =>
    let s := bulkDrop x s0
    match bundleOf s (leAt x.data 1 4) with
    | none => s
    | some b => (List.range (min 16 (leAt x.data 7 1))).foldl (fun t i => if (look (leAt x.data 5 2 + i) b.chunks).isSome then unicastSend x.src 3 0 7 (chunkPdu b (leAt x.data 5 2 + i)) t else t) s
def execReqReceive (dt : Nat) (s : State) : Host.Outcome State Fault Refusal :=
  .next (onlyIf (reqReceiveOk (s.pass dt)) (reqReceive (s.pass dt)) (s.pass dt))

/-- A distribution ends DONE when every member of GROUP has reported STATE 4 (R706). -/
def distMembers (s : State) (group : Nat) : List Nat := if group = 0xFFFF then (s.co.nodes.filter (fun n => decide (1 ≤ coState s n))).map (fun n => n.short) else coMembers s group
def distSettle (s : State) : State :=
  match s.upd.dist with
  | none => s
  | some d =>
    let ms := distMembers s d.group
    let n := (ms.filter (fun a => d.have_.contains a)).length
    let s1 := opMod d.mb d.op (fun o => { o with done := if ms.isEmpty then 100 else 100 * n / ms.length }) s
    if n = ms.length then opEnd d.mb d.op 3 0 (leBytes 2 n ++ leBytes 2 0) (updMod (fun u => { u with dist := none }) s1) else s1

/-- HAVE_RECEIVE (R706). -/
def haveReceiveOk (s : State) : Bool := (bulkTake 4 s).isSome
def haveReceive (s0 : State) : State :=
  match bulkTake 4 s0 with
  | none => s0
  | some x =>
    let s := bulkDrop x s0
    distSettle (updMod (fun u => { u with dist := u.dist.map (fun d => if d.bid = leAt x.data 1 4 ∧ leAt x.data 5 1 = 4 ∧ ¬ d.have_.contains x.src then { d with have_ := x.src :: d.have_ } else d) }) s)
def execHaveReceive (dt : Nat) (s : State) : Host.Outcome State Fault Refusal :=
  .next (onlyIf (haveReceiveOk (s.pass dt)) (haveReceive (s.pass dt)) (s.pass dt))

/-! ### Install (R707) -/

/-- HAVE toward the coordinator (R704). -/
def haveSend (bid st : Nat) (s : State) : State := if isJoined s ∧ ¬ coActive s then unicastSend coordShort 3 0 7 ([4] ++ leBytes 4 bid ++ [st]) s else s

/-- The firmware and application slots that are not in use (R698). -/
def fwIdle (s : State) : Nat := 1 - s.rd Reg.SYS_BOOT_GSLOT
def appIdle (s : State) : Nat := 1 - s.rd Reg.BKP_SET1_ALG

/-- Install one component. -/
def installComp (b e : List Nat) (s : State) : State :=
  let body := entBody b e
  let cid := entCid e
  match cid with
  | 1 => updMod (fun u => { u with staged := (tableSet 16 body).map (fun o => (leAt o 0 2, ⟨leAt o 2 2, 2, (o.drop 16).take (leAt o 4 4)⟩)), stagedOn := true }) s
  | 5 => updMod (fun u => { u with app := modAt u.app (appIdle s) (fun _ => [(5, entComp e, body)]) }) s
  | 6 =>
    if leAt body 0 8 ≠ s.fuses.uid then s
    else updMod (fun u => { u with prov := some (leBytes 16 (Config.provKey (leAt body 8 16) s.fuses.uid), (List.range (leAt body 24 1)).map (fun i => leAt body (25 + 2 * i) 2)) }) s
  | _ => updMod (fun u => { u with fw := modAt u.fw (fwIdle s) (fun sl => put cid (entComp e, body) sl) }) s

/-- Install the components that are new, in CID order; the firmware slot starts as a copy of the active one. -/
def installAll (b : List Nat) (s : State) : State :=
  let es := (List.range 6).flatMap (fun i => (bunNew s.upd.inst b).filter (fun e => entCid e == i + 1))
  let fw := es.any (fun e => [2, 3, 4].contains (entCid e))
  let s1 := if fw then updMod (fun u => { u with fw := modAt u.fw (fwIdle s) (fun _ => u.fw.getD (1 - fwIdle s) []) }) s else s
  let s2 := es.foldl (fun t e => installComp b e t) s1
  updMod (fun u => { u with cids := es.map entCid, comps := es.map (fun e => (entCid e, entComp e)), confwin := leAt b 18 2, latewin := leAt b 20 2, custconf := bitOf (bunFlags b) 1 == 1 }) s2

/-- The node is in the GROUP of a bundle's OFFER (R707); an unjoined node's own intake counts as its own (DEDUCED from R709). -/
def bundleMine (s : State) (b : Bundle) : Bool := match b.group with | some g => covers g (ownShort s) s.msh.groups | none => !isJoined s

/-- A bundle to judge: whole, and not yet verified or not yet installed. -/
def toInstall (s : State) : Option Bundle := s.upd.bundles.find? (fun b => bundleWhole b && (!b.verified || (!b.busy && bundleMine s b && bunForMe s (bundleBytes b))))

/-- Arm the activation (R709): one of Glety's comparators for T, and the UPDATE notice with EVENT 2. -/
def actArm (t : Nat) (s : State) : State :=
  let s1 := cmpArm 9 (((s.wr (Reg.FIRN_CMP_TLO 9) t).wr (Reg.FIRN_CMP_THI 9) (t / 2 ^ 32)).clr (Reg.FIRN_CMP_CTL_CHEN 9))
  updNotice 2 s.upd.bid (updState 5 (updMod (fun u => { u with armed := true, t := t }) s1))

/-- INSTALL (R707): `fail` says that the install fails on this device. -/
def installOk (s : State) : Bool := (toInstall s).isSome && s.rd Reg.SYS_BOOT_PHASE == 8
def install (fail : Bool) (s0 : State) : State :=
  match toInstall s0 with
  | none => s0
  | some b =>
    let bytes := bundleBytes b
    let s := updMod (fun u => { u with bid := b.bid }) s0
    let failed := fun (st : Nat) (t : State) => haveSend b.bid 7 (updState 7 (updMod (fun u => { u with lastErr := st, bundles := u.bundles.filter (fun x => !(x.bid == b.bid)) }) t))
    if !bunSigned s bytes then failed Rc.UPD_SIG s
    else
      let held := if b.verified then s else updNotice 1 b.bid (provRevoke bytes (bundleSet b.bid (fun x => { x with verified := true }) s))
      if !bundleMine held b || !bunForMe held bytes then haveSend b.bid 2 (updState 2 held)
      else if !bunCompat held bytes then failed Rc.UPD_COMPAT held
      else if fail then
        failed Rc.STORE_READ (updMod (fun u => { u with fw := if (bunNew u.inst bytes).any (fun e => [2, 3, 4].contains (entCid e)) then modAt u.fw (fwIdle held) (fun _ => []) else u.fw, app := if (bunNew u.inst bytes).any (fun e => entCid e == 5) then modAt u.app (appIdle held) (fun _ => []) else u.app }) (updState 3 held))
      else
        let s4 := haveSend b.bid 4 (updState 4 (bundleSet b.bid (fun x => { x with busy := true }) (installAll bytes (updState 3 held))))
        match s4.upd.give with | some (g, at_) => if g = b.bid ∧ s4.now < at_ then actArm at_ s4 else s4 | none => s4
def execInstall (fail : Bool) (dt : Nat) (s : State) : Host.Outcome State Fault Refusal :=
  .next (onlyIf (installOk (s.pass dt)) (install fail (s.pass dt)) (s.pass dt))

/-- ACTIVATE_RECEIVE (R709, R713): a node that has installed BID arms; one that has it not yet keeps T. Children whose connection comes later are given it. -/
def activateReceiveOk (s : State) : Bool := (bulkTake 5 s).isSome
def activateTake (bid t : Nat) (s : State) : State :=
  let s1 := updMod (fun u => { u with give := some (bid, t) }) s
  if s1.upd.bid = bid ∧ (s1.upd.state = 4 ∨ (s1.upd.state = 5 ∧ s1.upd.t ≠ t)) then actArm t s1
  else if s1.upd.bid = bid then updMod (fun u => { u with t := t }) s1 else s1
def activateReceive (s0 : State) : State :=
  match bulkTake 5 s0 with | none => s0 | some x => activateTake (leAt x.data 1 4) (leAt x.data 5 8) (bulkDrop x s0)
def execActivateReceive (dt : Nat) (s : State) : Host.Outcome State Fault Refusal :=
  .next (onlyIf (activateReceiveOk (s.pass dt)) (activateReceive (s.pass dt)) (s.pass dt))

/-- The result of UPD_STATUS (R715). -/
def updStatus (s : State) : List Nat :=
  let b := bundleOf s s.upd.bid
  let held := match b with | some x => x.chunks.length | none => 0
  let n := match b with | some x => chunkCount x.total | none => 0
  [s.upd.state, 0] ++ leBytes 4 s.upd.bid ++ leBytes 2 held ++ leBytes 2 n ++ leBytes 8 s.upd.t ++ leBytes 2 s.upd.lastErr ++ [0, 0] ++
  (List.range 6).flatMap (fun i => match look (i + 1) s.upd.inst with | some c => leBytes 2 c.ver ++ leBytes 2 c.patch | none => [0, 0, 0, 0])

end Sys2Proof.Machine
end

