-- ==== Sys2Proof/Machine/RstOps.lean ====
section
/-!
DEFINITION. Resets, the watchdog and the boot (R47 to R55, R684, R755, R766), and what an activation, its trial and a recovery do (R703, R708 to R714).
-/
namespace Sys2Proof.Machine

/-! ### What survives a reset (R47) -/

/-- The value of a register word, from the fields stored for it. -/
def regWord (s : State) (key : Nat) : Nat := (regFields key).foldl (fun n f => n + s.rd f * 2 ^ f.lo) 0

/-- The backup domain: the real-time clock, its settings and the backup RAM. -/
def backupKey (k : Nat) : Bool := decide (0x40050000 * 32 ≤ k) && decide (k < 0x40060000 * 32)

/-- What a system reset leaves in AON beside the backup domain: SYS_RSTCAUSE, and the log and the counters of PWR. -/
def aonKey (k : Nat) : Bool :=
  k / 32 == 0x40170008 || (decide (0x40000020 ≤ k / 32) && decide (k / 32 < 0x40000030)) || (decide (0x40000200 ≤ k / 32) && decide (k / 32 ≤ 0x40000240))

/-- The fields that show what the store keeps: the repair map (R665), the health records' index and the alarms that stand (R663). -/
def mapKeys : List Nat :=
  [Reg.RXC_LANE_RETIRED, Reg.SYS_SPARE_USED, Reg.SYS_SPARE_LEFT, Reg.SYS_SPARE_WORST, Reg.FLC_STAT_RO, Reg.FLC_STAT_MORAINE, Reg.FLC_STAT_SPARES, Reg.MIR_STAT_SPAREDRV].map Field.key ++
  (List.range 8).map (fun i => (Reg.AGE_ISL_FCEIL i).key) ++
  (regFields Reg.LNK_SEQ_FAILED.addr).map Field.key ++ (regFields Reg.LNK_SEQMAP_PHYS0.addr).map Field.key
def storeKeys : List Nat := (regFields Reg.AGE_STAT_NEXT.addr).map Field.key ++ (regFields Reg.AGE_ALARMS_RMAPLOST.addr).map Field.key
def keptKey (aon : Bool) (k : Nat) : Bool := backupKey k || (aon && aonKey k) || mapKeys.contains k || storeKeys.contains k

/-- The state in phase 0 after a power-on (`aon` false) or a system reset (`aon` true): everything as after reset but for the backup domain, AON's kept registers
and what the store holds. -/
def resetTo (aon : Bool) (s0 : State) : State :=
  let s := flcCut s0
  let r := State.reset
  let e := s.elapsed
  { r with
    pending := s.pending, elapsed := e, porAt := if aon then s.porAt else e, freeCtr := s.freeCtr + 1, fuses := s.fuses, rtc := s.rtc,
    regs := s.regs.filter (fun p => keptKey aon p.1), com := s.com.filter (fun p => backupKey p.1),
    health := s.health, boots := min 65535 (s.boots + 1), sysResetAt := e, tables := s.tables, netCfg := s.netCfg,
    msh := { r.msh with mseq := s.free % 2 ^ 24, groups := s.msh.groups },
    rfe := { r.rfe with dutyAt := e, tunerAt := e, entered := e },
    rxc := { r.rxc with rotAt := e },
    lnk := { r.lnk with epochs := s.lnk.epochs, joinKey := s.lnk.joinKey, networks := s.lnk.networks, waddr := s.lnk.waddr, gaddr := s.lnk.gaddr, waddrs := s.lnk.waddrs },
    par := { r.par with spares := s.par.spares, remap := s.par.remap },
    drc := { r.drc with tempAt := e, dqsAt := e },
    flc := { r.flc with pages := s.flc.pages, map := s.flc.map, pool := s.flc.pool, moraine := s.flc.moraine, erases := s.flc.erases, ptrs := ptrSearch s.flc.pages, marks := s.flc.marks, replaced := s.flc.replaced, parts := s.flc.parts, groups := s.flc.groups, scrubAt := s.flc.scrubAt },
    lmp := { r.lmp with photoAt := e },
    lum := { r.lum with sched := s.lum.sched, hours := s.lum.hours, order := s.lum.order },
    co := { r.co with single := s.co.single, nodes := s.co.savedNodes, admitted := s.co.savedAdmit, savedNodes := s.co.savedNodes, savedAdmit := s.co.savedAdmit, saveAt := e },
    age := { r.age with ceil := s.age.ceil, wear := s.age.wear, thresh := s.age.thresh, rmapVer := s.age.rmapVer, bins := s.age.savedBins, savedBins := s.age.savedBins, planAt := e, tempAt := e, wearAt := e, binsAt := e, dayAt := e },
    mir := { r.mir with cfg := s.mir.cfg, dropped := s.mir.dropped, downAt := some e, hbAt := e },
    upd := { s.upd with inbox := [], dist := none, trialAt := none, confirmed := false, reqK := 0, reqAt := e, cardAt := e, recStatus := 0, recData := [] },
    pwr := { r.pwr with resetLow := s.pwr.resetLow, powered := s.pwr.powered, bkpGone := s.pwr.bkpGone, pfailLow := s.pwr.pfailLow, holdAt := e },
    evt := { r.evt with cycle := e }, jtag := if aon then s.jtag else r.jtag }

/-- A system reset with its bit of SYS_RSTCAUSE (R43, R47). -/
def sysReset (cause : Field) (s : State) : State := (resetTo true s).set1 cause

/-- POWER_ON (R47, R43, R766): RESET_N may be low at the threshold. -/
def powerOn (resetLow : Bool) (s : State) : State :=
  let s1 := resetTo false s
  let s2 : State := { s1 with pwr := { s1.pwr with powered := true, bkpGone := false, resetLow := resetLow, pfailLow := false }, rtc := if s.pwr.bkpGone then { Rtc.reset with t0 := s.elapsed, wakeT0 := s.elapsed } else s1.rtc }
  (s2.set1 Reg.SYS_RSTCAUSE_POR).wr Reg.SYS_RSTCAUSE_BKPLOST (b2n s.pwr.bkpGone)
def execPowerOn (resetLow : Bool) (dt : Nat) (s : State) : Host.Outcome State Fault Refusal := .next (powerOn resetLow (s.pass dt))

/-- BROWN_OUT (R755). -/
def execBrownOut (dt : Nat) (s : State) : Host.Outcome State Fault Refusal :=
  .next (onlyIf (s.pass dt).pwr.powered (sysReset Reg.SYS_RSTCAUSE_BOR (s.pass dt)) (s.pass dt))

/-- BACKUP_LOSS (R47, R755): both supplies are gone; the backup domain returns to its reset values and the part is off. -/
def backupLoss (s : State) : State :=
  let s1 := resetTo false s
  { s1 with regs := s1.regs.filter (fun p => !backupKey p.1), com := [], rtc := { Rtc.reset with t0 := s.elapsed, wakeT0 := s.elapsed }, pwr := { s1.pwr with powered := false, bkpGone := true } }
def execBackupLoss (dt : Nat) (s : State) : Host.Outcome State Fault Refusal := .next (backupLoss (s.pass dt))

/-- RESET_N_LOW (R766): low for 1 µs or longer. -/
def resetNLowOk (s : State) : Bool := s.pwr.powered && !s.pwr.resetLow
def resetNLow (s : State) : State := let s1 := sysReset Reg.SYS_RSTCAUSE_PIN s; { s1 with pwr := { s1.pwr with resetLow := true } }
def execResetNLow (dt : Nat) (s : State) : Host.Outcome State Fault Refusal :=
  .next (onlyIf (resetNLowOk (s.pass dt)) (resetNLow (s.pass dt)) (s.pass dt))

/-- RESET_N_RELEASE (R766): the 1.0 ms hold counts from the rising edge. -/
def resetNRelease (s : State) : State := { s with pwr := { s.pwr with resetLow := false, holdAt := s.elapsed } }
def execResetNRelease (dt : Nat) (s : State) : Host.Outcome State Fault Refusal :=
  .next (onlyIf (s.pass dt).pwr.resetLow (resetNRelease (s.pass dt)) (s.pass dt))

/-! ### The watchdog (R684) -/

/-- The boot phase (R50). -/
def bootPhase (s : State) : Nat := s.rd Reg.SYS_BOOT_PHASE

/-- WATCHDOG_KICK (R684): every 10 ms from the first, while Glety runs. -/
def watchdogKickOk (s : State) : Bool :=
  (bootPhase s == 7 || bootPhase s == 8) && !s.pwr.fabDead && (match s.pwr.kickAt with | some t => decide (t + cycMs 10 ≤ s.elapsed) | none => true)
def watchdogKick (s : State) : State := pwrMod (fun p => { p with kickAt := some s.elapsed }) s
def execWatchdogKick (dt : Nat) (s : State) : Host.Outcome State Fault Refusal :=
  .next (onlyIf (watchdogKickOk (s.pass dt)) (watchdogKick (s.pass dt)) (s.pass dt))

/-- WATCHDOG_EXPIRY (R684): 50 ms after the last kick. -/
def watchdogExpiryOk (s : State) : Bool := match s.pwr.kickAt with | some t => decide (t + cycMs 50 ≤ s.elapsed) | none => false
def execWatchdogExpiry (dt : Nat) (s : State) : Host.Outcome State Fault Refusal :=
  .next (onlyIf (watchdogExpiryOk (s.pass dt)) (sysReset Reg.SYS_RSTCAUSE_WDG (s.pass dt)) (s.pass dt))

/-! ### Boot phases 0 to 5 (R50 to R52) -/

/-- SUPPLY (R50, R766): the reset hold of 1.0 ms expires. -/
def supplyOk (s : State) : Bool := bootPhase s == 0 && s.pwr.powered && !s.pwr.resetLow && decide (s.pwr.holdAt + cycMs 1 ≤ s.elapsed)
def execSupply (dt : Nat) (s : State) : Host.Outcome State Fault Refusal :=
  .next (onlyIf (supplyOk (s.pass dt)) ((s.pass dt).wr Reg.SYS_BOOT_PHASE 1) (s.pass dt))

/-- AON_START (R50, R600, R627): the strap is sampled, and latched where no setting is; the profile in force shows in PWR_STAT. -/
def aonStartOk (s : State) : Bool := bootPhase s == 1
def aonStart (strap : Bool) (s : State) : State :=
  let s1 := s.wr Reg.SYS_PKG_PSTRAP (b2n strap)
  let s2 := if s1.on Reg.BKP_SET0_LATCHED then s1 else (s1.wr Reg.BKP_SET0_PROFILE (b2n strap)).set1 Reg.BKP_SET0_LATCHED
  let s3 := (s2.wr Reg.PWR_STAT_PROFILE (s2.rd Reg.BKP_SET0_PROFILE)).wr Reg.PWR_STAT_MODE (2 * s2.rd Reg.BKP_SET0_PROFILE)
  pwrMod (fun p => { p with holdAt := s.elapsed }) (s3.wr Reg.SYS_BOOT_PHASE 2)
def execAonStart (strap : Bool) (dt : Nat) (s : State) : Host.Outcome State Fault Refusal :=
  .next (onlyIf (aonStartOk (s.pass dt)) (aonStart strap (s.pass dt)) (s.pass dt))

/-- CLOCKS (R50): the TCXO is detected and the PLLs lock; FIRN counts from 0. -/
def clocksOk (s : State) : Bool := bootPhase s == 2
def clocks (s : State) : State := { s.wr Reg.SYS_BOOT_PHASE 3 with firn := { s.firn with stopped := false, tcxoLost := none } }
def execClocks (dt : Nat) (s : State) : Host.Outcome State Fault Refusal :=
  .next (onlyIf (clocksOk (s.pass dt)) (clocks (s.pass dt)) (s.pass dt))

/-- TCXO_RETRY (R51): no TCXO is detected: phase 2 stays and tries again every 1 ms. -/
def tcxoRetryOk (s : State) : Bool := bootPhase s == 2 && decide (s.pwr.holdAt + cycMs 1 ≤ s.elapsed)
def execTcxoRetry (dt : Nat) (s : State) : Host.Outcome State Fault Refusal :=
  .next (onlyIf (tcxoRetryOk (s.pass dt)) (pwrMod (fun p => { p with holdAt := (s.pass dt).elapsed }) (s.pass dt)) (s.pass dt))

/-- FUSES (R50, R521): the shadows are loaded, the device key goes to slot 0 for MAC and DRV, and the supervisor runs the boot ROM. -/
def fusesOk (s : State) : Bool := bootPhase s == 3
def fusesLoad (s : State) : State :=
  let s1 := (((s.wr Reg.SYS_ID_REV s.fuses.rev).wr Reg.SYS_PKG_VARIANT (b2n s.fuses.variantC)).wr Reg.SYS_UID_LO s.fuses.uid).wr Reg.SYS_UID_HI (s.fuses.uid / 2 ^ 32)
  coreStart 0 ((cphSetKey 0 0 ⟨s.fuses.devKey, 5⟩ s1).wr Reg.SYS_BOOT_PHASE 4)
def execFuses (dt : Nat) (s : State) : Host.Outcome State Fault Refusal :=
  .next (onlyIf (fusesOk (s.pass dt)) (fusesLoad (s.pass dt)) (s.pass dt))

/-- The repair map is gone (R52, R666): lanes, sequencers, rows and the current plan stand as on a new part; the bad blocks are found again from their marks (R474). -/
def rmapGone (s : State) : State :=
  let lost := [Reg.RXC_LANE_RETIRED, Reg.SYS_SPARE_USED, Reg.SYS_SPARE_LEFT, Reg.SYS_SPARE_WORST, Reg.MIR_STAT_SPAREDRV].map Field.key ++ (List.range 8).map (fun i => (Reg.AGE_ISL_FCEIL i).key) ++
    (regFields Reg.LNK_SEQ_FAILED.addr).map Field.key ++ (regFields Reg.LNK_SEQMAP_PHYS0.addr).map Field.key
  { s with regs := s.regs.filter (fun p => !lost.contains p.1), par := { s.par with spares := [], remap := [] }, age := { s.age with ceil := Age.reset.ceil, thresh := [] }, mir := { s.mir with dropped := [] } }

/-- REPAIR (R50, R52): `a` and `b` say whether each copy of the repair map passes its check. -/
def repairOk (s : State) : Bool := bootPhase s == 4
def repair (a b : Bool) (s : State) : State := (if a || b then s else (rmapGone s).set1 Reg.SYS_BOOT_RMAPLOST).wr Reg.SYS_BOOT_PHASE 5
def execRepair (a b : Bool) (dt : Nat) (s : State) : Host.Outcome State Fault Refusal :=
  .next (onlyIf (repairOk (s.pass dt)) (repair a b (s.pass dt)) (s.pass dt))

/-- SRAM_INIT (R50): zero with correct parity in all 6 MiB. -/
def sramInitOk (s : State) : Bool := bootPhase s == 5
def sramInit (s : State) : State :=
  let s1 := s.memClear 0x10000000 0x105FFFFF
  { s1.wr Reg.SYS_BOOT_PHASE 6 with par := { s1.par with bad := s1.par.bad.filter (fun a => !(decide (0x10000000 ≤ a) && decide (a < 0x10600000))) } }
def execSramInit (dt : Nat) (s : State) : Host.Outcome State Fault Refusal :=
  .next (onlyIf (sramInitOk (s.pass dt)) (sramInit (s.pass dt)) (s.pass dt))

/-! ### Tables, slots and trials (R698, R710 to R712) -/

/-- Put the staged tables in force, keeping what they replace. -/
def tablesActivate (s : State) : State :=
  if s.upd.stagedOn ∧ s.upd.cids.contains 1 then
    let old := s.upd.staged.map (fun p => (p.1, look p.1 s.tables))
    s.upd.staged.foldl (fun t p => tblForce p.1 (some p.2) t) (updMod (fun u => { u with replaced := old, staged := [], stagedOn := false }) s)
  else s

/-- Restore the tables that CID 1 replaced; during the boot nothing runs on them yet. -/
def tablesBack (running : Bool) (s : State) : State :=
  let one := fun (t : State) (p : Nat × Option TableObj) =>
    if running then tblForce p.1 p.2 t else { t with tables := match p.2 with | some x => put p.1 x t.tables | none => del p.1 t.tables }
  s.upd.replaced.foldl one (updMod (fun u => { u with replaced := [] }) s)

/-- A fall back (R711): TRIAL clears, the old set and its tables return, STATE reads FAILED; the notice follows. -/
def fallBack (running : Bool) (s : State) : State :=
  updState 7 (tablesBack running (updMod (fun u => { u with inst := u.oldInst, trialAt := none, armed := false, fell := true }) (s.clr Reg.BKP_SET1_TRIAL)))

/-- Post the UPDATE notice of a fall back. -/
def fellNotice (s : State) : State := if s.upd.fell then updNotice 4 s.upd.bid (updMod (fun u => { u with fell := false }) s) else s

/-- Application cores 0 to 3 restart at their reset vectors; they stay held where their domain is Off. -/
def appRestart (s : State) : State :=
  (List.range 4).foldl (fun t i => let u := coreReset (i + 1) t; if domState u (7 + i) = 2 then u else coreStart (i + 1) u) s

/-! ### Boot phases 6 and 7 (R50, R53, R711) -/

/-- Enter recovery (R53, R703): SPX0 takes the slave role between tries of the card. -/
def recoveryEnter (s : State) : State :=
  updMod (fun u => { u with cardAt := s.elapsed, recStatus := 0, recData := [] }) (((s.wr Reg.SYS_BOOT_PHASE 0xE).set1 Reg.SYS_BOOT_RECOVERY).wr (Reg.SPX_CFG_ROLE 0) 1)

/-- The firmware slot that the boot ROM wants: the trial's while a trial is to start, else the last good one (R53, R711). -/
def trialStarts (s : State) : Bool := s.on Reg.BKP_SET1_TRIAL && !s.on Reg.BKP_SET1_STARTED
def slotWanted (s : State) : Nat := if trialStarts s && s.on Reg.BKP_SET1_TRIALG then 1 - s.rd Reg.BKP_SET1_GLG else s.rd Reg.BKP_SET1_GLG

/-- IMAGE (R50, R53, R711): `okA` and `okB` say whether each slot's CMAC is good; an empty slot fails. -/
def imageOk (s : State) : Bool := bootPhase s == 6
def slotGood (okA okB : Bool) (s : State) (k : Nat) : Bool := (if k = 0 then okA else okB) && !(s.upd.fw.getD k []).isEmpty
def image (okA okB : Bool) (s0 : State) : State :=
  let s := if s0.on Reg.BKP_SET1_TRIAL && s0.on Reg.BKP_SET1_STARTED then fallBack false s0 else s0
  let want := slotWanted s
  let start := fun (k : Nat) (t : State) => (((t.wr Reg.SYS_BOOT_GSLOT k).wr Reg.SYS_BOOT_FALLBACK (b2n (k != t.rd Reg.BKP_SET1_GLG)))).wr Reg.SYS_BOOT_PHASE 7
  if slotGood okA okB s want then start want (if trialStarts s then s.set1 Reg.BKP_SET1_STARTED else s)
  else if slotGood okA okB s (1 - want) then start (1 - want) (if trialStarts s then fallBack false s else s)
  else recoveryEnter s
def execImage (okA okB : Bool) (dt : Nat) (s : State) : Host.Outcome State Fault Refusal :=
  .next (onlyIf (imageOk (s.pass dt)) (image okA okB (s.pass dt)) (s.pass dt))

/-- The node's place in its network after a reset, from the backup settings (R600): a joined node has no parent yet and searches for one. -/
def netRestore (coord : Bool) (s : State) : State :=
  let s1 := cfgApply s.netCfg s
  if coord then
    let k := (List.range 16).map (fun i => s1.freeAt i % 256)
    let s2 : State := if s1.lnk.epochs.isEmpty then { s1.drawn 16 with lnk := { s1.lnk with epochs := [⟨0, 0, k, 0⟩] } } else s1
    { ((((s2.set1 Reg.MSH_STAT_COORD).set1 Reg.FIRN_STAT_ROOT).set1 Reg.LNK_STAT_JOINED).wr Reg.LNK_STAT_SHORT coordShort) with co := { s2.co with single := true } }
  else
    let s2 : State := { s1 with co := { s1.co with single := false } }
    if s2.rd Reg.BKP_SET3_SHORT = 0xFFFF then s2
    else { ((((s2.set1 Reg.LNK_STAT_JOINED).wr Reg.LNK_STAT_SHORT (s2.rd Reg.BKP_SET3_SHORT)).wr Reg.LNK_PARENT_NETID (s2.rd Reg.BKP_SET3_NETID)).set1 Reg.LNK_STAT_BLOST) with lnk := { s2.lnk with lostAt := some s2.elapsed } }

/-- Each sender count starts 65,536 above the stored one (R533). -/
def enonceRestart (s : State) : State := { s with lnk := { s.lnk with epochs := s.lnk.epochs.map (fun e => { e with enonce := (e.enonce / 65536 + 1) * 65536 }) } }

/-- The calibrations of phase 7 (R133): all, for each port. -/
def calAll (s : State) : State :=
  { s with rfe := { s.rfe with cals := ((List.range 6).flatMap (fun k => (List.range 2).map (fun p => 2 * (k + 1) + p))).foldl (fun l k => put k ⟨some s.elapsed, dieTemp s, 0, none⟩ l) s.rfe.cals } }

/-- The repair map is rebuilt and its alarm clears with the writing (R52, R474, R663). -/
def rmapRebuild (s : State) : State :=
  if s.on Reg.SYS_BOOT_RMAPLOST then alarm Reg.AGE_ALARMS_RMAPLOST false (rmapWrite (alarm Reg.AGE_ALARMS_RMAPLOST true (healthPut 2 8 1 0 0 0 s))) else s

/-- The BOOT notice (R359). -/
def bootNotice (s : State) : State :=
  let g := (look 4 s.upd.inst).getD Comp.factory
  notice 0xF001 31 (leBytes 4 (regWord s Reg.SYS_RSTCAUSE_POR.addr) ++ leBytes 4 (regWord s Reg.SYS_BOOT_PHASE.addr) ++ [g.ver / 256, g.ver % 256] ++ leBytes 2 g.patch) s

/-- The kernel runner starts to serve (R426): its header and READY. -/
def krnServe (s : State) : State :=
  let s1 := krnMod (fun x => { x with budget := kernelBudget s, period := s.now / 2 ^ 20 }) s
  (krnHeader s1).stBytes (krnHead + 9) [1]

/-- RUNNING (R50): phase 8 begins: the application cores leave reset, the BOOT notice and the held notices are posted. -/
def running (s : State) : State :=
  let s1 := s.wr Reg.SYS_BOOT_PHASE 8
  let s2 := noticeFlush (bootNotice { s1 with runAt := s1.elapsed })
  let s3 := (List.range 4).foldl (fun t i => coreStart (i + 1) t) (krnServe (fellNotice s2))
  let s4 := if s3.on Reg.BKP_SET1_TRIAL then updMod (fun u => { u with trialAt := some s3.elapsed }) s3 else s3
  let s5 := if s4.upd.armed then cmpArm 9 (((s4.wr (Reg.FIRN_CMP_TLO 9) s4.upd.t).wr (Reg.FIRN_CMP_THI 9) (s4.upd.t / 2 ^ 32)).clr (Reg.FIRN_CMP_CTL_CHEN 9)) else s4
  if leafMode s5 then gletyAwake s5 else s5

/-- GLETY_INIT (R50, R79, R458, R459): Glety sets up everything and phase 8 begins; `coord` says that the node is its network's single coordinator (log entry 27). -/
def gletyInitOk (s : State) : Bool := bootPhase s == 7
def gletyInit (coord : Bool) (s : State) : State :=
  let s1 := timeStateNotice (firnRestore (rmapRebuild s))
  let s2 := calAll (enonceRestart (netRestore coord s1))
  let s3 := if s2.isC then ((s2.set1 Reg.DRC_STAT_TRAINED).set1 Reg.DRC_STAT_FILLED).memClear 0x80000000 0x9EFFFFFF else s2
  let s4 := (List.range 9).foldl (fun t i => coreStart (5 + i) t) { s3 with sig := s3.sig.map (fun c => { c with held := false, cycAt := s3.elapsed }) }
  let app := if s4.on Reg.BKP_SET1_TRIAL && s4.on Reg.BKP_SET1_TRIALA then 1 - s4.rd Reg.BKP_SET1_ALG else s4.rd Reg.BKP_SET1_ALG
  running (lumStart (pwrMod (fun p => { p with floats := false }) (dutyShow (s4.wr Reg.SYS_BOOT_ASLOT app))))
def execGletyInit (coord : Bool) (dt : Nat) (s : State) : Host.Outcome State Fault Refusal :=
  .next (onlyIf (gletyInitOk (s.pass dt)) (gletyInit coord (s.pass dt)) (s.pass dt))

/-! ### Activation and trial (R709 to R714) -/

/-- Components that ask for a system reset. -/
def cidsReset (l : List Nat) : Bool := l.any (fun c => c == 2 || c == 3 || c == 4 || c == 6)

/-- The tables phase of a pair (R714): the set with the new tables meets its needs, and the mirror interface is the same. -/
def tablesPhase (s : State) : Bool :=
  let cs := s.upd.comps
  let next := match look 1 cs with | some c => put 1 c s.upd.inst | none => s.upd.inst
  needsMet next && cs.all (fun p => match look p.1 s.upd.inst with | some o => o.mirif == p.2.mirif | none => true)

/-- What of an activation is put in force in place: the tables, and the application where it is not part of a firmware trial (R710, R712). -/
def activateInPlace (s : State) : State :=
  let s1 := tablesActivate (updMod (fun u => { u with oldInst := u.inst, inst := u.comps.foldl (fun l p => if u.cids.contains p.1 then put p.1 p.2 l else l) u.inst }) s)
  if s1.upd.cids.contains 5 then
    let s2 := (((((s1.set1 Reg.BKP_SET1_TRIAL).set1 Reg.BKP_SET1_TRIALA).set1 Reg.BKP_SET1_STARTED).clr Reg.BKP_SET1_TRIALG).wr Reg.BKP_SET1_TBID s1.upd.bid).wr Reg.SYS_BOOT_ASLOT (1 - s1.rd Reg.BKP_SET1_ALG)
    updState 6 (appRestart (updMod (fun u => { u with trialAt := some s1.elapsed, confirmed := false }) s2))
  else updState 0 (bundleSet s1.upd.bid (fun b => { b with busy := false }) (updMod (fun u => { u with replaced := [] }) s1))

/-- An activation in full with a system reset (R710): the tables go in force with it, and the provisioning record's key with its networks. -/
def activateReset (s : State) : State :=
  let s1 := tablesActivate (updMod (fun u => { u with oldInst := u.inst, inst := u.comps.foldl (fun l p => if u.cids.contains p.1 then put p.1 p.2 l else l) u.inst }) s)
  let s2 := ((((s1.set1 Reg.BKP_SET1_TRIAL).set1 Reg.BKP_SET1_TRIALG).wr Reg.BKP_SET1_TRIALA (b2n (s1.upd.cids.contains 5))).clr Reg.BKP_SET1_STARTED).wr Reg.BKP_SET1_TBID s1.upd.bid
  let s3 : State := match s2.upd.prov with | some (k, ns) => { s2 with lnk := { s2.lnk with joinKey := some k, networks := ns }, upd := { s2.upd with prov := none } } | none => s2
  sysReset Reg.SYS_RSTCAUSE_SOFT (updState 6 s3)

/-- An activation falls due (R710, R713): at T, or late within LATEWIN where the install completed after T. -/
def activationOk (s : State) : Bool :=
  bootPhase s == 8 &&
  ((s.upd.armed && decide (s.upd.t ≤ s.now)) ||
   (s.upd.state == 4 && !s.upd.armed && s.upd.latewin != 0 && (match s.upd.give with | some (b, t) => b == s.upd.bid && decide (t ≤ s.now) && decide (s.now ≤ t + ftS (3600 * s.upd.latewin)) | none => false)))
def activation (s0 : State) : State :=
  let s := updMod (fun u => { u with armed := false }) s0
  if !cidsReset s.upd.cids then activateInPlace s
  else if mirRole s = 1 then
    let t := s.now
    let place := s.upd.cids.filter (fun c => c == 1 || c == 5)
    let rest := s.upd.cids.filter (fun c => c != 1 && c != 5)
    let s1 := if tablesPhase s && !place.isEmpty then updMod (fun u => { u with cids := rest }) (activateInPlace (updMod (fun u => { u with cids := place }) s)) else s
    let s2 := if tablesPhase s then switchArm (t + ftS 300) none s1 else s1
    updState 5 (updMod (fun u => { u with armed := true, t := t + ftS 301 }) s2)
  else activateReset s
def execActivation (dt : Nat) (s : State) : Host.Outcome State Fault Refusal :=
  .next (onlyIf (activationOk (s.pass dt)) (activation (s.pass dt)) (s.pass dt))

/-- TRIAL_CONFIRM (R711, R714): joined, on an Anchor LOCKED, and confirmed where CUSTCONF asks for it; a standby's trial on reaching STANDBY. -/
def trialConfirmOk (s : State) : Bool :=
  bootPhase s == 8 && s.on Reg.BKP_SET1_TRIAL && (match s.upd.trialAt with | some t => decide (s.elapsed ≤ t + cycS s.upd.confwin) | none => false) &&
  (mirRole s == 2 || (isJoined s && (isLeaf s || s.firn.stage == .locked) && (!s.upd.custconf || s.upd.confirmed)))
def trialConfirm (s : State) : State :=
  let s1 := if s.on Reg.BKP_SET1_TRIALG then s.wr Reg.BKP_SET1_GLG (s.rd Reg.SYS_BOOT_GSLOT) else s
  let s2 := if s1.on Reg.BKP_SET1_TRIALA then s1.wr Reg.BKP_SET1_ALG (s1.rd Reg.SYS_BOOT_ASLOT) else s1
  let s3 := bundleSet s.upd.bid (fun b => { b with busy := false }) (updMod (fun u => { u with trialAt := none, confirmed := false, replaced := [] }) (s2.clr Reg.BKP_SET1_TRIAL))
  updNotice 3 s.upd.bid (if s3.upd.armed then s3 else updState 0 s3)
def execTrialConfirm (dt : Nat) (s : State) : Host.Outcome State Fault Refusal :=
  .next (onlyIf (trialConfirmOk (s.pass dt)) (trialConfirm (s.pass dt)) (s.pass dt))

/-- CONFWIN_EXPIRY (R711, R712): the trial falls back, with a system reset for a firmware trial. -/
def confwinExpiryOk (s : State) : Bool :=
  bootPhase s == 8 && s.on Reg.BKP_SET1_TRIAL && (match s.upd.trialAt with | some t => decide (t + cycS s.upd.confwin < s.elapsed) | none => false)
def confwinExpiry (s : State) : State :=
  let s1 := fallBack true s
  if s.on Reg.BKP_SET1_TRIALG then sysReset Reg.SYS_RSTCAUSE_SOFT s1
  else fellNotice (appRestart (s1.wr Reg.SYS_BOOT_ASLOT (s1.rd Reg.BKP_SET1_ALG)))
def execConfwinExpiry (dt : Nat) (s : State) : Host.Outcome State Fault Refusal :=
  .next (onlyIf (confwinExpiryOk (s.pass dt)) (confwinExpiry (s.pass dt)) (s.pass dt))

/-! ### Recovery (R703) -/

/-- A recovery bundle's verdict, as the status words of R703: 1 it is installed, 2 signature refused, 3 compatibility refused. -/
def recVerdict (s : State) (b : List Nat) : Nat :=
  let app := match s.upd.app.getD (s.rd Reg.BKP_SET1_ALG) [] with | (_, c, _) :: _ => [(5, c)] | [] => []
  if !bunSigned s b then 2
  else if bunForMe s b && [2, 3, 4].all (fun c => (bunEntries b).any (fun e => entCid e == c)) && needsMet (bunSet app b) &&
    ((bunEntries b).filter (fun e => entCid e == 1)).all (fun e => (tableSet 16 (entBody b e)).all (fun o => tblObjStatus o == Rc.OK)) then 1 else 3

/-- Install a recovery bundle: the firmware set into slot A, its tables in force, GLG slot A, TRIAL clear, and a system reset. -/
def recInstall (b : List Nat) (s : State) : State :=
  let es := bunEntries b
  let fw : Slot := (es.filter (fun e => [2, 3, 4].contains (entCid e))).foldl (fun l e => put (entCid e) (entComp e, entBody b e) l) []
  let tabs := (es.filter (fun e => entCid e == 1)).flatMap (fun e => (tableSet 16 (entBody b e)).map (fun o => (leAt o 0 2, TableObj.mk (leAt o 2 2) 2 ((o.drop 16).take (leAt o 4 4)))))
  let s1 := updMod (fun u => { u with fw := modAt u.fw 0 (fun _ => fw), inst := bunSet u.inst (b) }) s
  let s2 : State := { s1 with tables := tabs.foldl (fun l p => put p.1 p.2 l) s1.tables }
  sysReset Reg.SYS_RSTCAUSE_SOFT ((s2.wr Reg.BKP_SET1_GLG 0).clr Reg.BKP_SET1_TRIAL)

/-- CARD_TRY (R703): every 1 s the boot ROM reads the card. -/
def cardTryOk (s : State) : Bool := bootPhase s == 0xE && decide (s.upd.cardAt + cycS 1 ≤ s.elapsed)
def cardTry (card : List Nat) (s : State) : State :=
  let pick := cardPick (fun b => if recVerdict s b = 1 then Rc.OK else recVerdict s b) (cardEntries card) Rc.UPD_MEDIA
  if pick.1 = Rc.OK then recInstall pick.2 s else updMod (fun u => { u with cardAt := s.elapsed }) s
def execCardTry (card : List Nat) (dt : Nat) (s : State) : Host.Outcome State Fault Refusal :=
  .next (onlyIf (cardTryOk (s.pass dt)) (cardTry card (s.pass dt)) (s.pass dt))

/-- The bytes of a recovery intake. -/
def recBytes (total : Nat) (l : List (Nat × List Nat)) : List Nat := (l.foldl (fun b p => setBytes b p.1 p.2) (List.replicate total 0)).take total

/-- A recovery frame of the host (R703): OFFS and data words, or the end with TOTAL. The status it leaves is returned in the next frame. -/
def recFrame (words : List Nat) (s : State) : State :=
  match words with
  | [] => s
  | w :: rest =>
    if w = 0xFFFFFFFF ∧ rest.length = 1 then
      let b := recBytes (min (rest.headD 0) 0x1000000) s.upd.recData
      if recVerdict s b = 1 then recInstall b s else updMod (fun u => { u with recStatus := recVerdict s b, recData := [] }) s
    else updMod (fun u => { u with recStatus := 0, recData := u.recData ++ [(w, (rest.take 256).flatMap (leBytes 4))] }) s

end Sys2Proof.Machine
end

