-- ==== Sys2Proof/Machine/MbxOps.lean ====
section
/-!
DEFINITION. The mailboxes (R326 to R345): rings, taking a request, records, live operations, buffers, suspend, resume, cancel and flush.
-/
namespace Sys2Proof.Machine

/-! ### Requests (R330 to R335) -/

/-- A request as Glety copies it (R330, R334). -/
structure MbReq where
  cmd : Nat
  tag : Nat
  flags : Nat
  len : Nat
  data : List Nat

/-- Slot addresses of the rings (R329). -/
def reqSlot (m i : Nat) : Nat := 0x400D8000 + 0x2000 * m + 0x100 * (i % 16)
def rspSlot (m i : Nat) : Nat := 0x400D9000 + 0x2000 * m + 0x100 * (i % 16)

/-- The request at REQRD. -/
def mbReq (s : State) (m : Nat) : MbReq :=
  let a := reqSlot m (s.rd (Reg.MB_REQ_REQRD m))
  { cmd := s.ld a 2, tag := s.ld (a + 2) 2, flags := s.ld (a + 4) 2, len := s.ld (a + 6) 2, data := memRdBytes s.mem (a + 16) (min 240 (s.ld (a + 6) 2)) }

/-- A payload field. -/
def MbReq.at_ (r : MbReq) (off n : Nat) : Nat := leAt r.data off n

/-- A request waits and may be taken (R335, R336, R342). -/
def mbReady (s : State) (m : Nat) : Bool :=
  bootPhase s == 8 && domOn s 11 && !s.on (Reg.MB_STAT_FLUSHING m) && s.rd (Reg.MB_REQ_REQRD m) != s.rd (Reg.MB_REQ_REQWR m) && decide (mbShared (mbox s m) < 24)

/-- The mailbox whose turn it is (R335): round robin among those with requests. -/
def mbTurn (s : State) : Option Nat := ((List.range 4).map (fun i => (s.mbLast + 1 + i) % 4)).find? (mbReady s)

/-- Taking a request (R334): REQRD advances and EV140 + m is raised. -/
def mbTake (m : Nat) (s : State) : State :=
  { (s.wr (Reg.MB_REQ_REQRD m) ((s.rd (Reg.MB_REQ_REQRD m) + 1) % 32)).raise (140 + m) with mbLast := m }

/-! ### Records (R336, R337) -/

/-- Queue a record. -/
def mbPush (m : Nat) (r : MbRec) (s : State) : State := mbModify m (fun b => { b with backlog := b.backlog ++ [r] }) s

/-- The RESULT record of a request. -/
def mbResult (m : Nat) (r : MbReq) (status : Nat) (payload : List Nat) (s : State) : State :=
  mbPush m { cmd := r.cmd, tag := r.tag, flags := r.flags, rkind := 0, status := status, prog := 0, payload := payload } s

/-- A long command starts (R337): ACCEPTED, and a live operation with its numbers (first the buffer handle it holds) and bytes. -/
def mbAccept (m : Nat) (r : MbReq) (args data : List Nat) (s : State) : State :=
  let s1 := mbPush m { cmd := r.cmd, tag := r.tag, flags := r.flags, rkind := 1, status := 0, prog := 0, payload := [] } s
  mbModify m (fun b => { b with ops := b.ops ++ [LiveOp.mk r.cmd r.tag (bitOf r.flags 0 == 1) 0 none none false args data] }) s1

/-- The general refusals (R344, R338), in the order of their codes. -/
def mbRefusal (s : State) (m : Nat) (r : MbReq) (lenOk long : Bool) : Option Nat :=
  if 240 < r.len ∨ !lenOk then some Rc.BADLEN
  else if 1 < r.flags then some Rc.BADFLAGS
  else if r.tag = 0 then some Rc.BADTAG
  else if (mbox s m).ops.any (fun o => o.tag == r.tag) then some Rc.TAGBUSY
  else if long && decide (8 ≤ (mbox s m).ops.length) then some Rc.BUSY
  else none

/-- A command's occasion: it is the mailbox's turn and the request is that command. -/
def cmdOk (m id : Nat) (s : State) : Bool := mbTurn s == some m && (mbReq s m).cmd == id

/-- Take a request and run a command on it, behind the general refusals. -/
def cmdRun (m : Nat) (lenOk : Nat → Bool) (long : Bool) (body : MbReq → State → State) (s : State) : State :=
  let r := mbReq s m
  let s1 := mbTake m s
  match mbRefusal s1 m r (lenOk r.len) long with
  | some st => mbResult m r st [] s1
  | none => body r s1

/-- A short command of `n` payload bytes, and a long one. -/
def shortCmd (m n : Nat) (body : MbReq → State → State) (s : State) : State := cmdRun m (fun l => l == n) false body s
def longCmd (m n : Nat) (body : MbReq → State → State) (s : State) : State := cmdRun m (fun l => l == n) true body s

/-- RECORD_POST (R334, R336, R338): the oldest record moves into the response ring; a terminal record ends its operation's life; a LOST notice follows once
there is room. -/
def recordPostOk (m : Nat) (s : State) : Bool :=
  decide (m < 4) && bootPhase s == 8 && domOn s 11 && !s.on (Reg.MB_STAT_FLUSHING m) && !(mbox s m).backlog.isEmpty && decide ((s.rd (Reg.MB_RSP_RSPWR m) + 32 - s.rd (Reg.MB_RSP_RSPRD m)) % 32 < 16)
def recBytesOf (r : MbRec) : List Nat :=
  leBytes 2 r.cmd ++ leBytes 2 r.tag ++ leBytes 2 r.flags ++ leBytes 2 r.payload.length ++ leBytes 2 r.status ++ [r.rkind, r.prog] ++ leBytes 4 0 ++ r.payload
def lostNotice (m : Nat) (s : State) : State :=
  let b := mbox s m
  if b.lost = 0 ∨ 24 ≤ mbShared b then s
  else mbModify m (fun b => { b with backlog := b.backlog ++ [noticeRec 0xF00B (leBytes 2 (min 0xFFFF b.lost))], lost := 0 }) s
def recordPost (m : Nat) (s : State) : State :=
  match (mbox s m).backlog with
  | [] => s
  | r :: rest =>
    let s1 := mbModify m (fun b => { b with backlog := rest, ops := if rkTerminal r.rkind then b.ops.filter (fun o => !(o.tag == r.tag && o.ended)) else b.ops }) s
    let s2 := s1.stBytes (rspSlot m (s.rd (Reg.MB_RSP_RSPWR m))) (recBytesOf r)
    lostNotice m ((s2.wr (Reg.MB_RSP_RSPWR m) ((s.rd (Reg.MB_RSP_RSPWR m) + 1) % 32)).raise (136 + m))
def execRecordPost (m dt : Nat) (s : State) : Host.Outcome State Fault Refusal :=
  .next (onlyIf (recordPostOk m (s.pass dt)) (recordPost m (s.pass dt)) (s.pass dt))

/-- PROGRESS_RECORD (R337, R336): at most once per second for an operation with PROG set. -/
def progressRecordOk (m tag : Nat) (s : State) : Bool :=
  match opOf s m tag with | some o => o.prog && o.suspended.isNone && (match o.lastProg with | some t => decide (t + cycS 1 ≤ s.elapsed) | none => true) | none => false
def progressRecord (m tag : Nat) (s : State) : State :=
  match opOf s m tag with
  | none => s
  | some o =>
    let r : MbRec := { cmd := o.cmd, tag := tag, flags := b2n o.prog, rkind := 2, status := 0, prog := min 100 o.done, payload := [] }
    let s1 := opMod m tag (fun x => { x with lastProg := some s.elapsed }) s
    if mbShared (mbox s m) < 24 then mbPush m r s1
    else if (mbox s m).backlog.any (fun x => x.rkind == 2 && x.tag == tag) then mbModify m (fun b => { b with backlog := b.backlog.map (fun x => if x.rkind = 2 ∧ x.tag = tag then r else x) }) s1
    else s1.inc (Reg.MB_DROPCNT_PROGDROP m)
def execProgressRecord (m tag dt : Nat) (s : State) : Host.Outcome State Fault Refusal :=
  .next (onlyIf (progressRecordOk m tag (s.pass dt)) (progressRecord m tag (s.pass dt)) (s.pass dt))

/-! ### Suspend, resume, cancel (R339 to R341) -/

/-- Commands whose operation may be suspended (R341). -/
def suspendable (cmd : Nat) : Bool := [0x0605, 0x0703, 0x0B01, 0x0B03].contains cmd

/-- The operation is before its cancel point (R341). -/
def beforeCancel (s : State) (o : LiveOp) : Bool :=
  match o.cmd with
  | 0x0201 => match s.lnk.nextCfg with | some n => !n.sent | none => false
  | 0x0302 => match s.lnk.wake with | some w => decide (w.left = 9) | none => false
  | 0x0A02 => match s.mir.switch with | some w => decide (s.now + ftUs 10000 < w.t) | none => false
  | 0x0605 => true
  | 0x0703 => true
  | 0x0B01 => true
  | 0x0B03 => true
  | _ => false

/-- SPX1 is Glety's while a card is read (R616). -/
def cardRelease (o : LiveOp) (s : State) : State := if o.cmd = 0x0B01 ∧ o.args.getD 1 0 = 0 then s.clr (Reg.SPX_STAT_GLETY 1) else s

/-- What a cancelled operation leaves undone. -/
def opUndo (m : Nat) (o : LiveOp) (s : State) : State :=
  match o.cmd with
  | 0x0201 => { s with lnk := { s.lnk with nextCfg := none } }
  | 0x0302 => { s with lnk := { s.lnk with wake := none } }
  | 0x0A02 => mirMod (fun x => { x with switch := none }) (cmpDisarm 8 s)
  | 0x0605 => coMod (fun c => { c with disps := c.disps.filter (fun d => !(d.mb == m && d.op == o.tag)) }) s
  | 0x0B03 => updMod (fun u => { u with dist := none }) s
  | _ => cardRelease o s

/-- Cancel an operation: its CANCELLED record carries a status. -/
def opCancel (m : Nat) (o : LiveOp) (status : Nat) (s : State) : State := opEnd m o.tag 5 status [] (opUndo m o s)

/-- SUSPEND (R339): the target stops at once at a suspension point. -/
def suspend (m : Nat) (s : State) : State :=
  shortCmd m 2 (fun r t =>
    match opOf t m (r.at_ 0 2) with
    | none => mbResult m r Rc.NOTLIVE [] t
    | some o =>
      if o.suspended.isSome then mbResult m r Rc.OK [] t
      else if !suspendable o.cmd then mbResult m r Rc.NOSUSP [] t
      else mbResult m r Rc.OK [] (opMod m o.tag (fun x => { x with suspended := some t.elapsed }) t)) s
def execSuspend (m dt : Nat) (s : State) : Host.Outcome State Fault Refusal :=
  .next (onlyIf (cmdOk m 0x0001 (s.pass dt)) (suspend m (s.pass dt)) (s.pass dt))

/-- RESUME (R339). -/
def resume (m : Nat) (s : State) : State :=
  shortCmd m 2 (fun r t =>
    match opOf t m (r.at_ 0 2) with
    | none => mbResult m r Rc.NOTLIVE [] t
    | some o => if o.suspended.isNone then mbResult m r Rc.NOTSUSP [] t else dispSettle (mbResult m r Rc.OK [] (opMod m o.tag (fun x => { x with suspended := none }) t))) s
def execResume (m dt : Nat) (s : State) : Host.Outcome State Fault Refusal :=
  .next (onlyIf (cmdOk m 0x0002 (s.pass dt)) (resume m (s.pass dt)) (s.pass dt))

/-- CANCEL (R339, R340). -/
def cancel (m : Nat) (s : State) : State :=
  shortCmd m 2 (fun r t =>
    match opOf t m (r.at_ 0 2) with
    | none => mbResult m r Rc.NOTLIVE [] t
    | some o => if o.suspended.isSome || beforeCancel t o then opCancel m o Rc.OK (mbResult m r Rc.OK [] t) else mbResult m r Rc.TOOLATE [] t) s
def execCancel (m dt : Nat) (s : State) : Host.Outcome State Fault Refusal :=
  .next (onlyIf (cmdOk m 0x0003 (s.pass dt)) (cancel m (s.pass dt)) (s.pass dt))

/-- SUSPEND_TIMEOUT (R340). -/
def suspendTimeoutOk (m tag : Nat) (s : State) : Bool := match opOf s m tag with | some o => (match o.suspended with | some t => decide (t + cycS 3600 ≤ s.elapsed) | none => false) | none => false
def suspendTimeout (m tag : Nat) (s : State) : State := match opOf s m tag with | some o => opCancel m o Rc.TIMEOUT s | none => s
def execSuspendTimeout (m tag dt : Nat) (s : State) : Host.Outcome State Fault Refusal :=
  .next (onlyIf (suspendTimeoutOk m tag (s.pass dt)) (suspendTimeout m tag (s.pass dt)) (s.pass dt))

/-- OPS_LIST (R345). -/
def opsList (m : Nat) (s : State) : State :=
  shortCmd m 0 (fun r t => let l := (mbox t m).ops; mbResult m r Rc.OK ([l.length, 0] ++ l.flatMap (fun o => leBytes 2 o.tag ++ leBytes 2 o.cmd ++ [b2n o.suspended.isSome, min 100 o.done])) t) s
def execOpsList (m dt : Nat) (s : State) : Host.Outcome State Fault Refusal :=
  .next (onlyIf (cmdOk m 0x0004 (s.pass dt)) (opsList m (s.pass dt)) (s.pass dt))

/-! ### Flush (R342) -/

/-- FLUSH of MBm_CTL: FLUSHING reads 1; doorbells are ignored until it is done. -/
def mbFlush (m : Nat) (s : State) : State := if bootPhase s = 8 then s.set1 (Reg.MB_STAT_FLUSHING m) else s

/-- Operations past their cancel point run on without records: what they would report to is forgotten. -/
def mbForget (m : Nat) (s : State) : State :=
  let f := fun (x : Option (Nat × Nat)) => match x with | some (a, b) => if a = m then none else some (a, b) | none => none
  { s with co := { s.co with cmds := s.co.cmds.map (fun c => if c.mb = m then { c with op := 0 } else c) }, mir := { s.mir with switch := s.mir.switch.map (fun w => { w with op := f w.op }) },
           lnk := { s.lnk with wake := s.lnk.wake.map (fun w => { w with op := f w.op }) }, tblJobs := s.tblJobs.map (fun j => if j.mb = m then { j with tag := 0 } else j) }

/-- FLUSH_DONE (R342). -/
def flushDoneOk (m : Nat) (s : State) : Bool := s.on (Reg.MB_STAT_FLUSHING m)
def flushDone (m : Nat) (s : State) : State :=
  let s1 := (mbox s m).ops.foldl (fun t o => if !o.ended && (o.suspended.isSome || beforeCancel t o) then opUndo m o t else t) s
  let s2 := mbModify m (fun _ => Mbox.reset) (mbForget m s1)
  ((((s2.wr (Reg.MB_REQ_REQRD m) 0).wr (Reg.MB_REQ_REQWR m) 0).wr (Reg.MB_RSP_RSPWR m) 0).wr (Reg.MB_RSP_RSPRD m) 0).clr (Reg.MB_STAT_FLUSHING m)
def execFlushDone (m dt : Nat) (s : State) : Host.Outcome State Fault Refusal :=
  .next (onlyIf (flushDoneOk m (s.pass dt)) (flushDone m (s.pass dt)) (s.pass dt))

/-! ### Buffers (R343, R345) -/

/-- An open buffer, and whether a live operation holds it. -/
def bufOf (s : State) (m h : Nat) : Option (List Nat) := ((mbox s m).bufs.find? (fun b => b.handle == h)).map (fun b => b.data)
def bufHeld (s : State) (m h : Nat) : Bool := (mbox s m).ops.any (fun o => !o.ended && o.args.headD 0 == h)
def bufPut (m h : Nat) (data : List Nat) (s : State) : State := mbModify m (fun b => { b with bufs := b.bufs.map (fun x => if x.handle = h then { x with data := data } else x) }) s

/-- BUF_OPEN: the bytes of a new buffer are free values. -/
def bufOpen (m : Nat) (s : State) : State :=
  shortCmd m 4 (fun r t =>
    let size := r.at_ 0 4
    if size = 0 ∨ 16384 < size then mbResult m r Rc.BADPARAM [] t
    else match [1, 2].find? (fun h => (bufOf t m h).isNone) with
      | none => mbResult m r Rc.NOSPACE [] t
      | some h => mbResult m r Rc.OK [h] (mbModify m (fun b => { b with bufs := b.bufs ++ [MbBuf.mk h ((List.range size).map (fun i => t.freeAt i % 256))] }) (t.drawn size))) s
def execBufOpen (m dt : Nat) (s : State) : Host.Outcome State Fault Refusal :=
  .next (onlyIf (cmdOk m 0x0010 (s.pass dt)) (bufOpen m (s.pass dt)) (s.pass dt))

/-- BUF_WRITE. -/
def bufWrite (m : Nat) (s : State) : State :=
  cmdRun m (fun l => decide (4 ≤ l)) false (fun r t =>
    let d := r.data.drop 4
    match bufOf t m (r.at_ 0 1) with
    | none => mbResult m r Rc.BADPARAM [] t
    | some b =>
      if b.length < r.at_ 2 2 + d.length then mbResult m r Rc.BADPARAM [] t
      else if bufHeld t m (r.at_ 0 1) then mbResult m r Rc.BUFHELD [] t
      else mbResult m r Rc.OK [] (bufPut m (r.at_ 0 1) (setBytes b (r.at_ 2 2) d) t)) s
def execBufWrite (m dt : Nat) (s : State) : Host.Outcome State Fault Refusal :=
  .next (onlyIf (cmdOk m 0x0011 (s.pass dt)) (bufWrite m (s.pass dt)) (s.pass dt))

/-- BUF_READ. -/
def bufRead (m : Nat) (s : State) : State :=
  shortCmd m 6 (fun r t =>
    match bufOf t m (r.at_ 0 1) with
    | none => mbResult m r Rc.BADPARAM [] t
    | some b => if 240 < r.at_ 4 2 ∨ b.length < r.at_ 2 2 + r.at_ 4 2 then mbResult m r Rc.BADPARAM [] t else mbResult m r Rc.OK ((b.drop (r.at_ 2 2)).take (r.at_ 4 2)) t) s
def execBufRead (m dt : Nat) (s : State) : Host.Outcome State Fault Refusal :=
  .next (onlyIf (cmdOk m 0x0012 (s.pass dt)) (bufRead m (s.pass dt)) (s.pass dt))

/-- BUF_CLOSE. -/
def bufClose (m : Nat) (s : State) : State :=
  shortCmd m 1 (fun r t =>
    if (bufOf t m (r.at_ 0 1)).isNone then mbResult m r Rc.BADPARAM [] t
    else if bufHeld t m (r.at_ 0 1) then mbResult m r Rc.BUFHELD [] t
    else mbResult m r Rc.OK [] (mbModify m (fun b => { b with bufs := b.bufs.filter (fun x => !(x.handle == r.at_ 0 1)) }) t)) s
def execBufClose (m dt : Nat) (s : State) : Host.Outcome State Fault Refusal :=
  .next (onlyIf (cmdOk m 0x0013 (s.pass dt)) (bufClose m (s.pass dt)) (s.pass dt))

/-! ### Commands that are not in the set (R344) -/

/-- The command set of Glety 4.1 (R345). -/
def cmdSet : List Nat :=
  [0x0001, 0x0002, 0x0003, 0x0004, 0x0010, 0x0011, 0x0012, 0x0013, 0x0100, 0x0101, 0x0102, 0x0103, 0x0200, 0x0201, 0x0202, 0x0203, 0x0300, 0x0301, 0x0302] ++
  [0x0400, 0x0401, 0x0402, 0x0500, 0x0501, 0x0502, 0x0503, 0x0600, 0x0601, 0x0602, 0x0603, 0x0604, 0x0605, 0x0700, 0x0701, 0x0702, 0x0703] ++
  [0x0800, 0x0801, 0x0802, 0x0803, 0x0900, 0x0901, 0x0A00, 0x0A01, 0x0A02, 0x0B00, 0x0B01, 0x0B02, 0x0B03, 0x0B04, 0x0B05]

/-- UNKNOWN_COMMAND (R344). -/
def unknownCommandOk (m : Nat) (s : State) : Bool := mbTurn s == some m && !cmdSet.contains (mbReq s m).cmd
def unknownCommand (m : Nat) (s : State) : State := mbResult m (mbReq s m) Rc.UNKNOWN [] (mbTake m s)
def execUnknownCommand (m dt : Nat) (s : State) : Host.Outcome State Fault Refusal :=
  .next (onlyIf (unknownCommandOk m (s.pass dt)) (unknownCommand m (s.pass dt)) (s.pass dt))

end Sys2Proof.Machine
end

