-- ==== Sys2Proof/Machine/RegWr.lean ====
section
/-!
DEFINITION. Writes of registers (R7, R9, R14 to R18, R774): the access codes and classes, and what each block's command bits do.
-/
namespace Sys2Proof.Machine

/-- The bits of a written word that fall in a field. -/
def fBits (f : Field) (v : Nat) : Nat := (v >>> f.lo) % 2 ^ f.width

/-- A write changes a field's value (R774): the shadow copy of a class S field, the value in force of a class H field; a write-only class H bit, which reads 0, when it is written 1. -/
def fChanges (s : State) (f : Field) (v : Nat) : Bool :=
  match f.acc with
  | .rw => fBits f v != s.rd f
  | .wo => fBits f v != 0
  | _ => false

/-- A write to a register counts as a write of its fields of a class (R774): in a register that holds class L fields beside them, when it changes one of them; else always. -/
def writesCls (c : Cls) (fs : List Field) (v : Nat) (s : State) : Bool :=
  if fs.any (fun f => f.cls == .l) then fs.any (fun f => f.cls == c && fChanges s f v) else fs.any (fun f => f.cls == c)

/-- A write is caught by R17 (a class S field is written while APPLY reads 1) or by R18 (a class H field is written while the block runs). -/
def caughtS (fs : List Field) (v : Nat) (pend : Bool) (s : State) : Bool := pend && writesCls .s fs v s
def caughtH (fs : List Field) (v : Nat) (runs : Bool) (s : State) : Bool := runs && writesCls .h fs v s

/-- A write reaches one field by its access code (R9). -/
def fieldPut (f : Field) (v : Nat) (s : State) : State :=
  match f.acc with
  | .rw => s.wr f (fBits f v)
  | .w1c => s.wr f (s.rd f - (s.rd f &&& fBits f v))
  | _ => s

/-- A write reaches every field of a register but those in `skip`, whose write acts in its own way. -/
def regPut (skip fs : List Field) (v : Nat) (s : State) : State := fs.foldl (fun t f => if skip.contains f then t else fieldPut f v t) s

/-! ### PWR, FIRN -/

/-- A write of a PWR register (R645 to R652). -/
def pwrWrite (a v : Nat) (fs : List Field) (s : State) : State :=
  let off := a % 0x10000
  if off = 0x004 then
    let s1 := s.wr Reg.PWR_CTL_PFAILEN (bitOf v 29)
    let s2 := if bitOf v 30 = 1 then s1.clr Reg.BKP_SET0_LATCHED else s1
    let s3 := if bitOf v 31 = 1 then stopReqWrite s2 else s2
    if bitOf v 29 = 1 ∧ s.on Reg.PWR_CTL_PFAILEN = false ∧ s3.pwr.pfailLow = true ∧ leafMode s3 = false then stopAsk true s3 else s3
  else if off = 0x010 then waketWrite v s
  else if off = 0x100 then s
  else if 0x104 ≤ off ∧ off < 0x13C then
    let n := (off - 0x100) / 4
    let s1 := s.wr (Reg.PWR_DOM_DLYLIM n) (fBits (Reg.PWR_DOM_DLYLIM n) v)
    let s2 := if 7 ≤ n ∧ n ≤ 10 then s1.wr (Reg.PWR_DOM_EVWAKE n) (bitOf v 25) else s1
    cVote n (v % 4) s2
  else regPut [] fs v s

/-- A write of a FIRN register (R81, R87, R91, R101 to R106). -/
def firnWrite (a v : Nat) (fs : List Field) (s : State) : State :=
  let off := a % 0x10000
  if 0x100 ≤ off ∧ off < 0x300 then
    let n := (off - 0x100) / 0x10
    if caughtS fs v (s.on (Reg.FIRN_CMP_CTL_ARM n)) s then s.set1 (Reg.FIRN_CMP_STAT_CFGERR n)
    else if off % 0x10 = 8 then
      let s1 := regPut [Reg.FIRN_CMP_CTL_ARM n] fs v s
      let s2 := if bitOf v 30 = 1 then cmpDisarm n s1 else s1
      if bitOf v 31 = 1 ∧ s.on (Reg.FIRN_CMP_CTL_ARM n) = false then cmpArm n s2 else s2
    else regPut [] fs v s
  else if 0x400 ≤ off ∧ off < 0x440 then
    let k := (off - 0x400) / 0x10
    if caughtS fs v (s.on (Reg.FIRN_CAP_CTL_APPLY k)) s then s.set1 (Reg.FIRN_CAP_STAT_CFGERR k)
    else if off % 0x10 = 8 then
      let s1 := regPut [Reg.FIRN_CAP_CTL_APPLY k] fs v s
      if bitOf v 31 = 1 ∧ s.on (Reg.FIRN_CAP_CTL_APPLY k) = false then capApply k s1 else s1
    else regPut [] fs v s
  else regPut [] fs v s

/-! ### EVT and the interrupt controllers -/

/-- A source number that exists, or none (R568). -/
def srcNumOk (v : Nat) : Bool := decide (v < 192) || v == 0xFF

/-- A write of an EVT register (R555 to R569). -/
def evtWrite (a v : Nat) (fs : List Field) (s : State) : State :=
  let off := a % 0x10000
  if off < 0x100 then
    let n := off / 4
    let src := v % 256
    if src < 64 ∨ (192 ≤ src ∧ src < 255) ∨ (bitOf v 11 = 1 ∧ bitsOf v 10 8 < 4 ∧ 4 ≤ n ∧ n < 56) then s.set1 Reg.EVT_STAT_CFGERR else regPut [] fs v s
  else if off < 0x200 then
    let n := (off - 0x100) / 4
    let o := v % 32
    if n < 4 ∨ 56 ≤ n then s
    else if s.on Reg.PROT_CTL_LOCK ∨ ¬ ((1 ≤ o ∧ o ≤ 4) ∨ o = 21) then s.set1 Reg.PROT_STAT_CFGERR
    else regPut [] fs v s
  else if off = 0x200 then fireWord 0 v s
  else if off = 0x204 then fireWord 32 v s
  else if 0x300 ≤ off ∧ off < 0x320 then
    let g := (off - 0x300) / 4
    if srcNumOk (v % 256) = false ∨ srcNumOk (bitsOf v 15 8) = false then s.set1 Reg.EVT_STAT_CFGERR
    else
      let s1 := regPut [] fs v s
      if bitOf v 29 = 1 then grpSet g false s1 else if bitOf v 30 = 1 then grpSet g true s1 else s1
  else regPut [] fs v s

/-- A write of a processor's own interrupt controller (R557, R562, R564, R570). -/
def intcWrite (ini a v : Nat) (fs : List Field) (s : State) : State :=
  let off := a % 0x10000 - 0x8000
  if off < 0x200 then
    let src := v % 256
    if caughtH fs v (s.on (Reg.INTC_LINE_EN ini (off / 4))) s ∨ (src < 64 ∧ chanHeld s src (ini, b2n (isSecure s ini)) = false) then s.set1 (Reg.INTC_STAT_CFGERR ini)
    else regPut [] fs v s
  else regPut [] fs v s

/-! ### TMR, RTC -/

/-- A channel selection of TMR that R557 allows: the owner of entry 42 holds the channel. -/
def tmrSelOk (s : State) (sel : Nat) : Bool := chanHeld s (sel - 0x40) (s.rd (Reg.PROT_OWN_OWNER 42), s.rd (Reg.PROT_OWN_SEC 42))

/-- STSEL and CAPSEL values that are listed and allowed (R579, R580, R577). -/
def stselOk (s : State) (v : Nat) : Bool := v == 0 || (decide (0x40 ≤ v) && decide (v < 0x80) && tmrSelOk s v)
def capselOk (s : State) (v : Nat) : Bool := decide (v < 0x20) || (decide (0x40 ≤ v) && decide (v < 0x80) && tmrSelOk s v)

/-- A write of a TMR register (R573 to R585). -/
def tmrWrite (a v : Nat) (fs : List Field) (s : State) : State :=
  let off := a % 0x10000
  if off = 0x800 then (if bitOf v 31 = 1 then tmrBlockReset s else s)
  else if 0x800 ≤ off then regPut [] fs v s
  else
    let t := off / 0x100
    let o := off % 0x100
    let c := (o - 0x20) / 0x10
    let err := s.set1 (Reg.TMR_STAT_CFGERR t)
    let caught := caughtS fs v (s.on (Reg.TMR_CTL_APPLY t)) s || caughtH fs v (s.on (Reg.TMR_STAT_RUN t)) s
    if caught then err
    else if o = 0x00 then
      if stselOk s (bitsOf v 15 8) = false then err
      else
        let s1 := regPut [Reg.TMR_CTL_APPLY t] fs v s
        let s2 := if bitOf v 30 = 1 then s1.set1 (Reg.TMR_CTL_APPLY t) else s1
        if bitOf v 31 = 1 then tmrStart t s2 else s2
    else if o < 0x20 ∨ 0x60 ≤ o then regPut [] fs v s
    else if o % 0x10 = 0 then
      if bitsOf v 11 10 = 3 ∨ capselOk s (v % 256) = false then err
      else
        let s1 := tmrModCh t c (fun x => { x with edges := 0 }) (regPut [] fs v s)
        if bitOf v 31 = 1 then tmrForce t c s1 else s1
    else if o % 0x10 = 4 then tmrWriteCmp t c v s
    else regPut [] fs v s

/-- A write of an RTC or BKP register (R589 to R601). -/
def rtcWrite (a v : Nat) (fs : List Field) (s : State) : State :=
  let off := a % 0x10000
  if caughtS fs v (s.on Reg.RTC_CTL_APPLY) s then s.set1 Reg.RTC_STAT_CFGERR
  else if off = 0x028 then rtcWakeWrite (v % 2 ^ 26) s
  else if off = 0x030 then
    let s1 := s.wr Reg.RTC_CTL_ALEN (v % 2)
    if bitOf v 31 = 1 ∧ s.on Reg.RTC_CTL_APPLY = false then rtcApply s1 else s1
  else regPut [] fs v s

/-! ### MBX, FLC -/

/-- The doorbell of mailbox `m` (R333, R342). -/
def reqDoorbell (m v : Nat) (s : State) : State :=
  let rd := s.rd (Reg.MB_REQ_REQRD m)
  let dNew := (v % 32 + 32 - rd) % 32
  let dOld := (s.rd (Reg.MB_REQ_REQWR m) + 32 - rd) % 32
  if s.on (Reg.MB_STAT_FLUSHING m) = false ∧ dOld ≤ dNew ∧ dNew ≤ 16 then s.wr (Reg.MB_REQ_REQWR m) (v % 32) else s.set1 (Reg.MB_STAT_DBERR m)

/-- A write of MBm_RSP (R333, R342). -/
def rspWrite (m v : Nat) (s : State) : State :=
  let rd := s.rd (Reg.MB_RSP_RSPRD m)
  if s.on (Reg.MB_STAT_FLUSHING m) = false ∧ (v % 32 + 32 - rd) % 32 ≤ (s.rd (Reg.MB_RSP_RSPWR m) + 32 - rd) % 32 then s.wr (Reg.MB_RSP_RSPRD m) (v % 32) else s.set1 (Reg.MB_STAT_DBERR m)

/-- A write of an MBX location (R328, R361 to R367): nothing before boot phase 8. -/
def mbxWrite (a v : Nat) (fs : List Field) (s : State) : State :=
  let off := a % 0x10000
  if bootPhase s ≠ 8 then s
  else if 0x8000 ≤ off then s.st a 4 v
  else if off = 0 then (if caughtH fs v (bitOf (mbLive s) 3 == 1) s then s.set1 Reg.MBX_GSTAT_CFGERR else regPut [] fs v s)
  else if 0x100 ≤ off ∧ off < 0x200 then
    let m := (off - 0x100) / 0x40
    match off % 0x40 with
    | 0 => reqDoorbell m v s
    | 4 => rspWrite m v s
    | 8 => if v % 2 = 1 then mbFlush m s else s
    | _ => regPut [] fs v s
  else regPut [] fs v s

/-- A write of an FLC register (R480, R488, R489, R506, R508 to R513). -/
def flcWrite (ini a v : Nat) (fs : List Field) (s : State) : State :=
  match a % 0x10000 with
  | 0x100 => flcEn v s
  | 0x104 => qHWrite Reg.FLC_QAPP_DBASE (v / 32 * 32) (inCustomerRam s (v / 32 * 32) (32 * qN s)) s
  | 0x108 => qHWrite Reg.FLC_QAPP_CBASE (v / 16 * 16) (inCustomerRam s (v / 16 * 16) (16 * qN s)) s
  | 0x10C => qHWrite Reg.FLC_QAPP_SIZE_LOG2N (v % 16) (decide (3 ≤ v % 16 ∧ v % 16 ≤ 8)) s
  | 0x110 => flcDoorbell v s
  | 0x118 => flcCack v s
  | off => if 0x200 ≤ off ∧ off < 0x240 then xoWrite ((off - 0x200) / 4) v (isCustomer ini) s else regPut [] fs v s

/-! ### CPH and PROT -/

/-- A write of LOAD (R520): a load that still runs has ended before the next one begins. -/
def cphLoadNext (n : Nat) (s : State) : State := cphLoad n (if s.cph.load.isSome then keyLoadDone s else s)

/-- A write of a Caldera context's register (R519, R520, R527, R540 to R546); `parity`: the stored key that a START meets fails parity (R529). -/
def cphWrite (parity : Bool) (a v : Nat) (fs : List Field) (s : State) : State :=
  let off := a % 0x10000
  let n := off / 0x100
  let o := off % 0x100
  let busy := s.on (Reg.CPH_STAT_BUSY n)
  let err := s.set1 (Reg.CPH_STAT_CFGERR n)
  if 0x60 ≤ o ∧ o < 0x80 then
    let i := 8 * n + (o - 0x60) / 4
    if busy then err else { s with cph := { s.cph with keyRegs := put i v s.cph.keyRegs } }
  else if caughtH fs v busy s ∨ (busy ∧ 0x30 ≤ o ∧ o < 0x40) then err
  else if o = 0x04 then
    let s1 := if bitOf v 31 = 1 then cphStart n parity s else s
    if bitOf v 30 = 1 then cphAbort n s1 else s1
  else if 0x10 ≤ o ∧ o < 0x20 then
    if busy = false then s
    else
      let s1 := regPut [] fs v s
      if o = 0x1C then cphSubmit n s1 else s1
  else if o = 0x40 then
    let s1 := regPut [] fs v s
    let s2 := if bitOf v 30 = 1 then cphClear n (v % 8) s1 else s1
    if bitOf v 31 = 1 then cphLoadNext n s2 else s2
  else regPut [] fs v s

/-- What a change of entry `k` of the ownership table does to work in progress (R539). -/
def ownerChange (k : Nat) (s : State) : State :=
  if k < 16 then cmpDisarm (16 + k) s
  else if k = 38 then krnEndAll s
  else if k = 40 then cphOwnerChange 2 s
  else if k = 41 then cphOwnerChange 3 s
  else s

/-- A write of a PROT register (R538, R539, R548 to R551). -/
def protWrite (a v : Nat) (fs : List Field) (s : State) : State :=
  let off := a % 0x10000
  let lock := s.on Reg.PROT_CTL_LOCK
  let err := s.set1 Reg.PROT_STAT_CFGERR
  if off = 0x808 then regPut [] fs v s
  else if fs.isEmpty then s
  else if lock then err
  else if off = 0x800 then
    let s1 := s.wr Reg.PROT_CTL_DBGEN (bitOf v 1)
    if v % 2 = 1 then s1.set1 Reg.PROT_CTL_LOCK else s1
  else if 0x900 ≤ off then
    let o := v % 32
    if ¬ (o ≤ 4 ∨ o = 21) then err
    else
      let s1 := regPut [] fs v s
      if fs.any (fun f => fChanges s f v) then ownerChange ((off - 0x900) / 4) s1 else s1
  else regPut [] fs v s

/-! ### SPX, MIR, LMP -/

/-- A write of a serial port's register (R617 to R626). -/
def spxWrite (ini a v : Nat) (fs : List Field) (s : State) : State :=
  let n := (a - 0x40110000) / 0x10000
  let off := a % 0x10000
  let err := s.set1 (Reg.SPX_STAT_CFGERR n)
  if n = 1 ∧ s.on (Reg.SPX_STAT_GLETY 1) ∧ isCustomer ini then err
  else if caughtS fs v (s.on (Reg.SPX_CTL_APPLY n)) s ∨ caughtH (fs.filter (fun f => !(n == 1 && f == Reg.SPX_CFG_ROLE 1))) v (s.on (Reg.SPX_CTL_EN n)) s then err
  else if off = 0 then
    if n = 0 ∧ (bitsOf v 31 30 = 3 ∨ bitsOf v 13 12 ≠ 0) then err else regPut (if n = 1 then [Reg.SPX_CFG_ROLE 1] else []) fs v s
  else if off = 4 then
    let s1 := (s.wr (Reg.SPX_CTL_EN n) (v % 2)).wr (Reg.SPX_STAT_RUN n) (v % 2)
    let s2 := if bitOf v 29 = 1 then spxTxFlush n s1 else s1
    let s3 := if bitOf v 28 = 1 then spxRxFlush n s2 else s2
    let s4 := if bitOf v 31 = 1 then s3.set1 (Reg.SPX_CTL_APPLY n) else s3
    if bitOf v 30 = 1 then spxStart n s4 else s4
  else if off = 0x14 then spxPush n v s
  else regPut [] fs v s

/-- A write of a MIR register (R694). -/
def mirWrite (a v : Nat) (fs : List Field) (s : State) : State :=
  if a % 0x10000 = 8 then
    let s1 := regPut [Reg.MIR_FENCE_FENCE] fs v s
    if v % 2 = 1 then mirFence s1 else s1
  else regPut [] fs v s

/-- A write of an LMP register (R720, R723, R745 to R751). -/
def lmpWrite (ini a v : Nat) (fs : List Field) (s : State) : State :=
  let off := a % 0x10000
  let err := s.set1 Reg.LMP_STAT_CFGERR
  if s.on Reg.LMP_STAT_SVC ∧ isCustomer ini ∧ off ≠ 4 ∧ off ≠ 0x34 ∧ fs.isEmpty = false then err
  else if caughtS fs v (s.on Reg.LMP_CTL_APPLY) s ∨ caughtH fs v (s.on Reg.LMP_CTL_MEN) s then err
  else if off = 0 then
    let s1 := regPut [Reg.LMP_CTL_APPLY] fs v s
    if bitOf v 31 = 1 ∧ s.on Reg.LMP_CTL_APPLY = false then lmpApplyWrite s1 else s1
  else if off = 0x30 then
    let s1 := regPut [] fs v s
    if bitOf v 31 = 1 then daliSend s1 else s1
  else regPut [] fs v s

/-! ### The slots -/

/-- The fields of the word that an initiator reaches at a slot address (R564): its own interrupt controller, if it has one. -/
def slotFields (ini a : Nat) : List Field :=
  if 0x40038000 ≤ a ∧ a < 0x40040000 then (if ini ≤ 15 then regFields (ini * 2 ^ 32 + a) else []) else regFields a

/-- A write of a word in a peripheral slot, past every check (R39). -/
def slotWrite (parity : Bool) (ini a v : Nat) (s : State) : State :=
  let fs := slotFields ini a
  if fs.isEmpty ∧ a / 0x10000 ≠ 0x400D then s
  else match (a - 0x40000000) / 0x10000 with
  | 0 => pwrWrite a v fs s
  | 2 => firnWrite a v fs s
  | 3 => if 0x40038000 ≤ a then intcWrite ini a v fs s else evtWrite a v fs s
  | 4 => tmrWrite a v fs s
  | 5 => rtcWrite a v fs s
  | 13 => mbxWrite a v fs s
  | 14 => flcWrite ini a v fs s
  | 16 => if a < 0x40100400 then cphWrite parity a v fs s else if a < 0x40100800 then regPut [] fs v s else protWrite a v fs s
  | 17 => spxWrite ini a v fs s
  | 18 => spxWrite ini a v fs s
  | 20 => mirWrite a v fs s
  | 21 => lmpWrite ini a v fs s
  | _ => regPut [] fs v s

/-- The owner rules of the block that only the written value decides (R556): a fire word that names a channel of another. -/
def valueKind (s : State) (ini : Nat) (user : Bool) (a v : Nat) : Nat :=
  if a = 0x40030200 then (if fireOk s ini user 0 v then 0 else 2)
  else if a = 0x40030204 then (if fireOk s ini user 32 v then 0 else 2)
  else 0

/-! ### Reads (R9) -/

/-- Registers that show a running value take it now. -/
def regFresh (ini a : Nat) (s : State) : State :=
  if a = 0x4002000C then s.wr Reg.FIRN_QUAL_ERRBND (errBound s)
  else if a = 0x40038200 then
    (match presented s ini with | some l => (s.set1 (Reg.INTC_ACT_VALID ini)).wr (Reg.INTC_ACT_LINE ini) l | none => (s.clr (Reg.INTC_ACT_VALID ini)).wr (Reg.INTC_ACT_LINE ini) 0)
  else if 0x40040000 ≤ a ∧ a < 0x40040800 ∧ a % 0x100 = 8 then s.wr (Reg.TMR_CNT (a % 0x10000 / 0x100)) (tmrCnt s (a % 0x10000 / 0x100))
  else if a = 0x400D0004 then s.wr Reg.MBX_GSTAT_LIVE (mbLive s)
  else if 0x400D0100 ≤ a ∧ a < 0x400D0200 ∧ a % 0x40 = 0xC then
    let m := (a - 0x400D0100) / 0x40
    ((s.wr (Reg.MB_STAT_ACTIVE m) (b2n (bootPhase s == 8))).wr (Reg.MB_STAT_LIVEOPS m) (mbox s m).ops.length).wr (Reg.MB_STAT_BACKLOG m) (mbox s m).backlog.length
  else if a = 0x40000010 then s.wr Reg.PWR_WAKET (waketNow s)
  else if a = 0x40140004 then mirLagShow s
  else s

/-- The word that the fields of a register show. -/
def regShow (fs : List Field) (s : State) : Nat := fs.foldl (fun n f => if f.acc == .wo then n else n + s.rd f * 2 ^ f.lo) 0

/-- The read-and-clear fields of a register clear (R9); AGE_TEMP.PEAK returns to 0x80, its value for none since the last read (R689). -/
def regRc (fs : List Field) (s : State) : State := fs.foldl (fun t f => if f.acc == .rc then t.wr f (if f == Reg.AGE_TEMP_PEAK then 0x80 else 0) else t) s

/-- A read of a word in a peripheral slot, past every check: its value and the read's side effects. -/
def slotRead (ini a : Nat) (s : State) : Nat × State :=
  if a = 0x40020000 then firnTimeLo ini s
  else if a = 0x40020004 then ((look ini s.firn.timeHi).getD 0, s)
  else if 0x40020400 ≤ a ∧ a < 0x40020440 ∧ a % 0x10 = 0 then capTlo ini ((a - 0x40020400) / 0x10) s
  else if 0x40020400 ≤ a ∧ a < 0x40020440 ∧ a % 0x10 = 4 then ((look (32 * ((a - 0x40020400) / 0x10) + ini) s.firn.capHi).getD 0, s)
  else if 0x40040020 ≤ a ∧ a < 0x40040800 ∧ 0x20 ≤ a % 0x100 ∧ a % 0x100 < 0x60 ∧ a % 0x10 = 0xC then tmrCapRead (a % 0x10000 / 0x100) ((a % 0x100 - 0x20) / 0x10) s
  else if a = 0x40050000 then rtcReadTime ini s
  else if a = 0x40050004 then ((match look ini s.rtc.latch with | some p => p.1 | none => 0), s)
  else if a = 0x40050008 then ((match look ini s.rtc.latch with | some p => p.2 | none => 0), s)
  else if a = 0x40110014 then spxPop 0 s
  else if a = 0x40120014 then spxPop 1 s
  else if a = 0x40000100 then (0, s)
  else if a / 0x10000 = 0x400D ∧ bootPhase s ≠ 8 then (0, s)
  else if 0x400D8000 ≤ a ∧ a < 0x400E0000 then (s.ld a 4, s)
  else if a / 0x10000 = 0x4016 then (s.free % 2 ^ 32, s.drawn 1)
  else
    let fs := slotFields ini a
    if fs.isEmpty then (0, s)
    else
      let s1 := regFresh ini a s
      (regShow fs s1, regRc fs s1)

end Sys2Proof.Machine
end

