-- ==== Sys2Proof/Machine/Bus.lean ====
section
/-!
DEFINITION. Bus accesses (R7, R26 to R45, R436, R442, R637 to R640, R776): the checks, the wait for a sleeping domain, the target, and the rows of the table that
are register accesses.
-/
namespace Sys2Proof.Machine

/-- How an access ends: it completes with a value (0 for a write), it fails with a bus error of a KIND, or its initiator waits and makes it again. -/
inductive BusRes | done (v : Nat) | err (kind : Nat) | wait
  deriving DecidableEq, Repr

/-- The region and the global address of an access that has passed R776. -/
def busTarget (s : State) (w : BusReq) : Rgn × Nat := let g := (globalAddr w.ini w.addr).getD w.addr; (rgnOf s.isC g, g)

/-- Writes of an initiator that FAB has not accepted: all but the first that it holds for each domain (R29). -/
def unaccepted (s : State) (ini : Nat) : Nat :=
  (List.range 15).foldl (fun n d => n + ((s.pwr.held.filter (fun h => h.ini == ini && h.dom == d)).length - 1)) 0

/-- FAB holds a write of the initiator for the domain (R29). -/
def holdsFor (s : State) (ini n : Nat) : Bool := s.pwr.held.any (fun h => h.ini == ini && h.dom == n)

/-- Record a failed access. -/
def busFail (w : BusReq) (write : Bool) (kind : Nat) (denied : Bool) (s : State) : BusRes × State := (.err kind, busError w.ini write w.addr kind denied s)

/-- The bytes of the boot ROM as a number (log entry 5). -/
def romRead (a n : Nat) : Nat := ofLeBytes ((List.range n).map (fun i => Config.bootRom (a + i) % 256))

/-- A read of the DRAM (R447, R450, R453): it joins the reads that wait, and takes its data once it has been served. -/
def dramBusRead (w : BusReq) (g : Nat) (s : State) : BusRes × State :=
  match s.drc.rsps.find? (fun r => r.src == w.ini && r.addr == g) with
  | some r =>
    let s1 := s.drcW (fun d => { d with rsps := d.rsps.erase r })
    match r.data with
    | some l => (.done (ofLeBytes (l.take w.size)), s1)
    | none => busFail w false 6 false s1
  | none =>
    if s.drc.reqs.any (fun r => r.src == w.ini && r.addr == g && r.len == w.size) then (.wait, s)
    else (.wait, s.drcW (fun d => { d with reqs := d.reqs ++ [DramReq.mk w.ini g w.size s.elapsed false] }))

/-- A read past the checks, at its target. -/
def targetRead (w : BusReq) (s : State) : BusRes × State :=
  let (r, g) := busTarget s w
  match r with
  | .rom => (.done (romRead g w.size), s)
  | .slot _ => let (v, s1) := slotRead w.ini g s; (.done v, s1)
  | .dram => dramBusRead w g s
  | _ =>
    match badIn s g w.size with
    | some x => busFail w false 5 false (parDetect x w.ini false s)
    | none => (.done (s.ld g w.size), s)

/-- A write past the checks, at its target; a mirrored location's write goes to the standby too (R671). -/
def targetWrite (parity : Bool) (w : BusReq) (s : State) : BusRes × State :=
  let (r, g) := busTarget s w
  let l := leBytes w.size w.val
  match r with
  | .slot _ => (.done 0, slotWrite parity w.ini g w.val s)
  | .dram =>
    if w.ini = 21 then (.done 0, mirrorOut g l (dramPut 21 g l s))
    else if (dramSpan g w.size).all (wqRoom s) then (.done 0, mirrorOut g l (dramPut w.ini g l s)) else (.wait, s)
  | _ => (.done 0, mirrorOut g l (arrayWrite g l false s))

/-- The power domain that an access reaches, when it is not On. -/
def busAsleep (s : State) (w : BusReq) : Option Nat :=
  let n := rgnDomain (busTarget s w).1
  if n = 0 ∨ domOn s n then none else some n

/-- A read of the bus (R776, R637, R639, R29). -/
def busRead (w : BusReq) (fetch : Bool) (s : State) : BusRes × State :=
  let (k, denied) := accessKind s w.ini w.user false fetch w.addr w.size
  if k ≠ 0 then busFail w false k denied s
  else if w.par then busFail w false 5 false (fabParity w.addr w.ini s)
  else
    let n := rgnDomain (busTarget s w).1
    match busAsleep s w with
    | some d =>
      if s.pwr.expired.contains (w.ini, d) then busFail w false 4 false (pwrMod (fun p => { p with expired := p.expired.erase (w.ini, d) }) s)
      else (.wait, accessWait w.ini d s)
    | none => if n ≠ 0 ∧ holdsFor s w.ini n then (.wait, s) else targetRead w s

/-- Hold a posted write for a sleeping domain (R29, R640): four writes may stand behind the held ones; the host's frame holds its own words. -/
def holdWrite (w : BusReq) (n : Nat) (s : State) : BusRes × State :=
  if w.ini = 21 ∨ holdsFor s w.ini n = false ∨ unaccepted s w.ini < 4 then
    (.done 0, pwrMod (fun p => { p with held := p.held ++ [HeldW.mk w.ini w.user w.addr w.size w.val n s.elapsed] }) s)
  else (.wait, s)

/-- A write of the bus (R776, R637, R29); `parity` as for `cphWrite`. -/
def busWriteP (parity : Bool) (w : BusReq) (s : State) : BusRes × State :=
  let (k, denied) := accessKind s w.ini w.user true false w.addr w.size
  let k2 := if k = 0 then valueKind s w.ini w.user w.addr w.val else k
  if k2 ≠ 0 then busFail w true k2 denied s
  else if w.par then busFail w true 5 false (fabParity w.addr w.ini s)
  else
    let n := rgnDomain (busTarget s w).1
    match busAsleep s w with
    | some d =>
      if s.pwr.expired.contains (w.ini, d) then busFail w true 4 false (pwrMod (fun p => { p with expired := p.expired.erase (w.ini, d) }) s)
      else holdWrite w d (accessWait w.ini d s)
    | none => if n ≠ 0 ∧ holdsFor s w.ini n then holdWrite w n s else targetWrite parity w s

/-- A write of the bus. -/
def busWrite (w : BusReq) (s : State) : BusRes × State := busWriteP false w s

/-- A write as a command of its own: a failed one is told to a core or to the host (R403, R614). -/
def cmdWriteP (parity : Bool) (w : BusReq) (s : State) : State :=
  match busWriteP parity w s with
  | (.err k, s1) => postFail w.ini w.addr k s1
  | (_, s1) => s1
def cmdWrite (w : BusReq) (s : State) : State := cmdWriteP false w s

/-- A read as a command of its own: its value stands in `rdata` under the initiator. -/
def cmdRead (w : BusReq) (s : State) : State :=
  match busRead w false s with
  | (.done v, s1) => { s1 with rdata := put w.ini v s1.rdata }
  | (.err _, s1) => { s1 with rdata := put w.ini 0 s1.rdata }
  | (.wait, s1) => s1

/-- The initiator exists (R28). -/
def iniOk (w : BusReq) : Bool := decide (w.ini ≤ 22) && decide (w.size = 1 ∨ w.size = 2 ∨ w.size = 4 ∨ w.size = 8) && decide (w.addr < 2 ^ 32)

/-- A write in a slot, at offsets that satisfy a test. -/
def inSlot (n : Nat) (t : Nat → Bool) (w : BusReq) : Bool := iniOk w && w.addr / 0x10000 == 0x4000 + n && t (w.addr % 0x10000)

/-- A bit of the written value is 1. -/
def setsBit (i : Nat) (w : BusReq) : Bool := bitOf w.val i == 1

/-- Comparator, capture, timer and channel registers by offset. -/
def isCmpCtl (o : Nat) : Bool := decide (0x100 ≤ o) && decide (o < 0x300) && o % 0x10 == 8
def isCapReg (r o : Nat) : Bool := decide (0x400 ≤ o) && decide (o < 0x440) && o % 0x10 == r
def isTmrCtl (o : Nat) : Bool := decide (o < 0x800) && o % 0x100 == 0
def isCcReg (r o : Nat) : Bool := decide (o < 0x800) && decide (0x20 ≤ o % 0x100) && decide (o % 0x100 < 0x60) && o % 0x10 == r
def isMbReg (r o : Nat) : Bool := decide (0x100 ≤ o) && decide (o < 0x200) && o % 0x40 == r
def isCphReg (r o : Nat) : Bool := decide (o < 0x400) && o % 0x100 == r

/-! ### The rows: writes (R9, R81, R87, R91, R333, R342, R480, R488, R506, R520, R527, R538, R539, R556, R559, R573 to R578, R589, R592, R604, R620, R622, R631, R643, R645, R627, R673, R749) -/

/-- REGISTER_WRITE: a write by any initiator at any address, with all that it does there. -/
def execRegisterWrite (w : BusReq) (dt : Nat) (s : State) : Host.Outcome State Fault Refusal :=
  .next (onlyIf (iniOk w) (cmdWrite w (s.pass dt)) (s.pass dt))

/-- ARM. -/
def armOk (w : BusReq) : Bool := inSlot 2 isCmpCtl w && setsBit 31 w
def execArm (w : BusReq) (dt : Nat) (s : State) : Host.Outcome State Fault Refusal := .next (onlyIf (armOk w) (cmdWrite w (s.pass dt)) (s.pass dt))

/-- DISARM. -/
def disarmOk (w : BusReq) : Bool := inSlot 2 isCmpCtl w && setsBit 30 w
def execDisarm (w : BusReq) (dt : Nat) (s : State) : Host.Outcome State Fault Refusal := .next (onlyIf (disarmOk w) (cmdWrite w (s.pass dt)) (s.pass dt))

/-- CAPTURE_APPLY: the request; SHADOW_COMMIT makes the commit four FIRN cycles later. -/
def captureApplyWriteOk (w : BusReq) : Bool := inSlot 2 (isCapReg 8) w && setsBit 31 w
def execCaptureApply (w : BusReq) (dt : Nat) (s : State) : Host.Outcome State Fault Refusal := .next (onlyIf (captureApplyWriteOk w) (cmdWrite w (s.pass dt)) (s.pass dt))

/-- MB_REQ_DOORBELL. -/
def mbReqDoorbellOk (w : BusReq) : Bool := inSlot 13 (isMbReg 0) w
def execMbReqDoorbell (w : BusReq) (dt : Nat) (s : State) : Host.Outcome State Fault Refusal := .next (onlyIf (mbReqDoorbellOk w) (cmdWrite w (s.pass dt)) (s.pass dt))

/-- MB_RSP_WRITE. -/
def mbRspWriteOk (w : BusReq) : Bool := inSlot 13 (isMbReg 4) w
def execMbRspWrite (w : BusReq) (dt : Nat) (s : State) : Host.Outcome State Fault Refusal := .next (onlyIf (mbRspWriteOk w) (cmdWrite w (s.pass dt)) (s.pass dt))

/-- FLUSH. -/
def flushOk (w : BusReq) : Bool := inSlot 13 (isMbReg 8) w && setsBit 0 w
def execFlush (w : BusReq) (dt : Nat) (s : State) : Host.Outcome State Fault Refusal := .next (onlyIf (flushOk w) (cmdWrite w (s.pass dt)) (s.pass dt))

/-- FLC_DOORBELL. -/
def flcDoorbellOk (w : BusReq) : Bool := inSlot 14 (· == 0x110) w
def execFlcDoorbell (w : BusReq) (dt : Nat) (s : State) : Host.Outcome State Fault Refusal := .next (onlyIf (flcDoorbellOk w) (cmdWrite w (s.pass dt)) (s.pass dt))

/-- FLC_CACK_WRITE. -/
def flcCackWriteOk (w : BusReq) : Bool := inSlot 14 (· == 0x118) w
def execFlcCackWrite (w : BusReq) (dt : Nat) (s : State) : Host.Outcome State Fault Refusal := .next (onlyIf (flcCackWriteOk w) (cmdWrite w (s.pass dt)) (s.pass dt))

/-- FLC_EN_WRITE. -/
def flcEnWriteOk (w : BusReq) : Bool := inSlot 14 (· == 0x100) w
def execFlcEnWrite (w : BusReq) (dt : Nat) (s : State) : Host.Outcome State Fault Refusal := .next (onlyIf (flcEnWriteOk w) (cmdWrite w (s.pass dt)) (s.pass dt))

/-- FLC_XO_WRITE. -/
def flcXoWriteOk (w : BusReq) : Bool := inSlot 14 (fun o => decide (0x200 ≤ o) && decide (o < 0x240)) w
def execFlcXoWrite (w : BusReq) (dt : Nat) (s : State) : Host.Outcome State Fault Refusal := .next (onlyIf (flcXoWriteOk w) (cmdWrite w (s.pass dt)) (s.pass dt))

/-- START of a Caldera message; `parity`: the stored key that its check meets fails parity (R529). -/
def cphStartOk (w : BusReq) : Bool := inSlot 16 (isCphReg 4) w && setsBit 31 w
def execStart (w : BusReq) (parity : Bool) (dt : Nat) (s : State) : Host.Outcome State Fault Refusal := .next (onlyIf (cphStartOk w) (cmdWriteP parity w (s.pass dt)) (s.pass dt))

/-- ABORT. -/
def abortOk (w : BusReq) : Bool := inSlot 16 (isCphReg 4) w && setsBit 30 w
def execAbort (w : BusReq) (dt : Nat) (s : State) : Host.Outcome State Fault Refusal := .next (onlyIf (abortOk w) (cmdWrite w (s.pass dt)) (s.pass dt))

/-- DIN3_SUBMIT. -/
def din3SubmitOk (w : BusReq) : Bool := inSlot 16 (isCphReg 0x1C) w
def execDin3Submit (w : BusReq) (dt : Nat) (s : State) : Host.Outcome State Fault Refusal := .next (onlyIf (din3SubmitOk w) (cmdWrite w (s.pass dt)) (s.pass dt))

/-- KEY_LOAD. -/
def keyLoadOk (w : BusReq) : Bool := inSlot 16 (isCphReg 0x40) w && setsBit 31 w
def execKeyLoad (w : BusReq) (dt : Nat) (s : State) : Host.Outcome State Fault Refusal := .next (onlyIf (keyLoadOk w) (cmdWrite w (s.pass dt)) (s.pass dt))

/-- KEY_CLEAR. -/
def keyClearOk (w : BusReq) : Bool := inSlot 16 (isCphReg 0x40) w && setsBit 30 w
def execKeyClear (w : BusReq) (dt : Nat) (s : State) : Host.Outcome State Fault Refusal := .next (onlyIf (keyClearOk w) (cmdWrite w (s.pass dt)) (s.pass dt))

/-- OWNERSHIP_CHANGE. -/
def ownershipChangeOk (w : BusReq) : Bool := inSlot 16 (fun o => decide (0x900 ≤ o) && decide (o < 0x9C4)) w
def execOwnershipChange (w : BusReq) (dt : Nat) (s : State) : Host.Outcome State Fault Refusal := .next (onlyIf (ownershipChangeOk w) (cmdWrite w (s.pass dt)) (s.pass dt))

/-- PROT_LOCK. -/
def protLockOk (w : BusReq) : Bool := inSlot 16 (· == 0x800) w && setsBit 0 w
def execProtLock (w : BusReq) (dt : Nat) (s : State) : Host.Outcome State Fault Refusal := .next (onlyIf (protLockOk w) (cmdWrite w (s.pass dt)) (s.pass dt))

/-- SOFTWARE_FIRE. -/
def softwareFireOk (w : BusReq) : Bool := inSlot 3 (fun o => o == 0x200 || o == 0x204) w
def execSoftwareFire (w : BusReq) (dt : Nat) (s : State) : Host.Outcome State Fault Refusal := .next (onlyIf (softwareFireOk w) (cmdWrite w (s.pass dt)) (s.pass dt))

/-- SETEN. -/
def isGrp (o : Nat) : Bool := decide (0x300 ≤ o) && decide (o < 0x320)
def setenOk (w : BusReq) : Bool := inSlot 3 isGrp w && setsBit 30 w
def execSeten (w : BusReq) (dt : Nat) (s : State) : Host.Outcome State Fault Refusal := .next (onlyIf (setenOk w) (cmdWrite w (s.pass dt)) (s.pass dt))

/-- SETDIS. -/
def setdisOk (w : BusReq) : Bool := inSlot 3 isGrp w && setsBit 29 w
def execSetdis (w : BusReq) (dt : Nat) (s : State) : Host.Outcome State Fault Refusal := .next (onlyIf (setdisOk w) (cmdWrite w (s.pass dt)) (s.pass dt))

/-- TIMER_START. -/
def timerStartOk (w : BusReq) : Bool := inSlot 4 isTmrCtl w && setsBit 31 w
def execTimerStart (w : BusReq) (dt : Nat) (s : State) : Host.Outcome State Fault Refusal := .next (onlyIf (timerStartOk w) (cmdWrite w (s.pass dt)) (s.pass dt))

/-- TIMER_APPLY. -/
def timerApplyOk (w : BusReq) : Bool := inSlot 4 isTmrCtl w && setsBit 30 w
def execTimerApply (w : BusReq) (dt : Nat) (s : State) : Host.Outcome State Fault Refusal := .next (onlyIf (timerApplyOk w) (cmdWrite w (s.pass dt)) (s.pass dt))

/-- FORCE. -/
def forceOk (w : BusReq) : Bool := inSlot 4 (isCcReg 0) w && setsBit 31 w
def execForce (w : BusReq) (dt : Nat) (s : State) : Host.Outcome State Fault Refusal := .next (onlyIf (forceOk w) (cmdWrite w (s.pass dt)) (s.pass dt))

/-- TIMER_BLOCK_RESET. -/
def timerBlockResetOk (w : BusReq) : Bool := inSlot 4 (· == 0x800) w && setsBit 31 w
def execTimerBlockReset (w : BusReq) (dt : Nat) (s : State) : Host.Outcome State Fault Refusal := .next (onlyIf (timerBlockResetOk w) (cmdWrite w (s.pass dt)) (s.pass dt))

/-- RTC_APPLY. -/
def rtcApplyOk (w : BusReq) : Bool := inSlot 5 (· == 0x030) w && setsBit 31 w
def execRtcApply (w : BusReq) (dt : Nat) (s : State) : Host.Outcome State Fault Refusal := .next (onlyIf (rtcApplyOk w) (cmdWrite w (s.pass dt)) (s.pass dt))

/-- WAKE_PERIOD_WRITE. -/
def wakePeriodWriteOk (w : BusReq) : Bool := inSlot 5 (· == 0x028) w
def execWakePeriodWrite (w : BusReq) (dt : Nat) (s : State) : Host.Outcome State Fault Refusal := .next (onlyIf (wakePeriodWriteOk w) (cmdWrite w (s.pass dt)) (s.pass dt))

/-- A write of SPXn_CTL. -/
def isSpxCtl (w : BusReq) : Bool := inSlot 17 (· == 4) w || inSlot 18 (· == 4) w

/-- SPX_START. -/
def spxStartOk (w : BusReq) : Bool := isSpxCtl w && setsBit 30 w
def execSpxStart (w : BusReq) (dt : Nat) (s : State) : Host.Outcome State Fault Refusal := .next (onlyIf (spxStartOk w) (cmdWrite w (s.pass dt)) (s.pass dt))

/-- SPX_APPLY. -/
def spxApplyOk (w : BusReq) : Bool := isSpxCtl w && setsBit 31 w
def execSpxApply (w : BusReq) (dt : Nat) (s : State) : Host.Outcome State Fault Refusal := .next (onlyIf (spxApplyOk w) (cmdWrite w (s.pass dt)) (s.pass dt))

/-- TXFLUSH. -/
def txflushOk (w : BusReq) : Bool := isSpxCtl w && setsBit 29 w
def execTxflush (w : BusReq) (dt : Nat) (s : State) : Host.Outcome State Fault Refusal := .next (onlyIf (txflushOk w) (cmdWrite w (s.pass dt)) (s.pass dt))

/-- RXFLUSH. -/
def rxflushOk (w : BusReq) : Bool := isSpxCtl w && setsBit 28 w
def execRxflush (w : BusReq) (dt : Nat) (s : State) : Host.Outcome State Fault Refusal := .next (onlyIf (rxflushOk w) (cmdWrite w (s.pass dt)) (s.pass dt))

/-- DATA_PUSH. -/
def isSpxData (w : BusReq) : Bool := inSlot 17 (· == 0x14) w || inSlot 18 (· == 0x14) w
def execDataPush (w : BusReq) (dt : Nat) (s : State) : Host.Outcome State Fault Refusal := .next (onlyIf (isSpxData w) (cmdWrite w (s.pass dt)) (s.pass dt))

/-- VOTE_WRITE. -/
def voteWriteOk (w : BusReq) : Bool := inSlot 0 (fun o => decide (0x104 ≤ o) && decide (o < 0x13C)) w
def execVoteWrite (w : BusReq) (dt : Nat) (s : State) : Host.Outcome State Fault Refusal := .next (onlyIf (voteWriteOk w) (cmdWrite w (s.pass dt)) (s.pass dt))

/-- STOPREQ. -/
def stopreqOk (w : BusReq) : Bool := inSlot 0 (· == 4) w && setsBit 31 w
def execStopreq (w : BusReq) (dt : Nat) (s : State) : Host.Outcome State Fault Refusal := .next (onlyIf (stopreqOk w) (cmdWrite w (s.pass dt)) (s.pass dt))

/-- WAKET_WRITE. -/
def waketWriteOk (w : BusReq) : Bool := inSlot 0 (· == 0x10) w
def execWaketWrite (w : BusReq) (dt : Nat) (s : State) : Host.Outcome State Fault Refusal := .next (onlyIf (waketWriteOk w) (cmdWrite w (s.pass dt)) (s.pass dt))

/-- RELATCH. -/
def relatchOk (w : BusReq) : Bool := inSlot 0 (· == 4) w && setsBit 30 w
def execRelatch (w : BusReq) (dt : Nat) (s : State) : Host.Outcome State Fault Refusal := .next (onlyIf (relatchOk w) (cmdWrite w (s.pass dt)) (s.pass dt))

/-- MIR_FENCE. -/
def mirFenceOk (w : BusReq) : Bool := inSlot 20 (· == 8) w && setsBit 0 w
def execMirFence (w : BusReq) (dt : Nat) (s : State) : Host.Outcome State Fault Refusal := .next (onlyIf (mirFenceOk w) (cmdWrite w (s.pass dt)) (s.pass dt))

/-- DALI_SEND. -/
def daliSendOk (w : BusReq) : Bool := inSlot 21 (· == 0x30) w && setsBit 31 w
def execDaliSend (w : BusReq) (dt : Nat) (s : State) : Host.Outcome State Fault Refusal := .next (onlyIf (daliSendOk w) (cmdWrite w (s.pass dt)) (s.pass dt))

/-! ### The rows: reads (R56, R93, R577, R588, R622) -/

/-- FIRN_TIME_LO_READ. -/
def firnTimeLoReadOk (w : BusReq) : Bool := inSlot 2 (· == 0) w
def execFirnTimeLoRead (w : BusReq) (dt : Nat) (s : State) : Host.Outcome State Fault Refusal := .next (onlyIf (firnTimeLoReadOk w) (cmdRead w (s.pass dt)) (s.pass dt))

/-- CAPTURE_READ. -/
def captureReadOk (w : BusReq) : Bool := inSlot 2 (isCapReg 0) w
def execCaptureRead (w : BusReq) (dt : Nat) (s : State) : Host.Outcome State Fault Refusal := .next (onlyIf (captureReadOk w) (cmdRead w (s.pass dt)) (s.pass dt))

/-- CAP_READ. -/
def capReadOk (w : BusReq) : Bool := inSlot 4 (isCcReg 0xC) w
def execCapRead (w : BusReq) (dt : Nat) (s : State) : Host.Outcome State Fault Refusal := .next (onlyIf (capReadOk w) (cmdRead w (s.pass dt)) (s.pass dt))

/-- RTC_TIME_READ. -/
def rtcTimeReadOk (w : BusReq) : Bool := inSlot 5 (· == 0) w
def execRtcTimeRead (w : BusReq) (dt : Nat) (s : State) : Host.Outcome State Fault Refusal := .next (onlyIf (rtcTimeReadOk w) (cmdRead w (s.pass dt)) (s.pass dt))

/-- DATA_POP. -/
def execDataPop (w : BusReq) (dt : Nat) (s : State) : Host.Outcome State Fault Refusal := .next (onlyIf (isSpxData w) (cmdRead w (s.pass dt)) (s.pass dt))

/-! ### Held writes and commits (R29, R15) -/

/-- The oldest held write whose domain is On (R29): made now. -/
def heldReady (s : State) : Option HeldW := s.pwr.held.find? (fun h => domOn s h.dom)
def heldWrite (s : State) : State :=
  match heldReady s with
  | none => s
  | some h =>
    let s1 := pwrMod (fun p => { p with held := p.held.erase h }) s
    let w : BusReq := { ini := h.ini, user := h.user, addr := h.addr, size := h.size, val := h.val, par := false }
    match targetWrite false w s1 with
    | (.wait, _) => s
    | (_, s2) => s2

/-- HELD_WRITE. -/
def execHeldWrite (dt : Nat) (s : State) : Host.Outcome State Fault Refusal :=
  .next (onlyIf (heldReady (s.pass dt)).isSome (heldWrite (s.pass dt)) (s.pass dt))

/-- The blocks whose commit has no row of its own (R15): timers 0 to 7 that do not run (R574), serial ports 8 and 9 without a frame (R606), capture units 10 to 13 (R91). -/
def shadowCommitOk (b : Nat) (s : State) : Bool :=
  if b < 8 then s.on (Reg.TMR_CTL_APPLY b) && !s.on (Reg.TMR_STAT_RUN b)
  else if b < 10 then s.on (Reg.SPX_CTL_APPLY (b - 8)) && !s.on (Reg.SPX_STAT_ACTIVE (b - 8))
  else captureApplyOk (b - 10) s
def shadowCommit (b : Nat) (s : State) : State := if b < 8 then tmrCommit b s else if b < 10 then spxCommit (b - 8) s else captureApply (b - 10) s

/-- SHADOW_COMMIT of block `b`. -/
def execShadowCommit (b dt : Nat) (s : State) : Host.Outcome State Fault Refusal :=
  .next (onlyIf (shadowCommitOk b (s.pass dt)) (shadowCommit b (s.pass dt)) (s.pass dt))

/-- PERIODIC_WAKE (R592, R598). -/
def execPeriodicWake (dt : Nat) (s : State) : Host.Outcome State Fault Refusal :=
  .next (onlyIf (periodicWakeOk (s.pass dt)) (periodicWake (s.pass dt)) (s.pass dt))

/-! ### The host port (R54, R607 to R618, R703) -/

/-- A failed host access (R614). -/
def hostErr (a : Nat) (s : State) : State := (s.set1 Reg.HW_STAT_BERR).wr Reg.HW_BERRADDR a

/-- The address of an aperture index (R614), and of the MB0 registers at indices 4 to 8. -/
def hostAddr (s : State) (idx : Nat) : Option Nat :=
  if 0x80 ≤ idx ∧ idx ≤ 0xFF then some ((s.rd Reg.HW_APBASE_BASE * 0x200 + 4 * (idx - 0x80)) % 2 ^ 32)
  else if 4 ≤ idx ∧ idx ≤ 8 then some (0x400D0100 + 4 * (idx - 4))
  else none

/-- An access of the host. -/
def hostReq (a v : Nat) : BusReq := { ini := 21, user := false, addr := a, size := 4, val := v, par := false }

/-- HW_STAT as a read shows it (R618). -/
def hostStat (s : State) : Nat :=
  16 * s.rd Reg.HW_STAT_BADCMD + 8 * s.rd Reg.HW_STAT_BERR + 4 * s.rd Reg.HW_STAT_FRAG + 2 * s.rd (Reg.SPX_STAT_OVERLEN 0) + s.rd (Reg.SPX_STAT_WINOVR 0)

/-- A read of a window index (R614, R615): none while its access waits (0xC3 groups). -/
def hostRead (idx : Nat) (s : State) : Option Nat × State :=
  match hostAddr s idx with
  | some a =>
    (match busRead (hostReq a 0) false s with
     | (.done v, s1) => (some v, s1)
     | (.err _, s1) => (some 0, hostErr a s1)
     | (.wait, s1) => (none, s1))
  | none =>
    if 0xFF < idx then (some 0, spxFlag 0 (Reg.SPX_STAT_WINOVR 0) (Reg.SPX_IEN_WINOVR 0) s)
    else match idx with
      | 0 => (some (regShow (regFields 0x40170000) s), s)
      | 1 => (some (regShow (regFields 0x4017000C) s), s)
      | 2 => (some (hostStat s), s)
      | 3 => (some (s.rd Reg.HW_APBASE_BASE * 0x200), s)
      | 9 => (some (s.rd Reg.HW_BERRADDR), s)
      | _ => (some 0, s)

/-- A write of a window index (R613 to R615). -/
def hostWrite (idx v : Nat) (s : State) : State :=
  match hostAddr s idx with
  | some a => cmdWrite (hostReq a v) s
  | none =>
    if 0xFF < idx then spxFlag 0 (Reg.SPX_STAT_WINOVR 0) (Reg.SPX_IEN_WINOVR 0) s
    else match idx with
      | 2 =>
        let clr1 := fun (i : Nat) (f : Field) (t : State) => if bitOf v i = 1 then t.clr f else t
        clr1 0 (Reg.SPX_STAT_WINOVR 0) (clr1 1 (Reg.SPX_STAT_OVERLEN 0) (clr1 2 Reg.HW_STAT_FRAG (clr1 3 Reg.HW_STAT_BERR (clr1 4 Reg.HW_STAT_BADCMD s))))
      | 3 => s.wr Reg.HW_APBASE_BASE (v / 0x200)
      | _ => s

/-- The host window is served (R54): from boot phase 3 on, and not in recovery (R703). -/
def hostServed (s : State) : Bool := decide (3 ≤ bootPhase s) && bootPhase s != 0xE && spxRole s 0 == 0 && s.on (Reg.SPX_CTL_EN 0) && (spxOf s 0).slave

/-- Word `k` of a READ frame with a command byte and an index (R611, R612): its window index. -/
def hostIndex (cmd idx k : Nat) : Nat := if bitOf cmd 3 = 1 then idx % 256 + k else idx % 256

/-- HOST_READ (R612): a window read is issued; its word stands in `rdata` under the host once the access has completed. -/
def hostReadOk (cmd : Nat) (s : State) : Bool := hostServed s && bitsOf cmd 7 6 == 0 && cmd % 8 == 0
def hostReadWord (cmd idx k : Nat) (s : State) : State :=
  match hostRead (hostIndex cmd idx k) s with
  | (some v, s1) => { s1 with rdata := put 21 v s1.rdata }
  | (none, s1) => s1
def execHostRead (cmd idx k dt : Nat) (s : State) : Host.Outcome State Fault Refusal :=
  .next (onlyIf (hostReadOk cmd (s.pass dt)) (hostReadWord cmd idx k (s.pass dt)) (s.pass dt))

/-- Words of 32 bits in received bytes. -/
def rxWords (s : State) (n : Nat) (bytes : List Nat) : List Nat := (List.range n).map (fun i => rxWord (s.on (Reg.SPX_CFG_LSBF 0)) 32 i bytes)

/-- A host frame of `nbits` ends (R611, R613, R609): a bad command byte, a short frame, or a WRITE whose words are written in order. -/
def hostFrame (nbits : Nat) (bytes : List Nat) (s : State) : State :=
  let cmd := bytes.getD 0 0
  let idx := bytes.getD 1 0
  let frag := spxErr 0 (Reg.SPX_ERR_FRAG 0) true (s.set1 Reg.HW_STAT_FRAG)
  if nbits < 32 then frag
  else if 2 ≤ bitsOf cmd 7 6 ∨ cmd % 8 ≠ 0 then spxErr 0 (Reg.SPX_ERR_BADCMD 0) false (s.set1 Reg.HW_STAT_BADCMD)
  else if bitsOf cmd 7 6 = 0 then s
  else
    let d := nbits - 16
    let kept := min d 2048
    let s1 := if 2048 < d then spxFlag 0 (Reg.SPX_STAT_OVERLEN 0) (Reg.SPX_IEN_OVERLEN 0) s else s
    if kept % 32 ≠ 0 then spxErr 0 (Reg.SPX_ERR_FRAG 0) true (s1.set1 Reg.HW_STAT_FRAG)
    else
      let ws := rxWords s1 (kept / 32) (bytes.drop 2)
      (List.range ws.length).foldl (fun t i => hostWrite (hostIndex cmd idx i) (ws.getD i 0) t) s1

/-- A recovery frame gave the host, on D1, the status of the frame before it (R703): the host's read data. -/
def recAnswered (status : Nat) (s : State) : State := { s with rdata := put 21 status s.rdata }

/-- SLAVE_FRAME_END (R607): SPX0_CS_N rises; `bytes` are the bits received in order, `sent` the words that had been in the transmit FIFO in time. -/
def slaveFrameEnd (nbits : Nat) (bytes : List Nat) (sent : Nat) (s : State) : State :=
  let s1 :=
    if bootPhase s = 0xE then (if nbits % 32 = 0 ∧ 0 < nbits then recAnswered s.upd.recStatus (recFrame (rxWords s (nbits / 32) bytes) s) else spxErr 0 (Reg.SPX_ERR_FRAG 0) true s)
    else if spxRole s 0 = 0 then (if bootPhase s < 3 then s else hostFrame nbits bytes s)
    else slaveRx nbits bytes sent s
  spxFrameEnd 0 (spxMod 0 (fun p => { p with slave := false }) s1)
def execSlaveFrameEnd (nbits : Nat) (bytes : List Nat) (sent dt : Nat) (s : State) : Host.Outcome State Fault Refusal :=
  .next (onlyIf ((spxOf (s.pass dt) 0).slave) (slaveFrameEnd nbits bytes sent (s.pass dt)) (s.pass dt))

end Sys2Proof.Machine
end

