-- ==== Sys2Proof/Machine/Flags.lean ====
section
/-!
DEFINITION. The ALU of the compact form: each function's result and flags at a width (R384, R385, R389, R391).
-/
namespace Sys2Proof.Machine

/-- What an ALU function gives: a result unless it is discarded, and the flags it writes. -/
structure AluOut where
  res : Option Nat
  n : Option Bool
  z : Option Bool
  c : Option Bool
  v : Option Bool
  deriving DecidableEq, Repr

/-- The sign and the zero test of a result at width `w`. -/
def isNeg (w r : Nat) : Bool := bitOf r (w - 1) == 1
def outNZ (w r : Nat) : AluOut := { res := some r, n := some (isNeg w r), z := some (r == 0), c := none, v := none }
def outNone (r : Nat) : AluOut := { res := some r, n := none, z := none, c := none, v := none }

/-- a + b + carry in (R384). -/
def sumOut (w a b ci : Nat) : AluOut :=
  let r := (a + b + ci) % 2 ^ w
  { outNZ w r with c := some (decide (2 ^ w ≤ a + b + ci)), v := some (decide (toSigned w r ≠ toSigned w a + toSigned w b + (ci : Int))) }

/-- a − b − borrow in; C is 1 when no borrow occurred (R377, R384). -/
def diffOut (w a b bi : Nat) : AluOut :=
  let r := (a + 2 ^ w - b - bi) % 2 ^ w
  { outNZ w r with c := some (decide (b + bi ≤ a)), v := some (decide (toSigned w r ≠ toSigned w a - toSigned w b - (bi : Int))) }

/-- The functions of R384, at width `w` on operands below 2^w with the C flag. -/
abbrev AluFn := Nat → Nat → Nat → Bool → AluOut

def aluAdd : AluFn := fun w a b _ => sumOut w a b 0
def aluAdc : AluFn := fun w a b c => sumOut w a b (b2n c)
def aluSub : AluFn := fun w a b _ => diffOut w a b 0
def aluSbc : AluFn := fun w a b c => diffOut w a b (1 - b2n c)
def aluCmp : AluFn := fun w a b _ => { diffOut w a b 0 with res := none }
def aluAnd : AluFn := fun w a b _ => outNZ w (a &&& b)
def aluOr : AluFn := fun w a b _ => outNZ w (a ||| b)
def aluXor : AluFn := fun w a b _ => outNZ w (a ^^^ b)
def aluBic : AluFn := fun w a b _ => outNZ w (a &&& (2 ^ w - 1 - b))
def aluTst : AluFn := fun w a b _ => { outNZ w (a &&& b) with res := none }
def aluMov : AluFn := fun _ _ b _ => outNone b
def aluNot : AluFn := fun w _ b _ => outNZ w (2 ^ w - 1 - b)

/-- A shift by bits 4:0 of b: an amount of 0 leaves the value and C (R385). -/
def shiftOut (w a n r : Nat) (out : Bool) : AluOut := if n = 0 then outNZ w a else { outNZ w r with c := some out }
def aluShl : AluFn := fun w a b _ => let n := b % 32; shiftOut w a n (a * 2 ^ n % 2 ^ w) (decide (n ≤ w) && bitOf a (w - n) == 1)
def aluShr : AluFn := fun w a b _ => let n := b % 32; shiftOut w a n (a / 2 ^ n) (bitOf a (n - 1) == 1)
def aluSar : AluFn := fun w a b _ =>
  let n := b % 32
  shiftOut w a n (ofSigned w (toSigned w a / ((2 ^ n : Nat) : Int))) (if n ≤ w then bitOf a (n - 1) == 1 else isNeg w a)

/-- A rotation by the amount modulo the width; C is the last bit rotated out, and stays where that amount is 0 (R385). -/
def aluRor : AluFn := fun w a b _ => let n := b % 32 % w; shiftOut w a n (a / 2 ^ n + a % 2 ^ n * 2 ^ (w - n)) (bitOf a (n - 1) == 1)

/-- Products of 32 bits. -/
def aluMul : AluFn := fun w a b _ => outNZ w (a * b % 2 ^ w)
def aluMulh : AluFn := fun w a b _ => outNZ w (ofSigned w (toSigned w a * toSigned w b / ((2 ^ w : Nat) : Int)))
def aluMulhu : AluFn := fun w a b _ => outNZ w (a * b / 2 ^ w)

/-- The corner of a signed division whose quotient does not fit (R385). -/
def divEdge (w a b : Nat) : Bool := a == 2 ^ (w - 1) && b == 2 ^ w - 1

/-- Quotients and remainders; V marks the corners (R385). -/
def aluDiv : AluFn := fun w a b _ =>
  let r := if b = 0 then 2 ^ w - 1 else if divEdge w a b then a else ofSigned w ((toSigned w a).tdiv (toSigned w b))
  { outNZ w r with v := some (b == 0 || divEdge w a b) }
def aluDivu : AluFn := fun w a b _ => { outNZ w (if b = 0 then 2 ^ w - 1 else a / b) with v := some (b == 0) }
def aluRem : AluFn := fun w a b _ =>
  let r := if b = 0 then a else if divEdge w a b then 0 else ofSigned w ((toSigned w a).tmod (toSigned w b))
  { outNZ w r with v := some (b == 0 || divEdge w a b) }
def aluRemu : AluFn := fun w a b _ => { outNZ w (if b = 0 then a else a % b) with v := some (b == 0) }
def aluMin : AluFn := fun w a b _ => outNone (if toSigned w a ≤ toSigned w b then a else b)
def aluMax : AluFn := fun w a b _ => outNone (if toSigned w a ≤ toSigned w b then b else a)
def aluMinu : AluFn := fun _ a b _ => outNone (min a b)
def aluMaxu : AluFn := fun _ a b _ => outNone (max a b)

/-- Write the flags that a function gives. -/
def flagsPut (o : AluOut) (c : Core) : Core := { c with n := o.n.getD c.n, z := o.z.getD c.z, c := o.c.getD c.c, v := o.v.getD c.v }

/-- fl as a number, and its write (R371). -/
def flWord (c : Core) : Nat := 8 * b2n c.n + 4 * b2n c.z + 2 * b2n c.c + b2n c.v
def flPut (x : Nat) (c : Core) : Core := { c with n := bitOf x 3 == 1, z := bitOf x 2 == 1, c := bitOf x 1 == 1, v := bitOf x 0 == 1 }

/-- A condition code in set A or, under CSB, in set B (R377). -/
def condHolds (setB : Bool) (code : Nat) (c : Core) : Bool :=
  match setB, code % 8 with
  | _, 7 => true
  | false, 0 => c.z
  | false, 1 => !c.z
  | false, 2 => c.c
  | false, 3 => !c.c
  | false, 4 => c.n
  | false, 5 => !c.n
  | false, _ => c.n == c.v
  | true, 0 => c.v
  | true, 1 => !c.v
  | true, 2 => c.c && !c.z
  | true, 3 => !c.c || c.z
  | true, 4 => !c.z && c.n == c.v
  | true, 5 => c.z || c.n != c.v
  | true, _ => c.n != c.v

end Sys2Proof.Machine
end

