-- ==== Sys2Proof/Machine/Operands.lean ====
section
/-!
DEFINITION. Operand forms and encodings of the compact form, and the registers of a compact-form core (R371 to R374, R376 to R386).
-/
namespace Sys2Proof.Machine

/-! ### Cores and their registers -/

/-- The compact-form core with an initiator ID (R28, R369): its place in the list, and whether there is one. -/
def coreIx (ini : Nat) : Nat := if ini ≤ 4 then ini else ini - 2
def isCore (ini : Nat) : Bool := decide (ini ≤ 4) || (decide (7 ≤ ini) && decide (ini ≤ 15))
def coreOf (s : State) (ini : Nat) : Core := s.cores.getD (coreIx ini) (Core.reset 0)
def coreMod (ini : Nat) (f : Core → Core) (s : State) : State := { s with cores := modAt s.cores (coreIx ini) f }

/-- A general register (R371). -/
def gRd (c : Core) (i : Nat) : Nat := (c.g.get (Fin.ofNat 16 i)).toNat
def gWr (i v : Nat) (c : Core) : Core := { c with g := c.g.set (i % 16) (BitVec.ofNat 32 v) (Nat.mod_lt _ (by decide)) }

/-- st as a number, and its write; a link sequencer's PRIV stays 1 (R373). -/
def stWord (le ie priv : Bool) : Nat := 4 * b2n le + 2 * b2n ie + b2n priv
def stOf (c : Core) : Nat := stWord c.le c.ie c.priv
def stPut (ini x : Nat) (c : Core) : Core := { c with le := bitOf x 2 == 1, ie := bitOf x 1 == 1, priv := bitOf x 0 == 1 || decide (7 ≤ ini) }

/-- cyc of a core now (R372). -/
def coreCyc (s : State) (ini : Nat) : Nat :=
  let c := coreOf s ini
  if c.held then c.cyc0 else c.cyc0 + islandCycles s (coreIsland (coreIx ini)) (s.elapsed - c.cycAt)

/-! ### Encodings (R376, R378, R381 to R383) -/

/-- An encoding after its prefixes: the escape (0 none, 1 EXT, 2 EXT2, 3 SYS, as in emi.ESC) and the bytes from the lead byte or the map byte. -/
structure Enc where
  esc : Nat
  bytes : List Nat
  deriving DecidableEq, Repr

/-- Length of the whole encoding. -/
def encLen (h : IsaHead) (e : Enc) : Nat := h.pfx.length + (if e.esc = 0 then 0 else 1) + e.bytes.length

/-- A lead byte or a map byte: the condition and the low bits. -/
def leadByte (h : IsaHead) (low : Nat) : Nat := h.cond % 8 * 32 + low
def regByte (hi lo : Nat) : Nat := hi % 16 * 16 + lo % 16

/-- Encodings without an escape, in the EXT map by class and function, and in the SYS map. -/
def encLead (h : IsaHead) (major : Nat) (rest : List Nat) : Enc := Enc.mk 0 (leadByte h major :: rest)
def encExt (h : IsaHead) (cls fn : Nat) (rest : List Nat) : Enc := Enc.mk 1 (leadByte h (8 * cls + fn) :: rest)
def encSys (h : IsaHead) (fn : Nat) : Enc := Enc.mk 3 [leadByte h fn]

/-- A prefix by its bit in emi.PFX. -/
def hasPfx (h : IsaHead) (p : Nat) : Bool := h.pfx.contains p
def pfxMask (h : IsaHead) : Nat := (List.range 5).foldl (fun n p => n + if hasPfx h p then 2 ^ p else 0) 0

/-- Operand width in bytes under W8 and W16 (R385, R386). -/
def opBytes (h : IsaHead) : Nat := if hasPfx h 1 then 1 else if hasPfx h 2 then 2 else 4

/-! ### ALU operands (R381, R384) -/

/-- The encoding of an ALU instruction of function `fb`. -/
def aluEnc (h : IsaHead) (fb : Nat) (x : AluArg) : Enc :=
  match x.form with
  | .reg => encLead h 1 [regByte x.rd x.rs, fb]
  | .imm8 v => encLead h 2 [regByte x.rd x.rs, fb, v % 256]
  | .imm32 v => encLead h 3 ([regByte x.rd x.rs, fb] ++ leBytes 4 v)

/-- Operands a and b, cut to the width: a is rd in the register form and rs in the immediate forms; b is rs or the immediate. -/
def aluA (c : Core) (x : AluArg) : Nat := match x.form with | .reg => gRd c x.rd | _ => gRd c x.rs
def aluB (c : Core) (x : AluArg) : Nat := match x.form with | .reg => gRd c x.rs | .imm8 v => ofSigned 32 (toSigned 8 v) | .imm32 v => v % 2 ^ 32

/-! ### Addressing (R386) -/

/-- Bytes of the displacement, and its signed value. -/
def dispBytes (m : MemArg) : Nat := match m.dsz % 4 with | 0 => 0 | 1 => 1 | 2 => 2 | _ => 4
def dispVal (m : MemArg) : Int := if m.dsz % 4 = 0 then 0 else toSigned (8 * dispBytes m) m.disp

/-- The encoding of LD, LDS and ST. -/
def memEnc (h : IsaHead) (major : Nat) (m : MemArg) : Enc :=
  encLead h major ([regByte m.rd m.base, m.dsz % 4 * 64 + m.mode % 4 * 16 + m.idx % 16] ++ leBytes (dispBytes m) m.disp)

/-- An address of 32 bits. -/
def addr32 (x : Int) : Nat := ofSigned 32 x

/-- base + disp. -/
def memMoved (c : Core) (m : MemArg) : Nat := addr32 ((gRd c m.base : Int) + dispVal m)

/-- The address accessed by an access of `n` bytes. -/
def memAddr (c : Core) (n : Nat) (m : MemArg) : Nat :=
  match m.mode % 4 with
  | 2 => gRd c m.base
  | 3 => addr32 ((gRd c m.base : Int) + ((gRd c m.idx * n : Nat) : Int) + dispVal m)
  | _ => memMoved c m

/-- The base after the access. -/
def memBase (m : MemArg) (moved : Nat) (c : Core) : Core := if m.mode % 4 = 1 ∨ m.mode % 4 = 2 then gWr m.base moved c else c

/-- An index register outside mode 3 is reserved; a load in mode 1 or 2 into its own base is undefined (R386). -/
def memReserved (m : MemArg) : Bool := m.mode % 4 != 3 && m.idx % 16 != 0
def memUndefined (m : MemArg) : Bool := (m.mode % 4 == 1 || m.mode % 4 == 2) && m.rd % 16 == m.base % 16

/-! ### Reserved encodings (R380 to R383) -/

/-- Control numbers of R372; the loop registers are the supervisor's. -/
def ctlListed (num : Nat) : Bool := decide (num ≤ 0x0C) || (decide (0x10 ≤ num) && decide (num ≤ 0x18))
def ctlLoop (num : Nat) : Bool := decide (0x10 ≤ num) && decide (num ≤ 0x18)

/-- The field values of an assigned major opcode that are reserved. -/
def subReserved (major : Nat) (b : List Nat) : Bool :=
  let x := b.getD 1 0
  let y := b.getD 2 0
  if 1 ≤ major ∧ major ≤ 3 then decide (0x1B ≤ y)
  else if major = 4 then bitsOf x 5 4 == 3 || bitsOf x 7 6 != 0
  else if major = 5 then bitsOf x 7 4 != 0
  else if 6 ≤ major ∧ major ≤ 8 then bitsOf y 5 4 != 3 && y % 16 != 0
  else if major = 0x0E then bitsOf x 7 5 != 0
  else if major = 0x0F then decide (5 ≤ x)
  else if major = 0x11 then !ctlListed (y % 128)
  else if major = 0x12 then decide (3 ≤ x)
  else if major = 0x14 then decide (3 ≤ y)
  else false

/-- Length of the assigned format of a major opcode, from its bytes (R381). -/
def majorLen (major : Nat) (b : List Nat) : Nat :=
  match major with
  | 0x01 => 3
  | 0x02 => 4
  | 0x03 => 7
  | 0x04 => 4
  | 0x05 => 6
  | 0x06 => 3 + dispBytes { rd := 0, base := 0, dsz := bitsOf (b.getD 2 0) 7 6, mode := 0, idx := 0, disp := 0 }
  | 0x07 => 3 + dispBytes { rd := 0, base := 0, dsz := bitsOf (b.getD 2 0) 7 6, mode := 0, idx := 0, disp := 0 }
  | 0x08 => 3 + dispBytes { rd := 0, base := 0, dsz := bitsOf (b.getD 2 0) 7 6, mode := 0, idx := 0, disp := 0 }
  | 0x11 => 3
  | 0x14 => 3
  | _ => 2

/-- The EXT map: functions of a class that are assigned (R382). -/
def extAssigned (cls fn : Nat) (b : List Nat) : Bool :=
  (cls == 0 && decide (fn ≤ 3)) ||
  (cls == 1 && decide (fn ≤ 2) && decide (b.getD 2 0 ≤ 31) && decide (1 ≤ b.getD 3 0) && decide (b.getD 2 0 + b.getD 3 0 ≤ 32))

/-- An encoding is reserved, with the length that R380 fixes for it. -/
def encReserved (e : Enc) : Bool :=
  let b0 := e.bytes.getD 0 0
  let n := e.bytes.length
  match e.esc with
  | 0 =>
    let m := b0 % 32
    if m = 0x17 then n == 4
    else if 0x18 ≤ m then b0 / 32 != 7 && n == 1 + (m - 0x18)
    else subReserved m e.bytes && n == majorLen m e.bytes
  | 1 => n == 2 + 2 * bitsOf b0 4 3 && !extAssigned (bitsOf b0 4 3) (b0 % 8) e.bytes
  | 2 => n == 2 + 2 * bitsOf b0 4 3
  | 3 => n == 1 && decide (4 ≤ b0 % 32)
  | _ => false

end Sys2Proof.Machine
end

