-- ==== Sys2Proof/Machine/IsaOps.lean ====
section
/-!
DEFINITION. How a compact-form core runs an instruction: the fetch, the order of causes, exception entry, data accesses and completion (R370, R376 to R380, R395 to R405, R437, R438).
-/
namespace Sys2Proof.Machine

/-! ### Exceptions (R374, R398, R400) -/

/-- A cause: vector, IMM, KIND, IMPRECISE, WRITE, the data address of a bus error or Alignment, and whether epc is the next instruction. -/
structure Exc where
  vec : Nat
  imm : Nat
  kind : Nat
  imprecise : Bool
  write : Bool
  eaddr : Option Nat
  next : Bool
  deriving DecidableEq, Repr

/-- A cause with nothing beside its vector; a bus error; an Alignment exception. -/
def excOf (vec : Nat) : Exc := { vec := vec, imm := 0, kind := 0, imprecise := false, write := false, eaddr := none, next := false }
def excBus (vec kind : Nat) (write : Bool) (a : Nat) : Exc := { excOf vec with kind := kind, write := write, eaddr := some a }
def excAlign (write : Bool) (a : Nat) : Exc := { excOf 6 with write := write, eaddr := some a }

/-- ecause (R374). -/
def ecauseOf (e : Exc) : Nat := 2 ^ 21 * b2n e.write + 2 ^ 20 * b2n e.imprecise + 2 ^ 16 * (e.kind % 16) + 2 ^ 8 * (e.imm % 256) + e.vec % 256

/-- Taking an exception or an interrupt (R400). -/
def excEnter (e : Exc) (epc : Nat) (c : Core) : Core :=
  { c with est := BitVec.ofNat 32 (stOf c), epc := BitVec.ofNat 32 epc, ecause := BitVec.ofNat 32 (ecauseOf e), eaddr := match e.eaddr with | some a => BitVec.ofNat 32 a | none => c.eaddr,
           priv := true, ie := false, le := false, pc := c.vbase + BitVec.ofNat 32 (8 * e.vec), wfi := false, boundary := true }

/-- Returning (R383): st from est and pc from epc. -/
def excReturn (ini : Nat) (c : Core) : Core := { stPut ini c.est.toNat c with pc := c.epc }

/-- The oldest failed posted write is taken as a data bus error at a boundary (R403). -/
def impTake (epc : Nat) (c : Core) : Core :=
  match c.imprecise with
  | [] => c
  | w :: rest => excEnter { excBus 5 w.kind true w.addr with imprecise := true } epc { c with imprecise := rest }

/-! ### How an instruction ends -/

/-- The end of an instruction's own work: it completes without a taken branch, jumps, has made one element step of a repeat, waits for an access (which is made
again when the instruction is given again), stops its core, or raises an exception. -/
inductive IsaRes
  | next (s : State)
  | jump (target : Nat) (s : State)
  | again (s : State)
  | wait (w : BusReq) (write : Bool) (s : State)
  | stop (s : State)
  | exc (e : Exc) (s : State)

/-- Loop-back (R395): the levels whose exit is the next address, from level 2 down; the next pc. -/
def loopLevels : List Nat → Nat → Core → Core × Nat
  | [], npc, c => (c, npc)
  | n :: ns, npc, c =>
    let lc := (c.lc.get (Fin.ofNat 3 n)).toNat
    if lc = 0 ∨ (c.lend.get (Fin.ofNat 3 n)).toNat ≠ npc then loopLevels ns npc c
    else
      let c1 : Core := { c with lc := c.lc.set (n % 3) (BitVec.ofNat 32 (lc - 1)) (Nat.mod_lt _ (by decide)) }
      if lc = 1 then loopLevels ns npc c1 else (c1, (c.ls.get (Fin.ofNat 3 n)).toNat)
def loopBack (ini npc : Nat) (c : Core) : Core × Nat := if ini = 0 ∧ c.le then loopLevels [2, 1, 0] npc c else (c, npc)

/-- The boundary after an instruction: a write that failed five posted writes ago is told now (R403); a single step is over (R771). -/
def isaBoundary (pc : Nat) (c : Core) : Core :=
  let c1 : Core := { c with pc := BitVec.ofNat 32 pc, boundary := true, oneStep := false }
  if c1.imprecise.any (fun w => decide (5 ≤ w.after)) then impTake pc c1 else c1

/-- A core waits inside an instruction: no boundary (R401). -/
def isaWaits (ini : Nat) (s : State) : State := coreMod ini (fun c => { c with boundary := false }) s

/-- The waiting access alone, made on the state before the instruction: what it has left there is its place in the queue. -/
def waitState (w : BusReq) (write : Bool) (s : State) : State :=
  let r := if write then busWrite w s else busRead w false s
  match r with | (.wait, s1) => s1 | _ => s

/-- Finish an instruction of `len` bytes that started in state `pre`. -/
def isaFinish (ini len : Nat) (pre : State) (r : IsaRes) : State :=
  let pc := (coreOf pre ini).pc.toNat
  let npc := (pc + len) % 2 ^ 32
  match r with
  | .next s => coreMod ini (fun c => let (c1, p) := loopBack ini npc c; isaBoundary p c1) s
  | .jump t s => coreMod ini (isaBoundary (t % 2 ^ 32)) s
  | .again s => coreMod ini (isaBoundary pc) s
  | .wait w write _ => isaWaits ini (waitState w write pre)
  | .stop s => s
  | .exc e s =>
    coreMod ini (fun c =>
      let (c1, p) := if e.next then loopBack ini npc c else (c, pc)
      excEnter e p { c1 with oneStep := false }) s

/-! ### Data accesses (R386, R401, R403, R405) -/

/-- The core's own alias (R37). -/
def isAlias (a : Nat) : Bool := decide (0x20000000 ≤ a) && decide (a < 0x20100000)

/-- The access of a core. -/
def isaReq (h : IsaHead) (user : Bool) (a n v : Nat) : BusReq :=
  { ini := h.ini, user := user, addr := a, size := n, val := v, par := h.bad == 3 && !isAlias a }

/-- Where an access goes, for the order of accesses to one island. -/
def islandOf (s : State) (ini a : Nat) : Nat := rgnDomain (rgnOf s.isC ((globalAddr ini a).getD a))

/-- A parity error in a link sequencer's own RAM: Glety halts it (R198, R437). -/
def seqParity (s : State) (ini a n : Nat) : Option Nat := if 7 ≤ ini ∧ isAlias a then (match globalAddr ini a with | some g => badIn s g n | none => none) else none
def seqStop (ini x : Nat) (s : State) : State := sequencerFault (ini - 7) (parDetect x ini false s)

/-- A load of `n` bytes, and what follows with its value. A failed write to the same island is told first (R403). -/
def isaLoad (h : IsaHead) (a n : Nat) (s : State) (k : Nat → State → IsaRes) : IsaRes :=
  let c := coreOf s h.ini
  let w := isaReq h (!c.priv) a n 0
  if a % n ≠ 0 then .exc (excAlign false a) s
  else match c.imprecise with
    | x :: rest =>
      if islandOf s h.ini x.addr = islandOf s h.ini a then
        .exc { excBus 5 x.kind true x.addr with imprecise := true } (coreMod h.ini (fun d => { d with imprecise := rest }) s)
      else loadGo w s k
    | [] => loadGo w s k
where
  /-- The access itself. -/
  loadGo (w : BusReq) (s : State) (k : Nat → State → IsaRes) : IsaRes :=
    match seqParity s w.ini w.addr w.size with
    | some x => .stop (seqStop w.ini x s)
    | none =>
      match busRead w false s with
      | (.done v, s1) => k v s1
      | (.err kd, s1) => .exc (excBus 5 kd false w.addr) s1
      | (.wait, s1) => .wait w false s1

/-- One more posted write follows the failed ones. -/
def impCount (ini : Nat) (s : State) : State := coreMod ini (fun c => { c with imprecise := c.imprecise.map (fun w => { w with after := w.after + 1 }) }) s

/-- A posted store of `n` bytes, and what follows (R403). -/
def isaStore (h : IsaHead) (a n v : Nat) (s : State) (k : State → IsaRes) : IsaRes :=
  let w := isaReq h (!(coreOf s h.ini).priv) a n (v % 2 ^ (8 * n))
  if a % n ≠ 0 then .exc (excAlign true a) s
  else match busWrite w s with
    | (.done _, s1) => k (impCount h.ini s1)
    | (.err kd, s1) => k (postFail h.ini a kd (impCount h.ini s1))
    | (.wait, s1) => .wait w true s1

/-! ### The fetch (R370, R437, R438) -/

/-- How a fetch ends. -/
inductive FetchRes
  | ok (s : State)
  | wait (s : State)
  | stop (s : State)
  | bad (kind : Nat) (s : State)

/-- Addresses that a core fetches from (R370). -/
def fetchFrom (s : State) (a : Nat) : Bool :=
  isAlias a || (match rgnOf s.isC a with | .rom => true | .sram _ => true | .dram => true | _ => false)

/-- A fetch that waits for its row, and its end when the store could not give it (R438). -/
def refetchOf (s : State) (ini : Nat) : Option Refetch := s.flc.refetch.find? (fun r => r.ini == ini)

/-- A parity error on a fetch at a global address (R437): a backed row is reloaded; another fails with KIND 5. -/
def fetchBad (ini a x : Nat) (s : State) : FetchRes :=
  let s1 := parDetect x ini false s
  if s1.par.backed.contains (x / 128) then .wait (s1.flcW (fun f => { f with refetch := f.refetch ++ [Refetch.mk ini (x / 128) s1.elapsed none] }))
  else .bad 5 (busError ini false a 5 false s1)

/-- Fetch `n` bytes at `a` past the caches. -/
def fetchRaw (ini : Nat) (user par : Bool) (a n : Nat) (s : State) : FetchRes :=
  let w : BusReq := { ini := ini, user := user, addr := a, size := n, val := 0, par := par && !isAlias a }
  match refetchOf s ini with
  | some r =>
    if r.done = some false then .bad 5 (busError ini false a 5 false (s.flcW (fun f => { f with refetch := f.refetch.erase r }))) else .wait s
  | none =>
    let g := (globalAddr ini a).getD a
    match badIn s g n with
    | some x =>
      if 7 ≤ ini ∧ isAlias a then .stop (seqStop ini x s)
      else if (accessKind s ini user false true a n).1 = 0 ∧ w.par = false ∧ (busAsleep s w).isNone then fetchBad ini a x s
      else fetchBus w s
    | none => fetchBus w s
where
  /-- The bus access of a fetch. -/
  fetchBus (w : BusReq) (s : State) : FetchRes :=
    match busRead w true s with
    | (.done _, s1) => .ok s1
    | (.err k, s1) => .bad k s1
    | (.wait, s1) => .wait s1

/-- The lines of an application core's instruction cache: a hit, or a fill of 32 bytes; the oldest line goes when 1,024 are held (log entry 41). -/
def fetchLine (h : IsaHead) (user : Bool) (line : Nat) (s : State) : FetchRes :=
  let fill := fun (t : State) =>
    match fetchRaw h.ini user (h.bad == 1) (line * 32) 32 t with
    | .ok t1 => FetchRes.ok (coreMod h.ini (fun c => { c with icache := (if c.icache.length < 1024 then c.icache else c.icache.drop 1) ++ [line] }) t1)
    | r => r
  if (coreOf s h.ini).icache.contains line then
    if h.bad = 2 then fill (coreMod h.ini (fun c => { c with icache := c.icache.erase line }) (ev156 ((parRecord 3 (line * 32) h.ini false false s).inc Reg.SYS_PARCNT_TCM)))
    else .ok s
  else fill s
def fetchLines (h : IsaHead) (user : Bool) : List Nat → State → FetchRes
  | [], s => .ok s
  | l :: ls, s => match fetchLine h user l s with | .ok s1 => fetchLines h user ls s1 | r => r

/-- Fetch an instruction of `n` bytes at the pc. -/
def isaFetch (h : IsaHead) (n : Nat) (s : State) : FetchRes :=
  let c := coreOf s h.ini
  let a := c.pc.toNat
  let z := (a + n - 1) % 2 ^ 32
  if !s.isC ∧ (0x80000000 ≤ a ∨ 0x80000000 ≤ z) then .bad 7 (busError h.ini false a 7 false s)
  else if !(fetchFrom s a && fetchFrom s z) then .bad 2 (busError h.ini false a 2 false s)
  else if 1 ≤ h.ini ∧ h.ini ≤ 4 ∧ ¬ isAlias a ∧ 0x10000000 ≤ a then
    fetchLines h (!c.priv) ((List.range (z / 32 + 1 - a / 32)).map (· + a / 32)) s
  else match fetchRaw h.ini (!c.priv) (h.bad == 1) a n s with
    | .ok s1 => if (accessKind s h.ini (!c.priv) false true z 1).1 = 0 then .ok s1 else .bad (accessKind s h.ini (!c.priv) false true z 1).1 (busError h.ini false z (accessKind s h.ini (!c.priv) false true z 1).1 false s1)
    | r => r

/-! ### The whole instruction (R376, R379, R380, R399) -/

/-- What an instruction's encoding says of it: its bytes, the prefixes it accepts beside CSB, and whether it is undefined, privileged, or reserved. -/
structure Op where
  enc : Enc
  narrow : Bool
  nf : Bool
  rep : Bool
  undef : Bool
  sys : Bool
  reserved : Bool

/-- A plain encoding. -/
def insOf (e : Enc) : Op := { enc := e, narrow := false, nf := false, rep := false, undef := false, sys := false, reserved := false }

/-- The Undefined exception (R379). -/
def isaUndefined (h : IsaHead) (o : Op) : Bool :=
  decide (¬ h.pfx.Nodup) || (hasPfx h 1 && hasPfx h 2) || decide (12 < encLen h o.enc) || o.undef ||
    (!o.reserved && (((hasPfx h 1 || hasPfx h 2) && !o.narrow) || (hasPfx h 3 && !o.nf) || (hasPfx h 4 && !o.rep)))

/-- The Emulation exception's capture (R375, R402). -/
def emuCapture (h : IsaHead) (e : Enc) (c : Core) : Core :=
  let b := e.bytes.take 8
  { c with emb0 := BitVec.ofNat 32 (ofLeBytes (b.take 4)), emb1 := BitVec.ofNat 32 (ofLeBytes (b.drop 4)),
           emi := BitVec.ofNat 32 (2 ^ 12 * (encLen h e % 16) + 2 ^ 8 * b.length + 2 ^ 6 * (e.esc % 4) + pfxMask h) }

/-- A core issues: its domain is On and clocked, it is neither held nor halted (but for a single step), and WFI does not hold it (R383, R771). -/
def isaRuns (s : State) (ini : Nat) : Bool :=
  let c := coreOf s ini
  isCore ini && !c.held && (!c.halted || c.oneStep) && domOn s (iniDomain ini) && !s.pwr.fabDead && (!c.wfi || (!c.ie && (presented s ini).isSome))

/-- Run one instruction whose fetch has succeeded. -/
def isaBody (h : IsaHead) (o : Op) (body : Core → State → IsaRes) (s : State) : IsaRes :=
  let c := coreOf s h.ini
  if isaUndefined h o then .exc (excOf 1) s
  else if o.sys ∧ c.priv = false then .exc (excOf 3) s
  else if o.reserved then .exc (excOf 2) (coreMod h.ini (emuCapture h o.enc) s)
  else if condHolds (hasPfx h 0) h.cond c then body c s
  else .next s

/-- Run one instruction. -/
def isaRun (h : IsaHead) (o : Op) (body : Core → State → IsaRes) (s0 : State) : State :=
  let s := coreMod h.ini (fun c => { c with wfi := false }) s0
  let n := min 12 (encLen h o.enc)
  match isaFetch h n s with
  | .ok s1 => isaFinish h.ini (encLen h o.enc) s1 (isaBody h o body s1)
  | .wait s1 => isaWaits h.ini s1
  | .stop s1 => s1
  | .bad k s1 => isaFinish h.ini n s1 (.exc (excBus 4 k false (coreOf s h.ini).pc.toNat) s1)

/-- The command of an instruction: time passes, and the core runs it when it issues. -/
def isaCmd (h : IsaHead) (o : Op) (body : Core → State → IsaRes) (dt : Nat) (s : State) : Host.Outcome State Fault Refusal :=
  .next (onlyIf (isaRuns (s.pass dt) h.ini) (isaRun h o body (s.pass dt)) (s.pass dt))

/-- Change the core and complete. -/
def isaReg (h : IsaHead) (f : Core → Core) (s : State) : IsaRes := .next (coreMod h.ini f s)

end Sys2Proof.Machine
end

