-- ==== Sys2Proof/Machine/Isa.lean ====
section
/-!
DEFINITION. The instructions of the compact form (R371 to R404). Each is the operation of its row over the shared run of an instruction.
-/
namespace Sys2Proof.Machine

/-! ### ALU (R384, R385) -/

/-- An ALU function by its code: result, zero-extended from the width, and flags; NF keeps the flags. -/
def aluBody (h : IsaHead) (f : AluFn) (x : AluArg) (c : Core) (s : State) : IsaRes :=
  let w := 8 * opBytes h
  let o := f w (aluA c x % 2 ^ w) (aluB c x % 2 ^ w) c.c
  let put := fun (d : Core) => match o.res with | some r => gWr x.rd r d | none => d
  isaReg h (fun d => put (if hasPfx h 3 then d else flagsPut o d)) s
def aluCmd (fb : Nat) (f : AluFn) (h : IsaHead) (x : AluArg) (dt : Nat) (s : State) : Host.Outcome State Fault Refusal :=
  isaCmd h { insOf (aluEnc h fb x) with narrow := decide (fb < 0x10), nf := true } (aluBody h f x) dt s

/-- ADD. -/
def execAdd (h : IsaHead) (x : AluArg) (dt : Nat) (s : State) : Host.Outcome State Fault Refusal := aluCmd 0x00 aluAdd h x dt s
/-- ADC. -/
def execAdc (h : IsaHead) (x : AluArg) (dt : Nat) (s : State) : Host.Outcome State Fault Refusal := aluCmd 0x01 aluAdc h x dt s
/-- SUB. -/
def execSub (h : IsaHead) (x : AluArg) (dt : Nat) (s : State) : Host.Outcome State Fault Refusal := aluCmd 0x02 aluSub h x dt s
/-- SBC. -/
def execSbc (h : IsaHead) (x : AluArg) (dt : Nat) (s : State) : Host.Outcome State Fault Refusal := aluCmd 0x03 aluSbc h x dt s
/-- CMP. -/
def execCmp (h : IsaHead) (x : AluArg) (dt : Nat) (s : State) : Host.Outcome State Fault Refusal := aluCmd 0x04 aluCmp h x dt s
/-- AND. -/
def execAnd (h : IsaHead) (x : AluArg) (dt : Nat) (s : State) : Host.Outcome State Fault Refusal := aluCmd 0x05 aluAnd h x dt s
/-- OR. -/
def execOr (h : IsaHead) (x : AluArg) (dt : Nat) (s : State) : Host.Outcome State Fault Refusal := aluCmd 0x06 aluOr h x dt s
/-- XOR. -/
def execXor (h : IsaHead) (x : AluArg) (dt : Nat) (s : State) : Host.Outcome State Fault Refusal := aluCmd 0x07 aluXor h x dt s
/-- BIC. -/
def execBic (h : IsaHead) (x : AluArg) (dt : Nat) (s : State) : Host.Outcome State Fault Refusal := aluCmd 0x08 aluBic h x dt s
/-- TST. -/
def execTst (h : IsaHead) (x : AluArg) (dt : Nat) (s : State) : Host.Outcome State Fault Refusal := aluCmd 0x09 aluTst h x dt s
/-- MOV. -/
def execMov (h : IsaHead) (x : AluArg) (dt : Nat) (s : State) : Host.Outcome State Fault Refusal := aluCmd 0x0A aluMov h x dt s
/-- NOT. -/
def execNot (h : IsaHead) (x : AluArg) (dt : Nat) (s : State) : Host.Outcome State Fault Refusal := aluCmd 0x0B aluNot h x dt s
/-- SHL. -/
def execShl (h : IsaHead) (x : AluArg) (dt : Nat) (s : State) : Host.Outcome State Fault Refusal := aluCmd 0x0C aluShl h x dt s
/-- SHR. -/
def execShr (h : IsaHead) (x : AluArg) (dt : Nat) (s : State) : Host.Outcome State Fault Refusal := aluCmd 0x0D aluShr h x dt s
/-- SAR. -/
def execSar (h : IsaHead) (x : AluArg) (dt : Nat) (s : State) : Host.Outcome State Fault Refusal := aluCmd 0x0E aluSar h x dt s
/-- ROR. -/
def execRor (h : IsaHead) (x : AluArg) (dt : Nat) (s : State) : Host.Outcome State Fault Refusal := aluCmd 0x0F aluRor h x dt s
/-- MUL. -/
def execMul (h : IsaHead) (x : AluArg) (dt : Nat) (s : State) : Host.Outcome State Fault Refusal := aluCmd 0x10 aluMul h x dt s
/-- MULH. -/
def execMulh (h : IsaHead) (x : AluArg) (dt : Nat) (s : State) : Host.Outcome State Fault Refusal := aluCmd 0x11 aluMulh h x dt s
/-- MULHU. -/
def execMulhu (h : IsaHead) (x : AluArg) (dt : Nat) (s : State) : Host.Outcome State Fault Refusal := aluCmd 0x12 aluMulhu h x dt s
/-- DIV. -/
def execDiv (h : IsaHead) (x : AluArg) (dt : Nat) (s : State) : Host.Outcome State Fault Refusal := aluCmd 0x13 aluDiv h x dt s
/-- DIVU. -/
def execDivu (h : IsaHead) (x : AluArg) (dt : Nat) (s : State) : Host.Outcome State Fault Refusal := aluCmd 0x14 aluDivu h x dt s
/-- REM. -/
def execRem (h : IsaHead) (x : AluArg) (dt : Nat) (s : State) : Host.Outcome State Fault Refusal := aluCmd 0x15 aluRem h x dt s
/-- REMU. -/
def execRemu (h : IsaHead) (x : AluArg) (dt : Nat) (s : State) : Host.Outcome State Fault Refusal := aluCmd 0x16 aluRemu h x dt s
/-- MIN. -/
def execMin (h : IsaHead) (x : AluArg) (dt : Nat) (s : State) : Host.Outcome State Fault Refusal := aluCmd 0x17 aluMin h x dt s
/-- MAX. -/
def execMax (h : IsaHead) (x : AluArg) (dt : Nat) (s : State) : Host.Outcome State Fault Refusal := aluCmd 0x18 aluMax h x dt s
/-- MINU. -/
def execMinu (h : IsaHead) (x : AluArg) (dt : Nat) (s : State) : Host.Outcome State Fault Refusal := aluCmd 0x19 aluMinu h x dt s
/-- MAXU. -/
def execMaxu (h : IsaHead) (x : AluArg) (dt : Nat) (s : State) : Host.Outcome State Fault Refusal := aluCmd 0x1A aluMaxu h x dt s

/-! ### Moves and bit fields (R381, R382) -/

/-- UDF (R379). -/
def execUdf (h : IsaHead) (dt : Nat) (s : State) : Host.Outcome State Fault Refusal :=
  isaCmd h { insOf (encLead h 0 []) with undef := true } (fun _ t => .next t) dt s

/-- MOVI16 (R381): KIND 0 sign-extends, 1 zero-extends, 2 writes the upper half; 3 is reserved. -/
def movi16 (rd kind imm : Nat) (c : Core) : Core :=
  gWr rd (match kind % 4 with | 0 => ofSigned 32 (toSigned 16 imm) | 1 => imm % 2 ^ 16 | _ => imm % 2 ^ 16 * 2 ^ 16 + gRd c rd % 2 ^ 16) c
def execMovi16 (h : IsaHead) (rd kind imm dt : Nat) (s : State) : Host.Outcome State Fault Refusal :=
  isaCmd h { insOf (encLead h 4 ([kind % 4 * 16 + rd % 16] ++ leBytes 2 imm)) with reserved := kind % 4 == 3 } (fun _ t => isaReg h (movi16 rd kind imm) t) dt s

/-- MOVI32. -/
def execMovi32 (h : IsaHead) (rd imm dt : Nat) (s : State) : Host.Outcome State Fault Refusal :=
  isaCmd h (insOf (encLead h 5 ([rd % 16] ++ leBytes 4 imm))) (fun _ t => isaReg h (gWr rd (imm % 2 ^ 32)) t) dt s

/-- An instruction of the EXT map that computes rd from rs. -/
def extCmd (h : IsaHead) (fn rd rs : Nat) (f : Nat → Nat) (dt : Nat) (s : State) : Host.Outcome State Fault Refusal :=
  isaCmd h (insOf (encExt h 0 fn [regByte rd rs])) (fun c t => isaReg h (gWr rd (f (gRd c rs))) t) dt s
def popCount (x : Nat) : Nat := (List.range 32).foldl (fun n i => n + bitOf x i) 0
def leadZeros (x : Nat) : Nat := if x = 0 then 32 else 31 - Nat.log2 x
def bitReverse (x : Nat) : Nat := (List.range 32).foldl (fun n i => n + bitOf x i * 2 ^ (31 - i)) 0
def byteReverse (x : Nat) : Nat := ofBeBytes (leBytes 4 x)

/-- POPC. -/
def execPopc (h : IsaHead) (rd rs dt : Nat) (s : State) : Host.Outcome State Fault Refusal := extCmd h 0 rd rs popCount dt s
/-- CLZ. -/
def execClz (h : IsaHead) (rd rs dt : Nat) (s : State) : Host.Outcome State Fault Refusal := extCmd h 1 rd rs leadZeros dt s
/-- BREV. -/
def execBrev (h : IsaHead) (rd rs dt : Nat) (s : State) : Host.Outcome State Fault Refusal := extCmd h 2 rd rs bitReverse dt s
/-- BSWAP. -/
def execBswap (h : IsaHead) (rd rs dt : Nat) (s : State) : Host.Outcome State Fault Refusal := extCmd h 3 rd rs byteReverse dt s

/-- A bit-field instruction; positions and widths outside the word are reserved (R382). -/
def bfCmd (h : IsaHead) (fn rd rs pos width : Nat) (f : Core → Nat) (dt : Nat) (s : State) : Host.Outcome State Fault Refusal :=
  isaCmd h { insOf (encExt h 1 fn [regByte rd rs, pos % 256, width % 256]) with reserved := !(decide (pos % 256 ≤ 31) && decide (1 ≤ width % 256) && decide (pos % 256 + width % 256 ≤ 32)) }
    (fun c t => isaReg h (gWr rd (f c)) t) dt s
def bfGet (c : Core) (rs pos width : Nat) : Nat := gRd c rs / 2 ^ (pos % 256) % 2 ^ (width % 256)

/-- BFXU. -/
def execBfxu (h : IsaHead) (rd rs pos width dt : Nat) (s : State) : Host.Outcome State Fault Refusal := bfCmd h 0 rd rs pos width (fun c => bfGet c rs pos width) dt s
/-- BFXS. -/
def execBfxs (h : IsaHead) (rd rs pos width dt : Nat) (s : State) : Host.Outcome State Fault Refusal :=
  bfCmd h 1 rd rs pos width (fun c => ofSigned 32 (toSigned (width % 256) (bfGet c rs pos width))) dt s
/-- BFI. -/
def execBfi (h : IsaHead) (rd rs pos width dt : Nat) (s : State) : Host.Outcome State Fault Refusal :=
  bfCmd h 2 rd rs pos width (fun c => putBits (gRd c rd) (pos % 256) (width % 256) (gRd c rs)) dt s

/-! ### Loads and stores (R386, R387) -/

/-- A load: rd takes the value extended from the width, and the base moves in modes 1 and 2. -/
def loadBody (h : IsaHead) (sign : Bool) (m : MemArg) (c : Core) (s : State) : IsaRes :=
  let n := opBytes h
  isaLoad h (memAddr c n m) n s (fun v t => isaReg h (fun d => memBase m (memMoved c m) (gWr m.rd (if sign then ofSigned 32 (toSigned (8 * n) v) else v) d)) t)
def ldOp (h : IsaHead) (major : Nat) (m : MemArg) : Op := { insOf (memEnc h major m) with narrow := true, undef := memUndefined m, reserved := memReserved m }

/-- LD. -/
def execLd (h : IsaHead) (m : MemArg) (dt : Nat) (s : State) : Host.Outcome State Fault Refusal := isaCmd h (ldOp h 6 m) (loadBody h false m) dt s
/-- LDS. -/
def execLds (h : IsaHead) (m : MemArg) (dt : Nat) (s : State) : Host.Outcome State Fault Refusal := isaCmd h (ldOp h 7 m) (loadBody h true m) dt s

/-- ST. -/
def storeBody (h : IsaHead) (m : MemArg) (c : Core) (s : State) : IsaRes :=
  isaStore h (memAddr c (opBytes h) m) (opBytes h) (gRd c m.rd) s (fun t => isaReg h (memBase m (memMoved c m)) t)
def execSt (h : IsaHead) (m : MemArg) (dt : Nat) (s : State) : Host.Outcome State Fault Refusal :=
  isaCmd h { insOf (memEnc h 8 m) with narrow := true, reserved := memReserved m } (storeBody h m) dt s

/-- The registers of a mask, lowest first, and a mask that is not defined. -/
def maskRegs (mask : Nat) : List Nat := (List.range 16).filter (fun i => bitOf mask i == 1)
def maskBad (mask : Nat) : Bool := mask % 2 ^ 16 == 0 || bitOf mask 13 == 1

/-- The stores of PUSHM and the loads of POPM, upward from an address. -/
def pushGo (h : IsaHead) (k : State → IsaRes) : List (Nat × Nat) → State → IsaRes
  | [], s => k s
  | (a, v) :: l, s => isaStore h a 4 v s (pushGo h k l)
def popGo (h : IsaHead) (k : List Nat → State → IsaRes) : List Nat → List Nat → State → IsaRes
  | [], vs, s => k vs s
  | a :: l, vs, s => isaLoad h a 4 s (fun v t => popGo h k l (vs ++ [v]) t)

/-- Write values to registers in order. -/
def gWrs (rs vs : List Nat) (c : Core) : Core := (rs.zip vs).foldl (fun d p => gWr p.1 p.2 d) c

/-- PUSHM: sp is written last. -/
def pushBody (h : IsaHead) (mask : Nat) (c : Core) (s : State) : IsaRes :=
  let rs := maskRegs mask
  let sp := addr32 ((gRd c 13 : Int) - ((4 * rs.length : Nat) : Int))
  pushGo h (fun t => isaReg h (gWr 13 sp) t) ((List.range rs.length).map (fun i => ((sp + 4 * i) % 2 ^ 32, gRd c (rs.getD i 0)))) s
def execPushm (h : IsaHead) (mask dt : Nat) (s : State) : Host.Outcome State Fault Refusal :=
  isaCmd h { insOf (encLead h 9 (leBytes 2 mask)) with undef := maskBad mask } (pushBody h mask) dt s

/-- POPM: a load that fails leaves sp, and the registers loaded before it hold what the spec does not say (log entry 42). -/
def popBody (h : IsaHead) (mask : Nat) (c : Core) (s : State) : IsaRes :=
  let rs := maskRegs mask
  let sp := gRd c 13
  let done := fun (vs : List Nat) (t : State) => isaReg h (fun d => gWr 13 ((sp + 4 * rs.length) % 2 ^ 32) (gWrs rs vs d)) t
  match popGo h done ((List.range rs.length).map (fun i => (sp + 4 * i) % 2 ^ 32)) [] s with
  | .exc e t =>
    if e.vec = 5 ∧ e.imprecise = false then
      let n := addr32 ((e.eaddr.getD sp : Int) - (sp : Int)) / 4
      .exc e ((coreMod h.ini (gWrs (rs.take n) ((List.range n).map t.freeAt)) t).drawn n)
    else .exc e t
  | r => r
def execPopm (h : IsaHead) (mask dt : Nat) (s : State) : Host.Outcome State Fault Refusal :=
  isaCmd h { insOf (encLead h 10 (leBytes 2 mask)) with undef := maskBad mask } (popBody h mask) dt s

/-! ### Branches (R388) -/

/-- The address after an instruction. -/
def insNext (h : IsaHead) (e : Enc) (c : Core) : Nat := (c.pc.toNat + encLen h e) % 2 ^ 32

/-- A branch by a displacement of `n` bytes, with or without a link. -/
def brCmd (h : IsaHead) (major n disp : Nat) (link : Bool) (dt : Nat) (s : State) : Host.Outcome State Fault Refusal :=
  let e := encLead h major (leBytes n disp)
  isaCmd h (insOf e) (fun c t =>
    .jump (addr32 ((insNext h e c : Int) + toSigned (8 * n) disp)) (if link then coreMod h.ini (gWr 14 (insNext h e c)) t else t)) dt s

/-- BR8. -/
def execBr8 (h : IsaHead) (disp dt : Nat) (s : State) : Host.Outcome State Fault Refusal := brCmd h 0x0B 1 disp false dt s
/-- BR32. -/
def execBr32 (h : IsaHead) (disp dt : Nat) (s : State) : Host.Outcome State Fault Refusal := brCmd h 0x0C 4 disp false dt s
/-- BL32. -/
def execBl32 (h : IsaHead) (disp dt : Nat) (s : State) : Host.Outcome State Fault Refusal := brCmd h 0x0D 4 disp true dt s

/-- JR: the target is read before lk is written. -/
def execJr (h : IsaHead) (rs : Nat) (link : Bool) (dt : Nat) (s : State) : Host.Outcome State Fault Refusal :=
  let e := encLead h 0x0E [16 * b2n link + rs % 16]
  isaCmd h (insOf e) (fun c t => .jump (gRd c rs) (if link then coreMod h.ini (gWr 14 (insNext h e c)) t else t)) dt s

/-! ### The string group (R391 to R393) -/

/-- After an element step: without REP the instruction is over; with it g12 counts, and the repeat ends at 0 or on the early-end condition. -/
def strDone (h : IsaHead) (f : Core → Core) (early : Core → Bool) (s : State) : IsaRes :=
  if hasPfx h 4 then
    let s1 := coreMod h.ini (fun c => let d := f c; gWr 12 (gRd d 12 - 1) d) s
    let c := coreOf s1 h.ini
    if gRd c 12 = 0 ∨ early c then .next s1 else .again s1
  else isaReg h f s

/-- One instruction of the group: under REP with g12 = 0 it does nothing; REP takes the condition always. -/
def strCmd (h : IsaHead) (fn : Nat) (elem : Core → State → IsaRes) (dt : Nat) (s : State) : Host.Outcome State Fault Refusal :=
  isaCmd h { insOf (encLead h 0x0F [fn]) with narrow := true, rep := true, undef := hasPfx h 4 && h.cond % 8 != 7 }
    (fun c t => if hasPfx h 4 ∧ gRd c 12 = 0 then .next t else elem c t) dt s

/-- An address register moves past an element. -/
def gBump (i n : Nat) (c : Core) : Core := gWr i ((gRd c i + n) % 2 ^ 32) c

/-- MOVS. -/
def movsElem (h : IsaHead) (c : Core) (s : State) : IsaRes :=
  let n := opBytes h
  if gRd c 10 % n = 0 ∧ gRd c 11 % n ≠ 0 then .exc (excAlign true (gRd c 11)) s
  else isaLoad h (gRd c 10) n s (fun v t => isaStore h (gRd c 11) n v t (strDone h (fun d => gBump 11 n (gBump 10 n d)) (fun _ => false)))
def execMovs (h : IsaHead) (dt : Nat) (s : State) : Host.Outcome State Fault Refusal := strCmd h 0 (movsElem h) dt s

/-- FILS. -/
def filsElem (h : IsaHead) (c : Core) (s : State) : IsaRes :=
  isaStore h (gRd c 11) (opBytes h) (gRd c 0) s (strDone h (gBump 11 (opBytes h)) (fun _ => false))
def execFils (h : IsaHead) (dt : Nat) (s : State) : Host.Outcome State Fault Refusal := strCmd h 1 (filsElem h) dt s

/-- CMPS: ends early on Z = 0. -/
def cmpsElem (h : IsaHead) (c : Core) (s : State) : IsaRes :=
  let n := opBytes h
  if gRd c 10 % n = 0 ∧ gRd c 11 % n ≠ 0 then .exc (excAlign false (gRd c 11)) s
  else isaLoad h (gRd c 10) n s (fun x t => isaLoad h (gRd c 11) n t (fun y u =>
    strDone h (fun d => gBump 11 n (gBump 10 n (flagsPut (aluCmp (8 * n) x y false) d))) (fun d => !d.z) u))
def execCmps (h : IsaHead) (dt : Nat) (s : State) : Host.Outcome State Fault Refusal := strCmd h 2 (cmpsElem h) dt s

/-- SCNS: ends early on Z = 1. -/
def scnsElem (h : IsaHead) (c : Core) (s : State) : IsaRes :=
  let n := opBytes h
  isaLoad h (gRd c 10) n s (fun x t => strDone h (fun d => gBump 10 n (flagsPut (aluCmp (8 * n) x (gRd c 0 % 2 ^ (8 * n)) false) d)) (fun d => d.z) t)
def execScns (h : IsaHead) (dt : Nat) (s : State) : Host.Outcome State Fault Refusal := strCmd h 3 (scnsElem h) dt s

/-- CRCS. -/
def crcsElem (h : IsaHead) (c : Core) (s : State) : IsaRes :=
  let n := opBytes h
  isaLoad h (gRd c 10) n s (fun x t => strDone h (fun d => gBump 10 n (gWr 1 (crcReflected 0xEDB88320 (gRd d 1) (leBytes n x)) d)) (fun _ => false) t)
def execCrcs (h : IsaHead) (dt : Nat) (s : State) : Host.Outcome State Fault Refusal := strCmd h 4 (crcsElem h) dt s

/-! ### Loops and control registers (R372 to R375, R394) -/

/-- Set the registers of a loop level. -/
def loopSet (lvl ls le lc : Nat) (c : Core) : Core :=
  { c with ls := c.ls.set (lvl % 3) (BitVec.ofNat 32 ls) (Nat.mod_lt _ (by decide)), lend := c.lend.set (lvl % 3) (BitVec.ofNat 32 le) (Nat.mod_lt _ (by decide)),
           lc := c.lc.set (lvl % 3) (BitVec.ofNat 32 lc) (Nat.mod_lt _ (by decide)) }

/-- LOOP. -/
def execLoop (h : IsaHead) (lvl : Nat) (creg : Bool) (reg off count dt : Nat) (s : State) : Host.Outcome State Fault Refusal :=
  let e := encLead h 0x10 ([reg % 16 * 16 + 4 * b2n creg + lvl % 4] ++ leBytes 2 off ++ if creg then [] else leBytes 2 count)
  isaCmd h { insOf e with undef := lvl % 4 == 3 || off % 2 ^ 16 == 0 || h.ini != 0 } (fun c t =>
    let ls := insNext h e c
    let le := (ls + off % 2 ^ 16) % 2 ^ 32
    let lc := if creg then gRd c reg else count % 2 ^ 16
    if lc = 0 then .jump le (coreMod h.ini (loopSet lvl ls le lc) t) else isaReg h (loopSet lvl ls le lc) t) dt s

/-- A control register's value (R372). -/
def ctlRead (s : State) (ini num : Nat) : Nat :=
  let c := coreOf s ini
  let lp := fun (v : Vector Word 3) => (v.get (Fin.ofNat 3 ((num - 0x10) / 3))).toNat
  match num with
  | 0x00 => stOf c
  | 0x01 => c.vbase.toNat
  | 0x02 => c.epc.toNat
  | 0x03 => c.est.toNat
  | 0x04 => c.ecause.toNat
  | 0x05 => c.eaddr.toNat
  | 0x06 => c.emb0.toNat
  | 0x07 => c.emb1.toNat
  | 0x08 => c.emi.toNat
  | 0x09 => coreCyc s ini % 2 ^ 32
  | 0x0A => c.cych.toNat
  | 0x0B => ini % 32
  | 0x0C => flWord c
  | _ => if (num - 0x10) % 3 = 0 then lp c.ls else if (num - 0x10) % 3 = 1 then lp c.lend else lp c.lc

/-- A read of cyc latches its upper half (R372). -/
def ctlReadEff (s : State) (ini num : Nat) (c : Core) : Core := if num = 9 then { c with cych := BitVec.ofNat 32 (coreCyc s ini / 2 ^ 32) } else c

/-- A write of a control register; read-only ones ignore it (R372). -/
def ctlWrite (ini num v : Nat) (c : Core) : Core :=
  let lp := fun (w : Vector Word 3) => w.set ((num - 0x10) / 3 % 3) (BitVec.ofNat 32 v) (Nat.mod_lt _ (by decide))
  match num with
  | 0x00 => if c.priv then stPut ini v c else c
  | 0x01 => { c with vbase := BitVec.ofNat 32 (v / 2048 * 2048) }
  | 0x02 => { c with epc := BitVec.ofNat 32 v }
  | 0x03 => { c with est := BitVec.ofNat 32 v }
  | 0x04 => { c with ecause := BitVec.ofNat 32 (v % 2 ^ 22) }
  | 0x05 => { c with eaddr := BitVec.ofNat 32 v }
  | 0x0C => flPut v c
  | _ =>
    if num < 0x10 then c
    else if (num - 0x10) % 3 = 0 then { c with ls := lp c.ls } else if (num - 0x10) % 3 = 1 then { c with lend := lp c.lend } else { c with lc := lp c.lc }

/-- MOVC: DIR 0 reads the control register into rd, DIR 1 writes it from rs. -/
def movcBody (h : IsaHead) (rb : Nat) (dir : Bool) (num : Nat) (c : Core) (s : State) : IsaRes :=
  if dir then isaReg h (ctlWrite h.ini num (gRd c (rb % 16))) s
  else isaReg h (fun d => gWr (bitsOf rb 7 4) (ctlRead s h.ini num) (ctlReadEff s h.ini num d)) s
def execMovc (h : IsaHead) (rb : Nat) (dir : Bool) (num dt : Nat) (s : State) : Host.Outcome State Fault Refusal :=
  let k := num % 128
  isaCmd h { insOf (encLead h 0x11 [rb % 256, 128 * b2n dir + k]) with
      undef := ctlLoop k && h.ini != 0, sys := dir && decide (1 ≤ k) && decide (k ≤ 8), reserved := !ctlListed k } (movcBody h rb dir k) dt s

/-! ### Barriers, traps and atomics (R389, R398, R403, R404) -/

/-- BAR: it stalls while FAB holds a write of the core, and takes the bus errors of its writes. -/
def barBody (h : IsaHead) (f : Core → Core) (c : Core) (s : State) : IsaRes :=
  if s.pwr.held.any (fun w => w.ini == h.ini) then .stop (isaWaits h.ini s)
  else match c.imprecise with
    | x :: rest => .exc { excBus 5 x.kind true x.addr with imprecise := true } (coreMod h.ini (fun d => { d with imprecise := rest }) s)
    | [] => isaReg h f s
def barCmd (h : IsaHead) (fn : Nat) (f : Core → Core) (dt : Nat) (s : State) : Host.Outcome State Fault Refusal :=
  isaCmd h (insOf (encLead h 0x12 [fn])) (barBody h f) dt s

/-- BAR. -/
def execBar (h : IsaHead) (dt : Nat) (s : State) : Host.Outcome State Fault Refusal := barCmd h 0 id dt s
/-- ISB: the model holds no instruction fetched ahead, so it completes as BAR. -/
def execIsb (h : IsaHead) (dt : Nat) (s : State) : Host.Outcome State Fault Refusal := barCmd h 1 id dt s
/-- ICINV: the instruction cache of an application core is emptied; the other cores have none. -/
def execIcinv (h : IsaHead) (dt : Nat) (s : State) : Host.Outcome State Fault Refusal := barCmd h 2 (fun c => { c with icache := [] }) dt s

/-- SVC. -/
def execSvc (h : IsaHead) (imm dt : Nat) (s : State) : Host.Outcome State Fault Refusal :=
  isaCmd h (insOf (encLead h 0x13 [imm % 256])) (fun _ t => .exc { excOf 7 with imm := imm % 256, next := true } t) dt s

/-- The debug port halts an application core at BRK while DBGEN is 1 (R771). -/
def brkHalts (s : State) (ini : Nat) : Bool := decide (1 ≤ ini) && decide (ini ≤ 4) && s.on Reg.PROT_CTL_DBGEN

/-- BRK. -/
def execBrk (h : IsaHead) (imm dt : Nat) (s : State) : Host.Outcome State Fault Refusal :=
  isaCmd h (insOf (encLead h 0x16 [imm % 256])) (fun _ t =>
    if brkHalts t h.ini then .stop (coreMod h.ini (fun c => { c with halted := true, oneStep := false, boundary := true }) t) else .exc { excOf 8 with imm := imm % 256 } t) dt s

/-- NOP. -/
def execNop (h : IsaHead) (dt : Nat) (s : State) : Host.Outcome State Fault Refusal := isaCmd h (insOf (encLead h 0x15 [])) (fun _ t => .next t) dt s

/-- An address in the shared SRAM. -/
def inSram (s : State) (a : Nat) : Bool := match rgnOf s.isC a with | .sram _ => true | _ => false

/-- ATOM (R389): one read and one write of a word of the shared SRAM in one step. `f` gives the value to store, if any, and the flag it writes. -/
def atomBody (h : IsaHead) (rd base : Nat) (f : Core → Nat → Option Nat) (fl : Core → Nat → Core → Core) (c : Core) (s : State) : IsaRes :=
  let a := gRd c base
  let w := isaReq h (!c.priv) a 4 0
  let wk := accessKind s h.ini (!c.priv) true false a 4
  if a % 4 ≠ 0 then .exc (excAlign true a) s
  else if !inSram s a then .exc (excBus 5 3 false a) (busError h.ini false a 3 false s)
  else isaLoad h a 4 s (fun t u =>
    match f c t with
    | none => isaReg h (fun d => gWr rd t (fl c t d)) u
    | some v =>
      if wk.1 ≠ 0 then .exc (excBus 5 wk.1 true a) (busError h.ini true a wk.1 wk.2 u)
      else match busWrite { w with val := v } u with
        | (.wait, _) => .wait { w with val := v } true u
        | (_, u1) => isaReg h (fun d => gWr rd t (fl c t d)) u1)
def atomCmd (h : IsaHead) (fn rd base : Nat) (f : Core → Nat → Option Nat) (fl : Core → Nat → Core → Core) (dt : Nat) (s : State) : Host.Outcome State Fault Refusal :=
  isaCmd h (insOf (encLead h 0x14 [regByte rd base, fn])) (atomBody h rd base f fl) dt s

/-- SWP. -/
def execSwp (h : IsaHead) (rd base dt : Nat) (s : State) : Host.Outcome State Fault Refusal := atomCmd h 0 rd base (fun c _ => some (gRd c rd)) (fun _ _ d => d) dt s
/-- CAS. -/
def execCas (h : IsaHead) (rd base dt : Nat) (s : State) : Host.Outcome State Fault Refusal :=
  atomCmd h 1 rd base (fun c t => if t = gRd c 0 then some (gRd c rd) else none) (fun c t d => { d with z := t == gRd c 0 }) dt s
/-- XADD. -/
def execXadd (h : IsaHead) (rd base dt : Nat) (s : State) : Host.Outcome State Fault Refusal :=
  atomCmd h 2 rd base (fun c t => some ((t + gRd c rd) % 2 ^ 32)) (fun _ _ d => d) dt s

/-! ### The system map (R383) -/

/-- An instruction of the SYS map. -/
def sysCmd (h : IsaHead) (fn : Nat) (body : Core → State → IsaRes) (dt : Nat) (s : State) : Host.Outcome State Fault Refusal :=
  isaCmd h { insOf (encSys h fn) with sys := true } body dt s

/-- ERET. -/
def execEret (h : IsaHead) (dt : Nat) (s : State) : Host.Outcome State Fault Refusal :=
  sysCmd h 0 (fun c t => .jump c.epc.toNat (coreMod h.ini (excReturn h.ini) t)) dt s
/-- WFI. -/
def execWfi (h : IsaHead) (dt : Nat) (s : State) : Host.Outcome State Fault Refusal := sysCmd h 1 (fun _ t => isaReg h (fun c => { c with wfi := true }) t) dt s
/-- DI. -/
def execDi (h : IsaHead) (dt : Nat) (s : State) : Host.Outcome State Fault Refusal := sysCmd h 2 (fun _ t => isaReg h (fun c => { c with ie := false }) t) dt s
/-- EI. -/
def execEi (h : IsaHead) (dt : Nat) (s : State) : Host.Outcome State Fault Refusal := sysCmd h 3 (fun _ t => isaReg h (fun c => { c with ie := true }) t) dt s

/-- RESERVED_ENCODING (R380): a reserved encoding of the map `esc`, whatever its condition; an unassigned SYS entry after the Privilege check. -/
def execReservedEncoding (h : IsaHead) (esc : Nat) (bytes : List Nat) (dt : Nat) (s : State) : Host.Outcome State Fault Refusal :=
  if encReserved (Enc.mk esc bytes) then isaCmd h { insOf (Enc.mk esc bytes) with sys := esc == 3, reserved := true } (fun _ t => .next t) dt s
  else .next (s.pass dt)

end Sys2Proof.Machine
end

