-- ==== Sys2Proof/Machine/Bundle.lean ====
section
/-!
DEFINITION. The wide form (R406 to R424, R430 to R432): a bundle of a signal core; and the interrupts and imprecise bus errors of every processor (R401, R403, R422).
-/
namespace Sys2Proof.Machine

/-! ### Registers (R410, R411) -/

def vRd (g : SRegs) (i : Nat) : Nat := (g.v.get (Fin.ofNat 32 i)).toNat
def aRd (g : SRegs) (i : Nat) : Nat := (g.a.get (Fin.ofNat 16 i)).toNat
def pRd (g : SRegs) (i : Nat) : Bool := g.p.get (Fin.ofNat 8 i)
def vWr (i x : Nat) (g : SRegs) : SRegs := { g with v := g.v.set (i % 32) (BitVec.ofNat 64 x) (Nat.mod_lt _ (by decide)) }
def aWr (i x : Nat) (g : SRegs) : SRegs := { g with a := g.a.set (i % 16) (BitVec.ofNat 32 x) (Nat.mod_lt _ (by decide)) }

/-- p0 reads 1 and ignores writes. -/
def pWr (i : Nat) (x : Bool) (g : SRegs) : SRegs := if i % 8 = 0 then g else { g with p := g.p.set (i % 8) x (Nat.mod_lt _ (by decide)) }

def lsRd (g : SRegs) (n : Nat) : Nat := (g.ls.get (Fin.ofNat 3 n)).toNat
def leRd (g : SRegs) (n : Nat) : Nat := (g.lend.get (Fin.ofNat 3 n)).toNat
def lcRd (g : SRegs) (n : Nat) : Nat := (g.lc.get (Fin.ofNat 3 n)).toNat
def cbRd (g : SRegs) (n : Nat) : Nat := (g.cb.get (Fin.ofNat 4 n)).toNat
def clRd (g : SRegs) (n : Nat) : Nat := (g.cl.get (Fin.ofNat 4 n)).toNat

/-- A 16-bit lane and a 32-bit half, signed. -/
def lane16 (x i : Nat) : Int := toSigned 16 (bitsOf x (16 * i + 15) (16 * i))
def half32 (x i : Nat) : Int := toSigned 32 (bitsOf x (32 * i + 31) (32 * i))

/-- A result of `w` bits, saturated or wrapped (R417). -/
def fit (sat : Bool) (w : Nat) (x : Int) : Nat :=
  ofSigned w (if sat then clampInt (-((2 ^ (w - 1) : Nat) : Int)) (((2 ^ (w - 1) : Nat) : Int) - 1) x else x)

/-- The rounding shift by SH (R416, R417). -/
def shRound (sh : Nat) (x : Int) : Int :=
  let k := match sh with | 1 => 15 | 2 => 16 | _ => 0
  if k = 0 then x else (x + ((2 ^ (k - 1) : Nat) : Int)) / ((2 ^ k : Nat) : Int)

/-- Four lanes and two halves packed. -/
def packLanes (f : Nat → Nat) : Nat := f 0 + 2 ^ 16 * f 1 + 2 ^ 32 * f 2 + 2 ^ 48 * f 3
def packHalves (lo hi : Nat) : Nat := lo + 2 ^ 32 * hi

/-! ### Slots (R412, R416, R418, R419) -/

def slStop (w : Nat) : Bool := bitOf w 31 == 1
def slPred (w : Nat) : Nat := bitsOf w 30 28
def slNeg (w : Nat) : Bool := bitOf w 27 == 1
def slKind (w : Nat) : Nat := bitsOf w 26 25

/-- The predicate test (R412). -/
def slRuns (g : SRegs) (w : Nat) : Bool := pRd g (slPred w) != slNeg w

/-- Fields of an M slot. -/
def mOp (w : Nat) : Nat := bitsOf w 24 20
def mVd (w : Nat) : Nat := bitsOf w 19 15
def mVa (w : Nat) : Nat := bitsOf w 14 10
def mVb (w : Nat) : Nat := bitsOf w 9 5
def mSh (w : Nat) : Nat := bitsOf w 4 3
def mSat (w : Nat) : Bool := bitOf w 2 == 1

/-- Fields of an L slot: size of an access by OP, the signed OFF in bytes. -/
def lOp (w : Nat) : Nat := bitsOf w 24 21
def lV (w : Nat) : Nat := bitsOf w 20 16
def lAb (w : Nat) : Nat := bitsOf w 15 12
def lMode (w : Nat) : Nat := bitsOf w 11 10
def lSize (w : Nat) : Nat := match lOp w with | 0 => 8 | 1 => 8 | 4 => 2 | _ => 4
def lStep (w : Nat) : Int := toSigned 10 (bitsOf w 9 0) * ((lSize w : Nat) : Int)
def lStore (w : Nat) : Bool := lOp w == 1 || lOp w == 3

/-- Fields of a B slot. -/
def bOp (w : Nat) : Nat := bitsOf w 24 20
def bImm (w : Nat) : Nat := bitsOf w 15 0
def bAd (w : Nat) : Nat := bitsOf w 19 16
def bNum (w : Nat) : Nat := bitsOf w 6 0
def bDir (w : Nat) : Bool := bitOf w 19 == 1

/-- The control numbers of a signal core (R411), and those whose write is the system's. -/
def sigCtlListed (n : Nat) : Bool := decide (n ≤ 0x0B) || n == 0x0D || n == 0x0E || ctlLoop n || (decide (0x20 ≤ n) && decide (n ≤ 0x27))
def sigCtlSystem (n : Nat) : Bool := (decide (1 ≤ n) && decide (n ≤ 8)) || n == 0x0D || n == 0x0E

/-- A reserved slot (R414, R416, R418, R419). -/
def slReserved (g : SRegs) (w : Nat) : Bool :=
  (slPred w == 0 && slNeg w) ||
  (match slKind w with
   | 2 =>
     decide (6 ≤ lOp w) || (lOp w == 2 && decide (16 ≤ lV w)) ||
       (lMode w == 3 && (decide (4 ≤ lAb w) || decide (clRd g (lAb w) < (lStep w).natAbs) || clRd g (lAb w) % lSize w != 0))
   | 3 =>
     !([1, 2, 3, 4, 5, 6, 7, 8, 9, 10, 11, 12, 13, 16, 17, 18].contains (bOp w)) || (bOp w == 8 && decide (11 ≤ bitsOf w 3 0)) ||
       (bOp w == 9 && decide (6 ≤ bitsOf w 16 14)) || (bOp w == 11 && !sigCtlListed (bNum w))
   | _ => !([0, 1, 2, 4, 5, 6, 7, 8, 9, 10, 11, 12, 13, 16, 17, 18].contains (mOp w)) || mSh w == 3 || w % 4 != 0 || (mOp w == 18 && mVa w % 2 == 1))

/-- A register that a slot can write. -/
inductive SigReg | v (i : Nat) | a (i : Nat) | p (i : Nat) | ctl (n : Nat)
  deriving DecidableEq, Repr

/-- The registers that a slot writes, whatever its predicate (R413). -/
def slWrites (w : Nat) : List SigReg :=
  match slKind w with
  | 2 =>
    (match lOp w with | 0 => [SigReg.v (lV w)] | 2 => [SigReg.a (lV w % 16)] | 4 => [SigReg.v (lV w)] | 5 => [SigReg.v (lV w)] | _ => []) ++
      (if lMode w = 0 then [] else [SigReg.a (lAb w)])
  | 3 =>
    (match bOp w with
     | 2 => [SigReg.a 15]
     | 3 => if bitOf w 4 = 1 then [SigReg.a 15] else []
     | 5 => [SigReg.a (bAd w)]
     | 6 => [SigReg.a (bAd w)]
     | 7 => [SigReg.a (bAd w)]
     | 8 => [SigReg.a (bAd w)]
     | 9 => [SigReg.p (bitsOf w 19 17)]
     | 10 => [SigReg.p (bitsOf w 19 17)]
     | 11 => if bDir w then [SigReg.ctl (bNum w)] else [SigReg.a (bitsOf w 18 15)]
     | 12 => [SigReg.a (bAd w)]
     | 13 => [SigReg.v (bitsOf w 19 15)]
     | _ => [])
  | _ => if mOp w = 4 ∨ mOp w = 5 ∨ mOp w = 18 then [SigReg.v (mVd w), SigReg.v ((mVd w + 1) % 32)] else [SigReg.v (mVd w)]

/-- The slots of a bundle: up to the first with S = 1; none where the words do not reach it within four. -/
def bundleSlots : Nat → List Nat → List Nat
  | 0, _ => []
  | _, [] => []
  | n + 1, w :: ws => if slStop w then [w] else w :: bundleSlots n ws

/-- The whole-bundle conditions of R413; a reserved slot writes nothing that the spec names. -/
def slotsUndefined (g : SRegs) (l : List Nat) : Bool :=
  let k := l.map slKind
  let rising := (List.range (k.length - 1)).all (fun i => decide (k.getD i 0 < k.getD (i + 1) 0))
  let ws := (l.filter (fun w => !slReserved g w)).flatMap (fun w => (slWrites w).eraseDups)
  !rising || !(l.any slStop) || decide (¬ ws.Nodup) || l.any (fun w => decide (slKind w < 2) && (mOp w == 4 || mOp w == 5 || mOp w == 18) && mVd w % 2 == 1)

/-! ### Results -/

/-- A change of the registers at the end of a bundle. -/
abbrev SigWr := SRegs → SRegs

/-- An M-slot operation (R416, R417). -/
def mResult (g : SRegs) (w : Nat) : SigWr :=
  let x := vRd g (mVa w)
  let y := vRd g (mVb w)
  let d := vRd g (mVd w)
  let d1 := vRd g (mVd w + 1)
  let sat := mSat w
  let k := mVb w % 16
  let put := fun (f : Nat → Int) => vWr (mVd w) (packLanes (fun i => fit sat 16 (f i)))
  let two := fun (lo hi : Int) => vWr (mVd w) (packHalves (fit sat 32 lo) (fit sat 32 hi))
  let re := lane16 x 0 * lane16 y 0 - lane16 x 1 * lane16 y 1
  let im := lane16 x 0 * lane16 y 1 + lane16 x 1 * lane16 y 0
  let mac := fun (sg : Int) (r : SRegs) =>
    vWr (mVd w + 1) (packHalves (fit sat 32 (half32 d1 0 + sg * (lane16 x 2 * lane16 y 2))) (fit sat 32 (half32 d1 1 + sg * (lane16 x 3 * lane16 y 3))))
      (vWr (mVd w) (packHalves (fit sat 32 (half32 d 0 + sg * (lane16 x 0 * lane16 y 0))) (fit sat 32 (half32 d 1 + sg * (lane16 x 1 * lane16 y 1)))) r)
  match mOp w with
  | 0 => put (fun i => lane16 x i + lane16 y i)
  | 1 => put (fun i => lane16 x i - lane16 y i)
  | 2 => put (fun i => shRound (mSh w) (lane16 x i * lane16 y i))
  | 4 => mac 1
  | 5 => mac (-1)
  | 6 => put (fun i => if i = 0 then shRound (mSh w) re else if i = 1 then shRound (mSh w) im else 0)
  | 7 => two (half32 d 0 + re) (half32 d 1 + im)
  | 8 => two (half32 d 0 + (lane16 x 0 * lane16 y 0 + lane16 x 1 * lane16 y 1)) (half32 d 1 + (lane16 x 1 * lane16 y 0 - lane16 x 0 * lane16 y 1))
  | 9 => two (lane16 x 0 * lane16 x 0 + lane16 x 1 * lane16 x 1) (lane16 x 2 * lane16 x 2 + lane16 x 3 * lane16 x 3)
  | 10 => put (fun i => max (lane16 x i) (lane16 y i))
  | 11 => put (fun i => min (lane16 x i) (lane16 y i))
  | 12 => put (fun i => lane16 x i / ((2 ^ k : Nat) : Int))
  | 13 => put (fun i => lane16 x i * ((2 ^ k : Nat) : Int))
  | 16 => two (half32 x 0 + half32 y 0) (half32 x 1 + half32 y 1)
  | 17 => two (half32 x 0 - half32 y 0) (half32 x 1 - half32 y 1)
  | 18 =>
    let x1 := vRd g (mVa w + 1)
    put (fun i => shRound (mSh w) (match i with | 0 => half32 x 0 | 1 => half32 x 1 | 2 => half32 x1 0 | _ => half32 x1 1))
  | _ => id

/-- The address of an L slot, and a[AB] after it (R418). -/
def lAddr (g : SRegs) (w : Nat) : Nat := if lMode w ≤ 1 then addr32 ((aRd g (lAb w) : Int) + lStep w) else aRd g (lAb w)
def lBase (g : SRegs) (w : Nat) : Nat :=
  let moved := (aRd g (lAb w) : Int) + lStep w
  if lMode w = 3 then
    (if clRd g (lAb w) = 0 then aRd g (lAb w)
     else addr32 ((cbRd g (lAb w) : Int) + (moved - (cbRd g (lAb w) : Int)) % ((clRd g (lAb w) : Nat) : Int)))
  else addr32 moved
def lMove (g : SRegs) (w : Nat) : SigWr := if lMode w = 0 then id else aWr (lAb w) (lBase g w)

/-- The data of a store, and the write of a loaded value; a load of the address register that moves leaves it what the spec does not say (log entry 43). -/
def lData (g : SRegs) (w : Nat) : Nat := if lOp w = 1 then vRd g (lV w) else aRd g (lV w)
def lTake (g : SRegs) (w val fresh : Nat) : SigWr := fun r =>
  match lOp w with
  | 2 => if lMode w ≠ 0 ∧ lV w % 16 = lAb w then aWr (lAb w) fresh r else aWr (lV w) val (lMove g w r)
  | 4 => vWr (lV w) (packLanes (fun _ => val % 2 ^ 16)) (lMove g w r)
  | 5 => vWr (lV w) (val % 2 ^ 32) (lMove g w r)
  | _ => vWr (lV w) val (lMove g w r)

/-- The B-slot ALU (R419); shifts take bits 4:0 of their amount as in R385. -/
def bAlu (fn x y : Nat) : Nat :=
  match fn with
  | 0 => (x + y) % 2 ^ 32
  | 1 => (x + 2 ^ 32 - y) % 2 ^ 32
  | 2 => x &&& y
  | 3 => x ||| y
  | 4 => x ^^^ y
  | 5 => x * 2 ^ (y % 32) % 2 ^ 32
  | 6 => x / 2 ^ (y % 32)
  | 7 => ofSigned 32 (toSigned 32 x / ((2 ^ (y % 32) : Nat) : Int))
  | 8 => x * y % 2 ^ 32
  | 9 => if toSigned 32 x ≤ toSigned 32 y then x else y
  | _ => if toSigned 32 x ≤ toSigned 32 y then y else x
def bCmp (cc x y : Nat) : Bool :=
  match cc with
  | 0 => x == y
  | 1 => x != y
  | 2 => decide (toSigned 32 x < toSigned 32 y)
  | 3 => decide (toSigned 32 y ≤ toSigned 32 x)
  | 4 => decide (x < y)
  | _ => decide (y ≤ x)
def bLog (fn : Nat) (x y : Bool) : Bool := match fn with | 0 => x && y | 1 => x || y | 2 => x != y | _ => x && !y

/-- A signal core's control registers (R372, R411). -/
def sigCtlRead (s : State) (c num : Nat) : Nat :=
  let g := (sigOf s c).regs
  match num with
  | 0x00 => stWord g.le g.ie g.priv
  | 0x01 => g.vbase.toNat
  | 0x02 => g.epc.toNat
  | 0x03 => g.est.toNat
  | 0x04 => g.ecause.toNat
  | 0x05 => g.eaddr.toNat
  | 0x06 => g.emb0.toNat
  | 0x07 => g.emb1.toNat
  | 0x08 => g.emi.toNat
  | 0x09 => sigCyc s c % 2 ^ 32
  | 0x0A => g.cych.toNat
  | 0x0B => 5 + c % 2
  | 0x0D => g.emr0.toNat
  | 0x0E => g.emr1.toNat
  | _ =>
    if num < 0x20 then (let n := (num - 0x10) / 3; if (num - 0x10) % 3 = 0 then lsRd g n else if (num - 0x10) % 3 = 1 then leRd g n else lcRd g n)
    else if num < 0x24 then cbRd g (num - 0x20) else clRd g (num - 0x24)
def sigCtlWrite (num x : Nat) (g : SRegs) : SRegs :=
  let lp := fun (v : Vector Word 3) => v.set ((num - 0x10) / 3 % 3) (BitVec.ofNat 32 x) (Nat.mod_lt _ (by decide))
  let cp := fun (v : Vector Word 4) => v.set (num % 4) (BitVec.ofNat 32 x) (Nat.mod_lt _ (by decide))
  match num with
  | 0x00 => if g.priv then { g with le := bitOf x 2 == 1, ie := bitOf x 1 == 1, priv := bitOf x 0 == 1 } else g
  | 0x01 => { g with vbase := BitVec.ofNat 32 (x / 2048 * 2048) }
  | 0x02 => { g with epc := BitVec.ofNat 32 x }
  | 0x03 => { g with est := BitVec.ofNat 32 x }
  | 0x04 => { g with ecause := BitVec.ofNat 32 (x % 2 ^ 22) }
  | 0x05 => { g with eaddr := BitVec.ofNat 32 x }
  | 0x08 => { g with emi := BitVec.ofNat 32 (putBits g.emi.toNat 16 8 (bitsOf x 23 16)) }
  | 0x0D => { g with emr0 := BitVec.ofNat 32 x }
  | 0x0E => { g with emr1 := BitVec.ofNat 32 x }
  | _ =>
    if num < 0x10 then g
    else if num < 0x20 then
      (if (num - 0x10) % 3 = 0 then { g with ls := lp g.ls } else if (num - 0x10) % 3 = 1 then { g with lend := lp g.lend } else { g with lc := lp g.lc })
    else if num < 0x24 then { g with cb := cp g.cb } else { g with cl := cp g.cl }

/-- What a B slot does to the flow: nothing, a branch, the return from an exception, the re-execution of a trapped bundle, or a wait for an interrupt. -/
inductive Flow | seq | to (target : Nat) | ret | retx | wfi
  deriving DecidableEq, Repr

/-- LOOP's count, and its exit address (R420). -/
def loopCnt (g : SRegs) (w : Nat) : Nat := if bitOf w 17 = 1 then aRd g (bitsOf w 3 0) else bitsOf w 7 0
def loopEnd (npc w : Nat) : Nat := (npc + 4 * bitsOf w 16 8) % 2 ^ 32
def sigLoopSet (lvl ls le lc : Nat) (g : SRegs) : SRegs :=
  { g with ls := g.ls.set (lvl % 3) (BitVec.ofNat 32 ls) (Nat.mod_lt _ (by decide)), lend := g.lend.set (lvl % 3) (BitVec.ofNat 32 le) (Nat.mod_lt _ (by decide)),
           lc := g.lc.set (lvl % 3) (BitVec.ofNat 32 lc) (Nat.mod_lt _ (by decide)) }

/-- A B slot's result and flow (R419, R420); `npc` is the next bundle. -/
def bResult (s : State) (c : Nat) (g : SRegs) (npc w : Nat) : SigWr × Flow :=
  match bOp w with
  | 1 => (id, .to (addr32 ((npc : Int) + 4 * toSigned 16 (bImm w))))
  | 2 => (aWr 15 npc, .to (addr32 ((npc : Int) + 4 * toSigned 16 (bImm w))))
  | 3 => (if bitOf w 4 = 1 then aWr 15 npc else id, .to (aRd g (bitsOf w 3 0)))
  | 4 => (sigLoopSet (bitsOf w 19 18) npc (loopEnd npc w) (loopCnt g w), if loopCnt g w = 0 then .to (loopEnd npc w) else .seq)
  | 5 => (aWr (bAd w) (addr32 ((aRd g (bAd w) : Int) + toSigned 16 (bImm w))), .seq)
  | 6 => (aWr (bAd w) (bImm w), .seq)
  | 7 => (aWr (bAd w) (bImm w * 2 ^ 16 + aRd g (bAd w) % 2 ^ 16), .seq)
  | 8 => (aWr (bAd w) (bAlu (bitsOf w 3 0) (aRd g (bitsOf w 15 12)) (aRd g (bitsOf w 11 8))), .seq)
  | 9 => (pWr (bitsOf w 19 17) (bCmp (bitsOf w 16 14) (aRd g (bitsOf w 11 8)) (aRd g (bitsOf w 7 4))), .seq)
  | 10 => (pWr (bitsOf w 19 17) (bLog (bitsOf w 1 0) (pRd g (bitsOf w 16 14)) (pRd g (bitsOf w 13 11))), .seq)
  | 11 =>
    (if bDir w then sigCtlWrite (bNum w) (aRd g (bitsOf w 18 15))
     else fun r => aWr (bitsOf w 18 15) (sigCtlRead s c (bNum w)) (if bNum w = 9 then { r with cych := BitVec.ofNat 32 (sigCyc s c / 2 ^ 32) } else r), .seq)
  | 12 => (aWr (bAd w) (bitsOf (vRd g (bitsOf w 15 11)) (32 * bitOf w 10 + 31) (32 * bitOf w 10)), .seq)
  | 13 => (vWr (bitsOf w 19 15) (putBits (vRd g (bitsOf w 19 15)) (32 * bitOf w 10) 32 (aRd g (bitsOf w 14 11))), .seq)
  | 16 => (id, .ret)
  | 17 => (id, .retx)
  | 18 => (id, .wfi)
  | _ => (id, .seq)

/-! ### Exceptions and completion (R400, R421 to R424) -/

/-- Taking an exception or an interrupt on a signal core: vector v at vbase + 16 v. -/
def sigEnter (e : Exc) (epc st : Nat) (g : SRegs) : SRegs :=
  { g with est := BitVec.ofNat 32 st, epc := BitVec.ofNat 32 epc, ecause := BitVec.ofNat 32 (ecauseOf e), eaddr := match e.eaddr with | some a => BitVec.ofNat 32 a | none => g.eaddr,
           priv := true, ie := false, le := false, pc := g.vbase + BitVec.ofNat 32 (16 * e.vec), xret := none }
def sigStOf (g : SRegs) : Nat := stWord g.le g.ie g.priv

/-- Change the registers on a signal core. -/
def sigRegs (c : Nat) (f : SRegs → SRegs) (s : State) : State := sigMod c (fun x => { x with regs := f x.regs }) s

/-- A kernel is on the core (R430). -/
def krnOn (s : State) (c : Nat) : Bool := c == 1 && (match s.runner.run with | some r => !r.suspended | none => false)

/-- CAUSE of a kernel's fault by vector (R432). -/
def krnCause (vec : Nat) : Nat := match vec with | 1 => 1 | 2 => 2 | 3 => 7 | 6 => 4 | _ => 3

/-- A signal core takes an exception at the bundle `pc`; in a kernel it ends the kernel. -/
def sigExc (c : Nat) (e : Exc) (pc st : Nat) (s : State) : State :=
  let s1 := sigMod c (fun x => { x with wfi := false, boundary := true }) s
  if krnOn s c then krnFault (krnCause e.vec) pc s1 else sigRegs c (sigEnter e pc st) s1

/-- The oldest failed posted write of Glety's code is taken at a boundary (R403). -/
def sigImpTake (c epc : Nat) (s : State) : State :=
  match (sigOf s c).imprecise with
  | [] => s
  | w :: rest => sigExc c { excBus 5 w.kind true w.addr with imprecise := true } epc (sigStOf (sigOf s c).regs) (sigMod c (fun x => { x with imprecise := rest }) s)

/-- Loop-back (R395, R421), on the registers after the bundle's writes. -/
def sigLoops : List Nat → Nat → SRegs → SRegs × Nat
  | [], npc, g => (g, npc)
  | n :: ns, npc, g =>
    if lcRd g n = 0 ∨ leRd g n ≠ npc then sigLoops ns npc g
    else
      let g1 : SRegs := { g with lc := g.lc.set (n % 3) (BitVec.ofNat 32 (lcRd g n - 1)) (Nat.mod_lt _ (by decide)) }
      if lcRd g n = 1 then sigLoops ns npc g1 else (g1, lsRd g n)

/-- The boundary after a bundle. -/
def sigBoundary (c : Nat) (s : State) : State :=
  let s1 := sigMod c (fun x => { x with boundary := x.regs.xret.isNone }) s
  if (sigOf s1 c).imprecise.any (fun w => decide (5 ≤ w.after)) ∧ krnOn s1 c = false ∧ (sigOf s1 c).boundary then sigImpTake c (sigOf s1 c).regs.pc.toNat s1 else s1

/-- The end of a bundle: its writes `f`, then the flow; a kernel ends by JR to the runner's return address. -/
def bundleEnd (c npc pc : Nat) (f : SigWr) (fl : Flow) (s : State) : State :=
  let s1 := sigRegs c f s
  let ended : Bool := match fl, s1.runner.run with | .to t, some r => krnOn s1 c && t == r.ret.toNat | _, _ => false
  if ended then krnDone (aRd (sigOf s1 c).regs 1) s1
  else
    let go := fun (t : Nat) (g : SRegs) => { g with pc := BitVec.ofNat 32 t }
    sigBoundary c
      (match fl with
       | .to t => sigRegs c (go t) s1
       | .ret => sigRegs c (fun g => { g with le := bitOf g.est.toNat 2 == 1, ie := bitOf g.est.toNat 1 == 1, priv := bitOf g.est.toNat 0 == 1, pc := g.epc }) s1
       | .retx => sigRegs c (fun g => { g with xret := some (pc, sigStOf g), le := bitOf g.est.toNat 2 == 1, ie := bitOf g.est.toNat 1 == 1, priv := bitOf g.est.toNat 0 == 1, pc := g.epc }) s1
       | .wfi => sigMod c (fun x => { x with wfi := true }) (sigRegs c (fun g => let (g1, t) := if g.le then sigLoops [2, 1, 0] npc g else (g, npc); go t g1) s1)
       | .seq => sigRegs c (fun g => let (g1, t) := if g.le then sigLoops [2, 1, 0] npc g else (g, npc); go t g1) s1)

/-! ### ERETX (R424) -/

def emiBr (g : SRegs) : Bool := bitOf g.emi.toNat 23 == 1
def emiKind (g : SRegs) : Nat := bitsOf g.emi.toNat 22 21
def emiDest (g : SRegs) : Nat := bitsOf g.emi.toNat 20 16

/-- The result that ERETX carries, and the register it writes. -/
def xretWrite (g : SRegs) : SigWr :=
  match emiKind g with
  | 1 => vWr (emiDest g) (packHalves g.emr0.toNat g.emr1.toNat)
  | 2 => aWr (emiDest g) g.emr0.toNat
  | 3 => pWr (emiDest g) (bitOf g.emr0.toNat 0 == 1)
  | _ => id
def xretDest (g : SRegs) : Option SigReg :=
  match emiKind g with | 1 => some (.v (emiDest g)) | 2 => some (.a (emiDest g % 16)) | 3 => some (.p (emiDest g % 8)) | _ => none

/-! ### A bundle -/

/-- The core issues (R383, R422, R430): a kernel without SURPLUS issues nothing past its BUDGET. -/
def sigRuns (s : State) (c : Nat) : Bool :=
  let x := sigOf s c
  decide (c < 2) && !x.held && domOn s 4 && !s.pwr.fabDead && (!x.wfi || (!x.regs.ie && (presented s (5 + c)).isSome)) &&
    (!krnOn s c || (match s.runner.run with | some r => !krnSpent s r || krnSurplus s r.k | none => true))

/-- The fetch of a bundle (R407, R413, R431): the KIND of its bus error. -/
def bundleFetch (s : State) (c pc n : Nat) : Option Nat × State :=
  let base := 0x30000000 + 0x100000 * c
  let lo := if krnOn s c then 0x3010C000 else base
  if pc < lo ∨ base + 0x10000 < pc + 4 * n then (some 2, busError (5 + c) false pc 2 false s)
  else match badIn s pc (4 * n) with
    | some x => (some 5, busError (5 + c) false pc 5 false (parDetect x (5 + c) false s))
    | none => (none, s)

/-- The emulation capture (R423). -/
def sigCapture (l : List Nat) (g : SRegs) : SRegs :=
  let i := l.findIdx (slReserved g)
  { g with emb0 := BitVec.ofNat 32 (l.getD i 0), emb1 := BitVec.ofNat 32 (l.getD (i + 1) 0),
           emi := BitVec.ofNat 32 (2 ^ 11 * (4 * l.length) + 2 ^ 9 * i + 2 ^ 8 * b2n (decide (2 ≤ (l.filter (slReserved g)).length))) }

/-- A privileged operation of a slot that runs in user mode (R414, R419). -/
def slPrivileged (w : Nat) : Bool := slKind w == 3 && (bOp w == 16 || bOp w == 17 || bOp w == 18 || (bOp w == 11 && bDir w && sigCtlSystem (bNum w)))

/-- LOOP that is undefined (R420, R421): level 3, exit 0, or the last bundle of the body of an active level. -/
def loopUndefined (g : SRegs) (npc w : Nat) : Bool :=
  slKind w == 3 && bOp w == 4 && (bitsOf w 19 18 == 3 || bitsOf w 16 8 == 0 || (List.range 3).any (fun n => lcRd g n != 0 && leRd g n == npc))

/-- A kernel's load or store must lie in its data range (R431). -/
def krnDataOk (s : State) (c a n : Nat) : Bool := !krnOn s c || (decide (0x30170000 ≤ a) && decide (a + n ≤ 0x30180000))

/-- A signal core's own memories cross no bridge. -/
def sigOwn (c a : Nat) : Bool := decide (0x30000000 + 0x100000 * c ≤ a) && decide (a < 0x30080000 + 0x100000 * c)

/-- The bus access of the L slot. -/
def lReq (c bad : Nat) (g : SRegs) (w : Nat) : BusReq :=
  { ini := 5 + c, user := !g.priv, addr := lAddr g w, size := lSize w, val := lData g w % 2 ^ (8 * lSize w), par := bad == 1 && !sigOwn c (lAddr g w) }

/-- The access of slot 2's instruction `w` and what follows it: `fin` ends the bundle with the instruction's writes, or the exception of the access comes (R403, R410). -/
def bundleAcc (c bad pc : Nat) (g : SRegs) (w : Nat) (fin : SigWr → State → State) (s : State) : State :=
  let q := lReq c bad g w
  let st := sigStOf g
  if lStore w then
    (let cnt := fun (t : State) => sigMod c (fun y => { y with imprecise := y.imprecise.map (fun e => { e with after := e.after + 1 }) }) t
     match busWrite q s with
     | (.done _, s1) => fin (lMove g w) (cnt s1)
     | (.err k, s1) => fin (lMove g w) (postFail (5 + c) q.addr k (cnt s1))
     | (.wait, _) => sigMod c (fun y => { y with boundary := false }) (waitState q true s))
  else match (sigOf s c).imprecise.find? (fun e => islandOf s (5 + c) e.addr == islandOf s (5 + c) q.addr && !krnOn s c) with
    | some e =>
      sigExc c { excBus 5 e.kind true e.addr with imprecise := true } pc st (sigMod c (fun y => { y with imprecise := y.imprecise.erase e }) s)
    | none =>
      match busRead q false s with
      | (.done v, s1) => fin (lTake g w v (s1.freeAt 0)) (if lOp w = 2 ∧ lMode w ≠ 0 ∧ lV w % 16 = lAb w then s1.drawn 1 else s1)
      | (.err k, s1) => sigExc c (excBus 5 k false q.addr) pc st s1
      | (.wait, _) => sigMod c (fun y => { y with boundary := false }) (waitState q false s)

/-- A JR target that is no multiple of 4, but for the return of a kernel. -/
def jrBad (s : State) (c : Nat) : Option Nat → Bool
  | some a => a % 4 != 0 && !(krnOn s c && s.runner.run.any (fun r => r.ret.toNat == a))
  | none => false

/-- Run the slots of a bundle that are to take effect (R414): the access of the L slot first, then every result at the end. -/
def bundleRun (c bad npc pc : Nat) (g : SRegs) (l : List Nat) (s : State) : State :=
  let st := sigStOf g
  let live := l.filter (slRuns g)
  let (bf, fl0) := match live.find? (fun w => slKind w == 3) with | some w => bResult s c g npc w | none => (id, Flow.seq)
  let x := g.xret.isSome
  let fl := if x ∧ emiBr g then Flow.to g.emr0.toNat else fl0
  let mf : SigWr := fun r => (live.filter (fun w => decide (slKind w < 2))).foldl (fun t w => mResult g w t) r
  let fin := fun (lf : SigWr) (t : State) =>
    bundleEnd c npc pc (fun r => (if x then xretWrite g else id) (bf (lf (mf { r with xret := none })))) fl t
  let target := (live.find? (fun w => slKind w == 3 && bOp w == 3)).map (fun w => aRd g (bitsOf w 3 0))
  let jr := jrBad s c target
  let jrExc := fun (t : State) => sigExc c (excAlign false (target.getD 0)) pc st t
  match live.find? (fun w => slKind w == 2) with
  | none => if jr then jrExc s else fin id s
  | some w =>
    let q := lReq c bad g w
    if q.addr % q.size ≠ 0 then sigExc c (excAlign (lStore w) q.addr) pc st s
    else if jr then jrExc s
    else if !krnDataOk s c q.addr q.size then sigExc c (excBus 5 2 (lStore w) q.addr) pc st s
    else bundleAcc c bad pc g w fin s

/-- A bundle that has been fetched: the causes in the order of R399. -/
def bundleGo (c bad pc : Nat) (l : List Nat) (s : State) : State :=
  let g := (sigOf s c).regs
  let npc := (pc + 4 * l.length) % 2 ^ 32
  let st := sigStOf g
  let live := l.filter (slRuns g)
  let rest := l.filter (fun w => !slReserved g w)
  let branches := rest.any (fun w => slRuns g w && slKind w == 3 && (match (bResult s c g npc w).2 with | .seq => false | .wfi => false | _ => true))
  let clash : Bool := match xretDest g with | some d => rest.any (fun w => (slWrites w).contains d) | none => false
  if slotsUndefined g l ∨ (live.any (fun w => !slReserved g w && loopUndefined g npc w)) then sigExc c (excOf 1) pc st s
  else match g.xret with
    | some (xpc, xst) =>
      if (branches ∧ emiBr g) ∨ clash then sigExc c (excOf 1) xpc xst s
      else if g.priv = false ∧ live.any (fun w => !slReserved g w && slPrivileged w) then sigExc c (excOf 3) pc st s
      else bundleRun c bad npc pc g rest s
    | none =>
      if g.priv = false ∧ live.any (fun w => !slReserved g w && slPrivileged w) then sigExc c (excOf 3) pc st s
      else if l.any (slReserved g) then sigExc c (excOf 2) pc st (sigRegs c (sigCapture l) s)
      else bundleRun c bad npc pc g l s

/-- BUNDLE (R414): signal core `c` issues the bundle at its pc; the words are those that stand there. -/
def bundleOk (c : Nat) (slots : List Nat) (s : State) : Bool := sigRuns s c && ((bundleSlots 4 slots).any slStop || decide (4 ≤ slots.length))
def bundle (c : Nat) (slots : List Nat) (bad : Nat) (s0 : State) : State :=
  let l := bundleSlots 4 (slots.map (· % 2 ^ 32))
  let s := sigMod c (fun x => { x with wfi := false }) s0
  let g := (sigOf s c).regs
  let pc := g.pc.toNat
  let st := sigStOf g
  if pc % 4 ≠ 0 then sigExc c (excAlign false pc) pc st s
  else match bundleFetch s c pc l.length with
    | (some k, s1) => sigExc c (excBus 4 k false pc) pc st s1
    | (none, s1) => bundleGo c bad pc l s1
def execBundle (c : Nat) (slots : List Nat) (bad dt : Nat) (s : State) : Host.Outcome State Fault Refusal :=
  .next (onlyIf (bundleOk c slots (s.pass dt)) (bundle c slots bad (s.pass dt)) (s.pass dt))

/-! ### Interrupts and imprecise bus errors (R401, R403, R422, R563) -/

/-- A processor can take an interrupt: it runs, stands at a boundary with IE = 1, and a line is presented. -/
def intCore (s : State) (ini : Nat) : Bool :=
  let c := coreOf s ini
  isCore ini && !c.held && !c.halted && domOn s (iniDomain ini) && !s.pwr.fabDead && c.boundary && c.ie
def intSig (s : State) (c : Nat) : Bool := !(sigOf s c).held && domOn s 4 && !s.pwr.fabDead && (sigOf s c).boundary && (sigOf s c).regs.ie
def interruptEntryOk (ini : Nat) (s : State) : Bool := (presented s ini).isSome && (if ini = 5 ∨ ini = 6 then intSig s (ini - 5) else intCore s ini)

/-- INTERRUPT_ENTRY: vector 16 + l; epc is the resume point. -/
def interruptEntry (ini : Nat) (s : State) : State :=
  match presented s ini with
  | none => s
  | some l =>
    if ini = 5 ∨ ini = 6 then sigExc (ini - 5) (excOf (16 + l)) (sigOf s (ini - 5)).regs.pc.toNat (sigStOf (sigOf s (ini - 5)).regs) s
    else coreMod ini (fun c => excEnter (excOf (16 + l)) c.pc.toNat c) s
def execInterruptEntry (ini dt : Nat) (s : State) : Host.Outcome State Fault Refusal :=
  .next (onlyIf (interruptEntryOk ini (s.pass dt)) (interruptEntry ini (s.pass dt)) (s.pass dt))

/-- IMPRECISE_BUS_ERROR: a failed posted write is told at a boundary. -/
def impreciseOk (ini : Nat) (s : State) : Bool :=
  if ini = 5 ∨ ini = 6 then
    (let x := sigOf s (ini - 5); !x.held && domOn s 4 && !s.pwr.fabDead && x.boundary && !x.imprecise.isEmpty && !krnOn s (ini - 5))
  else
    (let c := coreOf s ini; isCore ini && !c.held && !c.halted && domOn s (iniDomain ini) && !s.pwr.fabDead && c.boundary && !c.imprecise.isEmpty)
def imprecise (ini : Nat) (s : State) : State :=
  if ini = 5 ∨ ini = 6 then sigImpTake (ini - 5) (sigOf s (ini - 5)).regs.pc.toNat s else coreMod ini (fun c => impTake c.pc.toNat c) s
def execImpreciseBusError (ini dt : Nat) (s : State) : Host.Outcome State Fault Refusal :=
  .next (onlyIf (impreciseOk ini (s.pass dt)) (imprecise ini (s.pass dt)) (s.pass dt))

end Sys2Proof.Machine
end

