-- ==== Sys2Proof/Machine/NetDeliver.lean ====
section
/-!
DEFINITION. Delivery of mesh payloads to their consumers (R267, R268, R359, R360).
-/
namespace Sys2Proof.Machine

/-- The mailbox that subscribes a customer PTYPE (R345, R359). -/
def subscriber (s : State) (ptype : Nat) : Option Nat := (List.range 4).find? (fun m => (mbox s m).ptypes.contains ptype)

/-- The NET_RX notices of one frame (R360): parts of at most 228 bytes; the whole frame is discarded, counted once, when any part has no room. -/
def netRx (m src dest ptype kind mseq : Nat) (data : List Nat) (s : State) : State :=
  let n := max 1 (cdiv data.length 228)
  let part := fun (i : Nat) => noticeRec 0xF010 (leBytes 2 src ++ leBytes 2 dest ++ [ptype, kind, 16 * i + (n - 1), 0] ++ leBytes 4 mseq ++ (data.drop (228 * i)).take 228)
  if 24 < mbShared (mbox s m) + n then (mbModify m (fun b => { b with lost := b.lost + 1 }) s).inc (Reg.MB_DROPCNT_NOTDROP m)
  else (List.range n).foldl (fun t i => noticeTo m (part i) t) s

/-- A CONFIG payload (the spec gives no layout: log entry 26), by its length: empty, a request for the configuration; 1, the RELAY bit; 408, INSTANT
and the object of R353; 29 or 55, key material (R534); else a group list, of this node or of a Leaf child (R266, R742). -/
def configReceive (src : Nat) (p : List Nat) (s : State) : State :=
  if p.length = 0 then
    match s.lnk.nextCfg with
    | some n => unicastSend src 0 0 5 (leBytes 8 n.instant ++ n.obj) s
    | none => unicastSend src 0 0 5 (leBytes 8 0 ++ s.netCfg) s
  else if p.length = 1 then s.wr Reg.MSH_STAT_RELAY (if isLeaf s then 0 else leAt p 0 1 % 2)
  else if p.length = 408 then
    if leAt p 10 2 = cfgN s 2 2 ∨ isCoord s then s
    else { s with lnk := { s.lnk with nextCfg := some ⟨p.drop 8, leAt p 0 8, true⟩, wantCfg := false } }
  else if p.length = 29 ∨ p.length = 55 then keymatLoad p s
  else
    let groups := (List.range (min 16 (leAt p 0 1))).map (fun i => leAt p (2 + 2 * i) 2)
    match connPeer s src with
    | some c => if c.leaf && !c.child then connSet { c with groups := groups } s else { s with msh := { s.msh with groups := groups } }
    | none => { s with msh := { s.msh with groups := groups } }

/-- The consumer of a PTYPE below 0x80 (R268). -/
def netConsume (src dest ptype mseq : Nat) (data : List Nat) (s : State) : State :=
  match ptype with
  | 1 => groupCmdReceive dest mseq data s
  | 2 => scheduleReceive data s
  | 3 => if coActive s then coStatus src data s else s
  | 4 => if coActive s then coMeter src data s else s
  | 5 => configReceive src data s
  | 6 => joinFwdReceive src data s
  | 7 => updMod (fun u => { u with inbox := u.inbox ++ [BulkIn.mk src data] }) s
  | _ => notice 0xF00A 8 (leBytes 2 src ++ data.take 238) s

/-- Deliver a payload by its PTYPE (R268): a reserved or unsubscribed PTYPE and a full delivery ring are counted. KIND 0 flood, 1 unicast (R360). -/
def netDeliver (ringFull : Bool) (src dest ptype kind mseq : Nat) (data : List Nat) (s : State) : State :=
  if ptype = 0 ∨ (9 ≤ ptype ∧ ptype < 0x80) then s.inc Reg.MSH_UNKCNT
  else if 0x80 ≤ ptype then
    match subscriber s ptype with
    | none => s.inc Reg.MSH_UNKCNT
    | some m => if ringFull then s.inc Reg.MSH_DELIVCNT else netRx m src dest ptype kind mseq data (s.inc Reg.MSH_DELIVOKCNT)
  else if ringFull then s.inc Reg.MSH_DELIVCNT
  else netConsume src dest ptype mseq data (s.inc Reg.MSH_DELIVOKCNT)

end Sys2Proof.Machine
end

