-- ==== Sys2Proof/Machine/CmdNet.lean ====
section
/-!
DEFINITION. The mailbox commands for the system, the network, the link, time and the luminaire (R345 to R350, R353, R354, R359, R731).
-/
namespace Sys2Proof.Machine

/-! ### System (R345, R346, R359) -/

/-- SYS_INFO (R345, R346). -/
def sysInfo (m : Nat) (s : State) : State :=
  shortCmd m 0 (fun r t =>
    let g := (look 4 t.upd.inst).getD Comp.factory
    mbResult m r Rc.OK ([g.ver / 256, g.ver % 256] ++ leBytes 2 g.patch ++ leBytes 4 (regWord t Reg.SYS_ID_PART.addr) ++ [b2n t.isC, b2n (isLeaf t), t.rd Reg.SYS_BOOT_GSLOT, t.rd Reg.SYS_BOOT_ASLOT] ++
      leBytes 8 t.fuses.uid ++ leBytes 4 ((t.elapsed - t.sysResetAt) / cycS 1)) t) s
def execSysInfo (m dt : Nat) (s : State) : Host.Outcome State Fault Refusal :=
  .next (onlyIf (cmdOk m 0x0100 (s.pass dt)) (sysInfo m (s.pass dt)) (s.pass dt))

/-- SYS_RESET (R346): the command is answered; the row's second occasion is the end of DELAY, when the reset is issued. -/
def sysResetCmd (m : Nat) (s : State) : State :=
  shortCmd m 2 (fun r t =>
    if 10000 < r.at_ 0 2 then mbResult m r Rc.BADPARAM [] t else { mbResult m r Rc.OK [] t with resetDue := some (t.elapsed + cycMs (r.at_ 0 2)) }) s
def sysResetDue (s : State) : Bool := match s.resetDue with | some t => decide (t ≤ s.elapsed) | none => false
def sysResetRow (m : Nat) (s : State) : State := if sysResetDue s then sysReset Reg.SYS_RSTCAUSE_SOFT s else onlyIf (cmdOk m 0x0101 s) (sysResetCmd m s) s
def execSysReset (m dt : Nat) (s : State) : Host.Outcome State Fault Refusal := .next (sysResetRow m (s.pass dt))

/-- SYS_NOTIFY (R359): bits 15 and 31 count as set whatever they read. -/
def sysNotify (m : Nat) (s : State) : State :=
  shortCmd m 4 (fun r t => mbResult m r Rc.OK (leBytes 4 (mbox t m).mask) (mbModify m (fun b => { b with mask := r.at_ 0 4 }) t)) s
def execSysNotify (m dt : Nat) (s : State) : Host.Outcome State Fault Refusal :=
  .next (onlyIf (cmdOk m 0x0102 (s.pass dt)) (sysNotify m (s.pass dt)) (s.pass dt))

/-- SYS_PTYPE (R345, R359): one mailbox subscribes a customer PTYPE. -/
def sysPtype (m : Nat) (s : State) : State :=
  shortCmd m 2 (fun r t =>
    let p := r.at_ 0 1
    if p < 0x80 ∨ 1 < r.at_ 1 1 then mbResult m r Rc.BADPARAM [] t
    else if r.at_ 1 1 = 1 ∧ (List.range 4).any (fun k => k != m && (mbox t k).ptypes.contains p) then mbResult m r Rc.NET_PTYPE [] t
    else mbResult m r Rc.OK [] (mbModify m (fun b => { b with ptypes := (b.ptypes.filter (fun x => !(x == p))) ++ (if r.at_ 1 1 = 1 then [p] else []) }) t)) s
def execSysPtype (m dt : Nat) (s : State) : Host.Outcome State Fault Refusal :=
  .next (onlyIf (cmdOk m 0x0103 (s.pass dt)) (sysPtype m (s.pass dt)) (s.pass dt))

/-! ### The network configuration (R211, R255, R353, R354) -/

/-- A value lies in a range. -/
def within (lo hi v : Nat) : Bool := decide (lo ≤ v) && decide (v ≤ hi)

/-- A bucket at an offset: RATE 0, or 1 to 1,000,000 with BURST 64 to 65,535 (R255). -/
def bucketOk (o : List Nat) (off : Nat) : Bool := leAt o off 4 == 0 || (within 1 1000000 (leAt o off 4) && within 64 65535 (leAt o (off + 4) 2))

/-- A channel plan at an offset: COUNT 1 to 128, or 0 for the regime's default plan, and no map bit at or above COUNT (R211, R214; log entry 101). -/
def planOk (o : List Nat) (off : Nat) : Bool :=
  let n := leAt o (off + 8) 1
  decide (n ≤ 128) && leAt o (off + 12) 16 / 2 ^ n == 0 && leAt o (off + 28) 16 / 2 ^ n == 0

/-- The ranges of R211 and R255 (R353). -/
def cfgRange (o : List Nat) : Bool :=
  decide (leAt o 6 1 ≤ 2) && within 1 31 (leAt o 7 1) && within 1 31 (leAt o 8 1) && within 1 15 (leAt o 10 1) && within 1 255 (leAt o 11 1) && within 10 1000 (leAt o 12 2) && within 10 3600 (leAt o 14 2) &&
  within 1 65535 (leAt o 16 2) && within 1 64 (leAt o 18 1) && within 60 86400 (leAt o 20 4) && (List.range 4).all (fun c => within 1 36000 (leAt o (24 + 2 * c) 2)) &&
  (List.range 16).all (fun q => within 64 4095 (leAt o (32 + 2 * q) 2) && within 1 255 (leAt o (64 + q) 1) && bucketOk o (80 + 8 * q)) && (List.range 4).all (fun p => bucketOk o (208 + 8 * p)) &&
  (List.range 4).all (fun k => leAt o (240 + 8 * k) 2 == 0 || (within 1 65535 (leAt o (242 + 8 * k) 2) && within 1 255 (leAt o (244 + 8 * k) 1))) && planOk o 272 && planOk o 316

/-- The window that NWIN names can be served in narrow mode (R157, R354). -/
def cfgNarrow (o : List Nat) : Bool :=
  let w := 360 + 16 * (leAt o 399 1 % 2)
  leAt o (w + 4) 1 == 0 || winZone (leAt o w 4) (64 * leAt o (w + 4) 1) != 0

/-- NET_CFG_GET (R353). -/
def netCfgGet (m : Nat) (s : State) : State :=
  shortCmd m 1 (fun r t =>
    match bufOf t m (r.at_ 0 1) with
    | none => mbResult m r Rc.BADPARAM [] t
    | some b =>
      if b.length < 400 then mbResult m r Rc.BADPARAM [] t
      else if bufHeld t m (r.at_ 0 1) then mbResult m r Rc.BUFHELD [] t
      else mbResult m r Rc.OK [] (bufPut m (r.at_ 0 1) (setBytes b 0 t.netCfg) t)) s
def execNetCfgGet (m dt : Nat) (s : State) : Host.Outcome State Fault Refusal :=
  .next (onlyIf (cmdOk m 0x0200 (s.pass dt)) (netCfgGet m (s.pass dt)) (s.pass dt))

/-- A configuration applies (R354, R359): NETSTATE with EVENT 5. -/
def cfgInForce (obj : List Nat) (s : State) : State :=
  netNotice 5 (cfgApply obj s)

/-- The refusal of NET_CFG_SET, in the order of R354; none when it starts. -/
def cfgRefusal (s : State) (buf : Option (List Nat)) (instant : Nat) : Option Nat :=
  match buf with
  | none => some Rc.BADPARAM
  | some b =>
    let d := toSigned 16 (leAt b 2 2 + 0x10000 - cfgN s 2 2)
    if b.length < 400 then some Rc.BADPARAM
    else if isJoined s && !isCoord s then some Rc.NOTREADY
    else if !cfgRange b then some Rc.NET_RANGE
    else if !cfgNarrow b then some Rc.NET_RXMODE
    else if d ≤ 0 ∨ (if isCoord s then decide (instant < s.now + 16 * biFt s) else instant != 0) then some Rc.BADPARAM
    else if isCoord s && s.lnk.nextCfg.isSome then some Rc.BUSY
    else none

/-- NET_CFG_SET (R354). -/
def netCfgSet (m : Nat) (s : State) : State :=
  longCmd m 16 (fun r t =>
    let buf := bufOf t m (r.at_ 0 1)
    let instant := r.at_ 8 8
    match cfgRefusal t buf instant with
    | some st => mbResult m r st [] t
    | none =>
      let obj := (buf.getD []).take 400
      let t1 := mbAccept m r [r.at_ 0 1] [] t
      if isCoord t then { t1 with lnk := { t1.lnk with nextCfg := some ⟨obj, instant, false⟩ } }
      else opEnd m r.tag 3 0 [] (cfgInForce obj t1)) s
def execNetCfgSet (m dt : Nat) (s : State) : Host.Outcome State Fault Refusal :=
  .next (onlyIf (cmdOk m 0x0201 (s.pass dt)) (netCfgSet m (s.pass dt)) (s.pass dt))

/-- NET_CFG_INSTANT (R217, R354): at its instant the configuration applies, and NET_CFG_SET ends DONE. -/
def netCfgInstantOk (s : State) : Bool := match s.lnk.nextCfg with | some n => decide (n.instant ≤ s.now) | none => false
def netCfgInstant (s : State) : State :=
  match s.lnk.nextCfg with
  | none => s
  | some n =>
    let s1 := cfgInForce n.obj { s with lnk := { s.lnk with nextCfg := none, wantCfg := false } }
    (List.range 4).foldl (fun t m => (mbox t m).ops.foldl (fun u o => if o.cmd = 0x0201 then opEnd m o.tag 3 0 [] u else u) t) s1
def execNetCfgInstant (dt : Nat) (s : State) : Host.Outcome State Fault Refusal :=
  .next (onlyIf (netCfgInstantOk (s.pass dt)) (netCfgInstant (s.pass dt)) (s.pass dt))

/-- NET_STATUS (R348). -/
def netStatus (m : Nat) (s : State) : State :=
  shortCmd m 0 (fun r t =>
    mbResult m r Rc.OK (leBytes 2 (t.rd Reg.LNK_PARENT_NETID) ++ leBytes 2 (ownShort t) ++ leBytes 2 (parentOf t) ++ leBytes 2 (cfgN t 2 2) ++
      [b2n (isJoined t), t.rd Reg.LNK_STAT_NCONN, t.rd Reg.RFE_STAT_REGIME, t.rd Reg.FIRN_QUAL_HOPS]) t) s
def execNetStatus (m dt : Nat) (s : State) : Host.Outcome State Fault Refusal :=
  .next (onlyIf (cmdOk m 0x0202 (s.pass dt)) (netStatus m (s.pass dt)) (s.pass dt))

/-- NET_SEND (R347). -/
def netSend (m : Nat) (s : State) : State :=
  cmdRun m (fun l => decide (8 ≤ l)) false (fun r t =>
    let dest := r.at_ 0 2
    let ptype := r.at_ 2 1
    let cls := r.at_ 3 1
    let ttl := r.at_ 4 1
    let sf := r.at_ 5 1
    let uni := bitOf sf 0 == 1
    let whole := bitOf sf 1 == 1
    let pay := if whole then bufOf t m (r.at_ 6 1) else some (r.data.drop 8)
    match pay with
    | none => mbResult m r Rc.BADPARAM [] t
    | some p =>
      if (whole && r.len != 8) || (uni && !within 1 0xEFFF dest) || decide (4 ≤ sf) || decide (ptype < 0x80) || decide (3 < cls) || decide (31 < ttl) then mbResult m r Rc.BADPARAM [] t
      else if !isJoined t then mbResult m r Rc.NOTREADY [] t
      else if meshMax < (if uni then unicastLen p.length else floodLen p.length) then mbResult m r Rc.NET_TOOLONG [] t
      else if uni then mbResult m r Rc.OK (leBytes 4 0) (if dest = ownShort t then netDeliver false dest dest ptype 1 0 p t else unicastSend dest cls ttl ptype p t)
      else
        let (q, t1) := floodOriginate dest cls (if ttl = 0 then cfgN t 7 1 else ttl) ptype p t
        mbResult m r Rc.OK (leBytes 4 q) t1) s
def execNetSend (m dt : Nat) (s : State) : Host.Outcome State Fault Refusal :=
  .next (onlyIf (cmdOk m 0x0203 (s.pass dt)) (netSend m (s.pass dt)) (s.pass dt))

/-! ### The link (R348) -/

/-- LINK_LIST: ROLE 0 for the parent, 1 for a child. -/
def linkList (m : Nat) (s : State) : State :=
  shortCmd m 1 (fun r t =>
    let l := (t.lnk.conns.drop (r.at_ 0 1)).take 29
    mbResult m r Rc.OK ([l.length, 0] ++ l.flatMap (fun c => leBytes 2 c.peer ++ [b2n (!c.child), c.slot] ++ leBytes 2 c.interval ++ [c.lqi, min 255 c.misses])) t) s
def execLinkList (m dt : Nat) (s : State) : Host.Outcome State Fault Refusal :=
  .next (onlyIf (cmdOk m 0x0300 (s.pass dt)) (linkList m (s.pass dt)) (s.pass dt))

/-- LINK_DROP: reason LOCAL. -/
def linkDrop (m : Nat) (s : State) : State :=
  shortCmd m 2 (fun r t => match connPeer t (r.at_ 0 2) with | some c => mbResult m r Rc.OK [] (connDrop c.id 6 t) | none => mbResult m r Rc.BADPARAM [] t) s
def execLinkDrop (m dt : Nat) (s : State) : Host.Outcome State Fault Refusal :=
  .next (onlyIf (cmdOk m 0x0301 (s.pass dt)) (linkDrop m (s.pass dt)) (s.pass dt))

/-- LINK_WAKE: a Leaf child with a live connection. -/
def linkWake (m : Nat) (s : State) : State :=
  longCmd m 2 (fun r t =>
    match t.lnk.conns.find? (fun c => c.peer == r.at_ 0 2 && !c.child && c.leaf) with
    | none => mbResult m r Rc.BADPARAM [] t
    | some c =>
      if (wakeCarrier t).isNone then mbResult m r Rc.NOTREADY [] t
      else if t.lnk.wake.isSome then mbResult m r Rc.BUSY [] t
      else
        let t1 := mbAccept m r [0] [] t
        { t1 with lnk := { t1.lnk with wake := some ⟨c.id, 9, t.elapsed, some (m, r.tag)⟩ } }) s
def execLinkWake (m dt : Nat) (s : State) : Host.Outcome State Fault Refusal :=
  .next (onlyIf (cmdOk m 0x0302 (s.pass dt)) (linkWake m (s.pass dt)) (s.pass dt))

/-! ### Time (R349) -/

/-- TIME_GET. -/
def timeGet (m : Nat) (s : State) : State :=
  shortCmd m 0 (fun r t =>
    mbResult m r Rc.OK (leBytes 8 t.now ++ leBytes 2 (errBound t) ++ [t.rd Reg.FIRN_STAT_STATE, t.rd Reg.FIRN_QUAL_HOPS] ++ leBytes 2 (ofSigned 16 t.firn.utcOff) ++ [t.firn.leap % 4, 0] ++ leBytes 4 (refAcc t)) t) s
def execTimeGet (m dt : Nat) (s : State) : Host.Outcome State Fault Refusal :=
  .next (onlyIf (cmdOk m 0x0400 (s.pass dt)) (timeGet m (s.pass dt)) (s.pass dt))

/-- Capture unit 0 takes the pulse's pin, rising edges, or is given up. -/
def capPps (on : Bool) (pin : Nat) (s : State) : State :=
  let s1 := ((s.wr (Reg.FIRN_CAP_CTL_EN 0) (b2n on)).wr (Reg.FIRN_CAP_CTL_EDGE 0) 0).wr (Reg.FIRN_CAP_CTL_SRC 0) pin
  s1.commitFields (capSFields 0)

/-- Give up or take a source (R74, R75). -/
def timeSourceSet (src pin acc sec : Nat) (s : State) : State :=
  if src = 1 then capPps true pin { s with firn := { s.firn with source := .pps, ppsPin := pin, ppsSec := sec, ppsAcc := acc, refacc := refAcc s, refAt := s.elapsed, pulseLost := false, lastPulse := none } }
  else match s.firn.source with
    | .pps =>
      let t := s.firn.lastPulse.getD s.firn.refAt
      capPps false 0 { s with firn := { s.firn with source := if s.firn.refacc = 0xFFFFFFFF then .freeRun else .set, refAt := t, pulseLost := false } }
    | _ => s

/-- TIME_SOURCE. -/
def timeSource (m : Nat) (s : State) : State :=
  shortCmd m 12 (fun r t =>
    if 1 < r.at_ 0 1 ∨ (r.at_ 0 1 = 0 ∧ r.at_ 2 2 ≠ 0) ∨ (r.at_ 0 1 = 1 ∧ 31 < r.at_ 1 1) then mbResult m r Rc.BADPARAM [] t
    else if !isRoot t then mbResult m r Rc.NOTREADY [] t
    else mbResult m r Rc.OK [] (timeSourceSet (r.at_ 0 1) (r.at_ 1 1) (r.at_ 2 2) (r.at_ 4 8) t)) s
def execTimeSource (m dt : Nat) (s : State) : Host.Outcome State Fault Refusal :=
  .next (onlyIf (cmdOk m 0x0401 (s.pass dt)) (timeSource m (s.pass dt)) (s.pass dt))

/-- Seconds of UTC since 2000, and the month of a second: 12 * year + month. -/
def utcSec (s : State) : Nat := ((s.now / ftS 1 : Int) - s.firn.utcOff).toNat
def monthNo (day : Nat) : Nat → Nat → Nat
  | 0, y => y * 12
  | k + 1, y =>
    let len := if rtcLeap y then 366 else 365
    if len ≤ day then monthNo (day - len) k (y + 1)
    else y * 12 + ((List.range 12).filter (fun m => decide (rtcMonthStart y (m + 1) ≤ day))).length - 1
def utcMonth (sec : Nat) : Nat := monthNo (sec / 86400) 600 0

/-- What TIME_SET does by the bits of WHAT (R349, R60, R75). -/
def timeSetDo (what utcoff acc t : Nat) (s : State) : State :=
  let s1 := if bitOf what 0 = 1 then firnStep ((t : Int) - (s.now : Int)) { s with firn := { s.firn with source := .set, refacc := acc, refAt := s.elapsed } } else s
  let s2 : State := if bitOf what 1 = 1 then { s1 with firn := { s1.firn with utcOff := toSigned 16 utcoff } } else s1
  let leap := if bitOf what 4 = 1 then bitsOf what 3 2 else s2.firn.leap ||| bitsOf what 3 2
  { s2 with firn := { s2.firn with leap := leap, leapMonth := if bitOf leap 0 = 1 then some (utcMonth (utcSec s2)) else none } }

/-- TIME_SET. -/
def timeSet (m : Nat) (s : State) : State :=
  shortCmd m 16 (fun r t =>
    if 32 ≤ r.at_ 0 1 then mbResult m r Rc.BADPARAM [] t
    else if !isRoot t then mbResult m r Rc.NOTREADY [] t
    else mbResult m r Rc.OK [] (timeSetDo (r.at_ 0 1) (r.at_ 2 2) (r.at_ 4 4) (r.at_ 8 8) t)) s
def execTimeSet (m dt : Nat) (s : State) : Host.Outcome State Fault Refusal :=
  .next (onlyIf (cmdOk m 0x0402 (s.pass dt)) (timeSet m (s.pass dt)) (s.pass dt))

/-- LEAP_SECOND (R349): the UTC month for which LEAP is set has ended. -/
def leapSecondOk (s : State) : Bool :=
  isRoot s && bitOf s.firn.leap 0 == 1 && (match s.firn.leapMonth with | some k => utcMonth (utcSec s) != k | none => utcMonth (utcSec s) != utcMonth (utcSec s - 1))
def leapSecond (s : State) : State :=
  { s with firn := { s.firn with utcOff := s.firn.utcOff + (if bitOf s.firn.leap 1 = 1 then -1 else 1), leap := 0, leapMonth := none } }
def execLeapSecond (dt : Nat) (s : State) : Host.Outcome State Fault Refusal :=
  .next (onlyIf (leapSecondOk (s.pass dt)) (leapSecond (s.pass dt)) (s.pass dt))

/-! ### The luminaire (R350, R731, R739) -/

/-- LUM_LEVEL (R350): the tag of the action is a free value. -/
def lumLevel (m : Nat) (s : State) : State :=
  shortCmd m 16 (fun r t =>
    if 1000 < r.at_ 0 2 then mbResult m r Rc.BADPARAM [] t
    else
      let tag := t.free % 65536
      let t1 := mbResult m r Rc.OK (leBytes 2 tag) (t.drawn 1)
      if lumOn t1 then lumCommand { src := 3, group := 0, tag := tag, t := r.at_ 8 8, level := r.at_ 0 2, fade := r.at_ 2 2, order := 0, cmp := none } t1 else t1) s
def execLumLevel (m dt : Nat) (s : State) : Host.Outcome State Fault Refusal :=
  .next (onlyIf (cmdOk m 0x0500 (s.pass dt)) (lumLevel m (s.pass dt)) (s.pass dt))

/-- LUM_STATUS (R739). -/
def lumStatusCmd (m : Nat) (s : State) : State := shortCmd m 0 (fun r t => mbResult m r Rc.OK (lumStatus t) t) s
def execLumStatus (m dt : Nat) (s : State) : Host.Outcome State Fault Refusal :=
  .next (onlyIf (cmdOk m 0x0501 (s.pass dt)) (lumStatusCmd m (s.pass dt)) (s.pass dt))

/-- LUM_SCHED (R731). -/
def lumSched (m : Nat) (s : State) : State :=
  longCmd m 1 (fun r t =>
    match bufOf t m (r.at_ 0 1) with
    | none => mbResult m r Rc.BADPARAM [] t
    | some b =>
      if !schedOk b then mbResult m r Rc.BADPARAM [] t
      else if t.on Reg.FLC_STAT_RO then mbResult m r Rc.STORE_RO [] t
      else opEnd m r.tag 3 0 [] (lumStore b (mbAccept m r [r.at_ 0 1] [] t))) s
def execLumSched (m dt : Nat) (s : State) : Host.Outcome State Fault Refusal :=
  .next (onlyIf (cmdOk m 0x0502 (s.pass dt)) (lumSched m (s.pass dt)) (s.pass dt))

/-- LUM_FAILSAFE (R600, R729): the level in BKP_SET5; outputs at the failsafe level follow it. -/
def lumFailsafe (m : Nat) (s : State) : State :=
  shortCmd m 2 (fun r t =>
    if 1000 < r.at_ 0 2 then mbResult m r Rc.BADPARAM [] t
    else
      let t1 := mbResult m r Rc.OK [] (t.wr Reg.BKP_SET5 (r.at_ 0 2))
      if lumOn t1 && t1.lum.failsafe then lumWrite false true (lumTarget t1) t1 else t1) s
def execLumFailsafe (m dt : Nat) (s : State) : Host.Outcome State Fault Refusal :=
  .next (onlyIf (cmdOk m 0x0503 (s.pass dt)) (lumFailsafe m (s.pass dt)) (s.pass dt))

end Sys2Proof.Machine
end

