-- ==== Sys2Proof/Machine/CmdSvc.lean ====
section
/-!
DEFINITION. The mailbox commands for the coordinator, the pair, the store, tables, health and field update (R351, R352, R355 to R358, R476, R477, R502, R662, R664, R668, R681, R701 to R715, R740 to R744, R781, R782).
-/
namespace Sys2Proof.Machine

/-! ### Coordinator (R351, R740 to R744) -/

/-- Commands of LM7440-C answer VARIANT on LM7440-N (R350). -/
def onC (m : Nat) (r : MbReq) (body : State → State) (s : State) : State := if s.isC then body s else mbResult m r Rc.VARIANT [] s

/-- A group address (R267). -/
def groupOk (g : Nat) : Bool := within 0xF000 0xFFFE g

/-- CO_GROUPCMD (R351). -/
def coGroupcmd (m : Nat) (s : State) : State :=
  longCmd m 16 (fun r => onC m r (fun t =>
    if !groupOk (r.at_ 0 2) ∨ 1000 < r.at_ 2 2 ∨ r.at_ 8 8 < t.now + ftS 2 then mbResult m r Rc.BADPARAM [] t
    else if !coActive t then mbResult m r Rc.NOTREADY [] t
    else coGroupStart m r.tag (r.at_ 0 2) (r.at_ 2 2) (r.at_ 4 2) (r.at_ 6 2) (r.at_ 8 8) (mbAccept m r [0] [] t))) s
def execCoGroupcmd (m dt : Nat) (s : State) : Host.Outcome State Fault Refusal :=
  .next (onlyIf (cmdOk m 0x0600 (s.pass dt)) (coGroupcmd m (s.pass dt)) (s.pass dt))

/-- CO_NODES (R742). -/
def coNodesCmd (m : Nat) (s : State) : State := shortCmd m 2 (fun r => onC m r (fun t => mbResult m r Rc.OK (coNodesResult t (r.at_ 0 2)) t)) s
def execCoNodes (m dt : Nat) (s : State) : Host.Outcome State Fault Refusal :=
  .next (onlyIf (cmdOk m 0x0601 (s.pass dt)) (coNodesCmd m (s.pass dt)) (s.pass dt))

/-- CO_NODE (R742). -/
def coNodeCmd (m : Nat) (s : State) : State :=
  shortCmd m 2 (fun r => onC m r (fun t => match coNode t (r.at_ 0 2) with | some n => mbResult m r Rc.OK (coNodeResult t n) t | none => mbResult m r Rc.BADPARAM [] t)) s
def execCoNode (m dt : Nat) (s : State) : Host.Outcome State Fault Refusal :=
  .next (onlyIf (cmdOk m 0x0602 (s.pass dt)) (coNodeCmd m (s.pass dt)) (s.pass dt))

/-- CO_GROUPS (R742): N groups of 2 bytes each. -/
def coGroupsCmd (m : Nat) (s : State) : State :=
  let n := (mbReq s m).at_ 2 1
  cmdRun m (fun l => decide (4 ≤ l) && l == 4 + 2 * n) false (fun r => onC m r (fun t =>
    let gs := (List.range n).map (fun i => r.at_ (4 + 2 * i) 2)
    if 16 < n ∨ (coNode t (r.at_ 0 2)).isNone ∨ !gs.all groupOk then mbResult m r Rc.BADPARAM [] t
    else mbResult m r Rc.OK [] (coGroups (r.at_ 0 2) gs t))) s
def execCoGroups (m dt : Nat) (s : State) : Host.Outcome State Fault Refusal :=
  .next (onlyIf (cmdOk m 0x0603 (s.pass dt)) (coGroupsCmd m (s.pass dt)) (s.pass dt))

/-- CO_ADMIT (R740): the list holds 60,000 long identities. -/
def coAdmitCmd (m : Nat) (s : State) : State :=
  shortCmd m 9 (fun r => onC m r (fun t =>
    if r.at_ 8 1 = 1 ∧ 60000 ≤ t.co.admitted.length ∧ ¬ t.co.admitted.contains (r.at_ 0 8) then mbResult m r Rc.NOSPACE [] t
    else mbResult m r Rc.OK [] (coAdmit (r.at_ 0 8) (r.at_ 8 1 != 0) t))) s
def execCoAdmit (m dt : Nat) (s : State) : Host.Outcome State Fault Refusal :=
  .next (onlyIf (cmdOk m 0x0604 (s.pass dt)) (coAdmitCmd m (s.pass dt)) (s.pass dt))

/-- CO_DISPATCH (R744). -/
def coDispatchCmd (m : Nat) (s : State) : State :=
  longCmd m 3 (fun r => onC m r (fun t =>
    match bufOf t m (r.at_ 2 1) with
    | none => mbResult m r Rc.BADPARAM [] t
    | some b =>
      if !schedOk b ∨ !groupOk (r.at_ 0 2) then mbResult m r Rc.BADPARAM [] t
      else coDispatchStart m r.tag (r.at_ 0 2) (b.take (schedLen b)) (mbAccept m r [r.at_ 2 1] [] t))) s
def execCoDispatch (m dt : Nat) (s : State) : Host.Outcome State Fault Refusal :=
  .next (onlyIf (cmdOk m 0x0605 (s.pass dt)) (coDispatchCmd m (s.pass dt)) (s.pass dt))

/-! ### Pair (R668, R681, R682) -/

/-- PAIR_STATUS (R682). -/
def pairStatusCmd (m : Nat) (s : State) : State := shortCmd m 0 (fun r => onC m r (fun t => mbResult m r Rc.OK (pairStatus t) t)) s
def execPairStatus (m dt : Nat) (s : State) : Host.Outcome State Fault Refusal :=
  .next (onlyIf (cmdOk m 0x0A00 (s.pass dt)) (pairStatusCmd m (s.pass dt)) (s.pass dt))

/-- PAIR_CONFIG (R668). -/
def pairConfigCmd (m : Nat) (s : State) : State :=
  shortCmd m 1 (fun r => onC m r (fun t =>
    match bufOf t m (r.at_ 0 1) with
    | none => mbResult m r Rc.BADPARAM [] t
    | some b =>
      if !pairCfgOk b then mbResult m r Rc.BADPARAM [] t
      else if mirRole t = 1 ∨ mirRole t = 2 then mbResult m r Rc.NOTREADY [] t
      else mbResult m r Rc.OK [] (mirMod (fun x => { x with cfg := b.take (16 + 8 * leAt b 7 1) }) t))) s
def execPairConfig (m dt : Nat) (s : State) : Host.Outcome State Fault Refusal :=
  .next (onlyIf (cmdOk m 0x0A01 (s.pass dt)) (pairConfigCmd m (s.pass dt)) (s.pass dt))

/-- PAIR_SWITCH (R681). -/
def pairSwitchCmd (m : Nat) (s : State) : State :=
  longCmd m 8 (fun r => onC m r (fun t =>
    if r.at_ 0 8 < t.now + ftS 1 ∨ t.now + ftS 3600 < r.at_ 0 8 then mbResult m r Rc.BADPARAM [] t
    else if !(mirRole t == 1 || mirRole t == 2) then mbResult m r Rc.NOTREADY [] t
    else if t.mir.switch.isSome then mbResult m r Rc.BUSY [] t
    else switchArm (r.at_ 0 8) (some (m, r.tag)) (mbAccept m r [0] [] t))) s
def execPairSwitch (m dt : Nat) (s : State) : Host.Outcome State Fault Refusal :=
  .next (onlyIf (cmdOk m 0x0A02 (s.pass dt)) (pairSwitchCmd m (s.pass dt)) (s.pass dt))

/-! ### Store (R476, R477, R502) -/

/-- STORE_INFO (R476). -/
def storeInfo (m : Nat) (s : State) : State :=
  shortCmd m 0 (fun r t =>
    mbResult m r Rc.OK (leBytes 2 (1632 - (t.flc.parts.map (fun p => p.nblk)).sum) ++ [t.flc.pool.length, t.flc.moraine.length, t.rd Reg.FLC_STAT_RO, ((List.range 12).filter (fun k => partKind t k != 0)).length]) t) s
def execStoreInfo (m dt : Nat) (s : State) : Host.Outcome State Fault Refusal :=
  .next (onlyIf (cmdOk m 0x0700 (s.pass dt)) (storeInfo m (s.pass dt)) (s.pass dt))

/-- A partition record (R476). -/
def partRecord (s : State) (k : Nat) : List Nat :=
  let p := partOf s k
  let ls := (List.range p.nblk).map (· + p.first)
  let maxE := ls.foldl (fun n l => max n ((look (physOf s l) s.flc.erases).getD 0)) 0
  [k, partKind s k, p.access, 0] ++ leBytes 2 p.first ++ leBytes 2 p.nblk ++ leBytes 4 maxE ++ leBytes 2 (s.flc.replaced.filter (fun l => decide (p.first ≤ l) && decide (l < p.first + p.nblk))).length ++ [0, 0]

/-- STORE_PART (R476). -/
def storePart (m : Nat) (s : State) : State :=
  shortCmd m 1 (fun r t => if 11 < r.at_ 0 1 then mbResult m r Rc.BADPARAM [] t else mbResult m r Rc.OK (partRecord t (r.at_ 0 1)) t) s
def execStorePart (m dt : Nat) (s : State) : Host.Outcome State Fault Refusal :=
  .next (onlyIf (cmdOk m 0x0701 (s.pass dt)) (storePart m (s.pass dt)) (s.pass dt))

/-- The partitions that an object of STORE_PARTSET lays out (R477). -/
def partsOf (b : List Nat) : Nat → Nat → Nat → List Part
  | 0, _, _ => []
  | k + 1, i, first => let n := leAt b (4 + 4 * i) 2; ⟨first, n, leAt b (6 + 4 * i) 1⟩ :: partsOf b k (i + 1) (first + n)

/-- Partitions, by index, that differ between two layouts, and the blocks that they cover in either. -/
def partsChanged (old new : List Part) : List Nat := (List.range 8).filter (fun i => (old[i]?).map (fun p => (p.first, p.nblk)) != (new[i]?).map (fun p => (p.first, p.nblk)))
def partBlocks (l : List Part) (ks : List Nat) : List Nat := ks.flatMap (fun i => match l[i]? with | some p => (List.range p.nblk).map (· + p.first) | none => [])

/-- Put a new layout in force: changed blocks are erased, customer descriptors that name a changed partition are cleared. -/
def partsSet (new : List Part) (s : State) : State :=
  let ch := partsChanged s.flc.parts new
  let blocks := (partBlocks s.flc.parts ch ++ partBlocks new ch).eraseDups
  let s1 := blocks.foldl (fun t l => blockErase (physOf t l) t) s
  let s2 := (List.range 8).foldl (fun t i => let n := i + 8; if t.on (Reg.FLC_XO_EN n) && ch.contains (t.rd (Reg.FLC_XO_PART n) - 4) && decide (4 ≤ t.rd (Reg.FLC_XO_PART n)) then t.clr (Reg.FLC_XO_EN n) else t) s1
  s2.flcW (fun f => { f with parts := new })

/-- STORE_PARTSET (R477). -/
def storePartset (m : Nat) (s : State) : State :=
  longCmd m 1 (fun r t =>
    match bufOf t m (r.at_ 0 1) with
    | none => mbResult m r Rc.BADPARAM [] t
    | some b =>
      let n := leAt b 0 1
      let new := partsOf b n 0 288
      let locked := fun (k : Nat) => (List.range 8).any (fun i => t.on (Reg.FLC_XO_LOCK (i + 8)) && t.on (Reg.FLC_XO_EN (i + 8)) && t.rd (Reg.FLC_XO_PART (i + 8)) == k + 4)
      if n = 0 ∨ 8 < n ∨ b.length < 4 + 4 * n ∨ new.any (fun p => p.nblk == 0 || decide (8 ≤ p.access)) then mbResult m r Rc.BADPARAM [] t
      else if 1632 < (new.map (fun p => p.nblk)).sum then mbResult m r Rc.NOSPACE [] t
      else if t.on Reg.FLC_STAT_RO then mbResult m r Rc.STORE_RO [] t
      else if t.on Reg.FLC_QAPP_CTL_EN || (partsChanged t.flc.parts new).any locked then mbResult m r Rc.BUSY [] t
      else opEnd m r.tag 3 0 [] (partsSet new (mbAccept m r [r.at_ 0 1] [] t))) s
def execStorePartset (m dt : Nat) (s : State) : Host.Outcome State Fault Refusal :=
  .next (onlyIf (cmdOk m 0x0702 (s.pass dt)) (storePartset m (s.pass dt)) (s.pass dt))

/-- STORE_SCRUB (R502): `outs` gives, by 64 * block + page, the reads that needed a correction or failed. -/
def storeScrub (m : Nat) (outs : List (Nat × PageOut)) (s : State) : State :=
  longCmd m 1 (fun r t =>
    let p := partOf t (r.at_ 0 1)
    if 11 < r.at_ 0 1 ∨ partKind t (r.at_ 0 1) = 0 then mbResult m r Rc.BADPARAM [] t
    else if t.on Reg.FLC_STAT_RO then mbResult m r Rc.STORE_RO [] t
    else
      let (n, t1) := scrubRun p.first p.nblk outs (mbAccept m r [0] [] t)
      let t2 := scrubRefresh p.first p.nblk t1
      opEnd m r.tag 3 0 (leBytes 4 n ++ leBytes 2 (t2.flc.moraine.length - t.flc.moraine.length)) t2) s
def execStoreScrub (m : Nat) (outs : List (Nat × PageOut)) (dt : Nat) (s : State) : Host.Outcome State Fault Refusal :=
  .next (onlyIf (cmdOk m 0x0703 (s.pass dt)) (storeScrub m outs (s.pass dt)) (s.pass dt))

/-! ### Tables (R355 to R358, R781, R782) -/

/-- A store write of this table is under way (step 3 of R357). -/
def tblBusy (s : State) (tid : Nat) : Bool := s.tblJobs.any (fun j => j.tid == tid)

/-- The first of steps 1 to 8 of R357 that fails, with OFFS. -/
def tblRefusal (s : State) (b : List Nat) (force : Bool) : Option (Nat × Nat) :=
  let tid := leAt b 0 2
  let len := leAt b 4 4
  let body := (b.drop 16).take len
  if !tblKnown tid then some (Rc.TBL_UNKNOWN, 0)
  else if !tblMailbox tid then some (Rc.DENIED, 0)
  else if tblBusy s tid then some (Rc.TBL_BUSY, 0)
  else if b.length < 16 + len ∨ 16384 < 16 + len then some (Rc.TBL_LAYOUT, 0)
  else if crc32 (b.take 12 ++ body) ≠ leAt b 12 4 then some (Rc.TBL_CHECK, 0)
  else if leAt b 3 1 ≠ 1 then some (Rc.TBL_VERSION, 0)
  else if !force && decide (leAt b 2 2 < (tblNow s tid).ver) then some (Rc.TBL_OLDER, 0)
  else (tblBad tid body).map (fun o => (Rc.TBL_LAYOUT, o))

/-- TBL_LOAD (R357): ACCEPTED, the checks, and the store write. -/
def tblLoad (m : Nat) (s : State) : State :=
  longCmd m 2 (fun r t =>
    match bufOf t m (r.at_ 0 1) with
    | none => mbResult m r Rc.BADPARAM [] t
    | some b =>
      if 1 < r.at_ 1 1 then mbResult m r Rc.BADPARAM [] t
      else
        let t1 := mbAccept m r [r.at_ 0 1] [] t
        match tblRefusal t b (r.at_ 1 1 == 1) with
        | some (st, offs) => opEnd m r.tag 4 st (leBytes 4 offs) t1
        | none => { t1 with tblJobs := t1.tblJobs ++ [TblJob.mk (leAt b 0 2) (some ⟨leAt b 2 2, 1, (b.drop 16).take (leAt b 4 4)⟩) m r.tag] }) s
def execTblLoad (m dt : Nat) (s : State) : Host.Outcome State Fault Refusal :=
  .next (onlyIf (cmdOk m 0x0800 (s.pass dt)) (tblLoad m (s.pass dt)) (s.pass dt))

/-- TBL_REVERT (R358). -/
def tblRevert (m : Nat) (s : State) : State :=
  longCmd m 2 (fun r t =>
    let tid := r.at_ 0 2
    let t1 := mbAccept m r [0] [] t
    let bad := fun (st : Nat) => opEnd m r.tag 4 st (leBytes 4 0) t1
    if !tblKnown tid then bad Rc.TBL_UNKNOWN
    else if !tblMailbox tid then bad Rc.DENIED
    else if tblBusy t tid then bad Rc.TBL_BUSY
    else { t1 with tblJobs := t1.tblJobs ++ [TblJob.mk tid none m r.tag] }) s
def execTblRevert (m dt : Nat) (s : State) : Host.Outcome State Fault Refusal :=
  .next (onlyIf (cmdOk m 0x0803 (s.pass dt)) (tblRevert m (s.pass dt)) (s.pass dt))

/-- TBL_WRITE_DONE (R357, R781): the store write of job `i` ends; `ok` says that it succeeds. The table takes effect with DONE. -/
def tblWriteDoneOk (i : Nat) (s : State) : Bool := decide (i < s.tblJobs.length)
def tblWriteDone (i : Nat) (ok : Bool) (s : State) : State :=
  match s.tblJobs[i]? with
  | none => s
  | some j =>
    let s1 : State := { s with tblJobs := s.tblJobs.eraseIdx i }
    if s.on Reg.FLC_STAT_RO then opEnd j.mb j.tag 4 Rc.STORE_RO (leBytes 4 0) s1
    else if !ok then opEnd j.mb j.tag 4 Rc.TBL_STORE (leBytes 4 0) s1
    else opEnd j.mb j.tag 3 0 [] (tblForce j.tid j.obj s1)
def execTblWriteDone (i : Nat) (ok : Bool) (dt : Nat) (s : State) : Host.Outcome State Fault Refusal :=
  .next (onlyIf (tblWriteDoneOk i (s.pass dt)) (tblWriteDone i ok (s.pass dt)) (s.pass dt))

/-- TBL_INFO (R358). -/
def tblInfo (m : Nat) (s : State) : State :=
  shortCmd m 2 (fun r t =>
    let tid := r.at_ 0 2
    if !tblKnown tid then mbResult m r Rc.TBL_UNKNOWN [] t
    else
      let o := tblNow t tid
      mbResult m r Rc.OK (leBytes 2 o.ver ++ leBytes 4 o.body.length ++ leBytes 4 (leAt (tblHeader tid o) 12 4) ++ [o.source, 0]) t) s
def execTblInfo (m dt : Nat) (s : State) : Host.Outcome State Fault Refusal :=
  .next (onlyIf (cmdOk m 0x0801 (s.pass dt)) (tblInfo m (s.pass dt)) (s.pass dt))

/-- TBL_READ (R782). -/
def tblRead (m : Nat) (s : State) : State :=
  shortCmd m 10 (fun r t =>
    let tid := r.at_ 0 2
    let n := r.at_ 8 2
    if !tblKnown tid then mbResult m r Rc.TBL_UNKNOWN [] t
    else
      let o := tblNow t tid
      if n = 0 ∨ 240 < n ∨ 16 + o.body.length < r.at_ 4 4 + n then mbResult m r Rc.BADPARAM [] t
      else mbResult m r Rc.OK (((tblHeader tid o ++ o.body).drop (r.at_ 4 4)).take n) t) s
def execTblRead (m dt : Nat) (s : State) : Host.Outcome State Fault Refusal :=
  .next (onlyIf (cmdOk m 0x0802 (s.pass dt)) (tblRead m (s.pass dt)) (s.pass dt))

/-! ### Health (R662, R664) -/

/-- HLT_SUMMARY (R664). -/
def hltSummary (m : Nat) (s : State) : State :=
  shortCmd m 0 (fun r t => mbResult m r Rc.OK (leBytes 2 t.health.length ++ [t.rd Reg.AGE_STAT_WORST, 0] ++ leBytes 4 (regWord t Reg.AGE_ALARMS_RMAPLOST.addr)) t) s
def execHltSummary (m dt : Nat) (s : State) : Host.Outcome State Fault Refusal :=
  .next (onlyIf (cmdOk m 0x0900 (s.pass dt)) (hltSummary m (s.pass dt)) (s.pass dt))

/-- The 32-byte health record (R662). -/
def healthBytes (h : HealthRec) : List Nat :=
  leBytes 2 h.index ++ [h.severity, 0] ++ leBytes 4 h.code ++ leBytes 8 h.t ++ leBytes 4 h.value1 ++ leBytes 4 h.value2 ++ leBytes 4 h.uptime ++ leBytes 2 h.boots ++ [0, 0]

/-- HLT_READ (R662). -/
def hltRead (m : Nat) (s : State) : State :=
  shortCmd m 2 (fun r t => match t.health.find? (fun h => h.index == r.at_ 0 2) with | some h => mbResult m r Rc.OK (healthBytes h) t | none => mbResult m r Rc.BADPARAM [] t) s
def execHltRead (m dt : Nat) (s : State) : Host.Outcome State Fault Refusal :=
  .next (onlyIf (cmdOk m 0x0901 (s.pass dt)) (hltRead m (s.pass dt)) (s.pass dt))

/-! ### Field update (R352, R701 to R715) -/

/-- UPD_STATUS (R715). -/
def updStatusCmd (m : Nat) (s : State) : State := shortCmd m 0 (fun r t => mbResult m r Rc.OK (updStatus t) t) s
def execUpdStatus (m dt : Nat) (s : State) : Host.Outcome State Fault Refusal :=
  .next (onlyIf (cmdOk m 0x0B00 (s.pass dt)) (updStatusCmd m (s.pass dt)) (s.pass dt))

/-- UPD_INTAKE (R701, R702): arguments of the operation: no buffer, SRC, SIZE. -/
def updIntake (m : Nat) (s : State) : State :=
  longCmd m 8 (fun r t =>
    let src := r.at_ 0 1
    let size := r.at_ 4 4
    if 1 < src ∨ (src = 0 ∧ size ≠ 0) ∨ (src = 1 ∧ (size = 0 ∨ 0x1000000 < size)) then mbResult m r Rc.BADPARAM [] t
    else if !storeRoom t then mbResult m r Rc.NOSPACE [] t
    else if src = 0 && t.on (Reg.SPX_STAT_GLETY 1) then mbResult m r Rc.BUSY [] t
    else
      let t1 := mbAccept m r [0, src, size] [] t
      if src = 0 then t1.set1 (Reg.SPX_STAT_GLETY 1) else t1) s
def execUpdIntake (m dt : Nat) (s : State) : Host.Outcome State Fault Refusal :=
  .next (onlyIf (cmdOk m 0x0B01 (s.pass dt)) (updIntake m (s.pass dt)) (s.pass dt))

/-- UPD_PUSH (R352): the buffer joins the bundle at OFFS, which must be where its bytes so far end. -/
def updPush (m : Nat) (s : State) : State :=
  shortCmd m 8 (fun r t =>
    match opOf t m (r.at_ 0 2), bufOf t m (r.at_ 2 1) with
    | some o, some b =>
      if o.cmd ≠ 0x0B01 ∨ o.args.getD 1 0 ≠ 1 then mbResult m r Rc.NOTLIVE [] t
      else if r.at_ 4 4 ≠ o.data.length ∨ o.args.getD 2 0 < o.data.length + b.length then mbResult m r Rc.BADPARAM [] t
      else
        let size := max 1 (o.args.getD 2 0)
        mbResult m r Rc.OK [] (opMod m o.tag (fun x => { x with data := x.data ++ b, done := 100 * (x.data.length + b.length) / size }) t)
    | none, _ => mbResult m r Rc.NOTLIVE [] t
    | some o, none => mbResult m r (if o.cmd ≠ 0x0B01 ∨ o.args.getD 1 0 ≠ 1 then Rc.NOTLIVE else Rc.BADPARAM) [] t) s
def execUpdPush (m dt : Nat) (s : State) : Host.Outcome State Fault Refusal :=
  .next (onlyIf (cmdOk m 0x0B02 (s.pass dt)) (updPush m (s.pass dt)) (s.pass dt))

/-- INTAKE_VERIFY (R701, R702): the last byte has come, or the card has been read (`card` its bytes, none where it is absent): the bundle is verified and stored. -/
def intakeVerifyOk (m tag : Nat) (s : State) : Bool :=
  match opOf s m tag with
  | some o => o.cmd == 0x0B01 && o.suspended.isNone && (o.args.getD 1 0 == 0 || o.data.length == o.args.getD 2 0)
  | none => false
def intakeVerify (m tag : Nat) (card : List Nat) (s : State) : State :=
  match opOf s m tag with
  | none => s
  | some o =>
    let (pre, b) := if o.args.getD 1 0 = 0 then cardPick (bunStatus s) (cardEntries card) Rc.UPD_MEDIA else (Rc.OK, o.data)
    let s1 := cardRelease o s
    if pre ≠ Rc.OK then opEnd m tag 4 pre [] s1
    else
      let (st, s2) := intakeEnd b s1
      if st = Rc.OK then opEnd m tag 3 0 (leBytes 4 (bunBid b)) s2 else opEnd m tag 4 st [] s2
def execIntakeVerify (m tag : Nat) (card : List Nat) (dt : Nat) (s : State) : Host.Outcome State Fault Refusal :=
  .next (onlyIf (intakeVerifyOk m tag (s.pass dt)) (intakeVerify m tag card (s.pass dt)) (s.pass dt))

/-- UPD_DISTRIBUTE (R704, R706). -/
def updDistribute (m : Nat) (s : State) : State :=
  longCmd m 6 (fun r => onC m r (fun t =>
    let bid := r.at_ 0 4
    let g := r.at_ 4 2
    match bundleOf t bid with
    | none => mbResult m r Rc.BADPARAM [] t
    | some b =>
      if !b.verified ∨ g < 0xF000 then mbResult m r Rc.BADPARAM [] t
      else if !coActive t then mbResult m r Rc.NOTREADY [] t
      else if t.upd.dist.isSome then mbResult m r Rc.BUSY [] t
      else
        let t1 := mbAccept m r [0] [] t
        let t2 := bundleSet bid (fun x => { x with group := some g, busy := true, sendIdx := 0 }) t1
        let t3 := updMod (fun u => { u with dist := some ⟨m, r.tag, bid, g, []⟩ }) t2
        distSettle (bulkFlood (cfgN t 7 1) (offerPdu b g) t3))) s
def execUpdDistribute (m dt : Nat) (s : State) : Host.Outcome State Fault Refusal :=
  .next (onlyIf (cmdOk m 0x0B03 (s.pass dt)) (updDistribute m (s.pass dt)) (s.pass dt))

/-- UPD_ACTIVATE (R709): the flood of ACTIVATE, and the node's own arming; an unjoined node arms itself only. -/
def updActivate (m : Nat) (s : State) : State :=
  shortCmd m 16 (fun r t =>
    let bid := r.at_ 0 4
    let at_ := r.at_ 8 8
    if at_ < t.now + ftS 60 ∨ t.now + ftS 2592000 < at_ then mbResult m r Rc.BADPARAM [] t
    else match bundleOf t bid with
      | none => mbResult m r Rc.BADPARAM [] t
      | some b =>
        if isJoined t && !coActive t then mbResult m r Rc.NOTREADY [] t
        else if !isJoined t && !(bunForMe t (bundleBytes b) && bunCompat t (bundleBytes b)) then mbResult m r Rc.UPD_COMPAT [] t
        else
          let t1 := mbResult m r Rc.OK [] t
          let t2 := if coActive t1 then bulkFlood (cfgN t1 7 1) ([5] ++ leBytes 4 bid ++ leBytes 8 at_) t1 else t1
          activateTake bid at_ t2) s
def execUpdActivate (m dt : Nat) (s : State) : Host.Outcome State Fault Refusal :=
  .next (onlyIf (cmdOk m 0x0B04 (s.pass dt)) (updActivate m (s.pass dt)) (s.pass dt))

/-- UPD_CONFIRM (R711): NOTREADY when no trial is pending. -/
def updConfirm (m : Nat) (s : State) : State :=
  shortCmd m 0 (fun r t => if t.on Reg.BKP_SET1_TRIAL then mbResult m r Rc.OK [] (updMod (fun u => { u with confirmed := true }) t) else mbResult m r Rc.NOTREADY [] t) s
def execUpdConfirm (m dt : Nat) (s : State) : Host.Outcome State Fault Refusal :=
  .next (onlyIf (cmdOk m 0x0B05 (s.pass dt)) (updConfirm m (s.pass dt)) (s.pass dt))

end Sys2Proof.Machine
end

