-- ==== Sys2Proof/Machine/Jtag.lean ====
section
/-!
DEFINITION. The debug port (R768 to R771): each command loads an instruction and, where the instruction has a data register, makes one scan of it.
-/
namespace Sys2Proof.Machine

/-- Change the debug port. -/
def jtagMod (f : Jtag → Jtag) (s : State) : State := { s with jtag := f s.jtag }

/-- The scanned balls in the order of R763 (R769): TCXO_EN; PWM0, PWM1, DALI_TX; DALI_RX; GPIO, SPX0 and SPX1 balls; RESET_N, PFAIL_N, PSTRAP. -/
def ballCount : Nat := 63

/-- Input-only balls: their output and enable cells drive nothing. -/
def ballInputOnly (b : Nat) : Bool := b == 4 || decide (60 ≤ b)

/-- The level that the debug port puts on a ball: none where it drives nothing; HIGHZ releases every output (R768, R769). The cells of a ball are input, output and
enable from TDI, and an enable of 1 drives (log entry 44). -/
def ballDriven (j : Jtag) (b : Nat) : Option Bool :=
  if j.ir = 0 ∧ b < ballCount ∧ ballInputOnly b = false ∧ bitOf j.cells (3 * b + 2) = 1 then some (bitOf j.cells (3 * b + 1) == 1) else none

/-- Every scanned output is out of its block's hands. -/
def ballsHeld (j : Jtag) : Bool := j.ir == 0 || j.ir == 4

/-- EXTEST: the boundary register is scanned with what the balls show, and drives them. -/
def extest (sample cells : Nat) (s : State) : State := jtagMod (fun j => { j with ir := 0, scan := sample % 2 ^ 189, cells := cells % 2 ^ 189 }) s
def execExtest (sample cells dt : Nat) (s : State) : Host.Outcome State Fault Refusal := .next (extest sample cells (s.pass dt))

/-- SAMPLE_PRELOAD: the same scan, and the balls stay with their blocks. -/
def samplePreload (sample cells : Nat) (s : State) : State := jtagMod (fun j => { j with ir := 1, scan := sample % 2 ^ 189, cells := cells % 2 ^ 189 }) s
def execSamplePreload (sample cells dt : Nat) (s : State) : Host.Outcome State Fault Refusal := .next (samplePreload sample cells (s.pass dt))

/-- IDCODE: 0x1744_0367 on revision 0x01. -/
def idcode (s : State) : Nat := s.rd Reg.SYS_ID_REV % 16 * 2 ^ 28 + 0x7440 * 2 ^ 12 + 0x1B3 * 2 + 1
def execIdcode (dt : Nat) (s : State) : Host.Outcome State Fault Refusal := .next (jtagMod (fun j => { j with ir := 2, scan := idcode (s.pass dt) }) (s.pass dt))

/-- HIGHZ, BYPASS and every code that the table does not list: the bypass register captures 0 (log entry 44). -/
def execHighz (dt : Nat) (s : State) : Host.Outcome State Fault Refusal := .next (jtagMod (fun j => { j with ir := 4, scan := 0 }) (s.pass dt))
def irListed (code : Nat) : Bool := [0, 1, 2, 4, 8, 9, 10].contains (code % 32)
def execBypass (code dt : Nat) (s : State) : Host.Outcome State Fault Refusal :=
  .next (onlyIf (!irListed code) (jtagMod (fun j => { j with ir := code % 32, scan := 0 }) (s.pass dt)) (s.pass dt))

/-! ### DBGMEM (R770) -/

/-- The access of a DBGMEM scan as initiator 22; the address is taken aligned. -/
def dbgReq (addr data : Nat) : BusReq := { ini := 22, user := false, addr := addr % 2 ^ 32 / 4 * 4, size := 4, val := data % 2 ^ 32, par := false }

/-- A write that meets a sleeping domain is pending, not posted. -/
def dbgWrite (w : BusReq) (s : State) : BusRes × State :=
  match (if (accessKind s w.ini w.user true false w.addr w.size).1 = 0 then busAsleep s w else none) with
  | some d =>
    if s.pwr.expired.contains (w.ini, d) then busFail w true 4 false (pwrMod (fun p => { p with expired := p.expired.erase (w.ini, d) }) s)
    else (.wait, accessWait w.ini d s)
  | none => busWrite w s

/-- Make the access, or leave it pending. -/
def dbgAccess (op addr data : Nat) (s : State) : State :=
  let r := if op = 2 then dbgWrite (dbgReq addr data) s else busRead (dbgReq addr 0) false s
  match r with
  | (.done v, s1) => jtagMod (fun j => { j with pend := none, err := false, op := op, addr := addr % 2 ^ 32, data := if op = 1 then v else data % 2 ^ 32 }) s1
  | (.err _, s1) => jtagMod (fun j => { j with pend := none, err := true, op := op, addr := addr % 2 ^ 32, data := if op = 1 then 0 else data % 2 ^ 32 }) s1
  | (.wait, s1) => jtagMod (fun j => { j with pend := some (op, addr, data), err := false, op := op, addr := addr % 2 ^ 32, data := data % 2 ^ 32 }) s1

/-- The register as Capture-DR finds it. -/
def dbgCapture (j : Jtag) : Nat := b2n j.pend.isSome * 2 ^ 67 + b2n j.err * 2 ^ 66 + j.op * 2 ^ 64 + j.addr * 2 ^ 32 + j.data

/-- A scan of DBGMEM: a pending access is tried again, Capture-DR, and Update-DR, which does nothing while BUSY. -/
def dbgmem (op addr data : Nat) (s0 : State) : State :=
  let s := match s0.jtag.pend with | some (o, a, d) => dbgAccess o a d s0 | none => s0
  let s1 := jtagMod (fun j => { j with ir := 8, scan := dbgCapture s.jtag }) s
  if s.jtag.pend.isNone ∧ (op = 1 ∨ op = 2) then dbgAccess op addr data s1 else s1
def execDbgmem (op addr data dt : Nat) (s : State) : Host.Outcome State Fault Refusal := .next (dbgmem op addr data (s.pass dt))

/-! ### DBGCORE (R771) -/

/-- The register as Capture-DR finds it: INIT and HALTED. -/
def dbgcoreCapture (s : State) : Nat := s.jtag.init % 32 * 2 ^ 11 + b2n (isCore s.jtag.init && (coreOf s s.jtag.init).halted) * 2 ^ 7

/-- A command takes effect on an application core while DBGEN is 1. -/
def dbgcoreOk (ini : Nat) (s : State) : Bool := decide (1 ≤ ini) && decide (ini ≤ 4) && s.on Reg.PROT_CTL_DBGEN

/-- A scan of DBGCORE with a command. -/
def dbgcore (ini : Nat) (f : Core → Core) (s : State) : State :=
  let s1 := jtagMod (fun j => { j with ir := 9, scan := dbgcoreCapture s, init := ini % 32 }) s
  if dbgcoreOk ini s then coreMod ini f s1 else s1

/-- DBG_HALT. -/
def execDbgHalt (ini dt : Nat) (s : State) : Host.Outcome State Fault Refusal := .next (dbgcore ini (fun c => { c with halted := true, oneStep := false }) (s.pass dt))
/-- DBG_RESUME. -/
def execDbgResume (ini dt : Nat) (s : State) : Host.Outcome State Fault Refusal := .next (dbgcore ini (fun c => { c with halted := false, oneStep := false }) (s.pass dt))
/-- DBG_STEP: a halted core issues one instruction. -/
def execDbgStep (ini dt : Nat) (s : State) : Host.Outcome State Fault Refusal := .next (dbgcore ini (fun c => { c with oneStep := c.halted }) (s.pass dt))

/-! ### The reset instructions (R768) -/

/-- SYSRST. -/
def execSysrst (dt : Nat) (s : State) : Host.Outcome State Fault Refusal :=
  .next (jtagMod (fun j => { j with ir := 0x0A, scan := 0 }) (sysReset Reg.SYS_RSTCAUSE_JTAG (s.pass dt)))

/-- TAP_RESET: IDCODE is selected; the boundary latches stay (log entry 44). -/
def execTapReset (dt : Nat) (s : State) : Host.Outcome State Fault Refusal :=
  .next (jtagMod (fun j => { Jtag.reset with cells := j.cells }) (s.pass dt))

end Sys2Proof.Machine
end

