-- ==== Sys2Proof/Machine/NetOps.lean ====
section
/-!
DEFINITION. Received link frames and wired frames: the checks in order, and the dispatch to the link, mesh or peer-delay
unit (R210, R260 to R272, R307).
-/
namespace Sys2Proof.Machine

/-! ### Checks (R201, R210) -/

/-- Fixed octets of a frame type before its check value (R201). -/
def fixedOctets (type : Nat) : Nat := [26, 13, 11, 17, 23, 11, 60].getD type 0

/-- Step 1 of R210: VER, TYPE, and room for the fixed octets and the check value. -/
def frameFormOk (s : State) (f : List Nat) : Bool :=
  verAccepted s (fcVer f) && decide (fcType f ≤ 6) && decide (fixedOctets (fcType f) + fcMicLen f ≤ f.length)

/-- Step 2 of R210: the node's network, or any network's BEACON or JOIN_RSP while it is joining. -/
def frameNetOk (s : State) (f : List Nat) : Bool :=
  if isJoined s then leAt f 2 2 == ownNet s else fcType f == 0 || fcType f == 4

/-- A flood's payload, deciphered (R533). -/
def floodPayload (s : State) (f : List Nat) : List Nat :=
  let p := (frameBody f).drop 13
  if fcEnc f then (match keyOf s (fcKey f) with | some k => encipher (deriveEnc k) 1 (leAt f 2 2) (leAt f 5 2) 1 (leAt f 7 3) p | none => []) else p

/-! ### Floods (R260 to R267) -/

/-- Remove a seen entry. -/
def seenRemove (id : Nat) (s : State) : State := mshShow { s with msh := { s.msh with seen := s.msh.seen.filter (fun e => !(e.id == id)) } }

/-- A duplicate (R260): checked and counted for a relay whose timer runs, else only counted. -/
def floodDup (id : Nat) (f : List Nat) (s : State) : State :=
  if s.msh.relays.any (fun r => r.id == id) then
    let more := fun (r : Relay) => if r.id = id then { r with dups := r.dups + 1 } else r
    let s1 : State := if micOk s none f then { s with msh := { s.msh with relays := s.msh.relays.map more } } else s.inc Reg.LNK_MICCNT
    s1.inc Reg.MSH_DUPCNT
  else s.inc Reg.MSH_DUPCNT

/-- Accept a new flood (R262 to R267): delivery, the radio relay, the wired copies and the copies for Leaf children. `port` is the wired port it came from. -/
def floodAccept (ringFull : Bool) (port : Option Nat) (id : Nat) (f : List Nat) (s0 : State) : State :=
  let s := s0.inc Reg.MSH_RXFLDCNT
  let dest := leAt f 10 2
  let ttl := leAt f 4 1 % 32
  let s1 := if covers dest (ownShort s) s.msh.groups then netDeliver ringFull (leAt f 5 2) dest (leAt f 12 1) 0 (leAt f 7 3) (floodPayload s f) s else s
  if dest = ownShort s then s1
  else
    let s2 := if isRelay s1 && !isLeaf s1 && decide (1 ≤ ttl) then relayStart id f s1 else s1
    let s3 := if !isLeaf s2 && decide (1 ≤ ttl) then wiredCopies port (ttlDown f) s2 else s2
    leafCopies (frameBody f) s3

/-- A FLOOD frame that has passed steps 1 and 2 (R257, R260, R269): the seen cache, the check value, the police, and acceptance. -/
def floodReceive (ringFull : Bool) (port : Option Nat) (f : List Nat) (s : State) : State :=
  let id := msgId (leAt f 5 2) (leAt f 7 3)
  if meshMax < f.length then s.inc Reg.MSH_FMTCNT
  else if seenHas s id then floodDup id f s
  else
    let s1 := seenInsert id s
    if !micOk s1 none f then (seenRemove id s1).inc Reg.LNK_MICCNT
    else if leAt f 12 1 = 7 then floodAccept ringFull port id f s1
    else
      let (pass, s2) := police (leAt f 5 2) s1
      if pass then floodAccept ringFull port id f s2 else (s2.inc Reg.MSH_POLDROPCNT).raiseLim 128 1

/-! ### Mesh PDUs (R266, R270 to R272) -/

/-- A flood copy (R266, R270): only from the parent; a message not seen before is delivered, and never relayed. -/
def copyReceive (ringFull : Bool) (nb : Nb) (u : List Nat) (s : State) : State :=
  if isDown s nb ∨ u.length < 9 then s.inc Reg.MSH_FMTCNT
  else
    let id := msgId (leAt u 1 2) (leAt u 3 3)
    if seenHas s id then s.inc Reg.MSH_DUPCNT
    else
      let s1 := (seenInsert id s).inc Reg.MSH_RXFLDCNT
      if covers (leAt u 6 2) (ownShort s1) s1.msh.groups then netDeliver ringFull (leAt u 1 2) (leAt u 6 2) (leAt u 8 1) 0 (leAt u 3 3) (u.drop 9) s1 else s1

/-- A mesh PDU from a neighbour (R270 to R272). -/
def meshPdu (ringFull : Bool) (nb : Nb) (u : List Nat) (s : State) : State :=
  if bitOf (leAt u 0 1) 7 = 1 then copyReceive ringFull nb u s
  else
    let dst := leAt u 3 2
    if u.length < 6 ∨ dst = 0 ∨ 0xEFFF < dst then s.inc Reg.MSH_FMTCNT
    else if dst = ownShort s then
      let s1 := if isDown s nb then routeLearn (leAt u 1 2) nb s else s
      netDeliver ringFull (leAt u 1 2) dst (leAt u 5 1) 1 0 (u.drop 6) s1
    else unicastForward (some nb) u s

/-! ### Link frames (R210) -/

/-- Ask the upstream neighbour for its configuration (R217): an empty CONFIG (log entry 26), unless one is on its way. -/
def cfgFetch (s : State) : State :=
  if !s.lnk.wantCfg || s.lnk.nextCfg.isSome then s
  else match upNb s with
    | some (.wired p) => unicastSend (wport s p).peer 0 0 5 [] s
    | some (.conn id) => match connOf s id with | some c => if c.up then unicastSend c.peer 0 0 5 [] s else s | none => s
    | none => s

/-- A valid BEACON (R218 to R220, R238, R246). -/
def linkBeacon (r : RxRec) (s : State) : State :=
  let src := leAt r.psdu 4 2
  let s1 := recoverHeard src (beaconReceive r s)
  if isJoined s1 && src == parentOf s1 && leAt r.psdu 2 2 == ownNet s1 then
    cfgFetch (timeParentChoose { s1 with lnk := { s1.lnk with wakeAt := none } })
  else s1

/-- The STATUS records of a child go to the coordinator, at most 16 to a PDU (R230, R738). -/
def statusForward (src : Nat) : Nat → List (Nat × Nat × Nat) → State → State
  | 0, _, s => s
  | n + 1, l, s =>
    if l.isEmpty then s
    else
      let pdu := [1, (l.take 16).length] ++ (l.take 16).flatMap (fun x => leBytes 2 src ++ leBytes 2 x.1 ++ leBytes 8 x.2.1 ++ leBytes 2 x.2.2)
      statusForward src n (l.drop 16) (if coActive s then coStatus (ownShort s) pdu s else unicastSend coordShort 2 0 3 pdu s)

/-- What follows a connection's establishment: the parent passes on an ACTIVATE (R709); a Leaf child sends its group list (R266). -/
def connGreet (c : Conn) (s : State) : State :=
  if c.child then (if isLeaf s then unicastSend c.peer 0 0 5 ([s.msh.groups.length, 0] ++ s.msh.groups.flatMap (leBytes 2)) s else s)
  else match s.upd.give with
    | some (bid, t) => unicastSend c.peer 3 0 7 ([5] ++ leBytes 4 bid ++ leBytes 8 t) s
    | none => s

/-- A CONN frame's connection: SRC is its peer, DST this node, and ECLO matches (R210). -/
def connFor (s : State) (f : List Nat) : Option Conn :=
  if leAt f 6 2 = ownShort s then s.lnk.conns.find? (fun c => c.peer == leAt f 4 2 && c.k % 65536 == leAt f 9 2) else none

/-- The PDU that a frame of the peer acknowledges was a flood copy to a Leaf child (R271). -/
def ackedCopy (c : Conn) (f : List Nat) : Bool :=
  match c.out with
  | some o => decide ((leAt f 8 1) / 2 % 2 ≠ c.tx) && c.leaf && !c.child && !o.ctrl && o.data.length != 0 && bitOf (leAt o.data 0 1) 7 == 1
  | none => false

/-- A CONN frame (R210, R224 to R231, R266, R271): the check value under its ECNT, then the connection's reception and what it brings. -/
def linkConn (ringFull : Bool) (r : RxRec) (s : State) : State :=
  let f := r.psdu
  match connFor s f with
  | none =>
    match connPeer s (leAt f 4 2) with
    | none => s.inc Reg.LNK_FMTCNT
    | some c => if leAt f 6 2 = ownShort s ∧ ¬ micOk s (some ((c.k / 65536 * 65536 + leAt f 9 2) % 2 ^ 32)) f then connMicFail c.id (s.inc Reg.LNK_MICCNT) else s.inc Reg.LNK_FMTCNT
  | some c =>
    if !micOk s (some (c.k % 2 ^ 32)) f then connMicFail c.id (s.inc Reg.LNK_MICCNT)
    else
      let acked := ackedCopy c f
      let (pdu, recs, s1) := connReceive c.id r s
      let s2 := wakeReply c.id (recoverHeard c.peer { s1 with lnk := { s1.lnk with wakeAt := none } })
      let s3 := if acked then routeLearn c.peer (.conn c.id) s2 else s2
      let s4 := if c.up then s3 else connGreet c s3
      let s5 := statusForward c.peer 128 recs s4
      match pdu with
      | some u => meshPdu ringFull (.conn c.id) u s5
      | none => s5

/-- A JOIN_REQ at a parent (R221): kept for the answer, and forwarded. -/
def linkJoinReq (r : RxRec) (s : State) : State :=
  if !beacons s then s
  else
    let longid := leAt r.psdu 4 8
    let j : JoinFwd := ⟨longid, leAt r.psdu 13 4, r.freq, r.mode⟩
    joinForward longid { s with lnk := { s.lnk with joins := s.lnk.joins.filter (fun x => !(x.longid == longid)) ++ [j] } }

/-- Dispatch a frame whose check value holds (R210). -/
def linkTake (ringFull : Bool) (r : RxRec) (s : State) : State :=
  match fcType r.psdu with
  | 0 => linkBeacon r s
  | 2 => linkConn ringFull r s
  | 3 => linkJoinReq r s
  | 4 => joinRspReceive r s
  | 5 => connReqReceive r s
  | _ => connIndReceive r s

/-- The checks of R210 in order: the first that fails drops the frame. An unjoined node takes BEACON frames unchecked, having no key yet. -/
def linkFrame (ringFull : Bool) (r : RxRec) (s : State) : State :=
  let f := r.psdu
  if !frameFormOk s f then s.inc Reg.LNK_FMTCNT
  else if !frameNetOk s f then s.inc Reg.LNK_NETCNT
  else if fcType f = 1 then floodReceive ringFull none f s
  else if fcType f = 2 ∨ (!isJoined s && fcType f == 0) || micOk s none f then linkTake ringFull r s
  else s.inc Reg.LNK_MICCNT

/-- LINK_FRAME_CHECK (R210): the oldest frame of the receive ring. `ringFull`: the local delivery ring has no room (R268). -/
def linkFrameCheckOk (s : State) : Bool := !s.rxc.ring.isEmpty
def linkFrameCheck (ringFull : Bool) (s : State) : State :=
  match s.rxc.ring with
  | [] => s
  | r :: rest => linkFrame ringFull r { s with rxc := { s.rxc with ring := rest } }
def execLinkFrameCheck (ringFull : Bool) (dt : Nat) (s : State) : Host.Outcome State Fault Refusal :=
  .next (onlyIf (linkFrameCheckOk (s.pass dt)) (linkFrameCheck ringFull (s.pass dt)) (s.pass dt))

/-! ### Wired frames (R302 to R307) -/

/-- The destination of an Ethernet frame is this node or broadcast; for the peer-delay unit also its multicast address (R307, R310). -/
def etherDestOk (s : State) (f : List Nat) (ptp : Bool) : Bool :=
  f.take 6 == ownMac s || f.take 6 == List.replicate 6 0xFF || (ptp && f.take 6 == [0x01, 0x80, 0xC2, 0x00, 0x00, 0x0E])

/-- The shim (R302, R303): VER 0, KIND 1 or 2, and a SHIM_LEN of 1 to 1,280 that fits the frame. -/
def shimLen (f : List Nat) : Nat := ofBeBytes ((f.drop 15).take 2)
def shimOk (f : List Nat) : Bool :=
  leAt f 14 1 / 16 == 0 && (leAt f 14 1 % 16 == 1 || leAt f 14 1 % 16 == 2) && decide (1 ≤ shimLen f) && decide (shimLen f ≤ 1280) && decide (18 + shimLen f ≤ f.length)

/-- Steps 1 and 2 of R210 for a wired item: KIND 1 holds a BEACON or a FLOOD, KIND 2 WDATA with its 12 octets (R303, R305). -/
def wiredFormOk (s : State) (kind : Nat) (c : List Nat) : Bool :=
  verAccepted s (fcVer c) && (if kind = 1 then decide (fcType c ≤ 1) && decide (fixedOctets (fcType c) + fcMicLen c ≤ c.length) else fcType c == 2 && decide (12 + fcMicLen c ≤ c.length))

/-- WSEQ is newer than the last accepted one (R306). -/
def wseqNew (s : State) (p wseq : Nat) : Bool := match (wport s p).wrx with | none => true | some l => decide (0 < toSigned 32 (wseq + 2 ^ 32 - l))

/-- A WDATA frame (R305 to R307). -/
def wdataReceive (ringFull : Bool) (p : Nat) (c : List Nat) (s : State) : State :=
  if !micOk s none c then s.inc Reg.LNK_MICCNT
  else if leAt c 6 2 ≠ ownShort s ∨ wptLinked s p = false then s.inc (Reg.WPT_PTYPECNT p)
  else if !wseqNew s p (leAt c 8 4) then s.inc (Reg.WPT_PREPLAYCNT p)
  else meshPdu ringFull (.wired p) ((frameBody c).drop 12) ((wptMod p (fun w => { w with wrx := some (leAt c 8 4) }) s).inc (Reg.WPT_PRXFRMCNT p))

/-- The content of a Lomeral item (R307, steps 3 to 5). -/
def wiredItem (ringFull : Bool) (p kind : Nat) (c mac : List Nat) (s : State) : State :=
  if !wiredFormOk s kind c then s.inc Reg.LNK_FMTCNT
  else if !frameNetOk s c then s.inc Reg.LNK_NETCNT
  else if kind = 2 then wdataReceive ringFull p c s
  else if fcType c = 1 then floodReceive ringFull (some p) c (if seenHas s (msgId (leAt c 5 2) (leAt c 7 3)) || micOk s none c then s.inc (Reg.WPT_PRXFRMCNT p) else s)
  else if !micOk s none c then s.inc Reg.LNK_MICCNT
  else if isJoined s then cfgFetch (wiredBeaconReceive p c mac (s.inc (Reg.WPT_PRXFRMCNT p)))
  else s.inc (Reg.WPT_PRXFRMCNT p)

/-- WIRED_FRAME_RECEIVE (R307): a frame without its FCS; the peer-delay unit's go to R310. -/
def wiredFrameReceiveOk (p : Nat) (s : State) : Bool := decide (p < 2) && s.on (Reg.WPT_PSTAT_LINK p)
def wiredFrameReceive (p : Nat) (fcsOk : Bool) (f : List Nat) (ringFull : Bool) (s : State) : State :=
  let ptp := (f.drop 12).take 2 == [0x88, 0xF7]
  let lom := (f.drop 12).take 2 == [0x88, 0xB5]
  if !fcsOk then s.inc (Reg.WPT_PFCSCNT p)
  else if !(ptp || lom) || !etherDestOk s f ptp || (lom && !shimOk f) then s.inc (Reg.WPT_PTYPECNT p)
  else if ptp then ptpReceive p f s.now (s.inc (Reg.WPT_PRXFRMCNT p))
  else wiredItem ringFull p (leAt f 14 1 % 16) ((f.drop 18).take (shimLen f)) ((f.drop 6).take 6) s
def execWiredFrameReceive (p : Nat) (fcsOk : Bool) (frame : List Nat) (ringFull : Bool) (dt : Nat) (s : State) : Host.Outcome State Fault Refusal :=
  .next (onlyIf (wiredFrameReceiveOk p (s.pass dt)) (wiredFrameReceive p fcsOk frame ringFull (s.pass dt)) (s.pass dt))

end Sys2Proof.Machine
end

