-- ==== Sys2Proof/Machine/Dispatch.lean ====
section
/-!
DEFINITION. The dispatch: one arm per command, in the order of the operation table.
-/
namespace Sys2Proof.Machine

def exec (i : Instr) (s : State) : Host.Outcome State Fault Refusal :=
  match i with
  | .registerWrite w dt => Sys2Proof.Machine.execRegisterWrite w dt s
  | .shadowCommit b dt => Sys2Proof.Machine.execShadowCommit b dt s
  | .heldWrite dt => Sys2Proof.Machine.execHeldWrite dt s
  | .powerOn resetLow dt => Sys2Proof.Machine.execPowerOn resetLow dt s
  | .brownOut dt => Sys2Proof.Machine.execBrownOut dt s
  | .backupLoss dt => Sys2Proof.Machine.execBackupLoss dt s
  | .resetNLow dt => Sys2Proof.Machine.execResetNLow dt s
  | .watchdogKick dt => Sys2Proof.Machine.execWatchdogKick dt s
  | .watchdogExpiry dt => Sys2Proof.Machine.execWatchdogExpiry dt s
  | .supply dt => Sys2Proof.Machine.execSupply dt s
  | .aonStart strap dt => Sys2Proof.Machine.execAonStart strap dt s
  | .clocks dt => Sys2Proof.Machine.execClocks dt s
  | .tcxoRetry dt => Sys2Proof.Machine.execTcxoRetry dt s
  | .fuses dt => Sys2Proof.Machine.execFuses dt s
  | .repair a b dt => Sys2Proof.Machine.execRepair a b dt s
  | .sramInit dt => Sys2Proof.Machine.execSramInit dt s
  | .image okA okB dt => Sys2Proof.Machine.execImage okA okB dt s
  | .gletyInit coord dt => Sys2Proof.Machine.execGletyInit coord dt s
  | .firnTimeLoRead w dt => Sys2Proof.Machine.execFirnTimeLoRead w dt s
  | .holdoverEntry dt => Sys2Proof.Machine.execHoldoverEntry dt s
  | .tcxoLoss dt => Sys2Proof.Machine.execTcxoLoss dt s
  | .coastLaunch n dt => Sys2Proof.Machine.execCoastLaunch n dt s
  | .tcxoReturn dt => Sys2Proof.Machine.execTcxoReturn dt s
  | .coastRestart dt => Sys2Proof.Machine.execCoastRestart dt s
  | .coastAlign dt => Sys2Proof.Machine.execCoastAlign dt s
  | .arm w dt => Sys2Proof.Machine.execArm w dt s
  | .comparatorCommit n dt => Sys2Proof.Machine.execComparatorCommit n dt s
  | .disarm w dt => Sys2Proof.Machine.execDisarm w dt s
  | .match n dt => Sys2Proof.Machine.execMatch n dt s
  | .launch n dt => Sys2Proof.Machine.execLaunch n dt s
  | .captureApply w dt => Sys2Proof.Machine.execCaptureApply w dt s
  | .capture k rising dt => Sys2Proof.Machine.execCapture k rising dt s
  | .captureRead w dt => Sys2Proof.Machine.execCaptureRead w dt s
  | .coarseOffsetWrite dt => Sys2Proof.Machine.execCoarseOffsetWrite dt s
  | .leapSecond dt => Sys2Proof.Machine.execLeapSecond dt s
  | .stateRequest target freq vpa dt => Sys2Proof.Machine.execStateRequest target freq vpa dt s
  | .autoReturn vpa dt => Sys2Proof.Machine.execAutoReturn vpa dt s
  | .stateTimeout vpa dt => Sys2Proof.Machine.execStateTimeout vpa dt s
  | .fullLock dt => Sys2Proof.Machine.execFullLock dt s
  | .retune dt => Sys2Proof.Machine.execRetune dt s
  | .txEvaluate r busy lbt dt => Sys2Proof.Machine.execTxEvaluate r busy lbt dt s
  | .txHoldRelease busy lbt dt => Sys2Proof.Machine.execTxHoldRelease busy lbt dt s
  | .txAbandon dt => Sys2Proof.Machine.execTxAbandon dt s
  | .txFrameEnd rl fwd ser shu low dt => Sys2Proof.Machine.execTxFrameEnd rl fwd ser shu low dt s
  | .mismatchFault rl fwd dt => Sys2Proof.Machine.execMismatchFault rl fwd dt s
  | .faultHoldExpiry p dt => Sys2Proof.Machine.execFaultHoldExpiry p dt s
  | .calibrationStart kind port dt => Sys2Proof.Machine.execCalibrationStart kind port dt s
  | .calibrationAbandon dt => Sys2Proof.Machine.execCalibrationAbandon dt s
  | .calibrationComplete good dt => Sys2Proof.Machine.execCalibrationComplete good dt s
  | .calibrationOverdue kind port dt => Sys2Proof.Machine.execCalibrationOverdue kind port dt s
  | .dutyBucket dt => Sys2Proof.Machine.execDutyBucket dt s
  | .laneCalibration lane quality converged dt => Sys2Proof.Machine.execLaneCalibration lane quality converged dt s
  | .laneExchange lane dt => Sys2Proof.Machine.execLaneExchange lane dt s
  | .clipOverload powerS powerW dt => Sys2Proof.Machine.execClipOverload powerS powerW dt s
  | .gainStepUp p dt => Sys2Proof.Machine.execGainStepUp p dt s
  | .preambleDetect w bin mode energy again dt => Sys2Proof.Machine.execPreambleDetect w bin mode energy again dt s
  | .candidateExpiry k dt => Sys2Proof.Machine.execCandidateExpiry k dt s
  | .allocation dt => Sys2Proof.Machine.execAllocation dt s
  | .reservationStart k dt => Sys2Proof.Machine.execReservationStart k dt s
  | .reservationLapse d dt => Sys2Proof.Machine.execReservationLapse d dt s
  | .frameDecoded d r room dt => Sys2Proof.Machine.execFrameDecoded d r room dt s
  | .sfdTimeout d dt => Sys2Proof.Machine.execSfdTimeout d dt s
  | .decodeAbandon d reason dt => Sys2Proof.Machine.execDecodeAbandon d reason dt s
  | .timestampMark dt => Sys2Proof.Machine.execTimestampMark dt s
  | .linkFrameCheck ringFull dt => Sys2Proof.Machine.execLinkFrameCheck ringFull dt s
  | .beaconTx m dt => Sys2Proof.Machine.execBeaconTx m dt s
  | .beaconMiss dt => Sys2Proof.Machine.execBeaconMiss dt s
  | .parentReselect dt => Sys2Proof.Machine.execParentReselect dt s
  | .joinReqSend t dt => Sys2Proof.Machine.execJoinReqSend t dt s
  | .joinTimeout dt => Sys2Proof.Machine.execJoinTimeout dt s
  | .connReqSend t dt => Sys2Proof.Machine.execConnReqSend t dt s
  | .connectRetry dt => Sys2Proof.Machine.execConnectRetry dt s
  | .establishTimeout c dt => Sys2Proof.Machine.execEstablishTimeout c dt s
  | .connectionEvent c phase lost dt => Sys2Proof.Machine.execConnectionEvent c phase lost dt s
  | .supervisionTimeout c dt => Sys2Proof.Machine.execSupervisionTimeout c dt s
  | .sequencerFault p dt => Sys2Proof.Machine.execSequencerFault p dt s
  | .leafWakeTimer dt => Sys2Proof.Machine.execLeafWakeTimer dt s
  | .driftRecoveryListen dt => Sys2Proof.Machine.execDriftRecoveryListen dt s
  | .childRecordExpiry k dt => Sys2Proof.Machine.execChildRecordExpiry k dt s
  | .resumeBeacon k dt => Sys2Proof.Machine.execResumeBeacon k dt s
  | .wakePatternSend peer t dt => Sys2Proof.Machine.execWakePatternSend peer t dt s
  | .wakeConnFrame dt => Sys2Proof.Machine.execWakeConnFrame dt s
  | .wakeMatch w dt => Sys2Proof.Machine.execWakeMatch w dt s
  | .wakeRestore dt => Sys2Proof.Machine.execWakeRestore dt s
  | .tcxoStable dt => Sys2Proof.Machine.execTcxoStable dt s
  | .falseWake dt => Sys2Proof.Machine.execFalseWake dt s
  | .relayBackoff k dt => Sys2Proof.Machine.execRelayBackoff k dt s
  | .relayDeadline p k dt => Sys2Proof.Machine.execRelayDeadline p k dt s
  | .seenExpiry k dt => Sys2Proof.Machine.execSeenExpiry k dt s
  | .routeExpiry k dt => Sys2Proof.Machine.execRouteExpiry k dt s
  | .frameSelect p t gap dt => Sys2Proof.Machine.execFrameSelect p t gap dt s
  | .queueAgeScan dt => Sys2Proof.Machine.execQueueAgeScan dt s
  | .negotiate p peerBoth dt => Sys2Proof.Machine.execNegotiate p peerBoth dt s
  | .train p mse polinv dt => Sys2Proof.Machine.execTrain p mse polinv dt s
  | .wiredPhaseTimeout p dt => Sys2Proof.Machine.execWiredPhaseTimeout p dt s
  | .linkLoss p dt => Sys2Proof.Machine.execLinkLoss p dt s
  | .wiredBeaconSilence p dt => Sys2Proof.Machine.execWiredBeaconSilence p dt s
  | .mseMeasurement p mse dt => Sys2Proof.Machine.execMseMeasurement p mse dt s
  | .wiredBeaconSend p dt => Sys2Proof.Machine.execWiredBeaconSend p dt s
  | .wiredFrameReceive p fcsOk frame ringFull dt => Sys2Proof.Machine.execWiredFrameReceive p fcsOk frame ringFull dt s
  | .pdelayReqSend p dt => Sys2Proof.Machine.execPdelayReqSend p dt s
  | .pdelayReqReceive p dt => Sys2Proof.Machine.execPdelayReqReceive p dt s
  | .pdelayRespReceive p dt => Sys2Proof.Machine.execPdelayRespReceive p dt s
  | .followUpReceive p dt => Sys2Proof.Machine.execFollowUpReceive p dt s
  | .pdelayLost p dt => Sys2Proof.Machine.execPdelayLost p dt s
  | .mbReqDoorbell w dt => Sys2Proof.Machine.execMbReqDoorbell w dt s
  | .mbRspWrite w dt => Sys2Proof.Machine.execMbRspWrite w dt s
  | .flush w dt => Sys2Proof.Machine.execFlush w dt s
  | .flushDone m dt => Sys2Proof.Machine.execFlushDone m dt s
  | .recordPost m dt => Sys2Proof.Machine.execRecordPost m dt s
  | .progressRecord m tag dt => Sys2Proof.Machine.execProgressRecord m tag dt s
  | .suspendTimeout m tag dt => Sys2Proof.Machine.execSuspendTimeout m tag dt s
  | .suspend m dt => Sys2Proof.Machine.execSuspend m dt s
  | .resume m dt => Sys2Proof.Machine.execResume m dt s
  | .cancel m dt => Sys2Proof.Machine.execCancel m dt s
  | .opsList m dt => Sys2Proof.Machine.execOpsList m dt s
  | .bufOpen m dt => Sys2Proof.Machine.execBufOpen m dt s
  | .bufWrite m dt => Sys2Proof.Machine.execBufWrite m dt s
  | .bufRead m dt => Sys2Proof.Machine.execBufRead m dt s
  | .bufClose m dt => Sys2Proof.Machine.execBufClose m dt s
  | .sysInfo m dt => Sys2Proof.Machine.execSysInfo m dt s
  | .sysReset m dt => Sys2Proof.Machine.execSysReset m dt s
  | .sysNotify m dt => Sys2Proof.Machine.execSysNotify m dt s
  | .sysPtype m dt => Sys2Proof.Machine.execSysPtype m dt s
  | .netCfgGet m dt => Sys2Proof.Machine.execNetCfgGet m dt s
  | .netCfgSet m dt => Sys2Proof.Machine.execNetCfgSet m dt s
  | .netCfgInstant dt => Sys2Proof.Machine.execNetCfgInstant dt s
  | .netStatus m dt => Sys2Proof.Machine.execNetStatus m dt s
  | .netSend m dt => Sys2Proof.Machine.execNetSend m dt s
  | .linkList m dt => Sys2Proof.Machine.execLinkList m dt s
  | .linkDrop m dt => Sys2Proof.Machine.execLinkDrop m dt s
  | .linkWake m dt => Sys2Proof.Machine.execLinkWake m dt s
  | .timeGet m dt => Sys2Proof.Machine.execTimeGet m dt s
  | .timeSource m dt => Sys2Proof.Machine.execTimeSource m dt s
  | .timeSet m dt => Sys2Proof.Machine.execTimeSet m dt s
  | .lumLevel m dt => Sys2Proof.Machine.execLumLevel m dt s
  | .lumStatus m dt => Sys2Proof.Machine.execLumStatus m dt s
  | .lumSched m dt => Sys2Proof.Machine.execLumSched m dt s
  | .lumFailsafe m dt => Sys2Proof.Machine.execLumFailsafe m dt s
  | .coGroupcmd m dt => Sys2Proof.Machine.execCoGroupcmd m dt s
  | .collectEnd dt => Sys2Proof.Machine.execCollectEnd dt s
  | .coNodes m dt => Sys2Proof.Machine.execCoNodes m dt s
  | .coNode m dt => Sys2Proof.Machine.execCoNode m dt s
  | .coGroups m dt => Sys2Proof.Machine.execCoGroups m dt s
  | .coAdmit m dt => Sys2Proof.Machine.execCoAdmit m dt s
  | .coDispatch m dt => Sys2Proof.Machine.execCoDispatch m dt s
  | .pairStatus m dt => Sys2Proof.Machine.execPairStatus m dt s
  | .pairConfig m dt => Sys2Proof.Machine.execPairConfig m dt s
  | .pairSwitch m dt => Sys2Proof.Machine.execPairSwitch m dt s
  | .storeInfo m dt => Sys2Proof.Machine.execStoreInfo m dt s
  | .storePart m dt => Sys2Proof.Machine.execStorePart m dt s
  | .storePartset m dt => Sys2Proof.Machine.execStorePartset m dt s
  | .storeScrub m outs dt => Sys2Proof.Machine.execStoreScrub m outs dt s
  | .tblLoad m dt => Sys2Proof.Machine.execTblLoad m dt s
  | .tblWriteDone k ok dt => Sys2Proof.Machine.execTblWriteDone k ok dt s
  | .tblInfo m dt => Sys2Proof.Machine.execTblInfo m dt s
  | .tblRead m dt => Sys2Proof.Machine.execTblRead m dt s
  | .tblRevert m dt => Sys2Proof.Machine.execTblRevert m dt s
  | .hltSummary m dt => Sys2Proof.Machine.execHltSummary m dt s
  | .hltRead m dt => Sys2Proof.Machine.execHltRead m dt s
  | .updStatus m dt => Sys2Proof.Machine.execUpdStatus m dt s
  | .updIntake m dt => Sys2Proof.Machine.execUpdIntake m dt s
  | .intakeVerify m tag card dt => Sys2Proof.Machine.execIntakeVerify m tag card dt s
  | .updPush m dt => Sys2Proof.Machine.execUpdPush m dt s
  | .updDistribute m dt => Sys2Proof.Machine.execUpdDistribute m dt s
  | .updActivate m dt => Sys2Proof.Machine.execUpdActivate m dt s
  | .updConfirm m dt => Sys2Proof.Machine.execUpdConfirm m dt s
  | .udf h dt => Sys2Proof.Machine.execUdf h dt s
  | .add h x dt => Sys2Proof.Machine.execAdd h x dt s
  | .adc h x dt => Sys2Proof.Machine.execAdc h x dt s
  | .sub h x dt => Sys2Proof.Machine.execSub h x dt s
  | .sbc h x dt => Sys2Proof.Machine.execSbc h x dt s
  | .cmp h x dt => Sys2Proof.Machine.execCmp h x dt s
  | .and h x dt => Sys2Proof.Machine.execAnd h x dt s
  | .or h x dt => Sys2Proof.Machine.execOr h x dt s
  | .xor h x dt => Sys2Proof.Machine.execXor h x dt s
  | .bic h x dt => Sys2Proof.Machine.execBic h x dt s
  | .tst h x dt => Sys2Proof.Machine.execTst h x dt s
  | .mov h x dt => Sys2Proof.Machine.execMov h x dt s
  | .not h x dt => Sys2Proof.Machine.execNot h x dt s
  | .shl h x dt => Sys2Proof.Machine.execShl h x dt s
  | .shr h x dt => Sys2Proof.Machine.execShr h x dt s
  | .sar h x dt => Sys2Proof.Machine.execSar h x dt s
  | .ror h x dt => Sys2Proof.Machine.execRor h x dt s
  | .mul h x dt => Sys2Proof.Machine.execMul h x dt s
  | .mulh h x dt => Sys2Proof.Machine.execMulh h x dt s
  | .mulhu h x dt => Sys2Proof.Machine.execMulhu h x dt s
  | .div h x dt => Sys2Proof.Machine.execDiv h x dt s
  | .divu h x dt => Sys2Proof.Machine.execDivu h x dt s
  | .rem h x dt => Sys2Proof.Machine.execRem h x dt s
  | .remu h x dt => Sys2Proof.Machine.execRemu h x dt s
  | .min h x dt => Sys2Proof.Machine.execMin h x dt s
  | .max h x dt => Sys2Proof.Machine.execMax h x dt s
  | .minu h x dt => Sys2Proof.Machine.execMinu h x dt s
  | .maxu h x dt => Sys2Proof.Machine.execMaxu h x dt s
  | .movi16 h rd kind imm dt => Sys2Proof.Machine.execMovi16 h rd kind imm dt s
  | .movi32 h rd imm dt => Sys2Proof.Machine.execMovi32 h rd imm dt s
  | .ld h m dt => Sys2Proof.Machine.execLd h m dt s
  | .lds h m dt => Sys2Proof.Machine.execLds h m dt s
  | .st h m dt => Sys2Proof.Machine.execSt h m dt s
  | .pushm h mask dt => Sys2Proof.Machine.execPushm h mask dt s
  | .popm h mask dt => Sys2Proof.Machine.execPopm h mask dt s
  | .br8 h disp dt => Sys2Proof.Machine.execBr8 h disp dt s
  | .br32 h disp dt => Sys2Proof.Machine.execBr32 h disp dt s
  | .bl32 h disp dt => Sys2Proof.Machine.execBl32 h disp dt s
  | .jr h rs link dt => Sys2Proof.Machine.execJr h rs link dt s
  | .movs h dt => Sys2Proof.Machine.execMovs h dt s
  | .fils h dt => Sys2Proof.Machine.execFils h dt s
  | .cmps h dt => Sys2Proof.Machine.execCmps h dt s
  | .scns h dt => Sys2Proof.Machine.execScns h dt s
  | .crcs h dt => Sys2Proof.Machine.execCrcs h dt s
  | .loop h lvl creg reg off count dt => Sys2Proof.Machine.execLoop h lvl creg reg off count dt s
  | .movc h rb dir num dt => Sys2Proof.Machine.execMovc h rb dir num dt s
  | .bar h dt => Sys2Proof.Machine.execBar h dt s
  | .isb h dt => Sys2Proof.Machine.execIsb h dt s
  | .icinv h dt => Sys2Proof.Machine.execIcinv h dt s
  | .svc h imm dt => Sys2Proof.Machine.execSvc h imm dt s
  | .swp h rd base dt => Sys2Proof.Machine.execSwp h rd base dt s
  | .cas h rd base dt => Sys2Proof.Machine.execCas h rd base dt s
  | .xadd h rd base dt => Sys2Proof.Machine.execXadd h rd base dt s
  | .nop h dt => Sys2Proof.Machine.execNop h dt s
  | .brk h imm dt => Sys2Proof.Machine.execBrk h imm dt s
  | .popc h rd rs dt => Sys2Proof.Machine.execPopc h rd rs dt s
  | .clz h rd rs dt => Sys2Proof.Machine.execClz h rd rs dt s
  | .brev h rd rs dt => Sys2Proof.Machine.execBrev h rd rs dt s
  | .bswap h rd rs dt => Sys2Proof.Machine.execBswap h rd rs dt s
  | .bfxu h rd rs pos width dt => Sys2Proof.Machine.execBfxu h rd rs pos width dt s
  | .bfxs h rd rs pos width dt => Sys2Proof.Machine.execBfxs h rd rs pos width dt s
  | .bfi h rd rs pos width dt => Sys2Proof.Machine.execBfi h rd rs pos width dt s
  | .eret h dt => Sys2Proof.Machine.execEret h dt s
  | .wfi h dt => Sys2Proof.Machine.execWfi h dt s
  | .di h dt => Sys2Proof.Machine.execDi h dt s
  | .ei h dt => Sys2Proof.Machine.execEi h dt s
  | .reservedEncoding h esc bytes dt => Sys2Proof.Machine.execReservedEncoding h esc bytes dt s
  | .interruptEntry ini dt => Sys2Proof.Machine.execInterruptEntry ini dt s
  | .impreciseBusError ini dt => Sys2Proof.Machine.execImpreciseBusError ini dt s
  | .bundle c slots bad dt => Sys2Proof.Machine.execBundle c slots bad dt s
  | .kernelPeriod dt => Sys2Proof.Machine.execKernelPeriod dt s
  | .kernelBudgetSuspend waiting dt => Sys2Proof.Machine.execKernelBudgetSuspend waiting dt s
  | .patrolRead arr upsets dt => Sys2Proof.Machine.execPatrolRead arr upsets dt s
  | .rowRefetch k dt => Sys2Proof.Machine.execRowRefetch k dt s
  | .dramCommandIssue upset dt => Sys2Proof.Machine.execDramCommandIssue upset dt s
  | .writeQueueDrain k dt => Sys2Proof.Machine.execWriteQueueDrain k dt s
  | .pageIdleClose bank dt => Sys2Proof.Machine.execPageIdleClose bank dt s
  | .dramRefresh bank dt => Sys2Proof.Machine.execDramRefresh bank dt s
  | .dramTempPoll temp dt => Sys2Proof.Machine.execDramTempPoll temp dt s
  | .dqsMeasure drift dt => Sys2Proof.Machine.execDqsMeasure drift dt s
  | .fullRetrain dt => Sys2Proof.Machine.execFullRetrain dt s
  | .flcDoorbell w dt => Sys2Proof.Machine.execFlcDoorbell w dt s
  | .flcCackWrite w dt => Sys2Proof.Machine.execFlcCackWrite w dt s
  | .flcEnWrite w dt => Sys2Proof.Machine.execFlcEnWrite w dt s
  | .descriptorTake dt => Sys2Proof.Machine.execDescriptorTake dt s
  | .read pl dt => Sys2Proof.Machine.execRead pl dt s
  | .prog pl dt => Sys2Proof.Machine.execProg pl dt s
  | .erase pl dt => Sys2Proof.Machine.execErase pl dt s
  | .load pl dt => Sys2Proof.Machine.execLoad pl dt s
  | .flcNop dt => Sys2Proof.Machine.execFlcNop dt s
  | .eraseSuspend pl dt => Sys2Proof.Machine.execEraseSuspend pl dt s
  | .eraseResume pl dt => Sys2Proof.Machine.execEraseResume pl dt s
  | .codeLoaderRead k o dt => Sys2Proof.Machine.execCodeLoaderRead k o dt s
  | .blockRefresh l fails dt => Sys2Proof.Machine.execBlockRefresh l fails dt s
  | .autoScrub outs dt => Sys2Proof.Machine.execAutoScrub outs dt s
  | .flcXoWrite w dt => Sys2Proof.Machine.execFlcXoWrite w dt s
  | .start w parity dt => Sys2Proof.Machine.execStart w parity dt s
  | .abort w dt => Sys2Proof.Machine.execAbort w dt s
  | .din3Submit w dt => Sys2Proof.Machine.execDin3Submit w dt s
  | .blockEnd fault dt => Sys2Proof.Machine.execBlockEnd fault dt s
  | .keyLoad w dt => Sys2Proof.Machine.execKeyLoad w dt s
  | .keyLoadDone dt => Sys2Proof.Machine.execKeyLoadDone dt s
  | .keyClear w dt => Sys2Proof.Machine.execKeyClear w dt s
  | .ownershipChange w dt => Sys2Proof.Machine.execOwnershipChange w dt s
  | .protLock w dt => Sys2Proof.Machine.execProtLock w dt s
  | .eventDelivery srcs dt => Sys2Proof.Machine.execEventDelivery srcs dt s
  | .softwareFire w dt => Sys2Proof.Machine.execSoftwareFire w dt s
  | .seten w dt => Sys2Proof.Machine.execSeten w dt s
  | .setdis w dt => Sys2Proof.Machine.execSetdis w dt s
  | .timerStart w dt => Sys2Proof.Machine.execTimerStart w dt s
  | .timerApply w dt => Sys2Proof.Machine.execTimerApply w dt s
  | .timerWrap t dt => Sys2Proof.Machine.execTimerWrap t dt s
  | .compareMatch t c dt => Sys2Proof.Machine.execCompareMatch t c dt s
  | .pwmDutyReached t c dt => Sys2Proof.Machine.execPwmDutyReached t c dt s
  | .timerCapture t c rising dt => Sys2Proof.Machine.execTimerCapture t c rising dt s
  | .force w dt => Sys2Proof.Machine.execForce w dt s
  | .capRead w dt => Sys2Proof.Machine.execCapRead w dt s
  | .timerBlockReset w dt => Sys2Proof.Machine.execTimerBlockReset w dt s
  | .secondAdvance dt => Sys2Proof.Machine.execSecondAdvance dt s
  | .rtcTimeRead w dt => Sys2Proof.Machine.execRtcTimeRead w dt s
  | .rtcApply w dt => Sys2Proof.Machine.execRtcApply w dt s
  | .rtcSetCommit dt => Sys2Proof.Machine.execRtcSetCommit dt s
  | .periodicWake dt => Sys2Proof.Machine.execPeriodicWake dt s
  | .wakePeriodWrite w dt => Sys2Proof.Machine.execWakePeriodWrite w dt s
  | .xtalFail dt => Sys2Proof.Machine.execXtalFail dt s
  | .xtalReturn dt => Sys2Proof.Machine.execXtalReturn dt s
  | .spxStart w dt => Sys2Proof.Machine.execSpxStart w dt s
  | .masterFrameEnd n data dt => Sys2Proof.Machine.execMasterFrameEnd n data dt s
  | .slaveFrameStart dt => Sys2Proof.Machine.execSlaveFrameStart dt s
  | .slaveFrameEnd nbits bytes sent dt => Sys2Proof.Machine.execSlaveFrameEnd nbits bytes sent dt s
  | .hostRead cmd idx k dt => Sys2Proof.Machine.execHostRead cmd idx k dt s
  | .spxApply w dt => Sys2Proof.Machine.execSpxApply w dt s
  | .txflush w dt => Sys2Proof.Machine.execTxflush w dt s
  | .rxflush w dt => Sys2Proof.Machine.execRxflush w dt s
  | .dataPush w dt => Sys2Proof.Machine.execDataPush w dt s
  | .dataPop w dt => Sys2Proof.Machine.execDataPop w dt s
  | .voteWrite w dt => Sys2Proof.Machine.execVoteWrite w dt s
  | .entryHandshake n dt => Sys2Proof.Machine.execEntryHandshake n dt s
  | .handshakeRetry n dt => Sys2Proof.Machine.execHandshakeRetry n dt s
  | .delayLimit n dt => Sys2Proof.Machine.execDelayLimit n dt s
  | .entryAbandon n dt => Sys2Proof.Machine.execEntryAbandon n dt s
  | .thawStall ini n dt => Sys2Proof.Machine.execThawStall ini n dt s
  | .thawReady n dt => Sys2Proof.Machine.execThawReady n dt s
  | .thawTimeout ini n dt => Sys2Proof.Machine.execThawTimeout ini n dt s
  | .stopreq w dt => Sys2Proof.Machine.execStopreq w dt s
  | .pfailLow dt => Sys2Proof.Machine.execPfailLow dt s
  | .pfailRetry dt => Sys2Proof.Machine.execPfailRetry dt s
  | .stopEnter dt => Sys2Proof.Machine.execStopEnter dt s
  | .stopExit pfailRise dt => Sys2Proof.Machine.execStopExit pfailRise dt s
  | .stopCoastExit dt => Sys2Proof.Machine.execStopCoastExit dt s
  | .waketWrite w dt => Sys2Proof.Machine.execWaketWrite w dt s
  | .wakeTimerExpiry dt => Sys2Proof.Machine.execWakeTimerExpiry dt s
  | .relatch w dt => Sys2Proof.Machine.execRelatch w dt s
  | .gletyAsleep dt => Sys2Proof.Machine.execGletyAsleep dt s
  | .gletyAwake dt => Sys2Proof.Machine.execGletyAwake dt s
  | .replan ms dt => Sys2Proof.Machine.execReplan ms dt s
  | .temperaturePoll t dt => Sys2Proof.Machine.execTemperaturePoll t dt s
  | .wearEvaluation dt => Sys2Proof.Machine.execWearEvaluation dt s
  | .mirrorLaneCheck lane v dt => Sys2Proof.Machine.execMirrorLaneCheck lane v dt s
  | .heartbeatSend dt => Sys2Proof.Machine.execHeartbeatSend dt s
  | .heartbeatReceive h dt => Sys2Proof.Machine.execHeartbeatReceive h dt s
  | .mirrorWrite a l dt => Sys2Proof.Machine.execMirrorWrite a l dt s
  | .mirFence w dt => Sys2Proof.Machine.execMirFence w dt s
  | .fenceComplete dt => Sys2Proof.Machine.execFenceComplete dt s
  | .mirrorSilence dt => Sys2Proof.Machine.execMirrorSilence dt s
  | .pairBeaconSend dt => Sys2Proof.Machine.execPairBeaconSend dt s
  | .pairBeaconHeard bseq dt => Sys2Proof.Machine.execPairBeaconHeard bseq dt s
  | .takeover dt => Sys2Proof.Machine.execTakeover dt s
  | .startAlone dt => Sys2Proof.Machine.execStartAlone dt s
  | .syncComplete dt => Sys2Proof.Machine.execSyncComplete dt s
  | .switchFence dt => Sys2Proof.Machine.execSwitchFence dt s
  | .plannedSwitch dt => Sys2Proof.Machine.execPlannedSwitch dt s
  | .chunkSend dt => Sys2Proof.Machine.execChunkSend dt s
  | .chunkReceive dt => Sys2Proof.Machine.execChunkReceive dt s
  | .reqTimer dt => Sys2Proof.Machine.execReqTimer dt s
  | .reqReceive dt => Sys2Proof.Machine.execReqReceive dt s
  | .haveReceive dt => Sys2Proof.Machine.execHaveReceive dt s
  | .install fail dt => Sys2Proof.Machine.execInstall fail dt s
  | .activateReceive dt => Sys2Proof.Machine.execActivateReceive dt s
  | .activation dt => Sys2Proof.Machine.execActivation dt s
  | .trialConfirm dt => Sys2Proof.Machine.execTrialConfirm dt s
  | .confwinExpiry dt => Sys2Proof.Machine.execConfwinExpiry dt s
  | .cardTry card dt => Sys2Proof.Machine.execCardTry card dt s
  | .lmpApply dt => Sys2Proof.Machine.execLmpApply dt s
  | .daliSend w dt => Sys2Proof.Machine.execDaliSend w dt s
  | .daliTransmitEnd collision dt => Sys2Proof.Machine.execDaliTransmitEnd collision dt s
  | .backwardFrame data err dt => Sys2Proof.Machine.execBackwardFrame data err dt s
  | .backwardWindowEmpty dt => Sys2Proof.Machine.execBackwardWindowEmpty dt s
  | .busLow low dt => Sys2Proof.Machine.execBusLow low dt s
  | .photoSample uv dt => Sys2Proof.Machine.execPhotoSample uv dt s
  | .meterBlock b dt => Sys2Proof.Machine.execMeterBlock b dt s
  | .midnightCompute dt => Sys2Proof.Machine.execMidnightCompute dt s
  | .scheduleEntry dt => Sys2Proof.Machine.execScheduleEntry dt s
  | .photocellEntry k dt => Sys2Proof.Machine.execPhotocellEntry k dt s
  | .fadeStep dt => Sys2Proof.Machine.execFadeStep dt s
  | .cloUpdate dt => Sys2Proof.Machine.execCloUpdate dt s
  | .daliPoll dt => Sys2Proof.Machine.execDaliPoll dt s
  | .statusReport dt => Sys2Proof.Machine.execStatusReport dt s
  | .meterReport dt => Sys2Proof.Machine.execMeterReport dt s
  | .registrySave dt => Sys2Proof.Machine.execRegistrySave dt s
  | .dispatchResend short dt => Sys2Proof.Machine.execDispatchResend short dt s
  | .extest sample cells dt => Sys2Proof.Machine.execExtest sample cells dt s
  | .samplePreload sample cells dt => Sys2Proof.Machine.execSamplePreload sample cells dt s
  | .idcode dt => Sys2Proof.Machine.execIdcode dt s
  | .highz dt => Sys2Proof.Machine.execHighz dt s
  | .bypass code dt => Sys2Proof.Machine.execBypass code dt s
  | .dbgmem op addr data dt => Sys2Proof.Machine.execDbgmem op addr data dt s
  | .dbgHalt ini dt => Sys2Proof.Machine.execDbgHalt ini dt s
  | .dbgResume ini dt => Sys2Proof.Machine.execDbgResume ini dt s
  | .dbgStep ini dt => Sys2Proof.Machine.execDbgStep ini dt s
  | .sysrst dt => Sys2Proof.Machine.execSysrst dt s
  | .unknownCommand m dt => Sys2Proof.Machine.execUnknownCommand m dt s
  | .flashOperationEnd pl o dt => Sys2Proof.Machine.execFlashOperationEnd pl o dt s
  | .wiredFrameSent p dt => Sys2Proof.Machine.execWiredFrameSent p dt s
  | .fabClockStop dt => Sys2Proof.Machine.execFabClockStop dt s
  | .resetNRelease dt => Sys2Proof.Machine.execResetNRelease dt s
  | .tapReset dt => Sys2Proof.Machine.execTapReset dt s
  | .radioTransitionDone dt => Sys2Proof.Machine.execRadioTransitionDone dt s
  | .domainUp n dt => Sys2Proof.Machine.execDomainUp n dt s
  | .ppsPulseLoss dt => Sys2Proof.Machine.execPpsPulseLoss dt s
  | .tunerWriteBack dt => Sys2Proof.Machine.execTunerWriteBack dt s

end Sys2Proof.Machine
end

