-- ==== Sys2Proof/Safety.lean ====
section
/-!
DEFINITION. What counts as a safe run of the block, in the terms that statements use: the canonical form of its stores, fuses that are only ever blown, a
step that answers a next state, and what a command leaves alone.
-/
namespace Sys2Proof.Machine

/-- Keys strictly rising from `lo`. -/
def keysRiseFrom {α : Type} (lo : Nat) : List (Nat × α) → Bool
  | [] => true
  | (k, _) :: rest => decide (lo ≤ k) && keysRiseFrom (k + 1) rest

/-- Keys strictly rising. -/
def keysRise {α : Type} (l : List (Nat × α)) : Bool := keysRiseFrom 0 l

/-- The register files' keys rise, and memory is in canonical form: equal contents are equal data. -/
def canonical (s : State) : Prop := keysRise s.regs = true ∧ keysRise s.com = true ∧ memWf s.mem = true

/-- `b` is `a` with no fuse changed but revoke fuses, of which none that was blown is whole again (R41, R42, R46, R699). -/
def fusesOnlyBlown (a b : Fuses) : Prop := b = { a with revoked := b.revoked } ∧ a.revoked ||| b.revoked = b.revoked

/-- The command completes: it answers a next state, of which `P` holds. -/
def completes (c : Instr) (s : State) (P : State → Prop) : Prop := ∃ t, exec c s = .next t ∧ P t

/-- Every register field whose key lies outside the addresses from `lo` up to `hi` holds what it held, shadow and committed. -/
def regsOutside (lo hi : Nat) (s t : State) : Prop := ∀ k, k < 32 * lo ∨ 32 * hi ≤ k → look k t.regs = look k s.regs ∧ look k t.com = look k s.com

/-- Every byte of memory reads as it did. -/
def memSame (s t : State) : Prop := ∀ a, memRd t.mem a = memRd s.mem a

/-- A write reaches its target within its step (R29, R637, R776): it is allowed, its parity is good, and its target's domain is On with no write held before it. -/
def writeLands (w : BusReq) (s : State) : Bool :=
  (accessKind s w.ini w.user true false w.addr w.size).1 == 0 && valueKind s w.ini w.user w.addr w.val == 0 && !w.par && (busAsleep s w).isNone &&
    !holdsFor s w.ini (rgnDomain (busTarget s w).1)

/-- A read reaches its target within its step. -/
def readLands (w : BusReq) (s : State) : Bool :=
  (accessKind s w.ini w.user false false w.addr w.size).1 == 0 && !w.par && (busAsleep s w).isNone && !holdsFor s w.ini (rgnDomain (busTarget s w).1)

/-- The value that an initiator's last read of its own gave it. -/
def readGave (ini : Nat) (t : State) : Option Nat := look ini t.rdata

/-- The pieces of the state: one for each field of State. -/
inductive Piece
  | regs | com | pending | elapsed | porAt | freeCtr | mem | fuses | flight | firn | cph | tmrs | rtc | mboxes | heldNotices | health | boots | sysResetAt
  | tables | rfe | rxc | netCfg | msh | evAt | lnk | wpt | par | drc | cores | sig | runner | flc | spx | lmp | lum | co | age | mir | runAt | upd
  | pwr | evt | rdata | mbLast | resetDue | tblJobs | jtag
  deriving DecidableEq, Repr

/-- The piece holds what it held. -/
def Piece.same (s t : State) : Piece → Prop
  | .regs => t.regs = s.regs
  | .com => t.com = s.com
  | .pending => t.pending = s.pending
  | .elapsed => t.elapsed = s.elapsed
  | .porAt => t.porAt = s.porAt
  | .freeCtr => t.freeCtr = s.freeCtr
  | .mem => t.mem = s.mem
  | .fuses => t.fuses = s.fuses
  | .flight => t.flight = s.flight
  | .firn => t.firn = s.firn
  | .cph => t.cph = s.cph
  | .tmrs => t.tmrs = s.tmrs
  | .rtc => t.rtc = s.rtc
  | .mboxes => t.mboxes = s.mboxes
  | .heldNotices => t.heldNotices = s.heldNotices
  | .health => t.health = s.health
  | .boots => t.boots = s.boots
  | .sysResetAt => t.sysResetAt = s.sysResetAt
  | .tables => t.tables = s.tables
  | .rfe => t.rfe = s.rfe
  | .rxc => t.rxc = s.rxc
  | .netCfg => t.netCfg = s.netCfg
  | .msh => t.msh = s.msh
  | .evAt => t.evAt = s.evAt
  | .lnk => t.lnk = s.lnk
  | .wpt => t.wpt = s.wpt
  | .par => t.par = s.par
  | .drc => t.drc = s.drc
  | .cores => t.cores = s.cores
  | .sig => t.sig = s.sig
  | .runner => t.runner = s.runner
  | .flc => t.flc = s.flc
  | .spx => t.spx = s.spx
  | .lmp => t.lmp = s.lmp
  | .lum => t.lum = s.lum
  | .co => t.co = s.co
  | .age => t.age = s.age
  | .mir => t.mir = s.mir
  | .runAt => t.runAt = s.runAt
  | .upd => t.upd = s.upd
  | .pwr => t.pwr = s.pwr
  | .evt => t.evt = s.evt
  | .rdata => t.rdata = s.rdata
  | .mbLast => t.mbLast = s.mbLast
  | .resetDue => t.resetDue = s.resetDue
  | .tblJobs => t.tblJobs = s.tblJobs
  | .jtag => t.jtag = s.jtag

/-- Every register field but those listed reads as it did, shadow and committed. -/
def fieldsOnly (fs : List Field) (s t : State) : Prop := ∀ f, (∀ g ∈ fs, f.key ≠ g.key) → t.rd f = s.rd f ∧ t.rdC f = s.rdC f

/-- Every piece but those listed holds what it held. -/
def partsOnly (ps : List Piece) (s t : State) : Prop := ∀ p, p ∉ ps → p.same s t

/-- The pieces that an instruction which stores nothing may change: its fetch and its loads are bus accesses. -/
def insPieces : List Piece :=
  [.regs, .elapsed, .freeCtr, .flight, .firn, .rtc, .mboxes, .heldNotices, .health, .rfe, .msh, .evAt, .lnk, .par, .drc, .cores, .flc, .spx, .age, .pwr]

/-- The pieces that a write over the bus, or an instruction that stores, may change. -/
def insStorePieces : List Piece :=
  [.regs, .com, .elapsed, .freeCtr, .mem, .flight, .firn, .cph, .tmrs, .rtc, .mboxes, .heldNotices, .health, .rfe, .msh, .evAt, .lnk, .par, .drc, .cores, .sig, .runner, .flc, .spx, .lmp, .lum, .age, .mir, .pwr, .evt]

/-- The pieces that a write of a register or of memory may change. -/
def writePieces : List Piece :=
  [.regs, .com, .elapsed, .freeCtr, .mem, .flight, .firn, .cph, .tmrs, .rtc, .evAt, .lnk, .par, .drc, .cores, .sig, .runner, .flc, .spx, .lmp, .lum, .mir, .pwr, .evt]

/-- The pieces that a reset may change: all but the queue. -/
def resetPieces : List Piece :=
  [.regs, .com, .elapsed, .porAt, .freeCtr, .mem, .fuses, .flight, .firn, .cph, .tmrs, .rtc, .mboxes, .heldNotices, .health, .boots, .sysResetAt, .tables, .rfe, .rxc, .netCfg, .msh, .evAt, .lnk, .wpt, .par, .drc, .cores, .sig, .runner, .flc, .spx, .lmp, .lum, .co, .age, .mir, .runAt, .upd, .pwr, .evt, .rdata, .mbLast, .resetDue, .tblJobs, .jtag]

/-- What each command may change; time passes with every one. -/
def touches : Instr → List Piece
  | .registerWrite _ _ => writePieces
  | .shadowCommit _ _ => [.regs, .com, .elapsed, .firn]
  | .heldWrite _ => [.regs, .com, .elapsed, .freeCtr, .mem, .flight, .firn, .cph, .tmrs, .rtc, .evAt, .lnk, .par, .drc, .sig, .runner, .flc, .spx, .lmp, .lum, .mir, .pwr, .evt]
  | .powerOn _ _ => resetPieces
  | .brownOut _ => resetPieces
  | .backupLoss _ => resetPieces
  | .resetNLow _ => resetPieces
  | .watchdogKick _ => [.elapsed, .firn, .pwr]
  | .watchdogExpiry _ => resetPieces
  | .supply _ => [.regs, .elapsed, .firn]
  | .aonStart _ _ => [.regs, .elapsed, .firn, .pwr]
  | .clocks _ => [.regs, .elapsed, .firn]
  | .tcxoRetry _ => [.elapsed, .firn, .pwr]
  | .fuses _ => [.regs, .elapsed, .firn, .cph, .cores]
  | .repair _ _ _ => [.regs, .elapsed, .firn, .par, .age, .mir]
  | .sramInit _ => [.regs, .elapsed, .mem, .firn, .par]
  | .image _ _ _ => [.regs, .com, .elapsed, .flight, .firn, .tables, .msh, .evAt, .wpt, .lmp, .lum, .upd]
  | .gletyInit _ _ => [.regs, .com, .elapsed, .freeCtr, .mem, .flight, .firn, .mboxes, .heldNotices, .health, .rfe, .rxc, .netCfg, .msh, .lnk, .cores, .sig, .runner, .lmp, .lum, .co, .age, .runAt, .upd, .pwr]
  | .firnTimeLoRead _ _ => [.regs, .elapsed, .freeCtr, .flight, .firn, .rtc, .mboxes, .heldNotices, .health, .par, .drc, .spx, .age, .pwr, .rdata]
  | .holdoverEntry _ => [.regs, .elapsed, .flight, .firn, .mboxes, .heldNotices]
  | .tcxoLoss _ => [.regs, .elapsed, .freeCtr, .flight, .firn, .mboxes, .heldNotices, .health, .rfe, .pwr]
  | .coastLaunch _ _ => [.regs, .elapsed, .flight, .firn]
  | .tcxoReturn _ => [.elapsed, .firn]
  | .coastRestart _ => [.elapsed, .firn]
  | .coastAlign _ => [.regs, .elapsed, .flight, .firn, .mboxes, .heldNotices]
  | .arm _ _ => writePieces
  | .comparatorCommit _ _ => [.regs, .com, .elapsed, .firn]
  | .disarm _ _ => writePieces
  | .match _ _ => [.regs, .elapsed, .firn]
  | .launch _ _ => [.regs, .com, .elapsed, .freeCtr, .mem, .flight, .firn, .tmrs, .evAt, .lnk, .sig, .runner, .lmp, .lum, .pwr, .evt]
  | .captureApply _ _ => writePieces
  | .capture _ _ _ => [.regs, .elapsed, .freeCtr, .flight, .firn, .mboxes, .heldNotices]
  | .captureRead _ _ => [.regs, .elapsed, .freeCtr, .flight, .firn, .rtc, .mboxes, .heldNotices, .health, .par, .drc, .spx, .age, .pwr, .rdata]
  | .coarseOffsetWrite _ => [.regs, .elapsed, .firn]
  | .leapSecond _ => [.elapsed, .firn]
  | .stateRequest _ _ _ _ => [.regs, .elapsed, .flight, .firn, .rfe, .pwr]
  | .autoReturn _ _ => [.regs, .elapsed, .flight, .firn, .rfe, .pwr]
  | .stateTimeout _ _ => [.regs, .elapsed, .flight, .firn, .rfe, .pwr]
  | .fullLock _ => [.regs, .elapsed, .firn, .rfe]
  | .retune _ => [.regs, .elapsed, .firn, .rfe]
  | .txEvaluate _ _ _ _ => [.regs, .elapsed, .flight, .firn, .rfe, .pwr]
  | .txHoldRelease _ _ _ => [.regs, .elapsed, .flight, .firn, .rfe, .pwr]
  | .txAbandon _ => [.regs, .elapsed, .flight, .firn, .rfe]
  | .txFrameEnd _ _ _ _ _ _ => [.regs, .elapsed, .flight, .firn, .mboxes, .heldNotices, .health, .tables, .rfe]
  | .mismatchFault _ _ _ => [.regs, .elapsed, .flight, .firn, .rfe]
  | .faultHoldExpiry _ _ => [.regs, .elapsed, .flight, .firn, .rfe]
  | .calibrationStart _ _ _ => [.regs, .elapsed, .firn, .rfe]
  | .calibrationAbandon _ => [.regs, .elapsed, .firn, .rfe]
  | .calibrationComplete _ _ => [.regs, .elapsed, .flight, .firn, .mboxes, .heldNotices, .health, .rfe]
  | .calibrationOverdue _ _ _ => [.regs, .elapsed, .firn, .rfe]
  | .dutyBucket _ => [.regs, .elapsed, .firn, .rfe]
  | .laneCalibration _ _ _ _ => [.regs, .elapsed, .flight, .firn, .mboxes, .heldNotices, .health, .rxc, .age]
  | .laneExchange _ _ => [.regs, .elapsed, .firn, .rxc]
  | .clipOverload _ _ _ => [.regs, .elapsed, .flight, .firn, .rxc]
  | .gainStepUp _ _ => [.regs, .elapsed, .firn]
  | .preambleDetect _ _ _ _ _ _ => [.regs, .elapsed, .flight, .firn, .rxc]
  | .candidateExpiry _ _ => [.regs, .elapsed, .flight, .firn, .rxc]
  | .allocation _ => [.regs, .elapsed, .firn, .rxc]
  | .reservationStart _ _ => [.regs, .elapsed, .firn, .rxc]
  | .reservationLapse _ _ => [.regs, .elapsed, .firn, .rxc]
  | .frameDecoded _ _ _ _ => [.regs, .elapsed, .flight, .firn, .rfe, .rxc]
  | .sfdTimeout _ _ => [.regs, .elapsed, .firn, .rxc]
  | .decodeAbandon _ _ _ => [.regs, .elapsed, .firn, .rxc]
  | .timestampMark _ => [.elapsed, .firn, .rxc]
  | .linkFrameCheck _ _ => [.regs, .elapsed, .freeCtr, .flight, .firn, .mboxes, .heldNotices, .rfe, .rxc, .msh, .evAt, .lnk, .lmp, .lum, .co, .upd]
  | .beaconTx _ _ => [.regs, .elapsed, .firn, .rfe, .lnk]
  | .beaconMiss _ => [.regs, .elapsed, .flight, .firn, .mboxes, .heldNotices, .rxc, .lnk]
  | .parentReselect _ => [.regs, .elapsed, .flight, .firn, .mboxes, .heldNotices, .rfe, .rxc, .msh, .evAt, .lnk]
  | .joinReqSend _ _ => [.elapsed, .freeCtr, .firn, .rfe, .lnk]
  | .joinTimeout _ => [.elapsed, .freeCtr, .firn, .lnk]
  | .connReqSend _ _ => [.regs, .elapsed, .firn, .rfe, .rxc, .lnk]
  | .connectRetry _ => [.regs, .elapsed, .freeCtr, .flight, .firn, .mboxes, .heldNotices, .rfe, .rxc, .msh, .evAt, .lnk]
  | .establishTimeout _ _ => [.regs, .elapsed, .flight, .firn, .mboxes, .heldNotices, .rfe, .msh, .evAt, .lnk]
  | .connectionEvent _ _ _ _ => [.regs, .elapsed, .flight, .firn, .rfe, .rxc, .msh, .evAt, .lnk]
  | .supervisionTimeout _ _ => [.regs, .elapsed, .flight, .firn, .mboxes, .heldNotices, .rfe, .msh, .evAt, .lnk]
  | .sequencerFault _ _ => [.regs, .elapsed, .flight, .firn, .mboxes, .heldNotices, .health, .rfe, .msh, .evAt, .lnk, .cores, .age]
  | .leafWakeTimer _ => [.regs, .elapsed, .flight, .firn, .pwr]
  | .driftRecoveryListen _ => [.regs, .elapsed, .flight, .firn, .rfe, .lnk, .pwr]
  | .childRecordExpiry _ _ => [.elapsed, .firn, .lnk]
  | .resumeBeacon _ _ => [.regs, .elapsed, .firn, .rfe, .lnk]
  | .wakePatternSend _ _ _ => [.elapsed, .firn, .rfe, .lnk]
  | .wakeConnFrame _ => [.regs, .elapsed, .firn, .mboxes, .rfe, .rxc, .lnk]
  | .wakeMatch _ _ => [.regs, .elapsed, .flight, .firn, .lnk, .pwr]
  | .wakeRestore _ => [.regs, .elapsed, .flight, .firn, .msh, .cores, .sig, .pwr]
  | .tcxoStable _ => [.regs, .elapsed, .flight, .firn, .msh, .cores, .sig, .pwr]
  | .falseWake _ => [.regs, .elapsed, .flight, .firn, .rfe, .lnk, .pwr]
  | .relayBackoff _ _ => [.regs, .elapsed, .flight, .firn, .msh, .evAt]
  | .relayDeadline _ _ _ => [.regs, .elapsed, .flight, .firn, .msh, .evAt]
  | .seenExpiry _ _ => [.regs, .elapsed, .flight, .firn, .msh, .evAt]
  | .routeExpiry _ _ => [.regs, .elapsed, .flight, .firn, .msh, .evAt]
  | .frameSelect _ _ _ _ => [.regs, .elapsed, .freeCtr, .flight, .firn, .rfe, .msh, .evAt, .wpt]
  | .queueAgeScan _ => [.regs, .elapsed, .flight, .firn, .msh, .evAt]
  | .negotiate _ _ _ => [.regs, .elapsed, .firn, .wpt]
  | .train _ _ _ _ => [.regs, .elapsed, .freeCtr, .flight, .firn, .wpt]
  | .wiredPhaseTimeout _ _ => [.regs, .elapsed, .flight, .firn, .msh, .evAt, .wpt]
  | .linkLoss _ _ => [.regs, .elapsed, .flight, .firn, .msh, .evAt, .wpt]
  | .wiredBeaconSilence _ _ => [.regs, .elapsed, .flight, .firn, .msh, .evAt, .wpt]
  | .mseMeasurement _ _ _ => [.regs, .elapsed, .flight, .firn, .msh, .evAt, .wpt]
  | .wiredBeaconSend _ _ => [.elapsed, .firn, .wpt]
  | .wiredFrameReceive _ _ _ _ _ => [.regs, .elapsed, .freeCtr, .flight, .firn, .mboxes, .heldNotices, .rfe, .msh, .evAt, .lnk, .wpt, .lmp, .lum, .co, .upd]
  | .pdelayReqSend _ _ => [.elapsed, .firn, .wpt]
  | .pdelayReqReceive _ _ => [.elapsed, .firn, .wpt]
  | .pdelayRespReceive _ _ => [.elapsed, .firn, .wpt]
  | .followUpReceive _ _ => [.regs, .elapsed, .freeCtr, .flight, .firn, .mboxes, .heldNotices, .wpt]
  | .pdelayLost _ _ => [.regs, .elapsed, .flight, .firn, .wpt]
  | .mbReqDoorbell _ _ => writePieces
  | .mbRspWrite _ _ => writePieces
  | .flush _ _ => writePieces
  | .flushDone _ _ => [.regs, .elapsed, .firn, .mboxes, .lnk, .co, .mir, .upd, .tblJobs]
  | .recordPost _ _ => [.regs, .elapsed, .mem, .flight, .firn, .mboxes]
  | .progressRecord _ _ _ => [.regs, .elapsed, .firn, .mboxes]
  | .suspendTimeout _ _ _ => [.regs, .elapsed, .firn, .mboxes, .lnk, .co, .mir, .upd]
  | .suspend _ _ => [.regs, .elapsed, .flight, .firn, .mboxes, .mbLast]
  | .resume _ _ => [.regs, .elapsed, .flight, .firn, .mboxes, .msh, .evAt, .co, .mbLast]
  | .cancel _ _ => [.regs, .elapsed, .flight, .firn, .mboxes, .lnk, .co, .mir, .upd, .mbLast]
  | .opsList _ _ => [.regs, .elapsed, .flight, .firn, .mboxes, .mbLast]
  | .bufOpen _ _ => [.regs, .elapsed, .freeCtr, .flight, .firn, .mboxes, .mbLast]
  | .bufWrite _ _ => [.regs, .elapsed, .flight, .firn, .mboxes, .mbLast]
  | .bufRead _ _ => [.regs, .elapsed, .flight, .firn, .mboxes, .mbLast]
  | .bufClose _ _ => [.regs, .elapsed, .flight, .firn, .mboxes, .mbLast]
  | .sysInfo _ _ => [.regs, .elapsed, .flight, .firn, .mboxes, .mbLast]
  | .sysReset _ _ => resetPieces
  | .sysNotify _ _ => [.regs, .elapsed, .flight, .firn, .mboxes, .mbLast]
  | .sysPtype _ _ => [.regs, .elapsed, .flight, .firn, .mboxes, .mbLast]
  | .netCfgGet _ _ => [.regs, .elapsed, .flight, .firn, .mboxes, .mbLast]
  | .netCfgSet _ _ => [.regs, .elapsed, .flight, .firn, .mboxes, .heldNotices, .rxc, .netCfg, .msh, .lnk, .mbLast]
  | .netCfgInstant _ => [.regs, .elapsed, .firn, .mboxes, .heldNotices, .rxc, .netCfg, .msh, .lnk]
  | .netStatus _ _ => [.regs, .elapsed, .flight, .firn, .mboxes, .mbLast]
  | .netSend _ _ => [.regs, .elapsed, .freeCtr, .flight, .firn, .mboxes, .heldNotices, .rfe, .msh, .evAt, .lnk, .lmp, .lum, .co, .upd, .mbLast]
  | .linkList _ _ => [.regs, .elapsed, .flight, .firn, .mboxes, .mbLast]
  | .linkDrop _ _ => [.regs, .elapsed, .flight, .firn, .mboxes, .heldNotices, .rfe, .msh, .evAt, .lnk, .mbLast]
  | .linkWake _ _ => [.regs, .elapsed, .flight, .firn, .mboxes, .lnk, .mbLast]
  | .timeGet _ _ => [.regs, .elapsed, .flight, .firn, .mboxes, .mbLast]
  | .timeSource _ _ => [.regs, .com, .elapsed, .flight, .firn, .mboxes, .mbLast]
  | .timeSet _ _ => [.regs, .elapsed, .flight, .firn, .mboxes, .heldNotices, .mbLast]
  | .lumLevel _ _ => [.regs, .elapsed, .freeCtr, .flight, .firn, .mboxes, .lnk, .lmp, .lum, .mbLast]
  | .lumStatus _ _ => [.regs, .elapsed, .flight, .firn, .mboxes, .lum, .mbLast]
  | .lumSched _ _ => [.regs, .elapsed, .freeCtr, .flight, .firn, .mboxes, .lmp, .lum, .mbLast]
  | .lumFailsafe _ _ => [.regs, .elapsed, .flight, .firn, .mboxes, .lmp, .lum, .mbLast]
  | .coGroupcmd _ _ => [.regs, .elapsed, .flight, .firn, .mboxes, .msh, .evAt, .co, .mbLast]
  | .collectEnd _ => [.elapsed, .firn, .mboxes, .co]
  | .coNodes _ _ => [.regs, .elapsed, .flight, .firn, .mboxes, .mbLast]
  | .coNode _ _ => [.regs, .elapsed, .flight, .firn, .mboxes, .mbLast]
  | .coGroups _ _ => [.regs, .elapsed, .flight, .firn, .mboxes, .msh, .evAt, .co, .mbLast]
  | .coAdmit _ _ => [.regs, .elapsed, .flight, .firn, .mboxes, .co, .mbLast]
  | .coDispatch _ _ => [.regs, .elapsed, .flight, .firn, .mboxes, .msh, .evAt, .co, .mbLast]
  | .pairStatus _ _ => [.regs, .elapsed, .flight, .firn, .mboxes, .mbLast]
  | .pairConfig _ _ => [.regs, .elapsed, .flight, .firn, .mboxes, .mir, .mbLast]
  | .pairSwitch _ _ => [.regs, .elapsed, .flight, .firn, .mboxes, .mir, .mbLast]
  | .storeInfo _ _ => [.regs, .elapsed, .flight, .firn, .mboxes, .mbLast]
  | .storePart _ _ => [.regs, .elapsed, .flight, .firn, .mboxes, .mbLast]
  | .storePartset _ _ => [.regs, .elapsed, .flight, .firn, .mboxes, .flc, .mbLast]
  | .storeScrub _ _ _ => [.regs, .elapsed, .flight, .firn, .mboxes, .heldNotices, .health, .flc, .age, .mbLast]
  | .tblLoad _ _ => [.regs, .elapsed, .flight, .firn, .mboxes, .mbLast, .tblJobs]
  | .tblWriteDone _ _ _ => [.regs, .com, .elapsed, .flight, .firn, .mboxes, .tables, .msh, .evAt, .wpt, .lmp, .lum, .tblJobs]
  | .tblInfo _ _ => [.regs, .elapsed, .flight, .firn, .mboxes, .mbLast]
  | .tblRead _ _ => [.regs, .elapsed, .flight, .firn, .mboxes, .mbLast]
  | .tblRevert _ _ => [.regs, .elapsed, .flight, .firn, .mboxes, .mbLast, .tblJobs]
  | .hltSummary _ _ => [.regs, .elapsed, .flight, .firn, .mboxes, .mbLast]
  | .hltRead _ _ => [.regs, .elapsed, .flight, .firn, .mboxes, .mbLast]
  | .updStatus _ _ => [.regs, .elapsed, .flight, .firn, .mboxes, .mbLast]
  | .updIntake _ _ => [.regs, .elapsed, .flight, .firn, .mboxes, .mbLast]
  | .intakeVerify _ _ _ _ => [.regs, .elapsed, .fuses, .flight, .firn, .mboxes, .heldNotices, .upd]
  | .updPush _ _ => [.regs, .elapsed, .flight, .firn, .mboxes, .mbLast]
  | .updDistribute _ _ => [.regs, .elapsed, .flight, .firn, .mboxes, .msh, .evAt, .upd, .mbLast]
  | .updActivate _ _ => [.regs, .elapsed, .flight, .firn, .mboxes, .heldNotices, .msh, .evAt, .upd, .mbLast]
  | .updConfirm _ _ => [.regs, .elapsed, .flight, .firn, .mboxes, .upd, .mbLast]
  | .udf _ _ => insPieces
  | .add _ _ _ => insPieces
  | .adc _ _ _ => insPieces
  | .sub _ _ _ => insPieces
  | .sbc _ _ _ => insPieces
  | .cmp _ _ _ => insPieces
  | .and _ _ _ => insPieces
  | .or _ _ _ => insPieces
  | .xor _ _ _ => insPieces
  | .bic _ _ _ => insPieces
  | .tst _ _ _ => insPieces
  | .mov _ _ _ => insPieces
  | .not _ _ _ => insPieces
  | .shl _ _ _ => insPieces
  | .shr _ _ _ => insPieces
  | .sar _ _ _ => insPieces
  | .ror _ _ _ => insPieces
  | .mul _ _ _ => insPieces
  | .mulh _ _ _ => insPieces
  | .mulhu _ _ _ => insPieces
  | .div _ _ _ => insPieces
  | .divu _ _ _ => insPieces
  | .rem _ _ _ => insPieces
  | .remu _ _ _ => insPieces
  | .min _ _ _ => insPieces
  | .max _ _ _ => insPieces
  | .minu _ _ _ => insPieces
  | .maxu _ _ _ => insPieces
  | .movi16 _ _ _ _ _ => insPieces
  | .movi32 _ _ _ _ => insPieces
  | .ld _ _ _ => insPieces
  | .lds _ _ _ => insPieces
  | .st _ _ _ => insStorePieces
  | .pushm _ _ _ => insStorePieces
  | .popm _ _ _ => insPieces
  | .br8 _ _ _ => insPieces
  | .br32 _ _ _ => insPieces
  | .bl32 _ _ _ => insPieces
  | .jr _ _ _ _ => insPieces
  | .movs _ _ => insStorePieces
  | .fils _ _ => insStorePieces
  | .cmps _ _ => insPieces
  | .scns _ _ => insPieces
  | .crcs _ _ => insPieces
  | .loop _ _ _ _ _ _ _ => insPieces
  | .movc _ _ _ _ _ => insPieces
  | .bar _ _ => insPieces
  | .isb _ _ => insPieces
  | .icinv _ _ => insPieces
  | .svc _ _ _ => insPieces
  | .swp _ _ _ _ => insStorePieces
  | .cas _ _ _ _ => insStorePieces
  | .xadd _ _ _ _ => insStorePieces
  | .nop _ _ => insPieces
  | .brk _ _ _ => insPieces
  | .popc _ _ _ _ => insPieces
  | .clz _ _ _ _ => insPieces
  | .brev _ _ _ _ => insPieces
  | .bswap _ _ _ _ => insPieces
  | .bfxu _ _ _ _ _ _ => insPieces
  | .bfxs _ _ _ _ _ _ => insPieces
  | .bfi _ _ _ _ _ _ => insPieces
  | .eret _ _ => insPieces
  | .wfi _ _ => insPieces
  | .di _ _ => insPieces
  | .ei _ _ => insPieces
  | .reservedEncoding _ _ _ _ => insPieces
  | .interruptEntry _ _ => [.elapsed, .freeCtr, .mem, .flight, .firn, .cores, .sig, .runner]
  | .impreciseBusError _ _ => [.elapsed, .freeCtr, .mem, .flight, .firn, .cores, .sig, .runner]
  | .bundle _ _ _ _ => [.regs, .com, .elapsed, .freeCtr, .mem, .flight, .firn, .cph, .tmrs, .rtc, .mboxes, .heldNotices, .health, .evAt, .lnk, .par, .drc, .cores, .sig, .runner, .flc, .spx, .lmp, .lum, .age, .mir, .pwr, .evt]
  | .kernelPeriod _ => [.elapsed, .mem, .firn, .sig, .runner]
  | .kernelBudgetSuspend _ _ => [.elapsed, .firn, .sig, .runner]
  | .patrolRead _ _ _ => [.regs, .elapsed, .flight, .firn, .mboxes, .heldNotices, .health, .par, .age]
  | .rowRefetch _ _ => [.regs, .elapsed, .mem, .firn, .par, .flc]
  | .dramCommandIssue _ _ => [.regs, .elapsed, .mem, .flight, .firn, .drc]
  | .writeQueueDrain _ _ => [.regs, .elapsed, .mem, .firn, .drc]
  | .pageIdleClose _ _ => [.elapsed, .firn, .drc]
  | .dramRefresh _ _ => [.elapsed, .firn, .drc]
  | .dramTempPoll _ _ => [.regs, .elapsed, .freeCtr, .flight, .firn, .mboxes, .heldNotices, .health, .drc]
  | .dqsMeasure _ _ => [.regs, .elapsed, .firn, .drc]
  | .fullRetrain _ => [.regs, .elapsed, .flight, .firn, .drc]
  | .flcDoorbell _ _ => writePieces
  | .flcCackWrite _ _ => writePieces
  | .flcEnWrite _ _ => writePieces
  | .descriptorTake _ => [.regs, .elapsed, .mem, .flight, .firn, .mboxes, .heldNotices, .health, .par, .drc, .flc, .age]
  | .read _ _ => [.regs, .elapsed, .mem, .flight, .firn, .par, .drc, .flc]
  | .prog _ _ => [.regs, .elapsed, .mem, .flight, .firn, .par, .drc, .flc]
  | .erase _ _ => [.regs, .elapsed, .mem, .flight, .firn, .par, .drc, .flc]
  | .load _ _ => [.regs, .elapsed, .mem, .flight, .firn, .par, .drc, .flc]
  | .flcNop _ => [.regs, .elapsed, .mem, .flight, .firn, .par, .drc, .flc]
  | .eraseSuspend _ _ => [.regs, .elapsed, .firn, .flc]
  | .eraseResume _ _ => [.regs, .elapsed, .firn, .flc]
  | .codeLoaderRead _ _ _ => [.regs, .elapsed, .flight, .firn, .mboxes, .heldNotices, .health, .flc]
  | .blockRefresh _ _ _ => [.regs, .elapsed, .flight, .firn, .mboxes, .heldNotices, .health, .flc, .age]
  | .autoScrub _ _ => [.regs, .elapsed, .flight, .firn, .mboxes, .heldNotices, .health, .flc, .age]
  | .flcXoWrite _ _ => writePieces
  | .start _ _ _ => writePieces
  | .abort _ _ => writePieces
  | .din3Submit _ _ => writePieces
  | .blockEnd _ _ => [.regs, .elapsed, .flight, .firn, .cph]
  | .keyLoad _ _ => writePieces
  | .keyLoadDone _ => [.regs, .elapsed, .flight, .firn, .cph]
  | .keyClear _ _ => writePieces
  | .ownershipChange _ _ => writePieces
  | .protLock _ _ => writePieces
  | .eventDelivery _ _ => [.regs, .com, .elapsed, .freeCtr, .mem, .flight, .firn, .tmrs, .evAt, .lnk, .sig, .runner, .lmp, .lum, .pwr, .evt]
  | .softwareFire _ _ => writePieces
  | .seten _ _ => writePieces
  | .setdis _ _ => writePieces
  | .timerStart _ _ => writePieces
  | .timerApply _ _ => writePieces
  | .timerWrap _ _ => [.regs, .com, .elapsed, .flight, .firn, .tmrs]
  | .compareMatch _ _ _ => [.regs, .elapsed, .flight, .firn, .tmrs]
  | .pwmDutyReached _ _ _ => [.regs, .elapsed, .flight, .firn, .tmrs]
  | .timerCapture _ _ _ _ => [.regs, .elapsed, .flight, .firn, .tmrs]
  | .force _ _ => writePieces
  | .capRead _ _ => [.regs, .elapsed, .freeCtr, .flight, .firn, .rtc, .mboxes, .heldNotices, .health, .par, .drc, .spx, .age, .pwr, .rdata]
  | .timerBlockReset _ _ => writePieces
  | .secondAdvance _ => [.regs, .elapsed, .flight, .firn, .rtc]
  | .rtcTimeRead _ _ => [.regs, .elapsed, .freeCtr, .flight, .firn, .rtc, .mboxes, .heldNotices, .health, .par, .drc, .spx, .age, .pwr, .rdata]
  | .rtcApply _ _ => writePieces
  | .rtcSetCommit _ => [.regs, .com, .elapsed, .flight, .firn, .rtc]
  | .periodicWake _ => [.regs, .elapsed, .flight, .firn, .rtc]
  | .wakePeriodWrite _ _ => writePieces
  | .xtalFail _ => [.regs, .elapsed, .flight, .firn, .rtc]
  | .xtalReturn _ => [.regs, .elapsed, .firn, .rtc]
  | .spxStart _ _ => writePieces
  | .masterFrameEnd _ _ _ => [.regs, .com, .elapsed, .flight, .firn, .spx]
  | .slaveFrameStart _ => [.regs, .elapsed, .firn, .spx]
  | .slaveFrameEnd _ _ _ _ => resetPieces
  | .hostRead _ _ _ _ => [.regs, .elapsed, .freeCtr, .flight, .firn, .rtc, .mboxes, .heldNotices, .health, .par, .drc, .spx, .age, .pwr, .rdata]
  | .spxApply _ _ => writePieces
  | .txflush _ _ => writePieces
  | .rxflush _ _ => writePieces
  | .dataPush _ _ => writePieces
  | .dataPop _ _ => [.regs, .elapsed, .freeCtr, .flight, .firn, .rtc, .mboxes, .heldNotices, .health, .par, .drc, .spx, .age, .pwr, .rdata]
  | .voteWrite _ _ => writePieces
  | .entryHandshake _ _ => [.regs, .com, .elapsed, .mem, .flight, .firn, .cph, .tmrs, .mboxes, .heldNotices, .msh, .evAt, .wpt, .cores, .sig, .runner, .flc, .spx, .lmp, .pwr, .evt]
  | .handshakeRetry _ _ => [.regs, .com, .elapsed, .mem, .flight, .firn, .cph, .tmrs, .mboxes, .heldNotices, .msh, .evAt, .wpt, .cores, .sig, .runner, .flc, .spx, .lmp, .pwr, .evt]
  | .delayLimit _ _ => [.regs, .elapsed, .flight, .firn, .pwr]
  | .entryAbandon _ _ => [.regs, .elapsed, .flight, .firn, .pwr]
  | .thawStall _ _ _ => [.regs, .elapsed, .firn, .pwr]
  | .thawReady _ _ => [.regs, .elapsed, .flight, .firn, .msh, .cores, .sig, .pwr]
  | .thawTimeout _ _ _ => [.regs, .elapsed, .firn, .cores, .sig, .pwr]
  | .stopreq _ _ => writePieces
  | .pfailLow _ => [.regs, .elapsed, .firn, .pwr]
  | .pfailRetry _ => [.regs, .elapsed, .firn, .pwr]
  | .stopEnter _ => [.regs, .elapsed, .flight, .firn, .mboxes, .heldNotices, .msh, .evAt, .wpt, .cores, .sig, .pwr]
  | .stopExit _ _ => [.regs, .elapsed, .firn, .cores, .sig, .pwr]
  | .stopCoastExit _ => [.regs, .elapsed, .flight, .firn, .pwr]
  | .waketWrite _ _ => writePieces
  | .wakeTimerExpiry _ => [.regs, .elapsed, .flight, .firn, .pwr]
  | .relatch _ _ => writePieces
  | .gletyAsleep _ => [.regs, .elapsed, .flight, .firn, .rfe, .pwr]
  | .gletyAwake _ => [.regs, .elapsed, .flight, .firn, .pwr]
  | .replan _ _ => [.regs, .elapsed, .flight, .firn, .mboxes, .heldNotices, .health, .cores, .sig, .age]
  | .temperaturePoll _ _ => [.regs, .elapsed, .flight, .firn, .mboxes, .heldNotices, .health, .age]
  | .wearEvaluation _ => [.regs, .elapsed, .flight, .firn, .mboxes, .heldNotices, .health, .flc, .age]
  | .mirrorLaneCheck _ _ _ => [.regs, .elapsed, .flight, .firn, .mboxes, .heldNotices, .health, .age, .mir]
  | .heartbeatSend _ => [.regs, .elapsed, .firn, .mir]
  | .heartbeatReceive _ _ => [.regs, .elapsed, .freeCtr, .flight, .firn, .mboxes, .heldNotices, .health, .rfe, .mir]
  | .mirrorWrite _ _ _ => [.regs, .elapsed, .mem, .firn, .mir]
  | .mirFence _ _ => writePieces
  | .fenceComplete _ => [.regs, .elapsed, .firn, .mir]
  | .mirrorSilence _ => [.regs, .elapsed, .flight, .firn, .mboxes, .heldNotices, .health, .mir]
  | .pairBeaconSend _ => [.regs, .elapsed, .firn, .rfe, .mir]
  | .pairBeaconHeard _ _ => [.regs, .elapsed, .flight, .firn, .mboxes, .heldNotices, .rfe, .mir]
  | .takeover _ => [.regs, .elapsed, .flight, .firn, .mboxes, .heldNotices, .health, .msh, .lnk, .lum, .mir]
  | .startAlone _ => [.regs, .elapsed, .flight, .firn, .mboxes, .heldNotices, .health, .mir]
  | .syncComplete _ => [.regs, .elapsed, .flight, .firn, .mboxes, .heldNotices, .mir]
  | .switchFence _ => [.elapsed, .firn, .mir]
  | .plannedSwitch _ => [.regs, .elapsed, .flight, .firn, .mboxes, .heldNotices, .health, .mir]
  | .chunkSend _ => [.regs, .elapsed, .flight, .firn, .msh, .evAt, .upd]
  | .chunkReceive _ => [.elapsed, .firn, .upd]
  | .reqTimer _ => [.regs, .elapsed, .flight, .firn, .msh, .evAt, .upd]
  | .reqReceive _ => [.regs, .elapsed, .flight, .firn, .msh, .evAt, .upd]
  | .haveReceive _ => [.elapsed, .firn, .mboxes, .upd]
  | .install _ _ => [.regs, .elapsed, .fuses, .flight, .firn, .mboxes, .heldNotices, .msh, .evAt, .upd]
  | .activateReceive _ => [.regs, .elapsed, .flight, .firn, .mboxes, .heldNotices, .upd]
  | .activation _ => resetPieces
  | .trialConfirm _ => [.regs, .elapsed, .flight, .firn, .mboxes, .heldNotices, .upd]
  | .confwinExpiry _ => resetPieces
  | .cardTry _ _ => resetPieces
  | .lmpApply _ => [.regs, .com, .elapsed, .firn]
  | .daliSend _ _ => writePieces
  | .daliTransmitEnd _ _ => [.regs, .elapsed, .flight, .firn, .lmp, .lum]
  | .backwardFrame _ _ _ => [.regs, .elapsed, .flight, .firn, .mboxes, .heldNotices, .lmp, .lum]
  | .backwardWindowEmpty _ => [.regs, .elapsed, .flight, .firn, .mboxes, .heldNotices, .lmp, .lum]
  | .busLow _ _ => [.regs, .elapsed, .flight, .firn, .mboxes, .heldNotices, .lum]
  | .photoSample _ _ => [.regs, .elapsed, .firn, .lmp, .lum]
  | .meterBlock _ _ => [.regs, .elapsed, .freeCtr, .flight, .firn, .mboxes, .heldNotices, .lmp, .lum]
  | .midnightCompute _ => [.regs, .elapsed, .firn, .lum]
  | .scheduleEntry _ => [.regs, .elapsed, .freeCtr, .firn, .lnk, .lmp, .lum]
  | .photocellEntry _ _ => [.regs, .elapsed, .freeCtr, .firn, .lmp, .lum]
  | .fadeStep _ => [.regs, .elapsed, .freeCtr, .firn, .lmp, .lum]
  | .cloUpdate _ => [.regs, .elapsed, .firn, .lmp, .lum]
  | .daliPoll _ => [.regs, .elapsed, .flight, .firn, .mboxes, .heldNotices, .lmp, .lum]
  | .statusReport _ => [.regs, .elapsed, .flight, .firn, .msh, .evAt, .lum]
  | .meterReport _ => [.regs, .elapsed, .flight, .firn, .msh, .evAt, .lum]
  | .registrySave _ => [.elapsed, .firn, .co]
  | .dispatchResend _ _ => [.regs, .elapsed, .flight, .firn, .mboxes, .msh, .evAt, .co]
  | .extest _ _ _ => [.elapsed, .firn, .jtag]
  | .samplePreload _ _ _ => [.elapsed, .firn, .jtag]
  | .idcode _ => [.elapsed, .firn, .jtag]
  | .highz _ => [.elapsed, .firn, .jtag]
  | .bypass _ _ => [.elapsed, .firn, .jtag]
  | .dbgmem _ _ _ _ => [.regs, .com, .elapsed, .freeCtr, .mem, .flight, .firn, .cph, .tmrs, .rtc, .mboxes, .heldNotices, .health, .evAt, .lnk, .par, .drc, .sig, .runner, .flc, .spx, .lmp, .lum, .age, .mir, .pwr, .evt, .jtag]
  | .dbgHalt _ _ => [.elapsed, .firn, .cores, .jtag]
  | .dbgResume _ _ => [.elapsed, .firn, .cores, .jtag]
  | .dbgStep _ _ => [.elapsed, .firn, .cores, .jtag]
  | .sysrst _ => resetPieces
  | .unknownCommand _ _ => [.regs, .elapsed, .flight, .firn, .mboxes, .mbLast]
  | .flashOperationEnd _ _ _ => [.regs, .elapsed, .mem, .flight, .firn, .mboxes, .heldNotices, .health, .par, .drc, .flc, .age]
  | .wiredFrameSent _ _ => [.regs, .elapsed, .firn, .wpt]
  | .fabClockStop _ => [.elapsed, .firn, .pwr]
  | .resetNRelease _ => [.elapsed, .firn, .pwr]
  | .tapReset _ => [.elapsed, .firn, .jtag]
  | .radioTransitionDone _ => [.regs, .elapsed, .firn, .rfe, .rxc]
  | .domainUp _ _ => [.regs, .elapsed, .flight, .firn, .msh, .cores, .sig, .pwr]
  | .ppsPulseLoss _ => [.elapsed, .firn]
  | .tunerWriteBack _ => [.elapsed, .firn, .tables, .rfe]

/-- The whole frame: nothing changes from `s` to `t` but the register fields and the pieces listed. -/
def changesOnly (fs : List Field) (ps : List Piece) (s t : State) : Prop := fieldsOnly fs s t ∧ partsOnly (.regs :: .com :: ps) s t

/-! ### Mailbox commands (R334, R337, R344, R345) -/

/-- A command of fixed length: its mailbox, its code, its payload's length, whether it is long, and the time that passes. -/
def mbRequest : Instr → Option (Nat × Nat × Nat × Bool × Nat)
  | .suspend m dt => some (m, 0x0001, 2, false, dt)
  | .resume m dt => some (m, 0x0002, 2, false, dt)
  | .cancel m dt => some (m, 0x0003, 2, false, dt)
  | .opsList m dt => some (m, 0x0004, 0, false, dt)
  | .bufOpen m dt => some (m, 0x0010, 4, false, dt)
  | .bufRead m dt => some (m, 0x0012, 6, false, dt)
  | .bufClose m dt => some (m, 0x0013, 1, false, dt)
  | .sysInfo m dt => some (m, 0x0100, 0, false, dt)
  | .sysNotify m dt => some (m, 0x0102, 4, false, dt)
  | .sysPtype m dt => some (m, 0x0103, 2, false, dt)
  | .netCfgGet m dt => some (m, 0x0200, 1, false, dt)
  | .netCfgSet m dt => some (m, 0x0201, 16, true, dt)
  | .netStatus m dt => some (m, 0x0202, 0, false, dt)
  | .linkList m dt => some (m, 0x0300, 1, false, dt)
  | .linkDrop m dt => some (m, 0x0301, 2, false, dt)
  | .linkWake m dt => some (m, 0x0302, 2, true, dt)
  | .timeGet m dt => some (m, 0x0400, 0, false, dt)
  | .timeSource m dt => some (m, 0x0401, 12, false, dt)
  | .timeSet m dt => some (m, 0x0402, 16, false, dt)
  | .lumLevel m dt => some (m, 0x0500, 16, false, dt)
  | .lumStatus m dt => some (m, 0x0501, 0, false, dt)
  | .lumSched m dt => some (m, 0x0502, 1, true, dt)
  | .lumFailsafe m dt => some (m, 0x0503, 2, false, dt)
  | .coGroupcmd m dt => some (m, 0x0600, 16, true, dt)
  | .coNodes m dt => some (m, 0x0601, 2, false, dt)
  | .coNode m dt => some (m, 0x0602, 2, false, dt)
  | .coAdmit m dt => some (m, 0x0604, 9, false, dt)
  | .coDispatch m dt => some (m, 0x0605, 3, true, dt)
  | .pairStatus m dt => some (m, 0x0A00, 0, false, dt)
  | .pairConfig m dt => some (m, 0x0A01, 1, false, dt)
  | .pairSwitch m dt => some (m, 0x0A02, 8, true, dt)
  | .storeInfo m dt => some (m, 0x0700, 0, false, dt)
  | .storePart m dt => some (m, 0x0701, 1, false, dt)
  | .storePartset m dt => some (m, 0x0702, 1, true, dt)
  | .storeScrub m _ dt => some (m, 0x0703, 1, true, dt)
  | .tblLoad m dt => some (m, 0x0800, 2, true, dt)
  | .tblInfo m dt => some (m, 0x0801, 2, false, dt)
  | .tblRead m dt => some (m, 0x0802, 10, false, dt)
  | .tblRevert m dt => some (m, 0x0803, 2, true, dt)
  | .hltSummary m dt => some (m, 0x0900, 0, false, dt)
  | .hltRead m dt => some (m, 0x0901, 2, false, dt)
  | .updStatus m dt => some (m, 0x0B00, 0, false, dt)
  | .updIntake m dt => some (m, 0x0B01, 8, true, dt)
  | .updPush m dt => some (m, 0x0B02, 8, false, dt)
  | .updDistribute m dt => some (m, 0x0B03, 6, true, dt)
  | .updActivate m dt => some (m, 0x0B04, 16, false, dt)
  | .updConfirm m dt => some (m, 0x0B05, 0, false, dt)
  | _ => none

/-- It is the turn of mailbox `m`, whose oldest request is the command `id` with `len` payload bytes and passes the general checks. -/
def requestOk (m id len : Nat) (s : State) : Bool :=
  cmdOk m id s && (mbReq s m).len == len && decide (len ≤ 240) && decide ((mbReq s m).flags ≤ 1) && (mbReq s m).tag != 0 && !(mbox s m).ops.any (fun o => o.tag == (mbReq s m).tag) &&
    decide ((mbox s m).ops.length < 8) && s.mboxes.length == 4

/-- The request is taken, and its RESULT record is the newest in the backlog. -/
def replied (m status : Nat) (payload : List Nat) (s t : State) : Prop :=
  (mbox t m).backlog = (mbox s m).backlog ++ [MbRec.mk (mbReq s m).cmd (mbReq s m).tag (mbReq s m).flags 0 status 0 payload] ∧
    t.rd (Reg.MB_REQ_REQRD m) = (s.rd (Reg.MB_REQ_REQRD m) + 1) % 32

/-- The ACCEPTED record of a long command, and a terminal record of a kind. -/
def acceptedRec (r : MbReq) : MbRec := MbRec.mk r.cmd r.tag r.flags 1 0 0 []
def endedRec (r : MbReq) (kind status : Nat) (payload : List Nat) : MbRec := MbRec.mk r.cmd r.tag (r.flags % 2) kind status 0 payload

/-- The request is taken, ACCEPTED is in the backlog, and the operation lives with its numbers. -/
def started (m : Nat) (args : List Nat) (s t : State) : Prop :=
  (mbox t m).backlog = (mbox s m).backlog ++ [acceptedRec (mbReq s m)] ∧ (∃ o, opOf t m (mbReq s m).tag = some o ∧ o.cmd = (mbReq s m).cmd ∧ o.args = args) ∧
    t.rd (Reg.MB_REQ_REQRD m) = (s.rd (Reg.MB_REQ_REQRD m) + 1) % 32

/-- The request is taken and its operation has ended at once: ACCEPTED and the terminal record are in the backlog. -/
def endedAtOnce (m kind status : Nat) (payload : List Nat) (s t : State) : Prop :=
  (mbox t m).backlog = (mbox s m).backlog ++ [acceptedRec (mbReq s m), endedRec (mbReq s m) kind status payload] ∧ opOf t m (mbReq s m).tag = none

/-! ### Instructions of the compact form (R376 to R380, R395 to R405) -/

/-- What the encoding of an instruction of the compact form says of it: its head, its checks, and the time that passes. -/
def insOp : Instr → Option (IsaHead × Op × Nat)
  | .udf h dt => some (h, { insOf (encLead h 0 []) with undef := true }, dt)
  | .add h x dt => some (h, aluOp h 0x00 x, dt)
  | .adc h x dt => some (h, aluOp h 0x01 x, dt)
  | .sub h x dt => some (h, aluOp h 0x02 x, dt)
  | .sbc h x dt => some (h, aluOp h 0x03 x, dt)
  | .cmp h x dt => some (h, aluOp h 0x04 x, dt)
  | .and h x dt => some (h, aluOp h 0x05 x, dt)
  | .or h x dt => some (h, aluOp h 0x06 x, dt)
  | .xor h x dt => some (h, aluOp h 0x07 x, dt)
  | .bic h x dt => some (h, aluOp h 0x08 x, dt)
  | .tst h x dt => some (h, aluOp h 0x09 x, dt)
  | .mov h x dt => some (h, aluOp h 0x0A x, dt)
  | .not h x dt => some (h, aluOp h 0x0B x, dt)
  | .shl h x dt => some (h, aluOp h 0x0C x, dt)
  | .shr h x dt => some (h, aluOp h 0x0D x, dt)
  | .sar h x dt => some (h, aluOp h 0x0E x, dt)
  | .ror h x dt => some (h, aluOp h 0x0F x, dt)
  | .mul h x dt => some (h, aluOp h 0x10 x, dt)
  | .mulh h x dt => some (h, aluOp h 0x11 x, dt)
  | .mulhu h x dt => some (h, aluOp h 0x12 x, dt)
  | .div h x dt => some (h, aluOp h 0x13 x, dt)
  | .divu h x dt => some (h, aluOp h 0x14 x, dt)
  | .rem h x dt => some (h, aluOp h 0x15 x, dt)
  | .remu h x dt => some (h, aluOp h 0x16 x, dt)
  | .min h x dt => some (h, aluOp h 0x17 x, dt)
  | .max h x dt => some (h, aluOp h 0x18 x, dt)
  | .minu h x dt => some (h, aluOp h 0x19 x, dt)
  | .maxu h x dt => some (h, aluOp h 0x1A x, dt)
  | .movi16 h rd kind imm dt => some (h, { insOf (encLead h 4 ([kind % 4 * 16 + rd % 16] ++ leBytes 2 imm)) with reserved := kind % 4 == 3 }, dt)
  | .movi32 h rd imm dt => some (h, insOf (encLead h 5 ([rd % 16] ++ leBytes 4 imm)), dt)
  | .ld h m dt => some (h, ldOp h 6 m, dt)
  | .lds h m dt => some (h, ldOp h 7 m, dt)
  | .st h m dt => some (h, { insOf (memEnc h 8 m) with narrow := true, reserved := memReserved m }, dt)
  | .pushm h mask dt => some (h, { insOf (encLead h 9 (leBytes 2 mask)) with undef := maskBad mask }, dt)
  | .popm h mask dt => some (h, { insOf (encLead h 10 (leBytes 2 mask)) with undef := maskBad mask }, dt)
  | .br8 h disp dt => some (h, insOf (encLead h 0x0B (leBytes 1 disp)), dt)
  | .br32 h disp dt => some (h, insOf (encLead h 0x0C (leBytes 4 disp)), dt)
  | .bl32 h disp dt => some (h, insOf (encLead h 0x0D (leBytes 4 disp)), dt)
  | .jr h rs link dt => some (h, insOf (encLead h 0x0E [16 * b2n link + rs % 16]), dt)
  | .movs h dt => some (h, strOp h 0, dt)
  | .fils h dt => some (h, strOp h 1, dt)
  | .cmps h dt => some (h, strOp h 2, dt)
  | .scns h dt => some (h, strOp h 3, dt)
  | .crcs h dt => some (h, strOp h 4, dt)
  | .loop h lvl creg reg off count dt =>
    some (h, { insOf (encLead h 0x10 ([reg % 16 * 16 + 4 * b2n creg + lvl % 4] ++ leBytes 2 off ++ if creg then [] else leBytes 2 count)) with undef := lvl % 4 == 3 || off % 2 ^ 16 == 0 || h.ini != 0 }, dt)
  | .movc h rb dir num dt =>
    some (h, { insOf (encLead h 0x11 [rb % 256, 128 * b2n dir + num % 128]) with undef := ctlLoop (num % 128) && h.ini != 0, sys := dir && decide (1 ≤ num % 128) && decide (num % 128 ≤ 8), reserved := !ctlListed (num % 128) }, dt)
  | .bar h dt => some (h, insOf (encLead h 0x12 [0]), dt)
  | .isb h dt => some (h, insOf (encLead h 0x12 [1]), dt)
  | .icinv h dt => some (h, insOf (encLead h 0x12 [2]), dt)
  | .svc h imm dt => some (h, insOf (encLead h 0x13 [imm % 256]), dt)
  | .swp h rd base dt => some (h, insOf (encLead h 0x14 [regByte rd base, 0]), dt)
  | .cas h rd base dt => some (h, insOf (encLead h 0x14 [regByte rd base, 1]), dt)
  | .xadd h rd base dt => some (h, insOf (encLead h 0x14 [regByte rd base, 2]), dt)
  | .nop h dt => some (h, insOf (encLead h 0x15 []), dt)
  | .brk h imm dt => some (h, insOf (encLead h 0x16 [imm % 256]), dt)
  | .popc h rd rs dt => some (h, insOf (encExt h 0 0 [regByte rd rs]), dt)
  | .clz h rd rs dt => some (h, insOf (encExt h 0 1 [regByte rd rs]), dt)
  | .brev h rd rs dt => some (h, insOf (encExt h 0 2 [regByte rd rs]), dt)
  | .bswap h rd rs dt => some (h, insOf (encExt h 0 3 [regByte rd rs]), dt)
  | .bfxu h rd rs pos width dt => some (h, bfOp h 0 rd rs pos width, dt)
  | .bfxs h rd rs pos width dt => some (h, bfOp h 1 rd rs pos width, dt)
  | .bfi h rd rs pos width dt => some (h, bfOp h 2 rd rs pos width, dt)
  | .eret h dt => some (h, { insOf (encSys h 0) with sys := true }, dt)
  | .wfi h dt => some (h, { insOf (encSys h 1) with sys := true }, dt)
  | .di h dt => some (h, { insOf (encSys h 2) with sys := true }, dt)
  | .ei h dt => some (h, { insOf (encSys h 3) with sys := true }, dt)
  | .reservedEncoding h esc bytes dt => if encReserved (Enc.mk esc bytes) then some (h, { insOf (Enc.mk esc bytes) with sys := esc == 3, reserved := true }, dt) else none
  | _ => none
where
  /-- The ALU group takes W8 and W16 in its first sixteen functions, and NF; the string group W8, W16 and REP; a bit field keeps inside its word. -/
  aluOp (h : IsaHead) (fb : Nat) (x : AluArg) : Op := { insOf (aluEnc h fb x) with narrow := decide (fb < 0x10), nf := true }
  strOp (h : IsaHead) (fn : Nat) : Op := { insOf (encLead h 0x0F [fn]) with narrow := true, rep := true, undef := hasPfx h 4 && h.cond % 8 != 7 }
  bfOp (h : IsaHead) (fn rd rs pos width : Nat) : Op :=
    { insOf (encExt h 1 fn [regByte rd rs, pos % 256, width % 256]) with reserved := !(decide (pos % 256 ≤ 31) && decide (1 ≤ width % 256) && decide (pos % 256 + width % 256 ≤ 32)) }

/-- The core issues instruction `i`, its fetch succeeds and leaves state `u`, and the instruction passes the checks before its execution (R370, R376, R379, R383). -/
def fetched (i : Instr) (h : IsaHead) (o : Op) (s u : State) : Prop :=
  ∃ dt, insOp i = some (h, o, dt) ∧ isaRuns (s.pass dt) h.ini = true ∧ isaFetch h (min 12 (encLen h o.enc)) (coreMod h.ini (fun c => { c with wfi := false }) (s.pass dt)) = .ok u

/-- The instruction executes: no check stops it and its condition holds. -/
def executes (i : Instr) (h : IsaHead) (n : Nat) (s u : State) : Prop :=
  ∃ o, fetched i h o s u ∧ n = encLen h o.enc ∧ isaUndefined h o = false ∧ (o.sys = true → (coreOf u h.ini).priv = true) ∧ o.reserved = false ∧ condHolds (hasPfx h 0) h.cond (coreOf u h.ini) = true

/-- No failed posted write waits and no hardware loop is on: the next instruction is the one at the address that follows. -/
def plainFlow (ini : Nat) (s : State) : Prop := (coreOf s ini).imprecise = [] ∧ (ini = 0 → (coreOf s ini).le = false)

/-- The core's change `f`, with the pc at `pc`, is all that differs from `u` to `t`. -/
def coreGoes (ini pc : Nat) (f : Core → Core) (u t : State) : Prop := t = coreMod ini (fun c => { f c with pc := BitVec.ofNat 32 pc, boundary := true, oneStep := false }) u

/-- The same, past an instruction of `n` bytes. -/
def coreNext (ini n : Nat) (f : Core → Core) (u t : State) : Prop := coreGoes ini (((coreOf u ini).pc.toNat + n) % 2 ^ 32) f u t

/-- The core takes an exception with a vector, an ecause and an epc; nothing else differs from `u` to `t` (R400). -/
def coreTraps (ini vec ecause epc : Nat) (eaddr : Option Nat) (u t : State) : Prop :=
  t = coreMod ini (fun c => { c with est := BitVec.ofNat 32 (stOf c), epc := BitVec.ofNat 32 epc, ecause := BitVec.ofNat 32 ecause, eaddr := (eaddr.map (BitVec.ofNat 32)).getD c.eaddr, priv := true, ie := false, le := false, pc := c.vbase + BitVec.ofNat 32 (8 * vec), wfi := false, boundary := true, oneStep := false }) u

/-- A load of the core that its target answers, and a store that its target takes. -/
def loads (h : IsaHead) (a n v : Nat) (s t : State) : Prop :=
  a % n = 0 ∧ plainFlow h.ini s ∧ seqParity s h.ini a n = none ∧ busRead (isaReq h (!(coreOf s h.ini).priv) a n 0) false s = (.done v, t)
def stores (h : IsaHead) (a n v : Nat) (s t : State) : Prop :=
  a % n = 0 ∧ ∃ r u, busWrite (isaReq h (!(coreOf s h.ini).priv) a n (v % 2 ^ (8 * n))) s = (.done r, u) ∧ t = impCount h.ini u ∧ plainFlow h.ini t

/-- Word loads and stores upward from an address. -/
def loadsFrom (h : IsaHead) : Nat → List Nat → State → State → Prop
  | _, [], s, t => t = s
  | a, v :: vs, s, t => ∃ u, loads h a 4 v s u ∧ loadsFrom h ((a + 4) % 2 ^ 32) vs u t
def storesFrom (h : IsaHead) : Nat → List Nat → State → State → Prop
  | _, [], s, t => t = s
  | a, v :: vs, s, t => ∃ u, stores h a 4 v s u ∧ storesFrom h ((a + 4) % 2 ^ 32) vs u t

/-! ### Bundles (R407, R413, R414, R422) -/

/-- Signal core `c` issues the bundle `l` with registers `g`; its pc is aligned and its fetch is good, which leaves state `u`. -/
def bundleStarts (c : Nat) (slots : List Nat) (dt : Nat) (l : List Nat) (g : SRegs) (s u : State) : Prop :=
  bundleOk c slots (s.pass dt) = true ∧ l = bundleSlots 4 (slots.map (· % 2 ^ 32)) ∧ u = sigMod c (fun x => { x with wfi := false }) (s.pass dt) ∧ g = (sigOf u c).regs ∧ g.pc.toNat % 4 = 0 ∧
    (bundleFetch u c g.pc.toNat l.length).1 = none

/-- No slot is undefined, reserved or denied to the mode. -/
def bundleFree (l : List Nat) (g : SRegs) (c : Nat) (u : State) : Prop :=
  slotsUndefined g l = false ∧ l.any (slReserved g) = false ∧ (g.priv = true ∨ ∀ w ∈ l, slPrivileged w = false) ∧
    (∀ w ∈ l, slRuns g w = true → loopUndefined g ((g.pc.toNat + 4 * l.length) % 2 ^ 32) w = false) ∧ c < u.sig.length

/-- A signal core takes an exception at its pc (R400, R422): vector v stands at vbase + 16 v. -/
def sigTraps (c vec ecause : Nat) (eaddr : Option Nat) (u t : State) : Prop :=
  t = sigMod c (fun x => { x with wfi := false, boundary := true, regs := { x.regs with est := BitVec.ofNat 32 (sigStOf x.regs), epc := x.regs.pc, ecause := BitVec.ofNat 32 ecause, eaddr := (eaddr.map (BitVec.ofNat 32)).getD x.regs.eaddr, priv := true, ie := false, le := false, pc := x.regs.vbase + BitVec.ofNat 32 (16 * vec), xret := none } }) u

end Sys2Proof.Machine
end

