-- ==== Sys2Proof/Certificates/Slice0/Obligations.lean ====
section
/-!
DEFINITION. The statements for the provers, family by family: what each command leaves when it is carried out, and what every step keeps.
A statement of the form `completes c s P` says that `exec c s` answers a next state, and `P` of that state.
-/
open Sys2Proof Sys2Proof.Machine

/-- Every step keeps the canonical form of the register files and of memory: each holds every key once, in rising order, and lists no byte that reads as an unlisted one; the commands that wait are
those behind the one taken. -/
def Obligations.StepsKeepCanonical : Prop :=
  ∀ s t : State, canonical s → step s = .next t → canonical t ∧ t.pending = s.pending.drop 1

/-- The state after reset is in canonical form. -/
def Obligations.ResetCanonical : Prop := canonical State.reset

/-- What the spec's register maps give for reset (R41, R43, R44, R97, R186, R247 to R251, R287, R289, R321, R464, R465, R510, R512, R542, R565, R570, R581, R595, R600, R619, R620, R624, R651, R689,
R747), and the empty memory, phase 0 of the boot and the empty queue; the values of the other plain data stand in the assumption log. -/
def Obligations.ResetValues : Prop :=
  (∀ p ∈ ([(Reg.SYS_ID_PART, 0x0744), (Reg.SYS_BOOT_PHASE, 0), (Reg.SYS_RSTCAUSE_POR, 1), (Reg.SYS_SPARE_LEFT, 41), (Reg.FIRN_QUAL_HOPS, 31), (Reg.FIRN_QUAL_ERRBND, 0xFFFF), (Reg.RXC_LANE_SPARE, 15), (Reg.RXC_LANE_NLANE, 15),
    (Reg.LNK_STAT_SHORT, 0xFFFF), (Reg.LNK_PARENT_PARENT, 0xFFFF), (Reg.LNK_SEQ_SPARE, 8), (Reg.LNK_SEQ_SLOTS, 0xFF), (Reg.LNK_LASTDROP_PEER, 0xFFFF), (Reg.MSH_STAT_POOLFREE, 4096), (Reg.MSH_CFG_TTL0, 20),
    (Reg.MSH_CFG_BOWIN, 20), (Reg.MSH_CFG_DUPK, 3), (Reg.WPT_PSTAT_PEER 0, 0xFFFF), (Reg.WPT_PSTAT_PEER 1, 0xFFFF), (Reg.DRC_STAT_PGIDLE, 64), (Reg.FLC_QAPP_SIZE_LOG2N, 3), (Reg.FLC_QAPP_STAT_IDLE, 1),
    (Reg.CPH_STAT_FREE 0, 4), (Reg.RTC_DATE_MONTH, 1), (Reg.RTC_DATE_DAY, 1), (Reg.SPX_CFG_ROLE 0, 0), (Reg.SPX_CFG_ROLE 1, 2), (Reg.SPX_CTL_EN 0, 1), (Reg.SPX_CTL_EN 1, 0), (Reg.SPX_STAT_RUN 0, 1),
    (Reg.SPX_STAT_TXEMPTY 0, 1), (Reg.AGE_TEMP_PEAK, 0x80), (Reg.BKP_SET5, 1000), (Reg.BKP_SET3_SHORT, 0xFFFF)] : List (Field × Nat)), State.reset.rd p.1 = p.2 ∧ State.reset.rdC p.1 = p.2) ∧
  (∀ n, n < 64 → State.reset.rd (Reg.EVT_CH_CFG_SRC n) = 255) ∧ (∀ n, n < 8 → State.reset.rd (Reg.TMR_TOP n) = 0xFFFFFFFF) ∧
  (∀ n, 1 ≤ n → n ≤ 14 → State.reset.rd (Reg.PWR_DOM_DLYLIM n) = 20) ∧ (∀ n, n < 2 → State.reset.rd (Reg.LMP_PWM_PER_PERIOD n) = 4000 ∧ State.reset.rd (Reg.LMP_PWM_DUTY_DUTY n) = 0) ∧
  (∀ c l, State.reset.rd (Reg.INTC_LINE_SRC c l) = 255 ∧ State.reset.rd (Reg.INTC_LINE_EN c l) = 0) ∧
  State.reset.pending = [] ∧ (∀ a, memRd State.reset.mem a = memRd [] a) ∧ State.reset.flight = [] ∧ State.reset.jtag.ir = 2

/-- The frame of every command: the pieces of the state that the table `touches` does not list for it hold what they held, and no command touches the queue. -/
def Obligations.CommandFrames : Prop :=
  (∀ (c : Instr) (s t : State), exec c s = .next t → partsOnly (touches c) s t) ∧ (∀ c : Instr, Piece.pending ∉ touches c)

/-- Fuses change only by the revoke fuses that a provisioning record blows, and a blown fuse stays blown (R42, R46, R699). -/
def Obligations.FusesOnlyBlown : Prop :=
  ∀ s t : State, step s = .next t → fusesOnlyBlown s.fuses t.fuses

/-- A step takes the command at the front of the queue and runs it with the queue's rest. -/
def Obligations.StepTakesFront : Prop :=
  ∀ (c : Instr) (rest : List Instr) (s : State), step { s with pending := c :: rest } = exec c { s with pending := rest }

/-- With no command waiting one FIRN cycle passes (the model's choice: log entry 1), which changes the cycle count and FIRN's local time alone; no word of the table spells a command, since its rows
have no bits. -/
def Obligations.IdleSteps : Prop :=
  (∀ s : State, s.pending = [] → ∃ t, step s = .next t ∧ t.elapsed = s.elapsed + 1 ∧ partsOnly [.elapsed, .firn] s t ∧ (s.firn.stopped = true → t.firn.loc = s.firn.loc)) ∧
  (∀ (n w : Nat) (s : State), decodeTableWord n w = none ∧ s.withFetchWord n w = s)

/-- The condition codes of both sets, and C after a subtraction or compare (R377). -/
def Obligations.ConditionCodes : Prop :=
  (∀ c : Core, condHolds false 0 c = (c.z == true) ∧ condHolds false 1 c = (c.z == false) ∧ condHolds false 2 c = (c.c == true) ∧ condHolds false 3 c = (c.c == false) ∧ condHolds false 4 c = (c.n == true) ∧
    condHolds false 5 c = (c.n == false) ∧ condHolds false 6 c = (c.n == c.v) ∧ condHolds false 7 c = true ∧
    condHolds true 0 c = (c.v == true) ∧ condHolds true 1 c = (c.v == false) ∧ condHolds true 2 c = (c.c == true && c.z == false) ∧ condHolds true 3 c = (c.c == false || c.z == true) ∧
    condHolds true 4 c = (c.z == false && c.n == c.v) ∧ condHolds true 5 c = (c.z == true || c.n != c.v) ∧ condHolds true 6 c = (c.n != c.v) ∧ condHolds true 7 c = true) ∧
  (∀ (w : Nat) (a b : BitVec w) (c : Bool), w = 8 ∨ w = 16 ∨ w = 32 → (aluSub w a.toNat b.toNat c).c = some (decide (b.toNat ≤ a.toNat)) ∧ (aluCmp w a.toNat b.toNat c).c = some (decide (b.toNat ≤ a.toNat)))

/-- The causes of reset in SYS_RSTCAUSE at offset 0x008 (R43): a power-on reset leaves POR, and BKPLOST when the backup domain was lost, and no other bit; every other reset sets its own bit and leaves
the rest. -/
def Obligations.ResetCauses : Prop :=
  (∀ p ∈ ([(Reg.SYS_RSTCAUSE_BKPLOST, 7), (Reg.SYS_RSTCAUSE_JTAG, 5), (Reg.SYS_RSTCAUSE_SOFT, 4), (Reg.SYS_RSTCAUSE_WDG, 3), (Reg.SYS_RSTCAUSE_PIN, 2), (Reg.SYS_RSTCAUSE_BOR, 1), (Reg.SYS_RSTCAUSE_POR, 0)] : List (Field × Nat)),
    p.1.addr = 0x40170008 ∧ p.1.lo = p.2 ∧ p.1.width = 1 ∧ p.1.acc = .w1c ∧ p.1.cls = .l) ∧
  (∀ (low : Bool) (dt : Nat) (s : State), completes (.powerOn low dt) s (fun t => ∀ f ∈ [Reg.SYS_RSTCAUSE_BKPLOST, Reg.SYS_RSTCAUSE_JTAG, Reg.SYS_RSTCAUSE_SOFT, Reg.SYS_RSTCAUSE_WDG, Reg.SYS_RSTCAUSE_PIN, Reg.SYS_RSTCAUSE_BOR, Reg.SYS_RSTCAUSE_POR],
    t.rd f = if f = Reg.SYS_RSTCAUSE_POR ∨ (f = Reg.SYS_RSTCAUSE_BKPLOST ∧ s.pwr.bkpGone = true) then 1 else 0)) ∧
  (∀ (i : Instr) (own : Field) (m dt : Nat) (s : State),
    (i, own) ∈ [(Instr.brownOut dt, Reg.SYS_RSTCAUSE_BOR), (.resetNLow dt, Reg.SYS_RSTCAUSE_PIN), (.watchdogExpiry dt, Reg.SYS_RSTCAUSE_WDG), (.sysReset m dt, Reg.SYS_RSTCAUSE_SOFT), (.sysrst dt, Reg.SYS_RSTCAUSE_JTAG)] →
    s.pwr.powered = true → s.pwr.resetLow = false → watchdogExpiryOk (s.pass dt) = true → sysResetDue (s.pass dt) = true →
    completes i s (fun t => ∀ f ∈ [Reg.SYS_RSTCAUSE_BKPLOST, Reg.SYS_RSTCAUSE_JTAG, Reg.SYS_RSTCAUSE_SOFT, Reg.SYS_RSTCAUSE_WDG, Reg.SYS_RSTCAUSE_PIN, Reg.SYS_RSTCAUSE_BOR, Reg.SYS_RSTCAUSE_POR],
      t.rd f = if f = own then 1 else s.rd f))

/-- The boot (R50, R51, R53, R711): each phase ends in the next one with what it sets up, and changes nothing else; in the image phase, outside a trial, the last good slot starts if its image is good,
else the other slot as a fall back, else the part enters recovery. -/
def Obligations.BootPhases : Prop :=
  (∀ (dt : Nat) (s : State), supplyOk (s.pass dt) = true →
    completes (.supply dt) s (fun t => t.rd Reg.SYS_BOOT_PHASE = 1 ∧ changesOnly [Reg.SYS_BOOT_PHASE] [] (s.pass dt) t)) ∧
  (∀ (strap : Bool) (dt : Nat) (s : State), s.rd Reg.SYS_BOOT_PHASE = 1 →
    completes (.aonStart strap dt) s (fun t => t.rd Reg.SYS_BOOT_PHASE = 2 ∧ t.rd Reg.SYS_PKG_PSTRAP = b2n strap ∧ t.rd Reg.BKP_SET0_LATCHED = 1 ∧
      t.rd Reg.BKP_SET0_PROFILE = (if s.on Reg.BKP_SET0_LATCHED then s.rd Reg.BKP_SET0_PROFILE else b2n strap) ∧
      changesOnly [Reg.SYS_BOOT_PHASE, Reg.SYS_PKG_PSTRAP, Reg.BKP_SET0_LATCHED, Reg.BKP_SET0_PROFILE, Reg.PWR_STAT_PROFILE, Reg.PWR_STAT_MODE] [.pwr] (s.pass dt) t)) ∧
  (∀ (dt : Nat) (s : State), s.rd Reg.SYS_BOOT_PHASE = 2 →
    completes (.clocks dt) s (fun t => t.rd Reg.SYS_BOOT_PHASE = 3 ∧ t.firn.stopped = false ∧ t.firn.loc = (s.pass dt).firn.loc ∧
      changesOnly [Reg.SYS_BOOT_PHASE] [.firn] (s.pass dt) t)) ∧
  (∀ (dt : Nat) (s : State), tcxoRetryOk (s.pass dt) = true →
    completes (.tcxoRetry dt) s (fun t => t.rd Reg.SYS_BOOT_PHASE = 2 ∧ t.pwr.holdAt = s.elapsed + dt ∧ changesOnly [] [.pwr] (s.pass dt) t)) ∧
  (∀ (dt : Nat) (s : State), s.rd Reg.SYS_BOOT_PHASE = 3 → 0 < s.cores.length →
    completes (.fuses dt) s (fun t => t.rd Reg.SYS_BOOT_PHASE = 4 ∧ t.rd Reg.SYS_ID_REV = s.fuses.rev % 2 ^ Reg.SYS_ID_REV.width ∧ t.rd Reg.SYS_PKG_VARIANT = b2n s.fuses.variantC ∧
      t.rd Reg.SYS_UID_LO = s.fuses.uid % 2 ^ 32 ∧ t.rd Reg.SYS_UID_HI = s.fuses.uid / 2 ^ 32 % 2 ^ 32 ∧ (coreOf t 0).held = false ∧ look (cphSlot 0 0) t.cph.slots = some ⟨s.fuses.devKey, 5⟩)) ∧
  (∀ (a b : Bool) (dt : Nat) (s : State), s.rd Reg.SYS_BOOT_PHASE = 4 →
    completes (.repair a b dt) s (fun t => t.rd Reg.SYS_BOOT_PHASE = 5 ∧ (a = true ∨ b = true → changesOnly [Reg.SYS_BOOT_PHASE] [] (s.pass dt) t) ∧
      (a = false → b = false → t.rd Reg.SYS_BOOT_RMAPLOST = 1 ∧ t.par.spares = [] ∧ t.par.remap = [] ∧ t.mir.dropped = []))) ∧
  (∀ (dt : Nat) (s : State), s.rd Reg.SYS_BOOT_PHASE = 5 → memWf s.mem = true →
    completes (.sramInit dt) s (fun t => t.rd Reg.SYS_BOOT_PHASE = 6 ∧ (∀ a, 0x10000000 ≤ a → a < 0x10600000 → memRd t.mem a = 0 ∧ a ∉ t.par.bad) ∧
      (∀ a, a < 0x10000000 ∨ 0x10600000 ≤ a → memRd t.mem a = memRd s.mem a) ∧ changesOnly [Reg.SYS_BOOT_PHASE] [.mem, .par] (s.pass dt) t)) ∧
  (∀ (a b : Bool) (dt : Nat) (s : State), s.rd Reg.SYS_BOOT_PHASE = 6 → s.on Reg.BKP_SET1_TRIAL = false → slotGood a b s (s.rd Reg.BKP_SET1_GLG) = true →
    completes (.image a b dt) s (fun t => t.rd Reg.SYS_BOOT_PHASE = 7 ∧ t.rd Reg.SYS_BOOT_GSLOT = s.rd Reg.BKP_SET1_GLG % 2 ∧ t.rd Reg.SYS_BOOT_FALLBACK = 0 ∧
      changesOnly [Reg.SYS_BOOT_PHASE, Reg.SYS_BOOT_GSLOT, Reg.SYS_BOOT_FALLBACK] [] (s.pass dt) t)) ∧
  (∀ (a b : Bool) (dt : Nat) (s : State), s.rd Reg.SYS_BOOT_PHASE = 6 → s.on Reg.BKP_SET1_TRIAL = false → s.rd Reg.BKP_SET1_GLG ≤ 1 → slotGood a b s (s.rd Reg.BKP_SET1_GLG) = false →
    slotGood a b s (1 - s.rd Reg.BKP_SET1_GLG) = true →
    completes (.image a b dt) s (fun t => t.rd Reg.SYS_BOOT_PHASE = 7 ∧ t.rd Reg.SYS_BOOT_GSLOT = 1 - s.rd Reg.BKP_SET1_GLG ∧ t.rd Reg.SYS_BOOT_FALLBACK = 1 ∧
      changesOnly [Reg.SYS_BOOT_PHASE, Reg.SYS_BOOT_GSLOT, Reg.SYS_BOOT_FALLBACK] [] (s.pass dt) t)) ∧
  (∀ (a b : Bool) (dt : Nat) (s : State), s.rd Reg.SYS_BOOT_PHASE = 6 → s.on Reg.BKP_SET1_TRIAL = false → (∀ k, slotGood a b s k = false) →
    completes (.image a b dt) s (fun t => t.rd Reg.SYS_BOOT_PHASE = 0xE ∧ t.rd Reg.SYS_BOOT_RECOVERY = 1 ∧ t.rd (Reg.SPX_CFG_ROLE 0) = 1 ∧ t.upd.cardAt = s.elapsed + dt ∧
      changesOnly [Reg.SYS_BOOT_PHASE, Reg.SYS_BOOT_RECOVERY, Reg.SPX_CFG_ROLE 0] [.upd] (s.pass dt) t)) ∧
  (∀ (coord : Bool) (dt : Nat) (s : State), s.rd Reg.SYS_BOOT_PHASE = 7 →
    completes (.gletyInit coord dt) s (fun t => t.rd Reg.SYS_BOOT_PHASE = 8 ∧ t.runAt = s.elapsed + dt ∧ t.rd Reg.SYS_BOOT_GSLOT = s.rd Reg.SYS_BOOT_GSLOT ∧ t.co.single = coord)) ∧
  (∀ (card : List Nat) (dt : Nat) (s : State), cardTryOk (s.pass dt) = true →
    (cardPick (fun b => if recVerdict (s.pass dt) b = 1 then Rc.OK else recVerdict (s.pass dt) b) (cardEntries card) Rc.UPD_MEDIA).1 ≠ Rc.OK →
    completes (.cardTry card dt) s (fun t => t.upd.cardAt = s.elapsed + dt ∧ changesOnly [] [.upd] (s.pass dt) t)) ∧
  (∀ (card : List Nat) (dt : Nat) (s : State), cardTryOk (s.pass dt) = true →
    (cardPick (fun b => if recVerdict (s.pass dt) b = 1 then Rc.OK else recVerdict (s.pass dt) b) (cardEntries card) Rc.UPD_MEDIA).1 = Rc.OK →
    completes (.cardTry card dt) s (fun t => t.rd Reg.SYS_BOOT_PHASE = 0 ∧ t.rd Reg.SYS_RSTCAUSE_SOFT = 1 ∧ t.rd Reg.BKP_SET1_GLG = 0 ∧ t.rd Reg.BKP_SET1_TRIAL = 0))

/-- The resets (R43, R47, R755, R766): which cause each one records, and what of the registers it leaves: the backup domain, the store's own fields and, but for a power-on, AON's kept registers; every
other field returns to its reset value and the memories are empty; `flcCut` is what a flash operation that is cut off leaves in the store, and changes nothing where none runs. The watchdog (R684). -/
def Obligations.ResetsLeave : Prop :=
  (∀ s : State, s.flc.run = [] → flcCut s = s) ∧
  (∀ (low : Bool) (dt : Nat) (s : State), completes (.powerOn low dt) s (fun t => t.rd Reg.SYS_RSTCAUSE_POR = 1 ∧ t.rd Reg.SYS_RSTCAUSE_BKPLOST = b2n s.pwr.bkpGone ∧
    (∀ f : Field, f.key ≠ Reg.SYS_RSTCAUSE_POR.key → f.key ≠ Reg.SYS_RSTCAUSE_BKPLOST.key → t.rd f = if keptKey false f.key then (flcCut (s.pass dt)).rd f else f.reset) ∧
    t.mem = [] ∧ t.pwr.powered = true ∧ t.pwr.resetLow = low ∧ t.fuses = s.fuses)) ∧
  (∀ (dt : Nat) (s : State), s.pwr.powered = true → completes (.brownOut dt) s (fun t => t.rd Reg.SYS_RSTCAUSE_BOR = 1 ∧
    (∀ f : Field, f.key ≠ Reg.SYS_RSTCAUSE_BOR.key → t.rd f = if keptKey true f.key then (flcCut (s.pass dt)).rd f else f.reset) ∧ t.mem = [] ∧ t.fuses = s.fuses)) ∧
  (∀ (dt : Nat) (s : State), completes (.backupLoss dt) s (fun t => (∀ f : Field, backupKey f.key = true → t.rd f = f.reset) ∧ (∀ f : Field, t.rdC f = f.reset) ∧
    t.mem = [] ∧ t.pwr.powered = false ∧ t.pwr.bkpGone = true ∧ t.fuses = s.fuses)) ∧
  (∀ (dt : Nat) (s : State), s.pwr.powered = true → s.pwr.resetLow = false → completes (.resetNLow dt) s (fun t => t.rd Reg.SYS_RSTCAUSE_PIN = 1 ∧ t.pwr.resetLow = true ∧
    (∀ f : Field, f.key ≠ Reg.SYS_RSTCAUSE_PIN.key → t.rd f = if keptKey true f.key then (flcCut (s.pass dt)).rd f else f.reset) ∧ t.mem = [] ∧ t.fuses = s.fuses)) ∧
  (∀ (dt : Nat) (s : State), s.pwr.resetLow = true → completes (.resetNRelease dt) s (fun t => t.pwr.resetLow = false ∧ t.pwr.holdAt = s.elapsed + dt ∧ changesOnly [] [.pwr] (s.pass dt) t)) ∧
  (∀ (dt : Nat) (s : State), watchdogKickOk (s.pass dt) = true → completes (.watchdogKick dt) s (fun t => t.pwr.kickAt = some (s.elapsed + dt) ∧ changesOnly [] [.pwr] (s.pass dt) t)) ∧
  (∀ (k dt : Nat) (s : State), s.pwr.kickAt = some k → k + cycMs 50 ≤ s.elapsed + dt → completes (.watchdogExpiry dt) s (fun t => t.rd Reg.SYS_RSTCAUSE_WDG = 1 ∧
    (∀ f : Field, f.key ≠ Reg.SYS_RSTCAUSE_WDG.key → t.rd f = if keptKey true f.key then (flcCut (s.pass dt)).rd f else f.reset) ∧ t.mem = [] ∧ t.fuses = s.fuses))

/-- Writes and reads of FIRN's registers that act (R56, R81, R87, R91, R93): arming, disarming, the request to apply a capture unit, and the reads that latch the other half. The mailbox doorbells
(R333, R342): a pointer that moves forward within the ring is taken; any other write counts as a doorbell error and changes no pointer; and FLUSH. -/
def Obligations.FirnAndMailboxAccesses : Prop :=
  (∀ (n : Nat) (w : BusReq) (dt : Nat) (s : State), n < 32 → w.addr = 0x40020108 + 16 * n → armOk w = true → bitOf w.val 30 = 0 → writeLands w (s.pass dt) = true →
    s.on (Reg.FIRN_CMP_CTL_ARM n) = false →
    completes (.arm w dt) s (fun t => t.rd (Reg.FIRN_CMP_CTL_ARM n) = 1 ∧ look n t.firn.armAt = some (s.elapsed + dt))) ∧
  (∀ (n : Nat) (w : BusReq) (dt : Nat) (s : State), n < 32 → w.addr = 0x40020108 + 16 * n → disarmOk w = true → writeLands w (s.pass dt) = true →
    s.on (Reg.FIRN_CMP_CTL_ARM n) = false → completes (.disarm w dt) s (fun t => t.on (Reg.FIRN_CMP_STAT_ARMED n) = false)) ∧
  (∀ (k : Nat) (w : BusReq) (dt : Nat) (s : State), k < 4 → w.addr = 0x40020408 + 16 * k → captureApplyWriteOk w = true → writeLands w (s.pass dt) = true →
    s.on (Reg.FIRN_CAP_CTL_APPLY k) = false →
    completes (.captureApply w dt) s (fun t => t.rd (Reg.FIRN_CAP_CTL_APPLY k) = 1 ∧ look k t.firn.applyAt = some (s.elapsed + dt))) ∧
  (∀ (w : BusReq) (dt : Nat) (s : State), firnTimeLoReadOk w = true → readLands w (s.pass dt) = true →
    completes (.firnTimeLoRead w dt) s (fun t => readGave w.ini t = some ((s.pass dt).now % 2 ^ 32) ∧ look w.ini t.firn.timeHi = some ((s.pass dt).now / 2 ^ 32 % 2 ^ 32) ∧
      changesOnly [] [.firn, .rdata] (s.pass dt) t)) ∧
  (∀ (k : Nat) (w : BusReq) (dt : Nat) (s : State), k < 4 → w.addr = 0x40020400 + 16 * k → captureReadOk w = true → readLands w (s.pass dt) = true →
    completes (.captureRead w dt) s (fun t => readGave w.ini t = some (heldCapture s k % 2 ^ 32) ∧ look (32 * k + w.ini) t.firn.capHi = some (heldCapture s k / 2 ^ 32) ∧
      changesOnly [] [.firn, .rdata] (s.pass dt) t)) ∧
  (∀ (m : Nat) (w : BusReq) (dt : Nat) (s : State), m < 4 → w.addr = 0x400D0100 + 64 * m → mbReqDoorbellOk w = true → writeLands w (s.pass dt) = true → s.rd Reg.SYS_BOOT_PHASE = 8 →
    completes (.mbReqDoorbell w dt) s (fun t =>
      if s.on (Reg.MB_STAT_FLUSHING m) = false ∧ (s.rd (Reg.MB_REQ_REQWR m) + 32 - s.rd (Reg.MB_REQ_REQRD m)) % 32 ≤ (w.val % 32 + 32 - s.rd (Reg.MB_REQ_REQRD m)) % 32 ∧
        (w.val % 32 + 32 - s.rd (Reg.MB_REQ_REQRD m)) % 32 ≤ 16
      then t.rd (Reg.MB_REQ_REQWR m) = w.val % 32 ∧ changesOnly [Reg.MB_REQ_REQWR m] [] (s.pass dt) t
      else t.rd (Reg.MB_STAT_DBERR m) = 1 ∧ changesOnly [Reg.MB_STAT_DBERR m] [] (s.pass dt) t)) ∧
  (∀ (m : Nat) (w : BusReq) (dt : Nat) (s : State), m < 4 → w.addr = 0x400D0104 + 64 * m → mbRspWriteOk w = true → writeLands w (s.pass dt) = true → s.rd Reg.SYS_BOOT_PHASE = 8 →
    completes (.mbRspWrite w dt) s (fun t =>
      if s.on (Reg.MB_STAT_FLUSHING m) = false ∧ (w.val % 32 + 32 - s.rd (Reg.MB_RSP_RSPRD m)) % 32 ≤ (s.rd (Reg.MB_RSP_RSPWR m) + 32 - s.rd (Reg.MB_RSP_RSPRD m)) % 32
      then t.rd (Reg.MB_RSP_RSPRD m) = w.val % 32 ∧ changesOnly [Reg.MB_RSP_RSPRD m] [] (s.pass dt) t
      else t.rd (Reg.MB_STAT_DBERR m) = 1 ∧ changesOnly [Reg.MB_STAT_DBERR m] [] (s.pass dt) t)) ∧
  (∀ (m : Nat) (w : BusReq) (dt : Nat) (s : State), m < 4 → w.addr = 0x400D0108 + 64 * m → flushOk w = true → writeLands w (s.pass dt) = true → s.rd Reg.SYS_BOOT_PHASE = 8 →
    completes (.flush w dt) s (fun t => t.rd (Reg.MB_STAT_FLUSHING m) = 1 ∧ changesOnly [Reg.MB_STAT_FLUSHING m] [] (s.pass dt) t))

/-- Caldera's and PROT's registers that act (R519, R520, R527, R538, R539): START takes a good message, ABORT ends one, a block is taken, a key is loaded or cleared; LOCK and the ownership table. -/
def Obligations.CipherAccesses : Prop :=
  (∀ (n : Nat) (w : BusReq) (dt : Nat) (s : State), n < 4 → w.addr = 0x40100004 + 256 * n → cphStartOk w = true → bitOf w.val 30 = 0 → writeLands w (s.pass dt) = true →
    s.on (Reg.CPH_STAT_BUSY n) = false → s.on (Reg.CPH_KSTAT_KBUSY n) = false → 1 ≤ s.rd (Reg.CPH_CFG_OP n) → s.rd (Reg.CPH_CFG_OP n) ≤ 4 →
    cphLenOk (s.rd (Reg.CPH_CFG_OP n)) (s.rd (Reg.CPH_LEN_LEN n)) (s.rd (Reg.CPH_CFG_DSIZE n)) = true → cphKeyOk n s = true → 0 < s.rd (Reg.CPH_LEN_LEN n) →
    completes (.start w false dt) s (fun t => t.rd (Reg.CPH_STAT_BUSY n) = 1 ∧ t.rd (Reg.CPH_STAT_DONE n) = 0 ∧ t.rd (Reg.CPH_STAT_ERR n) = 0 ∧ t.rd (Reg.CPH_STAT_BLOCKS n) = 0 ∧
      changesOnly [Reg.CPH_STAT_BUSY n, Reg.CPH_STAT_DONE n, Reg.CPH_STAT_MATCH n, Reg.CPH_STAT_ERR n, Reg.CPH_STAT_BLOCKS n] [.cph] (s.pass dt) t)) ∧
  (∀ (n : Nat) (w : BusReq) (p : Bool) (dt : Nat) (s : State), n < 4 → w.addr = 0x40100004 + 256 * n → cphStartOk w = true → bitOf w.val 30 = 0 → writeLands w (s.pass dt) = true →
    s.on (Reg.CPH_STAT_BUSY n) = true →
    completes (.start w p dt) s (fun t => t.rd (Reg.CPH_STAT_CFGERR n) = 1 ∧ changesOnly [Reg.CPH_STAT_CFGERR n] [] (s.pass dt) t)) ∧
  (∀ (n : Nat) (w : BusReq) (dt : Nat) (s : State), n < 4 → w.addr = 0x40100004 + 256 * n → abortOk w = true → bitOf w.val 31 = 0 → writeLands w (s.pass dt) = true →
    s.on (Reg.CPH_STAT_BUSY n) = true → s.cph.engine = none →
    completes (.abort w dt) s (fun t => t.rd (Reg.CPH_STAT_BUSY n) = 0 ∧ t.rd (Reg.CPH_STAT_DONE n) = 1 ∧ t.rd (Reg.CPH_STAT_ERR n) = 6 ∧ t.rd (Reg.CPH_STAT_MATCH n) = 0)) ∧
  (∀ (n : Nat) (w : BusReq) (dt : Nat) (s : State), n < 4 → w.addr = 0x4010001C + 256 * n → din3SubmitOk w = true → writeLands w (s.pass dt) = true →
    s.on (Reg.CPH_STAT_BUSY n) = true → (cphCtx s n).submitted < cphBlocksOf (s.rd (Reg.CPH_LEN_LEN n)) → (cphCtx s n).queue.length < 4 →
    completes (.din3Submit w dt) s (fun t => t.rd (Reg.CPH_DIN n 3) = w.val % 2 ^ 32 ∧ (cphCtx t n).submitted = (cphCtx s n).submitted + 1)) ∧
  (∀ (n : Nat) (w : BusReq) (dt : Nat) (s : State), n < 4 → w.addr = 0x40100040 + 256 * n → keyLoadOk w = true → bitOf w.val 30 = 0 → writeLands w (s.pass dt) = true →
    s.on (Reg.CPH_STAT_BUSY n) = false → s.cph.load = none →
    completes (.keyLoad w dt) s (fun t => t.rd (Reg.CPH_KSTAT_KBUSY n) = 1 ∧ (∀ i, i / 8 = n → look i t.cph.keyRegs = none) ∧
      (t.cph.load).map (fun l => (l.ctx, l.slot)) = some (n, w.val % 8))) ∧
  (∀ (n : Nat) (w : BusReq) (dt : Nat) (s : State), n < 4 → w.addr = 0x40100040 + 256 * n → keyClearOk w = true → bitOf w.val 31 = 0 → writeLands w (s.pass dt) = true →
    s.on (Reg.CPH_STAT_BUSY n) = false → keysRise s.cph.slots = true →
    completes (.keyClear w dt) s (fun t => look (cphSlot n (w.val % 8)) t.cph.slots = none ∧ bitOf (t.rd (Reg.CPH_KSTAT_VALID n)) (w.val % 8) = 0)) ∧
  (∀ (k : Nat) (w : BusReq) (dt : Nat) (s : State), k < 49 → w.addr = 0x40100900 + 4 * k → ownershipChangeOk w = true → writeLands w (s.pass dt) = true → s.on Reg.PROT_CTL_LOCK = false →
    (w.val % 32 ≤ 4 ∨ w.val % 32 = 21) →
    completes (.ownershipChange w dt) s (fun t => t.rd (Reg.PROT_OWN_OWNER k) = w.val % 32 ∧ t.rd (Reg.PROT_OWN_SEC k) = bitOf w.val 8)) ∧
  (∀ (w : BusReq) (dt : Nat) (s : State), protLockOk w = true → writeLands w (s.pass dt) = true → s.on Reg.PROT_CTL_LOCK = false →
    completes (.protLock w dt) s (fun t => t.rd Reg.PROT_CTL_LOCK = 1 ∧ t.rd Reg.PROT_CTL_DBGEN = bitOf w.val 1 ∧
      changesOnly [Reg.PROT_CTL_LOCK, Reg.PROT_CTL_DBGEN] [] (s.pass dt) t))

/-- The flash queue's registers (R480, R488, R506, R508): doorbells are checked against the ring; EN 0 ends what was taken; an execute-only entry is written unless it is locked or bad. -/
def Obligations.FlashAccesses : Prop :=
  (∀ (w : BusReq) (dt : Nat) (s : State), flcDoorbellOk w = true → writeLands w (s.pass dt) = true →
    completes (.flcDoorbell w dt) s (fun t =>
      if (s.rd Reg.FLC_QAPP_DOORBELL_TAIL + 65536 - s.rd Reg.FLC_QAPP_HEAD_HEAD) % 65536 ≤ (w.val % 65536 + 65536 - s.rd Reg.FLC_QAPP_HEAD_HEAD) % 65536 ∧
        (w.val % 65536 + 65536 - s.rd Reg.FLC_QAPP_HEAD_HEAD) % 65536 ≤ qN s
      then t.rd Reg.FLC_QAPP_DOORBELL_TAIL = w.val % 65536 ∧ t.flc = s.flc
      else t.rd Reg.FLC_QAPP_STAT_DBERR = 1 ∧ changesOnly [Reg.FLC_QAPP_STAT_DBERR] [] (s.pass dt) t)) ∧
  (∀ (w : BusReq) (dt : Nat) (s : State), flcCackWriteOk w = true → writeLands w (s.pass dt) = true →
    completes (.flcCackWrite w dt) s (fun t =>
      if (w.val % 65536 + 65536 - s.rd Reg.FLC_QAPP_CACK_CACK) % 65536 ≤ (s.rd Reg.FLC_QAPP_HEAD_CDONE + 65536 - s.rd Reg.FLC_QAPP_CACK_CACK) % 65536
      then t.rd Reg.FLC_QAPP_CACK_CACK = w.val % 65536 ∧ t.flc = s.flc
      else t.rd Reg.FLC_QAPP_STAT_DBERR = 1 ∧ changesOnly [Reg.FLC_QAPP_STAT_DBERR] [] (s.pass dt) t)) ∧
  (∀ (w : BusReq) (dt : Nat) (s : State), flcEnWriteOk w = true → writeLands w (s.pass dt) = true →
    completes (.flcEnWrite w dt) s (fun t => t.rd Reg.FLC_QAPP_CTL_EN = w.val % 2 ∧ (w.val % 2 = 1 → t.flc = s.flc))) ∧
  (∀ (n : Nat) (w : BusReq) (dt : Nat) (s : State), n < 16 → w.addr = 0x400E0200 + 4 * n → flcXoWriteOk w = true → writeLands w (s.pass dt) = true →
    completes (.flcXoWrite w dt) s (fun t =>
      if s.on (Reg.FLC_XO_LOCK n) = true then t.rd Reg.FLC_QAPP_STAT_CFGERR = 1 ∧ changesOnly [Reg.FLC_QAPP_STAT_CFGERR] [] (s.pass dt) t
      else bitOf w.val 30 = 0 → t.rd (Reg.FLC_XO_LOCK n) = bitOf w.val 31 ∧ t.rd (Reg.FLC_XO_EN n) = 0 ∧ t.rd (Reg.FLC_XO_PART n) = bitsOf w.val 29 26 ∧
        t.rd (Reg.FLC_XO_FIRST n) = bitsOf w.val 25 15 ∧ t.rd (Reg.FLC_XO_NBLK n) = bitsOf w.val 14 4 ∧
        changesOnly [Reg.FLC_XO_LOCK n, Reg.FLC_XO_EN n, Reg.FLC_XO_PART n, Reg.FLC_XO_FIRST n, Reg.FLC_XO_NBLK n] [] (s.pass dt) t))

/-- Event channels and groups, timers and the clock (R556, R559, R573 to R578, R588, R589, R592): what a write or a read of their registers does at once. -/
def Obligations.TimerAccesses : Prop :=
  (∀ (w : BusReq) (dt : Nat) (s : State), softwareFireOk w = true → writeLands w (s.pass dt) = true → w.val % 2 ^ 32 = 0 →
    completes (.softwareFire w dt) s (fun t => changesOnly [] [] (s.pass dt) t)) ∧
  (∀ (n i : Nat) (w : BusReq) (dt : Nat) (s : State), n < 2 → i < 32 → w.addr = 0x40030200 + 4 * n → softwareFireOk w = true → writeLands w (s.pass dt) = true → w.val = 2 ^ i →
    completes (.softwareFire w dt) s (fun t => t.evt.cycle = s.elapsed + dt ∧ t.evt.fired.contains (32 * n + i) = true)) ∧
  (∀ (g : Nat) (w : BusReq) (dt : Nat) (s : State), g < 8 → w.addr = 0x40030300 + 4 * g → setenOk w = true → bitOf w.val 29 = 0 → writeLands w (s.pass dt) = true →
    srcNumOk (w.val % 256) = true → srcNumOk (bitsOf w.val 15 8) = true → look g (evtTick (s.pass dt)).evt.old = none →
    completes (.seten w dt) s (fun t => t.rd (Reg.EVT_GRP_STATE g) = 1 ∧ t.rd (Reg.EVT_GRP_ENSRC g) = w.val % 256 ∧ t.rd (Reg.EVT_GRP_DISSRC g) = bitsOf w.val 15 8)) ∧
  (∀ (g : Nat) (w : BusReq) (dt : Nat) (s : State), g < 8 → w.addr = 0x40030300 + 4 * g → setdisOk w = true → writeLands w (s.pass dt) = true →
    srcNumOk (w.val % 256) = true → srcNumOk (bitsOf w.val 15 8) = true →
    completes (.setdis w dt) s (fun t => t.rd (Reg.EVT_GRP_STATE g) = 0 ∧ t.rd (Reg.EVT_GRP_ENSRC g) = w.val % 256 ∧ t.rd (Reg.EVT_GRP_DISSRC g) = bitsOf w.val 15 8)) ∧
  (∀ (n : Nat) (w : BusReq) (dt : Nat) (s : State), n < 8 → w.addr = 0x40040000 + 256 * n → timerStartOk w = true → stselOk s (bitsOf w.val 15 8) = true → writeLands w (s.pass dt) = true →
    s.on (Reg.TMR_STAT_RUN n) = false → s.on (Reg.TMR_CTL_APPLY n) = false → s.tmrs.length = 8 →
    completes (.timerStart w dt) s (fun t => t.rd (Reg.TMR_STAT_RUN n) = 1 ∧ bitOf (t.rd Reg.TMR_GCTL_RUN) n = 1 ∧ (t.tmrs.getD n Tmr.reset).t0 = s.elapsed + dt)) ∧
  (∀ (n : Nat) (w : BusReq) (dt : Nat) (s : State), n < 8 → w.addr = 0x40040000 + 256 * n → timerApplyOk w = true → bitOf w.val 31 = 0 → stselOk s (bitsOf w.val 15 8) = true →
    writeLands w (s.pass dt) = true → s.on (Reg.TMR_STAT_RUN n) = false → s.on (Reg.TMR_CTL_APPLY n) = false →
    completes (.timerApply w dt) s (fun t => t.rd (Reg.TMR_CTL_APPLY n) = 1 ∧ t.rd (Reg.TMR_CTL_PSC n) = w.val % 16)) ∧
  (∀ (n c : Nat) (w : BusReq) (dt : Nat) (s : State), n < 8 → c < 4 → w.addr = 0x40040020 + 256 * n + 16 * c → forceOk w = true → bitsOf w.val 11 10 ≠ 3 → capselOk s (w.val % 256) = true →
    writeLands w (s.pass dt) = true → s.on (Reg.TMR_STAT_RUN n) = false → s.on (Reg.TMR_CTL_APPLY n) = false → bitsOf w.val 27 26 = 1 →
    completes (.force w dt) s (fun t => bitOf (t.rd (Reg.TMR_STAT_CCF n)) c = 1 ∧ t.flight = s.flight ++ [172 + 2 * n])) ∧
  (∀ (w : BusReq) (dt : Nat) (s : State), timerBlockResetOk w = true → writeLands w (s.pass dt) = true →
    completes (.timerBlockReset w dt) s (fun t => t.tmrs = List.replicate 8 Tmr.reset ∧
      (∀ f : Field, 0x40040000 * 32 ≤ f.key → f.key < 0x40050000 * 32 → t.rd f = f.reset ∧ t.rdC f = f.reset) ∧
      (∀ f : Field, f.key < 0x40040000 * 32 ∨ 0x40050000 * 32 ≤ f.key → t.rd f = s.rd f ∧ t.rdC f = s.rdC f) ∧ partsOnly [.regs, .com, .tmrs] (s.pass dt) t)) ∧
  (∀ (n c : Nat) (w : BusReq) (dt : Nat) (s : State), n < 8 → c < 4 → w.addr = 0x4004002C + 256 * n + 16 * c → capReadOk w = true → readLands w (s.pass dt) = true →
    completes (.capRead w dt) s (fun t => readGave w.ini t = some (s.rd (Reg.TMR_CC_CAP n c)) ∧ bitOf (t.rd (Reg.TMR_STAT_CAPF n)) c = 0 ∧
      changesOnly [Reg.TMR_STAT_CAPF n] [.rdata] (s.pass dt) t)) ∧
  (∀ (w : BusReq) (dt : Nat) (s : State), rtcApplyOk w = true → writeLands w (s.pass dt) = true → s.on Reg.RTC_CTL_APPLY = false →
    completes (.rtcApply w dt) s (fun t => t.rd Reg.RTC_CTL_APPLY = 1 ∧ t.rd Reg.RTC_CTL_ALEN = w.val % 2 ∧ t.rtc.applyAt = some (s.elapsed + dt) ∧
      changesOnly [Reg.RTC_CTL_APPLY, Reg.RTC_CTL_ALEN] [.rtc] (s.pass dt) t)) ∧
  (∀ (w : BusReq) (dt : Nat) (s : State), wakePeriodWriteOk w = true → writeLands w (s.pass dt) = true → s.on Reg.RTC_CTL_APPLY = false →
    completes (.wakePeriodWrite w dt) s (fun t => t.rd Reg.RTC_WAKE_PERIOD = w.val % 2 ^ 26 ∧ changesOnly [Reg.RTC_WAKE_PERIOD] [.rtc] (s.pass dt) t)) ∧
  (∀ (w : BusReq) (dt : Nat) (s : State), rtcTimeReadOk w = true → readLands w (s.pass dt) = true →
    completes (.rtcTimeRead w dt) s (fun t => readGave w.ini t = some (s.rd Reg.RTC_TIME_HOUR * 2 ^ 16 + s.rd Reg.RTC_TIME_MIN * 2 ^ 8 + s.rd Reg.RTC_TIME_SEC) ∧
      (look w.ini t.rtc.latch).map (fun p => p.1) = some (rtcDateWord s) ∧ changesOnly [] [.rtc, .rdata] (s.pass dt) t))

/-- Writes over the bus (R7, R9, R14, R29, R36, R776): a plain register takes what its fields' access codes let it take, a RAM takes its bytes, and a refused write is recorded and stores nothing; a
held write is made when its domain is On again, and a commit moves the shadows or refuses them (R15). -/
def Obligations.BusWrites : Prop :=
  (∀ (w : BusReq) (dt : Nat) (s : State), iniOk w = true → writeLands w (s.pass dt) = true → w.addr / 0x10000 ∈ [0x40060000, 0x40070000, 0x40080000, 0x40090000, 0x400A0000, 0x400B0000,
      0x400C0000, 0x400F0000, 0x40130000, 0x40170000].map (· / 0x10000) → ((regFields w.addr).map Field.key).Nodup →
    completes (.registerWrite w dt) s (fun t => (∀ f ∈ regFields w.addr, t.rd f = match f.acc with
        | .rw => fBits f w.val
        | .w1c => (s.rd f - (s.rd f &&& fBits f w.val)) % 2 ^ f.width
        | _ => s.rd f) ∧ changesOnly (regFields w.addr) [] (s.pass dt) t)) ∧
  (∀ (w : BusReq) (dt : Nat) (s : State), iniOk w = true → writeLands w (s.pass dt) = true → 0x10000000 ≤ w.addr → w.addr + w.size ≤ 0x10600000 → memWf s.mem = true →
    completes (.registerWrite w dt) s (fun t => (∀ i, i < w.size → (memRd t.mem (w.addr + i)).toNat = w.val / 256 ^ i % 256) ∧
      (∀ a, a < w.addr ∨ w.addr + w.size ≤ a → memRd t.mem a = memRd s.mem a))) ∧
  (∀ (w : BusReq) (dt : Nat) (s : State), iniOk w = true → 0 < (accessKind (s.pass dt) w.ini w.user true false w.addr w.size).1 → s.on Reg.SYS_BERR_INFO_VALID = false →
    completes (.registerWrite w dt) s (fun t => t.rd Reg.SYS_BERR_INFO_VALID = 1 ∧ t.rd Reg.SYS_BERR_INFO_KIND = (accessKind (s.pass dt) w.ini w.user true false w.addr w.size).1 ∧
      t.rd Reg.SYS_BERR_INFO_WRITE = 1 ∧ t.rd Reg.SYS_BERR_ADDR = w.addr ∧ memSame s t)) ∧
  (∀ (h : HeldW) (dt : Nat) (s : State), heldReady (s.pass dt) = some h → 0x10000000 ≤ h.addr → h.addr + h.size ≤ 0x10600000 → memWf s.mem = true →
    completes (.heldWrite dt) s (fun t => t.pwr.held = s.pwr.held.erase h ∧ (∀ i, i < h.size → (memRd t.mem (h.addr + i)).toNat = h.val / 256 ^ i % 256) ∧
      (∀ a, a < h.addr ∨ h.addr + h.size ≤ a → memRd t.mem a = memRd s.mem a))) ∧
  (∀ (b dt : Nat) (s : State), b < 8 → shadowCommitOk b (s.pass dt) = true →
    completes (.shadowCommit b dt) s (fun t => t.rd (Reg.TMR_CTL_APPLY b) = 0 ∧
      (if tmrRefused b s = true then t.rd (Reg.TMR_STAT_CFGERR b) = 1 ∧ t.com = s.com
       else (∀ f ∈ tmrSFields b, t.rdC f = s.rd f % 2 ^ f.width) ∧ changesOnly (Reg.TMR_CTL_APPLY b :: tmrSFields b) [] (s.pass dt) t))) ∧
  (∀ (n dt : Nat) (s : State), n < 2 → shadowCommitOk (8 + n) (s.pass dt) = true →
    completes (.shadowCommit (8 + n) dt) s (fun t => t.rd (Reg.SPX_CTL_APPLY n) = 0 ∧
      (if s.rd (Reg.SPX_CFG_WSIZE n) = 3 then t.rd (Reg.SPX_STAT_CFGERR n) = 1 ∧ t.com = s.com
       else (s.rd (Reg.SPX_PDAT_LEN n) + 1) % (8 * 2 ^ s.rd (Reg.SPX_CFG_WSIZE n)) = 0 → t.rdC (Reg.SPX_CFG_WSIZE n) = s.rd (Reg.SPX_CFG_WSIZE n) % 4))) ∧
  (∀ (k dt : Nat) (s : State), k < 4 → shadowCommitOk (10 + k) (s.pass dt) = true →
    completes (.shadowCommit (10 + k) dt) s (fun t => t.rd (Reg.FIRN_CAP_CTL_APPLY k) = 0 ∧
      (if capRefused k s = true then t.rd (Reg.FIRN_CAP_STAT_CFGERR k) = 1 ∧ t.com = s.com
       else t.rdC (Reg.FIRN_CAP_CTL_EN k) = s.rd (Reg.FIRN_CAP_CTL_EN k) % 2 ∧ t.rdC (Reg.FIRN_CAP_CTL_SRC k) = s.rd (Reg.FIRN_CAP_CTL_SRC k) % 256)))

/-- The serial ports' registers (R604, R606, R619, R620, R622): START, APPLY, the flushes and the data register. -/
def Obligations.SerialAccesses : Prop :=
  (∀ (n : Nat) (w : BusReq) (dt : Nat) (s : State), n < 2 → w.addr = 0x40110004 + 0x10000 * n → spxStartOk w = true → writeLands w (s.pass dt) = true →
    (n = 1 → s.on (Reg.SPX_STAT_GLETY 1) = false ∨ isCustomer w.ini = false) → bitsOf w.val 29 28 = 0 → bitOf w.val 31 = 0 → w.val % 2 = 1 → s.on (Reg.SPX_STAT_ACTIVE n) = false →
    completes (.spxStart w dt) s (fun t => if spxRole s n = 2 then t.rd (Reg.SPX_STAT_ACTIVE n) = 1 else t.rd (Reg.SPX_STAT_CFGERR n) = 1 ∧ t.spx = s.spx)) ∧
  (∀ (n : Nat) (w : BusReq) (dt : Nat) (s : State), n < 2 → w.addr = 0x40110004 + 0x10000 * n → spxApplyOk w = true → writeLands w (s.pass dt) = true →
    (n = 1 → s.on (Reg.SPX_STAT_GLETY 1) = false ∨ isCustomer w.ini = false) → bitsOf w.val 30 28 = 0 →
    completes (.spxApply w dt) s (fun t => t.rd (Reg.SPX_CTL_APPLY n) = 1 ∧ t.rd (Reg.SPX_CTL_EN n) = w.val % 2 ∧
      changesOnly [Reg.SPX_CTL_APPLY n, Reg.SPX_CTL_EN n, Reg.SPX_STAT_RUN n] [] (s.pass dt) t)) ∧
  (∀ (n : Nat) (w : BusReq) (dt : Nat) (s : State), n < 2 → w.addr = 0x40110004 + 0x10000 * n → txflushOk w = true → writeLands w (s.pass dt) = true → s.spx.length = 2 →
    (n = 1 → s.on (Reg.SPX_STAT_GLETY 1) = false ∨ isCustomer w.ini = false) → bitOf w.val 30 = 0 →
    completes (.txflush w dt) s (fun t => (spxOf t n).tx = [] ∧ t.rd (Reg.SPX_STAT_TXEMPTY n) = 1 ∧ (bitOf w.val 28 = 0 → (spxOf t n).rx = (spxOf s n).rx))) ∧
  (∀ (n : Nat) (w : BusReq) (dt : Nat) (s : State), n < 2 → w.addr = 0x40110004 + 0x10000 * n → rxflushOk w = true → writeLands w (s.pass dt) = true → s.spx.length = 2 →
    (n = 1 → s.on (Reg.SPX_STAT_GLETY 1) = false ∨ isCustomer w.ini = false) → bitOf w.val 30 = 0 →
    completes (.rxflush w dt) s (fun t => (spxOf t n).rx = [] ∧ t.rd (Reg.SPX_STAT_RXAVAIL n) = 0 ∧ (bitOf w.val 29 = 0 → (spxOf t n).tx = (spxOf s n).tx))) ∧
  (∀ (n : Nat) (w : BusReq) (dt : Nat) (s : State), n < 2 → w.addr = 0x40110014 + 0x10000 * n → isSpxData w = true → writeLands w (s.pass dt) = true → s.spx.length = 2 →
    (n = 1 → s.on (Reg.SPX_STAT_GLETY 1) = false ∨ isCustomer w.ini = false) → (spxOf s n).run = none →
    completes (.dataPush w dt) s (fun t => if 2048 < wordBytes (spxOf s n).tx + wsize s n / 8 then t.rd (Reg.SPX_STAT_CFGERR n) = 1 ∧ t.spx = s.spx
      else (spxOf t n).tx = (spxOf s n).tx ++ [(wsize s n, w.val % 2 ^ wsize s n)])) ∧
  (∀ (n x y : Nat) (ws : List (Nat × Nat)) (f : SpxFrame) (fs : List SpxFrame) (w : BusReq) (dt : Nat) (s : State), n < 2 → w.addr = 0x40110014 + 0x10000 * n → isSpxData w = true →
    readLands w (s.pass dt) = true → s.spx.length = 2 → (spxOf s n).rx = { f with words := (x, y) :: ws } :: fs →
    completes (.dataPop w dt) s (fun t => readGave w.ini t = some y ∧ (spxOf t n).rx = (if ws.isEmpty then fs else { f with words := ws } :: fs)))

/-- The power registers, the fence and the luminaire bus (R631, R643, R645, R627, R673, R749): what a write of their registers does at once. -/
def Obligations.PowerAccesses : Prop :=
  (∀ (n : Nat) (w : BusReq) (dt : Nat) (s : State), 1 ≤ n → n ≤ 13 → w.addr = 0x40000100 + 4 * n → voteWriteOk w = true → writeLands w (s.pass dt) = true →
    completes (.voteWrite w dt) s (fun t => t.rd (Reg.PWR_DOM_DLYLIM n) = fBits (Reg.PWR_DOM_DLYLIM n) w.val ∧
      (if w.val % 4 = 3 then t.rd Reg.PWR_STAT_CFGERR = 1 ∧ t.rd (Reg.PWR_DOM_CREQ n) = s.rd (Reg.PWR_DOM_CREQ n) else t.rd (Reg.PWR_DOM_CREQ n) = w.val % 4))) ∧
  (∀ (w : BusReq) (dt : Nat) (s : State), stopreqOk w = true → writeLands w (s.pass dt) = true → bitsOf w.val 30 29 = 0 →
    completes (.stopreq w dt) s (fun t => if s.on Reg.BKP_SET0_PROFILE = true then t.rd Reg.PWR_STAT_CFGERR = 1 ∧ t.pwr = s.pwr
      else s.on Reg.PWR_CTL_STOPREQ = false → s.pwr.stop = .none → t.rd Reg.PWR_CTL_STOPREQ = 1 ∧ t.pwr.stop = .handshake ∧ t.pwr.byPfail = false ∧ t.rd Reg.PWR_STAT_MODE = 1)) ∧
  (∀ (w : BusReq) (dt : Nat) (s : State), waketWriteOk w = true → writeLands w (s.pass dt) = true →
    completes (.waketWrite w dt) s (fun t => t.pwr.waketAt = (if w.val = 0 then none else some (s.elapsed + dt + w.val * cycXtal)) ∧ changesOnly [] [.pwr] (s.pass dt) t)) ∧
  (∀ (w : BusReq) (dt : Nat) (s : State), relatchOk w = true → writeLands w (s.pass dt) = true → bitOf w.val 31 = 0 → bitOf w.val 29 = 0 →
    completes (.relatch w dt) s (fun t => t.rd Reg.BKP_SET0_LATCHED = 0 ∧ t.rd Reg.PWR_CTL_PFAILEN = 0 ∧ changesOnly [Reg.BKP_SET0_LATCHED, Reg.PWR_CTL_PFAILEN] [] (s.pass dt) t)) ∧
  (∀ (w : BusReq) (dt : Nat) (s : State), mirFenceOk w = true → writeLands w (s.pass dt) = true → s.rd Reg.MIR_STAT_ROLE = 1 ∨ s.rd Reg.MIR_STAT_ROLE = 4 → s.on Reg.MIR_FENCE_FENCE = false →
    completes (.mirFence w dt) s (fun t => t.rd Reg.MIR_FENCE_FENCE = 1 ∧ t.mir.fence = some s.mir.seq)) ∧
  (∀ (w : BusReq) (dt : Nat) (s : State), daliSendOk w = true → writeLands w (s.pass dt) = true → s.on Reg.LMP_STAT_SVC = false ∨ isCustomer w.ini = false →
    completes (.daliSend w dt) s (fun t => if s.on Reg.LMP_STAT_DALIBUSY = true ∨ s.on Reg.LMP_CTL_DALIEN = false then t.rd Reg.LMP_STAT_CFGERR = 1 ∧ t.lmp = s.lmp
      else t.rd Reg.LMP_STAT_DALIBUSY = 1 ∧ t.lmp.dali = some { frame := w.val % 2 ^ 24, long := bitOf w.val 29 == 1, bw := bitOf w.val 30 == 1, poll := false, at_ := s.elapsed + dt }))

/-- FIRN's stages, coast and the root's time (R61, R62, R66, R57, R75): entering and leaving coast, holdover, a lost reference, the coarse offset and a leap second. -/
def Obligations.FirnStages : Prop :=
  (∀ (dt : Nat) (s : State), holdoverEntryOk (s.pass dt) = true →
    completes (.holdoverEntry dt) s (fun t => t.rd Reg.FIRN_STAT_STATE = 3 ∧ t.rd Reg.FIRN_FREQ = s.rd Reg.FIRN_FREQ ∧ t.flight = s.flight ++ [97] ∧
      t.firn = { (s.pass dt).firn with stage := .holdover, former := s.firn.stage, holdAt := s.elapsed + dt, inRow := 0, slewLeft := 0, slewRate := 0 })) ∧
  (∀ (dt : Nat) (s : State), tcxoLossOk (s.pass dt) = true →
    completes (.tcxoLoss dt) s (fun t => t.firn.coasting = true ∧ t.firn.tcxoLost = some (s.elapsed + dt) ∧ t.firn.loc = (s.pass dt).firn.loc ∧
      (s.firn.coasting = false → t.firn.stage = .coast ∧ t.firn.edgePhase = (s.elapsed + dt) % 9375))) ∧
  (∀ (n dt : Nat) (s : State), n < 32 → coastLaunchOk n (s.pass dt) = true →
    completes (.coastLaunch n dt) s (fun t => t.rd (Reg.FIRN_CMP_STAT_FIRED n) = 1 ∧ t.rd (Reg.FIRN_CMP_STAT_COASTED n) = 1 ∧ t.rd (Reg.FIRN_CMP_STAT_INFLIGHT n) = 0 ∧
      t.rd (Reg.FIRN_CMP_STAT_ARMED n) = 0 ∧ t.flight = s.flight ++ [64 + n] ∧
      changesOnly [Reg.FIRN_CMP_STAT_FIRED n, Reg.FIRN_CMP_STAT_COASTED n, Reg.FIRN_CMP_STAT_INFLIGHT n, Reg.FIRN_CMP_STAT_ARMED n] [.flight, .firn] (s.pass dt) t)) ∧
  (∀ (dt : Nat) (s : State), tcxoReturnOk (s.pass dt) = true →
    completes (.tcxoReturn dt) s (fun t => t.firn.tcxoLost = none ∧ t.firn.coasting = s.firn.coasting ∧ changesOnly [] [.firn] (s.pass dt) t)) ∧
  (∀ (dt : Nat) (s : State), coastRestartOk (s.pass dt) = true →
    completes (.coastRestart dt) s (fun t => t.firn = { (s.pass dt).firn with exitPhase := 2 } ∧ changesOnly [] [.firn] (s.pass dt) t)) ∧
  (∀ (dt : Nat) (s : State), coastAlignOk (s.pass dt) = true → s.firn.stage = .coast →
    completes (.coastAlign dt) s (fun t => t.rd Reg.FIRN_STAT_STATE = 3 ∧ t.firn.coasting = false ∧ t.firn.stage = .holdover ∧
      t.firn.loc = (s.pass dt).firn.loc - s.firn.edgePhase * s.firn.inc)) ∧
  (∀ (dt : Nat) (s : State), coarseOffsetWriteOk (s.pass dt) = true →
    completes (.coarseOffsetWrite dt) s (fun t => t.rd Reg.BKP_SET2 = ofSigned 32 (((s.pass dt).now / 2 ^ 30 : Nat) - (rtcNow (s.pass dt) : Int)) % 2 ^ 32 ∧
      changesOnly [Reg.BKP_SET2] [.firn] (s.pass dt) t)) ∧
  (∀ (dt : Nat) (s : State), leapSecondOk (s.pass dt) = true →
    completes (.leapSecond dt) s (fun t => t.firn.utcOff = s.firn.utcOff + (if bitOf s.firn.leap 1 = 1 then -1 else 1) ∧ t.firn.leap = 0 ∧ changesOnly [] [.firn] (s.pass dt) t)) ∧
  (∀ (dt : Nat) (s : State), ppsPulseLossOk (s.pass dt) = true →
    completes (.ppsPulseLoss dt) s (fun t => t.firn = { (s.pass dt).firn with pulseLost := true, refAt := s.elapsed + dt } ∧ changesOnly [] [.firn] (s.pass dt) t))

/-- Comparators and capture units (R81, R82, R83, R85, R92, R93, R361): the commit, the match, the launch and a capture. -/
def Obligations.FirnComparators : Prop :=
  (∀ (n dt : Nat) (s : State), n < 32 → comparatorCommitOk n (s.pass dt) = true →
    completes (.comparatorCommit n dt) s (fun t => t.rd (Reg.FIRN_CMP_CTL_ARM n) = 0 ∧
      (if cmpRefused n (s.pass dt) = true
       then t.rd (Reg.FIRN_CMP_STAT_CFGERR n) = 1 ∧ t.com = s.com ∧ t.rd (Reg.FIRN_CMP_STAT_ARMED n) = s.rd (Reg.FIRN_CMP_STAT_ARMED n)
       else t.rdC (Reg.FIRN_CMP_TLO n) = s.rd (Reg.FIRN_CMP_TLO n) % 2 ^ 32 ∧ t.rdC (Reg.FIRN_CMP_THI n) = s.rd (Reg.FIRN_CMP_THI n) % 2 ^ 32 ∧
         t.rdC (Reg.FIRN_CMP_CTL_CHAN n) = s.rd (Reg.FIRN_CMP_CTL_CHAN n) % 2 ^ (Reg.FIRN_CMP_CTL_CHAN n).width ∧
         t.rd (Reg.FIRN_CMP_STAT_FIRED n) = 0 ∧ t.rd (Reg.FIRN_CMP_STAT_COASTED n) = 0))) ∧
  (∀ (n dt : Nat) (s : State), n < 32 → matchOk n (s.pass dt) = true →
    completes (.match n dt) s (fun t => t.rd (Reg.FIRN_CMP_STAT_ARMED n) = 0 ∧ t.rd (Reg.FIRN_CMP_STAT_INFLIGHT n) = 1 ∧
      t.firn = { (s.pass dt).firn with flight := s.firn.flight ++ [⟨n, cmpT s n, false⟩] } ∧
      changesOnly [Reg.FIRN_CMP_STAT_ARMED n, Reg.FIRN_CMP_STAT_INFLIGHT n] [.firn] (s.pass dt) t)) ∧
  (∀ (n dt : Nat) (s : State), n < 32 → launchOk n (s.pass dt) = true → s.rdC (Reg.FIRN_CMP_CTL_CHEN n) = 0 →
    completes (.launch n dt) s (fun t => t.rd (Reg.FIRN_CMP_STAT_FIRED n) = 1 ∧ t.rd (Reg.FIRN_CMP_STAT_INFLIGHT n) = 0 ∧ t.flight = s.flight ++ [64 + n] ∧
      t.firn = { (s.pass dt).firn with flight := s.firn.flight.filter (fun l => !(l.cmp == n)) } ∧
      changesOnly [Reg.FIRN_CMP_STAT_FIRED n, Reg.FIRN_CMP_STAT_INFLIGHT n, Reg.FIRN_CMP_STAT_ARMED n] [.flight, .firn] (s.pass dt) t)) ∧
  (∀ (n dt : Nat) (l : Launch) (s : State), n < 32 → launchOk n (s.pass dt) = true → flightOf s n = some l → s.rdC (Reg.FIRN_CMP_CTL_CHEN n) = 1 →
    l.late = false ∨ s.rdC (Reg.FIRN_CMP_CTL_LATESUP n) = 0 → domOn s 11 = true →
    completes (.launch n dt) s (fun t => ∃ u, t = chanFire (s.rdC (Reg.FIRN_CMP_CTL_CHAN n)) (some (n, l.at_)) u ∧ u.rd (Reg.FIRN_CMP_STAT_FIRED n) = 1 ∧
      u.rd (Reg.FIRN_CMP_STAT_INFLIGHT n) = 0 ∧ u.flight = s.flight ++ [64 + n] ∧
      changesOnly [Reg.FIRN_CMP_STAT_FIRED n, Reg.FIRN_CMP_STAT_INFLIGHT n, Reg.FIRN_CMP_STAT_ARMED n] [.flight, .firn] (s.pass dt) u)) ∧
  (∀ (k : Nat) (rising : Bool) (dt : Nat) (s : State), k < 4 → captureOk k rising (s.pass dt) = true → k ≠ 0 ∨ s.on Reg.FIRN_STAT_ROOT = false →
    completes (.capture k rising dt) s (fun t => t.rd (Reg.FIRN_CAP_STAT_CAPF k) = 1 ∧ heldCapture t k = (s.pass dt).now % 2 ^ 64 ∧ t.flight = s.flight ++ [98 + k] ∧
      (s.on (Reg.FIRN_CAP_STAT_CAPF k) = true → k ∉ s.firn.heldRead → t.rd (Reg.FIRN_CAP_STAT_OVR k) = 1) ∧
      changesOnly [Reg.FIRN_CAP_STAT_CAPF k, Reg.FIRN_CAP_STAT_OVR k] [.flight, .firn] (s.pass dt) t))

/-- The radio's states (R125, R126, R127, R129, R132): requests, auto-return, time-outs and the end of a transition. -/
def Obligations.RadioStates : Prop :=
  (∀ (target freq vpa dt : Nat) (s : State), stateRequestOk target (s.pass dt) = true → txBusy s = true ∧ stKind s = 4 →
    completes (.stateRequest target freq vpa dt) s (fun t => t.rfe = { s.rfe with heldReq := some target, planned := freq } ∧ changesOnly [] [.rfe] (s.pass dt) t)) ∧
  (∀ (target freq vpa dt : Nat) (s : State), stateRequestOk target (s.pass dt) = true → txBusy s = false ∨ stKind s ≠ 4 →
    completes (.stateRequest target freq vpa dt) s (fun t => t.rd Reg.RFE_STAT_STATE = target % 32 ∧ t.rd Reg.RFE_STAT_KIND = stField s target 1 1 % 8 ∧
      t.rfe.moving = some (target, s.elapsed + dt) ∧ t.rfe.entered = s.elapsed + dt ∧ t.rfe.planned = freq)) ∧
  (∀ (vpa id d dt : Nat) (s : State), autoReturnOk (s.pass dt) = true → s.rfe.heldReq = none → s.rfe.pktDone = some id → stTarget s (stField s id 3 1) = some d → (stEntry s d).isSome = true →
    completes (.autoReturn vpa dt) s (fun t => t.rd Reg.RFE_STAT_STATE = d % 32 ∧ t.rd Reg.RFE_STAT_TXON = 0 ∧ t.rfe.tx = none ∧ t.rfe.pktDone = none)) ∧
  (∀ (vpa id dt : Nat) (s : State), autoReturnOk (s.pass dt) = true → s.rfe.heldReq = none → s.rfe.pktDone = some id → stTarget s (stField s id 3 1) = none →
    completes (.autoReturn vpa dt) s (fun t => t.rd Reg.RFE_STAT_STATE = s.rd Reg.RFE_STAT_STATE ∧ t.rd Reg.RFE_STAT_TXON = 0 ∧ t.rfe.tx = none ∧ t.rfe.pktDone = none)) ∧
  (∀ (vpa r dt : Nat) (s : State), autoReturnOk (s.pass dt) = true → s.rfe.heldReq = some r → (stEntry s r).isSome = true →
    completes (.autoReturn vpa dt) s (fun t => t.rd Reg.RFE_STAT_STATE = r % 32 ∧ t.rd Reg.RFE_STAT_TXON = 0 ∧ t.rfe.tx = none ∧ t.rfe.heldReq = none)) ∧
  (∀ (vpa d dt : Nat) (s : State), stateTimeoutOk (s.pass dt) = true → stTarget s (stField s (stNow s) 4 1) = some d → (stEntry s d).isSome = true →
    completes (.stateTimeout vpa dt) s (fun t => t.rd Reg.RFE_STAT_STATE = d % 32 ∧ t.rfe.entered = s.elapsed + dt ∧ t.rfe.moving = some (d, s.elapsed + dt))) ∧
  (∀ (dt : Nat) (s : State), radioTransitionDoneOk (s.pass dt) = true → 
    completes (.radioTransitionDone dt) s (fun t => t.rfe.moving = none ∧ t.rd Reg.RXC_STAT_MODE =
      (if modeAsked s (stNow s) = 1 then servedFull (lanesGood s) else if modeAsked s (stNow s) = 2 then servedNarrow (lanesGood s) else 0)))

/-- The synthesizer's locks, the calibrations, the duty window, the mismatch hold and the tuner's write-back (R112, R122, R124, R133, R134, R136, R145). -/
def Obligations.RadioLocksAndCalibrations : Prop :=
  (∀ (dt : Nat) (s : State), fullLockOk (s.pass dt) = true →
    completes (.fullLock dt) s (fun t => t.rd Reg.RFE_STAT_SYNTHLK = 1 ∧ t.rd Reg.RFE_STAT_CAL = 0 ∧ t.rd Reg.RFE_BANDCALCNT = satAdd 32 (s.rd Reg.RFE_BANDCALCNT) 1 ∧ t.rfe.lock = none ∧
      changesOnly [Reg.RFE_STAT_SYNTHLK, Reg.RFE_STAT_CAL, Reg.RFE_BANDCALCNT] [.rfe] (s.pass dt) t)) ∧
  (∀ (dt : Nat) (s : State), retuneOk (s.pass dt) = true →
    completes (.retune dt) s (fun t => t.rd Reg.RFE_STAT_SYNTHLK = 1 ∧ t.rfe = { s.rfe with lock := none } ∧ changesOnly [Reg.RFE_STAT_SYNTHLK] [.rfe] (s.pass dt) t)) ∧
  (∀ (kind port dt : Nat) (s : State), calibrationStartOk kind port (s.pass dt) = true →
    completes (.calibrationStart kind port dt) s (fun t => t.rd Reg.RFE_STAT_CAL = kind ∧ t.rfe.cal = some ⟨kind, port, s.elapsed + dt, (calRec s kind port).resume⟩ ∧
      changesOnly [Reg.RFE_STAT_CAL] [.rfe] (s.pass dt) t)) ∧
  (∀ (dt : Nat) (s : State), calibrationAbandonOk (s.pass dt) = true →
    completes (.calibrationAbandon dt) s (fun t => t.rd Reg.RFE_STAT_CAL = 0 ∧ t.rd Reg.RFE_CALABNCNT = satAdd 32 (s.rd Reg.RFE_CALABNCNT) 1 ∧ t.rfe.cal = none ∧
      changesOnly [Reg.RFE_STAT_CAL, Reg.RFE_CALABNCNT] [.rfe] (s.pass dt) t)) ∧
  (∀ (dt : Nat) (s : State), calibrationCompleteOk (s.pass dt) = true →
    completes (.calibrationComplete true dt) s (fun t => t.rd Reg.RFE_STAT_CAL = 0 ∧ t.rfe.cal = none ∧ changesOnly [Reg.RFE_STAT_CAL] [.rfe] (s.pass dt) t)) ∧
  (∀ (dt : Nat) (s : State), calibrationCompleteOk (s.pass dt) = true →
    completes (.calibrationComplete false dt) s (fun t => t.rd Reg.RFE_STAT_CAL = 0 ∧ t.rfe.cal = none ∧ t.rd Reg.RFE_CALFAILCNT = satAdd 32 (s.rd Reg.RFE_CALFAILCNT) 1 ∧
      t.flight = s.flight ++ [110, 144])) ∧
  (∀ (kind port dt : Nat) (s : State), calibrationOverdueOk kind port (s.pass dt) = true →
    completes (.calibrationOverdue kind port dt) s (fun t => match (calRec s kind port).dueAt with
      | none => (calRec t kind port).dueAt = some (s.elapsed + dt) ∧ changesOnly [] [.rfe] (s.pass dt) t
      | some d => if d + cycS 3600 ≤ s.elapsed + dt then t.rd Reg.RFE_STAT_CAL = kind ∧ t.rfe.cal.isSome = true else t = s.pass dt)) ∧
  (∀ (dt : Nat) (s : State), dutyBucketOk (s.pass dt) = true →
    completes (.dutyBucket dt) s (fun t => t.rfe.dutyAt = s.rfe.dutyAt + cycS 60 ∧ (∀ i, i < subCount s → dutyBuckets t i = 0 :: (dutyBuckets s i).take 59) ∧
      changesOnly [Reg.RFE_DUTYUSE_SUBBAND, Reg.RFE_DUTYUSE_USE] [.rfe] (s.pass dt) t)) ∧
  (∀ (p dt : Nat) (s : State), faultHoldExpiryOk p (s.pass dt) = true →
    completes (.faultHoldExpiry p dt) s (fun t => t.rd (classField p) = 2 ∧ (rfePort t p).faultedAt = none ∧ (rfePort t p).remeasure = true)) ∧
  (∀ (dt : Nat) (s : State), tunerWriteBackOk (s.pass dt) = true →
    completes (.tunerWriteBack dt) s (fun t => tableSource t 0x13 = 3 ∧ tableVer t 0x13 = tableVer s 0x13 ∧ t.rfe = { s.rfe with tunerAt := s.elapsed + dt } ∧ changesOnly [] [.rfe, .tables] (s.pass dt) t))

/-- Transmissions (R134, R137 to R142, R123): sent at the ramp-up, held for the transmitter, refused with the first outcome that applies, abandoned late, ended, or cut by a mismatch. -/
def Obligations.RadioTransmissions : Prop :=
  (∀ (r : TxReq) (busy lbt : Bool) (i dt : Nat) (s u : State), txEvaluateOk r (s.pass dt) = true → u = calAbandon (s.pass dt) → u.now ≤ r.t + txSlack u r → txReady u lbt = true →
    txRefusal u r busy = none → subOf u r.freq r.span = some i →
    completes (.txEvaluate r busy lbt dt) s (fun t => t.rd Reg.RFE_STAT_TXON = 1 ∧ t.rd Reg.RFE_STAT_STATE = r.state % 32 ∧
      t.rfe.tx = some { req := r, phase := .onAir, outcome := 0, used := (txPower u r i).1, clip := (txPower u r i).2, hold := 0, since := s.elapsed + dt })) ∧
  (∀ (r : TxReq) (busy lbt : Bool) (o dt : Nat) (s u : State), txEvaluateOk r (s.pass dt) = true → u = calAbandon (s.pass dt) → r.t + txSlack u r < u.now ∨ txReady u lbt = true →
    txRefusal u r busy = some o →
    completes (.txEvaluate r busy lbt dt) s (fun t => t.rd Reg.RFE_LASTTX_OUTCOME = o ∧ t.rd Reg.RFE_STAT_TXON = s.rd Reg.RFE_STAT_TXON ∧ t.rfe.tx = none ∧ t.rfe.pktDone = some r.state)) ∧
  (∀ (r : TxReq) (busy lbt : Bool) (dt : Nat) (s u : State), txEvaluateOk r (s.pass dt) = true → u = calAbandon (s.pass dt) → r.t + txSlack u r < u.now → txRefusal u r busy = none →
    completes (.txEvaluate r busy lbt dt) s (fun t => t.rd Reg.RFE_LASTTX_OUTCOME = 2 ∧ t.rd Reg.RFE_LATECNT = satAdd 32 (s.rd Reg.RFE_LATECNT) 1 ∧ t.rfe.tx = none ∧
      t.rfe.pktDone = some r.state ∧ t.flight = s.flight ++ [104])) ∧
  (∀ (r : TxReq) (busy lbt : Bool) (dt : Nat) (s u : State), txEvaluateOk r (s.pass dt) = true → u = calAbandon (s.pass dt) → u.now ≤ r.t + txSlack u r → txReady u lbt = false →
    completes (.txEvaluate r busy lbt dt) s (fun t => txHeld t = some r ∧ changesOnly [Reg.RFE_STAT_CAL, Reg.RFE_CALABNCNT] [.rfe] (s.pass dt) t)) ∧
  (∀ (r : TxReq) (busy lbt : Bool) (i dt : Nat) (s u : State), txHoldReleaseOk lbt (s.pass dt) = true → u = s.pass dt → txHeld s = some r → txRefusal u r busy = none → subOf u r.freq r.span = some i →
    (stEntry s r.state).isSome = true →
    completes (.txHoldRelease busy lbt dt) s (fun t => t.rd Reg.RFE_STAT_TXON = 1 ∧ t.flight = s.flight ++ [105] ∧ ∃ x, t.rfe.tx = some x ∧ x.req = r ∧ x.phase = .onAir ∧ x.outcome = 1 ∧
      x.hold = min 1023 ((u.now + ftUs 2 - r.t) * 1000000 / 2 ^ 30))) ∧
  (∀ (r : TxReq) (busy lbt : Bool) (o dt : Nat) (s : State), txHoldReleaseOk lbt (s.pass dt) = true → txHeld s = some r → txRefusal (s.pass dt) r busy = some o →
    completes (.txHoldRelease busy lbt dt) s (fun t => t.rd Reg.RFE_LASTTX_OUTCOME = o ∧ t.rfe.tx = none ∧ t.rfe.pktDone = some r.state)) ∧
  (∀ (r : TxReq) (dt : Nat) (s : State), txAbandonOk (s.pass dt) = true → txHeld s = some r →
    completes (.txAbandon dt) s (fun t => t.rd Reg.RFE_LASTTX_OUTCOME = 2 ∧ t.rd Reg.RFE_LATECNT = satAdd 32 (s.rd Reg.RFE_LATECNT) 1 ∧ t.rd Reg.RFE_STAT_SYNTHON = s.rd Reg.RFE_STAT_SYNTHON ∧
      t.rfe.tx = none ∧ t.rfe.pktDone = some r.state ∧ t.flight = s.flight ++ [104])) ∧
  (∀ (rl fwd ser shu : Nat) (low : Bool) (x : Tx) (dt : Nat) (s : State), txFrameEndOk (s.pass dt) = true → s.rfe.tx = some x →
    completes (.txFrameEnd rl fwd ser shu low dt) s (fun t => t.rfe.tx = some { x with phase := .rampDown, since := s.elapsed + dt } ∧ t.rfe.pktDone = some x.req.state ∧
      t.rd Reg.RFE_LASTTX_OUTCOME = x.outcome % 16 ∧ t.rd Reg.RFE_TXCNT = satAdd 32 (s.rd Reg.RFE_TXCNT) 1)) ∧
  (∀ (rl fwd : Nat) (x : Tx) (dt : Nat) (s : State), mismatchFaultOk rl (s.pass dt) = true → s.rfe.tx = some x → s.rfe.ports.length = 2 →
    completes (.mismatchFault rl fwd dt) s (fun t => t.rfe.tx = some { x with phase := .rampDown, since := s.elapsed + dt } ∧ t.rfe.pktDone = some x.req.state ∧ t.rd Reg.RFE_LASTTX_OUTCOME = 6 ∧
      t.rd Reg.RFE_MISMCNT = satAdd 32 (s.rd Reg.RFE_MISMCNT) 1 ∧ t.rd (classField (txPort s x.req)) = 3 ∧ (rfePort t (txPort s x.req)).faultedAt = some (s.elapsed + dt)))

/-- The receiver's lanes, gain and sample marks (R159, R160, R161, R178): calibration, retirement and exchange of lanes, a clip, a step up and a mark. The end of a frame in a decoder (R127, R175,
R177): the receive ring or a counter, and the decoder is no longer busy. -/
def Obligations.ReceiverLanesAndFrames : Prop :=
  (∀ (i q dt : Nat) (s : State), laneCalibrationOk i (s.pass dt) = true → s.rxc.lanes.length = 9 → 128 ≤ q ∨ (lane s i).low = false →
    completes (.laneCalibration i q true dt) s (fun t => lane t i = ⟨some (s.elapsed + dt), decide (q < 128), decide (128 ≤ q)⟩ ∧ t.rd (laneQ i) = min 255 q ∧
      changesOnly [laneQ i] [.rxc] (s.pass dt) t)) ∧
  (∀ (i q : Nat) (conv : Bool) (dt : Nat) (s : State), laneCalibrationOk i (s.pass dt) = true → conv = false ∨ (q < 128 ∧ (lane s i).low = true) →
    completes (.laneCalibration i q conv dt) s (fun t => bitOf (t.rd Reg.RXC_LANE_RETIRED) i = 1 ∧ t.rd (laneQ i) = 0 ∧ t.rd Reg.AGE_ALARMS_LANES = 1 ∧ 112 ∈ t.flight)) ∧
  (∀ (i dt : Nat) (s : State), laneExchangeOk i (s.pass dt) = true → s.rd Reg.RXC_STAT_MODE ≠ 2 →
    completes (.laneExchange i dt) s (fun t => t.rd Reg.RXC_LANE_SPARE = i ∧ t.rd Reg.RXC_ROTCNT = satAdd 32 (s.rd Reg.RXC_ROTCNT) 1 ∧ t.rxc.rotAt = s.elapsed + dt ∧
      changesOnly [Reg.RXC_LANE_SPARE, Reg.RXC_ROTCNT] [.rxc] (s.pass dt) t)) ∧
  (∀ (i dt : Nat) (s : State), laneExchangeOk i (s.pass dt) = true → s.rd Reg.RXC_STAT_MODE = 2 →
    completes (.laneExchange i dt) s (fun t => t.rd Reg.RXC_LANE_NLANE ≠ i ∧ laneRetired s (t.rd Reg.RXC_LANE_NLANE) = false ∧ (lane s (t.rd Reg.RXC_LANE_NLANE)).ready = true ∧
      t.rd Reg.RXC_ROTCNT = satAdd 32 (s.rd Reg.RXC_ROTCNT) 1 ∧ changesOnly [Reg.RXC_LANE_NLANE, Reg.RXC_ROTCNT] [.rxc] (s.pass dt) t)) ∧
  (∀ (ps pw dt : Nat) (s : State), clipOverloadOk ps pw (s.pass dt) = true →
    completes (.clipOverload ps pw dt) s (fun t => t.rd (gainField (if ps < pw then 1 else 0)) = s.rd (gainField (if ps < pw then 1 else 0)) + 1 ∧
      t.rd Reg.RXC_OVLCNT = satAdd 32 (s.rd Reg.RXC_OVLCNT) 1 ∧ t.flight = s.flight ++ [115] ∧
      (∀ d b, dec s d = .busy b → dec t d = .busy (if winPath s b.cand.win = (if ps < pw then 1 else 0) then { b with gainStep := true } else b)) ∧
      changesOnly [gainField (if ps < pw then 1 else 0), Reg.RXC_OVLCNT] [.rxc, .flight] (s.pass dt) t)) ∧
  (∀ (p dt : Nat) (s : State), gainStepUpOk p (s.pass dt) = true →
    completes (.gainStepUp p dt) s (fun t => t.rd (gainField p) = (s.rd (gainField p) - 1) % 2 ^ (gainField p).width ∧ changesOnly [gainField p] [] (s.pass dt) t)) ∧
  (∀ (dt : Nat) (s : State), s.rd Reg.RXC_STAT_MODE ≠ 0 →
    completes (.timestampMark dt) s (fun t => t.rxc = { s.rxc with mark := some (s.elapsed + dt, (s.pass dt).now) } ∧ changesOnly [] [.rxc] (s.pass dt) t)) ∧
  (∀ (d : Nat) (b : Busy) (r : RxIn) (dt : Nat) (s : State), frameDecodedOk d r (s.pass dt) = true → dec s d = .busy b → r.fcsOk = true →
    completes (.frameDecoded d r true dt) s (fun t => t.rxc.ring = s.rxc.ring ++ [rxRecord d b r (s.pass dt)] ∧ t.rd Reg.MDM_FRAMECNT = satAdd 32 (s.rd Reg.MDM_FRAMECNT) 1 ∧
      (dec t d).isBusy = false ∧ (stKind s = 2 → t.rfe.pktDone = some (stNow s)))) ∧
  (∀ (d : Nat) (r : RxIn) (room : Bool) (dt : Nat) (s : State), frameDecodedOk d r (s.pass dt) = true → r.fcsOk = false →
    completes (.frameDecoded d r room dt) s (fun t => t.rxc.ring = s.rxc.ring ∧ t.rd Reg.MDM_FCSCNT = satAdd 32 (s.rd Reg.MDM_FCSCNT) 1 ∧ (dec t d).isBusy = false ∧ t.flight = s.flight)) ∧
  (∀ (d : Nat) (r : RxIn) (dt : Nat) (s : State), frameDecodedOk d r (s.pass dt) = true → r.fcsOk = true →
    completes (.frameDecoded d r false dt) s (fun t => t.rxc.ring = s.rxc.ring ∧ t.rd Reg.MDM_RINGCNT = satAdd 32 (s.rd Reg.MDM_RINGCNT) 1 ∧ (dec t d).isBusy = false ∧ t.flight = s.flight ++ [116])) ∧
  (∀ (d dt : Nat) (s : State), sfdTimeoutOk d (s.pass dt) = true →
    completes (.sfdTimeout d dt) s (fun t => t.rd Reg.MDM_SFDTOCNT = satAdd 32 (s.rd Reg.MDM_SFDTOCNT) 1 ∧ (dec t d).isBusy = false ∧ t.rxc.ring = s.rxc.ring)) ∧
  (∀ (d reason dt : Nat) (s : State), decodeAbandonOk d reason (s.pass dt) = true →
    completes (.decodeAbandon d reason dt) s (fun t => t.rd Reg.MDM_ABNCNT = satAdd 32 (s.rd Reg.MDM_ABNCNT) 1 ∧ (dec t d).isBusy = false ∧ t.rxc.ring = s.rxc.ring))

/-- Candidates, reservations and their allocation to decoders (R169 to R174): a candidate joins, waits, is dropped or gets a decoder, and a reservation takes a decoder until it lapses. -/
def Obligations.ReceiverCandidates : Prop :=
  (∀ (w bin mode energy dt : Nat) (s : State), preambleDetectOk w bin mode (s.pass dt) = true →
    completes (.preambleDetect w bin mode energy true dt) s (fun t =>
      t.rxc.cands = s.rxc.cands.map (fun c => if c.win = w ∧ c.bin = bin ∧ c.mode = modeEntry mode then { c with last := s.elapsed + dt } else c) ∧
      t.rd Reg.RXC_DETCNT = s.rd Reg.RXC_DETCNT)) ∧
  (∀ (w bin mode energy dt : Nat) (s : State), preambleDetectOk w bin mode (s.pass dt) = true → s.rxc.cands.any (candMerges (s.pass dt) w bin mode) = true →
    completes (.preambleDetect w bin mode energy false dt) s (fun t => t.rd Reg.RXC_DETCNT = satAdd 32 (s.rd Reg.RXC_DETCNT) 1 ∧ t.rxc.cands.length = s.rxc.cands.length ∧
      ∀ c ∈ s.rxc.cands, candMerges (s.pass dt) w bin mode c = true → { c with last := s.elapsed + dt, bin := if c.energy < energy then bin else c.bin, energy := max c.energy energy } ∈ t.rxc.cands)) ∧
  (∀ (w bin mode energy dt : Nat) (s : State), preambleDetectOk w bin mode (s.pass dt) = true → s.rxc.cands.any (candMerges (s.pass dt) w bin mode) = false → s.rxc.cands.length < 64 →
    completes (.preambleDetect w bin mode energy false dt) s (fun t => t.rd Reg.RXC_DETCNT = satAdd 32 (s.rd Reg.RXC_DETCNT) 1 ∧
      t.rxc.cands = s.rxc.cands ++ [⟨w, bin, modeEntry mode, energy, s.elapsed + dt, s.elapsed + dt⟩])) ∧
  (∀ (w bin mode energy dt : Nat) (s : State), preambleDetectOk w bin mode (s.pass dt) = true → s.rxc.cands.any (candMerges (s.pass dt) w bin mode) = false → s.rxc.cands.length = 64 →
    completes (.preambleDetect w bin mode energy false dt) s (fun t => t.rd Reg.RXC_DETCNT = satAdd 32 (s.rd Reg.RXC_DETCNT) 1 ∧
      t.rd Reg.RXC_NODECCNT = satAdd 32 (s.rd Reg.RXC_NODECCNT) 1 ∧ t.rxc.cands.length = 64)) ∧
  (∀ (i dt : Nat) (s : State), candidateExpiryOk i (s.pass dt) = true →
    completes (.candidateExpiry i dt) s (fun t => t.rd Reg.RXC_NODECCNT = satAdd 32 (s.rd Reg.RXC_NODECCNT) 1 ∧ t.rxc.cands = s.rxc.cands.eraseIdx i ∧
      (s.rxc.ev114 = none → t.flight = s.flight ++ [114]))) ∧
  (∀ (dt : Nat) (s : State), allocationOk (s.pass dt) = true → s.rxc.decs.length = 32 →
    completes (.allocation dt) s (fun t => t.rxc.decs.length = 32 ∧ (t.rxc.cands = [] ∨ ∀ d, d < poolSize s → (dec t d).isFree = false) ∧
      ∀ d, poolSize s ≤ d → dec t d = dec s d)) ∧
  (∀ (i d : Nat) (r : Rsv) (dt : Nat) (s : State), reservationStartOk i (s.pass dt) = true → s.rxc.decs.length = 32 → s.rxc.rsvs[i]? = some r →
    (List.range (poolSize s)).find? (fun d => (dec s d).isFree) = some d →
    completes (.reservationStart i dt) s (fun t => dec t d = .reserved r ∧ t.rxc.rsvs = s.rxc.rsvs.eraseIdx i)) ∧
  (∀ (i : Nat) (r : Rsv) (dt : Nat) (s : State), reservationStartOk i (s.pass dt) = true → s.rxc.rsvs[i]? = some r → (∀ d, d < poolSize s → (dec s d).isFree = false) →
    completes (.reservationStart i dt) s (fun t => t.rxc.rsvWait = s.rxc.rsvWait ++ [r] ∧ t.rxc.rsvs = s.rxc.rsvs.eraseIdx i ∧ t.rxc.decs = s.rxc.decs)) ∧
  (∀ (d : Nat) (r : Rsv) (dt : Nat) (s : State), reservationLapseOk d (s.pass dt) = true → dec s d = .reserved r → r.until_ ≤ (s.pass dt).now →
    completes (.reservationLapse d dt) s (fun t => dec t d = (match s.rxc.rsvWait.find? (fun r => decide ((s.pass dt).now < r.until_)) with | some q => .reserved q | none => .free))) ∧
  (∀ (d : Nat) (dt : Nat) (s : State), reservationLapseOk d (s.pass dt) = true → (∀ r, dec s d = .reserved r → (s.pass dt).now < r.until_) →
    completes (.reservationLapse d dt) s (fun t => t.rxc = { s.rxc with rsvWait := s.rxc.rsvWait.filter (fun r => decide ((s.pass dt).now < r.until_)) } ∧ changesOnly [] [.rxc] (s.pass dt) t))

/-- A node's beacons and its parent (R215, R218, R220, R239): a beacon is planned, a missed one counts and the third in a row is beacon-lost, a parent is chosen again, and a dropped child is called.
Joining and connecting (R221, R222, R237): a request is planned with a fresh nonce and tried again up to four times, and after that its candidate has failed. -/
def Obligations.LinkBeaconsAndJoining : Prop :=
  (∀ (m dt : Nat) (s : State), beaconTxOk m (s.pass dt) = true → s.rd Reg.MIR_STAT_ROLE = 0 → s.mir.switch = none →
    completes (.beaconTx m dt) s (fun t => t.rd Reg.LNK_BCNTXCNT = satAdd 32 (s.rd Reg.LNK_BCNTXCNT) 1 ∧ t.lnk.nextM = m + 1 ∧
      ∃ p, t.rfe.planned_ = s.rfe.planned_ ++ [p] ∧ p.t = beaconStart s (ownShort s) m ∧ p.freq = beaconFreq s m)) ∧
  (∀ (dt : Nat) (s : State), beaconMissOk (s.pass dt) = true →
    completes (.beaconMiss dt) s (fun t => t.rd Reg.LNK_STAT_BMISS = min 3 (s.rd Reg.LNK_STAT_BMISS + 1) ∧ t.rd Reg.LNK_BCNMISSCNT = satAdd 32 (s.rd Reg.LNK_BCNMISSCNT) 1 ∧
      (s.rd Reg.LNK_STAT_BMISS = 2 → s.on Reg.LNK_STAT_BLOST = false → t.rd Reg.LNK_STAT_BLOST = 1 ∧ t.rd Reg.LNK_BLOSTCNT = satAdd 32 (s.rd Reg.LNK_BLOSTCNT) 1 ∧ 120 ∈ t.flight))) ∧
  (∀ (b : Beacon) (dt : Nat) (s : State), parentReselectOk (s.pass dt) = true → reselectPick (s.pass dt) = some b →
    completes (.parentReselect dt) s (fun t => t.rd Reg.LNK_PARENT_PARENT = b.addr % 2 ^ 16 ∧ t.rd Reg.LNK_STAT_BLOST = 0 ∧ t.rd Reg.LNK_STAT_BMISS = 0 ∧
      t.rd Reg.LNK_PARCHGCNT = satAdd 32 (s.rd Reg.LNK_PARCHGCNT) 1 ∧ 121 ∈ t.flight)) ∧
  (∀ (i dt : Nat) (d : Dropped) (s : State), resumeBeaconOk i (s.pass dt) = true → s.lnk.dropped[i]? = some d → d.beacons = 1 →
    completes (.resumeBeacon i dt) s (fun t => t.rd Reg.LNK_WAKEFAILCNT = satAdd 32 (s.rd Reg.LNK_WAKEFAILCNT) 1 ∧ (t.lnk.dropped[i]?).map (·.beacons) = some 0 ∧ t.rfe = s.rfe)) ∧
  (∀ (i dt : Nat) (d : Dropped) (s : State), resumeBeaconOk i (s.pass dt) = true → s.lnk.dropped[i]? = some d → 1 < d.beacons → (sendEpoch (s.pass dt)).isSome = true →
    s.rd Reg.MIR_STAT_ROLE = 0 → s.mir.switch = none →
    completes (.resumeBeacon i dt) s (fun t => t.rd Reg.LNK_BCNTXCNT = satAdd 32 (s.rd Reg.LNK_BCNTXCNT) 1 ∧ (t.lnk.dropped[i]?).map (·.beacons) = some (d.beacons - 1) ∧
      (t.lnk.dropped[i]?).map (·.next) = some (s.elapsed + dt + cycMs 5) ∧ t.rfe.planned_.length = s.rfe.planned_.length + 1)) ∧
  (∀ (i dt : Nat) (s : State), childRecordExpiryOk i (s.pass dt) = true →
    completes (.childRecordExpiry i dt) s (fun t => t.lnk = { s.lnk with dropped := s.lnk.dropped.eraseIdx i } ∧ changesOnly [] [.lnk] (s.pass dt) t)) ∧
  (∀ (t0 dt : Nat) (b : Beacon) (s : State), joinReqSendOk t0 (s.pass dt) = true → joinTarget (s.pass dt) = some b → s.rd Reg.MIR_STAT_ROLE = 0 → s.mir.switch = none →
    completes (.joinReqSend t0 dt) s (fun t => (∃ a, t.lnk.join = some a ∧ a.target = b.addr ∧ a.sentAt = some (s.elapsed + dt) ∧ a.nonce = s.free % 2 ^ 32 ∧
        a.tries = (match s.lnk.join with | some x => x.tries + 1 | none => 1)) ∧
      t.freeCtr = s.freeCtr + 1 ∧ ∃ p, t.rfe.planned_ = s.rfe.planned_ ++ [p] ∧ p.t = t0 ∧ p.freq = b.freq ∧ p.mode = b.mode)) ∧
  (∀ (dt : Nat) (a : Attempt) (s : State), joinTimeoutOk (s.pass dt) = true → s.lnk.join = some a → a.tries ≤ 4 →
    completes (.joinTimeout dt) s (fun t => t.lnk = { s.lnk with join := some { a with sentAt := none, notBefore := biWait (s.pass dt) } } ∧ changesOnly [] [.lnk, .freeCtr] (s.pass dt) t)) ∧
  (∀ (dt : Nat) (a : Attempt) (s : State), joinTimeoutOk (s.pass dt) = true → s.lnk.join = some a → 4 < a.tries →
    completes (.joinTimeout dt) s (fun t => t.lnk.join = none ∧ (∀ b ∈ t.lnk.cands, b.addr = a.target → b.failed = true) ∧ changesOnly [] [.lnk] (s.pass dt) t)) ∧
  (∀ (t0 dt : Nat) (a : Attempt) (s : State), connReqSendOk t0 (s.pass dt) = true → s.lnk.connect = some a → s.rd Reg.MIR_STAT_ROLE = 0 → s.mir.switch = none →
    completes (.connReqSend t0 dt) s (fun t => t.lnk.connect = some { a with tries := a.tries + 1, sentAt := some (s.elapsed + dt) } ∧
      ∃ p, t.rfe.planned_ = s.rfe.planned_ ++ [p] ∧ p.t = t0)) ∧
  (∀ (dt : Nat) (a : Attempt) (s : State), connectRetryOk (s.pass dt) = true → s.lnk.connect = some a → a.tries ≤ 4 →
    completes (.connectRetry dt) s (fun t => t.lnk = { s.lnk with connect := some { a with sentAt := none, notBefore := biWait (s.pass dt) } } ∧ changesOnly [] [.lnk, .freeCtr] (s.pass dt) t)) ∧
  (∀ (dt : Nat) (a : Attempt) (s : State), connectRetryOk (s.pass dt) = true → s.lnk.connect = some a → 4 < a.tries →
    completes (.connectRetry dt) s (fun t => ∀ b ∈ t.lnk.cands, b.addr = a.target → b.failed = true)) ∧
  (∀ (dt : Nat) (r : Recover) (s : State), driftRecoveryListenOk (s.pass dt) = true → s.lnk.recover = some r →
    completes (.driftRecoveryListen dt) s (fun t => t.lnk = { s.lnk with recover := some { r with step := r.step + 1 } } ∧
      (txBusy s = false → (stEntry s (if isLeaf s then 3 else 2)).isSome = true → t.rd Reg.RFE_STAT_STATE = if isLeaf s then 3 else 2)))

/-- Connections (R224, R225, R227, R198, R222, R231): an event opens, is skipped or closes, and a connection ends with its reason counted and shown. -/
def Obligations.LinkConnections : Prop :=
  (∀ (id dt : Nat) (c : Conn) (s : State), connectionEventOk id 0 (s.pass dt) = true → connOf s id = some c →
    completes (.connectionEvent id 0 false dt) s (fun t => t.rd Reg.LNK_EVTCNT = satAdd 32 (s.rd Reg.LNK_EVTCNT) 1 ∧ ∃ x, connOf t id = some x ∧ x.open_ = true ∧ x.k = c.k)) ∧
  (∀ (id dt : Nat) (c : Conn) (s : State), connectionEventOk id 0 (s.pass dt) = true → connOf s id = some c →
    completes (.connectionEvent id 0 true dt) s (fun t => t.rd Reg.LNK_TXCONFCNT = satAdd 32 (s.rd Reg.LNK_TXCONFCNT) 1 ∧ t.rd Reg.LNK_EVTMISSCNT = satAdd 32 (s.rd Reg.LNK_EVTMISSCNT) 1 ∧
      connOf t id = some { c with k := c.k + 1, events := c.events + 1, open_ := false, heard := false, misses := c.misses + 1 } ∧
      changesOnly [Reg.LNK_TXCONFCNT, Reg.LNK_EVTMISSCNT] [.lnk] (s.pass dt) t)) ∧
  (∀ (id phase dt : Nat) (lost : Bool) (c : Conn) (s : State), connectionEventOk id phase (s.pass dt) = true → phase ≠ 0 → connOf s id = some c →
    completes (.connectionEvent id phase lost dt) s (fun t => connOf t id = some { c with k := c.k + 1, events := c.events + 1, open_ := false, heard := false, misses := if c.got then 0 else c.misses + 1 } ∧
      (c.got = false → t.rd Reg.LNK_EVTMISSCNT = satAdd 32 (s.rd Reg.LNK_EVTMISSCNT) 1) ∧ changesOnly [Reg.LNK_EVTMISSCNT] [.lnk] (s.pass dt) t)) ∧
  (∀ (id dt : Nat) (c : Conn) (s : State), establishTimeoutOk id (s.pass dt) = true → connOf s id = some c →
    completes (.establishTimeout id dt) s (fun t => connOf t id = none ∧ t.rd Reg.LNK_DROPCNT = satAdd 32 (s.rd Reg.LNK_DROPCNT) 1 ∧ t.rd Reg.LNK_LASTDROP_REASON = 1 ∧
      t.rd Reg.LNK_LASTDROP_PEER = c.peer % 2 ^ 16 ∧ 123 ∈ t.flight)) ∧
  (∀ (id dt : Nat) (c : Conn) (s : State), supervisionTimeoutOk id (s.pass dt) = true → connOf s id = some c →
    completes (.supervisionTimeout id dt) s (fun t => connOf t id = none ∧ t.rd Reg.LNK_DROPCNT = satAdd 32 (s.rd Reg.LNK_DROPCNT) 1 ∧
      t.rd Reg.LNK_LASTDROP_REASON = (if drifting c then 2 else 1) ∧ t.rd Reg.LNK_LASTDROP_PEER = c.peer % 2 ^ 16 ∧ 123 ∈ t.flight)) ∧
  (∀ (p dt : Nat) (s : State), sequencerFaultOk p (s.pass dt) = true → 5 + p < s.cores.length →
    completes (.sequencerFault p dt) s (fun t => bitOf (t.rd Reg.LNK_SEQ_FAILED) p = 1 ∧ t.rd Reg.LNK_SEQFLTCNT = satAdd 32 (s.rd Reg.LNK_SEQFLTCNT) 1 ∧ (coreOf t (7 + p)).halted = true ∧ 124 ∈ t.flight ∧
      (∀ i, slotOfSeq s p = some i → s.rd Reg.LNK_SEQ_SPARE ≠ 15 → t.rd (slotField i) = s.rd Reg.LNK_SEQ_SPARE % 16 ∧ t.rd Reg.LNK_SEQ_SPARE = 15)))

/-- Wake patterns, the wake-up receiver and a Leaf's waking (R241 to R246): what each plans, counts, raises and turns on. -/
def Obligations.LinkWaking : Prop :=
  (∀ (peer t0 dt f : Nat) (s : State), wakePatternSendOk peer t0 (s.pass dt) = true → wakeCarrier s = some f → s.rd Reg.MIR_STAT_ROLE = 0 → s.mir.switch = none →
    completes (.wakePatternSend peer t0 dt) s (fun t => (∃ p, t.rfe.planned_ = s.rfe.planned_ ++ [p] ∧ p.t = t0 ∧ p.freq = f ∧ p.psdu = wakeBytes ((look peer s.lnk.waddrs).getD 0)) ∧
      (∀ d ∈ t.lnk.dropped, d.conn.peer = peer → d.pattern = false) ∧ changesOnly [] [.rfe, .lnk] (s.pass dt) t)) ∧
  (∀ (w : WakeTry) (dt : Nat) (s : State), wakeConnFrameOk (s.pass dt) = true → s.lnk.wake = some w → w.left = 0 → w.op = none →
    completes (.wakeConnFrame dt) s (fun t => t.rd Reg.LNK_WAKEFAILCNT = satAdd 32 (s.rd Reg.LNK_WAKEFAILCNT) 1 ∧ t.lnk = { s.lnk with wake := none } ∧ changesOnly [Reg.LNK_WAKEFAILCNT] [.lnk] (s.pass dt) t)) ∧
  (∀ (w : WakeTry) (m tag : Nat) (dt : Nat) (s : State), wakeConnFrameOk (s.pass dt) = true → s.lnk.wake = some w → w.left = 0 → w.op = some (m, tag) →
    completes (.wakeConnFrame dt) s (fun t => t.rd Reg.LNK_WAKEFAILCNT = satAdd 32 (s.rd Reg.LNK_WAKEFAILCNT) 1 ∧ t.lnk = { s.lnk with wake := none } ∧ opOf t m tag = none)) ∧
  (∀ (w : WakeTry) (dt : Nat) (s : State), wakeConnFrameOk (s.pass dt) = true → s.lnk.wake = some w → 0 < w.left → s.rd Reg.MIR_STAT_ROLE = 0 → s.mir.switch = none →
    completes (.wakeConnFrame dt) s (fun t => t.lnk.wake = some { w with left := min 8 w.left - 1, next := s.elapsed + dt + cycMs 5 } ∧ t.rfe.planned_.length = s.rfe.planned_.length + 1)) ∧
  (∀ (w dt : Nat) (s : State), wakeMatchOk w (s.pass dt) = true →
    completes (.wakeMatch w dt) s (fun t => t.rd Reg.WUR_WAKECNT = satAdd 32 (s.rd Reg.WUR_WAKECNT) 1 ∧ t.rd Reg.WUR_STAT_LASTGRP = b2n (!(wakeHit s w && s.lnk.waddr != 0)) ∧
      t.lnk.wakeAt = some (s.elapsed + dt) ∧ 125 ∈ t.flight ∧ (leafMode s = true → t.pwr.awake = true))) ∧
  (∀ (dt n : Nat) (s : State), wakeRestoreOk (s.pass dt) = true → n = 5 ∨ n = 6 ∨ n = 11 → (riseOf s n).isSome = true →
    completes (.wakeRestore dt) s (fun t => t.rd (Reg.PWR_DOM_STATE n) = 0 ∧ t.rd Reg.PWR_STAT_CHANGED = 1)) ∧
  (∀ (dt : Nat) (s : State), tcxoStableOk (s.pass dt) = true →
    completes (.tcxoStable dt) s (fun t => t.firn.tcxoLost = none ∧ t.pwr.awake = true)) ∧
  (∀ (dt : Nat) (s : State), falseWakeOk (s.pass dt) = true →
    completes (.falseWake dt) s (fun t => t.rd Reg.WUR_FALSECNT = satAdd 32 (s.rd Reg.WUR_FALSECNT) 1 ∧ t.lnk.wakeAt = none ∧ 126 ∈ t.flight ∧
      (leafMode s = false → changesOnly [Reg.WUR_FALSECNT] [.lnk, .flight] (s.pass dt) t))) ∧
  (∀ (dt : Nat) (s : State), leafWakeTimerOk (s.pass dt) = true →
    completes (.leafWakeTimer dt) s (fun t => t.pwr.awake = true ∧ t.rd (Reg.PWR_DOM_GREQ 6) = 0 ∧ t.rd (Reg.PWR_DOM_GREQ 7) = 2))

/-- The checks of a received frame in order (R210, R257, R260, R219): the first that fails drops the frame with its count and nothing else changes; an unjoined node keeps a beacon's sender as a
candidate. -/
def Obligations.LinkFrameChecks : Prop :=
  (∀ (full : Bool) (r : RxRec) (rest : List RxRec) (dt : Nat) (s : State), s.rxc.ring = r :: rest → frameFormOk s r.psdu = false →
    completes (.linkFrameCheck full dt) s (fun t => t.rd Reg.LNK_FMTCNT = satAdd 32 (s.rd Reg.LNK_FMTCNT) 1 ∧ t.rxc = { s.rxc with ring := rest } ∧ changesOnly [Reg.LNK_FMTCNT] [.rxc] (s.pass dt) t)) ∧
  (∀ (full : Bool) (r : RxRec) (rest : List RxRec) (dt : Nat) (s : State), s.rxc.ring = r :: rest → frameFormOk s r.psdu = true → frameNetOk s r.psdu = false →
    completes (.linkFrameCheck full dt) s (fun t => t.rd Reg.LNK_NETCNT = satAdd 32 (s.rd Reg.LNK_NETCNT) 1 ∧ t.rxc = { s.rxc with ring := rest } ∧ changesOnly [Reg.LNK_NETCNT] [.rxc] (s.pass dt) t)) ∧
  (∀ (full : Bool) (r : RxRec) (rest : List RxRec) (dt : Nat) (s : State), s.rxc.ring = r :: rest → frameFormOk s r.psdu = true → frameNetOk s r.psdu = true →
    (isJoined s = true ∧ fcType r.psdu = 0) ∨ 3 ≤ fcType r.psdu → micOk s none r.psdu = false →
    completes (.linkFrameCheck full dt) s (fun t => t.rd Reg.LNK_MICCNT = satAdd 32 (s.rd Reg.LNK_MICCNT) 1 ∧ t.rxc = { s.rxc with ring := rest } ∧ changesOnly [Reg.LNK_MICCNT] [.rxc] (s.pass dt) t)) ∧
  (∀ (full : Bool) (r : RxRec) (rest : List RxRec) (dt : Nat) (s : State), s.rxc.ring = r :: rest → frameFormOk s r.psdu = true → frameNetOk s r.psdu = true → fcType r.psdu = 1 →
    r.psdu.length ≤ meshMax → seenHas s (msgId (leAt r.psdu 5 2) (leAt r.psdu 7 3)) = true → s.msh.relays = [] →
    completes (.linkFrameCheck full dt) s (fun t => t.rd Reg.MSH_DUPCNT = satAdd 32 (s.rd Reg.MSH_DUPCNT) 1 ∧ changesOnly [Reg.MSH_DUPCNT] [.rxc] (s.pass dt) t)) ∧
  (∀ (full : Bool) (r : RxRec) (rest : List RxRec) (dt : Nat) (s : State), s.rxc.ring = r :: rest → frameFormOk s r.psdu = true → frameNetOk s r.psdu = true → fcType r.psdu = 1 →
    r.psdu.length ≤ meshMax → seenHas s (msgId (leAt r.psdu 5 2) (leAt r.psdu 7 3)) = false → micOk s none r.psdu = false →
    completes (.linkFrameCheck full dt) s (fun t => t.rd Reg.LNK_MICCNT = satAdd 32 (s.rd Reg.LNK_MICCNT) 1 ∧ seenHas t (msgId (leAt r.psdu 5 2) (leAt r.psdu 7 3)) = false)) ∧
  (∀ (full : Bool) (r : RxRec) (rest : List RxRec) (dt : Nat) (s : State), s.rxc.ring = r :: rest → frameFormOk s r.psdu = true → frameNetOk s r.psdu = true → fcType r.psdu = 2 →
    connPeer s (leAt r.psdu 4 2) = none →
    completes (.linkFrameCheck full dt) s (fun t => t.rd Reg.LNK_FMTCNT = satAdd 32 (s.rd Reg.LNK_FMTCNT) 1 ∧ changesOnly [Reg.LNK_FMTCNT] [.rxc] (s.pass dt) t)) ∧
  (∀ (full : Bool) (r : RxRec) (rest : List RxRec) (dt : Nat) (s : State), s.rxc.ring = r :: rest → frameFormOk s r.psdu = true → isJoined s = false → fcType r.psdu = 0 →
    leAt r.psdu 4 2 ≠ parentOf s →
    completes (.linkFrameCheck full dt) s (fun t => ∃ b ∈ t.lnk.cands, b.addr = leAt r.psdu 4 2 ∧ b.net = leAt r.psdu 2 2 ∧ b.at_ = r.ts ∧ b.ncfg = leAt r.psdu 22 2))

/-- Mesh forwarding's timers and selection (R259, R262, R263, R271, R275, R279): what expires leaves its table, a relay is suppressed or queued with its deadline, and a frame that is too old is
dropped. -/
def Obligations.MeshTimers : Prop :=
  (∀ (i dt : Nat) (r : Relay) (s : State), relayBackoffOk i (s.pass dt) = true → s.msh.relays[i]? = some r → cfgN s 10 1 ≤ r.dups →
    completes (.relayBackoff i dt) s (fun t => t.rd Reg.MSH_SUPPCNT = satAdd 32 (s.rd Reg.MSH_SUPPCNT) 1 ∧ t.msh = { s.msh with relays := s.msh.relays.eraseIdx i } ∧
      changesOnly [Reg.MSH_SUPPCNT] [.msh] (s.pass dt) t)) ∧
  (∀ (i dt b : Nat) (r : Relay) (s : State), relayBackoffOk i (s.pass dt) = true → s.msh.relays[i]? = some r → r.dups < cfgN s 10 1 → s.msh.ports.length = 4 → b < 2 → floodBand s b = true →
    2 * cdiv r.psdu.length 128 + 128 ≤ cellsFree s → (∀ p q, p < 2 → ((egress s p).frames.filter (fun f => f.queue == q)).length < cfgN s 18 1) →
    completes (.relayBackoff i dt) s (fun t => t.msh.relays = s.msh.relays.eraseIdx i ∧ ∃ f ∈ (egress t b).frames, f.hop = .bcast ∧ f.data = ttlDown r.psdu ∧ f.at_ = s.elapsed + dt ∧
      f.deadline = some (r.due + cycMs (cfgN s 12 2)))) ∧
  (∀ (p i dt : Nat) (s : State), relayDeadlineOk p i (s.pass dt) = true → p < s.msh.ports.length →
    completes (.relayDeadline p i dt) s (fun t => t.rd Reg.MSH_DEADLINECNT = satAdd 32 (s.rd Reg.MSH_DEADLINECNT) 1 ∧ (egress t p).frames = (egress s p).frames.eraseIdx i)) ∧
  (∀ (i dt : Nat) (s : State), seenExpiryOk i (s.pass dt) = true →
    completes (.seenExpiry i dt) s (fun t => t.msh = { s.msh with seen := s.msh.seen.eraseIdx i } ∧ t.rd Reg.MSH_SEEN_USED = (s.msh.seen.length - 1) % 2 ^ Reg.MSH_SEEN_USED.width)) ∧
  (∀ (i dt : Nat) (s : State), routeExpiryOk i (s.pass dt) = true →
    completes (.routeExpiry i dt) s (fun t => t.msh = { s.msh with routes := s.msh.routes.eraseIdx i } ∧ t.rd Reg.MSH_ROUTES_USED = (s.msh.routes.length - 1) % 2 ^ Reg.MSH_ROUTES_USED.width)) ∧
  (∀ (dt : Nat) (s : State), queueAgeScanOk (s.pass dt) = true →
    completes (.queueAgeScan dt) s (fun t => ∀ p, p < 4 → (egress t p).frames = (egress s p).frames.filter (fun f => !tooOld (s.pass dt) f))) ∧
  (∀ (p t0 dt : Nat) (f : QFrame) (s : State), p < 2 → frameSelectOk p t0 (s.pass dt) = true → (selectFrame p .bcast (s.pass dt)).1 = some f → s.rd Reg.MIR_STAT_ROLE = 0 → s.mir.switch = none →
    completes (.frameSelect p t0 true dt) s (fun t => ∃ q, t.rfe.planned_ = s.rfe.planned_ ++ [q] ∧ q.t = t0 ∧ q.psdu = f.data)) ∧
  (∀ (p t0 dt : Nat) (s : State), p < 2 → frameSelectOk p t0 (s.pass dt) = true →
    completes (.frameSelect p t0 false dt) s (fun t => t.rd Reg.LNK_TXCONFCNT = satAdd 32 (s.rd Reg.LNK_TXCONFCNT) 1 ∧ t.rfe = s.rfe)) ∧
  (∀ (p t0 dt : Nat) (gap : Bool) (s u : State), p = 2 ∨ p = 3 → frameSelectOk p t0 (s.pass dt) = true → s.wpt.length = 2 → u = (selectFrame p .wired (s.pass dt)).2 →
    (selectFrame p .wired (s.pass dt)).1.isSome = true ∨ (selectFrame 0 .up u).1.isSome = true ∨ (selectFrame 1 .up (selectFrame 0 .up u).2).1.isSome = true →
    completes (.frameSelect p t0 gap dt) s (fun t => (wport t (p - 2)).tx.isSome = true ∧ t.rfe = s.rfe))

/-- A wired port's bring-up, loss and quality (R295, R297, R298, R299, R300, R301): negotiation, training, time-outs, the loss of the link and a measured error. -/
def Obligations.WiredLinks : Prop :=
  (∀ (p dt : Nat) (both : Bool) (s : State), negotiateOk p (s.pass dt) = true → s.wpt.length = 2 →
    completes (.negotiate p both dt) s (fun t => t.rd (Reg.WPT_PSTAT_AMP p) = (if leAt (wptEntry s p) 1 1 = 0 ∧ both = true then 2 else 1) ∧ (wport t p).phase = 2 ∧
      (wport t p).entry = wptEntry s p ∧ changesOnly [Reg.WPT_PSTAT_AMP p] [.wpt] (s.pass dt) t)) ∧
  (∀ (p mse dt : Nat) (polinv : Bool) (s : State), trainOk p mse (s.pass dt) = true → s.wpt.length = 2 →
    completes (.train p mse polinv dt) s (fun t => t.rd (Reg.WPT_PSTAT_LINK p) = 1 ∧ t.rd (Reg.WPT_PSTAT_POLINV p) = b2n polinv ∧ t.flight = s.flight ++ [132 + p] ∧ (wport t p).phase = 3 ∧
      (wport t p).wrx = none ∧ changesOnly [Reg.WPT_PSTAT_LINK p, Reg.WPT_PSTAT_POLINV p] [.wpt, .freeCtr, .flight] (s.pass dt) t)) ∧
  (∀ (p dt : Nat) (s : State), wiredPhaseTimeoutOk p (s.pass dt) = true → s.wpt.length = 2 → (wport s p).phase ≠ 3 →
    completes (.wiredPhaseTimeout p dt) s (fun t => (wport t p).phase = 1 ∧ (wport t p).since = s.elapsed + dt ∧ t.rd (Reg.WPT_PSTAT_AMP p) = 0 ∧
      changesOnly [Reg.WPT_PSTAT_AMP p] [.wpt] (s.pass dt) t)) ∧
  (∀ (p dt : Nat) (s : State), wiredPhaseTimeoutOk p (s.pass dt) = true → s.wpt.length = 2 → (wport s p).phase = 3 →
    completes (.wiredPhaseTimeout p dt) s (fun t => (wport t p).phase = 1 ∧ t.rd (Reg.WPT_PSTAT_LINK p) = 0 ∧ t.rd (Reg.WPT_PLINKDNCNT p) = satAdd 32 (s.rd (Reg.WPT_PLINKDNCNT p)) 1)) ∧
  (∀ (p dt : Nat) (s : State), linkLossOk p (s.pass dt) = true → s.wpt.length = 2 →
    completes (.linkLoss p dt) s (fun t => t.rd (Reg.WPT_PSTAT_LINK p) = 0 ∧ wptLinked t p = false ∧ t.rd (Reg.WPT_PLINKDNCNT p) = satAdd 32 (s.rd (Reg.WPT_PLINKDNCNT p)) 1 ∧
      t.rd (Reg.WPT_PSTAT_DVALID p) = 0 ∧ t.rd (Reg.WPT_PDELAY p) = 0xFFFFFFFF ∧ 132 + p ∈ t.flight ∧ (wport t p).phase = 1 ∧ (wport t p).tx = none)) ∧
  (∀ (p dt : Nat) (s : State), wiredBeaconSilenceOk p (s.pass dt) = true → s.wpt.length = 2 →
    completes (.wiredBeaconSilence p dt) s (fun t => t.rd (Reg.WPT_PSTAT_LINKED p) = 0 ∧ t.rd (Reg.WPT_PSTAT_PEER p) = 0xFFFF ∧ t.rd (Reg.WPT_PSTAT_LINK p) = s.rd (Reg.WPT_PSTAT_LINK p) ∧
      (wport t p).phase = 3)) ∧
  (∀ (p m dt : Nat) (s : State), mseMeasurementOk p (s.pass dt) = true → s.wpt.length = 2 → 64 ≤ m →
    completes (.mseMeasurement p m dt) s (fun t => t.rd (Reg.WPT_PMSE_MSE p) = min 255 m ∧ (wport t p).bad = 0 ∧
      (s.rd (Reg.WPT_PSTAT_QCLASS p) < mseClass m → t.rd (Reg.WPT_PSTAT_QCLASS p) = mseClass m ∧ t.flight = s.flight ++ [134]) ∧
      changesOnly [Reg.WPT_PMSE_MSE p, Reg.WPT_PMSE_WORST p, Reg.WPT_PSTAT_QCLASS p] [.wpt, .flight] (s.pass dt) t)) ∧
  (∀ (p m dt : Nat) (s : State), mseMeasurementOk p (s.pass dt) = true → s.wpt.length = 2 → m < 64 → (wport s p).bad < 49 →
    completes (.mseMeasurement p m dt) s (fun t => t.rd (Reg.WPT_PMSE_MSE p) = m ∧ (wport t p).bad = (wport s p).bad + 1 ∧ t.rd (Reg.WPT_PSTAT_LINK p) = s.rd (Reg.WPT_PSTAT_LINK p))) ∧
  (∀ (p m dt : Nat) (s : State), mseMeasurementOk p (s.pass dt) = true → s.wpt.length = 2 → m < 64 → 49 ≤ (wport s p).bad →
    completes (.mseMeasurement p m dt) s (fun t => t.rd (Reg.WPT_PSTAT_LINK p) = 0 ∧ t.rd (Reg.WPT_PLINKDNCNT p) = satAdd 32 (s.rd (Reg.WPT_PLINKDNCNT p)) 1))

/-- Frames on the wire and the peer-delay exchange (R304, R307, R310, R312, R313, R275): what is sent waits at the MAC, what is refused counts, and an exchange starts, answers, completes or is lost.
-/
def Obligations.WiredFrames : Prop :=
  (∀ (p dt : Nat) (s : State), wiredBeaconSendOk p (s.pass dt) = true → s.wpt.length = 2 →
    completes (.wiredBeaconSend p dt) s (fun t => (wport t p).tx.isSome = true ∧ (wport t p).sentAt = some (s.elapsed + dt) ∧ (wport t p).bseq = ((wport s p).bseq + 1) % 256 ∧ changesOnly [] [.wpt] (s.pass dt) t)) ∧
  (∀ (p dt : Nat) (s : State), wiredFrameSentOk p (s.pass dt) = true → s.wpt.length = 2 →
    completes (.wiredFrameSent p dt) s (fun t => t.rd (Reg.WPT_PTXFRMCNT p) = satAdd 32 (s.rd (Reg.WPT_PTXFRMCNT p)) 1 ∧ (wport t p).tx = (wport s p).txq.head? ∧ (wport t p).txq = (wport s p).txq.tail ∧
      changesOnly [Reg.WPT_PTXFRMCNT p] [.wpt] (s.pass dt) t)) ∧
  (∀ (p dt : Nat) (f : List Nat) (full : Bool) (s : State), wiredFrameReceiveOk p (s.pass dt) = true →
    completes (.wiredFrameReceive p false f full dt) s (fun t => t.rd (Reg.WPT_PFCSCNT p) = satAdd 32 (s.rd (Reg.WPT_PFCSCNT p)) 1 ∧ changesOnly [Reg.WPT_PFCSCNT p] [] (s.pass dt) t)) ∧
  (∀ (p dt : Nat) (f : List Nat) (full : Bool) (s : State), wiredFrameReceiveOk p (s.pass dt) = true → (f.drop 12).take 2 ≠ [0x88, 0xF7] → (f.drop 12).take 2 ≠ [0x88, 0xB5] ∨ shimOk f = false →
    completes (.wiredFrameReceive p true f full dt) s (fun t => t.rd (Reg.WPT_PTYPECNT p) = satAdd 32 (s.rd (Reg.WPT_PTYPECNT p)) 1 ∧ changesOnly [Reg.WPT_PTYPECNT p] [] (s.pass dt) t)) ∧
  (∀ (p dt : Nat) (f : List Nat) (full : Bool) (s : State), wiredFrameReceiveOk p (s.pass dt) = true → s.wpt.length = 2 → (f.drop 12).take 2 = [0x88, 0xF7] → etherDestOk s f true = true →
    leAt f 14 1 = 2 → leAt f 15 1 % 16 = 2 → leAt f 18 1 = 0 → 68 ≤ f.length →
    completes (.wiredFrameReceive p true f full dt) s (fun t => t.rd (Reg.WPT_PRXFRMCNT p) = satAdd 32 (s.rd (Reg.WPT_PRXFRMCNT p)) 1 ∧
      (∃ m, (wport t p).ptp = (wport s p).ptp ++ [m] ∧ m.kind = 2 ∧ m.seq = ofBeBytes ((f.drop 44).take 2) ∧ m.ident = (f.drop 34).take 10 ∧ m.ts = ingress s p (s.pass dt).now) ∧
      changesOnly [Reg.WPT_PRXFRMCNT p] [.wpt] (s.pass dt) t)) ∧
  (∀ (p dt : Nat) (s : State), pdelayReqSendOk p (s.pass dt) = true → s.wpt.length = 2 →
    completes (.pdelayReqSend p dt) s (fun t => (wport t p).tx.isSome = true ∧ (wport t p).pd = some ⟨(wport s p).pdSeq, egressTime (s.pass dt) p, s.elapsed + dt, none⟩ ∧
      (wport t p).pdSeq = ((wport s p).pdSeq + 1) % 65536 ∧ changesOnly [] [.wpt] (s.pass dt) t)) ∧
  (∀ (p dt : Nat) (m : PtpIn) (s : State), pdelayReqReceiveOk p (s.pass dt) = true → s.wpt.length = 2 → ptpFirst s p 2 = some m →
    completes (.pdelayReqReceive p dt) s (fun t => (wport t p).tx = some (ptpFrame s p 3 m.seq true (ptpStamp m.ts) m.ident) ∧ (wport t p).ptp = (wport s p).ptp.erase m ∧
      (wport t p).txq.length = (wport s p).txq.length + 1 ∧ changesOnly [] [.wpt] (s.pass dt) t)) ∧
  (∀ (p dt : Nat) (m : PtpIn) (s : State), pdelayRespReceiveOk p (s.pass dt) = true → s.wpt.length = 2 → ptpFirst s p 3 = some m →
    completes (.pdelayRespReceive p dt) s (fun t => (wport t p).ptp = (wport s p).ptp.erase m ∧
      (wport t p).pd = (if ptpMatches s p m = true then (wport s p).pd.map (fun x => { x with resp := some (m.stamp, m.ts) }) else (wport s p).pd) ∧ changesOnly [] [.wpt] (s.pass dt) t)) ∧
  (∀ (p dt : Nat) (m : PtpIn) (s : State), followUpReceiveOk p (s.pass dt) = true → s.wpt.length = 2 → ptpFirst s p 0xA = some m → ptpMatches s p m = false →
    completes (.followUpReceive p dt) s (fun t => (wport t p).ptp = (wport s p).ptp.erase m ∧ (wport t p).pd = (wport s p).pd ∧ changesOnly [] [.wpt] (s.pass dt) t)) ∧
  (∀ (p dt : Nat) (m : PtpIn) (x : PdEx) (r : Nat × Nat) (s : State), followUpReceiveOk p (s.pass dt) = true → s.wpt.length = 2 → ptpFirst s p 0xA = some m → ptpMatches s p m = true →
    (wport s p).pd = some x → x.resp = some r →
    completes (.followUpReceive p dt) s (fun t => t.rd (Reg.WPT_PPTPCNT p) = satAdd 32 (s.rd (Reg.WPT_PPTPCNT p)) 1 ∧ (wport t p).pd = none ∧ (wport t p).pdDone = (wport s p).pdDone + 1 ∧
      (4 ≤ (wport s p).pdDone + 1 → t.rd (Reg.WPT_PSTAT_DVALID p) = 1))) ∧
  (∀ (p dt : Nat) (s : State), pdelayLostOk p (s.pass dt) = true → s.wpt.length = 2 →
    completes (.pdelayLost p dt) s (fun t => t.rd (Reg.WPT_PPTPLOSTCNT p) = satAdd 32 (s.rd (Reg.WPT_PPTPLOSTCNT p)) 1 ∧ (wport t p).pd = none ∧ (wport t p).pdLost = (wport s p).pdLost + 1 ∧
      ((wport s p).pdLost = 2 → t.rd (Reg.WPT_PSTAT_PDFAULT p) ≠ 0)))

/-- A request that fails a general check (R337, R338, R344): it is taken and gets its RESULT record, and nothing else happens. Mailbox buffers (R343, R345): opened with free bytes, written, read and
closed, with the refusals of each. -/
def Obligations.MailboxRefusalsAndBuffers : Prop :=
  (∀ (c : Instr) (m id len st dt : Nat) (long : Bool) (s : State), mbRequest c = some (m, id, len, long, dt) → cmdOk m id s = true → s.mboxes.length = 4 →
    mbRefusal s m (mbReq s m) ((mbReq s m).len == len) long = some st →
    completes c s (fun t => replied m st [] s t ∧ changesOnly [Reg.MB_REQ_REQRD m] [.mboxes, .mbLast, .flight] (s.pass dt) t)) ∧
  (∀ (m len : Nat) (long : Bool) (s : State), 240 < (mbReq s m).len ∨ (mbReq s m).len ≠ len → mbRefusal s m (mbReq s m) ((mbReq s m).len == len) long = some 2) ∧
  (∀ (m len : Nat) (long : Bool) (s : State), (mbReq s m).len = len → len ≤ 240 → 1 < (mbReq s m).flags → mbRefusal s m (mbReq s m) ((mbReq s m).len == len) long = some 3) ∧
  (∀ (m len : Nat) (long : Bool) (s : State), (mbReq s m).len = len → len ≤ 240 → (mbReq s m).flags ≤ 1 → (mbReq s m).tag = 0 →
    mbRefusal s m (mbReq s m) ((mbReq s m).len == len) long = some 4) ∧
  (∀ (m len : Nat) (long : Bool) (s : State), (mbReq s m).len = len → len ≤ 240 → (mbReq s m).flags ≤ 1 → (mbReq s m).tag ≠ 0 → (mbox s m).ops.any (fun o => o.tag == (mbReq s m).tag) = true →
    mbRefusal s m (mbReq s m) ((mbReq s m).len == len) long = some 5) ∧
  (∀ (m len : Nat) (s : State), (mbReq s m).len = len → len ≤ 240 → (mbReq s m).flags ≤ 1 → (mbReq s m).tag ≠ 0 → (mbox s m).ops.any (fun o => o.tag == (mbReq s m).tag) = false →
    8 ≤ (mbox s m).ops.length → mbRefusal s m (mbReq s m) ((mbReq s m).len == len) true = some 6) ∧
  (∀ (m h n dt : Nat) (s : State), requestOk m 0x0010 4 s = true → n = (mbReq s m).at_ 0 4 → 1 ≤ n → n ≤ 16384 → [1, 2].find? (fun h => (bufOf s m h).isNone) = some h →
    completes (.bufOpen m dt) s (fun t => replied m 0 [h] s t ∧ (bufOf t m h).map List.length = some n ∧ changesOnly [Reg.MB_REQ_REQRD m] [.mboxes, .mbLast, .flight, .freeCtr] (s.pass dt) t)) ∧
  (∀ (m n dt : Nat) (s : State), requestOk m 0x0010 4 s = true → n = (mbReq s m).at_ 0 4 → 1 ≤ n → n ≤ 16384 → (bufOf s m 1).isSome = true → (bufOf s m 2).isSome = true →
    completes (.bufOpen m dt) s (fun t => replied m 0x000F [] s t ∧ changesOnly [Reg.MB_REQ_REQRD m] [.mboxes, .mbLast, .flight] (s.pass dt) t)) ∧
  (∀ (m n dt : Nat) (s : State), requestOk m 0x0010 4 s = true → n = (mbReq s m).at_ 0 4 → n = 0 ∨ 16384 < n →
    completes (.bufOpen m dt) s (fun t => replied m 7 [] s t ∧ changesOnly [Reg.MB_REQ_REQRD m] [.mboxes, .mbLast, .flight] (s.pass dt) t)) ∧
  (∀ (m len dt : Nat) (b d : List Nat) (s : State), requestOk m 0x0011 len s = true → 4 ≤ len → d = (mbReq s m).data.drop 4 → bufOf s m ((mbReq s m).at_ 0 1) = some b →
    (mbReq s m).at_ 2 2 + d.length ≤ b.length → bufHeld s m ((mbReq s m).at_ 0 1) = false →
    completes (.bufWrite m dt) s (fun t => replied m 0 [] s t ∧ bufOf t m ((mbReq s m).at_ 0 1) = some (setBytes b ((mbReq s m).at_ 2 2) d) ∧
      changesOnly [Reg.MB_REQ_REQRD m] [.mboxes, .mbLast, .flight] (s.pass dt) t)) ∧
  (∀ (m len dt : Nat) (b : List Nat) (s : State), requestOk m 0x0011 len s = true → 4 ≤ len → bufOf s m ((mbReq s m).at_ 0 1) = some b →
    b.length < (mbReq s m).at_ 2 2 + ((mbReq s m).data.drop 4).length →
    completes (.bufWrite m dt) s (fun t => replied m 7 [] s t ∧ changesOnly [Reg.MB_REQ_REQRD m] [.mboxes, .mbLast, .flight] (s.pass dt) t)) ∧
  (∀ (m dt : Nat) (b : List Nat) (s : State), requestOk m 0x0012 6 s = true → bufOf s m ((mbReq s m).at_ 0 1) = some b → (mbReq s m).at_ 4 2 ≤ 240 → (mbReq s m).at_ 2 2 + (mbReq s m).at_ 4 2 ≤ b.length →
    completes (.bufRead m dt) s (fun t => replied m 0 ((b.drop ((mbReq s m).at_ 2 2)).take ((mbReq s m).at_ 4 2)) s t ∧ changesOnly [Reg.MB_REQ_REQRD m] [.mboxes, .mbLast, .flight] (s.pass dt) t)) ∧
  (∀ (m dt : Nat) (b : List Nat) (s : State), requestOk m 0x0013 1 s = true → bufOf s m ((mbReq s m).at_ 0 1) = some b → bufHeld s m ((mbReq s m).at_ 0 1) = false →
    completes (.bufClose m dt) s (fun t => replied m 0 [] s t ∧ bufOf t m ((mbReq s m).at_ 0 1) = none ∧ changesOnly [Reg.MB_REQ_REQRD m] [.mboxes, .mbLast, .flight] (s.pass dt) t)) ∧
  (∀ (m dt : Nat) (b : List Nat) (s : State), requestOk m 0x0013 1 s = true → bufOf s m ((mbReq s m).at_ 0 1) = some b → bufHeld s m ((mbReq s m).at_ 0 1) = true →
    completes (.bufClose m dt) s (fun t => replied m 0x0010 [] s t ∧ changesOnly [Reg.MB_REQ_REQRD m] [.mboxes, .mbLast, .flight] (s.pass dt) t))

/-- Mailbox records and operations (R334, R336, R337, R339, R340, R342, R344): a record moves into its ring, progress is reported, and an operation is suspended, resumed, cancelled or flushed. -/
def Obligations.MailboxOperations : Prop :=
  (∀ (m dt : Nat) (r : MbRec) (rest : List MbRec) (s : State), recordPostOk m (s.pass dt) = true → (mbox s m).backlog = r :: rest → (mbox s m).lost = 0 → s.mboxes.length = 4 →
    completes (.recordPost m dt) s (fun t => (mbox t m).backlog = rest ∧ t.rd (Reg.MB_RSP_RSPWR m) = (s.rd (Reg.MB_RSP_RSPWR m) + 1) % 32 ∧ t.flight = s.flight ++ [136 + m] ∧
      t.mem = memWrBytes s.mem (rspSlot m (s.rd (Reg.MB_RSP_RSPWR m))) (recBytesOf r) ∧ changesOnly [Reg.MB_RSP_RSPWR m] [.mboxes, .mem, .flight] (s.pass dt) t)) ∧
  (∀ (m tag dt : Nat) (o : LiveOp) (s : State), m < 4 → progressRecordOk m tag (s.pass dt) = true → opOf s m tag = some o → s.mboxes.length = 4 → mbShared (mbox s m) < 24 →
    completes (.progressRecord m tag dt) s (fun t => (mbox t m).backlog = (mbox s m).backlog ++ [MbRec.mk o.cmd tag 1 2 0 (min 100 o.done) []] ∧
      opOf t m tag = some { o with lastProg := some (s.elapsed + dt) } ∧ changesOnly [] [.mboxes] (s.pass dt) t)) ∧
  (∀ (m dt : Nat) (o : LiveOp) (s : State), requestOk m 0x0001 2 s = true → opOf s m ((mbReq s m).at_ 0 2) = some o → o.suspended = none → suspendable o.cmd = true →
    completes (.suspend m dt) s (fun t => replied m 0 [] s t ∧ opOf t m o.tag = some { o with suspended := some (s.elapsed + dt) } ∧
      changesOnly [Reg.MB_REQ_REQRD m] [.mboxes, .mbLast, .flight] (s.pass dt) t)) ∧
  (∀ (m dt : Nat) (o : LiveOp) (s : State), requestOk m 0x0001 2 s = true → opOf s m ((mbReq s m).at_ 0 2) = some o → o.suspended = none → suspendable o.cmd = false →
    completes (.suspend m dt) s (fun t => replied m 0x000C [] s t ∧ changesOnly [Reg.MB_REQ_REQRD m] [.mboxes, .mbLast, .flight] (s.pass dt) t)) ∧
  (∀ (c : Nat → Nat → Instr) (id m dt : Nat) (s : State), (c, id) ∈ [(Instr.suspend, 1), (Instr.resume, 2), (Instr.cancel, 3)] → requestOk m id 2 s = true → opOf s m ((mbReq s m).at_ 0 2) = none →
    completes (c m dt) s (fun t => replied m 0x000B [] s t ∧ changesOnly [Reg.MB_REQ_REQRD m] [.mboxes, .mbLast, .flight] (s.pass dt) t)) ∧
  (∀ (m dt : Nat) (o : LiveOp) (s : State), requestOk m 0x0002 2 s = true → opOf s m ((mbReq s m).at_ 0 2) = some o → o.suspended = none →
    completes (.resume m dt) s (fun t => replied m 0x000D [] s t ∧ changesOnly [Reg.MB_REQ_REQRD m] [.mboxes, .mbLast, .flight] (s.pass dt) t)) ∧
  (∀ (m dt : Nat) (o : LiveOp) (s : State), requestOk m 0x0002 2 s = true → opOf s m ((mbReq s m).at_ 0 2) = some o → o.suspended.isSome = true → s.co.disps = [] →
    completes (.resume m dt) s (fun t => replied m 0 [] s t ∧ opOf t m o.tag = some { o with suspended := none })) ∧
  (∀ (m dt : Nat) (o : LiveOp) (s : State), requestOk m 0x0003 2 s = true → opOf s m ((mbReq s m).at_ 0 2) = some o → o.suspended.isSome = true ∨ beforeCancel (s.pass dt) o = true →
    completes (.cancel m dt) s (fun t => opOf t m o.tag = none ∧ (mbox t m).backlog = (mbox s m).backlog ++
      [MbRec.mk (mbReq s m).cmd (mbReq s m).tag (mbReq s m).flags 0 0 0 [], MbRec.mk o.cmd o.tag (b2n o.prog) 5 0 0 []])) ∧
  (∀ (m dt : Nat) (o : LiveOp) (s : State), requestOk m 0x0003 2 s = true → opOf s m ((mbReq s m).at_ 0 2) = some o → o.suspended = none → beforeCancel (s.pass dt) o = false →
    completes (.cancel m dt) s (fun t => replied m 0x000E [] s t ∧ changesOnly [Reg.MB_REQ_REQRD m] [.mboxes, .mbLast, .flight] (s.pass dt) t)) ∧
  (∀ (m tag dt : Nat) (o : LiveOp) (s : State), m < 4 → suspendTimeoutOk m tag (s.pass dt) = true → opOf s m tag = some o → s.mboxes.length = 4 →
    completes (.suspendTimeout m tag dt) s (fun t => opOf t m tag = none ∧ (mbox t m).backlog = (mbox s m).backlog ++ [MbRec.mk o.cmd tag (b2n o.prog) 5 0x0011 0 []])) ∧
  (∀ (m dt : Nat) (s : State), m < 4 → flushDoneOk m (s.pass dt) = true → s.mboxes.length = 4 →
    completes (.flushDone m dt) s (fun t => mbox t m = Mbox.reset ∧ t.rd (Reg.MB_REQ_REQRD m) = 0 ∧ t.rd (Reg.MB_REQ_REQWR m) = 0 ∧ t.rd (Reg.MB_RSP_RSPWR m) = 0 ∧ t.rd (Reg.MB_RSP_RSPRD m) = 0 ∧
      t.rd (Reg.MB_STAT_FLUSHING m) = 0)) ∧
  (∀ (m dt : Nat) (s : State), unknownCommandOk m (s.pass dt) = true → s.mboxes.length = 4 →
    completes (.unknownCommand m dt) s (fun t => replied m 1 [] s t ∧ changesOnly [Reg.MB_REQ_REQRD m] [.mboxes, .mbLast, .flight] (s.pass dt) t))

/-- Mailbox queries (R345, R346, R348, R349, R353, R358, R476, R662, R664, R682, R715, R739, R742, R782): the answer of each, and nothing else changes. -/
def Obligations.MailboxQueries : Prop :=
  (∀ (m dt : Nat) (s : State), requestOk m 0x0004 0 s = true → 
    completes (.opsList m dt) s (fun t => replied m 0 ([(mbox s m).ops.length, 0] ++ (mbox s m).ops.flatMap (fun o => leBytes 2 o.tag ++ leBytes 2 o.cmd ++ [b2n o.suspended.isSome, min 100 o.done])) s t ∧ changesOnly [Reg.MB_REQ_REQRD m] [.mboxes, .mbLast, .flight] (s.pass dt) t)) ∧
  (∀ (m dt : Nat) (s : State), requestOk m 0x0100 0 s = true → 
    completes (.sysInfo m dt) s (fun t => replied m 0 ([((look 4 s.upd.inst).getD Comp.factory).ver / 256, ((look 4 s.upd.inst).getD Comp.factory).ver % 256] ++ leBytes 2 ((look 4 s.upd.inst).getD Comp.factory).patch ++
      leBytes 4 (regWord s Reg.SYS_ID_PART.addr) ++ [b2n s.isC, b2n (s.on Reg.BKP_SET0_PROFILE), s.rd Reg.SYS_BOOT_GSLOT, s.rd Reg.SYS_BOOT_ASLOT] ++ leBytes 8 s.fuses.uid ++
      leBytes 4 ((s.elapsed + dt - s.sysResetAt) / cycS 1)) s t ∧ changesOnly [Reg.MB_REQ_REQRD m] [.mboxes, .mbLast, .flight] (s.pass dt) t)) ∧
  (∀ (m dt : Nat) (s : State), requestOk m 0x0202 0 s = true → 
    completes (.netStatus m dt) s (fun t => replied m 0 (leBytes 2 (s.rd Reg.LNK_PARENT_NETID) ++ leBytes 2 (s.rd Reg.LNK_STAT_SHORT) ++ leBytes 2 (s.rd Reg.LNK_PARENT_PARENT) ++ leBytes 2 (leAt s.netCfg 2 2) ++
      [b2n (s.on Reg.LNK_STAT_JOINED), s.rd Reg.LNK_STAT_NCONN, s.rd Reg.RFE_STAT_REGIME, s.rd Reg.FIRN_QUAL_HOPS]) s t ∧ changesOnly [Reg.MB_REQ_REQRD m] [.mboxes, .mbLast, .flight] (s.pass dt) t)) ∧
  (∀ (m dt : Nat) (s : State), requestOk m 0x0300 1 s = true → 
    completes (.linkList m dt) s (fun t => replied m 0 ([((s.lnk.conns.drop ((mbReq s m).at_ 0 1)).take 29).length, 0] ++ ((s.lnk.conns.drop ((mbReq s m).at_ 0 1)).take 29).flatMap (fun x =>
      leBytes 2 x.peer ++ [b2n (!x.child), x.slot] ++ leBytes 2 x.interval ++ [x.lqi, min 255 x.misses])) s t ∧ changesOnly [Reg.MB_REQ_REQRD m] [.mboxes, .mbLast, .flight] (s.pass dt) t)) ∧
  (∀ (m dt : Nat) (s : State), requestOk m 0x0400 0 s = true → 
    completes (.timeGet m dt) s (fun t => replied m 0 (leBytes 8 (s.pass dt).now ++ leBytes 2 (errBound (s.pass dt)) ++ [s.rd Reg.FIRN_STAT_STATE, s.rd Reg.FIRN_QUAL_HOPS] ++ leBytes 2 (ofSigned 16 s.firn.utcOff) ++
      [s.firn.leap % 4, 0] ++ leBytes 4 (refAcc (s.pass dt))) s t ∧ changesOnly [Reg.MB_REQ_REQRD m] [.mboxes, .mbLast, .flight] (s.pass dt) t)) ∧
  (∀ (m dt : Nat) (s : State), requestOk m 0x0501 0 s = true → 
    completes (.lumStatus m dt) s (fun t => replied m 0 (lumStatus (s.pass dt)) s t ∧ changesOnly [Reg.MB_REQ_REQRD m] [.mboxes, .mbLast, .flight] (s.pass dt) t)) ∧
  (∀ (m dt : Nat) (s : State), requestOk m 0x0601 2 s = true → s.isC = true →
    completes (.coNodes m dt) s (fun t => replied m 0 (coNodesResult (s.pass dt) ((mbReq s m).at_ 0 2)) s t ∧ changesOnly [Reg.MB_REQ_REQRD m] [.mboxes, .mbLast, .flight] (s.pass dt) t)) ∧
  (∀ (m dt : Nat) (n : CoNode) (s : State), requestOk m 0x0602 2 s = true → s.isC = true → coNode s ((mbReq s m).at_ 0 2) = some n →
    completes (.coNode m dt) s (fun t => replied m 0 (coNodeResult (s.pass dt) n) s t ∧ changesOnly [Reg.MB_REQ_REQRD m] [.mboxes, .mbLast, .flight] (s.pass dt) t)) ∧
  (∀ (m dt : Nat) (s : State), requestOk m 0x0700 0 s = true → 
    completes (.storeInfo m dt) s (fun t => replied m 0 (leBytes 2 (1632 - (s.flc.parts.map (fun p => p.nblk)).sum) ++ [s.flc.pool.length, s.flc.moraine.length, s.rd Reg.FLC_STAT_RO,
      ((List.range 12).filter (fun k => partKind s k != 0)).length]) s t ∧ changesOnly [Reg.MB_REQ_REQRD m] [.mboxes, .mbLast, .flight] (s.pass dt) t)) ∧
  (∀ (m dt : Nat) (s : State), requestOk m 0x0701 1 s = true → (mbReq s m).at_ 0 1 ≤ 11 →
    completes (.storePart m dt) s (fun t => replied m 0 (partRecord s ((mbReq s m).at_ 0 1)) s t ∧ changesOnly [Reg.MB_REQ_REQRD m] [.mboxes, .mbLast, .flight] (s.pass dt) t)) ∧
  (∀ (m dt : Nat) (o : TableObj) (s : State), requestOk m 0x0801 2 s = true → tblKnown ((mbReq s m).at_ 0 2) = true → o = tblNow s ((mbReq s m).at_ 0 2) →
    completes (.tblInfo m dt) s (fun t => replied m 0 (leBytes 2 o.ver ++ leBytes 4 o.body.length ++ leBytes 4 (leAt (tblHeader ((mbReq s m).at_ 0 2) o) 12 4) ++ [o.source, 0]) s t ∧
      changesOnly [Reg.MB_REQ_REQRD m] [.mboxes, .mbLast, .flight] (s.pass dt) t)) ∧
  (∀ (m n dt : Nat) (o : TableObj) (s : State), requestOk m 0x0802 10 s = true → tblKnown ((mbReq s m).at_ 0 2) = true → o = tblNow s ((mbReq s m).at_ 0 2) → n = (mbReq s m).at_ 8 2 → 1 ≤ n → n ≤ 240 →
    (mbReq s m).at_ 4 4 + n ≤ 16 + o.body.length →
    completes (.tblRead m dt) s (fun t => replied m 0 (((tblHeader ((mbReq s m).at_ 0 2) o ++ o.body).drop ((mbReq s m).at_ 4 4)).take n) s t ∧
      changesOnly [Reg.MB_REQ_REQRD m] [.mboxes, .mbLast, .flight] (s.pass dt) t)) ∧
  (∀ (m dt : Nat) (s : State), requestOk m 0x0900 0 s = true → 
    completes (.hltSummary m dt) s (fun t => replied m 0 (leBytes 2 s.health.length ++ [s.rd Reg.AGE_STAT_WORST, 0] ++ leBytes 4 (regWord s Reg.AGE_ALARMS_RMAPLOST.addr)) s t ∧ changesOnly [Reg.MB_REQ_REQRD m] [.mboxes, .mbLast, .flight] (s.pass dt) t)) ∧
  (∀ (m dt : Nat) (h : HealthRec) (s : State), requestOk m 0x0901 2 s = true → s.health.find? (fun h => h.index == (mbReq s m).at_ 0 2) = some h →
    completes (.hltRead m dt) s (fun t => replied m 0 (healthBytes h) s t ∧ changesOnly [Reg.MB_REQ_REQRD m] [.mboxes, .mbLast, .flight] (s.pass dt) t)) ∧
  (∀ (m dt : Nat) (s : State), requestOk m 0x0A00 0 s = true → s.isC = true →
    completes (.pairStatus m dt) s (fun t => replied m 0 (pairStatus (s.pass dt)) s t ∧ changesOnly [Reg.MB_REQ_REQRD m] [.mboxes, .mbLast, .flight] (s.pass dt) t)) ∧
  (∀ (m dt : Nat) (s : State), requestOk m 0x0B00 0 s = true → 
    completes (.updStatus m dt) s (fun t => replied m 0 (updStatus (s.pass dt)) s t ∧ changesOnly [Reg.MB_REQ_REQRD m] [.mboxes, .mbLast, .flight] (s.pass dt) t))

/-- Mailbox commands of the system, the network and time (R345, R346, R347, R348, R349, R353, R354, R359): what each sets, and its answer. -/
def Obligations.MailboxSettings : Prop :=
  (∀ (m dt : Nat) (s : State), sysResetDue (s.pass dt) = false → requestOk m 0x0101 2 s = true → (mbReq s m).at_ 0 2 ≤ 10000 →
    completes (.sysReset m dt) s (fun t => replied m 0 [] s t ∧ t.resetDue = some (s.elapsed + dt + cycMs ((mbReq s m).at_ 0 2)) ∧
      changesOnly [Reg.MB_REQ_REQRD m] [.mboxes, .mbLast, .flight, .resetDue] (s.pass dt) t)) ∧
  (∀ (m dt : Nat) (s : State), sysResetDue (s.pass dt) = true →
    completes (.sysReset m dt) s (fun t => t.rd Reg.SYS_RSTCAUSE_SOFT = 1 ∧ t.resetDue = none ∧ t.mboxes = State.reset.mboxes)) ∧
  (∀ (m dt : Nat) (s : State), requestOk m 0x0102 4 s = true →
    completes (.sysNotify m dt) s (fun t => replied m 0 (leBytes 4 (mbox s m).mask) s t ∧ (mbox t m).mask = (mbReq s m).at_ 0 4 ∧
      changesOnly [Reg.MB_REQ_REQRD m] [.mboxes, .mbLast, .flight] (s.pass dt) t)) ∧
  (∀ (m p dt : Nat) (s : State), requestOk m 0x0103 2 s = true → p = (mbReq s m).at_ 0 1 → 0x80 ≤ p → (mbReq s m).at_ 1 1 = 1 → (∀ k, k < 4 → k ≠ m → p ∉ (mbox s k).ptypes) →
    completes (.sysPtype m dt) s (fun t => replied m 0 [] s t ∧ p ∈ (mbox t m).ptypes ∧ changesOnly [Reg.MB_REQ_REQRD m] [.mboxes, .mbLast, .flight] (s.pass dt) t)) ∧
  (∀ (m p dt : Nat) (s : State), requestOk m 0x0103 2 s = true → p = (mbReq s m).at_ 0 1 → 0x80 ≤ p → (mbReq s m).at_ 1 1 = 0 →
    completes (.sysPtype m dt) s (fun t => replied m 0 [] s t ∧ p ∉ (mbox t m).ptypes ∧ changesOnly [Reg.MB_REQ_REQRD m] [.mboxes, .mbLast, .flight] (s.pass dt) t)) ∧
  (∀ (m p k dt : Nat) (s : State), requestOk m 0x0103 2 s = true → p = (mbReq s m).at_ 0 1 → 0x80 ≤ p → (mbReq s m).at_ 1 1 = 1 → k < 4 → k ≠ m → p ∈ (mbox s k).ptypes →
    completes (.sysPtype m dt) s (fun t => replied m 0x0203 [] s t ∧ changesOnly [Reg.MB_REQ_REQRD m] [.mboxes, .mbLast, .flight] (s.pass dt) t)) ∧
  (∀ (m dt : Nat) (b : List Nat) (s : State), requestOk m 0x0200 1 s = true → bufOf s m ((mbReq s m).at_ 0 1) = some b → 400 ≤ b.length → bufHeld s m ((mbReq s m).at_ 0 1) = false →
    completes (.netCfgGet m dt) s (fun t => replied m 0 [] s t ∧ bufOf t m ((mbReq s m).at_ 0 1) = some (setBytes b 0 s.netCfg) ∧
      changesOnly [Reg.MB_REQ_REQRD m] [.mboxes, .mbLast, .flight] (s.pass dt) t)) ∧
  (∀ (m dt : Nat) (c : Conn) (s : State), requestOk m 0x0301 2 s = true → connPeer s ((mbReq s m).at_ 0 2) = some c →
    completes (.linkDrop m dt) s (fun t => connOf t c.id = none ∧ t.rd Reg.LNK_LASTDROP_REASON = 6 ∧ t.rd Reg.LNK_DROPCNT = satAdd 32 (s.rd Reg.LNK_DROPCNT) 1 ∧
      (mbox t m).backlog.getLast? = some (MbRec.mk (mbReq s m).cmd (mbReq s m).tag (mbReq s m).flags 0 0 0 []))) ∧
  (∀ (m dt : Nat) (s : State), requestOk m 0x0301 2 s = true → connPeer s ((mbReq s m).at_ 0 2) = none →
    completes (.linkDrop m dt) s (fun t => replied m 7 [] s t ∧ changesOnly [Reg.MB_REQ_REQRD m] [.mboxes, .mbLast, .flight] (s.pass dt) t)) ∧
  (∀ (m dt : Nat) (c : Conn) (s : State), requestOk m 0x0302 2 s = true → s.lnk.conns.find? (fun x => x.peer == (mbReq s m).at_ 0 2 && !x.child && x.leaf) = some c → (wakeCarrier s).isSome = true →
    s.lnk.wake = none →
    completes (.linkWake m dt) s (fun t => started m [0] s t ∧ t.lnk.wake = some ⟨c.id, 9, s.elapsed + dt, some (m, (mbReq s m).tag)⟩ ∧
      changesOnly [Reg.MB_REQ_REQRD m] [.mboxes, .mbLast, .flight, .lnk] (s.pass dt) t)) ∧
  (∀ (m dt : Nat) (s : State), requestOk m 0x0401 12 s = true → (mbReq s m).at_ 0 1 = 1 → (mbReq s m).at_ 1 1 ≤ 31 → isRoot s = true →
    completes (.timeSource m dt) s (fun t => replied m 0 [] s t ∧ t.firn.source = .pps ∧ t.firn.ppsSec = (mbReq s m).at_ 4 8 ∧ t.firn.ppsAcc = (mbReq s m).at_ 2 2 ∧
      t.rdC (Reg.FIRN_CAP_CTL_EN 0) = 1 ∧ t.rdC (Reg.FIRN_CAP_CTL_SRC 0) = (mbReq s m).at_ 1 1)) ∧
  (∀ (m dt : Nat) (s : State), requestOk m 0x0402 16 s = true → (mbReq s m).at_ 0 1 < 32 → isRoot s = true → bitOf ((mbReq s m).at_ 0 1) 0 = 0 → bitOf ((mbReq s m).at_ 0 1) 1 = 1 →
    completes (.timeSet m dt) s (fun t => replied m 0 [] s t ∧ t.firn.utcOff = toSigned 16 ((mbReq s m).at_ 2 2) ∧ t.firn.loc = (s.pass dt).firn.loc)) ∧
  (∀ (m dt : Nat) (s : State), requestOk m 0x0402 16 s = true → (mbReq s m).at_ 0 1 < 32 → isRoot s = true → bitOf ((mbReq s m).at_ 0 1) 0 = 1 →
    completes (.timeSet m dt) s (fun t => t.firn.source = .set ∧ t.firn.refacc = (mbReq s m).at_ 4 4 ∧ t.rd Reg.FIRN_STAT_STEPPED = 1 ∧ t.rd Reg.FIRN_STEPCNT = satAdd (Reg.FIRN_STEPCNT).width (s.rd Reg.FIRN_STEPCNT) 1)) ∧
  (∀ (c : Nat → Nat → Instr) (id len m dt : Nat) (s : State), (c, id, len) ∈ [(Instr.timeSource, 0x0401, 12), (Instr.timeSet, 0x0402, 16)] → requestOk m id len s = true → (mbReq s m).at_ 0 1 = 0 → (mbReq s m).at_ 2 2 = 0 → isRoot s = false →
    completes (c m dt) s (fun t => replied m 10 [] s t ∧ changesOnly [Reg.MB_REQ_REQRD m] [.mboxes, .mbLast, .flight] (s.pass dt) t)) ∧
  (∀ (m dt : Nat) (s : State), requestOk m 0x0503 2 s = true → (mbReq s m).at_ 0 2 ≤ 1000 → completes (.lumFailsafe m dt) s (fun t => t.rd Reg.BKP_SET5 = (mbReq s m).at_ 0 2)) ∧
  (∀ (m dt : Nat) (s : State), requestOk m 0x0503 2 s = true → (mbReq s m).at_ 0 2 ≤ 1000 → lumOn s = false ∨ s.lum.failsafe = false →
    completes (.lumFailsafe m dt) s (fun t => replied m 0 [] s t ∧ t.rd Reg.BKP_SET5 = (mbReq s m).at_ 0 2 ∧ changesOnly [Reg.MB_REQ_REQRD m, Reg.BKP_SET5] [.mboxes, .mbLast, .flight] (s.pass dt) t)) ∧
  (∀ (m dt : Nat) (s : State), requestOk m 0x0500 16 s = true → (mbReq s m).at_ 0 2 ≤ 1000 → lumOn s = false →
    completes (.lumLevel m dt) s (fun t => replied m 0 (leBytes 2 (s.free % 65536)) s t ∧ t.freeCtr = s.freeCtr + 1 ∧ changesOnly [Reg.MB_REQ_REQRD m] [.mboxes, .mbLast, .flight, .freeCtr] (s.pass dt) t)) ∧
  (∀ (m dt : Nat) (s : State), requestOk m 0x0B05 0 s = true →
    completes (.updConfirm m dt) s (fun t => if s.on Reg.BKP_SET1_TRIAL = true then replied m 0 [] s t ∧ t.upd = { s.upd with confirmed := true } else replied m 10 [] s t ∧ t.upd = s.upd))

/-- Long and service commands of the mailbox (R350, R351, R354, R357, R477, R668, R681, R731, R740, R742, R744): what each starts or sets when its request passes, and what LM7440-N answers. -/
def Obligations.MailboxServices : Prop :=
  (∀ (c : Nat → Nat → Instr) (id len m dt : Nat) (s : State), (c, id, len) ∈ [(Instr.coGroupcmd, 0x0600, 16), (Instr.coNodes, 0x0601, 2), (Instr.coNode, 0x0602, 2), (Instr.coAdmit, 0x0604, 9),
      (Instr.coDispatch, 0x0605, 3), (Instr.pairStatus, 0x0A00, 0), (Instr.pairConfig, 0x0A01, 1), (Instr.pairSwitch, 0x0A02, 8), (Instr.updDistribute, 0x0B03, 6)] →
    requestOk m id len s = true → s.isC = false →
    completes (c m dt) s (fun t => replied m 9 [] s t ∧ changesOnly [Reg.MB_REQ_REQRD m] [.mboxes, .mbLast, .flight] (s.pass dt) t)) ∧
  (∀ (m dt : Nat) (s : State), requestOk m 0x0201 16 s = true → cfgRefusal (s.pass dt) (bufOf s m ((mbReq s m).at_ 0 1)) ((mbReq s m).at_ 8 8) = none → isCoord s = true →
    completes (.netCfgSet m dt) s (fun t => started m [(mbReq s m).at_ 0 1] s t ∧ t.netCfg = s.netCfg ∧
      t.lnk.nextCfg = some ⟨((bufOf s m ((mbReq s m).at_ 0 1)).getD []).take 400, (mbReq s m).at_ 8 8, false⟩)) ∧
  (∀ (m dt : Nat) (obj : List Nat) (s : State), requestOk m 0x0201 16 s = true → cfgRefusal (s.pass dt) (bufOf s m ((mbReq s m).at_ 0 1)) ((mbReq s m).at_ 8 8) = none → isCoord s = false →
    obj = ((bufOf s m ((mbReq s m).at_ 0 1)).getD []).take 400 →
    completes (.netCfgSet m dt) s (fun t => t.netCfg = obj ∧ t.rd Reg.LNK_PARENT_NETID = leAt obj 0 2 % 2 ^ 16 ∧ t.rd Reg.RFE_STAT_REGIME = leAt obj 4 1 % 16 ∧ opOf t m (mbReq s m).tag = none)) ∧
  (∀ (m st dt : Nat) (s : State), requestOk m 0x0201 16 s = true → cfgRefusal (s.pass dt) (bufOf s m ((mbReq s m).at_ 0 1)) ((mbReq s m).at_ 8 8) = some st →
    completes (.netCfgSet m dt) s (fun t => replied m st [] s t ∧ changesOnly [Reg.MB_REQ_REQRD m] [.mboxes, .mbLast, .flight] (s.pass dt) t)) ∧
  (∀ (dt : Nat) (n : NextCfg) (s : State), netCfgInstantOk (s.pass dt) = true → s.lnk.nextCfg = some n →
    completes (.netCfgInstant dt) s (fun t => t.netCfg = n.obj ∧ t.lnk.nextCfg = none ∧ t.rd Reg.RFE_STAT_REGIME = leAt n.obj 4 1 % 16)) ∧
  (∀ (m len dt : Nat) (s : State), requestOk m 0x0203 len s = true → 8 ≤ len → (mbReq s m).at_ 5 1 = 0 → 0x80 ≤ (mbReq s m).at_ 2 1 → (mbReq s m).at_ 3 1 ≤ 3 → (mbReq s m).at_ 4 1 ≤ 31 →
    isJoined s = true → floodLen ((mbReq s m).data.drop 8).length ≤ meshMax →
    completes (.netSend m dt) s (fun t => replied m 0 (leBytes 4 ((s.msh.mseq + 1) % 2 ^ 24)) s t ∧ t.msh.mseq = (s.msh.mseq + 1) % 2 ^ 24 ∧
      seenHas t (msgId (ownShort s) ((s.msh.mseq + 1) % 2 ^ 24)) = true)) ∧
  (∀ (m len dt : Nat) (s : State), requestOk m 0x0203 len s = true → 8 ≤ len → (mbReq s m).at_ 5 1 = 0 → 0x80 ≤ (mbReq s m).at_ 2 1 → (mbReq s m).at_ 3 1 ≤ 3 → (mbReq s m).at_ 4 1 ≤ 31 → isJoined s = false →
    completes (.netSend m dt) s (fun t => replied m 10 [] s t ∧ changesOnly [Reg.MB_REQ_REQRD m] [.mboxes, .mbLast, .flight] (s.pass dt) t)) ∧
  (∀ (m dt : Nat) (b : List Nat) (s : State), requestOk m 0x0502 1 s = true → bufOf s m ((mbReq s m).at_ 0 1) = some b → schedOk b = true → s.on Reg.FLC_STAT_RO = false →
    completes (.lumSched m dt) s (fun t => t.lum.sched = b.take (schedLen b) ∧ opOf t m (mbReq s m).tag = none)) ∧
  (∀ (m dt : Nat) (s : State), requestOk m 0x0600 16 s = true → s.isC = true → coActive s = true → groupOk ((mbReq s m).at_ 0 2) = true → (mbReq s m).at_ 2 2 ≤ 1000 → (s.pass dt).now + ftS 2 ≤ (mbReq s m).at_ 8 8 →
    completes (.coGroupcmd m dt) s (fun t => started m [0] s t ∧ ∃ g, t.co.cmds = s.co.cmds ++ [g] ∧ g.mb = m ∧ g.op = (mbReq s m).tag ∧ g.group = (mbReq s m).at_ 0 2 ∧ g.t = (mbReq s m).at_ 8 8 ∧
      g.end_ = (mbReq s m).at_ 8 8 + ftS ((mbReq s m).at_ 6 2))) ∧
  (∀ (dt : Nat) (g : CoCmd) (s : State), collectEndOk (s.pass dt) = true → s.co.cmds.find? (fun g => decide (g.end_ ≤ (s.pass dt).now)) = some g → s.mboxes.length = 4 →
    completes (.collectEnd dt) s (fun t => t.co.cmds = s.co.cmds.filter (fun x => !(x == g)) ∧ opOf t g.mb g.op = none ∧ changesOnly [] [.mboxes, .co] (s.pass dt) t)) ∧
  (∀ (m n dt : Nat) (s : State), requestOk m 0x0603 (4 + 2 * n) s = true → s.isC = true → n = (mbReq s m).at_ 2 1 → n ≤ 16 → (coNode s ((mbReq s m).at_ 0 2)).isSome = true →
    (∀ i, i < n → groupOk ((mbReq s m).at_ (4 + 2 * i) 2) = true) →
    completes (.coGroups m dt) s (fun t => replied m 0 [] s t ∧ (coNode t ((mbReq s m).at_ 0 2)).map (·.groups) = some ((List.range n).map (fun i => (mbReq s m).at_ (4 + 2 * i) 2)))) ∧
  (∀ (m dt : Nat) (s : State), requestOk m 0x0604 9 s = true → s.isC = true → s.co.admitted.length < 60000 ∨ (mbReq s m).at_ 8 1 = 0 →
    completes (.coAdmit m dt) s (fun t => replied m 0 [] s t ∧ ((mbReq s m).at_ 0 8 ∈ t.co.admitted ↔ (mbReq s m).at_ 8 1 ≠ 0) ∧ changesOnly [Reg.MB_REQ_REQRD m] [.mboxes, .mbLast, .flight, .co] (s.pass dt) t)) ∧
  (∀ (m dt : Nat) (b : List Nat) (s : State), requestOk m 0x0605 3 s = true → s.isC = true → bufOf s m ((mbReq s m).at_ 2 1) = some b → schedOk b = true → groupOk ((mbReq s m).at_ 0 2) = true →
    s.co.disps = [] → coMembers s ((mbReq s m).at_ 0 2) ≠ [] →
    completes (.coDispatch m dt) s (fun t => started m [(mbReq s m).at_ 2 1] s t ∧ ∃ d, t.co.disps = [d] ∧ d.mb = m ∧ d.op = (mbReq s m).tag ∧ d.obj = b.take (schedLen b) ∧
      d.members.map (·.short) = coMembers s ((mbReq s m).at_ 0 2))) ∧
  (∀ (m dt : Nat) (b : List Nat) (s : State), requestOk m 0x0A01 1 s = true → s.isC = true → bufOf s m ((mbReq s m).at_ 0 1) = some b → pairCfgOk b = true → mirRole s ≠ 1 → mirRole s ≠ 2 →
    completes (.pairConfig m dt) s (fun t => replied m 0 [] s t ∧ t.mir = { s.mir with cfg := b.take (16 + 8 * leAt b 7 1) } ∧ changesOnly [Reg.MB_REQ_REQRD m] [.mboxes, .mbLast, .flight, .mir] (s.pass dt) t)) ∧
  (∀ (m T dt : Nat) (s : State), requestOk m 0x0A02 8 s = true → s.isC = true → T = (mbReq s m).at_ 0 8 → (s.pass dt).now + ftS 1 ≤ T → T ≤ (s.pass dt).now + ftS 3600 → mirRole s = 1 ∨ mirRole s = 2 → s.mir.switch = none →
    completes (.pairSwitch m dt) s (fun t => started m [0] s t ∧ t.mir.switch = some ⟨T, some (m, (mbReq s m).tag), 0⟩ ∧ cmpShadowT t 8 = T ∧ t.rd (Reg.FIRN_CMP_CTL_ARM 8) = 1 ∧ t.rd (Reg.FIRN_CMP_CTL_CHEN 8) = 0))

/-- Tables, the store and field update by mailbox (R352, R357, R358, R477, R502, R701, R702, R704, R706, R709, R781): what a command stores, starts or refuses. -/
def Obligations.MailboxStores : Prop :=
  (∀ (m n dt : Nat) (b : List Nat) (s : State), requestOk m 0x0702 1 s = true → bufOf s m ((mbReq s m).at_ 0 1) = some b → n = leAt b 0 1 → 1 ≤ n → n ≤ 8 → 4 + 4 * n ≤ b.length →
    (∀ p ∈ partsOf b n 0 288, p.nblk ≠ 0 ∧ p.access < 8) → ((partsOf b n 0 288).map (fun p => p.nblk)).sum ≤ 1632 → s.on Reg.FLC_STAT_RO = false → s.on Reg.FLC_QAPP_CTL_EN = false →
    (∀ i, i < 8 → s.on (Reg.FLC_XO_LOCK (i + 8)) = false) →
    completes (.storePartset m dt) s (fun t => endedAtOnce m 3 0 [] s t ∧ t.flc.parts = partsOf b n 0 288)) ∧
  (∀ (m dt : Nat) (s : State), requestOk m 0x0703 1 s = true → (mbReq s m).at_ 0 1 ≤ 11 → partKind s ((mbReq s m).at_ 0 1) ≠ 0 → s.on Reg.FLC_STAT_RO = false → s.flc.marks = [] →
    completes (.storeScrub m [] dt) s (fun t => endedAtOnce m 3 0 (leBytes 4 0 ++ leBytes 2 0) s t ∧ changesOnly [Reg.MB_REQ_REQRD m] [.mboxes, .mbLast, .flight] (s.pass dt) t)) ∧
  (∀ (m dt : Nat) (outs : List (Nat × PageOut)) (s : State), requestOk m 0x0703 1 s = true → (mbReq s m).at_ 0 1 ≤ 11 → partKind s ((mbReq s m).at_ 0 1) ≠ 0 → s.on Reg.FLC_STAT_RO = true →
    completes (.storeScrub m outs dt) s (fun t => replied m 0x0700 [] s t ∧ changesOnly [Reg.MB_REQ_REQRD m] [.mboxes, .mbLast, .flight] (s.pass dt) t)) ∧
  (∀ (m dt : Nat) (b : List Nat) (s : State), requestOk m 0x0800 2 s = true → bufOf s m ((mbReq s m).at_ 0 1) = some b → (mbReq s m).at_ 1 1 ≤ 1 → tblRefusal s b ((mbReq s m).at_ 1 1 == 1) = none →
    completes (.tblLoad m dt) s (fun t => started m [(mbReq s m).at_ 0 1] s t ∧ t.tblJobs = s.tblJobs ++ [⟨leAt b 0 2, some ⟨leAt b 2 2, 1, (b.drop 16).take (leAt b 4 4)⟩, m, (mbReq s m).tag⟩] ∧ t.tables = s.tables)) ∧
  (∀ (m st offs dt : Nat) (b : List Nat) (s : State), requestOk m 0x0800 2 s = true → bufOf s m ((mbReq s m).at_ 0 1) = some b → (mbReq s m).at_ 1 1 ≤ 1 → tblRefusal s b ((mbReq s m).at_ 1 1 == 1) = some (st, offs) →
    completes (.tblLoad m dt) s (fun t => endedAtOnce m 4 st (leBytes 4 offs) s t ∧ changesOnly [Reg.MB_REQ_REQRD m] [.mboxes, .mbLast, .flight] (s.pass dt) t)) ∧
  (∀ (m tid dt : Nat) (s : State), requestOk m 0x0803 2 s = true → tid = (mbReq s m).at_ 0 2 → tblMailbox tid = true → tblKnown tid = true → tblBusy s tid = false →
    completes (.tblRevert m dt) s (fun t => started m [0] s t ∧ t.tblJobs = s.tblJobs ++ [⟨tid, none, m, (mbReq s m).tag⟩] ∧ t.tables = s.tables)) ∧
  (∀ (i dt : Nat) (j : TblJob) (s : State), s.tblJobs[i]? = some j → s.on Reg.FLC_STAT_RO = false → s.mboxes.length = 4 → keysRise s.tables = true →
    completes (.tblWriteDone i true dt) s (fun t => t.tblJobs = s.tblJobs.eraseIdx i ∧ opOf t j.mb j.tag = none ∧ look j.tid t.tables = j.obj)) ∧
  (∀ (i dt : Nat) (ok : Bool) (j : TblJob) (s : State), s.tblJobs[i]? = some j → s.on Reg.FLC_STAT_RO = true ∨ ok = false → s.mboxes.length = 4 →
    completes (.tblWriteDone i ok dt) s (fun t => t.tblJobs = s.tblJobs.eraseIdx i ∧ opOf t j.mb j.tag = none ∧ t.tables = s.tables ∧ changesOnly [] [.mboxes, .tblJobs] (s.pass dt) t)) ∧
  (∀ (m n dt : Nat) (s : State), requestOk m 0x0B01 8 s = true → (mbReq s m).at_ 0 1 = 1 → n = (mbReq s m).at_ 4 4 → 1 ≤ n → n ≤ 0x1000000 → storeRoom s = true →
    completes (.updIntake m dt) s (fun t => started m [0, 1, n] s t ∧ changesOnly [Reg.MB_REQ_REQRD m] [.mboxes, .mbLast, .flight] (s.pass dt) t)) ∧
  (∀ (m dt : Nat) (s : State), requestOk m 0x0B01 8 s = true → (mbReq s m).at_ 0 1 = 0 → (mbReq s m).at_ 4 4 = 0 → storeRoom s = true → s.on (Reg.SPX_STAT_GLETY 1) = false →
    completes (.updIntake m dt) s (fun t => started m [0, 0, 0] s t ∧ t.rd (Reg.SPX_STAT_GLETY 1) = 1 ∧ changesOnly [Reg.MB_REQ_REQRD m, Reg.SPX_STAT_GLETY 1] [.mboxes, .mbLast, .flight] (s.pass dt) t)) ∧
  (∀ (m dt : Nat) (o : LiveOp) (b : List Nat) (s : State), requestOk m 0x0B02 8 s = true → opOf s m ((mbReq s m).at_ 0 2) = some o → bufOf s m ((mbReq s m).at_ 2 1) = some b → o.cmd = 0x0B01 → o.args.getD 1 0 = 1 →
    (mbReq s m).at_ 4 4 = o.data.length → o.data.length + b.length ≤ o.args.getD 2 0 →
    completes (.updPush m dt) s (fun t => replied m 0 [] s t ∧ (opOf t m o.tag).map (·.data) = some (o.data ++ b) ∧ changesOnly [Reg.MB_REQ_REQRD m] [.mboxes, .mbLast, .flight] (s.pass dt) t)) ∧
  (∀ (m tag dt : Nat) (card : List Nat) (o : LiveOp) (s : State), m < 4 → intakeVerifyOk m tag (s.pass dt) = true → opOf s m tag = some o → o.args.getD 1 0 ≠ 0 → bunStatus s o.data ≠ 0 → s.mboxes.length = 4 →
    completes (.intakeVerify m tag card dt) s (fun t => opOf t m tag = none ∧ t.upd = s.upd ∧ (mbox t m).backlog = (mbox s m).backlog ++ [MbRec.mk o.cmd tag (b2n o.prog) 4 (bunStatus s o.data) 0 []])) ∧
  (∀ (m tag dt : Nat) (card : List Nat) (o : LiveOp) (s : State), m < 4 → intakeVerifyOk m tag (s.pass dt) = true → opOf s m tag = some o → o.args.getD 1 0 ≠ 0 → bunStatus s o.data = 0 → s.mboxes.length = 4 →
    bundleOf s (bunBid o.data) = none → storeRoom s = true →
    completes (.intakeVerify m tag card dt) s (fun t => opOf t m tag = none ∧ (bundleOf t (bunBid o.data)).isSome = true ∧ t.upd.bid = bunBid o.data ∧ t.upd.state = 2)) ∧
  (∀ (m bid g dt : Nat) (b : Bundle) (s : State), requestOk m 0x0B03 6 s = true → s.isC = true → bid = (mbReq s m).at_ 0 4 → g = (mbReq s m).at_ 4 2 → bundleOf s bid = some b → b.verified = true → 0xF000 ≤ g →
    coActive s = true → s.upd.dist = none →
    completes (.updDistribute m dt) s (fun t => (bundleOf t bid).map (fun x => (x.group, x.busy, x.sendIdx)) = some (some g, true, 0) ∧ t.msh.mseq = (s.msh.mseq + 1) % 2 ^ 24)) ∧
  (∀ (m bid T dt : Nat) (b : Bundle) (s : State), requestOk m 0x0B04 16 s = true → bid = (mbReq s m).at_ 0 4 → T = (mbReq s m).at_ 8 8 → (s.pass dt).now + ftS 60 ≤ T → T ≤ (s.pass dt).now + ftS 2592000 →
    bundleOf s bid = some b → (isJoined s = true ∧ coActive s = true) ∨ (isJoined s = false ∧ bunForMe s (bundleBytes b) = true ∧ bunCompat s (bundleBytes b) = true) →
    completes (.updActivate m dt) s (fun t => t.upd.give = some (bid, T) ∧ MbRec.mk (mbReq s m).cmd (mbReq s m).tag (mbReq s m).flags 0 0 0 [] ∈ (mbox t m).backlog))

/-- The transfer of a bundle (R703 to R709, R714): chunks sent on and kept, the request timer, requests and reports taken, and the installation of a whole bundle. -/
def Obligations.UpdateTransfer : Prop :=
  (∀ (dt : Nat) (b : Bundle) (s : State), s.upd.bundles.find? (sendsChunks (s.pass dt)) = some b → bundleOf s b.bid = some b →
    completes (.chunkSend dt) s (fun t => (bundleOf t b.bid).map (·.sendIdx) = some (b.sendIdx + 1) ∧ t.msh.mseq = (s.msh.mseq + 1) % 2 ^ 24)) ∧
  (∀ (dt i : Nat) (x : BulkIn) (b : Bundle) (s : State), bulkTake 2 s = some x → bundleOf s (leAt x.data 1 4) = some b → i = leAt x.data 5 2 → i < chunkCount b.total → look i b.chunks = none →
    (x.data.drop 8).length = (if i + 1 = chunkCount b.total then b.total - 1024 * i else 1024) →
    completes (.chunkReceive dt) s (fun t => (bundleOf t (leAt x.data 1 4)).map (fun y => look i y.chunks) = some (some (x.data.drop 8)) ∧
      (bundleOf t (leAt x.data 1 4)).map (·.heardAt) = some (s.elapsed + dt) ∧ t.upd.inbox = s.upd.inbox.erase x ∧ changesOnly [] [.upd] (s.pass dt) t)) ∧
  (∀ (dt : Nat) (x : BulkIn) (s : State), bulkTake 2 s = some x → bundleOf s (leAt x.data 1 4) = none →
    completes (.chunkReceive dt) s (fun t => t.upd = { s.upd with inbox := s.upd.inbox.erase x } ∧ changesOnly [] [.upd] (s.pass dt) t)) ∧
  (∀ (dt : Nat) (s : State), reqTimerOk (s.pass dt) = true →
    completes (.reqTimer dt) s (fun t => t.upd = { s.upd with reqK := upK s, reqAt := s.elapsed + dt })) ∧
  (∀ (dt : Nat) (x : BulkIn) (s : State), bulkTake 3 s = some x →
    completes (.reqReceive dt) s (fun t => t.upd = { s.upd with inbox := s.upd.inbox.erase x } ∧ (bundleOf s (leAt x.data 1 4) = none → changesOnly [] [.upd] (s.pass dt) t))) ∧
  (∀ (dt : Nat) (x : BulkIn) (d : UpdDist) (s : State), bulkTake 4 s = some x → s.upd.dist = some d → d.bid = leAt x.data 1 4 → leAt x.data 5 1 = 4 →
    completes (.haveReceive dt) s (fun t => t.upd.inbox = s.upd.inbox.erase x ∧ (t.upd.dist = none ∨ ∃ e, t.upd.dist = some e ∧ x.src ∈ e.have_ ∧ e.bid = d.bid))) ∧
  (∀ (dt : Nat) (x : BulkIn) (s : State), bulkTake 4 s = some x → s.upd.dist = none →
    completes (.haveReceive dt) s (fun t => t.upd = { s.upd with inbox := s.upd.inbox.erase x } ∧ changesOnly [] [.upd] (s.pass dt) t)) ∧
  (∀ (dt : Nat) (fail : Bool) (b : Bundle) (s : State), installOk (s.pass dt) = true → toInstall (s.pass dt) = some b → bunSigned (s.pass dt) (bundleBytes b) = false →
    completes (.install fail dt) s (fun t => t.upd.state = 7 ∧ t.upd.lastErr = 0x0B00 ∧ t.upd.bid = b.bid ∧ bundleOf t b.bid = none ∧ t.upd.inst = s.upd.inst)) ∧
  (∀ (dt : Nat) (b : Bundle) (s : State), installOk (s.pass dt) = true → toInstall (s.pass dt) = some b → b.verified = true → bundleMine (s.pass dt) b = true → bunSigned (s.pass dt) (bundleBytes b) = true →
    bunForMe (s.pass dt) (bundleBytes b) = true → bunCompat (s.pass dt) (bundleBytes b) = true → s.upd.give = none →
    completes (.install false dt) s (fun t => t.upd.state = 4 ∧ t.upd.bid = b.bid ∧ (bundleOf t b.bid).map (·.busy) = some true)) ∧
  (∀ (dt : Nat) (x : BulkIn) (s : State), bulkTake 5 s = some x →
    completes (.activateReceive dt) s (fun t => t.upd.give = some (leAt x.data 1 4, leAt x.data 5 8) ∧ t.upd.inbox = s.upd.inbox.erase x))

/-- Activation and the trial (R710 to R713): in place, by a reset or at a pair's switch; a trial confirmed, or fallen back from at the end of its window. -/
def Obligations.UpdateActivation : Prop :=
  (∀ (dt : Nat) (s : State), activationOk (s.pass dt) = true → cidsReset s.upd.cids = false → 5 ∉ s.upd.cids →
    completes (.activation dt) s (fun t => t.upd.armed = false ∧ t.upd.state = 0 ∧ t.upd.inst = s.upd.comps.foldl (fun l p => if s.upd.cids.contains p.1 then put p.1 p.2 l else l) s.upd.inst ∧
      t.rd Reg.BKP_SET1_TRIAL = s.rd Reg.BKP_SET1_TRIAL)) ∧
  (∀ (dt : Nat) (s : State), activationOk (s.pass dt) = true → cidsReset s.upd.cids = false → 5 ∈ s.upd.cids →
    completes (.activation dt) s (fun t => t.upd.armed = false ∧ t.upd.state = 6 ∧ t.upd.trialAt = some (s.elapsed + dt) ∧ t.rd Reg.BKP_SET1_TRIAL = 1 ∧ t.rd Reg.BKP_SET1_TRIALA = 1 ∧ t.rd Reg.BKP_SET1_TRIALG = 0 ∧
      t.rd Reg.SYS_BOOT_ASLOT = (1 - s.rd Reg.BKP_SET1_ALG) % 2)) ∧
  (∀ (dt : Nat) (s : State), activationOk (s.pass dt) = true → cidsReset s.upd.cids = true → mirRole s ≠ 1 →
    completes (.activation dt) s (fun t => t.upd.armed = false ∧ t.upd.state = 6 ∧ t.rd Reg.BKP_SET1_TRIAL = 1 ∧ t.rd Reg.BKP_SET1_TRIALG = 1 ∧ t.rd Reg.BKP_SET1_TRIALA = b2n (s.upd.cids.contains 5) ∧
      t.rd Reg.SYS_RSTCAUSE_SOFT = 1 ∧ t.sysResetAt = s.elapsed + dt)) ∧
  (∀ (dt : Nat) (s : State), activationOk (s.pass dt) = true → cidsReset s.upd.cids = true → mirRole s = 1 →
    completes (.activation dt) s (fun t => t.upd.armed = true ∧ t.upd.state = 5 ∧ t.upd.t = (s.pass dt).now + ftS 301)) ∧
  (∀ (dt : Nat) (s : State), trialConfirmOk (s.pass dt) = true →
    completes (.trialConfirm dt) s (fun t => t.rd Reg.BKP_SET1_TRIAL = 0 ∧ t.upd.trialAt = none ∧ t.upd.replaced = [] ∧ (s.on Reg.BKP_SET1_TRIALG = true → t.rd Reg.BKP_SET1_GLG = s.rd Reg.SYS_BOOT_GSLOT % 2) ∧
      (s.on Reg.BKP_SET1_TRIALA = true → t.rd Reg.BKP_SET1_ALG = s.rd Reg.SYS_BOOT_ASLOT % 2) ∧ (s.upd.armed = false → t.upd.state = 0))) ∧
  (∀ (dt : Nat) (s : State), confwinExpiryOk (s.pass dt) = true → s.on Reg.BKP_SET1_TRIALG = false →
    completes (.confwinExpiry dt) s (fun t => t.rd Reg.BKP_SET1_TRIAL = 0 ∧ t.rd Reg.SYS_BOOT_ASLOT = s.rd Reg.BKP_SET1_ALG % 2 ∧ t.upd.state = 7 ∧ t.upd.inst = s.upd.oldInst)) ∧
  (∀ (dt : Nat) (s : State), confwinExpiryOk (s.pass dt) = true → s.on Reg.BKP_SET1_TRIALG = true →
    completes (.confwinExpiry dt) s (fun t => t.rd Reg.BKP_SET1_TRIAL = 0 ∧ t.rd Reg.SYS_RSTCAUSE_SOFT = 1 ∧ t.upd.state = 7 ∧ t.upd.inst = s.upd.oldInst))

/-- The functions of the ALU (R377, R384, R385): the result and the flags of each, on operands of 8, 16 and 32 bits. -/
def Obligations.AluFunctions : Prop :=
  (∀ (w : Nat) (a b : BitVec w) (c : Bool), w = 8 ∨ w = 16 ∨ w = 32 →
    let put := fun (r : BitVec w) => ({ res := some r.toNat, n := some r.msb, z := some (r == 0#w), c := none, v := none } : AluOut)
    let sum := fun (r : BitVec w) (x : Nat) (y : Int) => ({ put r with c := some (decide (2 ^ w ≤ x)), v := some (decide (r.toInt ≠ y)) } : AluOut)
    let dif := fun (r : BitVec w) (k : Nat) => ({ put r with c := some (decide (b.toNat + k ≤ a.toNat)), v := some (decide (r.toInt ≠ a.toInt - b.toInt - (k : Int))) } : AluOut)
    let n := b.toNat % 32
    aluAdd w a.toNat b.toNat c = sum (a + b) (a.toNat + b.toNat) (a.toInt + b.toInt) ∧
    aluAdc w a.toNat b.toNat c = sum (a + b + BitVec.ofNat w (b2n c)) (a.toNat + b.toNat + b2n c) (a.toInt + b.toInt + (b2n c : Int)) ∧
    aluSub w a.toNat b.toNat c = dif (a - b) 0 ∧
    aluSbc w a.toNat b.toNat c = dif (a - b - BitVec.ofNat w (1 - b2n c)) (1 - b2n c) ∧
    aluCmp w a.toNat b.toNat c = { dif (a - b) 0 with res := none } ∧
    aluAnd w a.toNat b.toNat c = put (a &&& b) ∧ aluOr w a.toNat b.toNat c = put (a ||| b) ∧ aluXor w a.toNat b.toNat c = put (a ^^^ b) ∧
    aluBic w a.toNat b.toNat c = put (a &&& ~~~b) ∧ aluTst w a.toNat b.toNat c = { put (a &&& b) with res := none } ∧
    aluNot w a.toNat b.toNat c = put (~~~b) ∧ aluMov w a.toNat b.toNat c = { res := some b.toNat, n := none, z := none, c := none, v := none } ∧
    aluShl w a.toNat b.toNat c = (if n = 0 then put a else { put (a <<< n) with c := some ((a.zeroExtend (w + 1)) <<< n).msb }) ∧
    aluShr w a.toNat b.toNat c = (if n = 0 then put a else { put (a >>> n) with c := some ((a >>> (n - 1)).getLsbD 0) }) ∧
    aluSar w a.toNat b.toNat c = (if n = 0 then put a else { put (a.sshiftRight n) with c := some ((a.sshiftRight (n - 1)).getLsbD 0) }) ∧
    aluRor w a.toNat b.toNat c = (if n % w = 0 then put a else { put (a.rotateRight n) with c := some (a.rotateRight n).msb })) ∧
  (∀ (a b : BitVec 32) (c : Bool),
    let put := fun (r : BitVec 32) => ({ res := some r.toNat, n := some r.msb, z := some (r == 0#32), c := none, v := none } : AluOut)
    let pick := fun (r : BitVec 32) => ({ res := some r.toNat, n := none, z := none, c := none, v := none } : AluOut)
    let edge := a = BitVec.intMin 32 ∧ b = -1#32
    aluMul 32 a.toNat b.toNat c = put (a * b) ∧
    aluMulh 32 a.toNat b.toNat c = put ((a.signExtend 64 * b.signExtend 64).extractLsb' 32 32) ∧
    aluMulhu 32 a.toNat b.toNat c = put ((a.zeroExtend 64 * b.zeroExtend 64).extractLsb' 32 32) ∧
    aluDiv 32 a.toNat b.toNat c = { put (if b = 0#32 then -1#32 else a.sdiv b) with v := some (decide (b = 0#32 ∨ edge)) } ∧
    aluDivu 32 a.toNat b.toNat c = { put (if b = 0#32 then -1#32 else a / b) with v := some (decide (b = 0#32)) } ∧
    aluRem 32 a.toNat b.toNat c = { put (if b = 0#32 then a else a.srem b) with v := some (decide (b = 0#32 ∨ edge)) } ∧
    aluRemu 32 a.toNat b.toNat c = { put (if b = 0#32 then a else a % b) with v := some (decide (b = 0#32)) } ∧
    aluMin 32 a.toNat b.toNat c = pick (if a.sle b then a else b) ∧ aluMax 32 a.toNat b.toNat c = pick (if a.sle b then b else a) ∧
    aluMinu 32 a.toNat b.toNat c = pick (if a ≤ b then a else b) ∧ aluMaxu 32 a.toNat b.toNat c = pick (if a ≤ b then b else a))

/-- Instructions that work in the core's own registers (R372, R373, R377, R381 to R385, R389, R390, R394): each writes its destination and the flags it names, and the core goes on behind it. -/
def Obligations.RegisterInstructions : Prop :=
  (∀ (op : IsaHead → AluArg → Nat → Instr) (k : Nat) (f : AluFn), (op, k, f) ∈
      ([(.add, 0, aluAdd), (.adc, 1, aluAdc), (.sub, 2, aluSub), (.sbc, 3, aluSbc), (.cmp, 4, aluCmp), (.and, 5, aluAnd), (.or, 6, aluOr), (.xor, 7, aluXor), (.bic, 8, aluBic), (.tst, 9, aluTst),
        (.mov, 10, aluMov), (.not, 11, aluNot), (.shl, 12, aluShl), (.shr, 13, aluShr), (.sar, 14, aluSar), (.ror, 15, aluRor), (.mul, 16, aluMul), (.mulh, 17, aluMulh), (.mulhu, 18, aluMulhu),
        (.div, 19, aluDiv), (.divu, 20, aluDivu), (.rem, 21, aluRem), (.remu, 22, aluRemu), (.min, 23, aluMin), (.max, 24, aluMax), (.minu, 25, aluMinu), (.maxu, 26, aluMaxu)] :
        List ((IsaHead → AluArg → Nat → Instr) × Nat × AluFn)) →
    ∀ (h : IsaHead) (x : AluArg) (dt n w : Nat) (o : AluOut) (c : Core) (s u : State), executes (op h x dt) h n s u → plainFlow h.ini u → c = coreOf u h.ini → w = 8 * opBytes h →
      o = f w (aluA c x % 2 ^ w) (aluB c x % 2 ^ w) c.c →
      completes (op h x dt) s (fun t => coreNext h.ini n (fun d => match o.res with
        | some r => gWr x.rd r (if hasPfx h 3 then d else { d with n := o.n.getD d.n, z := o.z.getD d.z, c := o.c.getD d.c, v := o.v.getD d.v })
        | none => if hasPfx h 3 then d else { d with n := o.n.getD d.n, z := o.z.getD d.z, c := o.c.getD d.c, v := o.v.getD d.v }) u t)) ∧
  (∀ (i : Instr) (h : IsaHead) (n : Nat) (f : Core → Core) (s u : State), executes i h n s u → plainFlow h.ini u → (h.ini = 0 → (f (coreOf u h.ini)).le = false) →
    (match i with
     | .movi16 _ rd kind imm _ => f = gWr rd (if kind % 4 = 0 then (BitVec.signExtend 32 (BitVec.ofNat 16 imm)).toNat else if kind % 4 = 1 then imm % 2 ^ 16
         else imm % 2 ^ 16 * 2 ^ 16 + gRd (coreOf u h.ini) rd % 2 ^ 16)
     | .movi32 _ rd imm _ => f = gWr rd (imm % 2 ^ 32)
     | .popc _ rd rs _ => f = gWr rd ((List.range 32).countP (fun b => (gRd (coreOf u h.ini) rs).testBit b))
     | .clz _ rd rs _ => f = gWr rd (32 - (Nat.log2 (2 * gRd (coreOf u h.ini) rs + 1)))
     | .brev _ rd rs _ => f = gWr rd (BitVec.reverse (BitVec.ofNat 32 (gRd (coreOf u h.ini) rs))).toNat
     | .bswap _ rd rs _ => f = gWr rd (ofLeBytes (leBytes 4 (gRd (coreOf u h.ini) rs)).reverse)
     | .bfxu _ rd rs pos width _ => f = gWr rd (gRd (coreOf u h.ini) rs / 2 ^ (pos % 256) % 2 ^ (width % 256))
     | .bfxs _ rd rs pos width _ => f = gWr rd (BitVec.signExtend 32 (BitVec.ofNat (width % 256) (gRd (coreOf u h.ini) rs / 2 ^ (pos % 256)))).toNat
     | .bfi _ rd rs pos width _ => ∃ v, f = gWr rd v ∧ ∀ b, b < 32 → v.testBit b =
         if pos % 256 ≤ b ∧ b < pos % 256 + width % 256 then (gRd (coreOf u h.ini) rs).testBit (b - pos % 256) else (gRd (coreOf u h.ini) rd).testBit b
     | .movc _ rb false num _ => f = fun d => gWr (rb / 16 % 16) (ctlRead u h.ini (num % 128)) (if num % 128 = 9 then { d with cych := BitVec.ofNat 32 (coreCyc u h.ini / 2 ^ 32) } else d)
     | .movc _ rb true num _ => f = ctlWrite h.ini (num % 128) (gRd (coreOf u h.ini) (rb % 16))
     | .nop _ _ => f = id
     | .wfi _ _ => f = fun d => { d with wfi := true }
     | .di _ _ => f = fun d => { d with ie := false }
     | .ei _ _ => f = fun d => { d with ie := true }
     | .bar _ _ => f = id ∧ u.pwr.held.any (fun w => w.ini == h.ini) = false
     | .isb _ _ => f = id ∧ u.pwr.held.any (fun w => w.ini == h.ini) = false
     | .icinv _ _ => f = (fun d => { d with icache := [] }) ∧ u.pwr.held.any (fun w => w.ini == h.ini) = false
     | _ => False) →
    completes i s (fun t => coreNext h.ini n f u t)) ∧
  (∀ (h : IsaHead) (lvl : Nat) (creg : Bool) (reg off count dt n ls lc : Nat) (c : Core) (s u : State), executes (.loop h lvl creg reg off count dt) h n s u → plainFlow h.ini u → c = coreOf u h.ini →
    ls = (c.pc.toNat + n) % 2 ^ 32 → lc = (if creg then gRd c reg else count % 2 ^ 16) →
    completes (.loop h lvl creg reg off count dt) s (fun t => coreGoes 0 (if lc = 0 then (ls + off % 2 ^ 16) % 2 ^ 32 else ls)
      (fun d => { d with ls := d.ls.set (lvl % 3) (BitVec.ofNat 32 ls) (Nat.mod_lt _ (by decide)), lend := d.lend.set (lvl % 3) (BitVec.ofNat 32 (ls + off % 2 ^ 16)) (Nat.mod_lt _ (by decide)), lc := d.lc.set (lvl % 3) (BitVec.ofNat 32 lc) (Nat.mod_lt _ (by decide)) }) u t))

/-- Loads, stores and atomic operations (R386, R387, R389, R399): the address, the value, the moved base, the bytes stored in on-chip RAM, and what a misaligned or failed access raises. -/
def Obligations.LoadsStoresAtomics : Prop :=
  (∀ (h : IsaHead) (m : MemArg) (dt n v : Nat) (sg : Bool) (i : Instr) (c : Core) (s u x : State), i = (if sg then .lds h m dt else .ld h m dt) → executes i h n s u → c = coreOf u h.ini →
    loads h (memAddr c (opBytes h) m) (opBytes h) v u x →
    completes i s (fun t => coreGoes h.ini ((c.pc.toNat + n) % 2 ^ 32) (fun d => memBase m (memMoved c m) (gWr m.rd (if sg then (BitVec.signExtend 32 (BitVec.ofNat (8 * opBytes h) v)).toNat else v) d)) x t)) ∧
  (∀ (h : IsaHead) (m : MemArg) (dt n : Nat) (c : Core) (s u x : State), executes (.st h m dt) h n s u → c = coreOf u h.ini → stores h (memAddr c (opBytes h) m) (opBytes h) (gRd c m.rd) u x →
    completes (.st h m dt) s (fun t => coreGoes h.ini ((c.pc.toNat + n) % 2 ^ 32) (memBase m (memMoved c m)) x t)) ∧
  (∀ (h : IsaHead) (m : MemArg) (dt n a g : Nat) (c : Core) (s u x : State), executes (.st h m dt) h n s u → c = coreOf u h.ini → a = memAddr c (opBytes h) m → stores h a (opBytes h) (gRd c m.rd) u x →
    globalAddr h.ini a = some g → (match rgnOf u.isC g with | .sram _ => true | .itcm _ => true | .dtcm _ => true | _ => false) = true → memWf u.mem = true →
    writeLands (isaReq h (!c.priv) a (opBytes h) (gRd c m.rd % 2 ^ (8 * opBytes h))) u = true →
    completes (.st h m dt) s (fun t => (∀ i, i < opBytes h → (memRd t.mem (g + i)).toNat = gRd c m.rd / 256 ^ i % 256) ∧ (∀ b, b < g ∨ g + opBytes h ≤ b → memRd t.mem b = memRd u.mem b))) ∧
  (∀ (h : IsaHead) (mask dt n sp : Nat) (rs : List Nat) (s u x : State), executes (.pushm h mask dt) h n s u → rs = (List.range 16).filter (fun r => mask.testBit r) →
    sp = (gRd (coreOf u h.ini) 13 + (2 ^ 32 - 4 * rs.length)) % 2 ^ 32 → storesFrom h sp (rs.map (gRd (coreOf u h.ini))) u x →
    completes (.pushm h mask dt) s (fun t => coreGoes h.ini (((coreOf u h.ini).pc.toNat + n) % 2 ^ 32) (gWr 13 sp) x t)) ∧
  (∀ (h : IsaHead) (mask dt n sp : Nat) (rs vs : List Nat) (s u x : State), executes (.popm h mask dt) h n s u → rs = (List.range 16).filter (fun r => mask.testBit r) → sp = gRd (coreOf u h.ini) 13 →
    vs.length = rs.length → loadsFrom h sp vs u x →
    completes (.popm h mask dt) s (fun t => coreGoes h.ini (((coreOf u h.ini).pc.toNat + n) % 2 ^ 32)
      (fun d => gWr 13 ((sp + 4 * rs.length) % 2 ^ 32) ((rs.zip vs).foldl (fun e p => gWr p.1 p.2 e) d)) x t)) ∧
  (∀ (i : Instr) (h : IsaHead) (rd base dt n a v new : Nat) (z : Option Bool) (c : Core) (s u : State), executes i h n s u → u.cores.length = 14 → c = coreOf u h.ini → plainFlow h.ini u → a = gRd c base → a % 4 = 0 → inSram u a = true →
    readLands (isaReq h (!c.priv) a 4 0) u = true → badIn u a 4 = none → v = u.ld a 4 → writeLands (isaReq h (!c.priv) a 4 new) u = true →
    (i = .swp h rd base dt ∧ new = gRd c rd ∧ z = none ∨ i = .cas h rd base dt ∧ v = gRd c 0 ∧ new = gRd c rd ∧ z = some true ∨ i = .xadd h rd base dt ∧ new = (v + gRd c rd) % 2 ^ 32 ∧ z = none) →
    completes i s (fun t => coreOf t h.ini = gWr rd v { c with z := z.getD c.z, pc := BitVec.ofNat 32 (c.pc.toNat + n), boundary := true, oneStep := false } ∧
      (memWf u.mem = true → (∀ j, j < 4 → (memRd t.mem (a + j)).toNat = new / 256 ^ j % 256) ∧ (∀ b, b < a ∨ a + 4 ≤ b → memRd t.mem b = memRd u.mem b)))) ∧
  (∀ (h : IsaHead) (rd base dt n a v : Nat) (c : Core) (s u : State), executes (.cas h rd base dt) h n s u → c = coreOf u h.ini → plainFlow h.ini u → a = gRd c base → a % 4 = 0 → inSram u a = true →
    readLands (isaReq h (!c.priv) a 4 0) u = true → badIn u a 4 = none → v = u.ld a 4 → v ≠ gRd c 0 →
    completes (.cas h rd base dt) s (fun t => coreNext h.ini n (fun d => gWr rd v { d with z := false }) u t)) ∧
  (∀ (i : Instr) (h : IsaHead) (m : MemArg) (dt n a : Nat) (c : Core) (s u : State), i = .ld h m dt ∨ i = .lds h m dt ∨ i = .st h m dt → executes i h n s u → c = coreOf u h.ini → a = memAddr c (opBytes h) m →
    a % opBytes h ≠ 0 → completes i s (fun t => coreTraps h.ini 6 (6 + (if i = .st h m dt then 2 ^ 21 else 0)) c.pc.toNat (some a) u t)) ∧
  (∀ (i : Instr) (h : IsaHead) (m : MemArg) (dt n a kd : Nat) (c : Core) (s u x : State), i = .ld h m dt ∨ i = .lds h m dt → executes i h n s u → c = coreOf u h.ini → a = memAddr c (opBytes h) m →
    a % opBytes h = 0 → c.imprecise = [] → seqParity u h.ini a (opBytes h) = none → busRead (isaReq h (!c.priv) a (opBytes h) 0) false u = (.err kd, x) →
    completes i s (fun t => coreTraps h.ini 5 (5 + kd % 16 * 2 ^ 16) c.pc.toNat (some a) x t)) ∧
  (∀ (h : IsaHead) (m : MemArg) (dt n a kd : Nat) (c : Core) (s u x : State), executes (.st h m dt) h n s u → c = coreOf u h.ini → a = memAddr c (opBytes h) m →
    a % opBytes h = 0 → plainFlow h.ini u → isCore h.ini = true → u.cores.length = 14 → busWrite (isaReq h (!c.priv) a (opBytes h) (gRd c m.rd % 2 ^ (8 * opBytes h))) u = (.err kd, x) →
    completes (.st h m dt) s (fun t => (coreOf t h.ini).imprecise = [ImpErr.mk a kd 0] ∧ (coreOf t h.ini).g = (memBase m (memMoved c m) c).g ∧ (coreOf t h.ini).pc.toNat = (c.pc.toNat + n) % 2 ^ 32 ∧ memSame u t))

/-- The string group (R391 to R393): one element, its registers, flags and bytes, and the repeat's count, its end and its early end. -/
def Obligations.StringInstructions : Prop :=
  (∀ (i : Instr) (h : IsaHead) (n k : Nat) (f : Core → Core) (early : Core → Bool) (c : Core) (s u x : State), executes i h n s u → c = coreOf u h.ini → k = opBytes h → plainFlow h.ini x →
    (hasPfx h 4 = true → gRd c 12 ≠ 0) →
    (match i with
     | .movs _ _ => (∃ v y, gRd c 11 % k = 0 ∧ loads h (gRd c 10) k v u y ∧ stores h (gRd c 11) k v y x) ∧ f = (fun d => gWr 11 ((gRd d 11 + k) % 2 ^ 32) (gWr 10 ((gRd d 10 + k) % 2 ^ 32) d)) ∧ early = fun _ => false
     | .fils _ _ => stores h (gRd c 11) k (gRd c 0) u x ∧ f = (fun d => gWr 11 ((gRd d 11 + k) % 2 ^ 32) d) ∧ early = fun _ => false
     | .cmps _ _ => ∃ v w y, gRd c 11 % k = 0 ∧ loads h (gRd c 10) k v u y ∧ loads h (gRd c 11) k w y x ∧
         f = (fun d => gWr 11 ((gRd d 11 + k) % 2 ^ 32) (gWr 10 ((gRd d 10 + k) % 2 ^ 32) (flagsPut (aluCmp (8 * k) v w false) d))) ∧ early = fun d => !d.z
     | .scns _ _ => ∃ v, loads h (gRd c 10) k v u x ∧ f = (fun d => gWr 10 ((gRd d 10 + k) % 2 ^ 32) (flagsPut (aluCmp (8 * k) v (gRd c 0 % 2 ^ (8 * k)) false) d)) ∧ early = fun d => d.z
     | .crcs _ _ => ∃ v, loads h (gRd c 10) k v u x ∧ f = (fun d => gWr 10 ((gRd d 10 + k) % 2 ^ 32) (gWr 1 (crcReflected 0xEDB88320 (gRd c 1) (leBytes k v)) d)) ∧ early = fun _ => false
     | _ => False) →
    completes i s (fun t => if hasPfx h 4 = false then coreGoes h.ini ((c.pc.toNat + n) % 2 ^ 32) f x t
      else if gRd c 12 = 1 ∨ early (f c) = true then coreGoes h.ini ((c.pc.toNat + n) % 2 ^ 32) (fun d => gWr 12 (gRd c 12 - 1) (f d)) x t
      else coreGoes h.ini c.pc.toNat (fun d => gWr 12 (gRd c 12 - 1) (f d)) x t)) ∧
  (∀ (i : Instr) (h : IsaHead) (n dt : Nat) (s u : State), i ∈ [Instr.movs h dt, .fils h dt, .cmps h dt, .scns h dt, .crcs h dt] → executes i h n s u → plainFlow h.ini u → hasPfx h 4 = true →
    gRd (coreOf u h.ini) 12 = 0 → completes i s (fun t => coreNext h.ini n id u t))

/-- Flow and exceptions of the compact form (R370, R376, R379, R380, R383, R388, R395, R398 to R403, R563): branches, calls, returns, loop-back, a false condition, what each cause saves and where it
goes, interrupts and failed posted writes. -/
def Obligations.FlowAndExceptions : Prop :=
  (∀ (i : Instr) (h : IsaHead) (n dst link : Nat) (c : Core) (s u : State), executes i h n s u → c = coreOf u h.ini → c.imprecise = [] → link = (c.pc.toNat + n) % 2 ^ 32 →
    (match i with
     | .br8 _ disp _ => dst = (BitVec.ofNat 32 link + BitVec.signExtend 32 (BitVec.ofNat 8 disp)).toNat
     | .br32 _ disp _ => dst = (link + disp) % 2 ^ 32
     | .bl32 _ disp _ => dst = (link + disp) % 2 ^ 32
     | .jr _ rs _ _ => dst = gRd c rs
     | _ => False) →
    completes i s (fun t => coreGoes h.ini dst (if (match i with | .bl32 _ _ _ => true | .jr _ _ l _ => l | _ => false) then gWr 14 link else id) u t)) ∧
  (∀ (h : IsaHead) (dt n : Nat) (c : Core) (s u : State), executes (.eret h dt) h n s u → c = coreOf u h.ini → c.imprecise = [] →
    completes (.eret h dt) s (fun t => coreGoes h.ini c.epc.toNat (fun d => { d with le := d.est.getLsbD 2, ie := d.est.getLsbD 1, priv := d.est.getLsbD 0 || decide (7 ≤ h.ini) }) u t)) ∧
  (∀ (h : IsaHead) (imm dt n : Nat) (s u : State), executes (.svc h imm dt) h n s u → (h.ini = 0 → (coreOf u h.ini).le = false) →
    completes (.svc h imm dt) s (fun t => coreTraps h.ini 7 (7 + 256 * (imm % 256)) (((coreOf u h.ini).pc.toNat + n) % 2 ^ 32) none u t)) ∧
  (∀ (h : IsaHead) (imm dt n : Nat) (s u : State), executes (.brk h imm dt) h n s u →
    completes (.brk h imm dt) s (fun t => if brkHalts u h.ini then t = coreMod h.ini (fun c => { c with halted := true, oneStep := false, boundary := true }) u
      else coreTraps h.ini 8 (8 + 256 * (imm % 256)) (coreOf u h.ini).pc.toNat none u t)) ∧
  (∀ (i : Instr) (h : IsaHead) (o : Op) (s u : State), fetched i h o s u → isaUndefined h o = true →
    completes i s (fun t => coreTraps h.ini 1 1 (coreOf u h.ini).pc.toNat none u t)) ∧
  (∀ (h : IsaHead) (dt : Nat) (o : Op) (s u : State), fetched (.udf h dt) h o s u → isaUndefined h o = true) ∧
  (∀ (i : Instr) (h : IsaHead) (o : Op) (s u : State), fetched i h o s u → isaUndefined h o = false → o.sys = true → (coreOf u h.ini).priv = false →
    completes i s (fun t => coreTraps h.ini 3 3 (coreOf u h.ini).pc.toNat none u t)) ∧
  (∀ (i : Instr) (h : IsaHead) (o : Op) (s u : State), fetched i h o s u → isaUndefined h o = false → (o.sys = true → (coreOf u h.ini).priv = true) → o.reserved = true →
    completes i s (fun t => ∃ x, x = coreMod h.ini (fun d => { d with emb0 := BitVec.ofNat 32 (ofLeBytes (o.enc.bytes.take 4)), emb1 := BitVec.ofNat 32 (ofLeBytes ((o.enc.bytes.take 8).drop 4)), emi := BitVec.ofNat 32 (4096 * (encLen h o.enc % 16) + 256 * min 8 o.enc.bytes.length + 64 * (o.enc.esc % 4) + pfxMask h) }) u ∧ coreTraps h.ini 2 2 (coreOf u h.ini).pc.toNat none x t)) ∧
  (∀ (i : Instr) (h : IsaHead) (o : Op) (s u : State), fetched i h o s u → isaUndefined h o = false → (o.sys = true → (coreOf u h.ini).priv = true) → o.reserved = false →
    condHolds (hasPfx h 0) h.cond (coreOf u h.ini) = false → plainFlow h.ini u → completes i s (fun t => coreNext h.ini (encLen h o.enc) id u t)) ∧
  (∀ (h : IsaHead) (esc dt : Nat) (bytes : List Nat) (o : Op) (s u : State), fetched (.reservedEncoding h esc bytes dt) h o s u → o.reserved = true ∧ o.sys = (esc == 3)) ∧
  (∀ (i : Instr) (h : IsaHead) (o : Op) (dt k : Nat) (s x : State), insOp i = some (h, o, dt) → isaRuns (s.pass dt) h.ini = true →
    isaFetch h (min 12 (encLen h o.enc)) (coreMod h.ini (fun c => { c with wfi := false }) (s.pass dt)) = .bad k x →
    completes i s (fun t => coreTraps h.ini 4 (4 + k % 16 * 65536) (coreOf x h.ini).pc.toNat (some (coreOf x h.ini).pc.toNat) x t)) ∧
  (∀ (h : IsaHead) (dt n npc : Nat) (j : Fin 3) (c : Core) (s u : State), executes (.nop h dt) h n s u → h.ini = 0 → c = coreOf u 0 → c.imprecise = [] → c.le = true → npc = (c.pc.toNat + n) % 2 ^ 32 →
    c.lc.get j ≠ 0#32 → (c.lend.get j).toNat = npc → (∀ k : Fin 3, k ≠ j → c.lc.get k = 0#32 ∨ (c.lend.get k).toNat ≠ npc) →
    completes (.nop h dt) s (fun t => coreGoes 0 (if c.lc.get j = 1#32 then npc else (c.ls.get j).toNat) (fun d => { d with lc := d.lc.set j (c.lc.get j - 1#32) j.isLt }) u t)) ∧
  (∀ (ini dt l : Nat) (s : State), ini ≠ 5 → ini ≠ 6 → interruptEntryOk ini (s.pass dt) = true → presented s ini = some l → (coreOf s ini).oneStep = false →
    completes (.interruptEntry ini dt) s (fun t => coreTraps ini (16 + l) (16 + l) (coreOf s ini).pc.toNat none (s.pass dt) t)) ∧
  (∀ (ini dt l : Nat) (s : State), ini = 5 ∨ ini = 6 → interruptEntryOk ini (s.pass dt) = true → presented s ini = some l → krnOn s (ini - 5) = false →
    completes (.interruptEntry ini dt) s (fun t => sigTraps (ini - 5) (16 + l) (16 + l) none (s.pass dt) t)) ∧
  (∀ (ini l : Nat) (s : State), presented s ini = some l → l < 128 ∧ s.on (Reg.INTC_LINE_EN ini l) = true ∧ s.on (Reg.INTC_LINE_PEND ini l) = true ∧
    ∀ k, k < 128 → s.on (Reg.INTC_LINE_EN ini k) = true → s.on (Reg.INTC_LINE_PEND ini k) = true → s.rd (Reg.INTC_LINE_PRIO ini k) < s.rd (Reg.INTC_LINE_PRIO ini l) ∨
      s.rd (Reg.INTC_LINE_PRIO ini k) = s.rd (Reg.INTC_LINE_PRIO ini l) ∧ l ≤ k) ∧
  (∀ (ini dt : Nat) (w : ImpErr) (rest : List ImpErr) (s : State), ini ≠ 5 → ini ≠ 6 → impreciseOk ini (s.pass dt) = true → (coreOf s ini).imprecise = w :: rest → (coreOf s ini).oneStep = false →
    completes (.impreciseBusError ini dt) s (fun t => coreTraps ini 5 (5 + w.kind % 16 * 65536 + 0x300000) (coreOf s ini).pc.toNat (some w.addr)
      (coreMod ini (fun c => { c with imprecise := rest }) (s.pass dt)) t)) ∧
  (∀ (ini dt : Nat) (w : ImpErr) (rest : List ImpErr) (s : State), ini = 5 ∨ ini = 6 → impreciseOk ini (s.pass dt) = true → (sigOf s (ini - 5)).imprecise = w :: rest →
    completes (.impreciseBusError ini dt) s (fun t => sigTraps (ini - 5) 5 (5 + w.kind % 16 * 65536 + 0x300000) (some w.addr) (sigMod (ini - 5) (fun x => { x with imprecise := rest }) (s.pass dt)) t))

/-- Bundles of the signal cores (R406 to R424) and kernel periods (R427, R428, R430): a bundle's results land together at its end, its access follows the addressing mode, its branches and its traps; a
kernel is suspended at its budget and goes on in the next period. -/
def Obligations.Bundles : Prop :=
  (∀ (c bad dt : Nat) (slots l : List Nat) (g : SRegs) (s u : State), bundleStarts c slots dt l g s u → bundleFree l g c u → g.xret = none → g.le = false → l.all (fun w => slKind w != 2) = true →
    (∀ w ∈ l, slRuns g w = true → slKind w = 3 → bOp w ∈ [5, 6, 7, 8, 9, 10, 11, 12, 13]) → (sigOf u c).imprecise = [] →
    (∀ w ∈ l, slRuns g w = true → slKind w = 3 → (bResult u c g ((g.pc.toNat + 4 * l.length) % 2 ^ 32) w).1 g = { (bResult u c g ((g.pc.toNat + 4 * l.length) % 2 ^ 32) w).1 g with le := false }) →
    completes (.bundle c slots bad dt) s (fun t => t = sigMod c (fun x => { x with boundary := true, regs := { ((l.filter (slRuns g)).foldl (fun r w => (if slKind w < 2 then mResult g w else (bResult u c g ((g.pc.toNat + 4 * l.length) % 2 ^ 32) w).1) r) g) with pc := BitVec.ofNat 32 (g.pc.toNat + 4 * l.length) } }) u)) ∧
  (∀ (c bad dt w a : Nat) (slots : List Nat) (g : SRegs) (r : BusRes) (s u x : State), bundleStarts c slots dt [w] g s u → bundleFree [w] g c u → g.xret = none → g.le = false → slKind w = 2 → slRuns g w = true →
    (sigOf u c).imprecise = [] → krnOn u c = false → lStore w = false → (lOp w = 2 → lMode w ≠ 0 → lV w % 16 ≠ lAb w) → a = lAddr g w → a % lSize w = 0 → busRead (lReq c bad g w) false u = (r, x) →
    completes (.bundle c slots bad dt) s (fun t => match r with
      | .done v => t = sigMod c (fun y => { y with boundary := true, regs := { (match lOp w with
          | 2 => aWr (lV w) v (if lMode w = 0 then g else aWr (lAb w) (lBase g w) g)
          | 4 => vWr (lV w) (v % 2 ^ 16 * 0x0001000100010001) (if lMode w = 0 then g else aWr (lAb w) (lBase g w) g)
          | 5 => vWr (lV w) (v % 2 ^ 32) (if lMode w = 0 then g else aWr (lAb w) (lBase g w) g)
          | _ => vWr (lV w) v (if lMode w = 0 then g else aWr (lAb w) (lBase g w) g)) with pc := BitVec.ofNat 32 (g.pc.toNat + 4) } }) x
      | .err k => sigTraps c 5 (5 + k % 16 * 65536) (some a) x t
      | .wait => (sigOf t c).regs = g)) ∧
  (∀ (c bad dt w a : Nat) (slots : List Nat) (g : SRegs) (s u : State), bundleStarts c slots dt [w] g s u → bundleFree [w] g c u → g.xret = none → g.le = false → slKind w = 2 → slRuns g w = true → lStore w = true →
    (sigOf u c).imprecise = [] → krnOn u c = false → memWf u.mem = true → a = lAddr g w → a % lSize w = 0 → 0x30040000 + 0x100000 * c ≤ a → a + lSize w ≤ 0x30080000 + 0x100000 * c → writeLands (lReq c bad g w) u = true →
    u.sig.length = 2 →
    completes (.bundle c slots bad dt) s (fun t => (sigOf t c).regs = { (if lMode w = 0 then g else aWr (lAb w) (lBase g w) g) with pc := BitVec.ofNat 32 (g.pc.toNat + 4) } ∧
      (∀ i, i < lSize w → (memRd t.mem (a + i)).toNat = lData g w / 256 ^ i % 256) ∧ (∀ b, b < a ∨ a + lSize w ≤ b → memRd t.mem b = memRd u.mem b))) ∧
  (∀ (c bad dt w a : Nat) (slots : List Nat) (g : SRegs) (s u : State), bundleStarts c slots dt [w] g s u → bundleFree [w] g c u → g.xret = none → slKind w = 2 → slRuns g w = true → krnOn u c = false → a = lAddr g w →
    a % lSize w ≠ 0 → completes (.bundle c slots bad dt) s (fun t => sigTraps c 6 (6 + (if lStore w then 2 ^ 21 else 0)) (some a) u t)) ∧
  (∀ (c bad dt w npc dst : Nat) (slots : List Nat) (g : SRegs) (s u : State), bundleStarts c slots dt [w] g s u → bundleFree [w] g c u → g.xret = none → slKind w = 3 → slRuns g w = true → krnOn u c = false →
    (sigOf u c).imprecise = [] → npc = (g.pc.toNat + 4) % 2 ^ 32 → (bOp w = 1 ∨ bOp w = 2) ∧ dst = (npc + 4 * (BitVec.signExtend 32 (BitVec.ofNat 16 w)).toNat) % 2 ^ 32 ∨ bOp w = 3 ∧ dst = aRd g (w % 16) ∧ dst % 4 = 0 →
    completes (.bundle c slots bad dt) s (fun t => t = sigMod c (fun x => { x with boundary := true, regs := { (if bOp w = 2 ∨ (bOp w = 3 ∧ bitOf w 4 = 1) then aWr 15 npc g else g) with pc := BitVec.ofNat 32 dst } }) u)) ∧
  (∀ (c bad dt : Nat) (slots l : List Nat) (g : SRegs) (s u : State), bundleStarts c slots dt l g s u → krnOn u c = false → g.xret = none →
    (slotsUndefined g l = true → completes (.bundle c slots bad dt) s (fun t => sigTraps c 1 1 none u t)) ∧
    (slotsUndefined g l = false → (∀ w ∈ l, slRuns g w = true → slReserved g w = false → loopUndefined g ((g.pc.toNat + 4 * l.length) % 2 ^ 32) w = false) →
      (g.priv = false → (∃ w ∈ l, slRuns g w = true ∧ slReserved g w = false ∧ slPrivileged w = true) → completes (.bundle c slots bad dt) s (fun t => sigTraps c 3 3 none u t)) ∧
      ((g.priv = true ∨ ∀ w ∈ l, slPrivileged w = false) → l.any (slReserved g) = true →
        completes (.bundle c slots bad dt) s (fun t => sigTraps c 2 2 none (sigRegs c (sigCapture l) u) t)))) ∧
  (∀ (dt : Nat) (r : KernelRun) (s : State), kernelPeriodOk (s.pass dt) = true → s.runner.run = some r → r.suspended = true → s.sig.length = 2 →
    completes (.kernelPeriod dt) s (fun t => t.runner.period = (s.pass dt).now / 2 ^ 20 ∧ t.runner.budget = kernelBudget (s.pass dt) ∧ (sigOf t 1).regs = r.away ∧
      t.runner.run.map (fun x => (x.k, x.suspended, x.used, x.periods)) = some (r.k, false, 0, r.periods + 1))) ∧
  (∀ (k : Bool) (dt : Nat) (r : KernelRun) (s : State), s.sig.length = 2 → kernelBudgetSuspendOk k (s.pass dt) = true → s.runner.run = some r →
    completes (.kernelBudgetSuspend k dt) s (fun t => t.runner.run.map (fun x => (x.k, x.suspended, x.away)) = some (r.k, true, (sigOf s 1).regs) ∧ (sigOf t 1).regs = r.away ∧
      changesOnly [] [.sig, .runner] (s.pass dt) t))

/-- The parity of the arrays (R437, R438, R441): the patrol's reads, what a detection records, and a row that comes back from the store. -/
def Obligations.ArrayParity : Prop :=
  (∀ (arr base rows n dt : Nat) (s : State), patrolOk arr (s.pass dt) = true → arraySpan arr = some (base, rows) → n = (look arr s.par.patrol).getD 0 → badIn s (base + n % max 1 rows * 128) 128 = none →
    completes (.patrolRead arr [] dt) s (fun t => t.par = { s.par with patrol := put arr (n + 1) s.par.patrol } ∧ changesOnly [] [.par] (s.pass dt) t)) ∧
  (∀ (arr base rows n a dt : Nat) (s : State), patrolOk arr (s.pass dt) = true → arraySpan arr = some (base, rows) → n = (look arr s.par.patrol).getD 0 → badIn s (base + n % max 1 rows * 128) 128 = none →
    a / 128 = (base + n % max 1 rows * 128) / 128 →
    completes (.patrolRead arr [a] dt) s (fun t => t.rd Reg.SYS_PATROLCNT = satAdd 32 (s.rd Reg.SYS_PATROLCNT) 1 ∧ t.rd Reg.SYS_PARLAST_ADDR = a ∧ t.rd Reg.SYS_PARLAST_INFO_VALID = 1 ∧
      t.rd Reg.SYS_PARLAST_INFO_PATROL = 1 ∧ t.rd Reg.SYS_PARLAST_INFO_INIT = 31 ∧ t.rd Reg.SYS_PARLAST_INFO_REFETCHED = 0 ∧
      t.rd (if arr < 24 then Reg.SYS_PARCNT_SRAM else Reg.SYS_PARCNT_TCM) = satAdd (if arr < 24 then Reg.SYS_PARCNT_SRAM else Reg.SYS_PARCNT_TCM).width (s.rd (if arr < 24 then Reg.SYS_PARCNT_SRAM else Reg.SYS_PARCNT_TCM)) 1 ∧
      (156 ∈ t.flight ∨ 156 ∈ s.flight ∨ ∃ e, s.par.ev156 = some e ∧ s.elapsed + dt < e + cycMs 1) ∧ memSame s t)) ∧
  (∀ (i k off dt : Nat) (r : Refetch) (l : List Nat) (s : State), s.flc.refetch[i]? = some r → r.done = some true → look r.row s.flc.sources = some (k, off) → l = ((pageData s (k / 64) (k % 64)).drop off).take 128 →
    l.length = 128 → memWf s.mem = true →
    completes (.rowRefetch i dt) s (fun t => (∀ j, j < 128 → (memRd t.mem (r.row * 128 + j)).toNat = l.getD j 0 % 256) ∧ (∀ a, a / 128 ≠ r.row → memRd t.mem a = memRd s.mem a) ∧
      t.rd Reg.SYS_REFETCHCNT = satAdd 32 (s.rd Reg.SYS_REFETCHCNT) 1 ∧ t.rd Reg.SYS_PARLAST_INFO_REFETCHED = 1 ∧ t.flc.refetch = s.flc.refetch.eraseIdx i ∧ (∀ a, a / 128 = r.row → a ∉ t.par.bad) ∧
      changesOnly [Reg.SYS_REFETCHCNT, Reg.SYS_PARLAST_INFO_REFETCHED] [.mem, .par, .flc] (s.pass dt) t))

/-- The DRAM controller (R446 to R458): the read that is served next and its data or its failed check, the write queue, the pages, the refresh and the trainings. -/
def Obligations.DramController : Prop :=
  (∀ (dt : Nat) (r : DramReq) (s : State), dramUp s = true → s.drc.reqs.isEmpty = false → reqChoose (reqLate (s.pass dt)) = some r → 0 < r.len → wqCovers s r.addr r.len = false →
    (∀ b ∈ dramSpan r.addr r.len, s.drc.badBlocks.contains b = false ∧ s.drc.wq.any (fun e => e.block == b) = false) →
    completes (.dramCommandIssue 0 dt) s (fun t => t.drc.rsps = s.drc.rsps ++ [DramRsp.mk r.src r.addr (some (memRdBytes s.mem r.addr r.len))] ∧ t.drc.reqs = (reqLate (s.pass dt)).drc.reqs.erase r ∧ t.drc.wq = s.drc.wq ∧
      memSame s t ∧ t.rd Reg.DRC_CHKCNT = s.rd Reg.DRC_CHKCNT)) ∧
  (∀ (dt : Nat) (r : DramReq) (s : State), dramUp s = true → s.drc.reqs.isEmpty = false → reqChoose (reqLate (s.pass dt)) = some r → wqCovers s r.addr r.len = true →
    completes (.dramCommandIssue 0 dt) s (fun t => t.drc.rsps = s.drc.rsps ++ [DramRsp.mk r.src r.addr (some ((List.range r.len).map (fun i => (wqByte s (r.addr + i)).getD 0)))] ∧
      t.rd Reg.DRC_FWDCNT = satAdd 32 (s.rd Reg.DRC_FWDCNT) 1 ∧ t.drc.pages = s.drc.pages ∧ memSame s t)) ∧
  (∀ (dt b : Nat) (r : DramReq) (s : State), dramUp s = true → s.drc.reqs.isEmpty = false → reqChoose (reqLate (s.pass dt)) = some r → dramSpan r.addr r.len = [b] → dramBlock r.addr = b →
    s.drc.wq.any (fun e => e.block == b) = false → b < 2 ^ 24 →
    completes (.dramCommandIssue 2 dt) s (fun t => t.drc.rsps = s.drc.rsps ++ [DramRsp.mk r.src r.addr none] ∧ t.rd Reg.DRC_CHKCNT = satAdd 32 (s.rd Reg.DRC_CHKCNT) 1 ∧ t.rd Reg.DRC_CHKADDR = 0x80000000 + b * 64 ∧
      t.rd Reg.DRC_CHKINFO_POISON = b2n (s.drc.poison.contains b) ∧ t.flight = s.flight ++ [157] ∧ memSame s t)) ∧
  (∀ (r : DramReq) (s : State), reqChoose s = some r → r ∈ s.drc.reqs ∧ s.drc.reqs.find? (fun x => x.src == r.src) = some r ∧
    ∀ x ∈ s.drc.reqs, s.drc.reqs.find? (fun y => y.src == x.src) = some x → reqUrgency s x ≤ reqUrgency s r ∧
      (reqUrgency s x = reqUrgency s r → reqHit s x = true → reqHit s r = true) ∧ (reqUrgency s x = reqUrgency s r → reqHit s x = reqHit s r → r.at_ ≤ x.at_)) ∧
  (∀ (i dt : Nat) (e : WqEntry) (s : State), drainOk i (s.pass dt) = true → s.drc.wq[i]? = some e → (e.bytes.map Prod.fst).Nodup → memWf s.mem = true → s.drc.wq.length ≤ 32 →
    completes (.writeQueueDrain i dt) s (fun t => (∀ p ∈ e.bytes, (memRd t.mem (0x80000000 + e.block * 64 + p.1)).toNat = p.2 % 256) ∧
      (∀ a, (∀ p ∈ e.bytes, a ≠ 0x80000000 + e.block * 64 + p.1) → memRd t.mem a = memRd s.mem a) ∧ t.drc.wq = s.drc.wq.filter (fun x => x.block != e.block) ∧ t.rd Reg.DRC_STAT_WQ = t.drc.wq.length ∧
      t.drc.draining = (s.drc.draining && decide (8 < t.drc.wq.length)) ∧
      (if e.bytes.length = 64 then e.block ∉ t.drc.badBlocks ∧ e.block ∉ t.drc.poison ∧ t.rd Reg.DRC_POISCNT = s.rd Reg.DRC_POISCNT
       else if s.drc.badBlocks.contains e.block then e.block ∈ t.drc.poison ∧ t.drc.badBlocks = s.drc.badBlocks ∧ t.rd Reg.DRC_POISCNT = satAdd 32 (s.rd Reg.DRC_POISCNT) 1
       else t.drc.badBlocks = s.drc.badBlocks ∧ t.drc.poison = s.drc.poison ∧ t.rd Reg.DRC_POISCNT = s.rd Reg.DRC_POISCNT) ∧
      changesOnly [Reg.DRC_STAT_WQ, Reg.DRC_POISCNT, Reg.DRC_PGHITCNT, Reg.DRC_PGMISSCNT] [.mem, .drc] (s.pass dt) t)) ∧
  (∀ (bank dt : Nat) (s : State), pageIdleOk bank (s.pass dt) = true → keysRise s.drc.pages = true →
    completes (.pageIdleClose bank dt) s (fun t => look bank t.drc.pages = none ∧ (∀ b, b ≠ bank → look b t.drc.pages = look b s.drc.pages) ∧ changesOnly [] [.drc] (s.pass dt) t)) ∧
  (∀ (bank dt : Nat) (s : State), refreshOk bank (s.pass dt) = true →
    completes (.dramRefresh bank dt) s (fun t => t.drc = { s.drc with refAt := put bank (s.elapsed + dt) s.drc.refAt } ∧ changesOnly [] [.drc] (s.pass dt) t)) ∧
  (∀ (temp dt : Nat) (s : State), temp ≤ 2 → dramUp s = true → s.drc.tempAt + cycMs 16 ≤ s.elapsed + dt →
    completes (.dramTempPoll temp dt) s (fun t => t.rd Reg.DRC_STAT_REFMUL = temp ∧ t.drc = { s.drc with tempAt := s.elapsed + dt } ∧
      t.flight = (if temp = s.rd Reg.DRC_STAT_REFMUL then s.flight else s.flight ++ [158]) ∧ changesOnly [Reg.DRC_STAT_REFMUL] [.drc, .flight] (s.pass dt) t)) ∧
  (∀ (drift : Bool) (dt : Nat) (s : State), dramUp s = true → s.on Reg.DRC_STAT_TRAINED = true → s.drc.dqsAt + cycMs 100 ≤ s.elapsed + dt →
    completes (.dqsMeasure drift dt) s (fun t => t.rd Reg.DRC_RETRAINCNT = (if drift then satAdd 32 (s.rd Reg.DRC_RETRAINCNT) 1 else s.rd Reg.DRC_RETRAINCNT) ∧ t.drc = { s.drc with dqsAt := s.elapsed + dt } ∧
      changesOnly [Reg.DRC_RETRAINCNT] [.drc] (s.pass dt) t)) ∧
  (∀ (dt : Nat) (s : State), retrainOk (s.pass dt) = true →
    completes (.fullRetrain dt) s (fun t => t.drc = { s.drc with trainTemp := toSigned 8 (s.rd Reg.AGE_TEMP_NOW) } ∧ t.rd Reg.DRC_RETRAINCNT = satAdd 32 (s.rd Reg.DRC_RETRAINCNT) 1 ∧ t.flight = s.flight ++ [158] ∧
      changesOnly [Reg.DRC_RETRAINCNT] [.drc, .flight] (s.pass dt) t))

/-- The application queue and the start of flash operations (R478, R480, R481, R483 to R485, R497): a descriptor is taken or completed with a status, and a plane starts, suspends and resumes what is
next for it. -/
def Obligations.FlashQueue : Prop :=
  (∀ (dt : Nat) (s : State), flcUp s = true → qWaits s = true → qRoom s = false →
    completes (.descriptorTake dt) s (fun t => t.rd Reg.FLC_QAPP_STAT_STALL = 1 ∧ t.flight = (if s.on Reg.FLC_QAPP_STAT_STALL then s.flight else s.flight ++ [164]) ∧
      changesOnly [Reg.FLC_QAPP_STAT_STALL, Reg.FLC_QAPP_STAT_IDLE] [.flight] (s.pass dt) t)) ∧
  (∀ (dt a idx : Nat) (b : List Nat) (s : State), flcUp s = true → qWaits s = true → qRoom s = true → idx = s.rd Reg.FLC_QAPP_HEAD_HEAD → a = s.rd Reg.FLC_QAPP_DBASE + 32 * (idx % qN s) → a < 0x80000000 →
    badIn s a 32 = none → b = memRdBytes s.mem a 32 → b.getD 7 0 = 0 → leAt b 12 4 = 0 → leAt b 24 8 = 0 → descCheck (s.pass dt) (descOf idx (s.elapsed + dt) b) false = none → b.getD 0 0 ≠ 5 →
    completes (.descriptorTake dt) s (fun t => t.rd Reg.FLC_QAPP_HEAD_HEAD = (idx + 1) % 65536 ∧ t.flc = { s.flc with taken := s.flc.taken ++ [descOf idx (s.elapsed + dt) b] } ∧
      changesOnly [Reg.FLC_QAPP_HEAD_HEAD, Reg.FLC_QAPP_STAT_STALL, Reg.FLC_QAPP_STAT_IDLE] [.flc, .flight] (s.pass dt) t)) ∧
  (∀ (dt a idx st i c : Nat) (b : List Nat) (s : State), flcUp s = true → qWaits s = true → qRoom s = true → idx = s.rd Reg.FLC_QAPP_HEAD_HEAD → a = s.rd Reg.FLC_QAPP_DBASE + 32 * (idx % qN s) → a < 0x80000000 →
    badIn s a 32 = none → b = memRdBytes s.mem a 32 → descCheck (s.pass dt) (descOf idx (s.elapsed + dt) b) (b.getD 7 0 != 0 || leAt b 12 4 != 0 || leAt b 24 8 != 0) = some st →
    i = s.rd Reg.FLC_QAPP_HEAD_CDONE → c = s.rd Reg.FLC_QAPP_CBASE + 16 * (i % qN s) → c < 0x80000000 → memWf s.mem = true → st < 256 →
    completes (.descriptorTake dt) s (fun t => t.rd Reg.FLC_QAPP_HEAD_HEAD = (idx + 1) % 65536 ∧ t.rd Reg.FLC_QAPP_HEAD_CDONE = (i + 1) % 65536 ∧ 160 ∈ t.flight ∧
      memRdBytes t.mem c 16 = (b.take 4).drop 2 ++ [st, 128 * bitOf i (s.rd Reg.FLC_QAPP_SIZE_LOG2N), idx % 256, idx / 256 % 256, 0, 0, 0, 0, 0, 0, 0, 0, 0, 0] ∧
      (∀ x, x < c ∨ c + 16 ≤ x → memRd t.mem x = memRd s.mem x))) ∧
  (∀ (op pl dt : Nat) (i : Instr) (d : FDesc) (s : State), (op, i) ∈ [(1, Instr.read pl dt), (2, .prog pl dt), (3, .erase pl dt), (4, .load pl dt)] → startOk op pl (s.pass dt) = true → descNext (s.pass dt) pl = some d →
    (2 ≤ op ∧ op ≤ 3 ∨ ∀ e, eraseOn s pl = some e → dBlk s e.d ≠ dBlk s d) →
    completes i s (fun t => t.flc = { s.flc with taken := s.flc.taken.erase d, run := put pl ⟨d, s.elapsed + dt, 0, none⟩ s.flc.run } ∧
      changesOnly [Reg.FLC_QAPP_STAT_STALL, Reg.FLC_QAPP_STAT_IDLE] [.flc, .flight] (s.pass dt) t)) ∧
  (∀ (op pl dt : Nat) (i : Instr) (d : FDesc) (e : FRun) (s : State), (op, i) ∈ [(1, Instr.read pl dt), (4, .load pl dt)] → startOk op pl (s.pass dt) = true → descNext (s.pass dt) pl = some d →
    eraseOn s pl = some e → dBlk s e.d = dBlk s d →
    completes i s (fun t => t.rd Reg.FLC_SUSPHITCNT = satAdd 32 (s.rd Reg.FLC_SUSPHITCNT) 1 ∧ t.flc = { s.flc with taken := s.flc.taken.erase d })) ∧
  (∀ (dt : Nat) (d : FDesc) (s : State), flcUp s = true → nopReady s = some d →
    completes (.flcNop dt) s (fun t => t.rd Reg.FLC_QAPP_HEAD_CDONE = (s.rd Reg.FLC_QAPP_HEAD_CDONE + 1) % 65536 ∧ t.flc = { s.flc with taken := s.flc.taken.erase d })) ∧
  (∀ (pl dt : Nat) (r : FRun) (s : State), pl < 2 → eraseSuspendOk pl (s.pass dt) = true → look pl s.flc.run = some r → keysRise s.flc.run = true →
    completes (.eraseSuspend pl dt) s (fun t => look pl t.flc.run = none ∧ look (pl + 2) t.flc.run = some { r with susps := r.susps + 1, susp := some (s.elapsed + dt) } ∧
      t.rd (if pl = 0 then Reg.FLC_STAT_SUSP0 else Reg.FLC_STAT_SUSP1) = 1 ∧ t.rd Reg.FLC_SUSPCNT = satAdd 32 (s.rd Reg.FLC_SUSPCNT) 1 ∧
      changesOnly [if pl = 0 then Reg.FLC_STAT_SUSP0 else Reg.FLC_STAT_SUSP1, Reg.FLC_SUSPCNT] [.flc] (s.pass dt) t)) ∧
  (∀ (pl dt : Nat) (r : FRun) (s : State), pl < 2 → eraseResumeOk pl (s.pass dt) = true → look (pl + 2) s.flc.run = some r → keysRise s.flc.run = true →
    completes (.eraseResume pl dt) s (fun t => look (pl + 2) t.flc.run = none ∧ look pl t.flc.run = some { r with susp := none } ∧
      t.rd (if pl = 0 then Reg.FLC_STAT_SUSP0 else Reg.FLC_STAT_SUSP1) = 0 ∧ changesOnly [if pl = 0 then Reg.FLC_STAT_SUSP0 else Reg.FLC_STAT_SUSP1] [.flc] (s.pass dt) t))

/-- The end of flash operations, the code loader, refresh and scrub (R485, R490 to R499, R502, R503): pages programmed, erased, read and loaded, the pointer, the counts and the record, and a block
moved to a spare. -/
def Obligations.FlashResults : Prop :=
  (∀ (pl p dt : Nat) (o : FlashOut) (r : FRun) (s : State), pl < 2 → look pl s.flc.run = some r → keysRise s.flc.run = true → r.d.op = 3 → r.d.q = 3 → o.failAt = none → p = physOf s (dBlk s r.d) →
    completes (.flashOperationEnd pl o dt) s (fun t => look pl t.flc.run = none ∧ (∀ k, k / 64 = p → look k t.flc.pages = none) ∧ (∀ k, k / 64 ≠ p → look k t.flc.pages = look k s.flc.pages) ∧
      look p t.flc.ptrs = some 0 ∧ look p t.flc.erases = some ((look p s.flc.erases).getD 0 + 1) ∧ t.rd Reg.FLC_QAPP_HEAD_CDONE = (s.rd Reg.FLC_QAPP_HEAD_CDONE + 1) % 65536)) ∧
  (∀ (pl p dt : Nat) (o : FlashOut) (r : FRun) (u : State) (ps : List (List Nat × List Nat)) (s : State), pl < 2 → look pl s.flc.run = some r → keysRise s.flc.run = true → r.d.op = 2 → r.d.q = 3 → o.failAt = none →
    r.d.buf + 4096 * r.d.npage ≤ 0x80000000 → r.d.meta_ = 0 → progFetch r.d (s.pass dt) = (some ps, u) → p = physOf s (dBlk s r.d) →
    completes (.flashOperationEnd pl o dt) s (fun t => look pl t.flc.run = none ∧ ps.length = r.d.npage ∧
      (∀ i, i < r.d.npage → (ps.getD i ([], [])).1 = memRdBytes s.mem (r.d.buf + 4096 * i) 4096 ∧ look (p * 64 + (r.d.page + i)) t.flc.pages = some ⟨(ps.getD i ([], [])).1, List.replicate 16 255⟩) ∧
      look p t.flc.ptrs = some (r.d.page + r.d.npage) ∧ t.rd Reg.FLC_QAPP_HEAD_CDONE = (s.rd Reg.FLC_QAPP_HEAD_CDONE + 1) % 65536)) ∧
  (∀ (pl l c dt : Nat) (o : FlashOut) (r : FRun) (s : State), pl < 2 → look pl s.flc.run = some r → r.d.op = 1 → r.d.q = 3 → r.d.npage = 1 → r.d.meta_ = 0 → l = dBlk s r.d → (o.reads.getD 0 PageOut.clean).unc = false →
    r.d.buf + 4096 ≤ 0x80000000 → xoIn s r.d.buf 4096 = false → (pageData s l r.d.page).length = 4096 → memWf s.mem = true → c = s.rd Reg.FLC_QAPP_CBASE + 16 * (s.rd Reg.FLC_QAPP_HEAD_CDONE % qN s) →
    c < 0x80000000 → c + 16 ≤ r.d.buf ∨ r.d.buf + 4096 ≤ c →
    completes (.flashOperationEnd pl o dt) s (fun t => (∀ i, i < 4096 → (memRd t.mem (r.d.buf + i)).toNat = (pageData s l r.d.page).getD i 0 % 256) ∧ (memRd t.mem (c + 2)).toNat = 0 ∧
      t.flc.pages = s.flc.pages ∧ t.rd Reg.FLC_QAPP_HEAD_CDONE = (s.rd Reg.FLC_QAPP_HEAD_CDONE + 1) % 65536)) ∧
  (∀ (pl l c dt : Nat) (o : FlashOut) (r : FRun) (s : State), pl < 2 → look pl s.flc.run = some r → r.d.op = 1 ∨ r.d.op = 4 → r.d.q = 3 → 0 < r.d.npage → l = dBlk s r.d → (pageAt s l r.d.page).isSome = true →
    (o.reads.getD 0 PageOut.clean).unc = true → memWf s.mem = true → c = s.rd Reg.FLC_QAPP_CBASE + 16 * (s.rd Reg.FLC_QAPP_HEAD_CDONE % qN s) → c < 0x80000000 →
    completes (.flashOperationEnd pl o dt) s (fun t => (memRd t.mem (c + 2)).toNat = 1 ∧ (memRd t.mem (c + 9)).toNat = 0 ∧ t.rd Reg.FLC_UNCCNT = satAdd 32 (s.rd Reg.FLC_UNCCNT) 1 ∧ 163 ∈ t.flight ∧
      (∀ x, x < c ∨ c + 16 ≤ x → memRd t.mem x = memRd s.mem x))) ∧
  (∀ (pl dt c : Nat) (o : FlashOut) (r : FRun) (s : State), pl < 2 → look pl s.flc.run = some r → r.d.op = 4 → r.d.q = 3 → r.d.npage = 1 → (o.reads.getD 0 PageOut.clean).unc = false → r.d.buf % 128 = 0 → r.d.buf + 4096 ≤ 0x80000000 →
    (pageData s (dBlk s r.d) r.d.page).length = 4096 → memWf s.mem = true → c = s.rd Reg.FLC_QAPP_CBASE + 16 * (s.rd Reg.FLC_QAPP_HEAD_CDONE % qN s) → c < 0x80000000 → c + 16 ≤ r.d.buf ∨ r.d.buf + 4096 ≤ c →
    completes (.flashOperationEnd pl o dt) s (fun t => (∀ i, i < 4096 → (memRd t.mem (r.d.buf + i)).toNat = (pageData s (dBlk s r.d) r.d.page).getD i 0 % 256) ∧
      (∀ j, j < 32 → r.d.buf / 128 + j ∈ t.par.backed ∧ (r.d.buf / 128 + j ∈ t.par.xo ↔ inXo s r.d.part r.d.lblk = true) ∧
        look (r.d.buf / 128 + j) t.flc.sources = some (dBlk s r.d * 64 + r.d.page, j * 128)))) ∧
  (∀ (i dt k off : Nat) (o : PageOut) (r : Refetch) (s : State), flcUp s = true → s.flc.refetch[i]? = some r → r.done = none → look r.row s.flc.sources = some (k, off) → eraseOn s (planeOf (physOf s (k / 64))) = none →
    completes (.codeLoaderRead i o dt) s (fun t => t.flc.refetch[i]? = some { r with done := some (!o.unc) } ∧ t.rd Reg.FLC_CORRCNT = satAdd 32 (s.rd Reg.FLC_CORRCNT) o.cws ∧
      t.rd Reg.FLC_UNCCNT = (if o.unc then satAdd 32 (s.rd Reg.FLC_UNCCNT) 1 else s.rd Reg.FLC_UNCCNT) ∧ t.flc.run = s.flc.run)) ∧
  (∀ (i dt k off : Nat) (o : PageOut) (r : Refetch) (e : FRun) (s : State), flcUp s = true → s.flc.refetch[i]? = some r → r.done = none → look r.row s.flc.sources = some (k, off) → eraseOn s (planeOf (physOf s (k / 64))) = some e →
    dBlk s e.d = k / 64 →
    completes (.codeLoaderRead i o dt) s (fun t => t.flc.refetch[i]? = some { r with done := some false } ∧ t.rd Reg.FLC_SUSPHITCNT = satAdd 32 (s.rd Reg.FLC_SUSPHITCNT) 1 ∧
      changesOnly [Reg.FLC_SUSPHITCNT] [.flc] (s.pass dt) t)) ∧
  (∀ (l dt old new : Nat) (s : State), flcUp s = true → l < 288 → s.flc.marks.contains l = true → spareFor s (planeOf old) = some new → old = physOf s l → old ∉ s.flc.pool → s.flc.pool.Nodup →
    completes (.blockRefresh l false dt) s (fun t => physOf t l = new ∧ (∀ page, page < 64 → pageAt t l page = pageAt s l page) ∧ nextPage t l = nextPage s l ∧ (∀ k, k / 64 = old → look k t.flc.pages = none) ∧
      old ∈ t.flc.pool ∧ new ∉ t.flc.pool ∧ t.flc.pool.length = s.flc.pool.length ∧ t.rd Reg.FLC_REFRESHCNT = satAdd 32 (s.rd Reg.FLC_REFRESHCNT) 1)) ∧
  (∀ (dt : Nat) (s : State), flcUp s = true → s.rd Reg.SYS_BOOT_PHASE = 8 → s.flc.scrubAt + cycS 604800 ≤ s.elapsed + dt → (∀ l ∈ s.flc.marks, 288 ≤ l) →
    completes (.autoScrub [] dt) s (fun t => t.flc = { s.flc with scrubAt := s.elapsed + dt } ∧ changesOnly [] [.flc] (s.pass dt) t))

/-- The cipher's engine, event delivery and the timers (R520, R522, R526, R527, R529, R553, R554, R558, R561, R562, R572, R574 to R577, R641): what a block, a key load, an event, a wrap, a match and
an edge do. -/
def Obligations.CipherEventsTimers : Prop :=
  (∀ (n dt : Nat) (b r : List Nat) (s : State), n < 4 → s.cph.engine = some ⟨n, b, true⟩ → (cphCtx s n).abortReq = false → s.rd (Reg.CPH_CFG_OP n) = 3 → (∀ m, m < 4 → (cphCtx s m).queue = []) →
    r = aesEncrypt (cphCtx s n).key.key b → r.length = 16 → (∀ x ∈ r, x < 256) →
    completes (.blockEnd 0 dt) s (fun t => (∀ i, i < 4 → t.rd (Reg.CPH_DOUT n i) = leAt r (4 * i) 4) ∧ t.rd (Reg.CPH_STAT_DONE n) = 1 ∧ t.rd (Reg.CPH_STAT_BUSY n) = 0 ∧ t.rd (Reg.CPH_STAT_ERR n) = 0 ∧
      t.rd (Reg.CPH_STAT_BLOCKS n) = (s.rd (Reg.CPH_STAT_BLOCKS n) + 1) % 2 ^ 16 ∧ t.rd (Reg.CPH_MSGCNT n) = satAdd 32 (s.rd (Reg.CPH_MSGCNT n)) 1 ∧ t.cph.engine = none ∧
      t.flight = s.flight ++ (if n = 2 then [168] else if n = 3 then [169] else []))) ∧
  (∀ (n dt : Nat) (b : List Nat) (s : State), n < 4 → s.cph.engine = some ⟨n, b, true⟩ → (cphCtx s n).abortReq = false → s.rd (Reg.CPH_CFG_OP n) = 1 ∨ s.rd (Reg.CPH_CFG_OP n) = 2 → (∀ m, m < 4 → (cphCtx s m).queue = []) →
    s.rd (Reg.CPH_STAT_BLOCKS n) + 1 < cdiv (s.rd (Reg.CPH_LEN_LEN n)) 16 →
    completes (.blockEnd 0 dt) s (fun t => (cphCtx t n).chain = aesEncrypt (cphCtx s n).key.key (xorB (cphCtx s n).chain b) ∧ t.rd (Reg.CPH_STAT_BLOCKS n) = (s.rd (Reg.CPH_STAT_BLOCKS n) + 1) % 2 ^ 16 ∧ t.cph.engine = none ∧
      changesOnly [Reg.CPH_STAT_BLOCKS n] [.cph] (s.pass dt) t)) ∧
  (∀ (n e fault dt : Nat) (b : List Nat) (s : State), n < 4 → s.cph.engine = some ⟨n, b, true⟩ → (∀ m, m < 4 → (cphCtx s m).queue = []) → fault = 1 ∧ e = 4 ∨ fault = 0 ∧ (cphCtx s n).abortReq = true ∧ e = 6 →
    completes (.blockEnd fault dt) s (fun t => t.rd (Reg.CPH_STAT_ERR n) = e ∧ t.rd (Reg.CPH_STAT_DONE n) = 1 ∧ t.rd (Reg.CPH_STAT_BUSY n) = 0 ∧ t.rd (Reg.CPH_STAT_MATCH n) = 0 ∧ (∀ i, i < 4 → t.rd (Reg.CPH_DOUT n i) = 0) ∧
      t.rd Reg.CPH_PARCNT = (if fault = 1 then satAdd 32 (s.rd Reg.CPH_PARCNT) 1 else s.rd Reg.CPH_PARCNT) ∧ t.rd (Reg.CPH_MSGCNT n) = s.rd (Reg.CPH_MSGCNT n) ∧
      t.flight = s.flight ++ (if fault = 1 then [170] else []) ++ (if n = 2 then [168] else if n = 3 then [169] else []))) ∧
  (∀ (dt : Nat) (l : CphLoad) (s : State), s.cph.load = some l → l.ctx < 4 → l.slot < 8 → (cphCtx s l.ctx).startWait = false →
    completes (.keyLoadDone dt) s (fun t => t.cph.load = none ∧ look (cphSlot l.ctx l.slot) t.cph.slots = some l.key ∧ t.rd (Reg.CPH_KSTAT_KBUSY l.ctx) = 0 ∧ bitOf (t.rd (Reg.CPH_KSTAT_VALID l.ctx)) l.slot = 1 ∧
      bitOf (t.rd (Reg.CPH_KSTAT_K256 l.ctx)) l.slot = b2n (decide (l.key.key.length = 32)) ∧
      changesOnly [Reg.CPH_KSTAT_KBUSY l.ctx, Reg.CPH_KSTAT_VALID l.ctx, Reg.CPH_KSTAT_K256 l.ctx] [.cph] (s.pass dt) t)) ∧
  (∀ (src dt : Nat) (s : State), s.flight.contains src = true → s.pwr.stop ≠ .stopped → s.pwr.fabDead = false → domOn s 11 = true → 0 < src → (∀ ch, ch < 64 → s.rd (Reg.EVT_CH_CFG_SRC ch) ≠ src) →
    (∀ g, g < 8 → s.rd (Reg.EVT_GRP_ENSRC g) ≠ src ∧ s.rd (Reg.EVT_GRP_DISSRC g) ≠ src) → (∀ p ∈ srcLines src s, domOn s (iniDomain p.1) = true) →
    completes (.eventDelivery [src] dt) s (fun t => t.flight = s.flight.erase src ∧ changesOnly ((srcLines src s).flatMap (fun p => [Reg.INTC_LINE_PEND p.1 p.2, Reg.INTC_LINE_OVR p.1 p.2])) [.flight] (s.pass dt) t ∧
      ∀ c l, l < 128 → t.rd (Reg.INTC_LINE_PEND c l) = if (c, l) ∈ srcLines src s then 1 else s.rd (Reg.INTC_LINE_PEND c l))) ∧
  (∀ (src dt ch : Nat) (s : State), s.flight.contains src = true → s.pwr.stop ≠ .stopped → s.pwr.fabDead = false → domOn s 11 = true → 64 ≤ src → ch < 64 → s.rd (Reg.EVT_CH_CFG_SRC ch) = src →
    (∀ c, c < 64 → c ≠ ch → s.rd (Reg.EVT_CH_CFG_SRC c) ≠ src) → (∀ g, g < 8 → s.rd (Reg.EVT_GRP_ENSRC g) ≠ src ∧ s.rd (Reg.EVT_GRP_DISSRC g) ≠ src) → srcLines src s = [] →
    s.on (Reg.EVT_CH_CFG_GEN ch) = true → grpSees (s.pass dt) (s.rd (Reg.EVT_CH_CFG_GRP ch)) = false → (s.evt.cycle ≠ s.elapsed + dt ∨ ch ∉ s.evt.fired) →
    completes (.eventDelivery [src] dt) s (fun t => t.rd Reg.EVT_GDROPCNT = satAdd 32 (s.rd Reg.EVT_GDROPCNT) 1 ∧ t.rd Reg.EVT_MERGECNT = s.rd Reg.EVT_MERGECNT ∧ ch ∈ t.evt.fired)) ∧
  (∀ (src dt : Nat) (s : State), s.flight.contains src = true → s.pwr.stop ≠ .stopped → s.pwr.fabDead = false → domOn s 11 = false → srcHeld src s = false →
    completes (.eventDelivery [src] dt) s (fun t => t.flight = s.flight.erase src ∧ changesOnly [] [.flight] (s.pass dt) t)) ∧
  (∀ (src dt : Nat) (s : State), s.flight.contains src = true → s.pwr.stop ≠ .stopped → s.pwr.fabDead = false → s.rd (Reg.PWR_DOM_STATE 11) = 2 → srcHeld src s = true →
    completes (.eventDelivery [src] dt) s (fun t => src ∈ t.flight ∧ t.rd (Reg.PWR_DOM_STATE 11) = 3)) ∧
  (∀ (t dt : Nat) (s : State), timerWrapOk t (s.pass dt) = true → s.tmrs.length = 8 → s.on (Reg.TMR_CTL_APPLY t) = false →
    completes (.timerWrap t dt) s (fun u => u.rd (Reg.TMR_STAT_UPF t) = 1 ∧ u.flight = s.flight ++ [171 + 2 * t] ∧ (tmrOf u t).cnt0 = 0 ∧ (tmrOf u t).seen = [] ∧
      changesOnly [Reg.TMR_STAT_UPF t] [.tmrs, .flight] (s.pass dt) u)) ∧
  (∀ (t dt : Nat) (s : State), timerWrapOk t (s.pass dt) = true → s.on (Reg.TMR_CTL_APPLY t) = true →
    completes (.timerWrap t dt) s (fun u => u.rd (Reg.TMR_STAT_UPF t) = 1 ∧ u.rd (Reg.TMR_CTL_APPLY t) = 0 ∧ (if tmrRefused t s then u.rd (Reg.TMR_STAT_CFGERR t) = 1 ∧ u.com = s.com
      else ∀ f ∈ tmrSFields t, u.rdC f = s.rd f % 2 ^ f.width))) ∧
  (∀ (t c dt : Nat) (s : State), compareMatchOk t c (s.pass dt) = true → s.tmrs.length = 8 → (tmrOf s t).chs.length = 4 →
    completes (.compareMatch t c dt) s (fun u => bitOf (u.rd (Reg.TMR_STAT_CCF t)) c = 1 ∧ u.flight = s.flight ++ [172 + 2 * t] ∧ c ∈ (tmrOf u t).seen ∧
      (tmrCh u t c).out = (match s.rd (Reg.TMR_CC_CTL_OUTACT t c) with | 1 => true | 2 => false | 3 => !(tmrCh s t c).out | _ => (tmrCh s t c).out) ∧
      changesOnly [Reg.TMR_STAT_CCF t] [.tmrs, .flight] (s.pass dt) u)) ∧
  (∀ (t c dt : Nat) (s : State), pwmDutyReachedOk t c (s.pass dt) = true → s.tmrs.length = 8 →
    completes (.pwmDutyReached t c dt) s (fun u => bitOf (u.rd (Reg.TMR_STAT_CCF t)) c = 1 ∧ u.flight = s.flight ++ [172 + 2 * t] ∧ c ∈ (tmrOf u t).seen ∧ changesOnly [Reg.TMR_STAT_CCF t] [.tmrs, .flight] (s.pass dt) u)) ∧
  (∀ (t c dt : Nat) (r : Bool) (s : State), timerCaptureOk t c r (s.pass dt) = true → s.tmrs.length = 8 → (tmrOf s t).chs.length = 4 →
    completes (.timerCapture t c r dt) s (fun u => if s.rd (Reg.TMR_CC_CTL_EPSC t c) ≤ (tmrCh s t c).edges then
        u.rd (Reg.TMR_CC_CAP t c) = tmrCnt (s.pass dt) t % 2 ^ 32 ∧ bitOf (u.rd (Reg.TMR_STAT_CAPF t)) c = 1 ∧ bitOf (u.rd (Reg.TMR_STAT_CCF t)) c = 1 ∧ u.flight = s.flight ++ [172 + 2 * t] ∧ (tmrCh u t c).edges = 0 ∧
          (bitOf (s.rd (Reg.TMR_STAT_CAPF t)) c = 1 → bitOf (u.rd (Reg.TMR_STAT_OVR t)) c = 1) ∧ changesOnly [Reg.TMR_CC_CAP t c, Reg.TMR_STAT_CAPF t, Reg.TMR_STAT_CCF t, Reg.TMR_STAT_OVR t] [.tmrs, .flight] (s.pass dt) u
      else (tmrCh u t c).edges = (tmrCh s t c).edges + 1 ∧ changesOnly [] [.tmrs] (s.pass dt) u))

/-- The real-time clock's own events (R586, R587, R589 to R593): a second, midnight and the leap years, the alarm, a set that is made or refused, the periodic wake, and the loss and return of the
crystal. -/
def Obligations.ClockCalendar : Prop :=
  (∀ (y m d h mi sec dt : Nat) (s : State), secondAdvanceOk (s.pass dt) = true → y = s.rd Reg.RTC_DATE_YEAR → m = s.rd Reg.RTC_DATE_MONTH → d = s.rd Reg.RTC_DATE_DAY → h = s.rd Reg.RTC_TIME_HOUR → mi = s.rd Reg.RTC_TIME_MIN →
    sec = s.rd Reg.RTC_TIME_SEC → y ≤ 399 → 1 ≤ m → m ≤ 12 → 1 ≤ d → d ≤ rtcMonthDays y m → h < 24 → mi < 60 → sec < 60 → ¬ (y = 399 ∧ m = 12 ∧ d = 31 ∧ h = 23 ∧ mi = 59 ∧ sec = 59) →
    completes (.secondAdvance dt) s (fun t => rtcNow t = rtcNow s + 1 ∧ t.rtc.ssec0 = 0 ∧
      (sec < 59 ∨ mi < 59 ∨ h < 23 → t.rd Reg.RTC_DATE_WDAY = s.rd Reg.RTC_DATE_WDAY ∧ t.rd Reg.RTC_DATE_DAY = d ∧ t.rd Reg.RTC_DATE_MONTH = m ∧ t.rd Reg.RTC_DATE_YEAR = y) ∧
      (sec = 59 → mi = 59 → h = 23 → t.rd Reg.RTC_DATE_WDAY = (s.rd Reg.RTC_DATE_WDAY + 1) % 7 ∧ t.rd Reg.RTC_TIME_HOUR = 0 ∧ t.rd Reg.RTC_TIME_MIN = 0 ∧ t.rd Reg.RTC_TIME_SEC = 0) ∧
      (if s.on Reg.RTC_CTL_ALEN && alNow t then t.rd Reg.RTC_STAT_ALF = 1 ∧ t.flight = s.flight ++ [153] else t.rd Reg.RTC_STAT_ALF = s.rd Reg.RTC_STAT_ALF ∧ t.flight = s.flight) ∧
      changesOnly [Reg.RTC_DATE_YEAR, Reg.RTC_DATE_MONTH, Reg.RTC_DATE_DAY, Reg.RTC_DATE_WDAY, Reg.RTC_TIME_HOUR, Reg.RTC_TIME_MIN, Reg.RTC_TIME_SEC, Reg.RTC_STAT_ALF] [.rtc, .flight] (s.pass dt) t)) ∧
  (∀ (dt : Nat) (s : State), secondAdvanceOk (s.pass dt) = true → s.rd Reg.RTC_DATE_YEAR = 399 → s.rd Reg.RTC_DATE_MONTH = 12 → s.rd Reg.RTC_DATE_DAY = 31 → s.rd Reg.RTC_TIME_HOUR = 23 → s.rd Reg.RTC_TIME_MIN = 59 →
    s.rd Reg.RTC_TIME_SEC = 59 → completes (.secondAdvance dt) s (fun t => rtcNow t = 0 ∧ t.rd Reg.RTC_STAT_YWRAP = 1)) ∧
  (∀ (y : Nat), rtcLeap y = true ↔ (y + 2000) % 4 = 0 ∧ ((y + 2000) % 100 ≠ 0 ∨ (y + 2000) % 400 = 0)) ∧
  (∀ (dt : Nat) (s : State), rtcSetCommitOk (s.pass dt) = true → rtcBadDate s = false → s.on Reg.RTC_CTL_ALEN = false → s.rd Reg.RTC_SETDATE_WDAY < 8 →
    completes (.rtcSetCommit dt) s (fun t => t.rd Reg.RTC_CTL_APPLY = 0 ∧ t.rd Reg.RTC_DATE_YEAR = s.rd Reg.RTC_SETDATE_YEAR ∧ t.rd Reg.RTC_DATE_MONTH = s.rd Reg.RTC_SETDATE_MONTH ∧ t.rd Reg.RTC_DATE_DAY = s.rd Reg.RTC_SETDATE_DAY ∧
      t.rd Reg.RTC_DATE_WDAY = s.rd Reg.RTC_SETDATE_WDAY ∧ t.rd Reg.RTC_TIME_HOUR = s.rd Reg.RTC_SETTIME_HOUR ∧ t.rd Reg.RTC_TIME_MIN = s.rd Reg.RTC_SETTIME_MIN ∧ t.rd Reg.RTC_TIME_SEC = s.rd Reg.RTC_SETTIME_SEC ∧
      t.rtc = { s.rtc with applyAt := none, t0 := s.elapsed + dt, ssec0 := s.rd Reg.RTC_SETSSEC_SSEC } ∧ t.flight = s.flight ++ [155] ∧ t.rd Reg.RTC_STAT_CFGERR = s.rd Reg.RTC_STAT_CFGERR ∧
      t.firn.rtcSetAt = some (s.elapsed + dt))) ∧
  (∀ (dt : Nat) (s : State), rtcSetCommitOk (s.pass dt) = true → rtcBadDate s = true →
    completes (.rtcSetCommit dt) s (fun t => t.rd Reg.RTC_CTL_APPLY = 0 ∧ t.rd Reg.RTC_STAT_BADDATE = 1 ∧ t.rd Reg.RTC_STAT_CFGERR = 1 ∧ t.flight = s.flight ++ [155] ∧
      changesOnly [Reg.RTC_CTL_APPLY, Reg.RTC_STAT_CFGERR, Reg.RTC_STAT_BADDATE] [.rtc, .flight] (s.pass dt) t)) ∧
  (∀ (dt : Nat) (s : State), periodicWakeOk (s.pass dt) = true →
    completes (.periodicWake dt) s (fun t => t.rd Reg.RTC_STAT_WAKEF = 1 ∧ t.flight = s.flight ++ [154] ∧ t.rtc = { s.rtc with wakeT0 := s.rtc.wakeT0 + s.rd Reg.RTC_WAKE_PERIOD * 300000 } ∧
      changesOnly [Reg.RTC_STAT_WAKEF] [.rtc, .flight] (s.pass dt) t)) ∧
  (∀ (dt : Nat) (s : State), s.rtc.xtalGone = false →
    completes (.xtalFail dt) s (fun t => t.rd Reg.RTC_STAT_XTALFAIL = 1 ∧ t.rd Reg.RTC_STAT_RUNRC = 1 ∧ t.flight = s.flight ++ [155] ∧ t.rtc.xtalGone = true ∧ rtcSsecRaw t = rtcSsecRaw (s.pass dt) ∧
      changesOnly [Reg.RTC_STAT_XTALFAIL, Reg.RTC_STAT_RUNRC] [.rtc, .flight] (s.pass dt) t)) ∧
  (∀ (dt : Nat) (s : State), s.rtc.xtalGone = true →
    completes (.xtalReturn dt) s (fun t => t.rd Reg.RTC_STAT_RUNRC = 0 ∧ t.rtc.xtalGone = false ∧ rtcSsecRaw t = rtcSsecRaw (s.pass dt) ∧ changesOnly [Reg.RTC_STAT_RUNRC] [.rtc] (s.pass dt) t))

/-- Serial frames (R605 to R616, R618, R623): a master frame's end, a slave frame's start and end, and what the host's READ and WRITE frames do. -/
def Obligations.SerialFrames : Prop :=
  (∀ (n w dt : Nat) (data : List Nat) (r : SpxRun) (s : State), n < 2 → s.spx.length = 2 → masterEndOk n (s.pass dt) = true → (spxOf (spxAdvance n (s.pass dt)) n).run = some r → w = wsize s n →
    completes (.masterFrameEnd n data dt) s (fun t => (spxOf t n).run = none ∧ t.rd (Reg.SPX_STAT_ACTIVE n) = 0 ∧ t.rd (Reg.SPX_STAT_FRMEND n) = 1 ∧ (s.on (Reg.SPX_CTL_APPLY n) = true → t.rd (Reg.SPX_CTL_APPLY n) = 0) ∧
      (spxOf t n).rx = (if r.rxBits = 0 then (spxOf s n).rx else (spxOf s n).rx ++ [⟨(List.range (cdiv r.rxBits w)).map (fun i => (w, data.getD i 0 % 2 ^ w)), r.rxBits, false⟩]))) ∧
  (∀ (dt : Nat) (s : State), s.spx.length = 2 → spxRole s 0 < 2 → s.on (Reg.SPX_CTL_EN 0) = true → (spxOf s 0).slave = false →
    completes (.slaveFrameStart dt) s (fun t => spxOf t 0 = { spxOf s 0 with slave := true } ∧ t.rd (Reg.SPX_STAT_ACTIVE 0) = 1 ∧ changesOnly [Reg.SPX_STAT_ACTIVE 0] [.spx] (s.pass dt) t)) ∧
  (∀ (nbits sent w dt : Nat) (bytes : List Nat) (s : State), s.spx.length = 2 → (spxOf s 0).slave = true → bootPhase s ≠ 0xE → spxRole s 0 ≠ 0 → w = wsize s 0 → nbits % w = 0 → w ≤ nbits → nbits ≤ s.rdC (Reg.SPX_PDAT_LEN 0) + 1 →
    spxRoom s 0 (nbits / 8) = true →
    completes (.slaveFrameEnd nbits bytes sent dt) s (fun t => (spxOf t 0).slave = false ∧ t.rd (Reg.SPX_STAT_ACTIVE 0) = 0 ∧ t.rd (Reg.SPX_STAT_FRMEND 0) = 1 ∧
      (spxOf t 0).rx = (spxOf s 0).rx ++ [⟨(List.range (nbits / w)).map (fun i => (w, rxWord (s.on (Reg.SPX_CFG_LSBF 0)) w i bytes)), nbits, false⟩] ∧
      (spxOf t 0).tx = (spxOf s 0).tx.drop (min sent (min (nbits / w) (spxOf s 0).tx.length)))) ∧
  (∀ (nbits sent w dt : Nat) (bytes : List Nat) (s : State), s.spx.length = 2 → (spxOf s 0).slave = true → bootPhase s ≠ 0xE → spxRole s 0 ≠ 0 → w = wsize s 0 → nbits < w →
    nbits ≤ s.rdC (Reg.SPX_PDAT_LEN 0) + 1 →
    completes (.slaveFrameEnd nbits bytes sent dt) s (fun t => (spxOf t 0).rx = (spxOf s 0).rx ∧ t.rd (Reg.SPX_ERR_FRAG 0) = satAdd (Reg.SPX_ERR_FRAG 0).width (s.rd (Reg.SPX_ERR_FRAG 0)) 1 ∧ 117 ∈ t.flight)) ∧
  (∀ (nbits sent dt : Nat) (bytes : List Nat) (s : State), s.spx.length = 2 → (spxOf s 0).slave = true → 3 ≤ bootPhase s → bootPhase s ≠ 0xE → spxRole s 0 = 0 → nbits < 32 →
    completes (.slaveFrameEnd nbits bytes sent dt) s (fun t => t.rd Reg.HW_STAT_FRAG = 1 ∧ t.rd (Reg.SPX_ERR_FRAG 0) = satAdd (Reg.SPX_ERR_FRAG 0).width (s.rd (Reg.SPX_ERR_FRAG 0)) 1 ∧ 117 ∈ t.flight ∧ memSame s t)) ∧
  (∀ (nbits sent dt : Nat) (bytes : List Nat) (s : State), s.spx.length = 2 → (spxOf s 0).slave = true → 3 ≤ bootPhase s → bootPhase s ≠ 0xE → spxRole s 0 = 0 → 32 ≤ nbits →
    2 ≤ bitsOf (bytes.getD 0 0) 7 6 ∨ bytes.getD 0 0 % 8 ≠ 0 →
    completes (.slaveFrameEnd nbits bytes sent dt) s (fun t => t.rd Reg.HW_STAT_BADCMD = 1 ∧ t.rd (Reg.SPX_ERR_BADCMD 0) = satAdd (Reg.SPX_ERR_BADCMD 0).width (s.rd (Reg.SPX_ERR_BADCMD 0)) 1 ∧ memSame s t)) ∧
  (∀ (sent b0 b1 b2 b3 inc dt : Nat) (s : State), s.spx.length = 2 → (spxOf s 0).slave = true → 3 ≤ bootPhase s → bootPhase s ≠ 0xE → spxRole s 0 = 0 → s.on (Reg.SPX_CFG_LSBF 0) = false → inc ≤ 1 →
    b0 < 256 → b1 < 256 → b2 < 256 → b3 < 256 →
    completes (.slaveFrameEnd 48 [0x40 + 8 * inc, 3, b0, b1, b2, b3] sent dt) s (fun t => t.rd Reg.HW_APBASE_BASE = (b0 * 2 ^ 24 + b1 * 2 ^ 16 + b2 * 2 ^ 8 + b3) / 512 ∧ memSame s t)) ∧
  (∀ (sent idx b0 b1 b2 b3 a v dt : Nat) (s : State), s.spx.length = 2 → (spxOf s 0).slave = true → 3 ≤ bootPhase s → bootPhase s ≠ 0xE → spxRole s 0 = 0 → s.on (Reg.SPX_CFG_LSBF 0) = false →
    0x80 ≤ idx → idx ≤ 0xFF → a = s.rd Reg.HW_APBASE_BASE * 512 + 4 * (idx - 0x80) → 0x10000000 ≤ a → a + 4 ≤ 0x10600000 → memWf s.mem = true → writeLands (hostReq a v) (s.pass dt) = true →
    b0 < 256 → b1 < 256 → b2 < 256 → b3 < 256 → v = b0 * 2 ^ 24 + b1 * 2 ^ 16 + b2 * 2 ^ 8 + b3 →
    completes (.slaveFrameEnd 48 [0x40, idx, b0, b1, b2, b3] sent dt) s (fun t => (∀ i, i < 4 → (memRd t.mem (a + i)).toNat = v / 256 ^ i % 256) ∧ (∀ x, x < a ∨ a + 4 ≤ x → memRd t.mem x = memRd s.mem x))) ∧
  (∀ (cmd idx k a dt : Nat) (r : BusRes) (s u : State), hostReadOk cmd (s.pass dt) = true → hostAddr s (hostIndex cmd idx k) = some a → busRead (hostReq a 0) false (s.pass dt) = (r, u) →
    completes (.hostRead cmd idx k dt) s (fun t => match r with
      | .done v => t = { u with rdata := put 21 v u.rdata }
      | .err _ => readGave 21 t = some 0 ∧ t.rd Reg.HW_STAT_BERR = 1 ∧ t.rd Reg.HW_BERRADDR = a % 2 ^ 32
      | .wait => t = u)) ∧
  (∀ (cmd idx k dt : Nat) (s : State), hostReadOk cmd (s.pass dt) = true → 0xFF < hostIndex cmd idx k →
    completes (.hostRead cmd idx k dt) s (fun t => readGave 21 t = some 0 ∧ t.rd (Reg.SPX_STAT_WINOVR 0) = 1)) ∧
  (∀ (cmd k dt : Nat) (s : State), hostReadOk cmd (s.pass dt) = true → bitOf cmd 3 = 0 →
    completes (.hostRead cmd 9 k dt) s (fun t => readGave 21 t = some (s.rd Reg.HW_BERRADDR) ∧ changesOnly [] [.rdata] (s.pass dt) t) ∧
    completes (.hostRead cmd 2 k dt) s (fun t => readGave 21 t = some (16 * s.rd Reg.HW_STAT_BADCMD + 8 * s.rd Reg.HW_STAT_BERR + 4 * s.rd Reg.HW_STAT_FRAG + 2 * s.rd (Reg.SPX_STAT_OVERLEN 0) + s.rd (Reg.SPX_STAT_WINOVR 0)) ∧
      changesOnly [] [.rdata] (s.pass dt) t))

/-- Power domains (R630 to R640, R652, R653): the blocks' answer to an entry, its refusal, delay and abandonment, the losses of Off, thaw stalls and a domain that is ready. -/
def Obligations.PowerDomains : Prop :=
  (∀ (n dt : Nat) (i : Instr) (h : Hs) (s : State), i = .entryHandshake n dt ∧ entryHandshakeOk n (s.pass dt) = true ∨ i = .handshakeRetry n dt ∧ handshakeRetryOk n (s.pass dt) = true → hsOf s n = some h → 1 ≤ n → n ≤ 14 →
    s.pwr.later.contains n = false →
    (s.pwr.stop = .none → domAnswer s n h.target = .ack → h.target = 1 ∨ h.target = 2 →
      completes i s (fun t => t.rd (Reg.PWR_DOM_STATE n) = h.target ∧ t.rd (Reg.PWR_DOM_HELD n) = 0 ∧ t.rd Reg.PWR_STAT_CHANGED = 1 ∧ 103 ∈ t.flight ∧ hsOf t n = none ∧
        (h.target = 2 → n = 14 → t.tmrs = List.replicate 8 Tmr.reset ∧ t.spx = [Spx.reset, Spx.reset] ∧ t.lmp = Lmp.reset) ∧
        (h.target = 2 → n = 4 → ∀ a, 0x30000000 ≤ a → a < 0x30180000 → memRd t.mem a = memRd [] a) ∧
        (h.target = 2 → n = 12 → t.flc = { s.flc with ptrs := ptrSearch s.flc.pages, taken := [], run := [], refetch := [] }) ∧
        (h.target = 1 → n ≠ 1 → n ≠ 13 → n ≠ 11 → t.mem = s.mem ∧ t.tmrs = s.tmrs ∧ t.spx = s.spx ∧ t.flc = s.flc ∧ t.mboxes = s.mboxes))) ∧
    (∀ (r k : Nat), s.pwr.stop = .none → domAnswer s n h.target = .refuse r ∨ domAnswer s n h.target = .delay r ∧ s.rd (Reg.PWR_DOM_DLYLIM n) = 0 → k = s.rd Reg.PWR_LOGIDX_NEXT → k < 16 → r < 256 →
      completes i s (fun t => t.rd (Reg.PWR_DOM_STATE n) = s.rd (Reg.PWR_DOM_STATE n) ∧ t.rd (Reg.PWR_DOM_HELD n) = 1 ∧ t.rd Reg.PWR_REFCNT = satAdd 32 (s.rd Reg.PWR_REFCNT) 1 ∧ t.rd (Reg.PWR_LOG_VALID k) = 1 ∧
        t.rd (Reg.PWR_LOG_DOMAIN k) = n ∧ t.rd (Reg.PWR_LOG_REASON k) = r ∧ t.rd Reg.PWR_LOGIDX_NEXT = (k + 1) % 16 ∧ t.rd Reg.PWR_STAT_REFUSED = 1 ∧ t.flight = s.flight ++ [102] ∧ hsOf t n = none)) ∧
    (∀ (r : Nat), domAnswer s n h.target = .delay r → s.rd (Reg.PWR_DOM_DLYLIM n) ≠ 0 →
      completes i s (fun t => hsOf t n = some { h with asked := some (s.elapsed + dt), delay := some r } ∧ changesOnly [] [.pwr] (s.pass dt) t)) ∧
    (s.pwr.stop = .handshake → domAnswer s n h.target = .ack →
      completes i s (fun t => hsOf t n = some { h with asked := some (s.elapsed + dt), delay := none, acked := true } ∧ changesOnly [] [.pwr] (s.pass dt) t)) ∧
    (∀ (r : Nat), s.pwr.stop = .handshake → domAnswer s n h.target = .refuse r → s.rd Reg.PWR_LOGIDX_NEXT < 16 →
      completes i s (fun t => t.pwr.hs = [] ∧ t.pwr.stop = .none ∧ t.rd Reg.PWR_STAT_MODE = 0 ∧ t.rd Reg.PWR_CTL_STOPREQ = 0 ∧ t.rd (Reg.PWR_LOG_DOMAIN (s.rd Reg.PWR_LOGIDX_NEXT)) = 15 ∧
        t.rd Reg.PWR_REFCNT = satAdd 32 (s.rd Reg.PWR_REFCNT) 1 ∧ ∀ d, 1 ≤ d → d ≤ 14 → t.rd (Reg.PWR_DOM_STATE d) = s.rd (Reg.PWR_DOM_STATE d)))) ∧
  (∀ (n k dt : Nat) (h : Hs) (s : State), delayLimitOk n (s.pass dt) = true → hsOf s n = some h → 1 ≤ n → n ≤ 14 → s.pwr.later.contains n = false → s.pwr.stop = .none → k = s.rd Reg.PWR_LOGIDX_NEXT → k < 16 →
    completes (.delayLimit n dt) s (fun t => t.rd (Reg.PWR_DOM_HELD n) = 1 ∧ t.rd Reg.PWR_REFCNT = satAdd 32 (s.rd Reg.PWR_REFCNT) 1 ∧ t.rd (Reg.PWR_LOG_REASON k) = h.delay.getD 0 % 256 ∧ t.flight = s.flight ++ [102] ∧ hsOf t n = none)) ∧
  (∀ (n k dt : Nat) (h : Hs) (s : State), s.pwr.stop = .none → hsOf s n = some h → 1 ≤ n → n ≤ 14 → s.pwr.later.contains n = false → k = s.rd Reg.PWR_LOGIDX_NEXT → k < 16 →
    completes (.entryAbandon n dt) s (fun t => t.rd (Reg.PWR_DOM_STATE n) = s.rd (Reg.PWR_DOM_STATE n) ∧ t.rd (Reg.PWR_DOM_HELD n) = 1 ∧ t.rd (Reg.PWR_LOG_REASON k) = 8 ∧ t.rd Reg.PWR_REFCNT = s.rd Reg.PWR_REFCNT ∧
      t.flight = s.flight ++ [102] ∧ hsOf t n = none)) ∧
  (∀ (ini n dt : Nat) (s : State), thawStallOk ini n (s.pass dt) = true → s.rd (Reg.PWR_DOM_STATE n) = 1 ∨ s.rd (Reg.PWR_DOM_STATE n) = 2 → s.pwr.waits.any (fun w => w.ini == ini && w.dom == n) = false →
    completes (.thawStall ini n dt) s (fun t => t.rd (Reg.PWR_DOM_STATE n) = 3 ∧ t.rd (Reg.PWR_DOM_CREQ n) = 0 ∧ t.rd (Reg.PWR_DOM_GREQ n) = 0 ∧ t.rd Reg.PWR_THAWCNT = satAdd 32 (s.rd Reg.PWR_THAWCNT) 1 ∧
      t.pwr.waits = s.pwr.waits ++ [⟨ini, n, s.elapsed + dt⟩] ∧ (s.rd (Reg.PWR_DOM_STATE 11) = 1 ∨ s.rd (Reg.PWR_DOM_STATE 11) = 2 → t.rd (Reg.PWR_DOM_STATE 11) = 3))) ∧
  (∀ (n dt : Nat) (thaw : Bool) (r : Rise) (s : State), 1 ≤ n → n ≤ 14 → readyOk n thaw (s.pass dt) = true → riseOf s n = some r →
    completes (if thaw then .thawReady n dt else .domainUp n dt) s (fun t => t.rd (Reg.PWR_DOM_STATE n) = 0 ∧ t.rd Reg.PWR_STAT_CHANGED = 1 ∧ 103 ∈ t.flight ∧ riseOf t n = none ∧ (∀ w ∈ t.pwr.waits, w.dom ≠ n) ∧ memSame s t)) ∧
  (∀ (ini n dt : Nat) (s : State), thawTimeoutOk ini n (s.pass dt) = true → s.pwr.held.any (fun h => h.ini == ini && h.dom == n) = false →
    completes (.thawTimeout ini n dt) s (fun t => t.rd Reg.PWR_THAWTOCNT = satAdd 32 (s.rd Reg.PWR_THAWTOCNT) 1 ∧ t.pwr.expired = s.pwr.expired ++ [(ini, n)] ∧
      t.pwr.waits = s.pwr.waits.filter (fun w => !(w.ini == ini && w.dom == n)) ∧ changesOnly [Reg.PWR_THAWTOCNT] [.pwr] (s.pass dt) t))

/-- Stop, the wake timer and Glety's votes (R643, R644, R645, R778, R685): how a Stop is asked for, entered and left, and what the votes become. -/
def Obligations.StopAndVotes : Prop :=
  (∀ (i : Instr) (dt : Nat) (s : State), i = .pfailLow dt ∨ i = .pfailRetry dt ∧ pfailRetryOk (s.pass dt) = true → s.on Reg.PWR_CTL_PFAILEN = true → leafMode s = false → s.pwr.stop = .none →
    completes i s (fun t => t.pwr.stop = .handshake ∧ t.pwr.byPfail = true ∧ t.rd Reg.PWR_STAT_MODE = 1 ∧ (t.pwr.hs.map (fun h => (h.dom, h.target, h.acked))) = [1, 3, 4, 5, 6, 7, 8, 9, 10, 11, 12, 13, 14].map (fun n => (n, 1, false)) ∧
      changesOnly [Reg.PWR_STAT_MODE] [.pwr] (s.pass dt) t)) ∧
  (∀ (dt : Nat) (s : State), s.on Reg.PWR_CTL_PFAILEN = false ∨ leafMode s = true →
    completes (.pfailLow dt) s (fun t => t.pwr = { s.pwr with pfailLow := true } ∧ changesOnly [] [.pwr] (s.pass dt) t)) ∧
  (∀ (dt : Nat) (s : State), stopEnterOk (s.pass dt) = true → (∀ h ∈ s.pwr.hs, 1 ≤ h.dom ∧ h.dom ≤ 14) →
    completes (.stopEnter dt) s (fun t => (∀ h ∈ s.pwr.hs, t.rd (Reg.PWR_DOM_STATE h.dom) = 1) ∧ t.pwr.stop = .stopped ∧ t.pwr.hs = [] ∧ t.firn.coasting = true ∧ t.rd Reg.PWR_STAT_CHANGED = 1 ∧ 103 ∈ t.flight ∧ memSame s t)) ∧
  (∀ (rise : Bool) (dt : Nat) (s : State), stopExitOk rise (s.pass dt) = true →
    completes (.stopExit rise dt) s (fun t => (∀ n, 1 ≤ n → n ≤ 14 → n ≠ 2 → t.rd (Reg.PWR_DOM_STATE n) = 0) ∧ t.rd (Reg.PWR_DOM_STATE 2) = s.rd (Reg.PWR_DOM_STATE 2) ∧ t.rd Reg.PWR_STAT_MODE = 0 ∧ t.pwr.stop = .coastExit ∧
      t.firn.exitPhase = (if s.firn.tcxoLost = none then 1 else s.firn.exitPhase) ∧ memSame s t)) ∧
  (∀ (dt : Nat) (s : State), s.pwr.stop = .coastExit → s.firn.coasting = false →
    completes (.stopCoastExit dt) s (fun t => t.pwr = { s.pwr with stop := .none } ∧ t.rd Reg.PWR_CTL_STOPREQ = 0 ∧ t.rd Reg.PWR_STAT_CHANGED = 1 ∧ t.flight = s.flight ++ [103] ∧
      changesOnly [Reg.PWR_CTL_STOPREQ, Reg.PWR_STAT_CHANGED] [.pwr, .flight] (s.pass dt) t)) ∧
  (∀ (dt : Nat) (s : State), wakeTimerExpiryOk (s.pass dt) = true →
    completes (.wakeTimerExpiry dt) s (fun t => t.rd Reg.PWR_STAT_WAKEF = 1 ∧ t.pwr.waketAt = none ∧ t.rd Reg.PWR_STAT_CHANGED = 1 ∧ 103 ∈ t.flight ∧ (s.on Reg.PWR_WAKEMASK_EXITSTOP = true → t.pwr.wake = true) ∧
      ∀ i, i < 14 → bitOf (s.rd Reg.PWR_WAKEMASK_DOMS) i = 1 → t.rd (Reg.PWR_DOM_CREQ (i + 1)) = 0 ∧ t.rd (Reg.PWR_DOM_GREQ (i + 1)) = 0)) ∧
  (∀ (dt : Nat) (s : State), gletyAwakeOk (s.pass dt) = true →
    completes (.gletyAwake dt) s (fun t => t.pwr.awake = true ∧ ∀ v ∈ awakeVotes s, t.rd (Reg.PWR_DOM_GREQ v.1) = v.2)) ∧
  (∀ (dt : Nat) (s : State), gletyAsleepOk (s.pass dt) = true →
    completes (.gletyAsleep dt) s (fun t => t.pwr.awake = false ∧ ∀ v ∈ asleepVotes (radioOff (s.pass dt)), t.rd (Reg.PWR_DOM_GREQ v.1) = v.2)) ∧
  (∀ (s : State), awakeVotes s = [(11, 0), (1, 0), (2, wurVote s), (3, if stAct s (stNow s) 11 then 2 else if stAct s (stNow s) 10 then 1 else 0), (4, 0), (5, 0), (6, 0), (7, 2), (8, 2), (9, 2), (10, 2), (12, 0), (13, 2), (14, ioVote s)]) ∧
  (∀ (dt : Nat) (s : State), completes (.fabClockStop dt) s (fun t => t.pwr = { s.pwr with fabDead := true, floats := true } ∧ changesOnly [] [.pwr] (s.pass dt) t))

/-- The ageing monitors (R654 to R661, R663, R689): margins and rails, a ceiling that falls, the temperature and the flash wear. -/
def Obligations.AgeingMonitors : Prop :=
  (∀ (ms e : List Nat) (i v dt : Nat) (s : State), replanOk ms (s.pass dt) = true → i < 8 → ageEntry s (5 + i) = some e → v = s.rd (Reg.AGE_ISL_VRAIL i) →
    (∀ j, j < 8 → j ≠ i → ageEntry s (5 + j) = none) → toSigned 8 (ms.getD i 0) < leAt e 6 1 → v < leAt e 4 2 →
    completes (.replan ms dt) s (fun t => t.rd (Reg.AGE_ISL_VRAIL i) = (v + 10) % 2 ^ (Reg.AGE_ISL_VRAIL i).width ∧ (∀ j, j < 8 → t.rd (Reg.AGE_ISL_MARGIN j) = ms.getD j 0 % 256) ∧ t.age.planAt = s.elapsed + dt ∧ t.age.ceil = s.age.ceil ∧
      changesOnly (Reg.AGE_ISL_VRAIL i :: (List.range 8).map Reg.AGE_ISL_MARGIN) [.age] (s.pass dt) t)) ∧
  (∀ (ms e : List Nat) (i f new dt : Nat) (s : State), replanOk ms (s.pass dt) = true → i < 8 → ageEntry s (5 + i) = some e → s.age.ceil.length = 8 → leAt e 4 2 ≤ s.rd (Reg.AGE_ISL_VRAIL i) →
    (∀ j, j < 8 → j ≠ i → ageEntry s (5 + j) = none) → toSigned 8 (ms.getD i 0) < leAt e 6 1 → bitOf (leAt e 1 1) 0 = 1 → f = islandKHz s (5 + i) → leAt e 10 2 * 1000 + leAt e 8 2 * 1000 ≤ f → new = f - leAt e 8 2 * 1000 →
    completes (.replan ms dt) s (fun t => islandKHz t (5 + i) = new ∧ t.rd (Reg.AGE_ISL_FCEIL i) = new / 1000 % 2 ^ (Reg.AGE_ISL_FCEIL i).width ∧ 145 ∈ t.flight ∧ t.rd (Reg.AGE_ISL_VRAIL i) = s.rd (Reg.AGE_ISL_VRAIL i) ∧
      (∀ j, j < 8 → j ≠ i → islandKHz t (5 + j) = islandKHz s (5 + j)))) ∧
  (∀ (x dt : Nat) (s : State), temperaturePollOk (s.pass dt) = true → x < 256 → s.elapsed + dt < s.age.binsAt + cycS 3600 → s.elapsed + dt < s.age.dayAt + cycS 86400 →
    completes (.temperaturePoll x dt) s (fun t => t.rd Reg.AGE_TEMP_NOW = x ∧
      t.rd Reg.AGE_TEMP_PEAK = (if s.rd Reg.AGE_TEMP_PEAK = 0x80 ∨ toSigned 8 (s.rd Reg.AGE_TEMP_PEAK) < toSigned 8 x then x else s.rd Reg.AGE_TEMP_PEAK) ∧ t.age.tempAt = s.elapsed + dt ∧
      t.age.bins = modAt s.age.bins (min 17 ((toSigned 8 x + 55).toNat / 10)) (· + 1) ∧ changesOnly [Reg.AGE_TEMP_NOW, Reg.AGE_TEMP_PEAK] [.age] (s.pass dt) t)) ∧
  (∀ (g dt : Nat) (w : GroupWear) (s : State), wearEvaluationOk (s.pass dt) = true → s.flc.groups = [(g, w)] → w.reads = 0 →
    (w.progs ≠ 0 → leAt (ageWear s) 1 1 ≤ 4 * w.pulses / w.progs → (look g s.age.wear).getD 0 < 2 →
      completes (.wearEvaluation dt) s (fun t => look g t.age.wear = some 2 ∧ t.rd Reg.AGE_ALARMS_FLWEAR = 1 ∧ t.age.wearAt = s.elapsed + dt ∧ t.flc = s.flc)) ∧
    (w.progs = 0 ∨ 2 ≤ (look g s.age.wear).getD 0 →
      completes (.wearEvaluation dt) s (fun t => t.age = { s.age with wearAt := s.elapsed + dt } ∧ changesOnly [] [.age] (s.pass dt) t))) ∧
  (∀ (lane v dt : Nat) (s : State), mirrorLaneCheckOk lane (s.pass dt) = true → s.mir.badMs.length = 4 → v ≤ 16 →
    completes (.mirrorLaneCheck lane v dt) s (fun t => t.mir.badMs.getD lane 9 = 0 ∧ t.rd Reg.MIR_CVCNT = satAdd 32 (s.rd Reg.MIR_CVCNT) v ∧ changesOnly [Reg.MIR_CVCNT] [.mir] (s.pass dt) t)) ∧
  (∀ (lane v dt : Nat) (s : State), mirrorLaneCheckOk lane (s.pass dt) = true → s.mir.badMs.length = 4 → 16 < v → 7 ≤ s.mir.badMs.getD lane 0 → bitOf (s.rd Reg.MIR_STAT_SPAREDRV) lane = 0 →
    completes (.mirrorLaneCheck lane v dt) s (fun t => bitOf (t.rd Reg.MIR_STAT_SPAREDRV) lane = 1 ∧ t.rd Reg.MIR_LANESWCNT = satAdd 32 (s.rd Reg.MIR_LANESWCNT) 1 ∧ t.mir.badMs.getD lane 9 = 0 ∧ t.mir.dropped = s.mir.dropped)) ∧
  (∀ (lane v dt : Nat) (s : State), mirrorLaneCheckOk lane (s.pass dt) = true → s.mir.badMs.length = 4 → 16 < v → 7 ≤ s.mir.badMs.getD lane 0 → bitOf (s.rd Reg.MIR_STAT_SPAREDRV) lane = 1 →
    completes (.mirrorLaneCheck lane v dt) s (fun t => t.mir.dropped = lane :: s.mir.dropped))

/-- The coordinator pair (R670 to R682): the mirrored writes and the fence, the heartbeats, the link's silence, the pair beacons, and every change of role. -/
def Obligations.CoordinatorPair : Prop :=
  (∀ (dt : Nat) (s : State), heartbeatSendOk (s.pass dt) = true → s.on Reg.AGE_ALARMS_MIRDEG = false →
    completes (.heartbeatSend dt) s (fun t => t.mir = { s.mir with hbAt := s.elapsed + dt, hbOut := (s.rd Reg.MIR_STAT_ROLE, s.rd Reg.MIR_STAT_EPOCH, (s.pass dt).now) } ∧ changesOnly [] [.mir] (s.pass dt) t)) ∧
  (∀ (h : HbIn) (dt : Nat) (s : State), heartbeatReceiveOk (s.pass dt) = true → linkCode (lanesUp s) = mirLink s → h.agree = true → h.switchAt = none → h.epoch < 2 ^ 16 →
    (mirRole s = 2 → serving h.role = true → completes (.heartbeatReceive h dt) s (fun t => mirRole t = 2 ∧ mirEpoch t = h.epoch ∧ t.mir.lastFrame = some (s.elapsed + dt))) ∧
    (mirRole s = 0 → serving h.role = true → completes (.heartbeatReceive h dt) s (fun t => mirRole t = 3 ∧ mirEpoch t = h.epoch ∧ 146 ∈ t.flight)) ∧
    (mirRole s = 0 → h.role = 0 ∨ h.role = 3 → completes (.heartbeatReceive h dt) s (fun t => mirRole t = (if pairPrefer s then 1 else 3) ∧ 146 ∈ t.flight)) ∧
    (mirRole s = 4 → h.role = 2 → completes (.heartbeatReceive h dt) s (fun t => mirRole t = 1 ∧ t.rd Reg.AGE_ALARMS_ALONE = 0 ∧ t.rd Reg.MSH_STAT_COORD = 1 ∧ t.rd Reg.FIRN_STAT_ROOT = 1)) ∧
    (serving (mirRole s) = true → serving h.role = true → epochAfter h.epoch (mirEpoch s) = true →
      completes (.heartbeatReceive h dt) s (fun t => mirRole t = 3 ∧ mirEpoch t = h.epoch ∧ t.rfe.tx = none ∧ t.rfe.planned_ = []))) ∧
  (∀ (a dt : Nat) (l : List Nat) (w : MirWrite) (rest : List MirWrite) (s : State), mirrorWriteOk a l (s.pass dt) = true → serving (mirRole s) = true → s.mir.out = w :: rest →
    completes (.mirrorWrite a l dt) s (fun t => t.mir = { s.mir with out := rest } ∧ t.rd Reg.MIR_LAG_NOW = mirLagUs t ∧ changesOnly [Reg.MIR_LAG_NOW, Reg.MIR_LAG_MAX] [.mir] (s.pass dt) t)) ∧
  (∀ (a dt : Nat) (l : List Nat) (s : State), mirrorWriteOk a l (s.pass dt) = true → mirRole s = 2 ∨ mirRole s = 3 → memWf s.mem = true →
    completes (.mirrorWrite a l dt) s (fun t => (∀ i, i < l.length → (memRd t.mem (a + i)).toNat = l.getD i 0) ∧ (∀ x, x < a ∨ a + l.length ≤ x → memRd t.mem x = memRd s.mem x) ∧ changesOnly [] [.mem] (s.pass dt) t)) ∧
  (∀ (dt : Nat) (s : State), fenceCompleteOk (s.pass dt) = true →
    completes (.fenceComplete dt) s (fun t => t.mir = { s.mir with fence := none } ∧ t.rd Reg.MIR_FENCE_FENCE = 0 ∧ (mirLink s = 0 → t.rd Reg.MIR_FENCE_FAIL = 1) ∧
      changesOnly (if mirLink s = 0 then [Reg.MIR_FENCE_FENCE, Reg.MIR_FENCE_FAIL] else [Reg.MIR_FENCE_FENCE]) [.mir] (s.pass dt) t)) ∧
  (∀ (dt : Nat) (s : State), mirrorSilenceOk (s.pass dt) = true →
    completes (.mirrorSilence dt) s (fun t => mirLink t = 0 ∧ mirRole t = (if mirRole s = 1 then 4 else if mirRole s = 3 then 5 else mirRole s) ∧ t.mir.out = [] ∧ t.mir.dirty = [] ∧ 146 ∈ t.flight ∧
      (mirRole s = 1 → t.rd Reg.AGE_ALARMS_ALONE = 1) ∧ (s.mir.fence.isSome = true → t.rd Reg.MIR_FENCE_FAIL = 1 ∧ t.mir.fence = none))) ∧
  (∀ (dt : Nat) (s : State), pairBeaconSendOk (s.pass dt) = true →
    completes (.pairBeaconSend dt) s (fun t => t.mir = { s.mir with beaconAt := some (s.elapsed + dt), beaconN := s.mir.beaconN + 1 } ∧ mirRole t = mirRole s ∧ memSame s t)) ∧
  (∀ (b dt : Nat) (s : State), pairOn s = true →
    (mirRole s = 2 → mirLink s = 0 → completes (.pairBeaconHeard b dt) s (fun t => mirRole t = 5 ∧ t.rd Reg.MSH_STAT_COORD = 0 ∧ t.rd Reg.FIRN_STAT_ROOT = 0 ∧ 146 ∈ t.flight)) ∧
    (serving (mirRole s) = true → 0 < toSigned 8 (b + 256 - mirEpoch s % 256) → completes (.pairBeaconHeard b dt) s (fun t => mirRole t = 5 ∧ t.rfe.tx = none ∧ t.rfe.planned_ = [])) ∧
    (mirRole s = 3 ∨ mirRole s = 5 ∨ serving (mirRole s) = true ∧ toSigned 8 (b + 256 - mirEpoch s % 256) ≤ 0 →
      completes (.pairBeaconHeard b dt) s (fun t => t.mir = { s.mir with beaconHeard := some (s.elapsed + dt) } ∧ changesOnly [] [.mir] (s.pass dt) t))) ∧
  (∀ (dt : Nat) (s : State), takeoverOk (s.pass dt) = true →
    completes (.takeover dt) s (fun t => mirRole t = 4 ∧ mirEpoch t = (mirEpoch s + 1) % 65536 ∧ t.msh.mseq = (s.msh.mseq + 4096) % 2 ^ 24 ∧ t.lnk.epochs = s.lnk.epochs.map (fun x => { x with enonce := (x.enonce + 4096) % 2 ^ 32 }) ∧
      t.rd Reg.MIR_TAKEOVERCNT = satAdd 32 (s.rd Reg.MIR_TAKEOVERCNT) 1 ∧ t.rd Reg.AGE_ALARMS_ALONE = 1 ∧ t.rd Reg.MSH_STAT_COORD = 1 ∧ t.rd Reg.FIRN_STAT_ROOT = 1 ∧ t.rd Reg.LNK_STAT_SHORT = pairAddr s % 2 ^ 16)) ∧
  (∀ (dt : Nat) (s : State), startAloneOk (s.pass dt) = true →
    completes (.startAlone dt) s (fun t => mirRole t = (if s.mir.beaconHeard.isSome then 5 else 4) ∧ 146 ∈ t.flight)) ∧
  (∀ (dt : Nat) (s : State), syncCompleteOk (s.pass dt) = true →
    completes (.syncComplete dt) s (fun t => mirRole t = 2 ∧ t.mir.syncProg = 100 ∧ t.mir.reason = 4 ∧ 146 ∈ t.flight)) ∧
  (∀ (dt : Nat) (w : MirSwitch) (s : State), switchFenceOk (s.pass dt) = true → s.mir.switch = some w →
    completes (.switchFence dt) s (fun t => t.mir = { s.mir with switch := some { w with fence := 1 }, fence := some (s.mir.fence.getD s.mir.seq) } ∧ changesOnly [] [.mir] (s.pass dt) t)) ∧
  (∀ (dt : Nat) (w : MirSwitch) (s : State), plannedSwitchOk (s.pass dt) = true → s.mir.switch = some w →
    (mirLink s ≠ 0 → mirRole s = 1 ∧ w.fence = 1 ∧ s.mir.fence = none ∨ mirRole s = 2 →
      completes (.plannedSwitch dt) s (fun t => mirRole t = 3 - mirRole s ∧ mirEpoch t = (mirEpoch s + 1) % 65536 ∧ t.mir.switch = none ∧ t.mir.reason = 2)) ∧
    (mirLink s = 0 ∨ mirRole s = 1 ∧ (w.fence ≠ 1 ∨ s.mir.fence.isSome = true) → w.op = none →
      completes (.plannedSwitch dt) s (fun t => t.mir = { s.mir with switch := none } ∧ changesOnly [] [.mir] (s.pass dt) t)))

/-- The lamp block (R16, R717, R719 to R722, R737, R749, R750): a commit of its outputs, whole or refused whole, the end of a DALI frame and what its backward window brings, the bus held low, PHOTO
and a metering block. -/
def Obligations.LampBlock : Prop :=
  (∀ (dt : Nat) (s : State), lmpApplyOk (s.pass dt) = true → 4000 ≤ s.rd (Reg.LMP_PWM_PER_PERIOD 0) → 4000 ≤ s.rd (Reg.LMP_PWM_PER_PERIOD 1) →
    completes (.lmpApply dt) s (fun t => t.rd Reg.LMP_CTL_APPLY = 0 ∧ (∀ f ∈ lmpSFields, t.rdC f = s.rd f % 2 ^ f.width ∧ t.rd f = s.rd f) ∧ changesOnly (Reg.LMP_CTL_APPLY :: lmpSFields) [] (s.pass dt) t)) ∧
  (∀ (dt : Nat) (s : State), lmpApplyOk (s.pass dt) = true → s.rd (Reg.LMP_PWM_PER_PERIOD 0) < 4000 ∨ s.rd (Reg.LMP_PWM_PER_PERIOD 1) < 4000 →
    completes (.lmpApply dt) s (fun t => t.rd Reg.LMP_CTL_APPLY = 0 ∧ t.rd Reg.LMP_STAT_CFGERR = 1 ∧ changesOnly [Reg.LMP_CTL_APPLY, Reg.LMP_STAT_CFGERR] [] (s.pass dt) t)) ∧
  (∀ (collision : Bool) (dt : Nat) (f : DaliFrame) (s : State), s.lmp.dali = some f → s.lmp.daliWait = false → f.at_ + (if f.long then 25 else 17) * 256000 ≤ s.elapsed + dt → s.lum.arc = none →
    completes (.daliTransmitEnd collision dt) s (fun t => t.rd Reg.LMP_STAT_DALIBUSY = 0 ∧ t.rd Reg.LMP_DALI_RX_ERR = (if collision then 1 else s.rd Reg.LMP_DALI_RX_ERR) ∧
      t.lmp = { s.lmp with dali := none, window := if f.bw && !collision then some f else none } ∧ t.flight = s.flight ++ [167] ∧
      changesOnly [Reg.LMP_STAT_DALIBUSY, Reg.LMP_DALI_RX_ERR] [.lmp, .flight] (s.pass dt) t)) ∧
  (∀ (data dt : Nat) (err : Bool) (f : DaliFrame) (s : State), s.lmp.window = some f → s.lum.arc = none → f.poll = false →
    completes (.backwardFrame data err dt) s (fun t => t.rd Reg.LMP_DALI_RX_ERR = (if err then 1 else s.rd Reg.LMP_DALI_RX_ERR) ∧ t.rd Reg.LMP_DALI_RX_VALID = (if err then s.rd Reg.LMP_DALI_RX_VALID else 1) ∧
      t.rd Reg.LMP_DALI_RX_DATA = (if err then s.rd Reg.LMP_DALI_RX_DATA else data % 256) ∧ t.flight = s.flight ++ [167] ∧ t.lmp = { s.lmp with window := none } ∧
      changesOnly [Reg.LMP_DALI_RX_ERR, Reg.LMP_DALI_RX_VALID, Reg.LMP_DALI_RX_DATA] [.lmp, .flight] (s.pass dt) t)) ∧
  (∀ (data dt : Nat) (f : DaliFrame) (s : State), s.lmp.window = some f → f.poll = true → s.on Reg.LMP_STAT_SVC = true →
    completes (.backwardFrame data false dt) s (fun t => t.rd Reg.LMP_DALI_RX_VALID = 1 ∧ t.lum.misses = 0 ∧ t.lum.gear = decide (data % 256 % 4 ≠ 0) ∧ 167 ∈ t.flight)) ∧
  (∀ (dt : Nat) (f : DaliFrame) (s : State), s.lmp.window = some f → s.lum.arc = none → f.poll = false →
    completes (.backwardWindowEmpty dt) s (fun t => t.rd Reg.LMP_DALI_RX_NONE = 1 ∧ t.flight = s.flight ++ [167] ∧ t.lmp = { s.lmp with window := none } ∧ changesOnly [Reg.LMP_DALI_RX_NONE] [.lmp, .flight] (s.pass dt) t)) ∧
  (∀ (dt : Nat) (f : DaliFrame) (s : State), s.lmp.window = some f → f.poll = true → s.on Reg.LMP_STAT_SVC = true →
    completes (.backwardWindowEmpty dt) s (fun t => t.rd Reg.LMP_DALI_RX_NONE = 1 ∧ t.lum.misses = s.lum.misses + 1 ∧ t.lum.gear = s.lum.gear)) ∧
  (∀ (low : Bool) (dt : Nat) (s : State), completes (.busLow low dt) s (fun t => t.rd Reg.LMP_STAT_BUSLOW = b2n low ∧
      (s.on Reg.LMP_STAT_SVC = false → changesOnly [Reg.LMP_STAT_BUSLOW] [] (s.pass dt) t))) ∧
  (∀ (dt : Nat) (s : State), s.on Reg.LMP_STAT_SVC = true → s.lum.fsince = [] → s.rd Reg.LMP_FAULTS = 0 → s.lum.misses = 0 → s.lum.gear = false → s.lum.sched = [] → vScale s = 0 → s.firn.stage ≠ .free →
    completes (.busLow true dt) s (fun t => t.rd Reg.LMP_FAULTS = 16 ∧ 165 ∈ t.flight)) ∧
  (∀ (uv dt : Nat) (s : State), s.lmp.photoAt + cycMs 100 ≤ s.elapsed + dt → s.lum.sched = [] →
    completes (.photoSample uv dt) s (fun t => t.rd Reg.LMP_PHOTO_VALUE = min 1023 ((uv * 1023 + 1250000) / 2500000) ∧ t.lmp = { s.lmp with photoAt := s.elapsed + dt } ∧
      changesOnly [Reg.LMP_PHOTO_VALUE] [.lmp, .lum] (s.pass dt) t)) ∧
  (∀ (b : List (Nat × Nat × Nat × Nat)) (v i x y dt : Nat) (s : State), s.on Reg.LMP_CTL_MEN = true → b.length = 64 → b.getLastD (0, 0, 0, 0) = (v, i, x, y) →
    completes (.meterBlock b dt) s (fun t => (∀ k, k < 4 → t.rd (Reg.LMP_MET_SEQ k) = (s.rd (Reg.LMP_MET_SEQ 0) + 64) % 256) ∧ t.rd (Reg.LMP_MET_SAMPLE 0) = v % 2 ^ 24 ∧ t.rd (Reg.LMP_MET_SAMPLE 1) = i % 2 ^ 24 ∧
      t.rd (Reg.LMP_MET_SAMPLE 2) = x % 2 ^ 24 ∧ t.rd (Reg.LMP_MET_SAMPLE 3) = y % 2 ^ 24 ∧ 166 ∈ t.flight ∧
      (s.on Reg.LMP_STAT_SVC = false → t.flight = s.flight ++ [166] ∧ changesOnly ((List.range 4).flatMap (fun k => [Reg.LMP_MET_SEQ k, Reg.LMP_MET_SAMPLE k])) [.flight] (s.pass dt) t) ∧
      ∀ p : Int, s.on Reg.LMP_STAT_SVC = true → vScale s ≠ 0 → iScale s ≠ 0 → 0 ≤ p → p = roundDiv ((b.map (fun z => toSigned 24 z.1 * toSigned 24 z.2.1)).sum * ((vScale s * iScale s : Nat) : Int)) (64 * 10 ^ 14) →
        t.lum.power = p.toNat ∧ t.lum.energy = s.lum.energy + p.toNat ∧ t.lum.peak = max s.lum.peak p.toNat))

/-- The luminaire and coordinator services (R725 to R733, R737, R738, R740, R744): a day's entries, an action that takes effect, photocell entries, fades, constant light output, the DALI poll,
reports, the registry's copy and a dispatch that is sent again. -/
def Obligations.LuminaireService : Prop :=
  (∀ (dt : Nat) (s : State), s.on Reg.LMP_STAT_SVC = true → s.lum.sched ≠ [] → s.lum.day ≠ some (localDay (s.pass dt)) →
    completes (.midnightCompute dt) s (fun t => t.lum.day = some (localDay (s.pass dt)) ∧ t.lum.force = s.lum.force ∧ t.lum.level = s.lum.level ∧
      (t.lum.acts.filter (fun a => a.src == 1)).map (fun a => (a.t, a.level, a.fade)) =
        ((dayActs (s.pass dt) (localDay (s.pass dt))).filter (fun a => decide ((s.pass dt).now < a.t))).map (fun a => (a.t, a.level, a.fade)))) ∧
  (∀ (day i : Nat) (e : List Nat) (s : State), e = schedEntry s.lum.sched i → i < schedNent s.lum.sched → bitOf (entDays e) ((day + 5) % 7) = 1 → entKind e ≤ 2 → (∀ j, i < j → entFt s s.lum.sched day j ≠ entFt s s.lum.sched day i) →
    ∃ a ∈ dayActs s day, a.src = 1 ∧ a.level = entLevel e ∧ a.fade = entFade e ∧
      (entKind e = 0 → a.t = ftS (firnOfLocal s s.lum.sched (86400 * day + entTime e)).toNat) ∧
      (entKind e ≠ 0 → a.t = ftS ((day * 86400 + sunAt s (entKind e == 1) (dayOfYear day) : Nat) + s.firn.utcOff + toSigned 32 (entTime e)).toNat)) ∧
  (∀ (dt lv : Nat) (a : LumAct) (s : State), s.on Reg.LMP_STAT_SVC = true → lumDue (s.pass dt) = some a → a.src = 1 → a.cmp = none → a.fade = 0 → s.lum.failsafe = false → s.lum.force.t < a.t →
    lv = levelOut s a.level →
    completes (.scheduleEntry dt) s (fun t => t.lum.force = a ∧ t.lum.level = a.level ∧ t.lum.levelOut = lv ∧ t.lum.fade = none ∧ t.rd Reg.LMP_CTL_APPLY = 1 ∧ t.rd Reg.LMP_CTL_LTEN = 0 ∧
      (∀ n, n < 2 → t.rd (Reg.LMP_PWM_DUTY_DUTY n) = (if bitOf (dimOutputs s) n = 1 then interp (dimCurve s 2 2) lv else 0) % 2 ^ (Reg.LMP_PWM_DUTY_DUTY n).width) ∧
      t.rd Reg.LMP_DAC_CODE = (if bitOf (dimOutputs s) 3 = 1 then interp (dimCurve s 4 2) lv else 0) % 2 ^ Reg.LMP_DAC_CODE.width)) ∧
  (∀ (i dt t0 : Nat) (s : State), photocellEntryOk i (s.pass dt) = true → s.lum.failsafe = false → entFade (schedEntry s.lum.sched i) = 0 → look i s.lum.photo = some (t0, false) →
    completes (.photocellEntry i dt) s (fun t => t.lum.force.src = 4 ∧ t.lum.force.t = (s.pass dt).now ∧ t.lum.level = entLevel (schedEntry s.lum.sched i) ∧ look i t.lum.photo = some (t0, true) ∧ t.rd Reg.LMP_CTL_LTEN = 0)) ∧
  (∀ (dt : Nat) (f : LumFade) (s : State), s.on Reg.LMP_STAT_SVC = true → s.lum.fade = some f → f.end_ ≤ (s.pass dt).now →
    completes (.fadeStep dt) s (fun t => t.lum.fade = none ∧ t.lum.level = f.target ∧ t.lum.levelOut = levelOut s f.target ∧ t.rd Reg.LMP_CTL_APPLY = 1)) ∧
  (∀ (dt : Nat) (f : LumFade) (s : State), s.on Reg.LMP_STAT_SVC = true → s.lum.fade = some f → (s.pass dt).now < f.end_ → f.at_ + cycMs 10 ≤ s.elapsed + dt →
    completes (.fadeStep dt) s (fun t => t.lum.fade = some { f with at_ := s.elapsed + dt, daliAt := if f.daliAt + cycMs 100 ≤ s.elapsed + dt then s.elapsed + dt else f.daliAt } ∧
      min s.lum.level f.target ≤ t.lum.level ∧ t.lum.level ≤ max s.lum.level f.target)) ∧
  (∀ (dt m : Nat) (s : State), s.on Reg.LMP_STAT_SVC = true → s.lum.cloAt + cycS 3600 ≤ s.elapsed + dt → m = lumMinutes (burnCount (s.pass dt)) →
    completes (.cloUpdate dt) s (fun t => t.lum.hours = m ∧ t.lum.cloAt = s.elapsed + dt ∧ t.lum.factor = cloFactor s m ∧ t.lum.levelOut = min 1000 (roundDiv ((s.lum.level * cloFactor s m : Nat) : Int) 1000).toNat)) ∧
  (∀ (dt : Nat) (s : State), daliPollOk (s.pass dt) = true →
    completes (.daliPoll dt) s (fun t => t.rd Reg.LMP_DALI_TX_FRAME = 0xFF90 ∧ t.rd Reg.LMP_DALI_TX_LEN = 0 ∧ t.rd Reg.LMP_DALI_TX_BW = 1 ∧ t.rd Reg.LMP_STAT_DALIBUSY = 1 ∧ t.lum.pollAt = s.elapsed + dt ∧
      t.lmp.dali = some { frame := 0xFF90, long := false, bw := true, poll := true, at_ := s.elapsed + dt })) ∧
  (∀ (dt : Nat) (s : State), statusReportOk (s.pass dt) = true →
    completes (.statusReport dt) s (fun t => ∃ u, u.lum = { s.lum with repAt := s.elapsed + dt } ∧ u.msh = s.msh ∧ u.lnk = s.lnk ∧ t = unicastSend coordShort 2 0 3 ([2, 0] ++ leBytes 2 s.lum.levelOut ++ leBytes 2 (leAt s.lum.sched 0 2) ++
      leBytes 4 (s.rd Reg.LMP_FAULTS) ++ leBytes 4 (lumMinutes (burnCount (s.pass dt))) ++ leBytes 4 (s.lum.energy / 2250000 % 2 ^ 32)) u)) ∧
  (∀ (dt : Nat) (s : State), meterReportOk (s.pass dt) = true →
    completes (.meterReport dt) s (fun t => t.lum = { s.lum with metAt := s.elapsed + dt, peak := 0, vsum := 0, vcount := 0 } ∧ ∃ u, u.msh = s.msh ∧ u.lnk = s.lnk ∧
      t = unicastSend coordShort 2 0 4 (leBytes 4 (s.lum.energy / 2250000 % 2 ^ 32) ++ leBytes 2 s.lum.peak ++ leBytes 2 (if s.lum.vcount = 0 then 0 else (roundDiv s.lum.vsum s.lum.vcount).toNat)) u)) ∧
  (∀ (dt : Nat) (s : State), coActive s = true → s.co.saveAt + cycS 900 ≤ s.elapsed + dt →
    completes (.registrySave dt) s (fun t => t.co = { s.co with savedNodes := s.co.nodes, savedAdmit := s.co.admitted, saveAt := s.elapsed + dt } ∧ changesOnly [] [.co] (s.pass dt) t)) ∧
  (∀ (short dt : Nat) (d : CoDisp) (m : CoMember) (s : State), s.co.disps = [d] → d.members = [m] → m.short = short → m.served = false → 1 ≤ m.sends → m.sends ≤ 4 → m.at_ + cycS 60 ≤ s.elapsed + dt → dispHeld s d = false → s.mboxes.length = 4 →
    completes (.dispatchResend short dt) s (fun t =>
      (m.sends ≤ 3 → t.co.disps = [{ d with members := [{ m with sends := m.sends + 1, at_ := s.elapsed + dt }] }]) ∧
      (m.sends = 4 → t.co.disps = [] ∧ opOf t d.mb d.op = none)))

/-- The debug port (R768 to R771): what each instruction scans out and does, an access by DBGMEM, and a command to an application core. -/
def Obligations.DebugPort : Prop :=
  (∀ (sample cells dt : Nat) (s : State), completes (.extest sample cells dt) s (fun t => t.jtag = { s.jtag with ir := 0, scan := sample % 2 ^ 189, cells := cells % 2 ^ 189 } ∧ changesOnly [] [.jtag] (s.pass dt) t ∧
    ∀ b, b < 60 → b ≠ 4 → bitOf cells (3 * b + 2) = 1 → ballDriven t.jtag b = some (bitOf cells (3 * b + 1) == 1))) ∧
  (∀ (sample cells dt : Nat) (s : State), completes (.samplePreload sample cells dt) s (fun t => t.jtag = { s.jtag with ir := 1, scan := sample % 2 ^ 189, cells := cells % 2 ^ 189 } ∧ changesOnly [] [.jtag] (s.pass dt) t ∧
    ∀ b, ballDriven t.jtag b = none)) ∧
  (∀ (dt : Nat) (s : State), completes (.idcode dt) s (fun t => t.jtag.ir = 2 ∧ t.jtag.scan = s.rd Reg.SYS_ID_REV % 16 * 2 ^ 28 + 0x07440367 ∧ changesOnly [] [.jtag] (s.pass dt) t)) ∧
  (∀ (dt : Nat) (s : State), completes (.highz dt) s (fun t => t.jtag.ir = 4 ∧ ballsHeld t.jtag = true ∧ (∀ b, ballDriven t.jtag b = none) ∧ changesOnly [] [.jtag] (s.pass dt) t)) ∧
  (∀ (code dt : Nat) (s : State), code < 32 → code ∉ [0, 1, 2, 4, 8, 9, 10] → completes (.bypass code dt) s (fun t => t.jtag.ir = code ∧ (∀ b, ballDriven t.jtag b = none) ∧ changesOnly [] [.jtag] (s.pass dt) t)) ∧
  (∀ (addr data v dt : Nat) (s u : State), s.jtag.pend = none → busRead ⟨22, false, addr % 2 ^ 32 / 4 * 4, 4, 0, false⟩ false (jtagMod (fun j => { j with ir := 8, scan := dbgCapture j }) (s.pass dt)) = (.done v, u) →
    completes (.dbgmem 1 addr data dt) s (fun t => t = jtagMod (fun j => { j with pend := none, err := false, op := 1, addr := addr % 2 ^ 32, data := v }) u)) ∧
  (∀ (addr data k dt : Nat) (s u : State), s.jtag.pend = none → busRead ⟨22, false, addr % 2 ^ 32 / 4 * 4, 4, 0, false⟩ false (jtagMod (fun j => { j with ir := 8, scan := dbgCapture j }) (s.pass dt)) = (.err k, u) →
    completes (.dbgmem 1 addr data dt) s (fun t => t.jtag.err = true ∧ t.jtag.pend = none)) ∧
  (∀ (addr data a dt : Nat) (s : State), s.jtag.pend = none → memWf s.mem = true → a = addr % 2 ^ 32 / 4 * 4 → 0x10000000 ≤ a → a < 0x10600000 → writeLands ⟨22, false, a, 4, data % 2 ^ 32, false⟩ (s.pass dt) = true →
    completes (.dbgmem 2 addr data dt) s (fun t => (∀ i, i < 4 → (memRd t.mem (a + i)).toNat = data / 256 ^ i % 256) ∧ (∀ x, x < a ∨ a + 4 ≤ x → memRd t.mem x = memRd s.mem x) ∧ t.jtag.err = false ∧ t.jtag.pend = none ∧
      t.jtag.scan = dbgCapture s.jtag)) ∧
  (∀ (op addr data dt : Nat) (s : State), s.jtag.pend = none → op ≠ 1 → op ≠ 2 →
    completes (.dbgmem op addr data dt) s (fun t => t.jtag = { s.jtag with ir := 8, scan := b2n s.jtag.err * 2 ^ 66 + s.jtag.op * 2 ^ 64 + s.jtag.addr * 2 ^ 32 + s.jtag.data } ∧ changesOnly [] [.jtag] (s.pass dt) t)) ∧
  (∀ (ini dt : Nat) (s : State), 1 ≤ ini → ini ≤ 4 → s.on Reg.PROT_CTL_DBGEN = true → s.cores.length = 14 →
    completes (.dbgHalt ini dt) s (fun t => coreOf t ini = { coreOf s ini with halted := true, oneStep := false } ∧ (∀ k, k ≠ ini → k ≤ 15 → k ≠ 5 → k ≠ 6 → coreOf t k = coreOf s k) ∧ changesOnly [] [.cores, .jtag] (s.pass dt) t) ∧
    completes (.dbgResume ini dt) s (fun t => coreOf t ini = { coreOf s ini with halted := false, oneStep := false } ∧ changesOnly [] [.cores, .jtag] (s.pass dt) t) ∧
    completes (.dbgStep ini dt) s (fun t => coreOf t ini = { coreOf s ini with oneStep := (coreOf s ini).halted } ∧ changesOnly [] [.cores, .jtag] (s.pass dt) t)) ∧
  (∀ (i : Instr) (ini dt : Nat) (s : State), i ∈ [Instr.dbgHalt ini dt, .dbgResume ini dt, .dbgStep ini dt] → s.on Reg.PROT_CTL_DBGEN = false ∨ ini = 0 ∨ 5 ≤ ini →
    completes i s (fun t => t.jtag.ir = 9 ∧ t.cores = s.cores ∧ changesOnly [] [.jtag] (s.pass dt) t)) ∧
  (∀ (dt : Nat) (s : State), completes (.sysrst dt) s (fun t => t.rd Reg.SYS_RSTCAUSE_JTAG = 1 ∧ t.rd Reg.SYS_BOOT_PHASE = 0 ∧ t.mem = [] ∧ t.fuses = s.fuses ∧ t.jtag.ir = 10 ∧ t.jtag.cells = s.jtag.cells)) ∧
  (∀ (dt : Nat) (s : State), completes (.tapReset dt) s (fun t => t.jtag = { Jtag.reset with cells := s.jtag.cells } ∧ t.jtag.ir = 2 ∧ changesOnly [] [.jtag] (s.pass dt) t))
end

