-- ==== Sys2Proof/Laws/Lists.lean ====
section
/-!
SUPPORT. Small facts about the lists of the model: lookup and update by key, rising keys, and folds that keep a property.
-/
namespace Sys2Proof.Machine

theorem look_put_same {α : Type} (k : Nat) (v : α) (l : List (Nat × α)) : look k (put k v l) = some v := by
  induction l with
  | nil => simp [put, look]
  | cons p rest ih =>
    obtain ⟨k', v'⟩ := p
    simp only [put]
    split
    · simp [look]
    · split
      · simp [look]
      · next h1 h2 => simp [look, h2, ih]

theorem look_put_other {α : Type} {j k : Nat} (h : j ≠ k) (v : α) (l : List (Nat × α)) : look j (put k v l) = look j l := by
  induction l with
  | nil => simp [put, look, h]
  | cons p rest ih =>
    obtain ⟨k', v'⟩ := p
    simp only [put]
    split
    · simp [look, h]
    · split
      · next h1 h2 => subst h2; simp [look, h]
      · simp only [look, ih]

theorem look_put {α : Type} (j k : Nat) (v : α) (l : List (Nat × α)) : look j (put k v l) = if j = k then some v else look j l := by
  split
  · next h => subst h; exact look_put_same j v l
  · next h => exact look_put_other h v l

theorem keysRiseFrom_mono {α : Type} {a b : Nat} (h : a ≤ b) (l : List (Nat × α)) (hl : keysRiseFrom b l = true) : keysRiseFrom a l = true := by
  cases l with
  | nil => rfl
  | cons p rest => obtain ⟨k, v⟩ := p; simp [keysRiseFrom] at hl ⊢; exact ⟨by omega, hl.2⟩

theorem keysRiseFrom_put {α : Type} (lo k : Nat) (v : α) (h : lo ≤ k) (l : List (Nat × α)) (hl : keysRiseFrom lo l = true) : keysRiseFrom lo (put k v l) = true := by
  induction l generalizing lo with
  | nil => simp [put, keysRiseFrom, h]
  | cons p rest ih =>
    obtain ⟨k', v'⟩ := p
    simp [keysRiseFrom] at hl
    simp only [put]
    split
    · simp [keysRiseFrom, h, hl]; omega
    · split
      · next h1 h2 => subst h2; simp [keysRiseFrom, hl]
      · simp [keysRiseFrom, hl]; exact ih (k' + 1) (by omega) hl.2

/-- Updating by key keeps the keys rising. -/
theorem keysRise_put {α : Type} (k : Nat) (v : α) (l : List (Nat × α)) (h : keysRise l = true) : keysRise (put k v l) = true :=
  keysRiseFrom_put 0 k v (Nat.zero_le k) l h

theorem keysRiseFrom_filter {α : Type} (p : Nat × α → Bool) (lo : Nat) (l : List (Nat × α)) (h : keysRiseFrom lo l = true) : keysRiseFrom lo (l.filter p) = true := by
  induction l generalizing lo with
  | nil => rfl
  | cons q rest ih =>
    obtain ⟨k, v⟩ := q
    simp [keysRiseFrom] at h
    by_cases hp : p (k, v)
    · simp [List.filter, hp, keysRiseFrom, h.1, ih (k + 1) h.2]
    · simp [List.filter, hp]; exact ih lo (keysRiseFrom_mono (by omega) rest h.2)

/-- Dropping entries keeps the keys rising. -/
theorem keysRise_filter {α : Type} (p : Nat × α → Bool) (l : List (Nat × α)) (h : keysRise l = true) : keysRise (l.filter p) = true :=
  keysRiseFrom_filter p 0 l h

/-- A fold keeps what each of its steps keeps. -/
theorem foldl_keeps {α β : Type} (P : β → Prop) (f : β → α → β) (l : List α) (b : β) (h : ∀ b a, P b → P (f b a)) (hb : P b) : P (l.foldl f b) := by
  induction l generalizing b with
  | nil => exact hb
  | cons a l ih => exact ih (f b a) (h b a hb)

/-- A projection that each step of a fold leaves alone is left alone by the fold. -/
theorem foldl_same {α β γ : Type} (g : β → γ) (f : β → α → β) (l : List α) (b : β) (h : ∀ b a, g (f b a) = g b) : g (l.foldl f b) = g b := by
  induction l generalizing b with
  | nil => rfl
  | cons a l ih => rw [List.foldl_cons, ih, h]

theorem length_modAt {α : Type} (l : List α) (i : Nat) (f : α → α) : (modAt l i f).length = l.length := by
  induction l generalizing i with
  | nil => rfl
  | cons a as ih => cases i <;> simp [modAt, ih]

theorem getElem?_modAt {α : Type} (l : List α) (i j : Nat) (f : α → α) : (modAt l i f)[j]? = if i = j then l[j]?.map f else l[j]? := by
  induction l generalizing i j with
  | nil => simp [modAt]
  | cons a as ih => cases i <;> cases j <;> simp [modAt, ih]

theorem getD_modAt_same {α : Type} (l : List α) (i : Nat) (f : α → α) (d : α) (h : i < l.length) : (modAt l i f).getD i d = f (l.getD i d) := by
  simp [List.getD, getElem?_modAt, h]

theorem getD_modAt_other {α : Type} (l : List α) {i j : Nat} (f : α → α) (d : α) (h : i ≠ j) : (modAt l i f).getD j d = l.getD j d := by
  simp [List.getD, getElem?_modAt, h]

end Sys2Proof.Machine
end

