-- ==== Sys2Proof/Laws/Regs.lean ====
section
/-!
SUPPORT. Register fields: what a field reads after a write, and that writing keeps the register file's canonical form.
-/
namespace Sys2Proof.Machine

/-- A field reads what was written to it, cut to its width; another field reads what it read. -/
theorem State.rd_wr (s : State) (f g : Field) (v : Nat) : (s.wr f v).rd g = if g.key = f.key then v % 2 ^ f.width else s.rd g := by
  simp only [State.rd, State.wr, look_put]
  split <;> simp

theorem State.rd_wr_same (s : State) (f : Field) (v : Nat) : (s.wr f v).rd f = v % 2 ^ f.width := by simp [State.rd_wr]
theorem State.rd_wr_other (s : State) {f g : Field} (v : Nat) (h : g.key ≠ f.key) : (s.wr f v).rd g = s.rd g := by simp [State.rd_wr, h]

/-- A committed field reads what was written to it. -/
theorem State.rdC_wrC (s : State) (f g : Field) (v : Nat) : (s.wrC f v).rdC g = if g.key = f.key then v % 2 ^ f.width else s.rdC g := by
  simp only [State.rdC, State.wrC, look_put]
  split <;> simp

@[simp] theorem State.rdC_wr (s : State) (f g : Field) (v : Nat) : (s.wr f v).rdC g = s.rdC g := rfl
@[simp] theorem State.rd_wrC (s : State) (f g : Field) (v : Nat) : (s.wrC f v).rd g = s.rd g := rfl
@[simp] theorem State.rd_raise (s : State) (e : Nat) (g : Field) : (s.raise e).rd g = s.rd g := rfl
@[simp] theorem State.rdC_raise (s : State) (e : Nat) (g : Field) : (s.raise e).rdC g = s.rdC g := rfl
@[simp] theorem State.rd_drawn (s : State) (n : Nat) (g : Field) : (s.drawn n).rd g = s.rd g := rfl
@[simp] theorem State.rdC_drawn (s : State) (n : Nat) (g : Field) : (s.drawn n).rdC g = s.rdC g := rfl
@[simp] theorem State.rd_pass (s : State) (n : Nat) (g : Field) : (s.pass n).rd g = s.rd g := rfl
@[simp] theorem State.rdC_pass (s : State) (n : Nat) (g : Field) : (s.pass n).rdC g = s.rdC g := rfl
@[simp] theorem State.rd_st (s : State) (a n v : Nat) (g : Field) : (s.st a n v).rd g = s.rd g := rfl
@[simp] theorem State.rd_stBytes (s : State) (a : Nat) (l : List Nat) (g : Field) : (s.stBytes a l).rd g = s.rd g := rfl
@[simp] theorem State.rd_memClear (s : State) (a b : Nat) (g : Field) : (s.memClear a b).rd g = s.rd g := rfl

/-- Setting, clearing and counting are writes. -/
theorem State.rd_set1 (s : State) (f g : Field) : (s.set1 f).rd g = if g.key = f.key then 1 % 2 ^ f.width else s.rd g := State.rd_wr s f g 1
theorem State.rd_clr (s : State) (f g : Field) : (s.clr f).rd g = if g.key = f.key then 0 else s.rd g := by simp [State.clr, State.rd_wr]
theorem State.rd_count (s : State) (f g : Field) (d : Nat) : (s.count f d).rd g = if g.key = f.key then satAdd f.width (s.rd f) d % 2 ^ f.width else s.rd g := State.rd_wr s f g _
theorem State.rd_inc (s : State) (f g : Field) : (s.inc f).rd g = if g.key = f.key then satAdd f.width (s.rd f) 1 % 2 ^ f.width else s.rd g := State.rd_count s f g 1

/-- A saturating count fits its field. -/
theorem satAdd_mod (w x d : Nat) : satAdd w x d % 2 ^ w = satAdd w x d := by
  have : satAdd w x d < 2 ^ w := by
    have h : 0 < 2 ^ w := Nat.two_pow_pos w
    simp only [satAdd]; omega
  exact Nat.mod_eq_of_lt this

/-- Writes keep the register files' keys rising. -/
theorem State.wr_keysRise (s : State) (f : Field) (v : Nat) (h : keysRise s.regs = true) : keysRise (s.wr f v).regs = true := keysRise_put _ _ _ h
theorem State.wrC_keysRise (s : State) (f : Field) (v : Nat) (h : keysRise s.com = true) : keysRise (s.wrC f v).com = true := keysRise_put _ _ _ h

end Sys2Proof.Machine
end

