-- ==== Sys2Proof/Laws/Fields.lean ====
section
/-!
SUPPORT. Which register fields the shared operations leave alone: a notice counts only in the mailboxes' drop counts, a health record only in the record
pointer besides.
-/
namespace Sys2Proof.Machine

/-- The field lies outside the mailboxes' registers. -/
def offMbx (f : Field) : Prop := f.key < 32 * 0x400D0100 ∨ 32 * 0x400D0200 ≤ f.key

theorem noticeTo_rd (m : Nat) (hm : m < 4) (r : MbRec) (s : State) (f : Field) (h : offMbx f) : (noticeTo m r s).rd f = s.rd f := by
  simp only [noticeTo]
  split
  · rfl
  · rw [State.rd_inc, if_neg]
    · rfl
    · intro he
      rw [offMbx, he] at h
      simp only [Reg.MB_DROPCNT_NOTDROP, Field.key] at h
      omega

theorem noticeTo_com (m : Nat) (r : MbRec) (s : State) : (noticeTo m r s).com = s.com := by simp only [noticeTo]; split <;> rfl

theorem foldl_mem_rd {α : Type} (l : List α) (g : State → α → State) (f : Field) (hg : ∀ t a, a ∈ l → (g t a).rd f = t.rd f) (s : State) : (l.foldl g s).rd f = s.rd f := by
  induction l generalizing s with
  | nil => rfl
  | cons a l ih =>
    simp only [List.foldl_cons]
    rw [ih (fun t b hb => hg t b (List.mem_cons_of_mem _ hb)), hg s a List.mem_cons_self]

/-- A notice leaves every register field outside the mailboxes as it was. -/
theorem notice_rd (code bit : Nat) (p : List Nat) (s : State) (f : Field) (h : offMbx f) : (notice code bit p s).rd f = s.rd f := by
  simp only [notice]
  split
  · refine foldl_mem_rd _ _ f (fun t m hm => ?_) s
    split
    · exact noticeTo_rd m (by simpa using hm) _ t f h
    · rfl
  · rfl

theorem timeStateNotice_rd (s : State) (f : Field) (h : offMbx f) : (timeStateNotice s).rd f = s.rd f := notice_rd _ _ _ _ _ h

/-- A change of stage writes FIRN_STAT.STATE alone outside the mailboxes (R68, R107). -/
theorem firnStage_rd (st : Stage) (s : State) (f : Field) (h : offMbx f) (hf : f.key ≠ Reg.FIRN_STAT_STATE.key) : (firnStage st s).rd f = s.rd f := by
  simp only [firnStage]
  split
  · rfl
  · rw [timeStateNotice_rd _ _ h]
    simp only [State.rd_raise, State.rd_wr, if_neg hf]
    rfl

/-- A new stage shows in FIRN_STAT.STATE (R68). -/
theorem firnStage_state (st : Stage) (s : State) (h : s.firn.stage ≠ st) : (firnStage st s).rd Reg.FIRN_STAT_STATE = st.code := by
  simp only [firnStage, if_neg h]
  rw [timeStateNotice_rd _ _ (by simp only [offMbx]; decide)]
  simp only [State.rd_raise, State.rd_wr, if_true]
  cases st <;> decide

/-- A health record leaves every register field but NEXT as it was outside the mailboxes (R662). -/
theorem healthPut_rd (a b c d e g : Nat) (s : State) (f : Field) (h : offMbx f) (hf : f.key ≠ Reg.AGE_STAT_NEXT.key) : (healthPut a b c d e g s).rd f = s.rd f := by
  simp only [healthPut, notice_rd _ _ _ _ _ h, State.rd_raise, State.rd_wr, if_neg hf]
  simp only [State.rd]

end Sys2Proof.Machine
end

