-- ==== Sys2Proof/Laws/Mem.lean ====
section
/-!
SUPPORT. Memory: a read after a write, and that every operation keeps the canonical form.
-/
namespace Sys2Proof.Machine

theorem memWfFrom_mono {a b : Nat} (h : a ≤ b) (m : List Host.Cell) (hm : memWfFrom b m = true) : memWfFrom a m = true := by
  cases m with
  | nil => rfl
  | cons p rest => obtain ⟨k, v⟩ := p; simp [memWfFrom] at hm ⊢; refine ⟨⟨by omega, hm.1.2⟩, hm.2⟩

/-- An address below every entry reads the default. -/
theorem memRd_low {lo a : Nat} (h : a < lo) (m : List Host.Cell) (hm : memWfFrom lo m = true) : memRd m a = memDefault := by
  induction m generalizing lo with
  | nil => rfl
  | cons p rest ih =>
    obtain ⟨k, v⟩ := p
    simp [memWfFrom] at hm
    have hk : k ≠ a := by omega
    simp only [memRd, hk, if_false]
    exact ih (by omega) hm.2

/-- A read at the address written gives the byte written. -/
theorem memRd_memWr_same (m : List Host.Cell) (a lo : Nat) (v : Byte) (h : memWfFrom lo m = true) : memRd (memWr m a v) a = v := by
  induction m generalizing lo with
  | nil => by_cases hv : v = memDefault <;> simp [memWr, memRd, hv]
  | cons p rest ih =>
    obtain ⟨k, w⟩ := p
    simp [memWfFrom] at h
    simp only [memWr]
    split
    · next hlt =>
      split
      · next hv =>
        have hk : k ≠ a := by omega
        simp only [memRd, hk, if_false, hv]
        exact memRd_low (by omega) rest h.2
      · simp [memRd]
    · split
      · next h1 h2 =>
        subst h2
        split
        · next hv => rw [hv]; exact memRd_low (by omega) rest h.2
        · simp [memRd]
      · next h1 h2 =>
        have hk : k ≠ a := by omega
        simp only [memRd, hk, if_false]
        exact ih (k + 1) h.2

/-- A read at another address gives what it gave before. -/
theorem memRd_memWr_other (m : List Host.Cell) {a b : Nat} (hab : b ≠ a) (v : Byte) : memRd (memWr m a v) b = memRd m b := by
  induction m with
  | nil => by_cases hv : v = memDefault <;> simp [memWr, memRd, hv]; intro h; exact absurd h.symm hab
  | cons p rest ih =>
    obtain ⟨k, w⟩ := p
    have hba : ¬ a = b := fun h => hab h.symm
    simp only [memWr]
    split
    · split
      · rfl
      · simp [memRd, hba]
    · split
      · next h1 h2 => subst h2; split <;> simp [memRd, hba]
      · simp only [memRd, ih]

theorem memWfFrom_memWr (lo a : Nat) (v : Byte) (m : List Host.Cell) (ha : lo ≤ a) (h : memWfFrom lo m = true) : memWfFrom lo (memWr m a v) = true := by
  induction m generalizing lo with
  | nil => by_cases hv : v = memDefault <;> simp [memWr, memWfFrom, hv, ha]
  | cons p rest ih =>
    obtain ⟨k, w⟩ := p
    simp [memWfFrom] at h
    simp only [memWr]
    split
    · split
      · simp [memWfFrom, h]
      · next hv => simp [memWfFrom, hv, ha, h]; omega
    · split
      · next h1 h2 =>
        subst h2
        split
        · exact memWfFrom_mono (by omega) rest h.2
        · next hv => simp [memWfFrom, hv, ha, h]
      · simp [memWfFrom, h]; exact ih (k + 1) (by omega) h.2

/-- Writing a byte keeps the canonical form. -/
theorem memWf_memWr (m : List Host.Cell) (a : Nat) (v : Byte) (h : memWf m = true) : memWf (memWr m a v) = true :=
  memWfFrom_memWr 0 a v m (Nat.zero_le a) h

/-- Writing bytes keeps the canonical form. -/
theorem memWf_memWrBytes (l : List Nat) (m : List Host.Cell) (a : Nat) (h : memWf m = true) : memWf (memWrBytes m a l) = true := by
  induction l generalizing m a with
  | nil => exact h
  | cons b bs ih => exact ih _ _ (memWf_memWr m a _ h)

theorem memWfFrom_filter (p : Host.Cell → Bool) (lo : Nat) (m : List Host.Cell) (h : memWfFrom lo m = true) : memWfFrom lo (m.filter p) = true := by
  induction m generalizing lo with
  | nil => rfl
  | cons q rest ih =>
    obtain ⟨k, v⟩ := q
    simp [memWfFrom] at h
    by_cases hp : p (k, v)
    · simp [List.filter, hp, memWfFrom, h.1, ih (k + 1) h.2]
    · simp [List.filter, hp]; exact ih lo (memWfFrom_mono (by omega) rest h.2)

/-- Losing bytes keeps the canonical form. -/
theorem memWf_filter (p : Host.Cell → Bool) (m : List Host.Cell) (h : memWf m = true) : memWf (m.filter p) = true := memWfFrom_filter p 0 m h

/-- Writing bytes leaves every address outside them alone. -/
theorem memRd_memWrBytes_other (l : List Nat) (m : List Host.Cell) (a b : Nat) (h : b < a ∨ a + l.length ≤ b) : memRd (memWrBytes m a l) b = memRd m b := by
  induction l generalizing m a with
  | nil => rfl
  | cons x xs ih =>
    simp only [List.length_cons] at h
    simp only [memWrBytes]
    rw [ih _ _ (by omega), memRd_memWr_other _ (by omega)]

/-- The state's memory operations keep the canonical form. -/
theorem State.st_memWf (s : State) (a n v : Nat) (h : memWf s.mem = true) : memWf (s.st a n v).mem = true := memWf_memWrBytes _ _ _ h
theorem State.stBytes_memWf (s : State) (a : Nat) (l : List Nat) (h : memWf s.mem = true) : memWf (s.stBytes a l).mem = true := memWf_memWrBytes _ _ _ h
theorem State.memClear_memWf (s : State) (lo hi : Nat) (h : memWf s.mem = true) : memWf (s.memClear lo hi).mem = true := memWf_filter _ _ h

/-- The bytes of a little-endian number. -/
theorem length_leBytes (n x : Nat) : (leBytes n x).length = n := by
  induction n generalizing x with
  | zero => rfl
  | succ n ih => simp [leBytes, ih]

/-- A stored number leaves every byte outside it alone. -/
theorem State.st_memRd_other (s : State) (a n v b : Nat) (h : b < a ∨ a + n ≤ b) : memRd (s.st a n v).mem b = memRd s.mem b :=
  memRd_memWrBytes_other _ _ _ _ (by rw [length_leBytes]; exact h)

theorem State.stBytes_memRd_other (s : State) (a : Nat) (l : List Nat) (b : Nat) (h : b < a ∨ a + l.length ≤ b) : memRd (s.stBytes a l).mem b = memRd s.mem b :=
  memRd_memWrBytes_other _ _ _ _ h

end Sys2Proof.Machine
end

