-- ==== Sys2Proof/Laws/Keeps.lean ====
section
/-!
SUPPORT. What every operation keeps: the queue, the fuses but for blown ones, and the canonical form of the register files and of memory. `Keeps s t` is reflexive and
transitive, and each operation of the model gives a state that keeps what its state had.
-/
namespace Sys2Proof.Machine

theorem fusesOnlyBlown_refl (a : Fuses) : fusesOnlyBlown a a := ⟨rfl, Nat.or_self _⟩
theorem fusesOnlyBlown_trans {a b c : Fuses} (h : fusesOnlyBlown a b) (h' : fusesOnlyBlown b c) : fusesOnlyBlown a c := by
  obtain ⟨h1, h2⟩ := h
  obtain ⟨h3, h4⟩ := h'
  refine ⟨by rw [h3, h1], ?_⟩
  rw [← h4, ← Nat.or_assoc, h2]

/-- `t` has the queue of `s` and its fuses but for revoke fuses blown, and is canonical where `s` is. -/
structure Keeps (s t : State) : Prop where
  queue : t.pending = s.pending
  fuses : fusesOnlyBlown s.fuses t.fuses
  canon : canonical s → canonical t

theorem Keeps.refl (s : State) : Keeps s s := ⟨rfl, fusesOnlyBlown_refl _, id⟩
theorem Keeps.trans {s t u : State} (h : Keeps s t) (h' : Keeps t u) : Keeps s u := ⟨h'.queue.trans h.queue, fusesOnlyBlown_trans h.fuses h'.fuses, fun c => h'.canon (h.canon c)⟩

variable {z0 : State}

@[simp] theorem keeps_ite (c : Prop) [Decidable c] (a b : State) : Keeps z0 (if c then a else b) ↔ (c → Keeps z0 a) ∧ (¬ c → Keeps z0 b) := by
  split <;> simp [*]

/-- A choice between two reads. -/
theorem keeps_ite_snd {α : Type} (c : Prop) [Decidable c] (a b : α × State) (ha : Keeps z0 a.2) (hb : Keeps z0 b.2) : Keeps z0 (if c then a else b).2 := by
  split <;> assumption

/-- A fold keeps what each of its steps keeps. -/
@[simp] theorem keeps_foldl {α : Type} (f : State → α → State) (l : List α) (s : State) (h : ∀ x a, Keeps z0 x → Keeps z0 (f x a)) (hs : Keeps z0 s) : Keeps z0 (l.foldl f s) :=
  foldl_keeps (Keeps z0) f l s h hs

@[simp] theorem wr_keeps (s : State) (f : Field) (v : Nat) (h : Keeps z0 s) : Keeps z0 (s.wr f v) :=
  h.trans ⟨rfl, fusesOnlyBlown_refl _, fun c => ⟨keysRise_put _ _ _ c.1, c.2.1, c.2.2⟩⟩
@[simp] theorem wrC_keeps (s : State) (f : Field) (v : Nat) (h : Keeps z0 s) : Keeps z0 (s.wrC f v) :=
  h.trans ⟨rfl, fusesOnlyBlown_refl _, fun c => ⟨c.1, keysRise_put _ _ _ c.2.1, c.2.2⟩⟩
@[simp] theorem st_keeps (s : State) (a n v : Nat) (h : Keeps z0 s) : Keeps z0 (s.st a n v) :=
  h.trans ⟨rfl, fusesOnlyBlown_refl _, fun c => ⟨c.1, c.2.1, memWf_memWrBytes _ _ _ c.2.2⟩⟩
@[simp] theorem stBytes_keeps (s : State) (a : Nat) (l : List Nat) (h : Keeps z0 s) : Keeps z0 (s.stBytes a l) :=
  h.trans ⟨rfl, fusesOnlyBlown_refl _, fun c => ⟨c.1, c.2.1, memWf_memWrBytes _ _ _ c.2.2⟩⟩
@[simp] theorem memClear_keeps (s : State) (lo hi : Nat) (h : Keeps z0 s) : Keeps z0 (s.memClear lo hi) :=
  h.trans ⟨rfl, fusesOnlyBlown_refl _, fun c => ⟨c.1, c.2.1, memWf_filter _ _ c.2.2⟩⟩

/-- Dropping entries of the register files. -/
theorem filter_keeps (s t : State) (p q : Nat × Nat → Bool) (h : Keeps z0 s) (h1 : t.pending = s.pending) (h2 : t.fuses = s.fuses) (h3 : t.mem = s.mem)
    (h4 : t.regs = s.regs.filter p) (h5 : t.com = s.com.filter q) : Keeps z0 t :=
  h.trans ⟨h1, by rw [h2]; exact fusesOnlyBlown_refl _, fun c => ⟨by rw [h4]; exact keysRise_filter _ _ c.1, by rw [h5]; exact keysRise_filter _ _ c.2.1, by rw [h3]; exact c.2.2⟩⟩

/-- An update of any other field. -/
theorem other_keeps (s t : State) (h : Keeps z0 s) (h1 : t.pending = s.pending) (h2 : t.fuses = s.fuses) (h3 : t.regs = s.regs) (h4 : t.com = s.com) (h5 : t.mem = s.mem) : Keeps z0 t :=
  h.trans ⟨h1, by rw [h2]; exact fusesOnlyBlown_refl _, fun c => ⟨by rw [h3]; exact c.1, by rw [h4]; exact c.2.1, by rw [h5]; exact c.2.2⟩⟩

/-- An update of any fields but the queue, the fuses, the register files and memory. -/
@[simp] theorem mk_keeps (s : State) (x_elapsed : Nat) (x_porAt : Nat) (x_freeCtr : Nat) (x_flight : List Nat) (x_firn : Firn) (x_cph : Cph) (x_tmrs : List Tmr) (x_rtc : Rtc) (x_mboxes : List Mbox) (x_heldNotices : List HeldNotice) (x_health : List HealthRec) (x_boots : Nat) (x_sysResetAt : Nat) (x_tables : List (Nat × TableObj)) (x_rfe : Rfe) (x_rxc : Rxc) (x_netCfg : List Nat) (x_msh : Msh) (x_evAt : List (Nat × Nat)) (x_lnk : Lnk) (x_wpt : List Wpt) (x_par : Par) (x_drc : Drc) (x_cores : List Core) (x_sig : List SigCore) (x_runner : Runner) (x_flc : Flc) (x_spx : List Spx) (x_lmp : Lmp) (x_lum : Lum) (x_co : Co) (x_age : Age) (x_mir : Mir) (x_runAt : Nat) (x_upd : UpdSt) (x_pwr : Pwr) (x_evt : Evt) (x_rdata : List (Nat × Nat)) (x_mbLast : Nat) (x_resetDue : Option Nat) (x_tblJobs : List TblJob) (x_jtag : Jtag) (h : Keeps z0 s) :
    Keeps z0 (State.mk s.pending x_elapsed x_porAt x_freeCtr s.regs s.com s.mem s.fuses x_flight x_firn x_cph x_tmrs x_rtc x_mboxes x_heldNotices x_health x_boots x_sysResetAt x_tables x_rfe x_rxc x_netCfg x_msh x_evAt x_lnk x_wpt x_par x_drc x_cores x_sig x_runner x_flc x_spx x_lmp x_lum x_co x_age x_mir x_runAt x_upd x_pwr x_evt x_rdata x_mbLast x_resetDue x_tblJobs x_jtag) := other_keeps s _ h rfl rfl rfl rfl rfl

@[simp] theorem onlyIf_keeps (b : Bool) (t s : State) (h1 : Keeps z0 t) (h2 : Keeps z0 s) : Keeps z0 (onlyIf b t s) := by
  unfold onlyIf; split <;> assumption

end Sys2Proof.Machine
end

