-- ==== Sys2Proof/Laws/KeepBase.lean ====
section
/-!
SUPPORT. What the shared operations, Glety's duties, the lamp port, the time engine, the votes and the radio front end keep: one lemma per operation, over `Keeps` (Laws/Keeps.lean).
-/
namespace Sys2Proof.Machine

@[simp] theorem State.commitFields_keeps (s : State) (fs : List Field) (z0 : State) (hk : Keeps z0 s) : Keeps z0 (State.commitFields s fs) := by
  unfold State.commitFields
  simp +contextual (maxDischargeDepth := 60) [*]

@[simp] theorem State.set1_keeps (s : State) (f : Field) (z0 : State) (hk : Keeps z0 s) : Keeps z0 (State.set1 s f) := by
  unfold State.set1
  simp +contextual (maxDischargeDepth := 60) [*]

@[simp] theorem State.clr_keeps (s : State) (f : Field) (z0 : State) (hk : Keeps z0 s) : Keeps z0 (State.clr s f) := by
  unfold State.clr
  simp +contextual (maxDischargeDepth := 60) [*]

@[simp] theorem State.count_keeps (s : State) (f : Field) (d : Nat) (z0 : State) (hk : Keeps z0 s) : Keeps z0 (State.count s f d) := by
  unfold State.count
  simp +contextual (maxDischargeDepth := 60) [*]

@[simp] theorem State.inc_keeps (s : State) (f : Field) (z0 : State) (hk : Keeps z0 s) : Keeps z0 (State.inc s f) := by
  unfold State.inc
  simp +contextual (maxDischargeDepth := 60) [*]

@[simp] theorem State.setBit_keeps (s : State) (f : Field) (i : Nat) (z0 : State) (hk : Keeps z0 s) : Keeps z0 (State.setBit s f i) := by
  unfold State.setBit
  simp +contextual (maxDischargeDepth := 60) [*]

@[simp] theorem State.clrBit_keeps (s : State) (f : Field) (i : Nat) (z0 : State) (hk : Keeps z0 s) : Keeps z0 (State.clrBit s f i) := by
  unfold State.clrBit
  simp +contextual (maxDischargeDepth := 60) [*]

@[simp] theorem State.raise_keeps (s : State) (src : Nat) (z0 : State) (hk : Keeps z0 s) : Keeps z0 (State.raise s src) := by
  unfold State.raise
  simp +contextual (maxDischargeDepth := 60) [*]

@[simp] theorem State.raiseAll_keeps (s : State) (l : List Nat) (z0 : State) (hk : Keeps z0 s) : Keeps z0 (State.raiseAll s l) := by
  unfold State.raiseAll
  simp +contextual (maxDischargeDepth := 60) [*]

@[simp] theorem State.drawn_keeps (s : State) (n : Nat) (z0 : State) (hk : Keeps z0 s) : Keeps z0 (State.drawn s n) := by
  unfold State.drawn
  simp +contextual (maxDischargeDepth := 60) [*]

@[simp] theorem State.pass_keeps (s : State) (dt : Nat) (z0 : State) (hk : Keeps z0 s) : Keeps z0 (State.pass s dt) := by
  unfold State.pass
  simp +contextual (maxDischargeDepth := 60) [*]

@[simp] theorem mbModify_keeps (m : Nat) (f : Mbox → Mbox) (s : State) (z0 : State) (hk : Keeps z0 s) : Keeps z0 (mbModify m f s) := by
  unfold mbModify
  simp +contextual (maxDischargeDepth := 60) [*]

@[simp] theorem noticeTo_keeps (m : Nat) (r : MbRec) (s : State) (z0 : State) (hk : Keeps z0 s) : Keeps z0 (noticeTo m r s) := by
  unfold noticeTo
  simp +contextual (maxDischargeDepth := 60) [*]

@[simp] theorem notice_keeps (code : Nat) (bit : Nat) (payload : List Nat) (s : State) (z0 : State) (hk : Keeps z0 s) : Keeps z0 (notice code bit payload s) := by
  unfold notice
  simp +contextual (maxDischargeDepth := 60) [*]

@[simp] theorem noticeFlush_keeps (s : State) (z0 : State) (hk : Keeps z0 s) : Keeps z0 (noticeFlush s) := by
  unfold noticeFlush
  simp +contextual (maxDischargeDepth := 60) [*]

@[simp] theorem opMod_keeps (m : Nat) (tag : Nat) (f : LiveOp → LiveOp) (s : State) (z0 : State) (hk : Keeps z0 s) : Keeps z0 (opMod m tag f s) := by
  unfold opMod
  simp +contextual (maxDischargeDepth := 60) [*]

@[simp] theorem opEnd_keeps (m : Nat) (tag : Nat) (rkind : Nat) (status : Nat) (payload : List Nat) (s : State) (z0 : State) (hk : Keeps z0 s) : Keeps z0 (opEnd m tag rkind status payload s) := by
  unfold opEnd
  (repeat' split) <;> simp +contextual (maxDischargeDepth := 60) [*]

@[simp] theorem alarm_keeps (f : Field) (v : Bool) (s : State) (z0 : State) (hk : Keeps z0 s) : Keeps z0 (alarm f v s) := by
  unfold alarm
  simp +contextual (maxDischargeDepth := 60) [*]

@[simp] theorem healthPut_keeps (severity : Nat) (area : Nat) (kind : Nat) (unit : Nat) (v1 : Nat) (v2 : Nat) (s : State) (z0 : State) (hk : Keeps z0 s) : Keeps z0 (healthPut severity area kind unit v1 v2 s) := by
  unfold healthPut
  dsimp only
  (repeat' split) <;> simp +contextual (maxDischargeDepth := 60) [*]

@[simp] theorem rmapWrite_keeps (s : State) (z0 : State) (hk : Keeps z0 s) : Keeps z0 (rmapWrite s) := by
  unfold rmapWrite
  dsimp only
  (repeat' split) <;> simp +contextual (maxDischargeDepth := 60) [*]

@[simp] theorem marginNotice_keeps (what : Nat) (unit : Nat) (old : Nat) (new : Nat) (s : State) (z0 : State) (hk : Keeps z0 s) : Keeps z0 (marginNotice what unit old new s) := by
  unfold marginNotice
  simp +contextual (maxDischargeDepth := 60) [*]

@[simp] theorem pwmRestart_keeps (s : State) (z0 : State) (hk : Keeps z0 s) : Keeps z0 (pwmRestart s) := by
  unfold pwmRestart
  dsimp only
  (repeat' split) <;> simp +contextual (maxDischargeDepth := 60) [*]

@[simp] theorem lmpCommit_keeps (s : State) (z0 : State) (hk : Keeps z0 s) : Keeps z0 (lmpCommit s) := by
  unfold lmpCommit
  dsimp only
  (repeat' split) <;> simp +contextual (maxDischargeDepth := 60) [*]

@[simp] theorem lmpApplyWrite_keeps (s : State) (z0 : State) (hk : Keeps z0 s) : Keeps z0 (lmpApplyWrite s) := by
  unfold lmpApplyWrite
  dsimp only
  (repeat' split) <;> simp +contextual (maxDischargeDepth := 60) [*]

@[simp] theorem lmpLaunch_keeps (ch : Nat) (s : State) (z0 : State) (hk : Keeps z0 s) : Keeps z0 (lmpLaunch ch s) := by
  unfold lmpLaunch
  dsimp only
  (repeat' split) <;> simp +contextual (maxDischargeDepth := 60) [*]

@[simp] theorem daliQueue_keeps (f : DaliFrame) (s : State) (z0 : State) (hk : Keeps z0 s) : Keeps z0 (daliQueue f s) := by
  unfold daliQueue
  dsimp only
  (repeat' split) <;> simp +contextual (maxDischargeDepth := 60) [*]

@[simp] theorem daliSend_keeps (s : State) (z0 : State) (hk : Keeps z0 s) : Keeps z0 (daliSend s) := by
  unfold daliSend
  simp +contextual (maxDischargeDepth := 60) [*]

@[simp] theorem daliTransmitEnd_keeps (collision : Bool) (s : State) (z0 : State) (hk : Keeps z0 s) : Keeps z0 (daliTransmitEnd collision s) := by
  unfold daliTransmitEnd
  dsimp only
  (repeat' split) <;> simp +contextual (maxDischargeDepth := 60) [*]

@[simp] theorem daliBackward_keeps (data : Nat) (err : Bool) (s : State) (z0 : State) (hk : Keeps z0 s) : Keeps z0 (daliBackward data err s) := by
  unfold daliBackward
  dsimp only
  (repeat' split) <;> simp +contextual (maxDischargeDepth := 60) [*]

@[simp] theorem daliEmpty_keeps (s : State) (z0 : State) (hk : Keeps z0 s) : Keeps z0 (daliEmpty s) := by
  unfold daliEmpty
  dsimp only
  (repeat' split) <;> simp +contextual (maxDischargeDepth := 60) [*]

@[simp] theorem photoSample_keeps (uv : Nat) (s : State) (z0 : State) (hk : Keeps z0 s) : Keeps z0 (photoSample uv s) := by
  unfold photoSample
  dsimp only
  (repeat' split) <;> simp +contextual (maxDischargeDepth := 60) [*]

@[simp] theorem meterLatch_keeps (last : Nat × Nat × Nat × Nat) (s : State) (z0 : State) (hk : Keeps z0 s) : Keeps z0 (meterLatch last s) := by
  unfold meterLatch
  dsimp only
  (repeat' split) <;> simp +contextual (maxDischargeDepth := 60) [*]

@[simp] theorem timeStateNotice_keeps (s : State) (z0 : State) (hk : Keeps z0 s) : Keeps z0 (timeStateNotice s) := by
  unfold timeStateNotice
  simp +contextual (maxDischargeDepth := 60) [*]

@[simp] theorem firnStage_keeps (st : Stage) (s : State) (z0 : State) (hk : Keeps z0 s) : Keeps z0 (firnStage st s) := by
  unfold firnStage
  dsimp only
  (repeat' split) <;> simp +contextual (maxDischargeDepth := 60) [*]

@[simp] theorem cmpFly_keeps (n : Nat) (at_ : Nat) (late : Bool) (s : State) (z0 : State) (hk : Keeps z0 s) : Keeps z0 (cmpFly n at_ late s) := by
  unfold cmpFly
  dsimp only
  (repeat' split) <;> simp +contextual (maxDischargeDepth := 60) [*]

@[simp] theorem cmpLateMatch_keeps (n : Nat) (s : State) (z0 : State) (hk : Keeps z0 s) : Keeps z0 (cmpLateMatch n s) := by
  unfold cmpLateMatch
  simp +contextual (maxDischargeDepth := 60) [*]

@[simp] theorem cmpLateAll_keeps (s : State) (z0 : State) (hk : Keeps z0 s) : Keeps z0 (cmpLateAll s) := by
  unfold cmpLateAll
  simp +contextual (maxDischargeDepth := 60) [*]

@[simp] theorem cmpMarkStepped_keeps (s : State) (z0 : State) (hk : Keeps z0 s) : Keeps z0 (cmpMarkStepped s) := by
  unfold cmpMarkStepped
  simp +contextual (maxDischargeDepth := 60) [*]

@[simp] theorem firnStep_keeps (d : Int) (s : State) (z0 : State) (hk : Keeps z0 s) : Keeps z0 (firnStep d s) := by
  unfold firnStep
  dsimp only
  (repeat' split) <;> simp +contextual (maxDischargeDepth := 60) [*]

@[simp] theorem coastEnter_keeps (s : State) (z0 : State) (hk : Keeps z0 s) : Keeps z0 (coastEnter s) := by
  unfold coastEnter
  dsimp only
  (repeat' split) <;> simp +contextual (maxDischargeDepth := 60) [*]

@[simp] theorem coastRestart_keeps (s : State) (z0 : State) (hk : Keeps z0 s) : Keeps z0 (coastRestart s) := by
  unfold coastRestart
  dsimp only
  (repeat' split) <;> simp +contextual (maxDischargeDepth := 60) [*]

@[simp] theorem coastAlign_keeps (s : State) (z0 : State) (hk : Keeps z0 s) : Keeps z0 (coastAlign s) := by
  unfold coastAlign
  dsimp only
  (repeat' split) <;> simp +contextual (maxDischargeDepth := 60) [*]

@[simp] theorem landCmp_keeps (n : Nat) (s : State) (z0 : State) (hk : Keeps z0 s) : Keeps z0 (landCmp n s) := by
  unfold landCmp
  dsimp only
  (repeat' split) <;> simp +contextual (maxDischargeDepth := 60) [*]

@[simp] theorem coastLaunch_keeps (n : Nat) (s : State) (z0 : State) (hk : Keeps z0 s) : Keeps z0 (coastLaunch n s) := by
  unfold coastLaunch
  simp +contextual (maxDischargeDepth := 60) [*]

@[simp] theorem firnTimeLo_keeps (ini : Nat) (s : State) (z0 : State) (hk : Keeps z0 s) : Keeps z0 (firnTimeLo ini s).2 := by
  unfold firnTimeLo
  dsimp only
  (repeat' split) <;> simp +contextual (maxDischargeDepth := 60) [*]

@[simp] theorem capTlo_keeps (ini : Nat) (k : Nat) (s : State) (z0 : State) (hk : Keeps z0 s) : Keeps z0 (capTlo ini k s).2 := by
  unfold capTlo
  dsimp only
  (repeat' split) <;> simp +contextual (maxDischargeDepth := 60) [*]

@[simp] theorem cmpArm_keeps (n : Nat) (s : State) (z0 : State) (hk : Keeps z0 s) : Keeps z0 (cmpArm n s) := by
  unfold cmpArm
  dsimp only
  (repeat' split) <;> simp +contextual (maxDischargeDepth := 60) [*]

@[simp] theorem cmpDisarm_keeps (n : Nat) (s : State) (z0 : State) (hk : Keeps z0 s) : Keeps z0 (cmpDisarm n s) := by
  unfold cmpDisarm
  simp +contextual (maxDischargeDepth := 60) [*]

@[simp] theorem cmpCommit_keeps (n : Nat) (s : State) (z0 : State) (hk : Keeps z0 s) : Keeps z0 (cmpCommit n s) := by
  unfold cmpCommit
  simp +contextual (maxDischargeDepth := 60) [*]

@[simp] theorem cmpCommitEnd_keeps (n : Nat) (s : State) (z0 : State) (hk : Keeps z0 s) : Keeps z0 (cmpCommitEnd n s) := by
  unfold cmpCommitEnd
  dsimp only
  (repeat' split) <;> simp +contextual (maxDischargeDepth := 60) [*]

@[simp] theorem comparatorCommit_keeps (n : Nat) (s : State) (z0 : State) (hk : Keeps z0 s) : Keeps z0 (comparatorCommit n s) := by
  unfold comparatorCommit
  dsimp only
  (repeat' split) <;> simp +contextual (maxDischargeDepth := 60) [*]

@[simp] theorem matchCmp_keeps (n : Nat) (s : State) (z0 : State) (hk : Keeps z0 s) : Keeps z0 (matchCmp n s) := by
  unfold matchCmp
  simp +contextual (maxDischargeDepth := 60) [*]

@[simp] theorem capApply_keeps (k : Nat) (s : State) (z0 : State) (hk : Keeps z0 s) : Keeps z0 (capApply k s) := by
  unfold capApply
  dsimp only
  (repeat' split) <;> simp +contextual (maxDischargeDepth := 60) [*]

@[simp] theorem captureApply_keeps (k : Nat) (s : State) (z0 : State) (hk : Keeps z0 s) : Keeps z0 (captureApply k s) := by
  unfold captureApply
  dsimp only
  (repeat' split) <;> simp +contextual (maxDischargeDepth := 60) [*]

@[simp] theorem capRecord_keeps (k : Nat) (t : Nat) (readNow : Bool) (s : State) (z0 : State) (hk : Keeps z0 s) : Keeps z0 (capRecord k t readNow s) := by
  unfold capRecord
  dsimp only
  (repeat' split) <;> simp +contextual (maxDischargeDepth := 60) [*]

@[simp] theorem firnRate_keeps (inc : Int) (s : State) (z0 : State) (hk : Keeps z0 s) : Keeps z0 (firnRate inc s) := by
  unfold firnRate
  dsimp only
  (repeat' split) <;> simp +contextual (maxDischargeDepth := 60) [*]

@[simp] theorem firnSlew_keeps (d : Int) (span : Nat) (s : State) (z0 : State) (hk : Keeps z0 s) : Keeps z0 (firnSlew d span s) := by
  unfold firnSlew
  dsimp only
  (repeat' split) <;> simp +contextual (maxDischargeDepth := 60) [*]

@[simp] theorem loopRun_keeps (e : Int) (s : State) (z0 : State) (hk : Keeps z0 s) : Keeps z0 (loopRun e s) := by
  unfold loopRun
  dsimp only
  (repeat' split) <;> simp +contextual (maxDischargeDepth := 60) [*]

@[simp] theorem sampleAccept_keeps (e : Int) (s : State) (z0 : State) (hk : Keeps z0 s) : Keeps z0 (sampleAccept e s) := by
  unfold sampleAccept
  dsimp only
  (repeat' split) <;> simp +contextual (maxDischargeDepth := 60) [*]

@[simp] theorem sampleReject_keeps (e : Int) (s : State) (z0 : State) (hk : Keeps z0 s) : Keeps z0 (sampleReject e s) := by
  unfold sampleReject
  dsimp only
  (repeat' split) <;> simp +contextual (maxDischargeDepth := 60) [*]

@[simp] theorem firnSample_keeps (e : Int) (s : State) (z0 : State) (hk : Keeps z0 s) : Keeps z0 (firnSample e s) := by
  unfold firnSample
  dsimp only
  (repeat' split) <;> simp +contextual (maxDischargeDepth := 60) [*]

@[simp] theorem holdoverEntry_keeps (s : State) (z0 : State) (hk : Keeps z0 s) : Keeps z0 (holdoverEntry s) := by
  unfold holdoverEntry
  dsimp only
  (repeat' split) <;> simp +contextual (maxDischargeDepth := 60) [*]

@[simp] theorem ppsPulseLoss_keeps (s : State) (z0 : State) (hk : Keeps z0 s) : Keeps z0 (ppsPulseLoss s) := by
  unfold ppsPulseLoss
  dsimp only
  (repeat' split) <;> simp +contextual (maxDischargeDepth := 60) [*]

@[simp] theorem ppsPulse_keeps (t : Nat) (s : State) (z0 : State) (hk : Keeps z0 s) : Keeps z0 (ppsPulse t s) := by
  unfold ppsPulse
  dsimp only
  (repeat' split) <;> simp +contextual (maxDischargeDepth := 60) [*]

@[simp] theorem firnReset_keeps (s : State) (z0 : State) (hk : Keeps z0 s) : Keeps z0 (firnReset s) := by
  unfold firnReset
  simp +contextual (maxDischargeDepth := 60) [*]

@[simp] theorem pwrMod_keeps (f : Pwr → Pwr) (s : State) (z0 : State) (hk : Keeps z0 s) : Keeps z0 (pwrMod f s) := by
  unfold pwrMod
  simp +contextual (maxDischargeDepth := 60) [*]

@[simp] theorem pwrChanged_keeps (s : State) (z0 : State) (hk : Keeps z0 s) : Keeps z0 (pwrChanged s) := by
  unfold pwrChanged
  simp +contextual (maxDischargeDepth := 60) [*]

@[simp] theorem pwrLog_keeps (dom : Nat) (req : Nat) (reason : Nat) (s : State) (z0 : State) (hk : Keeps z0 s) : Keeps z0 (pwrLog dom req reason s) := by
  unfold pwrLog
  dsimp only
  (repeat' split) <;> simp +contextual (maxDischargeDepth := 60) [*]

@[simp] theorem hsDrop_keeps (n : Nat) (s : State) (z0 : State) (hk : Keeps z0 s) : Keeps z0 (hsDrop n s) := by
  unfold hsDrop
  simp +contextual (maxDischargeDepth := 60) [*]

@[simp] theorem domRise1_keeps (n : Nat) (thaw : Bool) (s : State) (z0 : State) (hk : Keeps z0 s) : Keeps z0 (domRise1 n thaw s) := by
  unfold domRise1
  simp +contextual (maxDischargeDepth := 60) [*]

@[simp] theorem domRise_keeps (n : Nat) (thaw : Bool) (s : State) (z0 : State) (hk : Keeps z0 s) : Keeps z0 (domRise n thaw s) := by
  unfold domRise
  simp +contextual (maxDischargeDepth := 60) [*]

@[simp] theorem entryAbandon_keeps (n : Nat) (s : State) (z0 : State) (hk : Keeps z0 s) : Keeps z0 (entryAbandon n s) := by
  unfold entryAbandon
  (repeat' split) <;> simp +contextual (maxDischargeDepth := 60) [*]

@[simp] theorem voteChanged_keeps (n : Nat) (a1 : State) (z0 : State) (hk : Keeps z0 a1) : Keeps z0 (voteChanged n a1) := by
  unfold voteChanged
  dsimp only
  (repeat' split) <;> simp +contextual (maxDischargeDepth := 60) [*]

@[simp] theorem gVote_keeps (n : Nat) (v : Nat) (s : State) (z0 : State) (hk : Keeps z0 s) : Keeps z0 (gVote n v s) := by
  unfold gVote
  simp +contextual (maxDischargeDepth := 60) [*]

@[simp] theorem cVote_keeps (n : Nat) (v : Nat) (s : State) (z0 : State) (hk : Keeps z0 s) : Keeps z0 (cVote n v s) := by
  unfold cVote
  simp +contextual (maxDischargeDepth := 60) [*]

@[simp] theorem votesOn_keeps (n : Nat) (s : State) (z0 : State) (hk : Keeps z0 s) : Keeps z0 (votesOn n s) := by
  unfold votesOn
  simp +contextual (maxDischargeDepth := 60) [*]

@[simp] theorem rfeModPort_keeps (p : Nat) (f : Port → Port) (s : State) (z0 : State) (hk : Keeps z0 s) : Keeps z0 (rfeModPort p f s) := by
  unfold rfeModPort
  dsimp only
  (repeat' split) <;> simp +contextual (maxDischargeDepth := 60) [*]

@[simp] theorem txCapRefresh_keeps (s : State) (z0 : State) (hk : Keeps z0 s) : Keeps z0 (txCapRefresh s) := by
  unfold txCapRefresh
  dsimp only
  (repeat' split) <;> simp +contextual (maxDischargeDepth := 60) [*]

@[simp] theorem txCapChange_keeps (s : State) (z0 : State) (hk : Keeps z0 s) : Keeps z0 (txCapChange s) := by
  unfold txCapChange
  dsimp only
  (repeat' split) <;> simp +contextual (maxDischargeDepth := 60) [*]

@[simp] theorem synthTune_keeps (freq : Nat) (s : State) (z0 : State) (hk : Keeps z0 s) : Keeps z0 (synthTune freq s) := by
  unfold synthTune
  dsimp only
  (repeat' split) <;> simp +contextual (maxDischargeDepth := 60) [*]

@[simp] theorem synthOff_keeps (s : State) (z0 : State) (hk : Keeps z0 s) : Keeps z0 (synthOff s) := by
  unfold synthOff
  dsimp only
  (repeat' split) <;> simp +contextual (maxDischargeDepth := 60) [*]

@[simp] theorem fullLock_keeps (s : State) (z0 : State) (hk : Keeps z0 s) : Keeps z0 (fullLock s) := by
  unfold fullLock
  dsimp only
  (repeat' split) <;> simp +contextual (maxDischargeDepth := 60) [*]

@[simp] theorem retune_keeps (s : State) (z0 : State) (hk : Keeps z0 s) : Keeps z0 (retune s) := by
  unfold retune
  dsimp only
  (repeat' split) <;> simp +contextual (maxDischargeDepth := 60) [*]

@[simp] theorem vpaMeasure_keeps (mv : Nat) (s : State) (z0 : State) (hk : Keeps z0 s) : Keeps z0 (vpaMeasure mv s) := by
  unfold vpaMeasure
  dsimp only
  (repeat' split) <;> simp +contextual (maxDischargeDepth := 60) [*]

@[simp] theorem stEnter_keeps (id : Nat) (vpa : Nat) (s : State) (z0 : State) (hk : Keeps z0 s) : Keeps z0 (stEnter id vpa s) := by
  unfold stEnter
  dsimp only
  (repeat' split) <;> simp +contextual (maxDischargeDepth := 60) [*]

@[simp] theorem calAbandon_keeps (s : State) (z0 : State) (hk : Keeps z0 s) : Keeps z0 (calAbandon s) := by
  unfold calAbandon
  dsimp only
  (repeat' split) <;> simp +contextual (maxDischargeDepth := 60) [*]

@[simp] theorem stateRequest_keeps (target : Nat) (freq : Nat) (vpa : Nat) (s : State) (z0 : State) (hk : Keeps z0 s) : Keeps z0 (stateRequest target freq vpa s) := by
  unfold stateRequest
  dsimp only
  (repeat' split) <;> simp +contextual (maxDischargeDepth := 60) [*]

@[simp] theorem heldRequest_keeps (vpa : Nat) (s : State) (z0 : State) (hk : Keeps z0 s) : Keeps z0 (heldRequest vpa s) := by
  unfold heldRequest
  dsimp only
  (repeat' split) <;> simp +contextual (maxDischargeDepth := 60) [*]

@[simp] theorem autoReturn_keeps (vpa : Nat) (s : State) (z0 : State) (hk : Keeps z0 s) : Keeps z0 (autoReturn vpa s) := by
  unfold autoReturn
  dsimp only
  (repeat' split) <;> simp +contextual (maxDischargeDepth := 60) [*]

@[simp] theorem movingDone_keeps (s : State) (z0 : State) (hk : Keeps z0 s) : Keeps z0 (movingDone s) := by
  unfold movingDone
  dsimp only
  (repeat' split) <;> simp +contextual (maxDischargeDepth := 60) [*]

@[simp] theorem calibrationStart_keeps (kind : Nat) (port : Nat) (s : State) (z0 : State) (hk : Keeps z0 s) : Keeps z0 (calibrationStart kind port s) := by
  unfold calibrationStart
  dsimp only
  (repeat' split) <;> simp +contextual (maxDischargeDepth := 60) [*]

@[simp] theorem calibrationComplete_keeps (good : Bool) (s : State) (z0 : State) (hk : Keeps z0 s) : Keeps z0 (calibrationComplete good s) := by
  unfold calibrationComplete
  dsimp only
  (repeat' split) <;> simp +contextual (maxDischargeDepth := 60) [*]

@[simp] theorem calibrationOverdue_keeps (kind : Nat) (port : Nat) (s : State) (z0 : State) (hk : Keeps z0 s) : Keeps z0 (calibrationOverdue kind port s) := by
  unfold calibrationOverdue
  dsimp only
  (repeat' split) <;> simp +contextual (maxDischargeDepth := 60) [*]

@[simp] theorem dutyShow_keeps (s : State) (z0 : State) (hk : Keeps z0 s) : Keeps z0 (dutyShow s) := by
  unfold dutyShow
  dsimp only
  (repeat' split) <;> simp +contextual (maxDischargeDepth := 60) [*]

@[simp] theorem dutyAdd_keeps (i : Nat) (us : Nat) (s : State) (z0 : State) (hk : Keeps z0 s) : Keeps z0 (dutyAdd i us s) := by
  unfold dutyAdd
  dsimp only
  (repeat' split) <;> simp +contextual (maxDischargeDepth := 60) [*]

@[simp] theorem dutyBucket_keeps (s : State) (z0 : State) (hk : Keeps z0 s) : Keeps z0 (dutyBucket s) := by
  unfold dutyBucket
  dsimp only
  (repeat' split) <;> simp +contextual (maxDischargeDepth := 60) [*]

@[simp] theorem dwellAdd_keeps (i : Nat) (freq : Nat) (used : Nat) (us : Nat) (s : State) (z0 : State) (hk : Keeps z0 s) : Keeps z0 (dwellAdd i freq used us s) := by
  unfold dwellAdd
  dsimp only
  (repeat' split) <;> simp +contextual (maxDischargeDepth := 60) [*]

@[simp] theorem txOutcomeCount_keeps (o : Nat) (s : State) (z0 : State) (hk : Keeps z0 s) : Keeps z0 (txOutcomeCount o s) := by
  unfold txOutcomeCount
  (repeat' split) <;> simp +contextual (maxDischargeDepth := 60) [*]

@[simp] theorem lastTx_keeps (outcome : Nat) (clip : Bool) (port : Nat) (hold : Nat) (pcode : Nat) (s : State) (z0 : State) (hk : Keeps z0 s) : Keeps z0 (lastTx outcome clip port hold pcode s) := by
  unfold lastTx
  simp +contextual (maxDischargeDepth := 60) [*]

@[simp] theorem txRefuse_keeps (r : TxReq) (o : Nat) (s : State) (z0 : State) (hk : Keeps z0 s) : Keeps z0 (txRefuse r o s) := by
  unfold txRefuse
  dsimp only
  (repeat' split) <;> simp +contextual (maxDischargeDepth := 60) [*]

@[simp] theorem txSend_keeps (r : TxReq) (i : Nat) (outcome : Nat) (hold : Nat) (s : State) (z0 : State) (hk : Keeps z0 s) : Keeps z0 (txSend r i outcome hold s) := by
  unfold txSend
  dsimp only
  (repeat' split) <;> simp +contextual (maxDischargeDepth := 60) [*]

@[simp] theorem txEvaluate_keeps (r : TxReq) (busy : Bool) (lbt : Bool) (s : State) (z0 : State) (hk : Keeps z0 s) : Keeps z0 (txEvaluate r busy lbt s) := by
  unfold txEvaluate
  dsimp only
  (repeat' split) <;> simp +contextual (maxDischargeDepth := 60) [*]

@[simp] theorem txHoldRelease_keeps (busy : Bool) (s : State) (z0 : State) (hk : Keeps z0 s) : Keeps z0 (txHoldRelease busy s) := by
  unfold txHoldRelease
  (repeat' split) <;> simp +contextual (maxDischargeDepth := 60) [*]

@[simp] theorem txAbandon_keeps (s : State) (z0 : State) (hk : Keeps z0 s) : Keeps z0 (txAbandon s) := by
  unfold txAbandon
  (repeat' split) <;> simp +contextual (maxDischargeDepth := 60) [*]

@[simp] theorem setClass_keeps (p : Nat) (c : Nat) (s : State) (z0 : State) (hk : Keeps z0 s) : Keeps z0 (setClass p c s) := by
  unfold setClass
  dsimp only
  (repeat' split) <;> simp +contextual (maxDischargeDepth := 60) [*]

@[simp] theorem classMeasure_keeps (p : Nat) (rl : Nat) (s : State) (z0 : State) (hk : Keeps z0 s) : Keeps z0 (classMeasure p rl s) := by
  unfold classMeasure
  dsimp only
  (repeat' split) <;> simp +contextual (maxDischargeDepth := 60) [*]

@[simp] theorem tunerStep_keeps (p : Nat) (ser : Nat) (shu : Nat) (s : State) (z0 : State) (hk : Keeps z0 s) : Keeps z0 (tunerStep p ser shu s) := by
  unfold tunerStep
  simp +contextual (maxDischargeDepth := 60) [*]

@[simp] theorem tunerLearn_keeps (p : Nat) (freq : Nat) (s : State) (z0 : State) (hk : Keeps z0 s) : Keeps z0 (tunerLearn p freq s) := by
  unfold tunerLearn
  dsimp only
  (repeat' split) <;> simp +contextual (maxDischargeDepth := 60) [*]

@[simp] theorem tunerFirst_keeps (p : Nat) (freq : Nat) (s : State) (z0 : State) (hk : Keeps z0 s) : Keeps z0 (tunerFirst p freq s) := by
  unfold tunerFirst
  dsimp only
  (repeat' split) <;> simp +contextual (maxDischargeDepth := 60) [*]

@[simp] theorem ageBoGrow_keeps (p : Nat) (s : State) (z0 : State) (hk : Keeps z0 s) : Keeps z0 (ageBoGrow p s) := by
  unfold ageBoGrow
  dsimp only
  (repeat' split) <;> simp +contextual (maxDischargeDepth := 60) [*]

@[simp] theorem ageMeasure_keeps (p : Nat) (low : Bool) (s : State) (z0 : State) (hk : Keeps z0 s) : Keeps z0 (ageMeasure p low s) := by
  unfold ageMeasure
  dsimp only
  (repeat' split) <;> simp +contextual (maxDischargeDepth := 60) [*]

@[simp] theorem txFrameEnd_keeps (rl : Nat) (fwd : Nat) (ser : Nat) (shu : Nat) (low : Bool) (s : State) (z0 : State) (hk : Keeps z0 s) : Keeps z0 (txFrameEnd rl fwd ser shu low s) := by
  unfold txFrameEnd
  dsimp only
  (repeat' split) <;> simp +contextual (maxDischargeDepth := 60) [*]

@[simp] theorem mismatchFault_keeps (rl : Nat) (fwd : Nat) (s : State) (z0 : State) (hk : Keeps z0 s) : Keeps z0 (mismatchFault rl fwd s) := by
  unfold mismatchFault
  dsimp only
  (repeat' split) <;> simp +contextual (maxDischargeDepth := 60) [*]

@[simp] theorem faultHoldExpiry_keeps (p : Nat) (s : State) (z0 : State) (hk : Keeps z0 s) : Keeps z0 (faultHoldExpiry p s) := by
  unfold faultHoldExpiry
  simp +contextual (maxDischargeDepth := 60) [*]

@[simp] theorem tunerWriteBack_keeps (s : State) (z0 : State) (hk : Keeps z0 s) : Keeps z0 (tunerWriteBack s) := by
  unfold tunerWriteBack
  dsimp only
  (repeat' split) <;> simp +contextual (maxDischargeDepth := 60) [*]

end Sys2Proof.Machine
end

