-- ==== Sys2Proof/Laws/KeepRadio.lean ====
section
/-!
SUPPORT. What the receiver, the mesh, the link controller, joining and the wired port keep: one lemma per operation, over `Keeps` (Laws/Keeps.lean).
-/
namespace Sys2Proof.Machine

@[simp] theorem mdmShow_keeps (s : State) (z0 : State) (hk : Keeps z0 s) : Keeps z0 (mdmShow s) := by
  unfold mdmShow
  dsimp only
  (repeat' split) <;> simp +contextual (maxDischargeDepth := 60) [*]

@[simp] theorem decSet_keeps (d : Nat) (x : Dec) (s : State) (z0 : State) (hk : Keeps z0 s) : Keeps z0 (decSet d x s) := by
  unfold decSet
  dsimp only
  (repeat' split) <;> simp +contextual (maxDischargeDepth := 60) [*]

@[simp] theorem decFree_keeps (d : Nat) (s : State) (z0 : State) (hk : Keeps z0 s) : Keeps z0 (decFree d s) := by
  unfold decFree
  dsimp only
  (repeat' split) <;> simp +contextual (maxDischargeDepth := 60) [*]

@[simp] theorem poolAbandon_keeps (s : State) (z0 : State) (hk : Keeps z0 s) : Keeps z0 (poolAbandon s) := by
  unfold poolAbandon
  dsimp only
  (repeat' split) <;> simp +contextual (maxDischargeDepth := 60) [*]

@[simp] theorem winShow_keeps (s : State) (z0 : State) (hk : Keeps z0 s) : Keeps z0 (winShow s) := by
  unfold winShow
  dsimp only
  (repeat' split) <;> simp +contextual (maxDischargeDepth := 60) [*]

@[simp] theorem rxcMode_keeps (m : Nat) (s : State) (z0 : State) (hk : Keeps z0 s) : Keeps z0 (rxcMode m s) := by
  unfold rxcMode
  dsimp only
  (repeat' split) <;> simp +contextual (maxDischargeDepth := 60) [*]

@[simp] theorem rxcApply_keeps (s : State) (z0 : State) (hk : Keeps z0 s) : Keeps z0 (rxcApply s) := by
  unfold rxcApply
  dsimp only
  (repeat' split) <;> simp +contextual (maxDischargeDepth := 60) [*]

@[simp] theorem radioTransitionDone_keeps (s : State) (z0 : State) (hk : Keeps z0 s) : Keeps z0 (radioTransitionDone s) := by
  unfold radioTransitionDone
  simp +contextual (maxDischargeDepth := 60) [*]

@[simp] theorem stateTimeout_keeps (vpa : Nat) (s : State) (z0 : State) (hk : Keeps z0 s) : Keeps z0 (stateTimeout vpa s) := by
  unfold stateTimeout
  (repeat' split) <;> simp +contextual (maxDischargeDepth := 60) [*]

@[simp] theorem laneSet_keeps (i : Nat) (l : Lane) (s : State) (z0 : State) (hk : Keeps z0 s) : Keeps z0 (laneSet i l s) := by
  unfold laneSet
  dsimp only
  (repeat' split) <;> simp +contextual (maxDischargeDepth := 60) [*]

@[simp] theorem laneRetire_keeps (i : Nat) (s : State) (z0 : State) (hk : Keeps z0 s) : Keeps z0 (laneRetire i s) := by
  unfold laneRetire
  dsimp only
  (repeat' split) <;> simp +contextual (maxDischargeDepth := 60) [*]

@[simp] theorem laneCalibration_keeps (i : Nat) (q : Nat) (converged : Bool) (s : State) (z0 : State) (hk : Keeps z0 s) : Keeps z0 (laneCalibration i q converged s) := by
  unfold laneCalibration
  dsimp only
  (repeat' split) <;> simp +contextual (maxDischargeDepth := 60) [*]

@[simp] theorem laneExchange_keeps (i : Nat) (s : State) (z0 : State) (hk : Keeps z0 s) : Keeps z0 (laneExchange i s) := by
  unfold laneExchange
  dsimp only
  (repeat' split) <;> simp +contextual (maxDischargeDepth := 60) [*]

@[simp] theorem clipOverload_keeps (powerS : Nat) (powerW : Nat) (s : State) (z0 : State) (hk : Keeps z0 s) : Keeps z0 (clipOverload powerS powerW s) := by
  unfold clipOverload
  dsimp only
  (repeat' split) <;> simp +contextual (maxDischargeDepth := 60) [*]

@[simp] theorem gainStepUp_keeps (p : Nat) (s : State) (z0 : State) (hk : Keeps z0 s) : Keeps z0 (gainStepUp p s) := by
  unfold gainStepUp
  simp +contextual (maxDischargeDepth := 60) [*]

@[simp] theorem candLost_keeps (s : State) (z0 : State) (hk : Keeps z0 s) : Keeps z0 (candLost s) := by
  unfold candLost
  dsimp only
  (repeat' split) <;> simp +contextual (maxDischargeDepth := 60) [*]

@[simp] theorem preambleDetect_keeps (w : Nat) (bin : Nat) (mode : Nat) (energy : Nat) (again : Bool) (s : State) (z0 : State) (hk : Keeps z0 s) : Keeps z0 (preambleDetect w bin mode energy again s) := by
  unfold preambleDetect
  dsimp only
  (repeat' split) <;> simp +contextual (maxDischargeDepth := 60) [*]

@[simp] theorem candidateExpiry_keeps (i : Nat) (s : State) (z0 : State) (hk : Keeps z0 s) : Keeps z0 (candidateExpiry i s) := by
  unfold candidateExpiry
  dsimp only
  (repeat' split) <;> simp +contextual (maxDischargeDepth := 60) [*]

@[simp] theorem attach_keeps (d : Nat) (c : Cand) (r : Option Rsv) (s : State) (z0 : State) (hk : Keeps z0 s) : Keeps z0 (attach d c r s) := by
  unfold attach
  dsimp only
  (repeat' split) <;> simp +contextual (maxDischargeDepth := 60) [*]

@[simp] theorem serveReserved_keeps (d : Nat) (s : State) (z0 : State) (hk : Keeps z0 s) : Keeps z0 (serveReserved d s) := by
  unfold serveReserved
  dsimp only
  (repeat' split) <;> simp +contextual (maxDischargeDepth := 60) [*]

@[simp] theorem serveFree_keeps (d : Nat) (s : State) (z0 : State) (hk : Keeps z0 s) : Keeps z0 (serveFree d s) := by
  unfold serveFree
  (repeat' split) <;> simp +contextual (maxDischargeDepth := 60) [*]

@[simp] theorem allocation_keeps (s : State) (z0 : State) (hk : Keeps z0 s) : Keeps z0 (allocation s) := by
  unfold allocation
  dsimp only
  (repeat' split) <;> simp +contextual (maxDischargeDepth := 60) [*]

@[simp] theorem rsvMake_keeps (r : Rsv) (s : State) (z0 : State) (hk : Keeps z0 s) : Keeps z0 (rsvMake r s) := by
  unfold rsvMake
  dsimp only
  (repeat' split) <;> simp +contextual (maxDischargeDepth := 60) [*]

@[simp] theorem reservationStart_keeps (i : Nat) (s : State) (z0 : State) (hk : Keeps z0 s) : Keeps z0 (reservationStart i s) := by
  unfold reservationStart
  dsimp only
  (repeat' split) <;> simp +contextual (maxDischargeDepth := 60) [*]

@[simp] theorem reservationLapse_keeps (d : Nat) (s : State) (z0 : State) (hk : Keeps z0 s) : Keeps z0 (reservationLapse d s) := by
  unfold reservationLapse
  dsimp only
  (repeat' split) <;> simp +contextual (maxDischargeDepth := 60) [*]

@[simp] theorem frameDecoded_keeps (d : Nat) (r : RxIn) (room : Bool) (s : State) (z0 : State) (hk : Keeps z0 s) : Keeps z0 (frameDecoded d r room s) := by
  unfold frameDecoded
  dsimp only
  (repeat' split) <;> simp +contextual (maxDischargeDepth := 60) [*]

@[simp] theorem sfdTimeout_keeps (d : Nat) (s : State) (z0 : State) (hk : Keeps z0 s) : Keeps z0 (sfdTimeout d s) := by
  unfold sfdTimeout
  simp +contextual (maxDischargeDepth := 60) [*]

@[simp] theorem decodeAbandon_keeps (d : Nat) (s : State) (z0 : State) (hk : Keeps z0 s) : Keeps z0 (decodeAbandon d s) := by
  unfold decodeAbandon
  simp +contextual (maxDischargeDepth := 60) [*]

@[simp] theorem timestampMark_keeps (s : State) (z0 : State) (hk : Keeps z0 s) : Keeps z0 (timestampMark s) := by
  unfold timestampMark
  dsimp only
  (repeat' split) <;> simp +contextual (maxDischargeDepth := 60) [*]

@[simp] theorem rxcConfig_keeps (s : State) (z0 : State) (hk : Keeps z0 s) : Keeps z0 (rxcConfig s) := by
  unfold rxcConfig
  dsimp only
  (repeat' split) <;> simp +contextual (maxDischargeDepth := 60) [*]

@[simp] theorem State.raiseLim_keeps (s : State) (src : Nat) (n : Nat) (z0 : State) (hk : Keeps z0 s) : Keeps z0 (State.raiseLim s src n) := by
  unfold State.raiseLim
  (repeat' split) <;> simp +contextual (maxDischargeDepth := 60) [*]

@[simp] theorem egressMod_keeps (p : Nat) (f : Egress → Egress) (s : State) (z0 : State) (hk : Keeps z0 s) : Keeps z0 (egressMod p f s) := by
  unfold egressMod
  dsimp only
  (repeat' split) <;> simp +contextual (maxDischargeDepth := 60) [*]

@[simp] theorem mshShow_keeps (s : State) (z0 : State) (hk : Keeps z0 s) : Keeps z0 (mshShow s) := by
  unfold mshShow
  dsimp only
  (repeat' split) <;> simp +contextual (maxDischargeDepth := 60) [*]

@[simp] theorem enqueue_keeps (p : Nat) (hop : Hop) (cls : Nat) (src : Nat) (len : Nat) (data : List Nat) (deadline : Option Nat) (s : State) (z0 : State) (hk : Keeps z0 s) : Keeps z0 (enqueue p hop cls src len data deadline s) := by
  unfold enqueue
  dsimp only
  (repeat' split) <;> simp +contextual (maxDischargeDepth := 60) [*]

@[simp] theorem takeTokens_keeps (p : Nat) (f : QFrame) (s : State) (z0 : State) (hk : Keeps z0 s) : Keeps z0 (takeTokens p f s) := by
  unfold takeTokens
  dsimp only
  (repeat' split) <;> simp +contextual (maxDischargeDepth := 60) [*]

@[simp] theorem dropStale_keeps (p : Nat) (s : State) (z0 : State) (hk : Keeps z0 s) : Keeps z0 (dropStale p s) := by
  unfold dropStale
  dsimp only
  (repeat' split) <;> simp +contextual (maxDischargeDepth := 60) [*]

@[simp] theorem selectFrame_keeps (p : Nat) (hop : Hop) (s : State) (z0 : State) (hk : Keeps z0 s) : Keeps z0 (selectFrame p hop s).2 := by
  unfold selectFrame
  dsimp only
  (repeat' split) <;> simp +contextual (maxDischargeDepth := 60) [*]

@[simp] theorem queueAgeScan_keeps (s : State) (z0 : State) (hk : Keeps z0 s) : Keeps z0 (queueAgeScan s) := by
  unfold queueAgeScan
  dsimp only
  (repeat' split) <;> simp +contextual (maxDischargeDepth := 60) [*]

@[simp] theorem mshLinkDown_keeps (nb : Nb) (hop : Hop) (ports : List Nat) (s : State) (z0 : State) (hk : Keeps z0 s) : Keeps z0 (mshLinkDown nb hop ports s) := by
  unfold mshLinkDown
  dsimp only
  (repeat' split) <;> simp +contextual (maxDischargeDepth := 60) [*]

@[simp] theorem seenInsert_keeps (id : Nat) (s : State) (z0 : State) (hk : Keeps z0 s) : Keeps z0 (seenInsert id s) := by
  unfold seenInsert
  dsimp only
  (repeat' split) <;> simp +contextual (maxDischargeDepth := 60) [*]

@[simp] theorem seenExpiry_keeps (i : Nat) (s : State) (z0 : State) (hk : Keeps z0 s) : Keeps z0 (seenExpiry i s) := by
  unfold seenExpiry
  dsimp only
  (repeat' split) <;> simp +contextual (maxDischargeDepth := 60) [*]

@[simp] theorem routeLearn_keeps (dest : Nat) (nb : Nb) (s : State) (z0 : State) (hk : Keeps z0 s) : Keeps z0 (routeLearn dest nb s) := by
  unfold routeLearn
  dsimp only
  (repeat' split) <;> simp +contextual (maxDischargeDepth := 60) [*]

@[simp] theorem routeDrop_keeps (dest : Nat) (s : State) (z0 : State) (hk : Keeps z0 s) : Keeps z0 (routeDrop dest s) := by
  unfold routeDrop
  dsimp only
  (repeat' split) <;> simp +contextual (maxDischargeDepth := 60) [*]

@[simp] theorem routeExpiry_keeps (i : Nat) (s : State) (z0 : State) (hk : Keeps z0 s) : Keeps z0 (routeExpiry i s) := by
  unfold routeExpiry
  dsimp only
  (repeat' split) <;> simp +contextual (maxDischargeDepth := 60) [*]

@[simp] theorem police_keeps (src : Nat) (s : State) (z0 : State) (hk : Keeps z0 s) : Keeps z0 (police src s).2 := by
  unfold police
  dsimp only
  (repeat' split) <;> simp +contextual (maxDischargeDepth := 60) [*]

@[simp] theorem relayStart_keeps (id : Nat) (psdu : List Nat) (s : State) (z0 : State) (hk : Keeps z0 s) : Keeps z0 (relayStart id psdu s) := by
  unfold relayStart
  dsimp only
  (repeat' split) <;> simp +contextual (maxDischargeDepth := 60) [*]

@[simp] theorem relayBackoff_keeps (i : Nat) (s : State) (z0 : State) (hk : Keeps z0 s) : Keeps z0 (relayBackoff i s) := by
  unfold relayBackoff
  dsimp only
  (repeat' split) <;> simp +contextual (maxDischargeDepth := 60) [*]

@[simp] theorem relayDeadline_keeps (p : Nat) (i : Nat) (s : State) (z0 : State) (hk : Keeps z0 s) : Keeps z0 (relayDeadline p i s) := by
  unfold relayDeadline
  simp +contextual (maxDischargeDepth := 60) [*]

@[simp] theorem mshConfig_keeps (old : List Nat) (s : State) (z0 : State) (hk : Keeps z0 s) : Keeps z0 (mshConfig old s) := by
  unfold mshConfig
  dsimp only
  (repeat' split) <;> simp +contextual (maxDischargeDepth := 60) [*]

@[simp] theorem epochLoad_keeps (ep : Nat) (fr : Nat) (key : List Nat) (s : State) (z0 : State) (hk : Keeps z0 s) : Keeps z0 (epochLoad ep fr key s) := by
  unfold epochLoad
  dsimp only
  (repeat' split) <;> simp +contextual (maxDischargeDepth := 60) [*]

@[simp] theorem keymatLoad_keeps (m : List Nat) (s : State) (z0 : State) (hk : Keeps z0 s) : Keeps z0 (keymatLoad m s) := by
  unfold keymatLoad
  dsimp only
  (repeat' split) <;> simp +contextual (maxDischargeDepth := 60) [*]

@[simp] theorem planFrame_keeps (t : Nat) (freq : Nat) (mode : Nat) (ack : Bool) (psdu : List Nat) (s : State) (z0 : State) (hk : Keeps z0 s) : Keeps z0 (planFrame t freq mode ack psdu s) := by
  unfold planFrame
  dsimp only
  (repeat' split) <;> simp +contextual (maxDischargeDepth := 60) [*]

@[simp] theorem expectFrame_keeps (t : Nat) (g : Nat) (freq : Nat) (mode : Nat) (s : State) (z0 : State) (hk : Keeps z0 s) : Keeps z0 (expectFrame t g freq mode s) := by
  unfold expectFrame
  (repeat' split) <;> simp +contextual (maxDischargeDepth := 60) [*]

@[simp] theorem guardUse_keeps (g : Nat) (cap : Nat) (s : State) (z0 : State) (hk : Keeps z0 s) : Keeps z0 (guardUse g cap s).2 := by
  unfold guardUse
  dsimp only
  (repeat' split) <;> simp +contextual (maxDischargeDepth := 60) [*]

@[simp] theorem connSet_keeps (c : Conn) (s : State) (z0 : State) (hk : Keeps z0 s) : Keeps z0 (connSet c s) := by
  unfold connSet
  dsimp only
  (repeat' split) <;> simp +contextual (maxDischargeDepth := 60) [*]

@[simp] theorem lnkShow_keeps (s : State) (z0 : State) (hk : Keeps z0 s) : Keeps z0 (lnkShow s) := by
  unfold lnkShow
  simp +contextual (maxDischargeDepth := 60) [*]

@[simp] theorem connFrame_keeps (s : State) (c : Conn) (payload : List Nat) (ctrl : Bool) (md : Bool) (z0 : State) (hk : Keeps z0 s) : Keeps z0 (connFrame s c payload ctrl md).2 := by
  unfold connFrame
  dsimp only
  (repeat' split) <;> simp +contextual (maxDischargeDepth := 60) [*]

@[simp] theorem connSelect_keeps (c : Conn) (s : State) (z0 : State) (hk : Keeps z0 s) : Keeps z0 (connSelect c s).2 := by
  unfold connSelect
  have h1 := selectFrame_keeps c.band (connHop c) s z0 hk
  split
  · next h => rw [h] at h1; exact h1
  · next t h =>
    rw [h] at h1
    split
    · exact selectFrame_keeps _ _ _ _ h1
    · exact h1

@[simp] theorem nextPdu_keeps (c : Conn) (t : Nat) (opening : Bool) (s : State) (z0 : State) (hk : Keeps z0 s) : Keeps z0 (nextPdu c t opening s).2.2 := by
  unfold nextPdu
  split
  · split <;> simp (maxDischargeDepth := 60) [hk]
  · have h1 := connSelect_keeps c s z0 hk
    dsimp only
    split
    · split
      · next h => rw [h] at h1; exact h1
      · next h => rw [h] at h1; exact h1
    · exact other_keeps s _ hk rfl rfl rfl rfl rfl

@[simp] theorem connSend_keeps (id : Nat) (t : Nat) (opening : Bool) (s : State) (z0 : State) (hk : Keeps z0 s) : Keeps z0 (connSend id t opening s) := by
  unfold connSend
  dsimp only
  (repeat' split) <;> simp +contextual (maxDischargeDepth := 60) [*]

@[simp] theorem connDrop_keeps (id : Nat) (reason : Nat) (s : State) (z0 : State) (hk : Keeps z0 s) : Keeps z0 (connDrop id reason s) := by
  unfold connDrop
  (repeat' split) <;> simp +contextual (maxDischargeDepth := 60) [*]

@[simp] theorem eventEnd_keeps (id : Nat) (missed : Bool) (s : State) (z0 : State) (hk : Keeps z0 s) : Keeps z0 (eventEnd id missed s) := by
  unfold eventEnd
  dsimp only
  (repeat' split) <;> simp +contextual (maxDischargeDepth := 60) [*]

@[simp] theorem connectionEvent_keeps (id : Nat) (phase : Nat) (lost : Bool) (s : State) (z0 : State) (hk : Keeps z0 s) : Keeps z0 (connectionEvent id phase lost s) := by
  unfold connectionEvent
  dsimp only
  (repeat' split) <;> simp +contextual (maxDischargeDepth := 60) [*]

@[simp] theorem pathExchange_keeps (t1 : Nat) (t2 : Nat) (t3 : Nat) (t4 : Nat) (s : State) (z0 : State) (hk : Keeps z0 s) : Keeps z0 (pathExchange t1 t2 t3 t4 s) := by
  unfold pathExchange
  dsimp only
  (repeat' split) <;> simp +contextual (maxDischargeDepth := 60) [*]

@[simp] theorem radioSample_keeps (peer : Nat) (ts : Nat) (txts : Nat) (lowQ : Bool) (s : State) (z0 : State) (hk : Keeps z0 s) : Keeps z0 (radioSample peer ts txts lowQ s) := by
  unfold radioSample
  dsimp only
  (repeat' split) <;> simp +contextual (maxDischargeDepth := 60) [*]

@[simp] theorem ctlPdu_keeps (id : Nat) (op : Nat) (body : List Nat) (ts : Nat) (lowQ : Bool) (s : State) (z0 : State) (hk : Keeps z0 s) : Keeps z0 (ctlPdu id op body ts lowQ s) := by
  unfold ctlPdu
  dsimp only
  (repeat' split) <;> simp +contextual (maxDischargeDepth := 60) [*]

@[simp] theorem ctlPdus_keeps (id : Nat) (ts : Nat) (lowQ : Bool) (a3 : Nat) (a4 : List Nat) (a5 : State) (z0 : State) (hk : Keeps z0 a5) : Keeps z0 (ctlPdus id ts lowQ a3 a4 a5) := by
  induction a3 generalizing a4 a5 with
  | zero => exact hk
  | succ n ih => unfold ctlPdus; split <;> simp (maxDischargeDepth := 60) [*]

@[simp] theorem connUp_keeps (id : Nat) (s : State) (z0 : State) (hk : Keeps z0 s) : Keeps z0 (connUp id s) := by
  unfold connUp
  dsimp only
  (repeat' split) <;> simp +contextual (maxDischargeDepth := 60) [*]

@[simp] theorem connAnswer_keeps (c : Conn) (t : Nat) (md : Bool) (s : State) (z0 : State) (hk : Keeps z0 s) : Keeps z0 (connAnswer c t md s) := by
  unfold connAnswer
  dsimp only
  (repeat' split) <;> simp +contextual (maxDischargeDepth := 60) [*]

@[simp] theorem connReceive_keeps (id : Nat) (r : RxRec) (s : State) (z0 : State) (hk : Keeps z0 s) : Keeps z0 (connReceive id r s).2.2 := by
  unfold connReceive
  dsimp only
  (repeat' split) <;> simp +contextual (maxDischargeDepth := 60) [*]

@[simp] theorem connMicFail_keeps (id : Nat) (s : State) (z0 : State) (hk : Keeps z0 s) : Keeps z0 (connMicFail id s) := by
  unfold connMicFail
  (repeat' split) <;> simp +contextual (maxDischargeDepth := 60) [*]

@[simp] theorem statusQueue_keeps (tag : Nat) (t : Nat) (lateby : Nat) (s : State) (z0 : State) (hk : Keeps z0 s) : Keeps z0 (statusQueue tag t lateby s) := by
  unfold statusQueue
  dsimp only
  (repeat' split) <;> simp +contextual (maxDischargeDepth := 60) [*]

@[simp] theorem supervisionTimeout_keeps (id : Nat) (s : State) (z0 : State) (hk : Keeps z0 s) : Keeps z0 (supervisionTimeout id s) := by
  unfold supervisionTimeout
  (repeat' split) <;> simp +contextual (maxDischargeDepth := 60) [*]

@[simp] theorem slotMove_keeps (i : Nat) (s : State) (z0 : State) (hk : Keeps z0 s) : Keeps z0 (slotMove i s) := by
  unfold slotMove
  refine keeps_foldl _ _ _ (fun x a h => ?_) hk
  split <;> simp (maxDischargeDepth := 60) [h]

@[simp] theorem sequencerFault_keeps (p : Nat) (s : State) (z0 : State) (hk : Keeps z0 s) : Keeps z0 (sequencerFault p s) := by
  unfold sequencerFault
  dsimp only
  (repeat' split) <;> simp +contextual (maxDischargeDepth := 60) [*]

@[simp] theorem beaconSend_keeps (m : Nat) (t : Nat) (freq : Nat) (mode : Nat) (s : State) (z0 : State) (hk : Keeps z0 s) : Keeps z0 (beaconSend m t freq mode s) := by
  unfold beaconSend
  (repeat' split) <;> simp +contextual (maxDischargeDepth := 60) [*]

@[simp] theorem beaconTx_keeps (m : Nat) (s : State) (z0 : State) (hk : Keeps z0 s) : Keeps z0 (beaconTx m s) := by
  unfold beaconTx
  dsimp only
  (repeat' split) <;> simp +contextual (maxDischargeDepth := 60) [*]

@[simp] theorem trackGuard_keeps (s : State) (z0 : State) (hk : Keeps z0 s) : Keeps z0 (trackGuard s).2 := by
  unfold trackGuard
  dsimp only
  (repeat' split) <;> simp +contextual (maxDischargeDepth := 60) [*]

@[simp] theorem trackNext_keeps (s : State) (z0 : State) (hk : Keeps z0 s) : Keeps z0 (trackNext s) := by
  unfold trackNext
  dsimp only
  (repeat' split) <;> simp +contextual (maxDischargeDepth := 60) [*]

@[simp] theorem beaconMiss_keeps (s : State) (z0 : State) (hk : Keeps z0 s) : Keeps z0 (beaconMiss s) := by
  unfold beaconMiss
  dsimp only
  (repeat' split) <;> simp +contextual (maxDischargeDepth := 60) [*]

@[simp] theorem setParent_keeps (a : Nat) (s : State) (z0 : State) (hk : Keeps z0 s) : Keeps z0 (setParent a s) := by
  unfold setParent
  dsimp only
  (repeat' split) <;> simp +contextual (maxDischargeDepth := 60) [*]

@[simp] theorem netNotice_keeps (event : Nat) (s : State) (z0 : State) (hk : Keeps z0 s) : Keeps z0 (netNotice event s) := by
  unfold netNotice
  simp +contextual (maxDischargeDepth := 60) [*]

@[simp] theorem changeParent_keeps (a : Nat) (s : State) (z0 : State) (hk : Keeps z0 s) : Keeps z0 (changeParent a s) := by
  unfold changeParent
  simp +contextual (maxDischargeDepth := 60) [*]

@[simp] theorem parentReselect_keeps (s : State) (z0 : State) (hk : Keeps z0 s) : Keeps z0 (parentReselect s) := by
  unfold parentReselect
  (repeat' split) <;> simp +contextual (maxDischargeDepth := 60) [*]

@[simp] theorem beaconReceive_keeps (r : RxRec) (s : State) (z0 : State) (hk : Keeps z0 s) : Keeps z0 (beaconReceive r s) := by
  unfold beaconReceive
  dsimp only
  (repeat' split) <;> simp +contextual (maxDischargeDepth := 60) [*]

@[simp] theorem joinReqSend_keeps (t : Nat) (s : State) (z0 : State) (hk : Keeps z0 s) : Keeps z0 (joinReqSend t s) := by
  unfold joinReqSend
  dsimp only
  (repeat' split) <;> simp +contextual (maxDischargeDepth := 60) [*]

@[simp] theorem candFail_keeps (a : Nat) (s : State) (z0 : State) (hk : Keeps z0 s) : Keeps z0 (candFail a s) := by
  unfold candFail
  dsimp only
  (repeat' split) <;> simp +contextual (maxDischargeDepth := 60) [*]

@[simp] theorem joinTimeout_keeps (s : State) (z0 : State) (hk : Keeps z0 s) : Keeps z0 (joinTimeout s) := by
  unfold joinTimeout
  dsimp only
  (repeat' split) <;> simp +contextual (maxDischargeDepth := 60) [*]

@[simp] theorem joinRspReceive_keeps (r : RxRec) (s : State) (z0 : State) (hk : Keeps z0 s) : Keeps z0 (joinRspReceive r s) := by
  unfold joinRspReceive
  dsimp only
  (repeat' split) <;> simp +contextual (maxDischargeDepth := 60) [*]

@[simp] theorem joinRspSend_keeps (longid : Nat) (status : Nat) (short : Nat) (waddr : Nat) (keymat : List Nat) (s : State) (z0 : State) (hk : Keeps z0 s) : Keeps z0 (joinRspSend longid status short waddr keymat s) := by
  unfold joinRspSend
  dsimp only
  (repeat' split) <;> simp +contextual (maxDischargeDepth := 60) [*]

@[simp] theorem connReqSend_keeps (t : Nat) (s : State) (z0 : State) (hk : Keeps z0 s) : Keeps z0 (connReqSend t s) := by
  unfold connReqSend
  dsimp only
  (repeat' split) <;> simp +contextual (maxDischargeDepth := 60) [*]

@[simp] theorem connectFail_keeps (s : State) (z0 : State) (hk : Keeps z0 s) : Keeps z0 (connectFail s) := by
  unfold connectFail
  dsimp only
  (repeat' split) <;> simp +contextual (maxDischargeDepth := 60) [*]

@[simp] theorem connReqReceive_keeps (r : RxRec) (s : State) (z0 : State) (hk : Keeps z0 s) : Keeps z0 (connReqReceive r s) := by
  unfold connReqReceive
  dsimp only
  (repeat' split) <;> simp +contextual (maxDischargeDepth := 60) [*]

@[simp] theorem connIndReceive_keeps (r : RxRec) (s : State) (z0 : State) (hk : Keeps z0 s) : Keeps z0 (connIndReceive r s) := by
  unfold connIndReceive
  dsimp only
  (repeat' split) <;> simp +contextual (maxDischargeDepth := 60) [*]

@[simp] theorem driftRecoveryListen_keeps (s : State) (z0 : State) (hk : Keeps z0 s) : Keeps z0 (driftRecoveryListen s) := by
  unfold driftRecoveryListen
  dsimp only
  (repeat' split) <;> simp +contextual (maxDischargeDepth := 60) [*]

@[simp] theorem recoverHeard_keeps (peer : Nat) (s : State) (z0 : State) (hk : Keeps z0 s) : Keeps z0 (recoverHeard peer s) := by
  unfold recoverHeard
  dsimp only
  (repeat' split) <;> simp +contextual (maxDischargeDepth := 60) [*]

@[simp] theorem childRecordExpiry_keeps (i : Nat) (s : State) (z0 : State) (hk : Keeps z0 s) : Keeps z0 (childRecordExpiry i s) := by
  unfold childRecordExpiry
  dsimp only
  (repeat' split) <;> simp +contextual (maxDischargeDepth := 60) [*]

@[simp] theorem wurConfig_keeps (s : State) (z0 : State) (hk : Keeps z0 s) : Keeps z0 (wurConfig s) := by
  unfold wurConfig
  (repeat' split) <;> simp +contextual (maxDischargeDepth := 60) [*]

@[simp] theorem resumeBeacon_keeps (i : Nat) (s : State) (z0 : State) (hk : Keeps z0 s) : Keeps z0 (resumeBeacon i s) := by
  unfold resumeBeacon
  dsimp only
  (repeat' split) <;> simp +contextual (maxDischargeDepth := 60) [*]

@[simp] theorem wakePatternSend_keeps (peer : Nat) (t : Nat) (s : State) (z0 : State) (hk : Keeps z0 s) : Keeps z0 (wakePatternSend peer t s) := by
  unfold wakePatternSend
  dsimp only
  (repeat' split) <;> simp +contextual (maxDischargeDepth := 60) [*]

@[simp] theorem wakeConnFrame_keeps (s : State) (z0 : State) (hk : Keeps z0 s) : Keeps z0 (wakeConnFrame s) := by
  unfold wakeConnFrame
  dsimp only
  (repeat' split) <;> simp +contextual (maxDischargeDepth := 60) [*]

@[simp] theorem wakeReply_keeps (id : Nat) (s : State) (z0 : State) (hk : Keeps z0 s) : Keeps z0 (wakeReply id s) := by
  unfold wakeReply
  dsimp only
  (repeat' split) <;> simp +contextual (maxDischargeDepth := 60) [*]

@[simp] theorem cfgApply_keeps (obj : List Nat) (s : State) (z0 : State) (hk : Keeps z0 s) : Keeps z0 (cfgApply obj s) := by
  unfold cfgApply
  dsimp only
  (repeat' split) <;> simp +contextual (maxDischargeDepth := 60) [*]

@[simp] theorem floodSend_keeps (band : Nat) (t : Nat) (psdu : List Nat) (s : State) (z0 : State) (hk : Keeps z0 s) : Keeps z0 (floodSend band t psdu s) := by
  unfold floodSend
  dsimp only
  (repeat' split) <;> simp +contextual (maxDischargeDepth := 60) [*]

@[simp] theorem wptMod_keeps (p : Nat) (f : Wpt → Wpt) (s : State) (z0 : State) (hk : Keeps z0 s) : Keeps z0 (wptMod p f s) := by
  unfold wptMod
  simp +contextual (maxDischargeDepth := 60) [*]

@[simp] theorem wptSend_keeps (p : Nat) (f : List Nat) (s : State) (z0 : State) (hk : Keeps z0 s) : Keeps z0 (wptSend p f s) := by
  unfold wptSend
  simp +contextual (maxDischargeDepth := 60) [*]

@[simp] theorem timeParentChoose_keeps (s : State) (z0 : State) (hk : Keeps z0 s) : Keeps z0 (timeParentChoose s) := by
  unfold timeParentChoose
  dsimp only
  (repeat' split) <;> simp +contextual (maxDischargeDepth := 60) [*]

@[simp] theorem upShow_keeps (s : State) (z0 : State) (hk : Keeps z0 s) : Keeps z0 (upShow s) := by
  unfold upShow
  simp +contextual (maxDischargeDepth := 60) [*]

@[simp] theorem upSet_keeps (u : Option Nat) (s : State) (z0 : State) (hk : Keeps z0 s) : Keeps z0 (upSet u s) := by
  unfold upSet
  dsimp only
  (repeat' split) <;> simp +contextual (maxDischargeDepth := 60) [*]

@[simp] theorem upLost_keeps (p : Nat) (s : State) (z0 : State) (hk : Keeps z0 s) : Keeps z0 (upLost p s) := by
  unfold upLost
  refine mshShow_keeps _ _ (keeps_foldl _ _ _ (fun x a h => ?_) (by simp (maxDischargeDepth := 60) [hk]))
  split <;> simp (maxDischargeDepth := 60) [h]

@[simp] theorem unlink_keeps (p : Nat) (s : State) (z0 : State) (hk : Keeps z0 s) : Keeps z0 (unlink p s) := by
  unfold unlink
  dsimp only
  (repeat' split) <;> simp +contextual (maxDischargeDepth := 60) [*]

@[simp] theorem linkDown_keeps (p : Nat) (s : State) (z0 : State) (hk : Keeps z0 s) : Keeps z0 (linkDown p s) := by
  unfold linkDown
  dsimp only
  (repeat' split) <;> simp +contextual (maxDischargeDepth := 60) [*]

@[simp] theorem negotiate_keeps (p : Nat) (peerBoth : Bool) (s : State) (z0 : State) (hk : Keeps z0 s) : Keeps z0 (negotiate p peerBoth s) := by
  unfold negotiate
  dsimp only
  (repeat' split) <;> simp +contextual (maxDischargeDepth := 60) [*]

@[simp] theorem train_keeps (p : Nat) (polinv : Bool) (s : State) (z0 : State) (hk : Keeps z0 s) : Keeps z0 (train p polinv s) := by
  unfold train
  dsimp only
  (repeat' split) <;> simp +contextual (maxDischargeDepth := 60) [*]

@[simp] theorem wiredPhaseTimeout_keeps (p : Nat) (s : State) (z0 : State) (hk : Keeps z0 s) : Keeps z0 (wiredPhaseTimeout p s) := by
  unfold wiredPhaseTimeout
  simp +contextual (maxDischargeDepth := 60) [*]

@[simp] theorem wiredBeaconSilence_keeps (p : Nat) (s : State) (z0 : State) (hk : Keeps z0 s) : Keeps z0 (wiredBeaconSilence p s) := by
  unfold wiredBeaconSilence
  simp +contextual (maxDischargeDepth := 60) [*]

@[simp] theorem portDown_keeps (p : Nat) (s : State) (z0 : State) (hk : Keeps z0 s) : Keeps z0 (portDown p s) := by
  unfold portDown
  simp +contextual (maxDischargeDepth := 60) [*]

@[simp] theorem mseMeasurement_keeps (p : Nat) (m : Nat) (s : State) (z0 : State) (hk : Keeps z0 s) : Keeps z0 (mseMeasurement p m s) := by
  unfold mseMeasurement
  lift_lets
  intro w wst s1 cls now inside good gc s2 bad s3
  have h1 : Keeps z0 s1 := by simp (maxDischargeDepth := 60) [s1, *]
  have h2 : Keeps z0 s2 := by
    unfold s2
    clear_value s1
    (repeat' split) <;> simp (maxDischargeDepth := 60) [*]
  have h3 : Keeps z0 s3 := by
    unfold s3
    clear_value s2
    simp (maxDischargeDepth := 60) [*]
  clear_value s3
  split <;> simp (maxDischargeDepth := 60) [*]

@[simp] theorem wiredBeaconSend_keeps (p : Nat) (s : State) (z0 : State) (hk : Keeps z0 s) : Keeps z0 (wiredBeaconSend p s) := by
  unfold wiredBeaconSend
  simp +contextual (maxDischargeDepth := 60) [*]

@[simp] theorem wireOut_keeps (p : Nat) (f : QFrame) (flood : Bool) (s : State) (z0 : State) (hk : Keeps z0 s) : Keeps z0 (wireOut p f flood s) := by
  unfold wireOut
  simp +contextual (maxDischargeDepth := 60) [*]

@[simp] theorem frameSelect_keeps (p : Nat) (t : Nat) (gap : Bool) (s : State) (z0 : State) (hk : Keeps z0 s) : Keeps z0 (frameSelect p t gap s) := by
  have hs := fun (q : Nat) (hp : Hop) (x : State) (h : Keeps z0 x) => selectFrame_keeps q hp x z0 h
  unfold frameSelect
  split
  · have h1 := hs p .bcast s hk
    split
    · next h => rw [h] at h1; split <;> simp (maxDischargeDepth := 60) [h1]
    · next h => rw [h] at h1; exact h1
  · have h1 := hs p .wired s hk
    split
    · next h => rw [h] at h1; simp (maxDischargeDepth := 60) [h1]
    · next x h =>
      rw [h] at h1
      have h2 := hs 0 .up x h1
      split
      · next h => rw [h] at h2; simp (maxDischargeDepth := 60) [h2]
      · next y h =>
        rw [h] at h2
        have h3 := hs 1 .up y h2
        split
        · next h => rw [h] at h3; simp (maxDischargeDepth := 60) [h3]
        · next h => rw [h] at h3; exact h3

@[simp] theorem wiredFrameSent_keeps (p : Nat) (s : State) (z0 : State) (hk : Keeps z0 s) : Keeps z0 (wiredFrameSent p s) := by
  unfold wiredFrameSent
  simp +contextual (maxDischargeDepth := 60) [*]

@[simp] theorem pdelayReqSend_keeps (p : Nat) (s : State) (z0 : State) (hk : Keeps z0 s) : Keeps z0 (pdelayReqSend p s) := by
  unfold pdelayReqSend
  dsimp only
  (repeat' split) <;> simp +contextual (maxDischargeDepth := 60) [*]

@[simp] theorem ptpTake_keeps (p : Nat) (m : PtpIn) (s : State) (z0 : State) (hk : Keeps z0 s) : Keeps z0 (ptpTake p m s) := by
  unfold ptpTake
  simp +contextual (maxDischargeDepth := 60) [*]

@[simp] theorem pdelayReqReceive_keeps (p : Nat) (s : State) (z0 : State) (hk : Keeps z0 s) : Keeps z0 (pdelayReqReceive p s) := by
  unfold pdelayReqReceive
  dsimp only
  (repeat' split) <;> simp +contextual (maxDischargeDepth := 60) [*]

@[simp] theorem pdelayRespReceive_keeps (p : Nat) (s : State) (z0 : State) (hk : Keeps z0 s) : Keeps z0 (pdelayRespReceive p s) := by
  unfold pdelayRespReceive
  dsimp only
  (repeat' split) <;> simp +contextual (maxDischargeDepth := 60) [*]

@[simp] theorem pdComplete_keeps (p : Nat) (t1 : Nat) (t2 : Nat) (t3 : Nat) (t4 : Nat) (s : State) (z0 : State) (hk : Keeps z0 s) : Keeps z0 (pdComplete p t1 t2 t3 t4 s) := by
  unfold pdComplete
  dsimp only
  (repeat' split) <;> simp +contextual (maxDischargeDepth := 60) [*]

@[simp] theorem followUpReceive_keeps (p : Nat) (s : State) (z0 : State) (hk : Keeps z0 s) : Keeps z0 (followUpReceive p s) := by
  unfold followUpReceive
  dsimp only
  (repeat' split) <;> simp +contextual (maxDischargeDepth := 60) [*]

@[simp] theorem pdelayLost_keeps (p : Nat) (s : State) (z0 : State) (hk : Keeps z0 s) : Keeps z0 (pdelayLost p s) := by
  unfold pdelayLost
  dsimp only
  (repeat' split) <;> simp +contextual (maxDischargeDepth := 60) [*]

@[simp] theorem ptpReceive_keeps (p : Nat) (f : List Nat) (ts : Nat) (s : State) (z0 : State) (hk : Keeps z0 s) : Keeps z0 (ptpReceive p f ts s) := by
  unfold ptpReceive
  dsimp only
  (repeat' split) <;> simp +contextual (maxDischargeDepth := 60) [*]

@[simp] theorem wiredBeaconReceive_keeps (p : Nat) (f : List Nat) (mac : List Nat) (s : State) (z0 : State) (hk : Keeps z0 s) : Keeps z0 (wiredBeaconReceive p f mac s) := by
  unfold wiredBeaconReceive
  dsimp only
  (repeat' split) <;> simp +contextual (maxDischargeDepth := 60) [*]

@[simp] theorem leafCopies_keeps (body : List Nat) (s : State) (z0 : State) (hk : Keeps z0 s) : Keeps z0 (leafCopies body s) := by
  unfold leafCopies
  simp +contextual (maxDischargeDepth := 60) [*]

@[simp] theorem wiredCopies_keeps (from_ : Option Nat) (psdu : List Nat) (s : State) (z0 : State) (hk : Keeps z0 s) : Keeps z0 (wiredCopies from_ psdu s) := by
  unfold wiredCopies
  simp +contextual (maxDischargeDepth := 60) [*]

@[simp] theorem floodOriginate_keeps (dest : Nat) (cls : Nat) (ttl : Nat) (ptype : Nat) (payload : List Nat) (s : State) (z0 : State) (hk : Keeps z0 s) : Keeps z0 (floodOriginate dest cls ttl ptype payload s).2 := by
  unfold floodOriginate
  dsimp only
  (repeat' split) <;> simp +contextual (maxDischargeDepth := 60) [*]

@[simp] theorem toNb_keeps (nb : Nb) (u : List Nat) (s : State) (z0 : State) (hk : Keeps z0 s) : Keeps z0 (toNb nb u s) := by
  unfold toNb
  dsimp only
  (repeat' split) <;> simp +contextual (maxDischargeDepth := 60) [*]

@[simp] theorem unicastForward_keeps (nb : Option Nb) (u0 : List Nat) (a2 : State) (z0 : State) (hk : Keeps z0 a2) : Keeps z0 (unicastForward nb u0 a2) := by
  unfold unicastForward
  dsimp only
  (repeat' split) <;> simp +contextual (maxDischargeDepth := 60) [*]

@[simp] theorem unicastSend_keeps (dst : Nat) (cls : Nat) (ttl : Nat) (ptype : Nat) (payload : List Nat) (s : State) (z0 : State) (hk : Keeps z0 s) : Keeps z0 (unicastSend dst cls ttl ptype payload s) := by
  unfold unicastSend
  simp +contextual (maxDischargeDepth := 60) [*]

end Sys2Proof.Machine
end

