-- ==== Sys2Proof/Laws/KeepServ.lean ====
section
/-!
SUPPORT. What luminaires, ageing, tables, the coordinator, the mirror and updates keep: one lemma per operation, over `Keeps` (Laws/Keeps.lean).
-/
namespace Sys2Proof.Machine

@[simp] theorem lumMod_keeps (f : Lum → Lum) (s : State) (z0 : State) (hk : Keeps z0 s) : Keeps z0 (lumMod f s) := by
  unfold lumMod
  simp +contextual (maxDischargeDepth := 60) [*]

@[simp] theorem burnCount_keeps (s : State) (z0 : State) (hk : Keeps z0 s) : Keeps z0 (burnCount s) := by
  unfold burnCount
  dsimp only
  (repeat' split) <;> simp +contextual (maxDischargeDepth := 60) [*]

@[simp] theorem arcFeed_keeps (s : State) (z0 : State) (hk : Keeps z0 s) : Keeps z0 (arcFeed s) := by
  unfold arcFeed
  (repeat' split) <;> simp +contextual (maxDischargeDepth := 60) [*]

@[simp] theorem lumWrite_keeps (lt : Bool) (dali : Bool) (level : Nat) (a3 : State) (z0 : State) (hk : Keeps z0 a3) : Keeps z0 (lumWrite lt dali level a3) := by
  unfold lumWrite
  dsimp only
  (repeat' split) <;> simp +contextual (maxDischargeDepth := 60) [*]

@[simp] theorem lumTake_keeps (lt : Bool) (a : LumAct) (s : State) (z0 : State) (hk : Keeps z0 s) : Keeps z0 (lumTake lt a s) := by
  unfold lumTake
  dsimp only
  (repeat' split) <;> simp +contextual (maxDischargeDepth := 60) [*]

@[simp] theorem lumReport_keeps (a : LumAct) (late : Bool) (by_ : Nat) (s : State) (z0 : State) (hk : Keeps z0 s) : Keeps z0 (lumReport a late by_ s) := by
  unfold lumReport
  simp +contextual (maxDischargeDepth := 60) [*]

@[simp] theorem lumArmCmp_keeps (n : Nat) (t : Nat) (s : State) (z0 : State) (hk : Keeps z0 s) : Keeps z0 (lumArmCmp n t s) := by
  unfold lumArmCmp
  simp +contextual (maxDischargeDepth := 60) [*]

@[simp] theorem lumArm_keeps (a0 : Nat) (a1 : State) (z0 : State) (hk : Keeps z0 a1) : Keeps z0 (lumArm a0 a1) := by
  induction a0 generalizing a1 with
  | zero => exact hk
  | succ n ih =>
    unfold lumArm
    split
    · exact ih _ (by simp (maxDischargeDepth := 60) [hk])
    · exact hk

@[simp] theorem lumDrop_keeps (a : LumAct) (s : State) (z0 : State) (hk : Keeps z0 s) : Keeps z0 (lumDrop a s) := by
  unfold lumDrop
  dsimp only
  (repeat' split) <;> simp +contextual (maxDischargeDepth := 60) [*]

@[simp] theorem lumPast_keeps (a : LumAct) (s : State) (z0 : State) (hk : Keeps z0 s) : Keeps z0 (lumPast a s) := by
  unfold lumPast
  simp +contextual (maxDischargeDepth := 60) [*]

@[simp] theorem lumLateAct_keeps (a : LumAct) (late : Bool) (s : State) (z0 : State) (hk : Keeps z0 s) : Keeps z0 (lumLateAct a late s) := by
  unfold lumLateAct
  simp +contextual (maxDischargeDepth := 60) [*]

@[simp] theorem lumCommand_keeps (a0 : LumAct) (a1 : State) (z0 : State) (hk : Keeps z0 a1) : Keeps z0 (lumCommand a0 a1) := by
  unfold lumCommand
  dsimp only
  (repeat' split) <;> simp +contextual (maxDischargeDepth := 60) [*]

@[simp] theorem lumLaunch_keeps (n : Nat) (s : State) (z0 : State) (hk : Keeps z0 s) : Keeps z0 (lumLaunch n s) := by
  unfold lumLaunch
  dsimp only
  (repeat' split) <;> simp +contextual (maxDischargeDepth := 60) [*]

@[simp] theorem lumLaunched_keeps (s : State) (z0 : State) (hk : Keeps z0 s) : Keeps z0 (lumLaunched s) := by
  unfold lumLaunched
  simp +contextual (maxDischargeDepth := 60) [*]

@[simp] theorem scheduleEntry_keeps (s : State) (z0 : State) (hk : Keeps z0 s) : Keeps z0 (scheduleEntry s) := by
  unfold scheduleEntry
  dsimp only
  (repeat' split) <;> simp +contextual (maxDischargeDepth := 60) [*]

@[simp] theorem lumJudge_keeps (s : State) (z0 : State) (hk : Keeps z0 s) : Keeps z0 (lumJudge s) := by
  unfold lumJudge
  dsimp only
  (repeat' split) <;> simp +contextual (maxDischargeDepth := 60) [*]

@[simp] theorem lumDay_keeps (s : State) (z0 : State) (hk : Keeps z0 s) : Keeps z0 (lumDay s) := by
  unfold lumDay
  dsimp only
  (repeat' split) <;> simp +contextual (maxDischargeDepth := 60) [*]

@[simp] theorem lumStore_keeps (o : List Nat) (s : State) (z0 : State) (hk : Keeps z0 s) : Keeps z0 (lumStore o s) := by
  unfold lumStore
  dsimp only
  (repeat' split) <;> simp +contextual (maxDischargeDepth := 60) [*]

@[simp] theorem lumSvc_keeps (s : State) (z0 : State) (hk : Keeps z0 s) : Keeps z0 (lumSvc s) := by
  unfold lumSvc
  dsimp only
  (repeat' split) <;> simp +contextual (maxDischargeDepth := 60) [*]

@[simp] theorem lumTables_keeps (a0 : State) (z0 : State) (hk : Keeps z0 a0) : Keeps z0 (lumTables a0) := by
  unfold lumTables
  dsimp only
  (repeat' split) <;> simp +contextual (maxDischargeDepth := 60) [*]

@[simp] theorem lumStart_keeps (s : State) (z0 : State) (hk : Keeps z0 s) : Keeps z0 (lumStart s) := by
  unfold lumStart
  dsimp only
  (repeat' split) <;> simp +contextual (maxDischargeDepth := 60) [*]

@[simp] theorem photoHolds_keeps (s : State) (z0 : State) (hk : Keeps z0 s) : Keeps z0 (photoHolds s) := by
  unfold photoHolds
  simp +contextual (maxDischargeDepth := 60) [*]

@[simp] theorem photocellEntry_keeps (i : Nat) (s : State) (z0 : State) (hk : Keeps z0 s) : Keeps z0 (photocellEntry i s) := by
  unfold photocellEntry
  dsimp only
  (repeat' split) <;> simp +contextual (maxDischargeDepth := 60) [*]

@[simp] theorem fadeStep_keeps (s : State) (z0 : State) (hk : Keeps z0 s) : Keeps z0 (fadeStep s) := by
  unfold fadeStep
  dsimp only
  (repeat' split) <;> simp +contextual (maxDischargeDepth := 60) [*]

@[simp] theorem cloUpdate_keeps (a0 : State) (z0 : State) (hk : Keeps z0 a0) : Keeps z0 (cloUpdate a0) := by
  unfold cloUpdate
  dsimp only
  (repeat' split) <;> simp +contextual (maxDischargeDepth := 60) [*]

@[simp] theorem faultBit_keeps (bit : Nat) (a1 : State) (z0 : State) (hk : Keeps z0 a1) : Keeps z0 (faultBit bit a1) := by
  unfold faultBit
  dsimp only
  (repeat' split) <;> simp +contextual (maxDischargeDepth := 60) [*]

@[simp] theorem faultEval_keeps (s : State) (z0 : State) (hk : Keeps z0 s) : Keeps z0 (faultEval s) := by
  unfold faultEval
  simp +contextual (maxDischargeDepth := 60) [*]

@[simp] theorem meterBlock_keeps (b : List (Nat × Nat × Nat × Nat)) (s : State) (z0 : State) (hk : Keeps z0 s) : Keeps z0 (meterBlock b s) := by
  unfold meterBlock
  dsimp only
  (repeat' split) <;> simp +contextual (maxDischargeDepth := 60) [*]

@[simp] theorem daliPoll_keeps (s : State) (z0 : State) (hk : Keeps z0 s) : Keeps z0 (daliPoll s) := by
  unfold daliPoll
  dsimp only
  (repeat' split) <;> simp +contextual (maxDischargeDepth := 60) [*]

@[simp] theorem pollAnswer_keeps (poll : Bool) (data : Option Nat) (s : State) (z0 : State) (hk : Keeps z0 s) : Keeps z0 (pollAnswer poll data s) := by
  unfold pollAnswer
  simp +contextual (maxDischargeDepth := 60) [*]

@[simp] theorem pollMiss_keeps (poll : Bool) (s : State) (z0 : State) (hk : Keeps z0 s) : Keeps z0 (pollMiss poll s) := by
  unfold pollMiss
  simp +contextual (maxDischargeDepth := 60) [*]

@[simp] theorem backwardFrame_keeps (data : Nat) (err : Bool) (s : State) (z0 : State) (hk : Keeps z0 s) : Keeps z0 (backwardFrame data err s) := by
  unfold backwardFrame
  simp +contextual (maxDischargeDepth := 60) [*]

@[simp] theorem busLow_keeps (low : Bool) (s : State) (z0 : State) (hk : Keeps z0 s) : Keeps z0 (busLow low s) := by
  unfold busLow
  simp +contextual (maxDischargeDepth := 60) [*]

@[simp] theorem statusReport_keeps (s : State) (z0 : State) (hk : Keeps z0 s) : Keeps z0 (statusReport s) := by
  unfold statusReport
  dsimp only
  (repeat' split) <;> simp +contextual (maxDischargeDepth := 60) [*]

@[simp] theorem meterReport_keeps (s : State) (z0 : State) (hk : Keeps z0 s) : Keeps z0 (meterReport s) := by
  unfold meterReport
  dsimp only
  (repeat' split) <;> simp +contextual (maxDischargeDepth := 60) [*]

@[simp] theorem groupCmdReceive_keeps (group : Nat) (mseq : Nat) (p : List Nat) (s : State) (z0 : State) (hk : Keeps z0 s) : Keeps z0 (groupCmdReceive group mseq p s) := by
  unfold groupCmdReceive
  simp +contextual (maxDischargeDepth := 60) [*]

@[simp] theorem scheduleReceive_keeps (o : List Nat) (s : State) (z0 : State) (hk : Keeps z0 s) : Keeps z0 (scheduleReceive o s) := by
  unfold scheduleReceive
  dsimp only
  (repeat' split) <;> simp +contextual (maxDischargeDepth := 60) [*]

@[simp] theorem ageMod_keeps (f : Age → Age) (s : State) (z0 : State) (hk : Keeps z0 s) : Keeps z0 (ageMod f s) := by
  unfold ageMod
  simp +contextual (maxDischargeDepth := 60) [*]

@[simp] theorem cycRebase_keeps (s : State) (z0 : State) (hk : Keeps z0 s) : Keeps z0 (cycRebase s) := by
  unfold cycRebase
  dsimp only
  (repeat' split) <;> simp +contextual (maxDischargeDepth := 60) [*]

@[simp] theorem railAlarm_keeps (s : State) (z0 : State) (hk : Keeps z0 s) : Keeps z0 (railAlarm s) := by
  unfold railAlarm
  simp +contextual (maxDischargeDepth := 60) [*]

@[simp] theorem ceilFall_keeps (isl : Nat) (new : Nat) (s : State) (z0 : State) (hk : Keeps z0 s) : Keeps z0 (ceilFall isl new s) := by
  unfold ceilFall
  dsimp only
  (repeat' split) <;> simp +contextual (maxDischargeDepth := 60) [*]

@[simp] theorem replanIsland_keeps (isl : Nat) (m : Nat) (a2 : State) (z0 : State) (hk : Keeps z0 a2) : Keeps z0 (replanIsland isl m a2) := by
  unfold replanIsland
  dsimp only
  (repeat' split) <;> simp +contextual (maxDischargeDepth := 60) [*]

@[simp] theorem replan_keeps (ms : List Nat) (s : State) (z0 : State) (hk : Keeps z0 s) : Keeps z0 (replan ms s) := by
  unfold replan
  simp +contextual (maxDischargeDepth := 60) [*]

@[simp] theorem temperaturePoll_keeps (t : Nat) (s : State) (z0 : State) (hk : Keeps z0 s) : Keeps z0 (temperaturePoll t s) := by
  unfold temperaturePoll
  dsimp only
  (repeat' split) <;> simp +contextual (maxDischargeDepth := 60) [*]

@[simp] theorem flWear_keeps (s : State) (z0 : State) (hk : Keeps z0 s) : Keeps z0 (flWear s) := by
  unfold flWear
  simp +contextual (maxDischargeDepth := 60) [*]

@[simp] theorem wearPulses_keeps (g : Nat) (w : GroupWear) (s : State) (z0 : State) (hk : Keeps z0 s) : Keeps z0 (wearPulses g w s) := by
  unfold wearPulses
  dsimp only
  (repeat' split) <;> simp +contextual (maxDischargeDepth := 60) [*]

@[simp] theorem wearRetries_keeps (g : Nat) (w : GroupWear) (s : State) (z0 : State) (hk : Keeps z0 s) : Keeps z0 (wearRetries g w s) := by
  unfold wearRetries
  dsimp only
  (repeat' split) <;> simp +contextual (maxDischargeDepth := 60) [*]

@[simp] theorem wearEvaluation_keeps (s : State) (z0 : State) (hk : Keeps z0 s) : Keeps z0 (wearEvaluation s) := by
  unfold wearEvaluation
  simp +contextual (maxDischargeDepth := 60) [*]

@[simp] theorem tblEffect_keeps (tid : Nat) (old : List Nat) (s : State) (z0 : State) (hk : Keeps z0 s) : Keeps z0 (tblEffect tid old s) := by
  unfold tblEffect
  (repeat' split) <;> simp +contextual (maxDischargeDepth := 60) [*]

@[simp] theorem tblForce_keeps (tid : Nat) (o : Option TableObj) (s : State) (z0 : State) (hk : Keeps z0 s) : Keeps z0 (tblForce tid o s) := by
  unfold tblForce
  dsimp only
  (repeat' split) <;> simp +contextual (maxDischargeDepth := 60) [*]

@[simp] theorem coMod_keeps (f : Co → Co) (s : State) (z0 : State) (hk : Keeps z0 s) : Keeps z0 (coMod f s) := by
  unfold coMod
  simp +contextual (maxDischargeDepth := 60) [*]

@[simp] theorem coNodeMod_keeps (short : Nat) (f : CoNode → CoNode) (s : State) (z0 : State) (hk : Keeps z0 s) : Keeps z0 (coNodeMod short f s) := by
  unfold coNodeMod
  simp +contextual (maxDischargeDepth := 60) [*]

@[simp] theorem coSave_keeps (s : State) (z0 : State) (hk : Keeps z0 s) : Keeps z0 (coSave s) := by
  unfold coSave
  simp +contextual (maxDischargeDepth := 60) [*]

@[simp] theorem joinDecide_keeps (longid : Nat) (parent : Nat) (s : State) (z0 : State) (hk : Keeps z0 s) : Keeps z0 (joinDecide longid parent s).2.2.2 := by
  unfold joinDecide
  dsimp only
  (repeat' split) <;> simp +contextual (maxDischargeDepth := 60) [*]

@[simp] theorem joinFwdReceive_keeps (src : Nat) (p : List Nat) (s : State) (z0 : State) (hk : Keeps z0 s) : Keeps z0 (joinFwdReceive src p s) := by
  unfold joinFwdReceive
  dsimp only
  (repeat' split) <;> simp +contextual (maxDischargeDepth := 60) [*]

@[simp] theorem joinForward_keeps (longid : Nat) (s : State) (z0 : State) (hk : Keeps z0 s) : Keeps z0 (joinForward longid s) := by
  unfold joinForward
  dsimp only
  (repeat' split) <;> simp +contextual (maxDischargeDepth := 60) [*]

@[simp] theorem coRecord_keeps (r : Nat × Nat × Nat × Nat) (s : State) (z0 : State) (hk : Keeps z0 s) : Keeps z0 (coRecord r s) := by
  unfold coRecord
  simp +contextual (maxDischargeDepth := 60) [*]

@[simp] theorem dispFill_keeps (a0 : Nat) (a1 : CoDisp) (a2 : State) (z0 : State) (hk : Keeps z0 a2) : Keeps z0 (dispFill a0 a1 a2).2 := by
  induction a0 generalizing a1 a2 with
  | zero => exact hk
  | succ n ih =>
    unfold dispFill
    split
    · exact hk
    · split
      · exact hk
      · exact ih _ _ (by simp (maxDischargeDepth := 60) [hk])

@[simp] theorem dispOne_keeps (s : State) (d : CoDisp) (z0 : State) (hk : Keeps z0 s) : Keeps z0 (dispOne s d) := by
  unfold dispOne
  dsimp only
  (repeat' split) <;> simp +contextual (maxDischargeDepth := 60) [*]

@[simp] theorem dispSettle_keeps (s : State) (z0 : State) (hk : Keeps z0 s) : Keeps z0 (dispSettle s) := by
  unfold dispSettle
  simp +contextual (maxDischargeDepth := 60) [*]

@[simp] theorem dispatchResend_keeps (short : Nat) (s : State) (z0 : State) (hk : Keeps z0 s) : Keeps z0 (dispatchResend short s) := by
  unfold dispatchResend
  dsimp only
  (repeat' split) <;> simp +contextual (maxDischargeDepth := 60) [*]

@[simp] theorem coStatus_keeps (src : Nat) (p : List Nat) (a2 : State) (z0 : State) (hk : Keeps z0 a2) : Keeps z0 (coStatus src p a2) := by
  unfold coStatus
  dsimp only
  (repeat' split) <;> simp +contextual (maxDischargeDepth := 60) [*]

@[simp] theorem coMeter_keeps (src : Nat) (p : List Nat) (s : State) (z0 : State) (hk : Keeps z0 s) : Keeps z0 (coMeter src p s) := by
  unfold coMeter
  simp +contextual (maxDischargeDepth := 60) [*]

@[simp] theorem coGroupStart_keeps (mb : Nat) (op : Nat) (group : Nat) (level : Nat) (fade : Nat) (collect : Nat) (t : Nat) (s : State) (z0 : State) (hk : Keeps z0 s) : Keeps z0 (coGroupStart mb op group level fade collect t s) := by
  unfold coGroupStart
  dsimp only
  (repeat' split) <;> simp +contextual (maxDischargeDepth := 60) [*]

@[simp] theorem collectEnd_keeps (s : State) (z0 : State) (hk : Keeps z0 s) : Keeps z0 (collectEnd s) := by
  unfold collectEnd
  dsimp only
  (repeat' split) <;> simp +contextual (maxDischargeDepth := 60) [*]

@[simp] theorem coDispatchStart_keeps (mb : Nat) (op : Nat) (group : Nat) (obj : List Nat) (s : State) (z0 : State) (hk : Keeps z0 s) : Keeps z0 (coDispatchStart mb op group obj s) := by
  unfold coDispatchStart
  simp +contextual (maxDischargeDepth := 60) [*]

@[simp] theorem coGroups_keeps (short : Nat) (groups : List Nat) (s : State) (z0 : State) (hk : Keeps z0 s) : Keeps z0 (coGroups short groups s) := by
  unfold coGroups
  simp +contextual (maxDischargeDepth := 60) [*]

@[simp] theorem coAdmit_keeps (longid : Nat) (allow : Bool) (s : State) (z0 : State) (hk : Keeps z0 s) : Keeps z0 (coAdmit longid allow s) := by
  unfold coAdmit
  simp +contextual (maxDischargeDepth := 60) [*]

@[simp] theorem mirMod_keeps (f : Mir → Mir) (s : State) (z0 : State) (hk : Keeps z0 s) : Keeps z0 (mirMod f s) := by
  unfold mirMod
  simp +contextual (maxDischargeDepth := 60) [*]

@[simp] theorem pairNotice_keeps (s : State) (z0 : State) (hk : Keeps z0 s) : Keeps z0 (pairNotice s) := by
  unfold pairNotice
  simp +contextual (maxDischargeDepth := 60) [*]

@[simp] theorem aloneRecord_keeps (s : State) (z0 : State) (hk : Keeps z0 s) : Keeps z0 (aloneRecord s) := by
  unfold aloneRecord
  simp +contextual (maxDischargeDepth := 60) [*]

@[simp] theorem mirDeg_keeps (lanes : Nat) (s : State) (z0 : State) (hk : Keeps z0 s) : Keeps z0 (mirDeg lanes s) := by
  unfold mirDeg
  simp +contextual (maxDischargeDepth := 60) [*]

@[simp] theorem setRole_keeps (r : Nat) (reason : Nat) (s : State) (z0 : State) (hk : Keeps z0 s) : Keeps z0 (setRole r reason s) := by
  unfold setRole
  dsimp only
  (repeat' split) <;> simp +contextual (maxDischargeDepth := 60) [*]

@[simp] theorem setLink_keeps (l : Nat) (s : State) (z0 : State) (hk : Keeps z0 s) : Keeps z0 (setLink l s) := by
  unfold setLink
  dsimp only
  (repeat' split) <;> simp +contextual (maxDischargeDepth := 60) [*]

@[simp] theorem opsFail_keeps (s : State) (z0 : State) (hk : Keeps z0 s) : Keeps z0 (opsFail s) := by
  unfold opsFail
  simp +contextual (maxDischargeDepth := 60) [*]

@[simp] theorem txStop_keeps (s : State) (z0 : State) (hk : Keeps z0 s) : Keeps z0 (txStop s) := by
  unfold txStop
  dsimp only
  (repeat' split) <;> simp +contextual (maxDischargeDepth := 60) [*]

@[simp] theorem mirrorOut_keeps (a : Nat) (l : List Nat) (s : State) (z0 : State) (hk : Keeps z0 s) : Keeps z0 (mirrorOut a l s) := by
  unfold mirrorOut
  simp +contextual (maxDischargeDepth := 60) [*]

@[simp] theorem mirLagShow_keeps (s : State) (z0 : State) (hk : Keeps z0 s) : Keeps z0 (mirLagShow s) := by
  unfold mirLagShow
  simp +contextual (maxDischargeDepth := 60) [*]

@[simp] theorem mirrorWrite_keeps (a : Nat) (l : List Nat) (s : State) (z0 : State) (hk : Keeps z0 s) : Keeps z0 (mirrorWrite a l s) := by
  unfold mirrorWrite
  dsimp only
  (repeat' split) <;> simp +contextual (maxDischargeDepth := 60) [*]

@[simp] theorem mirFence_keeps (s : State) (z0 : State) (hk : Keeps z0 s) : Keeps z0 (mirFence s) := by
  unfold mirFence
  simp +contextual (maxDischargeDepth := 60) [*]

@[simp] theorem fenceComplete_keeps (s : State) (z0 : State) (hk : Keeps z0 s) : Keeps z0 (fenceComplete s) := by
  unfold fenceComplete
  dsimp only
  (repeat' split) <;> simp +contextual (maxDischargeDepth := 60) [*]

@[simp] theorem mirrorLaneCheck_keeps (lane : Nat) (v : Nat) (a2 : State) (z0 : State) (hk : Keeps z0 a2) : Keeps z0 (mirrorLaneCheck lane v a2) := by
  unfold mirrorLaneCheck
  dsimp only
  (repeat' split) <;> simp +contextual (maxDischargeDepth := 60) [*]

@[simp] theorem mirDegClear_keeps (s : State) (z0 : State) (hk : Keeps z0 s) : Keeps z0 (mirDegClear s) := by
  unfold mirDegClear
  (repeat' split) <;> simp +contextual (maxDischargeDepth := 60) [*]

@[simp] theorem heartbeatSend_keeps (s : State) (z0 : State) (hk : Keeps z0 s) : Keeps z0 (heartbeatSend s) := by
  unfold heartbeatSend
  simp +contextual (maxDischargeDepth := 60) [*]

@[simp] theorem pairJudge_keeps (h : HbIn) (s : State) (z0 : State) (hk : Keeps z0 s) : Keeps z0 (pairJudge h s) := by
  unfold pairJudge
  dsimp only
  (repeat' split) <;> simp +contextual (maxDischargeDepth := 60) [*]

@[simp] theorem heartbeatReceive_keeps (h : HbIn) (s : State) (z0 : State) (hk : Keeps z0 s) : Keeps z0 (heartbeatReceive h s) := by
  unfold heartbeatReceive
  dsimp only
  (repeat' split) <;> simp +contextual (maxDischargeDepth := 60) [*]

@[simp] theorem mirrorSilence_keeps (s : State) (z0 : State) (hk : Keeps z0 s) : Keeps z0 (mirrorSilence s) := by
  unfold mirrorSilence
  dsimp only
  (repeat' split) <;> simp +contextual (maxDischargeDepth := 60) [*]

@[simp] theorem pairBeaconSend_keeps (s : State) (z0 : State) (hk : Keeps z0 s) : Keeps z0 (pairBeaconSend s) := by
  unfold pairBeaconSend
  dsimp only
  (repeat' split) <;> simp +contextual (maxDischargeDepth := 60) [*]

@[simp] theorem pairBeaconHeard_keeps (bseq : Nat) (a1 : State) (z0 : State) (hk : Keeps z0 a1) : Keeps z0 (pairBeaconHeard bseq a1) := by
  unfold pairBeaconHeard
  dsimp only
  (repeat' split) <;> simp +contextual (maxDischargeDepth := 60) [*]

@[simp] theorem takeover_keeps (s : State) (z0 : State) (hk : Keeps z0 s) : Keeps z0 (takeover s) := by
  unfold takeover
  dsimp only
  (repeat' split) <;> simp +contextual (maxDischargeDepth := 60) [*]

@[simp] theorem startAlone_keeps (s : State) (z0 : State) (hk : Keeps z0 s) : Keeps z0 (startAlone s) := by
  unfold startAlone
  simp +contextual (maxDischargeDepth := 60) [*]

@[simp] theorem syncComplete_keeps (s : State) (z0 : State) (hk : Keeps z0 s) : Keeps z0 (syncComplete s) := by
  unfold syncComplete
  simp +contextual (maxDischargeDepth := 60) [*]

@[simp] theorem switchArm_keeps (t : Nat) (op : Option (Nat × Nat)) (s : State) (z0 : State) (hk : Keeps z0 s) : Keeps z0 (switchArm t op s) := by
  unfold switchArm
  dsimp only
  (repeat' split) <;> simp +contextual (maxDischargeDepth := 60) [*]

@[simp] theorem switchFence_keeps (s : State) (z0 : State) (hk : Keeps z0 s) : Keeps z0 (switchFence s) := by
  unfold switchFence
  simp +contextual (maxDischargeDepth := 60) [*]

@[simp] theorem plannedSwitch_keeps (s : State) (z0 : State) (hk : Keeps z0 s) : Keeps z0 (plannedSwitch s) := by
  unfold plannedSwitch
  dsimp only
  (repeat' split) <;> simp +contextual (maxDischargeDepth := 60) [*]

@[simp] theorem updMod_keeps (f : UpdSt → UpdSt) (s : State) (z0 : State) (hk : Keeps z0 s) : Keeps z0 (updMod f s) := by
  unfold updMod
  simp +contextual (maxDischargeDepth := 60) [*]

@[simp] theorem updState_keeps (st : Nat) (s : State) (z0 : State) (hk : Keeps z0 s) : Keeps z0 (updState st s) := by
  unfold updState
  simp +contextual (maxDischargeDepth := 60) [*]

@[simp] theorem updNotice_keeps (event : Nat) (bid : Nat) (s : State) (z0 : State) (hk : Keeps z0 s) : Keeps z0 (updNotice event bid s) := by
  unfold updNotice
  simp +contextual (maxDischargeDepth := 60) [*]

@[simp] theorem bundleSet_keeps (bid : Nat) (f : Bundle → Bundle) (s : State) (z0 : State) (hk : Keeps z0 s) : Keeps z0 (bundleSet bid f s) := by
  unfold bundleSet
  simp +contextual (maxDischargeDepth := 60) [*]

@[simp] theorem storeAdd_keeps (b : Bundle) (s : State) (z0 : State) (hk : Keeps z0 s) : Keeps z0 (storeAdd b s) := by
  unfold storeAdd
  simp +contextual (maxDischargeDepth := 60) [*]

@[simp] theorem provRevoke_keeps (b : List Nat) (s : State) (z0 : State) (hk : Keeps z0 s) : Keeps z0 (provRevoke b s) := by
  unfold provRevoke
  split
  · refine hk.trans ⟨rfl, ⟨rfl, ?_⟩, id⟩
    show s.fuses.revoked ||| (s.fuses.revoked ||| _) = _
    rw [← Nat.or_assoc, Nat.or_self]
  · exact hk

@[simp] theorem intakeEnd_keeps (bytes : List Nat) (s : State) (z0 : State) (hk : Keeps z0 s) : Keeps z0 (intakeEnd bytes s).2 := by
  unfold intakeEnd
  dsimp only
  (repeat' split) <;> simp +contextual (maxDischargeDepth := 60) [*]

@[simp] theorem bulkFlood_keeps (ttl : Nat) (p : List Nat) (s : State) (z0 : State) (hk : Keeps z0 s) : Keeps z0 (bulkFlood ttl p s) := by
  unfold bulkFlood
  simp +contextual (maxDischargeDepth := 60) [*]

@[simp] theorem offerReceive_keeps (p : List Nat) (s : State) (z0 : State) (hk : Keeps z0 s) : Keeps z0 (offerReceive p s) := by
  unfold offerReceive
  dsimp only
  (repeat' split) <;> simp +contextual (maxDischargeDepth := 60) [*]

@[simp] theorem chunkSend_keeps (s : State) (z0 : State) (hk : Keeps z0 s) : Keeps z0 (chunkSend s) := by
  unfold chunkSend
  (repeat' split) <;> simp +contextual (maxDischargeDepth := 60) [*]

@[simp] theorem bulkDrop_keeps (x : BulkIn) (s : State) (z0 : State) (hk : Keeps z0 s) : Keeps z0 (bulkDrop x s) := by
  unfold bulkDrop
  simp +contextual (maxDischargeDepth := 60) [*]

@[simp] theorem chunkReceive_keeps (a0 : State) (z0 : State) (hk : Keeps z0 a0) : Keeps z0 (chunkReceive a0) := by
  unfold chunkReceive
  dsimp only
  (repeat' split) <;> simp +contextual (maxDischargeDepth := 60) [*]

@[simp] theorem reqTimer_keeps (s : State) (z0 : State) (hk : Keeps z0 s) : Keeps z0 (reqTimer s) := by
  unfold reqTimer
  dsimp only
  (repeat' split) <;> simp +contextual (maxDischargeDepth := 60) [*]

@[simp] theorem reqReceive_keeps (a0 : State) (z0 : State) (hk : Keeps z0 a0) : Keeps z0 (reqReceive a0) := by
  unfold reqReceive
  dsimp only
  (repeat' split) <;> simp +contextual (maxDischargeDepth := 60) [*]

@[simp] theorem distSettle_keeps (s : State) (z0 : State) (hk : Keeps z0 s) : Keeps z0 (distSettle s) := by
  unfold distSettle
  dsimp only
  (repeat' split) <;> simp +contextual (maxDischargeDepth := 60) [*]

@[simp] theorem haveReceive_keeps (a0 : State) (z0 : State) (hk : Keeps z0 a0) : Keeps z0 (haveReceive a0) := by
  unfold haveReceive
  dsimp only
  (repeat' split) <;> simp +contextual (maxDischargeDepth := 60) [*]

@[simp] theorem haveSend_keeps (bid : Nat) (st : Nat) (s : State) (z0 : State) (hk : Keeps z0 s) : Keeps z0 (haveSend bid st s) := by
  unfold haveSend
  simp +contextual (maxDischargeDepth := 60) [*]

@[simp] theorem installComp_keeps (b : List Nat) (e : List Nat) (s : State) (z0 : State) (hk : Keeps z0 s) : Keeps z0 (installComp b e s) := by
  unfold installComp
  dsimp only
  (repeat' split) <;> simp +contextual (maxDischargeDepth := 60) [*]

@[simp] theorem installAll_keeps (b : List Nat) (s : State) (z0 : State) (hk : Keeps z0 s) : Keeps z0 (installAll b s) := by
  unfold installAll
  dsimp only
  (repeat' split) <;> simp +contextual (maxDischargeDepth := 60) [*]

@[simp] theorem actArm_keeps (t : Nat) (s : State) (z0 : State) (hk : Keeps z0 s) : Keeps z0 (actArm t s) := by
  unfold actArm
  dsimp only
  (repeat' split) <;> simp +contextual (maxDischargeDepth := 60) [*]

@[simp] theorem install_keeps (fail : Bool) (a1 : State) (z0 : State) (hk : Keeps z0 a1) : Keeps z0 (install fail a1) := by
  unfold install
  dsimp only
  (repeat' split) <;> simp +contextual (maxDischargeDepth := 60) [*]

@[simp] theorem activateTake_keeps (bid : Nat) (t : Nat) (s : State) (z0 : State) (hk : Keeps z0 s) : Keeps z0 (activateTake bid t s) := by
  unfold activateTake
  dsimp only
  (repeat' split) <;> simp +contextual (maxDischargeDepth := 60) [*]

@[simp] theorem activateReceive_keeps (a0 : State) (z0 : State) (hk : Keeps z0 a0) : Keeps z0 (activateReceive a0) := by
  unfold activateReceive
  (repeat' split) <;> simp +contextual (maxDischargeDepth := 60) [*]

end Sys2Proof.Machine
end

