-- ==== Sys2Proof/Laws/KeepUnits.lean ====
section
/-!
SUPPORT. What the serial ports, protection, memory, flash, clocks, timers, the cipher engine and kernels keep: one lemma per operation, over `Keeps` (Laws/Keeps.lean).
-/
namespace Sys2Proof.Machine

@[simp] theorem spxMod_keeps (n : Nat) (f : Spx → Spx) (s : State) (z0 : State) (hk : Keeps z0 s) : Keeps z0 (spxMod n f s) := by
  unfold spxMod
  simp +contextual (maxDischargeDepth := 60) [*]

@[simp] theorem spxShow_keeps (n : Nat) (s : State) (z0 : State) (hk : Keeps z0 s) : Keeps z0 (spxShow n s) := by
  unfold spxShow
  dsimp only
  (repeat' split) <;> simp +contextual (maxDischargeDepth := 60) [*]

@[simp] theorem spxEvent_keeps (n : Nat) (s : State) (z0 : State) (hk : Keeps z0 s) : Keeps z0 (spxEvent n s) := by
  unfold spxEvent
  simp +contextual (maxDischargeDepth := 60) [*]

@[simp] theorem spxFlag_keeps (n : Nat) (flag : Field) (ien : Field) (s : State) (z0 : State) (hk : Keeps z0 s) : Keeps z0 (spxFlag n flag ien s) := by
  unfold spxFlag
  simp +contextual (maxDischargeDepth := 60) [*]

@[simp] theorem spxErr_keeps (n : Nat) (cnt : Field) (always : Bool) (s : State) (z0 : State) (hk : Keeps z0 s) : Keeps z0 (spxErr n cnt always s) := by
  unfold spxErr
  dsimp only
  (repeat' split) <;> simp +contextual (maxDischargeDepth := 60) [*]

@[simp] theorem spxAdvance_keeps (n : Nat) (s : State) (z0 : State) (hk : Keeps z0 s) : Keeps z0 (spxAdvance n s) := by
  unfold spxAdvance
  dsimp only
  (repeat' split) <;> simp +contextual (maxDischargeDepth := 60) [*]

@[simp] theorem masterStart_keeps (n : Nat) (s : State) (z0 : State) (hk : Keeps z0 s) : Keeps z0 (masterStart n s) := by
  unfold masterStart
  dsimp only
  (repeat' split) <;> simp +contextual (maxDischargeDepth := 60) [*]

@[simp] theorem spxStart_keeps (n : Nat) (s : State) (z0 : State) (hk : Keeps z0 s) : Keeps z0 (spxStart n s) := by
  unfold spxStart
  simp +contextual (maxDischargeDepth := 60) [*]

@[simp] theorem spxPush_keeps (n : Nat) (v : Nat) (a2 : State) (z0 : State) (hk : Keeps z0 a2) : Keeps z0 (spxPush n v a2) := by
  unfold spxPush
  dsimp only
  (repeat' split) <;> simp +contextual (maxDischargeDepth := 60) [*]

@[simp] theorem spxPop_keeps (n : Nat) (s : State) (z0 : State) (hk : Keeps z0 s) : Keeps z0 (spxPop n s).2 := by
  unfold spxPop
  (repeat' split) <;> simp +contextual (maxDischargeDepth := 60) [*]

@[simp] theorem spxKeep_keeps (n : Nat) (f : SpxFrame) (s : State) (z0 : State) (hk : Keeps z0 s) : Keeps z0 (spxKeep n f s) := by
  unfold spxKeep
  dsimp only
  (repeat' split) <;> simp +contextual (maxDischargeDepth := 60) [*]

@[simp] theorem spxCommit_keeps (n : Nat) (s : State) (z0 : State) (hk : Keeps z0 s) : Keeps z0 (spxCommit n s) := by
  unfold spxCommit
  dsimp only
  (repeat' split) <;> simp +contextual (maxDischargeDepth := 60) [*]

@[simp] theorem spxFrameEnd_keeps (n : Nat) (s : State) (z0 : State) (hk : Keeps z0 s) : Keeps z0 (spxFrameEnd n s) := by
  unfold spxFrameEnd
  dsimp only
  (repeat' split) <;> simp +contextual (maxDischargeDepth := 60) [*]

@[simp] theorem masterEnd_keeps (n : Nat) (data : List Nat) (a2 : State) (z0 : State) (hk : Keeps z0 a2) : Keeps z0 (masterEnd n data a2) := by
  unfold masterEnd
  dsimp only
  (repeat' split) <;> simp +contextual (maxDischargeDepth := 60) [*]

@[simp] theorem slaveRx_keeps (nbits : Nat) (bytes : List Nat) (sent : Nat) (a3 : State) (z0 : State) (hk : Keeps z0 a3) : Keeps z0 (slaveRx nbits bytes sent a3) := by
  unfold slaveRx
  dsimp only
  (repeat' split) <;> simp +contextual (maxDischargeDepth := 60) [*]

@[simp] theorem spxTxFlush_keeps (n : Nat) (s : State) (z0 : State) (hk : Keeps z0 s) : Keeps z0 (spxTxFlush n s) := by
  unfold spxTxFlush
  simp +contextual (maxDischargeDepth := 60) [*]

@[simp] theorem spxRxFlush_keeps (n : Nat) (s : State) (z0 : State) (hk : Keeps z0 s) : Keeps z0 (spxRxFlush n s) := by
  unfold spxRxFlush
  simp +contextual (maxDischargeDepth := 60) [*]

@[simp] theorem spxClear_keeps (n : Nat) (s : State) (z0 : State) (hk : Keeps z0 s) : Keeps z0 (spxClear n s) := by
  unfold spxClear
  have h := filter_keeps s { s with regs := s.regs.filter (fun x => !(decide ((0x40110000 + 0x10000 * n) * 32 ≤ x.1) && decide (x.1 < (0x40110000 + 0x10000 * n) * 32 + 0x10000 * 32))), com := s.com.filter (fun x => !(decide ((0x40110000 + 0x10000 * n) * 32 ≤ x.1) && decide (x.1 < (0x40110000 + 0x10000 * n) * 32 + 0x10000 * 32))) } _ _ hk rfl rfl rfl rfl rfl
  exact wr_keeps _ _ _ (wr_keeps _ _ _ (spxMod_keeps _ _ _ _ h))

@[simp] theorem busError_keeps (ini : Nat) (write : Bool) (a : Nat) (kind : Nat) (denied : Bool) (s : State) (z0 : State) (hk : Keeps z0 s) : Keeps z0 (busError ini write a kind denied s) := by
  unfold busError
  dsimp only
  (repeat' split) <;> simp +contextual (maxDischargeDepth := 60) [*]

@[simp] theorem spareShow_keeps (s : State) (z0 : State) (hk : Keeps z0 s) : Keeps z0 (spareShow s) := by
  unfold spareShow
  dsimp only
  (repeat' split) <;> simp +contextual (maxDischargeDepth := 60) [*]

@[simp] theorem spareReplace_keeps (arr : Nat) (row : Nat) (s : State) (z0 : State) (hk : Keeps z0 s) : Keeps z0 (spareReplace arr row s) := by
  unfold spareReplace
  dsimp only
  (repeat' split) <;> simp +contextual (maxDischargeDepth := 60) [*]

@[simp] theorem rowDetect_keeps (a : Nat) (s : State) (z0 : State) (hk : Keeps z0 s) : Keeps z0 (rowDetect a s) := by
  unfold rowDetect
  dsimp only
  (repeat' split) <;> simp +contextual (maxDischargeDepth := 60) [*]

@[simp] theorem ev156_keeps (s : State) (z0 : State) (hk : Keeps z0 s) : Keeps z0 (ev156 s) := by
  unfold ev156
  dsimp only
  (repeat' split) <;> simp +contextual (maxDischargeDepth := 60) [*]

@[simp] theorem parRecord_keeps (w : Nat) (a : Nat) (ini : Nat) (patrol : Bool) (refetched : Bool) (s : State) (z0 : State) (hk : Keeps z0 s) : Keeps z0 (parRecord w a ini patrol refetched s) := by
  unfold parRecord
  simp +contextual (maxDischargeDepth := 60) [*]

@[simp] theorem parDetect_keeps (a : Nat) (ini : Nat) (patrol : Bool) (s : State) (z0 : State) (hk : Keeps z0 s) : Keeps z0 (parDetect a ini patrol s) := by
  unfold parDetect
  dsimp only
  (repeat' split) <;> simp +contextual (maxDischargeDepth := 60) [*]

@[simp] theorem fabParity_keeps (a : Nat) (ini : Nat) (s : State) (z0 : State) (hk : Keeps z0 s) : Keeps z0 (fabParity a ini s) := by
  unfold fabParity
  simp +contextual (maxDischargeDepth := 60) [*]

@[simp] theorem arrayWrite_keeps (a : Nat) (l : List Nat) (loader : Bool) (s : State) (z0 : State) (hk : Keeps z0 s) : Keeps z0 (arrayWrite a l loader s) := by
  unfold arrayWrite
  dsimp only
  (repeat' split) <;> simp +contextual (maxDischargeDepth := 60) [*]

@[simp] theorem patrolRead_keeps (arr : Nat) (upsets : List Nat) (a2 : State) (z0 : State) (hk : Keeps z0 a2) : Keeps z0 (patrolRead arr upsets a2) := by
  unfold patrolRead
  dsimp only
  (repeat' split) <;> simp +contextual (maxDischargeDepth := 60) [*]

@[simp] theorem State.drcW_keeps (s : State) (f : Drc → Drc) (z0 : State) (hk : Keeps z0 s) : Keeps z0 (State.drcW s f) := by
  unfold State.drcW
  simp +contextual (maxDischargeDepth := 60) [*]

@[simp] theorem wqShow_keeps (s : State) (z0 : State) (hk : Keeps z0 s) : Keeps z0 (wqShow s) := by
  unfold wqShow
  simp +contextual (maxDischargeDepth := 60) [*]

@[simp] theorem pageAccess_keeps (b : Nat) (s : State) (z0 : State) (hk : Keeps z0 s) : Keeps z0 (pageAccess b s) := by
  unfold pageAccess
  dsimp only
  (repeat' split) <;> simp +contextual (maxDischargeDepth := 60) [*]

@[simp] theorem wqWrite_keeps (e : WqEntry) (s : State) (z0 : State) (hk : Keeps z0 s) : Keeps z0 (wqWrite e s) := by
  unfold wqWrite
  have hm : ∀ (l : List (Nat × Nat)) (m : List Host.Cell), memWf m = true → memWf (l.foldl (fun m p => memWr m (0x80000000 + e.block * 64 + p.1) (BitVec.ofNat 8 p.2)) m) = true :=
    fun l m h => foldl_keeps (fun m => memWf m = true) _ l m (fun m p h => memWf_memWr m _ _ h) h
  have h : Keeps z0 { s with mem := e.bytes.foldl (fun m p => memWr m (0x80000000 + e.block * 64 + p.1) (BitVec.ofNat 8 p.2)) s.mem } :=
    hk.trans ⟨rfl, fusesOnlyBlown_refl _, fun c => ⟨c.1, c.2.1, hm _ _ c.2.2⟩⟩
  have h1 := pageAccess_keeps e.block _ z0 h
  revert h1
  dsimp only
  generalize pageAccess e.block _ = s1
  intro h1
  split
  · simp (maxDischargeDepth := 60) [h1]
  · split <;> simp (maxDischargeDepth := 60) [h1]

@[simp] theorem wqAdd_keeps (ini : Nat) (a : Nat) (l : List Nat) (s : State) (z0 : State) (hk : Keeps z0 s) : Keeps z0 (wqAdd ini a l s) := by
  unfold wqAdd
  dsimp only
  (repeat' split) <;> simp +contextual (maxDischargeDepth := 60) [*]

@[simp] theorem wqFlushSpan_keeps (a : Nat) (n : Nat) (s : State) (z0 : State) (hk : Keeps z0 s) : Keeps z0 (wqFlushSpan a n s) := by
  unfold wqFlushSpan
  refine keeps_foldl _ _ _ (fun x a h => ?_) hk
  split <;> simp (maxDischargeDepth := 60) [h]

@[simp] theorem dramFail_keeps (b : Nat) (ini : Nat) (s : State) (z0 : State) (hk : Keeps z0 s) : Keeps z0 (dramFail b ini s) := by
  unfold dramFail
  simp +contextual (maxDischargeDepth := 60) [*]

@[simp] theorem dramServe_keeps (ini : Nat) (a : Nat) (n : Nat) (a3 : State) (z0 : State) (hk : Keeps z0 a3) : Keeps z0 (dramServe ini a n a3).2 := by
  unfold dramServe
  dsimp only
  (repeat' split) <;> simp +contextual (maxDischargeDepth := 60) [*]

@[simp] theorem dramPut_keeps (ini : Nat) (a : Nat) (l : List Nat) (s : State) (z0 : State) (hk : Keeps z0 s) : Keeps z0 (dramPut ini a l s) := by
  unfold dramPut
  refine keeps_foldl _ _ _ (fun x a h => ?_) hk
  dsimp only
  (repeat' split) <;> simp (maxDischargeDepth := 60) [h]

@[simp] theorem reqLate_keeps (s : State) (z0 : State) (hk : Keeps z0 s) : Keeps z0 (reqLate s) := by
  unfold reqLate
  dsimp only
  (repeat' split) <;> simp +contextual (maxDischargeDepth := 60) [*]

@[simp] theorem dramIssue_keeps (upset : Nat) (a1 : State) (z0 : State) (hk : Keeps z0 a1) : Keeps z0 (dramIssue upset a1) := by
  unfold dramIssue
  dsimp only
  (repeat' split) <;> simp +contextual (maxDischargeDepth := 60) [*]

@[simp] theorem drain_keeps (i : Nat) (s : State) (z0 : State) (hk : Keeps z0 s) : Keeps z0 (drain i s) := by
  unfold drain
  (repeat' split) <;> simp +contextual (maxDischargeDepth := 60) [*]

@[simp] theorem tempPoll_keeps (temp : Nat) (s : State) (z0 : State) (hk : Keeps z0 s) : Keeps z0 (tempPoll temp s) := by
  unfold tempPoll
  dsimp only
  (repeat' split) <;> simp +contextual (maxDischargeDepth := 60) [*]

@[simp] theorem dqsMeasure_keeps (drift : Bool) (s : State) (z0 : State) (hk : Keeps z0 s) : Keeps z0 (dqsMeasure drift s) := by
  unfold dqsMeasure
  dsimp only
  (repeat' split) <;> simp +contextual (maxDischargeDepth := 60) [*]

@[simp] theorem fullRetrain_keeps (s : State) (z0 : State) (hk : Keeps z0 s) : Keeps z0 (fullRetrain s) := by
  unfold fullRetrain
  simp +contextual (maxDischargeDepth := 60) [*]

@[simp] theorem engineRead_keeps (ini : Nat) (a : Nat) (n : Nat) (s : State) (z0 : State) (hk : Keeps z0 s) : Keeps z0 (engineRead ini a n s).2 := by
  unfold engineRead
  (repeat' split) <;> simp +contextual (maxDischargeDepth := 60) [*]

@[simp] theorem engineWrite_keeps (ini : Nat) (a : Nat) (l : List Nat) (s : State) (z0 : State) (hk : Keeps z0 s) : Keeps z0 (engineWrite ini a l s) := by
  unfold engineWrite
  simp +contextual (maxDischargeDepth := 60) [*]

@[simp] theorem State.flcW_keeps (s : State) (f : Flc → Flc) (z0 : State) (hk : Keeps z0 s) : Keeps z0 (State.flcW s f) := by
  unfold State.flcW
  simp +contextual (maxDischargeDepth := 60) [*]

@[simp] theorem flcShow_keeps (s : State) (z0 : State) (hk : Keeps z0 s) : Keeps z0 (flcShow s) := by
  unfold flcShow
  simp +contextual (maxDischargeDepth := 60) [*]

@[simp] theorem roEnter_keeps (s : State) (z0 : State) (hk : Keeps z0 s) : Keeps z0 (roEnter s) := by
  unfold roEnter
  simp +contextual (maxDischargeDepth := 60) [*]

@[simp] theorem blockRetire_keeps (p : Nat) (l : Nat) (cause : Nat) (s : State) (z0 : State) (hk : Keeps z0 s) : Keeps z0 (blockRetire p l cause s) := by
  unfold blockRetire
  dsimp only
  (repeat' split) <;> simp +contextual (maxDischargeDepth := 60) [*]

@[simp] theorem spareTake_keeps (pl : Nat) (l : Nat) (cause : Nat) (fails : Nat) (s : State) (z0 : State) (hk : Keeps z0 s) : Keeps z0 (spareTake pl l cause fails s).2 := by
  induction fails generalizing s with
  | zero => unfold spareTake; split <;> simp (maxDischargeDepth := 60) [hk]
  | succ n ih =>
    unfold spareTake
    split
    · exact hk
    · exact ih _ (by simp (maxDischargeDepth := 60) [hk])

@[simp] theorem blockErase_keeps (p : Nat) (s : State) (z0 : State) (hk : Keeps z0 s) : Keeps z0 (blockErase p s) := by
  unfold blockErase
  simp +contextual (maxDischargeDepth := 60) [*]

@[simp] theorem pageProgram_keeps (p : Nat) (page : Nat) (data : List Nat) (mt : List Nat) (s : State) (z0 : State) (hk : Keeps z0 s) : Keeps z0 (pageProgram p page data mt s) := by
  unfold pageProgram
  simp +contextual (maxDischargeDepth := 60) [*]

@[simp] theorem blockMap_keeps (l : Nat) (p : Nat) (s : State) (z0 : State) (hk : Keeps z0 s) : Keeps z0 (blockMap l p s) := by
  unfold blockMap
  simp +contextual (maxDischargeDepth := 60) [*]

@[simp] theorem blockCopy_keeps (old : Nat) (new : Nat) (upTo : Nat) (lost : List Nat) (s : State) (z0 : State) (hk : Keeps z0 s) : Keeps z0 (blockCopy old new upTo lost s) := by
  unfold blockCopy
  refine keeps_foldl _ _ _ (fun x a h => ?_) hk
  split
  · split <;> simp (maxDischargeDepth := 60) [h]
  · exact h

@[simp] theorem xoWrite_keeps (n : Nat) (v : Nat) (customer : Bool) (s : State) (z0 : State) (hk : Keeps z0 s) : Keeps z0 (xoWrite n v customer s) := by
  unfold xoWrite
  dsimp only
  (repeat' split) <;> simp +contextual (maxDischargeDepth := 60) [*]

@[simp] theorem qShow_keeps (s : State) (z0 : State) (hk : Keeps z0 s) : Keeps z0 (qShow s) := by
  unfold qShow
  dsimp only
  (repeat' split) <;> simp +contextual (maxDischargeDepth := 60) [*]

@[simp] theorem flcDoorbell_keeps (v : Nat) (s : State) (z0 : State) (hk : Keeps z0 s) : Keeps z0 (flcDoorbell v s) := by
  unfold flcDoorbell
  dsimp only
  (repeat' split) <;> simp +contextual (maxDischargeDepth := 60) [*]

@[simp] theorem flcCack_keeps (v : Nat) (s : State) (z0 : State) (hk : Keeps z0 s) : Keeps z0 (flcCack v s) := by
  unfold flcCack
  dsimp only
  (repeat' split) <;> simp +contextual (maxDischargeDepth := 60) [*]

@[simp] theorem flcComplete_keeps (d : FDesc) (r : FDone) (s : State) (z0 : State) (hk : Keeps z0 s) : Keeps z0 (flcComplete d r s) := by
  unfold flcComplete
  dsimp only
  (repeat' split) <;> simp +contextual (maxDischargeDepth := 60) [*]

@[simp] theorem flcDone_keeps (d : FDesc) (r : FDone) (s : State) (z0 : State) (hk : Keeps z0 s) : Keeps z0 (flcDone d r s) := by
  unfold flcDone
  simp +contextual (maxDischargeDepth := 60) [*]

@[simp] theorem flcEn_keeps (v : Nat) (s : State) (z0 : State) (hk : Keeps z0 s) : Keeps z0 (flcEn v s) := by
  unfold flcEn
  dsimp only
  (repeat' split) <;> simp +contextual (maxDischargeDepth := 60) [*]

@[simp] theorem qReinit_keeps (s : State) (z0 : State) (hk : Keeps z0 s) : Keeps z0 (qReinit s) := by
  unfold qReinit
  simp +contextual (maxDischargeDepth := 60) [*]

@[simp] theorem qHWrite_keeps (f : Field) (v : Nat) (ok : Bool) (s : State) (z0 : State) (hk : Keeps z0 s) : Keeps z0 (qHWrite f v ok s) := by
  unfold qHWrite
  simp +contextual (maxDischargeDepth := 60) [*]

@[simp] theorem descTake_keeps (a0 : State) (z0 : State) (hk : Keeps z0 a0) : Keeps z0 (descTake a0) := by
  unfold descTake
  dsimp only
  (repeat' split) <;> simp +contextual (maxDischargeDepth := 60) [*]

@[simp] theorem flcStart_keeps (pl : Nat) (s : State) (z0 : State) (hk : Keeps z0 s) : Keeps z0 (flcStart pl s) := by
  unfold flcStart
  dsimp only
  (repeat' split) <;> simp +contextual (maxDischargeDepth := 60) [*]

@[simp] theorem eraseSuspend_keeps (pl : Nat) (s : State) (z0 : State) (hk : Keeps z0 s) : Keeps z0 (eraseSuspend pl s) := by
  unfold eraseSuspend
  (repeat' split) <;> simp +contextual (maxDischargeDepth := 60) [*]

@[simp] theorem eraseResume_keeps (pl : Nat) (s : State) (z0 : State) (hk : Keeps z0 s) : Keeps z0 (eraseResume pl s) := by
  unfold eraseResume
  (repeat' split) <;> simp +contextual (maxDischargeDepth := 60) [*]

@[simp] theorem groupMod_keeps (l : Nat) (g : GroupWear → GroupWear) (s : State) (z0 : State) (hk : Keeps z0 s) : Keeps z0 (groupMod l g s) := by
  unfold groupMod
  simp +contextual (maxDischargeDepth := 60) [*]

@[simp] theorem readCount_keeps (l : Nat) (o : PageOut) (s : State) (z0 : State) (hk : Keeps z0 s) : Keeps z0 (readCount l o s) := by
  unfold readCount
  dsimp only
  (repeat' split) <;> simp +contextual (maxDischargeDepth := 60) [*]

@[simp] theorem readUnc_keeps (l : Nat) (s : State) (z0 : State) (hk : Keeps z0 s) : Keeps z0 (readUnc l s) := by
  unfold readUnc
  simp +contextual (maxDischargeDepth := 60) [*]

theorem readSink_keeps (d : FDesc) (l : Nat) (i : Nat) (s : State) (z0 : State) (hk : Keeps z0 s) : ∀ t, readSink d l i s = some t → Keeps z0 t := by
  unfold readSink
  dsimp only
  (repeat' split) <;> simp +contextual (maxDischargeDepth := 60) [*]

theorem loadSink_keeps (d : FDesc) (l : Nat) (i : Nat) (s : State) (z0 : State) (hk : Keeps z0 s) : ∀ t, loadSink d l i s = some t → Keeps z0 t := by
  unfold loadSink
  dsimp only
  (repeat' split) <;> simp +contextual (maxDischargeDepth := 60) [*]

@[simp] theorem progFetch_keeps (d : FDesc) (s : State) (z0 : State) (hk : Keeps z0 s) : Keeps z0 (progFetch d s).2 := by
  unfold progFetch
  refine foldl_keeps (fun (x : Option (List (List Nat × List Nat)) × State) => Keeps z0 x.2) _ _ _ (fun x i h => ?_) hk
  obtain ⟨a, t⟩ := x
  cases a with
  | none => exact h
  | some ps =>
    dsimp only
    split
    · exact h
    · have h1 := engineRead_keeps 16 (d.buf + 4096 * i) 4096 t z0 h
      revert h1
      generalize engineRead 16 (d.buf + 4096 * i) 4096 t = e
      obtain ⟨b, t1⟩ := e
      intro h1
      have h2 : Keeps z0 t1 := h1
      by_cases hm : d.meta_ = 0
      · simp only [hm, if_true]
        split <;> exact h2
      · simp only [hm, if_false]
        have h3 := engineRead_keeps 16 (d.meta_ + 16 * i) 16 t1 z0 h2
        revert h3
        generalize engineRead 16 (d.meta_ + 16 * i) 16 t1 = e
        obtain ⟨m, t2⟩ := e
        intro h3
        dsimp only
        split <;> exact h3

@[simp] theorem progPages_keeps (p : Nat) (page : Nat) (ps : List (List Nat × List Nat)) (s : State) (z0 : State) (hk : Keeps z0 s) : Keeps z0 (progPages p page ps s) := by
  unfold progPages
  simp +contextual (maxDischargeDepth := 60) [*]

@[simp] theorem progEnd_keeps (d : FDesc) (o : FlashOut) (r : FDone) (a3 : State) (z0 : State) (hk : Keeps z0 a3) : Keeps z0 (progEnd d o r a3) := by
  unfold progEnd
  have h1 := progFetch_keeps d a3 z0 hk
  revert h1
  dsimp only
  generalize progFetch d a3 = e
  obtain ⟨ps, s1⟩ := e
  intro h1
  have h2 : Keeps z0 s1 := h1
  cases ps with
  | none => simp (maxDischargeDepth := 60) [h2]
  | some ps =>
    dsimp only
    split
    · simp (maxDischargeDepth := 60) [h2]
    · next i _ =>
      generalize physOf (groupMod (dBlk a3 d) (fun g => { g with progs := g.progs + d.npage, pulses := g.pulses + o.pulses * d.npage }) s1) (dBlk a3 d) = old
      have h3 : Keeps z0 ((progPages old d.page (ps.take (min i (d.npage - 1))) (groupMod (dBlk a3 d) (fun g => { g with progs := g.progs + d.npage, pulses := g.pulses + o.pulses * d.npage }) s1)).inc Reg.FLC_PFAILCNT) := by
        simp (maxDischargeDepth := 60) [h2]
      have h4 := spareTake_keeps (planeOf old) (dBlk a3 d) 1 o.spareFails _ z0 h3
      revert h4
      generalize spareTake (planeOf old) (dBlk a3 d) 1 o.spareFails _ = e
      obtain ⟨p, s3⟩ := e
      intro h4
      have h5 : Keeps z0 s3 := h4
      cases p with
      | none => simp (maxDischargeDepth := 60) [h5]
      | some p => simp (maxDischargeDepth := 60) [h5]

@[simp] theorem flcCut_keeps (a0 : State) (z0 : State) (hk : Keeps z0 a0) : Keeps z0 (flcCut a0) := by
  unfold flcCut
  dsimp only
  (repeat' split) <;> simp +contextual (maxDischargeDepth := 60) [*]

@[simp] theorem eraseEnd_keeps (d : FDesc) (o : FlashOut) (r : FDone) (s : State) (z0 : State) (hk : Keeps z0 s) : Keeps z0 (eraseEnd d o r s) := by
  unfold eraseEnd
  dsimp only
  split
  · simp (maxDischargeDepth := 60) [hk]
  · have h0 : Keeps z0 (blockRetire (physOf s (dBlk s d)) (dBlk s d) 2 (s.inc Reg.FLC_EFAILCNT)) := by simp (maxDischargeDepth := 60) [hk]
    have h1 := spareTake_keeps (planeOf (physOf s (dBlk s d))) (dBlk s d) 2 o.spareFails _ z0 h0
    split
    · next h => rw [h] at h1; simp (maxDischargeDepth := 60) [show Keeps z0 _ from h1]
    · next h => rw [h] at h1; simp (maxDischargeDepth := 60) [show Keeps z0 _ from h1]

theorem readPage_keeps (l page i : Nat) (o : PageOut) (sink : Nat → State → Option State) (a : ReadAcc) (z0 : State)
    (hs : ∀ (i : Nat) (x t : State), Keeps z0 x → sink i x = some t → Keeps z0 t) (hk : Keeps z0 a.st) : Keeps z0 (readPage l page i o sink a).st := by
  unfold readPage
  split
  · exact hk
  · have h0 : ∀ p, Keeps z0 (readCount l p a.st) := fun p => readCount_keeps l p a.st z0 hk
    dsimp only
    generalize (if (pageAt a.st l page).isNone = true then PageOut.clean else o) = p
    split
    · exact readUnc_keeps _ _ _ (h0 p)
    · split
      · exact h0 p
      · next h => exact hs _ _ _ (h0 p) h

theorem readRun_keeps (d : FDesc) (l : Nat) (o : FlashOut) (sink : Nat → State → Option State) (r : FDone) (s z0 : State)
    (hs : ∀ (i : Nat) (x t : State), Keeps z0 x → sink i x = some t → Keeps z0 t) (hk : Keeps z0 s) : Keeps z0 (readRun d l o sink r s).st := by
  unfold readRun
  exact foldl_keeps (fun (a : ReadAcc) => Keeps z0 a.st) _ _ _ (fun a i h => readPage_keeps _ _ _ _ _ _ _ hs h) hk

@[simp] theorem flashEnd_keeps (pl : Nat) (o : FlashOut) (s : State) (z0 : State) (hk : Keeps z0 s) : Keeps z0 (flashEnd pl o s) := by
  unfold flashEnd
  split
  · exact hk
  · next run _ =>
    have h1 : Keeps z0 (s.flcW (fun f => { f with run := del pl f.run })) := by simp (maxDischargeDepth := 60) [hk]
    dsimp only
    split
    · exact flcDone_keeps _ _ _ _ (readRun_keeps _ _ _ _ _ _ _ (fun i x t h e => readSink_keeps _ _ _ x z0 h t e) h1)
    · exact flcDone_keeps _ _ _ _ (readRun_keeps _ _ _ _ _ _ _ (fun i x t h e => loadSink_keeps _ _ _ x z0 h t e) h1)
    · simp (maxDischargeDepth := 60) [h1]
    · simp (maxDischargeDepth := 60) [h1]

@[simp] theorem loaderRead_keeps (i : Nat) (o : PageOut) (s : State) (z0 : State) (hk : Keeps z0 s) : Keeps z0 (loaderRead i o s) := by
  unfold loaderRead
  dsimp only
  (repeat' split) <;> simp +contextual (maxDischargeDepth := 60) [*]

@[simp] theorem rowRefetch_keeps (i : Nat) (s : State) (z0 : State) (hk : Keeps z0 s) : Keeps z0 (rowRefetch i s) := by
  unfold rowRefetch
  dsimp only
  (repeat' split) <;> simp +contextual (maxDischargeDepth := 60) [*]

@[simp] theorem blockRefresh_keeps (l : Nat) (fails : Bool) (s : State) (z0 : State) (hk : Keeps z0 s) : Keeps z0 (blockRefresh l fails s) := by
  unfold blockRefresh
  have h1 := spareTake_keeps (planeOf (physOf s l)) l 2 0 s z0 hk
  dsimp only
  split
  · next h => rw [h] at h1; exact h1
  · next h => rw [h] at h1; split <;> simp (maxDischargeDepth := 60) [show Keeps z0 _ from h1]

@[simp] theorem scrubRun_keeps (first : Nat) (nblk : Nat) (outs : List (Nat × PageOut)) (s : State) (z0 : State) (hk : Keeps z0 s) : Keeps z0 (scrubRun first nblk outs s).2 := by
  unfold scrubRun
  refine foldl_keeps (fun (x : Nat × State) => Keeps z0 x.2) _ _ _ (fun x i h => ?_) hk
  dsimp only
  split
  · split <;> simp (maxDischargeDepth := 60) [show Keeps z0 x.2 from h]
  · exact h

@[simp] theorem scrubRefresh_keeps (first : Nat) (nblk : Nat) (s : State) (z0 : State) (hk : Keeps z0 s) : Keeps z0 (scrubRefresh first nblk s) := by
  unfold scrubRefresh
  simp +contextual (maxDischargeDepth := 60) [*]

@[simp] theorem autoScrub_keeps (outs : List (Nat × PageOut)) (s : State) (z0 : State) (hk : Keeps z0 s) : Keeps z0 (autoScrub outs s) := by
  unfold autoScrub
  simp +contextual (maxDischargeDepth := 60) [*]

@[simp] theorem alFire_keeps (s : State) (z0 : State) (hk : Keeps z0 s) : Keeps z0 (alFire s) := by
  unfold alFire
  simp +contextual (maxDischargeDepth := 60) [*]

@[simp] theorem rtcPutDate_keeps (y : Nat) (m : Nat) (d : Nat) (s : State) (z0 : State) (hk : Keeps z0 s) : Keeps z0 (rtcPutDate y m d s) := by
  unfold rtcPutDate
  simp +contextual (maxDischargeDepth := 60) [*]

@[simp] theorem rtcPutTime_keeps (h : Nat) (mi : Nat) (sec : Nat) (s : State) (z0 : State) (hk : Keeps z0 s) : Keeps z0 (rtcPutTime h mi sec s) := by
  unfold rtcPutTime
  simp +contextual (maxDischargeDepth := 60) [*]

@[simp] theorem rtcMidnight_keeps (s : State) (z0 : State) (hk : Keeps z0 s) : Keeps z0 (rtcMidnight s) := by
  unfold rtcMidnight
  dsimp only
  (repeat' split) <;> simp +contextual (maxDischargeDepth := 60) [*]

@[simp] theorem rtcTick_keeps (s : State) (z0 : State) (hk : Keeps z0 s) : Keeps z0 (rtcTick s) := by
  unfold rtcTick
  dsimp only
  (repeat' split) <;> simp +contextual (maxDischargeDepth := 60) [*]

@[simp] theorem secondAdvance_keeps (s : State) (z0 : State) (hk : Keeps z0 s) : Keeps z0 (secondAdvance s) := by
  unfold secondAdvance
  dsimp only
  (repeat' split) <;> simp +contextual (maxDischargeDepth := 60) [*]

@[simp] theorem rtcReadTime_keeps (ini : Nat) (s : State) (z0 : State) (hk : Keeps z0 s) : Keeps z0 (rtcReadTime ini s).2 := by
  unfold rtcReadTime
  dsimp only
  (repeat' split) <;> simp +contextual (maxDischargeDepth := 60) [*]

@[simp] theorem rtcSet_keeps (s : State) (z0 : State) (hk : Keeps z0 s) : Keeps z0 (rtcSet s) := by
  unfold rtcSet
  dsimp only
  (repeat' split) <;> simp +contextual (maxDischargeDepth := 60) [*]

@[simp] theorem rtcSetCommit_keeps (s : State) (z0 : State) (hk : Keeps z0 s) : Keeps z0 (rtcSetCommit s) := by
  unfold rtcSetCommit
  dsimp only
  (repeat' split) <;> simp +contextual (maxDischargeDepth := 60) [*]

@[simp] theorem rtcApply_keeps (s : State) (z0 : State) (hk : Keeps z0 s) : Keeps z0 (rtcApply s) := by
  unfold rtcApply
  dsimp only
  (repeat' split) <;> simp +contextual (maxDischargeDepth := 60) [*]

@[simp] theorem rtcWakeWrite_keeps (v : Nat) (s : State) (z0 : State) (hk : Keeps z0 s) : Keeps z0 (rtcWakeWrite v s) := by
  unfold rtcWakeWrite
  dsimp only
  (repeat' split) <;> simp +contextual (maxDischargeDepth := 60) [*]

@[simp] theorem periodicWake_keeps (s : State) (z0 : State) (hk : Keeps z0 s) : Keeps z0 (periodicWake s) := by
  unfold periodicWake
  dsimp only
  (repeat' split) <;> simp +contextual (maxDischargeDepth := 60) [*]

@[simp] theorem xtalFail_keeps (s : State) (z0 : State) (hk : Keeps z0 s) : Keeps z0 (xtalFail s) := by
  unfold xtalFail
  dsimp only
  (repeat' split) <;> simp +contextual (maxDischargeDepth := 60) [*]

@[simp] theorem xtalReturn_keeps (s : State) (z0 : State) (hk : Keeps z0 s) : Keeps z0 (xtalReturn s) := by
  unfold xtalReturn
  dsimp only
  (repeat' split) <;> simp +contextual (maxDischargeDepth := 60) [*]

@[simp] theorem coarseOffsetWrite_keeps (s : State) (z0 : State) (hk : Keeps z0 s) : Keeps z0 (coarseOffsetWrite s) := by
  unfold coarseOffsetWrite
  dsimp only
  (repeat' split) <;> simp +contextual (maxDischargeDepth := 60) [*]

@[simp] theorem firnRestore_keeps (s : State) (z0 : State) (hk : Keeps z0 s) : Keeps z0 (firnRestore s) := by
  unfold firnRestore
  dsimp only
  (repeat' split) <;> simp +contextual (maxDischargeDepth := 60) [*]

@[simp] theorem tmrMod_keeps (t : Nat) (f : Tmr → Tmr) (s : State) (z0 : State) (hk : Keeps z0 s) : Keeps z0 (tmrMod t f s) := by
  unfold tmrMod
  simp +contextual (maxDischargeDepth := 60) [*]

@[simp] theorem tmrModCh_keeps (t : Nat) (c : Nat) (f : TmrCh → TmrCh) (s : State) (z0 : State) (hk : Keeps z0 s) : Keeps z0 (tmrModCh t c f s) := by
  unfold tmrModCh
  simp +contextual (maxDischargeDepth := 60) [*]

@[simp] theorem tmrFlag_keeps (t : Nat) (c : Nat) (s : State) (z0 : State) (hk : Keeps z0 s) : Keeps z0 (tmrFlag t c s) := by
  unfold tmrFlag
  simp +contextual (maxDischargeDepth := 60) [*]

@[simp] theorem tmrCommit_keeps (t : Nat) (s : State) (z0 : State) (hk : Keeps z0 s) : Keeps z0 (tmrCommit t s) := by
  unfold tmrCommit
  dsimp only
  (repeat' split) <;> simp +contextual (maxDischargeDepth := 60) [*]

@[simp] theorem tmrStart_keeps (t : Nat) (s : State) (z0 : State) (hk : Keeps z0 s) : Keeps z0 (tmrStart t s) := by
  unfold tmrStart
  dsimp only
  (repeat' split) <;> simp +contextual (maxDischargeDepth := 60) [*]

@[simp] theorem tmrMatch_keeps (t : Nat) (c : Nat) (s : State) (z0 : State) (hk : Keeps z0 s) : Keeps z0 (tmrMatch t c s) := by
  unfold tmrMatch
  simp +contextual (maxDischargeDepth := 60) [*]

@[simp] theorem timerWrap_keeps (t : Nat) (s : State) (z0 : State) (hk : Keeps z0 s) : Keeps z0 (timerWrap t s) := by
  unfold timerWrap
  dsimp only
  (repeat' split) <;> simp +contextual (maxDischargeDepth := 60) [*]

@[simp] theorem tmrSee_keeps (t : Nat) (c : Nat) (s : State) (z0 : State) (hk : Keeps z0 s) : Keeps z0 (tmrSee t c s) := by
  unfold tmrSee
  simp +contextual (maxDischargeDepth := 60) [*]

@[simp] theorem compareMatch_keeps (t : Nat) (c : Nat) (s : State) (z0 : State) (hk : Keeps z0 s) : Keeps z0 (compareMatch t c s) := by
  unfold compareMatch
  simp +contextual (maxDischargeDepth := 60) [*]

@[simp] theorem pwmDutyReached_keeps (t : Nat) (c : Nat) (s : State) (z0 : State) (hk : Keeps z0 s) : Keeps z0 (pwmDutyReached t c s) := by
  unfold pwmDutyReached
  simp +contextual (maxDischargeDepth := 60) [*]

@[simp] theorem tmrCapture_keeps (t : Nat) (c : Nat) (s : State) (z0 : State) (hk : Keeps z0 s) : Keeps z0 (tmrCapture t c s) := by
  unfold tmrCapture
  dsimp only
  (repeat' split) <;> simp +contextual (maxDischargeDepth := 60) [*]

@[simp] theorem tmrEdge_keeps (t : Nat) (c : Nat) (s : State) (z0 : State) (hk : Keeps z0 s) : Keeps z0 (tmrEdge t c s) := by
  unfold tmrEdge
  dsimp only
  (repeat' split) <;> simp +contextual (maxDischargeDepth := 60) [*]

@[simp] theorem tmrForce_keeps (t : Nat) (c : Nat) (s : State) (z0 : State) (hk : Keeps z0 s) : Keeps z0 (tmrForce t c s) := by
  unfold tmrForce
  (repeat' split) <;> simp +contextual (maxDischargeDepth := 60) [*]

@[simp] theorem tmrWriteCmp_keeps (t : Nat) (c : Nat) (v : Nat) (s : State) (z0 : State) (hk : Keeps z0 s) : Keeps z0 (tmrWriteCmp t c v s) := by
  unfold tmrWriteCmp
  dsimp only
  (repeat' split) <;> simp +contextual (maxDischargeDepth := 60) [*]

@[simp] theorem tmrChannel_keeps (ch : Nat) (s : State) (z0 : State) (hk : Keeps z0 s) : Keeps z0 (tmrChannel ch s) := by
  unfold tmrChannel
  dsimp only
  (repeat' split) <;> simp +contextual (maxDischargeDepth := 60) [*]

@[simp] theorem tmrBlockReset_keeps (s : State) (z0 : State) (hk : Keeps z0 s) : Keeps z0 (tmrBlockReset s) := by
  unfold tmrBlockReset
  exact filter_keeps s _ _ _ hk rfl rfl rfl rfl rfl

@[simp] theorem tmrCapRead_keeps (t : Nat) (c : Nat) (s : State) (z0 : State) (hk : Keeps z0 s) : Keeps z0 (tmrCapRead t c s).2 := by
  unfold tmrCapRead
  dsimp only
  (repeat' split) <;> simp +contextual (maxDischargeDepth := 60) [*]

@[simp] theorem cphModCtx_keeps (n : Nat) (f : CphCtx → CphCtx) (s : State) (z0 : State) (hk : Keeps z0 s) : Keeps z0 (cphModCtx n f s) := by
  unfold cphModCtx
  dsimp only
  (repeat' split) <;> simp +contextual (maxDischargeDepth := 60) [*]

@[simp] theorem cphWords_keeps (f : Nat → Field) (b : List Nat) (s : State) (z0 : State) (hk : Keeps z0 s) : Keeps z0 (cphWords f b s) := by
  unfold cphWords
  simp +contextual (maxDischargeDepth := 60) [*]

@[simp] theorem cphFree_keeps (n : Nat) (s : State) (z0 : State) (hk : Keeps z0 s) : Keeps z0 (cphFree n s) := by
  unfold cphFree
  simp +contextual (maxDischargeDepth := 60) [*]

@[simp] theorem cphEvent_keeps (n : Nat) (s : State) (z0 : State) (hk : Keeps z0 s) : Keeps z0 (cphEvent n s) := by
  unfold cphEvent
  simp +contextual (maxDischargeDepth := 60) [*]

@[simp] theorem cphEnd_keeps (n : Nat) (err : Nat) (result : List Nat) (hit : Bool) (s : State) (z0 : State) (hk : Keeps z0 s) : Keeps z0 (cphEnd n err result hit s) := by
  unfold cphEnd
  dsimp only
  (repeat' split) <;> simp +contextual (maxDischargeDepth := 60) [*]

@[simp] theorem cphParity_keeps (s : State) (z0 : State) (hk : Keeps z0 s) : Keeps z0 (cphParity s) := by
  unfold cphParity
  simp +contextual (maxDischargeDepth := 60) [*]

@[simp] theorem cphKeyLost_keeps (n : Nat) (i : Nat) (s : State) (z0 : State) (hk : Keeps z0 s) : Keeps z0 (cphKeyLost n i s) := by
  unfold cphKeyLost
  dsimp only
  (repeat' split) <;> simp +contextual (maxDischargeDepth := 60) [*]

@[simp] theorem cphBegin_keeps (n : Nat) (parity : Bool) (s : State) (z0 : State) (hk : Keeps z0 s) : Keeps z0 (cphBegin n parity s) := by
  unfold cphBegin
  dsimp only
  (repeat' split) <;> simp +contextual (maxDischargeDepth := 60) [*]

@[simp] theorem cphStart_keeps (n : Nat) (parity : Bool) (s : State) (z0 : State) (hk : Keeps z0 s) : Keeps z0 (cphStart n parity s) := by
  unfold cphStart
  simp +contextual (maxDischargeDepth := 60) [*]

@[simp] theorem cphRun_keeps (s : State) (z0 : State) (hk : Keeps z0 s) : Keeps z0 (cphRun s) := by
  unfold cphRun
  dsimp only
  (repeat' split) <;> simp +contextual (maxDischargeDepth := 60) [*]

@[simp] theorem cphSubmit_keeps (n : Nat) (s : State) (z0 : State) (hk : Keeps z0 s) : Keeps z0 (cphSubmit n s) := by
  unfold cphSubmit
  dsimp only
  (repeat' split) <;> simp +contextual (maxDischargeDepth := 60) [*]

@[simp] theorem cphAbort_keeps (n : Nat) (s : State) (z0 : State) (hk : Keeps z0 s) : Keeps z0 (cphAbort n s) := by
  unfold cphAbort
  (repeat' split) <;> simp +contextual (maxDischargeDepth := 60) [*]

@[simp] theorem cphSetKey_keeps (n : Nat) (i : Nat) (k : KeySlot) (s : State) (z0 : State) (hk : Keeps z0 s) : Keeps z0 (cphSetKey n i k s) := by
  unfold cphSetKey
  dsimp only
  (repeat' split) <;> simp +contextual (maxDischargeDepth := 60) [*]

@[simp] theorem cphLoad_keeps (n : Nat) (s : State) (z0 : State) (hk : Keeps z0 s) : Keeps z0 (cphLoad n s) := by
  unfold cphLoad
  dsimp only
  (repeat' split) <;> simp +contextual (maxDischargeDepth := 60) [*]

@[simp] theorem cphClear_keeps (n : Nat) (i : Nat) (s : State) (z0 : State) (hk : Keeps z0 s) : Keeps z0 (cphClear n i s) := by
  unfold cphClear
  dsimp only
  (repeat' split) <;> simp +contextual (maxDischargeDepth := 60) [*]

@[simp] theorem keyLoadDone_keeps (s : State) (z0 : State) (hk : Keeps z0 s) : Keeps z0 (keyLoadDone s) := by
  unfold keyLoadDone
  dsimp only
  (repeat' split) <;> simp +contextual (maxDischargeDepth := 60) [*]

@[simp] theorem cphBlock_keeps (n : Nat) (b : List Nat) (s : State) (z0 : State) (hk : Keeps z0 s) : Keeps z0 (cphBlock n b s) := by
  unfold cphBlock
  dsimp only
  (repeat' split) <;> simp +contextual (maxDischargeDepth := 60) [*]

@[simp] theorem blockEnd_keeps (fault : Nat) (s : State) (z0 : State) (hk : Keeps z0 s) : Keeps z0 (blockEnd fault s) := by
  unfold blockEnd
  dsimp only
  (repeat' split) <;> simp +contextual (maxDischargeDepth := 60) [*]

@[simp] theorem cphOwnerChange_keeps (n : Nat) (s : State) (z0 : State) (hk : Keeps z0 s) : Keeps z0 (cphOwnerChange n s) := by
  unfold cphOwnerChange
  dsimp only
  (repeat' split) <;> simp +contextual (maxDischargeDepth := 60) [*]

@[simp] theorem krnSet_keeps (k : Nat) (st : Nat) (cause : Nat) (s : State) (z0 : State) (hk : Keeps z0 s) : Keeps z0 (krnSet k st cause s) := by
  unfold krnSet
  simp +contextual (maxDischargeDepth := 60) [*]

@[simp] theorem sigMod_keeps (c : Nat) (f : SigCore → SigCore) (s : State) (z0 : State) (hk : Keeps z0 s) : Keeps z0 (sigMod c f s) := by
  unfold sigMod
  simp +contextual (maxDischargeDepth := 60) [*]

@[simp] theorem krnMod_keeps (f : Runner → Runner) (s : State) (z0 : State) (hk : Keeps z0 s) : Keeps z0 (krnMod f s) := by
  unfold krnMod
  simp +contextual (maxDischargeDepth := 60) [*]

@[simp] theorem krnNext_keeps (s : State) (z0 : State) (hk : Keeps z0 s) : Keeps z0 (krnNext s) := by
  unfold krnNext
  dsimp only
  (repeat' split) <;> simp +contextual (maxDischargeDepth := 60) [*]

@[simp] theorem krnLeave_keeps (r : KernelRun) (s : State) (z0 : State) (hk : Keeps z0 s) : Keeps z0 (krnLeave r s) := by
  unfold krnLeave
  simp +contextual (maxDischargeDepth := 60) [*]

@[simp] theorem krnCounts_keeps (r : KernelRun) (s : State) (z0 : State) (hk : Keeps z0 s) : Keeps z0 (krnCounts r s) := by
  unfold krnCounts
  simp +contextual (maxDischargeDepth := 60) [*]

@[simp] theorem krnDone_keeps (result : Nat) (s : State) (z0 : State) (hk : Keeps z0 s) : Keeps z0 (krnDone result s) := by
  unfold krnDone
  dsimp only
  (repeat' split) <;> simp +contextual (maxDischargeDepth := 60) [*]

@[simp] theorem krnFault_keeps (cause : Nat) (epc : Nat) (s : State) (z0 : State) (hk : Keeps z0 s) : Keeps z0 (krnFault cause epc s) := by
  unfold krnFault
  dsimp only
  (repeat' split) <;> simp +contextual (maxDischargeDepth := 60) [*]

@[simp] theorem krnRefuse_keeps (k : Nat) (cause : Nat) (s : State) (z0 : State) (hk : Keeps z0 s) : Keeps z0 (krnRefuse k cause s) := by
  unfold krnRefuse
  simp +contextual (maxDischargeDepth := 60) [*]

@[simp] theorem krnEndAll_keeps (s : State) (z0 : State) (hk : Keeps z0 s) : Keeps z0 (krnEndAll s) := by
  unfold krnEndAll
  dsimp only
  (repeat' split) <;> simp +contextual (maxDischargeDepth := 60) [*]

@[simp] theorem krnFire1_keeps (ch : Nat) (k : Nat) (s : State) (z0 : State) (hk : Keeps z0 s) : Keeps z0 (krnFire1 ch k s) := by
  unfold krnFire1
  dsimp only
  (repeat' split) <;> simp +contextual (maxDischargeDepth := 60) [*]

@[simp] theorem krnFire_keeps (ch : Nat) (s : State) (z0 : State) (hk : Keeps z0 s) : Keeps z0 (krnFire ch s) := by
  unfold krnFire
  simp +contextual (maxDischargeDepth := 60) [*]

@[simp] theorem krnHeader_keeps (s : State) (z0 : State) (hk : Keeps z0 s) : Keeps z0 (krnHeader s) := by
  unfold krnHeader
  simp +contextual (maxDischargeDepth := 60) [*]

@[simp] theorem kernelPeriod_keeps (s : State) (z0 : State) (hk : Keeps z0 s) : Keeps z0 (kernelPeriod s) := by
  unfold kernelPeriod
  dsimp only
  (repeat' split) <;> simp +contextual (maxDischargeDepth := 60) [*]

@[simp] theorem kernelBudgetSuspend_keeps (s : State) (z0 : State) (hk : Keeps z0 s) : Keeps z0 (kernelBudgetSuspend s) := by
  unfold kernelBudgetSuspend
  dsimp only
  (repeat' split) <;> simp +contextual (maxDischargeDepth := 60) [*]

end Sys2Proof.Machine
end

