-- ==== Sys2Proof/Laws/KeepPower.lean ====
section
/-!
SUPPORT. What power, events, reset and the mailboxes keep: one lemma per operation, over `Keeps` (Laws/Keeps.lean).
-/
namespace Sys2Proof.Machine

@[simp] theorem regsLost_keeps (n : Nat) (s : State) (z0 : State) (hk : Keeps z0 s) : Keeps z0 (regsLost n s) := by
  unfold regsLost
  exact filter_keeps s _ _ _ hk rfl rfl rfl rfl rfl

@[simp] theorem coreReset_keeps (i : Nat) (s : State) (z0 : State) (hk : Keeps z0 s) : Keeps z0 (coreReset i s) := by
  unfold coreReset
  simp +contextual (maxDischargeDepth := 60) [*]

@[simp] theorem sigReset_keeps (i : Nat) (s : State) (z0 : State) (hk : Keeps z0 s) : Keeps z0 (sigReset i s) := by
  unfold sigReset
  simp +contextual (maxDischargeDepth := 60) [*]

@[simp] theorem cmpDisarmAll_keeps (s : State) (z0 : State) (hk : Keeps z0 s) : Keeps z0 (cmpDisarmAll s) := by
  unfold cmpDisarmAll
  dsimp only
  (repeat' split) <;> simp +contextual (maxDischargeDepth := 60) [*]

@[simp] theorem domLose_keeps (n : Nat) (a1 : State) (z0 : State) (hk : Keeps z0 a1) : Keeps z0 (domLose n a1) := by
  unfold domLose
  dsimp only
  (repeat' split) <;> simp +contextual (maxDischargeDepth := 60) [*]

@[simp] theorem domEnter_keeps (n : Nat) (target : Nat) (s00 : State) (z0 : State) (hk : Keeps z0 s00) : Keeps z0 (domEnter n target s00) := by
  unfold domEnter
  dsimp only
  (repeat' split) <;> simp +contextual (maxDischargeDepth := 60) [*]

@[simp] theorem coreStart_keeps (i : Nat) (s : State) (z0 : State) (hk : Keeps z0 s) : Keeps z0 (coreStart i s) := by
  unfold coreStart
  simp +contextual (maxDischargeDepth := 60) [*]

@[simp] theorem cycResume_keeps (s : State) (z0 : State) (hk : Keeps z0 s) : Keeps z0 (cycResume s) := by
  unfold cycResume
  simp +contextual (maxDischargeDepth := 60) [*]

@[simp] theorem domReady_keeps (n : Nat) (from_ : Nat) (s : State) (z0 : State) (hk : Keeps z0 s) : Keeps z0 (domReady n from_ s) := by
  unfold domReady
  dsimp only
  (repeat' split) <;> simp +contextual (maxDischargeDepth := 60) [*]

@[simp] theorem hsAfter_keeps (n : Nat) (s : State) (z0 : State) (hk : Keeps z0 s) : Keeps z0 (hsAfter n s) := by
  unfold hsAfter
  simp +contextual (maxDischargeDepth := 60) [*]

@[simp] theorem stopRefuse_keeps (reason : Nat) (s : State) (z0 : State) (hk : Keeps z0 s) : Keeps z0 (stopRefuse reason s) := by
  unfold stopRefuse
  dsimp only
  (repeat' split) <;> simp +contextual (maxDischargeDepth := 60) [*]

@[simp] theorem hsRefuse_keeps (h : Hs) (reason : Nat) (s : State) (z0 : State) (hk : Keeps z0 s) : Keeps z0 (hsRefuse h reason s) := by
  unfold hsRefuse
  simp +contextual (maxDischargeDepth := 60) [*]

@[simp] theorem hsAsk_keeps (h : Hs) (s : State) (z0 : State) (hk : Keeps z0 s) : Keeps z0 (hsAsk h s) := by
  unfold hsAsk
  dsimp only
  (repeat' split) <;> simp +contextual (maxDischargeDepth := 60) [*]

@[simp] theorem entryHandshake_keeps (n : Nat) (s : State) (z0 : State) (hk : Keeps z0 s) : Keeps z0 (entryHandshake n s) := by
  unfold entryHandshake
  (repeat' split) <;> simp +contextual (maxDischargeDepth := 60) [*]

@[simp] theorem delayLimit_keeps (n : Nat) (s : State) (z0 : State) (hk : Keeps z0 s) : Keeps z0 (delayLimit n s) := by
  unfold delayLimit
  (repeat' split) <;> simp +contextual (maxDischargeDepth := 60) [*]

@[simp] theorem thawStart_keeps (n : Nat) (s : State) (z0 : State) (hk : Keeps z0 s) : Keeps z0 (thawStart n s) := by
  unfold thawStart
  dsimp only
  (repeat' split) <;> simp +contextual (maxDischargeDepth := 60) [*]

@[simp] theorem accessWait_keeps (ini : Nat) (n : Nat) (s : State) (z0 : State) (hk : Keeps z0 s) : Keeps z0 (accessWait ini n s) := by
  unfold accessWait
  dsimp only
  (repeat' split) <;> simp +contextual (maxDischargeDepth := 60) [*]

@[simp] theorem riseDone_keeps (n : Nat) (s : State) (z0 : State) (hk : Keeps z0 s) : Keeps z0 (riseDone n s) := by
  unfold riseDone
  (repeat' split) <;> simp +contextual (maxDischargeDepth := 60) [*]

@[simp] theorem postFail_keeps (ini : Nat) (a : Nat) (kind : Nat) (s : State) (z0 : State) (hk : Keeps z0 s) : Keeps z0 (postFail ini a kind s) := by
  unfold postFail
  simp +contextual (maxDischargeDepth := 60) [*]

@[simp] theorem heldFail_keeps (ini : Nat) (n : Nat) (s : State) (z0 : State) (hk : Keeps z0 s) : Keeps z0 (heldFail ini n s) := by
  unfold heldFail
  dsimp only
  (repeat' split) <;> simp +contextual (maxDischargeDepth := 60) [*]

@[simp] theorem thawTimeout_keeps (ini : Nat) (n : Nat) (s : State) (z0 : State) (hk : Keeps z0 s) : Keeps z0 (thawTimeout ini n s) := by
  unfold thawTimeout
  dsimp only
  (repeat' split) <;> simp +contextual (maxDischargeDepth := 60) [*]

@[simp] theorem stopAsk_keeps (byPfail : Bool) (s : State) (z0 : State) (hk : Keeps z0 s) : Keeps z0 (stopAsk byPfail s) := by
  unfold stopAsk
  dsimp only
  (repeat' split) <;> simp +contextual (maxDischargeDepth := 60) [*]

@[simp] theorem stopReqWrite_keeps (s : State) (z0 : State) (hk : Keeps z0 s) : Keeps z0 (stopReqWrite s) := by
  unfold stopReqWrite
  simp +contextual (maxDischargeDepth := 60) [*]

@[simp] theorem pfailLow_keeps (s : State) (z0 : State) (hk : Keeps z0 s) : Keeps z0 (pfailLow s) := by
  unfold pfailLow
  dsimp only
  (repeat' split) <;> simp +contextual (maxDischargeDepth := 60) [*]

@[simp] theorem stopEnter_keeps (s : State) (z0 : State) (hk : Keeps z0 s) : Keeps z0 (stopEnter s) := by
  unfold stopEnter
  dsimp only
  (repeat' split) <;> simp +contextual (maxDischargeDepth := 60) [*]

@[simp] theorem stopExit_keeps (pfailRise : Bool) (s : State) (z0 : State) (hk : Keeps z0 s) : Keeps z0 (stopExit pfailRise s) := by
  unfold stopExit
  dsimp only
  (repeat' split) <;> simp +contextual (maxDischargeDepth := 60) [*]

@[simp] theorem stopCoastExit_keeps (s : State) (z0 : State) (hk : Keeps z0 s) : Keeps z0 (stopCoastExit s) := by
  unfold stopCoastExit
  simp +contextual (maxDischargeDepth := 60) [*]

@[simp] theorem waketWrite_keeps (count : Nat) (s : State) (z0 : State) (hk : Keeps z0 s) : Keeps z0 (waketWrite count s) := by
  unfold waketWrite
  simp +contextual (maxDischargeDepth := 60) [*]

@[simp] theorem wakeTimerExpiry_keeps (s : State) (z0 : State) (hk : Keeps z0 s) : Keeps z0 (wakeTimerExpiry s) := by
  unfold wakeTimerExpiry
  dsimp only
  (repeat' split) <;> simp +contextual (maxDischargeDepth := 60) [*]

@[simp] theorem gletyAwake_keeps (s : State) (z0 : State) (hk : Keeps z0 s) : Keeps z0 (gletyAwake s) := by
  unfold gletyAwake
  simp +contextual (maxDischargeDepth := 60) [*]

@[simp] theorem radioOff_keeps (s : State) (z0 : State) (hk : Keeps z0 s) : Keeps z0 (radioOff s) := by
  unfold radioOff
  dsimp only
  (repeat' split) <;> simp +contextual (maxDischargeDepth := 60) [*]

@[simp] theorem gletySleep_keeps (s : State) (z0 : State) (hk : Keeps z0 s) : Keeps z0 (gletySleep s) := by
  unfold gletySleep
  dsimp only
  (repeat' split) <;> simp +contextual (maxDischargeDepth := 60) [*]

@[simp] theorem wakeMatch_keeps (w : Nat) (s : State) (z0 : State) (hk : Keeps z0 s) : Keeps z0 (wakeMatch w s) := by
  unfold wakeMatch
  dsimp only
  (repeat' split) <;> simp +contextual (maxDischargeDepth := 60) [*]

@[simp] theorem tcxoStable_keeps (s : State) (z0 : State) (hk : Keeps z0 s) : Keeps z0 (tcxoStable s) := by
  unfold tcxoStable
  dsimp only
  (repeat' split) <;> simp +contextual (maxDischargeDepth := 60) [*]

@[simp] theorem falseWake_keeps (s : State) (z0 : State) (hk : Keeps z0 s) : Keeps z0 (falseWake s) := by
  unfold falseWake
  dsimp only
  (repeat' split) <;> simp +contextual (maxDischargeDepth := 60) [*]

@[simp] theorem tcxoLoss_keeps (s : State) (z0 : State) (hk : Keeps z0 s) : Keeps z0 (tcxoLoss s) := by
  unfold tcxoLoss
  dsimp only
  (repeat' split) <;> simp +contextual (maxDischargeDepth := 60) [*]

@[simp] theorem tcxoReturn_keeps (s : State) (z0 : State) (hk : Keeps z0 s) : Keeps z0 (tcxoReturn s) := by
  unfold tcxoReturn
  dsimp only
  (repeat' split) <;> simp +contextual (maxDischargeDepth := 60) [*]

@[simp] theorem fabClockStop_keeps (s : State) (z0 : State) (hk : Keeps z0 s) : Keeps z0 (fabClockStop s) := by
  unfold fabClockStop
  simp +contextual (maxDischargeDepth := 60) [*]

@[simp] theorem evtTick_keeps (s : State) (z0 : State) (hk : Keeps z0 s) : Keeps z0 (evtTick s) := by
  unfold evtTick
  simp +contextual (maxDischargeDepth := 60) [*]

@[simp] theorem grpSet_keeps (g : Nat) (en : Bool) (a2 : State) (z0 : State) (hk : Keeps z0 a2) : Keeps z0 (grpSet g en a2) := by
  unfold grpSet
  dsimp only
  (repeat' split) <;> simp +contextual (maxDischargeDepth := 60) [*]

@[simp] theorem intcPend_keeps (c : Nat) (l : Nat) (s : State) (z0 : State) (hk : Keeps z0 s) : Keeps z0 (intcPend c l s) := by
  unfold intcPend
  dsimp only
  (repeat' split) <;> simp +contextual (maxDischargeDepth := 60) [*]

@[simp] theorem srcReach_keeps (src : Nat) (s : State) (z0 : State) (hk : Keeps z0 s) : Keeps z0 (srcReach src s) := by
  unfold srcReach
  dsimp only
  (repeat' split) <;> simp +contextual (maxDischargeDepth := 60) [*]

@[simp] theorem ev127_keeps (s : State) (z0 : State) (hk : Keeps z0 s) : Keeps z0 (ev127 s) := by
  unfold ev127
  (repeat' split) <;> simp +contextual (maxDischargeDepth := 60) [*]

@[simp] theorem capChannel_keeps (ch : Nat) (t : Nat) (s : State) (z0 : State) (hk : Keeps z0 s) : Keeps z0 (capChannel ch t s) := by
  unfold capChannel
  simp +contextual (maxDischargeDepth := 60) [*]

@[simp] theorem launchWire_keeps (ch : Nat) (cmp : Nat) (s : State) (z0 : State) (hk : Keeps z0 s) : Keeps z0 (launchWire ch cmp s) := by
  unfold launchWire
  simp +contextual (maxDischargeDepth := 60) [*]

@[simp] theorem fireWire_keeps (ch : Nat) (launch : Option (Nat × Nat)) (s : State) (z0 : State) (hk : Keeps z0 s) : Keeps z0 (fireWire ch launch s) := by
  unfold fireWire
  dsimp only
  (repeat' split) <;> simp +contextual (maxDischargeDepth := 60) [*]

@[simp] theorem fireReach_keeps (ch : Nat) (launch : Option (Nat × Nat)) (s : State) (z0 : State) (hk : Keeps z0 s) : Keeps z0 (fireReach ch launch s) := by
  unfold fireReach
  dsimp only
  (repeat' split) <;> simp +contextual (maxDischargeDepth := 60) [*]

@[simp] theorem chanFire_keeps (ch : Nat) (launch : Option (Nat × Nat)) (a2 : State) (z0 : State) (hk : Keeps z0 a2) : Keeps z0 (chanFire ch launch a2) := by
  unfold chanFire
  dsimp only
  (repeat' split) <;> simp +contextual (maxDischargeDepth := 60) [*]

@[simp] theorem srcArrive_keeps (src : Nat) (s : State) (z0 : State) (hk : Keeps z0 s) : Keeps z0 (srcArrive src s) := by
  unfold srcArrive
  simp +contextual (maxDischargeDepth := 60) [*]

@[simp] theorem eventDelivery_keeps (srcs : List Nat) (s : State) (z0 : State) (hk : Keeps z0 s) : Keeps z0 (eventDelivery srcs s) := by
  unfold eventDelivery
  dsimp only
  (repeat' split) <;> simp +contextual (maxDischargeDepth := 60) [*]

@[simp] theorem launch_keeps (n : Nat) (s : State) (z0 : State) (hk : Keeps z0 s) : Keeps z0 (launch n s) := by
  unfold launch
  dsimp only
  (repeat' split) <;> simp +contextual (maxDischargeDepth := 60) [*]

@[simp] theorem capture_keeps (k : Nat) (s : State) (z0 : State) (hk : Keeps z0 s) : Keeps z0 (capture k s) := by
  unfold capture
  dsimp only
  (repeat' split) <;> simp +contextual (maxDischargeDepth := 60) [*]

@[simp] theorem fireWord_keeps (base : Nat) (v : Nat) (s : State) (z0 : State) (hk : Keeps z0 s) : Keeps z0 (fireWord base v s) := by
  unfold fireWord
  simp +contextual (maxDischargeDepth := 60) [*]

/-- A state whose queue and fuses are those of `s`, whose register files are parts of those of `s`, and whose memory is empty. -/

theorem emptied_keeps (s t z0 : State) (p q : Nat × Nat → Bool) (h : Keeps z0 s) (h1 : t.pending = s.pending) (h2 : t.fuses = s.fuses)
    (h4 : t.regs = s.regs.filter p) (h5 : t.com = s.com.filter q) (h3 : t.mem = []) : Keeps z0 t :=
  h.trans ⟨h1, by rw [h2]; exact fusesOnlyBlown_refl _, fun c => ⟨by rw [h4]; exact keysRise_filter _ _ c.1, by rw [h5]; exact keysRise_filter _ _ c.2.1, by rw [h3]; rfl⟩⟩

@[simp] theorem resetTo_keeps (aon : Bool) (a1 : State) (z0 : State) (hk : Keeps z0 a1) : Keeps z0 (resetTo aon a1) := by
  exact emptied_keeps (flcCut a1) _ _ _ _ (flcCut_keeps a1 z0 hk) rfl rfl rfl rfl rfl

@[simp] theorem sysReset_keeps (cause : Field) (s : State) (z0 : State) (hk : Keeps z0 s) : Keeps z0 (sysReset cause s) := by
  unfold sysReset
  simp +contextual (maxDischargeDepth := 60) [*]

@[simp] theorem powerOn_keeps (resetLow : Bool) (s : State) (z0 : State) (hk : Keeps z0 s) : Keeps z0 (powerOn resetLow s) := by
  unfold powerOn
  dsimp only
  (repeat' split) <;> simp +contextual (maxDischargeDepth := 60) [*]

@[simp] theorem backupLoss_keeps (s : State) (z0 : State) (hk : Keeps z0 s) : Keeps z0 (backupLoss s) := by
  exact emptied_keeps (resetTo false s) _ _ (fun p => !backupKey p.1) (fun _ => false) (resetTo_keeps false s z0 hk) rfl rfl rfl (List.filter_eq_nil_iff.mpr (by simp)).symm rfl

@[simp] theorem resetNLow_keeps (s : State) (z0 : State) (hk : Keeps z0 s) : Keeps z0 (resetNLow s) := by
  unfold resetNLow
  dsimp only
  (repeat' split) <;> simp +contextual (maxDischargeDepth := 60) [*]

@[simp] theorem resetNRelease_keeps (s : State) (z0 : State) (hk : Keeps z0 s) : Keeps z0 (resetNRelease s) := by
  unfold resetNRelease
  dsimp only
  (repeat' split) <;> simp +contextual (maxDischargeDepth := 60) [*]

@[simp] theorem watchdogKick_keeps (s : State) (z0 : State) (hk : Keeps z0 s) : Keeps z0 (watchdogKick s) := by
  unfold watchdogKick
  simp +contextual (maxDischargeDepth := 60) [*]

@[simp] theorem aonStart_keeps (strap : Bool) (s : State) (z0 : State) (hk : Keeps z0 s) : Keeps z0 (aonStart strap s) := by
  unfold aonStart
  dsimp only
  (repeat' split) <;> simp +contextual (maxDischargeDepth := 60) [*]

@[simp] theorem clocks_keeps (s : State) (z0 : State) (hk : Keeps z0 s) : Keeps z0 (clocks s) := by
  unfold clocks
  dsimp only
  (repeat' split) <;> simp +contextual (maxDischargeDepth := 60) [*]

@[simp] theorem fusesLoad_keeps (s : State) (z0 : State) (hk : Keeps z0 s) : Keeps z0 (fusesLoad s) := by
  unfold fusesLoad
  dsimp only
  (repeat' split) <;> simp +contextual (maxDischargeDepth := 60) [*]

@[simp] theorem rmapGone_keeps (s : State) (z0 : State) (hk : Keeps z0 s) : Keeps z0 (rmapGone s) := by
  unfold rmapGone
  exact filter_keeps s _ _ (fun _ => true) hk rfl rfl rfl rfl (List.filter_eq_self.mpr (by simp)).symm

@[simp] theorem repair_keeps (a : Bool) (b : Bool) (s : State) (z0 : State) (hk : Keeps z0 s) : Keeps z0 (repair a b s) := by
  unfold repair
  simp +contextual (maxDischargeDepth := 60) [*]

@[simp] theorem sramInit_keeps (s : State) (z0 : State) (hk : Keeps z0 s) : Keeps z0 (sramInit s) := by
  unfold sramInit
  dsimp only
  (repeat' split) <;> simp +contextual (maxDischargeDepth := 60) [*]

@[simp] theorem tablesActivate_keeps (s : State) (z0 : State) (hk : Keeps z0 s) : Keeps z0 (tablesActivate s) := by
  unfold tablesActivate
  dsimp only
  (repeat' split) <;> simp +contextual (maxDischargeDepth := 60) [*]

@[simp] theorem tablesBack_keeps (running : Bool) (s : State) (z0 : State) (hk : Keeps z0 s) : Keeps z0 (tablesBack running s) := by
  unfold tablesBack
  dsimp only
  (repeat' split) <;> simp +contextual (maxDischargeDepth := 60) [*]

@[simp] theorem fallBack_keeps (running : Bool) (s : State) (z0 : State) (hk : Keeps z0 s) : Keeps z0 (fallBack running s) := by
  unfold fallBack
  simp +contextual (maxDischargeDepth := 60) [*]

@[simp] theorem fellNotice_keeps (s : State) (z0 : State) (hk : Keeps z0 s) : Keeps z0 (fellNotice s) := by
  unfold fellNotice
  simp +contextual (maxDischargeDepth := 60) [*]

@[simp] theorem appRestart_keeps (s : State) (z0 : State) (hk : Keeps z0 s) : Keeps z0 (appRestart s) := by
  unfold appRestart
  dsimp only
  (repeat' split) <;> simp +contextual (maxDischargeDepth := 60) [*]

@[simp] theorem recoveryEnter_keeps (s : State) (z0 : State) (hk : Keeps z0 s) : Keeps z0 (recoveryEnter s) := by
  unfold recoveryEnter
  simp +contextual (maxDischargeDepth := 60) [*]

@[simp] theorem image_keeps (okA : Bool) (okB : Bool) (a2 : State) (z0 : State) (hk : Keeps z0 a2) : Keeps z0 (image okA okB a2) := by
  unfold image
  dsimp only
  (repeat' split) <;> simp +contextual (maxDischargeDepth := 60) [*]

@[simp] theorem netRestore_keeps (coord : Bool) (s : State) (z0 : State) (hk : Keeps z0 s) : Keeps z0 (netRestore coord s) := by
  unfold netRestore
  dsimp only
  (repeat' split) <;> simp +contextual (maxDischargeDepth := 60) [*]

@[simp] theorem enonceRestart_keeps (s : State) (z0 : State) (hk : Keeps z0 s) : Keeps z0 (enonceRestart s) := by
  unfold enonceRestart
  dsimp only
  (repeat' split) <;> simp +contextual (maxDischargeDepth := 60) [*]

@[simp] theorem calAll_keeps (s : State) (z0 : State) (hk : Keeps z0 s) : Keeps z0 (calAll s) := by
  unfold calAll
  dsimp only
  (repeat' split) <;> simp +contextual (maxDischargeDepth := 60) [*]

@[simp] theorem rmapRebuild_keeps (s : State) (z0 : State) (hk : Keeps z0 s) : Keeps z0 (rmapRebuild s) := by
  unfold rmapRebuild
  simp +contextual (maxDischargeDepth := 60) [*]

@[simp] theorem bootNotice_keeps (s : State) (z0 : State) (hk : Keeps z0 s) : Keeps z0 (bootNotice s) := by
  unfold bootNotice
  dsimp only
  (repeat' split) <;> simp +contextual (maxDischargeDepth := 60) [*]

@[simp] theorem krnServe_keeps (s : State) (z0 : State) (hk : Keeps z0 s) : Keeps z0 (krnServe s) := by
  unfold krnServe
  dsimp only
  (repeat' split) <;> simp +contextual (maxDischargeDepth := 60) [*]

@[simp] theorem running_keeps (s : State) (z0 : State) (hk : Keeps z0 s) : Keeps z0 (running s) := by
  unfold running
  dsimp only
  (repeat' split) <;> simp +contextual (maxDischargeDepth := 60) [*]

@[simp] theorem gletyInit_keeps (coord : Bool) (s : State) (z0 : State) (hk : Keeps z0 s) : Keeps z0 (gletyInit coord s) := by
  unfold gletyInit
  dsimp only
  (repeat' split) <;> simp +contextual (maxDischargeDepth := 60) [*]

@[simp] theorem activateInPlace_keeps (s : State) (z0 : State) (hk : Keeps z0 s) : Keeps z0 (activateInPlace s) := by
  unfold activateInPlace
  dsimp only
  (repeat' split) <;> simp +contextual (maxDischargeDepth := 60) [*]

@[simp] theorem activateReset_keeps (s : State) (z0 : State) (hk : Keeps z0 s) : Keeps z0 (activateReset s) := by
  unfold activateReset
  dsimp only
  (repeat' split) <;> simp +contextual (maxDischargeDepth := 60) [*]

@[simp] theorem activation_keeps (a0 : State) (z0 : State) (hk : Keeps z0 a0) : Keeps z0 (activation a0) := by
  unfold activation
  dsimp only
  (repeat' split) <;> simp +contextual (maxDischargeDepth := 60) [*]

@[simp] theorem trialConfirm_keeps (s : State) (z0 : State) (hk : Keeps z0 s) : Keeps z0 (trialConfirm s) := by
  unfold trialConfirm
  dsimp only
  (repeat' split) <;> simp +contextual (maxDischargeDepth := 60) [*]

@[simp] theorem confwinExpiry_keeps (s : State) (z0 : State) (hk : Keeps z0 s) : Keeps z0 (confwinExpiry s) := by
  unfold confwinExpiry
  dsimp only
  (repeat' split) <;> simp +contextual (maxDischargeDepth := 60) [*]

@[simp] theorem recInstall_keeps (b : List Nat) (s : State) (z0 : State) (hk : Keeps z0 s) : Keeps z0 (recInstall b s) := by
  unfold recInstall
  dsimp only
  (repeat' split) <;> simp +contextual (maxDischargeDepth := 60) [*]

@[simp] theorem cardTry_keeps (card : List Nat) (s : State) (z0 : State) (hk : Keeps z0 s) : Keeps z0 (cardTry card s) := by
  unfold cardTry
  dsimp only
  (repeat' split) <;> simp +contextual (maxDischargeDepth := 60) [*]

@[simp] theorem recFrame_keeps (words : List Nat) (s : State) (z0 : State) (hk : Keeps z0 s) : Keeps z0 (recFrame words s) := by
  unfold recFrame
  dsimp only
  (repeat' split) <;> simp +contextual (maxDischargeDepth := 60) [*]

@[simp] theorem mbTake_keeps (m : Nat) (s : State) (z0 : State) (hk : Keeps z0 s) : Keeps z0 (mbTake m s) := by
  unfold mbTake
  dsimp only
  (repeat' split) <;> simp +contextual (maxDischargeDepth := 60) [*]

@[simp] theorem mbPush_keeps (m : Nat) (r : MbRec) (s : State) (z0 : State) (hk : Keeps z0 s) : Keeps z0 (mbPush m r s) := by
  unfold mbPush
  simp +contextual (maxDischargeDepth := 60) [*]

@[simp] theorem mbResult_keeps (m : Nat) (r : MbReq) (status : Nat) (payload : List Nat) (s : State) (z0 : State) (hk : Keeps z0 s) : Keeps z0 (mbResult m r status payload s) := by
  unfold mbResult
  simp +contextual (maxDischargeDepth := 60) [*]

@[simp] theorem mbAccept_keeps (m : Nat) (r : MbReq) (args : List Nat) (data : List Nat) (s : State) (z0 : State) (hk : Keeps z0 s) : Keeps z0 (mbAccept m r args data s) := by
  unfold mbAccept
  dsimp only
  (repeat' split) <;> simp +contextual (maxDischargeDepth := 60) [*]

@[simp] theorem cmdRun_keeps (m : Nat) (lenOk : Nat → Bool) (long : Bool) (body : MbReq → State → State) (s : State) (z0 : State) (h_body : ∀ (y0 : MbReq) (y1 : State), Keeps z0 y1 → Keeps z0 (body y0 y1)) (hk : Keeps z0 s) : Keeps z0 (cmdRun m lenOk long body s) := by
  unfold cmdRun
  dsimp only
  (repeat' split) <;> simp +contextual (maxDischargeDepth := 60) [*]

@[simp] theorem shortCmd_keeps (m : Nat) (n : Nat) (body : MbReq → State → State) (s : State) (z0 : State) (h_body : ∀ (y0 : MbReq) (y1 : State), Keeps z0 y1 → Keeps z0 (body y0 y1)) (hk : Keeps z0 s) : Keeps z0 (shortCmd m n body s) := by
  unfold shortCmd
  simp +contextual (maxDischargeDepth := 60) [*]

@[simp] theorem longCmd_keeps (m : Nat) (n : Nat) (body : MbReq → State → State) (s : State) (z0 : State) (h_body : ∀ (y0 : MbReq) (y1 : State), Keeps z0 y1 → Keeps z0 (body y0 y1)) (hk : Keeps z0 s) : Keeps z0 (longCmd m n body s) := by
  unfold longCmd
  simp +contextual (maxDischargeDepth := 60) [*]

@[simp] theorem lostNotice_keeps (m : Nat) (s : State) (z0 : State) (hk : Keeps z0 s) : Keeps z0 (lostNotice m s) := by
  unfold lostNotice
  dsimp only
  (repeat' split) <;> simp +contextual (maxDischargeDepth := 60) [*]

@[simp] theorem recordPost_keeps (m : Nat) (s : State) (z0 : State) (hk : Keeps z0 s) : Keeps z0 (recordPost m s) := by
  unfold recordPost
  dsimp only
  (repeat' split) <;> simp +contextual (maxDischargeDepth := 60) [*]

@[simp] theorem progressRecord_keeps (m : Nat) (tag : Nat) (s : State) (z0 : State) (hk : Keeps z0 s) : Keeps z0 (progressRecord m tag s) := by
  unfold progressRecord
  dsimp only
  (repeat' split) <;> simp +contextual (maxDischargeDepth := 60) [*]

@[simp] theorem cardRelease_keeps (o : LiveOp) (s : State) (z0 : State) (hk : Keeps z0 s) : Keeps z0 (cardRelease o s) := by
  unfold cardRelease
  simp +contextual (maxDischargeDepth := 60) [*]

@[simp] theorem opUndo_keeps (m : Nat) (o : LiveOp) (s : State) (z0 : State) (hk : Keeps z0 s) : Keeps z0 (opUndo m o s) := by
  unfold opUndo
  dsimp only
  (repeat' split) <;> simp +contextual (maxDischargeDepth := 60) [*]

@[simp] theorem opCancel_keeps (m : Nat) (o : LiveOp) (status : Nat) (s : State) (z0 : State) (hk : Keeps z0 s) : Keeps z0 (opCancel m o status s) := by
  unfold opCancel
  simp +contextual (maxDischargeDepth := 60) [*]

@[simp] theorem suspend_keeps (m : Nat) (s : State) (z0 : State) (hk : Keeps z0 s) : Keeps z0 (suspend m s) := by
  unfold suspend
  refine shortCmd_keeps _ _ _ _ _ (fun r t h => ?_) hk
  (repeat' split) <;> simp (maxDischargeDepth := 60) [h]

@[simp] theorem resume_keeps (m : Nat) (s : State) (z0 : State) (hk : Keeps z0 s) : Keeps z0 (resume m s) := by
  unfold resume
  refine shortCmd_keeps _ _ _ _ _ (fun r t h => ?_) hk
  (repeat' split) <;> simp (maxDischargeDepth := 60) [h]

@[simp] theorem cancel_keeps (m : Nat) (s : State) (z0 : State) (hk : Keeps z0 s) : Keeps z0 (cancel m s) := by
  unfold cancel
  refine shortCmd_keeps _ _ _ _ _ (fun r t h => ?_) hk
  (repeat' split) <;> simp (maxDischargeDepth := 60) [h]

@[simp] theorem suspendTimeout_keeps (m : Nat) (tag : Nat) (s : State) (z0 : State) (hk : Keeps z0 s) : Keeps z0 (suspendTimeout m tag s) := by
  unfold suspendTimeout
  (repeat' split) <;> simp +contextual (maxDischargeDepth := 60) [*]

@[simp] theorem opsList_keeps (m : Nat) (s : State) (z0 : State) (hk : Keeps z0 s) : Keeps z0 (opsList m s) := by
  unfold opsList
  dsimp only
  (repeat' split) <;> simp +contextual (maxDischargeDepth := 60) [*]

@[simp] theorem mbFlush_keeps (m : Nat) (s : State) (z0 : State) (hk : Keeps z0 s) : Keeps z0 (mbFlush m s) := by
  unfold mbFlush
  simp +contextual (maxDischargeDepth := 60) [*]

@[simp] theorem mbForget_keeps (m : Nat) (s : State) (z0 : State) (hk : Keeps z0 s) : Keeps z0 (mbForget m s) := by
  unfold mbForget
  dsimp only
  (repeat' split) <;> simp +contextual (maxDischargeDepth := 60) [*]

@[simp] theorem flushDone_keeps (m : Nat) (s : State) (z0 : State) (hk : Keeps z0 s) : Keeps z0 (flushDone m s) := by
  unfold flushDone
  dsimp only
  (repeat' split) <;> simp +contextual (maxDischargeDepth := 60) [*]

@[simp] theorem bufPut_keeps (m : Nat) (h : Nat) (data : List Nat) (s : State) (z0 : State) (hk : Keeps z0 s) : Keeps z0 (bufPut m h data s) := by
  unfold bufPut
  simp +contextual (maxDischargeDepth := 60) [*]

@[simp] theorem bufOpen_keeps (m : Nat) (s : State) (z0 : State) (hk : Keeps z0 s) : Keeps z0 (bufOpen m s) := by
  unfold bufOpen
  refine shortCmd_keeps _ _ _ _ _ (fun r t h => ?_) hk
  (repeat' split) <;> simp (maxDischargeDepth := 60) [h]

@[simp] theorem bufWrite_keeps (m : Nat) (s : State) (z0 : State) (hk : Keeps z0 s) : Keeps z0 (bufWrite m s) := by
  unfold bufWrite
  refine cmdRun_keeps _ _ _ _ _ _ (fun r t h => ?_) hk
  (repeat' split) <;> simp (maxDischargeDepth := 60) [h]

@[simp] theorem bufRead_keeps (m : Nat) (s : State) (z0 : State) (hk : Keeps z0 s) : Keeps z0 (bufRead m s) := by
  unfold bufRead
  refine shortCmd_keeps _ _ _ _ _ (fun r t h => ?_) hk
  (repeat' split) <;> simp (maxDischargeDepth := 60) [h]

@[simp] theorem bufClose_keeps (m : Nat) (s : State) (z0 : State) (hk : Keeps z0 s) : Keeps z0 (bufClose m s) := by
  unfold bufClose
  simp +contextual (maxDischargeDepth := 60) [*]

@[simp] theorem unknownCommand_keeps (m : Nat) (s : State) (z0 : State) (hk : Keeps z0 s) : Keeps z0 (unknownCommand m s) := by
  unfold unknownCommand
  simp +contextual (maxDischargeDepth := 60) [*]

end Sys2Proof.Machine
end

