-- ==== Sys2Proof/Laws/KeepBus.lean ====
section
/-!
SUPPORT. What register writes, the bus, and both instruction sets keep: one lemma per operation, over `Keeps` (Laws/Keeps.lean).
-/
namespace Sys2Proof.Machine

@[simp] theorem fieldPut_keeps (f : Field) (v : Nat) (s : State) (z0 : State) (hk : Keeps z0 s) : Keeps z0 (fieldPut f v s) := by
  unfold fieldPut
  (repeat' split) <;> simp +contextual (maxDischargeDepth := 60) [*]

@[simp] theorem regPut_keeps (skip : List Field) (fs : List Field) (v : Nat) (s : State) (z0 : State) (hk : Keeps z0 s) : Keeps z0 (regPut skip fs v s) := by
  unfold regPut
  simp +contextual (maxDischargeDepth := 60) [*]

@[simp] theorem pwrWrite_keeps (a : Nat) (v : Nat) (fs : List Field) (s : State) (z0 : State) (hk : Keeps z0 s) : Keeps z0 (pwrWrite a v fs s) := by
  unfold pwrWrite
  dsimp only
  (repeat' split) <;> simp +contextual (maxDischargeDepth := 60) [*]

@[simp] theorem firnWrite_keeps (a : Nat) (v : Nat) (fs : List Field) (s : State) (z0 : State) (hk : Keeps z0 s) : Keeps z0 (firnWrite a v fs s) := by
  unfold firnWrite
  dsimp only
  (repeat' split) <;> simp +contextual (maxDischargeDepth := 60) [*]

@[simp] theorem evtWrite_keeps (a : Nat) (v : Nat) (fs : List Field) (s : State) (z0 : State) (hk : Keeps z0 s) : Keeps z0 (evtWrite a v fs s) := by
  unfold evtWrite
  dsimp only
  (repeat' split) <;> simp +contextual (maxDischargeDepth := 60) [*]

@[simp] theorem intcWrite_keeps (ini : Nat) (a : Nat) (v : Nat) (fs : List Field) (s : State) (z0 : State) (hk : Keeps z0 s) : Keeps z0 (intcWrite ini a v fs s) := by
  unfold intcWrite
  dsimp only
  (repeat' split) <;> simp +contextual (maxDischargeDepth := 60) [*]

@[simp] theorem tmrWrite_keeps (a : Nat) (v : Nat) (fs : List Field) (s : State) (z0 : State) (hk : Keeps z0 s) : Keeps z0 (tmrWrite a v fs s) := by
  unfold tmrWrite
  dsimp only
  (repeat' split) <;> simp +contextual (maxDischargeDepth := 60) [*]

@[simp] theorem rtcWrite_keeps (a : Nat) (v : Nat) (fs : List Field) (s : State) (z0 : State) (hk : Keeps z0 s) : Keeps z0 (rtcWrite a v fs s) := by
  unfold rtcWrite
  dsimp only
  (repeat' split) <;> simp +contextual (maxDischargeDepth := 60) [*]

@[simp] theorem reqDoorbell_keeps (m : Nat) (v : Nat) (s : State) (z0 : State) (hk : Keeps z0 s) : Keeps z0 (reqDoorbell m v s) := by
  unfold reqDoorbell
  dsimp only
  (repeat' split) <;> simp +contextual (maxDischargeDepth := 60) [*]

@[simp] theorem rspWrite_keeps (m : Nat) (v : Nat) (s : State) (z0 : State) (hk : Keeps z0 s) : Keeps z0 (rspWrite m v s) := by
  unfold rspWrite
  dsimp only
  (repeat' split) <;> simp +contextual (maxDischargeDepth := 60) [*]

@[simp] theorem mbxWrite_keeps (a : Nat) (v : Nat) (fs : List Field) (s : State) (z0 : State) (hk : Keeps z0 s) : Keeps z0 (mbxWrite a v fs s) := by
  unfold mbxWrite
  dsimp only
  (repeat' split) <;> simp +contextual (maxDischargeDepth := 60) [*]

@[simp] theorem flcWrite_keeps (ini : Nat) (a : Nat) (v : Nat) (fs : List Field) (s : State) (z0 : State) (hk : Keeps z0 s) : Keeps z0 (flcWrite ini a v fs s) := by
  unfold flcWrite
  (repeat' split) <;> simp +contextual (maxDischargeDepth := 60) [*]

@[simp] theorem cphLoadNext_keeps (n : Nat) (s : State) (z0 : State) (hk : Keeps z0 s) : Keeps z0 (cphLoadNext n s) := by
  unfold cphLoadNext
  simp +contextual (maxDischargeDepth := 60) [*]

@[simp] theorem cphWrite_keeps (parity : Bool) (a : Nat) (v : Nat) (fs : List Field) (s : State) (z0 : State) (hk : Keeps z0 s) : Keeps z0 (cphWrite parity a v fs s) := by
  unfold cphWrite
  dsimp only
  (repeat' split) <;> simp +contextual (maxDischargeDepth := 60) [*]

@[simp] theorem ownerChange_keeps (k : Nat) (s : State) (z0 : State) (hk : Keeps z0 s) : Keeps z0 (ownerChange k s) := by
  unfold ownerChange
  simp +contextual (maxDischargeDepth := 60) [*]

@[simp] theorem protWrite_keeps (a : Nat) (v : Nat) (fs : List Field) (s : State) (z0 : State) (hk : Keeps z0 s) : Keeps z0 (protWrite a v fs s) := by
  unfold protWrite
  dsimp only
  (repeat' split) <;> simp +contextual (maxDischargeDepth := 60) [*]

@[simp] theorem spxWrite_keeps (ini : Nat) (a : Nat) (v : Nat) (fs : List Field) (s : State) (z0 : State) (hk : Keeps z0 s) : Keeps z0 (spxWrite ini a v fs s) := by
  unfold spxWrite
  dsimp only
  (repeat' split) <;> simp +contextual (maxDischargeDepth := 60) [*]

@[simp] theorem mirWrite_keeps (a : Nat) (v : Nat) (fs : List Field) (s : State) (z0 : State) (hk : Keeps z0 s) : Keeps z0 (mirWrite a v fs s) := by
  unfold mirWrite
  dsimp only
  (repeat' split) <;> simp +contextual (maxDischargeDepth := 60) [*]

@[simp] theorem lmpWrite_keeps (ini : Nat) (a : Nat) (v : Nat) (fs : List Field) (s : State) (z0 : State) (hk : Keeps z0 s) : Keeps z0 (lmpWrite ini a v fs s) := by
  unfold lmpWrite
  dsimp only
  (repeat' split) <;> simp +contextual (maxDischargeDepth := 60) [*]

@[simp] theorem slotWrite_keeps (parity : Bool) (ini : Nat) (a : Nat) (v : Nat) (s : State) (z0 : State) (hk : Keeps z0 s) : Keeps z0 (slotWrite parity ini a v s) := by
  unfold slotWrite
  dsimp only
  (repeat' split) <;> simp +contextual (maxDischargeDepth := 60) [*]

@[simp] theorem regFresh_keeps (ini : Nat) (a : Nat) (s : State) (z0 : State) (hk : Keeps z0 s) : Keeps z0 (regFresh ini a s) := by
  unfold regFresh
  dsimp only
  (repeat' split) <;> simp +contextual (maxDischargeDepth := 60) [*]

@[simp] theorem regRc_keeps (fs : List Field) (s : State) (z0 : State) (hk : Keeps z0 s) : Keeps z0 (regRc fs s) := by
  unfold regRc
  simp +contextual (maxDischargeDepth := 60) [*]

@[simp] theorem slotRead_keeps (ini : Nat) (a : Nat) (s : State) (z0 : State) (hk : Keeps z0 s) : Keeps z0 (slotRead ini a s).2 := by
  unfold slotRead
  repeat' (refine keeps_ite_snd _ _ _ ?_ ?_)
  all_goals first | exact hk | simp (maxDischargeDepth := 60) [hk]

@[simp] theorem busFail_keeps (w : BusReq) (write : Bool) (kind : Nat) (denied : Bool) (s : State) (z0 : State) (hk : Keeps z0 s) : Keeps z0 (busFail w write kind denied s).2 := by
  unfold busFail
  dsimp only
  (repeat' split) <;> simp +contextual (maxDischargeDepth := 60) [*]

@[simp] theorem dramBusRead_keeps (w : BusReq) (g : Nat) (s : State) (z0 : State) (hk : Keeps z0 s) : Keeps z0 (dramBusRead w g s).2 := by
  unfold dramBusRead
  dsimp only
  (repeat' split) <;> simp +contextual (maxDischargeDepth := 60) [*]

@[simp] theorem targetRead_keeps (w : BusReq) (s : State) (z0 : State) (hk : Keeps z0 s) : Keeps z0 (targetRead w s).2 := by
  unfold targetRead
  dsimp only
  (repeat' split) <;> simp +contextual (maxDischargeDepth := 60) [*]

@[simp] theorem targetWrite_keeps (parity : Bool) (w : BusReq) (s : State) (z0 : State) (hk : Keeps z0 s) : Keeps z0 (targetWrite parity w s).2 := by
  unfold targetWrite
  dsimp only
  (repeat' split) <;> simp +contextual (maxDischargeDepth := 60) [*]

@[simp] theorem busRead_keeps (w : BusReq) (fetch : Bool) (s : State) (z0 : State) (hk : Keeps z0 s) : Keeps z0 (busRead w fetch s).2 := by
  unfold busRead
  dsimp only
  (repeat' split) <;> simp +contextual (maxDischargeDepth := 60) [*]

@[simp] theorem holdWrite_keeps (w : BusReq) (n : Nat) (s : State) (z0 : State) (hk : Keeps z0 s) : Keeps z0 (holdWrite w n s).2 := by
  unfold holdWrite
  (repeat' split) <;> simp +contextual (maxDischargeDepth := 60) [*]

@[simp] theorem busWriteP_keeps (parity : Bool) (w : BusReq) (s : State) (z0 : State) (hk : Keeps z0 s) : Keeps z0 (busWriteP parity w s).2 := by
  unfold busWriteP
  dsimp only
  (repeat' split) <;> simp +contextual (maxDischargeDepth := 60) [*]

@[simp] theorem busWrite_keeps (w : BusReq) (s : State) (z0 : State) (hk : Keeps z0 s) : Keeps z0 (busWrite w s).2 := by
  unfold busWrite
  simp +contextual (maxDischargeDepth := 60) [*]

@[simp] theorem cmdWriteP_keeps (parity : Bool) (w : BusReq) (s : State) (z0 : State) (hk : Keeps z0 s) : Keeps z0 (cmdWriteP parity w s) := by
  unfold cmdWriteP
  have h1 := busWriteP_keeps parity w s z0 hk
  revert h1
  generalize busWriteP parity w s = e
  obtain ⟨r, t⟩ := e
  intro h1
  have h : Keeps z0 t := h1
  cases r <;> simp (maxDischargeDepth := 60) [h]

@[simp] theorem cmdWrite_keeps (w : BusReq) (s : State) (z0 : State) (hk : Keeps z0 s) : Keeps z0 (cmdWrite w s) := by
  unfold cmdWrite
  simp +contextual (maxDischargeDepth := 60) [*]

@[simp] theorem cmdRead_keeps (w : BusReq) (s : State) (z0 : State) (hk : Keeps z0 s) : Keeps z0 (cmdRead w s) := by
  unfold cmdRead
  have h1 := busRead_keeps w false s z0 hk
  revert h1
  generalize busRead w false s = e
  obtain ⟨r, t⟩ := e
  intro h1
  have h : Keeps z0 t := h1
  cases r <;> simp (maxDischargeDepth := 60) [h]

@[simp] theorem heldWrite_keeps (s : State) (z0 : State) (hk : Keeps z0 s) : Keeps z0 (heldWrite s) := by
  unfold heldWrite
  split
  · exact hk
  · next x _ =>
    have h0 : Keeps z0 (pwrMod (fun p => { p with held := p.held.erase x }) s) := by simp (maxDischargeDepth := 60) [hk]
    have h1 := targetWrite_keeps false { ini := x.ini, user := x.user, addr := x.addr, size := x.size, val := x.val, par := false } _ z0 h0
    revert h1
    dsimp only
    generalize targetWrite false _ _ = e
    obtain ⟨r, t⟩ := e
    intro h1
    cases r <;> first | exact hk | exact h1

@[simp] theorem shadowCommit_keeps (b : Nat) (s : State) (z0 : State) (hk : Keeps z0 s) : Keeps z0 (shadowCommit b s) := by
  unfold shadowCommit
  simp +contextual (maxDischargeDepth := 60) [*]

@[simp] theorem hostErr_keeps (a : Nat) (s : State) (z0 : State) (hk : Keeps z0 s) : Keeps z0 (hostErr a s) := by
  unfold hostErr
  simp +contextual (maxDischargeDepth := 60) [*]

@[simp] theorem hostRead_keeps (idx : Nat) (s : State) (z0 : State) (hk : Keeps z0 s) : Keeps z0 (hostRead idx s).2 := by
  unfold hostRead
  split
  · next x _ =>
    have h1 := busRead_keeps (hostReq x 0) false s z0 hk
    revert h1
    generalize busRead (hostReq x 0) false s = e
    obtain ⟨r, t⟩ := e
    intro h1
    have h : Keeps z0 t := h1
    cases r <;> simp (maxDischargeDepth := 60) [h]
  · split
    · simp (maxDischargeDepth := 60) [hk]
    · split <;> exact hk

@[simp] theorem hostWrite_keeps (idx : Nat) (v : Nat) (s : State) (z0 : State) (hk : Keeps z0 s) : Keeps z0 (hostWrite idx v s) := by
  unfold hostWrite
  dsimp only
  (repeat' split) <;> simp +contextual (maxDischargeDepth := 60) [*]

@[simp] theorem hostReadWord_keeps (cmd : Nat) (idx : Nat) (k : Nat) (s : State) (z0 : State) (hk : Keeps z0 s) : Keeps z0 (hostReadWord cmd idx k s) := by
  unfold hostReadWord
  have h1 := hostRead_keeps (hostIndex cmd idx k) s z0 hk
  revert h1
  generalize hostRead (hostIndex cmd idx k) s = e
  obtain ⟨r, t⟩ := e
  intro h1
  have h : Keeps z0 t := h1
  cases r <;> simp (maxDischargeDepth := 60) [h]

@[simp] theorem hostFrame_keeps (nbits : Nat) (bytes : List Nat) (s : State) (z0 : State) (hk : Keeps z0 s) : Keeps z0 (hostFrame nbits bytes s) := by
  unfold hostFrame
  dsimp only
  (repeat' split) <;> simp +contextual (maxDischargeDepth := 60) [*]

@[simp] theorem recAnswered_keeps (status : Nat) (s : State) (z0 : State) (hk : Keeps z0 s) : Keeps z0 (recAnswered status s) := by
  unfold recAnswered
  simp +contextual (maxDischargeDepth := 60) [*]

@[simp] theorem slaveFrameEnd_keeps (nbits : Nat) (bytes : List Nat) (sent : Nat) (s : State) (z0 : State) (hk : Keeps z0 s) : Keeps z0 (slaveFrameEnd nbits bytes sent s) := by
  unfold slaveFrameEnd
  dsimp only
  (repeat' split) <;> simp +contextual (maxDischargeDepth := 60) [*]

@[simp] theorem coreMod_keeps (ini : Nat) (f : Core → Core) (s : State) (z0 : State) (hk : Keeps z0 s) : Keeps z0 (coreMod ini f s) := by
  unfold coreMod
  simp +contextual (maxDischargeDepth := 60) [*]

@[simp] theorem isaWaits_keeps (ini : Nat) (s : State) (z0 : State) (hk : Keeps z0 s) : Keeps z0 (isaWaits ini s) := by
  unfold isaWaits
  simp +contextual (maxDischargeDepth := 60) [*]

@[simp] theorem waitState_keeps (w : BusReq) (write : Bool) (s : State) (z0 : State) (hk : Keeps z0 s) : Keeps z0 (waitState w write s) := by
  unfold waitState
  split
  · have h1 := busWrite_keeps w s z0 hk
    revert h1
    generalize busWrite w s = e
    obtain ⟨r, t⟩ := e
    intro h1
    cases r <;> first | exact hk | exact h1
  · have h1 := busRead_keeps w false s z0 hk
    revert h1
    generalize busRead w false s = e
    obtain ⟨r, t⟩ := e
    intro h1
    cases r <;> first | exact hk | exact h1

/-- An end of an instruction's operation that keeps what the state before it had. -/
def IsaRes.Kept (z0 : State) : IsaRes → Prop
  | .next s => Keeps z0 s
  | .jump _ s => Keeps z0 s
  | .again s => Keeps z0 s
  | .wait _ _ s => Keeps z0 s
  | .stop s => Keeps z0 s
  | .exc _ s => Keeps z0 s

@[simp] theorem kept_next (z0 s : State) : IsaRes.Kept z0 (.next s) ↔ Keeps z0 s := Iff.rfl

@[simp] theorem kept_jump (z0 s : State) (t : Nat) : IsaRes.Kept z0 (.jump t s) ↔ Keeps z0 s := Iff.rfl

@[simp] theorem kept_again (z0 s : State) : IsaRes.Kept z0 (.again s) ↔ Keeps z0 s := Iff.rfl

@[simp] theorem kept_wait (z0 s : State) (w : BusReq) (b : Bool) : IsaRes.Kept z0 (.wait w b s) ↔ Keeps z0 s := Iff.rfl

@[simp] theorem kept_stop (z0 s : State) : IsaRes.Kept z0 (.stop s) ↔ Keeps z0 s := Iff.rfl

@[simp] theorem kept_exc (z0 s : State) (e : Exc) : IsaRes.Kept z0 (.exc e s) ↔ Keeps z0 s := Iff.rfl

@[simp] theorem isaFinish_keeps (ini : Nat) (len : Nat) (pre : State) (r : IsaRes) (z0 : State)  (hr : IsaRes.Kept z0 r) (hk : Keeps z0 pre) : Keeps z0 (isaFinish ini len pre r) := by
  unfold isaFinish
  cases r <;> simp (maxDischargeDepth := 60) [hk] <;> first | exact hr | (have h : Keeps z0 _ := hr; simp (maxDischargeDepth := 60) [h])

@[simp] theorem seqStop_keeps (ini : Nat) (x : Nat) (s : State) (z0 : State) (hk : Keeps z0 s) : Keeps z0 (seqStop ini x s) := by
  unfold seqStop
  simp +contextual (maxDischargeDepth := 60) [*]

@[simp] theorem impCount_keeps (ini : Nat) (s : State) (z0 : State) (hk : Keeps z0 s) : Keeps z0 (impCount ini s) := by
  unfold impCount
  simp +contextual (maxDischargeDepth := 60) [*]

theorem isaReg_keeps (h : IsaHead) (f : Core → Core) (s z0 : State) (hk : Keeps z0 s) : IsaRes.Kept z0 (isaReg h f s) := by
  simp (maxDischargeDepth := 60) [isaReg, hk]

theorem isaLoad_keeps (h : IsaHead) (a n : Nat) (s : State) (k : Nat → State → IsaRes) (z0 : State) (hK : ∀ v t, Keeps z0 t → IsaRes.Kept z0 (k v t)) (hk : Keeps z0 s) :
    IsaRes.Kept z0 (isaLoad h a n s k) := by
  have go : ∀ w, IsaRes.Kept z0 (isaLoad.loadGo w s k) := by
    intro w
    unfold isaLoad.loadGo
    split
    · simp (maxDischargeDepth := 60) [hk]
    · have h1 := busRead_keeps w false s z0 hk
      revert h1
      generalize busRead w false s = e
      obtain ⟨r, t⟩ := e
      intro h1
      cases r
      · exact hK _ _ h1
      · exact h1
      · exact h1
  unfold isaLoad
  dsimp only
  (repeat' split) <;> first | exact go _ | simp (maxDischargeDepth := 60) [hk]

theorem isaStore_keeps (h : IsaHead) (a n v : Nat) (s : State) (k : State → IsaRes) (z0 : State) (hK : ∀ t, Keeps z0 t → IsaRes.Kept z0 (k t)) (hk : Keeps z0 s) :
    IsaRes.Kept z0 (isaStore h a n v s k) := by
  unfold isaStore
  dsimp only
  split
  · exact hk
  · have h1 := busWrite_keeps (isaReq h (!(coreOf s h.ini).priv) a n (v % 2 ^ (8 * n))) s z0 hk
    revert h1
    generalize busWrite _ s = e
    obtain ⟨r, t⟩ := e
    intro h1
    have h2 : Keeps z0 t := h1
    cases r
    · exact hK _ (by simp (maxDischargeDepth := 60) [h2])
    · exact hK _ (by simp (maxDischargeDepth := 60) [h2])
    · exact h2

/-- An end of a fetch that keeps what the state before it had. -/
def FetchRes.Kept (z0 : State) : FetchRes → Prop
  | .ok s => Keeps z0 s
  | .wait s => Keeps z0 s
  | .stop s => Keeps z0 s
  | .bad _ s => Keeps z0 s

theorem fetchRaw_keeps (ini : Nat) (user par : Bool) (a n : Nat) (s z0 : State) (hk : Keeps z0 s) : FetchRes.Kept z0 (fetchRaw ini user par a n s) := by
  have go : ∀ w, FetchRes.Kept z0 (fetchRaw.fetchBus w s) := by
    intro w
    unfold fetchRaw.fetchBus
    have h1 := busRead_keeps w true s z0 hk
    revert h1
    generalize busRead w true s = e
    obtain ⟨r, t⟩ := e
    intro h1
    cases r <;> exact h1
  unfold fetchRaw
  dsimp only
  split
  · split
    · show Keeps z0 _
      simp (maxDischargeDepth := 60) [hk]
    · exact hk
  · split
    · split
      · show Keeps z0 _
        simp (maxDischargeDepth := 60) [hk]
      · split
        · unfold fetchBad
          dsimp only
          split <;> show Keeps z0 _ <;> simp (maxDischargeDepth := 60) [hk]
        · exact go _
    · exact go _

theorem fetchLine_keeps (h : IsaHead) (user : Bool) (line : Nat) (s z0 : State) (hk : Keeps z0 s) : FetchRes.Kept z0 (fetchLine h user line s) := by
  have fill : ∀ t, Keeps z0 t → FetchRes.Kept z0 (match fetchRaw h.ini user (h.bad == 1) (line * 32) 32 t with
    | .ok t1 => FetchRes.ok (coreMod h.ini (fun c => { c with icache := (if c.icache.length < 1024 then c.icache else c.icache.drop 1) ++ [line] }) t1)
    | r => r) := by
    intro t ht
    have h1 := fetchRaw_keeps h.ini user (h.bad == 1) (line * 32) 32 t z0 ht
    revert h1
    generalize fetchRaw h.ini user (h.bad == 1) (line * 32) 32 t = e
    intro h1
    cases e <;> first | exact h1 | (have h2 : Keeps z0 _ := h1; show Keeps z0 _; simp (maxDischargeDepth := 60) [h2])
  unfold fetchLine
  dsimp only
  split
  · split
    · exact fill _ (by simp (maxDischargeDepth := 60) [hk])
    · exact hk
  · exact fill _ hk

theorem fetchLines_keeps (h : IsaHead) (user : Bool) (l : List Nat) (s z0 : State) (hk : Keeps z0 s) : FetchRes.Kept z0 (fetchLines h user l s) := by
  induction l generalizing s with
  | nil => exact hk
  | cons x l ih =>
    unfold fetchLines
    have h1 := fetchLine_keeps h user x s z0 hk
    revert h1
    generalize fetchLine h user x s = e
    intro h1
    cases e
    · exact ih _ h1
    all_goals exact h1

theorem isaFetch_keeps (h : IsaHead) (n : Nat) (s z0 : State) (hk : Keeps z0 s) : FetchRes.Kept z0 (isaFetch h n s) := by
  unfold isaFetch
  dsimp only
  split
  · show Keeps z0 _
    simp (maxDischargeDepth := 60) [hk]
  split
  · show Keeps z0 _
    simp (maxDischargeDepth := 60) [hk]
  split
  · exact fetchLines_keeps _ _ _ _ _ hk
  have h1 := fetchRaw_keeps h.ini (!(coreOf s h.ini).priv) (h.bad == 1) (coreOf s h.ini).pc.toNat n s z0 hk
  revert h1
  generalize fetchRaw h.ini _ _ _ n s = e
  intro h1
  cases e
  · have h2 : Keeps z0 _ := h1
    dsimp only
    split
    · exact h2
    · show Keeps z0 _
      simp (maxDischargeDepth := 60) [h2]
  all_goals exact h1

theorem isaBody_keeps (h : IsaHead) (o : Op) (body : Core → State → IsaRes) (s z0 : State) (hb : ∀ c t, Keeps z0 t → IsaRes.Kept z0 (body c t)) (hk : Keeps z0 s) :
    IsaRes.Kept z0 (isaBody h o body s) := by
  unfold isaBody
  dsimp only
  (repeat' split) <;> first | exact hb _ _ hk | simp (maxDischargeDepth := 60) [hk]

@[simp] theorem isaRun_keeps (h : IsaHead) (o : Op) (body : Core → State → IsaRes) (a3 : State) (z0 : State)  (hb : ∀ c t, Keeps z0 t → IsaRes.Kept z0 (body c t)) (hk : Keeps z0 a3) : Keeps z0 (isaRun h o body a3) := by
  unfold isaRun
  dsimp only
  have h0 : Keeps z0 (coreMod h.ini (fun c => { c with wfi := false }) a3) := by simp (maxDischargeDepth := 60) [hk]
  have h1 := isaFetch_keeps h (min 12 (encLen h o.enc)) _ z0 h0
  revert h1
  generalize isaFetch h (min 12 (encLen h o.enc)) _ = e
  intro h1
  cases e
  · have h2 : Keeps z0 _ := h1
    exact isaFinish_keeps _ _ _ _ _ (isaBody_keeps _ _ _ _ _ hb h2) h2
  · have h2 : Keeps z0 _ := h1
    simp (maxDischargeDepth := 60) [h2]
  · exact h1
  · have h2 : Keeps z0 _ := h1
    exact isaFinish_keeps _ _ _ _ _ h2 h2

/-- The command of an instruction keeps what its operation keeps: it answers a next state that keeps what was there. -/
theorem isaCmd_keeps (h : IsaHead) (o : Op) (body : Core → State → IsaRes) (dt : Nat) (s : State) (hb : ∀ c t, Keeps s t → IsaRes.Kept s (body c t)) :
    ∃ t, isaCmd h o body dt s = .next t ∧ Keeps s t := by
  have h1 : Keeps s (s.pass dt) := State.pass_keeps _ _ _ (Keeps.refl s)
  exact ⟨_, rfl, onlyIf_keeps _ _ _ (isaRun_keeps _ _ _ _ _ hb h1) h1⟩

variable (h : IsaHead) (z0 : State)

theorem aluBody_keeps (f : AluFn) (x : AluArg) (c : Core) (s : State) (hk : Keeps z0 s) : IsaRes.Kept z0 (aluBody h f x c s) := by
  unfold aluBody
  exact isaReg_keeps _ _ _ _ hk

theorem loadBody_keeps (sign : Bool) (m : MemArg) (c : Core) (s : State) (hk : Keeps z0 s) : IsaRes.Kept z0 (loadBody h sign m c s) := by
  unfold loadBody
  exact isaLoad_keeps _ _ _ _ _ _ (fun v t ht => isaReg_keeps _ _ _ _ ht) hk

theorem storeBody_keeps (m : MemArg) (c : Core) (s : State) (hk : Keeps z0 s) : IsaRes.Kept z0 (storeBody h m c s) := by
  unfold storeBody
  exact isaStore_keeps _ _ _ _ _ _ _ (fun t ht => isaReg_keeps _ _ _ _ ht) hk

theorem pushGo_keeps (k : State → IsaRes) (l : List (Nat × Nat)) (s : State) (hK : ∀ t, Keeps z0 t → IsaRes.Kept z0 (k t)) (hk : Keeps z0 s) : IsaRes.Kept z0 (pushGo h k l s) := by
  induction l generalizing s with
  | nil => exact hK _ hk
  | cons p l ih => exact isaStore_keeps _ _ _ _ _ _ _ (fun t ht => ih _ ht) hk

theorem pushBody_keeps (mask : Nat) (c : Core) (s : State) (hk : Keeps z0 s) : IsaRes.Kept z0 (pushBody h mask c s) := by
  unfold pushBody
  exact pushGo_keeps _ _ _ _ _ (fun t ht => isaReg_keeps _ _ _ _ ht) hk

theorem popGo_keeps (k : List Nat → State → IsaRes) (l vs : List Nat) (s : State) (hK : ∀ v t, Keeps z0 t → IsaRes.Kept z0 (k v t)) (hk : Keeps z0 s) :
    IsaRes.Kept z0 (popGo h k l vs s) := by
  induction l generalizing vs s with
  | nil => exact hK _ _ hk
  | cons a l ih => exact isaLoad_keeps _ _ _ _ _ _ (fun v t ht => ih _ _ ht) hk

theorem popBody_keeps (mask : Nat) (c : Core) (s : State) (hk : Keeps z0 s) : IsaRes.Kept z0 (popBody h mask c s) := by
  unfold popBody
  have h1 := popGo_keeps h z0 (fun vs t => isaReg h (fun d => gWr 13 ((gRd c 13 + 4 * (maskRegs mask).length) % 2 ^ 32) (gWrs (maskRegs mask) vs d)) t)
    ((List.range (maskRegs mask).length).map (fun i => (gRd c 13 + 4 * i) % 2 ^ 32)) [] s (fun v t ht => isaReg_keeps _ _ _ _ ht) hk
  revert h1
  dsimp only
  generalize popGo h _ _ [] s = r
  intro h1
  cases r <;> first | exact h1 | (have h2 : Keeps z0 _ := h1; dsimp only; split <;> simp (maxDischargeDepth := 60) [h2])

theorem strDone_keeps (f : Core → Core) (early : Core → Bool) (s : State) (hk : Keeps z0 s) : IsaRes.Kept z0 (strDone h f early s) := by
  unfold strDone
  split
  · dsimp only
    split <;> simp (maxDischargeDepth := 60) [hk]
  · exact isaReg_keeps _ _ _ _ hk

theorem movsElem_keeps (c : Core) (s : State) (hk : Keeps z0 s) : IsaRes.Kept z0 (movsElem h c s) := by
  unfold movsElem
  dsimp only
  split
  · exact hk
  · exact isaLoad_keeps _ _ _ _ _ _ (fun v t ht => isaStore_keeps _ _ _ _ _ _ _ (fun u hu => strDone_keeps _ _ _ _ _ hu) ht) hk

theorem filsElem_keeps (c : Core) (s : State) (hk : Keeps z0 s) : IsaRes.Kept z0 (filsElem h c s) := by
  unfold filsElem
  exact isaStore_keeps _ _ _ _ _ _ _ (fun u hu => strDone_keeps _ _ _ _ _ hu) hk

theorem cmpsElem_keeps (c : Core) (s : State) (hk : Keeps z0 s) : IsaRes.Kept z0 (cmpsElem h c s) := by
  unfold cmpsElem
  dsimp only
  split
  · exact hk
  · exact isaLoad_keeps _ _ _ _ _ _ (fun v t ht => isaLoad_keeps _ _ _ _ _ _ (fun w u hu => strDone_keeps _ _ _ _ _ hu) ht) hk

theorem scnsElem_keeps (c : Core) (s : State) (hk : Keeps z0 s) : IsaRes.Kept z0 (scnsElem h c s) := by
  unfold scnsElem
  exact isaLoad_keeps _ _ _ _ _ _ (fun w u hu => strDone_keeps _ _ _ _ _ hu) hk

theorem crcsElem_keeps (c : Core) (s : State) (hk : Keeps z0 s) : IsaRes.Kept z0 (crcsElem h c s) := by
  unfold crcsElem
  exact isaLoad_keeps _ _ _ _ _ _ (fun w u hu => strDone_keeps _ _ _ _ _ hu) hk

theorem movcBody_keeps (rb : Nat) (dir : Bool) (num : Nat) (c : Core) (s : State) (hk : Keeps z0 s) : IsaRes.Kept z0 (movcBody h rb dir num c s) := by
  unfold movcBody
  split <;> exact isaReg_keeps _ _ _ _ hk

theorem barBody_keeps (f : Core → Core) (c : Core) (s : State) (hk : Keeps z0 s) : IsaRes.Kept z0 (barBody h f c s) := by
  unfold barBody
  split
  · simp (maxDischargeDepth := 60) [hk]
  · split
    · simp (maxDischargeDepth := 60) [hk]
    · exact isaReg_keeps _ _ _ _ hk

theorem atomBody_keeps (rd base : Nat) (f : Core → Nat → Option Nat) (fl : Core → Nat → Core → Core) (c : Core) (s : State) (hk : Keeps z0 s) :
    IsaRes.Kept z0 (atomBody h rd base f fl c s) := by
  unfold atomBody
  dsimp only
  split
  · exact hk
  split
  · simp (maxDischargeDepth := 60) [hk]
  refine isaLoad_keeps _ _ _ _ _ _ (fun t u hu => ?_) hk
  split
  · exact isaReg_keeps _ _ _ _ hu
  · next v _ =>
    split
    · simp (maxDischargeDepth := 60) [hu]
    · have h1 := busWrite_keeps { isaReq h (!c.priv) (gRd c base) 4 0 with val := v } u z0 hu
      revert h1
      generalize busWrite { isaReq h (!c.priv) (gRd c base) 4 0 with val := v } u = e
      obtain ⟨r, t1⟩ := e
      intro h1
      cases r
      · exact isaReg_keeps _ _ _ _ h1
      · exact isaReg_keeps _ _ _ _ h1
      · exact hu

@[simp] theorem sigRegs_keeps (c : Nat) (f : SRegs → SRegs) (s : State) (z0 : State) (hk : Keeps z0 s) : Keeps z0 (sigRegs c f s) := by
  unfold sigRegs
  simp +contextual (maxDischargeDepth := 60) [*]

@[simp] theorem sigExc_keeps (c : Nat) (e : Exc) (pc : Nat) (st : Nat) (s : State) (z0 : State) (hk : Keeps z0 s) : Keeps z0 (sigExc c e pc st s) := by
  unfold sigExc
  dsimp only
  (repeat' split) <;> simp +contextual (maxDischargeDepth := 60) [*]

@[simp] theorem sigImpTake_keeps (c : Nat) (epc : Nat) (s : State) (z0 : State) (hk : Keeps z0 s) : Keeps z0 (sigImpTake c epc s) := by
  unfold sigImpTake
  dsimp only
  (repeat' split) <;> simp +contextual (maxDischargeDepth := 60) [*]

@[simp] theorem sigBoundary_keeps (c : Nat) (s : State) (z0 : State) (hk : Keeps z0 s) : Keeps z0 (sigBoundary c s) := by
  unfold sigBoundary
  dsimp only
  (repeat' split) <;> simp +contextual (maxDischargeDepth := 60) [*]

@[simp] theorem bundleEnd_keeps (c : Nat) (npc : Nat) (pc : Nat) (f : SigWr) (fl : Flow) (s : State) (z0 : State) (hk : Keeps z0 s) : Keeps z0 (bundleEnd c npc pc f fl s) := by
  unfold bundleEnd
  dsimp only
  (repeat' split) <;> simp +contextual (maxDischargeDepth := 60) [*]

@[simp] theorem bundleFetch_keeps (s : State) (c : Nat) (pc : Nat) (n : Nat) (z0 : State) (hk : Keeps z0 s) : Keeps z0 (bundleFetch s c pc n).2 := by
  unfold bundleFetch
  dsimp only
  (repeat' split) <;> simp +contextual (maxDischargeDepth := 60) [*]

@[simp] theorem bundleAcc_keeps (c : Nat) (bad : Nat) (pc : Nat) (g : SRegs) (w : Nat) (fin : SigWr → State → State) (s : State) (z0 : State) (h_fin : ∀ (y0 : SigWr) (y1 : State), Keeps z0 y1 → Keeps z0 (fin y0 y1)) (hk : Keeps z0 s) : Keeps z0 (bundleAcc c bad pc g w fin s) := by
  unfold bundleAcc
  dsimp only
  split
  · have h1 := busWrite_keeps (lReq c bad g w) s z0 hk
    have hw := waitState_keeps (lReq c bad g w) true s z0 hk
    revert h1
    generalize busWrite (lReq c bad g w) s = e
    obtain ⟨r, t⟩ := e
    intro h1
    have h2 : Keeps z0 t := h1
    cases r
    · exact h_fin _ _ (by simp (maxDischargeDepth := 60) [h2])
    · exact h_fin _ _ (by simp (maxDischargeDepth := 60) [h2])
    · simp (maxDischargeDepth := 60) [hw]
  · split
    · simp (maxDischargeDepth := 60) [hk]
    · have h1 := busRead_keeps (lReq c bad g w) false s z0 hk
      have hw := waitState_keeps (lReq c bad g w) false s z0 hk
      revert h1
      generalize busRead (lReq c bad g w) false s = e
      obtain ⟨r, t⟩ := e
      intro h1
      have h2 : Keeps z0 t := h1
      cases r
      · exact h_fin _ _ (by simp (maxDischargeDepth := 60) [h2])
      · simp (maxDischargeDepth := 60) [h2]
      · simp (maxDischargeDepth := 60) [hw]

@[simp] theorem bundleRun_keeps (c : Nat) (bad : Nat) (npc : Nat) (pc : Nat) (g : SRegs) (l : List Nat) (s : State) (z0 : State) (hk : Keeps z0 s) : Keeps z0 (bundleRun c bad npc pc g l s) := by
  unfold bundleRun
  dsimp only
  generalize (match (List.filter (slRuns g) l).find? (fun w => slKind w == 3) with | some w => bResult s c g npc w | none => (id, Flow.seq)) = bf
  have fin : ∀ f fl t, Keeps z0 t → Keeps z0 (bundleEnd c npc pc f fl t) := fun f fl t h => by simp (maxDischargeDepth := 60) [h]
  have hx : ∀ e p st t, Keeps z0 t → Keeps z0 (sigExc c e p st t) := fun e p st t h => by simp (maxDischargeDepth := 60) [h]
  (repeat' split) <;> first | exact hx _ _ _ _ hk | exact fin _ _ _ hk | exact bundleAcc_keeps _ _ _ _ _ _ _ _ (fun f t h => fin _ _ _ h) hk

@[simp] theorem bundleGo_keeps (c : Nat) (bad : Nat) (pc : Nat) (l : List Nat) (s : State) (z0 : State) (hk : Keeps z0 s) : Keeps z0 (bundleGo c bad pc l s) := by
  unfold bundleGo
  dsimp only
  (repeat' split) <;> simp +contextual (maxDischargeDepth := 60) [*]

@[simp] theorem bundle_keeps (c : Nat) (slots : List Nat) (bad : Nat) (a3 : State) (z0 : State) (hk : Keeps z0 a3) : Keeps z0 (bundle c slots bad a3) := by
  unfold bundle
  have h0 : Keeps z0 (sigMod c (fun x => { x with wfi := false }) a3) := by simp (maxDischargeDepth := 60) [hk]
  dsimp only
  split
  · simp (maxDischargeDepth := 60) [h0]
  · have h1 := bundleFetch_keeps (sigMod c (fun x => { x with wfi := false }) a3) c (sigOf (sigMod c (fun x => { x with wfi := false }) a3) c).regs.pc.toNat (bundleSlots 4 (slots.map (· % 2 ^ 32))).length z0 h0
    revert h1
    generalize bundleFetch _ _ _ _ = e
    obtain ⟨r, t⟩ := e
    intro h1
    have h2 : Keeps z0 t := h1
    cases r <;> simp (maxDischargeDepth := 60) [h2]

@[simp] theorem interruptEntry_keeps (ini : Nat) (s : State) (z0 : State) (hk : Keeps z0 s) : Keeps z0 (interruptEntry ini s) := by
  unfold interruptEntry
  (repeat' split) <;> simp +contextual (maxDischargeDepth := 60) [*]

@[simp] theorem imprecise_keeps (ini : Nat) (s : State) (z0 : State) (hk : Keeps z0 s) : Keeps z0 (imprecise ini s) := by
  unfold imprecise
  simp +contextual (maxDischargeDepth := 60) [*]

end Sys2Proof.Machine
end

