-- ==== Sys2Proof/Laws/KeepCmd.lean ====
section
/-!
SUPPORT. What the mailbox commands, the debug port and the network services keep: one lemma per operation, over `Keeps` (Laws/Keeps.lean).
-/
namespace Sys2Proof.Machine

@[simp] theorem netRx_keeps (m : Nat) (src : Nat) (dest : Nat) (ptype : Nat) (kind : Nat) (mseq : Nat) (data : List Nat) (s : State) (z0 : State) (hk : Keeps z0 s) : Keeps z0 (netRx m src dest ptype kind mseq data s) := by
  unfold netRx
  dsimp only
  (repeat' split) <;> simp +contextual (maxDischargeDepth := 60) [*]

@[simp] theorem configReceive_keeps (src : Nat) (p : List Nat) (s : State) (z0 : State) (hk : Keeps z0 s) : Keeps z0 (configReceive src p s) := by
  unfold configReceive
  dsimp only
  (repeat' split) <;> simp +contextual (maxDischargeDepth := 60) [*]

@[simp] theorem netConsume_keeps (src : Nat) (dest : Nat) (ptype : Nat) (mseq : Nat) (data : List Nat) (s : State) (z0 : State) (hk : Keeps z0 s) : Keeps z0 (netConsume src dest ptype mseq data s) := by
  unfold netConsume
  (repeat' split) <;> simp +contextual (maxDischargeDepth := 60) [*]

@[simp] theorem netDeliver_keeps (ringFull : Bool) (src : Nat) (dest : Nat) (ptype : Nat) (kind : Nat) (mseq : Nat) (data : List Nat) (s : State) (z0 : State) (hk : Keeps z0 s) : Keeps z0 (netDeliver ringFull src dest ptype kind mseq data s) := by
  unfold netDeliver
  (repeat' split) <;> simp +contextual (maxDischargeDepth := 60) [*]

@[simp] theorem sysInfo_keeps (m : Nat) (s : State) (z0 : State) (hk : Keeps z0 s) : Keeps z0 (sysInfo m s) := by
  unfold sysInfo
  dsimp only
  (repeat' split) <;> simp +contextual (maxDischargeDepth := 60) [*]

@[simp] theorem sysResetCmd_keeps (m : Nat) (s : State) (z0 : State) (hk : Keeps z0 s) : Keeps z0 (sysResetCmd m s) := by
  unfold sysResetCmd
  dsimp only
  (repeat' split) <;> simp +contextual (maxDischargeDepth := 60) [*]

@[simp] theorem sysResetRow_keeps (m : Nat) (s : State) (z0 : State) (hk : Keeps z0 s) : Keeps z0 (sysResetRow m s) := by
  unfold sysResetRow
  simp +contextual (maxDischargeDepth := 60) [*]

@[simp] theorem sysNotify_keeps (m : Nat) (s : State) (z0 : State) (hk : Keeps z0 s) : Keeps z0 (sysNotify m s) := by
  unfold sysNotify
  simp +contextual (maxDischargeDepth := 60) [*]

@[simp] theorem sysPtype_keeps (m : Nat) (s : State) (z0 : State) (hk : Keeps z0 s) : Keeps z0 (sysPtype m s) := by
  unfold sysPtype
  dsimp only
  (repeat' split) <;> simp +contextual (maxDischargeDepth := 60) [*]

@[simp] theorem netCfgGet_keeps (m : Nat) (s : State) (z0 : State) (hk : Keeps z0 s) : Keeps z0 (netCfgGet m s) := by
  unfold netCfgGet
  refine shortCmd_keeps _ _ _ _ _ (fun r t h => ?_) hk
  try dsimp only
  (repeat' split) <;> simp (maxDischargeDepth := 60) [h]

@[simp] theorem cfgInForce_keeps (obj : List Nat) (s : State) (z0 : State) (hk : Keeps z0 s) : Keeps z0 (cfgInForce obj s) := by
  unfold cfgInForce
  simp +contextual (maxDischargeDepth := 60) [*]

@[simp] theorem netCfgSet_keeps (m : Nat) (s : State) (z0 : State) (hk : Keeps z0 s) : Keeps z0 (netCfgSet m s) := by
  unfold netCfgSet
  refine longCmd_keeps _ _ _ _ _ (fun r t h => ?_) hk
  try dsimp only
  (repeat' split) <;> simp (maxDischargeDepth := 60) [h]

@[simp] theorem netCfgInstant_keeps (s : State) (z0 : State) (hk : Keeps z0 s) : Keeps z0 (netCfgInstant s) := by
  unfold netCfgInstant
  dsimp only
  (repeat' split) <;> simp +contextual (maxDischargeDepth := 60) [*]

@[simp] theorem netStatus_keeps (m : Nat) (s : State) (z0 : State) (hk : Keeps z0 s) : Keeps z0 (netStatus m s) := by
  unfold netStatus
  simp +contextual (maxDischargeDepth := 60) [*]

@[simp] theorem netSend_keeps (m : Nat) (s : State) (z0 : State) (hk : Keeps z0 s) : Keeps z0 (netSend m s) := by
  unfold netSend
  refine cmdRun_keeps _ _ _ _ _ _ (fun r t h => ?_) hk
  dsimp only
  generalize (if (bitOf (r.at_ 5 1) 1 == 1) = true then bufOf t m (r.at_ 6 1) else some (r.data.drop 8)) = pay
  cases pay with
  | none => simp (maxDischargeDepth := 60) [h]
  | some p =>
    dsimp only
    (repeat' split) <;> simp (maxDischargeDepth := 60) [h]

@[simp] theorem linkList_keeps (m : Nat) (s : State) (z0 : State) (hk : Keeps z0 s) : Keeps z0 (linkList m s) := by
  unfold linkList
  dsimp only
  (repeat' split) <;> simp +contextual (maxDischargeDepth := 60) [*]

@[simp] theorem linkDrop_keeps (m : Nat) (s : State) (z0 : State) (hk : Keeps z0 s) : Keeps z0 (linkDrop m s) := by
  unfold linkDrop
  refine shortCmd_keeps _ _ _ _ _ (fun r t h => ?_) hk
  try dsimp only
  (repeat' split) <;> simp (maxDischargeDepth := 60) [h]

@[simp] theorem linkWake_keeps (m : Nat) (s : State) (z0 : State) (hk : Keeps z0 s) : Keeps z0 (linkWake m s) := by
  unfold linkWake
  refine longCmd_keeps _ _ _ _ _ (fun r t h => ?_) hk
  try dsimp only
  (repeat' split) <;> simp (maxDischargeDepth := 60) [h]

@[simp] theorem timeGet_keeps (m : Nat) (s : State) (z0 : State) (hk : Keeps z0 s) : Keeps z0 (timeGet m s) := by
  unfold timeGet
  simp +contextual (maxDischargeDepth := 60) [*]

@[simp] theorem capPps_keeps (on : Bool) (pin : Nat) (s : State) (z0 : State) (hk : Keeps z0 s) : Keeps z0 (capPps on pin s) := by
  unfold capPps
  dsimp only
  (repeat' split) <;> simp +contextual (maxDischargeDepth := 60) [*]

@[simp] theorem timeSourceSet_keeps (src : Nat) (pin : Nat) (acc : Nat) (sec : Nat) (s : State) (z0 : State) (hk : Keeps z0 s) : Keeps z0 (timeSourceSet src pin acc sec s) := by
  unfold timeSourceSet
  dsimp only
  (repeat' split) <;> simp +contextual (maxDischargeDepth := 60) [*]

@[simp] theorem timeSource_keeps (m : Nat) (s : State) (z0 : State) (hk : Keeps z0 s) : Keeps z0 (timeSource m s) := by
  unfold timeSource
  simp +contextual (maxDischargeDepth := 60) [*]

@[simp] theorem timeSetDo_keeps (what : Nat) (utcoff : Nat) (acc : Nat) (t : Nat) (s : State) (z0 : State) (hk : Keeps z0 s) : Keeps z0 (timeSetDo what utcoff acc t s) := by
  unfold timeSetDo
  dsimp only
  (repeat' split) <;> simp +contextual (maxDischargeDepth := 60) [*]

@[simp] theorem timeSet_keeps (m : Nat) (s : State) (z0 : State) (hk : Keeps z0 s) : Keeps z0 (timeSet m s) := by
  unfold timeSet
  simp +contextual (maxDischargeDepth := 60) [*]

@[simp] theorem leapSecond_keeps (s : State) (z0 : State) (hk : Keeps z0 s) : Keeps z0 (leapSecond s) := by
  unfold leapSecond
  dsimp only
  (repeat' split) <;> simp +contextual (maxDischargeDepth := 60) [*]

@[simp] theorem lumLevel_keeps (m : Nat) (s : State) (z0 : State) (hk : Keeps z0 s) : Keeps z0 (lumLevel m s) := by
  unfold lumLevel
  dsimp only
  (repeat' split) <;> simp +contextual (maxDischargeDepth := 60) [*]

@[simp] theorem lumStatusCmd_keeps (m : Nat) (s : State) (z0 : State) (hk : Keeps z0 s) : Keeps z0 (lumStatusCmd m s) := by
  unfold lumStatusCmd
  simp +contextual (maxDischargeDepth := 60) [*]

@[simp] theorem lumSched_keeps (m : Nat) (s : State) (z0 : State) (hk : Keeps z0 s) : Keeps z0 (lumSched m s) := by
  unfold lumSched
  refine longCmd_keeps _ _ _ _ _ (fun r t h => ?_) hk
  try dsimp only
  (repeat' split) <;> simp (maxDischargeDepth := 60) [h]

@[simp] theorem lumFailsafe_keeps (m : Nat) (s : State) (z0 : State) (hk : Keeps z0 s) : Keeps z0 (lumFailsafe m s) := by
  unfold lumFailsafe
  dsimp only
  (repeat' split) <;> simp +contextual (maxDischargeDepth := 60) [*]

@[simp] theorem onC_keeps (m : Nat) (r : MbReq) (body : State → State) (s : State) (z0 : State) (h_body : ∀ (y0 : State), Keeps z0 y0 → Keeps z0 (body y0)) (hk : Keeps z0 s) : Keeps z0 (onC m r body s) := by
  unfold onC
  simp +contextual (maxDischargeDepth := 60) [*]

@[simp] theorem coGroupcmd_keeps (m : Nat) (s : State) (z0 : State) (hk : Keeps z0 s) : Keeps z0 (coGroupcmd m s) := by
  unfold coGroupcmd
  simp +contextual (maxDischargeDepth := 60) [*]

@[simp] theorem coNodesCmd_keeps (m : Nat) (s : State) (z0 : State) (hk : Keeps z0 s) : Keeps z0 (coNodesCmd m s) := by
  unfold coNodesCmd
  simp +contextual (maxDischargeDepth := 60) [*]

@[simp] theorem coNodeCmd_keeps (m : Nat) (s : State) (z0 : State) (hk : Keeps z0 s) : Keeps z0 (coNodeCmd m s) := by
  unfold coNodeCmd
  refine shortCmd_keeps _ _ _ _ _ (fun r t h => onC_keeps _ _ _ _ _ (fun t h => ?_) h) hk
  try dsimp only
  (repeat' split) <;> simp (maxDischargeDepth := 60) [h]

@[simp] theorem coGroupsCmd_keeps (m : Nat) (s : State) (z0 : State) (hk : Keeps z0 s) : Keeps z0 (coGroupsCmd m s) := by
  unfold coGroupsCmd
  dsimp only
  (repeat' split) <;> simp +contextual (maxDischargeDepth := 60) [*]

@[simp] theorem coAdmitCmd_keeps (m : Nat) (s : State) (z0 : State) (hk : Keeps z0 s) : Keeps z0 (coAdmitCmd m s) := by
  unfold coAdmitCmd
  simp +contextual (maxDischargeDepth := 60) [*]

@[simp] theorem coDispatchCmd_keeps (m : Nat) (s : State) (z0 : State) (hk : Keeps z0 s) : Keeps z0 (coDispatchCmd m s) := by
  unfold coDispatchCmd
  refine longCmd_keeps _ _ _ _ _ (fun r t h => onC_keeps _ _ _ _ _ (fun t h => ?_) h) hk
  try dsimp only
  (repeat' split) <;> simp (maxDischargeDepth := 60) [h]

@[simp] theorem pairStatusCmd_keeps (m : Nat) (s : State) (z0 : State) (hk : Keeps z0 s) : Keeps z0 (pairStatusCmd m s) := by
  unfold pairStatusCmd
  simp +contextual (maxDischargeDepth := 60) [*]

@[simp] theorem pairConfigCmd_keeps (m : Nat) (s : State) (z0 : State) (hk : Keeps z0 s) : Keeps z0 (pairConfigCmd m s) := by
  unfold pairConfigCmd
  refine shortCmd_keeps _ _ _ _ _ (fun r t h => onC_keeps _ _ _ _ _ (fun t h => ?_) h) hk
  try dsimp only
  (repeat' split) <;> simp (maxDischargeDepth := 60) [h]

@[simp] theorem pairSwitchCmd_keeps (m : Nat) (s : State) (z0 : State) (hk : Keeps z0 s) : Keeps z0 (pairSwitchCmd m s) := by
  unfold pairSwitchCmd
  simp +contextual (maxDischargeDepth := 60) [*]

@[simp] theorem storeInfo_keeps (m : Nat) (s : State) (z0 : State) (hk : Keeps z0 s) : Keeps z0 (storeInfo m s) := by
  unfold storeInfo
  simp +contextual (maxDischargeDepth := 60) [*]

@[simp] theorem storePart_keeps (m : Nat) (s : State) (z0 : State) (hk : Keeps z0 s) : Keeps z0 (storePart m s) := by
  unfold storePart
  simp +contextual (maxDischargeDepth := 60) [*]

@[simp] theorem partsSet_keeps (new : List Part) (s : State) (z0 : State) (hk : Keeps z0 s) : Keeps z0 (partsSet new s) := by
  unfold partsSet
  dsimp only
  (repeat' split) <;> simp +contextual (maxDischargeDepth := 60) [*]

@[simp] theorem storePartset_keeps (m : Nat) (s : State) (z0 : State) (hk : Keeps z0 s) : Keeps z0 (storePartset m s) := by
  unfold storePartset
  refine longCmd_keeps _ _ _ _ _ (fun r t h => ?_) hk
  try dsimp only
  (repeat' split) <;> simp (maxDischargeDepth := 60) [h]

@[simp] theorem storeScrub_keeps (m : Nat) (outs : List (Nat × PageOut)) (s : State) (z0 : State) (hk : Keeps z0 s) : Keeps z0 (storeScrub m outs s) := by
  unfold storeScrub
  dsimp only
  (repeat' split) <;> simp +contextual (maxDischargeDepth := 60) [*]

@[simp] theorem tblLoad_keeps (m : Nat) (s : State) (z0 : State) (hk : Keeps z0 s) : Keeps z0 (tblLoad m s) := by
  unfold tblLoad
  refine longCmd_keeps _ _ _ _ _ (fun r t h => ?_) hk
  try dsimp only
  (repeat' split) <;> simp (maxDischargeDepth := 60) [h]

@[simp] theorem tblRevert_keeps (m : Nat) (s : State) (z0 : State) (hk : Keeps z0 s) : Keeps z0 (tblRevert m s) := by
  unfold tblRevert
  dsimp only
  (repeat' split) <;> simp +contextual (maxDischargeDepth := 60) [*]

@[simp] theorem tblWriteDone_keeps (i : Nat) (ok : Bool) (s : State) (z0 : State) (hk : Keeps z0 s) : Keeps z0 (tblWriteDone i ok s) := by
  unfold tblWriteDone
  dsimp only
  (repeat' split) <;> simp +contextual (maxDischargeDepth := 60) [*]

@[simp] theorem tblInfo_keeps (m : Nat) (s : State) (z0 : State) (hk : Keeps z0 s) : Keeps z0 (tblInfo m s) := by
  unfold tblInfo
  dsimp only
  (repeat' split) <;> simp +contextual (maxDischargeDepth := 60) [*]

@[simp] theorem tblRead_keeps (m : Nat) (s : State) (z0 : State) (hk : Keeps z0 s) : Keeps z0 (tblRead m s) := by
  unfold tblRead
  dsimp only
  (repeat' split) <;> simp +contextual (maxDischargeDepth := 60) [*]

@[simp] theorem hltSummary_keeps (m : Nat) (s : State) (z0 : State) (hk : Keeps z0 s) : Keeps z0 (hltSummary m s) := by
  unfold hltSummary
  simp +contextual (maxDischargeDepth := 60) [*]

@[simp] theorem hltRead_keeps (m : Nat) (s : State) (z0 : State) (hk : Keeps z0 s) : Keeps z0 (hltRead m s) := by
  unfold hltRead
  refine shortCmd_keeps _ _ _ _ _ (fun r t h => ?_) hk
  try dsimp only
  (repeat' split) <;> simp (maxDischargeDepth := 60) [h]

@[simp] theorem updStatusCmd_keeps (m : Nat) (s : State) (z0 : State) (hk : Keeps z0 s) : Keeps z0 (updStatusCmd m s) := by
  unfold updStatusCmd
  simp +contextual (maxDischargeDepth := 60) [*]

@[simp] theorem updIntake_keeps (m : Nat) (s : State) (z0 : State) (hk : Keeps z0 s) : Keeps z0 (updIntake m s) := by
  unfold updIntake
  dsimp only
  (repeat' split) <;> simp +contextual (maxDischargeDepth := 60) [*]

@[simp] theorem updPush_keeps (m : Nat) (s : State) (z0 : State) (hk : Keeps z0 s) : Keeps z0 (updPush m s) := by
  unfold updPush
  refine shortCmd_keeps _ _ _ _ _ (fun r t h => ?_) hk
  try dsimp only
  (repeat' split) <;> simp (maxDischargeDepth := 60) [h]

@[simp] theorem intakeVerify_keeps (m : Nat) (tag : Nat) (card : List Nat) (s : State) (z0 : State) (hk : Keeps z0 s) : Keeps z0 (intakeVerify m tag card s) := by
  unfold intakeVerify
  dsimp only
  (repeat' split) <;> simp +contextual (maxDischargeDepth := 60) [*]

@[simp] theorem updDistribute_keeps (m : Nat) (s : State) (z0 : State) (hk : Keeps z0 s) : Keeps z0 (updDistribute m s) := by
  unfold updDistribute
  refine longCmd_keeps _ _ _ _ _ (fun r t h => onC_keeps _ _ _ _ _ (fun t h => ?_) h) hk
  try dsimp only
  (repeat' split) <;> simp (maxDischargeDepth := 60) [h]

@[simp] theorem updActivate_keeps (m : Nat) (s : State) (z0 : State) (hk : Keeps z0 s) : Keeps z0 (updActivate m s) := by
  unfold updActivate
  refine shortCmd_keeps _ _ _ _ _ (fun r t h => ?_) hk
  try dsimp only
  (repeat' split) <;> simp (maxDischargeDepth := 60) [h]

@[simp] theorem updConfirm_keeps (m : Nat) (s : State) (z0 : State) (hk : Keeps z0 s) : Keeps z0 (updConfirm m s) := by
  unfold updConfirm
  simp +contextual (maxDischargeDepth := 60) [*]

@[simp] theorem jtagMod_keeps (f : Jtag → Jtag) (s : State) (z0 : State) (hk : Keeps z0 s) : Keeps z0 (jtagMod f s) := by
  unfold jtagMod
  simp +contextual (maxDischargeDepth := 60) [*]

@[simp] theorem extest_keeps (sample : Nat) (cells : Nat) (s : State) (z0 : State) (hk : Keeps z0 s) : Keeps z0 (extest sample cells s) := by
  unfold extest
  simp +contextual (maxDischargeDepth := 60) [*]

@[simp] theorem samplePreload_keeps (sample : Nat) (cells : Nat) (s : State) (z0 : State) (hk : Keeps z0 s) : Keeps z0 (samplePreload sample cells s) := by
  unfold samplePreload
  simp +contextual (maxDischargeDepth := 60) [*]

@[simp] theorem dbgWrite_keeps (w : BusReq) (s : State) (z0 : State) (hk : Keeps z0 s) : Keeps z0 (dbgWrite w s).2 := by
  unfold dbgWrite
  (repeat' split) <;> simp +contextual (maxDischargeDepth := 60) [*]

@[simp] theorem dbgAccess_keeps (op : Nat) (addr : Nat) (data : Nat) (s : State) (z0 : State) (hk : Keeps z0 s) : Keeps z0 (dbgAccess op addr data s) := by
  unfold dbgAccess
  split
  · have h1 := dbgWrite_keeps (dbgReq addr data) s z0 hk
    revert h1
    dsimp only
    generalize dbgWrite (dbgReq addr data) s = e
    obtain ⟨r, t⟩ := e
    intro h1
    have h2 : Keeps z0 t := h1
    cases r <;> simp (maxDischargeDepth := 60) [h2]
  · have h1 := busRead_keeps (dbgReq addr 0) false s z0 hk
    revert h1
    dsimp only
    generalize busRead (dbgReq addr 0) false s = e
    obtain ⟨r, t⟩ := e
    intro h1
    have h2 : Keeps z0 t := h1
    cases r <;> simp (maxDischargeDepth := 60) [h2]

@[simp] theorem dbgmem_keeps (op : Nat) (addr : Nat) (data : Nat) (a3 : State) (z0 : State) (hk : Keeps z0 a3) : Keeps z0 (dbgmem op addr data a3) := by
  unfold dbgmem
  dsimp only
  (repeat' split) <;> simp +contextual (maxDischargeDepth := 60) [*]

@[simp] theorem dbgcore_keeps (ini : Nat) (f : Core → Core) (s : State) (z0 : State) (hk : Keeps z0 s) : Keeps z0 (dbgcore ini f s) := by
  unfold dbgcore
  dsimp only
  (repeat' split) <;> simp +contextual (maxDischargeDepth := 60) [*]

@[simp] theorem seenRemove_keeps (id : Nat) (s : State) (z0 : State) (hk : Keeps z0 s) : Keeps z0 (seenRemove id s) := by
  unfold seenRemove
  dsimp only
  (repeat' split) <;> simp +contextual (maxDischargeDepth := 60) [*]

@[simp] theorem floodDup_keeps (id : Nat) (f : List Nat) (s : State) (z0 : State) (hk : Keeps z0 s) : Keeps z0 (floodDup id f s) := by
  unfold floodDup
  dsimp only
  (repeat' split) <;> simp +contextual (maxDischargeDepth := 60) [*]

@[simp] theorem floodAccept_keeps (ringFull : Bool) (port : Option Nat) (id : Nat) (f : List Nat) (a4 : State) (z0 : State) (hk : Keeps z0 a4) : Keeps z0 (floodAccept ringFull port id f a4) := by
  unfold floodAccept
  dsimp only
  (repeat' split) <;> simp +contextual (maxDischargeDepth := 60) [*]

@[simp] theorem floodReceive_keeps (ringFull : Bool) (port : Option Nat) (f : List Nat) (s : State) (z0 : State) (hk : Keeps z0 s) : Keeps z0 (floodReceive ringFull port f s) := by
  unfold floodReceive
  dsimp only
  (repeat' split) <;> simp +contextual (maxDischargeDepth := 60) [*]

@[simp] theorem copyReceive_keeps (ringFull : Bool) (nb : Nb) (u : List Nat) (s : State) (z0 : State) (hk : Keeps z0 s) : Keeps z0 (copyReceive ringFull nb u s) := by
  unfold copyReceive
  dsimp only
  (repeat' split) <;> simp +contextual (maxDischargeDepth := 60) [*]

@[simp] theorem meshPdu_keeps (ringFull : Bool) (nb : Nb) (u : List Nat) (s : State) (z0 : State) (hk : Keeps z0 s) : Keeps z0 (meshPdu ringFull nb u s) := by
  unfold meshPdu
  dsimp only
  (repeat' split) <;> simp +contextual (maxDischargeDepth := 60) [*]

@[simp] theorem cfgFetch_keeps (s : State) (z0 : State) (hk : Keeps z0 s) : Keeps z0 (cfgFetch s) := by
  unfold cfgFetch
  (repeat' split) <;> simp +contextual (maxDischargeDepth := 60) [*]

@[simp] theorem linkBeacon_keeps (r : RxRec) (s : State) (z0 : State) (hk : Keeps z0 s) : Keeps z0 (linkBeacon r s) := by
  unfold linkBeacon
  dsimp only
  (repeat' split) <;> simp +contextual (maxDischargeDepth := 60) [*]

@[simp] theorem statusForward_keeps (src : Nat) (a1 : Nat) (a2 : List (Nat × Nat × Nat)) (a3 : State) (z0 : State) (hk : Keeps z0 a3) : Keeps z0 (statusForward src a1 a2 a3) := by
  induction a1 generalizing a2 a3 with
  | zero => exact hk
  | succ n ih =>
    unfold statusForward
    split
    · exact hk
    · exact ih _ _ (by split <;> simp (maxDischargeDepth := 60) [hk])

@[simp] theorem connGreet_keeps (c : Conn) (s : State) (z0 : State) (hk : Keeps z0 s) : Keeps z0 (connGreet c s) := by
  unfold connGreet
  (repeat' split) <;> simp +contextual (maxDischargeDepth := 60) [*]

@[simp] theorem linkConn_keeps (ringFull : Bool) (r : RxRec) (s : State) (z0 : State) (hk : Keeps z0 s) : Keeps z0 (linkConn ringFull r s) := by
  unfold linkConn
  dsimp only
  (repeat' split) <;> simp +contextual (maxDischargeDepth := 60) [*]

@[simp] theorem linkJoinReq_keeps (r : RxRec) (s : State) (z0 : State) (hk : Keeps z0 s) : Keeps z0 (linkJoinReq r s) := by
  unfold linkJoinReq
  dsimp only
  (repeat' split) <;> simp +contextual (maxDischargeDepth := 60) [*]

@[simp] theorem linkTake_keeps (ringFull : Bool) (r : RxRec) (s : State) (z0 : State) (hk : Keeps z0 s) : Keeps z0 (linkTake ringFull r s) := by
  unfold linkTake
  (repeat' split) <;> simp +contextual (maxDischargeDepth := 60) [*]

@[simp] theorem linkFrame_keeps (ringFull : Bool) (r : RxRec) (s : State) (z0 : State) (hk : Keeps z0 s) : Keeps z0 (linkFrame ringFull r s) := by
  unfold linkFrame
  dsimp only
  (repeat' split) <;> simp +contextual (maxDischargeDepth := 60) [*]

@[simp] theorem linkFrameCheck_keeps (ringFull : Bool) (s : State) (z0 : State) (hk : Keeps z0 s) : Keeps z0 (linkFrameCheck ringFull s) := by
  unfold linkFrameCheck
  dsimp only
  (repeat' split) <;> simp +contextual (maxDischargeDepth := 60) [*]

@[simp] theorem wdataReceive_keeps (ringFull : Bool) (p : Nat) (c : List Nat) (s : State) (z0 : State) (hk : Keeps z0 s) : Keeps z0 (wdataReceive ringFull p c s) := by
  unfold wdataReceive
  simp +contextual (maxDischargeDepth := 60) [*]

@[simp] theorem wiredItem_keeps (ringFull : Bool) (p : Nat) (kind : Nat) (c : List Nat) (mac : List Nat) (s : State) (z0 : State) (hk : Keeps z0 s) : Keeps z0 (wiredItem ringFull p kind c mac s) := by
  unfold wiredItem
  simp +contextual (maxDischargeDepth := 60) [*]

@[simp] theorem wiredFrameReceive_keeps (p : Nat) (fcsOk : Bool) (f : List Nat) (ringFull : Bool) (s : State) (z0 : State) (hk : Keeps z0 s) : Keeps z0 (wiredFrameReceive p fcsOk f ringFull s) := by
  unfold wiredFrameReceive
  dsimp only
  (repeat' split) <;> simp +contextual (maxDischargeDepth := 60) [*]

end Sys2Proof.Machine
end

