-- ==== Sys2Proof/Laws/Parts.lean ====
section
/-!
SUPPORT. What every operation leaves alone: `partsOnly L z t` says that `t` differs from `z` in the listed pieces at most. Each operation of the model that acts on
such a state gives such a state, wherever its own pieces are listed (`sub`).
-/
namespace Sys2Proof.Machine

/-- Every piece of the first list is in the second. -/
def sub (a L : List Piece) : Bool := a.all (fun p => decide (p ∈ L))

@[simp] theorem sub_nil (L : List Piece) : sub [] L = true := rfl
@[simp] theorem sub_cons (p : Piece) (a L : List Piece) : sub (p :: a) L = true ↔ p ∈ L ∧ sub a L = true := by simp [sub]

theorem Piece.same_refl (p : Piece) (s : State) : p.same s s := by cases p <;> rfl
theorem Piece.same_trans (p : Piece) {s t u : State} (h : p.same s t) (h' : p.same t u) : p.same s u := by
  cases p <;> exact Eq.trans h' h

theorem partsOnly_refl (L : List Piece) (s : State) : partsOnly L s s := fun p _ => p.same_refl s

theorem partsOnly_trans {L : List Piece} {s t u : State} (h : partsOnly L s t) (h' : partsOnly L t u) : partsOnly L s u :=
  fun p hp => p.same_trans (h p hp) (h' p hp)

theorem partsOnly_mono {a L : List Piece} {s t : State} (h : partsOnly a s t) (ha : sub a L = true) : partsOnly L s t := by
  intro p hp
  refine h p (fun hm => hp ?_)
  simp only [sub, List.all_eq_true, decide_eq_true_eq] at ha
  exact ha p hm

variable {z0 : State} {L : List Piece}

@[simp] theorem parts_ite (c : Prop) [Decidable c] (a b : State) : partsOnly L z0 (if c then a else b) ↔ (c → partsOnly L z0 a) ∧ (¬ c → partsOnly L z0 b) := by
  split <;> simp [*]

/-- A choice between two reads. -/
theorem parts_ite_snd {α : Type} (c : Prop) [Decidable c] (a b : α × State) (ha : partsOnly L z0 a.2) (hb : partsOnly L z0 b.2) : partsOnly L z0 (if c then a else b).2 := by
  split <;> assumption

/-- A fold leaves alone what each of its steps leaves alone. -/
@[simp] theorem parts_foldl {α : Type} (f : State → α → State) (l : List α) (s : State) (h : ∀ x a, partsOnly L z0 x → partsOnly L z0 (f x a)) (hs : partsOnly L z0 s) :
    partsOnly L z0 (l.foldl f s) := foldl_keeps (partsOnly L z0) f l s h hs

/-- A change of the pieces `ps`. -/
theorem parts_step {s t : State} (ps : List Piece) (h : partsOnly L z0 s) (h' : partsOnly ps s t) (hL : sub ps L = true) : partsOnly L z0 t :=
  partsOnly_trans h (partsOnly_mono h' hL)

@[simp] theorem wr_parts (s : State) (f : Field) (v : Nat) (h : partsOnly L z0 s) (hL : sub [.regs] L = true := by simp [*]) : partsOnly L z0 (s.wr f v) :=
  parts_step [.regs] h (by intro p hp; cases p <;> first | rfl | simp at hp) hL
@[simp] theorem wrC_parts (s : State) (f : Field) (v : Nat) (h : partsOnly L z0 s) (hL : sub [.com] L = true := by simp [*]) : partsOnly L z0 (s.wrC f v) :=
  parts_step [.com] h (by intro p hp; cases p <;> first | rfl | simp at hp) hL
@[simp] theorem st_parts (s : State) (a n v : Nat) (h : partsOnly L z0 s) (hL : sub [.mem] L = true := by simp [*]) : partsOnly L z0 (s.st a n v) :=
  parts_step [.mem] h (by intro p hp; cases p <;> first | rfl | simp at hp) hL
@[simp] theorem stBytes_parts (s : State) (a : Nat) (l : List Nat) (h : partsOnly L z0 s) (hL : sub [.mem] L = true := by simp [*]) : partsOnly L z0 (s.stBytes a l) :=
  parts_step [.mem] h (by intro p hp; cases p <;> first | rfl | simp at hp) hL
@[simp] theorem memClear_parts (s : State) (lo hi : Nat) (h : partsOnly L z0 s) (hL : sub [.mem] L = true := by simp [*]) : partsOnly L z0 (s.memClear lo hi) :=
  parts_step [.mem] h (by intro p hp; cases p <;> first | rfl | simp at hp) hL

@[simp] theorem onlyIf_parts (b : Bool) (t s : State) (h1 : partsOnly L z0 t) (h2 : partsOnly L z0 s) : partsOnly L z0 (onlyIf b t s) := by
  unfold onlyIf; split <;> assumption

/-- An update of any fields but the queue. -/
@[simp] theorem mk_parts (s : State) (x_elapsed : Nat) (x_porAt : Nat) (x_freeCtr : Nat) (x_regs : RegFile) (x_com : RegFile) (x_mem : List Host.Cell) (x_fuses : Fuses) (x_flight : List Nat) (x_firn : Firn) (x_cph : Cph) (x_tmrs : List Tmr) (x_rtc : Rtc) (x_mboxes : List Mbox) (x_heldNotices : List HeldNotice) (x_health : List HealthRec) (x_boots : Nat) (x_sysResetAt : Nat) (x_tables : List (Nat × TableObj)) (x_rfe : Rfe) (x_rxc : Rxc) (x_netCfg : List Nat) (x_msh : Msh) (x_evAt : List (Nat × Nat)) (x_lnk : Lnk) (x_wpt : List Wpt) (x_par : Par) (x_drc : Drc) (x_cores : List Core) (x_sig : List SigCore) (x_runner : Runner) (x_flc : Flc) (x_spx : List Spx) (x_lmp : Lmp) (x_lum : Lum) (x_co : Co) (x_age : Age) (x_mir : Mir) (x_runAt : Nat) (x_upd : UpdSt) (x_pwr : Pwr) (x_evt : Evt) (x_rdata : List (Nat × Nat)) (x_mbLast : Nat) (x_resetDue : Option Nat) (x_tblJobs : List TblJob) (x_jtag : Jtag) (h : partsOnly L z0 s)
    (h_elapsed : x_elapsed = s.elapsed ∨ Piece.elapsed ∈ L) (h_porAt : x_porAt = s.porAt ∨ Piece.porAt ∈ L) (h_freeCtr : x_freeCtr = s.freeCtr ∨ Piece.freeCtr ∈ L) (h_regs : x_regs = s.regs ∨ Piece.regs ∈ L) (h_com : x_com = s.com ∨ Piece.com ∈ L) (h_mem : x_mem = s.mem ∨ Piece.mem ∈ L) (h_fuses : x_fuses = s.fuses ∨ Piece.fuses ∈ L) (h_flight : x_flight = s.flight ∨ Piece.flight ∈ L) (h_firn : x_firn = s.firn ∨ Piece.firn ∈ L) (h_cph : x_cph = s.cph ∨ Piece.cph ∈ L) (h_tmrs : x_tmrs = s.tmrs ∨ Piece.tmrs ∈ L) (h_rtc : x_rtc = s.rtc ∨ Piece.rtc ∈ L) (h_mboxes : x_mboxes = s.mboxes ∨ Piece.mboxes ∈ L) (h_heldNotices : x_heldNotices = s.heldNotices ∨ Piece.heldNotices ∈ L) (h_health : x_health = s.health ∨ Piece.health ∈ L) (h_boots : x_boots = s.boots ∨ Piece.boots ∈ L) (h_sysResetAt : x_sysResetAt = s.sysResetAt ∨ Piece.sysResetAt ∈ L) (h_tables : x_tables = s.tables ∨ Piece.tables ∈ L) (h_rfe : x_rfe = s.rfe ∨ Piece.rfe ∈ L) (h_rxc : x_rxc = s.rxc ∨ Piece.rxc ∈ L) (h_netCfg : x_netCfg = s.netCfg ∨ Piece.netCfg ∈ L) (h_msh : x_msh = s.msh ∨ Piece.msh ∈ L) (h_evAt : x_evAt = s.evAt ∨ Piece.evAt ∈ L) (h_lnk : x_lnk = s.lnk ∨ Piece.lnk ∈ L) (h_wpt : x_wpt = s.wpt ∨ Piece.wpt ∈ L) (h_par : x_par = s.par ∨ Piece.par ∈ L) (h_drc : x_drc = s.drc ∨ Piece.drc ∈ L) (h_cores : x_cores = s.cores ∨ Piece.cores ∈ L) (h_sig : x_sig = s.sig ∨ Piece.sig ∈ L) (h_runner : x_runner = s.runner ∨ Piece.runner ∈ L) (h_flc : x_flc = s.flc ∨ Piece.flc ∈ L) (h_spx : x_spx = s.spx ∨ Piece.spx ∈ L) (h_lmp : x_lmp = s.lmp ∨ Piece.lmp ∈ L) (h_lum : x_lum = s.lum ∨ Piece.lum ∈ L) (h_co : x_co = s.co ∨ Piece.co ∈ L) (h_age : x_age = s.age ∨ Piece.age ∈ L) (h_mir : x_mir = s.mir ∨ Piece.mir ∈ L) (h_runAt : x_runAt = s.runAt ∨ Piece.runAt ∈ L) (h_upd : x_upd = s.upd ∨ Piece.upd ∈ L) (h_pwr : x_pwr = s.pwr ∨ Piece.pwr ∈ L) (h_evt : x_evt = s.evt ∨ Piece.evt ∈ L) (h_rdata : x_rdata = s.rdata ∨ Piece.rdata ∈ L) (h_mbLast : x_mbLast = s.mbLast ∨ Piece.mbLast ∈ L) (h_resetDue : x_resetDue = s.resetDue ∨ Piece.resetDue ∈ L) (h_tblJobs : x_tblJobs = s.tblJobs ∨ Piece.tblJobs ∈ L) (h_jtag : x_jtag = s.jtag ∨ Piece.jtag ∈ L) :
    partsOnly L z0 (State.mk s.pending x_elapsed x_porAt x_freeCtr x_regs x_com x_mem x_fuses x_flight x_firn x_cph x_tmrs x_rtc x_mboxes x_heldNotices x_health x_boots x_sysResetAt x_tables x_rfe x_rxc x_netCfg x_msh x_evAt x_lnk x_wpt x_par x_drc x_cores x_sig x_runner x_flc x_spx x_lmp x_lum x_co x_age x_mir x_runAt x_upd x_pwr x_evt x_rdata x_mbLast x_resetDue x_tblJobs x_jtag) := by
  intro p hp
  refine p.same_trans (h p hp) ?_
  cases p
  · exact h_regs.resolve_right hp
  · exact h_com.resolve_right hp
  · rfl
  · exact h_elapsed.resolve_right hp
  · exact h_porAt.resolve_right hp
  · exact h_freeCtr.resolve_right hp
  · exact h_mem.resolve_right hp
  · exact h_fuses.resolve_right hp
  · exact h_flight.resolve_right hp
  · exact h_firn.resolve_right hp
  · exact h_cph.resolve_right hp
  · exact h_tmrs.resolve_right hp
  · exact h_rtc.resolve_right hp
  · exact h_mboxes.resolve_right hp
  · exact h_heldNotices.resolve_right hp
  · exact h_health.resolve_right hp
  · exact h_boots.resolve_right hp
  · exact h_sysResetAt.resolve_right hp
  · exact h_tables.resolve_right hp
  · exact h_rfe.resolve_right hp
  · exact h_rxc.resolve_right hp
  · exact h_netCfg.resolve_right hp
  · exact h_msh.resolve_right hp
  · exact h_evAt.resolve_right hp
  · exact h_lnk.resolve_right hp
  · exact h_wpt.resolve_right hp
  · exact h_par.resolve_right hp
  · exact h_drc.resolve_right hp
  · exact h_cores.resolve_right hp
  · exact h_sig.resolve_right hp
  · exact h_runner.resolve_right hp
  · exact h_flc.resolve_right hp
  · exact h_spx.resolve_right hp
  · exact h_lmp.resolve_right hp
  · exact h_lum.resolve_right hp
  · exact h_co.resolve_right hp
  · exact h_age.resolve_right hp
  · exact h_mir.resolve_right hp
  · exact h_runAt.resolve_right hp
  · exact h_upd.resolve_right hp
  · exact h_pwr.resolve_right hp
  · exact h_evt.resolve_right hp
  · exact h_rdata.resolve_right hp
  · exact h_mbLast.resolve_right hp
  · exact h_resetDue.resolve_right hp
  · exact h_tblJobs.resolve_right hp
  · exact h_jtag.resolve_right hp

end Sys2Proof.Machine
end

