-- ==== Sys2Proof/Laws/PartsBase.lean ====
section
/-!
SUPPORT. What the shared operations, Glety's duties, the lamp port, the time engine, the votes and the radio front end leave alone: one lemma per operation, over `partsOnly` (Laws/Parts.lean).
-/
namespace Sys2Proof.Machine
set_option Elab.async false

@[simp] theorem State.commitFields_parts (s : State) (fs : List Field) {L : List Piece} (z0 : State) (hk : partsOnly L z0 s) (hL : sub [.com] L = true := by simp [*]) : partsOnly L z0 (State.commitFields s fs) := by
  simp only [sub_cons, sub_nil, and_true] at hL
  unfold State.commitFields
  simp +contextual (maxDischargeDepth := 60) [*]

@[simp] theorem State.set1_parts (s : State) (f : Field) {L : List Piece} (z0 : State) (hk : partsOnly L z0 s) (hL : sub [.regs] L = true := by simp [*]) : partsOnly L z0 (State.set1 s f) := by
  simp only [sub_cons, sub_nil, and_true] at hL
  unfold State.set1
  simp +contextual (maxDischargeDepth := 60) [*]

@[simp] theorem State.clr_parts (s : State) (f : Field) {L : List Piece} (z0 : State) (hk : partsOnly L z0 s) (hL : sub [.regs] L = true := by simp [*]) : partsOnly L z0 (State.clr s f) := by
  simp only [sub_cons, sub_nil, and_true] at hL
  unfold State.clr
  simp +contextual (maxDischargeDepth := 60) [*]

@[simp] theorem State.count_parts (s : State) (f : Field) (d : Nat) {L : List Piece} (z0 : State) (hk : partsOnly L z0 s) (hL : sub [.regs] L = true := by simp [*]) : partsOnly L z0 (State.count s f d) := by
  simp only [sub_cons, sub_nil, and_true] at hL
  unfold State.count
  simp +contextual (maxDischargeDepth := 60) [*]

@[simp] theorem State.inc_parts (s : State) (f : Field) {L : List Piece} (z0 : State) (hk : partsOnly L z0 s) (hL : sub [.regs] L = true := by simp [*]) : partsOnly L z0 (State.inc s f) := by
  simp only [sub_cons, sub_nil, and_true] at hL
  unfold State.inc
  simp +contextual (maxDischargeDepth := 60) [*]

@[simp] theorem State.setBit_parts (s : State) (f : Field) (i : Nat) {L : List Piece} (z0 : State) (hk : partsOnly L z0 s) (hL : sub [.regs] L = true := by simp [*]) : partsOnly L z0 (State.setBit s f i) := by
  simp only [sub_cons, sub_nil, and_true] at hL
  unfold State.setBit
  simp +contextual (maxDischargeDepth := 60) [*]

@[simp] theorem State.clrBit_parts (s : State) (f : Field) (i : Nat) {L : List Piece} (z0 : State) (hk : partsOnly L z0 s) (hL : sub [.regs] L = true := by simp [*]) : partsOnly L z0 (State.clrBit s f i) := by
  simp only [sub_cons, sub_nil, and_true] at hL
  unfold State.clrBit
  simp +contextual (maxDischargeDepth := 60) [*]

@[simp] theorem State.raise_parts (s : State) (src : Nat) {L : List Piece} (z0 : State) (hk : partsOnly L z0 s) (hL : sub [.flight] L = true := by simp [*]) : partsOnly L z0 (State.raise s src) := by
  simp only [sub_cons, sub_nil, and_true] at hL
  unfold State.raise
  simp +contextual (maxDischargeDepth := 60) [*]

@[simp] theorem State.raiseAll_parts (s : State) (l : List Nat) {L : List Piece} (z0 : State) (hk : partsOnly L z0 s) (hL : sub [.flight] L = true := by simp [*]) : partsOnly L z0 (State.raiseAll s l) := by
  simp only [sub_cons, sub_nil, and_true] at hL
  unfold State.raiseAll
  simp +contextual (maxDischargeDepth := 60) [*]

@[simp] theorem State.drawn_parts (s : State) (n : Nat) {L : List Piece} (z0 : State) (hk : partsOnly L z0 s) (hL : sub [.freeCtr] L = true := by simp [*]) : partsOnly L z0 (State.drawn s n) := by
  simp only [sub_cons, sub_nil, and_true] at hL
  unfold State.drawn
  simp +contextual (maxDischargeDepth := 60) [*]

@[simp] theorem State.pass_parts (s : State) (dt : Nat) {L : List Piece} (z0 : State) (hk : partsOnly L z0 s) (hL : sub [.elapsed, .firn] L = true := by simp [*]) : partsOnly L z0 (State.pass s dt) := by
  simp only [sub_cons, sub_nil, and_true] at hL
  unfold State.pass
  simp +contextual (maxDischargeDepth := 60) [*]

@[simp] theorem mbModify_parts (m : Nat) (f : Mbox → Mbox) (s : State) {L : List Piece} (z0 : State) (hk : partsOnly L z0 s) (hL : sub [.mboxes] L = true := by simp [*]) : partsOnly L z0 (mbModify m f s) := by
  simp only [sub_cons, sub_nil, and_true] at hL
  unfold mbModify
  simp +contextual (maxDischargeDepth := 60) [*]

@[simp] theorem noticeTo_parts (m : Nat) (r : MbRec) (s : State) {L : List Piece} (z0 : State) (hk : partsOnly L z0 s) (hL : sub [.mboxes, .regs] L = true := by simp [*]) : partsOnly L z0 (noticeTo m r s) := by
  simp only [sub_cons, sub_nil, and_true] at hL
  unfold noticeTo
  simp +contextual (maxDischargeDepth := 60) [*]

@[simp] theorem notice_parts (code : Nat) (bit : Nat) (payload : List Nat) (s : State) {L : List Piece} (z0 : State) (hk : partsOnly L z0 s) (hL : sub [.mboxes, .regs, .heldNotices] L = true := by simp [*]) : partsOnly L z0 (notice code bit payload s) := by
  simp only [sub_cons, sub_nil, and_true] at hL
  unfold notice
  simp +contextual (maxDischargeDepth := 60) [*]

@[simp] theorem noticeFlush_parts (s : State) {L : List Piece} (z0 : State) (hk : partsOnly L z0 s) (hL : sub [.mboxes, .regs, .heldNotices] L = true := by simp [*]) : partsOnly L z0 (noticeFlush s) := by
  simp only [sub_cons, sub_nil, and_true] at hL
  unfold noticeFlush
  simp +contextual (maxDischargeDepth := 60) [*]

@[simp] theorem opMod_parts (m : Nat) (tag : Nat) (f : LiveOp → LiveOp) (s : State) {L : List Piece} (z0 : State) (hk : partsOnly L z0 s) (hL : sub [.mboxes] L = true := by simp [*]) : partsOnly L z0 (opMod m tag f s) := by
  simp only [sub_cons, sub_nil, and_true] at hL
  unfold opMod
  simp +contextual (maxDischargeDepth := 60) [*]

@[simp] theorem opEnd_parts (m : Nat) (tag : Nat) (rkind : Nat) (status : Nat) (payload : List Nat) (s : State) {L : List Piece} (z0 : State) (hk : partsOnly L z0 s) (hL : sub [.mboxes] L = true := by simp [*]) : partsOnly L z0 (opEnd m tag rkind status payload s) := by
  simp only [sub_cons, sub_nil, and_true] at hL
  unfold opEnd
  (repeat' split) <;> simp +contextual (maxDischargeDepth := 60) [*]

@[simp] theorem alarm_parts (f : Field) (v : Bool) (s : State) {L : List Piece} (z0 : State) (hk : partsOnly L z0 s) (hL : sub [.regs] L = true := by simp [*]) : partsOnly L z0 (alarm f v s) := by
  simp only [sub_cons, sub_nil, and_true] at hL
  unfold alarm
  simp +contextual (maxDischargeDepth := 60) [*]

@[simp] theorem healthPut_parts (severity : Nat) (area : Nat) (kind : Nat) (unit : Nat) (v1 : Nat) (v2 : Nat) (s : State) {L : List Piece} (z0 : State) (hk : partsOnly L z0 s) (hL : sub [.mboxes, .regs, .health, .heldNotices, .flight] L = true := by simp [*]) : partsOnly L z0 (healthPut severity area kind unit v1 v2 s) := by
  simp only [sub_cons, sub_nil, and_true] at hL
  unfold healthPut
  dsimp only
  (repeat' split) <;> simp +contextual (maxDischargeDepth := 60) [*]

@[simp] theorem rmapWrite_parts (s : State) {L : List Piece} (z0 : State) (hk : partsOnly L z0 s) (hL : sub [.age] L = true := by simp [*]) : partsOnly L z0 (rmapWrite s) := by
  simp only [sub_cons, sub_nil, and_true] at hL
  unfold rmapWrite
  dsimp only
  (repeat' split) <;> simp +contextual (maxDischargeDepth := 60) [*]

@[simp] theorem marginNotice_parts (what : Nat) (unit : Nat) (old : Nat) (new : Nat) (s : State) {L : List Piece} (z0 : State) (hk : partsOnly L z0 s) (hL : sub [.mboxes, .regs, .heldNotices, .flight] L = true := by simp [*]) : partsOnly L z0 (marginNotice what unit old new s) := by
  simp only [sub_cons, sub_nil, and_true] at hL
  unfold marginNotice
  simp +contextual (maxDischargeDepth := 60) [*]

@[simp] theorem pwmRestart_parts (s : State) {L : List Piece} (z0 : State) (hk : partsOnly L z0 s) (hL : sub [.lmp] L = true := by simp [*]) : partsOnly L z0 (pwmRestart s) := by
  simp only [sub_cons, sub_nil, and_true] at hL
  unfold pwmRestart
  dsimp only
  (repeat' split) <;> simp +contextual (maxDischargeDepth := 60) [*]

@[simp] theorem lmpCommit_parts (s : State) {L : List Piece} (z0 : State) (hk : partsOnly L z0 s) (hL : sub [.com, .regs] L = true := by simp [*]) : partsOnly L z0 (lmpCommit s) := by
  simp only [sub_cons, sub_nil, and_true] at hL
  unfold lmpCommit
  dsimp only
  (repeat' split) <;> simp +contextual (maxDischargeDepth := 60) [*]

@[simp] theorem lmpApplyWrite_parts (s : State) {L : List Piece} (z0 : State) (hk : partsOnly L z0 s) (hL : sub [.lmp, .regs] L = true := by simp [*]) : partsOnly L z0 (lmpApplyWrite s) := by
  simp only [sub_cons, sub_nil, and_true] at hL
  unfold lmpApplyWrite
  dsimp only
  (repeat' split) <;> simp +contextual (maxDischargeDepth := 60) [*]

@[simp] theorem lmpLaunch_parts (ch : Nat) (s : State) {L : List Piece} (z0 : State) (hk : partsOnly L z0 s) (hL : sub [.com, .lmp, .regs] L = true := by simp [*]) : partsOnly L z0 (lmpLaunch ch s) := by
  simp only [sub_cons, sub_nil, and_true] at hL
  unfold lmpLaunch
  dsimp only
  (repeat' split) <;> simp +contextual (maxDischargeDepth := 60) [*]

@[simp] theorem daliQueue_parts (f : DaliFrame) (s : State) {L : List Piece} (z0 : State) (hk : partsOnly L z0 s) (hL : sub [.lmp, .regs] L = true := by simp [*]) : partsOnly L z0 (daliQueue f s) := by
  simp only [sub_cons, sub_nil, and_true] at hL
  unfold daliQueue
  dsimp only
  (repeat' split) <;> simp +contextual (maxDischargeDepth := 60) [*]

@[simp] theorem daliSend_parts (s : State) {L : List Piece} (z0 : State) (hk : partsOnly L z0 s) (hL : sub [.lmp, .regs] L = true := by simp [*]) : partsOnly L z0 (daliSend s) := by
  simp only [sub_cons, sub_nil, and_true] at hL
  unfold daliSend
  simp +contextual (maxDischargeDepth := 60) [*]

@[simp] theorem daliTransmitEnd_parts (collision : Bool) (s : State) {L : List Piece} (z0 : State) (hk : partsOnly L z0 s) (hL : sub [.lmp, .regs, .flight] L = true := by simp [*]) : partsOnly L z0 (daliTransmitEnd collision s) := by
  simp only [sub_cons, sub_nil, and_true] at hL
  unfold daliTransmitEnd
  dsimp only
  (repeat' split) <;> simp +contextual (maxDischargeDepth := 60) [*]

@[simp] theorem daliBackward_parts (data : Nat) (err : Bool) (s : State) {L : List Piece} (z0 : State) (hk : partsOnly L z0 s) (hL : sub [.lmp, .regs, .flight] L = true := by simp [*]) : partsOnly L z0 (daliBackward data err s) := by
  simp only [sub_cons, sub_nil, and_true] at hL
  unfold daliBackward
  dsimp only
  (repeat' split) <;> simp +contextual (maxDischargeDepth := 60) [*]

@[simp] theorem daliEmpty_parts (s : State) {L : List Piece} (z0 : State) (hk : partsOnly L z0 s) (hL : sub [.lmp, .regs, .flight] L = true := by simp [*]) : partsOnly L z0 (daliEmpty s) := by
  simp only [sub_cons, sub_nil, and_true] at hL
  unfold daliEmpty
  dsimp only
  (repeat' split) <;> simp +contextual (maxDischargeDepth := 60) [*]

@[simp] theorem photoSample_parts (uv : Nat) (s : State) {L : List Piece} (z0 : State) (hk : partsOnly L z0 s) (hL : sub [.lmp, .regs] L = true := by simp [*]) : partsOnly L z0 (photoSample uv s) := by
  simp only [sub_cons, sub_nil, and_true] at hL
  unfold photoSample
  dsimp only
  (repeat' split) <;> simp +contextual (maxDischargeDepth := 60) [*]

@[simp] theorem meterLatch_parts (last : Nat × Nat × Nat × Nat) (s : State) {L : List Piece} (z0 : State) (hk : partsOnly L z0 s) (hL : sub [.regs, .flight] L = true := by simp [*]) : partsOnly L z0 (meterLatch last s) := by
  simp only [sub_cons, sub_nil, and_true] at hL
  unfold meterLatch
  dsimp only
  (repeat' split) <;> simp +contextual (maxDischargeDepth := 60) [*]

@[simp] theorem timeStateNotice_parts (s : State) {L : List Piece} (z0 : State) (hk : partsOnly L z0 s) (hL : sub [.mboxes, .regs, .heldNotices] L = true := by simp [*]) : partsOnly L z0 (timeStateNotice s) := by
  simp only [sub_cons, sub_nil, and_true] at hL
  unfold timeStateNotice
  simp +contextual (maxDischargeDepth := 60) [*]

@[simp] theorem firnStage_parts (st : Stage) (s : State) {L : List Piece} (z0 : State) (hk : partsOnly L z0 s) (hL : sub [.mboxes, .firn, .regs, .heldNotices, .flight] L = true := by simp [*]) : partsOnly L z0 (firnStage st s) := by
  simp only [sub_cons, sub_nil, and_true] at hL
  unfold firnStage
  dsimp only
  (repeat' split) <;> simp +contextual (maxDischargeDepth := 60) [*]

@[simp] theorem cmpFly_parts (n : Nat) (at_ : Nat) (late : Bool) (s : State) {L : List Piece} (z0 : State) (hk : partsOnly L z0 s) (hL : sub [.firn, .regs] L = true := by simp [*]) : partsOnly L z0 (cmpFly n at_ late s) := by
  simp only [sub_cons, sub_nil, and_true] at hL
  unfold cmpFly
  dsimp only
  (repeat' split) <;> simp +contextual (maxDischargeDepth := 60) [*]

@[simp] theorem cmpLateMatch_parts (n : Nat) (s : State) {L : List Piece} (z0 : State) (hk : partsOnly L z0 s) (hL : sub [.firn, .regs] L = true := by simp [*]) : partsOnly L z0 (cmpLateMatch n s) := by
  simp only [sub_cons, sub_nil, and_true] at hL
  unfold cmpLateMatch
  simp +contextual (maxDischargeDepth := 60) [*]

@[simp] theorem cmpLateAll_parts (s : State) {L : List Piece} (z0 : State) (hk : partsOnly L z0 s) (hL : sub [.firn, .regs] L = true := by simp [*]) : partsOnly L z0 (cmpLateAll s) := by
  simp only [sub_cons, sub_nil, and_true] at hL
  unfold cmpLateAll
  simp +contextual (maxDischargeDepth := 60) [*]

@[simp] theorem cmpMarkStepped_parts (s : State) {L : List Piece} (z0 : State) (hk : partsOnly L z0 s) (hL : sub [.regs] L = true := by simp [*]) : partsOnly L z0 (cmpMarkStepped s) := by
  simp only [sub_cons, sub_nil, and_true] at hL
  unfold cmpMarkStepped
  simp +contextual (maxDischargeDepth := 60) [*]

@[simp] theorem firnStep_parts (d : Int) (s : State) {L : List Piece} (z0 : State) (hk : partsOnly L z0 s) (hL : sub [.mboxes, .firn, .regs, .heldNotices, .flight] L = true := by simp [*]) : partsOnly L z0 (firnStep d s) := by
  simp only [sub_cons, sub_nil, and_true] at hL
  unfold firnStep
  dsimp only
  (repeat' split) <;> simp +contextual (maxDischargeDepth := 60) [*]

@[simp] theorem coastEnter_parts (s : State) {L : List Piece} (z0 : State) (hk : partsOnly L z0 s) (hL : sub [.mboxes, .firn, .regs, .heldNotices, .flight] L = true := by simp [*]) : partsOnly L z0 (coastEnter s) := by
  simp only [sub_cons, sub_nil, and_true] at hL
  unfold coastEnter
  dsimp only
  (repeat' split) <;> simp +contextual (maxDischargeDepth := 60) [*]

@[simp] theorem coastRestart_parts (s : State) {L : List Piece} (z0 : State) (hk : partsOnly L z0 s) (hL : sub [.firn] L = true := by simp [*]) : partsOnly L z0 (coastRestart s) := by
  simp only [sub_cons, sub_nil, and_true] at hL
  unfold coastRestart
  dsimp only
  (repeat' split) <;> simp +contextual (maxDischargeDepth := 60) [*]

@[simp] theorem coastAlign_parts (s : State) {L : List Piece} (z0 : State) (hk : partsOnly L z0 s) (hL : sub [.mboxes, .firn, .regs, .heldNotices, .flight] L = true := by simp [*]) : partsOnly L z0 (coastAlign s) := by
  simp only [sub_cons, sub_nil, and_true] at hL
  unfold coastAlign
  dsimp only
  (repeat' split) <;> simp +contextual (maxDischargeDepth := 60) [*]

@[simp] theorem landCmp_parts (n : Nat) (s : State) {L : List Piece} (z0 : State) (hk : partsOnly L z0 s) (hL : sub [.firn, .regs] L = true := by simp [*]) : partsOnly L z0 (landCmp n s) := by
  simp only [sub_cons, sub_nil, and_true] at hL
  unfold landCmp
  dsimp only
  (repeat' split) <;> simp +contextual (maxDischargeDepth := 60) [*]

@[simp] theorem coastLaunch_parts (n : Nat) (s : State) {L : List Piece} (z0 : State) (hk : partsOnly L z0 s) (hL : sub [.firn, .regs, .flight] L = true := by simp [*]) : partsOnly L z0 (coastLaunch n s) := by
  simp only [sub_cons, sub_nil, and_true] at hL
  unfold coastLaunch
  simp +contextual (maxDischargeDepth := 60) [*]

@[simp] theorem firnTimeLo_parts (ini : Nat) (s : State) {L : List Piece} (z0 : State) (hk : partsOnly L z0 s) (hL : sub [.firn] L = true := by simp [*]) : partsOnly L z0 (firnTimeLo ini s).2 := by
  simp only [sub_cons, sub_nil, and_true] at hL
  unfold firnTimeLo
  dsimp only
  (repeat' split) <;> simp +contextual (maxDischargeDepth := 60) [*]

@[simp] theorem capTlo_parts (ini : Nat) (k : Nat) (s : State) {L : List Piece} (z0 : State) (hk : partsOnly L z0 s) (hL : sub [.firn] L = true := by simp [*]) : partsOnly L z0 (capTlo ini k s).2 := by
  simp only [sub_cons, sub_nil, and_true] at hL
  unfold capTlo
  dsimp only
  (repeat' split) <;> simp +contextual (maxDischargeDepth := 60) [*]

@[simp] theorem cmpArm_parts (n : Nat) (s : State) {L : List Piece} (z0 : State) (hk : partsOnly L z0 s) (hL : sub [.firn, .regs] L = true := by simp [*]) : partsOnly L z0 (cmpArm n s) := by
  simp only [sub_cons, sub_nil, and_true] at hL
  unfold cmpArm
  dsimp only
  (repeat' split) <;> simp +contextual (maxDischargeDepth := 60) [*]

@[simp] theorem cmpDisarm_parts (n : Nat) (s : State) {L : List Piece} (z0 : State) (hk : partsOnly L z0 s) (hL : sub [.regs] L = true := by simp [*]) : partsOnly L z0 (cmpDisarm n s) := by
  simp only [sub_cons, sub_nil, and_true] at hL
  unfold cmpDisarm
  simp +contextual (maxDischargeDepth := 60) [*]

@[simp] theorem cmpCommit_parts (n : Nat) (s : State) {L : List Piece} (z0 : State) (hk : partsOnly L z0 s) (hL : sub [.com, .regs] L = true := by simp [*]) : partsOnly L z0 (cmpCommit n s) := by
  simp only [sub_cons, sub_nil, and_true] at hL
  unfold cmpCommit
  simp +contextual (maxDischargeDepth := 60) [*]

@[simp] theorem cmpCommitEnd_parts (n : Nat) (s : State) {L : List Piece} (z0 : State) (hk : partsOnly L z0 s) (hL : sub [.firn, .regs] L = true := by simp [*]) : partsOnly L z0 (cmpCommitEnd n s) := by
  simp only [sub_cons, sub_nil, and_true] at hL
  unfold cmpCommitEnd
  dsimp only
  (repeat' split) <;> simp +contextual (maxDischargeDepth := 60) [*]

@[simp] theorem comparatorCommit_parts (n : Nat) (s : State) {L : List Piece} (z0 : State) (hk : partsOnly L z0 s) (hL : sub [.com, .firn, .regs] L = true := by simp [*]) : partsOnly L z0 (comparatorCommit n s) := by
  simp only [sub_cons, sub_nil, and_true] at hL
  unfold comparatorCommit
  dsimp only
  (repeat' split) <;> simp +contextual (maxDischargeDepth := 60) [*]

@[simp] theorem matchCmp_parts (n : Nat) (s : State) {L : List Piece} (z0 : State) (hk : partsOnly L z0 s) (hL : sub [.firn, .regs] L = true := by simp [*]) : partsOnly L z0 (matchCmp n s) := by
  simp only [sub_cons, sub_nil, and_true] at hL
  unfold matchCmp
  simp +contextual (maxDischargeDepth := 60) [*]

@[simp] theorem capApply_parts (k : Nat) (s : State) {L : List Piece} (z0 : State) (hk : partsOnly L z0 s) (hL : sub [.firn, .regs] L = true := by simp [*]) : partsOnly L z0 (capApply k s) := by
  simp only [sub_cons, sub_nil, and_true] at hL
  unfold capApply
  dsimp only
  (repeat' split) <;> simp +contextual (maxDischargeDepth := 60) [*]

@[simp] theorem captureApply_parts (k : Nat) (s : State) {L : List Piece} (z0 : State) (hk : partsOnly L z0 s) (hL : sub [.com, .firn, .regs] L = true := by simp [*]) : partsOnly L z0 (captureApply k s) := by
  simp only [sub_cons, sub_nil, and_true] at hL
  unfold captureApply
  dsimp only
  (repeat' split) <;> simp +contextual (maxDischargeDepth := 60) [*]

@[simp] theorem capRecord_parts (k : Nat) (t : Nat) (readNow : Bool) (s : State) {L : List Piece} (z0 : State) (hk : partsOnly L z0 s) (hL : sub [.firn, .regs, .flight] L = true := by simp [*]) : partsOnly L z0 (capRecord k t readNow s) := by
  simp only [sub_cons, sub_nil, and_true] at hL
  unfold capRecord
  dsimp only
  (repeat' split) <;> simp +contextual (maxDischargeDepth := 60) [*]

@[simp] theorem firnRate_parts (inc : Int) (s : State) {L : List Piece} (z0 : State) (hk : partsOnly L z0 s) (hL : sub [.firn, .regs] L = true := by simp [*]) : partsOnly L z0 (firnRate inc s) := by
  simp only [sub_cons, sub_nil, and_true] at hL
  unfold firnRate
  dsimp only
  (repeat' split) <;> simp +contextual (maxDischargeDepth := 60) [*]

@[simp] theorem firnSlew_parts (d : Int) (span : Nat) (s : State) {L : List Piece} (z0 : State) (hk : partsOnly L z0 s) (hL : sub [.firn] L = true := by simp [*]) : partsOnly L z0 (firnSlew d span s) := by
  simp only [sub_cons, sub_nil, and_true] at hL
  unfold firnSlew
  dsimp only
  (repeat' split) <;> simp +contextual (maxDischargeDepth := 60) [*]

@[simp] theorem loopRun_parts (e : Int) (s : State) {L : List Piece} (z0 : State) (hk : partsOnly L z0 s) (hL : sub [.firn, .regs] L = true := by simp [*]) : partsOnly L z0 (loopRun e s) := by
  simp only [sub_cons, sub_nil, and_true] at hL
  unfold loopRun
  dsimp only
  (repeat' split) <;> simp +contextual (maxDischargeDepth := 60) [*]

@[simp] theorem sampleAccept_parts (e : Int) (s : State) {L : List Piece} (z0 : State) (hk : partsOnly L z0 s) (hL : sub [.mboxes, .firn, .regs, .freeCtr, .heldNotices, .flight] L = true := by simp [*]) : partsOnly L z0 (sampleAccept e s) := by
  simp only [sub_cons, sub_nil, and_true] at hL
  unfold sampleAccept
  dsimp only
  (repeat' split) <;> simp +contextual (maxDischargeDepth := 60) [*]

@[simp] theorem sampleReject_parts (e : Int) (s : State) {L : List Piece} (z0 : State) (hk : partsOnly L z0 s) (hL : sub [.mboxes, .firn, .regs, .heldNotices, .flight] L = true := by simp [*]) : partsOnly L z0 (sampleReject e s) := by
  simp only [sub_cons, sub_nil, and_true] at hL
  unfold sampleReject
  dsimp only
  (repeat' split) <;> simp +contextual (maxDischargeDepth := 60) [*]

@[simp] theorem firnSample_parts (e : Int) (s : State) {L : List Piece} (z0 : State) (hk : partsOnly L z0 s) (hL : sub [.mboxes, .firn, .regs, .freeCtr, .heldNotices, .flight] L = true := by simp [*]) : partsOnly L z0 (firnSample e s) := by
  simp only [sub_cons, sub_nil, and_true] at hL
  unfold firnSample
  dsimp only
  (repeat' split) <;> simp +contextual (maxDischargeDepth := 60) [*]

@[simp] theorem holdoverEntry_parts (s : State) {L : List Piece} (z0 : State) (hk : partsOnly L z0 s) (hL : sub [.mboxes, .firn, .regs, .heldNotices, .flight] L = true := by simp [*]) : partsOnly L z0 (holdoverEntry s) := by
  simp only [sub_cons, sub_nil, and_true] at hL
  unfold holdoverEntry
  dsimp only
  (repeat' split) <;> simp +contextual (maxDischargeDepth := 60) [*]

@[simp] theorem ppsPulseLoss_parts (s : State) {L : List Piece} (z0 : State) (hk : partsOnly L z0 s) (hL : sub [.firn] L = true := by simp [*]) : partsOnly L z0 (ppsPulseLoss s) := by
  simp only [sub_cons, sub_nil, and_true] at hL
  unfold ppsPulseLoss
  dsimp only
  (repeat' split) <;> simp +contextual (maxDischargeDepth := 60) [*]

@[simp] theorem ppsPulse_parts (t : Nat) (s : State) {L : List Piece} (z0 : State) (hk : partsOnly L z0 s) (hL : sub [.mboxes, .firn, .regs, .freeCtr, .heldNotices, .flight] L = true := by simp [*]) : partsOnly L z0 (ppsPulse t s) := by
  simp only [sub_cons, sub_nil, and_true] at hL
  unfold ppsPulse
  dsimp only
  (repeat' split) <;> simp +contextual (maxDischargeDepth := 60) [*]

@[simp] theorem firnReset_parts (s : State) {L : List Piece} (z0 : State) (hk : partsOnly L z0 s) (hL : sub [.firn] L = true := by simp [*]) : partsOnly L z0 (firnReset s) := by
  simp only [sub_cons, sub_nil, and_true] at hL
  unfold firnReset
  simp +contextual (maxDischargeDepth := 60) [*]

@[simp] theorem pwrMod_parts (f : Pwr → Pwr) (s : State) {L : List Piece} (z0 : State) (hk : partsOnly L z0 s) (hL : sub [.pwr] L = true := by simp [*]) : partsOnly L z0 (pwrMod f s) := by
  simp only [sub_cons, sub_nil, and_true] at hL
  unfold pwrMod
  simp +contextual (maxDischargeDepth := 60) [*]

@[simp] theorem pwrChanged_parts (s : State) {L : List Piece} (z0 : State) (hk : partsOnly L z0 s) (hL : sub [.regs, .flight] L = true := by simp [*]) : partsOnly L z0 (pwrChanged s) := by
  simp only [sub_cons, sub_nil, and_true] at hL
  unfold pwrChanged
  simp +contextual (maxDischargeDepth := 60) [*]

@[simp] theorem pwrLog_parts (dom : Nat) (req : Nat) (reason : Nat) (s : State) {L : List Piece} (z0 : State) (hk : partsOnly L z0 s) (hL : sub [.regs, .flight] L = true := by simp [*]) : partsOnly L z0 (pwrLog dom req reason s) := by
  simp only [sub_cons, sub_nil, and_true] at hL
  unfold pwrLog
  dsimp only
  (repeat' split) <;> simp +contextual (maxDischargeDepth := 60) [*]

@[simp] theorem hsDrop_parts (n : Nat) (s : State) {L : List Piece} (z0 : State) (hk : partsOnly L z0 s) (hL : sub [.pwr] L = true := by simp [*]) : partsOnly L z0 (hsDrop n s) := by
  simp only [sub_cons, sub_nil, and_true] at hL
  unfold hsDrop
  simp +contextual (maxDischargeDepth := 60) [*]

@[simp] theorem domRise1_parts (n : Nat) (thaw : Bool) (s : State) {L : List Piece} (z0 : State) (hk : partsOnly L z0 s) (hL : sub [.regs, .pwr] L = true := by simp [*]) : partsOnly L z0 (domRise1 n thaw s) := by
  simp only [sub_cons, sub_nil, and_true] at hL
  unfold domRise1
  simp +contextual (maxDischargeDepth := 60) [*]

@[simp] theorem domRise_parts (n : Nat) (thaw : Bool) (s : State) {L : List Piece} (z0 : State) (hk : partsOnly L z0 s) (hL : sub [.regs, .pwr] L = true := by simp [*]) : partsOnly L z0 (domRise n thaw s) := by
  simp only [sub_cons, sub_nil, and_true] at hL
  unfold domRise
  simp +contextual (maxDischargeDepth := 60) [*]

@[simp] theorem entryAbandon_parts (n : Nat) (s : State) {L : List Piece} (z0 : State) (hk : partsOnly L z0 s) (hL : sub [.regs, .pwr, .flight] L = true := by simp [*]) : partsOnly L z0 (entryAbandon n s) := by
  simp only [sub_cons, sub_nil, and_true] at hL
  unfold entryAbandon
  (repeat' split) <;> simp +contextual (maxDischargeDepth := 60) [*]

@[simp] theorem voteChanged_parts (n : Nat) (a1 : State) {L : List Piece} (z0 : State) (hk : partsOnly L z0 a1) (hL : sub [.regs, .pwr, .flight] L = true := by simp [*]) : partsOnly L z0 (voteChanged n a1) := by
  simp only [sub_cons, sub_nil, and_true] at hL
  unfold voteChanged
  dsimp only
  (repeat' split) <;> simp +contextual (maxDischargeDepth := 60) [*]

@[simp] theorem gVote_parts (n : Nat) (v : Nat) (s : State) {L : List Piece} (z0 : State) (hk : partsOnly L z0 s) (hL : sub [.regs, .pwr, .flight] L = true := by simp [*]) : partsOnly L z0 (gVote n v s) := by
  simp only [sub_cons, sub_nil, and_true] at hL
  unfold gVote
  simp +contextual (maxDischargeDepth := 60) [*]

@[simp] theorem cVote_parts (n : Nat) (v : Nat) (s : State) {L : List Piece} (z0 : State) (hk : partsOnly L z0 s) (hL : sub [.regs, .pwr, .flight] L = true := by simp [*]) : partsOnly L z0 (cVote n v s) := by
  simp only [sub_cons, sub_nil, and_true] at hL
  unfold cVote
  simp +contextual (maxDischargeDepth := 60) [*]

@[simp] theorem votesOn_parts (n : Nat) (s : State) {L : List Piece} (z0 : State) (hk : partsOnly L z0 s) (hL : sub [.regs, .pwr, .flight] L = true := by simp [*]) : partsOnly L z0 (votesOn n s) := by
  simp only [sub_cons, sub_nil, and_true] at hL
  unfold votesOn
  simp +contextual (maxDischargeDepth := 60) [*]

@[simp] theorem rfeModPort_parts (p : Nat) (f : Port → Port) (s : State) {L : List Piece} (z0 : State) (hk : partsOnly L z0 s) (hL : sub [.rfe] L = true := by simp [*]) : partsOnly L z0 (rfeModPort p f s) := by
  simp only [sub_cons, sub_nil, and_true] at hL
  unfold rfeModPort
  dsimp only
  (repeat' split) <;> simp +contextual (maxDischargeDepth := 60) [*]

@[simp] theorem txCapRefresh_parts (s : State) {L : List Piece} (z0 : State) (hk : partsOnly L z0 s) (hL : sub [.regs] L = true := by simp [*]) : partsOnly L z0 (txCapRefresh s) := by
  simp only [sub_cons, sub_nil, and_true] at hL
  unfold txCapRefresh
  dsimp only
  (repeat' split) <;> simp +contextual (maxDischargeDepth := 60) [*]

@[simp] theorem txCapChange_parts (s : State) {L : List Piece} (z0 : State) (hk : partsOnly L z0 s) (hL : sub [.regs, .flight] L = true := by simp [*]) : partsOnly L z0 (txCapChange s) := by
  simp only [sub_cons, sub_nil, and_true] at hL
  unfold txCapChange
  dsimp only
  (repeat' split) <;> simp +contextual (maxDischargeDepth := 60) [*]

@[simp] theorem synthTune_parts (freq : Nat) (s : State) {L : List Piece} (z0 : State) (hk : partsOnly L z0 s) (hL : sub [.regs, .rfe] L = true := by simp [*]) : partsOnly L z0 (synthTune freq s) := by
  simp only [sub_cons, sub_nil, and_true] at hL
  unfold synthTune
  dsimp only
  (repeat' split) <;> simp +contextual (maxDischargeDepth := 60) [*]

@[simp] theorem synthOff_parts (s : State) {L : List Piece} (z0 : State) (hk : partsOnly L z0 s) (hL : sub [.regs, .rfe] L = true := by simp [*]) : partsOnly L z0 (synthOff s) := by
  simp only [sub_cons, sub_nil, and_true] at hL
  unfold synthOff
  dsimp only
  (repeat' split) <;> simp +contextual (maxDischargeDepth := 60) [*]

@[simp] theorem fullLock_parts (s : State) {L : List Piece} (z0 : State) (hk : partsOnly L z0 s) (hL : sub [.regs, .rfe] L = true := by simp [*]) : partsOnly L z0 (fullLock s) := by
  simp only [sub_cons, sub_nil, and_true] at hL
  unfold fullLock
  dsimp only
  (repeat' split) <;> simp +contextual (maxDischargeDepth := 60) [*]

@[simp] theorem retune_parts (s : State) {L : List Piece} (z0 : State) (hk : partsOnly L z0 s) (hL : sub [.regs, .rfe] L = true := by simp [*]) : partsOnly L z0 (retune s) := by
  simp only [sub_cons, sub_nil, and_true] at hL
  unfold retune
  dsimp only
  (repeat' split) <;> simp +contextual (maxDischargeDepth := 60) [*]

@[simp] theorem vpaMeasure_parts (mv : Nat) (s : State) {L : List Piece} (z0 : State) (hk : partsOnly L z0 s) (hL : sub [.regs, .flight] L = true := by simp [*]) : partsOnly L z0 (vpaMeasure mv s) := by
  simp only [sub_cons, sub_nil, and_true] at hL
  unfold vpaMeasure
  dsimp only
  (repeat' split) <;> simp +contextual (maxDischargeDepth := 60) [*]

@[simp] theorem stEnter_parts (id : Nat) (vpa : Nat) (s : State) {L : List Piece} (z0 : State) (hk : partsOnly L z0 s) (hL : sub [.regs, .pwr, .flight, .rfe] L = true := by simp [*]) : partsOnly L z0 (stEnter id vpa s) := by
  simp only [sub_cons, sub_nil, and_true] at hL
  unfold stEnter
  dsimp only
  (repeat' split) <;> simp +contextual (maxDischargeDepth := 60) [*]

@[simp] theorem calAbandon_parts (s : State) {L : List Piece} (z0 : State) (hk : partsOnly L z0 s) (hL : sub [.regs, .rfe] L = true := by simp [*]) : partsOnly L z0 (calAbandon s) := by
  simp only [sub_cons, sub_nil, and_true] at hL
  unfold calAbandon
  dsimp only
  (repeat' split) <;> simp +contextual (maxDischargeDepth := 60) [*]

@[simp] theorem stateRequest_parts (target : Nat) (freq : Nat) (vpa : Nat) (s : State) {L : List Piece} (z0 : State) (hk : partsOnly L z0 s) (hL : sub [.regs, .pwr, .flight, .rfe] L = true := by simp [*]) : partsOnly L z0 (stateRequest target freq vpa s) := by
  simp only [sub_cons, sub_nil, and_true] at hL
  unfold stateRequest
  dsimp only
  (repeat' split) <;> simp +contextual (maxDischargeDepth := 60) [*]

@[simp] theorem heldRequest_parts (vpa : Nat) (s : State) {L : List Piece} (z0 : State) (hk : partsOnly L z0 s) (hL : sub [.regs, .pwr, .flight, .rfe] L = true := by simp [*]) : partsOnly L z0 (heldRequest vpa s) := by
  simp only [sub_cons, sub_nil, and_true] at hL
  unfold heldRequest
  dsimp only
  (repeat' split) <;> simp +contextual (maxDischargeDepth := 60) [*]

@[simp] theorem autoReturn_parts (vpa : Nat) (s : State) {L : List Piece} (z0 : State) (hk : partsOnly L z0 s) (hL : sub [.regs, .pwr, .flight, .rfe] L = true := by simp [*]) : partsOnly L z0 (autoReturn vpa s) := by
  simp only [sub_cons, sub_nil, and_true] at hL
  unfold autoReturn
  dsimp only
  (repeat' split) <;> simp +contextual (maxDischargeDepth := 60) [*]

@[simp] theorem movingDone_parts (s : State) {L : List Piece} (z0 : State) (hk : partsOnly L z0 s) (hL : sub [.rfe] L = true := by simp [*]) : partsOnly L z0 (movingDone s) := by
  simp only [sub_cons, sub_nil, and_true] at hL
  unfold movingDone
  dsimp only
  (repeat' split) <;> simp +contextual (maxDischargeDepth := 60) [*]

@[simp] theorem calibrationStart_parts (kind : Nat) (port : Nat) (s : State) {L : List Piece} (z0 : State) (hk : partsOnly L z0 s) (hL : sub [.regs, .rfe] L = true := by simp [*]) : partsOnly L z0 (calibrationStart kind port s) := by
  simp only [sub_cons, sub_nil, and_true] at hL
  unfold calibrationStart
  dsimp only
  (repeat' split) <;> simp +contextual (maxDischargeDepth := 60) [*]

@[simp] theorem calibrationComplete_parts (good : Bool) (s : State) {L : List Piece} (z0 : State) (hk : partsOnly L z0 s) (hL : sub [.mboxes, .regs, .health, .heldNotices, .flight, .rfe] L = true := by simp [*]) : partsOnly L z0 (calibrationComplete good s) := by
  simp only [sub_cons, sub_nil, and_true] at hL
  unfold calibrationComplete
  dsimp only
  (repeat' split) <;> simp +contextual (maxDischargeDepth := 60) [*]

@[simp] theorem calibrationOverdue_parts (kind : Nat) (port : Nat) (s : State) {L : List Piece} (z0 : State) (hk : partsOnly L z0 s) (hL : sub [.regs, .rfe] L = true := by simp [*]) : partsOnly L z0 (calibrationOverdue kind port s) := by
  simp only [sub_cons, sub_nil, and_true] at hL
  unfold calibrationOverdue
  dsimp only
  (repeat' split) <;> simp +contextual (maxDischargeDepth := 60) [*]

@[simp] theorem dutyShow_parts (s : State) {L : List Piece} (z0 : State) (hk : partsOnly L z0 s) (hL : sub [.regs] L = true := by simp [*]) : partsOnly L z0 (dutyShow s) := by
  simp only [sub_cons, sub_nil, and_true] at hL
  unfold dutyShow
  dsimp only
  (repeat' split) <;> simp +contextual (maxDischargeDepth := 60) [*]

@[simp] theorem dutyAdd_parts (i : Nat) (us : Nat) (s : State) {L : List Piece} (z0 : State) (hk : partsOnly L z0 s) (hL : sub [.regs, .rfe] L = true := by simp [*]) : partsOnly L z0 (dutyAdd i us s) := by
  simp only [sub_cons, sub_nil, and_true] at hL
  unfold dutyAdd
  dsimp only
  (repeat' split) <;> simp +contextual (maxDischargeDepth := 60) [*]

@[simp] theorem dutyBucket_parts (s : State) {L : List Piece} (z0 : State) (hk : partsOnly L z0 s) (hL : sub [.regs, .rfe] L = true := by simp [*]) : partsOnly L z0 (dutyBucket s) := by
  simp only [sub_cons, sub_nil, and_true] at hL
  unfold dutyBucket
  dsimp only
  (repeat' split) <;> simp +contextual (maxDischargeDepth := 60) [*]

@[simp] theorem dwellAdd_parts (i : Nat) (freq : Nat) (used : Nat) (us : Nat) (s : State) {L : List Piece} (z0 : State) (hk : partsOnly L z0 s) (hL : sub [.rfe] L = true := by simp [*]) : partsOnly L z0 (dwellAdd i freq used us s) := by
  simp only [sub_cons, sub_nil, and_true] at hL
  unfold dwellAdd
  dsimp only
  (repeat' split) <;> simp +contextual (maxDischargeDepth := 60) [*]

@[simp] theorem txOutcomeCount_parts (o : Nat) (s : State) {L : List Piece} (z0 : State) (hk : partsOnly L z0 s) (hL : sub [.regs, .flight] L = true := by simp [*]) : partsOnly L z0 (txOutcomeCount o s) := by
  simp only [sub_cons, sub_nil, and_true] at hL
  unfold txOutcomeCount
  (repeat' split) <;> simp +contextual (maxDischargeDepth := 60) [*]

@[simp] theorem lastTx_parts (outcome : Nat) (clip : Bool) (port : Nat) (hold : Nat) (pcode : Nat) (s : State) {L : List Piece} (z0 : State) (hk : partsOnly L z0 s) (hL : sub [.regs] L = true := by simp [*]) : partsOnly L z0 (lastTx outcome clip port hold pcode s) := by
  simp only [sub_cons, sub_nil, and_true] at hL
  unfold lastTx
  simp +contextual (maxDischargeDepth := 60) [*]

@[simp] theorem txRefuse_parts (r : TxReq) (o : Nat) (s : State) {L : List Piece} (z0 : State) (hk : partsOnly L z0 s) (hL : sub [.regs, .flight, .rfe] L = true := by simp [*]) : partsOnly L z0 (txRefuse r o s) := by
  simp only [sub_cons, sub_nil, and_true] at hL
  unfold txRefuse
  dsimp only
  (repeat' split) <;> simp +contextual (maxDischargeDepth := 60) [*]

@[simp] theorem txSend_parts (r : TxReq) (i : Nat) (outcome : Nat) (hold : Nat) (s : State) {L : List Piece} (z0 : State) (hk : partsOnly L z0 s) (hL : sub [.regs, .pwr, .flight, .rfe] L = true := by simp [*]) : partsOnly L z0 (txSend r i outcome hold s) := by
  simp only [sub_cons, sub_nil, and_true] at hL
  unfold txSend
  dsimp only
  (repeat' split) <;> simp +contextual (maxDischargeDepth := 60) [*]

@[simp] theorem txEvaluate_parts (r : TxReq) (busy : Bool) (lbt : Bool) (s : State) {L : List Piece} (z0 : State) (hk : partsOnly L z0 s) (hL : sub [.regs, .pwr, .flight, .rfe] L = true := by simp [*]) : partsOnly L z0 (txEvaluate r busy lbt s) := by
  simp only [sub_cons, sub_nil, and_true] at hL
  unfold txEvaluate
  dsimp only
  (repeat' split) <;> simp +contextual (maxDischargeDepth := 60) [*]

@[simp] theorem txHoldRelease_parts (busy : Bool) (s : State) {L : List Piece} (z0 : State) (hk : partsOnly L z0 s) (hL : sub [.regs, .pwr, .flight, .rfe] L = true := by simp [*]) : partsOnly L z0 (txHoldRelease busy s) := by
  simp only [sub_cons, sub_nil, and_true] at hL
  unfold txHoldRelease
  (repeat' split) <;> simp +contextual (maxDischargeDepth := 60) [*]

@[simp] theorem txAbandon_parts (s : State) {L : List Piece} (z0 : State) (hk : partsOnly L z0 s) (hL : sub [.regs, .flight, .rfe] L = true := by simp [*]) : partsOnly L z0 (txAbandon s) := by
  simp only [sub_cons, sub_nil, and_true] at hL
  unfold txAbandon
  (repeat' split) <;> simp +contextual (maxDischargeDepth := 60) [*]

@[simp] theorem setClass_parts (p : Nat) (c : Nat) (s : State) {L : List Piece} (z0 : State) (hk : partsOnly L z0 s) (hL : sub [.regs, .flight, .rfe] L = true := by simp [*]) : partsOnly L z0 (setClass p c s) := by
  simp only [sub_cons, sub_nil, and_true] at hL
  unfold setClass
  dsimp only
  (repeat' split) <;> simp +contextual (maxDischargeDepth := 60) [*]

@[simp] theorem classMeasure_parts (p : Nat) (rl : Nat) (s : State) {L : List Piece} (z0 : State) (hk : partsOnly L z0 s) (hL : sub [.regs, .flight, .rfe] L = true := by simp [*]) : partsOnly L z0 (classMeasure p rl s) := by
  simp only [sub_cons, sub_nil, and_true] at hL
  unfold classMeasure
  dsimp only
  (repeat' split) <;> simp +contextual (maxDischargeDepth := 60) [*]

@[simp] theorem tunerStep_parts (p : Nat) (ser : Nat) (shu : Nat) (s : State) {L : List Piece} (z0 : State) (hk : partsOnly L z0 s) (hL : sub [.regs] L = true := by simp [*]) : partsOnly L z0 (tunerStep p ser shu s) := by
  simp only [sub_cons, sub_nil, and_true] at hL
  unfold tunerStep
  simp +contextual (maxDischargeDepth := 60) [*]

@[simp] theorem tunerLearn_parts (p : Nat) (freq : Nat) (s : State) {L : List Piece} (z0 : State) (hk : partsOnly L z0 s) (hL : sub [.rfe] L = true := by simp [*]) : partsOnly L z0 (tunerLearn p freq s) := by
  simp only [sub_cons, sub_nil, and_true] at hL
  unfold tunerLearn
  dsimp only
  (repeat' split) <;> simp +contextual (maxDischargeDepth := 60) [*]

@[simp] theorem tunerFirst_parts (p : Nat) (freq : Nat) (s : State) {L : List Piece} (z0 : State) (hk : partsOnly L z0 s) (hL : sub [.regs, .rfe] L = true := by simp [*]) : partsOnly L z0 (tunerFirst p freq s) := by
  simp only [sub_cons, sub_nil, and_true] at hL
  unfold tunerFirst
  dsimp only
  (repeat' split) <;> simp +contextual (maxDischargeDepth := 60) [*]

@[simp] theorem ageBoGrow_parts (p : Nat) (s : State) {L : List Piece} (z0 : State) (hk : partsOnly L z0 s) (hL : sub [.mboxes, .regs, .health, .heldNotices, .tables, .flight] L = true := by simp [*]) : partsOnly L z0 (ageBoGrow p s) := by
  simp only [sub_cons, sub_nil, and_true] at hL
  unfold ageBoGrow
  dsimp only
  (repeat' split) <;> simp +contextual (maxDischargeDepth := 60) [*]

@[simp] theorem ageMeasure_parts (p : Nat) (low : Bool) (s : State) {L : List Piece} (z0 : State) (hk : partsOnly L z0 s) (hL : sub [.mboxes, .regs, .health, .heldNotices, .tables, .flight, .rfe] L = true := by simp [*]) : partsOnly L z0 (ageMeasure p low s) := by
  simp only [sub_cons, sub_nil, and_true] at hL
  unfold ageMeasure
  dsimp only
  (repeat' split) <;> simp +contextual (maxDischargeDepth := 60) [*]

@[simp] theorem txFrameEnd_parts (rl : Nat) (fwd : Nat) (ser : Nat) (shu : Nat) (low : Bool) (s : State) {L : List Piece} (z0 : State) (hk : partsOnly L z0 s) (hL : sub [.mboxes, .regs, .health, .heldNotices, .tables, .flight, .rfe] L = true := by simp [*]) : partsOnly L z0 (txFrameEnd rl fwd ser shu low s) := by
  simp only [sub_cons, sub_nil, and_true] at hL
  unfold txFrameEnd
  dsimp only
  (repeat' split) <;> simp +contextual (maxDischargeDepth := 60) [*]

@[simp] theorem mismatchFault_parts (rl : Nat) (fwd : Nat) (s : State) {L : List Piece} (z0 : State) (hk : partsOnly L z0 s) (hL : sub [.regs, .flight, .rfe] L = true := by simp [*]) : partsOnly L z0 (mismatchFault rl fwd s) := by
  simp only [sub_cons, sub_nil, and_true] at hL
  unfold mismatchFault
  dsimp only
  (repeat' split) <;> simp +contextual (maxDischargeDepth := 60) [*]

@[simp] theorem faultHoldExpiry_parts (p : Nat) (s : State) {L : List Piece} (z0 : State) (hk : partsOnly L z0 s) (hL : sub [.regs, .flight, .rfe] L = true := by simp [*]) : partsOnly L z0 (faultHoldExpiry p s) := by
  simp only [sub_cons, sub_nil, and_true] at hL
  unfold faultHoldExpiry
  simp +contextual (maxDischargeDepth := 60) [*]

@[simp] theorem tunerWriteBack_parts (s : State) {L : List Piece} (z0 : State) (hk : partsOnly L z0 s) (hL : sub [.tables, .rfe] L = true := by simp [*]) : partsOnly L z0 (tunerWriteBack s) := by
  simp only [sub_cons, sub_nil, and_true] at hL
  unfold tunerWriteBack
  dsimp only
  (repeat' split) <;> simp +contextual (maxDischargeDepth := 60) [*]

end Sys2Proof.Machine
end

