-- ==== Sys2Proof/Laws/PartsRadio.lean ====
section
/-!
SUPPORT. What the receiver, the mesh, the link controller, joining and the wired port leave alone: one lemma per operation, over `partsOnly` (Laws/Parts.lean).
-/
namespace Sys2Proof.Machine
set_option Elab.async false

@[simp] theorem mdmShow_parts (s : State) {L : List Piece} (z0 : State) (hk : partsOnly L z0 s) (hL : sub [.regs] L = true := by simp [*]) : partsOnly L z0 (mdmShow s) := by
  simp only [sub_cons, sub_nil, and_true] at hL
  unfold mdmShow
  dsimp only
  (repeat' split) <;> simp +contextual (maxDischargeDepth := 60) [*]

@[simp] theorem decSet_parts (d : Nat) (x : Dec) (s : State) {L : List Piece} (z0 : State) (hk : partsOnly L z0 s) (hL : sub [.rxc, .regs] L = true := by simp [*]) : partsOnly L z0 (decSet d x s) := by
  simp only [sub_cons, sub_nil, and_true] at hL
  unfold decSet
  dsimp only
  (repeat' split) <;> simp +contextual (maxDischargeDepth := 60) [*]

@[simp] theorem decFree_parts (d : Nat) (s : State) {L : List Piece} (z0 : State) (hk : partsOnly L z0 s) (hL : sub [.rxc, .regs] L = true := by simp [*]) : partsOnly L z0 (decFree d s) := by
  simp only [sub_cons, sub_nil, and_true] at hL
  unfold decFree
  dsimp only
  (repeat' split) <;> simp +contextual (maxDischargeDepth := 60) [*]

@[simp] theorem poolAbandon_parts (s : State) {L : List Piece} (z0 : State) (hk : partsOnly L z0 s) (hL : sub [.rxc, .regs] L = true := by simp [*]) : partsOnly L z0 (poolAbandon s) := by
  simp only [sub_cons, sub_nil, and_true] at hL
  unfold poolAbandon
  dsimp only
  (repeat' split) <;> simp +contextual (maxDischargeDepth := 60) [*]

@[simp] theorem winShow_parts (s : State) {L : List Piece} (z0 : State) (hk : partsOnly L z0 s) (hL : sub [.regs] L = true := by simp [*]) : partsOnly L z0 (winShow s) := by
  simp only [sub_cons, sub_nil, and_true] at hL
  unfold winShow
  dsimp only
  (repeat' split) <;> simp +contextual (maxDischargeDepth := 60) [*]

@[simp] theorem rxcMode_parts (m : Nat) (s : State) {L : List Piece} (z0 : State) (hk : partsOnly L z0 s) (hL : sub [.rxc, .regs] L = true := by simp [*]) : partsOnly L z0 (rxcMode m s) := by
  simp only [sub_cons, sub_nil, and_true] at hL
  unfold rxcMode
  dsimp only
  (repeat' split) <;> simp +contextual (maxDischargeDepth := 60) [*]

@[simp] theorem rxcApply_parts (s : State) {L : List Piece} (z0 : State) (hk : partsOnly L z0 s) (hL : sub [.rxc, .regs] L = true := by simp [*]) : partsOnly L z0 (rxcApply s) := by
  simp only [sub_cons, sub_nil, and_true] at hL
  unfold rxcApply
  dsimp only
  (repeat' split) <;> simp +contextual (maxDischargeDepth := 60) [*]

@[simp] theorem radioTransitionDone_parts (s : State) {L : List Piece} (z0 : State) (hk : partsOnly L z0 s) (hL : sub [.rxc, .regs, .rfe] L = true := by simp [*]) : partsOnly L z0 (radioTransitionDone s) := by
  simp only [sub_cons, sub_nil, and_true] at hL
  unfold radioTransitionDone
  simp +contextual (maxDischargeDepth := 60) [*]

@[simp] theorem stateTimeout_parts (vpa : Nat) (s : State) {L : List Piece} (z0 : State) (hk : partsOnly L z0 s) (hL : sub [.regs, .pwr, .flight, .rfe] L = true := by simp [*]) : partsOnly L z0 (stateTimeout vpa s) := by
  simp only [sub_cons, sub_nil, and_true] at hL
  unfold stateTimeout
  (repeat' split) <;> simp +contextual (maxDischargeDepth := 60) [*]

@[simp] theorem laneSet_parts (i : Nat) (l : Lane) (s : State) {L : List Piece} (z0 : State) (hk : partsOnly L z0 s) (hL : sub [.rxc] L = true := by simp [*]) : partsOnly L z0 (laneSet i l s) := by
  simp only [sub_cons, sub_nil, and_true] at hL
  unfold laneSet
  dsimp only
  (repeat' split) <;> simp +contextual (maxDischargeDepth := 60) [*]

@[simp] theorem laneRetire_parts (i : Nat) (s : State) {L : List Piece} (z0 : State) (hk : partsOnly L z0 s) (hL : sub [.rxc, .age, .mboxes, .regs, .health, .heldNotices, .flight] L = true := by simp [*]) : partsOnly L z0 (laneRetire i s) := by
  simp only [sub_cons, sub_nil, and_true] at hL
  unfold laneRetire
  dsimp only
  (repeat' split) <;> simp +contextual (maxDischargeDepth := 60) [*]

@[simp] theorem laneCalibration_parts (i : Nat) (q : Nat) (converged : Bool) (s : State) {L : List Piece} (z0 : State) (hk : partsOnly L z0 s) (hL : sub [.rxc, .age, .mboxes, .regs, .health, .heldNotices, .flight] L = true := by simp [*]) : partsOnly L z0 (laneCalibration i q converged s) := by
  simp only [sub_cons, sub_nil, and_true] at hL
  unfold laneCalibration
  dsimp only
  (repeat' split) <;> simp +contextual (maxDischargeDepth := 60) [*]

@[simp] theorem laneExchange_parts (i : Nat) (s : State) {L : List Piece} (z0 : State) (hk : partsOnly L z0 s) (hL : sub [.rxc, .regs] L = true := by simp [*]) : partsOnly L z0 (laneExchange i s) := by
  simp only [sub_cons, sub_nil, and_true] at hL
  unfold laneExchange
  dsimp only
  (repeat' split) <;> simp +contextual (maxDischargeDepth := 60) [*]

@[simp] theorem clipOverload_parts (powerS : Nat) (powerW : Nat) (s : State) {L : List Piece} (z0 : State) (hk : partsOnly L z0 s) (hL : sub [.rxc, .regs, .flight] L = true := by simp [*]) : partsOnly L z0 (clipOverload powerS powerW s) := by
  simp only [sub_cons, sub_nil, and_true] at hL
  unfold clipOverload
  dsimp only
  (repeat' split) <;> simp +contextual (maxDischargeDepth := 60) [*]

@[simp] theorem gainStepUp_parts (p : Nat) (s : State) {L : List Piece} (z0 : State) (hk : partsOnly L z0 s) (hL : sub [.regs] L = true := by simp [*]) : partsOnly L z0 (gainStepUp p s) := by
  simp only [sub_cons, sub_nil, and_true] at hL
  unfold gainStepUp
  simp +contextual (maxDischargeDepth := 60) [*]

@[simp] theorem candLost_parts (s : State) {L : List Piece} (z0 : State) (hk : partsOnly L z0 s) (hL : sub [.rxc, .regs, .flight] L = true := by simp [*]) : partsOnly L z0 (candLost s) := by
  simp only [sub_cons, sub_nil, and_true] at hL
  unfold candLost
  dsimp only
  (repeat' split) <;> simp +contextual (maxDischargeDepth := 60) [*]

@[simp] theorem preambleDetect_parts (w : Nat) (bin : Nat) (mode : Nat) (energy : Nat) (again : Bool) (s : State) {L : List Piece} (z0 : State) (hk : partsOnly L z0 s) (hL : sub [.rxc, .regs, .flight] L = true := by simp [*]) : partsOnly L z0 (preambleDetect w bin mode energy again s) := by
  simp only [sub_cons, sub_nil, and_true] at hL
  unfold preambleDetect
  dsimp only
  (repeat' split) <;> simp +contextual (maxDischargeDepth := 60) [*]

@[simp] theorem candidateExpiry_parts (i : Nat) (s : State) {L : List Piece} (z0 : State) (hk : partsOnly L z0 s) (hL : sub [.rxc, .regs, .flight] L = true := by simp [*]) : partsOnly L z0 (candidateExpiry i s) := by
  simp only [sub_cons, sub_nil, and_true] at hL
  unfold candidateExpiry
  dsimp only
  (repeat' split) <;> simp +contextual (maxDischargeDepth := 60) [*]

@[simp] theorem attach_parts (d : Nat) (c : Cand) (r : Option Rsv) (s : State) {L : List Piece} (z0 : State) (hk : partsOnly L z0 s) (hL : sub [.rxc, .regs] L = true := by simp [*]) : partsOnly L z0 (attach d c r s) := by
  simp only [sub_cons, sub_nil, and_true] at hL
  unfold attach
  dsimp only
  (repeat' split) <;> simp +contextual (maxDischargeDepth := 60) [*]

@[simp] theorem serveReserved_parts (d : Nat) (s : State) {L : List Piece} (z0 : State) (hk : partsOnly L z0 s) (hL : sub [.rxc, .regs] L = true := by simp [*]) : partsOnly L z0 (serveReserved d s) := by
  simp only [sub_cons, sub_nil, and_true] at hL
  unfold serveReserved
  dsimp only
  (repeat' split) <;> simp +contextual (maxDischargeDepth := 60) [*]

@[simp] theorem serveFree_parts (d : Nat) (s : State) {L : List Piece} (z0 : State) (hk : partsOnly L z0 s) (hL : sub [.rxc, .regs] L = true := by simp [*]) : partsOnly L z0 (serveFree d s) := by
  simp only [sub_cons, sub_nil, and_true] at hL
  unfold serveFree
  (repeat' split) <;> simp +contextual (maxDischargeDepth := 60) [*]

@[simp] theorem allocation_parts (s : State) {L : List Piece} (z0 : State) (hk : partsOnly L z0 s) (hL : sub [.rxc, .regs] L = true := by simp [*]) : partsOnly L z0 (allocation s) := by
  simp only [sub_cons, sub_nil, and_true] at hL
  unfold allocation
  dsimp only
  (repeat' split) <;> simp +contextual (maxDischargeDepth := 60) [*]

@[simp] theorem rsvMake_parts (r : Rsv) (s : State) {L : List Piece} (z0 : State) (hk : partsOnly L z0 s) (hL : sub [.rxc, .regs] L = true := by simp [*]) : partsOnly L z0 (rsvMake r s) := by
  simp only [sub_cons, sub_nil, and_true] at hL
  unfold rsvMake
  dsimp only
  (repeat' split) <;> simp +contextual (maxDischargeDepth := 60) [*]

@[simp] theorem reservationStart_parts (i : Nat) (s : State) {L : List Piece} (z0 : State) (hk : partsOnly L z0 s) (hL : sub [.rxc, .regs] L = true := by simp [*]) : partsOnly L z0 (reservationStart i s) := by
  simp only [sub_cons, sub_nil, and_true] at hL
  unfold reservationStart
  dsimp only
  (repeat' split) <;> simp +contextual (maxDischargeDepth := 60) [*]

@[simp] theorem reservationLapse_parts (d : Nat) (s : State) {L : List Piece} (z0 : State) (hk : partsOnly L z0 s) (hL : sub [.rxc, .regs] L = true := by simp [*]) : partsOnly L z0 (reservationLapse d s) := by
  simp only [sub_cons, sub_nil, and_true] at hL
  unfold reservationLapse
  dsimp only
  (repeat' split) <;> simp +contextual (maxDischargeDepth := 60) [*]

@[simp] theorem frameDecoded_parts (d : Nat) (r : RxIn) (room : Bool) (s : State) {L : List Piece} (z0 : State) (hk : partsOnly L z0 s) (hL : sub [.rxc, .regs, .flight, .rfe] L = true := by simp [*]) : partsOnly L z0 (frameDecoded d r room s) := by
  simp only [sub_cons, sub_nil, and_true] at hL
  unfold frameDecoded
  dsimp only
  (repeat' split) <;> simp +contextual (maxDischargeDepth := 60) [*]

@[simp] theorem sfdTimeout_parts (d : Nat) (s : State) {L : List Piece} (z0 : State) (hk : partsOnly L z0 s) (hL : sub [.rxc, .regs] L = true := by simp [*]) : partsOnly L z0 (sfdTimeout d s) := by
  simp only [sub_cons, sub_nil, and_true] at hL
  unfold sfdTimeout
  simp +contextual (maxDischargeDepth := 60) [*]

@[simp] theorem decodeAbandon_parts (d : Nat) (s : State) {L : List Piece} (z0 : State) (hk : partsOnly L z0 s) (hL : sub [.rxc, .regs] L = true := by simp [*]) : partsOnly L z0 (decodeAbandon d s) := by
  simp only [sub_cons, sub_nil, and_true] at hL
  unfold decodeAbandon
  simp +contextual (maxDischargeDepth := 60) [*]

@[simp] theorem timestampMark_parts (s : State) {L : List Piece} (z0 : State) (hk : partsOnly L z0 s) (hL : sub [.rxc] L = true := by simp [*]) : partsOnly L z0 (timestampMark s) := by
  simp only [sub_cons, sub_nil, and_true] at hL
  unfold timestampMark
  dsimp only
  (repeat' split) <;> simp +contextual (maxDischargeDepth := 60) [*]

@[simp] theorem rxcConfig_parts (s : State) {L : List Piece} (z0 : State) (hk : partsOnly L z0 s) (hL : sub [.regs] L = true := by simp [*]) : partsOnly L z0 (rxcConfig s) := by
  simp only [sub_cons, sub_nil, and_true] at hL
  unfold rxcConfig
  dsimp only
  (repeat' split) <;> simp +contextual (maxDischargeDepth := 60) [*]

@[simp] theorem State.raiseLim_parts (s : State) (src : Nat) (n : Nat) {L : List Piece} (z0 : State) (hk : partsOnly L z0 s) (hL : sub [.evAt, .flight] L = true := by simp [*]) : partsOnly L z0 (State.raiseLim s src n) := by
  simp only [sub_cons, sub_nil, and_true] at hL
  unfold State.raiseLim
  (repeat' split) <;> simp +contextual (maxDischargeDepth := 60) [*]

@[simp] theorem egressMod_parts (p : Nat) (f : Egress → Egress) (s : State) {L : List Piece} (z0 : State) (hk : partsOnly L z0 s) (hL : sub [.msh] L = true := by simp [*]) : partsOnly L z0 (egressMod p f s) := by
  simp only [sub_cons, sub_nil, and_true] at hL
  unfold egressMod
  dsimp only
  (repeat' split) <;> simp +contextual (maxDischargeDepth := 60) [*]

@[simp] theorem mshShow_parts (s : State) {L : List Piece} (z0 : State) (hk : partsOnly L z0 s) (hL : sub [.regs, .evAt, .flight] L = true := by simp [*]) : partsOnly L z0 (mshShow s) := by
  simp only [sub_cons, sub_nil, and_true] at hL
  unfold mshShow
  dsimp only
  (repeat' split) <;> simp +contextual (maxDischargeDepth := 60) [*]

@[simp] theorem enqueue_parts (p : Nat) (hop : Hop) (cls : Nat) (src : Nat) (len : Nat) (data : List Nat) (deadline : Option Nat) (s : State) {L : List Piece} (z0 : State) (hk : partsOnly L z0 s) (hL : sub [.msh, .regs, .evAt, .flight] L = true := by simp [*]) : partsOnly L z0 (enqueue p hop cls src len data deadline s) := by
  simp only [sub_cons, sub_nil, and_true] at hL
  unfold enqueue
  dsimp only
  (repeat' split) <;> simp +contextual (maxDischargeDepth := 60) [*]

@[simp] theorem takeTokens_parts (p : Nat) (f : QFrame) (s : State) {L : List Piece} (z0 : State) (hk : partsOnly L z0 s) (hL : sub [.msh] L = true := by simp [*]) : partsOnly L z0 (takeTokens p f s) := by
  simp only [sub_cons, sub_nil, and_true] at hL
  unfold takeTokens
  dsimp only
  (repeat' split) <;> simp +contextual (maxDischargeDepth := 60) [*]

@[simp] theorem dropStale_parts (p : Nat) (s : State) {L : List Piece} (z0 : State) (hk : partsOnly L z0 s) (hL : sub [.msh, .regs] L = true := by simp [*]) : partsOnly L z0 (dropStale p s) := by
  simp only [sub_cons, sub_nil, and_true] at hL
  unfold dropStale
  dsimp only
  (repeat' split) <;> simp +contextual (maxDischargeDepth := 60) [*]

@[simp] theorem selectFrame_parts (p : Nat) (hop : Hop) (s : State) {L : List Piece} (z0 : State) (hk : partsOnly L z0 s) (hL : sub [.msh, .regs, .evAt, .flight] L = true := by simp [*]) : partsOnly L z0 (selectFrame p hop s).2 := by
  simp only [sub_cons, sub_nil, and_true] at hL
  unfold selectFrame
  dsimp only
  (repeat' split) <;> simp +contextual (maxDischargeDepth := 60) [*]

@[simp] theorem queueAgeScan_parts (s : State) {L : List Piece} (z0 : State) (hk : partsOnly L z0 s) (hL : sub [.msh, .regs, .evAt, .flight] L = true := by simp [*]) : partsOnly L z0 (queueAgeScan s) := by
  simp only [sub_cons, sub_nil, and_true] at hL
  unfold queueAgeScan
  dsimp only
  (repeat' split) <;> simp +contextual (maxDischargeDepth := 60) [*]

@[simp] theorem mshLinkDown_parts (nb : Nb) (hop : Hop) (ports : List Nat) (s : State) {L : List Piece} (z0 : State) (hk : partsOnly L z0 s) (hL : sub [.msh, .regs, .evAt, .flight] L = true := by simp [*]) : partsOnly L z0 (mshLinkDown nb hop ports s) := by
  simp only [sub_cons, sub_nil, and_true] at hL
  unfold mshLinkDown
  dsimp only
  (repeat' split) <;> simp +contextual (maxDischargeDepth := 60) [*]

@[simp] theorem seenInsert_parts (id : Nat) (s : State) {L : List Piece} (z0 : State) (hk : partsOnly L z0 s) (hL : sub [.msh, .regs, .evAt, .flight] L = true := by simp [*]) : partsOnly L z0 (seenInsert id s) := by
  simp only [sub_cons, sub_nil, and_true] at hL
  unfold seenInsert
  dsimp only
  (repeat' split) <;> simp +contextual (maxDischargeDepth := 60) [*]

@[simp] theorem seenExpiry_parts (i : Nat) (s : State) {L : List Piece} (z0 : State) (hk : partsOnly L z0 s) (hL : sub [.msh, .regs, .evAt, .flight] L = true := by simp [*]) : partsOnly L z0 (seenExpiry i s) := by
  simp only [sub_cons, sub_nil, and_true] at hL
  unfold seenExpiry
  dsimp only
  (repeat' split) <;> simp +contextual (maxDischargeDepth := 60) [*]

@[simp] theorem routeLearn_parts (dest : Nat) (nb : Nb) (s : State) {L : List Piece} (z0 : State) (hk : partsOnly L z0 s) (hL : sub [.msh, .regs, .evAt, .flight] L = true := by simp [*]) : partsOnly L z0 (routeLearn dest nb s) := by
  simp only [sub_cons, sub_nil, and_true] at hL
  unfold routeLearn
  dsimp only
  (repeat' split) <;> simp +contextual (maxDischargeDepth := 60) [*]

@[simp] theorem routeDrop_parts (dest : Nat) (s : State) {L : List Piece} (z0 : State) (hk : partsOnly L z0 s) (hL : sub [.msh, .regs, .evAt, .flight] L = true := by simp [*]) : partsOnly L z0 (routeDrop dest s) := by
  simp only [sub_cons, sub_nil, and_true] at hL
  unfold routeDrop
  dsimp only
  (repeat' split) <;> simp +contextual (maxDischargeDepth := 60) [*]

@[simp] theorem routeExpiry_parts (i : Nat) (s : State) {L : List Piece} (z0 : State) (hk : partsOnly L z0 s) (hL : sub [.msh, .regs, .evAt, .flight] L = true := by simp [*]) : partsOnly L z0 (routeExpiry i s) := by
  simp only [sub_cons, sub_nil, and_true] at hL
  unfold routeExpiry
  dsimp only
  (repeat' split) <;> simp +contextual (maxDischargeDepth := 60) [*]

@[simp] theorem police_parts (src : Nat) (s : State) {L : List Piece} (z0 : State) (hk : partsOnly L z0 s) (hL : sub [.msh] L = true := by simp [*]) : partsOnly L z0 (police src s).2 := by
  simp only [sub_cons, sub_nil, and_true] at hL
  unfold police
  dsimp only
  (repeat' split) <;> simp +contextual (maxDischargeDepth := 60) [*]

@[simp] theorem relayStart_parts (id : Nat) (psdu : List Nat) (s : State) {L : List Piece} (z0 : State) (hk : partsOnly L z0 s) (hL : sub [.msh, .regs, .freeCtr] L = true := by simp [*]) : partsOnly L z0 (relayStart id psdu s) := by
  simp only [sub_cons, sub_nil, and_true] at hL
  unfold relayStart
  dsimp only
  (repeat' split) <;> simp +contextual (maxDischargeDepth := 60) [*]

@[simp] theorem relayBackoff_parts (i : Nat) (s : State) {L : List Piece} (z0 : State) (hk : partsOnly L z0 s) (hL : sub [.msh, .regs, .evAt, .flight] L = true := by simp [*]) : partsOnly L z0 (relayBackoff i s) := by
  simp only [sub_cons, sub_nil, and_true] at hL
  unfold relayBackoff
  dsimp only
  (repeat' split) <;> simp +contextual (maxDischargeDepth := 60) [*]

@[simp] theorem relayDeadline_parts (p : Nat) (i : Nat) (s : State) {L : List Piece} (z0 : State) (hk : partsOnly L z0 s) (hL : sub [.msh, .regs, .evAt, .flight] L = true := by simp [*]) : partsOnly L z0 (relayDeadline p i s) := by
  simp only [sub_cons, sub_nil, and_true] at hL
  unfold relayDeadline
  simp +contextual (maxDischargeDepth := 60) [*]

@[simp] theorem mshConfig_parts (old : List Nat) (s : State) {L : List Piece} (z0 : State) (hk : partsOnly L z0 s) (hL : sub [.msh, .regs] L = true := by simp [*]) : partsOnly L z0 (mshConfig old s) := by
  simp only [sub_cons, sub_nil, and_true] at hL
  unfold mshConfig
  dsimp only
  (repeat' split) <;> simp +contextual (maxDischargeDepth := 60) [*]

@[simp] theorem epochLoad_parts (ep : Nat) (fr : Nat) (key : List Nat) (s : State) {L : List Piece} (z0 : State) (hk : partsOnly L z0 s) (hL : sub [.lnk] L = true := by simp [*]) : partsOnly L z0 (epochLoad ep fr key s) := by
  simp only [sub_cons, sub_nil, and_true] at hL
  unfold epochLoad
  dsimp only
  (repeat' split) <;> simp +contextual (maxDischargeDepth := 60) [*]

@[simp] theorem keymatLoad_parts (m : List Nat) (s : State) {L : List Piece} (z0 : State) (hk : partsOnly L z0 s) (hL : sub [.lnk] L = true := by simp [*]) : partsOnly L z0 (keymatLoad m s) := by
  simp only [sub_cons, sub_nil, and_true] at hL
  unfold keymatLoad
  dsimp only
  (repeat' split) <;> simp +contextual (maxDischargeDepth := 60) [*]

@[simp] theorem planFrame_parts (t : Nat) (freq : Nat) (mode : Nat) (ack : Bool) (psdu : List Nat) (s : State) {L : List Piece} (z0 : State) (hk : partsOnly L z0 s) (hL : sub [.rfe] L = true := by simp [*]) : partsOnly L z0 (planFrame t freq mode ack psdu s) := by
  simp only [sub_cons, sub_nil, and_true] at hL
  unfold planFrame
  dsimp only
  (repeat' split) <;> simp +contextual (maxDischargeDepth := 60) [*]

@[simp] theorem expectFrame_parts (t : Nat) (g : Nat) (freq : Nat) (mode : Nat) (s : State) {L : List Piece} (z0 : State) (hk : partsOnly L z0 s) (hL : sub [.rxc, .regs] L = true := by simp [*]) : partsOnly L z0 (expectFrame t g freq mode s) := by
  simp only [sub_cons, sub_nil, and_true] at hL
  unfold expectFrame
  (repeat' split) <;> simp +contextual (maxDischargeDepth := 60) [*]

@[simp] theorem guardUse_parts (g : Nat) (cap : Nat) (s : State) {L : List Piece} (z0 : State) (hk : partsOnly L z0 s) (hL : sub [.regs] L = true := by simp [*]) : partsOnly L z0 (guardUse g cap s).2 := by
  simp only [sub_cons, sub_nil, and_true] at hL
  unfold guardUse
  dsimp only
  (repeat' split) <;> simp +contextual (maxDischargeDepth := 60) [*]

@[simp] theorem connSet_parts (c : Conn) (s : State) {L : List Piece} (z0 : State) (hk : partsOnly L z0 s) (hL : sub [.lnk] L = true := by simp [*]) : partsOnly L z0 (connSet c s) := by
  simp only [sub_cons, sub_nil, and_true] at hL
  unfold connSet
  dsimp only
  (repeat' split) <;> simp +contextual (maxDischargeDepth := 60) [*]

@[simp] theorem lnkShow_parts (s : State) {L : List Piece} (z0 : State) (hk : partsOnly L z0 s) (hL : sub [.regs] L = true := by simp [*]) : partsOnly L z0 (lnkShow s) := by
  simp only [sub_cons, sub_nil, and_true] at hL
  unfold lnkShow
  simp +contextual (maxDischargeDepth := 60) [*]

@[simp] theorem connFrame_parts (s : State) (c : Conn) (payload : List Nat) (ctrl : Bool) (md : Bool) {L : List Piece} (z0 : State) (hk : partsOnly L z0 s) (hL : sub [.lnk] L = true := by simp [*]) : partsOnly L z0 (connFrame s c payload ctrl md).2 := by
  simp only [sub_cons, sub_nil, and_true] at hL
  unfold connFrame
  dsimp only
  (repeat' split) <;> simp +contextual (maxDischargeDepth := 60) [*]

@[simp] theorem connSelect_parts (c : Conn) (s : State) {L : List Piece} (z0 : State) (hk : partsOnly L z0 s) (hL : sub [.msh, .regs, .evAt, .flight] L = true := by simp [*]) : partsOnly L z0 (connSelect c s).2 := by
  simp only [sub_cons, sub_nil, and_true] at hL
  unfold connSelect
  have h1 := selectFrame_parts c.band (connHop c) s z0 hk
  split
  · next h => rw [h] at h1; exact h1
  · next t h =>
    rw [h] at h1
    split
    · exact selectFrame_parts _ _ _ _ h1
    · exact h1

@[simp] theorem nextPdu_parts (c : Conn) (t : Nat) (opening : Bool) (s : State) {L : List Piece} (z0 : State) (hk : partsOnly L z0 s) (hL : sub [.msh, .regs, .lnk, .evAt, .flight] L = true := by simp [*]) : partsOnly L z0 (nextPdu c t opening s).2.2 := by
  simp only [sub_cons, sub_nil, and_true] at hL
  unfold nextPdu
  split
  · split <;> simp (maxDischargeDepth := 60) [hL, hk]
  · have h1 := connSelect_parts c s z0 hk
    dsimp only
    split
    · split
      · next h => rw [h] at h1; exact h1
      · next h => rw [h] at h1; exact h1
    · simp (maxDischargeDepth := 60) [hL, hk]

@[simp] theorem connSend_parts (id : Nat) (t : Nat) (opening : Bool) (s : State) {L : List Piece} (z0 : State) (hk : partsOnly L z0 s) (hL : sub [.rxc, .msh, .regs, .lnk, .evAt, .flight, .rfe] L = true := by simp [*]) : partsOnly L z0 (connSend id t opening s) := by
  simp only [sub_cons, sub_nil, and_true] at hL
  unfold connSend
  dsimp only
  (repeat' split) <;> simp +contextual (maxDischargeDepth := 60) [*]

@[simp] theorem connDrop_parts (id : Nat) (reason : Nat) (s : State) {L : List Piece} (z0 : State) (hk : partsOnly L z0 s) (hL : sub [.msh, .mboxes, .firn, .regs, .heldNotices, .lnk, .evAt, .flight, .rfe] L = true := by simp [*]) : partsOnly L z0 (connDrop id reason s) := by
  simp only [sub_cons, sub_nil, and_true] at hL
  unfold connDrop
  (repeat' split) <;> simp +contextual (maxDischargeDepth := 60) [*]

@[simp] theorem eventEnd_parts (id : Nat) (missed : Bool) (s : State) {L : List Piece} (z0 : State) (hk : partsOnly L z0 s) (hL : sub [.regs, .lnk] L = true := by simp [*]) : partsOnly L z0 (eventEnd id missed s) := by
  simp only [sub_cons, sub_nil, and_true] at hL
  unfold eventEnd
  dsimp only
  (repeat' split) <;> simp +contextual (maxDischargeDepth := 60) [*]

@[simp] theorem connectionEvent_parts (id : Nat) (phase : Nat) (lost : Bool) (s : State) {L : List Piece} (z0 : State) (hk : partsOnly L z0 s) (hL : sub [.rxc, .msh, .regs, .lnk, .evAt, .flight, .rfe] L = true := by simp [*]) : partsOnly L z0 (connectionEvent id phase lost s) := by
  simp only [sub_cons, sub_nil, and_true] at hL
  unfold connectionEvent
  dsimp only
  (repeat' split) <;> simp +contextual (maxDischargeDepth := 60) [*]

@[simp] theorem pathExchange_parts (t1 : Nat) (t2 : Nat) (t3 : Nat) (t4 : Nat) (s : State) {L : List Piece} (z0 : State) (hk : partsOnly L z0 s) (hL : sub [.firn] L = true := by simp [*]) : partsOnly L z0 (pathExchange t1 t2 t3 t4 s) := by
  simp only [sub_cons, sub_nil, and_true] at hL
  unfold pathExchange
  dsimp only
  (repeat' split) <;> simp +contextual (maxDischargeDepth := 60) [*]

@[simp] theorem radioSample_parts (peer : Nat) (ts : Nat) (txts : Nat) (lowQ : Bool) (s : State) {L : List Piece} (z0 : State) (hk : partsOnly L z0 s) (hL : sub [.mboxes, .firn, .regs, .freeCtr, .heldNotices, .lnk, .flight] L = true := by simp [*]) : partsOnly L z0 (radioSample peer ts txts lowQ s) := by
  simp only [sub_cons, sub_nil, and_true] at hL
  unfold radioSample
  dsimp only
  (repeat' split) <;> simp +contextual (maxDischargeDepth := 60) [*]

@[simp] theorem ctlPdu_parts (id : Nat) (op : Nat) (body : List Nat) (ts : Nat) (lowQ : Bool) (s : State) {L : List Piece} (z0 : State) (hk : partsOnly L z0 s) (hL : sub [.msh, .mboxes, .firn, .regs, .freeCtr, .heldNotices, .lnk, .evAt, .flight, .rfe] L = true := by simp [*]) : partsOnly L z0 (ctlPdu id op body ts lowQ s) := by
  simp only [sub_cons, sub_nil, and_true] at hL
  unfold ctlPdu
  dsimp only
  (repeat' split) <;> simp +contextual (maxDischargeDepth := 60) [*]

@[simp] theorem ctlPdus_parts (id : Nat) (ts : Nat) (lowQ : Bool) (a3 : Nat) (a4 : List Nat) (a5 : State) {L : List Piece} (z0 : State) (hk : partsOnly L z0 a5) (hL : sub [.msh, .mboxes, .firn, .regs, .freeCtr, .heldNotices, .lnk, .evAt, .flight, .rfe] L = true := by simp [*]) : partsOnly L z0 (ctlPdus id ts lowQ a3 a4 a5) := by
  simp only [sub_cons, sub_nil, and_true] at hL
  induction a3 generalizing a4 a5 with
  | zero => exact hk
  | succ n ih => unfold ctlPdus; split <;> simp (maxDischargeDepth := 60) [hL, *]

@[simp] theorem connUp_parts (id : Nat) (s : State) {L : List Piece} (z0 : State) (hk : partsOnly L z0 s) (hL : sub [.msh, .regs, .lnk, .evAt, .flight] L = true := by simp [*]) : partsOnly L z0 (connUp id s) := by
  simp only [sub_cons, sub_nil, and_true] at hL
  unfold connUp
  dsimp only
  (repeat' split) <;> simp +contextual (maxDischargeDepth := 60) [*]

@[simp] theorem connAnswer_parts (c : Conn) (t : Nat) (md : Bool) (s : State) {L : List Piece} (z0 : State) (hk : partsOnly L z0 s) (hL : sub [.rxc, .msh, .regs, .lnk, .evAt, .flight, .rfe] L = true := by simp [*]) : partsOnly L z0 (connAnswer c t md s) := by
  simp only [sub_cons, sub_nil, and_true] at hL
  unfold connAnswer
  dsimp only
  (repeat' split) <;> simp +contextual (maxDischargeDepth := 60) [*]

@[simp] theorem connReceive_parts (id : Nat) (r : RxRec) (s : State) {L : List Piece} (z0 : State) (hk : partsOnly L z0 s) (hL : sub [.rxc, .msh, .mboxes, .firn, .regs, .freeCtr, .heldNotices, .lnk, .evAt, .flight, .rfe] L = true := by simp [*]) : partsOnly L z0 (connReceive id r s).2.2 := by
  simp only [sub_cons, sub_nil, and_true] at hL
  unfold connReceive
  dsimp only
  (repeat' split) <;> simp +contextual (maxDischargeDepth := 60) [*]

@[simp] theorem connMicFail_parts (id : Nat) (s : State) {L : List Piece} (z0 : State) (hk : partsOnly L z0 s) (hL : sub [.msh, .mboxes, .firn, .regs, .heldNotices, .lnk, .evAt, .flight, .rfe] L = true := by simp [*]) : partsOnly L z0 (connMicFail id s) := by
  simp only [sub_cons, sub_nil, and_true] at hL
  unfold connMicFail
  (repeat' split) <;> simp +contextual (maxDischargeDepth := 60) [*]

@[simp] theorem statusQueue_parts (tag : Nat) (t : Nat) (lateby : Nat) (s : State) {L : List Piece} (z0 : State) (hk : partsOnly L z0 s) (hL : sub [.lnk] L = true := by simp [*]) : partsOnly L z0 (statusQueue tag t lateby s) := by
  simp only [sub_cons, sub_nil, and_true] at hL
  unfold statusQueue
  dsimp only
  (repeat' split) <;> simp +contextual (maxDischargeDepth := 60) [*]

@[simp] theorem supervisionTimeout_parts (id : Nat) (s : State) {L : List Piece} (z0 : State) (hk : partsOnly L z0 s) (hL : sub [.msh, .mboxes, .firn, .regs, .heldNotices, .lnk, .evAt, .flight, .rfe] L = true := by simp [*]) : partsOnly L z0 (supervisionTimeout id s) := by
  simp only [sub_cons, sub_nil, and_true] at hL
  unfold supervisionTimeout
  (repeat' split) <;> simp +contextual (maxDischargeDepth := 60) [*]

@[simp] theorem slotMove_parts (i : Nat) (s : State) {L : List Piece} (z0 : State) (hk : partsOnly L z0 s) (hL : sub [.msh, .mboxes, .firn, .regs, .heldNotices, .lnk, .evAt, .flight, .rfe] L = true := by simp [*]) : partsOnly L z0 (slotMove i s) := by
  simp only [sub_cons, sub_nil, and_true] at hL
  unfold slotMove
  refine parts_foldl _ _ _ (fun x a h => ?_) hk
  split <;> simp (maxDischargeDepth := 60) [hL, h]

@[simp] theorem sequencerFault_parts (p : Nat) (s : State) {L : List Piece} (z0 : State) (hk : partsOnly L z0 s) (hL : sub [.cores, .age, .msh, .mboxes, .firn, .regs, .health, .heldNotices, .lnk, .evAt, .flight, .rfe] L = true := by simp [*]) : partsOnly L z0 (sequencerFault p s) := by
  simp only [sub_cons, sub_nil, and_true] at hL
  unfold sequencerFault
  dsimp only
  (repeat' split) <;> simp +contextual (maxDischargeDepth := 60) [*]

@[simp] theorem beaconSend_parts (m : Nat) (t : Nat) (freq : Nat) (mode : Nat) (s : State) {L : List Piece} (z0 : State) (hk : partsOnly L z0 s) (hL : sub [.regs, .rfe] L = true := by simp [*]) : partsOnly L z0 (beaconSend m t freq mode s) := by
  simp only [sub_cons, sub_nil, and_true] at hL
  unfold beaconSend
  (repeat' split) <;> simp +contextual (maxDischargeDepth := 60) [*]

@[simp] theorem beaconTx_parts (m : Nat) (s : State) {L : List Piece} (z0 : State) (hk : partsOnly L z0 s) (hL : sub [.regs, .lnk, .rfe] L = true := by simp [*]) : partsOnly L z0 (beaconTx m s) := by
  simp only [sub_cons, sub_nil, and_true] at hL
  unfold beaconTx
  dsimp only
  (repeat' split) <;> simp +contextual (maxDischargeDepth := 60) [*]

@[simp] theorem trackGuard_parts (s : State) {L : List Piece} (z0 : State) (hk : partsOnly L z0 s) (hL : sub [.regs] L = true := by simp [*]) : partsOnly L z0 (trackGuard s).2 := by
  simp only [sub_cons, sub_nil, and_true] at hL
  unfold trackGuard
  dsimp only
  (repeat' split) <;> simp +contextual (maxDischargeDepth := 60) [*]

@[simp] theorem trackNext_parts (s : State) {L : List Piece} (z0 : State) (hk : partsOnly L z0 s) (hL : sub [.rxc, .regs, .lnk] L = true := by simp [*]) : partsOnly L z0 (trackNext s) := by
  simp only [sub_cons, sub_nil, and_true] at hL
  unfold trackNext
  dsimp only
  (repeat' split) <;> simp +contextual (maxDischargeDepth := 60) [*]

@[simp] theorem beaconMiss_parts (s : State) {L : List Piece} (z0 : State) (hk : partsOnly L z0 s) (hL : sub [.rxc, .mboxes, .regs, .heldNotices, .lnk, .flight] L = true := by simp [*]) : partsOnly L z0 (beaconMiss s) := by
  simp only [sub_cons, sub_nil, and_true] at hL
  unfold beaconMiss
  dsimp only
  (repeat' split) <;> simp +contextual (maxDischargeDepth := 60) [*]

@[simp] theorem setParent_parts (a : Nat) (s : State) {L : List Piece} (z0 : State) (hk : partsOnly L z0 s) (hL : sub [.rxc, .msh, .mboxes, .firn, .regs, .heldNotices, .lnk, .evAt, .flight, .rfe] L = true := by simp [*]) : partsOnly L z0 (setParent a s) := by
  simp only [sub_cons, sub_nil, and_true] at hL
  unfold setParent
  dsimp only
  (repeat' split) <;> simp +contextual (maxDischargeDepth := 60) [*]

@[simp] theorem netNotice_parts (event : Nat) (s : State) {L : List Piece} (z0 : State) (hk : partsOnly L z0 s) (hL : sub [.mboxes, .regs, .heldNotices] L = true := by simp [*]) : partsOnly L z0 (netNotice event s) := by
  simp only [sub_cons, sub_nil, and_true] at hL
  unfold netNotice
  simp +contextual (maxDischargeDepth := 60) [*]

@[simp] theorem changeParent_parts (a : Nat) (s : State) {L : List Piece} (z0 : State) (hk : partsOnly L z0 s) (hL : sub [.rxc, .msh, .mboxes, .firn, .regs, .heldNotices, .lnk, .evAt, .flight, .rfe] L = true := by simp [*]) : partsOnly L z0 (changeParent a s) := by
  simp only [sub_cons, sub_nil, and_true] at hL
  unfold changeParent
  simp +contextual (maxDischargeDepth := 60) [*]

@[simp] theorem parentReselect_parts (s : State) {L : List Piece} (z0 : State) (hk : partsOnly L z0 s) (hL : sub [.rxc, .msh, .mboxes, .firn, .regs, .heldNotices, .lnk, .evAt, .flight, .rfe] L = true := by simp [*]) : partsOnly L z0 (parentReselect s) := by
  simp only [sub_cons, sub_nil, and_true] at hL
  unfold parentReselect
  (repeat' split) <;> simp +contextual (maxDischargeDepth := 60) [*]

@[simp] theorem beaconReceive_parts (r : RxRec) (s : State) {L : List Piece} (z0 : State) (hk : partsOnly L z0 s) (hL : sub [.rxc, .msh, .mboxes, .firn, .regs, .freeCtr, .heldNotices, .lnk, .evAt, .flight, .rfe] L = true := by simp [*]) : partsOnly L z0 (beaconReceive r s) := by
  simp only [sub_cons, sub_nil, and_true] at hL
  unfold beaconReceive
  dsimp only
  (repeat' split) <;> simp +contextual (maxDischargeDepth := 60) [*]

@[simp] theorem joinReqSend_parts (t : Nat) (s : State) {L : List Piece} (z0 : State) (hk : partsOnly L z0 s) (hL : sub [.freeCtr, .lnk, .rfe] L = true := by simp [*]) : partsOnly L z0 (joinReqSend t s) := by
  simp only [sub_cons, sub_nil, and_true] at hL
  unfold joinReqSend
  dsimp only
  (repeat' split) <;> simp +contextual (maxDischargeDepth := 60) [*]

@[simp] theorem candFail_parts (a : Nat) (s : State) {L : List Piece} (z0 : State) (hk : partsOnly L z0 s) (hL : sub [.lnk] L = true := by simp [*]) : partsOnly L z0 (candFail a s) := by
  simp only [sub_cons, sub_nil, and_true] at hL
  unfold candFail
  dsimp only
  (repeat' split) <;> simp +contextual (maxDischargeDepth := 60) [*]

@[simp] theorem joinTimeout_parts (s : State) {L : List Piece} (z0 : State) (hk : partsOnly L z0 s) (hL : sub [.freeCtr, .lnk] L = true := by simp [*]) : partsOnly L z0 (joinTimeout s) := by
  simp only [sub_cons, sub_nil, and_true] at hL
  unfold joinTimeout
  dsimp only
  (repeat' split) <;> simp +contextual (maxDischargeDepth := 60) [*]

@[simp] theorem joinRspReceive_parts (r : RxRec) (s : State) {L : List Piece} (z0 : State) (hk : partsOnly L z0 s) (hL : sub [.rxc, .msh, .mboxes, .firn, .regs, .heldNotices, .lnk, .evAt, .flight, .rfe] L = true := by simp [*]) : partsOnly L z0 (joinRspReceive r s) := by
  simp only [sub_cons, sub_nil, and_true] at hL
  unfold joinRspReceive
  dsimp only
  (repeat' split) <;> simp +contextual (maxDischargeDepth := 60) [*]

@[simp] theorem joinRspSend_parts (longid : Nat) (status : Nat) (short : Nat) (waddr : Nat) (keymat : List Nat) (s : State) {L : List Piece} (z0 : State) (hk : partsOnly L z0 s) (hL : sub [.lnk, .rfe] L = true := by simp [*]) : partsOnly L z0 (joinRspSend longid status short waddr keymat s) := by
  simp only [sub_cons, sub_nil, and_true] at hL
  unfold joinRspSend
  dsimp only
  (repeat' split) <;> simp +contextual (maxDischargeDepth := 60) [*]

@[simp] theorem connReqSend_parts (t : Nat) (s : State) {L : List Piece} (z0 : State) (hk : partsOnly L z0 s) (hL : sub [.rxc, .regs, .lnk, .rfe] L = true := by simp [*]) : partsOnly L z0 (connReqSend t s) := by
  simp only [sub_cons, sub_nil, and_true] at hL
  unfold connReqSend
  dsimp only
  (repeat' split) <;> simp +contextual (maxDischargeDepth := 60) [*]

@[simp] theorem connectFail_parts (s : State) {L : List Piece} (z0 : State) (hk : partsOnly L z0 s) (hL : sub [.rxc, .msh, .mboxes, .firn, .regs, .freeCtr, .heldNotices, .lnk, .evAt, .flight, .rfe] L = true := by simp [*]) : partsOnly L z0 (connectFail s) := by
  simp only [sub_cons, sub_nil, and_true] at hL
  unfold connectFail
  dsimp only
  (repeat' split) <;> simp +contextual (maxDischargeDepth := 60) [*]

@[simp] theorem connReqReceive_parts (r : RxRec) (s : State) {L : List Piece} (z0 : State) (hk : partsOnly L z0 s) (hL : sub [.regs, .freeCtr, .lnk, .rfe] L = true := by simp [*]) : partsOnly L z0 (connReqReceive r s) := by
  simp only [sub_cons, sub_nil, and_true] at hL
  unfold connReqReceive
  dsimp only
  (repeat' split) <;> simp +contextual (maxDischargeDepth := 60) [*]

@[simp] theorem connIndReceive_parts (r : RxRec) (s : State) {L : List Piece} (z0 : State) (hk : partsOnly L z0 s) (hL : sub [.rxc, .msh, .mboxes, .firn, .regs, .freeCtr, .heldNotices, .lnk, .evAt, .flight, .rfe] L = true := by simp [*]) : partsOnly L z0 (connIndReceive r s) := by
  simp only [sub_cons, sub_nil, and_true] at hL
  unfold connIndReceive
  dsimp only
  (repeat' split) <;> simp +contextual (maxDischargeDepth := 60) [*]

@[simp] theorem driftRecoveryListen_parts (s : State) {L : List Piece} (z0 : State) (hk : partsOnly L z0 s) (hL : sub [.regs, .lnk, .pwr, .flight, .rfe] L = true := by simp [*]) : partsOnly L z0 (driftRecoveryListen s) := by
  simp only [sub_cons, sub_nil, and_true] at hL
  unfold driftRecoveryListen
  dsimp only
  (repeat' split) <;> simp +contextual (maxDischargeDepth := 60) [*]

@[simp] theorem recoverHeard_parts (peer : Nat) (s : State) {L : List Piece} (z0 : State) (hk : partsOnly L z0 s) (hL : sub [.lnk] L = true := by simp [*]) : partsOnly L z0 (recoverHeard peer s) := by
  simp only [sub_cons, sub_nil, and_true] at hL
  unfold recoverHeard
  dsimp only
  (repeat' split) <;> simp +contextual (maxDischargeDepth := 60) [*]

@[simp] theorem childRecordExpiry_parts (i : Nat) (s : State) {L : List Piece} (z0 : State) (hk : partsOnly L z0 s) (hL : sub [.lnk] L = true := by simp [*]) : partsOnly L z0 (childRecordExpiry i s) := by
  simp only [sub_cons, sub_nil, and_true] at hL
  unfold childRecordExpiry
  dsimp only
  (repeat' split) <;> simp +contextual (maxDischargeDepth := 60) [*]

@[simp] theorem wurConfig_parts (s : State) {L : List Piece} (z0 : State) (hk : partsOnly L z0 s) (hL : sub [.regs] L = true := by simp [*]) : partsOnly L z0 (wurConfig s) := by
  simp only [sub_cons, sub_nil, and_true] at hL
  unfold wurConfig
  (repeat' split) <;> simp +contextual (maxDischargeDepth := 60) [*]

@[simp] theorem resumeBeacon_parts (i : Nat) (s : State) {L : List Piece} (z0 : State) (hk : partsOnly L z0 s) (hL : sub [.regs, .lnk, .rfe] L = true := by simp [*]) : partsOnly L z0 (resumeBeacon i s) := by
  simp only [sub_cons, sub_nil, and_true] at hL
  unfold resumeBeacon
  dsimp only
  (repeat' split) <;> simp +contextual (maxDischargeDepth := 60) [*]

@[simp] theorem wakePatternSend_parts (peer : Nat) (t : Nat) (s : State) {L : List Piece} (z0 : State) (hk : partsOnly L z0 s) (hL : sub [.lnk, .rfe] L = true := by simp [*]) : partsOnly L z0 (wakePatternSend peer t s) := by
  simp only [sub_cons, sub_nil, and_true] at hL
  unfold wakePatternSend
  dsimp only
  (repeat' split) <;> simp +contextual (maxDischargeDepth := 60) [*]

@[simp] theorem wakeConnFrame_parts (s : State) {L : List Piece} (z0 : State) (hk : partsOnly L z0 s) (hL : sub [.rxc, .mboxes, .regs, .lnk, .rfe] L = true := by simp [*]) : partsOnly L z0 (wakeConnFrame s) := by
  simp only [sub_cons, sub_nil, and_true] at hL
  unfold wakeConnFrame
  dsimp only
  (repeat' split) <;> simp +contextual (maxDischargeDepth := 60) [*]

@[simp] theorem wakeReply_parts (id : Nat) (s : State) {L : List Piece} (z0 : State) (hk : partsOnly L z0 s) (hL : sub [.mboxes, .lnk] L = true := by simp [*]) : partsOnly L z0 (wakeReply id s) := by
  simp only [sub_cons, sub_nil, and_true] at hL
  unfold wakeReply
  dsimp only
  (repeat' split) <;> simp +contextual (maxDischargeDepth := 60) [*]

@[simp] theorem cfgApply_parts (obj : List Nat) (s : State) {L : List Piece} (z0 : State) (hk : partsOnly L z0 s) (hL : sub [.rxc, .netCfg, .msh, .regs] L = true := by simp [*]) : partsOnly L z0 (cfgApply obj s) := by
  simp only [sub_cons, sub_nil, and_true] at hL
  unfold cfgApply
  dsimp only
  (repeat' split) <;> simp +contextual (maxDischargeDepth := 60) [*]

@[simp] theorem floodSend_parts (band : Nat) (t : Nat) (psdu : List Nat) (s : State) {L : List Piece} (z0 : State) (hk : partsOnly L z0 s) (hL : sub [.freeCtr, .rfe] L = true := by simp [*]) : partsOnly L z0 (floodSend band t psdu s) := by
  simp only [sub_cons, sub_nil, and_true] at hL
  unfold floodSend
  dsimp only
  (repeat' split) <;> simp +contextual (maxDischargeDepth := 60) [*]

@[simp] theorem wptMod_parts (p : Nat) (f : Wpt → Wpt) (s : State) {L : List Piece} (z0 : State) (hk : partsOnly L z0 s) (hL : sub [.wpt] L = true := by simp [*]) : partsOnly L z0 (wptMod p f s) := by
  simp only [sub_cons, sub_nil, and_true] at hL
  unfold wptMod
  simp +contextual (maxDischargeDepth := 60) [*]

@[simp] theorem wptSend_parts (p : Nat) (f : List Nat) (s : State) {L : List Piece} (z0 : State) (hk : partsOnly L z0 s) (hL : sub [.wpt] L = true := by simp [*]) : partsOnly L z0 (wptSend p f s) := by
  simp only [sub_cons, sub_nil, and_true] at hL
  unfold wptSend
  simp +contextual (maxDischargeDepth := 60) [*]

@[simp] theorem timeParentChoose_parts (s : State) {L : List Piece} (z0 : State) (hk : partsOnly L z0 s) (hL : sub [.firn, .regs] L = true := by simp [*]) : partsOnly L z0 (timeParentChoose s) := by
  simp only [sub_cons, sub_nil, and_true] at hL
  unfold timeParentChoose
  dsimp only
  (repeat' split) <;> simp +contextual (maxDischargeDepth := 60) [*]

@[simp] theorem upShow_parts (s : State) {L : List Piece} (z0 : State) (hk : partsOnly L z0 s) (hL : sub [.regs] L = true := by simp [*]) : partsOnly L z0 (upShow s) := by
  simp only [sub_cons, sub_nil, and_true] at hL
  unfold upShow
  simp +contextual (maxDischargeDepth := 60) [*]

@[simp] theorem upSet_parts (u : Option Nat) (s : State) {L : List Piece} (z0 : State) (hk : partsOnly L z0 s) (hL : sub [.msh, .regs] L = true := by simp [*]) : partsOnly L z0 (upSet u s) := by
  simp only [sub_cons, sub_nil, and_true] at hL
  unfold upSet
  dsimp only
  (repeat' split) <;> simp +contextual (maxDischargeDepth := 60) [*]

@[simp] theorem upLost_parts (p : Nat) (s : State) {L : List Piece} (z0 : State) (hk : partsOnly L z0 s) (hL : sub [.msh, .regs, .evAt, .flight] L = true := by simp [*]) : partsOnly L z0 (upLost p s) := by
  simp only [sub_cons, sub_nil, and_true] at hL
  unfold upLost
  refine mshShow_parts _ _ (parts_foldl _ _ _ (fun x a h => ?_) (by simp (maxDischargeDepth := 60) [hL, hk]))
  split <;> simp (maxDischargeDepth := 60) [hL, h]

@[simp] theorem unlink_parts (p : Nat) (s : State) {L : List Piece} (z0 : State) (hk : partsOnly L z0 s) (hL : sub [.msh, .firn, .regs, .wpt, .evAt, .flight] L = true := by simp [*]) : partsOnly L z0 (unlink p s) := by
  simp only [sub_cons, sub_nil, and_true] at hL
  unfold unlink
  dsimp only
  (repeat' split) <;> simp +contextual (maxDischargeDepth := 60) [*]

@[simp] theorem linkDown_parts (p : Nat) (s : State) {L : List Piece} (z0 : State) (hk : partsOnly L z0 s) (hL : sub [.msh, .firn, .regs, .wpt, .evAt, .flight] L = true := by simp [*]) : partsOnly L z0 (linkDown p s) := by
  simp only [sub_cons, sub_nil, and_true] at hL
  unfold linkDown
  dsimp only
  (repeat' split) <;> simp +contextual (maxDischargeDepth := 60) [*]

@[simp] theorem negotiate_parts (p : Nat) (peerBoth : Bool) (s : State) {L : List Piece} (z0 : State) (hk : partsOnly L z0 s) (hL : sub [.regs, .wpt] L = true := by simp [*]) : partsOnly L z0 (negotiate p peerBoth s) := by
  simp only [sub_cons, sub_nil, and_true] at hL
  unfold negotiate
  dsimp only
  (repeat' split) <;> simp +contextual (maxDischargeDepth := 60) [*]

@[simp] theorem train_parts (p : Nat) (polinv : Bool) (s : State) {L : List Piece} (z0 : State) (hk : partsOnly L z0 s) (hL : sub [.regs, .wpt, .freeCtr, .flight] L = true := by simp [*]) : partsOnly L z0 (train p polinv s) := by
  simp only [sub_cons, sub_nil, and_true] at hL
  unfold train
  dsimp only
  (repeat' split) <;> simp +contextual (maxDischargeDepth := 60) [*]

@[simp] theorem wiredPhaseTimeout_parts (p : Nat) (s : State) {L : List Piece} (z0 : State) (hk : partsOnly L z0 s) (hL : sub [.msh, .firn, .regs, .wpt, .evAt, .flight] L = true := by simp [*]) : partsOnly L z0 (wiredPhaseTimeout p s) := by
  simp only [sub_cons, sub_nil, and_true] at hL
  unfold wiredPhaseTimeout
  simp +contextual (maxDischargeDepth := 60) [*]

@[simp] theorem wiredBeaconSilence_parts (p : Nat) (s : State) {L : List Piece} (z0 : State) (hk : partsOnly L z0 s) (hL : sub [.msh, .firn, .regs, .wpt, .evAt, .flight] L = true := by simp [*]) : partsOnly L z0 (wiredBeaconSilence p s) := by
  simp only [sub_cons, sub_nil, and_true] at hL
  unfold wiredBeaconSilence
  simp +contextual (maxDischargeDepth := 60) [*]

@[simp] theorem portDown_parts (p : Nat) (s : State) {L : List Piece} (z0 : State) (hk : partsOnly L z0 s) (hL : sub [.msh, .firn, .regs, .wpt, .evAt, .flight] L = true := by simp [*]) : partsOnly L z0 (portDown p s) := by
  simp only [sub_cons, sub_nil, and_true] at hL
  unfold portDown
  simp +contextual (maxDischargeDepth := 60) [*]

@[simp] theorem mseMeasurement_parts (p : Nat) (m : Nat) (s : State) {L : List Piece} (z0 : State) (hk : partsOnly L z0 s) (hL : sub [.msh, .firn, .regs, .wpt, .evAt, .flight] L = true := by simp [*]) : partsOnly L z0 (mseMeasurement p m s) := by
  simp only [sub_cons, sub_nil, and_true] at hL
  unfold mseMeasurement
  lift_lets
  intro w wst s1 cls now inside good gc s2 bad s3
  have h1 : partsOnly L z0 s1 := by simp (maxDischargeDepth := 60) [s1, *]
  have h2 : partsOnly L z0 s2 := by
    unfold s2
    clear_value s1
    (repeat' split) <;> simp (maxDischargeDepth := 60) [*]
  have h3 : partsOnly L z0 s3 := by
    unfold s3
    clear_value s2
    simp (maxDischargeDepth := 60) [*]
  clear_value s3
  split <;> simp (maxDischargeDepth := 60) [*]

@[simp] theorem wiredBeaconSend_parts (p : Nat) (s : State) {L : List Piece} (z0 : State) (hk : partsOnly L z0 s) (hL : sub [.wpt] L = true := by simp [*]) : partsOnly L z0 (wiredBeaconSend p s) := by
  simp only [sub_cons, sub_nil, and_true] at hL
  unfold wiredBeaconSend
  simp +contextual (maxDischargeDepth := 60) [*]

@[simp] theorem wireOut_parts (p : Nat) (f : QFrame) (flood : Bool) (s : State) {L : List Piece} (z0 : State) (hk : partsOnly L z0 s) (hL : sub [.wpt] L = true := by simp [*]) : partsOnly L z0 (wireOut p f flood s) := by
  simp only [sub_cons, sub_nil, and_true] at hL
  unfold wireOut
  simp +contextual (maxDischargeDepth := 60) [*]

@[simp] theorem frameSelect_parts (p : Nat) (t : Nat) (gap : Bool) (s : State) {L : List Piece} (z0 : State) (hk : partsOnly L z0 s) (hL : sub [.msh, .regs, .wpt, .freeCtr, .evAt, .flight, .rfe] L = true := by simp [*]) : partsOnly L z0 (frameSelect p t gap s) := by
  simp only [sub_cons, sub_nil, and_true] at hL
  have hs := fun (q : Nat) (hp : Hop) (x : State) (h : partsOnly L z0 x) => selectFrame_parts q hp x z0 h
  unfold frameSelect
  split
  · have h1 := hs p .bcast s hk
    split
    · next h => rw [h] at h1; split <;> simp (maxDischargeDepth := 60) [hL, h1]
    · next h => rw [h] at h1; exact h1
  · have h1 := hs p .wired s hk
    split
    · next h => rw [h] at h1; simp (maxDischargeDepth := 60) [hL, h1]
    · next x h =>
      rw [h] at h1
      have h2 := hs 0 .up x h1
      split
      · next h => rw [h] at h2; simp (maxDischargeDepth := 60) [hL, h2]
      · next y h =>
        rw [h] at h2
        have h3 := hs 1 .up y h2
        split
        · next h => rw [h] at h3; simp (maxDischargeDepth := 60) [hL, h3]
        · next h => rw [h] at h3; exact h3

@[simp] theorem wiredFrameSent_parts (p : Nat) (s : State) {L : List Piece} (z0 : State) (hk : partsOnly L z0 s) (hL : sub [.regs, .wpt] L = true := by simp [*]) : partsOnly L z0 (wiredFrameSent p s) := by
  simp only [sub_cons, sub_nil, and_true] at hL
  unfold wiredFrameSent
  simp +contextual (maxDischargeDepth := 60) [*]

@[simp] theorem pdelayReqSend_parts (p : Nat) (s : State) {L : List Piece} (z0 : State) (hk : partsOnly L z0 s) (hL : sub [.wpt] L = true := by simp [*]) : partsOnly L z0 (pdelayReqSend p s) := by
  simp only [sub_cons, sub_nil, and_true] at hL
  unfold pdelayReqSend
  dsimp only
  (repeat' split) <;> simp +contextual (maxDischargeDepth := 60) [*]

@[simp] theorem ptpTake_parts (p : Nat) (m : PtpIn) (s : State) {L : List Piece} (z0 : State) (hk : partsOnly L z0 s) (hL : sub [.wpt] L = true := by simp [*]) : partsOnly L z0 (ptpTake p m s) := by
  simp only [sub_cons, sub_nil, and_true] at hL
  unfold ptpTake
  simp +contextual (maxDischargeDepth := 60) [*]

@[simp] theorem pdelayReqReceive_parts (p : Nat) (s : State) {L : List Piece} (z0 : State) (hk : partsOnly L z0 s) (hL : sub [.wpt] L = true := by simp [*]) : partsOnly L z0 (pdelayReqReceive p s) := by
  simp only [sub_cons, sub_nil, and_true] at hL
  unfold pdelayReqReceive
  dsimp only
  (repeat' split) <;> simp +contextual (maxDischargeDepth := 60) [*]

@[simp] theorem pdelayRespReceive_parts (p : Nat) (s : State) {L : List Piece} (z0 : State) (hk : partsOnly L z0 s) (hL : sub [.wpt] L = true := by simp [*]) : partsOnly L z0 (pdelayRespReceive p s) := by
  simp only [sub_cons, sub_nil, and_true] at hL
  unfold pdelayRespReceive
  dsimp only
  (repeat' split) <;> simp +contextual (maxDischargeDepth := 60) [*]

@[simp] theorem pdComplete_parts (p : Nat) (t1 : Nat) (t2 : Nat) (t3 : Nat) (t4 : Nat) (s : State) {L : List Piece} (z0 : State) (hk : partsOnly L z0 s) (hL : sub [.mboxes, .firn, .regs, .wpt, .freeCtr, .heldNotices, .flight] L = true := by simp [*]) : partsOnly L z0 (pdComplete p t1 t2 t3 t4 s) := by
  simp only [sub_cons, sub_nil, and_true] at hL
  unfold pdComplete
  dsimp only
  (repeat' split) <;> simp +contextual (maxDischargeDepth := 60) [*]

@[simp] theorem followUpReceive_parts (p : Nat) (s : State) {L : List Piece} (z0 : State) (hk : partsOnly L z0 s) (hL : sub [.mboxes, .firn, .regs, .wpt, .freeCtr, .heldNotices, .flight] L = true := by simp [*]) : partsOnly L z0 (followUpReceive p s) := by
  simp only [sub_cons, sub_nil, and_true] at hL
  unfold followUpReceive
  dsimp only
  (repeat' split) <;> simp +contextual (maxDischargeDepth := 60) [*]

@[simp] theorem pdelayLost_parts (p : Nat) (s : State) {L : List Piece} (z0 : State) (hk : partsOnly L z0 s) (hL : sub [.firn, .regs, .wpt, .flight] L = true := by simp [*]) : partsOnly L z0 (pdelayLost p s) := by
  simp only [sub_cons, sub_nil, and_true] at hL
  unfold pdelayLost
  dsimp only
  (repeat' split) <;> simp +contextual (maxDischargeDepth := 60) [*]

@[simp] theorem ptpReceive_parts (p : Nat) (f : List Nat) (ts : Nat) (s : State) {L : List Piece} (z0 : State) (hk : partsOnly L z0 s) (hL : sub [.regs, .wpt] L = true := by simp [*]) : partsOnly L z0 (ptpReceive p f ts s) := by
  simp only [sub_cons, sub_nil, and_true] at hL
  unfold ptpReceive
  dsimp only
  (repeat' split) <;> simp +contextual (maxDischargeDepth := 60) [*]

@[simp] theorem wiredBeaconReceive_parts (p : Nat) (f : List Nat) (mac : List Nat) (s : State) {L : List Piece} (z0 : State) (hk : partsOnly L z0 s) (hL : sub [.msh, .firn, .regs, .wpt, .lnk] L = true := by simp [*]) : partsOnly L z0 (wiredBeaconReceive p f mac s) := by
  simp only [sub_cons, sub_nil, and_true] at hL
  unfold wiredBeaconReceive
  dsimp only
  (repeat' split) <;> simp +contextual (maxDischargeDepth := 60) [*]

@[simp] theorem leafCopies_parts (body : List Nat) (s : State) {L : List Piece} (z0 : State) (hk : partsOnly L z0 s) (hL : sub [.msh, .regs, .evAt, .flight] L = true := by simp [*]) : partsOnly L z0 (leafCopies body s) := by
  simp only [sub_cons, sub_nil, and_true] at hL
  unfold leafCopies
  simp +contextual (maxDischargeDepth := 60) [*]

@[simp] theorem wiredCopies_parts (from_ : Option Nat) (psdu : List Nat) (s : State) {L : List Piece} (z0 : State) (hk : partsOnly L z0 s) (hL : sub [.msh, .regs, .evAt, .flight] L = true := by simp [*]) : partsOnly L z0 (wiredCopies from_ psdu s) := by
  simp only [sub_cons, sub_nil, and_true] at hL
  unfold wiredCopies
  simp +contextual (maxDischargeDepth := 60) [*]

@[simp] theorem floodOriginate_parts (dest : Nat) (cls : Nat) (ttl : Nat) (ptype : Nat) (payload : List Nat) (s : State) {L : List Piece} (z0 : State) (hk : partsOnly L z0 s) (hL : sub [.msh, .regs, .evAt, .flight] L = true := by simp [*]) : partsOnly L z0 (floodOriginate dest cls ttl ptype payload s).2 := by
  simp only [sub_cons, sub_nil, and_true] at hL
  unfold floodOriginate
  dsimp only
  (repeat' split) <;> simp +contextual (maxDischargeDepth := 60) [*]

@[simp] theorem toNb_parts (nb : Nb) (u : List Nat) (s : State) {L : List Piece} (z0 : State) (hk : partsOnly L z0 s) (hL : sub [.msh, .regs, .evAt, .flight] L = true := by simp [*]) : partsOnly L z0 (toNb nb u s) := by
  simp only [sub_cons, sub_nil, and_true] at hL
  unfold toNb
  dsimp only
  (repeat' split) <;> simp +contextual (maxDischargeDepth := 60) [*]

@[simp] theorem unicastForward_parts (nb : Option Nb) (u0 : List Nat) (a2 : State) {L : List Piece} (z0 : State) (hk : partsOnly L z0 a2) (hL : sub [.msh, .regs, .evAt, .flight] L = true := by simp [*]) : partsOnly L z0 (unicastForward nb u0 a2) := by
  simp only [sub_cons, sub_nil, and_true] at hL
  unfold unicastForward
  dsimp only
  (repeat' split) <;> simp +contextual (maxDischargeDepth := 60) [*]

@[simp] theorem unicastSend_parts (dst : Nat) (cls : Nat) (ttl : Nat) (ptype : Nat) (payload : List Nat) (s : State) {L : List Piece} (z0 : State) (hk : partsOnly L z0 s) (hL : sub [.msh, .regs, .evAt, .flight] L = true := by simp [*]) : partsOnly L z0 (unicastSend dst cls ttl ptype payload s) := by
  simp only [sub_cons, sub_nil, and_true] at hL
  unfold unicastSend
  simp +contextual (maxDischargeDepth := 60) [*]

end Sys2Proof.Machine
end

