-- ==== Sys2Proof/Laws/PartsServ.lean ====
section
/-!
SUPPORT. What luminaires, ageing, tables, the coordinator, the mirror and updates leave alone: one lemma per operation, over `partsOnly` (Laws/Parts.lean).
-/
namespace Sys2Proof.Machine
set_option Elab.async false

@[simp] theorem lumMod_parts (f : Lum → Lum) (s : State) {L : List Piece} (z0 : State) (hk : partsOnly L z0 s) (hL : sub [.lum] L = true := by simp [*]) : partsOnly L z0 (lumMod f s) := by
  simp only [sub_cons, sub_nil, and_true] at hL
  unfold lumMod
  simp +contextual (maxDischargeDepth := 60) [*]

@[simp] theorem burnCount_parts (s : State) {L : List Piece} (z0 : State) (hk : partsOnly L z0 s) (hL : sub [.lum] L = true := by simp [*]) : partsOnly L z0 (burnCount s) := by
  simp only [sub_cons, sub_nil, and_true] at hL
  unfold burnCount
  dsimp only
  (repeat' split) <;> simp +contextual (maxDischargeDepth := 60) [*]

@[simp] theorem arcFeed_parts (s : State) {L : List Piece} (z0 : State) (hk : partsOnly L z0 s) (hL : sub [.lmp, .regs, .lum] L = true := by simp [*]) : partsOnly L z0 (arcFeed s) := by
  simp only [sub_cons, sub_nil, and_true] at hL
  unfold arcFeed
  (repeat' split) <;> simp +contextual (maxDischargeDepth := 60) [*]

@[simp] theorem lumWrite_parts (lt : Bool) (dali : Bool) (level : Nat) (a3 : State) {L : List Piece} (z0 : State) (hk : partsOnly L z0 a3) (hL : sub [.lmp, .regs, .lum] L = true := by simp [*]) : partsOnly L z0 (lumWrite lt dali level a3) := by
  simp only [sub_cons, sub_nil, and_true] at hL
  unfold lumWrite
  dsimp only
  (repeat' split) <;> simp +contextual (maxDischargeDepth := 60) [*]

@[simp] theorem lumTake_parts (lt : Bool) (a : LumAct) (s : State) {L : List Piece} (z0 : State) (hk : partsOnly L z0 s) (hL : sub [.lmp, .regs, .freeCtr, .lum] L = true := by simp [*]) : partsOnly L z0 (lumTake lt a s) := by
  simp only [sub_cons, sub_nil, and_true] at hL
  unfold lumTake
  dsimp only
  (repeat' split) <;> simp +contextual (maxDischargeDepth := 60) [*]

@[simp] theorem lumReport_parts (a : LumAct) (late : Bool) (by_ : Nat) (s : State) {L : List Piece} (z0 : State) (hk : partsOnly L z0 s) (hL : sub [.lnk] L = true := by simp [*]) : partsOnly L z0 (lumReport a late by_ s) := by
  simp only [sub_cons, sub_nil, and_true] at hL
  unfold lumReport
  simp +contextual (maxDischargeDepth := 60) [*]

@[simp] theorem lumArmCmp_parts (n : Nat) (t : Nat) (s : State) {L : List Piece} (z0 : State) (hk : partsOnly L z0 s) (hL : sub [.firn, .regs] L = true := by simp [*]) : partsOnly L z0 (lumArmCmp n t s) := by
  simp only [sub_cons, sub_nil, and_true] at hL
  unfold lumArmCmp
  simp +contextual (maxDischargeDepth := 60) [*]

@[simp] theorem lumArm_parts (a0 : Nat) (a1 : State) {L : List Piece} (z0 : State) (hk : partsOnly L z0 a1) (hL : sub [.firn, .regs, .lum] L = true := by simp [*]) : partsOnly L z0 (lumArm a0 a1) := by
  simp only [sub_cons, sub_nil, and_true] at hL
  induction a0 generalizing a1 with
  | zero => exact hk
  | succ n ih =>
    unfold lumArm
    split
    · exact ih _ (by simp (maxDischargeDepth := 60) [hL, hk])
    · exact hk

@[simp] theorem lumDrop_parts (a : LumAct) (s : State) {L : List Piece} (z0 : State) (hk : partsOnly L z0 s) (hL : sub [.regs, .lum] L = true := by simp [*]) : partsOnly L z0 (lumDrop a s) := by
  simp only [sub_cons, sub_nil, and_true] at hL
  unfold lumDrop
  dsimp only
  (repeat' split) <;> simp +contextual (maxDischargeDepth := 60) [*]

@[simp] theorem lumPast_parts (a : LumAct) (s : State) {L : List Piece} (z0 : State) (hk : partsOnly L z0 s) (hL : sub [.lum] L = true := by simp [*]) : partsOnly L z0 (lumPast a s) := by
  simp only [sub_cons, sub_nil, and_true] at hL
  unfold lumPast
  simp +contextual (maxDischargeDepth := 60) [*]

@[simp] theorem lumLateAct_parts (a : LumAct) (late : Bool) (s : State) {L : List Piece} (z0 : State) (hk : partsOnly L z0 s) (hL : sub [.lmp, .regs, .freeCtr, .lnk, .lum] L = true := by simp [*]) : partsOnly L z0 (lumLateAct a late s) := by
  simp only [sub_cons, sub_nil, and_true] at hL
  unfold lumLateAct
  simp +contextual (maxDischargeDepth := 60) [*]

@[simp] theorem lumCommand_parts (a0 : LumAct) (a1 : State) {L : List Piece} (z0 : State) (hk : partsOnly L z0 a1) (hL : sub [.lmp, .firn, .regs, .freeCtr, .lnk, .lum] L = true := by simp [*]) : partsOnly L z0 (lumCommand a0 a1) := by
  simp only [sub_cons, sub_nil, and_true] at hL
  unfold lumCommand
  dsimp only
  (repeat' split) <;> simp +contextual (maxDischargeDepth := 60) [*]

@[simp] theorem lumLaunch_parts (n : Nat) (s : State) {L : List Piece} (z0 : State) (hk : partsOnly L z0 s) (hL : sub [.lmp, .regs, .freeCtr, .lnk, .lum] L = true := by simp [*]) : partsOnly L z0 (lumLaunch n s) := by
  simp only [sub_cons, sub_nil, and_true] at hL
  unfold lumLaunch
  dsimp only
  (repeat' split) <;> simp +contextual (maxDischargeDepth := 60) [*]

@[simp] theorem lumLaunched_parts (s : State) {L : List Piece} (z0 : State) (hk : partsOnly L z0 s) (hL : sub [.lmp, .regs, .lum] L = true := by simp [*]) : partsOnly L z0 (lumLaunched s) := by
  simp only [sub_cons, sub_nil, and_true] at hL
  unfold lumLaunched
  simp +contextual (maxDischargeDepth := 60) [*]

@[simp] theorem scheduleEntry_parts (s : State) {L : List Piece} (z0 : State) (hk : partsOnly L z0 s) (hL : sub [.lmp, .firn, .regs, .freeCtr, .lnk, .lum] L = true := by simp [*]) : partsOnly L z0 (scheduleEntry s) := by
  simp only [sub_cons, sub_nil, and_true] at hL
  unfold scheduleEntry
  dsimp only
  (repeat' split) <;> simp +contextual (maxDischargeDepth := 60) [*]

@[simp] theorem lumJudge_parts (s : State) {L : List Piece} (z0 : State) (hk : partsOnly L z0 s) (hL : sub [.lmp, .regs, .lum] L = true := by simp [*]) : partsOnly L z0 (lumJudge s) := by
  simp only [sub_cons, sub_nil, and_true] at hL
  unfold lumJudge
  dsimp only
  (repeat' split) <;> simp +contextual (maxDischargeDepth := 60) [*]

@[simp] theorem lumDay_parts (s : State) {L : List Piece} (z0 : State) (hk : partsOnly L z0 s) (hL : sub [.firn, .regs, .lum] L = true := by simp [*]) : partsOnly L z0 (lumDay s) := by
  simp only [sub_cons, sub_nil, and_true] at hL
  unfold lumDay
  dsimp only
  (repeat' split) <;> simp +contextual (maxDischargeDepth := 60) [*]

@[simp] theorem lumStore_parts (o : List Nat) (s : State) {L : List Piece} (z0 : State) (hk : partsOnly L z0 s) (hL : sub [.lmp, .firn, .regs, .freeCtr, .lum] L = true := by simp [*]) : partsOnly L z0 (lumStore o s) := by
  simp only [sub_cons, sub_nil, and_true] at hL
  unfold lumStore
  dsimp only
  (repeat' split) <;> simp +contextual (maxDischargeDepth := 60) [*]

@[simp] theorem lumSvc_parts (s : State) {L : List Piece} (z0 : State) (hk : partsOnly L z0 s) (hL : sub [.com, .regs, .lum] L = true := by simp [*]) : partsOnly L z0 (lumSvc s) := by
  simp only [sub_cons, sub_nil, and_true] at hL
  unfold lumSvc
  dsimp only
  (repeat' split) <;> simp +contextual (maxDischargeDepth := 60) [*]

@[simp] theorem lumTables_parts (a0 : State) {L : List Piece} (z0 : State) (hk : partsOnly L z0 a0) (hL : sub [.com, .lmp, .firn, .regs, .lum] L = true := by simp [*]) : partsOnly L z0 (lumTables a0) := by
  simp only [sub_cons, sub_nil, and_true] at hL
  unfold lumTables
  dsimp only
  (repeat' split) <;> simp +contextual (maxDischargeDepth := 60) [*]

@[simp] theorem lumStart_parts (s : State) {L : List Piece} (z0 : State) (hk : partsOnly L z0 s) (hL : sub [.com, .lmp, .firn, .regs, .lum] L = true := by simp [*]) : partsOnly L z0 (lumStart s) := by
  simp only [sub_cons, sub_nil, and_true] at hL
  unfold lumStart
  dsimp only
  (repeat' split) <;> simp +contextual (maxDischargeDepth := 60) [*]

@[simp] theorem photoHolds_parts (s : State) {L : List Piece} (z0 : State) (hk : partsOnly L z0 s) (hL : sub [.lum] L = true := by simp [*]) : partsOnly L z0 (photoHolds s) := by
  simp only [sub_cons, sub_nil, and_true] at hL
  unfold photoHolds
  simp +contextual (maxDischargeDepth := 60) [*]

@[simp] theorem photocellEntry_parts (i : Nat) (s : State) {L : List Piece} (z0 : State) (hk : partsOnly L z0 s) (hL : sub [.lmp, .regs, .freeCtr, .lum] L = true := by simp [*]) : partsOnly L z0 (photocellEntry i s) := by
  simp only [sub_cons, sub_nil, and_true] at hL
  unfold photocellEntry
  dsimp only
  (repeat' split) <;> simp +contextual (maxDischargeDepth := 60) [*]

@[simp] theorem fadeStep_parts (s : State) {L : List Piece} (z0 : State) (hk : partsOnly L z0 s) (hL : sub [.lmp, .regs, .freeCtr, .lum] L = true := by simp [*]) : partsOnly L z0 (fadeStep s) := by
  simp only [sub_cons, sub_nil, and_true] at hL
  unfold fadeStep
  dsimp only
  (repeat' split) <;> simp +contextual (maxDischargeDepth := 60) [*]

@[simp] theorem cloUpdate_parts (a0 : State) {L : List Piece} (z0 : State) (hk : partsOnly L z0 a0) (hL : sub [.lmp, .regs, .lum] L = true := by simp [*]) : partsOnly L z0 (cloUpdate a0) := by
  simp only [sub_cons, sub_nil, and_true] at hL
  unfold cloUpdate
  dsimp only
  (repeat' split) <;> simp +contextual (maxDischargeDepth := 60) [*]

@[simp] theorem faultBit_parts (bit : Nat) (a1 : State) {L : List Piece} (z0 : State) (hk : partsOnly L z0 a1) (hL : sub [.mboxes, .regs, .heldNotices, .flight, .lum] L = true := by simp [*]) : partsOnly L z0 (faultBit bit a1) := by
  simp only [sub_cons, sub_nil, and_true] at hL
  unfold faultBit
  dsimp only
  (repeat' split) <;> simp +contextual (maxDischargeDepth := 60) [*]

@[simp] theorem faultEval_parts (s : State) {L : List Piece} (z0 : State) (hk : partsOnly L z0 s) (hL : sub [.mboxes, .regs, .heldNotices, .flight, .lum] L = true := by simp [*]) : partsOnly L z0 (faultEval s) := by
  simp only [sub_cons, sub_nil, and_true] at hL
  unfold faultEval
  simp +contextual (maxDischargeDepth := 60) [*]

@[simp] theorem meterBlock_parts (b : List (Nat × Nat × Nat × Nat)) (s : State) {L : List Piece} (z0 : State) (hk : partsOnly L z0 s) (hL : sub [.lmp, .mboxes, .regs, .freeCtr, .heldNotices, .flight, .lum] L = true := by simp [*]) : partsOnly L z0 (meterBlock b s) := by
  simp only [sub_cons, sub_nil, and_true] at hL
  unfold meterBlock
  dsimp only
  (repeat' split) <;> simp +contextual (maxDischargeDepth := 60) [*]

@[simp] theorem daliPoll_parts (s : State) {L : List Piece} (z0 : State) (hk : partsOnly L z0 s) (hL : sub [.lmp, .mboxes, .regs, .heldNotices, .flight, .lum] L = true := by simp [*]) : partsOnly L z0 (daliPoll s) := by
  simp only [sub_cons, sub_nil, and_true] at hL
  unfold daliPoll
  dsimp only
  (repeat' split) <;> simp +contextual (maxDischargeDepth := 60) [*]

@[simp] theorem pollAnswer_parts (poll : Bool) (data : Option Nat) (s : State) {L : List Piece} (z0 : State) (hk : partsOnly L z0 s) (hL : sub [.mboxes, .regs, .heldNotices, .flight, .lum] L = true := by simp [*]) : partsOnly L z0 (pollAnswer poll data s) := by
  simp only [sub_cons, sub_nil, and_true] at hL
  unfold pollAnswer
  simp +contextual (maxDischargeDepth := 60) [*]

@[simp] theorem pollMiss_parts (poll : Bool) (s : State) {L : List Piece} (z0 : State) (hk : partsOnly L z0 s) (hL : sub [.mboxes, .regs, .heldNotices, .flight, .lum] L = true := by simp [*]) : partsOnly L z0 (pollMiss poll s) := by
  simp only [sub_cons, sub_nil, and_true] at hL
  unfold pollMiss
  simp +contextual (maxDischargeDepth := 60) [*]

@[simp] theorem backwardFrame_parts (data : Nat) (err : Bool) (s : State) {L : List Piece} (z0 : State) (hk : partsOnly L z0 s) (hL : sub [.lmp, .mboxes, .regs, .heldNotices, .flight, .lum] L = true := by simp [*]) : partsOnly L z0 (backwardFrame data err s) := by
  simp only [sub_cons, sub_nil, and_true] at hL
  unfold backwardFrame
  simp +contextual (maxDischargeDepth := 60) [*]

@[simp] theorem busLow_parts (low : Bool) (s : State) {L : List Piece} (z0 : State) (hk : partsOnly L z0 s) (hL : sub [.mboxes, .regs, .heldNotices, .flight, .lum] L = true := by simp [*]) : partsOnly L z0 (busLow low s) := by
  simp only [sub_cons, sub_nil, and_true] at hL
  unfold busLow
  simp +contextual (maxDischargeDepth := 60) [*]

@[simp] theorem statusReport_parts (s : State) {L : List Piece} (z0 : State) (hk : partsOnly L z0 s) (hL : sub [.msh, .regs, .evAt, .flight, .lum] L = true := by simp [*]) : partsOnly L z0 (statusReport s) := by
  simp only [sub_cons, sub_nil, and_true] at hL
  unfold statusReport
  dsimp only
  (repeat' split) <;> simp +contextual (maxDischargeDepth := 60) [*]

@[simp] theorem meterReport_parts (s : State) {L : List Piece} (z0 : State) (hk : partsOnly L z0 s) (hL : sub [.msh, .regs, .evAt, .flight, .lum] L = true := by simp [*]) : partsOnly L z0 (meterReport s) := by
  simp only [sub_cons, sub_nil, and_true] at hL
  unfold meterReport
  dsimp only
  (repeat' split) <;> simp +contextual (maxDischargeDepth := 60) [*]

@[simp] theorem groupCmdReceive_parts (group : Nat) (mseq : Nat) (p : List Nat) (s : State) {L : List Piece} (z0 : State) (hk : partsOnly L z0 s) (hL : sub [.lmp, .firn, .regs, .freeCtr, .lnk, .lum] L = true := by simp [*]) : partsOnly L z0 (groupCmdReceive group mseq p s) := by
  simp only [sub_cons, sub_nil, and_true] at hL
  unfold groupCmdReceive
  simp +contextual (maxDischargeDepth := 60) [*]

@[simp] theorem scheduleReceive_parts (o : List Nat) (s : State) {L : List Piece} (z0 : State) (hk : partsOnly L z0 s) (hL : sub [.msh, .lmp, .firn, .regs, .freeCtr, .evAt, .flight, .lum] L = true := by simp [*]) : partsOnly L z0 (scheduleReceive o s) := by
  simp only [sub_cons, sub_nil, and_true] at hL
  unfold scheduleReceive
  dsimp only
  (repeat' split) <;> simp +contextual (maxDischargeDepth := 60) [*]

@[simp] theorem ageMod_parts (f : Age → Age) (s : State) {L : List Piece} (z0 : State) (hk : partsOnly L z0 s) (hL : sub [.age] L = true := by simp [*]) : partsOnly L z0 (ageMod f s) := by
  simp only [sub_cons, sub_nil, and_true] at hL
  unfold ageMod
  simp +contextual (maxDischargeDepth := 60) [*]

@[simp] theorem cycRebase_parts (s : State) {L : List Piece} (z0 : State) (hk : partsOnly L z0 s) (hL : sub [.cores, .sig] L = true := by simp [*]) : partsOnly L z0 (cycRebase s) := by
  simp only [sub_cons, sub_nil, and_true] at hL
  unfold cycRebase
  dsimp only
  (repeat' split) <;> simp +contextual (maxDischargeDepth := 60) [*]

@[simp] theorem railAlarm_parts (s : State) {L : List Piece} (z0 : State) (hk : partsOnly L z0 s) (hL : sub [.regs] L = true := by simp [*]) : partsOnly L z0 (railAlarm s) := by
  simp only [sub_cons, sub_nil, and_true] at hL
  unfold railAlarm
  simp +contextual (maxDischargeDepth := 60) [*]

@[simp] theorem ceilFall_parts (isl : Nat) (new : Nat) (s : State) {L : List Piece} (z0 : State) (hk : partsOnly L z0 s) (hL : sub [.cores, .age, .mboxes, .regs, .health, .heldNotices, .flight, .sig] L = true := by simp [*]) : partsOnly L z0 (ceilFall isl new s) := by
  simp only [sub_cons, sub_nil, and_true] at hL
  unfold ceilFall
  dsimp only
  (repeat' split) <;> simp +contextual (maxDischargeDepth := 60) [*]

@[simp] theorem replanIsland_parts (isl : Nat) (m : Nat) (a2 : State) {L : List Piece} (z0 : State) (hk : partsOnly L z0 a2) (hL : sub [.cores, .age, .mboxes, .regs, .health, .heldNotices, .flight, .sig] L = true := by simp [*]) : partsOnly L z0 (replanIsland isl m a2) := by
  simp only [sub_cons, sub_nil, and_true] at hL
  unfold replanIsland
  dsimp only
  (repeat' split) <;> simp +contextual (maxDischargeDepth := 60) [*]

@[simp] theorem replan_parts (ms : List Nat) (s : State) {L : List Piece} (z0 : State) (hk : partsOnly L z0 s) (hL : sub [.cores, .age, .mboxes, .regs, .health, .heldNotices, .flight, .sig] L = true := by simp [*]) : partsOnly L z0 (replan ms s) := by
  simp only [sub_cons, sub_nil, and_true] at hL
  unfold replan
  simp +contextual (maxDischargeDepth := 60) [*]

@[simp] theorem temperaturePoll_parts (t : Nat) (s : State) {L : List Piece} (z0 : State) (hk : partsOnly L z0 s) (hL : sub [.age, .mboxes, .regs, .health, .heldNotices, .flight] L = true := by simp [*]) : partsOnly L z0 (temperaturePoll t s) := by
  simp only [sub_cons, sub_nil, and_true] at hL
  unfold temperaturePoll
  dsimp only
  (repeat' split) <;> simp +contextual (maxDischargeDepth := 60) [*]

@[simp] theorem flWear_parts (s : State) {L : List Piece} (z0 : State) (hk : partsOnly L z0 s) (hL : sub [.regs] L = true := by simp [*]) : partsOnly L z0 (flWear s) := by
  simp only [sub_cons, sub_nil, and_true] at hL
  unfold flWear
  simp +contextual (maxDischargeDepth := 60) [*]

@[simp] theorem wearPulses_parts (g : Nat) (w : GroupWear) (s : State) {L : List Piece} (z0 : State) (hk : partsOnly L z0 s) (hL : sub [.age, .mboxes, .regs, .health, .heldNotices, .flight] L = true := by simp [*]) : partsOnly L z0 (wearPulses g w s) := by
  simp only [sub_cons, sub_nil, and_true] at hL
  unfold wearPulses
  dsimp only
  (repeat' split) <;> simp +contextual (maxDischargeDepth := 60) [*]

@[simp] theorem wearRetries_parts (g : Nat) (w : GroupWear) (s : State) {L : List Piece} (z0 : State) (hk : partsOnly L z0 s) (hL : sub [.age, .mboxes, .flc, .regs, .health, .heldNotices, .flight] L = true := by simp [*]) : partsOnly L z0 (wearRetries g w s) := by
  simp only [sub_cons, sub_nil, and_true] at hL
  unfold wearRetries
  dsimp only
  (repeat' split) <;> simp +contextual (maxDischargeDepth := 60) [*]

@[simp] theorem wearEvaluation_parts (s : State) {L : List Piece} (z0 : State) (hk : partsOnly L z0 s) (hL : sub [.age, .mboxes, .flc, .regs, .health, .heldNotices, .flight] L = true := by simp [*]) : partsOnly L z0 (wearEvaluation s) := by
  simp only [sub_cons, sub_nil, and_true] at hL
  unfold wearEvaluation
  simp +contextual (maxDischargeDepth := 60) [*]

@[simp] theorem tblEffect_parts (tid : Nat) (old : List Nat) (s : State) {L : List Piece} (z0 : State) (hk : partsOnly L z0 s) (hL : sub [.com, .msh, .lmp, .firn, .regs, .wpt, .evAt, .flight, .lum] L = true := by simp [*]) : partsOnly L z0 (tblEffect tid old s) := by
  simp only [sub_cons, sub_nil, and_true] at hL
  unfold tblEffect
  (repeat' split) <;> simp +contextual (maxDischargeDepth := 60) [*]

@[simp] theorem tblForce_parts (tid : Nat) (o : Option TableObj) (s : State) {L : List Piece} (z0 : State) (hk : partsOnly L z0 s) (hL : sub [.com, .msh, .lmp, .firn, .regs, .wpt, .evAt, .tables, .flight, .lum] L = true := by simp [*]) : partsOnly L z0 (tblForce tid o s) := by
  simp only [sub_cons, sub_nil, and_true] at hL
  unfold tblForce
  dsimp only
  (repeat' split) <;> simp +contextual (maxDischargeDepth := 60) [*]

@[simp] theorem coMod_parts (f : Co → Co) (s : State) {L : List Piece} (z0 : State) (hk : partsOnly L z0 s) (hL : sub [.co] L = true := by simp [*]) : partsOnly L z0 (coMod f s) := by
  simp only [sub_cons, sub_nil, and_true] at hL
  unfold coMod
  simp +contextual (maxDischargeDepth := 60) [*]

@[simp] theorem coNodeMod_parts (short : Nat) (f : CoNode → CoNode) (s : State) {L : List Piece} (z0 : State) (hk : partsOnly L z0 s) (hL : sub [.co] L = true := by simp [*]) : partsOnly L z0 (coNodeMod short f s) := by
  simp only [sub_cons, sub_nil, and_true] at hL
  unfold coNodeMod
  simp +contextual (maxDischargeDepth := 60) [*]

@[simp] theorem coSave_parts (s : State) {L : List Piece} (z0 : State) (hk : partsOnly L z0 s) (hL : sub [.co] L = true := by simp [*]) : partsOnly L z0 (coSave s) := by
  simp only [sub_cons, sub_nil, and_true] at hL
  unfold coSave
  simp +contextual (maxDischargeDepth := 60) [*]

@[simp] theorem joinDecide_parts (longid : Nat) (parent : Nat) (s : State) {L : List Piece} (z0 : State) (hk : partsOnly L z0 s) (hL : sub [.co, .freeCtr] L = true := by simp [*]) : partsOnly L z0 (joinDecide longid parent s).2.2.2 := by
  simp only [sub_cons, sub_nil, and_true] at hL
  unfold joinDecide
  dsimp only
  (repeat' split) <;> simp +contextual (maxDischargeDepth := 60) [*]

@[simp] theorem joinFwdReceive_parts (src : Nat) (p : List Nat) (s : State) {L : List Piece} (z0 : State) (hk : partsOnly L z0 s) (hL : sub [.msh, .regs, .co, .freeCtr, .lnk, .evAt, .flight, .rfe] L = true := by simp [*]) : partsOnly L z0 (joinFwdReceive src p s) := by
  simp only [sub_cons, sub_nil, and_true] at hL
  unfold joinFwdReceive
  dsimp only
  (repeat' split) <;> simp +contextual (maxDischargeDepth := 60) [*]

@[simp] theorem joinForward_parts (longid : Nat) (s : State) {L : List Piece} (z0 : State) (hk : partsOnly L z0 s) (hL : sub [.msh, .regs, .co, .freeCtr, .lnk, .evAt, .flight, .rfe] L = true := by simp [*]) : partsOnly L z0 (joinForward longid s) := by
  simp only [sub_cons, sub_nil, and_true] at hL
  unfold joinForward
  dsimp only
  (repeat' split) <;> simp +contextual (maxDischargeDepth := 60) [*]

@[simp] theorem coRecord_parts (r : Nat × Nat × Nat × Nat) (s : State) {L : List Piece} (z0 : State) (hk : partsOnly L z0 s) (hL : sub [.co] L = true := by simp [*]) : partsOnly L z0 (coRecord r s) := by
  simp only [sub_cons, sub_nil, and_true] at hL
  unfold coRecord
  simp +contextual (maxDischargeDepth := 60) [*]

@[simp] theorem dispFill_parts (a0 : Nat) (a1 : CoDisp) (a2 : State) {L : List Piece} (z0 : State) (hk : partsOnly L z0 a2) (hL : sub [.msh, .regs, .evAt, .flight] L = true := by simp [*]) : partsOnly L z0 (dispFill a0 a1 a2).2 := by
  simp only [sub_cons, sub_nil, and_true] at hL
  induction a0 generalizing a1 a2 with
  | zero => exact hk
  | succ n ih =>
    unfold dispFill
    split
    · exact hk
    · split
      · exact hk
      · exact ih _ _ (by simp (maxDischargeDepth := 60) [hL, hk])

@[simp] theorem dispOne_parts (s : State) (d : CoDisp) {L : List Piece} (z0 : State) (hk : partsOnly L z0 s) (hL : sub [.msh, .mboxes, .regs, .co, .evAt, .flight] L = true := by simp [*]) : partsOnly L z0 (dispOne s d) := by
  simp only [sub_cons, sub_nil, and_true] at hL
  unfold dispOne
  dsimp only
  (repeat' split) <;> simp +contextual (maxDischargeDepth := 60) [*]

@[simp] theorem dispSettle_parts (s : State) {L : List Piece} (z0 : State) (hk : partsOnly L z0 s) (hL : sub [.msh, .mboxes, .regs, .co, .evAt, .flight] L = true := by simp [*]) : partsOnly L z0 (dispSettle s) := by
  simp only [sub_cons, sub_nil, and_true] at hL
  unfold dispSettle
  simp +contextual (maxDischargeDepth := 60) [*]

@[simp] theorem dispatchResend_parts (short : Nat) (s : State) {L : List Piece} (z0 : State) (hk : partsOnly L z0 s) (hL : sub [.msh, .mboxes, .regs, .co, .evAt, .flight] L = true := by simp [*]) : partsOnly L z0 (dispatchResend short s) := by
  simp only [sub_cons, sub_nil, and_true] at hL
  unfold dispatchResend
  dsimp only
  (repeat' split) <;> simp +contextual (maxDischargeDepth := 60) [*]

@[simp] theorem coStatus_parts (src : Nat) (p : List Nat) (a2 : State) {L : List Piece} (z0 : State) (hk : partsOnly L z0 a2) (hL : sub [.msh, .mboxes, .regs, .co, .evAt, .flight] L = true := by simp [*]) : partsOnly L z0 (coStatus src p a2) := by
  simp only [sub_cons, sub_nil, and_true] at hL
  unfold coStatus
  dsimp only
  (repeat' split) <;> simp +contextual (maxDischargeDepth := 60) [*]

@[simp] theorem coMeter_parts (src : Nat) (p : List Nat) (s : State) {L : List Piece} (z0 : State) (hk : partsOnly L z0 s) (hL : sub [.co] L = true := by simp [*]) : partsOnly L z0 (coMeter src p s) := by
  simp only [sub_cons, sub_nil, and_true] at hL
  unfold coMeter
  simp +contextual (maxDischargeDepth := 60) [*]

@[simp] theorem coGroupStart_parts (mb : Nat) (op : Nat) (group : Nat) (level : Nat) (fade : Nat) (collect : Nat) (t : Nat) (s : State) {L : List Piece} (z0 : State) (hk : partsOnly L z0 s) (hL : sub [.msh, .regs, .co, .evAt, .flight] L = true := by simp [*]) : partsOnly L z0 (coGroupStart mb op group level fade collect t s) := by
  simp only [sub_cons, sub_nil, and_true] at hL
  unfold coGroupStart
  dsimp only
  (repeat' split) <;> simp +contextual (maxDischargeDepth := 60) [*]

@[simp] theorem collectEnd_parts (s : State) {L : List Piece} (z0 : State) (hk : partsOnly L z0 s) (hL : sub [.mboxes, .co] L = true := by simp [*]) : partsOnly L z0 (collectEnd s) := by
  simp only [sub_cons, sub_nil, and_true] at hL
  unfold collectEnd
  dsimp only
  (repeat' split) <;> simp +contextual (maxDischargeDepth := 60) [*]

@[simp] theorem coDispatchStart_parts (mb : Nat) (op : Nat) (group : Nat) (obj : List Nat) (s : State) {L : List Piece} (z0 : State) (hk : partsOnly L z0 s) (hL : sub [.msh, .mboxes, .regs, .co, .evAt, .flight] L = true := by simp [*]) : partsOnly L z0 (coDispatchStart mb op group obj s) := by
  simp only [sub_cons, sub_nil, and_true] at hL
  unfold coDispatchStart
  simp +contextual (maxDischargeDepth := 60) [*]

@[simp] theorem coGroups_parts (short : Nat) (groups : List Nat) (s : State) {L : List Piece} (z0 : State) (hk : partsOnly L z0 s) (hL : sub [.msh, .regs, .co, .evAt, .flight] L = true := by simp [*]) : partsOnly L z0 (coGroups short groups s) := by
  simp only [sub_cons, sub_nil, and_true] at hL
  unfold coGroups
  simp +contextual (maxDischargeDepth := 60) [*]

@[simp] theorem coAdmit_parts (longid : Nat) (allow : Bool) (s : State) {L : List Piece} (z0 : State) (hk : partsOnly L z0 s) (hL : sub [.co] L = true := by simp [*]) : partsOnly L z0 (coAdmit longid allow s) := by
  simp only [sub_cons, sub_nil, and_true] at hL
  unfold coAdmit
  simp +contextual (maxDischargeDepth := 60) [*]

@[simp] theorem mirMod_parts (f : Mir → Mir) (s : State) {L : List Piece} (z0 : State) (hk : partsOnly L z0 s) (hL : sub [.mir] L = true := by simp [*]) : partsOnly L z0 (mirMod f s) := by
  simp only [sub_cons, sub_nil, and_true] at hL
  unfold mirMod
  simp +contextual (maxDischargeDepth := 60) [*]

@[simp] theorem pairNotice_parts (s : State) {L : List Piece} (z0 : State) (hk : partsOnly L z0 s) (hL : sub [.mboxes, .regs, .heldNotices] L = true := by simp [*]) : partsOnly L z0 (pairNotice s) := by
  simp only [sub_cons, sub_nil, and_true] at hL
  unfold pairNotice
  simp +contextual (maxDischargeDepth := 60) [*]

@[simp] theorem aloneRecord_parts (s : State) {L : List Piece} (z0 : State) (hk : partsOnly L z0 s) (hL : sub [.mboxes, .regs, .health, .heldNotices, .flight] L = true := by simp [*]) : partsOnly L z0 (aloneRecord s) := by
  simp only [sub_cons, sub_nil, and_true] at hL
  unfold aloneRecord
  simp +contextual (maxDischargeDepth := 60) [*]

@[simp] theorem mirDeg_parts (lanes : Nat) (s : State) {L : List Piece} (z0 : State) (hk : partsOnly L z0 s) (hL : sub [.mboxes, .regs, .health, .heldNotices, .flight] L = true := by simp [*]) : partsOnly L z0 (mirDeg lanes s) := by
  simp only [sub_cons, sub_nil, and_true] at hL
  unfold mirDeg
  simp +contextual (maxDischargeDepth := 60) [*]

@[simp] theorem setRole_parts (r : Nat) (reason : Nat) (s : State) {L : List Piece} (z0 : State) (hk : partsOnly L z0 s) (hL : sub [.mboxes, .firn, .regs, .heldNotices, .flight, .mir] L = true := by simp [*]) : partsOnly L z0 (setRole r reason s) := by
  simp only [sub_cons, sub_nil, and_true] at hL
  unfold setRole
  dsimp only
  (repeat' split) <;> simp +contextual (maxDischargeDepth := 60) [*]

@[simp] theorem setLink_parts (l : Nat) (s : State) {L : List Piece} (z0 : State) (hk : partsOnly L z0 s) (hL : sub [.mboxes, .regs, .health, .heldNotices, .flight, .mir] L = true := by simp [*]) : partsOnly L z0 (setLink l s) := by
  simp only [sub_cons, sub_nil, and_true] at hL
  unfold setLink
  dsimp only
  (repeat' split) <;> simp +contextual (maxDischargeDepth := 60) [*]

@[simp] theorem opsFail_parts (s : State) {L : List Piece} (z0 : State) (hk : partsOnly L z0 s) (hL : sub [.mboxes] L = true := by simp [*]) : partsOnly L z0 (opsFail s) := by
  simp only [sub_cons, sub_nil, and_true] at hL
  unfold opsFail
  simp +contextual (maxDischargeDepth := 60) [*]

@[simp] theorem txStop_parts (s : State) {L : List Piece} (z0 : State) (hk : partsOnly L z0 s) (hL : sub [.rfe] L = true := by simp [*]) : partsOnly L z0 (txStop s) := by
  simp only [sub_cons, sub_nil, and_true] at hL
  unfold txStop
  dsimp only
  (repeat' split) <;> simp +contextual (maxDischargeDepth := 60) [*]

@[simp] theorem mirrorOut_parts (a : Nat) (l : List Nat) (s : State) {L : List Piece} (z0 : State) (hk : partsOnly L z0 s) (hL : sub [.regs, .mir] L = true := by simp [*]) : partsOnly L z0 (mirrorOut a l s) := by
  simp only [sub_cons, sub_nil, and_true] at hL
  unfold mirrorOut
  simp +contextual (maxDischargeDepth := 60) [*]

@[simp] theorem mirLagShow_parts (s : State) {L : List Piece} (z0 : State) (hk : partsOnly L z0 s) (hL : sub [.regs] L = true := by simp [*]) : partsOnly L z0 (mirLagShow s) := by
  simp only [sub_cons, sub_nil, and_true] at hL
  unfold mirLagShow
  simp +contextual (maxDischargeDepth := 60) [*]

@[simp] theorem mirrorWrite_parts (a : Nat) (l : List Nat) (s : State) {L : List Piece} (z0 : State) (hk : partsOnly L z0 s) (hL : sub [.regs, .mem, .mir] L = true := by simp [*]) : partsOnly L z0 (mirrorWrite a l s) := by
  simp only [sub_cons, sub_nil, and_true] at hL
  unfold mirrorWrite
  dsimp only
  (repeat' split) <;> simp +contextual (maxDischargeDepth := 60) [*]

@[simp] theorem mirFence_parts (s : State) {L : List Piece} (z0 : State) (hk : partsOnly L z0 s) (hL : sub [.regs, .mir] L = true := by simp [*]) : partsOnly L z0 (mirFence s) := by
  simp only [sub_cons, sub_nil, and_true] at hL
  unfold mirFence
  simp +contextual (maxDischargeDepth := 60) [*]

@[simp] theorem fenceComplete_parts (s : State) {L : List Piece} (z0 : State) (hk : partsOnly L z0 s) (hL : sub [.regs, .mir] L = true := by simp [*]) : partsOnly L z0 (fenceComplete s) := by
  simp only [sub_cons, sub_nil, and_true] at hL
  unfold fenceComplete
  dsimp only
  (repeat' split) <;> simp +contextual (maxDischargeDepth := 60) [*]

@[simp] theorem mirrorLaneCheck_parts (lane : Nat) (v : Nat) (a2 : State) {L : List Piece} (z0 : State) (hk : partsOnly L z0 a2) (hL : sub [.age, .mboxes, .regs, .health, .heldNotices, .flight, .mir] L = true := by simp [*]) : partsOnly L z0 (mirrorLaneCheck lane v a2) := by
  simp only [sub_cons, sub_nil, and_true] at hL
  unfold mirrorLaneCheck
  dsimp only
  (repeat' split) <;> simp +contextual (maxDischargeDepth := 60) [*]

@[simp] theorem mirDegClear_parts (s : State) {L : List Piece} (z0 : State) (hk : partsOnly L z0 s) (hL : sub [.regs] L = true := by simp [*]) : partsOnly L z0 (mirDegClear s) := by
  simp only [sub_cons, sub_nil, and_true] at hL
  unfold mirDegClear
  (repeat' split) <;> simp +contextual (maxDischargeDepth := 60) [*]

@[simp] theorem heartbeatSend_parts (s : State) {L : List Piece} (z0 : State) (hk : partsOnly L z0 s) (hL : sub [.regs, .mir] L = true := by simp [*]) : partsOnly L z0 (heartbeatSend s) := by
  simp only [sub_cons, sub_nil, and_true] at hL
  unfold heartbeatSend
  simp +contextual (maxDischargeDepth := 60) [*]

@[simp] theorem pairJudge_parts (h : HbIn) (s : State) {L : List Piece} (z0 : State) (hk : partsOnly L z0 s) (hL : sub [.mboxes, .firn, .regs, .health, .heldNotices, .flight, .mir, .rfe] L = true := by simp [*]) : partsOnly L z0 (pairJudge h s) := by
  simp only [sub_cons, sub_nil, and_true] at hL
  unfold pairJudge
  dsimp only
  (repeat' split) <;> simp +contextual (maxDischargeDepth := 60) [*]

@[simp] theorem heartbeatReceive_parts (h : HbIn) (s : State) {L : List Piece} (z0 : State) (hk : partsOnly L z0 s) (hL : sub [.mboxes, .firn, .regs, .health, .freeCtr, .heldNotices, .flight, .mir, .rfe] L = true := by simp [*]) : partsOnly L z0 (heartbeatReceive h s) := by
  simp only [sub_cons, sub_nil, and_true] at hL
  unfold heartbeatReceive
  dsimp only
  (repeat' split) <;> simp +contextual (maxDischargeDepth := 60) [*]

@[simp] theorem mirrorSilence_parts (s : State) {L : List Piece} (z0 : State) (hk : partsOnly L z0 s) (hL : sub [.mboxes, .firn, .regs, .health, .heldNotices, .flight, .mir] L = true := by simp [*]) : partsOnly L z0 (mirrorSilence s) := by
  simp only [sub_cons, sub_nil, and_true] at hL
  unfold mirrorSilence
  dsimp only
  (repeat' split) <;> simp +contextual (maxDischargeDepth := 60) [*]

@[simp] theorem pairBeaconSend_parts (s : State) {L : List Piece} (z0 : State) (hk : partsOnly L z0 s) (hL : sub [.regs, .mir, .rfe] L = true := by simp [*]) : partsOnly L z0 (pairBeaconSend s) := by
  simp only [sub_cons, sub_nil, and_true] at hL
  unfold pairBeaconSend
  dsimp only
  (repeat' split) <;> simp +contextual (maxDischargeDepth := 60) [*]

@[simp] theorem pairBeaconHeard_parts (bseq : Nat) (a1 : State) {L : List Piece} (z0 : State) (hk : partsOnly L z0 a1) (hL : sub [.mboxes, .firn, .regs, .heldNotices, .flight, .mir, .rfe] L = true := by simp [*]) : partsOnly L z0 (pairBeaconHeard bseq a1) := by
  simp only [sub_cons, sub_nil, and_true] at hL
  unfold pairBeaconHeard
  dsimp only
  (repeat' split) <;> simp +contextual (maxDischargeDepth := 60) [*]

@[simp] theorem takeover_parts (s : State) {L : List Piece} (z0 : State) (hk : partsOnly L z0 s) (hL : sub [.msh, .mboxes, .firn, .regs, .health, .heldNotices, .lnk, .flight, .mir, .lum] L = true := by simp [*]) : partsOnly L z0 (takeover s) := by
  simp only [sub_cons, sub_nil, and_true] at hL
  unfold takeover
  dsimp only
  (repeat' split) <;> simp +contextual (maxDischargeDepth := 60) [*]

@[simp] theorem startAlone_parts (s : State) {L : List Piece} (z0 : State) (hk : partsOnly L z0 s) (hL : sub [.mboxes, .firn, .regs, .health, .heldNotices, .flight, .mir] L = true := by simp [*]) : partsOnly L z0 (startAlone s) := by
  simp only [sub_cons, sub_nil, and_true] at hL
  unfold startAlone
  simp +contextual (maxDischargeDepth := 60) [*]

@[simp] theorem syncComplete_parts (s : State) {L : List Piece} (z0 : State) (hk : partsOnly L z0 s) (hL : sub [.mboxes, .firn, .regs, .heldNotices, .flight, .mir] L = true := by simp [*]) : partsOnly L z0 (syncComplete s) := by
  simp only [sub_cons, sub_nil, and_true] at hL
  unfold syncComplete
  simp +contextual (maxDischargeDepth := 60) [*]

@[simp] theorem switchArm_parts (t : Nat) (op : Option (Nat × Nat)) (s : State) {L : List Piece} (z0 : State) (hk : partsOnly L z0 s) (hL : sub [.firn, .regs, .mir] L = true := by simp [*]) : partsOnly L z0 (switchArm t op s) := by
  simp only [sub_cons, sub_nil, and_true] at hL
  unfold switchArm
  dsimp only
  (repeat' split) <;> simp +contextual (maxDischargeDepth := 60) [*]

@[simp] theorem switchFence_parts (s : State) {L : List Piece} (z0 : State) (hk : partsOnly L z0 s) (hL : sub [.mir] L = true := by simp [*]) : partsOnly L z0 (switchFence s) := by
  simp only [sub_cons, sub_nil, and_true] at hL
  unfold switchFence
  simp +contextual (maxDischargeDepth := 60) [*]

@[simp] theorem plannedSwitch_parts (s : State) {L : List Piece} (z0 : State) (hk : partsOnly L z0 s) (hL : sub [.mboxes, .firn, .regs, .health, .heldNotices, .flight, .mir] L = true := by simp [*]) : partsOnly L z0 (plannedSwitch s) := by
  simp only [sub_cons, sub_nil, and_true] at hL
  unfold plannedSwitch
  (repeat' split) <;> simp +contextual (maxDischargeDepth := 60) [*]

@[simp] theorem updMod_parts (f : UpdSt → UpdSt) (s : State) {L : List Piece} (z0 : State) (hk : partsOnly L z0 s) (hL : sub [.upd] L = true := by simp [*]) : partsOnly L z0 (updMod f s) := by
  simp only [sub_cons, sub_nil, and_true] at hL
  unfold updMod
  simp +contextual (maxDischargeDepth := 60) [*]

@[simp] theorem updState_parts (st : Nat) (s : State) {L : List Piece} (z0 : State) (hk : partsOnly L z0 s) (hL : sub [.upd, .flight] L = true := by simp [*]) : partsOnly L z0 (updState st s) := by
  simp only [sub_cons, sub_nil, and_true] at hL
  unfold updState
  simp +contextual (maxDischargeDepth := 60) [*]

@[simp] theorem updNotice_parts (event : Nat) (bid : Nat) (s : State) {L : List Piece} (z0 : State) (hk : partsOnly L z0 s) (hL : sub [.mboxes, .regs, .heldNotices] L = true := by simp [*]) : partsOnly L z0 (updNotice event bid s) := by
  simp only [sub_cons, sub_nil, and_true] at hL
  unfold updNotice
  simp +contextual (maxDischargeDepth := 60) [*]

@[simp] theorem bundleSet_parts (bid : Nat) (f : Bundle → Bundle) (s : State) {L : List Piece} (z0 : State) (hk : partsOnly L z0 s) (hL : sub [.upd] L = true := by simp [*]) : partsOnly L z0 (bundleSet bid f s) := by
  simp only [sub_cons, sub_nil, and_true] at hL
  unfold bundleSet
  simp +contextual (maxDischargeDepth := 60) [*]

@[simp] theorem storeAdd_parts (b : Bundle) (s : State) {L : List Piece} (z0 : State) (hk : partsOnly L z0 s) (hL : sub [.upd] L = true := by simp [*]) : partsOnly L z0 (storeAdd b s) := by
  simp only [sub_cons, sub_nil, and_true] at hL
  unfold storeAdd
  simp +contextual (maxDischargeDepth := 60) [*]

@[simp] theorem provRevoke_parts (b : List Nat) (s : State) {L : List Piece} (z0 : State) (hk : partsOnly L z0 s) (hL : sub [.fuses] L = true := by simp [*]) : partsOnly L z0 (provRevoke b s) := by
  simp only [sub_cons, sub_nil, and_true] at hL
  unfold provRevoke
  dsimp only
  (repeat' split) <;> simp +contextual (maxDischargeDepth := 60) [*]

@[simp] theorem intakeEnd_parts (bytes : List Nat) (s : State) {L : List Piece} (z0 : State) (hk : partsOnly L z0 s) (hL : sub [.mboxes, .fuses, .regs, .upd, .heldNotices, .flight] L = true := by simp [*]) : partsOnly L z0 (intakeEnd bytes s).2 := by
  simp only [sub_cons, sub_nil, and_true] at hL
  unfold intakeEnd
  dsimp only
  (repeat' split) <;> simp +contextual (maxDischargeDepth := 60) [*]

@[simp] theorem bulkFlood_parts (ttl : Nat) (p : List Nat) (s : State) {L : List Piece} (z0 : State) (hk : partsOnly L z0 s) (hL : sub [.msh, .regs, .evAt, .flight] L = true := by simp [*]) : partsOnly L z0 (bulkFlood ttl p s) := by
  simp only [sub_cons, sub_nil, and_true] at hL
  unfold bulkFlood
  simp +contextual (maxDischargeDepth := 60) [*]

@[simp] theorem offerReceive_parts (p : List Nat) (s : State) {L : List Piece} (z0 : State) (hk : partsOnly L z0 s) (hL : sub [.upd, .flight] L = true := by simp [*]) : partsOnly L z0 (offerReceive p s) := by
  simp only [sub_cons, sub_nil, and_true] at hL
  unfold offerReceive
  dsimp only
  (repeat' split) <;> simp +contextual (maxDischargeDepth := 60) [*]

@[simp] theorem chunkSend_parts (s : State) {L : List Piece} (z0 : State) (hk : partsOnly L z0 s) (hL : sub [.msh, .regs, .upd, .evAt, .flight] L = true := by simp [*]) : partsOnly L z0 (chunkSend s) := by
  simp only [sub_cons, sub_nil, and_true] at hL
  unfold chunkSend
  (repeat' split) <;> simp +contextual (maxDischargeDepth := 60) [*]

@[simp] theorem bulkDrop_parts (x : BulkIn) (s : State) {L : List Piece} (z0 : State) (hk : partsOnly L z0 s) (hL : sub [.upd] L = true := by simp [*]) : partsOnly L z0 (bulkDrop x s) := by
  simp only [sub_cons, sub_nil, and_true] at hL
  unfold bulkDrop
  simp +contextual (maxDischargeDepth := 60) [*]

@[simp] theorem chunkReceive_parts (a0 : State) {L : List Piece} (z0 : State) (hk : partsOnly L z0 a0) (hL : sub [.upd] L = true := by simp [*]) : partsOnly L z0 (chunkReceive a0) := by
  simp only [sub_cons, sub_nil, and_true] at hL
  unfold chunkReceive
  dsimp only
  (repeat' split) <;> simp +contextual (maxDischargeDepth := 60) [*]

@[simp] theorem reqTimer_parts (s : State) {L : List Piece} (z0 : State) (hk : partsOnly L z0 s) (hL : sub [.msh, .regs, .upd, .evAt, .flight] L = true := by simp [*]) : partsOnly L z0 (reqTimer s) := by
  simp only [sub_cons, sub_nil, and_true] at hL
  unfold reqTimer
  dsimp only
  (repeat' split) <;> simp +contextual (maxDischargeDepth := 60) [*]

@[simp] theorem reqReceive_parts (a0 : State) {L : List Piece} (z0 : State) (hk : partsOnly L z0 a0) (hL : sub [.msh, .regs, .upd, .evAt, .flight] L = true := by simp [*]) : partsOnly L z0 (reqReceive a0) := by
  simp only [sub_cons, sub_nil, and_true] at hL
  unfold reqReceive
  dsimp only
  (repeat' split) <;> simp +contextual (maxDischargeDepth := 60) [*]

@[simp] theorem distSettle_parts (s : State) {L : List Piece} (z0 : State) (hk : partsOnly L z0 s) (hL : sub [.mboxes, .upd] L = true := by simp [*]) : partsOnly L z0 (distSettle s) := by
  simp only [sub_cons, sub_nil, and_true] at hL
  unfold distSettle
  dsimp only
  (repeat' split) <;> simp +contextual (maxDischargeDepth := 60) [*]

@[simp] theorem haveReceive_parts (a0 : State) {L : List Piece} (z0 : State) (hk : partsOnly L z0 a0) (hL : sub [.mboxes, .upd] L = true := by simp [*]) : partsOnly L z0 (haveReceive a0) := by
  simp only [sub_cons, sub_nil, and_true] at hL
  unfold haveReceive
  dsimp only
  (repeat' split) <;> simp +contextual (maxDischargeDepth := 60) [*]

@[simp] theorem haveSend_parts (bid : Nat) (st : Nat) (s : State) {L : List Piece} (z0 : State) (hk : partsOnly L z0 s) (hL : sub [.msh, .regs, .evAt, .flight] L = true := by simp [*]) : partsOnly L z0 (haveSend bid st s) := by
  simp only [sub_cons, sub_nil, and_true] at hL
  unfold haveSend
  simp +contextual (maxDischargeDepth := 60) [*]

@[simp] theorem installComp_parts (b : List Nat) (e : List Nat) (s : State) {L : List Piece} (z0 : State) (hk : partsOnly L z0 s) (hL : sub [.upd] L = true := by simp [*]) : partsOnly L z0 (installComp b e s) := by
  simp only [sub_cons, sub_nil, and_true] at hL
  unfold installComp
  dsimp only
  (repeat' split) <;> simp +contextual (maxDischargeDepth := 60) [*]

@[simp] theorem installAll_parts (b : List Nat) (s : State) {L : List Piece} (z0 : State) (hk : partsOnly L z0 s) (hL : sub [.upd] L = true := by simp [*]) : partsOnly L z0 (installAll b s) := by
  simp only [sub_cons, sub_nil, and_true] at hL
  unfold installAll
  dsimp only
  (repeat' split) <;> simp +contextual (maxDischargeDepth := 60) [*]

@[simp] theorem actArm_parts (t : Nat) (s : State) {L : List Piece} (z0 : State) (hk : partsOnly L z0 s) (hL : sub [.mboxes, .firn, .regs, .upd, .heldNotices, .flight] L = true := by simp [*]) : partsOnly L z0 (actArm t s) := by
  simp only [sub_cons, sub_nil, and_true] at hL
  unfold actArm
  dsimp only
  (repeat' split) <;> simp +contextual (maxDischargeDepth := 60) [*]

@[simp] theorem install_parts (fail : Bool) (a1 : State) {L : List Piece} (z0 : State) (hk : partsOnly L z0 a1) (hL : sub [.msh, .mboxes, .firn, .fuses, .regs, .upd, .heldNotices, .evAt, .flight] L = true := by simp [*]) : partsOnly L z0 (install fail a1) := by
  simp only [sub_cons, sub_nil, and_true] at hL
  unfold install
  dsimp only
  (repeat' split) <;> simp +contextual (maxDischargeDepth := 60) [*]

@[simp] theorem activateTake_parts (bid : Nat) (t : Nat) (s : State) {L : List Piece} (z0 : State) (hk : partsOnly L z0 s) (hL : sub [.mboxes, .firn, .regs, .upd, .heldNotices, .flight] L = true := by simp [*]) : partsOnly L z0 (activateTake bid t s) := by
  simp only [sub_cons, sub_nil, and_true] at hL
  unfold activateTake
  dsimp only
  (repeat' split) <;> simp +contextual (maxDischargeDepth := 60) [*]

@[simp] theorem activateReceive_parts (a0 : State) {L : List Piece} (z0 : State) (hk : partsOnly L z0 a0) (hL : sub [.mboxes, .firn, .regs, .upd, .heldNotices, .flight] L = true := by simp [*]) : partsOnly L z0 (activateReceive a0) := by
  simp only [sub_cons, sub_nil, and_true] at hL
  unfold activateReceive
  (repeat' split) <;> simp +contextual (maxDischargeDepth := 60) [*]

end Sys2Proof.Machine
end

