-- ==== Sys2Proof/Laws/PartsUnits.lean ====
section
/-!
SUPPORT. What the serial ports, protection, memory, flash, clocks, timers, the cipher engine and kernels leave alone: one lemma per operation, over `partsOnly` (Laws/Parts.lean).
-/
namespace Sys2Proof.Machine
set_option Elab.async false

@[simp] theorem spxMod_parts (n : Nat) (f : Spx → Spx) (s : State) {L : List Piece} (z0 : State) (hk : partsOnly L z0 s) (hL : sub [.spx] L = true := by simp [*]) : partsOnly L z0 (spxMod n f s) := by
  simp only [sub_cons, sub_nil, and_true] at hL
  unfold spxMod
  simp +contextual (maxDischargeDepth := 60) [*]

@[simp] theorem spxShow_parts (n : Nat) (s : State) {L : List Piece} (z0 : State) (hk : partsOnly L z0 s) (hL : sub [.regs] L = true := by simp [*]) : partsOnly L z0 (spxShow n s) := by
  simp only [sub_cons, sub_nil, and_true] at hL
  unfold spxShow
  dsimp only
  (repeat' split) <;> simp +contextual (maxDischargeDepth := 60) [*]

@[simp] theorem spxEvent_parts (n : Nat) (s : State) {L : List Piece} (z0 : State) (hk : partsOnly L z0 s) (hL : sub [.flight] L = true := by simp [*]) : partsOnly L z0 (spxEvent n s) := by
  simp only [sub_cons, sub_nil, and_true] at hL
  unfold spxEvent
  simp +contextual (maxDischargeDepth := 60) [*]

@[simp] theorem spxFlag_parts (n : Nat) (flag : Field) (ien : Field) (s : State) {L : List Piece} (z0 : State) (hk : partsOnly L z0 s) (hL : sub [.regs, .flight] L = true := by simp [*]) : partsOnly L z0 (spxFlag n flag ien s) := by
  simp only [sub_cons, sub_nil, and_true] at hL
  unfold spxFlag
  simp +contextual (maxDischargeDepth := 60) [*]

@[simp] theorem spxErr_parts (n : Nat) (cnt : Field) (always : Bool) (s : State) {L : List Piece} (z0 : State) (hk : partsOnly L z0 s) (hL : sub [.regs, .flight] L = true := by simp [*]) : partsOnly L z0 (spxErr n cnt always s) := by
  simp only [sub_cons, sub_nil, and_true] at hL
  unfold spxErr
  dsimp only
  (repeat' split) <;> simp +contextual (maxDischargeDepth := 60) [*]

@[simp] theorem spxAdvance_parts (n : Nat) (s : State) {L : List Piece} (z0 : State) (hk : partsOnly L z0 s) (hL : sub [.spx, .regs] L = true := by simp [*]) : partsOnly L z0 (spxAdvance n s) := by
  simp only [sub_cons, sub_nil, and_true] at hL
  unfold spxAdvance
  dsimp only
  (repeat' split) <;> simp +contextual (maxDischargeDepth := 60) [*]

@[simp] theorem masterStart_parts (n : Nat) (s : State) {L : List Piece} (z0 : State) (hk : partsOnly L z0 s) (hL : sub [.spx, .regs] L = true := by simp [*]) : partsOnly L z0 (masterStart n s) := by
  simp only [sub_cons, sub_nil, and_true] at hL
  unfold masterStart
  dsimp only
  (repeat' split) <;> simp +contextual (maxDischargeDepth := 60) [*]

@[simp] theorem spxStart_parts (n : Nat) (s : State) {L : List Piece} (z0 : State) (hk : partsOnly L z0 s) (hL : sub [.spx, .regs] L = true := by simp [*]) : partsOnly L z0 (spxStart n s) := by
  simp only [sub_cons, sub_nil, and_true] at hL
  unfold spxStart
  simp +contextual (maxDischargeDepth := 60) [*]

@[simp] theorem spxPush_parts (n : Nat) (v : Nat) (a2 : State) {L : List Piece} (z0 : State) (hk : partsOnly L z0 a2) (hL : sub [.spx, .regs] L = true := by simp [*]) : partsOnly L z0 (spxPush n v a2) := by
  simp only [sub_cons, sub_nil, and_true] at hL
  unfold spxPush
  dsimp only
  (repeat' split) <;> simp +contextual (maxDischargeDepth := 60) [*]

@[simp] theorem spxPop_parts (n : Nat) (s : State) {L : List Piece} (z0 : State) (hk : partsOnly L z0 s) (hL : sub [.spx, .regs] L = true := by simp [*]) : partsOnly L z0 (spxPop n s).2 := by
  simp only [sub_cons, sub_nil, and_true] at hL
  unfold spxPop
  (repeat' split) <;> simp +contextual (maxDischargeDepth := 60) [*]

@[simp] theorem spxKeep_parts (n : Nat) (f : SpxFrame) (s : State) {L : List Piece} (z0 : State) (hk : partsOnly L z0 s) (hL : sub [.spx, .regs, .flight] L = true := by simp [*]) : partsOnly L z0 (spxKeep n f s) := by
  simp only [sub_cons, sub_nil, and_true] at hL
  unfold spxKeep
  dsimp only
  (repeat' split) <;> simp +contextual (maxDischargeDepth := 60) [*]

@[simp] theorem spxCommit_parts (n : Nat) (s : State) {L : List Piece} (z0 : State) (hk : partsOnly L z0 s) (hL : sub [.com, .regs] L = true := by simp [*]) : partsOnly L z0 (spxCommit n s) := by
  simp only [sub_cons, sub_nil, and_true] at hL
  unfold spxCommit
  dsimp only
  (repeat' split) <;> simp +contextual (maxDischargeDepth := 60) [*]

@[simp] theorem spxFrameEnd_parts (n : Nat) (s : State) {L : List Piece} (z0 : State) (hk : partsOnly L z0 s) (hL : sub [.com, .regs, .flight] L = true := by simp [*]) : partsOnly L z0 (spxFrameEnd n s) := by
  simp only [sub_cons, sub_nil, and_true] at hL
  unfold spxFrameEnd
  dsimp only
  (repeat' split) <;> simp +contextual (maxDischargeDepth := 60) [*]

@[simp] theorem masterEnd_parts (n : Nat) (data : List Nat) (a2 : State) {L : List Piece} (z0 : State) (hk : partsOnly L z0 a2) (hL : sub [.com, .spx, .regs, .flight] L = true := by simp [*]) : partsOnly L z0 (masterEnd n data a2) := by
  simp only [sub_cons, sub_nil, and_true] at hL
  unfold masterEnd
  dsimp only
  (repeat' split) <;> simp +contextual (maxDischargeDepth := 60) [*]

@[simp] theorem slaveRx_parts (nbits : Nat) (bytes : List Nat) (sent : Nat) (a3 : State) {L : List Piece} (z0 : State) (hk : partsOnly L z0 a3) (hL : sub [.spx, .regs, .flight] L = true := by simp [*]) : partsOnly L z0 (slaveRx nbits bytes sent a3) := by
  simp only [sub_cons, sub_nil, and_true] at hL
  unfold slaveRx
  dsimp only
  (repeat' split) <;> simp +contextual (maxDischargeDepth := 60) [*]

@[simp] theorem spxTxFlush_parts (n : Nat) (s : State) {L : List Piece} (z0 : State) (hk : partsOnly L z0 s) (hL : sub [.spx, .regs] L = true := by simp [*]) : partsOnly L z0 (spxTxFlush n s) := by
  simp only [sub_cons, sub_nil, and_true] at hL
  unfold spxTxFlush
  simp +contextual (maxDischargeDepth := 60) [*]

@[simp] theorem spxRxFlush_parts (n : Nat) (s : State) {L : List Piece} (z0 : State) (hk : partsOnly L z0 s) (hL : sub [.spx, .regs] L = true := by simp [*]) : partsOnly L z0 (spxRxFlush n s) := by
  simp only [sub_cons, sub_nil, and_true] at hL
  unfold spxRxFlush
  simp +contextual (maxDischargeDepth := 60) [*]

@[simp] theorem spxClear_parts (n : Nat) (s : State) {L : List Piece} (z0 : State) (hk : partsOnly L z0 s) (hL : sub [.com, .spx, .regs] L = true := by simp [*]) : partsOnly L z0 (spxClear n s) := by
  simp only [sub_cons, sub_nil, and_true] at hL
  unfold spxClear
  dsimp only
  (repeat' split) <;> simp +contextual (maxDischargeDepth := 60) [*]

@[simp] theorem busError_parts (ini : Nat) (write : Bool) (a : Nat) (kind : Nat) (denied : Bool) (s : State) {L : List Piece} (z0 : State) (hk : partsOnly L z0 s) (hL : sub [.regs] L = true := by simp [*]) : partsOnly L z0 (busError ini write a kind denied s) := by
  simp only [sub_cons, sub_nil, and_true] at hL
  unfold busError
  dsimp only
  (repeat' split) <;> simp +contextual (maxDischargeDepth := 60) [*]

@[simp] theorem spareShow_parts (s : State) {L : List Piece} (z0 : State) (hk : partsOnly L z0 s) (hL : sub [.regs] L = true := by simp [*]) : partsOnly L z0 (spareShow s) := by
  simp only [sub_cons, sub_nil, and_true] at hL
  unfold spareShow
  dsimp only
  (repeat' split) <;> simp +contextual (maxDischargeDepth := 60) [*]

@[simp] theorem spareReplace_parts (arr : Nat) (row : Nat) (s : State) {L : List Piece} (z0 : State) (hk : partsOnly L z0 s) (hL : sub [.age, .par, .mboxes, .regs, .health, .heldNotices, .flight] L = true := by simp [*]) : partsOnly L z0 (spareReplace arr row s) := by
  simp only [sub_cons, sub_nil, and_true] at hL
  unfold spareReplace
  dsimp only
  (repeat' split) <;> simp +contextual (maxDischargeDepth := 60) [*]

@[simp] theorem rowDetect_parts (a : Nat) (s : State) {L : List Piece} (z0 : State) (hk : partsOnly L z0 s) (hL : sub [.age, .par, .mboxes, .regs, .health, .heldNotices, .flight] L = true := by simp [*]) : partsOnly L z0 (rowDetect a s) := by
  simp only [sub_cons, sub_nil, and_true] at hL
  unfold rowDetect
  dsimp only
  (repeat' split) <;> simp +contextual (maxDischargeDepth := 60) [*]

@[simp] theorem ev156_parts (s : State) {L : List Piece} (z0 : State) (hk : partsOnly L z0 s) (hL : sub [.par, .flight] L = true := by simp [*]) : partsOnly L z0 (ev156 s) := by
  simp only [sub_cons, sub_nil, and_true] at hL
  unfold ev156
  dsimp only
  (repeat' split) <;> simp +contextual (maxDischargeDepth := 60) [*]

@[simp] theorem parRecord_parts (w : Nat) (a : Nat) (ini : Nat) (patrol : Bool) (refetched : Bool) (s : State) {L : List Piece} (z0 : State) (hk : partsOnly L z0 s) (hL : sub [.regs] L = true := by simp [*]) : partsOnly L z0 (parRecord w a ini patrol refetched s) := by
  simp only [sub_cons, sub_nil, and_true] at hL
  unfold parRecord
  simp +contextual (maxDischargeDepth := 60) [*]

@[simp] theorem parDetect_parts (a : Nat) (ini : Nat) (patrol : Bool) (s : State) {L : List Piece} (z0 : State) (hk : partsOnly L z0 s) (hL : sub [.age, .par, .mboxes, .regs, .health, .heldNotices, .flight] L = true := by simp [*]) : partsOnly L z0 (parDetect a ini patrol s) := by
  simp only [sub_cons, sub_nil, and_true] at hL
  unfold parDetect
  dsimp only
  (repeat' split) <;> simp +contextual (maxDischargeDepth := 60) [*]

@[simp] theorem fabParity_parts (a : Nat) (ini : Nat) (s : State) {L : List Piece} (z0 : State) (hk : partsOnly L z0 s) (hL : sub [.par, .regs, .flight] L = true := by simp [*]) : partsOnly L z0 (fabParity a ini s) := by
  simp only [sub_cons, sub_nil, and_true] at hL
  unfold fabParity
  simp +contextual (maxDischargeDepth := 60) [*]

@[simp] theorem arrayWrite_parts (a : Nat) (l : List Nat) (loader : Bool) (s : State) {L : List Piece} (z0 : State) (hk : partsOnly L z0 s) (hL : sub [.par, .mem] L = true := by simp [*]) : partsOnly L z0 (arrayWrite a l loader s) := by
  simp only [sub_cons, sub_nil, and_true] at hL
  unfold arrayWrite
  dsimp only
  (repeat' split) <;> simp +contextual (maxDischargeDepth := 60) [*]

@[simp] theorem patrolRead_parts (arr : Nat) (upsets : List Nat) (a2 : State) {L : List Piece} (z0 : State) (hk : partsOnly L z0 a2) (hL : sub [.age, .par, .mboxes, .regs, .health, .heldNotices, .flight] L = true := by simp [*]) : partsOnly L z0 (patrolRead arr upsets a2) := by
  simp only [sub_cons, sub_nil, and_true] at hL
  unfold patrolRead
  dsimp only
  (repeat' split) <;> simp +contextual (maxDischargeDepth := 60) [*]

@[simp] theorem State.drcW_parts (s : State) (f : Drc → Drc) {L : List Piece} (z0 : State) (hk : partsOnly L z0 s) (hL : sub [.drc] L = true := by simp [*]) : partsOnly L z0 (State.drcW s f) := by
  simp only [sub_cons, sub_nil, and_true] at hL
  unfold State.drcW
  simp +contextual (maxDischargeDepth := 60) [*]

@[simp] theorem wqShow_parts (s : State) {L : List Piece} (z0 : State) (hk : partsOnly L z0 s) (hL : sub [.regs] L = true := by simp [*]) : partsOnly L z0 (wqShow s) := by
  simp only [sub_cons, sub_nil, and_true] at hL
  unfold wqShow
  simp +contextual (maxDischargeDepth := 60) [*]

@[simp] theorem pageAccess_parts (b : Nat) (s : State) {L : List Piece} (z0 : State) (hk : partsOnly L z0 s) (hL : sub [.regs, .drc] L = true := by simp [*]) : partsOnly L z0 (pageAccess b s) := by
  simp only [sub_cons, sub_nil, and_true] at hL
  unfold pageAccess
  dsimp only
  (repeat' split) <;> simp +contextual (maxDischargeDepth := 60) [*]

@[simp] theorem wqWrite_parts (e : WqEntry) (s : State) {L : List Piece} (z0 : State) (hk : partsOnly L z0 s) (hL : sub [.regs, .drc, .mem] L = true := by simp [*]) : partsOnly L z0 (wqWrite e s) := by
  simp only [sub_cons, sub_nil, and_true] at hL
  unfold wqWrite
  have h : partsOnly L z0 { s with mem := e.bytes.foldl (fun m p => memWr m (0x80000000 + e.block * 64 + p.1) (BitVec.ofNat 8 p.2)) s.mem } := by simp (maxDischargeDepth := 60) [hL, hk]
  have h1 := pageAccess_parts e.block _ z0 h
  revert h1
  dsimp only
  generalize pageAccess e.block _ = s1
  intro h1
  split
  · simp (maxDischargeDepth := 60) [hL, h1]
  · split <;> simp (maxDischargeDepth := 60) [hL, h1]

@[simp] theorem wqAdd_parts (ini : Nat) (a : Nat) (l : List Nat) (s : State) {L : List Piece} (z0 : State) (hk : partsOnly L z0 s) (hL : sub [.regs, .drc] L = true := by simp [*]) : partsOnly L z0 (wqAdd ini a l s) := by
  simp only [sub_cons, sub_nil, and_true] at hL
  unfold wqAdd
  dsimp only
  (repeat' split) <;> simp +contextual (maxDischargeDepth := 60) [*]

@[simp] theorem wqFlushSpan_parts (a : Nat) (n : Nat) (s : State) {L : List Piece} (z0 : State) (hk : partsOnly L z0 s) (hL : sub [.regs, .drc, .mem] L = true := by simp [*]) : partsOnly L z0 (wqFlushSpan a n s) := by
  simp only [sub_cons, sub_nil, and_true] at hL
  unfold wqFlushSpan
  refine parts_foldl _ _ _ (fun x a h => ?_) hk
  split <;> simp (maxDischargeDepth := 60) [hL, h]

@[simp] theorem dramFail_parts (b : Nat) (ini : Nat) (s : State) {L : List Piece} (z0 : State) (hk : partsOnly L z0 s) (hL : sub [.regs, .flight] L = true := by simp [*]) : partsOnly L z0 (dramFail b ini s) := by
  simp only [sub_cons, sub_nil, and_true] at hL
  unfold dramFail
  simp +contextual (maxDischargeDepth := 60) [*]

@[simp] theorem dramServe_parts (ini : Nat) (a : Nat) (n : Nat) (a3 : State) {L : List Piece} (z0 : State) (hk : partsOnly L z0 a3) (hL : sub [.regs, .drc, .mem, .flight] L = true := by simp [*]) : partsOnly L z0 (dramServe ini a n a3).2 := by
  simp only [sub_cons, sub_nil, and_true] at hL
  unfold dramServe
  dsimp only
  (repeat' split) <;> simp +contextual (maxDischargeDepth := 60) [*]

@[simp] theorem dramPut_parts (ini : Nat) (a : Nat) (l : List Nat) (s : State) {L : List Piece} (z0 : State) (hk : partsOnly L z0 s) (hL : sub [.regs, .drc, .mem] L = true := by simp [*]) : partsOnly L z0 (dramPut ini a l s) := by
  simp only [sub_cons, sub_nil, and_true] at hL
  unfold dramPut
  refine parts_foldl _ _ _ (fun x a h => ?_) hk
  dsimp only
  (repeat' split) <;> simp (maxDischargeDepth := 60) [hL, h]

@[simp] theorem reqLate_parts (s : State) {L : List Piece} (z0 : State) (hk : partsOnly L z0 s) (hL : sub [.regs, .drc] L = true := by simp [*]) : partsOnly L z0 (reqLate s) := by
  simp only [sub_cons, sub_nil, and_true] at hL
  unfold reqLate
  dsimp only
  (repeat' split) <;> simp +contextual (maxDischargeDepth := 60) [*]

@[simp] theorem dramIssue_parts (upset : Nat) (a1 : State) {L : List Piece} (z0 : State) (hk : partsOnly L z0 a1) (hL : sub [.regs, .drc, .mem, .flight] L = true := by simp [*]) : partsOnly L z0 (dramIssue upset a1) := by
  simp only [sub_cons, sub_nil, and_true] at hL
  unfold dramIssue
  dsimp only
  (repeat' split) <;> simp +contextual (maxDischargeDepth := 60) [*]

@[simp] theorem drain_parts (i : Nat) (s : State) {L : List Piece} (z0 : State) (hk : partsOnly L z0 s) (hL : sub [.regs, .drc, .mem] L = true := by simp [*]) : partsOnly L z0 (drain i s) := by
  simp only [sub_cons, sub_nil, and_true] at hL
  unfold drain
  (repeat' split) <;> simp +contextual (maxDischargeDepth := 60) [*]

@[simp] theorem tempPoll_parts (temp : Nat) (s : State) {L : List Piece} (z0 : State) (hk : partsOnly L z0 s) (hL : sub [.mboxes, .regs, .health, .freeCtr, .heldNotices, .drc, .flight] L = true := by simp [*]) : partsOnly L z0 (tempPoll temp s) := by
  simp only [sub_cons, sub_nil, and_true] at hL
  unfold tempPoll
  dsimp only
  (repeat' split) <;> simp +contextual (maxDischargeDepth := 60) [*]

@[simp] theorem dqsMeasure_parts (drift : Bool) (s : State) {L : List Piece} (z0 : State) (hk : partsOnly L z0 s) (hL : sub [.regs, .drc] L = true := by simp [*]) : partsOnly L z0 (dqsMeasure drift s) := by
  simp only [sub_cons, sub_nil, and_true] at hL
  unfold dqsMeasure
  dsimp only
  (repeat' split) <;> simp +contextual (maxDischargeDepth := 60) [*]

@[simp] theorem fullRetrain_parts (s : State) {L : List Piece} (z0 : State) (hk : partsOnly L z0 s) (hL : sub [.regs, .drc, .flight] L = true := by simp [*]) : partsOnly L z0 (fullRetrain s) := by
  simp only [sub_cons, sub_nil, and_true] at hL
  unfold fullRetrain
  simp +contextual (maxDischargeDepth := 60) [*]

@[simp] theorem engineRead_parts (ini : Nat) (a : Nat) (n : Nat) (s : State) {L : List Piece} (z0 : State) (hk : partsOnly L z0 s) (hL : sub [.age, .par, .mboxes, .regs, .health, .heldNotices, .drc, .mem, .flight] L = true := by simp [*]) : partsOnly L z0 (engineRead ini a n s).2 := by
  simp only [sub_cons, sub_nil, and_true] at hL
  unfold engineRead
  (repeat' split) <;> simp +contextual (maxDischargeDepth := 60) [*]

@[simp] theorem engineWrite_parts (ini : Nat) (a : Nat) (l : List Nat) (s : State) {L : List Piece} (z0 : State) (hk : partsOnly L z0 s) (hL : sub [.par, .regs, .drc, .mem] L = true := by simp [*]) : partsOnly L z0 (engineWrite ini a l s) := by
  simp only [sub_cons, sub_nil, and_true] at hL
  unfold engineWrite
  simp +contextual (maxDischargeDepth := 60) [*]

@[simp] theorem State.flcW_parts (s : State) (f : Flc → Flc) {L : List Piece} (z0 : State) (hk : partsOnly L z0 s) (hL : sub [.flc] L = true := by simp [*]) : partsOnly L z0 (State.flcW s f) := by
  simp only [sub_cons, sub_nil, and_true] at hL
  unfold State.flcW
  simp +contextual (maxDischargeDepth := 60) [*]

@[simp] theorem flcShow_parts (s : State) {L : List Piece} (z0 : State) (hk : partsOnly L z0 s) (hL : sub [.regs] L = true := by simp [*]) : partsOnly L z0 (flcShow s) := by
  simp only [sub_cons, sub_nil, and_true] at hL
  unfold flcShow
  simp +contextual (maxDischargeDepth := 60) [*]

@[simp] theorem roEnter_parts (s : State) {L : List Piece} (z0 : State) (hk : partsOnly L z0 s) (hL : sub [.mboxes, .regs, .health, .heldNotices, .flight] L = true := by simp [*]) : partsOnly L z0 (roEnter s) := by
  simp only [sub_cons, sub_nil, and_true] at hL
  unfold roEnter
  simp +contextual (maxDischargeDepth := 60) [*]

@[simp] theorem blockRetire_parts (p : Nat) (l : Nat) (cause : Nat) (s : State) {L : List Piece} (z0 : State) (hk : partsOnly L z0 s) (hL : sub [.age, .mboxes, .flc, .regs, .health, .heldNotices, .flight] L = true := by simp [*]) : partsOnly L z0 (blockRetire p l cause s) := by
  simp only [sub_cons, sub_nil, and_true] at hL
  unfold blockRetire
  dsimp only
  (repeat' split) <;> simp +contextual (maxDischargeDepth := 60) [*]

@[simp] theorem spareTake_parts (pl : Nat) (l : Nat) (cause : Nat) (fails : Nat) (s : State) {L : List Piece} (z0 : State) (hk : partsOnly L z0 s) (hL : sub [.age, .mboxes, .flc, .regs, .health, .heldNotices, .flight] L = true := by simp [*]) : partsOnly L z0 (spareTake pl l cause fails s).2 := by
  simp only [sub_cons, sub_nil, and_true] at hL
  induction fails generalizing s with
  | zero => unfold spareTake; split <;> simp (maxDischargeDepth := 60) [hL, hk]
  | succ n ih =>
    unfold spareTake
    split
    · exact hk
    · exact ih _ (by simp (maxDischargeDepth := 60) [hL, hk])

@[simp] theorem blockErase_parts (p : Nat) (s : State) {L : List Piece} (z0 : State) (hk : partsOnly L z0 s) (hL : sub [.flc] L = true := by simp [*]) : partsOnly L z0 (blockErase p s) := by
  simp only [sub_cons, sub_nil, and_true] at hL
  unfold blockErase
  simp +contextual (maxDischargeDepth := 60) [*]

@[simp] theorem pageProgram_parts (p : Nat) (page : Nat) (data : List Nat) (mt : List Nat) (s : State) {L : List Piece} (z0 : State) (hk : partsOnly L z0 s) (hL : sub [.flc] L = true := by simp [*]) : partsOnly L z0 (pageProgram p page data mt s) := by
  simp only [sub_cons, sub_nil, and_true] at hL
  unfold pageProgram
  simp +contextual (maxDischargeDepth := 60) [*]

@[simp] theorem blockMap_parts (l : Nat) (p : Nat) (s : State) {L : List Piece} (z0 : State) (hk : partsOnly L z0 s) (hL : sub [.flc] L = true := by simp [*]) : partsOnly L z0 (blockMap l p s) := by
  simp only [sub_cons, sub_nil, and_true] at hL
  unfold blockMap
  simp +contextual (maxDischargeDepth := 60) [*]

@[simp] theorem blockCopy_parts (old : Nat) (new : Nat) (upTo : Nat) (lost : List Nat) (s : State) {L : List Piece} (z0 : State) (hk : partsOnly L z0 s) (hL : sub [.flc] L = true := by simp [*]) : partsOnly L z0 (blockCopy old new upTo lost s) := by
  simp only [sub_cons, sub_nil, and_true] at hL
  unfold blockCopy
  refine parts_foldl _ _ _ (fun x a h => ?_) hk
  split
  · split <;> simp (maxDischargeDepth := 60) [hL, h]
  · exact h

@[simp] theorem xoWrite_parts (n : Nat) (v : Nat) (customer : Bool) (s : State) {L : List Piece} (z0 : State) (hk : partsOnly L z0 s) (hL : sub [.regs] L = true := by simp [*]) : partsOnly L z0 (xoWrite n v customer s) := by
  simp only [sub_cons, sub_nil, and_true] at hL
  unfold xoWrite
  dsimp only
  (repeat' split) <;> simp +contextual (maxDischargeDepth := 60) [*]

@[simp] theorem qShow_parts (s : State) {L : List Piece} (z0 : State) (hk : partsOnly L z0 s) (hL : sub [.regs, .flight] L = true := by simp [*]) : partsOnly L z0 (qShow s) := by
  simp only [sub_cons, sub_nil, and_true] at hL
  unfold qShow
  dsimp only
  (repeat' split) <;> simp +contextual (maxDischargeDepth := 60) [*]

@[simp] theorem flcDoorbell_parts (v : Nat) (s : State) {L : List Piece} (z0 : State) (hk : partsOnly L z0 s) (hL : sub [.regs, .flight] L = true := by simp [*]) : partsOnly L z0 (flcDoorbell v s) := by
  simp only [sub_cons, sub_nil, and_true] at hL
  unfold flcDoorbell
  dsimp only
  (repeat' split) <;> simp +contextual (maxDischargeDepth := 60) [*]

@[simp] theorem flcCack_parts (v : Nat) (s : State) {L : List Piece} (z0 : State) (hk : partsOnly L z0 s) (hL : sub [.regs, .flight] L = true := by simp [*]) : partsOnly L z0 (flcCack v s) := by
  simp only [sub_cons, sub_nil, and_true] at hL
  unfold flcCack
  dsimp only
  (repeat' split) <;> simp +contextual (maxDischargeDepth := 60) [*]

@[simp] theorem flcComplete_parts (d : FDesc) (r : FDone) (s : State) {L : List Piece} (z0 : State) (hk : partsOnly L z0 s) (hL : sub [.par, .flc, .regs, .drc, .mem, .flight] L = true := by simp [*]) : partsOnly L z0 (flcComplete d r s) := by
  simp only [sub_cons, sub_nil, and_true] at hL
  unfold flcComplete
  dsimp only
  (repeat' split) <;> simp +contextual (maxDischargeDepth := 60) [*]

@[simp] theorem flcDone_parts (d : FDesc) (r : FDone) (s : State) {L : List Piece} (z0 : State) (hk : partsOnly L z0 s) (hL : sub [.par, .flc, .regs, .drc, .mem, .flight] L = true := by simp [*]) : partsOnly L z0 (flcDone d r s) := by
  simp only [sub_cons, sub_nil, and_true] at hL
  unfold flcDone
  simp +contextual (maxDischargeDepth := 60) [*]

@[simp] theorem flcEn_parts (v : Nat) (s : State) {L : List Piece} (z0 : State) (hk : partsOnly L z0 s) (hL : sub [.par, .flc, .regs, .drc, .mem, .flight] L = true := by simp [*]) : partsOnly L z0 (flcEn v s) := by
  simp only [sub_cons, sub_nil, and_true] at hL
  unfold flcEn
  dsimp only
  (repeat' split) <;> simp +contextual (maxDischargeDepth := 60) [*]

@[simp] theorem qReinit_parts (s : State) {L : List Piece} (z0 : State) (hk : partsOnly L z0 s) (hL : sub [.regs, .flight] L = true := by simp [*]) : partsOnly L z0 (qReinit s) := by
  simp only [sub_cons, sub_nil, and_true] at hL
  unfold qReinit
  simp +contextual (maxDischargeDepth := 60) [*]

@[simp] theorem qHWrite_parts (f : Field) (v : Nat) (ok : Bool) (s : State) {L : List Piece} (z0 : State) (hk : partsOnly L z0 s) (hL : sub [.regs, .flight] L = true := by simp [*]) : partsOnly L z0 (qHWrite f v ok s) := by
  simp only [sub_cons, sub_nil, and_true] at hL
  unfold qHWrite
  simp +contextual (maxDischargeDepth := 60) [*]

@[simp] theorem descTake_parts (a0 : State) {L : List Piece} (z0 : State) (hk : partsOnly L z0 a0) (hL : sub [.age, .par, .mboxes, .flc, .regs, .health, .heldNotices, .drc, .mem, .flight] L = true := by simp [*]) : partsOnly L z0 (descTake a0) := by
  simp only [sub_cons, sub_nil, and_true] at hL
  unfold descTake
  dsimp only
  (repeat' split) <;> simp +contextual (maxDischargeDepth := 60) [*]

@[simp] theorem flcStart_parts (pl : Nat) (s : State) {L : List Piece} (z0 : State) (hk : partsOnly L z0 s) (hL : sub [.par, .flc, .regs, .drc, .mem, .flight] L = true := by simp [*]) : partsOnly L z0 (flcStart pl s) := by
  simp only [sub_cons, sub_nil, and_true] at hL
  unfold flcStart
  dsimp only
  (repeat' split) <;> simp +contextual (maxDischargeDepth := 60) [*]

@[simp] theorem eraseSuspend_parts (pl : Nat) (s : State) {L : List Piece} (z0 : State) (hk : partsOnly L z0 s) (hL : sub [.flc, .regs] L = true := by simp [*]) : partsOnly L z0 (eraseSuspend pl s) := by
  simp only [sub_cons, sub_nil, and_true] at hL
  unfold eraseSuspend
  (repeat' split) <;> simp +contextual (maxDischargeDepth := 60) [*]

@[simp] theorem eraseResume_parts (pl : Nat) (s : State) {L : List Piece} (z0 : State) (hk : partsOnly L z0 s) (hL : sub [.flc, .regs] L = true := by simp [*]) : partsOnly L z0 (eraseResume pl s) := by
  simp only [sub_cons, sub_nil, and_true] at hL
  unfold eraseResume
  (repeat' split) <;> simp +contextual (maxDischargeDepth := 60) [*]

@[simp] theorem groupMod_parts (l : Nat) (g : GroupWear → GroupWear) (s : State) {L : List Piece} (z0 : State) (hk : partsOnly L z0 s) (hL : sub [.flc] L = true := by simp [*]) : partsOnly L z0 (groupMod l g s) := by
  simp only [sub_cons, sub_nil, and_true] at hL
  unfold groupMod
  simp +contextual (maxDischargeDepth := 60) [*]

@[simp] theorem readCount_parts (l : Nat) (o : PageOut) (s : State) {L : List Piece} (z0 : State) (hk : partsOnly L z0 s) (hL : sub [.flc, .regs] L = true := by simp [*]) : partsOnly L z0 (readCount l o s) := by
  simp only [sub_cons, sub_nil, and_true] at hL
  unfold readCount
  dsimp only
  (repeat' split) <;> simp +contextual (maxDischargeDepth := 60) [*]

@[simp] theorem readUnc_parts (l : Nat) (s : State) {L : List Piece} (z0 : State) (hk : partsOnly L z0 s) (hL : sub [.mboxes, .regs, .health, .heldNotices, .flight] L = true := by simp [*]) : partsOnly L z0 (readUnc l s) := by
  simp only [sub_cons, sub_nil, and_true] at hL
  unfold readUnc
  simp +contextual (maxDischargeDepth := 60) [*]

theorem readSink_parts (d : FDesc) (l : Nat) (i : Nat) (s : State) {L : List Piece} (z0 : State) (hk : partsOnly L z0 s) (hL : sub [.par, .regs, .drc, .mem] L = true := by simp [*]) : ∀ t, readSink d l i s = some t → partsOnly L z0 t := by
  simp only [sub_cons, sub_nil, and_true] at hL
  unfold readSink
  dsimp only
  (repeat' split) <;> simp +contextual (maxDischargeDepth := 60) [*]

theorem loadSink_parts (d : FDesc) (l : Nat) (i : Nat) (s : State) {L : List Piece} (z0 : State) (hk : partsOnly L z0 s) (hL : sub [.par, .flc, .mem] L = true := by simp [*]) : ∀ t, loadSink d l i s = some t → partsOnly L z0 t := by
  simp only [sub_cons, sub_nil, and_true] at hL
  unfold loadSink
  dsimp only
  (repeat' split) <;> simp +contextual (maxDischargeDepth := 60) [*]

@[simp] theorem progFetch_parts (d : FDesc) (s : State) {L : List Piece} (z0 : State) (hk : partsOnly L z0 s) (hL : sub [.age, .par, .mboxes, .regs, .health, .heldNotices, .drc, .mem, .flight] L = true := by simp [*]) : partsOnly L z0 (progFetch d s).2 := by
  simp only [sub_cons, sub_nil, and_true] at hL
  unfold progFetch
  refine foldl_keeps (fun (x : Option (List (List Nat × List Nat)) × State) => partsOnly L z0 x.2) _ _ _ (fun x i h => ?_) hk
  obtain ⟨a, t⟩ := x
  cases a with
  | none => exact h
  | some ps =>
    dsimp only
    split
    · exact h
    · have h1 := engineRead_parts 16 (d.buf + 4096 * i) 4096 t z0 h
      revert h1
      generalize engineRead 16 (d.buf + 4096 * i) 4096 t = e
      obtain ⟨b, t1⟩ := e
      intro h1
      have h2 : partsOnly L z0 t1 := h1
      by_cases hm : d.meta_ = 0
      · simp only [hm, if_true]
        split <;> exact h2
      · simp only [hm, if_false]
        have h3 := engineRead_parts 16 (d.meta_ + 16 * i) 16 t1 z0 h2
        revert h3
        generalize engineRead 16 (d.meta_ + 16 * i) 16 t1 = e
        obtain ⟨m, t2⟩ := e
        intro h3
        dsimp only
        split <;> exact h3

@[simp] theorem progPages_parts (p : Nat) (page : Nat) (ps : List (List Nat × List Nat)) (s : State) {L : List Piece} (z0 : State) (hk : partsOnly L z0 s) (hL : sub [.flc] L = true := by simp [*]) : partsOnly L z0 (progPages p page ps s) := by
  simp only [sub_cons, sub_nil, and_true] at hL
  unfold progPages
  simp +contextual (maxDischargeDepth := 60) [*]

@[simp] theorem progEnd_parts (d : FDesc) (o : FlashOut) (r : FDone) (a3 : State) {L : List Piece} (z0 : State) (hk : partsOnly L z0 a3) (hL : sub [.age, .par, .mboxes, .flc, .regs, .health, .heldNotices, .drc, .mem, .flight] L = true := by simp [*]) : partsOnly L z0 (progEnd d o r a3) := by
  simp only [sub_cons, sub_nil, and_true] at hL
  unfold progEnd
  have h1 := progFetch_parts d a3 z0 hk
  revert h1
  dsimp only
  generalize progFetch d a3 = e
  obtain ⟨ps, s1⟩ := e
  intro h1
  have h2 : partsOnly L z0 s1 := h1
  cases ps with
  | none => simp (maxDischargeDepth := 60) [hL, h2]
  | some ps =>
    dsimp only
    split
    · simp (maxDischargeDepth := 60) [hL, h2]
    · next i _ =>
      generalize physOf (groupMod (dBlk a3 d) (fun g => { g with progs := g.progs + d.npage, pulses := g.pulses + o.pulses * d.npage }) s1) (dBlk a3 d) = old
      have h3 : partsOnly L z0 ((progPages old d.page (ps.take (min i (d.npage - 1))) (groupMod (dBlk a3 d) (fun g => { g with progs := g.progs + d.npage, pulses := g.pulses + o.pulses * d.npage }) s1)).inc Reg.FLC_PFAILCNT) := by
        simp (maxDischargeDepth := 60) [hL, h2]
      have h4 := spareTake_parts (planeOf old) (dBlk a3 d) 1 o.spareFails _ z0 h3
      revert h4
      generalize spareTake (planeOf old) (dBlk a3 d) 1 o.spareFails _ = e
      obtain ⟨p, s3⟩ := e
      intro h4
      have h5 : partsOnly L z0 s3 := h4
      cases p with
      | none => simp (maxDischargeDepth := 60) [hL, h5]
      | some p => simp (maxDischargeDepth := 60) [hL, h5]

@[simp] theorem flcCut_parts (a0 : State) {L : List Piece} (z0 : State) (hk : partsOnly L z0 a0) (hL : sub [.age, .par, .mboxes, .flc, .regs, .health, .freeCtr, .heldNotices, .drc, .mem, .flight] L = true := by simp [*]) : partsOnly L z0 (flcCut a0) := by
  simp only [sub_cons, sub_nil, and_true] at hL
  unfold flcCut
  dsimp only
  (repeat' split) <;> simp +contextual (maxDischargeDepth := 60) [*]

@[simp] theorem eraseEnd_parts (d : FDesc) (o : FlashOut) (r : FDone) (s : State) {L : List Piece} (z0 : State) (hk : partsOnly L z0 s) (hL : sub [.age, .par, .mboxes, .flc, .regs, .health, .heldNotices, .drc, .mem, .flight] L = true := by simp [*]) : partsOnly L z0 (eraseEnd d o r s) := by
  simp only [sub_cons, sub_nil, and_true] at hL
  unfold eraseEnd
  dsimp only
  split
  · simp (maxDischargeDepth := 60) [hL, hk]
  · have h0 : partsOnly L z0 (blockRetire (physOf s (dBlk s d)) (dBlk s d) 2 (s.inc Reg.FLC_EFAILCNT)) := by simp (maxDischargeDepth := 60) [hL, hk]
    have h1 := spareTake_parts (planeOf (physOf s (dBlk s d))) (dBlk s d) 2 o.spareFails _ z0 h0
    split
    · next h => rw [h] at h1; simp (maxDischargeDepth := 60) [hL, show partsOnly L z0 _ from h1]
    · next h => rw [h] at h1; simp (maxDischargeDepth := 60) [hL, show partsOnly L z0 _ from h1]

theorem readPage_parts {L : List Piece} (l page i : Nat) (o : PageOut) (sink : Nat → State → Option State) (a : ReadAcc) (z0 : State)
    (hs : ∀ (i : Nat) (x t : State), partsOnly L z0 x → sink i x = some t → partsOnly L z0 t) (hk : partsOnly L z0 a.st) (hL : sub [.mboxes, .flc, .regs, .health, .heldNotices, .flight] L = true := by simp [*]) : partsOnly L z0 (readPage l page i o sink a).st := by
  simp only [sub_cons, sub_nil, and_true] at hL
  unfold readPage
  split
  · exact hk
  · have h0 : ∀ p, partsOnly L z0 (readCount l p a.st) := fun p => readCount_parts l p a.st z0 hk
    dsimp only
    generalize (if (pageAt a.st l page).isNone = true then PageOut.clean else o) = p
    split
    · exact readUnc_parts _ _ _ (h0 p)
    · split
      · exact h0 p
      · next h => exact hs _ _ _ (h0 p) h

theorem readRun_parts {L : List Piece} (d : FDesc) (l : Nat) (o : FlashOut) (sink : Nat → State → Option State) (r : FDone) (s z0 : State)
    (hs : ∀ (i : Nat) (x t : State), partsOnly L z0 x → sink i x = some t → partsOnly L z0 t) (hk : partsOnly L z0 s) (hL : sub [.mboxes, .flc, .regs, .health, .heldNotices, .flight] L = true := by simp [*]) : partsOnly L z0 (readRun d l o sink r s).st := by
  simp only [sub_cons, sub_nil, and_true] at hL
  unfold readRun
  exact foldl_keeps (fun (a : ReadAcc) => partsOnly L z0 a.st) _ _ _ (fun a i h => readPage_parts _ _ _ _ _ _ _ hs h) hk

@[simp] theorem flashEnd_parts (pl : Nat) (o : FlashOut) (s : State) {L : List Piece} (z0 : State) (hk : partsOnly L z0 s) (hL : sub [.age, .par, .mboxes, .flc, .regs, .health, .heldNotices, .drc, .mem, .flight] L = true := by simp [*]) : partsOnly L z0 (flashEnd pl o s) := by
  simp only [sub_cons, sub_nil, and_true] at hL
  unfold flashEnd
  split
  · exact hk
  · next run _ =>
    have h1 : partsOnly L z0 (s.flcW (fun f => { f with run := del pl f.run })) := by simp (maxDischargeDepth := 60) [hL, hk]
    dsimp only
    split
    · exact flcDone_parts _ _ _ _ (readRun_parts _ _ _ _ _ _ _ (fun i x t h e => readSink_parts _ _ _ x z0 h (by simp [*]) t e) h1)
    · exact flcDone_parts _ _ _ _ (readRun_parts _ _ _ _ _ _ _ (fun i x t h e => loadSink_parts _ _ _ x z0 h (by simp [*]) t e) h1)
    · simp (maxDischargeDepth := 60) [hL, h1]
    · simp (maxDischargeDepth := 60) [hL, h1]

@[simp] theorem loaderRead_parts (i : Nat) (o : PageOut) (s : State) {L : List Piece} (z0 : State) (hk : partsOnly L z0 s) (hL : sub [.mboxes, .flc, .regs, .health, .heldNotices, .flight] L = true := by simp [*]) : partsOnly L z0 (loaderRead i o s) := by
  simp only [sub_cons, sub_nil, and_true] at hL
  unfold loaderRead
  dsimp only
  (repeat' split) <;> simp +contextual (maxDischargeDepth := 60) [*]

@[simp] theorem rowRefetch_parts (i : Nat) (s : State) {L : List Piece} (z0 : State) (hk : partsOnly L z0 s) (hL : sub [.par, .flc, .regs, .mem] L = true := by simp [*]) : partsOnly L z0 (rowRefetch i s) := by
  simp only [sub_cons, sub_nil, and_true] at hL
  unfold rowRefetch
  dsimp only
  (repeat' split) <;> simp +contextual (maxDischargeDepth := 60) [*]

@[simp] theorem blockRefresh_parts (l : Nat) (fails : Bool) (s : State) {L : List Piece} (z0 : State) (hk : partsOnly L z0 s) (hL : sub [.age, .mboxes, .flc, .regs, .health, .heldNotices, .flight] L = true := by simp [*]) : partsOnly L z0 (blockRefresh l fails s) := by
  simp only [sub_cons, sub_nil, and_true] at hL
  unfold blockRefresh
  have h1 := spareTake_parts (planeOf (physOf s l)) l 2 0 s z0 hk
  dsimp only
  split
  · next h => rw [h] at h1; exact h1
  · next h => rw [h] at h1; split <;> simp (maxDischargeDepth := 60) [hL, show partsOnly L z0 _ from h1]

@[simp] theorem scrubRun_parts (first : Nat) (nblk : Nat) (outs : List (Nat × PageOut)) (s : State) {L : List Piece} (z0 : State) (hk : partsOnly L z0 s) (hL : sub [.mboxes, .flc, .regs, .health, .heldNotices, .flight] L = true := by simp [*]) : partsOnly L z0 (scrubRun first nblk outs s).2 := by
  simp only [sub_cons, sub_nil, and_true] at hL
  unfold scrubRun
  refine foldl_keeps (fun (x : Nat × State) => partsOnly L z0 x.2) _ _ _ (fun x i h => ?_) hk
  dsimp only
  split
  · split <;> simp (maxDischargeDepth := 60) [hL, show partsOnly L z0 x.2 from h]
  · exact h

@[simp] theorem scrubRefresh_parts (first : Nat) (nblk : Nat) (s : State) {L : List Piece} (z0 : State) (hk : partsOnly L z0 s) (hL : sub [.age, .mboxes, .flc, .regs, .health, .heldNotices, .flight] L = true := by simp [*]) : partsOnly L z0 (scrubRefresh first nblk s) := by
  simp only [sub_cons, sub_nil, and_true] at hL
  unfold scrubRefresh
  simp +contextual (maxDischargeDepth := 60) [*]

@[simp] theorem autoScrub_parts (outs : List (Nat × PageOut)) (s : State) {L : List Piece} (z0 : State) (hk : partsOnly L z0 s) (hL : sub [.age, .mboxes, .flc, .regs, .health, .heldNotices, .flight] L = true := by simp [*]) : partsOnly L z0 (autoScrub outs s) := by
  simp only [sub_cons, sub_nil, and_true] at hL
  unfold autoScrub
  simp +contextual (maxDischargeDepth := 60) [*]

@[simp] theorem alFire_parts (s : State) {L : List Piece} (z0 : State) (hk : partsOnly L z0 s) (hL : sub [.regs, .flight] L = true := by simp [*]) : partsOnly L z0 (alFire s) := by
  simp only [sub_cons, sub_nil, and_true] at hL
  unfold alFire
  simp +contextual (maxDischargeDepth := 60) [*]

@[simp] theorem rtcPutDate_parts (y : Nat) (m : Nat) (d : Nat) (s : State) {L : List Piece} (z0 : State) (hk : partsOnly L z0 s) (hL : sub [.regs] L = true := by simp [*]) : partsOnly L z0 (rtcPutDate y m d s) := by
  simp only [sub_cons, sub_nil, and_true] at hL
  unfold rtcPutDate
  simp +contextual (maxDischargeDepth := 60) [*]

@[simp] theorem rtcPutTime_parts (h : Nat) (mi : Nat) (sec : Nat) (s : State) {L : List Piece} (z0 : State) (hk : partsOnly L z0 s) (hL : sub [.regs] L = true := by simp [*]) : partsOnly L z0 (rtcPutTime h mi sec s) := by
  simp only [sub_cons, sub_nil, and_true] at hL
  unfold rtcPutTime
  simp +contextual (maxDischargeDepth := 60) [*]

@[simp] theorem rtcMidnight_parts (s : State) {L : List Piece} (z0 : State) (hk : partsOnly L z0 s) (hL : sub [.regs] L = true := by simp [*]) : partsOnly L z0 (rtcMidnight s) := by
  simp only [sub_cons, sub_nil, and_true] at hL
  unfold rtcMidnight
  dsimp only
  (repeat' split) <;> simp +contextual (maxDischargeDepth := 60) [*]

@[simp] theorem rtcTick_parts (s : State) {L : List Piece} (z0 : State) (hk : partsOnly L z0 s) (hL : sub [.regs] L = true := by simp [*]) : partsOnly L z0 (rtcTick s) := by
  simp only [sub_cons, sub_nil, and_true] at hL
  unfold rtcTick
  dsimp only
  (repeat' split) <;> simp +contextual (maxDischargeDepth := 60) [*]

@[simp] theorem secondAdvance_parts (s : State) {L : List Piece} (z0 : State) (hk : partsOnly L z0 s) (hL : sub [.rtc, .regs, .flight] L = true := by simp [*]) : partsOnly L z0 (secondAdvance s) := by
  simp only [sub_cons, sub_nil, and_true] at hL
  unfold secondAdvance
  dsimp only
  (repeat' split) <;> simp +contextual (maxDischargeDepth := 60) [*]

@[simp] theorem rtcReadTime_parts (ini : Nat) (s : State) {L : List Piece} (z0 : State) (hk : partsOnly L z0 s) (hL : sub [.rtc] L = true := by simp [*]) : partsOnly L z0 (rtcReadTime ini s).2 := by
  simp only [sub_cons, sub_nil, and_true] at hL
  unfold rtcReadTime
  dsimp only
  (repeat' split) <;> simp +contextual (maxDischargeDepth := 60) [*]

@[simp] theorem rtcSet_parts (s : State) {L : List Piece} (z0 : State) (hk : partsOnly L z0 s) (hL : sub [.rtc, .com, .firn, .regs] L = true := by simp [*]) : partsOnly L z0 (rtcSet s) := by
  simp only [sub_cons, sub_nil, and_true] at hL
  unfold rtcSet
  dsimp only
  (repeat' split) <;> simp +contextual (maxDischargeDepth := 60) [*]

@[simp] theorem rtcSetCommit_parts (s : State) {L : List Piece} (z0 : State) (hk : partsOnly L z0 s) (hL : sub [.rtc, .com, .firn, .regs, .flight] L = true := by simp [*]) : partsOnly L z0 (rtcSetCommit s) := by
  simp only [sub_cons, sub_nil, and_true] at hL
  unfold rtcSetCommit
  dsimp only
  (repeat' split) <;> simp +contextual (maxDischargeDepth := 60) [*]

@[simp] theorem rtcApply_parts (s : State) {L : List Piece} (z0 : State) (hk : partsOnly L z0 s) (hL : sub [.rtc, .regs] L = true := by simp [*]) : partsOnly L z0 (rtcApply s) := by
  simp only [sub_cons, sub_nil, and_true] at hL
  unfold rtcApply
  dsimp only
  (repeat' split) <;> simp +contextual (maxDischargeDepth := 60) [*]

@[simp] theorem rtcWakeWrite_parts (v : Nat) (s : State) {L : List Piece} (z0 : State) (hk : partsOnly L z0 s) (hL : sub [.rtc, .regs] L = true := by simp [*]) : partsOnly L z0 (rtcWakeWrite v s) := by
  simp only [sub_cons, sub_nil, and_true] at hL
  unfold rtcWakeWrite
  dsimp only
  (repeat' split) <;> simp +contextual (maxDischargeDepth := 60) [*]

@[simp] theorem periodicWake_parts (s : State) {L : List Piece} (z0 : State) (hk : partsOnly L z0 s) (hL : sub [.rtc, .regs, .flight] L = true := by simp [*]) : partsOnly L z0 (periodicWake s) := by
  simp only [sub_cons, sub_nil, and_true] at hL
  unfold periodicWake
  dsimp only
  (repeat' split) <;> simp +contextual (maxDischargeDepth := 60) [*]

@[simp] theorem xtalFail_parts (s : State) {L : List Piece} (z0 : State) (hk : partsOnly L z0 s) (hL : sub [.rtc, .regs, .flight] L = true := by simp [*]) : partsOnly L z0 (xtalFail s) := by
  simp only [sub_cons, sub_nil, and_true] at hL
  unfold xtalFail
  dsimp only
  (repeat' split) <;> simp +contextual (maxDischargeDepth := 60) [*]

@[simp] theorem xtalReturn_parts (s : State) {L : List Piece} (z0 : State) (hk : partsOnly L z0 s) (hL : sub [.rtc, .regs] L = true := by simp [*]) : partsOnly L z0 (xtalReturn s) := by
  simp only [sub_cons, sub_nil, and_true] at hL
  unfold xtalReturn
  dsimp only
  (repeat' split) <;> simp +contextual (maxDischargeDepth := 60) [*]

@[simp] theorem coarseOffsetWrite_parts (s : State) {L : List Piece} (z0 : State) (hk : partsOnly L z0 s) (hL : sub [.firn, .regs] L = true := by simp [*]) : partsOnly L z0 (coarseOffsetWrite s) := by
  simp only [sub_cons, sub_nil, and_true] at hL
  unfold coarseOffsetWrite
  dsimp only
  (repeat' split) <;> simp +contextual (maxDischargeDepth := 60) [*]

@[simp] theorem firnRestore_parts (s : State) {L : List Piece} (z0 : State) (hk : partsOnly L z0 s) (hL : sub [.firn, .regs] L = true := by simp [*]) : partsOnly L z0 (firnRestore s) := by
  simp only [sub_cons, sub_nil, and_true] at hL
  unfold firnRestore
  dsimp only
  (repeat' split) <;> simp +contextual (maxDischargeDepth := 60) [*]

@[simp] theorem tmrMod_parts (t : Nat) (f : Tmr → Tmr) (s : State) {L : List Piece} (z0 : State) (hk : partsOnly L z0 s) (hL : sub [.tmrs] L = true := by simp [*]) : partsOnly L z0 (tmrMod t f s) := by
  simp only [sub_cons, sub_nil, and_true] at hL
  unfold tmrMod
  simp +contextual (maxDischargeDepth := 60) [*]

@[simp] theorem tmrModCh_parts (t : Nat) (c : Nat) (f : TmrCh → TmrCh) (s : State) {L : List Piece} (z0 : State) (hk : partsOnly L z0 s) (hL : sub [.tmrs] L = true := by simp [*]) : partsOnly L z0 (tmrModCh t c f s) := by
  simp only [sub_cons, sub_nil, and_true] at hL
  unfold tmrModCh
  simp +contextual (maxDischargeDepth := 60) [*]

@[simp] theorem tmrFlag_parts (t : Nat) (c : Nat) (s : State) {L : List Piece} (z0 : State) (hk : partsOnly L z0 s) (hL : sub [.regs, .flight] L = true := by simp [*]) : partsOnly L z0 (tmrFlag t c s) := by
  simp only [sub_cons, sub_nil, and_true] at hL
  unfold tmrFlag
  simp +contextual (maxDischargeDepth := 60) [*]

@[simp] theorem tmrCommit_parts (t : Nat) (s : State) {L : List Piece} (z0 : State) (hk : partsOnly L z0 s) (hL : sub [.com, .regs] L = true := by simp [*]) : partsOnly L z0 (tmrCommit t s) := by
  simp only [sub_cons, sub_nil, and_true] at hL
  unfold tmrCommit
  dsimp only
  (repeat' split) <;> simp +contextual (maxDischargeDepth := 60) [*]

@[simp] theorem tmrStart_parts (t : Nat) (s : State) {L : List Piece} (z0 : State) (hk : partsOnly L z0 s) (hL : sub [.com, .regs, .tmrs] L = true := by simp [*]) : partsOnly L z0 (tmrStart t s) := by
  simp only [sub_cons, sub_nil, and_true] at hL
  unfold tmrStart
  dsimp only
  (repeat' split) <;> simp +contextual (maxDischargeDepth := 60) [*]

@[simp] theorem tmrMatch_parts (t : Nat) (c : Nat) (s : State) {L : List Piece} (z0 : State) (hk : partsOnly L z0 s) (hL : sub [.regs, .tmrs, .flight] L = true := by simp [*]) : partsOnly L z0 (tmrMatch t c s) := by
  simp only [sub_cons, sub_nil, and_true] at hL
  unfold tmrMatch
  simp +contextual (maxDischargeDepth := 60) [*]

@[simp] theorem timerWrap_parts (t : Nat) (s : State) {L : List Piece} (z0 : State) (hk : partsOnly L z0 s) (hL : sub [.com, .regs, .tmrs, .flight] L = true := by simp [*]) : partsOnly L z0 (timerWrap t s) := by
  simp only [sub_cons, sub_nil, and_true] at hL
  unfold timerWrap
  dsimp only
  (repeat' split) <;> simp +contextual (maxDischargeDepth := 60) [*]

@[simp] theorem tmrSee_parts (t : Nat) (c : Nat) (s : State) {L : List Piece} (z0 : State) (hk : partsOnly L z0 s) (hL : sub [.tmrs] L = true := by simp [*]) : partsOnly L z0 (tmrSee t c s) := by
  simp only [sub_cons, sub_nil, and_true] at hL
  unfold tmrSee
  simp +contextual (maxDischargeDepth := 60) [*]

@[simp] theorem compareMatch_parts (t : Nat) (c : Nat) (s : State) {L : List Piece} (z0 : State) (hk : partsOnly L z0 s) (hL : sub [.regs, .tmrs, .flight] L = true := by simp [*]) : partsOnly L z0 (compareMatch t c s) := by
  simp only [sub_cons, sub_nil, and_true] at hL
  unfold compareMatch
  simp +contextual (maxDischargeDepth := 60) [*]

@[simp] theorem pwmDutyReached_parts (t : Nat) (c : Nat) (s : State) {L : List Piece} (z0 : State) (hk : partsOnly L z0 s) (hL : sub [.regs, .tmrs, .flight] L = true := by simp [*]) : partsOnly L z0 (pwmDutyReached t c s) := by
  simp only [sub_cons, sub_nil, and_true] at hL
  unfold pwmDutyReached
  simp +contextual (maxDischargeDepth := 60) [*]

@[simp] theorem tmrCapture_parts (t : Nat) (c : Nat) (s : State) {L : List Piece} (z0 : State) (hk : partsOnly L z0 s) (hL : sub [.regs, .flight] L = true := by simp [*]) : partsOnly L z0 (tmrCapture t c s) := by
  simp only [sub_cons, sub_nil, and_true] at hL
  unfold tmrCapture
  dsimp only
  (repeat' split) <;> simp +contextual (maxDischargeDepth := 60) [*]

@[simp] theorem tmrEdge_parts (t : Nat) (c : Nat) (s : State) {L : List Piece} (z0 : State) (hk : partsOnly L z0 s) (hL : sub [.regs, .tmrs, .flight] L = true := by simp [*]) : partsOnly L z0 (tmrEdge t c s) := by
  simp only [sub_cons, sub_nil, and_true] at hL
  unfold tmrEdge
  dsimp only
  (repeat' split) <;> simp +contextual (maxDischargeDepth := 60) [*]

@[simp] theorem tmrForce_parts (t : Nat) (c : Nat) (s : State) {L : List Piece} (z0 : State) (hk : partsOnly L z0 s) (hL : sub [.regs, .tmrs, .flight] L = true := by simp [*]) : partsOnly L z0 (tmrForce t c s) := by
  simp only [sub_cons, sub_nil, and_true] at hL
  unfold tmrForce
  (repeat' split) <;> simp +contextual (maxDischargeDepth := 60) [*]

@[simp] theorem tmrWriteCmp_parts (t : Nat) (c : Nat) (v : Nat) (s : State) {L : List Piece} (z0 : State) (hk : partsOnly L z0 s) (hL : sub [.regs, .tmrs] L = true := by simp [*]) : partsOnly L z0 (tmrWriteCmp t c v s) := by
  simp only [sub_cons, sub_nil, and_true] at hL
  unfold tmrWriteCmp
  dsimp only
  (repeat' split) <;> simp +contextual (maxDischargeDepth := 60) [*]

@[simp] theorem tmrChannel_parts (ch : Nat) (s : State) {L : List Piece} (z0 : State) (hk : partsOnly L z0 s) (hL : sub [.com, .regs, .tmrs, .flight] L = true := by simp [*]) : partsOnly L z0 (tmrChannel ch s) := by
  simp only [sub_cons, sub_nil, and_true] at hL
  unfold tmrChannel
  dsimp only
  (repeat' split) <;> simp +contextual (maxDischargeDepth := 60) [*]

@[simp] theorem tmrBlockReset_parts (s : State) {L : List Piece} (z0 : State) (hk : partsOnly L z0 s) (hL : sub [.com, .regs, .tmrs] L = true := by simp [*]) : partsOnly L z0 (tmrBlockReset s) := by
  simp only [sub_cons, sub_nil, and_true] at hL
  unfold tmrBlockReset
  simp +contextual (maxDischargeDepth := 60) [*]

@[simp] theorem tmrCapRead_parts (t : Nat) (c : Nat) (s : State) {L : List Piece} (z0 : State) (hk : partsOnly L z0 s) (hL : sub [.regs] L = true := by simp [*]) : partsOnly L z0 (tmrCapRead t c s).2 := by
  simp only [sub_cons, sub_nil, and_true] at hL
  unfold tmrCapRead
  dsimp only
  (repeat' split) <;> simp +contextual (maxDischargeDepth := 60) [*]

@[simp] theorem cphModCtx_parts (n : Nat) (f : CphCtx → CphCtx) (s : State) {L : List Piece} (z0 : State) (hk : partsOnly L z0 s) (hL : sub [.cph] L = true := by simp [*]) : partsOnly L z0 (cphModCtx n f s) := by
  simp only [sub_cons, sub_nil, and_true] at hL
  unfold cphModCtx
  dsimp only
  (repeat' split) <;> simp +contextual (maxDischargeDepth := 60) [*]

@[simp] theorem cphWords_parts (f : Nat → Field) (b : List Nat) (s : State) {L : List Piece} (z0 : State) (hk : partsOnly L z0 s) (hL : sub [.regs] L = true := by simp [*]) : partsOnly L z0 (cphWords f b s) := by
  simp only [sub_cons, sub_nil, and_true] at hL
  unfold cphWords
  simp +contextual (maxDischargeDepth := 60) [*]

@[simp] theorem cphFree_parts (n : Nat) (s : State) {L : List Piece} (z0 : State) (hk : partsOnly L z0 s) (hL : sub [.regs] L = true := by simp [*]) : partsOnly L z0 (cphFree n s) := by
  simp only [sub_cons, sub_nil, and_true] at hL
  unfold cphFree
  simp +contextual (maxDischargeDepth := 60) [*]

@[simp] theorem cphEvent_parts (n : Nat) (s : State) {L : List Piece} (z0 : State) (hk : partsOnly L z0 s) (hL : sub [.flight] L = true := by simp [*]) : partsOnly L z0 (cphEvent n s) := by
  simp only [sub_cons, sub_nil, and_true] at hL
  unfold cphEvent
  simp +contextual (maxDischargeDepth := 60) [*]

@[simp] theorem cphEnd_parts (n : Nat) (err : Nat) (result : List Nat) (hit : Bool) (s : State) {L : List Piece} (z0 : State) (hk : partsOnly L z0 s) (hL : sub [.cph, .regs, .flight] L = true := by simp [*]) : partsOnly L z0 (cphEnd n err result hit s) := by
  simp only [sub_cons, sub_nil, and_true] at hL
  unfold cphEnd
  dsimp only
  (repeat' split) <;> simp +contextual (maxDischargeDepth := 60) [*]

@[simp] theorem cphParity_parts (s : State) {L : List Piece} (z0 : State) (hk : partsOnly L z0 s) (hL : sub [.regs, .flight] L = true := by simp [*]) : partsOnly L z0 (cphParity s) := by
  simp only [sub_cons, sub_nil, and_true] at hL
  unfold cphParity
  simp +contextual (maxDischargeDepth := 60) [*]

@[simp] theorem cphKeyLost_parts (n : Nat) (i : Nat) (s : State) {L : List Piece} (z0 : State) (hk : partsOnly L z0 s) (hL : sub [.cph, .regs] L = true := by simp [*]) : partsOnly L z0 (cphKeyLost n i s) := by
  simp only [sub_cons, sub_nil, and_true] at hL
  unfold cphKeyLost
  dsimp only
  (repeat' split) <;> simp +contextual (maxDischargeDepth := 60) [*]

@[simp] theorem cphBegin_parts (n : Nat) (parity : Bool) (s : State) {L : List Piece} (z0 : State) (hk : partsOnly L z0 s) (hL : sub [.cph, .regs, .flight] L = true := by simp [*]) : partsOnly L z0 (cphBegin n parity s) := by
  simp only [sub_cons, sub_nil, and_true] at hL
  unfold cphBegin
  dsimp only
  (repeat' split) <;> simp +contextual (maxDischargeDepth := 60) [*]

@[simp] theorem cphStart_parts (n : Nat) (parity : Bool) (s : State) {L : List Piece} (z0 : State) (hk : partsOnly L z0 s) (hL : sub [.cph, .regs, .flight] L = true := by simp [*]) : partsOnly L z0 (cphStart n parity s) := by
  simp only [sub_cons, sub_nil, and_true] at hL
  unfold cphStart
  simp +contextual (maxDischargeDepth := 60) [*]

@[simp] theorem cphRun_parts (s : State) {L : List Piece} (z0 : State) (hk : partsOnly L z0 s) (hL : sub [.cph, .regs] L = true := by simp [*]) : partsOnly L z0 (cphRun s) := by
  simp only [sub_cons, sub_nil, and_true] at hL
  unfold cphRun
  dsimp only
  (repeat' split) <;> simp +contextual (maxDischargeDepth := 60) [*]

@[simp] theorem cphSubmit_parts (n : Nat) (s : State) {L : List Piece} (z0 : State) (hk : partsOnly L z0 s) (hL : sub [.cph, .regs, .flight] L = true := by simp [*]) : partsOnly L z0 (cphSubmit n s) := by
  simp only [sub_cons, sub_nil, and_true] at hL
  unfold cphSubmit
  dsimp only
  (repeat' split) <;> simp +contextual (maxDischargeDepth := 60) [*]

@[simp] theorem cphAbort_parts (n : Nat) (s : State) {L : List Piece} (z0 : State) (hk : partsOnly L z0 s) (hL : sub [.cph, .regs, .flight] L = true := by simp [*]) : partsOnly L z0 (cphAbort n s) := by
  simp only [sub_cons, sub_nil, and_true] at hL
  unfold cphAbort
  (repeat' split) <;> simp +contextual (maxDischargeDepth := 60) [*]

@[simp] theorem cphSetKey_parts (n : Nat) (i : Nat) (k : KeySlot) (s : State) {L : List Piece} (z0 : State) (hk : partsOnly L z0 s) (hL : sub [.cph, .regs] L = true := by simp [*]) : partsOnly L z0 (cphSetKey n i k s) := by
  simp only [sub_cons, sub_nil, and_true] at hL
  unfold cphSetKey
  dsimp only
  (repeat' split) <;> simp +contextual (maxDischargeDepth := 60) [*]

@[simp] theorem cphLoad_parts (n : Nat) (s : State) {L : List Piece} (z0 : State) (hk : partsOnly L z0 s) (hL : sub [.cph, .regs] L = true := by simp [*]) : partsOnly L z0 (cphLoad n s) := by
  simp only [sub_cons, sub_nil, and_true] at hL
  unfold cphLoad
  dsimp only
  (repeat' split) <;> simp +contextual (maxDischargeDepth := 60) [*]

@[simp] theorem cphClear_parts (n : Nat) (i : Nat) (s : State) {L : List Piece} (z0 : State) (hk : partsOnly L z0 s) (hL : sub [.cph, .regs] L = true := by simp [*]) : partsOnly L z0 (cphClear n i s) := by
  simp only [sub_cons, sub_nil, and_true] at hL
  unfold cphClear
  dsimp only
  (repeat' split) <;> simp +contextual (maxDischargeDepth := 60) [*]

@[simp] theorem keyLoadDone_parts (s : State) {L : List Piece} (z0 : State) (hk : partsOnly L z0 s) (hL : sub [.cph, .regs, .flight] L = true := by simp [*]) : partsOnly L z0 (keyLoadDone s) := by
  simp only [sub_cons, sub_nil, and_true] at hL
  unfold keyLoadDone
  dsimp only
  (repeat' split) <;> simp +contextual (maxDischargeDepth := 60) [*]

@[simp] theorem cphBlock_parts (n : Nat) (b : List Nat) (s : State) {L : List Piece} (z0 : State) (hk : partsOnly L z0 s) (hL : sub [.cph, .regs, .flight] L = true := by simp [*]) : partsOnly L z0 (cphBlock n b s) := by
  simp only [sub_cons, sub_nil, and_true] at hL
  unfold cphBlock
  dsimp only
  (repeat' split) <;> simp +contextual (maxDischargeDepth := 60) [*]

@[simp] theorem blockEnd_parts (fault : Nat) (s : State) {L : List Piece} (z0 : State) (hk : partsOnly L z0 s) (hL : sub [.cph, .regs, .flight] L = true := by simp [*]) : partsOnly L z0 (blockEnd fault s) := by
  simp only [sub_cons, sub_nil, and_true] at hL
  unfold blockEnd
  dsimp only
  (repeat' split) <;> simp +contextual (maxDischargeDepth := 60) [*]

@[simp] theorem cphOwnerChange_parts (n : Nat) (s : State) {L : List Piece} (z0 : State) (hk : partsOnly L z0 s) (hL : sub [.cph, .regs, .flight] L = true := by simp [*]) : partsOnly L z0 (cphOwnerChange n s) := by
  simp only [sub_cons, sub_nil, and_true] at hL
  unfold cphOwnerChange
  dsimp only
  (repeat' split) <;> simp +contextual (maxDischargeDepth := 60) [*]

@[simp] theorem krnSet_parts (k : Nat) (st : Nat) (cause : Nat) (s : State) {L : List Piece} (z0 : State) (hk : partsOnly L z0 s) (hL : sub [.mem] L = true := by simp [*]) : partsOnly L z0 (krnSet k st cause s) := by
  simp only [sub_cons, sub_nil, and_true] at hL
  unfold krnSet
  simp +contextual (maxDischargeDepth := 60) [*]

@[simp] theorem sigMod_parts (c : Nat) (f : SigCore → SigCore) (s : State) {L : List Piece} (z0 : State) (hk : partsOnly L z0 s) (hL : sub [.sig] L = true := by simp [*]) : partsOnly L z0 (sigMod c f s) := by
  simp only [sub_cons, sub_nil, and_true] at hL
  unfold sigMod
  simp +contextual (maxDischargeDepth := 60) [*]

@[simp] theorem krnMod_parts (f : Runner → Runner) (s : State) {L : List Piece} (z0 : State) (hk : partsOnly L z0 s) (hL : sub [.runner] L = true := by simp [*]) : partsOnly L z0 (krnMod f s) := by
  simp only [sub_cons, sub_nil, and_true] at hL
  unfold krnMod
  simp +contextual (maxDischargeDepth := 60) [*]

@[simp] theorem krnNext_parts (s : State) {L : List Piece} (z0 : State) (hk : partsOnly L z0 s) (hL : sub [.runner, .freeCtr, .mem, .sig] L = true := by simp [*]) : partsOnly L z0 (krnNext s) := by
  simp only [sub_cons, sub_nil, and_true] at hL
  unfold krnNext
  dsimp only
  (repeat' split) <;> simp +contextual (maxDischargeDepth := 60) [*]

@[simp] theorem krnLeave_parts (r : KernelRun) (s : State) {L : List Piece} (z0 : State) (hk : partsOnly L z0 s) (hL : sub [.sig] L = true := by simp [*]) : partsOnly L z0 (krnLeave r s) := by
  simp only [sub_cons, sub_nil, and_true] at hL
  unfold krnLeave
  simp +contextual (maxDischargeDepth := 60) [*]

@[simp] theorem krnCounts_parts (r : KernelRun) (s : State) {L : List Piece} (z0 : State) (hk : partsOnly L z0 s) (hL : sub [.mem] L = true := by simp [*]) : partsOnly L z0 (krnCounts r s) := by
  simp only [sub_cons, sub_nil, and_true] at hL
  unfold krnCounts
  simp +contextual (maxDischargeDepth := 60) [*]

@[simp] theorem krnDone_parts (result : Nat) (s : State) {L : List Piece} (z0 : State) (hk : partsOnly L z0 s) (hL : sub [.runner, .freeCtr, .mem, .flight, .sig] L = true := by simp [*]) : partsOnly L z0 (krnDone result s) := by
  simp only [sub_cons, sub_nil, and_true] at hL
  unfold krnDone
  dsimp only
  (repeat' split) <;> simp +contextual (maxDischargeDepth := 60) [*]

@[simp] theorem krnFault_parts (cause : Nat) (epc : Nat) (s : State) {L : List Piece} (z0 : State) (hk : partsOnly L z0 s) (hL : sub [.runner, .freeCtr, .mem, .flight, .sig] L = true := by simp [*]) : partsOnly L z0 (krnFault cause epc s) := by
  simp only [sub_cons, sub_nil, and_true] at hL
  unfold krnFault
  dsimp only
  (repeat' split) <;> simp +contextual (maxDischargeDepth := 60) [*]

@[simp] theorem krnRefuse_parts (k : Nat) (cause : Nat) (s : State) {L : List Piece} (z0 : State) (hk : partsOnly L z0 s) (hL : sub [.mem, .flight] L = true := by simp [*]) : partsOnly L z0 (krnRefuse k cause s) := by
  simp only [sub_cons, sub_nil, and_true] at hL
  unfold krnRefuse
  simp +contextual (maxDischargeDepth := 60) [*]

@[simp] theorem krnEndAll_parts (s : State) {L : List Piece} (z0 : State) (hk : partsOnly L z0 s) (hL : sub [.runner, .freeCtr, .mem, .flight, .sig] L = true := by simp [*]) : partsOnly L z0 (krnEndAll s) := by
  simp only [sub_cons, sub_nil, and_true] at hL
  unfold krnEndAll
  dsimp only
  (repeat' split) <;> simp +contextual (maxDischargeDepth := 60) [*]

@[simp] theorem krnFire1_parts (ch : Nat) (k : Nat) (s : State) {L : List Piece} (z0 : State) (hk : partsOnly L z0 s) (hL : sub [.runner, .freeCtr, .mem, .flight, .sig] L = true := by simp [*]) : partsOnly L z0 (krnFire1 ch k s) := by
  simp only [sub_cons, sub_nil, and_true] at hL
  unfold krnFire1
  dsimp only
  (repeat' split) <;> simp +contextual (maxDischargeDepth := 60) [*]

@[simp] theorem krnFire_parts (ch : Nat) (s : State) {L : List Piece} (z0 : State) (hk : partsOnly L z0 s) (hL : sub [.runner, .freeCtr, .mem, .flight, .sig] L = true := by simp [*]) : partsOnly L z0 (krnFire ch s) := by
  simp only [sub_cons, sub_nil, and_true] at hL
  unfold krnFire
  simp +contextual (maxDischargeDepth := 60) [*]

@[simp] theorem krnHeader_parts (s : State) {L : List Piece} (z0 : State) (hk : partsOnly L z0 s) (hL : sub [.mem] L = true := by simp [*]) : partsOnly L z0 (krnHeader s) := by
  simp only [sub_cons, sub_nil, and_true] at hL
  unfold krnHeader
  simp +contextual (maxDischargeDepth := 60) [*]

@[simp] theorem kernelPeriod_parts (s : State) {L : List Piece} (z0 : State) (hk : partsOnly L z0 s) (hL : sub [.runner, .mem, .sig] L = true := by simp [*]) : partsOnly L z0 (kernelPeriod s) := by
  simp only [sub_cons, sub_nil, and_true] at hL
  unfold kernelPeriod
  dsimp only
  (repeat' split) <;> simp +contextual (maxDischargeDepth := 60) [*]

@[simp] theorem kernelBudgetSuspend_parts (s : State) {L : List Piece} (z0 : State) (hk : partsOnly L z0 s) (hL : sub [.runner, .sig] L = true := by simp [*]) : partsOnly L z0 (kernelBudgetSuspend s) := by
  simp only [sub_cons, sub_nil, and_true] at hL
  unfold kernelBudgetSuspend
  dsimp only
  (repeat' split) <;> simp +contextual (maxDischargeDepth := 60) [*]

end Sys2Proof.Machine
end

