-- ==== Sys2Proof/Laws/PartsPower.lean ====
section
/-!
SUPPORT. What power, events, reset and the mailboxes leave alone: one lemma per operation, over `partsOnly` (Laws/Parts.lean).
-/
namespace Sys2Proof.Machine
set_option Elab.async false

@[simp] theorem regsLost_parts (n : Nat) (s : State) {L : List Piece} (z0 : State) (hk : partsOnly L z0 s) (hL : sub [.com, .regs] L = true := by simp [*]) : partsOnly L z0 (regsLost n s) := by
  simp only [sub_cons, sub_nil, and_true] at hL
  unfold regsLost
  simp +contextual (maxDischargeDepth := 60) [*]

@[simp] theorem coreReset_parts (i : Nat) (s : State) {L : List Piece} (z0 : State) (hk : partsOnly L z0 s) (hL : sub [.cores] L = true := by simp [*]) : partsOnly L z0 (coreReset i s) := by
  simp only [sub_cons, sub_nil, and_true] at hL
  unfold coreReset
  simp +contextual (maxDischargeDepth := 60) [*]

@[simp] theorem sigReset_parts (i : Nat) (s : State) {L : List Piece} (z0 : State) (hk : partsOnly L z0 s) (hL : sub [.sig] L = true := by simp [*]) : partsOnly L z0 (sigReset i s) := by
  simp only [sub_cons, sub_nil, and_true] at hL
  unfold sigReset
  simp +contextual (maxDischargeDepth := 60) [*]

@[simp] theorem cmpDisarmAll_parts (s : State) {L : List Piece} (z0 : State) (hk : partsOnly L z0 s) (hL : sub [.firn, .regs] L = true := by simp [*]) : partsOnly L z0 (cmpDisarmAll s) := by
  simp only [sub_cons, sub_nil, and_true] at hL
  unfold cmpDisarmAll
  dsimp only
  (repeat' split) <;> simp +contextual (maxDischargeDepth := 60) [*]

@[simp] theorem domLose_parts (n : Nat) (a1 : State) {L : List Piece} (z0 : State) (hk : partsOnly L z0 a1) (hL : sub [.cores, .evt, .com, .cph, .spx, .msh, .lmp, .mboxes, .flc, .firn, .runner, .regs, .tmrs, .wpt, .pwr, .mem, .sig] L = true := by simp [*]) : partsOnly L z0 (domLose n a1) := by
  simp only [sub_cons, sub_nil, and_true] at hL
  unfold domLose
  dsimp only
  (repeat' split) <;> simp +contextual (maxDischargeDepth := 60) [*]

@[simp] theorem domEnter_parts (n : Nat) (target : Nat) (s00 : State) {L : List Piece} (z0 : State) (hk : partsOnly L z0 s00) (hL : sub [.cores, .evt, .com, .cph, .spx, .msh, .lmp, .mboxes, .flc, .firn, .runner, .regs, .tmrs, .wpt, .heldNotices, .evAt, .pwr, .mem, .flight, .sig] L = true := by simp [*]) : partsOnly L z0 (domEnter n target s00) := by
  simp only [sub_cons, sub_nil, and_true] at hL
  unfold domEnter
  dsimp only
  (repeat' split) <;> simp +contextual (maxDischargeDepth := 60) [*]

@[simp] theorem coreStart_parts (i : Nat) (s : State) {L : List Piece} (z0 : State) (hk : partsOnly L z0 s) (hL : sub [.cores] L = true := by simp [*]) : partsOnly L z0 (coreStart i s) := by
  simp only [sub_cons, sub_nil, and_true] at hL
  unfold coreStart
  simp +contextual (maxDischargeDepth := 60) [*]

@[simp] theorem cycResume_parts (s : State) {L : List Piece} (z0 : State) (hk : partsOnly L z0 s) (hL : sub [.cores, .sig] L = true := by simp [*]) : partsOnly L z0 (cycResume s) := by
  simp only [sub_cons, sub_nil, and_true] at hL
  unfold cycResume
  simp +contextual (maxDischargeDepth := 60) [*]

@[simp] theorem domReady_parts (n : Nat) (from_ : Nat) (s : State) {L : List Piece} (z0 : State) (hk : partsOnly L z0 s) (hL : sub [.cores, .msh, .firn, .regs, .pwr, .flight, .sig] L = true := by simp [*]) : partsOnly L z0 (domReady n from_ s) := by
  simp only [sub_cons, sub_nil, and_true] at hL
  unfold domReady
  dsimp only
  (repeat' split) <;> simp +contextual (maxDischargeDepth := 60) [*]

@[simp] theorem hsAfter_parts (n : Nat) (s : State) {L : List Piece} (z0 : State) (hk : partsOnly L z0 s) (hL : sub [.regs, .pwr, .flight] L = true := by simp [*]) : partsOnly L z0 (hsAfter n s) := by
  simp only [sub_cons, sub_nil, and_true] at hL
  unfold hsAfter
  simp +contextual (maxDischargeDepth := 60) [*]

@[simp] theorem stopRefuse_parts (reason : Nat) (s : State) {L : List Piece} (z0 : State) (hk : partsOnly L z0 s) (hL : sub [.regs, .pwr, .flight] L = true := by simp [*]) : partsOnly L z0 (stopRefuse reason s) := by
  simp only [sub_cons, sub_nil, and_true] at hL
  unfold stopRefuse
  dsimp only
  (repeat' split) <;> simp +contextual (maxDischargeDepth := 60) [*]

@[simp] theorem hsRefuse_parts (h : Hs) (reason : Nat) (s : State) {L : List Piece} (z0 : State) (hk : partsOnly L z0 s) (hL : sub [.regs, .pwr, .flight] L = true := by simp [*]) : partsOnly L z0 (hsRefuse h reason s) := by
  simp only [sub_cons, sub_nil, and_true] at hL
  unfold hsRefuse
  simp +contextual (maxDischargeDepth := 60) [*]

@[simp] theorem hsAsk_parts (h : Hs) (s : State) {L : List Piece} (z0 : State) (hk : partsOnly L z0 s) (hL : sub [.cores, .evt, .com, .cph, .spx, .msh, .lmp, .mboxes, .flc, .firn, .runner, .regs, .tmrs, .wpt, .heldNotices, .evAt, .pwr, .mem, .flight, .sig] L = true := by simp [*]) : partsOnly L z0 (hsAsk h s) := by
  simp only [sub_cons, sub_nil, and_true] at hL
  unfold hsAsk
  dsimp only
  (repeat' split) <;> simp +contextual (maxDischargeDepth := 60) [*]

@[simp] theorem entryHandshake_parts (n : Nat) (s : State) {L : List Piece} (z0 : State) (hk : partsOnly L z0 s) (hL : sub [.cores, .evt, .com, .cph, .spx, .msh, .lmp, .mboxes, .flc, .firn, .runner, .regs, .tmrs, .wpt, .heldNotices, .evAt, .pwr, .mem, .flight, .sig] L = true := by simp [*]) : partsOnly L z0 (entryHandshake n s) := by
  simp only [sub_cons, sub_nil, and_true] at hL
  unfold entryHandshake
  (repeat' split) <;> simp +contextual (maxDischargeDepth := 60) [*]

@[simp] theorem delayLimit_parts (n : Nat) (s : State) {L : List Piece} (z0 : State) (hk : partsOnly L z0 s) (hL : sub [.regs, .pwr, .flight] L = true := by simp [*]) : partsOnly L z0 (delayLimit n s) := by
  simp only [sub_cons, sub_nil, and_true] at hL
  unfold delayLimit
  (repeat' split) <;> simp +contextual (maxDischargeDepth := 60) [*]

@[simp] theorem thawStart_parts (n : Nat) (s : State) {L : List Piece} (z0 : State) (hk : partsOnly L z0 s) (hL : sub [.regs, .pwr] L = true := by simp [*]) : partsOnly L z0 (thawStart n s) := by
  simp only [sub_cons, sub_nil, and_true] at hL
  unfold thawStart
  dsimp only
  (repeat' split) <;> simp +contextual (maxDischargeDepth := 60) [*]

@[simp] theorem accessWait_parts (ini : Nat) (n : Nat) (s : State) {L : List Piece} (z0 : State) (hk : partsOnly L z0 s) (hL : sub [.regs, .pwr] L = true := by simp [*]) : partsOnly L z0 (accessWait ini n s) := by
  simp only [sub_cons, sub_nil, and_true] at hL
  unfold accessWait
  dsimp only
  (repeat' split) <;> simp +contextual (maxDischargeDepth := 60) [*]

@[simp] theorem riseDone_parts (n : Nat) (s : State) {L : List Piece} (z0 : State) (hk : partsOnly L z0 s) (hL : sub [.cores, .msh, .firn, .regs, .pwr, .flight, .sig] L = true := by simp [*]) : partsOnly L z0 (riseDone n s) := by
  simp only [sub_cons, sub_nil, and_true] at hL
  unfold riseDone
  (repeat' split) <;> simp +contextual (maxDischargeDepth := 60) [*]

@[simp] theorem postFail_parts (ini : Nat) (a : Nat) (kind : Nat) (s : State) {L : List Piece} (z0 : State) (hk : partsOnly L z0 s) (hL : sub [.cores, .regs, .sig] L = true := by simp [*]) : partsOnly L z0 (postFail ini a kind s) := by
  simp only [sub_cons, sub_nil, and_true] at hL
  unfold postFail
  simp +contextual (maxDischargeDepth := 60) [*]

@[simp] theorem heldFail_parts (ini : Nat) (n : Nat) (s : State) {L : List Piece} (z0 : State) (hk : partsOnly L z0 s) (hL : sub [.cores, .regs, .pwr, .sig] L = true := by simp [*]) : partsOnly L z0 (heldFail ini n s) := by
  simp only [sub_cons, sub_nil, and_true] at hL
  unfold heldFail
  dsimp only
  (repeat' split) <;> simp +contextual (maxDischargeDepth := 60) [*]

@[simp] theorem thawTimeout_parts (ini : Nat) (n : Nat) (s : State) {L : List Piece} (z0 : State) (hk : partsOnly L z0 s) (hL : sub [.cores, .regs, .pwr, .sig] L = true := by simp [*]) : partsOnly L z0 (thawTimeout ini n s) := by
  simp only [sub_cons, sub_nil, and_true] at hL
  unfold thawTimeout
  dsimp only
  (repeat' split) <;> simp +contextual (maxDischargeDepth := 60) [*]

@[simp] theorem stopAsk_parts (byPfail : Bool) (s : State) {L : List Piece} (z0 : State) (hk : partsOnly L z0 s) (hL : sub [.regs, .pwr] L = true := by simp [*]) : partsOnly L z0 (stopAsk byPfail s) := by
  simp only [sub_cons, sub_nil, and_true] at hL
  unfold stopAsk
  dsimp only
  (repeat' split) <;> simp +contextual (maxDischargeDepth := 60) [*]

@[simp] theorem stopReqWrite_parts (s : State) {L : List Piece} (z0 : State) (hk : partsOnly L z0 s) (hL : sub [.regs, .pwr] L = true := by simp [*]) : partsOnly L z0 (stopReqWrite s) := by
  simp only [sub_cons, sub_nil, and_true] at hL
  unfold stopReqWrite
  simp +contextual (maxDischargeDepth := 60) [*]

@[simp] theorem pfailLow_parts (s : State) {L : List Piece} (z0 : State) (hk : partsOnly L z0 s) (hL : sub [.regs, .pwr] L = true := by simp [*]) : partsOnly L z0 (pfailLow s) := by
  simp only [sub_cons, sub_nil, and_true] at hL
  unfold pfailLow
  dsimp only
  (repeat' split) <;> simp +contextual (maxDischargeDepth := 60) [*]

@[simp] theorem stopEnter_parts (s : State) {L : List Piece} (z0 : State) (hk : partsOnly L z0 s) (hL : sub [.cores, .msh, .mboxes, .firn, .regs, .wpt, .heldNotices, .evAt, .pwr, .flight, .sig] L = true := by simp [*]) : partsOnly L z0 (stopEnter s) := by
  simp only [sub_cons, sub_nil, and_true] at hL
  unfold stopEnter
  dsimp only
  (repeat' split) <;> simp +contextual (maxDischargeDepth := 60) [*]

@[simp] theorem stopExit_parts (pfailRise : Bool) (s : State) {L : List Piece} (z0 : State) (hk : partsOnly L z0 s) (hL : sub [.cores, .firn, .regs, .pwr, .sig] L = true := by simp [*]) : partsOnly L z0 (stopExit pfailRise s) := by
  simp only [sub_cons, sub_nil, and_true] at hL
  unfold stopExit
  dsimp only
  (repeat' split) <;> simp +contextual (maxDischargeDepth := 60) [*]

@[simp] theorem stopCoastExit_parts (s : State) {L : List Piece} (z0 : State) (hk : partsOnly L z0 s) (hL : sub [.regs, .pwr, .flight] L = true := by simp [*]) : partsOnly L z0 (stopCoastExit s) := by
  simp only [sub_cons, sub_nil, and_true] at hL
  unfold stopCoastExit
  simp +contextual (maxDischargeDepth := 60) [*]

@[simp] theorem waketWrite_parts (count : Nat) (s : State) {L : List Piece} (z0 : State) (hk : partsOnly L z0 s) (hL : sub [.pwr] L = true := by simp [*]) : partsOnly L z0 (waketWrite count s) := by
  simp only [sub_cons, sub_nil, and_true] at hL
  unfold waketWrite
  simp +contextual (maxDischargeDepth := 60) [*]

@[simp] theorem wakeTimerExpiry_parts (s : State) {L : List Piece} (z0 : State) (hk : partsOnly L z0 s) (hL : sub [.regs, .pwr, .flight] L = true := by simp [*]) : partsOnly L z0 (wakeTimerExpiry s) := by
  simp only [sub_cons, sub_nil, and_true] at hL
  unfold wakeTimerExpiry
  dsimp only
  (repeat' split) <;> simp +contextual (maxDischargeDepth := 60) [*]

@[simp] theorem gletyAwake_parts (s : State) {L : List Piece} (z0 : State) (hk : partsOnly L z0 s) (hL : sub [.regs, .pwr, .flight] L = true := by simp [*]) : partsOnly L z0 (gletyAwake s) := by
  simp only [sub_cons, sub_nil, and_true] at hL
  unfold gletyAwake
  simp +contextual (maxDischargeDepth := 60) [*]

@[simp] theorem radioOff_parts (s : State) {L : List Piece} (z0 : State) (hk : partsOnly L z0 s) (hL : sub [.regs, .pwr, .flight, .rfe] L = true := by simp [*]) : partsOnly L z0 (radioOff s) := by
  simp only [sub_cons, sub_nil, and_true] at hL
  unfold radioOff
  dsimp only
  (repeat' split) <;> simp +contextual (maxDischargeDepth := 60) [*]

@[simp] theorem gletySleep_parts (s : State) {L : List Piece} (z0 : State) (hk : partsOnly L z0 s) (hL : sub [.regs, .pwr, .flight, .rfe] L = true := by simp [*]) : partsOnly L z0 (gletySleep s) := by
  simp only [sub_cons, sub_nil, and_true] at hL
  unfold gletySleep
  dsimp only
  (repeat' split) <;> simp +contextual (maxDischargeDepth := 60) [*]

@[simp] theorem wakeMatch_parts (w : Nat) (s : State) {L : List Piece} (z0 : State) (hk : partsOnly L z0 s) (hL : sub [.regs, .lnk, .pwr, .flight] L = true := by simp [*]) : partsOnly L z0 (wakeMatch w s) := by
  simp only [sub_cons, sub_nil, and_true] at hL
  unfold wakeMatch
  dsimp only
  (repeat' split) <;> simp +contextual (maxDischargeDepth := 60) [*]

@[simp] theorem tcxoStable_parts (s : State) {L : List Piece} (z0 : State) (hk : partsOnly L z0 s) (hL : sub [.cores, .msh, .firn, .regs, .pwr, .flight, .sig] L = true := by simp [*]) : partsOnly L z0 (tcxoStable s) := by
  simp only [sub_cons, sub_nil, and_true] at hL
  unfold tcxoStable
  dsimp only
  (repeat' split) <;> simp +contextual (maxDischargeDepth := 60) [*]

@[simp] theorem falseWake_parts (s : State) {L : List Piece} (z0 : State) (hk : partsOnly L z0 s) (hL : sub [.regs, .lnk, .pwr, .flight, .rfe] L = true := by simp [*]) : partsOnly L z0 (falseWake s) := by
  simp only [sub_cons, sub_nil, and_true] at hL
  unfold falseWake
  dsimp only
  (repeat' split) <;> simp +contextual (maxDischargeDepth := 60) [*]

@[simp] theorem tcxoLoss_parts (s : State) {L : List Piece} (z0 : State) (hk : partsOnly L z0 s) (hL : sub [.mboxes, .firn, .regs, .health, .freeCtr, .heldNotices, .pwr, .flight, .rfe] L = true := by simp [*]) : partsOnly L z0 (tcxoLoss s) := by
  simp only [sub_cons, sub_nil, and_true] at hL
  unfold tcxoLoss
  dsimp only
  (repeat' split) <;> simp +contextual (maxDischargeDepth := 60) [*]

@[simp] theorem tcxoReturn_parts (s : State) {L : List Piece} (z0 : State) (hk : partsOnly L z0 s) (hL : sub [.firn] L = true := by simp [*]) : partsOnly L z0 (tcxoReturn s) := by
  simp only [sub_cons, sub_nil, and_true] at hL
  unfold tcxoReturn
  dsimp only
  (repeat' split) <;> simp +contextual (maxDischargeDepth := 60) [*]

@[simp] theorem fabClockStop_parts (s : State) {L : List Piece} (z0 : State) (hk : partsOnly L z0 s) (hL : sub [.pwr] L = true := by simp [*]) : partsOnly L z0 (fabClockStop s) := by
  simp only [sub_cons, sub_nil, and_true] at hL
  unfold fabClockStop
  simp +contextual (maxDischargeDepth := 60) [*]

@[simp] theorem evtTick_parts (s : State) {L : List Piece} (z0 : State) (hk : partsOnly L z0 s) (hL : sub [.evt] L = true := by simp [*]) : partsOnly L z0 (evtTick s) := by
  simp only [sub_cons, sub_nil, and_true] at hL
  unfold evtTick
  simp +contextual (maxDischargeDepth := 60) [*]

@[simp] theorem grpSet_parts (g : Nat) (en : Bool) (a2 : State) {L : List Piece} (z0 : State) (hk : partsOnly L z0 a2) (hL : sub [.evt, .regs] L = true := by simp [*]) : partsOnly L z0 (grpSet g en a2) := by
  simp only [sub_cons, sub_nil, and_true] at hL
  unfold grpSet
  dsimp only
  (repeat' split) <;> simp +contextual (maxDischargeDepth := 60) [*]

@[simp] theorem intcPend_parts (c : Nat) (l : Nat) (s : State) {L : List Piece} (z0 : State) (hk : partsOnly L z0 s) (hL : sub [.regs, .pwr, .flight] L = true := by simp [*]) : partsOnly L z0 (intcPend c l s) := by
  simp only [sub_cons, sub_nil, and_true] at hL
  unfold intcPend
  dsimp only
  (repeat' split) <;> simp +contextual (maxDischargeDepth := 60) [*]

@[simp] theorem srcReach_parts (src : Nat) (s : State) {L : List Piece} (z0 : State) (hk : partsOnly L z0 s) (hL : sub [.evt, .regs, .pwr, .flight] L = true := by simp [*]) : partsOnly L z0 (srcReach src s) := by
  simp only [sub_cons, sub_nil, and_true] at hL
  unfold srcReach
  dsimp only
  (repeat' split) <;> simp +contextual (maxDischargeDepth := 60) [*]

@[simp] theorem ev127_parts (s : State) {L : List Piece} (z0 : State) (hk : partsOnly L z0 s) (hL : sub [.evAt, .flight] L = true := by simp [*]) : partsOnly L z0 (ev127 s) := by
  simp only [sub_cons, sub_nil, and_true] at hL
  unfold ev127
  (repeat' split) <;> simp +contextual (maxDischargeDepth := 60) [*]

@[simp] theorem capChannel_parts (ch : Nat) (t : Nat) (s : State) {L : List Piece} (z0 : State) (hk : partsOnly L z0 s) (hL : sub [.firn, .regs, .flight] L = true := by simp [*]) : partsOnly L z0 (capChannel ch t s) := by
  simp only [sub_cons, sub_nil, and_true] at hL
  unfold capChannel
  simp +contextual (maxDischargeDepth := 60) [*]

@[simp] theorem launchWire_parts (ch : Nat) (cmp : Nat) (s : State) {L : List Piece} (z0 : State) (hk : partsOnly L z0 s) (hL : sub [.com, .lmp, .regs, .freeCtr, .lnk, .lum] L = true := by simp [*]) : partsOnly L z0 (launchWire ch cmp s) := by
  simp only [sub_cons, sub_nil, and_true] at hL
  unfold launchWire
  simp +contextual (maxDischargeDepth := 60) [*]

@[simp] theorem fireWire_parts (ch : Nat) (launch : Option (Nat × Nat)) (s : State) {L : List Piece} (z0 : State) (hk : partsOnly L z0 s) (hL : sub [.evt, .com, .lmp, .regs, .freeCtr, .lnk, .lum] L = true := by simp [*]) : partsOnly L z0 (fireWire ch launch s) := by
  simp only [sub_cons, sub_nil, and_true] at hL
  unfold fireWire
  dsimp only
  (repeat' split) <;> simp +contextual (maxDischargeDepth := 60) [*]

@[simp] theorem fireReach_parts (ch : Nat) (launch : Option (Nat × Nat)) (s : State) {L : List Piece} (z0 : State) (hk : partsOnly L z0 s) (hL : sub [.evt, .com, .lmp, .firn, .runner, .regs, .tmrs, .freeCtr, .lnk, .pwr, .mem, .flight, .sig, .lum] L = true := by simp [*]) : partsOnly L z0 (fireReach ch launch s) := by
  simp only [sub_cons, sub_nil, and_true] at hL
  unfold fireReach
  dsimp only
  (repeat' split) <;> simp +contextual (maxDischargeDepth := 60) [*]

@[simp] theorem chanFire_parts (ch : Nat) (launch : Option (Nat × Nat)) (a2 : State) {L : List Piece} (z0 : State) (hk : partsOnly L z0 a2) (hL : sub [.evt, .com, .lmp, .firn, .runner, .regs, .tmrs, .freeCtr, .lnk, .evAt, .pwr, .mem, .flight, .sig, .lum] L = true := by simp [*]) : partsOnly L z0 (chanFire ch launch a2) := by
  simp only [sub_cons, sub_nil, and_true] at hL
  unfold chanFire
  dsimp only
  (repeat' split) <;> simp +contextual (maxDischargeDepth := 60) [*]

@[simp] theorem srcArrive_parts (src : Nat) (s : State) {L : List Piece} (z0 : State) (hk : partsOnly L z0 s) (hL : sub [.evt, .com, .lmp, .firn, .runner, .regs, .tmrs, .freeCtr, .lnk, .evAt, .pwr, .mem, .flight, .sig, .lum] L = true := by simp [*]) : partsOnly L z0 (srcArrive src s) := by
  simp only [sub_cons, sub_nil, and_true] at hL
  unfold srcArrive
  simp +contextual (maxDischargeDepth := 60) [*]

@[simp] theorem eventDelivery_parts (srcs : List Nat) (s : State) {L : List Piece} (z0 : State) (hk : partsOnly L z0 s) (hL : sub [.evt, .com, .lmp, .firn, .runner, .regs, .tmrs, .freeCtr, .lnk, .evAt, .pwr, .mem, .flight, .sig, .lum] L = true := by simp [*]) : partsOnly L z0 (eventDelivery srcs s) := by
  simp only [sub_cons, sub_nil, and_true] at hL
  unfold eventDelivery
  dsimp only
  (repeat' split) <;> simp +contextual (maxDischargeDepth := 60) [*]

@[simp] theorem launch_parts (n : Nat) (s : State) {L : List Piece} (z0 : State) (hk : partsOnly L z0 s) (hL : sub [.evt, .com, .lmp, .firn, .runner, .regs, .tmrs, .freeCtr, .lnk, .evAt, .pwr, .mem, .flight, .sig, .lum] L = true := by simp [*]) : partsOnly L z0 (launch n s) := by
  simp only [sub_cons, sub_nil, and_true] at hL
  unfold launch
  dsimp only
  (repeat' split) <;> simp +contextual (maxDischargeDepth := 60) [*]

@[simp] theorem capture_parts (k : Nat) (s : State) {L : List Piece} (z0 : State) (hk : partsOnly L z0 s) (hL : sub [.mboxes, .firn, .regs, .freeCtr, .heldNotices, .flight] L = true := by simp [*]) : partsOnly L z0 (capture k s) := by
  simp only [sub_cons, sub_nil, and_true] at hL
  unfold capture
  dsimp only
  (repeat' split) <;> simp +contextual (maxDischargeDepth := 60) [*]

@[simp] theorem fireWord_parts (base : Nat) (v : Nat) (s : State) {L : List Piece} (z0 : State) (hk : partsOnly L z0 s) (hL : sub [.evt, .com, .lmp, .firn, .runner, .regs, .tmrs, .freeCtr, .lnk, .evAt, .pwr, .mem, .flight, .sig, .lum] L = true := by simp [*]) : partsOnly L z0 (fireWord base v s) := by
  simp only [sub_cons, sub_nil, and_true] at hL
  unfold fireWord
  simp +contextual (maxDischargeDepth := 60) [*]

@[simp] theorem resetTo_parts (aon : Bool) (a1 : State) {L : List Piece} (z0 : State) (hk : partsOnly L z0 a1) (hL : sub [.sysResetAt, .jtag, .cores, .rxc, .netCfg, .age, .boots, .resetDue, .par, .evt, .rtc, .com, .elapsed, .cph, .rdata, .spx, .runAt, .msh, .porAt, .lmp, .mboxes, .flc, .firn, .fuses, .runner, .regs, .tmrs, .wpt, .upd, .health, .tblJobs, .co, .freeCtr, .heldNotices, .drc, .lnk, .evAt, .pwr, .mbLast, .tables, .mem, .flight, .sig, .mir, .lum, .rfe] L = true := by simp [*]) : partsOnly L z0 (resetTo aon a1) := by
  simp only [sub_cons, sub_nil, and_true] at hL
  unfold resetTo
  dsimp only
  (repeat' split) <;> simp +contextual (maxDischargeDepth := 60) [*]

@[simp] theorem sysReset_parts (cause : Field) (s : State) {L : List Piece} (z0 : State) (hk : partsOnly L z0 s) (hL : sub [.sysResetAt, .jtag, .cores, .rxc, .netCfg, .age, .boots, .resetDue, .par, .evt, .rtc, .com, .elapsed, .cph, .rdata, .spx, .runAt, .msh, .porAt, .lmp, .mboxes, .flc, .firn, .fuses, .runner, .regs, .tmrs, .wpt, .upd, .health, .tblJobs, .co, .freeCtr, .heldNotices, .drc, .lnk, .evAt, .pwr, .mbLast, .tables, .mem, .flight, .sig, .mir, .lum, .rfe] L = true := by simp [*]) : partsOnly L z0 (sysReset cause s) := by
  simp only [sub_cons, sub_nil, and_true] at hL
  unfold sysReset
  simp +contextual (maxDischargeDepth := 60) [*]

@[simp] theorem powerOn_parts (resetLow : Bool) (s : State) {L : List Piece} (z0 : State) (hk : partsOnly L z0 s) (hL : sub [.sysResetAt, .jtag, .cores, .rxc, .netCfg, .age, .boots, .resetDue, .par, .evt, .rtc, .com, .elapsed, .cph, .rdata, .spx, .runAt, .msh, .porAt, .lmp, .mboxes, .flc, .firn, .fuses, .runner, .regs, .tmrs, .wpt, .upd, .health, .tblJobs, .co, .freeCtr, .heldNotices, .drc, .lnk, .evAt, .pwr, .mbLast, .tables, .mem, .flight, .sig, .mir, .lum, .rfe] L = true := by simp [*]) : partsOnly L z0 (powerOn resetLow s) := by
  simp only [sub_cons, sub_nil, and_true] at hL
  unfold powerOn
  dsimp only
  (repeat' split) <;> simp +contextual (maxDischargeDepth := 60) [*]

@[simp] theorem backupLoss_parts (s : State) {L : List Piece} (z0 : State) (hk : partsOnly L z0 s) (hL : sub [.sysResetAt, .jtag, .cores, .rxc, .netCfg, .age, .boots, .resetDue, .par, .evt, .rtc, .com, .elapsed, .cph, .rdata, .spx, .runAt, .msh, .porAt, .lmp, .mboxes, .flc, .firn, .fuses, .runner, .regs, .tmrs, .wpt, .upd, .health, .tblJobs, .co, .freeCtr, .heldNotices, .drc, .lnk, .evAt, .pwr, .mbLast, .tables, .mem, .flight, .sig, .mir, .lum, .rfe] L = true := by simp [*]) : partsOnly L z0 (backupLoss s) := by
  simp only [sub_cons, sub_nil, and_true] at hL
  unfold backupLoss
  dsimp only
  (repeat' split) <;> simp +contextual (maxDischargeDepth := 60) [*]

@[simp] theorem resetNLow_parts (s : State) {L : List Piece} (z0 : State) (hk : partsOnly L z0 s) (hL : sub [.sysResetAt, .jtag, .cores, .rxc, .netCfg, .age, .boots, .resetDue, .par, .evt, .rtc, .com, .elapsed, .cph, .rdata, .spx, .runAt, .msh, .porAt, .lmp, .mboxes, .flc, .firn, .fuses, .runner, .regs, .tmrs, .wpt, .upd, .health, .tblJobs, .co, .freeCtr, .heldNotices, .drc, .lnk, .evAt, .pwr, .mbLast, .tables, .mem, .flight, .sig, .mir, .lum, .rfe] L = true := by simp [*]) : partsOnly L z0 (resetNLow s) := by
  simp only [sub_cons, sub_nil, and_true] at hL
  unfold resetNLow
  dsimp only
  (repeat' split) <;> simp +contextual (maxDischargeDepth := 60) [*]

@[simp] theorem resetNRelease_parts (s : State) {L : List Piece} (z0 : State) (hk : partsOnly L z0 s) (hL : sub [.pwr] L = true := by simp [*]) : partsOnly L z0 (resetNRelease s) := by
  simp only [sub_cons, sub_nil, and_true] at hL
  unfold resetNRelease
  dsimp only
  (repeat' split) <;> simp +contextual (maxDischargeDepth := 60) [*]

@[simp] theorem watchdogKick_parts (s : State) {L : List Piece} (z0 : State) (hk : partsOnly L z0 s) (hL : sub [.pwr] L = true := by simp [*]) : partsOnly L z0 (watchdogKick s) := by
  simp only [sub_cons, sub_nil, and_true] at hL
  unfold watchdogKick
  simp +contextual (maxDischargeDepth := 60) [*]

@[simp] theorem aonStart_parts (strap : Bool) (s : State) {L : List Piece} (z0 : State) (hk : partsOnly L z0 s) (hL : sub [.regs, .pwr] L = true := by simp [*]) : partsOnly L z0 (aonStart strap s) := by
  simp only [sub_cons, sub_nil, and_true] at hL
  unfold aonStart
  dsimp only
  (repeat' split) <;> simp +contextual (maxDischargeDepth := 60) [*]

@[simp] theorem clocks_parts (s : State) {L : List Piece} (z0 : State) (hk : partsOnly L z0 s) (hL : sub [.firn, .regs] L = true := by simp [*]) : partsOnly L z0 (clocks s) := by
  simp only [sub_cons, sub_nil, and_true] at hL
  unfold clocks
  dsimp only
  (repeat' split) <;> simp +contextual (maxDischargeDepth := 60) [*]

@[simp] theorem fusesLoad_parts (s : State) {L : List Piece} (z0 : State) (hk : partsOnly L z0 s) (hL : sub [.cores, .cph, .regs] L = true := by simp [*]) : partsOnly L z0 (fusesLoad s) := by
  simp only [sub_cons, sub_nil, and_true] at hL
  unfold fusesLoad
  dsimp only
  (repeat' split) <;> simp +contextual (maxDischargeDepth := 60) [*]

@[simp] theorem rmapGone_parts (s : State) {L : List Piece} (z0 : State) (hk : partsOnly L z0 s) (hL : sub [.age, .par, .regs, .mir] L = true := by simp [*]) : partsOnly L z0 (rmapGone s) := by
  simp only [sub_cons, sub_nil, and_true] at hL
  unfold rmapGone
  dsimp only
  (repeat' split) <;> simp +contextual (maxDischargeDepth := 60) [*]

@[simp] theorem repair_parts (a : Bool) (b : Bool) (s : State) {L : List Piece} (z0 : State) (hk : partsOnly L z0 s) (hL : sub [.age, .par, .regs, .mir] L = true := by simp [*]) : partsOnly L z0 (repair a b s) := by
  simp only [sub_cons, sub_nil, and_true] at hL
  unfold repair
  simp +contextual (maxDischargeDepth := 60) [*]

@[simp] theorem sramInit_parts (s : State) {L : List Piece} (z0 : State) (hk : partsOnly L z0 s) (hL : sub [.par, .regs, .mem] L = true := by simp [*]) : partsOnly L z0 (sramInit s) := by
  simp only [sub_cons, sub_nil, and_true] at hL
  unfold sramInit
  dsimp only
  (repeat' split) <;> simp +contextual (maxDischargeDepth := 60) [*]

@[simp] theorem tablesActivate_parts (s : State) {L : List Piece} (z0 : State) (hk : partsOnly L z0 s) (hL : sub [.com, .msh, .lmp, .firn, .regs, .wpt, .upd, .evAt, .tables, .flight, .lum] L = true := by simp [*]) : partsOnly L z0 (tablesActivate s) := by
  simp only [sub_cons, sub_nil, and_true] at hL
  unfold tablesActivate
  dsimp only
  (repeat' split) <;> simp +contextual (maxDischargeDepth := 60) [*]

@[simp] theorem tablesBack_parts (running : Bool) (s : State) {L : List Piece} (z0 : State) (hk : partsOnly L z0 s) (hL : sub [.com, .msh, .lmp, .firn, .regs, .wpt, .upd, .evAt, .tables, .flight, .lum] L = true := by simp [*]) : partsOnly L z0 (tablesBack running s) := by
  simp only [sub_cons, sub_nil, and_true] at hL
  unfold tablesBack
  dsimp only
  (repeat' split) <;> simp +contextual (maxDischargeDepth := 60) [*]

@[simp] theorem fallBack_parts (running : Bool) (s : State) {L : List Piece} (z0 : State) (hk : partsOnly L z0 s) (hL : sub [.com, .msh, .lmp, .firn, .regs, .wpt, .upd, .evAt, .tables, .flight, .lum] L = true := by simp [*]) : partsOnly L z0 (fallBack running s) := by
  simp only [sub_cons, sub_nil, and_true] at hL
  unfold fallBack
  simp +contextual (maxDischargeDepth := 60) [*]

@[simp] theorem fellNotice_parts (s : State) {L : List Piece} (z0 : State) (hk : partsOnly L z0 s) (hL : sub [.mboxes, .regs, .upd, .heldNotices] L = true := by simp [*]) : partsOnly L z0 (fellNotice s) := by
  simp only [sub_cons, sub_nil, and_true] at hL
  unfold fellNotice
  simp +contextual (maxDischargeDepth := 60) [*]

@[simp] theorem appRestart_parts (s : State) {L : List Piece} (z0 : State) (hk : partsOnly L z0 s) (hL : sub [.cores] L = true := by simp [*]) : partsOnly L z0 (appRestart s) := by
  simp only [sub_cons, sub_nil, and_true] at hL
  unfold appRestart
  dsimp only
  (repeat' split) <;> simp +contextual (maxDischargeDepth := 60) [*]

@[simp] theorem recoveryEnter_parts (s : State) {L : List Piece} (z0 : State) (hk : partsOnly L z0 s) (hL : sub [.regs, .upd] L = true := by simp [*]) : partsOnly L z0 (recoveryEnter s) := by
  simp only [sub_cons, sub_nil, and_true] at hL
  unfold recoveryEnter
  simp +contextual (maxDischargeDepth := 60) [*]

@[simp] theorem image_parts (okA : Bool) (okB : Bool) (a2 : State) {L : List Piece} (z0 : State) (hk : partsOnly L z0 a2) (hL : sub [.com, .msh, .lmp, .firn, .regs, .wpt, .upd, .evAt, .tables, .flight, .lum] L = true := by simp [*]) : partsOnly L z0 (image okA okB a2) := by
  simp only [sub_cons, sub_nil, and_true] at hL
  unfold image
  dsimp only
  (repeat' split) <;> simp +contextual (maxDischargeDepth := 60) [*]

@[simp] theorem netRestore_parts (coord : Bool) (s : State) {L : List Piece} (z0 : State) (hk : partsOnly L z0 s) (hL : sub [.rxc, .netCfg, .msh, .regs, .co, .freeCtr, .lnk] L = true := by simp [*]) : partsOnly L z0 (netRestore coord s) := by
  simp only [sub_cons, sub_nil, and_true] at hL
  unfold netRestore
  dsimp only
  (repeat' split) <;> simp +contextual (maxDischargeDepth := 60) [*]

@[simp] theorem enonceRestart_parts (s : State) {L : List Piece} (z0 : State) (hk : partsOnly L z0 s) (hL : sub [.lnk] L = true := by simp [*]) : partsOnly L z0 (enonceRestart s) := by
  simp only [sub_cons, sub_nil, and_true] at hL
  unfold enonceRestart
  dsimp only
  (repeat' split) <;> simp +contextual (maxDischargeDepth := 60) [*]

@[simp] theorem calAll_parts (s : State) {L : List Piece} (z0 : State) (hk : partsOnly L z0 s) (hL : sub [.rfe] L = true := by simp [*]) : partsOnly L z0 (calAll s) := by
  simp only [sub_cons, sub_nil, and_true] at hL
  unfold calAll
  dsimp only
  (repeat' split) <;> simp +contextual (maxDischargeDepth := 60) [*]

@[simp] theorem rmapRebuild_parts (s : State) {L : List Piece} (z0 : State) (hk : partsOnly L z0 s) (hL : sub [.age, .mboxes, .regs, .health, .heldNotices, .flight] L = true := by simp [*]) : partsOnly L z0 (rmapRebuild s) := by
  simp only [sub_cons, sub_nil, and_true] at hL
  unfold rmapRebuild
  simp +contextual (maxDischargeDepth := 60) [*]

@[simp] theorem bootNotice_parts (s : State) {L : List Piece} (z0 : State) (hk : partsOnly L z0 s) (hL : sub [.mboxes, .regs, .heldNotices] L = true := by simp [*]) : partsOnly L z0 (bootNotice s) := by
  simp only [sub_cons, sub_nil, and_true] at hL
  unfold bootNotice
  dsimp only
  (repeat' split) <;> simp +contextual (maxDischargeDepth := 60) [*]

@[simp] theorem krnServe_parts (s : State) {L : List Piece} (z0 : State) (hk : partsOnly L z0 s) (hL : sub [.runner, .mem] L = true := by simp [*]) : partsOnly L z0 (krnServe s) := by
  simp only [sub_cons, sub_nil, and_true] at hL
  unfold krnServe
  dsimp only
  (repeat' split) <;> simp +contextual (maxDischargeDepth := 60) [*]

@[simp] theorem running_parts (s : State) {L : List Piece} (z0 : State) (hk : partsOnly L z0 s) (hL : sub [.cores, .runAt, .mboxes, .firn, .runner, .regs, .upd, .heldNotices, .pwr, .mem, .flight] L = true := by simp [*]) : partsOnly L z0 (running s) := by
  simp only [sub_cons, sub_nil, and_true] at hL
  unfold running
  dsimp only
  (repeat' split) <;> simp +contextual (maxDischargeDepth := 60) [*]

@[simp] theorem gletyInit_parts (coord : Bool) (s : State) {L : List Piece} (z0 : State) (hk : partsOnly L z0 s) (hL : sub [.cores, .rxc, .netCfg, .age, .com, .runAt, .msh, .lmp, .mboxes, .firn, .runner, .regs, .upd, .health, .co, .freeCtr, .heldNotices, .lnk, .pwr, .mem, .flight, .sig, .lum, .rfe] L = true := by simp [*]) : partsOnly L z0 (gletyInit coord s) := by
  simp only [sub_cons, sub_nil, and_true] at hL
  unfold gletyInit
  dsimp only
  (repeat' split) <;> simp +contextual (maxDischargeDepth := 60) [*]

@[simp] theorem activateInPlace_parts (s : State) {L : List Piece} (z0 : State) (hk : partsOnly L z0 s) (hL : sub [.cores, .com, .msh, .lmp, .firn, .regs, .wpt, .upd, .evAt, .tables, .flight, .lum] L = true := by simp [*]) : partsOnly L z0 (activateInPlace s) := by
  simp only [sub_cons, sub_nil, and_true] at hL
  unfold activateInPlace
  dsimp only
  (repeat' split) <;> simp +contextual (maxDischargeDepth := 60) [*]

@[simp] theorem activateReset_parts (s : State) {L : List Piece} (z0 : State) (hk : partsOnly L z0 s) (hL : sub [.sysResetAt, .jtag, .cores, .rxc, .netCfg, .age, .boots, .resetDue, .par, .evt, .rtc, .com, .elapsed, .cph, .rdata, .spx, .runAt, .msh, .porAt, .lmp, .mboxes, .flc, .firn, .fuses, .runner, .regs, .tmrs, .wpt, .upd, .health, .tblJobs, .co, .freeCtr, .heldNotices, .drc, .lnk, .evAt, .pwr, .mbLast, .tables, .mem, .flight, .sig, .mir, .lum, .rfe] L = true := by simp [*]) : partsOnly L z0 (activateReset s) := by
  simp only [sub_cons, sub_nil, and_true] at hL
  unfold activateReset
  dsimp only
  (repeat' split) <;> simp +contextual (maxDischargeDepth := 60) [*]

@[simp] theorem activation_parts (a0 : State) {L : List Piece} (z0 : State) (hk : partsOnly L z0 a0) (hL : sub [.sysResetAt, .jtag, .cores, .rxc, .netCfg, .age, .boots, .resetDue, .par, .evt, .rtc, .com, .elapsed, .cph, .rdata, .spx, .runAt, .msh, .porAt, .lmp, .mboxes, .flc, .firn, .fuses, .runner, .regs, .tmrs, .wpt, .upd, .health, .tblJobs, .co, .freeCtr, .heldNotices, .drc, .lnk, .evAt, .pwr, .mbLast, .tables, .mem, .flight, .sig, .mir, .lum, .rfe] L = true := by simp [*]) : partsOnly L z0 (activation a0) := by
  simp only [sub_cons, sub_nil, and_true] at hL
  unfold activation
  dsimp only
  (repeat' split) <;> simp +contextual (maxDischargeDepth := 60) [*]

@[simp] theorem trialConfirm_parts (s : State) {L : List Piece} (z0 : State) (hk : partsOnly L z0 s) (hL : sub [.mboxes, .regs, .upd, .heldNotices, .flight] L = true := by simp [*]) : partsOnly L z0 (trialConfirm s) := by
  simp only [sub_cons, sub_nil, and_true] at hL
  unfold trialConfirm
  dsimp only
  (repeat' split) <;> simp +contextual (maxDischargeDepth := 60) [*]

@[simp] theorem confwinExpiry_parts (s : State) {L : List Piece} (z0 : State) (hk : partsOnly L z0 s) (hL : sub [.sysResetAt, .jtag, .cores, .rxc, .netCfg, .age, .boots, .resetDue, .par, .evt, .rtc, .com, .elapsed, .cph, .rdata, .spx, .runAt, .msh, .porAt, .lmp, .mboxes, .flc, .firn, .fuses, .runner, .regs, .tmrs, .wpt, .upd, .health, .tblJobs, .co, .freeCtr, .heldNotices, .drc, .lnk, .evAt, .pwr, .mbLast, .tables, .mem, .flight, .sig, .mir, .lum, .rfe] L = true := by simp [*]) : partsOnly L z0 (confwinExpiry s) := by
  simp only [sub_cons, sub_nil, and_true] at hL
  unfold confwinExpiry
  dsimp only
  (repeat' split) <;> simp +contextual (maxDischargeDepth := 60) [*]

@[simp] theorem recInstall_parts (b : List Nat) (s : State) {L : List Piece} (z0 : State) (hk : partsOnly L z0 s) (hL : sub [.sysResetAt, .jtag, .cores, .rxc, .netCfg, .age, .boots, .resetDue, .par, .evt, .rtc, .com, .elapsed, .cph, .rdata, .spx, .runAt, .msh, .porAt, .lmp, .mboxes, .flc, .firn, .fuses, .runner, .regs, .tmrs, .wpt, .upd, .health, .tblJobs, .co, .freeCtr, .heldNotices, .drc, .lnk, .evAt, .pwr, .mbLast, .tables, .mem, .flight, .sig, .mir, .lum, .rfe] L = true := by simp [*]) : partsOnly L z0 (recInstall b s) := by
  simp only [sub_cons, sub_nil, and_true] at hL
  unfold recInstall
  dsimp only
  (repeat' split) <;> simp +contextual (maxDischargeDepth := 60) [*]

@[simp] theorem cardTry_parts (card : List Nat) (s : State) {L : List Piece} (z0 : State) (hk : partsOnly L z0 s) (hL : sub [.sysResetAt, .jtag, .cores, .rxc, .netCfg, .age, .boots, .resetDue, .par, .evt, .rtc, .com, .elapsed, .cph, .rdata, .spx, .runAt, .msh, .porAt, .lmp, .mboxes, .flc, .firn, .fuses, .runner, .regs, .tmrs, .wpt, .upd, .health, .tblJobs, .co, .freeCtr, .heldNotices, .drc, .lnk, .evAt, .pwr, .mbLast, .tables, .mem, .flight, .sig, .mir, .lum, .rfe] L = true := by simp [*]) : partsOnly L z0 (cardTry card s) := by
  simp only [sub_cons, sub_nil, and_true] at hL
  unfold cardTry
  dsimp only
  (repeat' split) <;> simp +contextual (maxDischargeDepth := 60) [*]

@[simp] theorem recFrame_parts (words : List Nat) (s : State) {L : List Piece} (z0 : State) (hk : partsOnly L z0 s) (hL : sub [.sysResetAt, .jtag, .cores, .rxc, .netCfg, .age, .boots, .resetDue, .par, .evt, .rtc, .com, .elapsed, .cph, .rdata, .spx, .runAt, .msh, .porAt, .lmp, .mboxes, .flc, .firn, .fuses, .runner, .regs, .tmrs, .wpt, .upd, .health, .tblJobs, .co, .freeCtr, .heldNotices, .drc, .lnk, .evAt, .pwr, .mbLast, .tables, .mem, .flight, .sig, .mir, .lum, .rfe] L = true := by simp [*]) : partsOnly L z0 (recFrame words s) := by
  simp only [sub_cons, sub_nil, and_true] at hL
  unfold recFrame
  dsimp only
  (repeat' split) <;> simp +contextual (maxDischargeDepth := 60) [*]

@[simp] theorem mbTake_parts (m : Nat) (s : State) {L : List Piece} (z0 : State) (hk : partsOnly L z0 s) (hL : sub [.regs, .mbLast, .flight] L = true := by simp [*]) : partsOnly L z0 (mbTake m s) := by
  simp only [sub_cons, sub_nil, and_true] at hL
  unfold mbTake
  dsimp only
  (repeat' split) <;> simp +contextual (maxDischargeDepth := 60) [*]

@[simp] theorem mbPush_parts (m : Nat) (r : MbRec) (s : State) {L : List Piece} (z0 : State) (hk : partsOnly L z0 s) (hL : sub [.mboxes] L = true := by simp [*]) : partsOnly L z0 (mbPush m r s) := by
  simp only [sub_cons, sub_nil, and_true] at hL
  unfold mbPush
  simp +contextual (maxDischargeDepth := 60) [*]

@[simp] theorem mbResult_parts (m : Nat) (r : MbReq) (status : Nat) (payload : List Nat) (s : State) {L : List Piece} (z0 : State) (hk : partsOnly L z0 s) (hL : sub [.mboxes] L = true := by simp [*]) : partsOnly L z0 (mbResult m r status payload s) := by
  simp only [sub_cons, sub_nil, and_true] at hL
  unfold mbResult
  simp +contextual (maxDischargeDepth := 60) [*]

@[simp] theorem mbAccept_parts (m : Nat) (r : MbReq) (args : List Nat) (data : List Nat) (s : State) {L : List Piece} (z0 : State) (hk : partsOnly L z0 s) (hL : sub [.mboxes] L = true := by simp [*]) : partsOnly L z0 (mbAccept m r args data s) := by
  simp only [sub_cons, sub_nil, and_true] at hL
  unfold mbAccept
  dsimp only
  (repeat' split) <;> simp +contextual (maxDischargeDepth := 60) [*]

@[simp] theorem cmdRun_parts (m : Nat) (lenOk : Nat → Bool) (long : Bool) (body : MbReq → State → State) (s : State) {L : List Piece} (z0 : State) (h_body : ∀ (y0 : MbReq) (y1 : State), partsOnly L z0 y1 → partsOnly L z0 (body y0 y1)) (hk : partsOnly L z0 s) (hL : sub [.mboxes, .regs, .mbLast, .flight] L = true := by simp [*]) : partsOnly L z0 (cmdRun m lenOk long body s) := by
  simp only [sub_cons, sub_nil, and_true] at hL
  unfold cmdRun
  dsimp only
  (repeat' split) <;> simp +contextual (maxDischargeDepth := 60) [*]

@[simp] theorem shortCmd_parts (m : Nat) (n : Nat) (body : MbReq → State → State) (s : State) {L : List Piece} (z0 : State) (h_body : ∀ (y0 : MbReq) (y1 : State), partsOnly L z0 y1 → partsOnly L z0 (body y0 y1)) (hk : partsOnly L z0 s) (hL : sub [.mboxes, .regs, .mbLast, .flight] L = true := by simp [*]) : partsOnly L z0 (shortCmd m n body s) := by
  simp only [sub_cons, sub_nil, and_true] at hL
  unfold shortCmd
  simp +contextual (maxDischargeDepth := 60) [*]

@[simp] theorem longCmd_parts (m : Nat) (n : Nat) (body : MbReq → State → State) (s : State) {L : List Piece} (z0 : State) (h_body : ∀ (y0 : MbReq) (y1 : State), partsOnly L z0 y1 → partsOnly L z0 (body y0 y1)) (hk : partsOnly L z0 s) (hL : sub [.mboxes, .regs, .mbLast, .flight] L = true := by simp [*]) : partsOnly L z0 (longCmd m n body s) := by
  simp only [sub_cons, sub_nil, and_true] at hL
  unfold longCmd
  simp +contextual (maxDischargeDepth := 60) [*]

@[simp] theorem lostNotice_parts (m : Nat) (s : State) {L : List Piece} (z0 : State) (hk : partsOnly L z0 s) (hL : sub [.mboxes] L = true := by simp [*]) : partsOnly L z0 (lostNotice m s) := by
  simp only [sub_cons, sub_nil, and_true] at hL
  unfold lostNotice
  dsimp only
  (repeat' split) <;> simp +contextual (maxDischargeDepth := 60) [*]

@[simp] theorem recordPost_parts (m : Nat) (s : State) {L : List Piece} (z0 : State) (hk : partsOnly L z0 s) (hL : sub [.mboxes, .regs, .mem, .flight] L = true := by simp [*]) : partsOnly L z0 (recordPost m s) := by
  simp only [sub_cons, sub_nil, and_true] at hL
  unfold recordPost
  dsimp only
  (repeat' split) <;> simp +contextual (maxDischargeDepth := 60) [*]

@[simp] theorem progressRecord_parts (m : Nat) (tag : Nat) (s : State) {L : List Piece} (z0 : State) (hk : partsOnly L z0 s) (hL : sub [.mboxes, .regs] L = true := by simp [*]) : partsOnly L z0 (progressRecord m tag s) := by
  simp only [sub_cons, sub_nil, and_true] at hL
  unfold progressRecord
  dsimp only
  (repeat' split) <;> simp +contextual (maxDischargeDepth := 60) [*]

@[simp] theorem cardRelease_parts (o : LiveOp) (s : State) {L : List Piece} (z0 : State) (hk : partsOnly L z0 s) (hL : sub [.regs] L = true := by simp [*]) : partsOnly L z0 (cardRelease o s) := by
  simp only [sub_cons, sub_nil, and_true] at hL
  unfold cardRelease
  simp +contextual (maxDischargeDepth := 60) [*]

@[simp] theorem opUndo_parts (m : Nat) (o : LiveOp) (s : State) {L : List Piece} (z0 : State) (hk : partsOnly L z0 s) (hL : sub [.regs, .upd, .co, .lnk, .mir] L = true := by simp [*]) : partsOnly L z0 (opUndo m o s) := by
  simp only [sub_cons, sub_nil, and_true] at hL
  unfold opUndo
  dsimp only
  (repeat' split) <;> simp +contextual (maxDischargeDepth := 60) [*]

@[simp] theorem opCancel_parts (m : Nat) (o : LiveOp) (status : Nat) (s : State) {L : List Piece} (z0 : State) (hk : partsOnly L z0 s) (hL : sub [.mboxes, .regs, .upd, .co, .lnk, .mir] L = true := by simp [*]) : partsOnly L z0 (opCancel m o status s) := by
  simp only [sub_cons, sub_nil, and_true] at hL
  unfold opCancel
  simp +contextual (maxDischargeDepth := 60) [*]

@[simp] theorem suspend_parts (m : Nat) (s : State) {L : List Piece} (z0 : State) (hk : partsOnly L z0 s) (hL : sub [.mboxes, .regs, .mbLast, .flight] L = true := by simp [*]) : partsOnly L z0 (suspend m s) := by
  simp only [sub_cons, sub_nil, and_true] at hL
  unfold suspend
  refine shortCmd_parts _ _ _ _ _ (fun r t h => ?_) hk
  (repeat' split) <;> simp (maxDischargeDepth := 60) [hL, h]

@[simp] theorem resume_parts (m : Nat) (s : State) {L : List Piece} (z0 : State) (hk : partsOnly L z0 s) (hL : sub [.msh, .mboxes, .regs, .co, .evAt, .mbLast, .flight] L = true := by simp [*]) : partsOnly L z0 (resume m s) := by
  simp only [sub_cons, sub_nil, and_true] at hL
  unfold resume
  refine shortCmd_parts _ _ _ _ _ (fun r t h => ?_) hk
  (repeat' split) <;> simp (maxDischargeDepth := 60) [hL, h]

@[simp] theorem cancel_parts (m : Nat) (s : State) {L : List Piece} (z0 : State) (hk : partsOnly L z0 s) (hL : sub [.mboxes, .regs, .upd, .co, .lnk, .mbLast, .flight, .mir] L = true := by simp [*]) : partsOnly L z0 (cancel m s) := by
  simp only [sub_cons, sub_nil, and_true] at hL
  unfold cancel
  refine shortCmd_parts _ _ _ _ _ (fun r t h => ?_) hk
  (repeat' split) <;> simp (maxDischargeDepth := 60) [hL, h]

@[simp] theorem suspendTimeout_parts (m : Nat) (tag : Nat) (s : State) {L : List Piece} (z0 : State) (hk : partsOnly L z0 s) (hL : sub [.mboxes, .regs, .upd, .co, .lnk, .mir] L = true := by simp [*]) : partsOnly L z0 (suspendTimeout m tag s) := by
  simp only [sub_cons, sub_nil, and_true] at hL
  unfold suspendTimeout
  (repeat' split) <;> simp +contextual (maxDischargeDepth := 60) [*]

@[simp] theorem opsList_parts (m : Nat) (s : State) {L : List Piece} (z0 : State) (hk : partsOnly L z0 s) (hL : sub [.mboxes, .regs, .mbLast, .flight] L = true := by simp [*]) : partsOnly L z0 (opsList m s) := by
  simp only [sub_cons, sub_nil, and_true] at hL
  unfold opsList
  dsimp only
  (repeat' split) <;> simp +contextual (maxDischargeDepth := 60) [*]

@[simp] theorem mbFlush_parts (m : Nat) (s : State) {L : List Piece} (z0 : State) (hk : partsOnly L z0 s) (hL : sub [.regs] L = true := by simp [*]) : partsOnly L z0 (mbFlush m s) := by
  simp only [sub_cons, sub_nil, and_true] at hL
  unfold mbFlush
  simp +contextual (maxDischargeDepth := 60) [*]

@[simp] theorem mbForget_parts (m : Nat) (s : State) {L : List Piece} (z0 : State) (hk : partsOnly L z0 s) (hL : sub [.tblJobs, .co, .lnk, .mir] L = true := by simp [*]) : partsOnly L z0 (mbForget m s) := by
  simp only [sub_cons, sub_nil, and_true] at hL
  unfold mbForget
  dsimp only
  (repeat' split) <;> simp +contextual (maxDischargeDepth := 60) [*]

@[simp] theorem flushDone_parts (m : Nat) (s : State) {L : List Piece} (z0 : State) (hk : partsOnly L z0 s) (hL : sub [.mboxes, .regs, .upd, .tblJobs, .co, .lnk, .mir] L = true := by simp [*]) : partsOnly L z0 (flushDone m s) := by
  simp only [sub_cons, sub_nil, and_true] at hL
  unfold flushDone
  dsimp only
  (repeat' split) <;> simp +contextual (maxDischargeDepth := 60) [*]

@[simp] theorem bufPut_parts (m : Nat) (h : Nat) (data : List Nat) (s : State) {L : List Piece} (z0 : State) (hk : partsOnly L z0 s) (hL : sub [.mboxes] L = true := by simp [*]) : partsOnly L z0 (bufPut m h data s) := by
  simp only [sub_cons, sub_nil, and_true] at hL
  unfold bufPut
  simp +contextual (maxDischargeDepth := 60) [*]

@[simp] theorem bufOpen_parts (m : Nat) (s : State) {L : List Piece} (z0 : State) (hk : partsOnly L z0 s) (hL : sub [.mboxes, .regs, .freeCtr, .mbLast, .flight] L = true := by simp [*]) : partsOnly L z0 (bufOpen m s) := by
  simp only [sub_cons, sub_nil, and_true] at hL
  unfold bufOpen
  refine shortCmd_parts _ _ _ _ _ (fun r t h => ?_) hk
  (repeat' split) <;> simp (maxDischargeDepth := 60) [hL, h]

@[simp] theorem bufWrite_parts (m : Nat) (s : State) {L : List Piece} (z0 : State) (hk : partsOnly L z0 s) (hL : sub [.mboxes, .regs, .mbLast, .flight] L = true := by simp [*]) : partsOnly L z0 (bufWrite m s) := by
  simp only [sub_cons, sub_nil, and_true] at hL
  unfold bufWrite
  refine cmdRun_parts _ _ _ _ _ _ (fun r t h => ?_) hk
  (repeat' split) <;> simp (maxDischargeDepth := 60) [hL, h]

@[simp] theorem bufRead_parts (m : Nat) (s : State) {L : List Piece} (z0 : State) (hk : partsOnly L z0 s) (hL : sub [.mboxes, .regs, .mbLast, .flight] L = true := by simp [*]) : partsOnly L z0 (bufRead m s) := by
  simp only [sub_cons, sub_nil, and_true] at hL
  unfold bufRead
  refine shortCmd_parts _ _ _ _ _ (fun r t h => ?_) hk
  (repeat' split) <;> simp (maxDischargeDepth := 60) [hL, h]

@[simp] theorem bufClose_parts (m : Nat) (s : State) {L : List Piece} (z0 : State) (hk : partsOnly L z0 s) (hL : sub [.mboxes, .regs, .mbLast, .flight] L = true := by simp [*]) : partsOnly L z0 (bufClose m s) := by
  simp only [sub_cons, sub_nil, and_true] at hL
  unfold bufClose
  simp +contextual (maxDischargeDepth := 60) [*]

@[simp] theorem unknownCommand_parts (m : Nat) (s : State) {L : List Piece} (z0 : State) (hk : partsOnly L z0 s) (hL : sub [.mboxes, .regs, .mbLast, .flight] L = true := by simp [*]) : partsOnly L z0 (unknownCommand m s) := by
  simp only [sub_cons, sub_nil, and_true] at hL
  unfold unknownCommand
  simp +contextual (maxDischargeDepth := 60) [*]

end Sys2Proof.Machine
end

