-- ==== Sys2Proof/Laws/PartsBus.lean ====
section
/-!
SUPPORT. What register writes, the bus, and both instruction sets leave alone: one lemma per operation, over `partsOnly` (Laws/Parts.lean).
-/
namespace Sys2Proof.Machine
set_option Elab.async false

@[simp] theorem fieldPut_parts (f : Field) (v : Nat) (s : State) {L : List Piece} (z0 : State) (hk : partsOnly L z0 s) (hL : sub [.regs] L = true := by simp [*]) : partsOnly L z0 (fieldPut f v s) := by
  simp only [sub_cons, sub_nil, and_true] at hL
  unfold fieldPut
  (repeat' split) <;> simp +contextual (maxDischargeDepth := 60) [*]

@[simp] theorem regPut_parts (skip : List Field) (fs : List Field) (v : Nat) (s : State) {L : List Piece} (z0 : State) (hk : partsOnly L z0 s) (hL : sub [.regs] L = true := by simp [*]) : partsOnly L z0 (regPut skip fs v s) := by
  simp only [sub_cons, sub_nil, and_true] at hL
  unfold regPut
  simp +contextual (maxDischargeDepth := 60) [*]

@[simp] theorem pwrWrite_parts (a : Nat) (v : Nat) (fs : List Field) (s : State) {L : List Piece} (z0 : State) (hk : partsOnly L z0 s) (hL : sub [.regs, .pwr, .flight] L = true := by simp [*]) : partsOnly L z0 (pwrWrite a v fs s) := by
  simp only [sub_cons, sub_nil, and_true] at hL
  unfold pwrWrite
  dsimp only
  (repeat' split) <;> simp +contextual (maxDischargeDepth := 60) [*]

@[simp] theorem firnWrite_parts (a : Nat) (v : Nat) (fs : List Field) (s : State) {L : List Piece} (z0 : State) (hk : partsOnly L z0 s) (hL : sub [.firn, .regs] L = true := by simp [*]) : partsOnly L z0 (firnWrite a v fs s) := by
  simp only [sub_cons, sub_nil, and_true] at hL
  unfold firnWrite
  dsimp only
  (repeat' split) <;> simp +contextual (maxDischargeDepth := 60) [*]

@[simp] theorem evtWrite_parts (a : Nat) (v : Nat) (fs : List Field) (s : State) {L : List Piece} (z0 : State) (hk : partsOnly L z0 s) (hL : sub [.evt, .com, .lmp, .firn, .runner, .regs, .tmrs, .freeCtr, .lnk, .evAt, .pwr, .mem, .flight, .sig, .lum] L = true := by simp [*]) : partsOnly L z0 (evtWrite a v fs s) := by
  simp only [sub_cons, sub_nil, and_true] at hL
  unfold evtWrite
  dsimp only
  (repeat' split) <;> simp +contextual (maxDischargeDepth := 60) [*]

@[simp] theorem intcWrite_parts (ini : Nat) (a : Nat) (v : Nat) (fs : List Field) (s : State) {L : List Piece} (z0 : State) (hk : partsOnly L z0 s) (hL : sub [.regs] L = true := by simp [*]) : partsOnly L z0 (intcWrite ini a v fs s) := by
  simp only [sub_cons, sub_nil, and_true] at hL
  unfold intcWrite
  dsimp only
  (repeat' split) <;> simp +contextual (maxDischargeDepth := 60) [*]

@[simp] theorem tmrWrite_parts (a : Nat) (v : Nat) (fs : List Field) (s : State) {L : List Piece} (z0 : State) (hk : partsOnly L z0 s) (hL : sub [.com, .regs, .tmrs, .flight] L = true := by simp [*]) : partsOnly L z0 (tmrWrite a v fs s) := by
  simp only [sub_cons, sub_nil, and_true] at hL
  unfold tmrWrite
  dsimp only
  (repeat' split) <;> simp +contextual (maxDischargeDepth := 60) [*]

@[simp] theorem rtcWrite_parts (a : Nat) (v : Nat) (fs : List Field) (s : State) {L : List Piece} (z0 : State) (hk : partsOnly L z0 s) (hL : sub [.rtc, .regs] L = true := by simp [*]) : partsOnly L z0 (rtcWrite a v fs s) := by
  simp only [sub_cons, sub_nil, and_true] at hL
  unfold rtcWrite
  dsimp only
  (repeat' split) <;> simp +contextual (maxDischargeDepth := 60) [*]

@[simp] theorem reqDoorbell_parts (m : Nat) (v : Nat) (s : State) {L : List Piece} (z0 : State) (hk : partsOnly L z0 s) (hL : sub [.regs] L = true := by simp [*]) : partsOnly L z0 (reqDoorbell m v s) := by
  simp only [sub_cons, sub_nil, and_true] at hL
  unfold reqDoorbell
  dsimp only
  (repeat' split) <;> simp +contextual (maxDischargeDepth := 60) [*]

@[simp] theorem rspWrite_parts (m : Nat) (v : Nat) (s : State) {L : List Piece} (z0 : State) (hk : partsOnly L z0 s) (hL : sub [.regs] L = true := by simp [*]) : partsOnly L z0 (rspWrite m v s) := by
  simp only [sub_cons, sub_nil, and_true] at hL
  unfold rspWrite
  dsimp only
  (repeat' split) <;> simp +contextual (maxDischargeDepth := 60) [*]

@[simp] theorem mbxWrite_parts (a : Nat) (v : Nat) (fs : List Field) (s : State) {L : List Piece} (z0 : State) (hk : partsOnly L z0 s) (hL : sub [.regs, .mem] L = true := by simp [*]) : partsOnly L z0 (mbxWrite a v fs s) := by
  simp only [sub_cons, sub_nil, and_true] at hL
  unfold mbxWrite
  dsimp only
  (repeat' split) <;> simp +contextual (maxDischargeDepth := 60) [*]

@[simp] theorem flcWrite_parts (ini : Nat) (a : Nat) (v : Nat) (fs : List Field) (s : State) {L : List Piece} (z0 : State) (hk : partsOnly L z0 s) (hL : sub [.par, .flc, .regs, .drc, .mem, .flight] L = true := by simp [*]) : partsOnly L z0 (flcWrite ini a v fs s) := by
  simp only [sub_cons, sub_nil, and_true] at hL
  unfold flcWrite
  (repeat' split) <;> simp +contextual (maxDischargeDepth := 60) [*]

@[simp] theorem cphLoadNext_parts (n : Nat) (s : State) {L : List Piece} (z0 : State) (hk : partsOnly L z0 s) (hL : sub [.cph, .regs, .flight] L = true := by simp [*]) : partsOnly L z0 (cphLoadNext n s) := by
  simp only [sub_cons, sub_nil, and_true] at hL
  unfold cphLoadNext
  simp +contextual (maxDischargeDepth := 60) [*]

@[simp] theorem cphWrite_parts (parity : Bool) (a : Nat) (v : Nat) (fs : List Field) (s : State) {L : List Piece} (z0 : State) (hk : partsOnly L z0 s) (hL : sub [.cph, .regs, .flight] L = true := by simp [*]) : partsOnly L z0 (cphWrite parity a v fs s) := by
  simp only [sub_cons, sub_nil, and_true] at hL
  unfold cphWrite
  dsimp only
  (repeat' split) <;> simp +contextual (maxDischargeDepth := 60) [*]

@[simp] theorem ownerChange_parts (k : Nat) (s : State) {L : List Piece} (z0 : State) (hk : partsOnly L z0 s) (hL : sub [.cph, .runner, .regs, .freeCtr, .mem, .flight, .sig] L = true := by simp [*]) : partsOnly L z0 (ownerChange k s) := by
  simp only [sub_cons, sub_nil, and_true] at hL
  unfold ownerChange
  simp +contextual (maxDischargeDepth := 60) [*]

@[simp] theorem protWrite_parts (a : Nat) (v : Nat) (fs : List Field) (s : State) {L : List Piece} (z0 : State) (hk : partsOnly L z0 s) (hL : sub [.cph, .runner, .regs, .freeCtr, .mem, .flight, .sig] L = true := by simp [*]) : partsOnly L z0 (protWrite a v fs s) := by
  simp only [sub_cons, sub_nil, and_true] at hL
  unfold protWrite
  dsimp only
  (repeat' split) <;> simp +contextual (maxDischargeDepth := 60) [*]

@[simp] theorem spxWrite_parts (ini : Nat) (a : Nat) (v : Nat) (fs : List Field) (s : State) {L : List Piece} (z0 : State) (hk : partsOnly L z0 s) (hL : sub [.spx, .regs] L = true := by simp [*]) : partsOnly L z0 (spxWrite ini a v fs s) := by
  simp only [sub_cons, sub_nil, and_true] at hL
  unfold spxWrite
  dsimp only
  (repeat' split) <;> simp +contextual (maxDischargeDepth := 60) [*]

@[simp] theorem mirWrite_parts (a : Nat) (v : Nat) (fs : List Field) (s : State) {L : List Piece} (z0 : State) (hk : partsOnly L z0 s) (hL : sub [.regs, .mir] L = true := by simp [*]) : partsOnly L z0 (mirWrite a v fs s) := by
  simp only [sub_cons, sub_nil, and_true] at hL
  unfold mirWrite
  dsimp only
  (repeat' split) <;> simp +contextual (maxDischargeDepth := 60) [*]

@[simp] theorem lmpWrite_parts (ini : Nat) (a : Nat) (v : Nat) (fs : List Field) (s : State) {L : List Piece} (z0 : State) (hk : partsOnly L z0 s) (hL : sub [.lmp, .regs] L = true := by simp [*]) : partsOnly L z0 (lmpWrite ini a v fs s) := by
  simp only [sub_cons, sub_nil, and_true] at hL
  unfold lmpWrite
  dsimp only
  (repeat' split) <;> simp +contextual (maxDischargeDepth := 60) [*]

@[simp] theorem slotWrite_parts (parity : Bool) (ini : Nat) (a : Nat) (v : Nat) (s : State) {L : List Piece} (z0 : State) (hk : partsOnly L z0 s) (hL : sub [.par, .evt, .rtc, .com, .cph, .spx, .lmp, .flc, .firn, .runner, .regs, .tmrs, .freeCtr, .drc, .lnk, .evAt, .pwr, .mem, .flight, .sig, .mir, .lum] L = true := by simp [*]) : partsOnly L z0 (slotWrite parity ini a v s) := by
  simp only [sub_cons, sub_nil, and_true] at hL
  unfold slotWrite
  dsimp only
  (repeat' split) <;> simp +contextual (maxDischargeDepth := 60) [*]

@[simp] theorem regFresh_parts (ini : Nat) (a : Nat) (s : State) {L : List Piece} (z0 : State) (hk : partsOnly L z0 s) (hL : sub [.regs] L = true := by simp [*]) : partsOnly L z0 (regFresh ini a s) := by
  simp only [sub_cons, sub_nil, and_true] at hL
  unfold regFresh
  dsimp only
  (repeat' split) <;> simp +contextual (maxDischargeDepth := 60) [*]

@[simp] theorem regRc_parts (fs : List Field) (s : State) {L : List Piece} (z0 : State) (hk : partsOnly L z0 s) (hL : sub [.regs] L = true := by simp [*]) : partsOnly L z0 (regRc fs s) := by
  simp only [sub_cons, sub_nil, and_true] at hL
  unfold regRc
  simp +contextual (maxDischargeDepth := 60) [*]

@[simp] theorem slotRead_parts (ini : Nat) (a : Nat) (s : State) {L : List Piece} (z0 : State) (hk : partsOnly L z0 s) (hL : sub [.rtc, .spx, .firn, .regs, .freeCtr] L = true := by simp [*]) : partsOnly L z0 (slotRead ini a s).2 := by
  simp only [sub_cons, sub_nil, and_true] at hL
  unfold slotRead
  repeat' (refine parts_ite_snd _ _ _ ?_ ?_)
  all_goals first | exact hk | simp (maxDischargeDepth := 60) [hL, hk]

@[simp] theorem busFail_parts (w : BusReq) (write : Bool) (kind : Nat) (denied : Bool) (s : State) {L : List Piece} (z0 : State) (hk : partsOnly L z0 s) (hL : sub [.regs] L = true := by simp [*]) : partsOnly L z0 (busFail w write kind denied s).2 := by
  simp only [sub_cons, sub_nil, and_true] at hL
  unfold busFail
  dsimp only
  (repeat' split) <;> simp +contextual (maxDischargeDepth := 60) [*]

@[simp] theorem dramBusRead_parts (w : BusReq) (g : Nat) (s : State) {L : List Piece} (z0 : State) (hk : partsOnly L z0 s) (hL : sub [.regs, .drc] L = true := by simp [*]) : partsOnly L z0 (dramBusRead w g s).2 := by
  simp only [sub_cons, sub_nil, and_true] at hL
  unfold dramBusRead
  dsimp only
  (repeat' split) <;> simp +contextual (maxDischargeDepth := 60) [*]

@[simp] theorem targetRead_parts (w : BusReq) (s : State) {L : List Piece} (z0 : State) (hk : partsOnly L z0 s) (hL : sub [.age, .par, .rtc, .spx, .mboxes, .firn, .regs, .health, .freeCtr, .heldNotices, .drc, .flight] L = true := by simp [*]) : partsOnly L z0 (targetRead w s).2 := by
  simp only [sub_cons, sub_nil, and_true] at hL
  unfold targetRead
  dsimp only
  (repeat' split) <;> simp +contextual (maxDischargeDepth := 60) [*]

@[simp] theorem targetWrite_parts (parity : Bool) (w : BusReq) (s : State) {L : List Piece} (z0 : State) (hk : partsOnly L z0 s) (hL : sub [.par, .evt, .rtc, .com, .cph, .spx, .lmp, .flc, .firn, .runner, .regs, .tmrs, .freeCtr, .drc, .lnk, .evAt, .pwr, .mem, .flight, .sig, .mir, .lum] L = true := by simp [*]) : partsOnly L z0 (targetWrite parity w s).2 := by
  simp only [sub_cons, sub_nil, and_true] at hL
  unfold targetWrite
  dsimp only
  (repeat' split) <;> simp +contextual (maxDischargeDepth := 60) [*]

@[simp] theorem busRead_parts (w : BusReq) (fetch : Bool) (s : State) {L : List Piece} (z0 : State) (hk : partsOnly L z0 s) (hL : sub [.age, .par, .rtc, .spx, .mboxes, .firn, .regs, .health, .freeCtr, .heldNotices, .drc, .pwr, .flight] L = true := by simp [*]) : partsOnly L z0 (busRead w fetch s).2 := by
  simp only [sub_cons, sub_nil, and_true] at hL
  unfold busRead
  dsimp only
  (repeat' split) <;> simp +contextual (maxDischargeDepth := 60) [*]

@[simp] theorem holdWrite_parts (w : BusReq) (n : Nat) (s : State) {L : List Piece} (z0 : State) (hk : partsOnly L z0 s) (hL : sub [.pwr] L = true := by simp [*]) : partsOnly L z0 (holdWrite w n s).2 := by
  simp only [sub_cons, sub_nil, and_true] at hL
  unfold holdWrite
  (repeat' split) <;> simp +contextual (maxDischargeDepth := 60) [*]

@[simp] theorem busWriteP_parts (parity : Bool) (w : BusReq) (s : State) {L : List Piece} (z0 : State) (hk : partsOnly L z0 s) (hL : sub [.par, .evt, .rtc, .com, .cph, .spx, .lmp, .flc, .firn, .runner, .regs, .tmrs, .freeCtr, .drc, .lnk, .evAt, .pwr, .mem, .flight, .sig, .mir, .lum] L = true := by simp [*]) : partsOnly L z0 (busWriteP parity w s).2 := by
  simp only [sub_cons, sub_nil, and_true] at hL
  unfold busWriteP
  dsimp only
  (repeat' split) <;> simp +contextual (maxDischargeDepth := 60) [*]

@[simp] theorem busWrite_parts (w : BusReq) (s : State) {L : List Piece} (z0 : State) (hk : partsOnly L z0 s) (hL : sub [.par, .evt, .rtc, .com, .cph, .spx, .lmp, .flc, .firn, .runner, .regs, .tmrs, .freeCtr, .drc, .lnk, .evAt, .pwr, .mem, .flight, .sig, .mir, .lum] L = true := by simp [*]) : partsOnly L z0 (busWrite w s).2 := by
  simp only [sub_cons, sub_nil, and_true] at hL
  unfold busWrite
  simp +contextual (maxDischargeDepth := 60) [*]

@[simp] theorem cmdWriteP_parts (parity : Bool) (w : BusReq) (s : State) {L : List Piece} (z0 : State) (hk : partsOnly L z0 s) (hL : sub [.cores, .par, .evt, .rtc, .com, .cph, .spx, .lmp, .flc, .firn, .runner, .regs, .tmrs, .freeCtr, .drc, .lnk, .evAt, .pwr, .mem, .flight, .sig, .mir, .lum] L = true := by simp [*]) : partsOnly L z0 (cmdWriteP parity w s) := by
  simp only [sub_cons, sub_nil, and_true] at hL
  unfold cmdWriteP
  have h1 := busWriteP_parts parity w s z0 hk
  revert h1
  generalize busWriteP parity w s = e
  obtain ⟨r, t⟩ := e
  intro h1
  have h : partsOnly L z0 t := h1
  cases r <;> simp (maxDischargeDepth := 60) [hL, h]

@[simp] theorem cmdWrite_parts (w : BusReq) (s : State) {L : List Piece} (z0 : State) (hk : partsOnly L z0 s) (hL : sub [.cores, .par, .evt, .rtc, .com, .cph, .spx, .lmp, .flc, .firn, .runner, .regs, .tmrs, .freeCtr, .drc, .lnk, .evAt, .pwr, .mem, .flight, .sig, .mir, .lum] L = true := by simp [*]) : partsOnly L z0 (cmdWrite w s) := by
  simp only [sub_cons, sub_nil, and_true] at hL
  unfold cmdWrite
  simp +contextual (maxDischargeDepth := 60) [*]

@[simp] theorem cmdRead_parts (w : BusReq) (s : State) {L : List Piece} (z0 : State) (hk : partsOnly L z0 s) (hL : sub [.age, .par, .rtc, .rdata, .spx, .mboxes, .firn, .regs, .health, .freeCtr, .heldNotices, .drc, .pwr, .flight] L = true := by simp [*]) : partsOnly L z0 (cmdRead w s) := by
  simp only [sub_cons, sub_nil, and_true] at hL
  unfold cmdRead
  have h1 := busRead_parts w false s z0 hk
  revert h1
  generalize busRead w false s = e
  obtain ⟨r, t⟩ := e
  intro h1
  have h : partsOnly L z0 t := h1
  cases r <;> simp (maxDischargeDepth := 60) [hL, h]

@[simp] theorem heldWrite_parts (s : State) {L : List Piece} (z0 : State) (hk : partsOnly L z0 s) (hL : sub [.par, .evt, .rtc, .com, .cph, .spx, .lmp, .flc, .firn, .runner, .regs, .tmrs, .freeCtr, .drc, .lnk, .evAt, .pwr, .mem, .flight, .sig, .mir, .lum] L = true := by simp [*]) : partsOnly L z0 (heldWrite s) := by
  simp only [sub_cons, sub_nil, and_true] at hL
  unfold heldWrite
  split
  · exact hk
  · next x _ =>
    have h0 : partsOnly L z0 (pwrMod (fun p => { p with held := p.held.erase x }) s) := by simp (maxDischargeDepth := 60) [hL, hk]
    have h1 := targetWrite_parts false { ini := x.ini, user := x.user, addr := x.addr, size := x.size, val := x.val, par := false } _ z0 h0
    revert h1
    dsimp only
    generalize targetWrite false _ _ = e
    obtain ⟨r, t⟩ := e
    intro h1
    cases r <;> first | exact hk | exact h1

@[simp] theorem shadowCommit_parts (b : Nat) (s : State) {L : List Piece} (z0 : State) (hk : partsOnly L z0 s) (hL : sub [.com, .firn, .regs] L = true := by simp [*]) : partsOnly L z0 (shadowCommit b s) := by
  simp only [sub_cons, sub_nil, and_true] at hL
  unfold shadowCommit
  simp +contextual (maxDischargeDepth := 60) [*]

@[simp] theorem hostErr_parts (a : Nat) (s : State) {L : List Piece} (z0 : State) (hk : partsOnly L z0 s) (hL : sub [.regs] L = true := by simp [*]) : partsOnly L z0 (hostErr a s) := by
  simp only [sub_cons, sub_nil, and_true] at hL
  unfold hostErr
  simp +contextual (maxDischargeDepth := 60) [*]

@[simp] theorem hostRead_parts (idx : Nat) (s : State) {L : List Piece} (z0 : State) (hk : partsOnly L z0 s) (hL : sub [.age, .par, .rtc, .spx, .mboxes, .firn, .regs, .health, .freeCtr, .heldNotices, .drc, .pwr, .flight] L = true := by simp [*]) : partsOnly L z0 (hostRead idx s).2 := by
  simp only [sub_cons, sub_nil, and_true] at hL
  unfold hostRead
  split
  · next x _ =>
    have h1 := busRead_parts (hostReq x 0) false s z0 hk
    revert h1
    generalize busRead (hostReq x 0) false s = e
    obtain ⟨r, t⟩ := e
    intro h1
    have h : partsOnly L z0 t := h1
    cases r <;> simp (maxDischargeDepth := 60) [hL, h]
  · split
    · simp (maxDischargeDepth := 60) [hL, hk]
    · split <;> exact hk

@[simp] theorem hostWrite_parts (idx : Nat) (v : Nat) (s : State) {L : List Piece} (z0 : State) (hk : partsOnly L z0 s) (hL : sub [.cores, .par, .evt, .rtc, .com, .cph, .spx, .lmp, .flc, .firn, .runner, .regs, .tmrs, .freeCtr, .drc, .lnk, .evAt, .pwr, .mem, .flight, .sig, .mir, .lum] L = true := by simp [*]) : partsOnly L z0 (hostWrite idx v s) := by
  simp only [sub_cons, sub_nil, and_true] at hL
  unfold hostWrite
  dsimp only
  (repeat' split) <;> simp +contextual (maxDischargeDepth := 60) [*]

@[simp] theorem hostReadWord_parts (cmd : Nat) (idx : Nat) (k : Nat) (s : State) {L : List Piece} (z0 : State) (hk : partsOnly L z0 s) (hL : sub [.age, .par, .rtc, .rdata, .spx, .mboxes, .firn, .regs, .health, .freeCtr, .heldNotices, .drc, .pwr, .flight] L = true := by simp [*]) : partsOnly L z0 (hostReadWord cmd idx k s) := by
  simp only [sub_cons, sub_nil, and_true] at hL
  unfold hostReadWord
  have h1 := hostRead_parts (hostIndex cmd idx k) s z0 hk
  revert h1
  generalize hostRead (hostIndex cmd idx k) s = e
  obtain ⟨r, t⟩ := e
  intro h1
  have h : partsOnly L z0 t := h1
  cases r <;> simp (maxDischargeDepth := 60) [hL, h]

@[simp] theorem hostFrame_parts (nbits : Nat) (bytes : List Nat) (s : State) {L : List Piece} (z0 : State) (hk : partsOnly L z0 s) (hL : sub [.cores, .par, .evt, .rtc, .com, .cph, .spx, .lmp, .flc, .firn, .runner, .regs, .tmrs, .freeCtr, .drc, .lnk, .evAt, .pwr, .mem, .flight, .sig, .mir, .lum] L = true := by simp [*]) : partsOnly L z0 (hostFrame nbits bytes s) := by
  simp only [sub_cons, sub_nil, and_true] at hL
  unfold hostFrame
  dsimp only
  (repeat' split) <;> simp +contextual (maxDischargeDepth := 60) [*]

@[simp] theorem recAnswered_parts (status : Nat) (s : State) {L : List Piece} (z0 : State) (hk : partsOnly L z0 s) (hL : sub [.rdata] L = true := by simp [*]) : partsOnly L z0 (recAnswered status s) := by
  simp only [sub_cons, sub_nil, and_true] at hL
  unfold recAnswered
  simp +contextual (maxDischargeDepth := 60) [*]

@[simp] theorem slaveFrameEnd_parts (nbits : Nat) (bytes : List Nat) (sent : Nat) (s : State) {L : List Piece} (z0 : State) (hk : partsOnly L z0 s) (hL : sub [.sysResetAt, .jtag, .cores, .rxc, .netCfg, .age, .boots, .resetDue, .par, .evt, .rtc, .com, .elapsed, .cph, .rdata, .spx, .runAt, .msh, .porAt, .lmp, .mboxes, .flc, .firn, .fuses, .runner, .regs, .tmrs, .wpt, .upd, .health, .tblJobs, .co, .freeCtr, .heldNotices, .drc, .lnk, .evAt, .pwr, .mbLast, .tables, .mem, .flight, .sig, .mir, .lum, .rfe] L = true := by simp [*]) : partsOnly L z0 (slaveFrameEnd nbits bytes sent s) := by
  simp only [sub_cons, sub_nil, and_true] at hL
  unfold slaveFrameEnd
  dsimp only
  (repeat' split) <;> simp +contextual (maxDischargeDepth := 60) [*]

@[simp] theorem coreMod_parts (ini : Nat) (f : Core → Core) (s : State) {L : List Piece} (z0 : State) (hk : partsOnly L z0 s) (hL : sub [.cores] L = true := by simp [*]) : partsOnly L z0 (coreMod ini f s) := by
  simp only [sub_cons, sub_nil, and_true] at hL
  unfold coreMod
  simp +contextual (maxDischargeDepth := 60) [*]

@[simp] theorem isaWaits_parts (ini : Nat) (s : State) {L : List Piece} (z0 : State) (hk : partsOnly L z0 s) (hL : sub [.cores] L = true := by simp [*]) : partsOnly L z0 (isaWaits ini s) := by
  simp only [sub_cons, sub_nil, and_true] at hL
  unfold isaWaits
  simp +contextual (maxDischargeDepth := 60) [*]

@[simp] theorem waitState_parts (w : BusReq) (write : Bool) (s : State) {L : List Piece} (z0 : State) (hk : partsOnly L z0 s) (hL : sub [.age, .par, .evt, .rtc, .com, .cph, .spx, .lmp, .mboxes, .flc, .firn, .runner, .regs, .tmrs, .health, .freeCtr, .heldNotices, .drc, .lnk, .evAt, .pwr, .mem, .flight, .sig, .mir, .lum] L = true := by simp [*]) : partsOnly L z0 (waitState w write s) := by
  simp only [sub_cons, sub_nil, and_true] at hL
  unfold waitState
  split
  · have h1 := busWrite_parts w s z0 hk
    revert h1
    generalize busWrite w s = e
    obtain ⟨r, t⟩ := e
    intro h1
    cases r <;> first | exact hk | exact h1
  · have h1 := busRead_parts w false s z0 hk
    revert h1
    generalize busRead w false s = e
    obtain ⟨r, t⟩ := e
    intro h1
    cases r <;> first | exact hk | exact h1

/-- The pieces that a write over the bus may change. -/
def busWritePieces : List Piece := [.par, .evt, .rtc, .com, .cph, .spx, .lmp, .flc, .firn, .runner, .regs, .tmrs, .freeCtr, .drc, .lnk, .evAt, .pwr, .mem, .flight, .sig, .mir, .lum]

/-- An end of an instruction's operation that leaves alone what the state before it had; one that waits for a write may change what a write changes. -/
def IsaRes.Only (L : List Piece) (z0 : State) : IsaRes → Prop
  | .next s => partsOnly L z0 s
  | .jump _ s => partsOnly L z0 s
  | .again s => partsOnly L z0 s
  | .wait _ w s => partsOnly L z0 s ∧ (w = true → sub busWritePieces L = true)
  | .stop s => partsOnly L z0 s
  | .exc _ s => partsOnly L z0 s

@[simp] theorem only_next {L : List Piece} (z0 s : State) : IsaRes.Only L z0 (.next s) ↔ partsOnly L z0 s := Iff.rfl

@[simp] theorem only_jump {L : List Piece} (z0 s : State) (t : Nat) : IsaRes.Only L z0 (.jump t s) ↔ partsOnly L z0 s := Iff.rfl

@[simp] theorem only_again {L : List Piece} (z0 s : State) : IsaRes.Only L z0 (.again s) ↔ partsOnly L z0 s := Iff.rfl

@[simp] theorem only_wait {L : List Piece} (z0 s : State) (w : BusReq) (b : Bool) : IsaRes.Only L z0 (.wait w b s) ↔ partsOnly L z0 s ∧ (b = true → sub busWritePieces L = true) := Iff.rfl

@[simp] theorem only_stop {L : List Piece} (z0 s : State) : IsaRes.Only L z0 (.stop s) ↔ partsOnly L z0 s := Iff.rfl

@[simp] theorem only_exc {L : List Piece} (z0 s : State) (e : Exc) : IsaRes.Only L z0 (.exc e s) ↔ partsOnly L z0 s := Iff.rfl

theorem waitRead_parts (w : BusReq) (s : State) {L : List Piece} (z0 : State) (hk : partsOnly L z0 s) (hL : sub [.age, .par, .rtc, .spx, .mboxes, .firn, .regs, .health, .freeCtr, .heldNotices, .drc, .pwr, .flight] L = true := by simp [*]) : partsOnly L z0 (waitState w false s) := by
  simp only [sub_cons, sub_nil, and_true] at hL
  unfold waitState
  simp only [Bool.false_eq_true, if_false]
  have h1 := busRead_parts w false s z0 hk
  revert h1
  generalize busRead w false s = e
  obtain ⟨r, t⟩ := e
  intro h1
  cases r <;> first | exact hk | exact h1

theorem waitWrite_parts (w : BusReq) (s : State) {L : List Piece} (z0 : State) (hk : partsOnly L z0 s) (hL : sub busWritePieces L = true) : partsOnly L z0 (waitState w true s) := by
  simp only [busWritePieces, sub_cons, sub_nil, and_true] at hL
  unfold waitState
  simp only [if_true]
  have h1 := busWrite_parts w s z0 hk
  revert h1
  generalize busWrite w s = e
  obtain ⟨r, t⟩ := e
  intro h1
  cases r <;> first | exact hk | exact h1

@[simp] theorem isaFinish_parts (ini : Nat) (len : Nat) (pre : State) (r : IsaRes) {L : List Piece} (z0 : State)  (hr : IsaRes.Only L z0 r) (hk : partsOnly L z0 pre) (hL : sub [.age, .cores, .drc, .firn, .flight, .freeCtr, .health, .heldNotices, .mboxes, .par, .pwr, .regs, .rtc, .spx] L = true := by simp [*]) : partsOnly L z0 (isaFinish ini len pre r) := by
  simp only [sub_cons, sub_nil, and_true] at hL
  unfold isaFinish
  cases r with
  | wait w b s =>
    cases b with
    | false =>
      have h := waitRead_parts w pre z0 hk
      simp (maxDischargeDepth := 60) [hL, h]
    | true =>
      have h := waitWrite_parts w pre z0 hk (hr.2 rfl)
      simp (maxDischargeDepth := 60) [hL, h]
  | stop s => exact hr
  | next s => have h : partsOnly L z0 s := hr; simp (maxDischargeDepth := 60) [hL, h]
  | jump t s => have h : partsOnly L z0 s := hr; simp (maxDischargeDepth := 60) [hL, h]
  | again s => have h : partsOnly L z0 s := hr; simp (maxDischargeDepth := 60) [hL, h]
  | exc e s => have h : partsOnly L z0 s := hr; simp (maxDischargeDepth := 60) [hL, h]

@[simp] theorem seqStop_parts (ini : Nat) (x : Nat) (s : State) {L : List Piece} (z0 : State) (hk : partsOnly L z0 s) (hL : sub [.cores, .age, .par, .msh, .mboxes, .firn, .regs, .health, .heldNotices, .lnk, .evAt, .flight, .rfe] L = true := by simp [*]) : partsOnly L z0 (seqStop ini x s) := by
  simp only [sub_cons, sub_nil, and_true] at hL
  unfold seqStop
  simp +contextual (maxDischargeDepth := 60) [*]

@[simp] theorem impCount_parts (ini : Nat) (s : State) {L : List Piece} (z0 : State) (hk : partsOnly L z0 s) (hL : sub [.cores] L = true := by simp [*]) : partsOnly L z0 (impCount ini s) := by
  simp only [sub_cons, sub_nil, and_true] at hL
  unfold impCount
  simp +contextual (maxDischargeDepth := 60) [*]

theorem isaReg_parts {L : List Piece} (h : IsaHead) (f : Core → Core) (s z0 : State) (hk : partsOnly L z0 s) (hL : sub [.cores] L = true := by simp [*]) : IsaRes.Only L z0 (isaReg h f s) := by
  simp only [sub_cons, sub_nil, and_true] at hL
  simp (maxDischargeDepth := 60) [hL, isaReg, hk]

theorem isaLoad_parts {L : List Piece} (h : IsaHead) (a n : Nat) (s : State) (k : Nat → State → IsaRes) (z0 : State) (hK : ∀ v t, partsOnly L z0 t → IsaRes.Only L z0 (k v t)) (hk : partsOnly L z0 s) (hL : sub [.age, .cores, .drc, .evAt, .firn, .flight, .freeCtr, .health, .heldNotices, .lnk, .mboxes, .msh, .par, .pwr, .regs, .rfe, .rtc, .spx] L = true := by simp [*]) :
    IsaRes.Only L z0 (isaLoad h a n s k) := by
  simp only [sub_cons, sub_nil, and_true] at hL
  have go : ∀ w, IsaRes.Only L z0 (isaLoad.loadGo w s k) := by
    intro w
    unfold isaLoad.loadGo
    split
    · simp (maxDischargeDepth := 60) [hL, hk]
    · have h1 := busRead_parts w false s z0 hk
      revert h1
      generalize busRead w false s = e
      obtain ⟨r, t⟩ := e
      intro h1
      cases r
      · exact hK _ _ h1
      · exact h1
      · exact ⟨h1, by simp⟩
  unfold isaLoad
  dsimp only
  (repeat' split) <;> first | exact go _ | simp (maxDischargeDepth := 60) [hL, hk]

theorem isaStore_parts {L : List Piece} (h : IsaHead) (a n v : Nat) (s : State) (k : State → IsaRes) (z0 : State) (hK : ∀ t, partsOnly L z0 t → IsaRes.Only L z0 (k t)) (hk : partsOnly L z0 s) (hL : sub [.cores, .par, .evt, .rtc, .com, .cph, .spx, .lmp, .flc, .firn, .runner, .regs, .tmrs, .freeCtr, .drc, .lnk, .evAt, .pwr, .mem, .flight, .sig, .mir, .lum] L = true := by simp [*]) :
    IsaRes.Only L z0 (isaStore h a n v s k) := by
  simp only [sub_cons, sub_nil, and_true] at hL
  unfold isaStore
  dsimp only
  split
  · exact hk
  · have h1 := busWrite_parts (isaReq h (!(coreOf s h.ini).priv) a n (v % 2 ^ (8 * n))) s z0 hk
    revert h1
    generalize busWrite _ s = e
    obtain ⟨r, t⟩ := e
    intro h1
    have h2 : partsOnly L z0 t := h1
    cases r
    · exact hK _ (by simp (maxDischargeDepth := 60) [hL, h2])
    · exact hK _ (by simp (maxDischargeDepth := 60) [hL, h2])
    · exact ⟨h2, fun _ => by simp [busWritePieces, hL]⟩

/-- An end of a fetch that keeps what the state before it had. -/
def FetchRes.Only (L : List Piece) (z0 : State) : FetchRes → Prop
  | .ok s => partsOnly L z0 s
  | .wait s => partsOnly L z0 s
  | .stop s => partsOnly L z0 s
  | .bad _ s => partsOnly L z0 s

theorem fetchRaw_parts {L : List Piece} (ini : Nat) (user par : Bool) (a n : Nat) (s z0 : State) (hk : partsOnly L z0 s) (hL : sub [.cores, .age, .par, .rtc, .spx, .msh, .mboxes, .flc, .firn, .regs, .health, .freeCtr, .heldNotices, .drc, .lnk, .evAt, .pwr, .flight, .rfe] L = true := by simp [*]) : FetchRes.Only L z0 (fetchRaw ini user par a n s) := by
  simp only [sub_cons, sub_nil, and_true] at hL
  have go : ∀ w, FetchRes.Only L z0 (fetchRaw.fetchBus w s) := by
    intro w
    unfold fetchRaw.fetchBus
    have h1 := busRead_parts w true s z0 hk
    revert h1
    generalize busRead w true s = e
    obtain ⟨r, t⟩ := e
    intro h1
    cases r <;> exact h1
  unfold fetchRaw
  dsimp only
  split
  · split
    · show partsOnly L z0 _
      simp (maxDischargeDepth := 60) [hL, hk]
    · exact hk
  · split
    · split
      · show partsOnly L z0 _
        simp (maxDischargeDepth := 60) [hL, hk]
      · split
        · unfold fetchBad
          dsimp only
          split <;> show partsOnly L z0 _ <;> simp (maxDischargeDepth := 60) [hL, hk]
        · exact go _
    · exact go _

theorem fetchLine_parts {L : List Piece} (h : IsaHead) (user : Bool) (line : Nat) (s z0 : State) (hk : partsOnly L z0 s) (hL : sub [.cores, .age, .par, .rtc, .spx, .msh, .mboxes, .flc, .firn, .regs, .health, .freeCtr, .heldNotices, .drc, .lnk, .evAt, .pwr, .flight, .rfe] L = true := by simp [*]) : FetchRes.Only L z0 (fetchLine h user line s) := by
  simp only [sub_cons, sub_nil, and_true] at hL
  have fill : ∀ t, partsOnly L z0 t → FetchRes.Only L z0 (match fetchRaw h.ini user (h.bad == 1) (line * 32) 32 t with
    | .ok t1 => FetchRes.ok (coreMod h.ini (fun c => { c with icache := (if c.icache.length < 1024 then c.icache else c.icache.drop 1) ++ [line] }) t1)
    | r => r) := by
    intro t ht
    have h1 := fetchRaw_parts h.ini user (h.bad == 1) (line * 32) 32 t z0 ht
    revert h1
    generalize fetchRaw h.ini user (h.bad == 1) (line * 32) 32 t = e
    intro h1
    cases e <;> first | exact h1 | (have h2 : partsOnly L z0 _ := h1; show partsOnly L z0 _; simp (maxDischargeDepth := 60) [hL, h2])
  unfold fetchLine
  dsimp only
  split
  · split
    · exact fill _ (by simp (maxDischargeDepth := 60) [hL, hk])
    · exact hk
  · exact fill _ hk

theorem fetchLines_parts {L : List Piece} (h : IsaHead) (user : Bool) (l : List Nat) (s z0 : State) (hk : partsOnly L z0 s) (hL : sub [.cores, .age, .par, .rtc, .spx, .msh, .mboxes, .flc, .firn, .regs, .health, .freeCtr, .heldNotices, .drc, .lnk, .evAt, .pwr, .flight, .rfe] L = true := by simp [*]) : FetchRes.Only L z0 (fetchLines h user l s) := by
  simp only [sub_cons, sub_nil, and_true] at hL
  induction l generalizing s with
  | nil => exact hk
  | cons x l ih =>
    unfold fetchLines
    have h1 := fetchLine_parts h user x s z0 hk
    revert h1
    generalize fetchLine h user x s = e
    intro h1
    cases e
    · exact ih _ h1
    all_goals exact h1

theorem isaFetch_parts {L : List Piece} (h : IsaHead) (n : Nat) (s z0 : State) (hk : partsOnly L z0 s) (hL : sub [.cores, .age, .par, .rtc, .spx, .msh, .mboxes, .flc, .firn, .regs, .health, .freeCtr, .heldNotices, .drc, .lnk, .evAt, .pwr, .flight, .rfe] L = true := by simp [*]) : FetchRes.Only L z0 (isaFetch h n s) := by
  simp only [sub_cons, sub_nil, and_true] at hL
  unfold isaFetch
  dsimp only
  split
  · show partsOnly L z0 _
    simp (maxDischargeDepth := 60) [hL, hk]
  split
  · show partsOnly L z0 _
    simp (maxDischargeDepth := 60) [hL, hk]
  split
  · exact fetchLines_parts _ _ _ _ _ hk
  have h1 := fetchRaw_parts h.ini (!(coreOf s h.ini).priv) (h.bad == 1) (coreOf s h.ini).pc.toNat n s z0 hk
  revert h1
  generalize fetchRaw h.ini _ _ _ n s = e
  intro h1
  cases e
  · have h2 : partsOnly L z0 _ := h1
    dsimp only
    split
    · exact h2
    · show partsOnly L z0 _
      simp (maxDischargeDepth := 60) [hL, h2]
  all_goals exact h1

theorem isaBody_parts {L : List Piece} (h : IsaHead) (o : Op) (body : Core → State → IsaRes) (s z0 : State) (hb : ∀ c t, partsOnly L z0 t → IsaRes.Only L z0 (body c t)) (hk : partsOnly L z0 s) (hL : sub [.cores] L = true := by simp [*]) :
    IsaRes.Only L z0 (isaBody h o body s) := by
  simp only [sub_cons, sub_nil, and_true] at hL
  unfold isaBody
  dsimp only
  (repeat' split) <;> first | exact hb _ _ hk | simp (maxDischargeDepth := 60) [hL, hk]

@[simp] theorem isaRun_parts (h : IsaHead) (o : Op) (body : Core → State → IsaRes) (a3 : State) {L : List Piece} (z0 : State)  (hb : ∀ c t, partsOnly L z0 t → IsaRes.Only L z0 (body c t)) (hk : partsOnly L z0 a3) (hL : sub [.age, .cores, .drc, .evAt, .firn, .flc, .flight, .freeCtr, .health, .heldNotices, .lnk, .mboxes, .msh, .par, .pwr, .regs, .rfe, .rtc, .spx] L = true := by simp [*]) : partsOnly L z0 (isaRun h o body a3) := by
  simp only [sub_cons, sub_nil, and_true] at hL
  unfold isaRun
  dsimp only
  have h0 : partsOnly L z0 (coreMod h.ini (fun c => { c with wfi := false }) a3) := by simp (maxDischargeDepth := 60) [hL, hk]
  have h1 := isaFetch_parts h (min 12 (encLen h o.enc)) _ z0 h0
  revert h1
  generalize isaFetch h (min 12 (encLen h o.enc)) _ = e
  intro h1
  cases e
  · have h2 : partsOnly L z0 _ := h1
    exact isaFinish_parts _ _ _ _ _ (isaBody_parts _ _ _ _ _ hb h2) h2
  · have h2 : partsOnly L z0 _ := h1
    simp (maxDischargeDepth := 60) [hL, h2]
  · exact h1
  · have h2 : partsOnly L z0 _ := h1
    exact isaFinish_parts _ _ _ _ _ h2 h2

/-- The command of an instruction leaves alone what its operation leaves alone, but for the pieces that every instruction may change. -/
theorem isaCmd_parts {L : List Piece} (h : IsaHead) (o : Op) (body : Core → State → IsaRes) (dt : Nat) (s : State) (hb : ∀ c t, partsOnly L s t → IsaRes.Only L s (body c t))
    (hL : sub [.age, .cores, .drc, .elapsed, .evAt, .firn, .flc, .flight, .freeCtr, .health, .heldNotices, .lnk, .mboxes, .msh, .par, .pwr, .regs, .rfe, .rtc, .spx] L = true := by simp [*]) : ∃ t, isaCmd h o body dt s = .next t ∧ partsOnly L s t := by
  simp only [sub_cons, sub_nil, and_true] at hL
  have h1 : partsOnly L s (s.pass dt) := State.pass_parts _ _ _ (partsOnly_refl L s)
  exact ⟨_, rfl, onlyIf_parts _ _ _ (isaRun_parts _ _ _ _ _ hb h1) h1⟩

variable (h : IsaHead) (z0 : State) {L : List Piece}

theorem aluBody_parts (f : AluFn) (x : AluArg) (c : Core) (s : State) (hk : partsOnly L z0 s) (hL : sub [.cores] L = true := by simp [*]) : IsaRes.Only L z0 (aluBody h f x c s) := by
  simp only [sub_cons, sub_nil, and_true] at hL
  unfold aluBody
  exact isaReg_parts _ _ _ _ hk

theorem loadBody_parts (sign : Bool) (m : MemArg) (c : Core) (s : State) (hk : partsOnly L z0 s) (hL : sub [.cores, .age, .par, .rtc, .spx, .msh, .mboxes, .firn, .regs, .health, .freeCtr, .heldNotices, .drc, .lnk, .evAt, .pwr, .flight, .rfe] L = true := by simp [*]) : IsaRes.Only L z0 (loadBody h sign m c s) := by
  simp only [sub_cons, sub_nil, and_true] at hL
  unfold loadBody
  exact isaLoad_parts _ _ _ _ _ _ (fun v t ht => isaReg_parts _ _ _ _ ht) hk

theorem storeBody_parts (m : MemArg) (c : Core) (s : State) (hk : partsOnly L z0 s) (hL : sub [.cores, .par, .evt, .rtc, .com, .cph, .spx, .lmp, .flc, .firn, .runner, .regs, .tmrs, .freeCtr, .drc, .lnk, .evAt, .pwr, .mem, .flight, .sig, .mir, .lum] L = true := by simp [*]) : IsaRes.Only L z0 (storeBody h m c s) := by
  simp only [sub_cons, sub_nil, and_true] at hL
  unfold storeBody
  exact isaStore_parts _ _ _ _ _ _ _ (fun t ht => isaReg_parts _ _ _ _ ht) hk

theorem pushGo_parts (k : State → IsaRes) (l : List (Nat × Nat)) (s : State) (hK : ∀ t, partsOnly L z0 t → IsaRes.Only L z0 (k t)) (hk : partsOnly L z0 s) (hL : sub [.cores, .par, .evt, .rtc, .com, .cph, .spx, .lmp, .flc, .firn, .runner, .regs, .tmrs, .freeCtr, .drc, .lnk, .evAt, .pwr, .mem, .flight, .sig, .mir, .lum] L = true := by simp [*]) : IsaRes.Only L z0 (pushGo h k l s) := by
  simp only [sub_cons, sub_nil, and_true] at hL
  induction l generalizing s with
  | nil => exact hK _ hk
  | cons p l ih => exact isaStore_parts _ _ _ _ _ _ _ (fun t ht => ih _ ht) hk

theorem pushBody_parts (mask : Nat) (c : Core) (s : State) (hk : partsOnly L z0 s) (hL : sub [.cores, .par, .evt, .rtc, .com, .cph, .spx, .lmp, .flc, .firn, .runner, .regs, .tmrs, .freeCtr, .drc, .lnk, .evAt, .pwr, .mem, .flight, .sig, .mir, .lum] L = true := by simp [*]) : IsaRes.Only L z0 (pushBody h mask c s) := by
  simp only [sub_cons, sub_nil, and_true] at hL
  unfold pushBody
  exact pushGo_parts _ _ _ _ _ (fun t ht => isaReg_parts _ _ _ _ ht) hk

theorem popGo_parts (k : List Nat → State → IsaRes) (l vs : List Nat) (s : State) (hK : ∀ v t, partsOnly L z0 t → IsaRes.Only L z0 (k v t)) (hk : partsOnly L z0 s) (hL : sub [.cores, .age, .par, .rtc, .spx, .msh, .mboxes, .firn, .regs, .health, .freeCtr, .heldNotices, .drc, .lnk, .evAt, .pwr, .flight, .rfe] L = true := by simp [*]) :
    IsaRes.Only L z0 (popGo h k l vs s) := by
  simp only [sub_cons, sub_nil, and_true] at hL
  induction l generalizing vs s with
  | nil => exact hK _ _ hk
  | cons a l ih => exact isaLoad_parts _ _ _ _ _ _ (fun v t ht => ih _ _ ht) hk

theorem popBody_parts (mask : Nat) (c : Core) (s : State) (hk : partsOnly L z0 s) (hL : sub [.cores, .age, .par, .rtc, .spx, .msh, .mboxes, .firn, .regs, .health, .freeCtr, .heldNotices, .drc, .lnk, .evAt, .pwr, .flight, .rfe] L = true := by simp [*]) : IsaRes.Only L z0 (popBody h mask c s) := by
  simp only [sub_cons, sub_nil, and_true] at hL
  unfold popBody
  have h1 := popGo_parts h z0 (fun vs t => isaReg h (fun d => gWr 13 ((gRd c 13 + 4 * (maskRegs mask).length) % 2 ^ 32) (gWrs (maskRegs mask) vs d)) t)
    ((List.range (maskRegs mask).length).map (fun i => (gRd c 13 + 4 * i) % 2 ^ 32)) [] s (fun v t ht => isaReg_parts _ _ _ _ ht) hk
  revert h1
  dsimp only
  generalize popGo h _ _ [] s = r
  intro h1
  cases r <;> first | exact h1 | (have h2 : partsOnly L z0 _ := h1; dsimp only; split <;> simp (maxDischargeDepth := 60) [hL, h2])

theorem strDone_parts (f : Core → Core) (early : Core → Bool) (s : State) (hk : partsOnly L z0 s) (hL : sub [.cores] L = true := by simp [*]) : IsaRes.Only L z0 (strDone h f early s) := by
  simp only [sub_cons, sub_nil, and_true] at hL
  unfold strDone
  split
  · dsimp only
    split <;> simp (maxDischargeDepth := 60) [hL, hk]
  · exact isaReg_parts _ _ _ _ hk

theorem movsElem_parts (c : Core) (s : State) (hk : partsOnly L z0 s) (hL : sub [.cores, .age, .par, .evt, .rtc, .com, .cph, .spx, .msh, .lmp, .mboxes, .flc, .firn, .runner, .regs, .tmrs, .health, .freeCtr, .heldNotices, .drc, .lnk, .evAt, .pwr, .mem, .flight, .sig, .mir, .lum, .rfe] L = true := by simp [*]) : IsaRes.Only L z0 (movsElem h c s) := by
  simp only [sub_cons, sub_nil, and_true] at hL
  unfold movsElem
  dsimp only
  split
  · exact hk
  · exact isaLoad_parts _ _ _ _ _ _ (fun v t ht => isaStore_parts _ _ _ _ _ _ _ (fun u hu => strDone_parts _ _ _ _ _ hu) ht) hk

theorem filsElem_parts (c : Core) (s : State) (hk : partsOnly L z0 s) (hL : sub [.cores, .par, .evt, .rtc, .com, .cph, .spx, .lmp, .flc, .firn, .runner, .regs, .tmrs, .freeCtr, .drc, .lnk, .evAt, .pwr, .mem, .flight, .sig, .mir, .lum] L = true := by simp [*]) : IsaRes.Only L z0 (filsElem h c s) := by
  simp only [sub_cons, sub_nil, and_true] at hL
  unfold filsElem
  exact isaStore_parts _ _ _ _ _ _ _ (fun u hu => strDone_parts _ _ _ _ _ hu) hk

theorem cmpsElem_parts (c : Core) (s : State) (hk : partsOnly L z0 s) (hL : sub [.cores, .age, .par, .rtc, .spx, .msh, .mboxes, .firn, .regs, .health, .freeCtr, .heldNotices, .drc, .lnk, .evAt, .pwr, .flight, .rfe] L = true := by simp [*]) : IsaRes.Only L z0 (cmpsElem h c s) := by
  simp only [sub_cons, sub_nil, and_true] at hL
  unfold cmpsElem
  dsimp only
  split
  · exact hk
  · exact isaLoad_parts _ _ _ _ _ _ (fun v t ht => isaLoad_parts _ _ _ _ _ _ (fun w u hu => strDone_parts _ _ _ _ _ hu) ht) hk

theorem scnsElem_parts (c : Core) (s : State) (hk : partsOnly L z0 s) (hL : sub [.cores, .age, .par, .rtc, .spx, .msh, .mboxes, .firn, .regs, .health, .freeCtr, .heldNotices, .drc, .lnk, .evAt, .pwr, .flight, .rfe] L = true := by simp [*]) : IsaRes.Only L z0 (scnsElem h c s) := by
  simp only [sub_cons, sub_nil, and_true] at hL
  unfold scnsElem
  exact isaLoad_parts _ _ _ _ _ _ (fun w u hu => strDone_parts _ _ _ _ _ hu) hk

theorem crcsElem_parts (c : Core) (s : State) (hk : partsOnly L z0 s) (hL : sub [.cores, .age, .par, .rtc, .spx, .msh, .mboxes, .firn, .regs, .health, .freeCtr, .heldNotices, .drc, .lnk, .evAt, .pwr, .flight, .rfe] L = true := by simp [*]) : IsaRes.Only L z0 (crcsElem h c s) := by
  simp only [sub_cons, sub_nil, and_true] at hL
  unfold crcsElem
  exact isaLoad_parts _ _ _ _ _ _ (fun w u hu => strDone_parts _ _ _ _ _ hu) hk

theorem movcBody_parts (rb : Nat) (dir : Bool) (num : Nat) (c : Core) (s : State) (hk : partsOnly L z0 s) (hL : sub [.cores] L = true := by simp [*]) : IsaRes.Only L z0 (movcBody h rb dir num c s) := by
  simp only [sub_cons, sub_nil, and_true] at hL
  unfold movcBody
  split <;> exact isaReg_parts _ _ _ _ hk

theorem barBody_parts (f : Core → Core) (c : Core) (s : State) (hk : partsOnly L z0 s) (hL : sub [.cores] L = true := by simp [*]) : IsaRes.Only L z0 (barBody h f c s) := by
  simp only [sub_cons, sub_nil, and_true] at hL
  unfold barBody
  split
  · simp (maxDischargeDepth := 60) [hL, hk]
  · split
    · simp (maxDischargeDepth := 60) [hL, hk]
    · exact isaReg_parts _ _ _ _ hk

theorem atomBody_parts (rd base : Nat) (f : Core → Nat → Option Nat) (fl : Core → Nat → Core → Core) (c : Core) (s : State) (hk : partsOnly L z0 s) (hL : sub [.cores, .age, .par, .evt, .rtc, .com, .cph, .spx, .msh, .lmp, .mboxes, .flc, .firn, .runner, .regs, .tmrs, .health, .freeCtr, .heldNotices, .drc, .lnk, .evAt, .pwr, .mem, .flight, .sig, .mir, .lum, .rfe] L = true := by simp [*]) :
    IsaRes.Only L z0 (atomBody h rd base f fl c s) := by
  simp only [sub_cons, sub_nil, and_true] at hL
  unfold atomBody
  dsimp only
  split
  · exact hk
  split
  · simp (maxDischargeDepth := 60) [hL, hk]
  refine isaLoad_parts _ _ _ _ _ _ (fun t u hu => ?_) hk
  split
  · exact isaReg_parts _ _ _ _ hu
  · next v _ =>
    split
    · simp (maxDischargeDepth := 60) [hL, hu]
    · have h1 := busWrite_parts { isaReq h (!c.priv) (gRd c base) 4 0 with val := v } u z0 hu
      revert h1
      generalize busWrite { isaReq h (!c.priv) (gRd c base) 4 0 with val := v } u = e
      obtain ⟨r, t1⟩ := e
      intro h1
      cases r
      · exact isaReg_parts _ _ _ _ h1
      · exact isaReg_parts _ _ _ _ h1
      · exact ⟨hu, fun _ => by simp [busWritePieces, hL]⟩

@[simp] theorem sigRegs_parts (c : Nat) (f : SRegs → SRegs) (s : State) {L : List Piece} (z0 : State) (hk : partsOnly L z0 s) (hL : sub [.sig] L = true := by simp [*]) : partsOnly L z0 (sigRegs c f s) := by
  simp only [sub_cons, sub_nil, and_true] at hL
  unfold sigRegs
  simp +contextual (maxDischargeDepth := 60) [*]

@[simp] theorem sigExc_parts (c : Nat) (e : Exc) (pc : Nat) (st : Nat) (s : State) {L : List Piece} (z0 : State) (hk : partsOnly L z0 s) (hL : sub [.runner, .freeCtr, .mem, .flight, .sig] L = true := by simp [*]) : partsOnly L z0 (sigExc c e pc st s) := by
  simp only [sub_cons, sub_nil, and_true] at hL
  unfold sigExc
  dsimp only
  (repeat' split) <;> simp +contextual (maxDischargeDepth := 60) [*]

@[simp] theorem sigImpTake_parts (c : Nat) (epc : Nat) (s : State) {L : List Piece} (z0 : State) (hk : partsOnly L z0 s) (hL : sub [.runner, .freeCtr, .mem, .flight, .sig] L = true := by simp [*]) : partsOnly L z0 (sigImpTake c epc s) := by
  simp only [sub_cons, sub_nil, and_true] at hL
  unfold sigImpTake
  dsimp only
  (repeat' split) <;> simp +contextual (maxDischargeDepth := 60) [*]

@[simp] theorem sigBoundary_parts (c : Nat) (s : State) {L : List Piece} (z0 : State) (hk : partsOnly L z0 s) (hL : sub [.runner, .freeCtr, .mem, .flight, .sig] L = true := by simp [*]) : partsOnly L z0 (sigBoundary c s) := by
  simp only [sub_cons, sub_nil, and_true] at hL
  unfold sigBoundary
  dsimp only
  (repeat' split) <;> simp +contextual (maxDischargeDepth := 60) [*]

@[simp] theorem bundleEnd_parts (c : Nat) (npc : Nat) (pc : Nat) (f : SigWr) (fl : Flow) (s : State) {L : List Piece} (z0 : State) (hk : partsOnly L z0 s) (hL : sub [.runner, .freeCtr, .mem, .flight, .sig] L = true := by simp [*]) : partsOnly L z0 (bundleEnd c npc pc f fl s) := by
  simp only [sub_cons, sub_nil, and_true] at hL
  unfold bundleEnd
  dsimp only
  (repeat' split) <;> simp +contextual (maxDischargeDepth := 60) [*]

@[simp] theorem bundleFetch_parts (s : State) (c : Nat) (pc : Nat) (n : Nat) {L : List Piece} (z0 : State) (hk : partsOnly L z0 s) (hL : sub [.age, .par, .mboxes, .regs, .health, .heldNotices, .flight] L = true := by simp [*]) : partsOnly L z0 (bundleFetch s c pc n).2 := by
  simp only [sub_cons, sub_nil, and_true] at hL
  unfold bundleFetch
  dsimp only
  (repeat' split) <;> simp +contextual (maxDischargeDepth := 60) [*]

@[simp] theorem bundleAcc_parts (c : Nat) (bad : Nat) (pc : Nat) (g : SRegs) (w : Nat) (fin : SigWr → State → State) (s : State) {L : List Piece} (z0 : State) (h_fin : ∀ (y0 : SigWr) (y1 : State), partsOnly L z0 y1 → partsOnly L z0 (fin y0 y1)) (hk : partsOnly L z0 s) (hL : sub [.cores, .age, .par, .evt, .rtc, .com, .cph, .spx, .lmp, .mboxes, .flc, .firn, .runner, .regs, .tmrs, .health, .freeCtr, .heldNotices, .drc, .lnk, .evAt, .pwr, .mem, .flight, .sig, .mir, .lum] L = true := by simp [*]) : partsOnly L z0 (bundleAcc c bad pc g w fin s) := by
  simp only [sub_cons, sub_nil, and_true] at hL
  unfold bundleAcc
  dsimp only
  split
  · have h1 := busWrite_parts (lReq c bad g w) s z0 hk
    have hw := waitState_parts (lReq c bad g w) true s z0 hk
    revert h1
    generalize busWrite (lReq c bad g w) s = e
    obtain ⟨r, t⟩ := e
    intro h1
    have h2 : partsOnly L z0 t := h1
    cases r
    · exact h_fin _ _ (by simp (maxDischargeDepth := 60) [hL, h2])
    · exact h_fin _ _ (by simp (maxDischargeDepth := 60) [hL, h2])
    · simp (maxDischargeDepth := 60) [hL, hw]
  · split
    · simp (maxDischargeDepth := 60) [hL, hk]
    · have h1 := busRead_parts (lReq c bad g w) false s z0 hk
      have hw := waitState_parts (lReq c bad g w) false s z0 hk
      revert h1
      generalize busRead (lReq c bad g w) false s = e
      obtain ⟨r, t⟩ := e
      intro h1
      have h2 : partsOnly L z0 t := h1
      cases r
      · exact h_fin _ _ (by simp (maxDischargeDepth := 60) [hL, h2])
      · simp (maxDischargeDepth := 60) [hL, h2]
      · simp (maxDischargeDepth := 60) [hL, hw]

@[simp] theorem bundleRun_parts (c : Nat) (bad : Nat) (npc : Nat) (pc : Nat) (g : SRegs) (l : List Nat) (s : State) {L : List Piece} (z0 : State) (hk : partsOnly L z0 s) (hL : sub [.cores, .age, .par, .evt, .rtc, .com, .cph, .spx, .lmp, .mboxes, .flc, .firn, .runner, .regs, .tmrs, .health, .freeCtr, .heldNotices, .drc, .lnk, .evAt, .pwr, .mem, .flight, .sig, .mir, .lum] L = true := by simp [*]) : partsOnly L z0 (bundleRun c bad npc pc g l s) := by
  simp only [sub_cons, sub_nil, and_true] at hL
  unfold bundleRun
  dsimp only
  generalize (match (List.filter (slRuns g) l).find? (fun w => slKind w == 3) with | some w => bResult s c g npc w | none => (id, Flow.seq)) = bf
  have fin : ∀ f fl t, partsOnly L z0 t → partsOnly L z0 (bundleEnd c npc pc f fl t) := fun f fl t h => by simp (maxDischargeDepth := 60) [hL, h]
  have hx : ∀ e p st t, partsOnly L z0 t → partsOnly L z0 (sigExc c e p st t) := fun e p st t h => by simp (maxDischargeDepth := 60) [hL, h]
  (repeat' split) <;> first | exact hx _ _ _ _ hk | exact fin _ _ _ hk | exact bundleAcc_parts _ _ _ _ _ _ _ _ (fun f t h => fin _ _ _ h) hk

@[simp] theorem bundleGo_parts (c : Nat) (bad : Nat) (pc : Nat) (l : List Nat) (s : State) {L : List Piece} (z0 : State) (hk : partsOnly L z0 s) (hL : sub [.cores, .age, .par, .evt, .rtc, .com, .cph, .spx, .lmp, .mboxes, .flc, .firn, .runner, .regs, .tmrs, .health, .freeCtr, .heldNotices, .drc, .lnk, .evAt, .pwr, .mem, .flight, .sig, .mir, .lum] L = true := by simp [*]) : partsOnly L z0 (bundleGo c bad pc l s) := by
  simp only [sub_cons, sub_nil, and_true] at hL
  unfold bundleGo
  dsimp only
  (repeat' split) <;> simp +contextual (maxDischargeDepth := 60) [*]

@[simp] theorem bundle_parts (c : Nat) (slots : List Nat) (bad : Nat) (a3 : State) {L : List Piece} (z0 : State) (hk : partsOnly L z0 a3) (hL : sub [.cores, .age, .par, .evt, .rtc, .com, .cph, .spx, .lmp, .mboxes, .flc, .firn, .runner, .regs, .tmrs, .health, .freeCtr, .heldNotices, .drc, .lnk, .evAt, .pwr, .mem, .flight, .sig, .mir, .lum] L = true := by simp [*]) : partsOnly L z0 (bundle c slots bad a3) := by
  simp only [sub_cons, sub_nil, and_true] at hL
  unfold bundle
  have h0 : partsOnly L z0 (sigMod c (fun x => { x with wfi := false }) a3) := by simp (maxDischargeDepth := 60) [hL, hk]
  dsimp only
  split
  · simp (maxDischargeDepth := 60) [hL, h0]
  · have h1 := bundleFetch_parts (sigMod c (fun x => { x with wfi := false }) a3) c (sigOf (sigMod c (fun x => { x with wfi := false }) a3) c).regs.pc.toNat (bundleSlots 4 (slots.map (· % 2 ^ 32))).length z0 h0
    revert h1
    generalize bundleFetch _ _ _ _ = e
    obtain ⟨r, t⟩ := e
    intro h1
    have h2 : partsOnly L z0 t := h1
    cases r <;> simp (maxDischargeDepth := 60) [hL, h2]

@[simp] theorem interruptEntry_parts (ini : Nat) (s : State) {L : List Piece} (z0 : State) (hk : partsOnly L z0 s) (hL : sub [.cores, .runner, .freeCtr, .mem, .flight, .sig] L = true := by simp [*]) : partsOnly L z0 (interruptEntry ini s) := by
  simp only [sub_cons, sub_nil, and_true] at hL
  unfold interruptEntry
  (repeat' split) <;> simp +contextual (maxDischargeDepth := 60) [*]

@[simp] theorem imprecise_parts (ini : Nat) (s : State) {L : List Piece} (z0 : State) (hk : partsOnly L z0 s) (hL : sub [.cores, .runner, .freeCtr, .mem, .flight, .sig] L = true := by simp [*]) : partsOnly L z0 (imprecise ini s) := by
  simp only [sub_cons, sub_nil, and_true] at hL
  unfold imprecise
  simp +contextual (maxDischargeDepth := 60) [*]

end Sys2Proof.Machine
end

