-- ==== Sys2Proof/Laws/PartsCmd.lean ====
section
/-!
SUPPORT. What the mailbox commands, the debug port and the network services leave alone: one lemma per operation, over `partsOnly` (Laws/Parts.lean).
-/
namespace Sys2Proof.Machine
set_option Elab.async false

@[simp] theorem netRx_parts (m : Nat) (src : Nat) (dest : Nat) (ptype : Nat) (kind : Nat) (mseq : Nat) (data : List Nat) (s : State) {L : List Piece} (z0 : State) (hk : partsOnly L z0 s) (hL : sub [.mboxes, .regs] L = true := by simp [*]) : partsOnly L z0 (netRx m src dest ptype kind mseq data s) := by
  simp only [sub_cons, sub_nil, and_true] at hL
  unfold netRx
  dsimp only
  (repeat' split) <;> simp +contextual (maxDischargeDepth := 60) [*]

@[simp] theorem configReceive_parts (src : Nat) (p : List Nat) (s : State) {L : List Piece} (z0 : State) (hk : partsOnly L z0 s) (hL : sub [.msh, .regs, .lnk, .evAt, .flight] L = true := by simp [*]) : partsOnly L z0 (configReceive src p s) := by
  simp only [sub_cons, sub_nil, and_true] at hL
  unfold configReceive
  dsimp only
  (repeat' split) <;> simp +contextual (maxDischargeDepth := 60) [*]

@[simp] theorem netConsume_parts (src : Nat) (dest : Nat) (ptype : Nat) (mseq : Nat) (data : List Nat) (s : State) {L : List Piece} (z0 : State) (hk : partsOnly L z0 s) (hL : sub [.msh, .lmp, .mboxes, .firn, .regs, .upd, .co, .freeCtr, .heldNotices, .lnk, .evAt, .flight, .lum, .rfe] L = true := by simp [*]) : partsOnly L z0 (netConsume src dest ptype mseq data s) := by
  simp only [sub_cons, sub_nil, and_true] at hL
  unfold netConsume
  (repeat' split) <;> simp +contextual (maxDischargeDepth := 60) [*]

@[simp] theorem netDeliver_parts (ringFull : Bool) (src : Nat) (dest : Nat) (ptype : Nat) (kind : Nat) (mseq : Nat) (data : List Nat) (s : State) {L : List Piece} (z0 : State) (hk : partsOnly L z0 s) (hL : sub [.msh, .lmp, .mboxes, .firn, .regs, .upd, .co, .freeCtr, .heldNotices, .lnk, .evAt, .flight, .lum, .rfe] L = true := by simp [*]) : partsOnly L z0 (netDeliver ringFull src dest ptype kind mseq data s) := by
  simp only [sub_cons, sub_nil, and_true] at hL
  unfold netDeliver
  (repeat' split) <;> simp +contextual (maxDischargeDepth := 60) [*]

@[simp] theorem sysInfo_parts (m : Nat) (s : State) {L : List Piece} (z0 : State) (hk : partsOnly L z0 s) (hL : sub [.mboxes, .regs, .mbLast, .flight] L = true := by simp [*]) : partsOnly L z0 (sysInfo m s) := by
  simp only [sub_cons, sub_nil, and_true] at hL
  unfold sysInfo
  dsimp only
  (repeat' split) <;> simp +contextual (maxDischargeDepth := 60) [*]

@[simp] theorem sysResetCmd_parts (m : Nat) (s : State) {L : List Piece} (z0 : State) (hk : partsOnly L z0 s) (hL : sub [.resetDue, .mboxes, .regs, .mbLast, .flight] L = true := by simp [*]) : partsOnly L z0 (sysResetCmd m s) := by
  simp only [sub_cons, sub_nil, and_true] at hL
  unfold sysResetCmd
  dsimp only
  (repeat' split) <;> simp +contextual (maxDischargeDepth := 60) [*]

@[simp] theorem sysResetRow_parts (m : Nat) (s : State) {L : List Piece} (z0 : State) (hk : partsOnly L z0 s) (hL : sub [.sysResetAt, .jtag, .cores, .rxc, .netCfg, .age, .boots, .resetDue, .par, .evt, .rtc, .com, .elapsed, .cph, .rdata, .spx, .runAt, .msh, .porAt, .lmp, .mboxes, .flc, .firn, .fuses, .runner, .regs, .tmrs, .wpt, .upd, .health, .tblJobs, .co, .freeCtr, .heldNotices, .drc, .lnk, .evAt, .pwr, .mbLast, .tables, .mem, .flight, .sig, .mir, .lum, .rfe] L = true := by simp [*]) : partsOnly L z0 (sysResetRow m s) := by
  simp only [sub_cons, sub_nil, and_true] at hL
  unfold sysResetRow
  simp +contextual (maxDischargeDepth := 60) [*]

@[simp] theorem sysNotify_parts (m : Nat) (s : State) {L : List Piece} (z0 : State) (hk : partsOnly L z0 s) (hL : sub [.mboxes, .regs, .mbLast, .flight] L = true := by simp [*]) : partsOnly L z0 (sysNotify m s) := by
  simp only [sub_cons, sub_nil, and_true] at hL
  unfold sysNotify
  simp +contextual (maxDischargeDepth := 60) [*]

@[simp] theorem sysPtype_parts (m : Nat) (s : State) {L : List Piece} (z0 : State) (hk : partsOnly L z0 s) (hL : sub [.mboxes, .regs, .mbLast, .flight] L = true := by simp [*]) : partsOnly L z0 (sysPtype m s) := by
  simp only [sub_cons, sub_nil, and_true] at hL
  unfold sysPtype
  dsimp only
  (repeat' split) <;> simp +contextual (maxDischargeDepth := 60) [*]

@[simp] theorem netCfgGet_parts (m : Nat) (s : State) {L : List Piece} (z0 : State) (hk : partsOnly L z0 s) (hL : sub [.mboxes, .regs, .mbLast, .flight] L = true := by simp [*]) : partsOnly L z0 (netCfgGet m s) := by
  simp only [sub_cons, sub_nil, and_true] at hL
  unfold netCfgGet
  refine shortCmd_parts _ _ _ _ _ (fun r t h => ?_) hk
  try dsimp only
  (repeat' split) <;> simp (maxDischargeDepth := 60) [hL, h]

@[simp] theorem cfgInForce_parts (obj : List Nat) (s : State) {L : List Piece} (z0 : State) (hk : partsOnly L z0 s) (hL : sub [.rxc, .netCfg, .msh, .mboxes, .regs, .heldNotices] L = true := by simp [*]) : partsOnly L z0 (cfgInForce obj s) := by
  simp only [sub_cons, sub_nil, and_true] at hL
  unfold cfgInForce
  simp +contextual (maxDischargeDepth := 60) [*]

@[simp] theorem netCfgSet_parts (m : Nat) (s : State) {L : List Piece} (z0 : State) (hk : partsOnly L z0 s) (hL : sub [.rxc, .netCfg, .msh, .mboxes, .regs, .heldNotices, .lnk, .mbLast, .flight] L = true := by simp [*]) : partsOnly L z0 (netCfgSet m s) := by
  simp only [sub_cons, sub_nil, and_true] at hL
  unfold netCfgSet
  refine longCmd_parts _ _ _ _ _ (fun r t h => ?_) hk
  try dsimp only
  (repeat' split) <;> simp (maxDischargeDepth := 60) [hL, h]

@[simp] theorem netCfgInstant_parts (s : State) {L : List Piece} (z0 : State) (hk : partsOnly L z0 s) (hL : sub [.rxc, .netCfg, .msh, .mboxes, .regs, .heldNotices, .lnk] L = true := by simp [*]) : partsOnly L z0 (netCfgInstant s) := by
  simp only [sub_cons, sub_nil, and_true] at hL
  unfold netCfgInstant
  dsimp only
  (repeat' split) <;> simp +contextual (maxDischargeDepth := 60) [*]

@[simp] theorem netStatus_parts (m : Nat) (s : State) {L : List Piece} (z0 : State) (hk : partsOnly L z0 s) (hL : sub [.mboxes, .regs, .mbLast, .flight] L = true := by simp [*]) : partsOnly L z0 (netStatus m s) := by
  simp only [sub_cons, sub_nil, and_true] at hL
  unfold netStatus
  simp +contextual (maxDischargeDepth := 60) [*]

@[simp] theorem netSend_parts (m : Nat) (s : State) {L : List Piece} (z0 : State) (hk : partsOnly L z0 s) (hL : sub [.msh, .lmp, .mboxes, .firn, .regs, .upd, .co, .freeCtr, .heldNotices, .lnk, .evAt, .mbLast, .flight, .lum, .rfe] L = true := by simp [*]) : partsOnly L z0 (netSend m s) := by
  simp only [sub_cons, sub_nil, and_true] at hL
  unfold netSend
  refine cmdRun_parts _ _ _ _ _ _ (fun r t h => ?_) hk
  dsimp only
  generalize (if (bitOf (r.at_ 5 1) 1 == 1) = true then bufOf t m (r.at_ 6 1) else some (r.data.drop 8)) = pay
  cases pay with
  | none => simp (maxDischargeDepth := 60) [hL, h]
  | some p =>
    dsimp only
    (repeat' split) <;> simp (maxDischargeDepth := 60) [hL, h]

@[simp] theorem linkList_parts (m : Nat) (s : State) {L : List Piece} (z0 : State) (hk : partsOnly L z0 s) (hL : sub [.mboxes, .regs, .mbLast, .flight] L = true := by simp [*]) : partsOnly L z0 (linkList m s) := by
  simp only [sub_cons, sub_nil, and_true] at hL
  unfold linkList
  dsimp only
  (repeat' split) <;> simp +contextual (maxDischargeDepth := 60) [*]

@[simp] theorem linkDrop_parts (m : Nat) (s : State) {L : List Piece} (z0 : State) (hk : partsOnly L z0 s) (hL : sub [.msh, .mboxes, .firn, .regs, .heldNotices, .lnk, .evAt, .mbLast, .flight, .rfe] L = true := by simp [*]) : partsOnly L z0 (linkDrop m s) := by
  simp only [sub_cons, sub_nil, and_true] at hL
  unfold linkDrop
  refine shortCmd_parts _ _ _ _ _ (fun r t h => ?_) hk
  try dsimp only
  (repeat' split) <;> simp (maxDischargeDepth := 60) [hL, h]

@[simp] theorem linkWake_parts (m : Nat) (s : State) {L : List Piece} (z0 : State) (hk : partsOnly L z0 s) (hL : sub [.mboxes, .regs, .lnk, .mbLast, .flight] L = true := by simp [*]) : partsOnly L z0 (linkWake m s) := by
  simp only [sub_cons, sub_nil, and_true] at hL
  unfold linkWake
  refine longCmd_parts _ _ _ _ _ (fun r t h => ?_) hk
  try dsimp only
  (repeat' split) <;> simp (maxDischargeDepth := 60) [hL, h]

@[simp] theorem timeGet_parts (m : Nat) (s : State) {L : List Piece} (z0 : State) (hk : partsOnly L z0 s) (hL : sub [.mboxes, .regs, .mbLast, .flight] L = true := by simp [*]) : partsOnly L z0 (timeGet m s) := by
  simp only [sub_cons, sub_nil, and_true] at hL
  unfold timeGet
  simp +contextual (maxDischargeDepth := 60) [*]

@[simp] theorem capPps_parts (on : Bool) (pin : Nat) (s : State) {L : List Piece} (z0 : State) (hk : partsOnly L z0 s) (hL : sub [.com, .regs] L = true := by simp [*]) : partsOnly L z0 (capPps on pin s) := by
  simp only [sub_cons, sub_nil, and_true] at hL
  unfold capPps
  dsimp only
  (repeat' split) <;> simp +contextual (maxDischargeDepth := 60) [*]

@[simp] theorem timeSourceSet_parts (src : Nat) (pin : Nat) (acc : Nat) (sec : Nat) (s : State) {L : List Piece} (z0 : State) (hk : partsOnly L z0 s) (hL : sub [.com, .firn, .regs] L = true := by simp [*]) : partsOnly L z0 (timeSourceSet src pin acc sec s) := by
  simp only [sub_cons, sub_nil, and_true] at hL
  unfold timeSourceSet
  dsimp only
  (repeat' split) <;> simp +contextual (maxDischargeDepth := 60) [*]

@[simp] theorem timeSource_parts (m : Nat) (s : State) {L : List Piece} (z0 : State) (hk : partsOnly L z0 s) (hL : sub [.com, .mboxes, .firn, .regs, .mbLast, .flight] L = true := by simp [*]) : partsOnly L z0 (timeSource m s) := by
  simp only [sub_cons, sub_nil, and_true] at hL
  unfold timeSource
  simp +contextual (maxDischargeDepth := 60) [*]

@[simp] theorem timeSetDo_parts (what : Nat) (utcoff : Nat) (acc : Nat) (t : Nat) (s : State) {L : List Piece} (z0 : State) (hk : partsOnly L z0 s) (hL : sub [.mboxes, .firn, .regs, .heldNotices, .flight] L = true := by simp [*]) : partsOnly L z0 (timeSetDo what utcoff acc t s) := by
  simp only [sub_cons, sub_nil, and_true] at hL
  unfold timeSetDo
  dsimp only
  (repeat' split) <;> simp +contextual (maxDischargeDepth := 60) [*]

@[simp] theorem timeSet_parts (m : Nat) (s : State) {L : List Piece} (z0 : State) (hk : partsOnly L z0 s) (hL : sub [.mboxes, .firn, .regs, .heldNotices, .mbLast, .flight] L = true := by simp [*]) : partsOnly L z0 (timeSet m s) := by
  simp only [sub_cons, sub_nil, and_true] at hL
  unfold timeSet
  simp +contextual (maxDischargeDepth := 60) [*]

@[simp] theorem leapSecond_parts (s : State) {L : List Piece} (z0 : State) (hk : partsOnly L z0 s) (hL : sub [.firn] L = true := by simp [*]) : partsOnly L z0 (leapSecond s) := by
  simp only [sub_cons, sub_nil, and_true] at hL
  unfold leapSecond
  dsimp only
  (repeat' split) <;> simp +contextual (maxDischargeDepth := 60) [*]

@[simp] theorem lumLevel_parts (m : Nat) (s : State) {L : List Piece} (z0 : State) (hk : partsOnly L z0 s) (hL : sub [.lmp, .mboxes, .firn, .regs, .freeCtr, .lnk, .mbLast, .flight, .lum] L = true := by simp [*]) : partsOnly L z0 (lumLevel m s) := by
  simp only [sub_cons, sub_nil, and_true] at hL
  unfold lumLevel
  dsimp only
  (repeat' split) <;> simp +contextual (maxDischargeDepth := 60) [*]

@[simp] theorem lumStatusCmd_parts (m : Nat) (s : State) {L : List Piece} (z0 : State) (hk : partsOnly L z0 s) (hL : sub [.mboxes, .regs, .mbLast, .flight, .lum] L = true := by simp [*]) : partsOnly L z0 (lumStatusCmd m s) := by
  simp only [sub_cons, sub_nil, and_true] at hL
  unfold lumStatusCmd
  simp +contextual (maxDischargeDepth := 60) [*]

@[simp] theorem lumSched_parts (m : Nat) (s : State) {L : List Piece} (z0 : State) (hk : partsOnly L z0 s) (hL : sub [.lmp, .mboxes, .firn, .regs, .freeCtr, .mbLast, .flight, .lum] L = true := by simp [*]) : partsOnly L z0 (lumSched m s) := by
  simp only [sub_cons, sub_nil, and_true] at hL
  unfold lumSched
  refine longCmd_parts _ _ _ _ _ (fun r t h => ?_) hk
  try dsimp only
  (repeat' split) <;> simp (maxDischargeDepth := 60) [hL, h]

@[simp] theorem lumFailsafe_parts (m : Nat) (s : State) {L : List Piece} (z0 : State) (hk : partsOnly L z0 s) (hL : sub [.lmp, .mboxes, .regs, .mbLast, .flight, .lum] L = true := by simp [*]) : partsOnly L z0 (lumFailsafe m s) := by
  simp only [sub_cons, sub_nil, and_true] at hL
  unfold lumFailsafe
  dsimp only
  (repeat' split) <;> simp +contextual (maxDischargeDepth := 60) [*]

@[simp] theorem onC_parts (m : Nat) (r : MbReq) (body : State → State) (s : State) {L : List Piece} (z0 : State) (h_body : ∀ (y0 : State), partsOnly L z0 y0 → partsOnly L z0 (body y0)) (hk : partsOnly L z0 s) (hL : sub [.mboxes] L = true := by simp [*]) : partsOnly L z0 (onC m r body s) := by
  simp only [sub_cons, sub_nil, and_true] at hL
  unfold onC
  simp +contextual (maxDischargeDepth := 60) [*]

@[simp] theorem coGroupcmd_parts (m : Nat) (s : State) {L : List Piece} (z0 : State) (hk : partsOnly L z0 s) (hL : sub [.msh, .mboxes, .regs, .co, .evAt, .mbLast, .flight] L = true := by simp [*]) : partsOnly L z0 (coGroupcmd m s) := by
  simp only [sub_cons, sub_nil, and_true] at hL
  unfold coGroupcmd
  simp +contextual (maxDischargeDepth := 60) [*]

@[simp] theorem coNodesCmd_parts (m : Nat) (s : State) {L : List Piece} (z0 : State) (hk : partsOnly L z0 s) (hL : sub [.mboxes, .regs, .mbLast, .flight] L = true := by simp [*]) : partsOnly L z0 (coNodesCmd m s) := by
  simp only [sub_cons, sub_nil, and_true] at hL
  unfold coNodesCmd
  simp +contextual (maxDischargeDepth := 60) [*]

@[simp] theorem coNodeCmd_parts (m : Nat) (s : State) {L : List Piece} (z0 : State) (hk : partsOnly L z0 s) (hL : sub [.mboxes, .regs, .mbLast, .flight] L = true := by simp [*]) : partsOnly L z0 (coNodeCmd m s) := by
  simp only [sub_cons, sub_nil, and_true] at hL
  unfold coNodeCmd
  refine shortCmd_parts _ _ _ _ _ (fun r t h => onC_parts _ _ _ _ _ (fun t h => ?_) h) hk
  try dsimp only
  (repeat' split) <;> simp (maxDischargeDepth := 60) [hL, h]

@[simp] theorem coGroupsCmd_parts (m : Nat) (s : State) {L : List Piece} (z0 : State) (hk : partsOnly L z0 s) (hL : sub [.msh, .mboxes, .regs, .co, .evAt, .mbLast, .flight] L = true := by simp [*]) : partsOnly L z0 (coGroupsCmd m s) := by
  simp only [sub_cons, sub_nil, and_true] at hL
  unfold coGroupsCmd
  dsimp only
  (repeat' split) <;> simp +contextual (maxDischargeDepth := 60) [*]

@[simp] theorem coAdmitCmd_parts (m : Nat) (s : State) {L : List Piece} (z0 : State) (hk : partsOnly L z0 s) (hL : sub [.mboxes, .regs, .co, .mbLast, .flight] L = true := by simp [*]) : partsOnly L z0 (coAdmitCmd m s) := by
  simp only [sub_cons, sub_nil, and_true] at hL
  unfold coAdmitCmd
  simp +contextual (maxDischargeDepth := 60) [*]

@[simp] theorem coDispatchCmd_parts (m : Nat) (s : State) {L : List Piece} (z0 : State) (hk : partsOnly L z0 s) (hL : sub [.msh, .mboxes, .regs, .co, .evAt, .mbLast, .flight] L = true := by simp [*]) : partsOnly L z0 (coDispatchCmd m s) := by
  simp only [sub_cons, sub_nil, and_true] at hL
  unfold coDispatchCmd
  refine longCmd_parts _ _ _ _ _ (fun r t h => onC_parts _ _ _ _ _ (fun t h => ?_) h) hk
  try dsimp only
  (repeat' split) <;> simp (maxDischargeDepth := 60) [hL, h]

@[simp] theorem pairStatusCmd_parts (m : Nat) (s : State) {L : List Piece} (z0 : State) (hk : partsOnly L z0 s) (hL : sub [.mboxes, .regs, .mbLast, .flight] L = true := by simp [*]) : partsOnly L z0 (pairStatusCmd m s) := by
  simp only [sub_cons, sub_nil, and_true] at hL
  unfold pairStatusCmd
  simp +contextual (maxDischargeDepth := 60) [*]

@[simp] theorem pairConfigCmd_parts (m : Nat) (s : State) {L : List Piece} (z0 : State) (hk : partsOnly L z0 s) (hL : sub [.mboxes, .regs, .mbLast, .flight, .mir] L = true := by simp [*]) : partsOnly L z0 (pairConfigCmd m s) := by
  simp only [sub_cons, sub_nil, and_true] at hL
  unfold pairConfigCmd
  refine shortCmd_parts _ _ _ _ _ (fun r t h => onC_parts _ _ _ _ _ (fun t h => ?_) h) hk
  try dsimp only
  (repeat' split) <;> simp (maxDischargeDepth := 60) [hL, h]

@[simp] theorem pairSwitchCmd_parts (m : Nat) (s : State) {L : List Piece} (z0 : State) (hk : partsOnly L z0 s) (hL : sub [.mboxes, .firn, .regs, .mbLast, .flight, .mir] L = true := by simp [*]) : partsOnly L z0 (pairSwitchCmd m s) := by
  simp only [sub_cons, sub_nil, and_true] at hL
  unfold pairSwitchCmd
  simp +contextual (maxDischargeDepth := 60) [*]

@[simp] theorem storeInfo_parts (m : Nat) (s : State) {L : List Piece} (z0 : State) (hk : partsOnly L z0 s) (hL : sub [.mboxes, .regs, .mbLast, .flight] L = true := by simp [*]) : partsOnly L z0 (storeInfo m s) := by
  simp only [sub_cons, sub_nil, and_true] at hL
  unfold storeInfo
  simp +contextual (maxDischargeDepth := 60) [*]

@[simp] theorem storePart_parts (m : Nat) (s : State) {L : List Piece} (z0 : State) (hk : partsOnly L z0 s) (hL : sub [.mboxes, .regs, .mbLast, .flight] L = true := by simp [*]) : partsOnly L z0 (storePart m s) := by
  simp only [sub_cons, sub_nil, and_true] at hL
  unfold storePart
  simp +contextual (maxDischargeDepth := 60) [*]

@[simp] theorem partsSet_parts (new : List Part) (s : State) {L : List Piece} (z0 : State) (hk : partsOnly L z0 s) (hL : sub [.flc, .regs] L = true := by simp [*]) : partsOnly L z0 (partsSet new s) := by
  simp only [sub_cons, sub_nil, and_true] at hL
  unfold partsSet
  dsimp only
  (repeat' split) <;> simp +contextual (maxDischargeDepth := 60) [*]

@[simp] theorem storePartset_parts (m : Nat) (s : State) {L : List Piece} (z0 : State) (hk : partsOnly L z0 s) (hL : sub [.mboxes, .flc, .regs, .mbLast, .flight] L = true := by simp [*]) : partsOnly L z0 (storePartset m s) := by
  simp only [sub_cons, sub_nil, and_true] at hL
  unfold storePartset
  refine longCmd_parts _ _ _ _ _ (fun r t h => ?_) hk
  try dsimp only
  (repeat' split) <;> simp (maxDischargeDepth := 60) [hL, h]

@[simp] theorem storeScrub_parts (m : Nat) (outs : List (Nat × PageOut)) (s : State) {L : List Piece} (z0 : State) (hk : partsOnly L z0 s) (hL : sub [.age, .mboxes, .flc, .regs, .health, .heldNotices, .mbLast, .flight] L = true := by simp [*]) : partsOnly L z0 (storeScrub m outs s) := by
  simp only [sub_cons, sub_nil, and_true] at hL
  unfold storeScrub
  dsimp only
  (repeat' split) <;> simp +contextual (maxDischargeDepth := 60) [*]

@[simp] theorem tblLoad_parts (m : Nat) (s : State) {L : List Piece} (z0 : State) (hk : partsOnly L z0 s) (hL : sub [.mboxes, .regs, .tblJobs, .mbLast, .flight] L = true := by simp [*]) : partsOnly L z0 (tblLoad m s) := by
  simp only [sub_cons, sub_nil, and_true] at hL
  unfold tblLoad
  refine longCmd_parts _ _ _ _ _ (fun r t h => ?_) hk
  try dsimp only
  (repeat' split) <;> simp (maxDischargeDepth := 60) [hL, h]

@[simp] theorem tblRevert_parts (m : Nat) (s : State) {L : List Piece} (z0 : State) (hk : partsOnly L z0 s) (hL : sub [.mboxes, .regs, .tblJobs, .mbLast, .flight] L = true := by simp [*]) : partsOnly L z0 (tblRevert m s) := by
  simp only [sub_cons, sub_nil, and_true] at hL
  unfold tblRevert
  dsimp only
  (repeat' split) <;> simp +contextual (maxDischargeDepth := 60) [*]

@[simp] theorem tblWriteDone_parts (i : Nat) (ok : Bool) (s : State) {L : List Piece} (z0 : State) (hk : partsOnly L z0 s) (hL : sub [.com, .msh, .lmp, .mboxes, .firn, .regs, .wpt, .tblJobs, .evAt, .tables, .flight, .lum] L = true := by simp [*]) : partsOnly L z0 (tblWriteDone i ok s) := by
  simp only [sub_cons, sub_nil, and_true] at hL
  unfold tblWriteDone
  dsimp only
  (repeat' split) <;> simp +contextual (maxDischargeDepth := 60) [*]

@[simp] theorem tblInfo_parts (m : Nat) (s : State) {L : List Piece} (z0 : State) (hk : partsOnly L z0 s) (hL : sub [.mboxes, .regs, .mbLast, .flight] L = true := by simp [*]) : partsOnly L z0 (tblInfo m s) := by
  simp only [sub_cons, sub_nil, and_true] at hL
  unfold tblInfo
  dsimp only
  (repeat' split) <;> simp +contextual (maxDischargeDepth := 60) [*]

@[simp] theorem tblRead_parts (m : Nat) (s : State) {L : List Piece} (z0 : State) (hk : partsOnly L z0 s) (hL : sub [.mboxes, .regs, .mbLast, .flight] L = true := by simp [*]) : partsOnly L z0 (tblRead m s) := by
  simp only [sub_cons, sub_nil, and_true] at hL
  unfold tblRead
  dsimp only
  (repeat' split) <;> simp +contextual (maxDischargeDepth := 60) [*]

@[simp] theorem hltSummary_parts (m : Nat) (s : State) {L : List Piece} (z0 : State) (hk : partsOnly L z0 s) (hL : sub [.mboxes, .regs, .mbLast, .flight] L = true := by simp [*]) : partsOnly L z0 (hltSummary m s) := by
  simp only [sub_cons, sub_nil, and_true] at hL
  unfold hltSummary
  simp +contextual (maxDischargeDepth := 60) [*]

@[simp] theorem hltRead_parts (m : Nat) (s : State) {L : List Piece} (z0 : State) (hk : partsOnly L z0 s) (hL : sub [.mboxes, .regs, .mbLast, .flight] L = true := by simp [*]) : partsOnly L z0 (hltRead m s) := by
  simp only [sub_cons, sub_nil, and_true] at hL
  unfold hltRead
  refine shortCmd_parts _ _ _ _ _ (fun r t h => ?_) hk
  try dsimp only
  (repeat' split) <;> simp (maxDischargeDepth := 60) [hL, h]

@[simp] theorem updStatusCmd_parts (m : Nat) (s : State) {L : List Piece} (z0 : State) (hk : partsOnly L z0 s) (hL : sub [.mboxes, .regs, .mbLast, .flight] L = true := by simp [*]) : partsOnly L z0 (updStatusCmd m s) := by
  simp only [sub_cons, sub_nil, and_true] at hL
  unfold updStatusCmd
  simp +contextual (maxDischargeDepth := 60) [*]

@[simp] theorem updIntake_parts (m : Nat) (s : State) {L : List Piece} (z0 : State) (hk : partsOnly L z0 s) (hL : sub [.mboxes, .regs, .mbLast, .flight] L = true := by simp [*]) : partsOnly L z0 (updIntake m s) := by
  simp only [sub_cons, sub_nil, and_true] at hL
  unfold updIntake
  dsimp only
  (repeat' split) <;> simp +contextual (maxDischargeDepth := 60) [*]

@[simp] theorem updPush_parts (m : Nat) (s : State) {L : List Piece} (z0 : State) (hk : partsOnly L z0 s) (hL : sub [.mboxes, .regs, .mbLast, .flight] L = true := by simp [*]) : partsOnly L z0 (updPush m s) := by
  simp only [sub_cons, sub_nil, and_true] at hL
  unfold updPush
  refine shortCmd_parts _ _ _ _ _ (fun r t h => ?_) hk
  try dsimp only
  (repeat' split) <;> simp (maxDischargeDepth := 60) [hL, h]

@[simp] theorem intakeVerify_parts (m : Nat) (tag : Nat) (card : List Nat) (s : State) {L : List Piece} (z0 : State) (hk : partsOnly L z0 s) (hL : sub [.mboxes, .fuses, .regs, .upd, .heldNotices, .flight] L = true := by simp [*]) : partsOnly L z0 (intakeVerify m tag card s) := by
  simp only [sub_cons, sub_nil, and_true] at hL
  unfold intakeVerify
  dsimp only
  (repeat' split) <;> simp +contextual (maxDischargeDepth := 60) [*]

@[simp] theorem updDistribute_parts (m : Nat) (s : State) {L : List Piece} (z0 : State) (hk : partsOnly L z0 s) (hL : sub [.msh, .mboxes, .regs, .upd, .evAt, .mbLast, .flight] L = true := by simp [*]) : partsOnly L z0 (updDistribute m s) := by
  simp only [sub_cons, sub_nil, and_true] at hL
  unfold updDistribute
  refine longCmd_parts _ _ _ _ _ (fun r t h => onC_parts _ _ _ _ _ (fun t h => ?_) h) hk
  try dsimp only
  (repeat' split) <;> simp (maxDischargeDepth := 60) [hL, h]

@[simp] theorem updActivate_parts (m : Nat) (s : State) {L : List Piece} (z0 : State) (hk : partsOnly L z0 s) (hL : sub [.msh, .mboxes, .firn, .regs, .upd, .heldNotices, .evAt, .mbLast, .flight] L = true := by simp [*]) : partsOnly L z0 (updActivate m s) := by
  simp only [sub_cons, sub_nil, and_true] at hL
  unfold updActivate
  refine shortCmd_parts _ _ _ _ _ (fun r t h => ?_) hk
  try dsimp only
  (repeat' split) <;> simp (maxDischargeDepth := 60) [hL, h]

@[simp] theorem updConfirm_parts (m : Nat) (s : State) {L : List Piece} (z0 : State) (hk : partsOnly L z0 s) (hL : sub [.mboxes, .regs, .upd, .mbLast, .flight] L = true := by simp [*]) : partsOnly L z0 (updConfirm m s) := by
  simp only [sub_cons, sub_nil, and_true] at hL
  unfold updConfirm
  simp +contextual (maxDischargeDepth := 60) [*]

@[simp] theorem jtagMod_parts (f : Jtag → Jtag) (s : State) {L : List Piece} (z0 : State) (hk : partsOnly L z0 s) (hL : sub [.jtag] L = true := by simp [*]) : partsOnly L z0 (jtagMod f s) := by
  simp only [sub_cons, sub_nil, and_true] at hL
  unfold jtagMod
  simp +contextual (maxDischargeDepth := 60) [*]

@[simp] theorem extest_parts (sample : Nat) (cells : Nat) (s : State) {L : List Piece} (z0 : State) (hk : partsOnly L z0 s) (hL : sub [.jtag] L = true := by simp [*]) : partsOnly L z0 (extest sample cells s) := by
  simp only [sub_cons, sub_nil, and_true] at hL
  unfold extest
  simp +contextual (maxDischargeDepth := 60) [*]

@[simp] theorem samplePreload_parts (sample : Nat) (cells : Nat) (s : State) {L : List Piece} (z0 : State) (hk : partsOnly L z0 s) (hL : sub [.jtag] L = true := by simp [*]) : partsOnly L z0 (samplePreload sample cells s) := by
  simp only [sub_cons, sub_nil, and_true] at hL
  unfold samplePreload
  simp +contextual (maxDischargeDepth := 60) [*]

@[simp] theorem dbgWrite_parts (w : BusReq) (s : State) {L : List Piece} (z0 : State) (hk : partsOnly L z0 s) (hL : sub [.par, .evt, .rtc, .com, .cph, .spx, .lmp, .flc, .firn, .runner, .regs, .tmrs, .freeCtr, .drc, .lnk, .evAt, .pwr, .mem, .flight, .sig, .mir, .lum] L = true := by simp [*]) : partsOnly L z0 (dbgWrite w s).2 := by
  simp only [sub_cons, sub_nil, and_true] at hL
  unfold dbgWrite
  (repeat' split) <;> simp +contextual (maxDischargeDepth := 60) [*]

@[simp] theorem dbgAccess_parts (op : Nat) (addr : Nat) (data : Nat) (s : State) {L : List Piece} (z0 : State) (hk : partsOnly L z0 s) (hL : sub [.jtag, .age, .par, .evt, .rtc, .com, .cph, .spx, .lmp, .mboxes, .flc, .firn, .runner, .regs, .tmrs, .health, .freeCtr, .heldNotices, .drc, .lnk, .evAt, .pwr, .mem, .flight, .sig, .mir, .lum] L = true := by simp [*]) : partsOnly L z0 (dbgAccess op addr data s) := by
  simp only [sub_cons, sub_nil, and_true] at hL
  unfold dbgAccess
  split
  · have h1 := dbgWrite_parts (dbgReq addr data) s z0 hk
    revert h1
    dsimp only
    generalize dbgWrite (dbgReq addr data) s = e
    obtain ⟨r, t⟩ := e
    intro h1
    have h2 : partsOnly L z0 t := h1
    cases r <;> simp (maxDischargeDepth := 60) [hL, h2]
  · have h1 := busRead_parts (dbgReq addr 0) false s z0 hk
    revert h1
    dsimp only
    generalize busRead (dbgReq addr 0) false s = e
    obtain ⟨r, t⟩ := e
    intro h1
    have h2 : partsOnly L z0 t := h1
    cases r <;> simp (maxDischargeDepth := 60) [hL, h2]

@[simp] theorem dbgmem_parts (op : Nat) (addr : Nat) (data : Nat) (a3 : State) {L : List Piece} (z0 : State) (hk : partsOnly L z0 a3) (hL : sub [.jtag, .age, .par, .evt, .rtc, .com, .cph, .spx, .lmp, .mboxes, .flc, .firn, .runner, .regs, .tmrs, .health, .freeCtr, .heldNotices, .drc, .lnk, .evAt, .pwr, .mem, .flight, .sig, .mir, .lum] L = true := by simp [*]) : partsOnly L z0 (dbgmem op addr data a3) := by
  simp only [sub_cons, sub_nil, and_true] at hL
  unfold dbgmem
  dsimp only
  (repeat' split) <;> simp +contextual (maxDischargeDepth := 60) [*]

@[simp] theorem dbgcore_parts (ini : Nat) (f : Core → Core) (s : State) {L : List Piece} (z0 : State) (hk : partsOnly L z0 s) (hL : sub [.jtag, .cores] L = true := by simp [*]) : partsOnly L z0 (dbgcore ini f s) := by
  simp only [sub_cons, sub_nil, and_true] at hL
  unfold dbgcore
  dsimp only
  (repeat' split) <;> simp +contextual (maxDischargeDepth := 60) [*]

@[simp] theorem seenRemove_parts (id : Nat) (s : State) {L : List Piece} (z0 : State) (hk : partsOnly L z0 s) (hL : sub [.msh, .regs, .evAt, .flight] L = true := by simp [*]) : partsOnly L z0 (seenRemove id s) := by
  simp only [sub_cons, sub_nil, and_true] at hL
  unfold seenRemove
  dsimp only
  (repeat' split) <;> simp +contextual (maxDischargeDepth := 60) [*]

@[simp] theorem floodDup_parts (id : Nat) (f : List Nat) (s : State) {L : List Piece} (z0 : State) (hk : partsOnly L z0 s) (hL : sub [.msh, .regs] L = true := by simp [*]) : partsOnly L z0 (floodDup id f s) := by
  simp only [sub_cons, sub_nil, and_true] at hL
  unfold floodDup
  dsimp only
  (repeat' split) <;> simp +contextual (maxDischargeDepth := 60) [*]

@[simp] theorem floodAccept_parts (ringFull : Bool) (port : Option Nat) (id : Nat) (f : List Nat) (a4 : State) {L : List Piece} (z0 : State) (hk : partsOnly L z0 a4) (hL : sub [.msh, .lmp, .mboxes, .firn, .regs, .upd, .co, .freeCtr, .heldNotices, .lnk, .evAt, .flight, .lum, .rfe] L = true := by simp [*]) : partsOnly L z0 (floodAccept ringFull port id f a4) := by
  simp only [sub_cons, sub_nil, and_true] at hL
  unfold floodAccept
  dsimp only
  (repeat' split) <;> simp +contextual (maxDischargeDepth := 60) [*]

@[simp] theorem floodReceive_parts (ringFull : Bool) (port : Option Nat) (f : List Nat) (s : State) {L : List Piece} (z0 : State) (hk : partsOnly L z0 s) (hL : sub [.msh, .lmp, .mboxes, .firn, .regs, .upd, .co, .freeCtr, .heldNotices, .lnk, .evAt, .flight, .lum, .rfe] L = true := by simp [*]) : partsOnly L z0 (floodReceive ringFull port f s) := by
  simp only [sub_cons, sub_nil, and_true] at hL
  unfold floodReceive
  dsimp only
  (repeat' split) <;> simp +contextual (maxDischargeDepth := 60) [*]

@[simp] theorem copyReceive_parts (ringFull : Bool) (nb : Nb) (u : List Nat) (s : State) {L : List Piece} (z0 : State) (hk : partsOnly L z0 s) (hL : sub [.msh, .lmp, .mboxes, .firn, .regs, .upd, .co, .freeCtr, .heldNotices, .lnk, .evAt, .flight, .lum, .rfe] L = true := by simp [*]) : partsOnly L z0 (copyReceive ringFull nb u s) := by
  simp only [sub_cons, sub_nil, and_true] at hL
  unfold copyReceive
  dsimp only
  (repeat' split) <;> simp +contextual (maxDischargeDepth := 60) [*]

@[simp] theorem meshPdu_parts (ringFull : Bool) (nb : Nb) (u : List Nat) (s : State) {L : List Piece} (z0 : State) (hk : partsOnly L z0 s) (hL : sub [.msh, .lmp, .mboxes, .firn, .regs, .upd, .co, .freeCtr, .heldNotices, .lnk, .evAt, .flight, .lum, .rfe] L = true := by simp [*]) : partsOnly L z0 (meshPdu ringFull nb u s) := by
  simp only [sub_cons, sub_nil, and_true] at hL
  unfold meshPdu
  dsimp only
  (repeat' split) <;> simp +contextual (maxDischargeDepth := 60) [*]

@[simp] theorem cfgFetch_parts (s : State) {L : List Piece} (z0 : State) (hk : partsOnly L z0 s) (hL : sub [.msh, .regs, .evAt, .flight] L = true := by simp [*]) : partsOnly L z0 (cfgFetch s) := by
  simp only [sub_cons, sub_nil, and_true] at hL
  unfold cfgFetch
  (repeat' split) <;> simp +contextual (maxDischargeDepth := 60) [*]

@[simp] theorem linkBeacon_parts (r : RxRec) (s : State) {L : List Piece} (z0 : State) (hk : partsOnly L z0 s) (hL : sub [.rxc, .msh, .mboxes, .firn, .regs, .freeCtr, .heldNotices, .lnk, .evAt, .flight, .rfe] L = true := by simp [*]) : partsOnly L z0 (linkBeacon r s) := by
  simp only [sub_cons, sub_nil, and_true] at hL
  unfold linkBeacon
  dsimp only
  (repeat' split) <;> simp +contextual (maxDischargeDepth := 60) [*]

@[simp] theorem statusForward_parts (src : Nat) (a1 : Nat) (a2 : List (Nat × Nat × Nat)) (a3 : State) {L : List Piece} (z0 : State) (hk : partsOnly L z0 a3) (hL : sub [.msh, .mboxes, .regs, .co, .evAt, .flight] L = true := by simp [*]) : partsOnly L z0 (statusForward src a1 a2 a3) := by
  simp only [sub_cons, sub_nil, and_true] at hL
  induction a1 generalizing a2 a3 with
  | zero => exact hk
  | succ n ih =>
    unfold statusForward
    split
    · exact hk
    · exact ih _ _ (by split <;> simp (maxDischargeDepth := 60) [hL, hk])

@[simp] theorem connGreet_parts (c : Conn) (s : State) {L : List Piece} (z0 : State) (hk : partsOnly L z0 s) (hL : sub [.msh, .regs, .evAt, .flight] L = true := by simp [*]) : partsOnly L z0 (connGreet c s) := by
  simp only [sub_cons, sub_nil, and_true] at hL
  unfold connGreet
  (repeat' split) <;> simp +contextual (maxDischargeDepth := 60) [*]

@[simp] theorem linkConn_parts (ringFull : Bool) (r : RxRec) (s : State) {L : List Piece} (z0 : State) (hk : partsOnly L z0 s) (hL : sub [.rxc, .msh, .lmp, .mboxes, .firn, .regs, .upd, .co, .freeCtr, .heldNotices, .lnk, .evAt, .flight, .lum, .rfe] L = true := by simp [*]) : partsOnly L z0 (linkConn ringFull r s) := by
  simp only [sub_cons, sub_nil, and_true] at hL
  unfold linkConn
  dsimp only
  (repeat' split) <;> simp +contextual (maxDischargeDepth := 60) [*]

@[simp] theorem linkJoinReq_parts (r : RxRec) (s : State) {L : List Piece} (z0 : State) (hk : partsOnly L z0 s) (hL : sub [.msh, .regs, .co, .freeCtr, .lnk, .evAt, .flight, .rfe] L = true := by simp [*]) : partsOnly L z0 (linkJoinReq r s) := by
  simp only [sub_cons, sub_nil, and_true] at hL
  unfold linkJoinReq
  dsimp only
  (repeat' split) <;> simp +contextual (maxDischargeDepth := 60) [*]

@[simp] theorem linkTake_parts (ringFull : Bool) (r : RxRec) (s : State) {L : List Piece} (z0 : State) (hk : partsOnly L z0 s) (hL : sub [.rxc, .msh, .lmp, .mboxes, .firn, .regs, .upd, .co, .freeCtr, .heldNotices, .lnk, .evAt, .flight, .lum, .rfe] L = true := by simp [*]) : partsOnly L z0 (linkTake ringFull r s) := by
  simp only [sub_cons, sub_nil, and_true] at hL
  unfold linkTake
  (repeat' split) <;> simp +contextual (maxDischargeDepth := 60) [*]

@[simp] theorem linkFrame_parts (ringFull : Bool) (r : RxRec) (s : State) {L : List Piece} (z0 : State) (hk : partsOnly L z0 s) (hL : sub [.rxc, .msh, .lmp, .mboxes, .firn, .regs, .upd, .co, .freeCtr, .heldNotices, .lnk, .evAt, .flight, .lum, .rfe] L = true := by simp [*]) : partsOnly L z0 (linkFrame ringFull r s) := by
  simp only [sub_cons, sub_nil, and_true] at hL
  unfold linkFrame
  dsimp only
  (repeat' split) <;> simp +contextual (maxDischargeDepth := 60) [*]

@[simp] theorem linkFrameCheck_parts (ringFull : Bool) (s : State) {L : List Piece} (z0 : State) (hk : partsOnly L z0 s) (hL : sub [.rxc, .msh, .lmp, .mboxes, .firn, .regs, .upd, .co, .freeCtr, .heldNotices, .lnk, .evAt, .flight, .lum, .rfe] L = true := by simp [*]) : partsOnly L z0 (linkFrameCheck ringFull s) := by
  simp only [sub_cons, sub_nil, and_true] at hL
  unfold linkFrameCheck
  dsimp only
  (repeat' split) <;> simp +contextual (maxDischargeDepth := 60) [*]

@[simp] theorem wdataReceive_parts (ringFull : Bool) (p : Nat) (c : List Nat) (s : State) {L : List Piece} (z0 : State) (hk : partsOnly L z0 s) (hL : sub [.msh, .lmp, .mboxes, .firn, .regs, .wpt, .upd, .co, .freeCtr, .heldNotices, .lnk, .evAt, .flight, .lum, .rfe] L = true := by simp [*]) : partsOnly L z0 (wdataReceive ringFull p c s) := by
  simp only [sub_cons, sub_nil, and_true] at hL
  unfold wdataReceive
  simp +contextual (maxDischargeDepth := 60) [*]

@[simp] theorem wiredItem_parts (ringFull : Bool) (p : Nat) (kind : Nat) (c : List Nat) (mac : List Nat) (s : State) {L : List Piece} (z0 : State) (hk : partsOnly L z0 s) (hL : sub [.msh, .lmp, .mboxes, .firn, .regs, .wpt, .upd, .co, .freeCtr, .heldNotices, .lnk, .evAt, .flight, .lum, .rfe] L = true := by simp [*]) : partsOnly L z0 (wiredItem ringFull p kind c mac s) := by
  simp only [sub_cons, sub_nil, and_true] at hL
  unfold wiredItem
  simp +contextual (maxDischargeDepth := 60) [*]

@[simp] theorem wiredFrameReceive_parts (p : Nat) (fcsOk : Bool) (f : List Nat) (ringFull : Bool) (s : State) {L : List Piece} (z0 : State) (hk : partsOnly L z0 s) (hL : sub [.msh, .lmp, .mboxes, .firn, .regs, .wpt, .upd, .co, .freeCtr, .heldNotices, .lnk, .evAt, .flight, .lum, .rfe] L = true := by simp [*]) : partsOnly L z0 (wiredFrameReceive p fcsOk f ringFull s) := by
  simp only [sub_cons, sub_nil, and_true] at hL
  unfold wiredFrameReceive
  dsimp only
  (repeat' split) <;> simp +contextual (maxDischargeDepth := 60) [*]

end Sys2Proof.Machine
end

