-- ==== Sys2Proof/Laws/State.lean ====
section
/-!
SUPPORT. What each named operation on the state leaves alone: one lemma per field of State and operation, true by computation.
-/
namespace Sys2Proof.Machine

@[simp] theorem State.wr_pending (s : State) (f : Field) (v : Nat) : (s.wr f v).pending = s.pending := rfl
@[simp] theorem State.wr_elapsed (s : State) (f : Field) (v : Nat) : (s.wr f v).elapsed = s.elapsed := rfl
@[simp] theorem State.wr_porAt (s : State) (f : Field) (v : Nat) : (s.wr f v).porAt = s.porAt := rfl
@[simp] theorem State.wr_freeCtr (s : State) (f : Field) (v : Nat) : (s.wr f v).freeCtr = s.freeCtr := rfl
@[simp] theorem State.wr_com (s : State) (f : Field) (v : Nat) : (s.wr f v).com = s.com := rfl
@[simp] theorem State.wr_mem (s : State) (f : Field) (v : Nat) : (s.wr f v).mem = s.mem := rfl
@[simp] theorem State.wr_fuses (s : State) (f : Field) (v : Nat) : (s.wr f v).fuses = s.fuses := rfl
@[simp] theorem State.wr_flight (s : State) (f : Field) (v : Nat) : (s.wr f v).flight = s.flight := rfl
@[simp] theorem State.wr_firn (s : State) (f : Field) (v : Nat) : (s.wr f v).firn = s.firn := rfl
@[simp] theorem State.wr_cph (s : State) (f : Field) (v : Nat) : (s.wr f v).cph = s.cph := rfl
@[simp] theorem State.wr_tmrs (s : State) (f : Field) (v : Nat) : (s.wr f v).tmrs = s.tmrs := rfl
@[simp] theorem State.wr_rtc (s : State) (f : Field) (v : Nat) : (s.wr f v).rtc = s.rtc := rfl
@[simp] theorem State.wr_mboxes (s : State) (f : Field) (v : Nat) : (s.wr f v).mboxes = s.mboxes := rfl
@[simp] theorem State.wr_heldNotices (s : State) (f : Field) (v : Nat) : (s.wr f v).heldNotices = s.heldNotices := rfl
@[simp] theorem State.wr_health (s : State) (f : Field) (v : Nat) : (s.wr f v).health = s.health := rfl
@[simp] theorem State.wr_boots (s : State) (f : Field) (v : Nat) : (s.wr f v).boots = s.boots := rfl
@[simp] theorem State.wr_sysResetAt (s : State) (f : Field) (v : Nat) : (s.wr f v).sysResetAt = s.sysResetAt := rfl
@[simp] theorem State.wr_tables (s : State) (f : Field) (v : Nat) : (s.wr f v).tables = s.tables := rfl
@[simp] theorem State.wr_rfe (s : State) (f : Field) (v : Nat) : (s.wr f v).rfe = s.rfe := rfl
@[simp] theorem State.wr_rxc (s : State) (f : Field) (v : Nat) : (s.wr f v).rxc = s.rxc := rfl
@[simp] theorem State.wr_netCfg (s : State) (f : Field) (v : Nat) : (s.wr f v).netCfg = s.netCfg := rfl
@[simp] theorem State.wr_msh (s : State) (f : Field) (v : Nat) : (s.wr f v).msh = s.msh := rfl
@[simp] theorem State.wr_evAt (s : State) (f : Field) (v : Nat) : (s.wr f v).evAt = s.evAt := rfl
@[simp] theorem State.wr_lnk (s : State) (f : Field) (v : Nat) : (s.wr f v).lnk = s.lnk := rfl
@[simp] theorem State.wr_wpt (s : State) (f : Field) (v : Nat) : (s.wr f v).wpt = s.wpt := rfl
@[simp] theorem State.wr_par (s : State) (f : Field) (v : Nat) : (s.wr f v).par = s.par := rfl
@[simp] theorem State.wr_drc (s : State) (f : Field) (v : Nat) : (s.wr f v).drc = s.drc := rfl
@[simp] theorem State.wr_cores (s : State) (f : Field) (v : Nat) : (s.wr f v).cores = s.cores := rfl
@[simp] theorem State.wr_sig (s : State) (f : Field) (v : Nat) : (s.wr f v).sig = s.sig := rfl
@[simp] theorem State.wr_runner (s : State) (f : Field) (v : Nat) : (s.wr f v).runner = s.runner := rfl
@[simp] theorem State.wr_flc (s : State) (f : Field) (v : Nat) : (s.wr f v).flc = s.flc := rfl
@[simp] theorem State.wr_spx (s : State) (f : Field) (v : Nat) : (s.wr f v).spx = s.spx := rfl
@[simp] theorem State.wr_lmp (s : State) (f : Field) (v : Nat) : (s.wr f v).lmp = s.lmp := rfl
@[simp] theorem State.wr_lum (s : State) (f : Field) (v : Nat) : (s.wr f v).lum = s.lum := rfl
@[simp] theorem State.wr_co (s : State) (f : Field) (v : Nat) : (s.wr f v).co = s.co := rfl
@[simp] theorem State.wr_age (s : State) (f : Field) (v : Nat) : (s.wr f v).age = s.age := rfl
@[simp] theorem State.wr_mir (s : State) (f : Field) (v : Nat) : (s.wr f v).mir = s.mir := rfl
@[simp] theorem State.wr_runAt (s : State) (f : Field) (v : Nat) : (s.wr f v).runAt = s.runAt := rfl
@[simp] theorem State.wr_upd (s : State) (f : Field) (v : Nat) : (s.wr f v).upd = s.upd := rfl
@[simp] theorem State.wr_pwr (s : State) (f : Field) (v : Nat) : (s.wr f v).pwr = s.pwr := rfl
@[simp] theorem State.wr_evt (s : State) (f : Field) (v : Nat) : (s.wr f v).evt = s.evt := rfl
@[simp] theorem State.wr_rdata (s : State) (f : Field) (v : Nat) : (s.wr f v).rdata = s.rdata := rfl
@[simp] theorem State.wr_mbLast (s : State) (f : Field) (v : Nat) : (s.wr f v).mbLast = s.mbLast := rfl
@[simp] theorem State.wr_resetDue (s : State) (f : Field) (v : Nat) : (s.wr f v).resetDue = s.resetDue := rfl
@[simp] theorem State.wr_tblJobs (s : State) (f : Field) (v : Nat) : (s.wr f v).tblJobs = s.tblJobs := rfl
@[simp] theorem State.wr_jtag (s : State) (f : Field) (v : Nat) : (s.wr f v).jtag = s.jtag := rfl

@[simp] theorem State.wrC_pending (s : State) (f : Field) (v : Nat) : (s.wrC f v).pending = s.pending := rfl
@[simp] theorem State.wrC_elapsed (s : State) (f : Field) (v : Nat) : (s.wrC f v).elapsed = s.elapsed := rfl
@[simp] theorem State.wrC_porAt (s : State) (f : Field) (v : Nat) : (s.wrC f v).porAt = s.porAt := rfl
@[simp] theorem State.wrC_freeCtr (s : State) (f : Field) (v : Nat) : (s.wrC f v).freeCtr = s.freeCtr := rfl
@[simp] theorem State.wrC_regs (s : State) (f : Field) (v : Nat) : (s.wrC f v).regs = s.regs := rfl
@[simp] theorem State.wrC_mem (s : State) (f : Field) (v : Nat) : (s.wrC f v).mem = s.mem := rfl
@[simp] theorem State.wrC_fuses (s : State) (f : Field) (v : Nat) : (s.wrC f v).fuses = s.fuses := rfl
@[simp] theorem State.wrC_flight (s : State) (f : Field) (v : Nat) : (s.wrC f v).flight = s.flight := rfl
@[simp] theorem State.wrC_firn (s : State) (f : Field) (v : Nat) : (s.wrC f v).firn = s.firn := rfl
@[simp] theorem State.wrC_cph (s : State) (f : Field) (v : Nat) : (s.wrC f v).cph = s.cph := rfl
@[simp] theorem State.wrC_tmrs (s : State) (f : Field) (v : Nat) : (s.wrC f v).tmrs = s.tmrs := rfl
@[simp] theorem State.wrC_rtc (s : State) (f : Field) (v : Nat) : (s.wrC f v).rtc = s.rtc := rfl
@[simp] theorem State.wrC_mboxes (s : State) (f : Field) (v : Nat) : (s.wrC f v).mboxes = s.mboxes := rfl
@[simp] theorem State.wrC_heldNotices (s : State) (f : Field) (v : Nat) : (s.wrC f v).heldNotices = s.heldNotices := rfl
@[simp] theorem State.wrC_health (s : State) (f : Field) (v : Nat) : (s.wrC f v).health = s.health := rfl
@[simp] theorem State.wrC_boots (s : State) (f : Field) (v : Nat) : (s.wrC f v).boots = s.boots := rfl
@[simp] theorem State.wrC_sysResetAt (s : State) (f : Field) (v : Nat) : (s.wrC f v).sysResetAt = s.sysResetAt := rfl
@[simp] theorem State.wrC_tables (s : State) (f : Field) (v : Nat) : (s.wrC f v).tables = s.tables := rfl
@[simp] theorem State.wrC_rfe (s : State) (f : Field) (v : Nat) : (s.wrC f v).rfe = s.rfe := rfl
@[simp] theorem State.wrC_rxc (s : State) (f : Field) (v : Nat) : (s.wrC f v).rxc = s.rxc := rfl
@[simp] theorem State.wrC_netCfg (s : State) (f : Field) (v : Nat) : (s.wrC f v).netCfg = s.netCfg := rfl
@[simp] theorem State.wrC_msh (s : State) (f : Field) (v : Nat) : (s.wrC f v).msh = s.msh := rfl
@[simp] theorem State.wrC_evAt (s : State) (f : Field) (v : Nat) : (s.wrC f v).evAt = s.evAt := rfl
@[simp] theorem State.wrC_lnk (s : State) (f : Field) (v : Nat) : (s.wrC f v).lnk = s.lnk := rfl
@[simp] theorem State.wrC_wpt (s : State) (f : Field) (v : Nat) : (s.wrC f v).wpt = s.wpt := rfl
@[simp] theorem State.wrC_par (s : State) (f : Field) (v : Nat) : (s.wrC f v).par = s.par := rfl
@[simp] theorem State.wrC_drc (s : State) (f : Field) (v : Nat) : (s.wrC f v).drc = s.drc := rfl
@[simp] theorem State.wrC_cores (s : State) (f : Field) (v : Nat) : (s.wrC f v).cores = s.cores := rfl
@[simp] theorem State.wrC_sig (s : State) (f : Field) (v : Nat) : (s.wrC f v).sig = s.sig := rfl
@[simp] theorem State.wrC_runner (s : State) (f : Field) (v : Nat) : (s.wrC f v).runner = s.runner := rfl
@[simp] theorem State.wrC_flc (s : State) (f : Field) (v : Nat) : (s.wrC f v).flc = s.flc := rfl
@[simp] theorem State.wrC_spx (s : State) (f : Field) (v : Nat) : (s.wrC f v).spx = s.spx := rfl
@[simp] theorem State.wrC_lmp (s : State) (f : Field) (v : Nat) : (s.wrC f v).lmp = s.lmp := rfl
@[simp] theorem State.wrC_lum (s : State) (f : Field) (v : Nat) : (s.wrC f v).lum = s.lum := rfl
@[simp] theorem State.wrC_co (s : State) (f : Field) (v : Nat) : (s.wrC f v).co = s.co := rfl
@[simp] theorem State.wrC_age (s : State) (f : Field) (v : Nat) : (s.wrC f v).age = s.age := rfl
@[simp] theorem State.wrC_mir (s : State) (f : Field) (v : Nat) : (s.wrC f v).mir = s.mir := rfl
@[simp] theorem State.wrC_runAt (s : State) (f : Field) (v : Nat) : (s.wrC f v).runAt = s.runAt := rfl
@[simp] theorem State.wrC_upd (s : State) (f : Field) (v : Nat) : (s.wrC f v).upd = s.upd := rfl
@[simp] theorem State.wrC_pwr (s : State) (f : Field) (v : Nat) : (s.wrC f v).pwr = s.pwr := rfl
@[simp] theorem State.wrC_evt (s : State) (f : Field) (v : Nat) : (s.wrC f v).evt = s.evt := rfl
@[simp] theorem State.wrC_rdata (s : State) (f : Field) (v : Nat) : (s.wrC f v).rdata = s.rdata := rfl
@[simp] theorem State.wrC_mbLast (s : State) (f : Field) (v : Nat) : (s.wrC f v).mbLast = s.mbLast := rfl
@[simp] theorem State.wrC_resetDue (s : State) (f : Field) (v : Nat) : (s.wrC f v).resetDue = s.resetDue := rfl
@[simp] theorem State.wrC_tblJobs (s : State) (f : Field) (v : Nat) : (s.wrC f v).tblJobs = s.tblJobs := rfl
@[simp] theorem State.wrC_jtag (s : State) (f : Field) (v : Nat) : (s.wrC f v).jtag = s.jtag := rfl

@[simp] theorem State.count_pending (s : State) (f : Field) (d : Nat) : (s.count f d).pending = s.pending := rfl
@[simp] theorem State.count_elapsed (s : State) (f : Field) (d : Nat) : (s.count f d).elapsed = s.elapsed := rfl
@[simp] theorem State.count_porAt (s : State) (f : Field) (d : Nat) : (s.count f d).porAt = s.porAt := rfl
@[simp] theorem State.count_freeCtr (s : State) (f : Field) (d : Nat) : (s.count f d).freeCtr = s.freeCtr := rfl
@[simp] theorem State.count_com (s : State) (f : Field) (d : Nat) : (s.count f d).com = s.com := rfl
@[simp] theorem State.count_mem (s : State) (f : Field) (d : Nat) : (s.count f d).mem = s.mem := rfl
@[simp] theorem State.count_fuses (s : State) (f : Field) (d : Nat) : (s.count f d).fuses = s.fuses := rfl
@[simp] theorem State.count_flight (s : State) (f : Field) (d : Nat) : (s.count f d).flight = s.flight := rfl
@[simp] theorem State.count_firn (s : State) (f : Field) (d : Nat) : (s.count f d).firn = s.firn := rfl
@[simp] theorem State.count_cph (s : State) (f : Field) (d : Nat) : (s.count f d).cph = s.cph := rfl
@[simp] theorem State.count_tmrs (s : State) (f : Field) (d : Nat) : (s.count f d).tmrs = s.tmrs := rfl
@[simp] theorem State.count_rtc (s : State) (f : Field) (d : Nat) : (s.count f d).rtc = s.rtc := rfl
@[simp] theorem State.count_mboxes (s : State) (f : Field) (d : Nat) : (s.count f d).mboxes = s.mboxes := rfl
@[simp] theorem State.count_heldNotices (s : State) (f : Field) (d : Nat) : (s.count f d).heldNotices = s.heldNotices := rfl
@[simp] theorem State.count_health (s : State) (f : Field) (d : Nat) : (s.count f d).health = s.health := rfl
@[simp] theorem State.count_boots (s : State) (f : Field) (d : Nat) : (s.count f d).boots = s.boots := rfl
@[simp] theorem State.count_sysResetAt (s : State) (f : Field) (d : Nat) : (s.count f d).sysResetAt = s.sysResetAt := rfl
@[simp] theorem State.count_tables (s : State) (f : Field) (d : Nat) : (s.count f d).tables = s.tables := rfl
@[simp] theorem State.count_rfe (s : State) (f : Field) (d : Nat) : (s.count f d).rfe = s.rfe := rfl
@[simp] theorem State.count_rxc (s : State) (f : Field) (d : Nat) : (s.count f d).rxc = s.rxc := rfl
@[simp] theorem State.count_netCfg (s : State) (f : Field) (d : Nat) : (s.count f d).netCfg = s.netCfg := rfl
@[simp] theorem State.count_msh (s : State) (f : Field) (d : Nat) : (s.count f d).msh = s.msh := rfl
@[simp] theorem State.count_evAt (s : State) (f : Field) (d : Nat) : (s.count f d).evAt = s.evAt := rfl
@[simp] theorem State.count_lnk (s : State) (f : Field) (d : Nat) : (s.count f d).lnk = s.lnk := rfl
@[simp] theorem State.count_wpt (s : State) (f : Field) (d : Nat) : (s.count f d).wpt = s.wpt := rfl
@[simp] theorem State.count_par (s : State) (f : Field) (d : Nat) : (s.count f d).par = s.par := rfl
@[simp] theorem State.count_drc (s : State) (f : Field) (d : Nat) : (s.count f d).drc = s.drc := rfl
@[simp] theorem State.count_cores (s : State) (f : Field) (d : Nat) : (s.count f d).cores = s.cores := rfl
@[simp] theorem State.count_sig (s : State) (f : Field) (d : Nat) : (s.count f d).sig = s.sig := rfl
@[simp] theorem State.count_runner (s : State) (f : Field) (d : Nat) : (s.count f d).runner = s.runner := rfl
@[simp] theorem State.count_flc (s : State) (f : Field) (d : Nat) : (s.count f d).flc = s.flc := rfl
@[simp] theorem State.count_spx (s : State) (f : Field) (d : Nat) : (s.count f d).spx = s.spx := rfl
@[simp] theorem State.count_lmp (s : State) (f : Field) (d : Nat) : (s.count f d).lmp = s.lmp := rfl
@[simp] theorem State.count_lum (s : State) (f : Field) (d : Nat) : (s.count f d).lum = s.lum := rfl
@[simp] theorem State.count_co (s : State) (f : Field) (d : Nat) : (s.count f d).co = s.co := rfl
@[simp] theorem State.count_age (s : State) (f : Field) (d : Nat) : (s.count f d).age = s.age := rfl
@[simp] theorem State.count_mir (s : State) (f : Field) (d : Nat) : (s.count f d).mir = s.mir := rfl
@[simp] theorem State.count_runAt (s : State) (f : Field) (d : Nat) : (s.count f d).runAt = s.runAt := rfl
@[simp] theorem State.count_upd (s : State) (f : Field) (d : Nat) : (s.count f d).upd = s.upd := rfl
@[simp] theorem State.count_pwr (s : State) (f : Field) (d : Nat) : (s.count f d).pwr = s.pwr := rfl
@[simp] theorem State.count_evt (s : State) (f : Field) (d : Nat) : (s.count f d).evt = s.evt := rfl
@[simp] theorem State.count_rdata (s : State) (f : Field) (d : Nat) : (s.count f d).rdata = s.rdata := rfl
@[simp] theorem State.count_mbLast (s : State) (f : Field) (d : Nat) : (s.count f d).mbLast = s.mbLast := rfl
@[simp] theorem State.count_resetDue (s : State) (f : Field) (d : Nat) : (s.count f d).resetDue = s.resetDue := rfl
@[simp] theorem State.count_tblJobs (s : State) (f : Field) (d : Nat) : (s.count f d).tblJobs = s.tblJobs := rfl
@[simp] theorem State.count_jtag (s : State) (f : Field) (d : Nat) : (s.count f d).jtag = s.jtag := rfl

@[simp] theorem State.inc_pending (s : State) (f : Field) : (s.inc f).pending = s.pending := rfl
@[simp] theorem State.inc_elapsed (s : State) (f : Field) : (s.inc f).elapsed = s.elapsed := rfl
@[simp] theorem State.inc_porAt (s : State) (f : Field) : (s.inc f).porAt = s.porAt := rfl
@[simp] theorem State.inc_freeCtr (s : State) (f : Field) : (s.inc f).freeCtr = s.freeCtr := rfl
@[simp] theorem State.inc_com (s : State) (f : Field) : (s.inc f).com = s.com := rfl
@[simp] theorem State.inc_mem (s : State) (f : Field) : (s.inc f).mem = s.mem := rfl
@[simp] theorem State.inc_fuses (s : State) (f : Field) : (s.inc f).fuses = s.fuses := rfl
@[simp] theorem State.inc_flight (s : State) (f : Field) : (s.inc f).flight = s.flight := rfl
@[simp] theorem State.inc_firn (s : State) (f : Field) : (s.inc f).firn = s.firn := rfl
@[simp] theorem State.inc_cph (s : State) (f : Field) : (s.inc f).cph = s.cph := rfl
@[simp] theorem State.inc_tmrs (s : State) (f : Field) : (s.inc f).tmrs = s.tmrs := rfl
@[simp] theorem State.inc_rtc (s : State) (f : Field) : (s.inc f).rtc = s.rtc := rfl
@[simp] theorem State.inc_mboxes (s : State) (f : Field) : (s.inc f).mboxes = s.mboxes := rfl
@[simp] theorem State.inc_heldNotices (s : State) (f : Field) : (s.inc f).heldNotices = s.heldNotices := rfl
@[simp] theorem State.inc_health (s : State) (f : Field) : (s.inc f).health = s.health := rfl
@[simp] theorem State.inc_boots (s : State) (f : Field) : (s.inc f).boots = s.boots := rfl
@[simp] theorem State.inc_sysResetAt (s : State) (f : Field) : (s.inc f).sysResetAt = s.sysResetAt := rfl
@[simp] theorem State.inc_tables (s : State) (f : Field) : (s.inc f).tables = s.tables := rfl
@[simp] theorem State.inc_rfe (s : State) (f : Field) : (s.inc f).rfe = s.rfe := rfl
@[simp] theorem State.inc_rxc (s : State) (f : Field) : (s.inc f).rxc = s.rxc := rfl
@[simp] theorem State.inc_netCfg (s : State) (f : Field) : (s.inc f).netCfg = s.netCfg := rfl
@[simp] theorem State.inc_msh (s : State) (f : Field) : (s.inc f).msh = s.msh := rfl
@[simp] theorem State.inc_evAt (s : State) (f : Field) : (s.inc f).evAt = s.evAt := rfl
@[simp] theorem State.inc_lnk (s : State) (f : Field) : (s.inc f).lnk = s.lnk := rfl
@[simp] theorem State.inc_wpt (s : State) (f : Field) : (s.inc f).wpt = s.wpt := rfl
@[simp] theorem State.inc_par (s : State) (f : Field) : (s.inc f).par = s.par := rfl
@[simp] theorem State.inc_drc (s : State) (f : Field) : (s.inc f).drc = s.drc := rfl
@[simp] theorem State.inc_cores (s : State) (f : Field) : (s.inc f).cores = s.cores := rfl
@[simp] theorem State.inc_sig (s : State) (f : Field) : (s.inc f).sig = s.sig := rfl
@[simp] theorem State.inc_runner (s : State) (f : Field) : (s.inc f).runner = s.runner := rfl
@[simp] theorem State.inc_flc (s : State) (f : Field) : (s.inc f).flc = s.flc := rfl
@[simp] theorem State.inc_spx (s : State) (f : Field) : (s.inc f).spx = s.spx := rfl
@[simp] theorem State.inc_lmp (s : State) (f : Field) : (s.inc f).lmp = s.lmp := rfl
@[simp] theorem State.inc_lum (s : State) (f : Field) : (s.inc f).lum = s.lum := rfl
@[simp] theorem State.inc_co (s : State) (f : Field) : (s.inc f).co = s.co := rfl
@[simp] theorem State.inc_age (s : State) (f : Field) : (s.inc f).age = s.age := rfl
@[simp] theorem State.inc_mir (s : State) (f : Field) : (s.inc f).mir = s.mir := rfl
@[simp] theorem State.inc_runAt (s : State) (f : Field) : (s.inc f).runAt = s.runAt := rfl
@[simp] theorem State.inc_upd (s : State) (f : Field) : (s.inc f).upd = s.upd := rfl
@[simp] theorem State.inc_pwr (s : State) (f : Field) : (s.inc f).pwr = s.pwr := rfl
@[simp] theorem State.inc_evt (s : State) (f : Field) : (s.inc f).evt = s.evt := rfl
@[simp] theorem State.inc_rdata (s : State) (f : Field) : (s.inc f).rdata = s.rdata := rfl
@[simp] theorem State.inc_mbLast (s : State) (f : Field) : (s.inc f).mbLast = s.mbLast := rfl
@[simp] theorem State.inc_resetDue (s : State) (f : Field) : (s.inc f).resetDue = s.resetDue := rfl
@[simp] theorem State.inc_tblJobs (s : State) (f : Field) : (s.inc f).tblJobs = s.tblJobs := rfl
@[simp] theorem State.inc_jtag (s : State) (f : Field) : (s.inc f).jtag = s.jtag := rfl

@[simp] theorem State.set1_pending (s : State) (f : Field) : (s.set1 f).pending = s.pending := rfl
@[simp] theorem State.set1_elapsed (s : State) (f : Field) : (s.set1 f).elapsed = s.elapsed := rfl
@[simp] theorem State.set1_porAt (s : State) (f : Field) : (s.set1 f).porAt = s.porAt := rfl
@[simp] theorem State.set1_freeCtr (s : State) (f : Field) : (s.set1 f).freeCtr = s.freeCtr := rfl
@[simp] theorem State.set1_com (s : State) (f : Field) : (s.set1 f).com = s.com := rfl
@[simp] theorem State.set1_mem (s : State) (f : Field) : (s.set1 f).mem = s.mem := rfl
@[simp] theorem State.set1_fuses (s : State) (f : Field) : (s.set1 f).fuses = s.fuses := rfl
@[simp] theorem State.set1_flight (s : State) (f : Field) : (s.set1 f).flight = s.flight := rfl
@[simp] theorem State.set1_firn (s : State) (f : Field) : (s.set1 f).firn = s.firn := rfl
@[simp] theorem State.set1_cph (s : State) (f : Field) : (s.set1 f).cph = s.cph := rfl
@[simp] theorem State.set1_tmrs (s : State) (f : Field) : (s.set1 f).tmrs = s.tmrs := rfl
@[simp] theorem State.set1_rtc (s : State) (f : Field) : (s.set1 f).rtc = s.rtc := rfl
@[simp] theorem State.set1_mboxes (s : State) (f : Field) : (s.set1 f).mboxes = s.mboxes := rfl
@[simp] theorem State.set1_heldNotices (s : State) (f : Field) : (s.set1 f).heldNotices = s.heldNotices := rfl
@[simp] theorem State.set1_health (s : State) (f : Field) : (s.set1 f).health = s.health := rfl
@[simp] theorem State.set1_boots (s : State) (f : Field) : (s.set1 f).boots = s.boots := rfl
@[simp] theorem State.set1_sysResetAt (s : State) (f : Field) : (s.set1 f).sysResetAt = s.sysResetAt := rfl
@[simp] theorem State.set1_tables (s : State) (f : Field) : (s.set1 f).tables = s.tables := rfl
@[simp] theorem State.set1_rfe (s : State) (f : Field) : (s.set1 f).rfe = s.rfe := rfl
@[simp] theorem State.set1_rxc (s : State) (f : Field) : (s.set1 f).rxc = s.rxc := rfl
@[simp] theorem State.set1_netCfg (s : State) (f : Field) : (s.set1 f).netCfg = s.netCfg := rfl
@[simp] theorem State.set1_msh (s : State) (f : Field) : (s.set1 f).msh = s.msh := rfl
@[simp] theorem State.set1_evAt (s : State) (f : Field) : (s.set1 f).evAt = s.evAt := rfl
@[simp] theorem State.set1_lnk (s : State) (f : Field) : (s.set1 f).lnk = s.lnk := rfl
@[simp] theorem State.set1_wpt (s : State) (f : Field) : (s.set1 f).wpt = s.wpt := rfl
@[simp] theorem State.set1_par (s : State) (f : Field) : (s.set1 f).par = s.par := rfl
@[simp] theorem State.set1_drc (s : State) (f : Field) : (s.set1 f).drc = s.drc := rfl
@[simp] theorem State.set1_cores (s : State) (f : Field) : (s.set1 f).cores = s.cores := rfl
@[simp] theorem State.set1_sig (s : State) (f : Field) : (s.set1 f).sig = s.sig := rfl
@[simp] theorem State.set1_runner (s : State) (f : Field) : (s.set1 f).runner = s.runner := rfl
@[simp] theorem State.set1_flc (s : State) (f : Field) : (s.set1 f).flc = s.flc := rfl
@[simp] theorem State.set1_spx (s : State) (f : Field) : (s.set1 f).spx = s.spx := rfl
@[simp] theorem State.set1_lmp (s : State) (f : Field) : (s.set1 f).lmp = s.lmp := rfl
@[simp] theorem State.set1_lum (s : State) (f : Field) : (s.set1 f).lum = s.lum := rfl
@[simp] theorem State.set1_co (s : State) (f : Field) : (s.set1 f).co = s.co := rfl
@[simp] theorem State.set1_age (s : State) (f : Field) : (s.set1 f).age = s.age := rfl
@[simp] theorem State.set1_mir (s : State) (f : Field) : (s.set1 f).mir = s.mir := rfl
@[simp] theorem State.set1_runAt (s : State) (f : Field) : (s.set1 f).runAt = s.runAt := rfl
@[simp] theorem State.set1_upd (s : State) (f : Field) : (s.set1 f).upd = s.upd := rfl
@[simp] theorem State.set1_pwr (s : State) (f : Field) : (s.set1 f).pwr = s.pwr := rfl
@[simp] theorem State.set1_evt (s : State) (f : Field) : (s.set1 f).evt = s.evt := rfl
@[simp] theorem State.set1_rdata (s : State) (f : Field) : (s.set1 f).rdata = s.rdata := rfl
@[simp] theorem State.set1_mbLast (s : State) (f : Field) : (s.set1 f).mbLast = s.mbLast := rfl
@[simp] theorem State.set1_resetDue (s : State) (f : Field) : (s.set1 f).resetDue = s.resetDue := rfl
@[simp] theorem State.set1_tblJobs (s : State) (f : Field) : (s.set1 f).tblJobs = s.tblJobs := rfl
@[simp] theorem State.set1_jtag (s : State) (f : Field) : (s.set1 f).jtag = s.jtag := rfl

@[simp] theorem State.clr_pending (s : State) (f : Field) : (s.clr f).pending = s.pending := rfl
@[simp] theorem State.clr_elapsed (s : State) (f : Field) : (s.clr f).elapsed = s.elapsed := rfl
@[simp] theorem State.clr_porAt (s : State) (f : Field) : (s.clr f).porAt = s.porAt := rfl
@[simp] theorem State.clr_freeCtr (s : State) (f : Field) : (s.clr f).freeCtr = s.freeCtr := rfl
@[simp] theorem State.clr_com (s : State) (f : Field) : (s.clr f).com = s.com := rfl
@[simp] theorem State.clr_mem (s : State) (f : Field) : (s.clr f).mem = s.mem := rfl
@[simp] theorem State.clr_fuses (s : State) (f : Field) : (s.clr f).fuses = s.fuses := rfl
@[simp] theorem State.clr_flight (s : State) (f : Field) : (s.clr f).flight = s.flight := rfl
@[simp] theorem State.clr_firn (s : State) (f : Field) : (s.clr f).firn = s.firn := rfl
@[simp] theorem State.clr_cph (s : State) (f : Field) : (s.clr f).cph = s.cph := rfl
@[simp] theorem State.clr_tmrs (s : State) (f : Field) : (s.clr f).tmrs = s.tmrs := rfl
@[simp] theorem State.clr_rtc (s : State) (f : Field) : (s.clr f).rtc = s.rtc := rfl
@[simp] theorem State.clr_mboxes (s : State) (f : Field) : (s.clr f).mboxes = s.mboxes := rfl
@[simp] theorem State.clr_heldNotices (s : State) (f : Field) : (s.clr f).heldNotices = s.heldNotices := rfl
@[simp] theorem State.clr_health (s : State) (f : Field) : (s.clr f).health = s.health := rfl
@[simp] theorem State.clr_boots (s : State) (f : Field) : (s.clr f).boots = s.boots := rfl
@[simp] theorem State.clr_sysResetAt (s : State) (f : Field) : (s.clr f).sysResetAt = s.sysResetAt := rfl
@[simp] theorem State.clr_tables (s : State) (f : Field) : (s.clr f).tables = s.tables := rfl
@[simp] theorem State.clr_rfe (s : State) (f : Field) : (s.clr f).rfe = s.rfe := rfl
@[simp] theorem State.clr_rxc (s : State) (f : Field) : (s.clr f).rxc = s.rxc := rfl
@[simp] theorem State.clr_netCfg (s : State) (f : Field) : (s.clr f).netCfg = s.netCfg := rfl
@[simp] theorem State.clr_msh (s : State) (f : Field) : (s.clr f).msh = s.msh := rfl
@[simp] theorem State.clr_evAt (s : State) (f : Field) : (s.clr f).evAt = s.evAt := rfl
@[simp] theorem State.clr_lnk (s : State) (f : Field) : (s.clr f).lnk = s.lnk := rfl
@[simp] theorem State.clr_wpt (s : State) (f : Field) : (s.clr f).wpt = s.wpt := rfl
@[simp] theorem State.clr_par (s : State) (f : Field) : (s.clr f).par = s.par := rfl
@[simp] theorem State.clr_drc (s : State) (f : Field) : (s.clr f).drc = s.drc := rfl
@[simp] theorem State.clr_cores (s : State) (f : Field) : (s.clr f).cores = s.cores := rfl
@[simp] theorem State.clr_sig (s : State) (f : Field) : (s.clr f).sig = s.sig := rfl
@[simp] theorem State.clr_runner (s : State) (f : Field) : (s.clr f).runner = s.runner := rfl
@[simp] theorem State.clr_flc (s : State) (f : Field) : (s.clr f).flc = s.flc := rfl
@[simp] theorem State.clr_spx (s : State) (f : Field) : (s.clr f).spx = s.spx := rfl
@[simp] theorem State.clr_lmp (s : State) (f : Field) : (s.clr f).lmp = s.lmp := rfl
@[simp] theorem State.clr_lum (s : State) (f : Field) : (s.clr f).lum = s.lum := rfl
@[simp] theorem State.clr_co (s : State) (f : Field) : (s.clr f).co = s.co := rfl
@[simp] theorem State.clr_age (s : State) (f : Field) : (s.clr f).age = s.age := rfl
@[simp] theorem State.clr_mir (s : State) (f : Field) : (s.clr f).mir = s.mir := rfl
@[simp] theorem State.clr_runAt (s : State) (f : Field) : (s.clr f).runAt = s.runAt := rfl
@[simp] theorem State.clr_upd (s : State) (f : Field) : (s.clr f).upd = s.upd := rfl
@[simp] theorem State.clr_pwr (s : State) (f : Field) : (s.clr f).pwr = s.pwr := rfl
@[simp] theorem State.clr_evt (s : State) (f : Field) : (s.clr f).evt = s.evt := rfl
@[simp] theorem State.clr_rdata (s : State) (f : Field) : (s.clr f).rdata = s.rdata := rfl
@[simp] theorem State.clr_mbLast (s : State) (f : Field) : (s.clr f).mbLast = s.mbLast := rfl
@[simp] theorem State.clr_resetDue (s : State) (f : Field) : (s.clr f).resetDue = s.resetDue := rfl
@[simp] theorem State.clr_tblJobs (s : State) (f : Field) : (s.clr f).tblJobs = s.tblJobs := rfl
@[simp] theorem State.clr_jtag (s : State) (f : Field) : (s.clr f).jtag = s.jtag := rfl

@[simp] theorem State.setBit_pending (s : State) (f : Field) (i : Nat) : (s.setBit f i).pending = s.pending := rfl
@[simp] theorem State.setBit_elapsed (s : State) (f : Field) (i : Nat) : (s.setBit f i).elapsed = s.elapsed := rfl
@[simp] theorem State.setBit_porAt (s : State) (f : Field) (i : Nat) : (s.setBit f i).porAt = s.porAt := rfl
@[simp] theorem State.setBit_freeCtr (s : State) (f : Field) (i : Nat) : (s.setBit f i).freeCtr = s.freeCtr := rfl
@[simp] theorem State.setBit_com (s : State) (f : Field) (i : Nat) : (s.setBit f i).com = s.com := rfl
@[simp] theorem State.setBit_mem (s : State) (f : Field) (i : Nat) : (s.setBit f i).mem = s.mem := rfl
@[simp] theorem State.setBit_fuses (s : State) (f : Field) (i : Nat) : (s.setBit f i).fuses = s.fuses := rfl
@[simp] theorem State.setBit_flight (s : State) (f : Field) (i : Nat) : (s.setBit f i).flight = s.flight := rfl
@[simp] theorem State.setBit_firn (s : State) (f : Field) (i : Nat) : (s.setBit f i).firn = s.firn := rfl
@[simp] theorem State.setBit_cph (s : State) (f : Field) (i : Nat) : (s.setBit f i).cph = s.cph := rfl
@[simp] theorem State.setBit_tmrs (s : State) (f : Field) (i : Nat) : (s.setBit f i).tmrs = s.tmrs := rfl
@[simp] theorem State.setBit_rtc (s : State) (f : Field) (i : Nat) : (s.setBit f i).rtc = s.rtc := rfl
@[simp] theorem State.setBit_mboxes (s : State) (f : Field) (i : Nat) : (s.setBit f i).mboxes = s.mboxes := rfl
@[simp] theorem State.setBit_heldNotices (s : State) (f : Field) (i : Nat) : (s.setBit f i).heldNotices = s.heldNotices := rfl
@[simp] theorem State.setBit_health (s : State) (f : Field) (i : Nat) : (s.setBit f i).health = s.health := rfl
@[simp] theorem State.setBit_boots (s : State) (f : Field) (i : Nat) : (s.setBit f i).boots = s.boots := rfl
@[simp] theorem State.setBit_sysResetAt (s : State) (f : Field) (i : Nat) : (s.setBit f i).sysResetAt = s.sysResetAt := rfl
@[simp] theorem State.setBit_tables (s : State) (f : Field) (i : Nat) : (s.setBit f i).tables = s.tables := rfl
@[simp] theorem State.setBit_rfe (s : State) (f : Field) (i : Nat) : (s.setBit f i).rfe = s.rfe := rfl
@[simp] theorem State.setBit_rxc (s : State) (f : Field) (i : Nat) : (s.setBit f i).rxc = s.rxc := rfl
@[simp] theorem State.setBit_netCfg (s : State) (f : Field) (i : Nat) : (s.setBit f i).netCfg = s.netCfg := rfl
@[simp] theorem State.setBit_msh (s : State) (f : Field) (i : Nat) : (s.setBit f i).msh = s.msh := rfl
@[simp] theorem State.setBit_evAt (s : State) (f : Field) (i : Nat) : (s.setBit f i).evAt = s.evAt := rfl
@[simp] theorem State.setBit_lnk (s : State) (f : Field) (i : Nat) : (s.setBit f i).lnk = s.lnk := rfl
@[simp] theorem State.setBit_wpt (s : State) (f : Field) (i : Nat) : (s.setBit f i).wpt = s.wpt := rfl
@[simp] theorem State.setBit_par (s : State) (f : Field) (i : Nat) : (s.setBit f i).par = s.par := rfl
@[simp] theorem State.setBit_drc (s : State) (f : Field) (i : Nat) : (s.setBit f i).drc = s.drc := rfl
@[simp] theorem State.setBit_cores (s : State) (f : Field) (i : Nat) : (s.setBit f i).cores = s.cores := rfl
@[simp] theorem State.setBit_sig (s : State) (f : Field) (i : Nat) : (s.setBit f i).sig = s.sig := rfl
@[simp] theorem State.setBit_runner (s : State) (f : Field) (i : Nat) : (s.setBit f i).runner = s.runner := rfl
@[simp] theorem State.setBit_flc (s : State) (f : Field) (i : Nat) : (s.setBit f i).flc = s.flc := rfl
@[simp] theorem State.setBit_spx (s : State) (f : Field) (i : Nat) : (s.setBit f i).spx = s.spx := rfl
@[simp] theorem State.setBit_lmp (s : State) (f : Field) (i : Nat) : (s.setBit f i).lmp = s.lmp := rfl
@[simp] theorem State.setBit_lum (s : State) (f : Field) (i : Nat) : (s.setBit f i).lum = s.lum := rfl
@[simp] theorem State.setBit_co (s : State) (f : Field) (i : Nat) : (s.setBit f i).co = s.co := rfl
@[simp] theorem State.setBit_age (s : State) (f : Field) (i : Nat) : (s.setBit f i).age = s.age := rfl
@[simp] theorem State.setBit_mir (s : State) (f : Field) (i : Nat) : (s.setBit f i).mir = s.mir := rfl
@[simp] theorem State.setBit_runAt (s : State) (f : Field) (i : Nat) : (s.setBit f i).runAt = s.runAt := rfl
@[simp] theorem State.setBit_upd (s : State) (f : Field) (i : Nat) : (s.setBit f i).upd = s.upd := rfl
@[simp] theorem State.setBit_pwr (s : State) (f : Field) (i : Nat) : (s.setBit f i).pwr = s.pwr := rfl
@[simp] theorem State.setBit_evt (s : State) (f : Field) (i : Nat) : (s.setBit f i).evt = s.evt := rfl
@[simp] theorem State.setBit_rdata (s : State) (f : Field) (i : Nat) : (s.setBit f i).rdata = s.rdata := rfl
@[simp] theorem State.setBit_mbLast (s : State) (f : Field) (i : Nat) : (s.setBit f i).mbLast = s.mbLast := rfl
@[simp] theorem State.setBit_resetDue (s : State) (f : Field) (i : Nat) : (s.setBit f i).resetDue = s.resetDue := rfl
@[simp] theorem State.setBit_tblJobs (s : State) (f : Field) (i : Nat) : (s.setBit f i).tblJobs = s.tblJobs := rfl
@[simp] theorem State.setBit_jtag (s : State) (f : Field) (i : Nat) : (s.setBit f i).jtag = s.jtag := rfl

@[simp] theorem State.clrBit_pending (s : State) (f : Field) (i : Nat) : (s.clrBit f i).pending = s.pending := rfl
@[simp] theorem State.clrBit_elapsed (s : State) (f : Field) (i : Nat) : (s.clrBit f i).elapsed = s.elapsed := rfl
@[simp] theorem State.clrBit_porAt (s : State) (f : Field) (i : Nat) : (s.clrBit f i).porAt = s.porAt := rfl
@[simp] theorem State.clrBit_freeCtr (s : State) (f : Field) (i : Nat) : (s.clrBit f i).freeCtr = s.freeCtr := rfl
@[simp] theorem State.clrBit_com (s : State) (f : Field) (i : Nat) : (s.clrBit f i).com = s.com := rfl
@[simp] theorem State.clrBit_mem (s : State) (f : Field) (i : Nat) : (s.clrBit f i).mem = s.mem := rfl
@[simp] theorem State.clrBit_fuses (s : State) (f : Field) (i : Nat) : (s.clrBit f i).fuses = s.fuses := rfl
@[simp] theorem State.clrBit_flight (s : State) (f : Field) (i : Nat) : (s.clrBit f i).flight = s.flight := rfl
@[simp] theorem State.clrBit_firn (s : State) (f : Field) (i : Nat) : (s.clrBit f i).firn = s.firn := rfl
@[simp] theorem State.clrBit_cph (s : State) (f : Field) (i : Nat) : (s.clrBit f i).cph = s.cph := rfl
@[simp] theorem State.clrBit_tmrs (s : State) (f : Field) (i : Nat) : (s.clrBit f i).tmrs = s.tmrs := rfl
@[simp] theorem State.clrBit_rtc (s : State) (f : Field) (i : Nat) : (s.clrBit f i).rtc = s.rtc := rfl
@[simp] theorem State.clrBit_mboxes (s : State) (f : Field) (i : Nat) : (s.clrBit f i).mboxes = s.mboxes := rfl
@[simp] theorem State.clrBit_heldNotices (s : State) (f : Field) (i : Nat) : (s.clrBit f i).heldNotices = s.heldNotices := rfl
@[simp] theorem State.clrBit_health (s : State) (f : Field) (i : Nat) : (s.clrBit f i).health = s.health := rfl
@[simp] theorem State.clrBit_boots (s : State) (f : Field) (i : Nat) : (s.clrBit f i).boots = s.boots := rfl
@[simp] theorem State.clrBit_sysResetAt (s : State) (f : Field) (i : Nat) : (s.clrBit f i).sysResetAt = s.sysResetAt := rfl
@[simp] theorem State.clrBit_tables (s : State) (f : Field) (i : Nat) : (s.clrBit f i).tables = s.tables := rfl
@[simp] theorem State.clrBit_rfe (s : State) (f : Field) (i : Nat) : (s.clrBit f i).rfe = s.rfe := rfl
@[simp] theorem State.clrBit_rxc (s : State) (f : Field) (i : Nat) : (s.clrBit f i).rxc = s.rxc := rfl
@[simp] theorem State.clrBit_netCfg (s : State) (f : Field) (i : Nat) : (s.clrBit f i).netCfg = s.netCfg := rfl
@[simp] theorem State.clrBit_msh (s : State) (f : Field) (i : Nat) : (s.clrBit f i).msh = s.msh := rfl
@[simp] theorem State.clrBit_evAt (s : State) (f : Field) (i : Nat) : (s.clrBit f i).evAt = s.evAt := rfl
@[simp] theorem State.clrBit_lnk (s : State) (f : Field) (i : Nat) : (s.clrBit f i).lnk = s.lnk := rfl
@[simp] theorem State.clrBit_wpt (s : State) (f : Field) (i : Nat) : (s.clrBit f i).wpt = s.wpt := rfl
@[simp] theorem State.clrBit_par (s : State) (f : Field) (i : Nat) : (s.clrBit f i).par = s.par := rfl
@[simp] theorem State.clrBit_drc (s : State) (f : Field) (i : Nat) : (s.clrBit f i).drc = s.drc := rfl
@[simp] theorem State.clrBit_cores (s : State) (f : Field) (i : Nat) : (s.clrBit f i).cores = s.cores := rfl
@[simp] theorem State.clrBit_sig (s : State) (f : Field) (i : Nat) : (s.clrBit f i).sig = s.sig := rfl
@[simp] theorem State.clrBit_runner (s : State) (f : Field) (i : Nat) : (s.clrBit f i).runner = s.runner := rfl
@[simp] theorem State.clrBit_flc (s : State) (f : Field) (i : Nat) : (s.clrBit f i).flc = s.flc := rfl
@[simp] theorem State.clrBit_spx (s : State) (f : Field) (i : Nat) : (s.clrBit f i).spx = s.spx := rfl
@[simp] theorem State.clrBit_lmp (s : State) (f : Field) (i : Nat) : (s.clrBit f i).lmp = s.lmp := rfl
@[simp] theorem State.clrBit_lum (s : State) (f : Field) (i : Nat) : (s.clrBit f i).lum = s.lum := rfl
@[simp] theorem State.clrBit_co (s : State) (f : Field) (i : Nat) : (s.clrBit f i).co = s.co := rfl
@[simp] theorem State.clrBit_age (s : State) (f : Field) (i : Nat) : (s.clrBit f i).age = s.age := rfl
@[simp] theorem State.clrBit_mir (s : State) (f : Field) (i : Nat) : (s.clrBit f i).mir = s.mir := rfl
@[simp] theorem State.clrBit_runAt (s : State) (f : Field) (i : Nat) : (s.clrBit f i).runAt = s.runAt := rfl
@[simp] theorem State.clrBit_upd (s : State) (f : Field) (i : Nat) : (s.clrBit f i).upd = s.upd := rfl
@[simp] theorem State.clrBit_pwr (s : State) (f : Field) (i : Nat) : (s.clrBit f i).pwr = s.pwr := rfl
@[simp] theorem State.clrBit_evt (s : State) (f : Field) (i : Nat) : (s.clrBit f i).evt = s.evt := rfl
@[simp] theorem State.clrBit_rdata (s : State) (f : Field) (i : Nat) : (s.clrBit f i).rdata = s.rdata := rfl
@[simp] theorem State.clrBit_mbLast (s : State) (f : Field) (i : Nat) : (s.clrBit f i).mbLast = s.mbLast := rfl
@[simp] theorem State.clrBit_resetDue (s : State) (f : Field) (i : Nat) : (s.clrBit f i).resetDue = s.resetDue := rfl
@[simp] theorem State.clrBit_tblJobs (s : State) (f : Field) (i : Nat) : (s.clrBit f i).tblJobs = s.tblJobs := rfl
@[simp] theorem State.clrBit_jtag (s : State) (f : Field) (i : Nat) : (s.clrBit f i).jtag = s.jtag := rfl

@[simp] theorem State.raise_pending (s : State) (e : Nat) : (s.raise e).pending = s.pending := rfl
@[simp] theorem State.raise_elapsed (s : State) (e : Nat) : (s.raise e).elapsed = s.elapsed := rfl
@[simp] theorem State.raise_porAt (s : State) (e : Nat) : (s.raise e).porAt = s.porAt := rfl
@[simp] theorem State.raise_freeCtr (s : State) (e : Nat) : (s.raise e).freeCtr = s.freeCtr := rfl
@[simp] theorem State.raise_regs (s : State) (e : Nat) : (s.raise e).regs = s.regs := rfl
@[simp] theorem State.raise_com (s : State) (e : Nat) : (s.raise e).com = s.com := rfl
@[simp] theorem State.raise_mem (s : State) (e : Nat) : (s.raise e).mem = s.mem := rfl
@[simp] theorem State.raise_fuses (s : State) (e : Nat) : (s.raise e).fuses = s.fuses := rfl
@[simp] theorem State.raise_firn (s : State) (e : Nat) : (s.raise e).firn = s.firn := rfl
@[simp] theorem State.raise_cph (s : State) (e : Nat) : (s.raise e).cph = s.cph := rfl
@[simp] theorem State.raise_tmrs (s : State) (e : Nat) : (s.raise e).tmrs = s.tmrs := rfl
@[simp] theorem State.raise_rtc (s : State) (e : Nat) : (s.raise e).rtc = s.rtc := rfl
@[simp] theorem State.raise_mboxes (s : State) (e : Nat) : (s.raise e).mboxes = s.mboxes := rfl
@[simp] theorem State.raise_heldNotices (s : State) (e : Nat) : (s.raise e).heldNotices = s.heldNotices := rfl
@[simp] theorem State.raise_health (s : State) (e : Nat) : (s.raise e).health = s.health := rfl
@[simp] theorem State.raise_boots (s : State) (e : Nat) : (s.raise e).boots = s.boots := rfl
@[simp] theorem State.raise_sysResetAt (s : State) (e : Nat) : (s.raise e).sysResetAt = s.sysResetAt := rfl
@[simp] theorem State.raise_tables (s : State) (e : Nat) : (s.raise e).tables = s.tables := rfl
@[simp] theorem State.raise_rfe (s : State) (e : Nat) : (s.raise e).rfe = s.rfe := rfl
@[simp] theorem State.raise_rxc (s : State) (e : Nat) : (s.raise e).rxc = s.rxc := rfl
@[simp] theorem State.raise_netCfg (s : State) (e : Nat) : (s.raise e).netCfg = s.netCfg := rfl
@[simp] theorem State.raise_msh (s : State) (e : Nat) : (s.raise e).msh = s.msh := rfl
@[simp] theorem State.raise_evAt (s : State) (e : Nat) : (s.raise e).evAt = s.evAt := rfl
@[simp] theorem State.raise_lnk (s : State) (e : Nat) : (s.raise e).lnk = s.lnk := rfl
@[simp] theorem State.raise_wpt (s : State) (e : Nat) : (s.raise e).wpt = s.wpt := rfl
@[simp] theorem State.raise_par (s : State) (e : Nat) : (s.raise e).par = s.par := rfl
@[simp] theorem State.raise_drc (s : State) (e : Nat) : (s.raise e).drc = s.drc := rfl
@[simp] theorem State.raise_cores (s : State) (e : Nat) : (s.raise e).cores = s.cores := rfl
@[simp] theorem State.raise_sig (s : State) (e : Nat) : (s.raise e).sig = s.sig := rfl
@[simp] theorem State.raise_runner (s : State) (e : Nat) : (s.raise e).runner = s.runner := rfl
@[simp] theorem State.raise_flc (s : State) (e : Nat) : (s.raise e).flc = s.flc := rfl
@[simp] theorem State.raise_spx (s : State) (e : Nat) : (s.raise e).spx = s.spx := rfl
@[simp] theorem State.raise_lmp (s : State) (e : Nat) : (s.raise e).lmp = s.lmp := rfl
@[simp] theorem State.raise_lum (s : State) (e : Nat) : (s.raise e).lum = s.lum := rfl
@[simp] theorem State.raise_co (s : State) (e : Nat) : (s.raise e).co = s.co := rfl
@[simp] theorem State.raise_age (s : State) (e : Nat) : (s.raise e).age = s.age := rfl
@[simp] theorem State.raise_mir (s : State) (e : Nat) : (s.raise e).mir = s.mir := rfl
@[simp] theorem State.raise_runAt (s : State) (e : Nat) : (s.raise e).runAt = s.runAt := rfl
@[simp] theorem State.raise_upd (s : State) (e : Nat) : (s.raise e).upd = s.upd := rfl
@[simp] theorem State.raise_pwr (s : State) (e : Nat) : (s.raise e).pwr = s.pwr := rfl
@[simp] theorem State.raise_evt (s : State) (e : Nat) : (s.raise e).evt = s.evt := rfl
@[simp] theorem State.raise_rdata (s : State) (e : Nat) : (s.raise e).rdata = s.rdata := rfl
@[simp] theorem State.raise_mbLast (s : State) (e : Nat) : (s.raise e).mbLast = s.mbLast := rfl
@[simp] theorem State.raise_resetDue (s : State) (e : Nat) : (s.raise e).resetDue = s.resetDue := rfl
@[simp] theorem State.raise_tblJobs (s : State) (e : Nat) : (s.raise e).tblJobs = s.tblJobs := rfl
@[simp] theorem State.raise_jtag (s : State) (e : Nat) : (s.raise e).jtag = s.jtag := rfl

@[simp] theorem State.drawn_pending (s : State) (n : Nat) : (s.drawn n).pending = s.pending := rfl
@[simp] theorem State.drawn_elapsed (s : State) (n : Nat) : (s.drawn n).elapsed = s.elapsed := rfl
@[simp] theorem State.drawn_porAt (s : State) (n : Nat) : (s.drawn n).porAt = s.porAt := rfl
@[simp] theorem State.drawn_regs (s : State) (n : Nat) : (s.drawn n).regs = s.regs := rfl
@[simp] theorem State.drawn_com (s : State) (n : Nat) : (s.drawn n).com = s.com := rfl
@[simp] theorem State.drawn_mem (s : State) (n : Nat) : (s.drawn n).mem = s.mem := rfl
@[simp] theorem State.drawn_fuses (s : State) (n : Nat) : (s.drawn n).fuses = s.fuses := rfl
@[simp] theorem State.drawn_flight (s : State) (n : Nat) : (s.drawn n).flight = s.flight := rfl
@[simp] theorem State.drawn_firn (s : State) (n : Nat) : (s.drawn n).firn = s.firn := rfl
@[simp] theorem State.drawn_cph (s : State) (n : Nat) : (s.drawn n).cph = s.cph := rfl
@[simp] theorem State.drawn_tmrs (s : State) (n : Nat) : (s.drawn n).tmrs = s.tmrs := rfl
@[simp] theorem State.drawn_rtc (s : State) (n : Nat) : (s.drawn n).rtc = s.rtc := rfl
@[simp] theorem State.drawn_mboxes (s : State) (n : Nat) : (s.drawn n).mboxes = s.mboxes := rfl
@[simp] theorem State.drawn_heldNotices (s : State) (n : Nat) : (s.drawn n).heldNotices = s.heldNotices := rfl
@[simp] theorem State.drawn_health (s : State) (n : Nat) : (s.drawn n).health = s.health := rfl
@[simp] theorem State.drawn_boots (s : State) (n : Nat) : (s.drawn n).boots = s.boots := rfl
@[simp] theorem State.drawn_sysResetAt (s : State) (n : Nat) : (s.drawn n).sysResetAt = s.sysResetAt := rfl
@[simp] theorem State.drawn_tables (s : State) (n : Nat) : (s.drawn n).tables = s.tables := rfl
@[simp] theorem State.drawn_rfe (s : State) (n : Nat) : (s.drawn n).rfe = s.rfe := rfl
@[simp] theorem State.drawn_rxc (s : State) (n : Nat) : (s.drawn n).rxc = s.rxc := rfl
@[simp] theorem State.drawn_netCfg (s : State) (n : Nat) : (s.drawn n).netCfg = s.netCfg := rfl
@[simp] theorem State.drawn_msh (s : State) (n : Nat) : (s.drawn n).msh = s.msh := rfl
@[simp] theorem State.drawn_evAt (s : State) (n : Nat) : (s.drawn n).evAt = s.evAt := rfl
@[simp] theorem State.drawn_lnk (s : State) (n : Nat) : (s.drawn n).lnk = s.lnk := rfl
@[simp] theorem State.drawn_wpt (s : State) (n : Nat) : (s.drawn n).wpt = s.wpt := rfl
@[simp] theorem State.drawn_par (s : State) (n : Nat) : (s.drawn n).par = s.par := rfl
@[simp] theorem State.drawn_drc (s : State) (n : Nat) : (s.drawn n).drc = s.drc := rfl
@[simp] theorem State.drawn_cores (s : State) (n : Nat) : (s.drawn n).cores = s.cores := rfl
@[simp] theorem State.drawn_sig (s : State) (n : Nat) : (s.drawn n).sig = s.sig := rfl
@[simp] theorem State.drawn_runner (s : State) (n : Nat) : (s.drawn n).runner = s.runner := rfl
@[simp] theorem State.drawn_flc (s : State) (n : Nat) : (s.drawn n).flc = s.flc := rfl
@[simp] theorem State.drawn_spx (s : State) (n : Nat) : (s.drawn n).spx = s.spx := rfl
@[simp] theorem State.drawn_lmp (s : State) (n : Nat) : (s.drawn n).lmp = s.lmp := rfl
@[simp] theorem State.drawn_lum (s : State) (n : Nat) : (s.drawn n).lum = s.lum := rfl
@[simp] theorem State.drawn_co (s : State) (n : Nat) : (s.drawn n).co = s.co := rfl
@[simp] theorem State.drawn_age (s : State) (n : Nat) : (s.drawn n).age = s.age := rfl
@[simp] theorem State.drawn_mir (s : State) (n : Nat) : (s.drawn n).mir = s.mir := rfl
@[simp] theorem State.drawn_runAt (s : State) (n : Nat) : (s.drawn n).runAt = s.runAt := rfl
@[simp] theorem State.drawn_upd (s : State) (n : Nat) : (s.drawn n).upd = s.upd := rfl
@[simp] theorem State.drawn_pwr (s : State) (n : Nat) : (s.drawn n).pwr = s.pwr := rfl
@[simp] theorem State.drawn_evt (s : State) (n : Nat) : (s.drawn n).evt = s.evt := rfl
@[simp] theorem State.drawn_rdata (s : State) (n : Nat) : (s.drawn n).rdata = s.rdata := rfl
@[simp] theorem State.drawn_mbLast (s : State) (n : Nat) : (s.drawn n).mbLast = s.mbLast := rfl
@[simp] theorem State.drawn_resetDue (s : State) (n : Nat) : (s.drawn n).resetDue = s.resetDue := rfl
@[simp] theorem State.drawn_tblJobs (s : State) (n : Nat) : (s.drawn n).tblJobs = s.tblJobs := rfl
@[simp] theorem State.drawn_jtag (s : State) (n : Nat) : (s.drawn n).jtag = s.jtag := rfl

@[simp] theorem State.pass_pending (s : State) (dt : Nat) : (s.pass dt).pending = s.pending := rfl
@[simp] theorem State.pass_porAt (s : State) (dt : Nat) : (s.pass dt).porAt = s.porAt := rfl
@[simp] theorem State.pass_freeCtr (s : State) (dt : Nat) : (s.pass dt).freeCtr = s.freeCtr := rfl
@[simp] theorem State.pass_regs (s : State) (dt : Nat) : (s.pass dt).regs = s.regs := rfl
@[simp] theorem State.pass_com (s : State) (dt : Nat) : (s.pass dt).com = s.com := rfl
@[simp] theorem State.pass_mem (s : State) (dt : Nat) : (s.pass dt).mem = s.mem := rfl
@[simp] theorem State.pass_fuses (s : State) (dt : Nat) : (s.pass dt).fuses = s.fuses := rfl
@[simp] theorem State.pass_flight (s : State) (dt : Nat) : (s.pass dt).flight = s.flight := rfl
@[simp] theorem State.pass_cph (s : State) (dt : Nat) : (s.pass dt).cph = s.cph := rfl
@[simp] theorem State.pass_tmrs (s : State) (dt : Nat) : (s.pass dt).tmrs = s.tmrs := rfl
@[simp] theorem State.pass_rtc (s : State) (dt : Nat) : (s.pass dt).rtc = s.rtc := rfl
@[simp] theorem State.pass_mboxes (s : State) (dt : Nat) : (s.pass dt).mboxes = s.mboxes := rfl
@[simp] theorem State.pass_heldNotices (s : State) (dt : Nat) : (s.pass dt).heldNotices = s.heldNotices := rfl
@[simp] theorem State.pass_health (s : State) (dt : Nat) : (s.pass dt).health = s.health := rfl
@[simp] theorem State.pass_boots (s : State) (dt : Nat) : (s.pass dt).boots = s.boots := rfl
@[simp] theorem State.pass_sysResetAt (s : State) (dt : Nat) : (s.pass dt).sysResetAt = s.sysResetAt := rfl
@[simp] theorem State.pass_tables (s : State) (dt : Nat) : (s.pass dt).tables = s.tables := rfl
@[simp] theorem State.pass_rfe (s : State) (dt : Nat) : (s.pass dt).rfe = s.rfe := rfl
@[simp] theorem State.pass_rxc (s : State) (dt : Nat) : (s.pass dt).rxc = s.rxc := rfl
@[simp] theorem State.pass_netCfg (s : State) (dt : Nat) : (s.pass dt).netCfg = s.netCfg := rfl
@[simp] theorem State.pass_msh (s : State) (dt : Nat) : (s.pass dt).msh = s.msh := rfl
@[simp] theorem State.pass_evAt (s : State) (dt : Nat) : (s.pass dt).evAt = s.evAt := rfl
@[simp] theorem State.pass_lnk (s : State) (dt : Nat) : (s.pass dt).lnk = s.lnk := rfl
@[simp] theorem State.pass_wpt (s : State) (dt : Nat) : (s.pass dt).wpt = s.wpt := rfl
@[simp] theorem State.pass_par (s : State) (dt : Nat) : (s.pass dt).par = s.par := rfl
@[simp] theorem State.pass_drc (s : State) (dt : Nat) : (s.pass dt).drc = s.drc := rfl
@[simp] theorem State.pass_cores (s : State) (dt : Nat) : (s.pass dt).cores = s.cores := rfl
@[simp] theorem State.pass_sig (s : State) (dt : Nat) : (s.pass dt).sig = s.sig := rfl
@[simp] theorem State.pass_runner (s : State) (dt : Nat) : (s.pass dt).runner = s.runner := rfl
@[simp] theorem State.pass_flc (s : State) (dt : Nat) : (s.pass dt).flc = s.flc := rfl
@[simp] theorem State.pass_spx (s : State) (dt : Nat) : (s.pass dt).spx = s.spx := rfl
@[simp] theorem State.pass_lmp (s : State) (dt : Nat) : (s.pass dt).lmp = s.lmp := rfl
@[simp] theorem State.pass_lum (s : State) (dt : Nat) : (s.pass dt).lum = s.lum := rfl
@[simp] theorem State.pass_co (s : State) (dt : Nat) : (s.pass dt).co = s.co := rfl
@[simp] theorem State.pass_age (s : State) (dt : Nat) : (s.pass dt).age = s.age := rfl
@[simp] theorem State.pass_mir (s : State) (dt : Nat) : (s.pass dt).mir = s.mir := rfl
@[simp] theorem State.pass_runAt (s : State) (dt : Nat) : (s.pass dt).runAt = s.runAt := rfl
@[simp] theorem State.pass_upd (s : State) (dt : Nat) : (s.pass dt).upd = s.upd := rfl
@[simp] theorem State.pass_pwr (s : State) (dt : Nat) : (s.pass dt).pwr = s.pwr := rfl
@[simp] theorem State.pass_evt (s : State) (dt : Nat) : (s.pass dt).evt = s.evt := rfl
@[simp] theorem State.pass_rdata (s : State) (dt : Nat) : (s.pass dt).rdata = s.rdata := rfl
@[simp] theorem State.pass_mbLast (s : State) (dt : Nat) : (s.pass dt).mbLast = s.mbLast := rfl
@[simp] theorem State.pass_resetDue (s : State) (dt : Nat) : (s.pass dt).resetDue = s.resetDue := rfl
@[simp] theorem State.pass_tblJobs (s : State) (dt : Nat) : (s.pass dt).tblJobs = s.tblJobs := rfl
@[simp] theorem State.pass_jtag (s : State) (dt : Nat) : (s.pass dt).jtag = s.jtag := rfl

@[simp] theorem State.st_pending (s : State) (a n v : Nat) : (s.st a n v).pending = s.pending := rfl
@[simp] theorem State.st_elapsed (s : State) (a n v : Nat) : (s.st a n v).elapsed = s.elapsed := rfl
@[simp] theorem State.st_porAt (s : State) (a n v : Nat) : (s.st a n v).porAt = s.porAt := rfl
@[simp] theorem State.st_freeCtr (s : State) (a n v : Nat) : (s.st a n v).freeCtr = s.freeCtr := rfl
@[simp] theorem State.st_regs (s : State) (a n v : Nat) : (s.st a n v).regs = s.regs := rfl
@[simp] theorem State.st_com (s : State) (a n v : Nat) : (s.st a n v).com = s.com := rfl
@[simp] theorem State.st_fuses (s : State) (a n v : Nat) : (s.st a n v).fuses = s.fuses := rfl
@[simp] theorem State.st_flight (s : State) (a n v : Nat) : (s.st a n v).flight = s.flight := rfl
@[simp] theorem State.st_firn (s : State) (a n v : Nat) : (s.st a n v).firn = s.firn := rfl
@[simp] theorem State.st_cph (s : State) (a n v : Nat) : (s.st a n v).cph = s.cph := rfl
@[simp] theorem State.st_tmrs (s : State) (a n v : Nat) : (s.st a n v).tmrs = s.tmrs := rfl
@[simp] theorem State.st_rtc (s : State) (a n v : Nat) : (s.st a n v).rtc = s.rtc := rfl
@[simp] theorem State.st_mboxes (s : State) (a n v : Nat) : (s.st a n v).mboxes = s.mboxes := rfl
@[simp] theorem State.st_heldNotices (s : State) (a n v : Nat) : (s.st a n v).heldNotices = s.heldNotices := rfl
@[simp] theorem State.st_health (s : State) (a n v : Nat) : (s.st a n v).health = s.health := rfl
@[simp] theorem State.st_boots (s : State) (a n v : Nat) : (s.st a n v).boots = s.boots := rfl
@[simp] theorem State.st_sysResetAt (s : State) (a n v : Nat) : (s.st a n v).sysResetAt = s.sysResetAt := rfl
@[simp] theorem State.st_tables (s : State) (a n v : Nat) : (s.st a n v).tables = s.tables := rfl
@[simp] theorem State.st_rfe (s : State) (a n v : Nat) : (s.st a n v).rfe = s.rfe := rfl
@[simp] theorem State.st_rxc (s : State) (a n v : Nat) : (s.st a n v).rxc = s.rxc := rfl
@[simp] theorem State.st_netCfg (s : State) (a n v : Nat) : (s.st a n v).netCfg = s.netCfg := rfl
@[simp] theorem State.st_msh (s : State) (a n v : Nat) : (s.st a n v).msh = s.msh := rfl
@[simp] theorem State.st_evAt (s : State) (a n v : Nat) : (s.st a n v).evAt = s.evAt := rfl
@[simp] theorem State.st_lnk (s : State) (a n v : Nat) : (s.st a n v).lnk = s.lnk := rfl
@[simp] theorem State.st_wpt (s : State) (a n v : Nat) : (s.st a n v).wpt = s.wpt := rfl
@[simp] theorem State.st_par (s : State) (a n v : Nat) : (s.st a n v).par = s.par := rfl
@[simp] theorem State.st_drc (s : State) (a n v : Nat) : (s.st a n v).drc = s.drc := rfl
@[simp] theorem State.st_cores (s : State) (a n v : Nat) : (s.st a n v).cores = s.cores := rfl
@[simp] theorem State.st_sig (s : State) (a n v : Nat) : (s.st a n v).sig = s.sig := rfl
@[simp] theorem State.st_runner (s : State) (a n v : Nat) : (s.st a n v).runner = s.runner := rfl
@[simp] theorem State.st_flc (s : State) (a n v : Nat) : (s.st a n v).flc = s.flc := rfl
@[simp] theorem State.st_spx (s : State) (a n v : Nat) : (s.st a n v).spx = s.spx := rfl
@[simp] theorem State.st_lmp (s : State) (a n v : Nat) : (s.st a n v).lmp = s.lmp := rfl
@[simp] theorem State.st_lum (s : State) (a n v : Nat) : (s.st a n v).lum = s.lum := rfl
@[simp] theorem State.st_co (s : State) (a n v : Nat) : (s.st a n v).co = s.co := rfl
@[simp] theorem State.st_age (s : State) (a n v : Nat) : (s.st a n v).age = s.age := rfl
@[simp] theorem State.st_mir (s : State) (a n v : Nat) : (s.st a n v).mir = s.mir := rfl
@[simp] theorem State.st_runAt (s : State) (a n v : Nat) : (s.st a n v).runAt = s.runAt := rfl
@[simp] theorem State.st_upd (s : State) (a n v : Nat) : (s.st a n v).upd = s.upd := rfl
@[simp] theorem State.st_pwr (s : State) (a n v : Nat) : (s.st a n v).pwr = s.pwr := rfl
@[simp] theorem State.st_evt (s : State) (a n v : Nat) : (s.st a n v).evt = s.evt := rfl
@[simp] theorem State.st_rdata (s : State) (a n v : Nat) : (s.st a n v).rdata = s.rdata := rfl
@[simp] theorem State.st_mbLast (s : State) (a n v : Nat) : (s.st a n v).mbLast = s.mbLast := rfl
@[simp] theorem State.st_resetDue (s : State) (a n v : Nat) : (s.st a n v).resetDue = s.resetDue := rfl
@[simp] theorem State.st_tblJobs (s : State) (a n v : Nat) : (s.st a n v).tblJobs = s.tblJobs := rfl
@[simp] theorem State.st_jtag (s : State) (a n v : Nat) : (s.st a n v).jtag = s.jtag := rfl

@[simp] theorem State.stBytes_pending (s : State) (a : Nat) (l : List Nat) : (s.stBytes a l).pending = s.pending := rfl
@[simp] theorem State.stBytes_elapsed (s : State) (a : Nat) (l : List Nat) : (s.stBytes a l).elapsed = s.elapsed := rfl
@[simp] theorem State.stBytes_porAt (s : State) (a : Nat) (l : List Nat) : (s.stBytes a l).porAt = s.porAt := rfl
@[simp] theorem State.stBytes_freeCtr (s : State) (a : Nat) (l : List Nat) : (s.stBytes a l).freeCtr = s.freeCtr := rfl
@[simp] theorem State.stBytes_regs (s : State) (a : Nat) (l : List Nat) : (s.stBytes a l).regs = s.regs := rfl
@[simp] theorem State.stBytes_com (s : State) (a : Nat) (l : List Nat) : (s.stBytes a l).com = s.com := rfl
@[simp] theorem State.stBytes_fuses (s : State) (a : Nat) (l : List Nat) : (s.stBytes a l).fuses = s.fuses := rfl
@[simp] theorem State.stBytes_flight (s : State) (a : Nat) (l : List Nat) : (s.stBytes a l).flight = s.flight := rfl
@[simp] theorem State.stBytes_firn (s : State) (a : Nat) (l : List Nat) : (s.stBytes a l).firn = s.firn := rfl
@[simp] theorem State.stBytes_cph (s : State) (a : Nat) (l : List Nat) : (s.stBytes a l).cph = s.cph := rfl
@[simp] theorem State.stBytes_tmrs (s : State) (a : Nat) (l : List Nat) : (s.stBytes a l).tmrs = s.tmrs := rfl
@[simp] theorem State.stBytes_rtc (s : State) (a : Nat) (l : List Nat) : (s.stBytes a l).rtc = s.rtc := rfl
@[simp] theorem State.stBytes_mboxes (s : State) (a : Nat) (l : List Nat) : (s.stBytes a l).mboxes = s.mboxes := rfl
@[simp] theorem State.stBytes_heldNotices (s : State) (a : Nat) (l : List Nat) : (s.stBytes a l).heldNotices = s.heldNotices := rfl
@[simp] theorem State.stBytes_health (s : State) (a : Nat) (l : List Nat) : (s.stBytes a l).health = s.health := rfl
@[simp] theorem State.stBytes_boots (s : State) (a : Nat) (l : List Nat) : (s.stBytes a l).boots = s.boots := rfl
@[simp] theorem State.stBytes_sysResetAt (s : State) (a : Nat) (l : List Nat) : (s.stBytes a l).sysResetAt = s.sysResetAt := rfl
@[simp] theorem State.stBytes_tables (s : State) (a : Nat) (l : List Nat) : (s.stBytes a l).tables = s.tables := rfl
@[simp] theorem State.stBytes_rfe (s : State) (a : Nat) (l : List Nat) : (s.stBytes a l).rfe = s.rfe := rfl
@[simp] theorem State.stBytes_rxc (s : State) (a : Nat) (l : List Nat) : (s.stBytes a l).rxc = s.rxc := rfl
@[simp] theorem State.stBytes_netCfg (s : State) (a : Nat) (l : List Nat) : (s.stBytes a l).netCfg = s.netCfg := rfl
@[simp] theorem State.stBytes_msh (s : State) (a : Nat) (l : List Nat) : (s.stBytes a l).msh = s.msh := rfl
@[simp] theorem State.stBytes_evAt (s : State) (a : Nat) (l : List Nat) : (s.stBytes a l).evAt = s.evAt := rfl
@[simp] theorem State.stBytes_lnk (s : State) (a : Nat) (l : List Nat) : (s.stBytes a l).lnk = s.lnk := rfl
@[simp] theorem State.stBytes_wpt (s : State) (a : Nat) (l : List Nat) : (s.stBytes a l).wpt = s.wpt := rfl
@[simp] theorem State.stBytes_par (s : State) (a : Nat) (l : List Nat) : (s.stBytes a l).par = s.par := rfl
@[simp] theorem State.stBytes_drc (s : State) (a : Nat) (l : List Nat) : (s.stBytes a l).drc = s.drc := rfl
@[simp] theorem State.stBytes_cores (s : State) (a : Nat) (l : List Nat) : (s.stBytes a l).cores = s.cores := rfl
@[simp] theorem State.stBytes_sig (s : State) (a : Nat) (l : List Nat) : (s.stBytes a l).sig = s.sig := rfl
@[simp] theorem State.stBytes_runner (s : State) (a : Nat) (l : List Nat) : (s.stBytes a l).runner = s.runner := rfl
@[simp] theorem State.stBytes_flc (s : State) (a : Nat) (l : List Nat) : (s.stBytes a l).flc = s.flc := rfl
@[simp] theorem State.stBytes_spx (s : State) (a : Nat) (l : List Nat) : (s.stBytes a l).spx = s.spx := rfl
@[simp] theorem State.stBytes_lmp (s : State) (a : Nat) (l : List Nat) : (s.stBytes a l).lmp = s.lmp := rfl
@[simp] theorem State.stBytes_lum (s : State) (a : Nat) (l : List Nat) : (s.stBytes a l).lum = s.lum := rfl
@[simp] theorem State.stBytes_co (s : State) (a : Nat) (l : List Nat) : (s.stBytes a l).co = s.co := rfl
@[simp] theorem State.stBytes_age (s : State) (a : Nat) (l : List Nat) : (s.stBytes a l).age = s.age := rfl
@[simp] theorem State.stBytes_mir (s : State) (a : Nat) (l : List Nat) : (s.stBytes a l).mir = s.mir := rfl
@[simp] theorem State.stBytes_runAt (s : State) (a : Nat) (l : List Nat) : (s.stBytes a l).runAt = s.runAt := rfl
@[simp] theorem State.stBytes_upd (s : State) (a : Nat) (l : List Nat) : (s.stBytes a l).upd = s.upd := rfl
@[simp] theorem State.stBytes_pwr (s : State) (a : Nat) (l : List Nat) : (s.stBytes a l).pwr = s.pwr := rfl
@[simp] theorem State.stBytes_evt (s : State) (a : Nat) (l : List Nat) : (s.stBytes a l).evt = s.evt := rfl
@[simp] theorem State.stBytes_rdata (s : State) (a : Nat) (l : List Nat) : (s.stBytes a l).rdata = s.rdata := rfl
@[simp] theorem State.stBytes_mbLast (s : State) (a : Nat) (l : List Nat) : (s.stBytes a l).mbLast = s.mbLast := rfl
@[simp] theorem State.stBytes_resetDue (s : State) (a : Nat) (l : List Nat) : (s.stBytes a l).resetDue = s.resetDue := rfl
@[simp] theorem State.stBytes_tblJobs (s : State) (a : Nat) (l : List Nat) : (s.stBytes a l).tblJobs = s.tblJobs := rfl
@[simp] theorem State.stBytes_jtag (s : State) (a : Nat) (l : List Nat) : (s.stBytes a l).jtag = s.jtag := rfl

@[simp] theorem State.memClear_pending (s : State) (lo hi : Nat) : (s.memClear lo hi).pending = s.pending := rfl
@[simp] theorem State.memClear_elapsed (s : State) (lo hi : Nat) : (s.memClear lo hi).elapsed = s.elapsed := rfl
@[simp] theorem State.memClear_porAt (s : State) (lo hi : Nat) : (s.memClear lo hi).porAt = s.porAt := rfl
@[simp] theorem State.memClear_freeCtr (s : State) (lo hi : Nat) : (s.memClear lo hi).freeCtr = s.freeCtr := rfl
@[simp] theorem State.memClear_regs (s : State) (lo hi : Nat) : (s.memClear lo hi).regs = s.regs := rfl
@[simp] theorem State.memClear_com (s : State) (lo hi : Nat) : (s.memClear lo hi).com = s.com := rfl
@[simp] theorem State.memClear_fuses (s : State) (lo hi : Nat) : (s.memClear lo hi).fuses = s.fuses := rfl
@[simp] theorem State.memClear_flight (s : State) (lo hi : Nat) : (s.memClear lo hi).flight = s.flight := rfl
@[simp] theorem State.memClear_firn (s : State) (lo hi : Nat) : (s.memClear lo hi).firn = s.firn := rfl
@[simp] theorem State.memClear_cph (s : State) (lo hi : Nat) : (s.memClear lo hi).cph = s.cph := rfl
@[simp] theorem State.memClear_tmrs (s : State) (lo hi : Nat) : (s.memClear lo hi).tmrs = s.tmrs := rfl
@[simp] theorem State.memClear_rtc (s : State) (lo hi : Nat) : (s.memClear lo hi).rtc = s.rtc := rfl
@[simp] theorem State.memClear_mboxes (s : State) (lo hi : Nat) : (s.memClear lo hi).mboxes = s.mboxes := rfl
@[simp] theorem State.memClear_heldNotices (s : State) (lo hi : Nat) : (s.memClear lo hi).heldNotices = s.heldNotices := rfl
@[simp] theorem State.memClear_health (s : State) (lo hi : Nat) : (s.memClear lo hi).health = s.health := rfl
@[simp] theorem State.memClear_boots (s : State) (lo hi : Nat) : (s.memClear lo hi).boots = s.boots := rfl
@[simp] theorem State.memClear_sysResetAt (s : State) (lo hi : Nat) : (s.memClear lo hi).sysResetAt = s.sysResetAt := rfl
@[simp] theorem State.memClear_tables (s : State) (lo hi : Nat) : (s.memClear lo hi).tables = s.tables := rfl
@[simp] theorem State.memClear_rfe (s : State) (lo hi : Nat) : (s.memClear lo hi).rfe = s.rfe := rfl
@[simp] theorem State.memClear_rxc (s : State) (lo hi : Nat) : (s.memClear lo hi).rxc = s.rxc := rfl
@[simp] theorem State.memClear_netCfg (s : State) (lo hi : Nat) : (s.memClear lo hi).netCfg = s.netCfg := rfl
@[simp] theorem State.memClear_msh (s : State) (lo hi : Nat) : (s.memClear lo hi).msh = s.msh := rfl
@[simp] theorem State.memClear_evAt (s : State) (lo hi : Nat) : (s.memClear lo hi).evAt = s.evAt := rfl
@[simp] theorem State.memClear_lnk (s : State) (lo hi : Nat) : (s.memClear lo hi).lnk = s.lnk := rfl
@[simp] theorem State.memClear_wpt (s : State) (lo hi : Nat) : (s.memClear lo hi).wpt = s.wpt := rfl
@[simp] theorem State.memClear_par (s : State) (lo hi : Nat) : (s.memClear lo hi).par = s.par := rfl
@[simp] theorem State.memClear_drc (s : State) (lo hi : Nat) : (s.memClear lo hi).drc = s.drc := rfl
@[simp] theorem State.memClear_cores (s : State) (lo hi : Nat) : (s.memClear lo hi).cores = s.cores := rfl
@[simp] theorem State.memClear_sig (s : State) (lo hi : Nat) : (s.memClear lo hi).sig = s.sig := rfl
@[simp] theorem State.memClear_runner (s : State) (lo hi : Nat) : (s.memClear lo hi).runner = s.runner := rfl
@[simp] theorem State.memClear_flc (s : State) (lo hi : Nat) : (s.memClear lo hi).flc = s.flc := rfl
@[simp] theorem State.memClear_spx (s : State) (lo hi : Nat) : (s.memClear lo hi).spx = s.spx := rfl
@[simp] theorem State.memClear_lmp (s : State) (lo hi : Nat) : (s.memClear lo hi).lmp = s.lmp := rfl
@[simp] theorem State.memClear_lum (s : State) (lo hi : Nat) : (s.memClear lo hi).lum = s.lum := rfl
@[simp] theorem State.memClear_co (s : State) (lo hi : Nat) : (s.memClear lo hi).co = s.co := rfl
@[simp] theorem State.memClear_age (s : State) (lo hi : Nat) : (s.memClear lo hi).age = s.age := rfl
@[simp] theorem State.memClear_mir (s : State) (lo hi : Nat) : (s.memClear lo hi).mir = s.mir := rfl
@[simp] theorem State.memClear_runAt (s : State) (lo hi : Nat) : (s.memClear lo hi).runAt = s.runAt := rfl
@[simp] theorem State.memClear_upd (s : State) (lo hi : Nat) : (s.memClear lo hi).upd = s.upd := rfl
@[simp] theorem State.memClear_pwr (s : State) (lo hi : Nat) : (s.memClear lo hi).pwr = s.pwr := rfl
@[simp] theorem State.memClear_evt (s : State) (lo hi : Nat) : (s.memClear lo hi).evt = s.evt := rfl
@[simp] theorem State.memClear_rdata (s : State) (lo hi : Nat) : (s.memClear lo hi).rdata = s.rdata := rfl
@[simp] theorem State.memClear_mbLast (s : State) (lo hi : Nat) : (s.memClear lo hi).mbLast = s.mbLast := rfl
@[simp] theorem State.memClear_resetDue (s : State) (lo hi : Nat) : (s.memClear lo hi).resetDue = s.resetDue := rfl
@[simp] theorem State.memClear_tblJobs (s : State) (lo hi : Nat) : (s.memClear lo hi).tblJobs = s.tblJobs := rfl
@[simp] theorem State.memClear_jtag (s : State) (lo hi : Nat) : (s.memClear lo hi).jtag = s.jtag := rfl

@[simp] theorem State.raise_flight (s : State) (e : Nat) : (s.raise e).flight = s.flight ++ [e] := rfl
@[simp] theorem State.drawn_freeCtr (s : State) (n : Nat) : (s.drawn n).freeCtr = s.freeCtr + n := rfl
@[simp] theorem State.pass_elapsed (s : State) (dt : Nat) : (s.pass dt).elapsed = s.elapsed + dt := rfl
@[simp] theorem State.pass_firn (s : State) (dt : Nat) : (s.pass dt).firn = s.firn.pass s.elapsed dt := rfl

end Sys2Proof.Machine
end

