-- ==== Sys2Proof/WellFormed.lean ====
section
/-!
DEFINITION. Which commands are well-formed: every operand lies in the range that the spec gives the thing it names (a mailbox, a port, a comparator, a
register number, an octet). A command out of range is no command of the block; `WellFormed` says which are, and the meanings do not rely on it.
-/
namespace Sys2Proof

/-! ### Ranges -/

/-- A number below a bound. -/
def below (n x : Nat) : Bool := decide (x < n)

/-- Octets, and words of a bundle. -/
def octets (l : List Nat) : Bool := l.all (below 256)
def words (l : List Nat) : Bool := l.all (below 0x100000000)

/-- A power domain's number (R22). -/
def domain (n : Nat) : Bool := decide (1 ≤ n) && decide (n ≤ 14)

/-- An array that the patrol reads (R437, R441): an SRAM bank, or a tightly coupled memory by its number. -/
def array (n : Nat) : Bool := below 24 n || (decide (0x40 ≤ n) && decide (n ≤ 0x49))

/-- Event sources (R553): 0 to 191. -/
def sources (l : List Nat) : Bool := l.all (below 192)

/-- The eight margins of a re-planning (R653). -/
def eight (l : List Nat) : Bool := l.length == 8

/-- A bus access (R7, R28): an initiator, a 32-bit address, 1, 2, 4 or 8 bytes, and a value that fits them. -/
def busOk (w : BusReq) : Bool :=
  (below 23 w.ini || w.ini == 31) && below 0x100000000 w.addr && (w.size == 1 || w.size == 2 || w.size == 4 || w.size == 8) && decide (w.val < 2 ^ (8 * w.size))

/-- A compact-form core, prefixes, a condition (R28, R377, R378). -/
def headOk (h : IsaHead) : Bool :=
  (below 5 h.ini || (decide (7 ≤ h.ini) && decide (h.ini ≤ 15))) && h.pfx.all (below 5) && below 8 h.cond && below 4 h.bad

/-- Operands of an ALU instruction (R381): register numbers and an immediate that fits its form. -/
def aluOk (x : AluArg) : Bool :=
  below 16 x.rd && below 16 x.rs && (match x.form with | .reg => true | .imm8 v => below 256 v | .imm32 v => below 0x100000000 v)

/-- Operands of a load or a store (R386): a displacement that fits its size. -/
def memOk (m : MemArg) : Bool :=
  below 16 m.rd && below 16 m.base && below 4 m.dsz && below 4 m.mode && below 16 m.idx && decide (m.disp < 2 ^ (8 * (2 ^ m.dsz / 2)))

/-- A decoder's report (R177). -/
def rxOk (r : RxIn) : Bool := below 256 r.mode && below 256 r.rssi && below 256 r.evm && octets r.psdu

/-- A heartbeat (R670): one of the six roles. -/
def hbOk (h : HbIn) : Bool := below 6 h.role

/-- A transmission (R131, R166). -/
def txOk (r : TxReq) : Bool := below 256 r.mode && below 256 r.state

/-- What a flash die reports (R490): at most 72 corrected bits are no matter of form; its pulse count fits its register. -/
def flashOk (o : FlashOut) : Bool := below 65536 o.pulses

/-- A meter block (R721): its 64 samples. -/
def meterOk (b : List (Nat × Nat × Nat × Nat)) : Bool := b.length == 64

/-! ### The commands -/

/-- A command's operands are in range. -/
def Instr.wf (i : Instr) : Bool :=
  match i with
  | .registerWrite w _ => busOk w
  | .shadowCommit b _ => below 14 b
  | .heldWrite _ => true
  | .powerOn _ _ => true
  | .brownOut _ => true
  | .backupLoss _ => true
  | .resetNLow _ => true
  | .watchdogKick _ => true
  | .watchdogExpiry _ => true
  | .supply _ => true
  | .aonStart _ _ => true
  | .clocks _ => true
  | .tcxoRetry _ => true
  | .fuses _ => true
  | .repair _ _ _ => true
  | .sramInit _ => true
  | .image _ _ _ => true
  | .gletyInit _ _ => true
  | .firnTimeLoRead w _ => busOk w
  | .holdoverEntry _ => true
  | .tcxoLoss _ => true
  | .coastLaunch n _ => below 32 n
  | .tcxoReturn _ => true
  | .coastRestart _ => true
  | .coastAlign _ => true
  | .arm w _ => busOk w
  | .comparatorCommit n _ => below 32 n
  | .disarm w _ => busOk w
  | .match n _ => below 32 n
  | .launch n _ => below 32 n
  | .captureApply w _ => busOk w
  | .capture k _ _ => below 4 k
  | .captureRead w _ => busOk w
  | .coarseOffsetWrite _ => true
  | .leapSecond _ => true
  | .stateRequest _ _ _ _ => true
  | .autoReturn _ _ => true
  | .stateTimeout _ _ => true
  | .fullLock _ => true
  | .retune _ => true
  | .txEvaluate r _ _ _ => txOk r
  | .txHoldRelease _ _ _ => true
  | .txAbandon _ => true
  | .txFrameEnd _ _ _ _ _ _ => true
  | .mismatchFault _ _ _ => true
  | .faultHoldExpiry _ _ => true
  | .calibrationStart kind _ _ => below 7 kind
  | .calibrationAbandon _ => true
  | .calibrationComplete _ _ => true
  | .calibrationOverdue kind _ _ => below 7 kind
  | .dutyBucket _ => true
  | .laneCalibration lane quality _ _ => below 9 lane && below 256 quality
  | .laneExchange lane _ => below 9 lane
  | .clipOverload _ _ _ => true
  | .gainStepUp p _ => below 2 p
  | .preambleDetect w _ _ _ _ _ => below 2 w
  | .candidateExpiry _ _ => true
  | .allocation _ => true
  | .reservationStart _ _ => true
  | .reservationLapse d _ => below 32 d
  | .frameDecoded d r _ _ => below 32 d && rxOk r
  | .sfdTimeout d _ => below 32 d
  | .decodeAbandon d _ _ => below 32 d
  | .timestampMark _ => true
  | .linkFrameCheck _ _ => true
  | .beaconTx _ _ => true
  | .beaconMiss _ => true
  | .parentReselect _ => true
  | .joinReqSend _ _ => true
  | .joinTimeout _ => true
  | .connReqSend _ _ => true
  | .connectRetry _ => true
  | .establishTimeout _ _ => true
  | .connectionEvent _ phase _ _ => below 3 phase
  | .supervisionTimeout _ _ => true
  | .sequencerFault p _ => below 9 p
  | .leafWakeTimer _ => true
  | .driftRecoveryListen _ => true
  | .childRecordExpiry _ _ => true
  | .resumeBeacon _ _ => true
  | .wakePatternSend peer _ _ => below 65536 peer
  | .wakeConnFrame _ => true
  | .wakeMatch w _ => below 0x100000000 w
  | .wakeRestore _ => true
  | .tcxoStable _ => true
  | .falseWake _ => true
  | .relayBackoff _ _ => true
  | .relayDeadline p _ _ => below 4 p
  | .seenExpiry _ _ => true
  | .routeExpiry _ _ => true
  | .frameSelect p _ _ _ => below 4 p
  | .queueAgeScan _ => true
  | .negotiate p _ _ => below 2 p
  | .train p mse _ _ => below 2 p && below 256 mse
  | .wiredPhaseTimeout p _ => below 2 p
  | .linkLoss p _ => below 2 p
  | .wiredBeaconSilence p _ => below 2 p
  | .mseMeasurement p mse _ => below 2 p && below 256 mse
  | .wiredBeaconSend p _ => below 2 p
  | .wiredFrameReceive p _ frame _ _ => below 2 p && octets frame
  | .pdelayReqSend p _ => below 2 p
  | .pdelayReqReceive p _ => below 2 p
  | .pdelayRespReceive p _ => below 2 p
  | .followUpReceive p _ => below 2 p
  | .pdelayLost p _ => below 2 p
  | .mbReqDoorbell w _ => busOk w
  | .mbRspWrite w _ => busOk w
  | .flush w _ => busOk w
  | .flushDone m _ => below 4 m
  | .recordPost m _ => below 4 m
  | .progressRecord m tag _ => below 4 m && below 65536 tag
  | .suspendTimeout m tag _ => below 4 m && below 65536 tag
  | .suspend m _ => below 4 m
  | .resume m _ => below 4 m
  | .cancel m _ => below 4 m
  | .opsList m _ => below 4 m
  | .bufOpen m _ => below 4 m
  | .bufWrite m _ => below 4 m
  | .bufRead m _ => below 4 m
  | .bufClose m _ => below 4 m
  | .sysInfo m _ => below 4 m
  | .sysReset m _ => below 4 m
  | .sysNotify m _ => below 4 m
  | .sysPtype m _ => below 4 m
  | .netCfgGet m _ => below 4 m
  | .netCfgSet m _ => below 4 m
  | .netCfgInstant _ => true
  | .netStatus m _ => below 4 m
  | .netSend m _ => below 4 m
  | .linkList m _ => below 4 m
  | .linkDrop m _ => below 4 m
  | .linkWake m _ => below 4 m
  | .timeGet m _ => below 4 m
  | .timeSource m _ => below 4 m
  | .timeSet m _ => below 4 m
  | .lumLevel m _ => below 4 m
  | .lumStatus m _ => below 4 m
  | .lumSched m _ => below 4 m
  | .lumFailsafe m _ => below 4 m
  | .coGroupcmd m _ => below 4 m
  | .collectEnd _ => true
  | .coNodes m _ => below 4 m
  | .coNode m _ => below 4 m
  | .coGroups m _ => below 4 m
  | .coAdmit m _ => below 4 m
  | .coDispatch m _ => below 4 m
  | .pairStatus m _ => below 4 m
  | .pairConfig m _ => below 4 m
  | .pairSwitch m _ => below 4 m
  | .storeInfo m _ => below 4 m
  | .storePart m _ => below 4 m
  | .storePartset m _ => below 4 m
  | .storeScrub m _ _ => below 4 m
  | .tblLoad m _ => below 4 m
  | .tblWriteDone _ _ _ => true
  | .tblInfo m _ => below 4 m
  | .tblRead m _ => below 4 m
  | .tblRevert m _ => below 4 m
  | .hltSummary m _ => below 4 m
  | .hltRead m _ => below 4 m
  | .updStatus m _ => below 4 m
  | .updIntake m _ => below 4 m
  | .intakeVerify m tag card _ => below 4 m && below 65536 tag && octets card
  | .updPush m _ => below 4 m
  | .updDistribute m _ => below 4 m
  | .updActivate m _ => below 4 m
  | .updConfirm m _ => below 4 m
  | .udf h _ => headOk h
  | .add h x _ => headOk h && aluOk x
  | .adc h x _ => headOk h && aluOk x
  | .sub h x _ => headOk h && aluOk x
  | .sbc h x _ => headOk h && aluOk x
  | .cmp h x _ => headOk h && aluOk x
  | .and h x _ => headOk h && aluOk x
  | .or h x _ => headOk h && aluOk x
  | .xor h x _ => headOk h && aluOk x
  | .bic h x _ => headOk h && aluOk x
  | .tst h x _ => headOk h && aluOk x
  | .mov h x _ => headOk h && aluOk x
  | .not h x _ => headOk h && aluOk x
  | .shl h x _ => headOk h && aluOk x
  | .shr h x _ => headOk h && aluOk x
  | .sar h x _ => headOk h && aluOk x
  | .ror h x _ => headOk h && aluOk x
  | .mul h x _ => headOk h && aluOk x
  | .mulh h x _ => headOk h && aluOk x
  | .mulhu h x _ => headOk h && aluOk x
  | .div h x _ => headOk h && aluOk x
  | .divu h x _ => headOk h && aluOk x
  | .rem h x _ => headOk h && aluOk x
  | .remu h x _ => headOk h && aluOk x
  | .min h x _ => headOk h && aluOk x
  | .max h x _ => headOk h && aluOk x
  | .minu h x _ => headOk h && aluOk x
  | .maxu h x _ => headOk h && aluOk x
  | .movi16 h rd kind imm _ => headOk h && below 16 rd && below 4 kind && below 65536 imm
  | .movi32 h rd imm _ => headOk h && below 16 rd && below 0x100000000 imm
  | .ld h m _ => headOk h && memOk m
  | .lds h m _ => headOk h && memOk m
  | .st h m _ => headOk h && memOk m
  | .pushm h mask _ => headOk h && below 65536 mask
  | .popm h mask _ => headOk h && below 65536 mask
  | .br8 h disp _ => headOk h && below 256 disp
  | .br32 h disp _ => headOk h && below 0x100000000 disp
  | .bl32 h disp _ => headOk h && below 0x100000000 disp
  | .jr h rs _ _ => headOk h && below 16 rs
  | .movs h _ => headOk h
  | .fils h _ => headOk h
  | .cmps h _ => headOk h
  | .scns h _ => headOk h
  | .crcs h _ => headOk h
  | .loop h lvl _ reg off count _ => headOk h && below 4 lvl && below 16 reg && below 65536 off && below 65536 count
  | .movc h rb _ num _ => headOk h && below 256 rb && below 128 num
  | .bar h _ => headOk h
  | .isb h _ => headOk h
  | .icinv h _ => headOk h
  | .svc h imm _ => headOk h && below 256 imm
  | .swp h rd base _ => headOk h && below 16 rd && below 16 base
  | .cas h rd base _ => headOk h && below 16 rd && below 16 base
  | .xadd h rd base _ => headOk h && below 16 rd && below 16 base
  | .nop h _ => headOk h
  | .brk h imm _ => headOk h && below 256 imm
  | .popc h rd rs _ => headOk h && below 16 rd && below 16 rs
  | .clz h rd rs _ => headOk h && below 16 rd && below 16 rs
  | .brev h rd rs _ => headOk h && below 16 rd && below 16 rs
  | .bswap h rd rs _ => headOk h && below 16 rd && below 16 rs
  | .bfxu h rd rs pos width _ => headOk h && below 16 rd && below 16 rs && below 32 pos && below 256 width
  | .bfxs h rd rs pos width _ => headOk h && below 16 rd && below 16 rs && below 32 pos && below 256 width
  | .bfi h rd rs pos width _ => headOk h && below 16 rd && below 16 rs && below 32 pos && below 256 width
  | .eret h _ => headOk h
  | .wfi h _ => headOk h
  | .di h _ => headOk h
  | .ei h _ => headOk h
  | .reservedEncoding h esc bytes _ => headOk h && below 4 esc && octets bytes
  | .interruptEntry ini _ => below 16 ini
  | .impreciseBusError ini _ => below 16 ini
  | .bundle c slots bad _ => below 2 c && words slots && below 4 bad
  | .kernelPeriod _ => true
  | .kernelBudgetSuspend _ _ => true
  | .patrolRead arr _ _ => array arr
  | .rowRefetch _ _ => true
  | .dramCommandIssue _ _ => true
  | .writeQueueDrain _ _ => true
  | .pageIdleClose bank _ => below 8 bank
  | .dramRefresh bank _ => below 8 bank
  | .dramTempPoll temp _ => below 256 temp
  | .dqsMeasure _ _ => true
  | .fullRetrain _ => true
  | .flcDoorbell w _ => busOk w
  | .flcCackWrite w _ => busOk w
  | .flcEnWrite w _ => busOk w
  | .descriptorTake _ => true
  | .read pl _ => below 2 pl
  | .prog pl _ => below 2 pl
  | .erase pl _ => below 2 pl
  | .load pl _ => below 2 pl
  | .flcNop _ => true
  | .eraseSuspend pl _ => below 2 pl
  | .eraseResume pl _ => below 2 pl
  | .codeLoaderRead _ _ _ => true
  | .blockRefresh _ _ _ => true
  | .autoScrub _ _ => true
  | .flcXoWrite w _ => busOk w
  | .start w _ _ => busOk w
  | .abort w _ => busOk w
  | .din3Submit w _ => busOk w
  | .blockEnd _ _ => true
  | .keyLoad w _ => busOk w
  | .keyLoadDone _ => true
  | .keyClear w _ => busOk w
  | .ownershipChange w _ => busOk w
  | .protLock w _ => busOk w
  | .eventDelivery srcs _ => sources srcs
  | .softwareFire w _ => busOk w
  | .seten w _ => busOk w
  | .setdis w _ => busOk w
  | .timerStart w _ => busOk w
  | .timerApply w _ => busOk w
  | .timerWrap t _ => below 8 t
  | .compareMatch t c _ => below 8 t && below 4 c
  | .pwmDutyReached t c _ => below 8 t && below 4 c
  | .timerCapture t c _ _ => below 8 t && below 4 c
  | .force w _ => busOk w
  | .capRead w _ => busOk w
  | .timerBlockReset w _ => busOk w
  | .secondAdvance _ => true
  | .rtcTimeRead w _ => busOk w
  | .rtcApply w _ => busOk w
  | .rtcSetCommit _ => true
  | .periodicWake _ => true
  | .wakePeriodWrite w _ => busOk w
  | .xtalFail _ => true
  | .xtalReturn _ => true
  | .spxStart w _ => busOk w
  | .masterFrameEnd n data _ => below 2 n && octets data
  | .slaveFrameStart _ => true
  | .slaveFrameEnd _ bytes _ _ => octets bytes
  | .hostRead cmd idx _ _ => below 256 cmd && below 256 idx
  | .spxApply w _ => busOk w
  | .txflush w _ => busOk w
  | .rxflush w _ => busOk w
  | .dataPush w _ => busOk w
  | .dataPop w _ => busOk w
  | .voteWrite w _ => busOk w
  | .entryHandshake n _ => domain n
  | .handshakeRetry n _ => domain n
  | .delayLimit n _ => domain n
  | .entryAbandon n _ => domain n
  | .thawStall ini n _ => below 32 ini && domain n
  | .thawReady n _ => domain n
  | .thawTimeout ini n _ => below 32 ini && domain n
  | .stopreq w _ => busOk w
  | .pfailLow _ => true
  | .pfailRetry _ => true
  | .stopEnter _ => true
  | .stopExit _ _ => true
  | .stopCoastExit _ => true
  | .waketWrite w _ => busOk w
  | .wakeTimerExpiry _ => true
  | .relatch w _ => busOk w
  | .gletyAsleep _ => true
  | .gletyAwake _ => true
  | .replan ms _ => eight ms
  | .temperaturePoll t _ => below 256 t
  | .wearEvaluation _ => true
  | .mirrorLaneCheck lane _ _ => below 4 lane
  | .heartbeatSend _ => true
  | .heartbeatReceive h _ => hbOk h
  | .mirrorWrite a l _ => below 0x100000000 a && octets l
  | .mirFence w _ => busOk w
  | .fenceComplete _ => true
  | .mirrorSilence _ => true
  | .pairBeaconSend _ => true
  | .pairBeaconHeard bseq _ => below 256 bseq
  | .takeover _ => true
  | .startAlone _ => true
  | .syncComplete _ => true
  | .switchFence _ => true
  | .plannedSwitch _ => true
  | .chunkSend _ => true
  | .chunkReceive _ => true
  | .reqTimer _ => true
  | .reqReceive _ => true
  | .haveReceive _ => true
  | .install _ _ => true
  | .activateReceive _ => true
  | .activation _ => true
  | .trialConfirm _ => true
  | .confwinExpiry _ => true
  | .cardTry card _ => octets card
  | .lmpApply _ => true
  | .daliSend w _ => busOk w
  | .daliTransmitEnd _ _ => true
  | .backwardFrame data _ _ => below 256 data
  | .backwardWindowEmpty _ => true
  | .busLow _ _ => true
  | .photoSample _ _ => true
  | .meterBlock b _ => meterOk b
  | .midnightCompute _ => true
  | .scheduleEntry _ => true
  | .photocellEntry _ _ => true
  | .fadeStep _ => true
  | .cloUpdate _ => true
  | .daliPoll _ => true
  | .statusReport _ => true
  | .meterReport _ => true
  | .registrySave _ => true
  | .dispatchResend short _ => below 65536 short
  | .extest _ _ _ => true
  | .samplePreload _ _ _ => true
  | .idcode _ => true
  | .highz _ => true
  | .bypass code _ => below 16 code
  | .dbgmem op addr data _ => below 4 op && below 0x100000000 addr && below 0x100000000 data
  | .dbgHalt ini _ => below 7 ini
  | .dbgResume ini _ => below 7 ini
  | .dbgStep ini _ => below 7 ini
  | .sysrst _ => true
  | .unknownCommand m _ => below 4 m
  | .flashOperationEnd pl o _ => below 2 pl && flashOk o
  | .wiredFrameSent p _ => below 2 p
  | .fabClockStop _ => true
  | .resetNRelease _ => true
  | .tapReset _ => true
  | .radioTransitionDone _ => true
  | .domainUp n _ => domain n
  | .ppsPulseLoss _ => true
  | .tunerWriteBack _ => true

/-- A command is well-formed. -/
def WellFormed (i : Instr) : Prop := i.wf = true

end Sys2Proof
end

