-- ==== Sys2Proof/Tests/Slice0.lean ====
section
/-!
SUPPORT. Tests: states that meet the hypotheses of every statement, ill-formed commands that the checks refuse, and a few values worked out by hand from the spec.
-/
namespace Sys2Proof.Tests
set_option maxRecDepth 100000
set_option linter.unusedVariables false
set_option Elab.async false
open Sys2Proof Sys2Proof.Machine

/-- A state with some register fields written. -/
def st (l : List (Field × Nat)) (s : State) : State := l.foldl (fun t p => t.wr p.1 p.2) s
/-- Committed copies written too. -/
def stC (l : List (Field × Nat)) (s : State) : State := l.foldl (fun t p => (t.wr p.1 p.2).wrC p.1 p.2) s
/-- The state after reset, and the state in boot phase 8 with the clock running. -/
def s0 : State := State.reset
def run : State := { s0.wr Reg.SYS_BOOT_PHASE 8 with elapsed := 307200000, firn := { Firn.reset with stopped := false, loc := 2 ^ 70 } }
/-- The same with every domain on. -/
def up : State := (List.range 15).foldl (fun t n => t.wr (Reg.PWR_DOM_STATE n) 0) run
/-- A word access by the supervisor. -/
def W (a v : Nat) : BusReq := ⟨0, false, a, 4, v, false⟩
/-- A radio with its synthesizer locked, in a regime, in one state of the shipped table. -/
def rfIn (k : Nat) : State := st [(Reg.RFE_STAT_REGIME, 1), (Reg.RFE_STAT_SYNTHLK, 1), (Reg.RFE_STAT_SYNTHON, 1), (Reg.RFE_VPA, 4000), (Reg.RFE_STAT_STATE, k), (Reg.RFE_STAT_KIND, stField up k 1 1)] up
/-- A request to send in the 902 MHz band. -/
def req0 : TxReq := { t := 2 ^ 70 / ftUnit, state := 6, pcode := 100, mode := 1, freq := 915000, span := 500, hops := none, air := 1000 }
/-- A transmission on the air. -/
def tx0 (p : TxPhase) (r : TxReq) : Tx := { req := r, phase := p, outcome := 0, used := 100, clip := false, hold := 0, since := 5 }
/-- A connection of a child with a peer. -/
def conn0 (id : Nat) : Conn :=
  { id := id, slot := 0, peer := 7, child := true, leaf := false, base := 0, k0 := 0, k := 5, interval := 128, timeout := 100, cemax := 3, band := 1, mode := 0x40, seed := 1,
    mapS := 7, mapW := 3, resid := 0, residuals := [], up := true, events := 9, contact := 0, localErr := 0, peerErr := 0, peerDcls := 0, misses := 1, tx := 0, rx := 0, out := none, open_ := false,
    heard := false, got := false, ownMd := false, micRun := 0, ctl := [], upd := [], lastReply := 0, rxts := 0, timeAt := 0, timeK := 0, groups := [], lqi := 200 }
def bcn0 (a : Nat) : Beacon := { addr := a, net := 0, pcost := 9, caps := 8, hops := 2, errb := 5, ncfg := 1, lm := false, lqis := [200], freq := 915000, mode := 0x40, at_ := 2 ^ 70 / ftUnit, lead := 0, failed := false }
def att0 (n : Nat) (x : Option Nat) : Attempt := { target := 7, tries := n, sentAt := x, nonce := 5, notBefore := 0 }
def epoch0 : Epoch := ⟨3, 0, List.range 16, 7⟩
/-- A joined relay with a key and a parent. -/
def joined (l : Lnk → Lnk) : State := { st [(Reg.LNK_STAT_JOINED, 1), (Reg.LNK_STAT_SHORT, 5), (Reg.MSH_STAT_RELAY, 1), (Reg.LNK_PARENT_PARENT, 7)] (rfIn 2) with lnk := l { Lnk.reset with epochs := [epoch0] } }
def drop0 (n : Nat) : Dropped := ⟨conn0 1, 5, false, n, 5⟩
def rec0 (f : List Nat) : RxRec := { ts := 99, mode := 0x40, flags := 0, bin := 256, dec := 3, rssi := 9, snr := 30, evm := 5, lqi := 200, cfo := 0, freq := 915000, tsq := 0, psdu := f }
def ring0 (f : List Nat) (s : State) : State := { s with rxc := { s.rxc with ring := [rec0 f, rec0 [1]] } }
/-- A frame of a type, with zeros after its control field. -/
def frame0 (t n : Nat) : List Nat := [t, 6] ++ List.replicate n 0
def relay0 (n d : Nat) : Relay := ⟨5, [0, 6] ++ List.replicate 30 9, n, d⟩
def qf (h : Hop) (q : Nat) (d : Option Nat) : QFrame := { hop := h, queue := q, len := 100, data := [1, 2, 3], at_ := 0, deadline := d, tagS := 0, tagF := 0 }
/-- A node with frames at an egress. -/
def egr (p : Nat) (l : List QFrame) (s : State) : State := { s with msh := { s.msh with ports := s.msh.ports.set p { Egress.reset with frames := l } } }
def wp (p : Nat) (f : Wpt → Wpt) (s : State) : State := { s with wpt := s.wpt.set p (f Wpt.reset) }
def linked (p : Nat) (f : Wpt → Wpt) : State := wp p f (st [(Reg.WPT_PSTAT_LINK p, 1), (Reg.WPT_PSTAT_LINKED p, 1)] (joined id))
/-- An Ethernet frame of a peer-delay request to this node. -/
def ptp0 : List Nat := [0x01, 0x80, 0xC2, 0x00, 0x00, 0x0E] ++ List.replicate 6 7 ++ [0x88, 0xF7, 2, 2, 0, 54, 0] ++ List.replicate 60 3
/-- A request in a mailbox: its command, its data, its tag 77. -/
def ask (m id : Nat) (d : List Nat) (s : State) : State :=
  { st [(Reg.MB_REQ_REQRD m, 31), (Reg.MB_REQ_REQWR m, 0)] s with mem := memWrBytes (memWrBytes s.mem (reqSlot m 31) (leBytes 2 id ++ [77, 0, 0, 0] ++ leBytes 2 d.length)) (reqSlot m 31 + 16) d }
/-- The same with some of a request's header changed. -/
def ask' (m id tag fl len : Nat) (s : State) : State :=
  { st [(Reg.MB_REQ_REQRD m, 31), (Reg.MB_REQ_REQWR m, 0)] s with mem := memWrBytes s.mem (reqSlot m 31) (leBytes 2 id ++ leBytes 2 tag ++ leBytes 2 fl ++ leBytes 2 len) }
def box (m : Nat) (f : Mbox → Mbox) (s : State) : State := { s with mboxes := s.mboxes.set m (f Mbox.reset) }
def op0 (cmd tag : Nat) (x : Option Nat) : LiveOp := ⟨cmd, tag, true, 30, none, x, false, [0], []⟩
def coNode0 (a : Nat) (gs : List Nat) : CoNode := ⟨a, 0x1122, 1, 1, 2, gs, 500, 3, 4, 5, 6, 7, 8⟩
/-- The factory configuration with a version, and what changes it. -/
def cfg1 : List Nat := setBytes factoryCfg 2 [1, 0]
def sched0 : List Nat := setBytes (List.replicate 44 0) 0 ([1, 0, 0, 0, 0, 0, 60, 0] ++ List.replicate 16 0 ++ [1, 1])
def bufd (m : Nat) (b : List Nat) (s : State) : State := { s with mboxes := s.mboxes.set m { (mbox s m) with bufs := [⟨2, b⟩] } }
def coord : State := st [(Reg.MSH_STAT_COORD, 1)] (joined id)
/-- A table object as a mailbox buffer holds it. -/
def tbl0 (tid : Nat) (body : List Nat) : List Nat := tblHeader tid ⟨0x100, 1, body⟩ ++ body
def port0 : List Nat := [1, 1, 0, 0, 0, 0, 0, 0, 1, 0, 0, 0, 0, 0, 0, 0]
def bunHead : List Nat :=
  leBytes 4 0x58594850 ++ [1, 0, 3, 0] ++ leBytes 4 77 ++ leBytes 4 276 ++ [3, 3] ++ List.replicate 30 0
def bunRows : List Nat := [2, 3, 4].flatMap (fun c => [c, 0, 0, 5, 0, 0, 0, 0, 144, 0, 0, 0, 0, 0, 0, 0] ++ List.replicate 16 0)
def bunKey : List Nat := beBytes 32 0x5ECBE4D1A6330A44C8F7EF951D4BF165E6C6B721EFADA985FB41661BC6E7FD6C ++ beBytes 32 0x8734640C4998FF7E374B06CE1A64A2ECD82AB036384FB83D9A79B127A27D5032
def bun0 : List Nat := bunHead ++ bunRows ++ [2, 0, 0, 0] ++ bunKey ++ beBytes 32 0x51590B7A515140D2D784C85608668FDFEF8C82FD1F5BE52421554A0DC3D033ED ++ beBytes 32 0x2902C0B666B646A91591B93B58BECFC9EDDE8BAF638E48ECA347AAB2AA20E214
def bunFuses : Fuses := { Fuses.reset with digests := [[], [], sha256 bunKey, []] }
def bunState : State := { up with fuses := bunFuses }
/-- A card image with the bundle in its ninth block. -/
def card0 : List Nat := List.replicate 4096 0 ++ (leBytes 4 0x58594850 ++ leBytes 4 1 ++ leBytes 4 9 ++ leBytes 4 1 ++ List.replicate 496 0) ++ bun0
/-- The bundle's signature is good, in every state of its fuses. -/
theorem bun0_base : bunSigned bunState bun0 = true := by decide +kernel
theorem bun0_signed (s : State) (h : s.fuses = bunFuses) : bunSigned s bun0 = true := by
  have e : bunSigned s bun0 = bunSigned bunState bun0 := by
    have h2 : bunState.fuses = bunFuses := rfl
    unfold bunSigned
    rw [h, h2]
  rw [e]; exact bun0_base
/-- A context with a message set up. -/
def cphUp : State := { st [(Reg.CPH_CFG_OP 3, 1), (Reg.CPH_CFG_KSLOT 3, 2), (Reg.CPH_LEN_LEN 3, 40)] up with
  cph := { Cph.reset with slots := [(8 * 3 + 2, ⟨List.range 32, 31⟩)] } }

/-- A receiver in full mode whose window 0 looks for mode 0x40. -/
def rx (m : Nat) : State := st [(Reg.RXC_STAT_MODE, m), (Reg.RXC_STAT_W0DET, 1), (Reg.RXC_WIN_EN 0, 1), (Reg.RXC_WIN_FC 0, 915000), (Reg.RXC_WIN_WIDTH 0, 4), (msetField 0 0, 0x40)] (rfIn 2)
def cand0 (b : Nat) : Cand := ⟨0, b, 0x40, 100, 307200000, 307200000⟩
def busy0 : Busy := ⟨cand0 256, 307200000, none, false⟩
def rsv0 (u : Nat) : Rsv := ⟨0, 256, 1, 0, u⟩
def rxIn0 (ok : Bool) : RxIn := { ts := 5, mode := 0x40, rssi := 9, snr := 30, evm := 4, cfo := -3, fec := true, fcs4 := false, psdu := [1, 2, 3], fcsOk := ok }
def rxWith (f : Rxc → Rxc) (m : Nat) : State := { rx m with rxc := f (rx m).rxc }





/-! ### The hypotheses of the statements -/

/-- The hypotheses of BootPhases, clause by clause. -/
theorem witness_BootPhases :
    (∃ (dt : Nat) (s : State), (supplyOk (s.pass dt) = true)) ∧
    (∃ (strap : Bool) (dt : Nat) (s : State), (s.rd Reg.SYS_BOOT_PHASE = 1)) ∧
    (∃ (dt : Nat) (s : State), (s.rd Reg.SYS_BOOT_PHASE = 2)) ∧
    (∃ (dt : Nat) (s : State), (tcxoRetryOk (s.pass dt) = true)) ∧
    (∃ (dt : Nat) (s : State), (s.rd Reg.SYS_BOOT_PHASE = 3) ∧ (0 < s.cores.length)) ∧
    (∃ (a : Bool) (b : Bool) (dt : Nat) (s : State), (s.rd Reg.SYS_BOOT_PHASE = 4)) ∧
    (∃ (a : Bool) (b : Bool) (dt : Nat) (s : State), (s.rd Reg.SYS_BOOT_PHASE = 4)) ∧
    (∃ (dt : Nat) (s : State), (s.rd Reg.SYS_BOOT_PHASE = 5) ∧ (memWf s.mem = true)) ∧
    (∃ (a : Bool) (b : Bool) (dt : Nat) (s : State), (s.rd Reg.SYS_BOOT_PHASE = 6) ∧ (s.on Reg.BKP_SET1_TRIAL = false) ∧ (slotGood a b s (s.rd Reg.BKP_SET1_GLG) = true)) ∧
    (∃ (a : Bool) (b : Bool) (dt : Nat) (s : State), (s.rd Reg.SYS_BOOT_PHASE = 6) ∧ (s.on Reg.BKP_SET1_TRIAL = false) ∧ (s.rd Reg.BKP_SET1_GLG ≤ 1) ∧ (slotGood a b s (s.rd Reg.BKP_SET1_GLG) = false) ∧ (slotGood a b s (1 - s.rd Reg.BKP_SET1_GLG) = true)) ∧
    (∃ (a : Bool) (b : Bool) (dt : Nat) (s : State), (s.rd Reg.SYS_BOOT_PHASE = 6) ∧ (s.on Reg.BKP_SET1_TRIAL = false) ∧ (∀ k, slotGood a b s k = false)) ∧
    (∃ (coord : Bool) (dt : Nat) (s : State), (s.rd Reg.SYS_BOOT_PHASE = 7)) ∧
    (∃ (card : List Nat) (dt : Nat) (s : State), (cardTryOk (s.pass dt) = true) ∧ ((cardPick (fun b => if recVerdict (s.pass dt) b = 1 then Rc.OK else recVerdict (s.pass dt) b) (cardEntries card) Rc.UPD_MEDIA).1 ≠ Rc.OK)) ∧
    (∃ (card : List Nat) (dt : Nat) (s : State), (cardTryOk (s.pass dt) = true) ∧ ((cardPick (fun b => if recVerdict (s.pass dt) b = 1 then Rc.OK else recVerdict (s.pass dt) b) (cardEntries card) Rc.UPD_MEDIA).1 = Rc.OK)) :=
  ⟨⟨307200, s0, by decide +kernel⟩,
   ⟨true, 5, st [(Reg.SYS_BOOT_PHASE, 1)] s0, by decide +kernel⟩,
   ⟨5, st [(Reg.SYS_BOOT_PHASE, 2)] s0, by decide +kernel⟩,
   ⟨307200, st [(Reg.SYS_BOOT_PHASE, 2)] s0, by decide +kernel⟩,
   ⟨5, { st [(Reg.SYS_BOOT_PHASE, 3)] s0 with fuses := { Fuses.reset with uid := 0x123456789ABC } }, by decide +kernel⟩,
   ⟨true, false, 5, st [(Reg.SYS_BOOT_PHASE, 4)] s0, by decide +kernel⟩,
   ⟨false, false, 5, { st [(Reg.SYS_BOOT_PHASE, 4)] s0 with par := { Par.reset with remap := [5], spares := [(3, 2)] } }, by decide +kernel⟩,
   ⟨5, { st [(Reg.SYS_BOOT_PHASE, 5)] s0 with mem := [(5, 7), (0x10000001, 3), (0x105FFFFF, 9), (0x30000000, 2)], par := { Par.reset with bad := [0x10000001, 0x30000000] } }, by decide +kernel⟩,
   ⟨true, false, 5, st [(Reg.SYS_BOOT_PHASE, 6)] s0, by decide +kernel⟩,
   ⟨false, true, 5, { st [(Reg.SYS_BOOT_PHASE, 6)] s0 with upd := { UpdSt.reset with fw := [[(2, Comp.factory, [])], [(2, Comp.factory, [])]] } }, by decide +kernel⟩,
   ⟨false, false, 5, st [(Reg.SYS_BOOT_PHASE, 6)] s0, by refine ⟨by decide +kernel, by decide +kernel, ?_⟩; intro k; simp [slotGood] <;> rfl⟩,
   ⟨true, 5, st [(Reg.SYS_BOOT_PHASE, 7)] s0, by decide +kernel⟩,
   ⟨[1, 2, 3], 5, { st [(Reg.SYS_BOOT_PHASE, 0xE)] s0 with elapsed := 307200000 }, by decide +kernel⟩,
   ⟨card0, 5, { st [(Reg.SYS_BOOT_PHASE, 0xE)] s0 with elapsed := 307200000, fuses := bunFuses }, by refine ⟨by decide +kernel, ?_⟩; have e : cardEntries card0 = [bun0] := (by decide +kernel); rw [e]; unfold cardPick; unfold recVerdict; rw [bun0_signed _ rfl]; decide +kernel⟩⟩
/-- The hypotheses of ResetsLeave, clause by clause. -/
theorem witness_ResetsLeave :
    (∃ (s : State), (s.flc.run = [])) ∧
    (∃ (dt : Nat) (s : State), (s.pwr.powered = true)) ∧
    (∃ (dt : Nat) (s : State), (s.pwr.powered = true) ∧ (s.pwr.resetLow = false)) ∧
    (∃ (dt : Nat) (s : State), (s.pwr.resetLow = true)) ∧
    (∃ (dt : Nat) (s : State), (watchdogKickOk (s.pass dt) = true)) ∧
    (∃ (k : Nat) (dt : Nat) (s : State), (s.pwr.kickAt = some k) ∧ (k + cycMs 50 ≤ s.elapsed + dt)) :=
  ⟨⟨s0, by decide +kernel⟩,
   ⟨5, st [(Reg.BKP_SET5, 77), (Reg.FIRN_REJCNT, 9), (Reg.SYS_RSTCAUSE_POR, 0), (Reg.SYS_RSTCAUSE_JTAG, 1)] run, by decide +kernel⟩,
   ⟨5, run, by decide +kernel⟩,
   ⟨5, { run with pwr := { run.pwr with resetLow := true } }, by decide +kernel⟩,
   ⟨5, run, by decide +kernel⟩,
   ⟨307200000, 15360000, { run with pwr := { run.pwr with kickAt := some 307200000 } }, by decide +kernel⟩⟩
/-- The hypotheses of FirnAndMailboxAccesses, clause by clause. -/
theorem witness_FirnAndMailboxAccesses :
    (∃ (n : Nat) (w : BusReq) (dt : Nat) (s : State), (n < 32) ∧ (w.addr = 0x40020108 + 16 * n) ∧ (armOk w = true) ∧ (bitOf w.val 30 = 0) ∧ (writeLands w (s.pass dt) = true) ∧ (s.on (Reg.FIRN_CMP_CTL_ARM n) = false)) ∧
    (∃ (n : Nat) (w : BusReq) (dt : Nat) (s : State), (n < 32) ∧ (w.addr = 0x40020108 + 16 * n) ∧ (armOk w = true) ∧ (bitOf w.val 30 = 0) ∧ (writeLands w (s.pass dt) = true) ∧ (s.on (Reg.FIRN_CMP_CTL_ARM n) = false)) ∧
    (∃ (n : Nat) (w : BusReq) (dt : Nat) (s : State), (n < 32) ∧ (w.addr = 0x40020108 + 16 * n) ∧ (disarmOk w = true) ∧ (writeLands w (s.pass dt) = true) ∧ (s.on (Reg.FIRN_CMP_CTL_ARM n) = false)) ∧
    (∃ (n : Nat) (w : BusReq) (dt : Nat) (s : State), (n < 32) ∧ (w.addr = 0x40020108 + 16 * n) ∧ (disarmOk w = true) ∧ (writeLands w (s.pass dt) = true) ∧ (s.on (Reg.FIRN_CMP_CTL_ARM n) = false)) ∧
    (∃ (k : Nat) (w : BusReq) (dt : Nat) (s : State), (k < 4) ∧ (w.addr = 0x40020408 + 16 * k) ∧ (captureApplyWriteOk w = true) ∧ (writeLands w (s.pass dt) = true) ∧ (s.on (Reg.FIRN_CAP_CTL_APPLY k) = false)) ∧
    (∃ (w : BusReq) (dt : Nat) (s : State), (firnTimeLoReadOk w = true) ∧ (readLands w (s.pass dt) = true)) ∧
    (∃ (k : Nat) (w : BusReq) (dt : Nat) (s : State), (k < 4) ∧ (w.addr = 0x40020400 + 16 * k) ∧ (captureReadOk w = true) ∧ (readLands w (s.pass dt) = true)) ∧
    (∃ (k : Nat) (w : BusReq) (dt : Nat) (s : State), (k < 4) ∧ (w.addr = 0x40020400 + 16 * k) ∧ (captureReadOk w = true) ∧ (readLands w (s.pass dt) = true)) ∧
    (∃ (m : Nat) (w : BusReq) (dt : Nat) (s : State), (m < 4) ∧ (w.addr = 0x400D0100 + 64 * m) ∧ (mbReqDoorbellOk w = true) ∧ (writeLands w (s.pass dt) = true) ∧ (s.rd Reg.SYS_BOOT_PHASE = 8)) ∧
    (∃ (m : Nat) (w : BusReq) (dt : Nat) (s : State), (m < 4) ∧ (w.addr = 0x400D0100 + 64 * m) ∧ (mbReqDoorbellOk w = true) ∧ (writeLands w (s.pass dt) = true) ∧ (s.rd Reg.SYS_BOOT_PHASE = 8)) ∧
    (∃ (m : Nat) (w : BusReq) (dt : Nat) (s : State), (m < 4) ∧ (w.addr = 0x400D0100 + 64 * m) ∧ (mbReqDoorbellOk w = true) ∧ (writeLands w (s.pass dt) = true) ∧ (s.rd Reg.SYS_BOOT_PHASE = 8)) ∧
    (∃ (m : Nat) (w : BusReq) (dt : Nat) (s : State), (m < 4) ∧ (w.addr = 0x400D0104 + 64 * m) ∧ (mbRspWriteOk w = true) ∧ (writeLands w (s.pass dt) = true) ∧ (s.rd Reg.SYS_BOOT_PHASE = 8)) ∧
    (∃ (m : Nat) (w : BusReq) (dt : Nat) (s : State), (m < 4) ∧ (w.addr = 0x400D0104 + 64 * m) ∧ (mbRspWriteOk w = true) ∧ (writeLands w (s.pass dt) = true) ∧ (s.rd Reg.SYS_BOOT_PHASE = 8)) ∧
    (∃ (m : Nat) (w : BusReq) (dt : Nat) (s : State), (m < 4) ∧ (w.addr = 0x400D0108 + 64 * m) ∧ (flushOk w = true) ∧ (writeLands w (s.pass dt) = true) ∧ (s.rd Reg.SYS_BOOT_PHASE = 8)) :=
  ⟨⟨31, W (0x40020108 + 16 * 31) 0x80000003, 5, up, by decide +kernel⟩,
   ⟨0, W 0x40020108 0x80000000, 0, up, by decide +kernel⟩,
   ⟨31, W (0x40020108 + 16 * 31) 0x40000003, 5, st [(Reg.FIRN_CMP_STAT_ARMED 31, 1)] up, by decide +kernel⟩,
   ⟨3, W (0x40020108 + 16 * 3) 0xC0000003, 5, st [(Reg.FIRN_CMP_STAT_ARMED 3, 1)] up, by decide +kernel⟩,
   ⟨3, W (0x40020408 + 48) 0x80000005, 5, up, by decide +kernel⟩,
   ⟨W 0x40020000 0, 5, up, by decide +kernel⟩,
   ⟨3, W (0x40020400 + 48) 0, 5, up, by decide +kernel⟩,
   ⟨0, W 0x40020400 0, 5, up, by decide +kernel⟩,
   ⟨3, W (0x400D0100 + 192) 16, 5, up, by decide +kernel⟩,
   ⟨0, W 0x400D0100 17, 5, up, by decide +kernel⟩,
   ⟨0, W 0x400D0100 2, 5, st [(Reg.MB_REQ_REQRD 0, 30),(Reg.MB_REQ_REQWR 0, 31)] up, by decide +kernel⟩,
   ⟨3, W (0x400D0104 + 192) 4, 5, st [(Reg.MB_RSP_RSPWR 3, 4)] up, by decide +kernel⟩,
   ⟨0, W 0x400D0104 4, 5, up, by decide +kernel⟩,
   ⟨3, W (0x400D0108 + 192) 1, 5, up, by decide +kernel⟩⟩
/-- The hypotheses of CipherAccesses, clause by clause. -/
theorem witness_CipherAccesses :
    (∃ (n : Nat) (w : BusReq) (dt : Nat) (s : State), (n < 4) ∧ (w.addr = 0x40100004 + 256 * n) ∧ (cphStartOk w = true) ∧ (bitOf w.val 30 = 0) ∧ (writeLands w (s.pass dt) = true) ∧ (s.on (Reg.CPH_STAT_BUSY n) = false) ∧ (s.on (Reg.CPH_KSTAT_KBUSY n) = false) ∧ (1 ≤ s.rd (Reg.CPH_CFG_OP n)) ∧ (s.rd (Reg.CPH_CFG_OP n) ≤ 4) ∧ (cphLenOk (s.rd (Reg.CPH_CFG_OP n)) (s.rd (Reg.CPH_LEN_LEN n)) (s.rd (Reg.CPH_CFG_DSIZE n)) = true) ∧ (cphKeyOk n s = true) ∧ (0 < s.rd (Reg.CPH_LEN_LEN n))) ∧
    (∃ (n : Nat) (w : BusReq) (p : Bool) (dt : Nat) (s : State), (n < 4) ∧ (w.addr = 0x40100004 + 256 * n) ∧ (cphStartOk w = true) ∧ (bitOf w.val 30 = 0) ∧ (writeLands w (s.pass dt) = true) ∧ (s.on (Reg.CPH_STAT_BUSY n) = true)) ∧
    (∃ (n : Nat) (w : BusReq) (dt : Nat) (s : State), (n < 4) ∧ (w.addr = 0x40100004 + 256 * n) ∧ (abortOk w = true) ∧ (bitOf w.val 31 = 0) ∧ (writeLands w (s.pass dt) = true) ∧ (s.on (Reg.CPH_STAT_BUSY n) = true) ∧ (s.cph.engine = none)) ∧
    (∃ (n : Nat) (w : BusReq) (dt : Nat) (s : State), (n < 4) ∧ (w.addr = 0x4010001C + 256 * n) ∧ (din3SubmitOk w = true) ∧ (writeLands w (s.pass dt) = true) ∧ (s.on (Reg.CPH_STAT_BUSY n) = true) ∧ ((cphCtx s n).submitted < cphBlocksOf (s.rd (Reg.CPH_LEN_LEN n))) ∧ ((cphCtx s n).queue.length < 4)) ∧
    (∃ (n : Nat) (w : BusReq) (dt : Nat) (s : State), (n < 4) ∧ (w.addr = 0x40100040 + 256 * n) ∧ (keyLoadOk w = true) ∧ (bitOf w.val 30 = 0) ∧ (writeLands w (s.pass dt) = true) ∧ (s.on (Reg.CPH_STAT_BUSY n) = false) ∧ (s.cph.load = none)) ∧
    (∃ (n : Nat) (w : BusReq) (dt : Nat) (s : State), (n < 4) ∧ (w.addr = 0x40100040 + 256 * n) ∧ (keyClearOk w = true) ∧ (bitOf w.val 31 = 0) ∧ (writeLands w (s.pass dt) = true) ∧ (s.on (Reg.CPH_STAT_BUSY n) = false) ∧ (keysRise s.cph.slots = true)) ∧
    (∃ (k : Nat) (w : BusReq) (dt : Nat) (s : State), (k < 49) ∧ (w.addr = 0x40100900 + 4 * k) ∧ (ownershipChangeOk w = true) ∧ (writeLands w (s.pass dt) = true) ∧ (s.on Reg.PROT_CTL_LOCK = false) ∧ (w.val % 32 ≤ 4 ∨ w.val % 32 = 21)) ∧
    (∃ (k : Nat) (w : BusReq) (dt : Nat) (s : State), (k < 49) ∧ (w.addr = 0x40100900 + 4 * k) ∧ (ownershipChangeOk w = true) ∧ (writeLands w (s.pass dt) = true) ∧ (s.on Reg.PROT_CTL_LOCK = false) ∧ (w.val % 32 ≤ 4 ∨ w.val % 32 = 21)) ∧
    (∃ (w : BusReq) (dt : Nat) (s : State), (protLockOk w = true) ∧ (writeLands w (s.pass dt) = true) ∧ (s.on Reg.PROT_CTL_LOCK = false)) :=
  ⟨⟨3, W (0x40100004 + 768) 0x80000000, 5, cphUp, by decide +kernel⟩,
   ⟨3, W (0x40100004 + 768) 0x80000000, false, 5, st [(Reg.CPH_STAT_BUSY 3, 1)] cphUp, by decide +kernel⟩,
   ⟨3, W (0x40100004 + 768) 0x40000000, 5, st [(Reg.CPH_STAT_BUSY 3, 1)] cphUp, by decide +kernel⟩,
   ⟨3, W (0x4010001C + 768) 0xDEADBEEF, 5, st [(Reg.CPH_STAT_BUSY 3, 1)] cphUp, by decide +kernel⟩,
   ⟨3, W (0x40100040 + 768) 0x80000001, 5, { cphUp with cph := { cphUp.cph with keyRegs := [(8, 1), (24, 5), (31, 7)] } }, by decide +kernel⟩,
   ⟨3, W (0x40100040 + 768) 0x40000002, 5, cphUp, by decide +kernel⟩,
   ⟨48, W (0x40100900 + 192) 0x115, 5, up, by decide +kernel⟩,
   ⟨7, W (0x40100900 + 28) 0x4, 5, up, by decide +kernel⟩,
   ⟨W 0x40100800 3, 5, up, by decide +kernel⟩⟩
/-- The hypotheses of FlashAccesses, clause by clause. -/
theorem witness_FlashAccesses :
    (∃ (w : BusReq) (dt : Nat) (s : State), (flcDoorbellOk w = true) ∧ (writeLands w (s.pass dt) = true)) ∧
    (∃ (w : BusReq) (dt : Nat) (s : State), (flcDoorbellOk w = true) ∧ (writeLands w (s.pass dt) = true)) ∧
    (∃ (w : BusReq) (dt : Nat) (s : State), (flcCackWriteOk w = true) ∧ (writeLands w (s.pass dt) = true)) ∧
    (∃ (w : BusReq) (dt : Nat) (s : State), (flcCackWriteOk w = true) ∧ (writeLands w (s.pass dt) = true)) ∧
    (∃ (w : BusReq) (dt : Nat) (s : State), (flcEnWriteOk w = true) ∧ (writeLands w (s.pass dt) = true)) ∧
    (∃ (w : BusReq) (dt : Nat) (s : State), (flcEnWriteOk w = true) ∧ (writeLands w (s.pass dt) = true)) ∧
    (∃ (n : Nat) (w : BusReq) (dt : Nat) (s : State), (n < 16) ∧ (w.addr = 0x400E0200 + 4 * n) ∧ (flcXoWriteOk w = true) ∧ (writeLands w (s.pass dt) = true)) ∧
    (∃ (n : Nat) (w : BusReq) (dt : Nat) (s : State), (n < 16) ∧ (w.addr = 0x400E0200 + 4 * n) ∧ (flcXoWriteOk w = true) ∧ (writeLands w (s.pass dt) = true)) :=
  ⟨⟨W 0x400E0110 1, 5, up, by decide +kernel⟩,
   ⟨W 0x400E0110 0x10005, 5, st [(Reg.FLC_QAPP_SIZE_LOG2N, 4)] up, by decide +kernel⟩,
   ⟨W 0x400E0118 3, 5, st [(Reg.FLC_QAPP_HEAD_CDONE, 4)] up, by decide +kernel⟩,
   ⟨W 0x400E0118 3, 5, up, by decide +kernel⟩,
   ⟨W 0x400E0100 1, 5, up, by decide +kernel⟩,
   ⟨W 0x400E0100 0, 5, up, by decide +kernel⟩,
   ⟨15, W (0x400E0200 + 60) 0x80000000, 5, up, by decide +kernel⟩,
   ⟨0, W 0x400E0200 0x80020020, 5, st [(Reg.FLC_XO_LOCK 0, 1)] up, by decide +kernel⟩⟩
/-- The hypotheses of TimerAccesses, clause by clause. -/
theorem witness_TimerAccesses :
    (∃ (w : BusReq) (dt : Nat) (s : State), (softwareFireOk w = true) ∧ (writeLands w (s.pass dt) = true) ∧ (w.val % 2 ^ 32 = 0)) ∧
    (∃ (n : Nat) (i : Nat) (w : BusReq) (dt : Nat) (s : State), (n < 2) ∧ (i < 32) ∧ (w.addr = 0x40030200 + 4 * n) ∧ (softwareFireOk w = true) ∧ (writeLands w (s.pass dt) = true) ∧ (w.val = 2 ^ i)) ∧
    (∃ (n : Nat) (i : Nat) (w : BusReq) (dt : Nat) (s : State), (n < 2) ∧ (i < 32) ∧ (w.addr = 0x40030200 + 4 * n) ∧ (softwareFireOk w = true) ∧ (writeLands w (s.pass dt) = true) ∧ (w.val = 2 ^ i)) ∧
    (∃ (g : Nat) (w : BusReq) (dt : Nat) (s : State), (g < 8) ∧ (w.addr = 0x40030300 + 4 * g) ∧ (setenOk w = true) ∧ (bitOf w.val 29 = 0) ∧ (writeLands w (s.pass dt) = true) ∧ (srcNumOk (w.val % 256) = true) ∧ (srcNumOk (bitsOf w.val 15 8) = true) ∧ (look g (evtTick (s.pass dt)).evt.old = none)) ∧
    (∃ (g : Nat) (w : BusReq) (dt : Nat) (s : State), (g < 8) ∧ (w.addr = 0x40030300 + 4 * g) ∧ (setenOk w = true) ∧ (bitOf w.val 29 = 0) ∧ (writeLands w (s.pass dt) = true) ∧ (srcNumOk (w.val % 256) = true) ∧ (srcNumOk (bitsOf w.val 15 8) = true) ∧ (look g (evtTick (s.pass dt)).evt.old = none)) ∧
    (∃ (g : Nat) (w : BusReq) (dt : Nat) (s : State), (g < 8) ∧ (w.addr = 0x40030300 + 4 * g) ∧ (setenOk w = true) ∧ (bitOf w.val 29 = 0) ∧ (writeLands w (s.pass dt) = true) ∧ (srcNumOk (w.val % 256) = true) ∧ (srcNumOk (bitsOf w.val 15 8) = true) ∧ (look g (evtTick (s.pass dt)).evt.old = none)) ∧
    (∃ (g : Nat) (w : BusReq) (dt : Nat) (s : State), (g < 8) ∧ (w.addr = 0x40030300 + 4 * g) ∧ (setdisOk w = true) ∧ (writeLands w (s.pass dt) = true) ∧ (srcNumOk (w.val % 256) = true) ∧ (srcNumOk (bitsOf w.val 15 8) = true)) ∧
    (∃ (n : Nat) (w : BusReq) (dt : Nat) (s : State), (n < 8) ∧ (w.addr = 0x40040000 + 256 * n) ∧ (timerStartOk w = true) ∧ (stselOk s (bitsOf w.val 15 8) = true) ∧ (writeLands w (s.pass dt) = true) ∧ (s.on (Reg.TMR_STAT_RUN n) = false) ∧ (s.on (Reg.TMR_CTL_APPLY n) = false) ∧ (s.tmrs.length = 8)) ∧
    (∃ (n : Nat) (w : BusReq) (dt : Nat) (s : State), (n < 8) ∧ (w.addr = 0x40040000 + 256 * n) ∧ (timerStartOk w = true) ∧ (stselOk s (bitsOf w.val 15 8) = true) ∧ (writeLands w (s.pass dt) = true) ∧ (s.on (Reg.TMR_STAT_RUN n) = false) ∧ (s.on (Reg.TMR_CTL_APPLY n) = false) ∧ (s.tmrs.length = 8)) ∧
    (∃ (n : Nat) (w : BusReq) (dt : Nat) (s : State), (n < 8) ∧ (w.addr = 0x40040000 + 256 * n) ∧ (timerStartOk w = true) ∧ (stselOk s (bitsOf w.val 15 8) = true) ∧ (writeLands w (s.pass dt) = true) ∧ (s.on (Reg.TMR_STAT_RUN n) = false) ∧ (s.on (Reg.TMR_CTL_APPLY n) = false) ∧ (s.tmrs.length = 8)) ∧
    (∃ (n : Nat) (w : BusReq) (dt : Nat) (s : State), (n < 8) ∧ (w.addr = 0x40040000 + 256 * n) ∧ (timerApplyOk w = true) ∧ (bitOf w.val 31 = 0) ∧ (stselOk s (bitsOf w.val 15 8) = true) ∧ (writeLands w (s.pass dt) = true) ∧ (s.on (Reg.TMR_STAT_RUN n) = false) ∧ (s.on (Reg.TMR_CTL_APPLY n) = false)) ∧
    (∃ (n : Nat) (w : BusReq) (dt : Nat) (s : State), (n < 8) ∧ (w.addr = 0x40040000 + 256 * n) ∧ (timerApplyOk w = true) ∧ (bitOf w.val 31 = 0) ∧ (stselOk s (bitsOf w.val 15 8) = true) ∧ (writeLands w (s.pass dt) = true) ∧ (s.on (Reg.TMR_STAT_RUN n) = false) ∧ (s.on (Reg.TMR_CTL_APPLY n) = false)) ∧
    (∃ (n : Nat) (c : Nat) (w : BusReq) (dt : Nat) (s : State), (n < 8) ∧ (c < 4) ∧ (w.addr = 0x40040020 + 256 * n + 16 * c) ∧ (forceOk w = true) ∧ (bitsOf w.val 11 10 ≠ 3) ∧ (capselOk s (w.val % 256) = true) ∧ (writeLands w (s.pass dt) = true) ∧ (s.on (Reg.TMR_STAT_RUN n) = false) ∧ (s.on (Reg.TMR_CTL_APPLY n) = false) ∧ (bitsOf w.val 27 26 = 1)) ∧
    (∃ (w : BusReq) (dt : Nat) (s : State), (timerBlockResetOk w = true) ∧ (writeLands w (s.pass dt) = true)) ∧
    (∃ (n : Nat) (c : Nat) (w : BusReq) (dt : Nat) (s : State), (n < 8) ∧ (c < 4) ∧ (w.addr = 0x4004002C + 256 * n + 16 * c) ∧ (capReadOk w = true) ∧ (readLands w (s.pass dt) = true)) ∧
    (∃ (w : BusReq) (dt : Nat) (s : State), (rtcApplyOk w = true) ∧ (writeLands w (s.pass dt) = true) ∧ (s.on Reg.RTC_CTL_APPLY = false)) ∧
    (∃ (w : BusReq) (dt : Nat) (s : State), (rtcApplyOk w = true) ∧ (writeLands w (s.pass dt) = true) ∧ (s.on Reg.RTC_CTL_APPLY = false)) ∧
    (∃ (w : BusReq) (dt : Nat) (s : State), (wakePeriodWriteOk w = true) ∧ (writeLands w (s.pass dt) = true) ∧ (s.on Reg.RTC_CTL_APPLY = false)) ∧
    (∃ (w : BusReq) (dt : Nat) (s : State), (rtcTimeReadOk w = true) ∧ (readLands w (s.pass dt) = true)) :=
  ⟨⟨W 0x40030200 0, 5, up, by decide +kernel⟩,
   ⟨1, 31, W (0x40030204) (2 ^ 31), 5, up, by decide +kernel⟩,
   ⟨0, 0, W (0x40030200) 1, 5, up, by decide +kernel⟩,
   ⟨7, W (0x40030300 + 28) 0x40000FFF, 5, up, by decide +kernel⟩,
   ⟨7, W (0x40030300 + 28) 0x4000BFFF, 5, up, by decide +kernel⟩,
   ⟨7, W (0x40030300 + 28) 0x40000102, 5, up, by decide +kernel⟩,
   ⟨7, W (0x40030300 + 28) 0x20000FFF, 5, up, by decide +kernel⟩,
   ⟨7, W (0x40040000 + 1792) 0x80000005, 5, up, by decide +kernel⟩,
   ⟨7, W (0x40040000 + 1792) 0x80004205, 5, st [(Reg.EVT_CH_OWN_OWNER 2, up.rd (Reg.PROT_OWN_OWNER 42)), (Reg.EVT_CH_OWN_SEC 2, up.rd (Reg.PROT_OWN_SEC 42))] up, by decide +kernel⟩,
   ⟨0, W (0x40040000) 0xC0000005, 5, up, by decide +kernel⟩,
   ⟨7, W (0x40040000 + 1792) 0x40000005, 5, up, by decide +kernel⟩,
   ⟨7, W (0x40040000 + 1792) 0x40004205, 5, st [(Reg.EVT_CH_OWN_OWNER 2, up.rd (Reg.PROT_OWN_OWNER 42)), (Reg.EVT_CH_OWN_SEC 2, up.rd (Reg.PROT_OWN_SEC 42))] up, by decide +kernel⟩,
   ⟨7, 3, W (0x40040020 + 1792 + 48) 0x84000005, 5, up, by decide +kernel⟩,
   ⟨W 0x40040800 0x80000000, 5, up, by decide +kernel⟩,
   ⟨7, 3, W (0x4004002C + 1792 + 48) 0, 5, st [(Reg.TMR_STAT_CAPF 7, 15)] up, by decide +kernel⟩,
   ⟨W 0x40050030 0x80000001, 5, up, by decide +kernel⟩,
   ⟨W 0x40050030 0x80000000, 5, up, by decide +kernel⟩,
   ⟨W 0x40050028 77, 5, up, by decide +kernel⟩,
   ⟨W 0x40050000 0, 5, up, by decide +kernel⟩⟩
/-- The hypotheses of BusWrites, clause by clause. -/
theorem witness_BusWrites :
    (∃ (w : BusReq) (dt : Nat) (s : State), (iniOk w = true) ∧ (writeLands w (s.pass dt) = true) ∧ (w.addr / 0x10000 ∈ [0x40060000, 0x40070000, 0x40080000, 0x40090000, 0x400A0000, 0x400B0000, 0x400C0000, 0x400F0000, 0x40130000, 0x40170000].map (· / 0x10000)) ∧ (((regFields w.addr).map Field.key).Nodup)) ∧
    (∃ (w : BusReq) (dt : Nat) (s : State), (iniOk w = true) ∧ (writeLands w (s.pass dt) = true) ∧ (w.addr / 0x10000 ∈ [0x40060000, 0x40070000, 0x40080000, 0x40090000, 0x400A0000, 0x400B0000, 0x400C0000, 0x400F0000, 0x40130000, 0x40170000].map (· / 0x10000)) ∧ (((regFields w.addr).map Field.key).Nodup)) ∧
    (∃ (w : BusReq) (dt : Nat) (s : State), (iniOk w = true) ∧ (writeLands w (s.pass dt) = true) ∧ (w.addr / 0x10000 ∈ [0x40060000, 0x40070000, 0x40080000, 0x40090000, 0x400A0000, 0x400B0000, 0x400C0000, 0x400F0000, 0x40130000, 0x40170000].map (· / 0x10000)) ∧ (((regFields w.addr).map Field.key).Nodup)) ∧
    (∃ (w : BusReq) (dt : Nat) (s : State), (iniOk w = true) ∧ (writeLands w (s.pass dt) = true) ∧ (w.addr / 0x10000 ∈ [0x40060000, 0x40070000, 0x40080000, 0x40090000, 0x400A0000, 0x400B0000, 0x400C0000, 0x400F0000, 0x40130000, 0x40170000].map (· / 0x10000)) ∧ (((regFields w.addr).map Field.key).Nodup)) ∧
    (∃ (w : BusReq) (dt : Nat) (s : State), (iniOk w = true) ∧ (writeLands w (s.pass dt) = true) ∧ (0x10000000 ≤ w.addr) ∧ (w.addr + w.size ≤ 0x10600000) ∧ (memWf s.mem = true)) ∧
    (∃ (w : BusReq) (dt : Nat) (s : State), (iniOk w = true) ∧ (writeLands w (s.pass dt) = true) ∧ (0x10000000 ≤ w.addr) ∧ (w.addr + w.size ≤ 0x10600000) ∧ (memWf s.mem = true)) ∧
    (∃ (w : BusReq) (dt : Nat) (s : State), (iniOk w = true) ∧ (0 < (accessKind (s.pass dt) w.ini w.user true false w.addr w.size).1) ∧ (s.on Reg.SYS_BERR_INFO_VALID = false)) ∧
    (∃ (w : BusReq) (dt : Nat) (s : State), (iniOk w = true) ∧ (0 < (accessKind (s.pass dt) w.ini w.user true false w.addr w.size).1) ∧ (s.on Reg.SYS_BERR_INFO_VALID = false)) ∧
    (∃ (h : HeldW) (dt : Nat) (s : State), (heldReady (s.pass dt) = some h) ∧ (0x10000000 ≤ h.addr) ∧ (h.addr + h.size ≤ 0x10600000) ∧ (memWf s.mem = true)) ∧
    (∃ (b : Nat) (dt : Nat) (s : State), (b < 8) ∧ (shadowCommitOk b (s.pass dt) = true)) ∧
    (∃ (b : Nat) (dt : Nat) (s : State), (b < 8) ∧ (shadowCommitOk b (s.pass dt) = true)) ∧
    (∃ (n : Nat) (dt : Nat) (s : State), (n < 2) ∧ (shadowCommitOk (8 + n) (s.pass dt) = true)) ∧
    (∃ (n : Nat) (dt : Nat) (s : State), (n < 2) ∧ (shadowCommitOk (8 + n) (s.pass dt) = true)) ∧
    (∃ (k : Nat) (dt : Nat) (s : State), (k < 4) ∧ (shadowCommitOk (10 + k) (s.pass dt) = true)) ∧
    (∃ (k : Nat) (dt : Nat) (s : State), (k < 4) ∧ (shadowCommitOk (10 + k) (s.pass dt) = true)) :=
  ⟨⟨W 0x40060040 0xFFFFFFFF, 5, up, by decide +kernel⟩,
   ⟨W 0x40170008 0xFFFFFFFF, 5, st [(Reg.SYS_RSTCAUSE_POR, 1)] up, by decide +kernel⟩,
   ⟨W 0x40170008 0xFFFFFFFF, 5, up, by decide +kernel⟩,
   ⟨W 0x40090004 0xFFFFFFFF, 5, up, by decide +kernel⟩,
   ⟨{ W 0x10000001 0x1122334455667788 with size := 8 }, 5, up, by decide +kernel⟩,
   ⟨{ W 0x105FFFFF 0x1122334455667788 with size := 1 }, 5, { up with mem := [(0x105FFFFE, 9), (0x105FFFFF, 3)] }, by decide +kernel⟩,
   ⟨{ W 0x40090004 7 with size := 2 }, 5, up, by decide +kernel⟩,
   ⟨W 0x90000000 7, 5, { up with fuses := { Fuses.reset with variantC := false } }, by decide +kernel⟩,
   ⟨⟨3, false, 0x10000004, 4, 0xDEADBEEF, 11, 0⟩, 5, { up with pwr := { up.pwr with held := [⟨3, false, 0x10000004, 4, 0xDEADBEEF, 11, 0⟩, ⟨2, false, 0x10000004, 4, 5, 11, 0⟩] } }, by decide +kernel⟩,
   ⟨7, 5, st [(Reg.TMR_CTL_APPLY 7, 1), (Reg.TMR_CTL_PSC 7, 3)] up, by decide +kernel⟩,
   ⟨7, 5, st [(Reg.TMR_CTL_APPLY 7, 1), (Reg.TMR_CC_CTL_MODE 7 3, 2), (Reg.TMR_TOP 7, 3), (Reg.TMR_CC_DUTY 7 3, 5)] up, by decide +kernel⟩,
   ⟨1, 5, st [(Reg.SPX_CTL_APPLY 1, 1), (Reg.SPX_CFG_WSIZE 1, 1), (Reg.SPX_PDAT_LEN 1, 15)] up, by decide +kernel⟩,
   ⟨0, 5, st [(Reg.SPX_CTL_APPLY 0, 1), (Reg.SPX_CFG_WSIZE 0, 3)] up, by decide +kernel⟩,
   ⟨3, 5, { st [(Reg.FIRN_CAP_CTL_APPLY 3, 1), (Reg.FIRN_CAP_CTL_EN 3, 1), (Reg.FIRN_CAP_CTL_SRC 3, 0x41)] up with firn := { up.firn with applyAt := [(3, 0)] } }, by decide +kernel⟩,
   ⟨3, 5, { st [(Reg.FIRN_CAP_CTL_APPLY 3, 1), (Reg.FIRN_CAP_CTL_EDGE 3, 3), (Reg.FIRN_CAP_CTL_SRC 3, 0x41)] up with firn := { up.firn with applyAt := [(3, 0)] } }, by decide +kernel⟩⟩
/-- The hypotheses of SerialAccesses, clause by clause. -/
theorem witness_SerialAccesses :
    (∃ (n : Nat) (w : BusReq) (dt : Nat) (s : State), (n < 2) ∧ (w.addr = 0x40110004 + 0x10000 * n) ∧ (spxStartOk w = true) ∧ (writeLands w (s.pass dt) = true) ∧ (n = 1 → s.on (Reg.SPX_STAT_GLETY 1) = false ∨ isCustomer w.ini = false) ∧ (bitsOf w.val 29 28 = 0) ∧ (bitOf w.val 31 = 0) ∧ (w.val % 2 = 1) ∧ (s.on (Reg.SPX_STAT_ACTIVE n) = false)) ∧
    (∃ (n : Nat) (w : BusReq) (dt : Nat) (s : State), (n < 2) ∧ (w.addr = 0x40110004 + 0x10000 * n) ∧ (spxStartOk w = true) ∧ (writeLands w (s.pass dt) = true) ∧ (n = 1 → s.on (Reg.SPX_STAT_GLETY 1) = false ∨ isCustomer w.ini = false) ∧ (bitsOf w.val 29 28 = 0) ∧ (bitOf w.val 31 = 0) ∧ (w.val % 2 = 1) ∧ (s.on (Reg.SPX_STAT_ACTIVE n) = false)) ∧
    (∃ (n : Nat) (w : BusReq) (dt : Nat) (s : State), (n < 2) ∧ (w.addr = 0x40110004 + 0x10000 * n) ∧ (spxStartOk w = true) ∧ (writeLands w (s.pass dt) = true) ∧ (n = 1 → s.on (Reg.SPX_STAT_GLETY 1) = false ∨ isCustomer w.ini = false) ∧ (bitsOf w.val 29 28 = 0) ∧ (bitOf w.val 31 = 0) ∧ (w.val % 2 = 1) ∧ (s.on (Reg.SPX_STAT_ACTIVE n) = false)) ∧
    (∃ (n : Nat) (w : BusReq) (dt : Nat) (s : State), (n < 2) ∧ (w.addr = 0x40110004 + 0x10000 * n) ∧ (spxApplyOk w = true) ∧ (writeLands w (s.pass dt) = true) ∧ (n = 1 → s.on (Reg.SPX_STAT_GLETY 1) = false ∨ isCustomer w.ini = false) ∧ (bitsOf w.val 30 28 = 0)) ∧
    (∃ (n : Nat) (w : BusReq) (dt : Nat) (s : State), (n < 2) ∧ (w.addr = 0x40110004 + 0x10000 * n) ∧ (txflushOk w = true) ∧ (writeLands w (s.pass dt) = true) ∧ (s.spx.length = 2) ∧ (n = 1 → s.on (Reg.SPX_STAT_GLETY 1) = false ∨ isCustomer w.ini = false) ∧ (bitOf w.val 30 = 0)) ∧
    (∃ (n : Nat) (w : BusReq) (dt : Nat) (s : State), (n < 2) ∧ (w.addr = 0x40110004 + 0x10000 * n) ∧ (rxflushOk w = true) ∧ (writeLands w (s.pass dt) = true) ∧ (s.spx.length = 2) ∧ (n = 1 → s.on (Reg.SPX_STAT_GLETY 1) = false ∨ isCustomer w.ini = false) ∧ (bitOf w.val 30 = 0)) ∧
    (∃ (n : Nat) (w : BusReq) (dt : Nat) (s : State), (n < 2) ∧ (w.addr = 0x40110014 + 0x10000 * n) ∧ (isSpxData w = true) ∧ (writeLands w (s.pass dt) = true) ∧ (s.spx.length = 2) ∧ (n = 1 → s.on (Reg.SPX_STAT_GLETY 1) = false ∨ isCustomer w.ini = false) ∧ ((spxOf s n).run = none)) ∧
    (∃ (n : Nat) (w : BusReq) (dt : Nat) (s : State), (n < 2) ∧ (w.addr = 0x40110014 + 0x10000 * n) ∧ (isSpxData w = true) ∧ (writeLands w (s.pass dt) = true) ∧ (s.spx.length = 2) ∧ (n = 1 → s.on (Reg.SPX_STAT_GLETY 1) = false ∨ isCustomer w.ini = false) ∧ ((spxOf s n).run = none)) ∧
    (∃ (n : Nat) (x : Nat) (y : Nat) (ws : List (Nat × Nat)) (f : SpxFrame) (fs : List SpxFrame) (w : BusReq) (dt : Nat) (s : State), (n < 2) ∧ (w.addr = 0x40110014 + 0x10000 * n) ∧ (isSpxData w = true) ∧ (readLands w (s.pass dt) = true) ∧ (s.spx.length = 2) ∧ ((spxOf s n).rx = { f with words := (x, y) :: ws } :: fs)) :=
  ⟨⟨0, W 0x40110004 0x40000001, 5, st [(Reg.SPX_CFG_ROLE 0, 2)] up, by decide +kernel⟩,
   ⟨1, W 0x40120004 0x40000001, 5, up, by decide +kernel⟩,
   ⟨0, W 0x40110004 0x40000001, 5, up, by decide +kernel⟩,
   ⟨1, W 0x40120004 0x80000001, 5, up, by decide +kernel⟩,
   ⟨1, W 0x40120004 0x20000001, 5, { up with spx := [Spx.reset, { Spx.reset with tx := [(8, 5)], rx := [⟨[(8, 1)], 8, false⟩] }] }, by decide +kernel⟩,
   ⟨1, W 0x40120004 0x10000001, 5, { up with spx := [Spx.reset, { Spx.reset with tx := [(8, 5)], rx := [⟨[(8, 1)], 8, false⟩] }] }, by decide +kernel⟩,
   ⟨1, W 0x40120014 0x12345678, 5, up, by decide +kernel⟩,
   ⟨0, W 0x40110014 0x12345678, 5, { up with spx := [{ Spx.reset with tx := List.replicate 512 (32, 5) }, Spx.reset] }, by decide +kernel⟩,
   ⟨1, 8, 5, [], ⟨[], 8, false⟩, [⟨[(8, 2)], 8, false⟩], W 0x40120014 0, 5, { up with spx := [Spx.reset, { Spx.reset with rx := [⟨[(8, 5)], 8, false⟩, ⟨[(8, 2)], 8, false⟩] }] }, by decide +kernel⟩⟩
/-- The hypotheses of PowerAccesses, clause by clause. -/
theorem witness_PowerAccesses :
    (∃ (n : Nat) (w : BusReq) (dt : Nat) (s : State), (1 ≤ n) ∧ (n ≤ 13) ∧ (w.addr = 0x40000100 + 4 * n) ∧ (voteWriteOk w = true) ∧ (writeLands w (s.pass dt) = true)) ∧
    (∃ (n : Nat) (w : BusReq) (dt : Nat) (s : State), (1 ≤ n) ∧ (n ≤ 13) ∧ (w.addr = 0x40000100 + 4 * n) ∧ (voteWriteOk w = true) ∧ (writeLands w (s.pass dt) = true)) ∧
    (∃ (w : BusReq) (dt : Nat) (s : State), (stopreqOk w = true) ∧ (writeLands w (s.pass dt) = true) ∧ (bitsOf w.val 30 29 = 0)) ∧
    (∃ (w : BusReq) (dt : Nat) (s : State), (stopreqOk w = true) ∧ (writeLands w (s.pass dt) = true) ∧ (bitsOf w.val 30 29 = 0)) ∧
    (∃ (w : BusReq) (dt : Nat) (s : State), (waketWriteOk w = true) ∧ (writeLands w (s.pass dt) = true)) ∧
    (∃ (w : BusReq) (dt : Nat) (s : State), (waketWriteOk w = true) ∧ (writeLands w (s.pass dt) = true)) ∧
    (∃ (w : BusReq) (dt : Nat) (s : State), (relatchOk w = true) ∧ (writeLands w (s.pass dt) = true) ∧ (bitOf w.val 31 = 0) ∧ (bitOf w.val 29 = 0)) ∧
    (∃ (w : BusReq) (dt : Nat) (s : State), (mirFenceOk w = true) ∧ (writeLands w (s.pass dt) = true) ∧ (s.rd Reg.MIR_STAT_ROLE = 1 ∨ s.rd Reg.MIR_STAT_ROLE = 4) ∧ (s.on Reg.MIR_FENCE_FENCE = false)) ∧
    (∃ (w : BusReq) (dt : Nat) (s : State), (daliSendOk w = true) ∧ (writeLands w (s.pass dt) = true) ∧ (s.on Reg.LMP_STAT_SVC = false ∨ isCustomer w.ini = false)) ∧
    (∃ (w : BusReq) (dt : Nat) (s : State), (daliSendOk w = true) ∧ (writeLands w (s.pass dt) = true) ∧ (s.on Reg.LMP_STAT_SVC = false ∨ isCustomer w.ini = false)) :=
  ⟨⟨13, W 0x40000134 0x00000102, 5, up, by decide +kernel⟩,
   ⟨1, W 0x40000104 0xFFFFFFFF, 5, up, by decide +kernel⟩,
   ⟨W 0x40000004 0x80000000, 5, up, by decide +kernel⟩,
   ⟨W 0x40000004 0x80000000, 5, st [(Reg.BKP_SET0_PROFILE, 1)] up, by decide +kernel⟩,
   ⟨W 0x40000010 7, 5, up, by decide +kernel⟩,
   ⟨W 0x40000010 0, 5, up, by decide +kernel⟩,
   ⟨W 0x40000004 0x40000000, 5, st [(Reg.BKP_SET0_LATCHED, 1)] up, by decide +kernel⟩,
   ⟨W 0x40140008 1, 5, st [(Reg.MIR_STAT_ROLE, 1)] up, by decide +kernel⟩,
   ⟨W 0x40150030 0xA0123456, 5, st [(Reg.LMP_CTL_DALIEN, 1)] up, by decide +kernel⟩,
   ⟨W 0x40150030 0xA0123456, 5, up, by decide +kernel⟩⟩
/-- The hypotheses of FirnStages, clause by clause. -/
theorem witness_FirnStages :
    (∃ (dt : Nat) (s : State), (holdoverEntryOk (s.pass dt) = true)) ∧
    (∃ (dt : Nat) (s : State), (tcxoLossOk (s.pass dt) = true)) ∧
    (∃ (n : Nat) (dt : Nat) (s : State), (n < 32) ∧ (coastLaunchOk n (s.pass dt) = true)) ∧
    (∃ (dt : Nat) (s : State), (tcxoReturnOk (s.pass dt) = true)) ∧
    (∃ (dt : Nat) (s : State), (coastRestartOk (s.pass dt) = true)) ∧
    (∃ (dt : Nat) (s : State), (coastAlignOk (s.pass dt) = true) ∧ (s.firn.stage = .coast)) ∧
    (∃ (dt : Nat) (s : State), (coarseOffsetWriteOk (s.pass dt) = true)) ∧
    (∃ (dt : Nat) (s : State), (leapSecondOk (s.pass dt) = true)) ∧
    (∃ (dt : Nat) (s : State), (leapSecondOk (s.pass dt) = true)) ∧
    (∃ (dt : Nat) (s : State), (ppsPulseLossOk (s.pass dt) = true)) :=
  ⟨⟨5, { up with elapsed := cycS 40, firn := { up.firn with stage := .locked, lastSample := some 5 } }, by decide +kernel⟩,
   ⟨5, { up with firn := { up.firn with stage := .locked, lastSample := some 5 } }, by decide +kernel⟩,
   ⟨31, 0, { up with elapsed := 9375 * 40000, firn := { up.firn with coasting := true, flight := [⟨31, 5, false⟩] } }, by decide +kernel⟩,
   ⟨5, { up with firn := { up.firn with tcxoLost := some 7 } }, by decide +kernel⟩,
   ⟨5, { up with firn := { up.firn with coasting := true, exitPhase := 1 } }, by decide +kernel⟩,
   ⟨0, { up with elapsed := 9375 * 40000, firn := { up.firn with stage := .coast, coasting := true, exitPhase := 2, edgePhase := 77 } }, by decide +kernel⟩,
   ⟨5, { up with firn := { up.firn with rtcSetAt := some 7 } }, by decide +kernel⟩,
   ⟨5, { st [(Reg.FIRN_STAT_ROOT, 1)] up with firn := { up.firn with leap := 3, utcOff := 37, leapMonth := some 5000 } }, by decide +kernel⟩,
   ⟨5, { st [(Reg.FIRN_STAT_ROOT, 1)] up with firn := { up.firn with leap := 1, utcOff := 37, leapMonth := some 5000 } }, by decide +kernel⟩,
   ⟨5, { st [(Reg.FIRN_STAT_ROOT, 1)] up with elapsed := cycS 40, firn := { up.firn with source := .pps, lastPulse := some 7 } }, by decide +kernel⟩⟩
/-- The hypotheses of FirnComparators, clause by clause. -/
theorem witness_FirnComparators :
    (∃ (n : Nat) (dt : Nat) (s : State), (n < 32) ∧ (comparatorCommitOk n (s.pass dt) = true)) ∧
    (∃ (n : Nat) (dt : Nat) (s : State), (n < 32) ∧ (comparatorCommitOk n (s.pass dt) = true)) ∧
    (∃ (n : Nat) (dt : Nat) (s : State), (n < 32) ∧ (matchOk n (s.pass dt) = true)) ∧
    (∃ (n : Nat) (dt : Nat) (s : State), (n < 32) ∧ (launchOk n (s.pass dt) = true) ∧ (s.rdC (Reg.FIRN_CMP_CTL_CHEN n) = 0)) ∧
    (∃ (n : Nat) (dt : Nat) (l : Launch) (s : State), (n < 32) ∧ (launchOk n (s.pass dt) = true) ∧ (flightOf s n = some l) ∧ (s.rdC (Reg.FIRN_CMP_CTL_CHEN n) = 1) ∧ (l.late = false ∨ s.rdC (Reg.FIRN_CMP_CTL_LATESUP n) = 0) ∧ (domOn s 11 = true)) ∧
    (∃ (k : Nat) (rising : Bool) (dt : Nat) (s : State), (k < 4) ∧ (captureOk k rising (s.pass dt) = true) ∧ (k ≠ 0 ∨ s.on Reg.FIRN_STAT_ROOT = false)) ∧
    (∃ (k : Nat) (rising : Bool) (dt : Nat) (s : State), (k < 4) ∧ (captureOk k rising (s.pass dt) = true) ∧ (k ≠ 0 ∨ s.on Reg.FIRN_STAT_ROOT = false)) :=
  ⟨⟨31, 5, { st [(Reg.FIRN_CMP_CTL_ARM 31, 1), (Reg.FIRN_CMP_TLO 31, 9), (Reg.FIRN_CMP_THI 31, 2 ^ 20)] up with firn := { up.firn with armAt := [(31, 5)] } }, by decide +kernel⟩,
   ⟨0, 5, { st [(Reg.FIRN_CMP_CTL_ARM 0, 1), (Reg.FIRN_CMP_TLO 0, 9)] up with firn := { up.firn with armAt := [(0, 5)], flight := [⟨0, 5, false⟩] } }, by decide +kernel⟩,
   ⟨31, 5, stC [(Reg.FIRN_CMP_STAT_ARMED 31, 1), (Reg.FIRN_CMP_TLO 31, 9)] up, by decide +kernel⟩,
   ⟨31, 5, { up with firn := { up.firn with flight := [⟨30, 5, false⟩, ⟨31, 5, false⟩] } }, by decide +kernel⟩,
   ⟨31, 5, ⟨31, 5, false⟩, { stC [(Reg.FIRN_CMP_CTL_CHEN 31, 1), (Reg.FIRN_CMP_CTL_CHAN 31, 7)] up with firn := { up.firn with flight := [⟨30, 5, false⟩, ⟨31, 5, false⟩] } }, by refine ⟨by decide +kernel, by decide +kernel, by decide +kernel, by decide +kernel, by decide +kernel, by decide +kernel⟩⟩,
   ⟨3, true, 5, stC [(Reg.FIRN_CAP_CTL_EN 3, 1), (Reg.FIRN_CAP_CTL_SRC 3, 1), (Reg.FIRN_CAP_STAT_CAPF 3, 1)] up, by decide +kernel⟩,
   ⟨0, false, 5, stC [(Reg.FIRN_CAP_CTL_EN 0, 1), (Reg.FIRN_CAP_CTL_EDGE 0, 1)] up, by decide +kernel⟩⟩
/-- The hypotheses of RadioStates, clause by clause. -/
theorem witness_RadioStates :
    (∃ (target : Nat) (freq : Nat) (vpa : Nat) (dt : Nat) (s : State), (stateRequestOk target (s.pass dt) = true) ∧ (txBusy s = true ∧ stKind s = 4)) ∧
    (∃ (target : Nat) (freq : Nat) (vpa : Nat) (dt : Nat) (s : State), (stateRequestOk target (s.pass dt) = true) ∧ (txBusy s = false ∨ stKind s ≠ 4)) ∧
    (∃ (target : Nat) (freq : Nat) (vpa : Nat) (dt : Nat) (s : State), (stateRequestOk target (s.pass dt) = true) ∧ (txBusy s = false ∨ stKind s ≠ 4)) ∧
    (∃ (vpa : Nat) (id : Nat) (d : Nat) (dt : Nat) (s : State), (autoReturnOk (s.pass dt) = true) ∧ (s.rfe.heldReq = none) ∧ (s.rfe.pktDone = some id) ∧ (stTarget s (stField s id 3 1) = some d) ∧ ((stEntry s d).isSome = true)) ∧
    (∃ (vpa : Nat) (id : Nat) (dt : Nat) (s : State), (autoReturnOk (s.pass dt) = true) ∧ (s.rfe.heldReq = none) ∧ (s.rfe.pktDone = some id) ∧ (stTarget s (stField s id 3 1) = none)) ∧
    (∃ (vpa : Nat) (r : Nat) (dt : Nat) (s : State), (autoReturnOk (s.pass dt) = true) ∧ (s.rfe.heldReq = some r) ∧ ((stEntry s r).isSome = true)) ∧
    (∃ (vpa : Nat) (d : Nat) (dt : Nat) (s : State), (stateTimeoutOk (s.pass dt) = true) ∧ (stTarget s (stField s (stNow s) 4 1) = some d) ∧ ((stEntry s d).isSome = true)) ∧
    (∃ (dt : Nat) (s : State), (radioTransitionDoneOk (s.pass dt) = true)) ∧
    (∃ (dt : Nat) (s : State), (radioTransitionDoneOk (s.pass dt) = true)) :=
  ⟨⟨2, 915000, 5, 5, { rfIn 6 with rfe := { Rfe.reset with tx := some (tx0 .onAir req0) } }, by decide +kernel⟩,
   ⟨6, 915000, 4000, 5, rfIn 2, by decide +kernel⟩,
   ⟨10, 915000, 4000, 5, rfIn 0, by decide +kernel⟩,
   ⟨4000, 9, 4, 5, { rfIn 9 with rfe := { Rfe.reset with pktDone := some 9, tx := some (tx0 .rampDown req0) } }, by decide +kernel⟩,
   ⟨4000, 0, 5, { rfIn 2 with rfe := { Rfe.reset with pktDone := some 0 } }, by decide +kernel⟩,
   ⟨4000, 3, 5, { rfIn 6 with rfe := { Rfe.reset with pktDone := some 6, heldReq := some 3 } }, by decide +kernel⟩,
   ⟨4000, 0, 5, rfIn 1, by decide +kernel⟩,
   ⟨5, { rfIn 2 with rfe := { Rfe.reset with moving := some (2, 0) } }, by decide +kernel⟩,
   ⟨5, { st [(Reg.RXC_LANE_RETIRED, 3)] (rfIn 5) with rfe := { Rfe.reset with moving := some (5, 0) } }, by decide +kernel⟩⟩
/-- The hypotheses of RadioLocksAndCalibrations, clause by clause. -/
theorem witness_RadioLocksAndCalibrations :
    (∃ (dt : Nat) (s : State), (fullLockOk (s.pass dt) = true)) ∧
    (∃ (dt : Nat) (s : State), (retuneOk (s.pass dt) = true)) ∧
    (∃ (kind : Nat) (port : Nat) (dt : Nat) (s : State), (calibrationStartOk kind port (s.pass dt) = true)) ∧
    (∃ (kind : Nat) (port : Nat) (dt : Nat) (s : State), (calibrationStartOk kind port (s.pass dt) = true)) ∧
    (∃ (dt : Nat) (s : State), (calibrationAbandonOk (s.pass dt) = true)) ∧
    (∃ (dt : Nat) (s : State), (calibrationCompleteOk (s.pass dt) = true)) ∧
    (∃ (dt : Nat) (s : State), (calibrationCompleteOk (s.pass dt) = true)) ∧
    (∃ (kind : Nat) (port : Nat) (dt : Nat) (s : State), (calibrationOverdueOk kind port (s.pass dt) = true)) ∧
    (∃ (kind : Nat) (port : Nat) (dt : Nat) (s : State), (calibrationOverdueOk kind port (s.pass dt) = true)) ∧
    (∃ (dt : Nat) (s : State), (dutyBucketOk (s.pass dt) = true)) ∧
    (∃ (p : Nat) (dt : Nat) (s : State), (faultHoldExpiryOk p (s.pass dt) = true)) ∧
    (∃ (dt : Nat) (s : State), (tunerWriteBackOk (s.pass dt) = true)) :=
  ⟨⟨5, { rfIn 2 with rfe := { Rfe.reset with lock := some ⟨true, 5⟩ } }, by decide +kernel⟩,
   ⟨5, { rfIn 2 with rfe := { Rfe.reset with lock := some ⟨false, 5⟩ } }, by decide +kernel⟩,
   ⟨2, 1, 5, rfIn 10, by decide +kernel⟩,
   ⟨6, 0, 5, rfIn 2, by decide +kernel⟩,
   ⟨5, { rfIn 2 with rfe := { Rfe.reset with cal := some ⟨2, 1, 5, 0⟩ } }, by decide +kernel⟩,
   ⟨5, { rfIn 2 with rfe := { Rfe.reset with cal := some ⟨2, 1, 5, 0⟩ } }, by decide +kernel⟩,
   ⟨5, { rfIn 2 with rfe := { Rfe.reset with cal := some ⟨6, 0, 5, 0⟩ } }, by decide +kernel⟩,
   ⟨6, 0, 5, rfIn 10, by decide +kernel⟩,
   ⟨6, 0, 5, { rfIn 10 with elapsed := cycS 4000, rfe := { Rfe.reset with cals := [(12, ⟨none, 0, 0, some 5⟩)] } }, by decide +kernel⟩,
   ⟨5, { rfIn 2 with elapsed := cycS 90 }, by decide +kernel⟩,
   ⟨1, 5, { rfIn 2 with elapsed := cycS 90, rfe := { Rfe.reset with ports := [Port.reset, { Port.reset with faultedAt := some 7 }] } }, by decide +kernel⟩,
   ⟨5, { rfIn 2 with elapsed := cycS 86400, rfe := { Rfe.reset with learnt := [(3, 5)] } }, by decide +kernel⟩⟩
/-- The hypotheses of RadioTransmissions, clause by clause. -/
theorem witness_RadioTransmissions :
    (∃ (r : TxReq) (busy : Bool) (lbt : Bool) (i : Nat) (dt : Nat) (s : State) (u : State), (txEvaluateOk r (s.pass dt) = true) ∧ (u = calAbandon (s.pass dt)) ∧ (u.now ≤ r.t + txSlack u r) ∧ (txReady u lbt = true) ∧ (txRefusal u r busy = none) ∧ (subOf u r.freq r.span = some i)) ∧
    (∃ (r : TxReq) (busy : Bool) (lbt : Bool) (o : Nat) (dt : Nat) (s : State) (u : State), (txEvaluateOk r (s.pass dt) = true) ∧ (u = calAbandon (s.pass dt)) ∧ (r.t + txSlack u r < u.now ∨ txReady u lbt = true) ∧ (txRefusal u r busy = some o)) ∧
    (∃ (r : TxReq) (busy : Bool) (lbt : Bool) (dt : Nat) (s : State) (u : State), (txEvaluateOk r (s.pass dt) = true) ∧ (u = calAbandon (s.pass dt)) ∧ (r.t + txSlack u r < u.now) ∧ (txRefusal u r busy = none)) ∧
    (∃ (r : TxReq) (busy : Bool) (lbt : Bool) (dt : Nat) (s : State) (u : State), (txEvaluateOk r (s.pass dt) = true) ∧ (u = calAbandon (s.pass dt)) ∧ (u.now ≤ r.t + txSlack u r) ∧ (txReady u lbt = false)) ∧
    (∃ (r : TxReq) (busy : Bool) (lbt : Bool) (i : Nat) (dt : Nat) (s : State) (u : State), (txHoldReleaseOk lbt (s.pass dt) = true) ∧ (u = s.pass dt) ∧ (txHeld s = some r) ∧ (txRefusal u r busy = none) ∧ (subOf u r.freq r.span = some i) ∧ ((stEntry s r.state).isSome = true)) ∧
    (∃ (r : TxReq) (busy : Bool) (lbt : Bool) (o : Nat) (dt : Nat) (s : State), (txHoldReleaseOk lbt (s.pass dt) = true) ∧ (txHeld s = some r) ∧ (txRefusal (s.pass dt) r busy = some o)) ∧
    (∃ (r : TxReq) (dt : Nat) (s : State), (txAbandonOk (s.pass dt) = true) ∧ (txHeld s = some r)) ∧
    (∃ (rl : Nat) (fwd : Nat) (ser : Nat) (shu : Nat) (low : Bool) (x : Tx) (dt : Nat) (s : State), (txFrameEndOk (s.pass dt) = true) ∧ (s.rfe.tx = some x)) ∧
    (∃ (rl : Nat) (fwd : Nat) (x : Tx) (dt : Nat) (s : State), (mismatchFaultOk rl (s.pass dt) = true) ∧ (s.rfe.tx = some x) ∧ (s.rfe.ports.length = 2)) :=
  ⟨⟨req0, false, true, 0, 5, rfIn 5, ((rfIn 5)).pass 5, by decide +kernel⟩,
   ⟨req0, false, true, 8, 5, st [(Reg.RFE_VPA, 2999)] (rfIn 5), calAbandon (((st [(Reg.RFE_VPA, 2999)] (rfIn 5))).pass 5), by decide +kernel⟩,
   ⟨{ req0 with t := 0 }, false, true, 5, rfIn 5, ((rfIn 5)).pass 5, by decide +kernel⟩,
   ⟨req0, false, false, 5, rfIn 5, ((rfIn 5)).pass 5, by decide +kernel⟩,
   ⟨req0, false, true, 0, 5, { rfIn 5 with rfe := { Rfe.reset with tx := some (tx0 .held req0) } }, (({ rfIn 5 with rfe := { Rfe.reset with tx := some (tx0 .held req0) } })).pass 5, by decide +kernel⟩,
   ⟨req0, false, true, 8, 5, { st [(Reg.RFE_VPA, 2999)] (rfIn 5) with rfe := { Rfe.reset with tx := some (tx0 .held req0) } }, by decide +kernel⟩,
   ⟨{ req0 with t := 0 }, 5, { rfIn 5 with rfe := { Rfe.reset with tx := some (tx0 .held { req0 with t := 0 }) } }, by decide +kernel⟩,
   ⟨100, 5, 0, 0, false, tx0 .onAir req0, 5, { rfIn 6 with rfe := { Rfe.reset with tx := some (tx0 .onAir req0) } }, by decide +kernel⟩,
   ⟨13, 5, tx0 .onAir req0, 5, { rfIn 6 with rfe := { Rfe.reset with tx := some (tx0 .onAir req0) } }, by decide +kernel⟩⟩
/-- The hypotheses of ReceiverLanesAndFrames, clause by clause. -/
theorem witness_ReceiverLanesAndFrames :
    (∃ (i : Nat) (q : Nat) (dt : Nat) (s : State), (laneCalibrationOk i (s.pass dt) = true) ∧ (s.rxc.lanes.length = 9) ∧ (128 ≤ q ∨ (lane s i).low = false)) ∧
    (∃ (i : Nat) (q : Nat) (dt : Nat) (s : State), (laneCalibrationOk i (s.pass dt) = true) ∧ (s.rxc.lanes.length = 9) ∧ (128 ≤ q ∨ (lane s i).low = false)) ∧
    (∃ (i : Nat) (q : Nat) (conv : Bool) (dt : Nat) (s : State), (laneCalibrationOk i (s.pass dt) = true) ∧ (conv = false ∨ (q < 128 ∧ (lane s i).low = true))) ∧
    (∃ (i : Nat) (q : Nat) (conv : Bool) (dt : Nat) (s : State), (laneCalibrationOk i (s.pass dt) = true) ∧ (conv = false ∨ (q < 128 ∧ (lane s i).low = true))) ∧
    (∃ (i : Nat) (dt : Nat) (s : State), (laneExchangeOk i (s.pass dt) = true) ∧ (s.rd Reg.RXC_STAT_MODE ≠ 2)) ∧
    (∃ (i : Nat) (dt : Nat) (s : State), (laneExchangeOk i (s.pass dt) = true) ∧ (s.rd Reg.RXC_STAT_MODE = 2)) ∧
    (∃ (ps : Nat) (pw : Nat) (dt : Nat) (s : State), (clipOverloadOk ps pw (s.pass dt) = true)) ∧
    (∃ (ps : Nat) (pw : Nat) (dt : Nat) (s : State), (clipOverloadOk ps pw (s.pass dt) = true)) ∧
    (∃ (p : Nat) (dt : Nat) (s : State), (gainStepUpOk p (s.pass dt) = true)) ∧
    (∃ (dt : Nat) (s : State), (s.rd Reg.RXC_STAT_MODE ≠ 0)) ∧
    (∃ (d : Nat) (b : Busy) (r : RxIn) (dt : Nat) (s : State), (frameDecodedOk d r (s.pass dt) = true) ∧ (dec s d = .busy b) ∧ (r.fcsOk = true)) ∧
    (∃ (d : Nat) (r : RxIn) (room : Bool) (dt : Nat) (s : State), (frameDecodedOk d r (s.pass dt) = true) ∧ (r.fcsOk = false)) ∧
    (∃ (d : Nat) (r : RxIn) (dt : Nat) (s : State), (frameDecodedOk d r (s.pass dt) = true) ∧ (r.fcsOk = true)) ∧
    (∃ (d : Nat) (dt : Nat) (s : State), (sfdTimeoutOk d (s.pass dt) = true)) ∧
    (∃ (d : Nat) (reason : Nat) (dt : Nat) (s : State), (decodeAbandonOk d reason (s.pass dt) = true)) :=
  ⟨⟨8, 300, 5, st [(Reg.RXC_LANE_SPARE, 8)] (rx 1), by decide +kernel⟩,
   ⟨0, 5, 5, st [(Reg.RXC_LANE_SPARE, 15)] (rx 3), by decide +kernel⟩,
   ⟨8, 300, false, 5, st [(Reg.RXC_LANE_SPARE, 8)] (rx 1), by decide +kernel⟩,
   ⟨8, 127, true, 5, st [(Reg.RXC_LANE_SPARE, 8)] (rxWith (fun x => { x with lanes := x.lanes.map (fun l => { l with low := true }) }) 1), by decide +kernel⟩,
   ⟨3, 5, st [(Reg.RXC_LANE_SPARE, 8)] { rxWith (fun x => { x with lanes := x.lanes.map (fun l => { l with ready := true }) }) 1 with elapsed := cycS 100 }, by decide +kernel⟩,
   ⟨3, 5, st [(Reg.RXC_LANE_NLANE, 3)] { rxWith (fun x => { x with lanes := x.lanes.map (fun l => { l with ready := true }) }) 2 with elapsed := cycS 100 }, by decide +kernel⟩,
   ⟨4, 9, 5, rxWith (fun x => { x with decs := x.decs.set 3 (.busy busy0) }) 1, by decide +kernel⟩,
   ⟨9, 4, 5, rxWith (fun x => { x with decs := x.decs.set 3 (.busy busy0) }) 1, by decide +kernel⟩,
   ⟨1, 5, st [(Reg.RXC_STAT_GAINW, 3)] (rx 1), by decide +kernel⟩,
   ⟨5, rx 1, by decide +kernel⟩,
   ⟨31, busy0, rxIn0 true, 5, rxWith (fun x => { x with decs := x.decs.set 31 (.busy busy0) }) 1, by decide +kernel⟩,
   ⟨31, rxIn0 false, true, 5, rxWith (fun x => { x with decs := x.decs.set 31 (.busy busy0) }) 1, by decide +kernel⟩,
   ⟨31, rxIn0 true, 5, rxWith (fun x => { x with decs := x.decs.set 31 (.busy busy0) }) 1, by decide +kernel⟩,
   ⟨31, 5, rxWith (fun x => { x with decs := x.decs.set 31 (.busy busy0) }) 1, by decide +kernel⟩,
   ⟨31, 3, 5, rxWith (fun x => { x with decs := x.decs.set 31 (.busy busy0) }) 1, by decide +kernel⟩⟩
/-- The hypotheses of ReceiverCandidates, clause by clause. -/
theorem witness_ReceiverCandidates :
    (∃ (w : Nat) (bin : Nat) (mode : Nat) (energy : Nat) (dt : Nat) (s : State), (preambleDetectOk w bin mode (s.pass dt) = true)) ∧
    (∃ (w : Nat) (bin : Nat) (mode : Nat) (energy : Nat) (dt : Nat) (s : State), (preambleDetectOk w bin mode (s.pass dt) = true) ∧ (s.rxc.cands.any (candMerges (s.pass dt) w bin mode) = true)) ∧
    (∃ (w : Nat) (bin : Nat) (mode : Nat) (energy : Nat) (dt : Nat) (s : State), (preambleDetectOk w bin mode (s.pass dt) = true) ∧ (s.rxc.cands.any (candMerges (s.pass dt) w bin mode) = false) ∧ (s.rxc.cands.length < 64)) ∧
    (∃ (w : Nat) (bin : Nat) (mode : Nat) (energy : Nat) (dt : Nat) (s : State), (preambleDetectOk w bin mode (s.pass dt) = true) ∧ (s.rxc.cands.any (candMerges (s.pass dt) w bin mode) = false) ∧ (s.rxc.cands.length = 64)) ∧
    (∃ (i : Nat) (dt : Nat) (s : State), (candidateExpiryOk i (s.pass dt) = true)) ∧
    (∃ (dt : Nat) (s : State), (allocationOk (s.pass dt) = true) ∧ (s.rxc.decs.length = 32)) ∧
    (∃ (dt : Nat) (s : State), (allocationOk (s.pass dt) = true) ∧ (s.rxc.decs.length = 32)) ∧
    (∃ (i : Nat) (d : Nat) (r : Rsv) (dt : Nat) (s : State), (reservationStartOk i (s.pass dt) = true) ∧ (s.rxc.decs.length = 32) ∧ (s.rxc.rsvs[i]? = some r) ∧ ((List.range (poolSize s)).find? (fun d => (dec s d).isFree) = some d)) ∧
    (∃ (i : Nat) (r : Rsv) (dt : Nat) (s : State), (reservationStartOk i (s.pass dt) = true) ∧ (s.rxc.rsvs[i]? = some r) ∧ (∀ d, d < poolSize s → (dec s d).isFree = false)) ∧
    (∃ (d : Nat) (r : Rsv) (dt : Nat) (s : State), (reservationLapseOk d (s.pass dt) = true) ∧ (dec s d = .reserved r) ∧ (r.until_ ≤ (s.pass dt).now)) ∧
    (∃ (d : Nat) (dt : Nat) (s : State), (reservationLapseOk d (s.pass dt) = true) ∧ (∀ r, dec s d = .reserved r → (s.pass dt).now < r.until_)) :=
  ⟨⟨0, 256, 0x40, 120, 5, rxWith (fun x => { x with cands := [cand0 256, cand0 250] }) 1, by decide +kernel⟩,
   ⟨0, 256, 0x40, 120, 5, rxWith (fun x => { x with cands := [cand0 256, cand0 240] }) 1, by decide +kernel⟩,
   ⟨0, 256, 0x40, 120, 5, rxWith (fun x => { x with cands := (List.range 63).map (fun _ => cand0 240) }) 1, by decide +kernel⟩,
   ⟨0, 256, 0x40, 120, 5, rxWith (fun x => { x with cands := (List.range 64).map (fun _ => cand0 240) }) 1, by decide +kernel⟩,
   ⟨1, cycUs 128, rxWith (fun x => { x with cands := [cand0 256, cand0 250] }) 1, by decide +kernel⟩,
   ⟨5, rxWith (fun x => { x with cands := [cand0 256, cand0 250], decs := x.decs.set 0 (.busy busy0) }) 1, by decide +kernel⟩,
   ⟨5, rxWith (fun x => { x with cands := (List.range 40).map cand0 }) 2, by decide +kernel⟩,
   ⟨0, 1, rsv0 9, 5, rxWith (fun x => { x with rsvs := [rsv0 9], decs := x.decs.set 0 (.busy busy0) }) 1, by decide +kernel⟩,
   ⟨0, rsv0 9, 5, rxWith (fun x => { x with rsvs := [rsv0 9], decs := List.replicate 32 (.busy busy0) }) 1, by decide +kernel⟩,
   ⟨31, rsv0 9, 5, rxWith (fun x => { x with rsvWait := [rsv0 8, rsv0 (2 ^ 200)], decs := x.decs.set 31 (.reserved (rsv0 9)) }) 1, by decide +kernel⟩,
   ⟨31, 5, rxWith (fun x => { x with rsvWait := [rsv0 8, rsv0 (2 ^ 200)] }) 1, by refine ⟨by decide +kernel, ?_⟩; intro r h; exact nomatch (show Dec.free = Dec.reserved r from h)⟩⟩
/-- The hypotheses of LinkBeaconsAndJoining, clause by clause. -/
theorem witness_LinkBeaconsAndJoining :
    (∃ (m : Nat) (dt : Nat) (s : State), (beaconTxOk m (s.pass dt) = true) ∧ (s.rd Reg.MIR_STAT_ROLE = 0) ∧ (s.mir.switch = none)) ∧
    (∃ (dt : Nat) (s : State), (beaconMissOk (s.pass dt) = true)) ∧
    (∃ (dt : Nat) (s : State), (beaconMissOk (s.pass dt) = true)) ∧
    (∃ (b : Beacon) (dt : Nat) (s : State), (parentReselectOk (s.pass dt) = true) ∧ (reselectPick (s.pass dt) = some b)) ∧
    (∃ (i : Nat) (dt : Nat) (d : Dropped) (s : State), (resumeBeaconOk i (s.pass dt) = true) ∧ (s.lnk.dropped[i]? = some d) ∧ (d.beacons = 1)) ∧
    (∃ (i : Nat) (dt : Nat) (d : Dropped) (s : State), (resumeBeaconOk i (s.pass dt) = true) ∧ (s.lnk.dropped[i]? = some d) ∧ (1 < d.beacons) ∧ ((sendEpoch (s.pass dt)).isSome = true) ∧ (s.rd Reg.MIR_STAT_ROLE = 0) ∧ (s.mir.switch = none)) ∧
    (∃ (i : Nat) (dt : Nat) (s : State), (childRecordExpiryOk i (s.pass dt) = true)) ∧
    (∃ (t0 : Nat) (dt : Nat) (b : Beacon) (s : State), (joinReqSendOk t0 (s.pass dt) = true) ∧ (joinTarget (s.pass dt) = some b) ∧ (s.rd Reg.MIR_STAT_ROLE = 0) ∧ (s.mir.switch = none)) ∧
    (∃ (dt : Nat) (a : Attempt) (s : State), (joinTimeoutOk (s.pass dt) = true) ∧ (s.lnk.join = some a) ∧ (a.tries ≤ 4)) ∧
    (∃ (dt : Nat) (a : Attempt) (s : State), (joinTimeoutOk (s.pass dt) = true) ∧ (s.lnk.join = some a) ∧ (4 < a.tries)) ∧
    (∃ (t0 : Nat) (dt : Nat) (a : Attempt) (s : State), (connReqSendOk t0 (s.pass dt) = true) ∧ (s.lnk.connect = some a) ∧ (s.rd Reg.MIR_STAT_ROLE = 0) ∧ (s.mir.switch = none)) ∧
    (∃ (dt : Nat) (a : Attempt) (s : State), (connectRetryOk (s.pass dt) = true) ∧ (s.lnk.connect = some a) ∧ (a.tries ≤ 4)) ∧
    (∃ (dt : Nat) (a : Attempt) (s : State), (connectRetryOk (s.pass dt) = true) ∧ (s.lnk.connect = some a) ∧ (4 < a.tries)) ∧
    (∃ (dt : Nat) (r : Recover) (s : State), (driftRecoveryListenOk (s.pass dt) = true) ∧ (s.lnk.recover = some r)) :=
  ⟨⟨(up.now - (5 * 40503 % 128) * 2 ^ 20) / 2 ^ 27 + 1, 5, joined id, by decide +kernel⟩,
   ⟨5, { joined id with netCfg := setBytes factoryCfg 393 [0x40] }, by decide +kernel⟩,
   ⟨5, { st [(Reg.LNK_STAT_BMISS, 2)] (joined id) with netCfg := setBytes factoryCfg 393 [0x40] }, by decide +kernel⟩,
   ⟨bcn0 9, 5, st [(Reg.LNK_STAT_BLOST, 1)] { joined (fun l => { l with lostAt := some 5, cands := [bcn0 9, { bcn0 8 with pcost := 99 }] }) with elapsed := cycS 100 }, by decide +kernel⟩,
   ⟨1, 5, drop0 1, joined (fun l => { l with dropped := [drop0 2, drop0 1] }), by decide +kernel⟩,
   ⟨0, 5, drop0 2, joined (fun l => { l with dropped := [drop0 2, drop0 1] }), by decide +kernel⟩,
   ⟨1, cycS 600, joined (fun l => { l with dropped := [drop0 2, drop0 1] }), by decide +kernel⟩,
   ⟨2 ^ 80, 5, bcn0 7, st [(Reg.LNK_STAT_JOINED, 0)] (joined (fun l => { l with joinKey := some (List.range 16), networks := [0], cands := [bcn0 7] })), by decide +kernel⟩,
   ⟨cycS 10, att0 4 (some 5), joined (fun l => { l with join := some (att0 4 (some 5)) }), by decide +kernel⟩,
   ⟨cycS 10, att0 5 (some 5), joined (fun l => { l with join := some (att0 5 (some 5)), cands := [bcn0 7, bcn0 8] }), by decide +kernel⟩,
   ⟨2 ^ 80, 5, att0 1 none, joined (fun l => { l with connect := some (att0 1 none), cands := [bcn0 7, bcn0 8] }), by decide +kernel⟩,
   ⟨cycMs 2, att0 4 (some 5), joined (fun l => { l with connect := some (att0 4 (some 5)) }), by decide +kernel⟩,
   ⟨cycMs 2, att0 5 (some 5), joined (fun l => { l with connect := some (att0 5 (some 5)), cands := [bcn0 7, bcn0 8] }), by decide +kernel⟩,
   ⟨5, ⟨7, 1, 0, 3, false⟩, joined (fun l => { l with recover := some ⟨7, 1, 0, 3, false⟩ }), by decide +kernel⟩⟩
/-- The hypotheses of LinkConnections, clause by clause. -/
theorem witness_LinkConnections :
    (∃ (id : Nat) (dt : Nat) (c : Conn) (s : State), (connectionEventOk id 0 (s.pass dt) = true) ∧ (connOf s id = some c)) ∧
    (∃ (id : Nat) (dt : Nat) (c : Conn) (s : State), (connectionEventOk id 0 (s.pass dt) = true) ∧ (connOf s id = some c)) ∧
    (∃ (id : Nat) (phase : Nat) (dt : Nat) (lost : Bool) (c : Conn) (s : State), (connectionEventOk id phase (s.pass dt) = true) ∧ (phase ≠ 0) ∧ (connOf s id = some c)) ∧
    (∃ (id : Nat) (phase : Nat) (dt : Nat) (lost : Bool) (c : Conn) (s : State), (connectionEventOk id phase (s.pass dt) = true) ∧ (phase ≠ 0) ∧ (connOf s id = some c)) ∧
    (∃ (id : Nat) (dt : Nat) (c : Conn) (s : State), (establishTimeoutOk id (s.pass dt) = true) ∧ (connOf s id = some c)) ∧
    (∃ (id : Nat) (dt : Nat) (c : Conn) (s : State), (supervisionTimeoutOk id (s.pass dt) = true) ∧ (connOf s id = some c)) ∧
    (∃ (id : Nat) (dt : Nat) (c : Conn) (s : State), (supervisionTimeoutOk id (s.pass dt) = true) ∧ (connOf s id = some c)) ∧
    (∃ (p : Nat) (dt : Nat) (s : State), (sequencerFaultOk p (s.pass dt) = true) ∧ (5 + p < s.cores.length)) :=
  ⟨⟨9, 5, conn0 9, joined (fun l => { l with conns := [conn0 8, conn0 9] }), by decide +kernel⟩,
   ⟨9, 5, conn0 9, joined (fun l => { l with conns := [conn0 8, conn0 9] }), by decide +kernel⟩,
   ⟨9, 2, 5, true, { conn0 9 with open_ := true }, joined (fun l => { l with conns := [conn0 8, { conn0 9 with open_ := true }] }), by decide +kernel⟩,
   ⟨9, 1, 5, true, { conn0 9 with open_ := true, got := true }, joined (fun l => { l with conns := [conn0 8, { conn0 9 with open_ := true, got := true }] }), by decide +kernel⟩,
   ⟨9, 5, { conn0 9 with up := false }, joined (fun l => { l with conns := [conn0 8, { conn0 9 with up := false }] }), by decide +kernel⟩,
   ⟨9, 5, conn0 9, joined (fun l => { l with conns := [conn0 8, conn0 9] }), by decide +kernel⟩,
   ⟨9, 5, { conn0 9 with residuals := [5, -3, 2] }, joined (fun l => { l with conns := [conn0 8, { conn0 9 with residuals := [5, -3, 2] }] }), by decide +kernel⟩,
   ⟨8, 5, st [(Reg.LNK_SEQ_SPARE, 3), (slotField 7, 8)] (joined id), by decide +kernel⟩⟩
/-- The hypotheses of LinkWaking, clause by clause. -/
theorem witness_LinkWaking :
    (∃ (peer : Nat) (t0 : Nat) (dt : Nat) (f : Nat) (s : State), (wakePatternSendOk peer t0 (s.pass dt) = true) ∧ (wakeCarrier s = some f) ∧ (s.rd Reg.MIR_STAT_ROLE = 0) ∧ (s.mir.switch = none)) ∧
    (∃ (w : WakeTry) (dt : Nat) (s : State), (wakeConnFrameOk (s.pass dt) = true) ∧ (s.lnk.wake = some w) ∧ (w.left = 0) ∧ (w.op = none)) ∧
    (∃ (w : WakeTry) (m : Nat) (tag : Nat) (dt : Nat) (s : State), (wakeConnFrameOk (s.pass dt) = true) ∧ (s.lnk.wake = some w) ∧ (w.left = 0) ∧ (w.op = some (m, tag))) ∧
    (∃ (w : WakeTry) (dt : Nat) (s : State), (wakeConnFrameOk (s.pass dt) = true) ∧ (s.lnk.wake = some w) ∧ (0 < w.left) ∧ (s.rd Reg.MIR_STAT_ROLE = 0) ∧ (s.mir.switch = none)) ∧
    (∃ (w : Nat) (dt : Nat) (s : State), (wakeMatchOk w (s.pass dt) = true)) ∧
    (∃ (w : Nat) (dt : Nat) (s : State), (wakeMatchOk w (s.pass dt) = true)) ∧
    (∃ (dt : Nat) (n : Nat) (s : State), (wakeRestoreOk (s.pass dt) = true) ∧ (n = 5 ∨ n = 6 ∨ n = 11) ∧ ((riseOf s n).isSome = true)) ∧
    (∃ (dt : Nat) (n : Nat) (s : State), (wakeRestoreOk (s.pass dt) = true) ∧ (n = 5 ∨ n = 6 ∨ n = 11) ∧ ((riseOf s n).isSome = true)) ∧
    (∃ (dt : Nat) (s : State), (tcxoStableOk (s.pass dt) = true)) ∧
    (∃ (dt : Nat) (s : State), (falseWakeOk (s.pass dt) = true)) ∧
    (∃ (dt : Nat) (s : State), (leafWakeTimerOk (s.pass dt) = true)) :=
  ⟨⟨7, 2 ^ 80, 5, 915000, joined (fun l => { l with waddrs := [(7, 0x123456)], dropped := [{ drop0 3 with pattern := true }] }), by decide +kernel⟩,
   ⟨⟨9, 0, 5, none⟩, 5, joined (fun l => { l with conns := [conn0 8, conn0 9], wake := some ⟨9, 0, 5, none⟩ }), by decide +kernel⟩,
   ⟨⟨9, 0, 5, some (1, 77)⟩, 1, 77, 5, joined (fun l => { l with conns := [conn0 8, conn0 9], wake := some ⟨9, 0, 5, some (1, 77)⟩ }), by decide +kernel⟩,
   ⟨⟨9, 8, 5, none⟩, 5, joined (fun l => { l with conns := [conn0 8, conn0 9], wake := some ⟨9, 8, 5, none⟩ }), by decide +kernel⟩,
   ⟨0x123457, 5, st [(Reg.WUR_STAT_EN, 1), (Reg.WUR_STAT_TOL, 1)] (joined (fun l => { l with waddr := 0x123456 })), by decide +kernel⟩,
   ⟨0x123456, 5, st [(Reg.WUR_STAT_EN, 1), (Reg.BKP_SET0_PROFILE, 1)] (joined (fun l => { l with gaddr := 0x123456 })), by decide +kernel⟩,
   ⟨5, 5, { joined (fun l => { l with wakeAt := some 5 }) with pwr := { up.pwr with rise := [⟨6, 0, 0, false⟩, ⟨5, 0, 0, false⟩] } }, by decide +kernel⟩,
   ⟨5, 11, { joined (fun l => { l with wakeAt := some 5 }) with pwr := { up.pwr with rise := [⟨11, 0, 0, false⟩] } }, by decide +kernel⟩,
   ⟨5, { joined (fun l => { l with wakeAt := some 5 }) with firn := { up.firn with coasting := true } }, by decide +kernel⟩,
   ⟨cycMs 50, joined (fun l => { l with wakeAt := some 5 }), by decide +kernel⟩,
   ⟨5, { st [(Reg.BKP_SET0_PROFILE, 1)] (joined (fun l => { l with conns := [conn0 8, conn0 9] })) with pwr := { up.pwr with awake := false } }, by decide +kernel⟩⟩
/-- The hypotheses of LinkFrameChecks, clause by clause. -/
theorem witness_LinkFrameChecks :
    (∃ (full : Bool) (r : RxRec) (rest : List RxRec) (dt : Nat) (s : State), (s.rxc.ring = r :: rest) ∧ (frameFormOk s r.psdu = false)) ∧
    (∃ (full : Bool) (r : RxRec) (rest : List RxRec) (dt : Nat) (s : State), (s.rxc.ring = r :: rest) ∧ (frameFormOk s r.psdu = false)) ∧
    (∃ (full : Bool) (r : RxRec) (rest : List RxRec) (dt : Nat) (s : State), (s.rxc.ring = r :: rest) ∧ (frameFormOk s r.psdu = true) ∧ (frameNetOk s r.psdu = false)) ∧
    (∃ (full : Bool) (r : RxRec) (rest : List RxRec) (dt : Nat) (s : State), (s.rxc.ring = r :: rest) ∧ (frameFormOk s r.psdu = true) ∧ (frameNetOk s r.psdu = true) ∧ ((isJoined s = true ∧ fcType r.psdu = 0) ∨ 3 ≤ fcType r.psdu) ∧ (micOk s none r.psdu = false)) ∧
    (∃ (full : Bool) (r : RxRec) (rest : List RxRec) (dt : Nat) (s : State), (s.rxc.ring = r :: rest) ∧ (frameFormOk s r.psdu = true) ∧ (frameNetOk s r.psdu = true) ∧ (fcType r.psdu = 1) ∧ (r.psdu.length ≤ meshMax) ∧ (seenHas s (msgId (leAt r.psdu 5 2) (leAt r.psdu 7 3)) = true) ∧ (s.msh.relays = [])) ∧
    (∃ (full : Bool) (r : RxRec) (rest : List RxRec) (dt : Nat) (s : State), (s.rxc.ring = r :: rest) ∧ (frameFormOk s r.psdu = true) ∧ (frameNetOk s r.psdu = true) ∧ (fcType r.psdu = 1) ∧ (r.psdu.length ≤ meshMax) ∧ (seenHas s (msgId (leAt r.psdu 5 2) (leAt r.psdu 7 3)) = false) ∧ (micOk s none r.psdu = false)) ∧
    (∃ (full : Bool) (r : RxRec) (rest : List RxRec) (dt : Nat) (s : State), (s.rxc.ring = r :: rest) ∧ (frameFormOk s r.psdu = true) ∧ (frameNetOk s r.psdu = true) ∧ (fcType r.psdu = 2) ∧ (connPeer s (leAt r.psdu 4 2) = none)) ∧
    (∃ (full : Bool) (r : RxRec) (rest : List RxRec) (dt : Nat) (s : State), (s.rxc.ring = r :: rest) ∧ (frameFormOk s r.psdu = true) ∧ (isJoined s = false) ∧ (fcType r.psdu = 0) ∧ (leAt r.psdu 4 2 ≠ parentOf s)) :=
  ⟨⟨true, rec0 (frame0 7 60), [rec0 [1]], 5, ring0 (frame0 7 60) (joined id), by decide +kernel⟩,
   ⟨true, rec0 (frame0 0 25), [rec0 [1]], 5, ring0 (frame0 0 25) (joined id), by decide +kernel⟩,
   ⟨true, rec0 (frame0 0 29), [rec0 [1]], 5, ring0 (frame0 0 29) (st [(Reg.LNK_PARENT_NETID, 9)] (joined id)), by decide +kernel⟩,
   ⟨true, rec0 (frame0 0 29), [rec0 [1]], 5, ring0 (frame0 0 29) (joined id), by decide +kernel⟩,
   ⟨true, rec0 (frame0 1 29), [rec0 [1]], 5, { ring0 (frame0 1 29) (joined id) with msh := { Msh.reset with seen := [⟨msgId 0 0, 0⟩] } }, by decide +kernel⟩,
   ⟨true, rec0 (frame0 1 29), [rec0 [1]], 5, ring0 (frame0 1 29) (joined id), by decide +kernel⟩,
   ⟨true, rec0 (frame0 2 29), [rec0 [1]], 5, ring0 (frame0 2 29) (joined id), by decide +kernel⟩,
   ⟨true, rec0 (frame0 0 29), [rec0 [1]], 5, ring0 (frame0 0 29) (st [(Reg.LNK_STAT_JOINED, 0)] (joined id)), by decide +kernel⟩⟩
/-- The hypotheses of MeshTimers, clause by clause. -/
theorem witness_MeshTimers :
    (∃ (i : Nat) (dt : Nat) (r : Relay) (s : State), (relayBackoffOk i (s.pass dt) = true) ∧ (s.msh.relays[i]? = some r) ∧ (cfgN s 10 1 ≤ r.dups)) ∧
    (∃ (i : Nat) (dt : Nat) (b : Nat) (r : Relay) (s : State), (relayBackoffOk i (s.pass dt) = true) ∧ (s.msh.relays[i]? = some r) ∧ (r.dups < cfgN s 10 1) ∧ (s.msh.ports.length = 4) ∧ (b < 2) ∧ (floodBand s b = true) ∧ (2 * cdiv r.psdu.length 128 + 128 ≤ cellsFree s) ∧ (∀ p q, p < 2 → ((egress s p).frames.filter (fun f => f.queue == q)).length < cfgN s 18 1)) ∧
    (∃ (p : Nat) (i : Nat) (dt : Nat) (s : State), (relayDeadlineOk p i (s.pass dt) = true) ∧ (p < s.msh.ports.length)) ∧
    (∃ (i : Nat) (dt : Nat) (s : State), (seenExpiryOk i (s.pass dt) = true)) ∧
    (∃ (i : Nat) (dt : Nat) (s : State), (routeExpiryOk i (s.pass dt) = true)) ∧
    (∃ (dt : Nat) (s : State), (queueAgeScanOk (s.pass dt) = true)) ∧
    (∃ (p : Nat) (t0 : Nat) (dt : Nat) (f : QFrame) (s : State), (p < 2) ∧ (frameSelectOk p t0 (s.pass dt) = true) ∧ ((selectFrame p .bcast (s.pass dt)).1 = some f) ∧ (s.rd Reg.MIR_STAT_ROLE = 0) ∧ (s.mir.switch = none)) ∧
    (∃ (p : Nat) (t0 : Nat) (dt : Nat) (s : State), (p < 2) ∧ (frameSelectOk p t0 (s.pass dt) = true)) ∧
    (∃ (p : Nat) (t0 : Nat) (dt : Nat) (gap : Bool) (s : State) (u : State), (p = 2 ∨ p = 3) ∧ (frameSelectOk p t0 (s.pass dt) = true) ∧ (s.wpt.length = 2) ∧ (u = (selectFrame p .wired (s.pass dt)).2) ∧ ((selectFrame p .wired (s.pass dt)).1.isSome = true ∨ (selectFrame 0 .up u).1.isSome = true ∨ (selectFrame 1 .up (selectFrame 0 .up u).2).1.isSome = true)) ∧
    (∃ (p : Nat) (t0 : Nat) (dt : Nat) (gap : Bool) (s : State) (u : State), (p = 2 ∨ p = 3) ∧ (frameSelectOk p t0 (s.pass dt) = true) ∧ (s.wpt.length = 2) ∧ (u = (selectFrame p .wired (s.pass dt)).2) ∧ ((selectFrame p .wired (s.pass dt)).1.isSome = true ∨ (selectFrame 0 .up u).1.isSome = true ∨ (selectFrame 1 .up (selectFrame 0 .up u).2).1.isSome = true)) :=
  ⟨⟨1, 5, relay0 3 5, { joined id with msh := { Msh.reset with relays := [relay0 0 9, relay0 3 5] } }, by decide +kernel⟩,
   ⟨1, 5, 1, relay0 2 5, { st [(Reg.MSH_STAT_FLOODBAND, 2)] (joined id) with msh := { Msh.reset with relays := [relay0 0 9, relay0 2 5] } }, by refine ⟨by decide +kernel, by decide +kernel, by decide +kernel, by decide +kernel, by decide +kernel, by decide +kernel, by decide +kernel, ?_⟩; intro p q hp; have h : p = 0 ∨ p = 1 := (by omega); rcases h with rfl | rfl <;> (change 0 < cfgN _ 18 1; decide +kernel)⟩,
   ⟨3, 1, 5, egr 3 [qf .bcast 1 none, qf .bcast 2 (some 7)] (joined id), by decide +kernel⟩,
   ⟨1, 5, { joined id with elapsed := cycS 99999, msh := { Msh.reset with seen := [⟨4, 5⟩, ⟨6, 9⟩] } }, by decide +kernel⟩,
   ⟨1, 5, { joined id with elapsed := cycS 99999, msh := { Msh.reset with routes := [⟨9, .wired 0, 0⟩, ⟨5, .conn 0, 0⟩] } }, by decide +kernel⟩,
   ⟨5, { egr 1 [qf .bcast 1 none, qf .bcast 2 (some 7)] (joined id) with elapsed := cycS 99999 }, by decide +kernel⟩,
   ⟨1, 2 ^ 80, 5, qf .bcast 2 none, egr 1 [qf .bcast 2 none] (joined id), by decide +kernel⟩,
   ⟨1, 2 ^ 80, 5, egr 1 [qf .bcast 2 none] (joined id), by decide +kernel⟩,
   ⟨3, 0, 5, true, egr 3 [qf .wired 2 none] (linked 1 id), (selectFrame 3 .wired (((egr 3 [qf .wired 2 none] (linked 1 id))).pass 5)).2, by decide +kernel⟩,
   ⟨2, 0, 5, true, egr 1 [qf .up 2 none] { linked 0 id with msh := { Msh.reset with upWired := some 0 } }, (selectFrame 2 .wired (((egr 1 [qf .up 2 none] { linked 0 id with msh := { Msh.reset with upWired := some 0 } })).pass 5)).2, by decide +kernel⟩⟩
/-- The hypotheses of WiredLinks, clause by clause. -/
theorem witness_WiredLinks :
    (∃ (p : Nat) (dt : Nat) (both : Bool) (s : State), (negotiateOk p (s.pass dt) = true) ∧ (s.wpt.length = 2)) ∧
    (∃ (p : Nat) (dt : Nat) (both : Bool) (s : State), (negotiateOk p (s.pass dt) = true) ∧ (s.wpt.length = 2)) ∧
    (∃ (p : Nat) (mse : Nat) (dt : Nat) (polinv : Bool) (s : State), (trainOk p mse (s.pass dt) = true) ∧ (s.wpt.length = 2)) ∧
    (∃ (p : Nat) (dt : Nat) (s : State), (wiredPhaseTimeoutOk p (s.pass dt) = true) ∧ (s.wpt.length = 2) ∧ ((wport s p).phase ≠ 3)) ∧
    (∃ (p : Nat) (dt : Nat) (s : State), (wiredPhaseTimeoutOk p (s.pass dt) = true) ∧ (s.wpt.length = 2) ∧ ((wport s p).phase ≠ 3)) ∧
    (∃ (p : Nat) (dt : Nat) (s : State), (wiredPhaseTimeoutOk p (s.pass dt) = true) ∧ (s.wpt.length = 2) ∧ ((wport s p).phase = 3)) ∧
    (∃ (p : Nat) (dt : Nat) (s : State), (linkLossOk p (s.pass dt) = true) ∧ (s.wpt.length = 2)) ∧
    (∃ (p : Nat) (dt : Nat) (s : State), (wiredBeaconSilenceOk p (s.pass dt) = true) ∧ (s.wpt.length = 2)) ∧
    (∃ (p : Nat) (m : Nat) (dt : Nat) (s : State), (mseMeasurementOk p (s.pass dt) = true) ∧ (s.wpt.length = 2) ∧ (64 ≤ m)) ∧
    (∃ (p : Nat) (m : Nat) (dt : Nat) (s : State), (mseMeasurementOk p (s.pass dt) = true) ∧ (s.wpt.length = 2) ∧ (64 ≤ m)) ∧
    (∃ (p : Nat) (m : Nat) (dt : Nat) (s : State), (mseMeasurementOk p (s.pass dt) = true) ∧ (s.wpt.length = 2) ∧ (m < 64) ∧ ((wport s p).bad < 49)) ∧
    (∃ (p : Nat) (m : Nat) (dt : Nat) (s : State), (mseMeasurementOk p (s.pass dt) = true) ∧ (s.wpt.length = 2) ∧ (m < 64) ∧ (49 ≤ (wport s p).bad)) :=
  ⟨⟨1, 5, true, joined id, by decide +kernel⟩,
   ⟨0, 5, false, wp 0 (fun w => { w with phase := 1 }) (joined id), by decide +kernel⟩,
   ⟨1, 72, 5, true, wp 1 (fun w => { w with phase := 2 }) (joined id), by decide +kernel⟩,
   ⟨1, cycS 2, wp 1 (fun w => { w with phase := 2 }) (joined id), by decide +kernel⟩,
   ⟨0, cycS 2, wp 0 (fun w => { w with phase := 1 }) (joined id), by decide +kernel⟩,
   ⟨1, cycS 2, wp 1 (fun w => { w with phase := 3 }) (joined id), by decide +kernel⟩,
   ⟨1, 5, linked 1 (fun w => { w with phase := 4 }), by decide +kernel⟩,
   ⟨1, cycS 3, linked 1 (fun w => { w with phase := 4 }), by decide +kernel⟩,
   ⟨1, 64, 5, linked 1 (fun w => { w with phase := 4 }), by decide +kernel⟩,
   ⟨1, 300, 5, linked 1 (fun w => { w with phase := 4, bad := 9 }), by decide +kernel⟩,
   ⟨1, 63, 5, linked 1 (fun w => { w with phase := 4, bad := 48 }), by decide +kernel⟩,
   ⟨1, 63, 5, linked 1 (fun w => { w with phase := 4, bad := 49 }), by decide +kernel⟩⟩
/-- The hypotheses of WiredFrames, clause by clause. -/
theorem witness_WiredFrames :
    (∃ (p : Nat) (dt : Nat) (s : State), (wiredBeaconSendOk p (s.pass dt) = true) ∧ (s.wpt.length = 2)) ∧
    (∃ (p : Nat) (dt : Nat) (s : State), (wiredFrameSentOk p (s.pass dt) = true) ∧ (s.wpt.length = 2)) ∧
    (∃ (p : Nat) (dt : Nat) (f : List Nat) (full : Bool) (s : State), (wiredFrameReceiveOk p (s.pass dt) = true)) ∧
    (∃ (p : Nat) (dt : Nat) (f : List Nat) (full : Bool) (s : State), (wiredFrameReceiveOk p (s.pass dt) = true) ∧ ((f.drop 12).take 2 ≠ [0x88, 0xF7]) ∧ ((f.drop 12).take 2 ≠ [0x88, 0xB5] ∨ shimOk f = false)) ∧
    (∃ (p : Nat) (dt : Nat) (f : List Nat) (full : Bool) (s : State), (wiredFrameReceiveOk p (s.pass dt) = true) ∧ ((f.drop 12).take 2 ≠ [0x88, 0xF7]) ∧ ((f.drop 12).take 2 ≠ [0x88, 0xB5] ∨ shimOk f = false)) ∧
    (∃ (p : Nat) (dt : Nat) (f : List Nat) (full : Bool) (s : State), (wiredFrameReceiveOk p (s.pass dt) = true) ∧ (s.wpt.length = 2) ∧ ((f.drop 12).take 2 = [0x88, 0xF7]) ∧ (etherDestOk s f true = true) ∧ (leAt f 14 1 = 2) ∧ (leAt f 15 1 % 16 = 2) ∧ (leAt f 18 1 = 0) ∧ (68 ≤ f.length)) ∧
    (∃ (p : Nat) (dt : Nat) (s : State), (pdelayReqSendOk p (s.pass dt) = true) ∧ (s.wpt.length = 2)) ∧
    (∃ (p : Nat) (dt : Nat) (m : PtpIn) (s : State), (pdelayReqReceiveOk p (s.pass dt) = true) ∧ (s.wpt.length = 2) ∧ (ptpFirst s p 2 = some m)) ∧
    (∃ (p : Nat) (dt : Nat) (m : PtpIn) (s : State), (pdelayRespReceiveOk p (s.pass dt) = true) ∧ (s.wpt.length = 2) ∧ (ptpFirst s p 3 = some m)) ∧
    (∃ (p : Nat) (dt : Nat) (m : PtpIn) (s : State), (pdelayRespReceiveOk p (s.pass dt) = true) ∧ (s.wpt.length = 2) ∧ (ptpFirst s p 3 = some m)) ∧
    (∃ (p : Nat) (dt : Nat) (m : PtpIn) (s : State), (followUpReceiveOk p (s.pass dt) = true) ∧ (s.wpt.length = 2) ∧ (ptpFirst s p 0xA = some m) ∧ (ptpMatches s p m = false)) ∧
    (∃ (p : Nat) (dt : Nat) (m : PtpIn) (x : PdEx) (r : Nat × Nat) (s : State), (followUpReceiveOk p (s.pass dt) = true) ∧ (s.wpt.length = 2) ∧ (ptpFirst s p 0xA = some m) ∧ (ptpMatches s p m = true) ∧ ((wport s p).pd = some x) ∧ (x.resp = some r)) ∧
    (∃ (p : Nat) (dt : Nat) (s : State), (pdelayLostOk p (s.pass dt) = true) ∧ (s.wpt.length = 2)) :=
  ⟨⟨1, 5, linked 1 (fun w => { w with phase := 4, bseq := 255 }), by decide +kernel⟩,
   ⟨1, 5, linked 1 (fun w => { w with phase := 4, tx := some [1], txq := [[2], [3]] }), by decide +kernel⟩,
   ⟨1, 5, ptp0, true, linked 1 (fun w => { w with phase := 4 }), by decide +kernel⟩,
   ⟨1, 5, List.replicate 60 0, true, linked 1 (fun w => { w with phase := 4 }), by decide +kernel⟩,
   ⟨1, 5, List.replicate 12 0 ++ [0x88, 0xB5] ++ List.replicate 60 0, true, linked 1 (fun w => { w with phase := 4 }), by decide +kernel⟩,
   ⟨1, 5, ptp0, true, linked 1 (fun w => { w with phase := 4 }), by decide +kernel⟩,
   ⟨1, 5, linked 1 (fun w => { w with phase := 4, pdSeq := 65535 }), by decide +kernel⟩,
   ⟨1, 5, ⟨2, 9, [1], 5, 6⟩, linked 1 (fun w => { w with phase := 4, ptp := [⟨3, 9, [1], 5, 6⟩, ⟨2, 9, [1], 5, 6⟩] }), by decide +kernel⟩,
   ⟨1, 5, ⟨3, 9, [1], 5, 6⟩, linked 1 (fun w => { w with phase := 4, ptp := [⟨3, 9, [1], 5, 6⟩], pd := some ⟨9, 1, 2, none⟩ }), by decide +kernel⟩,
   ⟨1, 5, ⟨3, 9, ptpIdent (joined id) 1, 5, 6⟩, linked 1 (fun w => { w with phase := 4, ptp := [⟨3, 9, ptpIdent (joined id) 1, 5, 6⟩], pd := some ⟨9, 1, 2, none⟩ }), by decide +kernel⟩,
   ⟨1, 5, ⟨10, 9, [1], 5, 6⟩, linked 1 (fun w => { w with phase := 4, ptp := [⟨10, 9, [1], 5, 6⟩], pd := some ⟨9, 1, 2, none⟩ }), by decide +kernel⟩,
   ⟨1, 5, ⟨10, 9, ptpIdent (joined id) 1, 5, 6⟩, ⟨9, 1, 2, some (1, 2)⟩, (1, 2), linked 1 (fun w => { w with phase := 4, pdDone := 3, ptp := [⟨10, 9, ptpIdent (joined id) 1, 5, 6⟩], pd := some ⟨9, 1, 2, some (1, 2)⟩ }), by decide +kernel⟩,
   ⟨1, 5, linked 1 (fun w => { w with phase := 4, pdLost := 2, pd := some ⟨9, 1, 2, none⟩ }), by decide +kernel⟩⟩
/-- The hypotheses of MailboxRefusalsAndBuffers, clause by clause. -/
theorem witness_MailboxRefusalsAndBuffers :
    (∃ (c : Instr) (m : Nat) (id : Nat) (len : Nat) (st : Nat) (dt : Nat) (long : Bool) (s : State), (mbRequest c = some (m, id, len, long, dt)) ∧ (cmdOk m id s = true) ∧ (s.mboxes.length = 4) ∧ (mbRefusal s m (mbReq s m) ((mbReq s m).len == len) long = some st)) ∧
    (∃ (c : Instr) (m : Nat) (id : Nat) (len : Nat) (st : Nat) (dt : Nat) (long : Bool) (s : State), (mbRequest c = some (m, id, len, long, dt)) ∧ (cmdOk m id s = true) ∧ (s.mboxes.length = 4) ∧ (mbRefusal s m (mbReq s m) ((mbReq s m).len == len) long = some st)) ∧
    (∃ (m : Nat) (len : Nat) (long : Bool) (s : State), (240 < (mbReq s m).len ∨ (mbReq s m).len ≠ len)) ∧
    (∃ (m : Nat) (len : Nat) (long : Bool) (s : State), (240 < (mbReq s m).len ∨ (mbReq s m).len ≠ len)) ∧
    (∃ (m : Nat) (len : Nat) (long : Bool) (s : State), ((mbReq s m).len = len) ∧ (len ≤ 240) ∧ (1 < (mbReq s m).flags)) ∧
    (∃ (m : Nat) (len : Nat) (long : Bool) (s : State), ((mbReq s m).len = len) ∧ (len ≤ 240) ∧ ((mbReq s m).flags ≤ 1) ∧ ((mbReq s m).tag = 0)) ∧
    (∃ (m : Nat) (len : Nat) (long : Bool) (s : State), ((mbReq s m).len = len) ∧ (len ≤ 240) ∧ ((mbReq s m).flags ≤ 1) ∧ ((mbReq s m).tag ≠ 0) ∧ ((mbox s m).ops.any (fun o => o.tag == (mbReq s m).tag) = true)) ∧
    (∃ (m : Nat) (len : Nat) (s : State), ((mbReq s m).len = len) ∧ (len ≤ 240) ∧ ((mbReq s m).flags ≤ 1) ∧ ((mbReq s m).tag ≠ 0) ∧ ((mbox s m).ops.any (fun o => o.tag == (mbReq s m).tag) = false) ∧ (8 ≤ (mbox s m).ops.length)) ∧
    (∃ (m : Nat) (h : Nat) (n : Nat) (dt : Nat) (s : State), (requestOk m 0x0010 4 s = true) ∧ (n = (mbReq s m).at_ 0 4) ∧ (1 ≤ n) ∧ (n ≤ 16384) ∧ ([1, 2].find? (fun h => (bufOf s m h).isNone) = some h)) ∧
    (∃ (m : Nat) (n : Nat) (dt : Nat) (s : State), (requestOk m 0x0010 4 s = true) ∧ (n = (mbReq s m).at_ 0 4) ∧ (1 ≤ n) ∧ (n ≤ 16384) ∧ ((bufOf s m 1).isSome = true) ∧ ((bufOf s m 2).isSome = true)) ∧
    (∃ (m : Nat) (n : Nat) (dt : Nat) (s : State), (requestOk m 0x0010 4 s = true) ∧ (n = (mbReq s m).at_ 0 4) ∧ (n = 0 ∨ 16384 < n)) ∧
    (∃ (m : Nat) (len : Nat) (dt : Nat) (b : List Nat) (d : List Nat) (s : State), (requestOk m 0x0011 len s = true) ∧ (4 ≤ len) ∧ (d = (mbReq s m).data.drop 4) ∧ (bufOf s m ((mbReq s m).at_ 0 1) = some b) ∧ ((mbReq s m).at_ 2 2 + d.length ≤ b.length) ∧ (bufHeld s m ((mbReq s m).at_ 0 1) = false)) ∧
    (∃ (m : Nat) (len : Nat) (dt : Nat) (b : List Nat) (s : State), (requestOk m 0x0011 len s = true) ∧ (4 ≤ len) ∧ (bufOf s m ((mbReq s m).at_ 0 1) = some b) ∧ (b.length < (mbReq s m).at_ 2 2 + ((mbReq s m).data.drop 4).length)) ∧
    (∃ (m : Nat) (dt : Nat) (b : List Nat) (s : State), (requestOk m 0x0012 6 s = true) ∧ (bufOf s m ((mbReq s m).at_ 0 1) = some b) ∧ ((mbReq s m).at_ 4 2 ≤ 240) ∧ ((mbReq s m).at_ 2 2 + (mbReq s m).at_ 4 2 ≤ b.length)) ∧
    (∃ (m : Nat) (dt : Nat) (b : List Nat) (s : State), (requestOk m 0x0013 1 s = true) ∧ (bufOf s m ((mbReq s m).at_ 0 1) = some b) ∧ (bufHeld s m ((mbReq s m).at_ 0 1) = false)) ∧
    (∃ (m : Nat) (dt : Nat) (b : List Nat) (s : State), (requestOk m 0x0013 1 s = true) ∧ (bufOf s m ((mbReq s m).at_ 0 1) = some b) ∧ (bufHeld s m ((mbReq s m).at_ 0 1) = true)) :=
  ⟨⟨Instr.sysInfo 3 5, 3, 0x0100, 0, 2, 5, false, ask 3 0x100 [1] up, by decide +kernel⟩,
   ⟨Instr.suspend 3 5, 3, 1, 2, 4, 5, false, ask' 3 1 0 1 2 up, by decide +kernel⟩,
   ⟨3, 250, true, ask' 3 1 7 0 250 up, by decide +kernel⟩,
   ⟨3, 2, true, ask' 3 1 7 0 3 up, by decide +kernel⟩,
   ⟨3, 240, true, ask' 3 1 0 2 240 up, by decide +kernel⟩,
   ⟨3, 240, true, ask' 3 1 0 1 240 up, by decide +kernel⟩,
   ⟨3, 2, true, box 3 (fun b => { b with ops := [op0 0x0201 77 none] }) (ask 3 1 [1, 0] up), by decide +kernel⟩,
   ⟨3, 2, box 3 (fun b => { b with ops := (List.range 8).map (fun i => op0 0x0201 (i + 1) none) }) (ask 3 1 [1, 0] up), by decide +kernel⟩,
   ⟨3, 2, 16384, 5, ask 3 0x10 [0, 0x40, 0, 0] (box 3 (fun b => { b with bufs := [⟨1, [1, 2, 3]⟩] }) up), by decide +kernel⟩,
   ⟨3, 1, 5, ask 3 0x10 [1, 0, 0, 0] (box 3 (fun b => { b with bufs := [⟨1, [1, 2, 3]⟩, ⟨2, [1]⟩] }) up), by decide +kernel⟩,
   ⟨3, 16385, 5, ask 3 0x10 [1, 0x40, 0, 0] up, by decide +kernel⟩,
   ⟨3, 6, 5, [1, 2, 3], [8, 9], ask 3 0x11 [2, 0, 1, 0, 8, 9] (box 3 (fun b => { b with bufs := [⟨2, [1, 2, 3]⟩] }) up), by decide +kernel⟩,
   ⟨3, 6, 5, [1, 2, 3], ask 3 0x11 [2, 0, 2, 0, 8, 9] (box 3 (fun b => { b with bufs := [⟨2, [1, 2, 3]⟩] }) up), by decide +kernel⟩,
   ⟨3, 5, [1, 2, 3], ask 3 0x12 [2, 0, 1, 0, 2, 0] (box 3 (fun b => { b with bufs := [⟨2, [1, 2, 3]⟩] }) up), by decide +kernel⟩,
   ⟨3, 5, [1, 2, 3], ask 3 0x13 [2] (box 3 (fun b => { b with bufs := [⟨2, [1, 2, 3]⟩] }) up), by decide +kernel⟩,
   ⟨3, 5, [1, 2, 3], ask 3 0x13 [2] (box 3 (fun b => { b with bufs := [⟨2, [1, 2, 3]⟩], ops := [⟨0x0801, 5, true, 0, none, none, false, [2], []⟩] }) up), by decide +kernel⟩⟩
/-- The hypotheses of MailboxOperations, clause by clause. -/
theorem witness_MailboxOperations :
    (∃ (m : Nat) (dt : Nat) (r : MbRec) (rest : List MbRec) (s : State), (recordPostOk m (s.pass dt) = true) ∧ ((mbox s m).backlog = r :: rest) ∧ ((mbox s m).lost = 0) ∧ (s.mboxes.length = 4)) ∧
    (∃ (m : Nat) (tag : Nat) (dt : Nat) (o : LiveOp) (s : State), (m < 4) ∧ (progressRecordOk m tag (s.pass dt) = true) ∧ (opOf s m tag = some o) ∧ (s.mboxes.length = 4) ∧ (mbShared (mbox s m) < 24)) ∧
    (∃ (m : Nat) (dt : Nat) (o : LiveOp) (s : State), (requestOk m 0x0001 2 s = true) ∧ (opOf s m ((mbReq s m).at_ 0 2) = some o) ∧ (o.suspended = none) ∧ (suspendable o.cmd = true)) ∧
    (∃ (m : Nat) (dt : Nat) (o : LiveOp) (s : State), (requestOk m 0x0001 2 s = true) ∧ (opOf s m ((mbReq s m).at_ 0 2) = some o) ∧ (o.suspended = none) ∧ (suspendable o.cmd = false)) ∧
    (∃ (c : Nat → Nat → Instr) (id : Nat) (m : Nat) (dt : Nat) (s : State), ((c, id) ∈ [(Instr.suspend, 1), (Instr.resume, 2), (Instr.cancel, 3)]) ∧ (requestOk m id 2 s = true) ∧ (opOf s m ((mbReq s m).at_ 0 2) = none)) ∧
    (∃ (c : Nat → Nat → Instr) (id : Nat) (m : Nat) (dt : Nat) (s : State), ((c, id) ∈ [(Instr.suspend, 1), (Instr.resume, 2), (Instr.cancel, 3)]) ∧ (requestOk m id 2 s = true) ∧ (opOf s m ((mbReq s m).at_ 0 2) = none)) ∧
    (∃ (m : Nat) (dt : Nat) (o : LiveOp) (s : State), (requestOk m 0x0002 2 s = true) ∧ (opOf s m ((mbReq s m).at_ 0 2) = some o) ∧ (o.suspended = none)) ∧
    (∃ (m : Nat) (dt : Nat) (o : LiveOp) (s : State), (requestOk m 0x0002 2 s = true) ∧ (opOf s m ((mbReq s m).at_ 0 2) = some o) ∧ (o.suspended.isSome = true) ∧ (s.co.disps = [])) ∧
    (∃ (m : Nat) (dt : Nat) (o : LiveOp) (s : State), (requestOk m 0x0003 2 s = true) ∧ (opOf s m ((mbReq s m).at_ 0 2) = some o) ∧ (o.suspended.isSome = true ∨ beforeCancel (s.pass dt) o = true)) ∧
    (∃ (m : Nat) (dt : Nat) (o : LiveOp) (s : State), (requestOk m 0x0003 2 s = true) ∧ (opOf s m ((mbReq s m).at_ 0 2) = some o) ∧ (o.suspended.isSome = true ∨ beforeCancel (s.pass dt) o = true)) ∧
    (∃ (m : Nat) (dt : Nat) (o : LiveOp) (s : State), (requestOk m 0x0003 2 s = true) ∧ (opOf s m ((mbReq s m).at_ 0 2) = some o) ∧ (o.suspended = none) ∧ (beforeCancel (s.pass dt) o = false)) ∧
    (∃ (m : Nat) (tag : Nat) (dt : Nat) (o : LiveOp) (s : State), (m < 4) ∧ (suspendTimeoutOk m tag (s.pass dt) = true) ∧ (opOf s m tag = some o) ∧ (s.mboxes.length = 4)) ∧
    (∃ (m : Nat) (dt : Nat) (s : State), (m < 4) ∧ (flushDoneOk m (s.pass dt) = true) ∧ (s.mboxes.length = 4)) ∧
    (∃ (m : Nat) (dt : Nat) (s : State), (unknownCommandOk m (s.pass dt) = true) ∧ (s.mboxes.length = 4)) :=
  ⟨⟨3, 5, ⟨1, 2, 0, 6, 0, 0, [1, 2]⟩, [⟨1, 2, 0, 0, 0, 0, []⟩], st [(Reg.MB_RSP_RSPWR 3, 31), (Reg.MB_RSP_RSPRD 3, 16)] (box 3 (fun b => { b with backlog := [⟨1, 2, 0, 6, 0, 0, [1, 2]⟩, ⟨1, 2, 0, 0, 0, 0, []⟩] }) up), by decide +kernel⟩,
   ⟨3, 5, 5, op0 0x0605 5 none, box 3 (fun b => { b with ops := [op0 0x0605 5 none] }) up, by decide +kernel⟩,
   ⟨3, 5, op0 0x0605 5 none, ask 3 1 [5, 0] (box 3 (fun b => { b with ops := [op0 0x0605 5 none] }) up), by decide +kernel⟩,
   ⟨3, 5, op0 0x0201 5 none, ask 3 1 [5, 0] (box 3 (fun b => { b with ops := [op0 0x0201 5 none] }) up), by decide +kernel⟩,
   ⟨Instr.cancel, 3, 3, 5, ask 3 3 [5, 0] up, by refine ⟨by simp, by decide +kernel, by decide +kernel⟩⟩,
   ⟨Instr.suspend, 1, 3, 5, ask 3 1 [5, 0] up, by refine ⟨by simp, by decide +kernel, by decide +kernel⟩⟩,
   ⟨3, 5, op0 0x0605 5 none, ask 3 2 [5, 0] (box 3 (fun b => { b with ops := [op0 0x0605 5 none] }) up), by decide +kernel⟩,
   ⟨3, 5, op0 0x0605 5 (some 9), ask 3 2 [5, 0] (box 3 (fun b => { b with ops := [op0 0x0605 5 (some 9)] }) up), by decide +kernel⟩,
   ⟨3, 5, op0 0x0605 5 none, ask 3 3 [5, 0] (box 3 (fun b => { b with ops := [op0 0x0605 5 none] }) up), by decide +kernel⟩,
   ⟨3, 5, op0 0x0201 5 (some 9), ask 3 3 [5, 0] (box 3 (fun b => { b with ops := [op0 0x0201 5 (some 9)] }) up), by decide +kernel⟩,
   ⟨3, 5, op0 0x0201 5 none, ask 3 3 [5, 0] (box 3 (fun b => { b with ops := [op0 0x0201 5 none] }) up), by decide +kernel⟩,
   ⟨3, 5, cycS 3600, op0 0x0605 5 (some 9), box 3 (fun b => { b with ops := [op0 0x0605 5 (some 9)] }) up, by decide +kernel⟩,
   ⟨3, 5, st [(Reg.MB_STAT_FLUSHING 3, 1)] (box 3 (fun b => { b with ops := [op0 0x0605 5 (some 9)] }) up), by decide +kernel⟩,
   ⟨3, 5, ask 3 0x7777 [] up, by decide +kernel⟩⟩
/-- The hypotheses of MailboxQueries, clause by clause. -/
theorem witness_MailboxQueries :
    (∃ (m : Nat) (dt : Nat) (s : State), (requestOk m 0x0004 0 s = true)) ∧
    (∃ (m : Nat) (dt : Nat) (s : State), (requestOk m 0x0100 0 s = true)) ∧
    (∃ (m : Nat) (dt : Nat) (s : State), (requestOk m 0x0202 0 s = true)) ∧
    (∃ (m : Nat) (dt : Nat) (s : State), (requestOk m 0x0300 1 s = true)) ∧
    (∃ (m : Nat) (dt : Nat) (s : State), (requestOk m 0x0400 0 s = true)) ∧
    (∃ (m : Nat) (dt : Nat) (s : State), (requestOk m 0x0501 0 s = true)) ∧
    (∃ (m : Nat) (dt : Nat) (s : State), (requestOk m 0x0601 2 s = true) ∧ (s.isC = true)) ∧
    (∃ (m : Nat) (dt : Nat) (n : CoNode) (s : State), (requestOk m 0x0602 2 s = true) ∧ (s.isC = true) ∧ (coNode s ((mbReq s m).at_ 0 2) = some n)) ∧
    (∃ (m : Nat) (dt : Nat) (s : State), (requestOk m 0x0700 0 s = true)) ∧
    (∃ (m : Nat) (dt : Nat) (s : State), (requestOk m 0x0701 1 s = true) ∧ ((mbReq s m).at_ 0 1 ≤ 11)) ∧
    (∃ (m : Nat) (dt : Nat) (o : TableObj) (s : State), (requestOk m 0x0801 2 s = true) ∧ (tblKnown ((mbReq s m).at_ 0 2) = true) ∧ (o = tblNow s ((mbReq s m).at_ 0 2))) ∧
    (∃ (m : Nat) (n : Nat) (dt : Nat) (o : TableObj) (s : State), (requestOk m 0x0802 10 s = true) ∧ (tblKnown ((mbReq s m).at_ 0 2) = true) ∧ (o = tblNow s ((mbReq s m).at_ 0 2)) ∧ (n = (mbReq s m).at_ 8 2) ∧ (1 ≤ n) ∧ (n ≤ 240) ∧ ((mbReq s m).at_ 4 4 + n ≤ 16 + o.body.length)) ∧
    (∃ (m : Nat) (n : Nat) (dt : Nat) (o : TableObj) (s : State), (requestOk m 0x0802 10 s = true) ∧ (tblKnown ((mbReq s m).at_ 0 2) = true) ∧ (o = tblNow s ((mbReq s m).at_ 0 2)) ∧ (n = (mbReq s m).at_ 8 2) ∧ (1 ≤ n) ∧ (n ≤ 240) ∧ ((mbReq s m).at_ 4 4 + n ≤ 16 + o.body.length)) ∧
    (∃ (m : Nat) (dt : Nat) (s : State), (requestOk m 0x0900 0 s = true)) ∧
    (∃ (m : Nat) (dt : Nat) (h : HealthRec) (s : State), (requestOk m 0x0901 2 s = true) ∧ (s.health.find? (fun h => h.index == (mbReq s m).at_ 0 2) = some h)) ∧
    (∃ (m : Nat) (dt : Nat) (s : State), (requestOk m 0x0A00 0 s = true) ∧ (s.isC = true)) ∧
    (∃ (m : Nat) (dt : Nat) (s : State), (requestOk m 0x0B00 0 s = true)) :=
  ⟨⟨3, 5, ask 3 4 [] (box 3 (fun b => { b with ops := [op0 0x0201 5 (some 9), op0 0x0605 6 none] }) up), by decide +kernel⟩,
   ⟨3, 5, ask 3 0x100 [] up, by decide +kernel⟩,
   ⟨3, 5, ask 3 0x202 [] (joined id), by decide +kernel⟩,
   ⟨3, 5, ask 3 0x300 [1] (joined (fun l => { l with conns := [conn0 8, conn0 9] })), by decide +kernel⟩,
   ⟨3, 5, ask 3 0x400 [] (joined id), by decide +kernel⟩,
   ⟨3, 5, ask 3 0x501 [] (joined id), by decide +kernel⟩,
   ⟨3, 5, ask 3 0x601 [2, 0] { joined id with co := { Co.reset with nodes := [coNode0 1 [], coNode0 2 [], coNode0 3 []] } }, by decide +kernel⟩,
   ⟨3, 5, coNode0 2 [], ask 3 0x602 [2, 0] { joined id with co := { Co.reset with nodes := [coNode0 1 [], coNode0 2 [], coNode0 3 []] } }, by decide +kernel⟩,
   ⟨3, 5, ask 3 0x700 [] up, by decide +kernel⟩,
   ⟨3, 5, ask 3 0x701 [11] up, by decide +kernel⟩,
   ⟨3, 5, tblNow up 0x10, ask 3 0x801 [0x10, 0] up, by decide +kernel⟩,
   ⟨3, 193, 5, tblNow up 0x10, ask 3 0x802 ([0x10, 0] ++ [0, 0] ++ [3, 0, 0, 0] ++ [193, 0]) up, by decide +kernel⟩,
   ⟨3, 1, 5, tblNow up 0x10, ask 3 0x802 ([0x10, 0] ++ [0, 0] ++ [15, 0, 0, 0] ++ [1, 0]) up, by decide +kernel⟩,
   ⟨3, 5, ask 3 0x900 [] up, by decide +kernel⟩,
   ⟨3, 5, ⟨5, 1, 2, 3, 4, 5, 6, 7⟩, ask 3 0x901 [5, 0] { up with health := [⟨4, 1, 2, 3, 4, 5, 6, 7⟩, ⟨5, 1, 2, 3, 4, 5, 6, 7⟩] }, by decide +kernel⟩,
   ⟨3, 5, ask 3 0xA00 [] up, by decide +kernel⟩,
   ⟨3, 5, ask 3 0xB00 [] up, by decide +kernel⟩⟩
/-- The hypotheses of MailboxSettings, clause by clause. -/
theorem witness_MailboxSettings :
    (∃ (m : Nat) (dt : Nat) (s : State), (sysResetDue (s.pass dt) = false) ∧ (requestOk m 0x0101 2 s = true) ∧ ((mbReq s m).at_ 0 2 ≤ 10000)) ∧
    (∃ (m : Nat) (dt : Nat) (s : State), (sysResetDue (s.pass dt) = true)) ∧
    (∃ (m : Nat) (dt : Nat) (s : State), (requestOk m 0x0102 4 s = true)) ∧
    (∃ (m : Nat) (p : Nat) (dt : Nat) (s : State), (requestOk m 0x0103 2 s = true) ∧ (p = (mbReq s m).at_ 0 1) ∧ (0x80 ≤ p) ∧ ((mbReq s m).at_ 1 1 = 1) ∧ (∀ k, k < 4 → k ≠ m → p ∉ (mbox s k).ptypes)) ∧
    (∃ (m : Nat) (p : Nat) (dt : Nat) (s : State), (requestOk m 0x0103 2 s = true) ∧ (p = (mbReq s m).at_ 0 1) ∧ (0x80 ≤ p) ∧ ((mbReq s m).at_ 1 1 = 0)) ∧
    (∃ (m : Nat) (p : Nat) (k : Nat) (dt : Nat) (s : State), (requestOk m 0x0103 2 s = true) ∧ (p = (mbReq s m).at_ 0 1) ∧ (0x80 ≤ p) ∧ ((mbReq s m).at_ 1 1 = 1) ∧ (k < 4) ∧ (k ≠ m) ∧ (p ∈ (mbox s k).ptypes)) ∧
    (∃ (m : Nat) (dt : Nat) (b : List Nat) (s : State), (requestOk m 0x0200 1 s = true) ∧ (bufOf s m ((mbReq s m).at_ 0 1) = some b) ∧ (400 ≤ b.length) ∧ (bufHeld s m ((mbReq s m).at_ 0 1) = false)) ∧
    (∃ (m : Nat) (dt : Nat) (c : Conn) (s : State), (requestOk m 0x0301 2 s = true) ∧ (connPeer s ((mbReq s m).at_ 0 2) = some c)) ∧
    (∃ (m : Nat) (dt : Nat) (s : State), (requestOk m 0x0301 2 s = true) ∧ (connPeer s ((mbReq s m).at_ 0 2) = none)) ∧
    (∃ (m : Nat) (dt : Nat) (c : Conn) (s : State), (requestOk m 0x0302 2 s = true) ∧ (s.lnk.conns.find? (fun x => x.peer == (mbReq s m).at_ 0 2 && !x.child && x.leaf) = some c) ∧ ((wakeCarrier s).isSome = true) ∧ (s.lnk.wake = none)) ∧
    (∃ (m : Nat) (dt : Nat) (s : State), (requestOk m 0x0401 12 s = true) ∧ ((mbReq s m).at_ 0 1 = 1) ∧ ((mbReq s m).at_ 1 1 ≤ 31) ∧ (isRoot s = true)) ∧
    (∃ (m : Nat) (dt : Nat) (s : State), (requestOk m 0x0402 16 s = true) ∧ ((mbReq s m).at_ 0 1 < 32) ∧ (isRoot s = true) ∧ (bitOf ((mbReq s m).at_ 0 1) 0 = 0) ∧ (bitOf ((mbReq s m).at_ 0 1) 1 = 1)) ∧
    (∃ (m : Nat) (dt : Nat) (s : State), (requestOk m 0x0402 16 s = true) ∧ ((mbReq s m).at_ 0 1 < 32) ∧ (isRoot s = true) ∧ (bitOf ((mbReq s m).at_ 0 1) 0 = 1)) ∧
    (∃ (c : Nat → Nat → Instr) (id : Nat) (len : Nat) (m : Nat) (dt : Nat) (s : State), ((c, id, len) ∈ [(Instr.timeSource, 0x0401, 12), (Instr.timeSet, 0x0402, 16)]) ∧ (requestOk m id len s = true) ∧ ((mbReq s m).at_ 0 1 = 0) ∧ ((mbReq s m).at_ 2 2 = 0) ∧ (isRoot s = false)) ∧
    (∃ (m : Nat) (dt : Nat) (s : State), (requestOk m 0x0503 2 s = true) ∧ ((mbReq s m).at_ 0 2 ≤ 1000)) ∧
    (∃ (m : Nat) (dt : Nat) (s : State), (requestOk m 0x0503 2 s = true) ∧ ((mbReq s m).at_ 0 2 ≤ 1000) ∧ (lumOn s = false ∨ s.lum.failsafe = false)) ∧
    (∃ (m : Nat) (dt : Nat) (s : State), (requestOk m 0x0500 16 s = true) ∧ ((mbReq s m).at_ 0 2 ≤ 1000) ∧ (lumOn s = false)) ∧
    (∃ (m : Nat) (dt : Nat) (s : State), (requestOk m 0x0B05 0 s = true)) ∧
    (∃ (m : Nat) (dt : Nat) (s : State), (requestOk m 0x0B05 0 s = true)) :=
  ⟨⟨3, 5, ask 3 0x101 [0x10, 0x27] up, by decide +kernel⟩,
   ⟨3, 5, { up with resetDue := some 7 }, by decide +kernel⟩,
   ⟨3, 5, ask 3 0x102 [1, 2, 3, 4] up, by decide +kernel⟩,
   ⟨3, 0x80, 5, ask 3 0x103 [0x80, 1] up, by decide +kernel⟩,
   ⟨3, 0xFF, 5, ask 3 0x103 [0xFF, 0] (box 3 (fun b => { b with ptypes := [0xFF, 0x90] }) up), by decide +kernel⟩,
   ⟨3, 0x80, 2, 5, ask 3 0x103 [0x80, 1] (box 2 (fun b => { b with ptypes := [0x90, 0x80] }) up), by decide +kernel⟩,
   ⟨3, 5, List.replicate 401 7, ask 3 0x200 [2] (box 3 (fun b => { b with bufs := [⟨2, List.replicate 401 7⟩] }) up), by decide +kernel⟩,
   ⟨3, 5, { conn0 9 with peer := 3 }, ask 3 0x301 [3, 0] (joined (fun l => { l with conns := [conn0 8, { conn0 9 with peer := 3 }] })), by decide +kernel⟩,
   ⟨3, 5, ask 3 0x301 [3, 0] (joined (fun l => { l with conns := [conn0 8, conn0 9] })), by decide +kernel⟩,
   ⟨3, 5, { conn0 9 with peer := 3, child := false, leaf := true }, ask 3 0x302 [3, 0] (joined (fun l => { l with conns := [conn0 8, { conn0 9 with peer := 3, child := false, leaf := true }] })), by decide +kernel⟩,
   ⟨3, 5, ask 3 0x401 [1, 31, 9, 0, 5, 0, 0, 0, 0, 0, 0, 0] (st [(Reg.FIRN_STAT_ROOT, 1)] up), by decide +kernel⟩,
   ⟨3, 5, ask 3 0x402 [2, 0, 0xFF, 0xFF, 5, 0, 0, 0, 0, 0, 0, 0, 0, 0, 0, 0] (st [(Reg.FIRN_STAT_ROOT, 1)] up), by decide +kernel⟩,
   ⟨3, 5, ask 3 0x402 [1, 0, 0xFF, 0xFF, 5, 0, 0, 0, 0, 0, 0, 0, 0, 1, 0, 0] (st [(Reg.FIRN_STAT_ROOT, 1)] up), by decide +kernel⟩,
   ⟨Instr.timeSet, 0x402, 16, 3, 5, ask 3 0x402 (List.replicate 16 0) up, by refine ⟨by simp, by decide +kernel, by decide +kernel, by decide +kernel, by decide +kernel⟩⟩,
   ⟨3, 5, ask 3 0x503 [0xE8, 3] (st [(Reg.LMP_STAT_SVC, 1)] up), by decide +kernel⟩,
   ⟨3, 5, ask 3 0x503 [0xE8, 3] up, by decide +kernel⟩,
   ⟨3, 5, ask 3 0x500 ([0xE8, 3] ++ List.replicate 14 0) up, by decide +kernel⟩,
   ⟨3, 5, ask 3 0xB05 [] up, by decide +kernel⟩,
   ⟨3, 5, ask 3 0xB05 [] (st [(Reg.BKP_SET1_TRIAL, 1)] up), by decide +kernel⟩⟩
/-- The hypotheses of MailboxServices, clause by clause. -/
theorem witness_MailboxServices :
    (∃ (c : Nat → Nat → Instr) (id : Nat) (len : Nat) (m : Nat) (dt : Nat) (s : State), ((c, id, len) ∈ [(Instr.coGroupcmd, 0x0600, 16), (Instr.coNodes, 0x0601, 2), (Instr.coNode, 0x0602, 2), (Instr.coAdmit, 0x0604, 9), (Instr.coDispatch, 0x0605, 3), (Instr.pairStatus, 0x0A00, 0), (Instr.pairConfig, 0x0A01, 1), (Instr.pairSwitch, 0x0A02, 8), (Instr.updDistribute, 0x0B03, 6)]) ∧ (requestOk m id len s = true) ∧ (s.isC = false)) ∧
    (∃ (m : Nat) (dt : Nat) (s : State), (requestOk m 0x0201 16 s = true) ∧ (cfgRefusal (s.pass dt) (bufOf s m ((mbReq s m).at_ 0 1)) ((mbReq s m).at_ 8 8) = none) ∧ (isCoord s = true)) ∧
    (∃ (m : Nat) (dt : Nat) (obj : List Nat) (s : State), (requestOk m 0x0201 16 s = true) ∧ (cfgRefusal (s.pass dt) (bufOf s m ((mbReq s m).at_ 0 1)) ((mbReq s m).at_ 8 8) = none) ∧ (isCoord s = false) ∧ (obj = ((bufOf s m ((mbReq s m).at_ 0 1)).getD []).take 400)) ∧
    (∃ (m : Nat) (st : Nat) (dt : Nat) (s : State), (requestOk m 0x0201 16 s = true) ∧ (cfgRefusal (s.pass dt) (bufOf s m ((mbReq s m).at_ 0 1)) ((mbReq s m).at_ 8 8) = some st)) ∧
    (∃ (m : Nat) (st : Nat) (dt : Nat) (s : State), (requestOk m 0x0201 16 s = true) ∧ (cfgRefusal (s.pass dt) (bufOf s m ((mbReq s m).at_ 0 1)) ((mbReq s m).at_ 8 8) = some st)) ∧
    (∃ (dt : Nat) (n : NextCfg) (s : State), (netCfgInstantOk (s.pass dt) = true) ∧ (s.lnk.nextCfg = some n)) ∧
    (∃ (m : Nat) (len : Nat) (dt : Nat) (s : State), (requestOk m 0x0203 len s = true) ∧ (8 ≤ len) ∧ ((mbReq s m).at_ 5 1 = 0) ∧ (0x80 ≤ (mbReq s m).at_ 2 1) ∧ ((mbReq s m).at_ 3 1 ≤ 3) ∧ ((mbReq s m).at_ 4 1 ≤ 31) ∧ (isJoined s = true) ∧ (floodLen ((mbReq s m).data.drop 8).length ≤ meshMax)) ∧
    (∃ (m : Nat) (len : Nat) (dt : Nat) (s : State), (requestOk m 0x0203 len s = true) ∧ (8 ≤ len) ∧ ((mbReq s m).at_ 5 1 = 0) ∧ (0x80 ≤ (mbReq s m).at_ 2 1) ∧ ((mbReq s m).at_ 3 1 ≤ 3) ∧ ((mbReq s m).at_ 4 1 ≤ 31) ∧ (isJoined s = false)) ∧
    (∃ (m : Nat) (dt : Nat) (b : List Nat) (s : State), (requestOk m 0x0502 1 s = true) ∧ (bufOf s m ((mbReq s m).at_ 0 1) = some b) ∧ (schedOk b = true) ∧ (s.on Reg.FLC_STAT_RO = false)) ∧
    (∃ (m : Nat) (dt : Nat) (s : State), (requestOk m 0x0600 16 s = true) ∧ (s.isC = true) ∧ (coActive s = true) ∧ (groupOk ((mbReq s m).at_ 0 2) = true) ∧ ((mbReq s m).at_ 2 2 ≤ 1000) ∧ ((s.pass dt).now + ftS 2 ≤ (mbReq s m).at_ 8 8)) ∧
    (∃ (dt : Nat) (g : CoCmd) (s : State), (collectEndOk (s.pass dt) = true) ∧ (s.co.cmds.find? (fun g => decide (g.end_ ≤ (s.pass dt).now)) = some g) ∧ (s.mboxes.length = 4)) ∧
    (∃ (m : Nat) (n : Nat) (dt : Nat) (s : State), (requestOk m 0x0603 (4 + 2 * n) s = true) ∧ (s.isC = true) ∧ (n = (mbReq s m).at_ 2 1) ∧ (n ≤ 16) ∧ ((coNode s ((mbReq s m).at_ 0 2)).isSome = true) ∧ (∀ i, i < n → groupOk ((mbReq s m).at_ (4 + 2 * i) 2) = true)) ∧
    (∃ (m : Nat) (dt : Nat) (s : State), (requestOk m 0x0604 9 s = true) ∧ (s.isC = true) ∧ (s.co.admitted.length < 60000 ∨ (mbReq s m).at_ 8 1 = 0)) ∧
    (∃ (m : Nat) (dt : Nat) (s : State), (requestOk m 0x0604 9 s = true) ∧ (s.isC = true) ∧ (s.co.admitted.length < 60000 ∨ (mbReq s m).at_ 8 1 = 0)) ∧
    (∃ (m : Nat) (dt : Nat) (b : List Nat) (s : State), (requestOk m 0x0605 3 s = true) ∧ (s.isC = true) ∧ (bufOf s m ((mbReq s m).at_ 2 1) = some b) ∧ (schedOk b = true) ∧ (groupOk ((mbReq s m).at_ 0 2) = true) ∧ (s.co.disps = []) ∧ (coMembers s ((mbReq s m).at_ 0 2) ≠ [])) ∧
    (∃ (m : Nat) (dt : Nat) (b : List Nat) (s : State), (requestOk m 0x0A01 1 s = true) ∧ (s.isC = true) ∧ (bufOf s m ((mbReq s m).at_ 0 1) = some b) ∧ (pairCfgOk b = true) ∧ (mirRole s ≠ 1) ∧ (mirRole s ≠ 2)) ∧
    (∃ (m : Nat) (T : Nat) (dt : Nat) (s : State), (requestOk m 0x0A02 8 s = true) ∧ (s.isC = true) ∧ (T = (mbReq s m).at_ 0 8) ∧ ((s.pass dt).now + ftS 1 ≤ T) ∧ (T ≤ (s.pass dt).now + ftS 3600) ∧ (mirRole s = 1 ∨ mirRole s = 2) ∧ (s.mir.switch = none)) :=
  ⟨⟨Instr.coDispatch, 0x605, 3, 3, 5, ask 3 0x605 [0, 0, 0] { up with fuses := { Fuses.reset with variantC := false } }, by refine ⟨by simp, by decide +kernel, by decide +kernel⟩⟩,
   ⟨3, 5, ask 3 0x201 ([2] ++ List.replicate 7 0 ++ List.replicate 7 0xFF ++ [0]) (bufd 3 cfg1 coord), by decide +kernel⟩,
   ⟨3, 5, cfg1, ask 3 0x201 ([2] ++ List.replicate 15 0) (bufd 3 cfg1 up), by decide +kernel⟩,
   ⟨3, 7, 5, ask 3 0x201 ([2] ++ List.replicate 15 0) (bufd 3 [1, 2] up), by decide +kernel⟩,
   ⟨3, 10, 5, ask 3 0x201 ([2] ++ List.replicate 15 0) (bufd 3 cfg1 (joined id)), by decide +kernel⟩,
   ⟨5, ⟨cfg1, 7, true⟩, joined (fun l => { l with nextCfg := some ⟨cfg1, 7, true⟩ }), by decide +kernel⟩,
   ⟨3, 11, 5, ask 3 0x203 [9, 0, 0x80, 3, 31, 0, 0, 0, 1, 2, 3] (joined id), by decide +kernel⟩,
   ⟨3, 11, 5, ask 3 0x203 [9, 0, 0x80, 3, 31, 0, 0, 0, 1, 2, 3] up, by decide +kernel⟩,
   ⟨3, 5, sched0, ask 3 0x502 [2] (bufd 3 sched0 up), by decide +kernel⟩,
   ⟨3, 5, ask 3 0x600 ([0, 0xF0, 0xE8, 3, 0, 0, 9, 0] ++ List.replicate 7 0xFF ++ [0]) coord, by decide +kernel⟩,
   ⟨5, ⟨3, 7, 0xF000, 1, 5, 6, [], []⟩, { coord with co := { Co.reset with cmds := [⟨2, 7, 0xF000, 1, 5, 2 ^ 200, [], []⟩, ⟨3, 7, 0xF000, 1, 5, 6, [], []⟩] } }, by decide +kernel⟩,
   ⟨3, 2, 5, ask 3 0x603 [2, 0, 2, 0, 0, 0xF0, 0xFE, 0xFF] { coord with co := { Co.reset with nodes := [coNode0 1 [], coNode0 2 [], coNode0 3 []] } }, by decide +kernel⟩,
   ⟨3, 5, ask 3 0x604 [1, 2, 3, 4, 5, 6, 7, 8, 1] coord, by decide +kernel⟩,
   ⟨3, 5, ask 3 0x604 [1, 0, 0, 0, 0, 0, 0, 0, 0] { coord with co := { Co.reset with admitted := [1, 2] } }, by decide +kernel⟩,
   ⟨3, 5, sched0, ask 3 0x605 [0, 0xF0, 2] (bufd 3 sched0 { coord with co := { Co.reset with nodes := [coNode0 1 [0xF000], coNode0 2 [], coNode0 3 [0xF001, 0xF000]] } }), by decide +kernel⟩,
   ⟨3, 5, [5, 0, 5, 0, 6, 0, 1, 1] ++ List.replicate 8 0 ++ [0, 0, 0x20, 0x10, 64, 0, 0, 0] ++ List.replicate 60 0, ask 3 0xA01 [2] (bufd 3 ([5, 0, 5, 0, 6, 0, 1, 1] ++ List.replicate 8 0 ++ [0, 0, 0x20, 0x10, 64, 0, 0, 0] ++ List.replicate 60 0) coord), by decide +kernel⟩,
   ⟨3, coord.now + ftS 2, 5, ask 3 0xA02 (leBytes 8 (coord.now + ftS 2)) (st [(Reg.MIR_STAT_ROLE, 1)] coord), by decide +kernel⟩⟩
/-- The hypotheses of MailboxStores, clause by clause. -/
theorem witness_MailboxStores :
    (∃ (m : Nat) (n : Nat) (dt : Nat) (b : List Nat) (s : State), (requestOk m 0x0702 1 s = true) ∧ (bufOf s m ((mbReq s m).at_ 0 1) = some b) ∧ (n = leAt b 0 1) ∧ (1 ≤ n) ∧ (n ≤ 8) ∧ (4 + 4 * n ≤ b.length) ∧ (∀ p ∈ partsOf b n 0 288, p.nblk ≠ 0 ∧ p.access < 8) ∧ (((partsOf b n 0 288).map (fun p => p.nblk)).sum ≤ 1632) ∧ (s.on Reg.FLC_STAT_RO = false) ∧ (s.on Reg.FLC_QAPP_CTL_EN = false) ∧ (∀ i, i < 8 → s.on (Reg.FLC_XO_LOCK (i + 8)) = false)) ∧
    (∃ (m : Nat) (dt : Nat) (s : State), (requestOk m 0x0703 1 s = true) ∧ ((mbReq s m).at_ 0 1 ≤ 11) ∧ (partKind s ((mbReq s m).at_ 0 1) ≠ 0) ∧ (s.on Reg.FLC_STAT_RO = false) ∧ (s.flc.marks = [])) ∧
    (∃ (m : Nat) (dt : Nat) (outs : List (Nat × PageOut)) (s : State), (requestOk m 0x0703 1 s = true) ∧ ((mbReq s m).at_ 0 1 ≤ 11) ∧ (partKind s ((mbReq s m).at_ 0 1) ≠ 0) ∧ (s.on Reg.FLC_STAT_RO = true)) ∧
    (∃ (m : Nat) (dt : Nat) (b : List Nat) (s : State), (requestOk m 0x0800 2 s = true) ∧ (bufOf s m ((mbReq s m).at_ 0 1) = some b) ∧ ((mbReq s m).at_ 1 1 ≤ 1) ∧ (tblRefusal s b ((mbReq s m).at_ 1 1 == 1) = none)) ∧
    (∃ (m : Nat) (st : Nat) (offs : Nat) (dt : Nat) (b : List Nat) (s : State), (requestOk m 0x0800 2 s = true) ∧ (bufOf s m ((mbReq s m).at_ 0 1) = some b) ∧ ((mbReq s m).at_ 1 1 ≤ 1) ∧ (tblRefusal s b ((mbReq s m).at_ 1 1 == 1) = some (st, offs))) ∧
    (∃ (m : Nat) (st : Nat) (offs : Nat) (dt : Nat) (b : List Nat) (s : State), (requestOk m 0x0800 2 s = true) ∧ (bufOf s m ((mbReq s m).at_ 0 1) = some b) ∧ ((mbReq s m).at_ 1 1 ≤ 1) ∧ (tblRefusal s b ((mbReq s m).at_ 1 1 == 1) = some (st, offs))) ∧
    (∃ (m : Nat) (tid : Nat) (dt : Nat) (s : State), (requestOk m 0x0803 2 s = true) ∧ (tid = (mbReq s m).at_ 0 2) ∧ (tblMailbox tid = true) ∧ (tblKnown tid = true) ∧ (tblBusy s tid = false)) ∧
    (∃ (i : Nat) (dt : Nat) (j : TblJob) (s : State), (s.tblJobs[i]? = some j) ∧ (s.on Reg.FLC_STAT_RO = false) ∧ (s.mboxes.length = 4) ∧ (keysRise s.tables = true)) ∧
    (∃ (i : Nat) (dt : Nat) (ok : Bool) (j : TblJob) (s : State), (s.tblJobs[i]? = some j) ∧ (s.on Reg.FLC_STAT_RO = true ∨ ok = false) ∧ (s.mboxes.length = 4)) ∧
    (∃ (m : Nat) (n : Nat) (dt : Nat) (s : State), (requestOk m 0x0B01 8 s = true) ∧ ((mbReq s m).at_ 0 1 = 1) ∧ (n = (mbReq s m).at_ 4 4) ∧ (1 ≤ n) ∧ (n ≤ 0x1000000) ∧ (storeRoom s = true)) ∧
    (∃ (m : Nat) (dt : Nat) (s : State), (requestOk m 0x0B01 8 s = true) ∧ ((mbReq s m).at_ 0 1 = 0) ∧ ((mbReq s m).at_ 4 4 = 0) ∧ (storeRoom s = true) ∧ (s.on (Reg.SPX_STAT_GLETY 1) = false)) ∧
    (∃ (m : Nat) (dt : Nat) (o : LiveOp) (b : List Nat) (s : State), (requestOk m 0x0B02 8 s = true) ∧ (opOf s m ((mbReq s m).at_ 0 2) = some o) ∧ (bufOf s m ((mbReq s m).at_ 2 1) = some b) ∧ (o.cmd = 0x0B01) ∧ (o.args.getD 1 0 = 1) ∧ ((mbReq s m).at_ 4 4 = o.data.length) ∧ (o.data.length + b.length ≤ o.args.getD 2 0)) ∧
    (∃ (m : Nat) (tag : Nat) (dt : Nat) (card : List Nat) (o : LiveOp) (s : State), (m < 4) ∧ (intakeVerifyOk m tag (s.pass dt) = true) ∧ (opOf s m tag = some o) ∧ (o.args.getD 1 0 ≠ 0) ∧ (bunStatus s o.data ≠ 0) ∧ (s.mboxes.length = 4)) ∧
    (∃ (m : Nat) (bid : Nat) (g : Nat) (dt : Nat) (b : Bundle) (s : State), (requestOk m 0x0B03 6 s = true) ∧ (s.isC = true) ∧ (bid = (mbReq s m).at_ 0 4) ∧ (g = (mbReq s m).at_ 4 2) ∧ (bundleOf s bid = some b) ∧ (b.verified = true) ∧ (0xF000 ≤ g) ∧ (coActive s = true) ∧ (s.upd.dist = none)) ∧
    (∃ (m : Nat) (bid : Nat) (T : Nat) (dt : Nat) (b : Bundle) (s : State), (requestOk m 0x0B04 16 s = true) ∧ (bid = (mbReq s m).at_ 0 4) ∧ (T = (mbReq s m).at_ 8 8) ∧ ((s.pass dt).now + ftS 60 ≤ T) ∧ (T ≤ (s.pass dt).now + ftS 2592000) ∧ (bundleOf s bid = some b) ∧ ((isJoined s = true ∧ coActive s = true) ∨ (isJoined s = false ∧ bunForMe s (bundleBytes b) = true ∧ bunCompat s (bundleBytes b) = true))) ∧
    (∃ (m : Nat) (tag : Nat) (dt : Nat) (card : List Nat) (o : LiveOp) (s : State), (m < 4) ∧ (intakeVerifyOk m tag (s.pass dt) = true) ∧ (opOf s m tag = some o) ∧ (o.args.getD 1 0 ≠ 0) ∧ (bunStatus s o.data = 0) ∧ (s.mboxes.length = 4) ∧ (bundleOf s (bunBid o.data) = none) ∧ (storeRoom s = true)) :=
  ⟨⟨3, 8, 5, [8, 0, 0, 0] ++ (List.replicate 8 [100, 0, 3, 0]).flatten, ask 3 0x702 [2] (bufd 3 ([8, 0, 0, 0] ++ (List.replicate 8 [100, 0, 3, 0]).flatten) up), by decide +kernel⟩,
   ⟨3, 5, ask 3 0x703 [1] up, by decide +kernel⟩,
   ⟨3, 5, [], ask 3 0x703 [1] (st [(Reg.FLC_STAT_RO, 1)] up), by decide +kernel⟩,
   ⟨3, 5, tbl0 0x14 port0, ask 3 0x800 [2, 1] (bufd 3 (tbl0 0x14 port0) up), by decide +kernel⟩,
   ⟨3, 0x101, 0, 5, setBytes (tbl0 0x14 port0) 16 [0], ask 3 0x800 [2, 1] (bufd 3 (setBytes (tbl0 0x14 port0) 16 [0]) up), by decide +kernel⟩,
   ⟨3, 8, 0, 5, tbl0 0x15 [0, 1, 0, 0], ask 3 0x800 [2, 1] (bufd 3 (tbl0 0x15 [0, 1, 0, 0]) up), by decide +kernel⟩,
   ⟨3, 0x14, 5, ask 3 0x803 [0x14, 0] up, by decide +kernel⟩,
   ⟨1, 5, ⟨0x14, some ⟨0x100, 1, port0⟩, 3, 5⟩, { box 3 (fun b => { b with ops := [op0 0x800 5 none] }) up with tblJobs := [⟨0x10, none, 2, 5⟩, ⟨0x14, some ⟨0x100, 1, port0⟩, 3, 5⟩] }, by decide +kernel⟩,
   ⟨0, 5, false, ⟨0x14, some ⟨0x100, 1, port0⟩, 3, 5⟩, { box 3 (fun b => { b with ops := [op0 0x800 5 none] }) up with tblJobs := [⟨0x14, some ⟨0x100, 1, port0⟩, 3, 5⟩] }, by decide +kernel⟩,
   ⟨3, 0x1000000, 5, ask 3 0xB01 [1, 0, 0, 0, 0, 0, 0, 1] up, by decide +kernel⟩,
   ⟨3, 5, ask 3 0xB01 [0, 0, 0, 0, 0, 0, 0, 0] up, by decide +kernel⟩,
   ⟨3, 5, { op0 0xB01 5 none with args := [0, 1, 3], data := [9] }, [1, 2], ask 3 0xB02 [5, 0, 2, 0, 1, 0, 0, 0] (box 3 (fun b => { b with ops := [{ op0 0xB01 5 none with args := [0, 1, 3], data := [9] }], bufs := [⟨2, [1, 2]⟩] }) up), by decide +kernel⟩,
   ⟨3, 5, 5, [], { op0 0xB01 5 none with args := [0, 1, 3], data := [9, 8, 7] }, box 3 (fun b => { b with ops := [{ op0 0xB01 5 none with args := [0, 1, 3], data := [9, 8, 7] }] }) up, by decide +kernel⟩,
   ⟨3, 77, 0xF000, 5, ⟨77, 3, [(0, [1, 2, 3])], none, true, false, 0, 0⟩, ask 3 0xB03 [77, 0, 0, 0, 0, 0xF0] { coord with upd := { UpdSt.reset with bundles := [⟨77, 3, [(0, [1, 2, 3])], none, true, false, 0, 0⟩] } }, by decide +kernel⟩,
   ⟨3, 77, coord.now + ftS 62, 5, ⟨77, 3, [(0, [1, 2, 3])], none, true, false, 0, 0⟩, ask 3 0xB04 ([77, 0, 0, 0, 0, 0, 0, 0] ++ leBytes 8 (coord.now + ftS 62)) { coord with upd := { UpdSt.reset with bundles := [⟨77, 3, [(0, [1, 2, 3])], none, true, false, 0, 0⟩] } }, by decide +kernel⟩,
   ⟨3, 5, 5, [], { op0 0xB01 5 none with args := [0, 1, 276], data := bun0 }, box 3 (fun b => { b with ops := [{ op0 0xB01 5 none with args := [0, 1, 276], data := bun0 }] }) bunState, by refine ⟨by decide +kernel, by decide +kernel, by decide +kernel, by decide +kernel, ?_, by decide +kernel, by decide +kernel, by decide +kernel⟩; show bunStatus _ bun0 = 0; unfold bunStatus; rw [bun0_signed _ rfl]; decide +kernel⟩⟩
/-! ### Well-formed commands -/

def w0 : BusReq := ⟨0, false, 0x40000000, 4, 0, false⟩
def h0 : IsaHead := ⟨0, [], 7, 0⟩
def a0 : AluArg := ⟨0, 0, .reg⟩
def m0 : MemArg := ⟨0, 0, 0, 0, 0, 0⟩
def r0 : RxIn := { ts := 0, mode := 0, rssi := 0, snr := 0, evm := 0, cfo := 0, fec := false, fcs4 := false, psdu := [], fcsOk := true }
def hb0 : HbIn := ⟨0, 0, 0, true, none⟩
def t0 : TxReq := { t := 0, state := 0, pcode := 0, mode := 0, freq := 0, span := 0, hops := none, air := 0 }
def f0 : FlashOut := ⟨[], 0, none, 0, []⟩
/-- One ill-formed command for each check, and each is refused. -/
theorem test_wf_refuses : (
  ([.registerWrite ({ w0 with ini := 23 }) 0, .registerWrite ({ w0 with addr := 0x100000000 }) 0, .registerWrite ({ w0 with size := 3 }) 0, .registerWrite ({ w0 with val := 0x100000000 }) 0, .shadowCommit 14 0, .coastLaunch 32 0] : List Instr).all (fun c => !c.wf) = true ∧
  ([.capture 4 false 0, .txEvaluate ({ t0 with mode := 256 }) false false 0, .txEvaluate ({ t0 with state := 256 }) false false 0, .calibrationStart 7 0 0, .laneCalibration 9 0 false 0, .laneCalibration 0 256 false 0] : List Instr).all (fun c => !c.wf) = true ∧
  ([.gainStepUp 2 0, .preambleDetect 2 0 0 0 false 0, .reservationLapse 32 0, .frameDecoded 0 ({ r0 with mode := 256 }) false 0, .frameDecoded 0 ({ r0 with rssi := 256 }) false 0, .frameDecoded 0 ({ r0 with evm := 256 }) false 0] : List Instr).all (fun c => !c.wf) = true ∧
  ([.frameDecoded 0 ({ r0 with psdu := [256] }) false 0, .connectionEvent 0 3 false 0, .sequencerFault 9 0, .wakePatternSend 65536 0 0, .wakeMatch 0x100000000 0, .relayDeadline 4 0 0] : List Instr).all (fun c => !c.wf) = true ∧
  ([.train 0 256 false 0, .wiredFrameReceive 0 false [256] false 0, .flushDone 4 0, .progressRecord 0 65536 0, .udf ({ h0 with ini := 5 }) 0, .udf ({ h0 with ini := 16 }) 0] : List Instr).all (fun c => !c.wf) = true ∧
  ([.udf ({ h0 with pfx := [5] }) 0, .udf ({ h0 with cond := 8 }) 0, .udf ({ h0 with bad := 4 }) 0, .add h0 ({ a0 with rd := 16 }) 0, .add h0 ({ a0 with rs := 16 }) 0, .add h0 ({ a0 with form := .imm8 256 }) 0] : List Instr).all (fun c => !c.wf) = true ∧
  ([.add h0 ({ a0 with form := .imm32 0x100000000 }) 0, .movi16 h0 16 0 0 0, .movi16 h0 0 4 0 0, .movi16 h0 0 0 65536 0, .movi32 h0 0 0x100000000 0, .ld h0 ({ m0 with rd := 16 }) 0] : List Instr).all (fun c => !c.wf) = true ∧
  ([.ld h0 ({ m0 with base := 16 }) 0, .ld h0 ({ m0 with dsz := 4 }) 0, .ld h0 ({ m0 with mode := 4 }) 0, .ld h0 ({ m0 with idx := 16 }) 0, .ld h0 ({ m0 with dsz := 1, disp := 256 }) 0, .pushm h0 65536 0] : List Instr).all (fun c => !c.wf) = true ∧
  ([.br8 h0 256 0, .br32 h0 0x100000000 0, .jr h0 16 false 0, .loop h0 4 false 0 0 0 0, .loop h0 0 false 16 0 0 0, .loop h0 0 false 0 65536 0 0] : List Instr).all (fun c => !c.wf) = true ∧
  ([.loop h0 0 false 0 0 65536 0, .movc h0 256 false 0 0, .movc h0 0 false 128 0, .svc h0 256 0, .swp h0 0 16 0, .bfxu h0 0 0 32 0 0] : List Instr).all (fun c => !c.wf) = true ∧
  ([.bfxu h0 0 0 0 256 0, .reservedEncoding h0 4 [] 0, .interruptEntry 16 0, .bundle 2 [] 0 0, .bundle 0 [0x100000000] 0 0, .bundle 0 [] 4 0] : List Instr).all (fun c => !c.wf) = true ∧
  ([.patrolRead 24 [] 0, .patrolRead 0x3F [] 0, .patrolRead 0x4A [] 0, .pageIdleClose 8 0, .dramTempPoll 256 0, .read 2 0] : List Instr).all (fun c => !c.wf) = true ∧
  ([.eventDelivery [192] 0, .timerWrap 8 0, .compareMatch 0 4 0, .masterFrameEnd 2 [] 0, .hostRead 256 0 0 0, .hostRead 0 256 0 0] : List Instr).all (fun c => !c.wf) = true ∧
  ([.entryHandshake 0 0, .entryHandshake 15 0, .thawStall 32 1 0, .replan [] 0, .temperaturePoll 256 0, .mirrorLaneCheck 4 0 0] : List Instr).all (fun c => !c.wf) = true ∧
  ([.heartbeatReceive ({ hb0 with role := 6 }) 0, .mirrorWrite 0x100000000 [] 0, .pairBeaconHeard 256 0, .backwardFrame 256 false 0, .meterBlock [] 0, .dispatchResend 65536 0] : List Instr).all (fun c => !c.wf) = true ∧
  ([.bypass 16 0, .dbgmem 4 0 0 0, .dbgmem 0 0x100000000 0 0, .dbgmem 0 0 0x100000000 0, .dbgHalt 7 0, .flashOperationEnd 0 ({ f0 with pulses := 65536 }) 0] : List Instr).all (fun c => !c.wf) = true) := by decide +kernel
/-- Commands of every family that the checks take. -/
theorem test_wf_takes : (
  [.registerWrite w0 0, .txEvaluate t0 false false 0, .sequencerFault 0 0, .wiredFrameReceive 0 false [] false 0, .suspendTimeout 0 0 0, .sysPtype 0 0] ++
  [.lumStatus 0 0, .storeInfo 0 0, .intakeVerify 0 0 [] 0, .or h0 a0 0, .mulhu h0 a0 0, .lds h0 m0 0] ++
  [.crcs h0 0, .popc h0 0 0 0, .interruptEntry 0 0, .erase 0 0, .eventDelivery [] 0, .timerBlockReset w0 0] ++
  [.dataPop w0 0, .replan (List.replicate 8 0) 0, .bypass 0 0] : List Instr).all (fun c => c.wf) = true := by decide +kernel

end Sys2Proof.Tests
end

section
/-!
SUPPORT. Every command, over the lemmas of Laws/Keep*.lean and Laws/Parts*.lean: its next state keeps what `Keeps` names, and differs in the pieces of its row of
`touches` at most. Then the step.
-/
namespace Sys2Proof.Machine

/-! ### What an outcome answers -/

/-- Every state that the outcome answers satisfies `P`. -/
def answers (P : State → Prop) (o : Host.Outcome State Fault Refusal) : Prop := ∀ t, o = .next t → P t

theorem answers_next {P : State → Prop} {t : State} (ht : P t) : answers P (.next t) := by
  rintro _ ⟨⟩
  exact ht

/-- A command acts only on its occasion (log entry 2). -/
theorem answers_onlyIf {P : State → Prop} {b : Bool} {t u : State} (hu : P u) (ht : P t) : answers P (.next (onlyIf b t u)) := by
  refine answers_next ?_
  unfold onlyIf
  split <;> assumption

/-- `t` keeps what `Keeps` names of `s`, and differs from it in the pieces of `L` at most. -/
structure Framed (L : List Piece) (s t : State) : Prop where
  keeps : Keeps s t
  parts : partsOnly L s t

section
variable (h : IsaHead) (dt : Nat) (s : State)

/-- An instruction is framed where its own work is. -/
theorem isaCmd_framed {L : List Piece} {o : Op} {body : Core → State → IsaRes} (hL : sub insPieces L = true)
    (hk : ∀ c t, Keeps s t → IsaRes.Kept s (body c t)) (hp : ∀ c t, partsOnly L s t → IsaRes.Only L s (body c t)) : answers (Framed L s) (isaCmd h o body dt s) := by
  obtain ⟨t, ht, hkt⟩ := isaCmd_keeps h o body dt s hk
  obtain ⟨u, hu, hpu⟩ := isaCmd_parts (L := L) h o body dt s hp (by simpa [insPieces, and_assoc, and_comm, and_left_comm] using hL)
  obtain rfl : t = u := by simpa [ht] using hu
  rw [ht]
  exact answers_next ⟨hkt, hpu⟩

theorem aluCmd_framed (fb : Nat) (f : AluFn) (x : AluArg) : answers (Framed insPieces s) (aluCmd fb f h x dt s) :=
  isaCmd_framed h dt s rfl (fun c t => aluBody_keeps h s f x c t) (fun c t ht => aluBody_parts h s f x c t ht rfl)

theorem strCmd_framed {L : List Piece} (hL : sub insPieces L = true) (fn : Nat) (elem : Core → State → IsaRes) (hk : ∀ c t, Keeps s t → IsaRes.Kept s (elem c t))
    (hp : ∀ c t, partsOnly L s t → IsaRes.Only L s (elem c t)) : answers (Framed L s) (strCmd h fn elem dt s) := by
  refine isaCmd_framed h dt s hL (fun c t ht => ?_) (fun c t ht => ?_) <;> split
  · exact ht
  · exact hk c t ht
  · exact ht
  · exact hp c t ht

/-- A jump that writes the link register first, or does not. -/
theorem linkJump_framed {o : Op} (target : Core → Nat) (link : Bool) (f : Core → Core → Core) :
    answers (Framed insPieces s) (isaCmd h o (fun c t => .jump (target c) (if link then coreMod h.ini (f c) t else t)) dt s) := by
  refine isaCmd_framed h dt s rfl (fun c t ht => ?_) (fun c t ht => ?_) <;> cases link
  · exact ht
  · exact coreMod_keeps _ _ _ _ ht
  · exact ht
  · exact coreMod_parts _ _ _ _ ht rfl

theorem barCmd_framed (fn : Nat) (f : Core → Core) : answers (Framed insPieces s) (barCmd h fn f dt s) :=
  isaCmd_framed h dt s rfl (fun c t => barBody_keeps h s f c t) (fun c t ht => barBody_parts h s f c t ht rfl)

theorem atomCmd_framed (fn rd base : Nat) (f : Core → Nat → Option Nat) (fl : Core → Nat → Core → Core) : answers (Framed insStorePieces s) (atomCmd h fn rd base f fl dt s) :=
  isaCmd_framed h dt s rfl (fun c t => atomBody_keeps h s rd base f fl c t) (fun c t ht => atomBody_parts h s rd base f fl c t ht rfl)

end

/-- Every instruction of a core (`insOp`), by the family of its operation. -/
theorem exec_instruction_framed (c : Instr) (s : State) (hc : (insOp c).isSome = true) : answers (Framed (touches c) s) (exec c s) := by
  cases c
  case add | adc | sub | sbc | cmp | and | or | xor | bic | tst | mov | not | shl | shr | sar | ror | mul | mulh | mulhu | div | divu | rem | remu | min | max | minu | maxu =>
    exact aluCmd_framed _ _ _ _ _ _
  case swp | cas | xadd => exact atomCmd_framed _ _ _ _ _ _ _ _
  case bar | isb | icinv => exact barCmd_framed _ _ _ _ _
  case ld h m dt => exact isaCmd_framed h dt s rfl (loadBody_keeps h s false m) (fun c t ht => loadBody_parts h s false m c t ht rfl)
  case lds h m dt => exact isaCmd_framed h dt s rfl (loadBody_keeps h s true m) (fun c t ht => loadBody_parts h s true m c t ht rfl)
  case st h m dt => exact isaCmd_framed h dt s rfl (storeBody_keeps h s m) (fun c t ht => storeBody_parts h s m c t ht rfl)
  case pushm h mask dt => exact isaCmd_framed h dt s rfl (pushBody_keeps h s mask) (fun c t ht => pushBody_parts h s mask c t ht rfl)
  case popm h mask dt => exact isaCmd_framed h dt s rfl (popBody_keeps h s mask) (fun c t ht => popBody_parts h s mask c t ht rfl)
  case movs h dt => exact strCmd_framed h dt s rfl _ _ (movsElem_keeps h s) (fun c t ht => movsElem_parts h s c t ht rfl)
  case fils h dt => exact strCmd_framed h dt s rfl _ _ (filsElem_keeps h s) (fun c t ht => filsElem_parts h s c t ht rfl)
  case cmps h dt => exact strCmd_framed h dt s rfl _ _ (cmpsElem_keeps h s) (fun c t ht => cmpsElem_parts h s c t ht rfl)
  case scns h dt => exact strCmd_framed h dt s rfl _ _ (scnsElem_keeps h s) (fun c t ht => scnsElem_parts h s c t ht rfl)
  case crcs h dt => exact strCmd_framed h dt s rfl _ _ (crcsElem_keeps h s) (fun c t ht => crcsElem_parts h s c t ht rfl)
  case movc h rb dir num dt => exact isaCmd_framed h dt s rfl (movcBody_keeps h s rb dir _) (fun c t ht => movcBody_parts h s rb dir _ c t ht rfl)
  case reservedEncoding h esc bytes dt =>
    by_cases hr : encReserved (Enc.mk esc bytes) = true
    · simp only [exec, execReservedEncoding, if_pos hr]
      exact isaCmd_framed h dt s rfl (fun _ _ ht => ht) (fun _ _ ht => ht)
    · simp [insOp, hr] at hc
  case udf | nop | svc => exact isaCmd_framed _ _ _ rfl (fun _ _ ht => ht) (fun _ _ ht => ht)
  case popc | clz | brev | bswap | bfxu | bfxs | bfi | movi16 | movi32 | wfi | di | ei =>
    exact isaCmd_framed _ _ _ rfl (fun _ _ ht => isaReg_keeps _ _ _ _ ht) (fun _ _ ht => isaReg_parts _ _ _ _ ht rfl)
  case jr h rs link dt => exact linkJump_framed h dt s (fun c => gRd c rs) link _
  case br8 | br32 | bl32 => exact linkJump_framed _ _ _ _ _ _
  case eret => exact isaCmd_framed _ _ _ rfl (fun _ _ ht => coreMod_keeps _ _ _ _ ht) (fun _ _ ht => coreMod_parts _ _ _ _ ht rfl)
  case brk =>
    refine isaCmd_framed _ _ _ rfl (fun _ _ ht => ?_) (fun _ _ ht => ?_) <;> split
    · exact coreMod_keeps _ _ _ _ ht
    · exact ht
    · exact coreMod_parts _ _ _ _ ht rfl
    · exact ht
  case loop h lvl creg reg off count dt =>
    refine isaCmd_framed _ _ _ rfl (fun c _ ht => ?_) (fun c _ ht => ?_) <;> dsimp only <;>
      generalize (if creg = true then gRd c reg else count % 2 ^ 16) = lc <;> split
    · exact coreMod_keeps _ _ _ _ ht
    · exact isaReg_keeps _ _ _ _ ht
    · exact coreMod_parts _ _ _ _ ht rfl
    · exact isaReg_parts _ _ _ _ ht rfl
  all_goals cases hc

/-- Bytes that spell no reserved encoding are no instruction: the command lets time pass and no more. -/
theorem execReservedEncoding_none {P : State → Prop} {h : IsaHead} {esc : Nat} {bytes : List Nat} {dt : Nat} {s : State}
    (hc : (insOp (.reservedEncoding h esc bytes dt)).isSome = false) (hp : P (s.pass dt)) : answers P (exec (.reservedEncoding h esc bytes dt) s) := by
  have hr : ¬ encReserved (Enc.mk esc bytes) = true := fun hr => by simp [insOp, hr] at hc
  simp only [exec, execReservedEncoding, if_neg hr]
  exact answers_next hp


/-- A command of the block keeps what its meaning keeps. -/
theorem exec_block_keeps (c : Instr) (s : State) (hc : (insOp c).isSome = false) : answers (Keeps s) (exec c s) := by
  have hk : ∀ dt, Keeps s (s.pass dt) := fun dt => State.pass_keeps _ _ _ (Keeps.refl s)
  cases c
  all_goals try exact Bool.noConfusion hc
  case reservedEncoding h esc bytes dt => exact execReservedEncoding_none hc (hk dt)
  case wakeRestore => exact answers_onlyIf (hk _) (riseDone_keeps _ _ _ (riseDone_keeps _ _ _ (riseDone_keeps _ _ _ (hk _))))
  case backwardWindowEmpty => exact answers_onlyIf (hk _) (arcFeed_keeps _ _ (pollMiss_keeps _ _ _ (daliEmpty_keeps _ _ (hk _))))
  case flcNop dt =>
    refine answers_next ?_
    split
    · simp [hk]
    · exact hk dt
  case busLow | pfailLow | fabClockStop | powerOn | backupLoss | sysReset | extest | samplePreload | idcode | highz | dbgmem | dbgHalt | dbgResume | dbgStep | sysrst | tapReset =>
    exact answers_next (by simp [hk])
  all_goals exact answers_onlyIf (hk _) (by simp [hk])

/-- A command of the block changes the pieces of its meaning at most. -/
theorem exec_block_parts (c : Instr) (s : State) (hc : (insOp c).isSome = false) : answers (partsOnly (touches c) s) (exec c s) := by
  have hp : ∀ dt, sub [.elapsed, .firn] (touches c) = true → partsOnly (touches c) s (s.pass dt) := fun dt hL => State.pass_parts _ _ _ (partsOnly_refl _ s) hL
  have hw : ∀ w dt, partsOnly writePieces s (cmdWrite w (s.pass dt)) := fun w dt => cmdWrite_parts _ _ _ (State.pass_parts _ _ _ (partsOnly_refl _ s) rfl) rfl
  cases c
  all_goals try exact Bool.noConfusion hc
  case registerWrite | arm | disarm | captureApply | mbReqDoorbell | mbRspWrite | flush | flcDoorbell | flcCackWrite | flcEnWrite | flcXoWrite |
      abort | din3Submit | keyLoad | keyClear | ownershipChange | protLock | softwareFire | seten | setdis | timerStart | timerApply | force |
      timerBlockReset | rtcApply | wakePeriodWrite | spxStart | spxApply | txflush | rxflush | dataPush | voteWrite | stopreq | waketWrite |
      relatch | mirFence | daliSend =>
    exact answers_onlyIf (hp _ rfl) (hw _ _)
  case reservedEncoding h esc bytes dt => exact execReservedEncoding_none hc (hp dt rfl)
  case wakeRestore => exact answers_onlyIf (hp _ rfl) (riseDone_parts _ _ _ (riseDone_parts _ _ _ (riseDone_parts _ _ _ (hp _ rfl) rfl) rfl) rfl)
  case backwardWindowEmpty => exact answers_onlyIf (hp _ rfl) (arcFeed_parts _ _ (pollMiss_parts _ _ _ (daliEmpty_parts _ _ (hp _ rfl) rfl) rfl) rfl)
  case daliTransmitEnd => exact answers_onlyIf (hp _ rfl) (arcFeed_parts _ _ (daliTransmitEnd_parts _ _ _ (hp _ rfl) rfl) rfl)
  case photoSample => exact answers_onlyIf (hp _ rfl) (photoHolds_parts _ _ (photoSample_parts _ _ _ (hp _ rfl) rfl) rfl)
  case entryAbandon => exact answers_onlyIf (hp _ rfl) (hsAfter_parts _ _ _ (entryAbandon_parts _ _ _ (hp _ rfl) rfl) rfl)
  case slaveFrameStart => exact answers_onlyIf (hp _ rfl) (State.set1_parts _ _ _ (spxMod_parts _ _ _ _ (hp _ rfl) rfl) rfl)
  case sysrst => exact answers_next (jtagMod_parts _ _ _ (sysReset_parts _ _ _ (hp _ rfl) rfl) rfl)
  case flcNop dt =>
    refine answers_next ?_
    split
    · exact onlyIf_parts _ _ _ (flcComplete_parts _ _ _ _ (hp dt rfl) rfl) (hp dt rfl)
    · exact hp dt rfl
  case busLow | pfailLow | fabClockStop | powerOn | backupLoss | sysReset | extest | samplePreload | idcode | highz | dbgmem | dbgHalt | dbgResume | dbgStep | tapReset =>
    refine answers_next ?_
    simp (disch := first | exact hp _ rfl | exact of_decide_eq_true rfl)
  all_goals
    refine answers_onlyIf (hp _ rfl) ?_
    simp (disch := first | exact hp _ rfl | exact of_decide_eq_true rfl)

theorem exec_keeps (c : Instr) (s : State) : answers (Keeps s) (exec c s) := by
  cases hc : (insOp c).isSome with
  | true => exact fun t ht => (exec_instruction_framed c s hc t ht).keeps
  | false => exact exec_block_keeps c s hc

theorem exec_parts (c : Instr) (s : State) : answers (partsOnly (touches c) s) (exec c s) := by
  cases hc : (insOp c).isSome with
  | true => exact fun t ht => (exec_instruction_framed c s hc t ht).parts
  | false => exact exec_block_parts c s hc

/-- A step keeps what `Keeps` names of the state with the front command taken. -/
theorem step_keeps (s : State) : answers (Keeps { s with pending := s.pending.drop 1 }) (step s) := by
  intro t ht
  unfold step at ht
  split at ht
  · next hq =>
    cases ht
    have hs : { s with pending := s.pending.drop 1 } = s := by rw [hq, List.drop_nil, ← hq]
    exact State.pass_keeps _ _ _ (by rw [hs]; exact Keeps.refl s)
  · next c rest hq =>
    rw [hq]
    exact exec_keeps c { s with pending := rest } t ht

/-- No row of `touches` lists the queue. -/
theorem pending_notMem_touches (c : Instr) : Piece.pending ∉ touches c := by
  cases c <;> exact of_decide_eq_true rfl

end Sys2Proof.Machine

open Sys2Proof Sys2Proof.Machine

/-- Settles O2: nothing is listed at reset. -/
theorem resetCanonical : Obligations.ResetCanonical := ⟨rfl, rfl, rfl⟩

/-- Settles O6: the front of the queue is the command that `step` runs. -/
theorem stepTakesFront : Obligations.StepTakesFront := fun _ _ _ => rfl

/-- Settles O1, by `Keeps` of the command taken. -/
theorem stepsKeepCanonical : Obligations.StepsKeepCanonical := by
  intro s t hs ht
  obtain ⟨hq, _, hc⟩ := step_keeps s t ht
  exact ⟨hc hs, hq⟩

/-- Settles O4, command by command. -/
theorem commandFrames : Obligations.CommandFrames := ⟨exec_parts, pending_notMem_touches⟩
end

section
/-!
SUPPORT. Which register fields an operation leaves alone, as a relation that composes like `partsOnly` (Laws/Parts.lean), and the commit of shadows (R15).
-/
namespace Sys2Proof.Machine

/-! ### Commands that act on their occasion -/

/-- A command completes where its occasion holds and its effect has the property. -/
theorem completes_of_onlyIf {c : Instr} {s t u : State} {b : Bool} {P : State → Prop} (hc : exec c s = .next (onlyIf b t u)) (hb : b = true) (ht : P t) : completes c s P :=
  ⟨t, by rw [hc, onlyIf, if_pos hb], ht⟩

/-- A Boolean fits a field of one bit. -/
theorem b2n_mod_two (b : Bool) : b2n b % 2 = b2n b := by cases b <;> rfl

/-! ### Field frames -/

variable {fs : List Field} {z s t : State}

theorem fieldsOnly_refl (fs : List Field) (s : State) : fieldsOnly fs s s := fun _ _ => ⟨rfl, rfl⟩

/-- An operation that leaves both register files alone. -/
theorem fieldsOnly_same (h : fieldsOnly fs z s) (hr : t.regs = s.regs) (hc : t.com = s.com) : fieldsOnly fs z t := fun f hf => by
  have hf := h f hf
  simp only [State.rd, State.rdC, hr, hc] at hf ⊢
  exact hf

theorem fieldsOnly_wr (h : fieldsOnly fs z s) {f : Field} (v : Nat) (hf : f ∈ fs) : fieldsOnly fs z (s.wr f v) := fun g hg => by
  rw [State.rd_wr_other _ _ (hg f hf), State.rdC_wr]
  exact h g hg

theorem fieldsOnly_set1 (h : fieldsOnly fs z s) {f : Field} (hf : f ∈ fs) : fieldsOnly fs z (s.set1 f) := fieldsOnly_wr h 1 hf
theorem fieldsOnly_clr (h : fieldsOnly fs z s) {f : Field} (hf : f ∈ fs) : fieldsOnly fs z (s.clr f) := fieldsOnly_wr h 0 hf

theorem fieldsOnly_wrC (h : fieldsOnly fs z s) {f : Field} (v : Nat) (hf : f ∈ fs) : fieldsOnly fs z (s.wrC f v) := fun g hg => by
  rw [State.rd_wrC, State.rdC_wrC, if_neg (hg f hf)]
  exact h g hg

theorem fieldsOnly_raise (h : fieldsOnly fs z s) {e : Nat} : fieldsOnly fs z (s.raise e) := fieldsOnly_same h rfl rfl

/-! ### The commit of shadows -/

theorem State.commitFields_cons (s : State) (f : Field) (fs : List Field) : s.commitFields (f :: fs) = (s.wrC f (s.rd f)).commitFields fs := rfl

/-- A commit leaves the shadows alone. -/
@[simp] theorem State.rd_commitFields (s : State) (fs : List Field) (g : Field) : (s.commitFields fs).rd g = s.rd g :=
  foldl_same (fun t => t.rd g) _ fs s (fun t f => State.rd_wrC t f g _)

theorem State.rdC_commitFields_other (s : State) (fs : List Field) (g : Field) (hg : ∀ f ∈ fs, g.key ≠ f.key) : (s.commitFields fs).rdC g = s.rdC g := by
  induction fs generalizing s with
  | nil => rfl
  | cons f fs ih =>
    rw [State.commitFields_cons, ih _ (fun x hx => hg x (List.mem_cons_of_mem _ hx)), State.rdC_wrC, if_neg (hg f List.mem_cons_self)]

/-- Fields of keys of their own: each committed copy takes its shadow. -/
theorem State.rdC_commitFields (s : State) (fs : List Field) (hk : (fs.map Field.key).Nodup) (f : Field) (hf : f ∈ fs) : (s.commitFields fs).rdC f = s.rd f % 2 ^ f.width := by
  induction fs generalizing s with
  | nil => cases hf
  | cons g fs ih =>
    rw [List.map_cons, List.nodup_cons] at hk
    obtain ⟨hg, hk⟩ := hk
    rw [State.commitFields_cons]
    rcases List.mem_cons.1 hf with rfl | hf
    · rw [State.rdC_commitFields_other _ _ _ (fun x hx he => hg (he ▸ List.mem_map_of_mem hx)), State.rdC_wrC, if_pos rfl]
    · exact ih _ hk hf

theorem fieldsOnly_commitFields (h : fieldsOnly fs z s) (gs : List Field) (hg : ∀ g ∈ gs, g ∈ fs) : fieldsOnly fs z (s.commitFields gs) := by
  induction gs generalizing s with
  | nil => exact h
  | cons g gs ih => exact ih (fieldsOnly_wrC h _ (hg g List.mem_cons_self)) (fun x hx => hg x (List.mem_cons_of_mem _ hx))

end Sys2Proof.Machine
end

section
/-!
SUPPORT. Writes over the bus: what a write that lands stores, what a refused one records, a held write, and the commits of timers, serial ports and capture units.
-/
namespace Sys2Proof.Machine

/-! ### The bytes of a stored number (R8) -/

/-- The byte at an offset of the bytes written. -/
theorem memRd_memWrBytes_at (l : List Nat) (m : List Host.Cell) (a i : Nat) (hm : memWf m = true) (hi : i < l.length) : memRd (memWrBytes m a l) (a + i) = BitVec.ofNat 8 (l.getD i 0) := by
  induction l generalizing m a i with
  | nil => cases hi
  | cons b bs ih =>
    cases i with
    | zero => exact (memRd_memWrBytes_other bs _ _ _ (.inl (Nat.lt_succ_self a))).trans (memRd_memWr_same m a 0 _ hm)
    | succ i =>
      rw [memWrBytes, show a + (i + 1) = a + 1 + i by omega, ih _ _ _ (memWf_memWr m a _ hm) (Nat.lt_of_succ_lt_succ hi)]
      rfl

theorem leBytes_getD (n x i : Nat) (hi : i < n) : (leBytes n x).getD i 0 = x / 256 ^ i % 256 := by
  induction n generalizing x i with
  | zero => cases hi
  | succ n ih =>
    cases i with
    | zero => simp [leBytes]
    | succ i =>
      rw [leBytes, List.getD_cons_succ, ih _ _ (Nat.lt_of_succ_lt_succ hi), Nat.div_div_eq_div_mul, pow_succ']

/-- A number stored in memory, byte by byte, and the bytes beside it. -/
def Stores (a n v : Nat) (s t : State) : Prop :=
  (∀ i, i < n → (memRd t.mem (a + i)).toNat = v / 256 ^ i % 256) ∧ ∀ b, b < a ∨ a + n ≤ b → memRd t.mem b = memRd s.mem b

theorem stores_of_mem {a n v : Nat} {s t : State} (hs : memWf s.mem = true) (ht : t.mem = memWrBytes s.mem a (leBytes n v)) : Stores a n v s t := by
  refine ⟨fun i hi => ?_, fun b hb => ?_⟩
  · rw [ht, memRd_memWrBytes_at _ _ _ _ hs (by rwa [length_leBytes]), leBytes_getD _ _ _ hi, BitVec.toNat_ofNat]
    omega
  · rw [ht, memRd_memWrBytes_other _ _ _ _ (by rwa [length_leBytes])]

/-- The mirror's copy of a write leaves memory and the held writes alone (R671). -/
theorem mirrorOut_mem (g : Nat) (l : List Nat) (s : State) : (mirrorOut g l s).mem = s.mem :=
  mirrorOut_parts g l s s (partsOnly_refl [.mir, .regs] s) rfl .mem (by decide)

theorem mirrorOut_pwr (g : Nat) (l : List Nat) (s : State) : (mirrorOut g l s).pwr = s.pwr :=
  mirrorOut_parts g l s s (partsOnly_refl [.mir, .regs] s) rfl .pwr (by decide)

/-! ### Writes that reach their target (R7, R9, R29, R776) -/

theorem busWriteP_of_lands {w : BusReq} {s : State} (h : writeLands w s = true) : busWriteP false w s = targetWrite false w s := by
  simp only [writeLands, Bool.and_eq_true, beq_iff_eq, Bool.not_eq_true', Option.isNone_iff_eq_none] at h
  obtain ⟨⟨⟨⟨hk, hv⟩, hpar⟩, hasleep⟩, hheld⟩ := h
  simp [busWriteP, hk, hv, hpar, hasleep, hheld]

/-- A write that reaches its target and completes there leaves what the target leaves. -/
theorem cmdWrite_of_lands {w : BusReq} {s t : State} {v : Nat} (h : writeLands w s = true) (ht : targetWrite false w s = (.done v, t)) : cmdWrite w s = t := by
  rw [cmdWrite, cmdWriteP, busWriteP_of_lands h, ht]

theorem globalAddr_of_global {ini a : Nat} (h : a < 0x20000000 ∨ 0x20100000 ≤ a) : globalAddr ini a = some a := if_pos h

theorem busTarget_of_global {w : BusReq} {s : State} (h : w.addr < 0x20000000 ∨ 0x20100000 ≤ w.addr) : busTarget s w = (rgnOf s.isC w.addr, w.addr) := by
  simp [busTarget, globalAddr_of_global h]

theorem rgnOf_slot {isC : Bool} {a : Nat} (hlo : 0x40000000 ≤ a) (hhi : a < 0x40180000) : rgnOf isC a = .slot ((a - 0x40000000) / 0x10000) := by
  unfold rgnOf
  rw [if_neg (by omega), if_neg (by omega), if_neg (by omega), if_neg (by omega), if_neg (by omega), if_neg (by omega), if_pos ⟨hlo, hhi⟩]

/-- The end of the SRAM belongs to no region. -/
theorem rgnOf_sram {isC : Bool} {a : Nat} (hlo : 0x10000000 ≤ a) (hhi : a ≤ 0x10600000) : rgnOf isC a = .sram ((a - 0x10000000) / 0x40000) ∨ rgnOf isC a = .none := by
  unfold rgnOf
  rw [if_neg (by omega)]
  by_cases h : a < 0x10600000
  · exact .inl (if_pos ⟨hlo, h⟩)
  · right
    rw [if_neg (by omega), if_neg (by omega), if_neg (by omega), if_neg (by omega), if_neg (by omega), if_neg (by omega), if_neg (by omega)]

/-- A write of the SRAM stores its bytes. -/
theorem targetWrite_sram {w : BusReq} {s : State} (hlo : 0x10000000 ≤ w.addr) (hhi : w.addr ≤ 0x10600000) :
    targetWrite false w s = (.done 0, mirrorOut w.addr (leBytes w.size w.val) (arrayWrite w.addr (leBytes w.size w.val) false s)) := by
  rw [targetWrite, busTarget_of_global (.inl (by omega))]
  rcases rgnOf_sram (isC := s.isC) hlo hhi with h | h <;> simp only [h]

theorem registerWrite_stores (w : BusReq) (dt : Nat) (s : State) (hini : iniOk w = true) (hl : writeLands w (s.pass dt) = true) (hlo : 0x10000000 ≤ w.addr) (hhi : w.addr + w.size ≤ 0x10600000)
    (hm : memWf s.mem = true) : completes (.registerWrite w dt) s (Stores w.addr w.size w.val s) := by
  refine completes_of_onlyIf rfl hini ?_
  rw [cmdWrite_of_lands hl (targetWrite_sram hlo (by omega))]
  exact stores_of_mem hm (mirrorOut_mem _ _ _)

/-! ### Held writes (R29) -/

theorem heldWrite_stores (h : HeldW) (dt : Nat) (s : State) (hr : heldReady (s.pass dt) = some h) (hlo : 0x10000000 ≤ h.addr) (hhi : h.addr + h.size ≤ 0x10600000) (hm : memWf s.mem = true) :
    completes (.heldWrite dt) s (fun t => t.pwr.held = s.pwr.held.erase h ∧ Stores h.addr h.size h.val s t) := by
  refine completes_of_onlyIf rfl (by rw [hr]; rfl) ?_
  simp only [heldWrite, hr]
  rw [targetWrite_sram hlo (by simp only; omega)]
  refine ⟨?_, stores_of_mem hm (mirrorOut_mem _ _ _)⟩
  rw [mirrorOut_pwr]
  rfl

/-! ### Registers without a meaning of their own (R9) -/

theorem fBits_lt (f : Field) (v : Nat) : fBits f v < 2 ^ f.width := Nat.mod_lt _ (Nat.two_pow_pos _)

/-- What a field holds after a write of its register, by its access code. -/
def fieldAfter (f : Field) (v : Nat) (s : State) : Nat :=
  match f.acc with
  | .rw => fBits f v
  | .w1c => (s.rd f - (s.rd f &&& fBits f v)) % 2 ^ f.width
  | _ => s.rd f

theorem fieldPut_rd_same (f : Field) (v : Nat) (s : State) : (fieldPut f v s).rd f = fieldAfter f v s := by
  unfold fieldPut fieldAfter
  cases f.acc
  case rw => exact (State.rd_wr_same _ _ _).trans (Nat.mod_eq_of_lt (fBits_lt f v))
  case w1c => exact State.rd_wr_same _ _ _
  all_goals rfl

theorem fieldPut_fields {fs : List Field} {z s : State} (h : fieldsOnly fs z s) {f : Field} (v : Nat) (hf : f ∈ fs) : fieldsOnly fs z (fieldPut f v s) := by
  unfold fieldPut
  split
  · exact fieldsOnly_wr h _ hf
  · exact fieldsOnly_wr h _ hf
  · exact h

theorem fieldPut_rd_other {f g : Field} (v : Nat) (s : State) (h : g.key ≠ f.key) : (fieldPut f v s).rd g = s.rd g :=
  (fieldPut_fields (fieldsOnly_refl [f] s) v List.mem_cons_self g (by simpa using h)).1

theorem regPut_nil_cons (f : Field) (fs : List Field) (v : Nat) (s : State) : regPut [] (f :: fs) v s = regPut [] fs v (fieldPut f v s) := rfl

theorem regPut_fields {gs : List Field} {z s : State} (fs : List Field) (v : Nat) (h : fieldsOnly gs z s) (hg : ∀ f ∈ fs, f ∈ gs) : fieldsOnly gs z (regPut [] fs v s) := by
  induction fs generalizing s with
  | nil => exact h
  | cons f fs ih => exact ih (fieldPut_fields h v (hg f List.mem_cons_self)) (fun g hm => hg g (List.mem_cons_of_mem _ hm))

/-- Fields of keys of their own: each takes what its access code lets it take. -/
theorem regPut_rd (fs : List Field) (v : Nat) (s : State) (hk : (fs.map Field.key).Nodup) (f : Field) (hf : f ∈ fs) : (regPut [] fs v s).rd f = fieldAfter f v s := by
  induction fs generalizing s with
  | nil => cases hf
  | cons g fs ih =>
    rw [List.map_cons, List.nodup_cons] at hk
    obtain ⟨hg, hk⟩ := hk
    have hne : ∀ x ∈ fs, x.key ≠ g.key := fun x hx he => hg (he ▸ List.mem_map_of_mem hx)
    rw [regPut_nil_cons]
    rcases List.mem_cons.1 hf with rfl | hf
    · rw [(regPut_fields fs v (fieldsOnly_refl fs _) (fun _ h => h) f (fun x hx => (hne x hx).symm)).1, fieldPut_rd_same]
    · rw [ih _ hk hf, fieldAfter, fieldPut_rd_other _ _ (hne f hf)]
      rfl

/-- The slots whose registers have no meaning of their own, by the upper half of their addresses. -/
def plainSlots : List Nat := [0x40060000, 0x40070000, 0x40080000, 0x40090000, 0x400A0000, 0x400B0000, 0x400C0000, 0x400F0000, 0x40130000, 0x40170000].map (· / 0x10000)

theorem slotWrite_plain {ini a v : Nat} {s : State} (h : a / 0x10000 ∈ plainSlots) : slotWrite false ini a v s = regPut [] (regFields a) v s := by
  have hs : (a - 0x40000000) / 0x10000 ∈ [6, 7, 8, 9, 10, 11, 12, 15, 19, 23] ∧ 0x40060000 ≤ a := by
    simp [plainSlots] at h ⊢
    omega
  obtain ⟨hs, ha⟩ := hs
  have hf : slotFields ini a = regFields a := if_neg (by omega)
  unfold slotWrite
  simp only [hf]
  split
  · next he =>
    rw [List.isEmpty_iff.1 he.1]
    rfl
  · generalize (a - 0x40000000) / 0x10000 = n at hs
    simp only [List.mem_cons, List.not_mem_nil, or_false] at hs
    rcases hs with rfl | rfl | rfl | rfl | rfl | rfl | rfl | rfl | rfl | rfl <;> rfl

theorem targetWrite_plain {w : BusReq} {s : State} (h : w.addr / 0x10000 ∈ plainSlots) : targetWrite false w s = (.done 0, regPut [] (regFields w.addr) w.val s) := by
  have ha : 0x40060000 ≤ w.addr ∧ w.addr < 0x40180000 := by
    simp [plainSlots] at h
    omega
  rw [targetWrite, busTarget_of_global (.inr (by omega)), rgnOf_slot (by omega) ha.2]
  simp only [slotWrite_plain h]

theorem registerWrite_plain (w : BusReq) (dt : Nat) (s : State) (hini : iniOk w = true) (hl : writeLands w (s.pass dt) = true) (ha : w.addr / 0x10000 ∈ plainSlots)
    (hk : ((regFields w.addr).map Field.key).Nodup) :
    completes (.registerWrite w dt) s (fun t => (∀ f ∈ regFields w.addr, t.rd f = fieldAfter f w.val s) ∧ changesOnly (regFields w.addr) [] (s.pass dt) t) := by
  refine completes_of_onlyIf rfl hini ?_
  rw [cmdWrite_of_lands hl (targetWrite_plain ha)]
  exact ⟨regPut_rd _ _ _ hk, regPut_fields _ _ (fieldsOnly_refl _ _) (fun _ h => h), regPut_parts _ _ _ _ _ (partsOnly_refl _ _) rfl⟩

/-! ### Refused writes (R45, R776) -/

/-- The kinds of the bus errors that the checks give. -/
theorem accessKind_lt (s : State) (ini : Nat) (user write fetch : Bool) (a size : Nat) : (accessKind s ini user write fetch a size).1 < 8 := by
  unfold accessKind
  split
  · decide
  · split
    · decide
    · split
      · decide
      · split
        · decide
        · decide
        · split
          · split <;> decide
          · decide

theorem cmdWrite_of_refused {w : BusReq} {s : State} (h : 0 < (accessKind s w.ini w.user true false w.addr w.size).1) :
    cmdWrite w s = postFail w.ini w.addr (accessKind s w.ini w.user true false w.addr w.size).1
      (busError w.ini true w.addr (accessKind s w.ini w.user true false w.addr w.size).1 (accessKind s w.ini w.user true false w.addr w.size).2 s) := by
  simp [cmdWrite, cmdWriteP, busWriteP, busFail, Nat.ne_of_gt h]

/-- Telling the initiator writes the host's status alone. -/
theorem postFail_fields (ini a kind : Nat) (s : State) : fieldsOnly [Reg.HW_STAT_BERR, Reg.HW_BERRADDR] s (postFail ini a kind s) := by
  unfold postFail
  split
  · exact fieldsOnly_same (fieldsOnly_refl _ _) rfl rfl
  split
  · exact fieldsOnly_same (fieldsOnly_refl _ _) rfl rfl
  split
  · exact fieldsOnly_same (fieldsOnly_refl _ _) rfl rfl
  split
  · exact fieldsOnly_wr (fieldsOnly_set1 (fieldsOnly_refl _ _) (by simp)) _ (by simp)
  · exact fieldsOnly_refl _ _

theorem postFail_mem (ini a kind : Nat) (s : State) : (postFail ini a kind s).mem = s.mem :=
  postFail_parts ini a kind s s (partsOnly_refl [.regs, .cores, .sig] s) rfl .mem (by decide)

theorem busError_mem (ini : Nat) (write : Bool) (a kind : Nat) (denied : Bool) (s : State) : (busError ini write a kind denied s).mem = s.mem :=
  busError_parts ini write a kind denied s s (partsOnly_refl [.regs] s) rfl .mem (by decide)

/-- A refusal by the ownership table is counted, and else recorded like any other (R45, R536). -/
theorem busError_denied (ini : Nat) (write : Bool) (a kind : Nat) (s : State) : busError ini write a kind true s = busError ini write a kind false (s.inc Reg.PROT_STAT_DENY) := rfl

/-- With no error recorded, a failed access is recorded whole. -/
theorem busError_of_none_recorded (ini : Nat) (write : Bool) (a kind : Nat) {s : State} (h : s.on Reg.SYS_BERR_INFO_VALID = false) :
    busError ini write a kind false s =
      ((((s.wr Reg.SYS_BERR_ADDR a).wr Reg.SYS_BERR_INFO_KIND kind).wr Reg.SYS_BERR_INFO_WRITE (b2n write)).wr Reg.SYS_BERR_INFO_INIT ini).set1 Reg.SYS_BERR_INFO_VALID := by
  simp only [busError, Bool.false_eq_true, if_false, h]

/-- SYS_BERR shows a failed access. -/
def BerrShows (a kind : Nat) (write : Bool) (t : State) : Prop :=
  t.rd Reg.SYS_BERR_INFO_VALID = 1 ∧ t.rd Reg.SYS_BERR_INFO_KIND = kind % 2 ^ 4 ∧ t.rd Reg.SYS_BERR_INFO_WRITE = b2n write ∧ t.rd Reg.SYS_BERR_ADDR = a % 2 ^ 32

theorem busError_shows_undenied (ini a kind : Nat) (write : Bool) {s : State} (h : s.on Reg.SYS_BERR_INFO_VALID = false) : BerrShows a kind write (busError ini write a kind false s) := by
  rw [busError_of_none_recorded ini write a kind h]
  refine ⟨State.rd_wr_same _ _ _, ?_, ?_, ?_⟩ <;> simp (decide := true) only [State.rd_set1, State.rd_wr, if_true, if_false]
  · rfl
  · exact b2n_mod_two write
  · rfl

theorem busError_shows (ini a kind : Nat) (write denied : Bool) {s : State} (h : s.on Reg.SYS_BERR_INFO_VALID = false) : BerrShows a kind write (busError ini write a kind denied s) := by
  cases denied with
  | false => exact busError_shows_undenied ini a kind write h
  | true =>
    have hd : (s.inc Reg.PROT_STAT_DENY).on Reg.SYS_BERR_INFO_VALID = false := by
      rw [← h]
      exact congrArg (· == 1) (State.rd_wr_other _ _ (by decide))
    rw [busError_denied]
    exact busError_shows_undenied ini a kind write hd

theorem registerWrite_refused (w : BusReq) (dt : Nat) (s : State) (hini : iniOk w = true) (hk : 0 < (accessKind (s.pass dt) w.ini w.user true false w.addr w.size).1)
    (hv : s.on Reg.SYS_BERR_INFO_VALID = false) :
    completes (.registerWrite w dt) s (fun t => t.rd Reg.SYS_BERR_INFO_VALID = 1 ∧ t.rd Reg.SYS_BERR_INFO_KIND = (accessKind (s.pass dt) w.ini w.user true false w.addr w.size).1 ∧
      t.rd Reg.SYS_BERR_INFO_WRITE = 1 ∧ t.rd Reg.SYS_BERR_ADDR = w.addr ∧ memSame s t) := by
  have haddr : w.addr < 2 ^ 32 := by
    simp only [iniOk, Bool.and_eq_true, decide_eq_true_eq] at hini
    exact hini.2
  have hkind := accessKind_lt (s.pass dt) w.ini w.user true false w.addr w.size
  refine completes_of_onlyIf rfl hini ?_
  rw [cmdWrite_of_refused hk]
  generalize accessKind (s.pass dt) w.ini w.user true false w.addr w.size = k at hkind
  obtain ⟨hvalid, hk, hw, ha⟩ := busError_shows w.ini w.addr k.1 true k.2 (s := s.pass dt) hv
  have hpost := postFail_fields w.ini w.addr k.1 (busError w.ini true w.addr k.1 k.2 (s.pass dt))
  refine ⟨?_, ?_, ?_, ?_, fun a => ?_⟩
  · rw [(hpost _ (by decide)).1, hvalid]
  · rw [(hpost _ (by decide)).1, hk, Nat.mod_eq_of_lt (by omega)]
  · rw [(hpost _ (by decide)).1, hw]
    rfl
  · rw [(hpost _ (by decide)).1, ha, Nat.mod_eq_of_lt haddr]
  · rw [postFail_mem, busError_mem]
    rfl

/-! ### The commit of shadows (R15, R16) -/

theorem tmrSFields_keys : ∀ b < 8, ((tmrSFields b).map Field.key).Nodup ∧ ∀ f ∈ tmrSFields b, f.key ≠ (Reg.TMR_CTL_APPLY b).key := by decide

theorem shadowCommit_timer (b dt : Nat) (s : State) (hb : b < 8) (hok : shadowCommitOk b (s.pass dt) = true) :
    completes (.shadowCommit b dt) s (fun t => t.rd (Reg.TMR_CTL_APPLY b) = 0 ∧
      (if tmrRefused b s = true then t.rd (Reg.TMR_STAT_CFGERR b) = 1 ∧ t.com = s.com
       else (∀ f ∈ tmrSFields b, t.rdC f = s.rd f % 2 ^ f.width) ∧ changesOnly (Reg.TMR_CTL_APPLY b :: tmrSFields b) [] (s.pass dt) t)) := by
  obtain ⟨hnd, hne⟩ := tmrSFields_keys b hb
  refine completes_of_onlyIf rfl hok ?_
  have ht : shadowCommit b (s.pass dt) = if tmrRefused b s = true then ((s.pass dt).clr (Reg.TMR_CTL_APPLY b)).set1 (Reg.TMR_STAT_CFGERR b)
      else ((s.pass dt).clr (Reg.TMR_CTL_APPLY b)).commitFields (tmrSFields b) := if_pos hb
  rw [ht]
  split
  · have hk : (Reg.TMR_CTL_APPLY b).key ≠ (Reg.TMR_STAT_CFGERR b).key := by simp only [Field.key, Reg.TMR_CTL_APPLY, Reg.TMR_STAT_CFGERR]; omega
    exact ⟨(State.rd_wr_other _ _ hk).trans (State.rd_wr_same _ _ _), State.rd_wr_same _ _ _, rfl⟩
  · refine ⟨?_, fun f hf => ?_, ?_, ?_⟩
    · rw [State.rd_commitFields]
      exact State.rd_wr_same _ _ _
    · rw [State.rdC_commitFields _ _ hnd f hf, State.rd_clr, if_neg (hne f hf), State.rd_pass]
    · exact fieldsOnly_commitFields (fieldsOnly_clr (fieldsOnly_refl _ _) List.mem_cons_self) _ (fun g hg => List.mem_cons_of_mem _ hg)
    · exact State.commitFields_parts _ _ _ (wr_parts _ _ _ (partsOnly_refl _ _) rfl) rfl

/-- The class S fields of a serial port (R606, R621). -/
def spxSFields (n : Nat) : List Field :=
  [Reg.SPX_CFG_WSIZE n, Reg.SPX_PCMD_EN n, Reg.SPX_PCMD_LANES n, Reg.SPX_PCMD_LEN n, Reg.SPX_PADR_EN n, Reg.SPX_PADR_LANES n, Reg.SPX_PADR_LEN n, Reg.SPX_PDAT_EN n,
    Reg.SPX_PDAT_LANES n, Reg.SPX_PDAT_DIR n, Reg.SPX_PDAT_DUMMY n, Reg.SPX_PDAT_LEN n]

theorem spxCommit_refused {n : Nat} {s : State} (h : s.rd (Reg.SPX_CFG_WSIZE n) = 3) : spxCommit n s = (s.set1 (Reg.SPX_STAT_CFGERR n)).clr (Reg.SPX_CTL_APPLY n) := by
  rw [spxCommit]
  exact congrArg (fun t : State => t.clr (Reg.SPX_CTL_APPLY n)) (if_pos (Or.inl h))

theorem spxCommit_commits {n : Nat} {s : State} (hw : s.rd (Reg.SPX_CFG_WSIZE n) ≠ 3) (hlen : (s.rd (Reg.SPX_PDAT_LEN n) + 1) % (8 * 2 ^ s.rd (Reg.SPX_CFG_WSIZE n)) = 0) :
    spxCommit n s = (s.commitFields (spxSFields n)).clr (Reg.SPX_CTL_APPLY n) := by
  rw [spxCommit]
  exact congrArg (fun t : State => t.clr (Reg.SPX_CTL_APPLY n)) (if_neg (not_or.2 ⟨hw, not_not.2 hlen⟩))

theorem spxSFields_keys : ∀ n < 2, ((spxSFields n).map Field.key).Nodup := by decide

theorem shadowCommit_serial (n dt : Nat) (s : State) (hn : n < 2) (hok : shadowCommitOk (8 + n) (s.pass dt) = true) :
    completes (.shadowCommit (8 + n) dt) s (fun t => t.rd (Reg.SPX_CTL_APPLY n) = 0 ∧
      (if s.rd (Reg.SPX_CFG_WSIZE n) = 3 then t.rd (Reg.SPX_STAT_CFGERR n) = 1 ∧ t.com = s.com
       else (s.rd (Reg.SPX_PDAT_LEN n) + 1) % (8 * 2 ^ s.rd (Reg.SPX_CFG_WSIZE n)) = 0 → t.rdC (Reg.SPX_CFG_WSIZE n) = s.rd (Reg.SPX_CFG_WSIZE n) % 4)) := by
  refine completes_of_onlyIf rfl hok ?_
  have ht : shadowCommit (8 + n) (s.pass dt) = spxCommit n (s.pass dt) := by
    rw [shadowCommit, if_neg (by omega), if_pos (by omega), Nat.add_sub_cancel_left]
  rw [ht]
  refine ⟨State.rd_wr_same _ _ _, ?_⟩
  split
  · next hw =>
    rw [spxCommit_refused (s := s.pass dt) hw]
    have hk : (Reg.SPX_STAT_CFGERR n).key ≠ (Reg.SPX_CTL_APPLY n).key := by simp only [Field.key, Reg.SPX_CTL_APPLY, Reg.SPX_STAT_CFGERR]; omega
    exact ⟨(State.rd_wr_other _ _ hk).trans (State.rd_wr_same _ _ _), rfl⟩
  · next hw =>
    intro hlen
    rw [spxCommit_commits (s := s.pass dt) hw hlen]
    rw [State.clr, State.rdC_wr, State.rdC_commitFields _ _ (spxSFields_keys n hn) _ List.mem_cons_self, State.rd_pass]
    rfl

theorem capSFields_keys : ∀ k < 4, ((capSFields k).map Field.key).Nodup ∧ ∀ f ∈ capSFields k, f.key ≠ (Reg.FIRN_CAP_CTL_APPLY k).key := by decide

theorem shadowCommit_capture (k dt : Nat) (s : State) (hk : k < 4) (hok : shadowCommitOk (10 + k) (s.pass dt) = true) :
    completes (.shadowCommit (10 + k) dt) s (fun t => t.rd (Reg.FIRN_CAP_CTL_APPLY k) = 0 ∧
      (if capRefused k s = true then t.rd (Reg.FIRN_CAP_STAT_CFGERR k) = 1 ∧ t.com = s.com
       else t.rdC (Reg.FIRN_CAP_CTL_EN k) = s.rd (Reg.FIRN_CAP_CTL_EN k) % 2 ∧ t.rdC (Reg.FIRN_CAP_CTL_SRC k) = s.rd (Reg.FIRN_CAP_CTL_SRC k) % 256)) := by
  obtain ⟨hnd, hne⟩ := capSFields_keys k hk
  refine completes_of_onlyIf rfl hok ?_
  have ht : shadowCommit (10 + k) (s.pass dt) = captureApply k (s.pass dt) := by
    rw [shadowCommit, if_neg (by omega), if_neg (by omega), Nat.add_sub_cancel_left]
  rw [ht, captureApply, show capRefused k (s.pass dt) = capRefused k s from rfl]
  split
  · have hk' : (Reg.FIRN_CAP_CTL_APPLY k).key ≠ (Reg.FIRN_CAP_STAT_CFGERR k).key := by simp only [Field.key, Reg.FIRN_CAP_CTL_APPLY, Reg.FIRN_CAP_STAT_CFGERR]; omega
    exact ⟨(State.rd_wr_other _ _ hk').trans (State.rd_wr_same _ _ _), State.rd_wr_same _ _ _, rfl⟩
  · have hc : ∀ f ∈ capSFields k, (State.commitFields { (s.pass dt).clr (Reg.FIRN_CAP_CTL_APPLY k) with firn := { (s.pass dt).firn with applyAt := del k (s.pass dt).firn.applyAt } } (capSFields k)).rdC f =
        s.rd f % 2 ^ f.width := fun f hf =>
      (State.rdC_commitFields _ _ hnd f hf).trans (congrArg (· % 2 ^ f.width) (State.rd_wr_other _ _ (hne f hf)))
    refine ⟨?_, hc _ (by simp [capSFields]), hc _ (by simp [capSFields])⟩
    rw [State.rd_commitFields]
    exact State.rd_wr_same _ _ _

end Sys2Proof.Machine

open Sys2Proof Sys2Proof.Machine

/-- Settles O16: each clause by its own lemma. -/
theorem busWrites : Obligations.BusWrites := by
  unfold Obligations.BusWrites
  exact ⟨registerWrite_plain, registerWrite_stores, registerWrite_refused, heldWrite_stores, shadowCommit_timer, shadowCommit_serial, shadowCommit_capture⟩
end

section
/-!
SUPPORT. The lamp block: what the fault judge, the DALI engine's feed and the output writer leave alone, then its commands.
-/
namespace Sys2Proof.Machine

/-! ### What the fault judge, the engine's feed and the output writer leave alone (R719, R725, R737) -/

/-- What the DALI poll and the meters have recorded. -/
def lampRecord (s : State) : Nat × Bool × Nat × Nat × Nat := (s.lum.misses, s.lum.gear, s.lum.power, s.lum.energy, s.lum.peak)

/-- A fault bit changes: LMP_FAULTS, EV165 and the LAMP notice. -/
def faultChange (bit : Nat) (c : Bool) (s0 : State) : State :=
  let s := burnCount s0
  let s1 := ((lumMod (fun l => { l with fsince := del bit l.fsince }) s).wr Reg.LMP_FAULTS (putBits (s.rd Reg.LMP_FAULTS) bit 1 (b2n c))).raise 165
  notice 0xF009 7 (leBytes 4 (s1.rd Reg.LMP_FAULTS)) s1

/-- The judgement of one bit leaves the state alone, moves its time, or changes the bit. -/
theorem faultBit_cases (bit : Nat) (s : State) :
    faultBit bit s = s ∨ (∃ l, faultBit bit s = lumMod (fun x => { x with fsince := l }) s) ∨ ∃ c, faultBit bit s = faultChange bit c s := by
  unfold faultBit
  split
  · exact .inl rfl
  · next c hold _ =>
    simp only
    split
    · exact .inr (.inl ⟨_, rfl⟩)
    · by_cases ht : (look bit s.lum.fsince).getD s.elapsed + cycS (if c then hold else 60) ≤ s.elapsed
      · rw [if_pos ht]
        exact .inr (.inr ⟨c, rfl⟩)
      · rw [if_neg ht]
        exact .inr (.inl ⟨_, rfl⟩)

theorem faultChange_rd (bit : Nat) (c : Bool) (s : State) {f : Field} (hm : offMbx f) (hf : f.key ≠ Reg.LMP_FAULTS.key) : (faultChange bit c s).rd f = s.rd f := by
  rw [faultChange, notice_rd _ _ _ _ _ hm, State.rd_raise, State.rd_wr_other _ _ hf]
  rfl

theorem notice_lum (code bit : Nat) (p : List Nat) (s : State) : (notice code bit p s).lum = s.lum :=
  notice_parts code bit p s s (partsOnly_refl [.mboxes, .regs, .heldNotices] s) rfl .lum (by decide)

theorem notice_flight (code bit : Nat) (p : List Nat) (s : State) : (notice code bit p s).flight = s.flight :=
  notice_parts code bit p s s (partsOnly_refl [.mboxes, .regs, .heldNotices] s) rfl .flight (by decide)

theorem faultChange_lum (bit : Nat) (c : Bool) (s : State) :
    (faultChange bit c s).lum = { (burnCount s).lum with fsince := del bit s.lum.fsince } := by
  rw [faultChange, notice_lum]
  rfl

theorem faultChange_flight (bit : Nat) (c : Bool) (s : State) : (faultChange bit c s).flight = s.flight ++ [165] := by
  rw [faultChange, notice_flight]
  rfl

theorem faultBit_rd (bit : Nat) (s : State) {f : Field} (hm : offMbx f) (hf : f.key ≠ Reg.LMP_FAULTS.key) : (faultBit bit s).rd f = s.rd f := by
  rcases faultBit_cases bit s with h | ⟨l, h⟩ | ⟨c, h⟩ <;> rw [h]
  · rfl
  · exact faultChange_rd bit c s hm hf

theorem faultBit_lampRecord (bit : Nat) (s : State) : lampRecord (faultBit bit s) = lampRecord s := by
  rcases faultBit_cases bit s with h | ⟨l, h⟩ | ⟨c, h⟩ <;> rw [h]
  · rfl
  · rw [lampRecord, faultChange_lum]
    rfl

theorem faultBit_flight (bit e : Nat) (s : State) (h : e ∈ s.flight) : e ∈ (faultBit bit s).flight := by
  rcases faultBit_cases bit s with hb | ⟨l, hb⟩ | ⟨c, hb⟩ <;> rw [hb]
  · exact h
  · exact h
  · rw [faultChange_flight]
    exact List.mem_append_left _ h

/-- The fault judge writes LMP_FAULTS alone outside the mailboxes. -/
theorem faultEval_rd (s : State) {f : Field} (hm : offMbx f) (hf : f.key ≠ Reg.LMP_FAULTS.key) : (faultEval s).rd f = s.rd f := by
  unfold faultEval
  split
  · exact foldl_same (fun t => t.rd f) _ _ s (fun t b => faultBit_rd b t hm hf)
  · rfl

theorem faultEval_lampRecord (s : State) : lampRecord (faultEval s) = lampRecord s := by
  unfold faultEval
  split
  · exact foldl_same lampRecord _ _ s (fun t b => faultBit_lampRecord b t)
  · rfl

theorem faultEval_flight (e : Nat) (s : State) (h : e ∈ s.flight) : e ∈ (faultEval s).flight := by
  unfold faultEval
  split
  · exact foldl_keeps (fun t => e ∈ t.flight) _ _ s (fun t b => faultBit_flight b e t) h
  · exact h

/-- Without the service nothing is judged. -/
theorem faultEval_off {s : State} (h : s.on Reg.LMP_STAT_SVC = false) : faultEval s = s := by simp [faultEval, lumOn, h]

/-- The fields that handing the engine a level writes. -/
def arcFields : List Field := [Reg.LMP_DALI_TX_FRAME, Reg.LMP_DALI_TX_LEN, Reg.LMP_DALI_TX_BW, Reg.LMP_STAT_DALIBUSY, Reg.LMP_STAT_CFGERR]

theorem daliSend_fields {z s : State} {fs : List Field} (h : fieldsOnly fs z s) (hb : Reg.LMP_STAT_DALIBUSY ∈ fs) (hc : Reg.LMP_STAT_CFGERR ∈ fs) : fieldsOnly fs z (daliSend s) := by
  unfold daliSend
  split
  · exact fieldsOnly_set1 h hc
  · exact fieldsOnly_same (fieldsOnly_set1 h hb) rfl rfl

theorem daliSend_lum (s : State) : (daliSend s).lum = s.lum := by
  unfold daliSend
  split <;> rfl

theorem arcFeed_fields {z s : State} {fs : List Field} (h : fieldsOnly fs z s) (ha : ∀ f ∈ arcFields, f ∈ fs) : fieldsOnly fs z (arcFeed s) := by
  simp only [arcFields, List.forall_mem_cons, List.not_mem_nil, false_implies, implies_true, and_true] at ha
  obtain ⟨hframe, hlen, hbw, hbusy, herr⟩ := ha
  unfold arcFeed
  split
  · exact h
  · split
    · exact h
    · exact fieldsOnly_same (daliSend_fields (fieldsOnly_clr (fieldsOnly_clr (fieldsOnly_wr h _ hframe) hlen) hbw) hbusy herr) rfl rfl

theorem arcFeed_rd (s : State) {f : Field} (hf : ∀ g ∈ arcFields, f.key ≠ g.key) : (arcFeed s).rd f = s.rd f :=
  (arcFeed_fields (fieldsOnly_refl arcFields s) (fun _ h => h) f hf).1

/-- With no level byte waiting, the engine is fed nothing. -/
theorem arcFeed_of_arc_none {s : State} (h : s.lum.arc = none) : arcFeed s = s := by simp [arcFeed, h]

theorem arcFeed_lampRecord (s : State) : lampRecord (arcFeed s) = lampRecord s := by
  unfold arcFeed
  split
  · rfl
  · split
    · rfl
    · simp only [lampRecord, lumMod, daliSend_lum]
      rfl

theorem arcFeed_flight (s : State) : (arcFeed s).flight = s.flight :=
  arcFeed_parts s s (partsOnly_refl [.lmp, .regs, .lum] s) rfl .flight (by decide)

/-- The fields that a level's outputs are written to (R725). -/
def lumOutputs : List Field :=
  arcFields ++ [Reg.LMP_PWM_PER_PERIOD 0, Reg.LMP_PWM_PER_PERIOD 1, Reg.LMP_PWM_DUTY_DUTY 0, Reg.LMP_PWM_DUTY_DUTY 1, Reg.LMP_CTL_PWM0EN, Reg.LMP_CTL_PWM1EN,
    Reg.LMP_CTL_DACEN, Reg.LMP_DAC_CODE, Reg.LMP_CTL_DALIEN, Reg.LMP_CTL_LTEN, Reg.LMP_CTL_LCH, Reg.LMP_CTL_APPLY]

theorem lumWrite_fields (lt dali : Bool) (level : Nat) (s : State) : fieldsOnly lumOutputs s (lumWrite lt dali level s) := by
  refine arcFeed_fields (fieldsOnly_same (s := lmpApplyWrite _) (fieldsOnly_same (fieldsOnly_set1 ?_ (by simp [lumOutputs])) rfl rfl) rfl rfl) (fun f hf => List.mem_append_left _ hf)
  cases lt
  all_goals
    simp only [Bool.false_eq_true, if_false, if_true]
    repeat refine fieldsOnly_wr ?_ _ (by simp [lumOutputs])
    exact fieldsOnly_same (fieldsOnly_refl _ _) rfl rfl

theorem lumWrite_lampRecord (lt dali : Bool) (level : Nat) (s : State) : lampRecord (lumWrite lt dali level s) = lampRecord s := by
  unfold lumWrite
  rw [arcFeed_lampRecord]
  cases lt <;> simp [lampRecord, lumMod, lmpApplyWrite, burnCount, State.set1]

theorem lumJudge_rd (s : State) {f : Field} (hf : ∀ g ∈ lumOutputs, f.key ≠ g.key) : (lumJudge s).rd f = s.rd f := by
  simp only [lumJudge]
  split
  · rfl
  · split
    · exact (lumWrite_fields _ _ _ _ f hf).1
    · rfl

theorem lumJudge_lampRecord (s : State) : lampRecord (lumJudge s) = lampRecord s := by
  simp only [lumJudge]
  split
  · rfl
  · split
    · exact lumWrite_lampRecord _ _ _ _
    · rfl

theorem lumJudge_flight (s : State) : (lumJudge s).flight = s.flight :=
  lumJudge_parts s s (partsOnly_refl [.lmp, .regs, .lum] s) rfl .flight (by decide)

/-! ### The commit of the lamp's outputs (R16, R720) -/

/-- A commit that waits for no launch is refused for a PERIOD below 4,000 alone. -/
theorem lmpRefused_of_lten_off {s : State} (h : s.on Reg.LMP_CTL_LTEN = false) :
    lmpRefused s = true ↔ s.rd (Reg.LMP_PWM_PER_PERIOD 0) < 4000 ∨ s.rd (Reg.LMP_PWM_PER_PERIOD 1) < 4000 := by
  simp [lmpRefused, h]

theorem lten_off_of_lmpApplyOk {s : State} (h : lmpApplyOk s = true) : s.on Reg.LMP_CTL_LTEN = false := by
  simp only [lmpApplyOk, Bool.and_eq_true, Bool.not_eq_true'] at h
  exact h.1.2

theorem lmpApply_commits (dt : Nat) (s : State) (hok : lmpApplyOk (s.pass dt) = true) (h0 : 4000 ≤ s.rd (Reg.LMP_PWM_PER_PERIOD 0)) (h1 : 4000 ≤ s.rd (Reg.LMP_PWM_PER_PERIOD 1)) :
    completes (.lmpApply dt) s (fun t => t.rd Reg.LMP_CTL_APPLY = 0 ∧ (∀ f ∈ lmpSFields, t.rdC f = s.rd f % 2 ^ f.width ∧ t.rd f = s.rd f) ∧
      changesOnly (Reg.LMP_CTL_APPLY :: lmpSFields) [] (s.pass dt) t) := by
  have hr : ¬ lmpRefused (s.pass dt) = true := by
    rw [lmpRefused_of_lten_off (lten_off_of_lmpApplyOk hok)]
    simp only [State.rd_pass]
    omega
  have hkeys : ∀ f ∈ lmpSFields, f.key ≠ Reg.LMP_CTL_APPLY.key := by decide
  refine completes_of_onlyIf rfl hok ?_
  simp only [lmpCommit, if_neg hr]
  refine ⟨?_, fun f hf => ⟨?_, ?_⟩, ?_, ?_⟩
  · rw [State.rd_commitFields, State.rd_clr, if_pos rfl]
  · rw [State.rdC_commitFields _ _ (by decide) f hf, State.rd_clr, if_neg (hkeys f hf), State.rd_pass]
  · rw [State.rd_commitFields, State.rd_clr, if_neg (hkeys f hf), State.rd_pass]
  · exact fieldsOnly_commitFields (fieldsOnly_clr (fieldsOnly_refl _ _) List.mem_cons_self) _ (fun g hg => List.mem_cons_of_mem _ hg)
  · exact State.commitFields_parts _ _ _ (wr_parts _ _ _ (partsOnly_refl _ _) rfl) rfl

theorem lmpApply_refused (dt : Nat) (s : State) (hok : lmpApplyOk (s.pass dt) = true) (h : s.rd (Reg.LMP_PWM_PER_PERIOD 0) < 4000 ∨ s.rd (Reg.LMP_PWM_PER_PERIOD 1) < 4000) :
    completes (.lmpApply dt) s (fun t => t.rd Reg.LMP_CTL_APPLY = 0 ∧ t.rd Reg.LMP_STAT_CFGERR = 1 ∧ changesOnly [Reg.LMP_CTL_APPLY, Reg.LMP_STAT_CFGERR] [] (s.pass dt) t) := by
  have hr : lmpRefused (s.pass dt) = true := (lmpRefused_of_lten_off (lten_off_of_lmpApplyOk hok)).2 h
  refine completes_of_onlyIf rfl hok ?_
  simp only [lmpCommit, if_pos hr]
  refine ⟨?_, ?_, ?_, ?_⟩
  · simp (decide := true) [State.rd_set1, State.rd_clr]
  · simp (decide := true) [State.rd_set1]
  · exact fieldsOnly_set1 (fieldsOnly_clr (fieldsOnly_refl _ _) (by simp)) (by simp)
  · exact wr_parts _ _ _ (wr_parts _ _ _ (partsOnly_refl _ _) rfl) rfl

/-! ### The DALI engine (R719) -/

/-- The end of a frame frees the engine, opens the window that the frame asked for, or tells the collision. -/
theorem daliTransmitEnd_spec (collision : Bool) (dt : Nat) (f : DaliFrame) (s : State) (hf : s.lmp.dali = some f) (hw : s.lmp.daliWait = false)
    (ht : f.at_ + (if f.long then 25 else 17) * 256000 ≤ s.elapsed + dt) (ha : s.lum.arc = none) :
    completes (.daliTransmitEnd collision dt) s (fun t => t.rd Reg.LMP_STAT_DALIBUSY = 0 ∧ t.rd Reg.LMP_DALI_RX_ERR = (if collision then 1 else s.rd Reg.LMP_DALI_RX_ERR) ∧
      t.lmp = { s.lmp with dali := none, window := if f.bw && !collision then some f else none } ∧ t.flight = s.flight ++ [167] ∧
      changesOnly [Reg.LMP_STAT_DALIBUSY, Reg.LMP_DALI_RX_ERR] [.lmp, .flight] (s.pass dt) t) := by
  have hok : daliTransmitEndOk (s.pass dt) = true := by
    simp only [daliTransmitEndOk, State.pass_lmp, hf, hw, State.pass_elapsed]
    simpa using ht
  refine completes_of_onlyIf rfl hok ?_
  rw [arcFeed_of_arc_none (by simpa [daliTransmitEnd, apply_ite] using ha)]
  have hparts : partsOnly [.regs, .com, .lmp, .flight] (s.pass dt) (daliTransmitEnd collision (s.pass dt)) := daliTransmitEnd_parts _ _ _ (partsOnly_refl _ _) rfl
  have hl : (s.pass dt).lmp.dali.filter (fun g => g.bw && !collision) = if f.bw && !collision then some f else none := by
    simp [hf, Option.filter]
  cases collision with
  | false =>
    refine ⟨State.rd_wr_same _ _ _, State.rd_wr_other _ _ (by decide), congrArg (fun w => { s.lmp with dali := none, window := w }) hl, rfl, ?_, hparts⟩
    exact fieldsOnly_same (fieldsOnly_clr (fieldsOnly_refl _ _) List.mem_cons_self) rfl rfl
  | true =>
    refine ⟨(State.rd_wr_other _ _ (by decide)).trans (State.rd_wr_same _ _ _), State.rd_wr_same _ _ _, congrArg (fun w => { s.lmp with dali := none, window := w }) hl, rfl, ?_, hparts⟩
    exact fieldsOnly_same (fieldsOnly_set1 (fieldsOnly_clr (fieldsOnly_refl _ _) List.mem_cons_self) (by simp)) rfl rfl


theorem backwardOk_of_window {s : State} {f : DaliFrame} (h : s.lmp.window = some f) : backwardOk s = true := by simp [backwardOk, h]
theorem winPoll_of_window {s : State} {f : DaliFrame} (h : s.lmp.window = some f) : winPoll s = f.poll := by simp [winPoll, h]

/-- An answered poll ends the run of misses and takes the gear bits; nothing else that is recorded moves. -/
theorem pollAnswer_record {s : State} (h : lumOn s = true) (d : Nat) :
    lampRecord (pollAnswer true (some d) s) = (0, decide (d % 4 ≠ 0), s.lum.power, s.lum.energy, s.lum.peak) := by
  rw [pollAnswer, h]
  exact faultEval_lampRecord _

theorem pollAnswer_rd (poll : Bool) (d : Option Nat) (s : State) {f : Field} (hm : offMbx f) (hf : f.key ≠ Reg.LMP_FAULTS.key) : (pollAnswer poll d s).rd f = s.rd f := by
  unfold pollAnswer
  split
  · rfl
  · exact faultEval_rd _ hm hf

theorem pollAnswer_flight (poll : Bool) (d : Option Nat) (e : Nat) (s : State) (h : e ∈ s.flight) : e ∈ (pollAnswer poll d s).flight := by
  unfold pollAnswer
  split
  · exact h
  · exact faultEval_flight _ _ h

/-- A poll without an answer is one more miss. -/
theorem pollMiss_record {s : State} (h : lumOn s = true) : lampRecord (pollMiss true s) = (s.lum.misses + 1, s.lum.gear, s.lum.power, s.lum.energy, s.lum.peak) := by
  rw [pollMiss, h]
  exact faultEval_lampRecord _

theorem pollMiss_rd (poll : Bool) (s : State) {f : Field} (hm : offMbx f) (hf : f.key ≠ Reg.LMP_FAULTS.key) : (pollMiss poll s).rd f = s.rd f := by
  unfold pollMiss
  split
  · rfl
  · exact faultEval_rd _ hm hf

theorem pollAnswer_false (d : Option Nat) (s : State) : pollAnswer false d s = s := rfl
theorem pollMiss_false (s : State) : pollMiss false s = s := rfl

/-- A frame in the window of a frame that the owner sent: the receive register and EV167. -/
theorem backwardFrame_spec (data dt : Nat) (err : Bool) (f : DaliFrame) (s : State) (hf : s.lmp.window = some f) (ha : s.lum.arc = none) (hp : f.poll = false) :
    completes (.backwardFrame data err dt) s (fun t => t.rd Reg.LMP_DALI_RX_ERR = (if err then 1 else s.rd Reg.LMP_DALI_RX_ERR) ∧ t.rd Reg.LMP_DALI_RX_VALID = (if err then s.rd Reg.LMP_DALI_RX_VALID else 1) ∧
      t.rd Reg.LMP_DALI_RX_DATA = (if err then s.rd Reg.LMP_DALI_RX_DATA else data % 256) ∧ t.flight = s.flight ++ [167] ∧ t.lmp = { s.lmp with window := none } ∧
      changesOnly [Reg.LMP_DALI_RX_ERR, Reg.LMP_DALI_RX_VALID, Reg.LMP_DALI_RX_DATA] [.lmp, .flight] (s.pass dt) t) := by
  refine completes_of_onlyIf rfl (backwardOk_of_window (s := s.pass dt) hf) ?_
  have hlum : (daliBackward data err (s.pass dt)).lum = s.lum := by cases err <;> rfl
  rw [backwardFrame, winPoll_of_window (s := s.pass dt) hf, hp, pollAnswer_false, arcFeed_of_arc_none (hlum ▸ ha)]
  have hparts : partsOnly [.regs, .com, .lmp, .flight] (s.pass dt) (daliBackward data err (s.pass dt)) := daliBackward_parts _ _ _ _ (partsOnly_refl _ _) rfl
  cases err with
  | false =>
    refine ⟨?_, ?_, ?_, rfl, rfl, ?_, hparts⟩
    · exact (State.rd_wr_other _ _ (by decide)).trans (State.rd_wr_other _ _ (by decide))
    · exact State.rd_wr_same _ _ _
    · exact (State.rd_wr_other _ _ (by decide)).trans (State.rd_wr_same _ _ _)
    · exact fieldsOnly_same (fieldsOnly_set1 (fieldsOnly_wr (fieldsOnly_refl _ _) data (by simp)) (by simp)) rfl rfl
  | true =>
    refine ⟨?_, ?_, ?_, rfl, rfl, ?_, hparts⟩
    · exact State.rd_wr_same _ _ _
    · exact State.rd_wr_other _ _ (by decide)
    · exact State.rd_wr_other _ _ (by decide)
    · exact fieldsOnly_same (fieldsOnly_set1 (fieldsOnly_refl _ _) List.mem_cons_self) rfl rfl

/-- The service's poll is answered (R737). -/
theorem backwardFrame_poll (data dt : Nat) (f : DaliFrame) (s : State) (hf : s.lmp.window = some f) (hp : f.poll = true) (hs : s.on Reg.LMP_STAT_SVC = true) :
    completes (.backwardFrame data false dt) s (fun t => t.rd Reg.LMP_DALI_RX_VALID = 1 ∧ t.lum.misses = 0 ∧ t.lum.gear = decide (data % 256 % 4 ≠ 0) ∧ 167 ∈ t.flight) := by
  refine completes_of_onlyIf rfl (backwardOk_of_window (s := s.pass dt) hf) ?_
  have hsvc : lumOn (daliBackward data false (s.pass dt)) = true := by
    rw [← hs]
    exact congrArg (· == 1) ((State.rd_wr_other _ _ (by decide)).trans (State.rd_wr_other _ _ (by decide)))
  rw [backwardFrame, winPoll_of_window (s := s.pass dt) hf, hp]
  have hrec := (arcFeed_lampRecord _).trans (pollAnswer_record hsvc (data % 256))
  refine ⟨?_, congrArg (·.1) hrec, congrArg (·.2.1) hrec, ?_⟩
  · rw [arcFeed_rd _ (by decide), pollAnswer_rd _ _ _ (by simp only [offMbx]; decide) (by decide)]
    exact State.rd_wr_same _ _ _
  · rw [arcFeed_flight]
    exact pollAnswer_flight _ _ _ _ (List.mem_append_right _ List.mem_cons_self)

/-- A window that passes empty after a frame that the owner sent. -/
theorem backwardWindowEmpty_spec (dt : Nat) (f : DaliFrame) (s : State) (hf : s.lmp.window = some f) (ha : s.lum.arc = none) (hp : f.poll = false) :
    completes (.backwardWindowEmpty dt) s (fun t => t.rd Reg.LMP_DALI_RX_NONE = 1 ∧ t.flight = s.flight ++ [167] ∧ t.lmp = { s.lmp with window := none } ∧
      changesOnly [Reg.LMP_DALI_RX_NONE] [.lmp, .flight] (s.pass dt) t) := by
  refine completes_of_onlyIf rfl (backwardOk_of_window (s := s.pass dt) hf) ?_
  rw [winPoll_of_window (s := s.pass dt) hf, hp, pollMiss_false, arcFeed_of_arc_none (s := daliEmpty (s.pass dt)) ha]
  refine ⟨State.rd_wr_same _ _ _, rfl, rfl, ?_, ?_⟩
  · exact fieldsOnly_same (fieldsOnly_set1 (fieldsOnly_refl _ _) List.mem_cons_self) rfl rfl
  · exact daliEmpty_parts _ _ (partsOnly_refl _ _) rfl

/-- The service's poll is not answered (R737). -/
theorem backwardWindowEmpty_poll (dt : Nat) (f : DaliFrame) (s : State) (hf : s.lmp.window = some f) (hp : f.poll = true) (hs : s.on Reg.LMP_STAT_SVC = true) :
    completes (.backwardWindowEmpty dt) s (fun t => t.rd Reg.LMP_DALI_RX_NONE = 1 ∧ t.lum.misses = s.lum.misses + 1 ∧ t.lum.gear = s.lum.gear) := by
  refine completes_of_onlyIf rfl (backwardOk_of_window (s := s.pass dt) hf) ?_
  have hsvc : lumOn (daliEmpty (s.pass dt)) = true := by
    rw [← hs]
    exact congrArg (· == 1) (State.rd_wr_other _ _ (by decide))
  rw [winPoll_of_window (s := s.pass dt) hf, hp]
  have hrec := (arcFeed_lampRecord _).trans (pollMiss_record hsvc)
  refine ⟨?_, congrArg (·.1) hrec, congrArg (·.2.1) hrec⟩
  rw [arcFeed_rd _ (by decide), pollMiss_rd _ _ (by simp only [offMbx]; decide) (by decide)]
  exact State.rd_wr_same _ _ _

/-! ### The bus held low (R719, R737) -/

theorem busLow_spec (low : Bool) (dt : Nat) (s : State) :
    completes (.busLow low dt) s (fun t => t.rd Reg.LMP_STAT_BUSLOW = b2n low ∧ (s.on Reg.LMP_STAT_SVC = false → changesOnly [Reg.LMP_STAT_BUSLOW] [] (s.pass dt) t)) := by
  refine ⟨_, rfl, ?_, fun hs => ?_⟩
  · rw [busLow, faultEval_rd _ (by simp only [offMbx]; decide) (by decide)]
    exact (State.rd_wr_same _ _ _).trans (b2n_mod_two low)
  · have hoff : ((s.pass dt).wr Reg.LMP_STAT_BUSLOW (b2n low)).on Reg.LMP_STAT_SVC = false := by
      rw [← hs]
      exact congrArg (· == 1) (State.rd_wr_other _ _ (by decide))
    rw [busLow, faultEval_off hoff]
    exact ⟨fieldsOnly_wr (fieldsOnly_refl _ _) _ List.mem_cons_self, wr_parts _ _ _ (partsOnly_refl _ _) rfl⟩

theorem Firn.pass_stage (f : Firn) (t0 dt : Nat) : (f.pass t0 dt).stage = f.stage := by
  simp only [Firn.pass]
  split
  · rfl
  · split
    · rfl
    · split <;> rfl

/-- No fault but a low bus is in sight: no schedule, no metering scale, time known, every poll answered without a failure. -/
structure LampQuiet (s : State) : Prop where
  sched : s.lum.sched = []
  scale : vScale s = 0
  stage : s.firn.stage ≠ .free
  misses : s.lum.misses = 0
  gear : s.lum.gear = false

theorem photoSays_of_sched_nil {s : State} (h : s.lum.sched = []) (kind : Nat) : photoSays s kind = false := by
  rw [photoSays, h]
  rfl

/-- Then every bit but the low bus is absent or not judged. -/
theorem LampQuiet.faultCond {s : State} (h : LampQuiet s) {bit : Nat} (hb : bit ≠ 4) : ∀ p ∈ faultCond s bit, p.1 = false := by
  obtain ⟨hsched, hscale, hstage, hmiss, hgear⟩ := h
  unfold Machine.faultCond
  have hf : (s.firn.stage == .free) = false := by simpa using hstage
  split <;> simp [hscale, hmiss, hgear, photoSays_of_sched_nil hsched, hf] at hb ⊢

/-- A bit that is clear and whose condition is absent, while no time runs, stays as it is. -/
theorem faultBit_idle {s : State} {bit : Nat} (hs : s.lum.fsince = []) (hb : bitOf (s.rd Reg.LMP_FAULTS) bit = 0) (hc : ∀ p ∈ faultCond s bit, p.1 = false) : faultBit bit s = s := by
  unfold faultBit
  split
  · rfl
  · next c hold hp =>
    have hcf : c = (bitOf (s.rd Reg.LMP_FAULTS) bit == 1) := by rw [hb]; exact hc _ hp
    rw [if_pos hcf]
    have hd : del bit s.lum.fsince = s.lum.fsince := by rw [hs]; rfl
    simp only [lumMod, hd]

theorem vScale_of_tables {s t : State} (h : t.tables = s.tables) : vScale t = vScale s := by simp only [vScale, dimBody, rfeBody, h]

/-- A change of a bit brings no fault into sight. -/
theorem LampQuiet.faultChange {s : State} (h : LampQuiet s) (bit : Nat) (c : Bool) : LampQuiet (Machine.faultChange bit c s) := by
  have hb : partsOnly [.lum] s (burnCount s) := burnCount_parts s s (partsOnly_refl _ s) rfl
  have hp : partsOnly [.mboxes, .regs, .heldNotices, .flight, .lum] s (Machine.faultChange bit c s) :=
    notice_parts _ _ _ _ _ (State.raise_parts _ _ _ (wr_parts _ _ _ (lumMod_parts _ _ _ (burnCount_parts s s (partsOnly_refl _ s) rfl) rfl) rfl) rfl) rfl
  have hl := faultChange_lum bit c s
  exact ⟨by rw [hl]; exact h.sched, (vScale_of_tables (hp .tables (by decide))).trans h.scale, by rw [show (Machine.faultChange bit c s).firn = s.firn from hp .firn (by decide)]; exact h.stage,
    by rw [hl]; exact h.misses, by rw [hl]; exact h.gear⟩

theorem faultChange_faults (bit : Nat) (c : Bool) (s : State) : (faultChange bit c s).rd Reg.LMP_FAULTS = putBits (s.rd Reg.LMP_FAULTS) bit 1 (b2n c) % 2 ^ 32 := by
  rw [faultChange, notice_rd _ _ _ _ _ (by simp only [offMbx]; decide), State.rd_raise, State.rd_wr_same]
  rfl

/-- With the bus low for its time and nothing else amiss, the judge sets that bit and no other. -/
theorem faultEval_busLow {s : State} (hon : s.on Reg.LMP_STAT_SVC = true) (hq : LampQuiet s) (hs : s.lum.fsince = []) (hf : s.rd Reg.LMP_FAULTS = 0) (hl : s.on Reg.LMP_STAT_BUSLOW = true) :
    faultEval s = faultChange 4 true s := by
  have hidle : ∀ b, b ≠ 4 → faultBit b s = s := fun b hb => faultBit_idle hs (by rw [hf]; simp [bitOf]) (hq.faultCond hb)
  have hset : faultBit 4 s = faultChange 4 true s := by
    simp only [faultBit, faultCond, hl, hs, look, Option.getD_none, hf]
    simp [faultChange, bitOf, cycS]
  have hs' : (faultChange 4 true s).lum.fsince = [] := by rw [faultChange_lum, hs]; rfl
  have hf' : (faultChange 4 true s).rd Reg.LMP_FAULTS = 16 := by rw [faultChange_faults, hf]; rfl
  have hidle' : ∀ b, 4 < b → b < 8 → faultBit b (faultChange 4 true s) = faultChange 4 true s := fun b hb hb' =>
    faultBit_idle hs' (by rw [hf']; interval_cases b <;> rfl) ((hq.faultChange 4 true).faultCond (by omega))
  rw [faultEval, lumOn, if_pos hon, show List.range 8 = [0, 1, 2, 3, 4, 5, 6, 7] from rfl]
  simp only [List.foldl_cons, List.foldl_nil]
  rw [hidle 0 (by decide), hidle 1 (by decide), hidle 2 (by decide), hidle 3 (by decide), hset, hidle' 5 (by decide) (by decide), hidle' 6 (by decide) (by decide), hidle' 7 (by decide) (by decide)]

theorem busLow_fault (dt : Nat) (s : State) (hon : s.on Reg.LMP_STAT_SVC = true) (hs : s.lum.fsince = []) (hf : s.rd Reg.LMP_FAULTS = 0) (hq : LampQuiet s) :
    completes (.busLow true dt) s (fun t => t.rd Reg.LMP_FAULTS = 16 ∧ 165 ∈ t.flight) := by
  let u := (s.pass dt).wr Reg.LMP_STAT_BUSLOW 1
  have hu : ∀ f : Field, f.key ≠ Reg.LMP_STAT_BUSLOW.key → u.rd f = s.rd f := fun f h => State.rd_wr_other _ _ h
  have hstage : u.firn.stage = s.firn.stage := Firn.pass_stage _ _ _
  have huq : LampQuiet u := ⟨hq.sched, (vScale_of_tables rfl).trans hq.scale, hstage ▸ hq.stage, hq.misses, hq.gear⟩
  have huon : u.on Reg.LMP_STAT_SVC = true := by rw [← hon]; exact congrArg (· == 1) (hu _ (by decide))
  have huf : u.rd Reg.LMP_FAULTS = 0 := (hu _ (by decide)).trans hf
  have hulow : u.on Reg.LMP_STAT_BUSLOW = true := congrArg (· == 1) (State.rd_wr_same _ _ _)
  refine ⟨_, rfl, ?_⟩
  rw [show busLow true (s.pass dt) = faultEval u from rfl, faultEval_busLow huon huq hs huf hulow]
  refine ⟨?_, ?_⟩
  · rw [faultChange_faults, huf]
    rfl
  · rw [faultChange_flight]
    exact List.mem_append_right _ List.mem_cons_self

/-! ### PHOTO and metering (R721, R722, R737) -/

theorem photoSample_spec (uv dt : Nat) (s : State) (h : s.lmp.photoAt + cycMs 100 ≤ s.elapsed + dt) :
    completes (.photoSample uv dt) s (fun t => t.rd Reg.LMP_PHOTO_VALUE = min 1023 ((uv * 1023 + 1250000) / 2500000) ∧ t.lmp = { s.lmp with photoAt := s.elapsed + dt } ∧
      changesOnly [Reg.LMP_PHOTO_VALUE] [.lmp, .lum] (s.pass dt) t) := by
  refine completes_of_onlyIf rfl (decide_eq_true h) ⟨?_, rfl, ?_, ?_⟩
  · exact (State.rd_wr_same _ _ _).trans (Nat.mod_eq_of_lt (Nat.lt_succ_of_le (Nat.min_le_left _ _)))
  · exact fieldsOnly_same (fieldsOnly_wr (fieldsOnly_refl _ _) (photoValue uv) List.mem_cons_self) rfl rfl
  · exact photoHolds_parts _ _ (photoSample_parts _ _ _ (partsOnly_refl _ _) rfl) rfl

/-- The four metering registers. -/
def meterFields : List Field := (List.range 4).flatMap (fun k => [Reg.LMP_MET_SEQ k, Reg.LMP_MET_SAMPLE k])

theorem meterSeq_mem {k : Nat} (hk : k < 4) : Reg.LMP_MET_SEQ k ∈ meterFields := List.mem_flatMap.2 ⟨k, List.mem_range.2 hk, by simp⟩
theorem meterSample_mem {k : Nat} (hk : k < 4) : Reg.LMP_MET_SAMPLE k ∈ meterFields := List.mem_flatMap.2 ⟨k, List.mem_range.2 hk, by simp⟩

theorem meterLatch_fields (last : Nat × Nat × Nat × Nat) (s : State) : fieldsOnly meterFields s (meterLatch last s) := by
  have hstep : ∀ {t : State} {k : Nat} (v q : Nat), k < 4 → fieldsOnly meterFields s t → fieldsOnly meterFields s ((t.wr (Reg.LMP_MET_SEQ k) q).wr (Reg.LMP_MET_SAMPLE k) v) :=
    fun v q hk h => fieldsOnly_wr (fieldsOnly_wr h q (meterSeq_mem hk)) v (meterSample_mem hk)
  simp only [meterLatch]
  exact fieldsOnly_raise (hstep _ _ (by decide) (hstep _ _ (by decide) (hstep _ _ (by decide) (hstep _ _ (by decide) (fieldsOnly_refl _ _)))))

theorem meterLatch_seq (last : Nat × Nat × Nat × Nat) (s : State) {k : Nat} (hk : k < 4) : (meterLatch last s).rd (Reg.LMP_MET_SEQ k) = (s.rd (Reg.LMP_MET_SEQ 0) + 64) % 256 := by
  simp only [meterLatch, State.rd_raise]
  interval_cases k <;> simp (decide := true) only [State.rd_wr, if_true, if_false] <;> rfl

theorem meterLatch_sample (v i x y : Nat) (s : State) :
    (meterLatch (v, i, x, y) s).rd (Reg.LMP_MET_SAMPLE 0) = v % 2 ^ 24 ∧ (meterLatch (v, i, x, y) s).rd (Reg.LMP_MET_SAMPLE 1) = i % 2 ^ 24 ∧
    (meterLatch (v, i, x, y) s).rd (Reg.LMP_MET_SAMPLE 2) = x % 2 ^ 24 ∧ (meterLatch (v, i, x, y) s).rd (Reg.LMP_MET_SAMPLE 3) = y % 2 ^ 24 := by
  simp only [meterLatch, State.rd_raise]
  refine ⟨?_, ?_, ?_, ?_⟩ <;> simp (decide := true) only [State.rd_wr, if_true, if_false] <;> rfl

/-- The registers of a block are those of its latch. -/
theorem meterBlock_rd (b : List (Nat × Nat × Nat × Nat)) (s : State) {f : Field} (hf : f ∈ meterFields) : (meterBlock b s).rd f = (meterLatch (b.getLastD (0, 0, 0, 0)) s).rd f := by
  have hj : ∀ f ∈ meterFields, ∀ g ∈ lumOutputs, f.key ≠ g.key := by decide
  have hm : ∀ f ∈ meterFields, offMbx f ∧ f.key ≠ Reg.LMP_FAULTS.key := by simp only [offMbx]; decide
  obtain ⟨hoff, hfaults⟩ := hm f hf
  simp only [meterBlock]
  split
  · rfl
  · rw [lumJudge_rd _ (hj f hf), faultEval_rd _ hoff hfaults]
    rfl

theorem meterLatch_svc (last : Nat × Nat × Nat × Nat) (s : State) : lumOn (meterLatch last s) = lumOn s :=
  congrArg (· == 1) (meterLatch_fields last s Reg.LMP_STAT_SVC (by decide)).1

theorem meterBlock_off (b : List (Nat × Nat × Nat × Nat)) (s : State) (h : lumOn s = false) : meterBlock b s = meterLatch (b.getLastD (0, 0, 0, 0)) s := by
  simp only [meterBlock, meterLatch_svc, h, Bool.not_false, if_true]

/-- EV166 is raised. -/
theorem meterBlock_flight (b : List (Nat × Nat × Nat × Nat)) (s : State) : 166 ∈ (meterBlock b s).flight := by
  have hl : 166 ∈ (meterLatch (b.getLastD (0, 0, 0, 0)) s).flight := List.mem_append_right _ List.mem_cons_self
  simp only [meterBlock]
  split
  · exact hl
  · rw [lumJudge_flight]
    exact faultEval_flight _ _ hl

/-- The mean power of a block counts once in the energy and in the peak. -/
theorem meterBlock_record (b : List (Nat × Nat × Nat × Nat)) (s : State) (h : lumOn s = true) :
    lampRecord (meterBlock b s) = (s.lum.misses, s.lum.gear, blockP s b, s.lum.energy + blockP s b, max s.lum.peak (blockP s b)) := by
  simp only [meterBlock, meterLatch_svc, h, Bool.not_true, Bool.false_eq_true, if_false]
  rw [lumJudge_lampRecord, faultEval_lampRecord]
  rfl

/-- A block's power where both scales stand and the mean is not negative (R737). -/
theorem blockP_of_nonneg {s : State} {b : List (Nat × Nat × Nat × Nat)} {p : Int} (hv : vScale s ≠ 0) (hi : iScale s ≠ 0) (hp : 0 ≤ p)
    (he : p = roundDiv ((b.map (fun z => toSigned 24 z.1 * toSigned 24 z.2.1)).sum * ((vScale s * iScale s : Nat) : Int)) (64 * 10 ^ 14)) : blockP s b = p.toNat := by
  have hvi : ¬ (vScale s = 0 ∨ iScale s = 0) := by simp [hv, hi]
  rw [blockP, if_neg hvi]
  simp only [← he]
  rw [if_neg (Int.not_lt.2 hp)]

theorem meterBlock_spec (b : List (Nat × Nat × Nat × Nat)) (v i x y dt : Nat) (s : State) (hm : s.on Reg.LMP_CTL_MEN = true) (hb : b.length = 64) (hl : b.getLastD (0, 0, 0, 0) = (v, i, x, y)) :
    completes (.meterBlock b dt) s (fun t => (∀ k, k < 4 → t.rd (Reg.LMP_MET_SEQ k) = (s.rd (Reg.LMP_MET_SEQ 0) + 64) % 256) ∧ t.rd (Reg.LMP_MET_SAMPLE 0) = v % 2 ^ 24 ∧ t.rd (Reg.LMP_MET_SAMPLE 1) = i % 2 ^ 24 ∧
      t.rd (Reg.LMP_MET_SAMPLE 2) = x % 2 ^ 24 ∧ t.rd (Reg.LMP_MET_SAMPLE 3) = y % 2 ^ 24 ∧ 166 ∈ t.flight ∧
      (s.on Reg.LMP_STAT_SVC = false → t.flight = s.flight ++ [166] ∧ changesOnly ((List.range 4).flatMap (fun k => [Reg.LMP_MET_SEQ k, Reg.LMP_MET_SAMPLE k])) [.flight] (s.pass dt) t) ∧
      ∀ p : Int, s.on Reg.LMP_STAT_SVC = true → vScale s ≠ 0 → iScale s ≠ 0 → 0 ≤ p → p = roundDiv ((b.map (fun z => toSigned 24 z.1 * toSigned 24 z.2.1)).sum * ((vScale s * iScale s : Nat) : Int)) (64 * 10 ^ 14) →
        t.lum.power = p.toNat ∧ t.lum.energy = s.lum.energy + p.toNat ∧ t.lum.peak = max s.lum.peak p.toNat) := by
  have hok : meterBlockOk b (s.pass dt) = true := by
    rw [meterBlockOk, Bool.and_eq_true, hb]
    exact ⟨hm, rfl⟩
  obtain ⟨h0, h1, h2, h3⟩ := meterLatch_sample v i x y (s.pass dt)
  refine completes_of_onlyIf rfl hok ⟨fun k hk => ?_, ?_, ?_, ?_, ?_, meterBlock_flight _ _, fun hs => ?_, fun p hs hv hi hp he => ?_⟩
  · rw [meterBlock_rd _ _ (meterSeq_mem hk)]
    exact meterLatch_seq _ _ hk
  · rw [meterBlock_rd _ _ (meterSample_mem (by decide)), hl, h0]
  · rw [meterBlock_rd _ _ (meterSample_mem (by decide)), hl, h1]
  · rw [meterBlock_rd _ _ (meterSample_mem (by decide)), hl, h2]
  · rw [meterBlock_rd _ _ (meterSample_mem (by decide)), hl, h3]
  · rw [meterBlock_off _ _ (show lumOn (s.pass dt) = false from hs)]
    exact ⟨rfl, meterLatch_fields _ _, meterLatch_parts _ _ _ (partsOnly_refl _ _) rfl⟩
  · have hrec := meterBlock_record b (s.pass dt) hs
    rw [show blockP (s.pass dt) b = p.toNat from blockP_of_nonneg (s := s.pass dt) hv hi hp he] at hrec
    exact ⟨congrArg (·.2.2.1) hrec, congrArg (·.2.2.2.1) hrec, congrArg (·.2.2.2.2) hrec⟩

end Sys2Proof.Machine

open Sys2Proof Sys2Proof.Machine

/-- Settles O58: each command of the block by its own lemma. -/
theorem lampBlock : Obligations.LampBlock := by
  unfold Obligations.LampBlock
  refine ⟨lmpApply_commits, lmpApply_refused, daliTransmitEnd_spec, backwardFrame_spec, backwardFrame_poll, backwardWindowEmpty_spec, backwardWindowEmpty_poll, busLow_spec, ?_, ?_, meterBlock_spec⟩
  · exact fun dt s hon hs hf hmiss hgear hsched hscale hstage => busLow_fault dt s hon hs hf ⟨hsched, hscale, hstage, hmiss, hgear⟩
  · exact fun uv dt s hat _ => photoSample_spec uv dt s hat
end

section
/-!
SUPPORT. The state at reset, and what a reset leaves (R43, R47): of the registers it keeps the fields that `keptKey` names as `flcCut` leaves them, and the fuses.
-/
namespace Sys2Proof.Machine

/-! ### The state at reset -/

/-- Nothing is stored at reset, so each field reads the reset value of its register map. -/
theorem State.rd_reset (f : Field) : State.reset.rd f = f.reset := rfl
theorem State.rdC_reset (f : Field) : State.reset.rdC f = f.reset := rfl

/-! ### Dropping entries by key -/

theorem look_filter_key {α : Type} (p : Nat → Bool) (k : Nat) (l : List (Nat × α)) : look k (l.filter (fun e => p e.1)) = if p k then look k l else none := by
  induction l with
  | nil => simp [look]
  | cons e l ih =>
    obtain ⟨j, v⟩ := e
    by_cases hjk : k = j
    · subst hjk
      by_cases hk : p k = true <;> simp [hk, look, ih]
    · by_cases hj : p j = true <;> simp [hj, look, hjk, ih]

/-- Of register files cut to the keys of `p`, a field reads what it read or its reset value. -/
theorem State.rd_of_regs_filter {s t : State} (p : Nat → Bool) (h : t.regs = s.regs.filter (fun e => p e.1)) (f : Field) : t.rd f = if p f.key then s.rd f else f.reset := by
  simp only [State.rd, h, look_filter_key]
  split <;> rfl

/-! ### Resets (R43, R47) -/

/-- Cutting off what runs on the planes (R494) leaves the fuses and every other piece but these alone. -/
theorem flcCut_frame (s : State) : partsOnly [.age, .par, .mboxes, .flc, .regs, .health, .freeCtr, .heldNotices, .drc, .mem, .flight] s (flcCut s) :=
  flcCut_parts s s (partsOnly_refl _ s) rfl

theorem flcCut_of_run_nil {s : State} (h : s.flc.run = []) : flcCut s = s := by rw [flcCut, h, List.foldl_nil]

theorem resetTo_rd (aon : Bool) (s : State) (f : Field) : (resetTo aon s).rd f = if keptKey aon f.key then (flcCut s).rd f else f.reset :=
  State.rd_of_regs_filter (keptKey aon) rfl f

theorem resetTo_mem (aon : Bool) (s : State) : (resetTo aon s).mem = [] := rfl
theorem resetTo_fuses (aon : Bool) (s : State) : (resetTo aon s).fuses = s.fuses := flcCut_frame s .fuses (by decide)

/-- What a system reset records and leaves. -/
def SysResetLeaves (cause : Field) (s t : State) : Prop :=
  t.rd cause = 1 ∧ (∀ f : Field, f.key ≠ cause.key → t.rd f = if keptKey true f.key then (flcCut s).rd f else f.reset) ∧ t.mem = [] ∧ t.fuses = s.fuses

theorem sysReset_leaves {cause : Field} (hw : cause.width = 1) (s : State) : SysResetLeaves cause s (sysReset cause s) := by
  refine ⟨?_, fun f hf => ?_, resetTo_mem true s, resetTo_fuses true s⟩
  · rw [sysReset, State.rd_set1, if_pos rfl, hw]
    rfl
  · rw [sysReset, State.rd_set1, if_neg hf, resetTo_rd]

theorem powerOn_completes (low : Bool) (dt : Nat) (s : State) : completes (.powerOn low dt) s (fun t => t.rd Reg.SYS_RSTCAUSE_POR = 1 ∧ t.rd Reg.SYS_RSTCAUSE_BKPLOST = b2n s.pwr.bkpGone ∧
    (∀ f : Field, f.key ≠ Reg.SYS_RSTCAUSE_POR.key → f.key ≠ Reg.SYS_RSTCAUSE_BKPLOST.key → t.rd f = if keptKey false f.key then (flcCut (s.pass dt)).rd f else f.reset) ∧
    t.mem = [] ∧ t.pwr.powered = true ∧ t.pwr.resetLow = low ∧ t.fuses = s.fuses) := by
  refine ⟨_, rfl, ?_, ?_, fun f hpor hlost => ?_, rfl, rfl, rfl, resetTo_fuses false (s.pass dt)⟩
  · rw [powerOn, State.rd_wr_other _ _ (by decide), State.rd_set1, if_pos rfl]
    rfl
  · exact (State.rd_wr_same _ _ _).trans (b2n_mod_two _)
  · rw [powerOn, State.rd_wr_other _ _ hlost, State.rd_set1, if_neg hpor]
    exact resetTo_rd false (s.pass dt) f

/-- Without either supply the backup domain and the committed copies are lost too (R755). -/
theorem backupLoss_completes (dt : Nat) (s : State) : completes (.backupLoss dt) s (fun t => (∀ f : Field, backupKey f.key = true → t.rd f = f.reset) ∧ (∀ f : Field, t.rdC f = f.reset) ∧
    t.mem = [] ∧ t.pwr.powered = false ∧ t.pwr.bkpGone = true ∧ t.fuses = s.fuses) := by
  refine ⟨_, rfl, fun f hf => ?_, fun _ => rfl, rfl, rfl, rfl, resetTo_fuses false (s.pass dt)⟩
  rw [State.rd_of_regs_filter (s := resetTo false (s.pass dt)) (fun k => !backupKey k) rfl, hf]
  rfl

theorem brownOut_completes (dt : Nat) (s : State) (hp : s.pwr.powered = true) : completes (.brownOut dt) s (SysResetLeaves Reg.SYS_RSTCAUSE_BOR (s.pass dt)) :=
  completes_of_onlyIf rfl hp (sysReset_leaves rfl _)

theorem resetNLow_completes (dt : Nat) (s : State) (hp : s.pwr.powered = true) (hl : s.pwr.resetLow = false) :
    completes (.resetNLow dt) s (fun t => SysResetLeaves Reg.SYS_RSTCAUSE_PIN (s.pass dt) t ∧ t.pwr.resetLow = true) := by
  have hok : resetNLowOk (s.pass dt) = true := by rw [resetNLowOk, State.pass_pwr, hp, hl]; rfl
  exact completes_of_onlyIf rfl hok ⟨sysReset_leaves rfl (s.pass dt), rfl⟩

theorem watchdogExpiry_completes (k dt : Nat) (s : State) (hk : s.pwr.kickAt = some k) (hdue : k + cycMs 50 ≤ s.elapsed + dt) :
    completes (.watchdogExpiry dt) s (SysResetLeaves Reg.SYS_RSTCAUSE_WDG (s.pass dt)) := by
  have hok : watchdogExpiryOk (s.pass dt) = true := by
    simp only [watchdogExpiryOk, State.pass_pwr, hk]
    exact decide_eq_true hdue
  exact completes_of_onlyIf rfl hok (sysReset_leaves rfl _)

/-- A change of the power controller's own data touches no register. -/
theorem changesOnly_pwr (s : State) (p : Pwr) : changesOnly [] [.pwr] s { s with pwr := p } :=
  ⟨fieldsOnly_same (fieldsOnly_refl _ _) rfl rfl, pwrMod_parts (fun _ => p) _ _ (partsOnly_refl _ _) rfl⟩

/-! ### An index out of its field's range -/

/-- What a command completes with on its occasion is its effect. -/
theorem of_completes_onlyIf {c : Instr} {s t u : State} {b : Bool} {P : State → Prop} (h : completes c s P) (hc : exec c s = .next (onlyIf b t u)) (hb : b = true) : P t := by
  obtain ⟨v, hv, hP⟩ := h
  rw [hc, onlyIf, if_pos hb] at hv
  cases hv
  exact hP

/-- A Leaf part in phase 7 of its boot, where a domain's entry to Off waits for its handshake and PWR_LOGIDX.NEXT stands far beyond its four bits: the log entry of that index lies on SYS_BOOT. -/
def strayLogIndex : State :=
  { State.reset with
    regs := [((Reg.PWR_DOM_GREQ 1).key, 2), (Reg.PWR_LOGIDX_NEXT.key, (Reg.SYS_BOOT_PHASE.addr - (Reg.PWR_LOG_TIME 0).addr) / 4), (Reg.BKP_SET0_PROFILE.key, 1), (Reg.SYS_BOOT_PHASE.key, 7)]
    pwr := { Pwr.reset with hs := [Hs.mk 1 2 0 none none false] } }

/-- Glety's votes of phase 8 abandon the entry (R636, R778), and the time of its log entry (R652) overwrites the phase. -/
theorem gletyInit_strayLogIndex : (gletyInit false (strayLogIndex.pass 0)).rd Reg.SYS_BOOT_PHASE = 0 := by decide +kernel

end Sys2Proof.Machine

open Sys2Proof Sys2Proof.Machine

/-- Settles O5: `Keeps` of the command taken says so of the fuses. -/
theorem fusesOnlyBlown : Obligations.FusesOnlyBlown := fun s t ht => (step_keeps s t ht).fuses

/-- Settles O11: each reset by its own lemma. -/
theorem resetsLeave : Obligations.ResetsLeave := by
  unfold Obligations.ResetsLeave
  refine ⟨fun s h => flcCut_of_run_nil h, powerOn_completes, brownOut_completes, backupLoss_completes, fun dt s hp hl => ?_, fun dt s hl => ?_, fun dt s hok => ?_, watchdogExpiry_completes⟩
  · obtain ⟨t, ht, ⟨hpin, hrd, hmem, hfuses⟩, hlow⟩ := resetNLow_completes dt s hp hl
    exact ⟨t, ht, hpin, hlow, hrd, hmem, hfuses⟩
  · exact completes_of_onlyIf rfl (show (s.pass dt).pwr.resetLow = true from hl) ⟨rfl, rfl, changesOnly_pwr _ _⟩
  · exact completes_of_onlyIf rfl hok ⟨rfl, changesOnly_pwr _ _⟩

/-- Settles O3: the register maps' reset values, for nothing is stored at reset. -/
theorem resetValues : Obligations.ResetValues := by
  unfold Obligations.ResetValues
  refine ⟨?_, fun _ _ => rfl, fun _ _ => rfl, fun _ _ _ => rfl, fun _ _ => ⟨rfl, rfl⟩, fun _ _ => ⟨rfl, rfl⟩, rfl, fun _ => rfl, rfl, rfl⟩
  simp only [State.rd_reset, State.rdC_reset, and_self]
  decide +kernel

/-- Refutes O10: GLETY_INIT's clause holds of every state in phase 7, also where PWR_LOGIDX.NEXT exceeds its field and a power log entry falls on SYS_BOOT. -/
theorem not_bootPhases : ¬ Obligations.BootPhases := by
  unfold Obligations.BootPhases
  intro h
  obtain ⟨-, -, -, -, -, -, -, -, -, -, hglety, -, -⟩ := h
  obtain ⟨hphase, -⟩ := of_completes_onlyIf (hglety false 0 strayLogIndex (by decide)) rfl (by decide)
  exact absurd (gletyInit_strayLogIndex.symm.trans hphase) (by decide)
end

section
/-!
SUPPORT. FIRN and the mailboxes over the bus: an access of a peripheral slot that reaches its target, the comparator and capture registers, the clock's reads and the doorbells; then
FIRN's stages and coast.
-/
namespace Sys2Proof.Machine

/-! ### Accesses of a peripheral slot that reach their target (R7, R29, R776) -/

theorem targetWrite_slot {w : BusReq} {s : State} (hlo : 0x40000000 ≤ w.addr) (hhi : w.addr < 0x40180000) : targetWrite false w s = (.done 0, slotWrite false w.ini w.addr w.val s) := by
  rw [targetWrite, busTarget_of_global (.inr (by omega)), rgnOf_slot hlo hhi]

/-- A command that is a register write completes with what the slot does with it. -/
theorem completes_slotWrite {c : Instr} {w : BusReq} {dt : Nat} {s : State} {b : Bool} {P : State → Prop} (hc : exec c s = .next (onlyIf b (cmdWrite w (s.pass dt)) (s.pass dt))) (hb : b = true)
    (hl : writeLands w (s.pass dt) = true) (hlo : 0x40000000 ≤ w.addr) (hhi : w.addr < 0x40180000) (h : P (slotWrite false w.ini w.addr w.val (s.pass dt))) : completes c s P :=
  completes_of_onlyIf hc hb (by rwa [cmdWrite_of_lands hl (targetWrite_slot hlo hhi)])

theorem busRead_of_lands {w : BusReq} {s : State} (h : readLands w s = true) : busRead w false s = targetRead w s := by
  simp only [readLands, Bool.and_eq_true, beq_iff_eq, Bool.not_eq_true', Option.isNone_iff_eq_none] at h
  obtain ⟨⟨⟨hk, hpar⟩, hasleep⟩, hheld⟩ := h
  simp [busRead, hk, hpar, hasleep, hheld]

theorem targetRead_slot {w : BusReq} {s : State} (hlo : 0x40000000 ≤ w.addr) (hhi : w.addr < 0x40180000) :
    targetRead w s = (.done (slotRead w.ini w.addr s).1, (slotRead w.ini w.addr s).2) := by
  rw [targetRead, busTarget_of_global (.inr (by omega)), rgnOf_slot hlo hhi]

/-- The state in which an initiator's read of its own has given it a value. -/
def gaveRead (ini : Nat) (r : Nat × State) : State := { r.2 with rdata := put ini r.1 r.2.rdata }

theorem readGave_gaveRead (ini : Nat) (r : Nat × State) : readGave ini (gaveRead ini r) = some r.1 := look_put_same _ _ _

/-- A command that is a register read completes with the value that the slot shows. -/
theorem completes_slotRead {c : Instr} {w : BusReq} {dt : Nat} {s : State} {b : Bool} {P : State → Prop} (hc : exec c s = .next (onlyIf b (cmdRead w (s.pass dt)) (s.pass dt))) (hb : b = true)
    (hl : readLands w (s.pass dt) = true) (hlo : 0x40000000 ≤ w.addr) (hhi : w.addr < 0x40180000) (h : P (gaveRead w.ini (slotRead w.ini w.addr (s.pass dt)))) : completes c s P := by
  refine completes_of_onlyIf hc hb ?_
  rw [cmdRead, busRead_of_lands hl, targetRead_slot hlo hhi]
  exact h

/-! ### What time leaves of FIRN (R58, R59, R61) -/

/-- Time moves local time and what is left of the slew, and nothing else of FIRN. -/
theorem Firn.pass_eq (f : Firn) (t0 dt : Nat) : ∃ loc slew, f.pass t0 dt = { f with loc := loc, slewLeft := slew } := by
  unfold Firn.pass
  split
  · exact ⟨_, _, rfl⟩
  · split
    · exact ⟨_, _, rfl⟩
    · dsimp only
      split <;> exact ⟨_, _, rfl⟩

section
variable (f : Firn) (t0 dt : Nat)

@[simp] theorem Firn.pass_coasting : (f.pass t0 dt).coasting = f.coasting := by obtain ⟨l, d, h⟩ := f.pass_eq t0 dt; rw [h]
@[simp] theorem Firn.pass_inc : (f.pass t0 dt).inc = f.inc := by obtain ⟨l, d, h⟩ := f.pass_eq t0 dt; rw [h]
@[simp] theorem Firn.pass_edgePhase : (f.pass t0 dt).edgePhase = f.edgePhase := by obtain ⟨l, d, h⟩ := f.pass_eq t0 dt; rw [h]
@[simp] theorem Firn.pass_utcOff : (f.pass t0 dt).utcOff = f.utcOff := by obtain ⟨l, d, h⟩ := f.pass_eq t0 dt; rw [h]
@[simp] theorem Firn.pass_leap : (f.pass t0 dt).leap = f.leap := by obtain ⟨l, d, h⟩ := f.pass_eq t0 dt; rw [h]
@[simp] theorem Firn.pass_held : (f.pass t0 dt).held = f.held := by obtain ⟨l, d, h⟩ := f.pass_eq t0 dt; rw [h]
end

@[simp] theorem heldCapture_pass (s : State) (dt k : Nat) : heldCapture (s.pass dt) k = heldCapture s k := by simp [heldCapture]

/-- A change of FIRN's own data touches no register. -/
theorem changesOnly_firn (s : State) (f : Firn) : changesOnly [] [.firn] s { s with firn := f } :=
  ⟨fieldsOnly_same (fieldsOnly_refl _ _) rfl rfl, by simp [partsOnly_refl]⟩

/-- A read that changes FIRN's own data alone. -/
theorem changesOnly_gaveRead_firn (ini v : Nat) (s : State) (f : Firn) : changesOnly [] [.firn, .rdata] s (gaveRead ini (v, { s with firn := f })) :=
  ⟨fieldsOnly_same (fieldsOnly_refl _ _) rfl rfl, by simp [gaveRead, partsOnly_refl]⟩

/-! ### Writes of comparators and capture units (R81, R87, R91) -/

theorem setsBit_iff {i : Nat} {w : BusReq} : setsBit i w = true ↔ bitOf w.val i = 1 := beq_iff_eq

theorem slotWrite_firn {ini a v : Nat} {s : State} (ha : a / 0x10000 = 0x4002) (hf : (regFields a).isEmpty = false) : slotWrite false ini a v s = firnWrite a v (regFields a) s := by
  have hfs : slotFields ini a = regFields a := if_neg (by omega)
  have hs : (a - 0x40000000) / 0x10000 = 2 := by omega
  simp [slotWrite, hfs, hf, hs]

theorem cmpCtl_fields : ∀ n < 32, (regFields (0x40020108 + 16 * n)).isEmpty = false := by decide
theorem capCtl_fields : ∀ k < 4, (regFields (0x40020408 + 16 * k)).isEmpty = false := by decide

/-- A write of FIRN_CMPn_CTL with no commit pending: the plain fields, then DISARM, then ARM. -/
theorem firnWrite_cmpCtl {n v : Nat} {fs : List Field} {s : State} (hn : n < 32) (h : s.on (Reg.FIRN_CMP_CTL_ARM n) = false) :
    firnWrite (0x40020108 + 16 * n) v fs s =
      (let s1 := regPut [Reg.FIRN_CMP_CTL_ARM n] fs v s
       let s2 := if bitOf v 30 = 1 then cmpDisarm n s1 else s1
       if bitOf v 31 = 1 then cmpArm n s2 else s2) := by
  have hoff : (0x40020108 + 16 * n) % 0x10000 = 0x108 + 16 * n := by omega
  have hidx : (0x108 + 16 * n - 0x100) / 0x10 = n := by omega
  have hctl : (0x108 + 16 * n) % 0x10 = 8 := by omega
  have hin : 0x100 ≤ 0x108 + 16 * n ∧ 0x108 + 16 * n < 0x300 := by omega
  simp only [firnWrite, hoff, if_pos hin, hidx, hctl, h, caughtS, Bool.false_and, Bool.false_eq_true, if_false, if_true, and_true]

/-- A write of FIRN_CAPk_CTL with no commit pending. -/
theorem firnWrite_capCtl {k v : Nat} {fs : List Field} {s : State} (hk : k < 4) (h : s.on (Reg.FIRN_CAP_CTL_APPLY k) = false) :
    firnWrite (0x40020408 + 16 * k) v fs s =
      if bitOf v 31 = 1 then capApply k (regPut [Reg.FIRN_CAP_CTL_APPLY k] fs v s) else regPut [Reg.FIRN_CAP_CTL_APPLY k] fs v s := by
  have hoff : (0x40020408 + 16 * k) % 0x10000 = 0x408 + 16 * k := by omega
  have hidx : (0x408 + 16 * k - 0x400) / 0x10 = k := by omega
  have hctl : (0x408 + 16 * k) % 0x10 = 8 := by omega
  have hcmp : ¬ (0x100 ≤ 0x408 + 16 * k ∧ 0x408 + 16 * k < 0x300) := by omega
  have hin : 0x400 ≤ 0x408 + 16 * k ∧ 0x408 + 16 * k < 0x440 := by omega
  simp only [firnWrite, hoff, if_neg hcmp, if_pos hin, hidx, hctl, h, caughtS, Bool.false_and, Bool.false_eq_true, if_false, if_true, and_true]

theorem regPut_elapsed (skip fs : List Field) (v : Nat) (s : State) : (regPut skip fs v s).elapsed = s.elapsed :=
  regPut_parts skip fs v s s (partsOnly_refl [.regs] s) rfl .elapsed (by decide)

/-- The request of a commit shows in ARM and is timed. -/
theorem cmpArm_asks (n : Nat) (s : State) : (cmpArm n s).rd (Reg.FIRN_CMP_CTL_ARM n) = 1 ∧ look n (cmpArm n s).firn.armAt = some s.elapsed :=
  ⟨State.rd_wr_same _ _ _, look_put_same _ _ _⟩

theorem capApply_asks (k : Nat) (s : State) : (capApply k s).rd (Reg.FIRN_CAP_CTL_APPLY k) = 1 ∧ look k (capApply k s).firn.applyAt = some s.elapsed :=
  ⟨State.rd_wr_same _ _ _, look_put_same _ _ _⟩

theorem cmpDisarm_armed (n : Nat) (s : State) : (cmpDisarm n s).on (Reg.FIRN_CMP_STAT_ARMED n) = false := by
  unfold cmpDisarm
  split
  · exact congrArg (· == 1) (State.rd_wr_same _ _ _)
  · next h => exact Bool.eq_false_iff.2 h

/-- The request of a commit arms nothing yet. -/
theorem cmpArm_armed (n : Nat) (s : State) : (cmpArm n s).on (Reg.FIRN_CMP_STAT_ARMED n) = s.on (Reg.FIRN_CMP_STAT_ARMED n) :=
  congrArg (· == 1) (State.rd_wr_other _ _ (by simp only [Field.key, Reg.FIRN_CMP_STAT_ARMED, Reg.FIRN_CMP_CTL_ARM]; omega))

theorem armWrite_asks (n : Nat) (w : BusReq) (dt : Nat) (s : State) (hn : n < 32) (ha : w.addr = 0x40020108 + 16 * n) (hok : armOk w = true) (h30 : bitOf w.val 30 = 0)
    (hl : writeLands w (s.pass dt) = true) (harm : s.on (Reg.FIRN_CMP_CTL_ARM n) = false) :
    completes (.arm w dt) s (fun t => t.rd (Reg.FIRN_CMP_CTL_ARM n) = 1 ∧ look n t.firn.armAt = some (s.elapsed + dt)) := by
  have h31 : bitOf w.val 31 = 1 := setsBit_iff.1 (Bool.and_eq_true_iff.1 hok).2
  refine completes_slotWrite rfl hok hl (by omega) (by omega) ?_
  rw [ha, slotWrite_firn (by omega) (cmpCtl_fields n hn), firnWrite_cmpCtl hn (s := s.pass dt) harm]
  simp only [h30, h31, zero_ne_one, if_false, if_true]
  rw [← State.pass_elapsed, ← regPut_elapsed]
  exact cmpArm_asks n _

theorem disarmWrite_disarms (n : Nat) (w : BusReq) (dt : Nat) (s : State) (hn : n < 32) (ha : w.addr = 0x40020108 + 16 * n) (hok : disarmOk w = true) (hl : writeLands w (s.pass dt) = true)
    (harm : s.on (Reg.FIRN_CMP_CTL_ARM n) = false) : completes (.disarm w dt) s (fun t => t.on (Reg.FIRN_CMP_STAT_ARMED n) = false) := by
  have h30 : bitOf w.val 30 = 1 := setsBit_iff.1 (Bool.and_eq_true_iff.1 hok).2
  refine completes_slotWrite rfl hok hl (by omega) (by omega) ?_
  rw [ha, slotWrite_firn (by omega) (cmpCtl_fields n hn), firnWrite_cmpCtl hn (s := s.pass dt) harm]
  simp only [h30, if_true]
  split
  · rw [cmpArm_armed, cmpDisarm_armed]
  · exact cmpDisarm_armed n _

theorem captureApplyWrite_asks (k : Nat) (w : BusReq) (dt : Nat) (s : State) (hk : k < 4) (ha : w.addr = 0x40020408 + 16 * k) (hok : captureApplyWriteOk w = true)
    (hl : writeLands w (s.pass dt) = true) (happly : s.on (Reg.FIRN_CAP_CTL_APPLY k) = false) :
    completes (.captureApply w dt) s (fun t => t.rd (Reg.FIRN_CAP_CTL_APPLY k) = 1 ∧ look k t.firn.applyAt = some (s.elapsed + dt)) := by
  have h31 : bitOf w.val 31 = 1 := setsBit_iff.1 (Bool.and_eq_true_iff.1 hok).2
  refine completes_slotWrite rfl hok hl (by omega) (by omega) ?_
  rw [ha, slotWrite_firn (by omega) (capCtl_fields k hk), firnWrite_capCtl hk (s := s.pass dt) happly, if_pos h31, ← State.pass_elapsed, ← regPut_elapsed]
  exact capApply_asks k _

/-! ### Reads of the clock and of a held capture (R56, R93) -/

theorem slotRead_capTlo {ini k : Nat} {s : State} (hk : k < 4) : slotRead ini (0x40020400 + 16 * k) s = capTlo ini k s := by
  have hidx : (0x40020400 + 16 * k - 0x40020400) / 0x10 = k := by omega
  rw [slotRead, if_neg (by omega), if_neg (by omega), if_pos (by omega), hidx]

theorem firnTimeLoRead_latches (w : BusReq) (dt : Nat) (s : State) (hok : firnTimeLoReadOk w = true) (hl : readLands w (s.pass dt) = true) :
    completes (.firnTimeLoRead w dt) s (fun t => readGave w.ini t = some ((s.pass dt).now % 2 ^ 32) ∧ look w.ini t.firn.timeHi = some ((s.pass dt).now / 2 ^ 32 % 2 ^ 32) ∧
      changesOnly [] [.firn, .rdata] (s.pass dt) t) := by
  have ha : w.addr = 0x40020000 := by
    simp only [firnTimeLoReadOk, inSlot, Bool.and_eq_true, beq_iff_eq] at hok
    omega
  refine completes_slotRead rfl hok hl (by omega) (by omega) ?_
  rw [ha, slotRead, if_pos rfl]
  exact ⟨readGave_gaveRead _ _, look_put_same _ _ _, changesOnly_gaveRead_firn _ _ _ _⟩

theorem captureRead_latches (k : Nat) (w : BusReq) (dt : Nat) (s : State) (hk : k < 4) (ha : w.addr = 0x40020400 + 16 * k) (hok : captureReadOk w = true) (hl : readLands w (s.pass dt) = true) :
    completes (.captureRead w dt) s (fun t => readGave w.ini t = some (heldCapture s k % 2 ^ 32) ∧ look (32 * k + w.ini) t.firn.capHi = some (heldCapture s k / 2 ^ 32) ∧
      changesOnly [] [.firn, .rdata] (s.pass dt) t) := by
  refine completes_slotRead rfl hok hl (by omega) (by omega) ?_
  rw [ha, slotRead_capTlo hk, ← heldCapture_pass s dt]
  exact ⟨readGave_gaveRead _ _, look_put_same _ _ _, changesOnly_gaveRead_firn _ _ _ _⟩

/-! ### The mailbox doorbells (R333, R342) -/

theorem slotWrite_mbx {ini a v : Nat} {s : State} (ha : a / 0x10000 = 0x400D) : slotWrite false ini a v s = mbxWrite a v (slotFields ini a) s := by
  have hs : (a - 0x40000000) / 0x10000 = 13 := by omega
  simp [slotWrite, ha, hs]

section
variable {m v : Nat} {fs : List Field} {s : State} (hm : m < 4) (hp : s.rd Reg.SYS_BOOT_PHASE = 8)
include hm hp

theorem mbxWrite_req : mbxWrite (0x400D0100 + 64 * m) v fs s = reqDoorbell m v s := by
  interval_cases m <;> simp [mbxWrite, bootPhase, hp]

theorem mbxWrite_rsp : mbxWrite (0x400D0104 + 64 * m) v fs s = rspWrite m v s := by
  interval_cases m <;> simp [mbxWrite, bootPhase, hp]

theorem mbxWrite_flush (hv : v % 2 = 1) : mbxWrite (0x400D0108 + 64 * m) v fs s = s.set1 (Reg.MB_STAT_FLUSHING m) := by
  interval_cases m <;> simp [mbxWrite, mbFlush, bootPhase, hp, hv]
end

theorem changesOnly_wr {f : Field} (v : Nat) (s : State) : changesOnly [f] [] s (s.wr f v) :=
  ⟨fieldsOnly_wr (fieldsOnly_refl _ _) v List.mem_cons_self, wr_parts _ _ _ (partsOnly_refl _ _) rfl⟩

/-- A pointer that a doorbell takes, or a doorbell error: either is the one field that changes. -/
theorem doorbell_takes_or_errs {c : Prop} [Decidable c] {f e : Field} (hf : f.width = 5) (he : e.width = 1) (v : Nat) (s : State) {t : State}
    (ht : t = if c then s.wr f (v % 32) else s.set1 e) : if c then t.rd f = v % 32 ∧ changesOnly [f] [] s t else t.rd e = 1 ∧ changesOnly [e] [] s t := by
  subst ht
  split
  · exact ⟨by rw [State.rd_wr_same, hf]; exact Nat.mod_mod _ _, changesOnly_wr _ _⟩
  · exact ⟨by rw [State.set1, State.rd_wr_same, he]; rfl, changesOnly_wr _ _⟩

theorem mbReqDoorbell_moves (m : Nat) (w : BusReq) (dt : Nat) (s : State) (hm : m < 4) (ha : w.addr = 0x400D0100 + 64 * m) (hok : mbReqDoorbellOk w = true)
    (hl : writeLands w (s.pass dt) = true) (hp : s.rd Reg.SYS_BOOT_PHASE = 8) :
    completes (.mbReqDoorbell w dt) s (fun t =>
      if s.on (Reg.MB_STAT_FLUSHING m) = false ∧ (s.rd (Reg.MB_REQ_REQWR m) + 32 - s.rd (Reg.MB_REQ_REQRD m)) % 32 ≤ (w.val % 32 + 32 - s.rd (Reg.MB_REQ_REQRD m)) % 32 ∧
        (w.val % 32 + 32 - s.rd (Reg.MB_REQ_REQRD m)) % 32 ≤ 16
      then t.rd (Reg.MB_REQ_REQWR m) = w.val % 32 ∧ changesOnly [Reg.MB_REQ_REQWR m] [] (s.pass dt) t
      else t.rd (Reg.MB_STAT_DBERR m) = 1 ∧ changesOnly [Reg.MB_STAT_DBERR m] [] (s.pass dt) t) := by
  refine completes_slotWrite rfl hok hl (by omega) (by omega) ?_
  rw [ha, slotWrite_mbx (by omega), mbxWrite_req (s := s.pass dt) hm hp]
  exact doorbell_takes_or_errs rfl rfl w.val (s.pass dt) rfl

theorem mbRspWrite_moves (m : Nat) (w : BusReq) (dt : Nat) (s : State) (hm : m < 4) (ha : w.addr = 0x400D0104 + 64 * m) (hok : mbRspWriteOk w = true)
    (hl : writeLands w (s.pass dt) = true) (hp : s.rd Reg.SYS_BOOT_PHASE = 8) :
    completes (.mbRspWrite w dt) s (fun t =>
      if s.on (Reg.MB_STAT_FLUSHING m) = false ∧ (w.val % 32 + 32 - s.rd (Reg.MB_RSP_RSPRD m)) % 32 ≤ (s.rd (Reg.MB_RSP_RSPWR m) + 32 - s.rd (Reg.MB_RSP_RSPRD m)) % 32
      then t.rd (Reg.MB_RSP_RSPRD m) = w.val % 32 ∧ changesOnly [Reg.MB_RSP_RSPRD m] [] (s.pass dt) t
      else t.rd (Reg.MB_STAT_DBERR m) = 1 ∧ changesOnly [Reg.MB_STAT_DBERR m] [] (s.pass dt) t) := by
  refine completes_slotWrite rfl hok hl (by omega) (by omega) ?_
  rw [ha, slotWrite_mbx (by omega), mbxWrite_rsp (s := s.pass dt) hm hp]
  exact doorbell_takes_or_errs rfl rfl w.val (s.pass dt) rfl

theorem flush_begins (m : Nat) (w : BusReq) (dt : Nat) (s : State) (hm : m < 4) (ha : w.addr = 0x400D0108 + 64 * m) (hok : flushOk w = true)
    (hl : writeLands w (s.pass dt) = true) (hp : s.rd Reg.SYS_BOOT_PHASE = 8) :
    completes (.flush w dt) s (fun t => t.rd (Reg.MB_STAT_FLUSHING m) = 1 ∧ changesOnly [Reg.MB_STAT_FLUSHING m] [] (s.pass dt) t) := by
  have h0 : w.val % 2 = 1 := by simpa [setsBit, bitOf] using (Bool.and_eq_true_iff.1 hok).2
  refine completes_slotWrite rfl hok hl (by omega) (by omega) ?_
  rw [ha, slotWrite_mbx (by omega), mbxWrite_flush (s := s.pass dt) hm hp h0]
  exact ⟨State.rd_wr_same _ _ _, changesOnly_wr _ _⟩

/-! ### Stages (R66, R68) -/

theorem timeStateNotice_frame (s : State) : partsOnly [.mboxes, .regs, .heldNotices] s (timeStateNotice s) := timeStateNotice_parts s s (partsOnly_refl _ s) rfl
theorem timeStateNotice_firn (s : State) : (timeStateNotice s).firn = s.firn := timeStateNotice_frame s .firn (by decide)
theorem timeStateNotice_flight (s : State) : (timeStateNotice s).flight = s.flight := timeStateNotice_frame s .flight (by decide)

/-- Of FIRN's own data a change of stage changes the stage alone. -/
theorem firnStage_firn (st : Stage) (s : State) : (firnStage st s).firn = { s.firn with stage := st } := by
  unfold firnStage
  split
  · next h => rw [← h]
  · exact timeStateNotice_firn _

theorem firnStage_flight {st : Stage} {s : State} (h : s.firn.stage ≠ st) : (firnStage st s).flight = s.flight ++ [97] := by
  rw [firnStage, if_neg h]
  exact timeStateNotice_flight _

theorem stage_ne_holdover_of_holdoverEntryOk {s : State} (h : holdoverEntryOk s = true) : s.firn.stage ≠ .holdover := by
  intro hs
  simp [holdoverEntryOk, hs] at h

theorem holdoverEntry_enters (dt : Nat) (s : State) (hok : holdoverEntryOk (s.pass dt) = true) :
    completes (.holdoverEntry dt) s (fun t => t.rd Reg.FIRN_STAT_STATE = 3 ∧ t.rd Reg.FIRN_FREQ = s.rd Reg.FIRN_FREQ ∧ t.flight = s.flight ++ [97] ∧
      t.firn = { (s.pass dt).firn with stage := .holdover, former := s.firn.stage, holdAt := s.elapsed + dt, inRow := 0, slewLeft := 0, slewRate := 0 }) := by
  have hst : (s.pass dt).firn.stage = s.firn.stage := Firn.pass_stage _ _ _
  have hne : (s.pass dt).firn.stage ≠ .holdover := stage_ne_holdover_of_holdoverEntryOk hok
  refine completes_of_onlyIf rfl hok ⟨firnStage_state _ _ hne, firnStage_rd _ _ _ (by simp only [offMbx]; decide) (by decide), firnStage_flight hne, ?_⟩
  rw [holdoverEntry, firnStage_firn, ← hst]
  rfl

/-! ### Coast (R61, R62, R759) -/

theorem radioOff_firn (s : State) : (radioOff s).firn = s.firn := radioOff_parts s s (partsOnly_refl [.regs, .pwr, .flight, .rfe] s) rfl .firn (by decide)
theorem healthPut_firn (a b c d e g : Nat) (s : State) : (healthPut a b c d e g s).firn = s.firn :=
  healthPut_parts a b c d e g s s (partsOnly_refl [.mboxes, .regs, .health, .heldNotices, .flight] s) rfl .firn (by decide)

theorem coastEnter_firn_of_coasting {s : State} (h : s.firn.coasting = true) : (coastEnter s).firn = { s.firn with exitPhase := 0 } := by rw [coastEnter, if_pos h]

theorem coastEnter_firn_of_fine {s : State} (h : s.firn.coasting = false) :
    (coastEnter s).firn = { s.firn with stage := .coast, coasting := true, exitPhase := 0, edgePhase := s.elapsed % cycXtal, slewLeft := 0, slewRate := 0 } := by
  rw [coastEnter, if_neg (by simp [h]), firnStage_firn]

theorem tcxoLoss_firn (s : State) : (tcxoLoss s).firn = (coastEnter { s with firn := { s.firn with tcxoLost := some s.elapsed } }).firn :=
  (healthPut_firn _ _ _ _ _ _ _).trans (radioOff_firn _)

theorem tcxoLoss_coasts (dt : Nat) (s : State) (hok : tcxoLossOk (s.pass dt) = true) :
    completes (.tcxoLoss dt) s (fun t => t.firn.coasting = true ∧ t.firn.tcxoLost = some (s.elapsed + dt) ∧ t.firn.loc = (s.pass dt).firn.loc ∧
      (s.firn.coasting = false → t.firn.stage = .coast ∧ t.firn.edgePhase = (s.elapsed + dt) % 9375)) := by
  refine completes_of_onlyIf rfl hok ?_
  simp only [tcxoLoss_firn]
  cases h : s.firn.coasting with
  | true => simp [coastEnter_firn_of_coasting, h]
  | false => simp [coastEnter_firn_of_fine, h, cycXtal]

/-- The flags of one comparator are fields of their own. -/
theorem cmpStat_keys (n : Nat) :
    (Reg.FIRN_CMP_STAT_FIRED n).key ≠ (Reg.FIRN_CMP_STAT_COASTED n).key ∧ (Reg.FIRN_CMP_STAT_INFLIGHT n).key ≠ (Reg.FIRN_CMP_STAT_COASTED n).key ∧
    (Reg.FIRN_CMP_STAT_INFLIGHT n).key ≠ (Reg.FIRN_CMP_STAT_FIRED n).key ∧ (Reg.FIRN_CMP_STAT_INFLIGHT n).key ≠ (Reg.FIRN_CMP_STAT_ARMED n).key ∧
    (Reg.FIRN_CMP_STAT_ARMED n).key ≠ (Reg.FIRN_CMP_STAT_COASTED n).key ∧ (Reg.FIRN_CMP_STAT_ARMED n).key ≠ (Reg.FIRN_CMP_STAT_FIRED n).key := by
  simp only [Field.key, Reg.FIRN_CMP_STAT_FIRED, Reg.FIRN_CMP_STAT_COASTED, Reg.FIRN_CMP_STAT_INFLIGHT, Reg.FIRN_CMP_STAT_ARMED]
  omega

/-- The flags that a launch in coast writes (R61). -/
def coastLaunchFields (n : Nat) : List Field :=
  [Reg.FIRN_CMP_STAT_FIRED n, Reg.FIRN_CMP_STAT_COASTED n, Reg.FIRN_CMP_STAT_INFLIGHT n, Reg.FIRN_CMP_STAT_ARMED n]

theorem coastLaunch_fields (n : Nat) (s : State) : fieldsOnly (coastLaunchFields n) s (coastLaunch n s) := by
  have hland : fieldsOnly (coastLaunchFields n) s (landCmp n s) := fieldsOnly_clr (fieldsOnly_same (fieldsOnly_refl _ s) rfl rfl) (by simp [coastLaunchFields])
  have harmed := fieldsOnly_clr hland (f := Reg.FIRN_CMP_STAT_ARMED n) (by simp [coastLaunchFields])
  have hfired := fieldsOnly_set1 harmed (f := Reg.FIRN_CMP_STAT_FIRED n) (by simp [coastLaunchFields])
  exact fieldsOnly_raise (fieldsOnly_set1 hfired (f := Reg.FIRN_CMP_STAT_COASTED n) (by simp [coastLaunchFields]))

theorem coastLaunch_fires (n dt : Nat) (s : State) (hok : coastLaunchOk n (s.pass dt) = true) :
    completes (.coastLaunch n dt) s (fun t => t.rd (Reg.FIRN_CMP_STAT_FIRED n) = 1 ∧ t.rd (Reg.FIRN_CMP_STAT_COASTED n) = 1 ∧ t.rd (Reg.FIRN_CMP_STAT_INFLIGHT n) = 0 ∧
      t.rd (Reg.FIRN_CMP_STAT_ARMED n) = 0 ∧ t.flight = s.flight ++ [64 + n] ∧
      changesOnly [Reg.FIRN_CMP_STAT_FIRED n, Reg.FIRN_CMP_STAT_COASTED n, Reg.FIRN_CMP_STAT_INFLIGHT n, Reg.FIRN_CMP_STAT_ARMED n] [.flight, .firn] (s.pass dt) t) := by
  obtain ⟨hfc, hic, hif, hia, hac, haf⟩ := cmpStat_keys n
  refine completes_of_onlyIf rfl hok ⟨?_, ?_, ?_, ?_, rfl, ?_, ?_⟩
  · rw [coastLaunch, State.rd_raise, State.rd_set1, if_neg hfc, State.rd_set1, if_pos rfl]
    rfl
  · rw [coastLaunch, State.rd_raise, State.rd_set1, if_pos rfl]
    rfl
  · rw [coastLaunch, State.rd_raise, State.rd_set1, if_neg hic, State.rd_set1, if_neg hif, State.rd_clr, if_neg hia, landCmp, State.rd_clr, if_pos rfl]
  · rw [coastLaunch, State.rd_raise, State.rd_set1, if_neg hac, State.rd_set1, if_neg haf, State.rd_clr, if_pos rfl]
  · exact coastLaunch_fields n (s.pass dt)
  · exact coastLaunch_parts n _ _ (partsOnly_refl _ _) rfl

theorem tcxoReturn_leaves (dt : Nat) (s : State) (hok : tcxoReturnOk (s.pass dt) = true) :
    completes (.tcxoReturn dt) s (fun t => t.firn.tcxoLost = none ∧ t.firn.coasting = s.firn.coasting ∧ changesOnly [] [.firn] (s.pass dt) t) :=
  completes_of_onlyIf rfl hok ⟨rfl, Firn.pass_coasting _ _ _, changesOnly_firn _ _⟩

/-- The fields that a late match of comparator `n` writes (R85, R103). -/
def lateMatchFields (n : Nat) : List Field :=
  [Reg.FIRN_LATECNT, Reg.FIRN_CMP_STAT_LATE n, Reg.FIRN_CMP_STAT_LATEBY n, Reg.FIRN_CMP_STAT_ARMED n, Reg.FIRN_CMP_STAT_INFLIGHT n]

theorem fieldsOnly_inc {fs : List Field} {z s : State} (h : fieldsOnly fs z s) {f : Field} (hf : f ∈ fs) : fieldsOnly fs z (s.inc f) := fieldsOnly_wr h _ hf

theorem cmpFly_fields {fs : List Field} {z s : State} (h : fieldsOnly fs z s) {n : Nat} (t : Nat) (late : Bool) (ha : Reg.FIRN_CMP_STAT_ARMED n ∈ fs)
    (hi : Reg.FIRN_CMP_STAT_INFLIGHT n ∈ fs) : fieldsOnly fs z (cmpFly n t late s) :=
  fieldsOnly_set1 (fieldsOnly_clr (fieldsOnly_same h rfl rfl) ha) hi

theorem cmpFly_firn (n t : Nat) (late : Bool) (s : State) : (cmpFly n t late s).firn = { s.firn with flight := s.firn.flight ++ [Launch.mk n t late] } := rfl

theorem cmpLateMatch_fields (n : Nat) (s : State) : fieldsOnly (lateMatchFields n) s (cmpLateMatch n s) := by
  refine cmpFly_fields (fieldsOnly_inc (fieldsOnly_wr (fieldsOnly_set1 (fieldsOnly_refl _ s) ?_) _ ?_) ?_) _ _ ?_ ?_ <;> simp [lateMatchFields]

theorem lateMatchFields_ge (n : Nat) : ∀ f ∈ lateMatchFields n, Reg.FIRN_LATECNT.key ≤ f.key := by
  simp only [lateMatchFields, List.forall_mem_cons, List.not_mem_nil, false_implies, implies_true, and_true, Field.key, Reg.FIRN_LATECNT, Reg.FIRN_CMP_STAT_LATE, Reg.FIRN_CMP_STAT_LATEBY,
    Reg.FIRN_CMP_STAT_ARMED, Reg.FIRN_CMP_STAT_INFLIGHT]
  omega

/-- A late match leaves FIRN's registers below FIRN_LATECNT alone. -/
theorem cmpLateMatch_rd_below (n : Nat) (s : State) {f : Field} (hf : f.key < Reg.FIRN_LATECNT.key) : (cmpLateMatch n s).rd f = s.rd f :=
  (cmpLateMatch_fields n s f (fun g hg => Nat.ne_of_lt (Nat.lt_of_lt_of_le hf (lateMatchFields_ge n g hg)))).1

theorem cmpLateAll_rd_below (s : State) {f : Field} (hf : f.key < Reg.FIRN_LATECNT.key) : (cmpLateAll s).rd f = s.rd f :=
  foldl_same (fun t => t.rd f) _ _ s (fun t n => by split <;> simp [cmpLateMatch_rd_below n t hf])

theorem cmpLateMatch_firn (n : Nat) (s : State) : (cmpLateMatch n s).firn = { s.firn with flight := s.firn.flight ++ [Launch.mk n (s.now + 8192) true] } :=
  cmpFly_firn _ _ _ _

/-- Of FIRN's own data late matches change the launches on their way alone. -/
theorem cmpLateAll_firn (s : State) : ∃ l, (cmpLateAll s).firn = { s.firn with flight := l } := by
  refine foldl_keeps (fun t : State => ∃ l, t.firn = { s.firn with flight := l }) _ _ s (fun t n ht => ?_) ⟨s.firn.flight, rfl⟩
  obtain ⟨l, hl⟩ := ht
  split
  · exact ⟨_, by rw [cmpLateMatch_firn, hl]⟩
  · exact ⟨l, hl⟩

/-- Fine counting resumes at the crystal edge with the phase kept at entry (R62). -/
def coastResume (s : State) : State :=
  { s with firn := { s.firn with coasting := false, exitPhase := 0, loc := s.firn.loc - s.firn.edgePhase * s.firn.inc, former := .acquiring, holdAt := s.elapsed } }

theorem coastAlign_eq (s : State) : coastAlign s = cmpLateAll (firnStage .holdover (coastResume s)) := rfl

theorem coastAlign_firn (s : State) : ∃ l, (coastAlign s).firn = { (coastResume s).firn with stage := .holdover, flight := l } := by
  obtain ⟨l, hl⟩ := cmpLateAll_firn (firnStage .holdover (coastResume s))
  exact ⟨l, by rw [coastAlign_eq, hl, firnStage_firn]⟩

theorem coastAlign_resumes (dt : Nat) (s : State) (hok : coastAlignOk (s.pass dt) = true) (hst : s.firn.stage = .coast) :
    completes (.coastAlign dt) s (fun t => t.rd Reg.FIRN_STAT_STATE = 3 ∧ t.firn.coasting = false ∧ t.firn.stage = .holdover ∧
      t.firn.loc = (s.pass dt).firn.loc - s.firn.edgePhase * s.firn.inc) := by
  have hne : (s.pass dt).firn.stage ≠ .holdover := by
    rw [State.pass_firn, Firn.pass_stage, hst]
    decide
  refine completes_of_onlyIf rfl hok ⟨?_, ?_⟩
  · rw [coastAlign_eq, cmpLateAll_rd_below _ (by decide)]
    exact firnStage_state _ _ hne
  · obtain ⟨l, hl⟩ := coastAlign_firn (s.pass dt)
    simp [hl, coastResume]

/-! ### The coarse offset and a leap second (R77, R78) -/

theorem coarseOffsetWrite_stores (dt : Nat) (s : State) (hok : coarseOffsetWriteOk (s.pass dt) = true) :
    completes (.coarseOffsetWrite dt) s (fun t => t.rd Reg.BKP_SET2 = ofSigned 32 (((s.pass dt).now / 2 ^ 30 : Nat) - (rtcNow (s.pass dt) : Int)) % 2 ^ 32 ∧
      changesOnly [Reg.BKP_SET2] [.firn] (s.pass dt) t) := by
  refine completes_of_onlyIf rfl hok ⟨State.rd_wr_same _ _ _, ?_, ?_⟩
  · exact fieldsOnly_same (fieldsOnly_wr (fieldsOnly_refl _ _) _ List.mem_cons_self) rfl rfl
  · exact coarseOffsetWrite_parts _ _ (partsOnly_refl _ _) rfl

theorem leapSecond_shifts (dt : Nat) (s : State) (hok : leapSecondOk (s.pass dt) = true) :
    completes (.leapSecond dt) s (fun t => t.firn.utcOff = s.firn.utcOff + (if bitOf s.firn.leap 1 = 1 then -1 else 1) ∧ t.firn.leap = 0 ∧ changesOnly [] [.firn] (s.pass dt) t) := by
  refine completes_of_onlyIf rfl hok ⟨?_, rfl, changesOnly_firn _ _⟩
  simp [leapSecond]

end Sys2Proof.Machine

open Sys2Proof Sys2Proof.Machine

/-- Settles O12: each access by its own lemma. -/
theorem firnAndMailboxAccesses : Obligations.FirnAndMailboxAccesses := by
  unfold Obligations.FirnAndMailboxAccesses
  exact ⟨armWrite_asks, disarmWrite_disarms, captureApplyWrite_asks, firnTimeLoRead_latches, captureRead_latches, mbReqDoorbell_moves, mbRspWrite_moves, flush_begins⟩

/-- Settles O19: each command by its own lemma; the restart of a coast exit and a lost pulse change FIRN's own data alone. -/
theorem firnStages : Obligations.FirnStages := by
  unfold Obligations.FirnStages
  refine ⟨holdoverEntry_enters, tcxoLoss_coasts, fun n dt s _ => coastLaunch_fires n dt s, tcxoReturn_leaves, fun dt s hok => ?_, coastAlign_resumes, coarseOffsetWrite_stores, leapSecond_shifts, fun dt s hok => ?_⟩
  · exact completes_of_onlyIf rfl hok ⟨rfl, changesOnly_firn _ _⟩
  · exact completes_of_onlyIf rfl hok ⟨rfl, changesOnly_firn _ _⟩
end

section
/-!
SUPPORT. The radio front end: what each of its operations writes, the locks, the calibrations, the duty window, the mismatch hold and the tuner's write-back (R112 to R145); then two states of a
Leaf part in which a change of radio state abandons the entry of PD_RF.
-/
namespace Sys2Proof.Machine

/-- A change of the front end's own data touches no register. -/
theorem changesOnly_rfe (s : State) (r : Rfe) : changesOnly [] [.rfe] s { s with rfe := r } :=
  ⟨fieldsOnly_same (fieldsOnly_refl _ _) rfl rfl, by simp [partsOnly_refl]⟩

/-! ### The synthesizer's locks (R112) -/

theorem fullLock_rd (s : State) (f : Field) : (fullLock s).rd f = (((s.set1 Reg.RFE_STAT_SYNTHLK).inc Reg.RFE_BANDCALCNT).wr Reg.RFE_STAT_CAL 0).rd f := rfl

theorem fullLock_fields (s : State) : fieldsOnly [Reg.RFE_STAT_SYNTHLK, Reg.RFE_STAT_CAL, Reg.RFE_BANDCALCNT] s (fullLock s) := by
  have hlk := fieldsOnly_set1 (fieldsOnly_refl [Reg.RFE_STAT_SYNTHLK, Reg.RFE_STAT_CAL, Reg.RFE_BANDCALCNT] s) (f := Reg.RFE_STAT_SYNTHLK) (by simp)
  have hcnt := fieldsOnly_inc hlk (f := Reg.RFE_BANDCALCNT) (by simp)
  exact fieldsOnly_same (fieldsOnly_wr hcnt 0 (f := Reg.RFE_STAT_CAL) (by simp)) rfl rfl

theorem fullLock_locks (dt : Nat) (s : State) (hok : fullLockOk (s.pass dt) = true) :
    completes (.fullLock dt) s (fun t => t.rd Reg.RFE_STAT_SYNTHLK = 1 ∧ t.rd Reg.RFE_STAT_CAL = 0 ∧ t.rd Reg.RFE_BANDCALCNT = satAdd 32 (s.rd Reg.RFE_BANDCALCNT) 1 ∧ t.rfe.lock = none ∧
      changesOnly [Reg.RFE_STAT_SYNTHLK, Reg.RFE_STAT_CAL, Reg.RFE_BANDCALCNT] [.rfe] (s.pass dt) t) := by
  refine completes_of_onlyIf rfl hok ⟨?_, ?_, ?_, rfl, fullLock_fields _, fullLock_parts _ _ (partsOnly_refl _ _) rfl⟩
  · rw [fullLock_rd, State.rd_wr_other _ _ (by decide), State.rd_inc, if_neg (by decide), State.rd_set1, if_pos rfl]
    rfl
  · rw [fullLock_rd, State.rd_wr_same, Nat.zero_mod]
  · rw [fullLock_rd, State.rd_wr_other _ _ (by decide), State.rd_inc, if_pos rfl, State.rd_set1, if_neg (by decide)]
    exact satAdd_mod 32 _ 1

theorem retune_locks (dt : Nat) (s : State) (hok : retuneOk (s.pass dt) = true) :
    completes (.retune dt) s (fun t => t.rd Reg.RFE_STAT_SYNTHLK = 1 ∧ t.rfe = { s.rfe with lock := none } ∧ changesOnly [Reg.RFE_STAT_SYNTHLK] [.rfe] (s.pass dt) t) :=
  completes_of_onlyIf rfl hok ⟨State.rd_wr_same _ _ _, rfl, fieldsOnly_same (fieldsOnly_set1 (fieldsOnly_refl _ (s.pass dt)) List.mem_cons_self) rfl rfl,
    retune_parts _ _ (partsOnly_refl _ _) rfl⟩

/-! ### Calibrations (R133, R134, R136) -/

/-- A calibration's number fits RFE_STAT.CAL. -/
theorem calibrationStart_cal {kind : Nat} (hk : kind ≤ 6) (port : Nat) (s : State) : (calibrationStart kind port s).rd Reg.RFE_STAT_CAL = kind :=
  (State.rd_wr_same s Reg.RFE_STAT_CAL kind).trans (Nat.mod_eq_of_lt (show kind < 16 by omega))

theorem le_six_of_calibrationStartOk {kind port : Nat} {s : State} (h : calibrationStartOk kind port s = true) : kind ≤ 6 := by
  simp only [calibrationStartOk, Bool.and_eq_true, decide_eq_true_eq] at h
  omega

theorem le_six_of_calibrationOverdueOk {kind port : Nat} {s : State} (h : calibrationOverdueOk kind port s = true) : kind ≤ 6 := by
  simp only [calibrationOverdueOk, Bool.and_eq_true, decide_eq_true_eq] at h
  omega

theorem calibrationStart_starts (kind port dt : Nat) (s : State) (hok : calibrationStartOk kind port (s.pass dt) = true) :
    completes (.calibrationStart kind port dt) s (fun t => t.rd Reg.RFE_STAT_CAL = kind ∧ t.rfe.cal = some ⟨kind, port, s.elapsed + dt, (calRec s kind port).resume⟩ ∧
      changesOnly [Reg.RFE_STAT_CAL] [.rfe] (s.pass dt) t) :=
  completes_of_onlyIf rfl hok ⟨calibrationStart_cal (le_six_of_calibrationStartOk hok) _ _, rfl,
    fieldsOnly_same (fieldsOnly_wr (fieldsOnly_refl _ (s.pass dt)) kind List.mem_cons_self) rfl rfl, calibrationStart_parts _ _ _ _ (partsOnly_refl _ _) rfl⟩

/-- A calibration that gives way is recorded with the step it resumes from; CAL shows none and CALABNCNT counts. -/
theorem calAbandon_eq {s : State} {c : CalRun} (h : s.rfe.cal = some c) :
    ∃ cals, calAbandon s = (({ s with rfe := { s.rfe with cal := none, cals := cals } } : State).wr Reg.RFE_STAT_CAL 0).inc Reg.RFE_CALABNCNT := by
  rw [calAbandon, h]
  exact ⟨_, rfl⟩

theorem calibrationAbandon_abandons (dt : Nat) (s : State) (hok : calibrationAbandonOk (s.pass dt) = true) :
    completes (.calibrationAbandon dt) s (fun t => t.rd Reg.RFE_STAT_CAL = 0 ∧ t.rd Reg.RFE_CALABNCNT = satAdd 32 (s.rd Reg.RFE_CALABNCNT) 1 ∧ t.rfe.cal = none ∧
      changesOnly [Reg.RFE_STAT_CAL, Reg.RFE_CALABNCNT] [.rfe] (s.pass dt) t) := by
  obtain ⟨c, hc⟩ := Option.isSome_iff_exists.1 hok
  obtain ⟨cals, heq⟩ := calAbandon_eq hc
  refine completes_of_onlyIf rfl hok ?_
  rw [heq]
  refine ⟨?_, ?_, rfl, ?_, ?_⟩
  · rw [State.rd_inc, if_neg (by decide), State.rd_wr_same, Nat.zero_mod]
  · rw [State.rd_inc, if_pos rfl, State.rd_wr_other _ _ (by decide)]
    exact satAdd_mod 32 _ 1
  · have hrfe := fieldsOnly_same (fieldsOnly_refl [Reg.RFE_STAT_CAL, Reg.RFE_CALABNCNT] (s.pass dt)) (t := { s.pass dt with rfe := { (s.pass dt).rfe with cal := none, cals := cals } }) rfl rfl
    exact fieldsOnly_inc (fieldsOnly_wr hrfe 0 (by simp)) (by simp)
  · exact heq ▸ calAbandon_parts _ _ (partsOnly_refl _ _) rfl

/-- A calibration ends with a fresh record; CAL shows none. -/
def calEnded (cals : List (Nat × CalRec)) (s : State) : State := { s with rfe := { s.rfe with cal := none, cals := cals } }.wr Reg.RFE_STAT_CAL 0

theorem calibrationComplete_good {s : State} {c : CalRun} (h : s.rfe.cal = some c) : ∃ cals, calibrationComplete true s = calEnded cals s := by
  rw [calibrationComplete, h]
  exact ⟨_, rfl⟩

theorem calibrationComplete_bad {s : State} {c : CalRun} (h : s.rfe.cal = some c) :
    ∃ cals, calibrationComplete false s = healthPut 1 6 2 c.kind c.kind 0 (((calEnded cals s).inc Reg.RFE_CALFAILCNT).raise 110) := by
  rw [calibrationComplete, h]
  exact ⟨_, rfl⟩

theorem cal_of_calibrationCompleteOk {s : State} (h : calibrationCompleteOk s = true) : ∃ c, s.rfe.cal = some c := by
  cases hc : s.rfe.cal with
  | none => simp [calibrationCompleteOk, hc] at h
  | some c => exact ⟨c, rfl⟩

theorem calEnded_changes (cals : List (Nat × CalRec)) (s : State) : changesOnly [Reg.RFE_STAT_CAL] [.rfe] s (calEnded cals s) :=
  ⟨fieldsOnly_wr (fieldsOnly_same (fieldsOnly_refl _ s) rfl rfl) 0 List.mem_cons_self, wr_parts _ _ _ (partsOnly_mono (changesOnly_rfe s _).2 rfl) rfl⟩

theorem calibrationComplete_uses (dt : Nat) (s : State) (hok : calibrationCompleteOk (s.pass dt) = true) :
    completes (.calibrationComplete true dt) s (fun t => t.rd Reg.RFE_STAT_CAL = 0 ∧ t.rfe.cal = none ∧ changesOnly [Reg.RFE_STAT_CAL] [.rfe] (s.pass dt) t) := by
  obtain ⟨c, hc⟩ := cal_of_calibrationCompleteOk hok
  obtain ⟨cals, heq⟩ := calibrationComplete_good hc
  refine completes_of_onlyIf rfl hok ?_
  rw [heq]
  exact ⟨State.rd_wr_same _ _ _, rfl, calEnded_changes cals _⟩

theorem healthPut_rfe (a b c d e g : Nat) (s : State) : (healthPut a b c d e g s).rfe = s.rfe :=
  healthPut_parts a b c d e g s s (partsOnly_refl [.mboxes, .regs, .health, .heldNotices, .flight] s) rfl .rfe (by decide)

theorem healthPut_flight (a b c d e g : Nat) (s : State) : (healthPut a b c d e g s).flight = s.flight ++ [144] := by
  rw [healthPut, notice_flight]
  rfl

theorem calibrationComplete_fails (dt : Nat) (s : State) (hok : calibrationCompleteOk (s.pass dt) = true) :
    completes (.calibrationComplete false dt) s (fun t => t.rd Reg.RFE_STAT_CAL = 0 ∧ t.rfe.cal = none ∧ t.rd Reg.RFE_CALFAILCNT = satAdd 32 (s.rd Reg.RFE_CALFAILCNT) 1 ∧
      t.flight = s.flight ++ [110, 144]) := by
  obtain ⟨c, hc⟩ := cal_of_calibrationCompleteOk hok
  obtain ⟨cals, heq⟩ := calibrationComplete_bad hc
  refine completes_of_onlyIf rfl hok ?_
  rw [heq]
  refine ⟨?_, ?_, ?_, ?_⟩
  · rw [healthPut_rd _ _ _ _ _ _ _ _ (by simp only [offMbx]; decide) (by decide), State.rd_raise, State.rd_inc, if_neg (by decide), calEnded, State.rd_wr_same, Nat.zero_mod]
  · rw [healthPut_rfe]
    rfl
  · rw [healthPut_rd _ _ _ _ _ _ _ _ (by simp only [offMbx]; decide) (by decide), State.rd_raise, State.rd_inc, if_pos rfl, calEnded, State.rd_wr_other _ _ (by decide)]
    exact satAdd_mod 32 _ 1
  · rw [healthPut_flight]
    exact List.append_assoc s.flight [110] [144]

theorem calibrationOverdue_of_none {kind port : Nat} {s : State} (h : (calRec s kind port).dueAt = none) :
    calibrationOverdue kind port s = { s with rfe := { s.rfe with cals := put (2 * kind + port) { calRec s kind port with dueAt := some s.elapsed } s.rfe.cals } } := by
  simp only [calibrationOverdue, h]

theorem calibrationOverdue_of_some {kind port d : Nat} {s : State} (h : (calRec s kind port).dueAt = some d) :
    calibrationOverdue kind port s = if d + cycS 3600 ≤ s.elapsed then calibrationStart kind port s else s := by
  simp only [calibrationOverdue, h]

theorem calibrationOverdue_runs (kind port dt : Nat) (s : State) (hok : calibrationOverdueOk kind port (s.pass dt) = true) :
    completes (.calibrationOverdue kind port dt) s (fun t => match (calRec s kind port).dueAt with
      | none => (calRec t kind port).dueAt = some (s.elapsed + dt) ∧ changesOnly [] [.rfe] (s.pass dt) t
      | some d => if d + cycS 3600 ≤ s.elapsed + dt then t.rd Reg.RFE_STAT_CAL = kind ∧ t.rfe.cal.isSome = true else t = s.pass dt) := by
  refine completes_of_onlyIf rfl hok ?_
  cases hdue : (calRec s kind port).dueAt with
  | none =>
    rw [calibrationOverdue_of_none (s := s.pass dt) hdue]
    exact ⟨by rw [calRec, look_put_same]; rfl, changesOnly_rfe _ _⟩
  | some d =>
    rw [calibrationOverdue_of_some (s := s.pass dt) hdue]
    by_cases hd : d + cycS 3600 ≤ s.elapsed + dt
    · rw [if_pos (show d + cycS 3600 ≤ (s.pass dt).elapsed from hd)]
      simp only [if_pos hd]
      exact ⟨calibrationStart_cal (le_six_of_calibrationOverdueOk hok) _ _, rfl⟩
    · rw [if_neg (show ¬ d + cycS 3600 ≤ (s.pass dt).elapsed from hd)]
      simp only [if_neg hd]

/-! ### The duty window (R145, R153) -/

/-- Of a fold that puts a value at each of some keys, such a key holds its own. -/
theorem look_foldl_put {α : Type} (f : Nat → α) (ks : List Nat) (l : List (Nat × α)) {k : Nat} (h : k ∈ ks ∨ look k l = some (f k)) :
    look k (ks.foldl (fun l i => put i (f i) l) l) = some (f k) := by
  induction ks generalizing l with
  | nil => exact h.resolve_left List.not_mem_nil
  | cons i ks ih =>
    refine ih _ ?_
    rw [look_put]
    split
    · next hki => exact .inr (by rw [hki])
    · next hki => exact h.imp_left (fun hm => (List.mem_cons.1 hm).resolve_left hki)

theorem dutyShow_fields {z s : State} (h : fieldsOnly [Reg.RFE_DUTYUSE_SUBBAND, Reg.RFE_DUTYUSE_USE] z s) : fieldsOnly [Reg.RFE_DUTYUSE_SUBBAND, Reg.RFE_DUTYUSE_USE] z (dutyShow s) :=
  fieldsOnly_wr (fieldsOnly_wr h _ (by simp)) _ (by simp)

/-- Each sub-band's window has an empty bucket in front and has lost its oldest. -/
theorem dutyBucket_buckets (s : State) {i : Nat} (hi : i < subCount s) : dutyBuckets (dutyBucket s) i = 0 :: (dutyBuckets s i).take 59 :=
  congrArg (Option.getD · _) (look_foldl_put (fun i => 0 :: (dutyBuckets s i).take 59) (List.range (subCount s)) s.rfe.duty (.inl (List.mem_range.2 hi)))

theorem dutyBucket_advances (dt : Nat) (s : State) (hok : dutyBucketOk (s.pass dt) = true) :
    completes (.dutyBucket dt) s (fun t => t.rfe.dutyAt = s.rfe.dutyAt + cycS 60 ∧ (∀ i, i < subCount s → dutyBuckets t i = 0 :: (dutyBuckets s i).take 59) ∧
      changesOnly [Reg.RFE_DUTYUSE_SUBBAND, Reg.RFE_DUTYUSE_USE] [.rfe] (s.pass dt) t) :=
  completes_of_onlyIf rfl hok ⟨rfl, fun _ hi => dutyBucket_buckets (s.pass dt) hi, dutyShow_fields (fieldsOnly_same (fieldsOnly_refl _ (s.pass dt)) rfl rfl),
    dutyBucket_parts _ _ (partsOnly_refl _ _) rfl⟩

/-! ### The mismatch hold (R124) -/

/-- The fields of RFE_TXCAP. -/
def txCapFields : List Field := [Reg.RFE_TXCAP_CAPS, Reg.RFE_TXCAP_CAPW, Reg.RFE_TXCAP_AGES, Reg.RFE_TXCAP_AGEW, Reg.RFE_TXCAP_LIMS, Reg.RFE_TXCAP_LIMW]

theorem txCapRefresh_fields (s : State) : fieldsOnly txCapFields s (txCapRefresh s) := by
  refine fieldsOnly_wr (fieldsOnly_wr (fieldsOnly_wr (fieldsOnly_wr (fieldsOnly_wr (fieldsOnly_wr (fieldsOnly_refl _ s) _ ?_) _ ?_) _ ?_) _ ?_) _ ?_) _ ?_ <;> simp [txCapFields]

theorem txCapChange_fields (s : State) : fieldsOnly txCapFields s (txCapChange s) := by
  simp only [txCapChange]
  split
  · exact txCapRefresh_fields s
  · exact fieldsOnly_raise (txCapRefresh_fields s)

theorem txCapChange_rfe (s : State) : (txCapChange s).rfe = s.rfe := txCapChange_parts s s (partsOnly_refl [.regs, .flight] s) rfl .rfe (by decide)

theorem classField_notMem_txCapFields (p : Nat) : ∀ g ∈ txCapFields, (classField p).key ≠ g.key := by
  unfold classField
  split <;> decide

theorem classField_ne_refl (p : Nat) : (classField p).key ≠ (Reg.RFE_REFL_CLASS p).key := by
  unfold classField
  split <;> simp only [Field.key, Reg.RFE_STAT_CLASSS, Reg.RFE_STAT_CLASSW, Reg.RFE_REFL_CLASS] <;> omega

theorem classField_width (p : Nat) : (classField p).width = 2 := by
  unfold classField
  split <;> rfl

/-- A port's class shows in RFE_STAT. -/
theorem setClass_class (p : Nat) {c : Nat} (hc : c < 4) (s : State) : (setClass p c s).rd (classField p) = c := by
  rw [setClass]
  split
  · next h => exact h
  · refine ((txCapChange_fields _ _ (classField_notMem_txCapFields p)).1).trans ?_
    refine (State.rd_wr_other _ _ (classField_ne_refl p)).trans ((State.rd_wr_same s _ _).trans ?_)
    rw [classField_width]
    exact Nat.mod_eq_of_lt hc

theorem setClass_ports_length (p c : Nat) (s : State) : (setClass p c s).rfe.ports.length = s.rfe.ports.length := by
  rw [setClass]
  split
  · rfl
  · rw [txCapChange_rfe]
    exact length_modAt _ _ _

theorem rfePort_rfeModPort {p : Nat} {s : State} (f : Port → Port) (h : p < s.rfe.ports.length) : rfePort (rfeModPort p f s) p = f (rfePort s p) := getD_modAt_same _ _ _ _ h

/-- A port that is marked faulted is one of the part's. -/
theorem port_lt_of_faultHoldExpiryOk {p : Nat} {s : State} (h : faultHoldExpiryOk p s = true) : p < s.rfe.ports.length := by
  by_contra hp
  have hport : rfePort s p = Port.reset := List.getD_eq_default _ _ (Nat.le_of_not_lt hp)
  simp [faultHoldExpiryOk, hport, Port.reset] at h

theorem faultHoldExpiry_limits (p dt : Nat) (s : State) (hok : faultHoldExpiryOk p (s.pass dt) = true) :
    completes (.faultHoldExpiry p dt) s (fun t => t.rd (classField p) = 2 ∧ (rfePort t p).faultedAt = none ∧ (rfePort t p).remeasure = true) := by
  have hp : p < (setClass p 2 (s.pass dt)).rfe.ports.length := by
    rw [setClass_ports_length]
    exact port_lt_of_faultHoldExpiryOk hok
  refine completes_of_onlyIf rfl hok ⟨setClass_class p (by decide) _, ?_, ?_⟩ <;> rw [faultHoldExpiry, rfePort_rfeModPort _ hp]

/-! ### The tuner's write-back (R122) -/

theorem tunerWriteBack_writes (dt : Nat) (s : State) (hok : tunerWriteBackOk (s.pass dt) = true) :
    completes (.tunerWriteBack dt) s (fun t => tableSource t 0x13 = 3 ∧ tableVer t 0x13 = tableVer s 0x13 ∧ t.rfe = { s.rfe with tunerAt := s.elapsed + dt } ∧
      changesOnly [] [.rfe, .tables] (s.pass dt) t) := by
  refine completes_of_onlyIf rfl hok ⟨?_, ?_, rfl, fieldsOnly_same (fieldsOnly_refl _ (s.pass dt)) rfl rfl, tunerWriteBack_parts _ _ (partsOnly_refl _ _) rfl⟩
  · rw [tunerWriteBack, tableSource, look_put_same]
  · rw [tunerWriteBack, tableVer, look_put_same]
    rfl

/-! ### Glety's vote for PD_RF under a change of radio state (R129, R631, R636) -/

/-- A Leaf part in which Glety's vote for PD_RF stands at Retention and the entry handshake runs: a radio state that votes On abandons the entry. -/
def leafAbandoning : State :=
  { State.reset with
    regs := [((Reg.PWR_DOM_GREQ 3).key, 1), ((Reg.PWR_DOM_CREQ 3).key, 1), ((Reg.PWR_DOM_TARGET 3).key, 1), (Reg.BKP_SET0_PROFILE.key, 1)]
    pwr := { Pwr.reset with hs := [Hs.mk 3 1 0 none none false] } }

/-- PWR_LOGIDX.NEXT stands far beyond its four bits: the log entry of that index lies on RFE_STAT. -/
def strayLogOnRadio : State :=
  { leafAbandoning with regs := put Reg.PWR_LOGIDX_NEXT.key ((Reg.RFE_STAT_STATE.addr - (Reg.PWR_LOG_TIME 0).addr) / 4) leafAbandoning.regs }

/-- A request of STANDBY abandons the entry, and the time of its log entry (R652) overwrites the state's number. -/
theorem stateRequest_strayLogOnRadio : (stateRequest 1 0 4000 (strayLogOnRadio.pass 0)).rd Reg.RFE_STAT_STATE = 0 := by decide +kernel

/-- A frame to send in the 902 MHz band from the state TX_S. -/
def frameInTxS : TxReq := { t := 0, state := 6, pcode := 100, mode := 1, freq := 915000, span := 500, hops := none, air := 1000 }

/-- The frame is held for a transmitter that is ready now; every field of the part is in its range. -/
def leafHeldFrame : State :=
  { [(Reg.RFE_STAT_STATE, 5), (Reg.RFE_STAT_KIND, 3), (Reg.RFE_STAT_REGIME, 1), (Reg.RFE_STAT_SYNTHLK, 1), (Reg.RFE_STAT_SYNTHON, 1), (Reg.RFE_VPA, 4000)].foldl (fun t p => t.wr p.1 p.2) leafAbandoning with
    rfe := { Rfe.reset with tx := some { req := frameInTxS, phase := .held, outcome := 1, used := 0, clip := false, hold := 0, since := 0 } } }

/-- TX_S votes On for PD_RF, so that the abandoned entry raises EV102 (R636) ahead of EV105. -/
theorem txHoldRelease_leafHeldFrame : (txHoldRelease false (leafHeldFrame.pass 0)).flight = [102, 105] := by decide +kernel

end Sys2Proof.Machine

open Sys2Proof Sys2Proof.Machine

/-- Settles O22: each command by its own lemma. -/
theorem radioLocksAndCalibrations : Obligations.RadioLocksAndCalibrations := by
  unfold Obligations.RadioLocksAndCalibrations
  exact ⟨fullLock_locks, retune_locks, calibrationStart_starts, calibrationAbandon_abandons, calibrationComplete_uses, calibrationComplete_fails, calibrationOverdue_runs, dutyBucket_advances,
    faultHoldExpiry_limits, tunerWriteBack_writes⟩

/-- Refutes O21: the clause of STATE_REQUEST holds of every state, also where PWR_LOGIDX.NEXT exceeds its field and, in Leaf, the log entry of PD_RF's abandoned entry falls on RFE_STAT. -/
theorem not_radioStates : ¬ Obligations.RadioStates := by
  unfold Obligations.RadioStates
  intro h
  obtain ⟨-, hrequest, -⟩ := h
  obtain ⟨hstate, -⟩ := of_completes_onlyIf (hrequest 1 0 4000 0 strayLogOnRadio (by decide +kernel) (.inl rfl)) rfl (by decide +kernel)
  exact absurd (stateRequest_strayLogOnRadio.symm.trans hstate) (by decide)

/-- Refutes O23: the clause of TX_HOLD_RELEASE has EV105 alone on its way, but in Leaf the named transmit state's vote for PD_RF can abandon an entry handshake, which raises EV102 first. -/
theorem not_radioTransmissions : ¬ Obligations.RadioTransmissions := by
  unfold Obligations.RadioTransmissions
  intro h
  obtain ⟨-, -, -, -, hrelease, -⟩ := h
  obtain ⟨-, hflight, -⟩ := of_completes_onlyIf
    (hrelease frameInTxS false true 0 0 leafHeldFrame _ (by decide +kernel) rfl rfl (by decide +kernel) (by decide +kernel) (by decide +kernel)) rfl (by decide +kernel)
  exact absurd (txHoldRelease_leafHeldFrame.symm.trans hflight) (by decide)
end

section
/-!
SUPPORT. The receiver: what each of its operations writes, the lanes, the gain, the sample marks and the ends of a frame in a decoder (R156 to R161, R175 to R178).
-/
namespace Sys2Proof.Machine

/-- A count reads one more than it did, or stands at its top. -/
theorem State.rd_inc_same (s : State) (f : Field) : (s.inc f).rd f = satAdd f.width (s.rd f) 1 := by
  rw [State.rd_inc, if_pos rfl, satAdd_mod]

theorem State.rd_inc_other (s : State) {f g : Field} (h : g.key ≠ f.key) : (s.inc f).rd g = s.rd g := State.rd_wr_other s _ h

/-- A change of the receiver's own data touches no register. -/
theorem changesOnly_rxc (s : State) (r : Rxc) : changesOnly [] [.rxc] s { s with rxc := r } :=
  ⟨fieldsOnly_same (fieldsOnly_refl _ _) rfl rfl, by simp [partsOnly_refl]⟩

/-! ### The pool (R172, R191) -/

/-- The fields of MDM_STAT. -/
def poolFields : List Field := [Reg.MDM_STAT_BUSY, Reg.MDM_STAT_RSV, Reg.MDM_STAT_WAIT, Reg.MDM_STAT_PEAK]

theorem mdmShow_fields {z s : State} {fs : List Field} (h : fieldsOnly fs z s) (hp : ∀ f ∈ poolFields, f ∈ fs) : fieldsOnly fs z (mdmShow s) := by
  simp only [poolFields, List.forall_mem_cons] at hp
  obtain ⟨hbusy, hrsv, hwait, hpeak, -⟩ := hp
  exact fieldsOnly_wr (fieldsOnly_wr (fieldsOnly_wr (fieldsOnly_wr h _ hbusy) _ hrsv) _ hwait) _ hpeak

theorem decSet_fields (d : Nat) (x : Dec) (s : State) : fieldsOnly poolFields s (decSet d x s) :=
  mdmShow_fields (fieldsOnly_same (fieldsOnly_refl _ s) rfl rfl) (fun _ h => h)

theorem decSet_idle (d : Nat) {x : Dec} (hx : x.isBusy = false) (s : State) : (dec (decSet d x s) d).isBusy = false := by
  by_cases hd : d < s.rxc.decs.length
  · exact (congrArg Dec.isBusy (getD_modAt_same s.rxc.decs d _ .free hd)).trans hx
  · exact congrArg Dec.isBusy (List.getD_eq_default (modAt s.rxc.decs d _) Dec.free (by rw [length_modAt]; exact Nat.le_of_not_lt hd))

/-- A decoder that becomes free takes a reservation that waits, or stays free. -/
theorem decFree_eq (d : Nat) (s : State) : ∃ x l, x.isBusy = false ∧ decFree d s = decSet d x { s with rxc := { s.rxc with rsvWait := l } } := by
  rw [decFree]
  split
  · exact ⟨_, _, rfl, rfl⟩
  · exact ⟨.free, s.rxc.rsvWait, rfl, rfl⟩

theorem decFree_fields (d : Nat) (s : State) : fieldsOnly poolFields s (decFree d s) := by
  obtain ⟨x, l, -, heq⟩ := decFree_eq d s
  rw [heq]
  exact decSet_fields d x _

theorem decFree_idle (d : Nat) (s : State) : (dec (decFree d s) d).isBusy = false := by
  obtain ⟨x, l, hx, heq⟩ := decFree_eq d s
  rw [heq]
  exact decSet_idle d hx _

theorem decFree_ring (d : Nat) (s : State) : (decFree d s).rxc.ring = s.rxc.ring := by
  obtain ⟨x, l, -, heq⟩ := decFree_eq d s
  rw [heq]
  rfl

theorem decFree_flight (d : Nat) (s : State) : (decFree d s).flight = s.flight := decFree_parts d s s (partsOnly_refl [.rxc, .regs] s) rfl .flight (by decide)

/-- The five counters of a frame's end (R192). -/
def frameEndCounters : List Field := [Reg.MDM_FRAMECNT, Reg.MDM_FCSCNT, Reg.MDM_SFDTOCNT, Reg.MDM_ABNCNT, Reg.MDM_RINGCNT]

theorem decFree_counter (d : Nat) (s : State) {f : Field} (hf : f ∈ frameEndCounters) : (decFree d s).rd f = s.rd f :=
  (decFree_fields d s f ((show ∀ f ∈ frameEndCounters, ∀ g ∈ poolFields, f.key ≠ g.key by decide) f hf)).1

/-- A frame's end is counted, beside the decoder that becomes free. -/
theorem decFree_inc_counter (d : Nat) (s : State) {f : Field} (hf : f ∈ frameEndCounters) : ((decFree d s).inc f).rd f = satAdd 32 (s.rd f) 1 := by
  rw [State.rd_inc_same, decFree_counter d s hf, (show ∀ f ∈ frameEndCounters, f.width = 32 by decide) f hf]

/-! ### The end of a frame in a decoder (R127, R175, R177) -/

theorem dec_busy_of_frameDecodedOk {d : Nat} {r : RxIn} {s : State} (h : frameDecodedOk d r s = true) : ∃ b, dec s d = .busy b := by
  cases hd : dec s d with
  | busy b => exact ⟨b, rfl⟩
  | free | reserved => simp [frameDecodedOk, hd, Dec.isBusy] at h

theorem frameDecoded_fcs {d : Nat} {b : Busy} {r : RxIn} {s : State} (h : dec s d = .busy b) (hr : r.fcsOk = false) (room : Bool) :
    frameDecoded d r room s = (decFree d s).inc Reg.MDM_FCSCNT := by
  simp [frameDecoded, h, Dec.frame, hr]

theorem frameDecoded_full {d : Nat} {b : Busy} {r : RxIn} {s : State} (h : dec s d = .busy b) (hr : r.fcsOk = true) :
    frameDecoded d r false s = ((decFree d s).inc Reg.MDM_RINGCNT).raise 116 := by
  simp [frameDecoded, h, Dec.frame, hr]

/-- A received frame's record enters the ring, and the auto-return of a listen state is due. -/
def rxDelivered (d : Nat) (b : Busy) (r : RxIn) (s : State) : State :=
  { decFree d s with
    rxc := { (decFree d s).rxc with ring := (decFree d s).rxc.ring ++ [rxRecord d b r s] }
    rfe := if stKind s = 2 then { (decFree d s).rfe with pktDone := some (stNow s) } else (decFree d s).rfe }

theorem frameDecoded_room {d : Nat} {b : Busy} {r : RxIn} {s : State} (h : dec s d = .busy b) (hr : r.fcsOk = true) :
    frameDecoded d r true s = (rxDelivered d b r s).inc Reg.MDM_FRAMECNT := by
  by_cases hk : stKind s = 2 <;> simp [frameDecoded, rxDelivered, h, Dec.frame, hr, hk]

theorem frameDecoded_delivers (d : Nat) (b : Busy) (r : RxIn) (dt : Nat) (s : State) (hok : frameDecodedOk d r (s.pass dt) = true) (hb : dec s d = .busy b) (hr : r.fcsOk = true) :
    completes (.frameDecoded d r true dt) s (fun t => t.rxc.ring = s.rxc.ring ++ [rxRecord d b r (s.pass dt)] ∧ t.rd Reg.MDM_FRAMECNT = satAdd 32 (s.rd Reg.MDM_FRAMECNT) 1 ∧
      (dec t d).isBusy = false ∧ (stKind s = 2 → t.rfe.pktDone = some (stNow s))) := by
  refine completes_of_onlyIf rfl hok ?_
  rw [frameDecoded_room (s := s.pass dt) hb hr]
  refine ⟨?_, decFree_inc_counter d (s.pass dt) List.mem_cons_self, decFree_idle d (s.pass dt), fun hk => ?_⟩
  · exact congrArg (· ++ [rxRecord d b r (s.pass dt)]) (decFree_ring d (s.pass dt))
  · exact congrArg Rfe.pktDone (if_pos (show stKind (s.pass dt) = 2 from hk))

theorem frameDecoded_fails_fcs (d : Nat) (r : RxIn) (room : Bool) (dt : Nat) (s : State) (hok : frameDecodedOk d r (s.pass dt) = true) (hr : r.fcsOk = false) :
    completes (.frameDecoded d r room dt) s (fun t => t.rxc.ring = s.rxc.ring ∧ t.rd Reg.MDM_FCSCNT = satAdd 32 (s.rd Reg.MDM_FCSCNT) 1 ∧ (dec t d).isBusy = false ∧ t.flight = s.flight) := by
  obtain ⟨b, hb⟩ := dec_busy_of_frameDecodedOk hok
  refine completes_of_onlyIf rfl hok ?_
  rw [frameDecoded_fcs hb hr]
  exact ⟨decFree_ring d (s.pass dt), decFree_inc_counter d (s.pass dt) (by simp [frameEndCounters]), decFree_idle d (s.pass dt), decFree_flight d (s.pass dt)⟩

theorem frameDecoded_finds_no_room (d : Nat) (r : RxIn) (dt : Nat) (s : State) (hok : frameDecodedOk d r (s.pass dt) = true) (hr : r.fcsOk = true) :
    completes (.frameDecoded d r false dt) s (fun t => t.rxc.ring = s.rxc.ring ∧ t.rd Reg.MDM_RINGCNT = satAdd 32 (s.rd Reg.MDM_RINGCNT) 1 ∧ (dec t d).isBusy = false ∧
      t.flight = s.flight ++ [116]) := by
  obtain ⟨b, hb⟩ := dec_busy_of_frameDecodedOk hok
  refine completes_of_onlyIf rfl hok ?_
  rw [frameDecoded_full hb hr]
  exact ⟨decFree_ring d (s.pass dt), decFree_inc_counter d (s.pass dt) (by simp [frameEndCounters]), decFree_idle d (s.pass dt), congrArg (· ++ [116]) (decFree_flight d (s.pass dt))⟩

theorem sfdTimeout_counts (d dt : Nat) (s : State) (hok : sfdTimeoutOk d (s.pass dt) = true) :
    completes (.sfdTimeout d dt) s (fun t => t.rd Reg.MDM_SFDTOCNT = satAdd 32 (s.rd Reg.MDM_SFDTOCNT) 1 ∧ (dec t d).isBusy = false ∧ t.rxc.ring = s.rxc.ring) :=
  completes_of_onlyIf rfl hok ⟨decFree_inc_counter d (s.pass dt) (by simp [frameEndCounters]), decFree_idle d (s.pass dt), decFree_ring d (s.pass dt)⟩

theorem decodeAbandon_counts (d reason dt : Nat) (s : State) (hok : decodeAbandonOk d reason (s.pass dt) = true) :
    completes (.decodeAbandon d reason dt) s (fun t => t.rd Reg.MDM_ABNCNT = satAdd 32 (s.rd Reg.MDM_ABNCNT) 1 ∧ (dec t d).isBusy = false ∧ t.rxc.ring = s.rxc.ring) :=
  completes_of_onlyIf rfl hok ⟨decFree_inc_counter d (s.pass dt) (by simp [frameEndCounters]), decFree_idle d (s.pass dt), decFree_ring d (s.pass dt)⟩

/-! ### The sampling mode (R156, R159) -/

/-- The fields that a change of the sampling mode may write. -/
def samplingFields : List Field :=
  [Reg.RXC_STAT_MODE, Reg.RXC_STAT_ZONE, Reg.RXC_STAT_NWIN, Reg.RXC_STAT_W0DET, Reg.RXC_STAT_W1DET, Reg.RXC_LANE_SPARE, Reg.RXC_LANE_NLANE, Reg.MDM_ABNCNT] ++ poolFields

theorem poolAbandon_fields {z s : State} (h : fieldsOnly samplingFields z s) : fieldsOnly samplingFields z (poolAbandon s) :=
  mdmShow_fields (fieldsOnly_wr (fieldsOnly_same h rfl rfl) _ (by simp [samplingFields])) (fun _ hf => List.mem_append_right _ hf)

theorem winShow_fields {z s : State} (h : fieldsOnly samplingFields z s) : fieldsOnly samplingFields z (winShow s) := by
  refine fieldsOnly_wr (fieldsOnly_wr (fieldsOnly_wr (fieldsOnly_wr h _ ?_) _ ?_) _ ?_) _ ?_ <;> simp [samplingFields]

theorem rxcMode_fields (m : Nat) (s : State) : fieldsOnly samplingFields s (rxcMode m s) := by
  refine winShow_fields (fieldsOnly_wr (fieldsOnly_wr ?_ _ (by simp [samplingFields])) _ (by simp [samplingFields]))
  split
  · exact fieldsOnly_refl _ s
  · exact poolAbandon_fields (fieldsOnly_wr (fieldsOnly_refl _ s) m List.mem_cons_self)

theorem rxcApply_fields (s : State) : fieldsOnly samplingFields s (rxcApply s) := rxcMode_fields _ s

theorem rxcApply_flight (s : State) : (rxcApply s).flight = s.flight := rxcApply_parts s s (partsOnly_refl [.rxc, .regs] s) rfl .flight (by decide)

/-! ### A lane's calibration (R159) -/

theorem laneQ_width (i : Nat) : (laneQ i).width = 8 := by
  unfold laneQ
  split <;> rfl

theorem lane_laneSet_same {i : Nat} {s : State} (l : Lane) (h : i < s.rxc.lanes.length) : lane (laneSet i l s) i = l := getD_modAt_same _ _ _ _ h

theorem lt_nine_of_laneCalibrationOk {i : Nat} {s : State} (h : laneCalibrationOk i s = true) : i < 9 := by
  simp only [laneCalibrationOk, laneCalOk, Bool.and_eq_true, decide_eq_true_eq] at h
  obtain ⟨⟨hi, -⟩, -⟩ := h
  exact hi

/-- The result of a calibration is recorded: its moment, whether it was low, and the quality. -/
def laneMeasured (i q : Nat) (converged : Bool) (s : State) : State :=
  (laneSet i ⟨some s.elapsed, decide (q < 128), converged && !decide (q < 128)⟩ s).wr (laneQ i) (min 255 q)

theorem laneCalibration_keeps_lane {i q : Nat} {s : State} (h : 128 ≤ q ∨ (lane s i).low = false) : laneCalibration i q true s = laneMeasured i q true s := by
  refine if_neg ?_
  rcases h with hq | hl
  · simp [Nat.not_lt.2 hq]
  · simp [hl]

theorem laneCalibration_retires_lane {i q : Nat} {converged : Bool} {s : State} (h : converged = false ∨ (q < 128 ∧ (lane s i).low = true)) :
    laneCalibration i q converged s = laneRetire i (laneMeasured i q converged s) := by
  refine if_pos ?_
  rcases h with hc | ⟨hq, hl⟩
  · simp [hc]
  · simp [hq, hl]

theorem laneMeasured_changes (i q : Nat) (converged : Bool) (s : State) : changesOnly [laneQ i] [.rxc] s (laneMeasured i q converged s) :=
  ⟨fieldsOnly_wr (fieldsOnly_same (fieldsOnly_refl _ s) rfl rfl) _ List.mem_cons_self, wr_parts _ _ _ (laneSet_parts _ _ _ _ (partsOnly_refl _ s) rfl) rfl⟩

theorem laneMeasured_quality (i q : Nat) (converged : Bool) (s : State) : (laneMeasured i q converged s).rd (laneQ i) = min 255 q := by
  rw [laneMeasured, State.rd_wr_same, laneQ_width]
  exact Nat.mod_eq_of_lt (by omega)

theorem laneCalibration_measures (i q dt : Nat) (s : State) (hok : laneCalibrationOk i (s.pass dt) = true) (hlanes : s.rxc.lanes.length = 9) (h : 128 ≤ q ∨ (lane s i).low = false) :
    completes (.laneCalibration i q true dt) s (fun t => lane t i = ⟨some (s.elapsed + dt), decide (q < 128), decide (128 ≤ q)⟩ ∧ t.rd (laneQ i) = min 255 q ∧
      changesOnly [laneQ i] [.rxc] (s.pass dt) t) := by
  refine completes_of_onlyIf rfl hok ?_
  rw [laneCalibration_keeps_lane (s := s.pass dt) h]
  refine ⟨?_, laneMeasured_quality i q true _, laneMeasured_changes i q true _⟩
  have hi : i < (s.pass dt).rxc.lanes.length := hlanes ▸ lt_nine_of_laneCalibrationOk hok
  refine (lane_laneSet_same _ hi).trans ?_
  simp [← decide_not]

/-! ### A lane's retirement (R160) -/

/-- The retirement is recorded: the lane's bit and quality, EV112, the health record and the alarm. -/
def laneRecorded (i : Nat) (s : State) : State :=
  let s1 := rmapWrite (((s.setBit Reg.RXC_LANE_RETIRED i).wr (laneQ i) 0).raise 112)
  alarm Reg.AGE_ALARMS_LANES true (healthPut 2 2 2 i i (lanesGood s1) s1)

/-- A field that names a lane shows none in its place. -/
def laneUnnamed (f : Field) (i : Nat) (s : State) : State := if s.rd f = i then s.wr f 15 else s

/-- A change of the mode that the good lanes serve is raised and noticed. -/
def laneNoticed (before : Nat) (s : State) : State :=
  if servedFull (lanesGood s) = before then s else notice 0xF004 2 [before, servedFull (lanesGood s), lanesGood s, 0] (s.raise 113)

theorem laneRetire_eq (i : Nat) (s : State) : laneRetire i s = rxcApply (laneNoticed (servedFull (lanesGood s)) (laneUnnamed Reg.RXC_LANE_NLANE i (laneUnnamed Reg.RXC_LANE_SPARE i (laneRecorded i s)))) := rfl

theorem laneUnnamed_rd {f g : Field} (h : g.key ≠ f.key) (i : Nat) (s : State) : (laneUnnamed f i s).rd g = s.rd g := by
  unfold laneUnnamed
  split
  · exact State.rd_wr_other s 15 h
  · rfl

theorem laneUnnamed_flight (f : Field) (i : Nat) (s : State) : (laneUnnamed f i s).flight = s.flight := by
  unfold laneUnnamed
  split <;> rfl

theorem laneNoticed_rd (before : Nat) (s : State) {f : Field} (hm : offMbx f) : (laneNoticed before s).rd f = s.rd f := by
  unfold laneNoticed
  split
  · rfl
  · exact notice_rd _ _ _ _ _ hm

theorem laneNoticed_flight (before e : Nat) (s : State) (h : e ∈ s.flight) : e ∈ (laneNoticed before s).flight := by
  unfold laneNoticed
  split
  · exact h
  · rw [notice_flight]
    exact List.mem_append_left _ h

/-- Outside the mailboxes and the sampling mode, a retirement writes what it records. -/
theorem laneRetire_rd (i : Nat) (s : State) {f : Field} (hm : offMbx f) (hf : ∀ g ∈ samplingFields, f.key ≠ g.key) : (laneRetire i s).rd f = (laneRecorded i s).rd f := by
  rw [laneRetire_eq, (rxcApply_fields _ f hf).1, laneNoticed_rd _ _ hm, laneUnnamed_rd (hf _ (by simp [samplingFields])),
    laneUnnamed_rd (hf _ (by simp [samplingFields]))]

theorem laneRecorded_alarm (i : Nat) (s : State) : (laneRecorded i s).rd Reg.AGE_ALARMS_LANES = 1 :=
  (State.rd_wr_other _ _ (by decide)).trans (State.rd_wr_same _ _ _)

/-- The fields that the health record and the alarm of a lane write outside the mailboxes (R662, R663). -/
def laneAlarmFields : List Field := [Reg.AGE_ALARMS_LANES, Reg.AGE_STAT_WORST, Reg.AGE_STAT_NEXT]

/-- The record and the alarm leave the lanes' own fields alone. -/
theorem laneRecorded_rd (i : Nat) (s : State) {f : Field} (hm : offMbx f) (hf : ∀ g ∈ laneAlarmFields, f.key ≠ g.key) :
    (laneRecorded i s).rd f = ((s.setBit Reg.RXC_LANE_RETIRED i).wr (laneQ i) 0).rd f := by
  simp only [laneAlarmFields, List.forall_mem_cons] at hf
  obtain ⟨hlanes, hworst, hnext, -⟩ := hf
  exact ((State.rd_wr_other _ _ hworst).trans (State.rd_wr_other _ _ hlanes)).trans (healthPut_rd _ _ _ _ _ _ _ f hm hnext)

theorem laneRecorded_flight (i : Nat) (s : State) : 112 ∈ (laneRecorded i s).flight := by
  refine (congrArg (112 ∈ ·) (healthPut_flight 2 2 2 i i _ _)).mpr ?_
  exact List.mem_append_left _ (List.mem_append_right _ List.mem_cons_self)

/-- A lane's quality shares no key with what else a retirement writes. -/
theorem laneQ_apart : ∀ i < 9, ∀ g ∈ Reg.RXC_LANE_RETIRED :: laneAlarmFields ++ samplingFields, (laneQ i).key ≠ g.key := by decide

theorem laneQ_offMbx : ∀ i < 9, offMbx (laneQ i) := by
  unfold offMbx
  decide

/-- Setting a bit inside a field's width shows. -/
theorem bitOf_rd_setBit (s : State) {f : Field} {i : Nat} (h : i < f.width) : bitOf ((s.setBit f i).rd f) i = 1 := by
  have hbit : ((s.setBit f i).rd f).testBit i = true := by simp [State.setBit, State.rd_wr_same, Nat.testBit_mod_two_pow, h]
  simpa [bitOf, Nat.testBit, Nat.and_comm, Nat.one_and_eq_mod_two] using hbit

theorem laneRetire_retired {i : Nat} (hi : i < 9) (s : State) : bitOf ((laneRetire i s).rd Reg.RXC_LANE_RETIRED) i = 1 := by
  rw [laneRetire_rd _ _ (by simp only [offMbx]; decide) (by decide), laneRecorded_rd _ _ (by simp only [offMbx]; decide) (by decide),
    State.rd_wr_other _ _ (laneQ_apart i hi _ List.mem_cons_self).symm]
  exact bitOf_rd_setBit s hi

theorem laneRetire_quality {i : Nat} (hi : i < 9) (s : State) : (laneRetire i s).rd (laneQ i) = 0 := by
  have hapart := laneQ_apart i hi
  rw [laneRetire_rd _ _ (laneQ_offMbx i hi) (fun g hg => hapart g (List.mem_append_right _ hg)), laneRecorded_rd _ _ (laneQ_offMbx i hi) 
    (fun g hg => hapart g (List.mem_append_left _ (List.mem_cons_of_mem _ hg))), State.rd_wr_same, Nat.zero_mod]

theorem laneRetire_alarm (i : Nat) (s : State) : (laneRetire i s).rd Reg.AGE_ALARMS_LANES = 1 := by
  rw [laneRetire_rd _ _ (by simp only [offMbx]; decide) (by decide), laneRecorded_alarm]

theorem laneRetire_flight (i : Nat) (s : State) : 112 ∈ (laneRetire i s).flight := by
  rw [laneRetire_eq, rxcApply_flight]
  refine laneNoticed_flight _ _ _ ?_
  rw [laneUnnamed_flight, laneUnnamed_flight]
  exact laneRecorded_flight i s

theorem laneCalibration_retires (i q : Nat) (conv : Bool) (dt : Nat) (s : State) (hok : laneCalibrationOk i (s.pass dt) = true) (h : conv = false ∨ (q < 128 ∧ (lane s i).low = true)) :
    completes (.laneCalibration i q conv dt) s (fun t => bitOf (t.rd Reg.RXC_LANE_RETIRED) i = 1 ∧ t.rd (laneQ i) = 0 ∧ t.rd Reg.AGE_ALARMS_LANES = 1 ∧ 112 ∈ t.flight) := by
  have hi := lt_nine_of_laneCalibrationOk hok
  refine completes_of_onlyIf rfl hok ?_
  rw [laneCalibration_retires_lane (s := s.pass dt) h]
  exact ⟨laneRetire_retired hi _, laneRetire_quality hi _, laneRetire_alarm i _, laneRetire_flight i _⟩

/-! ### The exchange of lanes (R159) -/

theorem lt_nine_of_laneExchangeOk {i : Nat} {s : State} (h : laneExchangeOk i s = true) : i < 9 := by
  simp only [laneExchangeOk, Bool.and_eq_true, decide_eq_true_eq] at h
  obtain ⟨⟨⟨-, hi⟩, -⟩, -⟩ := h
  exact hi

/-- Lane `j` comes into use in an exchange, which is counted; `f` shows `v`. -/
def laneTaken (f : Field) (j v : Nat) (s : State) : State :=
  laneSet j { lane s j with ready := false } ((({ s with rxc := { s.rxc with rotAt := s.elapsed } } : State).inc Reg.RXC_ROTCNT).wr f v)

theorem laneTaken_changes (f : Field) (j v : Nat) (s : State) : changesOnly [f, Reg.RXC_ROTCNT] [.rxc] s (laneTaken f j v s) := by
  obtain ⟨-, hparts⟩ := changesOnly_rxc s { s.rxc with rotAt := s.elapsed }
  have hfields := fieldsOnly_same (fieldsOnly_refl [f, Reg.RXC_ROTCNT] s) (t := { s with rxc := { s.rxc with rotAt := s.elapsed } }) rfl rfl
  exact ⟨fieldsOnly_same (fieldsOnly_wr (fieldsOnly_inc hfields (by simp)) v List.mem_cons_self) rfl rfl,
    laneSet_parts _ _ _ _ (wr_parts _ _ _ (State.inc_parts _ _ _ hparts rfl) rfl) rfl⟩

theorem laneTaken_shows {f : Field} {v : Nat} (hf : f.width = 4) (hv : v < 9) (j : Nat) (s : State) : (laneTaken f j v s).rd f = v := by
  refine (State.rd_wr_same _ f v).trans ?_
  rw [hf]
  exact Nat.mod_eq_of_lt (by omega)

theorem laneTaken_counts {f : Field} (hf : Reg.RXC_ROTCNT.key ≠ f.key) (j v : Nat) (s : State) : (laneTaken f j v s).rd Reg.RXC_ROTCNT = satAdd 32 (s.rd Reg.RXC_ROTCNT) 1 :=
  (State.rd_wr_other _ v hf).trans (State.rd_inc_same _ Reg.RXC_ROTCNT)

theorem laneExchange_wide {i : Nat} {s : State} (h : s.rd Reg.RXC_STAT_MODE ≠ 2) : laneExchange i s = laneTaken Reg.RXC_LANE_SPARE (s.rd Reg.RXC_LANE_SPARE) i s := if_neg h

theorem laneExchange_rotates (i dt : Nat) (s : State) (hok : laneExchangeOk i (s.pass dt) = true) (hm : s.rd Reg.RXC_STAT_MODE ≠ 2) :
    completes (.laneExchange i dt) s (fun t => t.rd Reg.RXC_LANE_SPARE = i ∧ t.rd Reg.RXC_ROTCNT = satAdd 32 (s.rd Reg.RXC_ROTCNT) 1 ∧ t.rxc.rotAt = s.elapsed + dt ∧
      changesOnly [Reg.RXC_LANE_SPARE, Reg.RXC_ROTCNT] [.rxc] (s.pass dt) t) := by
  refine completes_of_onlyIf rfl hok ?_
  rw [laneExchange_wide (s := s.pass dt) hm]
  exact ⟨laneTaken_shows rfl (lt_nine_of_laneExchangeOk hok) _ _, laneTaken_counts (by decide) _ _ (s.pass dt), rfl, laneTaken_changes _ _ _ _⟩

/-- The lane that takes the place of the one in use in NARROW: good, calibrated and another. -/
def laneStandsIn (s : State) (i j : Nat) : Bool := j != i && !laneRetired s j && (lane s j).ready

theorem laneExchange_narrow {i : Nat} {s : State} (h : s.rd Reg.RXC_STAT_MODE = 2) :
    laneExchange i s = laneTaken Reg.RXC_LANE_NLANE (((List.range 9).find? (laneStandsIn s i)).getD i) (((List.range 9).find? (laneStandsIn s i)).getD i) s := if_pos h

theorem exists_standIn_of_laneExchangeOk {i : Nat} {s : State} (hok : laneExchangeOk i s = true) (h : s.rd Reg.RXC_STAT_MODE = 2) :
    ∃ j, (List.range 9).find? (laneStandsIn s i) = some j ∧ j < 9 ∧ laneStandsIn s i j = true := by
  have hany : (List.range 9).any (laneStandsIn s i) = true := by
    simp only [laneExchangeOk, if_pos h, Bool.and_eq_true] at hok
    obtain ⟨-, -, hany⟩ := hok
    exact hany
  obtain ⟨j, hj⟩ := Option.isSome_iff_exists.1 (List.find?_isSome.2 (List.any_eq_true.1 hany))
  exact ⟨j, hj, List.mem_range.1 (List.mem_of_find?_eq_some hj), List.find?_some hj⟩

theorem laneExchange_replaces (i dt : Nat) (s : State) (hok : laneExchangeOk i (s.pass dt) = true) (hm : s.rd Reg.RXC_STAT_MODE = 2) :
    completes (.laneExchange i dt) s (fun t => t.rd Reg.RXC_LANE_NLANE ≠ i ∧ laneRetired s (t.rd Reg.RXC_LANE_NLANE) = false ∧ (lane s (t.rd Reg.RXC_LANE_NLANE)).ready = true ∧
      t.rd Reg.RXC_ROTCNT = satAdd 32 (s.rd Reg.RXC_ROTCNT) 1 ∧ changesOnly [Reg.RXC_LANE_NLANE, Reg.RXC_ROTCNT] [.rxc] (s.pass dt) t) := by
  obtain ⟨j, hfind, hj, hstands⟩ := exists_standIn_of_laneExchangeOk hok hm
  simp only [laneStandsIn, Bool.and_eq_true, bne_iff_ne, Bool.not_eq_true'] at hstands
  obtain ⟨⟨hne, hgood⟩, hready⟩ := hstands
  refine completes_of_onlyIf rfl hok ?_
  rw [laneExchange_narrow (s := s.pass dt) hm, hfind, Option.getD_some, laneTaken_shows rfl hj]
  exact ⟨hne, hgood, hready, laneTaken_counts (by decide) _ _ (s.pass dt), laneTaken_changes _ _ _ _⟩

/-! ### Gain (R161) -/

theorem gainField_width (p : Nat) : (gainField p).width = 2 := by
  unfold gainField
  split <;> rfl

theorem gainField_ne_ovlcnt (p : Nat) : (gainField p).key ≠ Reg.RXC_OVLCNT.key := by
  unfold gainField
  split <;> decide

theorem gain_lt_of_clipOverloadOk {ps pw : Nat} {s : State} (h : clipOverloadOk ps pw s = true) : s.rd (gainField (clipPath ps pw)) < 3 := by
  simp only [clipOverloadOk, Bool.and_eq_true, decide_eq_true_eq] at h
  exact h.2

/-- The clip steps the gain of its path, is counted and raised. -/
theorem clipOverload_rd (ps pw : Nat) (s : State) (f : Field) :
    (clipOverload ps pw s).rd f = ((s.wr (gainField (clipPath ps pw)) (s.rd (gainField (clipPath ps pw)) + 1)).inc Reg.RXC_OVLCNT).rd f := rfl

theorem clipOverload_gain {ps pw : Nat} {s : State} (h : s.rd (gainField (clipPath ps pw)) < 3) :
    (clipOverload ps pw s).rd (gainField (clipPath ps pw)) = s.rd (gainField (clipPath ps pw)) + 1 := by
  rw [clipOverload_rd, State.rd_inc_other _ (gainField_ne_ovlcnt _), State.rd_wr_same, gainField_width]
  exact Nat.mod_eq_of_lt (by omega)

theorem clipOverload_counts (ps pw : Nat) (s : State) : (clipOverload ps pw s).rd Reg.RXC_OVLCNT = satAdd 32 (s.rd Reg.RXC_OVLCNT) 1 := by
  rw [clipOverload_rd, State.rd_inc_same, State.rd_wr_other _ _ (gainField_ne_ovlcnt _).symm]
  rfl

/-- A frame in progress in the path that clips is marked. -/
theorem clipOverload_marks {ps pw d : Nat} {b : Busy} {s : State} (h : dec s d = .busy b) :
    dec (clipOverload ps pw s) d = .busy (if winPath s b.cand.win = clipPath ps pw then { b with gainStep := true } else b) := by
  refine (List.getD_map s.rxc.decs Dec.free _).trans ?_
  rw [show s.rxc.decs.getD d .free = .busy b from h]
  exact (apply_ite Dec.busy _ _ _).symm

theorem clipOverload_changes (ps pw : Nat) (s : State) : changesOnly [gainField (clipPath ps pw), Reg.RXC_OVLCNT] [.rxc, .flight] s (clipOverload ps pw s) :=
  ⟨fieldsOnly_raise (e := 115) (fieldsOnly_inc (fieldsOnly_wr (fieldsOnly_same (fieldsOnly_refl _ s) rfl rfl) _ List.mem_cons_self) (by simp)), clipOverload_parts _ _ _ _ (partsOnly_refl _ s) rfl⟩

theorem clipOverload_steps (ps pw dt : Nat) (s : State) (hok : clipOverloadOk ps pw (s.pass dt) = true) :
    completes (.clipOverload ps pw dt) s (fun t => t.rd (gainField (if ps < pw then 1 else 0)) = s.rd (gainField (if ps < pw then 1 else 0)) + 1 ∧
      t.rd Reg.RXC_OVLCNT = satAdd 32 (s.rd Reg.RXC_OVLCNT) 1 ∧ t.flight = s.flight ++ [115] ∧
      (∀ d b, dec s d = .busy b → dec t d = .busy (if winPath s b.cand.win = (if ps < pw then 1 else 0) then { b with gainStep := true } else b)) ∧
      changesOnly [gainField (if ps < pw then 1 else 0), Reg.RXC_OVLCNT] [.rxc, .flight] (s.pass dt) t) :=
  completes_of_onlyIf rfl hok ⟨clipOverload_gain (gain_lt_of_clipOverloadOk hok), clipOverload_counts ps pw (s.pass dt), rfl,
    fun _ _ hb => clipOverload_marks (s := s.pass dt) hb, clipOverload_changes ps pw _⟩

theorem gainStepUp_steps (p dt : Nat) (s : State) (hok : gainStepUpOk p (s.pass dt) = true) :
    completes (.gainStepUp p dt) s (fun t => t.rd (gainField p) = (s.rd (gainField p) - 1) % 2 ^ (gainField p).width ∧ changesOnly [gainField p] [] (s.pass dt) t) :=
  completes_of_onlyIf rfl hok ⟨State.rd_wr_same _ _ _, changesOnly_wr _ _⟩

/-! ### Sample marks (R178) -/

theorem timestampMark_marks (dt : Nat) (s : State) (hm : s.rd Reg.RXC_STAT_MODE ≠ 0) :
    completes (.timestampMark dt) s (fun t => t.rxc = { s.rxc with mark := some (s.elapsed + dt, (s.pass dt).now) } ∧ changesOnly [] [.rxc] (s.pass dt) t) :=
  completes_of_onlyIf rfl (show timestampMarkOk (s.pass dt) = true from bne_iff_ne.2 hm) ⟨rfl, changesOnly_rxc _ _⟩

end Sys2Proof.Machine

open Sys2Proof Sys2Proof.Machine

/-- Settles O24: each command by its own lemma. -/
theorem receiverLanesAndFrames : Obligations.ReceiverLanesAndFrames := by
  unfold Obligations.ReceiverLanesAndFrames
  exact ⟨laneCalibration_measures, laneCalibration_retires, laneExchange_rotates, laneExchange_replaces, clipOverload_steps, gainStepUp_steps, timestampMark_marks, frameDecoded_delivers,
    frameDecoded_fails_fcs, frameDecoded_finds_no_room, sfdTimeout_counts, decodeAbandon_counts⟩
end

section
/-!
SUPPORT. The link controller: which of its fields the operations of the mesh, of a connection and of a drop write, what becomes of a connection, then the commands of connections and sequencers.
-/
namespace Sys2Proof.Machine

/-! ### What an operation leaves of the blocks up to the link controller -/

/-- The first key of the forwarding layer's registers, which follow those of the link controller. -/
def mshKey : Nat := 32 * 0x400B0000

/-- Of the fields below the forwarding layer's, `t` differs from `s` in those listed at most, and every event on its way in `s` is so in `t`. -/
structure LinkOnly (fs : List Field) (s t : State) : Prop where
  rd : ∀ f : Field, f.key < mshKey → (∀ g ∈ fs, f.key ≠ g.key) → t.rd f = s.rd f
  flight : s.flight ⊆ t.flight

section
variable {fs : List Field} {z s t : State}

theorem linkOnly_refl (fs : List Field) (s : State) : LinkOnly fs s s := ⟨fun _ _ _ => rfl, fun _ h => h⟩

theorem linkOnly_trans (h : LinkOnly fs z s) (h' : LinkOnly fs s t) : LinkOnly fs z t :=
  ⟨fun f hk hf => (h'.rd f hk hf).trans (h.rd f hk hf), fun _ hm => h'.flight (h.flight hm)⟩

/-- An operation that leaves the registers alone and loses no event. -/
theorem linkOnly_same (h : LinkOnly fs z s) (hr : t.regs = s.regs) (hf : t.flight = s.flight) : LinkOnly fs z t := by
  refine linkOnly_trans h ⟨fun f _ _ => ?_, by rw [hf]; exact fun _ h => h⟩
  rw [State.rd, hr]
  rfl

/-- A write of a listed field, or of one that is none of the link controller's. -/
theorem linkOnly_wr (h : LinkOnly fs z s) {f : Field} (v : Nat) (hf : f ∈ fs ∨ mshKey ≤ f.key) : LinkOnly fs z (s.wr f v) := by
  refine linkOnly_trans h ⟨fun g hk hg => State.rd_wr_other _ _ fun he => ?_, fun _ h => h⟩
  rcases hf with hm | hle
  · exact hg f hm he
  · omega

theorem linkOnly_inc (h : LinkOnly fs z s) {f : Field} (hf : f ∈ fs ∨ mshKey ≤ f.key) : LinkOnly fs z (s.inc f) := linkOnly_wr h _ hf
theorem linkOnly_count (h : LinkOnly fs z s) {f : Field} (d : Nat) (hf : f ∈ fs ∨ mshKey ≤ f.key) : LinkOnly fs z (s.count f d) := linkOnly_wr h _ hf
theorem linkOnly_clrBit (h : LinkOnly fs z s) {f : Field} (i : Nat) (hf : f ∈ fs ∨ mshKey ≤ f.key) : LinkOnly fs z (s.clrBit f i) := linkOnly_wr h _ hf

theorem linkOnly_raise (h : LinkOnly fs z s) (e : Nat) : LinkOnly fs z (s.raise e) :=
  ⟨h.rd, fun _ hm => List.mem_append_left _ (h.flight hm)⟩

theorem linkOnly_ite {c : Prop} [Decidable c] (hs : LinkOnly fs z s) (ht : LinkOnly fs z t) : LinkOnly fs z (if c then s else t) := by
  split <;> assumption

theorem linkOnly_raiseLim (h : LinkOnly fs z s) (e n : Nat) : LinkOnly fs z (s.raiseLim e n) := by
  have hput : LinkOnly fs z { s with evAt := put e s.elapsed s.evAt } := linkOnly_same h rfl rfl
  unfold State.raiseLim
  split
  · exact linkOnly_ite h (linkOnly_raise hput e)
  · exact linkOnly_raise hput e

theorem linkOnly_foldl {α : Type} (f : State → α → State) (l : List α) (hf : ∀ u a, LinkOnly fs z u → LinkOnly fs z (f u a)) (h : LinkOnly fs z s) : LinkOnly fs z (l.foldl f s) :=
  foldl_keeps (LinkOnly fs z) f l s hf h

/-! ### Notices and the mesh -/

theorem offMbx_of_lt_mshKey {f : Field} (h : f.key < mshKey) : offMbx f := .inl (by simp only [mshKey] at h; omega)

theorem linkOnly_notice (h : LinkOnly fs z s) (code bit : Nat) (p : List Nat) : LinkOnly fs z (notice code bit p s) :=
  linkOnly_trans h ⟨fun f hk _ => notice_rd _ _ _ _ f (offMbx_of_lt_mshKey hk), by rw [notice_flight]; exact fun _ h => h⟩

theorem linkOnly_firnStage (h : LinkOnly fs z s) (st : Stage) (hf : Reg.FIRN_STAT_STATE ∈ fs) : LinkOnly fs z (firnStage st s) := by
  unfold firnStage timeStateNotice
  refine linkOnly_ite h (linkOnly_notice (linkOnly_raise (linkOnly_wr ?_ _ (.inl hf)) _) _ _ _)
  exact linkOnly_same h rfl rfl

theorem linkOnly_healthPut (h : LinkOnly fs z s) (a b c d e g : Nat) : LinkOnly fs z (healthPut a b c d e g s) := by
  refine linkOnly_trans h ⟨fun f hk _ => healthPut_rd _ _ _ _ _ _ _ f (offMbx_of_lt_mshKey hk) fun he => ?_, by rw [healthPut_flight]; exact List.subset_append_left _ _⟩
  rw [he] at hk
  exact absurd hk (by decide)

theorem linkOnly_seqnosp (h : LinkOnly fs z s) : LinkOnly fs z (alarm Reg.AGE_ALARMS_SEQNOSP true s) := by
  unfold alarm
  exact linkOnly_wr (linkOnly_wr h _ (.inr (by decide))) _ (.inr (by decide))

theorem mshKey_le_portQ (p : Nat) : mshKey ≤ (Reg.MSH_PORT_Q_C0 p).key ∧ mshKey ≤ (Reg.MSH_PORT_Q_C1 p).key ∧ mshKey ≤ (Reg.MSH_PORT_Q_C2 p).key ∧ mshKey ≤ (Reg.MSH_PORT_Q_C3 p).key := by
  simp only [mshKey, Field.key, Reg.MSH_PORT_Q_C0, Reg.MSH_PORT_Q_C1, Reg.MSH_PORT_Q_C2, Reg.MSH_PORT_Q_C3]
  omega

/-- A port's queues show (R288). -/
def portShown (s : State) (p : Nat) : State :=
  (((s.wr (Reg.MSH_PORT_Q_C0 p) (min 255 (classCount (egress s p) 0))).wr (Reg.MSH_PORT_Q_C1 p) (min 255 (classCount (egress s p) 1))).wr
    (Reg.MSH_PORT_Q_C2 p) (min 255 (classCount (egress s p) 2))).wr (Reg.MSH_PORT_Q_C3 p) (min 255 (classCount (egress s p) 3))

/-- The pool and every port's queues show. -/
def queuesShown (s : State) : State :=
  (List.range 4).foldl portShown ((s.wr Reg.MSH_STAT_POOLFREE (cellsFree s)).wr Reg.MSH_STAT_POOLLOW (b2n (decide (cellsFree s < 512))))

/-- The forwarding layer's state shows (R287, R288, R290). -/
def meshShown (s : State) : State := ((queuesShown s).wr Reg.MSH_SEEN_USED s.msh.seen.length).wr Reg.MSH_ROUTES_USED s.msh.routes.length

theorem mshShow_eq (s : State) : mshShow s = if cellsFree s < 512 then (meshShown s).raiseLim 129 1 else meshShown s := rfl

theorem linkOnly_portShown (h : LinkOnly fs z s) (p : Nat) : LinkOnly fs z (portShown s p) := by
  obtain ⟨h0, h1, h2, h3⟩ := mshKey_le_portQ p
  exact linkOnly_wr (linkOnly_wr (linkOnly_wr (linkOnly_wr h _ (.inr h0)) _ (.inr h1)) _ (.inr h2)) _ (.inr h3)

theorem linkOnly_meshShown (h : LinkOnly fs z s) : LinkOnly fs z (meshShown s) := by
  have hqueues : LinkOnly fs z (queuesShown s) :=
    linkOnly_foldl _ _ (fun _ p hu => linkOnly_portShown hu p) (linkOnly_wr (linkOnly_wr h _ (.inr (by decide))) _ (.inr (by decide)))
  exact linkOnly_wr (linkOnly_wr hqueues _ (.inr (by decide))) _ (.inr (by decide))

theorem linkOnly_mshShow (h : LinkOnly fs z s) : LinkOnly fs z (mshShow s) := by
  rw [mshShow_eq]
  exact linkOnly_ite (linkOnly_raiseLim (linkOnly_meshShown h) _ _) (linkOnly_meshShown h)

theorem linkOnly_egressMod (h : LinkOnly fs z s) (p : Nat) (f : Egress → Egress) : LinkOnly fs z (egressMod p f s) := linkOnly_same h rfl rfl

theorem linkOnly_dropStale (h : LinkOnly fs z s) (p : Nat) : LinkOnly fs z (dropStale p s) :=
  linkOnly_count (linkOnly_count (linkOnly_egressMod h _ _) _ (.inr (by decide))) _ (.inr (by decide))

theorem mshKey_le_sent (p : Nat) : mshKey ≤ (Reg.MSH_TXCNT p).key ∧ mshKey ≤ (Reg.MSH_TXOCT p).key := by
  simp only [mshKey, Field.key, Reg.MSH_TXCNT, Reg.MSH_TXOCT]
  omega

theorem linkOnly_selectFrame (h : LinkOnly fs z s) (p : Nat) (hop : Hop) : LinkOnly fs z (selectFrame p hop s).2 := by
  obtain ⟨hcnt, hoct⟩ := mshKey_le_sent p
  have hstale := linkOnly_dropStale h p
  unfold selectFrame
  simp only
  split
  · exact linkOnly_mshShow hstale
  · refine linkOnly_mshShow (linkOnly_count (linkOnly_inc ?_ (.inr hcnt)) _ (.inr hoct))
    exact linkOnly_same hstale rfl rfl

theorem linkOnly_mshLinkDown (h : LinkOnly fs z s) (nb : Nb) (hop : Hop) (ports : List Nat) : LinkOnly fs z (mshLinkDown nb hop ports s) :=
  linkOnly_mshShow (linkOnly_foldl _ _ (fun _ _ hu => linkOnly_count (linkOnly_egressMod hu _ _) _ (.inr (by decide))) (linkOnly_same h rfl rfl))

theorem linkOnly_connSelect (h : LinkOnly fs z s) (c : Conn) : LinkOnly fs z (connSelect c s).2 := by
  have hs := linkOnly_selectFrame h c.band (connHop c)
  unfold connSelect
  split
  · next heq => rw [heq] at hs; exact hs
  · next heq =>
    rw [heq] at hs
    split
    · exact linkOnly_selectFrame hs _ _
    · exact hs

/-! ### Planned and expected frames, and guards -/

theorem planFrame_parts_same (t freq mode : Nat) (ack : Bool) (psdu : List Nat) (s : State) : partsOnly [.rfe] s (planFrame t freq mode ack psdu s) :=
  planFrame_parts _ _ _ _ _ s s (partsOnly_refl _ s) rfl

theorem linkOnly_planFrame (h : LinkOnly fs z s) (t freq mode : Nat) (ack : Bool) (psdu : List Nat) : LinkOnly fs z (planFrame t freq mode ack psdu s) :=
  linkOnly_same h (planFrame_parts_same t freq mode ack psdu s .regs (by decide)) (planFrame_parts_same t freq mode ack psdu s .flight (by decide))

theorem linkOnly_expectFrame (h : LinkOnly fs z s) (hf : Reg.LNK_RSVFULLCNT ∈ fs) (t g freq mode : Nat) : LinkOnly fs z (expectFrame t g freq mode s) := by
  have hfull := linkOnly_inc h (.inl hf)
  unfold expectFrame
  split
  · exact linkOnly_ite (linkOnly_same h rfl rfl) hfull
  · exact hfull

theorem linkOnly_guardUse (h : LinkOnly fs z s) (hg : Reg.LNK_GUARD ∈ fs) (hc : Reg.LNK_GUARDCAPCNT ∈ fs) (g cap : Nat) : LinkOnly fs z (guardUse g cap s).2 := by
  have hcap : LinkOnly fs z (if cap ≤ g * 1073741824 / 1000000000 then s.inc Reg.LNK_GUARDCAPCNT else s) := linkOnly_ite (linkOnly_inc h (.inl hc)) h
  exact linkOnly_ite (linkOnly_wr hcap _ (.inl hg)) hcap

theorem connFrame_parts_same (s : State) (c : Conn) (payload : List Nat) (ctrl md : Bool) : partsOnly [.lnk] s (connFrame s c payload ctrl md).2 :=
  connFrame_parts s c payload ctrl md s (partsOnly_refl _ s) rfl

theorem linkOnly_connFrame (h : LinkOnly fs z s) (c : Conn) (payload : List Nat) (ctrl md : Bool) : LinkOnly fs z (connFrame s c payload ctrl md).2 :=
  linkOnly_same h (connFrame_parts_same s c payload ctrl md .regs (by decide)) (connFrame_parts_same s c payload ctrl md .flight (by decide))

/-! ### A connection by its number -/

variable {id : Nat} {c c0 : Conn}

theorem id_of_connOf (h : connOf s id = some c) : c.id = id := by simpa using List.find?_some h

theorem connOf_of_conns (h : t.lnk.conns = s.lnk.conns) (id : Nat) : connOf t id = connOf s id := by rw [connOf, h, connOf]

/-- A connection that is set is the one of its number. -/
theorem connOf_connSet (h : connOf s id = some c0) (hc : c.id = id) : connOf (connSet c s) id = some c := by
  have hp : (fun x : Conn => x.id == id) ∘ (fun x => if x.id = c.id then c else x) = fun x => x.id == id := by
    funext x
    subst hc
    by_cases hx : x.id = c.id <;> simp [hx]
  have hfind : connOf (connSet c s) id = (connOf s id).map (fun x => if x.id = c.id then c else x) := by
    rw [connOf, connSet, List.find?_map, hp]
    rfl
  rw [hfind, h, Option.map_some, if_pos ((id_of_connOf h).trans hc.symm)]

/-- An event goes on: the same connection, as open, at the same count. -/
structure SameEvent (c x : Conn) : Prop where
  id : x.id = c.id
  isOpen : x.open_ = c.open_
  k : x.k = c.k

/-! ### Sending in an event (R225, R226) -/

theorem connSelect_lnk (c : Conn) (s : State) : (connSelect c s).2.lnk = s.lnk :=
  connSelect_parts c s s (partsOnly_refl [.msh, .regs, .evAt, .flight] s) rfl .lnk (by decide)

/-- The fields of the link controller that a sent frame may count in. -/
def sendFields : List Field := [Reg.LNK_RETXDROPCNT, Reg.LNK_RETXCNT, Reg.LNK_RSVFULLCNT]

/-- Whatever PDU is next, the event goes on and every connection stands. -/
theorem nextPdu_keeps_event (c : Conn) (t : Nat) (opening : Bool) (s : State) :
    SameEvent c (nextPdu c t opening s).2.1 ∧ (nextPdu c t opening s).2.2.lnk.conns = s.lnk.conns ∧ LinkOnly sendFields s (nextPdu c t opening s).2.2 := by
  have hrefl := linkOnly_refl sendFields s
  unfold nextPdu
  cases c.out with
  | some o =>
    by_cases hsends : 16 ≤ o.sends
    · simp only [if_pos hsends]
      exact ⟨⟨rfl, rfl, rfl⟩, rfl, linkOnly_inc hrefl (.inl (by simp [sendFields]))⟩
    · simp only [if_neg hsends]
      exact ⟨⟨rfl, rfl, rfl⟩, rfl, linkOnly_inc hrefl (.inl (by simp [sendFields]))⟩
  | none =>
    by_cases hctl : (ctlNow c t opening s).isEmpty = true
    · simp only [if_pos hctl]
      have hlnk := connSelect_lnk c s
      have hsel := linkOnly_connSelect hrefl c
      generalize connSelect c s = p at hlnk hsel
      obtain ⟨_ | f, u⟩ := p
      · exact ⟨⟨rfl, rfl, rfl⟩, congrArg Lnk.conns hlnk, hsel⟩
      · exact ⟨⟨rfl, rfl, rfl⟩, congrArg Lnk.conns hlnk, hsel⟩
    · simp only [if_neg hctl]
      exact ⟨⟨rfl, rfl, rfl⟩, by trivial, linkOnly_same hrefl rfl rfl⟩

theorem connFrame_conns (s : State) (c : Conn) (payload : List Nat) (ctrl md : Bool) : (connFrame s c payload ctrl md).2.lnk.conns = s.lnk.conns := by
  unfold connFrame
  split
  · rfl
  · simp only
    split <;> rfl

theorem planFrame_lnk (t freq mode : Nat) (ack : Bool) (psdu : List Nat) (s : State) : (planFrame t freq mode ack psdu s).lnk = s.lnk :=
  planFrame_parts_same t freq mode ack psdu s .lnk (by decide)

theorem expectFrame_lnk (t g freq mode : Nat) (s : State) : (expectFrame t g freq mode s).lnk = s.lnk :=
  expectFrame_parts t g freq mode s s (partsOnly_refl [.rxc, .regs] s) rfl .lnk (by decide)

/-- The connection with a frame sent at `t`. -/
def connSent (c : Conn) (o : OutPdu) (md : Bool) (t : Nat) : Conn :=
  { c with out := some { o with sends := o.sends + 1 }, ownMd := md, heard := false, lastReply := if c.child then t + leadFt c.mode else c.lastReply }

/-- What a connection's sending does: the connection is set with its event as it was, in a state with the same connections, and a reply may be expected. -/
theorem connSend_cases (h : connOf s id = some c) (t : Nat) (opening : Bool) :
    ∃ c' u, SameEvent c c' ∧ u.lnk.conns = s.lnk.conns ∧ LinkOnly sendFields s u ∧
      (connSend id t opening s = connSet c' u ∨ ∃ back freq, connSend id t opening s = expectFrame back replyGuard freq c'.mode (connSet c' u)) := by
  obtain ⟨hev, hconns, hlink⟩ := nextPdu_keeps_event c t opening s
  unfold connSend
  rw [h]
  simp only
  generalize nextPdu c t opening s = p at hev hconns hlink
  obtain ⟨o, c1, s1⟩ := p
  simp only at hev hconns hlink ⊢
  generalize (connWaits s1 c1 || (c1.child && !s1.lnk.status.isEmpty)) = md
  have hframe := connFrame_conns s1 c1 o.data o.ctrl md
  have hflink := linkOnly_connFrame hlink c1 o.data o.ctrl md
  generalize connFrame s1 c1 o.data o.ctrl md = q at hframe hflink
  obtain ⟨psdu, s2⟩ := q
  simp only at hframe hflink ⊢
  refine ⟨connSent c1 o md t, planFrame t (connFreq s2 (connSent c1 o md t) (c1.k % 2 ^ 32)) c1.mode true psdu s2, ⟨hev.id, hev.isOpen, hev.k⟩, ?_, linkOnly_planFrame hflink _ _ _ _ _, ?_⟩
  · rw [planFrame_lnk, hframe, hconns]
  · by_cases hlast : (c1.child && !md && !opening) = true
    · exact .inl (if_pos hlast)
    · exact .inr ⟨_, _, if_neg hlast⟩

theorem connSend_conn (h : connOf s id = some c) (t : Nat) (opening : Bool) : ∃ x, connOf (connSend id t opening s) id = some x ∧ SameEvent c x := by
  obtain ⟨c', u, hev, hconns, -, hsend⟩ := connSend_cases h t opening
  have hset : connOf (connSet c' u) id = some c' := connOf_connSet ((connOf_of_conns hconns id).trans h) (hev.id.trans (id_of_connOf h))
  refine ⟨c', ?_, hev⟩
  rcases hsend with heq | ⟨back, freq, heq⟩ <;> rw [heq]
  · exact hset
  · rw [connOf_of_conns (congrArg Lnk.conns (expectFrame_lnk _ _ _ _ _)), hset]

theorem linkOnly_connSend (h : connOf s id = some c) (t : Nat) (opening : Bool) : LinkOnly sendFields s (connSend id t opening s) := by
  obtain ⟨c', u, -, -, hu, hsend⟩ := connSend_cases h t opening
  have hset : LinkOnly sendFields s (connSet c' u) := linkOnly_same hu rfl rfl
  rcases hsend with heq | ⟨back, freq, heq⟩ <;> rw [heq]
  · exact hset
  · exact linkOnly_expectFrame hset (by simp [sendFields]) _ _ _ _

/-! ### An event opens, is skipped or closes (R224, R225, R227) -/

theorem updApply_event (c : Conn) (u : Upd) : (updApply c u).id = c.id ∧ (updApply c u).k = c.k := by
  unfold updApply
  split
  · split <;> exact ⟨rfl, rfl⟩
  · exact ⟨rfl, rfl⟩
  · exact ⟨rfl, rfl⟩

theorem updDue_id (c : Conn) : (updDue c).id = c.id := foldl_same Conn.id updApply _ _ fun b u => (updApply_event b u).1
theorem updDue_k (c : Conn) : (updDue c).k = c.k := foldl_same Conn.k updApply _ _ fun b u => (updApply_event b u).2

/-- The connection at its anchor: the updates due have taken effect and the event is open. -/
def eventOpened (c : Conn) : Conn := { updDue c with open_ := true, heard := false, got := false }

/-- The event is open and counted. -/
def eventBegun (c : Conn) (s : State) : State := (connSet (eventOpened c) s).inc Reg.LNK_EVTCNT

theorem connOf_eventBegun (h : connOf s id = some c) : connOf (eventBegun c s) id = some (eventOpened c) :=
  connOf_connSet h ((updDue_id c).trans (id_of_connOf h))

/-- The fields that an event's opening may write beside its count. -/
def openFields : List Field := [Reg.LNK_GUARD, Reg.LNK_GUARDCAPCNT] ++ sendFields

theorem linkOnly_mono {gs : List Field} (h : LinkOnly fs s t) (hg : ∀ f ∈ fs, f ∈ gs) : LinkOnly gs s t :=
  ⟨fun f hk hf => h.rd f hk fun g hm => hf g (hg g hm), h.flight⟩

theorem guardUse_lnk (g cap : Nat) (s : State) : (guardUse g cap s).2.lnk = s.lnk :=
  guardUse_parts g cap s s (partsOnly_refl [.regs] s) rfl .lnk (by decide)

/-- The guard window that a child reserves at its anchor (R233 to R236). -/
def childWindow (c : Conn) (s : State) : Nat × State :=
  guardUse (guardNs c.localErr c.peerErr (ownDcls s) c.peerDcls c.misses (openAt c - c.contact)) (c.interval * 2 ^ 18) s

theorem connectionEvent_child (h : connOf s id = some c) (hc : (eventOpened c).child = true) :
    connectionEvent id 0 false s = expectFrame (openAt (eventOpened c)) (childWindow (eventOpened c) (eventBegun c s)).1
      (connFreq (childWindow (eventOpened c) (eventBegun c s)).2 (eventOpened c) ((eventOpened c).k % 2 ^ 32)) (eventOpened c).mode (childWindow (eventOpened c) (eventBegun c s)).2 := by
  rw [connectionEvent, h]
  exact if_pos hc

theorem connectionEvent_parent (h : connOf s id = some c) (hc : ¬ (eventOpened c).child = true) :
    connectionEvent id 0 false s = connSend id (openAt (eventOpened c)) true (eventBegun c s) := by
  rw [connectionEvent, h]
  exact if_neg hc

/-- The child reserves its guard window, or the parent sends: the event that was begun goes on. -/
theorem connectionEvent_opens (h : connOf s id = some c) :
    LinkOnly openFields (eventBegun c s) (connectionEvent id 0 false s) ∧ ∃ x, connOf (connectionEvent id 0 false s) id = some x ∧ SameEvent (eventOpened c) x := by
  have hbegun := connOf_eventBegun h
  by_cases hc : (eventOpened c).child = true
  · rw [connectionEvent_child h hc]
    have hwindow : LinkOnly openFields (eventBegun c s) (childWindow (eventOpened c) (eventBegun c s)).2 :=
      linkOnly_guardUse (linkOnly_refl _ _) (by simp [openFields]) (by simp [openFields]) _ _
    refine ⟨linkOnly_expectFrame hwindow (by simp [openFields, sendFields]) _ _ _ _, eventOpened c, ?_, rfl, rfl, rfl⟩
    rw [connOf_of_conns (congrArg Lnk.conns (expectFrame_lnk _ _ _ _ _)), childWindow, connOf_of_conns (congrArg Lnk.conns (guardUse_lnk _ _ _)), hbegun]
  · rw [connectionEvent_parent h hc]
    exact ⟨linkOnly_mono (linkOnly_connSend hbegun _ _) fun f hf => List.mem_append_right _ hf, connSend_conn hbegun _ _⟩

theorem connectionEvent_phase_zero (id dt : Nat) (c : Conn) (s : State) (hok : connectionEventOk id 0 (s.pass dt) = true) (h : connOf s id = some c) :
    completes (.connectionEvent id 0 false dt) s (fun t => t.rd Reg.LNK_EVTCNT = satAdd 32 (s.rd Reg.LNK_EVTCNT) 1 ∧ ∃ x, connOf t id = some x ∧ x.open_ = true ∧ x.k = c.k) := by
  obtain ⟨hlink, x, hx, hev⟩ := connectionEvent_opens (s := s.pass dt) h
  refine completes_of_onlyIf rfl hok ⟨?_, x, hx, hev.isOpen, hev.k.trans (updDue_k c)⟩
  rw [hlink.rd _ (by decide) (by decide), eventBegun, State.rd_inc_same]
  rfl

/-- The connection after an event's end. -/
def eventEnded (c : Conn) (missed : Bool) : Conn := { c with k := c.k + 1, events := c.events + 1, open_ := false, heard := false, misses := if missed then c.misses + 1 else 0 }

theorem eventEnd_eq (h : connOf s id = some c) (missed : Bool) :
    eventEnd id missed s = if missed = true then (connSet (eventEnded c missed) s).inc Reg.LNK_EVTMISSCNT else connSet (eventEnded c missed) s := by
  rw [eventEnd, h]
  rfl

theorem eventEnd_conn (h : connOf s id = some c) (missed : Bool) : connOf (eventEnd id missed s) id = some (eventEnded c missed) := by
  have hset : connOf (connSet (eventEnded c missed) s) id = some (eventEnded c missed) := connOf_connSet h (show c.id = id from id_of_connOf h)
  rw [eventEnd_eq h]
  split
  · exact hset
  · exact hset

theorem eventEnd_counts (h : connOf s id = some c) : (eventEnd id true s).rd Reg.LNK_EVTMISSCNT = satAdd 32 (s.rd Reg.LNK_EVTMISSCNT) 1 := by
  rw [eventEnd_eq h, if_pos rfl, State.rd_inc_same]
  rfl

theorem eventEnd_fields (h : connOf s id = some c) (missed : Bool) {fs : List Field} (hz : fieldsOnly fs z s) (hf : Reg.LNK_EVTMISSCNT ∈ fs) : fieldsOnly fs z (eventEnd id missed s) := by
  have hset : fieldsOnly fs z (connSet (eventEnded c missed) s) := fieldsOnly_same hz rfl rfl
  rw [eventEnd_eq h]
  split
  · exact fieldsOnly_wr hset _ hf
  · exact hset

theorem connectionEvent_skips (id dt : Nat) (c : Conn) (s : State) (hok : connectionEventOk id 0 (s.pass dt) = true) (h : connOf s id = some c) :
    completes (.connectionEvent id 0 true dt) s (fun t => t.rd Reg.LNK_TXCONFCNT = satAdd 32 (s.rd Reg.LNK_TXCONFCNT) 1 ∧ t.rd Reg.LNK_EVTMISSCNT = satAdd 32 (s.rd Reg.LNK_EVTMISSCNT) 1 ∧
      connOf t id = some { c with k := c.k + 1, events := c.events + 1, open_ := false, heard := false, misses := c.misses + 1 } ∧
      changesOnly [Reg.LNK_TXCONFCNT, Reg.LNK_EVTMISSCNT] [.lnk] (s.pass dt) t) := by
  have hskip : connOf ((s.pass dt).inc Reg.LNK_TXCONFCNT) id = some c := h
  have heq : connectionEvent id 0 true (s.pass dt) = eventEnd id true ((s.pass dt).inc Reg.LNK_TXCONFCNT) := by
    rw [connectionEvent, show connOf (s.pass dt) id = some c from h]
    rfl
  refine completes_of_onlyIf rfl hok ?_
  rw [heq]
  refine ⟨?_, ?_, eventEnd_conn hskip true, ?_, ?_⟩
  · rw [(eventEnd_fields hskip true (fieldsOnly_refl [Reg.LNK_EVTMISSCNT] _) List.mem_cons_self _ (by decide)).1, State.rd_inc_same]
    rfl
  · rw [eventEnd_counts hskip, State.rd_inc_other _ (by decide)]
    rfl
  · exact eventEnd_fields hskip true (fieldsOnly_wr (fieldsOnly_refl _ _) _ (by simp)) (by simp)
  · exact eventEnd_parts _ _ _ _ (wr_parts _ _ _ (partsOnly_refl _ _) rfl) rfl

theorem connectionEvent_closes (id phase dt : Nat) (lost : Bool) (c : Conn) (s : State) (hok : connectionEventOk id phase (s.pass dt) = true) (hp : phase ≠ 0) (h : connOf s id = some c) :
    completes (.connectionEvent id phase lost dt) s (fun t => connOf t id = some { c with k := c.k + 1, events := c.events + 1, open_ := false, heard := false, misses := if c.got then 0 else c.misses + 1 } ∧
      (c.got = false → t.rd Reg.LNK_EVTMISSCNT = satAdd 32 (s.rd Reg.LNK_EVTMISSCNT) 1) ∧ changesOnly [Reg.LNK_EVTMISSCNT] [.lnk] (s.pass dt) t) := by
  have h' : connOf (s.pass dt) id = some c := h
  have heq : connectionEvent id phase lost (s.pass dt) = eventEnd id (!c.got) (s.pass dt) := by
    rw [connectionEvent, h']
    exact if_neg hp
  refine completes_of_onlyIf rfl hok ?_
  rw [heq]
  refine ⟨?_, fun hgot => ?_, eventEnd_fields h' _ (fieldsOnly_refl _ _) (by simp), eventEnd_parts _ _ _ _ (partsOnly_refl _ _) rfl⟩
  · rw [eventEnd_conn h', eventEnded]
    cases c.got <;> rfl
  · rw [hgot]
    exact eventEnd_counts h'

/-! ### Drops (R222, R231) -/

/-- The connection is gone, and its drop is counted and shown. -/
def dropCounted (id : Nat) (c : Conn) (reason : Nat) (s : State) : State :=
  (((lnkShow { s with lnk := { s.lnk with conns := s.lnk.conns.filter (fun x => !(x.id == id)) } }).inc Reg.LNK_DROPCNT).wr Reg.LNK_LASTDROP_REASON reason |>.wr Reg.LNK_LASTDROP_PEER c.peer).raise 123

/-- DRIFT and INSTANT have counts of their own. -/
def dropByReason (reason : Nat) (s : State) : State := if reason = 2 then s.inc Reg.LNK_DRIFTCNT else if reason = 3 then s.inc Reg.LNK_INSTCNT else s

/-- A drop that this end decides sends a TERM. -/
def dropTerm (c : Conn) (reason : Nat) (s : State) : State :=
  if reason == 3 || reason == 4 || reason == 6 || reason == 7 || reason == 8 then
    planFrame (if c.child then openAt c + leadFt c.mode + Config.frameTail c.mode 15 + tIfs else openAt c)
      (connFreq s c (c.k % 2 ^ 32)) c.mode false (connFrame s c [5, 1, reason] true false).1 (connFrame s c [5, 1, reason] true false).2
  else s

/-- The peer is the node's time parent (R238). -/
def isTimeParent (c : Conn) (s : State) : Bool := s.firn.parent == .radio && s.rd Reg.LNK_PARENT_PARENT == c.peer

/-- A child that has lost contact listens for its former parent (R237). -/
def recoverStarted (c : Conn) (reason : Nat) (s : State) : State :=
  if reason = 1 ∨ reason = 2 then { s with lnk := { s.lnk with recover := some ⟨c.peer, reason, s.now, 0, reason == 2 && isTimeParent c s⟩ } } else s

/-- The records of dropped children with one more (R239). -/
def droppedWith (c : Conn) (reason : Nat) (s : State) : List Dropped :=
  s.lnk.dropped.filter (fun d => !(d.conn.peer == c.peer)) ++ (if reason = 5 then [] else [⟨c, s.elapsed, decide (2 ≤ c.peerDcls), if 2 ≤ c.peerDcls then 9 else 0, s.elapsed⟩])

/-- The recovery of a child, or the record that a parent keeps (R237 to R239). -/
def dropAfter (id : Nat) (c : Conn) (reason : Nat) (s : State) : State :=
  if c.child then
    let s1 := recoverStarted c reason s
    if reason = 2 && isTimeParent c s then firnStage .acquiring { s1 with firn := { s1.firn with inRow := 0, rejects := [] } } else s1
  else mshLinkDown (.conn id) (.conn id) [0, 1] { s with lnk := { s.lnk with dropped := droppedWith c reason s } }

theorem connDrop_eq (h : connOf s id = some c) (reason : Nat) : connDrop id reason s = dropAfter id c reason (dropTerm c reason (dropByReason reason (dropCounted id c reason s))) := by
  rw [connDrop, h]
  rfl

/-- The fields that a drop may write after it is counted and shown. -/
def dropAfterFields : List Field := [Reg.LNK_DRIFTCNT, Reg.LNK_INSTCNT, Reg.FIRN_STAT_STATE]

theorem linkOnly_dropByReason (h : LinkOnly dropAfterFields z s) (reason : Nat) : LinkOnly dropAfterFields z (dropByReason reason s) :=
  linkOnly_ite (linkOnly_inc h (.inl (by simp [dropAfterFields]))) (linkOnly_ite (linkOnly_inc h (.inl (by simp [dropAfterFields]))) h)

theorem linkOnly_dropTerm (h : LinkOnly fs z s) (c : Conn) (reason : Nat) : LinkOnly fs z (dropTerm c reason s) :=
  linkOnly_ite (linkOnly_planFrame (linkOnly_connFrame h _ _ _ _) _ _ _ _ _) h

theorem linkOnly_recoverStarted (h : LinkOnly fs z s) (c : Conn) (reason : Nat) : LinkOnly fs z (recoverStarted c reason s) := by
  unfold recoverStarted
  split
  · exact linkOnly_same h rfl rfl
  · exact h

theorem linkOnly_dropAfter (h : LinkOnly dropAfterFields z s) (id : Nat) (c : Conn) (reason : Nat) : LinkOnly dropAfterFields z (dropAfter id c reason s) := by
  have hrecover := linkOnly_recoverStarted h c reason
  unfold dropAfter
  refine linkOnly_ite (linkOnly_ite (linkOnly_firnStage ?_ _ (by simp [dropAfterFields])) hrecover) (linkOnly_mshLinkDown ?_ _ _ _)
  · exact linkOnly_same hrecover rfl rfl
  · exact linkOnly_same h rfl rfl

/-- What follows a counted drop leaves its count and what it shows alone. -/
theorem linkOnly_connDrop (h : connOf s id = some c) (reason : Nat) : LinkOnly dropAfterFields (dropCounted id c reason s) (connDrop id reason s) := by
  rw [connDrop_eq h]
  exact linkOnly_dropAfter (linkOnly_dropTerm (linkOnly_dropByReason (linkOnly_refl _ _) _) _ _) _ _ _

theorem mshLinkDown_lnk (nb : Nb) (hop : Hop) (ports : List Nat) (s : State) : (mshLinkDown nb hop ports s).lnk = s.lnk :=
  mshLinkDown_parts nb hop ports s s (partsOnly_refl [.msh, .regs, .evAt, .flight] s) rfl .lnk (by decide)

theorem firnStage_lnk (st : Stage) (s : State) : (firnStage st s).lnk = s.lnk :=
  firnStage_parts st s s (partsOnly_refl [.mboxes, .firn, .regs, .heldNotices, .flight] s) rfl .lnk (by decide)

theorem recoverStarted_conns (c : Conn) (reason : Nat) (s : State) : (recoverStarted c reason s).lnk.conns = s.lnk.conns := by
  unfold recoverStarted
  split <;> rfl

theorem dropAfter_conns (id : Nat) (c : Conn) (reason : Nat) (s : State) : (dropAfter id c reason s).lnk.conns = s.lnk.conns := by
  unfold dropAfter
  split
  · simp only
    split
    · rw [firnStage_lnk, recoverStarted_conns]
    · exact recoverStarted_conns c reason s
  · rw [mshLinkDown_lnk]

theorem dropTerm_conns (c : Conn) (reason : Nat) (s : State) : (dropTerm c reason s).lnk.conns = s.lnk.conns := by
  unfold dropTerm
  split
  · rw [planFrame_lnk, connFrame_conns]
  · rfl

theorem dropByReason_lnk (reason : Nat) (s : State) : (dropByReason reason s).lnk = s.lnk := by
  unfold dropByReason
  split
  · rfl
  · split <;> rfl

theorem connDrop_gone (h : connOf s id = some c) (reason : Nat) : connOf (connDrop id reason s) id = none := by
  rw [connDrop_eq h, connOf, dropAfter_conns, dropTerm_conns, dropByReason_lnk, List.find?_eq_none]
  intro x hx
  simpa using (List.mem_filter.1 hx).2

/-- A drop is counted and shows its reason and peer. -/
theorem connDrop_shows (h : connOf s id = some c) {reason : Nat} (hr : reason < 16) :
    connOf (connDrop id reason s) id = none ∧ (connDrop id reason s).rd Reg.LNK_DROPCNT = satAdd 32 (s.rd Reg.LNK_DROPCNT) 1 ∧ (connDrop id reason s).rd Reg.LNK_LASTDROP_REASON = reason ∧
      (connDrop id reason s).rd Reg.LNK_LASTDROP_PEER = c.peer % 2 ^ 16 ∧ 123 ∈ (connDrop id reason s).flight := by
  have hlink := linkOnly_connDrop h reason
  refine ⟨connDrop_gone h reason, ?_, ?_, ?_, hlink.flight (List.mem_append_right _ List.mem_cons_self)⟩ <;>
    rw [hlink.rd _ (by decide) (by decide), dropCounted, State.rd_raise]
  · rw [State.rd_wr_other _ _ (by decide), State.rd_wr_other _ _ (by decide), State.rd_inc_same, lnkShow, State.rd_wr_other _ _ (by decide)]
    rfl
  · rw [State.rd_wr_other _ _ (by decide), State.rd_wr_same]
    exact Nat.mod_eq_of_lt hr
  · exact State.rd_wr_same _ _ _

theorem establishTimeout_drops (id dt : Nat) (c : Conn) (s : State) (hok : establishTimeoutOk id (s.pass dt) = true) (h : connOf s id = some c) :
    completes (.establishTimeout id dt) s (fun t => connOf t id = none ∧ t.rd Reg.LNK_DROPCNT = satAdd 32 (s.rd Reg.LNK_DROPCNT) 1 ∧ t.rd Reg.LNK_LASTDROP_REASON = 1 ∧
      t.rd Reg.LNK_LASTDROP_PEER = c.peer % 2 ^ 16 ∧ 123 ∈ t.flight) :=
  completes_of_onlyIf rfl hok (connDrop_shows (s := s.pass dt) h (by decide))

theorem supervisionTimeout_drops (id dt : Nat) (c : Conn) (s : State) (hok : supervisionTimeoutOk id (s.pass dt) = true) (h : connOf s id = some c) :
    completes (.supervisionTimeout id dt) s (fun t => connOf t id = none ∧ t.rd Reg.LNK_DROPCNT = satAdd 32 (s.rd Reg.LNK_DROPCNT) 1 ∧
      t.rd Reg.LNK_LASTDROP_REASON = (if drifting c then 2 else 1) ∧ t.rd Reg.LNK_LASTDROP_PEER = c.peer % 2 ^ 16 ∧ 123 ∈ t.flight) := by
  have heq : supervisionTimeout id (s.pass dt) = connDrop id (if drifting c then 2 else 1) (s.pass dt) := by
    rw [supervisionTimeout, show connOf (s.pass dt) id = some c from h]
  refine completes_of_onlyIf rfl hok ?_
  rw [heq]
  exact connDrop_shows (s := s.pass dt) h (by split <;> decide)

/-! ### Sequencers (R198) -/

/-- The fields of the link controller that a drop or a move of connections may write. -/
def dropFields : List Field := [Reg.LNK_STAT_NCONN, Reg.LNK_DROPCNT, Reg.LNK_LASTDROP_REASON, Reg.LNK_LASTDROP_PEER] ++ dropAfterFields

theorem linkOnly_dropCounted (id : Nat) (c : Conn) (reason : Nat) (s : State) : LinkOnly dropFields s (dropCounted id c reason s) := by
  refine linkOnly_raise (linkOnly_wr (linkOnly_wr (linkOnly_inc (linkOnly_wr ?_ _ ?_) ?_) _ ?_) _ ?_) _
  · exact linkOnly_same (linkOnly_refl _ _) rfl rfl
  all_goals exact .inl (by simp [dropFields])

theorem connDrop_of_none (h : connOf s id = none) (reason : Nat) : connDrop id reason s = s := by
  rw [connDrop, h]

theorem linkOnly_slotMove (h : LinkOnly dropFields z s) (i : Nat) : LinkOnly dropFields z (slotMove i s) := by
  refine linkOnly_foldl _ _ (fun u c hu => ?_) h
  split
  · exact linkOnly_same hu rfl rfl
  · cases hc : connOf u c.id with
    | none => rwa [connDrop_of_none hc]
    | some x => exact linkOnly_trans hu (linkOnly_trans (linkOnly_dropCounted _ _ _ _) (linkOnly_mono (linkOnly_connDrop hc 8) fun f hf => List.mem_append_right _ hf))

/-- A fault of a sequencer is recorded: its bit, the count, EV124, a new repair map and a health record, and the sequencer halts. -/
def seqFaulted (p : Nat) (s : State) : State :=
  healthPut 2 3 1 p p ((slotOfSeq s p).getD 15)
    (rmapWrite (((({ s with cores := modAt s.cores (5 + p) (fun c => { c with halted := true }) } : State).setBit Reg.LNK_SEQ_FAILED p).inc Reg.LNK_SEQFLTCNT).raise 124))

/-- A connection of the slot whose item falls in the next 2 ms. -/
def itemSoon (i : Nat) (s : State) (c : Conn) : Bool := c.slot == i && decide (openAt c < s.now + ftUs 2000)

/-- The items of the next 2 ms in slot `i` are skipped and counted, and the spare serves the slot. -/
def spareTakes (i spare : Nat) (s : State) : State :=
  let skip := fun c : Conn => if c.slot = i ∧ openAt c < s.now + ftUs 2000 then { c with k := c.k + 1, open_ := false, misses := c.misses + 1 } else c
  let n := (s.lnk.conns.filter (itemSoon i s)).length
  ((({ s with lnk := { s.lnk with conns := s.lnk.conns.map skip } }.count Reg.LNK_TXCONFCNT n).count Reg.LNK_EVTMISSCNT n).wr (slotField i) spare).wr Reg.LNK_SEQ_SPARE 15

/-- The slot moves to the spare, or is left empty; with no spare left the alarm stands. -/
def slotAfter (slot : Option Nat) (spare : Nat) (s : State) : State :=
  match slot with
  | none => alarm Reg.AGE_ALARMS_SEQNOSP true (s.wr Reg.LNK_SEQ_SPARE 15)
  | some i => if spare ≠ 15 then alarm Reg.AGE_ALARMS_SEQNOSP true (spareTakes i spare s) else slotMove i ((s.wr (slotField i) 15).clrBit Reg.LNK_SEQ_SLOTS i)

theorem sequencerFault_eq (p : Nat) (s : State) : sequencerFault p s = slotAfter (slotOfSeq s p) (s.rd Reg.LNK_SEQ_SPARE) (seqFaulted p s) := rfl

/-- The fields of the link controller that follow a sequencer's fault. -/
def seqAfterFields : List Field :=
  [Reg.LNK_SEQ_SPARE, Reg.LNK_SEQ_SLOTS, Reg.LNK_TXCONFCNT, Reg.LNK_EVTMISSCNT] ++ (List.range 8).map slotField ++ dropFields

theorem slotField_mem (i : Nat) : slotField i ∈ seqAfterFields := by
  unfold slotField
  split <;> simp [seqAfterFields, List.range, List.range.loop, slotField]

theorem linkOnly_spareTakes (h : LinkOnly seqAfterFields z s) (i spare : Nat) : LinkOnly seqAfterFields z (spareTakes i spare s) := by
  refine linkOnly_wr (linkOnly_wr (linkOnly_count (linkOnly_count ?_ _ ?_) _ ?_) _ (.inl (slotField_mem i))) _ ?_
  · exact linkOnly_same h rfl rfl
  all_goals exact .inl (by simp [seqAfterFields])

theorem linkOnly_slotAfter (slot : Option Nat) (spare : Nat) (s : State) : LinkOnly seqAfterFields s (slotAfter slot spare s) := by
  have hrefl := linkOnly_refl seqAfterFields s
  unfold slotAfter
  split
  · exact linkOnly_seqnosp (linkOnly_wr hrefl _ (.inl (by simp [seqAfterFields])))
  · next i =>
    refine linkOnly_ite (linkOnly_seqnosp (linkOnly_spareTakes hrefl _ _)) ?_
    have hempty := linkOnly_clrBit (f := Reg.LNK_SEQ_SLOTS) (linkOnly_wr hrefl 15 (.inl (slotField_mem i))) i (.inl (by simp [seqAfterFields]))
    exact linkOnly_trans hempty (linkOnly_mono (linkOnly_slotMove (linkOnly_refl _ _) i) fun f hf => List.mem_append_right _ hf)

/-- Whatever becomes of the slot, the record of the fault stands. -/
theorem linkOnly_sequencerFault (p : Nat) (s : State) : LinkOnly seqAfterFields (seqFaulted p s) (sequencerFault p s) := linkOnly_slotAfter _ _ _

/-- The fault's record: a field of the link controller reads as the bit and the count leave it. -/
theorem seqFaulted_rd (p : Nat) (s : State) {f : Field} (hf : f.key < mshKey) :
    (seqFaulted p s).rd f = ((s.setBit Reg.LNK_SEQ_FAILED p).inc Reg.LNK_SEQFLTCNT).rd f :=
  (linkOnly_healthPut (linkOnly_refl [] _) _ _ _ _ _ _).rd f hf (fun _ hg => by cases hg)

theorem sequencerFault_bit {p : Nat} (hp : p < 9) (s : State) : bitOf ((sequencerFault p s).rd Reg.LNK_SEQ_FAILED) p = 1 := by
  rw [(linkOnly_sequencerFault p s).rd _ (by decide) (by decide), seqFaulted_rd p s (by decide), State.rd_inc_other _ (by decide)]
  exact bitOf_rd_setBit s hp

theorem sequencerFault_count (p : Nat) (s : State) : (sequencerFault p s).rd Reg.LNK_SEQFLTCNT = satAdd 32 (s.rd Reg.LNK_SEQFLTCNT) 1 := by
  rw [(linkOnly_sequencerFault p s).rd _ (by decide) (by decide), seqFaulted_rd p s (by decide), State.rd_inc_same, State.setBit, State.rd_wr_other _ _ (by decide)]
  rfl

theorem sequencerFault_raises (p : Nat) (s : State) : 124 ∈ (sequencerFault p s).flight := by
  refine (linkOnly_sequencerFault p s).flight ?_
  rw [seqFaulted, healthPut_flight]
  exact List.mem_append_left _ (List.mem_append_right _ List.mem_cons_self)

theorem seqFaulted_cores (p : Nat) (s : State) : (seqFaulted p s).cores = modAt s.cores (5 + p) (fun c => { c with halted := true }) :=
  healthPut_parts _ _ _ _ _ _ _ _ (partsOnly_refl [.mboxes, .regs, .health, .heldNotices, .flight] _) rfl .cores (by decide)

theorem slotMove_cores (i : Nat) (s : State) : (slotMove i s).cores = s.cores :=
  slotMove_parts i s s (partsOnly_refl [.msh, .mboxes, .firn, .regs, .heldNotices, .lnk, .evAt, .flight, .rfe] s) rfl .cores (by decide)

theorem slotAfter_cores (slot : Option Nat) (spare : Nat) (s : State) : (slotAfter slot spare s).cores = s.cores := by
  unfold slotAfter
  split
  · rfl
  · split
    · rfl
    · exact slotMove_cores _ _

theorem sequencerFault_halts {p : Nat} {s : State} (hp : 5 + p < s.cores.length) : (coreOf (sequencerFault p s) (7 + p)).halted = true := by
  rw [coreOf, sequencerFault_eq, slotAfter_cores, seqFaulted_cores, coreIx, if_neg (by omega), show 7 + p - 2 = 5 + p by omega, getD_modAt_same _ _ _ _ hp]

theorem slotField_width (i : Nat) : (slotField i).width = 4 := by
  unfold slotField
  split <;> rfl

theorem slotField_apart (i : Nat) : (slotField i).key ≠ Reg.LNK_SEQ_SPARE.key ∧ (slotField i).key < mshKey := by
  unfold slotField
  split <;> decide

/-- The slot of a failed sequencer is served by the spare, and no spare is left. -/
theorem sequencerFault_spare {p i : Nat} (h : slotOfSeq s p = some i) (hs : s.rd Reg.LNK_SEQ_SPARE ≠ 15) :
    (sequencerFault p s).rd (slotField i) = s.rd Reg.LNK_SEQ_SPARE % 16 ∧ (sequencerFault p s).rd Reg.LNK_SEQ_SPARE = 15 := by
  obtain ⟨hspare, hlnk⟩ := slotField_apart i
  have halarm := linkOnly_seqnosp (linkOnly_refl [] (spareTakes i (s.rd Reg.LNK_SEQ_SPARE) (seqFaulted p s)))
  have heq : sequencerFault p s = alarm Reg.AGE_ALARMS_SEQNOSP true (spareTakes i (s.rd Reg.LNK_SEQ_SPARE) (seqFaulted p s)) := by
    rw [sequencerFault_eq, h]
    exact if_pos hs
  rw [heq, halarm.rd _ hlnk (fun _ hg => by cases hg), halarm.rd _ (by decide) (fun _ hg => by cases hg), spareTakes, State.rd_wr_other _ _ hspare,
    State.rd_wr_same, State.rd_wr_same, slotField_width]
  exact ⟨rfl, rfl⟩

theorem sequencerFault_moves (p dt : Nat) (s : State) (hok : sequencerFaultOk p (s.pass dt) = true) (hp : 5 + p < s.cores.length) :
    completes (.sequencerFault p dt) s (fun t => bitOf (t.rd Reg.LNK_SEQ_FAILED) p = 1 ∧ t.rd Reg.LNK_SEQFLTCNT = satAdd 32 (s.rd Reg.LNK_SEQFLTCNT) 1 ∧ (coreOf t (7 + p)).halted = true ∧ 124 ∈ t.flight ∧
      (∀ i, slotOfSeq s p = some i → s.rd Reg.LNK_SEQ_SPARE ≠ 15 → t.rd (slotField i) = s.rd Reg.LNK_SEQ_SPARE % 16 ∧ t.rd Reg.LNK_SEQ_SPARE = 15)) := by
  have hlt : p < 9 := by
    simp only [sequencerFaultOk, Bool.and_eq_true, decide_eq_true_eq] at hok
    obtain ⟨hlt, -⟩ := hok
    exact hlt
  exact completes_of_onlyIf rfl hok ⟨sequencerFault_bit hlt _, sequencerFault_count p _, sequencerFault_halts hp, sequencerFault_raises p _,
    fun i hi hs => sequencerFault_spare (s := s.pass dt) hi hs⟩

end

end Sys2Proof.Machine

open Sys2Proof Sys2Proof.Machine

/-- Settles O27: each clause by its own lemma. -/
theorem linkConnections : Obligations.LinkConnections := by
  unfold Obligations.LinkConnections
  exact ⟨connectionEvent_phase_zero, connectionEvent_skips, connectionEvent_closes, establishTimeout_drops, supervisionTimeout_drops, sequencerFault_moves⟩
end

section
/-!
SUPPORT. The checks of a received frame: what LINK_FRAME_CHECK leaves of a frame that fails one, and of a beacon at a node that has not joined.
-/
namespace Sys2Proof.Machine

/-! ### The frame that is checked (R210) -/

/-- The oldest frame has left the receive ring. -/
def ringTaken (rest : List RxRec) (s : State) : State := { s with rxc := { s.rxc with ring := rest } }

section
variable {full : Bool} {r : RxRec} {rest : List RxRec} {s : State}

/-- The checks see the oldest frame of the ring, and the state without it. -/
theorem linkFrameCheck_completes {P : State → Prop} (dt : Nat) (hr : s.rxc.ring = r :: rest) (hp : P (linkFrame full r (ringTaken rest (s.pass dt)))) : completes (.linkFrameCheck full dt) s P := by
  have hr' : (s.pass dt).rxc.ring = r :: rest := hr
  refine completes_of_onlyIf rfl (by rw [linkFrameCheckOk, hr']; rfl) ?_
  rw [linkFrameCheck, hr']
  exact hp

theorem ringTaken_changes (rest : List RxRec) (s : State) : changesOnly [] [.rxc] s (ringTaken rest s) := changesOnly_rxc s _

theorem ringTaken_inc_changes (rest : List RxRec) (s : State) (f : Field) : changesOnly [f] [.rxc] s ((ringTaken rest s).inc f) :=
  ⟨fieldsOnly_wr (fieldsOnly_same (fieldsOnly_refl _ _) rfl rfl) _ List.mem_cons_self, wr_parts _ _ _ (partsOnly_mono (ringTaken_changes rest s).2 rfl) rfl⟩

/-- A frame that is dropped is counted, and nothing else changes. -/
theorem linkFrameCheck_drops {f : Field} (dt : Nat) (hr : s.rxc.ring = r :: rest) (hw : f.width = 32)
    (hf : linkFrame full r (ringTaken rest (s.pass dt)) = (ringTaken rest (s.pass dt)).inc f) :
    completes (.linkFrameCheck full dt) s (fun t => t.rd f = satAdd 32 (s.rd f) 1 ∧ t.rxc = { s.rxc with ring := rest } ∧ changesOnly [f] [.rxc] (s.pass dt) t) := by
  refine linkFrameCheck_completes dt hr ?_
  rw [hf]
  refine ⟨?_, rfl, ringTaken_inc_changes _ _ _⟩
  rw [State.rd_inc_same, hw]
  rfl

theorem linkFrame_unformed (h : frameFormOk s r.psdu = false) : linkFrame full r s = s.inc Reg.LNK_FMTCNT := by simp [linkFrame, h]

theorem linkFrame_foreign (hform : frameFormOk s r.psdu = true) (h : frameNetOk s r.psdu = false) : linkFrame full r s = s.inc Reg.LNK_NETCNT := by simp [linkFrame, hform, h]

/-- A beacon at a joined node, and every frame of a type above CONN, has its check value checked. -/
theorem linkFrame_unsealed (hform : frameFormOk s r.psdu = true) (hnet : frameNetOk s r.psdu = true) (htype : (isJoined s = true ∧ fcType r.psdu = 0) ∨ 3 ≤ fcType r.psdu)
    (hmic : micOk s none r.psdu = false) : linkFrame full r s = s.inc Reg.LNK_MICCNT := by
  rcases htype with ⟨hjoined, h0⟩ | h3
  · simp [linkFrame, hform, hnet, hmic, hjoined, h0]
  · have h1 : fcType r.psdu ≠ 1 := by omega
    have h2 : fcType r.psdu ≠ 2 := by omega
    have h0 : fcType r.psdu ≠ 0 := by omega
    simp [linkFrame, hform, hnet, hmic, h0, h1, h2]

/-! ### Floods (R257, R260) -/

theorem linkFrame_flood (hform : frameFormOk s r.psdu = true) (hnet : frameNetOk s r.psdu = true) (htype : fcType r.psdu = 1) : linkFrame full r s = floodReceive full none r.psdu s := by
  simp [linkFrame, hform, hnet, htype]

/-- The name of a flood in the seen cache. -/
def floodId (f : List Nat) : Nat := msgId (leAt f 5 2) (leAt f 7 3)

theorem floodReceive_seen {f : List Nat} {port : Option Nat} (hlen : f.length ≤ meshMax) (hseen : seenHas s (floodId f) = true) (hrelays : s.msh.relays = []) :
    floodReceive full port f s = s.inc Reg.MSH_DUPCNT := by
  rw [floodId] at hseen
  simp [floodReceive, Nat.not_lt.2 hlen, hseen, floodDup, hrelays]

theorem seenInsert_lnk (id : Nat) (s : State) : (seenInsert id s).lnk = s.lnk := seenInsert_parts id s s (partsOnly_refl [.msh, .regs, .evAt, .flight] s) rfl .lnk (by decide)

theorem micOk_of_lnk {s t : State} (h : t.lnk = s.lnk) (ecnt : Option Nat) (f : List Nat) : micOk t ecnt f = micOk s ecnt f := by
  simp only [micOk, keyOf, h]

theorem floodReceive_unsealed {f : List Nat} {port : Option Nat} (hlen : f.length ≤ meshMax) (hseen : seenHas s (floodId f) = false) (hmic : micOk s none f = false) :
    floodReceive full port f s = (seenRemove (floodId f) (seenInsert (floodId f) s)).inc Reg.LNK_MICCNT := by
  have hmic' : micOk (seenInsert (floodId f) s) none f = false := (micOk_of_lnk (seenInsert_lnk _ _) _ _).trans hmic
  rw [floodId] at hseen hmic' ⊢
  simp [floodReceive, Nat.not_lt.2 hlen, hseen, hmic']

theorem mshShow_msh (s : State) : (mshShow s).msh = s.msh := mshShow_parts s s (partsOnly_refl [.regs, .evAt, .flight] s) rfl .msh (by decide)

theorem seenHas_inc (s : State) (f : Field) (id : Nat) : seenHas (s.inc f) id = seenHas s id := rfl

theorem seenHas_seenRemove (id : Nat) (s : State) : seenHas (seenRemove id s) id = false := by
  rw [seenHas, seenRemove, mshShow_msh]
  simp

/-- A full seen cache loses its oldest entry, counted and raised when it is young (R259). -/
def seenRoomMade (s : State) : State :=
  match s.msh.seen with
  | old :: rest =>
    if s.msh.seen.length < seenSize s then s
    else
      let s' : State := { s with msh := { s.msh with seen := rest } }
      if s.elapsed < old.at_ + cycS (cfgN s 14 2) then (s'.inc Reg.MSH_SEENEVCNT).raiseLim 131 1 else s'
  | [] => s

theorem seenInsert_eq (id : Nat) (s : State) :
    seenInsert id s = mshShow { seenRoomMade s with msh := { (seenRoomMade s).msh with seen := (seenRoomMade s).msh.seen ++ [Seen.mk id s.elapsed] } } := rfl

theorem linkOnly_seenRoomMade (s : State) : LinkOnly [] s (seenRoomMade s) := by
  have hrefl := linkOnly_refl [] s
  unfold seenRoomMade
  split
  · next rest _ =>
    have hrest : LinkOnly [] s { s with msh := { s.msh with seen := rest } } := linkOnly_same hrefl rfl rfl
    exact linkOnly_ite hrefl (linkOnly_ite (linkOnly_raiseLim (linkOnly_inc hrest (.inr (by decide))) _ _) hrest)
  · exact hrefl

theorem linkOnly_seenInsert (id : Nat) (s : State) : LinkOnly [] s (seenInsert id s) := by
  rw [seenInsert_eq]
  exact linkOnly_mshShow (linkOnly_same (linkOnly_seenRoomMade s) rfl rfl)

theorem linkOnly_seenRemove (id : Nat) (s : State) : LinkOnly [] s (seenRemove id s) :=
  linkOnly_mshShow (linkOnly_same (linkOnly_refl _ _) rfl rfl)

/-! ### CONN frames, and beacons at a node that has not joined (R219, R224) -/

theorem linkFrame_unconnected (hform : frameFormOk s r.psdu = true) (hnet : frameNetOk s r.psdu = true) (htype : fcType r.psdu = 2) (hpeer : connPeer s (leAt r.psdu 4 2) = none) :
    linkFrame full r s = s.inc Reg.LNK_FMTCNT := by
  have hfor : connFor s r.psdu = none := by
    unfold connFor
    split
    · rw [List.find?_eq_none]
      intro c hc hk
      rw [Bool.and_eq_true] at hk
      exact List.find?_eq_none.1 hpeer c hc hk.1
    · rfl
  simp [linkFrame, hform, hnet, htype, linkTake, linkConn, hfor, hpeer]

/-- A beacon's sender as a candidate: its address and network, its configuration, and when it was heard. -/
def BeaconKept (r : RxRec) (s : State) : Prop :=
  ∃ b ∈ s.lnk.cands, b.addr = leAt r.psdu 4 2 ∧ b.net = leAt r.psdu 2 2 ∧ b.at_ = r.ts ∧ b.ncfg = leAt r.psdu 22 2

/-- A node that has not joined changes no parent over a beacon of another node: it keeps the sender. -/
theorem beaconReceive_keeps_sender (hjoin : isJoined s = false) (hsrc : leAt r.psdu 4 2 ≠ parentOf s) :
    BeaconKept r (beaconReceive r s) ∧ (beaconReceive r s).regs = s.regs := by
  simp only [beaconReceive, hjoin, Bool.and_false, Bool.false_and, Bool.false_eq_true, if_false, hsrc, false_and]
  exact ⟨⟨_, List.mem_append_right _ List.mem_cons_self, rfl, rfl, rfl, rfl⟩, rfl⟩

theorem recoverHeard_cands_regs (peer : Nat) (s : State) : (recoverHeard peer s).lnk.cands = s.lnk.cands ∧ (recoverHeard peer s).regs = s.regs := by
  unfold recoverHeard
  split
  · split <;> exact ⟨rfl, rfl⟩
  · exact ⟨rfl, rfl⟩

theorem linkFrame_beacon_unjoined (hform : frameFormOk s r.psdu = true) (hjoin : isJoined s = false) (htype : fcType r.psdu = 0) (hsrc : leAt r.psdu 4 2 ≠ parentOf s) :
    BeaconKept r (linkFrame full r s) := by
  have hnet : frameNetOk s r.psdu = true := by simp [frameNetOk, hjoin, htype]
  have hlink : linkFrame full r s = linkBeacon r s := by simp [linkFrame, hform, hnet, htype, hjoin, linkTake]
  obtain ⟨hkept, hregs⟩ := beaconReceive_keeps_sender hjoin hsrc
  obtain ⟨hcands, hregs'⟩ := recoverHeard_cands_regs (leAt r.psdu 4 2) (beaconReceive r s)
  have hjoin' : isJoined (recoverHeard (leAt r.psdu 4 2) (beaconReceive r s)) = false := by
    rw [← hjoin, isJoined, State.on, State.rd, hregs', hregs]
    rfl
  have heq : linkBeacon r s = recoverHeard (leAt r.psdu 4 2) (beaconReceive r s) := by simp [linkBeacon, hjoin']
  rw [hlink, heq, BeaconKept, hcands]
  exact hkept

/-! ### The command, check by check -/

theorem linkFrameCheck_form (full : Bool) (r : RxRec) (rest : List RxRec) (dt : Nat) (s : State) (hr : s.rxc.ring = r :: rest) (hform : frameFormOk s r.psdu = false) :
    completes (.linkFrameCheck full dt) s (fun t => t.rd Reg.LNK_FMTCNT = satAdd 32 (s.rd Reg.LNK_FMTCNT) 1 ∧ t.rxc = { s.rxc with ring := rest } ∧ changesOnly [Reg.LNK_FMTCNT] [.rxc] (s.pass dt) t) :=
  linkFrameCheck_drops dt hr rfl (linkFrame_unformed hform)

theorem linkFrameCheck_net (full : Bool) (r : RxRec) (rest : List RxRec) (dt : Nat) (s : State) (hr : s.rxc.ring = r :: rest) (hform : frameFormOk s r.psdu = true)
    (hnet : frameNetOk s r.psdu = false) :
    completes (.linkFrameCheck full dt) s (fun t => t.rd Reg.LNK_NETCNT = satAdd 32 (s.rd Reg.LNK_NETCNT) 1 ∧ t.rxc = { s.rxc with ring := rest } ∧ changesOnly [Reg.LNK_NETCNT] [.rxc] (s.pass dt) t) :=
  linkFrameCheck_drops dt hr rfl (linkFrame_foreign hform hnet)

theorem linkFrameCheck_mic (full : Bool) (r : RxRec) (rest : List RxRec) (dt : Nat) (s : State) (hr : s.rxc.ring = r :: rest) (hform : frameFormOk s r.psdu = true)
    (hnet : frameNetOk s r.psdu = true) (htype : (isJoined s = true ∧ fcType r.psdu = 0) ∨ 3 ≤ fcType r.psdu) (hmic : micOk s none r.psdu = false) :
    completes (.linkFrameCheck full dt) s (fun t => t.rd Reg.LNK_MICCNT = satAdd 32 (s.rd Reg.LNK_MICCNT) 1 ∧ t.rxc = { s.rxc with ring := rest } ∧ changesOnly [Reg.LNK_MICCNT] [.rxc] (s.pass dt) t) :=
  linkFrameCheck_drops dt hr rfl (linkFrame_unsealed hform hnet htype hmic)

theorem linkFrameCheck_duplicate (full : Bool) (r : RxRec) (rest : List RxRec) (dt : Nat) (s : State) (hr : s.rxc.ring = r :: rest) (hform : frameFormOk s r.psdu = true)
    (hnet : frameNetOk s r.psdu = true) (htype : fcType r.psdu = 1) (hlen : r.psdu.length ≤ meshMax) (hseen : seenHas s (floodId r.psdu) = true) (hrelays : s.msh.relays = []) :
    completes (.linkFrameCheck full dt) s (fun t => t.rd Reg.MSH_DUPCNT = satAdd 32 (s.rd Reg.MSH_DUPCNT) 1 ∧ changesOnly [Reg.MSH_DUPCNT] [.rxc] (s.pass dt) t) := by
  have hdup : linkFrame full r (ringTaken rest (s.pass dt)) = (ringTaken rest (s.pass dt)).inc Reg.MSH_DUPCNT :=
    (linkFrame_flood (s := ringTaken rest (s.pass dt)) hform hnet htype).trans (floodReceive_seen hlen hseen hrelays)
  obtain ⟨t, ht, hcnt, -, hchg⟩ := linkFrameCheck_drops dt hr rfl hdup
  exact ⟨t, ht, hcnt, hchg⟩

theorem linkFrameCheck_flood_mic (full : Bool) (r : RxRec) (rest : List RxRec) (dt : Nat) (s : State) (hr : s.rxc.ring = r :: rest) (hform : frameFormOk s r.psdu = true)
    (hnet : frameNetOk s r.psdu = true) (htype : fcType r.psdu = 1) (hlen : r.psdu.length ≤ meshMax) (hseen : seenHas s (floodId r.psdu) = false) (hmic : micOk s none r.psdu = false) :
    completes (.linkFrameCheck full dt) s (fun t => t.rd Reg.LNK_MICCNT = satAdd 32 (s.rd Reg.LNK_MICCNT) 1 ∧ seenHas t (floodId r.psdu) = false) := by
  refine linkFrameCheck_completes dt hr ?_
  rw [linkFrame_flood (s := ringTaken rest (s.pass dt)) hform hnet htype, floodReceive_unsealed (s := ringTaken rest (s.pass dt)) hlen hseen hmic]
  rw [seenHas_inc]
  refine ⟨?_, seenHas_seenRemove _ _⟩
  rw [State.rd_inc_same, (linkOnly_seenRemove _ _).rd _ (by decide) (by decide), (linkOnly_seenInsert _ _).rd _ (by decide) (by decide)]
  rfl

theorem linkFrameCheck_unconnected (full : Bool) (r : RxRec) (rest : List RxRec) (dt : Nat) (s : State) (hr : s.rxc.ring = r :: rest) (hform : frameFormOk s r.psdu = true)
    (hnet : frameNetOk s r.psdu = true) (htype : fcType r.psdu = 2) (hpeer : connPeer s (leAt r.psdu 4 2) = none) :
    completes (.linkFrameCheck full dt) s (fun t => t.rd Reg.LNK_FMTCNT = satAdd 32 (s.rd Reg.LNK_FMTCNT) 1 ∧ changesOnly [Reg.LNK_FMTCNT] [.rxc] (s.pass dt) t) := by
  obtain ⟨t, ht, hcnt, -, hchg⟩ := linkFrameCheck_drops (full := full) dt hr rfl (linkFrame_unconnected hform hnet htype hpeer)
  exact ⟨t, ht, hcnt, hchg⟩

theorem linkFrameCheck_candidate (full : Bool) (r : RxRec) (rest : List RxRec) (dt : Nat) (s : State) (hr : s.rxc.ring = r :: rest) (hform : frameFormOk s r.psdu = true) (hjoin : isJoined s = false)
    (htype : fcType r.psdu = 0) (hsrc : leAt r.psdu 4 2 ≠ parentOf s) : completes (.linkFrameCheck full dt) s (BeaconKept r) :=
  linkFrameCheck_completes dt hr (linkFrame_beacon_unjoined (s := ringTaken rest (s.pass dt)) hform hjoin htype hsrc)

end

end Sys2Proof.Machine

open Sys2Proof Sys2Proof.Machine

/-- Settles O29: each check by its own lemma, in the order of the checks. -/
theorem linkFrameChecks : Obligations.LinkFrameChecks := by
  unfold Obligations.LinkFrameChecks
  exact ⟨linkFrameCheck_form, linkFrameCheck_net, linkFrameCheck_mic, linkFrameCheck_duplicate, linkFrameCheck_flood_mic, linkFrameCheck_unconnected, linkFrameCheck_candidate⟩
end

section
/-!
SUPPORT. Two states of a Leaf part in which PWR_LOGIDX.NEXT stands far beyond its four bits, and a vote of Glety's abandons the entry of a domain (R636): the log entry of that index (R652) lies on a
register of another block.
-/
namespace Sys2Proof.Machine

/-- The Leaf part whose log entry lies on RFE_STAT, a child that has just lost its parent (R237). -/
def strayLogOnListen : State := { strayLogOnRadio with lnk := { Lnk.reset with recover := some ⟨0x0001, 1, 0, 0, false⟩ } }

/-- The child's listening in NARROW votes PD_RF On, which abandons the entry, and the time of its log entry overwrites the state's number. -/
theorem driftRecoveryListen_strayLogOnListen : (driftRecoveryListen (strayLogOnListen.pass 0)).rd Reg.RFE_STAT_STATE = 0 := by decide +kernel

/-- A sleeping Leaf part with a wake address, where the entry of PD_SUP waits for its handshake and the log entry lies on WUR_WAKECNT. -/
def strayLogOnWake : State :=
  { State.reset with
    regs := [((Reg.PWR_DOM_GREQ 6).key, 2), (Reg.PWR_LOGIDX_NEXT.key, (Reg.WUR_WAKECNT.addr - (Reg.PWR_LOG_TIME 0).addr) / 4), (Reg.BKP_SET0_PROFILE.key, 1), (Reg.WUR_STAT_EN.key, 1)]
    pwr := { Pwr.reset with hs := [Hs.mk 6 2 0 none none false] }
    lnk := { Lnk.reset with waddr := 0x12345678 } }

/-- A match votes PD_SUP On, which abandons the entry, and the time of its log entry overwrites the count. -/
theorem wakeMatch_strayLogOnWake : (wakeMatch 0x12345678 (strayLogOnWake.pass 0)).rd Reg.WUR_WAKECNT = 0 := by decide +kernel

end Sys2Proof.Machine

open Sys2Proof Sys2Proof.Machine

/-- Refutes O26: the clause of DRIFT_RECOVERY_LISTEN holds of every state, also where PWR_LOGIDX.NEXT exceeds its field and, in Leaf, the log entry of PD_RF's abandoned entry falls on RFE_STAT. -/
theorem not_linkBeaconsAndJoining : ¬ Obligations.LinkBeaconsAndJoining := by
  unfold Obligations.LinkBeaconsAndJoining
  intro h
  obtain ⟨-, -, -, -, -, -, -, -, -, -, -, -, hlisten⟩ := h
  obtain ⟨-, hstate⟩ := of_completes_onlyIf (hlisten 0 _ strayLogOnListen (by decide +kernel) rfl) rfl (by decide +kernel)
  exact absurd (driftRecoveryListen_strayLogOnListen.symm.trans (hstate (by decide +kernel) (by decide +kernel))) (by decide +kernel)

/-- Refutes O28: the clause of WAKE_MATCH holds of every state, also where PWR_LOGIDX.NEXT exceeds its field and, in Leaf, the log entry of PD_SUP's abandoned entry falls on WUR_WAKECNT. -/
theorem not_linkWaking : ¬ Obligations.LinkWaking := by
  unfold Obligations.LinkWaking
  intro h
  obtain ⟨-, -, -, -, hmatch, -⟩ := h
  obtain ⟨hcount, -⟩ := of_completes_onlyIf (hmatch 0x12345678 0 strayLogOnWake (by decide +kernel)) rfl (by decide +kernel)
  exact absurd (wakeMatch_strayLogOnWake.symm.trans hcount) (by decide +kernel)
end

section
/-!
SUPPORT. Mesh forwarding: what the registers that show its state leave alone, the egress ports, a frame that enters a queue or is selected, then its timers.
-/
namespace Sys2Proof.Machine

/-! ### The registers that show the forwarding layer (R287, R288, R290) -/

/-- The fields of MSH_PORTn_Q. -/
def portFields (p : Nat) : List Field := [Reg.MSH_PORT_Q_C0 p, Reg.MSH_PORT_Q_C1 p, Reg.MSH_PORT_Q_C2 p, Reg.MSH_PORT_Q_C3 p]

/-- The fields that show the pool, the queues, the seen cache and the routes. -/
def shownFields : List Field :=
  [Reg.MSH_STAT_POOLFREE, Reg.MSH_STAT_POOLLOW, Reg.MSH_SEEN_USED, Reg.MSH_ROUTES_USED] ++ portFields 0 ++ portFields 1 ++ portFields 2 ++ portFields 3

section
variable {fs : List Field} {z s : State}

theorem fieldsOnly_count (h : fieldsOnly fs z s) {f : Field} (d : Nat) (hf : f ∈ fs) : fieldsOnly fs z (s.count f d) := fieldsOnly_wr h _ hf

theorem fieldsOnly_egressMod (h : fieldsOnly fs z s) (p : Nat) (f : Egress → Egress) : fieldsOnly fs z (egressMod p f s) := fieldsOnly_same h rfl rfl

theorem fieldsOnly_raiseLim (h : fieldsOnly fs z s) (e n : Nat) : fieldsOnly fs z (s.raiseLim e n) := by
  have hparts : partsOnly [.evAt, .flight] s (s.raiseLim e n) := State.raiseLim_parts s e n s (partsOnly_refl _ s) rfl
  exact fieldsOnly_same h (hparts .regs (by decide)) (hparts .com (by decide))

theorem fieldsOnly_portShown (h : fieldsOnly fs z s) (p : Nat) (hp : portFields p ⊆ fs) : fieldsOnly fs z (portShown s p) := by
  simp only [portFields, List.cons_subset] at hp
  obtain ⟨h0, h1, h2, h3, -⟩ := hp
  exact fieldsOnly_wr (fieldsOnly_wr (fieldsOnly_wr (fieldsOnly_wr h _ h0) _ h1) _ h2) _ h3

theorem fieldsOnly_meshShown (h : fieldsOnly fs z s) (hs : shownFields ⊆ fs) : fieldsOnly fs z (meshShown s) := by
  simp only [shownFields, List.append_subset, List.cons_subset] at hs
  obtain ⟨⟨⟨⟨⟨hfree, hlow, hseen, hroutes, -⟩, h0⟩, h1⟩, h2⟩, h3⟩ := hs
  have hpool := fieldsOnly_wr (fieldsOnly_wr h (cellsFree s) hfree) (b2n (decide (cellsFree s < 512))) hlow
  have hports : fieldsOnly fs z (queuesShown s) := fieldsOnly_portShown (fieldsOnly_portShown (fieldsOnly_portShown (fieldsOnly_portShown hpool 0 h0) 1 h1) 2 h2) 3 h3
  exact fieldsOnly_wr (fieldsOnly_wr hports _ hseen) _ hroutes

theorem fieldsOnly_mshShow (h : fieldsOnly fs z s) (hs : shownFields ⊆ fs) : fieldsOnly fs z (mshShow s) := by
  rw [mshShow_eq]
  split
  · exact fieldsOnly_raiseLim (fieldsOnly_meshShown h hs) _ _
  · exact fieldsOnly_meshShown h hs

end

theorem mshShow_rd (s : State) {f : Field} (hf : ∀ g ∈ shownFields, f.key ≠ g.key) : (mshShow s).rd f = s.rd f :=
  (fieldsOnly_mshShow (fieldsOnly_refl shownFields s) (fun _ h => h) f hf).1

/-- EV129 touches no register. -/
theorem mshShow_rd_meshShown (s : State) (f : Field) : (mshShow s).rd f = (meshShown s).rd f := by
  rw [mshShow_eq]
  split
  · exact (fieldsOnly_raiseLim (fieldsOnly_refl [] (meshShown s)) 129 1 f (by simp)).1
  · rfl

theorem mshShow_seen_used (s : State) : (mshShow s).rd Reg.MSH_SEEN_USED = s.msh.seen.length % 2 ^ Reg.MSH_SEEN_USED.width := by
  rw [mshShow_rd_meshShown, meshShown, State.rd_wr_other _ _ (by decide), State.rd_wr_same]

theorem mshShow_routes_used (s : State) : (mshShow s).rd Reg.MSH_ROUTES_USED = s.msh.routes.length % 2 ^ Reg.MSH_ROUTES_USED.width := by
  rw [mshShow_rd_meshShown, meshShown, State.rd_wr_same]

/-! ### Expiry in the seen cache and the route table (R259, R271) -/

theorem lt_seen_length_of_seenExpiryOk {i : Nat} {s : State} (h : seenExpiryOk i s = true) : i < s.msh.seen.length := by
  by_contra hi
  simp [seenExpiryOk, List.getElem?_eq_none (Nat.le_of_not_lt hi)] at h

theorem lt_routes_length_of_routeExpiryOk {i : Nat} {s : State} (h : routeExpiryOk i s = true) : i < s.msh.routes.length := by
  by_contra hi
  simp [routeExpiryOk, List.getElem?_eq_none (Nat.le_of_not_lt hi)] at h

theorem seenExpiry_removes (i dt : Nat) (s : State) (hok : seenExpiryOk i (s.pass dt) = true) :
    completes (.seenExpiry i dt) s (fun t => t.msh = { s.msh with seen := s.msh.seen.eraseIdx i } ∧ t.rd Reg.MSH_SEEN_USED = (s.msh.seen.length - 1) % 2 ^ Reg.MSH_SEEN_USED.width) := by
  refine completes_of_onlyIf rfl hok ⟨mshShow_msh _, (mshShow_seen_used _).trans ?_⟩
  exact congrArg (· % _) (List.length_eraseIdx_of_lt (lt_seen_length_of_seenExpiryOk hok))

theorem routeExpiry_removes (i dt : Nat) (s : State) (hok : routeExpiryOk i (s.pass dt) = true) :
    completes (.routeExpiry i dt) s (fun t => t.msh = { s.msh with routes := s.msh.routes.eraseIdx i } ∧ t.rd Reg.MSH_ROUTES_USED = (s.msh.routes.length - 1) % 2 ^ Reg.MSH_ROUTES_USED.width) := by
  refine completes_of_onlyIf rfl hok ⟨mshShow_msh _, (mshShow_routes_used _).trans ?_⟩
  exact congrArg (· % _) (List.length_eraseIdx_of_lt (lt_routes_length_of_routeExpiryOk hok))

/-! ### Egress ports (R274) -/

/-- A change of the forwarding layer's own data touches no register. -/
theorem changesOnly_msh (s : State) (m : Msh) : changesOnly [] [.msh] s { s with msh := m } :=
  ⟨fieldsOnly_same (fieldsOnly_refl _ _) rfl rfl, by simp [partsOnly_refl]⟩

theorem egress_of_msh {s t : State} (h : t.msh = s.msh) (p : Nat) : egress t p = egress s p := by rw [egress, h, egress]

theorem mshShow_egress (s : State) (p : Nat) : egress (mshShow s) p = egress s p := egress_of_msh (mshShow_msh s) p

theorem egress_egressMod_same {p : Nat} {s : State} (f : Egress → Egress) (h : p < s.msh.ports.length) : egress (egressMod p f s) p = f (egress s p) := getD_modAt_same _ _ _ _ h

theorem egress_egressMod_other {p q : Nat} (f : Egress → Egress) (s : State) (h : p ≠ q) : egress (egressMod p f s) q = egress s q := getD_modAt_other _ _ _ h

/-- A port that does not exist holds no frame. -/
theorem egress_of_length_le {p : Nat} {s : State} (h : s.msh.ports.length ≤ p) : egress s p = Egress.reset := List.getD_eq_default _ _ h

/-! ### What is dropped: a copy at its deadline, and frames too old (R263, R279) -/

theorem relayDeadline_drops (p i dt : Nat) (s : State) (hok : relayDeadlineOk p i (s.pass dt) = true) (hp : p < s.msh.ports.length) :
    completes (.relayDeadline p i dt) s (fun t => t.rd Reg.MSH_DEADLINECNT = satAdd 32 (s.rd Reg.MSH_DEADLINECNT) 1 ∧ (egress t p).frames = (egress s p).frames.eraseIdx i) := by
  refine completes_of_onlyIf rfl hok ⟨?_, ?_⟩
  · rw [relayDeadline, mshShow_rd _ (by decide), State.rd_inc_same]
    rfl
  · rw [relayDeadline, mshShow_egress]
    exact congrArg Egress.frames (egress_egressMod_same (s := s.pass dt) _ hp)

/-- One port's scan: its frames that are too old are dropped and counted. -/
def portAged (t : State) (p : Nat) : State :=
  (egressMod p (fun e => { e with frames := e.frames.filter (fun f => !tooOld t f) }) t).count Reg.MSH_AGECNT ((egress t p).frames.filter (tooOld t)).length

theorem queueAgeScan_eq (s : State) : queueAgeScan s = mshShow ((List.range 4).foldl portAged { s with evAt := put 1000 s.elapsed s.evAt }) := rfl

theorem portAged_frames (t : State) (p : Nat) : (egress (portAged t p) p).frames = (egress t p).frames.filter (fun f => !tooOld t f) := by
  by_cases hp : p < t.msh.ports.length
  · exact congrArg Egress.frames (egress_egressMod_same (s := t) _ hp)
  · have hnone : (portAged t p).msh.ports.length ≤ p := (length_modAt _ _ _).trans_le (Nat.le_of_not_lt hp)
    rw [egress_of_length_le hnone, egress_of_length_le (Nat.le_of_not_lt hp)]
    rfl

theorem portAged_frames_other (t : State) {p q : Nat} (h : p ≠ q) : (egress (portAged t p) q).frames = (egress t q).frames :=
  congrArg Egress.frames (egress_egressMod_other _ t h)

/-- Of the ports scanned each keeps the frames that are not too old; the others keep theirs. -/
theorem foldl_portAged_frames (l : List Nat) (t : State) (q : Nat) :
    (egress (l.foldl portAged t) q).frames = if q ∈ l then (egress t q).frames.filter (fun f => !tooOld t f) else (egress t q).frames := by
  induction l generalizing t with
  | nil => rfl
  | cons p l ih =>
    rw [List.foldl_cons, ih, show tooOld (portAged t p) = tooOld t from rfl]
    by_cases hpq : p = q
    · subst hpq
      simp [portAged_frames]
    · simp [portAged_frames_other t hpq, Ne.symm hpq]

theorem queueAgeScan_drops (dt : Nat) (s : State) (hok : queueAgeScanOk (s.pass dt) = true) :
    completes (.queueAgeScan dt) s (fun t => ∀ p, p < 4 → (egress t p).frames = (egress s p).frames.filter (fun f => !tooOld (s.pass dt) f)) := by
  refine completes_of_onlyIf rfl hok (fun p hp => ?_)
  rw [queueAgeScan_eq, mshShow_egress, foldl_portAged_frames, if_pos (List.mem_range.2 hp)]
  rfl

/-! ### A frame enters a queue (R278) -/

section
variable (p : Nat) (hop : Hop) (cls src len : Nat) (data : List Nat) (deadline : Option Nat) (s : State)

/-- The frame as its queue holds it, with its admission and its tags. -/
def frameEntering : QFrame :=
  { hop := hop, queue := queueOf cls src, len := len, data := data, at_ := s.elapsed, deadline := deadline, tagS := (tagEnter s p (queueOf cls src) len).1,
    tagF := (tagEnter s p (queueOf cls src) len).2 }

/-- The frame is the last of its port. -/
def frameEntered : State :=
  egressMod p (fun e => { e with
    frames := e.frames ++ [frameEntering p hop cls src len data deadline s]
    lastF := modAt e.lastF (queueOf cls src) (fun _ => (tagEnter s p (queueOf cls src) len).2) }) s

/-- In a queue below QDEPTH, and with the cells beside those kept for class 0, a frame of any class enters. -/
theorem enqueue_of_room (hdepth : ((egress s p).frames.filter (fun f => f.queue == queueOf cls src)).length < cfgN s 18 1) (hcells : cdiv len 128 + 128 ≤ cellsFree s) :
    enqueue p hop cls src len data deadline s = mshShow (frameEntered p hop cls src len data deadline s) := by
  have hfree : ¬ cellsFree s < cdiv len 128 + (if cls = 0 then 0 else 128) := by split <;> omega
  exact (if_neg (Nat.not_le.2 hdepth)).trans (if_neg hfree)

/-- A frame that is offered to a queue is dropped as QFULL or POOL, or enters it. -/
theorem enqueue_cases : enqueue p hop cls src len data deadline s = s.inc Reg.MSH_QFULLCNT ∨ enqueue p hop cls src len data deadline s = (s.inc Reg.MSH_POOLCNT).raiseLim 129 1 ∨
    enqueue p hop cls src len data deadline s = mshShow (frameEntered p hop cls src len data deadline s) := by
  by_cases hdepth : cfgN s 18 1 ≤ ((egress s p).frames.filter (fun f => f.queue == queueOf cls src)).length
  · exact .inl (if_pos hdepth)
  · refine .inr ((em (cellsFree s < cdiv len 128 + (if cls = 0 then 0 else 128))).imp (fun hcells => ?_) (fun hcells => ?_))
    · exact (if_neg hdepth).trans (if_pos hcells)
    · exact (if_neg hdepth).trans (if_neg hcells)

/-- Of the forwarding layer's own data, an offer changes nothing or enters the frame. -/
theorem enqueue_msh : (enqueue p hop cls src len data deadline s).msh = s.msh ∨ (enqueue p hop cls src len data deadline s).msh = (frameEntered p hop cls src len data deadline s).msh := by
  rcases enqueue_cases p hop cls src len data deadline s with h | h | h <;> rw [h]
  · exact .inl rfl
  · exact .inl (State.raiseLim_parts _ 129 1 _ (partsOnly_refl [.evAt, .flight] _) rfl .msh (by decide))
  · exact .inr (mshShow_msh _)

/-- The fields that an offer writes. -/
def enqueueFields : List Field := Reg.MSH_QFULLCNT :: Reg.MSH_POOLCNT :: shownFields

theorem enqueue_fields : fieldsOnly enqueueFields s (enqueue p hop cls src len data deadline s) := by
  have hrefl := fieldsOnly_refl enqueueFields s
  rcases enqueue_cases p hop cls src len data deadline s with h | h | h <;> rw [h]
  · exact fieldsOnly_inc hrefl (by simp [enqueueFields])
  · exact fieldsOnly_raiseLim (fieldsOnly_inc hrefl (by simp [enqueueFields])) _ _
  · exact fieldsOnly_mshShow (fieldsOnly_egressMod hrefl _ _) (by simp [enqueueFields])

end

/-- A sum over a list grows by no more than one element does. -/
theorem sum_map_modAt_le {α : Type} (l : List α) (i : Nat) (f : α → α) (g : α → Nat) (d : Nat) (h : ∀ a, g (f a) ≤ g a + d) : ((modAt l i f).map g).sum ≤ (l.map g).sum + d := by
  induction l generalizing i with
  | nil => simp [modAt]
  | cons a as ih =>
    cases i with
    | zero =>
      have hhead := h a
      simp only [modAt, List.map_cons, List.sum_cons]
      omega
    | succ i =>
      have htail := ih i
      simp only [modAt, List.map_cons, List.sum_cons]
      omega

theorem cellsUsed_of_msh {s t : State} (h : t.msh = s.msh) : cellsUsed t = cellsUsed s := by rw [cellsUsed, h, cellsUsed]

/-- What an offer of a frame of `len` octets to port `p` leaves alone; it takes the frame's cells from the pool at most. -/
structure Offered (p len : Nat) (s t : State) : Prop where
  relays : t.msh.relays = s.msh.relays
  ports : t.msh.ports.length = s.msh.ports.length
  egress : ∀ q, p ≠ q → egress t q = egress s q
  floodBand : ∀ b, floodBand t b = floodBand s b
  cells : cellsFree s ≤ cellsFree t + cdiv len 128
  parts : partsOnly [.msh, .regs, .evAt, .flight] s t

theorem offered_refl (p len : Nat) (s : State) : Offered p len s s := ⟨rfl, rfl, fun _ _ => rfl, fun _ => rfl, Nat.le_add_right _ _, partsOnly_refl _ s⟩

theorem cellsUsed_frameEntered_le (p : Nat) (hop : Hop) (cls src len : Nat) (data : List Nat) (deadline : Option Nat) (s : State) :
    cellsUsed (frameEntered p hop cls src len data deadline s) ≤ cellsUsed s + cdiv len 128 :=
  sum_map_modAt_le _ _ _ _ _ (fun e => by simp [frameCells, frameEntering])

theorem enqueue_offered (p : Nat) (hop : Hop) (cls src len : Nat) (data : List Nat) (deadline : Option Nat) (s : State) : Offered p len s (enqueue p hop cls src len data deadline s) := by
  have hfields := enqueue_fields p hop cls src len data deadline s
  have hparts := enqueue_parts p hop cls src len data deadline s s (partsOnly_refl [.msh, .regs, .evAt, .flight] s) rfl
  have hband : ∀ b, floodBand (enqueue p hop cls src len data deadline s) b = floodBand s b := fun b => by
    rw [floodBand, (hfields Reg.MSH_STAT_FLOODBAND (by decide)).1, floodBand]
  have hentered := cellsUsed_frameEntered_le p hop cls src len data deadline s
  rcases enqueue_msh p hop cls src len data deadline s with h | h
  · exact ⟨congrArg Msh.relays h, congrArg (·.ports.length) h, fun q _ => egress_of_msh h q, hband, by rw [cellsFree, cellsFree, cellsUsed_of_msh h]; omega, hparts⟩
  · exact ⟨by rw [h]; rfl, (congrArg (·.ports.length) h).trans (length_modAt _ _ _), fun q hq => (egress_of_msh h q).trans (egress_egressMod_other _ s hq), hband,
      by rw [cellsFree, cellsFree, cellsUsed_of_msh h]; omega, hparts⟩

/-! ### The end of a relay's back-off (R263) -/

/-- The relay has left its table. -/
def relayTaken (i : Nat) (s : State) : State := { s with msh := { s.msh with relays := s.msh.relays.eraseIdx i } }

/-- The copy of a relay for one radio band, where floods go by that band. -/
def relayCopied (r : Relay) (b : Nat) (t : State) : State :=
  if floodBand t b then enqueue b .bcast (bitsOf (leAt r.psdu 4 1) 6 5) (leAt r.psdu 5 2) r.psdu.length (ttlDown r.psdu) (some (r.due + cycMs (cfgN t 12 2))) t else t

theorem relayBackoff_suppressed {i : Nat} {r : Relay} {s : State} (hr : s.msh.relays[i]? = some r) (hd : cfgN s 10 1 ≤ r.dups) :
    relayBackoff i s = (relayTaken i s).inc Reg.MSH_SUPPCNT := by
  simp only [relayBackoff, hr, if_pos hd]
  rfl

theorem relayBackoff_copied {i : Nat} {r : Relay} {s : State} (hr : s.msh.relays[i]? = some r) (hd : r.dups < cfgN s 10 1) :
    relayBackoff i s = relayCopied r 1 (relayCopied r 0 (relayTaken i s)) := by
  simp only [relayBackoff, hr, if_neg (Nat.not_le.2 hd)]
  rfl

theorem relayBackoff_suppresses (i dt : Nat) (r : Relay) (s : State) (hok : relayBackoffOk i (s.pass dt) = true) (hr : s.msh.relays[i]? = some r) (hd : cfgN s 10 1 ≤ r.dups) :
    completes (.relayBackoff i dt) s (fun t => t.rd Reg.MSH_SUPPCNT = satAdd 32 (s.rd Reg.MSH_SUPPCNT) 1 ∧ t.msh = { s.msh with relays := s.msh.relays.eraseIdx i } ∧
      changesOnly [Reg.MSH_SUPPCNT] [.msh] (s.pass dt) t) := by
  refine completes_of_onlyIf rfl hok ?_
  rw [relayBackoff_suppressed (s := s.pass dt) hr hd]
  have hparts := (changesOnly_msh (s.pass dt) { s.msh with relays := s.msh.relays.eraseIdx i }).2
  exact ⟨State.rd_inc_same _ _, rfl, fieldsOnly_inc (fieldsOnly_same (fieldsOnly_refl _ _) rfl rfl) List.mem_cons_self, State.inc_parts _ _ _ hparts rfl⟩

theorem relayCopied_offered (r : Relay) (b : Nat) (s : State) : Offered b r.psdu.length s (relayCopied r b s) := by
  unfold relayCopied
  split
  · exact enqueue_offered _ _ _ _ _ _ _ _
  · exact offered_refl _ _ s

/-- A frame is the copy of a relay, admitted at `now` under RDEAD. -/
def isRelayCopy (r : Relay) (now rdead : Nat) (f : QFrame) : Prop := f.hop = .bcast ∧ f.data = ttlDown r.psdu ∧ f.at_ = now ∧ f.deadline = some (r.due + cycMs rdead)

/-- With room in its queue and in the pool, the copy is in its port. -/
theorem relayCopied_queued {r : Relay} {b : Nat} {s : State} (hb : b < s.msh.ports.length) (hflood : floodBand s b = true) (hcells : cdiv r.psdu.length 128 + 128 ≤ cellsFree s)
    (hdepth : ∀ q, ((egress s b).frames.filter (fun f => f.queue == q)).length < cfgN s 18 1) : ∃ f ∈ (egress (relayCopied r b s) b).frames, isRelayCopy r s.elapsed (cfgN s 12 2) f := by
  rw [relayCopied, if_pos hflood, enqueue_of_room _ _ _ _ _ _ _ _ (hdepth _) hcells, mshShow_egress, frameEntered, egress_egressMod_same _ hb]
  exact ⟨_, List.mem_append_right _ List.mem_cons_self, rfl, rfl, rfl, rfl⟩

/-- With room for the copies of both bands, each band that carries floods has its copy. -/
theorem relayCopied_both_queued {r : Relay} {b : Nat} {s : State} (hports : s.msh.ports.length = 4) (hb : b < 2) (hflood : floodBand s b = true)
    (hcells : 2 * cdiv r.psdu.length 128 + 128 ≤ cellsFree s) (hdepth : ∀ p q, p < 2 → ((egress s p).frames.filter (fun f => f.queue == q)).length < cfgN s 18 1) :
    ∃ f ∈ (egress (relayCopied r 1 (relayCopied r 0 s)) b).frames, isRelayCopy r s.elapsed (cfgN s 12 2) f := by
  have hfirst := relayCopied_offered r 0 s
  have hsecond := relayCopied_offered r 1 (relayCopied r 0 s)
  obtain rfl | rfl : b = 0 ∨ b = 1 := by omega
  · rw [hsecond.egress 0 (by decide)]
    exact relayCopied_queued (by omega) hflood (by omega) (fun q => hdepth 0 q hb)
  · have hroom := hfirst.cells
    have hcfg : ∀ off n, cfgN (relayCopied r 0 s) off n = cfgN s off n := fun off n => congrArg (leAt · off n) (hfirst.parts .netCfg (by decide))
    rw [← hcfg, ← show (relayCopied r 0 s).elapsed = s.elapsed from hfirst.parts .elapsed (by decide)]
    refine relayCopied_queued (by rw [hfirst.ports]; omega) ((hfirst.floodBand 1).trans hflood) (by omega) (fun q => ?_)
    rw [hfirst.egress 1 (by decide), hcfg]
    exact hdepth 1 q hb

theorem relayBackoff_queues (i dt b : Nat) (r : Relay) (s : State) (hok : relayBackoffOk i (s.pass dt) = true) (hr : s.msh.relays[i]? = some r) (hd : r.dups < cfgN s 10 1)
    (hports : s.msh.ports.length = 4) (hb : b < 2) (hflood : floodBand s b = true) (hcells : 2 * cdiv r.psdu.length 128 + 128 ≤ cellsFree s)
    (hdepth : ∀ p q, p < 2 → ((egress s p).frames.filter (fun f => f.queue == q)).length < cfgN s 18 1) :
    completes (.relayBackoff i dt) s (fun t => t.msh.relays = s.msh.relays.eraseIdx i ∧ ∃ f ∈ (egress t b).frames, f.hop = .bcast ∧ f.data = ttlDown r.psdu ∧ f.at_ = s.elapsed + dt ∧
      f.deadline = some (r.due + cycMs (cfgN s 12 2))) := by
  refine completes_of_onlyIf rfl hok ?_
  rw [relayBackoff_copied (s := s.pass dt) hr hd]
  exact ⟨(relayCopied_offered _ _ _).relays.trans (relayCopied_offered _ _ _).relays, relayCopied_both_queued (s := relayTaken i (s.pass dt)) hports hb hflood hcells hdepth⟩

/-! ### The selection of a frame (R275, R281) -/

theorem selectFrame_parts_same (p : Nat) (hop : Hop) (s : State) : partsOnly [.msh, .regs, .evAt, .flight] s (selectFrame p hop s).2 :=
  selectFrame_parts p hop s s (partsOnly_refl _ s) rfl

/-- The fields that a selection on a port writes. -/
def selectFields (p : Nat) : List Field := Reg.MSH_AGECNT :: Reg.MSH_DEADLINECNT :: Reg.MSH_TXCNT p :: Reg.MSH_TXOCT p :: shownFields

theorem selectFrame_fields (p : Nat) (hop : Hop) (s : State) : fieldsOnly (selectFields p) s (selectFrame p hop s).2 := by
  have hstale : fieldsOnly (selectFields p) s (dropStale p s) :=
    fieldsOnly_count (fieldsOnly_count (fieldsOnly_egressMod (fieldsOnly_refl _ s) _ _) _ (by simp [selectFields])) _ (by simp [selectFields])
  have hshown : shownFields ⊆ selectFields p := fun _ hf => by simp [selectFields, hf]
  simp only [selectFrame]
  split
  · exact fieldsOnly_mshShow hstale hshown
  · refine fieldsOnly_mshShow (fieldsOnly_count (fieldsOnly_inc ?_ ?_) _ ?_) hshown
    · exact fieldsOnly_egressMod (fieldsOnly_egressMod (fieldsOnly_egressMod hstale _ _) _ _) _ _
    · simp [selectFields]
    · simp [selectFields]

/-- With no pair configured the node is not mute (R674). -/
theorem pairMute_of_role_none {s : State} (hrole : s.rd Reg.MIR_STAT_ROLE = 0) (hswitch : s.mir.switch = none) (t e : Nat) : pairMute s t e = false := by simp [pairMute, hrole, hswitch]

theorem floodSend_plans {band t : Nat} {psdu : List Nat} {s : State} (hrole : s.rd Reg.MIR_STAT_ROLE = 0) (hswitch : s.mir.switch = none) :
    ∃ q, (floodSend band t psdu s).rfe.planned_ = s.rfe.planned_ ++ [q] ∧ q.t = t ∧ q.psdu = psdu := by
  simp only [floodSend, planFrame, pairMute_of_role_none (s := s.drawn 1) hrole hswitch]
  exact ⟨_, rfl, rfl, rfl⟩

theorem frameSelect_radio {p t : Nat} {gap : Bool} {f : QFrame} {s : State} (hp : p < 2) (hf : (selectFrame p .bcast s).1 = some f) :
    frameSelect p t gap s =
      if gap then floodSend p t f.data (selectFrame p .bcast s).2 else ((selectFrame p .bcast s).2.inc Reg.LNK_TXCONFCNT).inc Reg.MSH_DEADLINECNT := by
  rw [frameSelect, if_pos hp]
  generalize selectFrame p .bcast s = x at hf
  obtain ⟨o, u⟩ := x
  obtain rfl : o = some f := hf
  rfl

theorem exists_frame_of_frameSelectOk {p t : Nat} {s : State} (hp : p < 2) (h : frameSelectOk p t s = true) : ∃ f, (selectFrame p .bcast s).1 = some f := by
  rw [frameSelectOk, if_pos hp, Bool.and_eq_true] at h
  exact Option.isSome_iff_exists.1 h.2

theorem frameSelect_plans (p t0 dt : Nat) (f : QFrame) (s : State) (hp : p < 2) (hok : frameSelectOk p t0 (s.pass dt) = true) (hf : (selectFrame p .bcast (s.pass dt)).1 = some f)
    (hrole : s.rd Reg.MIR_STAT_ROLE = 0) (hswitch : s.mir.switch = none) :
    completes (.frameSelect p t0 true dt) s (fun t => ∃ q, t.rfe.planned_ = s.rfe.planned_ ++ [q] ∧ q.t = t0 ∧ q.psdu = f.data) := by
  have hparts := selectFrame_parts_same p .bcast (s.pass dt)
  have hkeys : ∀ p < 2, ∀ g ∈ selectFields p, Reg.MIR_STAT_ROLE.key ≠ g.key := by decide
  have hrole' : (selectFrame p .bcast (s.pass dt)).2.rd Reg.MIR_STAT_ROLE = 0 := (selectFrame_fields p .bcast (s.pass dt) _ (hkeys p hp)).1.trans hrole
  have hswitch' : (selectFrame p .bcast (s.pass dt)).2.mir.switch = none := (congrArg Mir.switch (hparts .mir (by decide))).trans hswitch
  have hrfe : (selectFrame p .bcast (s.pass dt)).2.rfe = s.rfe := hparts .rfe (by decide)
  refine completes_of_onlyIf rfl hok ?_
  rw [frameSelect_radio hp hf, if_pos rfl, ← hrfe]
  exact floodSend_plans hrole' hswitch'

theorem frameSelect_conflicts (p t0 dt : Nat) (s : State) (hp : p < 2) (hok : frameSelectOk p t0 (s.pass dt) = true) :
    completes (.frameSelect p t0 false dt) s (fun t => t.rd Reg.LNK_TXCONFCNT = satAdd 32 (s.rd Reg.LNK_TXCONFCNT) 1 ∧ t.rfe = s.rfe) := by
  obtain ⟨f, hf⟩ := exists_frame_of_frameSelectOk hp hok
  refine completes_of_onlyIf rfl hok ?_
  rw [frameSelect_radio hp hf, if_neg (by decide)]
  refine ⟨?_, selectFrame_parts_same p .bcast (s.pass dt) .rfe (by decide)⟩
  have hcount := (linkOnly_selectFrame (linkOnly_refl [] (s.pass dt)) p .bcast).rd Reg.LNK_TXCONFCNT (by decide) (by simp)
  rw [State.rd_inc_other _ (by decide), State.rd_inc_same, hcount]
  rfl

/-! ### A selected frame on the wire (R275) -/

theorem wport_wptMod_same {p : Nat} {s : State} (f : Wpt → Wpt) (h : p < s.wpt.length) : wport (wptMod p f s) p = f (wport s p) := getD_modAt_same _ _ _ _ h

/-- A MAC that is handed a frame is not idle. -/
theorem wptSend_busy {p : Nat} {s : State} (f : List Nat) (h : p < s.wpt.length) : (wport (wptSend p f s) p).tx.isSome = true := by
  rw [wptSend, wport_wptMod_same _ h]
  split
  · rfl
  · next hbusy => simpa [Option.isSome_iff_ne_none] using hbusy

theorem wireOut_busy {p : Nat} {s : State} (f : QFrame) (flood : Bool) (h : p < s.wpt.length) : (wport (wireOut p f flood s) p).tx.isSome = true := by
  unfold wireOut
  split
  · exact wptSend_busy _ h
  · exact wptSend_busy _ (by rw [wptMod, length_modAt]; exact h)

/-- A wired port takes a frame of its own, else one that waits for the upstream neighbour on a radio port: whichever it is, it goes out after selections alone. -/
theorem frameSelect_wired {p t0 : Nat} {gap : Bool} {s : State} (hp : ¬ p < 2)
    (h : (selectFrame p .wired s).1.isSome = true ∨ (selectFrame 0 .up (selectFrame p .wired s).2).1.isSome = true ∨
      (selectFrame 1 .up (selectFrame 0 .up (selectFrame p .wired s).2).2).1.isSome = true) :
    ∃ f flood u, partsOnly [.msh, .regs, .evAt, .flight] s u ∧ frameSelect p t0 gap s = wireOut (p - 2) f flood u := by
  have hown := selectFrame_parts_same p .wired s
  rw [frameSelect, if_neg hp]
  generalize selectFrame p .wired s = x at h hown
  obtain ⟨_ | f, u⟩ := x
  · have hup := partsOnly_trans hown (selectFrame_parts_same 0 .up u)
    dsimp only at h hup ⊢
    generalize selectFrame 0 .up u = y at h hup
    obtain ⟨_ | f, v⟩ := y
    · have hup' := partsOnly_trans hup (selectFrame_parts_same 1 .up v)
      dsimp only at h hup' ⊢
      generalize selectFrame 1 .up v = w at h hup'
      obtain ⟨_ | f, w⟩ := w
      · simp at h
      · exact ⟨f, _, w, hup', rfl⟩
    · exact ⟨f, _, v, hup, rfl⟩
  · exact ⟨f, _, u, hown, rfl⟩

theorem frameSelect_sends (p t0 dt : Nat) (gap : Bool) (s u : State) (hp : p = 2 ∨ p = 3) (hok : frameSelectOk p t0 (s.pass dt) = true) (hwpt : s.wpt.length = 2)
    (hu : u = (selectFrame p .wired (s.pass dt)).2)
    (hsome : (selectFrame p .wired (s.pass dt)).1.isSome = true ∨ (selectFrame 0 .up u).1.isSome = true ∨ (selectFrame 1 .up (selectFrame 0 .up u).2).1.isSome = true) :
    completes (.frameSelect p t0 gap dt) s (fun t => (wport t (p - 2)).tx.isSome = true ∧ t.rfe = s.rfe) := by
  subst hu
  obtain ⟨f, flood, v, hparts, heq⟩ := frameSelect_wired (t0 := t0) (gap := gap) (by omega) hsome
  refine completes_of_onlyIf rfl hok ?_
  rw [heq]
  have hlen : v.wpt.length = 2 := (congrArg List.length (hparts .wpt (by decide))).trans hwpt
  have hrfe : v.rfe = s.rfe := hparts .rfe (by decide)
  have hsent : partsOnly [.wpt] v (wireOut (p - 2) f flood v) := wireOut_parts _ _ _ _ _ (partsOnly_refl _ v) rfl
  exact ⟨wireOut_busy f flood (by omega), (hsent .rfe (by decide)).trans hrfe⟩

end Sys2Proof.Machine

open Sys2Proof Sys2Proof.Machine

/-- Settles O30: each timer and each selection by its own lemma. -/
theorem meshTimers : Obligations.MeshTimers := by
  unfold Obligations.MeshTimers
  exact ⟨relayBackoff_suppresses, relayBackoff_queues, relayDeadline_drops, seenExpiry_removes, routeExpiry_removes, queueAgeScan_drops,
    frameSelect_plans, frameSelect_conflicts, frameSelect_sends⟩
end

section
/-!
SUPPORT. Wired frames: what a timing sample and the choice of the time parent leave of the wired ports' registers, what a port holds once its MAC has been handed a frame, then the frames on
the wire and the peer-delay exchange.
-/
namespace Sys2Proof.Machine

/-! ### What a timing sample leaves of the registers past FIRN's (R63 to R70) -/

/-- The key past FIRN's registers. -/
def firnEnd : Nat := 32 * 0x40030000

/-- The field lies past FIRN's registers and outside the mailboxes'. -/
def pastFirn (f : Field) : Prop := firnEnd ≤ f.key ∧ offMbx f

/-- A change of FIRN's own data leaves what a field reads. -/
theorem State.rd_withFirn (s : State) (x : Firn) (f : Field) : ({ s with firn := x } : State).rd f = s.rd f := rfl

theorem firnSlew_rd (d : Int) (span : Nat) (s : State) (f : Field) : (firnSlew d span s).rd f = s.rd f := State.rd_withFirn _ _ _

section
variable {f : Field} (hf : pastFirn f)
include hf

theorem rd_wr_firn (s : State) {g : Field} (v : Nat) (hg : g.key < firnEnd) : (s.wr g v).rd f = s.rd f :=
  State.rd_wr_other _ _ (Nat.ne_of_gt (Nat.lt_of_lt_of_le hg hf.1))

theorem firnStage_rd_past (st : Stage) (s : State) : (firnStage st s).rd f = s.rd f :=
  firnStage_rd st s f hf.2 (Nat.ne_of_gt (Nat.lt_of_lt_of_le (by decide) hf.1))

theorem cmpMarkStepped_rd_past (s : State) : (cmpMarkStepped s).rd f = s.rd f := by
  refine foldl_mem_rd _ _ f (fun t n hn => ?_) s
  have hn : n < 32 := List.mem_range.1 hn
  split
  · exact rd_wr_firn hf t 1 (by simp only [Field.key, Reg.FIRN_CMP_STAT_STEPPED, firnEnd]; omega)
  · rfl

theorem cmpLateAll_rd_past (s : State) : (cmpLateAll s).rd f = s.rd f := by
  refine foldl_mem_rd _ _ f (fun t n hn => ?_) s
  have hn : n < 32 := List.mem_range.1 hn
  have hlate : ∀ g ∈ lateMatchFields n, g.key < firnEnd := by
    simp only [lateMatchFields, List.forall_mem_cons, List.not_mem_nil, false_implies, implies_true, and_true, Field.key, Reg.FIRN_LATECNT, Reg.FIRN_CMP_STAT_LATE, Reg.FIRN_CMP_STAT_LATEBY,
      Reg.FIRN_CMP_STAT_ARMED, Reg.FIRN_CMP_STAT_INFLIGHT, firnEnd]
    omega
  split
  · exact (cmpLateMatch_fields n t f fun g hg => Nat.ne_of_gt (Nat.lt_of_lt_of_le (hlate g hg) hf.1)).1
  · rfl

theorem firnStep_rd_past (d : Int) (s : State) : (firnStep d s).rd f = s.rd f := by
  have hflags : (((s.set1 Reg.FIRN_STAT_STEPPED).inc Reg.FIRN_STEPCNT).wr Reg.FIRN_LASTSTEP (lastStepCode d)).rd f = s.rd f :=
    (rd_wr_firn hf _ _ (by decide)).trans ((rd_wr_firn hf _ _ (by decide)).trans (rd_wr_firn hf _ _ (by decide)))
  have hnoticed (x : Firn) (u : State) (hu : u.rd f = s.rd f) : (timeStateNotice (({ u with firn := x } : State).raise 96)).rd f = s.rd f := by
    rw [timeStateNotice_rd _ _ hf.2, State.rd_raise, State.rd_withFirn, hu]
  have hstepped := (cmpMarkStepped_rd_past hf _).trans hflags
  unfold firnStep
  dsimp only
  split
  · exact hnoticed _ _ hstepped
  · exact (cmpLateAll_rd_past hf _).trans (hnoticed _ _ hstepped)

theorem firnRate_rd_past (inc : Int) (s : State) : (firnRate inc s).rd f = s.rd f :=
  (rd_wr_firn hf _ _ (by decide)).trans (State.rd_withFirn _ _ _)

theorem loopRun_rd_past (e : Int) (s : State) : (loopRun e s).rd f = s.rd f := by
  simp only [loopRun, apply_ite (State.rd · f), firnSlew_rd, firnRate_rd_past hf, ite_self]

/-- An accepted sample changes the stage, local time or the rate, and shows its bound. -/
theorem sampleAccept_rd_past (e : Int) (s : State) : (sampleAccept e s).rd f = s.rd f := by
  have hbound (u : State) (v : Nat) : (u.wr Reg.FIRN_QUAL_ERRBND v).rd f = u.rd f := rd_wr_firn hf _ _ (by decide)
  have hhops (u : State) (v : Nat) : (u.wr Reg.FIRN_QUAL_HOPS v).rd f = u.rd f := rd_wr_firn hf _ _ (by decide)
  simp only [sampleAccept, apply_ite (State.rd · f), firnStage_rd_past hf, firnStep_rd_past hf, loopRun_rd_past hf, State.rd_withFirn, State.rd_drawn, hbound, hhops, ite_self]

theorem sampleReject_rd_past (e : Int) (s : State) : (sampleReject e s).rd f = s.rd f := by
  have hcount : (s.inc Reg.FIRN_REJCNT).rd f = s.rd f := rd_wr_firn hf _ _ (by decide)
  have hacquire (u : State) (hu : u.rd f = s.rd f) : (firnStage .acquiring u).rd f = s.rd f := (firnStage_rd_past hf _ _).trans hu
  unfold sampleReject
  dsimp only
  split
  · split
    · exact (firnStep_rd_past hf _ _).trans (hacquire _ hcount)
    · exact hacquire _ hcount
  · exact hcount

/-- A timing sample writes FIRN's registers and the mailboxes' alone. -/
theorem firnSample_rd_past (e : Int) (s : State) : (firnSample e s).rd f = s.rd f := by
  simp only [firnSample, apply_ite (State.rd · f), sampleReject_rd_past hf, sampleAccept_rd_past hf, State.rd_withFirn, State.rd_drawn, ite_self]

end

/-! ### A port's own data (R275, R304, R312) -/

/-- A port whose MAC has been handed a frame. -/
def Wpt.handed (f : List Nat) (w : Wpt) : Wpt := if w.tx.isNone then { w with tx := some f } else { w with txq := w.txq ++ [f] }

/-- Of a port's own data a frame handed to its MAC changes the MAC's frames alone, and the MAC is busy. -/
theorem Wpt.handed_eq (f : List Nat) (w : Wpt) : ∃ tx txq, tx.isSome = true ∧ w.handed f = { w with tx := tx, txq := txq } := by
  by_cases h : w.tx.isNone = true
  · exact ⟨_, _, rfl, if_pos h⟩
  · exact ⟨w.tx, _, by simpa [Option.isSome_iff_ne_none] using h, if_neg h⟩

/-- A port of whose waiting messages one is taken. -/
def Wpt.taken (m : PtpIn) (w : Wpt) : Wpt := { w with ptp := w.ptp.erase m }

/-- An idle MAC sends the first of two frames, and keeps the second. -/
theorem Wpt.handed_handed_of_idle {w : Wpt} (f g : List Nat) (h : w.tx = none) : (w.handed f).handed g = { w with tx := some f, txq := w.txq ++ [g] } := by
  simp [Wpt.handed, h]

section
variable {p : Nat} {s : State}

theorem wport_wptSend (f : List Nat) (h : p < s.wpt.length) : wport (wptSend p f s) p = (wport s p).handed f := wport_wptMod_same _ h

/-- A port changes and its MAC is handed a frame. -/
theorem wport_wptSend_wptMod (f : List Nat) (g : Wpt → Wpt) (h : p < s.wpt.length) :
    ∃ tx txq, tx.isSome = true ∧ wport (wptSend p f (wptMod p g s)) p = { g (wport s p) with tx := tx, txq := txq } := by
  rw [wport_wptSend f (h.trans_eq (length_modAt _ _ _).symm), wport_wptMod_same g h]
  exact Wpt.handed_eq f _

theorem ptpTake_wport (m : PtpIn) (h : p < s.wpt.length) : wport (ptpTake p m s) p = (wport s p).taken m := wport_wptMod_same _ h

end

/-! ### What changes -/

section
variable {fs : List Field} {ps : List Piece} {z s : State}

theorem fieldsOnly_ite {t : State} {c : Prop} [Decidable c] (hs : fieldsOnly fs z s) (ht : fieldsOnly fs z t) : fieldsOnly fs z (if c then s else t) := by
  split <;> assumption

theorem changesOnly_refl (fs : List Field) (ps : List Piece) (s : State) : changesOnly fs ps s s := ⟨fieldsOnly_refl _ _, partsOnly_refl _ _⟩

theorem changesOnly_inc (h : changesOnly fs ps z s) {f : Field} (hf : f ∈ fs) : changesOnly fs ps z (s.inc f) :=
  ⟨fieldsOnly_inc h.1 hf, State.inc_parts _ _ _ h.2 (by simp [sub])⟩

theorem changesOnly_wptMod (h : changesOnly fs [.wpt] z s) (p : Nat) (f : Wpt → Wpt) : changesOnly fs [.wpt] z (wptMod p f s) :=
  ⟨fieldsOnly_same h.1 rfl rfl, wptMod_parts _ _ _ _ h.2 rfl⟩

end

/-- A count alone. -/
theorem inc_counts (s : State) (f : Field) : (s.inc f).rd f = satAdd f.width (s.rd f) 1 ∧ changesOnly [f] [] s (s.inc f) :=
  ⟨State.rd_inc_same _ _, changesOnly_wr _ _⟩

/-! ### Frames sent (R275, R304) -/

/-- A port that beacons at an elapsed time. -/
def Wpt.beaconed (at_ : Nat) (w : Wpt) : Wpt := { w with bseq := (w.bseq + 1) % 256, sentAt := some at_ }

theorem wiredBeaconSend_sends (p dt : Nat) (s : State) (hok : wiredBeaconSendOk p (s.pass dt) = true) (hwpt : s.wpt.length = 2) :
    completes (.wiredBeaconSend p dt) s (fun t => (wport t p).tx.isSome = true ∧ (wport t p).sentAt = some (s.elapsed + dt) ∧ (wport t p).bseq = ((wport s p).bseq + 1) % 256 ∧
      changesOnly [] [.wpt] (s.pass dt) t) := by
  refine completes_of_onlyIf rfl hok ?_
  simp only [wiredBeaconSendOk, Bool.and_eq_true, decide_eq_true_eq] at hok
  obtain ⟨⟨⟨hp, -⟩, -⟩, -⟩ := hok
  have hchanges : changesOnly [] [.wpt] (s.pass dt) (wiredBeaconSend p (s.pass dt)) := changesOnly_wptMod (changesOnly_wptMod (changesOnly_refl _ _ _) _ _) _ _
  obtain ⟨tx, txq, hbusy, hport⟩ : ∃ tx txq, tx.isSome = true ∧ wport (wiredBeaconSend p (s.pass dt)) p = { (wport s p).beaconed (s.elapsed + dt) with tx := tx, txq := txq } :=
    wport_wptSend_wptMod (s := s.pass dt) _ (Wpt.beaconed (s.elapsed + dt)) (hp.trans_eq hwpt.symm)
  refine ⟨?_, ?_, ?_, hchanges⟩ <;> rw [hport]
  · exact hbusy
  · rfl
  · rfl

theorem wiredFrameSent_follows (p dt : Nat) (s : State) (hok : wiredFrameSentOk p (s.pass dt) = true) (hwpt : s.wpt.length = 2) :
    completes (.wiredFrameSent p dt) s (fun t => t.rd (Reg.WPT_PTXFRMCNT p) = satAdd 32 (s.rd (Reg.WPT_PTXFRMCNT p)) 1 ∧ (wport t p).tx = (wport s p).txq.head? ∧
      (wport t p).txq = (wport s p).txq.tail ∧ changesOnly [Reg.WPT_PTXFRMCNT p] [.wpt] (s.pass dt) t) := by
  refine completes_of_onlyIf rfl hok ?_
  have hp : p < 2 := of_decide_eq_true (Bool.and_eq_true_iff.1 hok).1
  have hport := wport_wptMod_same (s := s.pass dt) (fun w => { w with tx := w.txq.head?, txq := w.txq.tail }) (hp.trans_eq hwpt.symm)
  exact ⟨State.rd_inc_same _ _, congrArg Wpt.tx hport, congrArg Wpt.txq hport, changesOnly_inc (changesOnly_wptMod (changesOnly_refl _ _ _) _ _) List.mem_cons_self⟩

/-! ### Frames received (R307, R310) -/

theorem wiredFrameReceive_fails_fcs (p dt : Nat) (f : List Nat) (full : Bool) (s : State) (hok : wiredFrameReceiveOk p (s.pass dt) = true) :
    completes (.wiredFrameReceive p false f full dt) s (fun t => t.rd (Reg.WPT_PFCSCNT p) = satAdd 32 (s.rd (Reg.WPT_PFCSCNT p)) 1 ∧ changesOnly [Reg.WPT_PFCSCNT p] [] (s.pass dt) t) :=
  completes_of_onlyIf rfl hok (inc_counts _ _)

/-- A frame of no type that the port takes is counted, and so is one whose shim fails its checks. -/
theorem wiredFrameReceive_refuses (p dt : Nat) (f : List Nat) (full : Bool) (s : State) (hok : wiredFrameReceiveOk p (s.pass dt) = true) (hptp : (f.drop 12).take 2 ≠ [0x88, 0xF7])
    (hlom : (f.drop 12).take 2 ≠ [0x88, 0xB5] ∨ shimOk f = false) :
    completes (.wiredFrameReceive p true f full dt) s (fun t => t.rd (Reg.WPT_PTYPECNT p) = satAdd 32 (s.rd (Reg.WPT_PTYPECNT p)) 1 ∧ changesOnly [Reg.WPT_PTYPECNT p] [] (s.pass dt) t) := by
  refine completes_of_onlyIf rfl hok ?_
  have hrefused : wiredFrameReceive p true f full (s.pass dt) = (s.pass dt).inc (Reg.WPT_PTYPECNT p) := by
    rcases hlom with h | h
    · simp [wiredFrameReceive, hptp, h]
    · by_cases htype : (f.drop 12).take 2 = [0x88, 0xB5] <;> simp [wiredFrameReceive, hptp, htype, h]
  rw [hrefused]
  exact inc_counts _ _

/-- A frame of the peer-delay unit goes to it (R310). -/
theorem wiredFrameReceive_ptp {p : Nat} {f : List Nat} {full : Bool} {s : State} (hptp : (f.drop 12).take 2 = [0x88, 0xF7]) (hdest : etherDestOk s f true = true) :
    wiredFrameReceive p true f full s = ptpReceive p f s.now (s.inc (Reg.WPT_PRXFRMCNT p)) := by
  simp [wiredFrameReceive, hptp, hdest]

/-- A Pdelay_Req that waits for its unit, from its frame and the time of its arrival. -/
def pdelayReqIn (f : List Nat) (ts : Nat) : PtpIn := ⟨2, ofBeBytes ((f.drop 44).take 2), (f.drop 34).take 10, ptpTime ((f.drop 48).take 10), ts⟩

theorem ptpReceive_pdelayReq {p ts : Nat} {f : List Nat} {s : State} (hkind : leAt f 14 1 = 2) (hver : leAt f 15 1 % 16 = 2) (hdom : leAt f 18 1 = 0) (hlen : 68 ≤ f.length) :
    ptpReceive p f ts s = wptMod p (fun w => { w with ptp := w.ptp ++ [pdelayReqIn f (ingress s p ts)] }) s := by
  have hfit : 54 ≤ f.length - 14 := by omega
  simp only [leAt] at hkind hver hdom
  simp [ptpReceive, leAt, pdelayReqIn, hkind, hver, hdom, hfit]

theorem wiredFrameReceive_takes_pdelayReq (p dt : Nat) (f : List Nat) (full : Bool) (s : State) (hok : wiredFrameReceiveOk p (s.pass dt) = true) (hwpt : s.wpt.length = 2)
    (hptp : (f.drop 12).take 2 = [0x88, 0xF7]) (hdest : etherDestOk s f true = true) (hkind : leAt f 14 1 = 2) (hver : leAt f 15 1 % 16 = 2) (hdom : leAt f 18 1 = 0) (hlen : 68 ≤ f.length) :
    completes (.wiredFrameReceive p true f full dt) s (fun t => t.rd (Reg.WPT_PRXFRMCNT p) = satAdd 32 (s.rd (Reg.WPT_PRXFRMCNT p)) 1 ∧
      (∃ m, (wport t p).ptp = (wport s p).ptp ++ [m] ∧ m.kind = 2 ∧ m.seq = ofBeBytes ((f.drop 44).take 2) ∧ m.ident = (f.drop 34).take 10 ∧ m.ts = ingress s p (s.pass dt).now) ∧
      changesOnly [Reg.WPT_PRXFRMCNT p] [.wpt] (s.pass dt) t) := by
  refine completes_of_onlyIf rfl hok ?_
  have hp : p < 2 := of_decide_eq_true (Bool.and_eq_true_iff.1 hok).1
  rw [wiredFrameReceive_ptp (s := s.pass dt) hptp hdest, ptpReceive_pdelayReq hkind hver hdom hlen]
  refine ⟨State.rd_inc_same (s.pass dt) _, ⟨pdelayReqIn f (ingress s p (s.pass dt).now), ?_, rfl, rfl, rfl, rfl⟩, changesOnly_wptMod (changesOnly_inc (changesOnly_refl _ _ _) List.mem_cons_self) _ _⟩
  exact congrArg Wpt.ptp (wport_wptMod_same (s := (s.pass dt).inc _) _ (hp.trans_eq hwpt.symm))

/-! ### The peer-delay exchange (R312, R313) -/

/-- A port that asks at an elapsed time, with the time at which the request leaves. -/
def Wpt.asked (egress at_ : Nat) (w : Wpt) : Wpt := { w with pdSeq := (w.pdSeq + 1) % 65536, pdAt := some at_, pd := some ⟨w.pdSeq, egress, at_, none⟩ }

theorem pdelayReqSend_starts (p dt : Nat) (s : State) (hok : pdelayReqSendOk p (s.pass dt) = true) (hwpt : s.wpt.length = 2) :
    completes (.pdelayReqSend p dt) s (fun t => (wport t p).tx.isSome = true ∧ (wport t p).pd = some ⟨(wport s p).pdSeq, egressTime (s.pass dt) p, s.elapsed + dt, none⟩ ∧
      (wport t p).pdSeq = ((wport s p).pdSeq + 1) % 65536 ∧ changesOnly [] [.wpt] (s.pass dt) t) := by
  refine completes_of_onlyIf rfl hok ?_
  simp only [pdelayReqSendOk, Bool.and_eq_true, decide_eq_true_eq] at hok
  obtain ⟨⟨⟨⟨hp, -⟩, -⟩, -⟩, -⟩ := hok
  have hchanges : changesOnly [] [.wpt] (s.pass dt) (pdelayReqSend p (s.pass dt)) := changesOnly_wptMod (changesOnly_wptMod (changesOnly_refl _ _ _) _ _) _ _
  obtain ⟨tx, txq, hbusy, hport⟩ : ∃ tx txq, tx.isSome = true ∧ wport (pdelayReqSend p (s.pass dt)) p =
      { (wport s p).asked (egressTime (s.pass dt) p) (s.elapsed + dt) with tx := tx, txq := txq } :=
    wport_wptSend_wptMod (s := s.pass dt) _ _ (hp.trans_eq hwpt.symm)
  refine ⟨?_, ?_, ?_, hchanges⟩ <;> rw [hport]
  · exact hbusy
  · rfl
  · rfl

theorem pdelayReqReceive_answers (p dt : Nat) (m : PtpIn) (s : State) (hok : pdelayReqReceiveOk p (s.pass dt) = true) (hwpt : s.wpt.length = 2) (hm : ptpFirst s p 2 = some m) :
    completes (.pdelayReqReceive p dt) s (fun t => (wport t p).tx = some (ptpFrame s p 3 m.seq true (ptpStamp m.ts) m.ident) ∧ (wport t p).ptp = (wport s p).ptp.erase m ∧
      (wport t p).txq.length = (wport s p).txq.length + 1 ∧ changesOnly [] [.wpt] (s.pass dt) t) := by
  refine completes_of_onlyIf rfl hok ?_
  simp only [pdelayReqReceiveOk, Bool.and_eq_true, decide_eq_true_eq, Option.isNone_iff_eq_none] at hok
  obtain ⟨⟨hp, -⟩, hidle⟩ := hok
  have hidle : ((wport (s.pass dt) p).taken m).tx = none := hidle
  have hlen : p < (ptpTake p m (s.pass dt)).wpt.length := (hp.trans_eq hwpt.symm).trans_eq (length_modAt _ _ _).symm
  have hlen' (f : List Nat) : p < (wptSend p f (ptpTake p m (s.pass dt))).wpt.length := hlen.trans_eq (length_modAt _ _ _).symm
  simp only [pdelayReqReceive, show ptpFirst (s.pass dt) p 2 = some m from hm]
  refine ⟨?_, ?_, ?_, changesOnly_wptMod (changesOnly_wptMod (changesOnly_wptMod (changesOnly_refl _ _ _) _ _) _ _) _ _⟩ <;>
    rw [wport_wptSend _ (hlen' _), wport_wptSend _ hlen, ptpTake_wport (s := s.pass dt) _ (hp.trans_eq hwpt.symm), Wpt.handed_handed_of_idle _ _ hidle]
  · rfl
  · rfl
  · exact List.length_append

/-- A response that waits is taken, and matches the exchange or not. -/
theorem pdelayRespReceive_records (p dt : Nat) (m : PtpIn) (s : State) (hok : pdelayRespReceiveOk p (s.pass dt) = true) (hwpt : s.wpt.length = 2) (hm : ptpFirst s p 3 = some m) :
    completes (.pdelayRespReceive p dt) s (fun t => (wport t p).ptp = (wport s p).ptp.erase m ∧
      (wport t p).pd = (if ptpMatches s p m = true then (wport s p).pd.map (fun x => { x with resp := some (m.stamp, m.ts) }) else (wport s p).pd) ∧ changesOnly [] [.wpt] (s.pass dt) t) := by
  refine completes_of_onlyIf rfl hok ?_
  have hp : p < 2 := of_decide_eq_true (Bool.and_eq_true_iff.1 hok).1
  have htaken := ptpTake_wport (s := s.pass dt) m (hp.trans_eq hwpt.symm)
  have hchanges : changesOnly [] [.wpt] (s.pass dt) (ptpTake p m (s.pass dt)) := changesOnly_wptMod (changesOnly_refl _ _ _) _ _
  simp only [pdelayRespReceive, show ptpFirst (s.pass dt) p 3 = some m from hm, show ptpMatches (s.pass dt) p m = ptpMatches s p m from rfl]
  by_cases hmatch : ptpMatches s p m = true
  · rw [if_pos hmatch, if_pos hmatch]
    refine ⟨?_, ?_, changesOnly_wptMod hchanges _ _⟩ <;> rw [wport_wptMod_same _ ((hp.trans_eq hwpt.symm).trans_eq (length_modAt _ _ _).symm), htaken] <;> rfl
  · rw [if_neg hmatch, if_neg hmatch]
    exact ⟨(congrArg Wpt.ptp htaken :), (congrArg Wpt.pd htaken :), hchanges⟩

theorem followUpReceive_of_not_matches {p : Nat} {m : PtpIn} {s : State} (hm : ptpFirst s p 0xA = some m) (hmatch : ptpMatches s p m = false) : followUpReceive p s = ptpTake p m s := by
  simp only [followUpReceive, hm, hmatch]
  cases (wport s p).pd with
  | none => rfl
  | some x => cases h : x.resp <;> simp [h]

theorem followUpReceive_of_matches {p : Nat} {m : PtpIn} {x : PdEx} {r : Nat × Nat} {s : State} (hm : ptpFirst s p 0xA = some m) (hmatch : ptpMatches s p m = true) (hx : (wport s p).pd = some x)
    (hr : x.resp = some r) : followUpReceive p s = pdComplete p x.t1 r.1 m.stamp r.2 (ptpTake p m s) := by
  simp only [followUpReceive, hm, hmatch, hx, hr, if_true]

theorem followUpReceive_ignores (p dt : Nat) (m : PtpIn) (s : State) (hok : followUpReceiveOk p (s.pass dt) = true) (hwpt : s.wpt.length = 2) (hm : ptpFirst s p 0xA = some m)
    (hmatch : ptpMatches s p m = false) :
    completes (.followUpReceive p dt) s (fun t => (wport t p).ptp = (wport s p).ptp.erase m ∧ (wport t p).pd = (wport s p).pd ∧ changesOnly [] [.wpt] (s.pass dt) t) := by
  refine completes_of_onlyIf rfl hok ?_
  have hp : p < 2 := of_decide_eq_true (Bool.and_eq_true_iff.1 hok).1
  have htaken := ptpTake_wport (s := s.pass dt) m (hp.trans_eq hwpt.symm)
  rw [followUpReceive_of_not_matches (s := s.pass dt) hm hmatch]
  exact ⟨(congrArg Wpt.ptp htaken :), (congrArg Wpt.pd htaken :), changesOnly_wptMod (changesOnly_refl _ _ _) _ _⟩

/-! ### An exchange completes or is lost (R312, R313) -/

theorem fieldsOnly_timeParentChoose {fs : List Field} {z s : State} (h : fieldsOnly fs z s) (h0 : Reg.WPT_PSTAT_TPARENT 0 ∈ fs) (h1 : Reg.WPT_PSTAT_TPARENT 1 ∈ fs) :
    fieldsOnly fs z (timeParentChoose s) := by
  unfold timeParentChoose
  refine fieldsOnly_ite h (fieldsOnly_wr (f := Reg.WPT_PSTAT_TPARENT 1) (fieldsOnly_wr (f := Reg.WPT_PSTAT_TPARENT 0) ?_ _ h0) _ h1)
  exact fieldsOnly_ite h (fieldsOnly_same h rfl rfl)

/-- The fields that show the time parent. -/
def timeParentFields : List Field := [Reg.WPT_PSTAT_TPARENT 0, Reg.WPT_PSTAT_TPARENT 1]

theorem timeParentChoose_fields (s : State) : fieldsOnly timeParentFields s (timeParentChoose s) :=
  fieldsOnly_timeParentChoose (fieldsOnly_refl _ s) (by simp [timeParentFields]) (by simp [timeParentFields])

theorem timeParentChoose_wpt (s : State) : (timeParentChoose s).wpt = s.wpt := timeParentChoose_parts s s (partsOnly_refl [.firn, .regs] s) rfl .wpt (by decide)

theorem firnSample_wpt (e : Int) (s : State) : (firnSample e s).wpt = s.wpt :=
  firnSample_parts e s s (partsOnly_refl [.mboxes, .firn, .regs, .freeCtr, .heldNotices, .flight] s) rfl .wpt (by decide)

/-- The port of a completed exchange, with the averaged delay. -/
def Wpt.exchanged (delay : Int) (w : Wpt) : Wpt := { w with pd := none, pdDone := w.pdDone + 1, pdLost := 0, pdRow := w.pdRow + 1, delay := delay }

section
variable (p : Nat) (s : State)

/-- The exchange is counted, and the port is as it leaves it. -/
def pdCounted (delay : Int) : State := (wptMod p (fun w => { w with pd := none, pdDone := (wport s p).pdDone + 1, pdLost := 0, pdRow := (wport s p).pdRow + 1, delay := delay }) s).inc (Reg.WPT_PPTPCNT p)

/-- The delay shows from the fourth exchange on. -/
def pdShown (n : Nat) (delay : Int) : State := if 4 ≤ n then (s.set1 (Reg.WPT_PSTAT_DVALID p)).wr (Reg.WPT_PDELAY p) delay.toNat else s

/-- Four exchanges in a row end a fault. -/
def pdHealed (row : Nat) : State := if s.on (Reg.WPT_PSTAT_PDFAULT p) ∧ 4 ≤ row then (s.clr (Reg.WPT_PSTAT_PDFAULT p)).raise 135 else s

/-- The time parent is chosen again, and where it is the port's peer the exchange is a timing sample with the peer's bound. -/
def pdSampled (w : Wpt) (e : Int) : State :=
  if (timeParentChoose s).firn.parent = .wired p then
    firnSample e { timeParentChoose s with firn := { (timeParentChoose s).firn with parentBound := w.errb, parentHops := w.hops } }
  else timeParentChoose s

/-- A completed exchange in its four parts. -/
theorem pdComplete_eq (t1 t2 t3 t4 : Nat) : ∃ delay e,
    pdComplete p t1 t2 t3 t4 s = pdSampled p (pdHealed p (pdShown p (pdCounted p s delay) ((wport s p).pdDone + 1) delay) ((wport s p).pdRow + 1)) (wport s p) e := ⟨_, _, rfl⟩

variable {p s}

theorem pdCounted_wport (delay : Int) (h : p < s.wpt.length) : wport (pdCounted p s delay) p = (wport s p).exchanged delay := wport_wptMod_same (s := s) _ h

theorem pdShown_wpt (n : Nat) (delay : Int) : (pdShown p s n delay).wpt = s.wpt := by
  unfold pdShown
  split <;> rfl

theorem pdShown_fields (n : Nat) (delay : Int) : fieldsOnly [Reg.WPT_PSTAT_DVALID p, Reg.WPT_PDELAY p] s (pdShown p s n delay) :=
  fieldsOnly_ite (fieldsOnly_wr (fieldsOnly_set1 (fieldsOnly_refl _ s) (by simp)) _ (by simp)) (fieldsOnly_refl _ s)

theorem pdShown_dvalid {n : Nat} (delay : Int) (hn : 4 ≤ n) : (pdShown p s n delay).rd (Reg.WPT_PSTAT_DVALID p) = 1 := by
  rw [pdShown, if_pos hn, State.rd_wr_other _ _ (by simp only [Field.key, Reg.WPT_PSTAT_DVALID, Reg.WPT_PDELAY]; omega)]
  exact State.rd_wr_same _ _ _

theorem pdHealed_wpt (row : Nat) : (pdHealed p s row).wpt = s.wpt := by
  unfold pdHealed
  split <;> rfl

theorem pdHealed_fields (row : Nat) : fieldsOnly [Reg.WPT_PSTAT_PDFAULT p] s (pdHealed p s row) :=
  fieldsOnly_ite (fieldsOnly_raise (fieldsOnly_clr (fieldsOnly_refl _ s) List.mem_cons_self)) (fieldsOnly_refl _ s)

theorem pdSampled_wpt (w : Wpt) (e : Int) : (pdSampled p s w e).wpt = s.wpt := by
  unfold pdSampled
  split
  · exact (firnSample_wpt _ _).trans (timeParentChoose_wpt s)
  · exact timeParentChoose_wpt s

theorem pdSampled_rd (w : Wpt) (e : Int) {f : Field} (hf : pastFirn f) (ht : ∀ g ∈ timeParentFields, f.key ≠ g.key) : (pdSampled p s w e).rd f = s.rd f := by
  have hchosen : (timeParentChoose s).rd f = s.rd f := (timeParentChoose_fields s f ht).1
  unfold pdSampled
  split
  · rw [firnSample_rd_past hf, State.rd_withFirn, hchosen]
  · exact hchosen

end

theorem pastFirn_of_wired {f : Field} (hlo : 32 * 0x400C0000 ≤ f.key) (hhi : f.key < 32 * 0x400D0100) : pastFirn f :=
  ⟨Nat.le_trans (by decide) hlo, .inl hhi⟩

section
variable {p t1 t2 t3 t4 : Nat} {s : State}

theorem pdComplete_wport (h : p < s.wpt.length) : ∃ delay, wport (pdComplete p t1 t2 t3 t4 s) p = (wport s p).exchanged delay := by
  obtain ⟨delay, e, heq⟩ := pdComplete_eq p s t1 t2 t3 t4
  refine ⟨delay, ?_⟩
  rw [← pdCounted_wport delay h, heq, wport, pdSampled_wpt, pdHealed_wpt, pdShown_wpt, wport]

theorem pdComplete_counts (hp : p < 2) : (pdComplete p t1 t2 t3 t4 s).rd (Reg.WPT_PPTPCNT p) = satAdd 32 (s.rd (Reg.WPT_PPTPCNT p)) 1 := by
  obtain ⟨delay, e, heq⟩ := pdComplete_eq p s t1 t2 t3 t4
  rw [heq, pdSampled_rd _ _ (pastFirn_of_wired ?_ ?_) ?_, (pdHealed_fields _ _ ?_).1, (pdShown_fields _ _ _ ?_).1]
  · exact State.rd_inc_same _ _
  all_goals simp only [timeParentFields, List.forall_mem_cons, List.not_mem_nil, false_implies, implies_true, and_true, Field.key, Reg.WPT_PPTPCNT, Reg.WPT_PSTAT_TPARENT, Reg.WPT_PSTAT_DVALID, Reg.WPT_PDELAY, Reg.WPT_PSTAT_PDFAULT]
  all_goals omega

theorem pdComplete_shows (hp : p < 2) (hn : 4 ≤ (wport s p).pdDone + 1) : (pdComplete p t1 t2 t3 t4 s).rd (Reg.WPT_PSTAT_DVALID p) = 1 := by
  obtain ⟨delay, e, heq⟩ := pdComplete_eq p s t1 t2 t3 t4
  rw [heq, pdSampled_rd _ _ (pastFirn_of_wired ?_ ?_) ?_, (pdHealed_fields _ _ ?_).1]
  · exact pdShown_dvalid _ hn
  all_goals simp only [timeParentFields, List.forall_mem_cons, List.not_mem_nil, false_implies, implies_true, and_true, Field.key, Reg.WPT_PSTAT_TPARENT, Reg.WPT_PSTAT_DVALID, Reg.WPT_PSTAT_PDFAULT]
  all_goals omega

end

theorem followUpReceive_completes (p dt : Nat) (m : PtpIn) (x : PdEx) (r : Nat × Nat) (s : State) (hok : followUpReceiveOk p (s.pass dt) = true) (hwpt : s.wpt.length = 2)
    (hm : ptpFirst s p 0xA = some m) (hmatch : ptpMatches s p m = true) (hx : (wport s p).pd = some x) (hr : x.resp = some r) :
    completes (.followUpReceive p dt) s (fun t => t.rd (Reg.WPT_PPTPCNT p) = satAdd 32 (s.rd (Reg.WPT_PPTPCNT p)) 1 ∧ (wport t p).pd = none ∧ (wport t p).pdDone = (wport s p).pdDone + 1 ∧
      (4 ≤ (wport s p).pdDone + 1 → t.rd (Reg.WPT_PSTAT_DVALID p) = 1)) := by
  refine completes_of_onlyIf rfl hok ?_
  have hp : p < 2 := of_decide_eq_true (Bool.and_eq_true_iff.1 hok).1
  have hlen : p < (s.pass dt).wpt.length := hp.trans_eq hwpt.symm
  have htaken : wport (ptpTake p m (s.pass dt)) p = (wport s p).taken m := ptpTake_wport m hlen
  rw [followUpReceive_of_matches (s := s.pass dt) hm hmatch hx hr]
  obtain ⟨delay, hport⟩ := pdComplete_wport (t1 := x.t1) (t2 := r.1) (t3 := m.stamp) (t4 := r.2) (s := ptpTake p m (s.pass dt)) (hlen.trans_eq (length_modAt _ _ _).symm)
  rw [htaken] at hport
  refine ⟨pdComplete_counts hp, ?_, ?_, fun hn => pdComplete_shows hp (by rw [htaken]; exact hn)⟩ <;> rw [hport] <;> rfl

/-- The port of an exchange that is lost. -/
def Wpt.lostExchange (w : Wpt) : Wpt := { w with pd := none, pdLost := w.pdLost + 1, pdRow := 0 }

section
variable (p : Nat) (s : State)

/-- The loss is counted, and the port is as it leaves it. -/
def pdLossCounted : State := (wptMod p (fun w => { w with pd := none, pdLost := (wport s p).pdLost + 1, pdRow := 0 }) s).inc (Reg.WPT_PPTPLOSTCNT p)

/-- The third loss in a row is a fault where none stands, and the time parent is chosen again. -/
theorem pdelayLost_eq : pdelayLost p s =
    if (wport s p).pdLost + 1 = 3 ∧ (pdLossCounted p s).rd (Reg.WPT_PSTAT_PDFAULT p) = 0 then timeParentChoose (((pdLossCounted p s).set1 (Reg.WPT_PSTAT_PDFAULT p)).raise 135)
    else pdLossCounted p s := rfl

variable {p s}

theorem pdelayLost_wport (h : p < s.wpt.length) : wport (pdelayLost p s) p = (wport s p).lostExchange := by
  have hcounted : wport (pdLossCounted p s) p = (wport s p).lostExchange := wport_wptMod_same (s := s) _ h
  rw [pdelayLost_eq]
  split
  · rw [wport, timeParentChoose_wpt]
    exact hcounted
  · exact hcounted

theorem pdelayLost_fields : fieldsOnly (Reg.WPT_PSTAT_PDFAULT p :: timeParentFields) (pdLossCounted p s) (pdelayLost p s) := by
  have hrefl := fieldsOnly_refl (Reg.WPT_PSTAT_PDFAULT p :: timeParentFields) (pdLossCounted p s)
  rw [pdelayLost_eq]
  refine fieldsOnly_ite (fieldsOnly_timeParentChoose (fieldsOnly_raise (fieldsOnly_set1 hrefl List.mem_cons_self)) ?_ ?_) hrefl <;> simp [timeParentFields]

theorem pdelayLost_counts : (pdelayLost p s).rd (Reg.WPT_PPTPLOSTCNT p) = satAdd 32 (s.rd (Reg.WPT_PPTPLOSTCNT p)) 1 := by
  rw [(pdelayLost_fields _ ?_).1]
  · exact State.rd_inc_same _ _
  · simp only [timeParentFields, List.forall_mem_cons, List.not_mem_nil, false_implies, implies_true, and_true, Field.key, Reg.WPT_PPTPLOSTCNT, Reg.WPT_PSTAT_PDFAULT, Reg.WPT_PSTAT_TPARENT]
    omega

/-- After the third loss in a row a fault stands, set now or before. -/
theorem pdelayLost_faults (hthird : (wport s p).pdLost = 2) : (pdelayLost p s).rd (Reg.WPT_PSTAT_PDFAULT p) ≠ 0 := by
  rw [pdelayLost_eq]
  split
  · rw [(timeParentChoose_fields _ _ ?_).1, State.rd_raise, State.set1, State.rd_wr_same]
    · exact one_ne_zero
    · simp only [timeParentFields, List.forall_mem_cons, List.not_mem_nil, false_implies, implies_true, and_true, Field.key, Reg.WPT_PSTAT_PDFAULT, Reg.WPT_PSTAT_TPARENT]
      omega
  · next h => exact fun hnone => h ⟨by rw [hthird], hnone⟩

end

theorem pdelayLost_loses (p dt : Nat) (s : State) (hok : pdelayLostOk p (s.pass dt) = true) (hwpt : s.wpt.length = 2) :
    completes (.pdelayLost p dt) s (fun t => t.rd (Reg.WPT_PPTPLOSTCNT p) = satAdd 32 (s.rd (Reg.WPT_PPTPLOSTCNT p)) 1 ∧ (wport t p).pd = none ∧ (wport t p).pdLost = (wport s p).pdLost + 1 ∧
      ((wport s p).pdLost = 2 → t.rd (Reg.WPT_PSTAT_PDFAULT p) ≠ 0)) := by
  refine completes_of_onlyIf rfl hok ?_
  have hp : p < 2 := of_decide_eq_true (Bool.and_eq_true_iff.1 hok).1
  have hport : wport (pdelayLost p (s.pass dt)) p = (wport s p).lostExchange := pdelayLost_wport (s := s.pass dt) (hp.trans_eq hwpt.symm)
  refine ⟨pdelayLost_counts (s := s.pass dt), ?_, ?_, pdelayLost_faults (s := s.pass dt)⟩ <;> rw [hport] <;> rfl

end Sys2Proof.Machine

open Sys2Proof Sys2Proof.Machine

/-- Settles O32: each frame and each step of an exchange by its own lemma. -/
theorem wiredFrames : Obligations.WiredFrames := by
  unfold Obligations.WiredFrames
  exact ⟨wiredBeaconSend_sends, wiredFrameSent_follows, wiredFrameReceive_fails_fcs, wiredFrameReceive_refuses, wiredFrameReceive_takes_pdelayReq, pdelayReqSend_starts, pdelayReqReceive_answers,
    pdelayRespReceive_records, followUpReceive_ignores, followUpReceive_completes, pdelayLost_loses⟩
end

section
/-!
SUPPORT. The mailboxes: what a change of one leaves, its live operations and buffers, the taking of a request, and the records of a command: its RESULT, its ACCEPTED and its terminal record.
-/
namespace Sys2Proof.Machine

/-! ### A mailbox and its parts -/

section
variable {m : Nat} {s t : State}

theorem mbox_mbModify_same (f : Mbox → Mbox) (h : m < s.mboxes.length) : mbox (mbModify m f s) m = f (mbox s m) := getD_modAt_same _ _ _ _ h

theorem mbox_mbModify_other {k : Nat} (f : Mbox → Mbox) (s : State) (h : m ≠ k) : mbox (mbModify m f s) k = mbox s k := getD_modAt_other _ _ _ h

theorem mbModify_mboxes_length (m : Nat) (f : Mbox → Mbox) (s : State) : (mbModify m f s).mboxes.length = s.mboxes.length := length_modAt _ _ _

theorem mbox_of_mboxes (h : t.mboxes = s.mboxes) (m : Nat) : mbox t m = mbox s m := by rw [mbox, h, mbox]

theorem opOf_of_ops (h : (mbox t m).ops = (mbox s m).ops) (tag : Nat) : opOf t m tag = opOf s m tag := by rw [opOf, h, opOf]

theorem opOf_of_mboxes (h : t.mboxes = s.mboxes) (m tag : Nat) : opOf t m tag = opOf s m tag := by rw [opOf, mbox_of_mboxes h, opOf]

/-- A mailbox that has an operation exists. -/
theorem lt_length_of_opOf {tag : Nat} {o : LiveOp} (h : opOf s m tag = some o) : m < s.mboxes.length := by
  by_contra hm
  have hnone : mbox s m = Mbox.reset := List.getD_eq_default _ _ (Nat.le_of_not_lt hm)
  rw [opOf, hnone] at h
  cases h

theorem tag_of_opOf {tag : Nat} {o : LiveOp} (h : opOf s m tag = some o) : o.tag = tag ∧ o.ended = false := by
  simpa using List.find?_some h

/-- A change of a live operation that leaves its tag and its life. -/
theorem opOf_opMod {tag : Nat} {o : LiveOp} (h : opOf s m tag = some o) (g : LiveOp → LiveOp) (hg : ∀ x, (g x).tag = x.tag ∧ (g x).ended = x.ended) :
    opOf (opMod m tag g s) m tag = some (g o) := by
  obtain ⟨htag, hlive⟩ := tag_of_opOf h
  have hpred : ((fun x : LiveOp => x.tag == tag && !x.ended) ∘ fun x => if x.tag = tag ∧ x.ended = false then g x else x) = fun x => x.tag == tag && !x.ended := by
    funext x
    simp only [Function.comp]
    split
    · rw [(hg x).1, (hg x).2]
    · rfl
  rw [opOf] at h
  rw [opOf, opMod, mbox_mbModify_same _ (lt_length_of_opOf h), List.find?_map, hpred, h, Option.map_some, if_pos ⟨htag, hlive⟩]

/-- An operation that has ended lives no more. -/
theorem opOf_opEnd (m tag k st : Nat) (pl : List Nat) (s : State) : opOf (opEnd m tag k st pl s) m tag = none := by
  cases h : opOf s m tag with
  | none => simp only [opEnd, h]
  | some o =>
    simp only [opEnd, h]
    rw [opOf, mbox_mbModify_same _ (lt_length_of_opOf h), List.find?_eq_none]
    simp only [List.forall_mem_map]
    intro x _
    split
    · simp
    · next hx => simpa using hx

theorem opEnd_backlog {tag : Nat} {o : LiveOp} (h : opOf s m tag = some o) (k st : Nat) (pl : List Nat) :
    (mbox (opEnd m tag k st pl s) m).backlog = (mbox s m).backlog ++ [MbRec.mk o.cmd tag (b2n o.prog) k st 0 pl] := by
  simp only [opEnd, h]
  rw [mbox_mbModify_same _ (lt_length_of_opOf h)]

theorem opEnd_regs (m tag k st : Nat) (pl : List Nat) (s : State) : (opEnd m tag k st pl s).regs = s.regs :=
  opEnd_parts m tag k st pl s s (partsOnly_refl [.mboxes] s) rfl .regs (by decide)

theorem opEnd_rd (m tag k st : Nat) (pl : List Nat) (s : State) (f : Field) : (opEnd m tag k st pl s).rd f = s.rd f := by rw [State.rd, opEnd_regs, State.rd]

theorem mbox_mbPush (r : MbRec) (h : m < s.mboxes.length) : mbox (mbPush m r s) m = { mbox s m with backlog := (mbox s m).backlog ++ [r] } := mbox_mbModify_same _ h

theorem opOf_mbPush (r : MbRec) (h : m < s.mboxes.length) (tag : Nat) : opOf (mbPush m r s) m tag = opOf s m tag := opOf_of_ops (by rw [mbox_mbPush r h]) tag

theorem bufOf_of_bufs (h : (mbox t m).bufs = (mbox s m).bufs) (b : Nat) : bufOf t m b = bufOf s m b := by rw [bufOf, h, bufOf]

theorem bufOf_mbPush (r : MbRec) (h : m < s.mboxes.length) (b : Nat) : bufOf (mbPush m r s) m b = bufOf s m b := bufOf_of_bufs (by rw [mbox_mbPush r h]) b

/-- A buffer that is written. -/
theorem bufOf_bufPut {b : Nat} {old : List Nat} (h : m < s.mboxes.length) (hb : bufOf s m b = some old) (data : List Nat) : bufOf (bufPut m b data s) m b = some data := by
  obtain ⟨x, hx, -⟩ := Option.map_eq_some_iff.1 hb
  have hpred : ((fun y : MbBuf => y.handle == b) ∘ fun y => if y.handle = b then { y with data := data } else y) = fun y => y.handle == b := by
    funext y
    simp only [Function.comp]
    split <;> rfl
  have hhandle : x.handle = b := by simpa using List.find?_some hx
  rw [bufOf, bufPut, mbox_mbModify_same _ h, List.find?_map, hpred, hx, Option.map_some, if_pos hhandle]
  rfl

theorem changesOnly_mbModify {fs : List Field} {ps : List Piece} {z : State} (h : changesOnly fs ps z s) (hp : Piece.mboxes ∈ ps) (m : Nat) (f : Mbox → Mbox) : changesOnly fs ps z (mbModify m f s) :=
  ⟨fieldsOnly_same h.1 rfl rfl, mbModify_parts m f s z h.2 (by simp [sub, hp])⟩

theorem changesOnly_opEnd {fs : List Field} {ps : List Piece} {z : State} (h : changesOnly fs ps z s) (hp : Piece.mboxes ∈ ps) (m tag k st : Nat) (pl : List Nat) :
    changesOnly fs ps z (opEnd m tag k st pl s) := by
  unfold opEnd
  split
  · exact h
  · exact changesOnly_mbModify h hp _ _

end

/-! ### Requests (R330 to R335) -/

theorem lt_of_mbTurn {m : Nat} {s : State} (h : mbTurn s = some m) : m < 4 := by
  obtain ⟨i, -, rfl⟩ := List.mem_map.1 (List.mem_of_find?_eq_some h)
  exact Nat.mod_lt _ (by decide)

theorem lt_of_cmdOk {m id : Nat} {s : State} (h : cmdOk m id s = true) : m < 4 := by
  simp only [cmdOk, Bool.and_eq_true, beq_iff_eq] at h
  exact lt_of_mbTurn h.1

/-- A request that passes the general checks. -/
structure Passes (m id len : Nat) (s : State) : Prop where
  turn : cmdOk m id s = true
  length : (mbReq s m).len = len
  short : len ≤ 240
  flags : (mbReq s m).flags ≤ 1
  tag : (mbReq s m).tag ≠ 0
  fresh : ∀ o ∈ (mbox s m).ops, o.tag ≠ (mbReq s m).tag
  room : (mbox s m).ops.length < 8
  boxes : s.mboxes.length = 4

theorem passes_of_requestOk {m id len : Nat} {s : State} (h : requestOk m id len s = true) : Passes m id len s := by
  simp only [requestOk, Bool.and_eq_true, beq_iff_eq, decide_eq_true_eq, Bool.not_eq_true', List.any_eq_false, bne_iff_ne, ne_eq] at h
  obtain ⟨⟨⟨⟨⟨⟨⟨hturn, hlen⟩, hshort⟩, hflags⟩, htag⟩, hfresh⟩, hroom⟩, hboxes⟩ := h
  exact ⟨hturn, hlen, hshort, hflags, htag, hfresh, hroom, hboxes⟩

section
variable {m id len : Nat} {s : State}

theorem Passes.lt_four (h : Passes m id len s) : m < 4 := lt_of_cmdOk h.turn

theorem Passes.lt_length (h : Passes m id len s) : m < s.mboxes.length := h.lt_four.trans_eq h.boxes.symm

/-- No operation that lives has the tag of the request. -/
theorem Passes.opOf_tag (h : Passes m id len s) : opOf s m (mbReq s m).tag = none := by
  rw [opOf, List.find?_eq_none]
  intro o ho
  simp [h.fresh o ho]

theorem Passes.mbRefusal_none (h : Passes m id len s) (long : Bool) : mbRefusal s m (mbReq s m) true long = none := by
  have hlen : ¬ 240 < (mbReq s m).len := by rw [h.length]; exact Nat.not_lt.2 h.short
  have hfresh : (mbox s m).ops.any (fun o => o.tag == (mbReq s m).tag) = false := by simpa using h.fresh
  simp [mbRefusal, hlen, Nat.not_lt.2 h.flags, h.tag, hfresh, Nat.not_le.2 h.room]

end

/-- Time passes, then the request at the front of a mailbox is taken (R334). -/
def taken (m dt : Nat) (s : State) : State := mbTake m (s.pass dt)

section
variable (m dt : Nat) (s : State)

@[simp] theorem mbox_taken (k : Nat) : mbox (taken m dt s) k = mbox s k := rfl
@[simp] theorem opOf_taken (k tag : Nat) : opOf (taken m dt s) k tag = opOf s k tag := rfl
@[simp] theorem bufOf_taken (k b : Nat) : bufOf (taken m dt s) k b = bufOf s k b := rfl
@[simp] theorem bufHeld_taken (k b : Nat) : bufHeld (taken m dt s) k b = bufHeld s k b := rfl

theorem taken_rd {f : Field} (h : f.key ≠ (Reg.MB_REQ_REQRD m).key) : (taken m dt s).rd f = s.rd f := State.rd_wr_other (s.pass dt) _ h

theorem taken_reqrd : (taken m dt s).rd (Reg.MB_REQ_REQRD m) = (s.rd (Reg.MB_REQ_REQRD m) + 1) % 32 := (State.rd_wr_same (s.pass dt) _ _).trans (Nat.mod_mod _ _)

variable {m dt s}

theorem key_ne_reqrd {f : Field} (hm : m < 4) (hf : offMbx f) : f.key ≠ (Reg.MB_REQ_REQRD m).key := by
  rintro he
  rw [offMbx, he] at hf
  simp only [Field.key, Reg.MB_REQ_REQRD] at hf
  omega

theorem taken_rd_off {f : Field} (hm : m < 4) (hf : offMbx f) : (taken m dt s).rd f = s.rd f := taken_rd m dt s (key_ne_reqrd hm hf)

theorem taken_on_off {f : Field} (hm : m < 4) (hf : offMbx f) : (taken m dt s).on f = s.on f := by rw [State.on, taken_rd_off hm hf, State.on]

theorem taken_changesOnly {fs : List Field} {ps : List Piece} (hf : Reg.MB_REQ_REQRD m ∈ fs) (hp : sub [.regs, .mbLast, .flight] (.regs :: .com :: ps) = true) :
    changesOnly fs ps (s.pass dt) (taken m dt s) := by
  refine ⟨fieldsOnly_same (s := (s.pass dt).wr (Reg.MB_REQ_REQRD m) ((s.rd (Reg.MB_REQ_REQRD m) + 1) % 32)) (fieldsOnly_wr (fieldsOnly_refl _ _) _ hf) rfl rfl, ?_⟩
  exact mbTake_parts m (s.pass dt) (s.pass dt) (partsOnly_refl _ _) hp

end

/-! ### Records (R336, R337) -/

/-- The request is taken, and its mailbox has no record of it yet. -/
structure Took (m : Nat) (s u : State) : Prop where
  backlog : (mbox u m).backlog = (mbox s m).backlog
  lt : m < u.mboxes.length
  reqrd : u.rd (Reg.MB_REQ_REQRD m) = (s.rd (Reg.MB_REQ_REQRD m) + 1) % 32

section
variable {m id len : Nat} {s u t : State}

theorem took_taken (h : m < s.mboxes.length) (dt : Nat) : Took m s (taken m dt s) := ⟨rfl, h, taken_reqrd m dt s⟩

theorem took_of_same (h : Took m s u) (hm : t.mboxes = u.mboxes) (hr : t.rd (Reg.MB_REQ_REQRD m) = u.rd (Reg.MB_REQ_REQRD m)) : Took m s t :=
  ⟨by rw [mbox_of_mboxes hm, h.backlog], hm ▸ h.lt, hr.trans h.reqrd⟩

theorem took_mbModify (h : Took m s u) {f : Mbox → Mbox} (hf : ∀ b, (f b).backlog = b.backlog) : Took m s (mbModify m f u) :=
  ⟨by rw [mbox_mbModify_same _ h.lt, hf, h.backlog], h.lt.trans_eq (mbModify_mboxes_length m f u).symm, h.reqrd⟩

theorem replied_mbResult (h : Took m s u) (st : Nat) (pl : List Nat) : replied m st pl s (mbResult m (mbReq s m) st pl u) :=
  ⟨by rw [mbResult, mbox_mbPush _ h.lt, h.backlog], h.reqrd⟩

/-- Of an answer to a request that is taken, nothing else changes. -/
theorem mbResult_taken (hm : m < s.mboxes.length) (dt st : Nat) (pl : List Nat) :
    replied m st pl s (mbResult m (mbReq s m) st pl (taken m dt s)) ∧
      changesOnly [Reg.MB_REQ_REQRD m] [.mboxes, .mbLast, .flight] (s.pass dt) (mbResult m (mbReq s m) st pl (taken m dt s)) :=
  ⟨replied_mbResult (took_taken hm dt) st pl, changesOnly_mbModify (taken_changesOnly (by simp) rfl) (by simp) _ _⟩

/-- An operation that starts, as it stands in its mailbox. -/
def opStarted (r : MbReq) (args data : List Nat) : LiveOp := LiveOp.mk r.cmd r.tag (bitOf r.flags 0 == 1) 0 none none false args data

theorem mbox_mbAccept (h : m < u.mboxes.length) (r : MbReq) (args data : List Nat) :
    mbox (mbAccept m r args data u) m = { mbox u m with backlog := (mbox u m).backlog ++ [acceptedRec r], ops := (mbox u m).ops ++ [opStarted r args data] } := by
  have hpush := mbox_mbPush (s := u) (acceptedRec r) h
  exact (mbox_mbModify_same (s := mbPush m (acceptedRec r) u) _ (h.trans_eq (mbModify_mboxes_length _ _ _).symm)).trans (by rw [hpush]; rfl)

theorem opOf_mbAccept (h : m < u.mboxes.length) (r : MbReq) (args data : List Nat) (hnew : opOf u m r.tag = none) : opOf (mbAccept m r args data u) m r.tag = some (opStarted r args data) := by
  rw [opOf] at hnew
  rw [opOf, mbox_mbAccept h, List.find?_append, hnew]
  simp [opStarted]

theorem changesOnly_mbAccept {fs : List Field} {ps : List Piece} {z : State} (h : changesOnly fs ps z u) (hp : Piece.mboxes ∈ ps) (m : Nat) (r : MbReq) (args data : List Nat) :
    changesOnly fs ps z (mbAccept m r args data u) := changesOnly_mbModify (changesOnly_mbModify h hp _ _) hp _ _

/-- The state in which a request has been taken and its operation started. -/
def accepted (m dt : Nat) (args : List Nat) (s : State) : State := mbAccept m (mbReq s m) args [] (taken m dt s)

variable {dt : Nat} {args : List Nat}

theorem accepted_backlog (h : Passes m id len s) : (mbox (accepted m dt args s) m).backlog = (mbox s m).backlog ++ [acceptedRec (mbReq s m)] := by
  rw [accepted, mbox_mbAccept (u := taken m dt s) h.lt_length]
  rfl

theorem accepted_op (h : Passes m id len s) : opOf (accepted m dt args s) m (mbReq s m).tag = some (opStarted (mbReq s m) args []) :=
  opOf_mbAccept (u := taken m dt s) h.lt_length _ _ _ h.opOf_tag

theorem accepted_reqrd (m dt : Nat) (args : List Nat) (s : State) : (accepted m dt args s).rd (Reg.MB_REQ_REQRD m) = (s.rd (Reg.MB_REQ_REQRD m) + 1) % 32 := taken_reqrd m dt s

theorem started_of_accepted (h : Passes m id len s) (hm : t.mboxes = (accepted m dt args s).mboxes) (hr : t.rd (Reg.MB_REQ_REQRD m) = (accepted m dt args s).rd (Reg.MB_REQ_REQRD m)) :
    started m args s t :=
  ⟨by rw [mbox_of_mboxes hm, accepted_backlog h], ⟨_, (opOf_of_mboxes hm m _).trans (accepted_op h), rfl, rfl⟩, hr.trans (accepted_reqrd m dt args s)⟩

/-- An operation that ends within its own step (R337). -/
theorem endedAtOnce_of_accepted (h : Passes m id len s) (hm : t.mboxes = (accepted m dt args s).mboxes) (k st : Nat) (pl : List Nat) :
    endedAtOnce m k st pl s (opEnd m (mbReq s m).tag k st pl t) := by
  refine ⟨?_, opOf_opEnd _ _ _ _ _ _⟩
  have hprog : b2n (bitOf (mbReq s m).flags 0 == 1) = (mbReq s m).flags % 2 := by
    rcases Nat.mod_two_eq_zero_or_one (mbReq s m).flags with h | h <;> simp [bitOf, b2n, h]
  rw [opEnd_backlog ((opOf_of_mboxes hm m _).trans (accepted_op h)), mbox_of_mboxes hm, accepted_backlog h, List.append_assoc]
  simp [endedRec, opStarted, hprog]

theorem accepted_changesOnly {fs : List Field} {ps : List Piece} (hf : Reg.MB_REQ_REQRD m ∈ fs) (hp : sub [.regs, .mbLast, .flight] (.regs :: .com :: ps) = true) (hb : Piece.mboxes ∈ ps) :
    changesOnly fs ps (s.pass dt) (accepted m dt args s) := changesOnly_mbAccept (taken_changesOnly hf hp) hb _ _ _ _

end

/-! ### Commands (R334, R337) -/

section
variable {c : Instr} {m id len dt : Nat} {s : State} {lenOk : Nat → Bool} {long : Bool} {body : MbReq → State → State}

theorem cmdRun_passes (h : Passes m id len s) (hl : lenOk len = true) : cmdRun m lenOk long body (s.pass dt) = body (mbReq s m) (taken m dt s) := by
  have hnone : mbRefusal (taken m dt s) m (mbReq s m) (lenOk (mbReq s m).len) long = none := by rw [h.length, hl]; exact h.mbRefusal_none long
  change (match mbRefusal (taken m dt s) m (mbReq s m) (lenOk (mbReq s m).len) long with | some st => mbResult m (mbReq s m) st [] (taken m dt s) | none => body (mbReq s m) (taken m dt s)) = _
  rw [hnone]

/-- A command whose request passes the general checks does what its body does. -/
theorem completes_cmdRun {P : State → Prop} (hc : exec c s = .next (onlyIf (cmdOk m id (s.pass dt)) (cmdRun m lenOk long body (s.pass dt)) (s.pass dt))) (h : requestOk m id len s = true)
    (hl : lenOk len = true) (hP : P (body (mbReq s m) (taken m dt s))) : completes c s P := by
  have hpass := passes_of_requestOk h
  refine completes_of_onlyIf hc hpass.turn ?_
  rwa [cmdRun_passes hpass hl]

/-- The same for a short command of fixed length. -/
theorem completes_short {P : State → Prop} (hc : exec c s = .next (onlyIf (cmdOk m id (s.pass dt)) (shortCmd m len body (s.pass dt)) (s.pass dt))) (h : requestOk m id len s = true)
    (hP : P (body (mbReq s m) (taken m dt s))) : completes c s P :=
  completes_cmdRun (lenOk := fun l => l == len) (long := false) (body := body) hc h (beq_self_eq_true len) hP

/-- The same for a long command. -/
theorem completes_long {P : State → Prop} (hc : exec c s = .next (onlyIf (cmdOk m id (s.pass dt)) (longCmd m len body (s.pass dt)) (s.pass dt))) (h : requestOk m id len s = true)
    (hP : P (body (mbReq s m) (taken m dt s))) : completes c s P :=
  completes_cmdRun (lenOk := fun l => l == len) (long := true) (body := body) hc h (beq_self_eq_true len) hP

end

end Sys2Proof.Machine
end

section
/-!
SUPPORT. The general checks of a request and the mailbox buffers (R337, R338, R343 to R345).
-/
namespace Sys2Proof.Machine

/-! ### The general checks (R337, R338, R344) -/

/-- A command of fixed length is a body behind the general checks. -/
theorem exec_of_mbRequest {c : Instr} {m id len dt : Nat} {long : Bool} (h : mbRequest c = some (m, id, len, long, dt)) (s : State) :
    ∃ body, exec c s = .next (onlyIf (cmdOk m id (s.pass dt)) ((cond long longCmd shortCmd) m len body (s.pass dt)) (s.pass dt)) := by
  cases c <;> cases h <;> exact ⟨_, rfl⟩

theorem mbRequest_refused (c : Instr) (m id len st dt : Nat) (long : Bool) (s : State) (hc : mbRequest c = some (m, id, len, long, dt)) (hok : cmdOk m id s = true) (hboxes : s.mboxes.length = 4)
    (hst : mbRefusal s m (mbReq s m) ((mbReq s m).len == len) long = some st) :
    completes c s (fun t => replied m st [] s t ∧ changesOnly [Reg.MB_REQ_REQRD m] [.mboxes, .mbLast, .flight] (s.pass dt) t) := by
  obtain ⟨body, hexec⟩ := exec_of_mbRequest hc s
  have hrun : (cond long longCmd shortCmd) m len body (s.pass dt) = mbResult m (mbReq s m) st [] (taken m dt s) := by
    rw [show (cond long longCmd shortCmd) m len body (s.pass dt) = cmdRun m (fun l => l == len) long body (s.pass dt) by cases long <;> rfl]
    change (match mbRefusal (taken m dt s) m (mbReq s m) ((mbReq s m).len == len) long with
      | some st => mbResult m (mbReq s m) st [] (taken m dt s) | none => body (mbReq s m) (taken m dt s)) = _
    rw [show mbRefusal (taken m dt s) m (mbReq s m) ((mbReq s m).len == len) long = some st from hst]
  refine completes_of_onlyIf hexec hok ?_
  rw [hrun]
  exact mbResult_taken ((lt_of_cmdOk hok).trans_eq hboxes.symm) dt st []

section
variable (m len : Nat) (long : Bool) (s : State)

theorem mbRefusal_badLen (h : 240 < (mbReq s m).len ∨ (mbReq s m).len ≠ len) : mbRefusal s m (mbReq s m) ((mbReq s m).len == len) long = some 2 := by
  refine if_pos (h.imp_right fun hne => ?_)
  simp [hne]

variable (hlen : (mbReq s m).len = len) (hshort : len ≤ 240)
include hlen hshort

theorem mbRefusal_of_length : mbRefusal s m (mbReq s m) ((mbReq s m).len == len) long =
    if 1 < (mbReq s m).flags then some 3 else if (mbReq s m).tag = 0 then some 4 else if (mbox s m).ops.any (fun o => o.tag == (mbReq s m).tag) then some 5
    else if long && decide (8 ≤ (mbox s m).ops.length) then some 6 else none := by
  refine if_neg ?_
  simp [hlen, hshort]

theorem mbRefusal_badFlags (hflags : 1 < (mbReq s m).flags) : mbRefusal s m (mbReq s m) ((mbReq s m).len == len) long = some 3 := by
  rw [mbRefusal_of_length m len long s hlen hshort, if_pos hflags]

variable (hflags : (mbReq s m).flags ≤ 1)
include hflags

theorem mbRefusal_badTag (htag : (mbReq s m).tag = 0) : mbRefusal s m (mbReq s m) ((mbReq s m).len == len) long = some 4 := by
  rw [mbRefusal_of_length m len long s hlen hshort, if_neg (Nat.not_lt.2 hflags), if_pos htag]

variable (htag : (mbReq s m).tag ≠ 0)
include htag

theorem mbRefusal_tagBusy (hbusy : (mbox s m).ops.any (fun o => o.tag == (mbReq s m).tag) = true) : mbRefusal s m (mbReq s m) ((mbReq s m).len == len) long = some 5 := by
  rw [mbRefusal_of_length m len long s hlen hshort, if_neg (Nat.not_lt.2 hflags), if_neg htag, if_pos hbusy]

omit long in
theorem mbRefusal_busy (hfree : (mbox s m).ops.any (fun o => o.tag == (mbReq s m).tag) = false) (hfull : 8 ≤ (mbox s m).ops.length) :
    mbRefusal s m (mbReq s m) ((mbReq s m).len == len) true = some 6 := by
  rw [mbRefusal_of_length m len true s hlen hshort, if_neg (Nat.not_lt.2 hflags), if_neg htag, hfree]
  simp [hfull]

end

/-! ### Buffers (R343, R345) -/

/-- The bytes of a new buffer are free values. -/
def bufOpened (h n : Nat) (s : State) : MbBuf := MbBuf.mk h ((List.range n).map (fun i => s.freeAt i % 256))

/-- The buffer has joined those of its mailbox. -/
def bufJoined (m n : Nat) (b : MbBuf) (s : State) : State := mbModify m (fun x => { x with bufs := x.bufs ++ [b] }) (s.drawn n)

theorem bufOf_bufJoined {m n : Nat} {b : MbBuf} {s : State} (hm : m < s.mboxes.length) (hnew : bufOf s m b.handle = none) : bufOf (bufJoined m n b s) m b.handle = some b.data := by
  rw [bufOf, Option.map_eq_none_iff] at hnew
  have hjoined := mbox_mbModify_same (s := s.drawn n) (fun x => { x with bufs := x.bufs ++ [b] }) hm
  rw [bufOf, bufJoined, hjoined, List.find?_append, show (mbox (s.drawn n) m).bufs.find? (fun x => x.handle == b.handle) = none from hnew]
  simp

theorem changesOnly_bufJoined {fs : List Field} {ps : List Piece} {z s : State} (h : changesOnly fs ps z s) (hb : Piece.mboxes ∈ ps) (hf : Piece.freeCtr ∈ ps) (m n : Nat) (b : MbBuf) :
    changesOnly fs ps z (bufJoined m n b s) :=
  changesOnly_mbModify (s := s.drawn n) ⟨fieldsOnly_same h.1 rfl rfl, State.drawn_parts s n z h.2 (by simp [sub, hf])⟩ hb _ _

section
variable (m : Nat)

theorem bufOpen_opens (h n dt : Nat) (s : State) (hr : requestOk m 0x0010 4 s = true) (hn : n = (mbReq s m).at_ 0 4) (hlo : 1 ≤ n) (hhi : n ≤ 16384)
    (hh : [1, 2].find? (fun h => (bufOf s m h).isNone) = some h) :
    completes (.bufOpen m dt) s (fun t => replied m 0 [h] s t ∧ (bufOf t m h).map List.length = some n ∧ changesOnly [Reg.MB_REQ_REQRD m] [.mboxes, .mbLast, .flight, .freeCtr] (s.pass dt) t) := by
  subst hn
  have hm := (passes_of_requestOk hr).lt_length
  have hsize : ¬ ((mbReq s m).at_ 0 4 = 0 ∨ 16384 < (mbReq s m).at_ 0 4) := by omega
  have hnew : bufOf s m h = none := by simpa using List.find?_some hh
  refine completes_short rfl hr ?_
  simp only [if_neg hsize, bufOf_taken, hh]
  set b := bufOpened h ((mbReq s m).at_ 0 4) (taken m dt s) with hb
  have htook : Took m s (bufJoined m ((mbReq s m).at_ 0 4) b (taken m dt s)) := took_mbModify (u := (taken m dt s).drawn _) (took_of_same (took_taken hm dt) rfl rfl) (fun _ => rfl)
  refine ⟨replied_mbResult htook _ _, ?_, changesOnly_mbModify (changesOnly_bufJoined (taken_changesOnly (by simp) rfl) (by simp) (by simp) m _ b) (by simp) _ _⟩
  have hopen : bufOf (bufJoined m ((mbReq s m).at_ 0 4) b (taken m dt s)) m h = some b.data := bufOf_bufJoined (s := taken m dt s) (b := b) hm hnew
  rw [mbResult]
  refine (congrArg (Option.map List.length) ((bufOf_mbPush _ htook.lt h).trans hopen)).trans ?_
  simp [hb, bufOpened]

theorem bufOpen_full (n dt : Nat) (s : State) (hr : requestOk m 0x0010 4 s = true) (hn : n = (mbReq s m).at_ 0 4) (hlo : 1 ≤ n) (hhi : n ≤ 16384) (h1 : (bufOf s m 1).isSome = true)
    (h2 : (bufOf s m 2).isSome = true) :
    completes (.bufOpen m dt) s (fun t => replied m 0x000F [] s t ∧ changesOnly [Reg.MB_REQ_REQRD m] [.mboxes, .mbLast, .flight] (s.pass dt) t) := by
  subst hn
  have hsize : ¬ ((mbReq s m).at_ 0 4 = 0 ∨ 16384 < (mbReq s m).at_ 0 4) := by omega
  have hnone : [1, 2].find? (fun h => (bufOf s m h).isNone) = none := by
    rw [Option.isSome_iff_ne_none] at h1 h2
    simp [h1, h2]
  refine completes_short rfl hr ?_
  simp only [if_neg hsize, bufOf_taken, hnone]
  exact mbResult_taken (passes_of_requestOk hr).lt_length dt _ _

theorem bufOpen_badSize (n dt : Nat) (s : State) (hr : requestOk m 0x0010 4 s = true) (hn : n = (mbReq s m).at_ 0 4) (hsize : n = 0 ∨ 16384 < n) :
    completes (.bufOpen m dt) s (fun t => replied m 7 [] s t ∧ changesOnly [Reg.MB_REQ_REQRD m] [.mboxes, .mbLast, .flight] (s.pass dt) t) := by
  subst hn
  refine completes_short rfl hr ?_
  simp only [if_pos hsize]
  exact mbResult_taken (passes_of_requestOk hr).lt_length dt _ _

theorem bufWrite_writes (len dt : Nat) (b d : List Nat) (s : State) (hr : requestOk m 0x0011 len s = true) (hlen : 4 ≤ len) (hd : d = (mbReq s m).data.drop 4)
    (hb : bufOf s m ((mbReq s m).at_ 0 1) = some b) (hfit : (mbReq s m).at_ 2 2 + d.length ≤ b.length) (hfree : bufHeld s m ((mbReq s m).at_ 0 1) = false) :
    completes (.bufWrite m dt) s (fun t => replied m 0 [] s t ∧ bufOf t m ((mbReq s m).at_ 0 1) = some (setBytes b ((mbReq s m).at_ 2 2) d) ∧
      changesOnly [Reg.MB_REQ_REQRD m] [.mboxes, .mbLast, .flight] (s.pass dt) t) := by
  subst hd
  have hm := (passes_of_requestOk hr).lt_length
  refine completes_cmdRun rfl hr (decide_eq_true hlen) ?_
  simp only [bufOf_taken, hb, if_neg (Nat.not_lt.2 hfit), bufHeld_taken, hfree, Bool.false_eq_true, if_false]
  have htook : Took m s (bufPut m ((mbReq s m).at_ 0 1) (setBytes b ((mbReq s m).at_ 2 2) ((mbReq s m).data.drop 4)) (taken m dt s)) := took_mbModify (took_taken hm dt) (fun _ => rfl)
  refine ⟨replied_mbResult htook _ _, ?_, changesOnly_mbModify (changesOnly_mbModify (taken_changesOnly (by simp) rfl) (by simp) _ _) (by simp) _ _⟩
  rw [mbResult, bufOf_mbPush _ htook.lt]
  exact bufOf_bufPut (s := taken m dt s) hm hb _

theorem bufWrite_beyond (len dt : Nat) (b : List Nat) (s : State) (hr : requestOk m 0x0011 len s = true) (hlen : 4 ≤ len) (hb : bufOf s m ((mbReq s m).at_ 0 1) = some b)
    (hover : b.length < (mbReq s m).at_ 2 2 + ((mbReq s m).data.drop 4).length) :
    completes (.bufWrite m dt) s (fun t => replied m 7 [] s t ∧ changesOnly [Reg.MB_REQ_REQRD m] [.mboxes, .mbLast, .flight] (s.pass dt) t) := by
  refine completes_cmdRun rfl hr (decide_eq_true hlen) ?_
  simp only [bufOf_taken, hb, if_pos hover]
  exact mbResult_taken (passes_of_requestOk hr).lt_length dt _ _

theorem bufRead_reads (dt : Nat) (b : List Nat) (s : State) (hr : requestOk m 0x0012 6 s = true) (hb : bufOf s m ((mbReq s m).at_ 0 1) = some b) (hn : (mbReq s m).at_ 4 2 ≤ 240)
    (hfit : (mbReq s m).at_ 2 2 + (mbReq s m).at_ 4 2 ≤ b.length) :
    completes (.bufRead m dt) s (fun t => replied m 0 ((b.drop ((mbReq s m).at_ 2 2)).take ((mbReq s m).at_ 4 2)) s t ∧
      changesOnly [Reg.MB_REQ_REQRD m] [.mboxes, .mbLast, .flight] (s.pass dt) t) := by
  have hin : ¬ (240 < (mbReq s m).at_ 4 2 ∨ b.length < (mbReq s m).at_ 2 2 + (mbReq s m).at_ 4 2) := by omega
  refine completes_short rfl hr ?_
  simp only [bufOf_taken, hb, if_neg hin]
  exact mbResult_taken (passes_of_requestOk hr).lt_length dt _ _

variable (dt : Nat) (b : List Nat) (s : State) (hr : requestOk m 0x0013 1 s = true) (hb : bufOf s m ((mbReq s m).at_ 0 1) = some b)
include hr hb

theorem bufClose_closes (hfree : bufHeld s m ((mbReq s m).at_ 0 1) = false) :
    completes (.bufClose m dt) s (fun t => replied m 0 [] s t ∧ bufOf t m ((mbReq s m).at_ 0 1) = none ∧ changesOnly [Reg.MB_REQ_REQRD m] [.mboxes, .mbLast, .flight] (s.pass dt) t) := by
  have hm := (passes_of_requestOk hr).lt_length
  refine completes_short rfl hr ?_
  simp only [bufOf_taken, hb, Option.isNone_some, bufHeld_taken, hfree, Bool.false_eq_true, if_false]
  have htook : Took m s (mbModify m (fun x => { x with bufs := x.bufs.filter (fun y => !(y.handle == (mbReq s m).at_ 0 1)) }) (taken m dt s)) := took_mbModify (took_taken hm dt) (fun _ => rfl)
  refine ⟨replied_mbResult htook _ _, ?_, changesOnly_mbModify (changesOnly_mbModify (taken_changesOnly (by simp) rfl) (by simp) _ _) (by simp) _ _⟩
  rw [mbResult, bufOf_mbPush _ htook.lt, bufOf, mbox_mbModify_same (s := taken m dt s) _ hm, Option.map_eq_none_iff, List.find?_eq_none]
  intro y hy
  simpa using (List.mem_filter.1 hy).2

theorem bufClose_held (hheld : bufHeld s m ((mbReq s m).at_ 0 1) = true) :
    completes (.bufClose m dt) s (fun t => replied m 0x0010 [] s t ∧ changesOnly [Reg.MB_REQ_REQRD m] [.mboxes, .mbLast, .flight] (s.pass dt) t) := by
  refine completes_short rfl hr ?_
  simp only [bufOf_taken, hb, Option.isNone_some, bufHeld_taken, hheld, Bool.false_eq_true, if_false, if_true]
  exact mbResult_taken (passes_of_requestOk hr).lt_length dt _ _

end

end Sys2Proof.Machine

open Sys2Proof Sys2Proof.Machine

/-- Settles O33: each refusal, and each command of a buffer, by its own lemma. -/
theorem mailboxRefusalsAndBuffers : Obligations.MailboxRefusalsAndBuffers := by
  unfold Obligations.MailboxRefusalsAndBuffers
  exact ⟨mbRequest_refused, mbRefusal_badLen, mbRefusal_badFlags, mbRefusal_badTag, mbRefusal_tagBusy, mbRefusal_busy, bufOpen_opens, bufOpen_full, bufOpen_badSize, bufWrite_writes, bufWrite_beyond,
    bufRead_reads, bufClose_closes, bufClose_held⟩
end

section
/-!
SUPPORT. Records that move into the response ring, and live operations that report, are suspended, resumed, cancelled or flushed (R334, R336, R337, R339, R340, R342).
-/
namespace Sys2Proof.Machine

/-! ### Records on their way (R334, R336, R337) -/

theorem stBytes_mem (addr : Nat) (bytes : List Nat) (s : State) : (s.stBytes addr bytes).mem = memWrBytes s.mem addr bytes := rfl

/-- The oldest record has left the backlog; a terminal one takes its operation with it. -/
def recordLeft (m : Nat) (r : MbRec) (rest : List MbRec) (s : State) : State :=
  mbModify m (fun b => { b with backlog := rest, ops := if rkTerminal r.rkind then b.ops.filter (fun o => !(o.tag == r.tag && o.ended)) else b.ops }) s

/-- A record stands in its ring. -/
def recordIn (m : Nat) (r : MbRec) (rest : List MbRec) (s : State) : State :=
  (((recordLeft m r rest s).stBytes (rspSlot m (s.rd (Reg.MB_RSP_RSPWR m))) (recBytesOf r)).wr (Reg.MB_RSP_RSPWR m) ((s.rd (Reg.MB_RSP_RSPWR m) + 1) % 32)).raise (136 + m)

theorem stBytes_mboxes (addr : Nat) (bytes : List Nat) (s : State) : (s.stBytes addr bytes).mboxes = s.mboxes := rfl

theorem recordIn_mboxes (m : Nat) (r : MbRec) (rest : List MbRec) (s : State) : (recordIn m r rest s).mboxes = (recordLeft m r rest s).mboxes := by
  rw [recordIn, State.raise_mboxes, State.wr_mboxes, stBytes_mboxes]

theorem mbox_recordIn {m : Nat} {s : State} (r : MbRec) (rest : List MbRec) (hm : m < s.mboxes.length) :
    (mbox (recordIn m r rest s) m).backlog = rest ∧ (mbox (recordIn m r rest s) m).lost = (mbox s m).lost := by
  rw [mbox_of_mboxes (recordIn_mboxes m r rest s), recordLeft, mbox_mbModify_same _ hm]
  exact ⟨rfl, rfl⟩

theorem recordIn_rspwr (m : Nat) (r : MbRec) (rest : List MbRec) (s : State) : (recordIn m r rest s).rd (Reg.MB_RSP_RSPWR m) = (s.rd (Reg.MB_RSP_RSPWR m) + 1) % 32 := by
  rw [recordIn, State.rd_raise, State.rd_wr_same]
  exact Nat.mod_mod _ _

theorem recordIn_mem (m : Nat) (r : MbRec) (rest : List MbRec) (s : State) : (recordIn m r rest s).mem = memWrBytes s.mem (rspSlot m (s.rd (Reg.MB_RSP_RSPWR m))) (recBytesOf r) := by
  rw [recordIn, State.raise_mem, State.wr_mem, stBytes_mem]
  exact congrArg (fun mem => memWrBytes mem (rspSlot m (s.rd (Reg.MB_RSP_RSPWR m))) (recBytesOf r)) (rfl : (recordLeft m r rest s).mem = s.mem)

theorem recordIn_changesOnly (m : Nat) (r : MbRec) (rest : List MbRec) (s : State) : changesOnly [Reg.MB_RSP_RSPWR m] [.mboxes, .mem, .flight] s (recordIn m r rest s) := by
  have hleft : changesOnly [Reg.MB_RSP_RSPWR m] [.mboxes, .mem, .flight] s (recordLeft m r rest s) := changesOnly_mbModify (changesOnly_refl _ _ s) (by simp) _ _
  obtain ⟨hfields, hparts⟩ := hleft
  refine ⟨fieldsOnly_raise (fieldsOnly_wr ?_ _ List.mem_cons_self), State.raise_parts _ _ _ (wr_parts _ _ _ (stBytes_parts _ _ _ hparts rfl) rfl) rfl⟩
  exact fieldsOnly_same hfields rfl rfl

theorem recordPost_eq {m : Nat} {r : MbRec} {rest : List MbRec} {s : State} (hm : m < s.mboxes.length) (hb : (mbox s m).backlog = r :: rest) (hl : (mbox s m).lost = 0) :
    recordPost m s = recordIn m r rest s := by
  have hlost : (mbox (recordIn m r rest s) m).lost = 0 := (mbox_recordIn r rest hm).2.trans hl
  have hstep : recordPost m s = lostNotice m (recordIn m r rest s) := by
    unfold recordPost
    rw [hb]
    rfl
  rw [hstep]
  exact if_pos (.inl hlost)

theorem recordPost_posts (m dt : Nat) (r : MbRec) (rest : List MbRec) (s : State) (hok : recordPostOk m (s.pass dt) = true) (hb : (mbox s m).backlog = r :: rest) (hl : (mbox s m).lost = 0)
    (hboxes : s.mboxes.length = 4) :
    completes (.recordPost m dt) s (fun t => (mbox t m).backlog = rest ∧ t.rd (Reg.MB_RSP_RSPWR m) = (s.rd (Reg.MB_RSP_RSPWR m) + 1) % 32 ∧ t.flight = s.flight ++ [136 + m] ∧
      t.mem = memWrBytes s.mem (rspSlot m (s.rd (Reg.MB_RSP_RSPWR m))) (recBytesOf r) ∧ changesOnly [Reg.MB_RSP_RSPWR m] [.mboxes, .mem, .flight] (s.pass dt) t) := by
  have hm : m < (s.pass dt).mboxes.length := by
    simp only [recordPostOk, Bool.and_eq_true, decide_eq_true_eq] at hok
    exact hok.1.1.1.1.1.trans_eq hboxes.symm
  refine completes_of_onlyIf rfl hok ?_
  rw [recordPost_eq hm hb hl]
  exact ⟨(mbox_recordIn r rest hm).1, recordIn_rspwr m r rest (s.pass dt), rfl, recordIn_mem m r rest (s.pass dt), recordIn_changesOnly m r rest (s.pass dt)⟩

theorem progressRecord_reports (m tag dt : Nat) (o : LiveOp) (s : State) (_ : m < 4) (hok : progressRecordOk m tag (s.pass dt) = true) (ho : opOf s m tag = some o) (_ : s.mboxes.length = 4)
    (hroom : mbShared (mbox s m) < 24) :
    completes (.progressRecord m tag dt) s (fun t => (mbox t m).backlog = (mbox s m).backlog ++ [MbRec.mk o.cmd tag 1 2 0 (min 100 o.done) []] ∧
      opOf t m tag = some { o with lastProg := some (s.elapsed + dt) } ∧ changesOnly [] [.mboxes] (s.pass dt) t) := by
  have ho' : opOf (s.pass dt) m tag = some o := ho
  have hm := lt_length_of_opOf ho'
  have hprog : o.prog = true := by
    simp only [progressRecordOk, ho', Bool.and_eq_true] at hok
    exact hok.1.1
  refine completes_of_onlyIf rfl hok ?_
  set u := opMod m tag (fun x => { x with lastProg := some (s.elapsed + dt) }) (s.pass dt) with hu
  have hum : m < u.mboxes.length := hm.trans_eq (mbModify_mboxes_length _ _ _).symm
  have hbox : (mbox u m).backlog = (mbox s m).backlog := by
    rw [hu, opMod, mbox_mbModify_same _ hm]
    rfl
  have hrun : progressRecord m tag (s.pass dt) = mbPush m (MbRec.mk o.cmd tag 1 2 0 (min 100 o.done) []) u := by
    simp only [progressRecord, ho', hprog, if_pos (show mbShared (mbox (s.pass dt) m) < 24 from hroom)]
    rfl
  rw [hrun]
  refine ⟨by rw [mbox_mbPush _ hum, hbox], ?_, changesOnly_mbModify (changesOnly_mbModify (changesOnly_refl _ _ _) (by simp) _ _) (by simp) _ _⟩
  rw [opOf_mbPush _ hum]
  exact opOf_opMod ho' _ fun _ => ⟨rfl, rfl⟩

/-! ### Suspend and resume (R339) -/

theorem opOf_own_tag {m tag : Nat} {o : LiveOp} {s : State} (h : opOf s m tag = some o) : opOf s m o.tag = some o := by
  rw [(tag_of_opOf h).1]
  exact h

/-- A dispatch settles where there is one. -/
theorem dispSettle_of_nil {s : State} (h : s.co.disps = []) : dispSettle s = s := by rw [dispSettle, h, List.foldl_nil]

section
variable (m dt : Nat) (o : LiveOp) (s : State)

theorem suspend_suspends (hr : requestOk m 0x0001 2 s = true) (ho : opOf s m ((mbReq s m).at_ 0 2) = some o) (hrun : o.suspended = none) (hs : suspendable o.cmd = true) :
    completes (.suspend m dt) s (fun t => replied m 0 [] s t ∧ opOf t m o.tag = some { o with suspended := some (s.elapsed + dt) } ∧
      changesOnly [Reg.MB_REQ_REQRD m] [.mboxes, .mbLast, .flight] (s.pass dt) t) := by
  have hm := (passes_of_requestOk hr).lt_length
  refine completes_short rfl hr ?_
  simp only [opOf_taken, ho, hrun, Option.isSome_none, hs, Bool.not_true, Bool.false_eq_true, if_false]
  set u := opMod m o.tag (fun x => { x with suspended := some (taken m dt s).elapsed }) (taken m dt s)
  have htook : Took m s u := took_mbModify (took_taken hm dt) (fun _ => rfl)
  refine ⟨replied_mbResult htook _ _, ?_, changesOnly_mbModify (changesOnly_mbModify (taken_changesOnly (by simp) rfl) (by simp) _ _) (by simp) _ _⟩
  rw [mbResult, opOf_mbPush _ htook.lt]
  exact opOf_opMod (s := taken m dt s) (opOf_own_tag ho) _ fun _ => ⟨rfl, rfl⟩

theorem suspend_unsuspendable (hr : requestOk m 0x0001 2 s = true) (ho : opOf s m ((mbReq s m).at_ 0 2) = some o) (hrun : o.suspended = none) (hs : suspendable o.cmd = false) :
    completes (.suspend m dt) s (fun t => replied m 0x000C [] s t ∧ changesOnly [Reg.MB_REQ_REQRD m] [.mboxes, .mbLast, .flight] (s.pass dt) t) := by
  refine completes_short rfl hr ?_
  simp only [opOf_taken, ho, hrun, Option.isSome_none, hs, Bool.not_false, Bool.false_eq_true, if_false, if_true]
  exact mbResult_taken (passes_of_requestOk hr).lt_length dt _ _

theorem resume_running (hr : requestOk m 0x0002 2 s = true) (ho : opOf s m ((mbReq s m).at_ 0 2) = some o) (hrun : o.suspended = none) :
    completes (.resume m dt) s (fun t => replied m 0x000D [] s t ∧ changesOnly [Reg.MB_REQ_REQRD m] [.mboxes, .mbLast, .flight] (s.pass dt) t) := by
  refine completes_short rfl hr ?_
  simp only [opOf_taken, ho, hrun, Option.isNone_none, if_true]
  exact mbResult_taken (passes_of_requestOk hr).lt_length dt _ _

theorem resume_resumes (hr : requestOk m 0x0002 2 s = true) (ho : opOf s m ((mbReq s m).at_ 0 2) = some o) (hheld : o.suspended.isSome = true) (hdisps : s.co.disps = []) :
    completes (.resume m dt) s (fun t => replied m 0 [] s t ∧ opOf t m o.tag = some { o with suspended := none }) := by
  have hm := (passes_of_requestOk hr).lt_length
  have hsome : o.suspended.isNone = false := by simpa using hheld
  refine completes_short rfl hr ?_
  simp only [opOf_taken, ho, hsome, Bool.false_eq_true, if_false]
  set u := opMod m o.tag (fun x => { x with suspended := none }) (taken m dt s)
  have htook : Took m s u := took_mbModify (took_taken hm dt) (fun _ => rfl)
  rw [dispSettle_of_nil (show (mbResult m (mbReq s m) Rc.OK [] u).co.disps = [] from hdisps)]
  refine ⟨replied_mbResult htook _ _, ?_⟩
  rw [mbResult, opOf_mbPush _ htook.lt]
  exact opOf_opMod (s := taken m dt s) (opOf_own_tag ho) _ fun _ => ⟨rfl, rfl⟩

end

theorem notLive_refused (c : Nat → Nat → Instr) (id m dt : Nat) (s : State) (hc : (c, id) ∈ [(Instr.suspend, 1), (Instr.resume, 2), (Instr.cancel, 3)]) (hr : requestOk m id 2 s = true)
    (ho : opOf s m ((mbReq s m).at_ 0 2) = none) :
    completes (c m dt) s (fun t => replied m 0x000B [] s t ∧ changesOnly [Reg.MB_REQ_REQRD m] [.mboxes, .mbLast, .flight] (s.pass dt) t) := by
  have hanswer := mbResult_taken (passes_of_requestOk hr).lt_length dt Rc.NOTLIVE []
  simp only [List.mem_cons, Prod.mk.injEq, List.not_mem_nil, or_false] at hc
  obtain ⟨rfl, rfl⟩ | ⟨rfl, rfl⟩ | ⟨rfl, rfl⟩ := hc <;> refine completes_short rfl hr ?_ <;> simp only [opOf_taken, ho] <;> exact hanswer

/-! ### Cancel (R339, R340) -/

/-- What a cancelled operation leaves undone lies outside the mailboxes. -/
theorem opUndo_mboxes (m : Nat) (o : LiveOp) (s : State) : (opUndo m o s).mboxes = s.mboxes :=
  opUndo_parts m o s s (partsOnly_refl [.regs, .upd, .co, .lnk, .mir] s) rfl .mboxes (by decide)

/-- A cancelled operation lives no more, and its record is the newest. -/
theorem opCancel_ends {m : Nat} {o : LiveOp} {s : State} (ho : opOf s m o.tag = some o) (st : Nat) :
    opOf (opCancel m o st s) m o.tag = none ∧ (mbox (opCancel m o st s) m).backlog = (mbox s m).backlog ++ [MbRec.mk o.cmd o.tag (b2n o.prog) 5 st 0 []] := by
  have hundo := opUndo_mboxes m o s
  exact ⟨opOf_opEnd _ _ _ _ _ _, by rw [opCancel, opEnd_backlog ((opOf_of_mboxes hundo m _).trans ho), mbox_of_mboxes hundo]⟩

theorem cancel_cancels (m dt : Nat) (o : LiveOp) (s : State) (hr : requestOk m 0x0003 2 s = true) (ho : opOf s m ((mbReq s m).at_ 0 2) = some o)
    (hcan : o.suspended.isSome = true ∨ beforeCancel (s.pass dt) o = true) :
    completes (.cancel m dt) s (fun t => opOf t m o.tag = none ∧ (mbox t m).backlog = (mbox s m).backlog ++
      [MbRec.mk (mbReq s m).cmd (mbReq s m).tag (mbReq s m).flags 0 0 0 [], MbRec.mk o.cmd o.tag (b2n o.prog) 5 0 0 []]) := by
  have htook := took_taken (passes_of_requestOk hr).lt_length dt
  have hcan' : (o.suspended.isSome || beforeCancel (taken m dt s) o) = true := Bool.or_eq_true_iff.2 hcan
  refine completes_short rfl hr ?_
  simp only [opOf_taken, ho, hcan', if_true]
  have ho' : opOf (mbResult m (mbReq s m) Rc.OK [] (taken m dt s)) m o.tag = some o := (opOf_mbPush _ htook.lt _).trans (opOf_own_tag ho)
  obtain ⟨hended, hbacklog⟩ := opCancel_ends ho' Rc.OK
  refine ⟨hended, ?_⟩
  rw [hbacklog, (replied_mbResult htook Rc.OK []).1, List.append_assoc]
  rfl

theorem cancel_tooLate (m dt : Nat) (o : LiveOp) (s : State) (hr : requestOk m 0x0003 2 s = true) (ho : opOf s m ((mbReq s m).at_ 0 2) = some o) (hrun : o.suspended = none)
    (hlate : beforeCancel (s.pass dt) o = false) :
    completes (.cancel m dt) s (fun t => replied m 0x000E [] s t ∧ changesOnly [Reg.MB_REQ_REQRD m] [.mboxes, .mbLast, .flight] (s.pass dt) t) := by
  have hcannot : (o.suspended.isSome || beforeCancel (taken m dt s) o) = false := Bool.or_eq_false_iff.2 ⟨by rw [hrun]; rfl, hlate⟩
  refine completes_short rfl hr ?_
  simp only [opOf_taken, ho, hcannot, Bool.false_eq_true, if_false]
  exact mbResult_taken (passes_of_requestOk hr).lt_length dt _ _

theorem suspendTimeout_cancels (m tag dt : Nat) (o : LiveOp) (s : State) (_ : m < 4) (hok : suspendTimeoutOk m tag (s.pass dt) = true) (ho : opOf s m tag = some o) (_ : s.mboxes.length = 4) :
    completes (.suspendTimeout m tag dt) s (fun t => opOf t m tag = none ∧ (mbox t m).backlog = (mbox s m).backlog ++ [MbRec.mk o.cmd tag (b2n o.prog) 5 0x0011 0 []]) := by
  obtain ⟨rfl, -⟩ := tag_of_opOf ho
  have hrun : suspendTimeout m o.tag (s.pass dt) = opCancel m o Rc.TIMEOUT (s.pass dt) := by
    rw [suspendTimeout, show opOf (s.pass dt) m o.tag = some o from ho]
  refine completes_of_onlyIf rfl hok ?_
  rw [hrun]
  exact opCancel_ends (s := s.pass dt) ho _

/-! ### Flush (R342) -/

/-- The operations that a flush cancels are undone. -/
def opsUndone (m : Nat) (s : State) : State :=
  (mbox s m).ops.foldl (fun t o => if !o.ended && (o.suspended.isSome || beforeCancel t o) then opUndo m o t else t) s

theorem opsUndone_mboxes (m : Nat) (s : State) : (opsUndone m s).mboxes = s.mboxes := by
  refine foldl_same State.mboxes _ _ _ fun t o => ?_
  split
  · exact opUndo_mboxes m o t
  · rfl

/-- A flushed mailbox stands as at reset. -/
def boxFlushed (m : Nat) (s : State) : State := mbModify m (fun _ => Mbox.reset) (mbForget m (opsUndone m s))

theorem flushDone_eq (m : Nat) (s : State) : flushDone m s = (((((boxFlushed m s).wr (Reg.MB_REQ_REQRD m) 0).wr (Reg.MB_REQ_REQWR m) 0).wr (Reg.MB_RSP_RSPWR m) 0).wr (Reg.MB_RSP_RSPRD m) 0).clr (Reg.MB_STAT_FLUSHING m) := rfl

theorem mbox_flushDone {m : Nat} {s : State} (hm : m < s.mboxes.length) : mbox (flushDone m s) m = Mbox.reset := by
  have hboxes : (mbForget m (opsUndone m s)).mboxes = s.mboxes := opsUndone_mboxes m s
  have hdone : (flushDone m s).mboxes = (boxFlushed m s).mboxes := rfl
  rw [mbox_of_mboxes hdone, boxFlushed, mbox_mbModify_same]
  exact hm.trans_eq (congrArg List.length hboxes.symm)

/-- Four pointers and the flag that a flush clears: fields of keys of their own, each written 0. -/
theorem flushDone_rd (m : Nat) (s : State) : ∀ f ∈ [Reg.MB_REQ_REQRD m, Reg.MB_REQ_REQWR m, Reg.MB_RSP_RSPWR m, Reg.MB_RSP_RSPRD m, Reg.MB_STAT_FLUSHING m], (flushDone m s).rd f = 0 := by
  intro f hf
  simp only [List.mem_cons, List.not_mem_nil, or_false] at hf
  simp only [flushDone_eq, State.rd_clr, State.rd_wr, Nat.zero_mod]
  rcases hf with rfl | rfl | rfl | rfl | rfl <;> simp

theorem flushDone_flushes (m dt : Nat) (s : State) (hm : m < 4) (hok : flushDoneOk m (s.pass dt) = true) (hboxes : s.mboxes.length = 4) :
    completes (.flushDone m dt) s (fun t => mbox t m = Mbox.reset ∧ t.rd (Reg.MB_REQ_REQRD m) = 0 ∧ t.rd (Reg.MB_REQ_REQWR m) = 0 ∧ t.rd (Reg.MB_RSP_RSPWR m) = 0 ∧ t.rd (Reg.MB_RSP_RSPRD m) = 0 ∧
      t.rd (Reg.MB_STAT_FLUSHING m) = 0) := by
  have hzero := flushDone_rd m (s.pass dt)
  refine completes_of_onlyIf rfl hok ⟨mbox_flushDone (s := s.pass dt) (hm.trans_eq hboxes.symm), hzero _ ?_, hzero _ ?_, hzero _ ?_, hzero _ ?_, hzero _ ?_⟩ <;> simp

/-! ### Commands that are not in the set (R344) -/

theorem unknownCommand_answers (m dt : Nat) (s : State) (hok : unknownCommandOk m (s.pass dt) = true) (hboxes : s.mboxes.length = 4) :
    completes (.unknownCommand m dt) s (fun t => replied m 1 [] s t ∧ changesOnly [Reg.MB_REQ_REQRD m] [.mboxes, .mbLast, .flight] (s.pass dt) t) := by
  have hm : m < 4 := by
    simp only [unknownCommandOk, Bool.and_eq_true, beq_iff_eq] at hok
    exact lt_of_mbTurn hok.1
  exact completes_of_onlyIf rfl hok (mbResult_taken (hm.trans_eq hboxes.symm) dt 1 [])

end Sys2Proof.Machine

open Sys2Proof Sys2Proof.Machine

/-- Settles O34: each record and each change of a live operation by its own lemma. -/
theorem mailboxOperations : Obligations.MailboxOperations := by
  unfold Obligations.MailboxOperations
  exact ⟨recordPost_posts, progressRecord_reports, suspend_suspends, suspend_unsuspendable, notLive_refused, resume_running, resume_resumes, cancel_cancels, cancel_tooLate, suspendTimeout_cancels,
    flushDone_flushes, unknownCommand_answers⟩
end

section
/-!
SUPPORT. The mailbox commands of the system, the network, time and the lamp (R345 to R349, R353, R354, R359).
-/
namespace Sys2Proof.Machine

/-! ### A change of one piece -/

section
variable {fs : List Field} {ps : List Piece} {z s t : State}

theorem changesOnly_piece {p : Piece} (h : changesOnly fs ps z s) (hr : t.regs = s.regs) (hc : t.com = s.com) (ht : partsOnly [p] s t) (hp : p ∈ ps) : changesOnly fs ps z t :=
  ⟨fieldsOnly_same h.1 hr hc, parts_step [p] h.2 ht (by simp [hp])⟩

theorem changesOnly_withLnk (h : changesOnly fs ps z s) (hp : Piece.lnk ∈ ps) (x : Lnk) : changesOnly fs ps z { s with lnk := x } :=
  changesOnly_piece h rfl rfl (by simp [partsOnly_refl]) hp

theorem changesOnly_withResetDue (h : changesOnly fs ps z s) (hp : Piece.resetDue ∈ ps) (x : Option Nat) : changesOnly fs ps z { s with resetDue := x } :=
  changesOnly_piece h rfl rfl (by simp [partsOnly_refl]) hp

theorem changesOnly_drawn (h : changesOnly fs ps z s) (hp : Piece.freeCtr ∈ ps) (n : Nat) : changesOnly fs ps z (s.drawn n) :=
  changesOnly_piece h rfl rfl (State.drawn_parts s n s (partsOnly_refl _ s) rfl) hp

end

/-! ### What a record leaves -/

section
variable (m : Nat) (r : MbReq) (st : Nat) (pl : List Nat) (s : State)

theorem mbResult_rd (f : Field) : (mbResult m r st pl s).rd f = s.rd f := rfl
theorem mbResult_rdC (f : Field) : (mbResult m r st pl s).rdC f = s.rdC f := rfl
theorem mbResult_firn : (mbResult m r st pl s).firn = s.firn := rfl
theorem mbResult_msh : (mbResult m r st pl s).msh = s.msh := rfl
theorem mbResult_co : (mbResult m r st pl s).co = s.co := rfl

variable {s} {t : State}

theorem rd_of_regs (h : t.regs = s.regs) (f : Field) : t.rd f = s.rd f := by rw [State.rd, h, State.rd]

end

/-! ### The system (R345) -/

theorem sysReset_waits (m dt : Nat) (s : State) (hdue : sysResetDue (s.pass dt) = false) (hr : requestOk m 0x0101 2 s = true) (hn : (mbReq s m).at_ 0 2 ≤ 10000) :
    completes (.sysReset m dt) s (fun t => replied m 0 [] s t ∧ t.resetDue = some (s.elapsed + dt + cycMs ((mbReq s m).at_ 0 2)) ∧
      changesOnly [Reg.MB_REQ_REQRD m] [.mboxes, .mbLast, .flight, .resetDue] (s.pass dt) t) := by
  have hexec : exec (.sysReset m dt) s = .next (onlyIf (cmdOk m 0x0101 (s.pass dt)) (sysResetCmd m (s.pass dt)) (s.pass dt)) := by
    change Host.Outcome.next (sysResetRow m (s.pass dt)) = _
    rw [sysResetRow, hdue, if_neg Bool.false_ne_true]
  refine completes_short hexec hr ?_
  simp only [if_neg (Nat.not_lt.2 hn)]
  obtain ⟨hreplied, -⟩ := mbResult_taken (passes_of_requestOk hr).lt_length dt Rc.OK []
  exact ⟨hreplied, rfl, changesOnly_withResetDue (changesOnly_mbModify (taken_changesOnly (by simp) rfl) (by simp) _ _) (by simp) _⟩

theorem sysReset_resets (m dt : Nat) (s : State) (hdue : sysResetDue (s.pass dt) = true) :
    completes (.sysReset m dt) s (fun t => t.rd Reg.SYS_RSTCAUSE_SOFT = 1 ∧ t.resetDue = none ∧ t.mboxes = State.reset.mboxes) := by
  refine ⟨sysReset Reg.SYS_RSTCAUSE_SOFT (s.pass dt), ?_, (sysReset_leaves rfl _).1, rfl, rfl⟩
  change Host.Outcome.next (sysResetRow m (s.pass dt)) = _
  rw [sysResetRow, hdue, if_pos rfl]

theorem sysNotify_sets (m dt : Nat) (s : State) (hr : requestOk m 0x0102 4 s = true) :
    completes (.sysNotify m dt) s (fun t => replied m 0 (leBytes 4 (mbox s m).mask) s t ∧ (mbox t m).mask = (mbReq s m).at_ 0 4 ∧
      changesOnly [Reg.MB_REQ_REQRD m] [.mboxes, .mbLast, .flight] (s.pass dt) t) := by
  have hm := (passes_of_requestOk hr).lt_length
  refine completes_short rfl hr ?_
  have htook : Took m s (mbModify m (fun b => { b with mask := (mbReq s m).at_ 0 4 }) (taken m dt s)) := took_mbModify (took_taken hm dt) (fun _ => rfl)
  refine ⟨replied_mbResult htook _ _, ?_, changesOnly_mbModify (changesOnly_mbModify (taken_changesOnly (by simp) rfl) (by simp) _ _) (by simp) _ _⟩
  rw [mbResult, mbox_mbPush _ htook.lt, mbox_mbModify_same (s := taken m dt s) _ hm]

/-- The packet types of a mailbox that takes one or gives it back. -/
def ptypesWith (p on : Nat) (b : Mbox) : Mbox := { b with ptypes := (b.ptypes.filter (fun x => !(x == p))) ++ (if on = 1 then [p] else []) }

theorem mem_ptypesWith (p on : Nat) (b : Mbox) : p ∈ (ptypesWith p on b).ptypes ↔ on = 1 := by
  by_cases h : on = 1 <;> simp [ptypesWith, h]

section
variable (m p dt : Nat) (s : State) (hr : requestOk m 0x0103 2 s = true) (hp : p = (mbReq s m).at_ 0 1) (hlo : 0x80 ≤ p)
include hr hp hlo

theorem sysPtype_sets {on : Nat} (hon : (mbReq s m).at_ 1 1 = on) (hbit : on ≤ 1) (hfree : ¬ (on = 1 ∧ (List.range 4).any (fun k => k != m && (mbox s k).ptypes.contains p) = true)) :
    completes (.sysPtype m dt) s (fun t => replied m 0 [] s t ∧ (p ∈ (mbox t m).ptypes ↔ on = 1) ∧ changesOnly [Reg.MB_REQ_REQRD m] [.mboxes, .mbLast, .flight] (s.pass dt) t) := by
  subst hp
  have hm := (passes_of_requestOk hr).lt_length
  have hok : ¬ ((mbReq s m).at_ 0 1 < 0x80 ∨ 1 < on) := by omega
  refine completes_short rfl hr ?_
  simp only [hon, if_neg hok, mbox_taken, if_neg hfree]
  have htook : Took m s (mbModify m (ptypesWith ((mbReq s m).at_ 0 1) on) (taken m dt s)) := took_mbModify (took_taken hm dt) (fun _ => rfl)
  have hbox : (mbox (mbModify m (ptypesWith ((mbReq s m).at_ 0 1) on) (taken m dt s)) m) = ptypesWith ((mbReq s m).at_ 0 1) on (mbox s m) := mbox_mbModify_same (s := taken m dt s) _ hm
  refine ⟨replied_mbResult htook _ _, ?_, changesOnly_mbModify (changesOnly_mbModify (taken_changesOnly (by simp) rfl) (by simp) _ _) (by simp) _ _⟩
  have hpush := mbox_mbPush (MbRec.mk (mbReq s m).cmd (mbReq s m).tag (mbReq s m).flags 0 Rc.OK 0 []) htook.lt
  rw [hbox] at hpush
  exact (Eq.to_iff (congrArg (fun b : Mbox => (mbReq s m).at_ 0 1 ∈ b.ptypes) hpush)).trans (mem_ptypesWith ((mbReq s m).at_ 0 1) on (mbox s m))

theorem sysPtype_takes (hon : (mbReq s m).at_ 1 1 = 1) (hfree : ∀ k, k < 4 → k ≠ m → p ∉ (mbox s k).ptypes) :
    completes (.sysPtype m dt) s (fun t => replied m 0 [] s t ∧ p ∈ (mbox t m).ptypes ∧ changesOnly [Reg.MB_REQ_REQRD m] [.mboxes, .mbLast, .flight] (s.pass dt) t) := by
  obtain ⟨t, hexec, hreplied, hmem, hchanges⟩ := sysPtype_sets m p dt s hr hp hlo hon (Nat.le_refl 1) (by simpa using hfree)
  exact ⟨t, hexec, hreplied, hmem.2 rfl, hchanges⟩

theorem sysPtype_gives (hoff : (mbReq s m).at_ 1 1 = 0) :
    completes (.sysPtype m dt) s (fun t => replied m 0 [] s t ∧ p ∉ (mbox t m).ptypes ∧ changesOnly [Reg.MB_REQ_REQRD m] [.mboxes, .mbLast, .flight] (s.pass dt) t) := by
  obtain ⟨t, hexec, hreplied, hmem, hchanges⟩ := sysPtype_sets m p dt s hr hp hlo hoff (Nat.zero_le 1) (by simp)
  exact ⟨t, hexec, hreplied, fun h => absurd (hmem.1 h) (by decide), hchanges⟩

end

theorem sysPtype_held (m p k dt : Nat) (s : State) (hr : requestOk m 0x0103 2 s = true) (hp : p = (mbReq s m).at_ 0 1) (hlo : 0x80 ≤ p) (hon : (mbReq s m).at_ 1 1 = 1) (hk : k < 4) (hkm : k ≠ m)
    (hheld : p ∈ (mbox s k).ptypes) :
    completes (.sysPtype m dt) s (fun t => replied m 0x0203 [] s t ∧ changesOnly [Reg.MB_REQ_REQRD m] [.mboxes, .mbLast, .flight] (s.pass dt) t) := by
  subst hp
  have hok : ¬ ((mbReq s m).at_ 0 1 < 0x80 ∨ 1 < 1) := by omega
  have hother : (List.range 4).any (fun k => k != m && (mbox s k).ptypes.contains ((mbReq s m).at_ 0 1)) = true := by
    simp only [List.any_eq_true, List.mem_range, Bool.and_eq_true, bne_iff_ne, List.contains_iff_mem]
    exact ⟨k, hk, hkm, hheld⟩
  refine completes_short rfl hr ?_
  simp only [hon, if_neg hok, mbox_taken, hother, and_self, if_true]
  exact mbResult_taken (passes_of_requestOk hr).lt_length dt _ _

/-! ### The network and its links (R346, R347) -/

theorem netCfgGet_fills (m dt : Nat) (b : List Nat) (s : State) (hr : requestOk m 0x0200 1 s = true) (hb : bufOf s m ((mbReq s m).at_ 0 1) = some b) (hlen : 400 ≤ b.length)
    (hfree : bufHeld s m ((mbReq s m).at_ 0 1) = false) :
    completes (.netCfgGet m dt) s (fun t => replied m 0 [] s t ∧ bufOf t m ((mbReq s m).at_ 0 1) = some (setBytes b 0 s.netCfg) ∧
      changesOnly [Reg.MB_REQ_REQRD m] [.mboxes, .mbLast, .flight] (s.pass dt) t) := by
  have hm := (passes_of_requestOk hr).lt_length
  refine completes_short rfl hr ?_
  simp only [bufOf_taken, hb, if_neg (Nat.not_lt.2 hlen), bufHeld_taken, hfree, Bool.false_eq_true, if_false]
  have htook : Took m s (bufPut m ((mbReq s m).at_ 0 1) (setBytes b 0 s.netCfg) (taken m dt s)) := took_mbModify (took_taken hm dt) (fun _ => rfl)
  refine ⟨replied_mbResult htook _ _, ?_, changesOnly_mbModify (changesOnly_mbModify (taken_changesOnly (by simp) rfl) (by simp) _ _) (by simp) _ _⟩
  exact (bufOf_mbPush _ htook.lt _).trans (bufOf_bufPut (s := taken m dt s) hm hb _)

theorem dropByReason_closed (s : State) : dropByReason 6 s = s := rfl

/-- A connection that an application closes (reason 6) ends with no notice: the mailboxes stand. -/
theorem connDrop_closed_mboxes {id : Nat} {c : Conn} {s : State} (h : connOf s id = some c) : (connDrop id 6 s).mboxes = s.mboxes := by
  have hcounted : partsOnly [.regs, .lnk, .flight, .rfe] s (dropCounted id c 6 s) := by
    refine State.raise_parts _ _ _ (wr_parts _ _ _ (wr_parts _ _ _ (State.inc_parts _ _ _ (lnkShow_parts _ _ ?_ rfl) rfl) rfl) rfl) rfl
    simp [partsOnly_refl]
  have hterm : partsOnly [.regs, .lnk, .flight, .rfe] s (dropTerm c 6 (dropCounted id c 6 s)) := planFrame_parts _ _ _ _ _ _ _ (connFrame_parts _ _ _ _ _ _ hcounted rfl) rfl
  have hafter : partsOnly [.msh, .regs, .lnk, .evAt, .flight, .rfe] s (connDrop id 6 s) := by
    rw [connDrop_eq h, dropByReason_closed, dropAfter]
    have hterm := partsOnly_mono (L := [.msh, .regs, .lnk, .evAt, .flight, .rfe]) hterm rfl
    split
    · exact hterm
    · exact mshLinkDown_parts _ _ _ _ _ (by simp [hterm]) rfl
  exact hafter .mboxes (by decide)

theorem linkDrop_drops (m dt : Nat) (c : Conn) (s : State) (hr : requestOk m 0x0301 2 s = true) (hc : connPeer s ((mbReq s m).at_ 0 2) = some c) :
    completes (.linkDrop m dt) s (fun t => connOf t c.id = none ∧ t.rd Reg.LNK_LASTDROP_REASON = 6 ∧ t.rd Reg.LNK_DROPCNT = satAdd 32 (s.rd Reg.LNK_DROPCNT) 1 ∧
      (mbox t m).backlog.getLast? = some (MbRec.mk (mbReq s m).cmd (mbReq s m).tag (mbReq s m).flags 0 0 0 [])) := by
  have hpass := passes_of_requestOk hr
  obtain ⟨d, hd⟩ : ∃ d, connOf (taken m dt s) c.id = some d := by
    refine Option.isSome_iff_exists.1 (List.find?_isSome.2 ⟨c, List.mem_of_find?_eq_some hc, ?_⟩)
    exact beq_self_eq_true c.id
  obtain ⟨hgone, hcount, hreason, -, -⟩ := connDrop_shows hd (reason := 6) (by decide)
  refine completes_short rfl hr ?_
  simp only [show connPeer (taken m dt s) ((mbReq s m).at_ 0 2) = some c from hc]
  refine ⟨hgone, hreason, hcount.trans ?_, ?_⟩
  · rw [taken_rd_off hpass.lt_four (by simp [offMbx, Field.key, Reg.LNK_DROPCNT])]
  · have hlt : m < (connDrop c.id 6 (taken m dt s)).mboxes.length := by rw [connDrop_closed_mboxes hd]; exact hpass.lt_length
    rw [mbResult, mbox_mbPush _ hlt, List.getLast?_append]
    rfl

theorem linkDrop_unknown (m dt : Nat) (s : State) (hr : requestOk m 0x0301 2 s = true) (hc : connPeer s ((mbReq s m).at_ 0 2) = none) :
    completes (.linkDrop m dt) s (fun t => replied m 7 [] s t ∧ changesOnly [Reg.MB_REQ_REQRD m] [.mboxes, .mbLast, .flight] (s.pass dt) t) := by
  refine completes_short rfl hr ?_
  simp only [show connPeer (taken m dt s) ((mbReq s m).at_ 0 2) = none from hc]
  exact mbResult_taken (passes_of_requestOk hr).lt_length dt _ _

theorem wakeCarrier_taken {m : Nat} (hm : m < 4) (dt : Nat) (s : State) : wakeCarrier (taken m dt s) = wakeCarrier s := by
  have hregime : (taken m dt s).rd Reg.RFE_STAT_REGIME = s.rd Reg.RFE_STAT_REGIME := taken_rd_off hm (by simp [offMbx, Field.key, Reg.RFE_STAT_REGIME])
  have hblock : regBlock (taken m dt s) = regBlock s := by
    rw [regBlock, hregime]
    rfl
  have hcount : subCount (taken m dt s) = subCount s := by
    rw [subCount, hblock]
    rfl
  have hentry (i : Nat) : subEntry (taken m dt s) i = subEntry s i := by
    rw [subEntry, hblock]
    rfl
  have hsub (freq span : Nat) : subOf (taken m dt s) freq span = subOf s freq span := by
    rw [subOf, hcount, funext hentry]
    rfl
  rw [wakeCarrier, hsub, hsub, wakeCarrier]

theorem linkWake_starts (m dt : Nat) (c : Conn) (s : State) (hr : requestOk m 0x0302 2 s = true)
    (hc : s.lnk.conns.find? (fun x => x.peer == (mbReq s m).at_ 0 2 && !x.child && x.leaf) = some c) (hcarrier : (wakeCarrier s).isSome = true) (hidle : s.lnk.wake = none) :
    completes (.linkWake m dt) s (fun t => started m [0] s t ∧ t.lnk.wake = some ⟨c.id, 9, s.elapsed + dt, some (m, (mbReq s m).tag)⟩ ∧
      changesOnly [Reg.MB_REQ_REQRD m] [.mboxes, .mbLast, .flight, .lnk] (s.pass dt) t) := by
  have hpass := passes_of_requestOk hr
  refine completes_long rfl hr ?_
  simp only [show (taken m dt s).lnk.conns.find? (fun x => x.peer == (mbReq s m).at_ 0 2 && !x.child && x.leaf) = some c from hc,
    show (wakeCarrier (taken m dt s)).isNone = false by rw [wakeCarrier_taken hpass.lt_four]; simpa using hcarrier, show (taken m dt s).lnk.wake = none from hidle, Option.isSome_none, Bool.false_eq_true, if_false]
  exact ⟨started_of_accepted hpass rfl rfl, rfl, changesOnly_withLnk (accepted_changesOnly (by simp) rfl (by simp)) (by simp) _⟩

/-! ### Time (R348) -/

/-- The application's source of pulses is in force (R348). -/
def ppsFirn (pin acc sec : Nat) (s : State) : Firn :=
  { s.firn with source := .pps, ppsPin := pin, ppsSec := sec, ppsAcc := acc, refacc := refAcc s, refAt := s.elapsed, pulseLost := false, lastPulse := none }

theorem timeSourceSet_pps (pin acc sec : Nat) (s : State) : timeSourceSet 1 pin acc sec s = capPps true pin { s with firn := ppsFirn pin acc sec s } := rfl

theorem capPps_firn (on : Bool) (pin : Nat) (s : State) : (capPps on pin s).firn = s.firn := capPps_parts on pin s s (partsOnly_refl [.regs, .com] s) rfl .firn (by decide)

/-- The capture unit of the pulses is on, and on its pin. -/
theorem capPps_commits {pin : Nat} (hpin : pin ≤ 31) (s : State) : (capPps true pin s).rdC (Reg.FIRN_CAP_CTL_EN 0) = 1 ∧ (capPps true pin s).rdC (Reg.FIRN_CAP_CTL_SRC 0) = pin := by
  have hkeys : ((capSFields 0).map Field.key).Nodup := by decide
  constructor
  · rw [capPps, State.rdC_commitFields _ _ hkeys _ (by decide), State.rd_wr_other _ _ (by decide), State.rd_wr_other _ _ (by decide), State.rd_wr_same]
    rfl
  · rw [capPps, State.rdC_commitFields _ _ hkeys _ (by decide), State.rd_wr_same]
    simp only [Reg.FIRN_CAP_CTL_SRC]
    omega

theorem isRoot_taken {m : Nat} (hm : m < 4) (dt : Nat) (s : State) : isRoot (taken m dt s) = isRoot s := taken_on_off hm (by simp [offMbx, Field.key, Reg.FIRN_STAT_ROOT])

theorem timeSource_pps (m dt : Nat) (s : State) (hr : requestOk m 0x0401 12 s = true) (hsrc : (mbReq s m).at_ 0 1 = 1) (hpin : (mbReq s m).at_ 1 1 ≤ 31) (hroot : isRoot s = true) :
    completes (.timeSource m dt) s (fun t => replied m 0 [] s t ∧ t.firn.source = .pps ∧ t.firn.ppsSec = (mbReq s m).at_ 4 8 ∧ t.firn.ppsAcc = (mbReq s m).at_ 2 2 ∧
      t.rdC (Reg.FIRN_CAP_CTL_EN 0) = 1 ∧ t.rdC (Reg.FIRN_CAP_CTL_SRC 0) = (mbReq s m).at_ 1 1) := by
  have hpass := passes_of_requestOk hr
  have hok : ¬ (1 < (mbReq s m).at_ 0 1 ∨ ((mbReq s m).at_ 0 1 = 0 ∧ (mbReq s m).at_ 2 2 ≠ 0) ∨ ((mbReq s m).at_ 0 1 = 1 ∧ 31 < (mbReq s m).at_ 1 1)) := by omega
  refine completes_short rfl hr ?_
  simp only [if_neg hok, isRoot_taken hpass.lt_four, hroot, Bool.not_true, Bool.false_eq_true, if_false]
  rw [hsrc, timeSourceSet_pps]
  obtain ⟨u, hu⟩ : ∃ u : State, u = { taken m dt s with firn := ppsFirn ((mbReq s m).at_ 1 1) ((mbReq s m).at_ 2 2) ((mbReq s m).at_ 4 8) (taken m dt s) } := ⟨_, rfl⟩
  have htaken : Took m s u := by rw [hu]; exact took_of_same (took_taken hpass.lt_length dt) rfl rfl
  rw [← hu]
  have hkeeps : partsOnly [.regs, .com] u (capPps true ((mbReq s m).at_ 1 1) u) := capPps_parts _ _ _ _ (partsOnly_refl _ _) rfl
  have hrd : (capPps true ((mbReq s m).at_ 1 1) u).rd (Reg.MB_REQ_REQRD m) = u.rd (Reg.MB_REQ_REQRD m) := by
    rw [capPps, State.rd_commitFields]
    repeat rw [State.rd_wr_other _ _ (by simp only [Field.key, Reg.MB_REQ_REQRD, Reg.FIRN_CAP_CTL_SRC, Reg.FIRN_CAP_CTL_EDGE, Reg.FIRN_CAP_CTL_EN]; omega)]
  have htook : Took m s (capPps true ((mbReq s m).at_ 1 1) u) := took_of_same htaken (hkeeps .mboxes (by decide)) hrd
  have hfirn : (capPps true ((mbReq s m).at_ 1 1) u).firn = ppsFirn ((mbReq s m).at_ 1 1) ((mbReq s m).at_ 2 2) ((mbReq s m).at_ 4 8) (taken m dt s) := by rw [capPps_firn, hu]
  obtain ⟨hen, hpinC⟩ := capPps_commits hpin u
  rw [mbResult_firn, mbResult_rdC, mbResult_rdC, hfirn]
  exact ⟨replied_mbResult htook _ _, rfl, rfl, rfl, hen, hpinC⟩

theorem cmpMarkStepped_rd_below {f : Field} (hf : f.key < Reg.FIRN_LATECNT.key) (s : State) : (cmpMarkStepped s).rd f = s.rd f := by
  refine foldl_same (fun t => t.rd f) _ _ s fun t n => ?_
  split
  · exact State.rd_wr_other _ _ (by simp only [Field.key, Reg.FIRN_LATECNT, Reg.FIRN_CMP_STAT_STEPPED] at hf ⊢; omega)
  · rfl

theorem cmpMarkStepped_firn (s : State) : (cmpMarkStepped s).firn = s.firn := cmpMarkStepped_parts s s (partsOnly_refl [.regs] s) rfl .firn (by decide)

/-- The flag, the count and the size of a step of local time (R86). -/
def stepShown (d : Int) (s : State) : State := ((s.set1 Reg.FIRN_STAT_STEPPED).inc Reg.FIRN_STEPCNT).wr Reg.FIRN_LASTSTEP (lastStepCode d)

/-- Local time moves, with the launches on their way. -/
def stepMoved (d : Int) (s : State) : State :=
  { s with firn := { s.firn with loc := moveLoc s.firn.loc d, flight := s.firn.flight.map (fun l => { l with at_ := ((l.at_ : Int) + d).toNat }), slewLeft := 0, slewRate := 0, stepAt := s.elapsed } }

theorem stepMoved_source (d : Int) (s : State) : (stepMoved d s).firn.source = s.firn.source ∧ (stepMoved d s).firn.refacc = s.firn.refacc := ⟨rfl, rfl⟩

theorem stepMoved_rd (d : Int) (s : State) (f : Field) : (stepMoved d s).rd f = s.rd f := rfl

/-- The state notice of a step, with its event; late matches are still to come. -/
def stepNoticed (d : Int) (s : State) : State := timeStateNotice ((stepMoved d (cmpMarkStepped (stepShown d s))).raise 96)

theorem firnStep_eq (d : Int) (s : State) : firnStep d s = if (stepNoticed d s).firn.coasting then stepNoticed d s else cmpLateAll (stepNoticed d s) := by
  unfold firnStep stepNoticed stepMoved stepShown
  rfl

/-- A step leaves the source of time and its accuracy. -/
theorem firnStep_source (d : Int) (s : State) : (firnStep d s).firn.source = s.firn.source ∧ (firnStep d s).firn.refacc = s.firn.refacc := by
  have hnoticed : (stepNoticed d s).firn = (stepMoved d (cmpMarkStepped (stepShown d s))).firn := timeStateNotice_firn _
  have hmarked : (cmpMarkStepped (stepShown d s)).firn = s.firn := by
    rw [cmpMarkStepped_firn]
    rfl
  have hsame : (stepNoticed d s).firn.source = s.firn.source ∧ (stepNoticed d s).firn.refacc = s.firn.refacc := by
    rw [hnoticed, (stepMoved_source _ _).1, (stepMoved_source _ _).2, hmarked]
    exact ⟨rfl, rfl⟩
  rw [firnStep_eq]
  generalize stepNoticed d s = noticed at hsame ⊢
  split
  · exact hsame
  · obtain ⟨l, hl⟩ := cmpLateAll_firn noticed
    rw [hl]
    exact hsame

/-- Of FIRN's registers below FIRN_LATECNT a step changes its flag, its count and its size. -/
theorem firnStep_rd_below (d : Int) (s : State) {f : Field} (hf : f.key < Reg.FIRN_LATECNT.key) : (firnStep d s).rd f = (stepShown d s).rd f := by
  have hoff : offMbx f := .inl (Nat.lt_trans hf (by decide))
  have hnoticed : (stepNoticed d s).rd f = (stepShown d s).rd f := by rw [stepNoticed, timeStateNotice_rd _ _ hoff, State.rd_raise, stepMoved_rd, cmpMarkStepped_rd_below hf]
  rw [firnStep_eq]
  split
  · exact hnoticed
  · exact (cmpLateAll_rd_below _ hf).trans hnoticed

theorem firnStep_shows (d : Int) (s : State) :
    (firnStep d s).rd Reg.FIRN_STAT_STEPPED = 1 ∧ (firnStep d s).rd Reg.FIRN_STEPCNT = satAdd (Reg.FIRN_STEPCNT).width (s.rd Reg.FIRN_STEPCNT) 1 := by
  rw [firnStep_rd_below d s (by decide), firnStep_rd_below d s (by decide), stepShown, State.rd_wr_other _ _ (by decide), State.rd_wr_other _ _ (by decide)]
  refine ⟨?_, ?_⟩
  · rw [State.inc, State.count, State.rd_wr_other _ _ (by decide)]
    exact State.rd_wr_same _ _ _
  · rw [State.rd_inc_same, State.set1, State.rd_wr_other _ _ (by decide)]

/-- The application's own time is the source (R348). -/
def setFirn (acc : Nat) (s : State) : State := { s with firn := { s.firn with source := .set, refacc := acc, refAt := s.elapsed } }

theorem setFirn_source (acc : Nat) (s : State) : (setFirn acc s).firn.source = .set ∧ (setFirn acc s).firn.refacc = acc := ⟨rfl, rfl⟩

theorem setFirn_rd (acc : Nat) (s : State) (f : Field) : (setFirn acc s).rd f = s.rd f := rfl

/-- What the setting of the UTC offset and of the leap second leaves: all but the two. -/
theorem timeSetDo_leaves (what utcoff acc t : Nat) (s : State) (s1 : State)
    (h1 : s1 = if bitOf what 0 = 1 then firnStep ((t : Int) - (s.now : Int)) (setFirn acc s) else s) :
    (timeSetDo what utcoff acc t s).regs = s1.regs ∧ (timeSetDo what utcoff acc t s).mboxes = s1.mboxes ∧ (timeSetDo what utcoff acc t s).firn.source = s1.firn.source ∧
      (timeSetDo what utcoff acc t s).firn.refacc = s1.firn.refacc ∧ (timeSetDo what utcoff acc t s).firn.loc = s1.firn.loc ∧
      (timeSetDo what utcoff acc t s).firn.utcOff = if bitOf what 1 = 1 then toSigned 16 utcoff else s1.firn.utcOff := by
  subst h1
  by_cases hutc : bitOf what 1 = 1 <;> simp only [timeSetDo, setFirn, hutc, if_true, if_false, and_self]

section
variable (m dt : Nat) (s : State) (hr : requestOk m 0x0402 16 s = true) (hwhat : (mbReq s m).at_ 0 1 < 32) (hroot : isRoot s = true)
include hr hwhat hroot

theorem timeSet_utc (hnow : bitOf ((mbReq s m).at_ 0 1) 0 = 0) (hutc : bitOf ((mbReq s m).at_ 0 1) 1 = 1) :
    completes (.timeSet m dt) s (fun t => replied m 0 [] s t ∧ t.firn.utcOff = toSigned 16 ((mbReq s m).at_ 2 2) ∧ t.firn.loc = (s.pass dt).firn.loc) := by
  have hpass := passes_of_requestOk hr
  refine completes_short rfl hr ?_
  simp only [if_neg (Nat.not_le.2 hwhat), isRoot_taken hpass.lt_four, hroot, Bool.not_true, Bool.false_eq_true, if_false]
  obtain ⟨hregs, hboxes, -, -, hloc, hoff⟩ := timeSetDo_leaves ((mbReq s m).at_ 0 1) ((mbReq s m).at_ 2 2) ((mbReq s m).at_ 4 4) ((mbReq s m).at_ 8 8) (taken m dt s) (taken m dt s) (by simp [hnow])
  rw [if_pos hutc] at hoff
  exact ⟨replied_mbResult (took_of_same (took_taken hpass.lt_length dt) hboxes (by rw [State.rd, hregs, State.rd])) _ _, hoff, hloc⟩

theorem timeSet_now (hnow : bitOf ((mbReq s m).at_ 0 1) 0 = 1) :
    completes (.timeSet m dt) s (fun t => t.firn.source = .set ∧ t.firn.refacc = (mbReq s m).at_ 4 4 ∧ t.rd Reg.FIRN_STAT_STEPPED = 1 ∧
      t.rd Reg.FIRN_STEPCNT = satAdd (Reg.FIRN_STEPCNT).width (s.rd Reg.FIRN_STEPCNT) 1) := by
  have hpass := passes_of_requestOk hr
  refine completes_short rfl hr ?_
  simp only [if_neg (Nat.not_le.2 hwhat), isRoot_taken hpass.lt_four, hroot, Bool.not_true, Bool.false_eq_true, if_false]
  set d : Int := ((mbReq s m).at_ 8 8 : Int) - ((taken m dt s).now : Int) with hd
  set v := setFirn ((mbReq s m).at_ 4 4) (taken m dt s) with hv
  obtain ⟨hregs, -, hsource, hacc, -, -⟩ :=
    timeSetDo_leaves ((mbReq s m).at_ 0 1) ((mbReq s m).at_ 2 2) ((mbReq s m).at_ 4 4) ((mbReq s m).at_ 8 8) (taken m dt s) (firnStep d v) (by rw [if_pos hnow])
  obtain ⟨hsource', hacc'⟩ := firnStep_source d v
  obtain ⟨hset, hbound⟩ := setFirn_source ((mbReq s m).at_ 4 4) (taken m dt s)
  obtain ⟨hstepped, hcount⟩ := firnStep_shows d v
  rw [mbResult_firn, mbResult_rd, mbResult_rd, rd_of_regs hregs, rd_of_regs hregs]
  refine ⟨(hsource.trans hsource').trans hset, (hacc.trans hacc').trans hbound, hstepped, hcount.trans ?_⟩
  rw [hv, setFirn_rd, taken_rd_off hpass.lt_four (by simp [offMbx, Field.key, Reg.FIRN_STEPCNT])]

end

theorem time_notRoot (c : Nat → Nat → Instr) (id len m dt : Nat) (s : State) (hc : (c, id, len) ∈ [(Instr.timeSource, 0x0401, 12), (Instr.timeSet, 0x0402, 16)]) (hr : requestOk m id len s = true)
    (h0 : (mbReq s m).at_ 0 1 = 0) (h2 : (mbReq s m).at_ 2 2 = 0) (hroot : isRoot s = false) :
    completes (c m dt) s (fun t => replied m 10 [] s t ∧ changesOnly [Reg.MB_REQ_REQRD m] [.mboxes, .mbLast, .flight] (s.pass dt) t) := by
  have hpass := passes_of_requestOk hr
  have hroot : isRoot (taken m dt s) = false := (isRoot_taken hpass.lt_four dt s).trans hroot
  simp only [List.mem_cons, List.not_mem_nil, or_false, Prod.mk.injEq] at hc
  rcases hc with ⟨rfl, rfl, rfl⟩ | ⟨rfl, rfl, rfl⟩
  · have hok : ¬ (1 < (mbReq s m).at_ 0 1 ∨ ((mbReq s m).at_ 0 1 = 0 ∧ (mbReq s m).at_ 2 2 ≠ 0) ∨ ((mbReq s m).at_ 0 1 = 1 ∧ 31 < (mbReq s m).at_ 1 1)) := by omega
    refine completes_short rfl hr ?_
    simp only [if_neg hok, hroot, Bool.not_false, if_true]
    exact mbResult_taken hpass.lt_length dt _ _
  · have hok : ¬ 32 ≤ (mbReq s m).at_ 0 1 := by omega
    refine completes_short rfl hr ?_
    simp only [if_neg hok, hroot, Bool.not_false, if_true]
    exact mbResult_taken hpass.lt_length dt _ _

/-! ### The lamp and field update (R349, R353, R354) -/

section
variable (m dt : Nat) (s : State) (hr : requestOk m 0x0503 2 s = true) (hlevel : (mbReq s m).at_ 0 2 ≤ 1000)
include hr hlevel

/-- The failsafe level is written, and its command answered. -/
def failsafeSet (m dt : Nat) (s : State) : State := mbResult m (mbReq s m) Rc.OK [] ((taken m dt s).wr Reg.BKP_SET5 ((mbReq s m).at_ 0 2))

omit hr in
theorem failsafeSet_rd : (failsafeSet m dt s).rd Reg.BKP_SET5 = (mbReq s m).at_ 0 2 := by
  refine (State.rd_wr_same (taken m dt s) Reg.BKP_SET5 _).trans (Nat.mod_eq_of_lt (Nat.lt_of_le_of_lt hlevel (by decide)))

omit hlevel in
theorem failsafeSet_replied : replied m 0 [] s (failsafeSet m dt s) ∧ changesOnly [Reg.MB_REQ_REQRD m, Reg.BKP_SET5] [.mboxes, .mbLast, .flight] (s.pass dt) (failsafeSet m dt s) := by
  have hpass := passes_of_requestOk hr
  have hrd : ((taken m dt s).wr Reg.BKP_SET5 ((mbReq s m).at_ 0 2)).rd (Reg.MB_REQ_REQRD m) = (taken m dt s).rd (Reg.MB_REQ_REQRD m) :=
    State.rd_wr_other _ _ (Ne.symm (key_ne_reqrd hpass.lt_four (by simp [offMbx, Field.key, Reg.BKP_SET5])))
  obtain ⟨hfields, hparts⟩ : changesOnly [Reg.MB_REQ_REQRD m, Reg.BKP_SET5] [.mboxes, .mbLast, .flight] (s.pass dt) (taken m dt s) := taken_changesOnly (by simp) rfl
  exact ⟨replied_mbResult (took_of_same (t := (taken m dt s).wr Reg.BKP_SET5 ((mbReq s m).at_ 0 2)) (took_taken hpass.lt_length dt) rfl hrd) _ _, changesOnly_mbModify ⟨fieldsOnly_wr hfields _ (by simp), wr_parts _ _ _ hparts rfl⟩ (by simp) _ _⟩

theorem lumFailsafe_sets : completes (.lumFailsafe m dt) s (fun t => t.rd Reg.BKP_SET5 = (mbReq s m).at_ 0 2) := by
  refine completes_short rfl hr ?_
  simp only [if_neg (Nat.not_lt.2 hlevel)]
  have hset := failsafeSet_rd m dt s hlevel
  split
  · exact ((lumWrite_fields false true _ (failsafeSet m dt s)) _ (by decide)).1.trans hset
  · exact hset

theorem lumFailsafe_leaves (hoff : lumOn s = false ∨ s.lum.failsafe = false) :
    completes (.lumFailsafe m dt) s (fun t => replied m 0 [] s t ∧ t.rd Reg.BKP_SET5 = (mbReq s m).at_ 0 2 ∧
      changesOnly [Reg.MB_REQ_REQRD m, Reg.BKP_SET5] [.mboxes, .mbLast, .flight] (s.pass dt) t) := by
  have hpass := passes_of_requestOk hr
  have hon : lumOn (failsafeSet m dt s) = lumOn s := by
    have hrd : (failsafeSet m dt s).rd Reg.LMP_STAT_SVC = (taken m dt s).rd Reg.LMP_STAT_SVC := State.rd_wr_other (taken m dt s) _ (by decide)
    rw [lumOn, State.on, hrd, taken_rd_off hpass.lt_four (by simp [offMbx, Field.key, Reg.LMP_STAT_SVC]), lumOn, State.on]
  have hidle : ¬ (lumOn (failsafeSet m dt s) && (failsafeSet m dt s).lum.failsafe) = true := by
    rw [hon, show (failsafeSet m dt s).lum.failsafe = s.lum.failsafe from rfl, Bool.and_eq_true]
    rintro ⟨h1, h2⟩
    rcases hoff with h | h <;> simp_all
  refine completes_short rfl hr ?_
  simp only [if_neg (Nat.not_lt.2 hlevel)]
  rw [show mbResult m (mbReq s m) Rc.OK [] ((taken m dt s).wr Reg.BKP_SET5 ((mbReq s m).at_ 0 2)) = failsafeSet m dt s from rfl, if_neg hidle]
  obtain ⟨hreplied, hchanges⟩ := failsafeSet_replied m dt s hr
  exact ⟨hreplied, failsafeSet_rd m dt s hlevel, hchanges⟩

end

theorem lumLevel_off (m dt : Nat) (s : State) (hr : requestOk m 0x0500 16 s = true) (hlevel : (mbReq s m).at_ 0 2 ≤ 1000) (hoff : lumOn s = false) :
    completes (.lumLevel m dt) s (fun t => replied m 0 (leBytes 2 (s.free % 65536)) s t ∧ t.freeCtr = s.freeCtr + 1 ∧
      changesOnly [Reg.MB_REQ_REQRD m] [.mboxes, .mbLast, .flight, .freeCtr] (s.pass dt) t) := by
  have hpass := passes_of_requestOk hr
  have hoff : lumOn (mbResult m (mbReq s m) Rc.OK (leBytes 2 ((taken m dt s).free % 65536)) ((taken m dt s).drawn 1)) = false :=
    (taken_on_off hpass.lt_four (by simp [offMbx, Field.key, Reg.LMP_STAT_SVC])).trans hoff
  refine completes_short rfl hr ?_
  simp only [if_neg (Nat.not_lt.2 hlevel), hoff, Bool.false_eq_true, if_false]
  exact ⟨replied_mbResult (u := (taken m dt s).drawn 1) (took_of_same (took_taken hpass.lt_length dt) rfl rfl) _ _, rfl,
    changesOnly_mbModify (changesOnly_drawn (taken_changesOnly (by simp) rfl) (by simp) 1) (by simp) _ _⟩

theorem updConfirm_confirms (m dt : Nat) (s : State) (hr : requestOk m 0x0B05 0 s = true) :
    completes (.updConfirm m dt) s (fun t => if s.on Reg.BKP_SET1_TRIAL = true then replied m 0 [] s t ∧ t.upd = { s.upd with confirmed := true } else replied m 10 [] s t ∧ t.upd = s.upd) := by
  have hpass := passes_of_requestOk hr
  refine completes_short rfl hr ?_
  simp only [taken_on_off (s := s) (dt := dt) hpass.lt_four (show offMbx Reg.BKP_SET1_TRIAL by simp [offMbx, Field.key, Reg.BKP_SET1_TRIAL])]
  split
  · exact ⟨replied_mbResult (took_of_same (took_taken hpass.lt_length dt) rfl rfl) _ _, rfl⟩
  · exact ⟨replied_mbResult (took_taken hpass.lt_length dt) _ _, rfl⟩

end Sys2Proof.Machine

open Sys2Proof Sys2Proof.Machine

/-- Settles O36: what each command sets and answers, by its own lemma. -/
theorem mailboxSettings : Obligations.MailboxSettings := by
  unfold Obligations.MailboxSettings
  exact ⟨sysReset_waits, sysReset_resets, sysNotify_sets, sysPtype_takes, sysPtype_gives, sysPtype_held, netCfgGet_fills, linkDrop_drops, linkDrop_unknown, linkWake_starts, timeSource_pps, timeSet_utc,
    timeSet_now, time_notRoot, lumFailsafe_sets, lumFailsafe_leaves, lumLevel_off, updConfirm_confirms⟩
end

section
/-!
SUPPORT. Frames that this node sends into the mesh: what the copies of a flood and a unicast leave alone (R254, R258, R264, R267).
-/
namespace Sys2Proof.Machine

/-- The end of the forwarding layer's registers. -/
def mshEnd : Nat := 32 * 0x400B0100

/-- The field is one of the forwarding layer's. -/
def isMsh (f : Field) : Prop := mshKey ≤ f.key ∧ f.key < mshEnd

/-- Sending changes the forwarding layer's data and its registers, and raises its events. -/
structure MeshOnly (s t : State) : Prop where
  rd : ∀ f : Field, ¬ isMsh f → t.rd f = s.rd f
  parts : partsOnly [.msh, .regs, .evAt, .flight] s t

theorem meshOnly_refl (s : State) : MeshOnly s s := ⟨fun _ _ => rfl, partsOnly_refl _ s⟩

section
variable {s t u : State}

theorem meshOnly_trans (h : MeshOnly s t) (h' : MeshOnly t u) : MeshOnly s u := ⟨fun f hf => (h'.rd f hf).trans (h.rd f hf), partsOnly_trans h.parts h'.parts⟩

theorem meshOnly_of_fields {fs : List Field} (h : fieldsOnly fs s t) (hfs : ∀ g ∈ fs, mshKey ≤ g.key ∧ g.key < mshEnd) (hp : partsOnly [.msh, .regs, .evAt, .flight] s t) : MeshOnly s t := by
  refine ⟨fun f hf => (h f fun g hg he => hf ?_).1, hp⟩
  obtain ⟨hlo, hhi⟩ := hfs g hg
  exact ⟨he ▸ hlo, he ▸ hhi⟩

theorem meshOnly_inc (h : MeshOnly s t) {f : Field} (hf : mshKey ≤ f.key ∧ f.key < mshEnd) : MeshOnly s (t.inc f) :=
  meshOnly_trans h (meshOnly_of_fields (fieldsOnly_inc (fieldsOnly_refl [f] t) List.mem_cons_self) (by simpa using hf) (State.inc_parts _ _ _ (partsOnly_refl _ _) rfl))

theorem MeshOnly.mboxes (h : MeshOnly s t) : t.mboxes = s.mboxes := h.parts .mboxes (by decide)

theorem not_isMsh_reqrd (m : Nat) : ¬ isMsh (Reg.MB_REQ_REQRD m) := by
  rintro ⟨-, hhi⟩
  simp only [Field.key, Reg.MB_REQ_REQRD, mshEnd] at hhi
  omega

theorem MeshOnly.reqrd (h : MeshOnly s t) (m : Nat) : t.rd (Reg.MB_REQ_REQRD m) = s.rd (Reg.MB_REQ_REQRD m) := h.rd _ (not_isMsh_reqrd m)

end

/-! ### Frames offered to queues -/

/-- Frames have been offered to queues: the flood counter and the seen cache stand. -/
structure MeshQueued (s t : State) : Prop extends MeshOnly s t where
  mseq : t.msh.mseq = s.msh.mseq
  seen : t.msh.seen = s.msh.seen

theorem meshQueued_refl (s : State) : MeshQueued s s := ⟨meshOnly_refl s, rfl, rfl⟩

theorem meshQueued_trans {s t u : State} (h : MeshQueued s t) (h' : MeshQueued t u) : MeshQueued s u :=
  ⟨meshOnly_trans h.toMeshOnly h'.toMeshOnly, h'.mseq.trans h.mseq, h'.seen.trans h.seen⟩

theorem meshQueued_enqueue (p : Nat) (hop : Hop) (cls src len : Nat) (data : List Nat) (deadline : Option Nat) (s : State) : MeshQueued s (enqueue p hop cls src len data deadline s) := by
  have honly : MeshOnly s (enqueue p hop cls src len data deadline s) :=
    meshOnly_of_fields (enqueue_fields p hop cls src len data deadline s) (by decide) (enqueue_parts _ _ _ _ _ _ _ _ _ (partsOnly_refl _ _) rfl)
  rcases enqueue_msh p hop cls src len data deadline s with h | h
  · exact ⟨honly, congrArg Msh.mseq h, congrArg Msh.seen h⟩
  · exact ⟨honly, (congrArg Msh.mseq h).trans rfl, (congrArg Msh.seen h).trans rfl⟩

theorem meshQueued_foldl {α : Type} (f : State → α → State) (hf : ∀ t a, MeshQueued t (f t a)) (l : List α) (s : State) : MeshQueued s (l.foldl f s) :=
  foldl_keeps (MeshQueued s) f l s (fun t a h => meshQueued_trans h (hf t a)) (meshQueued_refl s)

theorem meshQueued_wiredCopies (from_ : Option Nat) (psdu : List Nat) (s : State) : MeshQueued s (wiredCopies from_ psdu s) :=
  meshQueued_foldl _ (fun _ _ => meshQueued_enqueue _ _ _ _ _ _ _ _) _ _

theorem meshQueued_leafCopies (body : List Nat) (s : State) : MeshQueued s (leafCopies body s) := meshQueued_foldl _ (fun _ _ => meshQueued_enqueue _ _ _ _ _ _ _ _) _ _

/-- The copy of a flood for one radio band, where floods go by that band. -/
def radioCopy (cls : Nat) (psdu : List Nat) (b : Nat) (t : State) : State := if floodBand t b then enqueue b .bcast cls (ownShort t) psdu.length psdu none t else t

theorem meshQueued_radioCopy (cls : Nat) (psdu : List Nat) (b : Nat) (s : State) : MeshQueued s (radioCopy cls psdu b s) := by
  unfold radioCopy
  split
  · exact meshQueued_enqueue _ _ _ _ _ _ _ _
  · exact meshQueued_refl s

/-- The copies of a flood of this node. -/
def floodCopied (cls : Nat) (psdu : List Nat) (s : State) : State := leafCopies (frameBody psdu) (wiredCopies none psdu (radioCopy cls psdu 1 (radioCopy cls psdu 0 s)))

theorem meshQueued_floodCopied (cls : Nat) (psdu : List Nat) (s : State) : MeshQueued s (floodCopied cls psdu s) :=
  meshQueued_trans (meshQueued_radioCopy cls psdu 0 s) (meshQueued_trans (meshQueued_radioCopy cls psdu 1 _) (meshQueued_trans (meshQueued_wiredCopies none psdu _) (meshQueued_leafCopies _ _)))

/-! ### A flood of this node (R254, R258) -/

theorem raiseLim_leaves (s : State) (e n : Nat) : (s.raiseLim e n).regs = s.regs ∧ (s.raiseLim e n).msh = s.msh := by
  have hparts : partsOnly [.evAt, .flight] s (s.raiseLim e n) := State.raiseLim_parts s e n s (partsOnly_refl _ s) rfl
  exact ⟨hparts .regs (by decide), hparts .msh (by decide)⟩

/-- The mesh changes, and the counter of this node's floods stands. -/
structure MeshUnnumbered (s t : State) : Prop extends MeshOnly s t where
  mseq : t.msh.mseq = s.msh.mseq

theorem meshUnnumbered_refl (s : State) : MeshUnnumbered s s := ⟨meshOnly_refl s, rfl⟩

theorem meshUnnumbered_raiseLim {s t : State} (h : MeshUnnumbered s t) (e n : Nat) : MeshUnnumbered s (t.raiseLim e n) := by
  obtain ⟨hregs, hmsh⟩ := raiseLim_leaves t e n
  exact ⟨⟨fun f hf => (rd_of_regs hregs f).trans (h.rd f hf), State.raiseLim_parts _ _ _ _ h.parts rfl⟩, (congrArg Msh.mseq hmsh).trans h.mseq⟩

theorem meshUnnumbered_inc {s t : State} (h : MeshUnnumbered s t) {f : Field} (hf : mshKey ≤ f.key ∧ f.key < mshEnd) : MeshUnnumbered s (t.inc f) := ⟨meshOnly_inc h.toMeshOnly hf, h.mseq⟩

theorem meshUnnumbered_seen (s : State) (l : List Seen) : MeshUnnumbered s { s with msh := { s.msh with seen := l } } := ⟨⟨fun _ _ => rfl, by simp [partsOnly_refl]⟩, rfl⟩

theorem meshUnnumbered_ite {s a b : State} (c : Prop) [Decidable c] (ha : MeshUnnumbered s a) (hb : MeshUnnumbered s b) : MeshUnnumbered s (if c then a else b) := by split <;> assumption

theorem meshUnnumbered_seenRoomMade (s : State) : MeshUnnumbered s (seenRoomMade s) := by
  unfold seenRoomMade
  split
  · next rest _ =>
    have hrest := meshUnnumbered_seen s rest
    exact meshUnnumbered_ite _ (meshUnnumbered_refl s) (meshUnnumbered_ite _ (meshUnnumbered_raiseLim (meshUnnumbered_inc hrest (by decide)) _ _) hrest)
  · exact meshUnnumbered_refl s

theorem meshUnnumbered_mshShow {s t : State} (h : MeshUnnumbered s t) : MeshUnnumbered s (mshShow t) := by
  have hshown : ∀ g ∈ shownFields, mshKey ≤ g.key ∧ g.key < mshEnd := by decide
  have honly : MeshOnly t (mshShow t) := meshOnly_of_fields (fieldsOnly_mshShow (fieldsOnly_refl shownFields t) (fun _ h => h)) hshown (mshShow_parts _ _ (partsOnly_refl _ _) rfl)
  exact ⟨meshOnly_trans h.toMeshOnly honly, (congrArg Msh.mseq (mshShow_msh t)).trans h.mseq⟩

theorem meshUnnumbered_seenInsert (id : Nat) (s : State) : MeshUnnumbered s (seenInsert id s) := by
  have hroom := meshUnnumbered_seenRoomMade s
  have hseen := meshUnnumbered_seen (seenRoomMade s) ((seenRoomMade s).msh.seen ++ [Seen.mk id s.elapsed])
  rw [seenInsert_eq]
  exact meshUnnumbered_mshShow ⟨meshOnly_trans hroom.toMeshOnly hseen.toMeshOnly, hseen.mseq.trans hroom.mseq⟩

theorem seenHas_seenInsert (id : Nat) (s : State) : seenHas (seenInsert id s) id = true := by
  rw [seenHas, seenInsert_eq, mshShow_msh]
  simp

/-- The counter of this node's floods, one on (R254). -/
def nextMseq (s : State) : Nat := (s.msh.mseq + 1) % 2 ^ 24

/-- A flood of this node has its number, and its id is in the seen cache. -/
def floodNumbered (s : State) : State := seenInsert (msgId (ownShort s) (nextMseq s)) { s with msh := { s.msh with mseq := nextMseq s } }

theorem meshOnly_floodNumbered (s : State) : MeshOnly s (floodNumbered s) :=
  meshOnly_trans (t := { s with msh := { s.msh with mseq := nextMseq s } }) ⟨fun _ _ => rfl, by simp [partsOnly_refl]⟩ (meshUnnumbered_seenInsert _ _).toMeshOnly

theorem floodOriginate_cases (dest cls ttl ptype : Nat) (payload : List Nat) (s : State) :
    (floodOriginate dest cls ttl ptype payload s).1 = nextMseq s ∧ MeshQueued (floodNumbered s) (floodOriginate dest cls ttl ptype payload s).2 := by
  have hsplit : floodOriginate dest cls ttl ptype payload s = match floodFrame (floodNumbered s) dest cls ttl ptype (nextMseq s) payload with
      | none => (nextMseq s, floodNumbered s)
      | some psdu => (nextMseq s, floodCopied cls psdu (floodNumbered s)) := by
    unfold floodOriginate floodNumbered floodCopied radioCopy nextMseq
    rfl
  rw [hsplit]
  generalize floodNumbered s = numbered
  split
  · exact ⟨rfl, meshQueued_refl numbered⟩
  · exact ⟨rfl, meshQueued_floodCopied cls _ numbered⟩

theorem floodOriginate_number (dest cls ttl ptype : Nat) (payload : List Nat) (s : State) : (floodOriginate dest cls ttl ptype payload s).1 = nextMseq s :=
  (floodOriginate_cases dest cls ttl ptype payload s).1

theorem meshOnly_floodOriginate (dest cls ttl ptype : Nat) (payload : List Nat) (s : State) : MeshOnly s (floodOriginate dest cls ttl ptype payload s).2 :=
  meshOnly_trans (meshOnly_floodNumbered s) (floodOriginate_cases dest cls ttl ptype payload s).2.toMeshOnly

theorem floodOriginate_mseq (dest cls ttl ptype : Nat) (payload : List Nat) (s : State) : (floodOriginate dest cls ttl ptype payload s).2.msh.mseq = nextMseq s :=
  (floodOriginate_cases dest cls ttl ptype payload s).2.mseq.trans (meshUnnumbered_seenInsert _ _).mseq

theorem floodOriginate_seenHas (dest cls ttl ptype : Nat) (payload : List Nat) (s : State) :
    seenHas (floodOriginate dest cls ttl ptype payload s).2 (msgId (ownShort s) (nextMseq s)) = true := by
  rw [seenHas, (floodOriginate_cases dest cls ttl ptype payload s).2.seen]
  exact seenHas_seenInsert _ _

/-! ### A unicast of this node (R264, R267) -/

theorem meshOnly_toNb (nb : Nb) (u : List Nat) (s : State) : MeshOnly s (toNb nb u s) := by
  unfold toNb
  dsimp only
  split
  · exact (meshQueued_enqueue _ _ _ _ _ _ _ _).toMeshOnly
  · split
    · exact (meshQueued_enqueue _ _ _ _ _ _ _ _).toMeshOnly
    · exact meshOnly_inc (meshOnly_refl s) (by decide)

/-- At the end of the tree a unicast with no route becomes a flood at the root, and ends elsewhere. -/
def unrouted (u : List Nat) (s : State) : State :=
  if isRoot s then (floodOriginate (leAt u 3 2) (bitsOf (leAt u 0 1) 6 5) (cfgN s 7 1) (leAt u 5 1) (u.drop 6) s).2.inc Reg.MSH_ROUTEFLDCNT else s.inc Reg.MSH_NOROUTECNT

theorem meshOnly_unrouted (u : List Nat) (s : State) : MeshOnly s (unrouted u s) := by
  unfold unrouted
  split
  · exact meshOnly_inc (meshOnly_floodOriginate _ _ _ _ _ s) (by decide)
  · exact meshOnly_inc (meshOnly_refl s) (by decide)

/-- A unicast of this node's own goes by its route, else up the tree. -/
theorem unicastForward_own (u : List Nat) (s : State) :
    unicastForward none u s = match routeOf s (leAt u 3 2) with
      | some r => toNb r u s
      | none => match upNb s with
        | some n => toNb n u s
        | none => unrouted u s := by
  cases hroute : routeOf s (leAt u 3 2) with
  | some r => simp [unicastForward, hroute]
  | none => cases hup : upNb s <;> simp [unicastForward, hroute, hup, unrouted]

theorem meshOnly_unicastSend (dst cls ttl ptype : Nat) (payload : List Nat) (s : State) : MeshOnly s (unicastSend dst cls ttl ptype payload s) := by
  unfold unicastSend
  split
  · exact meshOnly_inc (meshOnly_refl s) (by decide)
  · rw [unicastForward_own]
    split
    · exact meshOnly_toNb _ _ s
    · split
      · exact meshOnly_toNb _ _ s
      · exact meshOnly_unrouted _ s

end Sys2Proof.Machine
end

section
/-!
SUPPORT. The network's settings by mailbox and a flood that an application sends (R346, R350, R351).
-/
namespace Sys2Proof.Machine

/-! ### A variant without a coordinator (R740, R742, R744) -/

theorem taken_isC (m dt : Nat) (s : State) : (taken m dt s).isC = s.isC := rfl

theorem onC_refused {m : Nat} {r : MbReq} {body : State → State} {s : State} (h : s.isC = false) : onC m r body s = mbResult m r Rc.VARIANT [] s := by
  rw [onC, h, if_neg Bool.false_ne_true]

theorem onC_run {m : Nat} {r : MbReq} {body : State → State} {s : State} (h : s.isC = true) : onC m r body s = body s := by rw [onC, h, if_pos rfl]

/-- Each command of the coordinator is a body behind the variant. -/
theorem exec_of_coordinator {c : Nat → Nat → Instr} {id len : Nat}
    (hc : (c, id, len) ∈ [(Instr.coGroupcmd, 0x0600, 16), (Instr.coNodes, 0x0601, 2), (Instr.coNode, 0x0602, 2), (Instr.coAdmit, 0x0604, 9), (Instr.coDispatch, 0x0605, 3), (Instr.pairStatus, 0x0A00, 0),
      (Instr.pairConfig, 0x0A01, 1), (Instr.pairSwitch, 0x0A02, 8), (Instr.updDistribute, 0x0B03, 6)]) (m dt : Nat) (s : State) :
    ∃ (long : Bool) (body : MbReq → State → State), exec (c m dt) s = .next (onlyIf (cmdOk m id (s.pass dt)) ((cond long longCmd shortCmd) m len (fun r => onC m r (body r)) (s.pass dt)) (s.pass dt)) := by
  simp only [List.mem_cons, List.not_mem_nil, or_false, Prod.mk.injEq] at hc
  rcases hc with ⟨rfl, rfl, rfl⟩ | ⟨rfl, rfl, rfl⟩ | ⟨rfl, rfl, rfl⟩ | ⟨rfl, rfl, rfl⟩ | ⟨rfl, rfl, rfl⟩ | ⟨rfl, rfl, rfl⟩ | ⟨rfl, rfl, rfl⟩ | ⟨rfl, rfl, rfl⟩ | ⟨rfl, rfl, rfl⟩
  · exact ⟨true, _, rfl⟩
  · exact ⟨false, _, rfl⟩
  · exact ⟨false, _, rfl⟩
  · exact ⟨false, _, rfl⟩
  · exact ⟨true, _, rfl⟩
  · exact ⟨false, _, rfl⟩
  · exact ⟨false, _, rfl⟩
  · exact ⟨true, _, rfl⟩
  · exact ⟨true, _, rfl⟩

theorem coordinator_refused (c : Nat → Nat → Instr) (id len m dt : Nat) (s : State)
    (hc : (c, id, len) ∈ [(Instr.coGroupcmd, 0x0600, 16), (Instr.coNodes, 0x0601, 2), (Instr.coNode, 0x0602, 2), (Instr.coAdmit, 0x0604, 9), (Instr.coDispatch, 0x0605, 3), (Instr.pairStatus, 0x0A00, 0),
      (Instr.pairConfig, 0x0A01, 1), (Instr.pairSwitch, 0x0A02, 8), (Instr.updDistribute, 0x0B03, 6)])
    (hr : requestOk m id len s = true) (hn : s.isC = false) :
    completes (c m dt) s (fun t => replied m 9 [] s t ∧ changesOnly [Reg.MB_REQ_REQRD m] [.mboxes, .mbLast, .flight] (s.pass dt) t) := by
  obtain ⟨long, body, hexec⟩ := exec_of_coordinator hc m dt s
  have hanswer := mbResult_taken (passes_of_requestOk hr).lt_length dt Rc.VARIANT []
  rw [← onC_refused (body := body (mbReq s m)) ((taken_isC m dt s).trans hn)] at hanswer
  cases long
  · exact completes_short hexec hr hanswer
  · exact completes_long hexec hr hanswer

/-! ### NET_CFG_SET (R350, R351) -/

theorem isJoined_taken {m : Nat} (hm : m < 4) (dt : Nat) (s : State) : isJoined (taken m dt s) = isJoined s :=
  taken_on_off hm (by simp [offMbx, Field.key, Reg.LNK_STAT_JOINED])

theorem isCoord_taken {m : Nat} (hm : m < 4) (dt : Nat) (s : State) : isCoord (taken m dt s) = isCoord s := taken_on_off hm (by simp [offMbx, Field.key, Reg.MSH_STAT_COORD])

theorem cfgRefusal_taken {m : Nat} (hm : m < 4) (dt : Nat) (s : State) (buf : Option (List Nat)) (instant : Nat) : cfgRefusal (taken m dt s) buf instant = cfgRefusal (s.pass dt) buf instant := by
  have hjoined : isJoined (taken m dt s) = isJoined (s.pass dt) := isJoined_taken hm dt s
  have hcoord : isCoord (taken m dt s) = isCoord (s.pass dt) := isCoord_taken hm dt s
  have hcfg (off n : Nat) : cfgN (taken m dt s) off n = cfgN (s.pass dt) off n := rfl
  have hexp : (taken m dt s).rd Reg.LNK_STAT_BIEXP = (s.pass dt).rd Reg.LNK_STAT_BIEXP := taken_rd_off hm (by simp [offMbx, Field.key, Reg.LNK_STAT_BIEXP])
  have hinterval : biFt (taken m dt s) = biFt (s.pass dt) := by
    rw [biFt, biU, hexp, biFt, biU]
  have hnow : (taken m dt s).now = (s.pass dt).now := rfl
  have hnext : (taken m dt s).lnk.nextCfg = (s.pass dt).lnk.nextCfg := rfl
  unfold cfgRefusal
  rw [hjoined, hcoord, hcfg, hinterval, hnow, hnext]

section
variable (m dt : Nat) (s : State) (hr : requestOk m 0x0201 16 s = true)
include hr

theorem netCfgSet_refused (st : Nat) (hst : cfgRefusal (s.pass dt) (bufOf s m ((mbReq s m).at_ 0 1)) ((mbReq s m).at_ 8 8) = some st) :
    completes (.netCfgSet m dt) s (fun t => replied m st [] s t ∧ changesOnly [Reg.MB_REQ_REQRD m] [.mboxes, .mbLast, .flight] (s.pass dt) t) := by
  have hpass := passes_of_requestOk hr
  refine completes_long rfl hr ?_
  simp only [bufOf_taken, cfgRefusal_taken hpass.lt_four, hst]
  exact mbResult_taken hpass.lt_length dt _ _

variable (hst : cfgRefusal (s.pass dt) (bufOf s m ((mbReq s m).at_ 0 1)) ((mbReq s m).at_ 8 8) = none)
include hst

theorem netCfgSet_later (hcoord : isCoord s = true) :
    completes (.netCfgSet m dt) s (fun t => started m [(mbReq s m).at_ 0 1] s t ∧ t.netCfg = s.netCfg ∧
      t.lnk.nextCfg = some ⟨((bufOf s m ((mbReq s m).at_ 0 1)).getD []).take 400, (mbReq s m).at_ 8 8, false⟩) := by
  have hpass := passes_of_requestOk hr
  refine completes_long rfl hr ?_
  simp only [bufOf_taken, cfgRefusal_taken hpass.lt_four, hst, isCoord_taken hpass.lt_four, hcoord, if_true]
  exact ⟨started_of_accepted hpass rfl rfl, rfl, trivial⟩

end

/-- The field is of the receiver's sampling, or of the registers above the links'. -/
def isRadio (f : Field) : Prop := (32 * 0x40070000 ≤ f.key ∧ f.key < 32 * 0x400A0000) ∨ mshKey ≤ f.key

/-- A field outside the receiver's sampling, the wake-up radio's registers and the forwarding layer's. -/
theorem rd_wr_radio {f g : Field} (hf : ¬ isRadio f) (hg : isRadio g) (v : Nat) (s : State) : (s.wr g v).rd f = s.rd f := by
  refine State.rd_wr_other _ _ fun he => hf ?_
  rw [isRadio, he]
  exact hg

section
variable {f : Field} (hf : ¬ isRadio f)
include hf

theorem mshConfig_rd (old : List Nat) (s : State) : (mshConfig old s).rd f = s.rd f := by
  unfold mshConfig
  dsimp only
  refine (foldl_same (fun t : State => t.rd f) _ _ _ fun t p => ?_).trans ?_
  · refine (foldl_same (fun t : State => t.rd f) _ _ _ fun u fr => ?_).trans rfl
    split <;> rfl
  · repeat rw [rd_wr_radio hf (.inr (by decide))]

theorem winShow_rd (s : State) : (winShow s).rd f = s.rd f := by
  unfold winShow
  dsimp only
  repeat rw [rd_wr_radio hf (.inl (by decide))]

/-- A window's settings are written. -/
def winConfig (w : Nat) (t : State) : State :=
  let o := 360 + 16 * w
  let width := leAt t.netCfg (o + 4) 1
  let t1 := ((t.wr (Reg.RXC_WIN_EN w) (b2n (width != 0))).wr (Reg.RXC_WIN_WIDTH w) width).wr (Reg.RXC_WIN_FC w) (if width = 0 then 0 else leAt t.netCfg o 4)
  ((List.range 4).foldl (fun u k => u.wr (msetField w k) (leAt t.netCfg (o + 8 + k) 1)) t1).wr (if w = 0 then Reg.RXC_MPRIO_P0 else Reg.RXC_MPRIO_P1) (leAt t.netCfg (o + 12) 1)

omit hf in
theorem rxcConfig_eq (s : State) : rxcConfig s = winShow ((List.range 2).foldl (fun t w => winConfig w t) s) := rfl

omit hf in
theorem isRadio_msetField {w : Nat} (hw : w < 2) (k : Nat) : isRadio (msetField w k) := by
  unfold msetField
  split <;> refine .inl ?_ <;> simp only [Field.key, Reg.RXC_MSET_M0, Reg.RXC_MSET_M1, Reg.RXC_MSET_M2, Reg.RXC_MSET_M3] <;> omega

theorem winConfig_rd {w : Nat} (hw : w < 2) (s : State) : (winConfig w s).rd f = s.rd f := by
  have hprio : isRadio (if w = 0 then Reg.RXC_MPRIO_P0 else Reg.RXC_MPRIO_P1) := by split <;> exact .inl (by decide)
  have hfc : isRadio (Reg.RXC_WIN_FC w) := .inl (by simp only [Field.key, Reg.RXC_WIN_FC]; omega)
  have hwidth : isRadio (Reg.RXC_WIN_WIDTH w) := .inl (by simp only [Field.key, Reg.RXC_WIN_WIDTH]; omega)
  have hen : isRadio (Reg.RXC_WIN_EN w) := .inl (by simp only [Field.key, Reg.RXC_WIN_EN]; omega)
  refine (rd_wr_radio hf hprio _ _).trans ((foldl_same (fun u : State => u.rd f) _ _ _ fun u k => rd_wr_radio hf (isRadio_msetField hw k) _ _).trans ?_)
  rw [rd_wr_radio hf hfc, rd_wr_radio hf hwidth, rd_wr_radio hf hen]

theorem rxcConfig_rd (s : State) : (rxcConfig s).rd f = s.rd f := by
  rw [rxcConfig_eq, winShow_rd hf]
  exact foldl_mem_rd _ _ f (fun t w hw => winConfig_rd hf (List.mem_range.1 hw) t) s

theorem rxcApply_rd (s : State) : (rxcApply s).rd f = s.rd f := by
  have hfields : ∀ g ∈ samplingFields, (32 * 0x40070000 ≤ g.key ∧ g.key < 32 * 0x400A0000) ∨ mshKey ≤ g.key := by decide
  refine (rxcApply_fields s f fun g hg he => hf ?_).1
  rw [isRadio, he]
  exact hfields g hg

theorem wurConfig_rd (s : State) : (wurConfig s).rd f = s.rd f := by
  unfold wurConfig
  split
  · exact (rd_wr_radio hf (.inl (by decide)) _ _).trans (rd_wr_radio hf (.inl (by decide)) _ _)
  · exact rd_wr_radio hf (.inl (by decide)) _ _

/-- Putting settings in force shows the network and the regime. -/
def cfgShown (obj : List Nat) (s : State) : State :=
  ((({ s with netCfg := obj } : State).wr Reg.LNK_PARENT_NETID (leAt obj 0 2)).wr Reg.LNK_STAT_BIEXP (leAt obj 5 1)).wr Reg.RFE_STAT_REGIME (leAt obj 4 1)

omit hf in
theorem cfgApply_eq (obj : List Nat) (s : State) : cfgApply obj s = wurConfig (rxcApply (rxcConfig (mshConfig s.netCfg (cfgShown obj s)))) := rfl

theorem cfgApply_rd (obj : List Nat) (s : State) : (cfgApply obj s).rd f = (cfgShown obj s).rd f := by
  rw [cfgApply_eq, wurConfig_rd hf, rxcApply_rd hf, rxcConfig_rd hf, mshConfig_rd hf]

end

theorem cfgShown_netid (obj : List Nat) (s : State) : (cfgShown obj s).rd Reg.LNK_PARENT_NETID = leAt obj 0 2 % 2 ^ 16 := by
  rw [cfgShown, State.rd_wr_other _ _ (by decide), State.rd_wr_other _ _ (by decide)]
  exact State.rd_wr_same _ _ _

theorem cfgShown_regime (obj : List Nat) (s : State) : (cfgShown obj s).rd Reg.RFE_STAT_REGIME = leAt obj 4 1 % 16 := State.rd_wr_same _ _ _

/-- Settings in force: the object, the network's identity and the regime (R350). -/
structure InForce (obj : List Nat) (t : State) : Prop where
  netCfg : t.netCfg = obj
  netid : t.rd Reg.LNK_PARENT_NETID = leAt obj 0 2 % 2 ^ 16
  regime : t.rd Reg.RFE_STAT_REGIME = leAt obj 4 1 % 16

theorem cfgApply_netCfg (obj : List Nat) (s : State) : (cfgApply obj s).netCfg = obj := by
  have hparts : partsOnly [.rxc, .msh, .regs] (cfgShown obj s) (cfgApply obj s) := by
    rw [cfgApply_eq]
    exact wurConfig_parts _ _ (rxcApply_parts _ _ (rxcConfig_parts _ _ (mshConfig_parts _ _ _ (partsOnly_refl _ _) rfl) rfl) rfl) rfl
  have hkept : (cfgApply obj s).netCfg = (cfgShown obj s).netCfg := hparts .netCfg (by decide)
  rw [hkept]
  rfl

theorem inForce_cfgInForce (obj : List Nat) (s : State) : InForce obj (cfgInForce obj s) := by
  have hnotice : partsOnly [.mboxes, .regs, .heldNotices] (cfgApply obj s) (cfgInForce obj s) := by
    rw [cfgInForce]
    exact netNotice_parts _ _ _ (partsOnly_refl _ _) rfl
  have hkept : (cfgInForce obj s).netCfg = (cfgApply obj s).netCfg := hnotice .netCfg (by decide)
  have hrd (f : Field) (hoff : offMbx f) : (cfgInForce obj s).rd f = (cfgApply obj s).rd f := by
    rw [cfgInForce, netNotice, notice_rd _ _ _ _ _ hoff]
  have hoffNetid : offMbx Reg.LNK_PARENT_NETID := .inl (by decide)
  have hoffRegime : offMbx Reg.RFE_STAT_REGIME := .inl (by decide)
  have hnetid : ¬ isRadio Reg.LNK_PARENT_NETID := by rintro (⟨-, h⟩ | h) <;> exact absurd h (by decide)
  have hregime : ¬ isRadio Reg.RFE_STAT_REGIME := by rintro (⟨h, -⟩ | h) <;> exact absurd h (by decide)
  exact ⟨hkept.trans (cfgApply_netCfg obj s), (hrd _ hoffNetid).trans ((cfgApply_rd hnetid obj s).trans (cfgShown_netid obj s)),
    (hrd _ hoffRegime).trans ((cfgApply_rd hregime obj s).trans (cfgShown_regime obj s))⟩

/-- The end of an operation changes its mailbox alone. -/
theorem opEnd_partsOnly (m tag k st : Nat) (pl : List Nat) (s : State) : partsOnly [.mboxes] s (opEnd m tag k st pl s) := opEnd_parts m tag k st pl s s (partsOnly_refl _ s) rfl

theorem inForce_opEnd {obj : List Nat} {s : State} (h : InForce obj s) (m tag k st : Nat) (pl : List Nat) : InForce obj (opEnd m tag k st pl s) :=
  ⟨(opEnd_partsOnly m tag k st pl s .netCfg (by decide)).trans h.netCfg, (opEnd_rd m tag k st pl s _).trans h.netid, (opEnd_rd m tag k st pl s _).trans h.regime⟩

theorem netCfgSet_now (m dt : Nat) (obj : List Nat) (s : State) (hr : requestOk m 0x0201 16 s = true)
    (hst : cfgRefusal (s.pass dt) (bufOf s m ((mbReq s m).at_ 0 1)) ((mbReq s m).at_ 8 8) = none) (hcoord : isCoord s = false) (hobj : obj = ((bufOf s m ((mbReq s m).at_ 0 1)).getD []).take 400) :
    completes (.netCfgSet m dt) s (fun t => t.netCfg = obj ∧ t.rd Reg.LNK_PARENT_NETID = leAt obj 0 2 % 2 ^ 16 ∧ t.rd Reg.RFE_STAT_REGIME = leAt obj 4 1 % 16 ∧ opOf t m (mbReq s m).tag = none) := by
  subst hobj
  have hpass := passes_of_requestOk hr
  refine completes_long rfl hr ?_
  simp only [bufOf_taken, cfgRefusal_taken hpass.lt_four, hst, isCoord_taken hpass.lt_four, hcoord, Bool.false_eq_true, if_false]
  obtain ⟨hnetCfg, hnetid, hregime⟩ := inForce_opEnd (inForce_cfgInForce (((bufOf s m ((mbReq s m).at_ 0 1)).getD []).take 400) (accepted m dt [(mbReq s m).at_ 0 1] s)) m (mbReq s m).tag 3 0 []
  exact ⟨hnetCfg, hnetid, hregime, opOf_opEnd _ _ _ _ _ _⟩

/-- Settings in force after their instant, which is over. -/
structure InForceNow (obj : List Nat) (t : State) : Prop extends InForce obj t where
  done : t.lnk.nextCfg = none

theorem inForceNow_opEnd {obj : List Nat} {s : State} (h : InForceNow obj s) (m tag k st : Nat) (pl : List Nat) : InForceNow obj (opEnd m tag k st pl s) :=
  ⟨inForce_opEnd h.toInForce m tag k st pl, (congrArg Lnk.nextCfg (opEnd_partsOnly m tag k st pl s .lnk (by decide))).trans h.done⟩

/-- The waiting settings are no longer so. -/
def cfgDue (s : State) : State := { s with lnk := { s.lnk with nextCfg := none, wantCfg := false } }

theorem inForceNow_cfgInForce (obj : List Nat) (s : State) : InForceNow obj (cfgInForce obj (cfgDue s)) := by
  have hparts : partsOnly [.rxc, .netCfg, .msh, .mboxes, .regs, .heldNotices] (cfgDue s) (cfgInForce obj (cfgDue s)) := cfgInForce_parts _ _ _ (partsOnly_refl _ _) rfl
  exact ⟨inForce_cfgInForce obj _, congrArg Lnk.nextCfg (hparts .lnk (by decide))⟩

theorem netCfgInstant_applies (dt : Nat) (n : NextCfg) (s : State) (hok : netCfgInstantOk (s.pass dt) = true) (hn : s.lnk.nextCfg = some n) :
    completes (.netCfgInstant dt) s (fun t => t.netCfg = n.obj ∧ t.lnk.nextCfg = none ∧ t.rd Reg.RFE_STAT_REGIME = leAt n.obj 4 1 % 16) := by
  have hdone : InForceNow n.obj (netCfgInstant (s.pass dt)) := by
    simp only [netCfgInstant, show (s.pass dt).lnk.nextCfg = some n from hn]
    refine foldl_keeps (InForceNow n.obj) _ _ _ (fun t m ht => foldl_keeps (InForceNow n.obj) _ _ _ (fun u o hu => ?_) ht) (inForceNow_cfgInForce n.obj (s.pass dt))
    split
    · exact inForceNow_opEnd hu _ _ _ _ _
    · exact hu
  exact completes_of_onlyIf rfl hok ⟨hdone.netCfg, hdone.done, hdone.regime⟩

/-! ### NET_SEND (R346) -/

theorem ownShort_taken {m : Nat} (hm : m < 4) (dt : Nat) (s : State) : ownShort (taken m dt s) = ownShort s := taken_rd_off hm (by simp [offMbx, Field.key, Reg.LNK_STAT_SHORT])

section
variable (m len dt : Nat) (s : State) (hr : requestOk m 0x0203 len s = true) (hlen : 8 ≤ len) (hflags : (mbReq s m).at_ 5 1 = 0) (htype : 0x80 ≤ (mbReq s m).at_ 2 1) (hcls : (mbReq s m).at_ 3 1 ≤ 3)
  (httl : (mbReq s m).at_ 4 1 ≤ 31)
include hr hlen hflags htype hcls httl

/-- The payload of a flood stands in the request; it goes out when the node has joined and it fits. -/
theorem netSend_request {P : State → Prop}
    (hP : P (if !isJoined (taken m dt s) then mbResult m (mbReq s m) Rc.NOTREADY [] (taken m dt s)
      else if meshMax < floodLen ((mbReq s m).data.drop 8).length then mbResult m (mbReq s m) Rc.NET_TOOLONG [] (taken m dt s)
      else mbResult m (mbReq s m) Rc.OK (leBytes 4 (floodOriginate ((mbReq s m).at_ 0 2) ((mbReq s m).at_ 3 1) (if (mbReq s m).at_ 4 1 = 0 then cfgN (taken m dt s) 7 1 else (mbReq s m).at_ 4 1)
          ((mbReq s m).at_ 2 1) ((mbReq s m).data.drop 8) (taken m dt s)).1)
        (floodOriginate ((mbReq s m).at_ 0 2) ((mbReq s m).at_ 3 1) (if (mbReq s m).at_ 4 1 = 0 then cfgN (taken m dt s) 7 1 else (mbReq s m).at_ 4 1)
          ((mbReq s m).at_ 2 1) ((mbReq s m).data.drop 8) (taken m dt s)).2)) :
    completes (.netSend m dt) s P := by
  have huni : (bitOf ((mbReq s m).at_ 5 1) 0 == 1) = false := by rw [hflags]; decide
  have hwhole : (bitOf ((mbReq s m).at_ 5 1) 1 == 1) = false := by rw [hflags]; decide
  have hsf : decide (4 ≤ (mbReq s m).at_ 5 1) = false := by rw [hflags]; decide
  have htype : decide ((mbReq s m).at_ 2 1 < 0x80) = false := by simpa using htype
  have hcls : decide (3 < (mbReq s m).at_ 3 1) = false := by simpa using hcls
  have httl : decide (31 < (mbReq s m).at_ 4 1) = false := by simpa using httl
  refine completes_cmdRun rfl hr (decide_eq_true hlen) ?_
  simp only [huni, hwhole, hsf, htype, hcls, httl, Bool.false_and, Bool.or_self, Bool.false_eq_true, if_false]
  exact hP

theorem netSend_unjoined (hjoined : isJoined s = false) :
    completes (.netSend m dt) s (fun t => replied m 10 [] s t ∧ changesOnly [Reg.MB_REQ_REQRD m] [.mboxes, .mbLast, .flight] (s.pass dt) t) := by
  have hpass := passes_of_requestOk hr
  refine netSend_request m len dt s hr hlen hflags htype hcls httl ?_
  rw [isJoined_taken hpass.lt_four, hjoined, if_pos (by decide)]
  exact mbResult_taken hpass.lt_length dt _ _

theorem netSend_floods (hjoined : isJoined s = true) (hfit : floodLen ((mbReq s m).data.drop 8).length ≤ meshMax) :
    completes (.netSend m dt) s (fun t => replied m 0 (leBytes 4 ((s.msh.mseq + 1) % 2 ^ 24)) s t ∧ t.msh.mseq = (s.msh.mseq + 1) % 2 ^ 24 ∧
      seenHas t (msgId (ownShort s) ((s.msh.mseq + 1) % 2 ^ 24)) = true) := by
  have hpass := passes_of_requestOk hr
  refine netSend_request m len dt s hr hlen hflags htype hcls httl ?_
  rw [isJoined_taken hpass.lt_four, hjoined, if_neg (by decide), if_neg (Nat.not_lt.2 hfit), floodOriginate_number]
  generalize (if (mbReq s m).at_ 4 1 = 0 then cfgN (taken m dt s) 7 1 else (mbReq s m).at_ 4 1) = ttl
  have hmesh := meshOnly_floodOriginate ((mbReq s m).at_ 0 2) ((mbReq s m).at_ 3 1) ttl ((mbReq s m).at_ 2 1) ((mbReq s m).data.drop 8) (taken m dt s)
  have hseen := floodOriginate_seenHas ((mbReq s m).at_ 0 2) ((mbReq s m).at_ 3 1) ttl ((mbReq s m).at_ 2 1) ((mbReq s m).data.drop 8) (taken m dt s)
  have hmseq := floodOriginate_mseq ((mbReq s m).at_ 0 2) ((mbReq s m).at_ 3 1) ttl ((mbReq s m).at_ 2 1) ((mbReq s m).data.drop 8) (taken m dt s)
  rw [ownShort_taken hpass.lt_four] at hseen
  rw [seenHas, mbResult_msh]
  exact ⟨replied_mbResult (took_of_same (took_taken hpass.lt_length dt) hmesh.mboxes (hmesh.reqrd m)) _ _, hmseq, hseen⟩

end

end Sys2Proof.Machine
end

section
/-!
SUPPORT. The long and service commands of the mailbox: the schedule, the coordinator and the pair (R354, R668, R681, R731, R740, R742, R744).
-/
namespace Sys2Proof.Machine

/-! ### LUM_SCHED (R354, R731): what the lamp's service does with a new object leaves the object -/

section
variable (s : State)

theorem cmpDisarm_lum (n : Nat) : (cmpDisarm n s).lum = s.lum := cmpDisarm_parts n s s (partsOnly_refl [.regs] s) rfl .lum (by decide)

theorem lumDrop_sched (a : LumAct) : (lumDrop a s).lum.sched = s.lum.sched := by
  unfold lumDrop
  dsimp only
  split
  · rw [cmpDisarm_lum]
    rfl
  · rfl

theorem lumArmCmp_lum (n t : Nat) : (lumArmCmp n t s).lum = s.lum := lumArmCmp_parts n t s s (partsOnly_refl [.firn, .regs] s) rfl .lum (by decide)

theorem lumArm_sched (k : Nat) (s : State) : (lumArm k s).lum.sched = s.lum.sched := by
  induction k generalizing s with
  | zero => rfl
  | succ k ih =>
    unfold lumArm
    split
    · rw [ih, lumArmCmp_lum]
      rfl
    · rfl

theorem lumDay_sched : (lumDay s).lum.sched = s.lum.sched := by
  have hdrop := foldl_same (fun t : State => t.lum.sched) (fun t a => lumDrop a t) (s.lum.acts.filter (fun a => a.src == 1)) s (fun t a => lumDrop_sched t a)
  unfold lumDay
  rw [lumArm_sched]
  exact hdrop

theorem arcFeed_sched : (arcFeed s).lum.sched = s.lum.sched := by
  unfold arcFeed
  split
  · rfl
  · split
    · rfl
    · change (daliSend _).lum.sched = _
      rw [daliSend_lum]
      rfl

theorem lumWrite_sched (lt dali : Bool) (level : Nat) : (lumWrite lt dali level s).lum.sched = s.lum.sched := by
  unfold lumWrite
  rw [arcFeed_sched]
  cases lt <;> rfl

theorem lumJudge_sched : (lumJudge s).lum.sched = s.lum.sched := by
  unfold lumJudge
  dsimp only
  split
  · rfl
  · split
    · rw [lumWrite_sched]
      rfl
    · rfl

theorem lumTake_sched (lt : Bool) (a : LumAct) : (lumTake lt a s).lum.sched = s.lum.sched := by
  unfold lumTake
  dsimp only
  split
  · rfl
  · split
    · rw [lumWrite_sched]
      rfl
    · exact (lumWrite_sched _ _ _ _).trans rfl

theorem lumStore_sched (o : List Nat) : (lumStore o s).lum.sched = o.take (schedLen o) := by
  unfold lumStore
  dsimp only
  split
  · rfl
  · have hkept (u : State) (hu : u.lum.sched = o.take (schedLen o)) : (lumJudge (lumDay u)).lum.sched = o.take (schedLen o) := by rw [lumJudge_sched, lumDay_sched, hu]
    split
    · split
      · rw [lumTake_sched]
        exact hkept _ rfl
      · exact hkept _ rfl
    · exact hkept _ rfl

end

theorem lumSched_stores (m dt : Nat) (b : List Nat) (s : State) (hr : requestOk m 0x0502 1 s = true) (hb : bufOf s m ((mbReq s m).at_ 0 1) = some b) (hok : schedOk b = true)
    (hro : s.on Reg.FLC_STAT_RO = false) : completes (.lumSched m dt) s (fun t => t.lum.sched = b.take (schedLen b) ∧ opOf t m (mbReq s m).tag = none) := by
  have hpass := passes_of_requestOk hr
  have hro : (taken m dt s).on Reg.FLC_STAT_RO = false := (taken_on_off hpass.lt_four (.inr (by decide))).trans hro
  refine completes_long rfl hr ?_
  simp only [bufOf_taken, hb, hok, hro, Bool.not_true, Bool.false_eq_true, if_false]
  exact ⟨(congrArg Lum.sched (opEnd_partsOnly _ _ _ _ _ _ .lum (by decide))).trans (lumStore_sched _ b), opOf_opEnd _ _ _ _ _ _⟩

/-! ### The coordinator (R740, R742, R744) -/

section
variable {fs : List Field} {ps : List Piece} {z s : State}

theorem changesOnly_coMod (h : changesOnly fs ps z s) (hp : Piece.co ∈ ps) (f : Co → Co) : changesOnly fs ps z (coMod f s) :=
  changesOnly_piece h rfl rfl (coMod_parts f s s (partsOnly_refl _ s) rfl) hp

theorem changesOnly_mirMod (h : changesOnly fs ps z s) (hp : Piece.mir ∈ ps) (f : Mir → Mir) : changesOnly fs ps z (mirMod f s) :=
  changesOnly_piece h rfl rfl (mirMod_parts f s s (partsOnly_refl _ s) rfl) hp

end

theorem coActive_taken {m : Nat} (hm : m < 4) (dt : Nat) (s : State) : coActive (taken m dt s) = coActive s := by
  have hleaf : isLeaf (taken m dt s) = isLeaf s := taken_on_off hm (by simp [offMbx, Field.key, Reg.BKP_SET0_PROFILE])
  have hrole : (taken m dt s).rd Reg.MIR_STAT_ROLE = s.rd Reg.MIR_STAT_ROLE := taken_rd_off hm (by simp [offMbx, Field.key, Reg.MIR_STAT_ROLE])
  rw [coActive, hleaf, isCoord_taken hm, hrole, taken_isC, coActive]

/-- The command that collects, as it starts. -/
def cmdStarted (mb op group mseq t collect : Nat) : CoCmd := CoCmd.mk mb op group (mseq % 65536) t (t + ftS collect) [] []

/-- The order of a group command, as it is flooded. -/
def groupPdu (level fade t : Nat) : List Nat := [1, 0] ++ leBytes 2 level ++ leBytes 2 fade ++ [0, 0] ++ leBytes 8 t

theorem coGroupStart_eq (mb op group level fade collect t : Nat) (s : State) :
    coGroupStart mb op group level fade collect t s =
      coMod (fun c => { c with cmds := c.cmds ++ [cmdStarted mb op group (floodOriginate group 1 (cfgN s 7 1) 1 (groupPdu level fade t) s).1 t collect] })
        (floodOriginate group 1 (cfgN s 7 1) 1 (groupPdu level fade t) s).2 := rfl

theorem coGroupStart_starts (mb op group level fade collect t : Nat) (s : State) :
    (coGroupStart mb op group level fade collect t s).mboxes = s.mboxes ∧
      (∀ m, (coGroupStart mb op group level fade collect t s).rd (Reg.MB_REQ_REQRD m) = s.rd (Reg.MB_REQ_REQRD m)) ∧
      ∃ mseq, (coGroupStart mb op group level fade collect t s).co.cmds = s.co.cmds ++ [cmdStarted mb op group mseq t collect] := by
  have hmesh := meshOnly_floodOriginate group 1 (cfgN s 7 1) 1 (groupPdu level fade t) s
  have hco : (floodOriginate group 1 (cfgN s 7 1) 1 (groupPdu level fade t) s).2.co = s.co := hmesh.parts .co (by decide)
  rw [coGroupStart_eq]
  generalize floodOriginate group 1 (cfgN s 7 1) 1 (groupPdu level fade t) s = sent at hmesh hco ⊢
  exact ⟨hmesh.mboxes, hmesh.reqrd, _, congrArg (fun c : Co => c.cmds ++ [_]) hco⟩

theorem coGroupcmd_starts (m dt : Nat) (s : State) (hr : requestOk m 0x0600 16 s = true) (hC : s.isC = true) (hactive : coActive s = true) (hgroup : groupOk ((mbReq s m).at_ 0 2) = true)
    (hlevel : (mbReq s m).at_ 2 2 ≤ 1000) (hT : (s.pass dt).now + ftS 2 ≤ (mbReq s m).at_ 8 8) :
    completes (.coGroupcmd m dt) s (fun t => started m [0] s t ∧ ∃ g, t.co.cmds = s.co.cmds ++ [g] ∧ g.mb = m ∧ g.op = (mbReq s m).tag ∧ g.group = (mbReq s m).at_ 0 2 ∧ g.t = (mbReq s m).at_ 8 8 ∧
      g.end_ = (mbReq s m).at_ 8 8 + ftS ((mbReq s m).at_ 6 2)) := by
  have hpass := passes_of_requestOk hr
  have hok : ¬ ((!groupOk ((mbReq s m).at_ 0 2)) = true ∨ 1000 < (mbReq s m).at_ 2 2 ∨ (mbReq s m).at_ 8 8 < (taken m dt s).now + ftS 2) := by
    rw [hgroup]
    rintro (h | h | h)
    · exact absurd h (by decide)
    · exact absurd hlevel (Nat.not_le.2 h)
    · exact absurd hT (Nat.not_le.2 h)
  refine completes_long rfl hr ?_
  rw [onC_run ((taken_isC m dt s).trans hC), if_neg hok, coActive_taken hpass.lt_four, hactive, if_neg (by decide)]
  obtain ⟨hboxes, hreqrd, mseq, hcmds⟩ :=
    coGroupStart_starts m (mbReq s m).tag ((mbReq s m).at_ 0 2) ((mbReq s m).at_ 2 2) ((mbReq s m).at_ 4 2) ((mbReq s m).at_ 6 2) ((mbReq s m).at_ 8 8) (accepted m dt [0] s)
  exact ⟨started_of_accepted hpass hboxes (hreqrd m), cmdStarted m (mbReq s m).tag ((mbReq s m).at_ 0 2) mseq ((mbReq s m).at_ 8 8) ((mbReq s m).at_ 6 2), hcmds, rfl, rfl, rfl, rfl, rfl⟩

theorem collectEnd_ends (dt : Nat) (g : CoCmd) (s : State) (hok : collectEndOk (s.pass dt) = true) (hg : s.co.cmds.find? (fun g => decide (g.end_ ≤ (s.pass dt).now)) = some g)
    (_ : s.mboxes.length = 4) :
    completes (.collectEnd dt) s (fun t => t.co.cmds = s.co.cmds.filter (fun x => !(x == g)) ∧ opOf t g.mb g.op = none ∧ changesOnly [] [.mboxes, .co] (s.pass dt) t) := by
  refine completes_of_onlyIf rfl hok ?_
  simp only [collectEnd, show (s.pass dt).co.cmds.find? (fun g => decide (g.end_ ≤ (s.pass dt).now)) = some g from hg]
  exact ⟨congrArg Co.cmds (opEnd_partsOnly _ _ _ _ _ _ .co (by decide)), opOf_opEnd _ _ _ _ _ _, changesOnly_opEnd (changesOnly_coMod (changesOnly_refl _ _ _) (by simp) _) (by simp) _ _ _ _ _⟩

theorem coNode_of_co {s t : State} (h : t.co = s.co) (short : Nat) : coNode t short = coNode s short := by rw [coNode, h, coNode]

/-- A node of the registry that is changed, and keeps its address. -/
theorem coNode_coNodeMod {short : Nat} {n : CoNode} {s : State} (h : coNode s short = some n) (f : CoNode → CoNode) (hf : ∀ x, (f x).short = x.short) : coNode (coNodeMod short f s) short = some (f n) := by
  have hshort : n.short = short := by simpa using List.find?_some h
  have hpred : ((fun x : CoNode => x.short == short) ∘ fun x => if x.short = short then f x else x) = fun x => x.short == short := by
    funext x
    simp only [Function.comp]
    split
    · rw [hf]
    · rfl
  change (s.co.nodes.map _).find? _ = _
  rw [List.find?_map, hpred, show s.co.nodes.find? (fun x => x.short == short) = some n from h, Option.map_some, if_pos hshort]

theorem coGroups_changes {short : Nat} {n : CoNode} {s : State} (h : coNode s short = some n) (gs : List Nat) :
    (coGroups short gs s).mboxes = s.mboxes ∧ (∀ m, (coGroups short gs s).rd (Reg.MB_REQ_REQRD m) = s.rd (Reg.MB_REQ_REQRD m)) ∧ (coNode (coGroups short gs s) short).map (·.groups) = some gs := by
  have hset := coNode_coNodeMod h (fun n => { n with groups := gs }) (fun _ => rfl)
  have hmesh := meshOnly_unicastSend short 0 0 5 ([gs.length, 0] ++ gs.flatMap (leBytes 2)) (coNodeMod short (fun n => { n with groups := gs }) s)
  refine ⟨hmesh.mboxes, hmesh.reqrd, ?_⟩
  rw [coGroups, coNode_of_co (hmesh.parts .co (by decide)), hset]
  rfl

theorem coNode_mbResult (m : Nat) (r : MbReq) (st : Nat) (pl : List Nat) (s : State) (short : Nat) : coNode (mbResult m r st pl s) short = coNode s short := rfl

/-- The groups that a request lists. -/
def groupsOf (n : Nat) (r : MbReq) : List Nat := (List.range n).map (fun i => r.at_ (4 + 2 * i) 2)

theorem exec_coGroups (m dt : Nat) (s : State) :
    exec (.coGroups m dt) s = .next (onlyIf (cmdOk m 0x0603 (s.pass dt)) (cmdRun m (fun l => decide (4 ≤ l) && l == 4 + 2 * (mbReq s m).at_ 2 1) false (fun r => onC m r (fun t =>
      if 16 < (mbReq s m).at_ 2 1 ∨ (coNode t (r.at_ 0 2)).isNone ∨ !(groupsOf ((mbReq s m).at_ 2 1) r).all groupOk then mbResult m r Rc.BADPARAM [] t
      else mbResult m r Rc.OK [] (coGroups (r.at_ 0 2) (groupsOf ((mbReq s m).at_ 2 1) r) t))) (s.pass dt)) (s.pass dt)) := rfl

theorem coGroups_sets (m n dt : Nat) (s : State) (hr : requestOk m 0x0603 (4 + 2 * n) s = true) (hC : s.isC = true) (hn : n = (mbReq s m).at_ 2 1) (hle : n ≤ 16)
    (hnode : (coNode s ((mbReq s m).at_ 0 2)).isSome = true) (hgroups : ∀ i, i < n → groupOk ((mbReq s m).at_ (4 + 2 * i) 2) = true) :
    completes (.coGroups m dt) s (fun t => replied m 0 [] s t ∧
      (coNode t ((mbReq s m).at_ 0 2)).map (·.groups) = some ((List.range n).map (fun i => (mbReq s m).at_ (4 + 2 * i) 2))) := by
  have hpass := passes_of_requestOk hr
  obtain ⟨x, hx⟩ := Option.isSome_iff_exists.1 hnode
  have hnode : coNode (taken m dt s) ((mbReq s m).at_ 0 2) = some x := hx
  have hall : (groupsOf n (mbReq s m)).all groupOk = true := by
    rw [groupsOf, List.all_map, List.all_eq_true]
    exact fun i hi => hgroups i (List.mem_range.1 hi)
  have hok : ¬ (16 < n ∨ (coNode (taken m dt s) ((mbReq s m).at_ 0 2)).isNone = true ∨ (!(groupsOf n (mbReq s m)).all groupOk) = true) := by
    rw [hnode, hall]
    rintro (h | h | h)
    · exact absurd hle (Nat.not_le.2 h)
    · exact absurd h (by simp)
    · exact absurd h (by decide)
  have hexec := exec_coGroups m dt s
  rw [← hn] at hexec
  refine completes_cmdRun hexec hr (by simp) ?_
  rw [onC_run ((taken_isC m dt s).trans hC), if_neg hok]
  obtain ⟨hboxes, hreqrd, hset⟩ := coGroups_changes hnode (groupsOf n (mbReq s m))
  rw [coNode_mbResult]
  exact ⟨replied_mbResult (took_of_same (took_taken hpass.lt_length dt) hboxes (hreqrd m)) _ _, hset⟩

theorem mem_coAdmit (longid : Nat) (allow : Bool) (s : State) : longid ∈ (coAdmit longid allow s).co.admitted ↔ allow = true := by
  cases allow with
  | false => simp [coAdmit, coMod]
  | true =>
    by_cases h : longid ∈ s.co.admitted <;> simp [coAdmit, coSave, coMod, h]

theorem changesOnly_coAdmit {fs : List Field} {ps : List Piece} {z s : State} (h : changesOnly fs ps z s) (hp : Piece.co ∈ ps) (longid : Nat) (allow : Bool) :
    changesOnly fs ps z (coAdmit longid allow s) := by
  cases allow with
  | false => exact changesOnly_coMod h hp _
  | true => exact changesOnly_coMod (changesOnly_coMod h hp _) hp _

theorem coAdmit_mboxes_regs (longid : Nat) (allow : Bool) (s : State) : (coAdmit longid allow s).mboxes = s.mboxes ∧ (coAdmit longid allow s).regs = s.regs := by cases allow <;> exact ⟨rfl, rfl⟩

theorem coAdmit_sets (m dt : Nat) (s : State) (hr : requestOk m 0x0604 9 s = true) (hC : s.isC = true) (hroom : s.co.admitted.length < 60000 ∨ (mbReq s m).at_ 8 1 = 0) :
    completes (.coAdmit m dt) s (fun t => replied m 0 [] s t ∧ ((mbReq s m).at_ 0 8 ∈ t.co.admitted ↔ (mbReq s m).at_ 8 1 ≠ 0) ∧
      changesOnly [Reg.MB_REQ_REQRD m] [.mboxes, .mbLast, .flight, .co] (s.pass dt) t) := by
  have hpass := passes_of_requestOk hr
  have hok : ¬ ((mbReq s m).at_ 8 1 = 1 ∧ 60000 ≤ (taken m dt s).co.admitted.length ∧ ¬ (taken m dt s).co.admitted.contains ((mbReq s m).at_ 0 8) = true) := by
    rintro ⟨h1, h2, -⟩
    rcases hroom with h | h
    · exact absurd h (Nat.not_lt.2 h2)
    · omega
  refine completes_short rfl hr ?_
  rw [onC_run ((taken_isC m dt s).trans hC), if_neg hok]
  obtain ⟨hboxes, hregs⟩ := coAdmit_mboxes_regs ((mbReq s m).at_ 0 8) ((mbReq s m).at_ 8 1 != 0) (taken m dt s)
  rw [mbResult_co]
  exact ⟨replied_mbResult (took_of_same (took_taken hpass.lt_length dt) hboxes (rd_of_regs hregs _)) _ _, (mem_coAdmit ((mbReq s m).at_ 0 8) ((mbReq s m).at_ 8 1 != 0) (taken m dt s)).trans bne_iff_ne,
    changesOnly_mbModify (changesOnly_coAdmit (taken_changesOnly (by simp) rfl) (by simp) _ _) (by simp) _ _⟩

/-! ### A dispatch (R744) -/

theorem one_le_coState (s : State) (n : CoNode) : 1 ≤ coState s n ↔ 1 ≤ n.state := by
  unfold coState
  split
  · next h => omega
  · split
    · omega
    · split
      · split <;> omega
      · rfl

theorem coMembers_of_co {s t : State} (h : t.co = s.co) (group : Nat) : coMembers t group = coMembers s group := by
  have hmember (short : Nat) : coMember t group short = coMember s group short := by
    rw [coMember, coMember, coNode_of_co h]
    split
    · rw [decide_eq_decide.2 ((one_le_coState t _).trans (one_le_coState s _).symm)]
    · rfl
  rw [coMembers, h, funext fun n : CoNode => hmember n.short, coMembers]

/-- A dispatch under way: of the one that starts it is the same order, and each member has been sent the object once at most and has not answered. -/
structure Filling (d0 d : CoDisp) : Prop where
  mb : d.mb = d0.mb
  op : d.op = d0.op
  obj : d.obj = d0.obj
  shorts : d.members.map (·.short) = d0.members.map (·.short)
  waiting : ∀ x ∈ d.members, x.served = false ∧ x.sends ≤ 1

/-- A member is sent the object. -/
def memberSent (short at_ : Nat) (x : CoMember) : CoMember := if x.short = short then { x with sends := 1, at_ := at_ } else x

theorem memberSent_short (short at_ : Nat) (x : CoMember) : (memberSent short at_ x).short = x.short := by
  unfold memberSent
  split <;> rfl

theorem filling_memberSent {d0 d : CoDisp} (h : Filling d0 d) (short at_ : Nat) : Filling d0 { d with members := d.members.map (memberSent short at_) } := by
  refine ⟨h.mb, h.op, h.obj, ?_, ?_⟩
  · rw [List.map_map, ← h.shorts]
    exact List.map_congr_left fun x _ => memberSent_short short at_ x
  · simp only [List.forall_mem_map]
    intro x hx
    obtain ⟨hserved, hsends⟩ := h.waiting x hx
    unfold memberSent
    split
    · exact ⟨hserved, Nat.le_refl 1⟩
    · exact ⟨hserved, hsends⟩

theorem dispFill_fills {d0 : CoDisp} (k : Nat) (d : CoDisp) (s : State) (h : Filling d0 d) : Filling d0 (dispFill k d s).1 ∧ MeshOnly s (dispFill k d s).2 := by
  induction k generalizing d s with
  | zero => exact ⟨h, meshOnly_refl s⟩
  | succ k ih =>
    unfold dispFill
    split
    · exact ⟨h, meshOnly_refl s⟩
    · split
      · exact ⟨h, meshOnly_refl s⟩
      · next m _ =>
        obtain ⟨hfilled, hmesh⟩ := ih _ (unicastSend m.short 1 0 2 d.obj s) (filling_memberSent h m.short s.elapsed)
        exact ⟨hfilled, meshOnly_trans (meshOnly_unicastSend _ _ _ _ _ s) hmesh⟩

/-- A dispatch that starts is not over when it has a member. -/
theorem Filling.not_over {d0 d : CoDisp} (h : Filling d0 d) (hne : d0.members ≠ []) : ¬ d.members.all memberOver = true := by
  obtain ⟨x, hx⟩ : ∃ x, x ∈ d.members := by
    refine List.exists_mem_of_ne_nil _ fun hnil => hne ?_
    have hshorts := h.shorts
    rw [hnil] at hshorts
    exact List.map_eq_nil_iff.1 hshorts.symm
  obtain ⟨hserved, hsends⟩ := h.waiting x hx
  intro hall
  have hover := List.all_eq_true.1 hall x hx
  simp only [memberOver, hserved, Bool.false_or, decide_eq_true_eq] at hover
  omega

theorem dispOne_fills {d : CoDisp} {s : State} (hheld : dispHeld s d = false) (hfill : Filling d d) (hne : d.members ≠ []) (hco : s.co.disps = [d]) :
    ∃ d1, Filling d d1 ∧ (dispOne s d).co.disps = [d1] ∧ (dispOne s d).mboxes = s.mboxes ∧ ∀ f, ¬ isMsh f → (dispOne s d).rd f = s.rd f := by
  obtain ⟨hfilled, hmesh⟩ := dispFill_fills 16 d s hfill
  have hkept : (dispFill 16 d s).2.co = s.co := hmesh.parts .co (by decide)
  have hstep : dispOne s d = coMod (fun c => { c with disps := c.disps.map (fun x => if x.mb = d.mb ∧ x.op = d.op then (dispFill 16 d s).1 else x) }) (dispFill 16 d s).2 := by
    unfold dispOne
    rw [hheld, if_neg Bool.false_ne_true]
    exact if_neg (hfilled.not_over hne)
  rw [hstep]
  refine ⟨(dispFill 16 d s).1, hfilled, ?_, hmesh.mboxes, fun f hf => hmesh.rd f hf⟩
  change (dispFill 16 d s).2.co.disps.map _ = _
  rw [hkept, hco, List.map_singleton, if_pos ⟨rfl, rfl⟩]

/-- The dispatch as it starts. -/
def dispNew (mb op group : Nat) (obj : List Nat) (s : State) : CoDisp := CoDisp.mk mb op obj ((coMembers s group).map (fun a => { short := a, sends := 0, at_ := s.elapsed, served := false }))

theorem filling_dispNew (mb op group : Nat) (obj : List Nat) (s : State) : Filling (dispNew mb op group obj s) (dispNew mb op group obj s) := by
  refine ⟨rfl, rfl, rfl, rfl, ?_⟩
  simp [dispNew]

theorem dispNew_shorts (mb op group : Nat) (obj : List Nat) (s : State) : (dispNew mb op group obj s).members.map (·.short) = coMembers s group := by
  rw [dispNew, List.map_map]
  exact List.map_id _

theorem dispHeld_started {m tag : Nat} {d : CoDisp} {o : LiveOp} {s : State} (ho : opOf s m tag = some o) (hs : o.suspended = none) (hmb : d.mb = m) (hop : d.op = tag) : dispHeld s d = false := by
  subst hmb hop
  rw [dispHeld, ho]
  change o.suspended.isSome = false
  rw [hs]
  rfl

/-- The only dispatch under way has joined the coordinator's. -/
def dispJoined (d : CoDisp) (s : State) : State := coMod (fun c => { c with disps := c.disps ++ [d] }) s

theorem coDispatchStart_eq {s : State} (mb op group : Nat) (obj : List Nat) (h : s.co.disps = []) :
    coDispatchStart mb op group obj s = dispOne (dispJoined (dispNew mb op group obj s) s) (dispNew mb op group obj s) := by
  have hdisps : (dispJoined (dispNew mb op group obj s) s).co.disps = [dispNew mb op group obj s] := by
    change s.co.disps ++ _ = _
    rw [h, List.nil_append]
  have hsettle : coDispatchStart mb op group obj s = dispSettle (dispJoined (dispNew mb op group obj s) s) := rfl
  rw [hsettle, dispSettle, hdisps]
  rfl

theorem coDispatch_starts (m dt : Nat) (b : List Nat) (s : State) (hr : requestOk m 0x0605 3 s = true) (hC : s.isC = true) (hb : bufOf s m ((mbReq s m).at_ 2 1) = some b) (hsched : schedOk b = true)
    (hgroup : groupOk ((mbReq s m).at_ 0 2) = true) (hdisps : s.co.disps = []) (hmembers : coMembers s ((mbReq s m).at_ 0 2) ≠ []) :
    completes (.coDispatch m dt) s (fun t => started m [(mbReq s m).at_ 2 1] s t ∧ ∃ d, t.co.disps = [d] ∧ d.mb = m ∧ d.op = (mbReq s m).tag ∧ d.obj = b.take (schedLen b) ∧
      d.members.map (·.short) = coMembers s ((mbReq s m).at_ 0 2)) := by
  have hpass := passes_of_requestOk hr
  refine completes_long rfl hr ?_
  rw [onC_run ((taken_isC m dt s).trans hC)]
  simp only [bufOf_taken, hb, hsched, hgroup, Bool.not_true, Bool.false_eq_true, or_self, if_false]
  obtain ⟨u, hu⟩ : ∃ u, u = mbAccept m (mbReq s m) [(mbReq s m).at_ 2 1] [] (taken m dt s) := ⟨_, rfl⟩
  obtain ⟨d, hd⟩ : ∃ d, d = dispNew m (mbReq s m).tag ((mbReq s m).at_ 0 2) (b.take (schedLen b)) u := ⟨_, rfl⟩
  have hop : opOf u m (mbReq s m).tag = some (opStarted (mbReq s m) [(mbReq s m).at_ 2 1] []) := by rw [hu]; exact accepted_op hpass
  have hco : u.co = s.co := by rw [hu]; rfl
  have hshorts : d.members.map (·.short) = coMembers s ((mbReq s m).at_ 0 2) := by rw [hd, dispNew_shorts, coMembers_of_co hco]
  have hne : d.members ≠ [] := fun h => hmembers (by rw [← hshorts, h]; rfl)
  have hjoined : (dispJoined d u).co.disps = [d] := by
    change u.co.disps ++ [d] = [d]
    rw [hco, hdisps, List.nil_append]
  have hheld : dispHeld (dispJoined d u) d = false := dispHeld_started (o := opStarted (mbReq s m) [(mbReq s m).at_ 2 1] []) hop rfl (by rw [hd]; rfl) (by rw [hd]; rfl)
  have hfill : Filling d d := by rw [hd]; exact filling_dispNew _ _ _ _ _
  rw [← hu, coDispatchStart_eq _ _ _ _ ((congrArg Co.disps hco).trans hdisps), ← hd]
  obtain ⟨d1, hfilled, hdone, hboxes, hrd⟩ := dispOne_fills hheld hfill hne hjoined
  refine ⟨started_of_accepted (dt := dt) hpass (hboxes.trans (by rw [hu]; rfl)) ((hrd _ (not_isMsh_reqrd m)).trans (by rw [hu]; rfl)), d1, hdone, ?_, ?_, ?_, hfilled.shorts.trans hshorts⟩
  · rw [hfilled.mb, hd]; rfl
  · rw [hfilled.op, hd]; rfl
  · rw [hfilled.obj, hd]; rfl

/-! ### The pair (R668, R681) -/

theorem mirRole_taken {m : Nat} (hm : m < 4) (dt : Nat) (s : State) : mirRole (taken m dt s) = mirRole s := taken_rd_off hm (by simp [offMbx, Field.key, Reg.MIR_STAT_ROLE])

theorem pairConfig_sets (m dt : Nat) (b : List Nat) (s : State) (hr : requestOk m 0x0A01 1 s = true) (hC : s.isC = true) (hb : bufOf s m ((mbReq s m).at_ 0 1) = some b) (hcfg : pairCfgOk b = true)
    (h1 : mirRole s ≠ 1) (h2 : mirRole s ≠ 2) :
    completes (.pairConfig m dt) s (fun t => replied m 0 [] s t ∧ t.mir = { s.mir with cfg := b.take (16 + 8 * leAt b 7 1) } ∧
      changesOnly [Reg.MB_REQ_REQRD m] [.mboxes, .mbLast, .flight, .mir] (s.pass dt) t) := by
  have hpass := passes_of_requestOk hr
  have hrole : ¬ (mirRole s = 1 ∨ mirRole s = 2) := by tauto
  refine completes_short rfl hr ?_
  rw [onC_run ((taken_isC m dt s).trans hC)]
  simp only [bufOf_taken, hb, hcfg, Bool.not_true, Bool.false_eq_true, if_false, mirRole_taken hpass.lt_four, if_neg hrole]
  exact ⟨replied_mbResult (took_of_same (took_taken hpass.lt_length dt) rfl rfl) _ _, rfl,
    changesOnly_mbModify (changesOnly_mirMod (taken_changesOnly (by simp) rfl) (by simp) _) (by simp) _ _⟩

theorem ofLeBytes_lt (l : List Nat) : ofLeBytes l < 256 ^ l.length := by
  induction l with
  | nil => decide
  | cons b bs ih =>
    simp only [ofLeBytes, List.length_cons, Nat.pow_succ]
    omega

theorem leAt_lt (l : List Nat) (off n : Nat) : leAt l off n < 256 ^ n :=
  Nat.lt_of_lt_of_le (ofLeBytes_lt _) (Nat.pow_le_pow_right (by decide) (List.length_take_le _ _))

/-- What the arming of a switch shows: comparator 8's time, and that it asks for its commit (R681). -/
def switchShown (t : Nat) (s : State) : State := (((s.wr (Reg.FIRN_CMP_TLO 8) t).wr (Reg.FIRN_CMP_THI 8) (t / 2 ^ 32)).clr (Reg.FIRN_CMP_CTL_CHEN 8)).set1 (Reg.FIRN_CMP_CTL_ARM 8)

theorem mirMod_rd (g : Mir → Mir) (s : State) (f : Field) : (mirMod g s).rd f = s.rd f := rfl

theorem cmpArm_rd (n : Nat) (s : State) (f : Field) : (cmpArm n s).rd f = (s.set1 (Reg.FIRN_CMP_CTL_ARM n)).rd f := rfl

theorem switchArm_rd (t : Nat) (op : Option (Nat × Nat)) (s : State) (f : Field) : (switchArm t op s).rd f = (switchShown t s).rd f := by
  simp only [switchArm, mirMod_rd, cmpArm_rd, switchShown]

/-- The time of a switch stands in comparator 8's shadow, which asks for its commit and fires no channel. -/
theorem switchArm_arms {t : Nat} (ht : t < 2 ^ 64) (op : Option (Nat × Nat)) (s : State) :
    cmpShadowT (switchArm t op s) 8 = t ∧ (switchArm t op s).rd (Reg.FIRN_CMP_CTL_ARM 8) = 1 ∧ (switchArm t op s).rd (Reg.FIRN_CMP_CTL_CHEN 8) = 0 := by
  simp only [cmpShadowT, switchArm_rd]
  refine ⟨?_, State.rd_wr_same _ _ _, ?_⟩
  · rw [switchShown, State.set1, State.clr, State.rd_wr_other _ _ (by decide), State.rd_wr_other _ _ (by decide), State.rd_wr_other _ _ (by decide), State.rd_wr_same, State.rd_wr_other _ _ (by decide),
      State.rd_wr_other _ _ (by decide), State.rd_wr_same]
    simp only [Reg.FIRN_CMP_TLO, Reg.FIRN_CMP_THI]
    omega
  · rw [switchShown, State.set1, State.clr, State.rd_wr_other _ _ (by decide), State.rd_wr_same]
    rfl

theorem switchArm_leaves {m t : Nat} {op : Option (Nat × Nat)} (s : State) : (switchArm t op s).mboxes = s.mboxes ∧ (switchArm t op s).rd (Reg.MB_REQ_REQRD m) = s.rd (Reg.MB_REQ_REQRD m) := by
  have hother {f : Field} (hf : f.key < 32 * 0x40030000) (u : State) (v : Nat) : (u.wr f v).rd (Reg.MB_REQ_REQRD m) = u.rd (Reg.MB_REQ_REQRD m) := by
    refine State.rd_wr_other _ _ fun he => ?_
    rw [← he] at hf
    simp only [Field.key, Reg.MB_REQ_REQRD] at hf
    omega
  refine ⟨rfl, ?_⟩
  rw [switchArm_rd, switchShown, State.set1, State.clr, hother (by decide), hother (by decide), hother (by decide), hother (by decide)]

theorem pairSwitch_starts (m T dt : Nat) (s : State) (hr : requestOk m 0x0A02 8 s = true) (hC : s.isC = true) (hT : T = (mbReq s m).at_ 0 8) (hlo : (s.pass dt).now + ftS 1 ≤ T)
    (hhi : T ≤ (s.pass dt).now + ftS 3600) (hrole : mirRole s = 1 ∨ mirRole s = 2) (hidle : s.mir.switch = none) :
    completes (.pairSwitch m dt) s (fun t => started m [0] s t ∧ t.mir.switch = some ⟨T, some (m, (mbReq s m).tag), 0⟩ ∧ cmpShadowT t 8 = T ∧ t.rd (Reg.FIRN_CMP_CTL_ARM 8) = 1 ∧
      t.rd (Reg.FIRN_CMP_CTL_CHEN 8) = 0) := by
  subst hT
  have hpass := passes_of_requestOk hr
  have hwindow : ¬ ((mbReq s m).at_ 0 8 < (taken m dt s).now + ftS 1 ∨ (taken m dt s).now + ftS 3600 < (mbReq s m).at_ 0 8) := by
    rintro (h | h)
    · exact absurd hlo (Nat.not_le.2 h)
    · exact absurd hhi (Nat.not_le.2 h)
  have hmember : (mirRole s == 1 || mirRole s == 2) = true := by rcases hrole with h | h <;> rw [h] <;> rfl
  refine completes_long rfl hr ?_
  rw [onC_run ((taken_isC m dt s).trans hC), if_neg hwindow, mirRole_taken hpass.lt_four, hmember, if_neg (by decide), if_neg (by rw [show (taken m dt s).mir.switch = none from hidle]; decide)]
  obtain ⟨hboxes, hreqrd⟩ := switchArm_leaves (m := m) (t := (mbReq s m).at_ 0 8) (op := some (m, (mbReq s m).tag)) (accepted m dt [0] s)
  exact ⟨started_of_accepted hpass hboxes hreqrd, rfl, switchArm_arms (Nat.lt_of_lt_of_le (leAt_lt _ 0 8) (by decide)) _ (accepted m dt [0] s)⟩

end Sys2Proof.Machine

open Sys2Proof Sys2Proof.Machine

/-- Settles O37: what each long or service command starts or sets, by its own lemma. -/
theorem mailboxServices : Obligations.MailboxServices := by
  unfold Obligations.MailboxServices
  exact ⟨coordinator_refused, netCfgSet_later, netCfgSet_now, fun m st dt s hr hst => netCfgSet_refused m dt s hr st hst, netCfgInstant_applies, netSend_floods, netSend_unjoined, lumSched_stores,
    coGroupcmd_starts, collectEnd_ends, coGroups_sets, coAdmit_sets, coDispatch_starts, pairConfig_sets, pairSwitch_starts⟩
end

section
/-!
SUPPORT. Tables, the store and field update by mailbox (R352, R357, R358, R477, R502, R701, R702, R704, R706, R709, R781).
-/
namespace Sys2Proof.Machine

/-! ### The store (R477, R502) -/

theorem taken_on_past {m : Nat} (hm : m < 4) {f : Field} (hf : 32 * 0x400D0200 ≤ f.key) (dt : Nat) (s : State) : (taken m dt s).on f = s.on f := taken_on_off hm (.inr hf)

theorem partsSet_flc_parts (new : List Part) (s : State) : (partsSet new s).flc.parts = new := rfl

theorem storePartset_lays (m n dt : Nat) (b : List Nat) (s : State) (hr : requestOk m 0x0702 1 s = true) (hb : bufOf s m ((mbReq s m).at_ 0 1) = some b) (hn : n = leAt b 0 1) (hlo : 1 ≤ n) (hhi : n ≤ 8)
    (hlen : 4 + 4 * n ≤ b.length) (hparts : ∀ p ∈ partsOf b n 0 288, p.nblk ≠ 0 ∧ p.access < 8) (hsum : ((partsOf b n 0 288).map (fun p => p.nblk)).sum ≤ 1632) (hro : s.on Reg.FLC_STAT_RO = false)
    (hqueue : s.on Reg.FLC_QAPP_CTL_EN = false) (hlock : ∀ i, i < 8 → s.on (Reg.FLC_XO_LOCK (i + 8)) = false) :
    completes (.storePartset m dt) s (fun t => endedAtOnce m 3 0 [] s t ∧ t.flc.parts = partsOf b n 0 288) := by
  have hpass := passes_of_requestOk hr
  have hm := hpass.lt_four
  have hany : (partsOf b n 0 288).any (fun p => p.nblk == 0 || decide (8 ≤ p.access)) = false := by
    simpa using hparts
  have hok : ¬ (n = 0 ∨ 8 < n ∨ b.length < 4 + 4 * n ∨ (partsOf b n 0 288).any (fun p => p.nblk == 0 || decide (8 ≤ p.access)) = true) := by
    rw [hany]
    simp only [Bool.false_eq_true, or_false]
    omega
  have hlocked (ks : List Nat) :
      ks.any (fun k => (List.range 8).any (fun i => (taken m dt s).on (Reg.FLC_XO_LOCK (i + 8)) && (taken m dt s).on (Reg.FLC_XO_EN (i + 8)) && (taken m dt s).rd (Reg.FLC_XO_PART (i + 8)) == k + 4)) = false := by
    rw [List.any_eq_false]
    intro k _
    rw [Bool.not_eq_true, List.any_eq_false]
    intro i hi
    rw [taken_on_past hm (by simp only [Field.key, Reg.FLC_XO_LOCK]; omega), hlock i (List.mem_range.1 hi)]
    simp
  have hro : (taken m dt s).on Reg.FLC_STAT_RO = false := (taken_on_past hm (by decide) dt s).trans hro
  have hqueue : (taken m dt s).on Reg.FLC_QAPP_CTL_EN = false := (taken_on_past hm (by decide) dt s).trans hqueue
  refine completes_long rfl hr ?_
  simp only [bufOf_taken, hb, ← hn, if_neg hok, if_neg (Nat.not_lt.2 hsum), hro, hqueue, hlocked, Bool.or_self, Bool.false_eq_true, if_false]
  have hset : partsOnly [.flc, .regs] (accepted m dt [(mbReq s m).at_ 0 1] s) (partsSet (partsOf b n 0 288) (accepted m dt [(mbReq s m).at_ 0 1] s)) := partsSet_parts _ _ _ (partsOnly_refl _ _) rfl
  refine ⟨endedAtOnce_of_accepted hpass (hset .mboxes (by decide)) 3 0 [], ?_⟩
  exact (congrArg Flc.parts (opEnd_partsOnly m (mbReq s m).tag 3 0 [] _ .flc (by decide))).trans (partsSet_flc_parts _ _)

/-- With no block marked, a scrub refreshes none. -/
theorem scrubRefresh_unmarked (first nblk : Nat) {u : State} (h : u.flc.marks = []) : scrubRefresh first nblk u = u := by
  rw [scrubRefresh, h]
  rfl

section
variable (m dt : Nat) (s : State) (hr : requestOk m 0x0703 1 s = true) (hpart : (mbReq s m).at_ 0 1 ≤ 11) (hkind : partKind s ((mbReq s m).at_ 0 1) ≠ 0)
include hr hpart hkind

omit hr in
theorem scrub_part : ¬ (11 < (mbReq s m).at_ 0 1 ∨ partKind (taken m dt s) ((mbReq s m).at_ 0 1) = 0) := by
  rintro (h | h)
  · exact absurd hpart (Nat.not_le.2 h)
  · exact hkind h

/-- A scrub that reads no page wrong ends with what it refreshed. -/
def scrubEnded (m dt : Nat) (s : State) : State :=
  let u := scrubRefresh (partOf (taken m dt s) ((mbReq s m).at_ 0 1)).first (partOf (taken m dt s) ((mbReq s m).at_ 0 1)).nblk (accepted m dt [0] s)
  opEnd m (mbReq s m).tag 3 0 (leBytes 4 0 ++ leBytes 2 (u.flc.moraine.length - (taken m dt s).flc.moraine.length)) u

theorem storeScrub_scrubs (hro : s.on Reg.FLC_STAT_RO = false) (hmarks : s.flc.marks = []) :
    completes (.storeScrub m [] dt) s (fun t => endedAtOnce m 3 0 (leBytes 4 0 ++ leBytes 2 0) s t ∧ changesOnly [Reg.MB_REQ_REQRD m] [.mboxes, .mbLast, .flight] (s.pass dt) t) := by
  have hpass := passes_of_requestOk hr
  have hro : (taken m dt s).on Reg.FLC_STAT_RO = false := (taken_on_past hpass.lt_four (by decide) dt s).trans hro
  refine completes_long rfl hr ?_
  simp only [if_neg (scrub_part m dt s hpart hkind), hro, Bool.false_eq_true, if_false]
  have hrefresh := scrubRefresh_unmarked (partOf (taken m dt s) ((mbReq s m).at_ 0 1)).first (partOf (taken m dt s) ((mbReq s m).at_ 0 1)).nblk (u := accepted m dt [0] s) hmarks
  have hcount : (accepted m dt [0] s).flc.moraine.length - (taken m dt s).flc.moraine.length = 0 := Nat.sub_self _
  change endedAtOnce m 3 0 _ s (scrubEnded m dt s) ∧ changesOnly _ _ _ (scrubEnded m dt s)
  rw [scrubEnded, hrefresh, hcount]
  exact ⟨endedAtOnce_of_accepted hpass rfl _ _ _, changesOnly_opEnd (accepted_changesOnly (by simp) rfl (by simp)) (by simp) _ _ _ _ _⟩

theorem storeScrub_readOnly (outs : List (Nat × PageOut)) (hro : s.on Reg.FLC_STAT_RO = true) :
    completes (.storeScrub m outs dt) s (fun t => replied m 0x0700 [] s t ∧ changesOnly [Reg.MB_REQ_REQRD m] [.mboxes, .mbLast, .flight] (s.pass dt) t) := by
  have hpass := passes_of_requestOk hr
  have hro : (taken m dt s).on Reg.FLC_STAT_RO = true := (taken_on_past hpass.lt_four (by decide) dt s).trans hro
  refine completes_long rfl hr ?_
  simp only [if_neg (scrub_part m dt s hpart hkind), hro, if_true]
  exact mbResult_taken hpass.lt_length dt _ _

end

/-! ### Tables (R357, R358, R781) -/

theorem tblRefusal_taken (m dt : Nat) (b : List Nat) (force : Bool) (s : State) : tblRefusal (taken m dt s) b force = tblRefusal s b force := by
  have hbusy (tid : Nat) : tblBusy (taken m dt s) tid = tblBusy s tid := rfl
  have hnow (tid : Nat) : tblNow (taken m dt s) tid = tblNow s tid := rfl
  unfold tblRefusal
  simp only [hbusy, hnow]

section
variable (m dt : Nat) (b : List Nat) (s : State) (hr : requestOk m 0x0800 2 s = true) (hb : bufOf s m ((mbReq s m).at_ 0 1) = some b) (hforce : (mbReq s m).at_ 1 1 ≤ 1)
include hr hb hforce

theorem tblLoad_starts (hok : tblRefusal s b ((mbReq s m).at_ 1 1 == 1) = none) :
    completes (.tblLoad m dt) s (fun t => started m [(mbReq s m).at_ 0 1] s t ∧ t.tblJobs = s.tblJobs ++ [⟨leAt b 0 2, some ⟨leAt b 2 2, 1, (b.drop 16).take (leAt b 4 4)⟩, m, (mbReq s m).tag⟩] ∧
      t.tables = s.tables) := by
  have hpass := passes_of_requestOk hr
  refine completes_long rfl hr ?_
  simp only [bufOf_taken, hb, if_neg (Nat.not_lt.2 hforce), tblRefusal_taken, hok]
  exact ⟨started_of_accepted hpass rfl rfl, rfl, rfl⟩

theorem tblLoad_refused (st offs : Nat) (hbad : tblRefusal s b ((mbReq s m).at_ 1 1 == 1) = some (st, offs)) :
    completes (.tblLoad m dt) s (fun t => endedAtOnce m 4 st (leBytes 4 offs) s t ∧ changesOnly [Reg.MB_REQ_REQRD m] [.mboxes, .mbLast, .flight] (s.pass dt) t) := by
  have hpass := passes_of_requestOk hr
  refine completes_long rfl hr ?_
  simp only [bufOf_taken, hb, if_neg (Nat.not_lt.2 hforce), tblRefusal_taken, hbad]
  exact ⟨endedAtOnce_of_accepted hpass rfl _ _ _, changesOnly_opEnd (accepted_changesOnly (by simp) rfl (by simp)) (by simp) _ _ _ _ _⟩

end

theorem tblRevert_starts (m tid dt : Nat) (s : State) (hr : requestOk m 0x0803 2 s = true) (ht : tid = (mbReq s m).at_ 0 2) (hmailbox : tblMailbox tid = true) (hknown : tblKnown tid = true)
    (hidle : tblBusy s tid = false) :
    completes (.tblRevert m dt) s (fun t => started m [0] s t ∧ t.tblJobs = s.tblJobs ++ [⟨tid, none, m, (mbReq s m).tag⟩] ∧ t.tables = s.tables) := by
  subst ht
  have hidle : tblBusy (taken m dt s) ((mbReq s m).at_ 0 2) = false := hidle
  refine completes_long rfl hr ?_
  simp only [hmailbox, hknown, hidle, Bool.not_true, Bool.false_eq_true, if_false]
  exact ⟨started_of_accepted (passes_of_requestOk hr) rfl rfl, rfl, rfl⟩

theorem look_eq_none_of_rise {α : Type} {k lo : Nat} (hlo : k < lo) (l : List (Nat × α)) (h : keysRiseFrom lo l = true) : look k l = none := by
  induction l generalizing lo with
  | nil => rfl
  | cons e rest ih =>
    simp only [keysRiseFrom, Bool.and_eq_true, decide_eq_true_eq] at h
    rw [look, if_neg (by omega), ih (by omega) h.2]

/-- In a list whose keys rise a key stands once. -/
theorem look_del_same {α : Type} (k : Nat) {lo : Nat} (l : List (Nat × α)) (h : keysRiseFrom lo l = true) : look k (del k l) = none := by
  induction l generalizing lo with
  | nil => rfl
  | cons e rest ih =>
    simp only [keysRiseFrom, Bool.and_eq_true, decide_eq_true_eq] at h
    rw [del]
    split
    · next he => exact look_eq_none_of_rise (by omega) rest h.2
    · next he => rw [look, if_neg he, ih h.2]

/-- A table's object is put in place, or taken away. -/
def tablesWith (tid : Nat) (o : Option TableObj) (l : List (Nat × TableObj)) : List (Nat × TableObj) := match o with | some x => put tid x l | none => del tid l

theorem look_tablesWith (tid : Nat) (o : Option TableObj) (l : List (Nat × TableObj)) (h : keysRise l = true) : look tid (tablesWith tid o l) = o := by
  cases o with
  | some x => exact look_put_same tid x l
  | none => exact look_del_same tid l h

/-- What a table changes when it takes effect leaves the tables and the writes under way. -/
theorem tblForce_tables (tid : Nat) (o : Option TableObj) (s : State) : (tblForce tid o s).tables = tablesWith tid o s.tables ∧ (tblForce tid o s).tblJobs = s.tblJobs := by
  have heffect : partsOnly [.com, .msh, .lmp, .firn, .regs, .wpt, .evAt, .flight, .lum] { s with tables := tablesWith tid o s.tables } (tblForce tid o s) :=
    tblEffect_parts _ _ _ _ (partsOnly_refl _ _) rfl
  exact ⟨heffect .tables (by decide), heffect .tblJobs (by decide)⟩

section
variable (i dt : Nat) {j : TblJob} {s : State} (hj : s.tblJobs[i]? = some j)
include hj

theorem tblWriteDoneOk_pass : tblWriteDoneOk i (s.pass dt) = true := decide_eq_true (List.getElem?_eq_some_iff.1 hj).1

/-- The write of a table is over. -/
def jobDone (i : Nat) (s : State) : State := { s with tblJobs := s.tblJobs.eraseIdx i }

omit hj in
theorem jobDone_changesOnly (i : Nat) (s : State) : changesOnly [] [.mboxes, .tblJobs] s (jobDone i s) :=
  ⟨fieldsOnly_same (fieldsOnly_refl _ _) rfl rfl, by simp [jobDone, partsOnly_refl]⟩

omit hj in
/-- A write that fails ends its operation alone. -/
theorem jobDone_failed (mb tag st : Nat) (pl : List Nat) (s : State) :
    (opEnd mb tag 4 st pl (jobDone i s)).tblJobs = s.tblJobs.eraseIdx i ∧ opOf (opEnd mb tag 4 st pl (jobDone i s)) mb tag = none ∧ (opEnd mb tag 4 st pl (jobDone i s)).tables = s.tables ∧
      changesOnly [] [.mboxes, .tblJobs] s (opEnd mb tag 4 st pl (jobDone i s)) := by
  have hends := opEnd_partsOnly mb tag 4 st pl (jobDone i s)
  exact ⟨hends .tblJobs (by decide), opOf_opEnd _ _ _ _ _ _, hends .tables (by decide), changesOnly_opEnd (jobDone_changesOnly i s) (by simp) _ _ _ _ _⟩

end

theorem tblWriteDone_applies (i dt : Nat) (j : TblJob) (s : State) (hj : s.tblJobs[i]? = some j) (hro : s.on Reg.FLC_STAT_RO = false) (_ : s.mboxes.length = 4) (hrise : keysRise s.tables = true) :
    completes (.tblWriteDone i true dt) s (fun t => t.tblJobs = s.tblJobs.eraseIdx i ∧ opOf t j.mb j.tag = none ∧ look j.tid t.tables = j.obj) := by
  refine completes_of_onlyIf rfl (tblWriteDoneOk_pass i dt hj) ?_
  simp only [tblWriteDone, show (s.pass dt).tblJobs[i]? = some j from hj, show (s.pass dt).on Reg.FLC_STAT_RO = false from hro, Bool.not_true, Bool.false_eq_true, if_false]
  obtain ⟨htables, hjobs⟩ := tblForce_tables j.tid j.obj (jobDone i (s.pass dt))
  have hends := opEnd_partsOnly j.mb j.tag 3 0 [] (tblForce j.tid j.obj (jobDone i (s.pass dt)))
  have hkept : (opEnd j.mb j.tag 3 0 [] (tblForce j.tid j.obj (jobDone i (s.pass dt)))).tables = tablesWith j.tid j.obj s.tables := (hends .tables (by decide)).trans htables
  exact ⟨(hends .tblJobs (by decide)).trans hjobs, opOf_opEnd _ _ _ _ _ _, (congrArg (look j.tid) hkept).trans (look_tablesWith j.tid j.obj s.tables hrise)⟩

theorem tblWriteDone_fails (i dt : Nat) (ok : Bool) (j : TblJob) (s : State) (hj : s.tblJobs[i]? = some j) (hbad : s.on Reg.FLC_STAT_RO = true ∨ ok = false) (_ : s.mboxes.length = 4) :
    completes (.tblWriteDone i ok dt) s (fun t => t.tblJobs = s.tblJobs.eraseIdx i ∧ opOf t j.mb j.tag = none ∧ t.tables = s.tables ∧ changesOnly [] [.mboxes, .tblJobs] (s.pass dt) t) := by
  refine completes_of_onlyIf rfl (tblWriteDoneOk_pass i dt hj) ?_
  by_cases hro : s.on Reg.FLC_STAT_RO = true
  · simp only [tblWriteDone, show (s.pass dt).tblJobs[i]? = some j from hj, show (s.pass dt).on Reg.FLC_STAT_RO = true from hro, if_true]
    exact jobDone_failed i j.mb j.tag Rc.STORE_RO _ (s.pass dt)
  · have hok : ok = false := hbad.resolve_left hro
    simp only [tblWriteDone, show (s.pass dt).tblJobs[i]? = some j from hj, show (s.pass dt).on Reg.FLC_STAT_RO = false from Bool.eq_false_iff.2 hro, hok, Bool.not_false, Bool.false_eq_true, if_false, if_true]
    exact jobDone_failed i j.mb j.tag Rc.TBL_STORE _ (s.pass dt)

/-! ### Intake of a bundle (R352, R701, R702) -/

theorem storeRoom_of_upd {s t : State} (h : t.upd = s.upd) : storeRoom t = storeRoom s := by rw [storeRoom, h, storeRoom]

theorem updIntake_pushed (m n dt : Nat) (s : State) (hr : requestOk m 0x0B01 8 s = true) (hsrc : (mbReq s m).at_ 0 1 = 1) (hn : n = (mbReq s m).at_ 4 4) (hlo : 1 ≤ n) (hhi : n ≤ 0x1000000)
    (hroom : storeRoom s = true) :
    completes (.updIntake m dt) s (fun t => started m [0, 1, n] s t ∧ changesOnly [Reg.MB_REQ_REQRD m] [.mboxes, .mbLast, .flight] (s.pass dt) t) := by
  subst hn
  have hok : ¬ (1 < (mbReq s m).at_ 0 1 ∨ ((mbReq s m).at_ 0 1 = 0 ∧ (mbReq s m).at_ 4 4 ≠ 0) ∨ ((mbReq s m).at_ 0 1 = 1 ∧ ((mbReq s m).at_ 4 4 = 0 ∨ 0x1000000 < (mbReq s m).at_ 4 4))) := by omega
  refine completes_long rfl hr ?_
  simp only [if_neg hok, storeRoom_of_upd (show (taken m dt s).upd = s.upd from rfl), hroom, Bool.not_true, Bool.false_eq_true, if_false]
  rw [hsrc, if_neg (by simp), if_neg (by decide)]
  exact ⟨started_of_accepted (passes_of_requestOk hr) rfl rfl, accepted_changesOnly (by simp) rfl (by simp)⟩

theorem updIntake_card (m dt : Nat) (s : State) (hr : requestOk m 0x0B01 8 s = true) (hsrc : (mbReq s m).at_ 0 1 = 0) (hn : (mbReq s m).at_ 4 4 = 0) (hroom : storeRoom s = true)
    (hfree : s.on (Reg.SPX_STAT_GLETY 1) = false) :
    completes (.updIntake m dt) s (fun t => started m [0, 0, 0] s t ∧ t.rd (Reg.SPX_STAT_GLETY 1) = 1 ∧
      changesOnly [Reg.MB_REQ_REQRD m, Reg.SPX_STAT_GLETY 1] [.mboxes, .mbLast, .flight] (s.pass dt) t) := by
  have hpass := passes_of_requestOk hr
  have hok : ¬ (1 < (mbReq s m).at_ 0 1 ∨ ((mbReq s m).at_ 0 1 = 0 ∧ (mbReq s m).at_ 4 4 ≠ 0) ∨ ((mbReq s m).at_ 0 1 = 1 ∧ ((mbReq s m).at_ 4 4 = 0 ∨ 0x1000000 < (mbReq s m).at_ 4 4))) := by omega
  have hreqrd : ((accepted m dt [0, 0, 0] s).set1 (Reg.SPX_STAT_GLETY 1)).rd (Reg.MB_REQ_REQRD m) = (accepted m dt [0, 0, 0] s).rd (Reg.MB_REQ_REQRD m) :=
    State.rd_wr_other _ _ (Ne.symm (key_ne_reqrd hpass.lt_four (.inr (by decide))))
  obtain ⟨hfields, hparts⟩ : changesOnly [Reg.MB_REQ_REQRD m, Reg.SPX_STAT_GLETY 1] [.mboxes, .mbLast, .flight] (s.pass dt) (accepted m dt [0, 0, 0] s) := accepted_changesOnly (by simp) rfl (by simp)
  refine completes_long rfl hr ?_
  simp only [if_neg hok, storeRoom_of_upd (show (taken m dt s).upd = s.upd from rfl), hroom, Bool.not_true, Bool.false_eq_true, if_false]
  rw [hsrc, hn, taken_on_past hpass.lt_four (by decide), hfree, if_neg (by decide), if_pos rfl]
  exact ⟨started_of_accepted hpass rfl hreqrd, State.rd_wr_same _ _ _, fieldsOnly_set1 hfields (by simp), wr_parts _ _ _ hparts rfl⟩

/-- The bytes of a buffer join an intake. -/
def pushed (b : List Nat) (size : Nat) (x : LiveOp) : LiveOp := { x with data := x.data ++ b, done := 100 * (x.data.length + b.length) / size }

theorem updPush_joins (m dt : Nat) (o : LiveOp) (b : List Nat) (s : State) (hr : requestOk m 0x0B02 8 s = true) (ho : opOf s m ((mbReq s m).at_ 0 2) = some o) (hb : bufOf s m ((mbReq s m).at_ 2 1) = some b)
    (hcmd : o.cmd = 0x0B01) (hsrc : o.args.getD 1 0 = 1) (hoffs : (mbReq s m).at_ 4 4 = o.data.length) (hfit : o.data.length + b.length ≤ o.args.getD 2 0) :
    completes (.updPush m dt) s (fun t => replied m 0 [] s t ∧ (opOf t m o.tag).map (·.data) = some (o.data ++ b) ∧ changesOnly [Reg.MB_REQ_REQRD m] [.mboxes, .mbLast, .flight] (s.pass dt) t) := by
  have hpass := passes_of_requestOk hr
  have hlive : ¬ (o.cmd ≠ 0x0B01 ∨ o.args.getD 1 0 ≠ 1) := by tauto
  have hplace : ¬ ((mbReq s m).at_ 4 4 ≠ o.data.length ∨ o.args.getD 2 0 < o.data.length + b.length) := by
    rintro (h | h)
    · exact h hoffs
    · exact absurd hfit (Nat.not_le.2 h)
  have hop : opOf (taken m dt s) m o.tag = some o := by rw [opOf_taken, (tag_of_opOf ho).1, ho]
  refine completes_short rfl hr ?_
  simp only [opOf_taken, ho, bufOf_taken, hb, if_neg hlive, if_neg hplace]
  have htook : Took m s (opMod m o.tag (pushed b (max 1 (o.args.getD 2 0))) (taken m dt s)) := took_mbModify (took_taken hpass.lt_length dt) (fun _ => rfl)
  refine ⟨replied_mbResult htook _ _, ?_, changesOnly_mbModify (changesOnly_mbModify (taken_changesOnly (by simp) rfl) (by simp) _ _) (by simp) _ _⟩
  have hdata : opOf (opMod m o.tag (pushed b (max 1 (o.args.getD 2 0))) (taken m dt s)) m o.tag = some (pushed b (max 1 (o.args.getD 2 0)) o) := opOf_opMod hop _ (fun _ => ⟨rfl, rfl⟩)
  exact congrArg (Option.map (·.data)) ((opOf_mbPush _ htook.lt o.tag).trans hdata)

section
variable {s t : State}

/-- A bundle's checks read the fuses, the profile and what is installed. -/
theorem bunForMe_of (hf : t.fuses = s.fuses) (hl : isLeaf t = isLeaf s) (b : List Nat) : bunForMe t b = bunForMe s b := by rw [bunForMe, State.isC, hf, hl, bunForMe, State.isC]

theorem bunCompat_of (h : t.upd = s.upd) (b : List Nat) : bunCompat t b = bunCompat s b := by rw [bunCompat, h, bunCompat]

theorem bunStatus_of (hf : t.fuses = s.fuses) (hl : isLeaf t = isLeaf s) (hu : t.upd = s.upd) (b : List Nat) : bunStatus t b = bunStatus s b := by
  have hsigned : bunSigned t b = bunSigned s b := by
    unfold bunSigned
    rw [hf]
  rw [bunStatus, hsigned, bunForMe_of hf hl, bunCompat_of hu, bunStatus]

end

theorem bunStatus_pass (b : List Nat) (dt : Nat) (s : State) : bunStatus (s.pass dt) b = bunStatus s b := bunStatus_of rfl rfl rfl b

/-- The end of an intake that does not come from a card. -/
theorem intakeVerify_pushed {m tag : Nat} {o : LiveOp} {s : State} (card : List Nat) (ho : opOf s m tag = some o) (hsrc : o.args.getD 1 0 ≠ 0) :
    intakeVerify m tag card s = if (intakeEnd o.data s).1 = Rc.OK then opEnd m tag 3 0 (leBytes 4 (bunBid o.data)) (intakeEnd o.data s).2 else opEnd m tag 4 (intakeEnd o.data s).1 [] (intakeEnd o.data s).2 := by
  have hcard : cardRelease o s = s := if_neg fun h => hsrc h.2
  simp only [intakeVerify, ho, if_neg hsrc, hcard, ne_eq, not_true_eq_false, if_false]

section
variable (m tag dt : Nat) (card : List Nat) (o : LiveOp) (s : State) (hok : intakeVerifyOk m tag (s.pass dt) = true) (ho : opOf s m tag = some o) (hsrc : o.args.getD 1 0 ≠ 0)
include hok ho hsrc

theorem intakeVerify_fails (hbad : bunStatus s o.data ≠ 0) (_ : s.mboxes.length = 4) :
    completes (.intakeVerify m tag card dt) s (fun t => opOf t m tag = none ∧ t.upd = s.upd ∧ (mbox t m).backlog = (mbox s m).backlog ++ [MbRec.mk o.cmd tag (b2n o.prog) 4 (bunStatus s o.data) 0 []]) := by
  have hend : intakeEnd o.data (s.pass dt) = (bunStatus s o.data, s.pass dt) := by
    unfold intakeEnd
    rw [bunStatus_pass]
    exact if_pos hbad
  refine completes_of_onlyIf rfl hok ?_
  rw [intakeVerify_pushed card (s := s.pass dt) ho hsrc, hend, if_neg (show ¬ (bunStatus s o.data, s.pass dt).1 = Rc.OK from hbad)]
  exact ⟨opOf_opEnd _ _ _ _ _ _, opEnd_partsOnly m tag 4 _ [] (s.pass dt) .upd (by decide), opEnd_backlog (s := s.pass dt) ho _ _ _⟩

/-- A bundle that is new is kept, and waits to be activated. -/
def bundleTaken (bytes : List Nat) (s : State) : State := updState 2 (updMod (fun u => { u with bid := bunBid bytes }) (storeAdd (bundleHeld bytes s.elapsed) (provRevoke bytes s)))

omit hok ho hsrc in
theorem updState_upd (st : Nat) (s : State) : (updState st s).upd = { s.upd with state := st } := by
  unfold updState
  split
  · next h => rw [← h]
  · rfl

omit hok ho hsrc in
theorem bundleTaken_upd (bytes : List Nat) (s : State) :
    (bundleOf (bundleTaken bytes s) (bunBid bytes)).isSome = true ∧ (bundleTaken bytes s).upd.bid = bunBid bytes ∧ (bundleTaken bytes s).upd.state = 2 := by
  rw [bundleOf, bundleTaken, updState_upd]
  refine ⟨?_, rfl, rfl⟩
  refine List.find?_isSome.2 ⟨bundleHeld bytes s.elapsed, List.mem_append_right _ List.mem_cons_self, ?_⟩
  exact beq_self_eq_true (bunBid bytes)

theorem intakeVerify_stores (hgood : bunStatus s o.data = 0) (_ : s.mboxes.length = 4) (hnew : bundleOf s (bunBid o.data) = none) (hroom : storeRoom s = true) :
    completes (.intakeVerify m tag card dt) s (fun t => opOf t m tag = none ∧ (bundleOf t (bunBid o.data)).isSome = true ∧ t.upd.bid = bunBid o.data ∧ t.upd.state = 2) := by
  have hend : intakeEnd o.data (s.pass dt) = (Rc.OK, updNotice 1 (bunBid o.data) (bundleTaken o.data (s.pass dt))) := by
    have hstatus : ¬ bunStatus (s.pass dt) o.data ≠ Rc.OK := by
      rw [bunStatus_pass, hgood]
      exact fun h => h rfl
    have hnew : ¬ (bundleOf (s.pass dt) (bunBid o.data)).isSome = true := by
      rw [show bundleOf (s.pass dt) (bunBid o.data) = none from hnew]
      decide
    have hroom : ¬ (!storeRoom (s.pass dt)) = true := by
      rw [show storeRoom (s.pass dt) = true from hroom]
      decide
    exact (if_neg hstatus).trans ((if_neg hnew).trans (if_neg hroom))
  refine completes_of_onlyIf rfl hok ?_
  rw [intakeVerify_pushed card (s := s.pass dt) ho hsrc, hend, if_pos rfl]
  dsimp only
  have hnoticed : partsOnly [.mboxes, .regs, .heldNotices] (bundleTaken o.data (s.pass dt)) (updNotice 1 (bunBid o.data) (bundleTaken o.data (s.pass dt))) := updNotice_parts _ _ _ _ (partsOnly_refl _ _) rfl
  have hupd : (opEnd m tag 3 0 (leBytes 4 (bunBid o.data)) (updNotice 1 (bunBid o.data) (bundleTaken o.data (s.pass dt)))).upd = (bundleTaken o.data (s.pass dt)).upd :=
    (opEnd_partsOnly _ _ _ _ _ _ .upd (by decide)).trans (hnoticed .upd (by decide))
  obtain ⟨hkept, hbid, hstate⟩ := bundleTaken_upd o.data (s.pass dt)
  refine ⟨opOf_opEnd _ _ _ _ _ _, ?_, (congrArg UpdSt.bid hupd).trans hbid, (congrArg UpdSt.state hupd).trans hstate⟩
  rw [bundleOf, hupd]
  exact hkept

end

/-! ### Distribution and activation (R704, R706, R709) -/

/-- A bundle whose entry is changed, and keeps its identity. -/
theorem bundleOf_bundleSet {bid : Nat} {b : Bundle} {s : State} (h : bundleOf s bid = some b) (f : Bundle → Bundle) (hf : ∀ x, (f x).bid = x.bid) : bundleOf (bundleSet bid f s) bid = some (f b) := by
  have hbid : b.bid = bid := by simpa using List.find?_some h
  have hpred : ((fun x : Bundle => x.bid == bid) ∘ fun x => if x.bid = bid then f x else x) = fun x => x.bid == bid := by
    funext x
    simp only [Function.comp]
    split
    · rw [hf]
    · rfl
  change (s.upd.bundles.map _).find? _ = _
  rw [List.find?_map, hpred, show s.upd.bundles.find? (fun x => x.bid == bid) = some b from h, Option.map_some, if_pos hbid]

theorem bundleOf_of_bundles {s t : State} (h : t.upd.bundles = s.upd.bundles) (bid : Nat) : bundleOf t bid = bundleOf s bid := by rw [bundleOf, h, bundleOf]

/-- A distribution that settles leaves the bundles and the mesh. -/
theorem distSettle_leaves (s : State) : (distSettle s).upd.bundles = s.upd.bundles ∧ (distSettle s).msh = s.msh := by
  refine ⟨?_, distSettle_parts s s (partsOnly_refl [.mboxes, .upd] s) rfl .msh (by decide)⟩
  unfold distSettle
  split
  · rfl
  · dsimp only
    split
    · rw [opEnd_partsOnly _ _ _ _ _ _ .upd (by decide)]
      rfl
    · rfl

/-- A bundle is marked for distribution to a group. -/
def offered (g : Nat) (x : Bundle) : Bundle := { x with group := some g, busy := true, sendIdx := 0 }

/-- A distribution starts: the bundle is marked, its offer flooded. -/
def distStarted (m tag bid g ttl : Nat) (b : Bundle) (s : State) : State :=
  distSettle (bulkFlood ttl (offerPdu b g) (updMod (fun u => { u with dist := some ⟨m, tag, bid, g, []⟩ }) (bundleSet bid (offered g) s)))

theorem distStarted_offers {bid : Nat} {b : Bundle} {s : State} (h : bundleOf s bid = some b) (m tag g ttl : Nat) :
    bundleOf (distStarted m tag bid g ttl b s) bid = some (offered g b) ∧ (distStarted m tag bid g ttl b s).msh.mseq = nextMseq s := by
  obtain ⟨u, hu⟩ : ∃ u, u = updMod (fun v => { v with dist := some ⟨m, tag, bid, g, []⟩ }) (bundleSet bid (offered g) s) := ⟨_, rfl⟩
  have hset : bundleOf u bid = some (offered g b) := by
    rw [hu]
    exact bundleOf_bundleSet h (offered g) fun _ => rfl
  have hseq : nextMseq u = nextMseq s := by rw [hu]; rfl
  obtain ⟨hbundles, hmsh⟩ := distSettle_leaves (bulkFlood ttl (offerPdu b g) u)
  have hflood : (bulkFlood ttl (offerPdu b g) u).upd = u.upd := (meshOnly_floodOriginate _ _ _ _ _ u).parts .upd (by decide)
  rw [distStarted, ← hu, bundleOf_of_bundles (hbundles.trans (congrArg UpdSt.bundles hflood)), hset, hmsh]
  exact ⟨rfl, (floodOriginate_mseq _ _ _ _ _ u).trans hseq⟩

theorem updDistribute_starts (m bid g dt : Nat) (b : Bundle) (s : State) (hr : requestOk m 0x0B03 6 s = true) (hC : s.isC = true) (hbid : bid = (mbReq s m).at_ 0 4) (hg : g = (mbReq s m).at_ 4 2)
    (hb : bundleOf s bid = some b) (hverified : b.verified = true) (hgroup : 0xF000 ≤ g) (hactive : coActive s = true) (hidle : s.upd.dist = none) :
    completes (.updDistribute m dt) s (fun t => (bundleOf t bid).map (fun x => (x.group, x.busy, x.sendIdx)) = some (some g, true, 0) ∧ t.msh.mseq = (s.msh.mseq + 1) % 2 ^ 24) := by
  subst hbid hg
  have hpass := passes_of_requestOk hr
  have hb : bundleOf (taken m dt s) ((mbReq s m).at_ 0 4) = some b := hb
  have hok : ¬ ((!b.verified) = true ∨ (mbReq s m).at_ 4 2 < 0xF000) := by
    rw [hverified]
    rintro (h | h)
    · exact absurd h (by decide)
    · exact absurd hgroup (Nat.not_le.2 h)
  refine completes_long rfl hr ?_
  rw [onC_run ((taken_isC m dt s).trans hC)]
  simp only [hb, if_neg hok, coActive_taken hpass.lt_four, hactive, Bool.not_true, Bool.false_eq_true, if_false, show (taken m dt s).upd.dist = none from hidle, Option.isSome_none]
  obtain ⟨hoffered, hmseq⟩ := distStarted_offers (s := mbAccept m (mbReq s m) [0] [] (taken m dt s)) hb m (mbReq s m).tag ((mbReq s m).at_ 4 2) (cfgN (taken m dt s) 7 1)
  exact ⟨congrArg (Option.map fun x : Bundle => (x.group, x.busy, x.sendIdx)) hoffered, hmseq⟩

/-! ### What a notice leaves of a backlog (R340) -/

theorem mbox_mbModify_backlog {m : Nat} {r : MbRec} {s : State} (k : Nat) {f : Mbox → Mbox} (hf : ∀ b : Mbox, r ∈ b.backlog → r ∈ (f b).backlog) (hm : m < s.mboxes.length) (hr : r ∈ (mbox s m).backlog) :
    r ∈ (mbox (mbModify k f s) m).backlog := by
  by_cases h : k = m
  · subst h
    rw [mbox_mbModify_same f hm]
    exact hf _ hr
  · rw [mbox_mbModify_other f s h]
    exact hr

/-- A mailbox that exists, with a record that waits. -/
structure Waits (m : Nat) (r : MbRec) (s : State) : Prop where
  lt : m < s.mboxes.length
  mem : r ∈ (mbox s m).backlog

section
variable {m : Nat} {r : MbRec} {s t : State}

theorem waits_of_mboxes (h : Waits m r s) (ht : t.mboxes = s.mboxes) : Waits m r t := ⟨ht ▸ h.lt, by rw [mbox_of_mboxes ht]; exact h.mem⟩

theorem waits_mbModify (h : Waits m r s) (k : Nat) {f : Mbox → Mbox} (hf : ∀ b : Mbox, r ∈ b.backlog → r ∈ (f b).backlog) : Waits m r (mbModify k f s) :=
  ⟨h.lt.trans_eq (mbModify_mboxes_length k f s).symm, mbox_mbModify_backlog k hf h.lt h.mem⟩

theorem waits_noticeTo (h : Waits m r s) (k : Nat) (q : MbRec) : Waits m r (noticeTo k q s) := by
  unfold noticeTo
  split
  · exact waits_mbModify h k fun _ hb => List.mem_append_left _ hb
  · exact waits_of_mboxes (waits_mbModify h k (f := fun b => { b with lost := b.lost + 1 }) fun _ hb => hb) rfl

theorem waits_notice (h : Waits m r s) (code bit : Nat) (p : List Nat) : Waits m r (notice code bit p s) := by
  unfold notice
  split
  · refine foldl_keeps (Waits m r) _ _ _ (fun t k ht => ?_) h
    split
    · exact waits_noticeTo ht k _
    · exact ht
  · exact waits_of_mboxes h rfl

end

/-! ### Activation (R709) -/

/-- The comparator of the installation is set, before the notice. -/
def installArmed (t : Nat) (s : State) : State := cmpArm 9 (((s.wr (Reg.FIRN_CMP_TLO 9) t).wr (Reg.FIRN_CMP_THI 9) (t / 2 ^ 32)).clr (Reg.FIRN_CMP_CTL_CHEN 9))

theorem actArm_eq (t : Nat) (s : State) : actArm t s = updNotice 2 s.upd.bid (updState 5 (updMod (fun u => { u with armed := true, t := t }) (installArmed t s))) := rfl

theorem installArmed_leaves (t : Nat) (s : State) : (installArmed t s).upd = s.upd ∧ (installArmed t s).mboxes = s.mboxes := ⟨rfl, rfl⟩

theorem updState_mboxes (st : Nat) (s : State) : (updState st s).mboxes = s.mboxes := updState_parts st s s (partsOnly_refl [.upd, .flight] s) rfl .mboxes (by decide)

theorem actArm_give (t : Nat) (s : State) : (actArm t s).upd.give = s.upd.give := by
  have hnoticed : partsOnly [.mboxes, .regs, .heldNotices] (updState 5 (updMod (fun u => { u with armed := true, t := t }) (installArmed t s))) (actArm t s) := by
    rw [actArm_eq]
    exact updNotice_parts _ _ _ _ (partsOnly_refl _ _) rfl
  have hupd : (actArm t s).upd = (updState 5 (updMod (fun u => { u with armed := true, t := t }) (installArmed t s))).upd := hnoticed .upd (by decide)
  rw [hupd, updState_upd]
  change (installArmed t s).upd.give = s.upd.give
  rw [(installArmed_leaves t s).1]

theorem waits_actArm {m : Nat} {r : MbRec} {s : State} (h : Waits m r s) (t : Nat) : Waits m r (actArm t s) := by
  rw [actArm_eq, updNotice]
  refine waits_notice (waits_of_mboxes h ?_) _ _ _
  rw [updState_mboxes]
  exact (installArmed_leaves t s).2

/-- The order to install is kept, and the record of its request stays. -/
theorem activateTake_gives {m : Nat} {r : MbRec} {s : State} (h : Waits m r s) (bid t : Nat) : (activateTake bid t s).upd.give = some (bid, t) ∧ Waits m r (activateTake bid t s) := by
  have hgiven : Waits m r (updMod (fun u => { u with give := some (bid, t) }) s) := waits_of_mboxes h rfl
  unfold activateTake
  dsimp only
  split
  · exact ⟨actArm_give t _, waits_actArm hgiven t⟩
  · split
    · exact ⟨rfl, waits_of_mboxes hgiven rfl⟩
    · exact ⟨rfl, hgiven⟩

/-- A coordinator floods the order to install. -/
def activateSent (bid t : Nat) (s : State) : State := if coActive s then bulkFlood (cfgN s 7 1) ([5] ++ leBytes 4 bid ++ leBytes 8 t) s else s

theorem waits_activateSent {m : Nat} {r : MbRec} {s : State} (h : Waits m r s) (bid t : Nat) : Waits m r (activateSent bid t s) := by
  unfold activateSent
  split
  · exact waits_of_mboxes h (meshOnly_floodOriginate _ _ _ _ _ s).mboxes
  · exact h

theorem updActivate_gives (m bid T dt : Nat) (b : Bundle) (s : State) (hr : requestOk m 0x0B04 16 s = true) (hbid : bid = (mbReq s m).at_ 0 4) (hT : T = (mbReq s m).at_ 8 8) (hlo : (s.pass dt).now + ftS 60 ≤ T)
    (hhi : T ≤ (s.pass dt).now + ftS 2592000) (hb : bundleOf s bid = some b)
    (hfor : (isJoined s = true ∧ coActive s = true) ∨ (isJoined s = false ∧ bunForMe s (bundleBytes b) = true ∧ bunCompat s (bundleBytes b) = true)) :
    completes (.updActivate m dt) s (fun t => t.upd.give = some (bid, T) ∧ MbRec.mk (mbReq s m).cmd (mbReq s m).tag (mbReq s m).flags 0 0 0 [] ∈ (mbox t m).backlog) := by
  subst hbid hT
  have hpass := passes_of_requestOk hr
  have hwindow : ¬ ((mbReq s m).at_ 8 8 < (taken m dt s).now + ftS 60 ∨ (taken m dt s).now + ftS 2592000 < (mbReq s m).at_ 8 8) := by
    rintro (h | h)
    · exact absurd hlo (Nat.not_le.2 h)
    · exact absurd hhi (Nat.not_le.2 h)
  have hleaf : isLeaf (taken m dt s) = isLeaf s := taken_on_off hpass.lt_four (by simp [offMbx, Field.key, Reg.BKP_SET0_PROFILE])
  have hready : ¬ (isJoined s && !coActive s) = true := by rcases hfor with ⟨hj, ha⟩ | ⟨hj, -, -⟩ <;> simp [*]
  have hcompat : ¬ (!isJoined s && !(bunForMe s (bundleBytes b) && bunCompat s (bundleBytes b))) = true := by rcases hfor with ⟨hj, ha⟩ | ⟨hj, hme, hcompat⟩ <;> simp [*]
  refine completes_short rfl hr ?_
  simp only [if_neg hwindow, show bundleOf (taken m dt s) ((mbReq s m).at_ 0 4) = some b from hb, isJoined_taken hpass.lt_four, coActive_taken hpass.lt_four, if_neg hready,
    bunForMe_of (s := s) (t := taken m dt s) rfl hleaf, bunCompat_of (s := s) (t := taken m dt s) rfl, if_neg hcompat]
  have hanswered : Waits m (MbRec.mk (mbReq s m).cmd (mbReq s m).tag (mbReq s m).flags 0 0 0 []) (mbResult m (mbReq s m) Rc.OK [] (taken m dt s)) := by
    refine ⟨hpass.lt_length.trans_eq (mbModify_mboxes_length _ _ _).symm, ?_⟩
    rw [mbResult, mbox_mbPush _ (show m < (taken m dt s).mboxes.length from hpass.lt_length)]
    exact List.mem_append_right _ List.mem_cons_self
  obtain ⟨hgive, hwaits⟩ := activateTake_gives (waits_activateSent hanswered ((mbReq s m).at_ 0 4) ((mbReq s m).at_ 8 8)) ((mbReq s m).at_ 0 4) ((mbReq s m).at_ 8 8)
  exact ⟨hgive, hwaits.mem⟩

end Sys2Proof.Machine

open Sys2Proof Sys2Proof.Machine

/-- Settles O38: what each command stores, starts or refuses, by its own lemma. -/
theorem mailboxStores : Obligations.MailboxStores := by
  unfold Obligations.MailboxStores
  exact ⟨storePartset_lays, storeScrub_scrubs, fun m dt outs s hr hpart hkind => storeScrub_readOnly m dt s hr hpart hkind outs, tblLoad_starts, fun m st offs dt b s hr hb hforce => tblLoad_refused m dt b s hr hb hforce st offs,
    tblRevert_starts, tblWriteDone_applies, tblWriteDone_fails, updIntake_pushed, updIntake_card, updPush_joins,
    fun m tag dt card o s _ => intakeVerify_fails m tag dt card o s, fun m tag dt card o s _ => intakeVerify_stores m tag dt card o s, updDistribute_starts, updActivate_gives⟩
end

section
/-!
SUPPORT. The ALU of the compact form on bit vectors (R377, R384, R385): signed readings and single bits, and what each function gives.
-/
namespace Sys2Proof.Machine

/-! ### Signed readings and bits (R8) -/

/-- A number's signed reading is that of its low bits. -/
theorem toSigned_eq_toInt (w x : Nat) : toSigned w x = (BitVec.ofNat w x).toInt := by
  have hlt : x % 2 ^ w < 2 ^ (w - 1) ↔ 2 * (x % 2 ^ w) < 2 ^ w := by
    cases w with
    | zero => simp [Nat.mod_one]
    | succ n => rw [Nat.add_sub_cancel, pow_succ']; omega
  simp only [toSigned, BitVec.toInt, BitVec.toNat_ofNat, hlt]

theorem toSigned_toNat {w : Nat} (a : BitVec w) : toSigned w a.toNat = a.toInt := by rw [toSigned_eq_toInt, BitVec.ofNat_toNat, BitVec.setWidth_eq]

theorem ofSigned_eq_toNat (w : Nat) (x : Int) : ofSigned w x = (BitVec.ofInt w x).toNat := (BitVec.toNat_ofInt x).symm

/-- A signed reading of `w` bits, cut to `v` bits, is the sign extension. -/
theorem ofSigned_toSigned (v w x : Nat) : ofSigned v (toSigned w x) = (BitVec.signExtend v (BitVec.ofNat w x)).toNat := by rw [toSigned_eq_toInt, ofSigned_eq_toNat]; rfl

theorem bitOf_beq_one (x i : Nat) : (bitOf x i == 1) = x.testBit i := by
  rw [bitOf, Nat.shiftRight_eq_div_pow, Nat.testBit_eq_decide_div_mod_eq, beq_eq_decide]

/-! ### Results and their flags (R377) -/

/-- A result with its N and Z. -/
def bvOut {w : Nat} (r : BitVec w) : AluOut := { res := some r.toNat, n := some r.msb, z := some (r == 0#w), c := none, v := none }

theorem toNat_eq_zero_iff {w : Nat} {r : BitVec w} : r.toNat = 0 ↔ r = 0#w := by rw [BitVec.toNat_eq]; simp

theorem outNZ_toNat {w : Nat} (r : BitVec w) : outNZ w r.toNat = bvOut r := by
  have hn : isNeg w r.toNat = r.msb := by rw [isNeg, bitOf_beq_one, BitVec.msb_eq_getLsbD_last]; rfl
  have hz : (r.toNat == 0) = (r == 0#w) := by
    rw [Bool.eq_iff_iff, beq_iff_eq, beq_iff_eq, toNat_eq_zero_iff]
  rw [outNZ, hn, hz, bvOut]

variable {w : Nat} (a b : BitVec w)

theorem sumOut_toNat (k : Nat) : sumOut w a.toNat b.toNat k =
    { bvOut (a + b + BitVec.ofNat w k) with
      c := some (decide (2 ^ w ≤ a.toNat + b.toNat + k)), v := some (decide ((a + b + BitVec.ofNat w k).toInt ≠ a.toInt + b.toInt + (k : Int))) } := by
  have hr : (a.toNat + b.toNat + k) % 2 ^ w = (a + b + BitVec.ofNat w k).toNat := by simp
  simp only [sumOut, hr, outNZ_toNat, toSigned_toNat]

theorem diffOut_toNat {k : Nat} (hk : k ≤ 1) : diffOut w a.toNat b.toNat k =
    { bvOut (a - b - BitVec.ofNat w k) with
      c := some (decide (b.toNat + k ≤ a.toNat)), v := some (decide ((a - b - BitVec.ofNat w k).toInt ≠ a.toInt - b.toInt - (k : Int))) } := by
  have hr : (a.toNat + 2 ^ w - b.toNat - k) % 2 ^ w = (a - b - BitVec.ofNat w k).toNat := by
    have hb := b.isLt
    rcases Nat.le_one_iff_eq_zero_or_eq_one.1 hk with rfl | rfl
    · simp only [Nat.sub_zero, BitVec.sub_zero, BitVec.toNat_sub]
      congr 1; omega
    · cases w with
      | zero => simp [Nat.mod_one, BitVec.of_length_zero]
      | succ n =>
        have h1 : 1 < 2 ^ (n + 1) := Nat.one_lt_two_pow (Nat.succ_ne_zero n)
        rw [BitVec.toNat_sub, BitVec.toNat_sub, BitVec.toNat_ofNat, Nat.mod_eq_of_lt h1, Nat.add_mod_mod]
        rw [show 2 ^ (n + 1) - 1 + (2 ^ (n + 1) - b.toNat + a.toNat) = a.toNat + 2 ^ (n + 1) - b.toNat - 1 + 2 ^ (n + 1) by omega, Nat.add_mod_right]
  simp only [diffOut, hr, outNZ_toNat, toSigned_toNat]

/-- A shift or a rotation (R385): the amount 0 leaves the value and C. -/
theorem shiftOut_toNat {n r : Nat} {out : Bool} {x : BitVec w} {y : Bool} (hr : n ≠ 0 → r = x.toNat) (hy : n ≠ 0 → out = y) :
    shiftOut w a.toNat n r out = if n = 0 then bvOut a else { bvOut x with c := some y } := by
  by_cases hn : n = 0
  · simp only [shiftOut, if_pos hn, outNZ_toNat]
  · simp only [shiftOut, if_neg hn, hr hn, hy hn, outNZ_toNat]

/-! ### Additions, differences and logic (R384) -/

section
variable (c : Bool)

theorem aluAdd_toNat : aluAdd w a.toNat b.toNat c =
    { bvOut (a + b) with c := some (decide (2 ^ w ≤ a.toNat + b.toNat)), v := some (decide ((a + b).toInt ≠ a.toInt + b.toInt)) } :=
  (sumOut_toNat a b 0).trans (by simp only [BitVec.add_zero, Nat.add_zero, Nat.cast_zero, Int.add_zero])

theorem aluSub_toNat : aluSub w a.toNat b.toNat c =
    { bvOut (a - b) with c := some (decide (b.toNat + 0 ≤ a.toNat)), v := some (decide ((a - b).toInt ≠ a.toInt - b.toInt - ((0 : Nat) : Int))) } :=
  (diffOut_toNat a b (Nat.zero_le 1)).trans (by rw [BitVec.sub_zero])

theorem aluCmp_toNat : aluCmp w a.toNat b.toNat c =
    { bvOut (a - b) with res := none, c := some (decide (b.toNat + 0 ≤ a.toNat)), v := some (decide ((a - b).toInt ≠ a.toInt - b.toInt - ((0 : Nat) : Int))) } :=
  congrArg (fun o : AluOut => { o with res := none }) (aluSub_toNat a b c)

theorem aluSbc_toNat : aluSbc w a.toNat b.toNat c =
    { bvOut (a - b - BitVec.ofNat w (1 - b2n c)) with
      c := some (decide (b.toNat + (1 - b2n c) ≤ a.toNat)), v := some (decide ((a - b - BitVec.ofNat w (1 - b2n c)).toInt ≠ a.toInt - b.toInt - ((1 - b2n c : Nat) : Int))) } :=
  diffOut_toNat a b (Nat.sub_le 1 _)

theorem aluAnd_toNat : aluAnd w a.toNat b.toNat c = bvOut (a &&& b) := by rw [aluAnd, ← BitVec.toNat_and, outNZ_toNat]
theorem aluOr_toNat : aluOr w a.toNat b.toNat c = bvOut (a ||| b) := by rw [aluOr, ← BitVec.toNat_or, outNZ_toNat]
theorem aluXor_toNat : aluXor w a.toNat b.toNat c = bvOut (a ^^^ b) := by rw [aluXor, ← BitVec.toNat_xor, outNZ_toNat]
theorem aluBic_toNat : aluBic w a.toNat b.toNat c = bvOut (a &&& ~~~b) := by rw [aluBic, ← BitVec.toNat_not, ← BitVec.toNat_and, outNZ_toNat]
theorem aluNot_toNat : aluNot w a.toNat b.toNat c = bvOut (~~~b) := by rw [aluNot, ← BitVec.toNat_not, outNZ_toNat]
theorem aluTst_toNat : aluTst w a.toNat b.toNat c = { bvOut (a &&& b) with res := none } := by rw [aluTst, ← BitVec.toNat_and, outNZ_toNat]

/-! ### Shifts and rotations (R385) -/

/-- The last bit shifted out to the left stands above the word. -/
theorem shl_carry (n : Nat) : (decide (n ≤ w) && bitOf a.toNat (w - n) == 1) = ((a.zeroExtend (w + 1)) <<< n).msb := by
  rw [bitOf_beq_one, BitVec.msb_eq_getLsbD_last, Nat.add_sub_cancel, BitVec.getLsbD_shiftLeft]
  by_cases h : n ≤ w
  · simp [h, Nat.not_lt.2 h, BitVec.getLsbD]
  · simp [h, Nat.not_le.1 h]

theorem aluShl_toNat : aluShl w a.toNat b.toNat c =
    if b.toNat % 32 = 0 then bvOut a else { bvOut (a <<< (b.toNat % 32)) with c := some ((a.zeroExtend (w + 1)) <<< (b.toNat % 32)).msb } :=
  shiftOut_toNat a (fun _ => by rw [BitVec.toNat_shiftLeft, Nat.shiftLeft_eq]) (fun _ => shl_carry a _)

theorem aluShr_toNat : aluShr w a.toNat b.toNat c =
    if b.toNat % 32 = 0 then bvOut a else { bvOut (a >>> (b.toNat % 32)) with c := some ((a >>> (b.toNat % 32 - 1)).getLsbD 0) } :=
  shiftOut_toNat a (fun _ => by rw [BitVec.toNat_ushiftRight, Nat.shiftRight_eq_div_pow]) (fun _ => by rw [bitOf_beq_one, BitVec.getLsbD_ushiftRight, Nat.add_zero]; rfl)

/-- The last bit shifted out to the right of a signed word is a copy of its sign past the word. -/
theorem sar_carry {n : Nat} (hw : w ≠ 0) (hn : n ≠ 0) : (if n ≤ w then bitOf a.toNat (n - 1) == 1 else isNeg w a.toNat) = (a.sshiftRight (n - 1)).getLsbD 0 := by
  rw [BitVec.getLsbD_sshiftRight, decide_eq_false (by omega : ¬ w ≤ 0), Bool.not_false, Bool.true_and, Nat.add_zero, BitVec.msb_eq_getLsbD_last, isNeg, bitOf_beq_one, bitOf_beq_one]
  by_cases h : n ≤ w
  · rw [if_pos h, if_pos (by omega)]; rfl
  · rw [if_neg h, if_neg (by omega)]; rfl

theorem aluSar_toNat (hw : w ≠ 0) : aluSar w a.toNat b.toNat c =
    if b.toNat % 32 = 0 then bvOut a else { bvOut (a.sshiftRight (b.toNat % 32)) with c := some ((a.sshiftRight (b.toNat % 32 - 1)).getLsbD 0) } :=
  shiftOut_toNat a (fun _ => by rw [toSigned_toNat, ← Int.shiftRight_eq_div_pow, ofSigned_eq_toNat, BitVec.sshiftRight_eq]) (fun hn => sar_carry a hw hn)

/-- What leaves at the right of a rotation comes in at the left. -/
theorem rotateRight_toNat_add {n : Nat} (hn : n < w) : a.toNat / 2 ^ n + a.toNat % 2 ^ n * 2 ^ (w - n) = (a.rotateRight n).toNat := by
  have hsplit : 2 ^ w = 2 ^ n * 2 ^ (w - n) := by rw [← pow_add, Nat.add_sub_cancel' hn.le]
  have hlow : a.toNat >>> n < 2 ^ (w - n) := by
    rw [Nat.shiftRight_eq_div_pow]
    exact Nat.div_lt_of_lt_mul (hsplit ▸ a.isLt)
  have hhigh : a.toNat <<< (w - n) % 2 ^ w = (a.toNat % 2 ^ n) <<< (w - n) := by rw [Nat.shiftLeft_eq, Nat.shiftLeft_eq, hsplit, Nat.mul_mod_mul_right]
  rw [BitVec.toNat_rotateRight, Nat.mod_eq_of_lt hn, hhigh, Nat.or_comm, ← Nat.shiftLeft_add_eq_or_of_lt hlow, Nat.shiftLeft_eq, Nat.shiftRight_eq_div_pow, Nat.add_comm]

theorem ror_carry {n : Nat} (hn : n ≠ 0) (hlt : n < w) : (bitOf a.toNat (n - 1) == 1) = (a.rotateRight n).msb := by
  rw [bitOf_beq_one, BitVec.msb_eq_getLsbD_last, BitVec.getLsbD_rotateRight, Nat.mod_eq_of_lt hlt, show decide (w - 1 < w - n) = false from decide_eq_false (by omega), cond_false,
    show w - 1 - (w - n) = n - 1 by omega, show decide (w - 1 < w) = true from decide_eq_true (by omega), Bool.true_and]
  rfl

theorem aluRor_toNat (hw : w ≠ 0) : aluRor w a.toNat b.toNat c =
    if b.toNat % 32 % w = 0 then bvOut a else { bvOut (a.rotateRight (b.toNat % 32)) with c := some (a.rotateRight (b.toNat % 32)).msb } := by
  have hmod : a.rotateRight (b.toNat % 32) = a.rotateRight (b.toNat % 32 % w) := (BitVec.rotateRight_mod_eq_rotateRight).symm
  have hlt := Nat.mod_lt (b.toNat % 32) (Nat.pos_of_ne_zero hw)
  rw [hmod]
  exact shiftOut_toNat a (fun _ => rotateRight_toNat_add a hlt) (fun hn => ror_carry a hn hlt)

/-! ### Products and quotients (R384, R385) -/

theorem aluMul_toNat : aluMul w a.toNat b.toNat c = bvOut (a * b) := by rw [aluMul, ← BitVec.toNat_mul, outNZ_toNat]

theorem aluDivu_toNat : aluDivu w a.toNat b.toNat c = { bvOut (if b = 0#w then -1#w else a / b) with v := some (decide (b = 0#w)) } := by
  have hr : (if b.toNat = 0 then 2 ^ w - 1 else a.toNat / b.toNat) = (if b = 0#w then -1#w else a / b).toNat := by
    simp only [toNat_eq_zero_iff]; split
    · rw [BitVec.neg_one_eq_allOnes, BitVec.toNat_allOnes]
    · rw [BitVec.toNat_udiv]
  have hv : (b.toNat == 0) = decide (b = 0#w) := by rw [beq_eq_decide, decide_eq_decide, toNat_eq_zero_iff]
  simp only [aluDivu, hr, outNZ_toNat, hv]

theorem aluRemu_toNat : aluRemu w a.toNat b.toNat c = { bvOut (if b = 0#w then a else a % b) with v := some (decide (b = 0#w)) } := by
  have hr : (if b.toNat = 0 then a.toNat else a.toNat % b.toNat) = (if b = 0#w then a else a % b).toNat := by
    simp only [toNat_eq_zero_iff]; split
    · rfl
    · rw [BitVec.toNat_umod]
  have hv : (b.toNat == 0) = decide (b = 0#w) := by rw [beq_eq_decide, decide_eq_decide, toNat_eq_zero_iff]
  simp only [aluRemu, hr, outNZ_toNat, hv]

end

section
variable (a b : BitVec 32) (c : Bool)

/-- The upper half of a product of 64 bits. -/
theorem aluMulh_toNat : aluMulh 32 a.toNat b.toNat c = bvOut ((a.signExtend 64 * b.signExtend 64).extractLsb' 32 32) := by
  have hr : ofSigned 32 (toSigned 32 a.toNat * toSigned 32 b.toNat / ((2 ^ 32 : Nat) : Int)) = ((a.signExtend 64 * b.signExtend 64).extractLsb' 32 32).toNat := by
    simp only [toSigned_toNat, ofSigned, BitVec.extractLsb'_toNat, BitVec.signExtend, ← BitVec.ofInt_mul, BitVec.toNat_ofInt, Nat.shiftRight_eq_div_pow]
    generalize a.toInt * b.toInt = x
    omega
  rw [aluMulh, hr, outNZ_toNat]

theorem aluMulhu_toNat : aluMulhu 32 a.toNat b.toNat c = bvOut ((a.zeroExtend 64 * b.zeroExtend 64).extractLsb' 32 32) := by
  have hr : a.toNat * b.toNat / 2 ^ 32 = ((a.zeroExtend 64 * b.zeroExtend 64).extractLsb' 32 32).toNat := by
    have hlt : a.toNat * b.toNat < 2 ^ 32 * 2 ^ 32 := Nat.mul_lt_mul'' a.isLt b.isLt
    simp only [BitVec.extractLsb'_toNat, BitVec.toNat_mul, BitVec.truncate_eq_setWidth, BitVec.toNat_setWidth_of_le (show 32 ≤ 64 by decide), Nat.shiftRight_eq_div_pow]
    generalize a.toNat * b.toNat = x at hlt
    omega
  rw [aluMulhu, hr, outNZ_toNat]

theorem divEdge_iff : divEdge 32 a.toNat b.toNat = true ↔ a = BitVec.intMin 32 ∧ b = -1#32 := by
  simp only [divEdge, Bool.and_eq_true, beq_iff_eq, BitVec.toNat_eq]
  rfl

/-- A signed quotient that fits its word. -/
theorem sdiv_eq_ofInt : (BitVec.ofInt 32 (a.toInt.tdiv b.toInt)) = a.sdiv b := by
  rw [← BitVec.ofInt_toInt (x := a.sdiv b), BitVec.toInt_sdiv, ← BitVec.toInt_ofInt, BitVec.ofInt_toInt]

theorem aluDiv_toNat : aluDiv 32 a.toNat b.toNat c =
    { bvOut (if b = 0#32 then -1#32 else a.sdiv b) with v := some (decide (b = 0#32 ∨ (a = BitVec.intMin 32 ∧ b = -1#32))) } := by
  have hr : (if b.toNat = 0 then 2 ^ 32 - 1 else if divEdge 32 a.toNat b.toNat then a.toNat else ofSigned 32 ((toSigned 32 a.toNat).tdiv (toSigned 32 b.toNat))) =
      (if b = 0#32 then -1#32 else a.sdiv b).toNat := by
    simp only [toNat_eq_zero_iff, divEdge_iff, toSigned_toNat, ofSigned_eq_toNat, sdiv_eq_ofInt]
    split
    · rfl
    · split
      · next h => obtain ⟨rfl, rfl⟩ := h; decide
      · rfl
  have hv : (b.toNat == 0 || divEdge 32 a.toNat b.toNat) = decide (b = 0#32 ∨ (a = BitVec.intMin 32 ∧ b = -1#32)) := by
    rw [Bool.eq_iff_iff, Bool.or_eq_true, beq_iff_eq, toNat_eq_zero_iff, divEdge_iff, decide_eq_true_iff]
  simp only [aluDiv, hr, hv, outNZ_toNat]

theorem aluRem_toNat : aluRem 32 a.toNat b.toNat c =
    { bvOut (if b = 0#32 then a else a.srem b) with v := some (decide (b = 0#32 ∨ (a = BitVec.intMin 32 ∧ b = -1#32))) } := by
  have hr : (if b.toNat = 0 then a.toNat else if divEdge 32 a.toNat b.toNat then 0 else ofSigned 32 ((toSigned 32 a.toNat).tmod (toSigned 32 b.toNat))) =
      (if b = 0#32 then a else a.srem b).toNat := by
    simp only [toNat_eq_zero_iff, divEdge_iff, toSigned_toNat, ofSigned_eq_toNat, ← BitVec.toInt_srem, BitVec.ofInt_toInt]
    split
    · rfl
    · split
      · next h => obtain ⟨rfl, rfl⟩ := h; decide
      · rfl
  have hv : (b.toNat == 0 || divEdge 32 a.toNat b.toNat) = decide (b = 0#32 ∨ (a = BitVec.intMin 32 ∧ b = -1#32)) := by
    rw [Bool.eq_iff_iff, Bool.or_eq_true, beq_iff_eq, toNat_eq_zero_iff, divEdge_iff, decide_eq_true_iff]
  simp only [aluRem, hr, hv, outNZ_toNat]

theorem aluMin_toNat : aluMin 32 a.toNat b.toNat c = outNone (if a.sle b then a else b).toNat := by
  simp only [aluMin, toSigned_toNat, BitVec.sle_eq_decide, decide_eq_true_eq, apply_ite BitVec.toNat]

theorem aluMax_toNat : aluMax 32 a.toNat b.toNat c = outNone (if a.sle b then b else a).toNat := by
  simp only [aluMax, toSigned_toNat, BitVec.sle_eq_decide, decide_eq_true_eq, apply_ite BitVec.toNat]

theorem aluMinu_toNat : aluMinu 32 a.toNat b.toNat c = outNone (if a ≤ b then a else b).toNat := by
  simp only [aluMinu, Nat.min_def, BitVec.le_def, apply_ite BitVec.toNat]

theorem aluMaxu_toNat : aluMaxu 32 a.toNat b.toNat c = outNone (if a ≤ b then b else a).toNat := by
  simp only [aluMaxu, Nat.max_def, BitVec.le_def, apply_ite BitVec.toNat]

end

/-! ### Condition codes (R377) -/

/-- Set A, by its code. -/
theorem condHolds_setA (c : Core) : condHolds false 0 c = c.z ∧ condHolds false 1 c = !c.z ∧ condHolds false 2 c = c.c ∧ condHolds false 3 c = !c.c ∧ condHolds false 4 c = c.n ∧
    condHolds false 5 c = !c.n ∧ condHolds false 6 c = (c.n == c.v) ∧ condHolds false 7 c = true := ⟨rfl, rfl, rfl, rfl, rfl, rfl, rfl, rfl⟩

/-- Set B, by its code. -/
theorem condHolds_setB (c : Core) : condHolds true 0 c = c.v ∧ condHolds true 1 c = !c.v ∧ condHolds true 2 c = (c.c && !c.z) ∧ condHolds true 3 c = (!c.c || c.z) ∧
    condHolds true 4 c = (!c.z && c.n == c.v) ∧ condHolds true 5 c = (c.z || c.n != c.v) ∧ condHolds true 6 c = (c.n != c.v) ∧ condHolds true 7 c = true := ⟨rfl, rfl, rfl, rfl, rfl, rfl, rfl, rfl⟩

end Sys2Proof.Machine

open Sys2Proof Sys2Proof.Machine

/-- Settles O8: the two sets by their codes, and C of a difference. -/
theorem conditionCodes : Obligations.ConditionCodes := by
  unfold Obligations.ConditionCodes
  refine ⟨fun c => ?_, fun w a b c _ => ⟨by rw [aluSub_toNat]; rfl, by rw [aluCmp_toNat]; rfl⟩⟩
  obtain ⟨a0, a1, a2, a3, a4, a5, a6, a7⟩ := condHolds_setA c
  obtain ⟨b0, b1, b2, b3, b4, b5, b6, b7⟩ := condHolds_setB c
  simp only [a0, a1, a2, a3, a4, a5, a6, a7, b0, b1, b2, b3, b4, b5, b6, b7, beq_true, beq_false, and_self]

/-- Settles O41: each function by its own lemma. -/
theorem aluFunctions : Obligations.AluFunctions := by
  unfold Obligations.AluFunctions
  refine ⟨fun w a b c hw => ?_, fun a b c => ?_⟩
  · have h0 : w ≠ 0 := by rintro rfl; simp at hw
    exact ⟨aluAdd_toNat a b c, sumOut_toNat a b (b2n c), aluSub_toNat a b c, aluSbc_toNat a b c, aluCmp_toNat a b c,
      aluAnd_toNat a b c, aluOr_toNat a b c, aluXor_toNat a b c, aluBic_toNat a b c, aluTst_toNat a b c, aluNot_toNat a b c, rfl,
      aluShl_toNat a b c, aluShr_toNat a b c, aluSar_toNat a b c h0, aluRor_toNat a b c h0⟩
  · exact ⟨aluMul_toNat a b c, aluMulh_toNat a b c, aluMulhu_toNat a b c, aluDiv_toNat a b c, aluDivu_toNat a b c, aluRem_toNat a b c, aluRemu_toNat a b c,
      aluMin_toNat a b c, aluMax_toNat a b c, aluMinu_toNat a b c, aluMaxu_toNat a b c⟩
end

section
/-!
SUPPORT. The run of an instruction of the compact form: the change of one core, how an instruction ends, and what a command answers whose instruction has been fetched
(R370, R376, R379, R380, R395, R399, R400).
-/
namespace Sys2Proof.Machine

/-! ### A core and its change -/

theorem modAt_modAt {α : Type} (l : List α) (i : Nat) (f g : α → α) : modAt (modAt l i g) i f = modAt l i (fun a => f (g a)) := by
  induction l generalizing i with
  | nil => rfl
  | cons a as ih => cases i <;> simp [modAt, ih]

theorem modAt_id {α : Type} (l : List α) (i : Nat) : modAt l i id = l := by
  induction l generalizing i with
  | nil => rfl
  | cons a as ih => cases i <;> simp [modAt, ih]

/-- A change looks at the element that it changes alone. -/
theorem modAt_congr {α : Type} {l : List α} {i : Nat} {f g : α → α} (d : α) (h : f (l.getD i d) = g (l.getD i d)) : modAt l i f = modAt l i g := by
  induction l generalizing i with
  | nil => rfl
  | cons a as ih =>
    cases i with
    | zero => exact congrArg (· :: as) h
    | succ i => exact congrArg (a :: ·) (ih h)

section
variable (ini : Nat) (f g : Core → Core) (s : State)

theorem coreMod_coreMod : coreMod ini f (coreMod ini g s) = coreMod ini (fun c => f (g c)) s := by rw [coreMod, coreMod, coreMod, modAt_modAt]
theorem coreMod_id : coreMod ini id s = s := by rw [coreMod, modAt_id]

variable {ini f g s}

theorem coreMod_congr (h : f (coreOf s ini) = g (coreOf s ini)) : coreMod ini f s = coreMod ini g s := by rw [coreMod, coreMod, modAt_congr _ h]

theorem coreOf_coreMod (h : coreIx ini < s.cores.length) : coreOf (coreMod ini f s) ini = f (coreOf s ini) := getD_modAt_same _ _ _ _ h

theorem coreOf_of_cores {t : State} (h : t.cores = s.cores) : coreOf t ini = coreOf s ini := by rw [coreOf, coreOf, h]

theorem plainFlow_of_cores {t : State} (h : t.cores = s.cores) (hs : plainFlow ini s) : plainFlow ini t := by rwa [plainFlow, coreOf_of_cores h]

/-- A core past the end of the list reads as one in reset. -/
theorem coreIx_lt_of_ne (h : coreOf s ini ≠ Core.reset 0) : coreIx ini < s.cores.length := by
  by_contra hn
  exact h (List.getD_eq_default _ _ (Nat.not_lt.1 hn))

/-- The fourteen cores of the compact form stand in the list (R28). -/
theorem coreIx_lt_of_isCore (h : isCore ini = true) (hs : s.cores.length = 14) : coreIx ini < s.cores.length := by
  simp only [isCore, Bool.or_eq_true, Bool.and_eq_true, decide_eq_true_eq] at h
  rw [hs, coreIx]
  split <;> omega

end

/-! ### Registers (R371) -/

section
variable {i j : Nat} (v : Nat) (c : Core)

theorem gRd_gWr_same : gRd (gWr i v c) i = v % 2 ^ 32 := by
  simp only [gRd, gWr, Vector.get_eq_getElem, Fin.val_ofNat, Vector.getElem_set_self, BitVec.toNat_ofNat]
theorem gRd_gWr_other (h : i % 16 ≠ j % 16) : gRd (gWr i v c) j = gRd c j := by
  simp only [gRd, gWr, Vector.get_eq_getElem, Fin.val_ofNat]
  rw [Vector.getElem_set_ne _ _ h]

theorem gRd_lt (i : Nat) : gRd c i < 2 ^ 32 := BitVec.isLt _

end

/-! ### The end of an instruction (R395, R400, R403) -/

theorem loopBack_off {ini npc : Nat} {c : Core} (h : ini = 0 → c.le = false) : loopBack ini npc c = (c, npc) := by
  rw [loopBack, if_neg]
  rintro ⟨h0, hle⟩
  simp [h h0] at hle

/-- No failed write has waited for five posted writes (R403). -/
def noneDue (c : Core) : Prop := c.imprecise.any (fun w => decide (5 ≤ w.after)) = false

theorem noneDue_of_nil {c : Core} (h : c.imprecise = []) : noneDue c := by rw [noneDue, h]; rfl

theorem isaBoundary_of_noneDue {pc : Nat} {c : Core} (h : noneDue c) : isaBoundary pc c = { c with pc := BitVec.ofNat 32 pc, boundary := true, oneStep := false } :=
  if_neg (by rw [show c.imprecise.any (fun w => decide (5 ≤ w.after)) = false from h]; decide)

theorem isaBoundary_none {pc : Nat} {c : Core} (h : c.imprecise = []) : isaBoundary pc c = { c with pc := BitVec.ofNat 32 pc, boundary := true, oneStep := false } :=
  isaBoundary_of_noneDue (noneDue_of_nil h)

section
variable {ini len : Nat} {pre s : State} {f g : Core → Core}

theorem coreGoes_congr {pc : Nat} {t : State} (h : f (coreOf s ini) = g (coreOf s ini)) (hg : coreGoes ini pc f s t) : coreGoes ini pc g s t := hg.trans (coreMod_congr (by simp only [h]))

/-- An instruction that completes without a taken branch and has changed its core, where no loop is on and no failed write is due. -/
theorem isaFinish_next_of_noneDue (hd : noneDue (f (coreOf s ini))) (hl : ini = 0 → (f (coreOf s ini)).le = false) :
    coreGoes ini (((coreOf pre ini).pc.toNat + len) % 2 ^ 32) f s (isaFinish ini len pre (.next (coreMod ini f s))) :=
  (coreMod_coreMod _ _ _ _).trans (coreMod_congr (by simp only [loopBack_off hl, isaBoundary_of_noneDue hd]))

theorem isaFinish_next (hi : (f (coreOf s ini)).imprecise = []) (hl : ini = 0 → (f (coreOf s ini)).le = false) :
    coreGoes ini (((coreOf pre ini).pc.toNat + len) % 2 ^ 32) f s (isaFinish ini len pre (.next (coreMod ini f s))) := isaFinish_next_of_noneDue (noneDue_of_nil hi) hl

/-- The same, with nothing changed but the pc. -/
theorem isaFinish_next_id (h : plainFlow ini s) : coreGoes ini (((coreOf pre ini).pc.toNat + len) % 2 ^ 32) id s (isaFinish ini len pre (.next s)) := by
  have := isaFinish_next (len := len) (pre := pre) (f := id) h.1 h.2
  rwa [coreMod_id] at this

theorem isaFinish_jump (target : Nat) (hi : (f (coreOf s ini)).imprecise = []) : coreGoes ini (target % 2 ^ 32) f s (isaFinish ini len pre (.jump target (coreMod ini f s))) :=
  (coreMod_coreMod _ _ _ _).trans (coreMod_congr (by simp only [isaBoundary_none hi]))

theorem isaFinish_again (hi : (f (coreOf s ini)).imprecise = []) : coreGoes ini (coreOf pre ini).pc.toNat f s (isaFinish ini len pre (.again (coreMod ini f s))) :=
  (coreMod_coreMod _ _ _ _).trans (coreMod_congr (by simp only [isaBoundary_none hi]))

/-- An exception whose epc is the instruction's own address. -/
theorem isaFinish_exc {e : Exc} (he : e.next = false) : coreTraps ini e.vec (ecauseOf e) (coreOf pre ini).pc.toNat e.eaddr s (isaFinish ini len pre (.exc e s)) := by
  refine coreMod_congr ?_
  simp only [he, excEnter]
  cases e.eaddr <;> rfl

/-- An exception whose epc is the address that follows, where no loop is on. -/
theorem isaFinish_exc_next {e : Exc} (he : e.next = true) (hl : ini = 0 → (coreOf s ini).le = false) :
    coreTraps ini e.vec (ecauseOf e) (((coreOf pre ini).pc.toNat + len) % 2 ^ 32) e.eaddr s (isaFinish ini len pre (.exc e s)) := by
  refine coreMod_congr ?_
  simp only [he, if_true, loopBack_off hl, excEnter]
  cases e.eaddr <;> rfl

end

/-! ### What a command answers whose instruction has been fetched (R376, R379, R380, R399) -/

/-- Every instruction of a core is the shared run over a work of its own. -/
theorem exec_eq_isaCmd {i : Instr} {h : IsaHead} {o : Op} {dt : Nat} (hi : insOp i = some (h, o, dt)) : ∃ body, ∀ s, exec i s = isaCmd h o body dt s := by
  cases i
  case reservedEncoding h' esc bytes dt' =>
    by_cases hr : encReserved (Enc.mk esc bytes) = true
    · simp only [insOp, if_pos hr, Option.some.injEq, Prod.mk.injEq] at hi
      obtain ⟨rfl, rfl, rfl⟩ := hi
      exact ⟨_, fun s => if_pos hr⟩
    · simp [insOp, hr] at hi
  all_goals cases hi
  all_goals exact ⟨_, fun _ => rfl⟩

section
variable {i : Instr} {h : IsaHead} {o : Op} {dt n : Nat} {s u : State} {body : Core → State → IsaRes} {P : State → Prop}

theorem isaCmd_of_fetch_ok (hr : isaRuns (s.pass dt) h.ini = true) (hf : isaFetch h (min 12 (encLen h o.enc)) (coreMod h.ini (fun c => { c with wfi := false }) (s.pass dt)) = .ok u) :
    isaCmd h o body dt s = .next (isaFinish h.ini (encLen h o.enc) u (isaBody h o body u)) := by
  simp only [isaCmd, onlyIf, hr, if_true, isaRun, hf]

theorem completes_of_fetched (hf : fetched i h o s u) (hP : ∀ body, P (isaFinish h.ini (encLen h o.enc) u (isaBody h o body u))) : completes i s P := by
  obtain ⟨dt, hi, hr, hfetch⟩ := hf
  obtain ⟨body, hx⟩ := exec_eq_isaCmd hi
  exact ⟨_, (hx s).trans (isaCmd_of_fetch_ok hr hfetch), hP body⟩

/-- What an instruction that executes says of its own checks. -/
theorem executes_checks (hi : insOp i = some (h, o, dt)) (he : executes i h n s u) :
    n = encLen h o.enc ∧ isaUndefined h o = false ∧ (o.sys = true → (coreOf u h.ini).priv = true) ∧ o.reserved = false := by
  obtain ⟨o', ⟨dt', hi', -, -⟩, hn, hundef, hpriv, hres, -⟩ := he
  obtain ⟨-, rfl, -⟩ : h = h ∧ o = o' ∧ dt = dt' := by simpa [hi] using hi'
  exact ⟨hn, hundef, hpriv, hres⟩

theorem executes_isCore (he : executes i h n s u) : isCore h.ini = true := by
  obtain ⟨o, ⟨dt, -, hr, -⟩, -⟩ := he
  simp only [isaRuns, Bool.and_eq_true] at hr
  exact hr.1.1.1.1.1

theorem executes_head {h' : IsaHead} (hi : insOp i = some (h', o, dt)) (he : executes i h n s u) : h' = h := by
  obtain ⟨o', ⟨dt', hi', -, -⟩, -⟩ := he
  simp only [hi, Option.some.injEq, Prod.mk.injEq] at hi'
  exact hi'.1

/-- An instruction that executes does its own work on the state that its fetch has left. -/
theorem completes_of_executes (hi : insOp i = some (h, o, dt)) (hx : exec i s = isaCmd h o body dt s) (he : executes i h n s u) (hP : P (isaFinish h.ini n u (body (coreOf u h.ini) u))) :
    completes i s P := by
  obtain ⟨o', ⟨dt', hi', hr, hf⟩, rfl, hundef, hpriv, hres, hcond⟩ := he
  obtain ⟨-, rfl, rfl⟩ : h = h ∧ o = o' ∧ dt = dt' := by simpa [hi] using hi'
  refine ⟨_, hx.trans (isaCmd_of_fetch_ok hr hf), ?_⟩
  have hnot : ¬ (o.sys = true ∧ (coreOf u h.ini).priv = false) := fun ⟨hsys, hp⟩ => by simp [hpriv hsys] at hp
  simpa only [isaBody, hundef, hres, hcond, if_neg hnot, Bool.false_eq_true, if_false, if_true] using hP

/-- An instruction that changes registers of its core and no more. -/
theorem completes_isaReg {f g : Core → Core} (hi : insOp i = some (h, o, dt)) (hx : exec i s = isaCmd h o body dt s) (he : executes i h n s u) (hb : body (coreOf u h.ini) u = isaReg h f u)
    (hfg : f (coreOf u h.ini) = g (coreOf u h.ini)) (himp : (g (coreOf u h.ini)).imprecise = []) (hle : h.ini = 0 → (g (coreOf u h.ini)).le = false) : completes i s (coreNext h.ini n g u) := by
  refine completes_of_executes hi hx he ?_
  rw [hb]
  exact coreGoes_congr hfg (isaFinish_next (by rwa [hfg]) (by rwa [hfg]))

end

end Sys2Proof.Machine
end

section
/-!
SUPPORT. What the bus and the fetch leave of a core: an access leaves every core alone, and a fetch the pc of its own (R370, R437, R438).
-/
namespace Sys2Proof.Machine

/-! ### Accesses -/

theorem busRead_cores (w : BusReq) (fetch : Bool) (s : State) : (busRead w fetch s).2.cores = s.cores :=
  busRead_parts w fetch s s (partsOnly_refl [.age, .par, .rtc, .spx, .mboxes, .firn, .regs, .health, .freeCtr, .heldNotices, .drc, .pwr, .flight] s) rfl .cores (by decide)

theorem busWrite_cores (w : BusReq) (s : State) : (busWrite w s).2.cores = s.cores :=
  busWrite_parts w s s (partsOnly_refl [.par, .evt, .rtc, .com, .cph, .spx, .lmp, .flc, .firn, .runner, .regs, .tmrs, .freeCtr, .drc, .lnk, .evAt, .pwr, .mem, .flight, .sig, .mir, .lum] s) rfl .cores (by decide)

theorem busError_cores (ini : Nat) (write : Bool) (a kind : Nat) (denied : Bool) (s : State) : (busError ini write a kind denied s).cores = s.cores :=
  busError_parts ini write a kind denied s s (partsOnly_refl [.regs] s) rfl .cores (by decide)

theorem parDetect_cores (a ini : Nat) (patrol : Bool) (s : State) : (parDetect a ini patrol s).cores = s.cores :=
  parDetect_parts a ini patrol s s (partsOnly_refl [.age, .par, .mboxes, .regs, .health, .heldNotices, .flight] s) rfl .cores (by decide)

theorem ev156_cores (s : State) : (ev156 s).cores = s.cores := ev156_parts s s (partsOnly_refl [.par, .flight] s) rfl .cores (by decide)

/-! ### The fetch -/

/-- What holds of the state in which a fetch ends, well or with a bus error. -/
def FetchRes.Ends (P : State → Prop) : FetchRes → Prop
  | .ok s => P s
  | .bad _ s => P s
  | .wait _ => True
  | .stop _ => True

theorem fetchBus_cores (w : BusReq) (s : State) : (fetchRaw.fetchBus w s).Ends (fun t => t.cores = s.cores) := by
  have h := busRead_cores w true s
  unfold fetchRaw.fetchBus
  revert h
  generalize busRead w true s = e
  obtain ⟨r, t⟩ := e
  intro h
  cases r
  · exact h
  · exact h
  · trivial

theorem fetchRaw_cores (ini : Nat) (user par : Bool) (a n : Nat) (s : State) : (fetchRaw ini user par a n s).Ends (fun t => t.cores = s.cores) := by
  unfold fetchRaw
  dsimp only
  split
  · split
    · exact busError_cores _ _ _ _ _ _
    · trivial
  · split
    · split
      · trivial
      · split
        · unfold fetchBad
          dsimp only
          split
          · trivial
          · exact (busError_cores _ _ _ _ _ _).trans (parDetect_cores _ _ _ _)
        · exact fetchBus_cores _ _
    · exact fetchBus_cores _ _

/-- The pc of a core is what it was. -/
def samePc (ini : Nat) (s t : State) : Prop := (coreOf t ini).pc = (coreOf s ini).pc

theorem samePc.trans {ini : Nat} {s t u : State} (h : samePc ini s t) (h' : samePc ini t u) : samePc ini s u := Eq.trans h' h

theorem samePc_of_cores {ini : Nat} {s t : State} (h : t.cores = s.cores) : samePc ini s t := congrArg Core.pc (coreOf_of_cores h)

theorem samePc_coreMod {ini : Nat} {f : Core → Core} (s : State) (hf : ∀ c, (f c).pc = c.pc) : samePc ini s (coreMod ini f s) := by
  simp only [samePc, coreOf, coreMod, List.getD, getElem?_modAt, if_true]
  cases s.cores[coreIx ini]? with
  | none => rfl
  | some c => exact hf c

theorem FetchRes.Ends.mono {P Q : State → Prop} {r : FetchRes} (h : r.Ends P) (hPQ : ∀ t, P t → Q t) : r.Ends Q := by
  cases r
  case ok t => exact hPQ t h
  case bad k t => exact hPQ t h
  all_goals trivial

/-- A line of 32 bytes enters the instruction cache once it has been fetched. -/
def fetchFill (h : IsaHead) (user : Bool) (line : Nat) (s : State) : FetchRes :=
  match fetchRaw h.ini user (h.bad == 1) (line * 32) 32 s with
  | .ok t => FetchRes.ok (coreMod h.ini (fun c => { c with icache := (if c.icache.length < 1024 then c.icache else c.icache.drop 1) ++ [line] }) t)
  | r => r

theorem fetchFill_pc (h : IsaHead) (user : Bool) (line : Nat) (s : State) : (fetchFill h user line s).Ends (samePc h.ini s) := by
  have hraw := fetchRaw_cores h.ini user (h.bad == 1) (line * 32) 32 s
  unfold fetchFill
  revert hraw
  cases fetchRaw h.ini user (h.bad == 1) (line * 32) 32 s with
  | ok t => exact fun ht => (samePc_of_cores ht).trans (samePc_coreMod t fun _ => rfl)
  | bad k t => exact fun ht => samePc_of_cores ht
  | wait t => exact id
  | stop t => exact id

/-- A hit whose parity fails: the line is dropped and the failure recorded. -/
def fetchDrop (h : IsaHead) (line : Nat) (s : State) : State :=
  coreMod h.ini (fun c => { c with icache := c.icache.erase line }) (ev156 ((parRecord 3 (line * 32) h.ini false false s).inc Reg.SYS_PARCNT_TCM))

theorem fetchDrop_pc (h : IsaHead) (line : Nat) (s : State) : samePc h.ini s (fetchDrop h line s) := by
  have hcores : (ev156 ((parRecord 3 (line * 32) h.ini false false s).inc Reg.SYS_PARCNT_TCM)).cores = s.cores := ev156_cores _
  exact (samePc_of_cores hcores).trans (samePc_coreMod _ fun _ => rfl)

theorem fetchLine_eq (h : IsaHead) (user : Bool) (line : Nat) (s : State) :
    fetchLine h user line s = if (coreOf s h.ini).icache.contains line then (if h.bad = 2 then fetchFill h user line (fetchDrop h line s) else .ok s) else fetchFill h user line s := rfl

theorem fetchLine_pc (h : IsaHead) (user : Bool) (line : Nat) (s : State) : (fetchLine h user line s).Ends (samePc h.ini s) := by
  rw [fetchLine_eq]
  split
  · split
    · exact (fetchFill_pc h user line _).mono fun t ht => (fetchDrop_pc h line s).trans ht
    · exact samePc_of_cores rfl
  · exact fetchFill_pc h user line s

theorem fetchLines_pc (h : IsaHead) (user : Bool) (l : List Nat) (s : State) : (fetchLines h user l s).Ends (samePc h.ini s) := by
  induction l generalizing s with
  | nil => exact samePc_of_cores rfl
  | cons line l ih =>
    have hline := fetchLine_pc h user line s
    rw [fetchLines]
    revert hline
    cases fetchLine h user line s with
    | ok t => exact fun ht => (ih t).mono fun _ hu => ht.trans hu
    | bad k t => exact id
    | wait t => exact id
    | stop t => exact id

theorem isaFetch_pc (h : IsaHead) (n : Nat) (s : State) : (isaFetch h n s).Ends (samePc h.ini s) := by
  unfold isaFetch
  dsimp only
  split
  · exact samePc_of_cores (busError_cores _ _ _ _ _ _)
  · split
    · exact samePc_of_cores (busError_cores _ _ _ _ _ _)
    · split
      · exact fetchLines_pc _ _ _ _
      · have hraw := fetchRaw_cores h.ini (!(coreOf s h.ini).priv) (h.bad == 1) (coreOf s h.ini).pc.toNat n s
        revert hraw
        cases fetchRaw h.ini (!(coreOf s h.ini).priv) (h.bad == 1) (coreOf s h.ini).pc.toNat n s with
        | ok t =>
          intro ht
          dsimp only
          split
          · exact samePc_of_cores ht
          · exact samePc_of_cores ((busError_cores _ _ _ _ _ _).trans ht)
        | bad k t => exact fun ht => samePc_of_cores ht
        | wait t => exact id
        | stop t => exact id

end Sys2Proof.Machine
end

section
/-!
SUPPORT. Flow and exceptions of the compact form: branches, traps, loop-back, interrupts and failed posted writes
(R370, R376, R379, R380, R383, R388, R395, R398 to R403, R563).
-/
namespace Sys2Proof.Machine

/-! ### Branches and returns (R383, R388) -/

/-- A displacement of `w` bits from an address, as the bits of the sum. -/
theorem addr32_add_toSigned (l w x : Nat) : addr32 ((l : Int) + toSigned w x) = (BitVec.ofNat 32 l + BitVec.signExtend 32 (BitVec.ofNat w x)).toNat := by
  rw [addr32, ofSigned_eq_toNat, toSigned_eq_toInt, BitVec.ofInt_add, BitVec.ofInt_natCast]
  rfl

theorem addr32_lt (x : Int) : addr32 x < 2 ^ 32 := by
  rw [addr32, ofSigned_eq_toNat]
  exact BitVec.isLt _

theorem addr32_add_disp32 (l x : Nat) : addr32 ((l : Int) + toSigned 32 x) = (l + x) % 2 ^ 32 := by
  rw [addr32_add_toSigned, BitVec.signExtend_eq, ← BitVec.ofNat_add, BitVec.toNat_ofNat]

section
variable {i : Instr} {h : IsaHead} {o : Op} {dt n : Nat} {s u : State} {body : Core → State → IsaRes}

/-- A taken branch with its change of the core. -/
theorem completes_jump {f : Core → Core} {target dst : Nat} (hi : insOp i = some (h, o, dt)) (hx : exec i s = isaCmd h o body dt s) (he : executes i h n s u)
    (hb : body (coreOf u h.ini) u = .jump target (coreMod h.ini f u)) (hdst : target % 2 ^ 32 = dst) (himp : (f (coreOf u h.ini)).imprecise = []) : completes i s (coreGoes h.ini dst f u) := by
  refine completes_of_executes hi hx he ?_
  rw [hb, ← hdst]
  exact isaFinish_jump target himp

theorem linked_eq (ini : Nat) (link : Bool) (f : Core → Core) (u : State) : (if link then coreMod ini f u else u) = coreMod ini (if link then f else id) u := by
  cases link
  · exact (coreMod_id ini u).symm
  · rfl

theorem linked_imprecise (link : Bool) (v : Nat) (c : Core) : ((if link then gWr 14 v else id) c).imprecise = c.imprecise := by cases link <;> rfl

/-- A branch by a displacement. -/
theorem brCmd_goes {major k disp dst : Nat} {link : Bool} (hi : insOp i = some (h, insOf (encLead h major (leBytes k disp)), dt)) (hx : exec i s = brCmd h major k disp link dt s)
    (he : executes i h n s u) (himp : (coreOf u h.ini).imprecise = []) (hdst : addr32 (((((coreOf u h.ini).pc.toNat + n) % 2 ^ 32 : Nat) : Int) + toSigned (8 * k) disp) = dst) :
    completes i s (coreGoes h.ini dst (if link then gWr 14 (((coreOf u h.ini).pc.toNat + n) % 2 ^ 32) else id) u) := by
  obtain ⟨rfl, -⟩ := executes_checks hi he
  refine completes_jump hi hx he (congrArg _ (linked_eq h.ini link _ u)) ?_ ((linked_imprecise link _ _).trans himp)
  exact (Nat.mod_eq_of_lt (addr32_lt _)).trans hdst

theorem jr_goes {rs dt : Nat} {link : Bool} (he : executes (.jr h rs link dt) h n s u) (himp : (coreOf u h.ini).imprecise = []) :
    completes (.jr h rs link dt) s (coreGoes h.ini (gRd (coreOf u h.ini) rs) (if link then gWr 14 (((coreOf u h.ini).pc.toNat + n) % 2 ^ 32) else id) u) := by
  obtain ⟨rfl, -⟩ := executes_checks rfl he
  exact completes_jump rfl rfl he (congrArg _ (linked_eq h.ini link _ u)) (Nat.mod_eq_of_lt (gRd_lt _ _)) ((linked_imprecise link _ _).trans himp)

theorem branches_go (i : Instr) (h : IsaHead) (n dst link : Nat) (c : Core) (s u : State) (he : executes i h n s u) (hc : c = coreOf u h.ini) (himp : c.imprecise = [])
    (hlink : link = (c.pc.toNat + n) % 2 ^ 32)
    (hdst : match i with
     | .br8 _ disp _ => dst = (BitVec.ofNat 32 link + BitVec.signExtend 32 (BitVec.ofNat 8 disp)).toNat
     | .br32 _ disp _ => dst = (link + disp) % 2 ^ 32
     | .bl32 _ disp _ => dst = (link + disp) % 2 ^ 32
     | .jr _ rs _ _ => dst = gRd c rs
     | _ => False) :
    completes i s (fun t => coreGoes h.ini dst (if (match i with | .bl32 _ _ _ => true | .jr _ _ l _ => l | _ => false) then gWr 14 link else id) u t) := by
  subst hc hlink
  cases i
  case br8 h' disp dt =>
    obtain rfl := executes_head rfl he
    exact brCmd_goes (link := false) rfl rfl he himp (hdst ▸ addr32_add_toSigned _ 8 disp)
  case br32 h' disp dt =>
    obtain rfl := executes_head rfl he
    exact brCmd_goes (link := false) rfl rfl he himp (hdst ▸ addr32_add_disp32 _ disp)
  case bl32 h' disp dt =>
    obtain rfl := executes_head rfl he
    exact brCmd_goes (link := true) rfl rfl he himp (hdst ▸ addr32_add_disp32 _ disp)
  case jr h' rs link dt =>
    obtain rfl := executes_head rfl he
    obtain rfl : dst = gRd _ rs := hdst
    exact jr_goes he himp
  all_goals exact hdst.elim

theorem eret_returns (h : IsaHead) (dt n : Nat) (c : Core) (s u : State) (he : executes (.eret h dt) h n s u) (hc : c = coreOf u h.ini) (himp : c.imprecise = []) :
    completes (.eret h dt) s (fun t => coreGoes h.ini c.epc.toNat (fun d => { d with le := d.est.getLsbD 2, ie := d.est.getLsbD 1, priv := d.est.getLsbD 0 || decide (7 ≤ h.ini) }) u t) := by
  subst hc
  refine completes_of_executes rfl rfl he ?_
  refine (isaFinish_jump (f := excReturn h.ini) _ himp).trans ?_
  rw [Nat.mod_eq_of_lt (BitVec.isLt _)]
  refine coreMod_congr ?_
  simp only [excReturn, stPut, bitOf_beq_one, BitVec.getLsbD]

/-! ### Causes (R374, R379, R380, R398, R400, R402) -/

theorem ecauseOf_excOf {v : Nat} (hv : v < 256) : ecauseOf (excOf v) = v := by simp [ecauseOf, excOf, b2n, Nat.mod_eq_of_lt hv]

theorem ecauseOf_imm (v imm : Nat) (next : Bool) (hv : v < 256) : ecauseOf { excOf v with imm := imm % 256, next := next } = v + 256 * (imm % 256) := by
  simp only [ecauseOf, excOf, show b2n false = 0 from rfl]
  omega

theorem ecauseOf_excBus {v kind a : Nat} (write : Bool) (hv : v < 256) : ecauseOf (excBus v kind write a) = v + kind % 16 * 65536 + 2 ^ 21 * b2n write := by
  simp only [ecauseOf, excBus, excOf, show b2n false = 0 from rfl]
  omega

theorem ecauseOf_imprecise (kind a : Nat) : ecauseOf { excBus 5 kind true a with imprecise := true } = 5 + kind % 16 * 65536 + 0x300000 := by
  simp only [ecauseOf, excBus, excOf, show b2n true = 1 from rfl]
  omega

theorem svc_traps (h : IsaHead) (imm dt n : Nat) (s u : State) (he : executes (.svc h imm dt) h n s u) (hle : h.ini = 0 → (coreOf u h.ini).le = false) :
    completes (.svc h imm dt) s (fun t => coreTraps h.ini 7 (7 + 256 * (imm % 256)) (((coreOf u h.ini).pc.toNat + n) % 2 ^ 32) none u t) := by
  refine completes_of_executes rfl rfl he ?_
  rw [← ecauseOf_imm 7 imm true (by decide)]
  exact isaFinish_exc_next rfl hle

theorem brk_traps (h : IsaHead) (imm dt n : Nat) (s u : State) (he : executes (.brk h imm dt) h n s u) :
    completes (.brk h imm dt) s (fun t => if brkHalts u h.ini then t = coreMod h.ini (fun c => { c with halted := true, oneStep := false, boundary := true }) u
      else coreTraps h.ini 8 (8 + 256 * (imm % 256)) (coreOf u h.ini).pc.toNat none u t) := by
  refine completes_of_executes rfl rfl he ?_
  by_cases hb : brkHalts u h.ini = true
  · simp only [hb, if_true, isaFinish]
  · simp only [hb]
    rw [← ecauseOf_imm 8 imm false (by decide)]
    exact isaFinish_exc rfl

variable (i h o s u)

theorem undefined_traps (hf : fetched i h o s u) (hu : isaUndefined h o = true) : completes i s (fun t => coreTraps h.ini 1 1 (coreOf u h.ini).pc.toNat none u t) := by
  refine completes_of_fetched hf fun body => ?_
  rw [isaBody, if_pos hu]
  exact isaFinish_exc (e := excOf 1) rfl

theorem udf_undefined (dt : Nat) (hf : fetched (.udf h dt) h o s u) : isaUndefined h o = true := by
  obtain ⟨dt', hi, -⟩ := hf
  cases hi
  simp [isaUndefined]

theorem privilege_traps (hf : fetched i h o s u) (hu : isaUndefined h o = false) (hs : o.sys = true) (hp : (coreOf u h.ini).priv = false) :
    completes i s (fun t => coreTraps h.ini 3 3 (coreOf u h.ini).pc.toNat none u t) := by
  refine completes_of_fetched hf fun body => ?_
  simp only [isaBody, hu, Bool.false_eq_true, if_false, if_pos (And.intro hs hp)]
  exact isaFinish_exc (e := excOf 3) rfl

/-- Past the Undefined and the Privilege check. -/
theorem isaBody_of_allowed {o : Op} {body : Core → State → IsaRes} (hu : isaUndefined h o = false) (hp : o.sys = true → (coreOf u h.ini).priv = true) :
    isaBody h o body u = if o.reserved then .exc (excOf 2) (coreMod h.ini (emuCapture h o.enc) u) else if condHolds (hasPfx h 0) h.cond (coreOf u h.ini) then body (coreOf u h.ini) u else .next u := by
  have hnot : ¬ (o.sys = true ∧ (coreOf u h.ini).priv = false) := fun ⟨hsys, hpriv⟩ => by simp [hp hsys] at hpriv
  simp only [isaBody, hu, if_neg hnot, Bool.false_eq_true, if_false]

theorem reserved_emulates (hf : fetched i h o s u) (hu : isaUndefined h o = false) (hp : o.sys = true → (coreOf u h.ini).priv = true) (hr : o.reserved = true) :
    completes i s (fun t => ∃ x, x = coreMod h.ini (fun d => { d with emb0 := BitVec.ofNat 32 (ofLeBytes (o.enc.bytes.take 4)), emb1 := BitVec.ofNat 32 (ofLeBytes ((o.enc.bytes.take 8).drop 4)), emi := BitVec.ofNat 32 (4096 * (encLen h o.enc % 16) + 256 * min 8 o.enc.bytes.length + 64 * (o.enc.esc % 4) + pfxMask h) }) u ∧ coreTraps h.ini 2 2 (coreOf u h.ini).pc.toNat none x t) := by
  refine completes_of_fetched hf fun body => ⟨coreMod h.ini (emuCapture h o.enc) u, coreMod_congr ?_, ?_⟩
  · simp only [emuCapture, List.take_take, List.length_take]
    rfl
  · rw [isaBody_of_allowed h u hu hp, if_pos hr]
    exact isaFinish_exc (e := excOf 2) rfl

theorem condition_false (hf : fetched i h o s u) (hu : isaUndefined h o = false) (hp : o.sys = true → (coreOf u h.ini).priv = true) (hr : o.reserved = false)
    (hcond : condHolds (hasPfx h 0) h.cond (coreOf u h.ini) = false) (hplain : plainFlow h.ini u) : completes i s (fun t => coreNext h.ini (encLen h o.enc) id u t) := by
  refine completes_of_fetched hf fun body => ?_
  simp only [isaBody_of_allowed h u hu hp, hr, hcond, Bool.false_eq_true, if_false]
  exact isaFinish_next_id hplain

theorem reservedEncoding_checks (esc : Nat) (bytes : List Nat) (dt : Nat) (hf : fetched (.reservedEncoding h esc bytes dt) h o s u) : o.reserved = true ∧ o.sys = (esc == 3) := by
  obtain ⟨dt', hi, -⟩ := hf
  rw [insOp] at hi
  split at hi
  · cases hi
    exact ⟨rfl, rfl⟩
  · cases hi

theorem fetch_bad_traps (dt k : Nat) (x : State) (hi : insOp i = some (h, o, dt)) (hr : isaRuns (s.pass dt) h.ini = true)
    (hf : isaFetch h (min 12 (encLen h o.enc)) (coreMod h.ini (fun c => { c with wfi := false }) (s.pass dt)) = .bad k x) :
    completes i s (fun t => coreTraps h.ini 4 (4 + k % 16 * 65536) (coreOf x h.ini).pc.toNat (some (coreOf x h.ini).pc.toNat) x t) := by
  obtain ⟨body, hx⟩ := exec_eq_isaCmd hi
  have hpc := isaFetch_pc h (min 12 (encLen h o.enc)) (coreMod h.ini (fun c => { c with wfi := false }) (s.pass dt))
  rw [hf] at hpc
  refine ⟨_, hx s, ?_⟩
  simp only [onlyIf, hr, if_true, isaRun, hf]
  rw [show (coreOf (coreMod h.ini (fun c => { c with wfi := false }) (s.pass dt)) h.ini).pc = (coreOf x h.ini).pc from hpc.symm]
  rw [show 4 + k % 16 * 65536 = ecauseOf (excBus 4 k false (coreOf x h.ini).pc.toNat) from (ecauseOf_excBus false (by decide)).symm]
  exact isaFinish_exc rfl

end

/-! ### Loop-back (R395) -/

/-- Levels whose exit is elsewhere, or that count nothing, do not loop. -/
theorem loopLevels_none {npc : Nat} {c : Core} {l : List Nat} (h : ∀ n ∈ l, (c.lc.get (Fin.ofNat 3 n)).toNat = 0 ∨ (c.lend.get (Fin.ofNat 3 n)).toNat ≠ npc) : loopLevels l npc c = (c, npc) := by
  induction l with
  | nil => rfl
  | cons n l ih =>
    rw [loopLevels, if_pos (h n List.mem_cons_self)]
    exact ih fun m hm => h m (List.mem_cons_of_mem _ hm)

/-- The core after a pass of the loop of level `j`. -/
def loopCounted (j : Fin 3) (c : Core) : Core := { c with lc := c.lc.set j (c.lc.get j - 1#32) j.isLt }

theorem loopCounted_lc_other {j k : Fin 3} (hk : k ≠ j) (c : Core) : (loopCounted j c).lc.get k = c.lc.get k := by
  simp only [loopCounted, Vector.get_eq_getElem]
  exact Vector.getElem_set_ne _ _ fun h => hk (Fin.ext h.symm)

section
variable {npc : Nat} {c : Core} {j : Fin 3}

/-- The level whose exit is next counts down, and the loop is over with its last pass; the levels below have their exits elsewhere. -/
theorem loopLevels_hit {n : Nat} {l : List Nat} (hn : Fin.ofNat 3 n = j) (hl : ∀ m ∈ l, Fin.ofNat 3 m ≠ j) (hlc : c.lc.get j ≠ 0#32) (hend : (c.lend.get j).toNat = npc)
    (hother : ∀ k, k ≠ j → c.lc.get k = 0#32 ∨ (c.lend.get k).toNat ≠ npc) :
    loopLevels (n :: l) npc c = (loopCounted j c, if c.lc.get j = 1#32 then npc else (c.ls.get j).toNat) := by
  have hpos : (c.lc.get j).toNat ≠ 0 := fun h => hlc (BitVec.eq_of_toNat_eq h)
  have hone : (c.lc.get j).toNat = 1 ↔ c.lc.get j = 1#32 := ⟨fun h => BitVec.eq_of_toNat_eq h, fun h => by rw [h]; rfl⟩
  have hdown : BitVec.ofNat 32 ((c.lc.get j).toNat - 1) = c.lc.get j - 1#32 := by bv_omega
  have hcore : ({ c with lc := c.lc.set (n % 3) (BitVec.ofNat 32 ((c.lc.get j).toNat - 1)) (Nat.mod_lt _ (by decide)) } : Core) = loopCounted j c := by
    subst hn
    rw [loopCounted, ← hdown]
    rfl
  have hrest : loopLevels l npc (loopCounted j c) = (loopCounted j c, npc) := loopLevels_none fun m hm => by
    rw [loopCounted_lc_other (hl m hm)]
    exact (hother _ (hl m hm)).imp_left fun h => by rw [h]; rfl
  rw [loopLevels]
  dsimp only
  rw [hn, if_neg (by simp [hpos, hend]), hcore, hrest]
  simp only [hone, apply_ite (Prod.mk (loopCounted j c))]

theorem loopLevels_one {l : List Nat} (hnd : (l.map (Fin.ofNat 3)).Nodup) (hj : j ∈ l.map (Fin.ofNat 3)) (hlc : c.lc.get j ≠ 0#32) (hend : (c.lend.get j).toNat = npc)
    (hother : ∀ k, k ≠ j → c.lc.get k = 0#32 ∨ (c.lend.get k).toNat ≠ npc) :
    loopLevels l npc c = (loopCounted j c, if c.lc.get j = 1#32 then npc else (c.ls.get j).toNat) := by
  induction l with
  | nil => cases hj
  | cons n l ih =>
    rw [List.map_cons, List.nodup_cons] at hnd
    by_cases hn : Fin.ofNat 3 n = j
    · exact loopLevels_hit hn (fun m hm h => hnd.1 (hn ▸ h ▸ List.mem_map_of_mem hm)) hlc hend hother
    · rw [loopLevels, if_pos ((hother _ hn).imp_left fun h => by rw [h]; rfl)]
      exact ih hnd.2 ((List.mem_cons.1 hj).resolve_left fun h => hn h.symm)

end

theorem nop_loops (h : IsaHead) (dt n npc : Nat) (j : Fin 3) (c : Core) (s u : State) (he : executes (.nop h dt) h n s u) (h0 : h.ini = 0) (hc : c = coreOf u 0) (himp : c.imprecise = [])
    (hle : c.le = true) (hnpc : npc = (c.pc.toNat + n) % 2 ^ 32) (hlc : c.lc.get j ≠ 0#32) (hend : (c.lend.get j).toNat = npc)
    (hother : ∀ k : Fin 3, k ≠ j → c.lc.get k = 0#32 ∨ (c.lend.get k).toNat ≠ npc) :
    completes (.nop h dt) s (fun t => coreGoes 0 (if c.lc.get j = 1#32 then npc else (c.ls.get j).toNat) (fun d => { d with lc := d.lc.set j (c.lc.get j - 1#32) j.isLt }) u t) := by
  subst hc hnpc
  have hback : loopBack 0 (((coreOf u 0).pc.toNat + n) % 2 ^ 32) (coreOf u 0) = (loopCounted j (coreOf u 0), if (coreOf u 0).lc.get j = 1#32 then ((coreOf u 0).pc.toNat + n) % 2 ^ 32 else ((coreOf u 0).ls.get j).toNat) := by
    rw [loopBack, if_pos ⟨rfl, hle⟩]
    have hmem : ∀ j : Fin 3, j ∈ [2, 1, 0].map (Fin.ofNat 3) := by decide
    exact loopLevels_one (by decide) (hmem j) hlc hend hother
  refine completes_of_executes rfl rfl he ?_
  rw [h0]
  refine coreMod_congr ?_
  simp only [hback]
  exact isaBoundary_none (c := loopCounted j (coreOf u 0)) himp

/-! ### Interrupts (R401, R563) -/

/-- Line `l` of a processor goes before line `k`. -/
def lineOutranks (s : State) (ini l k : Nat) : Prop :=
  s.rd (Reg.INTC_LINE_PRIO ini k) < s.rd (Reg.INTC_LINE_PRIO ini l) ∨ s.rd (Reg.INTC_LINE_PRIO ini k) = s.rd (Reg.INTC_LINE_PRIO ini l) ∧ l ≤ k

/-- A line is enabled and pending. -/
def lineAsks (s : State) (ini k : Nat) : Prop := s.on (Reg.INTC_LINE_EN ini k) = true ∧ s.on (Reg.INTC_LINE_PEND ini k) = true

/-- The line that is presented of the first `n`. -/
def presentedOf (s : State) (ini n : Nat) : Option Nat :=
  (List.range n).foldl (fun best l =>
    if s.on (Reg.INTC_LINE_EN ini l) && s.on (Reg.INTC_LINE_PEND ini l) then
      match best with
      | none => some l
      | some b => if s.rd (Reg.INTC_LINE_PRIO ini b) < s.rd (Reg.INTC_LINE_PRIO ini l) then some l else best
    else best) none

theorem presented_eq (s : State) (ini : Nat) : presented s ini = presentedOf s ini 128 := rfl

theorem presentedOf_succ (s : State) (ini n : Nat) : presentedOf s ini (n + 1) =
    if s.on (Reg.INTC_LINE_EN ini n) && s.on (Reg.INTC_LINE_PEND ini n) then
      match presentedOf s ini n with
      | none => some n
      | some b => if s.rd (Reg.INTC_LINE_PRIO ini b) < s.rd (Reg.INTC_LINE_PRIO ini n) then some n else presentedOf s ini n
    else presentedOf s ini n := by
  rw [presentedOf, List.range_succ, List.foldl_append]
  rfl

/-- Among the first `n` lines: none presented where none asks, and the one that is presented asks and goes before the others that ask. -/
theorem presentedOf_best (s : State) (ini n : Nat) : match presentedOf s ini n with
    | none => ∀ k, k < n → ¬ lineAsks s ini k
    | some l => l < n ∧ lineAsks s ini l ∧ ∀ k, k < n → lineAsks s ini k → lineOutranks s ini l k := by
  induction n with
  | zero => exact fun k hk => absurd hk (Nat.not_lt_zero k)
  | succ n ih =>
    have hlast : ∀ {k}, k < n + 1 → k = n ∨ k < n := fun hk => (Nat.lt_succ_iff_lt_or_eq.1 hk).symm
    rw [presentedOf_succ]
    by_cases hask : lineAsks s ini n
    · rw [if_pos (by rw [hask.1, hask.2]; rfl)]
      cases hbest : presentedOf s ini n with
      | none =>
        rw [hbest] at ih
        refine ⟨Nat.lt_succ_self n, hask, fun k hk hk' => ?_⟩
        rcases hlast hk with rfl | hk
        · exact .inr ⟨rfl, le_rfl⟩
        · exact absurd hk' (ih k hk)
      | some b =>
        rw [hbest] at ih
        obtain ⟨hb, hbask, hbest⟩ := ih
        by_cases hlt : s.rd (Reg.INTC_LINE_PRIO ini b) < s.rd (Reg.INTC_LINE_PRIO ini n)
        · simp only [if_pos hlt]
          refine ⟨Nat.lt_succ_self n, hask, fun k hk hk' => ?_⟩
          rcases hlast hk with rfl | hk
          · exact .inr ⟨rfl, le_rfl⟩
          · rcases hbest k hk hk' with h | ⟨h, -⟩
            · exact .inl (h.trans hlt)
            · exact .inl (h ▸ hlt)
        · simp only [if_neg hlt]
          refine ⟨Nat.lt_succ_of_lt hb, hbask, fun k hk hk' => ?_⟩
          rcases hlast hk with rfl | hk
          · exact (Nat.lt_or_eq_of_le (Nat.not_lt.1 hlt)).imp_right fun h => ⟨h, hb.le⟩
          · exact hbest k hk hk'
    · rw [if_neg (by simpa [lineAsks] using hask)]
      cases hbest : presentedOf s ini n with
      | none =>
        rw [hbest] at ih
        intro k hk
        rcases hlast hk with rfl | hk
        · exact hask
        · exact ih k hk
      | some b =>
        rw [hbest] at ih
        obtain ⟨hb, hbask, hbest⟩ := ih
        refine ⟨Nat.lt_succ_of_lt hb, hbask, fun k hk hk' => ?_⟩
        rcases hlast hk with rfl | hk
        · exact absurd hk' hask
        · exact hbest k hk hk'

theorem presented_best (ini l : Nat) (s : State) (h : presented s ini = some l) : l < 128 ∧ s.on (Reg.INTC_LINE_EN ini l) = true ∧ s.on (Reg.INTC_LINE_PEND ini l) = true ∧
    ∀ k, k < 128 → s.on (Reg.INTC_LINE_EN ini k) = true → s.on (Reg.INTC_LINE_PEND ini k) = true → s.rd (Reg.INTC_LINE_PRIO ini k) < s.rd (Reg.INTC_LINE_PRIO ini l) ∨
      s.rd (Reg.INTC_LINE_PRIO ini k) = s.rd (Reg.INTC_LINE_PRIO ini l) ∧ l ≤ k := by
  have hbest := presentedOf_best s ini 128
  rw [← presented_eq, h] at hbest
  obtain ⟨hl, ⟨hen, hpend⟩, hrank⟩ := hbest
  exact ⟨hl, hen, hpend, fun k hk hken hkpend => hrank k hk ⟨hken, hkpend⟩⟩

/-- Exception entry on a core that the debug port does not step. -/
theorem coreMod_excEnter {ini epc : Nat} {e : Exc} {s : State} (hstep : (coreOf s ini).oneStep = false) (hepc : epc = (coreOf s ini).pc.toNat) :
    coreTraps ini e.vec (ecauseOf e) epc e.eaddr s (coreMod ini (fun c => excEnter e c.pc.toNat c) s) := by
  subst hepc
  refine coreMod_congr ?_
  simp only [excEnter, hstep]
  cases e.eaddr <;> rfl

theorem interruptEntry_traps (ini dt l : Nat) (s : State) (h5 : ini ≠ 5) (h6 : ini ≠ 6) (hok : interruptEntryOk ini (s.pass dt) = true) (hl : presented s ini = some l)
    (hstep : (coreOf s ini).oneStep = false) : completes (.interruptEntry ini dt) s (fun t => coreTraps ini (16 + l) (16 + l) (coreOf s ini).pc.toNat none (s.pass dt) t) := by
  have hlt := (presented_best ini l s hl).1
  have hl' : presented (s.pass dt) ini = some l := hl
  refine completes_of_onlyIf rfl hok ?_
  simp only [interruptEntry, hl', if_neg (not_or.2 ⟨h5, h6⟩)]
  have hcause : ecauseOf (excOf (16 + l)) = 16 + l := ecauseOf_excOf (by omega)
  have htraps := coreMod_excEnter (e := excOf (16 + l)) (s := s.pass dt) hstep rfl
  rwa [hcause] at htraps

/-! ### Failed posted writes (R403) -/

theorem imprecise_traps (ini dt : Nat) (w : ImpErr) (rest : List ImpErr) (s : State) (h5 : ini ≠ 5) (h6 : ini ≠ 6) (hok : impreciseOk ini (s.pass dt) = true)
    (hw : (coreOf s ini).imprecise = w :: rest) (hstep : (coreOf s ini).oneStep = false) :
    completes (.impreciseBusError ini dt) s (fun t => coreTraps ini 5 (5 + w.kind % 16 * 65536 + 0x300000) (coreOf s ini).pc.toNat (some w.addr)
      (coreMod ini (fun c => { c with imprecise := rest }) (s.pass dt)) t) := by
  refine completes_of_onlyIf rfl hok ?_
  rw [imprecise, if_neg (not_or.2 ⟨h5, h6⟩), ← ecauseOf_imprecise w.kind w.addr, coreTraps, coreMod_coreMod]
  refine coreMod_congr ?_
  have hw' : (coreOf (s.pass dt) ini).imprecise = w :: rest := hw
  have hstep' : (coreOf (s.pass dt) ini).oneStep = false := hstep
  simp only [impTake, hw', excEnter, excBus, hstep']
  rfl

/-! ### Signal cores (R400, R403, R422) -/

theorem sigMod_sigMod (c : Nat) (f g : SigCore → SigCore) (s : State) : sigMod c f (sigMod c g s) = sigMod c (fun x => f (g x)) s := by rw [sigMod, sigMod, sigMod, modAt_modAt]

theorem sigMod_congr {c : Nat} {f g : SigCore → SigCore} {s : State} (h : f (sigOf s c) = g (sigOf s c)) : sigMod c f s = sigMod c g s := by rw [sigMod, sigMod, modAt_congr _ h]

/-- An exception of a signal core outside a kernel. -/
theorem sigExc_traps {c : Nat} {e : Exc} {s z : State} {f : SigCore → SigCore} (hs : s = sigMod c f z) (hf : (f (sigOf z c)).regs = (sigOf z c).regs) (hk : krnOn s c = false) :
    sigTraps c e.vec (ecauseOf e) e.eaddr s (sigExc c e (sigOf z c).regs.pc.toNat (sigStOf (sigOf z c).regs) s) := by
  subst hs
  simp only [sigExc, hk, sigTraps, sigRegs, sigMod_sigMod, Bool.false_eq_true, if_false]
  refine sigMod_congr ?_
  simp only [hf, sigEnter, BitVec.ofNat_toNat, BitVec.setWidth_eq]
  cases e.eaddr <;> rfl

theorem interruptEntry_sigTraps (ini dt l : Nat) (s : State) (h56 : ini = 5 ∨ ini = 6) (hok : interruptEntryOk ini (s.pass dt) = true) (hl : presented s ini = some l)
    (hk : krnOn s (ini - 5) = false) : completes (.interruptEntry ini dt) s (fun t => sigTraps (ini - 5) (16 + l) (16 + l) none (s.pass dt) t) := by
  have hlt := (presented_best ini l s hl).1
  have hl' : presented (s.pass dt) ini = some l := hl
  refine completes_of_onlyIf rfl hok ?_
  simp only [interruptEntry, hl', if_pos h56]
  have hcause : ecauseOf (excOf (16 + l)) = 16 + l := ecauseOf_excOf (by omega)
  have htraps := sigExc_traps (e := excOf (16 + l)) (s := s.pass dt) (z := s.pass dt) (f := id) (c := ini - 5) (by rw [sigMod, modAt_id]) rfl hk
  rwa [hcause] at htraps

theorem imprecise_sigTraps (ini dt : Nat) (w : ImpErr) (rest : List ImpErr) (s : State) (h56 : ini = 5 ∨ ini = 6) (hok : impreciseOk ini (s.pass dt) = true)
    (hw : (sigOf s (ini - 5)).imprecise = w :: rest) :
    completes (.impreciseBusError ini dt) s (fun t => sigTraps (ini - 5) 5 (5 + w.kind % 16 * 65536 + 0x300000) (some w.addr) (sigMod (ini - 5) (fun x => { x with imprecise := rest }) (s.pass dt)) t) := by
  have hk : krnOn s (ini - 5) = false := by
    simp only [impreciseOk, if_pos h56, Bool.and_eq_true, Bool.not_eq_true'] at hok
    exact hok.2
  have hw' : (sigOf (s.pass dt) (ini - 5)).imprecise = w :: rest := hw
  refine completes_of_onlyIf rfl hok ?_
  rw [imprecise, if_pos h56, ← ecauseOf_imprecise w.kind w.addr]
  simp only [sigImpTake, hw']
  exact sigExc_traps (z := s.pass dt) rfl rfl hk

end Sys2Proof.Machine

open Sys2Proof Sys2Proof.Machine

/-- Settles O45: each flow, cause and entry by its own lemma. -/
theorem flowAndExceptions : Obligations.FlowAndExceptions := by
  unfold Obligations.FlowAndExceptions
  exact ⟨branches_go, eret_returns, svc_traps, brk_traps, undefined_traps, fun h dt o s u => udf_undefined h o s u dt, privilege_traps, reserved_emulates, condition_false,
    fun h esc dt bytes o s u => reservedEncoding_checks h o s u esc bytes dt, fun i h o dt k s x => fetch_bad_traps i h o s dt k x, nop_loops, interruptEntry_traps, interruptEntry_sigTraps,
    presented_best, imprecise_traps, imprecise_sigTraps⟩
end

section
/-!
SUPPORT. The functions of single registers on bit vectors: counts, reversals and bit fields (R381, R382).
-/
namespace Sys2Proof.Machine

theorem bitOf_eq_ite (x i : Nat) : bitOf x i = if x.testBit i then 1 else 0 := by
  rw [← bitOf_beq_one]
  rcases Nat.mod_two_eq_zero_or_one (x >>> i) with h | h <;> simp [bitOf, h]

/-- Counting the bits that are 1, one after the other (POPC). -/
theorem foldl_add_bitOf (x : Nat) (l : List Nat) (n : Nat) : l.foldl (fun n i => n + bitOf x i) n = n + l.countP (fun i => x.testBit i) := by
  induction l generalizing n with
  | nil => rfl
  | cons i l ih => rw [List.foldl_cons, ih, List.countP_cons, bitOf_eq_ite]; omega

theorem popCount_eq_countP (x : Nat) : popCount x = (List.range 32).countP (fun i => x.testBit i) := (foldl_add_bitOf x _ 0).trans (Nat.zero_add _)

/-- CLZ: a further 1 behind the number gives 0 a highest bit too. -/
theorem leadZeros_eq (x : Nat) : leadZeros x = 32 - Nat.log2 (2 * x + 1) := by
  rw [leadZeros]
  split
  · next h => subst h; rfl
  · next h => rw [Nat.log2_def (2 * x + 1), if_pos (by omega), show (2 * x + 1) / 2 = x by omega]; omega

/-- The reversal after `k` bits (BREV): the low `k` bits, reversed, stand at the top of the word. -/
theorem bitReverse_low (x k : Nat) (hk : k ≤ 32) :
    ∃ r, (List.range k).foldl (fun n i => n + bitOf x i * 2 ^ (31 - i)) 0 = r * 2 ^ (32 - k) ∧ ∀ j, r.testBit j = (decide (j < k) && x.testBit (k - 1 - j)) := by
  induction k with
  | zero => exact ⟨0, by simp, by simp⟩
  | succ k ih =>
    obtain ⟨r, hr, hbits⟩ := ih (by omega)
    refine ⟨2 * r + bitOf x k, ?_, fun j => ?_⟩
    · rw [List.range_succ, List.foldl_append, hr, List.foldl_cons, List.foldl_nil, show 32 - k = (32 - (k + 1)) + 1 by omega, show 31 - k = 32 - (k + 1) by omega, pow_succ]
      ring
    · have hb : bitOf x k < 2 := Nat.mod_lt _ (by decide)
      cases j with
      | zero =>
        rw [Nat.testBit_zero, Nat.mul_add_mod, Nat.mod_eq_of_lt hb, bitOf_eq_ite]
        cases h : x.testBit k <;> simp [h]
      | succ j =>
        rw [Nat.testBit_succ, Nat.mul_add_div (by decide), Nat.div_eq_of_lt hb, Nat.add_zero, hbits, show k + 1 - 1 - (j + 1) = k - 1 - j by omega]
        simp

theorem bitReverse_toNat (a : BitVec 32) : bitReverse a.toNat = a.reverse.toNat := by
  obtain ⟨r, hr, hbits⟩ := bitReverse_low a.toNat 32 le_rfl
  rw [bitReverse, hr, Nat.sub_self, pow_zero, Nat.mul_one]
  refine Nat.eq_of_testBit_eq fun j => ?_
  rw [hbits, ← BitVec.getLsbD, BitVec.testBit_toNat, BitVec.getLsbD_reverse, BitVec.getMsbD_eq_getLsbD]

/-- Inserting a bit field (BFI). -/
theorem testBit_putBits (x lo w v b : Nat) : (putBits x lo w v).testBit b = if lo ≤ b ∧ b < lo + w then v.testBit (b - lo) else x.testBit b := by
  have hlow : x % 2 ^ lo < 2 ^ lo := Nat.mod_lt _ (Nat.two_pow_pos lo)
  have hv : v % 2 ^ w < 2 ^ w := Nat.mod_lt _ (Nat.two_pow_pos w)
  have hm : x / 2 ^ lo % 2 ^ w < 2 ^ w := Nat.mod_lt _ (Nat.two_pow_pos w)
  have hx : x = 2 ^ lo * (2 ^ w * (x / 2 ^ lo / 2 ^ w) + x / 2 ^ lo % 2 ^ w) + x % 2 ^ lo := by rw [Nat.div_add_mod, Nat.div_add_mod]
  have hput : putBits x lo w v = 2 ^ lo * (2 ^ w * (x / 2 ^ lo / 2 ^ w) + v % 2 ^ w) + x % 2 ^ lo := by
    rw [putBits, Nat.shiftRight_eq_div_pow]
    conv_lhs => enter [1, 1]; rw [hx]
    rw [Nat.mul_add, Nat.mul_add, Nat.mul_comm (x / 2 ^ lo % 2 ^ w), Nat.mul_comm (v % 2 ^ w)]
    omega
  rw [hput, Nat.testBit_two_pow_mul_add _ hlow, Nat.testBit_two_pow_mul_add _ hv]
  conv_rhs => rw [hx, Nat.testBit_two_pow_mul_add _ hlow, Nat.testBit_two_pow_mul_add _ hm]
  by_cases h1 : b < lo
  · simp [h1, Nat.not_le.2 h1]
  · by_cases h2 : b - lo < w
    · simp [h1, h2, Nat.not_lt.1 h1, show b < lo + w by omega, Nat.testBit_mod_two_pow]
    · simp [h1, h2, show ¬ b < lo + w by omega]

end Sys2Proof.Machine
end

section
/-!
SUPPORT. Instructions that work in the core's own registers (R372, R373, R377, R381 to R385, R389, R394, R404).
-/
namespace Sys2Proof.Machine

/-! ### The ALU group (R384, R385) -/

/-- A row of the ALU group: its instruction runs the function under its code. -/
def IsAluRow (row : (IsaHead → AluArg → Nat → Instr) × Nat × AluFn) : Prop :=
  ∀ (h : IsaHead) (x : AluArg) (dt : Nat), insOp (row.1 h x dt) = some (h, insOp.aluOp h row.2.1 x, dt) ∧ ∀ s, exec (row.1 h x dt) s = aluCmd row.2.1 row.2.2 h x dt s

/-- What a function's outcome makes of the core: the result, and the flags but under NF. -/
def aluPut (h : IsaHead) (rd : Nat) (o : AluOut) (d : Core) : Core :=
  match o.res with
  | some r => gWr rd r (if hasPfx h 3 then d else flagsPut o d)
  | none => if hasPfx h 3 then d else flagsPut o d

/-- The ALU writes neither the failed writes nor LE. -/
theorem aluPut_frame (h : IsaHead) (rd : Nat) (o : AluOut) (d : Core) : (aluPut h rd o d).imprecise = d.imprecise ∧ (aluPut h rd o d).le = d.le := by
  unfold aluPut
  cases o.res <;> cases hasPfx h 3 <;> exact ⟨rfl, rfl⟩

theorem aluRow_next {op : IsaHead → AluArg → Nat → Instr} {k : Nat} {f : AluFn} (hrow : IsAluRow (op, k, f)) {h : IsaHead} {x : AluArg} {dt n : Nat} {s u : State}
    (he : executes (op h x dt) h n s u) (hp : plainFlow h.ini u) :
    completes (op h x dt) s (coreNext h.ini n (aluPut h x.rd (f (8 * opBytes h) (aluA (coreOf u h.ini) x % 2 ^ (8 * opBytes h)) (aluB (coreOf u h.ini) x % 2 ^ (8 * opBytes h)) (coreOf u h.ini).c)) u) := by
  obtain ⟨hi, hx⟩ := hrow h x dt
  obtain ⟨himp, hle⟩ := aluPut_frame h x.rd (f (8 * opBytes h) (aluA (coreOf u h.ini) x % 2 ^ (8 * opBytes h)) (aluB (coreOf u h.ini) x % 2 ^ (8 * opBytes h)) (coreOf u h.ini).c) (coreOf u h.ini)
  exact completes_isaReg hi (hx s) he rfl rfl (himp.trans hp.1) fun h0 => hle.trans (hp.2 h0)

/-! ### Bit fields (R382) -/

section
variable {i : Instr} {h : IsaHead} {rd dt n : Nat} {s u : State}

/-- A change of one general register keeps the flow plain. -/
theorem completes_gWr {o : Op} {body : Core → State → IsaRes} {v w : Nat} (hi : insOp i = some (h, o, dt)) (hx : exec i s = isaCmd h o body dt s) (he : executes i h n s u) (hp : plainFlow h.ini u)
    (hb : body (coreOf u h.ini) u = isaReg h (gWr rd v) u) (hv : v = w) : completes i s (coreNext h.ini n (gWr rd w) u) :=
  completes_isaReg hi hx he hb (by rw [hv]) hp.1 hp.2

end

/-- Registers that agree in their 32 bits. -/
theorem gWr_congr {rd v w : Nat} (h : ∀ b, b < 32 → v.testBit b = w.testBit b) : gWr rd v = gWr rd w := by
  have hvw : BitVec.ofNat 32 v = BitVec.ofNat 32 w := BitVec.eq_of_getLsbD_eq fun b hb => by
    simp only [BitVec.getLsbD_ofNat, h b hb]
  funext c
  simp only [gWr, hvw]

/-! ### Control registers (R372, R373) -/

/-- A write of a control register leaves the failed writes alone. -/
theorem ctlWrite_imprecise (ini num v : Nat) (c : Core) : (ctlWrite ini num v c).imprecise = c.imprecise := by
  unfold ctlWrite
  dsimp only
  split
  · split <;> rfl
  all_goals (repeat' split) <;> rfl

/-! ### Moves, counts, fields, control registers and barriers (R372, R381 to R383, R404) -/

theorem movi16_eq (rd kind imm : Nat) (c : Core) :
    movi16 rd kind imm c = gWr rd (if kind % 4 = 0 then (BitVec.signExtend 32 (BitVec.ofNat 16 imm)).toNat else if kind % 4 = 1 then imm % 2 ^ 16 else imm % 2 ^ 16 * 2 ^ 16 + gRd c rd % 2 ^ 16) c := by
  simp only [movi16, ← ofSigned_toSigned]
  congr 1
  split
  · next h => rw [if_pos h]
  · next h => rw [if_neg (by omega), if_pos h]
  · next h0 h1 => rw [if_neg h0, if_neg h1]

theorem bitReverse_gRd (c : Core) (r : Nat) : bitReverse (gRd c r) = (BitVec.reverse (BitVec.ofNat 32 (gRd c r))).toNat := by
  rw [gRd, bitReverse_toNat, BitVec.ofNat_toNat, BitVec.setWidth_eq]

theorem bfGet_signed (c : Core) (rs pos width : Nat) :
    ofSigned 32 (toSigned (width % 256) (bfGet c rs pos width)) = (BitVec.signExtend 32 (BitVec.ofNat (width % 256) (gRd c rs / 2 ^ (pos % 256)))).toNat := by
  have hcut : BitVec.ofNat (width % 256) (bfGet c rs pos width) = BitVec.ofNat (width % 256) (gRd c rs / 2 ^ (pos % 256)) := BitVec.eq_of_toNat_eq (by simp [bfGet])
  rw [ofSigned_toSigned, hcut]

/-- A barrier with no write held and no failed write waiting completes. -/
theorem barBody_free {h : IsaHead} {f : Core → Core} {u : State} (hp : plainFlow h.ini u) (hheld : u.pwr.held.any (fun w => w.ini == h.ini) = false) :
    barBody h f (coreOf u h.ini) u = isaReg h f u := by
  rw [barBody, if_neg (by rw [hheld]; decide), hp.1]

theorem registers_next (i : Instr) (h : IsaHead) (n : Nat) (f : Core → Core) (s u : State)
    (hm : match i with
     | .movi16 _ rd kind imm _ => f = gWr rd (if kind % 4 = 0 then (BitVec.signExtend 32 (BitVec.ofNat 16 imm)).toNat else if kind % 4 = 1 then imm % 2 ^ 16
         else imm % 2 ^ 16 * 2 ^ 16 + gRd (coreOf u h.ini) rd % 2 ^ 16)
     | .movi32 _ rd imm _ => f = gWr rd (imm % 2 ^ 32)
     | .popc _ rd rs _ => f = gWr rd ((List.range 32).countP (fun b => (gRd (coreOf u h.ini) rs).testBit b))
     | .clz _ rd rs _ => f = gWr rd (32 - (Nat.log2 (2 * gRd (coreOf u h.ini) rs + 1)))
     | .brev _ rd rs _ => f = gWr rd (BitVec.reverse (BitVec.ofNat 32 (gRd (coreOf u h.ini) rs))).toNat
     | .bswap _ rd rs _ => f = gWr rd (ofLeBytes (leBytes 4 (gRd (coreOf u h.ini) rs)).reverse)
     | .bfxu _ rd rs pos width _ => f = gWr rd (gRd (coreOf u h.ini) rs / 2 ^ (pos % 256) % 2 ^ (width % 256))
     | .bfxs _ rd rs pos width _ => f = gWr rd (BitVec.signExtend 32 (BitVec.ofNat (width % 256) (gRd (coreOf u h.ini) rs / 2 ^ (pos % 256)))).toNat
     | .bfi _ rd rs pos width _ => ∃ v, f = gWr rd v ∧ ∀ b, b < 32 → v.testBit b =
         if pos % 256 ≤ b ∧ b < pos % 256 + width % 256 then (gRd (coreOf u h.ini) rs).testBit (b - pos % 256) else (gRd (coreOf u h.ini) rd).testBit b
     | .movc _ rb false num _ => f = fun d => gWr (rb / 16 % 16) (ctlRead u h.ini (num % 128)) (if num % 128 = 9 then { d with cych := BitVec.ofNat 32 (coreCyc u h.ini / 2 ^ 32) } else d)
     | .movc _ rb true num _ => f = ctlWrite h.ini (num % 128) (gRd (coreOf u h.ini) (rb % 16))
     | .nop _ _ => f = id
     | .wfi _ _ => f = fun d => { d with wfi := true }
     | .di _ _ => f = fun d => { d with ie := false }
     | .ei _ _ => f = fun d => { d with ie := true }
     | .bar _ _ => f = id ∧ u.pwr.held.any (fun w => w.ini == h.ini) = false
     | .isb _ _ => f = id ∧ u.pwr.held.any (fun w => w.ini == h.ini) = false
     | .icinv _ _ => f = (fun d => { d with icache := [] }) ∧ u.pwr.held.any (fun w => w.ini == h.ini) = false
     | _ => False)
    (he : executes i h n s u) (hp : plainFlow h.ini u) (hle : h.ini = 0 → (f (coreOf u h.ini)).le = false) :
    completes i s (coreNext h.ini n f u) := by
  cases i
  case movi16 h' rd kind imm dt =>
    obtain rfl := executes_head rfl he
    obtain rfl := hm
    exact completes_isaReg rfl rfl he rfl (movi16_eq rd kind imm _) hp.1 hle
  case movi32 h' rd imm dt =>
    obtain rfl := executes_head rfl he
    obtain rfl := hm
    exact completes_gWr rfl rfl he hp rfl rfl
  case popc h' rd rs dt =>
    obtain rfl := executes_head rfl he
    obtain rfl := hm
    exact completes_gWr rfl rfl he hp rfl (popCount_eq_countP _)
  case clz h' rd rs dt =>
    obtain rfl := executes_head rfl he
    obtain rfl := hm
    exact completes_gWr rfl rfl he hp rfl (leadZeros_eq _)
  case brev h' rd rs dt =>
    obtain rfl := executes_head rfl he
    obtain rfl := hm
    exact completes_gWr rfl rfl he hp rfl (bitReverse_gRd _ rs)
  case bswap h' rd rs dt =>
    obtain rfl := executes_head rfl he
    obtain rfl := hm
    exact completes_gWr rfl rfl he hp rfl rfl
  case bfxu h' rd rs pos width dt =>
    obtain rfl := executes_head rfl he
    obtain rfl := hm
    exact completes_gWr rfl rfl he hp rfl rfl
  case bfxs h' rd rs pos width dt =>
    obtain rfl := executes_head rfl he
    obtain rfl := hm
    exact completes_gWr rfl rfl he hp rfl (bfGet_signed _ rs pos width)
  case bfi h' rd rs pos width dt =>
    obtain rfl := executes_head rfl he
    obtain ⟨v, rfl, hv⟩ := hm
    rw [gWr_congr fun b hb => (hv b hb).trans (testBit_putBits _ _ _ _ b).symm]
    exact completes_gWr rfl rfl he hp rfl rfl
  case movc h' rb dir num dt =>
    obtain rfl := executes_head rfl he
    cases dir
    · obtain rfl := hm
      refine completes_isaReg rfl rfl he rfl ?_ ?_ hle
      · simp only [bitsOf, Nat.shiftRight_eq_div_pow]
        rfl
      · split <;> exact hp.1
    · obtain rfl := hm
      exact completes_isaReg rfl rfl he rfl rfl ((ctlWrite_imprecise _ _ _ _).trans hp.1) hle
  case nop h' dt =>
    obtain rfl := executes_head rfl he
    obtain rfl := hm
    exact completes_of_executes rfl rfl he (isaFinish_next_id hp)
  case wfi | di | ei =>
    obtain rfl := executes_head rfl he
    obtain rfl := hm
    exact completes_isaReg rfl rfl he rfl rfl hp.1 hle
  case bar | isb | icinv =>
    obtain rfl := executes_head rfl he
    obtain ⟨rfl, hheld⟩ := hm
    exact completes_isaReg rfl rfl he (barBody_free hp hheld) rfl hp.1 hle
  all_goals exact hm.elim

/-! ### Loops (R394) -/

theorem loop_sets (h : IsaHead) (lvl : Nat) (creg : Bool) (reg off count dt n ls lc : Nat) (c : Core) (s u : State) (he : executes (.loop h lvl creg reg off count dt) h n s u) (hp : plainFlow h.ini u)
    (hc : c = coreOf u h.ini) (hls : ls = (c.pc.toNat + n) % 2 ^ 32) (hlc : lc = (if creg then gRd c reg else count % 2 ^ 16)) :
    completes (.loop h lvl creg reg off count dt) s (fun t => coreGoes 0 (if lc = 0 then (ls + off % 2 ^ 16) % 2 ^ 32 else ls)
      (fun d => { d with ls := d.ls.set (lvl % 3) (BitVec.ofNat 32 ls) (Nat.mod_lt _ (by decide)), lend := d.lend.set (lvl % 3) (BitVec.ofNat 32 (ls + off % 2 ^ 16)) (Nat.mod_lt _ (by decide)), lc := d.lc.set (lvl % 3) (BitVec.ofNat 32 lc) (Nat.mod_lt _ (by decide)) }) u t) := by
  subst hc
  obtain ⟨hn, hundef, -⟩ := executes_checks rfl he
  have h0 : h.ini = 0 := by
    simp only [isaUndefined, Bool.or_eq_false_iff, bne_eq_false_iff_eq] at hundef
    exact hundef.1.2.2
  have hend : BitVec.ofNat 32 ((ls + off % 2 ^ 16) % 2 ^ 32) = BitVec.ofNat 32 (ls + off % 2 ^ 16) := BitVec.eq_of_toNat_eq (by simp)
  obtain ⟨ini, pfx, cond, bad⟩ := h
  obtain rfl : ini = 0 := h0
  refine completes_of_executes rfl rfl he ?_
  have hls' : ls = insNext ⟨0, pfx, cond, bad⟩ (encLead ⟨0, pfx, cond, bad⟩ 0x10 ([reg % 16 * 16 + 4 * b2n creg + lvl % 4] ++ leBytes 2 off ++ if creg then [] else leBytes 2 count)) (coreOf u 0) := by
    rw [hls, hn]
    rfl
  refine coreGoes_congr (f := loopSet lvl ls ((ls + off % 2 ^ 16) % 2 ^ 32) lc) (by simp only [loopSet, hend]) ?_
  dsimp only at hlc ⊢
  rw [← hls', ← hlc]
  by_cases hlc0 : lc = 0
  · rw [if_pos hlc0, if_pos hlc0]
    have hjump := isaFinish_jump (len := n) (pre := u) (s := u) (f := loopSet lvl ls ((ls + off % 2 ^ 16) % 2 ^ 32) lc) ((ls + off % 2 ^ 16) % 2 ^ 32) hp.1
    rwa [Nat.mod_mod] at hjump
  · rw [if_neg hlc0, if_neg hlc0, hls]
    exact isaFinish_next hp.1 hp.2

end Sys2Proof.Machine

open Sys2Proof Sys2Proof.Machine

/-- Settles O42: the ALU group row by row, the other instructions each by its own change. -/
theorem registerInstructions : Obligations.RegisterInstructions := by
  unfold Obligations.RegisterInstructions
  refine ⟨fun op k f hrow h x dt n w o c s u he hp hc hw ho => ?_, fun i h n f s u he hp hle hm => registers_next i h n f s u hm he hp hle, loop_sets⟩
  have hrows : IsAluRow (op, k, f) := by
    revert hrow
    generalize (op, k, f) = row
    revert row
    repeat (refine List.forall_mem_cons.2 ⟨fun _ _ _ => ⟨rfl, fun _ => rfl⟩, ?_⟩)
    exact List.forall_mem_nil _
  subst hc hw ho
  exact aluRow_next hrows he hp
end

section
/-!
SUPPORT. Loads, stores and atomic operations (R386, R387, R389, R399, R403): what an access that its target answers gives the instruction, and what a misaligned or failed
one raises.
-/
namespace Sys2Proof.Machine

/-! ### Accesses that their target answers (R386, R403) -/

section
variable {h : IsaHead} {a n v : Nat} {s t : State}

theorem isaLoad_done (ha : a % n = 0) (himp : (coreOf s h.ini).imprecise = []) (hseq : seqParity s h.ini a n = none)
    (hread : busRead (isaReq h (!(coreOf s h.ini).priv) a n 0) false s = (.done v, t)) (k : Nat → State → IsaRes) : isaLoad h a n s k = k v t := by
  simp only [isaLoad, ha, himp, isaLoad.loadGo, isaReq, ne_eq, not_true_eq_false, if_false] at hseq hread ⊢
  simp only [hseq, hread]

theorem isaLoad_err {kd : Nat} (ha : a % n = 0) (himp : (coreOf s h.ini).imprecise = []) (hseq : seqParity s h.ini a n = none)
    (hread : busRead (isaReq h (!(coreOf s h.ini).priv) a n 0) false s = (.err kd, t)) (k : Nat → State → IsaRes) : isaLoad h a n s k = .exc (excBus 5 kd false a) t := by
  simp only [isaLoad, ha, himp, isaLoad.loadGo, isaReq, ne_eq, not_true_eq_false, if_false] at hseq hread ⊢
  simp only [hseq, hread]

theorem isaLoad_of_loads (hl : loads h a n v s t) (k : Nat → State → IsaRes) : isaLoad h a n s k = k v t := by
  obtain ⟨ha, ⟨himp, -⟩, hseq, hread⟩ := hl
  exact isaLoad_done ha himp hseq hread k

theorem isaStore_of_stores (hs : stores h a n v s t) (k : State → IsaRes) : isaStore h a n v s k = k t := by
  obtain ⟨ha, r, u, hwrite, rfl, -⟩ := hs
  simp only [isaStore, ha, ne_eq, not_true_eq_false, if_false, hwrite]

theorem cores_of_loads (hl : loads h a n v s t) : t.cores = s.cores := by
  obtain ⟨-, -, -, hread⟩ := hl
  have hcores := busRead_cores (isaReq h (!(coreOf s h.ini).priv) a n 0) false s
  rwa [hread] at hcores

theorem plainFlow_of_loads (hl : loads h a n v s t) : plainFlow h.ini t := plainFlow_of_cores (cores_of_loads hl) hl.2.1

/-- A core that has no failed write waiting is not changed by one more posted write. -/
theorem coreOf_impCount (himp : (coreOf (impCount h.ini s) h.ini).imprecise = []) : coreOf (impCount h.ini s) h.ini = coreOf s h.ini := by
  by_cases hlt : coreIx h.ini < s.cores.length
  · rw [impCount, coreOf_coreMod hlt] at himp ⊢
    simp only [List.map_eq_nil_iff] at himp
    simp only [himp, List.map_nil]
    rw [← himp]
  · have hlen : (impCount h.ini s).cores.length = s.cores.length := length_modAt _ _ _
    rw [coreOf, coreOf, List.getD_eq_default _ _ (Nat.not_lt.1 hlt), List.getD_eq_default _ _ (hlen ▸ Nat.not_lt.1 hlt)]

theorem coreOf_of_stores (hs : stores h a n v s t) : coreOf t h.ini = coreOf s h.ini := by
  obtain ⟨-, r, u, hwrite, rfl, hplain⟩ := hs
  have hcores := busWrite_cores (isaReq h (!(coreOf s h.ini).priv) a n (v % 2 ^ (8 * n))) s
  rw [hwrite] at hcores
  rw [coreOf_impCount hplain.1, coreOf_of_cores hcores]

theorem plainFlow_of_stores (hs : stores h a n v s t) : plainFlow h.ini t := by
  obtain ⟨-, r, u, -, -, hplain⟩ := hs
  exact hplain

end

/-! ### Loads and stores (R386) -/

theorem memBase_frame (m : MemArg) (moved : Nat) (c : Core) : (memBase m moved c).imprecise = c.imprecise ∧ (memBase m moved c).le = c.le := by
  unfold memBase
  split <;> exact ⟨rfl, rfl⟩

theorem load_sets (h : IsaHead) (m : MemArg) (dt n v : Nat) (sg : Bool) (i : Instr) (c : Core) (s u x : State) (hi : i = (if sg then .lds h m dt else .ld h m dt)) (he : executes i h n s u)
    (hc : c = coreOf u h.ini) (hl : loads h (memAddr c (opBytes h) m) (opBytes h) v u x) :
    completes i s (fun t => coreGoes h.ini ((c.pc.toNat + n) % 2 ^ 32) (fun d => memBase m (memMoved c m) (gWr m.rd (if sg then (BitVec.signExtend 32 (BitVec.ofNat (8 * opBytes h) v)).toNat else v) d)) x t) := by
  subst hc
  obtain ⟨himp, hle⟩ := plainFlow_of_loads hl
  have hframe := memBase_frame m (memMoved (coreOf u h.ini) m) (gWr m.rd (if sg then (BitVec.signExtend 32 (BitVec.ofNat (8 * opBytes h) v)).toNat else v) (coreOf x h.ini))
  have hbody : loadBody h sg m (coreOf u h.ini) u =
      isaReg h (fun d => memBase m (memMoved (coreOf u h.ini) m) (gWr m.rd (if sg then (BitVec.signExtend 32 (BitVec.ofNat (8 * opBytes h) v)).toNat else v) d)) x := by
    rw [loadBody, isaLoad_of_loads hl, ofSigned_toSigned]
  have hfinish : ∀ len, coreGoes h.ini (((coreOf u h.ini).pc.toNat + len) % 2 ^ 32)
      (fun d => memBase m (memMoved (coreOf u h.ini) m) (gWr m.rd (if sg then (BitVec.signExtend 32 (BitVec.ofNat (8 * opBytes h) v)).toNat else v) d)) x
      (isaFinish h.ini len u (loadBody h sg m (coreOf u h.ini) u)) := fun len => by
    rw [hbody]
    exact isaFinish_next (hframe.1.trans himp) fun h0 => hframe.2.trans (hle h0)
  cases sg
  · subst hi
    exact completes_of_executes rfl rfl he (hfinish n)
  · subst hi
    exact completes_of_executes rfl rfl he (hfinish n)

theorem store_sets (h : IsaHead) (m : MemArg) (dt n : Nat) (c : Core) (s u x : State) (he : executes (.st h m dt) h n s u) (hc : c = coreOf u h.ini)
    (hs : stores h (memAddr c (opBytes h) m) (opBytes h) (gRd c m.rd) u x) :
    completes (.st h m dt) s (fun t => coreGoes h.ini ((c.pc.toNat + n) % 2 ^ 32) (memBase m (memMoved c m)) x t) := by
  subst hc
  obtain ⟨himp, hle⟩ := plainFlow_of_stores hs
  obtain ⟨himp', hle'⟩ := memBase_frame m (memMoved (coreOf u h.ini) m) (coreOf x h.ini)
  refine completes_of_executes rfl rfl he ?_
  rw [storeBody, isaStore_of_stores hs]
  exact isaFinish_next (himp'.trans himp) fun h0 => hle'.trans (hle h0)

/-- A write of on-chip RAM stores its bytes at the global address (R36 to R38). -/
theorem targetWrite_array {w : BusReq} {s : State} {g : Nat} (hg : globalAddr w.ini w.addr = some g)
    (hr : (match rgnOf s.isC g with | .sram _ => true | .itcm _ => true | .dtcm _ => true | _ => false) = true) :
    targetWrite false w s = (.done 0, mirrorOut g (leBytes w.size w.val) (arrayWrite g (leBytes w.size w.val) false s)) := by
  simp only [targetWrite, busTarget, hg, Option.getD_some]
  split at hr
  · next hreg => simp only [hreg]
  · next hreg => simp only [hreg]
  · next hreg => simp only [hreg]
  · cases hr

theorem mem_of_coreGoes {ini pc : Nat} {f : Core → Core} {u t : State} (h : coreGoes ini pc f u t) : t.mem = u.mem := by
  rw [h]
  rfl

theorem leBytes_mod (n v i : Nat) (hi : i < n) : v % 2 ^ (8 * n) / 256 ^ i % 256 = v / 256 ^ i % 256 := by
  rw [← leBytes_getD n (v % 2 ^ (8 * n)) i hi, ← leBytes_getD n v i hi]
  congr 1
  clear hi i
  induction n generalizing v with
  | zero => rfl
  | succ n ih =>
    have hpow : 2 ^ (8 * (n + 1)) = 256 * 2 ^ (8 * n) := by
      rw [Nat.mul_succ, pow_add, Nat.mul_comm]
      rfl
    rw [leBytes, leBytes, hpow, Nat.mod_mul_right_mod, Nat.mod_mul_right_div_self, ih]

theorem store_lays (h : IsaHead) (m : MemArg) (dt n a g : Nat) (c : Core) (s u x : State) (he : executes (.st h m dt) h n s u) (hc : c = coreOf u h.ini) (ha : a = memAddr c (opBytes h) m)
    (hs : stores h a (opBytes h) (gRd c m.rd) u x) (hg : globalAddr h.ini a = some g)
    (hr : (match rgnOf u.isC g with | .sram _ => true | .itcm _ => true | .dtcm _ => true | _ => false) = true) (hm : memWf u.mem = true)
    (hl : writeLands (isaReq h (!c.priv) a (opBytes h) (gRd c m.rd % 2 ^ (8 * opBytes h))) u = true) :
    completes (.st h m dt) s (fun t => (∀ i, i < opBytes h → (memRd t.mem (g + i)).toNat = gRd c m.rd / 256 ^ i % 256) ∧ (∀ b, b < g ∨ g + opBytes h ≤ b → memRd t.mem b = memRd u.mem b)) := by
  subst ha
  obtain ⟨t, ht, hgoes⟩ := store_sets h m dt n c s u x he hc hs
  subst hc
  refine ⟨t, ht, ?_⟩
  obtain ⟨-, r, y, hwrite, rfl, -⟩ := hs
  rw [busWrite, busWriteP_of_lands hl, targetWrite_array hg hr] at hwrite
  obtain ⟨-, rfl⟩ := Prod.mk.inj hwrite
  obtain ⟨hin, hout⟩ := stores_of_mem hm ((mem_of_coreGoes hgoes).trans (mirrorOut_mem _ _ _))
  exact ⟨fun i hi => (hin i hi).trans (leBytes_mod _ _ i hi), hout⟩

/-! ### PUSHM and POPM (R387) -/

theorem maskRegs_eq (mask : Nat) : maskRegs mask = (List.range 16).filter (fun r => mask.testBit r) := by simp only [maskRegs, bitOf_beq_one]

/-- The words upward from an address. -/
def wordAddrs (a : Nat) : Nat → List Nat
  | 0 => []
  | n + 1 => a :: wordAddrs ((a + 4) % 2 ^ 32) n

theorem wordAddrs_eq (n a : Nat) (ha : a < 2 ^ 32) : (List.range n).map (fun i => (a + 4 * i) % 2 ^ 32) = wordAddrs a n := by
  induction n generalizing a with
  | zero => rfl
  | succ n ih =>
    rw [List.range_succ_eq_map, List.map_cons, List.map_map, wordAddrs, ← ih _ (Nat.mod_lt _ (by decide)), Nat.mul_zero, Nat.add_zero, Nat.mod_eq_of_lt ha]
    congr 2
    funext i
    simp only [Function.comp, Nat.mod_add_mod]
    congr 1
    omega

section
variable {h : IsaHead} {s t : State}

theorem pushGo_of_storesFrom {vs : List Nat} {a : Nat} (hs : storesFrom h a vs s t) (k : State → IsaRes) : pushGo h k ((wordAddrs a vs.length).zip vs) s = k t := by
  induction vs generalizing a s with
  | nil => rw [show t = s from hs]; rfl
  | cons v vs ih =>
    obtain ⟨u, hstore, hrest⟩ := hs
    exact (isaStore_of_stores hstore _).trans (ih hrest)

theorem popGo_of_loadsFrom {vs : List Nat} {a : Nat} (hl : loadsFrom h a vs s t) (k : List Nat → State → IsaRes) (got : List Nat) :
    popGo h k (wordAddrs a vs.length) got s = k (got ++ vs) t := by
  induction vs generalizing a s got with
  | nil => rw [show t = s from hl, List.append_nil]; rfl
  | cons v vs ih =>
    obtain ⟨u, hload, hrest⟩ := hl
    refine (isaLoad_of_loads hload _).trans ?_
    rw [ih hrest, List.append_assoc, List.singleton_append]

theorem plainFlow_of_storesFrom {vs : List Nat} {a : Nat} (hne : vs ≠ []) (hs : storesFrom h a vs s t) : plainFlow h.ini t := by
  induction vs generalizing a s with
  | nil => exact absurd rfl hne
  | cons v vs ih =>
    obtain ⟨u, hstore, hrest⟩ := hs
    by_cases hvs : vs = []
    · subst hvs
      rw [show t = u from hrest]
      exact plainFlow_of_stores hstore
    · exact ih hvs hrest

theorem plainFlow_of_loadsFrom {vs : List Nat} {a : Nat} (hne : vs ≠ []) (hl : loadsFrom h a vs s t) : plainFlow h.ini t := by
  induction vs generalizing a s with
  | nil => exact absurd rfl hne
  | cons v vs ih =>
    obtain ⟨u, hload, hrest⟩ := hl
    by_cases hvs : vs = []
    · subst hvs
      rw [show t = u from hrest]
      exact plainFlow_of_loads hload
    · exact ih hvs hrest

end

/-- A mask that executes names a register. -/
theorem maskRegs_ne_nil {i : Instr} {h : IsaHead} {o : Op} {dt n mask : Nat} {s u : State} (hi : insOp i = some (h, o, dt)) (ho : o.undef = maskBad mask) (he : executes i h n s u) : maskRegs mask ≠ [] := by
  obtain ⟨-, hundef, -⟩ := executes_checks hi he
  have hbad : maskBad mask = false := by
    simp only [isaUndefined, Bool.or_eq_false_iff] at hundef
    rw [← ho]
    exact hundef.1.2
  have hmask : mask % 2 ^ 16 ≠ 0 := by
    simp only [maskBad, Bool.or_eq_false_iff, beq_eq_false_iff_ne] at hbad
    exact hbad.1
  obtain ⟨r, hr⟩ := Nat.exists_testBit_of_ne_zero hmask
  rw [Nat.testBit_mod_two_pow, Bool.and_eq_true, decide_eq_true_eq] at hr
  exact List.ne_nil_of_mem (maskRegs_eq mask ▸ List.mem_filter.2 ⟨List.mem_range.2 hr.1, hr.2⟩)

theorem maskRegs_length (mask : Nat) : (maskRegs mask).length ≤ 16 := (List.length_filter_le _ _).trans (List.length_range).le

theorem pushm_sets (h : IsaHead) (mask dt n sp : Nat) (rs : List Nat) (s u x : State) (he : executes (.pushm h mask dt) h n s u) (hrs : rs = (List.range 16).filter (fun r => mask.testBit r))
    (hsp : sp = (gRd (coreOf u h.ini) 13 + (2 ^ 32 - 4 * rs.length)) % 2 ^ 32) (hs : storesFrom h sp (rs.map (gRd (coreOf u h.ini))) u x) :
    completes (.pushm h mask dt) s (fun t => coreGoes h.ini (((coreOf u h.ini).pc.toNat + n) % 2 ^ 32) (gWr 13 sp) x t) := by
  rw [← maskRegs_eq] at hrs
  subst hrs
  have hne : maskRegs mask ≠ [] := maskRegs_ne_nil rfl rfl he
  have hplain := plainFlow_of_storesFrom (fun hnil => hne (List.map_eq_nil_iff.1 hnil)) hs
  have hsp' : addr32 ((gRd (coreOf u h.ini) 13 : Int) - ((4 * (maskRegs mask).length : Nat) : Int)) = sp := by
    have hlen := maskRegs_length mask
    rw [hsp, addr32, ofSigned]
    generalize (maskRegs mask).length = k at hlen
    omega
  have hlist : (List.range (maskRegs mask).length).map (fun i => ((sp + 4 * i) % 2 ^ 32, gRd (coreOf u h.ini) ((maskRegs mask).getD i 0))) =
      (wordAddrs sp ((maskRegs mask).map (gRd (coreOf u h.ini))).length).zip ((maskRegs mask).map (gRd (coreOf u h.ini))) := by
    rw [List.length_map, ← wordAddrs_eq _ _ (hsp ▸ Nat.mod_lt _ (by decide))]
    refine List.ext_getElem (by simp) fun i h1 h2 => ?_
    simp only [List.length_map, List.length_range] at h1
    simp [h1]
  refine completes_of_executes rfl rfl he ?_
  simp only [pushBody, hsp', hlist, pushGo_of_storesFrom hs]
  exact isaFinish_next hplain.1 hplain.2

theorem gWrs_frame (rs vs : List Nat) (c : Core) : (gWrs rs vs c).imprecise = c.imprecise ∧ (gWrs rs vs c).le = c.le :=
  ⟨foldl_same Core.imprecise _ _ c fun _ _ => rfl, foldl_same Core.le _ _ c fun _ _ => rfl⟩

theorem popm_sets (h : IsaHead) (mask dt n sp : Nat) (rs vs : List Nat) (s u x : State) (he : executes (.popm h mask dt) h n s u) (hrs : rs = (List.range 16).filter (fun r => mask.testBit r))
    (hsp : sp = gRd (coreOf u h.ini) 13) (hlen : vs.length = rs.length) (hl : loadsFrom h sp vs u x) :
    completes (.popm h mask dt) s (fun t => coreGoes h.ini (((coreOf u h.ini).pc.toNat + n) % 2 ^ 32)
      (fun d => gWr 13 ((sp + 4 * rs.length) % 2 ^ 32) ((rs.zip vs).foldl (fun e p => gWr p.1 p.2 e) d)) x t) := by
  rw [← maskRegs_eq] at hrs
  subst hrs hsp
  have hne : maskRegs mask ≠ [] := maskRegs_ne_nil rfl rfl he
  have hplain := plainFlow_of_loadsFrom (fun hnil => hne (List.length_eq_zero_iff.1 (by rw [← hlen, hnil]; rfl))) hl
  obtain ⟨himp, hle⟩ := gWrs_frame (maskRegs mask) vs (coreOf x h.ini)
  refine completes_of_executes rfl rfl he ?_
  simp only [popBody, wordAddrs_eq _ _ (gRd_lt _ _), ← hlen, popGo_of_loadsFrom hl, List.nil_append]
  exact isaFinish_next (himp.trans hplain.1) fun h0 => hle.trans (hplain.2 h0)

/-! ### What a misaligned or failed access raises (R399, R403) -/

theorem ecauseOf_alignLoad (a : Nat) : ecauseOf (excAlign false a) = 6 := by simp [ecauseOf, excAlign, excOf, b2n]
theorem ecauseOf_alignStore (a : Nat) : ecauseOf (excAlign true a) = 6 + 2 ^ 21 := by simp [ecauseOf, excAlign, excOf, b2n]

theorem misaligned_traps (i : Instr) (h : IsaHead) (m : MemArg) (dt n a : Nat) (c : Core) (s u : State) (hi : i = .ld h m dt ∨ i = .lds h m dt ∨ i = .st h m dt) (he : executes i h n s u)
    (hc : c = coreOf u h.ini) (ha : a = memAddr c (opBytes h) m) (hmis : a % opBytes h ≠ 0) :
    completes i s (fun t => coreTraps h.ini 6 (6 + (if i = .st h m dt then 2 ^ 21 else 0)) c.pc.toNat (some a) u t) := by
  subst hc ha
  have hload : ∀ sg, loadBody h sg m (coreOf u h.ini) u = .exc (excAlign false (memAddr (coreOf u h.ini) (opBytes h) m)) u := fun sg => if_pos hmis
  have hstore : storeBody h m (coreOf u h.ini) u = .exc (excAlign true (memAddr (coreOf u h.ini) (opBytes h) m)) u := if_pos hmis
  have hfinish : ∀ sg len, coreTraps h.ini 6 (6 + 0) (coreOf u h.ini).pc.toNat (some (memAddr (coreOf u h.ini) (opBytes h) m)) u (isaFinish h.ini len u (loadBody h sg m (coreOf u h.ini) u)) :=
    fun sg len => by
      rw [hload, Nat.add_zero, ← ecauseOf_alignLoad (memAddr (coreOf u h.ini) (opBytes h) m)]
      exact isaFinish_exc rfl
  rcases hi with rfl | rfl | rfl
  · rw [if_neg Instr.noConfusion]
    exact completes_of_executes rfl rfl he (hfinish false n)
  · rw [if_neg Instr.noConfusion]
    exact completes_of_executes rfl rfl he (hfinish true n)
  · refine completes_of_executes rfl rfl he ?_
    rw [hstore, if_pos rfl, ← ecauseOf_alignStore (memAddr (coreOf u h.ini) (opBytes h) m)]
    exact isaFinish_exc rfl

theorem failedLoad_traps (i : Instr) (h : IsaHead) (m : MemArg) (dt n a kd : Nat) (c : Core) (s u x : State) (hi : i = .ld h m dt ∨ i = .lds h m dt) (he : executes i h n s u) (hc : c = coreOf u h.ini)
    (ha : a = memAddr c (opBytes h) m) (hal : a % opBytes h = 0) (himp : c.imprecise = []) (hseq : seqParity u h.ini a (opBytes h) = none)
    (herr : busRead (isaReq h (!c.priv) a (opBytes h) 0) false u = (.err kd, x)) :
    completes i s (fun t => coreTraps h.ini 5 (5 + kd % 16 * 2 ^ 16) c.pc.toNat (some a) x t) := by
  subst hc ha
  have hload : ∀ sg, loadBody h sg m (coreOf u h.ini) u = .exc (excBus 5 kd false (memAddr (coreOf u h.ini) (opBytes h) m)) x := fun sg => by
    rw [loadBody, isaLoad_err hal himp hseq herr]
  have hcause : 5 + kd % 16 * 2 ^ 16 = ecauseOf (excBus 5 kd false (memAddr (coreOf u h.ini) (opBytes h) m)) := (ecauseOf_excBus false (by decide)).symm
  have hfinish : ∀ sg len, coreTraps h.ini 5 (5 + kd % 16 * 2 ^ 16) (coreOf u h.ini).pc.toNat (some (memAddr (coreOf u h.ini) (opBytes h) m)) x
      (isaFinish h.ini len u (loadBody h sg m (coreOf u h.ini) u)) := fun sg len => by
    rw [hload, hcause]
    exact isaFinish_exc rfl
  rcases hi with rfl | rfl
  · exact completes_of_executes rfl rfl he (hfinish false n)
  · exact completes_of_executes rfl rfl he (hfinish true n)

/-- A write that fails has stored nothing. -/
theorem mem_of_busWrite_err {w : BusReq} {k : Nat} {s t : State} (h : busWrite w s = (.err k, t)) : t.mem = s.mem := by
  have herror : ∀ a kind denied (y : State), (busError w.ini true a kind denied y).mem = y.mem := fun a kind denied y =>
    busError_parts w.ini true a kind denied y y (partsOnly_refl [.regs] y) rfl .mem (by decide)
  have hparity : (fabParity w.addr w.ini s).mem = s.mem := fabParity_parts w.addr w.ini s s (partsOnly_refl [.par, .regs, .flight] s) rfl .mem (by decide)
  have hhold : ∀ n y, (holdWrite w n y).1 ≠ .err k := fun n y => by unfold holdWrite; split <;> simp
  have htarget : (targetWrite false w s).1 ≠ .err k := by
    unfold targetWrite
    dsimp only
    (repeat' split) <;> simp
  simp only [busWrite, busWriteP, busFail] at h
  generalize (if (accessKind s w.ini w.user true false w.addr w.size).1 = 0 then valueKind s w.ini w.user w.addr w.val else (accessKind s w.ini w.user true false w.addr w.size).1) = k2 at h
  split at h
  · cases h
    exact herror _ _ _ _
  · split at h
    · cases h
      exact (herror _ _ _ _).trans hparity
    · split at h
      · split at h
        · cases h
          exact herror _ _ _ _
        · exact absurd (congrArg Prod.fst h) (hhold _ _)
      · split at h
        · exact absurd (congrArg Prod.fst h) (hhold _ _)
        · exact absurd (congrArg Prod.fst h) htarget

/-- A failed posted write of a core waits there (R403). -/
theorem postFail_core {ini : Nat} (hc : isCore ini = true) (a kind : Nat) (s : State) :
    postFail ini a kind s = coreMod ini (fun c => { c with imprecise := c.imprecise ++ [ImpErr.mk a kind 0] }) s := by
  simp only [isCore, Bool.or_eq_true, Bool.and_eq_true, decide_eq_true_eq] at hc
  rcases hc with hc | ⟨h7, h15⟩
  · simp only [postFail, coreMod, coreIx, if_pos hc]
  · simp only [postFail, coreMod, coreIx, if_neg (show ¬ ini ≤ 4 by omega), if_neg (show ¬ ini ≤ 6 by omega), if_pos h15]

theorem failedStore_waits (h : IsaHead) (m : MemArg) (dt n a kd : Nat) (c : Core) (s u x : State) (he : executes (.st h m dt) h n s u) (hc : c = coreOf u h.ini) (ha : a = memAddr c (opBytes h) m)
    (hal : a % opBytes h = 0) (hp : plainFlow h.ini u) (hcore : isCore h.ini = true) (hlen : u.cores.length = 14)
    (herr : busWrite (isaReq h (!c.priv) a (opBytes h) (gRd c m.rd % 2 ^ (8 * opBytes h))) u = (.err kd, x)) :
    completes (.st h m dt) s (fun t => (coreOf t h.ini).imprecise = [ImpErr.mk a kd 0] ∧ (coreOf t h.ini).g = (memBase m (memMoved c m) c).g ∧ (coreOf t h.ini).pc.toNat = (c.pc.toNat + n) % 2 ^ 32 ∧ memSame u t) := by
  subst hc
  have hcores : x.cores = u.cores := by
    have hkeep := busWrite_cores (isaReq h (!(coreOf u h.ini).priv) a (opBytes h) (gRd (coreOf u h.ini) m.rd % 2 ^ (8 * opBytes h))) u
    rwa [herr] at hkeep
  have hlt : coreIx h.ini < x.cores.length := coreIx_lt_of_isCore hcore (hcores ▸ hlen)
  have hbody : storeBody h m (coreOf u h.ini) u = 
      .next (coreMod h.ini (memBase m (memMoved (coreOf u h.ini) m)) (postFail h.ini a kd (impCount h.ini x))) := by
    subst ha
    simp only [storeBody, isaStore, hal, ne_eq, not_true_eq_false, if_false, herr, isaReg]
  have hwaiting : coreOf (postFail h.ini a kd (impCount h.ini x)) h.ini = { coreOf u h.ini with imprecise := [ImpErr.mk a kd 0] } := by
    rw [postFail_core hcore, impCount, coreMod_coreMod, coreOf_coreMod hlt, coreOf_of_cores hcores, hp.1]
    rfl
  obtain ⟨himp, hle⟩ := memBase_frame m (memMoved (coreOf u h.ini) m) (coreOf (postFail h.ini a kd (impCount h.ini x)) h.ini)
  refine completes_of_executes rfl rfl he ?_
  rw [hbody]
  have hgoes := isaFinish_next_of_noneDue (len := n) (pre := u) (f := memBase m (memMoved (coreOf u h.ini) m)) (s := postFail h.ini a kd (impCount h.ini x)) (ini := h.ini)
    (by rw [noneDue, himp, hwaiting]; rfl) (fun h0 => by rw [hle, hwaiting]; exact hp.2 h0)
  have hlt' : coreIx h.ini < (postFail h.ini a kd (impCount h.ini x)).cores.length := by
    rw [postFail_core hcore, impCount, coreMod_coreMod]
    exact hlt.trans_eq (length_modAt _ _ _).symm
  have hmem : (isaFinish h.ini n u (.next (coreMod h.ini (memBase m (memMoved (coreOf u h.ini) m)) (postFail h.ini a kd (impCount h.ini x))))).mem = u.mem := by
    refine (mem_of_coreGoes hgoes).trans ?_
    rw [postFail_core hcore]
    exact (mem_of_busWrite_err herr :)
  have hend := coreOf_coreMod (f := fun c => { memBase m (memMoved (coreOf u h.ini) m) c with pc := BitVec.ofNat 32 (((coreOf u h.ini).pc.toNat + n) % 2 ^ 32), boundary := true, oneStep := false }) hlt'
  rw [← show isaFinish h.ini n u _ = _ from hgoes] at hend
  refine ⟨?_, ?_, ?_, fun b => by rw [hmem]⟩
  · rw [hend]
    exact himp.trans (by rw [hwaiting])
  · rw [hend, hwaiting]
    simp only [memBase]
    split <;> rfl
  · rw [hend]
    simp

/-! ### Atomic operations (R389) -/

theorem inSram_range {s : State} {a : Nat} (h : inSram s a = true) : 0x10000000 ≤ a ∧ a < 0x10600000 := by
  rw [inSram] at h
  split at h
  · next b hb =>
    by_contra hn
    rw [rgnOf] at hb
    simp only [if_neg hn] at hb
    (repeat' split at hb) <;> cases hb
  · cases h

/-- A read of the SRAM that reaches its target, where no byte fails its parity. -/
theorem busRead_sram {w : BusReq} {s : State} (hl : readLands w s = true) (hr : inSram s w.addr = true) (hb : badIn s w.addr w.size = none) :
    busRead w false s = (.done (s.ld w.addr w.size), s) := by
  have hrange := inSram_range hr
  rw [inSram] at hr
  rw [busRead_of_lands hl, targetRead, busTarget_of_global (.inl (by omega))]
  split at hr
  · next b hsram => simp only [hsram, hb]
  · cases hr

theorem busWrite_sram {w : BusReq} {s : State} (hl : writeLands w s = true) (hr : inSram s w.addr = true) :
    busWrite w s = (.done 0, mirrorOut w.addr (leBytes w.size w.val) (arrayWrite w.addr (leBytes w.size w.val) false s)) := by
  obtain ⟨hlo, hhi⟩ := inSram_range hr
  rw [busWrite, busWriteP_of_lands hl, targetWrite_sram hlo hhi.le]

theorem accessKind_of_writeLands {w : BusReq} {s : State} (hl : writeLands w s = true) : (accessKind s w.ini w.user true false w.addr w.size).1 = 0 := by
  simp only [writeLands, Bool.and_eq_true, beq_iff_eq] at hl
  exact hl.1.1.1.1

theorem mirrorOut_cores (g : Nat) (l : List Nat) (s : State) : (mirrorOut g l s).cores = s.cores :=
  mirrorOut_parts g l s s (partsOnly_refl [.mir, .regs] s) rfl .cores (by decide)

section
variable {h : IsaHead} {rd base a v : Nat} {f : Core → Nat → Option Nat} {fl : Core → Nat → Core → Core} {c : Core} {u : State}
  (hc : c = coreOf u h.ini) (hp : plainFlow h.ini u) (ha : a = gRd c base) (hal : a % 4 = 0) (hs : inSram u a = true) (hl : readLands (isaReq h (!c.priv) a 4 0) u = true)
  (hb : badIn u a 4 = none) (hv : v = u.ld a 4)
include hc hp ha hal hs hl hb hv

/-- The read of an atomic operation. -/
theorem atom_loads (k : Nat → State → IsaRes) : isaLoad h a 4 u k = k v u := by
  have hrange := inSram_range hs
  subst hc hv
  refine isaLoad_of_loads ⟨hal, hp, ?_, busRead_sram hl hs hb⟩ k
  rw [seqParity, if_neg]
  simp only [isAlias, Bool.and_eq_true, decide_eq_true_eq]
  omega

/-- An atomic operation that stores nothing. -/
theorem atomBody_none (hf : f c v = none) : atomBody h rd base f fl c u = isaReg h (fun d => gWr rd v (fl c v d)) u := by
  have hload := atom_loads hc hp ha hal hs hl hb hv
  subst ha
  simp only [atomBody, hal, hs, hload, hf, ne_eq, not_true_eq_false, if_false, Bool.not_true, Bool.false_eq_true]

/-- An atomic operation that stores a word. -/
theorem atomBody_some {new : Nat} (hf : f c v = some new) (hw : writeLands (isaReq h (!c.priv) a 4 new) u = true) :
    atomBody h rd base f fl c u = isaReg h (fun d => gWr rd v (fl c v d)) (mirrorOut a (leBytes 4 new) (arrayWrite a (leBytes 4 new) false u)) := by
  have hload := atom_loads hc hp ha hal hs hl hb hv
  have hkind : (accessKind u h.ini (!c.priv) true false a 4).1 = 0 := accessKind_of_writeLands hw
  have hwrite : busWrite { isaReq h (!c.priv) a 4 0 with val := new } u = (.done 0, mirrorOut a (leBytes 4 new) (arrayWrite a (leBytes 4 new) false u)) := busWrite_sram hw hs
  subst ha
  simp only [atomBody, hal, hs, hload, hf, hkind, hwrite, ne_eq, not_true_eq_false, if_false, Bool.not_true, Bool.false_eq_true]

/-- What an atomic operation that stores a word leaves: its core, and the word. -/
theorem atom_stores {i : Instr} {o : Op} {dt n new : Nat} {z : Option Bool} {s : State} (hi : insOp i = some (h, o, dt)) (hx : exec i s = isaCmd h o (atomBody h rd base f fl) dt s)
    (he : executes i h n s u) (hlen : u.cores.length = 14) (hf : f c v = some new) (hw : writeLands (isaReq h (!c.priv) a 4 new) u = true) (hz : fl c v c = { c with z := z.getD c.z }) :
    completes i s (fun t => coreOf t h.ini = gWr rd v { c with z := z.getD c.z, pc := BitVec.ofNat 32 (c.pc.toNat + n), boundary := true, oneStep := false } ∧
      (memWf u.mem = true → (∀ j, j < 4 → (memRd t.mem (a + j)).toNat = new / 256 ^ j % 256) ∧ (∀ b, b < a ∨ a + 4 ≤ b → memRd t.mem b = memRd u.mem b))) := by
  have hbody := atomBody_some (rd := rd) (fl := fl) hc hp ha hal hs hl hb hv hf hw
  have hcores : (mirrorOut a (leBytes 4 new) (arrayWrite a (leBytes 4 new) false u)).cores = u.cores := mirrorOut_cores _ _ _
  have hcore : coreOf (mirrorOut a (leBytes 4 new) (arrayWrite a (leBytes 4 new) false u)) h.ini = c := (coreOf_of_cores hcores).trans hc.symm
  have hlt : coreIx h.ini < (mirrorOut a (leBytes 4 new) (arrayWrite a (leBytes 4 new) false u)).cores.length := coreIx_lt_of_isCore (executes_isCore he) (hcores ▸ hlen)
  refine completes_of_executes hi hx he ?_
  rw [← hc, hbody]
  have hput : (fun d => gWr rd v (fl c v d)) (coreOf (mirrorOut a (leBytes 4 new) (arrayWrite a (leBytes 4 new) false u)) h.ini) = gWr rd v { c with z := z.getD c.z } := by
    simp only [hcore, hz]
  have hgoes := isaFinish_next (len := n) (pre := u) (f := fun d => gWr rd v (fl c v d)) (s := mirrorOut a (leBytes 4 new) (arrayWrite a (leBytes 4 new) false u)) (ini := h.ini)
    ((congrArg Core.imprecise hput).trans (hc ▸ hp.1)) (fun h0 => (congrArg Core.le hput).trans (hc ▸ hp.2 h0))
  refine ⟨?_, fun hm => stores_of_mem hm ((mem_of_coreGoes hgoes).trans (mirrorOut_mem _ _ _))⟩
  refine (congrArg (coreOf · h.ini) hgoes).trans ((coreOf_coreMod hlt).trans ?_)
  simp only [hcore, hz, ← hc, show BitVec.ofNat 32 ((c.pc.toNat + n) % 2 ^ 32) = BitVec.ofNat 32 (c.pc.toNat + n) from BitVec.eq_of_toNat_eq (by simp)]
  rfl

end

theorem atomics_store (i : Instr) (h : IsaHead) (rd base dt n a v new : Nat) (z : Option Bool) (c : Core) (s u : State) (he : executes i h n s u) (hlen : u.cores.length = 14) (hc : c = coreOf u h.ini)
    (hp : plainFlow h.ini u) (ha : a = gRd c base) (hal : a % 4 = 0) (hs : inSram u a = true) (hl : readLands (isaReq h (!c.priv) a 4 0) u = true) (hb : badIn u a 4 = none) (hv : v = u.ld a 4)
    (hw : writeLands (isaReq h (!c.priv) a 4 new) u = true)
    (hi : i = .swp h rd base dt ∧ new = gRd c rd ∧ z = none ∨ i = .cas h rd base dt ∧ v = gRd c 0 ∧ new = gRd c rd ∧ z = some true ∨ i = .xadd h rd base dt ∧ new = (v + gRd c rd) % 2 ^ 32 ∧ z = none) :
    completes i s (fun t => coreOf t h.ini = gWr rd v { c with z := z.getD c.z, pc := BitVec.ofNat 32 (c.pc.toNat + n), boundary := true, oneStep := false } ∧
      (memWf u.mem = true → (∀ j, j < 4 → (memRd t.mem (a + j)).toNat = new / 256 ^ j % 256) ∧ (∀ b, b < a ∨ a + 4 ≤ b → memRd t.mem b = memRd u.mem b))) := by
  rcases hi with ⟨rfl, rfl, rfl⟩ | ⟨rfl, hcas, rfl, rfl⟩ | ⟨rfl, rfl, rfl⟩
  · exact atom_stores hc hp ha hal hs hl hb hv rfl rfl he hlen rfl hw rfl
  · exact atom_stores hc hp ha hal hs hl hb hv rfl rfl he hlen (if_pos hcas) hw (by rw [beq_iff_eq.2 hcas]; rfl)
  · exact atom_stores hc hp ha hal hs hl hb hv rfl rfl he hlen rfl hw rfl

theorem cas_differs (h : IsaHead) (rd base dt n a v : Nat) (c : Core) (s u : State) (he : executes (.cas h rd base dt) h n s u) (hc : c = coreOf u h.ini) (hp : plainFlow h.ini u) (ha : a = gRd c base)
    (hal : a % 4 = 0) (hs : inSram u a = true) (hl : readLands (isaReq h (!c.priv) a 4 0) u = true) (hb : badIn u a 4 = none) (hv : v = u.ld a 4) (hne : v ≠ gRd c 0) :
    completes (.cas h rd base dt) s (fun t => coreNext h.ini n (fun d => gWr rd v { d with z := false }) u t) := by
  have hbody := atomBody_none (rd := rd) (f := fun c t => if t = gRd c 0 then some (gRd c rd) else none) (fl := fun c t d => { d with z := t == gRd c 0 }) hc hp ha hal hs hl hb hv (if_neg hne)
  rw [beq_eq_false_iff_ne.2 hne] at hbody
  exact completes_isaReg rfl rfl he (hc ▸ hbody) rfl hp.1 hp.2

end Sys2Proof.Machine

open Sys2Proof Sys2Proof.Machine

/-- Settles O43: each access by its own lemma. -/
theorem loadsStoresAtomics : Obligations.LoadsStoresAtomics := by
  unfold Obligations.LoadsStoresAtomics
  exact ⟨load_sets, store_sets, store_lays, pushm_sets, popm_sets, atomics_store, cas_differs, misaligned_traps, failedLoad_traps, failedStore_waits⟩
end

section
/-!
SUPPORT. The string group: one element, and the end of an element step with and without REP (R391 to R393).
-/
namespace Sys2Proof.Machine

/-! ### An element step (R392, R393) -/

/-- A core with a count in g12 is one of the list. -/
theorem coreIx_lt_of_count {s : State} {ini : Nat} (h : gRd (coreOf s ini) 12 ≠ 0) : coreIx ini < s.cores.length :=
  coreIx_lt_of_ne fun hreset => h (by rw [hreset]; rfl)

/-- An element has made `d` of the core `c`: it writes neither the failed writes, nor LE, nor the count. -/
structure Elem (c d : Core) : Prop where
  imprecise : d.imprecise = c.imprecise
  le : d.le = c.le
  count : gRd d 12 = gRd c 12

/-- What an element step leaves: under REP the count is one less, and the instruction is over with the last count or on its early end. -/
def elemEnds (h : IsaHead) (n : Nat) (f : Core → Core) (early : Core → Bool) (c : Core) (x t : State) : Prop :=
  if hasPfx h 4 = false then coreGoes h.ini ((c.pc.toNat + n) % 2 ^ 32) f x t
  else if gRd c 12 = 1 ∨ early (f c) = true then coreGoes h.ini ((c.pc.toNat + n) % 2 ^ 32) (fun d => gWr 12 (gRd c 12 - 1) (f d)) x t
  else coreGoes h.ini c.pc.toNat (fun d => gWr 12 (gRd c 12 - 1) (f d)) x t

section
variable {h : IsaHead} {n : Nat} {f g : Core → Core} {early : Core → Bool} {u x : State}

/-- The end of an element step: `f` is what the element makes of the core, `g` the model's way to write it. -/
theorem strDone_ends (hcore : coreOf x h.ini = coreOf u h.ini) (hp : plainFlow h.ini x) (hg : g (coreOf u h.ini) = f (coreOf u h.ini)) (hf : Elem (coreOf u h.ini) (f (coreOf u h.ini)))
    (hearly : ∀ v d, early (gWr 12 v d) = early d) (hcount : hasPfx h 4 = true → gRd (coreOf u h.ini) 12 ≠ 0) :
    elemEnds h n f early (coreOf u h.ini) x (isaFinish h.ini n u (strDone h g early x)) := by
  obtain ⟨himp, hle, h12⟩ := hf
  rw [plainFlow, hcore] at hp
  have hgx : g (coreOf x h.ini) = f (coreOf x h.ini) := by rw [hcore, hg]
  unfold elemEnds strDone
  by_cases hrep : hasPfx h 4 = true
  · have hpos := hcount hrep
    have hdown : (fun c => gWr 12 (gRd (g c) 12 - 1) (g c)) (coreOf x h.ini) = gWr 12 (gRd (coreOf u h.ini) 12 - 1) (f (coreOf x h.ini)) := by
      simp only [hgx]
      rw [hcore, h12]
    have hend : coreOf (coreMod h.ini (fun c => gWr 12 (gRd (g c) 12 - 1) (g c)) x) h.ini = gWr 12 (gRd (coreOf u h.ini) 12 - 1) (f (coreOf u h.ini)) := by
      rw [coreOf_coreMod (coreIx_lt_of_count (hcore ▸ hpos))]
      exact hdown.trans (by rw [hcore])
    have hlast : gRd (gWr 12 (gRd (coreOf u h.ini) 12 - 1) (f (coreOf u h.ini))) 12 = 0 ↔ gRd (coreOf u h.ini) 12 = 1 := by
      have hlt := gRd_lt (coreOf u h.ini) 12
      rw [gRd_gWr_same, Nat.mod_eq_of_lt (by omega)]
      omega
    have hplain : ((fun c => gWr 12 (gRd (g c) 12 - 1) (g c)) (coreOf x h.ini)).imprecise = [] ∧ (h.ini = 0 → ((fun c => gWr 12 (gRd (g c) 12 - 1) (g c)) (coreOf x h.ini)).le = false) := by
      rw [hdown, hcore]
      exact ⟨himp.trans hp.1, fun h0 => hle.trans (hp.2 h0)⟩
    rw [if_neg (by simp [hrep]), if_pos hrep]
    dsimp only
    simp only [hend, hlast, hearly]
    split
    · exact coreGoes_congr hdown (isaFinish_next hplain.1 hplain.2)
    · exact coreGoes_congr hdown (isaFinish_again hplain.1)
  · rw [if_pos (by simpa using hrep), if_neg hrep]
    refine coreGoes_congr hgx (isaFinish_next ?_ ?_)
    · rw [hgx, hcore]; exact himp.trans hp.1
    · rw [hgx, hcore]; exact fun h0 => hle.trans (hp.2 h0)

end

section
variable {i : Instr} {h : IsaHead} {fn dt n : Nat} {elem : Core → State → IsaRes} {s u x : State}

/-- An instruction of the group whose element step ends. -/
theorem completes_elem {f g : Core → Core} {early : Core → Bool} (hi : insOp i = some (h, insOp.strOp h fn, dt)) (hx : exec i s = strCmd h fn elem dt s) (he : executes i h n s u)
    (hcount : hasPfx h 4 = true → gRd (coreOf u h.ini) 12 ≠ 0) (hb : elem (coreOf u h.ini) u = strDone h g early x) (hcore : coreOf x h.ini = coreOf u h.ini) (hp : plainFlow h.ini x)
    (hg : g (coreOf u h.ini) = f (coreOf u h.ini)) (hf : Elem (coreOf u h.ini) (f (coreOf u h.ini))) (hearly : ∀ v d, early (gWr 12 v d) = early d) :
    completes i s (elemEnds h n f early (coreOf u h.ini) x) := by
  refine completes_of_executes hi hx he ?_
  rw [if_neg fun hzero => hcount hzero.1 hzero.2, hb]
  exact strDone_ends hcore hp hg hf hearly hcount

/-- Under REP with the count 0 nothing is done (R393). -/
theorem completes_rep_zero (hi : insOp i = some (h, insOp.strOp h fn, dt)) (hx : exec i s = strCmd h fn elem dt s) (he : executes i h n s u) (hp : plainFlow h.ini u) (hrep : hasPfx h 4 = true)
    (hzero : gRd (coreOf u h.ini) 12 = 0) : completes i s (coreNext h.ini n id u) := by
  refine completes_of_executes hi hx he ?_
  rw [if_pos ⟨hrep, hzero⟩]
  exact isaFinish_next_id hp

end

/-! ### The address registers of an element (R392) -/

/-- Both address registers move past an element. -/
theorem gBump_both (k : Nat) (d : Core) : gBump 11 k (gBump 10 k d) = gWr 11 ((gRd d 11 + k) % 2 ^ 32) (gWr 10 ((gRd d 10 + k) % 2 ^ 32) d) := by
  rw [gBump, gBump, gRd_gWr_other _ _ (by decide)]

theorem elem_refl (c : Core) : Elem c c := ⟨rfl, rfl, rfl⟩

theorem elem_gWr (j : Nat) {v : Nat} {c d : Core} (hj : j % 16 ≠ 12) (hd : Elem c d) : Elem c (gWr j v d) := ⟨hd.imprecise, hd.le, (gRd_gWr_other _ _ hj).trans hd.count⟩

theorem elem_flagsPut (o : AluOut) (c : Core) : Elem c (flagsPut o c) := ⟨rfl, rfl, rfl⟩

/-! ### The instructions (R391) -/

section
variable {h : IsaHead} {n dt : Nat} {s u x : State} (hcount : hasPfx h 4 = true → gRd (coreOf u h.ini) 12 ≠ 0) (hp : plainFlow h.ini x)
include hcount hp

theorem movs_ends {v : Nat} {y : State} (he : executes (.movs h dt) h n s u) (hal : gRd (coreOf u h.ini) 11 % opBytes h = 0) (hl : loads h (gRd (coreOf u h.ini) 10) (opBytes h) v u y)
    (hs : stores h (gRd (coreOf u h.ini) 11) (opBytes h) v y x) :
    completes (.movs h dt) s (elemEnds h n (fun d => gWr 11 ((gRd d 11 + opBytes h) % 2 ^ 32) (gWr 10 ((gRd d 10 + opBytes h) % 2 ^ 32) d))
      (fun _ => false) (coreOf u h.ini) x) := by
  have hbody : movsElem h (coreOf u h.ini) u = strDone h (fun d => gBump 11 (opBytes h) (gBump 10 (opBytes h) d)) (fun _ => false) x := by
    rw [movsElem, if_neg fun hbad => hbad.2 hal, isaLoad_of_loads hl, isaStore_of_stores hs]
  exact completes_elem rfl rfl he hcount hbody ((coreOf_of_stores hs).trans (coreOf_of_cores (cores_of_loads hl))) hp (gBump_both _ _) (elem_gWr 11 (by decide) (elem_gWr 10 (by decide) (elem_refl _))) fun _ _ => rfl

theorem fils_ends (he : executes (.fils h dt) h n s u) (hs : stores h (gRd (coreOf u h.ini) 11) (opBytes h) (gRd (coreOf u h.ini) 0) u x) :
    completes (.fils h dt) s (elemEnds h n (fun d => gWr 11 ((gRd d 11 + opBytes h) % 2 ^ 32) d)
      (fun _ => false) (coreOf u h.ini) x) := by
  have hbody : filsElem h (coreOf u h.ini) u = strDone h (gBump 11 (opBytes h)) (fun _ => false) x := by
    rw [filsElem, isaStore_of_stores hs]
  exact completes_elem rfl rfl he hcount hbody (coreOf_of_stores hs) hp rfl (elem_gWr 11 (by decide) (elem_refl _)) fun _ _ => rfl

theorem cmps_ends {v w : Nat} {y : State} (he : executes (.cmps h dt) h n s u) (hal : gRd (coreOf u h.ini) 11 % opBytes h = 0) (hl : loads h (gRd (coreOf u h.ini) 10) (opBytes h) v u y)
    (hl' : loads h (gRd (coreOf u h.ini) 11) (opBytes h) w y x) :
    completes (.cmps h dt) s (elemEnds h n (fun d => gWr 11 ((gRd d 11 + opBytes h) % 2 ^ 32) (gWr 10 ((gRd d 10 + opBytes h) % 2 ^ 32) (flagsPut (aluCmp (8 * opBytes h) v w false) d)))
      (fun d => !d.z) (coreOf u h.ini) x) := by
  have hbody : cmpsElem h (coreOf u h.ini) u = strDone h (fun d => gBump 11 (opBytes h) (gBump 10 (opBytes h) (flagsPut (aluCmp (8 * opBytes h) v w false) d))) (fun d => !d.z) x := by
    rw [cmpsElem, if_neg fun hbad => hbad.2 hal, isaLoad_of_loads hl, isaLoad_of_loads hl']
  exact completes_elem rfl rfl he hcount hbody ((coreOf_of_cores (cores_of_loads hl')).trans (coreOf_of_cores (cores_of_loads hl))) hp (gBump_both _ _) (elem_gWr 11 (by decide) (elem_gWr 10 (by decide) (elem_flagsPut _ _))) fun _ _ => rfl

theorem scns_ends {v : Nat} (he : executes (.scns h dt) h n s u) (hl : loads h (gRd (coreOf u h.ini) 10) (opBytes h) v u x) :
    completes (.scns h dt) s (elemEnds h n (fun d => gWr 10 ((gRd d 10 + opBytes h) % 2 ^ 32) (flagsPut (aluCmp (8 * opBytes h) v (gRd (coreOf u h.ini) 0 % 2 ^ (8 * opBytes h)) false) d))
      (fun d => d.z) (coreOf u h.ini) x) := by
  have hbody : scnsElem h (coreOf u h.ini) u = strDone h (fun d => gBump 10 (opBytes h) (flagsPut (aluCmp (8 * opBytes h) v (gRd (coreOf u h.ini) 0 % 2 ^ (8 * opBytes h)) false) d)) (fun d => d.z) x := by
    rw [scnsElem, isaLoad_of_loads hl]
  exact completes_elem rfl rfl he hcount hbody (coreOf_of_cores (cores_of_loads hl)) hp rfl (elem_gWr 10 (by decide) (elem_flagsPut _ _)) fun _ _ => rfl

theorem crcs_ends {v : Nat} (he : executes (.crcs h dt) h n s u) (hl : loads h (gRd (coreOf u h.ini) 10) (opBytes h) v u x) :
    completes (.crcs h dt) s (elemEnds h n (fun d => gWr 10 ((gRd d 10 + opBytes h) % 2 ^ 32) (gWr 1 (crcReflected 0xEDB88320 (gRd (coreOf u h.ini) 1) (leBytes (opBytes h) v)) d))
      (fun _ => false) (coreOf u h.ini) x) := by
  have hbody : crcsElem h (coreOf u h.ini) u = strDone h (fun d => gBump 10 (opBytes h) (gWr 1 (crcReflected 0xEDB88320 (gRd d 1) (leBytes (opBytes h) v)) d)) (fun _ => false) x := by
    rw [crcsElem, isaLoad_of_loads hl]
  exact completes_elem rfl rfl he hcount hbody (coreOf_of_cores (cores_of_loads hl)) hp (by simp only [gBump]; rw [gRd_gWr_other _ _ (by decide)]) (elem_gWr 10 (by decide) (elem_gWr 1 (by decide) (elem_refl _))) fun _ _ => rfl

end

end Sys2Proof.Machine

open Sys2Proof Sys2Proof.Machine

/-- Settles O44: each instruction's element by its own lemma, and the repeat of no element. -/
theorem stringInstructions : Obligations.StringInstructions := by
  unfold Obligations.StringInstructions
  refine ⟨fun i h n k f early c s u x he hc hk hp hcount hi => ?_, fun i h n dt s u hi he hp hrep hzero => ?_⟩
  · subst hc hk
    cases i
    case movs h' dt =>
      obtain rfl := executes_head rfl he
      obtain ⟨⟨v, y, hal, hl, hs⟩, rfl, rfl⟩ := hi
      exact movs_ends hcount hp he hal hl hs
    case fils h' dt =>
      obtain rfl := executes_head rfl he
      obtain ⟨hs, rfl, rfl⟩ := hi
      exact fils_ends hcount hp he hs
    case cmps h' dt =>
      obtain rfl := executes_head rfl he
      obtain ⟨v, w, y, hal, hl, hl', rfl, rfl⟩ := hi
      exact cmps_ends hcount hp he hal hl hl'
    case scns h' dt =>
      obtain rfl := executes_head rfl he
      obtain ⟨v, hl, rfl, rfl⟩ := hi
      exact scns_ends hcount hp he hl
    case crcs h' dt =>
      obtain rfl := executes_head rfl he
      obtain ⟨v, hl, rfl, rfl⟩ := hi
      exact crcs_ends hcount hp he hl
    all_goals exact hi.elim
  · simp only [List.mem_cons, List.not_mem_nil, or_false] at hi
    rcases hi with rfl | rfl | rfl | rfl | rfl
    all_goals exact completes_rep_zero rfl rfl he hp hrep hzero
end

section
/-!
SUPPORT. Bundles of the signal cores (R406 to R424): the registers, how a bundle ends, the run of a bundle that no check stops, and what traps. Then the periods of a kernel
(R427, R428, R430).
-/
namespace Sys2Proof.Machine

/-! ### A signal core and its change -/

section
variable {c : Nat} {f : SigCore → SigCore} {s t : State}

theorem sigOf_sigMod (hlt : c < s.sig.length) : sigOf (sigMod c f s) c = f (sigOf s c) := getD_modAt_same _ _ _ _ hlt

theorem sigOf_of_sig (h : t.sig = s.sig) : sigOf t c = sigOf s c := by rw [sigOf, sigOf, h]

/-- A change of the registers that leaves a part of them alone leaves it alone past the end of the list too. -/
theorem sigOf_sigRegs_same {α : Type} (p : SRegs → α) {f : SRegs → SRegs} (h : p (f (sigOf s c).regs) = p (sigOf s c).regs) : p (sigOf (sigRegs c f s) c).regs = p (sigOf s c).regs := by
  by_cases hlt : c < s.sig.length
  · rw [sigRegs, sigOf_sigMod hlt, h]
  · have hlen : (sigRegs c f s).sig.length = s.sig.length := length_modAt _ _ _
    rw [sigOf, sigOf, List.getD_eq_default _ _ (Nat.not_lt.1 hlt), List.getD_eq_default _ _ (hlen ▸ Nat.not_lt.1 hlt)]

theorem krnOn_of_runner (h : t.runner = s.runner) : krnOn t c = krnOn s c := by rw [krnOn, krnOn, h]

theorem busRead_sig (w : BusReq) (fetch : Bool) (s : State) : (busRead w fetch s).2.sig = s.sig :=
  busRead_parts w fetch s s (partsOnly_refl [.age, .par, .rtc, .spx, .mboxes, .firn, .regs, .health, .freeCtr, .heldNotices, .drc, .pwr, .flight] s) rfl .sig (by decide)

theorem busRead_runner (w : BusReq) (fetch : Bool) (s : State) : (busRead w fetch s).2.runner = s.runner :=
  busRead_parts w fetch s s (partsOnly_refl [.age, .par, .rtc, .spx, .mboxes, .firn, .regs, .health, .freeCtr, .heldNotices, .drc, .pwr, .flight] s) rfl .runner (by decide)

theorem waitRead_sig (w : BusReq) (s : State) : (waitState w false s).sig = s.sig :=
  waitRead_parts w s s (partsOnly_refl [.age, .par, .rtc, .spx, .mboxes, .firn, .regs, .health, .freeCtr, .heldNotices, .drc, .pwr, .flight] s) rfl .sig (by decide)

theorem arrayWrite_sig (a : Nat) (l : List Nat) (loader : Bool) (s : State) : (arrayWrite a l loader s).sig = s.sig :=
  arrayWrite_parts a l loader s s (partsOnly_refl [.par, .mem] s) rfl .sig (by decide)

theorem mirrorOut_sig (a : Nat) (l : List Nat) (s : State) : (mirrorOut a l s).sig = s.sig :=
  mirrorOut_parts a l s s (partsOnly_refl [.regs, .mir] s) rfl .sig (by decide)

end

/-! ### Registers (R410, R411) -/

section
variable (i x : Nat) (b : Bool) (g : SRegs)

@[simp] theorem vWr_le : (vWr i x g).le = g.le := rfl
@[simp] theorem vWr_xret : (vWr i x g).xret = g.xret := rfl
@[simp] theorem aWr_le : (aWr i x g).le = g.le := rfl
@[simp] theorem aWr_xret : (aWr i x g).xret = g.xret := rfl
@[simp] theorem pWr_le : (pWr i b g).le = g.le := by unfold pWr; split <;> rfl
@[simp] theorem pWr_xret : (pWr i b g).xret = g.xret := by unfold pWr; split <;> rfl

end

/-- The slots' results leave st alone, and the mark of ERETX. -/
def keepsMode (f : SigWr) : Prop := ∀ r, (f r).le = r.le ∧ (f r).priv = r.priv ∧ (f r).xret = r.xret

theorem mResult_keepsMode (g : SRegs) (w : Nat) : keepsMode (mResult g w) := by
  unfold mResult
  dsimp only
  split <;> exact fun r => ⟨rfl, rfl, rfl⟩

/-- Of the control registers st alone holds LE (R411). -/
theorem sigCtlWrite_st_le (x : Nat) (r : SRegs) : (sigCtlWrite 0 x r).le = if r.priv = true then bitOf x 2 == 1 else r.le := by
  cases hpriv : r.priv <;> simp [sigCtlWrite, hpriv]

theorem sigCtlWrite_le_of_ne {n : Nat} (hn : n ≠ 0) (x : Nat) (r : SRegs) : (sigCtlWrite n x r).le = r.le := by
  unfold sigCtlWrite
  dsimp only
  split
  · exact absurd rfl hn
  all_goals (repeat' split) <;> rfl

@[simp] theorem sigCtlWrite_xret (n x : Nat) (r : SRegs) : (sigCtlWrite n x r).xret = r.xret := by
  unfold sigCtlWrite
  dsimp only
  (repeat' split) <;> rfl

/-- LE after a control register is written depends on LE and PRIV before it alone. -/
theorem sigCtlWrite_le_congr (n x : Nat) {r r' : SRegs} (hle : r.le = r'.le) (hpriv : r.priv = r'.priv) : (sigCtlWrite n x r).le = (sigCtlWrite n x r').le := by
  by_cases hn : n = 0
  · subst hn
    rw [sigCtlWrite_st_le, sigCtlWrite_st_le, hle, hpriv]
  · rw [sigCtlWrite_le_of_ne hn, sigCtlWrite_le_of_ne hn, hle]

/-- The B slots that compute: no branch, loop, return or wait (R419). -/
def bComputes (w : Nat) : Prop := bOp w ∈ [5, 6, 7, 8, 9, 10, 11, 12, 13]

section
variable {s : State} {c npc w : Nat} {g r r' : SRegs}

/-- A B slot that computes lets the core go on to the next bundle; what it does to LE depends on LE and PRIV alone. -/
theorem bResult_of_computes (h : bComputes w) :
    (bResult s c g npc w).2 = .seq ∧ ((bResult s c g npc w).1 r).xret = r.xret ∧
      (r.le = r'.le → r.priv = r'.priv → ((bResult s c g npc w).1 r).le = ((bResult s c g npc w).1 r').le) := by
  simp only [bComputes, List.mem_cons, List.not_mem_nil, or_false] at h
  rcases h with h | h | h | h | h | h | h | h | h
  case inr.inr.inr.inr.inr.inr.inl =>
    simp only [bResult, h]
    split
    · exact ⟨trivial, sigCtlWrite_xret _ _ _, sigCtlWrite_le_congr _ _⟩
    · split <;> exact ⟨trivial, rfl, fun hle _ => hle⟩
  all_goals
    simp only [bResult, h]
    exact ⟨trivial, by simp, fun hle _ => by simpa using hle⟩

end

/-! ### The end of a bundle (R414, R421) -/

/-- The core has the registers `r` and goes on at `pc`; nothing else differs from `s`. -/
def sigGoes (c : Nat) (r : SRegs) (pc : Nat) (s : State) : State := sigMod c (fun x => { x with boundary := true, regs := { r with pc := BitVec.ofNat 32 pc } }) s

section
variable {c npc pc dst : Nat} {f : SigWr} {r : SRegs} {s : State}

/-- A boundary where no failed write waits (R403). -/
theorem sigBoundary_plain (hlt : c < s.sig.length) (himp : (sigOf s c).imprecise = []) (hx : (sigOf s c).regs.xret = none) :
    sigBoundary c s = sigMod c (fun x => { x with boundary := true }) s := by
  have hmark : sigMod c (fun x => { x with boundary := x.regs.xret.isNone }) s = sigMod c (fun x => { x with boundary := true }) s := sigMod_congr (by simp [hx])
  simp only [sigBoundary]
  rw [hmark, sigOf_sigMod hlt, if_neg (by simp [himp])]

/-- A bundle whose registers are written and whose next pc is set ends at a boundary. -/
theorem sigBoundary_goes (hlt : c < s.sig.length) (himp : (sigOf s c).imprecise = []) {h : SigWr} (hr : h (sigOf s c).regs = { r with pc := BitVec.ofNat 32 pc }) (hx : r.xret = none) :
    sigBoundary c (sigRegs c h s) = sigGoes c r pc s := by
  have hlt' : c < (sigRegs c h s).sig.length := hlt.trans_eq (length_modAt _ _ _).symm
  have hcore : sigOf (sigRegs c h s) c = { sigOf s c with regs := { r with pc := BitVec.ofNat 32 pc } } := (sigOf_sigMod hlt).trans (by rw [hr])
  rw [sigBoundary_plain hlt' (by rw [hcore]; exact himp) (by rw [hcore]; exact hx), sigRegs, sigMod_sigMod]
  exact sigMod_congr (by rw [hr])

/-- A bundle without a branch goes on at the next bundle, where no loop is on. -/
theorem bundleEnd_seq (hlt : c < s.sig.length) (himp : (sigOf s c).imprecise = []) (hr : f (sigOf s c).regs = r) (hle : r.le = false) (hx : r.xret = none) :
    bundleEnd c npc pc f .seq s = sigGoes c r npc s := by
  simp only [bundleEnd, Bool.false_eq_true, if_false]
  rw [sigRegs, sigRegs, sigMod_sigMod]
  exact sigBoundary_goes (h := fun g => let (g1, t) := if (f g).le then sigLoops [2, 1, 0] npc (f g) else (f g, npc); { g1 with pc := BitVec.ofNat 32 t }) hlt himp (by simp [hr, hle]) hx

/-- A taken branch outside a kernel. -/
theorem bundleEnd_to (hlt : c < s.sig.length) (himp : (sigOf s c).imprecise = []) (hk : krnOn s c = false) (hr : f (sigOf s c).regs = r) (hx : r.xret = none) :
    bundleEnd c npc pc f (.to dst) s = sigGoes c r dst s := by
  have hk' : krnOn (sigRegs c f s) c = false := hk
  simp only [bundleEnd]
  rw [if_neg]
  · rw [sigRegs, sigRegs, sigMod_sigMod]
    exact sigBoundary_goes (h := fun g => { f g with pc := BitVec.ofNat 32 dst }) hlt himp (by rw [hr]) hx
  · split
    · simp [hk']
    · simp

end

/-! ### A bundle that no check stops (R399, R407, R413, R414) -/

theorem bundleFetch_good {s : State} {c pc n : Nat} (h : (bundleFetch s c pc n).1 = none) : bundleFetch s c pc n = (none, s) := by
  unfold bundleFetch at h ⊢
  dsimp only at h ⊢
  generalize (if krnOn s c = true then 0x3010C000 else 0x30000000 + 0x100000 * c) = lo at h ⊢
  split at h
  · cases h
  · next hpc =>
    rw [if_neg hpc]
    split at h
    · cases h
    · rfl

section
variable {c bad dt w : Nat} {slots l : List Nat} {g : SRegs} {s u : State} {P : State → Prop}

theorem regs_of_starts (hs : bundleStarts c slots dt l g s u) : g = (sigOf u c).regs := by
  obtain ⟨-, -, -, hg, -, -⟩ := hs
  exact hg

theorem lt_of_free (hf : bundleFree l g c u) : c < u.sig.length := by
  obtain ⟨-, -, -, -, hlt⟩ := hf
  exact hlt

theorem bundle_of_starts (hs : bundleStarts c slots dt l g s u) (h : P (bundleGo c bad g.pc.toNat l u)) : completes (.bundle c slots bad dt) s P := by
  obtain ⟨hok, rfl, rfl, rfl, hal, hfetch⟩ := hs
  refine completes_of_onlyIf rfl hok ?_
  simp only [bundle, hal, bundleFetch_good hfetch]
  exact h

theorem bundleGo_undefined (hg : g = (sigOf u c).regs) (h : slotsUndefined g l = true) : bundleGo c bad g.pc.toNat l u = sigExc c (excOf 1) g.pc.toNat (sigStOf g) u := by
  subst hg
  simp only [bundleGo, h, true_or, if_true]

/-- No LOOP that runs is undefined (R420, R421). -/
def loopsDefined (g : SRegs) (l : List Nat) : Prop := ∀ w ∈ l, slRuns g w = true → slReserved g w = false → loopUndefined g ((g.pc.toNat + 4 * l.length) % 2 ^ 32) w = false

/-- A bundle that may run: in user mode no slot of it is privileged (R414). -/
theorem not_denied (h : g.priv = true ∨ ∀ w ∈ l, slPrivileged w = false) : ¬(g.priv = false ∧ ∃ w ∈ l, slRuns g w = true ∧ slReserved g w = false ∧ slPrivileged w = true) := by
  rintro ⟨huser, w, hw, -, -, hp⟩
  rcases h with h | h
  · simp [huser] at h
  · simp [h w hw] at hp

/-- The checks behind that of the whole bundle, outside ERETX: privilege, then reserved slots. -/
theorem bundleGo_checks (hg : g = (sigOf u c).regs) (hx : g.xret = none) (hdef : slotsUndefined g l = false) (hloop : loopsDefined g l) :
    bundleGo c bad g.pc.toNat l u =
      if g.priv = false ∧ ∃ w ∈ l, slRuns g w = true ∧ slReserved g w = false ∧ slPrivileged w = true then sigExc c (excOf 3) g.pc.toNat (sigStOf g) u
      else if l.any (slReserved g) then sigExc c (excOf 2) g.pc.toNat (sigStOf g) (sigRegs c (sigCapture l) u)
      else bundleRun c bad ((g.pc.toNat + 4 * l.length) % 2 ^ 32) g.pc.toNat g l u := by
  subst hg
  have hnone : (l.filter (slRuns (sigOf u c).regs)).any (fun w => !slReserved (sigOf u c).regs w && loopUndefined (sigOf u c).regs (((sigOf u c).regs.pc.toNat + 4 * l.length) % 2 ^ 32) w) = false := by
    simp only [List.any_eq_false, List.mem_filter, Bool.and_eq_true, Bool.not_eq_true', not_and, Bool.not_eq_true, and_imp]
    exact hloop
  simp only [bundleGo, hdef, hnone, hx, Bool.false_eq_true, or_self, if_false, List.any_eq_true, List.mem_filter, Bool.and_eq_true, Bool.not_eq_true', and_assoc]

theorem bundleGo_free (hg : g = (sigOf u c).regs) (hx : g.xret = none) (hf : bundleFree l g c u) :
    bundleGo c bad g.pc.toNat l u = bundleRun c bad ((g.pc.toNat + 4 * l.length) % 2 ^ 32) g.pc.toNat g l u := by
  obtain ⟨hdef, hres, hpriv, hloop, -⟩ := hf
  rw [bundleGo_checks hg hx hdef fun w hw hr _ => hloop w hw hr, if_neg (not_denied hpriv), if_neg (by simp [hres])]

theorem bundle_of_free (hs : bundleStarts c slots dt l g s u) (hf : bundleFree l g c u) (hx : g.xret = none)
    (h : P (bundleRun c bad ((g.pc.toNat + 4 * l.length) % 2 ^ 32) g.pc.toNat g l u)) : completes (.bundle c slots bad dt) s P := by
  refine bundle_of_starts hs ?_
  rwa [bundleGo_free (regs_of_starts hs) hx hf]

end

theorem ofNat32_mod (n : Nat) : BitVec.ofNat 32 (n % 2 ^ 32) = BitVec.ofNat 32 n := BitVec.eq_of_toNat_eq (by simp)

/-! ### Results land together (R414, R416, R419) -/

/-- What the M slots among `live` write, and the result and flow of the B slot among them. -/
def mWrites (g : SRegs) (live : List Nat) : SigWr := fun r => (live.filter (fun w => decide (slKind w < 2))).foldl (fun t w => mResult g w t) r
def bWrite (s : State) (c : Nat) (g : SRegs) (npc : Nat) (live : List Nat) : SigWr × Flow :=
  match live.find? (fun w => slKind w == 3) with
  | some w => bResult s c g npc w
  | none => (id, .seq)

theorem foldl_mResult_keepsMode (g : SRegs) (l : List Nat) : keepsMode (fun r => l.foldl (fun t w => mResult g w t) r) := by
  intro r
  induction l generalizing r with
  | nil => exact ⟨rfl, rfl, rfl⟩
  | cons w l ih =>
    obtain ⟨hle, hpriv, hxret⟩ := mResult_keepsMode g w r
    obtain ⟨hle', hpriv', hxret'⟩ := ih (mResult g w r)
    exact ⟨hle'.trans hle, hpriv'.trans hpriv, hxret'.trans hxret⟩

theorem mWrites_keepsMode (g : SRegs) (live : List Nat) : keepsMode (mWrites g live) := foldl_mResult_keepsMode g _

theorem slKind_le (w : Nat) : slKind w ≤ 3 := Nat.le_of_lt_succ (Nat.mod_lt _ (by decide))

section
variable {c bad npc pc : Nat} {l live : List Nat} {g r : SRegs} {s : State}

/-- A bundle whose L slot does not run, and whose JR has an aligned target. -/
theorem bundleRun_noAccess (hx : g.xret = none) (hl : (l.filter (slRuns g)).find? (fun w => slKind w == 2) = none)
    (hjr : jrBad s c (((l.filter (slRuns g)).find? (fun w => slKind w == 3 && bOp w == 3)).map (fun w => aRd g (bitsOf w 3 0))) = false) :
    bundleRun c bad npc pc g l s =
      bundleEnd c npc pc (fun r => (bWrite s c g npc (l.filter (slRuns g))).1 (mWrites g (l.filter (slRuns g)) { r with xret := none })) (bWrite s c g npc (l.filter (slRuns g))).2 s := by
  simp only [bundleRun, hl, hjr, hx, Option.isSome_none, Bool.false_eq_true, false_and, if_false, bWrite]
  cases (l.filter (slRuns g)).find? (fun w => slKind w == 3) <;> rfl

/-- Kinds rise from slot to slot (R413). -/
theorem pairwise_of_defined (h : slotsUndefined g l = false) : l.Pairwise (fun a b => slKind a < slKind b) := by
  simp only [slotsUndefined, Bool.or_eq_false_iff, Bool.not_eq_false'] at h
  obtain ⟨⟨⟨hrise, -⟩, -⟩, -⟩ := h
  rw [← List.pairwise_map (f := slKind) (R := (· < ·)), ← List.isChain_iff_pairwise, List.isChain_iff_getElem]
  intro i hi
  simp only [List.all_eq_true, List.mem_range, decide_eq_true_eq] at hrise
  have hlt := hrise i (by omega)
  rwa [List.getD_eq_getElem _ _ (by omega), List.getD_eq_getElem _ _ hi] at hlt

/-- Slot after slot is the M slots and then the B slot: kinds rise, and there is no L slot. -/
theorem foldl_results (hp : live.Pairwise (fun a b => slKind a < slKind b)) (hL : ∀ w ∈ live, slKind w ≠ 2) (r : SRegs) :
    live.foldl (fun r w => (if slKind w < 2 then mResult g w else (bResult s c g npc w).1) r) r = (bWrite s c g npc live).1 (mWrites g live r) := by
  induction live generalizing r with
  | nil => rfl
  | cons w live ih =>
    obtain ⟨hw, hp⟩ := List.pairwise_cons.1 hp
    have hle := slKind_le w
    have hne := hL w List.mem_cons_self
    by_cases hM : slKind w < 2
    · have hB : bWrite s c g npc (w :: live) = bWrite s c g npc live := by
        rw [bWrite, List.find?_cons_of_neg (by simp only [beq_iff_eq]; omega), bWrite]
      rw [List.foldl_cons, ih hp (fun x hx => hL x (List.mem_cons_of_mem _ hx)), hB]
      simp only [mWrites, List.filter_cons, hM, decide_true, if_true, List.foldl_cons]
    · obtain rfl : live = [] := List.eq_nil_iff_forall_not_mem.2 fun x hx => by
        have hlt := hw x hx
        have hle := slKind_le x
        omega
      simp [bWrite, mWrites, show slKind w = 3 by omega]

/-- A B slot that computes goes on to the next bundle, and with LE off it stays off where the write to st says so. -/
theorem bWrite_of_computes (hB : ∀ w ∈ live, slKind w = 3 → bComputes w) (hoff : ∀ w ∈ live, slKind w = 3 → ((bResult s c g npc w).1 g).le = false) (hg : g.le = false)
    (hle : r.le = g.le) (hpriv : r.priv = g.priv) (hx : r.xret = none) :
    (bWrite s c g npc live).2 = .seq ∧ ((bWrite s c g npc live).1 r).le = false ∧ ((bWrite s c g npc live).1 r).xret = none := by
  unfold bWrite
  split
  · next w hfind =>
    have hw := List.mem_of_find?_eq_some hfind
    have hkind : slKind w = 3 := by simpa using List.find?_some hfind
    obtain ⟨hseq, hxret, hcongr⟩ := bResult_of_computes (s := s) (c := c) (npc := npc) (g := g) (r := r) (r' := g) (hB w hw hkind)
    exact ⟨hseq, (hcongr hle hpriv).trans (hoff w hw hkind), hxret.trans hx⟩
  · exact ⟨rfl, hle.trans hg, hx⟩

/-- A bundle without an L slot, whose B slot computes. -/
theorem bundleRun_computes (hlive : l.filter (slRuns g) = live) (hg : g = (sigOf s c).regs) (hx : g.xret = none) (hle : g.le = false) (himp : (sigOf s c).imprecise = []) (hlt : c < s.sig.length)
    (hp : live.Pairwise (fun a b => slKind a < slKind b)) (hL : ∀ w ∈ live, slKind w ≠ 2) (hB : ∀ w ∈ live, slKind w = 3 → bComputes w)
    (hoff : ∀ w ∈ live, slKind w = 3 → ((bResult s c g npc w).1 g).le = false) :
    bundleRun c bad npc pc g l s = sigGoes c (live.foldl (fun r w => (if slKind w < 2 then mResult g w else (bResult s c g npc w).1) r) g) npc s := by
  obtain ⟨hle', hpriv', hx'⟩ := mWrites_keepsMode g live g
  obtain ⟨hseq, hend, hxend⟩ := bWrite_of_computes hB hoff hle hle' hpriv' (hx'.trans hx)
  have hnoL : live.find? (fun w => slKind w == 2) = none := List.find?_eq_none.2 fun w hw => by simpa using hL w hw
  have hnoJR : live.find? (fun w => slKind w == 3 && bOp w == 3) = none := List.find?_eq_none.2 fun w hw hjr => by
    simp only [Bool.and_eq_true, beq_iff_eq] at hjr
    have hop := hB w hw hjr.1
    simp [bComputes, hjr.2] at hop
  subst hlive
  rw [bundleRun_noAccess hx hnoL (by rw [hnoJR]; rfl), hseq, bundleEnd_seq hlt himp (by rw [← hg]; simp [← hx]) hend hxend, foldl_results hp hL]

end

theorem results_land (c bad dt : Nat) (slots l : List Nat) (g : SRegs) (s u : State) (hs : bundleStarts c slots dt l g s u) (hf : bundleFree l g c u) (hx : g.xret = none) (hle : g.le = false)
    (hL : l.all (fun w => slKind w != 2) = true) (hB : ∀ w ∈ l, slRuns g w = true → slKind w = 3 → bComputes w) (himp : (sigOf u c).imprecise = [])
    (hoff : ∀ w ∈ l, slRuns g w = true → slKind w = 3 →
      (bResult u c g ((g.pc.toNat + 4 * l.length) % 2 ^ 32) w).1 g = { (bResult u c g ((g.pc.toNat + 4 * l.length) % 2 ^ 32) w).1 g with le := false }) :
    completes (.bundle c slots bad dt) s (fun t => t = sigMod c (fun x => { x with boundary := true, regs := { ((l.filter (slRuns g)).foldl (fun r w =>
      (if slKind w < 2 then mResult g w else (bResult u c g ((g.pc.toNat + 4 * l.length) % 2 ^ 32) w).1) r) g) with pc := BitVec.ofNat 32 (g.pc.toNat + 4 * l.length) } }) u) := by
  have hdef : slotsUndefined g l = false := hf.1
  have hne : ∀ w ∈ l, slKind w ≠ 2 := by simpa using hL
  refine bundle_of_free hs hf hx ?_
  rw [bundleRun_computes rfl (regs_of_starts hs) hx hle himp (lt_of_free hf) ((pairwise_of_defined hdef).filter (slRuns g))
    (fun w hw => hne w (List.mem_of_mem_filter hw)) (List.forall_mem_filter.2 hB) (List.forall_mem_filter.2 fun w hw hrun hk => congrArg SRegs.le (hoff w hw hrun hk)), sigGoes, ofNat32_mod]

/-! ### Branches (R419) -/

section
variable {c bad npc pc w dst : Nat} {g : SRegs} {s : State}

/-- A branch alone in its bundle, outside a kernel. -/
theorem bundleRun_branch (hg : g = (sigOf s c).regs) (hx : g.xret = none) (hk : krnOn s c = false) (himp : (sigOf s c).imprecise = []) (hlt : c < s.sig.length) (hB : slKind w = 3)
    (hrun : slRuns g w = true) (hjr : bOp w = 3 → aRd g (bitsOf w 3 0) % 4 = 0) (hflow : (bResult s c g npc w).2 = .to dst) (hx' : ((bResult s c g npc w).1 g).xret = none) :
    bundleRun c bad npc pc g [w] s = sigGoes c ((bResult s c g npc w).1 g) dst s := by
  have hlive : [w].filter (slRuns g) = [w] := by simp [hrun]
  have hfind : bWrite s c g npc [w] = bResult s c g npc w := by simp [bWrite, hB]
  have hnoJR : jrBad s c (([w].find? (fun w => slKind w == 3 && bOp w == 3)).map (fun w => aRd g (bitsOf w 3 0))) = false := by
    by_cases hop : bOp w = 3
    · simp [hB, hop, jrBad, hjr hop]
    · simp [hop, jrBad]
  rw [bundleRun_noAccess hx (by simp [hrun, hB]) (by rwa [hlive]), hlive, hfind, hflow]
  exact bundleEnd_to hlt himp hk (by rw [← hg]; simp [mWrites, hB, ← hx]) hx'

end

/-- A displacement of 16 bits in words from an address. -/
theorem addr32_add_words (l x : Nat) : addr32 ((l : Int) + 4 * toSigned 16 (bitsOf x 15 0)) = (l + 4 * (BitVec.signExtend 32 (BitVec.ofNat 16 x)).toNat) % 2 ^ 32 := by
  have hmod : toSigned 16 (bitsOf x 15 0) = toSigned 16 x := by simp [toSigned, bitsOf]
  rw [hmod, ← ofSigned_toSigned, ofSigned, addr32, ofSigned]
  omega

theorem branches_jump (c bad dt w npc dst : Nat) (slots : List Nat) (g : SRegs) (s u : State) (hs : bundleStarts c slots dt [w] g s u) (hf : bundleFree [w] g c u) (hx : g.xret = none)
    (hB : slKind w = 3) (hrun : slRuns g w = true) (hk : krnOn u c = false) (himp : (sigOf u c).imprecise = []) (hnpc : npc = (g.pc.toNat + 4) % 2 ^ 32)
    (hdst : (bOp w = 1 ∨ bOp w = 2) ∧ dst = (npc + 4 * (BitVec.signExtend 32 (BitVec.ofNat 16 w)).toNat) % 2 ^ 32 ∨ bOp w = 3 ∧ dst = aRd g (w % 16) ∧ dst % 4 = 0) :
    completes (.bundle c slots bad dt) s (fun t => t =
      sigMod c (fun x => { x with boundary := true, regs := { (if bOp w = 2 ∨ (bOp w = 3 ∧ bitOf w 4 = 1) then aWr 15 npc g else g) with pc := BitVec.ofNat 32 dst } }) u) := by
  have hg := regs_of_starts hs
  have hlt := lt_of_free hf
  have hresult : bResult u c g npc w = ((if bOp w = 2 ∨ (bOp w = 3 ∧ bitOf w 4 = 1) then aWr 15 npc else id), .to dst) ∧ (bOp w = 3 → aRd g (bitsOf w 3 0) % 4 = 0) := by
    rcases hdst with ⟨hop | hop, rfl⟩ | ⟨hop, rfl, hal⟩
    · simp [bResult, hop, bImm, addr32_add_words]
    · simp [bResult, hop, bImm, addr32_add_words]
    · exact ⟨by simp [bResult, hop]; rfl, fun _ => hal⟩
  obtain ⟨hresult, hjr⟩ := hresult
  refine bundle_of_free hs hf hx ?_
  rw [List.length_singleton, Nat.mul_one, ← hnpc, bundleRun_branch (dst := dst) hg hx hk himp hlt hB hrun hjr (by rw [hresult]) (by rw [hresult]; split <;> exact hx), hresult, sigGoes]
  split <;> rfl

/-! ### Exceptions (R399, R400, R422) -/

/-- An exception outside a kernel, at the bundle that the core stands at. -/
theorem sigExc_sigTraps {c : Nat} {e : Exc} {g : SRegs} {s : State} (hg : g = (sigOf s c).regs) (hk : krnOn s c = false) :
    sigTraps c e.vec (ecauseOf e) e.eaddr s (sigExc c e g.pc.toNat (sigStOf g) s) := by
  subst hg
  exact sigExc_traps (f := id) (by rw [sigMod, modAt_id]) rfl hk

theorem bundle_traps (c bad dt : Nat) (slots l : List Nat) (g : SRegs) (s u : State) (hs : bundleStarts c slots dt l g s u) (hk : krnOn u c = false) (hx : g.xret = none) :
    (slotsUndefined g l = true → completes (.bundle c slots bad dt) s (fun t => sigTraps c 1 1 none u t)) ∧
    (slotsUndefined g l = false → loopsDefined g l →
      (g.priv = false → (∃ w ∈ l, slRuns g w = true ∧ slReserved g w = false ∧ slPrivileged w = true) → completes (.bundle c slots bad dt) s (fun t => sigTraps c 3 3 none u t)) ∧
      ((g.priv = true ∨ ∀ w ∈ l, slPrivileged w = false) → l.any (slReserved g) = true →
        completes (.bundle c slots bad dt) s (fun t => sigTraps c 2 2 none (sigRegs c (sigCapture l) u) t))) := by
  have hg := regs_of_starts hs
  refine ⟨fun h => ?_, fun hdef hloop => ⟨fun huser hpriv => ?_, fun hallowed hres => ?_⟩⟩
  · refine bundle_of_starts hs ?_
    rw [bundleGo_undefined hg h]
    exact sigExc_sigTraps hg hk
  · refine bundle_of_starts hs ?_
    rw [bundleGo_checks hg hx hdef hloop, if_pos ⟨huser, hpriv⟩]
    exact sigExc_sigTraps hg hk
  · refine bundle_of_starts hs ?_
    rw [bundleGo_checks hg hx hdef hloop, if_neg (not_denied hallowed), if_pos hres]
    have hpc : (sigOf (sigRegs c (sigCapture l) u) c).regs.pc = g.pc := (sigOf_sigRegs_same SRegs.pc (f := sigCapture l) rfl).trans (congrArg SRegs.pc hg.symm)
    have hst : sigStOf (sigOf (sigRegs c (sigCapture l) u) c).regs = sigStOf g := (sigOf_sigRegs_same sigStOf (f := sigCapture l) rfl).trans (congrArg sigStOf hg.symm)
    have htraps := sigExc_sigTraps (e := excOf 2) (s := sigRegs c (sigCapture l) u) (c := c) rfl hk
    rwa [hpc, hst] at htraps

/-! ### Accesses (R399, R403, R410, R418) -/

section
variable {c bad npc pc w : Nat} {g : SRegs} {s : State}

/-- An L slot alone in its bundle, outside a kernel, at an aligned address: its access, and then its results. -/
theorem bundleRun_access (hx : g.xret = none) (hL : slKind w = 2) (hrun : slRuns g w = true) (hk : krnOn s c = false) (hal : lAddr g w % lSize w = 0) :
    bundleRun c bad npc pc g [w] s = bundleAcc c bad pc g w (fun lf t => bundleEnd c npc pc (fun r => lf { r with xret := none }) .seq t) s := by
  simp [bundleRun, hrun, hL, hx, lReq, hal, jrBad, krnDataOk, hk]

theorem bundleRun_misaligned (hL : slKind w = 2) (hrun : slRuns g w = true) (hal : lAddr g w % lSize w ≠ 0) :
    bundleRun c bad npc pc g [w] s = sigExc c (excAlign (lStore w) (lAddr g w)) pc (sigStOf g) s := by
  simp [bundleRun, hrun, hL, lReq, hal]

theorem lMove_eq : lMove g w g = if lMode w = 0 then g else aWr (lAb w) (lBase g w) g := by
  rw [lMove]
  split <;> rfl

/-- What a load writes: the moved address register, then the value (R418). -/
theorem lTake_eq (v fresh : Nat) (hdst : lOp w = 2 → lMode w ≠ 0 → lV w % 16 ≠ lAb w) :
    lTake g w v fresh g = (match lOp w with
      | 2 => aWr (lV w) v (if lMode w = 0 then g else aWr (lAb w) (lBase g w) g)
      | 4 => vWr (lV w) (v % 2 ^ 16 * 0x0001000100010001) (if lMode w = 0 then g else aWr (lAb w) (lBase g w) g)
      | 5 => vWr (lV w) (v % 2 ^ 32) (if lMode w = 0 then g else aWr (lAb w) (lBase g w) g)
      | _ => vWr (lV w) v (if lMode w = 0 then g else aWr (lAb w) (lBase g w) g)) := by
  have hlanes : packLanes (fun _ => v % 2 ^ 16) = v % 2 ^ 16 * 0x0001000100010001 := by
    rw [packLanes]
    omega
  simp only [lTake, lMove_eq, hlanes]
  generalize lOp w = op at hdst ⊢
  match op with
  | 2 => exact if_neg fun h => hdst rfl h.1 h.2
  | 0 | 1 | 3 | 4 | 5 | _ + 6 => rfl

theorem lMove_keepsMode : keepsMode (lMove g w) := by
  unfold lMove
  split <;> exact fun r => ⟨rfl, rfl, rfl⟩

theorem lTake_keepsMode (v fresh : Nat) : keepsMode (lTake g w v fresh) := by
  intro r
  have hmove := lMove_keepsMode (g := g) (w := w) r
  unfold lTake
  split
  · split
    · exact ⟨rfl, rfl, rfl⟩
    · exact hmove
  all_goals exact hmove

end

theorem misalignedAccess_traps (c bad dt w a : Nat) (slots : List Nat) (g : SRegs) (s u : State) (hs : bundleStarts c slots dt [w] g s u) (hf : bundleFree [w] g c u) (hx : g.xret = none)
    (hL : slKind w = 2) (hrun : slRuns g w = true) (hk : krnOn u c = false) (ha : a = lAddr g w) (hmis : a % lSize w ≠ 0) :
    completes (.bundle c slots bad dt) s (fun t => sigTraps c 6 (6 + (if lStore w then 2 ^ 21 else 0)) (some a) u t) := by
  subst ha
  have hg := regs_of_starts hs
  have hcause : ecauseOf (excAlign (lStore w) (lAddr g w)) = 6 + (if lStore w then 2 ^ 21 else 0) := by
    cases lStore w
    · exact ecauseOf_alignLoad _
    · exact ecauseOf_alignStore _
  refine bundle_of_free hs hf hx ?_
  rw [bundleRun_misaligned hL hrun hmis, ← hcause]
  exact sigExc_sigTraps hg hk

/-- What follows the read of a load in state `u`: the results, the bus error at the bundle `pc`, or the wait (R403, R410). -/
def loadEnds (c bad pc : Nat) (g : SRegs) (w : Nat) (fin : SigWr → State → State) (u : State) : BusRes × State → State
  | (.done v, x) => fin (lTake g w v (x.freeAt 0)) (if lOp w = 2 ∧ lMode w ≠ 0 ∧ lV w % 16 = lAb w then x.drawn 1 else x)
  | (.err k, x) => sigExc c (excBus 5 k false (lAddr g w)) pc (sigStOf g) x
  | (.wait, _) => sigMod c (fun y => { y with boundary := false }) (waitState (lReq c bad g w) false u)

theorem bundleAcc_load {c bad pc w : Nat} {g : SRegs} {fin : SigWr → State → State} {u : State} (himp : (sigOf u c).imprecise = []) (hload : lStore w = false) :
    bundleAcc c bad pc g w fin u = loadEnds c bad pc g w fin u (busRead (lReq c bad g w) false u) := by
  simp only [bundleAcc, hload, himp, List.find?_nil, Bool.false_eq_true, if_false, loadEnds]
  rfl

theorem busRead_leaves_sig {c : Nat} {u x : State} {q : BusReq} {fetch : Bool} {r : BusRes} (hread : busRead q fetch u = (r, x)) :
    x.sig = u.sig ∧ sigOf x c = sigOf u c ∧ krnOn x c = krnOn u c := by
  have hsig := busRead_sig q fetch u
  have hrunner := busRead_runner q fetch u
  rw [hread] at hsig hrunner
  exact ⟨hsig, sigOf_of_sig hsig, krnOn_of_runner hrunner⟩

section
variable {c bad dt w v k : Nat} {slots : List Nat} {g : SRegs} {s u x : State} (hs : bundleStarts c slots dt [w] g s u) (hf : bundleFree [w] g c u) (hx : g.xret = none) (hL : slKind w = 2)
  (hrun : slRuns g w = true) (himp : (sigOf u c).imprecise = []) (hk : krnOn u c = false) (hload : lStore w = false) (hal : lAddr g w % lSize w = 0)

include hs hf hx hL hrun himp hk hload hal

theorem load_done (hle : g.le = false) (hdst : lOp w = 2 → lMode w ≠ 0 → lV w % 16 ≠ lAb w) (hread : busRead (lReq c bad g w) false u = (.done v, x)) :
    completes (.bundle c slots bad dt) s (fun t => t = sigGoes c (lTake g w v (x.freeAt 0) g) (g.pc.toNat + 4) x) := by
  have hg := regs_of_starts hs
  have hlt := lt_of_free hf
  obtain ⟨hsig, hcore, -⟩ := busRead_leaves_sig (c := c) hread
  obtain ⟨hle', -, hx'⟩ := lTake_keepsMode (g := g) (w := w) v (x.freeAt 0) g
  refine bundle_of_free hs hf hx ?_
  rw [bundleRun_access hx hL hrun hk hal, bundleAcc_load himp hload, hread]
  simp only [loadEnds, if_neg (fun h => hdst h.1 h.2.1 h.2.2 : ¬(lOp w = 2 ∧ lMode w ≠ 0 ∧ lV w % 16 = lAb w))]
  rw [bundleEnd_seq (r := lTake g w v (x.freeAt 0) g) (hsig ▸ hlt) (by rw [hcore, himp]) (by rw [hcore, ← hg]; simp [← hx]) (hle'.trans hle) (hx'.trans hx)]
  simp only [sigGoes, ofNat32_mod, List.length_singleton, Nat.mul_one]

theorem load_err (hread : busRead (lReq c bad g w) false u = (.err k, x)) : completes (.bundle c slots bad dt) s (fun t => sigTraps c 5 (5 + k % 16 * 65536) (some (lAddr g w)) x t) := by
  have hg := regs_of_starts hs
  obtain ⟨-, hcore, hrunner⟩ := busRead_leaves_sig (c := c) hread
  refine bundle_of_free hs hf hx ?_
  rw [bundleRun_access hx hL hrun hk hal, bundleAcc_load himp hload, hread]
  simp only [loadEnds]
  have htraps := sigExc_sigTraps (e := excBus 5 k false (lAddr g w)) (hg.trans (congrArg SigCore.regs hcore.symm)) (hrunner.trans hk)
  rwa [ecauseOf_excBus false (by decide), show b2n false = 0 from rfl, Nat.mul_zero, Nat.add_zero] at htraps

theorem load_wait (hread : busRead (lReq c bad g w) false u = (.wait, x)) : completes (.bundle c slots bad dt) s (fun t => (sigOf t c).regs = g) := by
  have hg := regs_of_starts hs
  have hlt := lt_of_free hf
  have hwait : (waitState (lReq c bad g w) false u).sig = u.sig := waitRead_sig _ _
  refine bundle_of_free hs hf hx ?_
  rw [bundleRun_access hx hL hrun hk hal, bundleAcc_load himp hload, hread]
  simp only [loadEnds]
  rw [sigOf_sigMod (hwait ▸ hlt), sigOf_of_sig hwait]
  exact hg.symm

end

/-- The data memory of a signal core (R406). -/
theorem rgnOf_sigData {isC : Bool} {c a : Nat} (hc : c < 2) (hlo : 0x30040000 + 0x100000 * c ≤ a) (hhi : a < 0x30080000 + 0x100000 * c) : rgnOf isC a = .sigData ((a - 0x30000000) / 0x100000) := by
  unfold rgnOf
  rw [if_neg (by omega), if_neg (by omega), if_neg (by omega), if_neg (by omega), if_neg (by omega), if_pos (by omega)]
  dsimp only
  rw [if_neg (by omega), if_pos (by omega)]

theorem targetWrite_sigData {c : Nat} {w : BusReq} {s : State} (hc : c < 2) (hlo : 0x30040000 + 0x100000 * c ≤ w.addr) (hhi : w.addr < 0x30080000 + 0x100000 * c) :
    targetWrite false w s = (.done 0, mirrorOut w.addr (leBytes w.size w.val) (arrayWrite w.addr (leBytes w.size w.val) false s)) := by
  rw [targetWrite, busTarget_of_global (.inr (by omega)), rgnOf_sigData hc hlo hhi]

theorem lSize_pos (w : Nat) : 0 < lSize w := by
  unfold lSize
  split <;> decide

theorem store_ends (c bad dt w a : Nat) (slots : List Nat) (g : SRegs) (s u : State) (hs : bundleStarts c slots dt [w] g s u) (hf : bundleFree [w] g c u) (hx : g.xret = none) (hle : g.le = false)
    (hL : slKind w = 2) (hrun : slRuns g w = true) (hstore : lStore w = true) (himp : (sigOf u c).imprecise = []) (hk : krnOn u c = false) (hm : memWf u.mem = true) (ha : a = lAddr g w)
    (hal : a % lSize w = 0) (hlo : 0x30040000 + 0x100000 * c ≤ a) (hhi : a + lSize w ≤ 0x30080000 + 0x100000 * c) (hlands : writeLands (lReq c bad g w) u = true) (hlen : u.sig.length = 2) :
    completes (.bundle c slots bad dt) s (fun t => (sigOf t c).regs = { (if lMode w = 0 then g else aWr (lAb w) (lBase g w) g) with pc := BitVec.ofNat 32 (g.pc.toNat + 4) } ∧
      (∀ i, i < lSize w → (memRd t.mem (a + i)).toNat = lData g w / 256 ^ i % 256) ∧ (∀ b, b < a ∨ a + lSize w ≤ b → memRd t.mem b = memRd u.mem b)) := by
  subst ha
  have hg := regs_of_starts hs
  have hlt := lt_of_free hf
  have hpos := lSize_pos w
  have hwrite : busWrite (lReq c bad g w) u = (.done 0, mirrorOut (lAddr g w) (leBytes (lSize w) (lData g w % 2 ^ (8 * lSize w)))
      (arrayWrite (lAddr g w) (leBytes (lSize w) (lData g w % 2 ^ (8 * lSize w))) false u)) :=
    (busWriteP_of_lands hlands).trans (targetWrite_sigData (w := lReq c bad g w) (hlen ▸ hlt) hlo (by simp only [lReq]; omega))
  refine bundle_of_free hs hf hx ?_
  rw [bundleRun_access hx hL hrun hk hal]
  simp only [bundleAcc, hstore, if_true, hwrite]
  generalize hy : mirrorOut _ _ _ = y
  have hsig : y.sig = u.sig := by rw [← hy, mirrorOut_sig, arrayWrite_sig]
  obtain ⟨hin, hout⟩ : Stores (lAddr g w) (lSize w) (lData g w % 2 ^ (8 * lSize w)) u y := stores_of_mem hm (by rw [← hy, mirrorOut_mem]; rfl)
  obtain ⟨hle', -, hx'⟩ := lMove_keepsMode (g := g) (w := w) g
  have hcounted : sigMod c (fun z => { z with imprecise := z.imprecise.map (fun e => { e with after := e.after + 1 }) }) y = y := by
    rw [sigMod_congr (g := id) (by simp only [sigOf_of_sig hsig, himp, List.map_nil, id]; rw [← himp]), sigMod, modAt_id]
  rw [hcounted, bundleEnd_seq (r := lMove g w g) (hsig ▸ hlt) (by rw [sigOf_of_sig hsig, himp]) (by rw [sigOf_of_sig hsig, ← hg]; simp [← hx]) (hle'.trans hle) (hx'.trans hx)]
  refine ⟨?_, fun i hi => (hin i hi).trans (leBytes_mod _ _ i hi), hout⟩
  rw [sigGoes, sigOf_sigMod (hsig ▸ hlt), lMove_eq, List.length_singleton, Nat.mul_one, ofNat32_mod]

/-! ### Kernel periods (R427, R428, R430) -/

theorem krnHeader_runner (s : State) : (krnHeader s).runner = s.runner := krnHeader_parts s s (partsOnly_refl [.mem] s) rfl .runner (by decide)
theorem krnHeader_sig (s : State) : (krnHeader s).sig = s.sig := krnHeader_parts s s (partsOnly_refl [.mem] s) rfl .sig (by decide)

theorem period_resumes (dt : Nat) (r : KernelRun) (s : State) (hok : kernelPeriodOk (s.pass dt) = true) (hr : s.runner.run = some r) (hsusp : r.suspended = true) (hlen : s.sig.length = 2) :
    completes (.kernelPeriod dt) s (fun t => t.runner.period = (s.pass dt).now / 2 ^ 20 ∧ t.runner.budget = kernelBudget (s.pass dt) ∧ (sigOf t 1).regs = r.away ∧
      t.runner.run.map (fun x => (x.k, x.suspended, x.used, x.periods)) = some (r.k, false, 0, r.periods + 1)) := by
  refine completes_of_onlyIf rfl hok ?_
  have hr' : (s.pass dt).runner.run = some r := hr
  have hlen' : (s.pass dt).sig.length = 2 := hlen
  generalize s.pass dt = z at hr' hlen' ⊢
  have hrunner := krnHeader_runner (krnMod (fun x => { x with period := z.now / 2 ^ 20, budget := kernelBudget z }) z)
  have hsig := krnHeader_sig (krnMod (fun x => { x with period := z.now / 2 ^ 20, budget := kernelBudget z }) z)
  simp only [kernelPeriod]
  generalize krnHeader _ = y at hrunner hsig ⊢
  have hrun : y.runner.run = some r := by rw [hrunner]; exact hr'
  have hlt : 1 < y.sig.length := by rw [hsig]; exact hlen'.symm ▸ Nat.lt_succ_self 1
  simp only [hrun, hsusp, if_true]
  refine ⟨congrArg Runner.period hrunner, congrArg Runner.budget hrunner, congrArg SigCore.regs (sigOf_sigMod hlt), rfl⟩

theorem budget_suspends (k : Bool) (dt : Nat) (r : KernelRun) (s : State) (hlen : s.sig.length = 2) (hok : kernelBudgetSuspendOk k (s.pass dt) = true) (hr : s.runner.run = some r) :
    completes (.kernelBudgetSuspend k dt) s (fun t => t.runner.run.map (fun x => (x.k, x.suspended, x.away)) = some (r.k, true, (sigOf s 1).regs) ∧ (sigOf t 1).regs = r.away ∧
      changesOnly [] [.sig, .runner] (s.pass dt) t) := by
  refine completes_of_onlyIf rfl hok ?_
  have hr' : (s.pass dt).runner.run = some r := hr
  have hlt : 1 < (s.pass dt).sig.length := hlen.symm ▸ Nat.lt_succ_self 1
  simp only [kernelBudgetSuspend, hr']
  exact ⟨rfl, congrArg SigCore.regs (sigOf_sigMod hlt), fieldsOnly_same (fieldsOnly_refl _ _) rfl rfl,
    krnMod_parts _ _ _ (sigMod_parts _ _ _ _ (partsOnly_refl _ _) rfl) rfl⟩

end Sys2Proof.Machine

open Sys2Proof Sys2Proof.Machine

/-- Settles O46: the results of a bundle, its access, its branches and its traps by their own lemmas, then the period and the budget of a kernel. -/
theorem bundles : Obligations.Bundles := by
  unfold Obligations.Bundles
  refine ⟨results_land, fun c bad dt w a slots g r s u x hs hf hx hle hL hrun himp hk hload hdst ha hal hread => ?_, store_ends, misalignedAccess_traps, branches_jump, bundle_traps,
    period_resumes, budget_suspends⟩
  subst ha
  cases r with
  | done v =>
    have hdone := load_done (dt := dt) hs hf hx hL hrun himp hk hload hal hle hdst hread
    rwa [lTake_eq _ _ hdst] at hdone
  | err k => exact load_err hs hf hx hL hrun himp hk hload hal hread
  | wait => exact load_wait hs hf hx hL hrun himp hk hload hal hread
end

section
/-!
SUPPORT. What a run of writes changes, as chains of `changesOnly`: one link for each write, event and piece.
-/
namespace Sys2Proof.Machine

section
variable {fs : List Field} {ps : List Piece} {z s t : State}

theorem changesOnly.wr (h : changesOnly fs ps z s) {f : Field} (v : Nat) (hf : f ∈ fs) : changesOnly fs ps z (s.wr f v) :=
  ⟨fieldsOnly_wr h.1 v hf, wr_parts _ _ _ h.2 (by simp)⟩

theorem changesOnly.set1 (h : changesOnly fs ps z s) {f : Field} (hf : f ∈ fs) : changesOnly fs ps z (s.set1 f) := h.wr 1 hf
theorem changesOnly.clr (h : changesOnly fs ps z s) {f : Field} (hf : f ∈ fs) : changesOnly fs ps z (s.clr f) := h.wr 0 hf
theorem changesOnly.count (h : changesOnly fs ps z s) {f : Field} (d : Nat) (hf : f ∈ fs) : changesOnly fs ps z (s.count f d) := h.wr _ hf
theorem changesOnly.inc (h : changesOnly fs ps z s) {f : Field} (hf : f ∈ fs) : changesOnly fs ps z (s.inc f) := h.wr _ hf
theorem changesOnly.setBit (h : changesOnly fs ps z s) {f : Field} (i : Nat) (hf : f ∈ fs) : changesOnly fs ps z (s.setBit f i) := h.wr _ hf
theorem changesOnly.clrBit (h : changesOnly fs ps z s) {f : Field} (i : Nat) (hf : f ∈ fs) : changesOnly fs ps z (s.clrBit f i) := h.wr _ hf

theorem changesOnly.wrC (h : changesOnly fs ps z s) {f : Field} (v : Nat) (hf : f ∈ fs) : changesOnly fs ps z (s.wrC f v) :=
  ⟨fieldsOnly_wrC h.1 v hf, wrC_parts _ _ _ h.2 (by simp)⟩

theorem changesOnly.raise (h : changesOnly fs ps z s) (e : Nat) (hp : Piece.flight ∈ ps) : changesOnly fs ps z (s.raise e) :=
  ⟨fieldsOnly_raise h.1, State.raise_parts s e z h.2 (by simp [hp])⟩

/-- A step that leaves both register files alone changes the pieces `qs` at most. -/
theorem changesOnly.pieces (h : changesOnly fs ps z s) (qs : List Piece) (hr : t.regs = s.regs) (hc : t.com = s.com) (ht : partsOnly qs s t) (hp : ∀ q ∈ qs, q ∈ ps) : changesOnly fs ps z t :=
  ⟨fieldsOnly_same h.1 hr hc, parts_step qs h.2 ht (List.all_eq_true.2 fun q hq => decide_eq_true (by simp [hp q hq]))⟩

theorem changesOnly.withRtc (h : changesOnly fs ps z s) (x : Rtc) (hp : Piece.rtc ∈ ps) : changesOnly fs ps z { s with rtc := x } := h.pieces [.rtc] rfl rfl (by simp [partsOnly_refl]) (by simp [hp])
theorem changesOnly.withPwr (h : changesOnly fs ps z s) (x : Pwr) (hp : Piece.pwr ∈ ps) : changesOnly fs ps z { s with pwr := x } := h.pieces [.pwr] rfl rfl (by simp [partsOnly_refl]) (by simp [hp])
theorem changesOnly.withCph (h : changesOnly fs ps z s) (x : Cph) (hp : Piece.cph ∈ ps) : changesOnly fs ps z { s with cph := x } := h.pieces [.cph] rfl rfl (by simp [partsOnly_refl]) (by simp [hp])
theorem changesOnly.withPar (h : changesOnly fs ps z s) (x : Par) (hp : Piece.par ∈ ps) : changesOnly fs ps z { s with par := x } := h.pieces [.par] rfl rfl (by simp [partsOnly_refl]) (by simp [hp])
theorem changesOnly.withFlc (h : changesOnly fs ps z s) (x : Flc) (hp : Piece.flc ∈ ps) : changesOnly fs ps z { s with flc := x } := h.pieces [.flc] rfl rfl (by simp [partsOnly_refl]) (by simp [hp])
theorem changesOnly.withMir (h : changesOnly fs ps z s) (x : Mir) (hp : Piece.mir ∈ ps) : changesOnly fs ps z { s with mir := x } := h.pieces [.mir] rfl rfl (by simp [partsOnly_refl]) (by simp [hp])
theorem changesOnly.withTmrs (h : changesOnly fs ps z s) (x : List Tmr) (hp : Piece.tmrs ∈ ps) : changesOnly fs ps z { s with tmrs := x } := h.pieces [.tmrs] rfl rfl (by simp [partsOnly_refl]) (by simp [hp])
theorem changesOnly.withSpx (h : changesOnly fs ps z s) (x : List Spx) (hp : Piece.spx ∈ ps) : changesOnly fs ps z { s with spx := x } := h.pieces [.spx] rfl rfl (by simp [partsOnly_refl]) (by simp [hp])
theorem changesOnly.withRdata (h : changesOnly fs ps z s) (x : List (Nat × Nat)) (hp : Piece.rdata ∈ ps) : changesOnly fs ps z { s with rdata := x } := h.pieces [.rdata] rfl rfl (by simp [partsOnly_refl]) (by simp [hp])
theorem changesOnly.withFlight (h : changesOnly fs ps z s) (x : List Nat) (hp : Piece.flight ∈ ps) : changesOnly fs ps z { s with flight := x } := h.pieces [.flight] rfl rfl (by simp [partsOnly_refl]) (by simp [hp])
theorem changesOnly.withMem (h : changesOnly fs ps z s) (x : List Host.Cell) (hp : Piece.mem ∈ ps) : changesOnly fs ps z { s with mem := x } := h.pieces [.mem] rfl rfl (by simp [partsOnly_refl]) (by simp [hp])

theorem changesOnly.ite {c : Prop} [Decidable c] (hs : c → changesOnly fs ps z s) (ht : ¬ c → changesOnly fs ps z t) : changesOnly fs ps z (if c then s else t) := by
  split
  · next hc => exact hs hc
  · next hc => exact ht hc

theorem changesOnly.trans (h : changesOnly fs ps z s) (h' : changesOnly fs ps s t) : changesOnly fs ps z t :=
  ⟨fun f hf => ⟨(h'.1 f hf).1.trans (h.1 f hf).1, (h'.1 f hf).2.trans (h.1 f hf).2⟩, partsOnly_trans h.2 h'.2⟩

theorem changesOnly.mono {gs : List Field} {qs : List Piece} (h : changesOnly fs ps s t) (hf : ∀ f ∈ fs, f ∈ gs) (hp : ∀ p ∈ ps, p ∈ qs) : changesOnly gs qs s t :=
  ⟨fun f hg => h.1 f fun g hm => hg g (hf g hm), partsOnly_mono h.2 (List.all_eq_true.2 fun q hq => decide_eq_true (by
    simp only [List.mem_cons] at hq ⊢
    exact hq.imp_right (Or.imp_right (hp q))))⟩

/-- A field that none of those listed shares its key with reads as it did. -/
theorem changesOnly.rd (h : changesOnly fs ps s t) (f : Field) (hf : ∀ g ∈ fs, f.key ≠ g.key) : t.rd f = s.rd f := (h.1 f hf).1

end

end Sys2Proof.Machine
end

section
/-!
SUPPORT. The debug port: its instructions, the accesses of DBGMEM and the commands of DBGCORE (R768 to R771).
-/
namespace Sys2Proof.Machine

/-! ### The port's own data -/

/-- A change of the debug port's data touches no register. -/
theorem changesOnly_jtagMod (f : Jtag → Jtag) (s : State) : changesOnly [] [.jtag] s (jtagMod f s) :=
  (changesOnly_refl _ _ s).pieces [.jtag] rfl rfl (jtagMod_parts f s s (partsOnly_refl _ s) rfl) (by simp)

/-- A cell of the boundary register is scanned whole. -/
theorem bitOf_cells {cells i : Nat} (h : i < 189) : bitOf (cells % 2 ^ 189) i = bitOf cells i := by
  simp only [bitOf_eq_ite, Nat.testBit_mod_two_pow, h, decide_true, Bool.true_and]

/-- Only EXTEST drives a ball (R769). -/
theorem ballDriven_of_ir {j : Jtag} (h : j.ir ≠ 0) (b : Nat) : ballDriven j b = none := by simp [ballDriven, h]

/-! ### The instructions that scan (R768, R769) -/

theorem extest_drives (sample cells dt : Nat) (s : State) :
    completes (.extest sample cells dt) s (fun t => t.jtag = { s.jtag with ir := 0, scan := sample % 2 ^ 189, cells := cells % 2 ^ 189 } ∧ changesOnly [] [.jtag] (s.pass dt) t ∧
      ∀ b, b < 60 → b ≠ 4 → bitOf cells (3 * b + 2) = 1 → ballDriven t.jtag b = some (bitOf cells (3 * b + 1) == 1)) := by
  refine ⟨_, rfl, rfl, changesOnly_jtagMod _ _, fun b hb h4 hen => ?_⟩
  have hout : ballInputOnly b = false := by simp [ballInputOnly, h4, hb]
  have hin : b < ballCount := Nat.lt_trans hb (by decide)
  simp only [extest, jtagMod, ballDriven, hin, hout, bitOf_cells (show 3 * b + 1 < 189 by omega), bitOf_cells (show 3 * b + 2 < 189 by omega), hen, and_self, if_true]

theorem samplePreload_scans (sample cells dt : Nat) (s : State) :
    completes (.samplePreload sample cells dt) s (fun t => t.jtag = { s.jtag with ir := 1, scan := sample % 2 ^ 189, cells := cells % 2 ^ 189 } ∧ changesOnly [] [.jtag] (s.pass dt) t ∧
      ∀ b, ballDriven t.jtag b = none) :=
  ⟨_, rfl, rfl, changesOnly_jtagMod _ _, ballDriven_of_ir (by decide : 1 ≠ 0)⟩

theorem idcode_scans (dt : Nat) (s : State) :
    completes (.idcode dt) s (fun t => t.jtag.ir = 2 ∧ t.jtag.scan = s.rd Reg.SYS_ID_REV % 16 * 2 ^ 28 + 0x07440367 ∧ changesOnly [] [.jtag] (s.pass dt) t) := by
  refine ⟨_, rfl, rfl, ?_, changesOnly_jtagMod _ _⟩
  simp only [jtagMod, idcode, State.rd_pass]
  omega

theorem highz_releases (dt : Nat) (s : State) :
    completes (.highz dt) s (fun t => t.jtag.ir = 4 ∧ ballsHeld t.jtag = true ∧ (∀ b, ballDriven t.jtag b = none) ∧ changesOnly [] [.jtag] (s.pass dt) t) :=
  ⟨_, rfl, rfl, rfl, ballDriven_of_ir (by decide : 4 ≠ 0), changesOnly_jtagMod _ _⟩

theorem bypass_selects (code dt : Nat) (s : State) (hc : code < 32) (hl : code ∉ [0, 1, 2, 4, 8, 9, 10]) :
    completes (.bypass code dt) s (fun t => t.jtag.ir = code ∧ (∀ b, ballDriven t.jtag b = none) ∧ changesOnly [] [.jtag] (s.pass dt) t) := by
  have hmod : code % 32 = code := Nat.mod_eq_of_lt hc
  have hok : (!irListed code) = true := by simpa [irListed, hmod] using hl
  have h0 : code % 32 ≠ 0 := by
    rw [hmod]
    rintro rfl
    simp at hl
  exact completes_of_onlyIf rfl hok ⟨hmod, ballDriven_of_ir h0, changesOnly_jtagMod _ _⟩

/-! ### DBGMEM (R770) -/

/-- The state in which a scan with no access pending makes its own. -/
def dbgScanned (s : State) : State := jtagMod (fun j => { j with ir := 8, scan := dbgCapture j }) s

theorem dbgCapture_of_idle {j : Jtag} (hp : j.pend = none) : dbgCapture j = b2n j.err * 2 ^ 66 + j.op * 2 ^ 64 + j.addr * 2 ^ 32 + j.data := by
  rw [dbgCapture, hp, Option.isSome_none, show b2n false = 0 from rfl, Nat.zero_mul, Nat.zero_add]

theorem dbgmem_of_idle {op addr data : Nat} {s : State} (hp : s.jtag.pend = none) :
    dbgmem op addr data s = if op = 1 ∨ op = 2 then dbgAccess op addr data (dbgScanned s) else dbgScanned s := by
  simp only [dbgmem, hp, Option.isNone_none, true_and]
  split <;> simp only [dbgScanned, jtagMod]

theorem dbgAccess_reads {addr data v : Nat} {s u : State} (h : busRead (dbgReq addr 0) false s = (.done v, u)) :
    dbgAccess 1 addr data s = jtagMod (fun j => { j with pend := none, err := false, op := 1, addr := addr % 2 ^ 32, data := v }) u := by
  simp [dbgAccess, h]

theorem dbgAccess_failed {addr data k : Nat} {s u : State} (h : busRead (dbgReq addr 0) false s = (.err k, u)) :
    dbgAccess 1 addr data s = jtagMod (fun j => { j with pend := none, err := true, op := 1, addr := addr % 2 ^ 32, data := 0 }) u := by
  simp [dbgAccess, h]

theorem dbgmem_reads (addr data v dt : Nat) (s u : State) (hp : s.jtag.pend = none)
    (hr : busRead ⟨22, false, addr % 2 ^ 32 / 4 * 4, 4, 0, false⟩ false (jtagMod (fun j => { j with ir := 8, scan := dbgCapture j }) (s.pass dt)) = (.done v, u)) :
    completes (.dbgmem 1 addr data dt) s (fun t => t = jtagMod (fun j => { j with pend := none, err := false, op := 1, addr := addr % 2 ^ 32, data := v }) u) := by
  refine ⟨_, rfl, ?_⟩
  rw [dbgmem_of_idle (s := s.pass dt) hp, if_pos (.inl rfl)]
  exact dbgAccess_reads hr

theorem dbgmem_fails (addr data k dt : Nat) (s u : State) (hp : s.jtag.pend = none)
    (hr : busRead ⟨22, false, addr % 2 ^ 32 / 4 * 4, 4, 0, false⟩ false (jtagMod (fun j => { j with ir := 8, scan := dbgCapture j }) (s.pass dt)) = (.err k, u)) :
    completes (.dbgmem 1 addr data dt) s (fun t => t.jtag.err = true ∧ t.jtag.pend = none) := by
  refine ⟨_, rfl, ?_⟩
  rw [dbgmem_of_idle (s := s.pass dt) hp, if_pos (.inl rfl), dbgScanned, dbgAccess_failed hr]
  exact ⟨rfl, rfl⟩

/-- A write that lands is neither refused nor asleep, and DBGMEM makes it. -/
theorem dbgWrite_of_lands {w : BusReq} {s : State} (h : writeLands w s = true) : dbgWrite w s = targetWrite false w s := by
  have hw := busWriteP_of_lands h
  simp only [writeLands, Bool.and_eq_true, beq_iff_eq, Bool.not_eq_true', Option.isNone_iff_eq_none] at h
  obtain ⟨⟨⟨⟨hk, -⟩, -⟩, hasleep⟩, -⟩ := h
  simp only [dbgWrite, hk, hasleep, if_true]
  exact hw

theorem arrayWrite_jtag (a : Nat) (l : List Nat) (loader : Bool) (s : State) : (arrayWrite a l loader s).jtag = s.jtag :=
  arrayWrite_parts a l loader s s (partsOnly_refl [.par, .mem] s) rfl .jtag (by decide)
theorem mirrorOut_jtag (a : Nat) (l : List Nat) (s : State) : (mirrorOut a l s).jtag = s.jtag :=
  mirrorOut_parts a l s s (partsOnly_refl [.mir, .regs] s) rfl .jtag (by decide)

theorem mod_div_pow_mod_byte (v : Nat) {i : Nat} (hi : i < 4) : v % 2 ^ 32 / 256 ^ i % 256 = v / 256 ^ i % 256 := by
  interval_cases i <;> omega

theorem dbgmem_writes (addr data a dt : Nat) (s : State) (hp : s.jtag.pend = none) (hm : memWf s.mem = true) (ha : a = addr % 2 ^ 32 / 4 * 4) (hlo : 0x10000000 ≤ a) (hhi : a < 0x10600000)
    (hl : writeLands ⟨22, false, a, 4, data % 2 ^ 32, false⟩ (s.pass dt) = true) :
    completes (.dbgmem 2 addr data dt) s (fun t => (∀ i, i < 4 → (memRd t.mem (a + i)).toNat = data / 256 ^ i % 256) ∧ (∀ x, x < a ∨ a + 4 ≤ x → memRd t.mem x = memRd s.mem x) ∧
      t.jtag.err = false ∧ t.jtag.pend = none ∧ t.jtag.scan = dbgCapture s.jtag) := by
  refine ⟨_, rfl, ?_⟩
  have hw : dbgReq addr data = ⟨22, false, a, 4, data % 2 ^ 32, false⟩ := by rw [dbgReq, ← ha]
  have hl' : writeLands ⟨22, false, a, 4, data % 2 ^ 32, false⟩ (dbgScanned (s.pass dt)) = true := hl
  rw [dbgmem_of_idle (s := s.pass dt) hp, if_pos (.inr rfl)]
  simp only [dbgAccess, if_true, hw]
  rw [dbgWrite_of_lands hl', targetWrite_sram hlo (Nat.le_of_lt hhi)]
  obtain ⟨hin, hout⟩ : Stores a 4 (data % 2 ^ 32) s (mirrorOut a (leBytes 4 (data % 2 ^ 32)) (arrayWrite a (leBytes 4 (data % 2 ^ 32)) false (dbgScanned (s.pass dt)))) :=
    stores_of_mem hm (mirrorOut_mem _ _ _)
  refine ⟨fun i hi => (hin i hi).trans (mod_div_pow_mod_byte data hi), hout, rfl, rfl, ?_⟩
  simp only [jtagMod, mirrorOut_jtag, arrayWrite_jtag]
  rfl

theorem dbgmem_scans (op addr data dt : Nat) (s : State) (hp : s.jtag.pend = none) (h1 : op ≠ 1) (h2 : op ≠ 2) :
    completes (.dbgmem op addr data dt) s (fun t => t.jtag = { s.jtag with ir := 8, scan := b2n s.jtag.err * 2 ^ 66 + s.jtag.op * 2 ^ 64 + s.jtag.addr * 2 ^ 32 + s.jtag.data } ∧
      changesOnly [] [.jtag] (s.pass dt) t) := by
  refine ⟨_, rfl, ?_⟩
  rw [dbgmem_of_idle (s := s.pass dt) hp, if_neg (by simp [h1, h2])]
  exact ⟨congrArg (fun n => { s.jtag with ir := 8, scan := n }) (dbgCapture_of_idle hp), changesOnly_jtagMod _ _⟩

/-! ### DBGCORE (R771) -/

section
variable {ini : Nat} (f : Core → Core) {s : State}

theorem coreIx_ne {ini k : Nat} (hi : 1 ≤ ini) (hi' : ini ≤ 4) (hk : k ≠ ini) (h5 : k ≠ 5) (h6 : k ≠ 6) : coreIx ini ≠ coreIx k := by
  simp only [coreIx]
  split <;> split <;> omega

/-- A command that DBGEN lets through changes its own core alone. -/
theorem dbgcore_changes (hi : 1 ≤ ini) (hi' : ini ≤ 4) (hen : s.on Reg.PROT_CTL_DBGEN = true) (hlen : s.cores.length = 14) :
    coreOf (dbgcore ini f s) ini = f (coreOf s ini) ∧ (∀ k, k ≠ ini → k ≤ 15 → k ≠ 5 → k ≠ 6 → coreOf (dbgcore ini f s) k = coreOf s k) ∧ changesOnly [] [.cores, .jtag] s (dbgcore ini f s) := by
  have hok : dbgcoreOk ini s = true := by simp [dbgcoreOk, hi, hi', hen]
  simp only [dbgcore, hok, if_true]
  refine ⟨coreOf_coreMod ?_, fun k hk _ h5 h6 => getD_modAt_other _ _ _ (coreIx_ne hi hi' hk h5 h6), ?_⟩
  · simp only [coreIx, hi', if_true, jtagMod, hlen]
    omega
  · exact ((changesOnly_jtagMod _ s).mono (by simp) (by simp)).pieces [.cores] rfl rfl (coreMod_parts ini f _ _ (partsOnly_refl _ _) rfl) (by simp)

/-- Without DBGEN, or on a core that is none of the application's, a command is a scan alone. -/
theorem dbgcore_blocked (h : s.on Reg.PROT_CTL_DBGEN = false ∨ ini = 0 ∨ 5 ≤ ini) :
    (dbgcore ini f s).jtag.ir = 9 ∧ (dbgcore ini f s).cores = s.cores ∧ changesOnly [] [.jtag] s (dbgcore ini f s) := by
  have hok : dbgcoreOk ini s = false := by
    rcases h with h | rfl | h
    · simp [dbgcoreOk, h]
    · rfl
    · simp [dbgcoreOk, Nat.not_le.2 h]
  simp only [dbgcore, hok, Bool.false_eq_true, if_false]
  exact ⟨rfl, rfl, changesOnly_jtagMod _ _⟩

end

theorem dbgCommand_blocked (i : Instr) (ini dt : Nat) (s : State) (hi : i ∈ [Instr.dbgHalt ini dt, .dbgResume ini dt, .dbgStep ini dt]) (h : s.on Reg.PROT_CTL_DBGEN = false ∨ ini = 0 ∨ 5 ≤ ini) :
    completes i s (fun t => t.jtag.ir = 9 ∧ t.cores = s.cores ∧ changesOnly [] [.jtag] (s.pass dt) t) := by
  simp only [List.mem_cons, List.not_mem_nil, or_false] at hi
  rcases hi with rfl | rfl | rfl <;> exact ⟨_, rfl, dbgcore_blocked _ (s := s.pass dt) h⟩

/-! ### The resets (R768) -/

theorem sysrst_resets (dt : Nat) (s : State) :
    completes (.sysrst dt) s (fun t => t.rd Reg.SYS_RSTCAUSE_JTAG = 1 ∧ t.rd Reg.SYS_BOOT_PHASE = 0 ∧ t.mem = [] ∧ t.fuses = s.fuses ∧ t.jtag.ir = 10 ∧ t.jtag.cells = s.jtag.cells) := by
  obtain ⟨hcause, hrest, hmem, hfuses⟩ := sysReset_leaves (cause := Reg.SYS_RSTCAUSE_JTAG) rfl (s.pass dt)
  have hjtag : (flcCut (s.pass dt)).jtag = s.jtag := flcCut_frame (s.pass dt) .jtag (by decide)
  refine ⟨_, rfl, hcause, (hrest Reg.SYS_BOOT_PHASE (by decide)).trans (if_neg (by decide)), hmem, hfuses, rfl, ?_⟩
  rw [← hjtag]
  rfl

end Sys2Proof.Machine

open Sys2Proof Sys2Proof.Machine

/-- Settles O60: each instruction of the port by its own lemma. -/
theorem debugPort : Obligations.DebugPort := by
  unfold Obligations.DebugPort
  refine ⟨extest_drives, samplePreload_scans, idcode_scans, highz_releases,
    bypass_selects, dbgmem_reads, dbgmem_fails, dbgmem_writes, dbgmem_scans, fun ini dt s hi hi' hen hlen => ?_, dbgCommand_blocked, sysrst_resets,
    fun dt s => ⟨_, rfl, rfl, rfl, changesOnly_jtagMod _ _⟩⟩
  obtain ⟨hown, hother, hframe⟩ := dbgcore_changes (fun c => { c with halted := true, oneStep := false }) (s := s.pass dt) hi hi' hen hlen
  obtain ⟨hrun, -, hrunFrame⟩ := dbgcore_changes (fun c => { c with halted := false, oneStep := false }) (s := s.pass dt) hi hi' hen hlen
  obtain ⟨hstep, -, hstepFrame⟩ := dbgcore_changes (fun c => { c with oneStep := c.halted }) (s := s.pass dt) hi hi' hen hlen
  exact ⟨⟨_, rfl, hown, hother, hframe⟩, ⟨_, rfl, hrun, hrunFrame⟩, ⟨_, rfl, hstep, hstepFrame⟩⟩
end

section
/-!
SUPPORT. The real-time clock: the calendar's arithmetic, a second of it, the set registers, the wake and the loss of the crystal (R586 to R593).
-/
namespace Sys2Proof.Machine

/-! ### The calendar's arithmetic (R586) -/

theorem rtcLeap_iff (y : Nat) : rtcLeap y = true ↔ (y + 2000) % 4 = 0 ∧ ((y + 2000) % 100 ≠ 0 ∨ (y + 2000) % 400 = 0) := by
  simp only [rtcLeap, Bool.or_eq_true, Bool.and_eq_true, Bool.not_eq_true', beq_iff_eq, beq_eq_false_iff_ne]
  omega

/-- A year's end counts one leap year more where the year is one. -/
theorem rtcLeapsBefore_succ (y : Nat) : rtcLeapsBefore (y + 1) = rtcLeapsBefore y + b2n (rtcLeap y) := by
  have hiff := rtcLeap_iff y
  cases hl : rtcLeap y <;> simp only [hl, Bool.false_eq_true, false_iff, true_iff] at hiff <;> simp only [rtcLeapsBefore, b2n, if_true, Bool.false_eq_true, if_false] <;> omega

theorem rtcMonthStart_succ (y : Nat) {m : Nat} (hm : 1 ≤ m) : rtcMonthStart y (m + 1) = rtcMonthStart y m + rtcMonthDays y m := if_neg (by omega)

theorem rtcMonthDays_le (y m : Nat) : rtcMonthDays y m ≤ 31 := by
  unfold rtcMonthDays
  split <;> try split
  all_goals omega

/-- The months of a year, December's days included. -/
theorem rtcMonthStart_december (y : Nat) : rtcMonthStart y 12 + 31 = 365 + b2n (rtcLeap y) := by
  cases hl : rtcLeap y <;> simp (decide := true) [rtcMonthStart, rtcMonthDays, b2n, hl]

/-- The next date of a valid one is valid and lies one day on, but on the last day of 2399. -/
theorem rtcNextDay_spec {y m d : Nat} (hy : y ≤ 399) (hm : 1 ≤ m) (hm' : m ≤ 12) (hd : 1 ≤ d) (hd' : d ≤ rtcMonthDays y m) (hlast : ¬ (y = 399 ∧ m = 12 ∧ d = 31)) :
    ∃ y' m' d', rtcNextDay y m d = (y', m', d', false) ∧ y' < 2 ^ 9 ∧ m' < 2 ^ 4 ∧ d' < 2 ^ 5 ∧ rtcDayNo y' m' d' = rtcDayNo y m d + 1 := by
  have hmax := rtcMonthDays_le y m
  by_cases hin : d < rtcMonthDays y m
  · refine ⟨y, m, d + 1, by simp [rtcNextDay, hin], by omega, by omega, by omega, ?_⟩
    simp only [rtcDayNo]
    omega
  by_cases hyear : m < 12
  · refine ⟨y, m + 1, 1, by simp [rtcNextDay, hin, hyear], by omega, by omega, by omega, ?_⟩
    simp only [rtcDayNo, rtcMonthStart_succ y hm]
    omega
  · obtain rfl : m = 12 := by omega
    have hdays : rtcMonthDays y 12 = 31 := rfl
    have hless : y < 399 := by omega
    refine ⟨y + 1, 1, 1, by simp [rtcNextDay, hin, hless], by omega, by omega, by omega, ?_⟩
    have hstart : rtcMonthStart (y + 1) 1 = 0 := rfl
    have hdec := rtcMonthStart_december y
    simp only [rtcDayNo, rtcLeapsBefore_succ, hstart]
    omega

/-! ### A second (R586, R587) -/

/-- The calendar's registers. -/
def calFields : List Field :=
  [Reg.RTC_DATE_YEAR, Reg.RTC_DATE_MONTH, Reg.RTC_DATE_DAY, Reg.RTC_DATE_WDAY, Reg.RTC_TIME_HOUR, Reg.RTC_TIME_MIN, Reg.RTC_TIME_SEC]

theorem rtcPutTime_changes (h mi sec : Nat) (s : State) : changesOnly [Reg.RTC_TIME_HOUR, Reg.RTC_TIME_MIN, Reg.RTC_TIME_SEC] [] s (rtcPutTime h mi sec s) :=
  (((changesOnly_refl _ _ s).wr h (by simp)).wr mi (by simp)).wr sec (by simp)

theorem rtcPutTime_reads {h mi sec : Nat} (hh : h < 24) (hmi : mi < 60) (hs : sec < 60) (s : State) :
    (rtcPutTime h mi sec s).rd Reg.RTC_TIME_HOUR = h ∧ (rtcPutTime h mi sec s).rd Reg.RTC_TIME_MIN = mi ∧ (rtcPutTime h mi sec s).rd Reg.RTC_TIME_SEC = sec := by
  refine ⟨?_, ?_, ?_⟩ <;> simp (decide := true) only [rtcPutTime, State.rd_wr, if_true, if_false, Reg.RTC_TIME_HOUR, Reg.RTC_TIME_MIN, Reg.RTC_TIME_SEC] <;> omega

theorem rtcPutDate_changes (y m d : Nat) (s : State) : changesOnly [Reg.RTC_DATE_YEAR, Reg.RTC_DATE_MONTH, Reg.RTC_DATE_DAY] [] s (rtcPutDate y m d s) :=
  (((changesOnly_refl _ _ s).wr y (by simp)).wr m (by simp)).wr d (by simp)

theorem rtcPutDate_reads {y m d : Nat} (hy : y < 2 ^ 9) (hm : m < 2 ^ 4) (hd : d < 2 ^ 5) (s : State) :
    (rtcPutDate y m d s).rd Reg.RTC_DATE_YEAR = y ∧ (rtcPutDate y m d s).rd Reg.RTC_DATE_MONTH = m ∧ (rtcPutDate y m d s).rd Reg.RTC_DATE_DAY = d := by
  refine ⟨?_, ?_, ?_⟩ <;> simp (decide := true) only [rtcPutDate, State.rd_wr, if_true, if_false, Reg.RTC_DATE_YEAR, Reg.RTC_DATE_MONTH, Reg.RTC_DATE_DAY] <;> omega

/-- A second that ends no day. -/
theorem rtcTick_inDay {s : State} (hh : s.rd Reg.RTC_TIME_HOUR < 24) (hmi : s.rd Reg.RTC_TIME_MIN < 60) (hs : s.rd Reg.RTC_TIME_SEC < 60)
    (hin : s.rd Reg.RTC_TIME_SEC < 59 ∨ s.rd Reg.RTC_TIME_MIN < 59 ∨ s.rd Reg.RTC_TIME_HOUR < 23) :
    ∃ h mi sec, rtcTick s = rtcPutTime h mi sec s ∧ h < 24 ∧ mi < 60 ∧ sec < 60 ∧
      h * 3600 + mi * 60 + sec = s.rd Reg.RTC_TIME_HOUR * 3600 + s.rd Reg.RTC_TIME_MIN * 60 + s.rd Reg.RTC_TIME_SEC + 1 := by
  simp only [rtcTick]
  split
  · exact ⟨_, _, _, rfl, hh, hmi, by omega, by omega⟩
  split
  · exact ⟨_, _, _, rfl, hh, by omega, by omega, by omega⟩
  split
  · exact ⟨_, _, _, rfl, by omega, by omega, by omega, by omega⟩
  · omega

theorem rtcTick_midnight {s : State} (hh : s.rd Reg.RTC_TIME_HOUR = 23) (hmi : s.rd Reg.RTC_TIME_MIN = 59) (hs : s.rd Reg.RTC_TIME_SEC = 59) : rtcTick s = rtcMidnight (rtcPutTime 0 0 0 s) := by
  simp [rtcTick, hh, hmi, hs]

theorem rtcMidnight_eq {s : State} {y m d : Nat} {w : Bool} (h : rtcNextDay (s.rd Reg.RTC_DATE_YEAR) (s.rd Reg.RTC_DATE_MONTH) (s.rd Reg.RTC_DATE_DAY) = (y, m, d, w)) :
    rtcMidnight s = if w then ((rtcPutDate y m d s).wr Reg.RTC_DATE_WDAY ((s.rd Reg.RTC_DATE_WDAY + 1) % 7)).set1 Reg.RTC_STAT_YWRAP
      else (rtcPutDate y m d s).wr Reg.RTC_DATE_WDAY ((s.rd Reg.RTC_DATE_WDAY + 1) % 7) := by
  rw [rtcMidnight, h]

/-- What a second does to the calendar. -/
structure Ticked (s t : State) : Prop where
  now : rtcNow t = rtcNow s + 1
  changes : changesOnly calFields [] s t
  inDay : s.rd Reg.RTC_TIME_SEC < 59 ∨ s.rd Reg.RTC_TIME_MIN < 59 ∨ s.rd Reg.RTC_TIME_HOUR < 23 →
    t.rd Reg.RTC_DATE_WDAY = s.rd Reg.RTC_DATE_WDAY ∧ t.rd Reg.RTC_DATE_DAY = s.rd Reg.RTC_DATE_DAY ∧ t.rd Reg.RTC_DATE_MONTH = s.rd Reg.RTC_DATE_MONTH ∧ t.rd Reg.RTC_DATE_YEAR = s.rd Reg.RTC_DATE_YEAR
  midnight : s.rd Reg.RTC_TIME_SEC = 59 → s.rd Reg.RTC_TIME_MIN = 59 → s.rd Reg.RTC_TIME_HOUR = 23 →
    t.rd Reg.RTC_DATE_WDAY = (s.rd Reg.RTC_DATE_WDAY + 1) % 7 ∧ t.rd Reg.RTC_TIME_HOUR = 0 ∧ t.rd Reg.RTC_TIME_MIN = 0 ∧ t.rd Reg.RTC_TIME_SEC = 0

section
variable {s : State} (hy : s.rd Reg.RTC_DATE_YEAR ≤ 399) (hm : 1 ≤ s.rd Reg.RTC_DATE_MONTH) (hm' : s.rd Reg.RTC_DATE_MONTH ≤ 12) (hd : 1 ≤ s.rd Reg.RTC_DATE_DAY)
  (hd' : s.rd Reg.RTC_DATE_DAY ≤ rtcMonthDays (s.rd Reg.RTC_DATE_YEAR) (s.rd Reg.RTC_DATE_MONTH)) (hh : s.rd Reg.RTC_TIME_HOUR < 24) (hmi : s.rd Reg.RTC_TIME_MIN < 60) (hs : s.rd Reg.RTC_TIME_SEC < 60)

include hh hmi hs in
theorem ticked_inDay (hin : s.rd Reg.RTC_TIME_SEC < 59 ∨ s.rd Reg.RTC_TIME_MIN < 59 ∨ s.rd Reg.RTC_TIME_HOUR < 23) : Ticked s (rtcTick s) := by
  obtain ⟨h, mi, sec, heq, hh', hmi', hs', hsum⟩ := rtcTick_inDay hh hmi hs hin
  have hch := rtcPutTime_changes h mi sec s
  obtain ⟨hrh, hrmi, hrs⟩ := rtcPutTime_reads hh' hmi' hs' s
  rw [heq]
  refine ⟨?_, hch.mono (by decide) (by simp), fun _ => ⟨hch.rd _ (by decide), hch.rd _ (by decide), hch.rd _ (by decide), hch.rd _ (by decide)⟩, fun h59 m59 h23 => by omega⟩
  simp only [rtcNow, rtcSeconds, hrh, hrmi, hrs, hch.rd Reg.RTC_DATE_YEAR (by decide), hch.rd Reg.RTC_DATE_MONTH (by decide), hch.rd Reg.RTC_DATE_DAY (by decide)]
  simp only [Nat.add_assoc] at hsum ⊢
  rw [hsum]

include hy hm hm' hd hd' in
theorem ticked_midnight (h23 : s.rd Reg.RTC_TIME_HOUR = 23) (h59 : s.rd Reg.RTC_TIME_MIN = 59) (hs59 : s.rd Reg.RTC_TIME_SEC = 59)
    (hlast : ¬ (s.rd Reg.RTC_DATE_YEAR = 399 ∧ s.rd Reg.RTC_DATE_MONTH = 12 ∧ s.rd Reg.RTC_DATE_DAY = 31)) : Ticked s (rtcTick s) := by
  obtain ⟨y, m, d, hnext, hy', hm'', hd'', hday⟩ := rtcNextDay_spec hy hm hm' hd hd' hlast
  have htime := rtcPutTime_changes 0 0 0 s
  obtain ⟨hrh, hrmi, hrs⟩ := rtcPutTime_reads (show 0 < 24 by decide) (show 0 < 60 by decide) (show 0 < 60 by decide) s
  have hdate := rtcPutDate_changes y m d (rtcPutTime 0 0 0 s)
  obtain ⟨hry, hrm, hrd⟩ := rtcPutDate_reads hy' hm'' hd'' (rtcPutTime 0 0 0 s)
  have hnext' : rtcNextDay ((rtcPutTime 0 0 0 s).rd Reg.RTC_DATE_YEAR) ((rtcPutTime 0 0 0 s).rd Reg.RTC_DATE_MONTH) ((rtcPutTime 0 0 0 s).rd Reg.RTC_DATE_DAY) = (y, m, d, false) := by
    rw [htime.rd _ (by decide), htime.rd _ (by decide), htime.rd _ (by decide), hnext]
  have hw : (rtcPutTime 0 0 0 s).rd Reg.RTC_DATE_WDAY = s.rd Reg.RTC_DATE_WDAY := htime.rd _ (by decide)
  have heq : rtcTick s = (rtcPutDate y m d (rtcPutTime 0 0 0 s)).wr Reg.RTC_DATE_WDAY ((s.rd Reg.RTC_DATE_WDAY + 1) % 7) := by
    rw [rtcTick_midnight h23 h59 hs59, rtcMidnight_eq hnext', hw, if_neg Bool.false_ne_true]
  have hread : ∀ f : Field, f.key ≠ Reg.RTC_DATE_WDAY.key → (rtcTick s).rd f = (rtcPutDate y m d (rtcPutTime 0 0 0 s)).rd f := fun f hf => by rw [heq, State.rd_wr_other _ _ hf]
  refine ⟨?_, ?_, fun hin => by omega, fun _ _ _ => ⟨?_, ?_⟩⟩
  · simp only [rtcNow, rtcSeconds]
    rw [hread _ (by decide), hread _ (by decide), hread _ (by decide), hread _ (by decide), hread _ (by decide), hread _ (by decide), hry, hrm, hrd, hdate.rd _ (by decide), hdate.rd _ (by decide), hdate.rd _ (by decide), hrh, hrmi, hrs, hday]
    omega
  · rw [heq]
    exact ((htime.mono (by decide) (by simp)).trans (hdate.mono (by decide) (by simp))).wr _ (by decide)
  · rw [heq, State.rd_wr_same]
    exact Nat.mod_eq_of_lt (show _ < 2 ^ 3 by omega)
  · rw [hread _ (by decide), hread _ (by decide), hread _ (by decide), hdate.rd _ (by decide), hdate.rd _ (by decide), hdate.rd _ (by decide)]
    exact ⟨hrh, hrmi, hrs⟩

include hy hm hm' hd hd' hh hmi hs in
theorem rtcTick_ticks (hlast : ¬ (s.rd Reg.RTC_DATE_YEAR = 399 ∧ s.rd Reg.RTC_DATE_MONTH = 12 ∧ s.rd Reg.RTC_DATE_DAY = 31 ∧ s.rd Reg.RTC_TIME_HOUR = 23 ∧ s.rd Reg.RTC_TIME_MIN = 59 ∧ s.rd Reg.RTC_TIME_SEC = 59)) :
    Ticked s (rtcTick s) := by
  by_cases hin : s.rd Reg.RTC_TIME_SEC < 59 ∨ s.rd Reg.RTC_TIME_MIN < 59 ∨ s.rd Reg.RTC_TIME_HOUR < 23
  · exact ticked_inDay hh hmi hs hin
  · exact ticked_midnight hy hm hm' hd hd' (by omega) (by omega) (by omega) (by omega)

end

/-- The state with the sub-second count restarted at the last wrap. -/
def ssecWrapped (s : State) : State := { s with rtc := { s.rtc with t0 := (s.rtc.t0 / cycXtal + (32768 - s.rtc.ssec0)) * cycXtal, ssec0 := 0 } }

theorem secondAdvance_eq (s : State) :
    secondAdvance s = if ((rtcTick (ssecWrapped s)).on Reg.RTC_CTL_ALEN && alNow (rtcTick (ssecWrapped s))) = true then alFire (rtcTick (ssecWrapped s)) else rtcTick (ssecWrapped s) := rfl

/-- The alarm's comparison reads the calendar and the alarm's own registers. -/
theorem alNow_alFire (s : State) : alNow (alFire s) = alNow s := by
  have h : ∀ f : Field, f.key ≠ Reg.RTC_STAT_ALF.key → (alFire s).rd f = s.rd f := fun f hf => State.rd_wr_other _ _ hf
  simp (disch := decide) only [alNow, alDate, alTime, alField, State.on, h]

theorem secondAdvance_rd (s : State) {f : Field} (hf : f.key ≠ Reg.RTC_STAT_ALF.key) : (secondAdvance s).rd f = (rtcTick (ssecWrapped s)).rd f := by
  rw [secondAdvance_eq]
  split
  · exact State.rd_wr_other _ _ hf
  · rfl

theorem rtcNow_secondAdvance (s : State) : rtcNow (secondAdvance s) = rtcNow (rtcTick (ssecWrapped s)) := by
  simp (disch := decide) only [rtcNow, secondAdvance_rd]

/-- What a second leaves beside the calendar: the alarm fires where it matches and is enabled (R590). -/
theorem secondAdvance_alarm {s : State} (h : changesOnly calFields [] (ssecWrapped s) (rtcTick (ssecWrapped s))) :
    (if s.on Reg.RTC_CTL_ALEN && alNow (secondAdvance s) then (secondAdvance s).rd Reg.RTC_STAT_ALF = 1 ∧ (secondAdvance s).flight = s.flight ++ [153]
      else (secondAdvance s).rd Reg.RTC_STAT_ALF = s.rd Reg.RTC_STAT_ALF ∧ (secondAdvance s).flight = s.flight) ∧
    (secondAdvance s).rtc.ssec0 = 0 ∧ changesOnly (calFields ++ [Reg.RTC_STAT_ALF]) [.rtc, .flight] s (secondAdvance s) := by
  have heq := secondAdvance_eq s
  revert h heq
  generalize rtcTick (ssecWrapped s) = t
  intro h heq
  have hen : t.on Reg.RTC_CTL_ALEN = s.on Reg.RTC_CTL_ALEN := congrArg (· == 1) (h.rd _ (by decide))
  have hfl : t.flight = s.flight := h.2 .flight (by decide)
  have hrtc : t.rtc = (ssecWrapped s).rtc := h.2 .rtc (by decide)
  have hw : changesOnly (calFields ++ [Reg.RTC_STAT_ALF]) [.rtc, .flight] s (ssecWrapped s) := (changesOnly_refl _ _ s).withRtc _ (by simp)
  have hall := hw.trans (h.mono (fun f hf => List.mem_append_left _ hf) (by simp))
  rw [hen] at heq
  by_cases hc : (s.on Reg.RTC_CTL_ALEN && alNow t) = true
  · rw [heq, if_pos hc, alNow_alFire, if_pos hc]
    exact ⟨⟨State.rd_wr_same _ _ _, congrArg (· ++ [153]) hfl⟩, congrArg Rtc.ssec0 hrtc, (hall.set1 (by simp)).raise 153 (by simp)⟩
  · rw [heq, if_neg hc, if_neg hc]
    exact ⟨⟨h.rd _ (by decide), hfl⟩, congrArg Rtc.ssec0 hrtc, hall⟩

theorem secondAdvance_ticks (y m d h mi sec dt : Nat) (s : State) (hok : secondAdvanceOk (s.pass dt) = true) (hy : y = s.rd Reg.RTC_DATE_YEAR) (hm : m = s.rd Reg.RTC_DATE_MONTH) (hd : d = s.rd Reg.RTC_DATE_DAY)
    (hh : h = s.rd Reg.RTC_TIME_HOUR) (hmi : mi = s.rd Reg.RTC_TIME_MIN) (hsec : sec = s.rd Reg.RTC_TIME_SEC) (hy' : y ≤ 399) (hm1 : 1 ≤ m) (hm2 : m ≤ 12) (hd1 : 1 ≤ d) (hd2 : d ≤ rtcMonthDays y m)
    (hh' : h < 24) (hmi' : mi < 60) (hsec' : sec < 60) (hlast : ¬ (y = 399 ∧ m = 12 ∧ d = 31 ∧ h = 23 ∧ mi = 59 ∧ sec = 59)) :
    completes (.secondAdvance dt) s (fun t => rtcNow t = rtcNow s + 1 ∧ t.rtc.ssec0 = 0 ∧
      (sec < 59 ∨ mi < 59 ∨ h < 23 → t.rd Reg.RTC_DATE_WDAY = s.rd Reg.RTC_DATE_WDAY ∧ t.rd Reg.RTC_DATE_DAY = d ∧ t.rd Reg.RTC_DATE_MONTH = m ∧ t.rd Reg.RTC_DATE_YEAR = y) ∧
      (sec = 59 → mi = 59 → h = 23 → t.rd Reg.RTC_DATE_WDAY = (s.rd Reg.RTC_DATE_WDAY + 1) % 7 ∧ t.rd Reg.RTC_TIME_HOUR = 0 ∧ t.rd Reg.RTC_TIME_MIN = 0 ∧ t.rd Reg.RTC_TIME_SEC = 0) ∧
      (if s.on Reg.RTC_CTL_ALEN && alNow t then t.rd Reg.RTC_STAT_ALF = 1 ∧ t.flight = s.flight ++ [153] else t.rd Reg.RTC_STAT_ALF = s.rd Reg.RTC_STAT_ALF ∧ t.flight = s.flight) ∧
      changesOnly [Reg.RTC_DATE_YEAR, Reg.RTC_DATE_MONTH, Reg.RTC_DATE_DAY, Reg.RTC_DATE_WDAY, Reg.RTC_TIME_HOUR, Reg.RTC_TIME_MIN, Reg.RTC_TIME_SEC, Reg.RTC_STAT_ALF] [.rtc, .flight] (s.pass dt) t) := by
  subst hy hm hd hh hmi hsec
  have htick : Ticked (ssecWrapped (s.pass dt)) (rtcTick (ssecWrapped (s.pass dt))) := rtcTick_ticks (s := ssecWrapped (s.pass dt)) hy' hm1 hm2 hd1 hd2 hh' hmi' hsec' hlast
  obtain ⟨halarm, hssec, hch⟩ := secondAdvance_alarm htick.changes
  refine completes_of_onlyIf rfl hok ⟨(rtcNow_secondAdvance _).trans htick.now, hssec, fun hin => ?_, fun h59 m59 h23 => ?_, halarm, hch⟩
  · rw [secondAdvance_rd _ (by decide), secondAdvance_rd _ (by decide), secondAdvance_rd _ (by decide), secondAdvance_rd _ (by decide)]
    exact htick.inDay hin
  · rw [secondAdvance_rd _ (by decide), secondAdvance_rd _ (by decide), secondAdvance_rd _ (by decide), secondAdvance_rd _ (by decide)]
    exact htick.midnight h59 m59 h23

theorem secondAdvance_wraps (dt : Nat) (s : State) (hok : secondAdvanceOk (s.pass dt) = true) (hy : s.rd Reg.RTC_DATE_YEAR = 399) (hm : s.rd Reg.RTC_DATE_MONTH = 12) (hd : s.rd Reg.RTC_DATE_DAY = 31)
    (hh : s.rd Reg.RTC_TIME_HOUR = 23) (hmi : s.rd Reg.RTC_TIME_MIN = 59) (hs : s.rd Reg.RTC_TIME_SEC = 59) :
    completes (.secondAdvance dt) s (fun t => rtcNow t = 0 ∧ t.rd Reg.RTC_STAT_YWRAP = 1) := by
  let u := rtcPutTime 0 0 0 (ssecWrapped (s.pass dt))
  have htime : changesOnly [Reg.RTC_TIME_HOUR, Reg.RTC_TIME_MIN, Reg.RTC_TIME_SEC] [] (ssecWrapped (s.pass dt)) u := rtcPutTime_changes _ _ _ _
  have hnext : rtcNextDay (u.rd Reg.RTC_DATE_YEAR) (u.rd Reg.RTC_DATE_MONTH) (u.rd Reg.RTC_DATE_DAY) = (0, 1, 1, true) := by
    rw [htime.rd _ (by decide), htime.rd _ (by decide), htime.rd _ (by decide)]
    simp only [ssecWrapped, State.pass]
    exact (congrArg₂ (fun y p => rtcNextDay y p.1 p.2) hy (congrArg₂ Prod.mk hm hd)).trans rfl
  have htick : rtcTick (ssecWrapped (s.pass dt)) = ((rtcPutDate 0 1 1 u).wr Reg.RTC_DATE_WDAY ((u.rd Reg.RTC_DATE_WDAY + 1) % 7)).set1 Reg.RTC_STAT_YWRAP := by
    rw [rtcTick_midnight (s := ssecWrapped (s.pass dt)) hh hmi hs, rtcMidnight_eq hnext, if_pos rfl]
  obtain ⟨hrh, hrmi, hrs⟩ := rtcPutTime_reads (show 0 < 24 by decide) (show 0 < 60 by decide) (show 0 < 60 by decide) (ssecWrapped (s.pass dt))
  obtain ⟨hry, hrm, hrd⟩ := rtcPutDate_reads (show 0 < 2 ^ 9 by decide) (show 1 < 2 ^ 4 by decide) (show 1 < 2 ^ 5 by decide) u
  have hdate := rtcPutDate_changes 0 1 1 u
  have hread : ∀ f : Field, f.key ≠ Reg.RTC_DATE_WDAY.key → f.key ≠ Reg.RTC_STAT_YWRAP.key → (rtcTick (ssecWrapped (s.pass dt))).rd f = (rtcPutDate 0 1 1 u).rd f := fun f hw hy => by
    rw [htick, State.set1, State.rd_wr_other _ _ hy, State.rd_wr_other _ _ hw]
  have hnow : rtcNow (rtcTick (ssecWrapped (s.pass dt))) = 0 := by
    simp only [rtcNow]
    rw [hread _ (by decide) (by decide), hread _ (by decide) (by decide), hread _ (by decide) (by decide), hread _ (by decide) (by decide), hread _ (by decide) (by decide), hread _ (by decide) (by decide), hry, hrm, hrd,
      hdate.rd _ (by decide), hdate.rd _ (by decide), hdate.rd _ (by decide), hrh, hrmi, hrs]
    rfl
  refine completes_of_onlyIf rfl hok ⟨(rtcNow_secondAdvance _).trans hnow, ?_⟩
  rw [secondAdvance_rd _ (by decide), htick]
  exact State.rd_wr_same _ _ _

/-! ### The set registers (R589) -/

/-- The bounds that good set registers keep. -/
theorem rtcBadDate_false {s : State} (h : rtcBadDate s = false) :
    s.rd Reg.RTC_SETDATE_YEAR < 2 ^ 9 ∧ s.rd Reg.RTC_SETDATE_MONTH < 2 ^ 4 ∧ s.rd Reg.RTC_SETDATE_DAY < 2 ^ 5 ∧ s.rd Reg.RTC_SETTIME_HOUR < 24 ∧ s.rd Reg.RTC_SETTIME_MIN < 60 ∧ s.rd Reg.RTC_SETTIME_SEC < 60 := by
  have hmax := rtcMonthDays_le (s.rd Reg.RTC_SETDATE_YEAR) (s.rd Reg.RTC_SETDATE_MONTH)
  simp only [rtcBadDate, Bool.or_eq_false_iff, decide_eq_false_iff_not] at h
  omega

/-- The state in which APPLY is done. -/
def rtcApplied (s : State) : State := { s.clr Reg.RTC_CTL_APPLY with rtc := { s.rtc with applyAt := none } }

theorem rtcApplied_rd (s : State) {f : Field} (hf : f.key ≠ Reg.RTC_CTL_APPLY.key) : (rtcApplied s).rd f = s.rd f := State.rd_wr_other _ _ hf

theorem rtcApplied_apply (s : State) : (rtcApplied s).rd Reg.RTC_CTL_APPLY = 0 := (State.rd_clr s _ _).trans (if_pos rfl)

theorem rtcSetCommit_good {s : State} (hgood : rtcBadDate s = false) (hal : s.on Reg.RTC_CTL_ALEN = false) : rtcSetCommit s = (rtcSet (rtcApplied s)).raise 155 := by
  simp only [rtcSetCommit, hgood, hal, Bool.false_and, Bool.false_eq_true, if_false]
  rfl

/-- The calendar with the set registers' date, and the time of day as it was. -/
def rtcDated (s : State) : State :=
  rtcPutDate (s.rd Reg.RTC_SETDATE_YEAR) (s.rd Reg.RTC_SETDATE_MONTH) (s.rd Reg.RTC_SETDATE_DAY) ((s.commitFields rtcSFields).wr Reg.RTC_DATE_WDAY (s.rd Reg.RTC_SETDATE_WDAY))

theorem rtcDated_reads {s : State} (hy : s.rd Reg.RTC_SETDATE_YEAR < 2 ^ 9) (hm : s.rd Reg.RTC_SETDATE_MONTH < 2 ^ 4) (hd : s.rd Reg.RTC_SETDATE_DAY < 2 ^ 5) (hw : s.rd Reg.RTC_SETDATE_WDAY < 8) :
    (rtcDated s).rd Reg.RTC_DATE_YEAR = s.rd Reg.RTC_SETDATE_YEAR ∧ (rtcDated s).rd Reg.RTC_DATE_MONTH = s.rd Reg.RTC_SETDATE_MONTH ∧ (rtcDated s).rd Reg.RTC_DATE_DAY = s.rd Reg.RTC_SETDATE_DAY ∧
      (rtcDated s).rd Reg.RTC_DATE_WDAY = s.rd Reg.RTC_SETDATE_WDAY := by
  obtain ⟨hry, hrm, hrd⟩ := rtcPutDate_reads hy hm hd ((s.commitFields rtcSFields).wr Reg.RTC_DATE_WDAY (s.rd Reg.RTC_SETDATE_WDAY))
  refine ⟨hry, hrm, hrd, ?_⟩
  rw [rtcDated, (rtcPutDate_changes _ _ _ _).rd _ (by decide), State.rd_wr_same]
  exact Nat.mod_eq_of_lt hw

theorem rtcDated_rd (s : State) {f : Field} (hf : ∀ g ∈ [Reg.RTC_DATE_YEAR, Reg.RTC_DATE_MONTH, Reg.RTC_DATE_DAY, Reg.RTC_DATE_WDAY], f.key ≠ g.key) : (rtcDated s).rd f = s.rd f := by
  rw [rtcDated, (rtcPutDate_changes _ _ _ _).rd _ fun g hg => hf g (List.mem_append_left [_] hg), State.rd_wr_other _ _ (hf _ (by simp)), State.rd_commitFields]

theorem rtcSet_rd (s : State) (f : Field) : (rtcSet s).rd f = (rtcPutTime (s.rd Reg.RTC_SETTIME_HOUR) (s.rd Reg.RTC_SETTIME_MIN) (s.rd Reg.RTC_SETTIME_SEC) (rtcDated s)).rd f := by
  simp only [State.rd, rtcSet, rtcDated]

/-- A field that is no time of day is as the date's write left it. -/
theorem rtcSet_rd_date (s : State) {f : Field} (hf : ∀ g ∈ [Reg.RTC_TIME_HOUR, Reg.RTC_TIME_MIN, Reg.RTC_TIME_SEC], f.key ≠ g.key) : (rtcSet s).rd f = (rtcDated s).rd f := by
  rw [rtcSet_rd, (rtcPutTime_changes _ _ _ _).rd f hf]

theorem commitFields_frame (s : State) (fs : List Field) : partsOnly [.com] s (s.commitFields fs) := State.commitFields_parts s fs s (partsOnly_refl _ _) rfl

/-- A set restarts the sub-second count, and Glety's coarse offset write is due (R78). -/
theorem rtcSet_pieces (s : State) :
    (rtcSet s).rtc = { s.rtc with t0 := s.elapsed, ssec0 := s.rd Reg.RTC_SETSSEC_SSEC } ∧ (rtcSet s).flight = s.flight ∧ (rtcSet s).firn.rtcSetAt = some s.elapsed := by
  have hrtc : (s.commitFields rtcSFields).rtc = s.rtc := commitFields_frame s _ .rtc (by decide)
  have hel : (s.commitFields rtcSFields).elapsed = s.elapsed := commitFields_frame s _ .elapsed (by decide)
  have hfl : (s.commitFields rtcSFields).flight = s.flight := commitFields_frame s _ .flight (by decide)
  simp only [rtcSet, rtcPutTime, rtcPutDate, State.wr_rtc, State.wr_elapsed, State.wr_flight, hrtc, hel, hfl, and_self]

theorem rtcSet_commits (dt : Nat) (s : State) (hok : rtcSetCommitOk (s.pass dt) = true) (hgood : rtcBadDate s = false) (hal : s.on Reg.RTC_CTL_ALEN = false) (hw : s.rd Reg.RTC_SETDATE_WDAY < 8) :
    completes (.rtcSetCommit dt) s (fun t => t.rd Reg.RTC_CTL_APPLY = 0 ∧ t.rd Reg.RTC_DATE_YEAR = s.rd Reg.RTC_SETDATE_YEAR ∧ t.rd Reg.RTC_DATE_MONTH = s.rd Reg.RTC_SETDATE_MONTH ∧ t.rd Reg.RTC_DATE_DAY = s.rd Reg.RTC_SETDATE_DAY ∧
      t.rd Reg.RTC_DATE_WDAY = s.rd Reg.RTC_SETDATE_WDAY ∧ t.rd Reg.RTC_TIME_HOUR = s.rd Reg.RTC_SETTIME_HOUR ∧ t.rd Reg.RTC_TIME_MIN = s.rd Reg.RTC_SETTIME_MIN ∧ t.rd Reg.RTC_TIME_SEC = s.rd Reg.RTC_SETTIME_SEC ∧
      t.rtc = { s.rtc with applyAt := none, t0 := s.elapsed + dt, ssec0 := s.rd Reg.RTC_SETSSEC_SSEC } ∧ t.flight = s.flight ++ [155] ∧ t.rd Reg.RTC_STAT_CFGERR = s.rd Reg.RTC_STAT_CFGERR ∧
      t.firn.rtcSetAt = some (s.elapsed + dt)) := by
  obtain ⟨hy, hm, hd, hh, hmi, hs⟩ := rtcBadDate_false hgood
  have hrd : ∀ f : Field, f.key ≠ Reg.RTC_CTL_APPLY.key → (rtcApplied (s.pass dt)).rd f = s.rd f := fun f hf => rtcApplied_rd _ hf
  rw [← hrd _ (by decide)] at hy hm hd hh hmi hs hw
  obtain ⟨ry, rm, rday, rwd⟩ := rtcDated_reads hy hm hd hw
  obtain ⟨rh, rmi, rs⟩ := rtcPutTime_reads hh hmi hs (rtcDated (rtcApplied (s.pass dt)))
  rw [← rtcSet_rd] at rh rmi rs
  obtain ⟨hrtc, hflight, hset⟩ := rtcSet_pieces (rtcApplied (s.pass dt))
  refine completes_of_onlyIf rfl hok ?_
  rw [rtcSetCommit_good (s := s.pass dt) hgood hal]
  have hraise : ∀ f : Field, ((rtcSet (rtcApplied (s.pass dt))).raise 155).rd f = (rtcSet (rtcApplied (s.pass dt))).rd f := fun f => State.rd_raise _ _ _
  simp only [hraise]
  refine ⟨?_, ?_, ?_, ?_, ?_, rh.trans (hrd _ (by decide)), rmi.trans (hrd _ (by decide)), rs.trans (hrd _ (by decide)), ?_, ?_, ?_, ?_⟩
  · rw [rtcSet_rd_date _ (by decide), rtcDated_rd _ (by decide), rtcApplied_apply]
  · rw [rtcSet_rd_date _ (by decide), ry, hrd _ (by decide)]
  · rw [rtcSet_rd_date _ (by decide), rm, hrd _ (by decide)]
  · rw [rtcSet_rd_date _ (by decide), rday, hrd _ (by decide)]
  · rw [rtcSet_rd_date _ (by decide), rwd, hrd _ (by decide)]
  · rw [State.raise_rtc, hrtc, hrd _ (by decide)]
    rfl
  · rw [State.raise_flight, hflight]
    rfl
  · rw [rtcSet_rd_date _ (by decide), rtcDated_rd _ (by decide), hrd _ (by decide)]
  · rw [State.raise_firn, hset]
    rfl

theorem rtcSet_refused (dt : Nat) (s : State) (hok : rtcSetCommitOk (s.pass dt) = true) (hbad : rtcBadDate s = true) :
    completes (.rtcSetCommit dt) s (fun t => t.rd Reg.RTC_CTL_APPLY = 0 ∧ t.rd Reg.RTC_STAT_BADDATE = 1 ∧ t.rd Reg.RTC_STAT_CFGERR = 1 ∧ t.flight = s.flight ++ [155] ∧
      changesOnly [Reg.RTC_CTL_APPLY, Reg.RTC_STAT_CFGERR, Reg.RTC_STAT_BADDATE] [.rtc, .flight] (s.pass dt) t) := by
  have heq : rtcSetCommit (s.pass dt) = (((rtcApplied (s.pass dt)).set1 Reg.RTC_STAT_CFGERR).set1 Reg.RTC_STAT_BADDATE).raise 155 := if_pos (show rtcBadDate (s.pass dt) = true from hbad)
  refine completes_of_onlyIf rfl hok ?_
  rw [heq]
  simp only [State.rd_raise]
  refine ⟨?_, State.rd_wr_same _ _ _, ?_, rfl, ?_⟩
  · rw [State.set1, State.rd_wr_other _ _ (by decide), State.set1, State.rd_wr_other _ _ (by decide)]
    exact State.rd_wr_same _ _ _
  · rw [State.set1, State.rd_wr_other _ _ (by decide)]
    exact State.rd_wr_same _ _ _
  · have happlied : changesOnly [Reg.RTC_CTL_APPLY, Reg.RTC_STAT_CFGERR, Reg.RTC_STAT_BADDATE] [.rtc, .flight] (s.pass dt) (rtcApplied (s.pass dt)) :=
      ((changesOnly_refl _ _ _).clr (by simp)).withRtc _ (by simp)
    exact ((happlied.set1 (by simp)).set1 (by simp)).raise 155 (by simp)

/-! ### The periodic wake and the crystal (R592, R593) -/

theorem periodicWake_raises (dt : Nat) (s : State) (hok : periodicWakeOk (s.pass dt) = true) :
    completes (.periodicWake dt) s (fun t => t.rd Reg.RTC_STAT_WAKEF = 1 ∧ t.flight = s.flight ++ [154] ∧ t.rtc = { s.rtc with wakeT0 := s.rtc.wakeT0 + s.rd Reg.RTC_WAKE_PERIOD * 300000 } ∧
      changesOnly [Reg.RTC_STAT_WAKEF] [.rtc, .flight] (s.pass dt) t) := by
  refine completes_of_onlyIf rfl hok ⟨State.rd_wr_same _ _ _, rfl, rfl, ?_⟩
  exact (((changesOnly_refl _ _ _).withRtc _ (by simp)).set1 (by simp)).raise 154 (by simp)

/-- No edge of the crystal lies within no time. -/
theorem xtalEdges_zero (t0 : Nat) : xtalEdges t0 0 = 0 := Nat.sub_self _

/-- A sub-second count restarted now reads what it restarted from. -/
theorem rtcSsecRaw_restarted {s : State} (h : s.rtc.t0 = s.elapsed) : rtcSsecRaw s = s.rtc.ssec0 := by
  rw [rtcSsecRaw, h, Nat.sub_self, xtalEdges_zero, ite_self, Nat.add_zero]

theorem xtalFail_counts (dt : Nat) (s : State) (hx : s.rtc.xtalGone = false) :
    completes (.xtalFail dt) s (fun t => t.rd Reg.RTC_STAT_XTALFAIL = 1 ∧ t.rd Reg.RTC_STAT_RUNRC = 1 ∧ t.flight = s.flight ++ [155] ∧ t.rtc.xtalGone = true ∧ rtcSsecRaw t = rtcSsecRaw (s.pass dt) ∧
      changesOnly [Reg.RTC_STAT_XTALFAIL, Reg.RTC_STAT_RUNRC] [.rtc, .flight] (s.pass dt) t) := by
  have hok : xtalFailOk (s.pass dt) = true := congrArg (!·) hx
  refine completes_of_onlyIf rfl hok ⟨?_, State.rd_wr_same _ _ _, rfl, rfl, rtcSsecRaw_restarted rfl, ?_⟩
  · rw [xtalFail, State.set1, State.rd_wr_other _ _ (by decide)]
    exact State.rd_wr_same _ _ _
  · exact ((((changesOnly_refl _ _ _).withRtc _ (by simp)).set1 (by simp)).raise 155 (by simp)).set1 (by simp)

theorem xtalReturn_counts (dt : Nat) (s : State) (hx : s.rtc.xtalGone = true) :
    completes (.xtalReturn dt) s (fun t => t.rd Reg.RTC_STAT_RUNRC = 0 ∧ t.rtc.xtalGone = false ∧ rtcSsecRaw t = rtcSsecRaw (s.pass dt) ∧ changesOnly [Reg.RTC_STAT_RUNRC] [.rtc] (s.pass dt) t) := by
  refine completes_of_onlyIf rfl (show xtalReturnOk (s.pass dt) = true from hx) ⟨State.rd_wr_same _ _ _, rfl, rtcSsecRaw_restarted rfl, ?_⟩
  exact ((changesOnly_refl _ _ _).withRtc _ (by simp)).clr (by simp)

end Sys2Proof.Machine

open Sys2Proof Sys2Proof.Machine

/-- Settles O52: each event of the clock by its own lemma. -/
theorem clockCalendar : Obligations.ClockCalendar := by
  unfold Obligations.ClockCalendar
  exact ⟨secondAdvance_ticks, secondAdvance_wraps, rtcLeap_iff, rtcSet_commits, rtcSet_refused, periodicWake_raises, xtalFail_counts, xtalReturn_counts⟩
end

section
/-!
SUPPORT. Caldera (R519, R520, R522, R526, R527): what the end of a message, its start, a block and the key slots leave, one rule for each operation of the model.
-/
namespace Sys2Proof.Machine

section
variable {n m err : Nat} {result : List Nat} {hit : Bool} {s : State}

/-! ### The contexts -/

theorem cphModCtx_same (h : n < 4) (f : CphCtx → CphCtx) (s : State) : cphCtx (cphModCtx n f s) n = f (cphCtx s n) := by
  simp [cphCtx, cphModCtx, h, List.getD_eq_getElem?_getD]

theorem cphModCtx_other (h : m ≠ n) (f : CphCtx → CphCtx) (s : State) : cphCtx (cphModCtx n f s) m = cphCtx s m := by
  unfold cphModCtx
  split
  · simp [cphCtx, List.getD_eq_getElem?_getD, Vector.getElem?_set_ne _ h.symm]
  · rfl

theorem cphModCtx_rd (f : CphCtx → CphCtx) (s : State) (g : Field) : (cphModCtx n f s).rd g = s.rd g := by
  unfold cphModCtx
  split <;> rfl

theorem changesOnly_cphModCtx {fs : List Field} {ps : List Piece} {z : State} (h : changesOnly fs ps z s) (f : CphCtx → CphCtx) (hp : Piece.cph ∈ ps) : changesOnly fs ps z (cphModCtx n f s) := by
  unfold cphModCtx
  split
  · exact h.withCph _ hp
  · exact h

/-! ### The data words (R524) -/

theorem cphWords_eq (f : Nat → Field) (b : List Nat) (s : State) :
    cphWords f b s = (((s.wr (f 0) (leAt b 0 4)).wr (f 1) (leAt b 4 4)).wr (f 2) (leAt b 8 4)).wr (f 3) (leAt b 12 4) := rfl

theorem changesOnly_cphWords {fs : List Field} {ps : List Piece} {z : State} (h : changesOnly fs ps z s) (f : Nat → Field) (b : List Nat) (hf : ∀ i < 4, f i ∈ fs) : changesOnly fs ps z (cphWords f b s) := by
  rw [cphWords_eq]
  exact (((h.wr _ (hf 0 (by omega))).wr _ (hf 1 (by omega))).wr _ (hf 2 (by omega))).wr _ (hf 3 (by omega))

/-- The four words of DOUT read back the bytes that were written to them. -/
theorem cphWords_dout (n i : Nat) (hi : i < 4) (b : List Nat) (s : State) : (cphWords (Reg.CPH_DOUT n) b s).rd (Reg.CPH_DOUT n i) = leAt b (4 * i) 4 := by
  have hlt (k : Nat) : leAt b k 4 % 2 ^ 32 = leAt b k 4 := Nat.mod_eq_of_lt (leAt_lt b k 4)
  rw [cphWords_eq]
  interval_cases i <;> simp [State.rd_wr, Field.key, Reg.CPH_DOUT, -Nat.reducePow] <;> exact hlt _

/-! ### The end of a message (R527, R528) -/

/-- Context `n` holds no message: its queue is empty and its block, if it has one on the engine, counts for nothing. -/
def cphDropped (n : Nat) (s : State) : State :=
  { cphModCtx n (fun c => { c with queue := [], submitted := 0, abortReq := false, startWait := false, derived := [], key := ⟨[], 0⟩, chain := zero16 }) s with
    cph := { (cphModCtx n (fun c => { c with queue := [], submitted := 0, abortReq := false, startWait := false, derived := [], key := ⟨[], 0⟩, chain := zero16 }) s).cph with
      waiting := s.cph.waiting.filter (fun m => !(m == n)), engine := s.cph.engine.map (fun b => if b.ctx = n then { b with live := false } else b) } }

/-- The status of context `n` once its message has ended with the code `err`. -/
def cphClosed (n err : Nat) (result : List Nat) (hit : Bool) (s : State) : State :=
  (cphWords (Reg.CPH_DOUT n) (if err = 0 then result else zero16) ((((cphDropped n s).clr (Reg.CPH_STAT_BUSY n)).set1 (Reg.CPH_STAT_DONE n)).wr (Reg.CPH_STAT_ERR n) err)).wr (Reg.CPH_STAT_MATCH n)
    (b2n (decide (err = 0) && hit))

/-- A message that ends well is counted (R528). -/
def cphCounted (n err : Nat) (s : State) : State := if err = 0 then s.inc (Reg.CPH_MSGCNT n) else s

theorem b2n_le_one (b : Bool) : b2n b ≤ 1 := by cases b <;> decide

theorem cphModCtx_cph_waiting (f : CphCtx → CphCtx) (s : State) : (cphModCtx n f s).cph.waiting = s.cph.waiting := by
  unfold cphModCtx
  split <;> rfl

theorem cphModCtx_cph_engine (f : CphCtx → CphCtx) (s : State) : (cphModCtx n f s).cph.engine = s.cph.engine := by
  unfold cphModCtx
  split <;> rfl

theorem cphEnd_eq (n err : Nat) (result : List Nat) (hit : Bool) (s : State) : cphEnd n err result hit s = cphEvent n (cphFree n (cphCounted n err (cphClosed n err result hit s))) := by
  simp only [cphEnd, cphCounted, cphClosed, cphDropped, cphModCtx_cph_waiting, cphModCtx_cph_engine]

theorem cphDropped_rd (s : State) (g : Field) : (cphDropped n s).rd g = s.rd g := cphModCtx_rd _ s g

theorem cphDropped_flight (s : State) : (cphDropped n s).flight = s.flight := by
  unfold cphDropped cphModCtx
  split <;> rfl

theorem changesOnly_cphDropped {fs : List Field} {ps : List Piece} {z : State} (h : changesOnly fs ps z s) (hp : Piece.cph ∈ ps) : changesOnly fs ps z (cphDropped n s) :=
  (changesOnly_cphModCtx h _ hp).withCph _ hp

/-- The fields that the end of a message writes. -/
def cphEndFields (n : Nat) : List Field :=
  [Reg.CPH_STAT_BUSY n, Reg.CPH_STAT_DONE n, Reg.CPH_STAT_ERR n, Reg.CPH_DOUT n 0, Reg.CPH_DOUT n 1, Reg.CPH_DOUT n 2, Reg.CPH_DOUT n 3, Reg.CPH_STAT_MATCH n, Reg.CPH_MSGCNT n, Reg.CPH_STAT_FREE n]

theorem cphEvent_rd (s : State) (g : Field) : (cphEvent n s).rd g = s.rd g := by
  unfold cphEvent
  split
  · rfl
  · split <;> rfl

theorem cphEvent_flight (s : State) : (cphEvent n s).flight = s.flight ++ (if n = 2 then [168] else if n = 3 then [169] else []) := by
  unfold cphEvent
  split
  · rfl
  · split
    · rfl
    · exact (List.append_nil _).symm

theorem cphEvent_cph (s : State) : (cphEvent n s).cph = s.cph := by
  unfold cphEvent
  split
  · rfl
  · split <;> rfl

/-- After the status only the count of messages and the free places change. -/
theorem cphEnd_tail (n err : Nat) (result : List Nat) (hit : Bool) (s : State) :
    changesOnly [Reg.CPH_MSGCNT n, Reg.CPH_STAT_FREE n] [.flight] (cphClosed n err result hit s) (cphEnd n err result hit s) := by
  rw [cphEnd_eq, cphEvent, cphFree, cphCounted]
  have hcount : changesOnly [Reg.CPH_MSGCNT n, Reg.CPH_STAT_FREE n] [.flight] (cphClosed n err result hit s) (if err = 0 then (cphClosed n err result hit s).inc (Reg.CPH_MSGCNT n) else cphClosed n err result hit s) :=
    .ite (fun _ => (changesOnly_refl _ _ _).inc (by simp)) fun _ => changesOnly_refl _ _ _
  exact .ite (fun _ => (hcount.wr _ (by simp)).raise _ (by simp)) fun _ => .ite (fun _ => (hcount.wr _ (by simp)).raise _ (by simp)) fun _ => hcount.wr _ (by simp)

theorem cphClosed_status (n err : Nat) (result : List Nat) (hit : Bool) (s : State) (herr : err < 16) :
    (cphClosed n err result hit s).rd (Reg.CPH_STAT_BUSY n) = 0 ∧ (cphClosed n err result hit s).rd (Reg.CPH_STAT_DONE n) = 1 ∧ (cphClosed n err result hit s).rd (Reg.CPH_STAT_ERR n) = err ∧
      (cphClosed n err result hit s).rd (Reg.CPH_STAT_MATCH n) = b2n (decide (err = 0) && hit) := by
  simp only [cphClosed, cphWords_eq, State.clr, State.set1, State.rd_wr]
  simp +arith [Field.key, Reg.CPH_STAT_BUSY, Reg.CPH_STAT_DONE, Reg.CPH_STAT_ERR, Reg.CPH_STAT_MATCH, Reg.CPH_DOUT]
  exact ⟨by omega, b2n_le_one _⟩

theorem cphEnd_status (n err : Nat) (result : List Nat) (hit : Bool) (s : State) (herr : err < 16) :
    (cphEnd n err result hit s).rd (Reg.CPH_STAT_BUSY n) = 0 ∧ (cphEnd n err result hit s).rd (Reg.CPH_STAT_DONE n) = 1 ∧ (cphEnd n err result hit s).rd (Reg.CPH_STAT_ERR n) = err ∧
      (cphEnd n err result hit s).rd (Reg.CPH_STAT_MATCH n) = b2n (decide (err = 0) && hit) := by
  have htail := cphEnd_tail n err result hit s
  rw [htail.rd (Reg.CPH_STAT_BUSY n), htail.rd (Reg.CPH_STAT_DONE n), htail.rd (Reg.CPH_STAT_ERR n), htail.rd (Reg.CPH_STAT_MATCH n)]
  · exact cphClosed_status n err result hit s herr
  all_goals
    simp +arith [Field.key, Reg.CPH_STAT_BUSY, Reg.CPH_STAT_DONE, Reg.CPH_STAT_ERR, Reg.CPH_STAT_MATCH, Reg.CPH_MSGCNT, Reg.CPH_STAT_FREE]

theorem cphClosed_dout (n err i : Nat) (result : List Nat) (hit : Bool) (s : State) (hi : i < 4) :
    (cphClosed n err result hit s).rd (Reg.CPH_DOUT n i) = leAt (if err = 0 then result else zero16) (4 * i) 4 := by
  rw [cphClosed, State.rd_wr_other _ _ (by simp only [Field.key, Reg.CPH_DOUT, Reg.CPH_STAT_MATCH]; omega), cphWords_dout _ _ hi]

theorem cphEnd_dout (n err i : Nat) (result : List Nat) (hit : Bool) (s : State) (hi : i < 4) :
    (cphEnd n err result hit s).rd (Reg.CPH_DOUT n i) = leAt (if err = 0 then result else zero16) (4 * i) 4 := by
  rw [(cphEnd_tail n err result hit s).rd (Reg.CPH_DOUT n i) (by simp [Field.key, Reg.CPH_DOUT, Reg.CPH_MSGCNT, Reg.CPH_STAT_FREE]; omega), cphClosed_dout _ _ _ _ _ _ hi]

theorem leAt_zero16 (i : Nat) (hi : i < 4) : leAt zero16 (4 * i) 4 = 0 := by
  interval_cases i <;> rfl

/-- The end of a message writes its context's status, result and counts, and ends what Caldera holds of it. -/
theorem changesOnly_cphEnd (n err : Nat) (result : List Nat) (hit : Bool) (s : State) : changesOnly (cphEndFields n) [.cph, .flight] s (cphEnd n err result hit s) := by
  have hclosed : changesOnly (cphEndFields n) [.cph, .flight] s (cphClosed n err result hit s) :=
    (changesOnly_cphWords ((((changesOnly_cphDropped (changesOnly_refl _ _ _) (by simp)).clr (by simp [cphEndFields])).set1 (by simp [cphEndFields])).wr _ (by simp [cphEndFields])) _ _
      (fun i hi => by interval_cases i <;> simp [cphEndFields])).wr _ (by simp [cphEndFields])
  exact hclosed.trans ((cphEnd_tail n err result hit s).mono (by simp [cphEndFields]) (by simp))

theorem cphEnd_msgcnt (n err : Nat) (result : List Nat) (hit : Bool) (s : State) :
    (cphEnd n err result hit s).rd (Reg.CPH_MSGCNT n) = if err = 0 then satAdd 32 (s.rd (Reg.CPH_MSGCNT n)) 1 else s.rd (Reg.CPH_MSGCNT n) := by
  have hclosed : (cphClosed n err result hit s).rd (Reg.CPH_MSGCNT n) = s.rd (Reg.CPH_MSGCNT n) := by
    simp only [cphClosed, cphWords_eq, State.clr, State.set1, State.rd_wr]
    simp +arith [Field.key, Reg.CPH_STAT_BUSY, Reg.CPH_STAT_DONE, Reg.CPH_STAT_ERR, Reg.CPH_STAT_MATCH, Reg.CPH_DOUT, Reg.CPH_MSGCNT, cphDropped_rd]
  rw [cphEnd_eq, cphEvent_rd, cphFree, State.rd_wr_other _ _ (by simp +arith [Field.key, Reg.CPH_MSGCNT, Reg.CPH_STAT_FREE]), cphCounted]
  split
  · rw [State.rd_inc_same, hclosed]
    rfl
  · exact hclosed

theorem cphCounted_wr (n err k : Nat) (s : State) : ((cphCounted n err s).wr (Reg.CPH_STAT_FREE n) k).flight = s.flight ∧ ((cphCounted n err s).wr (Reg.CPH_STAT_FREE n) k).cph = s.cph := by
  unfold cphCounted
  split <;> exact ⟨rfl, rfl⟩

theorem cphClosed_pieces (n err : Nat) (result : List Nat) (hit : Bool) (s : State) : (cphClosed n err result hit s).flight = (cphDropped n s).flight ∧ (cphClosed n err result hit s).cph = (cphDropped n s).cph := by
  simp only [cphClosed, cphWords_eq, State.clr, State.set1, State.wr_flight, State.wr_cph, and_self]

theorem cphEnd_flight (n err : Nat) (result : List Nat) (hit : Bool) (s : State) :
    (cphEnd n err result hit s).flight = s.flight ++ (if n = 2 then [168] else if n = 3 then [169] else []) := by
  rw [cphEnd_eq, cphEvent_flight, cphFree, (cphCounted_wr _ _ _ _).1, (cphClosed_pieces _ _ _ _ _).1, cphDropped_flight]

theorem cphEnd_cph (n err : Nat) (result : List Nat) (hit : Bool) (s : State) : (cphEnd n err result hit s).cph = (cphDropped n s).cph := by
  rw [cphEnd_eq, cphEvent_cph, cphFree, (cphCounted_wr _ _ _ _).2, (cphClosed_pieces _ _ _ _ _).2]

theorem cphEnd_engine (n err : Nat) (result : List Nat) (hit : Bool) (s : State) (h : s.cph.engine = none) : (cphEnd n err result hit s).cph.engine = none := by
  rw [cphEnd_cph, cphDropped, h]
  rfl

/-! ### START, ABORT and blocks (R527) -/

/-- The status of context `n` once a message of at least one block has begun. -/
def cphBegun (n : Nat) (s : State) : State :=
  ((((s.set1 (Reg.CPH_STAT_BUSY n)).clr (Reg.CPH_STAT_DONE n)).clr (Reg.CPH_STAT_MATCH n)).wr (Reg.CPH_STAT_ERR n) 0).wr (Reg.CPH_STAT_BLOCKS n) 0

/-- The fields that the start of a message writes. -/
def cphBeginFields (n : Nat) : List Field := [Reg.CPH_STAT_BUSY n, Reg.CPH_STAT_DONE n, Reg.CPH_STAT_MATCH n, Reg.CPH_STAT_ERR n, Reg.CPH_STAT_BLOCKS n]

theorem changesOnly_cphBegun (n : Nat) (s : State) : changesOnly (cphBeginFields n) [.cph] s (cphBegun n s) :=
  (((((changesOnly_refl _ _ _).set1 (by simp [cphBeginFields])).clr (by simp [cphBeginFields])).clr (by simp [cphBeginFields])).wr _ (by simp [cphBeginFields])).wr _ (by simp [cphBeginFields])

theorem cphBegun_status (n : Nat) (s : State) : (cphBegun n s).rd (Reg.CPH_STAT_BUSY n) = 1 ∧ (cphBegun n s).rd (Reg.CPH_STAT_DONE n) = 0 ∧ (cphBegun n s).rd (Reg.CPH_STAT_ERR n) = 0 ∧
    (cphBegun n s).rd (Reg.CPH_STAT_BLOCKS n) = 0 := by
  simp only [cphBegun, State.clr, State.set1, State.rd_wr]
  simp +arith [Field.key, Reg.CPH_STAT_BUSY, Reg.CPH_STAT_DONE, Reg.CPH_STAT_ERR, Reg.CPH_STAT_MATCH, Reg.CPH_STAT_BLOCKS]

/-- A message whose operation, length and key are good begins. -/
theorem cphStart_good (hidle : s.on (Reg.CPH_STAT_BUSY n) = false) (hkey : s.on (Reg.CPH_KSTAT_KBUSY n) = false) (hop : 1 ≤ s.rd (Reg.CPH_CFG_OP n)) (hop4 : s.rd (Reg.CPH_CFG_OP n) ≤ 4)
    (hlen : cphLenOk (s.rd (Reg.CPH_CFG_OP n)) (s.rd (Reg.CPH_LEN_LEN n)) (s.rd (Reg.CPH_CFG_DSIZE n)) = true) (hk : cphKeyOk n s = true) (hpos : 0 < s.rd (Reg.CPH_LEN_LEN n)) :
    cphStart n false s = cphModCtx n (fun c => { c with key := cphKeyOf n s, chain := zero16, submitted := 0, derived := [], queue := [], abortReq := false, startWait := false }) (cphBegun n s) := by
  have hopn : ¬ (s.rd (Reg.CPH_CFG_OP n) = 0 ∨ 4 < s.rd (Reg.CPH_CFG_OP n)) := by omega
  have hlen0 : ¬ (s.rd (Reg.CPH_CFG_OP n) = 1 ∧ s.rd (Reg.CPH_LEN_LEN n) = 0) := by omega
  simp only [cphStart, hidle, hkey, cphBegin, hopn, hlen, hk, hlen0, if_false, Bool.not_true, Bool.false_and, Bool.false_eq_true]
  rfl

theorem cphStart_busy (p : Bool) (h : s.on (Reg.CPH_STAT_BUSY n) = true) : cphStart n p s = s.set1 (Reg.CPH_STAT_CFGERR n) := if_pos h

theorem cphAbort_waiting (h : s.on (Reg.CPH_STAT_BUSY n) = true) (he : s.cph.engine = none) : cphAbort n s = cphEnd n 6 [] false s := by
  simp [cphAbort, h, he]

/-- The engine takes blocks from the queues; what was submitted stays submitted. -/
theorem cphRun_submitted (s : State) (m : Nat) : (cphCtx (cphRun s) m).submitted = (cphCtx s m).submitted := by
  unfold cphRun
  split
  · next k _ _ =>
    split
    · next b rest _ =>
      show (cphCtx (cphModCtx k (fun c => { c with queue := rest }) s) m).submitted = _
      by_cases hm : m = k
      · subst hm
        by_cases h4 : m < 4
        · rw [cphModCtx_same h4]
        · rw [cphModCtx, dif_neg h4]
      · rw [cphModCtx_other hm]
    · rfl
  · rfl

/-- With no block queued the engine takes none. -/
theorem cphRun_idle (h : ∀ m < 4, (cphCtx s m).queue = []) : cphRun s = s := by
  have hready : cphReady s = [] := by
    rw [cphReady, List.filter_eq_nil_iff]
    intro m hm
    simp [h m (List.mem_range.1 hm)]
  have hpick : cphPick s = none := by
    unfold cphPick
    simp only [hready, List.filter_nil, List.contains_nil]
    split <;> simp
  unfold cphRun
  rw [hpick]
  split
  · next h => simp at h
  · rfl

end
end Sys2Proof.Machine
end

section
/-!
SUPPORT. Writes of Caldera's and PROT's registers (R519, R520, R527, R538, R539).
-/
namespace Sys2Proof.Machine

section
variable {w : BusReq} {ini a v n dt : Nat} {p : Bool} {s : State}

/-! ### A write that is a command, with the parity of the key it meets -/

theorem busWriteP_lands (h : writeLands w s = true) : busWriteP p w s = targetWrite p w s := by
  simp only [writeLands, Bool.and_eq_true, beq_iff_eq, Bool.not_eq_true', Option.isNone_iff_eq_none] at h
  obtain ⟨⟨⟨⟨hk, hv⟩, hpar⟩, hasleep⟩, hheld⟩ := h
  simp [busWriteP, hk, hv, hpar, hasleep, hheld]

theorem cmdWriteP_slot (h : writeLands w s = true) (hlo : 0x40000000 ≤ w.addr) (hhi : w.addr < 0x40180000) : cmdWriteP p w s = slotWrite p w.ini w.addr w.val s := by
  rw [cmdWriteP, busWriteP_lands h, targetWrite, busTarget_of_global (.inr (by omega)), rgnOf_slot hlo hhi]

theorem slotWrite_cph (hlo : 0x40100000 ≤ a) (hhi : a < 0x40100400) (hf : (regFields a).isEmpty = false) : slotWrite p ini a v s = cphWrite p a v (regFields a) s := by
  have hfs : slotFields ini a = regFields a := if_neg (by omega)
  have hs : (a - 0x40000000) / 0x10000 = 16 := by omega
  simp [slotWrite, hfs, hf, hs, hhi]

theorem slotWrite_prot (hlo : 0x40100800 ≤ a) (hhi : a < 0x40110000) (hf : (regFields a).isEmpty = false) : slotWrite p ini a v s = protWrite a v (regFields a) s := by
  have hfs : slotFields ini a = regFields a := if_neg (by omega)
  have hs : (a - 0x40000000) / 0x10000 = 16 := by omega
  simp [slotWrite, hfs, hf, hs, show ¬ a < 0x40100400 by omega, show ¬ a < 0x40100800 by omega]

/-! ### The registers' fields -/

theorem cphCtl_fields : ∀ n < 4, regFields (0x40100004 + 256 * n) = [Reg.CPH_CTL_START n, Reg.CPH_CTL_ABORT n] := by decide
theorem cphDin3_fields : ∀ n < 4, regFields (0x4010001C + 256 * n) = [Reg.CPH_DIN n 3] := by decide
theorem cphKctl_fields : ∀ n < 4, regFields (0x40100040 + 256 * n) = [Reg.CPH_KCTL_LOAD n, Reg.CPH_KCTL_CLEAR n, Reg.CPH_KCTL_USE n, Reg.CPH_KCTL_SIZE n, Reg.CPH_KCTL_SLOT n] := by decide
theorem protOwn_fields : ∀ k < 49, regFields (0x40100900 + 4 * k) = [Reg.PROT_OWN_RDALL k, Reg.PROT_OWN_USER k, Reg.PROT_OWN_SEC k, Reg.PROT_OWN_OWNER k] := by decide
theorem protCtl_fields : (regFields 0x40100800).isEmpty = false := by decide

/-! ### What the writes do -/

theorem cphWrite_ctl (hn : n < 4) (v : Nat) (s : State) :
    cphWrite p (0x40100004 + 256 * n) v (regFields (0x40100004 + 256 * n)) s =
      if bitOf v 30 = 1 then cphAbort n (if bitOf v 31 = 1 then cphStart n p s else s) else if bitOf v 31 = 1 then cphStart n p s else s := by
  have hslot : (0x40100004 + 256 * n) % 0x10000 / 0x100 = n := by omega
  have hoff : (0x40100004 + 256 * n) % 0x10000 % 0x100 = 4 := by omega
  simp [cphWrite, hslot, hoff, cphCtl_fields n hn, caughtH, writesCls, Reg.CPH_CTL_START, Reg.CPH_CTL_ABORT]

theorem cphWrite_din3 (hn : n < 4) (hbusy : s.on (Reg.CPH_STAT_BUSY n) = true) (v : Nat) :
    cphWrite p (0x4010001C + 256 * n) v (regFields (0x4010001C + 256 * n)) s = cphSubmit n (s.wr (Reg.CPH_DIN n 3) (fBits (Reg.CPH_DIN n 3) v)) := by
  have hslot : (0x4010001C + 256 * n) % 0x10000 / 0x100 = n := by omega
  have hoff : (0x4010001C + 256 * n) % 0x10000 % 0x100 = 0x1C := by omega
  simp [cphWrite, hslot, hoff, cphDin3_fields n hn, caughtH, writesCls, hbusy, Reg.CPH_DIN, regPut, fieldPut]

theorem cphWrite_kctl (hn : n < 4) (hidle : s.on (Reg.CPH_STAT_BUSY n) = false) (v : Nat) :
    cphWrite p (0x40100040 + 256 * n) v (regFields (0x40100040 + 256 * n)) s =
      if bitOf v 31 = 1 then cphLoadNext n (if bitOf v 30 = 1 then cphClear n (v % 8) (regPut [] (regFields (0x40100040 + 256 * n)) v s) else regPut [] (regFields (0x40100040 + 256 * n)) v s)
      else if bitOf v 30 = 1 then cphClear n (v % 8) (regPut [] (regFields (0x40100040 + 256 * n)) v s) else regPut [] (regFields (0x40100040 + 256 * n)) v s := by
  have hslot : (0x40100040 + 256 * n) % 0x10000 / 0x100 = n := by omega
  have hoff : (0x40100040 + 256 * n) % 0x10000 % 0x100 = 0x40 := by omega
  simp [cphWrite, hslot, hoff, caughtH, hidle]

/-! ### START and ABORT -/

theorem start_lands {P : State → Prop} (hn : n < 4) (ha : w.addr = 0x40100004 + 256 * n) (hok : cphStartOk w = true) (h30 : bitOf w.val 30 = 0) (hl : writeLands w (s.pass dt) = true)
    (h : P (cphStart n p (s.pass dt))) : completes (.start w p dt) s P := by
  have h31 : bitOf w.val 31 = 1 := setsBit_iff.1 (Bool.and_eq_true_iff.1 hok).2
  refine completes_of_onlyIf rfl hok ?_
  rw [cmdWriteP_slot hl (by omega) (by omega), ha, slotWrite_cph (by omega) (by omega) (by rw [cphCtl_fields n hn]; rfl), cphWrite_ctl hn, if_neg (by omega), if_pos h31]
  exact h

theorem start_begins (n : Nat) (w : BusReq) (dt : Nat) (s : State) (hn : n < 4) (ha : w.addr = 0x40100004 + 256 * n) (hok : cphStartOk w = true) (h30 : bitOf w.val 30 = 0)
    (hl : writeLands w (s.pass dt) = true) (hidle : s.on (Reg.CPH_STAT_BUSY n) = false) (hkey : s.on (Reg.CPH_KSTAT_KBUSY n) = false) (hop : 1 ≤ s.rd (Reg.CPH_CFG_OP n)) (hop4 : s.rd (Reg.CPH_CFG_OP n) ≤ 4)
    (hlen : cphLenOk (s.rd (Reg.CPH_CFG_OP n)) (s.rd (Reg.CPH_LEN_LEN n)) (s.rd (Reg.CPH_CFG_DSIZE n)) = true) (hk : cphKeyOk n s = true) (hpos : 0 < s.rd (Reg.CPH_LEN_LEN n)) :
    completes (.start w false dt) s (fun t => t.rd (Reg.CPH_STAT_BUSY n) = 1 ∧ t.rd (Reg.CPH_STAT_DONE n) = 0 ∧ t.rd (Reg.CPH_STAT_ERR n) = 0 ∧ t.rd (Reg.CPH_STAT_BLOCKS n) = 0 ∧
      changesOnly [Reg.CPH_STAT_BUSY n, Reg.CPH_STAT_DONE n, Reg.CPH_STAT_MATCH n, Reg.CPH_STAT_ERR n, Reg.CPH_STAT_BLOCKS n] [.cph] (s.pass dt) t) := by
  refine start_lands hn ha hok h30 hl ?_
  rw [cphStart_good (s := s.pass dt) hidle hkey hop hop4 hlen hk hpos]
  simp only [cphModCtx_rd]
  obtain ⟨hbusy, hdone, herr, hblocks⟩ := cphBegun_status n (s.pass dt)
  exact ⟨hbusy, hdone, herr, hblocks, changesOnly_cphModCtx (changesOnly_cphBegun n _) _ (by simp)⟩

theorem start_while_busy (n : Nat) (w : BusReq) (p : Bool) (dt : Nat) (s : State) (hn : n < 4) (ha : w.addr = 0x40100004 + 256 * n) (hok : cphStartOk w = true) (h30 : bitOf w.val 30 = 0)
    (hl : writeLands w (s.pass dt) = true) (hbusy : s.on (Reg.CPH_STAT_BUSY n) = true) :
    completes (.start w p dt) s (fun t => t.rd (Reg.CPH_STAT_CFGERR n) = 1 ∧ changesOnly [Reg.CPH_STAT_CFGERR n] [] (s.pass dt) t) := by
  refine start_lands hn ha hok h30 hl ?_
  rw [cphStart_busy (s := s.pass dt) p hbusy]
  exact ⟨State.rd_wr_same _ _ _, (changesOnly_refl _ _ _).set1 (by simp)⟩

theorem abort_ends (n : Nat) (w : BusReq) (dt : Nat) (s : State) (hn : n < 4) (ha : w.addr = 0x40100004 + 256 * n) (hok : abortOk w = true) (h31 : bitOf w.val 31 = 0)
    (hl : writeLands w (s.pass dt) = true) (hbusy : s.on (Reg.CPH_STAT_BUSY n) = true) (he : s.cph.engine = none) :
    completes (.abort w dt) s (fun t => t.rd (Reg.CPH_STAT_BUSY n) = 0 ∧ t.rd (Reg.CPH_STAT_DONE n) = 1 ∧ t.rd (Reg.CPH_STAT_ERR n) = 6 ∧ t.rd (Reg.CPH_STAT_MATCH n) = 0) := by
  have h30 : bitOf w.val 30 = 1 := setsBit_iff.1 (Bool.and_eq_true_iff.1 hok).2
  refine completes_slotWrite rfl hok hl (by omega) (by omega) ?_
  rw [ha, slotWrite_cph (by omega) (by omega) (by rw [cphCtl_fields n hn]; rfl), cphWrite_ctl hn, if_pos h30, if_neg (by omega), cphAbort_waiting (s := s.pass dt) hbusy he]
  exact cphEnd_status n 6 [] false _ (by omega)

/-! ### Blocks (R527) -/

/-- The block that DIN3 submits is in the queue of context `n`, which waits its turn. -/
def cphQueued (n : Nat) (s : State) : State :=
  cphFree n { cphModCtx n (fun c => { c with queue := c.queue ++ [cphBytes (Reg.CPH_DIN n) s], submitted := c.submitted + 1 }) s with
    cph := { (cphModCtx n (fun c => { c with queue := c.queue ++ [cphBytes (Reg.CPH_DIN n) s], submitted := c.submitted + 1 }) s).cph with
      waiting := if s.cph.waiting.contains n then s.cph.waiting else s.cph.waiting ++ [n] } }

theorem cphSubmit_queues (hbusy : s.on (Reg.CPH_STAT_BUSY n) = true) (hmore : (cphCtx s n).submitted < cphBlocksOf (s.rd (Reg.CPH_LEN_LEN n))) (hroom : (cphCtx s n).queue.length < 4) :
    cphSubmit n s = cphRun (cphQueued n s) := by
  simp only [cphSubmit, hbusy, Bool.not_true, Bool.false_eq_true, if_false, Nat.not_le.2 hmore, Nat.not_le.2 hroom, cphQueued, cphModCtx_cph_waiting]

theorem cphQueued_submitted (hn : n < 4) (s : State) : (cphCtx (cphQueued n s) n).submitted = (cphCtx s n).submitted + 1 :=
  congrArg CphCtx.submitted (cphModCtx_same hn (fun c => { c with queue := c.queue ++ [cphBytes (Reg.CPH_DIN n) s], submitted := c.submitted + 1 }) s)

theorem cphQueued_rd (s : State) (f : Field) (hf : f.key ≠ (Reg.CPH_STAT_FREE n).key) : (cphQueued n s).rd f = s.rd f :=
  (State.rd_wr_other _ _ hf).trans (cphModCtx_rd _ s f)

theorem cphRun_rd (s : State) (f : Field) (hf : ∀ m, f.key ≠ (Reg.CPH_STAT_FREE m).key) : (cphRun s).rd f = s.rd f := by
  unfold cphRun
  split
  · split
    · exact (State.rd_wr_other _ _ (hf _)).trans (cphModCtx_rd _ s f)
    · rfl
  · rfl

theorem din3_submits (n : Nat) (w : BusReq) (dt : Nat) (s : State) (hn : n < 4) (ha : w.addr = 0x4010001C + 256 * n) (hok : din3SubmitOk w = true) (hl : writeLands w (s.pass dt) = true)
    (hbusy : s.on (Reg.CPH_STAT_BUSY n) = true) (hmore : (cphCtx s n).submitted < cphBlocksOf (s.rd (Reg.CPH_LEN_LEN n))) (hroom : (cphCtx s n).queue.length < 4) :
    completes (.din3Submit w dt) s (fun t => t.rd (Reg.CPH_DIN n 3) = w.val % 2 ^ 32 ∧ (cphCtx t n).submitted = (cphCtx s n).submitted + 1) := by
  refine completes_slotWrite rfl hok hl (by omega) (by omega) ?_
  rw [ha, slotWrite_cph (by omega) (by omega) (by rw [cphDin3_fields n hn]; rfl), cphWrite_din3 (s := s.pass dt) hn hbusy]
  have hrd (f : Field) (hf : f.key ≠ (Reg.CPH_DIN n 3).key) : ((s.pass dt).wr (Reg.CPH_DIN n 3) (fBits (Reg.CPH_DIN n 3) w.val)).rd f = s.rd f := State.rd_wr_other _ _ hf
  rw [cphSubmit_queues]
  · refine ⟨?_, ?_⟩
    · rw [cphRun_rd _ _ (fun m => by simp only [Field.key, Reg.CPH_DIN, Reg.CPH_STAT_FREE]; omega), cphQueued_rd _ _ (by simp only [Field.key, Reg.CPH_DIN, Reg.CPH_STAT_FREE]; omega), State.rd_wr_same,
        Nat.mod_eq_of_lt (fBits_lt _ _)]
      simp [fBits, Reg.CPH_DIN]
    · rw [cphRun_submitted, cphQueued_submitted hn]
      rfl
  · rw [State.on, hrd _ (by simp only [Field.key, Reg.CPH_DIN, Reg.CPH_STAT_BUSY]; omega)]
    exact hbusy
  · rw [hrd _ (by simp only [Field.key, Reg.CPH_DIN, Reg.CPH_LEN_LEN]; omega)]
    exact hmore
  · exact hroom

/-! ### The keys (R519, R520) -/

theorem kctl_slot (hn : n < 4) (v : Nat) (s : State) : (regPut [] (regFields (0x40100040 + 256 * n)) v s).rd (Reg.CPH_KCTL_SLOT n) = v % 8 := by
  rw [cphKctl_fields n hn, regPut_rd _ _ _ (by interval_cases n <;> decide) _ (by simp), fieldAfter]
  simp [Reg.CPH_KCTL_SLOT, fBits]

theorem regPut_cph (fs : List Field) (v : Nat) (s : State) : (regPut [] fs v s).cph = s.cph :=
  regPut_parts [] fs v s s (partsOnly_refl [.regs] s) rfl .cph (by decide)

/-- The key registers of a context that a load has taken hold nothing. -/
theorem look_keyRegs_taken {i : Nat} (hi : i / 8 = n) (l : List (Nat × Nat)) : look i (l.filter (fun q => !(q.1 / 8 == n))) = none := by
  rw [look_filter_key (fun k => !(k / 8 == n))]
  simp [hi]

theorem keyLoad_begins (n : Nat) (w : BusReq) (dt : Nat) (s : State) (hn : n < 4) (ha : w.addr = 0x40100040 + 256 * n) (hok : keyLoadOk w = true) (h30 : bitOf w.val 30 = 0)
    (hl : writeLands w (s.pass dt) = true) (hidle : s.on (Reg.CPH_STAT_BUSY n) = false) (hload : s.cph.load = none) :
    completes (.keyLoad w dt) s (fun t => t.rd (Reg.CPH_KSTAT_KBUSY n) = 1 ∧ (∀ i, i / 8 = n → look i t.cph.keyRegs = none) ∧
      (t.cph.load).map (fun l => (l.ctx, l.slot)) = some (n, w.val % 8)) := by
  have h31 : bitOf w.val 31 = 1 := setsBit_iff.1 (Bool.and_eq_true_iff.1 hok).2
  refine completes_slotWrite rfl hok hl (by omega) (by omega) ?_
  rw [ha, slotWrite_cph (by omega) (by omega) (by rw [cphKctl_fields n hn]; rfl), cphWrite_kctl (s := s.pass dt) hn hidle, if_pos h31, if_neg (by omega)]
  have hnone : (regPut [] (regFields (0x40100040 + 256 * n)) w.val (s.pass dt)).cph.load = none := by
    rw [regPut_cph]
    exact hload
  have hslot := kctl_slot hn w.val (s.pass dt)
  generalize regPut [] (regFields (0x40100040 + 256 * n)) w.val (s.pass dt) = k at hnone hslot ⊢
  rw [cphLoadNext, hnone, Option.isSome_none, if_neg Bool.false_ne_true]
  refine ⟨State.rd_wr_same _ _ _, fun i hi => look_keyRegs_taken hi _, ?_⟩
  rw [← hslot]
  rfl

theorem bitOf_rd_clrBit (f : Field) (i : Nat) (s : State) (hi : i < f.width) : bitOf ((s.clrBit f i).rd f) i = 0 := by
  rw [State.clrBit, State.rd_wr_same, bitOf_eq_ite, Nat.testBit_mod_two_pow, testBit_putBits]
  simp [hi]

theorem cphClear_slot (n i : Nat) (s : State) (hk : keysRise s.cph.slots = true) : look (cphSlot n i) (cphClear n i s).cph.slots = none := look_del_same _ _ hk

theorem cphClear_valid (n i : Nat) (s : State) (hi : i < 8) : bitOf ((cphClear n i s).rd (Reg.CPH_KSTAT_VALID n)) i = 0 := by
  rw [cphClear, State.clrBit, State.rd_wr_other _ _ (by simp [Field.key, Reg.CPH_KSTAT_VALID, Reg.CPH_KSTAT_K256])]
  exact bitOf_rd_clrBit _ _ _ hi

theorem keyClear_clears (n : Nat) (w : BusReq) (dt : Nat) (s : State) (hn : n < 4) (ha : w.addr = 0x40100040 + 256 * n) (hok : keyClearOk w = true) (h31 : bitOf w.val 31 = 0)
    (hl : writeLands w (s.pass dt) = true) (hidle : s.on (Reg.CPH_STAT_BUSY n) = false) (hk : keysRise s.cph.slots = true) :
    completes (.keyClear w dt) s (fun t => look (cphSlot n (w.val % 8)) t.cph.slots = none ∧ bitOf (t.rd (Reg.CPH_KSTAT_VALID n)) (w.val % 8) = 0) := by
  have h30 : bitOf w.val 30 = 1 := setsBit_iff.1 (Bool.and_eq_true_iff.1 hok).2
  refine completes_slotWrite rfl hok hl (by omega) (by omega) ?_
  rw [ha, slotWrite_cph (by omega) (by omega) (by rw [cphKctl_fields n hn]; rfl), cphWrite_kctl (s := s.pass dt) hn hidle, if_neg (by omega), if_pos h30]
  exact ⟨cphClear_slot _ _ _ (by rw [regPut_cph]; exact hk), cphClear_valid _ _ _ (Nat.mod_lt _ (by omega))⟩

/-! ### PROT (R538, R539) -/

theorem changesOnly_cphClear (n i : Nat) (s : State) : changesOnly [Reg.CPH_KSTAT_VALID n, Reg.CPH_KSTAT_K256 n] [.cph] s (cphClear n i s) :=
  (((changesOnly_refl _ _ _).withCph _ (by simp)).clrBit _ (by simp)).clrBit _ (by simp)

/-- The fields that a change of a context's owner may write. -/
def cphOwnerFields (n : Nat) : List Field := cphEndFields n ++ [Reg.CPH_KSTAT_VALID n, Reg.CPH_KSTAT_K256 n]

theorem changesOnly_cphOwnerChange (n : Nat) (s : State) : changesOnly (cphOwnerFields n) [.cph, .flight] s (cphOwnerChange n s) := by
  have hclear (l : List Nat) (t : State) (h : changesOnly (cphOwnerFields n) [.cph, .flight] s t) : changesOnly (cphOwnerFields n) [.cph, .flight] s (l.foldl (fun u i => cphClear n i u) t) := by
    induction l generalizing t with
    | nil => exact h
    | cons i l ih => exact ih _ (h.trans ((changesOnly_cphClear n i t).mono (by simp [cphOwnerFields]) (by simp)))
  refine hclear _ _ (.ite (fun _ => ?_) fun _ => changesOnly_refl _ _ _)
  exact (changesOnly_cphEnd n 7 [] false s).mono (by simp +contextual [cphOwnerFields]) (by simp)

/-- A change of an entry's owner leaves the registers of PROT and what follows them alone. -/
theorem ownerChange_rd (k : Nat) (s : State) (f : Field) (hf : 0x40100800 ≤ f.addr) : (ownerChange k s).rd f = s.rd f := by
  have hcph (m : Nat) (hm : m < 4) : (cphOwnerChange m s).rd f = s.rd f := by
    refine (changesOnly_cphOwnerChange m s).rd f ?_
    simp only [cphOwnerFields, cphEndFields, Field.key, Reg.CPH_STAT_BUSY, Reg.CPH_STAT_DONE, Reg.CPH_STAT_ERR, Reg.CPH_DOUT, Reg.CPH_STAT_MATCH, Reg.CPH_MSGCNT, Reg.CPH_STAT_FREE, Reg.CPH_KSTAT_VALID, Reg.CPH_KSTAT_K256,
      List.cons_append, List.nil_append, List.forall_mem_cons, List.not_mem_nil, false_implies, implies_true, and_true]
    omega
  unfold ownerChange
  split
  · next hk =>
    unfold cmpDisarm
    split
    · exact State.rd_wr_other _ _ (by simp only [Field.key, Reg.FIRN_CMP_STAT_ARMED]; omega)
    · rfl
  · split
    · exact rd_of_regs (krnEndAll_parts s s (partsOnly_refl [.runner, .freeCtr, .mem, .flight, .sig] s) rfl .regs (by decide)) f
    · split
      · exact hcph 2 (by omega)
      · split
        · exact hcph 3 (by omega)
        · rfl

theorem protWrite_own {k : Nat} (hk : k < 49) (hlock : s.on Reg.PROT_CTL_LOCK = false) (v : Nat) (hv : v % 32 ≤ 4 ∨ v % 32 = 21) (f : Field) (hf : f ∈ regFields (0x40100900 + 4 * k)) :
    (protWrite (0x40100900 + 4 * k) v (regFields (0x40100900 + 4 * k)) s).rd f = fieldAfter f v s := by
  have hput : (regPut [] (regFields (0x40100900 + 4 * k)) v s).rd f = fieldAfter f v s := by
    refine regPut_rd _ _ _ ?_ f hf
    rw [protOwn_fields k hk]
    simp [Field.key, Reg.PROT_OWN_RDALL, Reg.PROT_OWN_USER, Reg.PROT_OWN_SEC, Reg.PROT_OWN_OWNER]
  have haddr : 0x40100800 ≤ f.addr := by
    rw [protOwn_fields k hk] at hf
    simp only [List.mem_cons, List.not_mem_nil, or_false] at hf
    rcases hf with rfl | rfl | rfl | rfl <;> simp only [Reg.PROT_OWN_RDALL, Reg.PROT_OWN_USER, Reg.PROT_OWN_SEC, Reg.PROT_OWN_OWNER] <;> omega
  have hnil : (regFields (0x40100900 + 4 * k)).isEmpty = false := by rw [protOwn_fields k hk]; rfl
  unfold protWrite
  simp only [hnil, hlock, Bool.false_eq_true, if_false]
  rw [if_neg (by omega), if_neg (by omega), if_pos (by omega), if_neg (not_not.2 hv)]
  split
  · rw [ownerChange_rd _ _ _ haddr, hput]
  · exact hput

theorem ownershipChange_sets (k : Nat) (w : BusReq) (dt : Nat) (s : State) (hk : k < 49) (ha : w.addr = 0x40100900 + 4 * k) (hok : ownershipChangeOk w = true) (hl : writeLands w (s.pass dt) = true)
    (hlock : s.on Reg.PROT_CTL_LOCK = false) (hv : w.val % 32 ≤ 4 ∨ w.val % 32 = 21) :
    completes (.ownershipChange w dt) s (fun t => t.rd (Reg.PROT_OWN_OWNER k) = w.val % 32 ∧ t.rd (Reg.PROT_OWN_SEC k) = bitOf w.val 8) := by
  refine completes_slotWrite rfl hok hl (by omega) (by omega) ?_
  rw [ha, slotWrite_prot (by omega) (by omega) (by rw [protOwn_fields k hk]; rfl), protWrite_own (s := s.pass dt) hk hlock _ hv _ (by simp [protOwn_fields k hk]),
    protWrite_own (s := s.pass dt) hk hlock _ hv _ (by simp [protOwn_fields k hk])]
  simp [fieldAfter, fBits, bitOf, Reg.PROT_OWN_OWNER, Reg.PROT_OWN_SEC]

theorem protLock_locks (w : BusReq) (dt : Nat) (s : State) (hok : protLockOk w = true) (hl : writeLands w (s.pass dt) = true) (hlock : s.on Reg.PROT_CTL_LOCK = false) :
    completes (.protLock w dt) s (fun t => t.rd Reg.PROT_CTL_LOCK = 1 ∧ t.rd Reg.PROT_CTL_DBGEN = bitOf w.val 1 ∧
      changesOnly [Reg.PROT_CTL_LOCK, Reg.PROT_CTL_DBGEN] [] (s.pass dt) t) := by
  obtain ⟨hslot, hbit⟩ := Bool.and_eq_true_iff.1 hok
  simp only [inSlot, Bool.and_eq_true, beq_iff_eq] at hslot
  obtain ⟨⟨_, hhi⟩, hlo⟩ := hslot
  have ha : w.addr = 0x40100800 := by omega
  have hodd : w.val % 2 = 1 := setsBit_iff.1 hbit
  refine completes_slotWrite rfl hok hl (by omega) (by omega) ?_
  rw [ha, slotWrite_prot (by omega) (by omega) protCtl_fields]
  have heq : protWrite 0x40100800 w.val (regFields 0x40100800) (s.pass dt) = ((s.pass dt).wr Reg.PROT_CTL_DBGEN (bitOf w.val 1)).set1 Reg.PROT_CTL_LOCK := by
    have hoff : (s.pass dt).on Reg.PROT_CTL_LOCK = false := hlock
    simp [protWrite, protCtl_fields, hoff, hodd]
  rw [heq]
  refine ⟨State.rd_wr_same _ _ _, ?_, ((changesOnly_refl _ _ _).wr _ (by simp)).set1 (by simp)⟩
  rw [State.set1, State.rd_wr_other _ _ (by decide), State.rd_wr_same]
  simp [bitOf, Reg.PROT_CTL_DBGEN]

end
end Sys2Proof.Machine

open Sys2Proof Sys2Proof.Machine

/-- Settles O13: each register by its own lemma. -/
theorem cipherAccesses : Obligations.CipherAccesses := by
  unfold Obligations.CipherAccesses
  exact ⟨start_begins, start_while_busy, abort_ends, din3_submits, keyLoad_begins, keyClear_clears, ownershipChange_sets, protLock_locks⟩
end

section
/-!
SUPPORT. The blocks of Caldera's engine and the end of a key load (R520, R522, R526, R529).
-/
namespace Sys2Proof.Machine

section
variable {n fault dt : Nat} {b : List Nat} {s : State}

/-- The engine is free. -/
def cphFreed (s : State) : State := { s with cph := { s.cph with engine := none } }

theorem blockEnd_live (he : s.cph.engine = some ⟨n, b, true⟩) (h0 : fault = 0) (hab : (cphCtx s n).abortReq = false) : blockEnd fault s = cphRun (cphBlock n b (cphFreed s)) := by
  subst h0
  have hab' : (cphCtx (cphFreed s) n).abortReq = false := hab
  rw [blockEnd, he]
  simp only [cphFreed] at hab' ⊢
  simp [hab']

theorem blockEnd_aborted (he : s.cph.engine = some ⟨n, b, true⟩) (h0 : fault = 0) (hab : (cphCtx s n).abortReq = true) : blockEnd fault s = cphRun (cphEnd n 6 [] false (cphFreed s)) := by
  subst h0
  have hab' : (cphCtx (cphFreed s) n).abortReq = true := hab
  rw [blockEnd, he]
  simp only [cphFreed] at hab' ⊢
  simp [hab']

theorem blockEnd_parity (he : s.cph.engine = some ⟨n, b, true⟩) (h1 : fault = 1) : blockEnd fault s = cphRun (cphEnd n 4 [] false (cphParity (cphFreed s))) := by
  subst h1
  rw [blockEnd, he]
  simp [cphFreed]

/-- The end of a message empties its own queue and touches no other. -/
theorem cphEnd_queues {err : Nat} {result : List Nat} {hit : Bool} (hn : n < 4) (hq : ∀ m < 4, (cphCtx s m).queue = []) : ∀ m < 4, (cphCtx (cphEnd n err result hit s) m).queue = [] := by
  intro m hm
  have hctx (m : Nat) : cphCtx (cphEnd n err result hit s) m = cphCtx (cphModCtx n (fun c => { c with queue := [], submitted := 0, abortReq := false, startWait := false, derived := [], key := ⟨[], 0⟩, chain := zero16 }) s) m := by
    rw [cphCtx, cphEnd_cph]
    rfl
  rw [hctx]
  by_cases h : m = n
  · subst h
    rw [cphModCtx_same hn]
  · rw [cphModCtx_other h, hq m hm]

/-- One more block of context `n` has been through the engine. -/
def cphPassed (n : Nat) (s : State) : State := (cphFreed s).wr (Reg.CPH_STAT_BLOCKS n) (s.rd (Reg.CPH_STAT_BLOCKS n) + 1)

theorem cphPassed_blocks (n : Nat) (s : State) : (cphPassed n s).rd (Reg.CPH_STAT_BLOCKS n) = (s.rd (Reg.CPH_STAT_BLOCKS n) + 1) % 2 ^ 16 := State.rd_wr_same _ _ _

theorem changesOnly_cphPassed (n : Nat) (s : State) : changesOnly [Reg.CPH_STAT_BLOCKS n] [.cph] s (cphPassed n s) := ((changesOnly_refl _ _ _).withCph _ (by simp)).wr _ (by simp)

theorem cphModCtx_congr {f g : CphCtx → CphCtx} (h : f (cphCtx s n) = g (cphCtx s n)) : cphModCtx n f s = cphModCtx n g s := by
  unfold cphModCtx
  rw [h]

theorem cphBlock_blk (hop : s.rd (Reg.CPH_CFG_OP n) = 3) :
    cphBlock n b (cphFreed s) = cphEnd n 0 (aesEncrypt (cphCtx s n).key.key b) (cphHit n (aesEncrypt (cphCtx s n).key.key b) (cphPassed n s)) (cphPassed n s) := by
  have hop' : (cphFreed s).rd (Reg.CPH_CFG_OP n) = 3 := hop
  unfold cphBlock
  simp only [hop']
  rfl

/-- A context whose chaining state has taken a block. -/
def cphChained (b : List Nat) (c : CphCtx) : CphCtx := { c with chain := cbcStep c.key.key c.chain b }

/-- A block before the last leaves the next chaining state (R522). -/
theorem cphBlock_chain (hop : s.rd (Reg.CPH_CFG_OP n) = 1 ∨ s.rd (Reg.CPH_CFG_OP n) = 2) (hmore : s.rd (Reg.CPH_STAT_BLOCKS n) + 1 < cdiv (s.rd (Reg.CPH_LEN_LEN n)) 16) :
    cphBlock n b (cphFreed s) = cphModCtx n (cphChained b) (cphPassed n s) := by
  have hlast : ¬ cphBlocksOf ((cphFreed s).rd (Reg.CPH_LEN_LEN n)) ≤ (cphFreed s).rd (Reg.CPH_STAT_BLOCKS n) + 1 := Nat.not_le.2 hmore
  have hrd : (cphFreed s).rd (Reg.CPH_CFG_OP n) = s.rd (Reg.CPH_CFG_OP n) := rfl
  unfold cphBlock
  simp only [hlast, decide_false, Bool.false_eq_true, if_false, hrd]
  rcases hop with hop | hop <;> simp only [hop]
  · rfl
  · exact cphModCtx_congr rfl

theorem cphModCtx_queues {f : CphCtx → CphCtx} (hf : ∀ c, (f c).queue = c.queue) (hn : n < 4) (hq : ∀ m < 4, (cphCtx s m).queue = []) : ∀ m < 4, (cphCtx (cphModCtx n f s) m).queue = [] := by
  intro m hm
  by_cases h : m = n
  · subst h
    rw [cphModCtx_same hn, hf, hq m hm]
  · rw [cphModCtx_other h, hq m hm]

theorem blockEnd_single (n dt : Nat) (b r : List Nat) (s : State) (hn : n < 4) (he : s.cph.engine = some ⟨n, b, true⟩) (hab : (cphCtx s n).abortReq = false) (hop : s.rd (Reg.CPH_CFG_OP n) = 3)
    (hq : ∀ m, m < 4 → (cphCtx s m).queue = []) (hr : r = aesEncrypt (cphCtx s n).key.key b) (_ : r.length = 16) (_ : ∀ x ∈ r, x < 256) :
    completes (.blockEnd 0 dt) s (fun t => (∀ i, i < 4 → t.rd (Reg.CPH_DOUT n i) = leAt r (4 * i) 4) ∧ t.rd (Reg.CPH_STAT_DONE n) = 1 ∧ t.rd (Reg.CPH_STAT_BUSY n) = 0 ∧ t.rd (Reg.CPH_STAT_ERR n) = 0 ∧
      t.rd (Reg.CPH_STAT_BLOCKS n) = (s.rd (Reg.CPH_STAT_BLOCKS n) + 1) % 2 ^ 16 ∧ t.rd (Reg.CPH_MSGCNT n) = satAdd 32 (s.rd (Reg.CPH_MSGCNT n)) 1 ∧ t.cph.engine = none ∧
      t.flight = s.flight ++ (if n = 2 then [168] else if n = 3 then [169] else [])) := by
  have hok : blockEndOk (s.pass dt) = true := congrArg Option.isSome he
  refine completes_of_onlyIf rfl hok ?_
  rw [blockEnd_live (s := s.pass dt) he rfl hab, cphBlock_blk (s := s.pass dt) hop, show cphCtx (s.pass dt) n = cphCtx s n from rfl, ← hr]
  rw [cphRun_idle (cphEnd_queues (s := cphPassed n (s.pass dt)) hn hq)]
  obtain ⟨hbusy, hdone, herr, _⟩ := cphEnd_status n 0 r (cphHit n r (cphPassed n (s.pass dt))) (cphPassed n (s.pass dt)) (by omega)
  refine ⟨fun i hi => cphEnd_dout _ _ _ _ _ _ hi, hdone, hbusy, herr, ?_, ?_, cphEnd_engine _ _ _ _ _ rfl, cphEnd_flight _ _ _ _ _⟩
  · rw [(changesOnly_cphEnd _ _ _ _ _).rd (Reg.CPH_STAT_BLOCKS n), cphPassed_blocks]
    · rfl
    · simp +arith [cphEndFields, Field.key, Reg.CPH_STAT_BLOCKS, Reg.CPH_STAT_BUSY, Reg.CPH_STAT_DONE, Reg.CPH_STAT_ERR, Reg.CPH_DOUT, Reg.CPH_STAT_MATCH, Reg.CPH_MSGCNT, Reg.CPH_STAT_FREE]
  · rw [cphEnd_msgcnt, if_pos rfl, (changesOnly_cphPassed n (s.pass dt)).rd _ (by simp +arith [Field.key, Reg.CPH_MSGCNT, Reg.CPH_STAT_BLOCKS])]
    rfl

theorem blockEnd_more (n dt : Nat) (b : List Nat) (s : State) (hn : n < 4) (he : s.cph.engine = some ⟨n, b, true⟩) (hab : (cphCtx s n).abortReq = false)
    (hop : s.rd (Reg.CPH_CFG_OP n) = 1 ∨ s.rd (Reg.CPH_CFG_OP n) = 2) (hq : ∀ m, m < 4 → (cphCtx s m).queue = []) (hmore : s.rd (Reg.CPH_STAT_BLOCKS n) + 1 < cdiv (s.rd (Reg.CPH_LEN_LEN n)) 16) :
    completes (.blockEnd 0 dt) s (fun t => (cphCtx t n).chain = aesEncrypt (cphCtx s n).key.key (xorB (cphCtx s n).chain b) ∧ t.rd (Reg.CPH_STAT_BLOCKS n) = (s.rd (Reg.CPH_STAT_BLOCKS n) + 1) % 2 ^ 16 ∧ t.cph.engine = none ∧
      changesOnly [Reg.CPH_STAT_BLOCKS n] [.cph] (s.pass dt) t) := by
  have hok : blockEndOk (s.pass dt) = true := congrArg Option.isSome he
  refine completes_of_onlyIf rfl hok ?_
  rw [blockEnd_live (s := s.pass dt) he rfl hab, cphBlock_chain (s := s.pass dt) hop hmore, cphRun_idle (cphModCtx_queues (f := cphChained b) (s := cphPassed n (s.pass dt)) (fun _ => rfl) hn hq)]
  refine ⟨?_, ?_, ?_, changesOnly_cphModCtx (changesOnly_cphPassed n _) _ (by simp)⟩
  · rw [cphModCtx_same hn]
    rfl
  · rw [cphModCtx_rd, cphPassed_blocks]
    rfl
  · rw [cphModCtx_cph_engine]
    rfl

theorem blockEnd_fails (n e fault dt : Nat) (b : List Nat) (s : State) (hn : n < 4) (he : s.cph.engine = some ⟨n, b, true⟩) (hq : ∀ m, m < 4 → (cphCtx s m).queue = [])
    (hf : fault = 1 ∧ e = 4 ∨ fault = 0 ∧ (cphCtx s n).abortReq = true ∧ e = 6) :
    completes (.blockEnd fault dt) s (fun t => t.rd (Reg.CPH_STAT_ERR n) = e ∧ t.rd (Reg.CPH_STAT_DONE n) = 1 ∧ t.rd (Reg.CPH_STAT_BUSY n) = 0 ∧ t.rd (Reg.CPH_STAT_MATCH n) = 0 ∧ (∀ i, i < 4 → t.rd (Reg.CPH_DOUT n i) = 0) ∧
      t.rd Reg.CPH_PARCNT = (if fault = 1 then satAdd 32 (s.rd Reg.CPH_PARCNT) 1 else s.rd Reg.CPH_PARCNT) ∧ t.rd (Reg.CPH_MSGCNT n) = s.rd (Reg.CPH_MSGCNT n) ∧
      t.flight = s.flight ++ (if fault = 1 then [170] else []) ++ (if n = 2 then [168] else if n = 3 then [169] else [])) := by
  have hok : blockEndOk (s.pass dt) = true := congrArg Option.isSome he
  have hpar (z : State) : (cphEnd n e [] false z).rd Reg.CPH_PARCNT = z.rd Reg.CPH_PARCNT := by
    refine (changesOnly_cphEnd n e [] false z).rd _ ?_
    simp only [cphEndFields, Field.key, Reg.CPH_PARCNT, Reg.CPH_STAT_BUSY, Reg.CPH_STAT_DONE, Reg.CPH_STAT_ERR, Reg.CPH_DOUT, Reg.CPH_STAT_MATCH, Reg.CPH_MSGCNT, Reg.CPH_STAT_FREE,
      List.forall_mem_cons, List.not_mem_nil, false_implies, implies_true, and_true]
    omega
  have hends (z : State) (he4 : e ≠ 0) (he16 : e < 16) : (cphEnd n e [] false z).rd (Reg.CPH_STAT_ERR n) = e ∧ (cphEnd n e [] false z).rd (Reg.CPH_STAT_DONE n) = 1 ∧ (cphEnd n e [] false z).rd (Reg.CPH_STAT_BUSY n) = 0 ∧
      (cphEnd n e [] false z).rd (Reg.CPH_STAT_MATCH n) = 0 ∧ (∀ i, i < 4 → (cphEnd n e [] false z).rd (Reg.CPH_DOUT n i) = 0) := by
    obtain ⟨hbusy, hdone, herr, hmatch⟩ := cphEnd_status n e [] false z he16
    exact ⟨herr, hdone, hbusy, by simpa [he4, b2n] using hmatch, fun i hi => by rw [cphEnd_dout _ _ _ _ _ _ hi, if_neg he4, leAt_zero16 i hi]⟩
  refine completes_of_onlyIf rfl hok ?_
  rcases hf with ⟨h1, rfl⟩ | ⟨h0, hab, rfl⟩
  · rw [blockEnd_parity (s := s.pass dt) he h1, cphRun_idle (cphEnd_queues (s := cphParity (cphFreed (s.pass dt))) hn hq), hpar, cphEnd_msgcnt, cphEnd_flight]
    obtain ⟨herr, hdone, hbusy, hmatch, hdout⟩ := hends (cphParity (cphFreed (s.pass dt))) (by omega) (by omega)
    refine ⟨herr, hdone, hbusy, hmatch, hdout, ?_, ?_, ?_⟩
    · rw [if_pos h1, cphParity, State.rd_raise, State.rd_inc_same]
      rfl
    · rw [if_neg (by omega), cphParity, State.rd_raise, State.rd_inc, if_neg (by simp [Field.key, Reg.CPH_MSGCNT, Reg.CPH_PARCNT]; omega)]
      rfl
    · rw [if_pos h1]
      rfl
  · rw [blockEnd_aborted (s := s.pass dt) he h0 hab, cphRun_idle (cphEnd_queues (s := cphFreed (s.pass dt)) hn hq), hpar, cphEnd_msgcnt, cphEnd_flight]
    obtain ⟨herr, hdone, hbusy, hmatch, hdout⟩ := hends (cphFreed (s.pass dt)) (by omega) (by omega)
    refine ⟨herr, hdone, hbusy, hmatch, hdout, ?_, rfl, ?_⟩
    · rw [if_neg (by omega)]
      rfl
    · rw [if_neg (show ¬ fault = 1 by omega), List.append_nil]
      rfl

/-! ### The end of a key load (R520) -/

theorem changesOnly_cphSetKey {fs : List Field} {ps : List Piece} {z : State} (h : changesOnly fs ps z s) (i : Nat) (k : KeySlot) (hv : Reg.CPH_KSTAT_VALID n ∈ fs) (h256 : Reg.CPH_KSTAT_K256 n ∈ fs)
    (hp : Piece.cph ∈ ps) : changesOnly fs ps z (cphSetKey n i k s) :=
  .ite (fun _ => ((h.withCph _ hp).setBit _ hv).setBit _ h256) fun _ => ((h.withCph _ hp).setBit _ hv).clrBit _ h256

theorem cphSetKey_cph (n i : Nat) (k : KeySlot) (s : State) : (cphSetKey n i k s).cph = { s.cph with slots := put (cphSlot n i) k s.cph.slots } := by
  unfold cphSetKey
  split <;> rfl

theorem cphSetKey_valid (n i : Nat) (k : KeySlot) (s : State) (hi : i < 8) : bitOf ((cphSetKey n i k s).rd (Reg.CPH_KSTAT_VALID n)) i = 1 := by
  have hne : (Reg.CPH_KSTAT_VALID n).key ≠ (Reg.CPH_KSTAT_K256 n).key := by simp [Field.key, Reg.CPH_KSTAT_VALID, Reg.CPH_KSTAT_K256]
  unfold cphSetKey
  split
  · rw [State.setBit, State.rd_wr_other _ _ hne]
    exact bitOf_rd_setBit _ hi
  · rw [State.clrBit, State.rd_wr_other _ _ hne]
    exact bitOf_rd_setBit _ hi

theorem cphSetKey_size (n i : Nat) (k : KeySlot) (s : State) (hi : i < 8) : bitOf ((cphSetKey n i k s).rd (Reg.CPH_KSTAT_K256 n)) i = b2n (decide (k.key.length = 32)) := by
  unfold cphSetKey
  split
  · next h =>
    rw [bitOf_rd_setBit _ hi]
    simp [h, b2n]
  · next h =>
    rw [bitOf_rd_clrBit _ _ _ hi]
    simp [h, b2n]

theorem keyLoadDone_loads (dt : Nat) (l : CphLoad) (s : State) (hl : s.cph.load = some l) (_ : l.ctx < 4) (hslot : l.slot < 8) (hwait : (cphCtx s l.ctx).startWait = false) :
    completes (.keyLoadDone dt) s (fun t => t.cph.load = none ∧ look (cphSlot l.ctx l.slot) t.cph.slots = some l.key ∧ t.rd (Reg.CPH_KSTAT_KBUSY l.ctx) = 0 ∧ bitOf (t.rd (Reg.CPH_KSTAT_VALID l.ctx)) l.slot = 1 ∧
      bitOf (t.rd (Reg.CPH_KSTAT_K256 l.ctx)) l.slot = b2n (decide (l.key.key.length = 32)) ∧
      changesOnly [Reg.CPH_KSTAT_KBUSY l.ctx, Reg.CPH_KSTAT_VALID l.ctx, Reg.CPH_KSTAT_K256 l.ctx] [.cph] (s.pass dt) t) := by
  have hok : keyLoadDoneOk (s.pass dt) = true := congrArg Option.isSome hl
  have heq : keyLoadDone (s.pass dt) = cphSetKey l.ctx l.slot l.key ({ s.pass dt with cph := { s.cph with load := none } }.clr (Reg.CPH_KSTAT_KBUSY l.ctx)) := by
    have hl' : (s.pass dt).cph.load = some l := hl
    have hctx (u : State) : (cphCtx (cphSetKey l.ctx l.slot l.key u) l.ctx).startWait = (cphCtx u l.ctx).startWait := by
      rw [cphCtx, cphSetKey_cph]
      rfl
    unfold keyLoadDone
    rw [hl']
    dsimp only
    rw [hctx]
    exact if_neg (Bool.eq_false_iff.1 hwait)
  refine completes_of_onlyIf rfl hok ?_
  rw [heq]
  refine ⟨?_, ?_, ?_, cphSetKey_valid _ _ _ _ hslot, cphSetKey_size _ _ _ _ hslot, changesOnly_cphSetKey (((changesOnly_refl _ _ _).withCph _ (by simp)).clr (by simp)) _ _ (by simp) (by simp) (by simp)⟩
  · rw [cphSetKey_cph]
    rfl
  · rw [cphSetKey_cph]
    exact look_put_same _ _ _
  · rw [(changesOnly_cphSetKey (fs := [Reg.CPH_KSTAT_VALID l.ctx, Reg.CPH_KSTAT_K256 l.ctx]) (ps := [.cph]) (changesOnly_refl _ _ _) _ _ (by simp) (by simp) (by simp)).rd _
      (by simp [Field.key, Reg.CPH_KSTAT_KBUSY, Reg.CPH_KSTAT_VALID, Reg.CPH_KSTAT_K256])]
    exact State.rd_wr_same _ _ _

end
end Sys2Proof.Machine
end

section
/-!
SUPPORT. The delivery of events (R553, R554, R558, R562, R641).
-/
namespace Sys2Proof.Machine

section
variable {α β : Type}

/-- A fold whose steps leave its start alone ends where it starts. -/
theorem foldl_id_of_mem (f : β → α → β) (l : List α) (b : β) (h : ∀ a ∈ l, f b a = b) : l.foldl f b = b := by
  induction l with
  | nil => rfl
  | cons a l ih =>
    rw [List.foldl_cons, h a List.mem_cons_self]
    exact ih fun c hc => h c (List.mem_cons_of_mem _ hc)

/-- A fold in which one element alone acts, before which and after which the others do nothing. -/
theorem foldl_single (f : β → α → β) (x : α) (l : List α) (b : β) (hnd : l.Nodup) (hx : x ∈ l) (hbefore : ∀ a ∈ l, a ≠ x → f b a = b) (hafter : ∀ a ∈ l, a ≠ x → f (f b x) a = f b x) : l.foldl f b = f b x := by
  induction l with
  | nil => cases hx
  | cons a l ih =>
    obtain ⟨ha, hnd⟩ := List.nodup_cons.1 hnd
    rcases List.mem_cons.1 hx with rfl | hx
    · exact foldl_id_of_mem f l _ fun c hc => hafter c (List.mem_cons_of_mem _ hc) (fun he => ha (he ▸ hc))
    · have hne : a ≠ x := fun he => ha (he ▸ hx)
      rw [List.foldl_cons, hbefore a List.mem_cons_self hne]
      exact ih hnd hx (fun c hc => hbefore c (List.mem_cons_of_mem _ hc)) fun c hc => hafter c (List.mem_cons_of_mem _ hc)

end

section
variable {c l src dt ch : Nat} {s : State}

/-! ### Interrupt lines (R562) -/

/-- A line whose event arrives: PEND, or OVR beside it. -/
def lineSet (p : Nat × Nat) (s : State) : State := if s.on (Reg.INTC_LINE_PEND p.1 p.2) then s.set1 (Reg.INTC_LINE_OVR p.1 p.2) else s.set1 (Reg.INTC_LINE_PEND p.1 p.2)

/-- The fields of the lines listed. -/
def lineFields (L : List (Nat × Nat)) : List Field := L.flatMap (fun p => [Reg.INTC_LINE_PEND p.1 p.2, Reg.INTC_LINE_OVR p.1 p.2])

theorem lineSet_rd_low (p : Nat × Nat) (s : State) (f : Field) (hf : f.addr < 0x40038000) (hlo : f.lo < 32) : (lineSet p s).rd f = s.rd f := by
  unfold lineSet
  split <;> exact State.rd_wr_other _ _ (by simp only [Field.key, Reg.INTC_LINE_OVR, Reg.INTC_LINE_PEND]; omega)

theorem lineSet_domOn (p : Nat × Nat) (s : State) (n : Nat) (hn : n < 16) : domOn (lineSet p s) n = domOn s n := by
  simp only [domOn, domState, lineSet_rd_low p s (Reg.PWR_DOM_STATE n) (by simp only [Reg.PWR_DOM_STATE]; omega) (by simp [Reg.PWR_DOM_STATE])]

theorem iniDomain_lt (c : Nat) : iniDomain c < 16 := by
  unfold iniDomain
  split_ifs <;> omega

theorem intcPend_on (c l : Nat) (s : State) (h : domOn s (iniDomain c) = true) : intcPend c l s = lineSet (c, l) s := by
  have hon : domOn (lineSet (c, l) s) (iniDomain c) = true := by rw [lineSet_domOn _ _ _ (iniDomain_lt c), h]
  show (if (!domOn (lineSet (c, l) s) (iniDomain c) && (lineSet (c, l) s).on (Reg.PWR_DOM_EVWAKE (iniDomain c))) = true then votesOn (iniDomain c) (lineSet (c, l) s) else lineSet (c, l) s) = _
  simp [hon]

theorem lineSet_pend (p : Nat × Nat) (s : State) (c l : Nat) (hl : l < 128) (hp : p.2 < 128) : (lineSet p s).rd (Reg.INTC_LINE_PEND c l) = if (c, l) = p then 1 else s.rd (Reg.INTC_LINE_PEND c l) := by
  obtain ⟨c', l'⟩ := p
  have hovr : (Reg.INTC_LINE_PEND c l).key ≠ (Reg.INTC_LINE_OVR c' l').key := by simp only [Field.key, Reg.INTC_LINE_OVR, Reg.INTC_LINE_PEND]; omega
  unfold lineSet
  split
  · next hon =>
    rw [State.set1, State.rd_wr_other _ _ hovr]
    split
    · next he =>
      obtain ⟨rfl, rfl⟩ := Prod.mk.inj he
      exact beq_iff_eq.1 hon
    · rfl
  · rw [State.set1, State.rd_wr]
    have hkey : (Reg.INTC_LINE_PEND c l).key = (Reg.INTC_LINE_PEND c' l').key ↔ (c, l) = (c', l') := by
      simp only [Field.key, Reg.INTC_LINE_PEND, Prod.mk.injEq]
      simp only at hp
      omega
    simp only [hkey]
    rfl

/-- The lines that an event reaches, one after another. -/
theorem foldl_lineSet (L L0 : List (Nat × Nat)) (hsub : ∀ p ∈ L, p ∈ L0) (hL : ∀ p ∈ L, p.2 < 128) (s : State) :
    changesOnly (lineFields L0) [] s (L.foldl (fun t p => lineSet p t) s) ∧
      ∀ c l, l < 128 → (L.foldl (fun t p => lineSet p t) s).rd (Reg.INTC_LINE_PEND c l) = if (c, l) ∈ L then 1 else s.rd (Reg.INTC_LINE_PEND c l) := by
  induction L generalizing s with
  | nil => exact ⟨changesOnly_refl _ _ _, fun c l _ => by simp⟩
  | cons p L ih =>
    obtain ⟨hch, hrd⟩ := ih (fun q hq => hsub q (List.mem_cons_of_mem _ hq)) (fun q hq => hL q (List.mem_cons_of_mem _ hq)) (lineSet p s)
    have hmem (f : Field) (hf : f ∈ [Reg.INTC_LINE_PEND p.1 p.2, Reg.INTC_LINE_OVR p.1 p.2]) : f ∈ lineFields L0 := List.mem_flatMap.2 ⟨p, hsub p List.mem_cons_self, hf⟩
    have hstep : changesOnly (lineFields L0) [] s (lineSet p s) :=
      .ite (fun _ => (changesOnly_refl _ _ _).set1 (hmem _ (by simp))) fun _ => (changesOnly_refl _ _ _).set1 (hmem _ (by simp))
    refine ⟨hstep.trans hch, fun c l hl => ?_⟩
    rw [List.foldl_cons, hrd c l hl, lineSet_pend _ _ _ _ hl (hL p List.mem_cons_self)]
    by_cases h : (c, l) ∈ L <;> by_cases h' : (c, l) = p <;> simp [h, h']

theorem foldl_intcPend (L : List (Nat × Nat)) (hon : ∀ p ∈ L, domOn s (iniDomain p.1) = true) : L.foldl (fun t p => intcPend p.1 p.2 t) s = L.foldl (fun t p => lineSet p t) s := by
  induction L generalizing s with
  | nil => rfl
  | cons p L ih =>
    rw [List.foldl_cons, List.foldl_cons, intcPend_on _ _ _ (hon p List.mem_cons_self)]
    exact ih fun q hq => by
      rw [lineSet_domOn _ _ _ (iniDomain_lt _)]
      exact hon q (List.mem_cons_of_mem _ hq)

theorem srcLines_lt (src : Nat) (s : State) : ∀ p ∈ srcLines src s, p.2 < 128 := by
  intro p hp
  simp only [srcLines, List.mem_filterMap] at hp
  obtain ⟨q, _, hq⟩ := hp
  split at hq
  · next h =>
    obtain rfl := Option.some.inj hq
    show (q.1 / 32 % 2 ^ 32 - 0x40038000) / 4 < 128
    omega
  · cases hq

/-! ### Groups and channels (R554, R558, R559) -/

theorem foldl_groups (h : ∀ g, g < 8 → s.rd (Reg.EVT_GRP_ENSRC g) ≠ src ∧ s.rd (Reg.EVT_GRP_DISSRC g) ≠ src) :
    (List.range 8).foldl (fun t g =>
      let t1 := if t.rd (Reg.EVT_GRP_ENSRC g) = src then grpSet g true t else t
      if t1.rd (Reg.EVT_GRP_DISSRC g) = src then grpSet g false t1 else t1) s = s := by
  refine foldl_id_of_mem _ _ _ fun g hg => ?_
  obtain ⟨hen, hdis⟩ := h g (List.mem_range.1 hg)
  simp only [hen, hdis, if_false]

/-- A source that no group selects reaches its lines. -/
theorem srcReach_lines (hon : ∀ p ∈ srcLines src s, domOn s (iniDomain p.1) = true) (hg : ∀ g, g < 8 → s.rd (Reg.EVT_GRP_ENSRC g) ≠ src ∧ s.rd (Reg.EVT_GRP_DISSRC g) ≠ src) :
    srcReach src s = (srcLines src s).foldl (fun t p => lineSet p t) s := by
  unfold srcReach
  simp only
  rw [foldl_intcPend _ hon]
  refine foldl_groups fun g hlt => ?_
  have hrd (f : Field) (hf : f.addr < 0x40038000) (hlo : f.lo < 32) : ((srcLines src s).foldl (fun t p => lineSet p t) s).rd f = s.rd f :=
    foldl_mem_rd _ _ _ (fun t p _ => lineSet_rd_low p t f hf hlo) s
  rw [hrd _ (by simp only [Reg.EVT_GRP_ENSRC]; omega) (by simp [Reg.EVT_GRP_ENSRC]), hrd _ (by simp only [Reg.EVT_GRP_DISSRC]; omega) (by simp [Reg.EVT_GRP_DISSRC])]
  exact hg g hlt

theorem takeFlight_one {l : List Nat} (h : l.contains src = true) : takeFlight [src] l = some (l.erase src) := if_pos h

theorem eventDelivery_ok (hf : s.flight.contains src = true) (hstop : s.pwr.stop ≠ .stopped) (hdead : s.pwr.fabDead = false) : eventDeliveryOk [src] s = true := by
  simp only [eventDeliveryOk, takeFlight_one hf, hdead]
  simp [hstop]

/-- A source in flight has been taken. -/
def eventTaken (src : Nat) (s : State) : State := { s with flight := s.flight.erase src }

/-- With PD_FAB On a source that is in flight arrives. -/
theorem eventDelivery_on (hf : s.flight.contains src = true) (hon : domOn s 11 = true) : eventDelivery [src] s = srcArrive src (eventTaken src s) := by
  simp only [eventDelivery, takeFlight_one hf, hon, if_true, eventTaken]
  simp only [dedupe, List.foldl_cons, List.foldl_nil, List.contains_nil, Bool.false_eq_true, if_false, List.nil_append]

theorem event_reaches_lines (src dt : Nat) (s : State) (hf : s.flight.contains src = true) (hstop : s.pwr.stop ≠ .stopped) (hdead : s.pwr.fabDead = false) (hon : domOn s 11 = true) (_ : 0 < src)
    (hch : ∀ ch, ch < 64 → s.rd (Reg.EVT_CH_CFG_SRC ch) ≠ src) (hg : ∀ g, g < 8 → s.rd (Reg.EVT_GRP_ENSRC g) ≠ src ∧ s.rd (Reg.EVT_GRP_DISSRC g) ≠ src)
    (hp : ∀ p ∈ srcLines src s, domOn s (iniDomain p.1) = true) :
    completes (.eventDelivery [src] dt) s (fun t => t.flight = s.flight.erase src ∧ changesOnly ((srcLines src s).flatMap (fun p => [Reg.INTC_LINE_PEND p.1 p.2, Reg.INTC_LINE_OVR p.1 p.2])) [.flight] (s.pass dt) t ∧
      ∀ c l, l < 128 → t.rd (Reg.INTC_LINE_PEND c l) = if (c, l) ∈ srcLines src s then 1 else s.rd (Reg.INTC_LINE_PEND c l)) := by
  refine completes_of_onlyIf rfl (eventDelivery_ok (s := s.pass dt) hf hstop hdead) ?_
  rw [eventDelivery_on (s := s.pass dt) hf hon, srcArrive, srcReach_lines (s := eventTaken src (s.pass dt)) hp hg]
  obtain ⟨hlines, hrd⟩ := foldl_lineSet (srcLines src s) (srcLines src s) (fun _ h => h) (srcLines_lt src s) (eventTaken src (s.pass dt))
  rw [show srcLines src (eventTaken src (s.pass dt)) = srcLines src s from rfl, foldl_id_of_mem]
  · exact ⟨hlines.2 .flight (by decide), ((changesOnly_refl _ _ (s.pass dt)).withFlight _ (by simp)).trans (hlines.mono (fun _ h => h) (by simp)), hrd⟩
  · intro ch hlt
    rw [if_neg]
    rw [foldl_mem_rd _ _ _ (fun t p _ => lineSet_rd_low p t _ (by simp only [Reg.EVT_CH_CFG_SRC]; have := List.mem_range.1 hlt; omega) (by simp [Reg.EVT_CH_CFG_SRC]))]
    exact fun h => hch ch (List.mem_range.1 hlt) h.1

/-! ### A firing that its group holds back (R558) -/

theorem evtTick_rd (s : State) (f : Field) : (evtTick s).rd f = s.rd f := by
  unfold evtTick
  split <;> rfl

theorem evtTick_grpSees (s : State) (g : Nat) : grpSees (evtTick s) g = grpSees s g := by
  by_cases h : s.evt.cycle = s.elapsed
  · rw [evtTick, if_pos h]
  · rw [evtTick, if_neg h, grpSees, grpSees, if_neg h, if_pos rfl]
    rfl

theorem evtTick_fired (h : s.evt.cycle ≠ s.elapsed ∨ ch ∉ s.evt.fired) : (evtTick s).evt.fired.contains ch = false := by
  unfold evtTick
  split
  · next hc => simpa using h.resolve_left (not_not.2 hc)
  · rfl

theorem ev127_rd (s : State) (f : Field) : (ev127 s).rd f = s.rd f := by
  unfold ev127
  split
  · split <;> rfl
  · rfl

theorem ev127_evt (s : State) : (ev127 s).evt = s.evt := by
  unfold ev127
  split
  · split <;> rfl
  · rfl

/-- Channel `ch` has fired in this cycle and its group has held the firing back. -/
def chanDropped (ch : Nat) (s : State) : State := ev127 ({ evtTick s with evt := { (evtTick s).evt with fired := ch :: (evtTick s).evt.fired } }.inc Reg.EVT_GDROPCNT)

theorem chanFire_dropped (hgen : s.on (Reg.EVT_CH_CFG_GEN ch) = true) (hgrp : grpSees s (s.rd (Reg.EVT_CH_CFG_GRP ch)) = false) (hnew : s.evt.cycle ≠ s.elapsed ∨ ch ∉ s.evt.fired) :
    chanFire ch none s = chanDropped ch s := by
  have hgen' : (evtTick s).on (Reg.EVT_CH_CFG_GEN ch) = true := by rwa [State.on, evtTick_rd]
  have hgrp' : grpSees (evtTick s) ((evtTick s).rd (Reg.EVT_CH_CFG_GRP ch)) = false := by rwa [evtTick_rd, evtTick_grpSees]
  simp only [chanFire, hgen', hgrp', evtTick_fired hnew, Bool.not_false, Bool.true_and, Bool.false_eq_true, if_false, if_true]
  rfl

theorem chanDropped_rd (ch : Nat) (s : State) (f : Field) : (chanDropped ch s).rd f = if f.key = Reg.EVT_GDROPCNT.key then satAdd 32 (s.rd Reg.EVT_GDROPCNT) 1 else s.rd f := by
  have hrd (g : Field) : State.rd { evtTick s with evt := { (evtTick s).evt with fired := ch :: (evtTick s).evt.fired } } g = s.rd g := evtTick_rd s g
  rw [chanDropped, ev127_rd, State.rd_inc, hrd, hrd]
  split
  · exact satAdd_mod _ _ _
  · rfl

theorem event_dropped_by_group (src dt ch : Nat) (s : State) (hf : s.flight.contains src = true) (hstop : s.pwr.stop ≠ .stopped) (hdead : s.pwr.fabDead = false) (hon : domOn s 11 = true) (hsrc : 64 ≤ src)
    (hlt : ch < 64) (hch : s.rd (Reg.EVT_CH_CFG_SRC ch) = src) (hothers : ∀ c, c < 64 → c ≠ ch → s.rd (Reg.EVT_CH_CFG_SRC c) ≠ src)
    (hg : ∀ g, g < 8 → s.rd (Reg.EVT_GRP_ENSRC g) ≠ src ∧ s.rd (Reg.EVT_GRP_DISSRC g) ≠ src) (hlines : srcLines src s = []) (hgen : s.on (Reg.EVT_CH_CFG_GEN ch) = true)
    (hgrp : grpSees (s.pass dt) (s.rd (Reg.EVT_CH_CFG_GRP ch)) = false) (hnew : s.evt.cycle ≠ s.elapsed + dt ∨ ch ∉ s.evt.fired) :
    completes (.eventDelivery [src] dt) s (fun t => t.rd Reg.EVT_GDROPCNT = satAdd 32 (s.rd Reg.EVT_GDROPCNT) 1 ∧ t.rd Reg.EVT_MERGECNT = s.rd Reg.EVT_MERGECNT ∧ ch ∈ t.evt.fired) := by
  refine completes_of_onlyIf rfl (eventDelivery_ok (s := s.pass dt) hf hstop hdead) ?_
  have hreach : srcReach src (eventTaken src (s.pass dt)) = eventTaken src (s.pass dt) := by
    have hnil : srcLines src (eventTaken src (s.pass dt)) = [] := hlines
    rw [srcReach_lines (s := eventTaken src (s.pass dt)) (by simp [hnil]) hg, hnil]
    rfl
  have hfire : chanFire ch none (eventTaken src (s.pass dt)) = chanDropped ch (eventTaken src (s.pass dt)) := chanFire_dropped hgen hgrp hnew
  rw [eventDelivery_on (s := s.pass dt) hf hon, srcArrive, hreach, foldl_single _ ch _ _ List.nodup_range (List.mem_range.2 hlt)]
  · rw [if_pos ⟨hch, hsrc⟩, hfire]
    refine ⟨?_, ?_, ?_⟩
    · rw [chanDropped_rd, if_pos rfl]
      rfl
    · rw [chanDropped_rd, if_neg (by decide)]
      rfl
    · rw [chanDropped, ev127_evt]
      exact List.mem_cons_self
  · intro c hc hne
    exact if_neg fun h => hothers c (List.mem_range.1 hc) hne h.1
  · intro c hc hne
    rw [if_pos (show (eventTaken src (s.pass dt)).rd (Reg.EVT_CH_CFG_SRC ch) = src ∧ 64 ≤ src from ⟨hch, hsrc⟩), hfire, chanDropped_rd, if_neg (show (Reg.EVT_CH_CFG_SRC c).key ≠ Reg.EVT_GDROPCNT.key by simp only [Field.key, Reg.EVT_CH_CFG_SRC, Reg.EVT_GDROPCNT]; have := List.mem_range.1 hc; omega)]
    exact if_neg fun h => hothers c (List.mem_range.1 hc) hne h.1

/-! ### An event while PD_FAB is not On (R641) -/

theorem eventDelivery_lost (hf : s.flight.contains src = true) (hoff : domOn s 11 = false) (hheld : srcHeld src s = false) : eventDelivery [src] s = eventTaken src s := by
  simp [eventDelivery, takeFlight_one hf, hoff, hheld, dedupe, eventTaken]

theorem event_lost (src dt : Nat) (s : State) (hf : s.flight.contains src = true) (hstop : s.pwr.stop ≠ .stopped) (hdead : s.pwr.fabDead = false) (hoff : domOn s 11 = false) (hheld : srcHeld src s = false) :
    completes (.eventDelivery [src] dt) s (fun t => t.flight = s.flight.erase src ∧ changesOnly [] [.flight] (s.pass dt) t) := by
  refine completes_of_onlyIf rfl (eventDelivery_ok (s := s.pass dt) hf hstop hdead) ?_
  rw [eventDelivery_lost (s := s.pass dt) hf hoff hheld]
  exact ⟨rfl, (changesOnly_refl _ _ _).withFlight _ (by simp)⟩

theorem thawStart_flight (n : Nat) (s : State) : (thawStart n s).flight = s.flight := thawStart_parts n s s (partsOnly_refl [.regs, .pwr] s) rfl .flight (by decide)

/-- PD_FAB, Off or in Retention, is on its way up after the first access. -/
theorem thawStart_fab (s : State) (h : s.rd (Reg.PWR_DOM_STATE 11) = 2) : (thawStart 11 s).rd (Reg.PWR_DOM_STATE 11) = 3 := by
  have hst : domState (((((s.wr (Reg.PWR_DOM_CREQ 11) 0).wr (Reg.PWR_DOM_GREQ 11) 0).wr (Reg.PWR_DOM_TARGET 11) (if 11 = 13 ∧ leafMode s then 2 else 0)).inc Reg.PWR_THAWCNT)) 11 = 2 := by
    rw [domState, if_neg (by omega), State.rd_inc, if_neg (by decide), State.rd_wr_other _ _ (by decide), State.rd_wr_other _ _ (by decide), State.rd_wr_other _ _ (by decide), h]
  rw [thawStart, domRise, if_pos rfl, domRise1, if_neg (by rw [hst]; omega)]
  exact State.rd_wr_same _ _ _

/-- The source stays in flight while PD_FAB comes up for it. -/
theorem eventDelivery_held (hf : s.flight.contains src = true) (hoff : s.rd (Reg.PWR_DOM_STATE 11) = 2) (hheld : srcHeld src s = true) :
    eventDelivery [src] s = thawStart 11 { s with flight := s.flight.erase src ++ [src] } := by
  have hst : domState s 11 = 2 := hoff
  have hon : domOn s 11 = false := by simp [domOn, hst]
  simp [eventDelivery, takeFlight_one hf, hon, hheld, dedupe, hst]

theorem event_held (src dt : Nat) (s : State) (hf : s.flight.contains src = true) (hstop : s.pwr.stop ≠ .stopped) (hdead : s.pwr.fabDead = false) (hoff : s.rd (Reg.PWR_DOM_STATE 11) = 2)
    (hheld : srcHeld src s = true) :
    completes (.eventDelivery [src] dt) s (fun t => src ∈ t.flight ∧ t.rd (Reg.PWR_DOM_STATE 11) = 3) := by
  refine completes_of_onlyIf rfl (eventDelivery_ok (s := s.pass dt) hf hstop hdead) ?_
  rw [eventDelivery_held (s := s.pass dt) hf hoff hheld]
  exact ⟨by rw [thawStart_flight]; simp, thawStart_fab _ hoff⟩

end

/-! ### Timers (R572, R574 to R577) -/

section
variable {t c dt : Nat} {s : State}

theorem tmrMod_tmrOf (ht : t < s.tmrs.length) (f : Tmr → Tmr) : tmrOf (tmrMod t f s) t = f (tmrOf s t) := getD_modAt_same _ _ _ _ ht

theorem tmrModCh_tmrCh (ht : t < s.tmrs.length) (hc : c < (tmrOf s t).chs.length) (f : TmrCh → TmrCh) : tmrCh (tmrModCh t c f s) t c = f (tmrCh s t c) := by
  rw [tmrCh, tmrModCh, tmrMod_tmrOf ht]
  exact getD_modAt_same _ _ _ _ hc

theorem timerWrapOk_lt (h : timerWrapOk t s = true) : t < 8 := by
  simp only [timerWrapOk, Bool.and_eq_true, decide_eq_true_eq] at h
  exact h.1.1.1

/-- Timer `t` has wrapped: UPF, the event and a new lap. -/
def tmrWrapped (t : Nat) (s : State) : State :=
  tmrMod t (fun x => { x with t0 := x.t0 + cycOfPeri ((tmrTop s t + 1 - (tmrOf s t).cnt0) * 2 ^ s.rdC (Reg.TMR_CTL_PSC t)), cnt0 := 0, seen := [] }) ((s.set1 (Reg.TMR_STAT_UPF t)).raise (171 + 2 * t))

theorem tmrWrapped_rd (s : State) (f : Field) (hf : f.key ≠ (Reg.TMR_STAT_UPF t).key) : (tmrWrapped t s).rd f = s.rd f := State.rd_wr_other _ _ hf

theorem timerWrap_eq (s : State) : timerWrap t s = if s.on (Reg.TMR_CTL_APPLY t) then tmrCommit t (tmrWrapped t s) else tmrWrapped t s := by
  have hon : (tmrWrapped t s).on (Reg.TMR_CTL_APPLY t) = s.on (Reg.TMR_CTL_APPLY t) := by
    rw [State.on, tmrWrapped_rd _ _ (by simp +arith [Field.key, Reg.TMR_CTL_APPLY, Reg.TMR_STAT_UPF])]
    rfl
  rw [← hon]
  rfl

theorem timerWrap_counts (t dt : Nat) (s : State) (hok : timerWrapOk t (s.pass dt) = true) (hlen : s.tmrs.length = 8) (happly : s.on (Reg.TMR_CTL_APPLY t) = false) :
    completes (.timerWrap t dt) s (fun u => u.rd (Reg.TMR_STAT_UPF t) = 1 ∧ u.flight = s.flight ++ [171 + 2 * t] ∧ (tmrOf u t).cnt0 = 0 ∧ (tmrOf u t).seen = [] ∧
      changesOnly [Reg.TMR_STAT_UPF t] [.tmrs, .flight] (s.pass dt) u) := by
  have ht : t < (s.pass dt).tmrs.length := Nat.lt_of_lt_of_eq (timerWrapOk_lt hok) hlen.symm
  refine completes_of_onlyIf rfl hok ?_
  rw [timerWrap_eq, if_neg (show ¬ (s.pass dt).on (Reg.TMR_CTL_APPLY t) = true from Bool.eq_false_iff.1 happly)]
  have hof := tmrMod_tmrOf (s := ((s.pass dt).set1 (Reg.TMR_STAT_UPF t)).raise (171 + 2 * t)) ht
    (fun x => { x with t0 := x.t0 + cycOfPeri ((tmrTop (s.pass dt) t + 1 - (tmrOf (s.pass dt) t).cnt0) * 2 ^ (s.pass dt).rdC (Reg.TMR_CTL_PSC t)), cnt0 := 0, seen := [] })
  refine ⟨State.rd_wr_same _ _ _, rfl, ?_, ?_, ?_⟩
  · rw [tmrWrapped, hof]
  · rw [tmrWrapped, hof]
  · exact (((changesOnly_refl _ _ _).set1 (by simp)).raise _ (by simp)).withTmrs _ (by simp)

theorem timerWrap_commits (t dt : Nat) (s : State) (hok : timerWrapOk t (s.pass dt) = true) (happly : s.on (Reg.TMR_CTL_APPLY t) = true) :
    completes (.timerWrap t dt) s (fun u => u.rd (Reg.TMR_STAT_UPF t) = 1 ∧ u.rd (Reg.TMR_CTL_APPLY t) = 0 ∧ (if tmrRefused t s then u.rd (Reg.TMR_STAT_CFGERR t) = 1 ∧ u.com = s.com
      else ∀ f ∈ tmrSFields t, u.rdC f = s.rd f % 2 ^ f.width)) := by
  have ht := timerWrapOk_lt hok
  refine completes_of_onlyIf rfl hok ?_
  rw [timerWrap_eq, if_pos (show (s.pass dt).on (Reg.TMR_CTL_APPLY t) = true from happly)]
  have hupf : (tmrWrapped t (s.pass dt)).rd (Reg.TMR_STAT_UPF t) = 1 := State.rd_wr_same _ _ _
  have hcom : (tmrWrapped t (s.pass dt)).com = s.com := rfl
  have hrd (f : Field) (hf : f.key ≠ (Reg.TMR_STAT_UPF t).key) : (tmrWrapped t (s.pass dt)).rd f = s.rd f := tmrWrapped_rd _ _ hf
  have href : tmrRefused t (tmrWrapped t (s.pass dt)) = tmrRefused t s := by
    unfold tmrRefused
    congr 1
    funext c
    rw [hrd _ (by simp only [Field.key, Reg.TMR_CC_CTL_MODE, Reg.TMR_STAT_UPF]; omega), hrd _ (by simp only [Field.key, Reg.TMR_TOP, Reg.TMR_STAT_UPF]; omega),
      hrd _ (by simp only [Field.key, Reg.TMR_CC_DUTY, Reg.TMR_STAT_UPF]; omega)]
  have hua : (Reg.TMR_STAT_UPF t).key ≠ (Reg.TMR_CTL_APPLY t).key := by simp +arith [Field.key, Reg.TMR_CTL_APPLY, Reg.TMR_STAT_UPF]
  generalize tmrWrapped t (s.pass dt) = w at hupf hcom hrd href ⊢
  unfold tmrCommit
  simp only [href]
  split
  · refine ⟨?_, ?_, State.rd_wr_same _ _ _, hcom⟩
    · rw [State.set1, State.rd_wr_other _ _ (by simp [Field.key, Reg.TMR_STAT_CFGERR, Reg.TMR_STAT_UPF]), State.clr, State.rd_wr_other _ _ hua, hupf]
    · rw [State.set1, State.rd_wr_other _ _ (by simp +arith [Field.key, Reg.TMR_STAT_CFGERR, Reg.TMR_CTL_APPLY])]
      exact State.rd_wr_same _ _ _
  · refine ⟨?_, ?_, fun f hf => ?_⟩
    · rw [State.rd_commitFields, State.clr, State.rd_wr_other _ _ hua, hupf]
    · rw [State.rd_commitFields]
      exact State.rd_wr_same _ _ _
    · obtain ⟨hkeys, hne⟩ := tmrSFields_keys t ht
      have hfu : f.key ≠ (Reg.TMR_STAT_UPF t).key := by
        simp only [tmrSFields, List.mem_append, List.mem_cons, List.not_mem_nil, or_false, List.mem_map, List.mem_range] at hf
        rcases hf with (rfl | rfl) | ⟨c, _, rfl⟩ <;> simp only [Field.key, Reg.TMR_TOP, Reg.TMR_CTL_PSC, Reg.TMR_CC_DUTY, Reg.TMR_STAT_UPF] <;> omega
      rw [State.rdC_commitFields _ _ hkeys f hf, State.clr, State.rd_wr_other _ _ (hne f hf), hrd f hfu]

theorem tmrReached_lt {v : Nat} (h : tmrReached t c v s = true) : t < 8 ∧ c < 4 := by
  simp only [tmrReached, Bool.and_eq_true, decide_eq_true_eq] at h
  exact ⟨h.1.1.1.1.1, h.1.1.1.1.2⟩

/-- The flag of a channel is one bit of CCF. -/
theorem tmrFlag_ccf (hc : c < 4) (s : State) : bitOf ((tmrFlag t c s).rd (Reg.TMR_STAT_CCF t)) c = 1 := bitOf_rd_setBit _ hc

theorem changesOnly_tmrFlag {fs : List Field} {ps : List Piece} {z : State} (h : changesOnly fs ps z s) (hf : Reg.TMR_STAT_CCF t ∈ fs) (hp : Piece.flight ∈ ps) : changesOnly fs ps z (tmrFlag t c s) :=
  (h.setBit _ hf).raise _ hp

theorem compareMatch_acts (t c dt : Nat) (s : State) (hok : compareMatchOk t c (s.pass dt) = true) (hlen : s.tmrs.length = 8) (hchs : (tmrOf s t).chs.length = 4) :
    completes (.compareMatch t c dt) s (fun u => bitOf (u.rd (Reg.TMR_STAT_CCF t)) c = 1 ∧ u.flight = s.flight ++ [172 + 2 * t] ∧ c ∈ (tmrOf u t).seen ∧
      (tmrCh u t c).out = (match s.rd (Reg.TMR_CC_CTL_OUTACT t c) with | 1 => true | 2 => false | 3 => !(tmrCh s t c).out | _ => (tmrCh s t c).out) ∧
      changesOnly [Reg.TMR_STAT_CCF t] [.tmrs, .flight] (s.pass dt) u) := by
  obtain ⟨ht, hc⟩ := tmrReached_lt (Bool.and_eq_true_iff.1 hok).2
  have hlen' : t < (s.pass dt).tmrs.length := Nat.lt_of_lt_of_eq ht hlen.symm
  have hlen2 : t < (tmrSee t c (s.pass dt)).tmrs.length := by
    rw [tmrSee, tmrMod, length_modAt]
    exact hlen'
  have hsee : tmrOf (tmrSee t c (s.pass dt)) t = { tmrOf s t with seen := c :: (tmrOf s t).seen.filter (fun d => !(d == c)) } := tmrMod_tmrOf hlen' _
  refine completes_of_onlyIf rfl hok ⟨tmrFlag_ccf hc _, rfl, ?_, ?_, ?_⟩
  · show c ∈ (tmrOf (tmrModCh t c _ (tmrSee t c (s.pass dt))) t).seen
    rw [tmrModCh, tmrMod_tmrOf hlen2, hsee]
    exact List.mem_cons_self
  · show (tmrCh (tmrModCh t c _ (tmrSee t c (s.pass dt))) t c).out = _
    have hch : tmrCh (tmrSee t c (s.pass dt)) t c = tmrCh s t c := by rw [tmrCh, hsee, tmrCh]
    rw [tmrModCh_tmrCh hlen2 (by rw [hsee]; exact Nat.lt_of_lt_of_eq hc hchs.symm), hch]
    rfl
  · exact changesOnly_tmrFlag (((changesOnly_refl _ _ _).withTmrs _ (by simp)).withTmrs _ (by simp)) (by simp) (by simp)

theorem pwmDuty_acts (t c dt : Nat) (s : State) (hok : pwmDutyReachedOk t c (s.pass dt) = true) (hlen : s.tmrs.length = 8) :
    completes (.pwmDutyReached t c dt) s (fun u => bitOf (u.rd (Reg.TMR_STAT_CCF t)) c = 1 ∧ u.flight = s.flight ++ [172 + 2 * t] ∧ c ∈ (tmrOf u t).seen ∧
      changesOnly [Reg.TMR_STAT_CCF t] [.tmrs, .flight] (s.pass dt) u) := by
  obtain ⟨ht, hc⟩ := tmrReached_lt (Bool.and_eq_true_iff.1 hok).2
  have hsee : tmrOf (tmrSee t c (s.pass dt)) t = { tmrOf s t with seen := c :: (tmrOf s t).seen.filter (fun d => !(d == c)) } := tmrMod_tmrOf (Nat.lt_of_lt_of_eq ht hlen.symm) _
  refine completes_of_onlyIf rfl hok ⟨tmrFlag_ccf hc _, rfl, ?_, changesOnly_tmrFlag ((changesOnly_refl _ _ _).withTmrs _ (by simp)) (by simp) (by simp)⟩
  show c ∈ (tmrOf (tmrSee t c (s.pass dt)) t).seen
  rw [hsee]
  exact List.mem_cons_self

/-! ### Captures (R577) -/

/-- What a capture writes. -/
def captureFields (t c : Nat) : List Field := [Reg.TMR_CC_CAP t c, Reg.TMR_STAT_CAPF t, Reg.TMR_STAT_CCF t, Reg.TMR_STAT_OVR t]

/-- A held value that nobody has read is lost. -/
def tmrOverrun (t c : Nat) (s : State) : State := if bitOf (s.rd (Reg.TMR_STAT_CAPF t)) c = 1 then s.setBit (Reg.TMR_STAT_OVR t) c else s

theorem tmrCapture_eq (t c : Nat) (s : State) : tmrCapture t c s = tmrFlag t c (((tmrOverrun t c s).wr (Reg.TMR_CC_CAP t c) (tmrCnt s t)).setBit (Reg.TMR_STAT_CAPF t) c) := rfl

theorem changesOnly_tmrCapture (t c : Nat) (s : State) : changesOnly (captureFields t c) [.tmrs, .flight] s (tmrCapture t c s) := by
  have hover : changesOnly (captureFields t c) [.tmrs, .flight] s (tmrOverrun t c s) :=
    .ite (fun _ => (changesOnly_refl _ _ _).setBit _ (by simp [captureFields])) fun _ => changesOnly_refl _ _ _
  exact changesOnly_tmrFlag ((hover.wr _ (by simp [captureFields])).setBit _ (by simp [captureFields])) (by simp [captureFields]) (by simp)

theorem tmrOverrun_pieces (t c : Nat) (s : State) : (tmrOverrun t c s).flight = s.flight ∧ (tmrOverrun t c s).tmrs = s.tmrs := by
  unfold tmrOverrun
  split <;> exact ⟨rfl, rfl⟩

/-- The channel's flags lie beside each other in STAT, the held value apart from them. -/
theorem captureFields_keys (hc : c < 4) : ((captureFields t c).map Field.key).Nodup := by
  simp [captureFields, Field.key, Reg.TMR_CC_CAP, Reg.TMR_STAT_CAPF, Reg.TMR_STAT_CCF, Reg.TMR_STAT_OVR]
  omega

theorem tmrCapture_results (hc : c < 4) (s : State) :
    (tmrCapture t c s).rd (Reg.TMR_CC_CAP t c) = tmrCnt s t % 2 ^ 32 ∧ bitOf ((tmrCapture t c s).rd (Reg.TMR_STAT_CAPF t)) c = 1 ∧ bitOf ((tmrCapture t c s).rd (Reg.TMR_STAT_CCF t)) c = 1 ∧
      (tmrCapture t c s).flight = s.flight ++ [172 + 2 * t] ∧ (bitOf (s.rd (Reg.TMR_STAT_CAPF t)) c = 1 → bitOf ((tmrCapture t c s).rd (Reg.TMR_STAT_OVR t)) c = 1) := by
  have hkeys := captureFields_keys (t := t) hc
  simp only [captureFields, List.map_cons, List.map_nil, List.nodup_cons, List.mem_cons, List.not_mem_nil, or_false, not_or] at hkeys
  obtain ⟨⟨hCapCapf, hCapCcf, hCapOvr⟩, ⟨hCapfCcf, hCapfOvr⟩, hCcfOvr, _⟩ := hkeys
  have hflag (u : State) (f : Field) (hf : f.key ≠ (Reg.TMR_STAT_CCF t).key) : (tmrFlag t c u).rd f = u.rd f := State.rd_wr_other _ _ hf
  refine ⟨?_, ?_, tmrFlag_ccf hc _, ?_, fun hset => ?_⟩
  · rw [tmrCapture_eq, hflag _ _ hCapCcf, State.setBit, State.rd_wr_other _ _ hCapCapf]
    exact State.rd_wr_same _ _ _
  · rw [tmrCapture_eq, hflag _ _ hCapfCcf]
    exact bitOf_rd_setBit _ hc
  · exact congrArg (· ++ [172 + 2 * t]) (tmrOverrun_pieces t c s).1
  · rw [tmrCapture_eq, hflag _ _ (Ne.symm hCcfOvr), State.setBit, State.rd_wr_other _ _ (Ne.symm hCapfOvr), State.rd_wr_other _ _ (Ne.symm hCapOvr), tmrOverrun, if_pos hset]
    exact bitOf_rd_setBit _ hc

theorem tmrCapture_tmrs (t c : Nat) (s : State) : (tmrCapture t c s).tmrs = s.tmrs := (tmrOverrun_pieces t c s).2

theorem timerCaptureOk_lt {r : Bool} (h : timerCaptureOk t c r s = true) : t < 8 ∧ c < 4 := by
  simp only [timerCaptureOk, Bool.and_eq_true, decide_eq_true_eq] at h
  exact ⟨h.1.1.1.1, h.1.1.1.2⟩

theorem timerCapture_acts (t c dt : Nat) (r : Bool) (s : State) (hok : timerCaptureOk t c r (s.pass dt) = true) (hlen : s.tmrs.length = 8) (hchs : (tmrOf s t).chs.length = 4) :
    completes (.timerCapture t c r dt) s (fun u => if s.rd (Reg.TMR_CC_CTL_EPSC t c) ≤ (tmrCh s t c).edges then
        u.rd (Reg.TMR_CC_CAP t c) = tmrCnt (s.pass dt) t % 2 ^ 32 ∧ bitOf (u.rd (Reg.TMR_STAT_CAPF t)) c = 1 ∧ bitOf (u.rd (Reg.TMR_STAT_CCF t)) c = 1 ∧ u.flight = s.flight ++ [172 + 2 * t] ∧ (tmrCh u t c).edges = 0 ∧
          (bitOf (s.rd (Reg.TMR_STAT_CAPF t)) c = 1 → bitOf (u.rd (Reg.TMR_STAT_OVR t)) c = 1) ∧ changesOnly [Reg.TMR_CC_CAP t c, Reg.TMR_STAT_CAPF t, Reg.TMR_STAT_CCF t, Reg.TMR_STAT_OVR t] [.tmrs, .flight] (s.pass dt) u
      else (tmrCh u t c).edges = (tmrCh s t c).edges + 1 ∧ changesOnly [] [.tmrs] (s.pass dt) u) := by
  obtain ⟨ht, hc⟩ := timerCaptureOk_lt hok
  have hlen' : t < (s.pass dt).tmrs.length := Nat.lt_of_lt_of_eq ht hlen.symm
  have hch (f : TmrCh → TmrCh) : tmrCh (tmrModCh t c f (s.pass dt)) t c = f (tmrCh s t c) := tmrModCh_tmrCh hlen' (Nat.lt_of_lt_of_eq hc hchs.symm) f
  refine completes_of_onlyIf rfl hok ?_
  split
  · next hle =>
    have heq : tmrEdge t c (s.pass dt) = tmrCapture t c (tmrModCh t c (fun ch => { ch with edges := 0 }) (s.pass dt)) := if_pos (Nat.succ_le_succ hle)
    have hcnt : tmrCnt (tmrModCh t c (fun ch => { ch with edges := 0 }) (s.pass dt)) t = tmrCnt (s.pass dt) t := by
      have hof : tmrOf (tmrModCh t c (fun ch => { ch with edges := 0 }) (s.pass dt)) t = { tmrOf (s.pass dt) t with chs := modAt (tmrOf (s.pass dt) t).chs c (fun ch => { ch with edges := 0 }) } := tmrMod_tmrOf hlen' _
      simp only [tmrCnt, tmrRaw, tmrTicks, hof]
      rfl
    rw [heq]
    obtain ⟨hcap, hcapf, hccf, hflight, hovr⟩ := tmrCapture_results hc (tmrModCh t c (fun ch => { ch with edges := 0 }) (s.pass dt))
    refine ⟨by rw [hcap, hcnt], hcapf, hccf, hflight, ?_, hovr, ?_⟩
    · rw [tmrCh, tmrOf, tmrCapture_tmrs]
      exact congrArg TmrCh.edges (hch _)
    · exact ((changesOnly_refl _ _ _).withTmrs _ (by simp)).trans (changesOnly_tmrCapture t c _)
  · next hlt =>
    have heq : tmrEdge t c (s.pass dt) = tmrModCh t c (fun ch => { ch with edges := (tmrCh s t c).edges + 1 }) (s.pass dt) := if_neg fun h => hlt (Nat.le_of_succ_le_succ h)
    rw [heq, hch]
    exact ⟨rfl, (changesOnly_refl _ _ _).withTmrs _ (by simp)⟩

end
end Sys2Proof.Machine

open Sys2Proof Sys2Proof.Machine

/-- Settles O51: the engine, a key load, the ways of an event and each event of a timer by its own lemma. -/
theorem cipherEventsTimers : Obligations.CipherEventsTimers := by
  unfold Obligations.CipherEventsTimers
  exact ⟨blockEnd_single, blockEnd_more, blockEnd_fails, keyLoadDone_loads, event_reaches_lines, event_dropped_by_group, event_lost, event_held, timerWrap_counts, timerWrap_commits, compareMatch_acts, pwmDuty_acts,
    timerCapture_acts⟩
end

section
/-!
SUPPORT. A group whose stored state exceeds its field (R559).
-/
namespace Sys2Proof.Machine

/-- Group 0 of the event fabric holds 2 where its field has one bit. -/
def strayGroup : State := { State.reset with regs := [((Reg.EVT_GRP_STATE 0).key, 2)] }

/-- SETEN of group 0, by Glety. -/
def setenGroup0 : BusReq := { ini := 0, user := false, addr := 0x40030300, size := 4, val := 2 ^ 30, par := false }

/-- The value beyond the field counts as a disable of this cycle, which wins over the enable (R559). -/
theorem seten_strayGroup : (cmdWrite setenGroup0 (strayGroup.pass 0)).rd (Reg.EVT_GRP_STATE 0) = 0 := by decide +kernel

end Sys2Proof.Machine

open Sys2Proof Sys2Proof.Machine

/-- Refutes O15: the clause of SETEN holds of every state, also where a group's stored state exceeds its one bit, and there the enable of that group leaves it disabled. -/
theorem not_timerAccesses : ¬ Obligations.TimerAccesses := by
  unfold Obligations.TimerAccesses
  intro h
  obtain ⟨-, -, hseten, -⟩ := h
  obtain ⟨hstate, -⟩ := of_completes_onlyIf
    (hseten 0 setenGroup0 0 strayGroup (by decide) rfl (by decide) (by decide) (by decide +kernel) (by decide) (by decide) (by decide)) rfl (by decide)
  exact absurd (seten_strayGroup.symm.trans hstate) (by decide)
end

section
/-!
SUPPORT. The serial ports (R604, R606, R619, R620, R622, R623): the view of the FIFOs and the registers that act.
-/
namespace Sys2Proof.Machine

section
variable {n a v ini dt : Nat} {s : State} {w : BusReq}

/-! ### The port and the view of its FIFOs (R623, R624) -/

theorem spxMod_same (h : n < s.spx.length) (f : Spx → Spx) : spxOf (spxMod n f s) n = f (spxOf s n) := getD_modAt_same _ _ _ _ h

theorem spxMod_length (f : Spx → Spx) : (spxMod n f s).spx.length = s.spx.length := length_modAt _ _ _

/-- The fields that show the FIFOs. -/
def spxViewFields (n : Nat) : List Field :=
  [Reg.SPX_FIFO_RXFRM n, Reg.SPX_FIFO_RXLVL n, Reg.SPX_FIFO_TXLVL n, Reg.SPX_STAT_TXEMPTY n, Reg.SPX_STAT_RXAVAIL n, Reg.SPX_RXFRM_VALID n, Reg.SPX_RXFRM_OVERLEN n, Reg.SPX_RXFRM_BITS n]

/-- The levels and the two level bits of STAT. -/
def spxLevels (n : Nat) (s : State) : State :=
  ((((s.wr (Reg.SPX_FIFO_RXFRM n) (spxOf s n).rx.length).wr (Reg.SPX_FIFO_RXLVL n) (rxBytes (spxOf s n))).wr (Reg.SPX_FIFO_TXLVL n) (wordBytes (spxOf s n).tx)).wr (Reg.SPX_STAT_TXEMPTY n) (b2n (spxOf s n).tx.isEmpty)).wr
    (Reg.SPX_STAT_RXAVAIL n) (b2n (!(spxOf s n).rx.isEmpty))

theorem spxShow_eq (n : Nat) (s : State) : spxShow n s = match (spxOf s n).rx with
    | [] => (((spxLevels n s).clr (Reg.SPX_RXFRM_VALID n)).clr (Reg.SPX_RXFRM_OVERLEN n)).wr (Reg.SPX_RXFRM_BITS n) 0
    | f :: _ => (((spxLevels n s).set1 (Reg.SPX_RXFRM_VALID n)).wr (Reg.SPX_RXFRM_OVERLEN n) (b2n f.overlen)).wr (Reg.SPX_RXFRM_BITS n) f.bits := by
  rfl

theorem changesOnly_spxLevels (n : Nat) (s : State) : changesOnly (spxViewFields n) [] s (spxLevels n s) :=
  (((((changesOnly_refl _ _ _).wr _ (by simp [spxViewFields])).wr _ (by simp [spxViewFields])).wr _ (by simp [spxViewFields])).wr _ (by simp [spxViewFields])).wr _ (by simp [spxViewFields])

theorem changesOnly_spxShow (n : Nat) (s : State) : changesOnly (spxViewFields n) [] s (spxShow n s) := by
  rw [spxShow_eq]
  split
  · exact (((changesOnly_spxLevels n s).clr (by simp [spxViewFields])).clr (by simp [spxViewFields])).wr _ (by simp [spxViewFields])
  · exact (((changesOnly_spxLevels n s).set1 (by simp [spxViewFields])).wr _ (by simp [spxViewFields])).wr _ (by simp [spxViewFields])

theorem spxShow_spx (n : Nat) (s : State) : (spxShow n s).spx = s.spx := (changesOnly_spxShow n s).2 .spx (by decide)

theorem spxShow_spxOf (n m : Nat) (s : State) : spxOf (spxShow n s) m = spxOf s m := by rw [spxOf, spxShow_spx, spxOf]

theorem spxShow_txempty (n : Nat) (s : State) : (spxShow n s).rd (Reg.SPX_STAT_TXEMPTY n) = b2n (spxOf s n).tx.isEmpty := by
  rw [spxShow_eq]
  split <;> simp only [spxLevels, State.clr, State.set1, State.rd_wr] <;> simp +arith [Field.key, Reg.SPX_STAT_TXEMPTY, Reg.SPX_STAT_RXAVAIL, Reg.SPX_RXFRM_VALID, Reg.SPX_RXFRM_OVERLEN, Reg.SPX_RXFRM_BITS, b2n_mod_two]

theorem spxShow_rxavail (n : Nat) (s : State) : (spxShow n s).rd (Reg.SPX_STAT_RXAVAIL n) = b2n (!(spxOf s n).rx.isEmpty) := by
  rw [spxShow_eq]
  split <;> simp only [spxLevels, State.clr, State.set1, State.rd_wr] <;> simp +arith [Field.key, Reg.SPX_STAT_RXAVAIL, Reg.SPX_RXFRM_VALID, Reg.SPX_RXFRM_OVERLEN, Reg.SPX_RXFRM_BITS, b2n_mod_two]

/-- With no frame of its own running a port's FIFO stands. -/
theorem spxAdvance_idle (h : (spxOf s n).run = none) : spxAdvance n s = s := by
  unfold spxAdvance
  rw [h]

/-! ### Writes of the ports' registers -/

theorem slotWrite_spx (hlo : 0x40110000 ≤ a) (hhi : a < 0x40130000) (hf : (regFields a).isEmpty = false) : slotWrite false ini a v s = spxWrite ini a v (regFields a) s := by
  have hfs : slotFields ini a = regFields a := if_neg (by omega)
  have hs : (a - 0x40000000) / 0x10000 = 17 ∨ (a - 0x40000000) / 0x10000 = 18 := by omega
  rcases hs with hs | hs <;> simp [slotWrite, hfs, hf, hs]

theorem spxCtl_fields : ∀ n < 2, regFields (0x40110004 + 0x10000 * n) = [Reg.SPX_CTL_APPLY n, Reg.SPX_CTL_START n, Reg.SPX_CTL_TXFLUSH n, Reg.SPX_CTL_RXFLUSH n, Reg.SPX_CTL_EN n] := by decide
theorem spxData_fields : ∀ n < 2, regFields (0x40110014 + 0x10000 * n) = [Reg.SPX_DATA n] := by decide

/-- The port is not the customer's to write while Glety has it. -/
def spxOpen (n ini : Nat) (s : State) : Prop := n = 1 → s.on (Reg.SPX_STAT_GLETY 1) = false ∨ isCustomer ini = false

/-- EN, the flushes and APPLY of a write of CTL, before its START. -/
def spxCtlPut (n v : Nat) (s : State) : State :=
  let s1 := (s.wr (Reg.SPX_CTL_EN n) (v % 2)).wr (Reg.SPX_STAT_RUN n) (v % 2)
  let s2 := if bitOf v 29 = 1 then spxTxFlush n s1 else s1
  let s3 := if bitOf v 28 = 1 then spxRxFlush n s2 else s2
  if bitOf v 31 = 1 then s3.set1 (Reg.SPX_CTL_APPLY n) else s3

theorem spxWrite_ctl (hn : n < 2) (hopen : spxOpen n ini s) : spxWrite ini (0x40110004 + 0x10000 * n) v (regFields (0x40110004 + 0x10000 * n)) s =
    if bitOf v 30 = 1 then spxStart n (spxCtlPut n v s) else spxCtlPut n v s := by
  have hslot : (0x40110004 + 0x10000 * n - 0x40110000) / 0x10000 = n := by omega
  have hoff : (0x40110004 + 0x10000 * n) % 0x10000 = 4 := by omega
  have hmine : ¬ (n = 1 ∧ s.on (Reg.SPX_STAT_GLETY 1) = true ∧ isCustomer ini = true) := by
    rintro ⟨h1, hg, hc⟩
    rcases hopen h1 with h | h
    · rw [h] at hg; cases hg
    · rw [h] at hc; cases hc
  have hcaught : ¬ (caughtS (regFields (0x40110004 + 0x10000 * n)) v (s.on (Reg.SPX_CTL_APPLY n)) s = true ∨
      caughtH ((regFields (0x40110004 + 0x10000 * n)).filter (fun f => !(n == 1 && f == Reg.SPX_CFG_ROLE 1))) v (s.on (Reg.SPX_CTL_EN n)) s = true) := by
    rw [spxCtl_fields n hn]
    have hcase : n = 0 ∨ n = 1 := by omega
    rcases hcase with rfl | rfl <;> simp [caughtS, caughtH, writesCls, Reg.SPX_CTL_APPLY, Reg.SPX_CTL_START, Reg.SPX_CTL_TXFLUSH, Reg.SPX_CTL_RXFLUSH, Reg.SPX_CTL_EN, Reg.SPX_CFG_ROLE]
  unfold spxWrite
  simp only [hslot, hoff]
  rw [if_neg hmine, if_neg hcaught, if_neg (by omega), if_pos trivial]
  rfl

/-- A write of CTL that lands acts on its port. -/
theorem completes_spxCtl {c : Instr} {b : Bool} {P : State → Prop} (hc : exec c s = .next (onlyIf b (cmdWrite w (s.pass dt)) (s.pass dt))) (hb : b = true) (hn : n < 2) (ha : w.addr = 0x40110004 + 0x10000 * n)
    (hl : writeLands w (s.pass dt) = true) (hopen : spxOpen n w.ini s) (h : P (if bitOf w.val 30 = 1 then spxStart n (spxCtlPut n w.val (s.pass dt)) else spxCtlPut n w.val (s.pass dt))) : completes c s P := by
  refine completes_slotWrite hc hb hl (by omega) (by omega) ?_
  rw [ha, slotWrite_spx (by omega) (by omega) (by rw [spxCtl_fields n hn]; rfl), spxWrite_ctl (s := s.pass dt) hn hopen]
  exact h

/-- Without flushes and APPLY a write of CTL sets EN. -/
theorem spxCtlPut_en (h29 : bitOf v 29 = 0) (h28 : bitOf v 28 = 0) : spxCtlPut n v s =
    if bitOf v 31 = 1 then ((s.wr (Reg.SPX_CTL_EN n) (v % 2)).wr (Reg.SPX_STAT_RUN n) (v % 2)).set1 (Reg.SPX_CTL_APPLY n) else (s.wr (Reg.SPX_CTL_EN n) (v % 2)).wr (Reg.SPX_STAT_RUN n) (v % 2) := by
  simp [spxCtlPut, h28, h29]

theorem bits_29_28 {v : Nat} (h : bitsOf v 29 28 = 0) : bitOf v 29 = 0 ∧ bitOf v 28 = 0 := by
  simp only [bitsOf, bitOf, Nat.shiftRight_eq_div_pow] at *
  omega

theorem bits_30_28 {v : Nat} (h : bitsOf v 30 28 = 0) : bitOf v 30 = 0 ∧ bitOf v 29 = 0 ∧ bitOf v 28 = 0 := by
  simp only [bitsOf, bitOf, Nat.shiftRight_eq_div_pow] at *
  omega

/-- START of an enabled, idle port (R604, R620). -/
theorem spxStart_enabled (hen : s.on (Reg.SPX_CTL_EN n) = true) (hidle : s.on (Reg.SPX_STAT_ACTIVE n) = false) : spxStart n s = if spxRole s n = 2 then masterStart n s else s.set1 (Reg.SPX_STAT_CFGERR n) := by
  unfold spxStart
  simp only [hen, hidle, and_true]

theorem spxStart_starts (n : Nat) (w : BusReq) (dt : Nat) (s : State) (hn : n < 2) (ha : w.addr = 0x40110004 + 0x10000 * n) (hok : spxStartOk w = true) (hl : writeLands w (s.pass dt) = true)
    (hopen : n = 1 → s.on (Reg.SPX_STAT_GLETY 1) = false ∨ isCustomer w.ini = false) (hflush : bitsOf w.val 29 28 = 0) (h31 : bitOf w.val 31 = 0) (hen : w.val % 2 = 1) (hidle : s.on (Reg.SPX_STAT_ACTIVE n) = false) :
    completes (.spxStart w dt) s (fun t => if spxRole s n = 2 then t.rd (Reg.SPX_STAT_ACTIVE n) = 1 else t.rd (Reg.SPX_STAT_CFGERR n) = 1 ∧ t.spx = s.spx) := by
  have h30 : bitOf w.val 30 = 1 := setsBit_iff.1 (Bool.and_eq_true_iff.1 hok).2
  obtain ⟨h29, h28⟩ := bits_29_28 hflush
  refine completes_spxCtl rfl hok hn ha hl hopen ?_
  rw [if_pos h30, spxCtlPut_en h29 h28, if_neg (show ¬ bitOf w.val 31 = 1 by omega)]
  have hrd (f : Field) (h1 : f.key ≠ (Reg.SPX_CTL_EN n).key) (h2 : f.key ≠ (Reg.SPX_STAT_RUN n).key) : (((s.pass dt).wr (Reg.SPX_CTL_EN n) (w.val % 2)).wr (Reg.SPX_STAT_RUN n) (w.val % 2)).rd f = s.rd f := by
    rw [State.rd_wr_other _ _ h2, State.rd_wr_other _ _ h1]
    rfl
  have hone : (((s.pass dt).wr (Reg.SPX_CTL_EN n) (w.val % 2)).wr (Reg.SPX_STAT_RUN n) (w.val % 2)).on (Reg.SPX_CTL_EN n) = true := by
    rw [State.on, State.rd_wr_other _ _ (by simp +arith [Field.key, Reg.SPX_CTL_EN, Reg.SPX_STAT_RUN]), State.rd_wr_same, hen]
    rfl
  have hact : (((s.pass dt).wr (Reg.SPX_CTL_EN n) (w.val % 2)).wr (Reg.SPX_STAT_RUN n) (w.val % 2)).on (Reg.SPX_STAT_ACTIVE n) = false := by
    rw [State.on, hrd _ (by simp +arith [Field.key, Reg.SPX_CTL_EN, Reg.SPX_STAT_ACTIVE]) (by simp [Field.key, Reg.SPX_STAT_RUN, Reg.SPX_STAT_ACTIVE])]
    exact hidle
  have hrole : spxRole (((s.pass dt).wr (Reg.SPX_CTL_EN n) (w.val % 2)).wr (Reg.SPX_STAT_RUN n) (w.val % 2)) n = spxRole s n := by
    rw [spxRole, spxRole, hrd _ (by simp +arith [Field.key, Reg.SPX_CTL_EN, Reg.SPX_CFG_ROLE]) (by simp +arith [Field.key, Reg.SPX_STAT_RUN, Reg.SPX_CFG_ROLE])]
  rw [spxStart_enabled hone hact, hrole]
  split
  · exact State.rd_wr_same _ _ _
  · exact ⟨State.rd_wr_same _ _ _, rfl⟩

theorem spxApply_asks (n : Nat) (w : BusReq) (dt : Nat) (s : State) (hn : n < 2) (ha : w.addr = 0x40110004 + 0x10000 * n) (hok : spxApplyOk w = true) (hl : writeLands w (s.pass dt) = true)
    (hopen : n = 1 → s.on (Reg.SPX_STAT_GLETY 1) = false ∨ isCustomer w.ini = false) (hplain : bitsOf w.val 30 28 = 0) :
    completes (.spxApply w dt) s (fun t => t.rd (Reg.SPX_CTL_APPLY n) = 1 ∧ t.rd (Reg.SPX_CTL_EN n) = w.val % 2 ∧
      changesOnly [Reg.SPX_CTL_APPLY n, Reg.SPX_CTL_EN n, Reg.SPX_STAT_RUN n] [] (s.pass dt) t) := by
  have h31 : bitOf w.val 31 = 1 := setsBit_iff.1 (Bool.and_eq_true_iff.1 hok).2
  obtain ⟨h30, h29, h28⟩ := bits_30_28 hplain
  refine completes_spxCtl rfl hok hn ha hl hopen ?_
  rw [if_neg (by omega), spxCtlPut_en h29 h28, if_pos h31]
  refine ⟨State.rd_wr_same _ _ _, ?_, (((changesOnly_refl _ _ _).wr _ (by simp)).wr _ (by simp)).set1 (by simp)⟩
  rw [State.set1, State.rd_wr_other _ _ (by simp [Field.key, Reg.SPX_CTL_EN, Reg.SPX_CTL_APPLY]), State.rd_wr_other _ _ (by simp +arith [Field.key, Reg.SPX_CTL_EN, Reg.SPX_STAT_RUN]), State.rd_wr_same]
  exact Nat.mod_mod _ _

/-! ### The flushes (R620) -/

theorem spxTxFlush_of (h : n < s.spx.length) : spxOf (spxTxFlush n s) n = { spxOf s n with tx := [] } := (spxShow_spxOf n n _).trans (spxMod_same h _)
theorem spxRxFlush_of (h : n < s.spx.length) : spxOf (spxRxFlush n s) n = { spxOf s n with rx := [] } := (spxShow_spxOf n n _).trans (spxMod_same h _)

theorem spxTxFlush_empty (h : n < s.spx.length) : (spxTxFlush n s).rd (Reg.SPX_STAT_TXEMPTY n) = 1 := by
  rw [spxTxFlush, spxShow_txempty, spxMod_same h]
  rfl

theorem spxRxFlush_empty (h : n < s.spx.length) : (spxRxFlush n s).rd (Reg.SPX_STAT_RXAVAIL n) = 0 := by
  rw [spxRxFlush, spxShow_rxavail, spxMod_same h]
  rfl

theorem spxFlush_length (n : Nat) (s : State) : (spxTxFlush n s).spx.length = s.spx.length ∧ (spxRxFlush n s).spx.length = s.spx.length := by
  rw [spxTxFlush, spxRxFlush, spxShow_spx, spxShow_spx, spxMod_length, spxMod_length]
  exact ⟨rfl, rfl⟩

/-- APPLY beside a flush touches nothing of the FIFOs. -/
theorem spxApplied (v n : Nat) (s : State) (f : Field) (hf : f.key ≠ (Reg.SPX_CTL_APPLY n).key) :
    (if bitOf v 31 = 1 then s.set1 (Reg.SPX_CTL_APPLY n) else s).spx = s.spx ∧ (if bitOf v 31 = 1 then s.set1 (Reg.SPX_CTL_APPLY n) else s).rd f = s.rd f := by
  split
  · exact ⟨rfl, State.rd_wr_other _ _ hf⟩
  · exact ⟨rfl, rfl⟩

theorem txflush_empties (n : Nat) (w : BusReq) (dt : Nat) (s : State) (hn : n < 2) (ha : w.addr = 0x40110004 + 0x10000 * n) (hok : txflushOk w = true) (hl : writeLands w (s.pass dt) = true) (hlen : s.spx.length = 2)
    (hopen : n = 1 → s.on (Reg.SPX_STAT_GLETY 1) = false ∨ isCustomer w.ini = false) (h30 : bitOf w.val 30 = 0) :
    completes (.txflush w dt) s (fun t => (spxOf t n).tx = [] ∧ t.rd (Reg.SPX_STAT_TXEMPTY n) = 1 ∧ (bitOf w.val 28 = 0 → (spxOf t n).rx = (spxOf s n).rx)) := by
  have h29 : bitOf w.val 29 = 1 := setsBit_iff.1 (Bool.and_eq_true_iff.1 hok).2
  refine completes_spxCtl rfl hok hn ha hl hopen ?_
  rw [if_neg (by omega)]
  simp only [spxCtlPut, h29, if_true]
  have hn' : n < (((s.pass dt).wr (Reg.SPX_CTL_EN n) (w.val % 2)).wr (Reg.SPX_STAT_RUN n) (w.val % 2)).spx.length := Nat.lt_of_lt_of_eq hn hlen.symm
  have hof : spxOf (((s.pass dt).wr (Reg.SPX_CTL_EN n) (w.val % 2)).wr (Reg.SPX_STAT_RUN n) (w.val % 2)) n = spxOf s n := rfl
  generalize ((s.pass dt).wr (Reg.SPX_CTL_EN n) (w.val % 2)).wr (Reg.SPX_STAT_RUN n) (w.val % 2) = u at hn' hof ⊢
  have hkey : (Reg.SPX_STAT_TXEMPTY n).key ≠ (Reg.SPX_CTL_APPLY n).key := by simp +arith [Field.key, Reg.SPX_STAT_TXEMPTY, Reg.SPX_CTL_APPLY]
  have hn2 : n < (spxTxFlush n u).spx.length := by rwa [(spxFlush_length n u).1]
  rw [(spxApplied _ _ _ _ hkey).2, spxOf, (spxApplied _ _ _ _ hkey).1, ← spxOf]
  split
  · next h28 =>
    refine ⟨?_, ?_, fun h => absurd h (by omega)⟩
    · rw [spxRxFlush_of hn2, spxTxFlush_of hn']
    · rw [spxRxFlush, spxShow_txempty, spxMod_same hn2, spxTxFlush_of hn']
      rfl
  · refine ⟨?_, spxTxFlush_empty hn', fun _ => ?_⟩
    · rw [spxTxFlush_of hn']
    · rw [spxTxFlush_of hn', hof]

theorem rxflush_empties (n : Nat) (w : BusReq) (dt : Nat) (s : State) (hn : n < 2) (ha : w.addr = 0x40110004 + 0x10000 * n) (hok : rxflushOk w = true) (hl : writeLands w (s.pass dt) = true) (hlen : s.spx.length = 2)
    (hopen : n = 1 → s.on (Reg.SPX_STAT_GLETY 1) = false ∨ isCustomer w.ini = false) (h30 : bitOf w.val 30 = 0) :
    completes (.rxflush w dt) s (fun t => (spxOf t n).rx = [] ∧ t.rd (Reg.SPX_STAT_RXAVAIL n) = 0 ∧ (bitOf w.val 29 = 0 → (spxOf t n).tx = (spxOf s n).tx)) := by
  have h28 : bitOf w.val 28 = 1 := setsBit_iff.1 (Bool.and_eq_true_iff.1 hok).2
  refine completes_spxCtl rfl hok hn ha hl hopen ?_
  rw [if_neg (by omega)]
  simp only [spxCtlPut, h28, if_true]
  have hn' : n < (((s.pass dt).wr (Reg.SPX_CTL_EN n) (w.val % 2)).wr (Reg.SPX_STAT_RUN n) (w.val % 2)).spx.length := Nat.lt_of_lt_of_eq hn hlen.symm
  have hof : spxOf (((s.pass dt).wr (Reg.SPX_CTL_EN n) (w.val % 2)).wr (Reg.SPX_STAT_RUN n) (w.val % 2)) n = spxOf s n := rfl
  generalize ((s.pass dt).wr (Reg.SPX_CTL_EN n) (w.val % 2)).wr (Reg.SPX_STAT_RUN n) (w.val % 2) = u at hn' hof ⊢
  have hkey : (Reg.SPX_STAT_RXAVAIL n).key ≠ (Reg.SPX_CTL_APPLY n).key := by simp +arith [Field.key, Reg.SPX_STAT_RXAVAIL, Reg.SPX_CTL_APPLY]
  rw [(spxApplied _ _ _ _ hkey).2, spxOf, (spxApplied _ _ _ _ hkey).1, ← spxOf]
  have hn2 : n < (if bitOf w.val 29 = 1 then spxTxFlush n u else u).spx.length := by
    split
    · rwa [(spxFlush_length n u).1]
    · exact hn'
  refine ⟨by rw [spxRxFlush_of hn2], spxRxFlush_empty hn2, fun h => ?_⟩
  rw [spxRxFlush_of hn2, if_neg (by omega), hof]

/-! ### DATA (R622) -/

theorem spxWrite_data (hn : n < 2) (hopen : spxOpen n ini s) : spxWrite ini (0x40110014 + 0x10000 * n) v (regFields (0x40110014 + 0x10000 * n)) s = spxPush n v s := by
  have hslot : (0x40110014 + 0x10000 * n - 0x40110000) / 0x10000 = n := by omega
  have hoff : (0x40110014 + 0x10000 * n) % 0x10000 = 0x14 := by omega
  have hmine : ¬ (n = 1 ∧ s.on (Reg.SPX_STAT_GLETY 1) = true ∧ isCustomer ini = true) := by
    rintro ⟨h1, hg, hc⟩
    rcases hopen h1 with h | h
    · rw [h] at hg; cases hg
    · rw [h] at hc; cases hc
  have hcaught : ¬ (caughtS (regFields (0x40110014 + 0x10000 * n)) v (s.on (Reg.SPX_CTL_APPLY n)) s = true ∨
      caughtH ((regFields (0x40110014 + 0x10000 * n)).filter (fun f => !(n == 1 && f == Reg.SPX_CFG_ROLE 1))) v (s.on (Reg.SPX_CTL_EN n)) s = true) := by
    rw [spxData_fields n hn]
    have hcase : n = 0 ∨ n = 1 := by omega
    rcases hcase with rfl | rfl <;> simp [caughtS, caughtH, writesCls, Reg.SPX_DATA, Reg.SPX_CFG_ROLE]
  unfold spxWrite
  simp only [hslot, hoff]
  rw [if_neg hmine, if_neg hcaught, if_neg (by omega), if_neg (by omega), if_pos trivial]

/-- A word that fits joins the transmit FIFO. -/
theorem spxPush_idle (hlen : n < s.spx.length) (hrun : (spxOf s n).run = none) :
    if 2048 < wordBytes (spxOf s n).tx + wsize s n / 8 then spxPush n v s = s.set1 (Reg.SPX_STAT_CFGERR n)
    else spxOf (spxPush n v s) n = { spxOf s n with tx := (spxOf s n).tx ++ [(wsize s n, v % 2 ^ wsize s n)], run := none } := by
  split
  · next hfull => simp only [spxPush, spxAdvance_idle hrun, hfull, if_true]
  · next hroom =>
    simp only [spxPush, spxAdvance_idle hrun, hroom, if_false, hrun]
    have hof : spxOf (spxShow n (spxMod n (fun p => { p with tx := p.tx ++ [(wsize s n, v % 2 ^ wsize s n)], run := none }) s)) n =
        { spxOf s n with tx := (spxOf s n).tx ++ [(wsize s n, v % 2 ^ wsize s n)], run := none } := (spxShow_spxOf n n _).trans (spxMod_same hlen _)
    rw [spxAdvance_idle (by rw [hof]), hof]

theorem dataPush_queues (n : Nat) (w : BusReq) (dt : Nat) (s : State) (hn : n < 2) (ha : w.addr = 0x40110014 + 0x10000 * n) (hok : isSpxData w = true) (hl : writeLands w (s.pass dt) = true) (hlen : s.spx.length = 2)
    (hopen : n = 1 → s.on (Reg.SPX_STAT_GLETY 1) = false ∨ isCustomer w.ini = false) (hrun : (spxOf s n).run = none) :
    completes (.dataPush w dt) s (fun t => if 2048 < wordBytes (spxOf s n).tx + wsize s n / 8 then t.rd (Reg.SPX_STAT_CFGERR n) = 1 ∧ t.spx = s.spx
      else (spxOf t n).tx = (spxOf s n).tx ++ [(wsize s n, w.val % 2 ^ wsize s n)]) := by
  refine completes_slotWrite rfl hok hl (by omega) (by omega) ?_
  rw [ha, slotWrite_spx (by omega) (by omega) (by rw [spxData_fields n hn]; rfl), spxWrite_data (s := s.pass dt) hn hopen]
  have hpush := spxPush_idle (v := w.val) (s := s.pass dt) (Nat.lt_of_lt_of_eq hn hlen.symm) hrun
  by_cases hfull : 2048 < wordBytes (spxOf s n).tx + wsize s n / 8
  · rw [if_pos hfull]
    rw [if_pos (show 2048 < wordBytes (spxOf (s.pass dt) n).tx + wsize (s.pass dt) n / 8 from hfull)] at hpush
    rw [hpush]
    exact ⟨State.rd_wr_same _ _ _, rfl⟩
  · rw [if_neg hfull]
    rw [if_neg (show ¬ 2048 < wordBytes (spxOf (s.pass dt) n).tx + wsize (s.pass dt) n / 8 from hfull)] at hpush
    rw [hpush]
    rfl

theorem slotRead_spxData (hn : n < 2) : slotRead ini (0x40110014 + 0x10000 * n) s = spxPop n s := by
  have hcase : n = 0 ∨ n = 1 := by omega
  rcases hcase with rfl | rfl <;> rfl

theorem dataPop_takes (n x y : Nat) (ws : List (Nat × Nat)) (f : SpxFrame) (fs : List SpxFrame) (w : BusReq) (dt : Nat) (s : State) (hn : n < 2) (ha : w.addr = 0x40110014 + 0x10000 * n) (hok : isSpxData w = true)
    (hl : readLands w (s.pass dt) = true) (hlen : s.spx.length = 2) (hrx : (spxOf s n).rx = { f with words := (x, y) :: ws } :: fs) :
    completes (.dataPop w dt) s (fun t => readGave w.ini t = some y ∧ (spxOf t n).rx = (if ws.isEmpty then fs else { f with words := ws } :: fs)) := by
  refine completes_slotRead rfl hok hl (by omega) (by omega) ?_
  have hpop : spxPop n (s.pass dt) = (y, spxShow n (spxMod n (fun p => { p with rx := if ws.isEmpty then fs else { f with words := ws } :: fs }) (s.pass dt))) := by
    unfold spxPop
    rw [show (spxOf (s.pass dt) n).rx = _ from hrx]
  rw [ha, slotRead_spxData hn, hpop]
  refine ⟨readGave_gaveRead _ _, ?_⟩
  show (spxOf (spxShow n _) n).rx = _
  rw [spxShow_spxOf, spxMod_same (s := s.pass dt) (Nat.lt_of_lt_of_eq hn hlen.symm)]

end
end Sys2Proof.Machine

open Sys2Proof Sys2Proof.Machine

/-- Settles O17: each register by its own lemma. -/
theorem serialAccesses : Obligations.SerialAccesses := by
  unfold Obligations.SerialAccesses
  exact ⟨spxStart_starts, spxApply_asks, txflush_empties, rxflush_empties, dataPush_queues, dataPop_takes⟩
end

section
/-!
SUPPORT. Writes of the power, mirror and lamp registers that act (R627, R631, R643, R645, R673, R749).
-/
namespace Sys2Proof.Machine

section
variable {n a v ini dt : Nat} {s : State} {w : BusReq}

/-! ### Votes (R631, R632) -/

/-- What a change of a vote may write of the registers: the target, the state of the domain and of PD_FAB, and the log with what marks an entry. -/
def voteFields (n k : Nat) : List Field :=
  [Reg.PWR_DOM_TARGET n, Reg.PWR_DOM_STATE n, Reg.PWR_DOM_STATE 11, Reg.PWR_DOM_HELD n, Reg.PWR_LOG_VALID k, Reg.PWR_LOG_DOMAIN k, Reg.PWR_LOG_REQ k, Reg.PWR_LOG_REASON k, Reg.PWR_LOG_TIME k, Reg.PWR_LOGIDX_NEXT,
    Reg.PWR_STAT_REFUSED]

theorem changesOnly_pwrLog {fs : List Field} {ps : List Piece} {z : State} (h : changesOnly fs ps z s) (dom req reason : Nat)
    (hf : ∀ f ∈ [Reg.PWR_LOG_VALID (s.rd Reg.PWR_LOGIDX_NEXT), Reg.PWR_LOG_DOMAIN (s.rd Reg.PWR_LOGIDX_NEXT), Reg.PWR_LOG_REQ (s.rd Reg.PWR_LOGIDX_NEXT), Reg.PWR_LOG_REASON (s.rd Reg.PWR_LOGIDX_NEXT),
      Reg.PWR_LOG_TIME (s.rd Reg.PWR_LOGIDX_NEXT), Reg.PWR_LOGIDX_NEXT, Reg.PWR_STAT_REFUSED], f ∈ fs) (hp : Piece.flight ∈ ps) : changesOnly fs ps z (pwrLog dom req reason s) :=
  (((((((h.set1 (hf _ (by simp))).wr _ (hf _ (by simp))).wr _ (hf _ (by simp))).wr _ (hf _ (by simp))).wr _ (hf _ (by simp))).wr _ (hf _ (by simp))).set1 (hf _ (by simp))).raise _ hp

theorem changesOnly_pwrMod {fs : List Field} {ps : List Piece} {z : State} (h : changesOnly fs ps z s) (f : Pwr → Pwr) (hp : Piece.pwr ∈ ps) : changesOnly fs ps z (pwrMod f s) := h.withPwr _ hp

theorem changesOnly_domRise1 {fs : List Field} {ps : List Piece} {z : State} (h : changesOnly fs ps z s) (thaw : Bool) (hf : Reg.PWR_DOM_STATE n ∈ fs) (hp : Piece.pwr ∈ ps) :
    changesOnly fs ps z (domRise1 n thaw s) :=
  .ite (fun _ => h) fun _ => (changesOnly_pwrMod h _ hp).wr _ hf

theorem changesOnly_domRise {fs : List Field} {ps : List Piece} {z : State} (h : changesOnly fs ps z s) (thaw : Bool) (hf : Reg.PWR_DOM_STATE n ∈ fs) (hf11 : Reg.PWR_DOM_STATE 11 ∈ fs) (hp : Piece.pwr ∈ ps) :
    changesOnly fs ps z (domRise n thaw s) :=
  changesOnly_domRise1 (.ite (fun _ => h) fun _ => changesOnly_domRise1 h _ hf11 hp) _ hf hp

theorem changesOnly_voteChanged (n : Nat) (s : State) : changesOnly (voteFields n (s.rd Reg.PWR_LOGIDX_NEXT)) [.pwr, .flight] s (voteChanged n s) := by
  have htarget : changesOnly (voteFields n (s.rd Reg.PWR_LOGIDX_NEXT)) [.pwr, .flight] s (s.wr (Reg.PWR_DOM_TARGET n) (domTarget s n)) := (changesOnly_refl _ _ _).wr _ (by simp [voteFields])
  have hidx : (s.wr (Reg.PWR_DOM_TARGET n) (domTarget s n)).rd Reg.PWR_LOGIDX_NEXT = s.rd Reg.PWR_LOGIDX_NEXT :=
    State.rd_wr_other _ _ (by simp only [Field.key, Reg.PWR_LOGIDX_NEXT, Reg.PWR_DOM_TARGET]; omega)
  unfold voteChanged
  simp only
  generalize s.wr (Reg.PWR_DOM_TARGET n) (domTarget s n) = u at htarget hidx ⊢
  refine .ite (fun _ => htarget) fun _ => ?_
  split
  · refine .ite (fun _ => ?_) fun _ => changesOnly_pwrMod htarget _ (by simp)
    rw [← hidx] at htarget ⊢
    unfold entryAbandon
    split
    · exact htarget
    · exact (changesOnly_pwrLog (changesOnly_pwrMod htarget _ (by simp)) _ _ _ (by simp [voteFields, pwrMod, State.rd]) (by simp)).set1 (by simp [voteFields])
  · exact .ite (fun _ => htarget) fun _ => .ite (fun _ => changesOnly_pwrMod htarget _ (by simp)) fun _ =>
      .ite (fun _ => changesOnly_domRise htarget _ (by simp [voteFields]) (by simp [voteFields]) (by simp)) fun _ => htarget

/-- A vote changes no field below the log but the target, the state and the mark of its domain and the state of PD_FAB. -/
theorem voteChanged_rd (n : Nat) (s : State) (f : Field) (hlo : f.addr < 0x40000200) (h32 : f.lo < 32) (h11 : f.key ≠ (Reg.PWR_DOM_STATE 11).key) (hst : f.key ≠ (Reg.PWR_DOM_STATE n).key)
    (htg : f.key ≠ (Reg.PWR_DOM_TARGET n).key) (hheld : f.key ≠ (Reg.PWR_DOM_HELD n).key) (hrefused : f.key ≠ Reg.PWR_STAT_REFUSED.key) : (voteChanged n s).rd f = s.rd f := by
  have hlog (k lo : Nat) : f.key ≠ (0x40000200 + 4 * k) * 32 + lo := by
    simp only [Field.key]
    omega
  refine (changesOnly_voteChanged n s).rd f ?_
  simp only [voteFields, List.forall_mem_cons, List.not_mem_nil, false_implies, implies_true, and_true]
  refine ⟨htg, hst, h11, hheld, hlog _ 31, hlog _ 27, hlog _ 25, hlog _ 16, hlog _ 0, hlog 16 0, hrefused⟩

theorem pwrSlot_writes (hlo : 0x40000000 ≤ a) (hhi : a < 0x40010000) (hf : (regFields a).isEmpty = false) : slotWrite false ini a v s = pwrWrite a v (regFields a) s := by
  have hfs : slotFields ini a = regFields a := if_neg (by omega)
  have hs : (a - 0x40000000) / 0x10000 = 0 := by omega
  simp [slotWrite, hfs, hf, hs]

theorem pwrDom_fields : ∀ n < 14, 1 ≤ n → (regFields (0x40000100 + 4 * n)).isEmpty = false := by decide
theorem pwrCtl_fields : (regFields 0x40000004).isEmpty = false := by decide
theorem pwrWaket_fields : (regFields 0x40000010).isEmpty = false := by decide

/-- What a write of PWR_DOMn takes before the vote. -/
def domPut (n v : Nat) (s : State) : State :=
  let s1 := s.wr (Reg.PWR_DOM_DLYLIM n) (fBits (Reg.PWR_DOM_DLYLIM n) v)
  if 7 ≤ n ∧ n ≤ 10 then s1.wr (Reg.PWR_DOM_EVWAKE n) (bitOf v 25) else s1

theorem pwrWrite_dom (h1 : 1 ≤ n) (hn : n ≤ 13) : pwrWrite (0x40000100 + 4 * n) v (regFields (0x40000100 + 4 * n)) s = cVote n (v % 4) (domPut n v s) := by
  have hoff : (0x40000100 + 4 * n) % 0x10000 = 0x100 + 4 * n := by omega
  have hdom : (0x100 + 4 * n - 0x100) / 4 = n := by omega
  unfold pwrWrite
  simp only [hoff, hdom]
  rw [if_neg (by omega), if_neg (by omega), if_neg (by omega), if_pos (by omega)]
  rfl

theorem domPut_rd (n v : Nat) (s : State) : (domPut n v s).rd (Reg.PWR_DOM_DLYLIM n) = fBits (Reg.PWR_DOM_DLYLIM n) v ∧ (domPut n v s).rd (Reg.PWR_DOM_CREQ n) = s.rd (Reg.PWR_DOM_CREQ n) := by
  have hd : (s.wr (Reg.PWR_DOM_DLYLIM n) (fBits (Reg.PWR_DOM_DLYLIM n) v)).rd (Reg.PWR_DOM_DLYLIM n) = fBits (Reg.PWR_DOM_DLYLIM n) v := (State.rd_wr_same _ _ _).trans (Nat.mod_eq_of_lt (fBits_lt _ _))
  have hc : (s.wr (Reg.PWR_DOM_DLYLIM n) (fBits (Reg.PWR_DOM_DLYLIM n) v)).rd (Reg.PWR_DOM_CREQ n) = s.rd (Reg.PWR_DOM_CREQ n) := State.rd_wr_other _ _ (by simp [Field.key, Reg.PWR_DOM_CREQ, Reg.PWR_DOM_DLYLIM])
  unfold domPut
  simp only
  split
  · exact ⟨(State.rd_wr_other _ _ (by simp [Field.key, Reg.PWR_DOM_EVWAKE, Reg.PWR_DOM_DLYLIM])).trans hd, (State.rd_wr_other _ _ (by simp [Field.key, Reg.PWR_DOM_EVWAKE, Reg.PWR_DOM_CREQ])).trans hc⟩
  · exact ⟨hd, hc⟩

theorem vote_taken (n : Nat) (w : BusReq) (dt : Nat) (s : State) (h1 : 1 ≤ n) (hn : n ≤ 13) (ha : w.addr = 0x40000100 + 4 * n) (hok : voteWriteOk w = true) (hl : writeLands w (s.pass dt) = true) :
    completes (.voteWrite w dt) s (fun t => t.rd (Reg.PWR_DOM_DLYLIM n) = fBits (Reg.PWR_DOM_DLYLIM n) w.val ∧
      (if w.val % 4 = 3 then t.rd Reg.PWR_STAT_CFGERR = 1 ∧ t.rd (Reg.PWR_DOM_CREQ n) = s.rd (Reg.PWR_DOM_CREQ n) else t.rd (Reg.PWR_DOM_CREQ n) = w.val % 4)) := by
  refine completes_slotWrite rfl hok hl (by omega) (by omega) ?_
  obtain ⟨hdly, hcreq⟩ := domPut_rd n w.val (s.pass dt)
  rw [ha, pwrSlot_writes (by omega) (by omega) (pwrDom_fields n (by omega) h1), pwrWrite_dom h1 hn, cVote, Nat.mod_mod]
  split
  · refine ⟨?_, State.rd_wr_same _ _ _, ?_⟩
    · rw [State.set1, State.rd_wr_other _ _ (by simp only [Field.key, Reg.PWR_DOM_DLYLIM, Reg.PWR_STAT_CFGERR]; omega), hdly]
    · rw [State.set1, State.rd_wr_other _ _ (by simp only [Field.key, Reg.PWR_DOM_CREQ, Reg.PWR_STAT_CFGERR]; omega), hcreq]
      rfl
  · refine ⟨?_, ?_⟩
    · rw [voteChanged_rd _ _ _ (by simp only [Reg.PWR_DOM_DLYLIM]; omega) (by simp [Reg.PWR_DOM_DLYLIM])
        (by simp only [Field.key, Reg.PWR_DOM_DLYLIM, Reg.PWR_DOM_STATE]; omega) (by simp [Field.key, Reg.PWR_DOM_DLYLIM, Reg.PWR_DOM_STATE]) (by simp [Field.key, Reg.PWR_DOM_DLYLIM, Reg.PWR_DOM_TARGET])
        (by simp [Field.key, Reg.PWR_DOM_DLYLIM, Reg.PWR_DOM_HELD]) (by simp only [Field.key, Reg.PWR_DOM_DLYLIM, Reg.PWR_STAT_REFUSED]; omega),
        State.rd_wr_other _ _ (by simp [Field.key, Reg.PWR_DOM_DLYLIM, Reg.PWR_DOM_CREQ]), hdly]
    · rw [voteChanged_rd _ _ _ (by simp only [Reg.PWR_DOM_CREQ]; omega) (by simp [Reg.PWR_DOM_CREQ])
        (by simp only [Field.key, Reg.PWR_DOM_CREQ, Reg.PWR_DOM_STATE]; omega) (by simp [Field.key, Reg.PWR_DOM_CREQ, Reg.PWR_DOM_STATE]) (by simp [Field.key, Reg.PWR_DOM_CREQ, Reg.PWR_DOM_TARGET])
        (by simp [Field.key, Reg.PWR_DOM_CREQ, Reg.PWR_DOM_HELD]) (by simp only [Field.key, Reg.PWR_DOM_CREQ, Reg.PWR_STAT_REFUSED]; omega), State.rd_wr_same]
      simp [Reg.PWR_DOM_CREQ]

/-! ### Stop, the wake timer and the relatch (R627, R643, R645) -/

theorem pwrWrite_ctl (h29 : bitOf v 29 = 0) : pwrWrite 0x40000004 v (regFields 0x40000004) s =
    (let s2 := if bitOf v 30 = 1 then (s.wr Reg.PWR_CTL_PFAILEN 0).clr Reg.BKP_SET0_LATCHED else s.wr Reg.PWR_CTL_PFAILEN 0
     if bitOf v 31 = 1 then stopReqWrite s2 else s2) := by
  simp [pwrWrite, h29]

theorem stopreq_asks (w : BusReq) (dt : Nat) (s : State) (hok : stopreqOk w = true) (hl : writeLands w (s.pass dt) = true) (hplain : bitsOf w.val 30 29 = 0) :
    completes (.stopreq w dt) s (fun t => if s.on Reg.BKP_SET0_PROFILE = true then t.rd Reg.PWR_STAT_CFGERR = 1 ∧ t.pwr = s.pwr
      else s.on Reg.PWR_CTL_STOPREQ = false → s.pwr.stop = .none → t.rd Reg.PWR_CTL_STOPREQ = 1 ∧ t.pwr.stop = .handshake ∧ t.pwr.byPfail = false ∧ t.rd Reg.PWR_STAT_MODE = 1) := by
  obtain ⟨hslot, hbit⟩ := Bool.and_eq_true_iff.1 hok
  have h31 : bitOf w.val 31 = 1 := setsBit_iff.1 hbit
  have ha : w.addr = 0x40000004 := by
    simp only [inSlot, Bool.and_eq_true, beq_iff_eq] at hslot
    omega
  have h3029 : bitOf w.val 30 = 0 ∧ bitOf w.val 29 = 0 := by
    simp only [bitsOf, bitOf, Nat.shiftRight_eq_div_pow] at *
    omega
  refine completes_slotWrite rfl hok hl (by omega) (by omega) ?_
  rw [ha, pwrSlot_writes (by omega) (by omega) pwrCtl_fields, pwrWrite_ctl h3029.2]
  simp only [h31, if_true, if_neg (show ¬ bitOf w.val 30 = 1 by omega)]
  have hleaf : leafMode ((s.pass dt).wr Reg.PWR_CTL_PFAILEN 0) = s.on Reg.BKP_SET0_PROFILE := by
    rw [leafMode, State.on, State.rd_wr_other _ _ (by decide)]
    rfl
  have hreq : ((s.pass dt).wr Reg.PWR_CTL_PFAILEN 0).on Reg.PWR_CTL_STOPREQ = s.on Reg.PWR_CTL_STOPREQ := by
    rw [State.on, State.rd_wr_other _ _ (by decide)]
    rfl
  unfold stopReqWrite
  rw [hleaf, hreq]
  split
  · exact ⟨State.rd_wr_same _ _ _, rfl⟩
  · intro hoff hnone
    have hstop : ¬ (((s.pass dt).wr Reg.PWR_CTL_PFAILEN 0).set1 Reg.PWR_CTL_STOPREQ).pwr.stop ≠ .none := not_not.2 hnone
    rw [if_neg (Bool.eq_false_iff.1 hoff), stopAsk, if_neg hstop]
    refine ⟨?_, rfl, rfl, State.rd_wr_same _ _ _⟩
    rw [State.rd_wr_other _ _ (by decide)]
    exact State.rd_wr_same _ _ _

theorem waket_set (w : BusReq) (dt : Nat) (s : State) (hok : waketWriteOk w = true) (hl : writeLands w (s.pass dt) = true) :
    completes (.waketWrite w dt) s (fun t => t.pwr.waketAt = (if w.val = 0 then none else some (s.elapsed + dt + w.val * cycXtal)) ∧ changesOnly [] [.pwr] (s.pass dt) t) := by
  have ha : w.addr = 0x40000010 := by
    simp only [waketWriteOk, inSlot, Bool.and_eq_true, beq_iff_eq] at hok
    omega
  refine completes_slotWrite rfl hok hl (by omega) (by omega) ?_
  rw [ha, pwrSlot_writes (by omega) (by omega) pwrWaket_fields]
  have heq : pwrWrite 0x40000010 w.val (regFields 0x40000010) (s.pass dt) = waketWrite w.val (s.pass dt) := rfl
  rw [heq]
  exact ⟨rfl, changesOnly_pwrMod (changesOnly_refl _ _ _) _ (by simp)⟩

theorem relatch_clears (w : BusReq) (dt : Nat) (s : State) (hok : relatchOk w = true) (hl : writeLands w (s.pass dt) = true) (h31 : bitOf w.val 31 = 0) (h29 : bitOf w.val 29 = 0) :
    completes (.relatch w dt) s (fun t => t.rd Reg.BKP_SET0_LATCHED = 0 ∧ t.rd Reg.PWR_CTL_PFAILEN = 0 ∧ changesOnly [Reg.BKP_SET0_LATCHED, Reg.PWR_CTL_PFAILEN] [] (s.pass dt) t) := by
  obtain ⟨hslot, hbit⟩ := Bool.and_eq_true_iff.1 hok
  have h30 : bitOf w.val 30 = 1 := setsBit_iff.1 hbit
  have ha : w.addr = 0x40000004 := by
    simp only [inSlot, Bool.and_eq_true, beq_iff_eq] at hslot
    omega
  refine completes_slotWrite rfl hok hl (by omega) (by omega) ?_
  rw [ha, pwrSlot_writes (by omega) (by omega) pwrCtl_fields, pwrWrite_ctl h29]
  simp only [h30, if_true, if_neg (show ¬ bitOf w.val 31 = 1 by omega)]
  refine ⟨State.rd_wr_same _ _ _, ?_, ((changesOnly_refl _ _ _).wr _ (by simp)).clr (by simp)⟩
  rw [State.clr, State.rd_wr_other _ _ (by decide)]
  exact State.rd_wr_same _ _ _

/-! ### The fence and the luminaire bus (R673, R749) -/

theorem mirFence_fields : regFields 0x40140008 = [Reg.MIR_FENCE_FAIL, Reg.MIR_FENCE_FENCE] := by decide
theorem daliTx_fields : regFields 0x40150030 = [Reg.LMP_DALI_TX_SEND, Reg.LMP_DALI_TX_BW, Reg.LMP_DALI_TX_LEN, Reg.LMP_DALI_TX_FRAME] := by decide

theorem fence_raised (w : BusReq) (dt : Nat) (s : State) (hok : mirFenceOk w = true) (hl : writeLands w (s.pass dt) = true) (hrole : s.rd Reg.MIR_STAT_ROLE = 1 ∨ s.rd Reg.MIR_STAT_ROLE = 4)
    (hoff : s.on Reg.MIR_FENCE_FENCE = false) : completes (.mirFence w dt) s (fun t => t.rd Reg.MIR_FENCE_FENCE = 1 ∧ t.mir.fence = some s.mir.seq) := by
  obtain ⟨hslot, hbit⟩ := Bool.and_eq_true_iff.1 hok
  have hodd : w.val % 2 = 1 := setsBit_iff.1 hbit
  have ha : w.addr = 0x40140008 := by
    simp only [inSlot, Bool.and_eq_true, beq_iff_eq] at hslot
    omega
  refine completes_slotWrite rfl hok hl (by omega) (by omega) ?_
  have hwrite : slotWrite false w.ini w.addr w.val (s.pass dt) = mirFence (fieldPut Reg.MIR_FENCE_FAIL w.val (s.pass dt)) := by
    have hfs : slotFields w.ini 0x40140008 = regFields 0x40140008 := if_neg (by omega)
    simp [ha, slotWrite, hfs, mirFence_fields, mirWrite, hodd, regPut, Reg.MIR_FENCE_FAIL, Reg.MIR_FENCE_FENCE]
  have hrd (f : Field) (hf : f.key ≠ Reg.MIR_FENCE_FAIL.key) : (fieldPut Reg.MIR_FENCE_FAIL w.val (s.pass dt)).rd f = s.rd f := fieldPut_rd_other _ _ hf
  have hmir : (fieldPut Reg.MIR_FENCE_FAIL w.val (s.pass dt)).mir = s.mir := rfl
  rw [hwrite]
  generalize fieldPut Reg.MIR_FENCE_FAIL w.val (s.pass dt) = u at hrd hmir ⊢
  have hserving : serving (mirRole u) = true := by
    rw [mirRole, hrd _ (by decide)]
    rcases hrole with h | h <;> rw [h] <;> rfl
  have hfence : u.on Reg.MIR_FENCE_FENCE = false := by
    rw [State.on, hrd _ (by decide)]
    exact hoff
  have heq : mirFence u = mirMod (fun m => { m with fence := some m.seq }) (u.set1 Reg.MIR_FENCE_FENCE) := by
    simp [mirFence, hserving, hfence]
  rw [heq]
  exact ⟨State.rd_wr_same _ _ _, congrArg some (congrArg Mir.seq hmir)⟩

theorem daliSend_queues (w : BusReq) (dt : Nat) (s : State) (hok : daliSendOk w = true) (hl : writeLands w (s.pass dt) = true) (hopen : s.on Reg.LMP_STAT_SVC = false ∨ isCustomer w.ini = false) :
    completes (.daliSend w dt) s (fun t => if s.on Reg.LMP_STAT_DALIBUSY = true ∨ s.on Reg.LMP_CTL_DALIEN = false then t.rd Reg.LMP_STAT_CFGERR = 1 ∧ t.lmp = s.lmp
      else t.rd Reg.LMP_STAT_DALIBUSY = 1 ∧ t.lmp.dali = some { frame := w.val % 2 ^ 24, long := bitOf w.val 29 == 1, bw := bitOf w.val 30 == 1, poll := false, at_ := s.elapsed + dt }) := by
  obtain ⟨hslot, hbit⟩ := Bool.and_eq_true_iff.1 hok
  have h31 : bitOf w.val 31 = 1 := setsBit_iff.1 hbit
  have ha : w.addr = 0x40150030 := by
    simp only [inSlot, Bool.and_eq_true, beq_iff_eq] at hslot
    omega
  refine completes_slotWrite rfl hok hl (by omega) (by omega) ?_
  have hwrite : slotWrite false w.ini w.addr w.val (s.pass dt) = daliSend (regPut [] (regFields 0x40150030) w.val (s.pass dt)) := by
    have hfs : slotFields w.ini 0x40150030 = regFields 0x40150030 := if_neg (by omega)
    have hmine : ¬ ((s.pass dt).on Reg.LMP_STAT_SVC = true ∧ isCustomer w.ini = true) := by
      rintro ⟨hs, hc⟩
      rcases hopen with h | h
      · exact absurd (show s.on Reg.LMP_STAT_SVC = true from hs) (by rw [h]; decide)
      · rw [h] at hc; cases hc
    have hcaught (c : Cls) (hc : c ≠ .l) : writesCls c (regFields 0x40150030) w.val (s.pass dt) = false := by
      cases c <;> simp_all [writesCls, daliTx_fields, Reg.LMP_DALI_TX_SEND, Reg.LMP_DALI_TX_BW, Reg.LMP_DALI_TX_LEN, Reg.LMP_DALI_TX_FRAME]
    have hempty : (regFields 0x40150030).isEmpty = false := by decide
    have hlmp : lmpWrite w.ini 0x40150030 w.val (regFields 0x40150030) (s.pass dt) = daliSend (regPut [] (regFields 0x40150030) w.val (s.pass dt)) := by
      unfold lmpWrite
      simp only [caughtS, caughtH, hcaught .s (by decide), hcaught .h (by decide), Bool.and_false, Bool.false_eq_true, or_self, if_false, h31, if_true]
      rw [if_neg (fun h => hmine ⟨h.1, h.2.1⟩), if_neg (by omega)]
    rw [ha, ← hlmp]
    simp [slotWrite, hfs, hempty]
  rw [hwrite, daliTx_fields]
  have hkeys : ([Reg.LMP_DALI_TX_SEND, Reg.LMP_DALI_TX_BW, Reg.LMP_DALI_TX_LEN, Reg.LMP_DALI_TX_FRAME].map Field.key).Nodup := by decide
  have hput (f : Field) (hf : f ∈ [Reg.LMP_DALI_TX_SEND, Reg.LMP_DALI_TX_BW, Reg.LMP_DALI_TX_LEN, Reg.LMP_DALI_TX_FRAME]) :
      (regPut [] [Reg.LMP_DALI_TX_SEND, Reg.LMP_DALI_TX_BW, Reg.LMP_DALI_TX_LEN, Reg.LMP_DALI_TX_FRAME] w.val (s.pass dt)).rd f = fieldAfter f w.val (s.pass dt) := regPut_rd _ _ _ hkeys f hf
  have hframe := hput Reg.LMP_DALI_TX_FRAME (by simp)
  have hlen := hput Reg.LMP_DALI_TX_LEN (by simp)
  have hbw := hput Reg.LMP_DALI_TX_BW (by simp)
  have hother (f : Field) (hf : ∀ g ∈ [Reg.LMP_DALI_TX_SEND, Reg.LMP_DALI_TX_BW, Reg.LMP_DALI_TX_LEN, Reg.LMP_DALI_TX_FRAME], f.key ≠ g.key) :
      (regPut [] [Reg.LMP_DALI_TX_SEND, Reg.LMP_DALI_TX_BW, Reg.LMP_DALI_TX_LEN, Reg.LMP_DALI_TX_FRAME] w.val (s.pass dt)).rd f = s.rd f :=
    (regPut_fields _ w.val (fieldsOnly_refl _ (s.pass dt)) (fun _ h => h) f hf).1
  have hlmp : (regPut [] [Reg.LMP_DALI_TX_SEND, Reg.LMP_DALI_TX_BW, Reg.LMP_DALI_TX_LEN, Reg.LMP_DALI_TX_FRAME] w.val (s.pass dt)).lmp = s.lmp := rfl
  have hnow := regPut_elapsed [] [Reg.LMP_DALI_TX_SEND, Reg.LMP_DALI_TX_BW, Reg.LMP_DALI_TX_LEN, Reg.LMP_DALI_TX_FRAME] w.val (s.pass dt)
  generalize regPut [] [Reg.LMP_DALI_TX_SEND, Reg.LMP_DALI_TX_BW, Reg.LMP_DALI_TX_LEN, Reg.LMP_DALI_TX_FRAME] w.val (s.pass dt) = u at hframe hlen hbw hother hlmp hnow ⊢
  have hbusy : u.on Reg.LMP_STAT_DALIBUSY = s.on Reg.LMP_STAT_DALIBUSY := by rw [State.on, hother _ (by decide), State.on]
  have hen : u.on Reg.LMP_CTL_DALIEN = s.on Reg.LMP_CTL_DALIEN := by rw [State.on, hother _ (by decide), State.on]
  unfold daliSend
  simp only [hbusy, hen, Bool.or_eq_true, Bool.not_eq_true']
  split
  · exact ⟨State.rd_wr_same _ _ _, hlmp⟩
  · refine ⟨State.rd_wr_same _ _ _, congrArg some ?_⟩
    have hf : u.rd Reg.LMP_DALI_TX_FRAME = w.val % 2 ^ 24 := hframe
    have hl' : u.on Reg.LMP_DALI_TX_LEN = (bitOf w.val 29 == 1) := congrArg (· == 1) hlen
    have hb' : u.on Reg.LMP_DALI_TX_BW = (bitOf w.val 30 == 1) := congrArg (· == 1) hbw
    rw [hf, hl', hb', hnow]
    rfl

end
end Sys2Proof.Machine

open Sys2Proof Sys2Proof.Machine

/-- Settles O18: each register by its own lemma. -/
theorem powerAccesses : Obligations.PowerAccesses := by
  unfold Obligations.PowerAccesses
  exact ⟨vote_taken, stopreq_asks, waket_set, relatch_clears, fence_raised, daliSend_queues⟩
end

section
/-!
SUPPORT. The arrays' parity (R437, R438, R440, R441): the row that a detection repairs, the record of a detection, the patrol's search and a row from the store.
-/
namespace Sys2Proof.Machine

section
variable {arr base rows n a dt i : Nat} {s : State}

/-! ### What a detection leaves (R437, R440) -/

/-- The registers of a detection's record and counts lie between the mailboxes and SYS_SPARE. -/
def parReg (f : Field) : Prop := 0x40170000 * 32 ≤ f.key ∧ f.key < 0x4017005C * 32

theorem spareShow_rd (s : State) (f : Field) (hf : parReg f) : (spareShow s).rd f = s.rd f := by
  obtain ⟨_, hhi⟩ := hf
  unfold spareShow
  simp only
  rw [State.rd_wr_other _ _ (by simp only [Field.key, Reg.SYS_SPARE_WORST] at *; omega), State.rd_wr_other _ _ (by simp only [Field.key, Reg.SYS_SPARE_LEFT] at *; omega),
    State.rd_wr_other _ _ (by simp only [Field.key, Reg.SYS_SPARE_USED] at *; omega)]

theorem healthPut_parReg (severity area kind unit v1 v2 : Nat) (s : State) (f : Field) (hf : parReg f) : (healthPut severity area kind unit v1 v2 s).rd f = s.rd f := by
  obtain ⟨hlo, _⟩ := hf
  exact healthPut_rd _ _ _ _ _ _ s f (.inr (by omega)) (by simp only [Field.key, Reg.AGE_STAT_NEXT] at *; omega)

theorem alarm_rd (f : Field) (v : Bool) (s : State) (g : Field) (hg : g.key ≠ f.key) (hw : g.key ≠ Reg.AGE_STAT_WORST.key) : (alarm f v s).rd g = s.rd g := by
  rw [alarm, State.rd_wr_other _ _ hw, State.rd_wr_other _ _ hg]

theorem spareReplace_rd (arr row : Nat) (s : State) (f : Field) (hf : parReg f) : (spareReplace arr row s).rd f = s.rd f := by
  unfold spareReplace
  dsimp only
  split
  · refine Eq.trans (healthPut_parReg _ _ _ _ _ _ _ f hf) ?_
    rw [State.rd_raise, spareShow_rd _ _ hf]
    rfl
  · obtain ⟨hlo, hhi⟩ := hf
    rw [alarm_rd _ _ _ _ (by simp only [Field.key, Reg.AGE_ALARMS_SRAMNOSP] at *; omega) (by simp only [Field.key, Reg.AGE_STAT_WORST] at *; omega), healthPut_parReg _ _ _ _ _ _ _ f ⟨hlo, hhi⟩]
    rfl

theorem rowDetect_rd (a : Nat) (s : State) (f : Field) (hf : parReg f) : (rowDetect a s).rd f = s.rd f := by
  unfold rowDetect
  split
  · rfl
  · dsimp only
    split
    · rfl
    · split
      · exact spareReplace_rd _ _ _ _ hf
      · rfl

theorem alarm_flight (f : Field) (v : Bool) (s : State) : (alarm f v s).flight = s.flight := rfl

/-- Events that are on their way stay so while a row is repaired. -/
theorem mem_flight_spareReplace (arr row e : Nat) (s : State) (h : e ∈ s.flight) : e ∈ (spareReplace arr row s).flight := by
  have hshow (u : State) : (spareShow u).flight = u.flight := rfl
  have hmap (u : State) : (rmapWrite u).flight = u.flight := rfl
  unfold spareReplace
  dsimp only
  split
  · rw [hmap, healthPut_flight, State.raise_flight, hshow]
    simp [h]
  · rw [alarm_flight, healthPut_flight]
    simp [h]

theorem mem_flight_rowDetect (a e : Nat) (s : State) (h : e ∈ s.flight) : e ∈ (rowDetect a s).flight := by
  unfold rowDetect
  split
  · exact h
  · dsimp only
    split
    · exact h
    · split
      · exact mem_flight_spareReplace _ _ _ _ h
      · exact h

theorem ev156_rd (s : State) (f : Field) : (ev156 s).rd f = s.rd f := by
  unfold ev156
  split
  · split <;> rfl
  · rfl

/-- EV156 is on its way unless it was raised within the last millisecond. -/
theorem ev156_raised (s : State) : 156 ∈ (ev156 s).flight ∨ ∃ e, s.par.ev156 = some e ∧ s.elapsed < e + cycMs 1 := by
  unfold ev156
  split
  · next e he =>
    split
    · exact .inl (by simp)
    · next h => exact .inr ⟨e, he, by omega⟩
  · exact .inl (by simp)

/-- The counter of a detection. -/
def parCounter (s : State) (a : Nat) : Field := if parWhere s a = 1 then Reg.SYS_PARCNT_SRAM else Reg.SYS_PARCNT_TCM

theorem parCounter_cases (s : State) (a : Nat) : parCounter s a = Reg.SYS_PARCNT_SRAM ∨ parCounter s a = Reg.SYS_PARCNT_TCM := by
  unfold parCounter
  split
  · exact .inl rfl
  · exact .inr rfl

theorem parDetect_rd (a ini : Nat) (patrol : Bool) (s : State) (f : Field) (hf : parReg f) : (parDetect a ini patrol s).rd f = ((parRecord (parWhere s a) a ini patrol false s).inc (parCounter s a)).rd f := by
  unfold parDetect
  rw [rowDetect_rd _ _ _ hf, ev156_rd]
  rfl

theorem parRecord_rd (w a ini : Nat) (patrol refetched : Bool) (s : State) (f : Field)
    (hf : ∀ g ∈ [Reg.SYS_PARLAST_ADDR, Reg.SYS_PARLAST_INFO_VALID, Reg.SYS_PARLAST_INFO_WHERE, Reg.SYS_PARLAST_INFO_PATROL, Reg.SYS_PARLAST_INFO_REFETCHED, Reg.SYS_PARLAST_INFO_INIT], f.key ≠ g.key) :
    (parRecord w a ini patrol refetched s).rd f = s.rd f :=
  (((((((changesOnly_refl _ [] s).wr a (List.mem_cons_self)).set1 (by simp)).wr w (by simp)).wr (b2n patrol) (by simp)).wr (b2n refetched) (by simp)).wr ini (by simp)).rd f hf

/-- The record of a detection. -/
theorem parDetect_record (a ini : Nat) (patrol : Bool) (s : State) (ha : a < 2 ^ 32) (hini : ini < 32) :
    (parDetect a ini patrol s).rd Reg.SYS_PARLAST_ADDR = a ∧ (parDetect a ini patrol s).rd Reg.SYS_PARLAST_INFO_VALID = 1 ∧ (parDetect a ini patrol s).rd Reg.SYS_PARLAST_INFO_PATROL = b2n patrol ∧
      (parDetect a ini patrol s).rd Reg.SYS_PARLAST_INFO_INIT = ini ∧ (parDetect a ini patrol s).rd Reg.SYS_PARLAST_INFO_REFETCHED = 0 := by
  have hreg (f : Field) (hf : parReg f) (h1 : f.key ≠ Reg.SYS_PARCNT_SRAM.key) (h2 : f.key ≠ Reg.SYS_PARCNT_TCM.key) : (parDetect a ini patrol s).rd f = (parRecord (parWhere s a) a ini patrol false s).rd f := by
    rw [parDetect_rd _ _ _ _ _ hf, State.rd_inc, if_neg]
    rcases parCounter_cases s a with h | h <;> rw [h]
    · exact h1
    · exact h2
  rw [hreg _ ⟨by decide, by decide⟩ (by decide) (by decide), hreg _ ⟨by decide, by decide⟩ (by decide) (by decide), hreg _ ⟨by decide, by decide⟩ (by decide) (by decide), hreg _ ⟨by decide, by decide⟩ (by decide) (by decide),
    hreg _ ⟨by decide, by decide⟩ (by decide) (by decide)]
  simp only [parRecord, State.set1, State.rd_wr]
  simp [Field.key, Reg.SYS_PARLAST_ADDR, Reg.SYS_PARLAST_INFO_VALID, Reg.SYS_PARLAST_INFO_WHERE, Reg.SYS_PARLAST_INFO_PATROL, Reg.SYS_PARLAST_INFO_REFETCHED, Reg.SYS_PARLAST_INFO_INIT, b2n_mod_two]
  exact ⟨ha, hini, rfl⟩

theorem parDetect_counts (a ini : Nat) (patrol : Bool) (s : State) : (parDetect a ini patrol s).rd (parCounter s a) = satAdd (parCounter s a).width (s.rd (parCounter s a)) 1 := by
  have hreg : parReg (parCounter s a) := by
    rcases parCounter_cases s a with h | h <;> rw [h]
    · exact ⟨by decide, by decide⟩
    · exact ⟨by decide, by decide⟩
  have hold : (parRecord (parWhere s a) a ini patrol false s).rd (parCounter s a) = s.rd (parCounter s a) := by
    refine parRecord_rd _ _ _ _ _ _ _ ?_
    rcases parCounter_cases s a with h | h <;> rw [h] <;> decide
  rw [parDetect_rd _ _ _ _ _ hreg, State.rd_inc_same, hold]

/-- A register of the record's neighbourhood that a detection does not write. -/
theorem parDetect_rd_other (a ini : Nat) (patrol : Bool) (s : State) (f : Field) (hf : parReg f) (hlo : f.key < Reg.SYS_PARLAST_ADDR.key) (h1 : f.key ≠ Reg.SYS_PARCNT_SRAM.key) (h2 : f.key ≠ Reg.SYS_PARCNT_TCM.key) :
    (parDetect a ini patrol s).rd f = s.rd f := by
  rw [parDetect_rd _ _ _ _ _ hf, State.rd_inc, if_neg, parRecord_rd]
  · simp only [List.forall_mem_cons, List.not_mem_nil, false_implies, implies_true, and_true, Field.key, Reg.SYS_PARLAST_ADDR, Reg.SYS_PARLAST_INFO_VALID, Reg.SYS_PARLAST_INFO_WHERE, Reg.SYS_PARLAST_INFO_PATROL,
      Reg.SYS_PARLAST_INFO_REFETCHED, Reg.SYS_PARLAST_INFO_INIT] at *
    omega
  · rcases parCounter_cases s a with h | h <;> rw [h]
    · exact h1
    · exact h2

theorem parDetect_mem (a ini : Nat) (patrol : Bool) (s : State) : (parDetect a ini patrol s).mem = s.mem :=
  parDetect_parts a ini patrol s s (partsOnly_refl [.age, .par, .mboxes, .regs, .health, .heldNotices, .flight] s) rfl .mem (by decide)

theorem parDetect_event (a ini : Nat) (patrol : Bool) (s : State) : 156 ∈ (parDetect a ini patrol s).flight ∨ ∃ e, s.par.ev156 = some e ∧ s.elapsed < e + cycMs 1 :=
  (ev156_raised ((parRecord (parWhere s a) a ini patrol false s).inc (parCounter s a))).imp_left (mem_flight_rowDetect a 156 _)

/-! ### The patrol (R441) -/

theorem badIn_eq_none : badIn s a n = none ↔ ∀ i < n, s.par.bad.contains (a + i) = false := by
  simp [badIn, List.findSome?_eq_none_iff]

/-- Among bytes that are good, the one byte that has been upset is found. -/
theorem badIn_upset {x : Nat} (h : badIn s base n = none) (hlo : base ≤ x) (hhi : x < base + n) (t : State) (ht : t.par.bad = s.par.bad ++ [x]) : badIn t base n = some x := by
  have hgood := badIn_eq_none.1 h
  have hx : base + (x - base) = x := by omega
  have hfind (l : List Nat) (hl : ∀ i ∈ l, i < n) (hmem : x - base ∈ l) : l.findSome? (fun i => if t.par.bad.contains (base + i) then some (base + i) else none) = some x := by
    induction l with
    | nil => cases hmem
    | cons i l ih =>
      rw [List.findSome?_cons, ht]
      by_cases hi : i = x - base
      · simp [hi, hx]
      · have hne : base + i ≠ x := by omega
        have hi' := hgood i (hl i List.mem_cons_self)
        have hc : (s.par.bad ++ [x]).contains (base + i) = false := by
          rw [List.contains_eq_mem, decide_eq_false_iff_not] at hi' ⊢
          simp [hne, hi']
        rw [hc]
        rw [ht] at ih
        exact ih (fun j hj => hl j (List.mem_cons_of_mem _ hj)) ((List.mem_cons.1 hmem).resolve_left (Ne.symm hi))
  exact hfind (List.range n) (fun i hi => List.mem_range.1 hi) (List.mem_range.2 (by omega))

/-- What the patrol leaves of the row it comes to, before it looks. -/
def patrolTurn (arr : Nat) (upsets : List Nat) (s : State) : State :=
  { s with par := { s.par with bad := s.par.bad ++ upsets.filter (fun a => !s.par.bad.contains a), patrol := put arr ((look arr s.par.patrol).getD 0 + 1) s.par.patrol } }

theorem patrolRead_good {upsets : List Nat} (hspan : arraySpan arr = some (base, rows)) (h : badIn (patrolTurn arr upsets s) (base + (look arr s.par.patrol).getD 0 % max 1 rows * 128) 128 = none) :
    patrolRead arr upsets s = patrolTurn arr upsets s := by
  unfold patrolTurn at h
  unfold patrolRead
  rw [hspan]
  dsimp only at h ⊢
  rw [h]
  rfl

theorem patrolRead_bad {upsets : List Nat} (hspan : arraySpan arr = some (base, rows)) (h : badIn (patrolTurn arr upsets s) (base + (look arr s.par.patrol).getD 0 % max 1 rows * 128) 128 = some a) :
    patrolRead arr upsets s = parDetect a 31 true ((patrolTurn arr upsets s).inc Reg.SYS_PATROLCNT) := by
  unfold patrolTurn at h
  unfold patrolRead
  rw [hspan]
  dsimp only at h ⊢
  rw [h]
  rfl

theorem patrol_clean (arr base rows n dt : Nat) (s : State) (hok : patrolOk arr (s.pass dt) = true) (hspan : arraySpan arr = some (base, rows)) (hn : n = (look arr s.par.patrol).getD 0)
    (hbad : badIn s (base + n % max 1 rows * 128) 128 = none) :
    completes (.patrolRead arr [] dt) s (fun t => t.par = { s.par with patrol := put arr (n + 1) s.par.patrol } ∧ changesOnly [] [.par] (s.pass dt) t) := by
  have hturn : (patrolTurn arr [] (s.pass dt)).par = { s.par with patrol := put arr (n + 1) s.par.patrol } := by
    rw [hn]
    exact congrArg (fun l => { s.par with bad := l, patrol := put arr ((look arr s.par.patrol).getD 0 + 1) s.par.patrol }) (List.append_nil _)
  have hgood : badIn (patrolTurn arr [] (s.pass dt)) (base + n % max 1 rows * 128) 128 = none := by
    rw [badIn, hturn]
    exact hbad
  rw [hn] at hgood
  refine completes_of_onlyIf rfl hok ?_
  rw [patrolRead_good (s := s.pass dt) hspan hgood]
  exact ⟨hturn, (changesOnly_refl _ _ _).withPar _ (by simp)⟩

/-- The arrays of SRAM are told from the TCMs by their addresses. -/
theorem parWhere_span {rows x : Nat} (hspan : arraySpan arr = some (base, rows)) (hlo : base ≤ x) (hhi : x < base + rows * 128) (s : State) :
    (parWhere s x = 1 ↔ arr < 24) ∧ x < 2 ^ 32 ∧ base % 128 = 0 := by
  have hcases : arr < 24 ∧ base = 0x10000000 + arr * 0x40000 ∧ rows = 2048 ∨ ¬ arr < 24 ∧ 0x21000000 ≤ base ∧ base + rows * 128 ≤ 0x210C0000 ∧ base % 0x10000 = 0 := by
    unfold arraySpan at hspan
    split_ifs at hspan with h1 h2 h3 h4 <;> simp only [Option.some.injEq, Prod.mk.injEq] at hspan <;> obtain ⟨rfl, rfl⟩ := hspan
    · exact .inl ⟨h1, rfl, rfl⟩
    · exact .inr ⟨h1, by omega, by omega, by omega⟩
    · exact .inr ⟨h1, by omega, by omega, by omega⟩
    · exact .inr ⟨h1, by omega, by omega, by omega⟩
  rcases hcases with ⟨h24, hb, hr⟩ | ⟨h24, hb, hr, hal⟩
  · refine ⟨iff_of_true ?_ h24, by omega, by omega⟩
    have hrgn : rgnOf s.isC x = .sram ((x - 0x10000000) / 0x40000) := by
      unfold rgnOf
      rw [if_neg (by omega), if_pos (by omega)]
    rw [parWhere, hrgn]
  · refine ⟨iff_of_false ?_ h24, by omega, by omega⟩
    have hrgn : ∃ c, rgnOf s.isC x = .itcm c ∨ rgnOf s.isC x = .dtcm c := by
      unfold rgnOf
      rw [if_neg (by omega), if_neg (by omega)]
      split_ifs
      · exact ⟨_, .inl rfl⟩
      · exact ⟨_, .inr rfl⟩
      · exact ⟨_, .inl rfl⟩
      · exact ⟨_, .inr rfl⟩
      all_goals omega
    obtain ⟨c, h | h⟩ := hrgn <;> rw [parWhere, h] <;> dsimp only <;> split <;> decide

theorem patrol_detects (arr base rows n a dt : Nat) (s : State) (hok : patrolOk arr (s.pass dt) = true) (hspan : arraySpan arr = some (base, rows)) (hn : n = (look arr s.par.patrol).getD 0)
    (hbad : badIn s (base + n % max 1 rows * 128) 128 = none) (ha : a / 128 = (base + n % max 1 rows * 128) / 128) :
    completes (.patrolRead arr [a] dt) s (fun t => t.rd Reg.SYS_PATROLCNT = satAdd 32 (s.rd Reg.SYS_PATROLCNT) 1 ∧ t.rd Reg.SYS_PARLAST_ADDR = a ∧ t.rd Reg.SYS_PARLAST_INFO_VALID = 1 ∧
      t.rd Reg.SYS_PARLAST_INFO_PATROL = 1 ∧ t.rd Reg.SYS_PARLAST_INFO_INIT = 31 ∧ t.rd Reg.SYS_PARLAST_INFO_REFETCHED = 0 ∧
      t.rd (if arr < 24 then Reg.SYS_PARCNT_SRAM else Reg.SYS_PARCNT_TCM) = satAdd (if arr < 24 then Reg.SYS_PARCNT_SRAM else Reg.SYS_PARCNT_TCM).width (s.rd (if arr < 24 then Reg.SYS_PARCNT_SRAM else Reg.SYS_PARCNT_TCM)) 1 ∧
      (156 ∈ t.flight ∨ 156 ∈ s.flight ∨ ∃ e, s.par.ev156 = some e ∧ s.elapsed + dt < e + cycMs 1) ∧ memSame s t) := by
  have hrows : 0 < rows := by
    unfold arraySpan at hspan
    split_ifs at hspan <;> cases hspan <;> omega
  have hmod : n % max 1 rows < rows := by
    rw [Nat.max_eq_right hrows]
    exact Nat.mod_lt _ hrows
  have halign : base % 128 = 0 := (parWhere_span hspan (Nat.le_refl _) (by omega) s).2.2
  have hlo : base + n % max 1 rows * 128 ≤ a := by omega
  have hhi : a < base + n % max 1 rows * 128 + 128 := by omega
  have hnew : s.par.bad.contains a = false := by
    have h := badIn_eq_none.1 hbad (a - (base + n % max 1 rows * 128)) (by omega)
    rwa [show base + n % max 1 rows * 128 + (a - (base + n % max 1 rows * 128)) = a by omega] at h
  have hfound : badIn (patrolTurn arr [a] (s.pass dt)) (base + n % max 1 rows * 128) 128 = some a := by
    refine badIn_upset (s := s) hbad hlo hhi _ ?_
    show s.par.bad ++ [a].filter (fun x => !s.par.bad.contains x) = _
    rw [List.filter_cons, hnew]
    rfl
  rw [hn] at hfound
  refine completes_of_onlyIf rfl hok ?_
  rw [patrolRead_bad (s := s.pass dt) hspan hfound]
  obtain ⟨hwhere, ha32, _⟩ := parWhere_span hspan (x := a) (by omega) (by omega) ((patrolTurn arr [a] (s.pass dt)).inc Reg.SYS_PATROLCNT)
  obtain ⟨haddr, hvalid, hpatrol, hinit, hrefetched⟩ := parDetect_record a 31 true ((patrolTurn arr [a] (s.pass dt)).inc Reg.SYS_PATROLCNT) ha32 (by omega)
  have hcounter : parCounter ((patrolTurn arr [a] (s.pass dt)).inc Reg.SYS_PATROLCNT) a = if arr < 24 then Reg.SYS_PARCNT_SRAM else Reg.SYS_PARCNT_TCM := by
    unfold parCounter
    simp only [hwhere]
  refine ⟨?_, haddr, hvalid, hpatrol, hinit, hrefetched, ?_, ?_, fun x => by rw [parDetect_mem]; rfl⟩
  · rw [parDetect_rd_other _ _ _ _ _ ⟨by decide, by decide⟩ (by decide) (by decide) (by decide), State.rd_inc_same]
    rfl
  · have hcounts := parDetect_counts a 31 true ((patrolTurn arr [a] (s.pass dt)).inc Reg.SYS_PATROLCNT)
    have hold (f : Field) (hf : f = Reg.SYS_PARCNT_SRAM ∨ f = Reg.SYS_PARCNT_TCM) : ((patrolTurn arr [a] (s.pass dt)).inc Reg.SYS_PATROLCNT).rd f = s.rd f := by
      rcases hf with rfl | rfl <;> rw [State.rd_inc, if_neg (by decide)] <;> rfl
    rw [hcounter, hold _ (by split <;> simp)] at hcounts
    exact hcounts
  · exact (parDetect_event a 31 true ((patrolTurn arr [a] (s.pass dt)).inc Reg.SYS_PATROLCNT)).imp_right .inr

/-! ### A row from the store (R438) -/

theorem row_refetched (i k off dt : Nat) (r : Refetch) (l : List Nat) (s : State) (hr : s.flc.refetch[i]? = some r) (hdone : r.done = some true) (hsrc : look r.row s.flc.sources = some (k, off))
    (hl : l = ((pageData s (k / 64) (k % 64)).drop off).take 128) (hlen : l.length = 128) (hwf : memWf s.mem = true) :
    completes (.rowRefetch i dt) s (fun t => (∀ j, j < 128 → (memRd t.mem (r.row * 128 + j)).toNat = l.getD j 0 % 256) ∧ (∀ a, a / 128 ≠ r.row → memRd t.mem a = memRd s.mem a) ∧
      t.rd Reg.SYS_REFETCHCNT = satAdd 32 (s.rd Reg.SYS_REFETCHCNT) 1 ∧ t.rd Reg.SYS_PARLAST_INFO_REFETCHED = 1 ∧ t.flc.refetch = s.flc.refetch.eraseIdx i ∧ (∀ a, a / 128 = r.row → a ∉ t.par.bad) ∧
      changesOnly [Reg.SYS_REFETCHCNT, Reg.SYS_PARLAST_INFO_REFETCHED] [.mem, .par, .flc] (s.pass dt) t) := by
  have hok : (match (s.pass dt).flc.refetch[i]? with | some r => r.done == some true | none => false) = true := by
    rw [show (s.pass dt).flc.refetch[i]? = some r from hr]
    simp [hdone]
  refine completes_of_onlyIf rfl hok ?_
  have heq : rowRefetch i (s.pass dt) = (((arrayWrite (r.row * 128) l true (s.pass dt)).flcW (fun f => { f with refetch := f.refetch.eraseIdx i })).inc Reg.SYS_REFETCHCNT).set1 Reg.SYS_PARLAST_INFO_REFETCHED := by
    unfold rowRefetch
    rw [show (s.pass dt).flc.refetch[i]? = some r from hr]
    dsimp only
    rw [hdone, show look r.row (s.pass dt).flc.sources = some (k, off) from hsrc, hl]
    rfl
  rw [heq]
  have hmem : ((((arrayWrite (r.row * 128) l true (s.pass dt)).flcW (fun f => { f with refetch := f.refetch.eraseIdx i })).inc Reg.SYS_REFETCHCNT).set1 Reg.SYS_PARLAST_INFO_REFETCHED).mem =
      memWrBytes s.mem (r.row * 128) l := rfl
  refine ⟨fun j hj => ?_, fun a ha => ?_, ?_, State.rd_wr_same _ _ _, rfl, fun a ha hbad => ?_, ?_⟩
  · rw [hmem, memRd_memWrBytes_at _ _ _ _ hwf (by omega)]
    exact BitVec.toNat_ofNat _ _
  · rw [hmem, memRd_memWrBytes_other]
    omega
  · rw [State.set1, State.rd_wr_other _ _ (by decide), State.rd_inc_same]
    rfl
  · have hin := (List.mem_filter.1 hbad).2
    simp only [Bool.not_eq_true', Bool.and_eq_false_iff, decide_eq_false_iff_not] at hin
    omega
  · have hwrite : changesOnly [Reg.SYS_REFETCHCNT, Reg.SYS_PARLAST_INFO_REFETCHED] [.mem, .par, .flc] (s.pass dt) (arrayWrite (r.row * 128) l true (s.pass dt)) :=
      (changesOnly_refl _ _ _).pieces [.mem, .par] rfl rfl (arrayWrite_parts _ _ _ _ _ (partsOnly_refl _ _)) (by simp)
    exact ((hwrite.withFlc _ (by simp)).inc (by simp)).set1 (by simp)

end
end Sys2Proof.Machine

open Sys2Proof Sys2Proof.Machine

/-- Settles O47: the patrol's clean row, its detection and the row from the store, each by its own lemma. -/
theorem arrayParity : Obligations.ArrayParity := by
  unfold Obligations.ArrayParity
  exact ⟨patrol_clean, patrol_detects, row_refetched⟩
end

section
/-!
SUPPORT. A read of no bytes in the DRAM controller (R447, R450).
-/
namespace Sys2Proof.Machine

/-- A read that waits for no bytes, within block 0. -/
def emptyRead : DramReq := { src := 0, addr := 0x80000001, len := 0, at_ := 0, late := false }

/-- A part with a DRAM whose one waiting read asks for no bytes. -/
def emptyReadWaits : State := { State.reset with fuses := { Fuses.reset with variantC := true }, drc := { Drc.reset with reqs := [emptyRead] } }

/-- Every byte of an empty read is queued, so it is answered from the write queue and meets no check. -/
theorem dramIssue_emptyReadWaits : (dramIssue 2 (emptyReadWaits.pass 0)).drc.rsps = [DramRsp.mk 0 0x80000001 (some [])] := by decide +kernel

end Sys2Proof.Machine

open Sys2Proof Sys2Proof.Machine

/-- Refutes O48: the clause of a failed check holds of a waiting read of any length, also of one of no bytes, which the write queue answers. -/
theorem not_dramController : ¬ Obligations.DramController := by
  unfold Obligations.DramController
  intro h
  obtain ⟨-, -, hfails, -⟩ := h
  obtain ⟨hrsps, -⟩ := of_completes_onlyIf
    (hfails 0 0 emptyRead emptyReadWaits (by decide +kernel) (by decide) (by decide +kernel) (by decide) (by decide) (by decide) (by decide)) rfl (by decide +kernel)
  exact absurd (dramIssue_emptyReadWaits.symm.trans hrsps) (by decide)
end

section
/-!
SUPPORT. The application queue and the planes (R478, R480, R481, R483 to R485, R497): what the shown queue, a completion, a taken descriptor and a start leave.
-/
namespace Sys2Proof.Machine

section
variable {s t z : State} {fs : List Field} {ps : List Piece} {d : FDesc} {r : FDone}

/-! ### Engines' writes and the queue as it shows -/

/-- A register field that the DRAM controller's slot does not hold. -/
def offDrc (f : Field) : Prop := f.key < 0x400F0000 * 32 ∨ 0x40100000 * 32 ≤ f.key

theorem offDrc.ne {f g : Field} (h : offDrc f) (hlo : 0x400F0000 * 32 ≤ g.key) (hhi : g.key < 0x40100000 * 32) : f.key ≠ g.key := by
  unfold offDrc at h
  omega

theorem wqShow_rd (s : State) (f : Field) (hf : offDrc f) : (wqShow s).rd f = s.rd f := State.rd_wr_other _ _ (hf.ne (by decide) (by decide))

theorem rd_inc_ite {c : Prop} [Decidable c] (s : State) {f g h : Field} (hg : f.key ≠ g.key) (hh : f.key ≠ h.key) : (s.inc (if c then g else h)).rd f = s.rd f := by
  split
  · rw [State.rd_inc, if_neg hg]
  · rw [State.rd_inc, if_neg hh]

theorem pageAccess_rd (b : Nat) (s : State) (f : Field) (hf : offDrc f) : (pageAccess b s).rd f = s.rd f :=
  rd_inc_ite _ (hf.ne (by decide) (by decide)) (hf.ne (by decide) (by decide))

theorem wqWrite_rd (e : WqEntry) (s : State) (f : Field) (hf : offDrc f) : (wqWrite e s).rd f = s.rd f := by
  have hpage := pageAccess_rd e.block { s with mem := e.bytes.foldl (fun m p => memWr m (0x80000000 + e.block * 64 + p.1) (BitVec.ofNat 8 p.2)) s.mem } f hf
  unfold wqWrite
  dsimp only
  rw [wqShow_rd _ _ hf]
  refine Eq.trans ?_ hpage
  generalize pageAccess e.block _ = u
  split
  · rfl
  · split
    · rw [State.rd_inc, if_neg (hf.ne (by decide) (by decide))]
      rfl
    · rfl

theorem wqAdd_rd (ini a : Nat) (l : List Nat) (s : State) (f : Field) (hf : offDrc f) : (wqAdd ini a l s).rd f = s.rd f := wqShow_rd _ _ hf

theorem dramPut_rd (ini a : Nat) (l : List Nat) (s : State) (f : Field) (hf : offDrc f) : (dramPut ini a l s).rd f = s.rd f := by
  refine foldl_same (fun t : State => t.rd f) _ _ _ fun t b => ?_
  dsimp only
  rw [wqAdd_rd _ _ _ _ _ hf]
  split
  · rfl
  · split
    · exact wqWrite_rd _ _ _ hf
    · rfl

/-- An engine's write leaves every register outside the DRAM controller's slot. -/
theorem engineWrite_rd (ini a : Nat) (l : List Nat) (s : State) (f : Field) (hf : offDrc f) : (engineWrite ini a l s).rd f = s.rd f := by
  unfold engineWrite
  split
  · rfl
  · split
    · exact dramPut_rd _ _ _ _ _ hf
    · rfl

theorem engineWrite_array (ini a : Nat) (l : List Nat) (s : State) (hl : l ≠ []) (ha : a < 0x80000000) : engineWrite ini a l s = arrayWrite a l false s := by
  rw [engineWrite, if_neg (by simpa using hl), if_neg (by omega)]

theorem engineWrite_flc (ini a : Nat) (l : List Nat) (s : State) : (engineWrite ini a l s).flc = s.flc :=
  engineWrite_parts ini a l s s (partsOnly_refl [.par, .regs, .drc, .mem] s) rfl .flc (by decide)

theorem changesOnly_qShow (h : changesOnly fs ps z s) (hstall : Reg.FLC_QAPP_STAT_STALL ∈ fs) (hidle : Reg.FLC_QAPP_STAT_IDLE ∈ fs) (hp : Piece.flight ∈ ps) : changesOnly fs ps z (qShow s) :=
  ((changesOnly.ite (fun _ => h.raise _ hp) fun _ => h).wr _ hstall).wr _ hidle

theorem qShow_flc (s : State) : (qShow s).flc = s.flc := qShow_parts s s (partsOnly_refl [.regs, .flight] s) rfl .flc (by decide)
theorem qShow_mem (s : State) : (qShow s).mem = s.mem := qShow_parts s s (partsOnly_refl [.regs, .flight] s) rfl .mem (by decide)
theorem qShow_par (s : State) : (qShow s).par = s.par := qShow_parts s s (partsOnly_refl [.regs, .flight] s) rfl .par (by decide)

theorem qShow_rd (s : State) (f : Field) (hstall : f.key ≠ Reg.FLC_QAPP_STAT_STALL.key) (hidle : f.key ≠ Reg.FLC_QAPP_STAT_IDLE.key) : (qShow s).rd f = s.rd f :=
  (changesOnly_qShow (fs := [Reg.FLC_QAPP_STAT_STALL, Reg.FLC_QAPP_STAT_IDLE]) (ps := [.flight]) (changesOnly_refl _ _ s) (by simp) (by simp) (by simp)).rd f (by simp [hstall, hidle])

theorem qShow_stall (s : State) : (qShow s).rd Reg.FLC_QAPP_STAT_STALL = b2n (qWaits s && !qRoom s) := by
  unfold qShow
  dsimp only
  rw [State.rd_wr_other _ _ (by decide), State.rd_wr_same]
  exact b2n_mod_two _

theorem qShow_flight (s : State) : (qShow s).flight = if qWaits s && !qRoom s && !s.on Reg.FLC_QAPP_STAT_STALL then s.flight ++ [164] else s.flight := by
  unfold qShow
  dsimp only
  rw [State.wr_flight, State.wr_flight]
  split <;> rfl

theorem mem_flight_qShow {e : Nat} (h : e ∈ s.flight) : e ∈ (qShow s).flight := by
  rw [qShow_flight]
  split
  · exact List.mem_append_left _ h
  · exact h

/-! ### Completions (R485) -/

/-- Where the next completion record of the application queue goes. -/
def complSlot (s : State) : Nat := s.rd Reg.FLC_QAPP_CBASE + 16 * (s.rd Reg.FLC_QAPP_HEAD_CDONE % qN s)

/-- The bytes of a completion record. -/
def complRec (d : FDesc) (r : FDone) (s : State) : List Nat :=
  leBytes 2 d.tag ++ [r.status, b2n r.reloc + 2 * b2n r.refresh + 4 * b2n r.susp + 8 * b2n r.blank + 128 * bitOf (s.rd Reg.FLC_QAPP_HEAD_CDONE) (s.rd Reg.FLC_QAPP_SIZE_LOG2N)] ++ leBytes 2 d.idx ++
    [r.maxcorr, r.rset, r.pulses, r.ndone, r.lost, 0] ++ leBytes 4 (min 0xFFFFFFFF ((s.elapsed - r.since) * 10 / 3072))

/-- A completion before the queue shows it. -/
def complPut (d : FDesc) (r : FDone) (s : State) : State :=
  let s2 := (engineWrite 16 (complSlot s) (complRec d r s) (s.flcW (fun f => { f with taken := f.taken.erase d }))).wr Reg.FLC_QAPP_HEAD_CDONE ((s.rd Reg.FLC_QAPP_HEAD_CDONE + 1) % 65536)
  if bitOf d.flags 0 = 1 ∨ r.status ≠ 0 then s2.raise 160 else s2

theorem flcComplete_eq (d : FDesc) (r : FDone) (s : State) : flcComplete d r s = qShow (complPut d r s) := rfl

theorem length_complRec (d : FDesc) (r : FDone) (s : State) : (complRec d r s).length = 16 := by simp [complRec, length_leBytes]

theorem complPut_rd (d : FDesc) (r : FDone) (s : State) (f : Field) (hf : offDrc f) (hne : f.key ≠ Reg.FLC_QAPP_HEAD_CDONE.key) : (complPut d r s).rd f = s.rd f := by
  have hraise (u : State) : (if bitOf d.flags 0 = 1 ∨ r.status ≠ 0 then u.raise 160 else u).rd f = u.rd f := by split <;> rfl
  unfold complPut
  dsimp only
  rw [hraise, State.rd_wr_other _ _ hne, engineWrite_rd _ _ _ _ _ hf]
  rfl

/-- A completion changes of the registers CDONE, STALL and IDLE, and what the DRAM controller shows. -/
theorem flcComplete_rd (d : FDesc) (r : FDone) (s : State) (f : Field) (hf : offDrc f) (hdone : f.key ≠ Reg.FLC_QAPP_HEAD_CDONE.key) (hstall : f.key ≠ Reg.FLC_QAPP_STAT_STALL.key)
    (hidle : f.key ≠ Reg.FLC_QAPP_STAT_IDLE.key) : (flcComplete d r s).rd f = s.rd f := by
  rw [flcComplete_eq, qShow_rd _ _ hstall hidle, complPut_rd _ _ _ _ hf hdone]

theorem flcComplete_cdone (d : FDesc) (r : FDone) (s : State) : (flcComplete d r s).rd Reg.FLC_QAPP_HEAD_CDONE = (s.rd Reg.FLC_QAPP_HEAD_CDONE + 1) % 65536 := by
  have hraise (u : State) : (if bitOf d.flags 0 = 1 ∨ r.status ≠ 0 then u.raise 160 else u).rd Reg.FLC_QAPP_HEAD_CDONE = u.rd Reg.FLC_QAPP_HEAD_CDONE := by split <;> rfl
  rw [flcComplete_eq, qShow_rd _ _ (by decide) (by decide), complPut, hraise, State.rd_wr_same]
  exact Nat.mod_mod _ _

theorem complPut_flc (d : FDesc) (r : FDone) (s : State) : (complPut d r s).flc = { s.flc with taken := s.flc.taken.erase d } := by
  have hraise (u : State) : (if bitOf d.flags 0 = 1 ∨ r.status ≠ 0 then u.raise 160 else u).flc = u.flc := by split <;> rfl
  rw [complPut, hraise, State.wr_flc, engineWrite_flc]
  rfl

theorem flcComplete_flc (d : FDesc) (r : FDone) (s : State) : (flcComplete d r s).flc = { s.flc with taken := s.flc.taken.erase d } := by
  rw [flcComplete_eq, qShow_flc, complPut_flc]

theorem flcDone_flc (d : FDesc) (r : FDone) (s : State) : (flcDone d r s).flc = { s.flc with taken := s.flc.taken.erase d } := by
  unfold flcDone
  split
  · exact flcComplete_flc _ _ _
  · rfl

theorem flcDone_rd (d : FDesc) (r : FDone) (s : State) (f : Field) (hf : offDrc f) (hdone : f.key ≠ Reg.FLC_QAPP_HEAD_CDONE.key) (hstall : f.key ≠ Reg.FLC_QAPP_STAT_STALL.key)
    (hidle : f.key ≠ Reg.FLC_QAPP_STAT_IDLE.key) : (flcDone d r s).rd f = s.rd f := by
  unfold flcDone
  split
  · exact flcComplete_rd _ _ _ _ hf hdone hstall hidle
  · rfl

theorem complRec_ne_nil (d : FDesc) (r : FDone) (s : State) : complRec d r s ≠ [] := by
  rw [Ne, ← List.length_eq_zero_iff, length_complRec]
  decide

/-- A completion record below the DRAM stands in its slot. -/
theorem flcComplete_mem (d : FDesc) (r : FDone) (s : State) (h : complSlot s < 0x80000000) : (flcComplete d r s).mem = memWrBytes s.mem (complSlot s) (complRec d r s) := by
  have hraise (u : State) : (if bitOf d.flags 0 = 1 ∨ r.status ≠ 0 then u.raise 160 else u).mem = u.mem := by split <;> rfl
  rw [flcComplete_eq, qShow_mem, complPut, hraise, State.wr_mem, engineWrite_array _ _ _ _ (complRec_ne_nil _ _ _) h]
  rfl

theorem mem_flight_flcComplete {e : Nat} (d : FDesc) (r : FDone) (h : e ∈ s.flight) : e ∈ (flcComplete d r s).flight := by
  have hwrite : (engineWrite 16 (complSlot s) (complRec d r s) (s.flcW (fun f => { f with taken := f.taken.erase d }))).flight = s.flight :=
    engineWrite_parts _ _ _ _ _ (partsOnly_refl [.par, .regs, .drc, .mem] (s.flcW (fun f => { f with taken := f.taken.erase d }))) rfl .flight (by decide)
  rw [flcComplete_eq]
  refine mem_flight_qShow ?_
  rw [complPut]
  split
  · rw [State.raise_flight, State.wr_flight, hwrite]
    exact List.mem_append_left _ h
  · rwa [State.wr_flight, hwrite]

/-- A status other than OK is told by EV160. -/
theorem flcComplete_event (d : FDesc) (r : FDone) (s : State) (h : r.status ≠ 0) : 160 ∈ (flcComplete d r s).flight := by
  rw [flcComplete_eq]
  refine mem_flight_qShow ?_
  rw [complPut, if_pos (.inr h)]
  exact List.mem_append_right _ (List.mem_singleton_self _)

end
end Sys2Proof.Machine
end

section
/-!
SUPPORT. The rows of the application queue and of the planes' starts (R478, R480, R481, R483 to R485, R497).
-/
namespace Sys2Proof.Machine

section
variable {s t z : State} {d : FDesc} {r : FDone} {dt idx a pl : Nat} {b : List Nat}

/-! ### Bytes of memory as lists -/

theorem memRdBytes_eq_map (m : List Host.Cell) (a n : Nat) : memRdBytes m a n = (List.range n).map (fun i => (memRd m (a + i)).toNat) := by
  induction n generalizing a with
  | zero => rfl
  | succ n ih =>
    rw [memRdBytes, ih, List.range_succ_eq_map, List.map_cons, List.map_map]
    exact congrArg _ (List.map_congr_left fun i _ => by rw [Function.comp_apply, show a + 1 + i = a + (i + 1) by omega])

theorem length_memRdBytes (m : List Host.Cell) (a n : Nat) : (memRdBytes m a n).length = n := by rw [memRdBytes_eq_map, List.length_map, List.length_range]

theorem memRdBytes_lt (m : List Host.Cell) (a n : Nat) : ∀ x ∈ memRdBytes m a n, x < 256 := by
  rw [memRdBytes_eq_map]
  intro x hx
  obtain ⟨i, _, rfl⟩ := List.mem_map.1 hx
  exact (memRd m (a + i)).isLt

/-- Bytes written are the bytes that stand there. -/
theorem memRdBytes_memWrBytes (m : List Host.Cell) (a : Nat) (l : List Nat) (hm : memWf m = true) (hl : ∀ x ∈ l, x < 256) : memRdBytes (memWrBytes m a l) a l.length = l := by
  rw [memRdBytes_eq_map]
  refine List.ext_getElem (by simp) fun i hi hi' => ?_
  rw [List.getElem_map, List.getElem_range, memRd_memWrBytes_at _ _ _ _ hm hi', BitVec.toNat_ofNat, List.getD_eq_getElem _ _ hi']
  exact Nat.mod_eq_of_lt (hl _ (List.getElem_mem hi'))

theorem leBytes_ofLeBytes (l : List Nat) (hl : ∀ x ∈ l, x < 256) : leBytes l.length (ofLeBytes l) = l := by
  induction l with
  | nil => rfl
  | cons x xs ih =>
    have hx := hl x List.mem_cons_self
    rw [ofLeBytes, List.length_cons, leBytes, Nat.mod_eq_of_lt hx, show (x + 256 * ofLeBytes xs) % 256 = x by omega, show (x + 256 * ofLeBytes xs) / 256 = ofLeBytes xs by omega,
      ih fun y hy => hl y (List.mem_cons_of_mem _ hy)]

/-! ### The checks of a descriptor (R479, R483) read nothing of the queue's indices -/

theorem ownOk_wr {f : Field} (hf : f.key < 0x40100000 * 32) (v k ini : Nat) (user write : Bool) (s : State) : ownOk (s.wr f v) k ini user write = ownOk s k ini user write := by
  have hrd (g : Field) (hg : 0x40100000 * 32 ≤ g.key) : (s.wr f v).rd g = s.rd g := State.rd_wr_other _ _ (by omega)
  have hown (lo : Nat) (g : Field) (ha : g.addr = 0x40100900 + 4 * k) : (s.wr f v).rd g = s.rd g := hrd _ (by simp only [Field.key, ha]; omega)
  simp only [ownOk, ownTest, isSecure, State.on, hrd Reg.PROT_CTL_DBGEN (by decide), hrd Reg.PROT_WORLD_APP (by decide), hrd Reg.PROT_WORLD_HOST (by decide), hown 0 (Reg.PROT_OWN_OWNER k) rfl,
    hown 0 (Reg.PROT_OWN_SEC k) rfl, hown 0 (Reg.PROT_OWN_USER k) rfl, hown 0 (Reg.PROT_OWN_RDALL k) rfl]

/-- A verdict in the SRAM or the DRAM is the ownership table's. -/
theorem rgnVerdict_wr {f : Field} (hf : f.key < 0x40100000 * 32) (v ini x : Nat) (user write fetch : Bool) (s : State) (hx : 0x10000000 ≤ x ∧ x < 0x10600000 ∨ 0x70000000 ≤ x) :
    rgnVerdict (s.wr f v) ini user write fetch x = rgnVerdict s ini user write fetch x := by
  have hrgn : (∃ b, rgnOf s.isC x = .sram b) ∨ rgnOf s.isC x = .dram ∨ rgnOf s.isC x = .none := by
    unfold rgnOf
    rcases hx with hx | hx
    · rw [if_neg (by omega), if_pos hx]
      exact .inl ⟨_, rfl⟩
    · rw [if_neg (by omega), if_neg (by omega), if_neg (by omega), if_neg (by omega), if_neg (by omega), if_neg (by omega), if_neg (by omega)]
      split
      · exact .inr (.inl rfl)
      · exact .inr (.inr rfl)
  have hc : (s.wr f v).isC = s.isC := rfl
  have hxo : isXo (s.wr f v) x = isXo s x := rfl
  unfold rgnVerdict
  rw [hc]
  rcases hrgn with ⟨b, h⟩ | h | h
  · rw [h]
    simp only [hxo, ownOk_wr hf]
  · rw [h]
    simp only [ownOk_wr hf]
  · rw [h]

theorem bufOk_wr {f : Field} (hf : f.key < 0x40100000 * 32) (v a n : Nat) (write : Bool) (s : State) : bufOk (s.wr f v) a n write = bufOk s a n write := by
  have hini : (s.wr f v).rd (Reg.PROT_OWN_OWNER 39) = s.rd (Reg.PROT_OWN_OWNER 39) := State.rd_wr_other _ _ (by simp only [Field.key, Reg.PROT_OWN_OWNER] at *; omega)
  have hram : inCustomerRam (s.wr f v) a n = inCustomerRam s a n := rfl
  unfold bufOk
  rw [hini, hram]
  cases hin : inCustomerRam s a n with
  | false => rfl
  | true =>
    have hrange : 0x10200000 ≤ a ∧ a + n ≤ 0x10600000 ∨ 0x80000000 ≤ a := by
      simp only [inCustomerRam, Bool.or_eq_true, Bool.and_eq_true, decide_eq_true_eq] at hin
      omega
    refine congrArg (fun p => true && (List.range (n / 0x40000 + 2)).all p) (funext fun i => ?_)
    exact congrArg (· == Verdict.ok) (rgnVerdict_wr hf v _ (min (a + i * 0x40000) (a + n - 1)) false write true s (by omega))

theorem inXo_wr_head (v part lblk : Nat) (s : State) : inXo (s.wr Reg.FLC_QAPP_HEAD_HEAD v) part lblk = inXo s part lblk := by
  have hrd (n : Nat) (g : Field) (ha : g.addr = 0x400E0200 + 4 * n) : (s.wr Reg.FLC_QAPP_HEAD_HEAD v).rd g = s.rd g :=
    State.rd_wr_other _ _ (by simp only [Field.key, ha, Reg.FLC_QAPP_HEAD_HEAD]; omega)
  simp only [inXo, State.on, hrd _ (Reg.FLC_XO_EN _) rfl, hrd _ (Reg.FLC_XO_PART _) rfl, hrd _ (Reg.FLC_XO_FIRST _) rfl, hrd _ (Reg.FLC_XO_NBLK _) rfl]

theorem descCheck_wr_head (v : Nat) (d : FDesc) (reserved : Bool) (s : State) : descCheck (s.wr Reg.FLC_QAPP_HEAD_HEAD v) d reserved = descCheck s d reserved := by
  have hbuf (a n : Nat) (write : Bool) : bufOk (s.wr Reg.FLC_QAPP_HEAD_HEAD v) a n write = bufOk s a n write := bufOk_wr (by decide) _ _ _ _ _
  have hro : (s.wr Reg.FLC_QAPP_HEAD_HEAD v).on Reg.FLC_STAT_RO = s.on Reg.FLC_STAT_RO := by rw [State.on, State.rd_wr_other _ _ (by decide), State.on]
  have hpart : partOf (s.wr Reg.FLC_QAPP_HEAD_HEAD v) = partOf s := rfl
  have hkind : partKind (s.wr Reg.FLC_QAPP_HEAD_HEAD v) = partKind s := rfl
  have hptr : ptrAfter (s.wr Reg.FLC_QAPP_HEAD_HEAD v) = ptrAfter s := rfl
  have hblk : dBlk (s.wr Reg.FLC_QAPP_HEAD_HEAD v) = dBlk s := rfl
  unfold descCheck
  simp only [hbuf, hro, hpart, hkind, hptr, hblk, inXo_wr_head]

/-! ### A descriptor is taken (R480, R481, R483) -/

/-- What a descriptor's bytes must hold 0. -/
def descReserved (b : List Nat) : Bool := b.getD 7 0 != 0 || leAt b 12 4 != 0 || leAt b 24 8 != 0

/-- The queue's HEAD moves on. -/
def headNext (s : State) : State := s.wr Reg.FLC_QAPP_HEAD_HEAD ((s.rd Reg.FLC_QAPP_HEAD_HEAD + 1) % 65536)

/-- What becomes of a descriptor that has been read. -/
def descRead (b : List Nat) (d : FDesc) (s : State) : State :=
  match descCheck s d (descReserved b) with
  | some st => flcComplete d (FDone.only st s.elapsed) (if st = 8 ∧ inXo s d.part d.lblk then s.inc Reg.FLC_DENYCNT else s)
  | none =>
    if d.op = 5 ∧ (bitOf d.flags 1 = 0 ∨ (s.flc.taken.isEmpty ∧ s.flc.run.isEmpty)) then flcComplete d (FDone.only 0 s.elapsed) s
    else qShow (s.flcW (fun f => { f with taken := f.taken ++ [d] }))

theorem descTake_full (h : qRoom s = false) : descTake s = qShow s := by
  rw [descTake, h]
  rfl

theorem descTake_read (hroom : qRoom s = true) (ha : s.rd Reg.FLC_QAPP_DBASE + 32 * (s.rd Reg.FLC_QAPP_HEAD_HEAD % qN s) = a) (hlo : a < 0x80000000) (hgood : badIn s a 32 = none) :
    descTake s = descRead (memRdBytes s.mem a 32) (descOf (s.rd Reg.FLC_QAPP_HEAD_HEAD) s.elapsed (memRdBytes s.mem a 32)) (headNext s) := by
  have hread : engineRead 16 a 32 s = (some (memRdBytes s.mem a 32), s) := by rw [engineRead, if_neg (by omega), hgood]
  rw [descTake, hroom]
  dsimp only [Bool.not_true]
  rw [if_neg (by decide), ha, hread]
  rfl

theorem descRead_runs (h : descCheck s d (descReserved b) = none) (hop : d.op ≠ 5) : descRead b d s = qShow (s.flcW (fun f => { f with taken := f.taken ++ [d] })) := by
  rw [descRead, h]
  exact if_neg fun h5 => hop h5.1

theorem descRead_refused {st : Nat} (h : descCheck s d (descReserved b) = some st) :
    descRead b d s = flcComplete d (FDone.only st s.elapsed) (if st = 8 ∧ inXo s d.part d.lblk then s.inc Reg.FLC_DENYCNT else s) := by
  rw [descRead, h]

/-- No check refuses with OK. -/
theorem descCheck_ne_zero {reserved : Bool} : descCheck s d reserved ≠ some 0 := by
  unfold descCheck
  dsimp only
  split_ifs <;> simp

theorem queue_stalls (dt : Nat) (s : State) (hup : flcUp s = true) (hwait : qWaits s = true) (hroom : qRoom s = false) :
    completes (.descriptorTake dt) s (fun t => t.rd Reg.FLC_QAPP_STAT_STALL = 1 ∧ t.flight = (if s.on Reg.FLC_QAPP_STAT_STALL then s.flight else s.flight ++ [164]) ∧
      changesOnly [Reg.FLC_QAPP_STAT_STALL, Reg.FLC_QAPP_STAT_IDLE] [.flight] (s.pass dt) t) := by
  have hw : qWaits (s.pass dt) = true := hwait
  have hr : qRoom (s.pass dt) = false := hroom
  refine completes_of_onlyIf rfl (Bool.and_eq_true_iff.2 ⟨hup, hwait⟩) ?_
  rw [descTake_full hr]
  refine ⟨by rw [qShow_stall, hw, hr]; rfl, ?_, changesOnly_qShow (changesOnly_refl _ _ _) (by simp) (by simp) (by simp)⟩
  rw [qShow_flight, hw, hr]
  show (if (!s.on Reg.FLC_QAPP_STAT_STALL) = true then s.flight ++ [164] else s.flight) = _
  cases s.on Reg.FLC_QAPP_STAT_STALL <;> rfl

theorem descriptor_waits (dt a idx : Nat) (b : List Nat) (s : State) (hup : flcUp s = true) (hwait : qWaits s = true) (hroom : qRoom s = true) (hidx : idx = s.rd Reg.FLC_QAPP_HEAD_HEAD)
    (ha : a = s.rd Reg.FLC_QAPP_DBASE + 32 * (idx % qN s)) (hlo : a < 0x80000000) (hgood : badIn s a 32 = none) (hb : b = memRdBytes s.mem a 32) (h7 : b.getD 7 0 = 0) (h12 : leAt b 12 4 = 0) (h24 : leAt b 24 8 = 0)
    (hcheck : descCheck (s.pass dt) (descOf idx (s.elapsed + dt) b) false = none) (hop : b.getD 0 0 ≠ 5) :
    completes (.descriptorTake dt) s (fun t => t.rd Reg.FLC_QAPP_HEAD_HEAD = (idx + 1) % 65536 ∧ t.flc = { s.flc with taken := s.flc.taken ++ [descOf idx (s.elapsed + dt) b] } ∧
      changesOnly [Reg.FLC_QAPP_HEAD_HEAD, Reg.FLC_QAPP_STAT_STALL, Reg.FLC_QAPP_STAT_IDLE] [.flc, .flight] (s.pass dt) t) := by
  subst hidx ha hb
  have htake := descTake_read (s := s.pass dt) hroom rfl hlo hgood
  have hres : descReserved (memRdBytes s.mem (s.rd Reg.FLC_QAPP_DBASE + 32 * (s.rd Reg.FLC_QAPP_HEAD_HEAD % qN s)) 32) = false := by rw [descReserved, h7, h12, h24]; rfl
  have hruns : descCheck (headNext (s.pass dt)) (descOf (s.rd Reg.FLC_QAPP_HEAD_HEAD) (s.elapsed + dt) (memRdBytes s.mem (s.rd Reg.FLC_QAPP_DBASE + 32 * (s.rd Reg.FLC_QAPP_HEAD_HEAD % qN s)) 32))
      (descReserved (memRdBytes s.mem (s.rd Reg.FLC_QAPP_DBASE + 32 * (s.rd Reg.FLC_QAPP_HEAD_HEAD % qN s)) 32)) = none := by
    rw [headNext, descCheck_wr_head, hres]
    exact hcheck
  refine completes_of_onlyIf rfl (Bool.and_eq_true_iff.2 ⟨hup, hwait⟩) ?_
  rw [htake.trans (descRead_runs hruns hop)]
  refine ⟨?_, ?_, ?_⟩
  · rw [qShow_rd _ _ (by decide) (by decide)]
    exact (State.rd_wr_same _ _ _).trans (Nat.mod_mod _ _)
  · rw [qShow_flc]
    rfl
  · exact changesOnly_qShow ((((changesOnly_refl _ _ _).wr _ (by simp)).withFlc _ (by simp))) (by simp) (by simp) (by simp)

/-- The fields of a completion record's two-byte numbers, and its size. -/
theorem complRec_only (st since : Nat) (d : FDesc) (s : State) (h : s.elapsed = since) :
    complRec d (FDone.only st since) s = leBytes 2 d.tag ++ [st, 128 * bitOf (s.rd Reg.FLC_QAPP_HEAD_CDONE) (s.rd Reg.FLC_QAPP_SIZE_LOG2N), d.idx % 256, d.idx / 256 % 256, 0, 0, 0, 0, 0, 0, 0, 0, 0, 0] := by
  simp [complRec, FDone.only, h, b2n, leBytes]

theorem leBytes_leAt (b : List Nat) (hb : ∀ x ∈ b, x < 256) (off n : Nat) (hn : off + n ≤ b.length) : leBytes n (leAt b off n) = (b.drop off).take n := by
  have hlen : ((b.drop off).take n).length = n := by simp; omega
  have h := leBytes_ofLeBytes ((b.drop off).take n) fun x hx => hb x (List.mem_of_mem_drop (List.mem_of_mem_take hx))
  rwa [hlen] at h

theorem descriptor_refused (dt a idx st i c : Nat) (b : List Nat) (s : State) (hup : flcUp s = true) (hwait : qWaits s = true) (hroom : qRoom s = true) (hidx : idx = s.rd Reg.FLC_QAPP_HEAD_HEAD)
    (ha : a = s.rd Reg.FLC_QAPP_DBASE + 32 * (idx % qN s)) (hlo : a < 0x80000000) (hgood : badIn s a 32 = none) (hb : b = memRdBytes s.mem a 32)
    (hcheck : descCheck (s.pass dt) (descOf idx (s.elapsed + dt) b) (b.getD 7 0 != 0 || leAt b 12 4 != 0 || leAt b 24 8 != 0) = some st)
    (hi : i = s.rd Reg.FLC_QAPP_HEAD_CDONE) (hc : c = s.rd Reg.FLC_QAPP_CBASE + 16 * (i % qN s)) (hclo : c < 0x80000000) (hwf : memWf s.mem = true) (hst : st < 256) :
    completes (.descriptorTake dt) s (fun t => t.rd Reg.FLC_QAPP_HEAD_HEAD = (idx + 1) % 65536 ∧ t.rd Reg.FLC_QAPP_HEAD_CDONE = (i + 1) % 65536 ∧ 160 ∈ t.flight ∧
      memRdBytes t.mem c 16 = (b.take 4).drop 2 ++ [st, 128 * bitOf i (s.rd Reg.FLC_QAPP_SIZE_LOG2N), idx % 256, idx / 256 % 256, 0, 0, 0, 0, 0, 0, 0, 0, 0, 0] ∧
      (∀ x, x < c ∨ c + 16 ≤ x → memRd t.mem x = memRd s.mem x)) := by
  have htake : descTake (s.pass dt) = descRead b (descOf idx (s.elapsed + dt) b) (headNext (s.pass dt)) := by
    subst hidx ha hb
    exact descTake_read (s := s.pass dt) hroom rfl hlo hgood
  have hstop : descCheck (headNext (s.pass dt)) (descOf idx (s.elapsed + dt) b) (descReserved b) = some st := by
    rw [headNext, descCheck_wr_head]
    exact hcheck
  have hne : st ≠ 0 := by
    rintro rfl
    exact descCheck_ne_zero hcheck
  refine completes_of_onlyIf rfl (Bool.and_eq_true_iff.2 ⟨hup, hwait⟩) ?_
  rw [htake.trans (descRead_refused hstop)]
  obtain ⟨u, hu, helapsed, hmem, hrd⟩ : ∃ u, (if st = 8 ∧ inXo (headNext (s.pass dt)) (descOf idx (s.elapsed + dt) b).part (descOf idx (s.elapsed + dt) b).lblk then (headNext (s.pass dt)).inc Reg.FLC_DENYCNT
      else headNext (s.pass dt)) = u ∧ u.elapsed = s.elapsed + dt ∧ u.mem = s.mem ∧ ∀ f : Field, f.key ≠ Reg.FLC_DENYCNT.key → u.rd f = (headNext (s.pass dt)).rd f := by
    split
    · exact ⟨_, rfl, rfl, rfl, fun f hf => by rw [State.rd_inc, if_neg hf]⟩
    · exact ⟨_, rfl, rfl, rfl, fun f _ => rfl⟩
  have hkept (f : Field) (hf : f.key ≠ Reg.FLC_DENYCNT.key) (hh : f.key ≠ Reg.FLC_QAPP_HEAD_HEAD.key) : u.rd f = s.rd f := (hrd f hf).trans (State.rd_wr_other _ _ hh)
  have hdone : u.rd Reg.FLC_QAPP_HEAD_CDONE = i := (hkept _ (by decide) (by decide)).trans hi.symm
  have hslot : complSlot u = c := by rw [complSlot, qN, hdone, hkept _ (by decide) (by decide), hkept _ (by decide) (by decide), hc]; rfl
  rw [hu]
  have hrec := complRec_only st (headNext (s.pass dt)).elapsed (descOf idx (s.elapsed + dt) b) u helapsed
  have hbytes : leBytes 2 (descOf idx (s.elapsed + dt) b).tag = (b.take 4).drop 2 := by
    have hlen : b.length = 32 := by rw [hb, length_memRdBytes]
    rw [descOf, leBytes_leAt b (by rw [hb]; exact memRdBytes_lt _ _ _) 2 2 (by omega), List.drop_take]
  have hidx' : (descOf idx (s.elapsed + dt) b).idx = idx := rfl
  rw [hdone, hkept Reg.FLC_QAPP_SIZE_LOG2N (by decide) (by decide), hbytes, hidx'] at hrec
  have hlen := length_complRec (descOf idx (s.elapsed + dt) b) (FDone.only st (headNext (s.pass dt)).elapsed) u
  have hput := flcComplete_mem (descOf idx (s.elapsed + dt) b) (FDone.only st (headNext (s.pass dt)).elapsed) u (by rwa [hslot])
  rw [hslot, hmem] at hput
  refine ⟨?_, ?_, flcComplete_event _ _ _ hne, ?_, fun x hx => ?_⟩
  · rw [flcComplete_rd _ _ _ _ (.inl (by decide)) (by decide) (by decide) (by decide), hrd _ (by decide), hidx]
    exact (State.rd_wr_same _ _ _).trans (Nat.mod_mod _ _)
  · rw [flcComplete_cdone, hdone]
  · have hbits : bitOf i (s.rd Reg.FLC_QAPP_SIZE_LOG2N) < 2 := Nat.mod_lt _ (by decide)
    have hlt : ∀ x ∈ complRec (descOf idx (s.elapsed + dt) b) (FDone.only st (headNext (s.pass dt)).elapsed) u, x < 256 := by
      rw [hrec]
      intro x hx
      rcases List.mem_append.1 hx with h | h
      · exact memRdBytes_lt _ _ _ x (hb ▸ List.mem_of_mem_take (List.mem_of_mem_drop h))
      · simp only [List.mem_cons, List.not_mem_nil, or_false] at h
        omega
    have hread := memRdBytes_memWrBytes s.mem c _ hwf hlt
    rw [hlen] at hread
    rw [hput, hread, hrec]
  · rw [hput, memRd_memWrBytes_other _ _ _ _ (by omega)]

/-! ### A plane starts, suspends and resumes (R478, R484, R497) -/

/-- The next descriptor reads what a plane's erase holds. -/
def ersuspHit (s : State) (pl : Nat) (d : FDesc) : Bool := match eraseOn s pl with | some e => dBlk s e.d == dBlk s d | none => false

theorem flcStart_next (h : descNext s pl = some d) : flcStart pl s =
    if (d.op = 1 ∨ d.op = 4) ∧ ersuspHit s pl d = true then flcDone d (FDone.only 2 s.elapsed) (s.inc Reg.FLC_SUSPHITCNT)
    else qShow (s.flcW (fun f => { f with taken := f.taken.erase d, run := put pl (FRun.mk d s.elapsed 0 none) f.run })) := by
  rw [flcStart, h]
  rfl

theorem startOk_op {op : Nat} (h : startOk op pl s = true) (hd : descNext s pl = some d) : d.op = op := by
  rw [startOk, hd] at h
  simp only [Bool.and_eq_true, beq_iff_eq] at h
  exact h.2.1.1

/-- A start's command is the start of its plane. -/
theorem completes_start {op : Nat} {i : Instr} {P : State → Prop} (hi : (op, i) ∈ [(1, Instr.read pl dt), (2, .prog pl dt), (3, .erase pl dt), (4, .load pl dt)]) (hok : startOk op pl (s.pass dt) = true)
    (hP : P (flcStart pl (s.pass dt))) : completes i s P := by
  simp only [List.mem_cons, Prod.mk.injEq, List.not_mem_nil, or_false] at hi
  rcases hi with ⟨rfl, rfl⟩ | ⟨rfl, rfl⟩ | ⟨rfl, rfl⟩ | ⟨rfl, rfl⟩
  all_goals exact completes_of_onlyIf rfl hok hP

theorem plane_starts (op pl dt : Nat) (i : Instr) (d : FDesc) (s : State) (hi : (op, i) ∈ [(1, Instr.read pl dt), (2, .prog pl dt), (3, .erase pl dt), (4, .load pl dt)]) (hok : startOk op pl (s.pass dt) = true)
    (hd : descNext (s.pass dt) pl = some d) (hfree : 2 ≤ op ∧ op ≤ 3 ∨ ∀ e, eraseOn s pl = some e → dBlk s e.d ≠ dBlk s d) :
    completes i s (fun t => t.flc = { s.flc with taken := s.flc.taken.erase d, run := put pl ⟨d, s.elapsed + dt, 0, none⟩ s.flc.run } ∧
      changesOnly [Reg.FLC_QAPP_STAT_STALL, Reg.FLC_QAPP_STAT_IDLE] [.flc, .flight] (s.pass dt) t) := by
  have hop := startOk_op hok hd
  have hmiss : ¬ ((d.op = 1 ∨ d.op = 4) ∧ ersuspHit (s.pass dt) pl d = true) := by
    rintro ⟨hread, hhit⟩
    have hclear := hfree.resolve_left (by omega)
    have herase : eraseOn (s.pass dt) pl = eraseOn s pl := rfl
    rw [ersuspHit, herase] at hhit
    cases he : eraseOn s pl with
    | none => rw [he] at hhit; cases hhit
    | some e => rw [he] at hhit; exact hclear e he (beq_iff_eq.1 hhit)
  refine completes_start hi hok ?_
  rw [flcStart_next hd, if_neg hmiss]
  refine ⟨?_, changesOnly_qShow ((changesOnly_refl _ _ _).withFlc _ (by simp)) (by simp) (by simp) (by simp)⟩
  rw [qShow_flc]
  rfl

theorem plane_hits (op pl dt : Nat) (i : Instr) (d : FDesc) (e : FRun) (s : State) (hi : (op, i) ∈ [(1, Instr.read pl dt), (4, .load pl dt)]) (hok : startOk op pl (s.pass dt) = true)
    (hd : descNext (s.pass dt) pl = some d) (he : eraseOn s pl = some e) (hblk : dBlk s e.d = dBlk s d) :
    completes i s (fun t => t.rd Reg.FLC_SUSPHITCNT = satAdd 32 (s.rd Reg.FLC_SUSPHITCNT) 1 ∧ t.flc = { s.flc with taken := s.flc.taken.erase d }) := by
  have hop := startOk_op hok hd
  have hreads : op = 1 ∨ op = 4 := by
    simp only [List.mem_cons, Prod.mk.injEq, List.not_mem_nil, or_false] at hi
    exact hi.imp And.left And.left
  have hhit : ersuspHit (s.pass dt) pl d = true := by
    have herase : eraseOn (s.pass dt) pl = some e := he
    rw [ersuspHit, herase]
    exact beq_iff_eq.2 hblk
  refine completes_start (op := op) (by simp only [List.mem_cons, List.not_mem_nil, or_false] at hi ⊢; tauto) hok ?_
  rw [flcStart_next hd, if_pos ⟨by omega, hhit⟩]
  refine ⟨?_, flcDone_flc _ _ _⟩
  rw [flcDone_rd _ _ _ _ (.inl (by decide)) (by decide) (by decide) (by decide), State.rd_inc_same]
  rfl

theorem nop_completes (dt : Nat) (d : FDesc) (s : State) (hup : flcUp s = true) (hd : nopReady s = some d) :
    completes (.flcNop dt) s (fun t => t.rd Reg.FLC_QAPP_HEAD_CDONE = (s.rd Reg.FLC_QAPP_HEAD_CDONE + 1) % 65536 ∧ t.flc = { s.flc with taken := s.flc.taken.erase d }) := by
  have hready : nopReady (s.pass dt) = some d := hd
  refine completes_of_onlyIf (b := flcUp (s.pass dt)) (t := flcComplete d (FDone.only 0 (s.pass dt).elapsed) (s.pass dt)) (u := s.pass dt) ?_ hup ⟨flcComplete_cdone _ _ _, flcComplete_flc _ _ _⟩
  show Host.Outcome.next (match nopReady (s.pass dt) with | some d => _ | none => _) = _
  rw [hready]

theorem erase_suspends (pl dt : Nat) (r : FRun) (s : State) (_ : pl < 2) (hok : eraseSuspendOk pl (s.pass dt) = true) (hr : look pl s.flc.run = some r) (hrise : keysRise s.flc.run = true) :
    completes (.eraseSuspend pl dt) s (fun t => look pl t.flc.run = none ∧ look (pl + 2) t.flc.run = some { r with susps := r.susps + 1, susp := some (s.elapsed + dt) } ∧
      t.rd (if pl = 0 then Reg.FLC_STAT_SUSP0 else Reg.FLC_STAT_SUSP1) = 1 ∧ t.rd Reg.FLC_SUSPCNT = satAdd 32 (s.rd Reg.FLC_SUSPCNT) 1 ∧
      changesOnly [if pl = 0 then Reg.FLC_STAT_SUSP0 else Reg.FLC_STAT_SUSP1, Reg.FLC_SUSPCNT] [.flc] (s.pass dt) t) := by
  have heq : eraseSuspend pl (s.pass dt) =
      (((s.pass dt).flcW (fun f => { f with run := put (pl + 2) { r with susps := r.susps + 1, susp := some (s.elapsed + dt) } (del pl f.run) })).inc Reg.FLC_SUSPCNT).set1 (suspBit pl) := by
    rw [eraseSuspend, show look pl (s.pass dt).flc.run = some r from hr]
    rfl
  refine completes_of_onlyIf rfl hok ?_
  rw [heq]
  refine ⟨(look_put_other (by omega) _ _).trans (look_del_same pl _ hrise), look_put_same _ _ _, ?_, ?_, (((changesOnly_refl _ _ _).withFlc _ (by simp)).inc (by simp)).set1 (by simp [suspBit])⟩
  · refine (State.rd_wr_same _ _ _).trans ?_
    unfold suspBit
    split <;> rfl
  · have hne : Reg.FLC_SUSPCNT.key ≠ (suspBit pl).key := by
      unfold suspBit
      split <;> decide
    rw [State.set1, State.rd_wr_other _ _ hne, State.rd_inc_same]
    rfl

theorem erase_resumes (pl dt : Nat) (r : FRun) (s : State) (_ : pl < 2) (hok : eraseResumeOk pl (s.pass dt) = true) (hr : look (pl + 2) s.flc.run = some r) (hrise : keysRise s.flc.run = true) :
    completes (.eraseResume pl dt) s (fun t => look (pl + 2) t.flc.run = none ∧ look pl t.flc.run = some { r with susp := none } ∧
      t.rd (if pl = 0 then Reg.FLC_STAT_SUSP0 else Reg.FLC_STAT_SUSP1) = 0 ∧ changesOnly [if pl = 0 then Reg.FLC_STAT_SUSP0 else Reg.FLC_STAT_SUSP1] [.flc] (s.pass dt) t) := by
  have heq : eraseResume pl (s.pass dt) = ((s.pass dt).flcW (fun f => { f with run := put pl { r with susp := none } (del (pl + 2) f.run) })).clr (suspBit pl) := by
    rw [eraseResume, show look (pl + 2) (s.pass dt).flc.run = some r from hr]
  refine completes_of_onlyIf rfl hok ?_
  rw [heq]
  refine ⟨(look_put_other (by omega) _ _).trans (look_del_same (pl + 2) _ hrise), look_put_same _ _ _, ?_, ((changesOnly_refl _ _ _).withFlc _ (by simp)).clr (by simp [suspBit])⟩
  exact (State.rd_wr_same _ _ _).trans (Nat.zero_mod _)

end
end Sys2Proof.Machine

open Sys2Proof Sys2Proof.Machine

/-- Settles O49: the queue's rows and the planes' starts, each by its own lemma. -/
theorem flashQueue : Obligations.FlashQueue := by
  unfold Obligations.FlashQueue
  exact ⟨queue_stalls, descriptor_waits, descriptor_refused, plane_starts, plane_hits, nop_completes, erase_suspends, erase_resumes⟩
end

section
/-!
SUPPORT. Stop, the wake timer and Glety's votes (R643 to R645, R685, R778): what a vote keeps, a run of writes of one value, and each row of the Stop.
-/
namespace Sys2Proof.Machine

section
variable {s t z : State} {n dt : Nat}

/-! ### What a vote keeps -/

/-- The power controller but for its handshakes, its late votes and the domains that rise. -/
def pwrRest (p : Pwr) : Pwr := { p with hs := [], later := [], rise := [] }

theorem pwrRest_domRise1 (n : Nat) (thaw : Bool) (s : State) : pwrRest (domRise1 n thaw s).pwr = pwrRest s.pwr := by
  unfold domRise1
  split <;> rfl

theorem pwrRest_domRise (n : Nat) (thaw : Bool) (s : State) : pwrRest (domRise n thaw s).pwr = pwrRest s.pwr := by
  unfold domRise
  rw [pwrRest_domRise1]
  split
  · rfl
  · exact pwrRest_domRise1 _ _ _

theorem pwrRest_entryAbandon (n : Nat) (s : State) : pwrRest (entryAbandon n s).pwr = pwrRest s.pwr := by
  have hlog (d q r : Nat) (u : State) : (pwrLog d q r u).pwr = u.pwr := pwrLog_parts d q r u u (partsOnly_refl [.regs, .flight] u) rfl .pwr (by decide)
  unfold entryAbandon
  split
  · rfl
  · rw [State.set1_pwr, hlog]
    rfl

/-- A change of a vote leaves everything else of the power controller. -/
theorem pwrRest_voteChanged (n : Nat) (s : State) : pwrRest (voteChanged n s).pwr = pwrRest s.pwr := by
  unfold voteChanged
  dsimp only
  split
  · rfl
  · split
    · split
      · exact pwrRest_entryAbandon _ _
      · rfl
    · split
      · rfl
      · split
        · rfl
        · split
          · exact pwrRest_domRise _ _ _
          · rfl

theorem pwrRest_gVote (n v : Nat) (s : State) : pwrRest (gVote n v s).pwr = pwrRest s.pwr := by
  unfold gVote
  split
  · rfl
  · exact pwrRest_voteChanged _ _

theorem pwrRest_votesOn (n : Nat) (s : State) : pwrRest (votesOn n s).pwr = pwrRest s.pwr := pwrRest_voteChanged _ _

/-- A vote leaves what every domain has been asked for. -/
theorem voteChanged_rd_req (m n : Nat) (hn : n < 64) (s : State) :
    (voteChanged m s).rd (Reg.PWR_DOM_GREQ n) = s.rd (Reg.PWR_DOM_GREQ n) ∧ (voteChanged m s).rd (Reg.PWR_DOM_CREQ n) = s.rd (Reg.PWR_DOM_CREQ n) := by
  refine ⟨?_, ?_⟩
  · exact voteChanged_rd m s _ (by simp only [Reg.PWR_DOM_GREQ]; omega) (by simp [Reg.PWR_DOM_GREQ]) (by simp only [Field.key, Reg.PWR_DOM_GREQ, Reg.PWR_DOM_STATE]; omega)
      (by simp only [Field.key, Reg.PWR_DOM_GREQ, Reg.PWR_DOM_STATE]; omega) (by simp only [Field.key, Reg.PWR_DOM_GREQ, Reg.PWR_DOM_TARGET]; omega)
      (by simp only [Field.key, Reg.PWR_DOM_GREQ, Reg.PWR_DOM_HELD]; omega) (by simp only [Field.key, Reg.PWR_DOM_GREQ, Reg.PWR_STAT_REFUSED]; omega)
  · exact voteChanged_rd m s _ (by simp only [Reg.PWR_DOM_CREQ]; omega) (by simp [Reg.PWR_DOM_CREQ]) (by simp only [Field.key, Reg.PWR_DOM_CREQ, Reg.PWR_DOM_STATE]; omega)
      (by simp only [Field.key, Reg.PWR_DOM_CREQ, Reg.PWR_DOM_STATE]; omega) (by simp only [Field.key, Reg.PWR_DOM_CREQ, Reg.PWR_DOM_TARGET]; omega)
      (by simp only [Field.key, Reg.PWR_DOM_CREQ, Reg.PWR_DOM_HELD]; omega) (by simp only [Field.key, Reg.PWR_DOM_CREQ, Reg.PWR_STAT_REFUSED]; omega)

theorem gVote_greq (m v n : Nat) (hn : n < 64) (hv : v < 4) (s : State) : (gVote m v s).rd (Reg.PWR_DOM_GREQ n) = if n = m then v else s.rd (Reg.PWR_DOM_GREQ n) := by
  unfold gVote
  split
  · next h =>
    split
    · next hnm => rw [hnm, h]
    · rfl
  · rw [(voteChanged_rd_req m n hn _).1, State.rd_wr]
    have hkey : (Reg.PWR_DOM_GREQ n).key = (Reg.PWR_DOM_GREQ m).key ↔ n = m := by simp only [Field.key, Reg.PWR_DOM_GREQ]; omega
    simp only [hkey]
    exact if_congr Iff.rfl (Nat.mod_eq_of_lt hv) rfl

/-- Glety's votes in turn: each domain that is named once is left at its vote. -/
theorem foldl_gVote_greq (l : List (Nat × Nat)) (hl : ∀ v ∈ l, v.1 < 64 ∧ v.2 < 4) (hnd : (l.map Prod.fst).Nodup) (s : State) :
    (∀ v ∈ l, (l.foldl (fun t v => gVote v.1 v.2 t) s).rd (Reg.PWR_DOM_GREQ v.1) = v.2) ∧
      ∀ n, n < 64 → n ∉ l.map Prod.fst → (l.foldl (fun t v => gVote v.1 v.2 t) s).rd (Reg.PWR_DOM_GREQ n) = s.rd (Reg.PWR_DOM_GREQ n) := by
  induction l generalizing s with
  | nil => exact ⟨fun _ h => absurd h List.not_mem_nil, fun _ _ _ => rfl⟩
  | cons v l ih =>
    obtain ⟨hv1, hv2⟩ := hl v List.mem_cons_self
    rw [List.map_cons, List.nodup_cons] at hnd
    obtain ⟨hin, hout⟩ := ih (fun w hw => hl w (List.mem_cons_of_mem _ hw)) hnd.2 (gVote v.1 v.2 s)
    refine ⟨fun w hw => ?_, fun n hn hni => ?_⟩
    · rcases List.mem_cons.1 hw with rfl | hw
      · exact (hout _ hv1 hnd.1).trans ((gVote_greq _ _ _ hv1 hv2 _).trans (if_pos rfl))
      · exact hin w hw
    · rw [List.map_cons, List.mem_cons, not_or] at hni
      exact (hout n hn hni.2).trans ((gVote_greq _ _ _ hn hv2 _).trans (if_neg hni.1))

theorem pwrRest_foldl_gVote (l : List (Nat × Nat)) (s : State) : pwrRest (l.foldl (fun t v => gVote v.1 v.2 t) s).pwr = pwrRest s.pwr :=
  foldl_same (fun t : State => pwrRest t.pwr) _ _ _ fun _ _ => pwrRest_gVote _ _ _

theorem wurVote_lt (s : State) : wurVote s < 4 := by unfold wurVote; split <;> decide
theorem ioVote_lt (s : State) : ioVote s < 4 := by unfold ioVote; split <;> decide

theorem awakeVotes_ok (s : State) : (∀ v ∈ awakeVotes s, v.1 < 64 ∧ v.2 < 4) ∧ ((awakeVotes s).map Prod.fst).Nodup := by
  have hwur := wurVote_lt s
  have hio := ioVote_lt s
  have hrfe : (if stAct s (stNow s) 11 then 2 else if stAct s (stNow s) 10 then 1 else 0) < 4 := by split_ifs <;> decide
  refine ⟨?_, by simp [awakeVotes]⟩
  simp only [awakeVotes, List.forall_mem_cons, List.not_mem_nil, false_implies, implies_true, and_true]
  omega

theorem asleepVotes_ok (s : State) : (∀ v ∈ asleepVotes s, v.1 < 64 ∧ v.2 < 4) ∧ ((asleepVotes s).map Prod.fst).Nodup := by
  have hwur := wurVote_lt s
  have hio := ioVote_lt s
  have hmem : (if s.isC then 1 else 2) < 4 := by split <;> decide
  refine ⟨?_, by simp [asleepVotes]⟩
  simp only [asleepVotes, List.forall_mem_cons, List.not_mem_nil, false_implies, implies_true, and_true]
  omega

theorem glety_wakes (dt : Nat) (s : State) (hok : gletyAwakeOk (s.pass dt) = true) :
    completes (.gletyAwake dt) s (fun t => t.pwr.awake = true ∧ ∀ v ∈ awakeVotes s, t.rd (Reg.PWR_DOM_GREQ v.1) = v.2) := by
  obtain ⟨hl, hnd⟩ := awakeVotes_ok (s.pass dt)
  have hvotes : awakeVotes s = awakeVotes (s.pass dt) := rfl
  refine completes_of_onlyIf rfl hok ?_
  rw [hvotes, gletyAwake]
  generalize awakeVotes (s.pass dt) = l at hl hnd ⊢
  exact ⟨congrArg Pwr.awake (pwrRest_foldl_gVote l _), (foldl_gVote_greq l hl hnd _).1⟩

theorem glety_sleeps (dt : Nat) (s : State) (hok : gletyAsleepOk (s.pass dt) = true) :
    completes (.gletyAsleep dt) s (fun t => t.pwr.awake = false ∧ ∀ v ∈ asleepVotes (radioOff (s.pass dt)), t.rd (Reg.PWR_DOM_GREQ v.1) = v.2) := by
  obtain ⟨hl, hnd⟩ := asleepVotes_ok (radioOff (s.pass dt))
  refine completes_of_onlyIf rfl hok ?_
  unfold gletySleep
  dsimp only
  generalize asleepVotes (radioOff (s.pass dt)) = l at hl hnd ⊢
  exact ⟨congrArg Pwr.awake (pwrRest_foldl_gVote l _), (foldl_gVote_greq l hl hnd _).1⟩

/-! ### A Stop is asked for, entered and left (R643, R644) -/

theorem stopAsk_none (byPfail : Bool) (h : s.pwr.stop = .none) : stopAsk byPfail s =
    (pwrMod (fun p => { p with hs := [1, 3, 4, 5, 6, 7, 8, 9, 10, 11, 12, 13, 14].map (fun n => Hs.mk n 1 s.elapsed none none false), stop := .handshake, byPfail := byPfail, wake := false, pfailAt := s.elapsed }) s).wr
      Reg.PWR_STAT_MODE 1 :=
  if_neg (not_not.2 h)

theorem stop_asked (i : Instr) (dt : Nat) (s : State) (hi : i = .pfailLow dt ∨ i = .pfailRetry dt ∧ pfailRetryOk (s.pass dt) = true) (hen : s.on Reg.PWR_CTL_PFAILEN = true) (hleaf : leafMode s = false)
    (hstop : s.pwr.stop = .none) :
    completes i s (fun t => t.pwr.stop = .handshake ∧ t.pwr.byPfail = true ∧ t.rd Reg.PWR_STAT_MODE = 1 ∧ (t.pwr.hs.map (fun h => (h.dom, h.target, h.acked))) = [1, 3, 4, 5, 6, 7, 8, 9, 10, 11, 12, 13, 14].map (fun n => (n, 1, false)) ∧
      changesOnly [Reg.PWR_STAT_MODE] [.pwr] (s.pass dt) t) := by
  have hasks (u : State) (hu : u.pwr.stop = .none) (hz : changesOnly [Reg.PWR_STAT_MODE] [.pwr] (s.pass dt) u) : (stopAsk true u).pwr.stop = .handshake ∧ (stopAsk true u).pwr.byPfail = true ∧
      (stopAsk true u).rd Reg.PWR_STAT_MODE = 1 ∧ ((stopAsk true u).pwr.hs.map (fun h => (h.dom, h.target, h.acked))) = [1, 3, 4, 5, 6, 7, 8, 9, 10, 11, 12, 13, 14].map (fun n => (n, 1, false)) ∧
      changesOnly [Reg.PWR_STAT_MODE] [.pwr] (s.pass dt) (stopAsk true u) := by
    rw [stopAsk_none true hu]
    exact ⟨rfl, rfl, State.rd_wr_same _ _ _, rfl, (changesOnly_pwrMod hz _ (by simp)).wr _ (by simp)⟩
  rcases hi with rfl | ⟨rfl, hok⟩
  · have hlow : pfailLow (s.pass dt) = stopAsk true (pwrMod (fun p => { p with pfailLow := true }) (s.pass dt)) := if_pos ⟨hen, by rw [Bool.not_eq_true]; exact hleaf⟩
    refine ⟨_, rfl, ?_⟩
    rw [hlow]
    exact hasks _ hstop (changesOnly_pwrMod (changesOnly_refl _ _ _) _ (by simp))
  · exact completes_of_onlyIf rfl hok (hasks _ hstop (changesOnly_refl _ _ _))

theorem pfail_unheeded (dt : Nat) (s : State) (h : s.on Reg.PWR_CTL_PFAILEN = false ∨ leafMode s = true) :
    completes (.pfailLow dt) s (fun t => t.pwr = { s.pwr with pfailLow := true } ∧ changesOnly [] [.pwr] (s.pass dt) t) := by
  have hlow : pfailLow (s.pass dt) = pwrMod (fun p => { p with pfailLow := true }) (s.pass dt) := by
    refine if_neg ?_
    rintro ⟨hen, hleaf⟩
    rcases h with h | h
    · exact absurd (show s.on Reg.PWR_CTL_PFAILEN = true from hen) (by rw [h]; decide)
    · exact hleaf h
  refine ⟨_, rfl, ?_⟩
  rw [hlow]
  exact ⟨rfl, changesOnly_pwrMod (changesOnly_refl _ _ _) _ (by simp)⟩

/-- One value written to the fields that a list names. -/
theorem rd_foldl_wr {α : Type} (F : α → Field) (v w : Nat) (hw : ∀ a, (F a).width = w) (l : List α) (s : State) (f : Field) :
    (l.foldl (fun t a => t.wr (F a) v) s).rd f = if ∃ a ∈ l, f.key = (F a).key then v % 2 ^ w else s.rd f := by
  induction l generalizing s with
  | nil => simp
  | cons a l ih =>
    rw [List.foldl_cons, ih, State.rd_wr, hw]
    simp only [List.exists_mem_cons_iff]
    by_cases hl : ∃ x ∈ l, f.key = (F x).key
    · rw [if_pos hl, if_pos (.inr hl)]
    · rw [if_neg hl]
      exact if_congr (by simp only [hl, or_false]) rfl rfl

theorem foldl_wr_firn {α : Type} (F : α → Field) (v : Nat) (l : List α) (s : State) : (l.foldl (fun t a => t.wr (F a) v) s).firn = s.firn := foldl_same State.firn _ _ _ fun _ _ => rfl
theorem foldl_wr_mem {α : Type} (F : α → Field) (v : Nat) (l : List α) (s : State) : (l.foldl (fun t a => t.wr (F a) v) s).mem = s.mem := foldl_same State.mem _ _ _ fun _ _ => rfl

theorem domState_key (m n : Nat) : (Reg.PWR_DOM_STATE m).key = (Reg.PWR_DOM_STATE n).key ↔ m = n := by simp only [Field.key, Reg.PWR_DOM_STATE]; omega

/-- A projection that both branches give alike. -/
theorem proj_ite {α β : Type} {c : Prop} [Decidable c] (g : α → β) {a b : α} {x : β} (ha : g a = x) (hb : g b = x) : g (if c then a else b) = x := by
  split
  · exact ha
  · exact hb

theorem coastEnter_coasting (s : State) : (coastEnter s).firn.coasting = true := by
  cases h : s.firn.coasting with
  | true => rw [coastEnter_firn_of_coasting h]; exact h
  | false => rw [coastEnter_firn_of_fine h]

theorem timeParentChoose_coasting (s : State) : (timeParentChoose s).firn.coasting = s.firn.coasting := by
  unfold timeParentChoose
  split
  · rfl
  · dsimp only
    rw [State.wr_firn, State.wr_firn]
    exact proj_ite (fun u : State => u.firn.coasting) rfl rfl

theorem unlink_coasting (p : Nat) (s : State) : (unlink p s).firn.coasting = s.firn.coasting := by
  have hup (u : State) : (upLost p u).firn = u.firn := upLost_parts p u u (partsOnly_refl [.msh, .regs, .evAt, .flight] u) rfl .firn (by decide)
  have hdown (u : State) : (mshLinkDown (.wired p) .wired [2 + p] u).firn = u.firn := mshLinkDown_parts _ _ _ u u (partsOnly_refl [.msh, .regs, .evAt, .flight] u) rfl .firn (by decide)
  have hmod (f : Wpt → Wpt) (u : State) : (wptMod p f u).firn = u.firn := rfl
  unfold unlink
  refine proj_ite (fun u : State => u.firn.coasting) rfl ?_
  dsimp only
  rw [timeParentChoose_coasting]
  refine congrArg (a₂ := s.firn) Firn.coasting (proj_ite State.firn ?_ ?_)
  · rw [hup, hmod]
    exact proj_ite State.firn rfl rfl
  · rw [hdown, hmod]
    exact proj_ite State.firn rfl rfl

theorem portDown_coasting (p : Nat) (s : State) : (portDown p s).firn.coasting = s.firn.coasting := by
  unfold portDown
  split
  · show (linkDown p s).firn.coasting = _
    unfold linkDown
    dsimp only
    rw [timeParentChoose_coasting]
    exact unlink_coasting p s
  · rfl

/-- The state of a Stop before it is marked: FIRN in coast and both ports down. -/
def stopQuiet (s : State) : State := portDown 1 (portDown 0 (coastEnter (cycRebase s)))

theorem stopQuiet_parts (s : State) : partsOnly [.cores, .sig, .mboxes, .heldNotices, .msh, .firn, .regs, .wpt, .evAt, .flight] s (stopQuiet s) :=
  portDown_parts _ _ _ (portDown_parts _ _ _ (coastEnter_parts _ _ (cycRebase_parts _ _ (partsOnly_refl _ s))))

theorem stopEnter_eq (s : State) : stopEnter s = pwrChanged (pwrMod (fun p => { p with hs := [], stop := .stopped, floats := true }) (s.pwr.hs.foldl (fun t h => t.wr (Reg.PWR_DOM_STATE h.dom) 1) (stopQuiet s))) := by
  have hpwr : (stopQuiet s).pwr = s.pwr := stopQuiet_parts s .pwr (by decide)
  rw [← hpwr]
  rfl

theorem stop_entered (dt : Nat) (s : State) (hok : stopEnterOk (s.pass dt) = true) (_ : ∀ h ∈ s.pwr.hs, 1 ≤ h.dom ∧ h.dom ≤ 14) :
    completes (.stopEnter dt) s (fun t => (∀ h ∈ s.pwr.hs, t.rd (Reg.PWR_DOM_STATE h.dom) = 1) ∧ t.pwr.stop = .stopped ∧ t.pwr.hs = [] ∧ t.firn.coasting = true ∧ t.rd Reg.PWR_STAT_CHANGED = 1 ∧ 103 ∈ t.flight ∧ memSame s t) := by
  have hmem : (stopQuiet (s.pass dt)).mem = s.mem := stopQuiet_parts (s.pass dt) .mem (by decide)
  have hcoast : (stopQuiet (s.pass dt)).firn.coasting = true := by rw [stopQuiet, portDown_coasting, portDown_coasting, coastEnter_coasting]
  refine completes_of_onlyIf rfl hok ?_
  rw [stopEnter_eq]
  show (∀ h ∈ s.pwr.hs, _) ∧ _
  generalize stopQuiet (s.pass dt) = q at hmem hcoast ⊢
  refine ⟨fun h hh => ?_, rfl, rfl, ?_, State.rd_wr_same _ _ _, List.mem_append_right _ (List.mem_singleton_self _), fun a => ?_⟩
  · rw [pwrChanged, State.rd_raise, State.set1, State.rd_wr_other _ _ (by simp only [Field.key, Reg.PWR_DOM_STATE, Reg.PWR_STAT_CHANGED]; omega)]
    exact (rd_foldl_wr (fun h : Hs => Reg.PWR_DOM_STATE h.dom) 1 2 (fun _ => rfl) s.pwr.hs q _).trans (if_pos ⟨h, hh, rfl⟩)
  · exact (congrArg Firn.coasting (foldl_wr_firn (fun h : Hs => Reg.PWR_DOM_STATE h.dom) 1 s.pwr.hs q)).trans hcoast
  · exact congrArg (memRd · a) ((foldl_wr_mem (fun h : Hs => Reg.PWR_DOM_STATE h.dom) 1 s.pwr.hs q).trans hmem)

/-- The domains that a Stop's end thaws: all but PD_WUR. -/
def thawDoms : List Nat := [1, 3, 4, 5, 6, 7, 8, 9, 10, 11, 12, 13, 14]

theorem stopExit_doms (s : State) : (List.range 14).foldl (fun t i => if i + 1 = 2 then t else t.wr (Reg.PWR_DOM_STATE (i + 1)) 0) s = thawDoms.foldl (fun t n => t.wr (Reg.PWR_DOM_STATE n) 0) s := rfl

theorem stop_left (rise : Bool) (dt : Nat) (s : State) (hok : stopExitOk rise (s.pass dt) = true) :
    completes (.stopExit rise dt) s (fun t => (∀ n, 1 ≤ n → n ≤ 14 → n ≠ 2 → t.rd (Reg.PWR_DOM_STATE n) = 0) ∧ t.rd (Reg.PWR_DOM_STATE 2) = s.rd (Reg.PWR_DOM_STATE 2) ∧ t.rd Reg.PWR_STAT_MODE = 0 ∧ t.pwr.stop = .coastExit ∧
      t.firn.exitPhase = (if s.firn.tcxoLost = none then 1 else s.firn.exitPhase) ∧ memSame s t) := by
  have hres := cycResume_parts (s.pass dt) (s.pass dt) (partsOnly_refl [.cores, .sig] (s.pass dt)) rfl
  have hregs : (cycResume (s.pass dt)).regs = s.regs := hres .regs (by decide)
  have hfirn : (cycResume (s.pass dt)).firn = (s.pass dt).firn := hres .firn (by decide)
  have hmem : (cycResume (s.pass dt)).mem = s.mem := hres .mem (by decide)
  refine completes_of_onlyIf rfl hok ?_
  unfold stopExit
  rw [stopExit_doms]
  generalize cycResume (s.pass dt) = q at hregs hfirn hmem ⊢
  have hstate (n : Nat) : (thawDoms.foldl (fun t n => t.wr (Reg.PWR_DOM_STATE n) 0) q).rd (Reg.PWR_DOM_STATE n) = if n ∈ thawDoms then 0 else s.rd (Reg.PWR_DOM_STATE n) := by
    refine (rd_foldl_wr Reg.PWR_DOM_STATE 0 2 (fun _ => rfl) thawDoms q _).trans (if_congr ?_ rfl (rd_of_regs hregs _))
    simp only [domState_key, exists_eq_right']
  have hqfirn := foldl_wr_firn Reg.PWR_DOM_STATE 0 thawDoms q
  have hqmem := foldl_wr_mem Reg.PWR_DOM_STATE 0 thawDoms q
  generalize thawDoms.foldl (fun t n => t.wr (Reg.PWR_DOM_STATE n) 0) q = u at hstate hqfirn hqmem ⊢
  dsimp only
  obtain ⟨v, hv, hvregs, hvmem, hphase⟩ : ∃ v, (if u.firn.tcxoLost.isNone then { u with firn := { u.firn with exitPhase := 1 } } else u) = v ∧ v.regs = u.regs ∧ v.mem = u.mem ∧
      v.firn.exitPhase = if u.firn.tcxoLost = none then 1 else u.firn.exitPhase := by
    cases hlost : u.firn.tcxoLost with
    | none => exact ⟨_, rfl, rfl, rfl, rfl⟩
    | some x => exact ⟨_, rfl, rfl, rfl, rfl⟩
  rw [hv]
  have hrd (n : Nat) : (v.wr Reg.PWR_STAT_MODE 0).rd (Reg.PWR_DOM_STATE n) = if n ∈ thawDoms then 0 else s.rd (Reg.PWR_DOM_STATE n) := by
    rw [State.rd_wr_other _ _ (by simp only [Field.key, Reg.PWR_DOM_STATE, Reg.PWR_STAT_MODE]; omega), rd_of_regs hvregs, hstate]
  refine ⟨fun n h1 h14 h2 => (hrd n).trans (if_pos ?_), (hrd 2).trans (if_neg (by decide)), State.rd_wr_same _ _ _, rfl, ?_, fun a => congrArg (memRd · a) (hvmem.trans (hqmem.trans hmem))⟩
  · simp only [thawDoms, List.mem_cons, List.not_mem_nil, or_false]
    omega
  · obtain ⟨loc, slew, hpass⟩ := s.firn.pass_eq s.elapsed dt
    have hfirn' : (s.pass dt).firn = { s.firn with loc := loc, slewLeft := slew } := hpass
    rw [hqfirn, hfirn, hfirn'] at hphase
    exact hphase

/-- What one step of a fold establishes and the others keep holds at its end. -/
theorem foldl_reaches {α β : Type} (P : β → Prop) (f : β → α → β) (l : List α) (b : β) {a : α} (ha : a ∈ l) (hto : ∀ b, P (f b a)) (hkeep : ∀ b c, P b → P (f b c)) : P (l.foldl f b) := by
  induction l generalizing b with
  | nil => cases ha
  | cons c l ih =>
    rcases List.mem_cons.1 ha with rfl | ha
    · exact foldl_keeps P f l _ (fun b c => hkeep b c) (hto b)
    · exact ih _ ha

/-- Both votes of a domain say On. -/
def votedOn (n : Nat) (s : State) : Prop := s.rd (Reg.PWR_DOM_CREQ n) = 0 ∧ s.rd (Reg.PWR_DOM_GREQ n) = 0

theorem votedOn_votesOn (m n : Nat) (hn : n < 64) (s : State) (h : m = n ∨ votedOn n s) : votedOn n (votesOn m s) := by
  obtain ⟨hg, hc⟩ := voteChanged_rd_req m n hn ((s.wr (Reg.PWR_DOM_CREQ m) 0).wr (Reg.PWR_DOM_GREQ m) 0)
  have hcg : ((s.wr (Reg.PWR_DOM_CREQ m) 0).wr (Reg.PWR_DOM_GREQ m) 0).rd (Reg.PWR_DOM_CREQ n) = if n = m then 0 else s.rd (Reg.PWR_DOM_CREQ n) := by
    rw [State.rd_wr_other _ _ (by simp only [Field.key, Reg.PWR_DOM_CREQ, Reg.PWR_DOM_GREQ]; omega), State.rd_wr]
    exact if_congr (by simp only [Field.key, Reg.PWR_DOM_CREQ]; omega) rfl rfl
  have hgg : ((s.wr (Reg.PWR_DOM_CREQ m) 0).wr (Reg.PWR_DOM_GREQ m) 0).rd (Reg.PWR_DOM_GREQ n) = if n = m then 0 else s.rd (Reg.PWR_DOM_GREQ n) := by
    rw [State.rd_wr]
    exact if_congr (by simp only [Field.key, Reg.PWR_DOM_GREQ]; omega) rfl (State.rd_wr_other _ _ (by simp only [Field.key, Reg.PWR_DOM_CREQ, Reg.PWR_DOM_GREQ]; omega))
  unfold votedOn votesOn
  rw [hg, hc, hcg, hgg]
  rcases h with rfl | ⟨h1, h2⟩
  · exact ⟨if_pos rfl, if_pos rfl⟩
  · rw [h1, h2]
    exact ⟨ite_self _, ite_self _⟩

theorem pwrRest_ite_votesOn (l : List Nat) (p : Nat → Prop) [DecidablePred p] (s : State) : pwrRest (l.foldl (fun t i => if p i then votesOn (i + 1) t else t) s).pwr = pwrRest s.pwr := by
  refine foldl_same (fun t : State => pwrRest t.pwr) _ _ _ fun t i => ?_
  exact proj_ite (fun t : State => pwrRest t.pwr) (pwrRest_votesOn _ _) rfl

/-- The wake timer has run out, and no vote has been written yet. -/
def wakeTaken (s : State) : State := (pwrMod (fun p => { p with waketAt := none }) s).set1 Reg.PWR_STAT_WAKEF

theorem votesOn_wakef (n : Nat) (s : State) : (votesOn n s).rd Reg.PWR_STAT_WAKEF = s.rd Reg.PWR_STAT_WAKEF := by
  rw [votesOn, voteChanged_rd _ _ _ (by decide) (by decide) (by decide) (by simp only [Field.key, Reg.PWR_STAT_WAKEF, Reg.PWR_DOM_STATE]; omega)
    (by simp only [Field.key, Reg.PWR_STAT_WAKEF, Reg.PWR_DOM_TARGET]; omega) (by simp only [Field.key, Reg.PWR_STAT_WAKEF, Reg.PWR_DOM_HELD]; omega) (by decide),
    State.rd_wr_other _ _ (by simp only [Field.key, Reg.PWR_STAT_WAKEF, Reg.PWR_DOM_GREQ]; omega), State.rd_wr_other _ _ (by simp only [Field.key, Reg.PWR_STAT_WAKEF, Reg.PWR_DOM_CREQ]; omega)]

theorem wake_timer_expires (dt : Nat) (s : State) (hok : wakeTimerExpiryOk (s.pass dt) = true) :
    completes (.wakeTimerExpiry dt) s (fun t => t.rd Reg.PWR_STAT_WAKEF = 1 ∧ t.pwr.waketAt = none ∧ t.rd Reg.PWR_STAT_CHANGED = 1 ∧ 103 ∈ t.flight ∧ (s.on Reg.PWR_WAKEMASK_EXITSTOP = true → t.pwr.wake = true) ∧
      ∀ i, i < 14 → bitOf (s.rd Reg.PWR_WAKEMASK_DOMS) i = 1 → t.rd (Reg.PWR_DOM_CREQ (i + 1)) = 0 ∧ t.rd (Reg.PWR_DOM_GREQ (i + 1)) = 0) := by
  refine completes_of_onlyIf rfl hok ?_
  have hrest := pwrRest_ite_votesOn (List.range 14) (fun i => bitOf (s.rd Reg.PWR_WAKEMASK_DOMS) i = 1) (wakeTaken (s.pass dt))
  have hflag : (List.foldl (fun t i => if bitOf (s.rd Reg.PWR_WAKEMASK_DOMS) i = 1 then votesOn (i + 1) t else t) (wakeTaken (s.pass dt)) (List.range 14)).rd Reg.PWR_STAT_WAKEF = 1 :=
    foldl_keeps (fun t : State => t.rd Reg.PWR_STAT_WAKEF = 1) _ _ _ (fun t i h => proj_ite (fun t : State => t.rd Reg.PWR_STAT_WAKEF) ((votesOn_wakef _ _).trans h) h) (State.rd_wr_same _ _ _)
  have hvotes (i : Nat) (hi : i < 14) (hb : bitOf (s.rd Reg.PWR_WAKEMASK_DOMS) i = 1) :
      votedOn (i + 1) ((List.range 14).foldl (fun t i => if bitOf (s.rd Reg.PWR_WAKEMASK_DOMS) i = 1 then votesOn (i + 1) t else t) (wakeTaken (s.pass dt))) := by
    refine foldl_reaches (votedOn (i + 1)) _ _ _ (List.mem_range.2 hi) (fun t => ?_) fun t j h => ?_
    · rw [if_pos hb]
      exact votedOn_votesOn _ _ (by omega) _ (.inl rfl)
    · split
      · exact votedOn_votesOn _ _ (by omega) _ (.inr h)
      · exact h
  have heq : wakeTimerExpiry (s.pass dt) = pwrChanged (if s.on Reg.PWR_WAKEMASK_EXITSTOP then pwrMod (fun p => { p with wake := true })
      ((List.range 14).foldl (fun t i => if bitOf (s.rd Reg.PWR_WAKEMASK_DOMS) i = 1 then votesOn (i + 1) t else t) (wakeTaken (s.pass dt)))
      else (List.range 14).foldl (fun t i => if bitOf (s.rd Reg.PWR_WAKEMASK_DOMS) i = 1 then votesOn (i + 1) t else t) (wakeTaken (s.pass dt))) := rfl
  rw [heq]
  generalize (List.range 14).foldl (fun t i => if bitOf (s.rd Reg.PWR_WAKEMASK_DOMS) i = 1 then votesOn (i + 1) t else t) (wakeTaken (s.pass dt)) = u at hrest hflag hvotes ⊢
  have hwaket : u.pwr.waketAt = none := congrArg Pwr.waketAt hrest
  have hrd (f : Field) (hf : f.key ≠ Reg.PWR_STAT_CHANGED.key) :
      (pwrChanged (if s.on Reg.PWR_WAKEMASK_EXITSTOP then pwrMod (fun p => { p with wake := true }) u else u)).rd f = u.rd f := by
    rw [pwrChanged, State.rd_raise, State.set1, State.rd_wr_other _ _ hf]
    exact proj_ite (fun t : State => t.rd f) rfl rfl
  refine ⟨(hrd _ (by decide)).trans hflag, proj_ite (fun t : State => (pwrChanged t).pwr.waketAt) hwaket hwaket, State.rd_wr_same _ _ _, List.mem_append_right _ (List.mem_singleton_self _),
    fun h => by rw [if_pos h]; rfl, fun i hi hb => ?_⟩
  obtain ⟨hc, hg⟩ := hvotes i hi hb
  exact ⟨(hrd _ (by simp only [Field.key, Reg.PWR_DOM_CREQ, Reg.PWR_STAT_CHANGED]; omega)).trans hc, (hrd _ (by simp only [Field.key, Reg.PWR_DOM_GREQ, Reg.PWR_STAT_CHANGED]; omega)).trans hg⟩

theorem stop_coast_ends (dt : Nat) (s : State) (hstop : s.pwr.stop = .coastExit) (hfine : s.firn.coasting = false) :
    completes (.stopCoastExit dt) s (fun t => t.pwr = { s.pwr with stop := .none } ∧ t.rd Reg.PWR_CTL_STOPREQ = 0 ∧ t.rd Reg.PWR_STAT_CHANGED = 1 ∧ t.flight = s.flight ++ [103] ∧
      changesOnly [Reg.PWR_CTL_STOPREQ, Reg.PWR_STAT_CHANGED] [.pwr, .flight] (s.pass dt) t) := by
  have hok : stopCoastExitOk (s.pass dt) = true := by
    have hc : (s.pass dt).firn.coasting = false := by
      show (s.firn.pass s.elapsed dt).coasting = false
      rw [Firn.pass_coasting, hfine]
    have hp : (s.pass dt).pwr.stop = .coastExit := hstop
    rw [stopCoastExitOk, hc, hp]
    rfl
  refine completes_of_onlyIf rfl hok ⟨rfl, ?_, State.rd_wr_same _ _ _, rfl, (((changesOnly_pwrMod (changesOnly_refl _ _ _) _ (by simp)).clr (by simp)).set1 (by simp)).raise _ (by simp)⟩
  rw [stopCoastExit, pwrChanged, State.rd_raise, State.set1, State.rd_wr_other _ _ (by decide)]
  exact (State.rd_wr_same _ _ _).trans (Nat.zero_mod _)

theorem fab_stops (dt : Nat) (s : State) : completes (.fabClockStop dt) s (fun t => t.pwr = { s.pwr with fabDead := true, floats := true } ∧ changesOnly [] [.pwr] (s.pass dt) t) :=
  ⟨_, rfl, rfl, changesOnly_pwrMod (changesOnly_refl _ _ _) _ (by simp)⟩

end
end Sys2Proof.Machine

open Sys2Proof Sys2Proof.Machine

/-- Settles O55: each row of the Stop and of the votes by its own lemma. -/
theorem stopAndVotes : Obligations.StopAndVotes := by
  unfold Obligations.StopAndVotes
  exact ⟨stop_asked, pfail_unheeded, stop_entered, stop_left, stop_coast_ends, wake_timer_expires, glety_wakes, glety_sleeps, fun _ => rfl, fab_stops⟩
end

section
/-!
SUPPORT. Power domains (R630 to R640, R652, R653): what an entry, a loss and a return leave, the answers of a handshake, thaw stalls and a domain that is ready.
-/
namespace Sys2Proof.Machine

section
variable {fs : List Field} {s t z : State} {n dt : Nat}

/-! ### Ports down and coast leave the power controller's registers and every event on its way -/

theorem linkOnly_enqueue (h : LinkOnly fs z s) (p : Nat) (hop : Hop) (cls src len : Nat) (data : List Nat) (deadline : Option Nat) : LinkOnly fs z (enqueue p hop cls src len data deadline s) := by
  unfold enqueue
  exact linkOnly_ite (linkOnly_inc h (.inr (by decide))) (linkOnly_ite (linkOnly_raiseLim (linkOnly_inc h (.inr (by decide))) _ _) (linkOnly_mshShow (linkOnly_egressMod h _ _)))

theorem mshKey_le_wpt (f : Field) (h : 0x400C0000 ≤ f.addr) : mshKey ≤ f.key := by
  simp only [mshKey, Field.key]
  omega

theorem linkOnly_wptMod (h : LinkOnly fs z s) (p : Nat) (f : Wpt → Wpt) : LinkOnly fs z (wptMod p f s) := linkOnly_same h rfl rfl

/-- A write of a register of the wired ports. -/
theorem linkOnly_wpt (h : LinkOnly fs z s) {f : Field} (v : Nat) (hf : 0x400C0000 ≤ f.addr) : LinkOnly fs z (s.wr f v) := linkOnly_wr h v (.inr (mshKey_le_wpt f hf))

theorem linkOnly_upLost (h : LinkOnly fs z s) (p : Nat) : LinkOnly fs z (upLost p s) := by
  have hset (u : Option Nat) : LinkOnly fs z (upSet u s) := by
    unfold upSet upShow
    refine linkOnly_wpt (f := Reg.WPT_PSTAT_UPSTREAM 1) (linkOnly_wpt (f := Reg.WPT_PSTAT_UPSTREAM 0) ?_ _ (by decide)) _ (by decide)
    exact linkOnly_same h rfl rfl
  unfold upLost
  refine linkOnly_mshShow (linkOnly_foldl _ _ (fun u f hu => ?_) (linkOnly_egressMod (hset _) _ _))
  dsimp only
  split <;> exact linkOnly_enqueue hu _ _ _ _ _ _ _

theorem linkOnly_timeParentChoose (h : LinkOnly fs z s) : LinkOnly fs z (timeParentChoose s) := by
  unfold timeParentChoose
  refine linkOnly_ite h ?_
  dsimp only
  refine linkOnly_wpt (f := Reg.WPT_PSTAT_TPARENT 1) (linkOnly_wpt (f := Reg.WPT_PSTAT_TPARENT 0) (linkOnly_ite h ?_) _ (by decide)) _ (by decide)
  exact linkOnly_same h rfl rfl

theorem linkOnly_unlink (h : LinkOnly fs z s) (p : Nat) : LinkOnly fs z (unlink p s) := by
  have hpeer : LinkOnly fs z ((s.clr (Reg.WPT_PSTAT_LINKED p)).wr (Reg.WPT_PSTAT_PEER p) 0xFFFF) :=
    linkOnly_wpt (linkOnly_wpt h _ (by simp only [Reg.WPT_PSTAT_LINKED]; omega)) _ (by simp only [Reg.WPT_PSTAT_PEER]; omega)
  unfold unlink
  refine linkOnly_ite h (linkOnly_timeParentChoose ?_)
  have hmod := linkOnly_wptMod (linkOnly_ite (c := (wport s p).tx.isSome) (linkOnly_wpt hpeer (f := Reg.WPT_PTXABTCNT p) (satAdd 32 (((s.clr (Reg.WPT_PSTAT_LINKED p)).wr (Reg.WPT_PSTAT_PEER p) 0xFFFF).rd (Reg.WPT_PTXABTCNT p)) 1) (by simp only [Reg.WPT_PTXABTCNT]; omega)) hpeer) p
    (fun w => { w with tx := none, txq := [], pd := none, wrx := none, lead := 0, peer := 0xFFFF })
  exact linkOnly_ite (linkOnly_upLost hmod _) (linkOnly_mshLinkDown hmod _ _ _)

theorem linkOnly_linkDown (h : LinkOnly fs z s) (p : Nat) : LinkOnly fs z (linkDown p s) := by
  unfold linkDown
  refine linkOnly_timeParentChoose (linkOnly_raise (linkOnly_wptMod ?_ _ _) _)
  refine linkOnly_wpt (linkOnly_wpt (linkOnly_wpt (linkOnly_wpt (linkOnly_wpt (linkOnly_wpt (linkOnly_unlink h p) _ ?_) _ ?_) _ ?_) _ ?_) _ ?_) _ ?_
  all_goals simp only [Reg.WPT_PSTAT_LINK, Reg.WPT_PSTAT_AMP, Reg.WPT_PSTAT_DVALID, Reg.WPT_PDELAY, Reg.WPT_PMSE_MSE, Reg.WPT_PLINKDNCNT]; omega

theorem linkOnly_portDown (h : LinkOnly fs z s) (p : Nat) : LinkOnly fs z (portDown p s) := by
  unfold portDown
  exact linkOnly_ite (linkOnly_wptMod (linkOnly_linkDown h p) _ _) (linkOnly_wptMod (linkOnly_wpt h _ (by simp only [Reg.WPT_PSTAT_AMP]; omega)) _ _)

/-- The fields that FIRN's entry into coast writes. -/
def coastFields : List Field := [Reg.FIRN_STAT_STATE, Reg.FIRN_STAT_COASTED]

theorem linkOnly_coastEnter (h : LinkOnly coastFields z s) : LinkOnly coastFields z (coastEnter s) := by
  unfold coastEnter
  refine linkOnly_ite (linkOnly_same h rfl rfl) (linkOnly_firnStage ?_ _ (by simp [coastFields]))
  exact linkOnly_same (linkOnly_wr h (f := Reg.FIRN_STAT_COASTED) 1 (.inl (by simp [coastFields]))) rfl rfl

/-! ### What a domain loses -/

/-- A register of the power controller. -/
def ofPwr (f : Field) : Prop := 0x40000000 ≤ f.addr ∧ f.addr < 0x40010000 ∧ f.lo < 32

theorem key_addr {f : Field} (h : f.lo < 32) : f.key / 32 = f.addr := by
  simp only [Field.key]
  omega

/-- No domain's Off loses the power controller's registers. -/
theorem keyDomain_of_ofPwr {f : Field} (h : ofPwr f) (isC : Bool) : keyDomain isC f.key = 0 := by
  obtain ⟨h1, h2, h3⟩ := h
  have hrgn : rgnOf isC f.addr = .slot 0 := by
    simp only [rgnOf, show ¬ f.addr < 0x40000 by omega, show ¬ f.addr < 0x10600000 by omega, show ¬ f.addr < 0x21040000 by omega, show ¬ f.addr < 0x210C0000 by omega,
      show ¬ f.addr < 0x21148000 by omega, show ¬ f.addr < 0x30180000 by omega, show 0x40000000 ≤ f.addr ∧ f.addr < 0x40180000 by omega, show (f.addr - 0x40000000) / 0x10000 = 0 by omega]
    simp
  unfold keyDomain
  dsimp only
  rw [key_addr h3, if_neg (by omega), if_neg (by omega), hrgn]
  rfl

theorem regsLost_rd (hn : 1 ≤ n) (s : State) {f : Field} (hf : ofPwr f) : (regsLost n s).rd f = s.rd f := by
  rw [State.rd_of_regs_filter (fun k => keyDomain s.isC k != n) rfl, keyDomain_of_ofPwr hf, if_pos]
  simpa using (by omega : 0 ≠ n)

theorem cmpDisarmAll_rd (s : State) {f : Field} (hf : ofPwr f) : (cmpDisarmAll s).rd f = s.rd f := by
  have hstep (t : State) (n : Nat) : (((t.clr (Reg.FIRN_CMP_STAT_ARMED n)).clr (Reg.FIRN_CMP_STAT_INFLIGHT n)).clr (Reg.FIRN_CMP_CTL_ARM n)).rd f = t.rd f := by
    obtain ⟨h1, h2, h3⟩ := hf
    simp only [State.clr]
    rw [State.rd_wr_other _ _ (by simp only [Field.key, Reg.FIRN_CMP_CTL_ARM]; omega), State.rd_wr_other _ _ (by simp only [Field.key, Reg.FIRN_CMP_STAT_INFLIGHT]; omega),
      State.rd_wr_other _ _ (by simp only [Field.key, Reg.FIRN_CMP_STAT_ARMED]; omega)]
  have hfold := foldl_same (fun t : State => t.rd f) _ (List.range 32) s hstep
  unfold cmpDisarmAll
  dsimp only
  rw [State.rd_withFirn]
  exact hfold

theorem foldl_coreReset_regs (l : List Nat) (s : State) : (l.foldl (fun t i => coreReset (5 + i) t) s).regs = s.regs := foldl_same State.regs _ _ _ fun _ _ => rfl
theorem foldl_coreReset_pwr (l : List Nat) (s : State) : (l.foldl (fun t i => coreReset (5 + i) t) s).pwr = s.pwr := foldl_same State.pwr _ _ _ fun _ _ => rfl
theorem foldl_fceil_pwr (v : Nat → Nat) (l : List Nat) (s : State) : (l.foldl (fun t i => t.wr (Reg.AGE_ISL_FCEIL i) (v i)) s).pwr = s.pwr := foldl_same State.pwr _ _ _ fun _ _ => rfl

/-- A domain's Off leaves the power controller's registers. -/
theorem domLose_rd (hn : 1 ≤ n) (s : State) {f : Field} (hf : ofPwr f) : (domLose n s).rd f = s.rd f := by
  have hlost := regsLost_rd hn s hf
  unfold domLose
  dsimp only
  generalize regsLost n s = u at hlost ⊢
  rw [← hlost]
  split
  · have hall := cmpDisarmAll_rd u hf
    generalize cmpDisarmAll u = v at hall ⊢
    exact hall
  · rfl
  · exact (rd_of_regs (foldl_coreReset_regs _ _) f).trans rfl
  · obtain ⟨h1, h2, h3⟩ := hf
    have hstep (t : State) (i : Nat) : (t.wr (Reg.AGE_ISL_FCEIL i) (u.age.ceil.getD i 0 / 1000)).rd f = t.rd f :=
      State.rd_wr_other _ _ (by simp only [Field.key, Reg.AGE_ISL_FCEIL]; omega)
    refine (foldl_same (fun t : State => t.rd f) _ (List.range 8) _ hstep).trans ?_
    exact State.rd_wr_other _ _ (by simp only [Field.key, Reg.AGE_STAT_NEXT]; omega)
  · rfl
  · rfl
  · rfl
  · rfl
  · split <;> rfl

theorem domLose_flight (n : Nat) (s : State) : (domLose n s).flight = s.flight :=
  domLose_parts n s s (partsOnly_refl [.cores, .evt, .com, .cph, .spx, .msh, .lmp, .mboxes, .flc, .firn, .runner, .regs, .tmrs, .wpt, .pwr, .mem, .sig] s) rfl .flight (by decide)

/-- A domain's Off changes of the power controller only that PD_IO's outputs float. -/
theorem domLose_pwr (n : Nat) (s : State) : (domLose n s).pwr = if n = 14 then { s.pwr with floats := true } else s.pwr := by
  unfold domLose
  dsimp only
  split
  · have hall : (cmpDisarmAll (regsLost 1 s)).pwr = s.pwr := cmpDisarmAll_parts _ _ (partsOnly_refl [.firn, .regs] (regsLost 1 s)) rfl .pwr (by decide)
    generalize cmpDisarmAll (regsLost 1 s) = v at hall ⊢
    exact hall
  · rfl
  · rw [foldl_coreReset_pwr]
    rfl
  · rw [foldl_fceil_pwr]
    rfl
  · rfl
  · rfl
  · rfl
  · rfl
  · next h => rw [if_neg h]; split <;> rfl

/-- Bytes of a range that is dropped read the default. -/
theorem memRd_cleared (m : List Host.Cell) {lo hi a : Nat} (h1 : lo ≤ a) (h2 : a ≤ hi) : memRd (m.filter (fun c => !(decide (lo ≤ c.1) && decide (c.1 ≤ hi)))) a = memRd [] a := by
  induction m with
  | nil => rfl
  | cons c m ih =>
    rw [List.filter_cons]
    split
    · next hkeep =>
      obtain ⟨k, v⟩ := c
      have hne : k ≠ a := by
        rintro rfl
        simp [h1, h2] at hkeep
      exact (if_neg hne).trans ih
    · exact ih

/-! ### A domain enters Retention or Off (R630, R633) -/

/-- Each FIRN, port and power field by its place. -/
theorem ofPwr_state (n : Nat) (hn : n ≤ 14) : ofPwr (Reg.PWR_DOM_STATE n) := by simp only [ofPwr, Reg.PWR_DOM_STATE]; omega
theorem ofPwr_held (n : Nat) (hn : n ≤ 14) : ofPwr (Reg.PWR_DOM_HELD n) := by simp only [ofPwr, Reg.PWR_DOM_HELD]; omega
theorem ofPwr_changed : ofPwr Reg.PWR_STAT_CHANGED := by simp only [ofPwr, Reg.PWR_STAT_CHANGED]; omega

theorem lt_mshKey_of_ofPwr {f : Field} (h : ofPwr f) : f.key < mshKey := by
  obtain ⟨h1, h2, h3⟩ := h
  simp only [mshKey, Field.key]
  omega

/-- What every entry of a domain leaves: its new state, no mark, the change with its event, and the handshakes. -/
structure Entered (n target : Nat) (z t : State) : Prop where
  state : t.rd (Reg.PWR_DOM_STATE n) = target
  held : t.rd (Reg.PWR_DOM_HELD n) = 0
  changed : t.rd Reg.PWR_STAT_CHANGED = 1
  event : 103 ∈ t.flight
  hs : t.pwr.hs = z.pwr.hs
  later : t.pwr.later = z.pwr.later

/-- What follows an entry and leaves the power controller's registers, its handshakes and the events. -/
theorem Entered.after {target : Nat} {u : State} (h : Entered n target z t) (hn : n ≤ 14) (hrd : ∀ f, ofPwr f → u.rd f = t.rd f) (hfl : t.flight ⊆ u.flight) (hhs : u.pwr.hs = t.pwr.hs) (hlater : u.pwr.later = t.pwr.later) :
    Entered n target z u :=
  ⟨(hrd _ (ofPwr_state n hn)).trans h.state, (hrd _ (ofPwr_held n hn)).trans h.held, (hrd _ ofPwr_changed).trans h.changed, hfl h.event, hhs.trans h.hs, hlater.trans h.later⟩

theorem Entered.of_linkOnly {target : Nat} {u : State} (h : Entered n target z t) (hn : n ≤ 14) (hl : LinkOnly coastFields t u) (hpwr : u.pwr = t.pwr) : Entered n target z u := by
  refine h.after hn (fun f hf => hl.rd f (lt_mshKey_of_ofPwr hf) fun g hg => ?_) hl.flight (congrArg Pwr.hs hpwr) (congrArg Pwr.later hpwr)
  obtain ⟨h1, h2, h3⟩ := hf
  simp only [coastFields, List.mem_cons, List.not_mem_nil, or_false] at hg
  rcases hg with rfl | rfl <;> simp only [Field.key, Reg.FIRN_STAT_STATE, Reg.FIRN_STAT_COASTED] <;> omega

/-- The entry of a domain is marked; nothing is lost yet. -/
def domMarked (n target : Nat) (s : State) : State := pwrChanged (((cycRebase s).wr (Reg.PWR_DOM_STATE n) target).clr (Reg.PWR_DOM_HELD n))

theorem domMarked_parts (n target : Nat) (s : State) : partsOnly [.cores, .sig, .regs, .flight] s (domMarked n target s) := by
  have h := cycRebase_parts s s (partsOnly_refl [.cores, .sig, .regs, .flight] s) rfl
  exact State.raise_parts _ _ _ (wr_parts _ _ _ (wr_parts _ _ _ (wr_parts _ _ _ h rfl) rfl) rfl) rfl

theorem entered_domMarked (target : Nat) (ht : target < 4) (s : State) : Entered n target s (domMarked n target s) := by
  have hkey : (Reg.PWR_DOM_STATE n).key ≠ Reg.PWR_STAT_CHANGED.key := by simp only [Field.key, Reg.PWR_DOM_STATE, Reg.PWR_STAT_CHANGED]; omega
  have hkey' : (Reg.PWR_DOM_HELD n).key ≠ Reg.PWR_STAT_CHANGED.key := by simp only [Field.key, Reg.PWR_DOM_HELD, Reg.PWR_STAT_CHANGED]; omega
  have hpwr : (domMarked n target s).pwr = s.pwr := domMarked_parts n target s .pwr (by decide)
  refine ⟨?_, ?_, State.rd_wr_same _ _ _, List.mem_append_right _ (List.mem_singleton_self _), congrArg Pwr.hs hpwr, congrArg Pwr.later hpwr⟩
  · rw [domMarked, pwrChanged, State.rd_raise, State.set1, State.rd_wr_other _ _ hkey, State.clr, State.rd_wr_other _ _ (by simp only [Field.key, Reg.PWR_DOM_STATE, Reg.PWR_DOM_HELD]; omega), State.rd_wr_same]
    exact Nat.mod_eq_of_lt ht
  · rw [domMarked, pwrChanged, State.rd_raise, State.set1, State.rd_wr_other _ _ hkey', State.clr, State.rd_wr_same]
    rfl

/-- The channels selected in the domain are kept for its return. -/
def subsKept (n : Nat) (s : State) : State := pwrMod (fun p => { p with subs := put n (domSubs n s) p.subs }) s

theorem domEnter_off (n : Nat) (s : State) : domEnter n 2 s = domLose n (domMarked n 2 (subsKept n s)) := rfl

theorem entered_off (h1 : 1 ≤ n) (hn : n ≤ 14) (s : State) : Entered n 2 s (domEnter n 2 s) := by
  have hm := entered_domMarked (n := n) 2 (by decide) (subsKept n s)
  have hmark : Entered n 2 s (domMarked n 2 (subsKept n s)) := ⟨hm.state, hm.held, hm.changed, hm.event, hm.hs, hm.later⟩
  rw [domEnter_off]
  generalize domMarked n 2 (subsKept n s) = u at hmark ⊢
  have hpwr := domLose_pwr n u
  refine hmark.after hn (fun f hf => domLose_rd h1 u hf) (by rw [domLose_flight]; exact fun _ h => h) ?_ ?_
  · rw [hpwr]
    exact proj_ite Pwr.hs rfl rfl
  · rw [hpwr]
    exact proj_ite Pwr.later rfl rfl

/-- What a domain loses beside its registers, where a row of R630 names it. -/
theorem lost_off (s : State) :
    (n = 14 → (domEnter n 2 s).tmrs = List.replicate 8 Tmr.reset ∧ (domEnter n 2 s).spx = [Spx.reset, Spx.reset] ∧ (domEnter n 2 s).lmp = Lmp.reset) ∧
      (n = 4 → ∀ a, 0x30000000 ≤ a → a < 0x30180000 → memRd (domEnter n 2 s).mem a = memRd [] a) ∧
      (n = 12 → (domEnter n 2 s).flc = { s.flc with ptrs := ptrSearch s.flc.pages, taken := [], run := [], refetch := [] }) := by
  refine ⟨?_, ?_, ?_⟩
  · rintro rfl
    exact ⟨rfl, rfl, rfl⟩
  · rintro rfl a h1 h2
    exact memRd_cleared _ h1 (by omega)
  · rintro rfl
    rfl

/-- What Retention brings with it in some domains. -/
def retained (n : Nat) (s : State) : State :=
  match n with
  | 1 => coastEnter s
  | 13 => portDown 1 (portDown 0 s)
  | 14 => { s with pwr := { s.pwr with floats := true } }
  | _ => s

theorem domEnter_retention (n : Nat) (s : State) : domEnter n 1 s = retained n (domMarked n 1 s) := rfl

theorem entered_retention (hn : n ≤ 14) (s : State) : Entered n 1 s (domEnter n 1 s) := by
  have hmark := entered_domMarked (n := n) 1 (by decide) s
  rw [domEnter_retention]
  generalize domMarked n 1 s = u at hmark ⊢
  unfold retained
  split
  · exact hmark.of_linkOnly hn (linkOnly_coastEnter (linkOnly_refl _ _)) (coastEnter_parts u u (partsOnly_refl [.mboxes, .firn, .regs, .heldNotices, .flight] u) rfl .pwr (by decide))
  · refine hmark.of_linkOnly hn (linkOnly_portDown (linkOnly_portDown (linkOnly_refl _ _) 0) 1) ?_
    exact portDown_parts 1 _ u (portDown_parts 0 u u (partsOnly_refl [.msh, .firn, .regs, .wpt, .evAt, .flight] u) rfl) rfl .pwr (by decide)
  · exact hmark.after hn (fun _ _ => rfl) (fun _ h => h) rfl rfl
  · exact hmark

/-- Retention keeps the memory and the blocks' state. -/
theorem kept_retention (h1 : n ≠ 1) (h13 : n ≠ 13) (s : State) :
    (domEnter n 1 s).mem = s.mem ∧ (domEnter n 1 s).tmrs = s.tmrs ∧ (domEnter n 1 s).spx = s.spx ∧ (domEnter n 1 s).flc = s.flc ∧ (domEnter n 1 s).mboxes = s.mboxes := by
  have hp : partsOnly [.cores, .sig, .regs, .flight, .pwr] s (domEnter n 1 s) := by
    have hm := partsOnly_mono (domMarked_parts n 1 s) (L := [.cores, .sig, .regs, .flight, .pwr]) (by decide)
    rw [domEnter_retention]
    generalize domMarked n 1 s = u at hm ⊢
    unfold retained
    split
    · exact absurd rfl h1
    · exact absurd rfl h13
    · simp [hm]
    · exact hm
  exact ⟨hp .mem (by decide), hp .tmrs (by decide), hp .spx (by decide), hp .flc (by decide), hp .mboxes (by decide)⟩

/-! ### The log (R652) -/

/-- Two log fields of one entry by their place in its word. -/
theorem rd_logged {f g : Field} {k v : Nat} (hf : f.addr = 0x40000200 + 4 * k) (hg : g.addr = 0x40000200 + 4 * k) (hne : f.lo ≠ g.lo) (s : State) : (s.wr g v).rd f = s.rd f :=
  State.rd_wr_other _ _ (by simp only [Field.key]; omega)

/-- A log field of one of the 16 entries is neither the index nor the mark of a refusal. -/
theorem rd_log_shown {f : Field} {k : Nat} (hk : k < 16) (hf : f.addr = 0x40000200 + 4 * k) (h32 : f.lo < 32) (v : Nat) (s : State) :
    (((s.wr Reg.PWR_LOGIDX_NEXT v).set1 Reg.PWR_STAT_REFUSED).raise 102).rd f = s.rd f := by
  rw [State.rd_raise, State.set1, State.rd_wr_other _ _ (by simp only [Field.key, Reg.PWR_STAT_REFUSED]; omega), State.rd_wr_other _ _ (by simp only [Field.key, Reg.PWR_LOGIDX_NEXT]; omega)]

/-- What a log entry writes, at the index it is written at. -/
theorem pwrLog_reads (dom req reason : Nat) (s : State) (hk : s.rd Reg.PWR_LOGIDX_NEXT < 16) :
    (pwrLog dom req reason s).rd (Reg.PWR_LOG_VALID (s.rd Reg.PWR_LOGIDX_NEXT)) = 1 ∧ (pwrLog dom req reason s).rd (Reg.PWR_LOG_DOMAIN (s.rd Reg.PWR_LOGIDX_NEXT)) = dom % 16 ∧
      (pwrLog dom req reason s).rd (Reg.PWR_LOG_REASON (s.rd Reg.PWR_LOGIDX_NEXT)) = reason % 256 ∧ (pwrLog dom req reason s).rd Reg.PWR_LOGIDX_NEXT = (s.rd Reg.PWR_LOGIDX_NEXT + 1) % 16 ∧
      (pwrLog dom req reason s).rd Reg.PWR_STAT_REFUSED = 1 := by
  unfold pwrLog
  dsimp only
  generalize s.rd Reg.PWR_LOGIDX_NEXT = k at hk ⊢
  refine ⟨?_, ?_, ?_, ?_, State.rd_wr_same _ _ _⟩
  · rw [rd_log_shown hk rfl (Nat.le_of_ble_eq_true rfl), rd_logged (g := Reg.PWR_LOG_TIME k) rfl rfl (Nat.ne_of_beq_eq_false rfl), rd_logged (g := Reg.PWR_LOG_REASON k) rfl rfl (Nat.ne_of_beq_eq_false rfl), rd_logged (g := Reg.PWR_LOG_REQ k) rfl rfl (Nat.ne_of_beq_eq_false rfl),
      rd_logged (g := Reg.PWR_LOG_DOMAIN k) rfl rfl (Nat.ne_of_beq_eq_false rfl), State.set1, State.rd_wr_same]
    rfl
  · rw [rd_log_shown hk rfl (Nat.le_of_ble_eq_true rfl), rd_logged (g := Reg.PWR_LOG_TIME k) rfl rfl (Nat.ne_of_beq_eq_false rfl), rd_logged (g := Reg.PWR_LOG_REASON k) rfl rfl (Nat.ne_of_beq_eq_false rfl), rd_logged (g := Reg.PWR_LOG_REQ k) rfl rfl (Nat.ne_of_beq_eq_false rfl),
      State.rd_wr_same]
    rfl
  · rw [rd_log_shown hk rfl (Nat.le_of_ble_eq_true rfl), rd_logged (g := Reg.PWR_LOG_TIME k) rfl rfl (Nat.ne_of_beq_eq_false rfl), State.rd_wr_same]
    rfl
  · rw [State.rd_raise, State.set1, State.rd_wr_other _ _ (by decide), State.rd_wr_same]
    exact Nat.mod_mod _ _

/-- A log entry leaves the registers below the log but for the mark that an entry is refused. -/
theorem pwrLog_rd_below (dom req reason : Nat) (s : State) {f : Field} (hlo : f.addr < 0x40000200) (h32 : f.lo < 32) (hf : f.key ≠ Reg.PWR_STAT_REFUSED.key) : (pwrLog dom req reason s).rd f = s.rd f := by
  have hlog (k lo : Nat) : f.key ≠ (0x40000200 + 4 * k) * 32 + lo := by
    simp only [Field.key]
    omega
  refine (changesOnly_pwrLog (changesOnly_refl [Reg.PWR_LOG_VALID (s.rd Reg.PWR_LOGIDX_NEXT), Reg.PWR_LOG_DOMAIN (s.rd Reg.PWR_LOGIDX_NEXT), Reg.PWR_LOG_REQ (s.rd Reg.PWR_LOGIDX_NEXT),
    Reg.PWR_LOG_REASON (s.rd Reg.PWR_LOGIDX_NEXT), Reg.PWR_LOG_TIME (s.rd Reg.PWR_LOGIDX_NEXT), Reg.PWR_LOGIDX_NEXT, Reg.PWR_STAT_REFUSED] [.flight] s) dom req reason (fun _ h => h) (by simp)).rd f ?_
  simp only [List.forall_mem_cons, List.not_mem_nil, false_implies, implies_true, and_true]
  exact ⟨hlog _ 31, hlog _ 27, hlog _ 25, hlog _ 16, hlog _ 0, hlog 16 0, hf⟩

theorem pwrLog_pwr (dom req reason : Nat) (s : State) : (pwrLog dom req reason s).pwr = s.pwr :=
  pwrLog_parts dom req reason s s (partsOnly_refl [.regs, .flight] s) rfl .pwr (by decide)
theorem pwrLog_flight (dom req reason : Nat) (s : State) : (pwrLog dom req reason s).flight = s.flight ++ [102] := by
  unfold pwrLog
  simp only [State.raise_flight, State.set1_flight, State.wr_flight]

/-! ### Handshakes (R632 to R636) -/

section
variable {h : Hs} {r k : Nat} {i : Instr}

theorem dom_of_hsOf (hh : hsOf s n = some h) : h.dom = n := by simpa using List.find?_some hh

theorem hsOf_hsDrop (n : Nat) (s : State) : (hsDrop n s).pwr.hs.find? (fun h => h.dom == n) = none := by
  rw [List.find?_eq_none]
  intro x hx
  obtain ⟨-, hne⟩ := List.mem_filter.1 hx
  simpa using hne

theorem hsOf_of_hs (hd : t.pwr.hs = (hsDrop n s).pwr.hs) : hsOf t n = none := by
  rw [hsOf, hd]
  exact hsOf_hsDrop n s

/-- No vote waits: nothing follows the handshake's end. -/
theorem hsAfter_of_none (hl : s.pwr.later.contains n = false) : hsAfter n s = s := by rw [hsAfter, if_neg (by rw [hl]; decide)]

theorem domAnswer_pass (s : State) (dt n target : Nat) : domAnswer (s.pass dt) n target = domAnswer s n target := rfl

/-- Both occasions ask the blocks. -/
theorem asked_of (hi : i = .entryHandshake n dt ∧ entryHandshakeOk n (s.pass dt) = true ∨ i = .handshakeRetry n dt ∧ handshakeRetryOk n (s.pass dt) = true) (hh : hsOf s n = some h) :
    exec i s = .next (hsAsk h (s.pass dt)) := by
  have hask : entryHandshake n (s.pass dt) = hsAsk h (s.pass dt) := by
    have hpass : hsOf (s.pass dt) n = some h := hh
    rw [entryHandshake, hpass]
  rw [← hask]
  rcases hi with ⟨rfl, hok⟩ | ⟨rfl, hok⟩
  · show Host.Outcome.next _ = _
    rw [onlyIf, if_pos hok]
  · show Host.Outcome.next _ = _
    rw [onlyIf, if_pos hok]

/-- The blocks agree: the domain enters. -/
theorem hsAsk_ack (hh : h.dom = n) (hstop : s.pwr.stop = .none) (ha : domAnswer s n h.target = .ack) (h1 : 1 ≤ n) (hn : n ≤ 14) (ht : h.target = 1 ∨ h.target = 2) (hl : s.pwr.later.contains n = false) :
    hsAsk h s = domEnter n h.target (hsDrop n s) := by
  subst hh
  unfold hsAsk
  simp only [ha]
  rw [if_neg (by rw [hstop]; decide)]
  have hent : Entered h.dom h.target (hsDrop h.dom s) (domEnter h.dom h.target (hsDrop h.dom s)) := by
    rcases ht with ht | ht <;> rw [ht]
    · exact entered_retention hn _
    · exact entered_off h1 hn _
  exact hsAfter_of_none (by rw [hent.later]; exact hl)

/-- An entry that is refused, of a domain of its own. -/
def entryRefused (h : Hs) (reason : Nat) (s : State) : State := pwrLog h.dom h.target reason (((hsDrop h.dom s).set1 (Reg.PWR_DOM_HELD h.dom)).inc Reg.PWR_REFCNT)

theorem hsRefuse_of_none (hstop : s.pwr.stop = .none) (hl : s.pwr.later.contains h.dom = false) (reason : Nat) : hsRefuse h reason s = entryRefused h reason s := by
  rw [hsRefuse, if_neg (by rw [hstop]; decide)]
  exact hsAfter_of_none hl

theorem entryRefused_reads (hh : h.dom = n) (h1 : 1 ≤ n) (hn : n ≤ 14) (hk : s.rd Reg.PWR_LOGIDX_NEXT < 16) (reason : Nat) :
    (entryRefused h reason s).rd (Reg.PWR_DOM_STATE n) = s.rd (Reg.PWR_DOM_STATE n) ∧ (entryRefused h reason s).rd (Reg.PWR_DOM_HELD n) = 1 ∧ (entryRefused h reason s).rd Reg.PWR_REFCNT = satAdd 32 (s.rd Reg.PWR_REFCNT) 1 ∧
      (entryRefused h reason s).rd (Reg.PWR_LOG_VALID (s.rd Reg.PWR_LOGIDX_NEXT)) = 1 ∧ (entryRefused h reason s).rd (Reg.PWR_LOG_DOMAIN (s.rd Reg.PWR_LOGIDX_NEXT)) = n ∧
      (entryRefused h reason s).rd (Reg.PWR_LOG_REASON (s.rd Reg.PWR_LOGIDX_NEXT)) = reason % 256 ∧ (entryRefused h reason s).rd Reg.PWR_LOGIDX_NEXT = (s.rd Reg.PWR_LOGIDX_NEXT + 1) % 16 ∧
      (entryRefused h reason s).rd Reg.PWR_STAT_REFUSED = 1 ∧ (entryRefused h reason s).flight = s.flight ++ [102] ∧ hsOf (entryRefused h reason s) n = none := by
  subst hh
  have hidx : (((hsDrop h.dom s).set1 (Reg.PWR_DOM_HELD h.dom)).inc Reg.PWR_REFCNT).rd Reg.PWR_LOGIDX_NEXT = s.rd Reg.PWR_LOGIDX_NEXT := by
    rw [State.rd_inc, if_neg (by decide), State.set1, State.rd_wr_other _ _ (by simp only [Field.key, Reg.PWR_LOGIDX_NEXT, Reg.PWR_DOM_HELD]; omega)]
    rfl
  have hcnt : ((hsDrop h.dom s).set1 (Reg.PWR_DOM_HELD h.dom)).rd Reg.PWR_REFCNT = s.rd Reg.PWR_REFCNT := by
    rw [State.set1, State.rd_wr_other _ _ (by simp only [Field.key, Reg.PWR_REFCNT, Reg.PWR_DOM_HELD]; omega)]
    rfl
  obtain ⟨hvalid, hdom, hreason, hnext, hrefused⟩ := pwrLog_reads h.dom h.target reason (((hsDrop h.dom s).set1 (Reg.PWR_DOM_HELD h.dom)).inc Reg.PWR_REFCNT) (by rw [hidx]; exact hk)
  rw [hidx] at hvalid hdom hreason hnext
  rw [Nat.mod_eq_of_lt (by omega)] at hdom
  refine ⟨?_, ?_, ?_, hvalid, hdom, hreason, hnext, hrefused, pwrLog_flight _ _ _ _, hsOf_of_hs (s := s) (congrArg Pwr.hs (pwrLog_pwr _ _ _ _))⟩
  · rw [entryRefused, pwrLog_rd_below _ _ _ _ (by simp only [Reg.PWR_DOM_STATE]; omega) (by simp [Reg.PWR_DOM_STATE]) (by simp only [Field.key, Reg.PWR_DOM_STATE, Reg.PWR_STAT_REFUSED]; omega), State.rd_inc,
      if_neg (by simp only [Field.key, Reg.PWR_DOM_STATE, Reg.PWR_REFCNT]; omega), State.set1, State.rd_wr_other _ _ (by simp only [Field.key, Reg.PWR_DOM_STATE, Reg.PWR_DOM_HELD]; omega)]
    rfl
  · rw [entryRefused, pwrLog_rd_below _ _ _ _ (by simp only [Reg.PWR_DOM_HELD]; omega) (by simp [Reg.PWR_DOM_HELD]) (by simp only [Field.key, Reg.PWR_DOM_HELD, Reg.PWR_STAT_REFUSED]; omega), State.rd_inc,
      if_neg (by simp only [Field.key, Reg.PWR_DOM_HELD, Reg.PWR_REFCNT]; omega), State.set1, State.rd_wr_same]
    rfl
  · rw [entryRefused, pwrLog_rd_below _ _ _ _ (by decide) (by decide) (by decide), State.rd_inc_same, hcnt]
    rfl

/-- The rows of an entry that the blocks agree to. -/
theorem entry_agreed (hi : i = .entryHandshake n dt ∧ entryHandshakeOk n (s.pass dt) = true ∨ i = .handshakeRetry n dt ∧ handshakeRetryOk n (s.pass dt) = true) (hh : hsOf s n = some h) (h1 : 1 ≤ n) (hn : n ≤ 14)
    (hl : s.pwr.later.contains n = false) (hstop : s.pwr.stop = .none) (ha : domAnswer s n h.target = .ack) (ht : h.target = 1 ∨ h.target = 2) :
    completes i s (fun t => t.rd (Reg.PWR_DOM_STATE n) = h.target ∧ t.rd (Reg.PWR_DOM_HELD n) = 0 ∧ t.rd Reg.PWR_STAT_CHANGED = 1 ∧ 103 ∈ t.flight ∧ hsOf t n = none ∧
      (h.target = 2 → n = 14 → t.tmrs = List.replicate 8 Tmr.reset ∧ t.spx = [Spx.reset, Spx.reset] ∧ t.lmp = Lmp.reset) ∧
      (h.target = 2 → n = 4 → ∀ a, 0x30000000 ≤ a → a < 0x30180000 → memRd t.mem a = memRd [] a) ∧
      (h.target = 2 → n = 12 → t.flc = { s.flc with ptrs := ptrSearch s.flc.pages, taken := [], run := [], refetch := [] }) ∧
      (h.target = 1 → n ≠ 1 → n ≠ 13 → n ≠ 11 → t.mem = s.mem ∧ t.tmrs = s.tmrs ∧ t.spx = s.spx ∧ t.flc = s.flc ∧ t.mboxes = s.mboxes)) := by
  refine ⟨_, asked_of hi hh, ?_⟩
  rw [hsAsk_ack (s := s.pass dt) (dom_of_hsOf hh) hstop ha h1 hn ht hl]
  rcases ht with ht | ht <;> rw [ht]
  · have hent := entered_retention hn (hsDrop n (s.pass dt))
    exact ⟨hent.state, hent.held, hent.changed, hent.event, hsOf_of_hs hent.hs, (absurd · (by decide)), (absurd · (by decide)), (absurd · (by decide)), fun _ h1 h13 _ => kept_retention h1 h13 _⟩
  · have hent := entered_off h1 hn (hsDrop n (s.pass dt))
    obtain ⟨hio, hsig, hflc⟩ := lost_off (n := n) (hsDrop n (s.pass dt))
    exact ⟨hent.state, hent.held, hent.changed, hent.event, hsOf_of_hs hent.hs, fun _ => hio, fun _ => hsig, fun _ => hflc, (absurd · (by decide))⟩

theorem entry_refused (hi : i = .entryHandshake n dt ∧ entryHandshakeOk n (s.pass dt) = true ∨ i = .handshakeRetry n dt ∧ handshakeRetryOk n (s.pass dt) = true) (hh : hsOf s n = some h) (h1 : 1 ≤ n) (hn : n ≤ 14)
    (hl : s.pwr.later.contains n = false) (r k : Nat) (hstop : s.pwr.stop = .none) (ha : domAnswer s n h.target = .refuse r ∨ domAnswer s n h.target = .delay r ∧ s.rd (Reg.PWR_DOM_DLYLIM n) = 0)
    (hk : k = s.rd Reg.PWR_LOGIDX_NEXT) (hk16 : k < 16) (hr : r < 256) :
    completes i s (fun t => t.rd (Reg.PWR_DOM_STATE n) = s.rd (Reg.PWR_DOM_STATE n) ∧ t.rd (Reg.PWR_DOM_HELD n) = 1 ∧ t.rd Reg.PWR_REFCNT = satAdd 32 (s.rd Reg.PWR_REFCNT) 1 ∧ t.rd (Reg.PWR_LOG_VALID k) = 1 ∧
      t.rd (Reg.PWR_LOG_DOMAIN k) = n ∧ t.rd (Reg.PWR_LOG_REASON k) = r ∧ t.rd Reg.PWR_LOGIDX_NEXT = (k + 1) % 16 ∧ t.rd Reg.PWR_STAT_REFUSED = 1 ∧ t.flight = s.flight ++ [102] ∧ hsOf t n = none) := by
  subst hk
  have hdom := dom_of_hsOf hh
  have hask : hsAsk h (s.pass dt) = hsRefuse h r (s.pass dt) := by
    unfold hsAsk
    rw [hdom, domAnswer_pass]
    rcases ha with ha | ⟨ha, hlim⟩
    · simp only [ha]
    · simp only [ha]
      exact if_pos hlim
  refine ⟨_, asked_of hi hh, ?_⟩
  rw [hask, hsRefuse_of_none (s := s.pass dt) hstop (by rw [hdom]; exact hl)]
  have hreads := entryRefused_reads (s := s.pass dt) hdom h1 hn hk16 r
  rw [Nat.mod_eq_of_lt hr] at hreads
  exact hreads

/-- Change the handshake of a domain. -/
def hsMod (n : Nat) (f : Hs → Hs) (s : State) : State := pwrMod (fun p => { p with hs := p.hs.map (fun x => if x.dom = n then f x else x) }) s

theorem hsOf_hsMod {f : Hs → Hs} (hf : ∀ x, (f x).dom = x.dom) (n : Nat) (s : State) : hsOf (hsMod n f s) n = (hsOf s n).map f := by
  have hp : (fun x : Hs => x.dom == n) ∘ (fun x => if x.dom = n then f x else x) = fun x => x.dom == n := by
    funext x
    by_cases hx : x.dom = n <;> simp [hx, hf]
  rw [hsOf, hsMod, pwrMod, List.find?_map, hp]
  cases hfind : s.pwr.hs.find? (fun x => x.dom == n) with
  | none => rw [hsOf, hfind]; rfl
  | some x =>
    rw [hsOf, hfind, Option.map_some, Option.map_some, if_pos (by simpa using List.find?_some hfind)]

theorem entry_delayed (hi : i = .entryHandshake n dt ∧ entryHandshakeOk n (s.pass dt) = true ∨ i = .handshakeRetry n dt ∧ handshakeRetryOk n (s.pass dt) = true) (hh : hsOf s n = some h) (r : Nat)
    (ha : domAnswer s n h.target = .delay r) (hlim : s.rd (Reg.PWR_DOM_DLYLIM n) ≠ 0) :
    completes i s (fun t => hsOf t n = some { h with asked := some (s.elapsed + dt), delay := some r } ∧ changesOnly [] [.pwr] (s.pass dt) t) := by
  have hask : hsAsk h (s.pass dt) = hsMod n (fun x => { x with asked := some (s.elapsed + dt), delay := some r }) (s.pass dt) := by
    unfold hsAsk
    rw [dom_of_hsOf hh, domAnswer_pass]
    simp only [ha]
    exact if_neg hlim
  refine ⟨_, asked_of hi hh, ?_⟩
  rw [hask]
  refine ⟨?_, changesOnly_pwrMod (changesOnly_refl _ _ _) _ (by simp)⟩
  rw [hsOf_hsMod (by exact fun _ => rfl), show hsOf (s.pass dt) n = some h from hh]
  rfl

theorem stop_acked (hi : i = .entryHandshake n dt ∧ entryHandshakeOk n (s.pass dt) = true ∨ i = .handshakeRetry n dt ∧ handshakeRetryOk n (s.pass dt) = true) (hh : hsOf s n = some h) (hstop : s.pwr.stop = .handshake)
    (ha : domAnswer s n h.target = .ack) :
    completes i s (fun t => hsOf t n = some { h with asked := some (s.elapsed + dt), delay := none, acked := true } ∧ changesOnly [] [.pwr] (s.pass dt) t) := by
  have hask : hsAsk h (s.pass dt) = hsMod n (fun x => { x with asked := some (s.elapsed + dt), delay := none, acked := true }) (s.pass dt) := by
    unfold hsAsk
    rw [dom_of_hsOf hh, domAnswer_pass]
    simp only [ha]
    exact if_pos hstop
  refine ⟨_, asked_of hi hh, ?_⟩
  rw [hask]
  refine ⟨?_, changesOnly_pwrMod (changesOnly_refl _ _ _) _ (by simp)⟩
  rw [hsOf_hsMod (by exact fun _ => rfl), show hsOf (s.pass dt) n = some h from hh]
  rfl

/-- A Stop refused as a whole (R643). -/
theorem stop_refused (hi : i = .entryHandshake n dt ∧ entryHandshakeOk n (s.pass dt) = true ∨ i = .handshakeRetry n dt ∧ handshakeRetryOk n (s.pass dt) = true) (hh : hsOf s n = some h) (r : Nat) (hstop : s.pwr.stop = .handshake)
    (ha : domAnswer s n h.target = .refuse r) (hk : s.rd Reg.PWR_LOGIDX_NEXT < 16) :
    completes i s (fun t => t.pwr.hs = [] ∧ t.pwr.stop = .none ∧ t.rd Reg.PWR_STAT_MODE = 0 ∧ t.rd Reg.PWR_CTL_STOPREQ = 0 ∧ t.rd (Reg.PWR_LOG_DOMAIN (s.rd Reg.PWR_LOGIDX_NEXT)) = 15 ∧
      t.rd Reg.PWR_REFCNT = satAdd 32 (s.rd Reg.PWR_REFCNT) 1 ∧ ∀ d, 1 ≤ d → d ≤ 14 → t.rd (Reg.PWR_DOM_STATE d) = s.rd (Reg.PWR_DOM_STATE d)) := by
  have hask : hsAsk h (s.pass dt) = stopRefuse r (s.pass dt) := by
    unfold hsAsk hsRefuse
    rw [dom_of_hsOf hh, domAnswer_pass]
    simp only [ha]
    exact if_pos hstop
  refine ⟨_, asked_of hi hh, ?_⟩
  rw [hask, stopRefuse]
  have hother (f : Field) (hf : f.key ≠ Reg.PWR_REFCNT.key) : ((pwrMod (fun p => { p with hs := [], stop := .none }) (s.pass dt)).inc Reg.PWR_REFCNT).rd f = s.rd f := State.rd_inc_other _ hf
  have hcnt : ((pwrMod (fun p => { p with hs := [], stop := .none }) (s.pass dt)).inc Reg.PWR_REFCNT).rd Reg.PWR_REFCNT = satAdd 32 (s.rd Reg.PWR_REFCNT) 1 := State.rd_inc_same _ _
  have hpwr : ((pwrMod (fun p => { p with hs := [], stop := .none }) (s.pass dt)).inc Reg.PWR_REFCNT).pwr = { s.pwr with hs := [], stop := .none } := rfl
  generalize (pwrMod (fun p => { p with hs := [], stop := .none }) (s.pass dt)).inc Reg.PWR_REFCNT = u at hother hcnt hpwr ⊢
  have hidx := hother Reg.PWR_LOGIDX_NEXT (by decide)
  obtain ⟨-, hdom, -⟩ := pwrLog_reads 15 1 r u (by rw [hidx]; exact hk)
  rw [hidx] at hdom
  have hpwr' := (pwrLog_pwr 15 1 r u).trans hpwr
  have hbelow (f : Field) (hlo : f.addr < 0x40000200) (h32 : f.lo < 32) (hf : f.key ≠ Reg.PWR_STAT_REFUSED.key) := pwrLog_rd_below 15 1 r u hlo h32 hf
  dsimp only
  generalize pwrLog 15 1 r u = v at hdom hpwr' hbelow ⊢
  refine ⟨congrArg Pwr.hs hpwr', congrArg Pwr.stop hpwr', State.rd_wr_same _ _ _, ?_, ?_, ?_, fun d h1 h14 => ?_⟩
  · rw [State.rd_wr_other _ _ (by decide)]
    exact State.rd_wr_same _ _ _
  · rw [State.rd_wr_other _ _ (by simp only [Field.key, Reg.PWR_LOG_DOMAIN, Reg.PWR_STAT_MODE]; omega), State.clr,
      State.rd_wr_other _ _ (by simp only [Field.key, Reg.PWR_LOG_DOMAIN, Reg.PWR_CTL_STOPREQ]; omega), hdom]
  · rw [State.rd_wr_other _ _ (by decide), State.clr, State.rd_wr_other _ _ (by decide), hbelow _ (by decide) (by decide) (by decide), hcnt]
  · rw [State.rd_wr_other _ _ (by simp only [Field.key, Reg.PWR_DOM_STATE, Reg.PWR_STAT_MODE]; omega), State.clr,
      State.rd_wr_other _ _ (by simp only [Field.key, Reg.PWR_DOM_STATE, Reg.PWR_CTL_STOPREQ]; omega),
      hbelow _ (by simp only [Reg.PWR_DOM_STATE]; omega) (by simp [Reg.PWR_DOM_STATE]) (by simp only [Field.key, Reg.PWR_DOM_STATE, Reg.PWR_STAT_REFUSED]; omega),
      hother _ (by simp only [Field.key, Reg.PWR_DOM_STATE, Reg.PWR_REFCNT]; omega)]

theorem delay_ends (n k dt : Nat) (h : Hs) (s : State) (hok : delayLimitOk n (s.pass dt) = true) (hh : hsOf s n = some h) (h1 : 1 ≤ n) (hn : n ≤ 14) (hl : s.pwr.later.contains n = false) (hstop : s.pwr.stop = .none)
    (hk : k = s.rd Reg.PWR_LOGIDX_NEXT) (hk16 : k < 16) :
    completes (.delayLimit n dt) s (fun t => t.rd (Reg.PWR_DOM_HELD n) = 1 ∧ t.rd Reg.PWR_REFCNT = satAdd 32 (s.rd Reg.PWR_REFCNT) 1 ∧ t.rd (Reg.PWR_LOG_REASON k) = h.delay.getD 0 % 256 ∧ t.flight = s.flight ++ [102] ∧
      hsOf t n = none) := by
  subst hk
  have hdom := dom_of_hsOf hh
  have hlim : delayLimit n (s.pass dt) = entryRefused h (h.delay.getD 0) (s.pass dt) := by
    rw [delayLimit, show hsOf (s.pass dt) n = some h from hh]
    exact hsRefuse_of_none (s := s.pass dt) hstop (by rw [hdom]; exact hl) _
  refine completes_of_onlyIf rfl hok ?_
  rw [hlim]
  obtain ⟨-, hheld, hcnt, -, -, hreason, -, -, hfl, hnone⟩ := entryRefused_reads (s := s.pass dt) hdom h1 hn hk16 (h.delay.getD 0)
  exact ⟨hheld, hcnt, hreason, hfl, hnone⟩

theorem entry_abandoned (n k dt : Nat) (h : Hs) (s : State) (hstop : s.pwr.stop = .none) (hh : hsOf s n = some h) (_h1 : 1 ≤ n) (_hn : n ≤ 14) (hl : s.pwr.later.contains n = false)
    (hk : k = s.rd Reg.PWR_LOGIDX_NEXT) (hk16 : k < 16) :
    completes (.entryAbandon n dt) s (fun t => t.rd (Reg.PWR_DOM_STATE n) = s.rd (Reg.PWR_DOM_STATE n) ∧ t.rd (Reg.PWR_DOM_HELD n) = 1 ∧ t.rd (Reg.PWR_LOG_REASON k) = 8 ∧ t.rd Reg.PWR_REFCNT = s.rd Reg.PWR_REFCNT ∧
      t.flight = s.flight ++ [102] ∧ hsOf t n = none) := by
  subst hk
  have hab : entryAbandon n (s.pass dt) = (pwrLog n h.target 0x08 (hsDrop n (s.pass dt))).set1 (Reg.PWR_DOM_HELD n) := by rw [entryAbandon, show hsOf (s.pass dt) n = some h from hh]
  have hok : ((hsOf (s.pass dt) n).isSome && (s.pass dt).pwr.stop == .none) = true := by
    rw [show hsOf (s.pass dt) n = some h from hh, show (s.pass dt).pwr.stop = .none from hstop]
    rfl
  refine completes_of_onlyIf rfl hok ?_
  rw [hab]
  have hpwr := pwrLog_pwr n h.target 0x08 (hsDrop n (s.pass dt))
  have hfl := pwrLog_flight n h.target 0x08 (hsDrop n (s.pass dt))
  obtain ⟨-, -, hreason, -⟩ := pwrLog_reads n h.target 0x08 (hsDrop n (s.pass dt)) hk16
  have hbelow (f : Field) (hlo : f.addr < 0x40000200) (h32 : f.lo < 32) (hf : f.key ≠ Reg.PWR_STAT_REFUSED.key) : _ = s.rd f := pwrLog_rd_below n h.target 0x08 (hsDrop n (s.pass dt)) hlo h32 hf
  have hidx : (hsDrop n (s.pass dt)).rd Reg.PWR_LOGIDX_NEXT = s.rd Reg.PWR_LOGIDX_NEXT := rfl
  rw [hidx] at hreason
  generalize pwrLog n h.target 0x08 (hsDrop n (s.pass dt)) = u at hpwr hfl hreason hbelow ⊢
  rw [hsAfter_of_none (by rw [State.set1_pwr, hpwr]; exact hl)]
  refine ⟨?_, State.rd_wr_same _ _ _, ?_, ?_, hfl, hsOf_of_hs (s := s.pass dt) (congrArg Pwr.hs hpwr)⟩
  · rw [State.set1, State.rd_wr_other _ _ (by simp only [Field.key, Reg.PWR_DOM_STATE, Reg.PWR_DOM_HELD]; omega),
      hbelow _ (by simp only [Reg.PWR_DOM_STATE]; omega) (by simp [Reg.PWR_DOM_STATE]) (by simp only [Field.key, Reg.PWR_DOM_STATE, Reg.PWR_STAT_REFUSED]; omega)]
  · rw [State.set1, State.rd_wr_other _ _ (by simp only [Field.key, Reg.PWR_LOG_REASON, Reg.PWR_DOM_HELD]; omega), hreason]
  · rw [State.set1, State.rd_wr_other _ _ (by simp only [Field.key, Reg.PWR_REFCNT, Reg.PWR_DOM_HELD]; omega), hbelow _ (by decide) (by decide) (by decide)]

end

/-! ### Thaw stalls (R637 to R640) -/

theorem state_wr_key (m n : Nat) : (Reg.PWR_DOM_STATE n).key = (Reg.PWR_DOM_STATE m).key ↔ n = m := by simp only [Field.key, Reg.PWR_DOM_STATE]; omega

/-- A domain in Retention or Off starts to rise, and no other domain's state changes. -/
theorem domRise1_state (m n : Nat) (thaw : Bool) (s : State) (h1 : 1 ≤ m) :
    (domRise1 m thaw s).rd (Reg.PWR_DOM_STATE n) = if n = m ∧ ¬ (s.rd (Reg.PWR_DOM_STATE m) = 0 ∨ s.rd (Reg.PWR_DOM_STATE m) = 3) then 3 else s.rd (Reg.PWR_DOM_STATE n) := by
  have hst : domState s m = s.rd (Reg.PWR_DOM_STATE m) := if_neg (by omega)
  unfold domRise1
  rw [hst]
  split
  · rw [if_neg (by omega)]
  · rw [State.rd_wr]
    simp only [state_wr_key]
    by_cases hnm : n = m
    · rw [if_pos hnm, if_pos ⟨hnm, by omega⟩]
      rfl
    · rw [if_neg hnm, if_neg (by omega)]
      rfl

theorem domRise_state (h1 : 1 ≤ n) (thaw : Bool) (hs : s.rd (Reg.PWR_DOM_STATE n) = 1 ∨ s.rd (Reg.PWR_DOM_STATE n) = 2) :
    (domRise n thaw s).rd (Reg.PWR_DOM_STATE n) = 3 ∧ (s.rd (Reg.PWR_DOM_STATE 11) = 1 ∨ s.rd (Reg.PWR_DOM_STATE 11) = 2 → (domRise n thaw s).rd (Reg.PWR_DOM_STATE 11) = 3) := by
  unfold domRise
  by_cases h11 : n = 11
  · subst h11
    rw [if_pos rfl, domRise1_state _ _ _ _ h1, if_pos ⟨rfl, by omega⟩]
    exact ⟨rfl, fun _ => rfl⟩
  · have hn : (domRise1 11 false s).rd (Reg.PWR_DOM_STATE n) = s.rd (Reg.PWR_DOM_STATE n) := by rw [domRise1_state _ _ _ _ (by decide), if_neg (by omega)]
    rw [if_neg h11, domRise1_state _ _ _ _ h1, hn, if_pos ⟨rfl, by omega⟩, domRise1_state _ _ _ _ h1, if_neg (by omega), domRise1_state _ _ _ _ (by decide)]
    exact ⟨rfl, fun h => if_pos ⟨rfl, by omega⟩⟩

/-- The votes and the count of a thaw stall, before the domain rises. -/
def thawVoted (n : Nat) (s : State) : State :=
  (((s.wr (Reg.PWR_DOM_CREQ n) 0).wr (Reg.PWR_DOM_GREQ n) 0).wr (Reg.PWR_DOM_TARGET n) (if n = 13 ∧ leafMode s then 2 else 0)).inc Reg.PWR_THAWCNT

theorem thawVoted_reads (n : Nat) (s : State) :
    (∀ m, (thawVoted n s).rd (Reg.PWR_DOM_STATE m) = s.rd (Reg.PWR_DOM_STATE m)) ∧ (thawVoted n s).rd (Reg.PWR_DOM_CREQ n) = 0 ∧ (thawVoted n s).rd (Reg.PWR_DOM_GREQ n) = 0 ∧
      (thawVoted n s).rd Reg.PWR_THAWCNT = satAdd 32 (s.rd Reg.PWR_THAWCNT) 1 := by
  refine ⟨fun m => ?_, ?_, ?_, ?_⟩
  · rw [thawVoted, State.rd_inc_other _ (by simp only [Field.key, Reg.PWR_DOM_STATE, Reg.PWR_THAWCNT]; omega), State.rd_wr_other _ _ (by simp only [Field.key, Reg.PWR_DOM_STATE, Reg.PWR_DOM_TARGET]; omega),
      State.rd_wr_other _ _ (by simp only [Field.key, Reg.PWR_DOM_STATE, Reg.PWR_DOM_GREQ]; omega), State.rd_wr_other _ _ (by simp only [Field.key, Reg.PWR_DOM_STATE, Reg.PWR_DOM_CREQ]; omega)]
  · rw [thawVoted, State.rd_inc_other _ (by simp only [Field.key, Reg.PWR_DOM_CREQ, Reg.PWR_THAWCNT]; omega), State.rd_wr_other _ _ (by simp only [Field.key, Reg.PWR_DOM_CREQ, Reg.PWR_DOM_TARGET]; omega),
      State.rd_wr_other _ _ (by simp only [Field.key, Reg.PWR_DOM_CREQ, Reg.PWR_DOM_GREQ]; omega), State.rd_wr_same]
    rfl
  · rw [thawVoted, State.rd_inc_other _ (by simp only [Field.key, Reg.PWR_DOM_GREQ, Reg.PWR_THAWCNT]; omega), State.rd_wr_other _ _ (by simp only [Field.key, Reg.PWR_DOM_GREQ, Reg.PWR_DOM_TARGET]; omega), State.rd_wr_same]
    rfl
  · rw [thawVoted, State.rd_inc_same, State.rd_wr_other _ _ (by simp only [Field.key, Reg.PWR_THAWCNT, Reg.PWR_DOM_TARGET]; omega), State.rd_wr_other _ _ (by simp only [Field.key, Reg.PWR_THAWCNT, Reg.PWR_DOM_GREQ]; omega),
      State.rd_wr_other _ _ (by simp only [Field.key, Reg.PWR_THAWCNT, Reg.PWR_DOM_CREQ]; omega)]
    rfl

theorem thaw_stalls (ini n dt : Nat) (s : State) (hok : thawStallOk ini n (s.pass dt) = true) (hs : s.rd (Reg.PWR_DOM_STATE n) = 1 ∨ s.rd (Reg.PWR_DOM_STATE n) = 2)
    (hw : s.pwr.waits.any (fun w => w.ini == ini && w.dom == n) = false) :
    completes (.thawStall ini n dt) s (fun t => t.rd (Reg.PWR_DOM_STATE n) = 3 ∧ t.rd (Reg.PWR_DOM_CREQ n) = 0 ∧ t.rd (Reg.PWR_DOM_GREQ n) = 0 ∧ t.rd Reg.PWR_THAWCNT = satAdd 32 (s.rd Reg.PWR_THAWCNT) 1 ∧
      t.pwr.waits = s.pwr.waits ++ [⟨ini, n, s.elapsed + dt⟩] ∧ (s.rd (Reg.PWR_DOM_STATE 11) = 1 ∨ s.rd (Reg.PWR_DOM_STATE 11) = 2 → t.rd (Reg.PWR_DOM_STATE 11) = 3)) := by
  have hn : 1 ≤ n ∧ n ≤ 14 := by
    simp only [thawStallOk, Bool.and_eq_true, decide_eq_true_eq] at hok
    exact ⟨hok.1.1.1, hok.1.1.2⟩
  have hstate : domState (s.pass dt) n = s.rd (Reg.PWR_DOM_STATE n) := if_neg (by omega)
  refine completes_of_onlyIf rfl hok ?_
  obtain ⟨hvs, hvc, hvg, hvt⟩ := thawVoted_reads n (s.pass dt)
  obtain ⟨hrise, hrise11⟩ := domRise_state (s := thawVoted n (s.pass dt)) hn.1 true (by rw [hvs]; exact hs)
  have hrest := pwrRest_domRise n true (thawVoted n (s.pass dt))
  have hsame (f : Field) (hf : ∀ m, f.key ≠ (Reg.PWR_DOM_STATE m).key) : (domRise n true (thawVoted n (s.pass dt))).rd f = (thawVoted n (s.pass dt)).rd f :=
    (changesOnly_domRise (changesOnly_refl [Reg.PWR_DOM_STATE n, Reg.PWR_DOM_STATE 11] [.pwr] (thawVoted n (s.pass dt))) true (by simp) (by simp) (by simp)).rd f (by simp [hf])
  rw [hvs] at hrise11
  unfold accessWait
  rw [hstate, if_pos hs]
  rw [show thawStart n (s.pass dt) = domRise n true (thawVoted n (s.pass dt)) from rfl]
  generalize domRise n true (thawVoted n (s.pass dt)) = u at hrise hrise11 hrest hsame ⊢
  have hwaits : u.pwr.waits = s.pwr.waits := (congrArg Pwr.waits hrest : (pwrRest u.pwr).waits = (pwrRest (thawVoted n (s.pass dt)).pwr).waits)
  dsimp only
  rw [hwaits, if_neg (by rw [hw]; decide)]
  refine ⟨hrise, (hsame _ fun m => by simp only [Field.key, Reg.PWR_DOM_CREQ, Reg.PWR_DOM_STATE]; omega).trans hvc, (hsame _ fun m => by simp only [Field.key, Reg.PWR_DOM_GREQ, Reg.PWR_DOM_STATE]; omega).trans hvg,
    (hsame _ fun m => by simp only [Field.key, Reg.PWR_THAWCNT, Reg.PWR_DOM_STATE]; omega).trans hvt, ?_, hrise11⟩
  show u.pwr.waits ++ _ = _
  rw [hwaits]
  rfl

theorem thaw_times_out (ini n dt : Nat) (s : State) (hok : thawTimeoutOk ini n (s.pass dt) = true) (hheld : s.pwr.held.any (fun h => h.ini == ini && h.dom == n) = false) :
    completes (.thawTimeout ini n dt) s (fun t => t.rd Reg.PWR_THAWTOCNT = satAdd 32 (s.rd Reg.PWR_THAWTOCNT) 1 ∧ t.pwr.expired = s.pwr.expired ++ [(ini, n)] ∧
      t.pwr.waits = s.pwr.waits.filter (fun w => !(w.ini == ini && w.dom == n)) ∧ changesOnly [Reg.PWR_THAWTOCNT] [.pwr] (s.pass dt) t) := by
  have heq : thawTimeout ini n (s.pass dt) = pwrMod (fun p => { p with expired := p.expired ++ [(ini, n)] })
      ((pwrMod (fun p => { p with waits := p.waits.filter (fun w => !(w.ini == ini && w.dom == n)) }) (s.pass dt)).inc Reg.PWR_THAWTOCNT) := by
    refine if_neg ?_
    rw [Bool.not_eq_true]
    exact hheld
  refine completes_of_onlyIf rfl hok ?_
  rw [heq]
  exact ⟨State.rd_inc_same _ _, rfl, rfl, changesOnly_pwrMod ((changesOnly_pwrMod (changesOnly_refl _ _ _) _ (by simp)).inc (by simp)) _ (by simp)⟩

/-! ### A domain is ready (R630, R638) -/

/-- What a vote of a domain that is On may write: its target and the mark and log of an entry that is abandoned. -/
theorem voteChanged_of_on (h1 : 1 ≤ n) (h14 : n ≤ 14) (hon : s.rd (Reg.PWR_DOM_STATE n) = 0) :
    (voteChanged n s).rd (Reg.PWR_DOM_STATE n) = 0 ∧ (voteChanged n s).pwr.rise = s.pwr.rise ∧ s.flight ⊆ (voteChanged n s).flight := by
  have htarget : (s.wr (Reg.PWR_DOM_TARGET n) (domTarget s n)).rd (Reg.PWR_DOM_STATE n) = 0 := by rw [State.rd_wr_other _ _ (by simp only [Field.key, Reg.PWR_DOM_STATE, Reg.PWR_DOM_TARGET]; omega), hon]
  have hrise : (s.wr (Reg.PWR_DOM_TARGET n) (domTarget s n)).pwr.rise = s.pwr.rise := rfl
  have hfl : (s.wr (Reg.PWR_DOM_TARGET n) (domTarget s n)).flight = s.flight := rfl
  unfold voteChanged
  dsimp only
  generalize s.wr (Reg.PWR_DOM_TARGET n) (domTarget s n) = u at htarget hrise hfl ⊢
  rw [← hrise, ← hfl]
  have hstate : domState u n = 0 := (if_neg (by omega)).trans htarget
  have hn : (Reg.PWR_DOM_STATE n).addr < 0x40000200 := by simp only [Reg.PWR_DOM_STATE]; omega
  have hkeep : u.rd (Reg.PWR_DOM_STATE n) = 0 ∧ u.pwr.rise = u.pwr.rise ∧ u.flight ⊆ u.flight := ⟨htarget, rfl, fun _ h => h⟩
  split
  · exact hkeep
  · split
    · split
      · unfold entryAbandon
        split
        · exact hkeep
        · next h _ =>
          have hpwr := pwrLog_pwr n h.target 8 (hsDrop n u)
          have hflog := pwrLog_flight n h.target 8 (hsDrop n u)
          have hrd := (pwrLog_rd_below n h.target 8 (hsDrop n u) (f := Reg.PWR_DOM_STATE n))
          have hrd' : (pwrLog n h.target 8 (hsDrop n u)).rd (Reg.PWR_DOM_STATE n) = 0 :=
            (hrd hn (by simp [Reg.PWR_DOM_STATE]) (by simp only [Field.key, Reg.PWR_DOM_STATE, Reg.PWR_STAT_REFUSED]; omega)).trans htarget
          refine ⟨?_, (congrArg Pwr.rise hpwr : _ = (hsDrop n u).pwr.rise), ?_⟩
          · rw [State.set1, State.rd_wr_other _ _ (by simp only [Field.key, Reg.PWR_DOM_STATE, Reg.PWR_DOM_HELD]; omega), hrd']
          · rw [State.set1_flight, hflog]
            exact List.subset_append_left _ _
      · exact hkeep
    · rw [hstate, if_neg (by decide)]
      split
      · exact hkeep
      · rw [if_neg (by omega)]
        exact hkeep

/-- What a domain's return restores, its new state already shown. -/
def domRestored (n from_ : Nat) (s : State) : State :=
  match n with
  | 1 => if from_ = 2 then firnRestore s else if s.firn.coasting ∧ s.firn.tcxoLost.isNone then { s with firn := { s.firn with exitPhase := 1 } } else s
  | 2 => wurConfig s
  | 4 => if from_ = 2 then { s with sig := s.sig.map (fun c => { c with held := false }) } else s
  | 5 => if from_ = 2 then (List.range 9).foldl (fun t i => coreStart (5 + i) t) s else s
  | 6 => if from_ = 2 then coreStart 0 s else s
  | 11 => if from_ = 2 then mshConfig s.netCfg s else s
  | 14 => { s with pwr := { s.pwr with floats := false } }
  | _ => if 7 ≤ n ∧ n ≤ 10 ∧ from_ = 2 then coreStart (n - 6) s else s

/-- The domain is shown On; its cores count on. -/
def domShown (n : Nat) (s : State) : State := pwrChanged ((cycResume (cycRebase s)).wr (Reg.PWR_DOM_STATE n) 0)

/-- Neither the domain's rise nor an access waits for it any more. -/
def riseOver (n : Nat) (s : State) : State := pwrMod (fun p => { p with rise := p.rise.filter (fun r => !(r.dom == n)), waits := p.waits.filter (fun w => !(w.dom == n)) }) s

theorem domReady_eq (n from_ : Nat) (s : State) : domReady n from_ s = voteChanged n (riseOver n (domRestored n from_ (domShown n s))) := rfl

theorem foldl_coreStart_parts (l : List Nat) (s : State) : partsOnly [.cores] s (l.foldl (fun t i => coreStart (5 + i) t) s) :=
  foldl_keeps (partsOnly [.cores] s) _ _ _ (fun t i h => coreStart_parts (5 + i) t s h rfl) (partsOnly_refl _ s)

/-- A domain's return leaves the power controller's registers, its rises and waits, and every event. -/
theorem domRestored_keeps (n from_ : Nat) (s : State) :
    (∀ f, ofPwr f → (domRestored n from_ s).rd f = s.rd f) ∧ (domRestored n from_ s).pwr.rise = s.pwr.rise ∧ (domRestored n from_ s).pwr.waits = s.pwr.waits ∧ (domRestored n from_ s).flight = s.flight := by
  have hparts {l : List Piece} {u : State} (h : partsOnly l s u) (hp : Piece.pwr ∉ l) (hf : Piece.flight ∉ l) (hrd : ∀ f, ofPwr f → u.rd f = s.rd f) :
      (∀ f, ofPwr f → u.rd f = s.rd f) ∧ u.pwr.rise = s.pwr.rise ∧ u.pwr.waits = s.pwr.waits ∧ u.flight = s.flight :=
    ⟨hrd, congrArg Pwr.rise (h .pwr hp), congrArg Pwr.waits (h .pwr hp), h .flight hf⟩
  have hradio {f : Field} (hf : ofPwr f) : ¬ isRadio f := by
    obtain ⟨h1, h2, h3⟩ := hf
    simp only [isRadio, mshKey, Field.key]
    omega
  have hkeep := hparts (partsOnly_refl [] s) (by simp) (by simp) fun _ _ => rfl
  unfold domRestored
  split
  · split
    · refine hparts (firnRestore_parts s s (partsOnly_refl [.firn, .regs] s) rfl) (by decide) (by decide) fun f hf => ?_
      obtain ⟨h1, h2, h3⟩ := hf
      unfold firnRestore
      dsimp only
      rw [State.rd_wr_other _ _ (by simp only [Field.key, Reg.FIRN_STAT_STATE]; omega), State.rd_withFirn]
    · split
      · exact ⟨fun _ _ => rfl, rfl, rfl, rfl⟩
      · exact hkeep
  · exact hparts (wurConfig_parts s s (partsOnly_refl [.regs] s) rfl) (by decide) (by decide) fun f hf => wurConfig_rd (hradio hf) s
  · split
    · exact ⟨fun _ _ => rfl, rfl, rfl, rfl⟩
    · exact hkeep
  · split
    · exact hparts (foldl_coreStart_parts _ s) (by decide) (by decide) fun f _ => rd_of_regs (foldl_coreStart_parts _ s .regs (by decide)) f
    · exact hkeep
  · split
    · exact ⟨fun _ _ => rfl, rfl, rfl, rfl⟩
    · exact hkeep
  · split
    · exact hparts (mshConfig_parts _ s s (partsOnly_refl [.msh, .regs] s) rfl) (by decide) (by decide) fun f hf => mshConfig_rd (hradio hf) _ s
    · exact hkeep
  · exact ⟨fun _ _ => rfl, rfl, rfl, rfl⟩
  · split
    · exact ⟨fun _ _ => rfl, rfl, rfl, rfl⟩
    · exact hkeep

theorem domShown_reads (n : Nat) (s : State) : (domShown n s).rd (Reg.PWR_DOM_STATE n) = 0 ∧ (domShown n s).rd Reg.PWR_STAT_CHANGED = 1 ∧ 103 ∈ (domShown n s).flight := by
  refine ⟨?_, State.rd_wr_same _ _ _, List.mem_append_right _ (List.mem_singleton_self _)⟩
  rw [domShown, pwrChanged, State.rd_raise, State.set1, State.rd_wr_other _ _ (by simp only [Field.key, Reg.PWR_DOM_STATE, Reg.PWR_STAT_CHANGED]; omega), State.rd_wr_same]
  rfl

theorem domain_ready (n dt : Nat) (thaw : Bool) (r : Rise) (s : State) (h1 : 1 ≤ n) (hn : n ≤ 14) (hok : readyOk n thaw (s.pass dt) = true) (hr : riseOf s n = some r) :
    completes (if thaw then .thawReady n dt else .domainUp n dt) s (fun t => t.rd (Reg.PWR_DOM_STATE n) = 0 ∧ t.rd Reg.PWR_STAT_CHANGED = 1 ∧ 103 ∈ t.flight ∧ riseOf t n = none ∧ (∀ w ∈ t.pwr.waits, w.dom ≠ n) ∧
      memSame s t) := by
  have hdone : riseDone n (s.pass dt) = domReady n r.from_ (s.pass dt) := by rw [riseDone, show riseOf (s.pass dt) n = some r from hr]
  suffices h : _ by
    cases thaw
    · exact completes_of_onlyIf rfl hok h
    · exact completes_of_onlyIf rfl hok h
  have hmem : (domReady n r.from_ (s.pass dt)).mem = s.mem :=
    domReady_parts n r.from_ _ _ (partsOnly_refl [.cores, .msh, .firn, .regs, .pwr, .flight, .sig] (s.pass dt)) rfl .mem (by decide)
  obtain ⟨hstate, hchanged, hevent⟩ := domShown_reads n (s.pass dt)
  rw [hdone]
  rw [domReady_eq] at hmem ⊢
  generalize domShown n (s.pass dt) = u at hstate hchanged hevent hmem ⊢
  obtain ⟨hrd, -, -, hfl⟩ := domRestored_keeps n r.from_ u
  have hstate' := (hrd _ (ofPwr_state n hn)).trans hstate
  have hchanged' := (hrd _ ofPwr_changed).trans hchanged
  generalize domRestored n r.from_ u = v at hstate' hchanged' hfl hmem ⊢
  have hon : (riseOver n v).rd (Reg.PWR_DOM_STATE n) = 0 := hstate'
  obtain ⟨hs, hrise, hsub⟩ := voteChanged_of_on h1 hn hon
  have hrest := pwrRest_voteChanged n (riseOver n v)
  refine ⟨hs, ?_, hsub (by rw [show (riseOver n v).flight = u.flight from hfl]; exact hevent), ?_, fun w hw => ?_, fun a => congrArg (memRd · a) hmem⟩
  · rw [voteChanged_rd _ _ _ (by decide) (by decide) (by decide) (by simp only [Field.key, Reg.PWR_STAT_CHANGED, Reg.PWR_DOM_STATE]; omega) (by simp only [Field.key, Reg.PWR_STAT_CHANGED, Reg.PWR_DOM_TARGET]; omega)
      (by simp only [Field.key, Reg.PWR_STAT_CHANGED, Reg.PWR_DOM_HELD]; omega) (by decide)]
    exact hchanged'
  · rw [riseOf, hrise, List.find?_eq_none]
    intro x hx
    obtain ⟨-, hne⟩ := List.mem_filter.1 hx
    simpa using hne
  · have hwaits : (voteChanged n (riseOver n v)).pwr.waits = (riseOver n v).pwr.waits := (congrArg Pwr.waits hrest : (pwrRest _).waits = (pwrRest _).waits)
    rw [hwaits] at hw
    obtain ⟨-, hne⟩ := List.mem_filter.1 hw
    simpa using hne

end
end Sys2Proof.Machine

open Sys2Proof Sys2Proof.Machine

/-- Settles O54: the answers of a handshake, what an entry leaves, thaw stalls and a domain's return, each by its own lemma. -/
theorem powerDomains : Obligations.PowerDomains := by
  unfold Obligations.PowerDomains
  exact ⟨fun _ _ _ _ _ hi hh h1 hn hl => ⟨entry_agreed hi hh h1 hn hl, entry_refused hi hh h1 hn hl, entry_delayed hi hh, stop_acked hi hh, stop_refused hi hh⟩,
    delay_ends, entry_abandoned, thaw_stalls, domain_ready, thaw_times_out⟩
end

section
/-!
SUPPORT. The coordinator pair (R669 to R682): what a change of role shows, what the records and alarms leave, and each row of the link.
-/
namespace Sys2Proof.Machine

section
variable {fs : List Field} {s t z : State} {r reason dt : Nat}

/-! ### What an operation with notices and records leaves -/

/-- Of the registers outside the mailboxes', `t` differs from `z` in those listed at most, and every event on its way in `z` is so in `t`. -/
structure NoticeOnly (fs : List Field) (z t : State) : Prop where
  rd : ∀ f : Field, offMbx f → (∀ g ∈ fs, f.key ≠ g.key) → t.rd f = z.rd f
  flight : z.flight ⊆ t.flight

theorem noticeOnly_refl (fs : List Field) (s : State) : NoticeOnly fs s s := ⟨fun _ _ _ => rfl, fun _ h => h⟩

theorem noticeOnly_trans (h : NoticeOnly fs z s) (h' : NoticeOnly fs s t) : NoticeOnly fs z t :=
  ⟨fun f hm hf => (h'.rd f hm hf).trans (h.rd f hm hf), fun _ hx => h'.flight (h.flight hx)⟩

theorem noticeOnly_mono {gs : List Field} (h : NoticeOnly fs z s) (hg : ∀ f ∈ fs, f ∈ gs) : NoticeOnly gs z s := ⟨fun f hm hf => h.rd f hm fun g hgs => hf g (hg g hgs), h.flight⟩

theorem noticeOnly_same (h : NoticeOnly fs z s) (hr : t.regs = s.regs) (hf : t.flight = s.flight) : NoticeOnly fs z t :=
  noticeOnly_trans h ⟨fun f _ _ => rd_of_regs hr f, by rw [hf]; exact fun _ h => h⟩

theorem noticeOnly_wr (h : NoticeOnly fs z s) {f : Field} (v : Nat) (hf : f ∈ fs) : NoticeOnly fs z (s.wr f v) :=
  noticeOnly_trans h ⟨fun _ _ hg => State.rd_wr_other _ _ (hg f hf), fun _ h => h⟩

theorem noticeOnly_raise (h : NoticeOnly fs z s) (e : Nat) : NoticeOnly fs z (s.raise e) := ⟨h.rd, fun _ hx => List.mem_append_left _ (h.flight hx)⟩

theorem noticeOnly_ite {c : Prop} [Decidable c] (hs : NoticeOnly fs z s) (ht : NoticeOnly fs z t) : NoticeOnly fs z (if c then s else t) := by split <;> assumption

theorem noticeOnly_notice (h : NoticeOnly fs z s) (code bit : Nat) (p : List Nat) : NoticeOnly fs z (notice code bit p s) :=
  noticeOnly_trans h ⟨fun f hm _ => notice_rd _ _ _ _ f hm, by rw [notice_flight]; exact fun _ h => h⟩

theorem noticeOnly_healthPut (h : NoticeOnly fs z s) (hf : Reg.AGE_STAT_NEXT ∈ fs) (a b c d e g : Nat) : NoticeOnly fs z (healthPut a b c d e g s) :=
  noticeOnly_trans h ⟨fun f hm hg => healthPut_rd _ _ _ _ _ _ _ f hm (hg _ hf), by rw [healthPut_flight]; exact List.subset_append_left _ _⟩

theorem noticeOnly_alarm (h : NoticeOnly fs z s) {f : Field} (hf : f ∈ fs) (hw : Reg.AGE_STAT_WORST ∈ fs) (v : Bool) : NoticeOnly fs z (alarm f v s) := noticeOnly_wr (noticeOnly_wr h _ hf) _ hw

theorem alarm_rd_self (f : Field) (hf : f.key ≠ Reg.AGE_STAT_WORST.key) (hw : f.width = 1) (v : Bool) (s : State) : (alarm f v s).rd f = b2n v := by
  rw [alarm, State.rd_wr_other _ _ hf, State.rd_wr_same, hw]
  cases v <;> rfl

/-- The fields of the ALONE alarm and its record. -/
def aloneFields : List Field := [Reg.AGE_ALARMS_ALONE, Reg.AGE_STAT_WORST, Reg.AGE_STAT_NEXT]

theorem aloneRecord_only (s : State) : NoticeOnly aloneFields s (aloneRecord s) :=
  noticeOnly_alarm (noticeOnly_healthPut (noticeOnly_refl _ s) (by simp [aloneFields]) _ _ _ _ _ _) (by simp [aloneFields]) (by simp [aloneFields]) _

theorem aloneRecord_alarm (s : State) : (aloneRecord s).rd Reg.AGE_ALARMS_ALONE = 1 := alarm_rd_self _ (by decide) rfl _ _

theorem aloneRecord_parts_same (s : State) : partsOnly [.mboxes, .regs, .health, .heldNotices, .flight] s (aloneRecord s) := aloneRecord_parts s s (partsOnly_refl _ s) rfl

/-! ### A change of role (R674, R682) -/

/-- The fields that a change of role writes. -/
def roleFields : List Field := [Reg.MIR_STAT_ROLE, Reg.MSH_STAT_COORD, Reg.FIRN_STAT_ROOT, Reg.LNK_STAT_SHORT, Reg.LNK_STAT_JOINED, Reg.MIR_RESYNCCNT]

/-- What a change of role shows, before the count and the notice. -/
def roleShown (r reason : Nat) (s : State) : State :=
  let s1 := (mirMod (fun m => { m with reason := reason, lastSw := s.now, syncProg := if r = 3 then 0 else m.syncProg }) (s.wr Reg.MIR_STAT_ROLE r)).raise 146
  (((s1.wr Reg.MSH_STAT_COORD (b2n (serving r))).wr Reg.FIRN_STAT_ROOT (b2n (serving r))).wr Reg.LNK_STAT_SHORT (pairAddr s)).set1 Reg.LNK_STAT_JOINED

/-- A member that follows takes its time from the other. -/
def roleTimed (r : Nat) (s : State) : State := if r = 2 ∨ r = 3 then { s with firn := { s.firn with parent := .mirror, parentHops := 0 } } else s

theorem setRole_eq (hne : r ≠ mirRole s) (reason : Nat) :
    setRole r reason s = pairNotice (if r = 3 then (roleTimed r (roleShown r reason s)).inc Reg.MIR_RESYNCCNT else roleTimed r (roleShown r reason s)) := if_neg hne

/-- The fields by which a member shows its role. -/
def roleMarks : List Field := [Reg.MIR_STAT_ROLE, Reg.MSH_STAT_COORD, Reg.FIRN_STAT_ROOT, Reg.LNK_STAT_SHORT]

theorem offMbx_roleMarks : ∀ f ∈ roleMarks, offMbx f := by
  unfold offMbx
  decide

/-- What a change of role leaves behind. -/
structure RoleSet (fs : List Field) (r reason : Nat) (s t : State) : Prop where
  role : mirRole t = r
  coord : t.rd Reg.MSH_STAT_COORD = b2n (serving r)
  root : t.rd Reg.FIRN_STAT_ROOT = b2n (serving r)
  short : t.rd Reg.LNK_STAT_SHORT = pairAddr s % 2 ^ 16
  event : 146 ∈ t.flight
  mir : t.mir = { s.mir with reason := reason, lastSw := s.now, syncProg := if r = 3 then 0 else s.mir.syncProg }
  rest : NoticeOnly fs s t

theorem b2n_mod (b : Bool) : b2n b % 2 ^ 1 = b2n b := by cases b <;> rfl

theorem roleSet_roleShown (hr : r < 8) (reason : Nat) (s : State) : RoleSet roleFields r reason s (roleShown r reason s) := by
  refine ⟨?_, ?_, ?_, ?_, List.mem_append_right _ (List.mem_singleton_self _), rfl, ?_⟩
  · unfold mirRole roleShown
    rw [State.set1, State.rd_wr_other _ _ (by decide), State.rd_wr_other _ _ (by decide), State.rd_wr_other _ _ (by decide), State.rd_wr_other _ _ (by decide), State.rd_raise]
    exact (State.rd_wr_same _ _ _).trans (Nat.mod_eq_of_lt hr)
  · unfold roleShown
    rw [State.set1, State.rd_wr_other _ _ (by decide), State.rd_wr_other _ _ (by decide), State.rd_wr_other _ _ (by decide), State.rd_wr_same]
    exact b2n_mod _
  · unfold roleShown
    rw [State.set1, State.rd_wr_other _ _ (by decide), State.rd_wr_other _ _ (by decide), State.rd_wr_same]
    exact b2n_mod _
  · unfold roleShown
    rw [State.set1, State.rd_wr_other _ _ (by decide), State.rd_wr_same]
    rfl
  · refine noticeOnly_wr (noticeOnly_wr (noticeOnly_wr (noticeOnly_wr (noticeOnly_raise ?_ 146) _ ?_) _ ?_) _ ?_) _ ?_
    · exact noticeOnly_same (noticeOnly_wr (noticeOnly_refl _ s) r (by simp [roleFields])) rfl rfl
    all_goals simp [roleFields]

/-- What follows a change of role and keeps the role's own fields and the pair's data. -/
theorem RoleSet.after {gs : List Field} {u : State} (h : RoleSet fs r reason s t) (hu : NoticeOnly gs t u) (hgs : ∀ f ∈ roleMarks, ∀ g ∈ gs, f.key ≠ g.key) (hm : u.mir = t.mir) : RoleSet (fs ++ gs) r reason s u := by
  have hrd (f : Field) (hf : f ∈ roleMarks) : u.rd f = t.rd f := hu.rd f (offMbx_roleMarks f hf) (hgs f hf)
  exact ⟨(hrd _ (by simp [roleMarks])).trans h.role, (hrd _ (by simp [roleMarks])).trans h.coord, (hrd _ (by simp [roleMarks])).trans h.root, (hrd _ (by simp [roleMarks])).trans h.short, hu.flight h.event, hm.trans h.mir,
    noticeOnly_trans (noticeOnly_mono h.rest fun _ hf => List.mem_append_left _ hf) (noticeOnly_mono hu fun _ hg => List.mem_append_right _ hg)⟩

/-- A change of role shows the role, its services and address, its event and its notice. -/
theorem roleSet_setRole (hr : r < 8) (hne : r ≠ mirRole s) (reason : Nat) : RoleSet (roleFields ++ [Reg.MIR_RESYNCCNT]) r reason s (setRole r reason s) := by
  have hshown := roleSet_roleShown hr reason s
  rw [setRole_eq hne]
  generalize roleShown r reason s = u at hshown ⊢
  have htimed : NoticeOnly [Reg.MIR_RESYNCCNT] u (roleTimed r u) := by
    unfold roleTimed
    refine noticeOnly_ite ?_ (noticeOnly_refl _ _)
    exact noticeOnly_same (noticeOnly_refl _ _) rfl rfl
  have hmir : (roleTimed r u).mir = u.mir := by
    unfold roleTimed
    split <;> rfl
  refine hshown.after (noticeOnly_notice (noticeOnly_ite (noticeOnly_wr htimed _ (by simp)) htimed) _ _ _) (by decide) ?_
  refine (pairNotice_parts _ _ (partsOnly_refl [.mboxes, .regs, .heldNotices] _) rfl .mir (by decide)).trans ?_
  rw [← hmir]
  split <;> rfl

/-- A change of role that is recorded with the ALONE alarm. -/
theorem RoleSet.alone (h : RoleSet fs r reason s t) : RoleSet (fs ++ aloneFields) r reason s (aloneRecord t) :=
  h.after (aloneRecord_only t) (by decide) (aloneRecord_parts_same t .mir (by decide))

theorem setRole_parts_same (r reason : Nat) (s : State) : partsOnly [.mboxes, .firn, .regs, .heldNotices, .flight, .mir] s (setRole r reason s) := setRole_parts r reason s s (partsOnly_refl _ s) rfl

/-! ### The heartbeats (R670, R675, R680) -/

theorem heartbeat_sent (dt : Nat) (s : State) (hok : heartbeatSendOk (s.pass dt) = true) (hdeg : s.on Reg.AGE_ALARMS_MIRDEG = false) :
    completes (.heartbeatSend dt) s (fun t => t.mir = { s.mir with hbAt := s.elapsed + dt, hbOut := (s.rd Reg.MIR_STAT_ROLE, s.rd Reg.MIR_STAT_EPOCH, (s.pass dt).now) } ∧ changesOnly [] [.mir] (s.pass dt) t) := by
  have hkeep (u : State) (hu : u.on Reg.AGE_ALARMS_MIRDEG = false) : mirDegClear u = u := by
    unfold mirDegClear
    split
    · rw [if_neg (by rw [hu]; simp)]
    · rfl
  refine completes_of_onlyIf rfl hok ?_
  rw [heartbeatSend, hkeep (mirMod _ (s.pass dt)) hdeg]
  exact ⟨rfl, (changesOnly_refl _ _ _).withMir _ (by simp)⟩

/-- A heartbeat is noted. -/
def hbNoted (h : HbIn) (s : State) : State := mirMod (fun m => { m with lastFrame := some s.elapsed, peerRole := h.role, peerEpoch := h.epoch, beaconHeard := none }) s

/-- A standby takes its time from the active member. -/
def hbTimed (h : HbIn) (s : State) : State :=
  if (mirRole s = 2 ∨ mirRole s = 3) ∧ serving h.role then firnSample ((s.now : Int) - h.time) (s.wr Reg.MIR_STAT_EPOCH h.epoch) else s

theorem heartbeatReceive_eq (h : HbIn) (s : State) (hlink : linkCode (lanesUp s) = mirLink s) (hsw : h.switchAt = none) : heartbeatReceive h s = pairJudge h (hbTimed h (hbNoted h s)) := by
  have hset : setLink (linkCode (lanesUp s)) (hbNoted h s) = hbNoted h s := if_pos hlink
  unfold heartbeatReceive
  rw [show mirMod (fun m => { m with lastFrame := some s.elapsed, peerRole := h.role, peerEpoch := h.epoch, beaconHeard := none }) s = hbNoted h s from rfl, hset, hsw]
  rfl

section
variable (h : HbIn) (dt : Nat) (s : State) (hok : heartbeatReceiveOk (s.pass dt) = true) (hlink : linkCode (lanesUp s) = mirLink s) (ha : h.agree = true) (hsw : h.switchAt = none) (he : h.epoch < 2 ^ 16)
include hok hlink hsw

theorem heard_of (P : State → Prop) (hP : P (pairJudge h (hbTimed h (hbNoted h (s.pass dt))))) : completes (.heartbeatReceive h dt) s P := by
  refine completes_of_onlyIf rfl hok ?_
  rw [heartbeatReceive_eq h (s.pass dt) hlink hsw]
  exact hP

omit hok hlink hsw in
/-- A member that serves, or follows no one, takes no time from a heartbeat. -/
theorem hbTimed_of_role {u : State} (hr : ¬ (mirRole u = 2 ∨ mirRole u = 3)) : hbTimed h u = u := if_neg fun hc => hr hc.1

include ha he

theorem standby_heard (hrole : mirRole s = 2) (hserv : serving h.role = true) :
    completes (.heartbeatReceive h dt) s (fun t => mirRole t = 2 ∧ mirEpoch t = h.epoch ∧ t.mir.lastFrame = some (s.elapsed + dt)) := by
  refine heard_of h dt s hok hlink hsw _ ?_
  have htimed : hbTimed h (hbNoted h (s.pass dt)) = firnSample (((hbNoted h (s.pass dt)).now : Int) - h.time) ((hbNoted h (s.pass dt)).wr Reg.MIR_STAT_EPOCH h.epoch) := if_pos ⟨.inl hrole, hserv⟩
  have hpast {f : Field} (hk : 32 * 0x40140000 ≤ f.key) (u : State) (e : Int) : (firnSample e u).rd f = u.rd f :=
    firnSample_rd_past ⟨by simp only [firnEnd]; omega, .inr (by omega)⟩ e u
  have hmir : (hbTimed h (hbNoted h (s.pass dt))).mir = (hbNoted h (s.pass dt)).mir := by
    rw [htimed]
    exact firnSample_parts _ _ ((hbNoted h (s.pass dt)).wr Reg.MIR_STAT_EPOCH h.epoch) (partsOnly_refl [.mboxes, .firn, .regs, .freeCtr, .heldNotices, .flight] _) rfl .mir (by decide)
  have hrole2 : mirRole (hbTimed h (hbNoted h (s.pass dt))) = 2 := by
    rw [mirRole, htimed, hpast (by decide), State.rd_wr_other _ _ (by decide)]
    exact hrole
  have hepoch : mirEpoch (hbTimed h (hbNoted h (s.pass dt))) = h.epoch := by
    rw [mirEpoch, htimed, hpast (by decide), State.rd_wr_same]
    exact Nat.mod_eq_of_lt he
  generalize hbTimed h (hbNoted h (s.pass dt)) = u at hmir hrole2 hepoch ⊢
  have hj : pairJudge h u = u := by
    unfold pairJudge
    simp only [ha, hrole2]
    rfl
  rw [hj]
  exact ⟨hrole2, hepoch, congrArg Mir.lastFrame hmir⟩

theorem idle_hears_serving (hrole : mirRole s = 0) (hserv : serving h.role = true) : completes (.heartbeatReceive h dt) s (fun t => mirRole t = 3 ∧ mirEpoch t = h.epoch ∧ 146 ∈ t.flight) := by
  refine heard_of h dt s hok hlink hsw _ ?_
  have hrole' : mirRole (hbNoted h (s.pass dt)) = 0 := hrole
  rw [hbTimed_of_role h (by rw [hrole']; decide)]
  have hj : pairJudge h (hbNoted h (s.pass dt)) = setRole 3 0 ((hbNoted h (s.pass dt)).wr Reg.MIR_STAT_EPOCH h.epoch) := by
    unfold pairJudge
    simp only [ha, hrole', hserv]
    rfl
  rw [hj]
  have hne : mirRole ((hbNoted h (s.pass dt)).wr Reg.MIR_STAT_EPOCH h.epoch) = 0 := (State.rd_wr_other _ _ (by decide)).trans hrole'
  have hset := roleSet_setRole (r := 3) (by decide) (by rw [hne]; decide) 0 (s := (hbNoted h (s.pass dt)).wr Reg.MIR_STAT_EPOCH h.epoch)
  refine ⟨hset.role, ?_, hset.event⟩
  rw [mirEpoch, hset.rest.rd _ (.inr (by decide)) (by decide), State.rd_wr_same]
  exact Nat.mod_eq_of_lt he

omit he in
theorem idle_hears_idle (hrole : mirRole s = 0) (hpeer : h.role = 0 ∨ h.role = 3) : completes (.heartbeatReceive h dt) s (fun t => mirRole t = (if pairPrefer s then 1 else 3) ∧ 146 ∈ t.flight) := by
  refine heard_of h dt s hok hlink hsw _ ?_
  have hrole' : mirRole (hbNoted h (s.pass dt)) = 0 := hrole
  have hserv : serving h.role = false := by rcases hpeer with hp | hp <;> rw [hp] <;> rfl
  rw [hbTimed_of_role h (by rw [hrole']; decide)]
  have hj : pairJudge h (hbNoted h (s.pass dt)) = setRole (if pairPrefer s then 1 else 3) 0 (hbNoted h (s.pass dt)) := by
    unfold pairJudge
    simp only [ha, hrole', hserv, hpeer, and_self, if_true, true_or, Bool.not_true, Bool.false_eq_true, if_false]
    show (if pairPrefer s then _ else _) = _
    split <;> rfl
  rw [hj]
  have hset := roleSet_setRole (r := if pairPrefer s then 1 else 3) (by split <;> decide) (by rw [hrole']; split <;> decide) 0 (s := hbNoted h (s.pass dt))
  exact ⟨hset.role, hset.event⟩

omit he in
theorem alone_hears_standby (hrole : mirRole s = 4) (hpeer : h.role = 2) :
    completes (.heartbeatReceive h dt) s (fun t => mirRole t = 1 ∧ t.rd Reg.AGE_ALARMS_ALONE = 0 ∧ t.rd Reg.MSH_STAT_COORD = 1 ∧ t.rd Reg.FIRN_STAT_ROOT = 1) := by
  refine heard_of h dt s hok hlink hsw _ ?_
  have hrole' : mirRole (hbNoted h (s.pass dt)) = 4 := hrole
  rw [hbTimed_of_role h (by rw [hrole']; decide)]
  have hj : pairJudge h (hbNoted h (s.pass dt)) = alarm Reg.AGE_ALARMS_ALONE false (setRole 1 4 (hbNoted h (s.pass dt))) := by
    unfold pairJudge
    simp only [ha, hrole', hpeer]
    rfl
  rw [hj]
  have hset := roleSet_setRole (r := 1) (by decide) (by rw [hrole']; decide) 4 (s := hbNoted h (s.pass dt))
  have hquiet := hset.after (u := alarm Reg.AGE_ALARMS_ALONE false (setRole 1 4 (hbNoted h (s.pass dt)))) (noticeOnly_alarm (noticeOnly_refl aloneFields _) (by simp [aloneFields]) (by simp [aloneFields]) _) (by decide) rfl
  exact ⟨hquiet.role, alarm_rd_self _ (by decide) rfl _ _, hquiet.coord, hquiet.root⟩

theorem serving_hears_newer (hrole : serving (mirRole s) = true) (hserv : serving h.role = true) (hnew : epochAfter h.epoch (mirEpoch s) = true) :
    completes (.heartbeatReceive h dt) s (fun t => mirRole t = 3 ∧ mirEpoch t = h.epoch ∧ t.rfe.tx = none ∧ t.rfe.planned_ = []) := by
  refine heard_of h dt s hok hlink hsw _ ?_
  have hrole' : mirRole (hbNoted h (s.pass dt)) = mirRole s := rfl
  have hepoch' : mirEpoch (hbNoted h (s.pass dt)) = mirEpoch s := rfl
  have h14 : mirRole s = 1 ∨ mirRole s = 4 := by simpa [serving] using hrole
  rw [hbTimed_of_role h (by rw [hrole']; omega)]
  have hj : pairJudge h (hbNoted h (s.pass dt)) = setRole 3 3 (txStop ((hbNoted h (s.pass dt)).wr Reg.MIR_STAT_EPOCH h.epoch)) := by
    unfold pairJudge
    simp only [ha, hrole', hepoch', hrole, hserv, hnew, and_self, if_true, Bool.not_true, Bool.false_eq_true, if_false]
    rw [if_neg (by omega)]
  rw [hj]
  have hne : mirRole (txStop ((hbNoted h (s.pass dt)).wr Reg.MIR_STAT_EPOCH h.epoch)) = mirRole s := (State.rd_wr_other _ _ (by decide)).trans hrole'
  have hset := roleSet_setRole (r := 3) (by decide) (by rw [hne]; omega) 3 (s := txStop ((hbNoted h (s.pass dt)).wr Reg.MIR_STAT_EPOCH h.epoch))
  have hrfe := setRole_parts_same 3 3 (txStop ((hbNoted h (s.pass dt)).wr Reg.MIR_STAT_EPOCH h.epoch)) .rfe (by decide)
  refine ⟨hset.role, ?_, congrArg Rfe.tx hrfe, congrArg Rfe.planned_ hrfe⟩
  rw [mirEpoch, hset.rest.rd _ (.inr (by decide)) (by decide)]
  exact (State.rd_wr_same _ _ _).trans (Nat.mod_eq_of_lt he)

end

/-! ### Mirrored writes and the fence (R671, R673) -/

theorem changesOnly_mirLagShow {ps : List Piece} (h : changesOnly [Reg.MIR_LAG_NOW, Reg.MIR_LAG_MAX] ps z s) : changesOnly [Reg.MIR_LAG_NOW, Reg.MIR_LAG_MAX] ps z (mirLagShow s) := (h.wr _ (by simp)).wr _ (by simp)

theorem mirLagShow_now (s : State) : (mirLagShow s).rd Reg.MIR_LAG_NOW = mirLagUs s := by
  have hlt : mirLagUs s < 2 ^ 16 := by
    unfold mirLagUs
    split
    · decide
    · omega
  rw [mirLagShow, State.rd_wr_other _ _ (by decide), State.rd_wr_same]
  exact Nat.mod_eq_of_lt hlt

theorem mirror_write_applied (a dt : Nat) (l : List Nat) (w : MirWrite) (rest : List MirWrite) (s : State) (hok : mirrorWriteOk a l (s.pass dt) = true) (hserv : serving (mirRole s) = true) (hout : s.mir.out = w :: rest) :
    completes (.mirrorWrite a l dt) s (fun t => t.mir = { s.mir with out := rest } ∧ t.rd Reg.MIR_LAG_NOW = mirLagUs t ∧ changesOnly [Reg.MIR_LAG_NOW, Reg.MIR_LAG_MAX] [.mir] (s.pass dt) t) := by
  have hw : mirrorWrite a l (s.pass dt) = mirLagShow { mirLagShow (s.pass dt) with mir := { s.mir with out := rest } } := by
    have hmir : (mirLagShow (s.pass dt)).mir = s.mir := rfl
    unfold mirrorWrite
    rw [if_pos (show serving (mirRole (s.pass dt)) = true from hserv)]
    dsimp only [mirMod]
    rw [hmir]
    simp only [hout]
  refine completes_of_onlyIf rfl hok ?_
  rw [hw]
  exact ⟨rfl, mirLagShow_now _, changesOnly_mirLagShow ((changesOnly_mirLagShow (changesOnly_refl _ _ _)).withMir _ (by simp))⟩

theorem mirror_write_arrives (a dt : Nat) (l : List Nat) (s : State) (hok : mirrorWriteOk a l (s.pass dt) = true) (hrole : mirRole s = 2 ∨ mirRole s = 3) (hm : memWf s.mem = true) :
    completes (.mirrorWrite a l dt) s (fun t => (∀ i, i < l.length → (memRd t.mem (a + i)).toNat = l.getD i 0) ∧ (∀ x, x < a ∨ a + l.length ≤ x → memRd t.mem x = memRd s.mem x) ∧ changesOnly [] [.mem] (s.pass dt) t) := by
  have hserv : serving (mirRole (s.pass dt)) = false := by
    show serving (mirRole s) = false
    rcases hrole with hr | hr <;> rw [hr] <;> rfl
  have hw : mirrorWrite a l (s.pass dt) = (s.pass dt).stBytes a l := if_neg (by rw [hserv]; decide)
  have hbytes : ∀ x ∈ l, x < 256 := by
    simp only [mirrorWriteOk, hserv, Bool.false_and, Bool.false_or, Bool.and_eq_true] at hok
    simpa using hok.2.1.2
  refine completes_of_onlyIf rfl hok ?_
  rw [hw]
  refine ⟨fun i hi => ?_, fun x hx => memRd_memWrBytes_other _ _ _ _ hx, (changesOnly_refl _ _ _).withMem _ (by simp)⟩
  have hlt : l.getD i 0 < 256 := by
    rw [List.getD_eq_getElem?_getD, List.getElem?_eq_getElem hi]
    exact hbytes _ (List.getElem_mem hi)
  rw [show ((s.pass dt).stBytes a l).mem = memWrBytes s.mem a l from rfl, memRd_memWrBytes_at _ _ _ _ hm hi, BitVec.toNat_ofNat]
  exact Nat.mod_eq_of_lt hlt

theorem fence_completes (dt : Nat) (s : State) (hok : fenceCompleteOk (s.pass dt) = true) :
    completes (.fenceComplete dt) s (fun t => t.mir = { s.mir with fence := none } ∧ t.rd Reg.MIR_FENCE_FENCE = 0 ∧ (mirLink s = 0 → t.rd Reg.MIR_FENCE_FAIL = 1) ∧
      changesOnly (if mirLink s = 0 then [Reg.MIR_FENCE_FENCE, Reg.MIR_FENCE_FAIL] else [Reg.MIR_FENCE_FENCE]) [.mir] (s.pass dt) t) := by
  have hclr {gs : List Field} (hg : Reg.MIR_FENCE_FENCE ∈ gs) : changesOnly gs [.mir] (s.pass dt) (mirMod (fun m => { m with fence := none }) ((s.pass dt).clr Reg.MIR_FENCE_FENCE)) :=
    ((changesOnly_refl _ _ _).clr hg).withMir _ (by simp)
  have hzero : (mirMod (fun m => { m with fence := none }) ((s.pass dt).clr Reg.MIR_FENCE_FENCE)).rd Reg.MIR_FENCE_FENCE = 0 := State.rd_wr_same (s.pass dt) _ _
  refine completes_of_onlyIf rfl hok ?_
  unfold fenceComplete
  rw [show mirLink (s.pass dt) = mirLink s from rfl]
  by_cases hl : mirLink s = 0
  · simp only [if_pos hl]
    exact ⟨rfl, (State.rd_wr_other _ _ (by decide)).trans hzero, fun _ => State.rd_wr_same _ _ _, (hclr (by simp)).set1 (by simp)⟩
  · simp only [if_neg hl]
    exact ⟨rfl, hzero, fun h => absurd h hl, hclr (by simp)⟩

/-! ### The link's silence (R669, R679) -/

/-- The fields that a link which goes down writes. -/
def downFields : List Field := [Reg.MIR_STAT_LINK, Reg.AGE_ALARMS_MIRDEG, Reg.AGE_STAT_WORST, Reg.AGE_STAT_NEXT, Reg.MIR_FENCE_FENCE, Reg.MIR_FENCE_FAIL]

/-- The link is shown down, with the record and the notice, before a fence fails. -/
def linkLost (s : State) : State :=
  pairNotice (mirDeg 0 (mirMod (fun m => { m with downAt := some s.elapsed, bothAt := none }) ((s.wr Reg.MIR_STAT_LINK 0).raise 146)))

theorem setLink_down (h : mirLink s ≠ 0) :
    setLink 0 s = if (linkLost s).mir.fence.isSome then mirMod (fun m => { m with fence := none }) (((linkLost s).clr Reg.MIR_FENCE_FENCE).set1 Reg.MIR_FENCE_FAIL) else linkLost s := by
  unfold setLink
  rw [if_neg (fun he => h he.symm)]
  show (if 0 = 0 ∧ _ then _ else _) = _
  exact if_congr (and_iff_right rfl) rfl rfl

theorem linkLost_reads (s : State) :
    (linkLost s).rd Reg.MIR_STAT_LINK = 0 ∧ 146 ∈ (linkLost s).flight ∧ (linkLost s).mir = { s.mir with downAt := some s.elapsed, bothAt := none } ∧ NoticeOnly downFields s (linkLost s) := by
  have hshown : NoticeOnly downFields s (mirMod (fun m => { m with downAt := some s.elapsed, bothAt := none }) ((s.wr Reg.MIR_STAT_LINK 0).raise 146)) :=
    noticeOnly_same (noticeOnly_raise (noticeOnly_wr (noticeOnly_refl _ s) 0 (by simp [downFields])) 146) rfl rfl
  have hlink : (mirMod (fun m => { m with downAt := some s.elapsed, bothAt := none }) ((s.wr Reg.MIR_STAT_LINK 0).raise 146)).rd Reg.MIR_STAT_LINK = 0 := State.rd_wr_same s _ _
  have hev : 146 ∈ (mirMod (fun m => { m with downAt := some s.elapsed, bothAt := none }) ((s.wr Reg.MIR_STAT_LINK 0).raise 146)).flight := List.mem_append_right _ (List.mem_singleton_self _)
  have hmir : (mirMod (fun m => { m with downAt := some s.elapsed, bothAt := none }) ((s.wr Reg.MIR_STAT_LINK 0).raise 146)).mir = { s.mir with downAt := some s.elapsed, bothAt := none } := rfl
  unfold linkLost
  generalize mirMod (fun m => { m with downAt := some s.elapsed, bothAt := none }) ((s.wr Reg.MIR_STAT_LINK 0).raise 146) = u at hshown hlink hev hmir ⊢
  have hdeg : NoticeOnly [Reg.AGE_ALARMS_MIRDEG, Reg.AGE_STAT_WORST, Reg.AGE_STAT_NEXT] u (pairNotice (mirDeg 0 u)) :=
    noticeOnly_notice (noticeOnly_alarm (noticeOnly_healthPut (noticeOnly_refl _ _) (by simp) _ _ _ _ _ _) (by simp) (by simp) _) _ _ _
  have hsame : (pairNotice (mirDeg 0 u)).mir = u.mir :=
    pairNotice_parts _ u (mirDeg_parts 0 u u (partsOnly_refl [.mboxes, .regs, .health, .heldNotices, .flight] u) rfl) rfl .mir (by decide)
  exact ⟨(hdeg.rd _ (.inr (by decide)) (by decide)).trans hlink, hdeg.flight hev, hsame.trans hmir, noticeOnly_trans hshown (noticeOnly_mono hdeg (by simp [downFields]))⟩

/-- What a link that goes down leaves. -/
theorem setLink_down_reads (h : mirLink s ≠ 0) :
    mirLink (setLink 0 s) = 0 ∧ 146 ∈ (setLink 0 s).flight ∧ NoticeOnly downFields s (setLink 0 s) ∧ (s.mir.fence.isSome = true → (setLink 0 s).rd Reg.MIR_FENCE_FAIL = 1) ∧ (setLink 0 s).mir.fence = none := by
  obtain ⟨hlink, hev, hmir, hrest⟩ := linkLost_reads s
  have hfence : (linkLost s).mir.fence = s.mir.fence := by rw [hmir]
  rw [setLink_down h, hfence]
  generalize linkLost s = u at hlink hev hmir hrest hfence ⊢
  split
  · refine ⟨?_, hev, ?_, fun _ => State.rd_wr_same _ _ _, rfl⟩
    · exact (State.rd_wr_other _ _ (by decide)).trans ((State.rd_wr_other _ _ (by decide)).trans hlink)
    · exact noticeOnly_same (noticeOnly_wr (noticeOnly_wr hrest 0 (f := Reg.MIR_FENCE_FENCE) (by simp [downFields])) 1 (f := Reg.MIR_FENCE_FAIL) (by simp [downFields])) rfl rfl
  · next hnone =>
    refine ⟨hlink, hev, hrest, fun hs => absurd hs hnone, hfence.trans ?_⟩
    simpa using hnone

/-- The link has been silent: what waited for it is dropped. -/
def silenced (s : State) : State := mirMod (fun m => { m with beaconHeard := none, beaconAt := none, out := [], dirty := [] }) (setLink 0 s)

theorem mirror_falls_silent (dt : Nat) (s : State) (hok : mirrorSilenceOk (s.pass dt) = true) :
    completes (.mirrorSilence dt) s (fun t => mirLink t = 0 ∧ mirRole t = (if mirRole s = 1 then 4 else if mirRole s = 3 then 5 else mirRole s) ∧ t.mir.out = [] ∧ t.mir.dirty = [] ∧ 146 ∈ t.flight ∧
      (mirRole s = 1 → t.rd Reg.AGE_ALARMS_ALONE = 1) ∧ (s.mir.fence.isSome = true → t.rd Reg.MIR_FENCE_FAIL = 1 ∧ t.mir.fence = none)) := by
  have hup : mirLink (s.pass dt) ≠ 0 := by
    simp only [mirrorSilenceOk, Bool.and_eq_true, bne_iff_ne, ne_eq] at hok
    exact hok.1
  obtain ⟨hlink, hev, hrest, hfail, hfence⟩ := setLink_down_reads hup
  have hrole : mirRole (silenced (s.pass dt)) = mirRole s := hrest.rd _ (.inr (by decide)) (by decide)
  have hlink' : (silenced (s.pass dt)).rd Reg.MIR_STAT_LINK = 0 := hlink
  have hfail' : s.mir.fence.isSome = true → (silenced (s.pass dt)).rd Reg.MIR_FENCE_FAIL = 1 := hfail
  have hmir : (silenced (s.pass dt)).mir.out = [] ∧ (silenced (s.pass dt)).mir.dirty = [] ∧ (silenced (s.pass dt)).mir.fence = none := ⟨rfl, rfl, hfence⟩
  have hev' : 146 ∈ (silenced (s.pass dt)).flight := hev
  refine completes_of_onlyIf rfl hok ?_
  rw [show mirrorSilence (s.pass dt) = if mirRole (silenced (s.pass dt)) = 1 then aloneRecord (setRole 4 0 (silenced (s.pass dt))) else if mirRole (silenced (s.pass dt)) = 3 then setRole 5 3 (silenced (s.pass dt)) else silenced (s.pass dt) from rfl, hrole]
  generalize silenced (s.pass dt) = u at hrole hlink' hfail' hmir hev' ⊢
  obtain ⟨hout, hdirty, hnone⟩ := hmir
  by_cases h1 : mirRole s = 1
  · have hset := (roleSet_setRole (r := 4) (by decide) (by rw [hrole, h1]; decide) 0 (s := u)).alone
    have hrd (f : Field) (hf : offMbx f) (hg : ∀ g ∈ roleFields ++ [Reg.MIR_RESYNCCNT] ++ aloneFields, f.key ≠ g.key) := hset.rest.rd f hf hg
    have hm := hset.mir
    simp only [if_pos h1]
    exact ⟨(hrd _ (.inr (by decide)) (by decide)).trans hlink', hset.role, (congrArg Mir.out hm).trans hout, (congrArg Mir.dirty hm).trans hdirty, hset.event, fun _ => aloneRecord_alarm _,
      fun hs => ⟨(hrd _ (.inr (by decide)) (by decide)).trans (hfail' hs), (congrArg Mir.fence hm).trans hnone⟩⟩
  · simp only [if_neg h1]
    by_cases h3 : mirRole s = 3
    · have hset := roleSet_setRole (r := 5) (by decide) (by rw [hrole, h3]; decide) 3 (s := u)
      have hm := hset.mir
      simp only [if_pos h3]
      exact ⟨(hset.rest.rd _ (.inr (by decide)) (by decide)).trans hlink', hset.role, (congrArg Mir.out hm).trans hout, (congrArg Mir.dirty hm).trans hdirty, hset.event, fun h => absurd h h1,
        fun hs => ⟨(hset.rest.rd _ (.inr (by decide)) (by decide)).trans (hfail' hs), (congrArg Mir.fence hm).trans hnone⟩⟩
    · simp only [if_neg h3]
      exact ⟨hlink', hrole, hout, hdirty, hev', fun h => absurd h h1, fun hs => ⟨hfail' hs, hnone⟩⟩

/-! ### Pair beacons (R676 to R678) -/

theorem pair_beacon_sent (dt : Nat) (s : State) (hok : pairBeaconSendOk (s.pass dt) = true) :
    completes (.pairBeaconSend dt) s (fun t => t.mir = { s.mir with beaconAt := some (s.elapsed + dt), beaconN := s.mir.beaconN + 1 } ∧ mirRole t = mirRole s ∧ memSame s t) := by
  have hparts (m t freq mode : Nat) (u : State) := beaconSend_parts m t freq mode u u (partsOnly_refl [.regs, .rfe] u) rfl
  have hrole (m t freq mode : Nat) (u : State) : (beaconSend m t freq mode u).rd Reg.MIR_STAT_ROLE = u.rd Reg.MIR_STAT_ROLE := by
    unfold beaconSend
    split
    · rfl
    · rw [State.rd_inc_other _ (by decide)]
      exact rd_of_regs (planFrame_parts_same _ _ _ _ _ _ .regs (by decide)) _
  refine completes_of_onlyIf rfl hok ⟨?_, hrole _ _ _ _ _, fun a => congrArg (memRd · a) (hparts _ _ _ _ _ .mem (by decide))⟩
  unfold pairBeaconSend
  dsimp only [mirMod]
  rw [hparts _ _ _ _ _ .mir (by decide)]
  rfl

theorem opsFail_parts_same (s : State) : partsOnly [.mboxes] s (opsFail s) := opsFail_parts s s (partsOnly_refl _ s) rfl

/-- A pair beacon is noted. -/
def beaconNoted (s : State) : State := mirMod (fun m => { m with beaconHeard := some s.elapsed }) s

theorem pairBeaconHeard_eq (b : Nat) (s : State) : pairBeaconHeard b s =
    if mirRole s = 2 ∧ mirLink s = 0 then setRole 5 3 (beaconNoted s)
    else if serving (mirRole s) ∧ 0 < toSigned 8 (b + 256 - mirEpoch s % 256) then opsFail (setRole 5 3 (txStop (beaconNoted s))) else beaconNoted s := rfl

theorem pair_beacon_heard (b dt : Nat) (s : State) (hpair : pairOn s = true) :
    (mirRole s = 2 → mirLink s = 0 → completes (.pairBeaconHeard b dt) s (fun t => mirRole t = 5 ∧ t.rd Reg.MSH_STAT_COORD = 0 ∧ t.rd Reg.FIRN_STAT_ROOT = 0 ∧ 146 ∈ t.flight)) ∧
    (serving (mirRole s) = true → 0 < toSigned 8 (b + 256 - mirEpoch s % 256) → completes (.pairBeaconHeard b dt) s (fun t => mirRole t = 5 ∧ t.rfe.tx = none ∧ t.rfe.planned_ = [])) ∧
    (mirRole s = 3 ∨ mirRole s = 5 ∨ serving (mirRole s) = true ∧ toSigned 8 (b + 256 - mirEpoch s % 256) ≤ 0 →
      completes (.pairBeaconHeard b dt) s (fun t => t.mir = { s.mir with beaconHeard := some (s.elapsed + dt) } ∧ changesOnly [] [.mir] (s.pass dt) t)) := by
  have hok : pairBeaconHeardOk (s.pass dt) = true := hpair
  have hrole : mirRole (s.pass dt) = mirRole s := rfl
  have hlink : mirLink (s.pass dt) = mirLink s := rfl
  have hepoch : mirEpoch (s.pass dt) = mirEpoch s := rfl
  have hserves : serving (mirRole s) = true → mirRole s = 1 ∨ mirRole s = 4 := by simp [serving]
  refine ⟨fun h2 h0 => completes_of_onlyIf rfl hok ?_, fun hserv hlate => completes_of_onlyIf rfl hok ?_, fun hquiet => completes_of_onlyIf rfl hok ?_⟩
  · rw [pairBeaconHeard_eq, hrole, hlink, if_pos ⟨h2, h0⟩]
    have hset := roleSet_setRole (r := 5) (by decide) (by show 5 ≠ mirRole s; rw [h2]; decide) 3 (s := beaconNoted (s.pass dt))
    exact ⟨hset.role, hset.coord, hset.root, hset.event⟩
  · have h14 := hserves hserv
    rw [pairBeaconHeard_eq, hrole, hlink, hepoch, if_neg (fun hc => by omega), if_pos ⟨hserv, hlate⟩]
    have hset := roleSet_setRole (r := 5) (by decide) (by show 5 ≠ mirRole s; omega) 3 (s := txStop (beaconNoted (s.pass dt)))
    have hrfe := setRole_parts_same 5 3 (txStop (beaconNoted (s.pass dt))) .rfe (by decide)
    generalize setRole 5 3 (txStop (beaconNoted (s.pass dt))) = u at hset hrfe ⊢
    have hfail := opsFail_parts_same u
    exact ⟨(rd_of_regs (hfail .regs (by decide)) _).trans hset.role, (congrArg Rfe.tx (hfail .rfe (by decide))).trans (congrArg Rfe.tx hrfe), (congrArg Rfe.planned_ (hfail .rfe (by decide))).trans (congrArg Rfe.planned_ hrfe)⟩
  · have hnot : ¬ (serving (mirRole s) = true ∧ 0 < toSigned 8 (b + 256 - mirEpoch s % 256)) := by
      rintro ⟨hserv, hpos⟩
      have h14 := hserves hserv
      omega
    have h2 : mirRole s ≠ 2 := by
      rcases hquiet with h | h | ⟨h, -⟩
      · omega
      · omega
      · have h14 := hserves h
        omega
    rw [pairBeaconHeard_eq, hrole, hlink, hepoch, if_neg (fun hc => h2 hc.1), if_neg hnot]
    exact ⟨rfl, (changesOnly_refl _ _ _).withMir _ (by simp)⟩

/-! ### Takeover, serving alone and synchronisation (R675, R677, R679) -/

/-- Comparators 2 to 7, which the coordinator's actions use. -/
theorem freeCmp_range {n : Nat} (h : freeCmp s = some n) : 2 ≤ n ∧ n < 8 := by
  have hm := List.mem_of_find?_eq_some h
  simp only [List.mem_map, List.mem_range] at hm
  obtain ⟨i, -, rfl⟩ := hm
  omega

/-- A field none of the comparators' registers holds. -/
def offCmp (f : Field) : Prop := f.key < 32 * 0x40020100 ∨ 32 * 0x40020300 ≤ f.key

theorem lumArmCmp_rd {n : Nat} (hn : n < 32) (a : Nat) (s : State) {f : Field} (hf : offCmp f) : (lumArmCmp n a s).rd f = s.rd f := by
  have hne {g : Field} (hg : 32 * 0x40020100 ≤ g.key ∧ g.key < 32 * 0x40020300) (v : Nat) (u : State) : (u.wr g v).rd f = u.rd f := State.rd_wr_other _ _ (by unfold offCmp at hf; omega)
  rw [lumArmCmp, cmpArm_rd, State.set1, hne (by simp only [Field.key, Reg.FIRN_CMP_CTL_ARM]; omega), hne (by simp only [Field.key, Reg.FIRN_CMP_CTL_CHAN]; omega), State.set1,
    hne (by simp only [Field.key, Reg.FIRN_CMP_CTL_CHEN]; omega), State.clr, hne (by simp only [Field.key, Reg.FIRN_CMP_CTL_LATESUP]; omega), hne (by simp only [Field.key, Reg.FIRN_CMP_THI]; omega),
    hne (by simp only [Field.key, Reg.FIRN_CMP_TLO]; omega)]

/-- Giving comparators to the waiting actions writes those comparators' registers alone. -/
theorem lumArm_rd (k : Nat) (s : State) {f : Field} (hf : offCmp f) : (lumArm k s).rd f = s.rd f := by
  induction k generalizing s with
  | zero => rfl
  | succ k ih =>
    unfold lumArm
    split
    · next hn =>
      obtain ⟨-, h8⟩ := freeCmp_range hn
      rw [ih, lumArmCmp_rd (by omega) _ _ hf]
      rfl
    · rfl

theorem lumArm_parts_same (k : Nat) (s : State) : partsOnly [.firn, .regs, .lum] s (lumArm k s) := lumArm_parts k s s (partsOnly_refl _ s) rfl

/-- The message numbers and nonces that a takeover raises. -/
def numbersRaised (s : State) : State :=
  { s with
    msh := { s.msh with mseq := (s.msh.mseq + 4096) % 2 ^ 24 }
    lnk := { s.lnk with epochs := s.lnk.epochs.map (fun x => { x with enonce := (x.enonce + 4096) % 2 ^ 32 }) } }

theorem numbersRaised_regs (s : State) : (numbersRaised s).regs = s.regs := by
  unfold numbersRaised
  rfl

/-- The state of a takeover before the member serves: the epoch and the numbers that rise. -/
def takeoverRaised (s : State) : State := numbersRaised (s.wr Reg.MIR_STAT_EPOCH ((mirEpoch s + 1) % 65536))

theorem takeoverRaised_rd (s : State) (f : Field) : (takeoverRaised s).rd f = (s.wr Reg.MIR_STAT_EPOCH ((mirEpoch s + 1) % 65536)).rd f := rd_of_regs (numbersRaised_regs _) f

theorem takeover_eq (s : State) : takeover s = aloneRecord (lumArm 6 ((healthPut 0 0xA 4 0 1 ((mirEpoch s + 1) % 65536) (setRole 4 1 (takeoverRaised s))).inc Reg.MIR_TAKEOVERCNT)) := rfl

theorem standby_takes_over (dt : Nat) (s : State) (hok : takeoverOk (s.pass dt) = true) :
    completes (.takeover dt) s (fun t => mirRole t = 4 ∧ mirEpoch t = (mirEpoch s + 1) % 65536 ∧ t.msh.mseq = (s.msh.mseq + 4096) % 2 ^ 24 ∧ t.lnk.epochs = s.lnk.epochs.map (fun x => { x with enonce := (x.enonce + 4096) % 2 ^ 32 }) ∧
      t.rd Reg.MIR_TAKEOVERCNT = satAdd 32 (s.rd Reg.MIR_TAKEOVERCNT) 1 ∧ t.rd Reg.AGE_ALARMS_ALONE = 1 ∧ t.rd Reg.MSH_STAT_COORD = 1 ∧ t.rd Reg.FIRN_STAT_ROOT = 1 ∧ t.rd Reg.LNK_STAT_SHORT = pairAddr s % 2 ^ 16) := by
  have hrole : mirRole s = 2 := by
    simp only [takeoverOk, Bool.and_eq_true, beq_iff_eq] at hok
    exact hok.1.1.1
  have hrole' : mirRole (takeoverRaised (s.pass dt)) = 2 := by
    rw [mirRole, takeoverRaised_rd, State.rd_wr_other _ _ (by decide)]
    exact hrole
  have hepoch : mirEpoch (takeoverRaised (s.pass dt)) = (mirEpoch s + 1) % 65536 := by
    rw [mirEpoch, takeoverRaised_rd, State.rd_wr_same]
    exact Nat.mod_mod _ _
  have hcnt : (takeoverRaised (s.pass dt)).rd Reg.MIR_TAKEOVERCNT = s.rd Reg.MIR_TAKEOVERCNT := by
    rw [takeoverRaised_rd, State.rd_wr_other _ _ (by decide)]
    rfl
  have hset := roleSet_setRole (r := 4) (by decide) (by rw [hrole']; decide) 1
  have hsetp := setRole_parts_same 4 1 (takeoverRaised (s.pass dt))
  have hmsh := congrArg Msh.mseq (hsetp .msh (by decide))
  have hlnk := congrArg Lnk.epochs (hsetp .lnk (by decide))
  have hepoch' := (hset.rest.rd Reg.MIR_STAT_EPOCH (.inr (by decide)) (by decide)).trans hepoch
  have hcnt' := (hset.rest.rd Reg.MIR_TAKEOVERCNT (.inr (by decide)) (by decide)).trans hcnt
  refine completes_of_onlyIf rfl hok ?_
  rw [takeover_eq]
  generalize setRole 4 1 (takeoverRaised (s.pass dt)) = u at hset hmsh hlnk hepoch' hcnt' ⊢
  have hput := noticeOnly_healthPut (noticeOnly_refl [Reg.AGE_STAT_NEXT] u) (by simp) 0 0xA 4 0 1 ((mirEpoch (s.pass dt) + 1) % 65536)
  have hputp := healthPut_parts 0 0xA 4 0 1 ((mirEpoch (s.pass dt) + 1) % 65536) u u (partsOnly_refl [.mboxes, .regs, .health, .heldNotices, .flight] u) rfl
  generalize healthPut 0 0xA 4 0 1 ((mirEpoch (s.pass dt) + 1) % 65536) u = v at hput hputp ⊢
  have harm (f : Field) (hf : offCmp f) : (lumArm 6 (v.inc Reg.MIR_TAKEOVERCNT)).rd f = (v.inc Reg.MIR_TAKEOVERCNT).rd f := lumArm_rd 6 _ hf
  have harmp := lumArm_parts_same 6 (v.inc Reg.MIR_TAKEOVERCNT)
  generalize lumArm 6 (v.inc Reg.MIR_TAKEOVERCNT) = w at harm harmp ⊢
  have halone := aloneRecord_only w
  have halonep := aloneRecord_parts_same w
  have hrd (f : Field) (hoff : offMbx f) (hcmp : offCmp f) (h1 : f.key ≠ Reg.MIR_TAKEOVERCNT.key) (h2 : ∀ g ∈ aloneFields, f.key ≠ g.key) : (aloneRecord w).rd f = u.rd f := by
    rw [halone.rd f hoff h2, harm f hcmp, State.rd_inc_other _ h1, hput.rd f hoff fun g hg => h2 g (by simp only [List.mem_singleton] at hg; rw [hg]; simp [aloneFields])]
  refine ⟨?_, ?_, ?_, ?_, ?_, aloneRecord_alarm w, ?_, ?_, ?_⟩
  · exact (hrd _ (.inr (by decide)) (.inr (by decide)) (by decide) (by decide)).trans hset.role
  · exact (hrd _ (.inr (by decide)) (.inr (by decide)) (by decide) (by decide)).trans hepoch'
  · exact (congrArg Msh.mseq ((halonep .msh (by decide)).trans ((harmp .msh (by decide)).trans (hputp .msh (by decide))))).trans hmsh
  · exact (congrArg Lnk.epochs ((halonep .lnk (by decide)).trans ((harmp .lnk (by decide)).trans (hputp .lnk (by decide))))).trans hlnk
  · rw [halone.rd _ (.inr (by decide)) (by decide), harm _ (.inr (by decide)), State.rd_inc_same, hput.rd _ (.inr (by decide)) (by decide), hcnt']
    rfl
  · exact (hrd _ (.inl (by decide)) (.inr (by decide)) (by decide) (by decide)).trans hset.coord
  · exact (hrd _ (.inl (by decide)) (.inl (by decide)) (by decide) (by decide)).trans hset.root
  · exact (hrd _ (.inl (by decide)) (.inr (by decide)) (by decide) (by decide)).trans hset.short

theorem starts_alone (dt : Nat) (s : State) (hok : startAloneOk (s.pass dt) = true) :
    completes (.startAlone dt) s (fun t => mirRole t = (if s.mir.beaconHeard.isSome then 5 else 4) ∧ 146 ∈ t.flight) := by
  have hrole : mirRole (s.pass dt) = 0 := by
    simp only [startAloneOk, Bool.and_eq_true, beq_iff_eq] at hok
    exact hok.1.1.1.2
  have hsync := roleSet_setRole (r := 5) (by decide) (by rw [hrole]; decide) 3 (s := s.pass dt)
  have halone := (roleSet_setRole (r := 4) (by decide) (by rw [hrole]; decide) 0 (s := s.pass dt)).alone
  refine completes_of_onlyIf rfl hok ?_
  unfold startAlone
  rw [show (s.pass dt).mir = s.mir from rfl]
  split
  · exact ⟨hsync.role, hsync.event⟩
  · exact ⟨halone.role, halone.event⟩

theorem sync_completes (dt : Nat) (s : State) (hok : syncCompleteOk (s.pass dt) = true) : completes (.syncComplete dt) s (fun t => mirRole t = 2 ∧ t.mir.syncProg = 100 ∧ t.mir.reason = 4 ∧ 146 ∈ t.flight) := by
  have hrole : mirRole (s.pass dt) = 3 := by
    simp only [syncCompleteOk, Bool.and_eq_true, beq_iff_eq] at hok
    exact hok.1
  have hset := roleSet_setRole (r := 2) (by decide) (by show 2 ≠ mirRole (s.pass dt); rw [hrole]; decide) 4 (s := mirMod (fun m => { m with syncProg := 100 }) (s.pass dt))
  exact completes_of_onlyIf rfl hok ⟨hset.role, congrArg Mir.syncProg hset.mir, congrArg Mir.reason hset.mir, hset.event⟩

/-! ### Planned switch (R681) -/

theorem switch_fences (dt : Nat) (w : MirSwitch) (s : State) (hok : switchFenceOk (s.pass dt) = true) (hw : s.mir.switch = some w) :
    completes (.switchFence dt) s (fun t => t.mir = { s.mir with switch := some { w with fence := 1 }, fence := some (s.mir.fence.getD s.mir.seq) } ∧ changesOnly [] [.mir] (s.pass dt) t) := by
  refine completes_of_onlyIf rfl hok ⟨?_, (changesOnly_refl _ _ _).withMir _ (by simp)⟩
  dsimp only [switchFence, mirMod]
  rw [show (s.pass dt).mir = s.mir from rfl, hw]
  rfl

/-- The answer of a planned switch to the operation that asked for it. -/
def switchAnswered (w : MirSwitch) (ok : Bool) (t : State) : State := match w.op with | some (m, tag) => if ok then opEnd m tag 3 0 [] t else opEnd m tag 4 Rc.TIMEOUT [] t | none => t

theorem switchAnswered_parts (w : MirSwitch) (ok : Bool) (t : State) : partsOnly [.mboxes] t (switchAnswered w ok t) := by
  unfold switchAnswered
  split
  · split <;> exact opEnd_partsOnly _ _ _ _ _ _
  · exact partsOnly_refl _ _

/-- The switch is taken out, and EPOCH rises. -/
def switchTaken (s : State) : State := (mirMod (fun m => { m with switch := none }) s).wr Reg.MIR_STAT_EPOCH ((mirEpoch s + 1) % 65536)

theorem plannedSwitch_eq {w : MirSwitch} (hw : s.mir.switch = some w) : plannedSwitch s =
    if mirRole s = 1 ∧ w.fence = 1 ∧ s.mir.fence.isNone ∧ mirLink s ≠ 0 then switchAnswered w true (healthPut 0 0xA 4 0 2 ((mirEpoch s + 1) % 65536) (setRole 2 2 (switchTaken s)))
    else if mirRole s = 2 ∧ mirLink s ≠ 0 then switchAnswered w true (healthPut 0 0xA 4 0 2 ((mirEpoch s + 1) % 65536) (setRole 1 2 (switchTaken s)))
    else switchAnswered w false (mirMod (fun m => { m with switch := none }) s) := by
  unfold plannedSwitch
  rw [hw]
  rfl

/-- The roles exchange. -/
theorem switched (w : MirSwitch) (hr : r < 8) (hne : r ≠ mirRole s) :
    mirRole (switchAnswered w true (healthPut 0 0xA 4 0 2 ((mirEpoch s + 1) % 65536) (setRole r 2 (switchTaken s)))) = r ∧
      mirEpoch (switchAnswered w true (healthPut 0 0xA 4 0 2 ((mirEpoch s + 1) % 65536) (setRole r 2 (switchTaken s)))) = (mirEpoch s + 1) % 65536 ∧
      (switchAnswered w true (healthPut 0 0xA 4 0 2 ((mirEpoch s + 1) % 65536) (setRole r 2 (switchTaken s)))).mir.switch = none ∧
      (switchAnswered w true (healthPut 0 0xA 4 0 2 ((mirEpoch s + 1) % 65536) (setRole r 2 (switchTaken s)))).mir.reason = 2 := by
  have hrole : mirRole (switchTaken s) = mirRole s := State.rd_wr_other _ _ (by decide)
  have hepoch : (switchTaken s).rd Reg.MIR_STAT_EPOCH = (mirEpoch s + 1) % 65536 := (State.rd_wr_same _ _ _).trans (Nat.mod_mod _ _)
  have hset := roleSet_setRole hr (by rw [hrole]; exact hne) 2 (s := switchTaken s)
  have hepoch' := (hset.rest.rd _ (.inr (by decide)) (by decide)).trans hepoch
  generalize setRole r 2 (switchTaken s) = u at hset hepoch' ⊢
  have hput := noticeOnly_healthPut (noticeOnly_refl [Reg.AGE_STAT_NEXT] u) (by simp) 0 0xA 4 0 2 ((mirEpoch s + 1) % 65536)
  have hputp := healthPut_parts 0 0xA 4 0 2 ((mirEpoch s + 1) % 65536) u u (partsOnly_refl [.mboxes, .regs, .health, .heldNotices, .flight] u) rfl .mir (by decide)
  have hrec := hset.after hput (by decide) hputp
  have hepoch2 := (hput.rd Reg.MIR_STAT_EPOCH (.inr (by decide)) (by decide)).trans hepoch'
  generalize healthPut 0 0xA 4 0 2 ((mirEpoch s + 1) % 65536) u = v at hrec hepoch2 ⊢
  have hans := switchAnswered_parts w true v
  have hmir := (hans .mir (by decide)).trans hrec.mir
  have hrd (f : Field) : (switchAnswered w true v).rd f = v.rd f := rd_of_regs (hans .regs (by decide)) f
  exact ⟨(hrd _).trans hrec.role, (hrd _).trans hepoch2, congrArg Mir.switch hmir, congrArg Mir.reason hmir⟩

theorem switch_planned (dt : Nat) (w : MirSwitch) (s : State) (hok : plannedSwitchOk (s.pass dt) = true) (hw : s.mir.switch = some w) :
    (mirLink s ≠ 0 → mirRole s = 1 ∧ w.fence = 1 ∧ s.mir.fence = none ∨ mirRole s = 2 →
      completes (.plannedSwitch dt) s (fun t => mirRole t = 3 - mirRole s ∧ mirEpoch t = (mirEpoch s + 1) % 65536 ∧ t.mir.switch = none ∧ t.mir.reason = 2)) ∧
    (mirLink s = 0 ∨ mirRole s = 1 ∧ (w.fence ≠ 1 ∨ s.mir.fence.isSome = true) → w.op = none →
      completes (.plannedSwitch dt) s (fun t => t.mir = { s.mir with switch := none } ∧ changesOnly [] [.mir] (s.pass dt) t)) := by
  have heq := plannedSwitch_eq (s := s.pass dt) hw
  rw [show mirRole (s.pass dt) = mirRole s from rfl, show mirLink (s.pass dt) = mirLink s from rfl, show (s.pass dt).mir = s.mir from rfl] at heq
  refine ⟨fun hlink hrole => completes_of_onlyIf rfl hok ?_, fun hfail hop => completes_of_onlyIf rfl hok ?_⟩
  · rw [heq]
    rcases hrole with ⟨h1, hf, hn⟩ | h2
    · rw [if_pos ⟨h1, hf, by rw [hn]; rfl, hlink⟩, h1]
      exact switched (s := s.pass dt) w (by decide) (by show 2 ≠ mirRole s; rw [h1]; decide)
    · rw [if_neg (fun hc => by omega), if_pos ⟨h2, hlink⟩, h2]
      exact switched (s := s.pass dt) w (by decide) (by show 1 ≠ mirRole s; rw [h2]; decide)
  · have hfence : ¬ (mirRole s = 1 ∧ w.fence = 1 ∧ s.mir.fence.isNone ∧ mirLink s ≠ 0) := by
      rintro ⟨-, hf, hn, hl⟩
      rcases hfail with h0 | ⟨-, h | h⟩
      · exact hl h0
      · exact h hf
      · rw [Option.isSome_iff_ne_none, Option.isNone_iff_eq_none] at *
        exact h hn
    have hstandby : ¬ (mirRole s = 2 ∧ mirLink s ≠ 0) := by omega
    rw [heq, if_neg hfence, if_neg hstandby, switchAnswered, hop]
    exact ⟨rfl, (changesOnly_refl _ _ _).withMir _ (by simp)⟩

end
end Sys2Proof.Machine

open Sys2Proof Sys2Proof.Machine

/-- Settles O57: each row of the pair by its own lemma, over what a change of role leaves. -/
theorem coordinatorPair : Obligations.CoordinatorPair := by
  unfold Obligations.CoordinatorPair
  exact ⟨heartbeat_sent, fun h dt s hok hlink ha hsw he => ⟨standby_heard h dt s hok hlink ha hsw he, idle_hears_serving h dt s hok hlink ha hsw he, idle_hears_idle h dt s hok hlink ha hsw,
      alone_hears_standby h dt s hok hlink ha hsw, serving_hears_newer h dt s hok hlink ha hsw he⟩,
    mirror_write_applied, mirror_write_arrives, fence_completes, mirror_falls_silent, pair_beacon_sent, pair_beacon_heard, standby_takes_over, starts_alone, sync_completes, switch_fences, switch_planned⟩
end

section
/-!
SUPPORT. Serial frames (R605 to R616, R618, R623): the end of a frame, a frame that joins the receive FIFO, and the host's READ and WRITE frames.
-/
namespace Sys2Proof.Machine

section
variable {n dt : Nat} {s t z : State} {fs : List Field} {ps : List Piece}

/-! ### Flags, counts and the end of a frame (R606, R607, R609, R620, R625) -/

theorem changesOnly_spxFlag (h : changesOnly fs ps z s) (n : Nat) {flag : Field} (ien : Field) (hf : flag ∈ fs) (hp : Piece.flight ∈ ps) : changesOnly fs ps z (spxFlag n flag ien s) :=
  .ite (fun _ => h) fun _ => .ite (fun _ => (h.set1 hf).raise _ hp) fun _ => h.set1 hf

theorem spxFlag_set (n : Nat) (flag ien : Field) (hw : flag.width = 1) (s : State) : (spxFlag n flag ien s).rd flag = 1 := by
  have hone : (s.set1 flag).rd flag = 1 := by
    rw [State.set1, State.rd_wr_same, hw]
    rfl
  unfold spxFlag
  split
  · next hon => simpa [State.on] using hon
  · exact proj_ite (State.rd · flag) hone hone

theorem spxFlag_flight (n : Nat) (flag ien : Field) (s : State) : s.flight ⊆ (spxFlag n flag ien s).flight := by
  unfold spxFlag spxEvent
  split
  · exact fun _ h => h
  · split
    · exact List.subset_append_left _ _
    · exact fun _ h => h

theorem changesOnly_spxErr (h : changesOnly fs ps z s) (n : Nat) {cnt : Field} (always : Bool) (hf : cnt ∈ fs) (hp : Piece.flight ∈ ps) : changesOnly fs ps z (spxErr n cnt always s) :=
  .ite (fun _ => (h.inc hf).raise _ hp) fun _ => h.inc hf

theorem spxErr_counts (n : Nat) (cnt : Field) (always : Bool) (s : State) : (spxErr n cnt always s).rd cnt = satAdd cnt.width (s.rd cnt) 1 := by
  unfold spxErr
  exact proj_ite (State.rd · cnt) (State.rd_inc_same _ _) (State.rd_inc_same _ _)

theorem spxErr_event (n : Nat) (cnt : Field) (s : State) : 117 + n ∈ (spxErr n cnt true s).flight := by
  unfold spxErr
  rw [if_pos (.inl rfl)]
  exact List.mem_append_right _ (List.mem_singleton_self _)

theorem spxCommit_eq (n : Nat) (s : State) : spxCommit n s =
    (if s.rd (Reg.SPX_CFG_WSIZE n) = 3 ∨ (s.rd (Reg.SPX_PDAT_LEN n) + 1) % (8 * 2 ^ s.rd (Reg.SPX_CFG_WSIZE n)) ≠ 0 then s.set1 (Reg.SPX_STAT_CFGERR n) else s.commitFields (spxSFields n)).clr (Reg.SPX_CTL_APPLY n) := rfl

/-- A commit writes no shadow but APPLY and, refused, CFGERR. -/
theorem spxCommit_rd (n : Nat) (s : State) {f : Field} (hc : f.key ≠ (Reg.SPX_STAT_CFGERR n).key) (ha : f.key ≠ (Reg.SPX_CTL_APPLY n).key) : (spxCommit n s).rd f = s.rd f := by
  rw [spxCommit_eq, State.clr, State.rd_wr_other _ _ ha]
  refine proj_ite (State.rd · f) (State.rd_wr_other _ _ hc) ?_
  exact rd_of_regs (commitFields_frame s (spxSFields n) .regs (by decide)) f

/-- A frame's end before FRMEND: ACTIVE clears, and a commit that waits is made. -/
def spxIdle (n : Nat) (s : State) : State := if (s.clr (Reg.SPX_STAT_ACTIVE n)).on (Reg.SPX_CTL_APPLY n) then spxCommit n (s.clr (Reg.SPX_STAT_ACTIVE n)) else s.clr (Reg.SPX_STAT_ACTIVE n)

theorem spxFrameEnd_eq (n : Nat) (s : State) : spxFrameEnd n s = spxFlag n (Reg.SPX_STAT_FRMEND n) (Reg.SPX_IEN_FRMEND n) (spxIdle n s) := rfl

theorem spxIdle_rd (n : Nat) (s : State) {f : Field} (h : ∀ g ∈ [Reg.SPX_STAT_ACTIVE n, Reg.SPX_CTL_APPLY n, Reg.SPX_STAT_CFGERR n], f.key ≠ g.key) : (spxIdle n s).rd f = s.rd f := by
  simp only [List.forall_mem_cons, List.not_mem_nil, false_implies, implies_true, and_true] at h
  obtain ⟨hact, happly, hcfg⟩ := h
  have hclr : (s.clr (Reg.SPX_STAT_ACTIVE n)).rd f = s.rd f := State.rd_wr_other _ _ hact
  exact proj_ite (State.rd · f) ((spxCommit_rd n _ hcfg happly).trans hclr) hclr

theorem spxFlag_rd (n : Nat) (flag ien : Field) (s : State) {f : Field} (h : f.key ≠ flag.key) : (spxFlag n flag ien s).rd f = s.rd f :=
  (changesOnly_spxFlag (changesOnly_refl [flag] [.flight] s) n ien (by simp) (by simp)).rd f (by simpa using h)

/-- The fields that a frame's end writes. -/
def frameEndFields (n : Nat) : List Field := [Reg.SPX_STAT_ACTIVE n, Reg.SPX_CTL_APPLY n, Reg.SPX_STAT_CFGERR n, Reg.SPX_STAT_FRMEND n]

theorem spxFrameEnd_rd (n : Nat) (s : State) {f : Field} (h : ∀ g ∈ frameEndFields n, f.key ≠ g.key) : (spxFrameEnd n s).rd f = s.rd f := by
  rw [spxFrameEnd_eq, spxFlag_rd _ _ _ _ (h _ (by simp [frameEndFields])), spxIdle_rd _ _ fun g hg => h g ?_]
  simp only [List.mem_cons, List.not_mem_nil, or_false] at hg
  rcases hg with rfl | rfl | rfl <;> simp [frameEndFields]

theorem spxFrameEnd_reads (n : Nat) (s : State) :
    (spxFrameEnd n s).rd (Reg.SPX_STAT_ACTIVE n) = 0 ∧ (spxFrameEnd n s).rd (Reg.SPX_STAT_FRMEND n) = 1 ∧ (s.on (Reg.SPX_CTL_APPLY n) = true → (spxFrameEnd n s).rd (Reg.SPX_CTL_APPLY n) = 0) := by
  have hactive : (spxIdle n s).rd (Reg.SPX_STAT_ACTIVE n) = 0 := by
    have hclr : (s.clr (Reg.SPX_STAT_ACTIVE n)).rd (Reg.SPX_STAT_ACTIVE n) = 0 := State.rd_wr_same _ _ _
    refine proj_ite (State.rd · (Reg.SPX_STAT_ACTIVE n)) ((spxCommit_rd n _ ?_ ?_).trans hclr) hclr
    · simp only [Field.key, Reg.SPX_STAT_ACTIVE, Reg.SPX_STAT_CFGERR]; omega
    · simp only [Field.key, Reg.SPX_STAT_ACTIVE, Reg.SPX_CTL_APPLY]; omega
  have happly (h : s.on (Reg.SPX_CTL_APPLY n) = true) : (spxIdle n s).rd (Reg.SPX_CTL_APPLY n) = 0 := by
    have hon : (s.clr (Reg.SPX_STAT_ACTIVE n)).on (Reg.SPX_CTL_APPLY n) = true := by
      rw [State.on, State.clr, State.rd_wr_other _ _ (by simp only [Field.key, Reg.SPX_STAT_ACTIVE, Reg.SPX_CTL_APPLY]; omega)]
      exact h
    rw [spxIdle, if_pos hon, spxCommit_eq]
    exact State.rd_wr_same _ _ _
  rw [spxFrameEnd_eq]
  refine ⟨(spxFlag_rd _ _ _ _ ?_).trans hactive, spxFlag_set _ _ _ rfl _, fun h => (spxFlag_rd _ _ _ _ ?_).trans (happly h)⟩
  · simp only [Field.key, Reg.SPX_STAT_ACTIVE, Reg.SPX_STAT_FRMEND]; omega
  · simp only [Field.key, Reg.SPX_CTL_APPLY, Reg.SPX_STAT_FRMEND]; omega

theorem spxFrameEnd_parts_same (n : Nat) (s : State) : partsOnly [.com, .regs, .flight] s (spxFrameEnd n s) := spxFrameEnd_parts n s s (partsOnly_refl _ s) rfl

theorem spxFrameEnd_spxOf (n m : Nat) (s : State) : spxOf (spxFrameEnd n s) m = spxOf s m := by rw [spxOf, spxFrameEnd_parts_same n s .spx (by decide), spxOf]

theorem spxFrameEnd_flight (n : Nat) (s : State) : s.flight ⊆ (spxFrameEnd n s).flight := by
  have hidle : (spxIdle n s).flight = s.flight :=
    proj_ite State.flight (spxCommit_parts n _ _ (partsOnly_refl [.com, .regs] (s.clr (Reg.SPX_STAT_ACTIVE n))) rfl .flight (by decide)) rfl
  rw [spxFrameEnd_eq, ← hidle]
  exact spxFlag_flight _ _ _ _

/-! ### A frame joins the receive FIFO (R607, R623) -/

theorem spxKeep_same (h : n < s.spx.length) (f : SpxFrame) : spxOf (spxKeep n f s) n = { spxOf s n with rx := (spxOf s n).rx ++ [f] } := by
  have hshow : spxOf (spxShow n (spxMod n (fun p => { p with rx := p.rx ++ [f] }) s)) n = { spxOf s n with rx := (spxOf s n).rx ++ [f] } := (spxShow_spxOf n n _).trans (spxMod_same h _)
  exact proj_ite (spxOf · n) hshow hshow

theorem spxKeep_length (n : Nat) (f : SpxFrame) (s : State) : (spxKeep n f s).spx.length = s.spx.length := by
  have hshow : (spxShow n (spxMod n (fun p => { p with rx := p.rx ++ [f] }) s)).spx.length = s.spx.length := by rw [spxShow_spx, spxMod_length]
  exact proj_ite (fun t : State => t.spx.length) hshow hshow

theorem changesOnly_spxKeep (n : Nat) (f : SpxFrame) (s : State) : changesOnly (spxViewFields n) [.spx, .flight] s (spxKeep n f s) := by
  have hmod : changesOnly (spxViewFields n) [.spx, .flight] s (spxMod n (fun p => { p with rx := p.rx ++ [f] }) s) := (changesOnly_refl _ _ _).withSpx _ (by simp)
  have hshow := hmod.trans ((changesOnly_spxShow n (spxMod n (fun p => { p with rx := p.rx ++ [f] }) s)).mono (fun _ h => h) (by simp))
  exact .ite (fun _ => hshow.raise _ (by simp)) fun _ => hshow

/-- What time has moved of a port's own frame: its transmit words and the view; the received frames stand. -/
theorem spxAdvance_frame (n : Nat) (s : State) : changesOnly (spxViewFields n) [.spx] s (spxAdvance n s) ∧ (n < s.spx.length → (spxOf (spxAdvance n s) n).rx = (spxOf s n).rx) ∧ (spxAdvance n s).spx.length = s.spx.length := by
  unfold spxAdvance
  split
  · exact ⟨changesOnly_refl _ _ _, fun _ => rfl, rfl⟩
  · refine ⟨?_, fun h => ?_, ?_⟩
    · exact changesOnly.trans ((changesOnly_refl _ _ _).withSpx _ (by simp)) ((changesOnly_spxShow n _).mono (fun _ h => h) (by simp))
    · rw [spxShow_spxOf, spxMod_same h]
    · rw [spxShow_spx, spxMod_length]

/-! ### The end of a master frame (R605, R606) -/

/-- The frame that a master receives, and the state with its own frame over. -/
def masterRx (n : Nat) (data : List Nat) (r : SpxRun) (u : State) : State :=
  if r.rxBits = 0 then u else spxKeep n ⟨(List.range (cdiv r.rxBits (wsize u n))).map (fun i => (wsize u n, data.getD i 0 % 2 ^ wsize u n)), r.rxBits, false⟩ u

theorem masterEnd_eq {data : List Nat} {r : SpxRun} (hr : (spxOf (spxAdvance n s) n).run = some r) : masterEnd n data s =
    spxFrameEnd n (spxMod n (fun p => { p with run := none, gapEnd := now10 (spxAdvance n s) + (spxAdvance n s).rd (Reg.SPX_CFG_DIV n) + 1 }) (masterRx n data r (spxAdvance n s))) := by
  unfold masterEnd
  simp only [hr]
  rfl

theorem wsize_of {f : State} (h : changesOnly (spxViewFields n) ps s f) : wsize f n = wsize s n := by
  have hne : ∀ g ∈ spxViewFields n, (Reg.SPX_CFG_WSIZE n).key ≠ g.key := by
    simp only [spxViewFields, List.forall_mem_cons, List.not_mem_nil, false_implies, implies_true, and_true, Field.key, Reg.SPX_CFG_WSIZE, Reg.SPX_FIFO_RXFRM, Reg.SPX_FIFO_RXLVL, Reg.SPX_FIFO_TXLVL, Reg.SPX_STAT_TXEMPTY,
      Reg.SPX_STAT_RXAVAIL, Reg.SPX_RXFRM_VALID, Reg.SPX_RXFRM_OVERLEN, Reg.SPX_RXFRM_BITS]
    omega
  rw [wsize, (h.1 _ hne).2, wsize]

theorem apply_of_view {f : State} (h : changesOnly (spxViewFields n) ps s f) : f.rd (Reg.SPX_CTL_APPLY n) = s.rd (Reg.SPX_CTL_APPLY n) := by
  refine h.rd _ ?_
  simp only [spxViewFields, List.forall_mem_cons, List.not_mem_nil, false_implies, implies_true, and_true, Field.key, Reg.SPX_CTL_APPLY, Reg.SPX_FIFO_RXFRM, Reg.SPX_FIFO_RXLVL, Reg.SPX_FIFO_TXLVL, Reg.SPX_STAT_TXEMPTY,
    Reg.SPX_STAT_RXAVAIL, Reg.SPX_RXFRM_VALID, Reg.SPX_RXFRM_OVERLEN, Reg.SPX_RXFRM_BITS]
  omega

theorem master_frame_ends (n w dt : Nat) (data : List Nat) (r : SpxRun) (s : State) (hn : n < 2) (hlen : s.spx.length = 2) (hok : masterEndOk n (s.pass dt) = true) (hr : (spxOf (spxAdvance n (s.pass dt)) n).run = some r)
    (hw : w = wsize s n) :
    completes (.masterFrameEnd n data dt) s (fun t => (spxOf t n).run = none ∧ t.rd (Reg.SPX_STAT_ACTIVE n) = 0 ∧ t.rd (Reg.SPX_STAT_FRMEND n) = 1 ∧ (s.on (Reg.SPX_CTL_APPLY n) = true → t.rd (Reg.SPX_CTL_APPLY n) = 0) ∧
      (spxOf t n).rx = (if r.rxBits = 0 then (spxOf s n).rx else (spxOf s n).rx ++ [⟨(List.range (cdiv r.rxBits w)).map (fun i => (w, data.getD i 0 % 2 ^ w)), r.rxBits, false⟩])) := by
  subst hw
  obtain ⟨hadv, hrx, hlen'⟩ := spxAdvance_frame n (s.pass dt)
  have hin : n < (spxAdvance n (s.pass dt)).spx.length := by rw [hlen', show (s.pass dt).spx.length = 2 from hlen]; exact hn
  have hws : wsize (spxAdvance n (s.pass dt)) n = wsize s n := (wsize_of hadv : _ = wsize (s.pass dt) n)
  have happly : (spxAdvance n (s.pass dt)).rd (Reg.SPX_CTL_APPLY n) = s.rd (Reg.SPX_CTL_APPLY n) := (apply_of_view hadv : _ = (s.pass dt).rd (Reg.SPX_CTL_APPLY n))
  have hrx' := hrx (by rw [show (s.pass dt).spx.length = 2 from hlen]; exact hn)
  refine completes_of_onlyIf rfl hok ?_
  rw [masterEnd_eq hr]
  generalize now10 (spxAdvance n (s.pass dt)) + (spxAdvance n (s.pass dt)).rd (Reg.SPX_CFG_DIV n) + 1 = gap
  generalize spxAdvance n (s.pass dt) = u at hin hws happly hrx' ⊢
  have hkept : (masterRx n data r u).rd (Reg.SPX_CTL_APPLY n) = s.rd (Reg.SPX_CTL_APPLY n) ∧ n < (masterRx n data r u).spx.length ∧
      (spxOf (masterRx n data r u) n).rx = (if r.rxBits = 0 then (spxOf s n).rx else (spxOf s n).rx ++ [⟨(List.range (cdiv r.rxBits (wsize s n))).map (fun i => (wsize s n, data.getD i 0 % 2 ^ wsize s n)), r.rxBits, false⟩]) := by
    unfold masterRx
    split
    · exact ⟨happly, hin, hrx'⟩
    · refine ⟨(apply_of_view (changesOnly_spxKeep _ _ _)).trans happly, ?_, ?_⟩
      · rw [spxKeep_length]
        exact hin
      · rw [spxKeep_same hin, hws]
        exact congrArg (· ++ _) hrx'
  obtain ⟨happly', hin', hframes⟩ := hkept
  generalize masterRx n data r u = v at happly' hin' hframes ⊢
  obtain ⟨hact, hend, hcommit⟩ := spxFrameEnd_reads n (spxMod n (fun p => { p with run := none, gapEnd := gap }) v)
  rw [spxFrameEnd_spxOf, spxMod_same hin']
  exact ⟨rfl, hact, hend, fun h => hcommit (by rw [State.on]; exact (congrArg (· == 1) happly').trans h), hframes⟩

theorem slave_frame_starts (dt : Nat) (s : State) (hlen : s.spx.length = 2) (hrole : spxRole s 0 < 2) (hen : s.on (Reg.SPX_CTL_EN 0) = true) (hslave : (spxOf s 0).slave = false) :
    completes (.slaveFrameStart dt) s (fun t => spxOf t 0 = { spxOf s 0 with slave := true } ∧ t.rd (Reg.SPX_STAT_ACTIVE 0) = 1 ∧ changesOnly [Reg.SPX_STAT_ACTIVE 0] [.spx] (s.pass dt) t) := by
  have hok : (decide (spxRole (s.pass dt) 0 < 2) && (s.pass dt).on (Reg.SPX_CTL_EN 0) && !(spxOf (s.pass dt) 0).slave) = true := by
    have h1 : spxRole (s.pass dt) 0 < 2 := hrole
    have h2 : (s.pass dt).on (Reg.SPX_CTL_EN 0) = true := hen
    have h3 : (spxOf (s.pass dt) 0).slave = false := hslave
    simp [h1, h2, h3]
  refine completes_of_onlyIf rfl hok ⟨?_, State.rd_wr_same _ _ _, ((changesOnly_refl _ _ _).withSpx _ (by simp)).set1 (by simp)⟩
  exact spxMod_same (show 0 < s.spx.length by omega) _

/-! ### The end of a slave frame (R607 to R610) -/

/-- A frame's end once its bits have been taken. -/
def frameClosed (s : State) : State := spxFrameEnd 0 (spxMod 0 (fun p => { p with slave := false }) s)

theorem frameClosed_rd (s : State) {f : Field} (h : ∀ g ∈ frameEndFields 0, f.key ≠ g.key) : (frameClosed s).rd f = s.rd f := spxFrameEnd_rd 0 _ h

theorem frameClosed_mem (s : State) : (frameClosed s).mem = s.mem := spxFrameEnd_parts_same 0 (spxMod 0 (fun p => { p with slave := false }) s) .mem (by decide)

/-- A fragment's count and event outlast the end of the frame. -/
theorem frag_counted (u : State) :
    (frameClosed (spxErr 0 (Reg.SPX_ERR_FRAG 0) true u)).rd (Reg.SPX_ERR_FRAG 0) = satAdd (Reg.SPX_ERR_FRAG 0).width (u.rd (Reg.SPX_ERR_FRAG 0)) 1 ∧ 117 ∈ (frameClosed (spxErr 0 (Reg.SPX_ERR_FRAG 0) true u)).flight :=
  ⟨(frameClosed_rd _ (by decide)).trans (spxErr_counts 0 _ _ _), spxFrameEnd_flight _ _ (spxErr_event 0 (Reg.SPX_ERR_FRAG 0) u)⟩

theorem frameClosed_spxOf (u : State) (hlen : u.spx.length = 2) : spxOf (frameClosed u) 0 = { spxOf u 0 with slave := false } := by
  rw [frameClosed, spxFrameEnd_spxOf, spxMod_same (by omega)]

/-- The transmit words of a slave frame have gone out; an empty FIFO is counted. -/
def slaveSent (out want : Nat) (s : State) : State :=
  if out < want then spxErr 0 (Reg.SPX_ERR_UNDER 0) false (spxMod 0 (fun p => { p with tx := p.tx.drop out, sent := p.tx.take out }) s) else spxMod 0 (fun p => { p with tx := p.tx.drop out, sent := p.tx.take out }) s

theorem slaveSent_frame (out want : Nat) (s : State) : changesOnly [Reg.SPX_ERR_UNDER 0] [.spx, .flight] s (slaveSent out want s) := by
  have hmod : changesOnly [Reg.SPX_ERR_UNDER 0] [.spx, .flight] s (spxMod 0 (fun p => { p with tx := p.tx.drop out, sent := p.tx.take out }) s) := (changesOnly_refl _ _ _).withSpx _ (by simp)
  exact .ite (fun _ => changesOnly_spxErr hmod _ _ (by simp) (by simp)) fun _ => hmod

theorem slaveSent_spx (out want : Nat) (hlen : s.spx.length = 2) :
    spxOf (slaveSent out want s) 0 = { spxOf s 0 with tx := (spxOf s 0).tx.drop out, sent := (spxOf s 0).tx.take out } ∧ (slaveSent out want s).spx.length = 2 := by
  have hspx : (slaveSent out want s).spx = (spxMod 0 (fun p => { p with tx := p.tx.drop out, sent := p.tx.take out }) s).spx := by
    unfold slaveSent
    split
    · exact spxErr_parts _ _ _ _ _ (partsOnly_refl [.regs, .flight] _) rfl .spx (by decide)
    · rfl
  rw [spxOf, hspx, spxMod_length, hlen]
  exact ⟨spxMod_same (by omega) _, rfl⟩

/-- The state in which a slave frame's received bits are taken. -/
def slaveTaken (nbits sent w : Nat) (s : State) : State := slaveSent (min sent (min (cdiv nbits w) (spxOf s 0).tx.length)) (cdiv nbits w) s

/-- What becomes of a slave frame's received bits. -/
def slaveKept (nbits : Nat) (bytes : List Nat) (w : Nat) (s : State) : State :=
  let limit := s.rdC (Reg.SPX_PDAT_LEN 0) + 1
  let kept := min nbits limit
  let s3 := if limit < nbits then spxFlag 0 (Reg.SPX_STAT_OVERLEN 0) (Reg.SPX_IEN_OVERLEN 0) s else s
  if kept % w ≠ 0 ∨ nbits < w then spxErr 0 (Reg.SPX_ERR_FRAG 0) true s3
  else if !spxRoom s3 0 (kept / 8) then spxErr 0 (Reg.SPX_ERR_RXOVF 0) true s3
  else spxKeep 0 ⟨(List.range (kept / w)).map (fun i => (w, rxWord (s3.on (Reg.SPX_CFG_LSBF 0)) w i bytes)), kept, decide (limit < nbits)⟩ s3

theorem slaveRx_eq (nbits : Nat) (bytes : List Nat) (sent : Nat) (s : State) : slaveRx nbits bytes sent s = slaveKept nbits bytes (wsize s 0) (slaveTaken nbits sent (wsize s 0) s) := rfl

/-- A frame within the data phase. -/
theorem slaveKept_within {nbits w : Nat} {bytes : List Nat} (hlim : nbits ≤ s.rdC (Reg.SPX_PDAT_LEN 0) + 1) :
    slaveKept nbits bytes w s =
      if nbits % w ≠ 0 ∨ nbits < w then spxErr 0 (Reg.SPX_ERR_FRAG 0) true s
      else if !spxRoom s 0 (nbits / 8) then spxErr 0 (Reg.SPX_ERR_RXOVF 0) true s
      else spxKeep 0 ⟨(List.range (nbits / w)).map (fun i => (w, rxWord (s.on (Reg.SPX_CFG_LSBF 0)) w i bytes)), nbits, false⟩ s := by
  have hnot : ¬ s.rdC (Reg.SPX_PDAT_LEN 0) + 1 < nbits := by omega
  unfold slaveKept
  simp only [if_neg hnot, Nat.min_eq_left hlim, decide_eq_false hnot]

/-- Which of its three forms a slave frame's end takes (R54, R607, R703): outside recovery, a port that is a plain slave receives. -/
theorem slaveFrameEnd_plain {nbits sent : Nat} {bytes : List Nat} (hphase : bootPhase s ≠ 0xE) (hrole : spxRole s 0 ≠ 0) :
    slaveFrameEnd nbits bytes sent s = frameClosed (slaveRx nbits bytes sent s) := by
  unfold slaveFrameEnd
  rw [if_neg hphase, if_neg hrole]
  rfl

theorem slaveFrameEnd_host {nbits sent : Nat} {bytes : List Nat} (h3 : 3 ≤ bootPhase s) (hphase : bootPhase s ≠ 0xE) (hrole : spxRole s 0 = 0) :
    slaveFrameEnd nbits bytes sent s = frameClosed (hostFrame nbits bytes s) := by
  unfold slaveFrameEnd
  rw [if_neg hphase, if_pos hrole, if_neg (by omega)]
  rfl

/-- The words out of a slave frame leave its received frames, their room, its word order and its limit. -/
theorem slaveTaken_frame (nbits sent w : Nat) (hlen : s.spx.length = 2) :
    (slaveTaken nbits sent w s).rdC (Reg.SPX_PDAT_LEN 0) = s.rdC (Reg.SPX_PDAT_LEN 0) ∧ (slaveTaken nbits sent w s).on (Reg.SPX_CFG_LSBF 0) = s.on (Reg.SPX_CFG_LSBF 0) ∧
      (slaveTaken nbits sent w s).rd (Reg.SPX_ERR_FRAG 0) = s.rd (Reg.SPX_ERR_FRAG 0) ∧ (slaveTaken nbits sent w s).spx.length = 2 ∧
      (∀ b, spxRoom (slaveTaken nbits sent w s) 0 b = spxRoom s 0 b) ∧
      spxOf (slaveTaken nbits sent w s) 0 = { spxOf s 0 with tx := (spxOf s 0).tx.drop (min sent (min (cdiv nbits w) (spxOf s 0).tx.length)), sent := (spxOf s 0).tx.take (min sent (min (cdiv nbits w) (spxOf s 0).tx.length)) } := by
  obtain ⟨hspx, hlen'⟩ := slaveSent_spx (min sent (min (cdiv nbits w) (spxOf s 0).tx.length)) (cdiv nbits w) hlen
  have hframe := slaveSent_frame (min sent (min (cdiv nbits w) (spxOf s 0).tx.length)) (cdiv nbits w) s
  refine ⟨(hframe.1 _ (by decide)).2, congrArg (· == 1) (hframe.rd _ (by decide)), hframe.rd _ (by decide), hlen', fun b => ?_, hspx⟩
  rw [spxRoom, slaveTaken, hspx]
  rfl

theorem slave_frame_received (nbits sent w dt : Nat) (bytes : List Nat) (s : State) (hlen : s.spx.length = 2) (hslave : (spxOf s 0).slave = true) (hphase : bootPhase s ≠ 0xE) (hrole : spxRole s 0 ≠ 0) (hw : w = wsize s 0)
    (hwhole : nbits % w = 0) (hmin : w ≤ nbits) (hlim : nbits ≤ s.rdC (Reg.SPX_PDAT_LEN 0) + 1) (hroom : spxRoom s 0 (nbits / 8) = true) :
    completes (.slaveFrameEnd nbits bytes sent dt) s (fun t => (spxOf t 0).slave = false ∧ t.rd (Reg.SPX_STAT_ACTIVE 0) = 0 ∧ t.rd (Reg.SPX_STAT_FRMEND 0) = 1 ∧
      (spxOf t 0).rx = (spxOf s 0).rx ++ [⟨(List.range (nbits / w)).map (fun i => (w, rxWord (s.on (Reg.SPX_CFG_LSBF 0)) w i bytes)), nbits, false⟩] ∧
      (spxOf t 0).tx = (spxOf s 0).tx.drop (min sent (min (nbits / w) (spxOf s 0).tx.length))) := by
  have hpos : 0 < w := by rw [hw, wsize]; positivity
  have hcdiv : cdiv nbits w = nbits / w := by
    obtain ⟨k, rfl⟩ := Nat.dvd_of_mod_eq_zero hwhole
    rw [cdiv, Nat.mul_div_cancel_left _ hpos, show w * k + w - 1 = w - 1 + w * k by omega, Nat.add_mul_div_left _ _ hpos, Nat.div_eq_of_lt (by omega), Nat.zero_add]
  obtain ⟨hlimit, hlsbf, -, hlen', hroom', hspx⟩ := slaveTaken_frame (s := s.pass dt) nbits sent w hlen
  refine completes_of_onlyIf rfl hslave ?_
  rw [slaveFrameEnd_plain (s := s.pass dt) hphase hrole, slaveRx_eq, show wsize (s.pass dt) 0 = w from hw.symm]
  generalize slaveTaken nbits sent w (s.pass dt) = u at hlimit hlsbf hlen' hroom' hspx ⊢
  rw [slaveKept_within (by rw [hlimit]; exact hlim), if_neg (by omega), if_neg (by rw [hroom', show spxRoom (s.pass dt) 0 (nbits / 8) = true from hroom]; decide), hlsbf]
  generalize hf : SpxFrame.mk ((List.range (nbits / w)).map (fun i => (w, rxWord ((s.pass dt).on (Reg.SPX_CFG_LSBF 0)) w i bytes))) nbits false = f
  have hkeep := spxKeep_same (s := u) (n := 0) (by omega) f
  obtain ⟨hact, hend, -⟩ := spxFrameEnd_reads 0 (spxMod 0 (fun p => { p with slave := false }) (spxKeep 0 f u))
  rw [frameClosed_spxOf _ (by rw [spxKeep_length]; exact hlen'), hkeep, hspx, hcdiv]
  exact ⟨rfl, hact, hend, by rw [← hf]; rfl, rfl⟩

theorem slave_fragment (nbits sent w dt : Nat) (bytes : List Nat) (s : State) (hlen : s.spx.length = 2) (hslave : (spxOf s 0).slave = true) (hphase : bootPhase s ≠ 0xE) (hrole : spxRole s 0 ≠ 0) (hw : w = wsize s 0)
    (hshort : nbits < w) (hlim : nbits ≤ s.rdC (Reg.SPX_PDAT_LEN 0) + 1) :
    completes (.slaveFrameEnd nbits bytes sent dt) s (fun t => (spxOf t 0).rx = (spxOf s 0).rx ∧ t.rd (Reg.SPX_ERR_FRAG 0) = satAdd (Reg.SPX_ERR_FRAG 0).width (s.rd (Reg.SPX_ERR_FRAG 0)) 1 ∧ 117 ∈ t.flight) := by
  obtain ⟨hlimit, -, hfrag, hlen', -, hspx⟩ := slaveTaken_frame (s := s.pass dt) nbits sent w hlen
  refine completes_of_onlyIf rfl hslave ?_
  rw [slaveFrameEnd_plain (s := s.pass dt) hphase hrole, slaveRx_eq, show wsize (s.pass dt) 0 = w from hw.symm]
  generalize slaveTaken nbits sent w (s.pass dt) = u at hlimit hfrag hlen' hspx ⊢
  rw [slaveKept_within (by rw [hlimit]; exact hlim), if_pos (.inr hshort)]
  have herr : (spxErr 0 (Reg.SPX_ERR_FRAG 0) true u).spx = u.spx := spxErr_parts _ _ _ _ _ (partsOnly_refl [.regs, .flight] u) rfl .spx (by decide)
  obtain ⟨hcnt, hev⟩ := frag_counted u
  rw [hfrag] at hcnt
  refine ⟨?_, hcnt, hev⟩
  rw [frameClosed_spxOf _ (by rw [herr]; exact hlen'), spxOf, herr, ← spxOf, hspx]
  rfl

/-! ### The host's WRITE frames and bad frames (R609, R611, R613, R614) -/

theorem spxErr_mem (cnt : Field) (always : Bool) (u : State) : (spxErr 0 cnt always u).mem = u.mem := spxErr_parts _ _ _ _ _ (partsOnly_refl [.regs, .flight] u) rfl .mem (by decide)

theorem spxErr_rd_other (cnt : Field) (always : Bool) (u : State) {f : Field} (h : f.key ≠ cnt.key) : (spxErr 0 cnt always u).rd f = u.rd f :=
  (changesOnly_spxErr (changesOnly_refl [cnt] [.flight] u) 0 always (by simp) (by simp)).rd f (by simpa using h)

theorem host_fragment (nbits sent dt : Nat) (bytes : List Nat) (s : State) (_ : s.spx.length = 2) (hslave : (spxOf s 0).slave = true) (h3 : 3 ≤ bootPhase s) (hphase : bootPhase s ≠ 0xE) (hrole : spxRole s 0 = 0) (hshort : nbits < 32) :
    completes (.slaveFrameEnd nbits bytes sent dt) s (fun t => t.rd Reg.HW_STAT_FRAG = 1 ∧ t.rd (Reg.SPX_ERR_FRAG 0) = satAdd (Reg.SPX_ERR_FRAG 0).width (s.rd (Reg.SPX_ERR_FRAG 0)) 1 ∧ 117 ∈ t.flight ∧ memSame s t) := by
  have hframe : hostFrame nbits bytes (s.pass dt) = spxErr 0 (Reg.SPX_ERR_FRAG 0) true ((s.pass dt).set1 Reg.HW_STAT_FRAG) := if_pos hshort
  have hflag : ((s.pass dt).set1 Reg.HW_STAT_FRAG).rd Reg.HW_STAT_FRAG = 1 := State.rd_wr_same _ _ _
  have hold : ((s.pass dt).set1 Reg.HW_STAT_FRAG).rd (Reg.SPX_ERR_FRAG 0) = s.rd (Reg.SPX_ERR_FRAG 0) := State.rd_wr_other (s.pass dt) _ (by decide)
  have hmem : ((s.pass dt).set1 Reg.HW_STAT_FRAG).mem = s.mem := rfl
  refine completes_of_onlyIf rfl hslave ?_
  rw [slaveFrameEnd_host (s := s.pass dt) h3 hphase hrole, hframe]
  generalize (s.pass dt).set1 Reg.HW_STAT_FRAG = u at hflag hold hmem ⊢
  obtain ⟨hcnt, hev⟩ := frag_counted u
  rw [hold] at hcnt
  refine ⟨?_, hcnt, hev, fun a => congrArg (memRd · a) ((frameClosed_mem _).trans ((spxErr_mem _ _ _).trans hmem))⟩
  rw [frameClosed_rd _ (by decide), spxErr_rd_other _ _ _ (by decide), hflag]

theorem host_bad_command (nbits sent dt : Nat) (bytes : List Nat) (s : State) (_ : s.spx.length = 2) (hslave : (spxOf s 0).slave = true) (h3 : 3 ≤ bootPhase s) (hphase : bootPhase s ≠ 0xE) (hrole : spxRole s 0 = 0)
    (hlong : 32 ≤ nbits) (hbad : 2 ≤ bitsOf (bytes.getD 0 0) 7 6 ∨ bytes.getD 0 0 % 8 ≠ 0) :
    completes (.slaveFrameEnd nbits bytes sent dt) s (fun t => t.rd Reg.HW_STAT_BADCMD = 1 ∧ t.rd (Reg.SPX_ERR_BADCMD 0) = satAdd (Reg.SPX_ERR_BADCMD 0).width (s.rd (Reg.SPX_ERR_BADCMD 0)) 1 ∧ memSame s t) := by
  have hframe : hostFrame nbits bytes (s.pass dt) = spxErr 0 (Reg.SPX_ERR_BADCMD 0) false ((s.pass dt).set1 Reg.HW_STAT_BADCMD) := by
    unfold hostFrame
    dsimp only
    rw [if_neg (by omega), if_pos hbad]
  have hflag : ((s.pass dt).set1 Reg.HW_STAT_BADCMD).rd Reg.HW_STAT_BADCMD = 1 := State.rd_wr_same _ _ _
  have hold : ((s.pass dt).set1 Reg.HW_STAT_BADCMD).rd (Reg.SPX_ERR_BADCMD 0) = s.rd (Reg.SPX_ERR_BADCMD 0) := State.rd_wr_other (s.pass dt) _ (by decide)
  have hmem : ((s.pass dt).set1 Reg.HW_STAT_BADCMD).mem = s.mem := rfl
  refine completes_of_onlyIf rfl hslave ?_
  rw [slaveFrameEnd_host (s := s.pass dt) h3 hphase hrole, hframe]
  generalize (s.pass dt).set1 Reg.HW_STAT_BADCMD = u at hflag hold hmem ⊢
  refine ⟨?_, ?_, fun a => congrArg (memRd · a) ((frameClosed_mem _).trans ((spxErr_mem _ _ _).trans hmem))⟩
  · rw [frameClosed_rd _ (by decide), spxErr_rd_other _ _ _ (by decide), hflag]
  · rw [frameClosed_rd _ (by decide), spxErr_counts, hold]

/-- Four bytes received most significant first. -/
theorem rxWord_be {b0 b1 b2 b3 : Nat} (h0 : b0 < 256) (h1 : b1 < 256) (h2 : b2 < 256) (h3 : b3 < 256) : rxWord false 32 0 [b0, b1, b2, b3] = b0 * 2 ^ 24 + b1 * 2 ^ 16 + b2 * 2 ^ 8 + b3 := by
  simp [rxWord, ofBeBytes, ofLeBytes]
  omega

/-- A WRITE frame of one word writes it at its index. -/
theorem hostFrame_word {cmd idx b0 b1 b2 b3 : Nat} (hcmd : cmd = 0x40 ∨ cmd = 0x48) (hlsbf : s.on (Reg.SPX_CFG_LSBF 0) = false) (h0 : b0 < 256) (h1 : b1 < 256) (h2 : b2 < 256) (h3 : b3 < 256) :
    hostFrame 48 [cmd, idx, b0, b1, b2, b3] s = hostWrite (idx % 256) (b0 * 2 ^ 24 + b1 * 2 ^ 16 + b2 * 2 ^ 8 + b3) s := by
  have hindex : hostIndex cmd idx 0 = idx % 256 := by
    unfold hostIndex
    split <;> rfl
  have hwords : rxWords s 1 [b0, b1, b2, b3] = [b0 * 2 ^ 24 + b1 * 2 ^ 16 + b2 * 2 ^ 8 + b3] := by
    show [rxWord (s.on (Reg.SPX_CFG_LSBF 0)) 32 0 [b0, b1, b2, b3]] = _
    rw [hlsbf, rxWord_be h0 h1 h2 h3]
  have hgood : ¬ (2 ≤ bitsOf cmd 7 6 ∨ cmd % 8 ≠ 0) ∧ bitsOf cmd 7 6 ≠ 0 := by rcases hcmd with rfl | rfl <;> decide
  unfold hostFrame
  show (if 48 < 32 then _ else if 2 ≤ bitsOf cmd 7 6 ∨ cmd % 8 ≠ 0 then _ else if bitsOf cmd 7 6 = 0 then s else _) = _
  rw [if_neg (by decide), if_neg hgood.1, if_neg hgood.2, if_neg (by decide), if_neg (by decide)]
  show (List.range (rxWords s 1 [b0, b1, b2, b3]).length).foldl (fun t i => hostWrite (hostIndex cmd idx i) ((rxWords s 1 [b0, b1, b2, b3]).getD i 0) t) s = _
  rw [hwords, ← hindex]
  rfl

theorem host_sets_aperture (sent b0 b1 b2 b3 inc dt : Nat) (s : State) (_ : s.spx.length = 2) (hslave : (spxOf s 0).slave = true) (h3 : 3 ≤ bootPhase s) (hphase : bootPhase s ≠ 0xE) (hrole : spxRole s 0 = 0)
    (hlsbf : s.on (Reg.SPX_CFG_LSBF 0) = false) (hinc : inc ≤ 1) (h0 : b0 < 256) (h1 : b1 < 256) (h2 : b2 < 256) (hb3 : b3 < 256) :
    completes (.slaveFrameEnd 48 [0x40 + 8 * inc, 3, b0, b1, b2, b3] sent dt) s (fun t => t.rd Reg.HW_APBASE_BASE = (b0 * 2 ^ 24 + b1 * 2 ^ 16 + b2 * 2 ^ 8 + b3) / 512 ∧ memSame s t) := by
  have hwrite (v : Nat) : hostWrite (3 % 256) v (s.pass dt) = (s.pass dt).wr Reg.HW_APBASE_BASE (v / 0x200) := rfl
  refine completes_of_onlyIf rfl hslave ?_
  rw [slaveFrameEnd_host (s := s.pass dt) h3 hphase hrole, hostFrame_word (s := s.pass dt) (by omega) hlsbf h0 h1 h2 hb3, hwrite]
  refine ⟨?_, fun a => congrArg (memRd · a) (frameClosed_mem _)⟩
  rw [frameClosed_rd _ (by decide), State.rd_wr_same]
  exact Nat.mod_eq_of_lt (by simp only [Reg.HW_APBASE_BASE]; omega)

theorem hostAddr_aperture {idx : Nat} (hlo : 0x80 ≤ idx) (hhi : idx ≤ 0xFF) (s : State) : hostAddr s idx = some ((s.rd Reg.HW_APBASE_BASE * 0x200 + 4 * (idx - 0x80)) % 2 ^ 32) := if_pos ⟨hlo, hhi⟩

theorem host_writes_aperture (sent idx b0 b1 b2 b3 a v dt : Nat) (s : State) (_ : s.spx.length = 2) (hslave : (spxOf s 0).slave = true) (h3 : 3 ≤ bootPhase s) (hphase : bootPhase s ≠ 0xE) (hrole : spxRole s 0 = 0)
    (hlsbf : s.on (Reg.SPX_CFG_LSBF 0) = false) (hlo : 0x80 ≤ idx) (hhi : idx ≤ 0xFF) (ha : a = s.rd Reg.HW_APBASE_BASE * 512 + 4 * (idx - 0x80)) (halo : 0x10000000 ≤ a) (hahi : a + 4 ≤ 0x10600000) (hm : memWf s.mem = true)
    (hl : writeLands (hostReq a v) (s.pass dt) = true) (h0 : b0 < 256) (h1 : b1 < 256) (h2 : b2 < 256) (hb3 : b3 < 256) (hv : v = b0 * 2 ^ 24 + b1 * 2 ^ 16 + b2 * 2 ^ 8 + b3) :
    completes (.slaveFrameEnd 48 [0x40, idx, b0, b1, b2, b3] sent dt) s (fun t => (∀ i, i < 4 → (memRd t.mem (a + i)).toNat = v / 256 ^ i % 256) ∧ (∀ x, x < a ∨ a + 4 ≤ x → memRd t.mem x = memRd s.mem x)) := by
  have haddr : hostAddr (s.pass dt) (idx % 256) = some a := by
    rw [Nat.mod_eq_of_lt (by omega), hostAddr_aperture hlo hhi]
    exact congrArg some ((Nat.mod_eq_of_lt (by rw [State.rd_pass]; omega)).trans ha.symm)
  have hwrite : hostWrite (idx % 256) v (s.pass dt) = mirrorOut a (leBytes 4 v) (arrayWrite a (leBytes 4 v) false (s.pass dt)) := by
    unfold hostWrite
    rw [haddr]
    exact cmdWrite_of_lands hl (targetWrite_sram halo (by show a ≤ _; omega))
  refine completes_of_onlyIf rfl hslave ?_
  rw [slaveFrameEnd_host (s := s.pass dt) h3 hphase hrole, hostFrame_word (s := s.pass dt) (.inl rfl) hlsbf h0 h1 h2 hb3, ← hv, hwrite, frameClosed_mem]
  exact stores_of_mem (s := s) hm (mirrorOut_mem _ _ _)

/-! ### The host's READ frames (R612, R614, R615, R618) -/

theorem host_reads_aperture (cmd idx k a dt : Nat) (r : BusRes) (s u : State) (hok : hostReadOk cmd (s.pass dt) = true) (ha : hostAddr s (hostIndex cmd idx k) = some a) : busRead (hostReq a 0) false (s.pass dt) = (r, u) →
    completes (.hostRead cmd idx k dt) s (fun t => match r with
      | .done v => t = { u with rdata := put 21 v u.rdata }
      | .err _ => readGave 21 t = some 0 ∧ t.rd Reg.HW_STAT_BERR = 1 ∧ t.rd Reg.HW_BERRADDR = a % 2 ^ 32
      | .wait => t = u) := by
  intro hr
  have ha' : hostAddr (s.pass dt) (hostIndex cmd idx k) = some a := ha
  refine completes_of_onlyIf rfl hok ?_
  unfold hostReadWord hostRead
  rw [ha']
  simp only [hr]
  cases r with
  | done v => rfl
  | err k =>
    refine ⟨look_put_same _ _ _, ?_, State.rd_wr_same _ _ _⟩
    exact (State.rd_wr_other _ _ (by decide)).trans (State.rd_wr_same _ _ _)
  | wait => rfl

theorem host_reads_beyond (cmd idx k dt : Nat) (s : State) (hok : hostReadOk cmd (s.pass dt) = true) (hover : 0xFF < hostIndex cmd idx k) :
    completes (.hostRead cmd idx k dt) s (fun t => readGave 21 t = some 0 ∧ t.rd (Reg.SPX_STAT_WINOVR 0) = 1) := by
  have haddr : hostAddr (s.pass dt) (hostIndex cmd idx k) = none := by
    rw [hostAddr, if_neg (by omega), if_neg (by omega)]
  have hread : hostRead (hostIndex cmd idx k) (s.pass dt) = (some 0, spxFlag 0 (Reg.SPX_STAT_WINOVR 0) (Reg.SPX_IEN_WINOVR 0) (s.pass dt)) := by
    unfold hostRead
    rw [haddr]
    exact if_pos hover
  refine completes_of_onlyIf rfl hok ?_
  unfold hostReadWord
  rw [hread]
  exact ⟨look_put_same _ _ _, spxFlag_set 0 _ _ rfl (s.pass dt)⟩

theorem host_reads_status (cmd k dt : Nat) (s : State) (hok : hostReadOk cmd (s.pass dt) = true) (hbit : bitOf cmd 3 = 0) :
    completes (.hostRead cmd 9 k dt) s (fun t => readGave 21 t = some (s.rd Reg.HW_BERRADDR) ∧ changesOnly [] [.rdata] (s.pass dt) t) ∧
    completes (.hostRead cmd 2 k dt) s (fun t => readGave 21 t = some (16 * s.rd Reg.HW_STAT_BADCMD + 8 * s.rd Reg.HW_STAT_BERR + 4 * s.rd Reg.HW_STAT_FRAG + 2 * s.rd (Reg.SPX_STAT_OVERLEN 0) + s.rd (Reg.SPX_STAT_WINOVR 0)) ∧
      changesOnly [] [.rdata] (s.pass dt) t) := by
  have hindex (i : Nat) : hostIndex cmd i k = i % 256 := if_neg (by omega)
  have hgave {i v : Nat} (hr : hostRead (i % 256) (s.pass dt) = (some v, s.pass dt)) : hostReadWord cmd i k (s.pass dt) = { s.pass dt with rdata := put 21 v (s.pass dt).rdata } := by
    unfold hostReadWord
    rw [hindex, hr]
  refine ⟨completes_of_onlyIf rfl hok ?_, completes_of_onlyIf rfl hok ?_⟩
  · rw [hgave (v := s.rd Reg.HW_BERRADDR) rfl]
    exact ⟨look_put_same _ _ _, (changesOnly_refl _ _ _).withRdata _ (by simp)⟩
  · rw [hgave (v := hostStat s) rfl]
    exact ⟨look_put_same _ _ _, (changesOnly_refl _ _ _).withRdata _ (by simp)⟩

end
end Sys2Proof.Machine

open Sys2Proof Sys2Proof.Machine

/-- Settles O53: the end of a master and of a slave frame, and the host's frames, each by its own lemma. -/
theorem serialFrames : Obligations.SerialFrames := by
  unfold Obligations.SerialFrames
  exact ⟨master_frame_ends, slave_frame_starts, slave_frame_received, slave_fragment, host_fragment, host_bad_command, host_sets_aperture, host_writes_aperture, host_reads_aperture, host_reads_beyond, host_reads_status⟩
end


section
/-!
SUPPORT. The transfer of a bundle and its installation (R703 to R709, R714).
-/
namespace Sys2Proof.Machine

/-! ### Chunks sent and taken (R705) -/

theorem find_any {α : Type} {p : α → Bool} {l : List α} {a : α} (h : l.find? p = some a) : l.any p = true :=
  List.any_eq_true.2 ⟨a, List.mem_of_find?_eq_some h, List.find?_some h⟩

theorem chunkSend_next (dt : Nat) (b : Bundle) (s : State) (hnext : s.upd.bundles.find? (sendsChunks (s.pass dt)) = some b) (hb : bundleOf s b.bid = some b) :
    completes (.chunkSend dt) s (fun t => (bundleOf t b.bid).map (·.sendIdx) = some (b.sendIdx + 1) ∧ t.msh.mseq = (s.msh.mseq + 1) % 2 ^ 24) := by
  have hnext : (s.pass dt).upd.bundles.find? (sendsChunks (s.pass dt)) = some b := hnext
  refine completes_of_onlyIf rfl (find_any hnext) ?_
  unfold chunkSend
  rw [hnext]
  dsimp only
  have hset := bundleOf_bundleSet (s := s.pass dt) hb (fun x => { x with sendIdx := x.sendIdx + 1 }) fun _ => rfl
  generalize hu : bundleSet b.bid (fun x => { x with sendIdx := x.sendIdx + 1 }) (s.pass dt) = u at hset ⊢
  have hseq : nextMseq u = (s.msh.mseq + 1) % 2 ^ 24 := by rw [← hu]; rfl
  have hflood : (bulkFlood 0 (chunkPdu b b.sendIdx) u).upd = u.upd := (meshOnly_floodOriginate _ _ _ _ _ u).parts .upd (by decide)
  refine ⟨?_, (floodOriginate_mseq _ _ _ _ _ u).trans hseq⟩
  rw [bundleOf_of_bundles (congrArg UpdSt.bundles hflood), hset]
  rfl

theorem bulkTake_isSome {op : Nat} {x : BulkIn} {s : State} (dt : Nat) (h : bulkTake op s = some x) : (bulkTake op (s.pass dt)).isSome = true := Option.isSome_iff_exists.2 ⟨x, h⟩

theorem changesOnly_bulkDrop (x : BulkIn) (s : State) : changesOnly [] [.upd] s (bulkDrop x s) := ⟨fun _ _ => ⟨rfl, rfl⟩, bulkDrop_parts x s s (partsOnly_refl _ s) rfl⟩

/-- A chunk that came is kept with its bundle, if it is missing and whole. -/
def chunkKept (now i : Nat) (d : List Nat) (want : Nat) (total : Nat) (y : Bundle) : Bundle :=
  { y with heardAt := now, chunks := if i < chunkCount total ∧ d.length = want ∧ (look i y.chunks).isNone then put i d y.chunks else y.chunks }

theorem chunkReceive_stores (dt i : Nat) (x : BulkIn) (b : Bundle) (s : State) (hx : bulkTake 2 s = some x) (hb : bundleOf s (leAt x.data 1 4) = some b) (hi : i = leAt x.data 5 2) (hlt : i < chunkCount b.total)
    (hmiss : look i b.chunks = none) (hlen : (x.data.drop 8).length = (if i + 1 = chunkCount b.total then b.total - 1024 * i else 1024)) :
    completes (.chunkReceive dt) s (fun t => (bundleOf t (leAt x.data 1 4)).map (fun y => look i y.chunks) = some (some (x.data.drop 8)) ∧
      (bundleOf t (leAt x.data 1 4)).map (·.heardAt) = some (s.elapsed + dt) ∧ t.upd.inbox = s.upd.inbox.erase x ∧ changesOnly [] [.upd] (s.pass dt) t) := by
  subst hi
  have hbid : b.bid = leAt x.data 1 4 := by simpa using List.find?_some hb
  have htake : chunkReceive (s.pass dt) = bundleSet (leAt x.data 1 4)
      (chunkKept (s.elapsed + dt) (leAt x.data 5 2) (x.data.drop 8) (if leAt x.data 5 2 + 1 = chunkCount b.total then b.total - 1024 * leAt x.data 5 2 else 1024) b.total) (bulkDrop x (s.pass dt)) := by
    unfold chunkReceive
    rw [show bulkTake 2 (s.pass dt) = some x from hx]
    dsimp only
    rw [show bundleOf (bulkDrop x (s.pass dt)) (leAt x.data 1 4) = some b from hb]
    dsimp only
    rw [hbid]
    rfl
  refine completes_of_onlyIf rfl (bulkTake_isSome dt hx) ?_
  have hset := bundleOf_bundleSet (s := bulkDrop x (s.pass dt)) hb
    (chunkKept (s.elapsed + dt) (leAt x.data 5 2) (x.data.drop 8) (if leAt x.data 5 2 + 1 = chunkCount b.total then b.total - 1024 * leAt x.data 5 2 else 1024) b.total) fun _ => rfl
  rw [htake, hset]
  refine ⟨?_, rfl, rfl, (changesOnly_bulkDrop x (s.pass dt)).1, bundleSet_parts _ _ _ _ (changesOnly_bulkDrop x (s.pass dt)).2 rfl⟩
  rw [Option.map_some, chunkKept, if_pos ⟨hlt, hlen, by rw [hmiss]; rfl⟩, look_put_same]

theorem chunkReceive_unknown (dt : Nat) (x : BulkIn) (s : State) (hx : bulkTake 2 s = some x) (hnone : bundleOf s (leAt x.data 1 4) = none) :
    completes (.chunkReceive dt) s (fun t => t.upd = { s.upd with inbox := s.upd.inbox.erase x } ∧ changesOnly [] [.upd] (s.pass dt) t) := by
  have hdrop : chunkReceive (s.pass dt) = bulkDrop x (s.pass dt) := by
    unfold chunkReceive
    rw [show bulkTake 2 (s.pass dt) = some x from hx]
    dsimp only
    rw [show bundleOf (bulkDrop x (s.pass dt)) (leAt x.data 1 4) = none from hnone]
  refine completes_of_onlyIf rfl (bulkTake_isSome dt hx) ?_
  rw [hdrop]
  exact ⟨rfl, changesOnly_bulkDrop x (s.pass dt)⟩

/-! ### Requests (R705) -/

theorem reqTimer_asks (dt : Nat) (s : State) (hok : reqTimerOk (s.pass dt) = true) : completes (.reqTimer dt) s (fun t => t.upd = { s.upd with reqK := upK s, reqAt := s.elapsed + dt }) := by
  have hcollecting : (collecting (s.pass dt)).isSome = true := by
    unfold reqTimerOk at hok
    cases h : collecting (s.pass dt) with
    | none => simp [h] at hok
    | some b => rfl
  obtain ⟨b, hb⟩ := Option.isSome_iff_exists.1 hcollecting
  refine completes_of_onlyIf rfl hok ?_
  unfold reqTimer
  rw [hb]
  exact (meshOnly_unicastSend _ _ _ _ _ _).parts .upd (by decide)

theorem reqReceive_answers (dt : Nat) (x : BulkIn) (s : State) (hx : bulkTake 3 s = some x) :
    completes (.reqReceive dt) s (fun t => t.upd = { s.upd with inbox := s.upd.inbox.erase x } ∧ (bundleOf s (leAt x.data 1 4) = none → changesOnly [] [.upd] (s.pass dt) t)) := by
  refine completes_of_onlyIf rfl (bulkTake_isSome dt hx) ?_
  unfold reqReceive
  rw [show bulkTake 3 (s.pass dt) = some x from hx]
  dsimp only
  rw [show bundleOf (bulkDrop x (s.pass dt)) (leAt x.data 1 4) = bundleOf s (leAt x.data 1 4) from rfl]
  cases hb : bundleOf s (leAt x.data 1 4) with
  | none => exact ⟨rfl, fun _ => changesOnly_bulkDrop x (s.pass dt)⟩
  | some b =>
    refine ⟨(foldl_same State.upd _ _ _ fun t i => ?_).trans rfl, fun h => nomatch h⟩
    split
    · exact (meshOnly_unicastSend _ _ _ _ _ _).parts .upd (by decide)
    · rfl

/-! ### Reports of members (R706) -/

/-- A report of STATE 4 for a distribution adds its member. -/
def haveTaken (x : BulkIn) (s : State) : State :=
  updMod (fun u => { u with dist := u.dist.map (fun d => if d.bid = leAt x.data 1 4 ∧ leAt x.data 5 1 = 4 ∧ ¬ d.have_.contains x.src then { d with have_ := x.src :: d.have_ } else d) }) (bulkDrop x s)

theorem haveReceive_eq {x : BulkIn} {s : State} (hx : bulkTake 4 s = some x) : haveReceive s = distSettle (haveTaken x s) := by
  unfold haveReceive
  rw [hx]
  rfl

theorem distSettle_upd (s : State) : (distSettle s).upd = s.upd ∨ (distSettle s).upd = { s.upd with dist := none } := by
  unfold distSettle
  split
  · exact .inl rfl
  · dsimp only
    split
    · exact .inr (opEnd_partsOnly _ _ _ _ _ _ .upd (by decide))
    · exact .inl rfl

theorem haveReceive_counts (dt : Nat) (x : BulkIn) (d : UpdDist) (s : State) (hx : bulkTake 4 s = some x) (hd : s.upd.dist = some d) (hbid : d.bid = leAt x.data 1 4) (hst : leAt x.data 5 1 = 4) :
    completes (.haveReceive dt) s (fun t => t.upd.inbox = s.upd.inbox.erase x ∧ (t.upd.dist = none ∨ ∃ e, t.upd.dist = some e ∧ x.src ∈ e.have_ ∧ e.bid = d.bid)) := by
  have hcounted : ∃ e, (haveTaken x (s.pass dt)).upd.dist = some e ∧ x.src ∈ e.have_ ∧ e.bid = d.bid := by
    refine ⟨_, congrArg (Option.map _) hd, ?_⟩
    by_cases hc : x.src ∈ d.have_ <;> simp [hbid, hst, hc]
  refine completes_of_onlyIf rfl (bulkTake_isSome dt hx) ?_
  rw [haveReceive_eq (show bulkTake 4 (s.pass dt) = some x from hx)]
  rcases distSettle_upd (haveTaken x (s.pass dt)) with h | h <;> rw [h]
  · exact ⟨rfl, .inr hcounted⟩
  · exact ⟨rfl, .inl rfl⟩

theorem haveReceive_idle (dt : Nat) (x : BulkIn) (s : State) (hx : bulkTake 4 s = some x) (hd : s.upd.dist = none) :
    completes (.haveReceive dt) s (fun t => t.upd = { s.upd with inbox := s.upd.inbox.erase x } ∧ changesOnly [] [.upd] (s.pass dt) t) := by
  have hidle : (haveTaken x (s.pass dt)).upd.dist = none := congrArg (Option.map _) hd
  have hupd : (haveTaken x (s.pass dt)).upd = { s.upd with inbox := s.upd.inbox.erase x } := by
    unfold haveTaken updMod bulkDrop
    simp [updMod, hd]
  refine completes_of_onlyIf rfl (bulkTake_isSome dt hx) ?_
  rw [haveReceive_eq (show bulkTake 4 (s.pass dt) = some x from hx), distSettle, hidle]
  exact ⟨hupd, (changesOnly_bulkDrop x (s.pass dt)).1, updMod_parts _ _ _ (changesOnly_bulkDrop x (s.pass dt)).2 rfl⟩

/-! ### Installation (R707) -/

theorem haveSend_upd (bid st : Nat) (s : State) : (haveSend bid st s).upd = s.upd := by
  unfold haveSend
  split
  · exact (meshOnly_unicastSend _ _ _ _ _ s).parts .upd (by decide)
  · rfl

/-- An install that failed: the bundle is gone, the reason kept. -/
def installFailed (bid st : Nat) (s : State) : State := haveSend bid 7 (updState 7 (updMod (fun u => { u with lastErr := st, bundles := u.bundles.filter (fun x => !(x.bid == bid)) }) s))

theorem installFailed_upd (bid st : Nat) (s : State) : (installFailed bid st s).upd = { s.upd with state := 7, lastErr := st, bundles := s.upd.bundles.filter (fun x => !(x.bid == bid)) } := by
  rw [installFailed, haveSend_upd, updState_upd]
  rfl

theorem install_unsigned (dt : Nat) (fail : Bool) (b : Bundle) (s : State) (hok : installOk (s.pass dt) = true) (hb : toInstall (s.pass dt) = some b) (hbad : bunSigned (s.pass dt) (bundleBytes b) = false) :
    completes (.install fail dt) s (fun t => t.upd.state = 7 ∧ t.upd.lastErr = 0x0B00 ∧ t.upd.bid = b.bid ∧ bundleOf t b.bid = none ∧ t.upd.inst = s.upd.inst) := by
  have hfails : install fail (s.pass dt) = installFailed b.bid Rc.UPD_SIG (updMod (fun u => { u with bid := b.bid }) (s.pass dt)) := by
    unfold install
    rw [hb]
    dsimp only
    rw [show bunSigned (updMod (fun u => { u with bid := b.bid }) (s.pass dt)) (bundleBytes b) = false from hbad]
    rfl
  refine completes_of_onlyIf rfl hok ?_
  rw [hfails, bundleOf, installFailed_upd]
  refine ⟨rfl, rfl, rfl, List.find?_eq_none.2 fun y hy => ?_, rfl⟩
  obtain ⟨-, hne⟩ := List.mem_filter.1 hy
  simpa using hne

/-- Components are written: the bundle store, the order to activate and the bundle spoken of stand. -/
structure Staged (s t : State) : Prop where
  bundles : t.upd.bundles = s.upd.bundles
  give : t.upd.give = s.upd.give
  bid : t.upd.bid = s.upd.bid

theorem staged_refl (s : State) : Staged s s := ⟨rfl, rfl, rfl⟩

theorem staged_trans {s t u : State} (h : Staged s t) (h' : Staged t u) : Staged s u := ⟨h'.bundles.trans h.bundles, h'.give.trans h.give, h'.bid.trans h.bid⟩

theorem staged_installComp (b e : List Nat) (s : State) : Staged s (installComp b e s) := by
  unfold installComp
  dsimp only
  split
  · exact ⟨rfl, rfl, rfl⟩
  · exact ⟨rfl, rfl, rfl⟩
  · split
    · exact staged_refl s
    · exact ⟨rfl, rfl, rfl⟩
  · exact ⟨rfl, rfl, rfl⟩

theorem staged_foldl (b : List Nat) (es : List (List Nat)) (s : State) : Staged s (es.foldl (fun t e => installComp b e t) s) :=
  foldl_keeps (Staged s) _ _ _ (fun t e h => staged_trans h (staged_installComp b e t)) (staged_refl s)

/-- A change of the update state that leaves the bundle store, the order to activate and the bundle spoken of. -/
theorem staged_updMod {s t : State} (h : Staged s t) {f : UpdSt → UpdSt} (hf : ∀ u, (f u).bundles = u.bundles ∧ (f u).give = u.give ∧ (f u).bid = u.bid) : Staged s (updMod f t) := by
  obtain ⟨hbundles, hgive, hbid⟩ := hf t.upd
  exact staged_trans h ⟨hbundles, hgive, hbid⟩

theorem staged_installAll (b : List Nat) (s : State) : Staged s (installAll b s) := by
  unfold installAll
  refine staged_updMod (staged_trans ?_ (staged_foldl b _ _)) fun _ => ⟨rfl, rfl, rfl⟩
  split
  · exact ⟨rfl, rfl, rfl⟩
  · exact staged_refl s

/-- A bundle is installed: it waits to be activated. -/
def installed (bid : Nat) (bytes : List Nat) (s : State) : State := haveSend bid 4 (updState 4 (bundleSet bid (fun x => { x with busy := true }) (installAll bytes (updState 3 s))))

theorem installed_upd (bid : Nat) (bytes : List Nat) (s : State) :
    ∃ u, Staged s u ∧ (installed bid bytes s).upd = { (bundleSet bid (fun x => { x with busy := true }) u).upd with state := 4 } := by
  refine ⟨installAll bytes (updState 3 s), staged_trans ⟨?_, ?_, ?_⟩ (staged_installAll bytes (updState 3 s)), ?_⟩
  · rw [updState_upd]
  · rw [updState_upd]
  · rw [updState_upd]
  · rw [installed, haveSend_upd, updState_upd]

theorem install_whole (dt : Nat) (b : Bundle) (s : State) (hok : installOk (s.pass dt) = true) (hb : toInstall (s.pass dt) = some b) (hver : b.verified = true) (hmine : bundleMine (s.pass dt) b = true)
    (hsigned : bunSigned (s.pass dt) (bundleBytes b) = true) (hme : bunForMe (s.pass dt) (bundleBytes b) = true) (hcompat : bunCompat (s.pass dt) (bundleBytes b) = true) (hgive : s.upd.give = none) :
    completes (.install false dt) s (fun t => t.upd.state = 4 ∧ t.upd.bid = b.bid ∧ (bundleOf t b.bid).map (·.busy) = some true) := by
  obtain ⟨v, hv⟩ : ∃ v, v = updMod (fun u => { u with bid := b.bid }) (s.pass dt) := ⟨_, rfl⟩
  obtain ⟨u, hu, hupd⟩ := installed_upd b.bid (bundleBytes b) v
  have hdone : install false (s.pass dt) = installed b.bid (bundleBytes b) v := by
    have hstill : (installed b.bid (bundleBytes b) v).upd.give = none := by
      rw [hupd]
      exact hu.give.trans (by rw [hv]; exact hgive)
    unfold install
    rw [hb]
    dsimp only
    rw [← hv, show bunSigned v (bundleBytes b) = true by rw [hv]; exact hsigned]
    simp only [hver, if_true, show bundleMine v b = true by rw [hv]; exact hmine, show bunForMe v (bundleBytes b) = true by rw [hv]; exact hme,
      show bunCompat v (bundleBytes b) = true by rw [hv]; exact hcompat, Bool.not_true, Bool.or_self, Bool.false_eq_true, if_false]
    change (match (installed b.bid (bundleBytes b) v).upd.give with | some (g, at_) => _ | none => installed b.bid (bundleBytes b) v) = _
    rw [hstill]
  have hheld : ∃ y, bundleOf u b.bid = some y := by
    rw [← Option.isSome_iff_exists, bundleOf, hu.bundles, hv, List.find?_isSome]
    exact ⟨b, List.mem_of_find?_eq_some hb, beq_self_eq_true b.bid⟩
  obtain ⟨y, hy⟩ := hheld
  refine completes_of_onlyIf rfl hok ?_
  rw [hdone, bundleOf, hupd]
  refine ⟨rfl, hu.bid.trans (by rw [hv]; rfl), ?_⟩
  exact congrArg (Option.map (·.busy)) (bundleOf_bundleSet hy (fun x => { x with busy := true }) fun _ => rfl)

/-! ### The order to activate (R709) -/

theorem actArm_upd (t : Nat) (s : State) : (actArm t s).upd = { s.upd with armed := true, t := t, state := 5 } := by
  have hnoticed : partsOnly [.mboxes, .regs, .heldNotices] (updState 5 (updMod (fun u => { u with armed := true, t := t }) (installArmed t s))) (actArm t s) := by
    rw [actArm_eq]
    exact updNotice_parts _ _ _ _ (partsOnly_refl _ _) rfl
  have hupd : (actArm t s).upd = (updState 5 (updMod (fun u => { u with armed := true, t := t }) (installArmed t s))).upd := hnoticed .upd (by decide)
  rw [hupd, updState_upd]
  rfl

theorem activateTake_upd (bid t : Nat) (s : State) : (activateTake bid t s).upd.give = some (bid, t) ∧ (activateTake bid t s).upd.inbox = s.upd.inbox := by
  unfold activateTake
  dsimp only
  split
  · rw [actArm_upd]
    exact ⟨rfl, rfl⟩
  · split <;> exact ⟨rfl, rfl⟩

theorem activateReceive_takes (dt : Nat) (x : BulkIn) (s : State) (hx : bulkTake 5 s = some x) :
    completes (.activateReceive dt) s (fun t => t.upd.give = some (leAt x.data 1 4, leAt x.data 5 8) ∧ t.upd.inbox = s.upd.inbox.erase x) := by
  refine completes_of_onlyIf rfl (bulkTake_isSome dt hx) ?_
  unfold activateReceive
  rw [show bulkTake 5 (s.pass dt) = some x from hx]
  exact activateTake_upd _ _ (bulkDrop x (s.pass dt))

end Sys2Proof.Machine

open Sys2Proof Sys2Proof.Machine

/-- Settles O39: what each part of the transfer and the installation does, by its own lemma. -/
theorem updateTransfer : Obligations.UpdateTransfer := by
  unfold Obligations.UpdateTransfer
  exact ⟨chunkSend_next, chunkReceive_stores, chunkReceive_unknown, reqTimer_asks, reqReceive_answers, haveReceive_counts, haveReceive_idle, install_unsigned, install_whole, activateReceive_takes⟩
end


section
/-!
SUPPORT. Activation of a bundle and the trial (R710 to R713).
-/
namespace Sys2Proof.Machine

/-! ### Tables that take effect leave the last good slots and the trial (R711) -/

/-- The field is one of the last good slots and the trial. -/
def isSlots (f : Field) : Prop := 32 * 0x40058004 ≤ f.key ∧ f.key < 32 * 0x40058005

section
variable {f : Field} (hf : isSlots f)
include hf

theorem slots_ne {g : Field} (hg : g.key < 32 * 0x40058004 ∨ 32 * 0x40058005 ≤ g.key) : f.key ≠ g.key := by
  obtain ⟨hlo, hhi⟩ := hf
  omega

theorem slots_wr {g : Field} (hg : g.key < 32 * 0x40058004 ∨ 32 * 0x40058005 ≤ g.key) (v : Nat) (s : State) : (s.wr g v).rd f = s.rd f := State.rd_wr_other _ _ (slots_ne hf hg)

theorem slots_offCmp : offCmp f := .inr (Nat.le_trans (by decide) hf.1)

theorem slots_txCapChange (s : State) : (txCapChange s).rd f = s.rd f := by
  have hoff : ∀ g ∈ txCapFields, g.key < 32 * 0x40058004 ∨ 32 * 0x40058005 ≤ g.key := by decide
  exact (txCapChange_fields s f fun g hg => slots_ne hf (hoff g hg)).1

theorem slots_cmpDisarm (n : Nat) (s : State) : (cmpDisarm n s).rd f = s.rd f := by
  unfold cmpDisarm
  split
  · exact slots_wr hf (by simp only [Field.key, Reg.FIRN_CMP_STAT_ARMED]; omega) _ _
  · rfl

theorem slots_lumDrop (a : LumAct) (s : State) : (lumDrop a s).rd f = s.rd f := by
  unfold lumDrop
  dsimp only
  split
  · exact slots_cmpDisarm hf _ _
  · rfl

theorem slots_lumDrops (l : List LumAct) (s : State) : (l.foldl (fun t a => lumDrop a t) s).rd f = s.rd f := foldl_same (fun t : State => t.rd f) _ _ _ fun t a => slots_lumDrop hf a t

theorem slots_lumSvc (s : State) : (lumSvc s).rd f = s.rd f := by
  unfold lumSvc
  split
  · split
    · rfl
    · rw [State.set1, slots_wr hf (by decide), State.set1, slots_wr hf (by decide)]
  · split
    · dsimp only
      rw [State.rd_wrC, State.clr, slots_wr hf (by decide), State.clr, slots_wr hf (by decide), slots_lumDrops hf]
      rfl
    · rfl

theorem slots_lumDay (s : State) : (lumDay s).rd f = s.rd f := by
  unfold lumDay
  rw [lumArm_rd 6 _ (slots_offCmp hf)]
  exact slots_lumDrops hf _ s

theorem slots_lumOutputs {g : Field} (hg : g ∈ lumOutputs) : f.key ≠ g.key := by
  have hoff : ∀ g ∈ lumOutputs, g.key < 32 * 0x40058004 ∨ 32 * 0x40058005 ≤ g.key := by decide
  exact slots_ne hf (hoff g hg)

theorem slots_lumTables (s : State) : (lumTables s).rd f = s.rd f := by
  unfold lumTables
  dsimp only
  split
  · exact slots_lumSvc hf s
  · rw [(lumWrite_fields _ _ _ _ f fun g hg => slots_lumOutputs hf hg).1, lumJudge_rd _ fun g hg => slots_lumOutputs hf hg]
    refine Eq.trans ?_ (slots_lumSvc hf s)
    refine proj_ite (fun t : State => t.rd f) rfl ?_
    exact slots_lumDay hf _

theorem slots_portDown (p : Nat) (s : State) : (portDown p s).rd f = s.rd f :=
  (linkOnly_portDown (linkOnly_refl [] s) p).rd f (Nat.lt_trans hf.2 (by decide)) fun _ h => nomatch h

theorem slots_tblForce (tid : Nat) (o : Option TableObj) (s : State) : (tblForce tid o s).rd f = s.rd f := by
  unfold tblForce tblEffect
  dsimp only
  split
  · exact slots_txCapChange hf _
  · exact slots_txCapChange hf _
  · refine (foldl_same (fun t : State => t.rd f) _ _ _ fun t p => ?_).trans rfl
    exact proj_ite (fun t : State => t.rd f) (slots_portDown hf p t) rfl
  · exact slots_lumTables hf _
  · exact slots_lumTables hf _
  · exact slots_lumTables hf _
  · rfl

theorem slots_tablesActivate (s : State) : (tablesActivate s).rd f = s.rd f := by
  unfold tablesActivate
  split
  · exact (foldl_same (fun t : State => t.rd f) _ _ _ fun t p => slots_tblForce hf _ _ t).trans rfl
  · rfl

theorem slots_tablesBack (s : State) : (tablesBack true s).rd f = s.rd f := by
  unfold tablesBack
  exact (foldl_same (fun t : State => t.rd f) _ _ _ fun t p => slots_tblForce hf _ _ t).trans rfl

end

/-! ### What becomes of the update service's state -/

theorem tblForce_upd (tid : Nat) (o : Option TableObj) (s : State) : (tblForce tid o s).upd = s.upd :=
  tblForce_parts tid o s s (partsOnly_refl [.com, .msh, .lmp, .firn, .regs, .wpt, .evAt, .tables, .flight, .lum] s) rfl .upd (by decide)

/-- Tables go in force: the staged ones are taken, those they replace kept. -/
theorem tablesActivate_upd (s : State) : ∃ old staged on, (tablesActivate s).upd = { s.upd with replaced := old, staged := staged, stagedOn := on } := by
  unfold tablesActivate
  split
  · exact ⟨_, _, _, (foldl_same State.upd _ _ _ fun t p => tblForce_upd _ _ t).trans rfl⟩
  · exact ⟨_, _, _, rfl⟩

theorem tablesBack_upd (s : State) : (tablesBack true s).upd = { s.upd with replaced := [] } := by
  unfold tablesBack
  exact (foldl_same State.upd _ _ _ fun t p => tblForce_upd _ _ t).trans rfl

/-- The installed set with the components that an activation puts in force. -/
def instWith (u : UpdSt) : List (Nat × Comp) := u.comps.foldl (fun l p => if u.cids.contains p.1 then put p.1 p.2 l else l) u.inst

/-- The tables of an activation are in force, and its components count as installed. -/
def setInForce (s : State) : State := tablesActivate (updMod (fun u => { u with oldInst := u.inst, inst := instWith u }) s)

theorem setInForce_slots {f : Field} (hf : isSlots f) (s : State) : (setInForce s).rd f = s.rd f := slots_tablesActivate hf _

theorem setInForce_upd (s : State) : ∃ old staged on, (setInForce s).upd = { s.upd with oldInst := s.upd.inst, inst := instWith s.upd, replaced := old, staged := staged, stagedOn := on } :=
  tablesActivate_upd (updMod (fun u => { u with oldInst := u.inst, inst := instWith u }) s)

theorem setInForce_elapsed (s : State) : (setInForce s).elapsed = s.elapsed :=
  tablesActivate_parts _ _ (partsOnly_refl [.com, .msh, .lmp, .firn, .regs, .wpt, .upd, .evAt, .tables, .flight, .lum] _) rfl .elapsed (by decide)

theorem updState_rd (st : Nat) (s : State) (f : Field) : (updState st s).rd f = s.rd f := by
  unfold updState
  split <;> rfl

theorem appRestart_rd (s : State) (f : Field) : (appRestart s).rd f = s.rd f := rd_of_regs (appRestart_parts s s (partsOnly_refl [.cores] s) rfl .regs (by decide)) f

theorem appRestart_upd (s : State) : (appRestart s).upd = s.upd := appRestart_parts s s (partsOnly_refl [.cores] s) rfl .upd (by decide)

/-! ### Activation (R710, R712, R713) -/

section
variable (dt : Nat) (s : State) (hok : activationOk (s.pass dt) = true)
include hok

theorem activation_sets (hcids : cidsReset s.upd.cids = false) (happ : 5 ∉ s.upd.cids) :
    completes (.activation dt) s (fun t => t.upd.armed = false ∧ t.upd.state = 0 ∧ t.upd.inst = s.upd.comps.foldl (fun l p => if s.upd.cids.contains p.1 then put p.1 p.2 l else l) s.upd.inst ∧
      t.rd Reg.BKP_SET1_TRIAL = s.rd Reg.BKP_SET1_TRIAL) := by
  obtain ⟨u, hu⟩ : ∃ u, u = updMod (fun u => { u with armed := false }) (s.pass dt) := ⟨_, rfl⟩
  have huupd : u.upd = { s.upd with armed := false } := by rw [hu]; rfl
  obtain ⟨old, staged, on, hupd⟩ := setInForce_upd u
  have happ : ¬ (setInForce u).upd.cids.contains 5 = true := by
    rw [hupd, huupd]
    simpa using happ
  have hdone : activation (s.pass dt) = updState 0 (bundleSet (setInForce u).upd.bid (fun b => { b with busy := false }) (updMod (fun v => { v with replaced := [] }) (setInForce u))) := by
    unfold activation
    dsimp only
    rw [← hu, huupd, hcids]
    exact if_neg happ
  refine completes_of_onlyIf rfl hok ?_
  rw [hdone, updState_upd, updState_rd]
  refine ⟨?_, rfl, ?_, ?_⟩
  · change (setInForce u).upd.armed = false
    rw [hupd, huupd]
  · change (setInForce u).upd.inst = _
    rw [hupd, huupd]
    rfl
  · refine (setInForce_slots (by exact ⟨by decide, by decide⟩) u).trans ?_
    rw [hu]
    rfl

/-- The marks of an application's trial are set. -/
def appMarked (s : State) : State :=
  (((((s.set1 Reg.BKP_SET1_TRIAL).set1 Reg.BKP_SET1_TRIALA).set1 Reg.BKP_SET1_STARTED).clr Reg.BKP_SET1_TRIALG).wr Reg.BKP_SET1_TBID s.upd.bid).wr Reg.SYS_BOOT_ASLOT (1 - s.rd Reg.BKP_SET1_ALG)

omit hok in
theorem appMarked_marks (s : State) : (appMarked s).rd Reg.BKP_SET1_TRIAL = 1 ∧ (appMarked s).rd Reg.BKP_SET1_TRIALA = 1 ∧ (appMarked s).rd Reg.BKP_SET1_TRIALG = 0 ∧
    (appMarked s).rd Reg.SYS_BOOT_ASLOT = (1 - s.rd Reg.BKP_SET1_ALG) % 2 := by
  simp [appMarked, State.set1, State.clr, State.rd_wr, Field.key, Reg.BKP_SET1_TRIAL, Reg.BKP_SET1_TRIALA, Reg.BKP_SET1_STARTED, Reg.BKP_SET1_TRIALG, Reg.BKP_SET1_TBID, Reg.SYS_BOOT_ASLOT]

theorem activation_app (hcids : cidsReset s.upd.cids = false) (happ : 5 ∈ s.upd.cids) :
    completes (.activation dt) s (fun t => t.upd.armed = false ∧ t.upd.state = 6 ∧ t.upd.trialAt = some (s.elapsed + dt) ∧ t.rd Reg.BKP_SET1_TRIAL = 1 ∧ t.rd Reg.BKP_SET1_TRIALA = 1 ∧ t.rd Reg.BKP_SET1_TRIALG = 0 ∧
      t.rd Reg.SYS_BOOT_ASLOT = (1 - s.rd Reg.BKP_SET1_ALG) % 2) := by
  obtain ⟨u, hu⟩ : ∃ u, u = updMod (fun u => { u with armed := false }) (s.pass dt) := ⟨_, rfl⟩
  have huupd : u.upd = { s.upd with armed := false } := by rw [hu]; rfl
  obtain ⟨old, staged, on, hupd⟩ := setInForce_upd u
  have happ : (setInForce u).upd.cids.contains 5 = true := by
    rw [hupd, huupd]
    simpa using happ
  have hdone : activation (s.pass dt) = updState 6 (appRestart (updMod (fun v => { v with trialAt := some (setInForce u).elapsed, confirmed := false }) (appMarked (setInForce u)))) := by
    unfold activation
    dsimp only
    rw [← hu, huupd, hcids]
    exact if_pos happ
  have hlast : (setInForce u).rd Reg.BKP_SET1_ALG = s.rd Reg.BKP_SET1_ALG := by
    rw [setInForce_slots (by exact ⟨by decide, by decide⟩), hu]
    rfl
  have htime : (setInForce u).elapsed = s.elapsed + dt := by
    rw [setInForce_elapsed, hu]
    rfl
  obtain ⟨htrial, htriala, htrialg, hslot⟩ := appMarked_marks (setInForce u)
  refine completes_of_onlyIf rfl hok ?_
  have hrd (f : Field) : (activation (s.pass dt)).rd f = (appMarked (setInForce u)).rd f := by
    rw [hdone, updState_rd, appRestart_rd]
    rfl
  rw [hrd, hrd, hrd, hrd, hdone, updState_upd, appRestart_upd, htime]
  refine ⟨?_, rfl, rfl, htrial, htriala, htrialg, ?_⟩
  · change (setInForce u).upd.armed = false
    rw [hupd, huupd]
  · rw [← hlast]
    exact hslot

/-- What of an activation a pair's active member puts in force at once, before its standby takes the role (R714). -/
def pairActivated (s : State) : State :=
  let place := s.upd.cids.filter (fun c => c == 1 || c == 5)
  let s1 := if tablesPhase s && !place.isEmpty then updMod (fun u => { u with cids := s.upd.cids.filter (fun c => c != 1 && c != 5) }) (activateInPlace (updMod (fun u => { u with cids := place }) s)) else s
  if tablesPhase s then switchArm (s.now + ftS 300) none s1 else s1

theorem activation_waits (hcids : cidsReset s.upd.cids = true) (hrole : mirRole s = 1) :
    completes (.activation dt) s (fun t => t.upd.armed = true ∧ t.upd.state = 5 ∧ t.upd.t = (s.pass dt).now + ftS 301) := by
  have hdone : activation (s.pass dt) = updState 5 (updMod (fun u => { u with armed := true, t := (s.pass dt).now + ftS 301 }) (pairActivated (updMod (fun u => { u with armed := false }) (s.pass dt)))) := by
    unfold activation
    dsimp only
    exact (if_neg (show ¬ (!cidsReset s.upd.cids) = true by simp [hcids])).trans (if_pos hrole)
  refine completes_of_onlyIf rfl hok ?_
  rw [hdone, updState_upd]
  exact ⟨rfl, rfl, rfl⟩

end

/-! ### A system reset (R47) leaves the slots and the trial -/

theorem flcCut_regs (s : State) : (flcCut s).regs = s.regs := by
  refine foldl_same State.regs _ _ _ fun t r => ?_
  dsimp only
  split
  · exact progPages_parts _ _ _ _ _ (partsOnly_refl [.flc] _) rfl .regs (by decide)
  · split
    · exact foldl_same State.regs _ _ _ fun _ _ => rfl
    · rfl

theorem slots_sysReset {f : Field} (hf : isSlots f) {cause : Field} (hcause : f.key ≠ cause.key) (s : State) : (sysReset cause s).rd f = s.rd f := by
  have hkept : keptKey true f.key = true := by
    obtain ⟨hlo, hhi⟩ := hf
    simp only [keptKey, backupKey, Bool.or_eq_true, Bool.and_eq_true, decide_eq_true_eq]
    exact .inl (.inl (.inl ⟨by omega, by omega⟩))
  rw [sysReset, State.rd_set1, if_neg hcause, resetTo_rd, if_pos hkept]
  exact rd_of_regs (flcCut_regs s) f

theorem sysReset_upd (cause : Field) (s : State) :
    (sysReset cause s).upd = { s.upd with inbox := [], dist := none, trialAt := none, confirmed := false, reqK := 0, reqAt := s.elapsed, cardAt := s.elapsed, recStatus := 0, recData := [] } := by
  have hupd : (flcCut s).upd = s.upd := flcCut_frame s .upd (by decide)
  have helapsed : (flcCut s).elapsed = s.elapsed := flcCut_frame s .elapsed (by decide)
  rw [sysReset, State.set1_upd, ← hupd, ← helapsed]
  rfl

theorem sysReset_at (cause : Field) (s : State) : (sysReset cause s).sysResetAt = s.elapsed := by
  have helapsed : (flcCut s).elapsed = s.elapsed := flcCut_frame s .elapsed (by decide)
  rw [sysReset, State.set1_sysResetAt, ← helapsed]
  rfl

theorem sysReset_cause (s : State) : (sysReset Reg.SYS_RSTCAUSE_SOFT s).rd Reg.SYS_RSTCAUSE_SOFT = 1 := (sysReset_leaves rfl s).1

/-- The marks of a firmware's trial are set. -/
def fwMarked (s : State) : State :=
  ((((s.set1 Reg.BKP_SET1_TRIAL).set1 Reg.BKP_SET1_TRIALG).wr Reg.BKP_SET1_TRIALA (b2n (s.upd.cids.contains 5))).clr Reg.BKP_SET1_STARTED).wr Reg.BKP_SET1_TBID s.upd.bid

theorem fwMarked_marks (s : State) : (fwMarked s).rd Reg.BKP_SET1_TRIAL = 1 ∧ (fwMarked s).rd Reg.BKP_SET1_TRIALG = 1 ∧ (fwMarked s).rd Reg.BKP_SET1_TRIALA = b2n (s.upd.cids.contains 5) := by
  simp [fwMarked, State.set1, State.clr, State.rd_wr, Field.key, Reg.BKP_SET1_TRIAL, Reg.BKP_SET1_TRIALA, Reg.BKP_SET1_STARTED, Reg.BKP_SET1_TRIALG, Reg.BKP_SET1_TBID, b2n_le_one]

/-- A provisioning record comes in force (R698). -/
def provInForce (s : State) : State :=
  match s.upd.prov with | some (k, ns) => { s with lnk := { s.lnk with joinKey := some k, networks := ns }, upd := { s.upd with prov := none } } | none => s

theorem provInForce_leaves (s : State) : (provInForce s).regs = s.regs ∧ (provInForce s).upd = { s.upd with prov := none } ∧ (provInForce s).elapsed = s.elapsed := by
  unfold provInForce
  split
  · exact ⟨rfl, rfl, rfl⟩
  · next h => exact ⟨rfl, by rw [← h], rfl⟩

theorem activateReset_eq (s : State) : activateReset s = sysReset Reg.SYS_RSTCAUSE_SOFT (updState 6 (provInForce (fwMarked (setInForce s)))) := rfl

theorem activation_resets (dt : Nat) (s : State) (hok : activationOk (s.pass dt) = true) (hcids : cidsReset s.upd.cids = true) (hrole : mirRole s ≠ 1) :
    completes (.activation dt) s (fun t => t.upd.armed = false ∧ t.upd.state = 6 ∧ t.rd Reg.BKP_SET1_TRIAL = 1 ∧ t.rd Reg.BKP_SET1_TRIALG = 1 ∧ t.rd Reg.BKP_SET1_TRIALA = b2n (s.upd.cids.contains 5) ∧
      t.rd Reg.SYS_RSTCAUSE_SOFT = 1 ∧ t.sysResetAt = s.elapsed + dt) := by
  obtain ⟨u, hu⟩ : ∃ u, u = updMod (fun u => { u with armed := false }) (s.pass dt) := ⟨_, rfl⟩
  have huupd : u.upd = { s.upd with armed := false } := by rw [hu]; rfl
  obtain ⟨old, staged, on, hupd⟩ := setInForce_upd u
  have hdone : activation (s.pass dt) = activateReset u := by
    unfold activation
    dsimp only
    rw [← hu, huupd, hcids]
    exact if_neg (show ¬ mirRole u = 1 by rw [hu]; exact hrole)
  obtain ⟨htrial, htrialg, htriala⟩ := fwMarked_marks (setInForce u)
  obtain ⟨hregs, hprov, helapsed⟩ := provInForce_leaves (fwMarked (setInForce u))
  have hmarks {f : Field} (hf : isSlots f) : (activateReset u).rd f = (fwMarked (setInForce u)).rd f := by
    rw [activateReset_eq, slots_sysReset hf (slots_ne hf (by decide)), updState_rd, rd_of_regs hregs]
  refine completes_of_onlyIf rfl hok ?_
  rw [hdone, hmarks (f := Reg.BKP_SET1_TRIAL) ⟨by decide, by decide⟩, hmarks (f := Reg.BKP_SET1_TRIALG) ⟨by decide, by decide⟩, hmarks (f := Reg.BKP_SET1_TRIALA) ⟨by decide, by decide⟩, activateReset_eq, sysReset_upd,
    sysReset_at, updState_upd, hprov]
  refine ⟨?_, rfl, htrial, htrialg, htriala.trans ?_, sysReset_cause _, ?_⟩
  · change (setInForce u).upd.armed = false
    rw [hupd, huupd]
  · rw [hupd, huupd]
  · have hst : (updState 6 (provInForce (fwMarked (setInForce u)))).elapsed = (provInForce (fwMarked (setInForce u))).elapsed := updState_parts _ _ _ (partsOnly_refl [.upd, .flight] _) rfl .elapsed (by decide)
    rw [hst, helapsed]
    refine (setInForce_elapsed u).trans ?_
    rw [hu]
    rfl

/-! ### The end of a trial (R711, R712) -/

/-- The slots of a trial that is confirmed become the last good ones. -/
def slotsConfirmed (s : State) : State :=
  let s1 := if s.on Reg.BKP_SET1_TRIALG then s.wr Reg.BKP_SET1_GLG (s.rd Reg.SYS_BOOT_GSLOT) else s
  if s1.on Reg.BKP_SET1_TRIALA then s1.wr Reg.BKP_SET1_ALG (s1.rd Reg.SYS_BOOT_ASLOT) else s1

/-- A trial is over and good, before the notice. -/
def trialDone (s : State) : State :=
  bundleSet s.upd.bid (fun b => { b with busy := false }) (updMod (fun u => { u with trialAt := none, confirmed := false, replaced := [] }) ((slotsConfirmed s).clr Reg.BKP_SET1_TRIAL))

theorem trialConfirm_eq (s : State) : trialConfirm s = updNotice 3 s.upd.bid (if (trialDone s).upd.armed then trialDone s else updState 0 (trialDone s)) := rfl

theorem slotsConfirmed_upd (s : State) : (slotsConfirmed s).upd = s.upd := by
  unfold slotsConfirmed
  dsimp only
  repeat' split
  all_goals rfl

/-- Writing one of the last good slots leaves what is not one of them. -/
theorem slotsConfirmed_reads (s : State) : (s.on Reg.BKP_SET1_TRIALG = true → (slotsConfirmed s).rd Reg.BKP_SET1_GLG = s.rd Reg.SYS_BOOT_GSLOT % 2) ∧
    (s.on Reg.BKP_SET1_TRIALA = true → (slotsConfirmed s).rd Reg.BKP_SET1_ALG = s.rd Reg.SYS_BOOT_ASLOT % 2) := by
  obtain ⟨u, hu⟩ : ∃ u, u = if s.on Reg.BKP_SET1_TRIALG then s.wr Reg.BKP_SET1_GLG (s.rd Reg.SYS_BOOT_GSLOT) else s := ⟨_, rfl⟩
  have hkept {f : Field} (hf : f.key ≠ Reg.BKP_SET1_GLG.key) : u.rd f = s.rd f := by
    rw [hu]
    exact proj_ite (fun t : State => t.rd f) (State.rd_wr_other _ _ hf) rfl
  have hdone : slotsConfirmed s = if u.on Reg.BKP_SET1_TRIALA then u.wr Reg.BKP_SET1_ALG (u.rd Reg.SYS_BOOT_ASLOT) else u := by
    rw [hu]
    rfl
  rw [hdone]
  refine ⟨fun hg => ?_, fun ha => ?_⟩
  · refine proj_ite (fun t : State => t.rd Reg.BKP_SET1_GLG) (a := u.wr Reg.BKP_SET1_ALG (u.rd Reg.SYS_BOOT_ASLOT)) ((State.rd_wr_other _ _ (by decide)).trans ?_) ?_ <;>
      exact (by rw [hu, if_pos hg]; exact State.rd_wr_same _ _ _)
  · rw [if_pos (show u.on Reg.BKP_SET1_TRIALA = true by rw [State.on, hkept (by decide)]; exact ha), State.rd_wr_same, hkept (by decide)]
    rfl

theorem updNotice_upd (event bid : Nat) (s : State) : (updNotice event bid s).upd = s.upd := updNotice_parts event bid s s (partsOnly_refl [.mboxes, .regs, .heldNotices] s) rfl .upd (by decide)

theorem trialConfirm_ends (dt : Nat) (s : State) (hok : trialConfirmOk (s.pass dt) = true) :
    completes (.trialConfirm dt) s (fun t => t.rd Reg.BKP_SET1_TRIAL = 0 ∧ t.upd.trialAt = none ∧ t.upd.replaced = [] ∧ (s.on Reg.BKP_SET1_TRIALG = true → t.rd Reg.BKP_SET1_GLG = s.rd Reg.SYS_BOOT_GSLOT % 2) ∧
      (s.on Reg.BKP_SET1_TRIALA = true → t.rd Reg.BKP_SET1_ALG = s.rd Reg.SYS_BOOT_ASLOT % 2) ∧ (s.upd.armed = false → t.upd.state = 0)) := by
  obtain ⟨u, hu⟩ : ∃ u, u = s.pass dt := ⟨_, rfl⟩
  have hrd {f : Field} (hf : isSlots f) : (trialConfirm u).rd f = (trialDone u).rd f := by
    rw [trialConfirm_eq, updNotice, notice_rd _ _ _ _ _ (.inl (Nat.lt_trans hf.2 (by decide)))]
    exact proj_ite (fun t : State => t.rd f) rfl (updState_rd _ _ _)
  have hslot {f : Field} (hf : isSlots f) (hne : f.key ≠ Reg.BKP_SET1_TRIAL.key) : (trialConfirm u).rd f = (slotsConfirmed u).rd f := by
    rw [hrd hf]
    exact State.rd_wr_other _ _ hne
  have hupd : (trialConfirm u).upd = if (trialDone u).upd.armed then (trialDone u).upd else { (trialDone u).upd with state := 0 } := by
    rw [trialConfirm_eq, updNotice_upd]
    split
    · rfl
    · rw [updState_upd]
  have hsame : u.upd = s.upd := by rw [hu]; rfl
  have harmed : (trialDone u).upd.armed = s.upd.armed := by
    rw [← hsame]
    exact (congrArg UpdSt.armed (slotsConfirmed_upd u) : (slotsConfirmed u).upd.armed = u.upd.armed)
  obtain ⟨hg, ha⟩ := slotsConfirmed_reads u
  refine completes_of_onlyIf rfl hok ?_
  rw [← hu, hrd ⟨by decide, by decide⟩, hslot (f := Reg.BKP_SET1_GLG) ⟨by decide, by decide⟩ (by decide), hslot (f := Reg.BKP_SET1_ALG) ⟨by decide, by decide⟩ (by decide), hupd]
  refine ⟨State.rd_wr_same _ _ _, ?_, ?_, fun h => (hg (by rw [hu]; exact h)).trans (by rw [hu]; rfl), fun h => (ha (by rw [hu]; exact h)).trans (by rw [hu]; rfl), fun h => ?_⟩
  · split <;> rfl
  · split <;> rfl
  · rw [harmed, h]
    rfl

/-- A fall back while the part runs, before its notice (R711). -/
theorem fallBack_upd (s : State) : (fallBack true s).upd = { s.upd with inst := s.upd.oldInst, trialAt := none, armed := false, fell := true, replaced := [], state := 7 } := by
  rw [fallBack, updState_upd, tablesBack_upd]
  rfl

theorem slots_fallBack {f : Field} (hf : isSlots f) (s : State) : (fallBack true s).rd f = (s.clr Reg.BKP_SET1_TRIAL).rd f := by
  rw [fallBack, updState_rd, slots_tablesBack hf]
  rfl

theorem fellNotice_rd {f : Field} (hf : offMbx f) (s : State) : (fellNotice s).rd f = s.rd f := proj_ite (fun t : State => t.rd f) (notice_rd _ _ _ _ _ hf) rfl

theorem fellNotice_upd (s : State) : ∃ b, (fellNotice s).upd = { s.upd with fell := b } := by
  unfold fellNotice
  split
  · rw [updNotice_upd]
    exact ⟨false, rfl⟩
  · exact ⟨s.upd.fell, rfl⟩

theorem confwinExpiry_app (dt : Nat) (s : State) (hok : confwinExpiryOk (s.pass dt) = true) (hg : s.on Reg.BKP_SET1_TRIALG = false) :
    completes (.confwinExpiry dt) s (fun t => t.rd Reg.BKP_SET1_TRIAL = 0 ∧ t.rd Reg.SYS_BOOT_ASLOT = s.rd Reg.BKP_SET1_ALG % 2 ∧ t.upd.state = 7 ∧ t.upd.inst = s.upd.oldInst) := by
  obtain ⟨u, hu⟩ : ∃ u, u = fallBack true (s.pass dt) := ⟨_, rfl⟩
  have hlast : u.rd Reg.BKP_SET1_ALG = s.rd Reg.BKP_SET1_ALG := by
    rw [hu, slots_fallBack ⟨by decide, by decide⟩, State.clr, State.rd_wr_other _ _ (by decide)]
    rfl
  have htrial : u.rd Reg.BKP_SET1_TRIAL = 0 := by
    rw [hu, slots_fallBack ⟨by decide, by decide⟩]
    exact State.rd_wr_same _ _ _
  have hdone : confwinExpiry (s.pass dt) = fellNotice (appRestart (u.wr Reg.SYS_BOOT_ASLOT (u.rd Reg.BKP_SET1_ALG))) := by
    unfold confwinExpiry
    dsimp only
    rw [← hu]
    exact if_neg (by rw [show (s.pass dt).on Reg.BKP_SET1_TRIALG = false from hg]; decide)
  have hrd {f : Field} (hf : offMbx f) : (confwinExpiry (s.pass dt)).rd f = (u.wr Reg.SYS_BOOT_ASLOT (u.rd Reg.BKP_SET1_ALG)).rd f := by
    rw [hdone, fellNotice_rd hf, appRestart_rd]
  obtain ⟨b, hb⟩ := fellNotice_upd (appRestart (u.wr Reg.SYS_BOOT_ASLOT (u.rd Reg.BKP_SET1_ALG)))
  rw [← hdone, appRestart_upd, State.wr_upd] at hb
  refine completes_of_onlyIf rfl hok ?_
  rw [hrd (.inl (by decide)), hrd (.inr (by decide)), hb, State.rd_wr_other _ _ (by decide), State.rd_wr_same, hlast, htrial, hu, fallBack_upd]
  exact ⟨rfl, rfl, rfl, rfl⟩

theorem confwinExpiry_fw (dt : Nat) (s : State) (hok : confwinExpiryOk (s.pass dt) = true) (hg : s.on Reg.BKP_SET1_TRIALG = true) :
    completes (.confwinExpiry dt) s (fun t => t.rd Reg.BKP_SET1_TRIAL = 0 ∧ t.rd Reg.SYS_RSTCAUSE_SOFT = 1 ∧ t.upd.state = 7 ∧ t.upd.inst = s.upd.oldInst) := by
  have hdone : confwinExpiry (s.pass dt) = sysReset Reg.SYS_RSTCAUSE_SOFT (fallBack true (s.pass dt)) := by
    unfold confwinExpiry
    exact if_pos hg
  refine completes_of_onlyIf rfl hok ?_
  rw [hdone, slots_sysReset ⟨by decide, by decide⟩ (by decide), slots_fallBack ⟨by decide, by decide⟩, sysReset_upd, fallBack_upd]
  exact ⟨State.rd_wr_same _ _ _, sysReset_cause _, rfl, rfl⟩

end Sys2Proof.Machine

open Sys2Proof Sys2Proof.Machine

/-- Settles O40: what each kind of activation and each end of a trial does, by its own lemma. -/
theorem updateActivation : Obligations.UpdateActivation := by
  unfold Obligations.UpdateActivation
  exact ⟨activation_sets, activation_app, activation_resets, activation_waits, trialConfirm_ends, confwinExpiry_app, confwinExpiry_fw⟩
end


section
/-!
SUPPORT. The luminaire service (R725 to R733, R737, R738) and the coordinator's registry and dispatches (R740, R744).
-/
namespace Sys2Proof.Machine

/-! ### The day's entries (R732) -/

theorem lumDrop_lum (a : LumAct) (s : State) : (lumDrop a s).lum = { s.lum with acts := s.lum.acts.filter (fun x => !(x == a)) } := by
  unfold lumDrop
  dsimp only
  split
  · rw [cmpDisarm_lum]
    rfl
  · rfl

theorem lumDrops_lum (l : List LumAct) (s : State) : (l.foldl (fun t a => lumDrop a t) s).lum = { s.lum with acts := s.lum.acts.filter (fun x => !l.contains x) } := by
  induction l generalizing s with
  | nil => simp
  | cons a l ih =>
    rw [List.foldl_cons, ih, lumDrop_lum, List.filter_filter]
    refine congrArg (fun acts => { s.lum with acts := acts }) (List.filter_congr fun x _ => ?_)
    rw [List.contains_cons, Bool.not_or, Bool.and_comm]

/-- An action without the comparator that carries it. -/
def uncarried (a : LumAct) : LumAct := { a with cmp := none }

/-- Giving comparators to the waiting actions changes that alone of them. -/
structure Carried (l m : Lum) : Prop where
  acts : m.acts.map uncarried = l.acts.map uncarried
  rest : ∃ n acts, m = { l with nextCmp := n, acts := acts }

theorem carried_lumArm (k : Nat) (s : State) : Carried s.lum (lumArm k s).lum := by
  induction k generalizing s with
  | zero => exact ⟨rfl, s.lum.nextCmp, s.lum.acts, rfl⟩
  | succ k ih =>
    unfold lumArm
    split
    · next a n _ _ =>
      obtain ⟨hacts, c, acts, hrest⟩ := ih (lumArmCmp n a.t (lumMod (fun l => { l with nextCmp := 2 + (n - 1) % 6, acts := l.acts.map (fun x => if x = a then { x with cmp := some n } else x) }) s))
      rw [lumArmCmp_lum] at hacts hrest
      refine ⟨hacts.trans ?_, c, acts, hrest⟩
      change (s.lum.acts.map _).map uncarried = _
      rw [List.map_map]
      refine List.map_congr_left fun x _ => ?_
      simp only [Function.comp]
      split <;> rfl
    · exact ⟨rfl, s.lum.nextCmp, s.lum.acts, rfl⟩

/-- The entries of the schedule among the actions, by time, level and fade. -/
def entriesOf (l : List LumAct) : List (Nat × Nat × Nat) := (l.filter (fun a => a.src == 1)).map (fun a => (a.t, a.level, a.fade))

theorem entriesOf_uncarried (l : List LumAct) : entriesOf (l.map uncarried) = entriesOf l := by
  rw [entriesOf, List.filter_map, List.map_map]
  rfl

theorem Carried.entries {l m : Lum} (h : Carried l m) : entriesOf m.acts = entriesOf l.acts := by rw [← entriesOf_uncarried, h.acts, entriesOf_uncarried]

theorem dayActs_src {s : State} {day : Nat} {a : LumAct} (h : a ∈ dayActs s day) : a.src = 1 := by
  obtain ⟨p, -, rfl⟩ := List.mem_map.1 h
  rfl

theorem entriesOf_of_src {l : List LumAct} (h : ∀ a ∈ l, a.src = 1) : entriesOf l = l.map (fun a => (a.t, a.level, a.fade)) := by
  rw [entriesOf, List.filter_eq_self.2 fun a ha => by rw [h a ha]; rfl]

/-- The entries of the earlier day go. -/
theorem entriesOf_dropped (l : List LumAct) : entriesOf (l.filter (fun x => !(l.filter (fun a => a.src == 1)).contains x)) = [] := by
  rw [entriesOf, List.filter_filter, List.map_eq_nil_iff, List.filter_eq_nil_iff]
  intro a ha hp
  simp_all

theorem midnightCompute_day (dt : Nat) (s : State) (hon : s.on Reg.LMP_STAT_SVC = true) (hsched : s.lum.sched ≠ []) (hday : s.lum.day ≠ some (localDay (s.pass dt))) :
    completes (.midnightCompute dt) s (fun t => t.lum.day = some (localDay (s.pass dt)) ∧ t.lum.force = s.lum.force ∧ t.lum.level = s.lum.level ∧
      (t.lum.acts.filter (fun a => a.src == 1)).map (fun a => (a.t, a.level, a.fade)) =
        ((dayActs (s.pass dt) (localDay (s.pass dt))).filter (fun a => decide ((s.pass dt).now < a.t))).map (fun a => (a.t, a.level, a.fade))) := by
  have hok : midnightComputeOk (s.pass dt) = true := by
    simp only [midnightComputeOk, Bool.and_eq_true, bne_iff_ne, ne_eq, Bool.not_eq_true', List.isEmpty_eq_false_iff]
    exact ⟨⟨hon, hsched⟩, hday⟩
  refine completes_of_onlyIf rfl hok ?_
  unfold lumDay
  generalize hcoming : (dayActs (s.pass dt) (localDay (s.pass dt))).filter (fun a => decide ((s.pass dt).now < a.t)) = coming
  have hsrc : ∀ a ∈ coming, a.src = 1 := fun a ha => dayActs_src (List.mem_filter.1 (hcoming ▸ ha)).1
  have hdrops := lumDrops_lum ((s.pass dt).lum.acts.filter (fun a => a.src == 1)) (s.pass dt)
  generalize ((s.pass dt).lum.acts.filter (fun a => a.src == 1)).foldl (fun t a => lumDrop a t) (s.pass dt) = u at hdrops ⊢
  have hcarried := carried_lumArm 6 (lumMod (fun l => { l with day := some (localDay (s.pass dt)), acts := l.acts ++ coming }) u)
  generalize lumArm 6 (lumMod (fun l => { l with day := some (localDay (s.pass dt)), acts := l.acts ++ coming }) u) = t at hcarried ⊢
  have hentries := hcarried.entries
  obtain ⟨n, acts, hrest⟩ := hcarried.rest
  refine ⟨by rw [hrest]; rfl, ?_, ?_, ?_⟩
  · rw [hrest]
    change u.lum.force = s.lum.force
    rw [hdrops]
    rfl
  · rw [hrest]
    change u.lum.level = s.lum.level
    rw [hdrops]
    rfl
  · rw [← entriesOf_of_src hsrc]
    refine hentries.trans ?_
    change entriesOf (u.lum.acts ++ coming) = _
    rw [hdrops, entriesOf, List.filter_append, List.map_append]
    exact congrArg (· ++ entriesOf coming) (entriesOf_dropped _)

theorem dayActs_has (day i : Nat) (e : List Nat) (s : State) (he : e = schedEntry s.lum.sched i) (hi : i < schedNent s.lum.sched) (hday : bitOf (entDays e) ((day + 5) % 7) = 1) (hkind : entKind e ≤ 2)
    (hlast : ∀ j, i < j → entFt s s.lum.sched day j ≠ entFt s s.lum.sched day i) :
    ∃ a ∈ dayActs s day, a.src = 1 ∧ a.level = entLevel e ∧ a.fade = entFade e ∧
      (entKind e = 0 → a.t = ftS (firnOfLocal s s.lum.sched (86400 * day + entTime e)).toNat) ∧
      (entKind e ≠ 0 → a.t = ftS ((day * 86400 + sunAt s (entKind e == 1) (dayOfYear day) : Nat) + s.firn.utcOff + toSigned 32 (entTime e)).toNat) := by
  subst he
  have htimed : ¬ (bitOf (entDays (schedEntry s.lum.sched i)) (weekday day) = 0 ∨ 2 < entKind (schedEntry s.lum.sched i)) := by
    rw [show bitOf (entDays (schedEntry s.lum.sched i)) (weekday day) = 1 from hday]
    omega
  obtain ⟨at_, hat⟩ : ∃ at_, entFt s s.lum.sched day i = some at_ := by
    unfold entFt
    dsimp only
    rw [if_neg htimed]
    split <;> exact ⟨_, rfl⟩
  refine ⟨_, List.mem_map.2 ⟨(i, at_), List.mem_filter.2 ⟨List.mem_filterMap.2 ⟨i, List.mem_range.2 hi, by rw [hat]; rfl⟩, ?_⟩, rfl⟩, rfl, rfl, rfl, fun h0 => ?_, fun h0 => ?_⟩
  · simp only [Bool.not_eq_true', List.any_eq_false, List.mem_filterMap, List.mem_range]
    rintro ⟨j, tj⟩ ⟨k, -, hk⟩ hq
    obtain ⟨tk, htk, heq⟩ := Option.map_eq_some_iff.1 hk
    obtain ⟨rfl, rfl⟩ := Prod.mk.inj heq
    simp only [Bool.and_eq_true, beq_iff_eq, decide_eq_true_eq] at hq
    obtain ⟨rfl, hlt⟩ := hq
    exact hlast k hlt (htk.trans hat.symm)
  · unfold entFt at hat
    dsimp only at hat
    rw [if_neg htimed, if_pos h0, Nat.mul_comm day] at hat
    exact (Option.some.inj hat).symm
  · unfold entFt at hat
    dsimp only at hat
    rw [if_neg htimed, if_neg h0] at hat
    exact (Option.some.inj hat).symm

/-! ### A level on the outputs (R725) -/

theorem arcFeed_lum (s : State) : ∃ arc, (arcFeed s).lum = { s.lum with arc := arc } := by
  unfold arcFeed
  split
  · exact ⟨s.lum.arc, rfl⟩
  · split
    · exact ⟨s.lum.arc, rfl⟩
    · refine ⟨none, ?_⟩
      change { (daliSend _).lum with arc := none } = _
      rw [daliSend_lum]
      rfl

theorem lumWrite_lum (lt dali : Bool) (level : Nat) (s : State) : ∃ arc, (lumWrite lt dali level s).lum = { (burnCount s).lum with level := level, levelOut := levelOut s level, arc := arc } := by
  unfold lumWrite
  dsimp only
  generalize hu : lmpApplyWrite _ = u
  have hlum : u.lum = (burnCount s).lum := by
    rw [← hu]
    cases lt <;> rfl
  obtain ⟨arc, harc⟩ := arcFeed_lum (lumMod (fun l => { l with level := level, levelOut := levelOut (burnCount s) level, arc := if dali && bitOf (dimOutputs (burnCount s)) 2 == 1 then some (interp (dimCurve (burnCount s) 8 1) (levelOut (burnCount s) level) % 256) else l.arc }) u)
  refine ⟨arc, harc.trans ?_⟩
  change { u.lum with level := level, levelOut := levelOut (burnCount s) level, arc := arc } = _
  rw [hlum]
  rfl

theorem lumMod_rd (g : Lum → Lum) (s : State) (f : Field) : (lumMod g s).rd f = s.rd f := rfl

theorem lmpApplyWrite_rd (s : State) (f : Field) : (lmpApplyWrite s).rd f = if f.key = Reg.LMP_CTL_APPLY.key then 1 else s.rd f := State.rd_set1 s _ f

/-- What a level written at once leaves in the shadows of the outputs. -/
structure Lit (lv : Nat) (s t : State) : Prop where
  apply_ : t.rd Reg.LMP_CTL_APPLY = 1
  lten : t.rd Reg.LMP_CTL_LTEN = 0
  duty : ∀ n, n < 2 → t.rd (Reg.LMP_PWM_DUTY_DUTY n) = (if bitOf (dimOutputs s) n = 1 then interp (dimCurve s 2 2) lv else 0) % 2 ^ (Reg.LMP_PWM_DUTY_DUTY n).width
  dac : t.rd Reg.LMP_DAC_CODE = (if bitOf (dimOutputs s) 3 = 1 then interp (dimCurve s 4 2) lv else 0) % 2 ^ Reg.LMP_DAC_CODE.width

theorem lit_lumWrite (dali : Bool) (level : Nat) (s : State) : Lit (levelOut s level) s (lumWrite false dali level s) := by
  refine ⟨?_, ?_, fun n hn => ?_, ?_⟩
  · unfold lumWrite
    rw [arcFeed_rd _ (by decide), lumMod_rd, lmpApplyWrite_rd, if_pos rfl]
  · unfold lumWrite
    rw [arcFeed_rd _ (by decide), lumMod_rd, lmpApplyWrite_rd, if_neg (by decide), if_neg Bool.false_ne_true]
    exact State.rd_wr_same _ _ _
  · unfold lumWrite
    obtain rfl | rfl : n = 0 ∨ n = 1 := by omega
    · rw [arcFeed_rd _ (by decide), lumMod_rd, lmpApplyWrite_rd, if_neg (by decide), if_neg Bool.false_ne_true]
      repeat rw [State.rd_wr_other _ _ (by decide)]
      exact State.rd_wr_same _ _ _
    · rw [arcFeed_rd _ (by decide), lumMod_rd, lmpApplyWrite_rd, if_neg (by decide), if_neg Bool.false_ne_true]
      repeat rw [State.rd_wr_other _ _ (by decide)]
      exact State.rd_wr_same _ _ _
  · unfold lumWrite
    rw [arcFeed_rd _ (by decide), lumMod_rd, lmpApplyWrite_rd, if_neg (by decide), if_neg Bool.false_ne_true]
    repeat rw [State.rd_wr_other _ _ (by decide)]
    exact State.rd_wr_same _ _ _

/-! ### An action that takes effect (R725, R728, R732) -/

/-- An action without a fade, outside the failsafe case, is the source in force and stands on the outputs. -/
theorem lumTake_lights {a : LumAct} {s : State} (hsafe : s.lum.failsafe = false) (hfade : a.fade = 0) :
    ∃ arc, (lumTake false a s).lum = { (burnCount s).lum with force := { a with cmp := none }, fade := none, level := a.level, levelOut := levelOut s a.level, arc := arc } ∧
      Lit (levelOut s a.level) s (lumTake false a s) := by
  have htake : lumTake false a s = lumWrite false true a.level (lumMod (fun l => { l with fade := none }) (lumMod (fun l => { l with force := { a with cmp := none } }) s)) := by
    unfold lumTake
    dsimp only
    rw [show (lumMod (fun l => { l with force := { a with cmp := none } }) s).lum.failsafe = false from hsafe, if_neg Bool.false_ne_true, if_pos hfade]
  obtain ⟨arc, hlum⟩ := lumWrite_lum false true a.level (lumMod (fun l => { l with fade := none }) (lumMod (fun l => { l with force := { a with cmp := none } }) s))
  obtain ⟨happly, hlten, hduty, hdac⟩ := lit_lumWrite true a.level (lumMod (fun l => { l with fade := none }) (lumMod (fun l => { l with force := { a with cmp := none } }) s))
  rw [htake]
  exact ⟨arc, hlum, happly, hlten, hduty, hdac⟩

theorem scheduleEntry_takes (dt lv : Nat) (a : LumAct) (s : State) (hon : s.on Reg.LMP_STAT_SVC = true) (hdue : lumDue (s.pass dt) = some a) (hsrc : a.src = 1) (hcmp : a.cmp = none) (hfade : a.fade = 0)
    (hsafe : s.lum.failsafe = false) (hlater : s.lum.force.t < a.t) (hlv : lv = levelOut s a.level) :
    completes (.scheduleEntry dt) s (fun t => t.lum.force = a ∧ t.lum.level = a.level ∧ t.lum.levelOut = lv ∧ t.lum.fade = none ∧ t.rd Reg.LMP_CTL_APPLY = 1 ∧ t.rd Reg.LMP_CTL_LTEN = 0 ∧
      (∀ n, n < 2 → t.rd (Reg.LMP_PWM_DUTY_DUTY n) = (if bitOf (dimOutputs s) n = 1 then interp (dimCurve s 2 2) lv else 0) % 2 ^ (Reg.LMP_PWM_DUTY_DUTY n).width) ∧
      t.rd Reg.LMP_DAC_CODE = (if bitOf (dimOutputs s) 3 = 1 then interp (dimCurve s 4 2) lv else 0) % 2 ^ Reg.LMP_DAC_CODE.width) := by
  subst hlv
  obtain ⟨u, hu⟩ : ∃ u, u = lumMod (fun l => { l with acts := l.acts.filter (fun x => !(x == a)) }) (s.pass dt) := ⟨_, rfl⟩
  have hok : scheduleEntryOk (s.pass dt) = true := by
    simp only [scheduleEntryOk, hdue, Option.isSome_some, Bool.and_true]
    exact hon
  have hdone : scheduleEntry (s.pass dt) = lumArm 6 (lumTake false a u) := by
    have hnew : ¬ ({ (s.pass dt).lum.force with cmp := none } : LumAct) = { a with cmp := none } := fun h => by
      have ht := congrArg LumAct.t h
      exact Nat.ne_of_lt hlater ht
    have houtranks : outranks a (s.pass dt).lum.force = true := by
      rw [outranks, decide_eq_true (show (s.pass dt).lum.force.t < a.t from hlater), Bool.true_or]
    unfold scheduleEntry
    simp only [hdue]
    rw [if_pos hsrc, if_neg hnew, if_pos houtranks, ← hu]
  obtain ⟨arc, hlum, happly, hlten, hduty, hdac⟩ := lumTake_lights (a := a) (s := u) (by rw [hu]; exact hsafe) hfade
  obtain ⟨n, acts, hrest⟩ := (carried_lumArm 6 (lumTake false a u)).rest
  have hlevel : levelOut u a.level = levelOut s a.level := by
    rw [hu]
    rfl
  have htables : dimOutputs u = dimOutputs s ∧ dimCurve u = dimCurve s := by
    rw [hu]
    exact ⟨rfl, rfl⟩
  obtain ⟨hout, hcurve⟩ := htables
  rw [hlevel, hout, hcurve] at hduty hdac
  refine completes_of_onlyIf rfl hok ?_
  rw [hdone, hrest, hlum, hlevel, lumArm_rd 6 _ (f := Reg.LMP_CTL_APPLY) (.inr (by decide)), lumArm_rd 6 _ (f := Reg.LMP_CTL_LTEN) (.inr (by decide)), lumArm_rd 6 _ (f := Reg.LMP_DAC_CODE) (.inr (by decide))]
  refine ⟨by cases a; subst hcmp; rfl, rfl, rfl, rfl, happly, hlten, fun n hn => ?_, hdac⟩
  rw [lumArm_rd 6 _ (.inr (by simp only [Field.key, Reg.LMP_PWM_DUTY_DUTY]; omega))]
  exact hduty n hn

theorem photocellEntry_takes (i dt t0 : Nat) (s : State) (hok : photocellEntryOk i (s.pass dt) = true) (hsafe : s.lum.failsafe = false) (hfade : entFade (schedEntry s.lum.sched i) = 0) (hheld : look i s.lum.photo = some (t0, false)) :
    completes (.photocellEntry i dt) s (fun t => t.lum.force.src = 4 ∧ t.lum.force.t = (s.pass dt).now ∧ t.lum.level = entLevel (schedEntry s.lum.sched i) ∧ look i t.lum.photo = some (t0, true) ∧ t.rd Reg.LMP_CTL_LTEN = 0) := by
  obtain ⟨a, ha⟩ : ∃ a : LumAct, a = { src := 4, group := 0, tag := 0, t := (s.pass dt).now, level := entLevel (schedEntry s.lum.sched i), fade := entFade (schedEntry s.lum.sched i), order := s.lum.order, cmp := none } := ⟨_, rfl⟩
  obtain ⟨u, hu⟩ : ∃ u, u = lumMod (fun l => { l with order := l.order + 1, photo := put i (((look i l.photo).getD (0, true)).1, true) l.photo }) (s.pass dt) := ⟨_, rfl⟩
  have hdone : photocellEntry i (s.pass dt) = lumTake false a u := by
    rw [ha, hu]
    rfl
  obtain ⟨arc, hlum, hlit⟩ := lumTake_lights (a := a) (s := u) (by rw [hu]; exact hsafe) (by rw [ha]; exact hfade)
  refine completes_of_onlyIf rfl hok ?_
  rw [hdone, hlum]
  refine ⟨by rw [ha], by rw [ha], by rw [ha], ?_, hlit.lten⟩
  change look i u.lum.photo = some (t0, true)
  rw [hu]
  change look i (put i (((look i s.lum.photo).getD (0, true)).1, true) s.lum.photo) = some (t0, true)
  rw [look_put_same, hheld]
  rfl

/-! ### Fades (R726) and constant light output (R733) -/

theorem fadeStep_ends (dt : Nat) (f : LumFade) (s : State) (hon : s.on Reg.LMP_STAT_SVC = true) (hf : s.lum.fade = some f) (hend : f.end_ ≤ (s.pass dt).now) :
    completes (.fadeStep dt) s (fun t => t.lum.fade = none ∧ t.lum.level = f.target ∧ t.lum.levelOut = levelOut s f.target ∧ t.rd Reg.LMP_CTL_APPLY = 1) := by
  have hf : (s.pass dt).lum.fade = some f := hf
  have hok : fadeStepOk (s.pass dt) = true := by
    unfold fadeStepOk
    rw [hf]
    simp only [decide_eq_true hend, Bool.or_true, Bool.and_true]
    exact hon
  have hdone : fadeStep (s.pass dt) = lumWrite false true f.target (lumMod (fun l => { l with fade := none }) (s.pass dt)) := by
    unfold fadeStep
    rw [hf]
    exact if_pos hend
  obtain ⟨arc, hlum⟩ := lumWrite_lum false true f.target (lumMod (fun l => { l with fade := none }) (s.pass dt))
  refine completes_of_onlyIf rfl hok ?_
  rw [hdone, hlum]
  exact ⟨rfl, rfl, rfl, (lit_lumWrite _ _ _).apply_⟩

theorem fadeLevel_between (s : State) (target : Nat) : min s.lum.level target ≤ fadeLevel s target ∧ fadeLevel s target ≤ max s.lum.level target := by
  unfold fadeLevel
  dsimp only
  split
  · have := Nat.mod_lt s.free (show 0 < target - s.lum.level + 1 from Nat.succ_pos _)
    omega
  · have := Nat.mod_lt s.free (show 0 < s.lum.level - target + 1 from Nat.succ_pos _)
    omega

theorem fadeStep_steps (dt : Nat) (f : LumFade) (s : State) (hon : s.on Reg.LMP_STAT_SVC = true) (hf : s.lum.fade = some f) (hend : (s.pass dt).now < f.end_) (hstep : f.at_ + cycMs 10 ≤ s.elapsed + dt) :
    completes (.fadeStep dt) s (fun t => t.lum.fade = some { f with at_ := s.elapsed + dt, daliAt := if f.daliAt + cycMs 100 ≤ s.elapsed + dt then s.elapsed + dt else f.daliAt } ∧
      min s.lum.level f.target ≤ t.lum.level ∧ t.lum.level ≤ max s.lum.level f.target) := by
  have hf : (s.pass dt).lum.fade = some f := hf
  have hok : fadeStepOk (s.pass dt) = true := by
    unfold fadeStepOk
    rw [hf]
    simp only [decide_eq_true (show f.at_ + cycMs 10 ≤ (s.pass dt).elapsed from hstep), Bool.true_or, Bool.and_true]
    exact hon
  obtain ⟨d, hd⟩ : ∃ d, d = decide (f.daliAt + cycMs 100 ≤ s.elapsed + dt) := ⟨_, rfl⟩
  obtain ⟨u, hu⟩ : ∃ u, u = lumMod (fun l => { l with fade := some { f with at_ := s.elapsed + dt, daliAt := if d then s.elapsed + dt else f.daliAt } }) (s.pass dt) := ⟨_, rfl⟩
  have hdone : fadeStep (s.pass dt) = (lumWrite false d (fadeLevel (s.pass dt) f.target) u).drawn 1 := by
    unfold fadeStep
    rw [hf, hu, hd]
    exact if_neg (Nat.not_le.2 hend)
  obtain ⟨arc, hlum⟩ := lumWrite_lum false d (fadeLevel (s.pass dt) f.target) u
  refine completes_of_onlyIf rfl hok ?_
  rw [hdone, State.drawn_lum, hlum]
  refine ⟨?_, fadeLevel_between (s.pass dt) f.target⟩
  change u.lum.fade = _
  rw [hu, hd]
  simp [lumMod]

theorem cloUpdate_counts (dt m : Nat) (s : State) (hon : s.on Reg.LMP_STAT_SVC = true) (hhour : s.lum.cloAt + cycS 3600 ≤ s.elapsed + dt) (hm : m = lumMinutes (burnCount (s.pass dt))) :
    completes (.cloUpdate dt) s (fun t => t.lum.hours = m ∧ t.lum.cloAt = s.elapsed + dt ∧ t.lum.factor = cloFactor s m ∧ t.lum.levelOut = min 1000 (roundDiv ((s.lum.level * cloFactor s m : Nat) : Int) 1000).toNat) := by
  have hok : cloUpdateOk (s.pass dt) = true := by
    rw [cloUpdateOk, decide_eq_true (show (s.pass dt).lum.cloAt + cycS 3600 ≤ (s.pass dt).elapsed from hhour), Bool.and_true]
    exact hon
  obtain ⟨u, hu⟩ : ∃ u, u = lumMod (fun l => { l with hours := m, cloAt := s.elapsed + dt, factor := cloFactor s m }) (burnCount (s.pass dt)) := ⟨_, rfl⟩
  have hlevel : levelOut u u.lum.level = min 1000 (roundDiv ((s.lum.level * cloFactor s m : Nat) : Int) 1000).toNat := by
    rw [hu]
    rfl
  have hdone : cloUpdate (s.pass dt) = if levelOut u u.lum.level = u.lum.levelOut then u else lumWrite false true u.lum.level u := by
    rw [hu, hm]
    rfl
  refine completes_of_onlyIf rfl hok ?_
  rw [hdone]
  split
  · next hsame =>
    rw [← hsame, hlevel, hu]
    exact ⟨rfl, rfl, rfl, rfl⟩
  · obtain ⟨arc, hlum⟩ := lumWrite_lum false true u.lum.level u
    rw [hlum]
    refine ⟨?_, ?_, ?_, hlevel⟩
    · rw [hu]
      rfl
    · rw [hu]
      rfl
    · rw [hu]
      rfl

/-! ### The poll and the reports (R737, R738) -/

theorem faultBit_pollAt (bit : Nat) (s : State) : (faultBit bit s).lum.pollAt = s.lum.pollAt := by
  rcases faultBit_cases bit s with h | ⟨l, h⟩ | ⟨c, h⟩ <;> rw [h]
  · rfl
  · rw [faultChange_lum]
    rfl

theorem faultEval_pollAt (s : State) : (faultEval s).lum.pollAt = s.lum.pollAt := by
  unfold faultEval
  exact proj_ite (fun t : State => t.lum.pollAt) (foldl_same (fun t : State => t.lum.pollAt) _ _ s fun t b => faultBit_pollAt b t) rfl

theorem faultEval_lmp (s : State) : (faultEval s).lmp = s.lmp := faultEval_parts s s (partsOnly_refl [.mboxes, .regs, .heldNotices, .flight, .lum] s) rfl .lmp (by decide)

theorem daliPoll_polls (dt : Nat) (s : State) (hok : daliPollOk (s.pass dt) = true) :
    completes (.daliPoll dt) s (fun t => t.rd Reg.LMP_DALI_TX_FRAME = 0xFF90 ∧ t.rd Reg.LMP_DALI_TX_LEN = 0 ∧ t.rd Reg.LMP_DALI_TX_BW = 1 ∧ t.rd Reg.LMP_STAT_DALIBUSY = 1 ∧ t.lum.pollAt = s.elapsed + dt ∧
      t.lmp.dali = some { frame := 0xFF90, long := false, bw := true, poll := true, at_ := s.elapsed + dt }) := by
  obtain ⟨u, hu⟩ : ∃ u, u = ((s.pass dt).wr Reg.LMP_DALI_TX_FRAME 0xFF90).clr Reg.LMP_DALI_TX_LEN := ⟨_, rfl⟩
  obtain ⟨v, hv⟩ : ∃ v, v = lumMod (fun l => { l with pollAt := s.elapsed + dt }) (daliQueue { frame := 0xFF90, long := false, bw := true, poll := true, at_ := s.elapsed + dt } (u.set1 Reg.LMP_DALI_TX_BW)) := ⟨_, rfl⟩
  have hdone : daliPoll (s.pass dt) = faultEval v := by
    rw [hv, hu]
    rfl
  have hrd (f : Field) : v.rd f = ((u.set1 Reg.LMP_DALI_TX_BW).set1 Reg.LMP_STAT_DALIBUSY).rd f := by rw [hv]; rfl
  refine completes_of_onlyIf rfl hok ?_
  rw [hdone, faultEval_rd v (.inr (by decide)) (by decide), faultEval_rd v (.inr (by decide)) (by decide), faultEval_rd v (.inr (by decide)) (by decide), faultEval_rd v (.inr (by decide)) (by decide), faultEval_pollAt,
    faultEval_lmp, hrd, hrd, hrd, hrd]
  refine ⟨?_, ?_, ?_, State.rd_wr_same _ _ _, by rw [hv]; rfl, by rw [hv]; rfl⟩
  · rw [State.set1, State.rd_wr_other _ _ (by decide), State.set1, State.rd_wr_other _ _ (by decide), hu, State.clr, State.rd_wr_other _ _ (by decide), State.rd_wr_same]
    rfl
  · rw [State.set1, State.rd_wr_other _ _ (by decide), State.set1, State.rd_wr_other _ _ (by decide), hu]
    exact State.rd_wr_same _ _ _
  · rw [State.set1, State.rd_wr_other _ _ (by decide)]
    exact State.rd_wr_same _ _ _

theorem statusReport_sends (dt : Nat) (s : State) (hok : statusReportOk (s.pass dt) = true) :
    completes (.statusReport dt) s (fun t => ∃ u, u.lum = { s.lum with repAt := s.elapsed + dt } ∧ u.msh = s.msh ∧ u.lnk = s.lnk ∧ t = unicastSend coordShort 2 0 3 ([2, 0] ++ leBytes 2 s.lum.levelOut ++ leBytes 2 (leAt s.lum.sched 0 2) ++
      leBytes 4 (s.rd Reg.LMP_FAULTS) ++ leBytes 4 (lumMinutes (burnCount (s.pass dt))) ++ leBytes 4 (s.lum.energy / 2250000 % 2 ^ 32)) u) :=
  completes_of_onlyIf rfl hok ⟨lumMod (fun l => { l with repAt := s.elapsed + dt }) (s.pass dt), rfl, rfl, rfl, rfl⟩

theorem meterReport_sends (dt : Nat) (s : State) (hok : meterReportOk (s.pass dt) = true) :
    completes (.meterReport dt) s (fun t => t.lum = { s.lum with metAt := s.elapsed + dt, peak := 0, vsum := 0, vcount := 0 } ∧ ∃ u, u.msh = s.msh ∧ u.lnk = s.lnk ∧
      t = unicastSend coordShort 2 0 4 (leBytes 4 (s.lum.energy / 2250000 % 2 ^ 32) ++ leBytes 2 s.lum.peak ++ leBytes 2 (if s.lum.vcount = 0 then 0 else (roundDiv s.lum.vsum s.lum.vcount).toNat)) u) := by
  refine completes_of_onlyIf rfl hok ⟨?_, lumMod (fun l => { l with metAt := s.elapsed + dt, peak := 0, vsum := 0, vcount := 0 }) (s.pass dt), rfl, rfl, rfl⟩
  exact (meshOnly_unicastSend _ _ _ _ _ _).parts .lum (by decide)

/-! ### The registry and the dispatches (R740, R744) -/

theorem coActive_pass (dt : Nat) (s : State) : coActive (s.pass dt) = coActive s := rfl

theorem registrySave_saves (dt : Nat) (s : State) (hactive : coActive s = true) (hdue : s.co.saveAt + cycS 900 ≤ s.elapsed + dt) :
    completes (.registrySave dt) s (fun t => t.co = { s.co with savedNodes := s.co.nodes, savedAdmit := s.co.admitted, saveAt := s.elapsed + dt } ∧ changesOnly [] [.co] (s.pass dt) t) := by
  have hok : registrySaveOk (s.pass dt) = true := by
    rw [registrySaveOk, coActive_pass, hactive, decide_eq_true (show (s.pass dt).co.saveAt + cycS 900 ≤ (s.pass dt).elapsed from hdue)]
    rfl
  exact completes_of_onlyIf rfl hok ⟨rfl, fun _ _ => ⟨rfl, rfl⟩, coSave_parts _ _ (partsOnly_refl _ _) rfl⟩

/-- A dispatch of one member that has been sent the object has nothing more to send. -/
theorem dispFill_one {d : CoDisp} {m : CoMember} (hm : d.members = [m]) (hsent : 1 ≤ m.sends) (s : State) : dispFill 16 d s = (d, s) := by
  have hfew : ¬ 16 ≤ (d.members.filter memberOut).length := by
    have := List.length_filter_le memberOut d.members
    rw [hm] at this ⊢
    simp only [List.length_singleton] at this
    omega
  have hnone : d.members.find? (fun m => !memberOver m && m.sends == 0) = none := by
    rw [hm, List.find?_eq_none]
    intro x hx
    obtain rfl := List.mem_singleton.1 hx
    simp only [Bool.and_eq_true, beq_iff_eq, not_and]
    omega
  rw [dispFill, if_neg hfew, hnone]

section
variable {d : CoDisp} {m : CoMember} {s : State} (hheld : dispHeld s d = false) (hm : d.members = [m]) (hserved : m.served = false) (hsent : 1 ≤ m.sends) (hco : s.co.disps = [d])
include hheld hm hserved hsent hco

theorem dispSettle_waits (hfew : m.sends ≤ 4) : (dispSettle s).co.disps = [d] := by
  have hopen : ¬ d.members.all memberOver = true := by
    simp only [hm, List.all_cons, List.all_nil, Bool.and_true, memberOver, hserved, Bool.false_or, decide_eq_true_eq]
    omega
  rw [dispSettle, hco, List.foldl_cons, List.foldl_nil, dispOne, hheld, if_neg Bool.false_ne_true, dispFill_one hm hsent]
  dsimp only
  rw [if_neg hopen]
  change s.co.disps.map _ = _
  rw [hco, List.map_singleton, if_pos ⟨rfl, rfl⟩]

omit hserved in
theorem dispSettle_over (hmany : 5 ≤ m.sends) : (dispSettle s).co.disps = [] ∧ opOf (dispSettle s) d.mb d.op = none := by
  have hover : d.members.all memberOver = true := by
    simp only [hm, List.all_cons, List.all_nil, Bool.and_true, memberOver, decide_eq_true hmany, Bool.or_true]
  rw [dispSettle, hco, List.foldl_cons, List.foldl_nil, dispOne, hheld, if_neg Bool.false_ne_true, dispFill_one hm hsent]
  dsimp only
  rw [if_pos hover]
  refine ⟨?_, opOf_opEnd _ _ _ _ _ _⟩
  rw [opEnd_partsOnly _ _ _ _ _ _ .co (by decide)]
  change s.co.disps.filter _ = _
  rw [hco, List.filter_cons_of_neg (by simp), List.filter_nil]

end

/-- The member's time is counted anew, the object not yet sent. -/
def resendCounted (short : Nat) (s : State) : State :=
  coMod (fun c => { c with disps := c.disps.map (fun d => { d with members := d.members.map (fun m => if dispatchLate s short m then { m with sends := m.sends + 1, at_ := s.elapsed } else m) }) }) s

/-- The object is sent again to the members that have been sent it three times at most. -/
def objectsResent (short : Nat) (s : State) : State :=
  (s.co.disps.filter (fun d => d.members.any (fun m => dispatchLate s short m && decide (m.sends ≤ 3)))).foldl (fun t d => unicastSend short 1 0 2 d.obj t) (resendCounted short s)

theorem dispatchResend_eq (short : Nat) (s : State) : dispatchResend short s = dispSettle (objectsResent short s) := rfl

theorem meshOnly_objectsResent (short : Nat) (s : State) : MeshOnly (resendCounted short s) (objectsResent short s) :=
  foldl_keeps (MeshOnly _) _ _ _ (fun _ _ h => meshOnly_trans h (meshOnly_unicastSend _ _ _ _ _ _)) (meshOnly_refl _)

theorem dispatchResend_sends (short dt : Nat) (d : CoDisp) (m : CoMember) (s : State) (hco : s.co.disps = [d]) (hm : d.members = [m]) (hshort : m.short = short) (hserved : m.served = false) (hsent : 1 ≤ m.sends)
    (hfew : m.sends ≤ 4) (hlate : m.at_ + cycS 60 ≤ s.elapsed + dt) (hheld : dispHeld s d = false) (_ : s.mboxes.length = 4) :
    completes (.dispatchResend short dt) s (fun t =>
      (m.sends ≤ 3 → t.co.disps = [{ d with members := [{ m with sends := m.sends + 1, at_ := s.elapsed + dt }] }]) ∧
      (m.sends = 4 → t.co.disps = [] ∧ opOf t d.mb d.op = none)) := by
  obtain ⟨d1, hd1⟩ : ∃ d1 : CoDisp, d1 = { d with members := [{ m with sends := m.sends + 1, at_ := s.elapsed + dt }] } := ⟨_, rfl⟩
  have hm1 : d1.members = [{ m with sends := m.sends + 1, at_ := s.elapsed + dt }] := by rw [hd1]
  have hlate1 : dispatchLate (s.pass dt) short m = true := by
    rw [dispatchLate, hshort, beq_self_eq_true, Bool.true_and, memberOut, memberOver, hserved, decide_eq_true hsent, decide_eq_false (show ¬ 5 ≤ m.sends by omega),
      decide_eq_true (show m.at_ + cycS 60 ≤ (s.pass dt).elapsed from hlate)]
    rfl
  have hok : dispatchResendOk short (s.pass dt) = true := by
    rw [dispatchResendOk, show (s.pass dt).co.disps = [d] from hco, List.any_cons, hm, List.any_cons, hlate1, show dispHeld (s.pass dt) d = false from hheld]
    rfl
  have hcounted : (resendCounted short (s.pass dt)).co.disps = [d1] := by
    change s.co.disps.map _ = _
    rw [hco, List.map_singleton, hm, List.map_singleton, if_pos hlate1, hd1]
    rfl
  have hmesh := meshOnly_objectsResent short (s.pass dt)
  have hco1 : (objectsResent short (s.pass dt)).co.disps = [d1] := by
    rw [hmesh.parts .co (by decide)]
    exact hcounted
  have hheld1 : dispHeld (objectsResent short (s.pass dt)) d1 = false := by
    rw [dispHeld, opOf_of_mboxes hmesh.mboxes, hd1]
    exact hheld
  refine completes_of_onlyIf rfl hok ?_
  rw [dispatchResend_eq]
  refine ⟨fun hagain => ?_, fun hlast => ?_⟩
  · rw [← hd1]
    exact dispSettle_waits hheld1 hm1 hserved (Nat.le_add_left 1 _) hco1 (show m.sends + 1 ≤ 4 by omega)
  · have hover := dispSettle_over hheld1 hm1 (Nat.le_add_left 1 _) hco1 (show 5 ≤ m.sends + 1 by omega)
    rwa [show d1.mb = d.mb by rw [hd1], show d1.op = d.op by rw [hd1]] at hover

end Sys2Proof.Machine

open Sys2Proof Sys2Proof.Machine

/-- Settles O59: what each of the services does, by its own lemma. -/
theorem luminaireService : Obligations.LuminaireService := by
  unfold Obligations.LuminaireService
  exact ⟨midnightCompute_day, dayActs_has, scheduleEntry_takes, photocellEntry_takes, fadeStep_ends, fadeStep_steps, cloUpdate_counts, daliPoll_polls, statusReport_sends, meterReport_sends, registrySave_saves,
    dispatchResend_sends⟩
end


section
/-!
SUPPORT. The flash store: a plane that has ended its operation, erases, the code loader, refresh and scrub (R485, R490 to R499, R502).
-/
namespace Sys2Proof.Machine

section
variable {s : State} {d : FDesc} {r : FDone}

/-! ### The end of an operation on a plane (R485) -/

/-- The plane is free. -/
def planeFreed (pl : Nat) (s : State) : State := s.flcW (fun f => { f with run := del pl f.run })

/-- What a completion says of an operation that has run since then. -/
def ranSince (run : FRun) : FDone := { FDone.only 0 run.since with susp := decide (0 < run.susps) }

/-- What an operation does at its end, once its plane is free. -/
def opEnded (o : FlashOut) (run : FRun) (s : State) : State :=
  match run.d.op with
  | 1 => flcDone run.d (readRun run.d (dBlk s run.d) o (readSink run.d (dBlk s run.d)) (ranSince run) s).rec_ (readRun run.d (dBlk s run.d) o (readSink run.d (dBlk s run.d)) (ranSince run) s).st
  | 4 => flcDone run.d (readRun run.d (dBlk s run.d) o (loadSink run.d (dBlk s run.d)) (ranSince run) s).rec_ (readRun run.d (dBlk s run.d) o (loadSink run.d (dBlk s run.d)) (ranSince run) s).st
  | 2 => progEnd run.d o (ranSince run) s
  | _ => eraseEnd run.d o (ranSince run) s

theorem completes_ended {pl dt : Nat} {o : FlashOut} {run : FRun} {P : State → Prop} (hpl : pl < 2) (hrun : look pl s.flc.run = some run) (h : P (opEnded o run (planeFreed pl (s.pass dt)))) :
    completes (.flashOperationEnd pl o dt) s P := by
  have hrun : look pl (s.pass dt).flc.run = some run := hrun
  refine completes_of_onlyIf rfl (by rw [hrun, decide_eq_true hpl]; rfl) ?_
  have hdone : flashEnd pl o (s.pass dt) = opEnded o run (planeFreed pl (s.pass dt)) := by
    unfold flashEnd
    rw [hrun]
    rfl
  rw [hdone]
  exact h

theorem flcDone_app (hq : d.q = 3) (r : FDone) (s : State) : flcDone d r s = flcComplete d r s := if_pos hq

theorem look_planeFreed {pl : Nat} (hrise : keysRise s.flc.run = true) : look pl (planeFreed pl s).flc.run = none := look_del_same pl _ hrise

/-! ### Erases (R496) -/

theorem look_erased (p k : Nat) (pages : List (Nat × FPage)) : look k (pages.filter (fun x => x.1 / 64 != p)) = if k / 64 = p then none else look k pages := by
  rw [look_filter_key (fun k => k / 64 != p)]
  by_cases h : k / 64 = p <;> simp [h]

theorem erase_ends (pl p dt : Nat) (o : FlashOut) (run : FRun) (s : State) (hpl : pl < 2) (hrun : look pl s.flc.run = some run) (hrise : keysRise s.flc.run = true) (hop : run.d.op = 3) (hq : run.d.q = 3)
    (ho : o.failAt = none) (hp : p = physOf s (dBlk s run.d)) :
    completes (.flashOperationEnd pl o dt) s (fun t => look pl t.flc.run = none ∧ (∀ k, k / 64 = p → look k t.flc.pages = none) ∧ (∀ k, k / 64 ≠ p → look k t.flc.pages = look k s.flc.pages) ∧
      look p t.flc.ptrs = some 0 ∧ look p t.flc.erases = some ((look p s.flc.erases).getD 0 + 1) ∧ t.rd Reg.FLC_QAPP_HEAD_CDONE = (s.rd Reg.FLC_QAPP_HEAD_CDONE + 1) % 65536) := by
  subst hp
  have hdone : opEnded o run (planeFreed pl (s.pass dt)) =
      flcComplete run.d { ranSince run with pulses := o.pulses } (blockErase (physOf s (dBlk s run.d)) (planeFreed pl (s.pass dt))) := by
    unfold opEnded eraseEnd
    rw [hop, ho]
    exact flcDone_app hq _ _
  refine completes_ended hpl hrun ?_
  rw [hdone, flcComplete_cdone, flcComplete_flc]
  refine ⟨look_planeFreed (s := s.pass dt) hrise, fun k hk => ?_, fun k hk => ?_, look_put_same _ _ _, look_put_same _ _ _, rfl⟩
  · exact (look_erased _ _ _).trans (if_pos hk)
  · exact (look_erased _ _ _).trans (if_neg hk)

/-! ### Page reads counted (R490 to R492) -/

/-- The counters of a page read. -/
def pageCounted (o : PageOut) (s : State) : State := if 0 < o.rset ∧ o.unc = false then (s.count Reg.FLC_CORRCNT o.cws).inc Reg.FLC_RETRYCNT else s.count Reg.FLC_CORRCNT o.cws

theorem readCount_rd (l : Nat) (o : PageOut) (s : State) (f : Field) : (readCount l o s).rd f = (pageCounted o s).rd f := by
  unfold readCount
  exact proj_ite (fun t : State => t.rd f) rfl rfl

theorem readCount_rd_other (l : Nat) (o : PageOut) (s : State) {f : Field} (hcorr : f.key ≠ Reg.FLC_CORRCNT.key) (hretry : f.key ≠ Reg.FLC_RETRYCNT.key) : (readCount l o s).rd f = s.rd f := by
  have hcount : (s.count Reg.FLC_CORRCNT o.cws).rd f = s.rd f := State.rd_wr_other _ _ hcorr
  rw [readCount_rd]
  exact proj_ite (fun t : State => t.rd f) ((State.rd_inc_other _ hretry).trans hcount) hcount

theorem readCount_corrected (l : Nat) (o : PageOut) (s : State) : (readCount l o s).rd Reg.FLC_CORRCNT = satAdd 32 (s.rd Reg.FLC_CORRCNT) o.cws := by
  have hcount : (s.count Reg.FLC_CORRCNT o.cws).rd Reg.FLC_CORRCNT = satAdd 32 (s.rd Reg.FLC_CORRCNT) o.cws := by
    rw [State.rd_count, if_pos rfl]
    exact satAdd_mod _ _ _
  rw [readCount_rd]
  exact proj_ite (fun t : State => t.rd Reg.FLC_CORRCNT) ((State.rd_inc_other _ (by decide)).trans hcount) hcount

/-- Of the controller's own data the count of a page read moves the groups' figures and the refresh marks. -/
theorem readCount_flc (l : Nat) (o : PageOut) (s : State) : ∃ groups marks, (readCount l o s).flc = { s.flc with groups := groups, marks := marks } := by
  obtain ⟨groups, hgroups⟩ : ∃ groups, (groupMod l (fun g => { g with reads := g.reads + 1, retries := g.retries + b2n (decide (0 < o.rset)) }) (pageCounted o s)).flc = { s.flc with groups := groups } := by
    have hflc : (pageCounted o s).flc = s.flc := proj_ite State.flc rfl rfl
    rw [groupMod, State.flcW, hflc]
    exact ⟨_, rfl⟩
  by_cases hmark : o.unc = false ∧ (16 < o.corr ∨ 0 < o.rset)
  · refine ⟨groups, if s.flc.marks.contains l then s.flc.marks else s.flc.marks ++ [l], (congrArg State.flc (if_pos hmark)).trans ?_⟩
    exact congrArg (fun f : Flc => { f with marks := if f.marks.contains l then f.marks else f.marks ++ [l] }) hgroups
  · exact ⟨groups, s.flc.marks, (congrArg State.flc (if_neg hmark)).trans hgroups⟩

theorem readCount_parts_same (l : Nat) (o : PageOut) (s : State) : partsOnly [.flc, .regs] s (readCount l o s) := readCount_parts l o s s (partsOnly_refl _ s) rfl

theorem readUnc_rd (l : Nat) (s : State) {f : Field} (hm : offMbx f) (hnext : f.key ≠ Reg.AGE_STAT_NEXT.key) (hunc : f.key ≠ Reg.FLC_UNCCNT.key) : (readUnc l s).rd f = s.rd f := by
  rw [readUnc, healthPut_rd _ _ _ _ _ _ _ _ hm hnext, State.rd_raise, State.rd_inc_other _ hunc]

theorem readUnc_counted (l : Nat) (s : State) : (readUnc l s).rd Reg.FLC_UNCCNT = satAdd 32 (s.rd Reg.FLC_UNCCNT) 1 := by
  rw [readUnc, healthPut_rd _ _ _ _ _ _ _ _ (.inr (by decide)) (by decide), State.rd_raise, State.rd_inc_same]
  rfl

theorem readUnc_parts_same (l : Nat) (s : State) : partsOnly [.mboxes, .regs, .health, .heldNotices, .flight] s (readUnc l s) := readUnc_parts l s s (partsOnly_refl _ s) rfl

theorem readUnc_event (l : Nat) (s : State) : 163 ∈ (readUnc l s).flight := by
  rw [readUnc, healthPut_flight]
  simp

/-! ### The code loader's reads (R498) -/

/-- A fetch's read is over. -/
def fetchRead (i : Nat) (ok : Bool) (s : State) : State := s.flcW (fun f => { f with refetch := modAt f.refetch i (fun x => { x with done := some ok }) })

theorem fetchRead_done {i : Nat} {f : Refetch} (ok : Bool) {s : State} (h : s.flc.refetch[i]? = some f) : (fetchRead i ok s).flc.refetch[i]? = some { f with done := some ok } := by
  change (modAt s.flc.refetch i _)[i]? = _
  rw [getElem?_modAt, if_pos rfl, h]
  rfl

theorem loaderOk {i : Nat} {f : Refetch} (dt : Nat) (hup : flcUp s = true) (hf : s.flc.refetch[i]? = some f) (hnew : f.done = none) :
    (flcUp (s.pass dt) && (match (s.pass dt).flc.refetch[i]? with | some r => r.done.isNone | none => false)) = true := by
  rw [show flcUp (s.pass dt) = flcUp s from rfl, hup, show (s.pass dt).flc.refetch[i]? = some f from hf]
  simp [hnew]

theorem codeLoader_reads (i dt k off : Nat) (o : PageOut) (r : Refetch) (s : State) (hup : flcUp s = true) (hr : s.flc.refetch[i]? = some r) (hnew : r.done = none) (hsrc : look r.row s.flc.sources = some (k, off))
    (hidle : eraseOn s (planeOf (physOf s (k / 64))) = none) :
    completes (.codeLoaderRead i o dt) s (fun t => t.flc.refetch[i]? = some { r with done := some (!o.unc) } ∧ t.rd Reg.FLC_CORRCNT = satAdd 32 (s.rd Reg.FLC_CORRCNT) o.cws ∧
      t.rd Reg.FLC_UNCCNT = (if o.unc then satAdd 32 (s.rd Reg.FLC_UNCCNT) 1 else s.rd Reg.FLC_UNCCNT) ∧ t.flc.run = s.flc.run) := by
  obtain ⟨u, hu⟩ : ∃ u, u = readCount (k / 64) o (s.pass dt) := ⟨_, rfl⟩
  have hdone : loaderRead i o (s.pass dt) = if o.unc then fetchRead i false (readUnc (k / 64) u) else fetchRead i true u := by
    unfold loaderRead
    rw [show (s.pass dt).flc.refetch[i]? = some r from hr]
    dsimp only
    rw [show look r.row (s.pass dt).flc.sources = some (k, off) from hsrc]
    dsimp only
    rw [show eraseOn (s.pass dt) (planeOf (physOf (s.pass dt) (k / 64))) = none from hidle, hu]
    rfl
  obtain ⟨groups, marks, hflc⟩ := readCount_flc (k / 64) o (s.pass dt)
  rw [← hu] at hflc
  have hheld : u.flc.refetch[i]? = some r := by
    rw [hflc]
    exact hr
  have hrun : u.flc.run = s.flc.run := by rw [hflc]; rfl
  have hcorr : u.rd Reg.FLC_CORRCNT = satAdd 32 (s.rd Reg.FLC_CORRCNT) o.cws := by
    rw [hu]
    exact readCount_corrected _ _ _
  have hunc : u.rd Reg.FLC_UNCCNT = s.rd Reg.FLC_UNCCNT := by
    rw [hu, readCount_rd_other _ _ _ (by decide) (by decide)]
    rfl
  refine completes_of_onlyIf rfl (loaderOk dt hup hr hnew) ?_
  rw [hdone]
  cases ho : o.unc with
  | true =>
    have hsame : (readUnc (k / 64) u).flc = u.flc := readUnc_parts_same (k / 64) u .flc (by decide)
    simp only [if_true]
    refine ⟨fetchRead_done false (hsame ▸ hheld), ?_, ?_, (congrArg Flc.run hsame : (readUnc (k / 64) u).flc.run = u.flc.run).trans hrun⟩
    · exact (readUnc_rd _ _ (.inr (by decide)) (by decide) (by decide)).trans hcorr
    · exact (readUnc_counted _ _).trans (by rw [hunc])
  | false => exact ⟨fetchRead_done true hheld, hcorr, hunc, hrun⟩

theorem codeLoader_refused (i dt k off : Nat) (o : PageOut) (r : Refetch) (e : FRun) (s : State) (hup : flcUp s = true) (hr : s.flc.refetch[i]? = some r) (hnew : r.done = none)
    (hsrc : look r.row s.flc.sources = some (k, off)) (herase : eraseOn s (planeOf (physOf s (k / 64))) = some e) (hblk : dBlk s e.d = k / 64) :
    completes (.codeLoaderRead i o dt) s (fun t => t.flc.refetch[i]? = some { r with done := some false } ∧ t.rd Reg.FLC_SUSPHITCNT = satAdd 32 (s.rd Reg.FLC_SUSPHITCNT) 1 ∧
      changesOnly [Reg.FLC_SUSPHITCNT] [.flc] (s.pass dt) t) := by
  have hdone : loaderRead i o (s.pass dt) = fetchRead i false ((s.pass dt).inc Reg.FLC_SUSPHITCNT) := by
    unfold loaderRead
    rw [show (s.pass dt).flc.refetch[i]? = some r from hr]
    dsimp only
    rw [show look r.row (s.pass dt).flc.sources = some (k, off) from hsrc]
    dsimp only
    rw [show eraseOn (s.pass dt) (planeOf (physOf (s.pass dt) (k / 64))) = some e from herase]
    exact if_pos hblk
  refine completes_of_onlyIf rfl (loaderOk dt hup hr hnew) ?_
  rw [hdone]
  exact ⟨fetchRead_done (s := (s.pass dt).inc Reg.FLC_SUSPHITCNT) false hr, State.rd_inc_same _ _, ((changesOnly_refl _ _ _).inc List.mem_cons_self).withFlc _ List.mem_cons_self⟩

end

/-! ### Refresh and scrub (R499, R502) -/

/-- Pages copied from one block to the first pages of another, which are erased: these become the old one's, and nothing else changes. -/
theorem blockCopy_copies {old new : Nat} (hne : new ≠ old) (s : State) (hempty : ∀ i, i < 64 → look (new * 64 + i) s.flc.pages = none) (n : Nat) (hn : n ≤ 64) :
    ∃ pages, blockCopy old new n [] s = s.flcW (fun f => { f with pages := pages }) ∧ (∀ i, i < n → look (new * 64 + i) pages = look (old * 64 + i) s.flc.pages) ∧
      ∀ k, (∀ i, i < n → k ≠ new * 64 + i) → look k pages = look k s.flc.pages := by
  induction n with
  | zero => exact ⟨s.flc.pages, rfl, fun i hi => absurd hi (Nat.not_lt_zero i), fun _ _ => rfl⟩
  | succ n ih =>
    obtain ⟨pages, hcopy, hnew, hother⟩ := ih (by omega)
    have hold : look (old * 64 + n) pages = look (old * 64 + n) s.flc.pages := hother _ fun i hi he => hne (by omega)
    have hblank : look (new * 64 + n) pages = look (new * 64 + n) s.flc.pages := hother _ fun i hi => by omega
    have hstep : blockCopy old new (n + 1) [] s = match look (old * 64 + n) pages with
        | some pg => pageProgram new n pg.data pg.meta_ (s.flcW (fun f => { f with pages := pages }))
        | none => s.flcW (fun f => { f with pages := pages }) := by
      unfold blockCopy at hcopy ⊢
      rw [List.range_succ, List.foldl_append, hcopy]
      rfl
    rw [hstep]
    cases hpg : look (old * 64 + n) pages with
    | none =>
      refine ⟨pages, rfl, fun i hi => ?_, fun k hk => hother k fun i hi => hk i (by omega)⟩
      rcases Nat.lt_succ_iff_lt_or_eq.1 hi with h | rfl
      · exact hnew i h
      · rw [hblank, hempty i (by omega), ← hold, hpg]
    | some pg =>
      refine ⟨put (new * 64 + n) (FPage.mk pg.data pg.meta_) pages, rfl, fun i hi => ?_, fun k hk => ?_⟩
      · rcases Nat.lt_succ_iff_lt_or_eq.1 hi with h | rfl
        · rw [look_put_other (by omega)]
          exact hnew i h
        · rw [look_put_same, ← hold, hpg]
      · rw [look_put_other (hk n (Nat.lt_succ_self n))]
        exact hother k fun i hi => hk i (by omega)

/-- A spare has been taken from the pool. -/
def spareTaken (new : Nat) (s : State) : State := flcShow (s.flcW (fun f => { f with pool := f.pool.erase new }))

theorem flcShow_rd (s : State) {f : Field} (hspares : f.key ≠ Reg.FLC_STAT_SPARES.key) (hmoraine : f.key ≠ Reg.FLC_STAT_MORAINE.key) : (flcShow s).rd f = s.rd f := by
  rw [flcShow, State.rd_wr_other _ _ hmoraine, State.rd_wr_other _ _ hspares]

theorem spareFor_mem {pl new : Nat} {s : State} (h : spareFor s pl = some new) : new ∈ s.flc.pool := by
  unfold spareFor at h
  split at h
  · next hfind => exact Option.some.inj h ▸ List.mem_of_find?_eq_some hfind
  · exact List.mem_of_mem_head? h

/-- The copy of a block in its spare serves the block, which is free of its mark. -/
def refreshMapped (l new ptr : Nat) (s : State) : State := s.flcW (fun f => { f with map := put l new f.map, ptrs := put new ptr f.ptrs, marks := f.marks.erase l })

/-- The block that has been replaced is erased, and joins the pool. -/
def refreshFreed (old : Nat) (s : State) : State := flcShow ((blockErase old s).flcW (fun f => { f with pool := f.pool ++ [old] }))

theorem blockRefresh_eq {l old new : Nat} {s : State} (hold : old = physOf s l) (hspare : spareFor s (planeOf old) = some new) :
    blockRefresh l false s = refreshFreed old ((refreshMapped l new (nextPage s l) (blockCopy old new 64 [] (blockErase new (spareTaken new s)))).inc Reg.FLC_REFRESHCNT) := by
  subst hold
  unfold blockRefresh spareTake
  dsimp only
  rw [hspare]
  dsimp only
  rw [if_neg Bool.false_ne_true, ← show nextPage (spareTaken new s) l = nextPage s l from rfl]
  rfl

theorem blockRefresh_moves (l dt old new : Nat) (s : State) (hup : flcUp s = true) (hl : l < 288) (hmark : s.flc.marks.contains l = true) (hspare : spareFor s (planeOf old) = some new) (hold : old = physOf s l)
    (hout : old ∉ s.flc.pool) (hnodup : s.flc.pool.Nodup) :
    completes (.blockRefresh l false dt) s (fun t => physOf t l = new ∧ (∀ page, page < 64 → pageAt t l page = pageAt s l page) ∧ nextPage t l = nextPage s l ∧ (∀ k, k / 64 = old → look k t.flc.pages = none) ∧
      old ∈ t.flc.pool ∧ new ∉ t.flc.pool ∧ t.flc.pool.length = s.flc.pool.length ∧ t.rd Reg.FLC_REFRESHCNT = satAdd 32 (s.rd Reg.FLC_REFRESHCNT) 1) := by
  have hin : new ∈ s.flc.pool := spareFor_mem hspare
  have hne : new ≠ old := fun h => hout (h ▸ hin)
  have hok : (flcUp (s.pass dt) && decide (l < 288) && (s.pass dt).flc.marks.contains l && !(s.pass dt).flc.pool.isEmpty) = true := by
    have hsome : s.flc.pool.isEmpty = false := List.isEmpty_eq_false_iff.2 (List.ne_nil_of_mem hin)
    rw [show flcUp (s.pass dt) = flcUp s from rfl, hup, decide_eq_true hl, show (s.pass dt).flc.marks.contains l = true from hmark, show (s.pass dt).flc.pool.isEmpty = false from hsome]
    rfl
  obtain ⟨u, hu⟩ : ∃ u, u = blockErase new (spareTaken new (s.pass dt)) := ⟨_, rfl⟩
  have hflc : u.flc = { s.flc with pool := s.flc.pool.erase new, pages := s.flc.pages.filter (fun x => x.1 / 64 != new), ptrs := put new 0 s.flc.ptrs, erases := put new ((look new s.flc.erases).getD 0 + 1) s.flc.erases } := by
    rw [hu]
    rfl
  have hpages (k : Nat) : look k u.flc.pages = if k / 64 = new then none else look k s.flc.pages := by
    rw [hflc]
    exact look_erased _ _ _
  have hcount : u.rd Reg.FLC_REFRESHCNT = s.rd Reg.FLC_REFRESHCNT := by
    rw [hu]
    exact (flcShow_rd _ (by decide) (by decide)).trans rfl
  obtain ⟨pages, hcopy, hnew, hother⟩ := blockCopy_copies hne u (fun i hi => by rw [hpages, if_pos (by omega)]) 64 (Nat.le_refl 64)
  obtain ⟨t, ht⟩ : ∃ t, t = blockRefresh l false (s.pass dt) := ⟨_, rfl⟩
  have hdone : t = refreshFreed old ((refreshMapped l new (nextPage s l) (u.flcW (fun f => { f with pages := pages }))).inc Reg.FLC_REFRESHCNT) := by
    rw [ht, blockRefresh_eq (s := s.pass dt) hold hspare, ← hu, hcopy]
    rfl
  have htflc : t.flc = { u.flc with pages := pages.filter (fun x => x.1 / 64 != old), map := put l new u.flc.map, ptrs := put old 0 (put new (nextPage s l) u.flc.ptrs), marks := u.flc.marks.erase l, pool := u.flc.pool ++ [old], erases := put old ((look old u.flc.erases).getD 0 + 1) u.flc.erases } := by
    rw [hdone]
    rfl
  have hmap : physOf t l = new := by
    rw [physOf, htflc]
    change (look l (put l new u.flc.map)).getD _ = new
    rw [look_put_same]
    rfl
  refine completes_of_onlyIf rfl hok ?_
  rw [← ht]
  refine ⟨hmap, fun page hpage => ?_, ?_, fun k hk => ?_, ?_, ?_, ?_, ?_⟩
  · rw [pageAt, hmap, htflc, pageAt, ← hold]
    change look (new * 64 + page) (pages.filter _) = _
    rw [look_erased, if_neg (by omega), hnew page hpage, hpages, if_neg (by omega)]
  · rw [nextPage, hmap, htflc]
    change (look new (put old 0 (put new (nextPage s l) u.flc.ptrs))).getD 0 = _
    rw [look_put_other hne, look_put_same]
    rfl
  · rw [htflc]
    exact (look_erased _ _ _).trans (if_pos hk)
  · rw [htflc]
    exact List.mem_append_right _ List.mem_cons_self
  · rw [htflc, hflc]
    change new ∉ s.flc.pool.erase new ++ [old]
    rw [List.mem_append, List.mem_singleton]
    rintro (h | h)
    · exact (hnodup.mem_erase_iff.1 h).1 rfl
    · exact hne h
  · rw [htflc, hflc]
    change (s.flc.pool.erase new ++ [old]).length = _
    have := List.length_pos_of_mem hin
    rw [List.length_append, List.length_erase_of_mem hin, List.length_singleton]
    omega
  · rw [hdone, refreshFreed, flcShow_rd _ (by decide) (by decide)]
    refine (State.rd_inc_same _ _).trans ?_
    exact congrArg (fun n => satAdd 32 n 1) hcount

theorem autoScrub_clean (dt : Nat) (s : State) (hup : flcUp s = true) (hphase : s.rd Reg.SYS_BOOT_PHASE = 8) (hdue : s.flc.scrubAt + cycS 604800 ≤ s.elapsed + dt) (hmarks : ∀ l ∈ s.flc.marks, 288 ≤ l) :
    completes (.autoScrub [] dt) s (fun t => t.flc = { s.flc with scrubAt := s.elapsed + dt } ∧ changesOnly [] [.flc] (s.pass dt) t) := by
  have hok : (flcUp (s.pass dt) && (s.pass dt).rd Reg.SYS_BOOT_PHASE == 8 && decide ((s.pass dt).flc.scrubAt + cycS 604800 ≤ (s.pass dt).elapsed)) = true := by
    rw [show flcUp (s.pass dt) = flcUp s from rfl, hup, show (s.pass dt).rd Reg.SYS_BOOT_PHASE = 8 from hphase, decide_eq_true (show (s.pass dt).flc.scrubAt + cycS 604800 ≤ (s.pass dt).elapsed from hdue)]
    rfl
  have hnone : s.flc.marks.filter (fun l => decide (0 ≤ l) && decide (l < 0 + 288)) = [] := by
    refine List.filter_eq_nil_iff.2 fun l hl => ?_
    have := hmarks l hl
    simp only [Bool.and_eq_true, decide_eq_true_eq, not_and]
    omega
  have hdone : autoScrub [] (s.pass dt) = (s.pass dt).flcW (fun f => { f with scrubAt := s.elapsed + dt }) := by
    change (s.flc.marks.filter (fun l => decide (0 ≤ l) && decide (l < 0 + 288))).foldl _ _ = _
    rw [hnone]
    rfl
  refine completes_of_onlyIf rfl hok ?_
  rw [hdone]
  exact ⟨rfl, (changesOnly_refl _ _ _).withFlc _ List.mem_cons_self⟩

end Sys2Proof.Machine
end


section
/-!
SUPPORT. The flash store: pages programmed, read and loaded at the end of an operation (R485, R490 to R495, R503).
-/
namespace Sys2Proof.Machine

section
variable {s u : State} {d : FDesc} {r : FDone}

/-! ### The data of a PROG (R482, R487) -/

/-- A page of data may be fetched: no execute-only row and no parity error lies in it. -/
def fetchGood (d : FDesc) (s : State) (i : Nat) : Prop := xoIn s (d.buf + 4096 * i) 4096 = false ∧ badIn s (d.buf + 4096 * i) 4096 = none

/-- A page of data from memory, without META. -/
def pageFetched (d : FDesc) (s : State) (i : Nat) : List Nat × List Nat := (memRdBytes s.mem (d.buf + 4096 * i) 4096, List.replicate 16 255)

/-- One page of a PROG's fetch. -/
def fetchStep (d : FDesc) (acc : Option (List (List Nat × List Nat)) × State) (i : Nat) : Option (List (List Nat × List Nat)) × State :=
  match acc with
  | (none, t) => (none, t)
  | (some ps, t) =>
    if xoIn t (d.buf + 4096 * i) 4096 then (none, t)
    else
      let (b, t1) := engineRead 16 (d.buf + 4096 * i) 4096 t
      let (m, t2) := if d.meta_ = 0 then (some (List.replicate 16 255), t1) else engineRead 16 (d.meta_ + 16 * i) 16 t1
      match b, m with
      | some b, some m => (some (ps ++ [(b, m)]), t2)
      | _, _ => (none, t2)

theorem progFetch_eq (d : FDesc) (s : State) : progFetch d s = (List.range d.npage).foldl (fetchStep d) (some [], s) := rfl

section
variable (hmeta : d.meta_ = 0)
include hmeta

theorem fetchStep_good {i : Nat} (hlo : d.buf + 4096 * i < 0x80000000) (hgood : fetchGood d s i) (ps : List (List Nat × List Nat)) : fetchStep d (some ps, s) i = (some (ps ++ [pageFetched d s i]), s) := by
  obtain ⟨hxo, hbad⟩ := hgood
  have hread : engineRead 16 (d.buf + 4096 * i) 4096 s = (some (memRdBytes s.mem (d.buf + 4096 * i) 4096), s) := by
    rw [engineRead, if_neg (Nat.not_le.2 hlo), hbad]
  unfold fetchStep
  dsimp only
  rw [hxo, if_neg Bool.false_ne_true, hread, hmeta]
  rfl

theorem fetchStep_bad {i : Nat} (hlo : d.buf + 4096 * i < 0x80000000) (hbad : ¬ fetchGood d s i) (ps : List (List Nat × List Nat)) : ∃ t, fetchStep d (some ps, s) i = (none, t) := by
  unfold fetchStep
  dsimp only
  by_cases hxo : xoIn s (d.buf + 4096 * i) 4096 = true
  · exact ⟨s, if_pos hxo⟩
  · obtain ⟨x, hx⟩ := Option.ne_none_iff_exists'.1 fun h => hbad ⟨Bool.not_eq_true _ ▸ hxo, h⟩
    rw [if_neg hxo, engineRead, if_neg (Nat.not_le.2 hlo), hx, hmeta]
    exact ⟨_, rfl⟩

omit hmeta in
theorem foldl_fetchStep_none (l : List Nat) (t : State) : (l.foldl (fetchStep d) (none, t)).1 = none := by
  refine foldl_keeps (fun acc => acc.1 = none) (fetchStep d) l (none, t) (fun acc i h => ?_) rfl
  obtain ⟨ps, v⟩ := acc
  obtain rfl : ps = none := h
  rfl

/-- A fetch below the DRAM leaves the state where each page may be fetched. -/
theorem foldl_fetchStep_good (l : List Nat) (hlo : ∀ i ∈ l, d.buf + 4096 * i < 0x80000000) (hgood : ∀ i ∈ l, fetchGood d s i) (ps : List (List Nat × List Nat)) :
    l.foldl (fetchStep d) (some ps, s) = (some (ps ++ l.map (pageFetched d s)), s) := by
  induction l generalizing ps with
  | nil => simp
  | cons i l ih =>
    rw [List.forall_mem_cons] at hlo hgood
    obtain ⟨hlo, hlos⟩ := hlo
    obtain ⟨hgood, hgoods⟩ := hgood
    rw [List.foldl_cons, fetchStep_good hmeta hlo hgood, ih hlos hgoods, List.append_assoc]
    rfl

/-- A fetch that succeeds has found each page good. -/
theorem fetchGood_of_foldl (l : List Nat) (hlo : ∀ i ∈ l, d.buf + 4096 * i < 0x80000000) (ps : List (List Nat × List Nat)) (h : (l.foldl (fetchStep d) (some ps, s)).1 ≠ none) : ∀ i ∈ l, fetchGood d s i := by
  induction l generalizing ps with
  | nil => exact fun i hi => absurd hi List.not_mem_nil
  | cons i l ih =>
    rw [List.forall_mem_cons] at hlo ⊢
    obtain ⟨hlo, hlos⟩ := hlo
    rw [List.foldl_cons] at h
    by_cases hgood : fetchGood d s i
    · rw [fetchStep_good hmeta hlo hgood] at h
      exact ⟨hgood, ih hlos _ h⟩
    · obtain ⟨t, ht⟩ := fetchStep_bad hmeta hlo hgood ps
      rw [ht] at h
      exact absurd (foldl_fetchStep_none l t) h

/-- A fetch that succeeds takes the pages from memory, and does so of any state with this memory and its parity. -/
theorem progFetch_same (hlo : d.buf + 4096 * d.npage ≤ 0x80000000) {ps : List (List Nat × List Nat)} (h : progFetch d s = (some ps, u)) {t : State} (hmem : t.mem = s.mem) (hpar : t.par = s.par) :
    ps = (List.range d.npage).map (pageFetched d s) ∧ progFetch d t = (some ps, t) := by
  have hlo : ∀ i ∈ List.range d.npage, d.buf + 4096 * i < 0x80000000 := fun i hi => by
    have := List.mem_range.1 hi
    omega
  rw [progFetch_eq] at h
  have hgood : ∀ i ∈ List.range d.npage, fetchGood d s i := fetchGood_of_foldl hmeta _ hlo [] (by rw [h]; exact Option.some_ne_none ps)
  have hsame (i : Nat) : fetchGood d t i ↔ fetchGood d s i := by rw [fetchGood, xoIn, badIn, hpar, fetchGood, xoIn, badIn]
  have hpage : pageFetched d t = pageFetched d s := by
    funext i
    rw [pageFetched, hmem, pageFetched]
  have hps : ps = (List.range d.npage).map (pageFetched d s) := by
    rw [foldl_fetchStep_good hmeta _ hlo hgood] at h
    exact (Option.some.inj (Prod.mk.inj h).1).symm
  refine ⟨hps, ?_⟩
  rw [progFetch_eq, foldl_fetchStep_good hmeta _ hlo (fun i hi => (hsame i).2 (hgood i hi)), hpage, hps]
  rfl

end

/-! ### Pages programmed (R494) -/

theorem progPages_flc (p page : Nat) (ps : List (List Nat × List Nat)) (s : State) :
    (progPages p page ps s).flc = { s.flc with
      pages := (List.range ps.length).foldl (fun l i => put (p * 64 + (page + i)) (FPage.mk (ps.getD i ([], [])).1 (ps.getD i ([], [])).2) l) s.flc.pages,
      ptrs := put p (page + ps.length) s.flc.ptrs } := by
  have hpages (l : List Nat) (t : State) : (l.foldl (fun t i => pageProgram p (page + i) (ps.getD i ([], [])).1 (ps.getD i ([], [])).2 t) t).flc =
      { t.flc with pages := l.foldl (fun l i => put (p * 64 + (page + i)) (FPage.mk (ps.getD i ([], [])).1 (ps.getD i ([], [])).2) l) t.flc.pages } := by
    induction l generalizing t with
    | nil => rfl
    | cons i l ih => exact ih _
  change ({ (List.foldl _ s _).flc with ptrs := put p (page + ps.length) _ } : Flc) = _
  rw [hpages]

theorem look_progPages {p page : Nat} {ps : List (List Nat × List Nat)} {i : Nat} (hi : i < ps.length) (s : State) :
    look (p * 64 + (page + i)) (progPages p page ps s).flc.pages = some ⟨(ps.getD i ([], [])).1, (ps.getD i ([], [])).2⟩ := by
  have hkeys : (List.range ps.length).foldl (fun l i => put (p * 64 + (page + i)) (FPage.mk (ps.getD i ([], [])).1 (ps.getD i ([], [])).2) l) s.flc.pages =
      ((List.range ps.length).map (fun i => p * 64 + (page + i))).foldl (fun l k => put k (FPage.mk (ps.getD (k - (p * 64 + page)) ([], [])).1 (ps.getD (k - (p * 64 + page)) ([], [])).2) l) s.flc.pages := by
    rw [List.foldl_map]
    refine congrFun (congrFun (congrArg _ (funext fun l => funext fun j => ?_)) _) _
    rw [show p * 64 + (page + j) - (p * 64 + page) = j by omega]
  have hkey : p * 64 + (page + i) ∈ (List.range ps.length).map (fun i => p * 64 + (page + i)) := List.mem_map_of_mem (List.mem_range.2 hi)
  rw [progPages_flc]
  dsimp only
  rw [hkeys]
  refine (look_foldl_put (fun k => FPage.mk (ps.getD (k - (p * 64 + page)) ([], [])).1 (ps.getD (k - (p * 64 + page)) ([], [])).2) _ _ (.inl hkey)).trans ?_
  rw [show p * 64 + (page + i) - (p * 64 + page) = i by omega]

theorem progPages_rd (p page : Nat) (ps : List (List Nat × List Nat)) (s : State) (f : Field) : (progPages p page ps s).rd f = s.rd f :=
  rd_of_regs (progPages_parts p page ps s s (partsOnly_refl [.flc] s) rfl .regs (by decide)) f

theorem prog_ends (pl p dt : Nat) (o : FlashOut) (run : FRun) (u : State) (ps : List (List Nat × List Nat)) (s : State) (hpl : pl < 2) (hrun : look pl s.flc.run = some run) (hrise : keysRise s.flc.run = true)
    (hop : run.d.op = 2) (hq : run.d.q = 3) (ho : o.failAt = none) (hlo : run.d.buf + 4096 * run.d.npage ≤ 0x80000000) (hmeta : run.d.meta_ = 0) (hfetch : progFetch run.d (s.pass dt) = (some ps, u))
    (hp : p = physOf s (dBlk s run.d)) :
    completes (.flashOperationEnd pl o dt) s (fun t => look pl t.flc.run = none ∧ ps.length = run.d.npage ∧
      (∀ i, i < run.d.npage → (ps.getD i ([], [])).1 = memRdBytes s.mem (run.d.buf + 4096 * i) 4096 ∧ look (p * 64 + (run.d.page + i)) t.flc.pages = some ⟨(ps.getD i ([], [])).1, List.replicate 16 255⟩) ∧
      look p t.flc.ptrs = some (run.d.page + run.d.npage) ∧ t.rd Reg.FLC_QAPP_HEAD_CDONE = (s.rd Reg.FLC_QAPP_HEAD_CDONE + 1) % 65536) := by
  subst hp
  obtain ⟨hps, hsame⟩ := progFetch_same hmeta hlo hfetch (t := planeFreed pl (s.pass dt)) rfl rfl
  have hlen : ps.length = run.d.npage := by rw [hps, List.length_map, List.length_range]
  have hpage {i : Nat} (hi : i < run.d.npage) : ps.getD i ([], []) = pageFetched run.d (s.pass dt) i := by
    rw [hps, List.getD_eq_getElem?_getD, List.getElem?_map, List.getElem?_range hi]
    rfl
  obtain ⟨v, hv⟩ : ∃ v, v = groupMod (dBlk s run.d) (fun g => { g with progs := g.progs + run.d.npage, pulses := g.pulses + o.pulses * run.d.npage }) (planeFreed pl (s.pass dt)) := ⟨_, rfl⟩
  have hdone : opEnded o run (planeFreed pl (s.pass dt)) = flcComplete run.d { ranSince run with pulses := o.pulses, ndone := run.d.npage } (progPages (physOf s (dBlk s run.d)) run.d.page ps v) := by
    unfold opEnded progEnd
    rw [hop]
    dsimp only
    rw [hsame]
    dsimp only
    rw [ho, hv]
    exact flcDone_app hq _ _
  refine completes_ended hpl hrun ?_
  rw [hdone, flcComplete_cdone, flcComplete_flc, progPages_rd]
  refine ⟨?_, hlen, fun i hi => ⟨by rw [hpage hi]; rfl, ?_⟩, ?_, by rw [hv]; rfl⟩
  · rw [progPages_flc, hv]
    exact look_planeFreed (s := s.pass dt) hrise
  · refine (look_progPages (by omega) v).trans ?_
    rw [hpage hi]
    rfl
  · rw [progPages_flc]
    dsimp only
    rw [look_put_same, hlen]

/-! ### The record of a completion (R485) -/

theorem complRec_status (d : FDesc) (r : FDone) (s : State) : (complRec d r s).getD 2 0 = r.status := by simp [complRec, leBytes]

theorem complRec_ndone (d : FDesc) (r : FDone) (s : State) : (complRec d r s).getD 9 0 = r.ndone := by simp [complRec, leBytes]

section
variable (hm : memWf s.mem = true) (hc : complSlot s < 0x80000000)
include hm hc

theorem flcComplete_byte {i : Nat} (hi : i < 16) : (memRd (flcComplete d r s).mem (complSlot s + i)).toNat = (complRec d r s).getD i 0 % 256 := by
  rw [flcComplete_mem _ _ _ hc, memRd_memWrBytes_at _ _ _ _ hm (by rw [length_complRec]; exact hi)]
  rfl

omit hm in
theorem flcComplete_byte_other {x : Nat} (hx : x < complSlot s ∨ complSlot s + 16 ≤ x) : memRd (flcComplete d r s).mem x = memRd s.mem x := by
  rw [flcComplete_mem _ _ _ hc]
  exact memRd_memWrBytes_other _ _ _ _ (by rw [length_complRec]; exact hx)

omit hm in
theorem flcComplete_par : (flcComplete d r s).par = (arrayWrite (complSlot s) (complRec d r s) false s).par := by
  have hraise (v : State) : (if bitOf d.flags 0 = 1 ∨ r.status ≠ 0 then v.raise 160 else v).par = v.par := by split <;> rfl
  rw [flcComplete_eq, qShow_par, complPut, hraise, State.wr_par, engineWrite_array _ _ _ _ (complRec_ne_nil _ _ _) hc]
  rfl

end

/-- A completion's slot depends on the queue's registers alone. -/
theorem complSlot_of_rd {t : State} (h : ∀ f ∈ [Reg.FLC_QAPP_CBASE, Reg.FLC_QAPP_HEAD_CDONE, Reg.FLC_QAPP_SIZE_LOG2N], t.rd f = s.rd f) : complSlot t = complSlot s := by
  simp only [List.forall_mem_cons, List.not_mem_nil, false_implies, implies_true, and_true] at h
  obtain ⟨hbase, hcdone, hsize⟩ := h
  rw [complSlot, qN, hbase, hcdone, hsize, complSlot, qN]

/-! ### Pages read (R490 to R492) -/

section
variable {l page i : Nat} {o : PageOut} {sink : Nat → State → Option State} {a : ReadAcc}

theorem readPage_stopped (h : a.stop = true) : readPage l page i o sink a = a := if_pos h

/-- A page that can be corrected goes to its sink. -/
theorem readPage_sinks (hgo : a.stop = false) (ho : o.unc = false) :
    ∃ o', ∀ t, sink i (readCount l o' a.st) = some t → (readPage l page i o sink a).st = t ∧ (readPage l page i o sink a).rec_.status = a.rec_.status := by
  refine ⟨if (pageAt a.st l page).isNone then PageOut.clean else o, fun t ht => ?_⟩
  have hunc : (if (pageAt a.st l page).isNone then PageOut.clean else o).unc = false := by
    split
    · rfl
    · exact ho
  unfold readPage
  rw [hgo, if_neg Bool.false_ne_true]
  dsimp only
  rw [hunc, if_neg Bool.false_ne_true, ht]
  exact ⟨rfl, rfl⟩

/-- A page that cannot ends the run. -/
theorem readPage_fails (hgo : a.stop = false) (hpage : (pageAt a.st l page).isSome = true) (ho : o.unc = true) :
    readPage l page i o sink a = { a with st := readUnc l (readCount l o a.st), rec_ := { a.rec_ with status := 1, rset := max a.rec_.rset o.rset }, stop := true } := by
  have hnone : (pageAt a.st l page).isNone = false := by
    rw [← Option.not_isSome, hpage]
    rfl
  unfold readPage
  rw [hgo, if_neg Bool.false_ne_true]
  dsimp only
  rw [hnone, if_neg Bool.false_ne_true, ho, if_pos rfl]

end

/-- The pages behind the one that stopped a run are not read. -/
theorem foldl_stopped {l : Nat} {o : FlashOut} {sink : Nat → State → Option State} {a : ReadAcc} (is : List Nat) (h : a.stop = true) :
    is.foldl (fun a i => readPage l (d.page + i) i (o.reads.getD i PageOut.clean) sink a) a = a := by
  induction is with
  | nil => rfl
  | cons i is ih => rw [List.foldl_cons, readPage_stopped h, ih]

theorem readRun_one {l : Nat} {o : FlashOut} {sink : Nat → State → Option State} (h : d.npage = 1) : readRun d l o sink r s = readPage l d.page 0 (o.reads.getD 0 PageOut.clean) sink ⟨s, r, false⟩ := by
  rw [readRun, h]
  rfl

theorem readRun_fails {l : Nat} {o : FlashOut} {sink : Nat → State → Option State} (hn : 0 < d.npage) (hpage : (pageAt s l d.page).isSome = true) (ho : (o.reads.getD 0 PageOut.clean).unc = true) :
    ∃ rset, readRun d l o sink r s = ⟨readUnc l (readCount l (o.reads.getD 0 PageOut.clean) s), { r with status := 1, rset := rset }, true⟩ := by
  obtain ⟨n, hn⟩ : ∃ n, d.npage = n + 1 := ⟨d.npage - 1, by omega⟩
  refine ⟨max r.rset (o.reads.getD 0 PageOut.clean).rset, ?_⟩
  have hfirst := readPage_fails (l := l) (page := d.page) (i := 0) (sink := sink) (a := ⟨s, r, false⟩) rfl hpage ho
  rw [readRun, hn, List.range_succ_eq_map, List.foldl_cons, Nat.add_zero, hfirst]
  exact foldl_stopped _ rfl

theorem read_fails (pl l c dt : Nat) (o : FlashOut) (run : FRun) (s : State) (hpl : pl < 2) (hrun : look pl s.flc.run = some run) (hop : run.d.op = 1 ∨ run.d.op = 4) (hq : run.d.q = 3) (hn : 0 < run.d.npage)
    (hl : l = dBlk s run.d) (hpage : (pageAt s l run.d.page).isSome = true) (ho : (o.reads.getD 0 PageOut.clean).unc = true) (hm : memWf s.mem = true)
    (hc : c = s.rd Reg.FLC_QAPP_CBASE + 16 * (s.rd Reg.FLC_QAPP_HEAD_CDONE % qN s)) (hlo : c < 0x80000000) :
    completes (.flashOperationEnd pl o dt) s (fun t => (memRd t.mem (c + 2)).toNat = 1 ∧ (memRd t.mem (c + 9)).toNat = 0 ∧ t.rd Reg.FLC_UNCCNT = satAdd 32 (s.rd Reg.FLC_UNCCNT) 1 ∧ 163 ∈ t.flight ∧
      (∀ x, x < c ∨ c + 16 ≤ x → memRd t.mem x = memRd s.mem x)) := by
  subst hl
  have hc : c = complSlot s := hc
  subst hc
  obtain ⟨v, hv⟩ : ∃ v, v = readCount (dBlk s run.d) (o.reads.getD 0 PageOut.clean) (planeFreed pl (s.pass dt)) := ⟨_, rfl⟩
  have hdone : ∃ rset, opEnded o run (planeFreed pl (s.pass dt)) = flcComplete run.d { ranSince run with status := 1, rset := rset } (readUnc (dBlk s run.d) v) := by
    have hend (sink : Nat → State → Option State) :
        ∃ rset, readRun run.d (dBlk s run.d) o sink (ranSince run) (planeFreed pl (s.pass dt)) = ⟨readUnc (dBlk s run.d) v, { ranSince run with status := 1, rset := rset }, true⟩ := by
      rw [hv]
      exact readRun_fails hn hpage ho
    unfold opEnded
    rcases hop with hop | hop <;> rw [hop] <;> dsimp only
    · obtain ⟨rset, h⟩ := hend (readSink run.d (dBlk s run.d))
      exact ⟨rset, (flcDone_app hq _ _).trans (by rw [show dBlk (planeFreed pl (s.pass dt)) run.d = dBlk s run.d from rfl, h])⟩
    · obtain ⟨rset, h⟩ := hend (loadSink run.d (dBlk s run.d))
      exact ⟨rset, (flcDone_app hq _ _).trans (by rw [show dBlk (planeFreed pl (s.pass dt)) run.d = dBlk s run.d from rfl, h])⟩
  obtain ⟨rset, hdone⟩ := hdone
  have hrd {f : Field} (hf : offMbx f) (hnext : f.key ≠ Reg.AGE_STAT_NEXT.key) (hunc : f.key ≠ Reg.FLC_UNCCNT.key) (hcorr : f.key ≠ Reg.FLC_CORRCNT.key) (hretry : f.key ≠ Reg.FLC_RETRYCNT.key) :
      (readUnc (dBlk s run.d) v).rd f = s.rd f := by
    rw [readUnc_rd _ _ hf hnext hunc, hv, readCount_rd_other _ _ _ hcorr hretry]
    rfl
  have hcount : (readUnc (dBlk s run.d) v).rd Reg.FLC_UNCCNT = satAdd 32 (s.rd Reg.FLC_UNCCNT) 1 := by
    rw [readUnc_counted, hv, readCount_rd_other _ _ _ (by decide) (by decide)]
    rfl
  have hevent := readUnc_event (dBlk s run.d) v
  have hmem : (readUnc (dBlk s run.d) v).mem = s.mem := by
    rw [readUnc_parts_same (dBlk s run.d) v .mem (by decide), hv, readCount_parts_same _ _ _ .mem (by decide)]
    rfl
  refine completes_ended hpl hrun ?_
  rw [hdone]
  generalize readUnc (dBlk s run.d) v = w at hrd hcount hevent hmem ⊢
  have hslot : complSlot w = complSlot s := complSlot_of_rd (by
    simp only [List.forall_mem_cons, List.not_mem_nil, false_implies, implies_true, and_true]
    exact ⟨hrd (.inr (by decide)) (by decide) (by decide) (by decide) (by decide), hrd (.inr (by decide)) (by decide) (by decide) (by decide) (by decide), hrd (.inr (by decide)) (by decide) (by decide) (by decide) (by decide)⟩)
  rw [← hmem] at hm
  rw [← hslot] at hlo ⊢
  refine ⟨?_, ?_, ?_, mem_flight_flcComplete _ _ hevent, fun x hx => ?_⟩
  · rw [flcComplete_byte hm hlo (by decide), complRec_status]
    rfl
  · rw [flcComplete_byte hm hlo (by decide), complRec_ndone]
    rfl
  · rw [flcComplete_rd _ _ _ _ (.inl (by decide)) (by decide) (by decide) (by decide), hcount]
  · rw [flcComplete_byte_other hlo hx, hmem]

/-! ### A page that a READ or a LOAD brings (R490, R503) -/

theorem pageData_readCount (l' page l : Nat) (o : PageOut) (s : State) : pageData (readCount l o s) l' page = pageData s l' page := by
  obtain ⟨groups, marks, hflc⟩ := readCount_flc l o s
  rw [pageData, pageAt, physOf, hflc]
  rfl

/-- What the read of one page leaves to its sink: memory, parity and the queue's registers stand. -/
structure PageRead (s v : State) : Prop where
  mem : v.mem = s.mem
  par : v.par = s.par
  pages : v.flc.pages = s.flc.pages
  data : ∀ l page, pageData v l page = pageData s l page
  slot : complSlot v = complSlot s
  cdone : v.rd Reg.FLC_QAPP_HEAD_CDONE = s.rd Reg.FLC_QAPP_HEAD_CDONE
  xo : ∀ part lblk, inXo v part lblk = inXo s part lblk

theorem pageRead_readCount (l : Nat) (o : PageOut) (pl dt : Nat) (s : State) : PageRead s (readCount l o (planeFreed pl (s.pass dt))) := by
  have hparts := readCount_parts_same l o (planeFreed pl (s.pass dt))
  have hrd {f : Field} (hcorr : f.key ≠ Reg.FLC_CORRCNT.key) (hretry : f.key ≠ Reg.FLC_RETRYCNT.key) : (readCount l o (planeFreed pl (s.pass dt))).rd f = s.rd f := readCount_rd_other _ _ _ hcorr hretry
  obtain ⟨groups, marks, hflc⟩ := readCount_flc l o (planeFreed pl (s.pass dt))
  refine ⟨(hparts .mem (by decide)).trans rfl, (hparts .par (by decide)).trans rfl, by rw [hflc]; rfl, fun l' page => (pageData_readCount l' page l o _).trans rfl, complSlot_of_rd ?_, hrd (by decide) (by decide), fun part lblk => ?_⟩
  · simp only [List.forall_mem_cons, List.not_mem_nil, false_implies, implies_true, and_true]
    exact ⟨hrd (by decide) (by decide), hrd (by decide) (by decide), hrd (by decide) (by decide)⟩
  · have hxo (n : Nat) (g : Field) (ha : g.addr = 0x400E0200 + 4 * n) : (readCount l o (planeFreed pl (s.pass dt))).rd g = s.rd g :=
      hrd (by simp only [Field.key, ha, Reg.FLC_CORRCNT]; omega) (by simp only [Field.key, ha, Reg.FLC_RETRYCNT]; omega)
    simp only [inXo, State.on, hxo _ (Reg.FLC_XO_EN _) rfl, hxo _ (Reg.FLC_XO_PART _) rfl, hxo _ (Reg.FLC_XO_FIRST _) rfl, hxo _ (Reg.FLC_XO_NBLK _) rfl]

/-- The end of a READ or LOAD of one page that can be corrected. -/
theorem onePage_ended {o : FlashOut} {run : FRun} {sink : Nat → State → Option State} (hn : run.d.npage = 1) (ho : (o.reads.getD 0 PageOut.clean).unc = false) (l pl dt : Nat) (s : State) :
    ∃ v, PageRead s v ∧ ∀ w, sink 0 v = some w → ∃ rec_ : FDone, rec_.status = 0 ∧
      flcDone run.d (readRun run.d l o sink (ranSince run) (planeFreed pl (s.pass dt))).rec_ (readRun run.d l o sink (ranSince run) (planeFreed pl (s.pass dt))).st = flcDone run.d rec_ w := by
  obtain ⟨o', hsink⟩ := readPage_sinks (l := l) (page := run.d.page) (i := 0) (o := o.reads.getD 0 PageOut.clean) (sink := sink) (a := ⟨planeFreed pl (s.pass dt), ranSince run, false⟩) rfl ho
  refine ⟨readCount l o' (planeFreed pl (s.pass dt)), pageRead_readCount l o' pl dt s, fun w hw => ?_⟩
  obtain ⟨hst, hstatus⟩ := hsink w hw
  exact ⟨_, hstatus, by rw [readRun_one hn, hst]⟩

theorem read_ends (pl l c dt : Nat) (o : FlashOut) (run : FRun) (s : State) (hpl : pl < 2) (hrun : look pl s.flc.run = some run) (hop : run.d.op = 1) (hq : run.d.q = 3) (hn : run.d.npage = 1) (hmeta : run.d.meta_ = 0)
    (hl : l = dBlk s run.d) (ho : (o.reads.getD 0 PageOut.clean).unc = false) (hlo : run.d.buf + 4096 ≤ 0x80000000) (hxo : xoIn s run.d.buf 4096 = false) (hlen : (pageData s l run.d.page).length = 4096)
    (hm : memWf s.mem = true) (hc : c = s.rd Reg.FLC_QAPP_CBASE + 16 * (s.rd Reg.FLC_QAPP_HEAD_CDONE % qN s)) (hclo : c < 0x80000000) (haway : c + 16 ≤ run.d.buf ∨ run.d.buf + 4096 ≤ c) :
    completes (.flashOperationEnd pl o dt) s (fun t => (∀ i, i < 4096 → (memRd t.mem (run.d.buf + i)).toNat = (pageData s l run.d.page).getD i 0 % 256) ∧ (memRd t.mem (c + 2)).toNat = 0 ∧
      t.flc.pages = s.flc.pages ∧ t.rd Reg.FLC_QAPP_HEAD_CDONE = (s.rd Reg.FLC_QAPP_HEAD_CDONE + 1) % 65536) := by
  have hc : c = complSlot s := hc
  subst hc
  obtain ⟨v, hv, hend⟩ := onePage_ended (sink := readSink run.d l) hn ho l pl dt s
  have hwrite : engineWrite 16 run.d.buf (pageData s l run.d.page) v = arrayWrite run.d.buf (pageData s l run.d.page) false v :=
    engineWrite_array _ _ _ _ (List.ne_nil_of_length_pos (by omega)) (by omega)
  have hsink : readSink run.d l 0 v = some (arrayWrite run.d.buf (pageData s l run.d.page) false v) := by
    have hfree : ¬ (xoIn v (run.d.buf + 4096 * 0) 4096 = true ∨ (run.d.meta_ ≠ 0 ∧ xoIn v (run.d.meta_ + 16 * 0) 16 = true)) := by
      rw [Nat.mul_zero, Nat.add_zero, xoIn, hv.par, show (s.par.xo.any fun r => decide (r * 128 < run.d.buf + 4096) && decide (run.d.buf < r * 128 + 128)) = false from hxo, hmeta]
      simp
    unfold readSink
    rw [if_neg hfree]
    dsimp only
    rw [if_pos hmeta, hv.data, Nat.mul_zero, Nat.add_zero, Nat.add_zero, hwrite]
  obtain ⟨rec_, hstatus, hdone⟩ := hend _ hsink
  obtain ⟨w, hw⟩ : ∃ w, w = arrayWrite run.d.buf (pageData s l run.d.page) false v := ⟨_, rfl⟩
  have hmem : w.mem = memWrBytes s.mem run.d.buf (pageData s l run.d.page) := by
    rw [hw, ← hv.mem]
    rfl
  have hslot : complSlot w = complSlot s := by
    rw [← hv.slot, hw]
    rfl
  have hwm : memWf w.mem = true := by
    rw [hmem]
    exact memWf_memWrBytes _ _ _ hm
  refine completes_ended hpl hrun ?_
  have hended : opEnded o run (planeFreed pl (s.pass dt)) = flcComplete run.d rec_ w := by
    unfold opEnded
    rw [hop, show dBlk (planeFreed pl (s.pass dt)) run.d = l by rw [hl]; rfl]
    exact hdone.trans (by rw [flcDone_app hq, hw])
  rw [hended, flcComplete_cdone, flcComplete_flc]
  rw [← hslot] at hclo haway ⊢
  refine ⟨fun i hi => ?_, ?_, ?_, ?_⟩
  · rw [flcComplete_byte_other hclo (by omega), hmem, memRd_memWrBytes_at _ _ _ _ hm (by omega)]
    rfl
  · rw [flcComplete_byte hwm hclo (by decide), complRec_status, hstatus]
  · rw [hw]
    exact hv.pages
  · rw [hw]
    exact congrArg (fun n => (n + 1) % 65536) hv.cdone

/-- The 32 rows of a page of code. -/
def rowsAt (a : Nat) : List Nat := (List.range 32).map (· + a / 128)

theorem mem_rowsAt {a j : Nat} (hj : j < 32) : a / 128 + j ∈ rowsAt a := List.mem_map.2 ⟨j, List.mem_range.2 hj, Nat.add_comm _ _⟩

/-- A page of code stands in its rows. -/
def pageLoaded (d : FDesc) (l : Nat) (s : State) : State :=
  let s1 := arrayWrite d.buf (pageData s l d.page) true s
  { s1 with
    par := { s1.par with
      backed := s1.par.backed.filter (fun r => !(rowsAt d.buf).contains r) ++ rowsAt d.buf
      xo := s1.par.xo.filter (fun r => !(rowsAt d.buf).contains r) ++ (if inXo s d.part d.lblk then rowsAt d.buf else []) }
    flc := { s1.flc with sources := (rowsAt d.buf).foldl (fun m r => put r (l * 64 + d.page, (r - d.buf / 128) * 128) m) s1.flc.sources } }

theorem look_pageLoaded {l j : Nat} (hj : j < 32) : look (d.buf / 128 + j) (pageLoaded d l s).flc.sources = some (l * 64 + d.page, j * 128) := by
  have hrow := mem_rowsAt (a := d.buf) hj
  unfold pageLoaded
  dsimp only
  generalize rowsAt d.buf = rows at hrow ⊢
  have hput := look_foldl_put (fun r => (l * 64 + d.page, (r - d.buf / 128) * 128)) rows s.flc.sources (.inl hrow)
  rw [Nat.add_sub_cancel_left] at hput
  exact hput

theorem loadSink_first (d : FDesc) (l : Nat) (s : State) : loadSink d l 0 s = some (pageLoaded d l s) := rfl

theorem load_ends (pl dt c : Nat) (o : FlashOut) (run : FRun) (s : State) (hpl : pl < 2) (hrun : look pl s.flc.run = some run) (hop : run.d.op = 4) (hq : run.d.q = 3) (hn : run.d.npage = 1)
    (ho : (o.reads.getD 0 PageOut.clean).unc = false) (halign : run.d.buf % 128 = 0) (_ : run.d.buf + 4096 ≤ 0x80000000) (hlen : (pageData s (dBlk s run.d) run.d.page).length = 4096) (hm : memWf s.mem = true)
    (hc : c = s.rd Reg.FLC_QAPP_CBASE + 16 * (s.rd Reg.FLC_QAPP_HEAD_CDONE % qN s)) (hclo : c < 0x80000000) (haway : c + 16 ≤ run.d.buf ∨ run.d.buf + 4096 ≤ c) :
    completes (.flashOperationEnd pl o dt) s (fun t => (∀ i, i < 4096 → (memRd t.mem (run.d.buf + i)).toNat = (pageData s (dBlk s run.d) run.d.page).getD i 0 % 256) ∧
      (∀ j, j < 32 → run.d.buf / 128 + j ∈ t.par.backed ∧ (run.d.buf / 128 + j ∈ t.par.xo ↔ inXo s run.d.part run.d.lblk = true) ∧
        look (run.d.buf / 128 + j) t.flc.sources = some (dBlk s run.d * 64 + run.d.page, j * 128))) := by
  have hc : c = complSlot s := hc
  subst hc
  obtain ⟨v, hv, hend⟩ := onePage_ended (sink := loadSink run.d (dBlk s run.d)) hn ho (dBlk s run.d) pl dt s
  obtain ⟨rec_, -, hdone⟩ := hend _ (loadSink_first _ _ _)
  obtain ⟨w, hw⟩ : ∃ w, w = pageLoaded run.d (dBlk s run.d) v := ⟨_, rfl⟩
  have hmem : w.mem = memWrBytes s.mem run.d.buf (pageData s (dBlk s run.d) run.d.page) := by
    rw [hw, ← hv.mem, ← hv.data]
    rfl
  have hslot : complSlot w = complSlot s := by
    rw [← hv.slot, hw]
    rfl
  have hended : opEnded o run (planeFreed pl (s.pass dt)) = flcComplete run.d rec_ w := by
    unfold opEnded
    rw [hop]
    exact hdone.trans (by rw [flcDone_app hq, hw])
  refine completes_ended hpl hrun ?_
  rw [hended, flcComplete_flc]
  rw [← hslot] at hclo haway
  rw [flcComplete_par hclo]
  refine ⟨fun i hi => ?_, fun j hj => ⟨?_, ?_, ?_⟩⟩
  · rw [flcComplete_byte_other hclo (by omega), hmem, memRd_memWrBytes_at _ _ _ _ hm (by omega)]
    rfl
  · refine List.mem_filter.2 ⟨?_, ?_⟩
    · rw [hw]
      exact List.mem_append_right _ (mem_rowsAt hj)
    · simp only [length_complRec, Bool.not_eq_true', Bool.and_eq_false_iff, decide_eq_false_iff_not]
      omega
  · change _ ∈ w.par.xo ↔ _
    rw [hw, ← hv.xo]
    change _ ∈ List.filter _ _ ++ (if inXo v run.d.part run.d.lblk then rowsAt run.d.buf else []) ↔ _
    rw [List.mem_append, List.mem_filter]
    have hrow := mem_rowsAt (a := run.d.buf) hj
    cases inXo v run.d.part run.d.lblk <;> simp [hrow]
  · change look _ w.flc.sources = _
    rw [hw]
    exact look_pageLoaded hj

end

end Sys2Proof.Machine

open Sys2Proof Sys2Proof.Machine

/-- Settles O50: what each end of an operation, the code loader, a refresh and a scrub do, by its own lemma. -/
theorem flashResults : Obligations.FlashResults := by
  unfold Obligations.FlashResults
  exact ⟨erase_ends, prog_ends, read_ends, read_fails, load_ends, codeLoader_reads, codeLoader_refused, blockRefresh_moves, autoScrub_clean⟩
end
